-- ==== Sys2Proof/Word.lean ====
section
/-! DEFINITION. The word types of the node: bytes, 32-bit registers, 24-bit register
addresses (R143), 48-bit frame numbers (R9) and the 64-bit tick count TB (R9). -/

namespace Sys2Proof

/-- A byte of a packet, a frame, a cell or a buffer. -/
abbrev Byte := BitVec 8

/-- A 32-bit register (R143). -/
abbrev Word := BitVec 32

/-- A frame number FRAME48, whole frames since the timebase origin modulo 2^48 (R9). -/
abbrev Frame48 := BitVec 48

/-- Ticks in a frame (R9). -/
def ticksPerFrame : Nat := 800

/-- Ticks in an epoch (R9): 1,000,000 frames. -/
def ticksPerEpoch : Nat := 800000000

end Sys2Proof
end

