-- ==== Sys2Proof/Syntax.lean ====
section
/-! DEFINITION. The commands of the node: the operand types and the one inductive Instr with one
constructor for each row of spec/opcode_table.json. The table gives no row an encoding, so the
operands are those the rule of each row names. -/

namespace Sys2Proof

/-- The two variants of Table 00-1. -/
inductive Variant where
  | g2 | b
  deriving DecidableEq, Repr

/-- The two chain ports (04). -/
inductive ChainPort where
  | up | dn
  deriving DecidableEq, Repr

/-- The two CAN ports (12). -/
inductive CanPort where
  | a | b
  deriving DecidableEq, Repr

/-- The two sides of the barrier (01, 03). -/
inductive Side where
  | host | field
  deriving DecidableEq, Repr

/-- Where a request packet came from (R131 to R135). `planner` is the node's own planner
function, the only source a head accepts CLAY_RELEASE from under TC and BUILTIN (R161). -/
inductive Via where
  /-- a CMD frame with that ORIG_HOP -/
  | chain (origHop : BitVec 16)
  | headHost
  /-- a CAN port, with the ISO 11783 source address or the native node number -/
  | can (port : CanPort) (src : Byte)
  | svc
  | planner
  deriving DecidableEq, Repr

/-- A command packet, Table 05-1, less its PLEN and CRC. `ignored` is CHPRI[2:0]. -/
structure Packet where
  ver : BitVec 4 := 1
  bcast : Bool := false
  ackreq : Bool := true
  sched : Bool := false
  more : Bool := false
  opcode : Byte
  seq : BitVec 16
  dest : BitVec 16
  src : BitVec 16
  chainId : BitVec 3 := 0
  cls : BitVec 2 := 0
  ignored : BitVec 3 := 0
  applyAt : Frame48 := 0
  payload : List Byte := []
  deriving DecidableEq, Repr

/-- A request as H-core serves it: the packet and its arrival transport. `parts` holds the
payloads of a multi-part request in order (R129), and is empty for a single packet. -/
structure Request where
  via : Via
  pkt : Packet
  parts : List (List Byte) := []
  deriving DecidableEq, Repr

/-- The CRC of a received chain frame (R96). -/
inductive CrcState where
  | good | stomped | bad
  deriving DecidableEq, Repr

/-- A chain frame, Table 04-1. LEN is the payload's length. -/
structure ChainFrame where
  sdl : Bool := false
  ftype : BitVec 4
  ftypeHi : BitVec 4 := 0
  amode : BitVec 2
  chainId : BitVec 3 := 0
  cls : BitVec 2 := 0
  srcuna : Bool := false
  dest : BitVec 16 := 0
  origHop : BitVec 16 := 0
  payload : List Byte
  lenOk : Bool := true
  crc : CrcState := .good
  deriving DecidableEq, Repr

/-- What a frame carries beside the payload its row names (Table 04-1): chain ID, class, SRCUNA, DEST, ORIG_HOP
and the CRC it arrived with. -/
structure FrameHdr where
  chainId : BitVec 3 := 0
  cls : BitVec 2 := 0
  srcuna : Bool := false
  dest : BitVec 16 := 0
  origHop : BitVec 16 := 0
  crc : CrcState := .good
  deriving DecidableEq, Repr

/-- The payload of a TIME frame, Table 04-3, with its header. `w1` and `w2` are bytes 24 to 27 and 28 to 31;
`resv` holds the reserved bits of bytes 16 and 17, which a node forwards as they are. -/
structure TimeInfo where
  tbTx : BitVec 64
  corr : BitVec 32
  originId : BitVec 32
  originGps : Bool
  qual : BitVec 2
  island : Bool
  step : Bool
  policy : BitVec 7
  breakFrame : Frame48
  w1 : BitVec 32
  w2 : BitVec 32
  resv : BitVec 4 := 0
  hdr : FrameHdr := {}
  deriving DecidableEq, Repr

/-- The payload of an ENUM frame, Table 04-6, less its KIND, which the row gives, with its header; `resv` holds the
reserved bits of byte 1 and the bytes 17 to 19, which a node forwards as they are. -/
structure EnumInfo where
  recheck : Bool
  pinned : Bool := false
  accept : Bool := false
  stalled : Bool := false
  gen : BitVec 16
  hop : BitVec 16
  addr : BitVec 16
  serial : BitVec 64 := 0
  planner : Byte := 0
  resv : BitVec 28 := 0
  hdr : FrameHdr := {}
  deriving DecidableEq, Repr

/-- The payload of a MARL frame, Table 04-4, with its header. `valid` says that its CRC is correct; `resv` holds
the reserved bits of byte 0 and the bytes 6 and 7, which a node forwards as they are. -/
structure MarlInfo where
  all : Bool
  reason : Byte
  first : BitVec 16
  last : BitVec 16
  valid : Bool := true
  resv : BitVec 23 := 0
  hdr : FrameHdr := {}
  deriving DecidableEq, Repr

/-- An IDLE descriptor, Table 04-4. -/
structure IdleInfo where
  port : BitVec 2
  clksrc : Bool := false
  generation : Byte := 1
  deriving DecidableEq, Repr

/-- Why a cold relock starts (R47). -/
inductive RelockCause where
  | powerUp | wake | phaseError | outOfRange
  deriving DecidableEq, Repr

/-- The reference the DPLL locks to during a cold relock (R48, R51). -/
inductive LockRef where
  | tcxo | chainUp | noReference
  deriving DecidableEq, Repr

/-- A HEARTBEAT payload, Table 03-5, by direction. -/
inductive Heartbeat where
  | fromHost (fwAlive ackSeq : BitVec 16) (halted : Bool) (hbto : BitVec 16)
  | fromField (fwAlive ackSeq : BitVec 16) (halted : Bool) (dropCrc dropSeq dropTyp : Byte)
      (active : BitVec 16)
  deriving DecidableEq, Repr

/-- Why a cell is dropped (R69). -/
inductive CellDrop where
  | crc
  | seq (got : BitVec 16)
  | typ (got : BitVec 16)
  deriving DecidableEq, Repr

/-- The field part of a command of flag F: its opcode and its parameters (R154; log entry 13). -/
structure FieldOp where
  opcode : Byte
  params : List Byte
  deriving DecidableEq, Repr

/-- A CFG_WRITE cell, Table 03-6, or the field part of a command of flag F. -/
structure CfgWriteCell where
  tag : BitVec 16
  sched : Bool := false
  addr : BitVec 24
  value : Word
  mask : Word
  applyAt : Frame48 := 0
  op : Option FieldOp := none
  deriving DecidableEq, Repr

/-- One edge of a SCHED_EDGE cell, Table 08-3. -/
structure Edge where
  ch : Fin 32
  on : Bool
  frame : Frame48
  tick : Fin 800
  fine : BitVec 5
  deriving DecidableEq, Repr

/-- A LOOP_COEF cell, Table 10-4. -/
structure CoefCell where
  tag : BitVec 16
  slot : Fin 16
  banked : Bool
  swap : Bool
  first : Byte
  words : List Word
  sample : Word := 0
  deriving DecidableEq, Repr

/-- An event record, Table 17-1. -/
structure EventRec where
  tb : BitVec 64
  side : Side
  seq : BitVec 31
  code : BitVec 16
  sev : BitVec 2
  opened : Bool
  chan : Byte
  count : BitVec 16
  last : BitVec 32
  data : List Byte
  deriving DecidableEq, Repr

/-- A solution of the receiver (R287, Table 11-8). `gpsTime` is GPS time at the measurement
frame in units of 10 ps since the GPS epoch. -/
structure GnssSol where
  fix : BitVec 3
  sats : Byte
  sigCount : Byte
  frame : Frame48
  lat : Word
  lon : Word
  height : Word
  velE : BitVec 16
  velN : BitVec 16
  velU : BitVec 16
  week : BitVec 16
  tow : Word
  gpsTime : Nat
  uncertNs : Nat
  hdop : BitVec 16
  sigma : BitVec 16
  corrAge : BitVec 16
  signals : List (Byte × Byte × Byte × Byte)
  deriving DecidableEq, Repr

/-- One measured signal of a MEAS record, Table 11-9. -/
structure MeasSig where
  sat : Byte
  flags : Byte
  cn0 : Byte
  phase : Word
  range : BitVec 24
  deriving DecidableEq, Repr

/-- A BASE record, Table 11-9. -/
structure BaseRec where
  status : Byte
  nodeA : BitVec 16
  nodeB : BitVec 16
  frame : Frame48
  east : Word
  north : Word
  up : Word
  sigmaH : BitVec 16
  sigmaV : BitVec 16
  deriving DecidableEq, Repr

/-- The data of a snapshot solution, Table 11-11. -/
structure SnapSol where
  sats : Byte
  lat : Word
  lon : Word
  height : Word
  week : BitVec 16
  tow : BitVec 64
  sigmaH : BitVec 16
  sigmaT : BitVec 16
  deriving DecidableEq, Repr

/-- A frame on a CAN bus (Table 12-4). -/
structure CanFrame where
  ide : Bool
  id : BitVec 29
  fdf : Bool := false
  brs : Bool := false
  rtr : Bool := false
  esi : Bool := false
  data : List Byte
  deriving DecidableEq, Repr

/-- The kinds of bus error CANx_ERRS counts (Table 12-6). -/
inductive CanErrKind where
  | bit | stuff | crc | formAck
  deriving DecidableEq, Repr

/-- How an ISO 11783-3 message on PGN 61184 arrived (R133). -/
inductive TpKind where
  | connection | singleFrame | bam
  deriving DecidableEq, Repr

/-- The wake sources of Table 14-5 and R373, in the order of PWR_WHY. -/
inductive WakeSrc where
  | keyIn | lsup | fsup | sin0 | energyUp | energyDn | canAEdge | canBEdge | tck | marl
  | canAFrame | canBFrame | mailboxGo
  deriving DecidableEq, Repr

/-- The access ports of the debug module (15). -/
inductive DbgPort where
  | h | f
  deriving DecidableEq, Repr

/-- The boundary-scan instructions of R402. -/
inductive ScanInstr where
  | extest | clamp | highz
  deriving DecidableEq, Repr

/-- A debug request to F-core (R390): what the levels of Table 15-3 permit at the F-port. -/
inductive DbgReq where
  | halt | resume | singleStep
  | readReg (addr : BitVec 24)
  | writeReg (addr : BitVec 24) (value : Word)
  | readSram (addr : BitVec 20)
  | writeSram (addr : BitVec 20) (value : Byte)
  | traceOn (on : Bool)
  deriving DecidableEq, Repr

/-- The result of one sweep slot (Tables 17-5 and R453). -/
structure SweepRes where
  ch : Fin 32
  state : Byte
  v1 : Word
  v2 : Word
  v3 : BitVec 16
  deriving DecidableEq, Repr

/-- What SWEEP_CTRL tells the field side (R452, R453). -/
inductive SweepMsg where
  | start (kind : Fin 4) (mask : Word) (sweepId : BitVec 16) (applyAt : Frame48)
  | abort (sweepId : BitVec 16)
  deriving DecidableEq, Repr

/-- An as-applied look-ahead report of a chain node to the head (R192): section, on and off
look-ahead in 0.1 ms units. -/
structure PeerLook where
  sect : Fin 256
  on : Int
  off : Int
  deriving DecidableEq, Repr

/-- One command of the node: a row of spec/opcode_table.json. Commands with operands come first, since Lean's
compiler wants a low index for a constructor with fields. -/
inductive Instr where
  /- Commands with operands. -/
  -- supplies, key and cell (18, 14, 01)
  | cellDetected (mv : BitVec 12) (temp : Byte)
  | chargerPhaseChange (mv : BitVec 12) (ma : Nat) (temp : Byte) (lsupOk : Bool)
  -- epoch and time (01, 02, 11)
  | epochEdge (peers : List PeerLook) (samples : List (Fin 32 × BitVec 12)) | coldRelock (why : RelockCause)
  | dpllLockDetect (lockRef : LockRef) | clockUngate (refCycles : Nat) | tbCtrlWrite (value mask : Word)
  | timeFrame (info : TimeInfo) (residence : Nat) | timeEchoSend (sub : Byte)
  | timeEchoRequest (seq : Byte) (resid : BitVec 32)
  | timeEchoAnswer (seq : Byte) (sub : Byte) (resid : BitVec 32)
  -- barrier (03)
  | barrierLinkUp (latency : Fin 1024) | heartbeatSend (side : Side) | heartbeat (hb : Heartbeat)
  | timeSync (tb : BitVec 64) | cellReject (side : Side) (why : CellDrop) (inMessage : Bool)
  | cfgWrite (cell : CfgWriteCell) | cfgRead (tag : BitVec 16) (addr : BitVec 24) (count : BitVec 3)
  | cfgData (tag : BitVec 16) (status : Byte) (addr : BitVec 24) (values : List Word)
  | cfgResend (tag : BitVec 16) | safeReq (causes : BitVec 16) | barrCntclr (value : Word)
  -- chain (04)
  | symbolLock (port : ChainPort) | symbolLockLoss (port : ChainPort) | idleSend (port : ChainPort)
  | idleFrame (port : ChainPort) (info : IdleInfo) | partnerTimeout (port : ChainPort)
  | frameForward (port : ChainPort) (frame : ChainFrame) | cmdFrame (frame : ChainFrame)
  | rplFrame (frame : ChainFrame) | evtFrame (frame : ChainFrame) | enumWalkStart (recheck : Bool)
  | enumStart (info : EnumInfo) | enumClaim (info : EnumInfo) | enumVerdict (info : EnumInfo)
  | enumEnd (info : EnumInfo) | enumDone (info : EnumInfo) | marlFrame (info : MarlInfo)
  | lineEnergyWake (port : ChainPort) | chCntclr (value : Word)
  -- transports and packet bookkeeping (05)
  | canTpMessage (port : CanPort) (sa da : Byte) (kind : TpKind) (bytes : List Byte)
  | canFdSegment (port : CanPort) (id : BitVec 29) (data : List Byte)
  | fdSegmentTimeout (port : CanPort) (node : Byte) | multipartTimeout (via : Via) (src : BitVec 16)
  | pktCntclr (value : Word)
  -- opcodes 0x00 to 0x25 (06)
  | idGet (q : Request) | modeSet (q : Request) | clayEnter (q : Request) | clayRelease (q : Request)
  | reset (q : Request) | statusGet (q : Request) | cancel (q : Request) | enumerate (q : Request)
  | chainGet (q : Request) | pinSet (q : Request) | marlSend (q : Request) | tbRead (q : Request)
  | tbRealign (q : Request) | ochSet (q : Request) | ochTiming (q : Request) | ochEdges (q : Request)
  | ochClear (q : Request) | ochStatus (q : Request) | ochFlush (q : Request)
  -- opcodes 0x30 to 0x44
  | switchLine (q : Request) | switchClear (q : Request) | geometrySet (q : Request) | lookaheadSet (q : Request)
  | latencyGet (q : Request) | latencySeed (q : Request) | motionGet (q : Request) | sinRead (q : Request)
  | fanRestart (q : Request) | loopCoef (q : Request) | loopSwap (q : Request) | loopCtrl (q : Request)
  | loopStop (slots : BitVec 16) | loopRun (slots : BitVec 16) | loopReset (slots : BitVec 16)
  | loopTest (q : Request) | loopRead (q : Request) | loopClr (slot : Fin 16) (value : Word)
  -- opcodes 0x48 to 0x54
  | gnssGet (q : Request) | gnssAid (q : Request) | rtcmIn (q : Request) | snapCapture (q : Request)
  | snapCaptureEnd (samples : List Byte) (gain1 gain5 : BitVec 16) | snapXfer (q : Request)
  | snapSolve (q : Request) | snapSolveDone (sol : SnapSol) | nmeaGet (q : Request) | baselineGet (q : Request)
  | canGet (q : Request) | canMode (q : Request) | canRecover (q : Request) | canSend (q : Request)
  | canCancel (q : Request)
  -- opcodes 0x58 to 0x6C
  | eventRead (q : Request) | eventClose (q : Request) | sweepStart (q : Request) | sweepResult (q : Request)
  | sweepAbort (q : Request) | asappliedRead (q : Request) | setRead (q : Request) | setWrite (q : Request)
  | setCommit (q : Request) | setDiscard (q : Request) | imgBegin (q : Request) | imgData (q : Request)
  | imgVerify (q : Request) | imgActivate (q : Request) | imgInfo (q : Request)
  -- opcodes 0x70 to 0x7B and registers
  | secGet (q : Request) | dbgNonce (q : Request) | dbgUnlock (q : Request) | dbgLock (q : Request)
  | lcAdvance (q : Request) | pdSet (q : Request) | domainTransaction (micros : Nat) | pdGet (q : Request)
  | regRead (q : Request) | regWrite (q : Request) | registerWrite (addr : BitVec 24) (value mask : Word)
  -- motion, sections and edges (07, 08)
  | latencyMeasure (ch : Fin 32) (on : Bool) (samples : List Nat) (edgeMv sigMv : Nat)
  | tcSetpoint (sect : Fin 256) (on : Bool) (frame : Frame48) | schedEdge (tag : BitVec 16) (edges : List Edge)
  | edgeAck (acks : List (BitVec 16 × Fin 4)) | schedEdgeResend (tag : BitVec 16) | edgeExecute (ch : Fin 32)
  | generatorEdge (ch : Fin 32) | periodBoundary (ch : Fin 32) | calMeasure (spanOk : Bool) (tap : Byte)
  | overcurrentTrip (ch : Fin 32) (sample : BitVec 12) | shortCircuitTrip (ch : Fin 32)
  | tripInput (i : Fin 4) (level : Bool) | overtempTrip (ch : Fin 32)
  | blankingEnd (ch : Fin 32) (sample : BitVec 12) | inrushEnd (ch : Fin 32) | tripRetry (ch : Fin 32)
  | shortOffEnd (ch : Fin 32) | overtempRelease (ch : Fin 32) | countingPeriodEnd (ch : Fin 32)
  | peakPhaseEnd (ch : Fin 32) (sample : BitVec 12) | holdChopOff (ch : Fin 32) (sample : BitVec 12)
  | lampMeasure (ch : Fin 32) (samples : List (BitVec 12)) | lampOffMeasure (ch : Fin 32) (mv : Nat)
  | ochCntclr (value : Word)
  -- sense inputs and fans (09)
  | sinEdge (n : Fin 16) (rising : Bool) (both : Bool) (stamp : BitVec 64) | sinUpdate (means : List Nat)
  | switchClassAccept (n : Fin 16) (ohms : Nat) | wireOpenDetect (n : Fin 16) | fanStall (j : Fin 2)
  | openLimExpiry (j : Fin 2) | sinCntclr (value : Word)
  -- loop engine (10)
  | loopSample (slot : Fin 16) (fb : Int) | loopSwapAct (slot : Fin 16) | loopCoefCell (cell : CoefCell)
  | coefApply (slot : Fin 16) | coefAck (acks : List (BitVec 16 × Byte)) | loopCoefResend (tag : BitVec 16)
  -- satellite navigation (11)
  | acquisitionStart (ch : Fin 96) (sat : Byte) (signal : Fin 4)
  | trackingDump (ch : Fin 96) (accum : List Int) (codePhase carrPhase : Word)
      (write : Option (Word × Word)) (sameCycle : Bool)
  | carrierLock (ch : Fin 96) | carrierLockLoss (ch : Fin 96) | gnssMeasure (sigs : List MeasSig)
  | gnssSolution (sol : GnssSol) | baselineCompute (recs : List BaseRec) | burstEnd (sol : GnssSol)
  | timeDateMessage (week : BitVec 16) (tow : Word) | gnssCntclr (value : Word)
  -- CAN (12)
  | canFrameReceive (port : CanPort) (frame : CanFrame) | abrTimeout (port : CanPort)
  | canTxStart (port : CanPort) | canArbLost (port : CanPort)
  | canBusError (port : CanPort) (kind : CanErrKind) (tx : Bool) (tec rec : Nat) | canFrameSent (port : CanPort)
  | canRecoveryDone (port : CanPort) | canModeApply (port : CanPort) | canWakeEdge (port : CanPort)
  | canLeaveSleep (port : CanPort) | addressClaimed (name : BitVec 64) (sa : Byte)
  | commandedAddress (name : BitVec 64) (addr : Byte) | moStatRead (port : CanPort) (n : Fin 128)
  | canCntclr (port : CanPort) (value : Word)
  -- service port (13)
  | i2cWriteTransfer (addr : BitVec 7) (bytes : List Byte) | i2cReadTransfer (addr : BitVec 7) (count : Nat)
  | mbReplyArrive (pkt : Packet) | svcCntclr (value : Word)
  -- wake and debug (14, 15)
  | wake (src : WakeSrc) (reason : Byte) | fieldWakePulse (sin0 : Bool) | dbgSel (port : DbgPort) (level : Fin 5)
  | tapBoundaryScan (instr : ScanInstr) | dbgReq (r : DbgReq) | dbgData (bytes : List Byte)
  | secCntclr (value : Word)
  -- field image (16)
  | fimgChunk (offset : Word) (bytes : List Byte) | fimgDigestReady (digest : BitVec 256)
  -- events, disagreement, disconnect, sweeps (17)
  | eventMessage (rec : EventRec) | eventResend (seq : BitVec 31) | fevClose (id : Word)
  | evtCntclr (value : Word) | disagreeOn (ch : Fin 32) (sample : BitVec 12)
  | disagreeOff (ch : Fin 32) (sample : BitVec 12) | disagreeEnd (ch : Fin 32)
  | disconnectHoldExpiry (ch : Fin 32) (sample : BitVec 12)
  | sweepSlotEnd (v1 v2 : Word) (v3 : BitVec 16) (measured : Bool) | captureData (res : SweepRes)
  | sweepCtrl (msg : SweepMsg) | holdPeriodStart (ch : Fin 32) | tpSessionTimeout (port : CanPort) (peer : Byte)
  /- Commands without operands. -/
  -- supplies, key and cell (18, 14, 01)
  | lsupRise | lsupLoss | fsupUndervoltage | fsupRestart | fsupLoss | boot | keyInFall | keyInShutdown | keyInRise
  | shutdownRetry | shutdownForce | cellRetentionLost | cellRemoved
  -- epoch and time (01, 02, 11)
  | ppsPulseEnd | timeMarkSend | linkUpRetry | holdoverLimit | originStep | tbNowLoRead | timeFrameInsert
  -- barrier (03)
  | laneEnable | linkUpAbandon | barrierLossHost | barrierLossField | hostHeartbeatTimeout | fcoreStall
  | oneShotFire | oneShotRelease | timeSyncSend | schedWriteAct | safeReqResend
  -- chain (04)
  | ownFrameInsert | insertWaitExpiry | enumStallTimeout | claimResend | islandPolicyTimeout
  -- transports and packet bookkeeping (05)
  | duplicateEntryExpiry | originEntryExpiry | schedHandover | schedAct | deferredServe
  -- opcodes 0x30 to 0x44
  | loopTestGo | loopTestAbort
  -- opcodes 0x58 to 0x6C
  | setCommitDone | imgEraseDone
  -- opcodes 0x70 to 0x7B and registers
  | nonceExpiry | sessionExpiry
  -- motion, sections and edges (07, 08)
  | motionUpdate (ready : Fin 2001)
  | edgeHandover | motionLost | tcSectionAuto | operatorWorkEnable | staggerEnergise
  -- loop engine (10)
  | captureEnd
  -- satellite navigation (11)
  | measSend | burstStart | rtcmStale | antShort | antOpen
  -- CAN (12)
  | addressClaimStart | addrClaimComplete | requestAddressClaimed
  -- service port (13)
  | i2cBusError | i2cStuck | mbGo | mbNext | mbStatRead | attentionSend | attentionPulseEnd | attentionWithdraw
  -- wake and debug (14, 15)
  | tckWake | pwrfStatRead | fcoreHalt | fcoreResume | hcoreHalt | hcoreResume | tapReset
  -- field image (16)
  | fimgClear | fimgCheck | fimgStart
  -- events, disagreement, disconnect, sweeps (17)
  | eventHandle | fdiscCtrlOpen | fdiscCtrlClose | softStartEnd | timevalidExpiry | internalHoldUpExhausted
  | wakeLogicSupplyLost
  deriving DecidableEq, Repr

end Sys2Proof
end

