-- ==== Sys2Proof/Decode.lean ====
section
/-! DEFINITION. The decoder of the block's command words. spec/opcode_table.json gives no row bits,
so no word spells a command. -/

namespace Sys2Proof

/-- The command a table word spells: none, since no row of the table has bits. -/
def decodeTableWord (_nbits _w : Nat) : Option Instr := none

end Sys2Proof
end

