-- ==== Sys2Proof/Machine/State.lean ====
section
/-! DEFINITION. The state of one YN-3200 node as plain data, one structure for each block of the
spec, each field's default being its value at reset (INVENTORY.md, section State, names the rule
of every field and the log entry where the spec gives no reset value). -/

namespace Sys2Proof.Machine

/-- A sparse store: (index, value) pairs with rising indexes, none equal to the default. -/
abbrev Sparse (α : Type) := List (Nat × α)

/-- A byte store in the canonical form of Host.Cell lists. -/
abbrev Memory := List Host.Cell

/-! ## Modes, Clay and identity (00, 01, 06) -/

/-- An image version (Table 16-3). -/
structure Ver where
  major : Byte
  minor : Byte
  build : BitVec 16
  deriving DecidableEq, Repr

/-- What the node is (R1, R3, R150); straps are pins read at power-up. -/
structure Ident where
  serial : BitVec 64 := 1
  variant : Variant := .g2
  hostStep : Byte := 0x42
  fieldStep : Byte := 0x41
  hVer : Ver := ⟨1, 0, 0⟩
  fVer : Ver := ⟨0, 0, 0⟩
  big : Byte := 1
  cig : Byte := 1
  ssv : Byte := 1
  addrStraps : BitVec 3 := 7
  sandStrap : Bool := false
  isoName : BitVec 64 := 0
  deriving DecidableEq, Repr

/-- The node modes (R10). -/
inductive Mode where
  | sand | silt | loam
  deriving DecidableEq, Repr

/-- Mode and Clay (Tables 01-7 and 01-8). -/
structure Modes where
  mode : Mode := .sand
  siltWhy : BitVec 4 := 0
  sandWhy : BitVec 4 := 0
  clay : Bool := true
  latched : BitVec 16 := 0x0400
  active : BitVec 16 := 0x0400
  releaseFrame : Frame48 := 0
  booted : Bool := false
  deriving DecidableEq, Repr

/-! ## Timebase (02) -/

/-- The clock tree: running, searching lock, locked and counting 4,096 cycles, off because no
domain is ON, or gated for want of a reference (Table 02-3, R51, R59). -/
inductive ClkTree where
  | running | relocking | locked | stopped | noReference
  deriving DecidableEq, Repr

/-- TB_STAT.REF (Table 02-7). -/
inductive TbRef where
  | tcxo | chainUp | gnss | none
  deriving DecidableEq, Repr

/-- TB_STAT.QUAL (Table 02-7). -/
inductive Qual where
  | locked | holdover | degraded
  deriving DecidableEq, Repr

/-- An announced origin step (R38): low 32 bits of the epoch number and the signed step D. -/
structure OriginStep where
  epoch : Word
  d : Word
  deriving DecidableEq, Repr

/-- The timebase (Tables 02-5 and 02-7). -/
structure Clock where
  tree : ClkTree := .relocking
  tb : BitVec 64 := 0
  refcnt : Word := 0
  tbHi : Word := 0
  ref : TbRef := .tcxo
  lock : Bool := false
  valid : Bool := false
  originGps : Bool := false
  qual : Qual := .locked
  slewing : Bool := false
  holdShort : Bool := false
  relocks : Byte := 0
  originId : Word := 0
  holdSecs : BitVec 16 := 0
  lockMins : BitVec 16 := 0
  lockSecs : Nat := 0
  hopDly : BitVec 24 := 0
  resid : Word := 0
  slew : BitVec 16 := 0
  slewRem : Word := 0
  gpsWeek : BitVec 16 := 0
  gpsSec : BitVec 20 := 0
  window : Bool := false
  announced : Option OriginStep := none
  stepOrg : Option Nat := none
  gpsKnown : Bool := false
  countRelock : Bool := false
  refWasUp : Bool := false
  disciplined : Bool := false
  upQual : Qual := .locked
  echoes : Nat := 0
  echoSent : Nat := 0
  echoAt : Option Nat := none
  echoSeq : Byte := 0
  echoT1 : List (Byte × Nat) := []
  alignedLink : Bool := false
  pps : Bool := false
  tcxoOk : Bool := true
  noRef : Bool := false
  marks : List (Nat × Nat) := []
  deriving DecidableEq, Repr

/-! ## Barrier (03) -/

/-- BARR_STAT.LINK (Table 03-8). -/
inductive Link where
  | down | training | up
  deriving DecidableEq, Repr

/-- A message waiting in RG6 or RG7 (Table 03-3). -/
inductive Cell where
  | timeSync (tb : BitVec 64)
  | schedEdge (tag : BitVec 16) (edges : List Edge)
  | cfgWrite (c : CfgWriteCell)
  | cfgRead (tag : BitVec 16) (addr : BitVec 24) (count : BitVec 3)
  | cfgData (tag : BitVec 16) (status : Byte) (addr : BitVec 24) (values : List Word)
  | edgeAcks (acks : List (BitVec 16 × Fin 4))
  | coefAcks (acks : List (BitVec 16 × Byte))
  | event (r : EventRec)
  | capture (r : SweepRes)
  | safeReq (causes : BitVec 16)
  | heartbeat (h : Heartbeat)
  | fimgChunk (offset : Word) (bytes : List Byte)
  | dbgReq (r : DbgReq)
  | dbgData (bytes : List Byte)
  | loopCoef (c : CoefCell)
  | sweepCtrl (m : SweepMsg)
  deriving DecidableEq, Repr

/-- A cell in a ring, with the TB at which it entered it (R64, R67). -/
structure Queued where
  cell : Cell
  since : Nat
  deriving DecidableEq, Repr

/-- Why the host carries a register access: for a request, for the field configuration (R409), to read
the F-image digest at link-up (R75), or on its own account. -/
inductive TxnFor where
  | request (q : Request)
  | configure
  | digest
  | own
  deriving DecidableEq, Repr

/-- One register write still to be carried: address, value, mask. -/
structure RegPut where
  addr : BitVec 24
  value : Word
  mask : Word
  deriving DecidableEq, Repr

/-- A field access awaiting its CFG_DATA (R83, R145): `puts` are the writes from the one
in flight on; for a read, `readAddr` and `readLeft` are what is still unread; `op` is the field part of a
command of flag F (R154). -/
structure RegTxn where
  tag : BitVec 16
  why : TxnFor
  isWrite : Bool
  sched : Bool := false
  applyAt : Frame48 := 0
  puts : List RegPut := []
  done : Nat := 0
  readAddr : BitVec 24 := 0
  readLeft : Nat := 0
  got : List Word := []
  op : Option FieldOp := none
  sends : Nat := 1
  deriving DecidableEq, Repr

/-- A batch or coefficient cell awaiting its acknowledgement (R210, R268). -/
structure EdgeBatch where
  tag : BitVec 16
  edges : List Edge
  sends : Nat
  deriving DecidableEq, Repr

structure CoefSent where
  cell : CoefCell
  sends : Nat
  result : Option Byte
  deriving DecidableEq, Repr

/-- A LOOP_COEF or LOOP_SWAP request whose cells are out (R269). -/
structure CoefReq where
  q : Request
  cells : List CoefSent
  deriving DecidableEq, Repr

/-- A SAFE_REQ not yet confirmed (R71): its causes, the SEQ of its cell and the field drop counters
the host had seen before it was sent. -/
structure SafeSent where
  causes : BitVec 16
  seq : BitVec 16
  dropsBefore : Byte × Byte × Byte
  deriving DecidableEq, Repr

/-- The barrier on both sides (Table 03-8 and R64 to R85). -/
structure Barrier where
  link : Link := .down
  fhalt : Bool := false
  fstall : Bool := false
  failed : Byte := 0
  runFails : Nat := 0
  lat : BitVec 10 := 0
  hCrc : Byte := 0
  hSeq : Byte := 0
  hTyp : Byte := 0
  hMsg : Byte := 0
  mCrc : Byte := 0
  mSeq : Byte := 0
  mTyp : Byte := 0
  lossCnt : BitVec 16 := 0
  declarer : BitVec 2 := 0
  tserr : BitVec 16 := 0
  txCnt : Word := 0
  rxCnt : Word := 0
  hostGot : BitVec 16 := 0xFFFF
  fieldGot : BitVec 16 := 0xFFFF
  downSlot : Nat := 0
  upSlot : Nat := 0
  upPart : Nat := 0
  upBad : Bool := false
  hostNext : BitVec 16 := 0
  hostExpect : BitVec 16 := 0
  fieldNext : BitVec 16 := 0
  fieldExpect : BitVec 16 := 0
  ackFromField : BitVec 16 := 0
  ackFromHost : BitVec 16 := 0
  fCrc : Byte := 0
  fSeq : Byte := 0
  fTyp : Byte := 0
  fMsg : Byte := 0
  hostAlive : BitVec 16 := 0
  fieldAlive : BitVec 16 := 0
  hostAliveSeen : BitVec 16 := 0
  fieldAliveSeen : BitVec 16 := 0
  hostHaltedSeen : Bool := false
  supervise : Bool := false
  hbto : BitVec 16 := 50
  ferrClear : Bool := false
  mirrorActive : BitVec 16 := 0
  static : Bool := true
  epochRetry : Bool := false
  fieldClock : Bool := false
  replica : BitVec 64 := 0
  replicaLoaded : Bool := false
  oneShot : Bool := true
  oneShotLatch : Bool := false
  fieldDeclared : Bool := false
  plannedStop : Bool := false
  safe : List SafeSent := []
  rg6 : List Queued := []
  rg6Held : List Cell := []
  rg7 : List Queued := []
  nextTag : BitVec 16 := 1
  txns : List RegTxn := []
  tagMem : List (BitVec 16 × Cell) := []
  edgeTags : List (BitVec 16 × Fin 4) := []
  coefTags : List (BitVec 16 × Byte) := []
  batches : List EdgeBatch := []
  coefs : List CoefReq := []
  schedWrites : List CfgWriteCell := []
  heldEdges : List Edge := []
  dropsAtEpoch : Nat := 0
  dropsWarned : Bool := false
  traceOn : Bool := false
  dbgBytes : List Byte := []
  deriving DecidableEq, Repr

/-! ## Chain (04) -/

/-- CH_STAT.UP_PARTNER (Table 04-8); a DN port has none or node. -/
inductive Partner where
  | none | node | host | hostClk
  deriving DecidableEq, Repr

/-- One claim the head has judged (R108). -/
structure Judged where
  hop : BitVec 16
  addr : BitVec 16
  serial : BitVec 64
  accept : Bool
  deriving DecidableEq, Repr

/-- A walk running at the head (R106 to R110). -/
structure Walk where
  recheck : Bool
  gen : BitVec 16
  claims : List Judged := []
  q : Option Request := none
  deriving DecidableEq, Repr

/-- The claim of this node in the walk in progress (R107, R111). -/
structure Claim where
  recheck : Bool
  gen : BitVec 16
  hop : BitVec 16
  next : BitVec 16
  addr : BitVec 16
  pinned : Bool
  waiting : Bool
  sends : Nat
  rejected : Bool
  startSent : Bool
  deriving DecidableEq, Repr

/-- An entry of RG4 (R99): TB of the SD arrival and the frame. -/
structure RingFrame where
  tb : BitVec 64
  frame : ChainFrame
  deriving DecidableEq, Repr

/-- An entry of the origin table (R132). -/
structure Origin where
  seq : BitVec 16
  src : BitVec 16
  via : Via
  deriving DecidableEq, Repr

/-- A frame of this node in RG5, with the TB at which it was queued (R97, R99). -/
structure OwnFrame where
  since : Nat
  frame : ChainFrame
  deriving DecidableEq, Repr

/-- What an ADDR_DUP names (R108): both hops, both serial numbers and the address. -/
structure DupReport where
  hop1 : BitVec 16
  hop2 : BitVec 16
  serial1 : BitVec 64
  serial2 : BitVec 64
  addr : BitVec 16
  deriving DecidableEq, Repr

/-- Frame error counters of one port (Table 04-8). -/
structure PortErr where
  crc : Byte := 0
  stomp : Byte := 0
  code : Byte := 0
  drop : Byte := 0
  deriving DecidableEq, Repr

/-- The chain ports (04). -/
structure Chain where
  upLock : Bool := false
  dnLock : Bool := false
  upPartner : Partner := .none
  dnPartner : Bool := false
  upKnown : Bool := false
  dnKnown : Bool := false
  upMiswire : Bool := false
  dnMiswire : Bool := false
  island : Bool := false
  enumBusy : Bool := false
  policyExpired : Bool := false
  addr : BitVec 16 := 0
  addrValid : Bool := false
  chainId : BitVec 3 := 0
  hop : BitVec 16 := 0
  gen : BitVec 16 := 0
  headAddr : BitVec 16 := 0
  upBreaks : BitVec 16 := 0
  dnBreaks : BitVec 16 := 0
  errUp : PortErr := {}
  errDn : PortErr := {}
  dupCount : BitVec 16 := 0
  dupHop : BitVec 16 := 0
  walk : Option Walk := none
  walkGen : BitVec 16 := 0
  walked : Bool := false
  claim : Option Claim := none
  breakFrame : Frame48 := 0
  policy : BitVec 7 := 5
  islandTimer : Option Frame48 := none
  marlCount : Nat := 0
  marlLast : Option MarlInfo := none
  rg4 : List RingFrame := []
  rg5 : List OwnFrame := []
  rg5Held : List OwnFrame := []
  origins : List Origin := []
  upLine : Option ChainFrame := none
  dnLine : Option ChainFrame := none
  upBusyTo : Nat := 0
  dnBusyTo : Nat := 0
  dnGained : Bool := false
  fullDue : Bool := false
  dupReports : List DupReport := []
  headPlanner : Option Byte := none
  deriving DecidableEq, Repr

/-! ## Packets (05) -/

/-- A packet counter register (Table 05-7). -/
structure PktCnt where
  acc : BitVec 16 := 0
  crc : Byte := 0
  drop : Byte := 0
  deriving DecidableEq, Repr

/-- A pending scheduled command (R140, R141), with the outcome of the field part handed over: registers
written, the status of a failure, and the status, detail and data of a field part that acted. -/
structure SchedCmd where
  q : Request
  handed : Bool := false
  wrote : Nat := 0
  failed : Option Byte := none
  result : Option (Byte × Byte × List Byte) := none
  deriving DecidableEq, Repr

/-- A remembered request (R136): its key and the replies it has, none while it is being
processed. -/
structure DupEntry where
  via : Via
  src : BitVec 16
  seq : BitVec 16
  opcode : Byte
  crc : Word
  replies : List Packet := []
  finished : Bool := false
  deriving DecidableEq, Repr

/-- A multi-part request being assembled (R129): its last part so far, and the payloads in order. -/
structure Assembly where
  via : Via
  last : Packet
  parts : List (List Byte)
  deriving DecidableEq, Repr

/-- A CAN FD packet being assembled (R134); `dead` where it was discarded and its next FIRST has not come. -/
structure FdAsm where
  port : CanPort
  node : Byte
  nextIdx : Nat
  need : Nat
  bytes : List Byte
  dead : Bool := false
  deriving DecidableEq, Repr

/-- What a DEFERRED request waits for: link time of the chain, room in the barrier, or its last staggered
channel (R450, R451, R448). -/
inductive DeferFor where
  | chain | barrier | budget
  deriving DecidableEq, Repr

/-- A deferred request (R127). -/
structure Deferred where
  q : Request
  ticket : Frame48
  why : DeferFor
  deriving DecidableEq, Repr

/-- Packet bookkeeping (05, R450, R451). -/
structure Packets where
  chain : PktCnt := {}
  canA : PktCnt := {}
  canB : PktCnt := {}
  svc : PktCnt := {}
  sched : List SchedCmd := []
  acted : List SchedCmd := []
  schedMost : BitVec 7 := 0
  lateReplies : BitVec 16 := 0
  dups : List DupEntry := []
  asms : List Assembly := []
  fdAsms : List FdAsm := []
  deferred : List Deferred := []
  canReplies : List (CanPort × Byte × Packet) := []
  plannerRefused : BitVec 16 := 0
  linkUse : List (Nat × List Nat) := []
  chainDeferred : BitVec 16 := 0
  chainRefused : BitVec 16 := 0
  barrDeferred : Byte := 0
  barrRefused : Byte := 0
  owed : List Request := []
  deriving DecidableEq, Repr

/-! ## Outputs (08, 17) -/

/-- The OCH_SET override of a channel (R165). -/
inductive Override where
  | none | off | on
  deriving DecidableEq, Repr

/-- Trip sources, in the order of Table 17-8. -/
inductive TripSrc where
  | overcurrent | short | input (i : Fin 4) | temperature | disagree
  deriving DecidableEq, Repr

/-- Lamp status (Table 08-6). -/
inductive Lamp where
  | ok | opened | unverified | shortToSupply
  deriving DecidableEq, Repr

/-- Budget grant (Table 17-4). -/
inductive Grant where
  | granted | staggered | refused
  deriving DecidableEq, Repr

/-- One output channel with its driver. -/
structure Chan where
  gate : Bool := false
  ovr : Override := .none
  gen : Bool := false
  perStart : BitVec 64 := 0
  period : Word := 0x04C4B400
  onAt : Word := 0
  offAt : Word := 0
  onFine : BitVec 5 := 0
  offFine : BitVec 5 := 0
  turnOff : Option Word := none
  genOut : Bool := false
  tripped : Bool := false
  latched : Bool := false
  shortHeld : Bool := false
  hot : Bool := false
  retryFrom : Option Frame48 := none
  trips : Byte := 0
  clean : BitVec 16 := 0
  tripInPeriod : Bool := false
  lastSrc : TripSrc := .overcurrent
  peakPhase : Bool := false
  holdOff : Bool := false
  peakMiss : Bool := false
  peakNoted : Bool := false
  blanking : Bool := false
  inrush : Bool := false
  stretch : Bool := false
  stretched : Bool := false
  queue : List Edge := []
  held : Byte := 0
  tripPeriods : BitVec 24 := 0
  shorts : Byte := 0
  sample : BitVec 12 := 0
  epPeak : BitVec 12 := 0
  lastPeak : BitVec 12 := 0
  sum : Nat := 0
  cnt : Nat := 0
  mean : BitVec 16 := 0
  lamp : Lamp := .ok
  diagMode : Bool := false
  opens : Nat := 0
  supplyShorts : Nat := 0
  measured : Bool := false
  grant : Grant := .granted
  placed : Bool := false
  warned : Bool := false
  obsOn : Bool := false
  obsOff : Bool := false
  onset : Frame48 := 0
  forceHold : Bool := false
  table : BitVec 16 := 0
  edgeFrame : Frame48 := 0
  perFine : BitVec 5 := 0
  edgeAt : BitVec 64 := 0
  edgeFine : BitVec 5 := 0
  holdAt : BitVec 64 := 0
  turns : List (BitVec 64 × Bool) := []
  acts : List (BitVec 64 × Bool) := []
  deriving DecidableEq, Repr

/-- Sweep state (R453). -/
inductive SweepState where
  | pending | running | ended | aborted
  deriving DecidableEq, Repr

/-- A diagnostic sweep on the field side (R452 to R455). -/
structure Sweep where
  sweepId : BitVec 16
  kind : Fin 4
  mask : Word
  start : Frame48
  state : SweepState
  cur : Nat
  results : List SweepRes
  deriving DecidableEq, Repr

/-- Outputs shared by all channels (Table 08-10, Table 17-6). -/
structure Outputs where
  ch : Vector Chan 32 := Vector.replicate 32 {}
  tripActive : BitVec 4 := 0
  tripCnt : Vector Byte 4 := Vector.replicate 4 0
  calCount : BitVec 16 := 0
  calTap : Byte := 0
  calLast : Option Byte := none
  calFails : Nat := 0
  calFail : Bool := false
  calFrame : Frame48 := 0
  refusals : BitVec 16 := 0
  recent : List Frame48 := []
  discOpen : Bool := false
  discReason : BitVec 2 := 0
  discCount : BitVec 16 := 0
  softStart : Bool := true
  sweep : Option Sweep := none
  mirror : Option Sweep := none
  deriving DecidableEq, Repr

/-! ## Sense inputs and fans (09) -/

/-- One sense input (Table 09-4). `edges` are rising-edge times, newest first. -/
structure SinIn where
  val : Word := 0
  valid : Bool := false
  wireOpen : Bool := false
  underF : Bool := false
  overF : Bool := false
  shortF : Bool := false
  suspect : Bool := false
  qerr : Byte := 0
  cnt : Word := 0
  level : Bool := false
  edges : List (BitVec 64) := []
  lastInterval : Option Nat := none
  pos : Word := 0
  posBefore : List (BitVec 64 × Word) := []
  deriving DecidableEq, Repr

/-- Fan role states (Table 09-3). -/
inductive FanState where
  | idle | starting | running | stalled | tachOpen
  deriving DecidableEq, Repr

/-- One fan role (R239 to R247). -/
structure Fan where
  state : FanState := .idle
  suspect : Bool := false
  stalls : Byte := 0
  opens : Byte := 0
  entered : BitVec 64 := 0
  window : Option (BitVec 64) := none
  good : Nat := 0
  driveHold : Bool := false
  depHold : Word := 0
  remote : Bool := false
  freeze : Bool := false
  deriving DecidableEq, Repr

structure Sense where
  inp : Vector SinIn 16 := Vector.replicate 16 {}
  fan : Vector Fan 2 := Vector.replicate 2 {}
  deriving DecidableEq, Repr

/-! ## Loop engine (10) -/

/-- Loop slot states (R251). -/
inductive SlotState where
  | stopped | running | frozen
  deriving DecidableEq, Repr

/-- One loop slot: mantissas are two's-complement 20-bit integers (R253). -/
structure Slot where
  state : SlotState := .stopped
  fzClay : Bool := true
  fzStall : Bool := false
  fzTach : Bool := false
  active : Vector Word 17 := Vector.replicate 17 0
  shadow : Vector Word 17 := Vector.replicate 17 0
  table : Sparse Int := []
  integ : Int := 0
  deriv : Int := 0
  xPrev : Int := 0
  uPrev : Int := 0
  lastK : Option Nat := none
  sat : BitVec 5 := 0
  fberr : Bool := false
  phaseLost : Bool := false
  dly : BitVec 13 := 0
  maxDly : BitVec 13 := 0
  satCnt : BitVec 16 := 0
  out : Word := 0
  swapAt : Option Word := none
  cells : List CoefCell := []
  deriving DecidableEq, Repr

/-- A capture record, Table 10-6. -/
structure CapRec where
  sample : BitVec 16
  flags : BitVec 16
  d : Int
  y : Int
  e : Int
  rc : Int
  u : Int
  deriving DecidableEq, Repr

/-- The one test and capture of the node (R275 to R277). -/
structure LoopTest where
  slot : Fin 16 := 0
  running : Bool := false
  done : Bool := false
  aborted : Bool := false
  len : Nat := 0
  firstSample : Word := 0
  exps : Word := 0
  recs : List CapRec := []
  started : Bool := false
  lfsr : BitVec 16 := 0
  bitLeft : Nat := 0
  bitVal : Bool := false
  phase : Word := 0
  stepIdx : Nat := 0
  stepCount : Nat := 0
  deriving DecidableEq, Repr

structure LoopEng where
  slot : Vector Slot 16 := Vector.replicate 16 {}
  busy : Nat := 0
  test : LoopTest := {}
  deriving DecidableEq, Repr

/-! ## Satellite navigation (11) -/

/-- One tracking channel (R284 to R286). -/
structure Track where
  used : Bool := false
  sat : Byte := 0
  signal : Fin 4 := 0
  code : Word := 0
  carr : Word := 0
  pendWrite : Option (Word × Word) := none
  accum : List Int := []
  codePhase : Word := 0
  carrPhase : Word := 0
  dumps : Nat := 0
  lock : Bool := false
  slip : Bool := false
  narrowed : Bool := false
  loopSet : Word := 0x000A140F
  corrSet : Word := 0x0000140A
  deriving DecidableEq, Repr

/-- Aiding time (R283): GPS week, time of week in ms, uncertainty in µs. -/
structure AidTime where
  week : BitVec 16
  tow : Word
  uncert : Word
  deriving DecidableEq, Repr

/-- Aiding position (Table 11-9). -/
structure AidPos where
  lat : Word
  lon : Word
  height : Word
  uncert : BitVec 16
  deriving DecidableEq, Repr

/-- A MEAS record held at the head (Table 11-9). -/
structure MeasRec where
  src : BitVec 16
  clkOk : Bool
  partner : BitVec 16
  frame : Frame48
  sigs : List MeasSig
  deriving DecidableEq, Repr

/-- A signal removed from the baseline of a pair after a SLIP, until its ambiguity is fixed again (R305). -/
structure SlipSig where
  a : BitVec 16
  b : BitVec 16
  sat : Byte
  signal : Nat
  fixFrame : Frame48
  deriving DecidableEq, Repr

/-- A running snapshot capture (R291). -/
structure SnapRun where
  bands : Byte
  len : Byte
  tb : BitVec 64
  deriving DecidableEq, Repr

structure Gnss where
  sol : Option GnssSol := none
  timeValid : Bool := false
  solTb : BitVec 64 := 0
  rtcmStale : Bool := false
  toff : Word := 0
  meas : List MeasSig := []
  measFrame : Frame48 := 0
  trk : Vector Track 96 := Vector.replicate 96 {}
  aidTime : Option AidTime := none
  aidAt : BitVec 64 := 0
  aidMsg : Bool := false
  aidPos : Option AidPos := none
  almanac : List (Byte × Byte × List Byte) := []
  ephem : List (Nat × List Byte) := []
  station : Option (List Byte) := none
  msmFresh : Bool := false
  rtcmAcc : BitVec 16 := 0
  rtcmIgn : BitVec 16 := 0
  rtcmBad : BitVec 16 := 0
  measHeld : List MeasRec := []
  bases : List BaseRec := []
  baseTb : BitVec 64 := 0
  slips : List SlipSig := []
  snap : Memory := []
  snapRun : Option SnapRun := none
  solve : Option Request := none
  mark : Option (Word × BitVec 16 × Byte) := none
  tmark : Word := 0
  tmark2 : Word := 0
  antMa : Byte := 0
  antOpen : Bool := false
  antShort : Bool := false
  antBias : Bool := true
  burstBias : Bool := false
  deriving DecidableEq, Repr

/-! ## CAN ports (12) -/

/-- Port modes (Table 12-3), in register order. -/
inductive CanMode where
  | normal | listen | restricted | sleep
  deriving DecidableEq, Repr

/-- Message object kinds (Table 12-5). -/
inductive MoKind where
  | off | rx | tx
  deriving DecidableEq, Repr

/-- A message object (Table 12-5). -/
structure MsgObj where
  kind : MoKind := .off
  ide : Bool := false
  fdf : Bool := false
  brs : Bool := false
  id : BitVec 29 := 0
  mask : BitVec 29 := 0
  len : BitVec 7 := 0
  isNew : Bool := false
  lost : Bool := false
  pend : Bool := false
  sent : Bool := false
  tb : BitVec 64 := 0
  data : List Byte := []
  deriving DecidableEq, Repr

/-- An intake ring entry (Table 12-4). -/
structure RingEntry where
  tb : BitVec 64
  frame : CanFrame
  matched : Bool
  seq : BitVec 16
  deriving DecidableEq, Repr

/-- A FIFO entry with its handle (R329). -/
structure FifoEntry where
  handle : BitVec 16
  frame : CanFrame
  deriving DecidableEq, Repr

/-- The candidate whose transmission attempt is in progress (R330, R333). -/
inductive TxCand where
  | fifo (handle : BitVec 16)
  | obj (n : Fin 128)
  deriving DecidableEq, Repr

/-- Address claim state (Table 12-6). -/
inductive ClaimState where
  | none | claiming | claimed | cannotClaim
  deriving DecidableEq, Repr

/-- A message of the node's own CAN traffic (objects 0 to 15), named by what it carries; the
frame layouts belong to ISO 11783, outside the spec. -/
inductive IsoMsg where
  | addressClaimed (name : BitVec 64) (sa : Byte)
  | cannotClaim (name : BitVec 64)
  | connectionAbort
  | position (lat lon : Word) (shiftE shiftN : Int)
  | cogSog (velE velN : BitVec 16)
  | gnssData (sol : GnssSol) (shiftE shiftN : Int)
  | sectionTimes (sect : Fin 256) (onMs offMs : Int)
  | actualWork (sect : Fin 256) (on : Bool)
  | deviceDescription (bytes : List Byte)
  deriving DecidableEq, Repr

/-- Automatic rate detection (R317, R318): candidates left, confirming frames seen. -/
structure AbrRun where
  candidates : List (Fin 7)
  confirms : Nat
  removed : List (Fin 7) := []
  deriving DecidableEq, Repr

/-- One CAN port. -/
structure Can where
  mode : CanMode := .sleep
  wakeOpt : Bool := false
  reqMode : Option (CanMode × Bool) := none
  waking : Bool := false
  passive : Bool := false
  warned : Bool := false
  busOff : Bool := false
  recovering : Bool := false
  tecCnt : Nat := 0
  recCnt : Nat := 0
  busoffs : BitVec 16 := 0
  abr : Option AbrRun := none
  abrDone : Bool := false
  abrRate : BitVec 3 := 0
  ring : List RingEntry := []
  seq : BitVec 16 := 0
  ovf : BitVec 16 := 0
  ringWarned : Bool := false
  rxCnt : BitVec 16 := 0
  txCnt : BitVec 16 := 0
  eBit : Byte := 0
  eStuff : Byte := 0
  eCrc : Byte := 0
  eForm : Byte := 0
  wakeBuf : Option RingEntry := none
  wakeGap : BitVec 16 := 0
  wakeRegs : Word × Word × Word × Word := (0, 0, 0, 0)
  obj : Vector MsgObj 128 := Vector.replicate 128 {}
  fifo : List FifoEntry := []
  handle : BitVec 15 := 0
  attempt : Option TxCand := none
  sof : BitVec 64 := 0
  retry : Option TxCand := none
  afterReply : Option Request := none
  own : List IsoMsg := []
  segs : List CanFrame := []
  peer : Option Byte := none
  sending : Option Packet := none
  silent : Bool := false
  addr : Byte := 254
  claim : ClaimState := .none
  seen : List Byte := []
  deriving DecidableEq, Repr

/-! ## Service port (13) -/

structure Svc where
  addr : BitVec 3 := 0
  stuck : Bool := false
  attnPend : Bool := false
  active : Bool := false
  page : BitVec 6 := 0
  pointer : Byte := 1
  cntStuck : Byte := 0
  cntAttn : Byte := 0
  cntWithdrawn : Byte := 0
  cntErr : Byte := 0
  buf : Memory := []
  mbLen : Byte := 0
  busy : Bool := false
  ready : Bool := false
  overrun : Bool := false
  noReply : Bool := false
  attnEn : Bool := false
  heldReplies : List Packet := []
  wroteSince : Bool := false
  sdaLow : Bool := false
  filt : BitVec 4 := 2
  lastRead : List Byte := []
  taken : Bool := false
  goWaits : Bool := false
  goTb : BitVec 64 := 0
  deriving DecidableEq, Repr

/-! ## Power (14, 18) -/

/-- Domain states (R357). -/
inductive Dom where
  | off | ret | on
  deriving DecidableEq, Repr

/-- FSUP against its three thresholds (R460): below 5.0 V, below 7.5 V, or present. -/
inductive Fsup where
  | absent | low | present
  deriving DecidableEq, Repr

/-- Phases of the KEY_IN or supply-loss shutdown (R31, R376, R377). -/
inductive Shutdown where
  | none | commit | retry (tries : Nat) | done
  deriving DecidableEq, Repr

/-- Who started a domain-set transaction. -/
inductive TxnBy where
  | request (q : Request) | keyOff | attach (port : DbgPort) (level : Fin 5)
  deriving DecidableEq, Repr

/-- A domain-set transaction waiting to run: domains named and their target states; `undo` holds, once its reply is
formed, what each changed domain was, while the domains that stop last wait for the reply to leave (R368). -/
structure PdTxn where
  by' : TxnBy
  targets : List (Fin 18 × Dom)
  force : Bool := false
  undo : Option (List (Fin 18 × Dom)) := none
  deriving DecidableEq, Repr

/-- Charger states (Table 18-12). -/
inductive Chg where
  | off | precharge | cc | cv | done | tempHold | absent
  deriving DecidableEq, Repr

structure Power where
  dom : Vector Dom 18 := #v[.on, .on, .off, .on, .on, .off, .off, .off, .off, .off, .on, .off,
    .off, .off, .off, .off, .off, .off]
  lsup : Bool := true
  fsup : Fsup := .present
  keyIn : Bool := true
  keyCount : Bool := false
  shutdown : Shutdown := .none
  txnDom : Byte := 0xFF
  txnReason : Byte := 0
  txnTime : Word := 0
  wakes : BitVec 16 := 0
  refused : BitVec 16 := 0
  why : BitVec 4 := 0
  whyCold : Bool := false
  marlReason : Byte := 0
  txn : Option PdTxn := none
  queued : List PdTxn := []
  wakeLatch : Option (WakeSrc × Byte) := none
  fsupWake : Bool := false
  sin0Wake : Bool := false
  pwrfRead : Bool := false
  vcell : BitVec 12 := 3300
  chg : Chg := .off
  phase : Chg := .off
  batAbsent : Bool := false
  tcell : Byte := 25
  wakeLogic : Bool := true
  fieldStart : Bool := true
  ssup : Bool := false
  deriving DecidableEq, Repr

/-! ## Security and debug (15) -/

/-- Lifecycle (Table 15-2). -/
inductive Lifecycle where
  | opened | provisioned | sealed' | retired
  deriving DecidableEq, Repr

/-- A nonce drawn by DBG_NONCE (R170). -/
structure Nonce where
  level : Fin 5
  bytes : List Byte
  deriving DecidableEq, Repr

structure Sec where
  life : Lifecycle := .opened
  level : Fin 5 := 4
  session : Option (BitVec 11 × Bool) := none
  sessEnd : Nat := 0
  zeroised : Bool := false
  sessionKeys : Bool := true
  nonce : Option Nonce := none
  cntSig : Byte := 0
  cntToken : Byte := 0
  cntRollback : Byte := 0
  cntIgnored : Byte := 0
  rollback : Nat := 1
  epoch : Byte := 1
  keyImage : Bool := true
  keyVendor : Bool := true
  keyIntegrator : Option (List Byte) := none
  secretIntact : Bool := true
  hHalt : Bool := false
  fHalt : Bool := false
  attach : List (DbgPort × Fin 5) := []
  scan : Option ScanInstr := none
  deriving DecidableEq, Repr

/-! ## Firmware and settings (16) -/

/-- A manifest entry (Table 16-4). -/
structure PairEntry where
  hostStep : Byte
  fieldStep : Byte
  h : Ver
  f : Ver
  deriving DecidableEq, Repr

/-- A bundle's header fields (Table 16-2), the BIGs its images declare (R405) and whether its signature
verifies (R381). -/
structure Bundle where
  length : Nat
  h : Ver
  f : Ver
  big : Byte
  hBig : Byte
  fBig : Byte
  cig : Byte
  ssv : Byte
  epoch : Byte
  manifestId : Word
  pairs : List PairEntry
  migFrom : Byte
  fOff : Nat := 0
  fLen : Nat
  digest : BitVec 256
  sigOk : Bool
  rangesOk : Bool
  deriving DecidableEq, Repr

/-- State of an image slot in the boot record (R411 to R413). -/
inductive SlotMark where
  | confirmed | trial (attempts : Nat) | previous | rejected | empty
  deriving DecidableEq, Repr

/-- An image slot (R404, R410). -/
structure ImgSlot where
  invalid : Bool := true
  bundle : Option Bundle := none
  mem : Memory := []
  len : Nat := 0
  wptr : Nat := 0
  verified : Bool := false
  mark : SlotMark := .empty
  deriving DecidableEq, Repr

/-- The bundle the model's factory slot A holds (log entry 4). -/
def factoryBundle : Bundle :=
  { length := 1024, h := ⟨1, 0, 0⟩, f := ⟨1, 0, 0⟩, big := 1, hBig := 1, fBig := 1, cig := 1, ssv := 1,
    epoch := 1, manifestId := 1,
    pairs := [{ hostStep := 0x42, fieldStep := 0x41, h := ⟨1, 0, 0⟩, f := ⟨1, 0, 0⟩ }],
    migFrom := 1, fLen := 18, digest := 0, sigOk := true, rangesOk := true }

/-- A settings copy in flash (R415, R416). -/
structure SetCopy where
  good : Bool := true
  gen : Word := 1
  ssv : Byte := 1
  items : List (Nat × List Byte) := []
  deriving DecidableEq, Repr

/-- A commit being written (R418): the new items and, for SET_COMMIT or PIN_SET, the request. -/
structure Commit where
  items : List (Nat × List Byte)
  gen : Word
  q : Option Request
  deriving DecidableEq, Repr

/-- An as-applied record (Table 16-7). -/
structure AsRec where
  ch : Fin 32
  on : Bool
  outcome : Byte
  line : BitVec 16
  cross : Frame48
  edge : Frame48
  tick : BitVec 10
  fine : BitVec 5
  late : Word
  ground : Word
  seq : Word
  flags : Byte
  deriving DecidableEq, Repr

/-- The state journal (R423): latency estimates, aiding data and the last position. -/
structure Journal where
  lat : List (Nat × Nat)
  almanac : List (Byte × Byte × List Byte)
  ephem : List (Nat × List Byte)
  pos : Option AidPos
  deriving DecidableEq, Repr

structure Fw where
  slotA : ImgSlot := { invalid := false, bundle := some factoryBundle, len := 1024,
                       wptr := 1024, mark := .confirmed }
  slotB : ImgSlot := {}
  activeB : Bool := false
  runningB : Option Bool := none
  bootSeq : Word := 0
  sandReq : Bool := false
  openB : Option Bool := none
  erasing : Bool := false
  fimgPtr : Nat := 0
  fimgLoaded : Bool := false
  fimgValid : Bool := false
  fimgErr : Byte := 0
  fimgDigest : BitVec 256 := 0
  fimgMem : Memory := []
  fcoreRun : Bool := false
  fimgChecking : Bool := false
  misses : Nat := 0
  loading : Bool := false
  fieldImage : Option (Bool × BitVec 256) := none
  pairSeen : Bool := false
  pairOk : Bool := false
  freshField : Bool := true
  cfgLeft : List RegPut := []
  cfgRefused : Bool := false
  items : List (Nat × List Byte) := []
  gen : Word := 1
  setSsv : Byte := 1
  staging : Option (List (Nat × List Byte)) := none
  commit : Option Commit := none
  copyA : SetCopy := {}
  copyB : SetCopy := {}
  atClay : List (Nat × List Byte) := []
  setValid : Bool := true
  migrated : Bool := false
  journal : Option Journal := none
  asBuf : List AsRec := []
  asRing : List AsRec := []
  asSeq : Word := 0
  asDropped : Byte := 0
  fsram : Memory := []
  deriving DecidableEq, Repr

/-! ## Events (17) -/

/-- The counters that status commands report, as they stood at the latest epoch edge (R14). -/
structure EpochSnap where
  relocks : Byte := 0
  failed : Byte := 0
  upBreaks : BitVec 16 := 0
  dnBreaks : BitVec 16 := 0
  errUp : PortErr := {}
  errDn : PortErr := {}
  deriving DecidableEq, Repr

structure Events where
  host : List EventRec := []
  field : List EventRec := []
  mirror : List EventRec := []
  hostOvf : BitVec 16 := 0
  fieldOvf : BitVec 16 := 0
  mirrorOvf : BitVec 16 := 0
  hostSeq : BitVec 31 := 0
  fieldSeq : BitVec 31 := 0
  log : List (Word × EventRec) := []
  logNext : Word := 0
  unlogged : List EventRec := []
  epochOcc : List (Side × BitVec 16 × Byte) := []
  waiting : List EventRec := []
  handling : List EventRec := []
  unacked : List EventRec := []
  heard : List EventRec := []
  openCounts : List Nat := [0, 0, 0, 0]
  snap : EpochSnap := {}
  deriving DecidableEq, Repr

/-! ## Section timing (07) -/

/-- A stored switch line (Table 07-6), coordinates in mm; `done` marks the channels that have made
a crossing that counts (R174). -/
structure SwLine where
  id : BitVec 16
  on : Bool
  dir : Fin 4
  keep : Bool
  mask : Word
  e1 : Int
  n1 : Int
  e2 : Int
  n2 : Int
  done : Word := 0
  deriving DecidableEq, Repr

/-- A BODY record (Table 07-7). -/
structure Body where
  partnerValid : Bool
  partnerLeft : Bool
  partner : BitVec 16
  cx : Int
  cy : Int
  deriving DecidableEq, Repr

/-- A CHANNEL record (Table 07-7). -/
structure Geom where
  x : Int
  y : Int
  width : Nat
  turnComp : Bool
  learn : Bool
  shift : Nat
  window : Nat
  dipMin : Nat
  deriving DecidableEq, Repr

/-- A SPEED record (Table 07-7): the sense input and distance per pulse, or GNSS. -/
structure Speed where
  input : Option (Fin 16) := none
  perPulse : Nat := 1
  deriving DecidableEq, Repr

/-- The latency filter of one channel and sense (R188 to R190), estimates in µs. -/
structure Lat where
  est : Nat := 50000
  n : Nat := 0
  seeded : Bool := false
  run : Nat := 0
  lastRej : Byte := 0
  deriving DecidableEq, Repr

/-- Section data of one channel. -/
structure ChSect where
  geom : Option Geom := none
  hyd : Nat := 0
  flight : Nat := 0
  margin : Int := 0
  latOn : Lat := {}
  latOff : Lat := {}
  acc : BitVec 16 := 0
  rej : BitVec 16 := 0
  target : Bool := false
  stopped : Bool := false
  lastTime : Nat := 0
  lastEdge : Nat := 0
  deriving DecidableEq, Repr

/-- An edge predicted from a switch line and not handed over (R181, R182); `time` counts fine
steps of 39.0625 ps, 32 to a tick. `seg` holds P1 and P2 of its line, none for an edge of a stop or restart. -/
structure Pred where
  ch : Fin 32
  on : Bool
  line : BitVec 16
  cross : Frame48
  time : Nat
  late : Bool := false
  tx : Nat := 0
  skip : Bool := false
  seg : Option (Int × Int × Int × Int) := none
  deriving DecidableEq, Repr

/-- An edge handed over, kept until it acts for its as-applied record (R197). -/
structure Handed where
  edge : Edge
  pred : Pred
  deriving DecidableEq, Repr

/-- The motion model (Table 07-8): mm, mm/s, 0.01 °, 0.01 °/s, mm/s². `phase` is the heading with 2^32 to a turn,
`yawP` its filtered rate a second, `fixFrame` the latest fix. -/
structure Motion where
  frame : Frame48 := 0
  valid : Bool := false
  dr : Bool := false
  degraded : Bool := false
  stopped : Bool := false
  east : Int := 0
  north : Int := 0
  heading : Nat := 0
  phase : Nat := 0
  speed : Int := 0
  yaw : Int := 0
  accel : Int := 0
  fixAge : Nat := 0
  baseAge : Nat := 0xFFFF
  fixFrame : Option Frame48 := none
  yawP : Int := 0
  deriving DecidableEq, Repr

/-- An executed edge whose product has not reached the ground yet (R197): its record's sequence number, its line,
its edge frame and the latency in µs. -/
structure GroundWait where
  ch : Fin 32
  on : Bool
  seq : Word
  seg : Int × Int × Int × Int
  edge : Frame48
  lat : Nat
  deriving DecidableEq, Repr

structure Sect where
  lines : List SwLine := []
  origin : Option (Word × Word × Word) := none
  body : Option Body := none
  speed : Speed := {}
  minSpeed : Nat := 100
  bridgeLead : Nat := 20
  overlap : Nat := 50
  drLimit : Nat := 20
  ch : Vector ChSect 32 := Vector.replicate 32 {}
  motion : Motion := {}
  trail : List Motion := []
  grounds : List GroundWait := []
  preds : List Pred := []
  handed : List Handed := []
  tcAuto : Bool := false
  tcCmd : List (Fin 256 × Bool) := []
  tcWant : List (Fin 256 × Bool × Frame48) := []
  tcConn : Bool := false
  tcActual : List (Fin 256 × Bool) := []
  tcSent : List (Fin 256 × Int × Int) := []
  tcPeers : List PeerLook := []
  workOn : Bool := false
  cover : List (Int × Int) := []
  mapFull : Bool := false
  deriving DecidableEq, Repr

/-! ## The whole node -/

/-- The state of one node and the queue of commands waiting for it. -/
structure State where
  pending : List Instr := []
  free : Nat := 0
  id : Ident := {}
  modes : Modes := {}
  regs : Sparse Word := []
  clk : Clock := {}
  barr : Barrier := {}
  chain : Chain := {}
  pkt : Packets := {}
  out : Outputs := {}
  sense : Sense := {}
  loop : LoopEng := {}
  gnss : Gnss := {}
  canA : Can := {}
  canB : Can := {}
  svc : Svc := {}
  pwr : Power := {}
  sec : Sec := {}
  fw : Fw := {}
  ev : Events := {}
  sect : Sect := {}
  deriving DecidableEq, Repr

/-- What stops the block. No row of the table has a meaning that the spec stops, so no meaning of
the model raises it; the constructor names the one stop the step function could ever be given,
a command that is not one of the table's. Safe. -/
inductive Fault where
  /-- Raised by no meaning. Safe. -/
  | notACommand
  deriving DecidableEq, Repr

/-- Why a command has no meaning. -/
inductive Refusal where
  /-- A row whose meaning has not been written: raised only by a refused arm of exec. Safe. -/
  | notModelled (mnemonic : String)
  deriving DecidableEq, Repr

/-- The node right after reset: every field at its structure's default. -/
def State.reset : State := {}

end Sys2Proof.Machine
end

