-- ==== Sys2Proof/Config.lean ====
section
/-! DEFINITION. What the spec leaves open: constants without a body, applied to a counter of the
state or to the operands they depend on. No proof can know a value of one. -/

namespace Sys2Proof.Config

/-- Random 32-bit draws of Iddan (TB_ORIGIN_ID, R36), by draw number (log entry 6). -/
opaque freeWord : Nat → BitVec 32

/-- Random 128-bit nonces (R170), by draw number (log entry 6). -/
opaque freeNonce : Nat → BitVec 128

/-- The reload error of R49 in ticks, 0 for −20 to 40 for +20: within ±25 ns (log entry 6). -/
opaque reloadError : Nat → Fin 41

/-- Where the spec gives an order and no duration, the tick count that passes (log entry 6). -/
opaque freeTicks : Nat → Nat

/-- The UTC leap seconds of TIME_MARK and NMEA, which the spec takes from the signal (log entry 7). -/
opaque leapSeconds : Nat → Nat

/-- A physical quantity no command operand carries, by read number (log entry 6). -/
opaque freeReading : Nat → BitVec 32

/-- ECDSA verification of a bundle's bytes under the node's image key (R381). -/
opaque bundleSignature : List Byte → Bool

/-- ECDSA verification of a token's bytes under the named key: true for the vendor key (R392). -/
opaque tokenSignature : Bool → List Byte → List Byte → Bool

/-- How many scheduled writes the field side can store; R82 names the table and gives no size
(log entry 6). -/
opaque schedWriteSlots : Nat

/-- How many coverage cells the head's SRAM allocation holds (R196; log entry 6). -/
opaque mapCells : Nat

/-- The BIG that an image's bytes declare; the spec gives no place for it inside an image (R405). -/
opaque imageBig : List Byte → Byte

/-- SHA-256 (R382). -/
opaque sha256 : List Byte → BitVec 256

/-- A NMEA sentence's text for a solution (R301): sentence number and field values, where the spec
leaves the formatting to NMEA 0183 (log entry 8). -/
opaque nmeaText : Nat → List Nat → List Byte

/-- The value of an accepted RTCM message that the spec leaves to RTCM 10403 (log entry 8). -/
opaque rtcmStation : List Byte → List Byte

/-- The frames ISO 11783 lays out for a message of the node's own traffic on CAN-A (log entry 15). -/
opaque isoFrames : Machine.IsoMsg → List CanFrame

/-- The frames of a transport session that carries a packet to a source address (R133): ISO 11783-3 lays
them out (log entry 15). -/
opaque tpFrames : Byte → Byte → List Byte → List CanFrame

/-- The opcode and payload of the packet by which a node reports an executed edge to the BUILTIN head: R195
gives the packet no layout (log entry 18). -/
opaque edgeReport : Fin 32 → Bool → Frame48 → Byte × List Byte

/-- The coverage cells such a report covers (R195; log entry 18). -/
opaque reportCells : List Byte → List (Int × Int)

/-- The field-plane coordinates in mm of a position, by field origin and position as latitude, longitude and height:
the spec names the tangent plane and no ellipsoid (07; log entry 53). -/
opaque fieldPlane : Option (BitVec 32 × BitVec 32 × BitVec 32) → BitVec 32 × BitVec 32 × BitVec 32 → Int × Int

/-- The predicted footprint paths of other nodes' channels at a frame, as the BUILTIN head knows them: address,
channel, width in mm and points in mm × 2^20; the spec does not say how it learns their geometry (R195; log
entry 18). -/
opaque memberPaths : Frame48 → List (BitVec 16 × Fin 32 × Nat × List (Int × Int))

end Sys2Proof.Config
end

