-- ==== Sys2Proof/Machine/Bits.lean ====
section
/-! DEFINITION. Pure helpers: fields of words, byte strings, checks (CRC-32C of R123, CRC-8 of R424,
CRC-24Q of R298), saturating counters, vectors and sparse stores. -/

namespace Sys2Proof.Machine

/-- Bits hi..lo of a word as a number. -/
def field (w : Word) (hi lo : Nat) : Nat := (w.toNat >>> lo) % 2 ^ (hi + 1 - lo)

/-- Bit n of a word. -/
def bit (w : Word) (n : Nat) : Bool := w.getLsbD n

/-- A flag as a number. -/
def b2n (b : Bool) : Nat := if b then 1 else 0

/-- A word from (value, low bit) pairs. -/
def pack (fs : List (Nat × Nat)) : Word := BitVec.ofNat 32 (fs.foldl (fun a f => a + f.1 * 2 ^ f.2) 0)

/-- The word with bits set where f says. -/
def maskOf (f : Nat → Bool) : Nat → Word
  | 0 => 0
  | n + 1 => maskOf f n + (if f n then BitVec.ofNat 32 (2 ^ n) else 0)

/-- A word with one bit. -/
def oneBit (n : Nat) : Word := BitVec.ofNat 32 (2 ^ n)

/-- The masked write of R82 and R144. -/
def merge (old value mask : Word) : Word := (old &&& ~~~mask) ||| (value &&& mask)

/-- Saturating increment. -/
def satInc {w : Nat} (x : BitVec w) : BitVec w := if x = BitVec.allOnes w then x else x + 1

/-- Saturating addition of a count. -/
def satAdd {w : Nat} (x : BitVec w) (n : Nat) : BitVec w :=
  if 2 ^ w - 1 ≤ x.toNat + n then BitVec.allOnes w else BitVec.ofNat w (x.toNat + n)

/-- A number saturated to w bits. -/
def satTo (w n : Nat) : BitVec w := if 2 ^ w - 1 ≤ n then BitVec.allOnes w else BitVec.ofNat w n

/-- A signed number saturated to w bits, two's complement. -/
def satInt (w : Nat) (x : Int) : BitVec w :=
  if x < -(2 ^ (w - 1) : Int) then BitVec.ofInt w (-(2 ^ (w - 1) : Int))
  else if (2 ^ (w - 1) : Int) - 1 < x then BitVec.ofInt w ((2 ^ (w - 1) : Int) - 1)
  else BitVec.ofInt w x

/-! ## Byte strings, most significant byte first (R122) -/

/-- The n bytes of x. -/
def be : Nat → Nat → List Byte
  | 0, _ => []
  | n + 1, x => BitVec.ofNat 8 (x >>> (8 * n)) :: be n x

/-- The number a byte string spells. -/
def ofBe (bs : List Byte) : Nat := bs.foldl (fun a b => a * 256 + b.toNat) 0

/-- Bytes i to i + n − 1 of a string, as a number. -/
def beAt (bs : List Byte) (i n : Nat) : Nat := ofBe ((bs.drop i).take n)

/-- Byte i of a string, 0 beyond its end. -/
def byteAt (bs : List Byte) (i : Nat) : Byte := bs.getD i 0

/-- The word at byte i of a string. -/
def wordAt (bs : List Byte) (i : Nat) : Word := BitVec.ofNat 32 (beAt bs i 4)

/-- lo ≤ x ≤ hi. -/
def inRange (lo hi x : Nat) : Bool := decide (lo ≤ x) && decide (x ≤ hi)

/-- Cut a string into pieces of n bytes; fuel bounds the pieces. -/
def chunks (n : Nat) : Nat → List Byte → List (List Byte)
  | 0, _ => []
  | _, [] => []
  | f + 1, b :: bs => (b :: bs).take n :: chunks n f ((b :: bs).drop n)

def crc32Step : Nat → BitVec 32 → BitVec 32
  | 0, c => c
  | n + 1, c => crc32Step n (if c.getLsbD 0 then (c >>> 1) ^^^ 0x82F63B78#32 else c >>> 1)

/-- CRC-32C (R123). -/
def crc32c (bs : List Byte) : Word :=
  ~~~ (bs.foldl (fun c b => crc32Step 8 (c ^^^ b.zeroExtend 32)) 0xFFFFFFFF#32)

def crc8Step : Nat → BitVec 8 → BitVec 8
  | 0, c => c
  | n + 1, c => crc8Step n (if c.getLsbD 7 then (c <<< 1) ^^^ 0x07#8 else c <<< 1)

/-- CRC-8 (R424). -/
def crc8 (bs : List Byte) : Byte := bs.foldl (fun c b => crc8Step 8 (c ^^^ b)) 0

def crc24Step : Nat → BitVec 24 → BitVec 24
  | 0, c => c
  | n + 1, c => crc24Step n (if c.getLsbD 23 then (c <<< 1) ^^^ 0x864CFB#24 else c <<< 1)

/-- CRC-24Q (R298). -/
def crc24q (bs : List Byte) : BitVec 24 :=
  bs.foldl (fun c b => crc24Step 8 (c ^^^ ((b.zeroExtend 24 : BitVec 24) <<< 16))) 0

/-! ## Vectors -/

/-- Apply f to every element. -/
def vmap {α β : Type} {n : Nat} (f : α → β) (v : Vector α n) : Vector β n :=
  ⟨(v.toList.map f).toArray, by simp⟩

/-- Apply f to every element with its index. -/
def vmapIdx {α β : Type} {n : Nat} (f : Fin n → α → β) (v : Vector α n) : Vector β n :=
  ⟨(List.ofFn fun i : Fin n => f i v[i]).toArray, by simp⟩

/-- Change one element. -/
def upd {α : Type} {n : Nat} (v : Vector α n) (i : Fin n) (f : α → α) : Vector α n := v.set i (f v[i])

/-! ## Sparse stores -/

/-- What a store holds at k; d gives the value of an unlisted key. -/
def look {α : Type} (d : Nat → α) : Sparse α → Nat → α
  | [], k => d k
  | (a, v) :: m, k => if k = a then v else look d m k

/-- Store v at k, keeping the canonical form. -/
def store {α : Type} [DecidableEq α] (d : Nat → α) : Sparse α → Nat → α → Sparse α
  | [], k, v => if v = d k then [] else [(k, v)]
  | (a, w) :: m, k, v =>
    if k < a then (if v = d k then (a, w) :: m else (k, v) :: (a, w) :: m)
    else if k = a then (if v = d k then m else (a, v) :: m)
    else (a, w) :: store d m k v

/-- Every key of m is above k. -/
def allAbove {α : Type} (k : Nat) : Sparse α → Bool
  | [] => true
  | (a, _) :: m => decide (k < a) && allAbove k m

/-- The canonical form: keys strictly rising, no listed value equal to the unlisted one. -/
def canon {α : Type} [DecidableEq α] (d : Nat → α) : Sparse α → Bool
  | [] => true
  | (a, v) :: m => decide (v ≠ d a) && allAbove a m && canon d m

/-- What an unlisted byte of SRAM reads as: 0 (Table 14-2). -/
def sramByte (_ : Nat) : Byte := 0

/-- What an unlisted byte of flash reads as: erased, 0xFF (log entry 3). -/
def flashByte (_ : Nat) : Byte := 0xFF

/-- Read n bytes from a. -/
def readBytes (d : Nat → Byte) (m : Memory) (a : Nat) : Nat → List Byte
  | 0 => []
  | n + 1 => look d m a :: readBytes d m (a + 1) n

/-- Write a byte string from a. -/
def writeBytes (d : Nat → Byte) : Memory → Nat → List Byte → Memory
  | m, _, [] => m
  | m, a, b :: bs => writeBytes d (store d m a b) (a + 1) bs

/-- The canonical form of a byte store whose unlisted bytes read as d. -/
abbrev Memory.wf (d : Nat → Byte) (m : Memory) : Prop := canon d m = true

/-! ## Small list helpers -/

/-- Remove the first element that p accepts. -/
def dropFirst {α : Type} (p : α → Bool) : List α → List α
  | [] => []
  | a :: l => if p a then l else a :: dropFirst p l

/-- Replace the first element that p accepts by its image under f. -/
def modFirst {α : Type} (p : α → Bool) (f : α → α) : List α → List α
  | [] => []
  | a :: l => if p a then f a :: l else a :: modFirst p f l

/-- The last n elements. -/
def lastN {α : Type} (n : Nat) (l : List α) : List α := l.drop (l.length - n)

/-- Insert before the first element that is greater under lt. -/
def insertBy {α : Type} (lt : α → α → Bool) (x : α) : List α → List α
  | [] => [x]
  | a :: l => if lt x a then x :: a :: l else a :: insertBy lt x l

/-- Sort by insertion, stable. -/
def sortBy {α : Type} (lt : α → α → Bool) (l : List α) : List α :=
  l.foldl (fun acc x => insertBy lt x acc) []

/-- Insert or replace by key in an association list with rising keys. -/
def putKey {β : Type} (k : Nat) (v : β) : List (Nat × β) → List (Nat × β)
  | [] => [(k, v)]
  | (a, w) :: m => if k < a then (k, v) :: (a, w) :: m else if k = a then (k, v) :: m
    else (a, w) :: putKey k v m

/-- Look up an association list. -/
def findKey {β : Type} (k : Nat) : List (Nat × β) → Option β
  | [] => none
  | (a, w) :: m => if k = a then some w else findKey k m

end Sys2Proof.Machine
end

