-- ==== Sys2Proof/Machine/Geometry.lean ====
section
/-! DEFINITION. Section geometry as records and as settings (07 Table 07-7, R176, R199), and the settings
items that become running at Clay entry (R419). -/

namespace Sys2Proof.Machine

def s32At (bs : List Byte) (i : Nat) : Int := (BitVec.ofNat 32 (beAt bs i 4)).toInt
def s16At (bs : List Byte) (i : Nat) : Int := (BitVec.ofNat 16 (beAt bs i 2)).toInt
def within (b : Int) (x : Int) : Bool := decide (-b ≤ x) && decide (x ≤ b)
def zeroAt (bs : List Byte) (i n : Nat) : Bool := beAt bs i n == 0

/-- A record of GEOMETRY_SET. -/
inductive GeoRec where
  | body (b : Body)
  | channel (n : Fin 32) (g : Geom)
  | speed (v : Speed)
  | params (minSpeed lead overlap drLimit : Nat)
  | unbind (n : Fin 32)

def geoLen (ty : Byte) : Nat := match ty.toNat with | 1 => 16 | 2 => 16 | 3 => 8 | 4 => 12 | 5 => 4 | _ => 0

/-- One record of GEOMETRY_SET, none where it is reserved or out of range. -/
def geoRec (r : List Byte) : Option GeoRec :=
  let b1 := (byteAt r 1).toNat
  match (byteAt r 0).toNat with
  | 1 =>
    if b1 < 4 && within 100000 (s32At r 4) && within 100000 (s32At r 8) && zeroAt r 12 4 then
      some (.body ⟨b1 % 2 = 1, b1 / 2 = 1, BitVec.ofNat 16 (beAt r 2 2), s32At r 4, s32At r 8⟩) else none
  | 2 =>
    let g : Geom :=
      { x := s32At r 2, y := s32At r 6, width := beAt r 10 2, turnComp := bit (wordAt (be 3 0 ++ r.drop 12) 0) 0
        learn := (byteAt r 12).toNat / 2 % 2 = 1, shift := (byteAt r 13).toNat, window := (byteAt r 14).toNat
        dipMin := (byteAt r 15).toNat }
    if b1 < 32 && within 100000 g.x && within 100000 g.y && inRange 1 10000 g.width && (byteAt r 12).toNat < 4 &&
        inRange 1 8 g.shift && inRange 1 40 g.window && inRange 1 40 g.dipMin then
      some (.channel (Fin.ofNat 32 b1) g) else none
  | 3 =>
    let i := (byteAt r 2).toNat
    if b1 ≤ 1 && i ≤ 15 && zeroAt r 3 1 && inRange 1 10000000 (beAt r 4 4) then
      some (.speed ⟨if b1 = 1 then some (Fin.ofNat 16 i) else none, beAt r 4 4⟩) else none
  | 4 =>
    if b1 = 0 && inRange 10 500 (beAt r 2 2) && inRange 5 200 (beAt r 4 2) && (byteAt r 6).toNat ≤ 100 &&
        (byteAt r 7).toNat ≤ 50 && zeroAt r 8 4 then
      some (.params (beAt r 2 2) (beAt r 4 2) (byteAt r 6).toNat (byteAt r 7).toNat) else none
  | _ => if b1 < 32 && zeroAt r 2 2 then some (.unbind (Fin.ofNat 32 b1)) else none

/-- The records of a payload: BAD_LENGTH off a record boundary, BAD_PARAM for a reserved record. -/
def parseRecs {α : Type} (len : Byte → Nat) (one : List Byte → Option α) : Nat → List Byte → Except Byte (List α)
  | 0, _ => .ok []
  | _, [] => .ok []
  | f + 1, b :: bs =>
    let r := b :: bs
    let n := len b
    if n = 0 then .error 0x21
    else if r.length < n then .error 0x22
    else match one (r.take n) with
      | none => .error 0x21
      | some x =>
        match parseRecs len one f (r.drop n) with
        | .ok xs => .ok (x :: xs)
        | .error e => .error e

def parseGeometry (bs : List Byte) : Except Byte (List GeoRec) := parseRecs geoLen geoRec bs.length bs

/-! ## Applying geometry (R199, Table 07-7) -/

def setSect (n : Fin 32) (f : ChSect → ChSect) (s : State) : State :=
  { s with sect := { s.sect with ch := upd s.sect.ch n f } }

/-- Predictions of channel n that have not been handed over are discarded (R174, R199). -/
def dropPreds (n : Fin 32) (s : State) : State :=
  { s with sect := { s.sect with preds := s.sect.preds.filter (fun p => p.ch != n) } }

def applyGeo (r : GeoRec) (s : State) : State :=
  match r with
  | .body b => { s with sect := { s.sect with body := some b } }
  | .channel n g => dropPreds n (setSect n (fun c => { c with geom := some g }) s)
  | .speed v => { s with sect := { s.sect with speed := v } }
  | .params m l o d => { s with sect := { s.sect with minSpeed := m, bridgeLead := l, overlap := o, drLimit := d } }
  | .unbind n => dropPreds n (setSect n (fun c => { c with geom := none }) s)

/-- A BODY or CHANNEL record (R176). -/
def isPlace (r : GeoRec) : Bool := match r with | .body _ => true | .channel _ _ => true | _ => false

/-- The geometry records of a settings item become running; a -B holds no section geometry (R176). -/
def runGeometry (bs : List Byte) (s : State) : State :=
  match parseGeometry bs with
  | .error _ => s
  | .ok rs => rs.foldl (fun s r => if s.id.variant = Variant.b ∧ isPlace r = true then s else applyGeo r s) s

/-- The three terms of LOOKAHEAD_SET for a channel. -/
def applyLook (b : List Byte) (n : Fin 32) (s : State) : State :=
  setSect n (fun c => { c with hyd := beAt b 0 2, flight := beAt b 2 2, margin := s16At b 4 }) s

def lookOk (b : List Byte) : Bool := beAt b 0 2 ≤ 60000 && beAt b 2 2 ≤ 60000 && within 1000 (s16At b 4)

/-- A settings item that becomes running at commit or at Clay entry acts on the section data (Table
16-6). -/
def runItem (k : Nat) (v : List Byte) (s : State) : State :=
  if k = 0x0200 then runGeometry v s
  else if 0x0210 ≤ k && k < 0x0230 then applyLook v (Fin.ofNat 32 (k - 0x0210)) s
  else s

/-! ## The body's path (R180) -/

/-- One term of the sine series: −t·x²/((k+1)(k+2)), numbers scaled by 2^64. -/
def sinTerms (x2 : Int) : Nat → Int → Nat → Int
  | 0, _, _ => 0
  | f + 1, t, k => t + sinTerms x2 f (-(t * x2 / 2 ^ 64) / ((k + 1) * (k + 2) : Nat)) (k + 2)

/-- sin(2π·p/2^32), scaled by 2^64, by its series about the nearest half turn (log entry 10). -/
def sinTurn (p : Nat) : Int :=
  let q : Int := (p % 2 ^ 31 : Nat)
  let a : Int := if q < 2 ^ 30 then q else 2 ^ 31 - q
  let x : Int := a * 115904311329233965478 / 2 ^ 32
  let v := sinTerms (x * x / 2 ^ 64) 16 x 1
  if p < 2 ^ 31 then v else -v

/-- The largest N below 2^k above `base` whose half-step satisfies p, found bit by bit. -/
def bitSearch (p : Nat → Bool) : Nat → Nat → Nat
  | 0, n => n
  | k + 1, n => if p (n + 2 ^ k) then bitSearch p k (n + 2 ^ k) else bitSearch p k n

def sinP (p : Nat) : Int := sinTurn (p % 2 ^ 32)
def cosP (p : Nat) : Int := sinTurn ((p + 2 ^ 30) % 2 ^ 32)

/-- The bearing of a vector, clockwise from north, 2^32 to a turn. -/
def bearing (e n : Int) : Nat :=
  let a := e.natAbs
  let b := n.natAbs
  let q := bitSearch (fun p => sinP p * b ≤ cosP p * a) 30 0
  if 0 ≤ n then (if 0 ≤ e then q else (2 ^ 32 - q) % 2 ^ 32)
  else if 0 ≤ e then 2 ^ 31 - q else 2 ^ 31 + q

/-- The body's heading us µs after the update, at constant yaw rate. -/
def headingAt (m : Motion) (us : Nat) : Nat := (((m.phase : Int) - m.yaw * us * 2 ^ 32 / 36000000000) % 2 ^ 32).toNat

/-- A point of the body's path: east and north of the antenna in mm × 2^20, and the heading. -/
abbrev Pose := Int × Int × Nat

/-- The first `part` µs of millisecond k of the path (R180). -/
def poseStep (m : Motion) (k part : Nat) (p : Pose) : Pose :=
  let h := headingAt m (1000 * k + part / 2)
  let d := (m.speed * 2000000 + m.accel * (2000 * k + part : Nat)) * 2 ^ 20 * part / 2000000000000
  (p.1 + d * sinP h / 2 ^ 64, p.2.1 + d * cosP h / 2 ^ 64, headingAt m (1000 * k + part))

/-- The poses from millisecond k on, n of them. -/
def posesFrom (m : Motion) : Nat → Nat → Pose → List Pose
  | 0, _, p => [p]
  | n + 1, k, p => p :: posesFrom m n (k + 1) (poseStep m k 1000 p)

def startPose (m : Motion) : Pose := (m.east * 2 ^ 20, m.north * 2 ^ 20, m.phase)

/-- The pose at f frames after the update. -/
def poseAt (m : Motion) (f : Nat) : Pose :=
  poseStep m (f / 1000) (f % 1000) ((posesFrom m (f / 1000) 0 (startPose m)).getLastD (startPose m))

/-- The footprint of geometry g on a pose (R180). -/
def footAt (g : Geom) (p : Pose) : Int × Int :=
  let s := sinP p.2.2
  let c := cosP p.2.2
  (p.1 + (s * g.x - c * g.y) / 2 ^ 44, p.2.1 + (c * g.x + s * g.y) / 2 ^ 44)

/-- Speed along x of a point y mm left of the antenna (R186, R187). -/
def speedAt (m : Motion) (y : Int) : Int := m.speed - m.yaw * y * 314159265 / 1800000000000

/-- The bearing of the footprint's velocity f frames after the update, with the body at heading h. -/
def footBearing (m : Motion) (g : Geom) (f : Nat) (h : Nat) : Nat :=
  let vx := speedAt m g.y + m.accel * f / 1000000
  let vy := m.yaw * g.x * 314159265 / 1800000000000
  (h + (if vx = 0 && vy = 0 then 0 else 2 ^ 32 - bearing vy vx)) % 2 ^ 32

/-- The signed distance in mm that a footprint has gone past the line from P1 to P2, along its direction of travel,
f frames after a motion update (R197). -/
def pastLine (m : Motion) (g : Geom) (seg : Int × Int × Int × Int) (f : Nat) : Int :=
  let p := poseAt m f
  let at' := footAt g p
  let h := footBearing m g f p.2.2
  let dE := seg.2.2.1 - seg.1
  let dN := seg.2.2.2 - seg.2.1
  let num : Int := dE * (at'.2 - seg.2.1 * 2 ^ 20) - dN * (at'.1 - seg.1 * 2 ^ 20)
  let den : Int := dE * cosP h - dN * sinP h
  if den = 0 then 0
  else
    let n : Int := (if den < 0 then -num else num) * 2 ^ 45 + (den.natAbs : Int)
    n / (2 * (den.natAbs : Int))

end Sys2Proof.Machine
end

