-- ==== Sys2Proof/Machine/Ops.lean ====
section
/-! DEFINITION. The operations the families share: time, running registers, roles, event records
(R427 to R439), cells, Clay entry and release (R22 to R27, R229), replies (R125 to R127, R136) and
the order of checks (R138). -/

namespace Sys2Proof.Machine

/-- The outcome of a command. -/
abbrev Out := Host.Outcome State Fault Refusal

/-! ## Time (R9, R35) -/

/-- The current frame, TB in whole frames modulo 2^48 (R9). -/
def frameOf (tb : BitVec 64) : Frame48 := BitVec.ofNat 48 (tb.toNat / ticksPerFrame)

def now (s : State) : Frame48 := frameOf s.clk.tb

/-- The clock tree is ungated (R32). -/
def clockOn (s : State) : Bool := s.clk.tree = .running

/-- TB moves on by d ticks; the field replica, once loaded, moves with it (R34, R35), and TB_REFCNT
counts the 40 MHz reference, one cycle in 20 ticks. -/
def advance (d : Nat) (s : State) : State :=
  { s with
    clk := { s.clk with
      tb := s.clk.tb + BitVec.ofNat 64 d
      refcnt := s.clk.refcnt + BitVec.ofNat 32 ((s.clk.tb.toNat + d) / 20 - s.clk.tb.toNat / 20) }
    barr := { s.barr with
      replica := if s.barr.replicaLoaded then s.barr.replica + BitVec.ofNat 64 d else s.barr.replica } }

/-- TB moves on to tick t, if t lies ahead. -/
def advanceTo (t : Nat) (s : State) : State := advance (t - s.clk.tb.toNat) s

/-- The next tick at or after TB that is a multiple of p and was not the instant of duty k before
(log entry 2). -/
def nextEdge (k p : Nat) (s : State) : Nat :=
  if s.clk.tb.toNat % p = 0 && findKey k s.clk.marks != some s.clk.tb.toNat && s.clk.tb.toNat != 0
  then s.clk.tb.toNat else (s.clk.tb.toNat / p + 1) * p

/-- TB moves on to the next instant of duty k, whose period is p ticks. -/
def toEdge (k p : Nat) (s : State) : State :=
  let t := nextEdge k p s
  let s := advanceTo t s
  { s with clk := { s.clk with marks := putKey k t s.clk.marks } }

/-- TB moves on to the next frame boundary (R12). -/
def toFrame (s : State) : State := advance (ticksPerFrame - s.clk.tb.toNat % ticksPerFrame) s

/-- The difference a − b of two frame numbers, as signed 48-bit (R9). -/
def frameDiff (a b : Frame48) : Int := (a - b).toInt

/-! ## Running registers (R143, R8) -/

/-- Reset values of the registers that software writes, by address. -/
def regReset (v : Variant) (a : Nat) : Word :=
  if a = 0x010000 then 0x0000000C
  else if a = 0x010014 then 0x00000064
  else if a = 0x020000 then 0x00000032
  else if a = 0x030000 then 0x00000008
  else if a = 0x030008 then 0x00000005
  else if a = 0x03002C then 0x00000001
  else if a = 0x040000 then 0x0A600000
  else if a = 0x050000 then 0x0A600001
  else if a = 0x040004 || a = 0x050004 then 0x02061C0F
  else if a = 0x040008 || a = 0x050008 then 0x0105DFC0
  else if a = 0x040040 then 0x00000080
  else if a = 0x060000 then 0x00000002
  else if a = 0x070000 then (match v with | .g2 => 0x000A0A3D | .b => 0x000A0A3C)
  else if a = 0x070008 then 0x000A140F
  else if a = 0x07000C then 0x0000140A
  else if a = 0x070014 then 0x00000064
  else if a = 0x070018 then 0x18FF4800
  else if a = 0x070024 then 0x00000007
  else if a = 0x080008 then 0x00060037
  else if a = 0x08000C then 0x0003FF7F
  else if a = 0x080010 then 0x00000004
  else if a = 0x0A0020 then 0x00141E32
  else if 0x100000 ≤ a && a < 0x100800 then
    (match a % 0x40 with
      | 0x00 => 0x00001408 | 0x04 => 0x04C4B400 | 0x14 => 0x6408325A | 0x18 => 0x000003E8
      | 0x1C => 0x00000052 | 0x20 => 0x00138828 | 0x24 => 0x009C400A | _ => 0)
  else if 0x120400 ≤ a && a < 0x120440 then
    (match a % 0x20 with | 0x04 => 0x003201F4 | 0x08 => 0x00000064 | _ => 0)
  else if 0x130000 ≤ a && a < 0x130400 && a % 0x40 = 0 then 0x00000064
  else if a = 0x140000 then 0x00000200
  else if a = 0x140010 then 0x000004B0
  else if a = 0x140014 then 0x000803E8
  else if 0x140100 ≤ a && a < 0x140180 then 0x0000001E
  else if a = 0x150010 then 0x03E80414
  else if a = 0x150034 then 0x00641E00
  else 0

/-- The running value of a software-written register. -/
def reg (s : State) (a : Nat) : Word := look (regReset s.id.variant) s.regs a

/-- Set the running value of a register. -/
def setReg (a : Nat) (v : Word) (s : State) : State :=
  { s with regs := store (regReset s.id.variant) s.regs a v }

/-- A per-channel output register of Table 08-9. -/
def och (s : State) (n : Nat) (off : Nat) : Word := reg s (0x100000 + 0x40 * n + off)

/-- OCH_CFG.MODE of a channel (Table 08-2). -/
def ochMode (s : State) (n : Nat) : Nat := field (och s n 0) 2 0

/-- Domain d is ON (R357). -/
def domOn (s : State) (d : Fin 18) : Bool := s.pwr.dom[d] = .on

/-! ## Roles and service (R15, R91) -/

/-- A partner decides the HEAD role: none, or a head-interface host (R91). -/
def isHead (s : State) : Bool := s.chain.upPartner != .node

def isTail (s : State) : Bool := !s.chain.dnPartner

/-- An island head runs no walk and originates no CMD frames (R115). A head whose head-interface host has come
back is no island head any more, though the break ends only with the DONE of its next walk (R118). -/
def islandHead (s : State) : Bool := s.chain.island && s.chain.upPartner = .none

/-- H-core serves requests: clocked, powered, booted and not halted (R373, R399). -/
def hcoreRuns (s : State) : Bool :=
  clockOn s && domOn s 1 && s.modes.booted && !s.sec.hHalt

/-- The running value of a settings item (R417), or its default. -/
def itemOr (s : State) (n : Nat) (d : List Byte) : List Byte := (findKey n s.fw.items).getD d

/-- The planner source of R17, settings item 0x0001: 0 TC, 1 BUILTIN, 2 CHAIN_HOST. -/
def planner (s : State) : Byte := byteAt (itemOr s 0x0001 [0]) 0

/-- The field side holds its program and answers (BARR_STAT.LINK = UP). -/
def linkUp (s : State) : Bool := s.barr.link = .up

/-! ## Event records (R427 to R436) -/

/-- Events whose severity is at or above this are CRITICAL. -/
def sevCritical : BitVec 2 := 3

def sameSource (code : BitVec 16) (chan : Byte) (r : EventRec) : Bool :=
  r.opened && r.code == code && r.chan == chan

def sameId (r t : EventRec) : Bool := r.side == t.side && r.seq == t.seq

/-- The place a new record takes in a queue of 64 (R432): the queue after, the record displaced
while open, and whether the new one is queued. -/
def enqueue (r : EventRec) (q : List EventRec) : List EventRec × Nat × Bool :=
  if q.length < 64 then (q ++ [r], 0, true)
  else if q.any (fun x => !x.opened) then (dropFirst (fun x => !x.opened) q ++ [r], 0, true)
  else if q.any (fun x => x.sev == 0 && 0 < r.sev.toNat) then
    (dropFirst (fun x => x.sev == 0) q ++ [r], 1, true)
  else if q.any (fun x => x.sev == 1 && 1 < r.sev.toNat) then
    (dropFirst (fun x => x.sev == 1) q ++ [r], 1, true)
  else if q.any (fun x => x.sev == 2 && 2 < r.sev.toNat) then
    (dropFirst (fun x => x.sev == 2) q ++ [r], 1, true)
  else (q, 1, false)

/-- A CRITICAL that cannot be queued counts on the newest open CRITICAL record (R432). -/
def countOnNewest (tb : BitVec 64) (q : List EventRec) : List EventRec :=
  (modFirst (fun x => x.opened && x.sev == sevCritical)
    (fun x => { x with count := satInc x.count, last := tb.setWidth 32 }) q.reverse).reverse

/-- A record changed or created: it is written to the log at the next epoch edge (R434). -/
def markUnlogged (r : EventRec) (l : List EventRec) : List EventRec :=
  if l.any (sameId r) then l else l ++ [r]

/-- A side's stamp: TB, or its replica in the field (R34). -/
def tbOf (side : Side) (s : State) : BitVec 64 :=
  match side with
  | .host => s.clk.tb
  | .field => if s.barr.replicaLoaded then s.barr.replica else s.clk.tb

/-- TB moves on to the next frame boundary of the field side (R12, R34). -/
def toFieldFrame (s : State) : State := advance (ticksPerFrame - (tbOf .field s).toNat % ticksPerFrame) s

/-- A field record leaves as an EVENT message and awaits acknowledgement (R433); it waits while the
barrier is down. -/
def sendEvent (r : EventRec) (s : State) : State :=
  { s with
    ev := { s.ev with unacked := s.ev.unacked.filter (fun x => !sameId r x) ++ [r] }
    barr := { s.barr with rg7 := if linkUp s && s.barr.fieldClock
      then s.barr.rg7 ++ [{ cell := .event r, since := s.clk.tb.toNat }] else s.barr.rg7 } }

/-- The record of a first occurrence (Table 17-1). -/
def freshRec (side : Side) (code : BitVec 16) (sev : BitVec 2) (chan : Byte) (data : List Byte)
    (s : State) : EventRec :=
  { tb := tbOf side s, side := side,
    seq := (match side with | .host => s.ev.hostSeq | .field => s.ev.fieldSeq),
    code := code, sev := sev, opened := true, chan := chan, count := 1,
    last := (tbOf side s).setWidth 32, data := (data ++ be 8 0).take 8 }

/-- A new record waits for handling, or is handled at once when nothing of its severity or above is
being handled on its side (R438). -/
def startHandling (r : EventRec) (e : Events) : Events :=
  if e.handling.any (fun x => x.side == r.side && r.sev.toNat ≤ x.sev.toNat)
  then { e with waiting := e.waiting ++ [r] }
  else { e with handling := r :: e.handling }

/-- An occurrence without its Clay effect: coalesced with the open record of its source, or a new
record placed under R432 (R431, R432, R433, R438). -/
def note (side : Side) (code : BitVec 16) (sev : BitVec 2) (chan : Byte) (data : List Byte)
    (s : State) : State :=
  let occ := if s.ev.epochOcc.contains (side, code, chan) then s.ev.epochOcc
    else s.ev.epochOcc ++ [(side, code, chan)]
  let s := { s with ev := { s.ev with epochOcc := occ } }
  let again (x : EventRec) : EventRec :=
    { x with count := satInc x.count, last := (tbOf side s).setWidth 32,
             data := (data ++ be 8 0).take 8 }
  match side with
  | .host =>
    if s.ev.host.any (sameSource code chan) then
      { s with ev := { s.ev with host := modFirst (sameSource code chan) again s.ev.host } }
    else
      let r := freshRec .host code sev chan data s
      let (q, lost, queued) := enqueue r s.ev.host
      let q := if queued || sev != sevCritical then q else countOnNewest s.clk.tb q
      { s with ev := startHandling r { s.ev with
          host := q, hostOvf := satAdd s.ev.hostOvf lost, hostSeq := s.ev.hostSeq + 1,
          unlogged := if queued then markUnlogged r s.ev.unlogged else s.ev.unlogged } }
  | .field =>
    if s.ev.field.any (sameSource code chan) then
      let s := { s with ev := { s.ev with field := modFirst (sameSource code chan) again s.ev.field } }
      match s.ev.field.find? (sameSource code chan) with
      | some r => sendEvent r s
      | none => s
    else
      let r := freshRec .field code sev chan data s
      let (q, lost, queued) := enqueue r s.ev.field
      let q := if queued || sev != sevCritical then q else countOnNewest (tbOf .field s) q
      let s := { s with ev := startHandling r { s.ev with
          field := q, fieldOvf := satAdd s.ev.fieldOvf lost, fieldSeq := s.ev.fieldSeq + 1 } }
      if queued then sendEvent r s
      else match q.reverse.find? (fun x => x.opened && x.sev == sevCritical) with
        | some x => if sev = sevCritical then sendEvent x s else s
        | none => s

/-- An event its rule limits to one occurrence per epoch (R431). -/
def noteEpoch (side : Side) (code : BitVec 16) (sev : BitVec 2) (chan : Byte) (data : List Byte)
    (s : State) : State :=
  if s.ev.epochOcc.contains (side, code, chan) then s else note side code sev chan data s

/-- An open CRITICAL record is held on either side (R428); while a CRITICAL was counted on another's
record, that record stands for it (R432). -/
def criticalOpen (s : State) : Bool :=
  s.ev.host.any (fun r => r.opened && r.sev == sevCritical) ||
  s.ev.field.any (fun r => r.opened && r.sev == sevCritical)

/-- A CRITICAL record is being handled, or waits for it (R439). -/
def criticalInHand (s : State) : Bool :=
  (s.ev.handling ++ s.ev.waiting).any (fun r => r.sev == sevCritical)

/-! ## Cells (R67) -/

/-- The order in which H-core places the cells it holds (R451). -/
def cellRank (c : Cell) : Nat :=
  match c with
  | .schedEdge _ _ => 0 | .loopCoef _ => 1 | .cfgWrite _ => 2 | .cfgRead _ _ _ => 2 | .sweepCtrl _ => 3 | .dbgReq _ => 4
  | _ => 5

def cellBefore (a b : Cell) : Bool := decide (cellRank a < cellRank b)

/-- Cell slots begin where TB is a multiple of 320 ticks (R64): the first at or after t. -/
def slotAt (t : Nat) : Nat := (t + 319) / 320 * 320

/-- The slot in which a ring's front cell leaves, `last` being the slot before it: the next free one (R64, R67). -/
def nextSlot (last : Nat) (q : Queued) : Nat := slotAt (max (last + 320) q.since)

/-- A cell that enters a ring now. -/
def queued (c : Cell) (s : State) : Queued := { cell := c, since := s.clk.tb.toNat }

/-- RG6, of 128 cells, takes this cell; a chunk of an F-image enters it only while it holds fewer than 16 (R67,
R451). -/
def ringTakes (c : Cell) (rg6 : List Queued) : Bool :=
  match c with
  | .fimgChunk _ _ => decide (rg6.length < 16)
  | _ => decide (rg6.length < 128)

/-- A cell enters RG6, or waits in H-core in the order of R451 while RG6 does not take it or a cell of its order or
earlier waits (R67, R451). -/
def sendCell (c : Cell) (s : State) : State :=
  { s with barr :=
    if ringTakes c s.barr.rg6 && s.barr.rg6Held.all (cellBefore c)
    then { s.barr with rg6 := s.barr.rg6 ++ [queued c s] }
    else { s.barr with rg6Held := insertBy cellBefore c s.barr.rg6Held } }

/-- A cell of the field side enters RG7, while the field has a clock to send it with. -/
def upCell (c : Cell) (s : State) : State :=
  { s with barr := { s.barr with rg7 := if s.barr.fieldClock then s.barr.rg7 ++ [queued c s] else s.barr.rg7 } }

/-- The cells that take the next free slot ahead of every queued cell (R67). -/
def urgent (c : Cell) : Bool :=
  match c with | .heartbeat _ => true | .safeReq _ => true | .timeSync _ => true | _ => false

/-- The place of an urgent cell: behind the cells whose slot has begun and the urgent ones (R67). -/
def placeUrgent (x : Queued) : Nat → List Queued → List Queued
  | _, [] => [x]
  | last, q :: qs =>
    if nextSlot last q < x.since || urgent q.cell then q :: placeUrgent x (nextSlot last q) qs else x :: q :: qs

/-- A HEARTBEAT, SAFE_REQ or TIME_SYNC takes the next free slot (R67). -/
def sendUrgent (c : Cell) (s : State) : State :=
  { s with barr := { s.barr with rg6 := placeUrgent (queued c s) s.barr.downSlot s.barr.rg6 } }

/-- A HEARTBEAT of the field side takes the next free slot (R67). -/
def upUrgent (c : Cell) (s : State) : State :=
  { s with barr := { s.barr with rg7 := placeUrgent (queued c s) s.barr.upSlot s.barr.rg7 } }

/-- The start of the slot a front cell has used when it arrives: its next free slot, or, where TB is past that
arrival, the first whose arrival is not past (R64, R65; log entry 2). -/
def arrivalSlot (last : Nat) (q : Queued) (s : State) : Nat :=
  max (nextSlot last q) (slotAt (s.clk.tb.toNat - s.barr.lat.toNat))

/-- The front cell of RG6 reaches the field side one latency after the start of its slot; a held cell takes the
free place (R64, R65, R67). -/
def passDown (s : State) : State :=
  match s.barr.rg6 with
  | [] => s
  | q :: rest =>
    let t := arrivalSlot s.barr.downSlot q s
    let s := advanceTo (t + s.barr.lat.toNat) s
    let n := if (s.barr.rg6Held.take 1).any (ringTakes · rest) then 1 else 0
    { s with barr := { s.barr with
        downSlot := t, txCnt := s.barr.txCnt + 1, hostNext := s.barr.hostNext + 1
        rg6 := rest ++ (s.barr.rg6Held.take n).map (queued · s), rg6Held := s.barr.rg6Held.drop n } }

/-- The field side accepts the arrived cell with this SEQ, or drops one it did not expect (R68, R69). -/
def seqDown (seq : BitVec 16) (s : State) : State :=
  { s with barr := if seq = s.barr.fieldExpect
      then { s.barr with fieldExpect := seq + 1, fieldGot := seq }
      else { s.barr with fieldExpect := seq + 1, fSeq := satInc s.barr.fSeq } }

/-- Cell c, at the front of RG6, arrives and acts if its SEQ is the expected one (R67 to R69). A field side without
a clock receives nothing. -/
def onDown (c : Cell) (act : State → State) (s : State) : State :=
  match s.barr.rg6 with
  | [] => s
  | q :: _ =>
    if !(linkUp s && q.cell == c) then s
    else if !s.barr.fieldClock then passDown s
    else if s.barr.hostNext = s.barr.fieldExpect then act (seqDown s.barr.hostNext (passDown s))
    else seqDown s.barr.hostNext (passDown s)

/-- Drops of both directions together (R72). -/
def dropTotal (s : State) : Nat :=
  s.barr.hCrc.toNat + s.barr.hSeq.toNat + s.barr.hTyp.toNat + s.barr.mCrc.toNat + s.barr.mSeq.toNat +
  s.barr.mTyp.toNat

/-- Sixteen drops within an epoch raise one WARN for it (R72). -/
def checkDrops (s : State) : State :=
  if s.barr.dropsAtEpoch + 16 ≤ dropTotal s && !s.barr.dropsWarned then
    note .host 0x0201 1 0xFF [] { s with barr := { s.barr with dropsWarned := true } }
  else s

/-- The cells of a message: an event record of 32 bytes takes two (Tables 03-2, 17-1). -/
def cellsOf (c : Cell) : Nat := match c with | .event _ => 2 | _ => 1

/-- The next cell of RG7's front message reaches the host; with its last cell the message leaves the ring. `bad`
says that a cell of the message was dropped (R64, R65, R70). -/
def passUp (bad : Bool) (s : State) : State :=
  match s.barr.rg7 with
  | [] => s
  | q :: rest =>
    let t := arrivalSlot s.barr.upSlot q s
    let s := advanceTo (t + s.barr.lat.toNat) s
    let whole := s.barr.upPart + 1 = cellsOf q.cell
    { s with barr := { s.barr with
        upSlot := t, fieldNext := s.barr.fieldNext + 1
        hMsg := if bad && !s.barr.upBad && 1 < cellsOf q.cell then satInc s.barr.hMsg else s.barr.hMsg
        upPart := if whole then 0 else s.barr.upPart + 1
        upBad := !whole && (bad || s.barr.upBad)
        rg7 := if whole then rest else q :: rest } }

/-- The host accepts the arrived cell with this SEQ, or drops one it did not expect (R68, R69). -/
def seqUp (s : State) : State :=
  let seq := s.barr.fieldNext
  if seq = s.barr.hostExpect then
    let s := passUp false s
    { s with barr := { s.barr with hostExpect := seq + 1, hostGot := seq, rxCnt := s.barr.rxCnt + 1 } }
  else
    let s := passUp true s
    { s with barr := { s.barr with hostExpect := seq + 1, hSeq := satInc s.barr.hSeq } }

/-- Message c, at the front of RG7, arrives whole and acts if every cell of it is accepted (R67 to R70). -/
def onUp (c : Cell) (act : State → State) (s : State) : State :=
  match s.barr.rg7 with
  | [] => s
  | q :: _ =>
    if !(linkUp s && q.cell == c) then s
    else
      let good := !s.barr.upBad && s.barr.fieldNext = s.barr.hostExpect
      let s := (List.range (cellsOf c - s.barr.upPart)).foldl (fun s _ => seqUp s) s
      if good then act s else checkDrops s

/-- SAFE_REQ takes the next slot and is outstanding until confirmed (R67, R71). -/
def sendSafe (causes : BitVec 16) (s : State) : State :=
  if linkUp s then
    let s := sendUrgent (.safeReq causes) s
    let ahead := (s.barr.rg6.takeWhile fun q => q != queued (.safeReq causes) s).length
    { s with barr := { s.barr with
      safe := s.barr.safe.filter (fun x => x.causes != causes) ++
        [{ causes := causes, seq := s.barr.hostNext + BitVec.ofNat 16 ahead,
           dropsBefore := (s.barr.mCrc, s.barr.mSeq, s.barr.mTyp) }] } }
  else s

/-! ## As-applied records (R424) -/

/-- Append a record to the buffer of 4,096; a record that finds it full is counted in the next. -/
def asApplied (r : AsRec) (s : State) : State :=
  if s.fw.asBuf.length < 4096 then
    { s with fw := { s.fw with
        asBuf := s.fw.asBuf ++ [{ r with seq := s.fw.asSeq, flags := s.fw.asDropped }]
        asSeq := s.fw.asSeq + 1, asDropped := 0 } }
  else { s with fw := { s.fw with asDropped := satInc s.fw.asDropped } }

/-- The record of an edge that did not act (Table 07-5): outcome 2 MISSED, 3 SKIPPED_SHORT, 4 CUT. -/
def deadEdge (p : Pred) (outcome : Byte) : AsRec :=
  { ch := p.ch, on := p.on, outcome := outcome, line := p.line, cross := p.cross, edge := 0,
    tick := 0, fine := 0, late := 0, ground := 0x80000000, seq := 0, flags := 0 }

/-- Lateness in frames of an edge at frame f predicted at fine-step time t (Table 07-5). -/
def lateness (f : Frame48) (t : Nat) : Word := satTo 32 ((frameDiff f (BitVec.ofNat 48 (t / 25600))).toNat)

/-! ## Clay (R22 to R27, R229) -/

/-- OCH_PAIR of pair k (Table 08-10). -/
def ochPair (s : State) (k : Nat) : Word := reg s (0x100A00 + 4 * k)

/-- The channel whose generator, gate and mode channel n runs on: OCH(2k) for both halves of a
paralleled pair (R202). -/
def leader (s : State) (n : Fin 32) : Fin 32 :=
  if bit (ochPair s (n.val / 2)) 3 && n.val % 2 = 1 then Fin.ofNat 32 (n.val - 1) else n

/-- The channel whose command reaches driver n after SWAP (R216). -/
def sourceOf (s : State) (n : Fin 32) : Fin 32 :=
  if bit (ochPair s (n.val / 2)) 0 then
    Fin.ofNat 32 (if n.val % 2 = 0 then n.val + 1 else n.val - 1) else n

/-- The channel whose generator feeds driver d (R202, R216). -/
def feeder (s : State) (d : Fin 32) : Fin 32 := leader s (sourceOf s d)

/-- Channel n is held off by a fan stall: the drive of a held role, or a dependent (R241, R242). -/
def fanHeld (s : State) (n : Fin 32) : Bool :=
  (List.finRange 2).any fun j =>
    let f := s.sense.fan[j]
    (f.driveHold && field (reg s (0x120400 + 0x20 * j.val)) 12 8 = n.val) || bit f.depHold n.val

/-- The bit of cause c in ID_CLAY (Table 01-6). -/
def cause (c : Fin 11) : BitVec 16 := BitVec.ofNat 16 (2 ^ c.val)

/-- A counting period of a channel ends: a tripped one restarts the count of clean ones, and every
K clean ones take one off the counter (R222). -/
def closePeriod (k : Nat) (c : Chan) : Chan :=
  if c.tripInPeriod then { c with clean := 0, tripInPeriod := false }
  else if k ≤ c.clean.toNat + 1 then
    { c with clean := 0, trips := if c.trips = 0 then 0 else c.trips - 1 }
  else { c with clean := c.clean + 1 }

/-- A trip counts once in its period, at the trip, and at N the channel latches off (R222, R223,
Table 08-11). -/
def countTrip (n : Nat) (src : TripSrc) (c : Chan) : Chan :=
  if c.tripInPeriod then { c with lastSrc := src }
  else
    { c with lastSrc := src, tripInPeriod := true, clean := 0, trips := satInc c.trips,
             tripPeriods := satInc c.tripPeriods,
             latched := c.latched || decide (n ≤ (satInc c.trips).toNat) }

/-- K of OCH_LEAK and N of OCH_TRIP. -/
def leakK (s : State) (n : Nat) : Nat := field (och s n 0x18) 15 0
def latchN (s : State) (n : Nat) : Nat := field (och s n 0x14) 23 16

/-- DATA byte 25 of OCH_LATCH (Table 17-8) and byte 26, the TRIP input. -/
def srcBytes (t : TripSrc) : List Byte :=
  match t with
  | .overcurrent => [0, 0xFF]
  | .short => [1, 0xFF]
  | .input i => [2, BitVec.ofNat 8 i.val]
  | .temperature => [3, 0xFF]
  | .disagree => [4, 0xFF]

/-- WARN OCH_LATCH (R223, Table 17-8). -/
def noteLatch (n : Fin 32) (s : State) : State :=
  note .field 0x1002 1 (BitVec.ofNat 8 n.val)
    ([s.out.ch[n].trips] ++ srcBytes s.out.ch[n].lastSrc) s

/-- The latest changes of a driver's output, those of the last 200 ms, the longest window of R188, newest
first. -/
def turned (tb : BitVec 64) (on : Bool) (c : Chan) : Chan :=
  { c with turns := (tb, on) :: c.turns.filter fun x => tb.toNat - x.1.toNat ≤ 160000000 }

/-- One channel at Clay entry (R229): gate off, generator stopped, override cleared, edges discarded, place in
the budget left (R446), lamp bias removed; latches, counters and timing kept. A counting period of the driver
that a generator gave it counts as a whole one (R222). -/
def chanClay (tb : BitVec 64) (closes : Bool) (k : Nat) (c : Chan) : Chan :=
  let c := turned tb false (if closes then closePeriod k c else c)
  { c with gate := false, ovr := .none, gen := false, genOut := false, queue := [],
           peakPhase := false, holdOff := false, peakMiss := false, blanking := false,
           inrush := false, stretch := false, turnOff := none,
           grant := .granted, placed := false, warned := false }

/-- Driver d counts in generator periods: its feeder generates and no fan stall holds it off (R222, R242). -/
def countsGen (s : State) (d : Fin 32) : Bool :=
  leader s d == d && s.out.ch[feeder s d].gen && !fanHeld s d

/-- A loop slot at Clay entry: RUNNING freezes (R251); a pending swap goes (R273). -/
def slotClay (l : Slot) : Slot :=
  { l with state := if l.state = .running then .frozen else l.state, fzClay := true, swapAt := none }

/-- A fan role at Clay entry: IDLE in any state but STALLED, with its loop freeze released
(Table 09-3, R246). -/
def fanClay (f : Fan) : Fan :=
  if f.state = .stalled then f else { f with state := .idle, window := none, good := 0, freeze := false }

/-- The WARN of R141 for a scheduled command that failed or was discarded, with the status met. -/
def schedFail (q : Request) (status : Byte) (s : State) : State :=
  note .host 0x0002 1 0xFF (be 2 q.pkt.src.toNat ++ be 2 q.pkt.seq.toNat ++ [q.pkt.opcode, status]) s

/-- Discard the scheduled commands p accepts, each with its WARN (R141). -/
def discardSched (p : SchedCmd → Bool) (s : State) : State :=
  let gone := s.pkt.sched.filter p
  let s := { s with pkt := { s.pkt with sched := s.pkt.sched.filter (fun c => !p c) } }
  gone.foldl (fun s c => schedFail c.q 0x11 s) s

/-- The sweep with its remaining channels in state v and STATE = 3 (R453). -/
def abortedSweep (v : Byte) (w : Sweep) : Sweep :=
  let rest := (List.range 32).filter fun n =>
    w.mask.getLsbD n && !(w.results.any fun r => r.ch.val = n)
  { w with
    state := .aborted
    results := w.results ++ rest.map fun n =>
      { ch := Fin.ofNat 32 n, state := v, v1 := 0xFFFFFFFF, v2 := 0xFFFFFFFF, v3 := 0 } }

def sweepLive (w : Sweep) : Bool := w.state = .pending || w.state = .running

/-- A sweep ends early: the current and later masked channels take the state v, STATE = 3 and NOTE
SWEEP_PARTIAL (R453). One the field has not been told of ends in the host's mirror. -/
def abortSweep (v : Byte) (s : State) : State :=
  match s.out.sweep.filter sweepLive with
  | some w =>
    note .field 0x1504 0 0xFF (be 2 w.sweepId.toNat)
      { s with out := { s.out with sweep := some (abortedSweep v w), mirror := some (abortedSweep v w) } }
  | none =>
    match s.out.mirror.filter sweepLive with
    | some w => { s with out := { s.out with mirror := some (abortedSweep v w) } }
    | none => s

/-- A loop test ends ABORTED, with the records it holds, when its slot leaves RUNNING (R276). -/
def settleTest (s : State) : State :=
  if s.loop.test.running && s.loop.slot[s.loop.test.slot].state != .running then
    { s with loop := { s.loop with test := { s.loop.test with running := false, aborted := true } } }
  else s

/-- WARN SWAP_DISCARD for each slot whose swap is pending (R273). -/
def warnSwaps (s : State) : State :=
  (List.finRange 16).foldl (fun s i =>
    match s.loop.slot[i].swapAt with
    | some k => note .field 0x1302 1 (BitVec.ofNat 8 i.val) (be 1 i.val ++ be 4 k.toNat) s
    | none => s) s

/-- Settings items waiting for Clay become running at Clay entry (R419). -/
def applyAtClay (s : State) : State :=
  let l := s.fw.atClay
  let s := { s with fw := { s.fw with items := l.foldl (fun m i => putKey i.1 i.2 m) s.fw.items, atClay := [] } }
  l.foldl (fun s i => runItem i.1 i.2 s) s

/-- Edges handed over that had not acted are CUT (Table 07-5). -/
def cutHanded (s : State) : State :=
  let hs := s.sect.handed
  let s := { s with sect := { s.sect with handed := [] } }
  hs.foldl (fun s h => asApplied (deadEdge h.pred 4) s) s

/-- The slot bound to the drive channel of an enabled fan role (R241). -/
def fanSlot (s : State) (j : Fin 2) : Option (Fin 16) :=
  let cfg := reg s (0x120400 + 0x20 * j.val)
  let drive := och s (field cfg 12 8) 0
  if bit cfg 0 && bit drive 20 then some (Fin.ofNat 16 (field drive 19 16)) else none

/-- A fan role in state f freezes slot i (R241, R244). -/
def fanFreezes (s : State) (f : FanState) (i : Fin 16) : Bool :=
  (List.finRange 2).any fun j =>
    s.sense.fan[j].state == f && s.sense.fan[j].freeze && fanSlot s j == some i

/-- A slot with its fan freeze causes: RUNNING while none holds, FROZEN while one does (R251). -/
def freezeSlot (stall tach : Bool) (l : Slot) : Slot :=
  { l with fzStall := stall, fzTach := tach
           state := if l.state = .running && (stall || tach) then .frozen
             else if l.state = .frozen && !(l.fzClay || stall || tach) then .running else l.state }

/-- The freeze causes of every slot follow the fan roles. -/
def syncFreeze (s : State) : State :=
  let slots := vmapIdx
    (fun i l => freezeSlot (fanFreezes s .stalled i) (fanFreezes s .tachOpen i) l) s.loop.slot
  settleTest { s with loop := { s.loop with slot := slots } }

/-- The drivers, loops, fans and targets at Clay entry (R229, R26, R173, R193). -/
def clayHardware (s : State) : State :=
  { s with
    out := { s.out with ch := vmapIdx (fun n c => chanClay s.clk.tb (countsGen s n) (leakK s n) c) s.out.ch }
    loop := { s.loop with slot := vmap slotClay s.loop.slot }
    sense := { s.sense with fan := vmap fanClay s.sense.fan }
    sect := { s.sect with
      ch := vmap (fun c => { c with target := false }) s.sect.ch
      tcCmd := s.sect.tcCmd.map (fun c => (c.1, false)) }
    barr := { s.barr with schedWrites := [], heldEdges := [] } }

/-- The host reports each scheduled field write that Clay discards (R82): its command is discarded
with the others of R141. -/
def clayEntry (s : State) : State :=
  applyAtClay (cutHanded (abortSweep 6 (syncFreeze (clayHardware (warnSwaps
    (discardSched (fun c => c.q.pkt.opcode != 0x02) s))))))

/-- Clay cause c holds from now: ID_CLAY records it, and the field side, if it was out of Clay,
enters it (R23, Table 01-8). -/
def enterClay (c : Fin 11) (s : State) : State :=
  if s.modes.clay then
    { s with modes := { s.modes with active := s.modes.active ||| cause c
                                     latched := s.modes.latched ||| cause c } }
  else
    clayEntry { s with modes := { s.modes with
      clay := true, active := s.modes.active ||| cause c,
      latched := s.modes.active ||| cause c } }

/-- Cause c no longer holds (Table 01-6); the field side stays in Clay. -/
def liftCause (c : Fin 11) (s : State) : State :=
  { s with modes := { s.modes with active := s.modes.active &&& ~~~ cause c } }

/-- A cause the host side detects: SAFE_REQ carries it, and the field side enters Clay (Table 08-7;
log entry 9: the step does not show the 2 µs between). -/
def hostClay (c : Fin 11) (s : State) : State := sendSafe (cause c) (enterClay c s)

/-- Into Silt, with its reason; the field side takes cause 8 (Tables 01-5, 01-6). -/
def enterSilt (why : BitVec 4) (s : State) : State :=
  hostClay 8 { s with modes := { s.modes with mode := .silt, siltWhy := why } }

/-- Into Loam: cause 8 is released (Table 01-6). -/
def enterLoam (s : State) : State :=
  liftCause 8 { s with modes := { s.modes with mode := .loam, siltWhy := 0 } }

/-- An event (R427 to R439): its record, and for a CRITICAL Clay cause 4, on the field side at its next frame boundary,
and, while another is being handled, Silt with SILT_WHY = 5 (R428, R439, Table 08-7). -/
def raise (side : Side) (code : BitVec 16) (sev : BitVec 2) (chan : Byte) (data : List Byte)
    (s : State) : State :=
  if sev == sevCritical then
    let nested := criticalInHand s
    let opens := !((match side with | .host => s.ev.host | .field => s.ev.field).any
      (sameSource code chan))
    let s := note side code sev chan data s
    let s := match side with
      | .host => hostClay 4 s
      | .field => enterClay 4 (toFieldFrame s)
    if nested && opens && s.modes.mode = .loam then enterSilt 5 s else s
  else note side code sev chan data s

/-- Cause 4 follows the open CRITICAL records (R428). -/
def settleCritical (s : State) : State := if criticalOpen s then s else liftCause 4 s

/-- ID_CLAY (Table 01-8). -/
def idClay (s : State) : Word := s.modes.active ++ s.modes.latched

/-- ID_MODE (Table 01-7). -/
def idMode (s : State) : Word :=
  pack [((match s.modes.mode with | .sand => 0 | .silt => 1 | .loam => 2), 0),
    (s.modes.siltWhy.toNat, 4), (s.modes.sandWhy.toNat, 8), (b2n s.modes.clay, 16),
    (b2n (isHead s && s.modes.booted), 17), (b2n (isTail s && s.modes.booted), 18)]

/-- What still holds against a release: the causes but 3 and 10, which end with it (R24). -/
def holdingCauses (s : State) : BitVec 16 := s.modes.active &&& ~~~ (cause 3 ||| cause 10)

/-- The field domains of R362. -/
def fieldDomainsOn (s : State) : Bool := domOn s 12 && domOn s 13 && domOn s 14 && domOn s 15

/-- A loop slot at release: the Clay freeze ends (R26). -/
def slotRelease (l : Slot) : Slot :=
  { l with fzClay := false
           state := if l.state = .frozen && !l.fzStall && !l.fzTach then .running else l.state }

/-- A slot frozen in Clay stays frozen at a release while a fan holds it; every channel is off and
the step window closes at a head (R25, R26, R38). -/
def releaseClay (s : State) : State :=
  { s with
    modes := { s.modes with clay := false, latched := 0, active := 0, releaseFrame := now s }
    loop := { s.loop with slot := vmap slotRelease s.loop.slot }
    clk := { s.clk with window := if isHead s then false else s.clk.window } }

/-- A fresh random word (R36, log entry 6). -/
def draw (s : State) : State := { s with free := s.free + 1 }

/-! ## Packets (R122 to R126) -/

/-- The 20 to 252 bytes of a packet, CRC last (Table 05-1). -/
def packetHead (p : Packet) : List Byte :=
  [BitVec.ofNat 8 (p.ver.toNat * 16 + b2n p.bcast + 2 * b2n p.ackreq + 4 * b2n p.sched + 8 * b2n p.more),
   p.opcode] ++ be 2 p.seq.toNat ++ be 2 p.dest.toNat ++ be 2 p.src.toNat ++
  [BitVec.ofNat 8 (p.chainId.toNat * 32 + p.cls.toNat * 8 + p.ignored.toNat), BitVec.ofNat 8 p.payload.length] ++
  be 6 p.applyAt.toNat ++ p.payload

def packetCrc (p : Packet) : Word := crc32c (packetHead p)

def packetBytes (p : Packet) : List Byte := packetHead p ++ be 4 (packetCrc p).toNat

/-- The parameters of a request: its payload, or those of its parts in order (R129). -/
def reqBody (q : Request) : List Byte := if q.parts.isEmpty then q.pkt.payload else q.parts.flatten

/-- This node's unit address as packets carry it: 0 while it holds none (R94, R102). -/
def ownAddr (s : State) : BitVec 16 := if s.chain.addrValid then s.chain.addr else 0

/-- Class order among frames (R97). -/
def classBefore (a b : ChainFrame) : Bool := decide (a.cls.toNat < b.cls.toNat)

/-- A frame waits in RG5 for a gap upstream, or in host SRAM while RG5 is full (R99). -/
def queueUp (f : ChainFrame) (s : State) : State :=
  let x : OwnFrame := { since := s.clk.tb.toNat, frame := f }
  { s with chain :=
    if s.chain.rg5.length < 256 && s.chain.rg5Held.isEmpty
    then { s.chain with rg5 := s.chain.rg5 ++ [x] }
    else { s.chain with rg5Held := insertBy (fun a b => classBefore a.frame b.frame) x s.chain.rg5Held } }

/-- The ticks a frame takes on a link: 25 ns to a code group, 13 of them beside its payload (Table 04-1). -/
def frameTicks (f : ChainFrame) : Nat := (f.payload.length + 13) * 20

/-- A frame goes out on DN, behind what is on the line. -/
def outDown (f : ChainFrame) (s : State) : State :=
  { s with chain := { s.chain with
    dnLine := some f, dnBusyTo := max s.chain.dnBusyTo s.clk.tb.toNat + frameTicks f } }

/-- A frame goes out on UP, behind what is on the line. -/
def outUp (f : ChainFrame) (s : State) : State :=
  { s with chain := { s.chain with
    upLine := some f, upBusyTo := max s.chain.upBusyTo s.clk.tb.toNat + frameTicks f } }

/-- A frame that leaves DN, where a partner listens (R90, R105). -/
def sendDown (f : ChainFrame) (s : State) : State := if s.chain.dnPartner then outDown f s else s

/-- A frame that leaves UP, where a partner listens (R90). -/
def sendUp (f : ChainFrame) (s : State) : State :=
  if s.chain.upLock && s.chain.upPartner != .none then outUp f s else s

/-- An RPL or EVT frame that carries a packet of this node (R94). -/
def upFrame (ftype : BitVec 4) (p : Packet) (s : State) : ChainFrame :=
  { ftype := ftype, amode := 0, chainId := s.chain.chainId, cls := p.cls,
    srcuna := !s.chain.addrValid, dest := 0, origHop := s.chain.hop, payload := packetBytes p }

/-- A CMD frame that carries a packet into the chain (R94). -/
def cmdOf (p : Packet) (s : State) : ChainFrame :=
  { ftype := 4, amode := if p.bcast then 1 else 0, chainId := s.chain.chainId, cls := p.cls,
    dest := if p.bcast then 0 else p.dest, origHop := 0, payload := packetBytes p }

/-- A reply is loaded into the mailbox buffer and READY rises (R349, R352). -/
def loadReply (p : Packet) (s : State) : State :=
  { s with svc := { s.svc with
      buf := writeBytes sramByte s.svc.buf 4 (packetBytes p)
      mbLen := BitVec.ofNat 8 (20 + p.payload.length)
      ready := true, busy := false, wroteSince := false, taken := false
      attnPend := s.svc.attnPend || (s.svc.attnEn && !s.svc.ready) } }

/-- A request of this SEQ and opcode is the one whose GO is in progress, which is still in the buffer (R348). -/
def isGo (seq : BitVec 16) (opcode : Byte) (s : State) : Bool :=
  s.svc.busy && seq.toNat == beAt (readBytes sramByte s.svc.buf 6 2) 0 2 &&
  (opcode ||| 0x80) == (look sramByte s.svc.buf 5 ||| 0x80)

/-- A packet is this node's own answer to the GO in progress. -/
def answersGo (p : Packet) (s : State) : Bool := p.src == ownAddr s && isGo p.seq p.opcode s

/-- A reply reaches the mailbox: loaded as the answer of the GO in progress or into a buffer that is free,
else held among the 16 not read, else discarded and counted (R157, R348, R349; log entry 35). -/
def mailReply (p : Packet) (s : State) : State :=
  if !domOn s 10 then s
  else if answersGo p s || (!s.svc.busy && !s.svc.ready && !s.svc.wroteSince) then loadReply p s
  else if s.svc.heldReplies.length + b2n s.svc.ready < 16 then
    { s with svc := { s.svc with heldReplies := s.svc.heldReplies ++ [p] } }
  else { s with pkt := { s.pkt with svc := { s.pkt.svc with drop := satInc s.pkt.svc.drop } } }

/-- The mailbox request in progress ends without a reply (R346, R348). -/
def mailNoReply (s : State) : State :=
  if s.svc.busy then { s with svc := { s.svc with busy := false, noReply := true } } else s

/-- A reply leaves by the transport its request came on (R131 to R135). -/
def routeReply (via : Via) (p : Packet) (s : State) : State :=
  match via with
  | .chain _ => queueUp (upFrame 5 p s) s
  | .headHost => queueUp (upFrame 5 p s) s
  | .can port src => { s with pkt := { s.pkt with canReplies := s.pkt.canReplies ++ [(port, src, p)] } }
  | .svc => mailReply p s
  | .planner => s

/-- The packets of a request: one, or its parts under consecutive SEQ values up to the last (R129). -/
def partPackets (q : Request) : List Packet :=
  if q.parts.isEmpty then [q.pkt]
  else q.parts.zipIdx.map fun x =>
    { q.pkt with payload := x.1, more := decide (x.2 + 1 < q.parts.length)
                 seq := q.pkt.seq - BitVec.ofNat 16 (q.parts.length - 1 - x.2) }

/-- The packets of a request leave for the chain. -/
def sendPackets (q : Request) (s : State) : State := (partPackets q).foldl (fun s p => sendDown (cmdOf p s) s) s

/-- The head forwards a request into the chain, each of its packets with an entry in the origin table
(R132). -/
def forwardPackets (q : Request) (s : State) : State :=
  let mine : List Origin := (partPackets q).map fun p => { seq := p.seq, src := p.src, via := q.via }
  sendPackets q (if q.via = .planner then s
    else { s with chain := { s.chain with origins := lastN 256 (s.chain.origins ++ mine) } })

/-- The first CLAY_RELEASE a head issues or forwards closes its step window (R38). -/
def closeWindow (q : Request) (s : State) : State :=
  { s with clk := { s.clk with window := if q.pkt.opcode == 0x03 then false else s.clk.window } }

/-- A head that may originate CMD frames (R105, R115, R425). -/
def mayIssue (s : State) : Bool := isHead s && !islandHead s && hcoreRuns s && s.modes.mode != .sand

/-- A request that reached the node over the chain, which forwards it in hardware (R95). -/
def onChain (via : Via) : Bool := match via with | .chain _ => true | .headHost => true | _ => false

/-- A head passes this broadcast on into the chain (R128, R155). -/
def passesOn (q : Request) (s : State) : Bool := q.pkt.bcast && mayIssue s && !onChain q.via

/-- The head owes the chain this broadcast, which it passes on once it has sent its own reply (R128). -/
def owe (q : Request) (s : State) : State :=
  if passesOn q s then { s with pkt := { s.pkt with owed := s.pkt.owed ++ [q] } } else s

/-- The transport a request came on, without the sender's address on it. -/
def transport (via : Via) : Via :=
  match via with | .chain _ => .chain 0 | .can p _ => .can p 0 | v => v

/-- The same transport, SRC and SEQ (R136). -/
def sameReq (q : Request) (d : DupEntry) : Bool :=
  transport d.via == transport q.via && d.src == q.pkt.src && d.seq == q.pkt.seq

/-- A request that matches an entry in all six (R136). -/
def isDup (q : Request) (d : DupEntry) : Bool :=
  sameReq q d && d.opcode == q.pkt.opcode && d.crc == packetCrc q.pkt

/-- The request is remembered among the last 64, in place of one of its transport, SRC and SEQ
(R136). -/
def remember (q : Request) (s : State) : State :=
  { s with pkt := { s.pkt with dups := lastN 64 (s.pkt.dups.filter (fun d => !sameReq q d) ++
      [{ via := q.via, src := q.pkt.src, seq := q.pkt.seq, opcode := q.pkt.opcode,
         crc := packetCrc q.pkt }]) } }

/-- The stored reply of a request (R136). -/
def storeReply (q : Request) (ps : List Packet) (s : State) : State :=
  { s with pkt := { s.pkt with
      dups := s.pkt.dups.map fun d => if isDup q d then { d with replies := ps, finished := true } else d } }

/-- A reply packet (R125). -/
def replyPacket (q : Request) (payload : List Byte) (more : Bool) (s : State) : Packet :=
  { ver := 1, bcast := false, ackreq := false, sched := false, more := more,
    opcode := q.pkt.opcode ||| 0x80, seq := q.pkt.seq, dest := q.pkt.src, src := ownAddr s,
    chainId := q.pkt.chainId, cls := q.pkt.cls, applyAt := now s, payload := payload }

/-- An answer: status (Table 05-4), detail (Table 05-5), data, and the data of further parts. -/
structure Ans where
  status : Byte := 0
  detail : Byte := 0
  data : List Byte := []
  parts : List (List Byte) := []
  deriving DecidableEq, Repr

/-- DONE with data. -/
def done (data : List Byte) : Option Ans := some { data := data }

/-- A refusal. -/
def refuse (status detail : Byte) : Option Ans := some { status := status, detail := detail }

/-- DONE and ACCEPTED with no data go out only when asked for (R126). -/
def suppressed (q : Request) (a : Ans) : Bool :=
  (a.status == 0 || a.status == 1) && a.data.isEmpty && a.parts.isEmpty && !q.pkt.ackreq

/-- The packets of an answer: MORE on every part but the last (R125). -/
def replyPackets (q : Request) (a : Ans) (s : State) : List Packet :=
  match a.parts with
  | [] => [replyPacket q (a.status :: a.detail :: a.data) false s]
  | ps => (a.data :: ps).zipIdx.map fun d =>
      replyPacket q (a.status :: a.detail :: d.1) (decide (d.2 < ps.length)) s

/-- A CLAY_RELEASE refused under R161. -/
def wrongPlanner (q : Request) (a : Ans) : Bool := q.pkt.opcode == 0x03 && a.status == 0x11 && a.detail == 0x25

/-- A broadcast the head owes the chain leaves after its own reply, but no CLAY_RELEASE it refused under R161
(R128, R155). -/
def payOwed (q : Request) (a : Ans) (s : State) : State :=
  if s.pkt.owed.contains q then
    let s := { s with pkt := { s.pkt with owed := s.pkt.owed.erase q } }
    if wrongPlanner q a || !mayIssue s then s else forwardPackets q s
  else s

/-- Send the answer to a request and keep it for a duplicate (R125, R126, R136); what the request owes the chain
follows (R128). -/
def reply (q : Request) (a : Ans) (s : State) : State :=
  let ps := if suppressed q a then [] else replyPackets q a s
  let s := storeReply q ps s
  let s := if a.status == 0x30 then
    { s with pkt := { s.pkt with lateReplies := satInc s.pkt.lateReplies } } else s
  payOwed q a (if ps.isEmpty && q.via = .svc then (if isGo q.pkt.seq q.pkt.opcode s then mailNoReply s else s)
    else ps.foldl (fun s p => routeReply q.via p s) s)

/-! ## The order of checks (R138) -/

/-- How the catalogue marks an opcode: modes (Sand, Silt, Loam) and flags B, S, S!, M, H
(Tables 06-1, 06-4 to 06-17). -/
structure OpInfo where
  sand : Bool := false
  silt : Bool := true
  b : Bool := false
  sched : Bool := false
  must : Bool := false
  m : Bool := false
  h : Bool := false
  deriving DecidableEq, Repr

/-- The opcodes of Tables 06-4 to 06-17; every other is undefined (R149). -/
def opInfo (op : Nat) : Option OpInfo :=
  match op with
  | 0x00 => some { sand := true, b := true }
  | 0x01 => some { b := true, sched := true }
  | 0x02 => some { b := true, sched := true }
  | 0x03 => some { silt := false, b := true, sched := true }
  | 0x04 => some { sand := true, b := true, sched := true }
  | 0x05 => some { b := true }
  | 0x06 => some { b := true }
  | 0x10 => some { h := true }
  | 0x11 => some { b := true }
  | 0x12 => some {}
  | 0x13 => some { h := true }
  | 0x18 => some { b := true, sched := true }
  | 0x19 => some { h := true }
  | 0x20 => some { silt := false, b := true, sched := true }
  | 0x21 => some { b := true, sched := true }
  | 0x22 => some { silt := false, b := true, m := true }
  | 0x23 => some { b := true, sched := true }
  | 0x24 => some { b := true }
  | 0x25 => some { silt := false, b := true, sched := true }
  | 0x30 => some { silt := false, b := true, m := true }
  | 0x31 => some { silt := false, b := true, sched := true }
  | 0x32 => some { m := true }
  | 0x33 => some { b := true }
  | 0x34 => some { b := true }
  | 0x35 => some { b := true }
  | 0x36 => some { b := true }
  | 0x38 => some { b := true }
  | 0x39 => some { silt := false, sched := true }
  | 0x40 => some { m := true }
  | 0x41 => some {}
  | 0x42 => some { b := true, sched := true }
  | 0x43 => some { silt := false, sched := true }
  | 0x44 => some {}
  | 0x48 => some { b := true }
  | 0x49 => some { b := true, m := true }
  | 0x4A => some { b := true, m := true }
  | 0x4B => some { b := true, sched := true }
  | 0x4C => some { m := true }
  | 0x4D => some {}
  | 0x4E => some {}
  | 0x4F => some { b := true }
  | 0x50 => some { b := true }
  | 0x51 => some { sched := true }
  | 0x52 => some {}
  | 0x53 => some {}
  | 0x54 => some {}
  | 0x58 => some { sand := true, b := true }
  | 0x59 => some {}
  | 0x5A => some { silt := false, b := true, sched := true, must := true }
  | 0x5B => some { b := true }
  | 0x5C => some { b := true, sched := true }
  | 0x5D => some { sand := true }
  | 0x60 => some { b := true }
  | 0x61 => some { b := true, m := true }
  | 0x62 => some { b := true }
  | 0x63 => some { b := true }
  | 0x68 => some { sand := true }
  | 0x69 => some { sand := true, m := true }
  | 0x6A => some { sand := true }
  | 0x6B => some { sand := true }
  | 0x6C => some { sand := true, b := true }
  | 0x70 => some { sand := true, b := true }
  | 0x71 => some {}
  | 0x72 => some {}
  | 0x73 => some {}
  | 0x74 => some {}
  | 0x78 => some { sched := true }
  | 0x79 => some { b := true }
  | 0x7A => some { sand := true, b := true }
  | 0x7B => some { b := true, sched := true, m := true }
  | _ => none

/-- Step 2: format version and length (R124). -/
def checkFormat (q : Request) : Option Ans :=
  if q.pkt.ver != 1 then refuse 0x21 0x07
  else if 232 < q.pkt.payload.length || q.parts.any (fun p => 232 < p.length) then refuse 0x22 0
  else none

/-- The request names this node alone. -/
def forMe (q : Request) (s : State) : Bool :=
  !q.pkt.bcast && s.chain.addrValid && q.pkt.dest == s.chain.addr

/-- A request that came from outside the chain: CAN or the service port. -/
def fromOutside (via : Via) : Bool := match via with | .can _ _ => true | .svc => true | _ => false

/-- Step 3: a head ignores a packet of another chain from CAN or the service port (R104); the chain ID in use is
that of the last walk (R121). -/
def otherChain (q : Request) (s : State) : Bool :=
  isHead s && fromOutside q.via && q.pkt.chainId != s.chain.chainId

/-- Step 4: a member refuses a packet for others from CAN or the service port (R105). -/
def notHead (q : Request) (s : State) : Bool :=
  !isHead s && fromOutside q.via && (q.pkt.bcast || !forMe q s)

/-- Step 8: the mode accepts the opcode (R21, R150). -/
def checkMode (i : OpInfo) (s : State) : Option Ans :=
  match s.modes.mode with
  | .sand => if i.sand then none else refuse 0x51 0
  | .silt => if i.silt then none else refuse 0x50 0
  | .loam => none

/-- Step 9 as it holds for every opcode: a RETIRED node acts on ID_GET, SEC_GET, IMG_INFO and RESET
only (R389). -/
def checkLife (op : Nat) (s : State) : Option Ans :=
  if s.sec.life = .retired && !(op == 0x00 || op == 0x04 || op == 0x6C || op == 0x70)
  then refuse 0x12 0x2F else none

/-- Step 11: scheduling, in the order of R140 and R151. -/
def checkSched (i : OpInfo) (q : Request) (s : State) : Option Ans :=
  let d := frameDiff q.pkt.applyAt (now s)
  if !q.pkt.sched then (if i.must then refuse 0x21 0x27 else none)
  else if !i.sched then refuse 0x21 0x08
  else if !s.clk.valid then refuse 0x11 0x11
  else if 86400000000 < d then refuse 0x21 0x09
  else if d < 400 then refuse 0x30 0
  else if 64 ≤ s.pkt.sched.length then refuse 0x40 0x0A
  else none

/-- Step 12 for flag H (R152, R115). -/
def checkHead (i : OpInfo) (s : State) : Option Ans :=
  if i.h && !isHead s then refuse 0x11 0x21
  else if i.h && islandHead s then refuse 0x11 0x22
  else none

/-- What an opcode does: its checks of step 10 and, as `life`, of step 9; its action with step 12, which answers now or
later, what hand-over sends across the barrier for a scheduled one (R141), what a scheduled one
is refused for or changes when it is accepted, and what follows a success once it was passed on. -/
structure Op where
  code : Nat
  check : Request → State → Option Ans
  act : Request → State → State × Option Ans
  hand : Request → State → State := fun _ s => s
  accept : Request → State → Option Ans := fun _ _ => none
  life : Request → State → Option Ans := fun _ _ => none
  after : Request → State → State := fun _ s => s
  onAccept : Request → State → State := fun _ s => s

/-- Steps 7 to 11 of Table 05-3 with the parts of step 6 that need the opcode (R129, R149 to R153). -/
def vet (o : Op) (q : Request) (s : State) : Option Ans :=
  (if (!q.parts.isEmpty || q.pkt.more) && !(opInfo o.code).any (·.m) then refuse 0x22 0x12 else none) <|>
  match opInfo o.code with
  | none => refuse 0x20 0
  | some i =>
    checkMode i s <|> checkLife o.code s <|> o.life q s <|>
    (if q.pkt.bcast && !i.b then refuse 0x21 0x20 else none) <|>
    o.check q s <|> checkSched i q s

/-- Act on a request that passed steps 1 to 11: flag H, then the opcode (R152). -/
def perform (o : Op) (q : Request) (s : State) : State × Option Ans :=
  match (opInfo o.code).bind (fun i => checkHead i s) with
  | some a => (s, some a)
  | none => o.act q s

/-- The node accepted a request for processing (Table 05-7). -/
def countAccepted (via : Via) (s : State) : State :=
  let inc (c : PktCnt) : PktCnt := { c with acc := satInc c.acc }
  match via with
  | .chain _ | .headHost => { s with pkt := { s.pkt with chain := inc s.pkt.chain } }
  | .can .a _ => { s with pkt := { s.pkt with canA := inc s.pkt.canA } }
  | .can .b _ => { s with pkt := { s.pkt with canB := inc s.pkt.canB } }
  | .svc => { s with pkt := { s.pkt with svc := inc s.pkt.svc } }
  | .planner => s

/-- The head issues or forwards a packet into the chain; the first CLAY_RELEASE closes its step window
(R38). -/
def issue (q : Request) (s : State) : State := closeWindow q (sendPackets q s)

/-- The head forwards a request of another transport into the chain. -/
def forwardIn (q : Request) (s : State) : State := closeWindow q (forwardPackets q s)

/-! ## The chain arena (R450) -/

/-- Ticks that a request's frames take on the link: 25 ns to a code group, 13 beside each packet. -/
def linkTicks (q : Request) : Nat := ((partPackets q).map fun p => (p.payload.length + 33) * 20).sum

/-- The ticks booked in interval i: in all, and by classes 1, 2 and 3. -/
def linkUsed (i : Nat) (s : State) : List Nat := (findKey i s.pkt.linkUse).getD [0, 0, 0, 0]

/-- The share of class c in an interval of 800,000 ticks, from ARN_CHAIN. -/
def linkShare (c : Nat) (s : State) : Nat := field (reg s 0x0A0020) (8 * c - 1) (8 * c - 8) * 8000

/-- A request of class c fits interval i: within its share, or within the time the other shares leave (log
entry 34). -/
def linkFits (i c d : Nat) (s : State) : Bool :=
  let u := linkUsed i s
  let others := (([1, 2, 3].filter (· != c)).map fun k => linkShare k s - u.getD k 0).sum
  decide (u.getD 0 0 + d ≤ 800000) &&
  (decide (u.getD c 0 + d ≤ linkShare c s) || decide (u.getD 0 0 + d + others ≤ 800000))

/-- Book d ticks of class c in interval i; what is past is forgotten. -/
def bookLink (i c d : Nat) (s : State) : State :=
  let u := linkUsed i s
  let u := (u.zipIdx).map fun x => if x.2 = 0 || x.2 = c then x.1 + d else x.1
  let now' := s.clk.tb.toNat / 800000
  { s with pkt := { s.pkt with linkUse := putKey i u (s.pkt.linkUse.filter fun x => decide (now' ≤ x.1)) } }

/-- What the arena decides: the packet leaves in this interval, at a ticket frame, or not at all. -/
inductive Booking where
  | now | later (ticket : Frame48) | refused (a : Option Ans)

def chainArena (q : Request) (s : State) : Booking × State :=
  let c := q.pkt.cls.toNat
  let d := linkTicks q
  let cur := s.clk.tb.toNat / 800000
  if c = 0 then (.now, bookLink cur 0 d s)
  else match (List.range 1001).find? fun k => linkFits (cur + k) c d s with
    | none => (.refused (refuse 0x40 0x26), { s with pkt := { s.pkt with chainRefused := satInc s.pkt.chainRefused } })
    | some 0 => (.now, bookLink cur c d s)
    | some k =>
      let t : Frame48 := BitVec.ofNat 48 ((cur + k) * 1000)
      if q.pkt.sched && decide (frameDiff q.pkt.applyAt t < 2000) then (.refused (refuse 0x30 0), s)
      else
        let s := bookLink (cur + k) c d s
        (.later t, { s with pkt := { s.pkt with
          chainDeferred := satInc s.pkt.chainDeferred
          deferred := s.pkt.deferred ++ [{ q := q, ticket := t, why := .chain }] } })

/-- A request that leaves for the chain does so now, waits with a DEFERRED reply, or is refused (R127,
R450). -/
def throughArena (q : Request) (go : State → State) (s : State) : State :=
  match chainArena q s with
  | (.now, s) => go s
  | (.later t, s) => reply q { status := 0x02, data := be 6 t.toNat } s
  | (.refused a, s) => reply q (a.getD {}) s

/-- Keep a scheduled command for its APPLY_AT; less than 1,000 frames ahead it is handed over at once
(R140, R141). -/
def keepSched (o : Op) (q : Request) (s : State) : State :=
  let soon := decide (frameDiff q.pkt.applyAt (now s) < 1000)
  let l := s.pkt.sched ++ [{ q := q, handed := soon }]
  let s := { s with pkt := { s.pkt with
      sched := l, schedMost := if s.pkt.schedMost.toNat < l.length then BitVec.ofNat 7 l.length
        else s.pkt.schedMost } }
  if soon then o.hand q s else s

/-- What a request is answered at once: a scheduled one that is stored ACCEPTED (R140), any other what its action
answers, if not later. -/
def actNow (o : Op) (q : Request) (s : State) : State × Option Ans :=
  if q.pkt.sched then
    match o.accept q s with
    | some a => (s, some a)
    | none => (keepSched o q (o.onAccept q s), some { status := 0x01 })
  else perform o q s

/-- Step 12 and the action with its answer; a broadcast is passed on with the head's reply, whose CLAY_RELEASE
closes the step window (R38, R128, R155). -/
def actOn (o : Op) (q : Request) (s : State) : State :=
  let forwards := passesOn q s
  let (s, a) := actNow o q (owe q s)
  let s := match a with
    | some a => reply q a s
    | none => s
  let s := if forwards && !a.any (wrongPlanner q) then closeWindow q s else s
  if q.pkt.sched || a.any (fun a => a.status != 0) then s else o.after q s

/-- Steps 6 to 12 of Table 05-3 on a remembered request; a broadcast of the head goes through the chain
arena (R450). -/
def process (o : Op) (q : Request) (s : State) : State :=
  match vet o q s with
  | some a => reply q a s
  | none => if q.pkt.bcast && mayIssue s && !onChain q.via then throughArena q (actOn o q) s else actOn o q s

/-- A request from outside the chain that names another node, at a head. -/
def forOther (q : Request) (s : State) : Bool := isHead s && fromOutside q.via && !q.pkt.bcast && !forMe q s

/-- The source R17 accepts switch lines from and R161 releases. A member of a TC or BUILTIN chain takes a frame of
ORIG_HOP 0 as the head's own where its SRC is the head's address of the latest DONE, since nothing else in it tells
the head's frames from those of others (DESIGN CHOICE, log entry 50). -/
def plannerSource (q : Request) (s : State) : Bool :=
  if isHead s then (if planner s == 2 then q.via == .headHost else q.via == .planner)
  else match q.via with
    | .chain h => h == 0 && (planner s == 2 || q.pkt.src == s.chain.headAddr)
    | _ => false

/-- What the head refuses a packet for another node before it forwards it: the checks of R140, which find an undefined
opcode not schedulable, and a release or switch lines from a source that is not its planner's, which would reach the
member as the head's own (R17, R140, R155, R161; log entry 50). -/
def relayRefusal (q : Request) (s : State) : Option Ans :=
  (if q.pkt.sched then checkSched ((opInfo q.pkt.opcode.toNat).getD {}) q s else none) <|>
  (if (q.pkt.opcode == 0x03 || q.pkt.opcode == 0x30) && !plannerSource q s then refuse 0x11 0x25 else none)

/-- The head relays it after its checks, through the arena; the mailbox gets no reply of the head's own (R105, R132,
R140, R348). -/
def relay (q : Request) (s : State) : State :=
  let s := countAccepted q.via s
  match relayRefusal q s with
  | some a =>
    reply q a (if q.pkt.opcode == 0x30 && a.detail == 0x25 then
      { s with pkt := { s.pkt with plannerRefused := satInc s.pkt.plannerRefused } } else s)
  | none =>
    let s := if mayIssue s then throughArena q (forwardIn q) s else s
    if q.via = .svc then mailNoReply s else s

/-- Steps 2 to 5 of Table 05-3: the packet goes on to `next` only if they pass. -/
def takeIn (q : Request) (next : State → State) (s : State) : State :=
  match checkFormat q with
  | some a => reply q a s
  | none =>
    if otherChain q s then (if q.via = .svc then mailNoReply s else s)
    else if notHead q s then reply q { status := 0x11, detail := 0x04 } s
    else if forOther q s then relay q s
    else match s.pkt.dups.find? (isDup q) with
      | some d =>
        if d.finished then
          (if d.replies.isEmpty && q.via = .svc then mailNoReply s else d.replies.foldl (fun s p => routeReply q.via p s) s)
        else (replyPackets q { status := 0x40, detail := 0x06 } s).foldl
          (fun s p => routeReply q.via p s) s
      | none => next (countAccepted q.via (remember q s))

/-- H-core serves a request for an opcode: the order of Table 05-3. A core that does not run serves
nothing (R373, R399). -/
def serve (o : Op) (q : Request) (s : State) : State :=
  let q := { q with pkt := { q.pkt with opcode := BitVec.ofNat 8 o.code } }
  if hcoreRuns s then takeIn q (process o q) s else s

end Sys2Proof.Machine
end

