-- ==== Sys2Proof/Machine/Flags.lean ====
section
/-! DEFINITION. The flag computations: output commands and driver states (R216, R485), and every
read-only register word of the node, computed from the state. -/

namespace Sys2Proof.Machine

/-! ## Output commands and drivers (08, 17) -/

/-- The output command of a channel: override, else gate with generator, less hold chopping
(R165, R205, R212). -/
def command (s : State) (n : Fin 32) : Bool :=
  let m := leader s n
  let c := s.out.ch[m]
  match c.ovr with
  | .on => true
  | .off => false
  | .none => c.gate && (ochMode s m.val = 0 || c.genOut) && !c.holdOff

/-- A driver's place in its pair. -/
def inverted (s : State) (n : Fin 32) : Bool := bit (ochPair s (n.val / 2)) (1 + n.val % 2)

/-- The command at driver n after SWAP and INVERT (R216). -/
def driverCmd (s : State) (n : Fin 32) : Bool := command s (sourceOf s n) != inverted s n

/-- A protection holds driver n off (R218 to R223, R242). -/
def held (s : State) (n : Fin 32) : Bool :=
  let c := s.out.ch[leader s n]
  let d := s.out.ch[n]
  c.tripped || c.latched || c.shortHeld || c.hot || fanHeld s n || fanHeld s (leader s n) ||
  d.latched || d.shortHeld || d.hot

/-- Gate drive reaches driver n: Clay, protections, the budget, the disconnect and the one-shot act
last (R205, R229, R445, R446, R80). -/
def driverOn (s : State) (n : Fin 32) : Bool :=
  driverCmd s n && !s.modes.clay && !held s n && (s.out.ch[leader s n].grant == .granted) &&
  !s.out.discOpen && !s.out.softStart && domOn s 15 && !s.barr.oneShot

/-- The command of a channel, gate and override alone, the first half's for a paralleled pair (R202, R446). -/
def gateCmd (s : State) (n : Fin 32) : Bool :=
  let c := s.out.ch[leader s n]
  match c.ovr with | .on => true | .off => false | .none => c.gate

/-- OCH_STAT.STATE, the first that applies (R485); the last follows gate and override, not the phase within a
period (log entry 36). A half of a paralleled pair shows its own observation and the pair's latch and trip
(R202). -/
def ochState (s : State) (n : Fin 32) : Nat :=
  let c := s.out.ch[n]
  let m := s.out.ch[leader s n]
  if c.obsOn then 1
  else if c.obsOff then 0
  else if c.latched || m.latched then 2
  else if fanHeld s n || fanHeld s (leader s n) then 4
  else if m.tripped then 3
  else b2n (gateCmd s n)

def grantCode (g : Grant) : Nat := match g with | .granted => 0 | .staggered => 1 | .refused => 2

def lampCode (l : Lamp) : Nat :=
  match l with | .ok => 0 | .opened => 1 | .unverified => 2 | .shortToSupply => 3

/-- OCH_STAT; the second half of a paralleled pair follows the first's gate, override and grant (R202). -/
def ochStat (s : State) (n : Fin 32) : Word :=
  let c := s.out.ch[n]
  let m := s.out.ch[leader s n]
  pack [(ochState s n, 0), (grantCode m.grant, 3), (b2n m.gate, 5), (b2n (m.ovr != .none), 6),
    (b2n m.peakMiss, 7), (c.trips.toNat, 8), (lampCode c.lamp, 16), (b2n c.diagMode, 18)]

def ochCur (s : State) (n : Fin 32) : Word :=
  pack [(s.out.ch[n].sample.toNat, 0), (s.out.ch[n].lastPeak.toNat, 16)]

def ochTrips (s : State) (n : Fin 32) : Word :=
  pack [(s.out.ch[n].tripPeriods.toNat, 0), (s.out.ch[n].shorts.toNat, 24)]

def ochEdgeq (s : State) (n : Fin 32) : Word :=
  pack [(s.out.ch[n].queue.length, 0), (s.out.ch[n].held.toNat, 8)]

/-- A driver's claim: FB_CLAIM of OCHn, that of OCH(2k) for a paralleled pair, whose other half has
none (R446). -/
def claimOf (s : State) (n : Fin 32) : Nat :=
  if bit (ochPair s (n.val / 2)) 3 && n.val % 2 = 1 then 0
  else field (reg s (0x140100 + 4 * n.val)) 7 0

/-- A driver that may be energised: its command on, or inverted outside Clay (R446). -/
def mayEnergise (s : State) (n : Fin 32) : Bool :=
  if inverted s n then !s.modes.clay
  else
    let c := s.out.ch[leader s (sourceOf s n)]
    match c.ovr with | .on => true | .off => false | .none => c.gate

/-- The granted sum of R446, 50 mA units. -/
def grantedSum (s : State) : Nat :=
  (List.finRange 32).foldl (fun a n =>
    if mayEnergise s n && s.out.ch[n].grant == .granted && s.out.ch[n].placed
    then a + claimOf s n else a) 0

def budget (s : State) : Nat := field (reg s 0x140010) 10 0

/-! ## Read-only words: identity and packets (01, 05) -/

def pktWord (c : PktCnt) : Word := pack [(c.acc.toNat, 0), (c.crc.toNat, 16), (c.drop.toNat, 24)]

def pktSched (s : State) : Word :=
  pack [(s.pkt.sched.length, 0), (s.pkt.schedMost.toNat, 8), (s.pkt.lateReplies.toNat, 16)]

/-! ## Timebase (Table 02-7) -/

def refCode (r : TbRef) : Nat := match r with | .tcxo => 0 | .chainUp => 1 | .gnss => 2 | .none => 3

def qualCode (q : Qual) : Nat := match q with | .locked => 0 | .holdover => 1 | .degraded => 2

/-- A member reports the worse of its own quality and its upstream's (R58). -/
def qualOf (s : State) : Nat :=
  if isHead s then qualCode s.clk.qual else max (qualCode s.clk.qual) (qualCode s.clk.upQual)

def tbStat (s : State) : Word :=
  pack [(refCode s.clk.ref, 0), (b2n s.clk.lock, 2), (b2n s.clk.valid, 3), (b2n s.clk.originGps, 4),
    (qualOf s, 5), (b2n s.clk.slewing, 7), (b2n s.clk.holdShort, 8), (s.clk.relocks.toNat, 16)]

def tbAge (s : State) : Word := pack [(s.clk.holdSecs.toNat, 0), (s.clk.lockMins.toNat, 16)]

/-! ## Barrier (Table 03-8) -/

def linkCode (l : Link) : Nat := match l with | .down => 0 | .training => 1 | .up => 2

/-- FCORE_STALL is open (BARR_STAT.FSTALL). -/
def fstall (s : State) : Bool := s.ev.host.any (fun r => r.opened && r.code == 0x0205)

def barrStat (s : State) : Word :=
  pack [(linkCode s.barr.link, 0), (b2n s.barr.fhalt, 2), (b2n (fstall s), 3), (s.barr.failed.toNat, 8)]

def barrHerr (s : State) : Word :=
  pack [(s.barr.hCrc.toNat, 0), (s.barr.hSeq.toNat, 8), (s.barr.hTyp.toNat, 16), (s.barr.hMsg.toNat, 24)]

def barrFerr (s : State) : Word :=
  pack [(s.barr.mCrc.toNat, 0), (s.barr.mSeq.toNat, 8), (s.barr.mTyp.toNat, 16)]

def barrLoss (s : State) : Word := pack [(s.barr.lossCnt.toNat, 0), (s.barr.declarer.toNat, 16)]

/-! ## Chain (Table 04-8) -/

def partnerCode (p : Partner) : Nat :=
  match p with | .none => 0 | .node => 1 | .host => 2 | .hostClk => 3

def chAddr (s : State) : Word :=
  pack [(s.chain.addr.toNat, 0), (b2n s.chain.addrValid, 16), (s.chain.chainId.toNat, 17)]

def chHop (s : State) : Word := pack [(s.chain.hop.toNat, 0), (s.chain.gen.toNat, 16)]

def chStat (s : State) : Word :=
  pack [(b2n s.chain.upLock, 0), (b2n s.chain.dnLock, 1), (partnerCode s.chain.upPartner, 2),
    (b2n s.chain.dnPartner, 4), (b2n s.chain.island, 5), (b2n s.chain.enumBusy, 6),
    (b2n s.chain.policyExpired, 7)]

def chBreak (s : State) : Word := pack [(s.chain.upBreaks.toNat, 0), (s.chain.dnBreaks.toNat, 16)]

def portErrWord (e : PortErr) : Word :=
  pack [(e.crc.toNat, 0), (e.stomp.toNat, 8), (e.code.toNat, 16), (e.drop.toNat, 24)]

def chDup (s : State) : Word := pack [(s.chain.dupCount.toNat, 0), (s.chain.dupHop.toNat, 16)]

/-! ## CAN (Tables 12-5 and 12-6) -/

def canModeCode (m : CanMode) : Nat :=
  match m with | .normal => 0 | .listen => 1 | .restricted => 2 | .sleep => 3

/-- A CAN port by name. -/
def can (p : CanPort) (s : State) : Can := match p with | .a => s.canA | .b => s.canB

def setCan (p : CanPort) (c : Can) (s : State) : State :=
  match p with | .a => { s with canA := c } | .b => { s with canB := c }

def canBase (p : CanPort) : Nat := match p with | .a => 0x040000 | .b => 0x050000

def canReg (p : CanPort) (s : State) (off : Nat) : Word := reg s (canBase p + off)

/-- CANx_STAT.ESTATE (R334). -/
def canEstate (p : CanPort) (s : State) : Nat :=
  let c := can p s
  if c.busOff then 3
  else if 128 ≤ c.tecCnt || 128 ≤ c.recCnt then 2
  else
    let ewl := field (canReg p s 0) 23 16
    if ewl ≤ c.tecCnt || ewl ≤ c.recCnt then 1 else 0

def canStat (p : CanPort) (s : State) : Word :=
  let c := can p s
  pack [(canModeCode c.mode, 0), (canEstate p s, 2), (b2n c.abrDone, 4), (c.abrRate.toNat, 5),
    (b2n c.recovering, 8), (b2n c.wakeOpt, 9)]

def canTec (c : Can) : Nat := if c.busOff then 255 else min c.tecCnt 255

def canErrcnt (p : CanPort) (s : State) : Word :=
  let c := can p s
  pack [(canTec c, 0), (min c.recCnt 255, 8), (c.busoffs.toNat, 16)]

def canRingstat (p : CanPort) (s : State) : Word :=
  pack [((can p s).ring.length, 0), ((can p s).ovf.toNat, 16)]

def canCnt (p : CanPort) (s : State) : Word :=
  pack [((can p s).rxCnt.toNat, 0), ((can p s).txCnt.toNat, 16)]

def canErrs (p : CanPort) (s : State) : Word :=
  let c := can p s
  pack [(c.eBit.toNat, 0), (c.eStuff.toNat, 8), (c.eCrc.toNat, 16), (c.eForm.toNat, 24)]

def claimCode (c : ClaimState) : Nat :=
  match c with | .none => 0 | .claiming => 1 | .claimed => 2 | .cannotClaim => 3

/-- The node claims an address on CAN-A: an ISO11783 port in NORMAL, at a head that is no island, or with
CLAIM_MEMBER = 1 (R337). -/
def qualifies (s : State) : Bool :=
  domOn s 8 && s.canA.mode = .normal && field (canReg .a s 0) 1 0 = 0 && s.modes.booted &&
  ((isHead s && !s.chain.island) || bit (reg s 0x040040) 8)

/-- A node that stops qualifying says so, aborts its transport sessions and is silent (R339). -/
def dropClaim (s : State) : State :=
  if s.canA.claim = .none || qualifies s then s
  else
    let c := s.canA
    let gone : IsoMsg := .cannotClaim s.id.isoName
    let busy := c.peer.isSome || s.pkt.canReplies.any (fun r => r.1 = .a)
    { s with
      canA := { c with
        claim := .none, addr := 254, silent := true, segs := [], peer := none
        own := if busy then [gone, .connectionAbort] else [gone] }
      pkt := { s.pkt with canReplies := s.pkt.canReplies.filter fun r => r.1 != .a } }

def canaAddr (s : State) : Word := pack [(s.canA.addr.toNat, 0), (claimCode s.canA.claim, 8)]

def moKindCode (k : MoKind) : Nat := match k with | .off => 0 | .rx => 1 | .tx => 2

/-- A word of a message object (Table 12-5). -/
def moWord (o : MsgObj) (off : Nat) : Word :=
  match off with
  | 0x00 => pack [(moKindCode o.kind, 0), (b2n o.ide, 2), (b2n o.fdf, 3), (b2n o.brs, 4)]
  | 0x04 => o.id.setWidth 32
  | 0x08 => o.mask.setWidth 32
  | 0x0C => pack [(o.len.toNat, 0), (b2n o.isNew, 8), (b2n o.lost, 9), (b2n o.pend, 10), (b2n o.sent, 11)]
  | 0x10 => o.tb.setWidth 32
  | 0x14 => (o.tb >>> 32).setWidth 32
  | _ => if 0x20 ≤ off then BitVec.ofNat 32 (beAt (o.data ++ be 64 0) (off - 0x20) 4) else 0

/-! ## Service port, GNSS, power, security (13, 11, 14, 15) -/

def svcStat (s : State) : Word :=
  pack [(s.svc.addr.toNat, 0), (b2n s.svc.stuck, 3), (b2n s.svc.attnPend, 4), (b2n s.svc.active, 5),
    (s.svc.page.toNat, 8), (s.svc.pointer.toNat, 16)]

def svcCnt (s : State) : Word :=
  pack [(s.svc.cntStuck.toNat, 0), (s.svc.cntAttn.toNat, 8), (s.svc.cntWithdrawn.toNat, 16),
    (s.svc.cntErr.toNat, 24)]

def trackedSignals (s : State) : Nat := (s.gnss.trk.toList.filter (·.lock)).length

/-- GNSS_CTRL.MODE: 0 OFF, 1 CONTINUOUS, 2 BURST (R280). -/
def gnssMode (s : State) : Nat := field (reg s 0x070000) 1 0

def gnssStat (s : State) : Word :=
  match s.gnss.sol with
  | some v => pack [(v.fix.toNat, 0), (b2n s.gnss.timeValid, 3), (b2n s.gnss.rtcmStale, 4),
      (b2n (gnssMode s = 2), 5), (v.sats.toNat, 8), (min (trackedSignals s) 255, 16)]
  | none => pack [(b2n s.gnss.timeValid, 3), (b2n s.gnss.rtcmStale, 4), (b2n (gnssMode s = 2), 5),
      (min (trackedSignals s) 255, 16)]

def gnssAnt (s : State) : Word :=
  pack [(s.gnss.antMa.toNat, 0), (b2n s.gnss.antOpen, 8), (b2n s.gnss.antShort, 9)]

/-- The state a domain shows: a field domain is UNKNOWN while the link is not up (R361). -/
def domCode (s : State) (d : Fin 18) : Nat :=
  if 12 ≤ d.val && !linkUp s then 3
  else match s.pwr.dom[d] with | .off => 0 | .ret => 1 | .on => 2

def pwrState0 (s : State) : Word :=
  pack ((List.finRange 16).map fun d => (domCode s (Fin.ofNat 18 d.val), 2 * d.val))

def pwrState1 (s : State) : Word := pack [(domCode s 16, 0), (domCode s 17, 2)]

def pwrWhy (s : State) : Word :=
  pack [(s.pwr.why.toNat, 0), (b2n s.pwr.whyCold, 4), (s.pwr.marlReason.toNat, 8)]

def pwrTxn (s : State) : Word := pack [(s.pwr.txnDom.toNat, 0), (s.pwr.txnReason.toNat, 8)]

def pwrCnt (s : State) : Word := pack [(s.pwr.wakes.toNat, 0), (s.pwr.refused.toNat, 16)]

def chgCode (c : Chg) : Nat :=
  match c with
  | .off => 0 | .precharge => 1 | .cc => 2 | .cv => 3 | .done => 4 | .tempHold => 5 | .absent => 6

/-- PWR_BAT (Table 18-12). -/
def pwrBat (s : State) : Word :=
  pack [(s.pwr.vcell.toNat, 0), (chgCode s.pwr.chg, 12), (b2n s.pwr.batAbsent, 15), (s.pwr.tcell.toNat, 16),
    (b2n (s.pwr.vcell.toNat < 2900), 24)]

def lifeCode (l : Lifecycle) : Nat :=
  match l with | .opened => 0 | .provisioned => 1 | .sealed' => 2 | .retired => 3

def secStat (s : State) : Word :=
  pack [(lifeCode s.sec.life, 0), (s.sec.level.val, 2), (b2n s.sec.session.isSome, 8),
    (b2n s.sec.zeroised, 9), (b2n s.sec.fHalt, 10), (b2n s.sec.hHalt, 11), (s.sec.epoch.toNat, 16),
    (s.sec.rollback, 24)]

def dbgSess (s : State) : Word :=
  match s.sec.session with
  | some (m, slot) => pack [(min m.toNat ((s.sec.sessEnd - s.clk.tb.toNat + 47999999999) / 48000000000), 0), (b2n slot, 11)]
  | none => 0

def secCnt (s : State) : Word :=
  pack [(s.sec.cntSig.toNat, 0), (s.sec.cntToken.toNat, 8), (s.sec.cntRollback.toNat, 16),
    (s.sec.cntIgnored.toNat, 24)]

def secKeys (s : State) : Word :=
  pack [(b2n s.sec.keyImage, 0), (b2n s.sec.keyVendor, 1), (b2n s.sec.keyIntegrator.isSome, 2),
    (b2n s.sec.secretIntact, 3)]

/-! ## Events and arenas (Table 17-6) -/

def evtHstat (s : State) : Word := pack [(s.ev.host.length, 0), (s.ev.hostOvf.toNat, 16)]
def evtFstat (s : State) : Word := pack [(s.ev.mirror.length, 0), (s.ev.mirrorOvf.toNat, 16)]
def fevStat (s : State) : Word := pack [(s.ev.field.length, 0), (s.ev.fieldOvf.toNat, 16)]

def arnCstat (s : State) : Word := pack [(s.pkt.chainDeferred.toNat, 0), (s.pkt.chainRefused.toNat, 16)]

def arnBstat (s : State) : Word :=
  pack [(min s.barr.rg6Held.length 8191, 0), (s.pkt.barrDeferred.toNat, 16), (s.pkt.barrRefused.toNat, 24)]

def fbStat (s : State) : Word := pack [(grantedSum s, 0), (s.out.refusals.toNat, 16)]

def disMask (s : State) : Word := maskOf (fun n => s.out.ch[Fin.ofNat 32 n].obsOn) 32
def disMaskoff (s : State) : Word := maskOf (fun n => s.out.ch[Fin.ofNat 32 n].obsOff) 32

/-- FDISC_STAT.OPEN stays 1 until the soft start of a reclosure ends (R445); the soft start of field
power-on finds the switch closed. -/
def fdiscStat (s : State) : Word :=
  pack [(b2n s.out.discOpen, 0), (s.out.discReason.toNat, 1), (s.out.discCount.toNat, 16)]

def sweepCode (t : SweepState) : Nat :=
  match t with | .pending => 0 | .running => 1 | .ended => 2 | .aborted => 3

/-- WHOLE (R453). -/
def sweepWhole (w : Sweep) : Bool := w.state = .ended && w.results.all (fun r => r.state == 1)

def swpStat (s : State) : Word :=
  match s.out.sweep with
  | some w => pack [(w.sweepId.toNat, 0), (sweepCode w.state, 16), (b2n (sweepWhole w), 18), (w.cur % 32, 19)]
  | none => 0

/-! ## Sense, calibration and loops (Tables 08-10, 09-4, 09-5, 10-8) -/

def tripCntWord (s : State) : Word :=
  pack ((List.finRange 4).map fun i => (s.out.tripCnt[i].toNat, 8 * i.val))

def calStat (s : State) : Word :=
  pack [(s.out.calCount.toNat, 0), (s.out.calTap.toNat, 16), (b2n s.out.calFail, 24)]

/-- SIN_CFG.TYPE (Table 09-1). -/
def sinType (s : State) (n : Fin 16) : Nat := field (reg s (0x120000 + 0x10 * n.val)) 2 0

/-- The other input of a quadrature pair. -/
def pairMate (n : Fin 16) : Fin 16 := Fin.ofNat 16 (if n.val % 2 = 0 then n.val + 1 else n.val - 1)

/-- A QUAD input waits until both of its pair are QUAD (R234). -/
def pairWait (s : State) (n : Fin 16) : Bool := sinType s n = 2 && sinType s (pairMate n) != 2

/-- SIN_STAT[7:0], the status byte of SIN_READ (R249). -/
def sinStatus (s : State) (n : Fin 16) : Nat :=
  let i := s.sense.inp[n]
  b2n i.valid + 2 * b2n i.wireOpen + 4 * b2n i.underF + 8 * b2n i.overF + 16 * b2n i.shortF +
  32 * b2n (pairWait s n) + 64 * b2n i.suspect

def sinStat (s : State) (n : Fin 16) : Word :=
  pack [(sinStatus s n, 0), (s.sense.inp[n].qerr.toNat, 8)]

def fanCode (f : FanState) : Nat :=
  match f with | .idle => 0 | .starting => 1 | .running => 2 | .stalled => 3 | .tachOpen => 4

def fanStat (f : Fan) : Word :=
  pack [(fanCode f.state, 0), (b2n f.suspect, 3), (f.stalls.toNat, 8), (f.opens.toNat, 16)]

def slotCode (l : SlotState) : Nat := match l with | .stopped => 0 | .running => 1 | .frozen => 2

def loopStat (l : Slot) : Word :=
  pack [(slotCode l.state, 0), (b2n l.fzClay, 2), (b2n l.fzStall, 3), (b2n l.fzTach, 4),
    (b2n l.swapAt.isSome, 5), (b2n l.phaseLost, 6), (b2n l.fberr, 7), (l.sat.toNat, 8), (l.dly.toNat, 16)]

def loopDly (l : Slot) : Word := pack [(l.maxDly.toNat, 0), (l.satCnt.toNat, 16)]

def loopCfg (s : State) (i : Fin 16) : Word := reg s (0x130000 + 0x40 * i.val)

/-- The slot's sample number at a frame (R250). -/
def sampleAt (cfg : Word) (f : Frame48) : Word :=
  let div := max (field cfg 9 0) 1
  let phase := field cfg 19 10
  BitVec.ofInt 32 (((f.toNat : Int) - phase) / div)

def loopSamp (s : State) (i : Fin 16) : Word := sampleAt (loopCfg s i) (now s)

/-- A 6-bit signed exponent of EXPS (Table 10-3), stage 0 IN, 1 PID, 2 FF, 3 RC, 4 OUT. -/
def expOf (exps : Word) (stage : Nat) : Int :=
  (BitVec.ofNat 6 (field exps (6 * stage + 5) (6 * stage))).toInt

/-- A coefficient word of a mantissa and an exponent (Table 10-2). -/
def coefWord (m : Int) (e : Int) : Word :=
  pack [((BitVec.ofInt 20 m).toNat, 0), ((BitVec.ofInt 6 e).toNat, 20)]

def tableWord (l : Slot) (k : Nat) : Word :=
  coefWord (look (fun _ => 0) l.table k) (expOf l.active[(0 : Fin 17)] 3)

end Sys2Proof.Machine
end

