-- ==== Sys2Proof/Machine/Outputs.lean ====
section
/-! DEFINITION. Output channels and pulse generation (08) and the field-current arena (17, R446 to
R449): edges, generators, trips, lamp diagnostics, calibration, disagreement and the disconnect. -/

namespace Sys2Proof.Machine

/-- Change channel n. -/
def setCh (n : Fin 32) (f : Chan → Chan) (s : State) : State :=
  { s with out := { s.out with ch := upd s.out.ch n f } }

/-- A channel number as CHAN of an event. -/
def chanByte (n : Fin 32) : Byte := BitVec.ofNat 8 n.val

/-- TB of a tick of a frame, as the frame nearest the current one with that number (R9). -/
def tickAt (f : Frame48) (tick : Nat) (s : State) : Nat :=
  (((s.clk.tb.toNat / ticksPerFrame : Nat) : Int) + frameDiff f (now s)).toNat * ticksPerFrame + tick

/-! ## The budget (R446, R447) -/

/-- The drivers that channel c's command reaches, less the second half of a paralleled pair. -/
def driversOf (s : State) (c : Fin 32) : List (Fin 32) :=
  (List.finRange 32).filter fun d => leader s (sourceOf s d) == c && leader s d == d

/-- The claims that hold a place in the budget: granted and staggered drivers (R446, R447). -/
def placedSum (s : State) : Nat :=
  (List.finRange 32).foldl (fun a d =>
    if s.out.ch[d].placed && s.out.ch[d].grant != .refused then a + claimOf s d else a) 0

/-- Energisations within the last STAGW frames (R446). -/
def recentIn (s : State) (f : Frame48) : List Frame48 :=
  s.out.recent.filter fun r => frameDiff f r < field (reg s 0x140014) 13 0

def stagN (s : State) : Nat := field (reg s 0x140014) 21 16

/-- The drivers whose command turns on within the current frame and is not judged yet (R446). -/
def dueInFrame (s : State) : List (Fin 32) :=
  (List.finRange 32).filter fun x =>
    let c := s.out.ch[feeder s x]
    leader s x == x && !inverted s x && !s.out.ch[x].placed && !c.gate && c.ovr == .none &&
      match c.queue with | e :: _ => e.on && e.frame == now s | [] => false

/-- The claims in the budget and the energisations in the window once the drivers `ahead` are judged too, which
come earlier in the frame's order (R446, R447). -/
def standing (ahead : List (Fin 32)) (s : State) : Nat × Nat :=
  ahead.foldl (fun p x =>
    if budget s < p.1 + claimOf s x then p
    else (p.1 + claimOf s x, if stagN s ≤ p.2 then p.2 else p.2 + 1)) (placedSum s, (recentIn s (now s)).length)

/-- The judgment of a driver after those `ahead` of it (R446). -/
def judgment (s : State) (ahead : List (Fin 32)) (d : Fin 32) : Grant :=
  let p := standing ahead s
  if budget s < p.1 + claimOf s d then .refused
  else if stagN s ≤ p.2 then .staggered else .granted

/-- The drivers judged before driver d among those judged for the first time in the frame (R446). -/
def before (s : State) (d : Fin 32) : List (Fin 32) := (dueInFrame s).filter fun x => x < d

/-- Judge driver d, whose own place is given up first; a refusal counts, and the first of a gate-on
interval raises BUDGET_REFUSED (R446, R447). -/
def judge (d : Fin 32) (s : State) : State :=
  let s := setCh d (fun c => { c with placed := false }) s
  let g := judgment s (before s d) d
  let s := match g with
    | .granted => { s with out := { s.out with recent := recentIn s (now s) ++ [now s] } }
    | _ => s
  let s := if g = .refused then
    { s with out := { s.out with refusals := satInc s.out.refusals } } else s
  let s := if g = .refused && !s.out.ch[d].warned then note .field 0x1007 1 (chanByte d) [] s else s
  setCh d (fun c => { c with grant := g, placed := true, warned := c.warned || g == .refused }) s

/-- A driver whose command went off leaves the budget at once (R447). -/
def leaveBudget (d : Fin 32) (s : State) : State :=
  setCh d (fun c => { c with grant := .granted, placed := false, warned := false }) s

/-- The command that reaches driver d, gate and override alone (R446). -/
def wants (s : State) (c : Fin 32) : Bool :=
  match s.out.ch[c].ovr with | .on => true | .off => false | .none => s.out.ch[c].gate

/-- The budget follows a change of channel c's command from `was` (R446, R447). An inverted driver is
judged at a release and keeps its place. -/
def rebudget (c : Fin 32) (was : Bool) (s : State) : State :=
  let is := wants s c
  (driversOf s c).foldl (fun s d =>
    if inverted s d then s
    else if is && !was then judge d s
    else if was && !is then leaveBudget d s else s) s

/-! ## Gates, generators and fans (R205, R206, R222, Table 09-3) -/

/-- The generator output at tick t of a period (R206). -/
def genAt (period onAt offAt : Word) (t : Nat) : Bool :=
  if period.toNat ≤ offAt.toNat then true
  else if onAt = offAt then false
  else if onAt.toNat < offAt.toNat then decide (onAt.toNat ≤ t) && decide (t < offAt.toNat)
  else decide (onAt.toNat ≤ t) || decide (t < offAt.toNat)

/-- A driver with, in a paralleled pair, the half that follows it (R202). -/
def halves (s : State) (d : Fin 32) : List (Fin 32) := (List.finRange 32).filter fun n => leader s n == d

/-- A TRIP input that is active, enabled and masks driver n or a half that follows it (R202, R218). -/
def tripInputOn (s : State) (n : Fin 32) : Option (Fin 4) :=
  (List.finRange 4).find? fun i =>
    s.out.tripActive.getLsbD i.val && bit (reg s (0x100B00 + 8 * i.val)) 0 &&
    (halves s n).any fun d => bit (reg s (0x100B04 + 8 * i.val)) d.val

/-- The change of driver d's output since `old` joins its turns, and is an actuation where latency is learned
(R188). -/
def noteTurn (old : State) (d : Fin 32) (s : State) : State :=
  let on := driverOn s d
  if driverOn old d == on then s
  else
    let learns := s.sect.ch[d].geom.any (·.learn) && !s.modes.clay
    setCh d (fun c => { turned s.clk.tb on c with acts := if learns then c.acts ++ [(s.clk.tb, on)] else c.acts }) s

/-- A trip of driver d: gate drive goes for the rest of the on-phase, the period counts, and a driver
in SWITCH waits for its retry boundary (R218, R219, R222, R223). -/
def trip (d : Fin 32) (src : TripSrc) (s : State) : State :=
  let m := leader s d
  let was := s.out.ch[m].latched
  let at' : Frame48 := BitVec.ofNat 48
    (((s.clk.tb.toNat + 799) / ticksPerFrame + 1000 * field (och s m.val 0x14) 31 24 + 999) / 1000 * 1000)
  let retry := if ochMode s (feeder s m).val = 0 then some at' else none
  let s' := setCh m (fun c =>
    { countTrip (latchN s m.val) src c with tripped := true, retryFrom := retry }) s
  if s'.out.ch[m].latched && !was then noteLatch m s' else s'

/-- A trip of a driver that is on: its output turns off. -/
def tripOff (d : Fin 32) (src : TripSrc) (s : State) : State :=
  (halves s (leader s d)).foldl (fun t d => noteTurn s d t) (trip d src s)

/-- The blanking window of driver d opens (R220). -/
def openBlank (d : Fin 32) (s : State) : State :=
  setCh d (fun c => { c with blanking := field (och s d.val 0x14) 15 8 != 0 }) s

/-- A trip of driver d is still in force: to its retry boundary in SWITCH, to the end of its period with a
generator (R219). -/
def tripHolds (s : State) (d : Fin 32) : Bool :=
  let c := s.out.ch[d]
  c.tripped && (match c.retryFrom with
    | some f => decide (0 < frameDiff f (now s))
    | none => s.out.ch[feeder s d].gen && c.tripInPeriod)

/-- An on-phase of driver d is due. A trip still in force keeps the driver off (R219). Else the trip of the last
one ends, blanking and the inrush window open (R220, R221), and an active TRIP input that is not blanked
prevents the on-phase, if nothing else does. -/
def driverStart (d : Fin 32) (s : State) : State :=
  if tripHolds s d then openBlank d s
  else
    let blanked := s.out.ch[d].blanking
    let s := setCh d (fun c => { c with tripped := false, retryFrom := none }) s
    match if blanked || !driverOn s d then none else tripInputOn s d with
    | some i => trip d (.input i) s
    | none => openBlank d (setCh d (fun c => { c with inrush := bit (och s d.val 0) 5 }) s)

/-- The edges of the drivers' commands since `old`: each opens the blanking window, and an on-edge
starts an on-phase (R220). -/
def edges (old s : State) : State :=
  let s := (List.finRange 32).foldl (fun s d =>
    if leader s d != d then s
    else if driverCmd s d && !driverCmd old d then driverStart d s
    else if !driverCmd s d && driverCmd old d then
      openBlank d (setCh d (fun c => { c with inrush := false }) s)
    else s) s
  (List.finRange 32).foldl (fun s d => noteTurn old d s) s

/-- The drivers whose gate drive comes back without an edge of their command start an on-phase (R219, R445,
R447). -/
def resumed (old s : State) : State :=
  let s := (List.finRange 32).foldl (fun s d =>
    if leader s d == d && driverOn s d && !driverOn old d then driverStart d s else s) s
  (List.finRange 32).foldl (fun s d => noteTurn old d s) s

/-- The hold-chop edges of the drivers since `old` open the blanking window, and are no on-phase (R220). -/
def chopEdges (old s : State) : State :=
  let s := (List.finRange 32).foldl (fun s d =>
    if leader s d == d && driverCmd s d != driverCmd old d then openBlank d s else s) s
  (List.finRange 32).foldl (fun s d => noteTurn old d s) s

/-- The peak phase of a PEAKHOLD channel starts with its on-phase (R212). -/
def startPeak (n : Fin 32) (s : State) : State :=
  setCh n (fun c => { c with peakPhase := ochMode s n.val = 3 && c.genOut, holdOff := false }) s

/-- The counting periods of the drivers that channel n feeds end (R222); a held driver counts in
1,000-frame periods (R242). -/
def closePeriods (n : Fin 32) (s : State) : State :=
  (driversOf s n).foldl (fun s d =>
    if fanHeld s d then s else setCh d (closePeriod (leakK s d.val)) s) s

/-- The instant of an edge of channel n's output, f fine steps past tick t: they carry into the next tick
(R207; log entry 52). -/
def edgeMoment (t : BitVec 64) (f : Nat) (c : Chan) : Chan :=
  { c with edgeAt := t + BitVec.ofNat 64 (f / 32), edgeFine := BitVec.ofNat 5 f }

/-- OCH_DIAG asks for a stretched on-phase at a driver of lamp channel n (R216, R228). -/
def stretches (s : State) (n : Fin 32) : Bool :=
  ochMode s n.val = 4 &&
    (driversOf s n).any fun d => bit (och s d.val 0x1C) 2 && !bit (och s d.val 0x1C) 1

/-- An on-phase starts at count t0. The first of an epoch is stretched to 9,600 ticks, or to the period's end,
where it is shorter (R228). -/
def startPhase (n : Fin 32) (t0 : Nat) (s : State) : State :=
  let c := s.out.ch[n]
  if !c.genOut || c.stretched || !stretches s n then s
  else
    let short := t0 < c.offAt.toNat && c.offAt.toNat < min c.period.toNat (t0 + 9600)
    let stop := t0 + 9600
    let off := if c.period.toNat ≤ stop || (c.offAt.toNat < c.onAt.toNat && c.onAt.toNat ≤ stop) then c.period
      else BitVec.ofNat 32 stop
    setCh n (fun c => { c with stretched := true, stretch := short, offAt := if short then off else c.offAt }) s

/-- The generator loads its timing set and the newest calibration table at a period start (R211, R214), at tick
t and a fine step (R205). Turn compensation gives OFF_AT in PULSE alone (R187). -/
def loadPeriod (t : BitVec 64) (fine : BitVec 5) (n : Fin 32) (s : State) : State :=
  let offAt := if ochMode s n.val = 1 then s.out.ch[n].turnOff.getD (och s n.val 0x0C) else och s n.val 0x0C
  let onAt := och s n.val 0x08
  let out := genAt (och s n.val 0x04) onAt offAt 0
  let was := s.out.ch[n].genOut
  let s := setCh n (fun c =>
    { c with
      gen := true, perStart := t, perFine := fine, period := och s n.val 0x04, onAt := onAt, offAt := offAt,
      onFine := BitVec.ofNat 5 (field (och s n.val 0x10) 4 0),
      offFine := BitVec.ofNat 5 (field (och s n.val 0x10) 12 8),
      stretch := false, table := s.out.calCount, peakMiss := false, genOut := out }) s
  if out && !was then
    startPhase n 0 (setCh n (fun c =>
      edgeMoment t (fine.toNat + (if onAt = 0 then c.onFine.toNat else 0)) c) s)
  else if was && !out then
    setCh n (fun c => edgeMoment t (fine.toNat + (if offAt = 0 then c.offFine.toNat else 0)) c) s
  else s

/-- A fan role that drives channel n is enabled. -/
def fanDrives (s : State) (j : Fin 2) (n : Fin 32) : Bool :=
  let cfg := reg s (0x120400 + 0x20 * j.val)
  bit cfg 0 && field cfg 12 8 = n.val

/-- A role whose drive gate changes moves between IDLE and STARTING, and never out of STALLED
(Table 09-3). -/
def fanOnGate (tb : BitVec 64) (on : Bool) (f : Fan) : Fan :=
  if on && f.state = .idle then
    { f with state := .starting, entered := tb, good := 0, window := none, suspect := false }
  else if !on && f.state != .stalled then
    { f with state := .idle, window := none, good := 0, freeze := false }
  else f

def fanGate (n : Fin 32) (on : Bool) (s : State) : State :=
  let fans := vmapIdx (fun j f => if fanDrives s j n then fanOnGate s.clk.tb on f else f) s.sense.fan
  { s with sense := { s.sense with fan := fans } }

/-- The gate of channel n changes at TB and a fine step (R205): an on-edge starts a fresh period and is judged,
an off-edge stops the generator; passing between kinds of counting period ends the one in progress. -/
def setGateAt (fine : BitVec 5) (n : Fin 32) (on : Bool) (s0 : State) : State :=
  if s0.out.ch[n].gate = on then s0
  else
    let s := setCh n (fun c => { c with gate := on }) (fanGate n on s0)
    let s :=
      if on then
        (if ochMode s n.val = 0 then setCh n (edgeMoment s.clk.tb fine.toNat) s
        else startPeak n (loadPeriod s.clk.tb fine n (closePeriods n s)))
      else
        let s := if s.out.ch[n].gen then closePeriods n s else s
        setCh n (fun c => edgeMoment s.clk.tb fine.toNat { c with
          gen := false, genOut := false, peakPhase := false, holdOff := false, peakMiss := false }) s
    rebudget n (wants s0 n) (edges s0 s)

/-- The gate of channel n changes at the start of TB's tick. -/
def setGate (n : Fin 32) (on : Bool) (s : State) : State := setGateAt 0 n on s

/-- An override of channel n changes; the command's budget follows it (R165, R446). -/
def setOverride (n : Fin 32) (o : Override) (s : State) : State :=
  rebudget n (wants s n) (edges s (setCh n (fun c => { c with ovr := o }) s))

/-! ## Calibration tables of idle channels (R214) -/

/-- A channel in SWITCH mode or gated off has passed the first frame boundary after the latest table whose frame
holds no edge of its own. -/
def tableDue (s : State) (n : Fin 32) : Bool :=
  let c := s.out.ch[n]
  let last := if frameDiff c.edgeFrame s.out.calFrame < 0 then s.out.calFrame else c.edgeFrame
  let d := frameDiff (now s) last
  (ochMode s n.val = 0 || !c.gate) && (decide (2 ≤ d) || (decide (d = 1) && !c.queue.any (fun e => e.frame == now s)))

/-- The idle channels whose boundary has come hold the newest table. -/
def loadTables (s : State) : State :=
  { s with out := { s.out with
      ch := vmapIdx (fun n c => if tableDue s n then { c with table := s.out.calCount } else c) s.out.ch } }

/-! ## Scheduled edges (R208 to R210) -/

/-- The execution time of an edge, as stored (R209). -/
def edgeKey (s : State) (e : Edge) : Nat := tickAt e.frame e.tick.val s

/-- An edge of a frame before the frame after next is HELD to tick 0 of the second boundary (R209). -/
def isHeld (s : State) (e : Edge) : Bool := frameDiff e.frame (now s) < 2

def asHeld (s : State) (e : Edge) : Edge :=
  if isHeld s e then { e with frame := now s + 2, tick := 0, fine := 0 } else e

def sameTime (a b : Edge) : Bool := a.frame == b.frame && a.tick == b.tick

/-- One edge of a batch at the field side: 0 STORED, 1 HELD, 2 FULL, 3 DISCARDED_CLAY (R208,
Table 08-4). -/
def storeEdge (e0 : Edge) (s : State) : State × Fin 4 :=
  if s.modes.clay then (s, 3)
  else
    let e := asHeld s e0
    let c := s.out.ch[e0.ch]
    if c.queue.any (sameTime e) || c.queue.length < 32 then
      let q := c.queue.filter (fun x => !sameTime e x)
      let q := insertBy (fun a b => decide (edgeKey s a < edgeKey s b)) e q
      (setCh e0.ch (fun c => { c with queue := q, held := if isHeld s e0 then satInc c.held else c.held }) s,
        if isHeld s e0 then 1 else 0)
    else (s, 2)

/-- A batch at the field side takes the worst result among its edges (Table 08-4). -/
def storeEdges : List Edge → State → State × Fin 4
  | [], s => (s, 0)
  | e :: es, s =>
    let (s, r) := storeEdge e s
    let (s, r') := storeEdges es s
    (s, if r < r' then r' else r)

/-- The next TAG, from a 16-bit counter that skips 0 (R83). -/
def nextTagOf (t : BitVec 16) : BitVec 16 := if t + 1 = 0 then 1 else t + 1

/-- Hand a batch of one or two edges over: a SCHED_EDGE cell with a fresh TAG (R210). -/
def sendBatch (es : List Edge) (s : State) : State :=
  let t := s.barr.nextTag
  sendCell (.schedEdge t es) { s with barr := { s.barr with
    nextTag := nextTagOf t, batches := s.barr.batches ++ [{ tag := t, edges := es, sends := 1 }] } }

/-- Hand edges over two to a cell (Table 08-3). -/
def sendEdges : List Edge → State → State
  | [], s => s
  | [a], s => sendBatch [a] s
  | a :: b :: r, s => sendEdges r (sendBatch [a, b] s)

/-- The as-applied record of an edge that acted at frame f (R197): EXECUTED, or LATE with its
lateness; the ground error follows the motion model (Section). -/
def actedEdge (p : Pred) (e : Edge) (f : Frame48) (tick : Nat) (late : Bool) (ground : Word) : AsRec :=
  { ch := p.ch, on := p.on, outcome := if late then 1 else 0, line := p.line, cross := p.cross,
    edge := f, tick := BitVec.ofNat 10 tick, fine := e.fine,
    late := if late then lateness f p.time else 0, ground := ground, seq := 0, flags := 0 }

/-- Footprint speed of channel n along x, mm/s. -/
def footSpeed (s : State) (n : Fin 32) : Int :=
  speedAt s.sect.motion (match s.sect.ch[n].geom with | some g => g.y | none => 0)

/-- The motion update that a moment is reckoned from: the latest at or before it, else the oldest kept. -/
def motionFor (f : Frame48) (s : State) : Motion :=
  (s.sect.trail.find? fun m => 0 ≤ frameDiff f m.frame).getD (s.sect.trail.getLastD s.sect.motion)

/-- The ground error, mm: how far past its line the footprint is when the product of an edge at frame f reaches
the ground, with latency us (Table 07-5; log entry 54). -/
def groundAt (n : Fin 32) (seg : Option (Int × Int × Int × Int)) (f : Frame48) (us : Nat) (s : State) : Word :=
  match seg, s.sect.ch[n].geom with
  | some l, some g =>
    let reach := f + BitVec.ofNat 48 (us + (s.sect.ch[n].hyd + s.sect.ch[n].flight) * 100)
    let m := motionFor reach s
    satInt 32 (pastLine m g l (frameDiff reach m.frame).toNat)
  | _, _ => 0x80000000

/-- The latency estimate of channel n for a sense. -/
def latencyOf (s : State) (n : Fin 32) (on : Bool) : Nat :=
  if on then s.sect.ch[n].latOn.est else s.sect.ch[n].latOff.est

/-- The record of an edge that acted at frame f, kept open until its product reaches the ground (R197). -/
def recordActed (p : Pred) (e : Edge) (f : Frame48) (tick : Nat) (late : Bool) (s : State) : State :=
  let us := latencyOf s p.ch p.on
  let s' := asApplied (actedEdge p e f tick late (groundAt p.ch p.seg f us s)) s
  match p.seg with
  | none => s'
  | some l =>
    if 4096 ≤ s.fw.asBuf.length then s'
    else { s' with sect := { s'.sect with grounds := s'.sect.grounds ++
      [{ ch := p.ch, on := p.on, seq := s.fw.asSeq, seg := l, edge := f, lat := us }] } }

/-- An edge of channel n acts: the record of a section edge is written now, unless the driver waits for the budget
(R197, R447). An off-edge ends the wait of an on-edge whose driver was never energised: its record is MISSED
(log entry 54). -/
def recordEdge (e : Edge) (s : State) : State :=
  let lost := if e.on then [] else s.sect.handed.filter fun h =>
    h.edge.ch == e.ch && h.edge.on && frameDiff h.edge.frame e.frame < 0
  let s := lost.foldl (fun s h => asApplied (deadEdge h.pred 2) s)
    { s with sect := { s.sect with handed := s.sect.handed.filter (fun h => !lost.contains h) } }
  match s.sect.handed.find? (fun h => h.edge == e || (h.edge.ch == e.ch && h.edge.on == e.on &&
      frameDiff h.edge.frame e.frame ≤ 0)) with
  | none => s
  | some h =>
    let waits := e.on && (driversOf s e.ch).any (fun d => s.out.ch[d].grant != .granted)
    if waits then s
    else
      let s' := { s with sect := { s.sect with handed := s.sect.handed.filter (fun x => x != h) } }
      recordActed h.pred e (now s) e.tick.val h.pred.late s'

/-- A member of a BUILTIN chain reports an edge that acted to the head, in an EVT frame of class 1 (R195; log
entry 18). -/
def reportEdge (e : Edge) (s : State) : State :=
  if planner s != 1 || isHead s || !hcoreRuns s then s
  else
    let r := Config.edgeReport e.ch e.on (now s)
    let p : Packet :=
      { ackreq := false, opcode := r.1, seq := (Config.freeWord s.free).setWidth 16, dest := s.chain.headAddr
        src := ownAddr s, chainId := s.chain.chainId, cls := 1, payload := r.2 }
    queueUp (upFrame 6 p s) (draw s)

/-- EDGE_EXECUTE: the next edge of the channel acts at its tick and fine step (R205, R208). -/
def edgeExecute (n : Fin 32) (s : State) : State :=
  match s.out.ch[n].queue with
  | [] => s
  | e :: q =>
    if s.modes.clay then s
    else
      let s := loadTables (advanceTo (edgeKey s e) s)
      let s := setCh n (fun c => { c with queue := q, edgeFrame := now s }) s
      reportEdge e (recordEdge e (setGateAt e.fine n e.on s))

def execEdgeExecute (ch : Fin 32) (s : State) : Out := .next (edgeExecute ch s)

/-! ## Staggered drivers (R447) -/

/-- Drivers that wait for the window or the budget. -/
def waiting (s : State) : List (Fin 32) :=
  (List.finRange 32).filter fun d => s.out.ch[d].placed && s.out.ch[d].grant != .granted

/-- The first frame boundary after now at which the stagger window has room (R447). -/
def roomFrame (recent : List Frame48) (n w : Nat) (next : Frame48) : Frame48 :=
  match (recent.reverse)[n - 1]? with
  | none => next
  | some r => if frameDiff (r + BitVec.ofNat 48 w) next < 0 then next else r + BitVec.ofNat 48 w

/-- When the last of k more staggered channels will be energised if no edge intervenes (R448). -/
def ticketFrame (n w : Nat) : Nat → List Frame48 → Frame48 → Frame48
  | 0, _, f => f
  | k + 1, recent, f =>
    let g := roomFrame recent n w f
    ticketFrame n w k (recent ++ [g]) g

/-- The section records that waited for a driver: LATE at the frame it is energised (R447). -/
def recordLate (d : Fin 32) (s : State) : State :=
  let c := leader s (sourceOf s d)
  match s.sect.handed.find? (fun h => h.edge.ch == c && h.edge.on && frameDiff h.edge.frame (now s) ≤ 0) with
  | none => s
  | some h =>
    recordActed h.pred h.edge (now s) 0 true
      { s with sect := { s.sect with handed := s.sect.handed.filter (fun x => x != h) } }

/-- Judge a waiting driver again, after the frame's first judgments; when it is granted, its on-phase starts and
its record is LATE (R447). -/
def rejudge (d : Fin 32) (s0 : State) : State :=
  let s := s0
  resumed s0 <|
  if s.out.ch[d].grant = .staggered then
    (if (standing (dueInFrame s) s).2 < stagN s then
      recordLate d (setCh d (fun c => { c with grant := .granted })
        { s with out := { s.out with recent := recentIn s (now s) ++ [now s] } })
    else s)
  else
    let s := setCh d (fun c => { c with placed := false }) s
    let g := judgment s (dueInFrame s) d
    let s := if g = .granted then
      { s with out := { s.out with recent := recentIn s (now s) ++ [now s] } } else s
    let s := setCh d (fun c => { c with grant := g, placed := true }) s
    if g = .granted then recordLate d s else s

/-- STAGGER_ENERGISE: TB moves to the first frame boundary with room, where the waiting drivers are
judged again in ascending order (R447). -/
def staggerEnergise (s : State) : State :=
  if (waiting s).isEmpty then s
  else
    let next := now s + 1
    let f := if (waiting s).any (fun d => s.out.ch[d].grant = .staggered)
      then roomFrame s.out.recent (stagN s) (field (reg s 0x140014) 13 0) next else next
    let s := advanceTo (tickAt f 0 s) s
    (waiting s).foldl (fun s d => rejudge d s) s

def execStaggerEnergise (s : State) : Out := .next (staggerEnergise s)

/-! ## Generators (R206, R211, R214) -/

/-- The first change of output after count t in a period. -/
def nextChange (c : Chan) (t : Nat) : Option Nat :=
  let at' (x : Word) : List Nat :=
    if t < x.toNat && x.toNat < c.period.toNat &&
      genAt c.period c.onAt c.offAt x.toNat != c.genOut then [x.toNat] else []
  (sortBy (fun a b => decide (a < b)) (at' c.onAt ++ at' c.offAt)).head?

/-- GENERATOR_EDGE: the count reaches ON_AT or OFF_AT and the output command changes (R206). -/
def generatorEdge (n : Fin 32) (s : State) : State :=
  let c := s.out.ch[n]
  if !c.gen then s
  else match nextChange c (s.clk.tb.toNat - c.perStart.toNat) with
    | none => s
    | some t =>
      let f := c.perFine.toNat + (if c.genOut then c.offFine.toNat else c.onFine.toNat)
      let s := advanceTo (c.perStart.toNat + t + f / 32) s
      let at' := c.perStart + BitVec.ofNat 64 t
      let s' := setCh n (fun c => edgeMoment at' f { c with genOut := !c.genOut }) s
      edges s (startPeak n (startPhase n t s'))

def execGeneratorEdge (ch : Fin 32) (s : State) : Out := .next (generatorEdge ch s)

/-- A tripped driver whose period starts on tries again (R219). -/
def retryTripped (n : Fin 32) (s : State) : State :=
  (driversOf s n).foldl (fun s d =>
    if s.out.ch[d].tripped && driverCmd s d then driverStart d s else s) s

/-- PERIOD_BOUNDARY: a counting period ends, and the next period runs on the values written since
(R211, R214, R222). -/
def periodBoundary (n : Fin 32) (s : State) : State :=
  let c := s.out.ch[n]
  if !c.gen then s
  else
    let t := c.perStart + c.period.setWidth 64
    let s := closePeriods n (advanceTo t.toNat s)
    let s' := loadPeriod t c.perFine n s
    let s' := if s'.out.ch[n].genOut && c.genOut then s' else startPeak n s'
    retryTripped n (edges s s')

def execPeriodBoundary (ch : Fin 32) (s : State) : Out := .next (periodBoundary ch s)

/-- COUNTING_PERIOD_END: a 1,000-frame counting period of a channel that does not generate ends
(R222). -/
def countingPeriodEnd (n : Fin 32) (s : State) : State :=
  if s.out.ch[feeder s n].gen && !fanHeld s n then s
  else
    let s := toEdge (100 + n.val) (1000 * ticksPerFrame) s
    setCh n (closePeriod (leakK s n.val)) s

def execCountingPeriodEnd (ch : Fin 32) (s : State) : Out := .next (countingPeriodEnd ch s)

/-! ## Calibration (R213 to R215) -/

/-- One measurement of the replica (R213, R215): tap is its delay per tap in 0.5 ps units. -/
def calMeasure (spanOk : Bool) (tap : Byte) (s : State) : State :=
  let s := toEdge 2 (1024 * ticksPerFrame) s
  if !(domOn s 14 && !bit (reg s 0x110000) 0 && s.barr.fieldClock && s.barr.replicaLoaded) then s
  else
    let near := match s.out.calLast with
      | none => true
      | some l => decide (tap.toNat ≤ l.toNat + 4) && decide (l.toNat ≤ tap.toNat + 4)
    let s := loadTables s
    let o : Outputs := { s.out with calLast := some tap }
    if spanOk && near then
      { s with out := { o with
          calCount := o.calCount + 1, calTap := tap, calFails := 0, calFail := false, calFrame := now s } }
    else if o.calFails + 1 = 3 then
      note .field 0x1101 1 0xFF [] { s with out := { o with calFails := o.calFails + 1, calFail := true } }
    else { s with out := { o with calFails := o.calFails + 1 } }

def execCalMeasure (spanOk : Bool) (tap : Byte) (s : State) : Out := .next (calMeasure spanOk tap s)

/-! ## Trips (R218 to R223) -/

/-- The programmable threshold in 5 mA samples: 12 A inside the inrush window, else ITRIP
(R218, R221). -/
def threshold (s : State) (n : Fin 32) : Nat :=
  if s.out.ch[leader s n].inrush then 2400 else 10 * field (och s (leader s n).val 0x14) 7 0

def execOvercurrentTrip (ch : Fin 32) (sample : BitVec 12) (s : State) : Out :=
  .next (if driverOn s ch && !s.out.ch[leader s ch].blanking && threshold s ch < sample.toNat
    then tripOff ch .overcurrent s else s)

/-- A short circuit trips at once and holds the driver off for 1 ms (R218, R219); in a paralleled pair it counts
on OCH(2k) (R202). -/
def shortTrip (n : Fin 32) (s : State) : State :=
  if !driverOn s n then s
  else setCh (leader s n) (fun c => { c with shorts := satInc c.shorts })
    (setCh n (fun c => { c with shortHeld := true }) (tripOff n .short s))

def execShortCircuitTrip (ch : Fin 32) (s : State) : Out := .next (shortTrip ch s)

/-- A TRIP input after its filter (R218): a rise to active counts, and trips each masked channel
whose driver is on and not blanked. -/
def tripInput (i : Fin 4) (level : Bool) (s : State) : State :=
  let cfg := reg s (0x100B00 + 8 * i.val)
  let act := bit cfg 0 && (level == bit cfg 1)
  let was := s.out.tripActive.getLsbD i.val
  let one : BitVec 4 := BitVec.ofNat 4 (2 ^ i.val)
  let s := { s with out := { s.out with
      tripActive := if act then s.out.tripActive ||| one else s.out.tripActive &&& ~~~ one
      tripCnt := if act && !was then upd s.out.tripCnt i satInc else s.out.tripCnt } }
  if act then
    (List.finRange 32).foldl (fun s n =>
      if bit (reg s (0x100B04 + 8 * i.val)) n.val && driverOn s n && !s.out.ch[leader s n].blanking
      then tripOff n (.input i) s else s) s
  else s

def execTripInput (i : Fin 4) (level : Bool) (s : State) : Out := .next (tripInput i level s)

/-- An over-temperature trip holds the driver off until the junction cools (R218, R219). -/
def overtempTrip (n : Fin 32) (s : State) : State :=
  let s' := if driverOn s n then tripOff n .temperature s else s
  setCh n (fun c => { c with hot := true }) s'

def execOvertempTrip (ch : Fin 32) (s : State) : Out := .next (overtempTrip ch s)

def execOvertempRelease (ch : Fin 32) (s : State) : Out :=
  .next (resumed s (setCh ch (fun c => { c with hot := false }) s))

/-- The blanking window ends; a level that still holds trips (R220). -/
def blankingEnd (n : Fin 32) (sample : BitVec 12) (s : State) : State :=
  let m := leader s n
  if !s.out.ch[m].blanking then s
  else
    let s := setCh m (fun c => { c with blanking := false }) s
    if !driverOn s n then s
    else if threshold s n < sample.toNat then tripOff n .overcurrent s
    else match tripInputOn s m with
      | some i => tripOff n (.input i) s
      | none => s

def execBlankingEnd (ch : Fin 32) (sample : BitVec 12) (s : State) : Out := .next (blankingEnd ch sample s)

def execInrushEnd (ch : Fin 32) (s : State) : Out :=
  .next (setCh (leader s ch) (fun c => { c with inrush := false }) s)

/-- TRIP_RETRY: at its boundary a SWITCH channel whose gate is still on starts an on-phase (R219). -/
def tripRetry (n : Fin 32) (s : State) : State :=
  match s.out.ch[n].retryFrom with
  | none => s
  | some f =>
    let s := advanceTo (tickAt f 0 s) s
    if driverCmd s n then noteTurn s n (driverStart n s)
    else setCh n (fun c => { c with retryFrom := none }) s

def execTripRetry (ch : Fin 32) (s : State) : Out := .next (tripRetry ch s)

def execShortOffEnd (ch : Fin 32) (s : State) : Out :=
  .next (resumed s (setCh ch (fun c => { c with shortHeld := false }) s))

/-! ## Peak and hold (R212) -/

/-- A current sample of a channel (R224). -/
def takeSample (n : Fin 32) (x : BitVec 12) (s : State) : State :=
  if domOn s 15 then
    setCh n (fun c => { c with sample := x, epPeak := if c.epPeak.toNat < x.toNat then x else c.epPeak,
                               sum := c.sum + x.toNat, cnt := c.cnt + 1 }) s
  else s

/-- A sample of the drivers that channel n feeds. -/
def sampleDrivers (n : Fin 32) (x : BitVec 12) (s : State) : State :=
  (driversOf s n).foldl (fun s d => takeSample d x s) s

/-- The peak phase ends at PEAK_I, or PEAK_T after the on-phase started, with PEAKMISS and one NOTE in an epoch. -/
def peakEnd (n : Fin 32) (sample : BitVec 12) (s : State) : State :=
  if !s.out.ch[n].peakPhase then s
  else
    let reached := decide (10 * field (och s n.val 0x20) 7 0 ≤ sample.toNat)
    let s := if reached then s
      else advanceTo (s.out.ch[n].edgeAt.toNat + 800 * field (och s n.val 0x20) 23 8) s
    let s := sampleDrivers n sample s
    let s := setCh n (fun c => { c with
      peakPhase := false, peakMiss := c.peakMiss || !reached, holdAt := s.clk.tb }) s
    if reached then s else noteEpoch .field 0x1006 0 (chanByte n) [] s

def execPeakPhaseEnd (ch : Fin 32) (sample : BitVec 12) (s : State) : Out := .next (peakEnd ch sample s)

/-- A channel is in the hold phase of an on-phase. -/
def holding (s : State) (n : Fin 32) : Bool :=
  ochMode s n.val = 3 && s.out.ch[n].gate && s.out.ch[n].genOut && !s.out.ch[n].peakPhase

def holdPeriod (s : State) (n : Fin 32) : Nat := field (och s n.val 0x24) 31 8

/-- The drive of a hold period goes off for its rest (R212). -/
def holdOff (n : Fin 32) (s : State) : State := chopEdges s (setCh n (fun c => { c with holdOff := true }) s)

/-- The drive goes off at a sample of at least HOLD_I, else for the last 1 µs of the hold period. -/
def holdChop (n : Fin 32) (sample : BitVec 12) (s : State) : State :=
  if !holding s n || s.out.ch[n].holdOff then s
  else if 10 * field (och s n.val 0x24) 7 0 ≤ sample.toNat then holdOff n (sampleDrivers n sample s)
  else holdOff n (advanceTo (s.out.ch[n].holdAt.toNat + holdPeriod s n - 800) s)

def execHoldChopOff (ch : Fin 32) (sample : BitVec 12) (s : State) : Out := .next (holdChop ch sample s)

/-- A hold period follows the last one, whose end was off, and starts on. -/
def holdStart (n : Fin 32) (s : State) : State :=
  if !holding s n then s
  else
    let at' := s.out.ch[n].holdAt.toNat + holdPeriod s n
    let s := if s.out.ch[n].holdOff then s else holdOff n (advanceTo (at' - 800) s)
    let s := advanceTo at' s
    chopEdges s (setCh n (fun c => { c with holdOff := false, holdAt := BitVec.ofNat 64 at' }) s)

def execHoldPeriodStart (ch : Fin 32) (s : State) : Out := .next (holdStart ch s)

/-! ## Lamp diagnostics (R225 to R227) -/

/-- A lamp measurement: 0 load present, 1 open, 2 short to supply (R227, Table 08-6). -/
def lampResult (n : Fin 32) (kind : Fin 3) (off : Bool) (s : State) : State :=
  let c := s.out.ch[n]
  let opens := if kind = 1 then c.opens + 1 else 0
  let shorts := if kind = 2 then c.supplyShorts + 1 else 0
  let l := if kind = 0 then .ok else if 3 ≤ opens then .opened
    else if 2 ≤ shorts then .shortToSupply else c.lamp
  let s := setCh n (fun c => { c with
    lamp := l, diagMode := off, opens := opens, supplyShorts := shorts, measured := true }) s
  if opens = 3 then note .field 0x1003 1 (chanByte n) [] s
  else if shorts = 2 then note .field 0x1005 1 (chanByte n) [] s else s

/-- The ticks of a generator's on-phase (R206). -/
def onLength (c : Chan) : Nat :=
  if c.period.toNat ≤ c.offAt.toNat then c.period.toNat
  else if c.onAt.toNat ≤ c.offAt.toNat then c.offAt.toNat - c.onAt.toNat
  else c.period.toNat - c.onAt.toNat + c.offAt.toNat

/-- The on-state measurement of driver n, fed by a LAMP channel in an on-phase of at least 9,600 ticks: the mean
of its samples against OPEN_I (R216, R225). -/
def lampMeasure (n : Fin 32) (samples : List (BitVec 12)) (s : State) : State :=
  let f := feeder s n
  let sum := samples.foldl (fun a x => a + x.toNat) 0
  if ochMode s f.val = 4 && s.out.ch[f].gen && decide (9600 ≤ onLength s.out.ch[f]) && driverOn s n then
    lampResult n (if sum * 5 < field (och s n.val 0x1C) 9 4 * 10 * samples.length then 1 else 0) false
      (samples.foldl (fun s x => takeSample n x s) s)
  else s

def execLampMeasure (ch : Fin 32) (samples : List (BitVec 12)) (s : State) : Out :=
  .next (lampMeasure ch samples s)

/-- The off-state measurement of driver n, for OFFDET = 1, a LAMP channel that is gated off or whose on-phase
stays under 12 µs, and an off-phase of at least 50 µs (R216, R226). -/
def lampOffMeasure (n : Fin 32) (mv : Nat) (s : State) : State :=
  let c := s.out.ch[feeder s n]
  let off := !c.gen || (decide (onLength c < 9600) && decide (onLength c + 40000 ≤ c.period.toNat))
  if ochMode s (feeder s n).val = 4 && bit (och s n.val 0x1C) 1 && !driverOn s n && off && !s.modes.clay &&
      domOn s 15 then
    lampResult n (if mv < 1500 then 0 else if mv ≤ 7000 then 1 else 2) true s
  else s

def execLampOffMeasure (ch : Fin 32) (mv : Nat) (s : State) : Out := .next (lampOffMeasure ch mv s)

/-- One epoch of output duties (R214, R224, R227, R228): peak and mean of the epoch, NOTE
LAMP_UNVERIFIED, and a new stretch. -/
def epochChan (lamp : Bool) (c : Chan) : Chan :=
  { c with lastPeak := c.epPeak, epPeak := 0, sum := 0, cnt := 0, stretched := false,
           mean := if c.cnt = 0 then 0 else satTo 16 (c.sum * 5 / c.cnt), measured := false,
           lamp := if lamp && !c.measured then .unverified else c.lamp,
           opens := if lamp && !c.measured then 0 else c.opens }

def epochOutputs (s : State) : State :=
  let isLamp (n : Fin 32) : Bool := ochMode s (feeder s n).val = 4 && domOn s 15 && !s.modes.clay
  let s := loadTables s
  let turned := (List.finRange 32).filter fun n =>
    isLamp n && !s.out.ch[n].measured && s.out.ch[n].lamp != .unverified
  let s := { s with out := { s.out with ch := vmapIdx (fun n c => epochChan (isLamp n) c) s.out.ch } }
  turned.foldl (fun s n => note .field 0x1004 0 (chanByte n) [] s) s

/-! ## Counters (Table 08-10) -/

def execOchCntclr (value : Word) (s : State) : Out :=
  .next (if domOn s 15 && domOn s 14 then { s with out := { s.out with
    ch := vmap (fun c => { c with
      tripPeriods := if bit value 0 then 0 else c.tripPeriods
      shorts := if bit value 0 then 0 else c.shorts
      held := if bit value 2 then 0 else c.held }) s.out.ch
    tripCnt := if bit value 1 then Vector.replicate 4 0 else s.out.tripCnt } } else s)

/-! ## Disagreement and the disconnect (R440 to R445) -/

def onThr (s : State) : Nat := field (reg s 0x150010) 7 0
def offThr (s : State) : Nat := field (reg s 0x150010) 15 8

/-- DATA of DISAGREE and DISAGREE_OFF (R441). -/
def disData (n : Fin 32) (obs : Byte) (x : BitVec 12) (s : State) : List Byte :=
  [BitVec.ofNat 8 (b2n s.out.ch[n].gate + 2 * b2n (s.out.ch[n].ovr != .none) + 4 * b2n s.modes.clay), obs] ++
  be 2 x.toNat ++ be 4 ((frameDiff (now s) s.out.ch[n].onset).toNat)

/-- Observed on: current at ON_THR or above in a driver commanded off. It is reported, forced off
and latched, and the HOLD time runs (R440 to R442). -/
def disagreeOn (n : Fin 32) (x : BitVec 12) (s : State) : State :=
  if domOn s 15 && !driverOn s n && onThr s ≤ x.toNat && !s.out.ch[n].obsOn then
    let s := takeSample n x s
    let was := s.out.ch[n].latched
    let s := setCh n (fun c => { c with
      obsOn := true, obsOff := false, onset := now s, latched := true, lastSrc := .disagree, forceHold := true }) s
    let s := note .field 0x1501 2 (chanByte n) (disData n 1 x s) s
    if was then s else noteLatch n s
  else s

def execDisagreeOn (ch : Fin 32) (sample : BitVec 12) (s : State) : Out := .next (disagreeOn ch sample s)

/-- Observed off: a SWITCH driver commanded on that reads below OFF_THR, not evaluated while the
disconnect is open (R440, R441). -/
def disagreeOff (n : Fin 32) (x : BitVec 12) (s : State) : State :=
  if domOn s 15 && driverOn s n && ochMode s (leader s n).val = 0 && x.toNat < offThr s &&
      !s.out.discOpen && !s.out.ch[n].obsOff then
    let s := takeSample n x s
    let s := setCh n (fun c => { c with obsOff := true, onset := now s }) s
    note .field 0x1502 1 (chanByte n) (disData n 0 x s) s
  else s

def execDisagreeOff (ch : Fin 32) (sample : BitVec 12) (s : State) : Out := .next (disagreeOff ch sample s)

/-- Eight samples agree with the command again (R441). -/
def execDisagreeEnd (ch : Fin 32) (s : State) : Out :=
  .next (setCh ch (fun c => { c with obsOn := false, obsOff := false, forceHold := false }) s)

/-- The disconnect opens: every observed-off condition ends, and FDISC_OPEN is CRITICAL (R440,
R444). -/
def openDisc (reason : BitVec 2) (s : State) : State :=
  let s := { s with out := { s.out with
    discOpen := true, softStart := false, discReason := reason, discCount := satInc s.out.discCount
    ch := vmap (fun c => { c with obsOff := false }) s.out.ch } }
  raise .field 0x1503 3 0xFF [BitVec.ofNat 8 reason.toNat] s

/-- HOLD frames after the force-off the current still reads ON_THR: the disconnect opens (R442). -/
def execDisconnectHoldExpiry (ch : Fin 32) (sample : BitVec 12) (s : State) : Out :=
  .next (if s.out.ch[ch].obsOn && s.out.ch[ch].forceHold && onThr s ≤ sample.toNat then
    openDisc 1 (setCh ch (fun c => { c with forceHold := false }) (takeSample ch sample s)) else s)

def execFdiscCtrlOpen (s : State) : Out := .next (openDisc 2 s)

/-- The disconnect may close: in Clay with no channel observed on (R445). -/
def mayClose (s : State) : Bool := s.modes.clay && s.out.ch.toList.all (fun c => !c.obsOn)

/-- The disconnect recloses with its soft start; OPEN stays 1 until that ends (R445). -/
def closeDisc (s : State) : State :=
  if s.out.discOpen && mayClose s then { s with out := { s.out with softStart := true } } else s

def execFdiscCtrlClose (s : State) : Out := .next (closeDisc s)

/-- The soft start ends: drivers take their commands at the first frame boundary after (R445). -/
def execSoftStartEnd (s : State) : Out :=
  .next (if s.out.softStart then
    let s := toFieldFrame s
    resumed s { s with out := { s.out with softStart := false, discOpen := false, discReason := 0 } } else s)

/-! ## OCH_SET (R165, R446 to R448) -/

/-- The masks of an OCH_SET: channels granted, staggered and refused (Table 06-7). -/
structure SetMasks where
  granted : Word := 0
  staggered : Word := 0
  refused : Word := 0
  deriving DecidableEq, Repr

/-- OCH_SET ON of one channel: judged unless already energised under a grant; a refused channel
keeps its previous state (R446, R448). -/
def setOn (n : Fin 32) (m : SetMasks) (s : State) : SetMasks × State :=
  let b := oneBit n.val
  if wants s n then
    let g := if (driversOf s n).any (fun d => s.out.ch[d].grant == .staggered) then Grant.staggered
      else if (driversOf s n).any (fun d => s.out.ch[d].grant == .refused) then .refused else .granted
    if g = .refused then ({ m with refused := m.refused ||| b }, s)
    else
      (if g = .staggered then { m with staggered := m.staggered ||| b }
        else { m with granted := m.granted ||| b }, setOverride n .on s)
  else
    let s' := setOverride n .on s
    if (driversOf s n).any (fun d => !inverted s d && s'.out.ch[d].grant == .refused) then
      ({ m with refused := m.refused ||| b },
        { s with out := { s.out with refusals := s'.out.refusals }, ev := s'.ev, barr := s'.barr })
    else if (driversOf s n).any (fun d => s'.out.ch[d].grant == .staggered) then
      ({ m with staggered := m.staggered ||| b }, s')
    else ({ m with granted := m.granted ||| b }, s')

/-- OCH_SET RUN of one channel: the override goes, and a gate that is on is judged (R165, R446). -/
def setRun (n : Fin 32) (m : SetMasks) (s : State) : SetMasks × State :=
  let s' := setOverride n .none s
  let b := oneBit n.val
  if (driversOf s' n).any (fun d => s'.out.ch[d].grant == .refused) then
    ({ m with refused := m.refused ||| b }, s')
  else if (driversOf s' n).any (fun d => s'.out.ch[d].grant == .staggered) then
    ({ m with staggered := m.staggered ||| b }, s')
  else ({ m with granted := m.granted ||| b }, s')

/-- The channels of a mask in ascending order. -/
def maskList (mask : Word) : List (Fin 32) := (List.finRange 32).filter fun n => bit mask n.val

/-- OCH_SET at the frame where it acts, channel by channel (R165, R448): 0 OFF, 1 ON, 2 RUN. -/
def setOutputs (mask : Word) (action : Nat) (s : State) : SetMasks × State :=
  (maskList mask).foldl (fun p n =>
    if action = 0 then ({ p.1 with granted := p.1.granted ||| oneBit n.val }, setOverride n .off p.2)
    else if action = 1 then setOn n p.1 p.2
    else setRun n p.1 p.2) ({}, s)

/-- A channel of the mask is observed on, so that its command off is contradicted (R443). -/
def contradicted (mask : Word) (s : State) : Bool :=
  (maskList mask).any fun n => s.out.ch[n].obsOn

/-! ## Clay release at the drivers (R446) -/

/-- Each inverted driver is judged at a release, in ascending order. -/
def judgeInverted (s : State) : State :=
  (List.finRange 32).foldl (fun s d => if inverted s d && leader s d == d then judge d s else s) s

/-- The field side leaves Clay (R25, R446). -/
def leaveClay (s : State) : State := resumed s (judgeInverted (releaseClay s))

end Sys2Proof.Machine
end

