-- ==== Sys2Proof/Machine/Sense.lean ====
section
/-! DEFINITION. Sense inputs and fan supervision (09). -/

namespace Sys2Proof.Machine

/-- Change input n. -/
def setIn (n : Fin 16) (f : SinIn → SinIn) (s : State) : State :=
  { s with sense := { s.sense with inp := upd s.sense.inp n f } }

/-- Change fan role j. -/
def setFan (j : Fin 2) (f : Fan → Fan) (s : State) : State :=
  { s with sense := { s.sense with fan := upd s.sense.fan j f } }

/-- The inputs are powered and clocked: they see no edge while the field clock stands (R11, R32, R75). -/
def sensing (s : State) : Bool := domOn s 17 && s.barr.fieldClock

def fanCfg (s : State) (j : Fin 2) : Word := reg s (0x120400 + 0x20 * j.val)
def fanThr (s : State) (j : Fin 2) : Word := reg s (0x120404 + 0x20 * j.val)
def fanEnabled (s : State) (j : Fin 2) : Bool := bit (fanCfg s j) 0
def fanDrive (s : State) (j : Fin 2) : Fin 32 := Fin.ofNat 32 (field (fanCfg s j) 12 8)
def fanTach (s : State) (j : Fin 2) : Fin 16 := Fin.ofNat 16 (field (fanCfg s j) 19 16)

/-- The enabled roles that input n serves as TACH. -/
def rolesOf (s : State) (n : Fin 16) : List (Fin 2) :=
  (List.finRange 2).filter fun j => fanEnabled s j && fanTach s j == n

/-! ## Frequency (R233) -/

/-- Ticks in 100 ms and in 10 s. -/
def ticks100ms : Nat := 80000000
def ticks10s : Nat := 8000000000

/-- A frequency in mHz of k events in d ticks. -/
def mHz (k d : Nat) : Nat := if d = 0 then 0 else k * 800000000000 / d

/-- The value of a FREQ input at tick t, the first rule of R233 that applies. `edges` are the rising
edges of the last 100 ms and the latest before them, newest first. -/
def freqAt (t : Nat) (i : SinIn) : Nat :=
  match i.edges, i.lastInterval with
  | e :: _, some d =>
    let since := t - e.toNat
    let recent := i.edges.filter fun x => t - x.toNat ≤ ticks100ms
    if ticks10s ≤ since then 0
    else if d < since then mHz 1 since
    else if 2 ≤ recent.length then
      mHz (recent.length - 1) ((recent.headD 0).toNat - (recent.getLastD 0).toNat)
    else mHz 1 d
  | _, _ => 0

/-! ## Fan holds and transitions (R240 to R247) -/

/-- The role's tach estimate in mHz: the value of its TACH input at the latest update (R240). -/
def tachEst (s : State) (j : Fin 2) : Nat := (s.sense.inp[fanTach s j].val).toNat

/-- A remote hold or its end: the head that is no island head broadcasts OCH_SET for FAN_RMASK in
class 0, and its own channels take it (R243). -/
def remoteSet (j : Fin 2) (action : Byte) (s : State) : State :=
  if bit (fanCfg s j) 1 && isHead s && !islandHead s then
    let mask := reg s (0x120410 + 0x20 * j.val)
    let p : Packet :=
      { bcast := true, ackreq := false, opcode := 0x20, cls := 0, chainId := s.chain.chainId,
        seq := (Config.freeWord s.free).setWidth 16, dest := 0, src := ownAddr s,
        payload := be 4 mask.toNat ++ [action] }
    let s := sendDown (cmdOf p s) (draw s)
    let s := setFan j (fun f => { f with remote := action == 0 }) s
    if s.modes.clay then s else (setOutputs mask action.toNat s).2
  else s

/-- The drivers that a change of holds touches end their counting period (R222), and those released take their
gate state (R242). -/
def closeHeld (old s : State) : State :=
  resumed old ((List.finRange 32).foldl (fun s d =>
    if fanHeld s d != fanHeld old d && s.out.ch[feeder s d].gen then
      setCh d (closePeriod (leakK s d.val)) s else s) s)

/-- Entry to STALLED (R241, R243): drive, dependents and the bound slot are held, and FAN_STALL
names the role, the state it left and the estimate. -/
def stallFan (j : Fin 2) (s : State) : State :=
  let left := s.sense.fan[j].state
  let s' := setFan j (fun f => { f with
    state := .stalled, stalls := satInc f.stalls, entered := s.clk.tb, window := none, good := 0,
    driveHold := true, depHold := reg s (0x12040C + 0x20 * j.val), freeze := true }) s
  let s' := syncFreeze (closeHeld s s')
  let s' := note .field 0x1201 2 (chanByte (fanDrive s j))
    ([BitVec.ofNat 8 j.val, BitVec.ofNat 8 (fanCode left)] ++ be 4 (tachEst s j)) s'
  remoteSet j 0 s'

/-- Entry to RUNNING: the holds end; from TACH_OPEN the loop resumes with a NOTE (R240, R243,
R246). -/
def runFan (j : Fin 2) (s : State) : State :=
  let old := s.sense.fan[j]
  let s' := setFan j (fun f => { f with
    state := .running, entered := s.clk.tb, window := none, good := 0, driveHold := false, depHold := 0,
    freeze := false }) s
  let s' := syncFreeze (closeHeld s s')
  let s' := if old.state = .tachOpen then note .field 0x1203 0 (chanByte (fanDrive s j)) [BitVec.ofNat 8 j.val] s'
    else s'
  if old.remote then remoteSet j 2 s' else s'

/-- A complete tach interval of role j that ends at `stamp` (R240): it counts when it began at or
after entry to the state and is at most 1 / STALL_THR; eight in a row lead to RUNNING at the next frame boundary,
where the role evaluates its transitions. -/
def tachInterval (stamp start : BitVec 64) (s : State) (j : Fin 2) : State :=
  let f := s.sense.fan[j]
  let short := decide ((stamp.toNat - start.toNat) * field (fanThr s j) 15 0 ≤ 8000000000)
  let good := if f.entered.toNat ≤ start.toNat && short then f.good + 1 else 0
  let s := setFan j (fun f => { f with good := good }) s
  if 8 ≤ good && (f.state = .starting || f.state = .tachOpen) then runFan j (toFrame s) else s

/-! ## Edges (R232, R234) -/

/-- A quadrature count of pair k from an edge of input n (R234): the count rises when A leads B. With `both`
the edge of the other input passes in the same cycle, an illegal transition. -/
def quadEdge (n : Fin 16) (both : Bool) (s : State) : State :=
  if pairWait s n then s
  else
    let a : Fin 16 := Fin.ofNat 16 (n.val / 2 * 2)
    let b := pairMate a
    if both then
      let s := setIn (pairMate n) (fun i => { i with
        level := !i.level, cnt := if i.level then i.cnt else i.cnt + 1, wireOpen := false, suspect := false }) s
      setIn b (fun i => { i with qerr := satInc i.qerr }) (setIn a (fun i => { i with qerr := satInc i.qerr }) s)
    else
      let up := if n = a then s.sense.inp[a].level != s.sense.inp[b].level
        else s.sense.inp[a].level == s.sense.inp[b].level
      setIn a (fun i => { i with pos := if up then i.pos + 1 else i.pos - 1 }) s

/-- A passed edge (R232 to R234, R237, R245): level and rising count, edge times for R233, flags
cleared, quadrature and tach intervals. -/
def sinEdge (n : Fin 16) (rising both : Bool) (stamp : BitVec 64) (s : State) : State :=
  let ty := sinType s n
  if !sensing s || !(ty = 1 || ty = 2) then s
  else
    let old := s.sense.inp[n]
    let s := setIn n (fun i => { i with level := rising, wireOpen := false, suspect := false }) s
    let s := (rolesOf s n).foldl (fun s j => setFan j (fun f => { f with suspect := false }) s) s
    let s := if rising then
      let s := setIn n (fun i => { i with
        cnt := i.cnt + 1
        edges := stamp :: (old.edges.take 1 ++
          (old.edges.drop 1).filter (fun x => stamp.toNat - x.toNat ≤ ticks100ms))
        lastInterval := match old.edges with
          | [] => none
          | e :: _ => some (stamp.toNat - e.toNat) }) s
      (match old.edges with
        | [] => s
        | e :: _ => (rolesOf s n).foldl (tachInterval stamp e) s)
      else s
    if ty = 2 then quadEdge n both s else s

def execSinEdge (n : Fin 16) (rising both : Bool) (stamp : BitVec 64) (s : State) : Out :=
  .next (sinEdge n rising both stamp s)

/-! ## The 1,000-frame update (R231, R233 to R235, R240) -/

/-- The position 10 ms before tick t (R234). -/
def posAt (t : Nat) (i : SinIn) : Word :=
  match i.posBefore.find? (fun p => p.1.toNat + 8000000 ≤ t) with
  | some p => p.2
  | none => 0

/-- The velocity of a pair in counts per second (R234). -/
def velocity (t : Nat) (i : SinIn) : Int := (i.pos - posAt t i).toInt * 100

/-- The update of one input: `mean` is the mean of an analogue input's samples in µA or mV. -/
def updateIn (s : State) (means : List Nat) (n : Fin 16) (i : SinIn) : SinIn :=
  let t := s.clk.tb.toNat
  let mean := means.getD n.val 0
  match sinType s n with
  | 1 =>
    let f := freqAt t i
    { i with val := satTo 32 f, valid := true, overF := decide (20000000 < f), underF := false }
  | 2 =>
    if pairWait s n then { i with val := 0, overF := false }
    else
      let a := s.sense.inp[(Fin.ofNat 16 (n.val / 2 * 2) : Fin 16)]
      let v := velocity t a
      { i with
        val := if n.val % 2 = 0 then i.pos else BitVec.ofInt 32 v, valid := true, underF := false
        overF := decide (80000 < v.natAbs)
        posBefore := ((s.clk.tb, i.pos) :: i.posBefore).take 12 }
  | 3 =>
    let v := min mean 25600
    { i with val := BitVec.ofNat 32 v, valid := true, underF := decide (v < 3600),
             overF := decide (21000 < v), wireOpen := decide (v < 3600) }
  | 4 =>
    let v := min mean 6144
    { i with val := BitVec.ofNat 32 v, valid := true, underF := false, overF := decide (5250 < v) }
  | 5 =>
    let v := min mean 12288
    { i with val := BitVec.ofNat 32 v, valid := true, underF := false, overF := decide (10500 < v) }
  | _ => i

/-- The stall window of a RUNNING role at an update (R240). -/
def windowAt (tb : BitVec 64) (est thr : Nat) (f : Fan) : Fan :=
  if f.state = .running then
    (if thr ≤ est then { f with window := none }
    else match f.window with
      | none => { f with window := some tb }
      | some _ => f)
  else f

/-- SIN_UPDATE: at each multiple of 1,000 frames values and windows are updated (R233, R240). -/
def sinUpdate (means : List Nat) (s : State) : State :=
  let s := toEdge 3 (1000 * ticksPerFrame) s
  if !sensing s then s
  else
    let s := { s with sense := { s.sense with inp := vmapIdx (updateIn s means) s.sense.inp } }
    let win (j : Fin 2) (f : Fan) : Fan :=
      if fanEnabled s j then windowAt s.clk.tb (tachEst s j) (field (fanThr s j) 15 0 * 100) f else f
    { s with sense := { s.sense with fan := vmapIdx win s.sense.fan } }

def execSinUpdate (means : List Nat) (s : State) : Out := .next (sinUpdate means s)

/-- A switch class held for 10 ms (R236, Table 09-2). -/
def switchAccept (n : Fin 16) (ohms : Nat) (s : State) : State :=
  if sinType s n != 6 || !sensing s then s
  else setIn n (fun i =>
    if ohms < 100 then { i with shortF := true, wireOpen := false }
    else if ohms < 2000 then { i with val := 1, shortF := false, wireOpen := false, valid := true }
    else if ohms ≤ 20000 then { i with val := 0, shortF := false, wireOpen := false, valid := true }
    else { i with shortF := false, wireOpen := true }) s

def execSwitchClassAccept (n : Fin 16) (ohms : Nat) (s : State) : Out := .next (switchAccept n ohms s)

/-! ## Tach breaks and stalls (R237, R241, R244 to R246) -/

/-- A role evaluates a break of its tach wire (R244, R245). -/
def tachBreak (s : State) (j : Fin 2) : State :=
  let f := s.sense.fan[j]
  let i := s.sense.inp[fanTach s j]
  let fLast := mHz 1 (i.lastInterval.getD 0)
  let t := s.clk.tb.toNat - (i.edges.headD 0).toNat
  let fall := field (reg s (0x120408 + 0x20 * j.val)) 15 0 * 1000 * t / 800000000
  let thr := field (fanThr s j) 15 0 * 100
  if !(f.state = .running || f.state = .starting) then s
  else if f.state = .running && thr + fall ≤ fLast then
    let s' := setFan j (fun f => { f with
      state := .tachOpen, opens := satInc f.opens, entered := s.clk.tb, window := none, good := 0,
      freeze := true }) s
    note .field 0x1202 1 (chanByte (fanDrive s j))
      ([BitVec.ofNat 8 j.val] ++ be 3 (min (t / 800) 0xFFFFFF) ++ be 4 fLast) (syncFreeze s')
  else setIn (fanTach s j) (fun i => { i with suspect := true }) (setFan j (fun f => { f with suspect := true }) s)

/-- A biased FREQ or QUAD input has stood above 4.7 V for 2 ms (R237). -/
def wireOpen (n : Fin 16) (s : State) : State :=
  let cfg := reg s (0x120000 + 0x10 * n.val)
  if !(bit cfg 3 && (sinType s n = 1 || sinType s n = 2) && sensing s) then s
  else
    let s := setIn n (fun i => { i with wireOpen := true }) s
    (rolesOf s n).foldl tachBreak s

def execWireOpenDetect (n : Fin 16) (s : State) : Out := .next (wireOpen n s)

/-- The tick at which a role's T_START window expires (R240). -/
def stallAt (s : State) (j : Fin 2) : Option Nat :=
  let f := s.sense.fan[j]
  let w := field (fanThr s j) 23 16 * 80000000
  match f.state, f.window with
  | .starting, _ => some (f.entered.toNat + w)
  | .running, some t => some (t.toNat + w)
  | _, _ => none

/-- FAN_STALL: at the frame boundary where the window expires the role stalls (R241). -/
def fanStall (j : Fin 2) (s : State) : State :=
  if !fanEnabled s j then s
  else match stallAt s j with
    | none => s
    | some t => stallFan j (advanceTo ((t + 799) / 800 * 800) s)

def execFanStall (j : Fin 2) (s : State) : Out := .next (fanStall j s)

/-- OPEN_LIM_EXPIRY: a role in TACH_OPEN for OPEN_LIM seconds stalls (R246). -/
def openLim (j : Fin 2) (s : State) : State :=
  let lim := field (fanCfg s j) 31 24
  if fanEnabled s j && s.sense.fan[j].state = .tachOpen && lim != 0 then
    stallFan j (advanceTo (s.sense.fan[j].entered.toNat + lim * 800000000) s)
  else s

def execOpenLimExpiry (j : Fin 2) (s : State) : Out := .next (openLim j s)

/-- FAN_RESTART of a role (R247): IDLE is unchanged; else the drive hold and the loop freeze end, and
the role starts or idles by its drive gate. The dependents stay held until RUNNING. -/
def restartFan (j : Fin 2) (s : State) : State :=
  if s.sense.fan[j].state = .idle then s
  else
    let on := s.out.ch[fanDrive s j].gate
    let s' := setFan j (fun f => { f with
      state := if on then .starting else .idle, entered := s.clk.tb, window := none, good := 0,
      driveHold := false, freeze := false }) s
    syncFreeze (closeHeld s s')

/-- After a release, the remote hold of a role that is still STALLED is broadcast again (R243). -/
def repeatHolds (s : State) : State :=
  (List.finRange 2).foldl (fun s j =>
    if fanEnabled s j && s.sense.fan[j].state = .stalled then remoteSet j 0 s else s) s

/-- A write that changes EN, DRIVE or TACH ends the role as it stood (R239). -/
def fanRewritten (j : Fin 2) (old : Word) (s : State) : State :=
  let new := fanCfg s j
  if bit old 0 = bit new 0 && field old 12 8 = field new 12 8 && field old 19 16 = field new 19 16 then s
  else syncFreeze (closeHeld s (setFan j (fun f => { stalls := f.stalls, opens := f.opens }) s))

/-- A write that changes an input's TYPE starts it afresh (Table 09-4). -/
def sinRewritten (n : Fin 16) (old : Word) (s : State) : State :=
  if field old 2 0 = sinType s n then s
  else setIn n (fun i => { cnt := i.cnt, qerr := i.qerr }) s

/-- SIN_CNTCLR: each named input's QERR and edge count (Table 09-4). -/
def sinCntclr (value : Word) (s : State) : State :=
  let clear (n : Fin 16) (i : SinIn) : SinIn :=
    if bit value n.val then { i with qerr := 0, cnt := 0 } else i
  if domOn s 17 then { s with sense := { s.sense with inp := vmapIdx clear s.sense.inp } } else s

def execSinCntclr (value : Word) (s : State) : Out := .next (sinCntclr value s)

end Sys2Proof.Machine
end

