-- ==== Sys2Proof/Machine/LoopEngine.lean ====
section
/-! DEFINITION. The loop engine (10): exact arithmetic on mantissas with exponents, the law of R257,
the repetitive controller, coefficient cells, test signals and capture. -/

namespace Sys2Proof.Machine

/-! ## Numbers (R253, R254) -/

/-- An exact dyadic number m × 2^e. -/
structure Dy where
  m : Int
  e : Int
  deriving DecidableEq, Repr

namespace Dy

def zero : Dy := ⟨0, 0⟩

/-- The mantissa at a smaller exponent. -/
def atExp (d : Dy) (e : Int) : Int := d.m * 2 ^ (d.e - e).toNat

def add (a b : Dy) : Dy := let e := min a.e b.e; ⟨a.atExp e + b.atExp e, e⟩
def neg (a : Dy) : Dy := ⟨-a.m, a.e⟩
def sub (a b : Dy) : Dy := a.add b.neg
def mul (a b : Dy) : Dy := ⟨a.m * b.m, a.e + b.e⟩
def le (a b : Dy) : Bool := let e := min a.e b.e; decide (a.atExp e ≤ b.atExp e)
def dmin (a b : Dy) : Dy := if a.le b then a else b
def dmax (a b : Dy) : Dy := if a.le b then b else a

/-- The value divided by 2^e, rounded to the nearest integer, ties to even (R253). -/
def round (d : Dy) (e : Int) : Int :=
  if e ≤ d.e then d.m * 2 ^ (d.e - e).toNat
  else
    let k : Int := 2 ^ (e - d.e).toNat
    let q := d.m / k
    let r := d.m % k
    if 2 * r < k then q else if k < 2 * r then q + 1 else if q % 2 = 0 then q else q + 1

end Dy

/-- A coefficient word's value (Table 10-2). -/
def coefVal (w : Word) : Dy :=
  ⟨(BitVec.ofNat 20 (field w 19 0)).toInt, (BitVec.ofNat 6 (field w 25 20)).toInt⟩

/-- A stage result: rounded once, saturated to 20 bits, and whether it saturated (R253). -/
def stage (d : Dy) (e : Int) : Int × Bool :=
  let r := d.round e
  if r < -524288 then (-524288, true) else if 524287 < r then (524287, true) else (r, false)

/-- The stages, as bits of LOOP_STAT.SAT (Table 10-8). -/
def satBit (i : Nat) (b : Bool) : BitVec 5 := if b then BitVec.ofNat 5 (2 ^ i) else 0

/-- Change slot i. -/
def setSlot (i : Fin 16) (f : Slot → Slot) (s : State) : State :=
  { s with loop := { s.loop with slot := upd s.loop.slot i f } }

/-- A slot's number as CHAN of its events. -/
def slotByte (i : Fin 16) : Byte := BitVec.ofNat 8 i.val

/-- Saturations set their sticky bits, count, and raise one LOOP_SAT per slot and epoch (R253). -/
def noteSat (i : Fin 16) (bits : BitVec 5) (s : State) : State :=
  if bits = 0 then s
  else noteEpoch .field 0x1301 0 (slotByte i) []
    (setSlot i (fun l => { l with sat := l.sat ||| bits, satCnt := satInc l.satCnt }) s)

/-! ## Banks (R255, R270 to R274) -/

/-- The word i of a bank. -/
def bankWord (b : Vector Word 17) (i : Fin 17) : Word := b[i]

/-- Store consecutive words from index `first`. -/
def putWords (first : Nat) (ws : List Word) (b : Vector Word 17) : Vector Word 17 :=
  ws.zipIdx.foldl (fun b w => if h : first + w.2 < 17 then b.set (first + w.2) w.1 h else b) b

/-- A changed exponent set rescales the slot's stored state, and a changed E_RC clears the table
(R255). -/
def rescale (old new : Word) (l : Slot) : Slot × BitVec 5 :=
  let re (k : Nat) (m : Int) : Int × Bool :=
    if expOf old k = expOf new k then (m, false) else stage ⟨m, expOf old k⟩ (expOf new k)
  let x := re 0 l.xPrev
  let g := re 1 l.integ
  let d := re 1 l.deriv
  let u := re 4 l.uPrev
  ({ l with xPrev := x.1, integ := g.1, deriv := d.1, uPrev := u.1,
            table := if expOf old 3 = expOf new 3 then l.table else [] },
    satBit 0 x.2 ||| satBit 1 (g.2 || d.2) ||| satBit 4 u.2)

/-- Put a bank in force as the active one, with R255. -/
def setActive (i : Fin 16) (b : Vector Word 17) (s : State) : State :=
  let old := s.loop.slot[i].active[(0 : Fin 17)]
  let new := b[(0 : Fin 17)]
  let r := rescale old new s.loop.slot[i]
  let s := noteSat i r.2 (setSlot i (fun _ => { r.1 with active := b }) s)
  if expOf old 3 = expOf new 3 then s else note .field 0x1303 0 (slotByte i) [] s

/-- An accepted coefficient cell takes effect: DIRECT on the active bank, BANKED on the shadow
(R271, R272). -/
def applyCell (c : CoefCell) (s : State) : State :=
  if c.banked then
    setSlot c.slot (fun l => { l with shadow := putWords c.first.toNat c.words l.shadow }) s
  else setActive c.slot (putWords c.first.toNat c.words s.loop.slot[c.slot].active) s

/-- Every cell accepted during a computation is applied when it ends, in order (R270). -/
def applyCells (i : Fin 16) (s : State) : State :=
  let cs := s.loop.slot[i].cells
  cs.foldl (fun s c => applyCell c s) (setSlot i (fun l => { l with cells := [] }) s)

/-- The swap: the shadow bank becomes the active one and is copied back (R272). -/
def swapBanks (i : Fin 16) (s : State) : State :=
  setActive i s.loop.slot[i].shadow (setSlot i (fun l => { l with swapAt := none }) s)

/-! ## Test signals (R275, R276) -/

/-- The tap of a PRBS order (Table 10-5); 0 for a reserved order. -/
def prbsTap (n : Nat) : Nat :=
  match n with | 7 => 6 | 9 => 5 | 10 => 7 | 11 => 9 | 15 => 14 | _ => 0

/-- One step of the PRBS register: b, and the register with b at bit 1 (Table 10-5). -/
def prbsStep (n : Nat) (r : BitVec 16) : Bool × BitVec 16 :=
  let b := r.getLsbD (n - 1) != r.getLsbD (prbsTap n - 1)
  (b, ((r <<< 1) ||| (if b then 1 else 0)) &&& BitVec.ofNat 16 (2 ^ n - 1))

/-- The phase advance round(f × 2^32 / f_s) of step i of s, with f on the geometric scale of
Table 10-5; frequencies in 0.1 Hz, DIV frames to a sample. -/
def sineStep (fa fb i s div : Nat) : Nat :=
  let n := s - 1
  bitSearch (fun x => (2 * x - 1) ^ n * 10000000 ^ n ≤ (2 * 2 ^ 32 * div) ^ n * (fa ^ (n - i) * fb ^ i)) 33 0

/-- The signal value of the sample to come and the generator after it; the amplitude is rounded into the injection
stage (Table 10-5). -/
def testSignal (s : State) : Dy × LoopTest :=
  let t := s.loop.test
  let ex := expOf s.loop.slot[t.slot].active[(0 : Fin 17)] (if field (reg s 0x130900) 7 6 = 2 then 4 else 0)
  let a : Dy := ⟨(coefVal (reg s 0x130904)).round ex, ex⟩
  let p1 := reg s 0x130908
  let p2 := reg s 0x13090C
  match field (reg s 0x130900) 5 4 with
  | 0 =>
    let n := field p1 31 24
    let per := field p1 23 16
    let (b, r) := if t.bitLeft = 0 then prbsStep n t.lfsr else (t.bitVal, t.lfsr)
    let left := (if t.bitLeft = 0 then per else t.bitLeft) - 1
    (if b then a else a.neg, { t with lfsr := r, bitVal := b, bitLeft := left })
  | 1 =>
    let fa := field p1 31 16
    let fb := field p1 15 0
    let steps := field p2 31 24
    let per := field p2 23 8
    if steps ≤ t.stepIdx then (Dy.zero, t)
    else
      let inc := sineStep fa fb t.stepIdx steps (field (loopCfg s t.slot) 9 0)
      let d : Dy := a.mul ⟨sinTurn t.phase.toNat, -64⟩
      let wraps := 2 ^ 32 ≤ t.phase.toNat + inc
      let periods := if wraps then t.stepCount + 1 else t.stepCount
      if per ≤ periods then
        (d, { t with phase := 0, stepIdx := t.stepIdx + 1, stepCount := 0 })
      else (d, { t with phase := t.phase + BitVec.ofNat 32 inc, stepCount := periods })
  | _ =>
    let delay := field p1 31 16
    (if t.recs.length < delay then Dy.zero else a, t)

/-! ## One sample (R250, R252, R257 to R264) -/

/-- The channels bound to a slot (R262); the registers of the second half of a paralleled pair are ignored
(R202). -/
def boundTo (s : State) (i : Fin 16) : List (Fin 32) :=
  (List.finRange 32).filter fun n =>
    leader s n == n && bit (och s n.val 0) 20 && field (och s n.val 0) 19 16 = i.val

/-- A conversion within its full scale (Table 09-7, R224). -/
def fullScale (top : Int) (fb : Int) : Int := max 0 (min fb top)

/-- The feedback at the trigger and FBERR (Table 10-1): `fb` is the latest conversion of an analogue
input or the latest current sample. -/
def feedback (s : State) (i : Fin 16) (fb : Int) : Int × Bool :=
  let cfg := loopCfg s i
  let n : Fin 16 := Fin.ofNat 16 (field cfg 26 22)
  match field cfg 21 20 with
  | 1 => (fullScale 4095 fb, false)
  | 2 =>
    (match sinType s n with
      | 1 => ((freqAt s.clk.tb.toNat s.sense.inp[n] : Nat), false)
      | 3 => (fullScale 25600 fb, false)
      | 4 => (fullScale 6144 fb, false)
      | 5 => (fullScale 12288 fb, false)
      | _ => (0, true))
  | _ => (0, false)

/-- The table index and length, and PHASE_LOST (R260). -/
def tableIndex (s : State) (i : Fin 16) (k : Word) : Nat × Nat × Bool :=
  let cfg := loopCfg s i
  if bit cfg 27 then
    let pair := field cfg 30 28
    let q := field (reg s (0x120200 + 4 * pair)) 15 0
    let a : Fin 16 := Fin.ofNat 16 (2 * pair)
    if q = 0 || pairWait s a then (0, 512, true)
    else (((s.sense.inp[a].pos.toInt % (q : Int)).toNat) * 512 / q, 512, false)
  else
    let tlen := field s.loop.slot[i].active[(12 : Fin 17)] 25 16
    let n := if tlen = 0 then 512 else tlen
    (k.toNat % n, n, false)

/-- What one sample computes. -/
structure Sample where
  slot : Slot
  sats : BitVec 5
  d : Int
  y : Int
  e : Int
  rc : Int
  u : Int
  limited : Bool

/-- The control law and the learning update of one sample (R257 to R261). `held` is the third
condition of R258. -/
def law (l : Slot) (fb : Int) (k n : Nat) (lost held : Bool) (point : Option Nat) (d : Dy) : Sample :=
  let b := l.active
  let ex (j : Nat) : Int := expOf b[(0 : Fin 17)] j
  let lawW := b[(1 : Fin 17)]
  let cf (j : Fin 17) : Dy := coefVal b[j]
  let inj := if point = some 2 then stage d (ex 4) else stage d (ex 0)
  let dIn : Dy := ⟨inj.1, ex 0⟩
  let y := stage ⟨fb, 0⟩ (ex 0)
  let r := stage (cf 16) (ex 0)
  let r' := if point = some 0 then stage ((⟨r.1, ex 0⟩ : Dy).add dIn) (ex 0) else r
  let e0 := (⟨r'.1, ex 0⟩ : Dy).sub ⟨y.1, ex 0⟩
  let e := stage (if point = some 1 then e0.add dIn else e0) (ex 0)
  let eD : Dy := ⟨e.1, ex 0⟩
  let x := if bit lawW 3 then stage (⟨-y.1, ex 0⟩ : Dy) (ex 0) else e
  let p := if bit lawW 0 then stage ((cf 2).mul eD) (ex 1) else (0, false)
  let uPrev : Dy := ⟨l.uPrev, ex 4⟩
  let ke := (cf 3).mul eD
  let umin := cf 13
  let umax := cf 14
  let umaxS := (stage umax (ex 4)).1
  let uminS := (stage umin (ex 4)).1
  let ihold := (l.uPrev = umaxS && 0 < ke.m) || (l.uPrev = uminS && ke.m < 0) || held
  let i := if bit lawW 1 && !ihold then stage ((⟨l.integ, ex 1⟩ : Dy).add ke) (ex 1) else (l.integ, false)
  let da := cf 5
  let dx := (⟨x.1, ex 0⟩ : Dy).sub ⟨l.xPrev, ex 0⟩
  let one : Dy := ⟨1, 0⟩
  let df := if bit lawW 2 then
      stage ((da.mul ⟨l.deriv, ex 1⟩).add (((one.sub da).mul (cf 4)).mul dx)) (ex 1)
    else (0, false)
  let upid := stage (((⟨p.1, ex 1⟩ : Dy).add (if bit lawW 1 then ⟨i.1, ex 1⟩ else Dy.zero)).add ⟨df.1, ex 1⟩) (ex 1)
  let uff := if bit lawW 4 then stage (((cf 6).mul ⟨r.1, ex 0⟩).add (cf 7)) (ex 2) else (0, false)
  let lead := field b[(12 : Fin 17)] 8 0
  let tab (j : Nat) : Int := look (fun _ => 0) l.table j
  let urc := if bit lawW 5 && !lost then tab ((k + lead) % n) else 0
  let dOut : Dy := if point = some 2 then ⟨inj.1, ex 4⟩ else Dy.zero
  let v := stage ((((⟨upid.1, ex 1⟩ : Dy).add ⟨uff.1, ex 2⟩).add ⟨urc, ex 3⟩).add dOut) (ex 4)
  let vD : Dy := ⟨v.1, ex 4⟩
  let rate := cf 15
  let v2 := if bit lawW 7 then
      stage (Dy.dmin (Dy.dmax vD (uPrev.sub rate)) (uPrev.add rate)) (ex 4) else v
  let u := stage (Dy.dmin (Dy.dmax ⟨v2.1, ex 4⟩ umin) umax) (ex 4)
  let learns := bit lawW 6 && !lost && !held && l.lastK != some k
  let nb := (⟨tab ((k + n - 1) % n), ex 3⟩ : Dy).add ⟨tab ((k + 1) % n), ex 3⟩
  let lv := stage (((cf 9).mul ⟨tab k, ex 3⟩).add ((cf 8).mul eD)) (ex 3)
  let tk := stage (((cf 10).mul ⟨lv.1, ex 3⟩).add ((cf 11).mul nb)) (ex 3)
  let table := if learns then store (fun _ => 0) l.table k tk.1 else l.table
  { slot := { l with integ := i.1, deriv := df.1, xPrev := x.1, uPrev := u.1, lastK := some k,
                     table := table, phaseLost := lost, out := coefWord u.1 (ex 4) }
    sats := satBit 0 (y.2 || r.2 || r'.2 || e.2 || x.2 || (inj.2 && point != some 2 && point != none)) |||
      satBit 1 (p.2 || i.2 || df.2 || upid.2) ||| satBit 2 uff.2 |||
      satBit 3 (learns && (lv.2 || tk.2)) ||| satBit 4 (v.2 || v2.2 || u.2 || (inj.2 && point = some 2))
    d := if point = none then 0 else inj.1, y := y.1, e := e.1, rc := urc, u := u.1
    limited := v.1 != u.1 }

/-- OFF_AT = round(u × PERIOD), limited to 32 bits (R262). -/
def offAtOf (u : Int) (e : Int) (period : Word) : Word :=
  let x := (⟨u * (period.toNat : Int), e⟩ : Dy).round 0
  if x < 0 then 0 else if 2 ^ 32 - 1 < x then 0xFFFFFFFF else BitVec.ofInt 32 x

/-- The slot writes OFF_AT of each bound channel, each with its own PERIOD (R262), while PD_PWM is ON. -/
def writeBound (i : Fin 16) (u e : Int) (s : State) : State :=
  if !domOn s 14 then s
  else (boundTo s i).foldl (fun s n =>
    setReg (0x100000 + 0x40 * n.val + 0x0C) (offAtOf u e (och s n.val 0x04)) s) s

/-- The tick of the slot's next trigger at or after TB (R250). -/
def nextTrigger (s : State) (i : Fin 16) : Nat :=
  let cfg := loopCfg s i
  let div := max (field cfg 9 0) 1
  let f := (s.clk.tb.toNat + 799) / 800
  let wait := (field cfg 19 10 + div - f % div) % div
  let t := (f + wait) * 800
  if findKey (200 + i.val) s.clk.marks = some t then t + div * 800 else t

/-- Loop samples stand still while their slot is held by its channels (R258): bound, and no bound
channel on or tripped. -/
def boundOff (s : State) (i : Fin 16) : Bool :=
  let bs := boundTo s i
  !bs.isEmpty && bs.all (fun n => ochState s n != 1 && ochState s n != 3)

/-- One record of the running capture (Table 10-6). -/
def capture (k : Word) (dly : Nat) (r : Sample) (s : State) : State :=
  let t := s.loop.test
  if t.running && t.recs.length < t.len then
    let rec' : CapRec :=
      { sample := k.setWidth 16
        flags := BitVec.ofNat 16 (dly % 8192 + 8192 * b2n (r.sats != 0) + 16384 * b2n r.limited +
          32768 * b2n r.slot.phaseLost)
        d := r.d, y := r.y, e := r.e, rc := r.rc, u := r.u }
    { s with loop := { s.loop with test := { t with
      recs := t.recs ++ [rec'], firstSample := if t.recs.isEmpty then k else t.firstSample,
      exps := if t.recs.isEmpty then r.slot.active[(0 : Fin 17)] else t.exps } } }
  else s

/-- LOOP_SAMPLE: at the slot's next trigger the pending cells and swap come first, then the law runs
if the slot is RUNNING (R250, R257, R264, R270, R272). -/
def loopSample (i : Fin 16) (fb : Int) (s : State) : State :=
  if !domOn s 16 then s
  else
    let t := nextTrigger s i
    let s := advanceTo t s
    let s := { s with clk := { s.clk with marks := putKey (200 + i.val) t s.clk.marks } }
    let k := loopSamp s i
    let s := if s.loop.slot[i].swapAt = some k then applyCells i (swapBanks i (applyCells i s))
      else applyCells i s
    if s.loop.slot[i].state != .running then s
    else
      let s := if field (loopCfg s i) 21 20 = 1 then
        takeSample (Fin.ofNat 32 (field (loopCfg s i) 26 22)) (BitVec.ofInt 12 (fullScale 4095 fb)) s else s
      let (y, fberr) := feedback s i fb
      let (idx, n, lost) := tableIndex s i k
      let mine := s.loop.test.running && s.loop.test.slot == i && s.loop.test.recs.length < s.loop.test.len
      let (d, test) := if mine then testSignal s else (Dy.zero, s.loop.test)
      let point := if mine then some (field (reg s 0x130900) 7 6) else none
      let r := law s.loop.slot[i] y idx n lost (boundOff s i) point d
      let work := 240 + (if bit s.loop.slot[i].active[(1 : Fin 17)] 5 then 55 else 0)
      let rest := s.loop.busy - t
      let dly := 1040 + work + rest
      let s := { s with loop := { s.loop with test := test, busy := max t s.loop.busy + work } }
      let s := setSlot i (fun l => { r.slot with
        fberr := fberr, dly := BitVec.ofNat 13 dly,
        maxDly := if l.maxDly.toNat < dly then BitVec.ofNat 13 dly else l.maxDly }) s
      let s := noteSat i r.sats s
      let s := writeBound i r.u (expOf r.slot.active[(0 : Fin 17)] 4) s
      if mine then capture k dly r s else s

def execLoopSample (slot : Fin 16) (fb : Int) (s : State) : Out := .next (loopSample slot fb s)

/-- LOOP_SWAP_ACT: at tick 0 of the named sample's frame the shadow becomes active, whatever the
slot's state (R272, R273). -/
def loopSwapAct (i : Fin 16) (s : State) : State :=
  match s.loop.slot[i].swapAt with
  | none => s
  | some k =>
    let cfg := loopCfg s i
    let ahead := (k - loopSamp s i).toNat
    let f := (s.clk.tb.toNat / 800 + max (field cfg 9 0) 1 - field cfg 19 10) / max (field cfg 9 0) 1
    let t := ((f + ahead - 1) * max (field cfg 9 0) 1 + field cfg 19 10) * 800
    swapBanks i (applyCells i (advanceTo t s))

def execLoopSwapAct (slot : Fin 16) (s : State) : Out := .next (loopSwapAct slot s)

/-- COEF_APPLY: the running computation has ended, and the accepted cells take effect (R270). -/
def execCoefApply (slot : Fin 16) (s : State) : Out := .next (applyCells slot s)

/-! ## Commands of LOOP_CMD (R265) -/

/-- The slots of a 16-bit mask. -/
def slotList (m : BitVec 16) : List (Fin 16) := (List.finRange 16).filter fun i => m.getLsbD i.val

/-- STOP (R265). -/
def loopStop (m : BitVec 16) (s : State) : State :=
  settleTest ((slotList m).foldl (fun s i => setSlot i (fun l => { l with state := .stopped }) s) s)

def execLoopStop (slots : BitVec 16) (s : State) : Out :=
  .next (if domOn s 16 then loopStop slots s else s)

/-- RUN of one slot: STOPPED becomes RUNNING, or FROZEN while a cause other than Clay holds (R265). -/
def runSlot (l : Slot) : Slot :=
  { l with state := if l.state = .stopped then (if l.fzStall || l.fzTach then .frozen else .running) else l.state }

/-- RUN, refused in Clay (R265). -/
def loopRun (m : BitVec 16) (s : State) : State :=
  if s.modes.clay then s else (slotList m).foldl (fun s i => setSlot i runSlot s) s

def execLoopRun (slots : BitVec 16) (s : State) : Out :=
  .next (if domOn s 16 then loopRun slots s else s)

/-- RESET of one slot: integrator, filter, history and table to zero; its state stays (R265). -/
def resetSlot (l : Slot) : Slot := { l with integ := 0, deriv := 0, xPrev := 0, uPrev := 0, table := [] }

def loopReset (m : BitVec 16) (s : State) : State :=
  (slotList m).foldl (fun s i => setSlot i resetSlot s) s

def execLoopReset (slots : BitVec 16) (s : State) : Out :=
  .next (if domOn s 16 then loopReset slots s else s)

/-! ## Test commands (R275, R276) -/

/-- LOOP_TGO.GO, with the status it is answered (R275). -/
def testGo (s : State) : State × Byte × Byte :=
  let cfg := reg s 0x130900
  let i : Fin 16 := Fin.ofNat 16 (field cfg 3 0)
  if s.modes.clay then (s, 0x11, 0x24)
  else if s.loop.slot[i].state != .running then (s, 0x11, 0)
  else if s.loop.test.running then (s, 0x40, 0x26)
  else
    let p1 := reg s 0x130908
    let seed : BitVec 16 := BitVec.ofNat 16 (field p1 15 0)
    ({ s with loop := { s.loop with test :=
        { slot := i, running := true, len := field cfg 22 8, lfsr := seed, started := true } } }, 0, 0)

def execLoopTestGo (s : State) : Out := .next (if domOn s 16 then (testGo s).1 else s)

/-- LOOP_TGO.ABORT ends a running test (R276). -/
def testAbort (s : State) : State :=
  if s.loop.test.running then
    { s with loop := { s.loop with test := { s.loop.test with running := false, aborted := true } } }
  else s

def execLoopTestAbort (s : State) : Out := .next (if domOn s 16 then testAbort s else s)

/-- CAPTURE_END: the capture holds its length and is DONE (R276). -/
def captureEnd (s : State) : State :=
  let t := s.loop.test
  if t.running && t.len ≤ t.recs.length then
    { s with loop := { s.loop with test := { t with running := false, done := true } } }
  else s

def execCaptureEnd (s : State) : Out := .next (captureEnd s)

/-- LOOP_CLR (Table 10-8). -/
def loopClr (i : Fin 16) (v : Word) (s : State) : State :=
  setSlot i (fun l => { l with
    sat := if bit v 0 then 0 else l.sat
    maxDly := if bit v 1 then 0 else l.maxDly
    satCnt := if bit v 1 then 0 else l.satCnt }) s

def execLoopClr (slot : Fin 16) (value : Word) (s : State) : Out :=
  .next (if domOn s 16 then loopClr slot value s else s)

/-! ## Coefficient cells at the field side (R256, R268, R273) -/

/-- A value lies in 0 ≤ x < 1, or ≤ 1. -/
def unitBelow (d : Dy) : Bool := decide (0 ≤ d.m) && !((⟨1, 0⟩ : Dy).le d)
def unitClosed (d : Dy) : Bool := decide (0 ≤ d.m) && d.le ⟨1, 0⟩

/-- A bank word within the limits of Table 10-3; RATE is judged with the LAW of its bank (R256). -/
def wordOk (lawW : Word) (i : Nat) (w : Word) : Bool :=
  match i with
  | 0 => field w 31 30 = 0
  | 1 => field w 31 8 = 0
  | 12 =>
    let t := field w 25 16
    field w 15 9 = 0 && field w 31 26 = 0 && (t = 0 || (2 ≤ t && t ≤ 512))
  | 5 => field w 31 26 = 0 && unitBelow (coefVal w)
  | 9 => field w 31 26 = 0 && unitClosed (coefVal w)
  | 15 => field w 31 26 = 0 && (!bit lawW 7 || 0 < (coefVal w).m)
  | _ => decide (i < 17) && field w 31 26 = 0

/-- The check of a coefficient cell and its status (R256, R268, R273). -/
def cellStatus (c : CoefCell) (s : State) : Byte :=
  let bank := if c.banked then s.loop.slot[c.slot].shadow else s.loop.slot[c.slot].active
  let bad := if c.swap then !c.words.isEmpty || c.first != 0
    else c.words.isEmpty || 4 < c.words.length || 17 < c.first.toNat + c.words.length ||
      c.words.zipIdx.any (fun w => !wordOk bank[(1 : Fin 17)] (c.first.toNat + w.2) w.1)
  if bad then 0x21
  else
    let d := (c.sample - loopSamp s c.slot).toNat
    if c.swap && (d < 2 || 2 ^ 31 < d) then 0x30
    else if !domOn s 16 then 0x13 else 0

/-- The slot is computing a sample: the work of its latest one is under way (R264, R270). -/
def computing (s : State) (i : Fin 16) : Bool :=
  let l := s.loop.slot[i]
  let work := 240 + (if bit l.active[(1 : Fin 17)] 5 then 55 else 0)
  match findKey (200 + i.val) s.clk.marks with
  | none => false
  | some t => l.state = .running && decide (t + l.dly.toNat - work ≤ s.clk.tb.toNat) &&
      decide (s.clk.tb.toNat < t + l.dly.toNat)

/-- An accepted LOOP_COEF cell: a repeated TAG gets its stored answer (R268). A swap replaces a pending one (R273);
words take effect at once, or wait for the running computation (R270). -/
def coefTaken (c : CoefCell) (s : State) : State :=
  match s.barr.coefTags.find? (fun t => t.1 == c.tag) with
  | some t => upCell (.coefAcks [(c.tag, t.2)]) s
  | none =>
    let st := cellStatus c s
    let s := { s with barr := { s.barr with coefTags := lastN 32 (s.barr.coefTags ++ [(c.tag, st)]) } }
    let s := if st != 0 then s
      else if c.swap then setSlot c.slot (fun l => { l with swapAt := some c.sample }) s
      else if computing s c.slot then setSlot c.slot (fun l => { l with cells := l.cells ++ [c] }) s
      else applyCell c (applyCells c.slot s)
    upCell (.coefAcks [(c.tag, st)]) s

/-- LOOP_COEF_CELL: the cell arrives at the field side. -/
def coefCell (c : CoefCell) (s : State) : State := onDown (.loopCoef c) (coefTaken c) s

def execLoopCoefCell (cell : CoefCell) (s : State) : Out := .next (coefCell cell s)

end Sys2Proof.Machine
end

