-- ==== Sys2Proof/Machine/Registers.lean ====
section
/-! DEFINITION. The register space (R143 to R147, R483): what every address is, which values it
refuses, what a read returns, and the write of a field register (R82, Table 03-7). -/

namespace Sys2Proof.Machine

/-- Access of a register. -/
inductive Acc where
  | rw | ro | wo
  deriving DecidableEq, Repr

/-- A defined register: access, the domains of Table 05-9 and its bits that are not reserved. -/
structure RegDef where
  acc : Acc
  doms : List (Fin 18)
  bits : Word := 0xFFFFFFFF
  deriving DecidableEq, Repr

/-! ## The register map (Tables 01-7, 02-5, 03-8, 04-8, 05-7, 11-12, 12-5, 12-6, 13-5, 14-6, 15-7,
17-6, 08-9, 08-10, 09-4, 09-5, 10-8) -/

def identReg (o : Nat) : Option RegDef :=
  match o with
  | 0x40 | 0x44 | 0x80 | 0x84 | 0x88 | 0x8C | 0x90 => some { acc := .ro, doms := [] }
  | 0x94 => some { acc := .wo, doms := [], bits := 0x1F }
  | _ => none

def clockReg (o : Nat) : Option RegDef :=
  match o with
  | 0x00 => some { acc := .rw, doms := [], bits := 0xF }
  | 0x14 => some { acc := .rw, doms := [], bits := 0xFFF }
  | _ => if o % 4 = 0 && o ≤ 0x34 then some { acc := .ro, doms := [] } else none

def barrierReg (o : Nat) : Option RegDef :=
  match o with
  | 0x00 => some { acc := .rw, doms := [1], bits := 0x1FF }
  | 0x1C => some { acc := .wo, doms := [1], bits := 0x7 }
  | _ => if o % 4 = 0 && o ≤ 0x24 then some { acc := .ro, doms := [1] } else none

def chainReg (o : Nat) : Option RegDef :=
  match o with
  | 0x00 => some { acc := .rw, doms := [11], bits := 0xF }
  | 0x04 => some { acc := .rw, doms := [11], bits := 0x1FFFF }
  | 0x08 => some { acc := .rw, doms := [11], bits := 0x7F }
  | 0x24 => some { acc := .wo, doms := [11], bits := 0x7 }
  | 0x2C => some { acc := .rw, doms := [11], bits := 0x1 }
  | _ => if o % 4 = 0 && o ≤ 0x28 then some { acc := .ro, doms := [11] } else none

/-- A word of a message object (Table 12-5). Objects 0 to 15 are read-only to REG_WRITE (R326). -/
def objectReg (d : Fin 18) (o : Nat) : Option RegDef :=
  let acc : Acc := if o / 0x80 < 16 then .ro else .rw
  match o % 0x80 with
  | 0x00 => some { acc := acc, doms := [d], bits := 0x1F }
  | 0x04 | 0x08 => some { acc := acc, doms := [d], bits := 0x1FFFFFFF }
  | 0x0C | 0x10 | 0x14 => some { acc := .ro, doms := [d] }
  | w => if 0x20 ≤ w && w < 0x60 && w % 4 = 0 then some { acc := .ro, doms := [d] } else none

def canRegDef (a : Bool) (d : Fin 18) (o : Nat) : Option RegDef :=
  if 0x4000 ≤ o && o < 0x8000 then objectReg d (o - 0x4000)
  else match o with
    | 0x000 => some { acc := .rw, doms := [d], bits := 0xFFFFFF1F }
    | 0x004 => some { acc := .rw, doms := [d] }
    | 0x008 => some { acc := .rw, doms := [d], bits := 0x03FFFFFF }
    | 0x00C | 0x010 | 0x014 | 0x018 | 0x01C => some { acc := .ro, doms := [d] }
    | 0x020 => some { acc := .rw, doms := [d], bits := 0x3FFFFFFF }
    | 0x024 => some { acc := .rw, doms := [d], bits := 0x1FFFFFFF }
    | 0x028 | 0x02C => some { acc := .rw, doms := [d] }
    | 0x030 => some { acc := .wo, doms := [d], bits := 0xF }
    | 0x040 => if a then some { acc := .rw, doms := [d], bits := 0x1FF } else none
    | 0x044 | 0x048 | 0x04C => if a then some { acc := .ro, doms := [d] } else none
    | _ => none

def serviceReg (o : Nat) : Option RegDef :=
  match o with
  | 0x0 => some { acc := .rw, doms := [10], bits := 0xF }
  | 0x4 | 0x8 => some { acc := .ro, doms := [10] }
  | 0xC => some { acc := .wo, doms := [10], bits := 0x3 }
  | _ => none

def gnssReg (o : Nat) : Option RegDef :=
  match o with
  | 0x00 => some { acc := .rw, doms := [5], bits := 0x001F1F7F }
  | 0x04 | 0x10 | 0x2C | 0x30 | 0x34 => some { acc := .ro, doms := [5] }
  | 0x08 => some { acc := .rw, doms := [5], bits := 0x001F7F3F }
  | 0x0C => some { acc := .rw, doms := [5], bits := 0x00003F1F }
  | 0x14 => some { acc := .rw, doms := [], bits := 0x7FF }
  | 0x18 => some { acc := .rw, doms := [], bits := 0x1FFFFFFF }
  | 0x1C | 0x20 => some { acc := .ro, doms := [] }
  | 0x24 => some { acc := .rw, doms := [5], bits := 0x7 }
  | 0x28 => some { acc := .rw, doms := [5] }
  | 0x38 => some { acc := .wo, doms := [5], bits := 0x3 }
  | _ => none

def powerReg (o : Nat) : Option RegDef :=
  match o with
  | 0x00 | 0x04 | 0x14 | 0x18 | 0x1C | 0x20 | 0x24 => some { acc := .ro, doms := [] }
  | 0x08 => some { acc := .rw, doms := [], bits := 0x001F007F }
  | 0x0C | 0x10 => some { acc := .rw, doms := [], bits := 0x3FFFF }
  | _ => none

def securityReg (o : Nat) : Option RegDef :=
  match o with
  | 0x00 | 0x08 | 0x0C | 0x10 => some { acc := .ro, doms := [] }
  | 0x04 => some { acc := .rw, doms := [], bits := 0x1 }
  | 0x14 => some { acc := .wo, doms := [], bits := 0x1 }
  | _ => none

def eventReg (o : Nat) : Option RegDef :=
  match o with
  | 0x00 | 0x04 | 0x08 | 0x24 | 0x28 => some { acc := .ro, doms := [1] }
  | 0x0C => some { acc := .wo, doms := [1], bits := 0x3 }
  | 0x20 => some { acc := .rw, doms := [1], bits := 0x00FFFFFF }
  | _ => none

def channelReg (o : Nat) : Option RegDef :=
  match o with
  | 0x00 => some { acc := .rw, doms := [14], bits := 0x001F1F3F }
  | 0x04 | 0x08 | 0x0C => some { acc := .rw, doms := [14] }
  | 0x10 => some { acc := .rw, doms := [14], bits := 0x1F1F }
  | 0x14 => some { acc := .rw, doms := [15] }
  | 0x18 => some { acc := .rw, doms := [15], bits := 0xFFFF }
  | 0x1C => some { acc := .rw, doms := [15], bits := 0x3F6 }
  | 0x20 => some { acc := .rw, doms := [15], bits := 0x00FFFFFF }
  | 0x24 => some { acc := .rw, doms := [15] }
  | _ => none

def outputReg (o : Nat) : Option RegDef :=
  if o < 0x800 then channelReg (o % 0x40)
  else if o < 0xA00 then
    (match o % 0x10 with
      | 0x0 | 0x4 | 0x8 => some { acc := .ro, doms := [15] }
      | 0xC => some { acc := .ro, doms := [14] }
      | _ => none)
  else if o < 0xA40 && o % 4 = 0 then some { acc := .rw, doms := [14], bits := 0xF }
  else if 0xB00 ≤ o && o < 0xB20 then
    (match o % 8 with
      | 0 => some { acc := .rw, doms := [15], bits := 0xFF03 }
      | 4 => some { acc := .rw, doms := [15] }
      | _ => none)
  else match o with
    | 0xB20 | 0xB24 => some { acc := .ro, doms := [15] }
    | 0xB28 => some { acc := .wo, doms := [15, 14], bits := 0x7 }
    | _ => none

def senseReg (o : Nat) : Option RegDef :=
  if o < 0x100 then
    (match o % 0x10 with
      | 0x0 => some { acc := .rw, doms := [17], bits := 0xFF0F }
      | 0x4 | 0x8 | 0xC => some { acc := .ro, doms := [17] }
      | _ => none)
  else if 0x200 ≤ o && o < 0x220 && o % 4 = 0 then some { acc := .rw, doms := [17], bits := 0xFFFF }
  else if o = 0x220 then some { acc := .wo, doms := [17], bits := 0xFFFF }
  else if 0x400 ≤ o && o < 0x440 then
    (match o % 0x20 with
      | 0x00 => some { acc := .rw, doms := [17], bits := 0xFF0F1F03 }
      | 0x04 => some { acc := .rw, doms := [17], bits := 0x00FFFFFF }
      | 0x08 => some { acc := .rw, doms := [17], bits := 0xFFFF }
      | 0x0C | 0x10 => some { acc := .rw, doms := [17] }
      | 0x14 => some { acc := .ro, doms := [17] }
      | _ => none)
  else none

def loopReg (o : Nat) : Option RegDef :=
  if o < 0x400 then
    (match o % 0x40 with
      | 0x00 => some { acc := .rw, doms := [16], bits := 0x7FFFFFFF }
      | 0x04 | 0x08 | 0x0C | 0x10 | 0x14 => some { acc := .ro, doms := [16] }
      | 0x18 => some { acc := .wo, doms := [16], bits := 0x3 }
      | _ => none)
  else if 0x1000 ≤ o && o < 0x2000 then
    (if o % 4 = 0 && o % 0x80 < 68 then some { acc := .ro, doms := [16] } else none)
  else if 0x2000 ≤ o && o < 0xA000 then (if o % 4 = 0 then some { acc := .ro, doms := [16] } else none)
  else match o with
    | 0x800 => some { acc := .wo, doms := [16], bits := 0x3FFFF }
    | 0x900 => some { acc := .rw, doms := [16], bits := 0x7FFFFF }
    | 0x904 => some { acc := .rw, doms := [16], bits := 0x03FFFFFF }
    | 0x908 | 0x90C => some { acc := .rw, doms := [16] }
    | 0x910 => some { acc := .wo, doms := [16], bits := 0x3 }
    | _ => none

def fieldPowerReg (o : Nat) : Option RegDef :=
  match o with
  | 0x00 => some { acc := .rw, doms := [], bits := 0x1F01 }
  | 0x04 => some { acc := .ro, doms := [] }
  | 0x10 => some { acc := .rw, doms := [15], bits := 0x7FF }
  | 0x14 => some { acc := .rw, doms := [15], bits := 0x003F3FFF }
  | 0x18 => some { acc := .ro, doms := [15] }
  | _ => if 0x100 ≤ o && o < 0x180 && o % 4 = 0 then some { acc := .rw, doms := [15], bits := 0xFF } else none

def fieldFaultReg (o : Nat) : Option RegDef :=
  match o with
  | 0x00 => some { acc := .ro, doms := [13] }
  | 0x04 => some { acc := .wo, doms := [13] }
  | 0x10 => some { acc := .rw, doms := [15] }
  | 0x14 | 0x18 => some { acc := .ro, doms := [15] }
  | 0x20 => some { acc := .wo, doms := [], bits := 0x3 }
  | 0x24 => some { acc := .ro, doms := [] }
  | 0x30 => some { acc := .ro, doms := [17] }
  | 0x34 => some { acc := .rw, doms := [17], bits := 0xFFFFFF0F }
  | _ => none

/-- The register at an address, if one is defined (R143). -/
def regDef (a : Nat) : Option RegDef :=
  let o := a % 0x10000
  match a / 0x10000 with
  | 0x00 => identReg o
  | 0x01 => clockReg o
  | 0x02 => barrierReg o
  | 0x03 => chainReg o
  | 0x04 => canRegDef true 8 o
  | 0x05 => canRegDef false 9 o
  | 0x06 => serviceReg o
  | 0x07 => gnssReg o
  | 0x08 => powerReg o
  | 0x09 => securityReg o
  | 0x0A => eventReg o
  | 0x10 => outputReg o
  | 0x11 => (match o with
      | 0 => some { acc := .rw, doms := [14], bits := 0x1 }
      | 4 => some { acc := .ro, doms := [14] }
      | _ => none)
  | 0x12 => senseReg o
  | 0x13 => loopReg o
  | 0x14 => fieldPowerReg o
  | 0x15 => fieldFaultReg o
  | _ => none

/-- Regions 0x10 to 0x15 lie on the field side (Table 05-6). -/
def isField (a : Nat) : Bool := 0x100000 ≤ a && a < 0x160000

/-! ## Reserved encodings (R7) -/

/-- CANx_NBT within R310: nominal rate 80 MHz over its quanta. -/
def nbtOk (v : Word) : Bool :=
  let brp := field v 8 0 + 1
  let t1 := field v 16 9 + 1
  let t2 := field v 23 17 + 1
  let sjw := field v 30 24 + 1
  let quanta := brp * (1 + t1 + t2)
  inRange 8 385 (1 + t1 + t2) && decide (sjw ≤ t1) && decide (sjw ≤ t2) && decide (80 ≤ quanta) &&
  (!bit v 31 || (decide (640 ≤ quanta) && decide (3 ≤ t1)))

/-- CANx_DBT within R312, against the nominal rate of CANx_NBT. -/
def dbtOk (nbt v : Word) : Bool :=
  let quanta := (field v 4 0 + 1) * (1 + (field v 9 5 + 1) + (field v 13 10 + 1))
  let nominal := (field nbt 8 0 + 1) * (1 + (field nbt 16 9 + 1) + (field nbt 23 17 + 1))
  decide (16 ≤ quanta) && decide (quanta ≤ nominal) && decide (field v 17 14 ≤ field v 13 10)

def canOk (s : State) (isA : Bool) (base o : Nat) (v : Word) : Bool :=
  match o with
  | 0x000 => decide (field v 1 0 ≤ 2) && (isA || field v 1 0 != 0) && field v 23 16 != 0 && inRange 1 60 (field v 31 24)
  | 0x004 => nbtOk v
  | 0x008 => dbtOk (reg s (base + 4)) v
  | 0x040 => decide (field v 7 0 ≤ 253)
  | _ => if 0x4000 ≤ o && o % 0x80 = 0 then decide (field v 1 0 ≤ 1) else true

/-- The period range of a channel mode (Table 08-2). -/
def periodOk (mode period : Nat) : Bool :=
  match mode with
  | 0 => period != 0
  | 2 => inRange 8000 800000 period
  | _ => inRange 4000000 800000000 period

/-- The least chop period of a slew setting (Table 08-1). -/
def slewMin (slew : Nat) : Nat := match slew with | 0 => 8000 | 1 => 32000 | _ => 128000

/-- The configuration of a channel as a whole (R203, R204, R212). -/
def channelOk (cfg period trip peak hold : Word) : Bool :=
  let m := field cfg 2 0
  let slew := field cfg 4 3
  decide (m ≤ 4) && slew != 3 && inRange 1 20 (field cfg 12 8) && periodOk m period.toNat &&
  (m != 2 || decide (slewMin slew ≤ period.toNat)) &&
  (m != 3 || (decide (slewMin slew ≤ field hold 31 8) && decide (field hold 7 0 ≤ field peak 7 0) &&
    decide (field peak 7 0 < field trip 7 0)))

/-- A value of a channel's register, with the channel's other registers as they are. -/
def channelValOk (s : State) (n o : Nat) (v : Word) : Bool :=
  let g (off : Nat) : Word := if off = o then v else och s n off
  let whole := channelOk (g 0) (g 4) (g 0x14) (g 0x20) (g 0x24)
  match o with
  | 0x00 | 0x04 => whole
  | 0x14 => inRange 5 240 (field v 7 0) && field v 23 16 != 0 && field v 31 24 != 0 && whole
  | 0x18 => v != 0
  | 0x1C => inRange 1 50 (field v 9 4)
  | 0x20 => inRange 5 240 (field v 7 0) && field v 23 8 != 0 && whole
  | 0x24 => inRange 5 240 (field v 7 0) && inRange 8000 800000 (field v 31 8) && whole
  | _ => true

/-- FAN_CFG with EN = 1 (R239). -/
def fanCfgOk (s : State) (j : Fin 2) (v : Word) : Bool :=
  let k : Fin 2 := Fin.ofNat 2 (j.val + 1)
  let tach : Fin 16 := Fin.ofNat 16 (field v 19 16)
  let drive := field v 12 8
  !bit v 0 || (sinType s tach = 1 && !bit (reg s (0x12040C + 0x20 * j.val)) drive &&
    !(fanEnabled s k && (field (fanCfg s k) 12 8 = drive || field (fanCfg s k) 19 16 = tach.val)))

/-- LOOP_CFG (R250, R266): FBSRC 1 takes a channel, FBSRC 2 an input. -/
def loopCfgOk (v : Word) : Bool :=
  inRange 20 1000 (field v 9 0) && decide (field v 19 10 < field v 9 0) && field v 21 20 != 3 &&
  (field v 21 20 != 2 || decide (field v 26 22 < 16))

/-- The value leaves no reserved encoding behind (R7). -/
def valueOk (s : State) (a : Nat) (v : Word) : Bool :=
  let o := a % 0x10000
  match a / 0x10000 with
  | 0x01 => if o = 0 then decide (field v 1 0 ≤ 1) else if o = 0x14 then inRange 1 3600 v.toNat else true
  | 0x02 => if o = 0 then inRange 10 500 v.toNat else true
  | 0x03 => if o = 8 then decide (v.toNat ≤ 100) else true
  | 0x04 => canOk s true 0x040000 o v
  | 0x05 => canOk s false 0x050000 o v
  | 0x07 =>
    (match o with
      | 0x00 => field v 1 0 != 3 && !(field v 1 0 != 0 && field v 3 2 = 0) && inRange 4 20 (field v 12 8) &&
          decide (field v 20 16 ≤ 30)
      | 0x08 => inRange 1 40 (field v 5 0) && inRange 1 100 (field v 14 8) && inRange 1 20 (field v 20 16)
      | 0x0C => inRange 1 20 (field v 4 0) && inRange 2 40 (field v 13 8)
      | 0x14 => inRange 1 500 (field v 8 0)
      | _ => true)
  | 0x08 => if o = 8 then inRange 3 20 (field v 20 16) else true
  | 0x0A => if o = 0x20 then decide (field v 7 0 + field v 15 8 + field v 23 16 ≤ 100) else true
  | 0x10 =>
    if o < 0x800 then channelValOk s (o / 0x40) (o % 0x40) v
    else if o < 0xA40 then
      !(bit v 3 && (v &&& 0x7) != 0)
    else true
  | 0x12 =>
    if o < 0x100 then decide (field v 2 0 ≤ 6) && (!bit v 3 || field v 2 0 = 1 || field v 2 0 = 2)
    else if 0x400 ≤ o then
      (match o % 0x20 with
        | 0x00 => fanCfgOk s (Fin.ofNat 2 ((o - 0x400) / 0x20)) v
        | 0x04 => field v 15 0 != 0 && inRange 5 200 (field v 23 16)
        | 0x08 => v != 0
        | _ => true)
    else true
  | 0x13 =>
    if o < 0x400 && o % 0x40 = 0 then loopCfgOk v
    else (match o with
      | 0x800 => field v 17 16 != 3
      | 0x900 => field v 5 4 != 3 && field v 7 6 != 3 && inRange 1 16384 (field v 22 8)
      | _ => true)
  | 0x14 =>
    (match o with
      | 0x00 => inRange 1 20 (field v 12 8)
      | 0x10 => inRange 20 1600 v.toNat
      | 0x14 => inRange 1 10000 (field v 13 0) && inRange 1 32 (field v 21 16)
      | _ => decide (v.toNat ≤ 240))
  | 0x15 =>
    (match o with
      | 0x10 => inRange 4 255 (field v 7 0) && inRange 1 255 (field v 15 8) && inRange 10 65535 (field v 31 16) &&
          decide (field v 15 8 < field v 7 0)
      | 0x20 => v != 3
      | 0x34 => inRange 1 60 (field v 15 8) && inRange 1 65535 (field v 31 16)
      | _ => true)
  | _ => true

/-! ## Reading -/

/-- A channel's status register (Table 08-9). -/
def channelStat (s : State) (n : Fin 32) (o : Nat) : Word :=
  match o with | 0x0 => ochStat s n | 0x4 => ochCur s n | 0x8 => ochTrips s n | _ => ochEdgeq s n

/-- A loop bank or table word (R278). -/
def bankRead (s : State) (o : Nat) : Word :=
  if o < 0x2000 then
    let l := s.loop.slot[(Fin.ofNat 16 ((o - 0x1000) / 0x100) : Fin 16)]
    let i : Fin 17 := Fin.ofNat 17 (o % 0x80 / 4)
    if o % 0x100 < 0x80 then l.active[i] else l.shadow[i]
  else tableWord s.loop.slot[(Fin.ofNat 16 ((o - 0x2000) / 0x800) : Fin 16)] (o % 0x800 / 4)

def loopRead (s : State) (o : Nat) : Word :=
  if 0x1000 ≤ o then bankRead s o
  else
    let i : Fin 16 := Fin.ofNat 16 (o / 0x40)
    match o % 0x40 with
    | 0x04 => loopStat s.loop.slot[i]
    | 0x08 => loopDly s.loop.slot[i]
    | 0x0C => s.loop.slot[i].out
    | 0x10 => loopSamp s i
    | 0x14 => (s.loop.slot[i].swapAt).getD 0
    | _ => reg s (0x130000 + o)

def canRead (p : CanPort) (s : State) (o : Nat) : Word :=
  if 0x4000 ≤ o then moWord (can p s).obj[(Fin.ofNat 128 ((o - 0x4000) / 0x80) : Fin 128)] (o % 0x80)
  else match o with
    | 0x00C => canStat p s
    | 0x010 => canErrcnt p s
    | 0x014 => canRingstat p s
    | 0x018 => canCnt p s
    | 0x01C => canErrs p s
    | 0x044 => canaAddr s
    | 0x048 => s.id.isoName.setWidth 32
    | 0x04C => (s.id.isoName >>> 32).setWidth 32
    | _ => canReg p s o

/-- PWRF_STAT (Table 14-6). -/
def pwrfStat (s : State) : Word := pack [(b2n s.pwr.fsupWake, 0), (b2n s.pwr.sin0Wake, 1)]

/-- The value of a read-only host register. -/
def hostRead (s : State) (a : Nat) : Word :=
  let o := a % 0x10000
  match a / 0x10000 with
  | 0x00 =>
    (match o with
      | 0x40 => idMode s | 0x44 => idClay s | 0x80 => pktWord s.pkt.chain | 0x84 => pktWord s.pkt.canA
      | 0x88 => pktWord s.pkt.canB | 0x8C => pktWord s.pkt.svc | _ => pktSched s)
  | 0x01 =>
    (match o with
      | 0x04 => tbStat s | 0x08 => s.clk.tb.setWidth 32 | 0x0C => s.clk.tbHi | 0x10 => s.clk.originId
      | 0x18 => tbAge s | 0x1C => s.clk.hopDly.setWidth 32 | 0x20 => s.clk.resid
      | 0x24 => s.clk.slew.setWidth 32 | 0x28 => s.clk.slewRem | 0x2C => s.clk.gpsWeek.setWidth 32
      | 0x30 => s.clk.gpsSec.setWidth 32 | _ => s.clk.refcnt)
  | 0x02 =>
    (match o with
      | 0x04 => barrStat s | 0x08 => s.barr.lat.setWidth 32 | 0x0C => barrHerr s | 0x10 => barrFerr s
      | 0x14 => barrLoss s | 0x18 => s.barr.tserr.setWidth 32 | 0x20 => s.barr.txCnt | _ => s.barr.rxCnt)
  | 0x03 =>
    (match o with
      | 0x0C => chAddr s | 0x10 => chHop s | 0x14 => chStat s | 0x18 => chBreak s
      | 0x1C => portErrWord s.chain.errUp | 0x20 => portErrWord s.chain.errDn | _ => chDup s)
  | 0x04 => canRead .a s o
  | 0x05 => canRead .b s o
  | 0x06 => if o = 4 then svcStat s else svcCnt s
  | 0x07 =>
    (match o with
      | 0x04 => gnssStat s | 0x10 => s.gnss.toff | 0x1C => s.gnss.tmark | 0x20 => s.gnss.tmark2
      | 0x2C => pack [(s.gnss.rtcmAcc.toNat, 0), (s.gnss.rtcmIgn.toNat, 16)]
      | 0x30 => s.gnss.rtcmBad.setWidth 32 | _ => gnssAnt s)
  | 0x08 =>
    (match o with
      | 0x00 => pwrState0 s | 0x04 => pwrState1 s | 0x14 => pwrWhy s | 0x18 => pwrTxn s
      | 0x1C => s.pwr.txnTime | 0x20 => pwrCnt s | _ => pwrBat s)
  | 0x09 =>
    (match o with | 0x00 => secStat s | 0x08 => dbgSess s | 0x0C => secCnt s | _ => secKeys s)
  | _ =>
    (match o with
      | 0x00 => evtHstat s | 0x04 => evtFstat s | 0x08 => s.ev.logNext | 0x24 => arnCstat s | _ => arnBstat s)

/-- The value of a read-only field register. -/
def fieldRead (s : State) (a : Nat) : Word :=
  let o := a % 0x10000
  match a / 0x10000 with
  | 0x10 =>
    if o < 0xA00 then channelStat s (Fin.ofNat 32 ((o - 0x800) / 0x10)) (o % 0x10)
    else if o = 0xB20 then s.out.tripActive.setWidth 32 else tripCntWord s
  | 0x11 => calStat s
  | 0x12 =>
    if 0x400 ≤ o then fanStat s.sense.fan[(Fin.ofNat 2 ((o - 0x400) / 0x20) : Fin 2)]
    else
      let n : Fin 16 := Fin.ofNat 16 (o / 0x10)
      (match o % 0x10 with | 0x4 => s.sense.inp[n].val | 0x8 => sinStat s n | _ => s.sense.inp[n].cnt)
  | 0x13 => loopRead s o
  | 0x14 => if o = 4 then pwrfStat s else fbStat s
  | _ =>
    (match o with
      | 0x00 => fevStat s | 0x14 => disMask s | 0x18 => disMaskoff s | 0x24 => fdiscStat s | _ => swpStat s)

/-- What a read returns: 0 for a write-only register (R144), and MODE 0 of GNSS_CTRL on a -B (R280). -/
def readReg (s : State) (a : Nat) : Word :=
  match regDef a with
  | none => 0
  | some d =>
    match d.acc with
    | .wo => 0
    | .rw =>
      if (a / 0x10000 = 4 || a / 0x10000 = 5) && 0x4000 ≤ a % 0x10000 then hostRead s a
      else if a = 0x070000 && s.id.variant = .b then reg s a &&& ~~~3#32
      else reg s a
    | .ro => if isField a then fieldRead s a else hostRead s a

/-! ## Checks of an access (R144, R146, R483) -/

/-- Step 10 of one register of an access: UNALIGNED, UNMAPPED, READ_ONLY, then reserved encodings; reserved
bits are ignored (R6). -/
def paramCheck (wr : Bool) (s : State) (a : Nat) (value mask : Word) : Option Ans :=
  if a % 4 != 0 then refuse 0x21 0x0D
  else match regDef a with
    | none => refuse 0x21 0x0E
    | some d =>
      if !wr then none
      else if d.acc = .ro then refuse 0x21 0x0F
      else
        if valueOk s a (merge (if d.acc = .wo then 0 else readReg s a) value mask &&& d.bits) then none
        else refuse 0x21 0

/-- The register's domains are ON (R483). -/
def domainCheck (s : State) (a : Nat) : Option Ans :=
  match regDef a with
  | none => none
  | some d => if d.doms.all (domOn s) then none else refuse 0x13 0

/-- Bits writable only in Clay, by address (R213, R217, R238, R239). -/
def clayBits (a : Nat) : Word :=
  if 0x100000 ≤ a && a < 0x100800 && a % 0x40 = 0 then 0x001F001F
  else if 0x100A00 ≤ a && a < 0x100A40 then 0xFFFFFFFF
  else if a = 0x110000 then 0x1
  else if 0x120000 ≤ a && a < 0x120100 && a % 0x10 = 0 then 0xF
  else if a = 0x120400 || a = 0x120420 then 0xFFFFFFFF
  else 0

/-- The running SPEED record names input n (R238). -/
def speedNames (s : State) (n : Nat) : Bool := (s.sect.speed.input.map (·.val)) == some n

/-- Step 12 of a field write: states (R217, R238, R239, R266, R445) and the budget (R449). -/
def fieldStateCheck (s : State) (a : Nat) (v : Word) : Option Ans :=
  let old := reg s a
  let slot : Fin 16 := Fin.ofNat 16 (a % 0x10000 / 0x40)
  let inp := a % 0x10000 / 0x10
  if !s.modes.clay && (old ^^^ v) &&& clayBits a != 0 then refuse 0x11 0
  else if 0x120000 ≤ a && a < 0x120100 && a % 0x10 = 0 && field old 2 0 = 1 && field v 2 0 != 1 &&
      (!(rolesOf s (Fin.ofNat 16 inp)).isEmpty || speedNames s inp) then refuse 0x11 0
  else if 0x130000 ≤ a && a < 0x130400 && a % 0x40 = 0 && v != old && !s.modes.clay &&
      s.loop.slot[slot].state != .stopped then refuse 0x11 0
  else if a = 0x130800 && field v 17 16 = 1 && s.modes.clay then refuse 0x11 0x24
  else if a = 0x130910 && bit v 0 then
    (let r := testGo s
     if r.2.1 = 0 then none else refuse r.2.1 r.2.2)
  else if a = 0x150020 && bit v 1 && !mayClose s then refuse 0x11 0
  else if a = 0x140010 && v.toNat < grantedSum s then refuse 0x10 0
  else if 0x140100 ≤ a && a < 0x140180 then
    let n : Fin 32 := Fin.ofNat 32 ((a - 0x140100) / 4)
    let c := s.out.ch[n]
    if c.placed && c.grant = .granted && mayEnergise s n && claimOf s n = field old 7 0 &&
        budget s < grantedSum s - claimOf s n + v.toNat && field old 7 0 < v.toNat
    then refuse 0x10 0 else none
  else none

/-! ## The write of a field register -/

/-- FEV_CLOSE: the named field record closes at the field (R436). -/
def closeFieldRec (seq : BitVec 31) (s : State) : State :=
  let s := { s with ev := { s.ev with
    field := s.ev.field.map fun r => if r.seq = seq then { r with opened := false } else r } }
  settleCritical (match s.ev.field.find? (fun r => r.seq == seq) with
    | some r => sendEvent r s
    | none => s)

/-- LOOP_CMD: STOP, RUN or RESET (R265). -/
def loopCmd (v : Word) (s : State) : State :=
  let m := v.setWidth 16
  match field v 17 16 with
  | 0 => loopStop m s
  | 1 => loopRun m s
  | _ => loopReset m s

/-- The write-only field registers. -/
def fieldCommand (a : Nat) (v : Word) (s : State) : State :=
  let o := a % 0x10000
  match a / 0x10000 with
  | 0x10 =>
    let clear (c : Chan) : Chan := { c with
      tripPeriods := if bit v 0 then 0 else c.tripPeriods
      shorts := if bit v 0 then 0 else c.shorts
      held := if bit v 2 then 0 else c.held }
    { s with out := { s.out with
        ch := vmap clear s.out.ch
        tripCnt := if bit v 1 then Vector.replicate 4 0 else s.out.tripCnt } }
  | 0x12 => sinCntclr v s
  | 0x13 =>
    if o = 0x800 then loopCmd v s
    else if o = 0x910 then (if bit v 0 then (testGo s).1 else if bit v 1 then testAbort s else s)
    else loopClr (Fin.ofNat 16 (o / 0x40)) v s
  | _ =>
    if o = 4 then closeFieldRec (v.setWidth 31) s
    else if bit v 0 then openDisc 2 s else if bit v 1 then closeDisc s else s

/-- The whole write of a field register, its value merged and checked. -/
def fieldPut (a : Nat) (v : Word) (s : State) : State :=
  match regDef a with
  | none => s
  | some d =>
    if d.acc = .wo then fieldCommand a v s
    else
      let old := reg s a
      let s := setReg a v s
      if 0x120000 ≤ a && a < 0x120100 then sinRewritten (Fin.ofNat 16 ((a - 0x120000) / 0x10)) old s
      else if a = 0x120400 then fanRewritten 0 old s
      else if a = 0x120420 then fanRewritten 1 old s
      else s

/-- The value a masked write would leave; reserved bits are ignored (R6). -/
def merged (s : State) (a : Nat) (value mask : Word) : Word :=
  match regDef a with
  | some d => merge (if d.acc = .wo then 0 else readReg s a) value mask &&& d.bits
  | none => 0

/-- The field's answer to an unscheduled write, in the order of R82: none where it is done. -/
def fieldWriteCheck (s : State) (a : Nat) (value mask : Word) : Option Ans :=
  paramCheck true s a value mask <|> domainCheck s a <|> fieldStateCheck s a (merged s a value mask)

/-- A field write at a frame boundary: its answer and effect (R82). -/
def fieldWrite (a : Nat) (value mask : Word) (s : State) : State × Ans :=
  match fieldWriteCheck s a value mask with
  | some r => (s, r)
  | none => (fieldPut a (merged s a value mask) s, {})

/-- A register read at the field side: PWRF_STAT is cleared by the first read after link-up
(Table 14-6). -/
def fieldReadAct (a : Nat) (s : State) : State :=
  if a = 0x140004 && !s.pwr.pwrfRead then
    { s with pwr := { s.pwr with fsupWake := false, sin0Wake := false, pwrfRead := true } }
  else s

def execPwrfStatRead (s : State) : Out := .next (if linkUp s then fieldReadAct 0x140004 s else s)

def execFevClose (id : Word) (s : State) : Out := .next (if domOn s 13 then closeFieldRec (id.setWidth 31) s else s)

end Sys2Proof.Machine
end

