-- ==== Sys2Proof/Machine/FieldActs.lean ====
section
/-! DEFINITION. The field part of each command of flag F (R154): what the field side does when the cell that
carries it is accepted, or at its APPLY_AT (Tables 06-7, 06-9 and 06-10; R165 to R167, R247, R249, R277, R443,
R446 to R448). -/

namespace Sys2Proof.Machine

/-- Field domains that must be ON (Table 03-7). -/
def needDoms (ds : List (Fin 18)) (s : State) : Option Ans := if ds.all (domOn s) then none else refuse 0x13 0

/-- Act unless a check answers. -/
def orElse (c : Option Ans) (s : State) (f : State → State × Ans) : State × Ans :=
  match c with
  | some a => (s, a)
  | none => f s

/-- A running sweep holds a channel of the mask (R452). -/
def sweepHolds (mask : Word) (s : State) : Bool :=
  match s.out.sweep with
  | some w => w.state = .running && (w.mask &&& mask) != 0
  | none => false

/-! ## Outputs -/

def maskBytes (m : SetMasks) : List Byte := be 4 m.granted.toNat ++ be 4 m.staggered.toNat ++ be 4 m.refused.toNat

/-- How many drivers wait for the stagger window. -/
def staggeredCount (s : State) : Nat :=
  ((List.finRange 32).filter fun d => s.out.ch[d].placed && s.out.ch[d].grant == .staggered).length

/-- OCH_SET (R165, R443, R446, R448). -/
def ochSetField (b : List Byte) (s : State) : State × Ans :=
  let mask := wordAt b 0
  let action := (byteAt b 4).toNat
  orElse ((if s.modes.clay then refuse 0x11 0x24 else none) <|>
      (if sweepHolds mask s then refuse 0x11 0x30 else none) <|> needDoms [14, 15] s) s fun s =>
    let bad := action = 0 && contradicted mask s
    let (m, s) := setOutputs mask action s
    if bad then (s, { status := 0x41, data := maskBytes m })
    else if m.refused != 0 then (s, { status := 0x10, data := maskBytes m })
    else if m.staggered != 0 then
      let t := ticketFrame (stagN s) (field (reg s 0x140014) 13 0) (staggeredCount s) s.out.recent (now s + 1)
      (s, { status := 0x02, data := be 6 t.toNat ++ maskBytes m })
    else (s, { data := maskBytes m })

/-- OCH_TIMING: the four timing registers, in force from each channel's next period (R167, R211). -/
def ochTimingField (b : List Byte) (s : State) : State × Ans :=
  orElse (needDoms [14] s) s fun s =>
    ((maskList (wordAt b 0)).foldl (fun s n =>
      let a := 0x100000 + 0x40 * n.val
      setReg (a + 0x10) (pack [((byteAt b 12).toNat, 0), ((byteAt b 17).toNat, 8)])
        (setReg (a + 0x0C) (wordAt b 13) (setReg (a + 0x08) (wordAt b 8) (setReg (a + 0x04) (wordAt b 4) s)))) s, {})

/-- A channel's latch, trip counter and trip in force go, and its gate is off; a command still on, by an override,
acts from this frame (R167). -/
def clearChannel (n : Fin 32) (s : State) : State :=
  let s := setGate n false (setCh n (fun c =>
    { c with latched := false, trips := 0, clean := 0, tripped := false, retryFrom := none }) s)
  if driverCmd s n then driverStart n s else s

/-- OCH_CLEAR; the reply names the channels that were latched (R167). -/
def ochClearField (b : List Byte) (s : State) : State × Ans :=
  let mask := wordAt b 0
  orElse (needDoms [14, 15] s) s fun s =>
    let was := maskOf (fun n => bit mask n && s.out.ch[Fin.ofNat 32 n].latched) 32
    ((maskList mask).foldl (fun s n => clearChannel n s) s, { data := be 4 was.toNat })

/-- Four bytes of OCH_STATUS for a channel (Table 06-7, R485). -/
def statusBytes (s : State) (n : Fin 32) : List Byte :=
  let c := s.out.ch[n]
  [BitVec.ofNat 8 (ochState s n + 8 * grantCode c.grant), c.trips] ++ be 2 c.mean.toNat

/-- Section edges the field side discarded in Clay are CUT (Table 07-5). -/
def cutEdges (es : List Edge) (s : State) : State :=
  let hs := s.sect.handed.filter fun h => es.contains h.edge
  hs.foldl (fun s h => asApplied (deadEdge h.pred 4) s)
    { s with sect := { s.sect with handed := s.sect.handed.filter (fun h => !es.contains h.edge) } }

/-- A cell less the edges of the mask's channels. -/
def lessEdges (mask : Word) (c : Cell) : Cell :=
  match c with
  | .schedEdge t es => .schedEdge t (es.filter fun e => !bit mask e.ch.val)
  | c => c

/-- The pending edges of a mask's channels go: those in the queues, those the host holds and those that cross the
barrier (R167). -/
def dropEdges (mask : Word) (s : State) : State :=
  let mine (e : Edge) : Bool := bit mask e.ch.val
  let gone := ((maskList mask).flatMap fun n => s.out.ch[n].queue) ++ s.barr.heldEdges.filter mine ++
    (s.barr.batches.flatMap (·.edges)).filter mine
  let s := { s with
    out := { s.out with ch := vmapIdx (fun n c => if bit mask n.val then { c with queue := [] } else c) s.out.ch }
    barr := { s.barr with
      heldEdges := s.barr.heldEdges.filter (fun e => !mine e)
      batches := s.barr.batches.map (fun b => { b with edges := b.edges.filter (fun e => !mine e) })
      rg6 := s.barr.rg6.map (fun x => { x with cell := lessEdges mask x.cell })
      rg6Held := s.barr.rg6Held.map (lessEdges mask) } }
  cutEdges gone s

/-- Discard the pending edges, the override and the gate of a mask's channels (R167). -/
def flushChannels (mask : Word) (s : State) : State :=
  (maskList mask).foldl (fun s n => setGate n false (setOverride n .none s)) (dropEdges mask s)

/-- OCH_FLUSH (R167, R443). -/
def ochFlushField (b : List Byte) (s : State) : State × Ans :=
  let mask := wordAt b 0
  orElse (needDoms [14] s) s fun s =>
    let bad := contradicted mask s
    (flushChannels mask s, { status := if bad then 0x41 else 0 })

/-! ## Sense inputs, fans and loops -/

/-- SIN_READ (R249). -/
def sinReadField (s : State) : State × Ans :=
  orElse (needDoms [17] s) s fun s =>
    let input (n : Fin 16) : List Byte := be 4 s.sense.inp[n].val.toNat ++ [BitVec.ofNat 8 (sinStatus s n)]
    (s, { data := (List.finRange 16).flatMap input })

/-- FAN_RESTART of the enabled role whose DRIVE channel is named (R247). -/
def fanRestartField (b : List Byte) (s : State) : State × Ans :=
  orElse (needDoms [17] s) s fun s =>
    match (List.finRange 2).find? (fun j => fanEnabled s j && (fanDrive s j).val == (byteAt b 0).toNat) with
    | none => (s, { status := 0x11, detail := 0x37 })
    | some j => (restartFan j s, {})

/-- One capture record (Table 10-6). -/
def capBytes (r : CapRec) : List Byte :=
  let m (x : Int) : List Byte := be 3 (satInt 24 x).toNat
  be 2 r.sample.toNat ++ be 2 r.flags.toNat ++ m r.d ++ m r.y ++ m r.e ++ m r.rc ++ m r.u ++ [0]

/-- The status of LOOP_READ (Table 10-7). -/
def loopStatus (s : State) (i : Fin 16) : List Byte :=
  let t := s.loop.test
  be 4 (loopStat s.loop.slot[i]).toNat ++ be 4 (loopSamp s i).toNat ++ be 4 s.loop.slot[i].out.toNat ++
  be 4 (loopDly s.loop.slot[i]).toNat ++
  be 4 (pack [(t.recs.length, 0), (b2n t.running, 16), (b2n t.done, 17), (b2n t.aborted, 18), (t.slot.val, 24)]).toNat ++
  be 4 t.firstSample.toNat ++ be 4 t.exps.toNat

/-- LOOP_READ: the status of a slot, or records of its capture from record k on (R277). -/
def loopReadField (b : List Byte) (s : State) : State × Ans :=
  let i : Fin 16 := Fin.ofNat 16 (byteAt b 0).toNat
  orElse (needDoms [16] s) s fun s =>
    if byteAt b 1 == 0 then (s, { data := loopStatus s i })
    else
      let k := beAt b 2 4
      if s.loop.test.slot != i || s.loop.test.len = 0 then (s, { status := 0x21, detail := 0x0B })
      else if s.loop.test.recs.length ≤ k then (s, { status := 0x21 })
      else (s, { data := be 4 k ++ ((s.loop.test.recs.drop k).take 176 |>.flatMap capBytes) })

/-! ## Sweeps -/

/-- SWEEP_ABORT: the named sweep ends, if the field side holds it (R453). -/
def sweepAbortField (sid : Nat) (s : State) : State :=
  if s.out.sweep.any (fun w => w.sweepId.toNat = sid) then abortSweep 5 s else s

/-! ## The field part of a command, its status and data -/

/-- The loader's answer to the host's first read after link-up: LOADED and FIMG_DIGEST (R75, R407). -/
def loaderRead (s : State) : State × Ans :=
  (s, { data := BitVec.ofNat 8 (b2n s.fw.fimgLoaded) :: be 32 s.fw.fimgDigest.toNat })

/-- The access of the host to the loader, whose registers the spec gives no address (R407; log entry 13). -/
def loaderOp : FieldOp := { opcode := 0x80, params := [] }

/-- The field part of a command acts. -/
def fieldPart (o : FieldOp) (s : State) : State × Ans :=
  match o.opcode.toNat with
  | 0x20 => ochSetField o.params s
  | 0x21 => ochTimingField o.params s
  | 0x23 => ochClearField o.params s
  | 0x24 => orElse (needDoms [15] s) s fun s => (s, { data := (List.finRange 32).flatMap (statusBytes s) })
  | 0x25 => ochFlushField o.params s
  | 0x38 => sinReadField s
  | 0x39 => fanRestartField o.params s
  | 0x5C => (sweepAbortField (beAt o.params 0 2) s, {})
  | 0x80 => loaderRead s
  | _ => loopReadField o.params s

/-- The words that carry an answer's data: its length, then its bytes (log entry 13). -/
def dataWords (bs : List Byte) : List Word :=
  BitVec.ofNat 32 bs.length :: (chunks 4 bs.length bs).map fun p => wordAt (p ++ [0, 0, 0]) 0

/-- The bytes that such words carry. -/
def wordData (ws : List Word) : List Byte :=
  match ws with
  | [] => []
  | n :: ws => (ws.flatMap fun w => be 4 w.toNat).take n.toNat

end Sys2Proof.Machine
end

