-- ==== Sys2Proof/Machine/Link.lean ====
section
/-! DEFINITION. What ends with the barrier link (R77, R84, R363), and Clay cause 2. -/

namespace Sys2Proof.Machine

/-- A request whose field access is outstanding at the loss is answered LOST_IN_FLIGHT; a REG_WRITE names the
registers written (R84, R145). A scheduled one was answered when it was accepted, and what never reached the field is
reported at its APPLY_AT (R141). -/
def loseTxn (t : RegTxn) (s : State) : State :=
  match t.why with
  | .request q =>
    if t.sched then s
    else reply q { status := 0x11, detail := 0x02
                   data := if q.pkt.opcode = 0x7B then [BitVec.ofNat 8 t.done] else [] } s
  | .digest => s
  | .configure => { s with fw := { s.fw with cfgLeft := t.puts ++ s.fw.cfgLeft } }
  | .own => s

/-- The bank words of the node's own coefficient cells, still to be configured. -/
def ownBankWords (s : State) : List RegPut :=
  (s.barr.coefs.filter fun r => r.q.via = .planner).flatMap fun r => r.cells.map fun c =>
    { addr := BitVec.ofNat 24 (0x131000 + 0x100 * c.cell.slot.val + 4 * c.cell.first.toNat)
      value := c.cell.words.headD 0, mask := 0xFFFFFFFF }

/-- The link goes down: outstanding accesses end, cells of the link are gone, the host lanes stand
static and the field clock stops with them (R77, R84; log entry 15). -/
def dropLink (s : State) : State :=
  let txns := s.barr.txns
  let coefs := s.barr.coefs
  let s := { s with fw := { s.fw with cfgLeft := ownBankWords s ++ s.fw.cfgLeft } }
  let s := { s with barr := { s.barr with
    link := .down, static := true, fieldClock := false, replicaLoaded := false, safe := [], rg6 := [], rg6Held := [], rg7 := [],
    txns := [], coefs := [], batches := [], supervise := false } }
  let s := txns.foldl (fun s t => loseTxn t s) s
  coefs.foldl (fun s c => reply c.q { status := 0x11, detail := 0x02 } s) s

/-- A stop of the barrier that is no declared loss: the planned stop of R363 and the stop of a cold
relock; the host sets cause 2 (R77). -/
def stopLink (s : State) : State := enterClay 2 (dropLink s)

/-! ## Levels in force (Table 15-2, R391) -/

/-- The level in force that the lifecycle gives at reset and whenever MCLK stops (Table 15-2). -/
def lifeLevel (s : State) : Fin 5 := match s.sec.life with | .opened => 4 | _ => 0

/-- F-core resumes: cause 0 is released, and the field side stays in Clay (R398). -/
def resumeF (s : State) : State :=
  if s.sec.fHalt then liftCause 0 { s with sec := { s.sec with fHalt := false } } else s

/-- H-core resumes, and drains the intake rings (R399, R325). -/
def resumeH (s : State) : State :=
  if s.sec.hHalt then { s with
    sec := { s.sec with hHalt := false }, canA := { s.canA with ring := [] }, canB := { s.canB with ring := [] } }
  else s

/-- The level in force becomes l. When it falls, halts it does not permit are released, attaches beyond
it are detached, and one NOTE is raised (R391). -/
def setLevel (l : Fin 5) (s : State) : State :=
  let falls := decide (l < s.sec.level)
  let s := { s with sec := { s.sec with level := l, session := none } }
  if !falls then s
  else
    let s := if l < 2 then resumeF s else s
    let s := if l < 3 then resumeH s else s
    note .host 0x0903 0 0xFF [] { s with sec := { s.sec with attach := s.sec.attach.filter fun a => a.2 ≤ l } }

end Sys2Proof.Machine
end

