-- ==== Sys2Proof/Machine/Timebase.lean ====
section
/-! DEFINITION. The timebase (02): reference selection, cold relock, alignment, origin steps and
holdover. -/

namespace Sys2Proof.Machine

/-! ## Reference selection (R42 to R46, Table 02-2) -/

/-- The UP port gives a word clock: a node, or a host that declares itself a clock source. -/
def upClocked (s : State) : Bool :=
  s.chain.upLock && (s.chain.upPartner = .node || s.chain.upPartner = .hostClk)

/-- The UP word clock is the reference: REFSEL is AUTO (R42, R43). -/
def followsUp (s : State) : Bool := upClocked s && field (reg s 0x010000) 1 0 = 0

/-- GNSS steers the TCXO of a head (Table 02-2). "Fix" is read as valid GNSS time, TIMEVALID of R288: a solution
too uncertain for time steers nothing; and Table 02-2 covers REFSEL = AUTO only, so that GNSS also steers a head
under REFSEL = TCXO is the model's choice (DESIGN CHOICE, log entry 37). -/
def gnssSteers (s : State) : Bool :=
  s.id.variant = .g2 && s.gnss.timeValid && bit (reg s 0x010000) 2 && isHead s && !upClocked s

/-- A node that loses the reference it followed holds its frequency (R56, R57). Continuous lock counts every epoch
with QUAL = LOCKED, across changes of reference, and starts again at a holdover entry (DESIGN CHOICE, log entry
38). -/
def enterHoldover (s : State) : State :=
  note .host 0x0101 0 0xFF [] { s with clk := { s.clk with
    ref := .tcxo, qual := .holdover, holdSecs := 0, holdShort := decide (s.clk.lockMins.toNat < 10)
    lockSecs := 0, lockMins := 0 } }

/-- The reference and quality of a node that follows `r`. -/
def follow (r : TbRef) (s : State) : State :=
  { s with clk := { s.clk with ref := r, qual := .locked, holdSecs := 0, holdShort := false } }

/-- A reference change (R42, R45): MCLK neither stops nor steps. Leaving an UP word clock that is still there, by
REFSEL, loses no reference, so it is no holdover (R42). -/
def chooseRef (s : State) : State :=
  if !clockOn s then s
  else if followsUp s then follow .chainUp s
  else if s.clk.ref = .chainUp then (if upClocked s then follow .tcxo s else enterHoldover s)
  else if gnssSteers s then follow .gnss s
  else if s.clk.ref = .gnss then
    (if bit (reg s 0x010000) 2 then enterHoldover s else follow .tcxo s)
  else s

/-- A head that has no aligned upstream starts a timebase: a fresh identifier, origin FREE, and the
count goes on (R36, R49). -/
def startTimebase (s : State) : State :=
  draw { s with clk := { s.clk with
    originId := Config.freeWord s.free, originGps := false, gpsWeek := 0, gpsSec := 0, gpsKnown := false
    valid := true, window := true, announced := none, stepOrg := none } }

/-- A node that is HEAD without a valid timebase and without an upstream clock starts one
(R36, R49). -/
def ensureTimebase (s : State) : State :=
  if clockOn s && s.modes.booted && isHead s && !upClocked s && !s.clk.valid then startTimebase s else s

/-! ## Steps (R35, R39, R53) -/

/-- An instant held as a tick count keeps its distance from TB across a step. -/
def shift (d : Int) (t : Nat) : Nat := (t + d).toNat

/-- The instants of the barrier, the chain and the session move with a step of TB. -/
def shiftInstants (d : Int) (s : State) : State :=
  let q (x : Queued) : Queued := { x with since := shift d x.since }
  let f (x : OwnFrame) : OwnFrame := { x with since := shift d x.since }
  { s with
    clk := { s.clk with tb := s.clk.tb + BitVec.ofInt 64 d, echoAt := s.clk.echoAt.map (shift d) }
    barr := { s.barr with
      downSlot := shift d s.barr.downSlot, upSlot := shift d s.barr.upSlot
      rg6 := s.barr.rg6.map q, rg7 := s.barr.rg7.map q }
    chain := { s.chain with
      upBusyTo := shift d s.chain.upBusyTo, dnBusyTo := shift d s.chain.dnBusyTo
      rg5 := s.chain.rg5.map f, rg5Held := s.chain.rg5Held.map f }
    sec := { s.sec with sessEnd := shift d s.sec.sessEnd } }

/-- TB steps by d ticks: the pending scheduled commands go, and WARN TB_STEP carries the step and
how many went (R39, R53, R484). -/
def stepTb (d : Int) (s : State) : State :=
  let p (c : SchedCmd) : Bool := c.q.pkt.opcode != 0x02
  let n := (s.pkt.sched.filter p).length
  let s := discardSched p s
  note .host 0x0104 1 0xFF (be 6 (satInt 48 d).toNat ++ be 2 (min n 65535)) (shiftInstants d s)

/-- Ticks from TB to the edge of the epoch whose number has the low 32 bits e. -/
def toEpoch (s : State) (e : Word) : Int :=
  let cur := s.clk.tb.toNat / ticksPerEpoch
  (((cur : Int) + (e - BitVec.ofNat 32 cur).toInt) * ticksPerEpoch) - s.clk.tb.toNat

/-- GPS seconds since the GPS epoch at TB = 0 once the origin has moved by d ticks, from a solution taken before:
the frame of the solution lies at TB + d then (R37, R38). -/
def gpsAtZero (s : State) (v : GnssSol) (d : Int) : Nat :=
  (((v.gpsTime : Int) - (tickAt v.frame 0 s + d) * 125 + 50000000000) / 100000000000).toNat

/-- The head sets TB_GPSORG at its origin step, to what it had computed when it announced it (R37). -/
def setGpsOrigin (s : State) : State :=
  match s.clk.stepOrg with
  | some t => { s with clk := { s.clk with
      gpsWeek := BitVec.ofNat 16 (t / 604800), gpsSec := BitVec.ofNat 20 (t % 604800), gpsKnown := true, stepOrg := none } }
  | none => s

/-- ORIGIN_STEP: at the announced edge the origin moves by D, scheduled commands go, a field side out
of Clay enters it with cause 3, and the origin is GPS (R38, R39). An island head performs none (R61). -/
def originStep (s : State) : State :=
  match s.clk.announced with
  | none => s
  | some a =>
    if !clockOn s || islandHead s then s
    else
      let s := advanceTo (s.clk.tb.toNat + (toEpoch s a.epoch).toNat) s
      let s := stepTb a.d.toInt { s with clk := { s.clk with announced := none } }
      let s := if s.modes.clay then s else hostClay 3 s
      let s := { s with clk := { s.clk with originGps := true } }
      if isHead s && !upClocked s then setGpsOrigin s else s

def execOriginStep (s : State) : Out := .next (originStep s)

/-- The sub-second misalignment D of TB against GPS time at the latest solution, |D| ≤ 0.5 s
(R38). -/
def misalignment (s : State) (v : GnssSol) : Int :=
  let gps := (v.gpsTime % 100000000000) / 125
  let own := tickAt v.frame 0 s % ticksPerEpoch
  let d : Int := ((gps : Int) - own) % ticksPerEpoch
  if d ≤ 400000000 then d else d - ticksPerEpoch

/-! ## TIME frames (Table 04-3, R52, R53, R100) -/

/-- The 32 bytes of a TIME frame. -/
def timeBytes (i : TimeInfo) : List Byte :=
  be 8 i.tbTx.toNat ++ be 4 i.corr.toNat ++ be 4 i.originId.toNat ++
  [BitVec.ofNat 8 (b2n i.originGps + 2 * i.qual.toNat + 8 * b2n i.island + 16 * b2n i.step + 32 * (i.resv.toNat / 2)),
   BitVec.ofNat 8 (i.policy.toNat + 128 * (i.resv.toNat % 2))] ++ be 6 i.breakFrame.toNat ++ be 4 i.w1.toNat ++ be 4 i.w2.toNat

/-- A frame's header fields as they stand in it (Table 04-1). -/
def withHdr (h : FrameHdr) (f : ChainFrame) : ChainFrame :=
  { f with chainId := h.chainId, cls := h.cls, srcuna := h.srcuna, dest := h.dest, origHop := h.origHop, crc := h.crc }

/-- The TIME frame of a payload and header. -/
def timeFrameOf (i : TimeInfo) : ChainFrame :=
  withHdr i.hdr { ftype := 1, amode := 1, payload := timeBytes i }

/-- What the head puts into a TIME frame. -/
def ownTimeInfo (s : State) : TimeInfo :=
  { hdr := { chainId := s.chain.chainId, srcuna := !s.chain.addrValid, origHop := s.chain.hop }
    tbTx := s.clk.tb, corr := 0, originId := s.clk.originId, originGps := s.clk.originGps
    qual := BitVec.ofNat 2 (qualOf s), island := s.chain.island, step := s.clk.announced.isSome
    policy := if s.chain.island then s.chain.policy else BitVec.ofNat 7 (field (reg s 0x030008) 6 0)
    breakFrame := if s.chain.island then s.chain.breakFrame else 0
    w1 := match s.clk.announced with
      | some a => a.epoch
      | none => if s.clk.originGps then s.clk.gpsWeek.setWidth 32 else 0
    w2 := match s.clk.announced with
      | some a => a.d
      | none => if s.clk.originGps then s.clk.gpsSec.setWidth 32 else 0 }

/-- A head that owns the chain's time inserts a TIME frame downstream (R52, R114). -/
def insertTime (s : State) : State :=
  if isHead s && !upClocked s && s.clk.valid && domOn s 11 && clockOn s
  then sendDown (timeFrameOf (ownTimeInfo s)) s else s

/-- TIME_FRAME_INSERT: one per 1,000 frames (R52). -/
def execTimeFrameInsert (s : State) : Out :=
  .next (if isHead s && !upClocked s && clockOn s then insertTime (toEdge 5 (1000 * ticksPerFrame) s) else s)

/-- A head announces an origin step at the first epoch edge at least two epochs ahead, in a TIME
frame (R38). -/
def announceStep (s : State) : State :=
  match s.gnss.sol with
  | none => s
  | some v =>
    let e := (s.clk.tb.toNat + ticksPerEpoch - 1) / ticksPerEpoch + 2
    let a : OriginStep := ⟨BitVec.ofNat 32 e, BitVec.ofInt 32 (misalignment s v)⟩
    insertTime { s with clk := { s.clk with
      announced := some a, stepOrg := some (gpsAtZero s v (misalignment s v)) } }

/-- A head in its step window that first has valid GNSS time announces the step (R38, R61). -/
def autoStep (s : State) : State :=
  if isHead s && !s.chain.island && !upClocked s && clockOn s && s.gnss.timeValid && s.clk.window &&
      bit (reg s 0x010000) 3 && !s.clk.originGps && s.clk.announced.isNone && s.clk.valid
  then announceStep s else s

/-- A frequency correction within ±40 ppm in steps of 0.01 ppm, a free value (R54; log entry 6). -/
def freeSlew (n : Nat) : BitVec 16 := BitVec.ofInt 16 (((Config.freeReading n).toNat % 8001 : Int) - 4000)

/-- An offset, in units of 10 ps, is slewed away without a change of the count; SLEWING says that more than 2
ticks remain (R35, R54); the correction in force is a free value (log entry 6). -/
def slewBy (off10 : Int) (s : State) : State :=
  let on := decide (250 < off10.natAbs)
  draw { s with clk := { s.clk with
    slewRem := satInt 32 (-(off10.tdiv 125)), slewing := on
    slew := if off10 = 0 then 0 else freeSlew s.free } }

/-- GNSS steers the DCO of a head: in phase too where the origin is GPS, and in frequency alone where it is FREE
(R44, R61, R62); the correction in force is a free value. -/
def steer (s : State) : State :=
  match s.gnss.sol with
  | none => s
  | some v =>
    if !(gnssSteers s && clockOn s && s.clk.valid) then s
    else if s.clk.originGps then slewBy (-(misalignment s v) * 125) s
    else draw { s with clk := { s.clk with slew := freeSlew s.free } }

/-- The node takes the upstream timebase at a step of whole ticks (R53). -/
def adopt (i : TimeInfo) (off10 : Int) (s : State) : State :=
  let s := stepTb (-(off10 / 125)) s
  { s with clk := { s.clk with
      originId := i.originId, valid := true, originGps := i.originGps, gpsWeek := 0, gpsSec := 0
      gpsKnown := false, announced := none, stepOrg := none, slewRem := 0, slewing := false, slew := 0, window := false } }

/-- The rules of R53 on a TIME frame the node uses; the offset is own minus frame, in units of 10 ps. -/
def align (i : TimeInfo) (off10 : Int) (s : State) : State :=
  let same := i.originId == s.clk.originId
  let s' :=
    if !s.clk.valid then adopt i off10 s
    else if same then slewBy off10 s
    else adopt i off10 (if s.modes.clay then s else hostClay 3 s)
  { s' with clk := { s'.clk with alignedLink := true } }

/-- Origin, announced step and quality of a TIME frame (R37, R38, R58). A frame of an island without STEP ends an
announcement, since an island head makes no step (R61; log entry 39). -/
def takeFlags (i : TimeInfo) (s : State) : State :=
  let c := s.clk
  let c := if i.step then { c with announced := some { epoch := i.w1, d := i.w2 } }
    else
      let c := if i.island then { c with announced := none } else c
      if i.originGps && !(c.originGps && c.gpsKnown) then
        { c with originGps := true, gpsKnown := true, gpsWeek := i.w1.setWidth 16, gpsSec := i.w2.setWidth 20 }
      else c
  { s with clk := { c with upQual := match i.qual.toNat with | 0 => .locked | 1 => .holdover | _ => .degraded } }

/-- The policy timer of an island node (R116): the later of BREAK_FRAME + POLICY and now. -/
def takeIsland (i : TimeInfo) (s : State) : State :=
  if i.island then
    let due := i.breakFrame + BitVec.ofNat 48 (i.policy.toNat * 100000)
    if s.chain.island && s.chain.breakFrame = i.breakFrame then s
    else { s with chain := { s.chain with
      island := true, breakFrame := i.breakFrame, policy := i.policy
      islandTimer := some (if frameDiff due (now s) < 0 then now s else due) } }
  else { s with chain := { s.chain with policy := i.policy } }

/-- Clay at the end of the policy timeout (R116). -/
def policyClay (s : State) : State :=
  hostClay 6 { s with chain := { s.chain with islandTimer := none, policyExpired := true } }

def execIslandPolicyTimeout (s : State) : Out :=
  .next (match s.chain.islandTimer with
    | some f => policyClay (advanceTo (tickAt f 0 s) s)
    | none => s)

/-- A timer that is due at once acts at once: POLICY 0, or a late first TIME frame (R116). -/
def duePolicy (s : State) : State :=
  match s.chain.islandTimer with
  | some f => if frameDiff f (now s) ≤ 0 then policyClay s else s
  | none => s

/-- The receiver's count of a frame it drops: CRC, STOMP or DROP (R93, R96). -/
def countFrame (c : CrcState) (ok : Bool) (e : PortErr) : PortErr :=
  match c with
  | .bad => { e with crc := satInc e.crc }
  | .stomped => { e with stomp := satInc e.stomp }
  | .good => if ok then e else { e with drop := satInc e.drop }

/-- What is forwarded ends with a correct CRC only if it arrived so (R96). -/
def passedCrc (c : CrcState) : CrcState := if c = .good then .good else .stomped

/-- A chain frame of type and chain ID the node consumes: its own chain's (R98). -/
def ownChain (h : FrameHdr) (s : State) : Bool := h.chainId == s.chain.chainId

/-- A TIME frame the node uses: its flags, and its TB against the node's once the echo burst is complete
(R52, R53). -/
def useTime (i : TimeInfo) (arrival : BitVec 32) (s : State) : State :=
  let s := duePolicy (takeIsland i s)
  if s.clk.echoes < 64 then s
  else
    let off10 : Int := (s.clk.tb.toNat : Int) * 125 - (i.tbTx.toNat * 125 + arrival.toNat : Nat)
    let s := { s with clk := { s.clk with resid := satInt 32 off10 } }
    let s := if !s.clk.alignedLink || i.originId != s.clk.originId || !s.clk.valid
      then align i off10 s else slewBy off10 s
    takeFlags i s

/-- TIME_FRAME on UP: a frame with a bad CRC is counted; from a valid upstream partner it is forwarded with its
CORR alone changed, grown by the UP hop delay and the residence time (10 ps units), and one of the node's own chain
with a correct CRC is used (R90, R95, R96, R98, R100). -/
def timeFrame (i : TimeInfo) (residence : Nat) (s : State) : State :=
  if !(s.chain.upLock && domOn s 11 && clockOn s) then s
  else
    let s := { s with chain := { s.chain with errUp := countFrame i.hdr.crc true s.chain.errUp } }
    if s.chain.upPartner = .none then s
    else
      let at' := i.corr + s.clk.hopDly.setWidth 32
      let s := sendDown (timeFrameOf { i with
        corr := at' + BitVec.ofNat 32 residence, hdr := { i.hdr with crc := passedCrc i.hdr.crc } }) s
      if upClocked s && i.hdr.crc = .good && ownChain i.hdr s then useTime i at' s else s

def execTimeFrame (info : TimeInfo) (residence : Nat) (s : State) : Out := .next (timeFrame info residence s)

/-! ## TIME_ECHO (R52, R101) -/

/-- A link-local TIME_ECHO frame (Table 04-4). -/
def echoFrame (payload : List Byte) : ChainFrame := { sdl := true, ftype := 2, amode := 0, payload := payload }

/-- When the next TIME_ECHO request is due: one per 64 frames for the 64 of the burst, then one per 1,000 (R52);
the first at once (log entry 2). -/
def nextEcho (s : State) : Nat :=
  match s.clk.echoAt with
  | none => s.clk.tb.toNat
  | some t => t + (if s.clk.echoSent < 64 then 64 else 1000) * ticksPerFrame

/-- TIME_ECHO_SEND: at its due time a request leaves UP at 1/256 tick `sub` of its tick (R52, R101). -/
def execTimeEchoSend (sub : Byte) (s : State) : Out :=
  .next (if upClocked s && domOn s 11 && clockOn s then
    let s := advanceTo (nextEcho s) s
    let q := s.clk.echoSeq
    sendUp (echoFrame [0, q]) { s with clk := { s.clk with
      echoSeq := q + 1, echoSent := min 64 (s.clk.echoSent + 1), echoAt := some s.clk.tb.toNat
      echoT1 := (q, s.clk.tb.toNat * 256 + sub.toNat) :: s.clk.echoT1.filter (fun e => e.1 != q) } }
    else s)

/-- A new UP link starts its echo burst anew, and its first TIME frame aligns (R52, R53). -/
def freshEcho (s : State) : State :=
  { s with clk := { s.clk with
    echoes := 0, echoSent := 0, echoAt := none, echoT1 := [], alignedLink := false } }

/-- TIME_ECHO_REQUEST: answered on DN with the residence in 1/256 ticks (R101). -/
def execTimeEchoRequest (seq : Byte) (resid : BitVec 32) (s : State) : Out :=
  .next (if s.chain.dnLock && domOn s 11 && clockOn s then
    outDown (echoFrame ([1, seq] ++ be 4 resid.toNat)) s else s)

/-- TIME_ECHO_ANSWER: the hop delay ((t4 − t1) − RESID) / 2 in 10 ps units (R101). -/
def execTimeEchoAnswer (seq sub : Byte) (resid : BitVec 32) (s : State) : Out :=
  .next (match s.clk.echoT1.find? (fun e => e.1 == seq) with
    | none => s
    | some (_, t1) =>
      if !(upClocked s && domOn s 11 && clockOn s) then s else
      let t4 := s.clk.tb.toNat * 256 + sub.toNat
      { s with clk := { s.clk with
        hopDly := satTo 24 ((t4 - t1 - resid.toNat) * 125 / 512),
        echoes := min 64 (s.clk.echoes + 1)
        echoT1 := s.clk.echoT1.filter (fun e => e.1 != seq) } })

/-! ## Cold relock (R47 to R51, R59) -/

/-- With the clock gated the service target drives neither line (R342). -/
def releaseLines (s : State) : State := { s with svc := { s.svc with sdaLow := false, active := false } }

/-- A clock start from a posture without a clock: the tree relocks, and TB is not kept (R59). -/
def relockFresh (s : State) : State :=
  let s := freshEcho (releaseLines s)
  stopLink { s with
    chain := { s.chain with
      upBusyTo := 0, dnBusyTo := 0, rg5 := s.chain.rg5.map fun x => { x with since := 0 }
      rg5Held := s.chain.rg5Held.map fun x => { x with since := 0 } }
    clk := { s.clk with
    tree := .relocking, lock := false, countRelock := false, tb := 0, valid := false, ref := .tcxo
    qual := .locked, originGps := false, gpsKnown := false, stepOrg := none, originId := 0, gpsWeek := 0, gpsSec := 0, slewing := false
    slew := 0, slewRem := 0, holdSecs := 0, holdShort := false, lockMins := 0, lockSecs := 0
    announced := none, window := false, marks := []
    pps := false } }

/-- Loss of lock, or a clock start from a posture with no domain ON: the tree is gated and the barrier clock
stops; with MCLK stopped the level in force is that of the lifecycle (R47, R391). A relock that a running clock
began goes on. -/
def coldRelock (why : RelockCause) (s : State) : State :=
  let running := clockOn s
  match why with
  | .powerUp | .wake =>
    if s.clk.tree = .stopped || (s.clk.tree = .relocking && !s.clk.countRelock) then relockFresh s else s
  | .phaseError | .outOfRange =>
    if running then setLevel (lifeLevel s) (stopLink { releaseLines s with clk := { s.clk with
      tree := .relocking, lock := false, countRelock := true, refWasUp := s.clk.ref = .chainUp
      lockMins := 0, lockSecs := 0 } })
    else s

def execColdRelock (why : RelockCause) (s : State) : Out := .next (coldRelock why s)

/-- DPLL_LOCK_DETECT: lock on the selected reference, or none is available and the tree stays gated
(R48, R51). The UP word clock can be locked to only where it is the reference of R42 and R43. -/
def dpllLock (r : LockRef) (s : State) : State :=
  if s.clk.tree = .relocking || s.clk.tree = .noReference then
    match r with
    | .noReference => { s with clk := { s.clk with tree := .noReference, ref := .none, noRef := true } }
    | .tcxo => { s with clk := { s.clk with tree := .locked, lock := true, ref := .tcxo } }
    | .chainUp => if followsUp s then { s with clk := { s.clk with tree := .locked, lock := true, ref := .chainUp } } else s
  else s

def execDpllLockDetect (lockRef : LockRef) (s : State) : Out := .next (dpllLock lockRef s)

/-- TB at ungate (R49): reloaded from TB_REFCNT within ±25 ns, or invalid until its next alignment
where the reference was the UP word clock. The rule names no outcome for a member on its own TCXO (REFSEL = TCXO)
that is not in holdover; that it reloads too is the model's choice (DESIGN CHOICE, log entry 40). -/
def reloadTb (refCycles : Nat) (s : State) : State :=
  let err : Int := ((Config.reloadError s.free).val : Int) - 20
  let refcnt := s.clk.refcnt + BitVec.ofNat 32 refCycles
  if !s.clk.countRelock then { s with clk := { s.clk with refcnt := refcnt } }
  else if s.clk.refWasUp then { s with clk := { s.clk with refcnt := refcnt, valid := false, alignedLink := false } }
  else draw { s with clk := { s.clk with
    refcnt := refcnt, tb := s.clk.tb + BitVec.ofInt 64 ((refCycles : Int) * 20 + err) } }

/-- CLOCK_UNGATE: 4,096 reference cycles after lock the tree runs; RELOCKS counts, and a relock in Loam
is a FAULT (R48, R49, R51). -/
def clockUngate (refCycles : Nat) (s : State) : State :=
  if s.clk.tree != .locked then s
  else
    let counts := s.clk.countRelock
    let s := reloadTb refCycles s
    let s := { s with clk := { s.clk with
      tree := .running, relocks := if counts then satInc s.clk.relocks else s.clk.relocks
      countRelock := false, refWasUp := false } }
    let s := if counts && s.modes.mode = .loam then note .host 0x0103 2 0xFF [] s else s
    let s := if s.clk.noRef then raise .host 0x0105 3 0xFF [] { s with clk := { s.clk with noRef := false } } else s
    ensureTimebase (chooseRef s)

/-! ## Holdover, registers and PPS (R41, R56, R58, R60, R295) -/

/-- HOLDOVER_LIMIT: the time in holdover reaches TB_HOLD_LIM (R58). -/
def execHoldoverLimit (s : State) : Out :=
  .next (if s.clk.qual = .holdover && clockOn s then
    let lim := field (reg s 0x010014) 11 0
    note .host 0x0102 1 0xFF [] { s with clk := { s.clk with
      qual := .degraded, holdSecs := if s.clk.holdSecs.toNat < lim then BitVec.ofNat 16 lim else s.clk.holdSecs } }
    else s)

/-- The clock's duties at an epoch edge: the counts of TB_AGE and the pulse (R41, R58, R62). -/
def epochClock (s : State) : State :=
  let c := s.clk
  let c := if c.qual = .locked then
      { c with lockSecs := c.lockSecs + 1, lockMins := satTo 16 ((c.lockSecs + 1) / 60) }
    else { c with holdSecs := satInc c.holdSecs }
  { s with clk := { c with pps := c.originGps } }

/-- PPS_PULSE_END: PPS_OUT falls WIDTH ms after its rise (R295). -/
def execPpsPulseEnd (s : State) : Out :=
  .next (if s.clk.pps && clockOn s then
    let rise := s.clk.tb.toNat / ticksPerEpoch * ticksPerEpoch
    let s := advanceTo (rise + field (reg s 0x070014) 8 0 * 800000) s
    { s with clk := { s.clk with pps := false } }
    else s)

/-- TB_NOW_LO_READ: the upper half is latched (R60). -/
def readNow (s : State) : State := { s with clk := { s.clk with tbHi := (s.clk.tb >>> 32).setWidth 32 } }

def execTbNowLoRead (s : State) : Out := .next (readNow s)

/-- TB_CTRL changes: REFSEL only in Silt (R43, under the rule of R217). -/
def tbCtrlCheck (s : State) (v : Word) : Option Ans :=
  if s.modes.mode != .silt && field v 1 0 != field (reg s 0x010000) 1 0 then refuse 0x11 0 else none

def putTbCtrl (v : Word) (s : State) : State := chooseRef (setReg 0x010000 v s)

def execTbCtrlWrite (value mask : Word) (s : State) : Out :=
  .next (if s.modes.mode != .sand && paramCheck true s 0x010000 value mask = none &&
      tbCtrlCheck s (merged s 0x010000 value mask) = none
    then putTbCtrl (merged s 0x010000 value mask) s else s)

/-- TIMEVALID_EXPIRY: the latest solution is older than 1 s; a disciplined head enters holdover
(R288). -/
def execTimevalidExpiry (s : State) : Out :=
  .next (if s.gnss.timeValid then chooseRef { s with gnss := { s.gnss with timeValid := false } } else s)

end Sys2Proof.Machine
end

