-- ==== Sys2Proof/Machine/Barrier.lean ====
section
/-! DEFINITION. The isolation barrier (03): link-up attempts, heartbeats, loss, register access, and
the edge and coefficient cells with their acknowledgements (08, 10). -/

namespace Sys2Proof.Machine

/-! ## Link-up attempts and the one-shot (R73, R80, R81) -/

/-- An attempt starts: the lanes train and the field clock runs. -/
def enableLanes (s : State) : State :=
  { s with barr := { s.barr with link := .training, static := false, fieldClock := s.pwr.fsup != .absent } }

/-- LANE_ENABLE after the static hold; from the tenth failure on, attempts wait for their epoch. -/
def execLaneEnable (s : State) : Out :=
  .next (if s.barr.link = .down && s.barr.static && clockOn s && domOn s 1 && !s.barr.epochRetry
    then enableLanes s else s)

def execLinkUpRetry (s : State) : Out :=
  .next (if s.barr.link = .down && s.barr.epochRetry && clockOn s && domOn s 1
    then enableLanes (toEdge 8 ticksPerEpoch s) else s)

/-- LINK_UP_ABANDON: a failed attempt; the tenth in a row is reported and counted (R73). -/
def linkUpAbandon (s : State) : State :=
  if s.barr.link != .training then s
  else
    let n := s.barr.runFails + 1
    let s := { s with barr := { s.barr with
      link := .down, static := true, fieldClock := false, failed := satInc s.barr.failed, runFails := n } }
    if n = 10 then
      note .host 0x0203 2 0xFF [] { s with barr := { s.barr with
        lossCnt := satInc s.barr.lossCnt, declarer := 3, epochRetry := true } }
    else s

def execLinkUpAbandon (s : State) : Out := .next (linkUpAbandon s)

/-- The one-shot fires when no MCLK_F edge comes: gate drive goes, pending field commands and held schedules are
gone, the field side is in Clay, and a latch without a clock holds cause 1 until the host reads it (R80, Table
02-3). -/
def execOneShotFire (s : State) : Out :=
  .next (if (s.barr.static || !clockOn s || !s.barr.fieldClock) && s.pwr.fsup != .absent then
    let s := if s.modes.clay then s else clayEntry { s with modes := { s.modes with clay := true } }
    { s with barr := { s.barr with
      oneShot := true, oneShotLatch := true, fieldClock := false, replicaLoaded := false
      schedWrites := [], heldEdges := [] } }
    else s)

/-- ONE_SHOT_RELEASE: the clock has run for 100 µs (R81). -/
def execOneShotRelease (s : State) : Out :=
  .next (if s.barr.fieldClock && clockOn s then { s with barr := { s.barr with oneShot := false } } else s)

/-- The host reads the latch of the one-shot, and cause 1 is recorded (R80, Table 01-8). -/
def readOneShot (s : State) : State :=
  if s.barr.oneShotLatch then
    { s with
      modes := { s.modes with latched := s.modes.latched ||| cause 1 }
      barr := { s.barr with oneShotLatch := false } }
  else s

/-- The record of the latest BARR_LOSS gets the field as its declarer (R77). -/
def nameField (q : List EventRec) : List EventRec :=
  (modFirst (fun r => r.code == 0x0202) (fun r => { r with data := 2 :: r.data.drop 1 }) q.reverse).reverse

/-- Link-up: sequence numbers and counts from 0, the replica loaded, the latch of the one-shot read, causes 1 and 2
released, and a loss that the field declared first is renamed (R65, R68, R77, R80, Table 03-4). -/
def completeLink (latency : Nat) (s : State) : State :=
  let s := { s with barr := { s.barr with
    link := .up, lat := BitVec.ofNat 10 latency, failed := 0, runFails := 0, epochRetry := false
    hostNext := 0, hostExpect := 0, fieldNext := 0, fieldExpect := 0, txCnt := 0, rxCnt := 0
    hostGot := 0xFFFF, fieldGot := 0xFFFF, upPart := 0, upBad := false, fieldClock := true
    downSlot := s.clk.tb.toNat / 320 * 320, upSlot := s.clk.tb.toNat / 320 * 320
    replica := s.clk.tb, replicaLoaded := true, plannedStop := false, supervise := false } }
  let s := if s.barr.fieldDeclared then
    { s with barr := { s.barr with fieldDeclared := false, declarer := 2 }
             ev := { s.ev with host := nameField s.ev.host } }
    else s
  liftCause 1 (liftCause 2 { readOneShot s with pwr := { s.pwr with pwrfRead := false } })

/-! ## Drops (R69, R70, R72) -/

/-- A new epoch for R72. -/
def epochBarrier (s : State) : State :=
  { s with barr := { s.barr with dropsAtEpoch := dropTotal s, dropsWarned := false } }

/-- The host drops the next cell of RG7's front message (R69, R70). -/
def rejectUp (why : CellDrop) (s : State) : State :=
  let seq := s.barr.fieldNext
  let s := passUp true s
  checkDrops { s with barr := match why with
    | .crc => { s.barr with hCrc := satInc s.barr.hCrc }
    | .seq _ => { s.barr with hSeq := satInc s.barr.hSeq, hostExpect := seq + 1 }
    | .typ _ => { s.barr with hTyp := satInc s.barr.hTyp, hostExpect := seq + 1 } }

/-- The field side drops the front cell of RG6 (R69). -/
def rejectDown (why : CellDrop) (s : State) : State :=
  let seq := s.barr.hostNext
  let s := passDown s
  { s with barr := match why with
    | .crc => { s.barr with fCrc := satInc s.barr.fCrc }
    | .seq _ => { s.barr with fSeq := satInc s.barr.fSeq, fieldExpect := seq + 1 }
    | .typ _ => { s.barr with fTyp := satInc s.barr.fTyp, fieldExpect := seq + 1 } }

/-- A drop that can befall a cell of SEQ `seq` where `expect` is expected (R69). -/
def dropFits (why : CellDrop) (seq expect : BitVec 16) : Bool :=
  match why with
  | .crc => true
  | .seq g => g == seq && seq != expect
  | .typ g => g == seq

/-- CELL_REJECT at the receiving side: the next cell of the front message is dropped, counted, and never acts; the
next expected SEQ follows R69, and a message of several cells is dropped whole (R70). `inMessage` says that the
FIRST cell of the front message arrives before the dropped one. -/
def cellReject (side : Side) (why : CellDrop) (inMessage : Bool) (s : State) : State :=
  match side with
  | .host =>
    (match s.barr.rg7 with
      | [] => s
      | q :: _ =>
        if !linkUp s then s
        else
          let s := if inMessage && s.barr.upPart + 1 < cellsOf q.cell then seqUp s else s
          if dropFits why s.barr.fieldNext s.barr.hostExpect then rejectUp why s else s)
  | .field =>
    if linkUp s && s.barr.fieldClock && !s.barr.rg6.isEmpty && dropFits why s.barr.hostNext s.barr.fieldExpect
    then rejectDown why s else s

def execCellReject (side : Side) (why : CellDrop) (inMessage : Bool) (s : State) : Out :=
  .next (cellReject side why inMessage s)

/-- BARR_CNTCLR (R85): the field's counters are cleared by the next host HEARTBEAT. R72 does not say what a clear
does to the drops of the running epoch; the model counts on from the lower total (DESIGN CHOICE, log entry 41). -/
def clearBarr (v : Word) (s : State) : State :=
  let b := s.barr
  let b := if bit v 0 then { b with hCrc := 0, hSeq := 0, hTyp := 0, hMsg := 0 } else b
  let b := if bit v 1 then { b with mCrc := 0, mSeq := 0, mTyp := 0, ferrClear := true } else b
  let b := if bit v 2 then { b with tserr := 0 } else b
  let s := { s with barr := b }
  { s with barr := { s.barr with dropsAtEpoch := min s.barr.dropsAtEpoch (dropTotal s) } }

def execBarrCntclr (value : Word) (s : State) : Out := .next (if domOn s 1 then clearBarr value s else s)

/-! ## Heartbeats (R71, R76 to R79, Table 03-5) -/

/-- Bits 0, 1, 5 and 7 of the active causes, as the field reports them. -/
def fieldCauses (s : State) : BitVec 16 := s.modes.active &&& 0x00A3

/-- HEARTBEAT_SEND: every 10 µs; a running core advances its FW_ALIVE. ACK_SEQ is the last SEQ accepted; before the
first of a link, for which R71 gives no value, it is 0xFFFF (DESIGN CHOICE, log entry 42). -/
def heartbeatSend (side : Side) (s : State) : State :=
  if !linkUp s then s
  else match side with
    | .host =>
      let s := toEdge 6 8000 s
      let alive := if hcoreRuns s then s.barr.hostAlive + 1 else s.barr.hostAlive
      sendUrgent (.heartbeat (.fromHost alive s.barr.hostGot s.sec.hHalt
        (BitVec.ofNat 16 (field (reg s 0x020000) 8 0)))) { s with barr := { s.barr with hostAlive := alive } }
    | .field =>
      if s.barr.fieldDeclared || s.pwr.fsup = .absent || !s.barr.fieldClock then s
      else
        let s := toEdge 7 8000 s
        let alive := if s.fw.fcoreRun && !s.sec.fHalt && domOn s 13 then s.barr.fieldAlive + 1 else s.barr.fieldAlive
        let h : Heartbeat := .fromField alive s.barr.fieldGot s.sec.fHalt s.barr.fCrc s.barr.fSeq
          s.barr.fTyp (fieldCauses s)
        upUrgent (.heartbeat h) { s with barr := { s.barr with fieldAlive := alive } }

def execHeartbeatSend (side : Side) (s : State) : Out := .next (heartbeatSend side s)

/-- A drop counter that rose; one at 255 counts as higher (R71). -/
def rose (old new : Byte) : Bool := decide (old.toNat < new.toNat) || new == 255

/-- A SAFE_REQ that a field HEARTBEAT with ACK_SEQ a reaches (R71). -/
def reached (a : BitVec 16) (x : SafeSent) : Bool := decide (0 ≤ (a - x.seq).toInt)

/-- The outstanding SAFE_REQs after a field HEARTBEAT with ACK_SEQ a and drop counters: one it reaches is confirmed,
or sent again where a counter rose (R71). -/
def checkSafe (a : BitVec 16) (c q t : Byte) (s : State) : State :=
  let lost (x : SafeSent) : Bool :=
    reached a x && (rose x.dropsBefore.1 c || rose x.dropsBefore.2.1 q || rose x.dropsBefore.2.2 t)
  (s.barr.safe.filter lost).foldl (fun s x => sendSafe x.causes s)
    { s with barr := { s.barr with safe := s.barr.safe.filter (fun x => !reached a x) } }

/-- An accepted host HEARTBEAT. The clear of the field's counters is carried by the HEARTBEAT that is accepted: it
stays pending where one is dropped (DESIGN CHOICE, log entry 43). -/
def hostBeat (alive ack : BitVec 16) (halted : Bool) (hbto : BitVec 16) (s : State) : State :=
  let changed := alive != s.barr.hostAliveSeen
  let b := { s.barr with
    ackFromHost := ack, hostAliveSeen := alive, hostHaltedSeen := halted, hbto := hbto }
  let b := if b.ferrClear then { b with fCrc := 0, fSeq := 0, fTyp := 0, ferrClear := false } else b
  let s := { s with barr := b, ev := { s.ev with heard := if ack + 1 = b.hostExpect then [] else s.ev.heard } }
  if changed then liftCause 7 s else s

/-- An accepted field HEARTBEAT. -/
def fieldBeat (alive ack : BitVec 16) (halted : Bool) (c q t : Byte) (active : BitVec 16) (s : State) : State :=
  let s := { s with barr := { s.barr with
    ackFromField := ack, fhalt := halted, mirrorActive := active, fieldAliveSeen := alive
    supervise := s.barr.supervise || (s.fw.fcoreRun && domOn s 13) } }
  let s := checkSafe ack c q t s
  checkDrops { s with barr := { s.barr with mCrc := c, mSeq := q, mTyp := t } }

/-- HEARTBEAT, by direction. -/
def heartbeat (h : Heartbeat) (s : State) : State :=
  match h with
  | .fromHost alive ack halted hbto => onDown (.heartbeat h) (hostBeat alive ack halted hbto) s
  | .fromField alive ack halted c q t active => onUp (.heartbeat h) (fieldBeat alive ack halted c q t active) s

def execHeartbeat (hb : Heartbeat) (s : State) : Out := .next (heartbeat hb s)

/-- BARRIER_LOSS_HOST: one count, one FAULT, cause 2 and static lanes (R77). -/
def execBarrierLossHost (s : State) : Out :=
  .next (if linkUp s then
    let s := enterClay 2 (dropLink s)
    note .host 0x0202 2 0xFF [1] { s with barr := { s.barr with
      lossCnt := satInc s.barr.lossCnt, declarer := 1 } }
    else s)

/-- BARRIER_LOSS_FIELD: with its clock running, the field enters Clay with cause 2 at the next frame boundary,
latches its declaration and sends no more HEARTBEATs (R76, R77). -/
def execBarrierLossField (s : State) : Out :=
  .next (if linkUp s && s.barr.fieldClock then
    enterClay 2 { toFieldFrame s with barr := { (toFieldFrame s).barr with fieldDeclared := true } } else s)

/-- HOST_HEARTBEAT_TIMEOUT: Clay at the first frame boundary after it (R78, Table 08-7). -/
def execHostHeartbeatTimeout (s : State) : Out :=
  .next (if linkUp s && s.barr.fieldClock then enterClay 7 (toFieldFrame s) else s)

/-- FCORE_STALL: CRITICAL and SAFE_REQ, while the field FW_ALIVE is supervised and HALTED = 0 (R79). -/
def execFcoreStall (s : State) : Out :=
  .next (if linkUp s && s.barr.supervise && domOn s 13 && !s.barr.fhalt
    then raise .host 0x0205 3 0xFF [] s else s)

/-! ## SAFE_REQ and TIME_SYNC (R71, R74) -/

/-- The field side enters Clay with the causes a SAFE_REQ carries, at its next frame boundary (Table 08-7). -/
def safeTaken (causes : BitVec 16) (s : State) : State :=
  (List.finRange 11).foldl (fun s c => if causes.getLsbD c.val then enterClay c s else s) (toFieldFrame s)

def safeReq (causes : BitVec 16) (s : State) : State := onDown (.safeReq causes) (safeTaken causes) s

def execSafeReq (causes : BitVec 16) (s : State) : Out := .next (safeReq causes s)

/-- SAFE_REQ_RESEND: the oldest unconfirmed one goes again (R71). -/
def execSafeReqResend (s : State) : Out :=
  .next (match s.barr.safe with | x :: _ => sendSafe x.causes s | [] => s)

/-- TIME_SYNC_SEND at every 1,000th frame boundary (R74). -/
def execTimeSyncSend (s : State) : Out :=
  .next (if linkUp s then
    let s := toEdge 4 (1000 * ticksPerFrame) s
    sendUrgent (.timeSync s.clk.tb) s
    else s)

/-- The replica against the TB a TIME_SYNC carries, with the time since; a difference is reported and counted, and
the replica is reloaded at the next frame boundary (R74). -/
def syncTaken (tb : BitVec 64) (s : State) : State :=
  let since := s.clk.tb.toNat - (findKey 4 s.clk.marks).getD s.clk.tb.toNat
  let right := tb + BitVec.ofNat 64 since
  if s.barr.replica = right then s
  else
    let d := right - s.barr.replica
    let s := note .field 0x0204 1 0xFF [] { s with barr := { s.barr with tserr := satInc s.barr.tserr } }
    let s := toFieldFrame s
    { s with barr := { s.barr with replica := s.barr.replica + d } }

/-- TIME_SYNC arrives at the field side. -/
def timeSync (tb : BitVec 64) (s : State) : State := onDown (.timeSync tb) (syncTaken tb) s

def execTimeSync (tb : BitVec 64) (s : State) : Out := .next (timeSync tb s)

/-! ## Field register access at the host (R83, R84, R145) -/

/-- A fresh TAG from the counter that skips 0 (R83). -/
def drawTag (s : State) : BitVec 16 × State :=
  (s.barr.nextTag, { s with barr := { s.barr with nextTag := nextTagOf s.barr.nextTag } })

/-- Of a scheduled LOOP_TEST only LOOP_TGO is scheduled (R277). -/
def putSched (t : RegTxn) (a : BitVec 24) : Bool :=
  t.sched && (match t.why with
    | .request q => q.pkt.opcode != 0x43 || a == 0x130910
    | _ => true)

/-- The cell of an access's next register or registers, or of a command's field part. -/
def txnCell (t : RegTxn) : Option Cell :=
  if t.op.isSome then
    let c : CfgWriteCell :=
      { tag := t.tag, sched := t.sched, addr := 0, value := 0, mask := 0, applyAt := t.applyAt, op := t.op }
    if t.done = 0 then some (.cfgWrite c) else none
  else if t.isWrite then
    t.puts.head?.map fun p => .cfgWrite
      { tag := t.tag, sched := putSched t p.addr, addr := p.addr, value := p.value, mask := p.mask,
        applyAt := if putSched t p.addr then t.applyAt else 0 }
  else if t.readLeft = 0 then none
  else some (.cfgRead t.tag t.readAddr (BitVec.ofNat 3 (min 4 t.readLeft)))

/-- Start an access, or carry it on with a fresh TAG. -/
def sendTxn (t0 : RegTxn) (s : State) : State :=
  let (tag, s) := drawTag s
  let t := { t0 with tag := tag, sends := 1 }
  match txnCell t with
  | some c => sendCell c { s with barr := { s.barr with txns := s.barr.txns ++ [t] } }
  | none => s

/-- A write access of the host. -/
def startWrite (why : TxnFor) (sched : Bool) (applyAt : Frame48) (puts : List RegPut) (s : State) : State :=
  sendTxn { tag := 0, why := why, isWrite := true, sched := sched, applyAt := applyAt, puts := puts } s

def startRead (why : TxnFor) (a : BitVec 24) (n : Nat) (s : State) : State :=
  sendTxn { tag := 0, why := why, isWrite := false, readAddr := a, readLeft := n } s

/-- The host sends the field part of a command of flag F (R154; log entry 13). -/
def startOp (why : TxnFor) (sched : Bool) (applyAt : Frame48) (o : FieldOp) (s : State) : State :=
  sendTxn { tag := 0, why := why, isWrite := true, sched := sched, applyAt := applyAt, op := some o } s

/-- The answer that a command's field part gives its request: a capture in parts of 220 bytes, and an OCH_SET that
waits for the stagger window with its ticket (R277, R448). -/
def opAnswer (q : Request) (status detail : Byte) (data : List Byte) (s : State) : State × Ans :=
  if q.pkt.opcode = 0x44 && status = 0 && byteAt (reqBody q) 1 != 0 then
    (match chunks 220 16 (data.drop 4) with
      | [] => (s, { data := data })
      | p :: ps => (s, { data := data.take 4 ++ p, parts := ps }))
  else if status = 0x02 then
    let d : Deferred := { q := q, ticket := BitVec.ofNat 48 (beAt data 0 6), why := .budget }
    ({ s with pkt := { s.pkt with deferred := s.pkt.deferred ++ [d] } },
      { status := status, detail := detail, data := data })
  else (s, { status := status, detail := detail, data := data })

/-- The reply of an access that ended: REG_WRITE counts the registers written, REG_READ has the
values. A scheduled access was answered ACCEPTED when it was accepted (R84, R141, R145). -/
def answerTxn (t : RegTxn) (q : Request) (status detail : Byte) (s : State) : State :=
  let data := if q.pkt.opcode = 0x7B then [BitVec.ofNat 8 t.done]
    else if q.pkt.opcode = 0x7A && status = 0 then t.got.flatMap (fun w => be 4 w.toNat) else []
  if t.sched then
    (if status = 0 || status = 1 then s
    else schedFail q status { s with pkt := { s.pkt with
      sched := modFirst (fun o => o.q == q) (fun o => { o with failed := o.failed <|> some status }) s.pkt.sched } })
  else if t.op.isSome then
    let r := opAnswer q status detail (wordData t.got) s
    reply q r.2 r.1
  else reply q { status := status, detail := detail, data := data } s

/-- The request that stands for the node's own LOOP_COEF cells of the field configuration. -/
def ownCoef : Request := { via := .planner, pkt := { opcode := 0x40, seq := 0, dest := 0, src := 0 } }

/-- A bank word of the field configuration, named by its address, leaves as a DIRECT cell of one
word (R268, Table 16-6). -/
def sendBankWord (p : RegPut) (s : State) : State :=
  let (tag, s) := drawTag s
  let o := p.addr.toNat - 0x131000
  let c : CoefCell := { tag := tag, slot := Fin.ofNat 16 (o / 0x100), banked := false, swap := false
                        first := BitVec.ofNat 8 (o % 0x100 / 4), words := [p.value] }
  sendCell (.loopCoef c) { s with barr := { s.barr with
    coefs := s.barr.coefs ++ [{ q := ownCoef, cells := [{ cell := c, sends := 1, result := none }] }] } }

/-- The field configuration goes on with its next item (R409). -/
def configureNext (s : State) : State :=
  match s.fw.cfgLeft with
  | [] => s
  | p :: ps =>
    let s := { s with fw := { s.fw with cfgLeft := ps } }
    if 0x131000 ≤ p.addr.toNat && p.addr.toNat < 0x132000 then sendBankWord p s
    else startWrite .configure false 0 [p] s

/-- A configuration write that did not end DONE is a FAULT SET_APPLY and holds CLAY_RELEASE (R409). -/
def cfgRefusal (s : State) : State :=
  note .host 0x0C03 2 0xFF [] { s with fw := { s.fw with cfgRefused := true } }

/-- An access ends with a status. A refused configuration write is a FAULT SET_APPLY (R409). -/
def endTxn (t : RegTxn) (status detail : Byte) (s : State) : State :=
  let s := { s with barr := { s.barr with txns := s.barr.txns.filter (fun x => x.tag != t.tag) } }
  match t.why with
  | .request q => answerTxn t q status detail s
  | .configure =>
    configureNext (if status = 0 then s else cfgRefusal s)
  | .digest =>
    let d := wordData t.got
    let image : Bool × BitVec 256 := (status = 0 && byteAt d 0 == 1, BitVec.ofNat 256 (beAt d 1 32))
    { s with fw := { s.fw with fieldImage := some image } }
  | .own => s

/-- An accepted CFG_DATA: the access it answers goes on or ends (R83, R84, R145). A command's field part is answered
with its status, its detail in the place of the address, and its data (log entry 13). -/
def dataTaken (tag : BitVec 16) (status : Byte) (addr : BitVec 24) (values : List Word) (s : State) : State :=
    match s.barr.txns.find? (fun t => t.tag == tag) with
    | none => s
    | some t =>
      if t.op.isSome then endTxn { t with got := values, done := 1 } status (addr.setWidth 8) s
      else
      let t' := if t.isWrite then { t with puts := t.puts.drop 1, done := t.done + 1 }
        else { t with
          got := t.got ++ values, readLeft := t.readLeft - values.length
          readAddr := t.readAddr + BitVec.ofNat 24 (4 * values.length) }
      if status != 0 && status != 1 then endTxn t status 0 s
      else if (txnCell t').isNone || (!t.isWrite && values.isEmpty) then endTxn t' status 0 s
      else sendTxn t' { s with barr := { s.barr with txns := s.barr.txns.filter (fun x => x.tag != tag) } }

/-- CFG_DATA arrives at the host. -/
def cfgData (tag : BitVec 16) (status : Byte) (addr : BitVec 24) (values : List Word) (s : State) : State :=
  onUp (.cfgData tag status addr values) (dataTaken tag status addr values) s

/-- CFG_RESEND: the same TAG again, up to two more times, then NO_ANSWER (R83, R84). -/
def cfgResend (tag : BitVec 16) (s : State) : State :=
  match s.barr.txns.find? (fun t => t.tag == tag) with
  | none => s
  | some t =>
    if !linkUp s then s
    else if 3 ≤ t.sends then endTxn t 0x40 0x01 s
    else
      let again (x : RegTxn) : RegTxn := if x.tag == tag then { x with sends := x.sends + 1 } else x
      let s := { s with barr := { s.barr with txns := s.barr.txns.map again } }
      match txnCell t with | some c => sendCell c s | none => s

/-! ## Field register access at the field side (R82, R83) -/

/-- The field keeps the answers of its last 32 register requests. -/
def rememberTag (tag : BitVec 16) (c : Cell) (s : State) : State :=
  { s with barr := { s.barr with tagMem := lastN 32 (s.barr.tagMem ++ [(tag, c)]) } }

/-- The checks of a scheduled write at its arrival: BAD_PARAM, LATE, BUSY (R82). -/
def schedWriteStatus (c : CfgWriteCell) (s : State) : Byte :=
  if c.op.isNone && ((paramCheck true s c.addr.toNat c.value c.mask).isSome || !isField c.addr.toNat) then 0x21
  else if frameDiff c.applyAt (frameOf s.barr.replica) ≤ 0 then 0x30
  else if Config.schedWriteSlots ≤ s.barr.schedWrites.length then 0x40
  else 0x01

/-- The field's answer and effect for a fresh CFG_WRITE: a scheduled one is stored, any other acts at the next frame
boundary (R12, R82). -/
def applyCfgWrite (c : CfgWriteCell) (s : State) : State × Ans :=
  if c.sched then
    let st := schedWriteStatus c s
    (if st = 1 then { s with barr := { s.barr with schedWrites := s.barr.schedWrites ++ [c] } } else s, { status := st })
  else match c.op with
    | some o => fieldPart o (toFieldFrame s)
    | none =>
      if !isField c.addr.toNat then (s, { status := 0x21 })
      else
        let r := fieldWrite c.addr.toNat c.value c.mask (toFieldFrame s)
        (r.1, { status := r.2.status })

/-- The CFG_DATA that answers a write or a command's field part. -/
def writeAnswer (c : CfgWriteCell) (a : Ans) : Cell :=
  if c.op.isSome then .cfgData c.tag a.status (a.detail.setWidth 24) (dataWords a.data)
  else .cfgData c.tag a.status c.addr []

/-- An accepted CFG_WRITE: a repeated TAG is answered from the memory and not applied again (R83). -/
def writeTaken (c : CfgWriteCell) (s : State) : State :=
  match s.barr.tagMem.find? (fun t => t.1 == c.tag) with
  | some t => upCell t.2 s
  | none =>
    let r := applyCfgWrite c s
    let a := writeAnswer c r.2
    upCell a (rememberTag c.tag a r.1)

/-- CFG_WRITE arrives at the field side. -/
def cfgWrite (c : CfgWriteCell) (s : State) : State := onDown (.cfgWrite c) (writeTaken c) s

def execCfgWrite (cell : CfgWriteCell) (s : State) : Out := .next (cfgWrite cell s)

/-- The status of a field read of consecutive registers. -/
def cfgReadStatus (addr count : Nat) (s : State) : Byte :=
  let as := (List.range count).map fun i => addr + 4 * i
  if !inRange 1 4 count || as.any (fun a => !isField a || (paramCheck false s a 0 0).isSome) then 0x21
  else if as.any (fun a => (domainCheck s a).isSome) then 0x13 else 0

/-- An accepted CFG_READ (R82, R83). -/
def readTaken (tag : BitVec 16) (addr : BitVec 24) (count : BitVec 3) (s : State) : State :=
  match s.barr.tagMem.find? (fun t => t.1 == tag) with
  | some t => upCell t.2 s
  | none =>
    let st := cfgReadStatus addr.toNat count.toNat s
    let as := (List.range count.toNat).map fun i => addr.toNat + 4 * i
    let vals := if st = 0 then as.map (readReg s) else []
    let s := if st = 0 then as.foldl (fun s a => fieldReadAct a s) s else s
    let a : Cell := .cfgData tag st addr vals
    upCell a (rememberTag tag a s)

/-- CFG_READ arrives at the field side. -/
def cfgRead (tag : BitVec 16) (addr : BitVec 24) (count : BitVec 3) (s : State) : State :=
  onDown (.cfgRead tag addr count) (readTaken tag addr count) s

def execCfgRead (tag : BitVec 16) (addr : BitVec 24) (count : BitVec 3) (s : State) : Out :=
  .next (cfgRead tag addr count s)

/-- The stored write is the field part of this scheduled command (R141). -/
def ownsWrite (w : CfgWriteCell) (c : SchedCmd) : Bool :=
  let b := reqBody c.q
  c.handed && c.q.pkt.applyAt == w.applyAt &&
  (match w.op with
    | some o => o.opcode == c.q.pkt.opcode && o.params == b
    | none =>
      match c.q.pkt.opcode.toNat with
      | 0x42 => w.addr == 0x130800
      | 0x43 => w.addr == 0x130910
      | 0x7B => decide (beAt b 0 3 ≤ w.addr.toNat) && decide (w.addr.toNat < beAt b 0 3 + 4 * (byteAt b 3).toNat)
      | _ => false)

/-- The scheduled command that a stored write belongs to is marked. -/
def markSched (w : CfgWriteCell) (f : SchedCmd → SchedCmd) (s : State) : State :=
  { s with pkt := { s.pkt with sched := modFirst (ownsWrite w) f s.pkt.sched } }

/-- A stored write failed at its APPLY_AT: the WARN of R141. -/
def failSched (w : CfgWriteCell) (status : Byte) (s : State) : State :=
  match s.pkt.sched.find? (ownsWrite w) with
  | some o => schedFail o.q status (markSched w (fun o => { o with failed := o.failed <|> some status }) s)
  | none => s

/-- A status other than one of an action done or pending. -/
def isFailure (st : Byte) : Bool := !(([0x00, 0x01, 0x02, 0x31, 0x41] : List Byte).contains st)

/-- The domains of a stored write: those of its whole access, which is refused when any is not ON (R483). -/
def writeDomains (c : CfgWriteCell) (s : State) : Option Ans :=
  match s.pkt.sched.find? (ownsWrite c) with
  | some o =>
    let b := reqBody o.q
    if o.q.pkt.opcode == 0x7B then
      (List.range (byteAt b 3).toNat).findSome? fun i => domainCheck s (beAt b 0 3 + 4 * i)
    else domainCheck s c.addr.toNat
  | none => domainCheck s c.addr.toNat

/-- A stored write at its APPLY_AT: domain, state and budget are checked now, and a failure is reported
by the WARN of R141 (R82). The result of a command's field part is kept for its second reply (R156). -/
def actSchedWrite (c : CfgWriteCell) (s : State) : State :=
  match c.op with
  | some o =>
    let r := fieldPart o s
    let s := markSched c (fun x => { x with wrote := x.wrote + 1, result := some (r.2.status, r.2.detail, r.2.data) }) r.1
    if isFailure r.2.status then failSched c r.2.status s else s
  | none =>
    let v := merged s c.addr.toNat c.value c.mask
    match writeDomains c s <|> fieldStateCheck s c.addr.toNat v with
    | none => markSched c (fun o => { o with wrote := o.wrote + 1 }) (fieldPut c.addr.toNat v s)
    | some a => failSched c a.status s

/-- The stored write with the earliest APPLY_AT. -/
def firstWrite (s : State) : List CfgWriteCell → Option CfgWriteCell
  | [] => none
  | c :: cs =>
    match firstWrite s cs with
    | none => some c
    | some d => if frameDiff d.applyAt c.applyAt < 0 then some d else some c

/-- SCHED_WRITE_ACT: the earliest stored write acts at its frame; a field side without a clock does nothing
(R75). -/
def schedWriteAct (s : State) : State :=
  match firstWrite s s.barr.schedWrites with
  | none => s
  | some c =>
    if !s.barr.fieldClock then s else
    let s := advanceTo (tickAt c.applyAt 0 s) s
    actSchedWrite c { s with barr := { s.barr with schedWrites := s.barr.schedWrites.erase c } }

def execSchedWriteAct (s : State) : Out := .next (schedWriteAct s)

/-! ## Edge batches (R208, R210) -/

/-- An accepted SCHED_EDGE: in Clay its edges are discarded, else the batch is stored; a repeated TAG is not stored
again (R208, R210). -/
def edgesTaken (tag : BitVec 16) (es : List Edge) (s : State) : State :=
  if s.modes.clay then
    upCell (.edgeAcks [(tag, 3)])
      { s with barr := { s.barr with edgeTags := lastN 64 (s.barr.edgeTags.filter (fun t => t.1 != tag) ++ [(tag, 3)]) } }
  else match s.barr.edgeTags.find? (fun t => t.1 == tag) with
    | some t => upCell (.edgeAcks [(tag, t.2)]) s
    | none =>
      let r := storeEdges es s
      upCell (.edgeAcks [(tag, r.2)])
        { r.1 with barr := { r.1.barr with edgeTags := lastN 64 (r.1.barr.edgeTags ++ [(tag, r.2)]) } }

/-- SCHED_EDGE arrives at the field side. -/
def schedEdge (tag : BitVec 16) (es : List Edge) (s : State) : State := onDown (.schedEdge tag es) (edgesTaken tag es) s

def execSchedEdge (tag : BitVec 16) (edges : List Edge) (s : State) : Out := .next (schedEdge tag edges s)

/-- Accepted EDGE_ACKs: the acknowledged batches are no longer awaited; the edges of one that Clay discarded are
CUT. -/
def acksTaken (acks : List (BitVec 16 × Fin 4)) (s : State) : State :=
  acks.foldl (fun s a =>
    match s.barr.batches.find? (fun b => b.tag == a.1) with
    | none => s
    | some b =>
      let s := { s with barr := { s.barr with batches := s.barr.batches.filter (fun x => x.tag != a.1) } }
      if a.2 = 3 then cutEdges b.edges s else s) s

/-- EDGE_ACK arrives at the host. -/
def edgeAck (acks : List (BitVec 16 × Fin 4)) (s : State) : State := onUp (.edgeAcks acks) (acksTaken acks) s

def execEdgeAck (acks : List (BitVec 16 × Fin 4)) (s : State) : Out := .next (edgeAck acks s)

/-- SCHED_EDGE_RESEND: the batch again with its TAG, or EDGE_LOST after the third send (R210). -/
def schedEdgeResend (tag : BitVec 16) (s : State) : State :=
  match s.barr.batches.find? (fun b => b.tag == tag) with
  | none => s
  | some b =>
    if !linkUp s then s
    else if 3 ≤ b.sends then
      raise .host 0x1001 3 0xFF [] { s with barr := { s.barr with
        batches := s.barr.batches.filter (fun x => x.tag != tag) } }
    else
      let again (x : EdgeBatch) : EdgeBatch := if x.tag == tag then { x with sends := x.sends + 1 } else x
      sendCell (.schedEdge tag b.edges) { s with barr := { s.barr with batches := s.barr.batches.map again } }

def execSchedEdgeResend (tag : BitVec 16) (s : State) : Out := .next (schedEdgeResend tag s)

/-! ## Coefficient cells at the host (R268, R269) -/

/-- A coefficient request whose cells all have a result is answered: DONE, or the status of its
lowest-index cell that did not finish DONE (R269). -/
def answerCoef (r : CoefReq) (s : State) : State :=
  match r.cells.find? (fun c => c.result != some 0) with
  | none => if r.q.via = .planner then configureNext s else reply r.q {} s
  | some c =>
    if r.q.via = .planner then configureNext (cfgRefusal s) else
    let st := c.result.getD 0
    reply r.q { status := st, detail := if st = 0x40 then 0x01 else 0 } s

/-- Record the result of the cell with this TAG and answer its request if it was the last. -/
def coefResult (tag : BitVec 16) (st : Byte) (s : State) : State :=
  let mark (c : CoefSent) : CoefSent := if c.cell.tag == tag then { c with result := some st } else c
  let rs := s.barr.coefs.map fun r => { r with cells := r.cells.map mark }
  let fin (r : CoefReq) : Bool := r.cells.all (fun c => c.result.isSome)
  (rs.filter fin).foldl (fun s r => answerCoef r s)
    { s with barr := { s.barr with coefs := rs.filter (fun r => !fin r) } }

/-- Accepted COEF_ACKs. -/
def coefAcksTaken (acks : List (BitVec 16 × Byte)) (s : State) : State :=
  acks.foldl (fun s a => coefResult a.1 a.2 s) s

def execCoefAck (acks : List (BitVec 16 × Byte)) (s : State) : Out :=
  .next (onUp (.coefAcks acks) (coefAcksTaken acks) s)

/-- LOOP_COEF_RESEND: the same TAG up to two more times, then NO_ANSWER without an event (R268). -/
def loopCoefResend (tag : BitVec 16) (s : State) : State :=
  match (s.barr.coefs.flatMap (·.cells)).find? (fun c => c.cell.tag == tag && c.result.isNone) with
  | none => s
  | some c =>
    if !linkUp s then s
    else if 3 ≤ c.sends then coefResult tag 0x40 s
    else
      let again (x : CoefSent) : CoefSent := if x.cell.tag == tag then { x with sends := x.sends + 1 } else x
      let each (r : CoefReq) : CoefReq := { r with cells := r.cells.map again }
      sendCell (.loopCoef c.cell) { s with barr := { s.barr with coefs := s.barr.coefs.map each } }

def execLoopCoefResend (tag : BitVec 16) (s : State) : Out := .next (loopCoefResend tag s)

end Sys2Proof.Machine
end

