-- ==== Sys2Proof/Machine/Chain.lean ====
section
/-! DEFINITION. The chain (04): symbol lock and partners, breaks and islands, forwarding, own frames,
the enumeration walk and the return of replies. -/

namespace Sys2Proof.Machine

/-- The chain ports run. -/
def chainOn (s : State) : Bool := domOn s 11 && clockOn s

def portLock (p : ChainPort) (s : State) : Bool :=
  match p with | .up => s.chain.upLock | .dn => s.chain.dnLock

/-- A link-local frame goes out on a port. -/
def putLine (p : ChainPort) (f : ChainFrame) (s : State) : State :=
  match p with
  | .up => outUp f s
  | .dn => outDown f s

/-- When what is on a port's line ends. -/
def busyTo (p : ChainPort) (s : State) : Nat :=
  match p with | .up => s.chain.upBusyTo | .dn => s.chain.dnBusyTo

/-! ## IDLE frames and partners (R88 to R91) -/

/-- The IDLE frame of a port (Table 04-4). -/
def idleOf (p : ChainPort) : ChainFrame :=
  { sdl := true, ftype := 0, amode := 0, payload := [match p with | .up => 0 | .dn => 1, 1, 0, 0] }

def idleSend (p : ChainPort) (s : State) : State :=
  if portLock p s && chainOn s then putLine p (idleOf p) s else s

/-- IDLE_SEND: 100 µs after the end of the port's last frame (R89). -/
def execIdleSend (port : ChainPort) (s : State) : Out :=
  .next (if portLock port s && chainOn s then idleSend port (advanceTo (busyTo port s + 80000) s) else s)

/-- SYMBOL_LOCK: the port listens for its partner's first IDLE and sends its own (R88, R89). -/
def symbolLock (p : ChainPort) (s : State) : State :=
  if !chainOn s || portLock p s then s
  else
    let s := match p with | .up => freshEcho s | .dn => s
    let c := s.chain
    idleSend p { s with chain := match p with
      | .up => { c with upLock := true, upKnown := false, upPartner := .none, upMiswire := false }
      | .dn => { c with dnLock := true, dnKnown := false, dnPartner := false, dnMiswire := false } }

def execSymbolLock (port : ChainPort) (s : State) : Out := .next (symbolLock port s)

/-- The partner an IDLE frame on UP declares: a node DN port or a head-interface host of link
generation 1 (R90). -/
def upPartnerOf (i : IdleInfo) : Partner :=
  if i.generation != 1 then .none
  else match i.port.toNat with
    | 1 => .node
    | 2 => if i.clksrc then .hostClk else .host
    | _ => .none

/-- WARN CHAIN_MISWIRE names the port (R90): 0 UP, 1 DN in byte 24 of the record, which is the model's choice
(DESIGN CHOICE, log entry 44). -/
def miswire (p : ChainPort) (s : State) : State :=
  note .host 0x0301 1 0xFF [match p with | .up => 0 | .dn => 1] s

/-- IDLE_FRAME: the first valid one decides the partner (R89 to R91). -/
def idleFrame (p : ChainPort) (i : IdleInfo) (s : State) : State :=
  if !portLock p s || !chainOn s then s
  else match p with
    | .up =>
      if s.chain.upKnown && s.chain.upPartner != .none then s
      else
        let q := upPartnerOf i
        if q = .none then
          (let s' := { s with chain := { s.chain with upKnown := true, upMiswire := true } }
           if s.chain.upMiswire then s' else miswire .up s')
        else ensureTimebase (chooseRef { s with chain := { s.chain with upKnown := true, upPartner := q } })
    | .dn =>
      if s.chain.dnKnown && s.chain.dnPartner then s
      else if i.generation != 1 || i.port != 0 then
        (let s' := { s with chain := { s.chain with dnKnown := true, dnMiswire := true } }
         if s.chain.dnMiswire then s' else miswire .dn s')
      else { s with chain := { s.chain with
        dnKnown := true, dnPartner := true, fullDue := s.chain.fullDue || !s.chain.dnGained, dnGained := true } }

def execIdleFrame (port : ChainPort) (info : IdleInfo) (s : State) : Out := .next (dropClaim (idleFrame port info s))

/-- PARTNER_TIMEOUT: no valid IDLE within 1 ms of lock, so no partner (R89). -/
def partnerTimeout (p : ChainPort) (s : State) : State :=
  if !portLock p s then s
  else match p with
    | .up => if s.chain.upKnown then s else
        ensureTimebase { s with chain := { s.chain with upKnown := true } }
    | .dn => if s.chain.dnKnown then s else { s with chain := { s.chain with dnKnown := true } }

def execPartnerTimeout (port : ChainPort) (s : State) : Out := .next (dropClaim (partnerTimeout port s))

/-! ## Breaks (R114 to R117) -/

/-- An island head runs no walk: the one it ran ends, and an ENUMERATE that waits for its DONE is refused as
ISLAND (R115; log entry 45). -/
def dropWalk (s : State) : State :=
  match s.chain.walk with
  | none => s
  | some w =>
    let s := { s with chain := { s.chain with walk := none, enumBusy := false } }
    match w.q with
    | some q => reply q { status := 0x11, detail := 0x22 } s
    | none => s

/-- The node loses its upstream partner and becomes island head: BREAK_FRAME is now, the policy timer
runs, and a TIME frame with ISLAND leaves at the next frame boundary (R114, R116, R117). -/
def islandFrom (s : State) : State :=
  let s := dropWalk s
  let due := now s + BitVec.ofNat 48 (s.chain.policy.toNat * 100000)
  let s := { s with chain := { s.chain with island := true, breakFrame := now s, islandTimer := some due } }
  let s := duePolicy (ensureTimebase (chooseRef s))
  insertTime (advanceTo ((s.clk.tb.toNat + 799) / 800 * 800) s)

/-- The packet by which a new tail tells the head of its main chain of the break, since R114 has that head raise
CHAIN_BREAK and names no message: the event code and the tail's hop under the opcode of an event reply (DESIGN
CHOICE, log entry 46). -/
def breakPacket (s : State) : Packet :=
  { ver := 1, bcast := false, ackreq := false, sched := false, more := false, opcode := 0xD8, seq := 0
    dest := s.chain.headAddr, src := ownAddr s, chainId := s.chain.chainId, cls := 1, applyAt := now s
    payload := be 2 0x0304 ++ be 2 s.chain.hop.toNat }

/-- WARN CHAIN_BREAK names the new tail's hop (R114). -/
def chainBreak (hop : Nat) (s : State) : State := note .host 0x0304 1 0xFF (be 2 hop) s

/-- SYMBOL_LOCK_LOSS: a break of the port; how many code groups were invalid is a free value
(R88, R114). -/
def symbolLockLoss (p : ChainPort) (s : State) : State :=
  if !portLock p s then s
  else
    let bad := Config.freeTicks s.free % 256
    let s := draw s
    match p with
    | .up =>
      let was := s.chain.upPartner
      let c := s.chain
      let c := { c with
        upLock := false, upPartner := .none, upKnown := false, upMiswire := false, upBreaks := satInc c.upBreaks
        errUp := { c.errUp with code := satAdd c.errUp.code bad }, claim := none }
      let s := freshEcho { s with chain := c }
      if was = .none then chooseRef s else islandFrom s
    | .dn =>
      let was := s.chain.dnPartner
      let c := s.chain
      let c := { c with
        dnLock := false, dnPartner := false, dnKnown := false, dnMiswire := false, dnBreaks := satInc c.dnBreaks
        errDn := { c.errDn with code := satAdd c.errDn.code bad } }
      let s := { s with chain := c }
      if !was || s.chain.island then s
      else if isHead s then chainBreak s.chain.hop.toNat s
      else if hcoreRuns s then queueUp (upFrame 6 (breakPacket s) s) s
      else s

def execSymbolLockLoss (port : ChainPort) (s : State) : Out := .next (dropClaim (symbolLockLoss port s))

/-! ## Forwarding (R93 to R96)

A row that names a frame is the frame's whole arrival: it is counted if it is dropped, forwarded if it is an SD
frame, and acted on if it is consumed (log entry 47). -/

/-- The packet of a CMD frame agrees with its AMODE (R94). -/
def modeAgrees (f : ChainFrame) : Bool :=
  match f.amode.toNat with
  | 1 => (byteAt f.payload 0).getLsbD 0
  | 0 => beAt f.payload 4 2 == f.dest.toNat
  | _ => true

/-- The frame's use is one that Table 04-2 gives for frames arriving on this port (R93, R94). -/
def frameOk (p : ChainPort) (f : ChainFrame) : Bool :=
  f.ftypeHi == 0 && f.lenOk && decide (f.payload.length ≤ 252) &&
  (match f.sdl, p, f.ftype.toNat with
    | true, _, 0 => f.amode == 0
    | true, .up, 2 => f.amode == 0 && f.payload.headD 0 == 1
    | true, .dn, 2 => f.amode == 0 && f.payload.headD 0 == 0
    | true, .up, 3 => f.amode == 0 && f.payload.headD 1 == 0
    | false, .up, 1 => f.amode == 1
    | false, .up, 3 => (f.amode == 3 && f.payload.headD 0 == 2) || (f.amode == 1 && f.payload.headD 0 == 4)
    | false, .up, 4 => f.amode != 2 && modeAgrees f
    | false, .up, 7 => f.amode == 1
    | false, .dn, 3 => f.amode == 0 && (f.payload.headD 0 == 1 || f.payload.headD 0 == 3)
    | false, .dn, 5 => f.amode == 0
    | false, .dn, 6 => f.amode == 0
    | _, _, _ => false)

/-- A forwarded frame ends with a correct CRC only if it arrived so (R96). -/
def passed (f : ChainFrame) : ChainFrame := { f with crc := passedCrc f.crc }

/-- The port counts a frame it drops (R93, R96). -/
def countOn (p : ChainPort) (c : CrcState) (ok : Bool) (s : State) : State :=
  match p with
  | .up => { s with chain := { s.chain with errUp := countFrame c ok s.chain.errUp } }
  | .dn => { s with chain := { s.chain with errDn := countFrame c ok s.chain.errDn } }

/-- The port has a valid partner (R90). -/
def portPartner (p : ChainPort) (s : State) : Bool :=
  match p with | .up => s.chain.upPartner != .none | .dn => s.chain.dnPartner

/-- An SD frame that arrives on a port with a valid partner leaves on the other (R90, R95). -/
def forwardOn (p : ChainPort) (f : ChainFrame) (s : State) : State :=
  if f.sdl || !portPartner p s then s
  else match p with
    | .up => sendDown (passed f) s
    | .dn => sendUp (passed f) s

/-- A frame arrives on a port: counted if it is dropped, forwarded if it is an SD frame (R93 to R96). -/
def arrive (p : ChainPort) (f : ChainFrame) (s : State) : State := forwardOn p f (countOn p f.crc (frameOk p f) s)

/-- The port takes frames: it is clocked and has symbol lock. -/
def portUp (p : ChainPort) (s : State) : Bool := chainOn s && portLock p s

/-- The frame may act at this node: it is dropped by no rule and comes from a valid partner (R90, R93, R96). -/
def actsHere (p : ChainPort) (f : ChainFrame) (s : State) : Bool :=
  portPartner p s && f.crc = .good && frameOk p f

/-- FRAME_FORWARD: a frame that this node does not act on passes to the other port, unless this node is its end,
and one that the receiver drops is counted (R95, R96). -/
def frameForward (p : ChainPort) (f : ChainFrame) (s : State) : State :=
  if portUp p s then arrive p f s else s

def execFrameForward (port : ChainPort) (frame : ChainFrame) (s : State) : Out :=
  .next (frameForward port frame s)

/-! ## Own frames (R97, R99) -/

/-- The queued frame of the most urgent class. -/
def firstFrame : List OwnFrame → Option OwnFrame
  | [] => none
  | f :: fs =>
    match firstFrame fs with
    | none => some f
    | some g => if classBefore g.frame f.frame then some g else some f

/-- When a queued frame has waited its time: 100 µs in class 0, 1 ms in class 1 to 3 (R97). -/
def waitEnd (x : OwnFrame) : Nat := x.since + (if x.frame.cls = 0 then 80000 else 800000)

/-- The queued frame whose wait ends first. -/
def firstDue : List OwnFrame → Option OwnFrame
  | [] => none
  | f :: fs =>
    match firstDue fs with
    | none => some f
    | some g => if waitEnd g < waitEnd f then some g else some f

/-- UP takes an own frame: a partner listens there. -/
def mayInsert (s : State) : Bool := chainOn s && s.chain.upLock && s.chain.upPartner != .none

/-- An own frame leaves UP, and one held in SRAM takes its entry (R97, R99). -/
def insertFrame (x : OwnFrame) (s : State) : State :=
  sendUp x.frame { s with chain := { s.chain with
    rg5 := dropFirst (fun y => y == x) s.chain.rg5 ++ s.chain.rg5Held.take 1
    rg5Held := s.chain.rg5Held.drop 1 } }

/-- OWN_FRAME_INSERT: the port is idle, so that the elastic buffer is empty, and the first own frame leaves
(R97). -/
def insertOwn (s : State) : State :=
  if !mayInsert s then s
  else match firstFrame s.chain.rg5 with
    | none => s
    | some x => insertFrame x (advanceTo s.chain.upBusyTo s)

def execOwnFrameInsert (s : State) : Out := .next (insertOwn s)

/-- INSERT_WAIT_EXPIRY: the frame that has waited its time follows the frame that is passing then (R97; log entry
47). -/
def insertDue (s : State) : State :=
  if !mayInsert s then s
  else match firstDue s.chain.rg5 with
    | none => s
    | some x => insertFrame x (advanceTo (max (waitEnd x) s.chain.upBusyTo) s)

def execInsertWaitExpiry (s : State) : Out := .next (insertDue s)

/-! ## Replies at the head (R131, R132) -/

/-- A packet from the bytes of a frame (Table 05-1), if its length and CRC are right. -/
def parsePacket (bs : List Byte) : Option Packet :=
  let n := (byteAt bs 9).toNat
  if bs.length != 20 + n then none
  else if beAt bs (16 + n) 4 != (crc32c (bs.take (16 + n))).toNat then none
  else
    let f := byteAt bs 0
    some { ver := f.extractLsb' 4 4, bcast := f.getLsbD 0, ackreq := f.getLsbD 1, sched := f.getLsbD 2,
           more := f.getLsbD 3, opcode := byteAt bs 1, seq := BitVec.ofNat 16 (beAt bs 2 2),
           dest := BitVec.ofNat 16 (beAt bs 4 2), src := BitVec.ofNat 16 (beAt bs 6 2),
           chainId := (byteAt bs 8).extractLsb' 5 3, cls := (byteAt bs 8).extractLsb' 3 2,
           ignored := (byteAt bs 8).extractLsb' 0 3
           applyAt := BitVec.ofNat 48 (beAt bs 10 6), payload := (bs.drop 16).take n }

/-- The head returns a reply to the transport of its origin entry, else to a head-interface host, else it counts
it; one with a wrong packet CRC is counted (R123, R131, R132). -/
def returnReply (f : ChainFrame) (s : State) : State :=
  match parsePacket f.payload with
  | none => { s with pkt := { s.pkt with chain := { s.pkt.chain with crc := satInc s.pkt.chain.crc } } }
  | some p =>
    match s.chain.origins.find? (fun o => o.seq == p.seq && o.src == p.dest) with
    | some o => routeReply o.via p s
    | none =>
      if s.chain.upPartner != .none then sendUp f s
      else { s with pkt := { s.pkt with chain := { s.pkt.chain with drop := satInc s.pkt.chain.drop } } }

/-- RPL_FRAME on DN: a member passes it on; at a head it is returned if it is of the head's chain (R104, R132). -/
def rplFrame (f : ChainFrame) (s : State) : State :=
  if !portUp .dn s || f.ftype != 5 then s
  else if !isHead s then arrive .dn f s
  else
    let s := countOn .dn f.crc (frameOk .dn f) s
    if actsHere .dn f s && f.chainId == s.chain.chainId && hcoreRuns s then returnReply f s
    else forwardOn .dn f s

def execRplFrame (frame : ChainFrame) (s : State) : Out := .next (rplFrame frame s)

/-- ORIGIN_ENTRY_EXPIRY: the oldest entry has lived its 10 s (R132). -/
def execOriginEntryExpiry (s : State) : Out :=
  .next { s with chain := { s.chain with origins := s.chain.origins.drop 1 } }

/-! ## The enumeration walk (R106 to R111, R118) -/

/-- The 20 bytes of an ENUM frame (Table 04-6). -/
def enumBytes (kind : Nat) (i : EnumInfo) : List Byte :=
  [BitVec.ofNat 8 kind,
    BitVec.ofNat 8 (b2n i.recheck + 2 * b2n i.pinned + 4 * b2n i.accept + 8 * b2n i.stalled + 16 * (i.resv.toNat / 2 ^ 24))] ++
  be 2 i.gen.toNat ++ be 2 i.hop.toNat ++ be 2 i.addr.toNat ++ be 8 i.serial.toNat ++ [i.planner] ++
  be 3 (i.resv.toNat % 2 ^ 24)

/-- The ENUM frame of a kind, payload and header (Tables 04-5 and 04-6). -/
def enumOf (kind : Nat) (i : EnumInfo) : ChainFrame :=
  withHdr i.hdr
    { sdl := kind = 0, ftype := 3, amode := (match kind with | 2 => 3 | 4 => 1 | _ => 0), payload := enumBytes kind i }

/-- An ENUM frame of this node. -/
def enumFrame (kind : Nat) (i : EnumInfo) (dest : BitVec 16) (s : State) : ChainFrame :=
  enumOf kind { i with hdr := { chainId := s.chain.chainId, srcuna := !s.chain.addrValid, dest := dest, origHop := s.chain.hop } }

/-- An SD ENUM frame arrives: counted if its CRC is wrong, and forwarded (R95, R96). -/
def enumPass (p : ChainPort) (kind : Nat) (i : EnumInfo) (s : State) : State := arrive p (enumOf kind i) s

/-- CH_PIN, which a node in Sand treats as unpinned (R121, R425). -/
def pinned (s : State) : Bool := bit (reg s 0x030004) 16 && s.modes.mode != .sand
def pinAddr (s : State) : BitVec 16 := BitVec.ofNat 16 (field (reg s 0x030004) 15 0)

/-- The planner source of this node differs from that of its head, which the latest DONE gave (R18, R109). -/
def plannerDiffers (s : State) : Bool :=
  (!isHead s || islandHead s) && s.chain.headPlanner.any (· != planner s)

/-- The head's planner source at a DONE; a node that differs raises a WARN (R18). -/
def checkPlanner (p : Byte) (s : State) : State :=
  let s := { s with chain := { s.chain with headPlanner := some p } }
  if p != planner s then note .host 0x0003 1 0xFF [p, planner s] s else s

/-- The node's address changes; out of Clay that is Clay with cause 3 and a WARN (R109). -/
def takeAddr (a : BitVec 16) (valid : Bool) (id : BitVec 3) (s : State) : State :=
  let changed := s.chain.addrValid != valid || (valid && s.chain.addr != a)
  let out := !s.modes.clay
  let s := { s with chain := { s.chain with addr := if valid then a else s.chain.addr, addrValid := valid, chainId := id } }
  if changed && out then note .host 0x0306 1 0xFF (be 2 a.toNat) (hostClay 3 s) else s

/-- A DONE that follows healing: the island is over, its timer stops and cause 6 is released (R116,
R118). -/
def endIsland (s : State) : State :=
  liftCause 6 { s with chain := { s.chain with island := false, islandTimer := none, policyExpired := false } }

/-- START, or END where no DN partner listens (R107). -/
def sendStart (recheck : Bool) (gen next : BitVec 16) (s : State) : State :=
  if s.chain.dnPartner then
    putLine .dn (enumFrame 0 { recheck := recheck, gen := gen, hop := s.chain.hop, addr := next } 0 s) s
  else sendUp (enumFrame 3 { recheck := recheck, gen := gen, hop := s.chain.hop, addr := 0 } 0 s) s

/-- The head ends a walk with DONE, its reply and the rules of DONE for itself (R109, R110, R163). -/
def endWalk (last : BitVec 16) (stalled : Bool) (s : State) : State :=
  match s.chain.walk with
  | none => s
  | some w =>
    let done : EnumInfo := { recheck := w.recheck, gen := w.gen, hop := last, addr := s.chain.addr, planner := planner s }
    let s := sendDown (enumFrame 4 done 0 s) s
    let s := if stalled then note .host 0x0303 1 0xFF (be 2 last.toNat) s else s
    let s := { s with chain := { s.chain with
      walk := none, walked := true, enumBusy := false, gen := w.gen, headAddr := s.chain.addr } }
    let s := endIsland (checkPlanner (planner s) s)
    match w.q with
    | none => s
    | some q => reply q { data := be 2 w.gen.toNat ++ be 2 last.toNat ++ be 4 (chDup s).toNat } s

/-- A walk begins: the head takes its own address and sends START; a walk in progress is superseded
(R106, R163). An island head runs none (R115). -/
def walkStart (recheck : Bool) (q : Option Request) (s : State) : State :=
  if !(isHead s && !islandHead s && chainOn s) then s
  else
    let s := match s.chain.walk with
      | some w => (match w.q with
        | some old => reply old { status := 0x11, detail := 0x31 } s
        | none => s)
      | none => s
    let gen := s.chain.walkGen + 1
    let s := takeAddr (if pinned s then pinAddr s else 0) true (BitVec.ofNat 3 (field (reg s 0x030000) 2 0)) s
    let s := { s with chain := { s.chain with
      walk := some { recheck := recheck, gen := gen, q := q }, walkGen := gen, enumBusy := true, hop := 0
      dupCount := 0, dupHop := 0, dupReports := [] } }
    if s.chain.dnPartner then sendStart recheck gen (s.chain.addr + 1) s else endWalk 0 false s

/-- ENUM_WALK_START: a FULL walk of the head's own accord follows the first DN partner after power-up, where
CH_CFG.AUTOENUM is set; a RECHECK walk follows a break that heals or a partner gained at any node (R106, R121). -/
def autoWalk (recheck : Bool) (s : State) : State :=
  if recheck then walkStart true none s
  else if s.chain.fullDue && bit (reg s 0x030000) 3 && isHead s then
    walkStart false none { s with chain := { s.chain with fullDue := false } }
  else s

def execEnumWalkStart (recheck : Bool) (s : State) : Out := .next (autoWalk recheck s)

/-- The GEN of an ENUM frame is not older than the last one the node saw (R106). -/
def genFresh (g : BitVec 16) (s : State) : Bool :=
  let last := match s.chain.claim with | some c => c.gen | none => s.chain.gen
  decide (0 ≤ (g - last).toInt)

/-- The CLAIM of this node. -/
def claimInfo (c : Claim) (s : State) : EnumInfo :=
  { recheck := c.recheck, pinned := c.pinned, gen := c.gen, hop := s.chain.hop, addr := c.addr, serial := s.id.serial }

/-- ENUM_START: hop, claim, CLAIM, and START or END unless the node waits for its VERDICT (R107). PINNED is set for
a claim of the pin alone: a pinned node that claims the address it holds in a RECHECK sends it as 0, which is the
model's choice (DESIGN CHOICE, log entry 48). -/
def enumStart (i : EnumInfo) (s : State) : State :=
  if !portUp .up s then s
  else
    let s := arrive .up (enumOf 0 i) s
    if !(s.chain.upPartner = .node && i.hdr.crc = .good && genFresh i.gen s) then s
    else
      let s := { s with chain := { s.chain with hop := i.hop + 1, enumBusy := true } }
      let keep := i.recheck && s.chain.addrValid
      let pin := !keep && pinned s
      let c : Claim :=
        { recheck := i.recheck, gen := i.gen, hop := i.hop + 1, next := i.addr
          addr := if keep then s.chain.addr else if pin then pinAddr s else i.addr
          pinned := pin, waiting := pin, sends := 1, rejected := false, startSent := !pin && s.chain.dnPartner }
      let s := sendUp (enumFrame 1 (claimInfo c s) 0 s) { s with chain := { s.chain with claim := some c } }
      if pin then s else sendStart i.recheck i.gen (c.addr + 1) s

def execEnumStart (info : EnumInfo) (s : State) : Out := .next (enumStart info s)

/-- The VERDICT the head gives a judged claim. -/
def verdict (j : Judged) (w : Walk) (s : State) : ChainFrame :=
  enumFrame 2 { recheck := w.recheck, accept := j.accept, gen := w.gen, hop := j.hop, addr := j.addr,
                serial := j.serial } j.hop s

/-- A rejected claim is counted and reported: the record of ADDR_DUP has room for both hops, the address and the low
byte of each serial number, and the whole of both serial numbers stands beside it (R108; log entry 49). -/
def reportDup (first : Option Judged) (i : EnumInfo) (s : State) : State :=
  let hop0 := match first with | some f => f.hop | none => 0
  let serial0 := match first with | some f => f.serial | none => s.id.serial
  note .host 0x0302 1 0xFF (be 2 hop0.toNat ++ be 2 i.hop.toNat ++ be 2 i.addr.toNat ++
      [serial0.setWidth 8, i.serial.setWidth 8])
    { s with chain := { s.chain with
      dupHop := if s.chain.dupCount = 0 then i.hop else s.chain.dupHop
      dupCount := satInc s.chain.dupCount
      dupReports := s.chain.dupReports ++
        [{ hop1 := hop0, hop2 := i.hop, serial1 := serial0, serial2 := i.serial, addr := i.addr }] } }

/-- The head judges a claim: the first claim of an address stands, a later one is rejected and
reported; a repeated claim gets its VERDICT again (R108, R111). -/
def judgeClaim (i : EnumInfo) (w : Walk) (s : State) : State :=
  match w.claims.find? (fun j => j.hop == i.hop && j.serial == i.serial) with
  | some j => if i.pinned || !j.accept then sendDown (verdict j w s) s else s
  | none =>
    let first := w.claims.find? (fun j => j.accept && j.addr == i.addr)
    let ok := first.isNone && i.addr != s.chain.addr
    let j : Judged := { hop := i.hop, addr := i.addr, serial := i.serial, accept := ok }
    let s := { s with chain := { s.chain with walk := some { w with claims := w.claims ++ [j] } } }
    let s := if i.pinned || !ok then sendDown (verdict j w s) s else s
    if ok then s else reportDup first i s

/-- The head runs this walk. -/
def walks (i : EnumInfo) (s : State) : Option Walk :=
  if isHead s && !islandHead s && i.hdr.crc = .good then s.chain.walk.filter (fun w => i.gen = w.gen) else none

/-- A CLAIM of the next hop has come, so START was not lost (R110). -/
def sawClaim (i : EnumInfo) (s : State) : State :=
  match s.chain.claim with
  | some c =>
    if i.hdr.crc = .good && i.gen = c.gen && i.hdr.origHop = s.chain.hop + 1 then
      { s with chain := { s.chain with claim := some { c with startSent := false } } }
    else s
  | none => s

/-- ENUM_CLAIM on DN: passed on, seen by the node above, and judged at the head (R95, R108, R110). -/
def enumClaim (i : EnumInfo) (s : State) : State :=
  if !(portUp .dn s && s.chain.dnPartner) then s
  else
    let s := sawClaim i (enumPass .dn 1 i s)
    match walks i s with
    | some w => judgeClaim i w s
    | none => s

def execEnumClaim (info : EnumInfo) (s : State) : Out := .next (enumClaim info s)

/-- The VERDICT names this claimer, and is of its chain (R98). -/
def myVerdict (i : EnumInfo) (c : Claim) (s : State) : Bool :=
  i.hdr.crc = .good && ownChain i.hdr s && i.hdr.dest = s.chain.hop && i.gen = c.gen && i.hop = s.chain.hop &&
  i.serial = s.id.serial

/-- ENUM_VERDICT on UP: passed on; a waiting pinned claimer goes on with START, and a rejection counts whenever it
comes, an acceptance only while the claimer waits (R95, R107, R111). -/
def enumVerdict (i : EnumInfo) (s : State) : State :=
  if !(portUp .up s && s.chain.upPartner != .none) then s
  else
    let s := enumPass .up 2 i s
    match s.chain.claim with
    | none => s
    | some c =>
      if !myVerdict i c s then s
      else if !c.waiting then
        { s with chain := { s.chain with claim := some { c with rejected := c.rejected || !i.accept } } }
      else
        let c' := { c with waiting := false, rejected := !i.accept, startSent := s.chain.dnPartner }
        let s := { s with chain := { s.chain with claim := some c' } }
        sendStart c.recheck c.gen (if i.accept then c.addr + 1 else c.next + 1) s

def execEnumVerdict (info : EnumInfo) (s : State) : Out := .next (enumVerdict info s)

/-- ENUM_END on DN: passed on; at the head it ends the walk, and STALLED is reported (R95, R110). -/
def enumEnd (i : EnumInfo) (s : State) : State :=
  if !(portUp .dn s && s.chain.dnPartner) then s
  else
    let s := enumPass .dn 3 i s
    match walks i s with
    | some _ => endWalk i.hop i.stalled s
    | none => s

def execEnumEnd (info : EnumInfo) (s : State) : Out := .next (enumEnd info s)

/-- The claim takes effect unless it was rejected; a node beyond a stall keeps its address (R109, R110). -/
def applyClaim (i : EnumInfo) (s : State) : State :=
  match s.chain.claim with
  | some c =>
    if c.gen = i.gen && s.chain.hop.toNat ≤ i.hop.toNat then takeAddr c.addr (!c.rejected) i.hdr.chainId s else s
  | none => s

/-- ENUM_DONE on UP: passed on; the claim takes effect, the chain ID is taken from it whatever it was, the planner
source is checked, and an island ends (R104, R109, R18, R118). -/
def enumDone (i : EnumInfo) (s : State) : State :=
  if !(portUp .up s && s.chain.upPartner != .none) then s
  else
    let s := enumPass .up 4 i s
    if !(s.chain.upPartner = .node && i.hdr.crc = .good && genFresh i.gen s) then s
    else
      let s := applyClaim i s
      let s := { s with chain := { s.chain with
        gen := i.gen, headAddr := i.addr, claim := none, enumBusy := false, chainId := i.hdr.chainId } }
      endIsland (checkPlanner i.planner s)

def execEnumDone (info : EnumInfo) (s : State) : Out := .next (enumDone info s)

/-- ENUM_STALL_TIMEOUT: no CLAIM from the next hop within 1 ms of START; the head ends the walk, a node sends END
with STALLED, also where a break has made it TAIL since (R110). -/
def enumStallTimeout (s : State) : State :=
  if !chainOn s then s
  else match s.chain.walk, s.chain.claim with
  | some w, _ => if w.claims.all (fun j => j.hop != 1) && !islandHead s then endWalk 0 true s else s
  | none, some c =>
    if c.startSent then
      sendUp (enumFrame 3 { recheck := c.recheck, stalled := true, gen := c.gen, hop := s.chain.hop, addr := 0 } 0 s)
        { s with chain := { s.chain with claim := some { c with startSent := false } } }
    else s
  | none, none => s

def execEnumStallTimeout (s : State) : Out := .next (enumStallTimeout s)

/-- CLAIM_RESEND: the same CLAIM again up to twice; then the claim counts as rejected (R111). -/
def claimResend (s : State) : State :=
  match s.chain.claim with
  | none => s
  | some c =>
    if !(c.waiting && chainOn s) then s
    else if c.sends < 3 then
      sendUp (enumFrame 1 (claimInfo c s) 0 s) { s with chain := { s.chain with claim := some { c with sends := c.sends + 1 } } }
    else
      let c' := { c with waiting := false, rejected := true, startSent := s.chain.dnPartner }
      let s := { s with chain := { s.chain with claim := some c' } }
      note .host 0x0303 1 0xFF (be 2 s.chain.hop.toNat) (sendStart c.recheck c.gen (c.next + 1) s)

def execClaimResend (s : State) : Out := .next (claimResend s)

/-! ## Marl frames (R119) -/

/-- A MARL pattern names this node. -/
def marlNames (i : MarlInfo) (s : State) : Bool :=
  i.all || (s.chain.addrValid && decide (i.first.toNat ≤ s.chain.addr.toNat) && decide (s.chain.addr.toNat ≤ i.last.toNat))

/-- How a MARL frame's CRC stands. -/
def marlCrc (i : MarlInfo) : CrcState := if i.valid then .good else if i.hdr.crc = .stomped then .stomped else .bad

/-- A MARL frame (Table 04-4). -/
def marlOf (i : MarlInfo) : ChainFrame :=
  let bs := [BitVec.ofNat 8 (b2n i.all + 2 * (i.resv.toNat / 2 ^ 16)), i.reason] ++ be 2 i.first.toNat ++
    be 2 i.last.toNat ++ be 2 (i.resv.toNat % 2 ^ 16)
  withHdr { i.hdr with crc := marlCrc i } { ftype := 7, amode := 1, payload := bs }

/-- The frames of a pattern this node sends (R119). -/
def marlSent (i : MarlInfo) (s : State) : ChainFrame :=
  marlOf { i with hdr := { chainId := s.chain.chainId, srcuna := !s.chain.addrValid, origHop := s.chain.hop } }

/-- A MARL frame arrives on UP: forwarded as it is, and consecutive valid frames of one pattern of the node's chain
that name the node are counted; true at the fourth (R95, R98, R119). -/
def marlCount (i : MarlInfo) (s : State) : State × Bool :=
  if !(portUp .up s && s.chain.upPartner != .none) then (s, false)
  else
    let s := arrive .up (marlOf i) s
    let mine := i.valid && ownChain i.hdr s
    let counts := mine && marlNames i s && bit (reg s 0x03002C) 0
    let n := if !counts then 0 else if s.chain.marlLast = some i then s.chain.marlCount + 1 else 1
    ({ s with chain := { s.chain with marlCount := n, marlLast := if mine then some i else none } }, n == 4)

/-- The sixteen frames of a pattern leave back to back, and TB moves on to the end of the last (R119, R163). -/
def sendPattern (i : MarlInfo) (s : State) : State :=
  let s := (List.range 16).foldl (fun s _ => sendDown (marlSent i s) s) s
  advanceTo s.chain.dnBusyTo s

/-- CH_CNTCLR (Table 04-8). -/
def clearChain (v : Word) (s : State) : State :=
  let c := s.chain
  let c := if bit v 0 then { c with errUp := {} } else c
  let c := if bit v 1 then { c with errDn := {} } else c
  { s with chain := if bit v 2 then { c with upBreaks := 0, dnBreaks := 0 } else c }

def execChCntclr (value : Word) (s : State) : Out := .next (if domOn s 11 then clearChain value s else s)

end Sys2Proof.Machine
end

