-- ==== Sys2Proof/Machine/FieldOps.lean ====
section
/-! DEFINITION. The opcodes of outputs, sense inputs, fans and loops (06 Tables 06-7, 06-9, 06-10;
R165 to R167, R249, R265 to R277). -/

namespace Sys2Proof.Machine

/-! ## Checks the opcodes share (R84, R153, R154) -/

/-- The payload has exactly n bytes (R153). -/
def lenIs (n : Nat) (q : Request) : Option Ans :=
  if (reqBody q).length = n then none else refuse 0x22 0

/-- A condition on the parameters (R153). -/
def param (ok : Bool) : Option Ans := if ok then none else refuse 0x21 0

/-- The barrier is up and the field domains are ON (R84, Table 03-7). -/
def needField (ds : List (Fin 18)) (s : State) : Option Ans :=
  if !linkUp s then refuse 0x11 0x03
  else if ds.all (domOn s) then none else refuse 0x13 0

/-- The first answer of a list of checks. -/
def firstAns : List (Option Ans) → Option Ans
  | [] => none
  | a :: as => a <|> firstAns as

/-- Act unless a check of step 12 answers. -/
def guarded (c : Option Ans) (s : State) (f : State → State × Option Ans) : State × Option Ans :=
  match c with
  | some a => (s, some a)
  | none => f s

/-- The barrier arena (R451): what a command that needs n cells is answered when they do not fit, behind the
cells held of its order or earlier. -/
def barrierArena (q : Request) (n : Nat) (s : State) : Option (State × Option Ans) :=
  let rank := if q.pkt.opcode == 0x40 || q.pkt.opcode == 0x41 then 1 else if q.pkt.opcode == 0x5C then 3 else 2
  let b := (s.barr.rg6Held.filter fun c => decide (cellRank c ≤ rank)).length
  if b = 0 && s.barr.rg6.length + n ≤ 128 then none
  else if b + n ≤ 4096 then
    let t := now s + BitVec.ofNat 48 ((42 * (b + n) + 99) / 100 + 2)
    some ({ s with pkt := { s.pkt with
        barrDeferred := satInc s.pkt.barrDeferred, deferred := s.pkt.deferred ++ [{ q := q, ticket := t, why := .barrier }] } },
      some { status := 0x02, data := be 6 t.toNat })
  else some ({ s with pkt := { s.pkt with barrRefused := satInc s.pkt.barrRefused } },
    refuse 0x40 0x26)

/-- A command of flag F whose action is on the field side: its field part crosses as one cell, and its reply
follows the field's answer (R84, R154; log entry 13). -/
def crossAct (q : Request) (s : State) : State × Option Ans :=
  if !linkUp s then (s, refuse 0x11 0x03)
  else match barrierArena q 1 s with
    | some r => r
    | none => (startOp (.request q) false 0 ⟨q.pkt.opcode, reqBody q⟩ s, none)

/-- Hand-over sends a scheduled field part (R141). -/
def handOp (q : Request) (s : State) : State :=
  if linkUp s then startOp (.request q) true q.pkt.applyAt ⟨q.pkt.opcode, reqBody q⟩ s else s

/-! ## Output opcodes -/

def opOchSet : Op :=
  { code := 0x20
    check := fun q _ => lenIs 5 q <|> param ((byteAt (reqBody q) 4).toNat ≤ 2)
    act := crossAct, hand := handOp }

def execOchSet (q : Request) (s : State) : Out := .next (serve opOchSet q s)

/-- The masks of a deferred OCH_SET at its ticket (R448). -/
def deferredMasks (mask : Word) (s : State) : SetMasks :=
  (maskList mask).foldl (fun m n =>
    let g (x : Grant) : Bool := (driversOf s n).any fun d => s.out.ch[d].grant == x
    if g .refused then { m with refused := m.refused ||| oneBit n.val }
    else if g .staggered then { m with staggered := m.staggered ||| oneBit n.val }
    else { m with granted := m.granted ||| oneBit n.val }) {}

/-- The timing values of an OCH_TIMING suit every masked channel's mode (R203, R204). -/
def timingOk (mask period : Word) (s : State) : Bool :=
  (maskList mask).all fun n => channelValOk s n.val 0x04 period

def ochTimingCheck (q : Request) (s : State) : Option Ans :=
  let b := (reqBody q)
  lenIs 18 q <|> param ((byteAt b 12).toNat < 32 && (byteAt b 17).toNat < 32 && beAt b 4 4 != 0 &&
    timingOk (wordAt b 0) (wordAt b 4) s)

def opOchTiming : Op := { code := 0x21, check := ochTimingCheck, act := crossAct, hand := handOp }

def execOchTiming (q : Request) (s : State) : Out := .next (serve opOchTiming q s)

/-- The parts of a request, one for a single packet. -/
def reqPieces (q : Request) : List (List Byte) := if q.parts.isEmpty then [q.pkt.payload] else q.parts

/-- One 10-byte entry of OCH_EDGES; none where a field is reserved or out of range. -/
def edgeEntry (bs : List Byte) : Option Edge :=
  let c := (byteAt bs 0).toNat
  let tick := beAt bs 7 2
  if h : tick < 800 then
    if c / 32 % 4 = 0 && (byteAt bs 9).toNat < 32 then
      some { ch := Fin.ofNat 32 c, on := decide (128 ≤ c), frame := BitVec.ofNat 48 (beAt bs 1 6)
             tick := ⟨tick, h⟩, fine := (byteAt bs 9).setWidth 5 }
    else none
  else none

/-- The entries of all parts. -/
def edgeEntries (q : Request) : List (Option Edge) :=
  (reqPieces q).flatMap fun p => (chunks 10 23 (p.drop 1)).map edgeEntry

/-- Two edges of one channel at one execution time. -/
def clash (a b : Edge) : Bool := a.ch == b.ch && sameTime a b

def hasClash : List Edge → Bool
  | [] => false
  | e :: es => es.any (clash e) || hasClash es

/-- The edges that cross the barrier: sent, not yet in a queue, and still ahead. -/
def crossingEdges (s : State) : List Edge :=
  (s.barr.batches.flatMap (·.edges)).filter fun e =>
    !s.out.ch[e.ch].queue.contains e && decide (0 ≤ frameDiff e.frame (now s))

/-- The edges that wait for a channel at the field and at the host. -/
def waitingEdges (s : State) : List Edge :=
  s.out.ch.toList.flatMap (·.queue) ++ crossingEdges s ++ s.barr.heldEdges

def ochEdgesCheck (q : Request) (s : State) : Option Ans :=
  let es := (edgeEntries q).filterMap id
  (if (reqPieces q).all (fun p => p.length = 1 + 10 * (byteAt p 0).toNat) then none else refuse 0x22 0) <|>
  param ((reqPieces q).all (fun p => inRange 1 23 (byteAt p 0).toNat) && (edgeEntries q).all (·.isSome) &&
    !hasClash es && !es.any (fun e => (waitingEdges s).any (clash e)))

/-- More than 32 edges of one channel would lie within 1,000 frames (R208). -/
def crowded (l : List Edge) : Bool :=
  l.any fun e => 32 < (l.filter fun x =>
    x.ch == e.ch && 0 ≤ frameDiff x.frame e.frame && frameDiff x.frame e.frame < 1000).length

/-- Hand over edges whose channel queue has room; the host holds the others (R208). -/
def handEdges (es : List Edge) (s : State) : State :=
  let used (n : Fin 32) : Nat :=
    s.out.ch[n].queue.length + ((crossingEdges s).filter (fun e => e.ch == n)).length
  let split := es.foldl (fun (p : List Edge × List Edge) e =>
    if used e.ch + (p.1.filter (fun x => x.ch == e.ch)).length < 32 then (p.1 ++ [e], p.2) else (p.1, p.2 ++ [e])) ([], [])
  sendEdges split.1 { s with barr := { s.barr with heldEdges := s.barr.heldEdges ++ split.2 } }

/-- OCH_EDGES: stored or refused as a whole (R166, R208). -/
def ochEdgesAct (q : Request) (s : State) : State × Option Ans :=
  let es := (edgeEntries q).filterMap id
  let mask := maskOf (fun n => es.any (fun e => e.ch.val = n)) 32
  guarded ((if es.any (fun e => frameDiff e.frame (now s) < 400) then refuse 0x30 0 else none) <|>
      (if linkUp s && s.modes.clay then refuse 0x11 0x24 else none) <|>
      (if es.any (fun e => s.sect.ch[e.ch].geom.isSome) then refuse 0x11 0x33 else none) <|>
      (if sweepHolds mask s then refuse 0x11 0x30 else none) <|> needField [14] s <|>
      (if crowded (es ++ waitingEdges s) then refuse 0x40 0x26 else none)) s fun s =>
    (handEdges (sortBy (fun a b => decide (edgeKey s a < edgeKey s b)) es) s,
      done [BitVec.ofNat 8 (min 255 es.length)])

def opOchEdges : Op := { code := 0x22, check := ochEdgesCheck, act := ochEdgesAct }

def execOchEdges (q : Request) (s : State) : Out := .next (serve opOchEdges q s)

def opOchClear : Op := { code := 0x23, check := fun q _ => lenIs 4 q, act := crossAct, hand := handOp }

def execOchClear (q : Request) (s : State) : Out := .next (serve opOchClear q s)

def opOchStatus : Op := { code := 0x24, check := fun q _ => lenIs 0 q, act := crossAct }

def execOchStatus (q : Request) (s : State) : Out := .next (serve opOchStatus q s)

def opOchFlush : Op := { code := 0x25, check := fun q _ => lenIs 4 q, act := crossAct, hand := handOp }

def execOchFlush (q : Request) (s : State) : Out := .next (serve opOchFlush q s)

/-! ## Sense inputs and fans -/

def opSinRead : Op := { code := 0x38, check := fun q _ => lenIs 0 q, act := crossAct }

def execSinRead (q : Request) (s : State) : Out := .next (serve opSinRead q s)

def opFanRestart : Op :=
  { code := 0x39, check := fun q _ => lenIs 1 q <|> param ((byteAt (reqBody q) 0).toNat ≤ 31), act := crossAct, hand := handOp }

def execFanRestart (q : Request) (s : State) : Out := .next (serve opFanRestart q s)

/-! ## Loop opcodes -/

/-- Send coefficient cells with fresh TAGs and await their answers (R268). -/
def sendCoefs (q : Request) (cs : List CoefCell) (s : State) : State :=
  let p := cs.foldl (fun (p : List CoefSent × State) c =>
    let (tag, s) := drawTag p.2
    let c := { c with tag := tag }
    (p.1 ++ [{ cell := c, sends := 1, result := none }], sendCell (.loopCoef c) s)) ([], s)
  { p.2 with barr := { p.2.barr with coefs := p.2.barr.coefs ++ [{ q := q, cells := p.1 }] } }

def loopCoefCheck (q : Request) (_ : State) : Option Ans :=
  let b := (reqBody q)
  let n := (byteAt b 3).toNat
  (if 4 ≤ b.length && b.length = 4 + 4 * n then none else refuse 0x22 0) <|>
  param ((byteAt b 0).toNat ≤ 15 && (byteAt b 1).toNat ≤ 1 && 1 ≤ n && (byteAt b 2).toNat + n ≤ 17)

/-- LOOP_COEF as cells of up to four words in ascending index order (R268, R269). -/
def loopCoefAct (q : Request) (s : State) : State × Option Ans :=
  let b := (reqBody q)
  let ws := chunks 16 5 (b.drop 4)
  let cell (k : Nat) (p : List Byte) : CoefCell :=
    { tag := 0, slot := Fin.ofNat 16 (byteAt b 0).toNat, banked := byteAt b 1 == 1, swap := false
      first := byteAt b 2 + BitVec.ofNat 8 (4 * k), words := (chunks 4 4 p).map fun w => BitVec.ofNat 32 (ofBe w) }
  if !linkUp s then (s, refuse 0x11 0x03)
  else match barrierArena q ws.length s with
    | some r => r
    | none => (sendCoefs q (ws.zipIdx.map fun w => cell w.2 w.1) s, none)

def opLoopCoef : Op := { code := 0x40, check := loopCoefCheck, act := loopCoefAct }

def execLoopCoef (q : Request) (s : State) : Out := .next (serve opLoopCoef q s)

/-- LOOP_SWAP names the sample at which the shadow bank becomes active (R272, R273). -/
def loopSwapReq (q : Request) (s : State) : State × Option Ans :=
  let c : CoefCell :=
    { tag := 0, slot := Fin.ofNat 16 (byteAt (reqBody q) 0).toNat, banked := false, swap := true, first := 0, words := []
      sample := wordAt (reqBody q) 1 }
  if !linkUp s then (s, refuse 0x11 0x03)
  else match barrierArena q 1 s with
    | some r => r
    | none => (sendCoefs q [c] s, none)

def opLoopSwap : Op :=
  { code := 0x41, check := fun q _ => lenIs 5 q <|> param ((byteAt (reqBody q) 0).toNat ≤ 15), act := loopSwapReq }

def execLoopSwap (q : Request) (s : State) : Out := .next (serve opLoopSwap q s)

/-- The LOOP_CMD write that carries a LOOP_CTRL (R265, R277). -/
def ctrlPut (q : Request) : RegPut :=
  { addr := 0x130800, value := pack [(beAt (reqBody q) 0 2, 0), ((byteAt (reqBody q) 2).toNat, 16)], mask := 0xFFFFFFFF }

def loopCtrlAct (q : Request) (s : State) : State × Option Ans :=
  if byteAt (reqBody q) 2 == 1 && s.modes.clay then (s, refuse 0x11 0x24)
  else if !linkUp s then (s, refuse 0x11 0x03)
  else match barrierArena q 1 s with
    | some r => r
    | none => (startWrite (.request q) false 0 [ctrlPut q] s, none)

/-- Hand-over sends the scheduled write (R141). -/
def handWrite (puts : Request → List RegPut) (q : Request) (s : State) : State :=
  if linkUp s then startWrite (.request q) true q.pkt.applyAt (puts q) s else s

def opLoopCtrl : Op :=
  { code := 0x42, check := fun q _ => lenIs 3 q <|> param ((byteAt (reqBody q) 2).toNat ≤ 2), act := loopCtrlAct
    hand := handWrite fun q => [ctrlPut q] }

def execLoopCtrl (q : Request) (s : State) : Out := .next (serve opLoopCtrl q s)

/-- The signal parameters of Table 10-5. -/
def signalOk (b : List Byte) (s : State) : Bool :=
  let a := wordAt b 5
  let div := field (loopCfg s (Fin.ofNat 16 (byteAt b 0).toNat)) 9 0
  field a 31 26 = 0 &&
  (match (byteAt b 1).toNat with
    | 0 =>
      let n := (byteAt b 9).toNat
      prbsTap n != 0 && byteAt b 10 != 0 && inRange 1 (2 ^ n - 1) (beAt b 11 2)
    | 1 => decide (4 * div * beAt b 9 2 ≤ 10000000) && decide (4 * div * beAt b 11 2 ≤ 10000000) &&
        inRange 2 64 (byteAt b 13).toNat && inRange 1 1000 (beAt b 14 2)
    | _ => decide (beAt b 9 2 ≤ 16383))

def loopTestCheck (q : Request) (s : State) : Option Ans :=
  let b := (reqBody q)
  let len := match (byteAt b 1).toNat with | 0 => 13 | 1 => 16 | _ => 11
  (if 2 ≤ b.length && b.length = len then none else refuse 0x22 0) <|>
  param ((byteAt b 0).toNat ≤ 15 && (byteAt b 1).toNat ≤ 2 && (byteAt b 2).toNat ≤ 2 &&
    inRange 1 16384 (beAt b 3 2) && signalOk b s)

/-- The register writes that carry a LOOP_TEST (R277). -/
def testPuts (q : Request) : List RegPut :=
  let b := (reqBody q)
  let p (a : BitVec 24) (v : Word) : RegPut := { addr := a, value := v, mask := 0xFFFFFFFF }
  [p 0x130900 (pack [((byteAt b 0).toNat, 0), ((byteAt b 1).toNat, 4), ((byteAt b 2).toNat, 6), (beAt b 3 2, 8)]),
   p 0x130904 (wordAt b 5), p 0x130908 (wordAt (b ++ be 8 0) 9), p 0x13090C (wordAt (b ++ be 8 0) 13),
   p 0x130910 1]

/-- LOOP_TEST (R275). -/
def loopTestAct (q : Request) (s : State) : State × Option Ans :=
  let i : Fin 16 := Fin.ofNat 16 (byteAt (reqBody q) 0).toNat
  if !linkUp s then (s, refuse 0x11 0x03)
  else if s.modes.clay then (s, refuse 0x11 0x24)
  else if s.loop.slot[i].state != .running then (s, refuse 0x11 0)
  else if s.loop.test.running then (s, refuse 0x40 0x26)
  else match barrierArena q 5 s with
    | some r => r
    | none => (startWrite (.request q) false 0 (testPuts q) s, none)

def opLoopTest : Op := { code := 0x43, check := loopTestCheck, act := loopTestAct, hand := handWrite testPuts }

def execLoopTest (q : Request) (s : State) : Out := .next (serve opLoopTest q s)

def opLoopRead : Op :=
  { code := 0x44
    check := fun q _ => lenIs 6 q <|> param ((byteAt (reqBody q) 0).toNat ≤ 15 && (byteAt (reqBody q) 1).toNat ≤ 1 &&
      (byteAt (reqBody q) 1 == 0 || beAt (reqBody q) 2 4 ≤ 16383))
    act := crossAct }

def execLoopRead (q : Request) (s : State) : Out := .next (serve opLoopRead q s)

end Sys2Proof.Machine
end

