-- ==== Sys2Proof/Machine/Faults.lean ====
section
/-! DEFINITION. Event records, the event log, as-applied records and diagnostic sweeps (17, R424,
R427 to R439, R452 to R455) with their opcodes (06 Table 06-13). -/

namespace Sys2Proof.Machine

/-! ## Event records (R427 to R436) -/

/-- The 32 bytes of a record (Table 17-1). -/
def eventBytes (r : EventRec) : List Byte :=
  be 8 r.tb.toNat ++ be 4 ((if r.side = .field then 2147483648 else 0) + r.seq.toNat) ++ be 2 r.code.toNat ++
  [BitVec.ofNat 8 (r.sev.toNat + 4 * b2n r.opened), BitVec.ofNat 8 (r.code.toNat / 256), r.chan, 0] ++
  be 2 r.count.toNat ++ be 4 r.last.toNat ++ (r.data ++ be 8 0).take 8

/-- The mirror takes a field record: a repeat changes nothing, a known ID is replaced, and a new one
that finds the mirror full displaces an entry or is not mirrored, each counted (R433). -/
def mirrorEvent (r : EventRec) (s : State) : State :=
  let unlogged := markUnlogged r s.ev.unlogged
  match s.ev.mirror.find? (sameId r) with
  | some old =>
    if old = r then s
    else
      { s with ev := { s.ev with
          mirror := modFirst (sameId r) (fun _ => r) s.ev.mirror
          unlogged := if old.opened && !r.opened then unlogged else s.ev.unlogged } }
  | none =>
    let full := 64 ≤ s.ev.mirror.length
    let (q, _, queued) := enqueue r s.ev.mirror
    { s with ev := { s.ev with
        mirror := q
        mirrorOvf := if full then satInc s.ev.mirrorOvf else s.ev.mirrorOvf
        unlogged := if queued then unlogged else s.ev.unlogged } }

/-- Both cells of a field record were accepted at the host; the next HEARTBEAT acknowledges them (R433, R71). -/
def eventTaken (r : EventRec) (s : State) : State :=
  let s := mirrorEvent r s
  { s with ev := { s.ev with
      unacked := s.ev.unacked.filter (fun x => x != r)
      heard := if s.ev.unacked.contains r then s.ev.heard ++ [r] else s.ev.heard } }

/-- EVENT_MESSAGE arrives at the host. -/
def eventMessage (r : EventRec) (s : State) : State := onUp (.event r) (eventTaken r) s

def execEventMessage (rec' : EventRec) (s : State) : Out := .next (eventMessage rec' s)

/-- EVENT_RESEND: an unacknowledged message goes again in new cells (R433). -/
def execEventResend (seq : BitVec 31) (s : State) : Out :=
  .next (if !linkUp s then s
    else match (s.ev.unacked ++ s.ev.heard).find? (fun r => r.seq == seq) with
      | some r => upCell (.event r) s
      | none => s)

/-- The firmware of a side runs and handles records. -/
def handles (s : State) (side : Side) : Bool :=
  match side with
  | .host => hcoreRuns s
  | .field => s.fw.fcoreRun && !s.sec.fHalt && domOn s 13

/-- The most severe record of a list, the first created of those (R438). -/
def mostSevere : List EventRec → Option EventRec
  | [] => none
  | r :: rs =>
    match mostSevere rs with
    | none => some r
    | some x => if r.sev.toNat < x.sev.toNat then some x else some r

/-- EVENT_HANDLE: handling of the most severe record in hand ends, and the side takes the next of its
waiting records unless it resumes one of the same severity or above (R438). -/
def eventHandle (s : State) : State :=
  match mostSevere (s.ev.handling.filter fun r => handles s r.side) with
  | none => s
  | some r =>
    let rest := s.ev.handling.erase r
    let s := { s with ev := { s.ev with handling := rest } }
    match mostSevere (s.ev.waiting.filter fun x => x.side == r.side) with
    | none => s
    | some w =>
      if rest.any (fun x => x.side == r.side && w.sev.toNat ≤ x.sev.toNat) then s
      else { s with ev := { s.ev with handling := w :: rest, waiting := s.ev.waiting.erase w } }

def execEventHandle (s : State) : Out := .next (eventHandle s)

/-- EVT_CNTCLR (R456). -/
def clearEvt (v : Word) (s : State) : State :=
  { s with ev := { s.ev with
      hostOvf := if bit v 0 then 0 else s.ev.hostOvf
      mirrorOvf := if bit v 1 then 0 else s.ev.mirrorOvf } }

def execEvtCntclr (value : Word) (s : State) : Out := .next (if domOn s 1 then clearEvt value s else s)

/-! ## Epoch edges and commits (R430, R434, R424) -/

/-- A record that closes at the end of an epoch: every NOTE, and a WARN without an occurrence in it
(R430). -/
def closesNow (occ : List (Side × BitVec 16 × Byte)) (r : EventRec) : Bool :=
  r.opened && (r.sev == 0 || (r.sev == 1 && !occ.contains (r.side, r.code, r.chan)))

/-- The records of both sides that close at an epoch edge. -/
def closeEpoch (s : State) : State :=
  let occ := s.ev.epochOcc
  let shut (r : EventRec) : EventRec := if closesNow occ r then { r with opened := false } else r
  let hostGone := s.ev.host.filter (closesNow occ)
  let fieldGone := (s.ev.field.filter (closesNow occ)).map shut
  let s := { s with ev := { s.ev with
    host := s.ev.host.map shut, field := s.ev.field.map shut, epochOcc := []
    unlogged := hostGone.foldl (fun l r => markUnlogged r l) s.ev.unlogged } }
  fieldGone.foldl (fun s r => sendEvent r s) s

/-- The records created or closed since the last write go to the log as they stand (R434). -/
def writeLog (s : State) : State :=
  let nowOf (r : EventRec) : EventRec :=
    ((match r.side with | .host => s.ev.host | .field => s.ev.mirror).find? (sameId r)).getD r
  let new := s.ev.unlogged.zipIdx.map fun x => (s.ev.logNext + BitVec.ofNat 32 x.2, nowOf x.1)
  { s with ev := { s.ev with
      log := lastN 122880 (s.ev.log ++ new)
      logNext := s.ev.logNext + BitVec.ofNat 32 new.length
      unlogged := [] } }

/-- The buffered as-applied records go to their ring (R424). -/
def writeApplied (s : State) : State :=
  { s with fw := { s.fw with asRing := lastN 262144 (s.fw.asRing ++ s.fw.asBuf), asBuf := [] } }

/-- The event log and the as-applied records are committed (R434, R424). -/
def commitRecords (s : State) : State := writeApplied (writeLog s)

/-! ## EVENT_READ and EVENT_CLOSE -/

/-- The queue EVENT_READ names, as (index, record) (R435). -/
def eventQueue (b : Byte) (s : State) : List (Nat × EventRec) :=
  let keyed (l : List EventRec) : List (Nat × EventRec) :=
    sortBy (fun a b => decide (a.1 < b.1)) (l.map fun r => (r.seq.toNat, r))
  if b == 0 then keyed s.ev.host
  else if b == 1 then keyed s.ev.mirror
  else s.ev.log.map fun r => (r.1.toNat, r.2)

/-- The count of r2–5: the queue's overflow, or the oldest log index held (R435). -/
def eventCount (b : Byte) (s : State) : Nat :=
  if b == 0 then s.ev.hostOvf.toNat
  else if b == 1 then s.ev.mirrorOvf.toNat
  else match s.ev.log with
    | r :: _ => r.1.toNat
    | [] => s.ev.logNext.toNat

def eventReadAct (q : Request) (s : State) : State × Option Ans :=
  let b := reqBody q
  let sel := byteAt b 0
  let found := ((eventQueue sel s).filter fun r => beAt b 1 4 ≤ r.1).take (byteAt b 5).toNat
  (s, done (be 4 (eventCount sel s) ++ found.flatMap fun r => eventBytes r.2))

/-- EVENT_READ: in Sand the log only (Table 06-13). -/
def opEventRead : Op :=
  { code := 0x58
    check := fun q s =>
      (if s.modes.mode = .sand && byteAt (reqBody q) 0 != 2 then refuse 0x51 0 else none) <|> lenIs 6 q <|>
      param ((byteAt (reqBody q) 0).toNat ≤ 2 && inRange 1 7 (byteAt (reqBody q) 5).toNat)
    act := eventReadAct }

def execEventRead (q : Request) (s : State) : Out := .next (serve opEventRead q s)

/-- The queued record an EVENT_CLOSE names. -/
def namedEvent (id : Nat) (s : State) : Option EventRec :=
  let seq := BitVec.ofNat 31 id
  if id < 2147483648 then s.ev.host.find? (fun r => r.seq == seq) else s.ev.mirror.find? (fun r => r.seq == seq)

/-- EVENT_CLOSE: a host record closes; a field record closes on the mirror at once, and a write of
FEV_CLOSE carries the close to the field (R436). -/
def eventCloseAct (q : Request) (s : State) : State × Option Ans :=
  let id := beAt (reqBody q) 0 4
  match namedEvent id s with
  | none => (s, refuse 0x21 0x0B)
  | some r =>
    let shut (x : EventRec) : EventRec := if x.seq == r.seq then { x with opened := false } else x
    let unlogged := if r.opened then markUnlogged r s.ev.unlogged else s.ev.unlogged
    match r.side with
    | .host => (settleCritical { s with ev := { s.ev with host := s.ev.host.map shut, unlogged := unlogged } }, done [])
    | .field =>
      let s := { s with ev := { s.ev with mirror := s.ev.mirror.map shut, unlogged := unlogged } }
      (if linkUp s then
        startWrite .own false 0 [{ addr := 0x150004, value := BitVec.ofNat 32 id, mask := 0xFFFFFFFF }] s
       else s, done [])

def opEventClose : Op :=
  { code := 0x59
    check := fun q s => lenIs 4 q <|>
      (if (namedEvent (beAt (reqBody q) 0 4) s).isNone then refuse 0x21 0x0B else none)
    act := eventCloseAct }

def execEventClose (q : Request) (s : State) : Out := .next (serve opEventClose q s)

/-! ## Diagnostic sweeps (R452 to R455) -/

/-- Frames of a slot (Table 17-5). -/
def slotFrames (kind : Fin 4) (s : State) : Nat :=
  match kind with
  | 0 => 10000 | 1 => 1000 | 2 => 110000
  | 3 => (field (reg s 0x150034) 15 8 + 1) * 1000000

def sweepChannels (w : Sweep) : List (Fin 32) := maskList w.mask

/-- Why a channel is skipped at the start of its slot: its gate, a latch or hold, or the budget, which
a leakage measurement does not need (R452). -/
def skipState (w : Sweep) (n : Fin 32) (s : State) : Option Byte :=
  let window := field (reg s 0x140014) 13 0
  if s.out.ch[n].gate then some 2
  else if held s n then some 3
  else if w.kind = 1 then none
  else match judgment s (before s n) n with
    | .granted => none
    | .refused => some 4
    | .staggered =>
      if frameDiff (roomFrame s.out.recent (stagN s) window (now s)) (now s) < slotFrames w.kind s then none
      else some 4

def unread (n : Fin 32) (v : Byte) : SweepRes := { ch := n, state := v, v1 := 0xFFFFFFFF, v2 := 0xFFFFFFFF, v3 := 0 }

/-- The slot of channel n begins: it is skipped, or its pulse takes its place in the window. -/
def startSlot (w : Sweep) (n : Fin 32) (s : State) : State :=
  let w := { w with cur := n.val }
  match skipState w n s with
  | some v => { s with out := { s.out with sweep := some { w with results := w.results ++ [unread n v] } } }
  | none =>
    let recent := if w.kind = 1 then s.out.recent else recentIn s (now s) ++ [now s]
    { s with out := { s.out with sweep := some w, recent := recent } }

/-- The sweep's APPLY_AT: it starts, or in Clay it ends aborted (R452, R453). -/
def startSweep (sweepId : BitVec 16) (s : State) : State :=
  match s.out.sweep with
  | none => s
  | some w =>
    if w.sweepId != sweepId || w.state != .pending then s
    else if s.modes.clay then abortSweep 6 s
    else
      let w := { w with state := .running }
      let s := { s with out := { s.out with
        mirror := s.out.mirror.map fun m => if m.sweepId = sweepId then { m with state := .running } else m } }
      match sweepChannels w with
      | [] => { s with out := { s.out with sweep := some { w with state := .ended } } }
      | n :: _ => startSlot w n s

/-- A sweep that the field side holds starts at its APPLY_AT, whatever becomes of the host (R452, R453). -/
def startDue (s : State) : State :=
  match s.out.sweep with
  | some w => if w.state = .pending then startSweep w.sweepId (advanceTo (tickAt w.start 0 s) s) else s
  | none => s

/-- SWEEP_SLOT_END: the current channel's result goes up, and the next slot starts or the sweep ends
(R452 to R454). -/
def sweepSlotEnd (v1 v2 : Word) (v3 : BitVec 16) (measured : Bool) (s : State) : State :=
  let s := startDue s
  match s.out.sweep with
  | none => s
  | some w =>
    if w.state != .running then s
    else
      let n : Fin 32 := Fin.ofNat 32 w.cur
      let k := ((sweepChannels w).takeWhile (fun c => c != n)).length + 1
      let s := advanceTo (tickAt w.start 0 s + k * slotFrames w.kind s * ticksPerFrame) s
      let skipped := w.results.find? fun r => r.ch = n
      let res : SweepRes := skipped.getD
        (if measured then { ch := n, state := 1, v1 := v1, v2 := v2, v3 := v3 } else unread n 7)
      let w := { w with results := w.results.filter (fun r => r.ch != n) ++ [res] }
      let s := if linkUp s then upCell (.capture res) s else s
      match (sweepChannels w).drop k with
      | [] => { s with out := { s.out with sweep := some { w with state := .ended } } }
      | m :: _ => startSlot w m s

def execSweepSlotEnd (v1 v2 : Word) (v3 : BitVec 16) (measured : Bool) (s : State) : Out :=
  .next (sweepSlotEnd v1 v2 v3 measured s)

/-- The host's mirror takes a result; with the last one the sweep has ended (R454). -/
def captureTaken (res : SweepRes) (s : State) : State :=
  let put (m : Sweep) : Sweep :=
    let m := { m with results := m.results.filter (fun r => r.ch != res.ch) ++ [res], cur := res.ch.val }
    if m.state = .running && (sweepChannels m).getLast? = some res.ch then { m with state := .ended } else m
  { s with out := { s.out with mirror := s.out.mirror.map put } }

/-- CAPTURE_DATA arrives at the host. -/
def captureData (res : SweepRes) (s : State) : State := onUp (.capture res) (captureTaken res) s

def execCaptureData (res : SweepRes) (s : State) : Out := .next (captureData res s)

/-- A sweep is stored for its APPLY_AT, or the named one ends (R452, R453). -/
def sweepTaken (m : SweepMsg) (s : State) : State :=
  match m with
  | .start kind mask sweepId start =>
    let w : Sweep := ⟨sweepId, kind, mask, start, .pending, 0, []⟩
    { s with out := { s.out with sweep := some w } }
  | .abort sweepId => sweepAbortField sweepId.toNat s

/-- SWEEP_CTRL arrives at the field side. -/
def sweepCtrl (m : SweepMsg) (s : State) : State := onDown (.sweepCtrl m) (sweepTaken m) s

def execSweepCtrl (msg : SweepMsg) (s : State) : Out := .next (sweepCtrl msg s)

/-- The host's mirror holds a sweep pending or running. -/
def sweepBusy (s : State) : Bool := s.out.mirror.any sweepLive

/-- The refusals of R454, made when the sweep is accepted: it is always scheduled. -/
def sweepStartState (q : Request) (s : State) : Option Ans :=
  let mask := wordAt (reqBody q) 1
  if !linkUp s then refuse 0x11 0x03
  else if s.modes.clay then refuse 0x11 0x24
  else if sweepBusy s then refuse 0x11 0x30
  else if (maskList mask).any (fun n => budget s < claimOf s n) then refuse 0x10 0
  else needField [15, 17] s

/-- An accepted sweep takes the host's mirror; results of the same ID stay until replaced (R454). -/
def sweepAccepted (q : Request) (s : State) : State :=
  let b := reqBody q
  let sid := BitVec.ofNat 16 (beAt b 5 2)
  let kept := match s.out.mirror with
    | some m => if m.sweepId = sid then m.results else []
    | none => []
  let w : Sweep := ⟨sid, Fin.ofNat 4 (byteAt b 0).toNat, wordAt b 1, q.pkt.applyAt, .pending, 0, kept⟩
  { s with out := { s.out with mirror := some w } }

def sweepHand (q : Request) (s : State) : State :=
  let b := reqBody q
  if linkUp s then
    sendCell (.sweepCtrl (.start (Fin.ofNat 4 (byteAt b 0).toNat) (wordAt b 1) (BitVec.ofNat 16 (beAt b 5 2))
      q.pkt.applyAt)) s
  else s

/-- SWEEP_START at its APPLY_AT. -/
def opSweepStart : Op :=
  { code := 0x5A
    check := fun q _ => lenIs 7 q <|> param ((byteAt (reqBody q) 0).toNat ≤ 3)
    accept := sweepStartState
    onAccept := sweepAccepted
    hand := sweepHand
    act := fun q s =>
      let sid := BitVec.ofNat 16 (beAt (reqBody q) 5 2)
      if s.out.sweep.any (fun w => w.sweepId = sid) then (startSweep sid s, done []) else (s, refuse 0x11 0x02) }

def execSweepStart (q : Request) (s : State) : Out := .next (serve opSweepStart q s)

/-- A masked channel's place in the reply: its result, or PENDING (R453, R455). -/
def resultOf (w : Sweep) (n : Fin 32) : SweepRes := (w.results.find? (fun r => r.ch = n)).getD (unread n 0)

def resBytes (r : SweepRes) : List Byte :=
  [BitVec.ofNat 8 r.ch.val, r.state] ++ be 4 r.v1.toNat ++ be 4 r.v2.toNat ++ be 2 r.v3.toNat

/-- SWEEP_RESULT from the host's mirror (R455). -/
def sweepResultAct (q : Request) (s : State) : State × Option Ans :=
  let b := reqBody q
  match s.out.mirror.filter (fun w => w.sweepId.toNat = beAt b 0 2) with
  | none => (s, refuse 0x21 0x0B)
  | some w =>
    let ch := ((sweepChannels w).filter fun n => (byteAt b 2).toNat ≤ n.val).take 18
    (s, done (be 2 w.sweepId.toNat ++ [BitVec.ofNat 8 w.kind.val, BitVec.ofNat 8 (sweepCode w.state + 4 * b2n (sweepWhole w))] ++
      be 6 w.start.toNat ++ be 4 w.mask.toNat ++ ch.flatMap fun n => resBytes (resultOf w n)))

def noSweep (q : Request) (s : State) : Option Ans :=
  if s.out.mirror.any (fun w => w.sweepId.toNat = beAt (reqBody q) 0 2) then none else refuse 0x21 0x0B

def opSweepResult : Op :=
  { code := 0x5B
    check := fun q s => lenIs 3 q <|> param ((byteAt (reqBody q) 2).toNat ≤ 31) <|> noSweep q s
    act := sweepResultAct }

def execSweepResult (q : Request) (s : State) : Out := .next (serve opSweepResult q s)

/-- SWEEP_ABORT: a sweep not handed over ends at the host, one handed over by SWEEP_CTRL, or where the abort is
scheduled by the field part that its hand-over stored (R141, R453). -/
def sweepAbortAct (q : Request) (s : State) : State × Option Ans :=
  let sid := BitVec.ofNat 16 (beAt (reqBody q) 0 2)
  let mine (c : SchedCmd) : Bool :=
    c.q.pkt.opcode == 0x5A && beAt (reqBody c.q) 5 2 == sid.toNat && !c.handed
  if !linkUp s then (s, refuse 0x11 0x03)
  else if s.pkt.sched.any mine then
    (abortSweep 5 { s with pkt := { s.pkt with sched := s.pkt.sched.filter fun c => !mine c } }, done [])
  else if q.pkt.sched then (s, done [])
  else match barrierArena q 1 s with
    | some r => r
    | none => (sendCell (.sweepCtrl (.abort sid)) s, done [])

def opSweepAbort : Op :=
  { code := 0x5C, check := fun q s => lenIs 2 q <|> noSweep q s, act := sweepAbortAct, hand := handOp }

def execSweepAbort (q : Request) (s : State) : Out := .next (serve opSweepAbort q s)

/-! ## ASAPPLIED_READ (R424) -/

/-- The 32 bytes of an as-applied record (Table 16-7). -/
def appliedBytes (r : AsRec) : List Byte :=
  let b := [BitVec.ofNat 8 (r.ch.val + 32 * b2n r.on), r.outcome] ++ be 2 r.line.toNat ++ be 6 r.cross.toNat ++
    be 6 r.edge.toNat ++ be 2 (r.tick.toNat + 1024 * r.fine.toNat) ++ be 4 r.late.toNat ++ be 4 r.ground.toNat ++
    be 4 r.seq.toNat ++ [r.flags]
  b ++ [crc8 b]

/-- The records held from sequence number k, at most n. -/
def appliedFrom (k : Word) (n : Nat) (s : State) : List AsRec :=
  (s.fw.asRing ++ s.fw.asBuf).filter fun r => (r.seq - k).toNat < n

def opAsappliedRead : Op :=
  { code := 0x5D
    check := fun q s => lenIs 5 q <|> param (inRange 1 7 (byteAt (reqBody q) 4).toNat) <|>
      (if (appliedFrom (wordAt (reqBody q) 0) 1 s).isEmpty then refuse 0x21 0x0B else none)
    act := fun q s =>
      (s, done ((appliedFrom (wordAt (reqBody q) 0) (byteAt (reqBody q) 4).toNat s).flatMap appliedBytes)) }

def execAsappliedRead (q : Request) (s : State) : Out := .next (serve opAsappliedRead q s)

end Sys2Proof.Machine
end

