-- ==== Sys2Proof/Machine/Section.lean ====
section
/-! DEFINITION. Section timing and look-ahead (07): switch lines, geometry, the motion model, crossing
prediction, hand-over, latency learning, the Task Controller client and the built-in planner. -/

namespace Sys2Proof.Machine

/-! ## Records (Tables 07-6 and 07-7) -/

/-- A record of SWITCH_LINE. -/
inductive LineRec where
  | origin (lat lon height : Word)
  | line (l : SwLine)
  | bridge (on : Bool) (mask : Word) (anchor : Frame48)

def lineLen (ty : Byte) : Nat := match ty.toNat with | 1 => 16 | 2 => 24 | 3 => 12 | _ => 0

/-- One record of SWITCH_LINE, none where it is reserved or out of range (R198). -/
def lineRec (r : List Byte) : Option LineRec :=
  let b1 := (byteAt r 1).toNat
  match (byteAt r 0).toNat with
  | 1 =>
    if zeroAt r 1 3 && within 900000000 (s32At r 4) && within 1800000000 (s32At r 8) then
      some (.origin (wordAt r 4) (wordAt r 8) (wordAt r 12)) else none
  | 2 =>
    let l : SwLine :=
      { id := BitVec.ofNat 16 (beAt r 2 2), on := b1 % 2 = 1, dir := Fin.ofNat 4 (b1 / 2), keep := b1 / 8 % 2 = 1
        mask := wordAt r 4, e1 := s32At r 8, n1 := s32At r 12, e2 := s32At r 16, n2 := s32At r 20 }
    let len2 := (l.e2 - l.e1) * (l.e2 - l.e1) + (l.n2 - l.n1) * (l.n2 - l.n1)
    if b1 < 16 && l.dir != 3 && l.id != 0 && len2 != 0 && decide (len2 ≤ 1000000000000) then some (.line l) else none
  | _ => if b1 < 2 then some (.bridge (b1 = 1) (wordAt r 2) (BitVec.ofNat 48 (beAt r 6 6))) else none

def parseLines (bs : List Byte) : Except Byte (List LineRec) := parseRecs lineLen lineRec bs.length bs
/-- CHANNEL needs a BODY held or before it; SPEED needs a frequency input (R199). -/
def geometryFits : List GeoRec → Bool → State → Bool
  | [], _, _ => true
  | .body _ :: rs, _, s => geometryFits rs true s
  | .channel _ _ :: rs, b, s => b && geometryFits rs b s
  | .speed v :: rs, b, s =>
    (match v.input with | some i => sinType s i = 1 | none => true) && geometryFits rs b s
  | _ :: rs, b, s => geometryFits rs b s

def geometryCheck (q : Request) (s : State) : Option Ans :=
  match parseGeometry (reqBody q) with
  | .error e => refuse e 0
  | .ok rs => param (geometryFits rs s.sect.body.isSome s)

/-- GEOMETRY_SET (R176, R199, Table 06-8). -/
def geometrySetAct (q : Request) (s : State) : State × Option Ans :=
  match parseGeometry (reqBody q) with
  | .error e => (s, refuse e 0)
  | .ok rs =>
    if s.modes.mode = .loam && !s.modes.clay then (s, refuse 0x11 0x23)
    else if s.id.variant = .b && rs.any isPlace then (s, refuse 0x13 0)
    else (rs.foldl (fun s r => applyGeo r s) s, done [])

def opGeometrySet : Op := { code := 0x32, check := geometryCheck, act := geometrySetAct }

def execGeometrySet (q : Request) (s : State) : Out := .next (serve opGeometrySet q s)

def opLookaheadSet : Op :=
  { code := 0x33
    check := fun q _ => lenIs 10 q <|> param (lookOk ((reqBody q).drop 4))
    act := fun q s => ((maskList (wordAt (reqBody q) 0)).foldl (fun s n => applyLook ((reqBody q).drop 4) n s) s, done []) }

def execLookaheadSet (q : Request) (s : State) : Out := .next (serve opLookaheadSet q s)

/-! ## Latency (R188 to R190) -/

def latencyBytes (s : State) (n : Fin 32) : List Byte :=
  let c := s.sect.ch[n]
  be 2 (min 65535 ((c.latOn.est + 5) / 10)) ++ be 2 (min 65535 ((c.latOff.est + 5) / 10)) ++
  be 2 c.acc.toNat ++ be 2 c.rej.toNat

def opLatencyGet : Op :=
  { code := 0x34
    check := fun q _ => lenIs 2 q <|> param
      (inRange 1 16 (byteAt (reqBody q) 1).toNat && (byteAt (reqBody q) 0).toNat + (byteAt (reqBody q) 1).toNat ≤ 32)
    act := fun q s =>
      (s, done ((List.range (byteAt (reqBody q) 1).toNat).flatMap fun i =>
        latencyBytes s (Fin.ofNat 32 ((byteAt (reqBody q) 0).toNat + i)))) }

def execLatencyGet (q : Request) (s : State) : Out := .next (serve opLatencyGet q s)

/-- LATENCY_SEED replaces the filter state of each masked channel (Table 06-8, R189). -/
def opLatencySeed : Op :=
  { code := 0x35
    check := fun q _ => lenIs 8 q <|> param
      (inRange 1 20000 (beAt (reqBody q) 4 2) && inRange 1 20000 (beAt (reqBody q) 6 2))
    act := fun q s =>
      let b := reqBody q
      let seed (i : Nat) : Lat := { est := 10 * beAt b i 2, seeded := true }
      ((maskList (wordAt b 0)).foldl
        (fun s n => setSect n (fun c => { c with latOn := seed 4, latOff := seed 6 }) s) s, done []) }

def execLatencySeed (q : Request) (s : State) : Out := .next (serve opLatencySeed q s)

/-- The moving average over 8 samples, times 8, where 8 samples are left (log entry 55). -/
def smooth (xs : List Nat) : List Nat :=
  match xs with
  | [] => []
  | x :: r => if r.length < 7 then [] else ((x :: r).take 8).sum :: smooth r

/-- The first turning point at or after index i that follows one of the other kind with a change of at
least what `enough last here` asks; `up` is the direction of the signature's second turn. -/
def findTurn (up : Bool) (enough : Nat → Nat → Bool) : List Nat → Nat → Bool → Option Nat → Option Nat
  | a :: b :: r, i, rising, last =>
    let now := if a < b then true else if b < a then false else rising
    if now == rising then findTurn up enough (b :: r) (i + 1) now last
    else if now == up then
      (match last with
        | some x => if enough x a then some i else findTurn up enough (b :: r) (i + 1) now last
        | none => findTurn up enough (b :: r) (i + 1) now last)
    else findTurn up enough (b :: r) (i + 1) now (some a)
  | _, _, _, _ => none

/-- The direction a window of samples starts in. -/
def startsRising (w : List Nat) : Bool := decide (w.headD 0 < w.getD 1 0)

/-- The latency in the samples of one actuation, one a µs from the edge (R188). -/
def signature (g : Geom) (on : Bool) (samples : List Nat) : Option Nat :=
  let w := (smooth (samples.take (g.window * 5000))).drop 1000
  let edge := 8 * samples.headD 0
  if on then findTurn true (fun peak low => g.dipMin * peak ≤ 200 * (peak - low)) w 1000 (startsRising w) none
  else findTurn false (fun low peak => g.dipMin * edge ≤ 200 * (peak - low)) w 1000 (startsRising w) none

/-- An accepted measurement in the filter (R189). -/
def learn (shift m : Nat) (l : Lat) : Lat :=
  let d : Int := (m : Int) - l.est
  let n := l.n + 1
  { l with est := ((l.est : Int) + (if n ≤ 8 then d / n else d / 2 ^ shift)).toNat, n := min n 9, run := 0 }

/-- The rejection of Table 07-4 that applies: 0 ABSENT, 1 CUT, 2 IMPLAUSIBLE, 3 SUPPLY. -/
def rejection (l : Lat) (m : Option Nat) (cut supply : Bool) : Option Byte :=
  match m with
  | none => some 0
  | some v =>
    if cut then some 1
    else if 8 ≤ l.n && (2 * v < l.est || 3 * l.est < 2 * v) then some 2
    else if supply then some 3 else none

/-- The open ground error of the actuation at tick e takes the measured latency (Table 07-5). -/
def groundMeasured (n : Fin 32) (on : Bool) (e : BitVec 64) (m : Nat) (s : State) : State :=
  let mine (w : GroundWait) : Bool := w.ch = n && w.on == on && frameDiff w.edge (frameOf e) ≤ 0 &&
    frameDiff (frameOf e) w.edge ≤ 1
  { s with sect := { s.sect with grounds := s.sect.grounds.map fun w => if mine w then { w with lat := m } else w } }

/-- CUT (Table 07-4): the output changed, by an edge, a trip or Clay, after the actuation at tick e and before its
signature v µs later. -/
def cutShort (s : State) (n : Fin 32) (e : BitVec 64) (v : Nat) : Bool :=
  s.out.ch[n].turns.any fun x => decide (e.toNat < x.1.toNat) && decide (x.1.toNat < e.toNat + 800 * v)

/-- SUPPLY (Table 07-4): FSUP changed by more than 10 %, in mV at the edge and at the signature. -/
def supplyMoved (edgeMv sigMv : Nat) : Bool := decide (edgeMv < 10 * ((edgeMv : Int) - sigMv).natAbs)

/-- LATENCY_MEASURE at the end of the window of the oldest actuation of its sense that has not been measured. -/
def latencyMeasure (n : Fin 32) (on : Bool) (samples : List Nat) (edgeMv sigMv : Nat) (s : State) : State :=
  match s.sect.ch[n].geom, s.out.ch[n].acts.find? (fun a => a.2 == on) with
  | some g, some a =>
    let m := ochMode s n.val
    if !g.learn || !(m = 0 || m = 1 || m = 3) || !hcoreRuns s then s
    else
      let s := advanceTo (a.1.toNat + g.window * 4000000) (setCh n (fun c => { c with acts := c.acts.erase a }) s)
      let l := if on then s.sect.ch[n].latOn else s.sect.ch[n].latOff
      let v := signature g on samples
      let put (l : Lat) (c : ChSect) : ChSect := if on then { c with latOn := l } else { c with latOff := l }
      match rejection l v (cutShort s n a.1 (v.getD 0)) (supplyMoved edgeMv sigMv) with
      | none =>
        let s := setSect n (fun c => put (learn g.shift (v.getD 0) l) { c with acc := satInc c.acc }) s
        groundMeasured n on a.1 (v.getD 0) s
      | some why =>
        let s := setSect n (fun c => put { l with run := l.run + 1, lastRej := why } { c with rej := satInc c.rej }) s
        if l.run + 1 = 16 then note .host 0x0B02 1 (chanByte n) [why, BitVec.ofNat 8 (b2n on)] s else s
  | _, _ => s

def execLatencyMeasure (ch : Fin 32) (on : Bool) (samples : List Nat) (edgeMv sigMv : Nat) (s : State) : Out :=
  .next (latencyMeasure ch on samples edgeMv sigMv s)

/-! ## The motion model (R177 to R180) -/

/-- The latest BASE record in which this node is A, FIXED, to the BODY's partner (R178, R304). -/
def partnerBase (s : State) : Option BaseRec :=
  match s.sect.body with
  | none => none
  | some b =>
    if !b.partnerValid then none
    else s.gnss.bases.find? fun r => r.nodeA == s.chain.addr && r.nodeB == b.partner && r.status == 2

/-- That record while it is less than 200 ms old (R178). -/
def freshBase (s : State) : Option BaseRec := (partnerBase s).filter fun r => frameDiff (now s) r.frame < 200000

/-- The latest solution with a fix. -/
def latestFix (s : State) : Option GnssSol := s.gnss.sol.filter fun v => v.fix != 0

/-- The fix is another one than the model last took. -/
def newFix (s : State) : Option GnssSol := (latestFix s).filter fun v => s.sect.motion.fixFrame != some v.frame

/-- The frame of the latest fix the model knows. -/
def fixFrameOf (s : State) : Option Frame48 := ((newFix s).map (·.frame)) <|> s.sect.motion.fixFrame

/-- Pulses of the speed input in the last 10,000 frames (R177). -/
def pulsesOf (s : State) (i : Fin 16) : Nat :=
  (s.sense.inp[i].edges.filter fun x => s.clk.tb.toNat - x.toNat < 8000000).length

/-- The heading of an update: across the partner baseline, else along the horizontal velocity (R178). -/
def headingOf (s : State) : Nat :=
  match freshBase s, s.sect.body with
  | some r, some b => (bearing r.east.toInt r.north.toInt + (if b.partnerLeft then 2 ^ 30 else 3 * 2 ^ 30)) % 2 ^ 32
  | _, _ =>
    match latestFix s with
    | some v => if v.velE = 0 && v.velN = 0 then s.sect.motion.phase else bearing v.velE.toInt v.velN.toInt
    | none => s.sect.motion.phase

/-- Speed along x of an update, mm/s: the pulse rate times the distance per pulse, or the velocity of the latest
fix along x (R177, R179). -/
def speedOf (s : State) (phase : Nat) : Int :=
  match s.sect.speed.input with
  | some i => (pulsesOf s i * s.sect.speed.perPulse / 10 : Nat)
  | none =>
    match latestFix s with
    | some v => (v.velE.toInt * sinP phase + v.velN.toInt * cosP phase) / 2 ^ 64
    | none => s.sect.motion.speed

/-- Longitudinal acceleration of an update, mm/s²: the change of the speed since the last sample of its source,
over the time between the two (R177; log entry 53). -/
def accelOf (s : State) (speed : Int) : Int :=
  let old := s.sect.motion
  match s.sect.speed.input with
  | some _ => (speed - old.speed) * 1000000 / max 1 (frameDiff (now s) old.frame)
  | none =>
    match newFix s, old.fixFrame with
    | some v, some f => (speed - old.speed) * 1000000 / max 1 (frameDiff v.frame f)
    | _, _ => old.accel

/-- The filtered yaw rate: the change of heading since the last update through a low pass of 50 ms, exact for
steps of 10 ms (R178; log entry 53), in parts of a turn a second with 2^32 to a turn, clockwise. -/
def yawOf (s : State) (phase : Nat) : Int :=
  let old := s.sect.motion
  let raw := (BitVec.ofInt 32 ((phase : Int) - old.phase)).toInt * 100
  old.yawP + (raw - old.yawP) * 181269 / 1000000

/-- The age of a frame in ms. -/
def ageMs (f : Frame48) (s : State) : Nat := (frameDiff (now s) f).toNat / 1000

/-- The model is valid while the latest fix is no older than DR_LIMIT (R179). -/
def modelValid (s : State) : Bool :=
  match fixFrameOf s with
  | some f => frameDiff (now s) f ≤ 100000 * s.sect.drLimit
  | none => false

/-- The motion model at an update (R177 to R179; log entry 17 for the age from which it dead-reckons, 53 for the
plane and the filters). -/
def motionModel (s : State) : Motion :=
  let old := s.sect.motion
  let phase := headingOf s
  let speed := speedOf s phase
  let yaw := yawOf s phase
  let dt := (frameDiff (now s) old.frame).toNat
  let dr (f : Nat → Int) : Int := speed * f phase * dt / (1000000 * 2 ^ 64)
  let age := match fixFrameOf s with | some f => ageMs f s | none => 65535
  let fix := (newFix s).map fun v =>
    let p := Config.fieldPlane s.sect.origin (v.lat, v.lon, v.height)
    let dt : Int := (frameDiff (now s) v.frame).toNat
    (p.1 + v.velE.toInt * dt / 1000000, p.2 + v.velN.toInt * dt / 1000000)
  { old with
    frame := now s, valid := modelValid s, dr := decide (200 ≤ age), degraded := (freshBase s).isNone
    east := match fix with | some p => p.1 | none => old.east + dr sinP
    north := match fix with | some p => p.2 | none => old.north + dr cosP
    phase := phase, heading := phase * 36000 / 2 ^ 32, speed := speed, yawP := yaw
    yaw := -(yaw * 36000) / 2 ^ 32, accel := accelOf s speed, fixAge := age, fixFrame := fixFrameOf s
    baseAge := match partnerBase s with | some r => ageMs r.frame s | none => 65535 }

/-! ## Crossings (R172, R180) -/

/-- A crossing of line l between two footprints 1 ms apart: the fine steps after the first, and whether
it runs left to right. -/
def crossOf (l : SwLine) (a b : Int × Int) : Option (Nat × Bool) :=
  let dE := l.e2 - l.e1
  let dN := l.n2 - l.n1
  let side (p : Int × Int) : Int := dE * (p.2 - l.n1 * 2 ^ 20) - dN * (p.1 - l.e1 * 2 ^ 20)
  let along (p : Int × Int) : Int := dE * (p.1 - l.e1 * 2 ^ 20) + dN * (p.2 - l.n1 * 2 ^ 20)
  let sa := side a
  let sb := side b
  if decide (sa < 0) == decide (sb < 0) then none
  else
    let wa : Int := sb.natAbs
    let wb : Int := sa.natAbs
    let t := along a * wa + along b * wb
    if t < 0 || (dE * dE + dN * dN) * 2 ^ 20 * (wa + wb) < t then none
    else some ((25600000 * wb / (wa + wb)).toNat, decide (0 ≤ sa))

def dirCounts (l : SwLine) (leftToRight : Bool) : Bool :=
  match l.dir with | 0 => true | 1 => leftToRight | 2 => !leftToRight | 3 => false

/-- The times of the crossings that count, fine steps since TB = 0; the footprints start at time u. -/
def crossTimes (l : SwLine) : Nat → List (Int × Int) → List Nat
  | u, a :: b :: r =>
    let rest := crossTimes l (u + 25600000) (b :: r)
    (match crossOf l a b with
      | some (off, dir) => if dirCounts l dir then (u + off) :: rest else rest
      | none => rest)
  | _, _ => []

/-- A predicted crossing of a channel. -/
structure Crossing where
  tx : Nat
  on : Bool
  line : BitVec 16
  of' : SwLine

/-- The crossings of a channel within 10 s, in time order. -/
def crossings (u : Nat) (poses : List Pose) (n : Fin 32) (s : State) : List Crossing :=
  match s.sect.ch[n].geom with
  | none => []
  | some g =>
    let feet := poses.map (footAt g)
    sortBy (fun a b => decide (a.tx < b.tx)) ((s.sect.lines.filter fun l => bit l.mask n.val).flatMap fun l =>
      (crossTimes l u feet).map fun t => ⟨t, l.on, l.id, { l with done := 0 }⟩)

/-! ## Edges (R181 to R186) -/

/-- Look-ahead in µs (Table 07-2). -/
def lookAhead (s : State) (n : Fin 32) (on : Bool) : Int :=
  let c := s.sect.ch[n]
  ((if on then c.latOn.est else c.latOff.est) + (c.hyd + c.flight) * 100 : Nat) + c.margin * 100

/-- The prediction that a crossing gives (R181). -/
def predOf (s : State) (n : Fin 32) (x : Crossing) : Pred :=
  { ch := n, on := x.on, line := x.line, cross := BitVec.ofNat 48 (x.tx / 25600), tx := x.tx
    time := ((x.tx : Int) - lookAhead s n x.on * 25600).toNat, seg := some (x.of'.e1, x.of'.n1, x.of'.e2, x.of'.n2) }

/-- A prediction joins those of its channel, newest first. At or before the edge handed over last it acts one tick
after that (log entry 19). At or before the one before it, both placed no earlier than the commit floor, both are
dropped and fall due together (R184). -/
def joinPred (floor : Nat) (s : State) (acc : List Pred) (p : Pred) : List Pred :=
  let last := s.sect.ch[p.ch].lastEdge
  let p : Pred := if p.time ≤ last then { p with time := last + 32, late := true } else p
  match acc.find? (fun q => !q.skip) with
  | some q =>
    if max p.time floor ≤ max q.time floor then
      let t := min p.time q.time
      { p with skip := true, time := t } ::
        modFirst (fun q => !q.skip) (fun q => { q with skip := true, time := t }) acc
    else p :: acc
  | none => p :: acc

/-- A crossing's edge joins the predictions: none where the target is held already or the channel is stopped
(R173, R186). -/
def addCrossing (floor : Nat) (n : Fin 32) (s : State) (acc : Bool × List Pred) (x : Crossing) : Bool × List Pred :=
  if x.on == acc.1 then acc
  else if s.sect.ch[n].stopped then (x.on, acc.2)
  else (x.on, joinPred floor s acc.2 (predOf s n x))

/-- A prediction whose crossing has passed before its edge was handed over is predicted again from that crossing,
and stop and restart edges stay (R182). -/
def repredict (s : State) (p : Pred) : Pred :=
  if p.seg.isNone then p
  else { p with time := ((p.tx : Int) - lookAhead s p.ch p.on * 25600).toNat, late := false, skip := false }

/-- The predictions of a channel at an update (R182): those whose crossing has passed, then its crossings to
come. -/
def predictions (floor : Nat) (xs : List Crossing) (n : Fin 32) (s : State) : List Pred :=
  let kept := sortBy (fun a b => decide (a.tx < b.tx)) (s.sect.preds.filter fun p => p.ch = n)
  let base := kept.foldl (fun acc p => joinPred floor s acc (repredict s p)) []
  ((xs.filter fun x => s.sect.ch[n].lastTime < x.tx).foldl (addCrossing floor n s) (s.sect.ch[n].target, base)).2.reverse

def boundChannels (s : State) : List (Fin 32) := (List.finRange 32).filter fun n => s.sect.ch[n].geom.isSome

def speedBelow (v : Int) (m : Nat) : Bool := decide (9 * v < 25 * (m : Int))

/-- An edge at the commit floor that no line gave: a stop or a restart (R179, R186). -/
def floorEdge (n : Fin 32) (on : Bool) (s : State) : Pred :=
  { ch := n, on := on, line := 0, cross := now s, time := s.clk.tb.toNat / ticksPerFrame * 25600 + 2000 * 25600
    late := on, tx := s.clk.tb.toNat / ticksPerFrame * 25600 }

/-- The channel's output is on. -/
def outputOn (s : State) (n : Fin 32) : Bool := gateCmd s n && !s.modes.clay

def addPred (p : Pred) (s : State) : State := { s with sect := { s.sect with preds := s.sect.preds ++ [p] } }

/-- A channel stops, goes on, or restarts at an update (R186). -/
def stopOrStart (n : Fin 32) (s : State) : State :=
  let v := footSpeed s n
  if s.sect.ch[n].stopped then
    if speedBelow v (s.sect.minSpeed + 20) then s
    else
      let s := setSect n (fun c => { c with stopped := false }) s
      if s.sect.ch[n].target then addPred (floorEdge n true s) s else s
  else if speedBelow v s.sect.minSpeed then
    let on := outputOn s n
    let s := setSect n (fun c => { c with stopped := true }) s
    let s := { s with sect := { s.sect with preds := s.sect.preds.filter fun p => !(p.ch = n && p.on) } }
    if on then addPred (floorEdge n false s) s else s
  else s

/-- A line that a channel has crossed. -/
def crossedBy (n : Fin 32) (made : List Crossing) (l : SwLine) : SwLine :=
  if bit l.mask n.val && made.any (fun x => x.of' == { l with done := 0 }) then { l with done := l.done ||| oneBit n.val }
  else l

/-- The crossings made before the next update set the target states, and lines made by all their
channels retire (R173, R174). -/
def consume (limit : Nat) (xs : List (Fin 32 × List Crossing)) (s : State) : State :=
  xs.foldl (fun s c =>
    let made := c.2.filter fun x => x.tx < limit
    let s := { s with sect := { s.sect with lines := s.sect.lines.map (crossedBy c.1 made) } }
    made.foldl (fun s x => if s.sect.ch[c.1].lastTime < x.tx then
      setSect c.1 (fun d => { d with target := x.on, lastTime := x.tx }) s else s) s) s

def retireLines (s : State) : State :=
  let bound := maskOf (fun n => s.sect.ch[Fin.ofNat 32 n].geom.isSome) 32
  { s with sect := { s.sect with lines := s.sect.lines.filter fun l =>
      l.keep || (l.mask &&& bound) = 0 || (l.mask &&& bound &&& ~~~ l.done) != 0 } }

/-- OFF_AT' of a PULSE channel (R187): k times the on-time of the base, which wraps the period boundary where
OFF_AT lies before ON_AT (R206; log entry 56). An on-time of a whole period is always on. -/
def turnedOff (k : Int × Int) (period onAt offAt : Nat) : Word :=
  if onAt ≤ offAt then satTo 32 (onAt + (max 0 (k.1 * (offAt - onAt : Nat) / k.2)).toNat)
  else
    let len := (max 0 (k.1 * (period + offAt - onAt : Nat) / k.2)).toNat
    if period ≤ len then BitVec.ofNat 32 period else BitVec.ofNat 32 ((onAt + len) % max 1 period)

/-- Turn compensation of a channel at an update; without TURN_COMP, in another mode or unbound, OFF_AT is the base
(R187). -/
def turnComp (n : Fin 32) (s : State) : State :=
  let off : Option Word := match s.sect.ch[n].geom, s.sect.body with
    | some g, some b =>
      if !g.turnComp || ochMode s n.val != 1 then none
      else
        let ctr := speedAt s.sect.motion b.cy
        let k : Int × Int := if speedBelow ctr s.sect.minSpeed then (1, 1) else (footSpeed s n, ctr)
        some (turnedOff k (och s n.val 0x04).toNat (och s n.val 0x08).toNat (och s n.val 0x0C).toNat)
    | _, _ => none
  if s.out.ch[n].turnOff == off || !linkUp s then s else setCh n (fun c => { c with turnOff := off }) s

/-- The model becomes invalid: every ON channel goes off at the commit floor, no on-edges follow, and
the restart rule ends it (R179). -/
def loseMotion (s : State) : State :=
  let s := { s with sect := { s.sect with motion := { s.sect.motion with valid := false }, preds := [] } }
  let s := (boundChannels s).foldl (fun s n =>
    let s := if s.sect.ch[n].target then addPred (floorEdge n false s) s else s
    setSect n (fun c => { c with stopped := true }) s) s
  note .host 0x0B01 1 0xFF [] s

/-- MOTION_LOST: the first frame at which the latest fix is older than DR_LIMIT (R179). -/
def execMotionLost (s : State) : Out :=
  .next (if s.sect.motion.valid && hcoreRuns s then
    loseMotion (match s.sect.motion.fixFrame with
      | some f => advanceTo (tickAt (f + BitVec.ofNat 48 (100000 * s.sect.drLimit + 1)) 0 s) s
      | none => s) else s)

/-! ## The built-in planner (R195, R196) -/

def cellOf (e n : Int) : Int × Int := (e / (100 * 2 ^ 20), n / (100 * 2 ^ 20))

/-- The cells whose centres a footprint passes over in the last 10 ms. -/
def sweptCells (g : Geom) (m : Motion) : List (Int × Int) :=
  let f := footAt g (startPose m)
  let fe := f.1 / 2 ^ 20
  let fn := f.2 / 2 ^ 20
  let go := max 1 (m.speed / 100)
  let r := ((g.width : Int) / 2 + go) / 100 + 1
  let side := (2 * r + 1).toNat
  (List.range (side * side)).filterMap fun i =>
    let ce := fe / 100 - r + ((i % side : Nat) : Int)
    let cn := fn / 100 - r + ((i / side : Nat) : Int)
    let de := ce * 100 + 50 - fe
    let dn := cn * 100 + 50 - fn
    let ahead := (de * sinP m.phase + dn * cosP m.phase) / 2 ^ 64
    let across := (de * cosP m.phase - dn * sinP m.phase) / 2 ^ 64
    if decide (-go < ahead) && decide (ahead ≤ 0) && within (g.width / 2) across then some (ce, cn) else none

/-- A cell is marked covered, until the map reaches its allocation (R196). -/
def markCell (c : Int × Int) (s : State) : State :=
  if s.sect.cover.contains c then s
  else if s.sect.cover.length < Config.mapCells then { s with sect := { s.sect with cover := s.sect.cover ++ [c] } }
  else if s.sect.mapFull then s
  else note .host 0x0B03 1 0xFF [] { s with sect := { s.sect with mapFull := true } }

/-- A line through a point across a direction of travel, w mm wide plus 1 m, as LINE coordinates. -/
def crossLine (id : BitVec 16) (on : Bool) (dir : Fin 4) (keep : Bool) (mask : Word) (at' : Int × Int) (h w : Nat) : SwLine :=
  let half : Int := ((w : Int) + 1000) * 2 ^ 20 / 2
  let mm (x : Int) : Int := (x + 2 ^ 19) / 2 ^ 20
  let dE := half * cosP h / 2 ^ 64
  let dN := half * sinP h / 2 ^ 64
  { id := id, on := on, dir := dir, keep := keep, mask := mask
    e1 := mm (at'.1 - dE), n1 := mm (at'.2 + dN), e2 := mm (at'.1 + dE), n2 := mm (at'.2 - dN) }

/-- A LINE enters the store of 4,096 (R172); one with a stored ID replaces it and its predictions (R174). -/
def storeLine (l : SwLine) (s : State) : State :=
  let others := if l.id = 0 then s.sect.lines else s.sect.lines.filter fun x => x.id != l.id
  if 4096 ≤ others.length then s
  else
    { s with sect := { s.sect with
        lines := others ++ [l]
        preds := if l.id = 0 then s.sect.preds else s.sect.preds.filter fun p => p.line != l.id } }

/-- The first footprint of a path where coverage changes to c. -/
def firstChange (cover : List (Int × Int)) (c : Bool) : List (Int × Int) → Option (Int × Int)
  | a :: b :: r =>
    if cover.contains (cellOf a.1 a.2) != c && cover.contains (cellOf b.1 b.2) == c then some b
    else firstChange cover c (b :: r)
  | _ => none

/-- A request of the head's own planner. -/
def plannerRequest (opcode : Byte) (sched : Bool) (applyAt : Frame48) (payload : List Byte) (s : State) : Request :=
  { via := .planner
    pkt := { bcast := true, ackreq := false, sched := sched, opcode := opcode, chainId := s.chain.chainId
             seq := (Config.freeWord s.free).setWidth 16, dest := 0, src := ownAddr s, applyAt := applyAt
             payload := payload } }

/-- A LINE record's bytes (Table 07-6). -/
def lineBytes (l : SwLine) : List Byte :=
  [2, BitVec.ofNat 8 (b2n l.on + 2 * l.dir.val + 8 * b2n l.keep)] ++ be 2 l.id.toNat ++ be 4 l.mask.toNat ++
  be 4 (satInt 32 l.e1).toNat ++ be 4 (satInt 32 l.n1).toNat ++ be 4 (satInt 32 l.e2).toNat ++ be 4 (satInt 32 l.n2).toNat

/-- The lines along covered ground ahead of a footprint path at heading h: off where it begins and on where it
ends, offset into the uncovered ground. They count the crossings of that travel, from right to left of a line
drawn from its left (R195, R196; log entry 18). -/
def coverLines (n : Fin 32) (width h : Nat) (feet : List (Int × Int)) (s : State) : List SwLine :=
  let shift : Int := (50 - (s.sect.overlap : Int)) * width * 2 ^ 20 / 100
  [false, true].filterMap fun on =>
    (firstChange s.sect.cover (!on) feet).map fun p =>
      let d := if on then shift else -shift
      let at' := (p.1 + d * sinP h / 2 ^ 64, p.2 + d * cosP h / 2 ^ 64)
      crossLine (BitVec.ofNat 16 (65280 + 2 * n.val + b2n on)) on 2 true (oneBit n.val) at' h width

/-- The lines of the head's own channel n enter its store. -/
def ownLines (n : Fin 32) (poses : List Pose) (s : State) : State :=
  match s.sect.ch[n].geom with
  | none => s
  | some g => (coverLines n g.width s.sect.motion.phase (poses.map (footAt g)) s).foldl (fun s l => storeLine l s) s

/-- The lines of another node's channel go to it in a SWITCH_LINE (R195). -/
def memberLines (m : BitVec 16 × Fin 32 × Nat × List (Int × Int)) (s : State) : State :=
  let a := m.2.2.2.headD (0, 0)
  let b := (m.2.2.2.drop 1).headD a
  let ls := coverLines m.2.1 m.2.2.1 (bearing (b.1 - a.1) (b.2 - a.2)) m.2.2.2 s
  if ls.isEmpty then s
  else
    let q := plannerRequest 0x30 false 0 (ls.flatMap lineBytes) s
    sendDown (cmdOf { q.pkt with bcast := false, dest := m.1 } s) (draw s)

/-- Coverage and its lines at an update of a BUILTIN head. -/
def coverage (poses : List Pose) (s : State) : State :=
  if planner s != 1 || !isHead s || islandHead s then s
  else
    let s := (boundChannels s).foldl (fun s n =>
      match s.sect.ch[n].geom with
      | some g => if ochState s n = 1 && !s.modes.clay then (sweptCells g s.sect.motion).foldl (fun s c => markCell c s) s else s
      | none => s) s
    if s.sect.workOn then
      (Config.memberPaths (now s)).foldl (fun s m => memberLines m s)
        ((boundChannels s).foldl (fun s n => ownLines n poses s) s)
    else s

/-! ## MOTION_UPDATE and EDGE_HANDOVER -/

/-- The open ground errors whose product has reached the ground, and whose latency window has closed, are settled
from the motion updates (R197; log entry 54). -/
def settleGround (s : State) : State :=
  let due (w : GroundWait) : Bool :=
    let c := s.sect.ch[w.ch]
    let reach := w.edge + BitVec.ofNat 48 (w.lat + (c.hyd + c.flight) * 100)
    let window := match c.geom with | some g => g.window * 5000 | none => 0
    frameDiff reach (now s) ≤ 0 && frameDiff (w.edge + BitVec.ofNat 48 window) (now s) ≤ 0
  let put (s : State) (w : GroundWait) : State :=
    let g := groundAt w.ch (some w.seg) w.edge w.lat s
    { s with fw := { s.fw with asBuf := modFirst (fun r => r.seq == w.seq) (fun r => { r with ground := g }) s.fw.asBuf } }
  let s' := (s.sect.grounds.filter due).foldl put s
  { s' with sect := { s'.sect with grounds := s.sect.grounds.filter fun w => !due w } }

/-- What an update leaves in the model: the motion, whether the centre point has stopped, and the updates of the
last 250 ms. -/
def takeMotion (s : State) : State :=
  let mo := motionModel s
  let ctr := match s.sect.body with | some b => speedAt mo b.cy | none => mo.speed
  let mo := { mo with stopped := speedBelow ctr s.sect.minSpeed }
  settleGround { s with sect := { s.sect with motion := mo, trail := (mo :: s.sect.trail).take 25 } }

/-- The crossings, edges and lines of an update with a valid model (R172 to R174, R180 to R187, R195). -/
def predict (s : State) : State :=
  let u := s.clk.tb.toNat / ticksPerFrame * 25600
  let s := { s with sect := { s.sect with
    preds := s.sect.preds.filter fun p => p.seg.isNone || frameDiff p.cross (now s) ≤ 0 } }
  let s := (boundChannels s).foldl (fun s n => stopOrStart n s) s
  let poses := if (boundChannels s).isEmpty then [] else posesFrom s.sect.motion 10000 0 (startPose s.sect.motion)
  let s := coverage poses s
  let xs := (boundChannels s).map fun n => (n, crossings u poses n s)
  let new := xs.flatMap fun c => predictions (u + 2000 * 25600) c.2 c.1 s
  let s := { s with sect := { s.sect with preds := new } }
  let s := retireLines (consume (u + 10000 * 25600) xs s)
  (List.finRange 32).foldl (fun s n => turnComp n s) s

/-- MOTION_UPDATE at a multiple of 10,000 frames U (R177); its predictions are complete `ready` frames later, by frame
U + 2,000 (R182). -/
def motionUpdate (ready : Fin 2001) (s : State) : State :=
  if !hcoreRuns s || s.modes.mode = .sand then s
  else
    let s := toEdge 9 8000000 s
    let done := s.clk.tb.toNat + ready.val * ticksPerFrame
    let was := s.sect.motion.valid
    let s := takeMotion s
    advanceTo done (if s.sect.motion.valid then predict s else if was then loseMotion s else s)

def execMotionUpdate (ready : Fin 2001) (s : State) : Out := .next (motionUpdate ready s)

/-- The crossing of a prediction sets its target state; the edge of a stop or a restart leaves it (R173, R186). -/
def takeTarget (p : Pred) (s : State) : State :=
  if p.seg.isNone then s
  else setSect p.ch (fun c => { c with target := p.on, lastTime := max c.lastTime p.tx }) s

/-- An edge that a Clay release came too late for: an on-edge must lie after the release frame, an off-edge not
before it (R25, R183). -/
def missed (s : State) (p : Pred) : Bool :=
  let d := frameDiff (BitVec.ofNat 48 (p.time / 25600)) s.modes.releaseFrame
  if p.on then d ≤ 0 else d < 0

/-- A prediction due at the commit floor u + 2,000: dropped, missed, or an edge, at the floor where it is
late (R183, R184, R25). -/
def handOne (u : Nat) (acc : List Edge × State) (p : Pred) : List Edge × State :=
  let s := takeTarget p { acc.2 with sect := { acc.2.sect with preds := acc.2.sect.preds.erase p } }
  if p.skip then (acc.1, asApplied (deadEdge p 3) s)
  else if missed s p then (acc.1, asApplied (deadEdge p 2) s)
  else
    let floor := u + 2000 * 25600
    let t := max p.time floor
    let e : Edge :=
      { ch := p.ch, on := p.on, frame := BitVec.ofNat 48 (t / 25600), tick := Fin.ofNat 800 (t / 32)
        fine := BitVec.ofNat 5 t }
    let h : Handed := ⟨e, { p with late := p.late || decide (p.time < floor) }⟩
    (acc.1 ++ [e], setSect p.ch (fun c => { c with lastEdge := t }) { s with sect := { s.sect with handed := s.sect.handed ++ [h] } })

/-- In Clay an edge whose moment has passed is missed; the others wait (R25, R183). -/
def missInClay (u : Nat) (s : State) : State :=
  (s.sect.preds.filter fun p => p.time < u + 2000 * 25600 && p.tx < u + 10000 * 25600).foldl (fun s p =>
    asApplied (deadEdge p (if p.skip then 3 else 2))
      (takeTarget p { s with sect := { s.sect with preds := s.sect.preds.erase p } })) s

/-- EDGE_HANDOVER at the commit floor of the latest update. -/
def edgeHandover (s : State) : State :=
  if !hcoreRuns s then s
  else
    let u := tickAt s.sect.motion.frame 0 s * 32
    let s := advanceTo (u / 32 + 2000 * ticksPerFrame) s
    if s.modes.clay then missInClay u s
    else
      let waiting := s.barr.heldEdges
      let s := handEdges waiting { s with barr := { s.barr with heldEdges := [] } }
      let due := sortBy (fun a b => decide (a.time < b.time))
        (s.sect.preds.filter fun p => p.time < u + 20000 * 25600)
      let (es, s) := due.foldl (handOne u) ([], s)
      handEdges es s

def execEdgeHandover (s : State) : Out := .next (edgeHandover s)

/-! ## SWITCH_LINE and SWITCH_CLEAR (R17, R18, R194, R198) -/

/-- A BRIDGE becomes one line for each masked bound channel (R194). -/
def bridge (on : Bool) (mask : Word) (anchor : Frame48) (s : State) : State :=
  let m := s.sect.motion
  let f := if frameDiff anchor (now s) < 0 then now s else anchor
  let d := (frameDiff f m.frame).toNat
  let p := poseAt m d
  (maskList mask).foldl (fun s n =>
    match s.sect.ch[n].geom with
    | none => s
    | some g => storeLine (crossLine 0 on 0 false (oneBit n.val) (footAt g p) (footBearing m g d p.2.2) g.width) s) s

/-- The checks of R198 that look at records in order: origins against those held, lines against an
origin. -/
def linesFit : List LineRec → Option (Word × Word × Word) → Bool → Bool
  | [], _, _ => true
  | .origin a b c :: rs, held, any' =>
    (match held with | some o => o == (a, b, c) || !any' | none => true) && linesFit rs (some (a, b, c)) any'
  | .line _ :: rs, held, _ => held.isSome && linesFit rs held true
  | .bridge _ _ _ :: rs, held, any' => linesFit rs held any'

def lineCheck (q : Request) (s : State) : Option Ans :=
  match parseLines (reqBody q) with
  | .error e => refuse e 0
  | .ok rs => param (linesFit rs s.sect.origin (!s.sect.lines.isEmpty))

/-- A record that the planner source does not send (R198). -/
def wrongKind (tc : Bool) (r : LineRec) : Bool := match r with | .bridge _ _ _ => !tc | _ => tc

/-- New places in the store that the records take. -/
def newPlaces (s : State) : List LineRec → List (BitVec 16) → Nat
  | [], _ => 0
  | .line l :: rs, ids => if ids.contains l.id then newPlaces s rs ids else 1 + newPlaces s rs (l.id :: ids)
  | .bridge _ m _ :: rs, ids =>
    ((maskList m).filter fun n => s.sect.ch[n].geom.isSome).length + newPlaces s rs ids
  | .origin _ _ _ :: rs, ids => newPlaces s rs ids

def storeRec (r : LineRec) (s : State) : State :=
  match r with
  | .origin a b c => { s with sect := { s.sect with origin := some (a, b, c) } }
  | .line l => storeLine l s
  | .bridge on m a => bridge on m a s

def switchLineAct (q : Request) (s : State) : State × Option Ans :=
  match parseLines (reqBody q) with
  | .error e => (s, refuse e 0)
  | .ok rs =>
    if !plannerSource q s || plannerDiffers s || rs.any (wrongKind (planner s == 0)) then
      ({ s with pkt := { s.pkt with plannerRefused := satInc s.pkt.plannerRefused } }, refuse 0x11 0x25)
    else if 4096 < s.sect.lines.length + newPlaces s rs (s.sect.lines.map (·.id)) then (s, refuse 0x40 0x26)
    else
      let s := rs.foldl (fun s r => storeRec r s) s
      (s, done (be 2 rs.length ++ be 2 (4096 - s.sect.lines.length)))

def opSwitchLine : Op := { code := 0x30, check := lineCheck, act := switchLineAct }

def execSwitchLine (q : Request) (s : State) : Out := .next (serve opSwitchLine q s)

/-- SWITCH_CLEAR: the masked channels' lines and edges go, and the channels' gates go off; an override stays
(R165, R443, Table 06-8). -/
def switchClear (mask : Word) (s : State) : State :=
  let s := { s with sect := { s.sect with
    lines := (s.sect.lines.map fun l => { l with mask := l.mask &&& ~~~ mask }).filter fun l => l.mask != 0
    preds := s.sect.preds.filter fun p => !bit mask p.ch.val } }
  let s := (maskList mask).foldl (fun s n => setSect n (fun c => { c with target := false }) s) s
  (maskList mask).foldl (fun s n => setGate n false s) (dropEdges mask s)

def opSwitchClear : Op :=
  { code := 0x31, check := fun q _ => lenIs 4 q
    act := fun q s =>
      let mask := wordAt (reqBody q) 0
      let bad := contradicted mask s
      (switchClear mask s, some { status := if bad then 0x41 else 0 }) }

def execSwitchClear (q : Request) (s : State) : Out := .next (serve opSwitchClear q s)

/-! ## MOTION_GET (Table 07-8) -/

def motionBytes (m : Motion) : List Byte :=
  be 6 m.frame.toNat ++
  [BitVec.ofNat 8 (b2n m.valid + 2 * b2n m.dr + 4 * b2n m.degraded + 8 * b2n m.stopped), 0] ++
  be 4 (satInt 32 m.east).toNat ++ be 4 (satInt 32 m.north).toNat ++ be 2 m.heading ++
  be 2 (satInt 16 m.speed).toNat ++ be 2 (satInt 16 m.yaw).toNat ++ be 2 (satInt 16 m.accel).toNat ++
  be 2 (min 65535 m.fixAge) ++ be 2 (min 65535 m.baseAge)

def opMotionGet : Op :=
  { code := 0x36, check := fun q _ => lenIs 0 q, act := fun _ s => (s, done (motionBytes s.sect.motion)) }

def execMotionGet (q : Request) (s : State) : Out := .next (serve opMotionGet q s)

/-! ## The Task Controller client (R191 to R193) -/

/-- The section map: node address and channel mask of each section (item 0x0310). -/
def sectionMap (s : State) : List (Nat × BitVec 16 × Word) :=
  (chunks 6 256 (itemOr s 0x0310 [])).zipIdx.map fun c => (c.2, BitVec.ofNat 16 (beAt c.1 0 2), wordAt c.1 2)

def maxOf (xs : List Int) : Int :=
  match xs with
  | [] => 0
  | x :: r => r.foldl max x

/-- T_on or T_off of a section in ms: the largest look-ahead, in µs rounded up, plus BRIDGE_LEAD (R192). -/
def sectionTime (e : Nat × BitVec 16 × Word) (on : Bool) (peers : List PeerLook) (s : State) : Int :=
  let us : Int := if e.2.1 == ownAddr s then maxOf ((maskList e.2.2).map fun n => lookAhead s n on)
    else maxOf ((peers.filter fun p => p.sect.val = e.1).map fun p => (if on then p.on else p.off) * 100)
  (us + 999) / 1000 + s.sect.bridgeLead

def moved (a b : Int) : Bool := decide (5 ≤ (a - b).natAbs)

/-- The state of a section: that of the head's own channels, or what was last commanded of another node's
(log entry 57). -/
def actualOf (s : State) (e : Nat × BitVec 16 × Word) : Bool :=
  if e.2.1 == ownAddr s then
    !(maskList e.2.2).isEmpty && (maskList e.2.2).all (fun n => ochState s n = 1) && !s.modes.clay
  else (s.sect.tcCmd.find? (fun c => c.1.val = e.1)).any (·.2)

/-- The client's side of a section: its turn-on and turn-off times where one moved by 5 ms, and its Actual
Condensed Work State where it changed (R191, R192). -/
def tcSection (peers : List PeerLook) (s : State) (e : Nat × BitVec 16 × Word) : State :=
  let k : Fin 256 := Fin.ofNat 256 e.1
  let on := sectionTime e true peers s
  let off := sectionTime e false peers s
  let act := actualOf s e
  let s := if s.sect.tcSent.any fun t => t.1 = k && !moved t.2.1 on && !moved t.2.2 off then s
    else { s with
      sect := { s.sect with tcSent := s.sect.tcSent.filter (fun t => t.1 != k) ++ [(k, on, off)] }
      canA := { s.canA with own := s.canA.own ++ [.sectionTimes k on off] } }
  if s.sect.tcActual.contains (k, act) then s
  else { s with
    sect := { s.sect with tcActual := s.sect.tcActual.filter (fun t => t.1 != k) ++ [(k, act)] }
    canA := { s.canA with own := s.canA.own ++ [.actualWork k act] } }

/-- The device description of items 0x0300 to 0x030F, in item order (Table 16-6). -/
def deviceDescription (s : State) : List Byte := (List.range 16).flatMap fun i => itemOr s (0x0300 + i) []

/-- The client connects once the node holds its address on CAN-A: it sends its device description, and every
section's times and state afresh (R191, R192; log entry 57). -/
def tcConnect (s : State) : State :=
  let up := s.canA.claim = .claimed
  if s.sect.tcConn = up then s
  else
    let s := { s with sect := { s.sect with tcConn := up, tcSent := [], tcActual := [] } }
    if up then { s with canA := { s.canA with own := s.canA.own ++ [.deviceDescription (deviceDescription s)] } } else s

/-- TC_TIME_REPORT: what has changed goes to the Task Controller on CAN-A (R192). -/
def tcReport (peers : List PeerLook) (s : State) : State :=
  if planner s != 0 || !isHead s || islandHead s then s
  else
    let s := tcConnect { s with sect := { s.sect with tcPeers := peers } }
    if s.sect.tcConn then (sectionMap s).foldl (tcSection peers) s else s

/-- The state the head last commanded for a section (R193). -/
def commanded (s : State) (k : Fin 256) : Bool := (s.sect.tcCmd.find? (fun c => c.1 = k)).any (·.2)

def putSection (k : Fin 256) (on : Bool) (l : List (Fin 256 × Bool)) : List (Fin 256 × Bool) :=
  l.filter (fun c => c.1 != k) ++ [(k, on)]

/-- The head sends a BRIDGE for a section to the node that holds it, itself or one of the chain (R193). -/
def bridgeSection (k : Fin 256) (on : Bool) (rx : Frame48) (s : State) : State :=
  let s := { s with sect := { s.sect with tcCmd := putSection k on s.sect.tcCmd } }
  match (sectionMap s).find? (fun e => e.1 = k.val) with
  | none => s
  | some e =>
    let t := match s.sect.tcSent.find? (fun t => t.1 = k) with
      | some t => if on then t.2.1 else t.2.2
      | none => sectionTime e on s.sect.tcPeers s
    let anchor := rx + BitVec.ofInt 48 (t * 1000)
    if e.2.1 == ownAddr s then bridge on e.2.2 anchor s
    else
      let p : Packet :=
        { ackreq := false, opcode := 0x30, chainId := s.chain.chainId, seq := (Config.freeWord s.free).setWidth 16
          dest := e.2.1, src := ownAddr s
          payload := [3, BitVec.ofNat 8 (b2n on)] ++ be 4 e.2.2.toNat ++ be 6 anchor.toNat }
      sendDown (cmdOf p s) (draw s)

/-- The head bridges what the Task Controller wants, outside Clay (R193, R115). -/
def bridgeWanted (k : Fin 256) (on : Bool) (rx : Frame48) (s : State) : State :=
  if s.modes.clay || islandHead s || commanded s k == on then s else bridgeSection k on rx s

/-- TC_SETPOINT: the Setpoint Condensed Work State of a section, with the frame of its message. -/
def tcSetpoint (k : Fin 256) (on : Bool) (rx : Frame48) (s : State) : State :=
  if !hcoreRuns s || planner s != 0 || !isHead s then s
  else bridgeWanted k on rx { s with sect := { s.sect with
    tcWant := s.sect.tcWant.filter (fun c => c.1 != k) ++ [(k, on, rx)] } }

def execTcSetpoint (sect : Fin 256) (on : Bool) (frame : Frame48) (s : State) : Out :=
  .next (tcSetpoint sect on frame s)

/-- After a release, every section wanted on is bridged at once, anchored by the frame that brought its setpoint
(R193, R194). -/
def bridgeAfterRelease (s : State) : State :=
  if planner s != 0 || !isHead s then s
  else s.sect.tcWant.foldl (fun s w => bridgeWanted w.1 w.2.1 w.2.2 s) s

/-! ## The boundary of the built-in planner (R195) -/

/-- The boundary polygon of settings items 0x0400 to 0x0407. -/
def boundary (s : State) : List (Int × Int) :=
  (List.range 8).flatMap fun i => (chunks 8 448 (itemOr s (0x0400 + i) [])).map fun v => (s32At v 0, s32At v 4)

/-- Twice the area of a polygon, positive when it runs counter-clockwise. -/
def area2 (vs : List (Int × Int)) : Int :=
  (vs.zip (vs.rotateLeft 1)).foldl (fun a p => a + p.1.1 * p.2.2 - p.2.1 * p.1.2) 0

/-- The off and on lines of the boundary: an off line counts crossings outwards, an on line inwards. -/
def boundaryLines (s : State) : List SwLine :=
  let vs := boundary s
  let ccw := 0 < area2 vs
  (vs.zip (vs.rotateLeft 1)).zipIdx.flatMap fun e =>
    let mk (on : Bool) : SwLine :=
      { id := BitVec.ofNat 16 (1 + 2 * e.2 + b2n on), on := on, dir := if on == ccw then 2 else 1, keep := true
        mask := 0xFFFFFFFF, e1 := e.1.1.1, n1 := e.1.1.2, e2 := e.1.2.1, n2 := e.1.2.2 }
    [mk false, mk true]

/-- Pieces of at most n elements. -/
def pieces {α : Type} (n : Nat) : Nat → List α → List (List α)
  | 0, _ => []
  | _, [] => []
  | f + 1, a :: r => (a :: r).take n :: pieces n f ((a :: r).drop n)

/-- The head sends the boundary, with the position of its solution as field origin where none is held. -/
def sendBoundary (s : State) : State :=
  let origin : List Byte := match s.sect.origin, s.gnss.sol with
    | none, some v => [1, 0, 0, 0] ++ be 4 v.lat.toNat ++ be 4 v.lon.toNat ++ be 4 v.height.toNat
    | _, _ => []
  let s := if origin.isEmpty then s else serve opSwitchLine (plannerRequest 0x30 false 0 origin s) (draw s)
  if s.sect.origin.isNone then s
  else (pieces 9 512 (boundaryLines s)).foldl
    (fun s ls => serve opSwitchLine (plannerRequest 0x30 false 0 (ls.flatMap lineBytes) s) (draw s)) s

end Sys2Proof.Machine
end

