-- ==== Sys2Proof/Machine/Settings.lean ====
section
/-! DEFINITION. Settings (16): the items of Table 16-6, staging and commit (R417 to R420), and the
opcodes SET_READ, SET_WRITE, SET_COMMIT, SET_DISCARD and PIN_SET. -/

namespace Sys2Proof.Machine

/-! ## Items (Table 16-6) -/

/-- Shortest and longest value of an item; none for an unknown item. -/
def itemLen (k : Nat) : Option (Nat × Nat) :=
  if k = 0x0001 then some (1, 1)
  else if inRange 0x0002 0x0004 k || inRange 0x0010 0x0013 k || k = 0x0020 || k = 0x0021 || k = 0x0030 ||
      k = 0x0060 || inRange 0x0120 0x012F k || inRange 0x0140 0x014F k || inRange 0x0150 0x0157 k ||
      k = 0x0170 then some (4, 4)
  else if k = 0x0040 || k = 0x0041 || k = 0x0158 || k = 0x0159 then some (20, 20)
  else if k = 0x0042 || inRange 0x0130 0x0133 k then some (8, 8)
  else if k = 0x0050 then some (28, 28)
  else if inRange 0x0100 0x011F k then some (40, 40)
  else if inRange 0x0160 0x016F k then some (72, 72)
  else if k = 0x0200 then some (16, 3584)
  else if inRange 0x0210 0x022F k then some (6, 6)
  else if inRange 0x0300 0x030F k || inRange 0x0400 0x0407 k then some (0, 3584)
  else if k = 0x0310 then some (0, 1536)
  else none

/-- Writable only in Clay. -/
def itemClay (k : Nat) : Bool :=
  k = 0x0001 || inRange 0x0100 0x014F k || inRange 0x0158 0x016F k || k = 0x0200 || inRange 0x0300 0x0407 k

/-- Becomes running at commit, in Clay (R419). -/
def itemAtCommit (k : Nat) : Bool := k = 0x0001 || 0x0200 ≤ k

/-- The registers whose words a host item carries, in order. -/
def hostItemRegs (k : Nat) : List Nat :=
  match k with
  | 0x0002 => [0x080008] | 0x0003 => [0x08000C] | 0x0004 => [0x080010]
  | 0x0010 => [0x030000] | 0x0011 => [0x030004] | 0x0012 => [0x030008] | 0x0013 => [0x03002C]
  | 0x0020 => [0x010000] | 0x0021 => [0x010014] | 0x0030 => [0x020000] | 0x0060 => [0x060000]
  | 0x0040 => [0x040000, 0x040004, 0x040008, 0x040040]
  | 0x0041 => [0x050000, 0x050004, 0x050008]
  | 0x0050 => [0x070000, 0x070008, 0x07000C, 0x070014, 0x070018, 0x070024, 0x070028]
  | _ => []

/-- The registers whose words a field item carries, in order. -/
def fieldItemRegs (k : Nat) : List Nat :=
  let run (a n : Nat) : List Nat := (List.range n).map fun i => a + 4 * i
  if inRange 0x0100 0x011F k then run (0x100000 + 0x40 * (k - 0x0100)) 10
  else if inRange 0x0120 0x012F k then [0x100A00 + 4 * (k - 0x0120)]
  else if inRange 0x0130 0x0133 k then run (0x100B00 + 8 * (k - 0x0130)) 2
  else if inRange 0x0140 0x014F k then [0x120000 + 0x10 * (k - 0x0140)]
  else if inRange 0x0150 0x0157 k then [0x120200 + 4 * (k - 0x0150)]
  else if inRange 0x0158 0x0159 k then run (0x120400 + 0x20 * (k - 0x0158)) 5
  else if inRange 0x0160 0x016F k then
    [0x130000 + 0x40 * (k - 0x0160)] ++ run (0x131000 + 0x100 * (k - 0x0160)) 17
  else if k = 0x0170 then [0x140000]
  else []

/-- A bank word of a loop slot, which no register write reaches. -/
def bankAddr (a : Nat) : Bool := 0x131000 ≤ a && a < 0x132000

/-- The words of an item with their registers. -/
def itemWords (k : Nat) (v : List Byte) : List (Nat × Word) :=
  (hostItemRegs k ++ fieldItemRegs k).zipIdx.map fun r => (r.1, wordAt v (4 * r.2))

/-- The value of an item that no settings copy holds: its registers' reset values, ports in SLEEP,
and otherwise empty or 0 (log entry 27). -/
def itemDefault (k : Nat) (s : State) : List Byte :=
  let ws := (hostItemRegs k ++ fieldItemRegs k).flatMap fun a => be 4 (regReset s.id.variant a).toNat
  match k with
  | 0x0040 => ws ++ [3, 0, 0, 0]
  | 0x0041 => ws ++ [0, 0, 0, 0, 3, 0, 0, 0]
  | 0x0001 => [0]
  | 0x0042 => be 8 0
  | _ => if inRange 0x0210 0x022F k then be 6 0 else ws

def itemValue (k : Nat) (items : List (Nat × List Byte)) (s : State) : List Byte :=
  (findKey k items).getD (itemDefault k s)

/-- The node as its registers would stand with these settings, for the checks of R7. -/
def scratch (items : List (Nat × List Byte)) (s : State) : State :=
  items.foldl (fun s i =>
    (itemWords i.1 i.2).foldl (fun s w => if bankAddr w.1 then s else setReg w.1 w.2 s) s)
    { s with regs := [] }

/-- A word of an item holds no reserved encoding (R7): a register's value, or a bank word within the limits of
Table 10-3, judged with the LAW of its item (R256). -/
def wordFits (s : State) (lawW : Word) (w : Nat × Word) : Bool :=
  if bankAddr w.1 then wordOk lawW (w.1 % 0x100 / 4) w.2
  else match regDef w.1 with
    | some d => w.2 &&& ~~~d.bits == 0 && valueOk s w.1 w.2
    | none => false

/-- A whole value of an item is free of reserved encodings (R7, R153), the other items being `items`. -/
def itemOk (k : Nat) (v : List Byte) (items : List (Nat × List Byte)) (s : State) : Bool :=
  let s' := scratch (putKey k v items) s
  (itemWords k v).all (wordFits s' (wordAt v 8)) &&
  (if k = 0x0001 then decide ((byteAt v 0).toNat ≤ 2)
   else if k = 0x0040 || k = 0x0041 then
     zeroAt v 18 2 && (k = 0x0040 || zeroAt v 12 4) && decide ((byteAt v 16).toNat ≤ 3) &&
     decide ((byteAt v 17).toNat ≤ 1) && (byteAt v 16 == 3 || byteAt v 17 == 0)
   else if k = 0x0200 then (match parseGeometry v with
     | .ok rs => geometryFits rs false s' && (s.id.variant = .g2 || !rs.any isPlace)
     | .error _ => false)
   else if inRange 0x0210 0x022F k then lookOk v
   else true)

/-- An item's length: within Table 16-6, and whole records where its value is a list of them. -/
def itemLenOk (k n : Nat) : Bool :=
  match itemLen k with
  | none => false
  | some (lo, hi) => inRange lo hi n && (k != 0x0310 || n % 6 = 0) && (!inRange 0x0400 0x0407 k || n % 8 = 0)

/-! ## Running, staged and latest settings -/

/-- The settings of the latest generation: those being committed, else the running ones with the items
that wait for Clay (R418, R419; log entry 27). -/
def latestItems (s : State) : List (Nat × List Byte) :=
  match s.fw.commit with
  | some c => c.items
  | none => s.fw.atClay.foldl (fun m i => putKey i.1 i.2 m) s.fw.items

def staged (s : State) : List (Nat × List Byte) := s.fw.staging.getD (latestItems s)

/-- Settings operations need Iddan's keys (R380, R393). -/
def keysCheck (s : State) : Option Ans := if s.sec.zeroised then refuse 0x12 0x2F else none

/-- SET_READ: the running value (R417). -/
def opSetRead : Op :=
  { code := 0x60
    check := fun q _ => lenIs 2 q <|>
      (if (itemLen (beAt (reqBody q) 0 2)).isNone then refuse 0x21 0x0B else none)
    act := fun q s =>
      let v := itemValue (beAt (reqBody q) 0 2) s.fw.items s
      if v.length ≤ 230 then (s, done v)
      else match chunks 230 16 v with
        | p :: ps => (s, some { data := p, parts := ps })
        | [] => (s, done v) }

def execSetRead (q : Request) (s : State) : Out := .next (serve opSetRead q s)

def setWriteCheck (q : Request) (s : State) : Option Ans :=
  let b := reqBody q
  let k := beAt b 0 2
  (if b.length < 2 then refuse 0x22 0
   else if (itemLen k).isNone then refuse 0x21 0x0B
   else if !itemLenOk k (b.length - 2) then refuse 0x22 0
   else param (itemOk k (b.drop 2) (staged s) s))

/-- SET_WRITE changes the staging copy only, and opens it (R417, R418). -/
def opSetWrite : Op :=
  { code := 0x61, check := setWriteCheck, life := fun _ s => keysCheck s
    act := fun q s =>
      let b := reqBody q
      let k := beAt b 0 2
      if itemClay k && !s.modes.clay then (s, refuse 0x11 0x23)
      else if !domOn s 3 then (s, refuse 0x13 0)
      else ({ s with fw := { s.fw with staging := some (putKey k (b.drop 2) (staged s)) } }, done []) }

def execSetWrite (q : Request) (s : State) : Out := .next (serve opSetWrite q s)

/-- A commit starts: generation + 1 goes to copy A, then to copy B (R418). -/
def startCommit (items : List (Nat × List Byte)) (q : Option Request) (s : State) : State :=
  { s with fw := { s.fw with commit := some { items := items, gen := s.fw.gen + 1, q := q } } }

/-- A commit or a shutdown commit runs (R418). -/
def committing (s : State) : Bool := s.fw.commit.isSome || s.pwr.shutdown != .none

/-- The domains a commit needs (R380, R404). -/
def storeCheck (s : State) : Option Ans :=
  if committing s then refuse 0x40 0x26
  else if domOn s 3 && domOn s 4 then none else refuse 0x13 0

def setCommitAct (q : Request) (s : State) : State × Option Ans :=
  if committing s then (s, refuse 0x40 0x26)
  else match s.fw.staging with
    | none => (s, done (be 4 s.fw.gen.toNat))
    | some items =>
      guarded (storeCheck s) s fun s => (startCommit items (some q) { s with fw := { s.fw with staging := none } }, none)

def opSetCommit : Op :=
  { code := 0x62, check := fun q _ => lenIs 0 q, life := fun _ s => keysCheck s, act := setCommitAct }

def execSetCommit (q : Request) (s : State) : Out := .next (serve opSetCommit q s)

/-- SET_DISCARD closes the staging copy (R418). -/
def opSetDiscard : Op :=
  { code := 0x63, check := fun q _ => lenIs 0 q
    act := fun _ s => ({ s with fw := { s.fw with staging := none } }, done []) }

def execSetDiscard (q : Request) (s : State) : Out := .next (serve opSetDiscard q s)

/-- PIN_SET: a commit of the running settings with CH_PIN changed; an open staging copy receives the
same change (R163, R419). -/
def pinSetAct (q : Request) (s : State) : State × Option Ans :=
  guarded (storeCheck s) s fun s =>
    let v := [0, byteAt (reqBody q) 2] ++ (reqBody q).take 2
    let s := { s with fw := { s.fw with staging := s.fw.staging.map (putKey 0x0011 v) } }
    (startCommit (putKey 0x0011 v (latestItems s)) (some q) s, none)

def opPinSet : Op :=
  { code := 0x12
    life := fun _ s => keysCheck s
    check := fun q _ => lenIs 3 q <|> param ((byteAt (reqBody q) 2).toNat ≤ 1)
    act := pinSetAct }

def execPinSet (q : Request) (s : State) : Out := .next (serve opPinSet q s)

/-! ## The end of a commit (R418, R419) -/

/-- The answer of a finished commit: the new generation, or nothing for PIN_SET. -/
def answerCommit (c : Commit) (s : State) : State :=
  match c.q with
  | none => s
  | some q =>
    if q.pkt.opcode = 0x12 then
      reply q {} (setReg 0x030004 (wordAt (itemValue 0x0011 c.items s) 0) s)
    else reply q { data := be 4 c.gen.toNat } s

/-- Items that the commit changed become running: those marked "at commit" only in Clay (R419). -/
def commitDone (s : State) : State :=
  match s.fw.commit with
  | none => s
  | some c =>
    let copy : SetCopy := { good := true, gen := c.gen, ssv := s.id.ssv, items := c.items }
    let changed : List (Nat × List Byte) := c.items.filter fun i => itemAtCommit i.1 && itemValue i.1 s.fw.items s != i.2
    let late : List (Nat × List Byte) := if s.modes.clay then [] else changed
    let waits (k : Nat) : Bool := late.any (fun x => x.1 = k)
    let items : List (Nat × List Byte) := c.items.filter fun i => !waits i.1
    let kept : List (Nat × List Byte) := s.fw.items.filter fun i => waits i.1
    let s := { s with fw := { s.fw with
      copyA := copy, copyB := copy, gen := c.gen, setSsv := s.id.ssv, setValid := true, commit := none
      items := (kept.foldl (fun m (i : Nat × List Byte) => putKey i.1 i.2 m) items), atClay := late } }
    let s := if s.modes.clay then changed.foldl (fun s (i : Nat × List Byte) => runItem i.1 i.2 s) s else s
    answerCommit c s

def execSetCommitDone (s : State) : Out := .next (commitDone s)

end Sys2Proof.Machine
end

