-- ==== Sys2Proof/Machine/Images.lean ====
section
/-! DEFINITION. Image slots (16): bundles (R405, R406), the update sequence (R169, R410, R411) and
IMG_INFO. -/

namespace Sys2Proof.Machine

/-! ## Bundles -/

def verAt (bs : List Byte) (i : Nat) : Ver := ⟨byteAt bs i, byteAt bs (i + 1), BitVec.ofNat 16 (beAt bs (i + 2) 2)⟩

def verBytes (v : Ver) : List Byte := [v.major, v.minor] ++ be 2 v.build.toNat

/-- A manifest entry (Table 16-4). -/
def pairAt (bs : List Byte) : PairEntry := ⟨byteAt bs 0, byteAt bs 1, verAt bs 2, verAt bs 6⟩

/-- The bundle a slot's bytes spell (Table 16-2); none without the MAGIC. -/
def parseBundle (m : Memory) (held : Nat) : Option Bundle :=
  let h := readBytes flashByte m 0 256
  let part (off n : Nat) : List Byte := readBytes flashByte m off n
  let length := beAt h 4 4
  let hOff := beAt h 24 4
  let hLen := beAt h 28 4
  let fOff := beAt h 32 4
  let fLen := beAt h 36 4
  let mOff := beAt h 40 4
  let count := beAt h 44 2
  if beAt h 0 4 != 0x594E4231 then none
  else some
    { length := length, h := verAt h 8, f := verAt h 12
      hBig := Config.imageBig (part hOff hLen), fBig := Config.imageBig (part fOff fLen)
      big := byteAt h 16, cig := byteAt h 17, ssv := byteAt h 18, epoch := byteAt h 19, manifestId := wordAt h 20
      pairs := (List.range (min count 256)).map fun i => pairAt (part (mOff + 10 * i) 10)
      migFrom := byteAt h 46, fOff := fOff, fLen := fLen, digest := BitVec.ofNat 256 (beAt h 48 32)
      sigOk := Config.bundleSignature (part 0 length)
      rangesOk := inRange 1024 8388608 length && length = held && decide (hOff + hLen ≤ length) &&
        decide (fOff + fLen ≤ length) && decide (mOff + 10 * count ≤ length) && inRange 1 256 count }

/-- A slot's bundle: its bytes where some were written, else the one the node was made with. -/
def slotBundle (x : ImgSlot) : Option Bundle := if x.mem.isEmpty then x.bundle else parseBundle x.mem x.len

/-- R405 and R381 but for the signature and the anti-rollback counter. -/
def bundleFormed (b : Bundle) : Bool :=
  b.rangesOk && inRange 1 262144 b.fLen && b.hBig == b.fBig && decide (b.migFrom.toNat ≤ b.ssv.toNat) &&
  inRange 1 256 b.pairs.length && decide (b.epoch.toNat ≤ 64)

/-- The bundle is valid (R405, R381, R383). -/
def bundleValid (b : Bundle) (s : State) : Bool :=
  b.sigOk && bundleFormed b && decide (s.sec.rollback ≤ b.epoch.toNat)

def imgOf (b : Bool) (s : State) : ImgSlot := if b then s.fw.slotB else s.fw.slotA

def setImg (b : Bool) (f : ImgSlot → ImgSlot) (s : State) : State :=
  { s with fw := if b then { s.fw with slotB := f s.fw.slotB } else { s.fw with slotA := f s.fw.slotA } }

/-- A slot holds a valid bundle. -/
def slotValid (b : Bool) (s : State) : Bool :=
  !(imgOf b s).invalid && (slotBundle (imgOf b s)).any (fun x => bundleValid x s)

/-- The bundle of the running image. -/
def runningBundle (s : State) : Option Bundle := s.fw.runningB.bind fun b => slotBundle (imgOf b s)

/-- The version vector (Table 16-3); zeros for a slot without a bundle. -/
def vectorBytes : Option Bundle → List Byte
  | none => be 12 0
  | some b => verBytes b.h ++ verBytes b.f ++ [b.big, b.cig, b.ssv, b.epoch]

/-! ## The update sequence -/

/-- A request that names slot b0, in a payload of n bytes. -/
def slotCheck (n : Nat) (q : Request) (_ : State) : Option Ans :=
  lenIs n q <|> param ((byteAt (reqBody q) 0).toNat ≤ 1)

def namedSlot (q : Request) : Bool := byteAt (reqBody q) 0 == 1

/-- The flash controller is ON. -/
def flashCheck (s : State) : Option Ans := if domOn s 4 then none else refuse 0x13 0

/-- The slot open for an update is left invalid (R410). -/
def closeUpdate (s : State) : State :=
  match s.fw.openB with
  | some b => setImg b (fun x => { x with invalid := true, verified := false }) s
  | none => s

/-- IMG_BEGIN: the slot is invalid at once and its erase runs (R410, R169). -/
def imgBeginAct (q : Request) (s : State) : State × Option Ans :=
  let b := namedSlot q
  guarded ((if s.fw.runningB = some b then refuse 0x11 0x2A else none) <|> flashCheck s) s fun s =>
    let s := setImg b (fun x => { x with
      invalid := true, bundle := none, mem := [], len := beAt (reqBody q) 1 4, wptr := 0, verified := false })
      (closeUpdate s)
    ({ s with fw := { s.fw with openB := some b, erasing := true } }, done [])

def opImgBegin : Op :=
  { code := 0x68
    check := fun q s => slotCheck 5 q s <|> param (inRange 1 8388608 (beAt (reqBody q) 1 4))
    act := imgBeginAct }

def execImgBegin (q : Request) (s : State) : Out := .next (serve opImgBegin q s)

def execImgEraseDone (s : State) : Out := .next { s with fw := { s.fw with erasing := false } }

/-- IMG_DATA at the write pointer, within LENGTH; while the erase runs it is BUSY first (R169, R410). -/
def imgDataCheck (q : Request) (s : State) : Option Ans :=
  let n := (reqBody q).length
  if !inRange 5 3712 n then refuse 0x22 0
  else match s.fw.openB with
    | none => refuse 0x21 0x34
    | some b =>
      let x := imgOf b s
      if s.fw.erasing then none
      else if beAt (reqBody q) 0 4 != x.wptr then refuse 0x21 0x34
      else param (x.wptr + (n - 4) ≤ x.len)

def imgDataAct (q : Request) (s : State) : State × Option Ans :=
  match s.fw.openB with
  | none => (s, refuse 0x21 0x34)
  | some b =>
    if s.fw.erasing then (s, refuse 0x40 0x36)
    else guarded (flashCheck s) s fun s =>
      let data := (reqBody q).drop 4
      let s := setImg b (fun x => { x with
        mem := writeBytes flashByte x.mem x.wptr data, wptr := x.wptr + data.length, verified := false }) s
      (s, done (be 4 (imgOf b s).wptr))

def opImgData : Op := { code := 0x69, check := imgDataCheck, act := imgDataAct }

def execImgData (q : Request) (s : State) : Out := .next (serve opImgData q s)

/-- IMG_VERIFY: the slot under R405; SEC_CNT counts a refusal (R383, R411). -/
def imgVerifyAct (q : Request) (s : State) : State × Option Ans :=
  let b := namedSlot q
  let x := imgOf b s
  let bad (s : State) : State × Option Ans :=
    ({ s with sec := { s.sec with cntSig := satInc s.sec.cntSig } }, refuse 0x12 0x2C)
  guarded ((if x.wptr < x.len then refuse 0x11 0 else none) <|> flashCheck s <|>
    (if domOn s 3 then none else refuse 0x13 0)) s fun s =>
    match slotBundle x with
    | none => bad s
    | some v =>
      if !v.sigOk then bad s
      else if v.epoch.toNat < s.sec.rollback then
        ({ s with sec := { s.sec with cntRollback := satInc s.sec.cntRollback } }, refuse 0x12 0x2D)
      else if !bundleFormed v then bad s
      else (setImg b (fun x => { x with verified := true, invalid := false }) s, done (vectorBytes (some v)))

def opImgVerify : Op := { code := 0x6A, check := slotCheck 1, act := imgVerifyAct }

def execImgVerify (q : Request) (s : State) : Out := .next (serve opImgVerify q s)

/-- IMG_ACTIVATE: the verified slot is ACTIVE on trial, the other PREVIOUS; the running one is left as it
is (R411, R412). -/
def imgActivateAct (q : Request) (s : State) : State × Option Ans :=
  let b := namedSlot q
  if s.fw.runningB = some b then (s, done [])
  else if !(imgOf b s).verified then (s, refuse 0x11 0x2B)
  else guarded (flashCheck s) s fun s =>
    let s := setImg b (fun x => { x with mark := .trial 0 }) (setImg (!b) (fun x => { x with mark := .previous }) s)
    ({ s with fw := { s.fw with activeB := b, bootSeq := s.fw.bootSeq + 1 } }, done [])

def opImgActivate : Op := { code := 0x6B, check := slotCheck 1, act := imgActivateAct }

def execImgActivate (q : Request) (s : State) : Out := .next (serve opImgActivate q s)

/-- IMG_INFO: both vectors, both validities, the active slot, the active slot's manifest identifier
(Table 06-15; log entry 28). -/
def infoBytes (s : State) : List Byte :=
  vectorBytes (slotBundle s.fw.slotA) ++ vectorBytes (slotBundle s.fw.slotB) ++
  [BitVec.ofNat 8 (b2n (slotValid false s)), BitVec.ofNat 8 (b2n (slotValid true s)), BitVec.ofNat 8 (b2n s.fw.activeB)] ++
  be 4 (((slotBundle (imgOf s.fw.activeB s)).map (·.manifestId.toNat)).getD 0)

def opImgInfo : Op := { code := 0x6C, check := fun q _ => lenIs 0 q, act := fun _ s => (s, done (infoBytes s)) }

def execImgInfo (q : Request) (s : State) : Out := .next (serve opImgInfo q s)

end Sys2Proof.Machine
end

