-- ==== Sys2Proof/Machine/Domains.lean ====
section
/-! DEFINITION. What a power domain loses and finds (14): registers and contents at OFF (R8, Table
14-2), what stopping PD_HCORE or the last domain does (R363, R370), starting a domain with its stored
settings (R280, R316, R341), and the restart of the node (R162). -/

namespace Sys2Proof.Machine

/-! ## Contents -/

/-- The registers that p accepts return to their reset values (R8). -/
def dropRegs (p : Nat → Bool) (s : State) : State := { s with regs := s.regs.filter fun r => !p r.1 }

/-- The register at a lives in domain d. -/
def regIn (d : Fin 18) (a : Nat) : Bool := (regDef a).any fun x => x.doms.contains d

/-- A channel with the driver part of z, which lives in PD_DRV; its generator part lives in PD_PWM. -/
def withDriver (z c : Chan) : Chan :=
  { c with
    tripped := z.tripped, latched := z.latched, shortHeld := z.shortHeld, hot := z.hot, retryFrom := z.retryFrom
    trips := z.trips, clean := z.clean, tripInPeriod := z.tripInPeriod, lastSrc := z.lastSrc
    peakNoted := z.peakNoted, blanking := z.blanking, inrush := z.inrush, stretch := z.stretch
    stretched := z.stretched, tripPeriods := z.tripPeriods, shorts := z.shorts, sample := z.sample
    epPeak := z.epPeak, lastPeak := z.lastPeak, sum := z.sum, cnt := z.cnt, mean := z.mean, lamp := z.lamp
    diagMode := z.diagMode, opens := z.opens, supplyShorts := z.supplyShorts, measured := z.measured
    grant := z.grant, placed := z.placed, warned := z.warned, obsOn := z.obsOn, obsOff := z.obsOff
    onset := z.onset, forceHold := z.forceHold, turns := z.turns }

/-- The driver part of a channel at its reset values; the generator part is kept. -/
def drvReset (c : Chan) : Chan := withDriver {} c

/-- The generator part of a channel at its reset values; latch, trip state and counters of its driver are kept
(R223). -/
def genReset (c : Chan) : Chan := withDriver c {}

/-- A walk that the ports of the head cannot finish ends; an ENUMERATE that waits for its DONE is answered
REFUSED_DOMAIN_OFF (log entry 45). -/
def stopWalk (s : State) : State :=
  match s.chain.walk.bind (·.q) with
  | some q => reply q { status := 0x13 } { s with chain := { s.chain with walk := none } }
  | none => { s with chain := { s.chain with walk := none } }

/-- The chain ports lose their clock: no lock and no partner; a node that stops and clocks its ports again
starts with the partners it then sees, and a new echo burst. It loses the reference it followed, and as a HEAD without
a valid timebase it starts one (R16, R42, R49, R52, R88). -/
def portsDown (s : State) : State :=
  let s := freshEcho (stopWalk s)
  ensureTimebase (chooseRef { s with chain := { s.chain with
      upLock := false, dnLock := false, upPartner := .none, dnPartner := false, upKnown := false, dnKnown := false
      claim := none, walk := none, enumBusy := false, upLine := none, dnLine := none } })

/-- What the content of domain d is after OFF (R8, Table 14-2). -/
def loseDomain (d : Fin 18) (s : State) : State :=
  let s := dropRegs (regIn d) s
  match d.val with
  | 2 => { s with gnss := { s.gnss with almanac := [], ephem := [], aidTime := none, aidPos := none } }
  | 3 => { s with sec := { s.sec with sessionKeys := false, nonce := none } }
  | 5 => chooseRef { s with gnss := { s.gnss with
      trk := Vector.replicate 96 {}, meas := [], measFrame := 0, sol := none, timeValid := false, rtcmStale := false
      toff := 0, rtcmAcc := 0, rtcmIgn := 0, rtcmBad := 0, antMa := 0, antOpen := false
      antShort := false, antBias := true, burstBias := false } }
  | 7 => { s with gnss := { s.gnss with snap := [], snapRun := none } }
  | 8 => { s with canA := {} }
  | 9 => { s with canB := {} }
  | 10 => { s with svc := {} }
  | 11 => { s with chain := { (portsDown s).chain with
      island := false, addr := 0, addrValid := false, hop := 0, gen := 0, upBreaks := 0, dnBreaks := 0
      errUp := {}, errDn := {}, dupCount := 0, dupHop := 0, breakFrame := 0, islandTimer := none
      policyExpired := false, marlCount := 0, marlLast := none } }
  | 12 => { s with
      fw := { s.fw with fsram := [] }
      ev := { s.ev with
        field := [], unacked := [], heard := [], handling := s.ev.handling.filter (fun r => r.side = .host)
        waiting := s.ev.waiting.filter (fun r => r.side = .host) } }
  | 14 => { s with out := { s.out with
      ch := vmap genReset s.out.ch, calCount := 0, calTap := 0, calLast := none, calFails := 0, calFail := false
      calFrame := 0 } }
  | 15 => { s with out := { s.out with
      ch := vmap drvReset s.out.ch, tripActive := 0, tripCnt := Vector.replicate 4 0, refusals := 0, recent := [] } }
  | 16 => { s with loop := {} }
  | 17 => { s with sense := {}, out := { s.out with sweep := none } }
  | _ => s

/-- What H-core and its SRAM hold is gone: H-core boots as at power-up (R374). The packet counters, which
are registers of the clock core (R483), stay; the event log, the
settings copies, the slots and the as-applied ring are in flash and stay. -/
def loseHost (s : State) : State :=
  let unverify (x : ImgSlot) : ImgSlot := { x with verified := false }
  { s with
    modes := { s.modes with mode := .sand, siltWhy := 0, sandWhy := 0, booted := false }
    pkt := { chain := s.pkt.chain, canA := s.pkt.canA, canB := s.pkt.canB, svc := s.pkt.svc
             schedMost := s.pkt.schedMost, lateReplies := s.pkt.lateReplies }
    sect := {}
    chain := { s.chain with
      walk := none, walked := false, rg4 := [], rg5 := [], rg5Held := [], origins := [], dupReports := []
      headPlanner := none }
    barr := { s.barr with
      lossCnt := 0, declarer := 0, tserr := 0, hCrc := 0, hSeq := 0, hTyp := 0, hMsg := 0, mCrc := 0, mSeq := 0, mTyp := 0
      failed := 0, runFails := 0, epochRetry := false, dropsAtEpoch := 0, dropsWarned := false }
    gnss := { s.gnss with
      solve := none, measHeld := [], bases := [], slips := [], station := none, msmFresh := false, mark := none }
    ev := { s.ev with
      host := [], mirror := [], hostOvf := 0, mirrorOvf := 0, hostSeq := 0, unlogged := []
      handling := s.ev.handling.filter (fun r => r.side = .field)
      waiting := s.ev.waiting.filter (fun r => r.side = .field)
      unacked := s.ev.field.filter (fun r => (s.ev.unacked ++ s.ev.heard).any (sameId r)), heard := [] }
    fw := { s.fw with
      slotA := unverify s.fw.slotA, slotB := unverify s.fw.slotB, runningB := none, openB := none, erasing := false
      loading := false, fieldImage := none, pairSeen := false, pairOk := false, staging := none, commit := none, cfgLeft := [], cfgRefused := false
      atClay := [], asBuf := [], migrated := false, misses := 0 }
    sec := { s.sec with hHalt := false } }

/-! ## Stopping and starting -/

/-- The receiver tracks nothing, and the fix type is NONE (R280). -/
def stopTracking (s : State) : State :=
  { s with gnss := { s.gnss with
      trk := Vector.replicate 96 {}, sol := s.gnss.sol.map (fun v => { v with fix := 0 }), burstBias := false } }

/-- Domain d takes state v; the lines of PD_SVC are released as it leaves ON (R342), and the sensor supply SSUP is on
while PD_SENSE is ON (R467). -/
def setDom (d : Fin 18) (v : Dom) (s : State) : State :=
  let s := if d = 10 && v != .on then releaseLines s else s
  { s with pwr := { s.pwr with
    dom := s.pwr.dom.set d v, ssup := if d = 17 then decide (v = .on) else s.pwr.ssup } }

def anyOn (s : State) : Bool := s.pwr.dom.toList.any (· = .on)

/-- No domain is ON: MCLK is gated, TB is not kept, and the level in force is that of the lifecycle (R370,
R59, R391). -/
def stopClock (s : State) : State :=
  let s := setLevel (lifeLevel s) (relockFresh s)
  { s with clk := { s.clk with tree := .stopped } }

/-- Field domains that the barrier can no longer reach lose their clock with PD_HCORE: they hold what they
hold and are in RET (R358, R75; log entry 29). -/
def strandField (s : State) : State :=
  (List.finRange 18).foldl (fun s d => if 12 ≤ d.val && domOn s d then setDom d .ret s else s) s

/-- Domain d stops: ON to RET or OFF, or RET to OFF (R366). A stop of PD_HCORE is a planned stop of the
barrier without FAULT or count (R363). -/
def stopDom (d : Fin 18) (v : Dom) (s : State) : State :=
  let was := s.pwr.dom[d]
  let s := if d = 1 && was = .on && s.barr.link != .down then
      stopLink { s with barr := { s.barr with plannedStop := true } } else s
  let s := if d = 1 && was = .on then strandField s else s
  let s := if d = 11 && was = .on then portsDown s else s
  let s := if (d = 5 || d = 6) && was = .on then stopTracking s else s
  let s := setDom d v s
  let s := if v = .off && was != .off then loseDomain d (if d = 1 then loseHost s else s) else s
  if was = .on && !anyOn s && s.clk.tree != .stopped then stopClock s else s

/-- The items whose registers live in a host domain (Table 16-6). -/
def domItems (d : Fin 18) : List Nat :=
  match d.val with
  | 5 => [0x0050] | 8 => [0x0040] | 9 => [0x0041] | 10 => [0x0060] | 11 => [0x0010, 0x0011, 0x0012, 0x0013] | _ => []

/-- The stored mode of a CAN port (R316): the port is asked to leave SLEEP for it. -/
def applyCanMode (k : Nat) (s : State) : State :=
  let v := itemValue k s.fw.items s
  let m : CanMode := match (byteAt v 16).toNat with | 0 => .normal | 1 => .listen | 2 => .restricted | _ => .sleep
  let base := if k = 0x0040 then 0x040000 else 0x050000
  let regs := (reg s (base + 0x20), reg s (base + 0x24), reg s (base + 0x28), reg s (base + 0x2C))
  let set (c : Can) : Can :=
    if m = .sleep then { c with mode := .sleep, wakeOpt := byteAt v 17 == 1, wakeRegs := regs }
    else { c with reqMode := some (m, false) }
  if k = 0x0040 then { s with canA := set s.canA } else { s with canB := set s.canB }

/-- A host item takes effect: its registers take the stored values; these loads are not writes (R280,
R417). -/
def applyHostItem (k : Nat) (s : State) : State :=
  let s := (itemWords k (itemValue k s.fw.items s)).foldl (fun s w => setReg w.1 w.2 s) s
  match k with
  | 0x0012 => { s with chain := { s.chain with policy := BitVec.ofNat 7 (field (reg s 0x030008) 6 0) } }
  | 0x0020 => chooseRef s
  | 0x0040 => applyCanMode k s
  | 0x0041 => applyCanMode k s
  | 0x0042 => { s with id := { s.id with isoName := BitVec.ofNat 64 (beAt (itemValue k s.fw.items s) 0 8) } }
  | 0x0060 => { s with svc := { s.svc with filt := BitVec.ofNat 4 (field (reg s 0x060000) 3 0) } }
  | _ => s

/-- Domain d starts, to ON or from OFF to RET, where it holds its reset values (R369). A domain powered up
from OFF takes its stored settings (R280, R316; log entry 29), and PD_SVC samples its address pins
(R341). -/
def startDom (d : Fin 18) (v : Dom) (s : State) : State :=
  let was := s.pwr.dom[d]
  let s := setDom d v s
  if was != .off then s
  else
    let s := if d = 10 then { s with svc := { s.svc with addr := s.id.addrStraps } } else s
    let s := if d = 3 then { s with sec := { s.sec with sessionKeys := !s.sec.zeroised } } else s
    if s.modes.booted && s.modes.mode != .sand then (domItems d).foldl (fun s k => applyHostItem k s) s else s

/-- The domains a domain needs ON (Table 14-1). -/
def domNeeds (d : Fin 18) : Option (Fin 18) :=
  match d.val with
  | 1 => some 0 | 4 => some 1 | 5 => some 1 | 6 => some 5 | 12 => some 1 | 13 => some 12 | 14 => some 13
  | 15 => some 14 | 16 => some 14 | 17 => some 13 | _ => none

/-- A domain of the wake set can start: PD_GRF on a -G2 only, a field domain with FSUP and the barrier up,
and what it needs ON (R374, R358). -/
def canStart (d : Fin 18) (s : State) : Bool :=
  (d != 6 || s.id.variant = .g2) && (d.val < 12 || (linkUp s && s.pwr.fsup != .absent)) &&
  (match domNeeds d with | none => true | some n => domOn s n)

def domBit (d : Fin 18) : Word := oneBit d.val

/-- NOTE PWR_SKIP names the domains of a mask (R374; log entry 29). -/
def skipNote (mask : Word) (s : State) : State := if mask = 0 then s else note .host 0x0802 0 0xFF (be 4 mask.toNat) s

/-- Start the domains of PWR_WSET that `which` accepts, in ascending number; one that cannot start is
skipped and named (R374, R370). -/
def startWset (which : Fin 18 → Bool) (s : State) : State :=
  let ds := (List.finRange 18).filter fun d => which d && bit (reg s 0x08000C) d.val && !domOn s d
  let r := ds.foldl (fun (r : State × Word) d =>
    if canStart d r.1 then (startDom d .on r.1, r.2) else (r.1, r.2 ||| domBit d)) (s, 0)
  skipNote r.2 r.1

/-- The field domains of the wake set start once the barrier is up (R361, R374). -/
def startFieldSet (s : State) : State :=
  if s.pwr.fieldStart then
    startWset (fun d => decide (12 ≤ d.val)) { s with pwr := { s.pwr with fieldStart := false } }
  else s

/-! ## The field die without supply (R460, R361) -/

/-- Field registers and FSRAM are lost and every field domain is OFF; the next start is a field power-on
reset (R460). -/
def loseField (s : State) : State :=
  let s := (List.finRange 18).foldl (fun s d => if 12 ≤ d.val then loseDomain d (setDom d .off s) else s) s
  let s := dropRegs isField s
  { s with
    fw := { s.fw with
      fimgPtr := 0, fimgLoaded := false, fimgValid := false, fimgErr := 0, fimgDigest := 0, fimgMem := [], fcoreRun := false
      fimgChecking := false, loading := false, pairSeen := false, pairOk := false, freshField := true }
    id := { s.id with fVer := ⟨0, 0, 0⟩ }
    ev := { s.ev with fieldSeq := 0, fieldOvf := 0 }
    out := { s.out with discOpen := false, discReason := 0, discCount := 0, softStart := true, sweep := none }
    sec := { s.sec with fHalt := false, attach := s.sec.attach.filter (fun a => a.1 = .h) }
    pwr := { s.pwr with fsupWake := false, sin0Wake := false, fieldStart := true }
    barr := { s.barr with
      fCrc := 0, fSeq := 0, fTyp := 0, fMsg := 0, fieldAlive := 0, tagMem := [], edgeTags := [], coefTags := []
      schedWrites := [], heldEdges := [], replicaLoaded := false, oneShot := true, oneShotLatch := false
      fieldDeclared := false, fieldClock := false } }

/-! ## The restart of the node (R162, R47) -/

/-- The running settings commit is finished before the node restarts (log entry 28), and the event log and
the as-applied records are committed. -/
def commitAll (s : State) : State := commitRecords (commitDone s)

/-- The domains of a restart: those of the first power-up; retained SRAM keeps what it holds. -/
def restartDoms (s : State) : State :=
  (List.finRange 12).foldl (fun s i =>
    let d : Fin 18 := Fin.ofNat 18 i.val
    if d = 2 then setDom 2 (if s.pwr.dom[(2 : Fin 18)] = .off then .off else .ret) s
    else
      let up := d = 0 || d = 1 || d = 3 || d = 4 || d = 10
      setDom d (if up then .on else .off) (loseDomain d s)) s

/-- The replies of the node on their way upstream have left before it restarts (R159, R162). -/
def flushUp (s : State) : State :=
  let s := (s.chain.rg5 ++ s.chain.rg5Held).foldl (fun s x => sendUp x.frame s) s
  { s with chain := { s.chain with rg5 := [], rg5Held := [] } }

/-- The host die restarts as at power-up through a cold relock: the field domains stay as they are, host
registers but DBG_CTRL take their reset values, and the level in force is that of the lifecycle
(R162, R391, R397). R83 says only that the TAG counter skips 0: that it starts at 1 here, as at reset, while the field
side may still remember TAGs, is the model's choice (DESIGN CHOICE, log entry 58). -/
def restart (s : State) : State :=
  let s := flushUp s
  let up := s.chain.upLine
  let dn := s.chain.dnLine
  let s := loseHost (stopLink s)
  let s := restartDoms s
  let s := dropRegs (fun a => !isField a && a != 0x090004) s
  { s with
    clk := { refcnt := s.clk.refcnt, tcxoOk := s.clk.tcxoOk }
    modes := { s.modes with active := s.modes.active ||| cause 10, latched := s.modes.latched ||| cause 10 }
    chain := { upLine := up, dnLine := dn }
    pkt := {}
    svc := { addr := s.id.addrStraps }
    gnss := { s.gnss with tmark := 0, tmark2 := 0 }
    sec := { s.sec with
      level := lifeLevel s, session := none, nonce := none, cntSig := 0, cntToken := 0, cntRollback := 0, cntIgnored := 0
      zeroised := false, sessionKeys := true, hHalt := false, attach := [], scan := none }
    pwr := { s.pwr with
      keyCount := false, shutdown := .none, txnDom := 0xFF, txnReason := 0, txnTime := 0, wakes := 0, refused := 0
      why := 0, whyCold := false, marlReason := 0, txn := none, queued := [], wakeLatch := none, fieldStart := true }
    barr := { s.barr with
      lossCnt := 0, declarer := 0, tserr := 0, hCrc := 0, hSeq := 0, hTyp := 0, hMsg := 0, mCrc := 0, mSeq := 0, mTyp := 0
      failed := 0, runFails := 0, epochRetry := false, lat := 0, hostAlive := 0, dropsAtEpoch := 0, dropsWarned := false
      ferrClear := false, fhalt := false, nextTag := 1, traceOn := false, dbgBytes := [] } }

end Sys2Proof.Machine
end

