-- ==== Sys2Proof/Machine/Firmware.lean ====
section
/-! DEFINITION. Boot (01, 15, 16): secure boot, trial and rollback, settings and their migration, the
conditions of Loam; and the field image: link-up, loading, pairing and field configuration (R407 to
R409). -/

namespace Sys2Proof.Machine

/-! ## The conditions of Loam (R19, R20) -/

/-- Open CRITICAL records of both sides. -/
def openCriticals (s : State) : Nat :=
  ((s.ev.host ++ s.ev.field).filter fun r => r.opened && r.sev == sevCritical).length

/-- The SILT_WHY code of the first failing condition in the order of R19, 0 where all hold: the images and their pair,
which the host knows once it has checked the pairing of a loaded F-image, the settings, the barrier, and the open
CRITICAL records (R20). -/
def loamCode (s : State) : Nat :=
  if !(s.fw.fcoreRun && s.fw.fimgLoaded && s.fw.pairSeen) then 1
  else if !s.fw.pairOk then 2
  else if !s.fw.setValid then 3
  else if !linkUp s then 1
  else if 2 ≤ openCriticals s then 5
  else if openCriticals s = 1 then 6
  else 0

/-- Entry to Loam: cause 8 ends, the anti-rollback counter follows the running epoch with one NOTE
(R384), and migrated settings are written to both copies (R421). -/
def goLoam (s : State) : State :=
  let s := enterLoam s
  let s := if s.sec.rollback < s.sec.epoch.toNat then
    note .host 0x0902 0 0xFF [] { s with sec := { s.sec with rollback := s.sec.epoch.toNat } } else s
  if s.fw.migrated then startCommit s.fw.items none { s with fw := { s.fw with migrated := false } } else s

/-- The node enters Silt from Loam, or stays in Silt, with a reason (Table 01-5). -/
def siltWith (why : BitVec 4) (s : State) : State :=
  match s.modes.mode with
  | .loam => enterSilt why s
  | .silt => { s with modes := { s.modes with siltWhy := why } }
  | .sand => s

/-! ## Pairing and the field image (R407, R408) -/

/-- The pairing of the node is in the running bundle's manifest (R408). -/
def paired (s : State) : Bool :=
  (runningBundle s).any fun b => b.pairs.any fun p =>
    p.hostStep == s.id.hostStep && p.fieldStep == s.id.fieldStep && p.h == s.id.hVer && p.f == s.id.fVer

/-- The pairing check once F-core runs: an untested pair keeps the node in Silt; otherwise a node in Silt
for want of its field side enters Loam if R19 holds (R408, Table 01-5). -/
def checkPair (s : State) : State :=
  let ok := paired s
  let s := { s with fw := { s.fw with pairOk := ok, pairSeen := true } }
  if !ok then siltWith 2 (note .host 0x0C02 1 0xFF [] s)
  else if s.modes.mode = .silt && s.modes.siltWhy = 1 && loamCode s = 0 then goLoam s
  else s

/-- The writes of a field item, a register that enables or selects a mode after the others of its item
(R409; log entry 28). -/
def fieldPuts (i : Nat × List Byte) : List RegPut :=
  let puts : List RegPut := (fieldItemRegs i.1).zipIdx.map fun r =>
    { addr := BitVec.ofNat 24 r.1, value := wordAt i.2 (4 * r.2), mask := 0xFFFFFFFF }
  if inRange 0x0100 0x011F i.1 || inRange 0x0158 0x0159 i.1 then puts.drop 1 ++ puts.take 1 else puts

/-- The field configuration starts after a link-up that found no loaded image, or one left unfinished
(R409). -/
def startConfigure (loaded : Bool) (s : State) : State :=
  let fresh := !loaded || !s.fw.cfgLeft.isEmpty
  let s := { s with fw := { s.fw with cfgRefused := false, freshField := false } }
  if fresh then configureNext { s with fw := { s.fw with cfgLeft := s.fw.items.flatMap fieldPuts } } else s

/-- The host compares what the field answered with the running bundle: a loaded image with the bundle's digest is
kept, any other is loaded again, in a run of three loads (R407, R75). -/
def checkImage (image : Bool × BitVec 256) (s : State) : State :=
  match runningBundle s with
  | none => s
  | some b =>
    if image.1 && image.2 == b.digest then checkPair { s with fw := { s.fw with loading := false } }
    else { s with fw := { s.fw with loading := true, misses := 0 } }

/-- The host reads LOADED and FIMG_DIGEST from the loader (R75, R407). -/
def readDigest (s : State) : State := startOp .digest false 0 loaderOp s

/-- The loader's answer: the image is kept or loaded again, and a fresh field is configured (R407, R409). A read that
ends without an answer counts as one that found no image (DESIGN CHOICE, log entry 60). -/
def takeDigest (s : State) : State :=
  match s.fw.fieldImage with
  | none => s
  | some image => startConfigure image.1 (checkImage image { s with fw := { s.fw with fieldImage := none } })

def execCfgData (tag : BitVec 16) (status : Byte) (addr : BitVec 24) (values : List Word) (s : State) : Out :=
  .next (takeDigest (cfgData tag status addr values s))

def execCfgResend (tag : BitVec 16) (s : State) : Out := .next (takeDigest (cfgResend tag s))

/-- BARRIER_LINK_UP: heartbeats run both ways and the latency is fixed between 520 and 600 ns; the field domains of
the wake set start, and the host asks the field for its image (R65, R374, R407). -/
def linkUpDone (latency : Nat) (s : State) : State :=
  if s.barr.link != .training || !clockOn s || !domOn s 1 || s.pwr.fsup = .absent || !inRange 416 480 latency then s
  else
    let s := completeLink latency s
    if s.modes.booted && s.modes.mode != .sand then readDigest (startFieldSet s) else s

def execBarrierLinkUp (latency : Fin 1024) (s : State) : Out := .next (linkUpDone latency.val s)

/-- The F-image of the running bundle. -/
def imageBytes (s : State) : List Byte :=
  match s.fw.runningB, runningBundle s with
  | some b, some v => readBytes flashByte (imgOf b s).mem v.fOff v.fLen
  | _, _ => []

/-- The cells that carry an F-image: 18 bytes each from offset 0 on, the last padded with zeros (R407). -/
def chunkCells (bs : List Byte) : List Cell :=
  (chunks 18 bs.length bs).zipIdx.map fun x =>
    .fimgChunk (BitVec.ofNat 32 (18 * x.2)) ((x.1 ++ List.replicate 18 0).take 18)

/-- A load sends the F-image of the running bundle once its digest is the bundle's (R382, R407). -/
def queueImage (s : State) : State :=
  if s.fw.loading && (runningBundle s).any (fun b => Config.sha256 (imageBytes s) == b.digest)
  then (chunkCells (imageBytes s)).foldl (fun s c => sendCell c s) s else s

/-- FIMG_CLEAR holds F-core in reset and clears LOADED; the cells of the image follow it (R407). -/
def execFimgClear (s : State) : Out :=
  .next (if linkUp s then { s with
      fw := { s.fw with fimgPtr := 0, fimgLoaded := false, fimgValid := false, fcoreRun := false, pairOk := false
                        pairSeen := false, fimgChecking := false }
      id := { s.id with fVer := ⟨0, 0, 0⟩ }
      barr := (queueImage s).barr } else s)

/-- An accepted FIMG_CHUNK: at the loader's write pointer it is stored, any other is discarded and counted (R407). -/
def chunkTaken (offset : Word) (bytes : List Byte) (s : State) : State :=
  if offset.toNat = s.fw.fimgPtr && !s.fw.fimgLoaded then
    { s with fw := { s.fw with
        fimgMem := writeBytes sramByte s.fw.fimgMem s.fw.fimgPtr (bytes.take 18), fimgPtr := s.fw.fimgPtr + 18 } }
  else { s with fw := { s.fw with fimgErr := satInc s.fw.fimgErr } }

/-- FIMG_CHUNK arrives at the field side. -/
def execFimgChunk (offset : Word) (bytes : List Byte) (s : State) : Out :=
  .next (onDown (.fimgChunk offset bytes) (chunkTaken offset bytes) s)

def execFimgCheck (s : State) : Out :=
  .next (if linkUp s then { s with fw := { s.fw with fimgChecking := true, fimgValid := false } } else s)

/-- FIMG_DIGEST_READY: three loads in a row with another digest raise FAULT FIMG_FAIL and hold Silt
(R407). -/
def digestReady (digest : BitVec 256) (s : State) : State :=
  if !(linkUp s && s.fw.fimgChecking) then s
  else
    let s := { s with fw := { s.fw with fimgChecking := false, fimgValid := true, fimgDigest := digest } }
    if (runningBundle s).any (fun b => b.digest == digest) then { s with fw := { s.fw with misses := 0 } }
    else
      let n := s.fw.misses + 1
      let s := { s with fw := { s.fw with misses := n } }
      if 3 ≤ n then
        siltWith 1 (note .host 0x0C01 2 0xFF [] { s with fw := { s.fw with loading := false } })
      else s

def execFimgDigestReady (digest : BitVec 256) (s : State) : Out := .next (digestReady digest s)

/-- FIMG_START runs F-core on a matching image; the host then checks the pairing (R407, R408). -/
def startFimg (s : State) : State :=
  match runningBundle s with
  | none => s
  | some b =>
    if linkUp s && s.fw.fimgValid && s.fw.fimgDigest == b.digest then
      checkPair { s with
        fw := { s.fw with fimgLoaded := true, fcoreRun := true, loading := false }, id := { s.id with fVer := b.f } }
    else s

def execFimgStart (s : State) : Out := .next (startFimg s)

/-! ## Boot -/

/-- Into Sand with a reason: the boot loader applies the wake set, and the CAN ports stay in SLEEP (R370,
R425, Table 01-5). A head without a valid timebase starts one (R36, R59). -/
def enterSand (why : BitVec 4) (s0 : State) : State :=
  let s := startWset (fun d => d.val < 12) s0
  hostClay 8 (ensureTimebase (chooseRef
    { s with modes := { s.modes with mode := .sand, sandWhy := why, siltWhy := 0, booted := true } }))

/-- The boot record is written again (R412). -/
def bootRecord (s : State) : State := { s with fw := { s.fw with bootSeq := s.fw.bootSeq + 1 } }

/-- A slot that may boot: valid, and not REJECTED (R381, R413). -/
def bootable (b : Bool) (s : State) : Bool := slotValid b s && (imgOf b s).mark != .rejected

/-- The active slot if it may boot, else the other (R381). -/
def bootSlot (s : State) : Option Bool :=
  if bootable s.fw.activeB s then some s.fw.activeB
  else if bootable (!s.fw.activeB) s then some (!s.fw.activeB)
  else none

/-- The other slot becomes ACTIVE and CONFIRMED and this one REJECTED, if the other is valid (R413). -/
def canRollBack (b : Bool) (s : State) : Bool := (imgOf (!b) s).mark = .previous && slotValid (!b) s

def rejectSlot (b : Bool) (s : State) : State := bootRecord (setImg b (fun x => { x with mark := .rejected }) s)

def rollBack (b : Bool) (s : State) : State :=
  let s := setImg (!b) (fun x => { x with mark := .confirmed }) (rejectSlot b s)
  { s with fw := { s.fw with activeB := !b } }

/-- A bundle signature that failed at boot is counted (R381, Table 15-7). -/
def countSignatures (s : State) : State :=
  let bad (x : ImgSlot) : Bool := !x.invalid && (slotBundle x).any (fun b => !b.sigOk)
  if bad (imgOf s.fw.activeB s) then { s with sec := { s.sec with cntSig := satInc s.sec.cntSig } } else s

/-- The attempt of a TRIAL slot: the third unconfirmed one rejects it, with rollback where permitted
(R412, R413). The answer is the slot to boot. -/
def countAttempt (b : Bool) (s : State) : Option Bool × State :=
  match (imgOf b s).mark with
  | .trial n =>
    if 3 ≤ n then (if canRollBack b s then (some (!b), rollBack b s) else (none, rejectSlot b s))
    else (some b, bootRecord (setImg b (fun x => { x with mark := .trial (n + 1) }) s))
  | _ => (some b, s)

/-- The H-image of slot b runs. -/
def runImage (b : Bool) (s : State) : State :=
  match slotBundle (imgOf b s) with
  | none => s
  | some v => { s with
      fw := { s.fw with runningB := some b }
      id := { s.id with hVer := v.h, big := v.big, cig := v.cig, ssv := v.ssv }
      sec := { s.sec with epoch := v.epoch } }

/-- The settings copy to use: correct tag and higher generation, copy A where equal; one good copy repairs
the other (R416). -/
def loadCopies (s : State) : Option SetCopy × State :=
  let a := s.fw.copyA
  let b := s.fw.copyB
  match a.good, b.good with
  | true, true => (some (if a.gen.toNat < b.gen.toNat then b else a), s)
  | true, false => (some a, note .host 0x0C04 1 0xFF [] { s with fw := { s.fw with copyB := a } })
  | false, true => (some b, note .host 0x0C04 1 0xFF [] { s with fw := { s.fw with copyA := b } })
  | false, false => (none, note .host 0x0C05 2 0xFF [] s)

def useItems (items : List (Nat × List Byte)) (gen : Word) (ssv : Byte) (valid : Bool) (s : State) : State :=
  { s with fw := { s.fw with items := items, gen := gen, setSsv := ssv, setValid := valid } }

/-- The first item of a schema that fails R7, for MIG_FAIL. -/
def firstBad (items : List (Nat × List Byte)) (s : State) : Option Nat :=
  (items.find? fun i => !(itemLenOk i.1 i.2.length && itemOk i.1 i.2 items s)).map (·.1)

/-- WARN MIG_FAIL with both SSVs and the first failing item, in the log before the next step (R422). -/
def migFail (c : SetCopy) (item : Nat) (s : State) : State :=
  writeLog (note .host 0x0C08 1 0xFF ([c.ssv, s.id.ssv] ++ be 2 item) s)

/-- Migration (R421, R422): the settings as the H-image runs them, and whether it failed. -/
def migrate (c : SetCopy) (s : State) : Bool × State :=
  let lowest := (runningBundle s).map (·.migFrom.toNat)
  if c.ssv = s.id.ssv then (false, useItems c.items c.gen c.ssv true s)
  else if lowest.any (fun m => m ≤ c.ssv.toNat) && c.ssv.toNat < s.id.ssv.toNat then
    let s := writeLog (note .host 0x0C06 0 0xFF [] s)
    match firstBad c.items s with
    | some k => (true, migFail c k s)
    | none =>
      let s := useItems c.items c.gen s.id.ssv true (note .host 0x0C07 0 0xFF [] s)
      (false, { s with fw := { s.fw with migrated := true } })
  else (true, migFail c 0xFFFF s)

/-- After a failed migration: back to the previous slot where the slot was on trial and that is permitted,
else on with default settings (R413, R422). -/
def afterFail (b : Bool) (c : SetCopy) (s : State) : Bool × State :=
  let trial := match (imgOf b s).mark with | .trial _ => true | _ => false
  if trial && canRollBack b s then (true, restart (rollBack b (writeLog (note .host 0x0C09 1 0xFF [] s))))
  else
    let s := if trial then writeLog (note .host 0x0C0A 2 0xFF [] (rejectSlot b s)) else s
    (false, useItems [] c.gen s.id.ssv false s)

/-- The settings step: whether the node reboots, and the state after it; a trial that ends it without a
failed migration is CONFIRMED (R412, R416, R421). -/
def settingsStep (b : Bool) (s : State) : Bool × State :=
  let (c, s) := loadCopies s
  let confirm (s : State) : State :=
    match (imgOf b s).mark with
    | .trial _ => bootRecord (setImg b (fun x => { x with mark := .confirmed }) s)
    | _ => s
  match c with
  | none => (false, confirm (useItems [] 0 s.id.ssv false s))
  | some c =>
    match migrate c s with
    | (true, s) => afterFail b c s
    | (false, s) => (false, confirm s)

/-- The latency estimates and the aiding store of the state journal (R190, R282, R423): aiding is loaded
where PD_HSRAM1 kept none. -/
def loadJournal (s : State) : State :=
  match s.fw.journal with
  | none => s
  | some j =>
    let est (k : Nat) : Lat := { est := (findKey k j.lat).getD 50000, n := if (findKey k j.lat).isSome then 9 else 0 }
    let s := { s with sect := { s.sect with
      ch := vmapIdx (fun n c => { c with latOn := est (2 * n.val), latOff := est (2 * n.val + 1) }) s.sect.ch } }
    if s.gnss.almanac.isEmpty && s.gnss.ephem.isEmpty && s.gnss.aidPos.isNone then
      { s with gnss := { s.gnss with almanac := j.almanac, ephem := j.ephem, aidPos := j.pos } }
    else s

/-- The host items and the items that act at commit become running (Table 16-6). -/
def applySettings (s : State) : State :=
  let s := [0x0002, 0x0003, 0x0004, 0x0010, 0x0011, 0x0012, 0x0013, 0x0020, 0x0021, 0x0030, 0x0040, 0x0041, 0x0042,
    0x0050, 0x0060].foldl (fun s k => applyHostItem k s) s
  s.fw.items.foldl (fun s i => runItem i.1 i.2 s) s

/-- The mode after boot: Loam where R19 holds, else Silt with its reason (Table 01-5, R416). Table 01-7 never shows
code 6 and names no other for a boot that ends in Silt with exactly one CRITICAL record open; that the model shows 5
then is its choice (DESIGN CHOICE, log entry 59). -/
def bootMode (s : State) : State :=
  let s := { s with modes := { s.modes with booted := true, mode := .silt } }
  let s := ensureTimebase (chooseRef s)
  let code := loamCode s
  if code = 0 then goLoam s
  else
    let why := if !s.fw.setValid then 3 else if code = 6 then 5 else code
    hostClay 8 { s with modes := { s.modes with siltWhy := BitVec.ofNat 4 why } }

/-- The H-image of slot b from its start to its mode (Table 01-5). -/
def startImage (b : Bool) (s : State) : State :=
  let (again, s) := settingsStep b (runImage b s)
  if again then s
  else
    let s := applySettings (loadJournal s)
    let s := startWset (fun d => d.val < 12) { s with modes := { s.modes with booted := true, mode := .silt } }
    let s := bootMode s
    if linkUp s then readDigest (startFieldSet s) else s

/-- The domains marked "boot" come ON, and PD_SVC samples its address (Table 14-1, R341). -/
def bootDoms (s : State) : State :=
  [(0 : Fin 18), 1, 3, 4, 10].foldl (fun s d => if domOn s d then s else startDom d .on s) s

/-- BOOT: secure boot, the straps and the boot record, then the image (R381, R159, R385, Table 01-5). A
RETIRED node starts no image (R389). -/
def boot (s : State) : State :=
  if !clockOn s || s.modes.booted || s.sec.hHalt then s
  else
    let s := bootDoms s
    let asked := s.fw.sandReq
    let s := if asked then bootRecord { s with fw := { s.fw with sandReq := false } } else s
    if s.sec.life = .retired then enterSand 1 s
    else
      let s := countSignatures s
      match bootSlot s with
      | none => enterSand 1 s
      | some b =>
        if s.id.sandStrap then enterSand 2 s
        else if asked then enterSand 3 s
        else match countAttempt b s with
          | (none, s) => enterSand 1 s
          | (some b, s) => startImage b s

end Sys2Proof.Machine
end

