-- ==== Sys2Proof/Machine/Power.lean ====
section
/-! DEFINITION. Power domains and wake (14), supplies, key and cell (18, 01): domain-set transactions,
PD_SET and PD_GET, the wake sequence and its sources, the key-off and backup-cell shutdowns. -/

namespace Sys2Proof.Machine

/-! ## Transactions (R364 to R368, Table 14-3) -/

/-- The state a transaction asks of domain d. -/
def targetOf (t : PdTxn) (s : State) (d : Fin 18) : Dom := ((t.targets.find? (·.1 = d)).map (·.2)).getD s.pwr.dom[d]

def starts (was v : Dom) : Bool := (v = .on && was != .on) || (v = .ret && was = .off)
def stops (was v : Dom) : Bool := (was = .on && v != .on) || (was = .ret && v = .off)

/-- Why the prepare step refuses domain d (R365): DEPENDENCY, FIELD_ACTIVE, FSUP_ABSENT, BARRIER, DEBUG_HALT,
COMMIT. -/
def prepReason (t : PdTxn) (s : State) (d : Fin 18) : Option Byte :=
  let was := s.pwr.dom[d]
  let v := targetOf t s d
  let isF : Bool := 12 ≤ d.val
  let leaves : Bool := was = .on && v != .on
  if v = .on && (domNeeds d).any (fun n => targetOf t s n != .on) then some 1
  else if isF && leaves && !s.modes.clay && !(d = 16 && s.loop.slot.toList.all (·.state = .stopped)) then some 3
  else if isF && starts was v && s.pwr.fsup = .absent then some 7
  else if isF && v != was && !linkUp s then some 5
  else if leaves && ((d = 1 && s.sec.hHalt) || (d = 13 && s.sec.fHalt)) then some 6
  else if s.pwr.shutdown = .commit && v != was then some 8
  else none

/-- The first domain in number order that fails (R365). -/
def prepare (t : PdTxn) (s : State) : Option (Fin 18 × Byte) :=
  (List.finRange 18).findSome? fun d => (prepReason t s d).map fun r => (d, r)

/-- Why a stopping domain refuses at its turn (R366, R280, R321, R342). -/
def stopReason (s : State) (d : Fin 18) : Option Byte :=
  let asleep (c : Can) : Bool := c.mode = .sleep && c.wakeOpt
  match d.val with
  | 4 => if s.fw.erasing || s.fw.commit.isSome then some 4 else none
  | 5 | 6 => if field (reg s 0x070000) 1 0 != 0 then some 2 else none
  | 8 => if asleep s.canA then some 2 else none
  | 9 => if asleep s.canB then some 2 else none
  | 10 => if s.svc.active || s.svc.busy then some 2 else none
  | _ => none

/-- A transaction under way: the state, the changes made with what they replaced, newest first, the refusal,
and the domains overridden by force. -/
structure TxnRun where
  st : State
  changed : List (Fin 18 × Dom) := []
  refusal : Option (Fin 18 × Byte) := none
  forced : Word := 0

def startOne (t : PdTxn) (r : TxnRun) (d : Fin 18) : TxnRun :=
  let was := r.st.pwr.dom[d]
  let v := targetOf t r.st d
  if starts was v then { r with st := startDom d v r.st, changed := (d, was) :: r.changed } else r

def stopOne (t : PdTxn) (r : TxnRun) (d : Fin 18) : TxnRun :=
  let was := r.st.pwr.dom[d]
  let v := targetOf t r.st d
  if r.refusal.isSome || !stops was v then r
  else match stopReason r.st d with
    | some x =>
      if t.force then
        { r with st := stopDom d v r.st, changed := (d, was) :: r.changed, forced := r.forced ||| domBit d }
      else { r with refusal := some (d, x) }
    | none => { r with st := stopDom d v r.st, changed := (d, was) :: r.changed }

/-- Every changed domain returns to its previous state, in the reverse of the order of the changes (R366). -/
def restoreAll (r : TxnRun) : State :=
  r.changed.foldl (fun s c =>
    if starts s.pwr.dom[c.1] c.2 then startDom c.1 c.2 s
    else if stops s.pwr.dom[c.1] c.2 then stopDom c.1 c.2 s else s) r.st

/-- The domain of the transport that carries a transaction's reply (R368). -/
def replyDom (t : PdTxn) : Option (Fin 18) :=
  match t.by' with
  | .request q => (match q.via with
    | .chain _ => some 11 | .headHost => some 11 | .can .a _ => some 8 | .can .b _ => some 9 | .svc => some 10 | .planner => none)
  | _ => none

/-- Domains that stop after the reply: PD_HSRAM0, PD_HCORE and the reply's transport (R368). -/
def stopsLast (t : PdTxn) (d : Fin 18) : Bool := d.val ≤ 1 || replyDom t = some d

/-- The reply p to a request of this transport has left the node: no frame of it waits or is being sent, and a
mailbox reply has been read to its last byte (R168, R368). -/
def packetLeft (via : Via) (p : Packet) (s : State) : Bool :=
  let onPort (c : Can) : Bool := c.sending == some p && (c.obj[(0 : Fin 128)].kind = .tx || !c.segs.isEmpty)
  match via with
  | .chain _ | .headHost => !(s.chain.rg5 ++ s.chain.rg5Held).any (fun x => x.frame.payload == packetBytes p)
  | .can port _ =>
    !s.pkt.canReplies.any (fun r => r.1 = port && r.2.2 == p) && !onPort (match port with | .a => s.canA | .b => s.canB)
  | .svc => !s.svc.heldReplies.contains p &&
      !(s.svc.ready && !s.svc.taken && readBytes sramByte s.svc.buf 4 s.svc.mbLen.toNat == packetBytes p)
  | .planner => true

/-- The last byte of the request's reply has left its port (R168, R368). -/
def replyLeft (q : Request) (s : State) : Bool :=
  match s.pkt.dups.find? (isDup q) with
  | some d => d.replies.all fun p => packetLeft q.via p s
  | none => true

/-- The transaction may stop its last domains: none of them stops, or the reply has left (R368). -/
def mayFinish (t : PdTxn) (s : State) : Bool :=
  !((List.finRange 18).any fun d => stopsLast t d && stops s.pwr.dom[d] (targetOf t s d)) ||
  (match t.by' with | .request q => replyLeft q s | _ => true)

/-- The result record (R367); a refusal is counted. -/
def txnResult (f : Option (Fin 18 × Byte)) (micros : Nat) (s : State) : State :=
  { s with pwr := { s.pwr with
      txnDom := (f.map fun x => BitVec.ofNat 8 x.1.val).getD 0xFF, txnReason := (f.map (·.2)).getD 0
      txnTime := BitVec.ofNat 32 micros, refused := if f.isSome then satInc s.pwr.refused else s.pwr.refused } }

/-- The reply of a PD_SET: the result record in r2–7 (R367); a scheduled one goes out as the second reply of
R156. -/
def answerTxnPd (t : PdTxn) (f : Option (Fin 18 × Byte)) (micros : Nat) (s : State) : State :=
  match t.by' with
  | .request q =>
    let data : List Byte := [(f.map fun x => BitVec.ofNat 8 x.1.val).getD 0xFF, (f.map (·.2)).getD 0] ++ be 4 micros
    let s := if q.pkt.sched && f.isSome then schedFail q 0x11 s else s
    reply q (if f.isSome then { status := 0x11, detail := 0x32, data := data } else { data := data }) s
  | _ => s

/-- The domains that stop last, in descending order, and the full time in PWR_TXNT; a refusal restores every domain
(R366, R368). -/
def finishTxn (t : PdTxn) (micros : Nat) (r : TxnRun) : State :=
  let r := ((List.finRange 18).reverse.filter (stopsLast t)).foldl (stopOne t) { r with st := txnResult none micros r.st }
  let s := match r.refusal with
    | some f => txnResult (some f) micros (restoreAll r)
    | none => r.st
  if r.forced = 0 then s else note .host 0x0801 1 0xFF (be 4 r.forced.toNat) s

/-- A transaction from its prepare step on: starts in ascending order, stops in descending order, with restoration of
all on a refusal, and the reply; it answers the transaction that still waits for its reply to leave (R365 to R368). -/
def transact (t : PdTxn) (micros : Nat) (s : State) : Option PdTxn × State :=
  match prepare t s with
  | some f => (none, txnResult (some f) micros (answerTxnPd t (some f) micros s))
  | none =>
    let r := (List.finRange 18).foldl (startOne t) { st := s }
    let r := ((List.finRange 18).reverse.filter fun d => !stopsLast t d).foldl (stopOne t) r
    match r.refusal with
    | some f => (none, txnResult (some f) micros (answerTxnPd t (some f) micros (restoreAll r)))
    | none =>
      let s := answerTxnPd t none micros r.st
      if mayFinish t s then (none, finishTxn t micros { r with st := s })
      else (some { t with undo := some r.changed }, s)

/-! ## PD_SET and PD_GET -/

/-- The domain and state pairs of a PD_SET; none for a number above 17 or a state of 3 and more. -/
def pdTargets (bs : List Byte) : Option (List (Fin 18 × Dom)) :=
  (chunks 2 18 (bs.drop 1)).mapM fun p =>
    let v : Option Dom := match (byteAt p 1).toNat with | 0 => some .off | 1 => some .ret | 2 => some .on | _ => none
    if (byteAt p 0).toNat < 18 then v.map fun v => (Fin.ofNat 18 (byteAt p 0).toNat, v) else none

def pdSetCheck (q : Request) (_ : State) : Option Ans :=
  let b := reqBody q
  let n := (byteAt b 0).toNat
  (if b.length = 1 + 2 * n then none else refuse 0x22 0) <|>
  param (inRange 1 18 n && (pdTargets b).any fun ts => (ts.map (·.1)).Nodup)

/-- PD_SET starts a transaction, which DOMAIN_TRANSACTION completes (R364, R171, R4). -/
def pdSetAct (q : Request) (s : State) : State × Option Ans :=
  match pdTargets (reqBody q) with
  | none => (s, refuse 0x21 0)
  | some ts =>
    if s.pwr.txn.isSome || !s.pwr.queued.isEmpty then (s, refuse 0x40 0)
    else if s.id.variant = .b && ts.any (fun t => t.1 = 6 && t.2 != .off) then (s, refuse 0x13 0)
    else ({ s with pwr := { s.pwr with txn := some { by' := .request q, targets := ts } } }, none)

def opPdSet : Op := { code := 0x78, check := pdSetCheck, act := pdSetAct }

def execPdSet (q : Request) (s : State) : Out := .next (serve opPdSet q s)

def opPdGet : Op :=
  { code := 0x79, check := fun q _ => lenIs 0 q
    act := fun _ s => (s, done ((List.finRange 18).map fun d => BitVec.ofNat 8 (domCode s d))) }

def execPdGet (q : Request) (s : State) : Out := .next (serve opPdGet q s)

/-! ## The wake sequence (R371 to R375, R461) -/

def wakeCode (w : WakeSrc) : BitVec 4 :=
  match w with
  | .keyIn => 1 | .lsup => 2 | .fsup => 3 | .sin0 => 4 | .energyUp => 5 | .energyDn => 6 | .canAEdge => 7 | .canBEdge => 8
  | .tck => 9 | .marl => 10 | .canAFrame => 11 | .canBFrame => 12 | .mailboxGo => 13

/-- The source is enabled (Table 14-5, R373, R396). -/
def wakeEnabled (w : WakeSrc) (s : State) : Bool :=
  let en (n : Nat) : Bool := bit (reg s 0x080008) n
  match w with
  | .keyIn => en 0
  | .lsup => en 1
  | .fsup => en 2
  | .sin0 => en 3 && bit (reg s 0x140000) 0
  | .energyUp => en 4 && !domOn s 11
  | .energyDn => en 5 && !domOn s 11
  | .canAEdge => s.canA.mode = .sleep && !s.canA.wakeOpt
  | .canBEdge => s.canB.mode = .sleep && !s.canB.wakeOpt
  | .tck => en 6 && bit (reg s 0x090004) 0 && decide (1 ≤ s.sec.level.val)
  | .marl => domOn s 11
  | .canAFrame => domOn s 8 && s.canA.mode = .sleep && s.canA.wakeOpt
  | .canBFrame => domOn s 9 && s.canB.mode = .sleep && s.canB.wakeOpt
  | .mailboxGo => domOn s 10 && !domOn s 1

/-- The domain of a waking source (R374). -/
def wakeDom (w : WakeSrc) : Option (Fin 18) :=
  match w with
  | .energyUp => some 11 | .energyDn => some 11 | .marl => some 11 | .canAEdge => some 8 | .canAFrame => some 8
  | .canBEdge => some 9 | .canBFrame => some 9 | .mailboxGo => some 10 | _ => none

def startOff (d : Fin 18) (s : State) : State := if domOn s d then s else startDom d .on s

/-- A woken CAN port is to leave SLEEP (R322). -/
def wakePort (w : WakeSrc) (s : State) : State :=
  match w with
  | .canAEdge => { s with canA := { s.canA with waking := true } }
  | .canAFrame => { s with canA := { s.canA with waking := true } }
  | .canBEdge => { s with canB := { s.canB with waking := true } }
  | .canBFrame => { s with canB := { s.canB with waking := true } }
  | _ => s

/-- A wake (R374): a cold relock if MCLK is stopped, the source's domain, PD_HSRAM0 and PD_HCORE, then the wake
set; the field domains of it start at link-up. From OFF, H-core boots (BOOT), which applies the wake
set itself. -/
def runWake (w : WakeSrc) (reason : Byte) (s : State) : State :=
  let cold := decide (s.clk.tree = .stopped)
  let s := if cold then relockFresh s else s
  let s := match wakeDom w with | some d => startOff d s | none => s
  let s := wakePort w (startOff 1 (startOff 0 s))
  let s := { s with pwr := { s.pwr with
    why := wakeCode w, whyCold := cold, marlReason := if w = WakeSrc.marl then reason else 0, wakes := satInc s.pwr.wakes
    fieldStart := true, shutdown := .none, txnDom := 0xFF, txnReason := 0 } }
  if s.modes.booted then
    let s := startWset (fun d => d.val < 12) s
    if linkUp s then startFieldSet s
    else if s.pwr.fsup = Fsup.absent then startWset (fun d => 12 ≤ d.val) s
    else s
  else s

/-- A source that fires acts at once, or is latched while a transaction runs or LSUP is below its start
threshold; the first latched one is kept (R375, R461). -/
def wake (w : WakeSrc) (reason : Byte) (s : State) : State :=
  if !wakeEnabled w s || !s.pwr.wakeLogic then s
  else if s.pwr.txn.isSome || !s.pwr.lsup then
    { s with pwr := { s.pwr with wakeLatch := s.pwr.wakeLatch <|> some (w, reason) } }
  else runWake w reason s

/-- The latched wake acts. -/
def latchedWake (s : State) : State :=
  match s.pwr.wakeLatch with
  | some (w, r) => if s.pwr.lsup then runWake w r { s with pwr := { s.pwr with wakeLatch := none } } else s
  | none => s

/-- Elapsed time the spec gives no figure for. -/
def freeMicros (s : State) : Nat := Config.freeTicks s.free

/-- What follows a transaction: a key-off that nothing refused ends the shutdown, and is retried otherwise
(R376); the attach a WAKE was for is granted, or ignored and counted (R394, R395). -/
def afterTxn (t : PdTxn) (s : State) : State :=
  match t.by' with
  | .keyOff =>
    if s.pwr.txnDom = 0xFF then { s with pwr := { s.pwr with shutdown := .done } }
    else { s with pwr := { s.pwr with shutdown := match s.pwr.shutdown with | .retry n => .retry (n + 1) | _ => .retry 0 } }
  | .attach p l =>
    if s.pwr.txnDom = 0xFF then
      { s with pwr := { s.pwr with why := 9, whyCold := false, marlReason := 0 }
               sec := { s.sec with attach := s.sec.attach.filter (fun a => a.1 != p) ++ [(p, l)] } }
    else { s with sec := { s.sec with cntIgnored := satInc s.sec.cntIgnored } }
  | .request _ => s

def isKeyOff (t : PdTxn) : Bool := match t.by' with | .keyOff => true | _ => false

/-- The running transaction has ended: a queued one of the node itself follows, the key-off one after its shutdown
commit, and a latched wake acts (R364, R375, R376). -/
def endTransaction (t : PdTxn) (s : State) : State :=
  let s := afterTxn t s
  let next := s.pwr.queued.head?
  let s := { s with pwr := { s.pwr with
    txn := next, queued := s.pwr.queued.drop 1
    shutdown := if next.any isKeyOff && s.pwr.shutdown = .commit then .retry 0 else s.pwr.shutdown } }
  if s.pwr.txn.isNone then latchedWake s else s

/-- DOMAIN_TRANSACTION: the running transaction runs to its end, or, where the domains that stop last wait for the
reply to leave, to its reply and from there to its end (R366, R368). -/
def domainTransaction (micros : Nat) (s : State) : State :=
  match s.pwr.txn with
  | none => s
  | some t =>
    match t.undo with
    | some changed =>
      if mayFinish t s then endTransaction t (finishTxn t micros { st := s, changed := changed }) else s
    | none =>
      match transact t micros s with
      | (none, s) => endTransaction t s
      | (some t, s) => { s with pwr := { s.pwr with txn := some t } }

/-- A transaction of the node itself waits for the running one, else runs at once (R364). -/
def ownTxn (t : PdTxn) (s : State) : State :=
  if s.pwr.txn.isSome then { s with pwr := { s.pwr with queued := s.pwr.queued ++ [t] } }
  else
    let m := freeMicros s
    domainTransaction m (draw { s with pwr := { s.pwr with txn := some t } })

/-! ## Wake sources -/

/-- FIELD_WAKE_PULSE: PWRF_STAT latches the cause, the host is woken, and a host that retries link-up once per
epoch attempts it at once (R372, R73). -/
def fieldWakePulse (sin0 : Bool) (s : State) : State :=
  if s.pwr.fsup = .absent || (sin0 && !bit (reg s 0x140000) 0) then s
  else
    let s := { s with pwr := { s.pwr with
      fsupWake := s.pwr.fsupWake || !sin0, sin0Wake := s.pwr.sin0Wake || sin0 } }
    let s := if s.barr.link = .down && s.barr.epochRetry && clockOn s && domOn s 1
      then enableLanes { s with barr := { s.barr with epochRetry := false, runFails := 0 } } else s
    wake (if sin0 then .sin0 else .fsup) 0 s

/-! ## Key-off (R31, R376, R400, R423) -/

/-- The state journal of R423. -/
def writeJournal (s : State) : State :=
  let lats := (List.finRange 32).flatMap fun n =>
    let c := s.sect.ch[n]
    let one (k : Nat) (l : Lat) : List (Nat × Nat) := if l.n = 0 && !l.seeded then [] else [(k, l.est)]
    one (2 * n.val) c.latOn ++ one (2 * n.val + 1) c.latOff
  let pos : Option AidPos := match s.gnss.sol with
    | some v => some { lat := v.lat, lon := v.lon, height := v.height, uncert := v.sigma }
    | none => s.gnss.aidPos
  { s with fw := { s.fw with
      journal := some { lat := lats, almanac := s.gnss.almanac, ephem := s.gnss.ephem, pos := pos } } }

/-- SHUTDOWN_COMMIT: a running settings commit first, then the event log, the as-applied records and the state
journal (R420, R423, R424, R434). -/
def shutdownCommit (s : State) : State := writeJournal (commitAll s)

/-- The target of a key-off: PWR_SLEEPSET in RET, every other domain OFF; PD_GRF of a -B stays OFF (R376, R3). -/
def keyOffTxn (s : State) : PdTxn :=
  { by' := .keyOff, targets := (List.finRange 18).map fun d =>
      (d, if bit (reg s 0x080010) d.val && (d != 6 || s.id.variant = .g2) then .ret else .off) }

def execKeyInFall (s : State) : Out :=
  .next { s with pwr := { s.pwr with keyIn := false, keyCount := true } }

/-- KEY_IN_SHUTDOWN: Clay cause 9, the shutdown commit and the key-off transaction, which waits for a transaction that
runs; that one is refused with COMMIT if its prepare step is yet to come. The shutdown waits while H-core is halted
(R31, R364, R365, R400). -/
def keyInShutdown (s : State) : State :=
  if !s.pwr.keyCount || s.sec.hHalt || !domOn s 1 || !clockOn s then s
  else
    let s := hostClay 9 { s with pwr := { s.pwr with
      keyCount := false, shutdown := if s.pwr.txn.isSome then .commit else .retry 0 } }
    let s := shutdownCommit s
    ownTxn (keyOffTxn s) s

def execKeyInShutdown (s : State) : Out := .next (keyInShutdown s)

/-- KEY_IN_RISE: within the 100 ms nothing else happens; a shutdown whose domains are still on ends; during the
key-off transaction, or asleep, it wakes the node (R31, R371, R375). -/
def keyInRise (s : State) : State :=
  let pending := s.pwr.shutdown != .none && s.pwr.shutdown != .done && !s.pwr.txn.any isKeyOff
  let s := liftCause 9 { s with pwr := { s.pwr with keyIn := true, keyCount := false } }
  if pending then { s with pwr := { s.pwr with shutdown := .none, queued := s.pwr.queued.filter fun t => !isKeyOff t } }
  else if domOn s 1 && !s.pwr.txn.any isKeyOff then s
  else wake .keyIn 0 s

def retrying (s : State) : Bool := match s.pwr.shutdown with | .retry _ => true | _ => false

/-- SHUTDOWN_RETRY: the key-off transaction again (R376). -/
def execShutdownRetry (s : State) : Out :=
  .next (if retrying s && s.pwr.txn.isNone then ownTxn (keyOffTxn s) s else s)

/-- The domains that a forced key-off leaves as they are: those a reason other than IN_USE and FLASH_BUSY
holds, and what they need (R376, R358). -/
def heldDoms (t : PdTxn) (s : State) : List (Fin 18) :=
  (List.range 6).foldl (fun l _ =>
    (List.finRange 18).filter fun d => l.contains d || l.any fun e => domNeeds e = some d)
    ((List.finRange 18).filter fun d => ((prepReason t s d).any (· != 1)))

/-- SHUTDOWN_FORCE after 10 s of refusals (R376). -/
def shutdownForce (s : State) : State :=
  if !retrying s || s.pwr.txn.isSome then s
  else
    let t := keyOffTxn s
    let kept := heldDoms t s
    ownTxn { t with force := true, targets := t.targets.filter fun x => !kept.contains x.1 } s

def execShutdownForce (s : State) : Out := .next (shutdownForce s)

/-! ## Supplies (R459 to R461, R377, R477) -/

/-- A settings commit that the power leaves half written: which copy is spoiled is a free value (R420). -/
def spoilCommit (s : State) : State :=
  match s.fw.commit with
  | none => s
  | some c =>
    let s' := draw s
    let new : SetCopy := { good := true, gen := c.gen, ssv := s.id.ssv, items := c.items }
    if bit (Config.freeWord s.free) 0 then
      { s' with fw := { s'.fw with commit := none, copyA := { s'.fw.copyA with good := false } } }
    else { s' with fw := { s'.fw with commit := none, copyA := new, copyB := { s'.fw.copyB with good := false } } }

/-- An erase that the power cuts leaves its slot invalid, which IMG_BEGIN made it already; the update is
closed (Table 16-5). -/
def dropUpdate (s : State) : State :=
  let s := closeUpdate s
  { s with fw := { s.fw with openB := none, erasing := false } }

/-- The retention posture on the cell: PD_HSRAM0 and PD_HSRAM1 as PWR_SLEEPSET says, every other host domain
OFF (R377). -/
def cellPosture (s : State) : State :=
  (List.finRange 12).reverse.foldl (fun s i =>
    let d : Fin 18 := Fin.ofNat 18 i.val
    let v : Dom := if (d = 0 || d = 2) && bit (reg s 0x080010) d.val && s.pwr.dom[d] != .off then .ret else .off
    if stops s.pwr.dom[d] v then stopDom d v s else s) s

/-- The host side without any supply: nothing volatile is left, the wake logic included (R459, R397). -/
def hostPowerLost (s : State) : State :=
  let s := dropUpdate (spoilCommit s)
  let s := (List.finRange 12).reverse.foldl (fun s i =>
    let d : Fin 18 := Fin.ofNat 18 i.val
    if stops s.pwr.dom[d] .off then stopDom d .off s else s) s
  { dropRegs (fun a => !isField a) s with pwr := { s.pwr with wakeLatch := none, wakeLogic := false } }

/-- Every halt is released and the debug module is detached (R400). -/
def detachAll (s : State) : State :=
  resumeH (resumeF { s with sec := { s.sec with attach := [], scan := none } })

/-- LSUP_LOSS: the barrier clock stops; the cell carries the shutdown commit if it is at or above 2.90 V, then
the retention posture; without a cell the host side resets (R11, R377, R400, R459, R477). -/
def lsupLoss (s : State) : State :=
  if !s.pwr.lsup then s
  else
    let s := enterClay 1 (stopLink (detachAll { s with pwr := { s.pwr with lsup := false, txn := none, queued := [] } }))
    if s.pwr.batAbsent then hostPowerLost s
    else if 2900 ≤ s.pwr.vcell.toNat && domOn s 1 then cellPosture (dropUpdate (shutdownCommit s))
    else cellPosture (dropUpdate (spoilCommit s))

def execLsupLoss (s : State) : Out := .next (lsupLoss s)

/-- The node powers up from nothing: a first power-up on the host side (Table 14-1). -/
def powerUp (s : State) : State :=
  let s := restart { s with pwr := { s.pwr with wakeLogic := true } }
  { setDom 2 .off s with clk := {} }

/-- LSUP_RISE: a latched wake source acts first; else the rise itself wakes a node on its cell (R461, R371). -/
def lsupRise (s : State) : State :=
  if s.pwr.lsup then s
  else
    let dead := !s.pwr.wakeLogic
    let s := { s with pwr := { s.pwr with lsup := true } }
    if dead then powerUp s
    else if s.pwr.wakeLatch.isSome then latchedWake s
    else wake .lsup 0 s

/-- INTERNAL_HOLD_UP_EXHAUSTED: without a cell, a dip longer than 0.5 ms resets the host side (R459). -/
def execInternalHoldUpExhausted (s : State) : Out :=
  .next (if s.pwr.batAbsent && s.pwr.lsup then
    powerUp (hostPowerLost (enterClay 1 (stopLink (detachAll { s with pwr := { s.pwr with txn := none, queued := [] } }))))
    else s)

/-- FSUP_UNDERVOLTAGE: cause 5 at the first frame boundary after it; the field keeps its state (R460, Table 08-7). -/
def execFsupUndervoltage (s : State) : Out :=
  .next (if s.pwr.fsup = .present then
    enterClay 5 (toFieldFrame (note .field 0x1401 2 0xFF [] { s with pwr := { s.pwr with fsup := .low } })) else s)

/-- FSUP_LOSS: the field die is without supply (R460). -/
def execFsupLoss (s : State) : Out :=
  .next (if s.pwr.fsup = .absent then s
    else loseField (enterClay 5 { s with pwr := { s.pwr with fsup := .absent } }))

/-- FSUP_RESTART: cause 5 is released; after a loss it is a field power-on reset with cause 10 and the soft
start of the disconnect (R460, R445). -/
def execFsupRestart (s : State) : Out :=
  .next (match s.pwr.fsup with
    | .present => s
    | .low => liftCause 5 { s with pwr := { s.pwr with fsup := .present } }
    | .absent => enterClay 10 (liftCause 5 { s with pwr := { s.pwr with fsup := .present } }))

/-- CELL_RETENTION_LOST: the retained SRAM goes OFF (R377). -/
def execCellRetentionLost (s : State) : Out :=
  .next (if s.pwr.lsup then s
    else [(2 : Fin 18), 0].foldl (fun s d => if stops s.pwr.dom[d] .off then stopDom d .off s else s) s)

/-- WAKE_LOGIC_SUPPLY_LOST: with LSUP absent the wake logic loses DBG_CTRL and every latched wake (R476, R397). -/
def execWakeLogicSupplyLost (s : State) : Out :=
  .next (if s.pwr.lsup then s else hostPowerLost s)

/-! ## The cell and its charger (R476, R478) -/

/-- The phase a cell voltage calls for. -/
def chargePhase (mv : Nat) : Chg := if mv < 2500 then .precharge else if mv < 3600 then .cc else .cv

/-- 0 to 45 °C, as signed. -/
def chargeable (temp : Byte) : Bool := decide (0 ≤ temp.toInt) && decide (temp.toInt ≤ 45)

def execCellRemoved (s : State) : Out :=
  .next { s with pwr := { s.pwr with batAbsent := true, chg := .absent, phase := .off } }

/-- What PWR_BAT.CHG shows: the phase while the charger may run, else OFF or TEMP_HOLD (Table 18-12). -/
def chargeShown (lsupOk : Bool) (temp : Byte) (phase : Chg) : Chg :=
  if !lsupOk then .off else if !chargeable temp then .tempHold else phase

def execCellDetected (mv : BitVec 12) (temp : Byte) (s : State) : Out :=
  .next (if s.pwr.batAbsent && inRange 2000 3650 mv.toNat then
    { s with pwr := { s.pwr with
        batAbsent := false, vcell := mv, tcell := temp, phase := chargePhase mv.toNat
        chg := chargeShown s.pwr.lsup temp (chargePhase mv.toNat) } }
    else s)

/-- The charger's next phase from its measurements (Table 18-11). -/
def nextPhase (c : Chg) (mv ma : Nat) : Chg :=
  match c with
  | .precharge => if mv < 2500 then .precharge else .cc
  | .cc => if mv < 3600 then .cc else .cv
  | .cv => if ma < 20 then .done else .cv
  | .done => if mv < 3250 then chargePhase mv else .done
  | _ => chargePhase mv

/-- CHARGER_PHASE_CHANGE: while it may not run the charger keeps its phase, and it resumes it after (R476). -/
def execChargerPhaseChange (mv : BitVec 12) (ma : Nat) (temp : Byte) (lsupOk : Bool) (s : State) : Out :=
  .next (if s.pwr.batAbsent then s
    else
      let ok := lsupOk && s.pwr.lsup
      let phase := if ok && chargeable temp then nextPhase s.pwr.phase mv.toNat ma else s.pwr.phase
      { s with pwr := { s.pwr with vcell := mv, tcell := temp, phase := phase, chg := chargeShown ok temp phase } })

end Sys2Proof.Machine
end

