-- ==== Sys2Proof/Machine/Security.lean ====
section
/-! DEFINITION. Security and debug (15), and the mode and reset opcodes of Table 06-4: MODE_SET and
RESET (R159, R162), nonces, tokens, lifecycle and sessions (R385 to R393), attaches (R394, R395), halts
(R398, R399), boundary scan (R402) and the debug cells (R390). -/

namespace Sys2Proof.Machine

/-! ## RESET and MODE_SET -/

/-- What RESET does after its reply, with which a head has passed a broadcast on (R128): Clay cause 3, one WARN with the count of scheduled commands it
discards, the commits, and the restart (R162). -/
def resetNow (s : State) : State :=
  let n := s.pkt.sched.length
  let s := hostClay 3 { s with pkt := { s.pkt with sched := [] }, barr := { s.barr with schedWrites := [] } }
  restart (commitAll (note .host 0x0004 1 0xFF (be 2 n) s))

def opReset : Op :=
  { code := 0x04, check := fun q _ => lenIs 0 q
    act := fun q s => (resetNow (if q.pkt.sched then s else reply q {} s), none) }

def execReset (q : Request) (s : State) : Out := .next (serve opReset q s)

/-- MODE_SET to Sand needs DBG1 in SEALED (R386, Table 15-2). -/
def sandPermitted (s : State) : Bool := s.sec.life != .sealed' || decide (1 ≤ s.sec.level.val)

/-- MODE_SET to Sand: the reply, Clay cause 8, the commits, the Sand request in the boot record, and the
reboot (R159). -/
def goSand (q : Request) (s : State) : State :=
  let s := hostClay 8 (reply q { data := [0] } s)
  let s := bootRecord (commitAll s)
  restart { s with fw := { s.fw with sandReq := true } }

/-- MODE_SET (R20, R159). -/
def modeSetAct (q : Request) (s : State) : State × Option Ans :=
  match (byteAt (reqBody q) 0).toNat, s.modes.mode with
  | 0, .sand => (s, done [0])
  | 1, .silt => (s, done [0])
  | 2, .loam => (s, done [0])
  | 0, _ => (goSand q s, none)
  | 1, _ => (enterSilt 4 s, done [0])
  | _, _ =>
    let code := loamCode s
    if code = 0 then (goLoam s, done [0])
    else (s, some { status := 0x11, data := [BitVec.ofNat 8 code] })

def opModeSet : Op :=
  { code := 0x01
    life := fun q s => if byteAt (reqBody q) 0 == 0 && !sandPermitted s then refuse 0x12 0x2F else none
    check := fun q _ => lenIs 1 q <|> param ((byteAt (reqBody q) 0).toNat ≤ 2)
    act := modeSetAct }

def execModeSet (q : Request) (s : State) : Out := .next (serve opModeSet q s)

/-! ## Nonces, tokens and lifecycle -/

def opSecGet : Op :=
  { code := 0x70, check := fun q _ => lenIs 0 q
    act := fun _ s => (s, done ([BitVec.ofNat 8 (lifeCode s.sec.life), BitVec.ofNat 8 s.sec.level.val, s.sec.epoch] ++
      be 2 s.sec.rollback)) }

def execSecGet (q : Request) (s : State) : Out := .next (serve opSecGet q s)

/-- The ceiling of Table 15-2. -/
def ceiling (s : State) : Nat :=
  match s.sec.life with | .opened => 4 | .provisioned => 4 | .sealed' => 2 | .retired => 0

/-- DBG_NONCE draws a nonce and invalidates the one before (R170, R388). -/
def nonceAct (q : Request) (s : State) : State × Option Ans :=
  guarded (if domOn s 3 then none else refuse 0x13 0) s fun s =>
    let bs := be 16 (Config.freeNonce s.free).toNat
    (draw { s with sec := { s.sec with nonce := some { level := Fin.ofNat 5 (byteAt (reqBody q) 0).toNat, bytes := bs } } },
      done (bs ++ be 8 s.id.serial.toNat))

def opDbgNonce : Op :=
  { code := 0x71
    life := fun q s =>
      let l := (byteAt (reqBody q) 0).toNat
      if inRange 1 3 l && decide (ceiling s < l) then refuse 0x12 0x2F else none
    check := fun q _ => lenIs 1 q <|> param (inRange 1 4 (byteAt (reqBody q) 0).toNat)
    act := nonceAct }

def execDbgNonce (q : Request) (s : State) : Out := .next (serve opDbgNonce q s)

def execNonceExpiry (s : State) : Out := .next { s with sec := { s.sec with nonce := none } }

/-- A token key slot that is provisioned (Table 15-1). -/
def slotProvisioned (s : State) (slot : Nat) : Bool :=
  if slot = 0 then s.sec.keyVendor else s.sec.keyIntegrator.isSome

/-- The token's check but for what its request adds: kind, level against the nonce, nonce, serial, key slot
and signature (R387, R392). -/
def tokenOk (t extra : List Byte) (kind nonceLevel : Nat) (s : State) : Bool :=
  let slot := (byteAt t 2).toNat
  (byteAt t 0).toNat = kind &&
  (s.sec.nonce.any fun n => n.level.val = nonceLevel && n.bytes == (t.drop 6).take 16) &&
  (t.drop 22).take 8 == be 8 s.id.serial.toNat && slotProvisioned s slot &&
  Config.tokenSignature (slot = 0) (t.take 30 ++ extra) ((t.drop 30).take 64)

/-- The reserved encodings of a token (Table 15-4). -/
def tokenForm (t : List Byte) : Bool :=
  let k := (byteAt t 0).toNat
  let limit := beAt t 4 2
  inRange 1 2 k && inRange 1 (if k = 1 then 4 else 3) (byteAt t 1).toNat && decide ((byteAt t 2).toNat ≤ 1) &&
  byteAt t 3 == 0 && (if k = 1 then inRange 1 1440 limit else limit = 0)

/-- A token that was refused counts (Table 15-7). -/
def tokenRefused (s : State) : State × Option Ans :=
  ({ s with sec := { s.sec with cntToken := satInc s.sec.cntToken } }, refuse 0x12 0x2E)

/-- A session opens at level l for m minutes (R392). -/
def openSession (l : Fin 5) (m : Nat) (slot : Bool) (s : State) : State :=
  let s := setLevel l s
  { s with sec := { s.sec with
      session := some (BitVec.ofNat 11 m, slot), sessEnd := s.clk.tb.toNat + m * 48000000000 } }

/-- In SEALED the session keys go before the reply, with the staging copy and a WARN (R393). -/
def zeroise (l : Fin 5) (slot : Byte) (s : State) : State :=
  note .host 0x0901 1 0xFF [BitVec.ofNat 8 l.val, slot] { s with
    sec := { s.sec with zeroised := true, sessionKeys := false }
    fw := { s.fw with staging := none } }

/-- DBG_UNLOCK (R392): in OPEN the level is set without the token check; else the nonce is consumed, pass or
fail. -/
def unlockAct (q : Request) (s : State) : State × Option Ans :=
  let t := reqBody q
  let l : Fin 5 := Fin.ofNat 5 (byteAt t 1).toNat
  if s.sec.life = .opened then (setLevel l s, done [byteAt t 1])
  else if !domOn s 3 then (s, refuse 0x13 0)
  else
    let ok := tokenOk t [] 1 l.val s
    let s := { s with sec := { s.sec with nonce := none } }
    if !ok then tokenRefused s
    else
      let s := openSession l (beAt t 4 2) (byteAt t 2 == 1) s
      (if s.sec.life = .sealed' then zeroise l (byteAt t 2) s else s, done [byteAt t 1])

def opDbgUnlock : Op :=
  { code := 0x72
    life := fun q s => if ceiling s < (byteAt (reqBody q) 1).toNat && (byteAt (reqBody q) 1).toNat ≤ 4 then refuse 0x12 0x2F
      else none
    check := fun q _ => lenIs 94 q <|> param (tokenForm (reqBody q))
    act := unlockAct }

def execDbgUnlock (q : Request) (s : State) : Out := .next (serve opDbgUnlock q s)

def opDbgLock : Op :=
  { code := 0x73, check := fun q _ => lenIs 0 q, act := fun _ s => (setLevel 0 s, done []) }

def execDbgLock (q : Request) (s : State) : Out := .next (serve opDbgLock q s)

/-- The session limit, counted on TB (R391). -/
def sessionExpiry (s : State) : State :=
  if s.sec.session.isSome && clockOn s then setLevel 0 (advanceTo s.sec.sessEnd s) else s

def lifeOf (n : Nat) : Lifecycle :=
  match n with | 0 => .opened | 1 => .provisioned | 2 => .sealed' | _ => .retired

/-- What RETIRED destroys: both settings copies, the event log, the as-applied area and the device secret
(R389). -/
def retire (s : State) : State :=
  { s with
    fw := { s.fw with
      copyA := { good := false }, copyB := { good := false }, asBuf := [], asRing := [], commit := none, journal := none }
    ev := { s.ev with log := [], unlogged := [] }
    sec := { s.sec with secretIntact := false } }

/-- LC_ADVANCE (R387, R389): what RETIRED erases, the fuses, the reply with the new state, and RESET. -/
def advanceLife (q : Request) (target : Nat) (s : State) : State :=
  let key := (reqBody q).drop 95
  let s := if target = 3 then retire s else s
  let s := { s with sec := { s.sec with
    life := lifeOf target, keyIntegrator := if target = 1 then some key else s.sec.keyIntegrator } }
  resetNow (reply q { data := [BitVec.ofNat 8 target] } s)

def lcAdvanceCheck (q : Request) (s : State) : Option Ans :=
  let b := reqBody q
  let target := (byteAt b 0).toNat
  (if b.length = (if target = 1 then 159 else 95) then none else refuse 0x22 0) <|>
  param ((target = lifeCode s.sec.life + 1 || target = 3) && tokenForm (b.drop 1))

def lcAdvanceAct (q : Request) (s : State) : State × Option Ans :=
  let b := reqBody q
  let t := (b.drop 1).take 94
  let target := (byteAt b 0).toNat
  guarded (if domOn s 3 then none else refuse 0x13 0) s fun s =>
  let ok := tokenOk t (b.drop 95) 2 4 s && (byteAt t 1).toNat = target && (target != 1 || byteAt t 2 == 0)
  let s := { s with sec := { s.sec with nonce := none } }
  if !ok then tokenRefused s
  else if !s.modes.clay then (s, refuse 0x11 0x23)
  else (advanceLife q target s, none)

def opLcAdvance : Op := { code := 0x74, check := lcAdvanceCheck, act := lcAdvanceAct }

def execLcAdvance (q : Request) (s : State) : Out := .next (serve opLcAdvance q s)

/-- SEC_CNTCLR, a register of the clock core (Table 15-7, R483). -/
def clearSec (v : Word) (s : State) : State :=
  if bit v 0 then { s with sec := { s.sec with cntSig := 0, cntToken := 0, cntRollback := 0, cntIgnored := 0 } } else s

def execSecCntclr (value : Word) (s : State) : Out := .next (clearSec value s)

/-! ## Attaches (R394, R395, Tables 15-3 and 15-5) -/

/-- The affected domains of an attach (Table 15-3). -/
def affected (p : DbgPort) (l : Fin 5) : List (Fin 18) :=
  match p with
  | .h => if l.val = 4 then [1, 4] else [1]
  | .f => [1, 13]

/-- The condition of Table 15-5. -/
def mayAttach (l : Fin 5) (s : State) : Bool :=
  decide (l ≤ s.sec.level) &&
  (match s.sec.life with
    | .opened => true | .provisioned => s.sec.session.isSome
    | .sealed' => s.sec.session.isSome && decide (l.val ≤ 2) | .retired => false)

/-- An ignored attach or a masked TAP instruction is counted while MCLK runs (R394, R401). -/
def countIgnored (s : State) : State :=
  if clockOn s then { s with sec := { s.sec with cntIgnored := satInc s.sec.cntIgnored } } else s

def attach (p : DbgPort) (l : Fin 5) (s : State) : State :=
  { s with sec := { s.sec with attach := s.sec.attach.filter (fun a => a.1 != p) ++ [(p, l)] } }

/-- The affected domains and the domains they need (R395, R358). -/
def attachTargets (p : DbgPort) (l : Fin 5) : List (Fin 18 × Dom) :=
  (match p with | .h => [(0 : Fin 18)] | .f => [0, 12]).map (fun d => (d, Dom.on)) ++ (affected p l).map (fun d => (d, Dom.on))

/-- DBG_SEL (Table 15-5). -/
def dbgSel (p : DbgPort) (l : Fin 5) (s : State) : State :=
  if l = 0 then s
  else if !mayAttach l s || !clockOn s then countIgnored s
  else
    let ds := affected p l
    if ds.any fun d => s.pwr.dom[d] = .off then countIgnored s
    else if ds.all (domOn s) then attach p l s
    else if bit (reg s 0x090004) 0 then ownTxn { by' := .attach p l, targets := attachTargets p l } s
    else countIgnored s

def execDbgSel (port : DbgPort) (level : Fin 5) (s : State) : Out := .next (dbgSel port level s)

/-- An attach of a port at level l or above is in force. -/
def attached (p : DbgPort) (l : Nat) (s : State) : Bool := s.sec.attach.any fun a => a.1 = p && decide (l ≤ a.2.val)

/-- FCORE_HALT: cause 0 at the next frame boundary (R398, R397, Table 08-7). -/
def haltF (s : State) : State :=
  if attached .f 2 s && domOn s 13 then enterClay 0 (toFieldFrame { s with sec := { s.sec with fHalt := true } }) else s

def execFcoreHalt (s : State) : Out := .next (haltF s)
def execFcoreResume (s : State) : Out := .next (resumeF s)

/-- HCORE_HALT (R399, R397). -/
def execHcoreHalt (s : State) : Out :=
  .next (if attached .h 3 s && domOn s 1 && clockOn s then { s with sec := { s.sec with hHalt := true } } else s)

/-- EXTEST, CLAMP or HIGHZ: cause 3, H-core halted, the host pins taken (R401, R402). -/
def boundaryScan (i : ScanInstr) (s : State) : State :=
  if s.sec.level < 3 then countIgnored s
  else
    let s := hostClay 3 s
    { s with
      sec := { s.sec with scan := some i, hHalt := true }
      chain := { s.chain with upLine := none, dnLine := none }
      canA := { s.canA with attempt := none }, canB := { s.canB with attempt := none } }

def execTapBoundaryScan (instr : ScanInstr) (s : State) : Out := .next (boundaryScan instr s)

/-- TAP_RESET ends a boundary scan, and the node acts as RESET (R402). -/
def execTapReset (s : State) : Out :=
  .next (if s.sec.scan.isSome then resetNow { s with sec := { s.sec with scan := none } } else s)

/-! ## Debug cells (R390) -/

/-- What the field side does for a debug request and what it answers. -/
def debugAct (r : DbgReq) (s : State) : State × List Byte :=
  match r with
  | .halt => (haltF s, [])
  | .resume => (if attached .f 2 s then resumeF s else s, [])
  | .singleStep => (s, [])
  | .readReg a =>
    if attached .f 1 s && isField a.toNat && (paramCheck false s a.toNat 0 0).isNone && (domainCheck s a.toNat).isNone
    then (fieldReadAct a.toNat s, be 4 (readReg s a.toNat).toNat) else (s, [])
  | .writeReg a v =>
    if attached .f 4 s && isField a.toNat then
      let w := fieldWrite a.toNat v 0xFFFFFFFF s
      (w.1, [w.2.status])
    else (s, [])
  | .readSram a => (s, if attached .f 2 s && s.pwr.dom[(12 : Fin 18)] = .on then [look sramByte s.fw.fsram a.toNat] else [])
  | .writeSram a b =>
    if attached .f 2 s && s.pwr.dom[(12 : Fin 18)] = .on then
      ({ s with fw := { s.fw with fsram := store sramByte s.fw.fsram a.toNat b } }, [])
    else (s, [])
  | .traceOn o => (if attached .f 1 s then { s with barr := { s.barr with traceOn := o } } else s, [])

/-- An accepted DBG_REQ: the field side serves it and answers with DBG_DATA. -/
def debugTaken (r : DbgReq) (s : State) : State :=
  let a := debugAct r s
  upCell (.dbgData a.2) a.1

/-- The cell of this debug request waits at the host. -/
def debugSent (r : DbgReq) (s : State) : Bool :=
  s.barr.rg6.any (fun q => q.cell == .dbgReq r) || s.barr.rg6Held.contains (.dbgReq r)

/-- DBG_REQ: the debug module's cell for an attached F-port enters RG6 unless it waits there already, and at the front
of it it arrives at the field side (R390). -/
def dbgReq (r : DbgReq) (s : State) : State :=
  onDown (.dbgReq r) (debugTaken r)
    (if linkUp s && attached .f 1 s && !debugSent r s then sendCell (.dbgReq r) s else s)

def execDbgReq (r : DbgReq) (s : State) : Out := .next (dbgReq r s)

/-- The debug module takes the bytes of an accepted DBG_DATA. -/
def debugBytes (bytes : List Byte) (s : State) : State := { s with barr := { s.barr with dbgBytes := bytes } }

/-- DBG_DATA reaches the debug module. -/
def execDbgData (bytes : List Byte) (s : State) : Out := .next (onUp (.dbgData bytes) (debugBytes bytes) s)

end Sys2Proof.Machine
end

