-- ==== Sys2Proof/Machine/Can.lean ====
section
/-! DEFINITION. The CAN ports (12): reception, intake rings and message objects (R320 to R328), transmit
order and cancellation (R329 to R333), error confinement (R334 to R336), modes and rate detection (R314 to
R318, R322), the ISO 11783 address claim (R337 to R339) and the CAN opcodes of Table 06-12. -/

namespace Sys2Proof.Machine

def canDom (p : CanPort) : Fin 18 := match p with | .a => 8 | .b => 9

def onCan (p : CanPort) (f : Can → Can) (s : State) : State := setCan p (f (can p s)) s

/-- CANx_CFG.PROFILE: 0 ISO11783, 1 CLASSIC, 2 FD. -/
def profile (p : CanPort) (s : State) : Nat := field (canReg p s 0) 1 0

/-- The port is powered and its pins are not taken by a boundary scan (R402). -/
def portLive (p : CanPort) (s : State) : Bool := domOn s (canDom p) && s.sec.scan.isNone

/-- A CAN event of region 0x04 or 0x05 (Table 17-3). -/
def canCode (p : CanPort) (n : Nat) : BitVec 16 := BitVec.ofNat 16 ((match p with | .a => 0x0400 | .b => 0x0500) + n)

/-! ## Rate detection (R317, R318) -/

/-- CANx_NBT of a Table 12-2 entry. -/
def rateTiming (r : Fin 7) : Word :=
  let brp := match r.val with | 0 => 400 | 1 => 200 | 2 => 80 | 3 => 32 | 4 => 16 | 5 => 8 | _ => 4
  pack [(brp - 1, 0), (14, 9), (3, 17), (2, 24)]

/-- A measurement of the receive line: which entries its shortest interval fits is a free value. The first
candidate's timing is loaded. -/
def measure (p : CanPort) (removed : List (Fin 7)) (s : State) : State :=
  let m := Config.freeReading s.free
  let cs := (List.finRange 7).filter fun r => bit m r.val && !removed.contains r
  let s := onCan p (fun c => { c with abr := some { candidates := cs, confirms := 0, removed := removed } }) (draw s)
  match cs with
  | r :: _ => setReg (canBase p + 4) (rateTiming r) s
  | [] => s

/-- Entry to LISTEN with ABR = 1 starts rate detection. -/
def startAbr (p : CanPort) (s : State) : State :=
  if bit (canReg p s 0) 3 then measure p [] (onCan p (fun c => { c with abrDone := false }) s) else s

/-- The second frame in a row without error confirms the first candidate. -/
def confirm (c : Can) : Can :=
  match c.abr with
  | none => c
  | some a =>
    match a.candidates with
    | [] => c
    | r :: _ =>
      if 1 ≤ a.confirms then { c with abr := none, abrDone := true, abrRate := BitVec.ofNat 3 r.val }
      else { c with abr := some { a with confirms := a.confirms + 1 } }

/-- ABR_TIMEOUT: one WARN, and detection starts again with no candidate removed (R318). -/
def abrTimeout (p : CanPort) (s : State) : State :=
  if domOn s (canDom p) && (can p s).abr.isSome then
    measure p [] (note .host (canCode p 1) 1 0xFF [] s) else s

def execAbrTimeout (port : CanPort) (s : State) : Out := .next (abrTimeout port s)

/-! ## Error confinement (R334 to R336) -/

/-- The events of a change of the counters from those of `old` (R335). -/
def errorEvents (p : CanPort) (old : Can) (s : State) : State :=
  let c := can p s
  let ewl := field (canReg p s 0) 23 16
  let rose (a b : Nat) : Bool := decide (a < ewl) && decide (ewl ≤ b)
  let s := if rose old.tecCnt c.tecCnt || rose old.recCnt c.recCnt then note .host (canCode p 3) 1 0xFF [] s else s
  let now' := decide (128 ≤ c.tecCnt) || decide (128 ≤ c.recCnt)
  let s := onCan p (fun c => { c with passive := now' }) s
  let s := if now' && !old.passive then note .host (canCode p 4) 1 0xFF [] s else s
  if 255 < c.tecCnt && !old.busOff then
    note .host (canCode p 5) 2 0xFF [] (onCan p (fun c => { c with
      busOff := true, attempt := none, retry := none, recovering := !bit (canReg p s 0) 2 }) s)
  else if old.passive && !now' then note .host (canCode p 6) 0 0xFF [] s
  else s

/-- REC after a frame received without error, as ISO 11898-1 lays down: from 128 on to a value from 119 to
127 that it leaves open. -/
def recAfter (s : State) (r : Nat) : Nat :=
  if r ≤ 127 then r - 1 else 119 + (Config.freeReading s.free).toNat % 9

def countError (k : CanErrKind) (c : Can) : Can :=
  match k with
  | .bit => { c with eBit := satInc c.eBit }
  | .stuff => { c with eStuff := satInc c.eStuff }
  | .crc => { c with eCrc := satInc c.eCrc }
  | .formAck => { c with eForm := satInc c.eForm }

/-- CAN_BUS_ERROR: TEC and REC as ISO 11898-1 leaves them, counted in NORMAL only; the frame being sent is
retried (R331); an error at a candidate rate removes it (R317). -/
def canBusError (p : CanPort) (k : CanErrKind) (tx : Bool) (tec rec' : Nat) (s : State) : State :=
  let old := can p s
  if !portLive p s || old.mode = .sleep || old.busOff then s
  else
    let s := onCan p (countError k) s
    let s := if tx then onCan p (fun c => { c with retry := c.attempt, attempt := none }) s else s
    let s := match old.abr with
      | some a => measure p (a.removed ++ a.candidates.take 1) s
      | none => s
    if old.mode = .normal then errorEvents p old (onCan p (fun c => { c with tecCnt := tec, recCnt := rec' }) s) else s

def execCanBusError (port : CanPort) (kind : CanErrKind) (tx : Bool) (tec rec' : Nat) (s : State) : Out :=
  .next (canBusError port kind tx tec rec' s)

/-! ## Reception (R320, R323 to R327) -/

/-- The wake registers, which act from the next entry to SLEEP (Table 12-6). -/
def wakeNow (p : CanPort) (s : State) : Word × Word × Word × Word :=
  (canReg p s 0x20, canReg p s 0x24, canReg p s 0x28, canReg p s 0x2C)

/-- The frame matches the wake registers as they stood at the entry to SLEEP (R320, Table 12-6). -/
def wakeMatch (f : CanFrame) (c : Can) : Bool :=
  let (id, mask, dat, dm) := c.wakeRegs
  let m := mask.setWidth 29
  f.ide == bit id 29 && (f.id &&& m) == (id.setWidth 29 &&& m) &&
  (dm == 0 || (decide (4 ≤ f.data.length) && (wordAt f.data 0 &&& dm) == (dat &&& dm)))

/-- An RX object matches a data frame (R327). -/
def objMatch (f : CanFrame) (o : MsgObj) : Bool :=
  o.kind = .rx && !f.rtr && o.ide == f.ide && (o.id &&& o.mask) == (f.id &&& o.mask)

def objTake (tb : BitVec 64) (f : CanFrame) (o : MsgObj) : MsgObj :=
  if objMatch f o then
    { o with lost := o.lost || o.isNew, isNew := true, tb := tb, len := BitVec.ofNat 7 f.data.length, data := f.data }
  else o

/-- TB of the start-of-frame, to 10 ticks (Table 12-4). -/
def stamp10 (s : State) : BitVec 64 := BitVec.ofNat 64 (s.clk.tb.toNat / 10 * 10)

/-- An entry for the ring takes the next sequence number; it is stored while PD_HCORE is ON and the ring has
room, else its loss is counted, with one WARN an epoch (R320, R324). -/
def ringStore (p : CanPort) (tb : BitVec 64) (f : CanFrame) (matched : Bool) (s : State) : State :=
  let c := can p s
  let n := c.seq + 1
  let s := onCan p (fun c => { c with seq := n }) s
  if domOn s 1 && decide (c.ring.length < 1024) then
    onCan p (fun c => { c with ring := c.ring ++ [{ tb := tb, frame := f, matched := matched, seq := c.seq }] }) s
  else
    let s := onCan p (fun c => { c with ovf := satInc c.ovf }) s
    if domOn s 1 then noteEpoch .host (canCode p 2) 1 0xFF [] s else s

/-- H-core firmware, while it runs, acknowledges what the ring holds (R324, R325; log entry 30). -/
def drainRing (p : CanPort) (s : State) : State := if hcoreRuns s then onCan p (fun c => { c with ring := [] }) s else s

/-- A single-frame PGN 61184 message at the node's own address, a classical frame of EDP and DP 0, is discarded and
counted (R133, R309). -/
def singleFrameDrop (p : CanPort) (f : CanFrame) (s : State) : State :=
  if p = .a && profile .a s = 0 && hcoreRuns s && s.canA.claim = .claimed && f.ide && !f.rtr && !f.fdf &&
      (f.id.extractLsb' 24 2).toNat = 0 && (f.id.extractLsb' 16 8).toNat = 0xEF && (f.id.extractLsb' 8 8) == s.canA.addr then
    { s with pkt := { s.pkt with canA := { s.pkt.canA with drop := satInc s.pkt.canA.drop } } }
  else s

/-- A frame received without error in a mode other than SLEEP. -/
def receive (p : CanPort) (f : CanFrame) (s : State) : State :=
  let old := can p s
  let tb := stamp10 s
  let hit := old.obj.toList.any (objMatch f)
  let s := onCan p (fun c => { confirm c with rxCnt := c.rxCnt + 1, obj := vmap (objTake tb f) c.obj }) s
  let s := singleFrameDrop p f (drainRing p (ringStore p tb f hit s))
  if old.mode = .normal then
    draw (errorEvents p old (onCan p (fun c => { c with recCnt := recAfter s c.recCnt }) s)) else s

/-- A frame in SLEEP with the wake-frame option: a match wakes the node and is kept; frames after it are discarded and
leave a gap in the sequence numbers (R320, R322). -/
def sleepReceive (p : CanPort) (f : CanFrame) (s : State) : State :=
  if (can p s).waking then onCan p (fun c => { c with wakeGap := c.wakeGap + 1 }) s
  else if !wakeMatch f (can p s) then s
  else
    let src : WakeSrc := match p with | .a => .canAFrame | .b => .canBFrame
    let s' := wake src 0 s
    let s' := if domOn s 1 then drainRing p (ringStore p (stamp10 s) f ((can p s).obj.toList.any (objMatch f)) s')
      else onCan p (fun c => { c with wakeBuf := some { tb := stamp10 s, frame := f, matched := false, seq := 0 } }) s'
    onCan p (fun c => { c with waking := true }) s'

/-- CAN_FRAME_RECEIVE. While a candidate is being measured no frame is received without error. -/
def canFrameReceive (p : CanPort) (f : CanFrame) (s : State) : State :=
  let c := can p s
  if !portLive p s || c.busOff then s
  else if c.mode = .sleep then (if c.wakeOpt then sleepReceive p f s else s)
  else if c.abr.any (fun a => a.candidates.isEmpty) then s
  else receive p f s

def execCanFrameReceive (port : CanPort) (frame : CanFrame) (s : State) : Out := .next (canFrameReceive port frame s)

/-! ## The node's own traffic, in objects 0 to 15 (R133, R134) -/

/-- A CAN FD length that holds n bytes. -/
def fdLength (n : Nat) : Nat :=
  ([0, 1, 2, 3, 4, 5, 6, 7, 8, 12, 16, 20, 24, 32, 48, 64].find? fun l => n ≤ l).getD 64

/-- The native CAN FD frames of a reply (R134, Table 05-2); what pads the last is a free value. -/
def fdFrames (p : CanPort) (dest : Byte) (pk : Packet) (s : State) : List CanFrame :=
  let cs := chunks 63 4 (packetBytes pk)
  let id : BitVec 29 := pk.cls ++ (0xB5#8) ++ (1#1) ++ (0#2) ++ dest ++ BitVec.ofNat 8 (field (canReg p s 0) 15 8)
  let pad := List.replicate 64 ((Config.freeWord s.free).setWidth 8)
  cs.zipIdx.map fun x =>
    let head := BitVec.ofNat 8 (128 * b2n (x.2 = 0) + 64 * b2n (x.2 + 1 = cs.length) + x.2)
    let l := fdLength (x.1.length + 1)
    { ide := true, id := id, fdf := true, brs := true, data := (head :: x.1 ++ pad).take l }

/-- The frames that carry a reply to a CAN requester. -/
def replyFrames (p : CanPort) (dest : Byte) (pk : Packet) (s : State) : List CanFrame :=
  match profile p s with
  | 0 => Config.tpFrames s.canA.addr dest (packetBytes pk)
  | 2 => fdFrames p dest pk s
  | _ => []

def frameObj (f : CanFrame) (o : MsgObj) : MsgObj :=
  { o with kind := .tx, ide := f.ide, fdf := f.fdf, brs := f.brs, id := f.id, len := BitVec.ofNat 7 f.data.length
           data := f.data, pend := true, sent := false }

/-- The next message of the port's own traffic is laid out in frames: claims first, then replies. -/
def nextOwn (p : CanPort) (s : State) : State :=
  let c := can p s
  if !c.segs.isEmpty then s
  else match c.own with
    | m :: ms => onCan p (fun c => { c with segs := Config.isoFrames m, own := ms, peer := none, sending := none }) s
    | [] =>
      match s.pkt.canReplies.find? (fun r => r.1 = p) with
      | some r =>
        let fs := replyFrames p r.2.1 r.2.2 s
        onCan p (fun c => { c with segs := fs, peer := some r.2.1, sending := some r.2.2 })
          { s with pkt := { s.pkt with canReplies := s.pkt.canReplies.erase r } }
      | none => s

/-- Object 0 takes the next frame of the own traffic when it is free. -/
def loadOwn (p : CanPort) (s : State) : State :=
  if (can p s).obj[(0 : Fin 128)].kind = .tx then s
  else
    let s := nextOwn p s
    onCan p (fun c => match c.segs with
      | f :: fs => { c with segs := fs, obj := upd c.obj 0 (frameObj f) }
      | [] => { c with peer := none, sending := none }) s

/-- A mode change requested over the port being changed still waits for the last frame of its reply (R168). -/
def awaitsReply (p : CanPort) (s : State) : Bool := (can p s).afterReply.any fun q => !replyLeft q s

/-! ## Transmission (R329 to R333) -/

/-- Arbitration order of the bits as sent: base identifier, RTR or SRR, IDE, extended identifier (R330). -/
def arbKey (ide : Bool) (id : BitVec 29) : Nat :=
  if ide then (id.toNat / 2 ^ 18 * 4 + 3) * 2 ^ 18 + id.toNat % 2 ^ 18 else id.toNat % 2 ^ 11 * 4 * 2 ^ 18

/-- The pending TX object that wins arbitration, the lowest-numbered of equals. -/
def bestObj (c : Can) : Option (Fin 128) :=
  (List.finRange 128).foldl (fun (b : Option (Fin 128)) i =>
    let o := c.obj[i]
    if o.kind = .tx && o.pend then
      match b with
      | some j => if arbKey o.ide o.id < arbKey c.obj[j].ide c.obj[j].id then some i else b
      | none => some i
    else b) none

/-- The candidate the port offers (R330). -/
def candidate (c : Can) : Option TxCand :=
  match c.fifo, bestObj c with
  | [], none => none
  | e :: _, none => some (.fifo e.handle)
  | [], some i => some (.obj i)
  | e :: _, some i =>
    if arbKey e.frame.ide e.frame.id < arbKey c.obj[i].ide c.obj[i].id then some (.fifo e.handle) else some (.obj i)

/-- The candidate is still to be sent. -/
def stillPending (c : Can) (t : TxCand) : Bool :=
  match t with
  | .fifo h => c.fifo.any (fun e => e.handle == h)
  | .obj i => c.obj[i].kind = .tx && c.obj[i].pend

/-- What the port offers: a node without a right to CAN-A sends its claim answers only (R338, R339). -/
def offered (p : CanPort) (c : Can) : Option TxCand :=
  if p = .a && c.silent then (if stillPending c (.obj 0) then some (.obj 0) else none) else candidate c

/-- A requested mode change waits for its reply only (R168); else no new frame starts before it (R315). -/
def holdsForMode (p : CanPort) (s : State) : Bool := (can p s).reqMode.isSome && !awaitsReply p s

/-- CAN_TX_START (R330, R315). -/
def canTxStart (p : CanPort) (s : State) : State :=
  let c := can p s
  if !portLive p s || c.mode != .normal || c.busOff || c.attempt.isSome then s
  else
    let again := c.retry.filter (stillPending c)
    if holdsForMode p s then onCan p (fun c => { c with attempt := again, retry := none, sof := s.clk.tb }) s
    else
      let s := loadOwn p s
      onCan p (fun c => { c with attempt := offered p c, retry := none, sof := s.clk.tb }) s

def execCanTxStart (port : CanPort) (s : State) : Out := .next (canTxStart port s)

/-- CAN_ARB_LOST (R331). -/
def execCanArbLost (port : CanPort) (s : State) : Out :=
  .next (onCan port (fun c => { c with attempt := none, retry := none }) s)

/-- A TX object that was sent (R332). -/
def objSent (tb : BitVec 64) (o : MsgObj) : MsgObj := { o with kind := .off, pend := false, sent := true, tb := tb }

/-- The frame of an attempt is complete. -/
def sentCand (t : TxCand) (c : Can) : Can :=
  match t with
  | .fifo h => { c with fifo := c.fifo.filter (fun e => e.handle != h) }
  | .obj i => { c with obj := upd c.obj i (objSent c.sof) }

/-- CAN_FRAME_SENT (R332, R334). -/
def canFrameSent (p : CanPort) (s : State) : State :=
  let old := can p s
  match old.attempt with
  | none => s
  | some t => errorEvents p old (onCan p (fun c =>
      { sentCand t c with attempt := none, retry := none, txCnt := c.txCnt + 1, tecCnt := c.tecCnt - 1 }) s)

def execCanFrameSent (port : CanPort) (s : State) : Out := .next (if portLive port s then canFrameSent port s else s)

/-! ## Modes (R314 to R316, R168, R322) -/

/-- The port enters a mode: detection ends, and starts again at LISTEN (R317, R318); a port that leaves
NORMAL gives up its address (R337, R339). -/
def enterMode (p : CanPort) (m : CanMode) (opt : Bool) (s : State) : State :=
  let s := onCan p (fun c => { c with
    mode := m, wakeOpt := m = .sleep && opt, reqMode := none, afterReply := none, abr := none, waking := false
    wakeBuf := none, wakeGap := 0, wakeRegs := if m = .sleep then wakeNow p s else c.wakeRegs }) s
  let s := if m = .listen then startAbr p s else s
  dropClaim s

/-- CAN_MODE_APPLY at the first bus idle (R315); the change waits for the reply that goes out on the port
(R168) and for the end of bus-off (R336). -/
def canModeApply (p : CanPort) (s : State) : State :=
  let c := can p s
  match c.reqMode with
  | none => s
  | some (m, opt) =>
    if !domOn s (canDom p) || c.attempt.isSome || c.busOff || (c.retry.filter (stillPending c)).isSome ||
        awaitsReply p s then s
    else enterMode p m opt s

def execCanModeApply (port : CanPort) (s : State) : Out := .next (canModeApply port s)

/-- CAN_RECOVERY_DONE (R336, R335); a mode change that waited takes effect. -/
def canRecoveryDone (p : CanPort) (s : State) : State :=
  let c := can p s
  if !(domOn s (canDom p) && c.busOff && c.recovering) then s
  else
    let s := onCan p (fun c => { c with
      busOff := false, recovering := false, tecCnt := 0, recCnt := 0, passive := false, busoffs := satInc c.busoffs }) s
    canModeApply p (note .host (canCode p 6) 0 0xFF [] s)

def execCanRecoveryDone (port : CanPort) (s : State) : Out := .next (canRecoveryDone port s)

/-- CAN_LEAVE_SLEEP: the mode in WAKEMODE, and the held wake frame as the next ring entry (R322). -/
def canLeaveSleep (p : CanPort) (s : State) : State :=
  let c := can p s
  if !(c.waking && c.mode = .sleep && domOn s (canDom p) && domOn s 1) then s
  else
    let m : CanMode := if bit (canReg p s 0) 4 then .listen else .normal
    let s := enterMode p m false s
    let s := match c.wakeBuf with
      | some e => drainRing p (ringStore p e.tb e.frame (c.obj.toList.any (objMatch e.frame)) s)
      | none => s
    onCan p (fun d => { d with seq := d.seq + c.wakeGap }) s

def execCanLeaveSleep (port : CanPort) (s : State) : Out := .next (canLeaveSleep port s)

/-! ## Address claim (R337 to R339) -/

/-- ISO 11783 messages are answered by H-core on an ISO11783 port (R399). -/
def isoRuns (s : State) : Bool :=
  hcoreRuns s && portLive .a s && profile .a s = 0 && s.canA.mode = .normal

def sendIso (m : IsoMsg) (s : State) : State := { s with canA := { s.canA with own := s.canA.own ++ [m] } }

/-- The node claims address a. -/
def claimAddr (a : Byte) (s : State) : State :=
  sendIso (.addressClaimed s.id.isoName a) { s with canA := { s.canA with
    addr := a, claim := .claiming, silent := false } }

/-- ADDRESS_CLAIM_START (R337). -/
def execAddressClaimStart (s : State) : Out :=
  .next (if isoRuns s && qualifies s && s.canA.claim = .none
    then claimAddr ((reg s 0x040040).setWidth 8) s else s)

def execAddrClaimComplete (s : State) : Out :=
  .next (if s.canA.claim = .claiming then { s with canA := { s.canA with claim := .claimed } } else s)

/-- The next address in 128 to 247 after a lost one that the node has not seen claimed (R338). -/
def nextAddr (lost : Byte) (seen : List Byte) : Option Byte :=
  let start := if inRange 128 247 lost.toNat then lost.toNat - 128 + 1 else 0
  ((List.range 120).map fun i => BitVec.ofNat 8 (128 + (start + i) % 120)).find? fun a => !seen.contains a && a != lost

/-- No address is left: Cannot Claim from 254 and a WARN (R338). -/
def cannotClaim (s : State) : State :=
  note .host 0x0407 1 0xFF [] (sendIso (.cannotClaim s.id.isoName) { s with canA := { s.canA with
    addr := 254, claim := .cannotClaim, silent := true } })

/-- NAME bit 63, arbitrary address capable (ISO 11783-5; log entry 31). -/
def selfConfigurable (s : State) : Bool := s.id.isoName.getLsbD 63

/-- ADDRESS_CLAIMED: the lower NAME keeps the address (R338). -/
def addressClaimed (name : BitVec 64) (sa : Byte) (s : State) : State :=
  if !isoRuns s then s
  else
    let seen := if s.canA.seen.contains sa then s.canA.seen else s.canA.seen ++ [sa]
    let s := { s with canA := { s.canA with seen := seen } }
    if !((s.canA.claim = .claiming || s.canA.claim = .claimed) && sa == s.canA.addr) || name == s.id.isoName then s
    else if s.id.isoName.toNat < name.toNat then sendIso (.addressClaimed s.id.isoName s.canA.addr) s
    else match (nextAddr sa seen).filter (fun _ => selfConfigurable s) with
      | some a => claimAddr a s
      | none => cannotClaim s

def execAddressClaimed (name : BitVec 64) (sa : Byte) (s : State) : Out := .next (addressClaimed name sa s)

/-- REQUEST_ADDRESS_CLAIMED: the claim, or Cannot Claim without an address (R337 to R339). -/
def execRequestAddressClaimed (s : State) : Out :=
  .next (if !isoRuns s then s
    else if s.canA.claim = .claiming || s.canA.claim = .claimed then
      sendIso (.addressClaimed s.id.isoName s.canA.addr) s
    else if s.canA.silent then sendIso (.cannotClaim s.id.isoName) s
    else s)

/-- COMMANDED_ADDRESS for the node's NAME (R337). -/
def execCommandedAddress (name : BitVec 64) (addr : Byte) (s : State) : Out :=
  .next (if isoRuns s && qualifies s && name == s.id.isoName && decide (addr.toNat ≤ 253) then claimAddr addr s else s)

/-! ## Registers and counters (R328, Table 12-6) -/

/-- The read of MO_STAT clears NEW and LOST (R328). -/
def moRead (p : CanPort) (n : Fin 128) (s : State) : State :=
  onCan p (fun c => { c with obj := upd c.obj n fun o => { o with isNew := false, lost := false } }) s

def execMoStatRead (port : CanPort) (n : Fin 128) (s : State) : Out :=
  .next (if domOn s (canDom port) then moRead port n s else s)

def clearCan (p : CanPort) (v : Word) (s : State) : State :=
  onCan p (fun c =>
    let c := if bit v 0 then { c with ovf := 0 } else c
    let c := if bit v 1 then { c with rxCnt := 0, txCnt := 0 } else c
    let c := if bit v 2 then { c with eBit := 0, eStuff := 0, eCrc := 0, eForm := 0 } else c
    if bit v 3 then { c with busoffs := 0 } else c) s

def execCanCntclr (port : CanPort) (value : Word) (s : State) : Out :=
  .next (if domOn s (canDom port) then clearCan port value s else s)

/-! ## Opcodes (Table 06-12) -/

def portOf (q : Request) : CanPort := if byteAt (reqBody q) 0 == 0 then .a else .b

def portOk (q : Request) : Bool := decide ((byteAt (reqBody q) 0).toNat ≤ 1)

/-- The port's domain is ON. -/
def needPort (q : Request) (s : State) : Option Ans := if domOn s (canDom (portOf q)) then none else refuse 0x13 0

def opCanGet : Op :=
  { code := 0x50, check := fun q _ => lenIs 1 q <|> param (portOk q)
    act := fun q s => guarded (needPort q s) s fun s =>
      let p := portOf q
      let c := can p s
      (s, done ([BitVec.ofNat 8 (canModeCode c.mode), BitVec.ofNat 8 (canEstate p s), BitVec.ofNat 8 (canTec c),
        BitVec.ofNat 8 (min c.recCnt 255)] ++ be 2 c.ring.length)) }

def execCanGet (q : Request) (s : State) : Out := .next (serve opCanGet q s)

def modeOf (b : Byte) : CanMode := match b.toNat with | 0 => .normal | 1 => .listen | 2 => .restricted | _ => .sleep

/-- CAN_MODE: the change is requested, after the reply where that leaves by the same port (R168, R315). -/
def opCanMode : Op :=
  { code := 0x51
    check := fun q _ =>
      let b := reqBody q
      lenIs 3 q <|> param (portOk q && decide ((byteAt b 1).toNat ≤ 3) && decide ((byteAt b 2).toNat ≤ 1) &&
        (byteAt b 2 == 0 || byteAt b 1 == 3))
    act := fun q s => guarded (needPort q s) s fun s =>
      let p := portOf q
      let own := match q.via with | .can x _ => if x = p then some q else none | _ => none
      (onCan p (fun c => { c with
        reqMode := some (modeOf (byteAt (reqBody q) 1), byteAt (reqBody q) 2 == 1), afterReply := own }) s, done []) }

def execCanMode (q : Request) (s : State) : Out := .next (serve opCanMode q s)

def opCanRecover : Op :=
  { code := 0x52, check := fun q _ => lenIs 1 q <|> param (portOk q)
    act := fun q s => guarded (needPort q s) s fun s =>
      if (can (portOf q) s).busOff then (onCan (portOf q) (fun c => { c with recovering := true }) s, done [])
      else (s, refuse 0x11 0x35) }

def execCanRecover (q : Request) (s : State) : Out := .next (serve opCanRecover q s)

/-- The frame of a CAN_SEND (Table 06-12). -/
def sendFrame (b : List Byte) : CanFrame :=
  let f := byteAt b 1
  { ide := f.getLsbD 0, id := (wordAt b 2).setWidth 29, fdf := f.getLsbD 1, brs := f.getLsbD 2, data := b.drop 7 }

/-- R153, R309 and R329 in the order of the payload. -/
def canSendCheck (q : Request) (s : State) : Option Ans :=
  let b := reqBody q
  let f := byteAt b 1
  let n := (byteAt b 6).toNat
  let fd := f.getLsbD 1
  (if b.length = 7 + n then none else refuse 0x22 0) <|>
  param (portOk q && decide (f.toNat < 16) && decide (beAt b 2 4 ≤ (if f.getLsbD 0 then 0x1FFFFFFF else 0x7FF)) &&
    fdLength n = n && (fd || decide (n ≤ 8)) && (fd || !f.getLsbD 2) && (!fd || profile (portOf q) s = 2))

/-- The lowest-numbered free host object. -/
def freeObj (c : Can) : Option (Fin 128) :=
  (List.finRange 128).find? fun i => decide (16 ≤ i.val) && c.obj[i].kind = .off

/-- CAN_SEND into the FIFO ring or a free host object (R329). -/
def canSendAct (q : Request) (s : State) : State × Option Ans :=
  guarded (needPort q s) s fun s =>
    let b := reqBody q
    let p := portOf q
    let c := can p s
    if c.mode = .sleep then (s, refuse 0x11 0)
    else if (byteAt b 1).getLsbD 3 then
      match freeObj c with
      | some i => (onCan p (fun c => { c with obj := upd c.obj i (frameObj (sendFrame b)) }) s, done (be 2 i.val))
      | none => (s, refuse 0x40 0x26)
    else if 64 ≤ c.fifo.length then (s, refuse 0x40 0x26)
    else
      let n := c.handle + 1
      let h : BitVec 16 := 1#1 ++ n
      (onCan p (fun c => { c with handle := n, fifo := c.fifo ++ [{ handle := h, frame := sendFrame b }] }) s,
        done (be 2 h.toNat))

def opCanSend : Op := { code := 0x53, check := canSendCheck, act := canSendAct }

def execCanSend (q : Request) (s : State) : Out := .next (serve opCanSend q s)

/-- The pending frame a handle names. -/
def handleCand (c : Can) (h : BitVec 16) : Option TxCand :=
  let t : TxCand := if 0x8000 ≤ h.toNat then .fifo h else .obj (Fin.ofNat 128 h.toNat)
  if stillPending c t && (decide (0x8000 ≤ h.toNat) || inRange 16 127 h.toNat) then some t else none

/-- CAN_CANCEL removes a pending frame unless its attempt is in progress (R333, R168). -/
def canCancelAct (q : Request) (s : State) : State × Option Ans :=
  guarded (needPort q s) s fun s =>
    let p := portOf q
    let c := can p s
    match handleCand c (BitVec.ofNat 16 (beAt (reqBody q) 1 2)) with
    | none => (s, refuse 0x21 0x0B)
    | some t =>
      if c.attempt = some t then (s, refuse 0x31 0)
      else (onCan p (fun c => match t with
        | .fifo h => { c with fifo := c.fifo.filter (fun e => e.handle != h) }
        | .obj i => { c with obj := upd c.obj i fun o => { o with kind := .off, pend := false } }) s, done [])

def opCanCancel : Op :=
  { code := 0x54, check := fun q _ => lenIs 3 q <|> param (portOk q), act := canCancelAct }

def execCanCancel (q : Request) (s : State) : Out := .next (serve opCanCancel q s)

/-- TP_SESSION_TIMEOUT: the session with a peer ends, and what it carried is not sent (R133). -/
def tpTimeout (p : CanPort) (peer : Byte) (s : State) : State :=
  if p = .a && s.canA.peer = some peer && s.canA.attempt != some (.obj 0) then
    { s with canA := { s.canA with
        segs := [], peer := none, sending := none, obj := upd s.canA.obj 0 fun o => if o.kind = .tx then { o with kind := .off, pend := false } else o } }
  else s

def execTpSessionTimeout (port : CanPort) (peer : Byte) (s : State) : Out := .next (tpTimeout port peer s)

end Sys2Proof.Machine
end

