-- ==== Sys2Proof/Machine/Gnss.lean ====
section
/-! DEFINITION. Satellite navigation and time (11): the receiver (R280 to R290), snapshots (R291 to R294),
TIME_MARK (R296, R297), corrections (R298, R299), position outputs (R300, R301), baselines (R302 to R306),
antenna supervision (R307), and the opcodes of Table 06-11. -/

namespace Sys2Proof.Machine

/-! ## The receiver -/

/-- A -G2 with MODE not OFF and both receiver domains ON tracks (R280). -/
def tracking (s : State) : Bool := s.id.variant = .g2 && gnssMode s != 0 && domOn s 5 && domOn s 6

/-- The signals that GNSS_CTRL lets the receiver use (Tables 11-1, 11-12). -/
def signalOn (s : State) (sat : Byte) (signal : Fin 4) : Bool :=
  let c := reg s 0x070000
  (if sat.toNat < 64 then bit c 2 else bit c 3) && ((signal.val != 1 && signal.val != 3) || bit c 4)

def onTrack (c : Fin 96) (f : Track → Track) (s : State) : State :=
  { s with gnss := { s.gnss with trk := upd s.gnss.trk c f } }

/-- ACQUISITION_START: a free channel of the signal's band takes a satellite not yet tracked (R281, R284). -/
def acquire (c : Fin 96) (sat : Byte) (signal : Fin 4) (s : State) : State :=
  let l5 := signal.val = 1 || signal.val = 3
  if tracking s && signalOn s sat signal && (decide (48 ≤ c.val) == l5) && !s.gnss.trk[c].used &&
      !(s.gnss.trk.toList.any fun t => t.used && t.sat == sat && t.signal = signal) then
    onTrack c (fun _ => { used := true, sat := sat, signal := signal, loopSet := reg s 0x070008, corrSet := reg s 0x07000C }) s
  else s

def execAcquisitionStart (ch : Fin 96) (sat : Byte) (signal : Fin 4) (s : State) : Out := .next (acquire ch sat signal s)

/-- An integration boundary: the accumulations and latches are dumped; an NCO write made before it acts, one
of the same GCORR cycle waits for the next (R284, R285). -/
def dump (accum : List Int) (codePhase carrPhase : Word) (write : Option (Word × Word)) (same : Bool) (loop corr : Word)
    (t : Track) : Track :=
  let due := if same then t.pendWrite else write <|> t.pendWrite
  { t with
    accum := accum, codePhase := codePhase, carrPhase := carrPhase, dumps := t.dumps + 1
    code := (due.map (·.1)).getD t.code, carr := (due.map (·.2)).getD t.carr
    pendWrite := if same then write else none, loopSet := loop, corrSet := corr }

def execTrackingDump (ch : Fin 96) (accum : List Int) (codePhase carrPhase : Word) (write : Option (Word × Word))
    (sameCycle : Bool) (s : State) : Out :=
  .next (if tracking s && s.gnss.trk[ch].used then
    onTrack ch (dump accum codePhase carrPhase write sameCycle (reg s 0x070008) (reg s 0x07000C)) s else s)

def execCarrierLock (ch : Fin 96) (s : State) : Out :=
  .next (if tracking s && s.gnss.trk[ch].used then onTrack ch (fun t => { t with lock := true, narrowed := false }) s else s)

/-- CARRIER_LOCK_LOSS: SLIP at the next measurement, and a narrowed search (R286). -/
def execCarrierLockLoss (ch : Fin 96) (s : State) : Out :=
  .next (if tracking s && s.gnss.trk[ch].lock then
    onTrack ch (fun t => { t with lock := false, slip := true, narrowed := true }) s else s)

/-- A member locked to its UP word clock, or the head, LOCKED for 1 s (R302). -/
def clkOk (s : State) : Bool :=
  qualOf s = 0 && s.clk.lock && (isHead s || (followsUp s && decide (1 ≤ s.clk.lockSecs)))

/-- The node takes part in baselines (R302). -/
def takesPart (s : State) : Bool :=
  s.id.variant = .g2 && bit (reg s 0x070000) 6 && gnssMode s = 1 && (s.sect.body.any (·.partnerValid)) &&
  s.chain.addrValid && !s.chain.island

/-- The MEAS record of the latched measurements. -/
def ownMeas (s : State) : MeasRec :=
  { src := s.chain.addr, clkOk := clkOk s, partner := (s.sect.body.map (·.partner)).getD 0, frame := s.gnss.measFrame
    sigs := s.gnss.meas }

def holdMeas (r : MeasRec) (l : List MeasRec) : List MeasRec :=
  lastN 64 (l.filter (fun x => !(x.src == r.src && x.frame == r.frame)) ++ [r])

/-- A signal's flags with SLIP where its channel lost lock since the last measurement (R286). -/
def markSlip (s : State) (m : MeasSig) : MeasSig :=
  if s.gnss.trk.toList.any (fun t => t.slip && t.sat == m.sat && t.signal.val = m.flags.toNat % 4) then
    { m with flags := m.flags ||| 4 } else m

/-- GNSS_MEASURE at a frame that is a multiple of 100,000 (R287); a participating head holds its own record
(R303). -/
def gnssMeasure (sigs : List MeasSig) (s : State) : State :=
  if !tracking s || !clockOn s || (gnssMode s = 2 && !s.gnss.burstBias) then s
  else
    let s := toEdge 10 (100000 * ticksPerFrame) s
    let s := { s with gnss := { s.gnss with
      meas := (sigs.take 96).map (markSlip s), measFrame := now s
      trk := vmap (fun t => { t with slip := false }) s.gnss.trk } }
    if takesPart s && isHead s then
      { s with gnss := { s.gnss with measHeld := holdMeas (ownMeas s) s.gnss.measHeld } } else s

def execGnssMeasure (sigs : List MeasSig) (s : State) : Out := .next (gnssMeasure sigs s)

/-! ## Solutions (R287 to R289, R299, R300) -/

/-- The fix without RTK: dual-frequency where an L5 or E5a signal is used, else single (Table 11-4). -/
def sppFix (v : GnssSol) : BitVec 3 := if v.signals.any (fun x => x.2.1 == 1 || x.2.1 == 3) then 2 else 1

/-- Satellites a solution needs: 5 when both systems are used (R287). -/
def satsNeeded (v : GnssSol) : Nat :=
  if v.signals.any (fun x => x.1.toNat < 64) && v.signals.any (fun x => 64 ≤ x.1.toNat) then 5 else 4

/-- The fix a solution may have: NONE with too few satellites, at most SPP in a burst, and RTK only with RTK = 1,
a station position and fresh corrections (R287, R290, R299). -/
def limitFix (s : State) (v : GnssSol) : GnssSol :=
  if v.sats.toNat < satsNeeded v then { v with fix := 0 }
  else if (v.fix == 3 || v.fix == 4) && (gnssMode s = 2 || !bit (reg s 0x070000) 5 || s.gnss.rtcmStale || !s.gnss.msmFresh ||
      s.gnss.station.isNone)
  then { v with fix := sppFix v }
  else v

/-- GPS time of a frame as TB gives it, in 10 ps; with origin FREE the time since its origin (R288). -/
def tbTime (f : Frame48) (s : State) : Int :=
  (if s.clk.originGps then (s.clk.gpsWeek.toNat * 604800 + s.clk.gpsSec.toNat) * 100000000000 else 0) +
  tickAt f 0 s / ticksPerFrame * 100000

/-- The shift of the reported point by GNSS_OFS in the body frame, in mm east and north (R300). -/
def outShift (s : State) : Int × Int :=
  if s.sect.body.isSome && s.sect.motion.valid then
    let o := reg s 0x070028
    let x := ((o.setWidth 16 : BitVec 16)).toInt * 10
    let y := ((o >>> 16).setWidth 16 : BitVec 16).toInt * 10
    let p := s.sect.motion.phase
    ((x * sinP p - y * cosP p) / 2 ^ 64, (x * cosP p + y * sinP p) / 2 ^ 64)
  else (0, 0)

/-- The ISO 11783-7 messages of a solution (R300); a burst produces no velocity (R290), and its one solution of the
second is the one that 129029 reports. -/
def positionOut (v : GnssSol) (s : State) : State :=
  if s.canA.claim != .claimed then s
  else
    let o := reg s 0x070024
    let sh := outShift s
    let s := if bit o 0 && v.fix != 0 then sendIso (.position v.lat v.lon sh.1 sh.2) s else s
    let s := if bit o 1 && v.fix != 0 && gnssMode s != 2 then sendIso (.cogSog v.velE v.velN) s else s
    if bit o 2 && (v.frame.toNat % 1000000 = 0 || gnssMode s = 2) then sendIso (.gnssData v sh.1 sh.2) s else s

/-- A node under TC without a field origin takes its first valid fix (R175). -/
def takeOrigin (v : GnssSol) (s : State) : State :=
  if planner s == 0 && s.sect.origin.isNone && v.fix != 0 then
    { s with sect := { s.sect with origin := some (v.lat, v.lon, v.height) } } else s

/-- A complete solution: fix, TIMEVALID and GNSS_TOFF, then the reference and steering of a head, its step in its
window, and the position messages (R287 to R289, R38, R44, R62). -/
def takeSolution (v0 : GnssSol) (s : State) : State :=
  let v := limitFix s v0
  let s := { s with gnss := { s.gnss with
    sol := some v, solTb := s.clk.tb, timeValid := v.fix != 0 && decide (v.uncertNs ≤ 100)
    toff := satInt 32 ((v.gpsTime : Int) - tbTime v.frame s) } }
  positionOut v (autoStep (steer (chooseRef (takeOrigin v s))))

/-- GNSS_SOLUTION: the solution of the latest measurement frame is complete (R287). -/
def execGnssSolution (sol : GnssSol) (s : State) : Out :=
  .next (if tracking s && gnssMode s = 1 && clockOn s then takeSolution { sol with frame := s.gnss.measFrame } s else s)

/-- BURST_START: the front end is biased 60 ms after the epoch edge (R290). -/
def burstStart (s : State) : State :=
  if !tracking s || gnssMode s != 2 || !clockOn s then s
  else
    let t := s.clk.tb.toNat
    let at' := t / ticksPerEpoch * ticksPerEpoch + 48000000
    let s := advanceTo (if t ≤ at' then at' else at' + ticksPerEpoch) s
    { s with gnss := { s.gnss with burstBias := true } }

def execBurstStart (s : State) : Out := .next (burstStart s)

/-- BURST_END after BURST_LEN: the solution at the burst's last frame that is a multiple of 100,000, and the bias
ends unless a capture extends it (R290, R291). -/
def burstEnd (v : GnssSol) (s : State) : State :=
  if !s.gnss.burstBias || !tracking s || !clockOn s then s
  else
    let start := s.clk.tb.toNat / ticksPerEpoch * ticksPerEpoch + 48000000
    let s := advanceTo (start + field (reg s 0x070000) 12 8 * 8000000) s
    takeSolution { v with frame := BitVec.ofNat 48 ((now s).toNat / 100000 * 100000) } { s with gnss := { s.gnss with burstBias := s.gnss.snapRun.isSome } }

def execBurstEnd (sol : GnssSol) (s : State) : Out := .next (burstEnd sol s)

/-- RTCM_STALE: 10 s without MSM observations; the fix falls to SPP or SPP_SINGLE (R299). -/
def execRtcmStale (s : State) : Out :=
  .next (if !domOn s 5 then s else
    let drop (v : GnssSol) : GnssSol := if v.fix == 3 || v.fix == 4 then { v with fix := sppFix v } else v
    { s with gnss := { s.gnss with rtcmStale := true, msmFresh := false, sol := s.gnss.sol.map drop } })

/-- ANT_SHORT: the bias is removed; with no current, OPEN is set too (R307). -/
def execAntShort (s : State) : Out :=
  .next (if s.id.variant = .g2 && domOn s 5 && s.gnss.antBias then
    note .host 0x0702 1 0xFF [] { s with gnss := { s.gnss with antBias := false, antShort := true, antMa := 0, antOpen := true } }
    else s)

/-- ANT_OPEN: below 3 mA for 1 s; the current itself is a free value (R307). -/
def execAntOpen (s : State) : Out :=
  .next (if s.id.variant = .g2 && domOn s 5 && s.gnss.antBias then
    note .host 0x0703 1 0xFF [] (draw { s with gnss := { s.gnss with
      antOpen := true, antMa := BitVec.ofNat 8 ((Config.freeReading s.free).toNat % 3) } })
    else s)

/-- At each epoch edge a removed bias is retried; the current then measured is a free value below the limit
(R307). -/
def antennaEpoch (s : State) : State :=
  if s.id.variant = .g2 && domOn s 5 then
    let ma := (Config.freeReading s.free).toNat % 70
    draw { s with gnss := { s.gnss with
      antBias := true, antShort := s.gnss.antShort && s.gnss.antBias, antMa := BitVec.ofNat 8 ma, antOpen := ma < 3 } }
  else s

/-- GNSS_CNTCLR (Table 11-12). -/
def clearGnss (v : Word) (s : State) : State :=
  { s with gnss := { s.gnss with
    rtcmAcc := if bit v 0 then 0 else s.gnss.rtcmAcc, rtcmIgn := if bit v 0 then 0 else s.gnss.rtcmIgn
    rtcmBad := if bit v 1 then 0 else s.gnss.rtcmBad } }

def execGnssCntclr (value : Word) (s : State) : Out := .next (if domOn s 5 then clearGnss value s else s)

/-! ## Aiding (R283, R306, Table 11-9) -/

/-- A record of GNSS_AID. -/
inductive AidRec where
  | time (t : AidTime) | pos (p : AidPos) | alm (sys prn : Byte) (words : List Byte) | meas (m : MeasRec) | base (b : BaseRec)
  deriving DecidableEq, Repr

/-- The length of the record at the head of a byte string, 0 for a reserved type. -/
def aidLen (bs : List Byte) : Nat :=
  match (byteAt bs 0).toNat with
  | 1 => 12 | 2 => 16 | 3 => 27 | 5 => 11 + 10 * (byteAt bs 10).toNat | 6 => 28 | _ => 0

def measSig (bs : List Byte) : MeasSig :=
  { sat := byteAt bs 0, flags := byteAt bs 1, cn0 := byteAt bs 2, phase := wordAt bs 3, range := BitVec.ofNat 24 (beAt bs 7 3) }

/-- One record, none for a reserved encoding. -/
def aidRec (src : BitVec 16) (r : List Byte) : Option AidRec :=
  match (byteAt r 0).toNat with
  | 1 =>
    if byteAt r 1 == 0 && decide (beAt r 4 4 < 604800000) && inRange 1 2000000 (beAt r 8 4) then
      some (.time ⟨BitVec.ofNat 16 (beAt r 2 2), wordAt r 4, wordAt r 8⟩) else none
  | 2 =>
    if byteAt r 1 == 0 && inRange 1 65535 (beAt r 14 2) then
      some (.pos ⟨wordAt r 2, wordAt r 6, wordAt r 10, BitVec.ofNat 16 (beAt r 14 2)⟩) else none
  | 3 => if (byteAt r 1).toNat ≤ 1 then some (.alm (byteAt r 1) (byteAt r 2) ((r.drop 3).take 24)) else none
  | 5 =>
    let sigs := (chunks 10 96 (r.drop 11)).map measSig
    if (byteAt r 1).toNat ≤ 1 && inRange 1 96 (byteAt r 10).toNat &&
        sigs.all (fun m => decide (m.sat.toNat < 128) && decide (m.flags.toNat < 8)) then
      some (.meas ⟨src, byteAt r 1 == 1, BitVec.ofNat 16 (beAt r 2 2), BitVec.ofNat 48 (beAt r 4 6), sigs⟩) else none
  | 6 =>
    if (byteAt r 1).toNat ≤ 2 then
      some (.base { status := byteAt r 1, nodeA := BitVec.ofNat 16 (beAt r 2 2), nodeB := BitVec.ofNat 16 (beAt r 4 2)
                    frame := BitVec.ofNat 48 (beAt r 6 6), east := wordAt r 12, north := wordAt r 16, up := wordAt r 20
                    sigmaH := BitVec.ofNat 16 (beAt r 24 2), sigmaV := BitVec.ofNat 16 (beAt r 26 2) })
    else none
  | _ => none

/-- The records of a GNSS_AID payload, or the status it is refused with. -/
def aidRecs (src : BitVec 16) : Nat → List Byte → Except Byte (List AidRec)
  | 0, _ => .ok []
  | _, [] => .ok []
  | f + 1, b :: bs =>
    let r := b :: bs
    let n := aidLen r
    if n = 0 then .error 0x21
    else if r.length < n || (byteAt r 0 == 5 && r.length < 11) then .error 0x22
    else match aidRec src (r.take n), aidRecs src f (r.drop n) with
      | none, _ => .error 0x21
      | _, .error e => .error e
      | some x, .ok xs => .ok (x :: xs)

def aidOf (q : Request) : Except Byte (List AidRec) := aidRecs q.pkt.src 4096 (reqBody q)

/-- BASE records come from the head only (R306). -/
def fromHead (via : Via) : Bool := match via with | .planner => true | .chain h => h == 0 | _ => false

def isBase (r : AidRec) : Bool := match r with | .base _ => true | _ => false
def isMeas (r : AidRec) : Bool := match r with | .meas _ => true | _ => false

def gnssAidCheck (q : Request) (_ : State) : Option Ans :=
  match aidOf q with
  | .error e => refuse e 0
  | .ok rs => if rs.isEmpty then refuse 0x22 0 else param (!rs.any isBase || fromHead q.via)

def aidAct (r : AidRec) (s : State) : State :=
  let g := s.gnss
  match r with
  | .time t => { s with gnss := { g with aidTime := some t, aidAt := s.clk.tb, aidMsg := false } }
  | .pos p => { s with gnss := { g with aidPos := some p } }
  | .alm y n w => { s with gnss := { g with
      almanac := g.almanac.filter (fun x => !(x.1 == y && x.2.1 == n)) ++ [(y, n, w)] } }
  | .meas m => { s with gnss := { g with measHeld := holdMeas m g.measHeld } }
  | .base b => { s with gnss := { g with bases := g.bases ++ [b], baseTb := s.clk.tb } }

/-- GNSS_AID: checked whole, then every record acts; BASE records replace those of the broadcast before
(R306, R304). -/
def gnssAidAct (q : Request) (s : State) : State × Option Ans :=
  match aidOf q with
  | .error e => (s, refuse e 0)
  | .ok rs =>
    if rs.any isMeas && !isHead s then (s, refuse 0x11 0x21)
    else
      let s := if rs.any isBase then { s with gnss := { s.gnss with bases := [] } } else s
      (rs.foldl (fun s r => aidAct r s) s, done [])

def opGnssAid : Op := { code := 0x49, check := gnssAidCheck, act := gnssAidAct }

def execGnssAid (q : Request) (s : State) : Out := .next (serve opGnssAid q s)

/-- TIME_DATE_MESSAGE at a head with an ISO 11783 address, ±1 s, after the other sources (R283). -/
def execTimeDateMessage (week : BitVec 16) (tow : Word) (s : State) : Out :=
  .next (if isoRuns s && isHead s && s.canA.claim = .claimed && (s.gnss.aidTime.isNone || s.gnss.aidMsg) then
    { s with gnss := { s.gnss with aidTime := some ⟨week, tow, 1000000⟩, aidAt := s.clk.tb, aidMsg := true } } else s)

/-- TB gives GPS time: the first source of aiding time (R283, R37). -/
def tbGps (s : State) : Bool := s.clk.originGps && s.clk.valid && s.clk.gpsKnown

/-- A node holds aiding time (R283). -/
def hasAidTime (s : State) : Bool := tbGps s || s.gnss.aidTime.isSome

/-- The bytes of a TIME record that gives the aiding time now: of TB where its origin is GPS, whose uncertainty the
rule leaves open, a free value in its range (log entry 61), else of the time held (R283). -/
def timeRecord (s : State) : List Byte :=
  let bytes (ms uncert : Nat) : List Byte :=
    [1, 0] ++ be 2 (ms / 604800000) ++ be 4 (ms % 604800000) ++ be 4 uncert
  if tbGps s then
    bytes (s.clk.gpsWeek.toNat * 604800000 + s.clk.gpsSec.toNat * 1000 + s.clk.tb.toNat / 800000)
      (1 + (Config.freeReading s.free).toNat % 2000000)
  else match s.gnss.aidTime with
    | none => []
    | some t =>
      bytes (t.week.toNat * 604800000 + t.tow.toNat + (s.clk.tb.toNat - s.gnss.aidAt.toNat) / 800000) t.uncert.toNat

/-- The aiding broadcast of a head at an epoch edge, class 2 (R283). -/
def aidBroadcast (s : State) : State :=
  if isHead s && hcoreRuns s && !s.chain.island && hasAidTime s && !s.gnss.timeValid then
    let q := plannerRequest 0x49 false 0 (timeRecord s) s
    issue { q with pkt := { q.pkt with cls := 2 } } (draw s)
  else s

/-! ## Corrections (R298) -/

/-- The message of a valid RTCM frame at the head of a string. -/
def rtcmFrame (bs : List Byte) : Option (List Byte) :=
  let n := beAt bs 1 2 % 1024
  if byteAt bs 0 == 0xD3 && decide (n + 6 ≤ bs.length) && beAt bs (3 + n) 3 = (crc24q (bs.take (3 + n))).toNat
  then some ((bs.drop 3).take n) else none

/-- The messages of a byte string and the runs without a valid frame. -/
def rtcmParse : Nat → List Byte → List (List Byte) × Nat
  | 0, _ => ([], 0)
  | _, [] => ([], 0)
  | f + 1, b :: bs =>
    match rtcmFrame (b :: bs) with
    | some m =>
      let r := rtcmParse f ((b :: bs).drop (m.length + 6))
      (m :: r.1, r.2)
    | none =>
      let r := rtcmParse f (bs.dropWhile (· != 0xD3))
      (r.1, r.2 + 1)

def rtcmNumber (m : List Byte) : Nat := if m.length < 2 then 0 else beAt m 0 2 / 16

/-- Accepted messages (Table 11-7). -/
def rtcmUsed (n : Nat) : Bool := [1005, 1006, 1019, 1045, 1046, 1074, 1077, 1094, 1097].contains n

/-- An accepted message acts: station position, ephemeris by message and satellite, or observations. A station
position that changes resets the RTK ambiguities: a fix with fixed ambiguities is RTK_FLOAT from then on, until a
solution fixes them again (R299; log entry 61). -/
def rtcmAct (m : List Byte) (s : State) : State :=
  let n := rtcmNumber m
  if n = 1005 || n = 1006 then
    let p := Config.rtcmStation m
    let moved := s.gnss.station.any (· != p)
    let lose (v : GnssSol) : GnssSol := if moved && v.fix == 4 then { v with fix := 3 } else v
    { s with gnss := { s.gnss with station := some p, sol := s.gnss.sol.map lose } }
  else if n = 1019 || n = 1045 || n = 1046 then
    { s with gnss := { s.gnss with ephem := putKey (n * 64 + beAt m 1 2 / 64 % 64) m s.gnss.ephem } }
  else if rtcmUsed n then { s with gnss := { s.gnss with msmFresh := true, rtcmStale := false } }
  else s

def rtcmInAct (q : Request) (s : State) : State × Option Ans :=
  let r := rtcmParse (reqBody q).length (reqBody q)
  let used := r.1.filter fun m => rtcmUsed (rtcmNumber m)
  let a := used.length
  let i := r.1.length - a
  let s := used.foldl (fun s m => rtcmAct m s) s
  let s := if domOn s 5 then { s with gnss := { s.gnss with
    rtcmAcc := satAdd s.gnss.rtcmAcc a, rtcmIgn := satAdd s.gnss.rtcmIgn i, rtcmBad := satAdd s.gnss.rtcmBad r.2 } } else s
  (s, done (be 2 a ++ be 2 i))

def opRtcmIn : Op := { code := 0x4A, check := fun _ _ => none, act := rtcmInAct }

def execRtcmIn (q : Request) (s : State) : Out := .next (serve opRtcmIn q s)

/-! ## GNSS_GET, NMEA_GET, BASELINE_GET -/

/-- Data in parts of at most 230 bytes (R125). -/
def inParts (data : List Byte) : Option Ans :=
  match chunks 230 16 data with
  | p :: ps => some { data := p, parts := ps }
  | [] => done []

/-- Table 11-8. -/
def gnssData (s : State) : List Byte :=
  let flags : Nat := b2n s.gnss.timeValid + 2 * b2n s.gnss.rtcmStale + 4 * b2n (gnssMode s = 2)
  let tr := BitVec.ofNat 8 (min (trackedSignals s) 255)
  match s.gnss.sol with
  | none => [0, BitVec.ofNat 8 flags, 0, tr] ++ be 32 0 ++ be 4 s.gnss.toff.toNat ++ be 4 0 ++ [0xFF, 0xFF, 0]
  | some v =>
    let n := min v.signals.length 255
    [v.fix.setWidth 8, BitVec.ofNat 8 flags, v.sats, tr] ++ be 6 v.frame.toNat ++ be 4 v.lat.toNat ++ be 4 v.lon.toNat ++
    be 4 v.height.toNat ++ be 2 v.velE.toNat ++ be 2 v.velN.toNat ++ be 2 v.velU.toNat ++ be 2 v.week.toNat ++
    be 4 v.tow.toNat ++ be 4 s.gnss.toff.toNat ++ be 2 v.hdop.toNat ++ be 2 v.sigma.toNat ++ be 2 v.corrAge.toNat ++
    [BitVec.ofNat 8 n] ++ (v.signals.take n).flatMap fun x => [x.1, x.2.1, x.2.2.1, x.2.2.2]

def opGnssGet : Op :=
  { code := 0x48, check := fun q _ => lenIs 0 q, act := fun _ s => (s, inParts (gnssData s)) }

def execGnssGet (q : Request) (s : State) : Out := .next (serve opGnssGet q s)

/-- The sentences of a solution in R301's order: kind, system and page, where GSA goes once per system and GSV
once per system and signal, four satellites a page. -/
def sentences (b : Byte) (v : GnssSol) : List Nat :=
  let sys := (if v.signals.any (fun x => x.1.toNat < 64) then [0] else []) ++
    (if v.signals.any (fun x => 64 ≤ x.1.toNat) then [1] else [])
  let one (k : Nat) : List Nat := if b.getLsbD k then [k] else []
  let gsv := sys.flatMap fun y => [0, 1, 2, 3].flatMap fun g =>
    let n := (v.signals.filter fun x => x.1.toNat / 64 = y && x.2.1.toNat = g).length
    (List.range ((n + 3) / 4)).map fun p => 1000 + 400 * y + 100 * g + p
  one 0 ++ one 1 ++ one 2 ++ (if b.getLsbD 3 then sys.map (fun y => 10 + y) else []) ++
    (if b.getLsbD 4 then gsv else []) ++ one 5

/-- Sentences packed whole into reply parts. -/
def packParts : List (List Byte) → List Byte → List (List Byte)
  | [], cur => if cur.isEmpty then [] else [cur]
  | t :: ts, cur =>
    if cur.isEmpty || cur.length + t.length ≤ 230 then packParts ts (cur ++ t) else cur :: packParts ts t

def solFields (v : GnssSol) : List Nat :=
  [v.fix.toNat, v.sats.toNat, v.lat.toNat, v.lon.toNat, v.height.toNat, v.velE.toNat, v.velN.toNat, v.week.toNat,
    v.tow.toNat, v.hdop.toNat, v.sigma.toNat, v.corrAge.toNat, Config.leapSeconds v.week.toNat] ++
  v.signals.flatMap fun x => [x.1.toNat, x.2.1.toNat, x.2.2.1.toNat, x.2.2.2.toNat]

/-- NMEA_GET (R301); in BURST no velocity is produced (R290). -/
def nmeaAct (q : Request) (s : State) : State × Option Ans :=
  match s.gnss.sol with
  | none => (s, done [])
  | some v =>
    let v := if gnssMode s = 2 then { v with velE := 0x8000, velN := 0x8000, velU := 0x8000 } else v
    match packParts ((sentences (byteAt (reqBody q) 0) v).map fun k => Config.nmeaText k (solFields v)) [] with
    | [] => (s, done [])
    | [p] => (s, done p)
    | p :: ps => (s, some { data := p, parts := ps })

def opNmeaGet : Op :=
  { code := 0x4E, check := fun q _ => lenIs 1 q <|> param ((byteAt (reqBody q) 0).toNat < 64), act := nmeaAct }

def execNmeaGet (q : Request) (s : State) : Out := .next (serve opNmeaGet q s)

/-- A BASE record's bytes b1 to b27. -/
def baseBytes (b : BaseRec) : List Byte :=
  [b.status] ++ be 2 b.nodeA.toNat ++ be 2 b.nodeB.toNat ++ be 6 b.frame.toNat ++ be 4 b.east.toNat ++
  be 4 b.north.toNat ++ be 4 b.up.toNat ++ be 2 b.sigmaH.toNat ++ be 2 b.sigmaV.toNat

/-- The node's own record first, then the others in address order (Table 11-10). -/
def baseList (s : State) : List BaseRec :=
  let own (b : BaseRec) : Bool := b.nodeA == s.chain.addr && s.chain.addrValid
  let rest := sortBy (fun (a b : BaseRec) => decide (a.nodeA.toNat < b.nodeA.toNat)) (s.gnss.bases.filter fun b => !own b)
  (s.gnss.bases.filter own ++ rest).take 16

def opBaselineGet : Op :=
  { code := 0x4F, check := fun q _ => lenIs 0 q
    act := fun _ s =>
      let l := baseList s
      (s, inParts (BitVec.ofNat 8 l.length :: l.flatMap baseBytes)) }

def execBaselineGet (q : Request) (s : State) : Out := .next (serve opBaselineGet q s)

/-! ## Baselines (R302, R303) -/

/-- A MEAS record's bytes. -/
def measBytes (m : MeasRec) : List Byte :=
  [5, BitVec.ofNat 8 (b2n m.clkOk)] ++ be 2 m.partner.toNat ++ be 6 m.frame.toNat ++ [BitVec.ofNat 8 m.sigs.length] ++
  m.sigs.flatMap fun g => [g.sat, g.flags, g.cn0] ++ be 4 g.phase.toNat ++ be 3 g.range.toNat

/-- MEAS_SEND: a member's record goes to the head in EVT frames, class 1 (R302). -/
def measSend (s : State) : State :=
  if !(takesPart s && hcoreRuns s && !isHead s && !s.gnss.meas.isEmpty &&
      decide (frameDiff (now s) s.gnss.measFrame ≤ 5000)) then s
  else
    let ps := chunks 232 16 (measBytes (ownMeas s))
    let seq : BitVec 16 := (Config.freeWord s.free).setWidth 16
    let pk (x : List Byte × Nat) : Packet :=
      { ackreq := false, more := decide (x.2 + 1 < ps.length), opcode := 0x49, seq := seq + BitVec.ofNat 16 x.2
        dest := s.chain.headAddr, src := ownAddr s, chainId := s.chain.chainId, cls := 1, payload := x.1 }
    ps.zipIdx.foldl (fun s x => queueUp (upFrame 6 (pk x) s) s) (draw s)

def execMeasSend (s : State) : Out := .next (measSend s)

/-- Satellites of a record measured on both bands. -/
def bothBands (m : MeasRec) : List Byte :=
  let on (l5 : Bool) : List Byte := (m.sigs.filter fun g => (g.flags.getLsbD 0) == l5).map (·.sat)
  ((on false).filter fun x => (on true).contains x).eraseDups

/-- The records of frame M from the first 16 participating nodes in address order (R303). -/
def participants (f : Frame48) (s : State) : List MeasRec :=
  sortBy (fun (a b : MeasRec) => decide (a.src.toNat < b.src.toNat)) (s.gnss.measHeld.filter (·.frame == f))

/-- Satellites common to two records on both bands (R303). -/
def commonSats (a c : MeasRec) : List Byte := (bothBands a).filter fun x => (bothBands c).contains x

/-- The record of a node's partner. -/
def partnerRec (ms : List MeasRec) (a : MeasRec) : Option MeasRec := ms.find? (·.src == a.partner)

/-- The head holds what a baseline between two records needs (R303). -/
def solvable (a c : MeasRec) : Bool := a.clkOk && c.clkOk && decide (5 ≤ (commonSats a c).length)

/-- A removed signal is one of the pair's, named in either order. -/
def slipOf (a c : BitVec 16) (x : SlipSig) : Bool := (x.a == a && x.b == c) || (x.a == c && x.b == a)

/-- Common signals of two records with SLIP in either (R305). -/
def slipped (a c : MeasRec) : List (Byte × Nat) :=
  (a.sigs.filterMap fun g =>
    match c.sigs.find? (fun h => h.sat == g.sat && h.flags.toNat % 4 = g.flags.toNat % 4) with
    | some h => if g.flags.getLsbD 2 || h.flags.getLsbD 2 then some (g.sat, g.flags.toNat % 4) else none
    | none => none).eraseDups

/-- A SLIP on a common signal removes it from the pair until it is fixed again, within 10 s: at a measurement frame
that the rule leaves open, a free value (R305; log entry 62). -/
def removeSlips (f : Frame48) (a c : MeasRec) (s : State) : State :=
  let old := s.gnss.slips.filter fun x => decide (0 < frameDiff x.fixFrame f)
  let add (s : State) (g : Byte × Nat) : State :=
    let fixed := f + BitVec.ofNat 48 ((1 + (Config.freeReading s.free).toNat % 100) * 100000)
    let keep := s.gnss.slips.filter fun x => !(slipOf a.src c.src x && x.sat == g.1 && x.signal = g.2)
    draw { s with gnss := { s.gnss with slips := keep ++ [⟨a.src, c.src, g.1, g.2, fixed⟩] } }
  (slipped a c).foldl add { s with gnss := { s.gnss with slips := old } }

/-- Unslipped common satellites of a pair (R305). -/
def unslipped (a c : MeasRec) (s : State) : List Byte :=
  (commonSats a c).filter fun x => !(s.gnss.slips.any fun y => slipOf a.src c.src y && y.sat == x)

/-- The vector the other way round. -/
def mirrorBase (r : BaseRec) : BaseRec :=
  { r with nodeA := r.nodeB, nodeB := r.nodeA, east := -r.east, north := -r.north, up := -r.up }

/-- What the solver found from A to B: a pair whose nodes name each other is solved once, for its lower address, and
reported in both directions (R303). -/
def pairBase (recs : List BaseRec) (a c : MeasRec) : Option BaseRec :=
  let one (x y : BitVec 16) : Option BaseRec := recs.find? fun r => r.nodeA == x && r.nodeB == y
  if c.partner != a.src then one a.src c.src
  else
    let lo := if a.src.toNat < c.src.toNat then a.src else c.src
    let hi := if a.src.toNat < c.src.toNat then c.src else a.src
    let r := one lo hi <|> (one hi lo).map mirrorBase
    if a.src = lo then r else r.map mirrorBase

/-- The record of node A for frame f: FIXED is FLOAT with fewer than 5 unslipped common satellites (R303, R305). -/
def baseRecord (f : Frame48) (recs : List BaseRec) (ms : List MeasRec) (s : State) (a : MeasRec) : Option BaseRec :=
  match partnerRec ms a with
  | none => none
  | some c =>
    if !solvable a c then none
    else (pairBase recs a c).map fun r =>
      { r with frame := f, status := if r.status == 2 && decide ((unslipped a c s).length < 5) then 1 else r.status }

/-- BASELINE_COMPUTE: the records the head could compute for a measurement frame are broadcast in a
GNSS_AID request of class 1; none is sent without a record (R303). -/
def baselineCompute (recs : List BaseRec) (s : State) : State :=
  if !(isHead s && !s.chain.island && hcoreRuns s) then s
  else match recs.head? with
    | none => s
    | some r =>
      let all := participants r.frame s
      let s := if 16 < all.length then noteEpoch .host 0x0701 1 0xFF [] s else s
      let ms := all.take 16
      let slip (s : State) (a : MeasRec) : State :=
        match partnerRec ms a with
        | some c => removeSlips r.frame a c s
        | none => s
      let s := ms.foldl slip s
      let good := ms.filterMap (baseRecord r.frame (recs.filter (·.frame == r.frame)) ms s)
      let s := { s with gnss := { s.gnss with measHeld := s.gnss.measHeld.filter fun m => decide (0 < frameDiff m.frame r.frame) } }
      if good.isEmpty then s
      else
        let ps := chunks 224 16 (good.flatMap fun b => 6 :: baseBytes b)
        let q := plannerRequest 0x49 false 0 (ps.getLastD []) s
        serve opGnssAid { q with pkt := { q.pkt with cls := 1 }, parts := if ps.length = 1 then [] else ps } (draw s)

def execBaselineCompute (recs : List BaseRec) (s : State) : Out := .next (baselineCompute recs s)

/-! ## Snapshots (R291 to R294) -/

/-- The front end is biased: CONTINUOUS, a burst, or a capture. -/
def biased (s : State) : Bool := tracking s && (gnssMode s = 1 || s.gnss.burstBias)

/-- The refusals of SNAP_CAPTURE that its moment does not decide (R4, R291, R293). -/
def captureState (s : State) : Option Ans :=
  if s.id.variant = .b then refuse 0x13 0
  else if s.gnss.solve.isSome || s.gnss.snapRun.isSome then refuse 0x40 0
  else if domOn s 6 && domOn s 7 then none else refuse 0x13 0

/-- SNAP_CAPTURE starts at tick 0 of the frame where it acts. -/
def snapCaptureAct (q : Request) (s : State) : State × Option Ans :=
  guarded (captureState s <|> (if !q.pkt.sched && !biased s then refuse 0x30 0 else none)) s fun s =>
    let t := (s.clk.tb.toNat + ticksPerFrame - 1) / ticksPerFrame * ticksPerFrame
    let r : SnapRun := { bands := byteAt (reqBody q) 0, len := byteAt (reqBody q) 1, tb := BitVec.ofNat 64 t }
    ({ s with gnss := { s.gnss with snapRun := some r } }, done [])

def opSnapCapture : Op :=
  { code := 0x4B
    check := fun q _ =>
      let b := reqBody q
      lenIs 2 q <|> param (inRange 1 3 (byteAt b 0).toNat && inRange 1 (if byteAt b 0 == 3 then 40 else 80) (byteAt b 1).toNat)
    act := snapCaptureAct
    accept := fun q s => if !biased s && decide (frameDiff q.pkt.applyAt (now s) < 5000) then refuse 0x30 0 else none }

def execSnapCapture (q : Request) (s : State) : Out := .next (serve opSnapCapture q s)

/-- The header of Table 11-5. -/
def snapHeader (r : SnapRun) (gain1 gain5 : BitVec 16) (s : State) : List Byte :=
  be 8 r.tb.toNat ++ [r.bands, r.len] ++ be 4 s.clk.originId.toNat ++ [BitVec.ofNat 8 (b2n s.clk.originGps), 0] ++
  be 2 gain1.toNat ++ be 2 gain5.toNat ++ be 12 0

/-- SNAP_CAPTURE_END: the header and the blocks stand in the buffer (R291, R292). -/
def snapCaptureEnd (samples : List Byte) (gain1 gain5 : BitVec 16) (s : State) : State :=
  match s.gnss.snapRun with
  | none => s
  | some r =>
    let n := 12500 * r.len.toNat * (if r.bands == 3 then 2 else 1)
    let s := advanceTo (r.tb.toNat + r.len.toNat * 800000) s
    { s with gnss := { s.gnss with
      snapRun := none
      snap := writeBytes sramByte s.gnss.snap 0 (snapHeader r gain1 gain5 s ++ samples.take n) } }

def execSnapCaptureEnd (samples : List Byte) (gain1 gain5 : BitVec 16) (s : State) : Out :=
  .next (snapCaptureEnd samples gain1 gain5 s)

def snapXferCheck (q : Request) (_ : State) : Option Ans :=
  let b := reqBody q
  let n := if byteAt b 0 == 0 then beAt b 5 2 else b.length - 5
  if b.isEmpty then refuse 0x22 0
  else if 1 < (byteAt b 0).toNat then refuse 0x21 0
  else if byteAt b 0 == 0 && b.length != 7 then refuse 0x22 0
  else if byteAt b 0 == 1 && b.length < 6 then refuse 0x22 0
  else param ((byteAt b 0 == 1 || inRange 1 228 n) && decide (beAt b 1 4 + n ≤ 1048576))

/-- SNAP_XFER (R293). -/
def snapXferAct (q : Request) (s : State) : State × Option Ans :=
  let b := reqBody q
  let w := byteAt b 0 == 1
  guarded ((if w && s.gnss.snapRun.isSome then refuse 0x11 0 else none) <|> (if domOn s 7 then none else refuse 0x13 0)) s
    fun s =>
      if w then ({ s with gnss := { s.gnss with snap := writeBytes sramByte s.gnss.snap (beAt b 1 4) (b.drop 5) } }, done [])
      else (s, done (readBytes sramByte s.gnss.snap (beAt b 1 4) (beAt b 5 2)))

def opSnapXfer : Op := { code := 0x4C, check := snapXferCheck, act := snapXferAct }

def execSnapXfer (q : Request) (s : State) : Out := .next (serve opSnapXfer q s)

/-- SNAP_SOLVE (R293, R294); SNAP_SOLVE_DONE answers it. -/
def snapSolveAct (q : Request) (s : State) : State × Option Ans :=
  guarded ((if s.gnss.snapRun.isSome then refuse 0x11 0
      else if s.gnss.solve.isSome then refuse 0x40 0
      else if !(s.clk.originGps && s.clk.valid) && s.gnss.aidTime.isNone then refuse 0x11 0x28 else none) <|>
      (if domOn s 5 && domOn s 7 then none else refuse 0x13 0)) s fun s =>
    ({ s with gnss := { s.gnss with solve := some q } }, none)

def opSnapSolve : Op := { code := 0x4D, check := fun q _ => lenIs 0 q, act := snapSolveAct }

def execSnapSolve (q : Request) (s : State) : Out := .next (serve opSnapSolve q s)

/-- Table 11-11. -/
def snapBytes (v : SnapSol) : List Byte :=
  let ok := decide (5 ≤ v.sats.toNat)
  [if ok then 5 else 0, v.sats] ++ be 4 v.lat.toNat ++ be 4 v.lon.toNat ++ be 4 v.height.toNat ++ be 2 v.week.toNat ++
  be 8 v.tow.toNat ++ be 2 (if ok then v.sigmaH.toNat else 0xFFFF) ++ be 2 (if ok then v.sigmaT.toNat else 0xFFFF)

def execSnapSolveDone (sol : SnapSol) (s : State) : Out :=
  .next (match s.gnss.solve with
    | some q => reply q { data := snapBytes sol } { s with gnss := { s.gnss with solve := none } }
    | none => s)

/-! ## TIME_MARK (R296, R297) -/

/-- The mark of a pulse: QERR and its source (R296); what a discipline loop or a held model estimates is a free
value. -/
def formMark (s : State) : State :=
  let free : Int := ((Config.freeReading s.free).setWidth 16 : BitVec 16).toInt
  let clampQ (x : Int) : BitVec 16 := BitVec.ofInt 16 (max (-32766) (min 32766 x))
  let steered := isHead s && s.gnss.timeValid
  let held := isHead s && s.clk.qual != .locked
  let m : BitVec 16 × Nat × Nat :=
    if steered then (clampQ free, 0, 0)
    else if held then (clampQ free, 0, 1)
    else if s.id.variant = .g2 && s.gnss.timeValid then (clampQ (-s.gnss.toff.toInt), 0, 0)
    else (0x8000, 1, 0)
  let b6 := BitVec.ofNat 8 (qualOf s + 4 * m.2.1 + 8 * m.2.2)
  let ep := BitVec.ofNat 32 (s.clk.tb.toNat / ticksPerEpoch)
  draw { s with gnss := { s.gnss with
    mark := some (ep, m.1, b6), tmark2 := b6.setWidth 32 <<< 16 ||| m.1.setWidth 32
    tmark := ep } }

/-- The 8 bytes of Table 11-6, little-endian. -/
def markBytes (m : Word × BitVec 16 × Byte) : List Byte :=
  (be 4 m.1.toNat).reverse ++ (be 2 m.2.1.toNat).reverse ++ [m.2.2, 0]

/-- TIME_MARK_SEND, 10 ms after the pulse at the earliest (R297). -/
def timeMarkSend (s : State) : State :=
  match s.gnss.mark with
  | none => s
  | some m =>
    let pps := reg s 0x070014
    let p : CanPort := if bit pps 10 then .b else .a
    let iso := p = .a && profile .a s = 0 && s.canA.claim = .claimed
    let id : BitVec 29 := if iso then 0x0CFF4800 + s.canA.addr.setWidth 29 else (reg s 0x070018).setWidth 29
    let f : CanFrame := { ide := true, id := id, data := markBytes m }
    let s := advanceTo (s.clk.tb.toNat / ticksPerEpoch * ticksPerEpoch + 8000000) s
    let s := { s with gnss := { s.gnss with mark := none } }
    if bit pps 9 && portLive p s && (can p s).mode = .normal && !(p = .a && s.canA.silent) then
      onCan p (fun c => { c with segs := c.segs ++ [f] }) s
    else s

def execTimeMarkSend (s : State) : Out := .next (timeMarkSend s)

end Sys2Proof.Machine
end

