-- ==== Sys2Proof/Machine/System.lean ====
section
/-! DEFINITION. The opcodes of identity, mode, chain, timebase and registers (Tables 06-4 to 06-6 and 06-17;
R141 to R148, R160 to R164, R24), the counters that a register write clears, and the planner's own
release (R22). -/

namespace Sys2Proof.Machine

/-! ## Identity and status (Table 06-4) -/

/-- PKT_CNTCLR (Table 05-7). -/
def clearPkt (v : Word) (s : State) : State :=
  let p := s.pkt
  { s with pkt := { p with
    chain := if bit v 0 then {} else p.chain, canA := if bit v 1 then {} else p.canA
    canB := if bit v 2 then {} else p.canB, svc := if bit v 3 then {} else p.svc
    schedMost := if bit v 4 then 0 else p.schedMost, lateReplies := if bit v 4 then 0 else p.lateReplies } }

def execPktCntclr (value : Word) (s : State) : Out := .next (clearPkt value s)

/-- The data of ID_GET; the F-image version reads 0 while no F-image is loaded (R1). -/
def idData (s : State) : List Byte :=
  be 8 s.id.serial.toNat ++ [(match s.id.variant with | .g2 => 0 | .b => 1), s.id.hostStep, s.id.fieldStep] ++
  verBytes s.id.hVer ++ verBytes (if s.fw.fimgLoaded then s.id.fVer else ⟨0, 0, 0⟩) ++ [s.id.big, s.id.cig, s.id.ssv, BitVec.ofNat 8 (lifeCode s.sec.life)] ++
  be 4 (idMode s).toNat

def opIdGet : Op := { code := 0x00, check := fun q _ => lenIs 0 q, act := fun _ s => (s, done (idData s)) }

def execIdGet (q : Request) (s : State) : Out := .next (serve opIdGet q s)

/-- Open records of the host queue and the mirror, by severity. -/
def openRecords (s : State) : List Nat :=
  (List.range 4).map fun k => ((s.ev.host ++ s.ev.mirror).filter fun r => r.opened && r.sev.toNat == k).length

/-- The node with the counters that the status commands return as they were at the latest epoch edge (R14; log entry
64). -/
def atEdge (s : State) : State :=
  let c := s.ev.snap
  { s with
    clk := { s.clk with relocks := c.relocks }, barr := { s.barr with failed := c.failed }
    chain := { s.chain with upBreaks := c.upBreaks, dnBreaks := c.dnBreaks, errUp := c.errUp, errDn := c.errDn } }

/-- The data of STATUS_GET; its counters are those of the latest epoch edge (R14). -/
def statusData (s : State) : List Byte :=
  be 4 (idMode s).toNat ++ be 4 (idClay s).toNat ++ be 4 (tbStat (atEdge s)).toNat ++ be 4 (barrStat (atEdge s)).toNat ++
  be 4 (chStat s).toNat ++ s.ev.openCounts.map fun n => satTo 8 n

def opStatusGet : Op := { code := 0x05, check := fun q _ => lenIs 0 q, act := fun _ s => (s, done (statusData s)) }

def execStatusGet (q : Request) (s : State) : Out := .next (serve opStatusGet q s)

/-! ## Clay (R24, R160, R161) -/

/-- A command acts at its APPLY_AT, and an unscheduled one at the first frame boundary after its acceptance (R12). -/
def toActing (q : Request) (s : State) : State := if q.pkt.sched then s else toFrame s

/-- CLAY_ENTER from any source: cause 3 (R160), DISAGREE where an output contradicts it (R443). -/
def clayEnterAct (q : Request) (s : State) : State × Option Ans :=
  let s := toActing q s
  let bad := contradicted 0xFFFFFFFF s
  let s := hostClay 3 s
  (s, some { status := if bad then 0x41 else 0, data := be 4 (idClay s).toNat })

def opClayEnter : Op := { code := 0x02, check := fun q _ => lenIs 0 q, act := clayEnterAct }

def execClayEnter (q : Request) (s : State) : Out := .next (serve opClayEnter q s)

/-- The field configuration of R409 is not complete: CLAY_RELEASE stays refused. -/
def configuring (s : State) : Bool :=
  s.fw.cfgRefused || !s.fw.cfgLeft.isEmpty || s.barr.txns.any (fun t => t.why == .configure || t.why == .digest) ||
  s.barr.coefs.any (fun c => c.q.via == .planner)

/-- What a CLAY_RELEASE is refused for but the causes: the source (R161), the address (R103), the timebase
(R50), the field domains (R362) and the field configuration (R409). All are checks of step 12, which the spec does not
order among themselves; that the source comes first is the model's choice (DESIGN CHOICE, log entry 51). -/
def releaseRefusal (q : Request) (s : State) : Option Ans :=
  if !plannerSource q s then refuse 0x11 0x25
  else if !s.chain.addrValid then refuse 0x11 0x05
  else if !s.clk.valid then refuse 0x11 0x11
  else if !fieldDomainsOn s then refuse 0x13 0
  else if configuring s then refuse 0x11 0
  else none

/-- Every refusal of a release carries ID_CLAY.ACTIVE (R24, Table 06-4). -/
def withActive (s : State) (a : Ans) : Ans := { a with data := be 4 (s.modes.active.toNat * 65536) }

/-- CLAY_RELEASE succeeds only if no cause holds at the frame where it takes effect (R12, R24). -/
def clayReleaseAct (q : Request) (s : State) : State × Option Ans :=
  let s := toActing q s
  match releaseRefusal q s <|> (if holdingCauses s != 0 then refuse 0x11 0 else none) with
  | some a => (s, some (withActive s a))
  | none => (if s.modes.clay then leaveClay s else s, done [])

/-- A release is checked when it is accepted and again at its APPLY_AT (R24); once it was passed on the
Task Controller's sections are bridged (R193) and remote holds are repeated (R243). -/
def opClayRelease : Op :=
  { code := 0x03, check := fun q _ => lenIs 0 q, act := clayReleaseAct
    accept := fun q s => (releaseRefusal q s).map (withActive s)
    after := fun _ s => repeatHolds (bridgeAfterRelease s) }

def execClayRelease (q : Request) (s : State) : Out := .next (serve opClayRelease q s)

/-- The release a head's own planner sends to the chain, scheduled so that every node acts in one frame, with
the step window's announcement first (R22, R38). -/
def plannerRelease (s : State) : State :=
  let s := autoStep s
  serve opClayRelease (plannerRequest 0x03 true (now s + 2000) [] s) (draw s)

/-- The head that may arm the chain under this planner source (R22, R115). -/
def arms (p : Byte) (s : State) : Bool := hcoreRuns s && planner s == p && isHead s && !islandHead s

/-- TC_SECTION_AUTO (R22). -/
def execTcSectionAuto (s : State) : Out :=
  .next (if arms 0 s then plannerRelease { s with sect := { s.sect with tcAuto := true } } else s)

/-- OPERATOR_WORK_ENABLE (R22, R195). -/
def execOperatorWorkEnable (s : State) : Out :=
  .next (if arms 1 s then plannerRelease (sendBoundary { s with sect := { s.sect with workOn := true } }) else s)

/-! ## CANCEL (R142) -/

/-- The same transport, and on CAN the same source address. -/
def sameTransport (a b : Via) : Bool :=
  match a, b with | .chain _, .chain _ => true | _, _ => a == b

/-- The command names this one. -/
def cancels (q : Request) (c : SchedCmd) : Bool :=
  sameTransport q.via c.q.via && c.q.pkt.src.toNat == beAt (reqBody q) 0 2 && c.q.pkt.seq.toNat == beAt (reqBody q) 2 2

/-- The command with the earliest APPLY_AT. -/
def earliest : List SchedCmd → Option SchedCmd
  | [] => none
  | c :: cs =>
    match earliest cs with
    | none => some c
    | some d => if frameDiff d.q.pkt.applyAt c.q.pkt.applyAt < 0 then some d else some c

/-- The command has a part that hand-over sends across the barrier: the opcodes of flags S and F, and a
REG_WRITE of field registers (R141). -/
def hasFieldPart (q : Request) : Bool :=
  [0x20, 0x21, 0x23, 0x25, 0x39, 0x42, 0x43, 0x5A, 0x5C].contains q.pkt.opcode.toNat ||
  (q.pkt.opcode == 0x7B && isField (beAt (reqBody q) 0 3))

/-- CANCEL: DONE before hand-over, CANCEL_LATE after it or at its frame, NO_SUCH otherwise. -/
def cancelAct (q : Request) (s : State) : State × Option Ans :=
  match earliest (s.pkt.sched.filter (cancels q)) with
  | none => (s, if s.pkt.acted.any (cancels q) then refuse 0x31 0 else refuse 0x21 0x0B)
  | some c =>
    if frameDiff c.q.pkt.applyAt (now s) ≤ 0 then (s, refuse 0x31 0)
    else if c.handed && hasFieldPart c.q then (s, refuse 0x31 0x0C)
    else
      let s := { s with pkt := { s.pkt with sched := dropFirst (fun x => x == c) s.pkt.sched } }
      (if c.q.pkt.opcode == 0x5A then abortSweep 5 s else s, done [])

def opCancel : Op := { code := 0x06, check := fun q _ => lenIs 4 q, act := cancelAct }

def execCancel (q : Request) (s : State) : Out := .next (serve opCancel q s)

/-! ## Chain and timebase (R163, R164) -/

/-- ENUMERATE starts a walk and is answered at its DONE (R163). -/
def enumerateAct (q : Request) (s : State) : State × Option Ans :=
  guarded (if domOn s 11 then none else refuse 0x13 0) s fun s =>
    (walkStart (byteAt (reqBody q) 0 == 1) (some q) s, none)

def opEnumerate : Op :=
  { code := 0x10, check := fun q _ => lenIs 1 q <|> param ((byteAt (reqBody q) 0).toNat ≤ 1), act := enumerateAct }

def execEnumerate (q : Request) (s : State) : Out := .next (serve opEnumerate q s)

/-- The data of CHAIN_GET; its counters are those of the latest epoch edge (R14). -/
def chainData (s : State) : List Byte :=
  [chAddr s, chHop s, chStat s, chBreak (atEdge s), portErrWord (atEdge s).chain.errUp,
    portErrWord (atEdge s).chain.errDn, s.clk.hopDly.setWidth 32].flatMap fun w => be 4 w.toNat

def opChainGet : Op := { code := 0x11, check := fun q _ => lenIs 0 q, act := fun _ s => (s, done (chainData s)) }

def execChainGet (q : Request) (s : State) : Out := .next (serve opChainGet q s)

/-- The MARL pattern a MARL_SEND names. -/
def marlInfo (q : Request) : MarlInfo :=
  let b := reqBody q
  { all := byteAt b 0 == 1, reason := byteAt b 1, first := BitVec.ofNat 16 (beAt b 2 2), last := BitVec.ofNat 16 (beAt b 4 2) }

/-- MARL_SEND: sixteen frames of the pattern leave back to back, and the reply follows the last (R119, R163). -/
def opMarlSend : Op :=
  { code := 0x13, check := fun q _ => lenIs 6 q <|> param ((byteAt (reqBody q) 0).toNat ≤ 1)
    act := fun q s => guarded (if domOn s 11 then none else refuse 0x13 0) s fun s =>
      (sendPattern (marlInfo q) s, done []) }

def execMarlSend (q : Request) (s : State) : Out := .next (serve opMarlSend q s)

/-- The data of TB_READ (R164). -/
def tbData (s : State) : List Byte :=
  be 8 s.clk.tb.toNat ++ be 4 (tbStat s).toNat ++ be 4 s.clk.originId.toNat ++ be 4 s.clk.resid.toNat ++
  be 4 s.clk.slew.toNat ++ be 2 s.clk.gpsWeek.toNat ++ be 3 s.clk.gpsSec.toNat

def opTbRead : Op := { code := 0x18, check := fun q _ => lenIs 0 q, act := fun _ s => (s, done (tbData s)) }

def execTbRead (q : Request) (s : State) : Out := .next (serve opTbRead q s)

/-- TB_REALIGN announces an origin step (R38, R164). -/
def tbRealignAct (_ : Request) (s : State) : State × Option Ans :=
  if !s.gnss.timeValid || s.gnss.sol.isNone then (s, refuse 0x11 0x28)
  else if s.clk.originGps then (s, refuse 0x11 0x29)
  else
    let s := announceStep s
    (s, match s.clk.announced with
      | some a => done (be 4 a.epoch.toNat ++ be 4 a.d.toNat)
      | none => refuse 0x11 0x28)

def opTbRealign : Op := { code := 0x19, check := fun q _ => lenIs 0 q, act := tbRealignAct }

def execTbRealign (q : Request) (s : State) : Out := .next (serve opTbRealign q s)

/-! ## Writes of host registers (R145) -/

/-- SVC_CNTCLR (Table 13-5). -/
def clearSvc (v : Word) (s : State) : State :=
  let c := if bit v 0 then { s.svc with stuck := false } else s.svc
  { s with svc := if bit v 1 then { c with cntStuck := 0, cntAttn := 0, cntWithdrawn := 0, cntErr := 0 } else c }

def execSvcCntclr (value : Word) (s : State) : Out := .next (if domOn s 10 then clearSvc value s else s)

/-- The port and object whose word lies at an address, if one does (R326). -/
def objectAt (a : Nat) : Option (CanPort × Fin 128) :=
  if 0x4000 ≤ a % 0x10000 && a % 0x10000 < 0x8000 then
    (match a / 0x10000 with
      | 4 => some (.a, Fin.ofNat 128 ((a % 0x10000 - 0x4000) / 0x80))
      | 5 => some (.b, Fin.ofNat 128 ((a % 0x10000 - 0x4000) / 0x80))
      | _ => none)
  else none

/-- MO_CFG, MO_ID or MO_MASK of an object (Table 12-5). -/
def putObject (o : Nat) (v : Word) (m : MsgObj) : MsgObj :=
  match o with
  | 0 => { m with kind := if field v 1 0 = 1 then .rx else .off, ide := bit v 2, fdf := bit v 3, brs := bit v 4 }
  | 4 => { m with id := v.setWidth 29 }
  | _ => { m with mask := v.setWidth 29 }

/-- A host register takes a checked value, with what the write does beside (Tables 01-7 to 17-6). -/
def hostPut (a : Nat) (v : Word) (s : State) : State :=
  match objectAt a with
  | some (p, n) => onCan p (fun c => { c with obj := upd c.obj n (putObject (a % 0x80) v) }) s
  | none =>
    match a with
    | 0x000094 => clearPkt v s
    | 0x010000 => putTbCtrl v s
    | 0x02001C => clearBarr v s
    | 0x030008 =>
      let s := setReg a v s
      if isHead s && !s.chain.island then { s with chain := { s.chain with policy := BitVec.ofNat 7 (field v 6 0) } } else s
    | 0x030024 => clearChain v s
    | 0x040030 => clearCan .a v s
    | 0x050030 => clearCan .b v s
    | 0x040040 => dropClaim (setReg a v s)
    | 0x06000C => clearSvc v s
    | 0x070000 => let s := setReg a v s; if field v 1 0 = 0 then stopTracking s else s
    | 0x070038 => clearGnss v s
    | 0x090014 => clearSec v s
    | 0x0A000C => clearEvt v s
    | _ => setReg a v s

/-- The registers as they would stand with every value of the access, for the checks of R7. -/
def withValues (ps : List RegPut) (s : State) : State :=
  ps.foldl (fun t p => setReg p.addr.toNat (merged s p.addr.toNat p.value p.mask) t) s

/-- Step 10 of one host register of a write, the access's values all in place (R144, R7, R326). -/
def hostPutCheck (ps : List RegPut) (s : State) (p : RegPut) : Option Ans :=
  let a := p.addr.toNat
  paramCheck false s a 0 0 <|>
  (match regDef a with
    | some d =>
      if d.acc = .ro then refuse 0x21 0x0F
      else if !valueOk (withValues ps s) a (merged s a p.value p.mask) then refuse 0x21 0
      else match objectAt a with
        | some (c, n) => if (can c s).obj[n].kind = .tx then refuse 0x21 0 else none
        | none => none
    | none => none)

/-- The address names CANx_CFG, CANx_NBT or CANx_DBT of a port that is not in SLEEP. -/
def canConfig (a : Nat) (s : State) : Bool :=
  ((a = 0x040000 || a = 0x040004 || a = 0x040008) && s.canA.mode != .sleep) ||
  ((a = 0x050000 || a = 0x050004 || a = 0x050008) && s.canB.mode != .sleep)

/-- Step 12 of one host register: TB_CTRL (R43), the bit timing of a running port (R313), GNSS_CTRL (R280)
and the register's domain (R146, R483). -/
def hostStateCheck (s : State) (p : RegPut) : Option Ans :=
  let a := p.addr.toNat
  let v := merged s a p.value p.mask
  (if a = 0x010000 then tbCtrlCheck s v else none) <|>
  (if canConfig a s then refuse 0x11 0 else none) <|>
  (if a = 0x070000 && field v 1 0 != 0 && field p.mask 1 0 != 0 && !(s.id.variant = .g2 && domOn s 5 && domOn s 6)
    then refuse 0x13 0 else none) <|>
  domainCheck s a

/-- All registers of a host write change together (R145). -/
def hostWrite (ps : List RegPut) (s : State) : State :=
  (ps.map fun p => (p.addr.toNat, merged s p.addr.toNat p.value p.mask)).foldl (fun s x => hostPut x.1 x.2 s) s

/-! ## REG_READ and REG_WRITE (R144 to R148) -/

def regBase (q : Request) : Nat := beAt (reqBody q) 0 3
def regCount (q : Request) : Nat := (byteAt (reqBody q) 3).toNat
def regAddrs (q : Request) : List Nat := (List.range (regCount q)).map fun i => regBase q + 4 * i

/-- In Sand a read outside region 0x00 is answered MODE_SAND (R146). -/
def regReadMode (q : Request) (s : State) : Option Ans :=
  if s.modes.mode = .sand && (regAddrs q).any (fun a => 0x10000 ≤ a) then refuse 0x51 0 else none

def regReadCheck (q : Request) (s : State) : Option Ans :=
  lenIs 4 q <|> param (inRange 1 32 (regCount q)) <|> firstAns ((regAddrs q).map fun a => paramCheck false s a 0 0)

/-- A host register is read: TB_NOW_LO latches TB_NOW_HI (R60), and MO_STAT is cleared after (R328). -/
def hostReadAct (a : Nat) (s : State) : Word × State :=
  let s := if a = 0x010008 then readNow s else s
  let w := readReg s a
  (w, match objectAt a with
    | some (p, n) => if a % 0x80 = 0x0C then moRead p n s else s
    | none => s)

/-- The values of a host read in address order. -/
def hostReads : List Nat → State → List Word × State
  | [], s => ([], s)
  | a :: as, s =>
    let r := hostReadAct a s
    let t := hostReads as r.2
    (r.1 :: t.1, t.2)

/-- An access is refused as a whole where the domain of any of its registers is not ON (R483). -/
def spanCheck (q : Request) (s : State) : Option Ans := firstAns ((regAddrs q).map (domainCheck s))

/-- REG_READ (R144, R145). -/
def regReadAct (q : Request) (s : State) : State × Option Ans :=
  if isField (regBase q) then
    if !linkUp s then (s, refuse 0x11 0x03)
    else if (spanCheck q s).isSome then (s, refuse 0x13 0)
    else match barrierArena q ((regCount q + 3) / 4) s with
      | some r => r
      | none => (startRead (.request q) (BitVec.ofNat 24 (regBase q)) (regCount q) s, none)
  else guarded (spanCheck q s) s fun s =>
    let r := hostReads (regAddrs q) s
    (r.2, done (r.1.flatMap fun w => be 4 w.toNat))

def opRegRead : Op := { code := 0x7A, check := regReadCheck, life := regReadMode, act := regReadAct }

def execRegRead (q : Request) (s : State) : Out := .next (serve opRegRead q s)

/-- The registers a REG_WRITE names, with values and masks. -/
def regPuts (q : Request) : List RegPut :=
  (List.range (regCount q)).map fun i =>
    { addr := BitVec.ofNat 24 (regBase q + 4 * i), value := wordAt (reqBody q) (4 + 8 * i)
      mask := wordAt (reqBody q) (8 + 8 * i) }

/-- A field write is checked for its addresses at the host, for its values at the field (R82, R145). -/
def fieldAddrCheck (s : State) (a : Nat) : Option Ans :=
  paramCheck false s a 0 0 <|> (if (regDef a).any (fun d => d.acc = .ro) then refuse 0x21 0x0F else none)

def regWriteCheck (q : Request) (s : State) : Option Ans :=
  (if 4 ≤ (reqBody q).length && (reqBody q).length = 4 + 8 * regCount q then none else refuse 0x22 0) <|>
  param (inRange 1 32 (regCount q)) <|>
  (if isField (regBase q) then firstAns ((regAddrs q).map (fieldAddrCheck s))
   else firstAns ((regPuts q).map (hostPutCheck (regPuts q) s)))

/-- Step 9: DBG_CTRL needs a level above DBG0 (R403). -/
def regWriteLife (q : Request) (s : State) : Option Ans :=
  if (regAddrs q).contains 0x090004 && s.sec.level = 0 then refuse 0x12 0x2F else none

/-- REG_WRITE (R145). A scheduled field write acts through the writes its hand-over stored (R141); the
reply has the registers written (R156). -/
def regWriteAct (q : Request) (s : State) : State × Option Ans :=
  let ps := regPuts q
  if isField (regBase q) then
    if !linkUp s then (s, some { status := 0x11, detail := 0x03, data := [0] })
    else if (spanCheck q s).isSome then (s, some { status := 0x13, data := [0] })
    else match barrierArena q ps.length s with
      | some r => r
      | none => (startWrite (.request q) false 0 ps s, none)
  else guarded (firstAns (ps.map (hostStateCheck s))) s fun s => (hostWrite ps s, done [BitVec.ofNat 8 ps.length])

def opRegWrite : Op :=
  { code := 0x7B, check := regWriteCheck, life := regWriteLife, act := regWriteAct
    hand := fun q s => if isField (regBase q) then handWrite regPuts q s else s }

def execRegWrite (q : Request) (s : State) : Out := .next (serve opRegWrite q s)

/-- One register written, checked and applied or refused whole (R7, R144, R146); a field register needs the
barrier up and changes at a frame boundary (R84, R12). -/
def registerWrite (a : BitVec 24) (v m : Word) (s : State) : State :=
  let p : RegPut := { addr := a, value := v, mask := m }
  if s.modes.mode = .sand then s
  else if isField a.toNat then (if linkUp s && s.barr.fieldClock then (fieldWrite a.toNat v m (toFieldFrame s)).1 else s)
  else if a = 0x090004 && s.sec.level = 0 then s
  else if (hostPutCheck [p] s p <|> hostStateCheck s p).isSome then s
  else hostWrite [p] s

def execRegisterWrite (addr : BitVec 24) (value mask : Word) (s : State) : Out := .next (registerWrite addr value mask s)

end Sys2Proof.Machine
end

