-- ==== Sys2Proof/Machine/Transports.lean ====
section
/-! DEFINITION. How packets arrive: the chain's CMD and EVT frames (R94, R98, R99, R195), ISO 11783 transport
and native CAN FD (R133, R134), multi-part assembly (R129) and the memory of requests (R136); and what
becomes of scheduled and deferred requests (R127, R141, R156). -/

namespace Sys2Proof.Machine

/-! ## The opcodes -/

/-- The meaning of each opcode of Tables 06-4 to 06-17. -/
def opOf (n : Nat) : Option Op :=
  match n with
  | 0x00 => some opIdGet | 0x01 => some opModeSet | 0x02 => some opClayEnter | 0x03 => some opClayRelease
  | 0x04 => some opReset | 0x05 => some opStatusGet | 0x06 => some opCancel
  | 0x10 => some opEnumerate | 0x11 => some opChainGet | 0x12 => some opPinSet | 0x13 => some opMarlSend
  | 0x18 => some opTbRead | 0x19 => some opTbRealign
  | 0x20 => some opOchSet | 0x21 => some opOchTiming | 0x22 => some opOchEdges | 0x23 => some opOchClear
  | 0x24 => some opOchStatus | 0x25 => some opOchFlush
  | 0x30 => some opSwitchLine | 0x31 => some opSwitchClear | 0x32 => some opGeometrySet | 0x33 => some opLookaheadSet
  | 0x34 => some opLatencyGet | 0x35 => some opLatencySeed | 0x36 => some opMotionGet
  | 0x38 => some opSinRead | 0x39 => some opFanRestart
  | 0x40 => some opLoopCoef | 0x41 => some opLoopSwap | 0x42 => some opLoopCtrl | 0x43 => some opLoopTest
  | 0x44 => some opLoopRead
  | 0x48 => some opGnssGet | 0x49 => some opGnssAid | 0x4A => some opRtcmIn | 0x4B => some opSnapCapture
  | 0x4C => some opSnapXfer | 0x4D => some opSnapSolve | 0x4E => some opNmeaGet | 0x4F => some opBaselineGet
  | 0x50 => some opCanGet | 0x51 => some opCanMode | 0x52 => some opCanRecover | 0x53 => some opCanSend
  | 0x54 => some opCanCancel
  | 0x58 => some opEventRead | 0x59 => some opEventClose | 0x5A => some opSweepStart | 0x5B => some opSweepResult
  | 0x5C => some opSweepAbort | 0x5D => some opAsappliedRead
  | 0x60 => some opSetRead | 0x61 => some opSetWrite | 0x62 => some opSetCommit | 0x63 => some opSetDiscard
  | 0x68 => some opImgBegin | 0x69 => some opImgData | 0x6A => some opImgVerify | 0x6B => some opImgActivate
  | 0x6C => some opImgInfo
  | 0x70 => some opSecGet | 0x71 => some opDbgNonce | 0x72 => some opDbgUnlock | 0x73 => some opDbgLock
  | 0x74 => some opLcAdvance
  | 0x78 => some opPdSet | 0x79 => some opPdGet | 0x7A => some opRegRead | 0x7B => some opRegWrite
  | _ => none

/-- The meaning of an opcode byte; an undefined one only ever meets its refusal (R149). -/
def opFor (b : Byte) : Op := (opOf b.toNat).getD { code := b.toNat, check := fun _ _ => none, act := fun _ s => (s, none) }

/-! ## Counters and raw packets (R123, R124, Table 05-7) -/

/-- Change the packet counters of a transport. -/
def onCount (via : Via) (f : PktCnt → PktCnt) (s : State) : State :=
  let p := s.pkt
  match via with
  | .chain _ | .headHost => { s with pkt := { p with chain := f p.chain } }
  | .can .a _ => { s with pkt := { p with canA := f p.canA } }
  | .can .b _ => { s with pkt := { p with canB := f p.canB } }
  | .svc => { s with pkt := { p with svc := f p.svc } }
  | .planner => s

def countCrc (via : Via) (s : State) : State := onCount via (fun c => { c with crc := satInc c.crc }) s
def countDrop (via : Via) (s : State) : State := onCount via (fun c => { c with drop := satInc c.drop }) s

/-- The fields of a packet whose bytes the transport delimits (Table 05-1). -/
def packetOf (bs : List Byte) : Packet :=
  let f := byteAt bs 0
  { ver := f.extractLsb' 4 4, bcast := f.getLsbD 0, ackreq := f.getLsbD 1, sched := f.getLsbD 2, more := f.getLsbD 3
    opcode := byteAt bs 1, seq := BitVec.ofNat 16 (beAt bs 2 2), dest := BitVec.ofNat 16 (beAt bs 4 2)
    src := BitVec.ofNat 16 (beAt bs 6 2), chainId := (byteAt bs 8).extractLsb' 5 3, cls := (byteAt bs 8).extractLsb' 3 2
    ignored := (byteAt bs 8).extractLsb' 0 3, applyAt := BitVec.ofNat 48 (beAt bs 10 6), payload := (bs.drop 16).take (bs.length - 20) }

/-- The CRC in the last four bytes is right (R123). -/
def crcRight (bs : List Byte) : Bool :=
  decide (20 ≤ bs.length) && beAt bs (bs.length - 4) 4 == (crc32c (bs.take (bs.length - 4))).toNat

/-- PLEN fits the length the transport gives (R124). -/
def plenRight (bs : List Byte) : Bool := decide ((byteAt bs 9).toNat ≤ 232) && bs.length == 20 + (byteAt bs 9).toNat

/-! ## Multi-part assembly (R129) -/

/-- A packet that may follow the last part (log entry 12). -/
def follows (a b : Packet) : Bool :=
  b.seq == a.seq + 1 && b.opcode == a.opcode && b.dest == a.dest && b.bcast == a.bcast && b.sched == a.sched &&
  (!b.sched || b.applyAt == a.applyAt) && b.chainId == a.chainId && b.cls == a.cls

def ownAsm (via : Via) (src : BitVec 16) (a : Assembly) : Bool := a.via == via && a.last.src == src

/-- What a packet is to the assembly of its transport and SRC. -/
inductive Join where
  | single | part | whole (parts : List (List Byte)) | broken

/-- Join a packet to the open assembly, or open one where the opcode takes several parts. -/
def joinPart (via : Via) (multi : Bool) (p : Packet) (s : State) : Join × State :=
  let rest := s.pkt.asms.filter fun a => !ownAsm via p.src a
  match s.pkt.asms.find? (ownAsm via p.src) with
  | none =>
    if p.more && multi then
      let a : Assembly := { via := via, last := p, parts := [p.payload] }
      (.part, { s with pkt := { s.pkt with asms := rest ++ [a] } })
    else (.single, s)
  | some a =>
    let s := { s with pkt := { s.pkt with asms := rest } }
    if !(follows a.last p && decide (a.parts.length < 16)) then (.broken, s)
    else if p.more then
      let b : Assembly := { a with last := p, parts := a.parts ++ [p.payload] }
      (.part, { s with pkt := { s.pkt with asms := rest ++ [b] } })
    else (.whole (a.parts ++ [p.payload]), s)

/-- Step 6 and what follows it for a packet that passed steps 1 to 5; a part but the last is remembered and
gets no reply (R129, R348). -/
def assemble (q : Request) (s : State) : State :=
  let o := opFor q.pkt.opcode
  match joinPart q.via ((opInfo o.code).any (·.m)) q.pkt s with
  | (.single, s) => process o q s
  | (.whole ps, s) => process o { q with parts := ps } s
  | (.part, s) =>
    let s := storeReply q [] s
    if q.via = .svc then mailNoReply s else s
  | (.broken, s) => reply q { status := 0x22, detail := 0x10 } (countDrop q.via s)

/-- H-core takes a packet's bytes from a transport: steps 1 and 2, then the rest of Table 05-3. -/
def takeBytes (via : Via) (bs : List Byte) (s : State) : State :=
  if !crcRight bs then
    let s := countCrc via s
    if via = .svc then mailNoReply s else s
  else
    let q : Request := { via := via, pkt := packetOf bs }
    if q.pkt.ver == 1 && !plenRight bs then reply q { status := 0x22 } s else takeIn q (assemble q) s

/-- MULTIPART_TIMEOUT: the parts are discarded, with a reply for the last (R129). -/
def multipartTimeout (via : Via) (src : BitVec 16) (s : State) : State :=
  match s.pkt.asms.find? (ownAsm via src) with
  | none => s
  | some a =>
    let s := { s with pkt := { s.pkt with asms := s.pkt.asms.filter fun a => !ownAsm via src a } }
    reply { via := via, pkt := a.last } { status := 0x22, detail := 0x10 } (countDrop via s)

def execMultipartTimeout (via : Via) (src : BitVec 16) (s : State) : Out :=
  .next (if hcoreRuns s then multipartTimeout via src s else s)

/-- DUPLICATE_ENTRY_EXPIRY: the oldest remembered request has lived its 10 s (R136). -/
def execDuplicateEntryExpiry (s : State) : Out := .next { s with pkt := { s.pkt with dups := s.pkt.dups.drop 1 } }

/-! ## CMD frames (R94, R98, R99) -/

/-- The node consumes the frame (R98). -/
def consumes (f : ChainFrame) (s : State) : Bool :=
  f.chainId == s.chain.chainId &&
  (match f.amode.toNat with
    | 1 => true
    | 0 => s.chain.addrValid && f.dest == s.chain.addr
    | 3 => f.dest == s.chain.hop
    | _ => false)

/-- The frame enters RG4, which is written only while PD_HCORE is ON, or is counted where RG4 is full (R99, R373). -/
def enterRing (f : ChainFrame) (s : State) : State :=
  if !domOn s 1 then s
  else if 256 ≤ s.chain.rg4.length then countDrop (.chain 0) s
  else { s with chain := { s.chain with rg4 := s.chain.rg4 ++ [{ tb := s.clk.tb, frame := f }] } }

/-- The next entry of RG4: the most urgent class, in arrival order within it (R130). -/
def nextEntry : List RingFrame → Option RingFrame
  | [] => none
  | f :: fs =>
    match nextEntry fs with
    | none => some f
    | some g => if classBefore g.frame f.frame then some g else some f

/-- Take one entry of RG4 and serve its packet (R130). -/
def serveEntry (s : State) : State :=
  match nextEntry s.chain.rg4 with
  | none => s
  | some e =>
    if !hcoreRuns s then s
    else
      let s := { s with chain := { s.chain with rg4 := dropFirst (fun x => x == e) s.chain.rg4 } }
      takeBytes (if isHead s then .headHost else .chain e.frame.origHop) e.frame.payload s

/-- Serve what waits in RG4. -/
def drainCmds (s : State) : State := (List.range s.chain.rg4.length).foldl (fun s _ => serveEntry s) s

/-- CMD_FRAME on UP: counted where it is dropped, forwarded and, where this node is named, consumed; the step window
of a head ends when a CLAY_RELEASE of its host passes (R38, R93 to R98). -/
def cmdFrame (f : ChainFrame) (s : State) : State :=
  if !portUp .up s || f.ftype != 4 then s
  else
    let s := arrive .up f s
    if !actsHere .up f s then s
    else
      let s := if isHead s && byteAt f.payload 1 == 0x03 then { s with clk := { s.clk with window := false } } else s
      if consumes f s then drainCmds (enterRing f s) else s

def execCmdFrame (frame : ChainFrame) (s : State) : Out := .next (cmdFrame frame s)

/-! ## EVT frames (R94, R195, R302) -/

/-- A MEAS packet of a member, in one or several parts, is held at the head (R302). -/
def takeMeas (via : Via) (p : Packet) (s : State) : State :=
  let hold (bs : List Byte) (s : State) : State :=
    match aidRecs p.src 4096 bs with
    | .ok rs => if rs.all isMeas then rs.foldl (fun s r => aidAct r s) s else s
    | .error _ => s
  match joinPart via true p s with
  | (.single, s) => hold p.payload s
  | (.whole ps, s) => hold ps.flatten s
  | (_, s) => s

/-- A member's report of a break names the new tail (R114; log entry 46). -/
def breakReport (p : Packet) : Option Nat :=
  if p.opcode == 0xD8 && beAt p.payload 0 2 = 0x0304 && p.payload.length = 4 then some (beAt p.payload 2 2) else none

/-- EVT_FRAME on DN: counted where it is dropped and passed on; at the head of its chain ID it acts: MEAS records are
held, a break is reported and, under BUILTIN, reported edges mark coverage (R94, R95, R104, R114, R195; log entry
18). -/
def evtFrame (f : ChainFrame) (s : State) : State :=
  if !portUp .dn s || f.ftype != 6 then s
  else
    let s := arrive .dn f s
    if !(isHead s && actsHere .dn f s && f.chainId == s.chain.chainId && hcoreRuns s) then s
    else match parsePacket f.payload with
      | none => countCrc (.chain 0) s
      | some p =>
        if p.opcode == 0x49 then takeMeas (.chain f.origHop) p s
        else if (breakReport p).isSome then
          (if islandHead s then s else chainBreak ((breakReport p).getD 0) s)
        else if planner s == 1 then (Config.reportCells p.payload).foldl (fun s c => markCell c s) s
        else s

def execEvtFrame (frame : ChainFrame) (s : State) : Out := .next (evtFrame frame s)

/-! ## CAN transports (R133, R134) -/

/-- The packets of one ISO 11783 message: one, or every part of a multi-part request in order (R133). -/
def splitPackets : Nat → List Byte → List (List Byte)
  | 0, _ => []
  | _, [] => []
  | f + 1, b :: bs =>
    let l := b :: bs
    if !b.getLsbD 3 then [l]
    else
      let n := 20 + (byteAt l 9).toNat
      l.take n :: splitPackets f (l.drop n)

/-- CAN_TP_MESSAGE on PGN 61184: taken at the node's own claimed address in connection mode; a single frame or a
BAM is counted (R133). -/
def canTpMessage (port : CanPort) (sa da : Byte) (kind : TpKind) (bytes : List Byte) (s : State) : State :=
  if !isoRuns s || port != .a || s.canA.claim != .claimed then s
  else match kind with
    | .bam => countDrop (.can .a sa) s
    | .singleFrame => if da == s.canA.addr then countDrop (.can .a sa) s else s
    | .connection =>
      if da != s.canA.addr then s
      else (splitPackets 16 bytes).foldl (fun s b => if hcoreRuns s then takeBytes (.can .a sa) b s else s) s

def execCanTpMessage (port : CanPort) (sa da : Byte) (kind : TpKind) (bytes : List Byte) (s : State) : Out :=
  .next (canTpMessage port sa da kind bytes s)

def ownFd (port : CanPort) (node : Byte) (a : FdAsm) : Bool := a.port == port && a.node == node

/-- A partial packet is discarded, and one drop is counted for it, if it was not before. -/
def dropFd (port : CanPort) (node : Byte) (s : State) : State :=
  let own := s.pkt.fdAsms.filter (ownFd port node)
  let s := { s with pkt := { s.pkt with fdAsms := s.pkt.fdAsms.filter fun a => !ownFd port node a } }
  if own.any (fun a => !a.dead) then countDrop (.can port node) s else s

/-- A packet that lost a segment: one drop, and what is left of it up to LAST is passed over (R134). -/
def brokenFd (port : CanPort) (node : Byte) (last : Bool) (s : State) : State :=
  let s := dropFd port node s
  let a : FdAsm := { port := port, node := node, nextIdx := 0, need := 0, bytes := [], dead := true }
  if last then s else { s with pkt := { s.pkt with fdAsms := s.pkt.fdAsms ++ [a] } }

/-- A segment joins the packet it belongs to; LAST completes it (R134). -/
def joinFd (a : FdAsm) (last : Bool) (seg : List Byte) (s : State) : State :=
  let a := { a with nextIdx := a.nextIdx + 1, bytes := a.bytes ++ seg }
  let rest := s.pkt.fdAsms.filter fun x => !ownFd a.port a.node x
  if !last then { s with pkt := { s.pkt with fdAsms := rest ++ [a] } }
  else if a.bytes.length < a.need then countDrop (.can a.port a.node) { s with pkt := { s.pkt with fdAsms := rest } }
  else takeBytes (.can a.port a.node) (a.bytes.take a.need) { s with pkt := { s.pkt with fdAsms := rest } }

/-- CAN_FD_SEGMENT: a request segment for this node number on a port of profile FD (R134, Table 05-2). -/
def canFdSegment (port : CanPort) (id : BitVec 29) (data : List Byte) (s : State) : State :=
  let node := id.extractLsb' 0 8
  let mine := id.extractLsb' 19 8 == 0xB5#8 && !id.getLsbD 18 &&
    (id.extractLsb' 8 8).toNat == field (canReg port s 0) 15 8
  if !hcoreRuns s || !portLive port s || profile port s != 2 || (can port s).mode = .sleep || !mine || data.isEmpty then s
  else
    let h := byteAt data 0
    let seg := data.drop 1
    let idx := h.toNat % 64
    if h.getLsbD 7 then
      let s := dropFd port node s
      if idx != 0 then brokenFd port node (h.getLsbD 6) (countDrop (.can port node) s)
      else joinFd { port := port, node := node, nextIdx := 0, need := 20 + (byteAt seg 9).toNat, bytes := [] } (h.getLsbD 6) seg s
    else match s.pkt.fdAsms.find? (ownFd port node) with
      | none => brokenFd port node (h.getLsbD 6) (countDrop (.can port node) s)
      | some a =>
        if a.dead then (if h.getLsbD 6 then dropFd port node s else s)
        else if idx = a.nextIdx then joinFd a (h.getLsbD 6) seg s else brokenFd port node (h.getLsbD 6) s

def execCanFdSegment (port : CanPort) (id : BitVec 29) (data : List Byte) (s : State) : Out :=
  .next (canFdSegment port id data s)

def execFdSegmentTimeout (port : CanPort) (node : Byte) (s : State) : Out :=
  .next (if hcoreRuns s then dropFd port node s else s)

/-! ## Scheduled commands (R141, R156) -/

/-- Hand a command's field part over, 1,000 frames before its APPLY_AT (R141). -/
def handOver (c : SchedCmd) (s : State) : State :=
  let s := advanceTo (tickAt (c.q.pkt.applyAt - 1000) 0 s) s
  let sched := modFirst (fun x => x == c) (fun x => { x with handed := true }) s.pkt.sched
  (opFor c.q.pkt.opcode).hand c.q { s with pkt := { s.pkt with sched := sched } }

/-- SCHED_HANDOVER of the earliest command not handed over. -/
def execSchedHandover (s : State) : Out :=
  .next (match earliest (s.pkt.sched.filter fun c => !c.handed) with
    | some c => if hcoreRuns s then handOver c s else s
    | none => s)

/-- The WARN of a command that failed at its APPLY_AT (R24, R103, R141). -/
def warnFail (q : Request) (a : Ans) (s : State) : State :=
  if q.pkt.opcode == 0x03 then
    note .host (if a.detail == 0x05 then 0x0305 else 0x0001) 1 0xFF (a.data ++ [a.status, a.detail]) s
  else schedFail q a.status s

/-- The row of a scheduled command gives reply data, which a second reply carries (R156, Tables 06-4 to 06-17); that of
CLAY_RELEASE gives them on refusal only. -/
def secondReply (q : Request) (a : Ans) : Bool :=
  ([0x01, 0x02, 0x18, 0x20, 0x23, 0x78, 0x7B] : List Byte).contains q.pkt.opcode ||
  (q.pkt.opcode == 0x03 && isFailure a.status)

/-- The end of a scheduled command: its WARN if it failed, and its second reply where its row gives reply data (R24,
R141, R156). -/
def finishSched (q : Request) (warn : Bool) (a : Option Ans) (s : State) : State :=
  match a with
  | none => s
  | some a =>
    let s := if isFailure a.status && warn then warnFail q a s else s
    if secondReply q a then reply q a s else s

/-- The command acts through field writes, or the field part, that its hand-over stored. -/
def viaStored (q : Request) : Bool :=
  ([0x20, 0x21, 0x23, 0x25, 0x39, 0x42, 0x43] : List Byte).contains q.pkt.opcode ||
  (q.pkt.opcode == 0x7B && isField (beAt (reqBody q) 0 3))

/-- The stored writes of one frame act (R82). -/
def actStored (c : SchedCmd) (s : State) : State :=
  (s.barr.schedWrites.filter fun w => ownsWrite w c).foldl
    (fun s w => actSchedWrite w { s with barr := { s.barr with schedWrites := s.barr.schedWrites.erase w } }) s

/-- What became of the stored writes: all acted, one failed and was reported, or some never reached the field; a
command's field part has its own status and data (R84, R141, R145). -/
def storedOutcome (c : SchedCmd) : Ans × Bool :=
  match c.result with
  | some (st, d, bs) => ({ status := st, detail := d, data := bs }, c.failed.isNone)
  | none =>
  let n := if c.q.pkt.opcode == 0x7B then (byteAt (reqBody c.q) 3).toNat else 1
  let data := if c.q.pkt.opcode == 0x7B then [BitVec.ofNat 8 c.wrote] else []
  match c.failed with
  | some st => ({ status := st, data := data }, false)
  | none => if c.wrote < n then ({ status := 0x11, detail := 0x02, data := data }, true) else ({ data := data }, true)

/-- SCHED_ACT: the earliest command acts at tick 0 of its APPLY_AT frame (R12, R141). -/
def schedAct (s : State) : State :=
  match earliest s.pkt.sched with
  | none => s
  | some c =>
    if !hcoreRuns s then s
    else
      let s := if c.handed then s else handOver c s
      let s := advanceTo (tickAt c.q.pkt.applyAt 0 s) s
      let c := { c with handed := true }
      let s := if hasFieldPart c.q then actStored c s else s
      let c := (s.pkt.sched.find? fun x => x.q == c.q).getD c
      let s := { s with pkt := { s.pkt with
          sched := dropFirst (fun x => x.q == c.q) s.pkt.sched, acted := lastN 64 (s.pkt.acted ++ [c]) } }
      if viaStored c.q then
        let r := storedOutcome c
        let t := opAnswer c.q r.1.status r.1.detail r.1.data s
        finishSched c.q r.2 (some t.2) t.1
      else
        let o := opFor c.q.pkt.opcode
        let (s, a) := perform o c.q s
        let s := finishSched c.q true a s
        if a.any (fun a => isFailure a.status) then s else o.after c.q s

def execSchedAct (s : State) : Out := .next (schedAct s)

/-! ## Deferred requests (R127, R448, R450, R451) -/

/-- The entry with the earliest ticket. -/
def earliestTicket : List Deferred → Option Deferred
  | [] => none
  | d :: ds =>
    match earliestTicket ds with
    | none => some d
    | some e => if frameDiff e.ticket d.ticket < 0 then some e else some d

/-- The second reply of a request that waited for the barrier: served, or refused where its cells still do not
fit. -/
def serveBarrier (o : Op) (q : Request) (s : State) : State :=
  let (t, a) := perform o q s
  match a with
  | none => t
  | some a =>
    if a.status == 0x02 then
      reply q ((refuse 0x40 0x26).getD {}) { s with pkt := { s.pkt with barrRefused := satInc s.pkt.barrRefused } }
    else reply q a t

/-- The second reply of an OCH_SET whose channels waited for the stagger window, with its masks (R448). -/
def serveBudget (q : Request) (s : State) : State :=
  let m := deferredMasks (wordAt (reqBody q) 0) s
  reply q { status := if m.refused != 0 then 0x10 else 0, data := maskBytes m } s

/-- A request that waited for link time leaves, or is refused where the node may no longer issue frames into the chain
(R115, R127, R425; log entry 63). -/
def serveChain (q : Request) (s : State) : State :=
  if mayIssue s then forwardIn q s
  else if s.modes.mode = .sand then reply q { status := 0x51 } s
  else reply q { status := 0x11, detail := if isHead s then 0x22 else 0x04 } s

/-- DEFERRED_SERVE at the earliest ticket. -/
def deferredServe (s : State) : State :=
  match earliestTicket s.pkt.deferred with
  | none => s
  | some d =>
    if !hcoreRuns s then s
    else
      let s := advanceTo (tickAt d.ticket 0 s) s
      let s := { s with pkt := { s.pkt with deferred := s.pkt.deferred.erase d } }
      let o := opFor d.q.pkt.opcode
      match d.why with
      | .chain => if d.q.pkt.bcast then actOn o d.q s else serveChain d.q s
      | .barrier => serveBarrier o d.q s
      | .budget => serveBudget d.q s

def execDeferredServe (s : State) : Out := .next (deferredServe s)

end Sys2Proof.Machine
end

