-- ==== Sys2Proof/Machine/Service.lean ====
section
/-! DEFINITION. The service port (13): transfers, pages, the mailbox and its reply queue, and the attention
request; and the rows after which H-core takes what waited for it, wakes among them (R130, R373, R399). -/

namespace Sys2Proof.Machine

/-! ## What waited for H-core -/

/-- H-core takes the mailbox request; an impossible MB_LEN is a bad CRC (R135, R347). -/
def takeGo (s : State) : State :=
  if !(s.svc.goWaits && hcoreRuns s && domOn s 10) then s
  else
    let n := s.svc.mbLen.toNat
    let s := { s with svc := { s.svc with goWaits := false } }
    if n < 20 || 252 < n then mailNoReply (countCrc .svc s)
    else takeBytes .svc (readBytes sramByte s.svc.buf 4 n) s

/-- The waiting mailbox request comes before every CMD frame of RG4: by class, then by arrival (R130). -/
def goFirst (s : State) : Bool :=
  s.svc.goWaits &&
  (match nextEntry s.chain.rg4 with
    | none => true
    | some e =>
      let c := (look sramByte s.svc.buf 12).toNat / 8 % 4
      decide (c < e.frame.cls.toNat) || (c == e.frame.cls.toNat && decide (s.svc.goTb.toNat < e.tb.toNat)))

/-- H-core runs again: CMD frames of RG4 and a waiting mailbox request are served, in class order and in arrival order
within a class (R99, R130, R399). -/
def catchUp (s : State) : State :=
  (List.range (s.chain.rg4.length + 1)).foldl (fun s _ => if goFirst s then takeGo s else serveEntry s) s

def execBoot (s : State) : Out := .next (catchUp (boot s))
def execClockUngate (refCycles : Nat) (s : State) : Out := .next (catchUp (clockUngate refCycles s))
def execHcoreResume (s : State) : Out := .next (catchUp (resumeH s))
def execSessionExpiry (s : State) : Out := .next (catchUp (sessionExpiry s))

def execWake (src : WakeSrc) (reason : Byte) (s : State) : Out := .next (catchUp (wake src reason s))

def execDomainTransaction (micros : Nat) (s : State) : Out := .next (catchUp (domainTransaction micros s))

/-- MARL_FRAME: forwarded; the fourth valid one of a pattern that names the node wakes it (R119, R373). -/
def execMarlFrame (info : MarlInfo) (s : State) : Out :=
  .next (let (s, go) := marlCount info s
    if go then catchUp (wake .marl info.reason s) else s)

/-- Line energy on a port of a node with PD_CHAIN not ON (R120). -/
def execLineEnergyWake (port : ChainPort) (s : State) : Out :=
  .next (catchUp (wake (match port with | .up => .energyUp | .dn => .energyDn) 0 s))

def execFieldWakePulse (sin0 : Bool) (s : State) : Out := .next (catchUp (fieldWakePulse sin0 s))

def execTckWake (s : State) : Out := .next (catchUp (wake .tck 0 s))

def execKeyInRise (s : State) : Out := .next (catchUp (keyInRise s))

def execLsupRise (s : State) : Out := .next (catchUp (lsupRise s))

/-- CAN_WAKE_EDGE works in every power state (R319). -/
def execCanWakeEdge (port : CanPort) (s : State) : Out :=
  .next (catchUp (wake (match port with | .a => .canAEdge | .b => .canBEdge) 0 s))

/-! ## The mailbox (R135, R157, R346 to R349) -/

/-- The target answers its bus (R342). -/
def svcLive (s : State) : Bool := domOn s 10 && clockOn s

/-- MB_STAT (R346). -/
def mbStat (s : State) : Byte :=
  BitVec.ofNat 8 (b2n s.svc.busy + 2 * b2n s.svc.ready + 4 * b2n s.svc.overrun + 8 * b2n s.svc.noReply +
    16 * min 15 s.svc.heldReplies.length)

/-- GO: BUSY is set, READY and every unread reply go, and H-core, woken if need be, takes the request (R135,
R157, R346, R373). -/
def mailGo (s : State) : State :=
  let s := { s with svc := { s.svc with
    busy := true, ready := false, overrun := false, noReply := false, attnPend := false, wroteSince := false
    heldReplies := [], goWaits := true, goTb := s.clk.tb } }
  catchUp (if domOn s 1 then s else wake .mailboxGo 0 s)

/-- NEXT: the oldest held reply is loaded, or the mailbox is empty (R349). -/
def mailNext (s : State) : State :=
  match s.svc.heldReplies with
  | [] => { s with svc := { s.svc with ready := false, attnPend := false, mbLen := 0 } }
  | p :: ps => loadReply p { s with svc := { s.svc with ready := false, attnPend := false, heldReplies := ps } }

/-- A write of MB_CTRL: ATTN_EN, then GO or NEXT (R135, R346); while BUSY it is ignored (R349). -/
def mbCtrl (b : Byte) (s : State) : State :=
  if s.svc.busy then { s with svc := { s.svc with overrun := true } }
  else
    let s := { s with svc := { s.svc with attnEn := b.getLsbD 1 } }
    if b.getLsbD 0 then mailGo s else if b.getLsbD 2 then mailNext s else s

/-- A write of MB_LEN or of the buffer: READY clears; while BUSY it is ignored (R349). -/
def mbWrite (a : Nat) (b : Byte) (s : State) : State :=
  if s.svc.busy then { s with svc := { s.svc with overrun := true } }
  else
    let c := { s.svc with ready := false, attnPend := false, wroteSince := true }
    if a = 3 then { s with svc := { c with mbLen := b } }
    else { s with svc := { c with buf := store sramByte c.buf a b } }

/-! ## Transfers (R341 to R345) -/

/-- Page 0x00 from pointer 0x01 on (Table 13-2). -/
def page0 (s : State) : List Byte :=
  let gone := s.sec.life = .retired
  let clay := be 4 (idClay s).toNat
  let stat := be 4 (svcStat s).toNat
  let addr := be 2 s.chain.addr.toNat ++ be 1 (b2n s.chain.addrValid)
  be 4 (idMode s).toNat ++ (if gone then be 4 0 else clay) ++ be 8 s.id.serial.toNat ++
  [(match s.id.variant with | .g2 => 0 | .b => 1),
   (match s.sec.life with | .opened => 0 | .provisioned => 1 | .sealed' => 2 | .retired => 3),
   s.id.hostStep, s.id.fieldStep] ++
  (if gone then be 7 0 else stat ++ addr)

/-- A byte written at pointer a of the current page (R343, R344, R345, Table 13-1). -/
def putAt (a b : Byte) (s : State) : State :=
  if a = 0 then { s with svc := { s.svc with page := b.setWidth 6 } }
  else if s.svc.page != 0x3F || a = 2 then s
  else if a = 1 then mbCtrl b s
  else mbWrite a.toNat b s

/-- The byte read at pointer a of the current page. -/
def byteOf (snap : List Byte) (a : Byte) (s : State) : Byte :=
  if a = 0 then s.svc.page.setWidth 8
  else if s.svc.page = 0 then byteAt snap (a.toNat - 1)
  else if s.svc.page != 0x3F then 0
  else if a = 1 then BitVec.ofNat 8 (2 * b2n s.svc.attnEn)
  else if a = 2 then mbStat s
  else if a = 3 then s.svc.mbLen
  else look sramByte s.svc.buf a.toNat

/-- SCL falls while the target holds SDA: the request is withdrawn, and stays pending (R353). -/
def attentionWithdraw (s : State) : State :=
  if s.svc.sdaLow then { s with svc := { s.svc with sdaLow := false, cntWithdrawn := satInc s.svc.cntWithdrawn } }
  else s

/-- A STOP: the transfer ends, and a new DFILT takes effect (R351). -/
def busStop (s : State) : State :=
  { s with svc := { s.svc with active := false, filt := BitVec.ofNat 4 (field (reg s 0x060000) 3 0) } }

/-- The address byte names this target (R341). -/
def addressed (a : BitVec 7) (s : State) : Bool := a.toNat == 0x48 + s.svc.addr.toNat

def setPointer (a : Byte) (s : State) : State := { s with svc := { s.svc with pointer := a } }

/-- The bytes of a write transfer after its address (R343). -/
def writeData (bs : List Byte) (s : State) : State :=
  match bs with
  | [] => s
  | p :: bs => bs.foldl (fun s b => setPointer (s.svc.pointer + 1) (putAt s.svc.pointer b s)) (setPointer p s)

/-- I2C_WRITE_TRANSFER. -/
def i2cWrite (a : BitVec 7) (bs : List Byte) (s : State) : State :=
  if !svcLive s then s
  else
    let s := attentionWithdraw s
    if !addressed a s then busStop s
    else busStop (writeData bs { s with svc := { s.svc with active := true } })

def execI2cWriteTransfer (addr : BitVec 7) (bytes : List Byte) (s : State) : Out := .next (i2cWrite addr bytes s)

/-- A read of MB_STAT withdraws a request not yet sent (R352). -/
def mbStatRead (s : State) : State :=
  { s with svc := { s.svc with attnPend := false, lastRead := [mbStat s] } }

/-- I2C_READ_TRANSFER: n bytes from the pointer, page 0x00 as one snapshot; a read of the last byte of a reply takes the
reply (R343, R345, R368). -/
def i2cRead (a : BitVec 7) (n : Nat) (s : State) : State :=
  if !svcLive s then s
  else
    let s := attentionWithdraw s
    if !addressed a s then busStop s
    else
      let s := { s with svc := { s.svc with active := true } }
      let snap := page0 s
      let ps := (List.range n).map fun i => s.svc.pointer + BitVec.ofNat 8 i
      let mail := s.svc.page == 0x3F
      let seen := mail && ps.contains 2
      let last := mail && s.svc.ready && ps.contains (s.svc.mbLen + 3)
      busStop { s with svc := { s.svc with
        lastRead := ps.map fun p => byteOf snap p s
        pointer := s.svc.pointer + BitVec.ofNat 8 n
        attnPend := s.svc.attnPend && !seen, taken := s.svc.taken || last } }

def execI2cReadTransfer (addr : BitVec 7) (count : Nat) (s : State) : Out := .next (i2cRead addr count s)

/-! ## Bus errors (R354, R356) -/

def execI2cBusError (s : State) : Out :=
  .next (if svcLive s then
    let s := attentionWithdraw s
    { s with svc := { s.svc with active := false, cntErr := satInc s.svc.cntErr } }
  else s)

def execI2cStuck (s : State) : Out :=
  .next (if svcLive s then
    let s := attentionWithdraw s
    { s with svc := { s.svc with active := false, stuck := true, cntStuck := satInc s.svc.cntStuck } }
  else s)

/-! ## Mailbox commands and attention (R346 to R349, R352, R353) -/

/-- What a controller that writes this byte to MB_CTRL does. -/
def mbCommand (b : Byte) (s : State) : State := if svcLive s then mbCtrl b s else s

/-- MB_GO, with ATTN_EN as it stands. -/
def execMbGo (s : State) : Out := .next (mbCommand (if s.svc.attnEn then 3 else 1) s)

/-- MB_NEXT, with ATTN_EN as it stands. -/
def execMbNext (s : State) : Out := .next (mbCommand (if s.svc.attnEn then 6 else 4) s)

/-- MB_REPLY_ARRIVE: a reply of another node. -/
def execMbReplyArrive (pkt : Packet) (s : State) : Out := .next (mailReply pkt s)

def execMbStatRead (s : State) : Out := .next (if svcLive s then mbStatRead s else s)

/-- ATTENTION_SEND: both lines high for 100 µs, SDA is pulled low (R352). -/
def execAttentionSend (s : State) : Out :=
  .next (if svcLive s && s.svc.attnPend then { s with svc := { s.svc with sdaLow := true } } else s)

/-- ATTENTION_PULSE_END: SDA rises, and the request has been sent (R352). -/
def execAttentionPulseEnd (s : State) : Out :=
  .next (if s.svc.sdaLow then
    { s with svc := { s.svc with sdaLow := false, attnPend := false, cntAttn := satInc s.svc.cntAttn } }
  else s)

def execAttentionWithdraw (s : State) : Out := .next (attentionWithdraw s)

end Sys2Proof.Machine
end

