-- ==== Sys2Proof/Machine/Epoch.lean ====
section
/-! DEFINITION. The duties of an epoch edge (R14). -/

namespace Sys2Proof.Machine

/-- The current samples of the epoch that ends, then its output duties, while the field side is clocked
(R224, R227). -/
def epochField (samples : List (Fin 32 × BitVec 12)) (s : State) : State :=
  if !s.barr.fieldClock then s
  else epochOutputs (samples.foldl (fun s x => takeSample x.1 x.2 s) s)

/-- The records go to flash, if H-core runs and PD_FLASH is ON (R424, R434). -/
def epochFlash (s : State) : State := if hcoreRuns s && domOn s 4 then commitRecords s else s

/-- What H-core does at an epoch edge beside it: section times, the aiding broadcast (R192, R283). -/
def epochHost (peers : List PeerLook) (s : State) : State :=
  if hcoreRuns s then aidBroadcast (tcReport peers s) else s

/-- The TIME_MARK of the pulse that rises (R295, R296). -/
def epochMark (s : State) : State := if s.clk.pps then formMark s else s

/-- TB runs to the edge and the duties follow: the pulse and its mark, samples, the closing of records, the
flash write, the reports, the antenna bias, and the snapshot of the open records and of the counters that status
commands return (R14; log entries 19 and 64). -/
def epochEdge (peers : List PeerLook) (samples : List (Fin 32 × BitVec 12)) (s : State) : State :=
  if !clockOn s then s
  else
    let s := epochMark (epochBarrier (epochClock (toEdge 11 ticksPerEpoch s)))
    let s := epochFlash (closeEpoch (epochField samples s))
    let s := antennaEpoch (epochHost peers s)
    let snap : EpochSnap := {
      relocks := s.clk.relocks, failed := s.barr.failed, upBreaks := s.chain.upBreaks, dnBreaks := s.chain.dnBreaks
      errUp := s.chain.errUp, errDn := s.chain.errDn }
    { s with ev := { s.ev with openCounts := openRecords s, snap := snap } }

def execEpochEdge (peers : List PeerLook) (samples : List (Fin 32 × BitVec 12)) (s : State) : Out :=
  .next (epochEdge peers samples s)

end Sys2Proof.Machine
end

