-- ==== Sys2Proof/Machine/Dispatch.lean ====
section
/-! DEFINITION. The command to its meaning: one arm for each constructor of Instr. -/

namespace Sys2Proof.Machine

def exec (i : Instr) (s : State) : Host.Outcome State Fault Refusal :=
  match i with
  | .cellDetected mv temp => Sys2Proof.Machine.execCellDetected mv temp s
  | .chargerPhaseChange mv ma temp lsupOk => Sys2Proof.Machine.execChargerPhaseChange mv ma temp lsupOk s
  | .epochEdge peers samples => Sys2Proof.Machine.execEpochEdge peers samples s
  | .coldRelock why => Sys2Proof.Machine.execColdRelock why s
  | .dpllLockDetect lockRef => Sys2Proof.Machine.execDpllLockDetect lockRef s
  | .clockUngate refCycles => Sys2Proof.Machine.execClockUngate refCycles s
  | .tbCtrlWrite value mask => Sys2Proof.Machine.execTbCtrlWrite value mask s
  | .timeFrame info residence => Sys2Proof.Machine.execTimeFrame info residence s
  | .timeEchoSend sub => Sys2Proof.Machine.execTimeEchoSend sub s
  | .timeEchoRequest seq resid => Sys2Proof.Machine.execTimeEchoRequest seq resid s
  | .timeEchoAnswer seq sub resid => Sys2Proof.Machine.execTimeEchoAnswer seq sub resid s
  | .barrierLinkUp latency => Sys2Proof.Machine.execBarrierLinkUp latency s
  | .heartbeatSend side => Sys2Proof.Machine.execHeartbeatSend side s
  | .heartbeat hb => Sys2Proof.Machine.execHeartbeat hb s
  | .timeSync tb => Sys2Proof.Machine.execTimeSync tb s
  | .cellReject side why inMessage => Sys2Proof.Machine.execCellReject side why inMessage s
  | .cfgWrite cell => Sys2Proof.Machine.execCfgWrite cell s
  | .cfgRead tag addr count => Sys2Proof.Machine.execCfgRead tag addr count s
  | .cfgData tag status addr values => Sys2Proof.Machine.execCfgData tag status addr values s
  | .cfgResend tag => Sys2Proof.Machine.execCfgResend tag s
  | .safeReq causes => Sys2Proof.Machine.execSafeReq causes s
  | .barrCntclr value => Sys2Proof.Machine.execBarrCntclr value s
  | .symbolLock port => Sys2Proof.Machine.execSymbolLock port s
  | .symbolLockLoss port => Sys2Proof.Machine.execSymbolLockLoss port s
  | .idleSend port => Sys2Proof.Machine.execIdleSend port s
  | .idleFrame port info => Sys2Proof.Machine.execIdleFrame port info s
  | .partnerTimeout port => Sys2Proof.Machine.execPartnerTimeout port s
  | .frameForward port frame => Sys2Proof.Machine.execFrameForward port frame s
  | .cmdFrame frame => Sys2Proof.Machine.execCmdFrame frame s
  | .rplFrame frame => Sys2Proof.Machine.execRplFrame frame s
  | .evtFrame frame => Sys2Proof.Machine.execEvtFrame frame s
  | .enumWalkStart recheck => Sys2Proof.Machine.execEnumWalkStart recheck s
  | .enumStart info => Sys2Proof.Machine.execEnumStart info s
  | .enumClaim info => Sys2Proof.Machine.execEnumClaim info s
  | .enumVerdict info => Sys2Proof.Machine.execEnumVerdict info s
  | .enumEnd info => Sys2Proof.Machine.execEnumEnd info s
  | .enumDone info => Sys2Proof.Machine.execEnumDone info s
  | .marlFrame info => Sys2Proof.Machine.execMarlFrame info s
  | .lineEnergyWake port => Sys2Proof.Machine.execLineEnergyWake port s
  | .chCntclr value => Sys2Proof.Machine.execChCntclr value s
  | .canTpMessage port sa da kind bytes => Sys2Proof.Machine.execCanTpMessage port sa da kind bytes s
  | .canFdSegment port id data => Sys2Proof.Machine.execCanFdSegment port id data s
  | .fdSegmentTimeout port node => Sys2Proof.Machine.execFdSegmentTimeout port node s
  | .multipartTimeout via src => Sys2Proof.Machine.execMultipartTimeout via src s
  | .pktCntclr value => Sys2Proof.Machine.execPktCntclr value s
  | .idGet q => Sys2Proof.Machine.execIdGet q s
  | .modeSet q => Sys2Proof.Machine.execModeSet q s
  | .clayEnter q => Sys2Proof.Machine.execClayEnter q s
  | .clayRelease q => Sys2Proof.Machine.execClayRelease q s
  | .reset q => Sys2Proof.Machine.execReset q s
  | .statusGet q => Sys2Proof.Machine.execStatusGet q s
  | .cancel q => Sys2Proof.Machine.execCancel q s
  | .enumerate q => Sys2Proof.Machine.execEnumerate q s
  | .chainGet q => Sys2Proof.Machine.execChainGet q s
  | .pinSet q => Sys2Proof.Machine.execPinSet q s
  | .marlSend q => Sys2Proof.Machine.execMarlSend q s
  | .tbRead q => Sys2Proof.Machine.execTbRead q s
  | .tbRealign q => Sys2Proof.Machine.execTbRealign q s
  | .ochSet q => Sys2Proof.Machine.execOchSet q s
  | .ochTiming q => Sys2Proof.Machine.execOchTiming q s
  | .ochEdges q => Sys2Proof.Machine.execOchEdges q s
  | .ochClear q => Sys2Proof.Machine.execOchClear q s
  | .ochStatus q => Sys2Proof.Machine.execOchStatus q s
  | .ochFlush q => Sys2Proof.Machine.execOchFlush q s
  | .switchLine q => Sys2Proof.Machine.execSwitchLine q s
  | .switchClear q => Sys2Proof.Machine.execSwitchClear q s
  | .geometrySet q => Sys2Proof.Machine.execGeometrySet q s
  | .lookaheadSet q => Sys2Proof.Machine.execLookaheadSet q s
  | .latencyGet q => Sys2Proof.Machine.execLatencyGet q s
  | .latencySeed q => Sys2Proof.Machine.execLatencySeed q s
  | .motionGet q => Sys2Proof.Machine.execMotionGet q s
  | .sinRead q => Sys2Proof.Machine.execSinRead q s
  | .fanRestart q => Sys2Proof.Machine.execFanRestart q s
  | .loopCoef q => Sys2Proof.Machine.execLoopCoef q s
  | .loopSwap q => Sys2Proof.Machine.execLoopSwap q s
  | .loopCtrl q => Sys2Proof.Machine.execLoopCtrl q s
  | .loopStop slots => Sys2Proof.Machine.execLoopStop slots s
  | .loopRun slots => Sys2Proof.Machine.execLoopRun slots s
  | .loopReset slots => Sys2Proof.Machine.execLoopReset slots s
  | .loopTest q => Sys2Proof.Machine.execLoopTest q s
  | .loopRead q => Sys2Proof.Machine.execLoopRead q s
  | .loopClr slot value => Sys2Proof.Machine.execLoopClr slot value s
  | .gnssGet q => Sys2Proof.Machine.execGnssGet q s
  | .gnssAid q => Sys2Proof.Machine.execGnssAid q s
  | .rtcmIn q => Sys2Proof.Machine.execRtcmIn q s
  | .snapCapture q => Sys2Proof.Machine.execSnapCapture q s
  | .snapCaptureEnd samples gain1 gain5 => Sys2Proof.Machine.execSnapCaptureEnd samples gain1 gain5 s
  | .snapXfer q => Sys2Proof.Machine.execSnapXfer q s
  | .snapSolve q => Sys2Proof.Machine.execSnapSolve q s
  | .snapSolveDone sol => Sys2Proof.Machine.execSnapSolveDone sol s
  | .nmeaGet q => Sys2Proof.Machine.execNmeaGet q s
  | .baselineGet q => Sys2Proof.Machine.execBaselineGet q s
  | .canGet q => Sys2Proof.Machine.execCanGet q s
  | .canMode q => Sys2Proof.Machine.execCanMode q s
  | .canRecover q => Sys2Proof.Machine.execCanRecover q s
  | .canSend q => Sys2Proof.Machine.execCanSend q s
  | .canCancel q => Sys2Proof.Machine.execCanCancel q s
  | .eventRead q => Sys2Proof.Machine.execEventRead q s
  | .eventClose q => Sys2Proof.Machine.execEventClose q s
  | .sweepStart q => Sys2Proof.Machine.execSweepStart q s
  | .sweepResult q => Sys2Proof.Machine.execSweepResult q s
  | .sweepAbort q => Sys2Proof.Machine.execSweepAbort q s
  | .asappliedRead q => Sys2Proof.Machine.execAsappliedRead q s
  | .setRead q => Sys2Proof.Machine.execSetRead q s
  | .setWrite q => Sys2Proof.Machine.execSetWrite q s
  | .setCommit q => Sys2Proof.Machine.execSetCommit q s
  | .setDiscard q => Sys2Proof.Machine.execSetDiscard q s
  | .imgBegin q => Sys2Proof.Machine.execImgBegin q s
  | .imgData q => Sys2Proof.Machine.execImgData q s
  | .imgVerify q => Sys2Proof.Machine.execImgVerify q s
  | .imgActivate q => Sys2Proof.Machine.execImgActivate q s
  | .imgInfo q => Sys2Proof.Machine.execImgInfo q s
  | .secGet q => Sys2Proof.Machine.execSecGet q s
  | .dbgNonce q => Sys2Proof.Machine.execDbgNonce q s
  | .dbgUnlock q => Sys2Proof.Machine.execDbgUnlock q s
  | .dbgLock q => Sys2Proof.Machine.execDbgLock q s
  | .lcAdvance q => Sys2Proof.Machine.execLcAdvance q s
  | .pdSet q => Sys2Proof.Machine.execPdSet q s
  | .domainTransaction micros => Sys2Proof.Machine.execDomainTransaction micros s
  | .pdGet q => Sys2Proof.Machine.execPdGet q s
  | .regRead q => Sys2Proof.Machine.execRegRead q s
  | .regWrite q => Sys2Proof.Machine.execRegWrite q s
  | .registerWrite addr value mask => Sys2Proof.Machine.execRegisterWrite addr value mask s
  | .motionUpdate ready => Sys2Proof.Machine.execMotionUpdate ready s
  | .latencyMeasure ch on samples edgeMv sigMv => Sys2Proof.Machine.execLatencyMeasure ch on samples edgeMv sigMv s
  | .tcSetpoint sect on frame => Sys2Proof.Machine.execTcSetpoint sect on frame s
  | .schedEdge tag edges => Sys2Proof.Machine.execSchedEdge tag edges s
  | .edgeAck acks => Sys2Proof.Machine.execEdgeAck acks s
  | .schedEdgeResend tag => Sys2Proof.Machine.execSchedEdgeResend tag s
  | .edgeExecute ch => Sys2Proof.Machine.execEdgeExecute ch s
  | .generatorEdge ch => Sys2Proof.Machine.execGeneratorEdge ch s
  | .periodBoundary ch => Sys2Proof.Machine.execPeriodBoundary ch s
  | .calMeasure spanOk tap => Sys2Proof.Machine.execCalMeasure spanOk tap s
  | .overcurrentTrip ch sample => Sys2Proof.Machine.execOvercurrentTrip ch sample s
  | .shortCircuitTrip ch => Sys2Proof.Machine.execShortCircuitTrip ch s
  | .tripInput k level => Sys2Proof.Machine.execTripInput k level s
  | .overtempTrip ch => Sys2Proof.Machine.execOvertempTrip ch s
  | .blankingEnd ch sample => Sys2Proof.Machine.execBlankingEnd ch sample s
  | .inrushEnd ch => Sys2Proof.Machine.execInrushEnd ch s
  | .tripRetry ch => Sys2Proof.Machine.execTripRetry ch s
  | .shortOffEnd ch => Sys2Proof.Machine.execShortOffEnd ch s
  | .overtempRelease ch => Sys2Proof.Machine.execOvertempRelease ch s
  | .countingPeriodEnd ch => Sys2Proof.Machine.execCountingPeriodEnd ch s
  | .peakPhaseEnd ch sample => Sys2Proof.Machine.execPeakPhaseEnd ch sample s
  | .holdChopOff ch sample => Sys2Proof.Machine.execHoldChopOff ch sample s
  | .lampMeasure ch samples => Sys2Proof.Machine.execLampMeasure ch samples s
  | .lampOffMeasure ch mv => Sys2Proof.Machine.execLampOffMeasure ch mv s
  | .ochCntclr value => Sys2Proof.Machine.execOchCntclr value s
  | .sinEdge n rising both stamp => Sys2Proof.Machine.execSinEdge n rising both stamp s
  | .sinUpdate means => Sys2Proof.Machine.execSinUpdate means s
  | .switchClassAccept n ohms => Sys2Proof.Machine.execSwitchClassAccept n ohms s
  | .wireOpenDetect n => Sys2Proof.Machine.execWireOpenDetect n s
  | .fanStall j => Sys2Proof.Machine.execFanStall j s
  | .openLimExpiry j => Sys2Proof.Machine.execOpenLimExpiry j s
  | .sinCntclr value => Sys2Proof.Machine.execSinCntclr value s
  | .loopSample slot fb => Sys2Proof.Machine.execLoopSample slot fb s
  | .loopSwapAct slot => Sys2Proof.Machine.execLoopSwapAct slot s
  | .loopCoefCell cell => Sys2Proof.Machine.execLoopCoefCell cell s
  | .coefApply slot => Sys2Proof.Machine.execCoefApply slot s
  | .coefAck acks => Sys2Proof.Machine.execCoefAck acks s
  | .loopCoefResend tag => Sys2Proof.Machine.execLoopCoefResend tag s
  | .acquisitionStart ch sat signal => Sys2Proof.Machine.execAcquisitionStart ch sat signal s
  | .trackingDump ch accum codePhase carrPhase write sameCycle => Sys2Proof.Machine.execTrackingDump ch accum codePhase carrPhase write sameCycle s
  | .carrierLock ch => Sys2Proof.Machine.execCarrierLock ch s
  | .carrierLockLoss ch => Sys2Proof.Machine.execCarrierLockLoss ch s
  | .gnssMeasure sigs => Sys2Proof.Machine.execGnssMeasure sigs s
  | .gnssSolution sol => Sys2Proof.Machine.execGnssSolution sol s
  | .baselineCompute recs => Sys2Proof.Machine.execBaselineCompute recs s
  | .burstEnd sol => Sys2Proof.Machine.execBurstEnd sol s
  | .timeDateMessage week tow => Sys2Proof.Machine.execTimeDateMessage week tow s
  | .gnssCntclr value => Sys2Proof.Machine.execGnssCntclr value s
  | .canFrameReceive port frame => Sys2Proof.Machine.execCanFrameReceive port frame s
  | .abrTimeout port => Sys2Proof.Machine.execAbrTimeout port s
  | .canTxStart port => Sys2Proof.Machine.execCanTxStart port s
  | .canArbLost port => Sys2Proof.Machine.execCanArbLost port s
  | .canBusError port kind tx tec r => Sys2Proof.Machine.execCanBusError port kind tx tec r s
  | .canFrameSent port => Sys2Proof.Machine.execCanFrameSent port s
  | .canRecoveryDone port => Sys2Proof.Machine.execCanRecoveryDone port s
  | .canModeApply port => Sys2Proof.Machine.execCanModeApply port s
  | .canWakeEdge port => Sys2Proof.Machine.execCanWakeEdge port s
  | .canLeaveSleep port => Sys2Proof.Machine.execCanLeaveSleep port s
  | .addressClaimed name sa => Sys2Proof.Machine.execAddressClaimed name sa s
  | .commandedAddress name addr => Sys2Proof.Machine.execCommandedAddress name addr s
  | .moStatRead port n => Sys2Proof.Machine.execMoStatRead port n s
  | .canCntclr port value => Sys2Proof.Machine.execCanCntclr port value s
  | .i2cWriteTransfer addr bytes => Sys2Proof.Machine.execI2cWriteTransfer addr bytes s
  | .i2cReadTransfer addr count => Sys2Proof.Machine.execI2cReadTransfer addr count s
  | .mbReplyArrive pkt => Sys2Proof.Machine.execMbReplyArrive pkt s
  | .svcCntclr value => Sys2Proof.Machine.execSvcCntclr value s
  | .wake src reason => Sys2Proof.Machine.execWake src reason s
  | .fieldWakePulse sin0 => Sys2Proof.Machine.execFieldWakePulse sin0 s
  | .dbgSel port level => Sys2Proof.Machine.execDbgSel port level s
  | .tapBoundaryScan instr => Sys2Proof.Machine.execTapBoundaryScan instr s
  | .dbgReq r => Sys2Proof.Machine.execDbgReq r s
  | .dbgData bytes => Sys2Proof.Machine.execDbgData bytes s
  | .secCntclr value => Sys2Proof.Machine.execSecCntclr value s
  | .fimgChunk offset bytes => Sys2Proof.Machine.execFimgChunk offset bytes s
  | .fimgDigestReady digest => Sys2Proof.Machine.execFimgDigestReady digest s
  | .eventMessage r => Sys2Proof.Machine.execEventMessage r s
  | .eventResend seq => Sys2Proof.Machine.execEventResend seq s
  | .fevClose id => Sys2Proof.Machine.execFevClose id s
  | .evtCntclr value => Sys2Proof.Machine.execEvtCntclr value s
  | .disagreeOn ch sample => Sys2Proof.Machine.execDisagreeOn ch sample s
  | .disagreeOff ch sample => Sys2Proof.Machine.execDisagreeOff ch sample s
  | .disagreeEnd ch => Sys2Proof.Machine.execDisagreeEnd ch s
  | .disconnectHoldExpiry ch sample => Sys2Proof.Machine.execDisconnectHoldExpiry ch sample s
  | .sweepSlotEnd v1 v2 v3 measured => Sys2Proof.Machine.execSweepSlotEnd v1 v2 v3 measured s
  | .captureData res => Sys2Proof.Machine.execCaptureData res s
  | .sweepCtrl msg => Sys2Proof.Machine.execSweepCtrl msg s
  | .holdPeriodStart ch => Sys2Proof.Machine.execHoldPeriodStart ch s
  | .tpSessionTimeout port peer => Sys2Proof.Machine.execTpSessionTimeout port peer s
  | .lsupRise => Sys2Proof.Machine.execLsupRise s
  | .lsupLoss => Sys2Proof.Machine.execLsupLoss s
  | .fsupUndervoltage => Sys2Proof.Machine.execFsupUndervoltage s
  | .fsupRestart => Sys2Proof.Machine.execFsupRestart s
  | .fsupLoss => Sys2Proof.Machine.execFsupLoss s
  | .boot => Sys2Proof.Machine.execBoot s
  | .keyInFall => Sys2Proof.Machine.execKeyInFall s
  | .keyInShutdown => Sys2Proof.Machine.execKeyInShutdown s
  | .keyInRise => Sys2Proof.Machine.execKeyInRise s
  | .shutdownRetry => Sys2Proof.Machine.execShutdownRetry s
  | .shutdownForce => Sys2Proof.Machine.execShutdownForce s
  | .cellRetentionLost => Sys2Proof.Machine.execCellRetentionLost s
  | .cellRemoved => Sys2Proof.Machine.execCellRemoved s
  | .ppsPulseEnd => Sys2Proof.Machine.execPpsPulseEnd s
  | .timeMarkSend => Sys2Proof.Machine.execTimeMarkSend s
  | .linkUpRetry => Sys2Proof.Machine.execLinkUpRetry s
  | .holdoverLimit => Sys2Proof.Machine.execHoldoverLimit s
  | .originStep => Sys2Proof.Machine.execOriginStep s
  | .tbNowLoRead => Sys2Proof.Machine.execTbNowLoRead s
  | .timeFrameInsert => Sys2Proof.Machine.execTimeFrameInsert s
  | .laneEnable => Sys2Proof.Machine.execLaneEnable s
  | .linkUpAbandon => Sys2Proof.Machine.execLinkUpAbandon s
  | .barrierLossHost => Sys2Proof.Machine.execBarrierLossHost s
  | .barrierLossField => Sys2Proof.Machine.execBarrierLossField s
  | .hostHeartbeatTimeout => Sys2Proof.Machine.execHostHeartbeatTimeout s
  | .fcoreStall => Sys2Proof.Machine.execFcoreStall s
  | .oneShotFire => Sys2Proof.Machine.execOneShotFire s
  | .oneShotRelease => Sys2Proof.Machine.execOneShotRelease s
  | .timeSyncSend => Sys2Proof.Machine.execTimeSyncSend s
  | .schedWriteAct => Sys2Proof.Machine.execSchedWriteAct s
  | .safeReqResend => Sys2Proof.Machine.execSafeReqResend s
  | .ownFrameInsert => Sys2Proof.Machine.execOwnFrameInsert s
  | .insertWaitExpiry => Sys2Proof.Machine.execInsertWaitExpiry s
  | .enumStallTimeout => Sys2Proof.Machine.execEnumStallTimeout s
  | .claimResend => Sys2Proof.Machine.execClaimResend s
  | .islandPolicyTimeout => Sys2Proof.Machine.execIslandPolicyTimeout s
  | .duplicateEntryExpiry => Sys2Proof.Machine.execDuplicateEntryExpiry s
  | .originEntryExpiry => Sys2Proof.Machine.execOriginEntryExpiry s
  | .schedHandover => Sys2Proof.Machine.execSchedHandover s
  | .schedAct => Sys2Proof.Machine.execSchedAct s
  | .deferredServe => Sys2Proof.Machine.execDeferredServe s
  | .loopTestGo => Sys2Proof.Machine.execLoopTestGo s
  | .loopTestAbort => Sys2Proof.Machine.execLoopTestAbort s
  | .setCommitDone => Sys2Proof.Machine.execSetCommitDone s
  | .imgEraseDone => Sys2Proof.Machine.execImgEraseDone s
  | .nonceExpiry => Sys2Proof.Machine.execNonceExpiry s
  | .sessionExpiry => Sys2Proof.Machine.execSessionExpiry s
  | .edgeHandover => Sys2Proof.Machine.execEdgeHandover s
  | .motionLost => Sys2Proof.Machine.execMotionLost s
  | .tcSectionAuto => Sys2Proof.Machine.execTcSectionAuto s
  | .operatorWorkEnable => Sys2Proof.Machine.execOperatorWorkEnable s
  | .staggerEnergise => Sys2Proof.Machine.execStaggerEnergise s
  | .captureEnd => Sys2Proof.Machine.execCaptureEnd s
  | .measSend => Sys2Proof.Machine.execMeasSend s
  | .burstStart => Sys2Proof.Machine.execBurstStart s
  | .rtcmStale => Sys2Proof.Machine.execRtcmStale s
  | .antShort => Sys2Proof.Machine.execAntShort s
  | .antOpen => Sys2Proof.Machine.execAntOpen s
  | .addressClaimStart => Sys2Proof.Machine.execAddressClaimStart s
  | .addrClaimComplete => Sys2Proof.Machine.execAddrClaimComplete s
  | .requestAddressClaimed => Sys2Proof.Machine.execRequestAddressClaimed s
  | .i2cBusError => Sys2Proof.Machine.execI2cBusError s
  | .i2cStuck => Sys2Proof.Machine.execI2cStuck s
  | .mbGo => Sys2Proof.Machine.execMbGo s
  | .mbNext => Sys2Proof.Machine.execMbNext s
  | .mbStatRead => Sys2Proof.Machine.execMbStatRead s
  | .attentionSend => Sys2Proof.Machine.execAttentionSend s
  | .attentionPulseEnd => Sys2Proof.Machine.execAttentionPulseEnd s
  | .attentionWithdraw => Sys2Proof.Machine.execAttentionWithdraw s
  | .tckWake => Sys2Proof.Machine.execTckWake s
  | .pwrfStatRead => Sys2Proof.Machine.execPwrfStatRead s
  | .fcoreHalt => Sys2Proof.Machine.execFcoreHalt s
  | .fcoreResume => Sys2Proof.Machine.execFcoreResume s
  | .hcoreHalt => Sys2Proof.Machine.execHcoreHalt s
  | .hcoreResume => Sys2Proof.Machine.execHcoreResume s
  | .tapReset => Sys2Proof.Machine.execTapReset s
  | .fimgClear => Sys2Proof.Machine.execFimgClear s
  | .fimgCheck => Sys2Proof.Machine.execFimgCheck s
  | .fimgStart => Sys2Proof.Machine.execFimgStart s
  | .eventHandle => Sys2Proof.Machine.execEventHandle s
  | .fdiscCtrlOpen => Sys2Proof.Machine.execFdiscCtrlOpen s
  | .fdiscCtrlClose => Sys2Proof.Machine.execFdiscCtrlClose s
  | .softStartEnd => Sys2Proof.Machine.execSoftStartEnd s
  | .timevalidExpiry => Sys2Proof.Machine.execTimevalidExpiry s
  | .internalHoldUpExhausted => Sys2Proof.Machine.execInternalHoldUpExhausted s
  | .wakeLogicSupplyLost => Sys2Proof.Machine.execWakeLogicSupplyLost s

end Sys2Proof.Machine
end

