-- ==== Sys2Proof/Machine/Step.lean ====
section
/-! DEFINITION. One step: the command at the front of the queue, or a tick of MCLK when none waits
(log entry 1). -/

namespace Sys2Proof.Machine

/-- A step takes the front command and runs it with the rest of the queue; on an empty queue TB
counts a tick while the clock tree runs, and a gated node idles. -/
def step (s : State) : Host.Outcome State Fault Refusal :=
  match s.pending with
  | c :: rest => exec c { s with pending := rest }
  | [] => .next (if clockOn s then advance 1 s else s)

/-- The state with the command that a table word spells in front of its queue; no word spells one. -/
def State.withFetchWord (s : State) (nbits w : Nat) : State :=
  match decodeTableWord nbits w with
  | some c => { s with pending := c :: s.pending }
  | none => s

end Sys2Proof.Machine
end

