-- ==== Sys2Proof/Safety.lean ====
section
/-! DEFINITION. The terms statements are written in: which parts of the state a step may change, when a command
completes, when a request reaches its opcode, and what counts as a safe node. -/

namespace Sys2Proof.Safety

open Sys2Proof.Machine

/-- The parts of the state, one for each field. -/
inductive Part where
  | pending | free | id | modes | regs | clk | barr | chain | pkt | out | sense | loop | gnss | canA | canB
  | svc | pwr | sec | fw | ev | sect
  deriving DecidableEq, Repr

/-- A part is the same in both states. -/
def same (p : Part) (s t : State) : Prop :=
  match p with
  | .pending => t.pending = s.pending
  | .free => t.free = s.free
  | .id => t.id = s.id
  | .modes => t.modes = s.modes
  | .regs => t.regs = s.regs
  | .clk => t.clk = s.clk
  | .barr => t.barr = s.barr
  | .chain => t.chain = s.chain
  | .pkt => t.pkt = s.pkt
  | .out => t.out = s.out
  | .sense => t.sense = s.sense
  | .loop => t.loop = s.loop
  | .gnss => t.gnss = s.gnss
  | .canA => t.canA = s.canA
  | .canB => t.canB = s.canB
  | .svc => t.svc = s.svc
  | .pwr => t.pwr = s.pwr
  | .sec => t.sec = s.sec
  | .fw => t.fw = s.fw
  | .ev => t.ev = s.ev
  | .sect => t.sect = s.sect

/-- The frame of a step: every part but those named is unchanged. -/
def Only (ps : List Part) (s t : State) : Prop := ∀ p, p ∉ ps → same p s t

/-- The command completes: exec answers a next state, of which P holds. -/
def Completes (c : Instr) (s : State) (P : State → Prop) : Prop := ∃ t, exec c s = .next t ∧ P t

/-- Channel n becomes c, and nothing else of the state changes. -/
def OneChannel (n : Fin 32) (c : Chan) (s t : State) : Prop :=
  t.out.ch[n] = c ∧ (∀ m : Fin 32, m ≠ n → t.out.ch[m] = s.out.ch[m]) ∧
  t = { s with out := { s.out with ch := t.out.ch } }

/-- An open record of the event is held by the side that raises it. -/
def Held (side : Side) (code : BitVec 16) (chan : Byte) (t : State) : Prop :=
  (match side with | .host => t.ev.host | .field => t.ev.field).any (sameSource code chan) = true

/-! ## Cells (R67 to R70) -/

/-- Cell c is at the front of RG6 and has the SEQ that the field side, which has a clock, expects. -/
def ArrivesDown (c : Cell) (s : State) : Prop :=
  linkUp s = true ∧ s.barr.fieldClock = true ∧ s.barr.hostNext = s.barr.fieldExpect ∧
  ∃ q rest, s.barr.rg6 = q :: rest ∧ q.cell = c

/-- The state in which the front cell of RG6 acts: TB at its arrival, and the cell accepted. -/
def takenDown (s : State) : State := seqDown s.barr.hostNext (passDown s)

/-- Message c is at the front of RG7, no cell of it was dropped, and its SEQ is the one the host expects. -/
def ArrivesUp (c : Cell) (s : State) : Prop :=
  linkUp s = true ∧ s.barr.fieldNext = s.barr.hostExpect ∧ s.barr.upPart = 0 ∧ s.barr.upBad = false ∧
  ∃ q rest, s.barr.rg7 = q :: rest ∧ q.cell = c

/-- The state in which the front message c of RG7 acts: TB at the arrival of its last cell, every cell accepted. -/
def takenUp (c : Cell) (s : State) : State := (List.range (cellsOf c)).foldl (fun s _ => seqUp s) s

/-! ## Requests (Table 05-3) -/

/-- The request passes steps 2 to 9 and 11 of Table 05-3 for opcode `code`, unscheduled: H-core runs, the
packet is whole, names this node alone or comes as a broadcast of the chain, is no duplicate, and the mode
and the lifecycle accept the opcode (R138, R21, R389). -/
def Reaches (code : Nat) (q : Request) (s : State) : Prop :=
  ∃ i, opInfo code = some i ∧ hcoreRuns s = true ∧ q.pkt.opcode = BitVec.ofNat 8 code ∧ checkFormat q = none ∧
    (forMe q s = true ∨ (q.pkt.bcast = true ∧ onChain q.via = true ∧ i.b = true)) ∧ otherChain q s = false ∧
    s.pkt.dups.find? (isDup q) = none ∧ ((q.parts = [] ∧ q.pkt.more = false) ∨ i.m = true) ∧
    checkMode i s = none ∧ checkLife code s = none ∧ q.pkt.sched = false ∧ i.must = false

/-- The request reaches its opcode, and flag H accepts it (R152). -/
def Accepted (code : Nat) (q : Request) (s : State) : Prop :=
  Reaches code q s ∧ (opInfo code).bind (fun i => checkHead i s) = none

/-- The state in which an accepted request is served: it is remembered and counted (R136, Table 05-7). -/
def taken (q : Request) (s : State) : State := countAccepted q.via (remember q s)

/-- The accepted request is answered with a, in a state that differs from s by the request's own effect f. -/
def Answers (c : Instr) (q : Request) (s : State) (f : State → State) (a : Ans) : Prop :=
  exec c s = .next (reply q a (f (taken q s)))

/-- The last thing the step did was to answer the request with a. -/
def Answered (q : Request) (a : Ans) (t : State) : Prop := ∃ u, t = reply q a u

/-- The parts that serving a request with a reply may change, with those of its own effect. -/
def Served (ps : List Part) (s t : State) : Prop := Only (.chain :: .pkt :: .svc :: ps) s t

/-! ## Commands of flag F (R84, R154) -/

/-- Command c, whose whole effect is on the field side, is refused while the barrier is down, and else crosses as one
cell with a fresh TAG; its reply follows the field's answer (log entry 13). -/
def Crosses (c : Instr) (code : Byte) (q : Request) (s : State) : Prop :=
  let o : FieldOp := ⟨code, reqBody q⟩
  (linkUp s = false → Answers c q s id { status := 0x11, detail := 0x03 }) ∧
  (linkUp s = true → s.barr.rg6Held = [] → s.barr.rg6.length < 128 → Completes c s fun t =>
    t.barr.txns = s.barr.txns ++
      [{ tag := s.barr.nextTag, why := .request q, isWrite := true, sends := 1, op := some o }] ∧
    t.barr.rg6 = s.barr.rg6 ++
      [queued (.cfgWrite { tag := s.barr.nextTag, addr := 0, value := 0, mask := 0, op := some o }) s] ∧
    t.barr.nextTag = nextTagOf s.barr.nextTag ∧ Served [.barr] s t)

/-- The field part o of a command, which is not scheduled, arrives at the field side for the first time in cell c. -/
def PartArrives (o : FieldOp) (c : CfgWriteCell) (s : State) : Prop :=
  ArrivesDown (.cfgWrite c) s ∧ c.sched = false ∧ c.op = some o ∧ s.barr.tagMem.find? (fun m => m.1 == c.tag) = none

/-- The state in which it acts: the next frame boundary of the field side (R12). -/
def partState (s : State) : State := toFieldFrame (takenDown s)

/-- The field side has answered cell c last. -/
def Acks (c : CfgWriteCell) (status detail : Byte) (data : List Byte) (t : State) : Prop :=
  t.barr.rg7.getLast?.map (·.cell) = some (.cfgData c.tag status (detail.setWidth 24) (dataWords data))

/-! ## Safe nodes -/

/-- Nothing is commanded on: gate off, override and generator cleared, no edge stored (R229). -/
def Quiet (c : Chan) : Prop := c.gate = false ∧ c.ovr = .none ∧ c.gen = false ∧ c.queue = []

/-- A node in Clay holds every channel quiet (R22, R229). -/
def ClayQuiet (s : State) : Prop := s.modes.clay = true → ∀ n : Fin 32, Quiet s.out.ch[n]

/-- The field side is in Clay in Sand and Silt, held there by cause 8 once the node has booted, and while the
barrier link is not up, held there by cause 2 where the field domains are ON (R10, R24, Table 01-6). -/
def ClayHeld (s : State) : Prop :=
  (s.modes.mode ≠ .loam → s.modes.clay = true ∧ (s.modes.booted = true → s.modes.active.getLsbD 8 = true)) ∧
  (s.barr.link ≠ .up → s.modes.clay = true ∧ (fieldDomainsOn s = true → s.modes.active.getLsbD 2 = true))

/-- Each event queue holds at most 64 records (R432, R433). -/
def Bounded (s : State) : Prop := s.ev.host.length ≤ 64 ∧ s.ev.field.length ≤ 64 ∧ s.ev.mirror.length ≤ 64

/-- Every store keeps its one canonical form. -/
def Canonical (s : State) : Prop :=
  canon (regReset s.id.variant) s.regs = true ∧ Memory.wf sramByte s.svc.buf ∧ Memory.wf sramByte s.fw.fsram ∧
  Memory.wf sramByte s.fw.fimgMem ∧ Memory.wf flashByte s.fw.slotA.mem ∧ Memory.wf flashByte s.fw.slotB.mem ∧
  Memory.wf sramByte s.gnss.snap ∧ ∀ i : Fin 16, canon (fun _ => (0 : Int)) s.loop.slot[i].table = true

end Sys2Proof.Safety
end

