-- ==== Sys2Proof/Certificates/Slice0/Obligations.lean ====
section
/-! DEFINITION. The statements for the provers, in the terms of Sys2Proof.Safety. -/

open Sys2Proof Sys2Proof.Machine Sys2Proof.Safety

/-- A step takes the command at the front of the queue and runs it on the state with the rest of the queue, whatever
the command and the state. The model's own choices behind it: log entry 1. -/
def Obligations.StepTakesTheFrontCommand : Prop :=
  ∀ (c : Instr) (rest : List Instr) (s : State), s.pending = c :: rest → step s = exec c { s with pending := rest }

/-- R8, R22, R357, R391: right after reset nothing waits, the node is in Sand with the field side in Clay under cause
10, the barrier is down, every channel is quiet, the domains marked "boot" are ON, memory lists nothing, and the
registers stand at their reset values; these four invariants hold there. The model's own choices behind it: log
entries 3 and 5. -/
def Obligations.ResetLeavesTheStatedValues : Prop :=
  State.reset.pending = [] ∧ State.reset.modes.mode = .sand ∧ State.reset.modes.clay = true ∧
  idClay State.reset = 0x04000400 ∧ State.reset.barr.link = .down ∧ (∀ n : Fin 32, Quiet State.reset.out.ch[n]) ∧
  (∀ d : Fin 18, domOn State.reset d = decide (d = 0 ∨ d = 1 ∨ d = 3 ∨ d = 4 ∨ d = 10)) ∧ State.reset.regs = [] ∧
  reg State.reset 0x010000 = 0x0000000C ∧ reg State.reset 0x030008 = 0x00000005 ∧
  Canonical State.reset ∧ ClayQuiet State.reset ∧ ClayHeld State.reset ∧ Bounded State.reset

/-- Every step keeps the one canonical form of the register store, of the buffers, the flash slots, the snapshot
memory and the loop tables, so that equal contents are equal data. The model's own choices behind it: log entries 1
and 3. -/
def Obligations.EveryStepKeepsTheStoresCanonical : Prop :=
  ∀ s t : State, Canonical s → step s = .next t → Canonical t

/-- R22, R25, R208, R229: no step commands a channel on while the field side is in Clay: where a Clay field side holds
every gate off, every override and generator cleared and no edge stored, the state after any step does so too. The
model's own choices behind it: log entries 1 and 9. -/
def Obligations.EveryStepKeepsClayQuiet : Prop :=
  ∀ s t : State, ClayQuiet s → step s = .next t → ClayQuiet t

/-- R10, R24, R77: every step keeps the field side in Clay in Sand and Silt and while the barrier is not up, with the
cause that holds it there (cause 8 once booted, cause 2 with the field domains ON). The model's own choices behind it:
log entries 1 and 9. -/
def Obligations.EveryStepKeepsTheFieldInClayOutsideLoam : Prop :=
  ∀ s t : State, ClayHeld s → step s = .next t → ClayHeld t

/-- R432, R433: every step keeps each of the three event queues within its 64 records. The model's own choices behind
it: log entry 1. -/
def Obligations.EveryStepKeepsTheEventQueuesBounded : Prop :=
  ∀ s t : State, Bounded s → step s = .next t → Bounded t

/-- R28: a REG_WRITE of ID_MODE or ID_CLAY is refused with BAD_PARAM, and both registers keep their contents; so they
do under a single register write. -/
def Obligations.IdentityRegistersRefuseWrites : Prop :=
  ∀ (s : State) (a : Nat), (a = 0x000040 ∨ a = 0x000044) →
    (∀ q : Request, Accepted 0x7B q s → (reqBody q).length = 12 → regBase q = a → regCount q = 1 →
      Completes (.regWrite q) s fun t => (∃ d : Byte, Answered q { status := 0x21, detail := d } t) ∧
        readReg t 0x000040 = readReg s 0x000040 ∧ readReg t 0x000044 = readReg s 0x000044 ∧ Served [] s t) ∧
    (∀ v m : Word, Completes (.registerWrite (BitVec.ofNat 24 a) v m) s fun t => t = s)

/-- R152: an opcode with flag H (ENUMERATE, MARL_SEND, TB_REALIGN) that reaches a node not holding HEAD is refused
with REFUSED_STATE, NOT_HEAD_ROLE; on an island head it is refused with REFUSED_STATE, ISLAND. -/
def Obligations.HeadOpcodesNeedTheHead : Prop :=
  (∀ code, (∃ i, opInfo code = some i ∧ i.h = true) ↔ (code = 0x10 ∨ code = 0x13 ∨ code = 0x19)) ∧
  ∀ (q : Request) (s : State) (c : Instr),
    ((c = .enumerate q ∧ Reaches 0x10 q s ∧ (reqBody q).length = 1 ∧ (byteAt (reqBody q) 0).toNat ≤ 1) ∨
      (c = .marlSend q ∧ Reaches 0x13 q s ∧ (reqBody q).length = 6 ∧ (byteAt (reqBody q) 0).toNat ≤ 1) ∨
      (c = .tbRealign q ∧ Reaches 0x19 q s ∧ (reqBody q).length = 0)) →
    (isHead s = false → Answers c q s id { status := 0x11, detail := 0x21 }) ∧
    (islandHead s = true → Answers c q s id { status := 0x11, detail := 0x22 })

/-- R259: when UMIN exceeds UMAX the output of a sample is UMAX, and every output lies between min(UMIN, UMAX) and
UMAX of the words the sample used, each in the format of the OUT stage. -/
def Obligations.LoopOutputsStayWithinTheirLimits : Prop :=
  ∀ (l : Slot) (fb : Int) (k n : Nat) (lost held : Bool) (point : Option Nat) (d : Dy),
    let umin := coefVal l.active[(13 : Fin 17)]
    let umax := coefVal l.active[(14 : Fin 17)]
    let e := expOf l.active[(0 : Fin 17)] 4
    let r := law l fb k n lost held point d
    r.slot.uPrev = r.u ∧ (Dy.le umin umax = false → r.u = (stage umax e).1) ∧
    (stage (Dy.dmin umin umax) e).1 ≤ r.u ∧ r.u ≤ (stage umax e).1

/-- R347: a GO with MB_LEN below 20 or above 252 is treated as a packet with a bad CRC: it gets no reply, it is
counted in PKT_SVC[23:16], and it sets NOREPLY. -/
def Obligations.ImpossibleMailboxLengthsGetNoReply : Prop :=
  ∀ s : State, svcLive s = true → s.svc.busy = false → hcoreRuns s = true → s.chain.rg4 = [] →
    (s.svc.mbLen.toNat < 20 ∨ 252 < s.svc.mbLen.toNat) → Completes .mbGo s fun t =>
      t.svc.noReply = true ∧ t.svc.busy = false ∧ t.svc.ready = false ∧ t.svc.heldReplies = [] ∧ t.svc.buf = s.svc.buf ∧
      field (pktWord t.pkt.svc) 23 16 = min 255 (field (pktWord s.pkt.svc) 23 16 + 1) ∧
      readReg t 0x00008C = pktWord t.pkt.svc ∧ t.pkt = { s.pkt with svc := t.pkt.svc } ∧ Only [.svc, .pkt] s t

/-- R461: a wake source that fires while LSUP is below its start threshold is latched; it acts when LSUP passes the
start threshold, and PWR_WHY then names the first source that was latched. -/
def Obligations.LatchedWakesActAtLsup : Prop :=
  ∀ s : State, s.pwr.lsup = false → s.pwr.wakeLogic = true → s.chain.rg4 = [] → s.svc.goWaits = false →
    (∀ (w : WakeSrc) (r : Byte), wakeEnabled w s = true → Completes (.wake w r) s fun t =>
      t = { s with pwr := { s.pwr with wakeLatch := s.pwr.wakeLatch <|> some (w, r) } }) ∧
    (∀ (w : WakeSrc) (r : Byte), s.pwr.wakeLatch = some (w, r) → Completes .lsupRise s fun t =>
      t.pwr.lsup = true ∧ t.pwr.wakeLatch = none ∧ t.pwr.why = wakeCode w ∧ t.pwr.wakes = satInc s.pwr.wakes ∧
      t.pwr.dom[0] = .on ∧ t.pwr.dom[1] = .on)

/-- R150, R158, R164, R357: ID_GET, STATUS_GET, CHAIN_GET, TB_READ and PD_GET are answered DONE with the state they
name, the counters of the status commands as they stood at the latest epoch edge (R14); nothing changes but the record
of the request and its reply. R38, R142, R164: CANCEL drops the earliest command
it names, is late after hand-over or at the command's frame, and finds nothing otherwise; TB_REALIGN announces an
origin step at a coming epoch edge, unless the node has no GPS time or the origin is aligned. The model's own choices
behind it: log entries 16 and 64. -/
def Obligations.QueriesAnswerAndCommandsAreWithdrawn : Prop :=
  (∀ (q : Request) (s : State), (reqBody q).length = 0 →
    (Accepted 0x00 q s → Answers (.idGet q) q s id { data := (be 8 s.id.serial.toNat ++
      [(match s.id.variant with | .g2 => 0 | .b => 1), s.id.hostStep, s.id.fieldStep] ++ verBytes s.id.hVer ++
      verBytes (if s.fw.fimgLoaded then s.id.fVer else ⟨0, 0, 0⟩) ++ [s.id.big, s.id.cig, s.id.ssv, BitVec.ofNat 8 (lifeCode s.sec.life)] ++
      be 4 (idMode s).toNat) }) ∧
    (Accepted 0x05 q s → Answers (.statusGet q) q s id { data := (be 4 (idMode s).toNat ++ be 4 (idClay s).toNat ++
      be 4 (tbStat (atEdge s)).toNat ++ be 4 (barrStat (atEdge s)).toNat ++ be 4 (chStat s).toNat ++
      s.ev.openCounts.map fun n => satTo 8 n) }) ∧
    (Accepted 0x11 q s → Answers (.chainGet q) q s id { data := (be 4 (chAddr s).toNat ++ be 4 (chHop s).toNat ++
      be 4 (chStat s).toNat ++ be 4 (chBreak (atEdge s)).toNat ++ be 4 (portErrWord s.ev.snap.errUp).toNat ++
      be 4 (portErrWord s.ev.snap.errDn).toNat ++ be 4 (s.clk.hopDly.setWidth 32 : Word).toNat) }) ∧
    (Accepted 0x18 q s → Answers (.tbRead q) q s id { data := (be 8 s.clk.tb.toNat ++ be 4 (tbStat s).toNat ++
      be 4 s.clk.originId.toNat ++ be 4 s.clk.resid.toNat ++ be 4 s.clk.slew.toNat ++ be 2 s.clk.gpsWeek.toNat ++
      be 3 s.clk.gpsSec.toNat) }) ∧
    (Accepted 0x79 q s → Answers (.pdGet q) q s id {
      data := (List.finRange 18).map fun d => BitVec.ofNat 8 (domCode s d) })) ∧
  (∀ (q : Request) (s : State),
    ((reqBody q).length = 4 → Accepted 0x06 q s →
      (∀ c : SchedCmd, earliest (s.pkt.sched.filter (cancels q)) = some c →
        (frameDiff c.q.pkt.applyAt (now s) ≤ 0 → Answers (.cancel q) q s id { status := 0x31 }) ∧
        (0 < frameDiff c.q.pkt.applyAt (now s) → (c.handed && hasFieldPart c.q) = true →
          Answers (.cancel q) q s id { status := 0x31, detail := 0x0C }) ∧
        (0 < frameDiff c.q.pkt.applyAt (now s) → (c.handed && hasFieldPart c.q) = false → c.q.pkt.opcode ≠ 0x5A →
          Answers (.cancel q) q s (fun u => { u with pkt := { u.pkt with
            sched := dropFirst (fun x => x == c) u.pkt.sched } }) {})) ∧
      (earliest (s.pkt.sched.filter (cancels q)) = none → s.pkt.acted.any (cancels q) = false →
        Answers (.cancel q) q s id { status := 0x21, detail := 0x0B })) ∧
    ((reqBody q).length = 0 → Accepted 0x19 q s →
      (s.gnss.timeValid = false ∨ s.gnss.sol = none →
        Answers (.tbRealign q) q s id { status := 0x11, detail := 0x28 }) ∧
      (∀ v, s.gnss.timeValid = true → s.gnss.sol = some v → s.clk.originGps = true →
        Answers (.tbRealign q) q s id { status := 0x11, detail := 0x29 }) ∧
      (∀ v, s.gnss.timeValid = true → s.gnss.sol = some v → s.clk.originGps = false →
        Completes (.tbRealign q) s fun t =>
          (∃ a : OriginStep, t.clk.announced = some a ∧
            a.epoch = BitVec.ofNat 32 ((s.clk.tb.toNat + ticksPerEpoch - 1) / ticksPerEpoch + 2) ∧
            a.d = BitVec.ofInt 32 (misalignment s v) ∧
            Answered q { data := be 4 a.epoch.toNat ++ be 4 a.d.toNat } t) ∧
          t.clk.tb = s.clk.tb ∧ Served [.clk] s t)))

/-- R22, R24, R25, R160, R161, R193, R195: CLAY_ENTER puts the field side into Clay under cause 3, with every channel
off; CLAY_RELEASE ends Clay when no cause but 3 and 10 holds and is refused with ID_CLAY.ACTIVE while one does; the
head's own planner keeps a release for 2,000 frames ahead at TC_SECTION_AUTO and OPERATOR_WORK_ENABLE. R12: the first
two act at the frame boundary after the acceptance. The model's own choices behind it: log entries 9, 50 and 51. -/
def Obligations.ClayEntersAndReleases : Prop :=
  ∀ s : State,
    (∀ q : Request, (reqBody q).length = 0 → Accepted 0x02 q s → Completes (.clayEnter q) s fun t =>
      t.modes.clay = true ∧ t.modes.active = s.modes.active ||| cause 3 ∧ t.clk = (toFrame s).clk ∧
      (ClayQuiet s → ∀ n : Fin 32, Quiet t.out.ch[n]) ∧
      Answered q { status := if contradicted 0xFFFFFFFF s then 0x41 else 0, data := be 4 (idClay t).toNat } t ∧
      Served [.modes, .clk, .barr, .out, .sense, .loop, .fw, .ev, .sect] s t) ∧
    (∀ q : Request, (reqBody q).length = 0 → Accepted 0x03 q s → plannerSource q s = true →
      s.chain.addrValid = true → s.clk.valid = true → fieldDomainsOn s = true → configuring s = false →
      (holdingCauses s = 0 → Completes (.clayRelease q) s fun t =>
        t.modes.clay = false ∧ (s.modes.clay = true → t.modes.active = 0) ∧
        t.clk.tb = (toFrame s).clk.tb ∧ (s.modes.clay = true → isHead s = true → t.clk.window = false)) ∧
      (holdingCauses s ≠ 0 → Answers (.clayRelease q) q s toFrame
        { status := 0x11, data := be 4 (s.modes.active.toNat * 65536) })) ∧
    (∀ p : Byte, arms p s = true → s.modes.mode = .loam → s.sec.life ≠ .retired → s.clk.valid = true →
      s.chain.addrValid = true → fieldDomainsOn s = true → configuring s = false → s.pkt.sched.length < 64 →
      s.pkt.dups = [] →
      (p = 0 → Completes .tcSectionAuto s fun t => t.sect.tcAuto = true ∧
        t.pkt.sched.any (fun c => c.q.via == .planner && c.q.pkt.opcode == 0x03 &&
          c.q.pkt.applyAt == now s + 2000) = true ∧ t.modes = s.modes ∧ t.out = s.out) ∧
      (p = 1 → s.sect.origin = none → s.gnss.sol = none → Completes .operatorWorkEnable s fun t =>
        t.sect.workOn = true ∧ t.pkt.sched.any (fun c => c.q.via == .planner && c.q.pkt.opcode == 0x03 &&
          c.q.pkt.applyAt == now s + 2000) = true ∧ t.modes = s.modes ∧ t.out = s.out))

/-- R20, R159, R162, R386: MODE_SET to Silt, to Loam where every condition holds, to Loam where one fails, and to Sand
with a request in the boot record and a reboot; RESET enters Clay under cause 3 and restarts the node. R385, R387,
R389, R392: LC_ADVANCE takes a node in Clay to the lifecycle state its token names and restarts it; a token that does
not match is refused and counted, and consumes the nonce. The model's own choices behind it: log entries 9 and 12. -/
def Obligations.ModesResetAndLifecycleByCommand : Prop :=
  (∀ (q : Request) (s : State),
    ((reqBody q).length = 1 → Accepted 0x01 q s →
      (byteAt (reqBody q) 0 = 1 → s.modes.mode = .loam → Completes (.modeSet q) s fun t =>
        t.modes.mode = .silt ∧ t.modes.siltWhy = 4 ∧ t.modes.clay = true ∧ t.modes.active = s.modes.active ||| cause 8 ∧
        Answered q { data := [0] } t ∧ Served [.modes, .barr, .out, .sense, .loop, .fw, .ev, .sect] s t) ∧
      (byteAt (reqBody q) 0 = 1 → s.modes.mode = .silt → Answers (.modeSet q) q s id { data := [0] }) ∧
      (byteAt (reqBody q) 0 = 2 → s.modes.mode = .silt → loamCode s = 0 → Completes (.modeSet q) s fun t =>
        t.modes = { s.modes with mode := .loam, siltWhy := 0, active := s.modes.active &&& ~~~ cause 8 } ∧
        t.sec.rollback = Nat.max s.sec.rollback s.sec.epoch.toNat ∧ Answered q { data := [0] } t ∧
        Served [.modes, .barr, .sec, .fw, .ev] s t) ∧
      (byteAt (reqBody q) 0 = 2 → s.modes.mode = .silt → loamCode s ≠ 0 →
        Answers (.modeSet q) q s id { status := 0x11, data := [BitVec.ofNat 8 (loamCode s)] }) ∧
      (byteAt (reqBody q) 0 = 2 → s.modes.mode = .loam → Answers (.modeSet q) q s id { data := [0] }) ∧
      (byteAt (reqBody q) 0 = 0 → sandPermitted s = true → Completes (.modeSet q) s fun t =>
        t.fw.sandReq = true ∧ t.modes.clay = true ∧ t.modes.booted = false ∧ t.clk.tree = .relocking ∧
        t.sec.life = s.sec.life)) ∧
    ((reqBody q).length = 0 → Accepted 0x04 q s → Completes (.reset q) s fun t =>
      t.modes.clay = true ∧ t.modes.active.getLsbD 3 = true ∧ t.modes.active.getLsbD 10 = true ∧
      t.modes.booted = false ∧ t.clk.tree = .relocking ∧ t.clk.tb = 0 ∧ t.barr.link = .down ∧
      t.pkt.sched = [] ∧ t.pkt.dups = [] ∧ t.sec.session = none ∧ t.sec.level = lifeLevel s ∧
      t.sec.life = s.sec.life ∧ t.pending = s.pending ∧
      ∀ a : Nat, isField a = false → a ≠ 0x090004 → reg t a = regReset s.id.variant a)) ∧
  (∀ (q : Request) (s : State), Accepted 0x74 q s → lcAdvanceCheck q s = none → domOn s 3 = true →
    (let b := reqBody q
     let k := (byteAt b 0).toNat
     let ok := tokenOk ((b.drop 1).take 94) (b.drop 95) 2 4 s && (byteAt (b.drop 1) 1).toNat = k &&
       (k != 1 || byteAt (b.drop 1) 2 == 0)
     (ok = true → s.modes.clay = true → Completes (.lcAdvance q) s fun t =>
       t.sec.life = lifeOf k ∧ t.sec.nonce = none ∧ t.sec.session = none ∧ t.modes.booted = false ∧
       t.clk.tree = .relocking ∧ (k = 1 → t.sec.keyIntegrator = some (b.drop 95)) ∧
       (k = 3 → t.sec.secretIntact = false ∧ t.fw.asRing = [] ∧ t.ev.log = [])) ∧
     (ok = true → s.modes.clay = false → Answers (.lcAdvance q) q s
       (fun u => { u with sec := { u.sec with nonce := none } }) { status := 0x11, detail := 0x23 }) ∧
     (ok = false → Answers (.lcAdvance q) q s
       (fun u => { u with sec := { u.sec with nonce := none, cntToken := satInc u.sec.cntToken } })
       { status := 0x12, detail := 0x2E })))

/-- R385, R388, R391, R392: SEC_GET reports; DBG_NONCE draws a nonce (a free value) that lapses; DBG_UNLOCK sets the
level in OPEN and opens a session elsewhere under a token that matches; DBG_LOCK and the session's limit end it. The
model's own choices behind it: log entries 2, 6 and 32. -/
def Obligations.DebugSessionsOpenAndEnd : Prop :=
  ∀ (q : Request) (s : State),
    ((reqBody q).length = 0 → Accepted 0x70 q s → Answers (.secGet q) q s id { data :=
      [BitVec.ofNat 8 (lifeCode s.sec.life), BitVec.ofNat 8 s.sec.level.val, s.sec.epoch] ++ be 2 s.sec.rollback }) ∧
    ((reqBody q).length = 1 → Accepted 0x71 q s → domOn s 3 = true → ∀ l : Fin 5,
      byteAt (reqBody q) 0 = BitVec.ofNat 8 l.val → 1 ≤ l.val → (l.val ≤ ceiling s ∨ l.val = 4) →
      Answers (.dbgNonce q) q s
        (fun u => draw { u with sec := { u.sec with
          nonce := some { level := l, bytes := be 16 (Config.freeNonce s.free).toNat } } })
        { data := be 16 (Config.freeNonce s.free).toNat ++ be 8 s.id.serial.toNat }) ∧
    exec .nonceExpiry s = .next { s with sec := { s.sec with nonce := none } } ∧
    ((reqBody q).length = 94 → Accepted 0x72 q s → tokenForm (reqBody q) = true → ∀ l : Fin 5,
      byteAt (reqBody q) 1 = BitVec.ofNat 8 l.val → l.val ≤ ceiling s →
      (s.sec.life = .opened → Completes (.dbgUnlock q) s fun t =>
        t.sec.level = l ∧ t.sec.session = none ∧ t.sec.nonce = s.sec.nonce ∧
        Answered q { data := [byteAt (reqBody q) 1] } t ∧ Served [.modes, .barr, .canA, .canB, .sec, .ev] s t) ∧
      (s.sec.life ≠ .opened → domOn s 3 = true → tokenOk (reqBody q) [] 1 l.val s = true →
        Completes (.dbgUnlock q) s fun t =>
          t.sec.level = l ∧ t.sec.nonce = none ∧
          t.sec.session = some (BitVec.ofNat 11 (beAt (reqBody q) 4 2), byteAt (reqBody q) 2 == 1) ∧
          (s.sec.life = .sealed' → t.sec.zeroised = true ∧ t.fw.staging = none) ∧
          Answered q { data := [byteAt (reqBody q) 1] } t ∧
          Served [.modes, .barr, .canA, .canB, .sec, .fw, .ev] s t) ∧
      (s.sec.life ≠ .opened → domOn s 3 = true → tokenOk (reqBody q) [] 1 l.val s = false →
        Answers (.dbgUnlock q) q s
          (fun u => { u with sec := { u.sec with nonce := none, cntToken := satInc u.sec.cntToken } })
          { status := 0x12, detail := 0x2E })) ∧
    ((reqBody q).length = 0 → Accepted 0x73 q s → Completes (.dbgLock q) s fun t =>
      t.sec.level = 0 ∧ t.sec.session = none ∧ (0 < s.sec.level.val → t.sec.fHalt = false ∧ t.sec.hHalt = false ∧
        ∀ a ∈ t.sec.attach, a.2 = 0) ∧ Served [.modes, .barr, .canA, .canB, .sec, .ev] s t) ∧
    (s.sec.session.isSome = true → clockOn s = true → s.chain.rg4 = [] → s.svc.goWaits = false →
      Completes .sessionExpiry s fun t =>
        t.sec.level = 0 ∧ t.sec.session = none ∧ t.clk = (advanceTo s.sec.sessEnd s).clk ∧
        Only [.modes, .clk, .barr, .canA, .canB, .sec, .ev] s t)

/-- R390, R394 to R399, R402: an attach that Table 15-5 permits is made and one it does not is counted; the halts and
resumes of F-core (cause 0) and H-core; a boundary scan takes the pins and its end restarts the node; a debug request
over the barrier is answered with its data. The model's own choices behind it: log entries 9, 12, 32 and 35. -/
def Obligations.AttachesAndHalts : Prop :=
  ∀ s : State,
    (∀ (p : DbgPort) (l : Fin 5), l ≠ 0 → clockOn s = true →
      (mayAttach l s = true → (affected p l).all (domOn s) = true → exec (.dbgSel p l) s = .next { s with
        sec := { s.sec with attach := s.sec.attach.filter (fun a => a.1 != p) ++ [(p, l)] } }) ∧
      (mayAttach l s = false → exec (.dbgSel p l) s = .next { s with
        sec := { s.sec with cntIgnored := satInc s.sec.cntIgnored } })) ∧
    (attached .f 2 s = true → domOn s 13 = true → Completes .fcoreHalt s fun t =>
      t.sec = { s.sec with fHalt := true } ∧ t.modes.clay = true ∧ t.modes.active = s.modes.active ||| cause 0 ∧
      t.clk = (toFieldFrame s).clk ∧ (ClayQuiet s → ∀ n : Fin 32, Quiet t.out.ch[n])) ∧
    (s.sec.fHalt = true → exec .fcoreResume s = .next { s with
      sec := { s.sec with fHalt := false }
      modes := { s.modes with active := s.modes.active &&& ~~~ cause 0 } }) ∧
    (attached .h 3 s = true → domOn s 1 = true → clockOn s = true →
      exec .hcoreHalt s = .next { s with sec := { s.sec with hHalt := true } }) ∧
    (s.sec.hHalt = true → s.chain.rg4 = [] → s.svc.goWaits = false → exec .hcoreResume s = .next { s with
      sec := { s.sec with hHalt := false }
      canA := { s.canA with ring := [] }, canB := { s.canB with ring := [] } }) ∧
    (∀ i : ScanInstr, (3 ≤ s.sec.level.val → Completes (.tapBoundaryScan i) s fun t =>
        t.sec = { s.sec with scan := some i, hHalt := true } ∧ t.modes.clay = true ∧
        t.modes.active = s.modes.active ||| cause 3 ∧ t.chain.upLine = none ∧ t.chain.dnLine = none) ∧
      (s.sec.level.val < 3 → clockOn s = true → exec (.tapBoundaryScan i) s = .next { s with
        sec := { s.sec with cntIgnored := satInc s.sec.cntIgnored } })) ∧
    (s.sec.scan.isSome = true → Completes .tapReset s fun t =>
      t.sec.scan = none ∧ t.sec.hHalt = false ∧ t.modes.clay = true ∧ t.modes.booted = false ∧
      t.clk.tree = .relocking) ∧
    (∀ a : BitVec 20, ArrivesDown (.dbgReq (.readSram a)) s → attached .f 2 s = true → s.pwr.dom[(12 : Fin 18)] = .on →
      exec (.dbgReq (.readSram a)) s = .next (upCell (.dbgData [look sramByte s.fw.fsram a.toNat]) (takenDown s))) ∧
    (∀ r : DbgReq, linkUp s = true → attached .f 1 s = true → s.barr.rg6 = [] → s.barr.rg6Held = [] →
      s.barr.fieldClock = true → s.barr.hostNext = s.barr.fieldExpect →
      exec (.dbgReq r) s = .next (debugTaken r (takenDown (sendCell (.dbgReq r) s)))) ∧
    (∀ bytes : List Byte, ArrivesUp (.dbgData bytes) s → Completes (.dbgData bytes) s fun t =>
      t.barr.dbgBytes = bytes ∧ t.clk = (takenUp (.dbgData bytes) s).clk ∧ Only [.clk, .barr] s t)

/-- R163, R417 to R419: SET_READ answers the running value, SET_WRITE changes the staging copy only, SET_DISCARD
closes it, SET_COMMIT and PIN_SET start a commit of generation plus one, and its end puts both copies in place. The
model's own choices behind it: log entries 15 and 27. -/
def Obligations.SettingsAreStagedAndCommitted : Prop :=
  ∀ (q : Request) (s : State),
    (let k := beAt (reqBody q) 0 2
     (reqBody q).length = 2 → Accepted 0x60 q s → (itemLen k).isSome = true →
     (itemValue k s.fw.items s).length ≤ 230 → Answers (.setRead q) q s id { data := itemValue k s.fw.items s }) ∧
    (let k := beAt (reqBody q) 0 2
     Accepted 0x61 q s → s.sec.zeroised = false → setWriteCheck q s = none → domOn s 3 = true →
     (itemClay k = false ∨ s.modes.clay = true → Answers (.setWrite q) q s
       (fun u => { u with fw := { u.fw with staging := some (putKey k ((reqBody q).drop 2) (staged s)) } }) {}) ∧
     (itemClay k = true → s.modes.clay = false → Answers (.setWrite q) q s id { status := 0x11, detail := 0x23 })) ∧
    ((reqBody q).length = 0 → Accepted 0x63 q s → Answers (.setDiscard q) q s
      (fun u => { u with fw := { u.fw with staging := none } }) {}) ∧
    ((reqBody q).length = 0 → Accepted 0x62 q s → s.sec.zeroised = false → committing s = false →
      (s.fw.staging = none → Answers (.setCommit q) q s id { data := be 4 s.fw.gen.toNat }) ∧
      (∀ items, s.fw.staging = some items → domOn s 3 = true → domOn s 4 = true →
        exec (.setCommit q) s = .next { taken q s with fw := { s.fw with
          staging := none, commit := some { items := items, gen := s.fw.gen + 1, q := some q } } })) ∧
    (let v := [0, byteAt (reqBody q) 2] ++ (reqBody q).take 2
     (reqBody q).length = 3 → Accepted 0x12 q s → (byteAt (reqBody q) 2).toNat ≤ 1 → s.sec.zeroised = false →
     storeCheck s = none → exec (.pinSet q) s = .next { taken q s with fw := { s.fw with
       staging := s.fw.staging.map (putKey 0x0011 v)
       commit := some { items := putKey 0x0011 v (latestItems s), gen := s.fw.gen + 1, q := some q } } }) ∧
    (∀ c : Commit, s.fw.commit = some c → Completes .setCommitDone s fun t =>
      t.fw.commit = none ∧ t.fw.gen = c.gen ∧ t.fw.setValid = true ∧ t.fw.copyA = t.fw.copyB ∧
      t.fw.copyA = { good := true, gen := c.gen, ssv := s.id.ssv, items := c.items } ∧
      (∀ r : Request, c.q = some r → r.pkt.opcode ≠ 0x12 → Answered r { data := be 4 c.gen.toNat } t))

/-- R85, R121, R143, R298, R324, R356, R403, R456: each clear register of the host side clears the counters its 1 bits
name and no others. R230, R248, R278: OCH_CNTCLR, SIN_CNTCLR and LOOP_CLR clear the counters that their bits name, and
no level or count beside them. -/
def Obligations.AllClearRegistersClearTheirCounters : Prop :=
  (∀ (s : State) (v : Word),
    (domOn s 1 = true → Completes (.barrCntclr v) s fun t =>
      (bit v 0 = true → t.barr.hCrc = 0 ∧ t.barr.hSeq = 0 ∧ t.barr.hTyp = 0 ∧ t.barr.hMsg = 0) ∧
      (bit v 0 = false → t.barr.hCrc = s.barr.hCrc ∧ t.barr.hSeq = s.barr.hSeq ∧ t.barr.hTyp = s.barr.hTyp ∧
        t.barr.hMsg = s.barr.hMsg) ∧
      (bit v 1 = true → t.barr.mCrc = 0 ∧ t.barr.mSeq = 0 ∧ t.barr.mTyp = 0 ∧ t.barr.ferrClear = true) ∧
      (bit v 1 = false → t.barr.mCrc = s.barr.mCrc ∧ t.barr.mSeq = s.barr.mSeq ∧ t.barr.mTyp = s.barr.mTyp) ∧
      t.barr.tserr = (if bit v 2 then 0 else s.barr.tserr) ∧ t.barr.lossCnt = s.barr.lossCnt ∧
      t.barr.link = s.barr.link ∧ Only [.barr] s t) ∧
    (domOn s 11 = true → exec (.chCntclr v) s = .next { s with chain := { s.chain with
      errUp := if bit v 0 then {} else s.chain.errUp, errDn := if bit v 1 then {} else s.chain.errDn
      upBreaks := if bit v 2 then 0 else s.chain.upBreaks, dnBreaks := if bit v 2 then 0 else s.chain.dnBreaks } }) ∧
    exec (.pktCntclr v) s = .next { s with pkt := { s.pkt with
      chain := if bit v 0 then {} else s.pkt.chain, canA := if bit v 1 then {} else s.pkt.canA
      canB := if bit v 2 then {} else s.pkt.canB, svc := if bit v 3 then {} else s.pkt.svc
      schedMost := if bit v 4 then 0 else s.pkt.schedMost
      lateReplies := if bit v 4 then 0 else s.pkt.lateReplies } } ∧
    (domOn s 5 = true → exec (.gnssCntclr v) s = .next { s with gnss := { s.gnss with
      rtcmAcc := if bit v 0 then 0 else s.gnss.rtcmAcc, rtcmIgn := if bit v 0 then 0 else s.gnss.rtcmIgn
      rtcmBad := if bit v 1 then 0 else s.gnss.rtcmBad } }) ∧
    (∀ p : CanPort, domOn s (canDom p) = true → Completes (.canCntclr p v) s fun t =>
      can p t = { can p s with
        ovf := if bit v 0 then 0 else (can p s).ovf
        rxCnt := if bit v 1 then 0 else (can p s).rxCnt, txCnt := if bit v 1 then 0 else (can p s).txCnt
        eBit := if bit v 2 then 0 else (can p s).eBit, eStuff := if bit v 2 then 0 else (can p s).eStuff
        eCrc := if bit v 2 then 0 else (can p s).eCrc, eForm := if bit v 2 then 0 else (can p s).eForm
        busoffs := if bit v 3 then 0 else (can p s).busoffs } ∧
      Only [if p = .a then .canA else .canB] s t) ∧
    (domOn s 10 = true → exec (.svcCntclr v) s = .next { s with svc := { s.svc with
      stuck := if bit v 0 then false else s.svc.stuck
      cntStuck := if bit v 1 then 0 else s.svc.cntStuck, cntAttn := if bit v 1 then 0 else s.svc.cntAttn
      cntWithdrawn := if bit v 1 then 0 else s.svc.cntWithdrawn, cntErr := if bit v 1 then 0 else s.svc.cntErr } }) ∧
    (bit v 0 = true → exec (.secCntclr v) s = .next { s with sec := { s.sec with
      cntSig := 0, cntToken := 0, cntRollback := 0, cntIgnored := 0 } }) ∧
    (bit v 0 = false → exec (.secCntclr v) s = .next s) ∧
    (domOn s 1 = true → exec (.evtCntclr v) s = .next { s with ev := { s.ev with
      hostOvf := if bit v 0 then 0 else s.ev.hostOvf, mirrorOvf := if bit v 1 then 0 else s.ev.mirrorOvf } })) ∧
  (∀ (s : State) (v : Word),
    (domOn s 15 = true → domOn s 14 = true → Completes (.ochCntclr v) s fun t =>
      (∀ n : Fin 32, t.out.ch[n] = { s.out.ch[n] with
        tripPeriods := if bit v 0 then 0 else s.out.ch[n].tripPeriods
        shorts := if bit v 0 then 0 else s.out.ch[n].shorts, held := if bit v 2 then 0 else s.out.ch[n].held }) ∧
      (∀ i : Fin 4, t.out.tripCnt[i] = if bit v 1 then 0 else s.out.tripCnt[i]) ∧
      t = { s with out := { s.out with ch := t.out.ch, tripCnt := t.out.tripCnt } }) ∧
    (domOn s 17 = true → Completes (.sinCntclr v) s fun t =>
      (∀ n : Fin 16, t.sense.inp[n] = { s.sense.inp[n] with
        qerr := if bit v n.val then 0 else s.sense.inp[n].qerr
        cnt := if bit v n.val then 0 else s.sense.inp[n].cnt }) ∧
      t = { s with sense := { s.sense with inp := t.sense.inp } }) ∧
    (domOn s 16 = true → ∀ i : Fin 16, Completes (.loopClr i v) s fun t =>
      t.loop.slot[i] = { s.loop.slot[i] with
        sat := if bit v 0 then 0 else s.loop.slot[i].sat
        maxDly := if bit v 1 then 0 else s.loop.slot[i].maxDly
        satCnt := if bit v 1 then 0 else s.loop.slot[i].satCnt } ∧
      (∀ j : Fin 16, j ≠ i → t.loop.slot[j] = s.loop.slot[j]) ∧ Only [.loop] s t))

/-- R7, R8, R144 to R148: a read gives the words in order and changes nothing, a write sets all its registers to their
merged values or, where one is refused, none of them; an access to field registers goes over the barrier, and a single
field write acts at the field's next frame boundary (R12). R483: no access whose domains are not all ON. The model's
own choices behind it: log entry 13. -/
def Obligations.RegistersAreReadAndWritten : Prop :=
  ∀ (q : Request) (s : State),
    (Accepted 0x7A q s → regReadCheck q s = none → regReadMode q s = none → isField (regBase q) = false →
      (∀ a ∈ regAddrs q, domainCheck s a = none ∧ a ≠ 0x010008 ∧ objectAt a = none) →
      Answers (.regRead q) q s id { data := (regAddrs q).flatMap fun a => be 4 (readReg (taken q s) a).toNat }) ∧
    (Accepted 0x7A q s → regReadCheck q s = none → regReadMode q s = none → isField (regBase q) = true →
      (linkUp s = false → Answers (.regRead q) q s id { status := 0x11, detail := 0x03 }) ∧
      (linkUp s = true → spanCheck q s = none → s.barr.rg6Held = [] →
        s.barr.rg6.length + (regCount q + 3) / 4 ≤ 128 →
        exec (.regRead q) s = .next (startRead (.request q) (BitVec.ofNat 24 (regBase q)) (regCount q) (taken q s)))) ∧
    (Accepted 0x7B q s → regWriteCheck q s = none → regWriteLife q s = none → isField (regBase q) = false →
      (∀ p ∈ regPuts q, hostStateCheck s p = none) →
      Answers (.regWrite q) q s (hostWrite (regPuts q)) { data := [BitVec.ofNat 8 (regCount q)] }) ∧
    (Accepted 0x7B q s → regWriteCheck q s = none → regWriteLife q s = none → isField (regBase q) = true →
      linkUp s = true → spanCheck q s = none → s.barr.rg6Held = [] → s.barr.rg6.length + regCount q ≤ 128 →
      exec (.regWrite q) s = .next (startWrite (.request q) false 0 (regPuts q) (taken q s))) ∧
    (∀ (a : BitVec 24) (v m : Word), s.modes.mode ≠ .sand →
      (isField a.toNat = false → objectAt a.toNat = none →
        a.toNat ∉ [0x000094, 0x010000, 0x02001C, 0x030008, 0x030024, 0x040030, 0x050030, 0x040040, 0x06000C, 0x070000,
          0x070038, 0x090014, 0x0A000C] →
        (a ≠ 0x090004 ∨ s.sec.level ≠ 0) →
        (hostPutCheck [{ addr := a, value := v, mask := m }] s { addr := a, value := v, mask := m } = none →
          hostStateCheck s { addr := a, value := v, mask := m } = none →
          exec (.registerWrite a v m) s = .next (setReg a.toNat (merged s a.toNat v m) s)) ∧
        ((hostPutCheck [{ addr := a, value := v, mask := m }] s { addr := a, value := v, mask := m }).isSome = true ∨
          (hostStateCheck s { addr := a, value := v, mask := m }).isSome = true →
          exec (.registerWrite a v m) s = .next s)) ∧
      (isField a.toNat = true → linkUp s = true → s.barr.fieldClock = true →
        exec (.registerWrite a v m) s = .next (fieldWrite a.toNat v m (toFieldFrame s)).1) ∧
      (isField a.toNat = true → linkUp s = false ∨ s.barr.fieldClock = false → exec (.registerWrite a v m) s = .next s))

/-- R138, R149 to R153: whichever way a request comes in, an opcode the mode, the lifecycle or the node's place does
not allow, a broadcast it does not take and a part it cannot have are refused in the order of Table 05-3, with the
first refusal alone and no effect but the record of the request; shown on the commands of every group. The model's own
choices behind it: log entry 12. -/
def Obligations.EveryOpcodePassesTheSameChecks : Prop :=
  ∀ (q : Request) (s : State) (code : Nat) (c : Instr) (i : OpInfo),
    (code, c) ∈ ([(0x00, .idGet q), (0x01, .modeSet q), (0x02, .clayEnter q), (0x03, .clayRelease q), (0x05, .statusGet q),
      (0x10, .enumerate q), (0x12, .pinSet q), (0x18, .tbRead q), (0x20, .ochSet q), (0x22, .ochEdges q),
      (0x30, .switchLine q), (0x34, .latencyGet q), (0x38, .sinRead q), (0x40, .loopCoef q), (0x43, .loopTest q),
      (0x48, .gnssGet q), (0x4B, .snapCapture q), (0x50, .canGet q), (0x53, .canSend q), (0x58, .eventRead q),
      (0x5A, .sweepStart q), (0x60, .setRead q), (0x62, .setCommit q), (0x68, .imgBegin q), (0x6C, .imgInfo q),
      (0x70, .secGet q), (0x74, .lcAdvance q), (0x78, .pdSet q), (0x7A, .regRead q), (0x7B, .regWrite q)] :
        List (Nat × Instr)) →
    opInfo code = some i → q.pkt.opcode = BitVec.ofNat 8 code → hcoreRuns s = true → checkFormat q = none →
    forMe q s = true → otherChain q s = false → s.pkt.dups.find? (isDup q) = none →
    (((q.parts ≠ [] ∨ q.pkt.more = true) → i.m = false → Answers c q s id { status := 0x22, detail := 0x12 }) ∧
     (q.parts = [] → q.pkt.more = false →
       (s.modes.mode = .sand → i.sand = false → Answers c q s id { status := 0x51 }) ∧
       (s.modes.mode = .silt → i.silt = false → Answers c q s id { status := 0x50 }) ∧
       (checkMode i s = none → s.sec.life = .retired → code ∉ [0x00, 0x04, 0x6C, 0x70] →
         Answers c q s id { status := 0x12, detail := 0x2F })))

/-- R104, R105, R123, R124, R136, R138: a request of another version or an overlong one is refused; a member refuses a
request from CAN or the service port for another node; one the node remembers gets its stored replies again and does
not act again; one in progress is BUSY. R129, R133, R134, R136: an ISO 11783 message at the node's claimed address and
the segments of a native FD packet give the packet to the core, what comes otherwise is counted or dropped, and what
is left of an incomplete packet goes at its timeout. The model's own choices behind it: log entry 12. -/
def Obligations.TransportsDeliverPacketsJudgedAtTheDoor : Prop :=
  (∀ (q : Request) (s : State), q.pkt.opcode = 0x7B → hcoreRuns s = true → q.via ≠ .svc →
    (q.pkt.ver ≠ 1 → exec (.regWrite q) s = .next (reply q { status := 0x21, detail := 0x07 } s)) ∧
    (q.pkt.ver = 1 → 232 < q.pkt.payload.length → exec (.regWrite q) s = .next (reply q { status := 0x22 } s)) ∧
    (checkFormat q = none → isHead s = true → fromOutside q.via = true →
      q.pkt.chainId ≠ s.chain.chainId → exec (.regWrite q) s = .next s) ∧
    (checkFormat q = none → isHead s = false → fromOutside q.via = true → forMe q s = false →
      exec (.regWrite q) s = .next (reply q { status := 0x11, detail := 0x04 } s)) ∧
    (∀ d : DupEntry, checkFormat q = none → forMe q s = true → otherChain q s = false →
      s.pkt.dups.find? (isDup q) = some d →
      (d.finished = true → Completes (.regWrite q) s fun t =>
        t = d.replies.foldl (fun u p => routeReply q.via p u) s ∧ t.regs = s.regs ∧ t.barr = s.barr ∧
        t.modes = s.modes) ∧
      (d.finished = false → Completes (.regWrite q) s fun t =>
        t = (replyPackets q { status := 0x40, detail := 0x06 } s).foldl (fun u p => routeReply q.via p u) s ∧
        t.regs = s.regs ∧ t.barr = s.barr ∧ t.modes = s.modes))) ∧
  (∀ s : State,
    (∀ (sa : Byte) (bytes : List Byte), isoRuns s = true → s.canA.claim = .claimed →
      (∀ da : Byte, exec (.canTpMessage .a sa da .bam bytes) s = .next (countDrop (.can .a sa) s)) ∧
      (exec (.canTpMessage .a sa s.canA.addr .singleFrame bytes) s = .next (countDrop (.can .a sa) s)) ∧
      (hcoreRuns s = true → bytes ≠ [] → (byteAt bytes 0).getLsbD 3 = false →
        exec (.canTpMessage .a sa s.canA.addr .connection bytes) s = .next (takeBytes (.can .a sa) bytes s)) ∧
      (∀ da : Byte, da ≠ s.canA.addr → exec (.canTpMessage .a sa da .connection bytes) s = .next s)) ∧
    (∀ (p : CanPort) (id : BitVec 29) (h : Byte) (seg : List Byte),
      let node := id.extractLsb' 0 8
      hcoreRuns s = true → portLive p s = true → profile p s = 2 → (can p s).mode ≠ .sleep →
      id.extractLsb' 19 8 = 0xB5 → id.getLsbD 18 = false → (id.extractLsb' 8 8).toNat = field (canReg p s 0) 15 8 →
      s.pkt.fdAsms = [] → h.toNat % 64 = 0 → h.getLsbD 7 = true →
      let need := 20 + (byteAt seg 9).toNat
      (h.getLsbD 6 = false → Completes (.canFdSegment p id (h :: seg)) s fun t =>
        t.pkt.fdAsms = [{ port := p, node := node, nextIdx := 1, need := need, bytes := seg }] ∧ Only [.pkt] s t) ∧
      (h.getLsbD 6 = true → need ≤ seg.length →
        exec (.canFdSegment p id (h :: seg)) s = .next (takeBytes (.can p node) (seg.take need) s)) ∧
      (h.getLsbD 6 = true → seg.length < need →
        exec (.canFdSegment p id (h :: seg)) s = .next (countDrop (.can p node) s))) ∧
    (∀ (p : CanPort) (node : Byte) (a : FdAsm), hcoreRuns s = true → s.pkt.fdAsms = [a] → ownFd p node a = true →
      exec (.fdSegmentTimeout p node) s = .next (if a.dead then { s with pkt := { s.pkt with fdAsms := [] } }
        else countDrop (.can p node) { s with pkt := { s.pkt with fdAsms := [] } })) ∧
    (∀ a : Assembly, hcoreRuns s = true → s.pkt.asms = [a] →
      exec (.multipartTimeout a.via a.last.src) s = .next (reply { via := a.via, pkt := a.last }
        { status := 0x22, detail := 0x10 } (countDrop a.via { s with pkt := { s.pkt with asms := [] } }))) ∧
    exec .duplicateEntryExpiry s = .next { s with pkt := { s.pkt with dups := s.pkt.dups.drop 1 } })

/-- R127, R141, R142, R151, R156: a scheduled command is kept and answered ACCEPTED; it is handed over 1,000 frames
before its frame, acts at tick 0 of it and leaves the store; a deferred request is served at its ticket. The model's
own choices behind it: log entries 2, 13, 16 and 63. -/
def Obligations.ScheduledAndDeferredRequests : Prop :=
  ∀ s : State, hcoreRuns s = true →
    (∀ q : Request, q.pkt.opcode = 0x02 → checkFormat q = none → forMe q s = true → otherChain q s = false →
      s.pkt.dups.find? (isDup q) = none → q.parts = [] → q.pkt.more = false → s.modes.mode ≠ .sand →
      s.sec.life ≠ .retired → reqBody q = [] → q.pkt.sched = true → s.clk.valid = true →
      (400 ≤ frameDiff q.pkt.applyAt (now s) → frameDiff q.pkt.applyAt (now s) ≤ 86400000000 →
        s.pkt.sched.length < 64 → Completes (.clayEnter q) s fun t =>
          (∃ b : Bool, t.pkt.sched = s.pkt.sched ++ [{ q := q, handed := b }]) ∧ t.modes = s.modes ∧ t.out = s.out ∧
          Answered q { status := 0x01 } t ∧ Served [] s t) ∧
      (frameDiff q.pkt.applyAt (now s) < 400 → Answers (.clayEnter q) q s id { status := 0x30 }) ∧
      (86400000000 < frameDiff q.pkt.applyAt (now s) →
        Answers (.clayEnter q) q s id { status := 0x21, detail := 0x09 }) ∧
      (400 ≤ frameDiff q.pkt.applyAt (now s) → frameDiff q.pkt.applyAt (now s) ≤ 86400000000 →
        64 ≤ s.pkt.sched.length → Answers (.clayEnter q) q s id { status := 0x40, detail := 0x0A })) ∧
    (∀ c : SchedCmd, s.pkt.sched = [c] → c.q.pkt.opcode = 0x02 →
      (c.handed = false → Completes .schedHandover s fun t =>
        t.pkt.sched = [{ c with handed := true }] ∧
        t.clk = (advanceTo (tickAt (c.q.pkt.applyAt - 1000) 0 s) s).clk ∧ Only [.clk, .barr, .pkt] s t) ∧
      (c.handed = true → c.q.pkt.sched = true → Completes .schedAct s fun t =>
        t.pkt.sched = [] ∧ t.modes.clay = true ∧ t.modes.active.getLsbD 3 = true ∧
        t.clk = (advanceTo (tickAt c.q.pkt.applyAt 0 s) s).clk ∧
        (s.pkt.acted = [] → t.pkt.acted = [c]))) ∧
    (∀ d : Deferred, s.pkt.deferred = [d] → d.why = .budget → Completes .deferredServe s fun t =>
      t.pkt.deferred = [] ∧ t.clk = (advanceTo (tickAt d.ticket 0 s) s).clk ∧
      (∃ m : SetMasks, Answered d.q { status := if m.refused != 0 then 0x10 else 0, data := maskBytes m } t) ∧
      t.out = s.out ∧ t.modes = s.modes)

/-- R47, R48, R59: a loss of lock gates the clock tree, stops the barrier clock and keeps TB; a clock start from a
posture without a clock relocks with TB not kept. R48, R49, R51: lock on the reference found, or none and the tree
stays gated; 4,096 cycles later the tree runs, RELOCKS counts a relock, and TB is reloaded within 20 ticks of the
reference count. The model's own choices behind it: log entries 6, 16, 35 and 40. -/
def Obligations.TheClockTreeStopsAndStarts : Prop :=
  (∀ s : State,
    (clockOn s = true → ∀ w, w = RelockCause.phaseError ∨ w = .outOfRange → Completes (.coldRelock w) s fun t =>
      t.clk.tree = .relocking ∧ clockOn t = false ∧ t.clk.lock = false ∧ t.clk.tb = s.clk.tb ∧
      t.clk.refcnt = s.clk.refcnt ∧ t.clk.originId = s.clk.originId ∧ t.clk.originGps = s.clk.originGps ∧
      t.barr.link = .down ∧ t.barr.fieldClock = false ∧ t.modes.clay = true ∧
      Only [.modes, .clk, .barr, .chain, .pkt, .out, .sense, .loop, .canA, .canB, .svc, .sec, .fw, .ev, .sect] s t) ∧
    (∀ w, w = RelockCause.powerUp ∨ w = .wake →
      (s.clk.tree = .stopped ∨ (s.clk.tree = .relocking ∧ s.clk.countRelock = false) → Completes (.coldRelock w) s fun t =>
        t.clk.tree = .relocking ∧ t.clk.lock = false ∧ t.clk.tb = 0 ∧ t.clk.valid = false ∧ t.clk.originId = 0 ∧
        t.clk.originGps = false ∧ t.barr.link = .down ∧ t.barr.fieldClock = false ∧
        Only [.modes, .clk, .barr, .chain, .pkt, .out, .sense, .loop, .svc, .fw, .ev, .sect] s t) ∧
      (s.clk.tree ≠ .stopped → (s.clk.tree ≠ .relocking ∨ s.clk.countRelock = true) →
        exec (.coldRelock w) s = .next s))) ∧
  ((∀ s : State, s.clk.tree = .relocking ∨ s.clk.tree = .noReference →
    exec (.dpllLockDetect .tcxo) s = .next { s with clk := { s.clk with tree := .locked, lock := true, ref := .tcxo } } ∧
    (followsUp s = true → exec (.dpllLockDetect .chainUp) s =
      .next { s with clk := { s.clk with tree := .locked, lock := true, ref := .chainUp } }) ∧
    (followsUp s = false → exec (.dpllLockDetect .chainUp) s = .next s) ∧
    exec (.dpllLockDetect .noReference) s =
      .next { s with clk := { s.clk with tree := .noReference, ref := .none, noRef := true } }) ∧
  (∀ (s : State) (n : Nat), s.clk.tree = .locked → s.chain.rg4 = [] → s.svc.goWaits = false →
    Completes (.clockUngate n) s fun t =>
      clockOn t = true ∧ t.clk.refcnt = s.clk.refcnt + BitVec.ofNat 32 n ∧
      t.clk.relocks = (if s.clk.countRelock then satInc s.clk.relocks else s.clk.relocks) ∧
      (s.clk.countRelock = false → t.clk.tb = s.clk.tb) ∧
      (s.clk.countRelock = true → s.clk.refWasUp = false →
        ∃ e : Int, -20 ≤ e ∧ e ≤ 20 ∧ t.clk.tb = s.clk.tb + BitVec.ofInt 64 ((n : Int) * 20 + e)) ∧
      (s.clk.countRelock = true → s.clk.refWasUp = true → upClocked s = true → t.clk.valid = false) ∧
      (isHead s = true → s.modes.booted = true → t.clk.valid = true ∨ upClocked s = true) ∧
      Only [.free, .modes, .clk, .barr, .chain, .pkt, .out, .sense, .loop, .fw, .ev, .sect, .svc] s t))

/-- R41, R43, R58, R60, R288, R295: the timebase registers, the holdover limit, the age of a solution and the end of
the pulse. R52, R100, R101: the head's TIME frame, the forwarding of one, and the echo exchange that measures the hop
delay. The model's own choices behind it: log entries 2, 6, 16, 37 and 38. -/
def Obligations.TimebaseRegistersFramesAndEchoes : Prop :=
  (∀ s : State,
    exec .tbNowLoRead s = .next { s with clk := { s.clk with tbHi := (s.clk.tb >>> 32).setWidth 32 } } ∧
    (∀ v m : Word, s.modes.mode ≠ .sand → paramCheck true s 0x010000 v m = none →
      (s.modes.mode = .silt ∨ field (merged s 0x010000 v m) 1 0 = field (reg s 0x010000) 1 0) →
      Completes (.tbCtrlWrite v m) s fun t =>
        reg t 0x010000 = merged s 0x010000 v m ∧ t.clk.tb = s.clk.tb ∧ Only [.regs, .clk, .barr, .ev] s t) ∧
    (∀ v : Word, s.modes.mode = .silt → v.toNat < 16 → v.toNat % 4 ≤ 1 → Completes (.tbCtrlWrite v 0xFFFFFFFF) s fun t =>
      reg t 0x010000 = v ∧ t.clk.tb = s.clk.tb ∧ Only [.regs, .clk, .barr, .ev] s t) ∧
    (∀ v m : Word, s.modes.mode = .loam → field (merged s 0x010000 v m) 1 0 ≠ field (reg s 0x010000) 1 0 →
      exec (.tbCtrlWrite v m) s = .next s) ∧
    (s.clk.qual = .holdover → clockOn s = true → s.ev.host.length < 64 → Completes .holdoverLimit s fun t =>
      t.clk.qual = .degraded ∧ t.ev.host.any (sameSource 0x0102 0xFF) = true ∧ t.clk.tb = s.clk.tb ∧
      Only [.clk, .barr, .ev] s t) ∧
    (s.gnss.timeValid = true → Completes .timevalidExpiry s fun t =>
      t.gnss = { s.gnss with timeValid := false } ∧ t.clk.tb = s.clk.tb ∧
      (clockOn s = true → s.clk.ref = .gnss → bit (reg s 0x010000) 2 = true → upClocked s = false →
        t.clk.qual = .holdover) ∧ Only [.clk, .barr, .gnss, .ev] s t) ∧
    (s.clk.pps = true → clockOn s = true → Completes .ppsPulseEnd s fun t =>
      t.clk.pps = false ∧ t.clk.tb = (advanceTo (s.clk.tb.toNat / ticksPerEpoch * ticksPerEpoch +
        field (reg s 0x070014) 8 0 * 800000) s).clk.tb ∧ Only [.clk, .barr] s t)) ∧
  (∀ s : State, clockOn s = true → domOn s 11 = true →
    (isHead s = true → upClocked s = false → s.clk.valid = true → s.chain.dnPartner = true →
      Completes .timeFrameInsert s fun t =>
        t = outDown (timeFrameOf (ownTimeInfo (toEdge 5 800000 s))) (toEdge 5 800000 s)) ∧
    (∀ (i : TimeInfo) (r : Nat), s.chain.upLock = true → s.chain.upPartner ≠ .none → s.chain.dnPartner = true →
      Completes (.timeFrame i r) s fun t =>
        t.chain.dnLine = some (timeFrameOf { i with
          corr := i.corr + s.clk.hopDly.setWidth 32 + BitVec.ofNat 32 r
          hdr := { i.hdr with crc := passedCrc i.hdr.crc } }) ∧
        t.chain.errUp = countFrame i.hdr.crc true s.chain.errUp ∧
        Only [.free, .modes, .clk, .barr, .chain, .pkt, .out, .sense, .loop, .sec, .fw, .ev, .sect] s t) ∧
    (∀ sub : Byte, upClocked s = true →
      let u := advanceTo (nextEcho s) s
      exec (.timeEchoSend sub) s = .next (outUp (echoFrame [0, s.clk.echoSeq]) { u with clk := { u.clk with
        echoSeq := s.clk.echoSeq + 1, echoSent := min 64 (s.clk.echoSent + 1), echoAt := some u.clk.tb.toNat
        echoT1 := (s.clk.echoSeq, u.clk.tb.toNat * 256 + sub.toNat) ::
          s.clk.echoT1.filter (fun e => e.1 != s.clk.echoSeq) } })) ∧
    (∀ (q : Byte) (r : Word), s.chain.dnLock = true → exec (.timeEchoRequest q r) s =
      .next (outDown (echoFrame ([1, q] ++ be 4 r.toNat)) s)) ∧
    (∀ (q sub : Byte) (r : Word) (t1 : Nat), upClocked s = true → s.clk.echoT1.find? (fun e => e.1 == q) = some (q, t1) →
      exec (.timeEchoAnswer q sub r) s = .next { s with clk := { s.clk with
        hopDly := satTo 24 ((s.clk.tb.toNat * 256 + sub.toNat - t1 - r.toNat) * 125 / 512)
        echoes := min 64 (s.clk.echoes + 1)
        echoT1 := s.clk.echoT1.filter (fun e => e.1 != q) } }))

/-- R38, R39, R61, R116: at the announced edge TB moves by D, scheduled commands but CLAY_ENTER go and the node is in Clay
with origin GPS; at the island's policy timeout it is in Clay with cause 6. R53: on a TIME frame of another timebase
the node takes its identifier and steps TB to it, in Clay; on one of its own it keeps its count and its scheduled
commands; an island head performs no step. The model's own choices behind it: log entries 2, 16 and 39. -/
def Obligations.OriginStepsAndTimeFramesAlign : Prop :=
  (∀ s : State,
    (∀ a : OriginStep, s.clk.announced = some a → clockOn s = true → islandHead s = false → Completes .originStep s fun t =>
      t.clk.announced = none ∧ t.clk.originGps = true ∧ t.modes.clay = true ∧
      (s.modes.clay = false → t.modes.active.getLsbD 3 = true) ∧
      t.clk.tb = (advanceTo (s.clk.tb.toNat + (toEpoch s a.epoch).toNat) s).clk.tb + BitVec.ofInt 64 a.d.toInt ∧
      t.pkt.sched = s.pkt.sched.filter (fun c => c.q.pkt.opcode == 0x02) ∧
      Only [.modes, .clk, .barr, .chain, .pkt, .out, .sense, .loop, .sec, .fw, .ev, .sect] s t) ∧
    (islandHead s = true → exec .originStep s = .next s) ∧
    (∀ f : Frame48, s.chain.islandTimer = some f → Completes .islandPolicyTimeout s fun t =>
      t.modes.clay = true ∧ t.modes.active.getLsbD 6 = true ∧
      t.chain = { s.chain with islandTimer := none, policyExpired := true } ∧
      Only [.modes, .clk, .barr, .chain, .pkt, .out, .sense, .loop, .fw, .ev, .sect] s t)) ∧
  (∀ (s : State) (i : TimeInfo) (r : Nat), clockOn s = true → domOn s 11 = true → upClocked s = true →
    64 ≤ s.clk.echoes → i.island = false → s.chain.islandTimer = none → s.clk.valid = true →
    i.hdr.crc = .good → ownChain i.hdr s = true →
    let offset : Int := ((s.clk.tb.toNat : Int) * 125 -
      (i.tbTx.toNat * 125 + (i.corr + s.clk.hopDly.setWidth 32).toNat : Nat)) / 125
    (i.originId = s.clk.originId → Completes (.timeFrame i r) s fun t =>
      t.clk.tb = s.clk.tb ∧ t.clk.resid = satInt 32 ((s.clk.tb.toNat : Int) * 125 -
        (i.tbTx.toNat * 125 + (i.corr + s.clk.hopDly.setWidth 32).toNat : Nat)) ∧ t.clk.originId = s.clk.originId ∧ t.pkt = s.pkt ∧ t.modes = s.modes) ∧
    (i.originId ≠ s.clk.originId → Completes (.timeFrame i r) s fun t =>
      t.clk.tb = s.clk.tb + BitVec.ofInt 64 (-offset) ∧ t.clk.originId = i.originId ∧ t.clk.valid = true ∧
      t.pkt.sched = s.pkt.sched.filter (fun c => c.q.pkt.opcode == 0x02) ∧ t.modes.clay = true))

/-- R65, R68, R73, R77, R80, R81: the attempts at link-up and their failure, the link as it comes up, the one-shot,
and the loss of the link as each side declares it. R69, R70: a cell that fails CRC, sequence or type is counted at the
side that received it and not acted on; after a sequence or type failure the next expected SEQ follows the received
one, and a message is counted once for its dropped cells and never acts. The model's own choices behind it: log
entries 2, 9 and 15. -/
def Obligations.TheBarrierLinkComesUpGoesDownAndRejectsCells : Prop :=
  (∀ s : State,
    (s.barr.link = .down → clockOn s = true → domOn s 1 = true →
      (s.barr.static = true → s.barr.epochRetry = false → exec .laneEnable s = .next { s with barr := { s.barr with
        link := .training, static := false, fieldClock := s.pwr.fsup != .absent } }) ∧
      (s.barr.epochRetry = true → Completes .linkUpRetry s fun t =>
        t.barr.link = .training ∧ t.barr.static = false ∧ t.barr.fieldClock = (s.pwr.fsup != .absent) ∧
        t.clk = (toEdge 8 ticksPerEpoch s).clk ∧ Only [.clk, .barr] s t)) ∧
    (s.barr.link = .training → Completes .linkUpAbandon s fun t =>
      t.barr.link = .down ∧ t.barr.static = true ∧ t.barr.fieldClock = false ∧
      t.barr.failed = satInc s.barr.failed ∧ t.barr.runFails = s.barr.runFails + 1 ∧
      (s.barr.runFails = 9 → t.barr.lossCnt = satInc s.barr.lossCnt ∧ t.barr.declarer = 3 ∧ t.barr.epochRetry = true ∧
        (s.ev.host.length < 64 → Held .host 0x0203 0xFF t)) ∧
      (s.barr.runFails ≠ 9 → t.barr.lossCnt = s.barr.lossCnt ∧ t.ev = s.ev) ∧ Only [.barr, .ev] s t) ∧
    (∀ n : Fin 1024, n.val < 416 ∨ 480 < n.val → exec (.barrierLinkUp n) s = .next s) ∧
    (∀ n : Fin 1024, 416 ≤ n.val → n.val ≤ 480 → s.barr.link = .training → clockOn s = true → domOn s 1 = true →
      s.pwr.fsup ≠ .absent → Completes (.barrierLinkUp n) s fun t =>
        t.barr.link = .up ∧ t.barr.lat = BitVec.ofNat 10 n.val ∧ t.barr.replicaLoaded = true ∧
        t.barr.replica = s.clk.tb ∧ t.barr.oneShotLatch = false ∧
        (s.modes.booted = false → t.modes.active = s.modes.active &&& ~~~ (cause 1 ||| cause 2) ∧
          t.modes.latched = (if s.barr.oneShotLatch then s.modes.latched ||| cause 1 else s.modes.latched) ∧
          t.barr.hostNext = 0 ∧ t.barr.fieldNext = 0 ∧ t.barr.hostExpect = 0 ∧ t.barr.fieldExpect = 0 ∧
          t.barr.failed = 0 ∧ Only [.modes, .barr, .pwr, .ev] s t)) ∧
    (s.barr.static = true ∨ clockOn s = false ∨ s.barr.fieldClock = false → s.pwr.fsup ≠ .absent →
      Completes .oneShotFire s fun t =>
        t.barr.oneShot = true ∧ t.barr.oneShotLatch = true ∧ t.barr.fieldClock = false ∧ t.barr.schedWrites = [] ∧
        t.modes.clay = true ∧ t.modes.active = s.modes.active ∧ t.clk = s.clk ∧
        (ClayQuiet s → ∀ n : Fin 32, Quiet t.out.ch[n])) ∧
    (s.barr.fieldClock = true → clockOn s = true → exec .oneShotRelease s = .next { s with
      barr := { s.barr with oneShot := false } }) ∧
    (linkUp s = true → Completes .barrierLossHost s fun t =>
      t.barr.link = .down ∧ t.barr.static = true ∧ t.barr.fieldClock = false ∧
      t.barr.lossCnt = satInc s.barr.lossCnt ∧ t.barr.declarer = 1 ∧ t.modes.clay = true ∧
      t.modes.active = s.modes.active ||| cause 2 ∧ t.clk = s.clk ∧
      (ClayQuiet s → ∀ n : Fin 32, Quiet t.out.ch[n])) ∧
    (linkUp s = true → s.barr.fieldClock = true → Completes .barrierLossField s fun t =>
      t.barr.fieldDeclared = true ∧ t.modes.clay = true ∧ t.modes.active = s.modes.active ||| cause 2 ∧
      t.barr.lossCnt = s.barr.lossCnt ∧ t.clk = (toFieldFrame s).clk ∧ (ClayQuiet s → ∀ n : Fin 32, Quiet t.out.ch[n]))) ∧
  (∀ (s : State) (m : Bool), linkUp s = true →
    (∀ (q : Queued) (rest : List Queued), s.barr.rg7 = q :: rest →
      let u := if m && decide (s.barr.upPart + 1 < cellsOf q.cell) then seqUp s else s
      let whole := u.barr.upPart + 1 = cellsOf q.cell
      let Dropped (t : State) : Prop :=
        t.barr.fieldNext = u.barr.fieldNext + 1 ∧ t.barr.rg7 = (if whole then rest else q :: rest) ∧
        t.barr.hMsg = (if !u.barr.upBad && decide (1 < cellsOf q.cell) then satInc u.barr.hMsg else u.barr.hMsg) ∧
        t.clk = (passUp true u).clk ∧ Only [.clk, .barr, .ev] s t
      (Completes (.cellReject .host .crc m) s fun t =>
        t.barr.hCrc = satInc s.barr.hCrc ∧ t.barr.hSeq = u.barr.hSeq ∧ t.barr.hTyp = s.barr.hTyp ∧
        t.barr.hostExpect = u.barr.hostExpect ∧ Dropped t) ∧
      (u.barr.fieldNext ≠ u.barr.hostExpect → Completes (.cellReject .host (.seq u.barr.fieldNext) m) s fun t =>
        t.barr.hSeq = satInc u.barr.hSeq ∧ t.barr.hCrc = s.barr.hCrc ∧ t.barr.hTyp = s.barr.hTyp ∧
        t.barr.hostExpect = u.barr.fieldNext + 1 ∧ Dropped t) ∧
      (Completes (.cellReject .host (.typ u.barr.fieldNext) m) s fun t =>
        t.barr.hTyp = satInc s.barr.hTyp ∧ t.barr.hCrc = s.barr.hCrc ∧ t.barr.hSeq = u.barr.hSeq ∧
        t.barr.hostExpect = u.barr.fieldNext + 1 ∧ Dropped t)) ∧
    (∀ (q : Queued) (rest : List Queued), s.barr.rg6 = q :: rest → s.barr.fieldClock = true →
      let Dropped (t : State) : Prop :=
        t.barr.hostNext = s.barr.hostNext + 1 ∧ t.barr.rg6 = (passDown s).barr.rg6 ∧ t.clk = (passDown s).clk ∧
        Only [.clk, .barr] s t
      (Completes (.cellReject .field .crc m) s fun t =>
        t.barr.fCrc = satInc s.barr.fCrc ∧ t.barr.fSeq = s.barr.fSeq ∧ t.barr.fTyp = s.barr.fTyp ∧
        t.barr.fieldExpect = s.barr.fieldExpect ∧ Dropped t) ∧
      (s.barr.hostNext ≠ s.barr.fieldExpect → Completes (.cellReject .field (.seq s.barr.hostNext) m) s fun t =>
        t.barr.fSeq = satInc s.barr.fSeq ∧ t.barr.fieldExpect = s.barr.hostNext + 1 ∧ Dropped t) ∧
      (Completes (.cellReject .field (.typ s.barr.hostNext) m) s fun t =>
        t.barr.fTyp = satInc s.barr.fTyp ∧ t.barr.fieldExpect = s.barr.hostNext + 1 ∧ Dropped t)))

/-- R71, R74, R76, R78, R79, R23: a HEARTBEAT sent and accepted in each direction, the confirmation and the repeat of
a SAFE_REQ and its effect, TIME_SYNC sent and compared, and the timeouts of the two cores. The model's own choices
behind it: log entries 2, 9, 42 and 43. -/
def Obligations.HeartbeatsKeepTheTwoSides : Prop :=
  ∀ s : State, linkUp s = true →
    (Completes (.heartbeatSend .host) s fun t =>
      t.barr.hostAlive = (if hcoreRuns s then s.barr.hostAlive + 1 else s.barr.hostAlive) ∧
      (∃ q ∈ t.barr.rg6, q.cell = .heartbeat (.fromHost t.barr.hostAlive s.barr.hostGot s.sec.hHalt
        (BitVec.ofNat 16 (field (reg s 0x020000) 8 0)))) ∧
      t.clk = (toEdge 6 8000 s).clk ∧ Only [.clk, .barr] s t) ∧
    (s.barr.fieldDeclared = false → s.pwr.fsup ≠ .absent → s.barr.fieldClock = true →
      Completes (.heartbeatSend .field) s fun t =>
        t.barr.fieldAlive = (if s.fw.fcoreRun && !s.sec.fHalt && domOn s 13 then s.barr.fieldAlive + 1
          else s.barr.fieldAlive) ∧
        (∃ q ∈ t.barr.rg7, q.cell = .heartbeat (.fromField t.barr.fieldAlive s.barr.fieldGot s.sec.fHalt s.barr.fCrc
          s.barr.fSeq s.barr.fTyp (fieldCauses s))) ∧
        t.clk = (toEdge 7 8000 s).clk ∧ Only [.clk, .barr] s t) ∧
    (∀ (alive ack : BitVec 16) (halted : Bool) (hbto : BitVec 16),
      ArrivesDown (.heartbeat (.fromHost alive ack halted hbto)) s →
      Completes (.heartbeat (.fromHost alive ack halted hbto)) s fun t =>
        t.barr.ackFromHost = ack ∧ t.barr.hostAliveSeen = alive ∧ t.barr.hostHaltedSeen = halted ∧
        t.barr.hbto = hbto ∧ t.barr.ferrClear = false ∧
        (s.barr.ferrClear = true → t.barr.fCrc = 0 ∧ t.barr.fSeq = 0 ∧ t.barr.fTyp = 0) ∧
        t.modes = (if alive = s.barr.hostAliveSeen then s.modes
          else { s.modes with active := s.modes.active &&& ~~~ cause 7 }) ∧
        t.barr.fieldExpect = s.barr.hostNext + 1 ∧ t.barr.fieldGot = s.barr.hostNext ∧
        t.clk = (passDown s).clk ∧ Only [.modes, .clk, .barr, .ev] s t) ∧
    (∀ (alive ack : BitVec 16) (halted : Bool) (c e y : Byte) (active : BitVec 16),
      ArrivesUp (.heartbeat (.fromField alive ack halted c e y active)) s →
      Completes (.heartbeat (.fromField alive ack halted c e y active)) s fun t =>
        t.barr.ackFromField = ack ∧ t.barr.fhalt = halted ∧ t.barr.mirrorActive = active ∧
        t.barr.fieldAliveSeen = alive ∧ t.barr.mCrc = c ∧ t.barr.mSeq = e ∧ t.barr.mTyp = y ∧
        t.barr.hostExpect = s.barr.fieldNext + 1 ∧ t.barr.hostGot = s.barr.fieldNext ∧
        ((∀ x ∈ s.barr.safe, reached ack x = true → (rose x.dropsBefore.1 c || rose x.dropsBefore.2.1 e ||
          rose x.dropsBefore.2.2 y) = false) → t.barr.safe = s.barr.safe.filter fun x => !reached ack x) ∧
        t.clk = (passUp false s).clk ∧ Only [.clk, .barr, .ev] s t) ∧
    (∀ x : BitVec 16, ArrivesDown (.safeReq x) s → Completes (.safeReq x) s fun t =>
      (∀ c : Fin 11, x.getLsbD c.val = true → t.modes.clay = true ∧ t.modes.active.getLsbD c.val = true) ∧
      t.clk = (toFieldFrame (takenDown s)).clk ∧ ((∀ c : Fin 11, x.getLsbD c.val = false) → t.modes = s.modes)) ∧
    (∀ x rest, s.barr.safe = x :: rest → Completes .safeReqResend s fun t =>
      (∃ y ∈ t.barr.safe, y.causes = x.causes) ∧ (∃ q ∈ t.barr.rg6, q.cell = .safeReq x.causes) ∧ Only [.barr] s t) ∧
    (exec .timeSyncSend s = .next (sendUrgent (.timeSync (toEdge 4 800000 s).clk.tb) (toEdge 4 800000 s))) ∧
    (∀ tb : BitVec 64, ArrivesDown (.timeSync tb) s →
      let u := takenDown s
      let right := tb + BitVec.ofNat 64 (u.clk.tb.toNat - (findKey 4 u.clk.marks).getD u.clk.tb.toNat)
      (u.barr.replica = right → exec (.timeSync tb) s = .next u) ∧
      (u.barr.replica ≠ right → Completes (.timeSync tb) s fun t =>
        t.barr.tserr = satInc s.barr.tserr ∧ t.clk = (toFieldFrame u).clk ∧
        t.barr.replica = (toFieldFrame u).barr.replica + (right - u.barr.replica) ∧
        (s.ev.field.length < 64 → Held .field 0x0204 0xFF t) ∧ Only [.clk, .barr, .ev] s t)) ∧
    (s.barr.fieldClock = true → Completes .hostHeartbeatTimeout s fun t =>
      t.modes.clay = true ∧ t.modes.active = s.modes.active ||| cause 7 ∧ t.clk = (toFieldFrame s).clk ∧
      (ClayQuiet s → ∀ n : Fin 32, Quiet t.out.ch[n])) ∧
    (s.barr.supervise = true → domOn s 13 = true → s.barr.fhalt = false → Completes .fcoreStall s fun t =>
      t.modes.clay = true ∧ t.modes.active.getLsbD 4 = true ∧ t.clk = s.clk ∧
      (s.modes.clay = true → s.ev.host.length < 64 → Held .host 0x0205 0xFF t))

/-- R82, R83, R84, R145, R154: a register cell at the field side, of a command of flag F too, acts once for its TAG,
at the next frame boundary, and is answered; its answer ends or carries on the host's access; a cell without an answer
goes again and the third is the last; a stored write acts at its frame. The model's own choices behind it: log entries
2 and 13. -/
def Obligations.FieldRegistersOverTheBarrier : Prop :=
  ∀ s : State,
    (∀ c : CfgWriteCell, ArrivesDown (.cfgWrite c) s →
      let u := takenDown s
      let w := toFieldFrame u
      (∀ x, s.barr.tagMem.find? (fun m => m.1 == c.tag) = some x → exec (.cfgWrite c) s = .next (upCell x.2 u)) ∧
      (s.barr.tagMem.find? (fun m => m.1 == c.tag) = none →
        (c.sched = false → c.op = none → isField c.addr.toNat = true → Completes (.cfgWrite c) s fun t =>
          t.regs = (fieldWrite c.addr.toNat c.value c.mask w).1.regs ∧
          t.out = (fieldWrite c.addr.toNat c.value c.mask w).1.out ∧
          t.clk = (fieldWrite c.addr.toNat c.value c.mask w).1.clk ∧
          t.barr.rg7.getLast?.map (·.cell) =
            some (.cfgData c.tag (fieldWrite c.addr.toNat c.value c.mask w).2.status c.addr [])) ∧
        (∀ o : FieldOp, c.sched = false → c.op = some o → Completes (.cfgWrite c) s fun t =>
          t.regs = (fieldPart o w).1.regs ∧ t.out = (fieldPart o w).1.out ∧ t.clk = (fieldPart o w).1.clk ∧
          (t.barr.fieldClock = true → t.barr.rg7.getLast?.map (·.cell) = some (writeAnswer c (fieldPart o w).2))) ∧
        (c.sched = true → schedWriteStatus c u = 1 → Completes (.cfgWrite c) s fun t =>
          t.barr.schedWrites = s.barr.schedWrites ++ [c] ∧ t.clk = u.clk ∧
          t.barr.rg7 = s.barr.rg7 ++ [queued (writeAnswer c { status := 1 }) u] ∧ Only [.clk, .barr] s t))) ∧
    (∀ (tag : BitVec 16) (a : BitVec 24) (n : BitVec 3), ArrivesDown (.cfgRead tag a n) s →
      s.barr.tagMem.find? (fun m => m.1 == tag) = none →
      let u := takenDown s
      cfgReadStatus a.toNat n.toNat u = 0 → Completes (.cfgRead tag a n) s fun t =>
        t.barr.rg7 = s.barr.rg7 ++ [queued (.cfgData tag 0 a
          ((List.range n.toNat).map fun i => readReg u (a.toNat + 4 * i))) u] ∧ t.regs = s.regs ∧ t.clk = u.clk ∧
        Only [.clk, .barr, .pwr] s t) ∧
    (∀ (x : RegTxn) (q : Request), linkUp s = true → s.barr.txns = [x] → x.why = .request q → x.sched = false →
      s.fw.fieldImage = none →
      (∀ vals : List Word, x.op = none → x.isWrite = false → q.pkt.opcode = 0x7A → x.readLeft = vals.length →
        ArrivesUp (.cfgData x.tag 0 x.readAddr vals) s →
        Completes (.cfgData x.tag 0 x.readAddr vals) s fun t =>
          t.barr.txns = [] ∧ Answered q { data := (x.got ++ vals).flatMap fun w => be 4 w.toNat } t) ∧
      (∀ p : RegPut, x.op = none → x.isWrite = true → q.pkt.opcode = 0x7B → x.puts = [p] →
        ArrivesUp (.cfgData x.tag 0 p.addr []) s →
        Completes (.cfgData x.tag 0 p.addr []) s fun t =>
          t.barr.txns = [] ∧ Answered q { data := [BitVec.ofNat 8 (x.done + 1)] } t) ∧
      (∀ (o : FieldOp) (st : Byte) (a : BitVec 24) (vals : List Word), x.op = some o → st ≠ 2 → q.pkt.opcode ≠ 0x44 →
        ArrivesUp (.cfgData x.tag st a vals) s → Completes (.cfgData x.tag st a vals) s fun t =>
          t.barr.txns = [] ∧ Answered q { status := st, detail := a.setWidth 8, data := wordData vals } t) ∧
      (x.sends < 3 → Completes (.cfgResend x.tag) s fun t =>
        t.barr.txns = [{ x with sends := x.sends + 1 }] ∧ Only [.barr] s t) ∧
      (3 ≤ x.sends → x.op = none → q.pkt.opcode = 0x7A → Completes (.cfgResend x.tag) s fun t =>
        t.barr.txns = [] ∧ Answered q { status := 0x40, detail := 0x01 } t)) ∧
    (∀ c : CfgWriteCell, firstWrite s s.barr.schedWrites = some c → s.barr.fieldClock = true → c.op = none →
      let a := c.addr.toNat
      let u := advanceTo (tickAt c.applyAt 0 s) s
      let w : State := { u with barr := { u.barr with schedWrites := u.barr.schedWrites.erase c } }
      (writeDomains c w <|> fieldStateCheck w a (merged w a c.value c.mask)) = none →
      Completes .schedWriteAct s fun t =>
        t.regs = (fieldPut a (merged w a c.value c.mask) w).regs ∧
        t.out = (fieldPut a (merged w a c.value c.mask) w).out ∧
        t.clk = (fieldPut a (merged w a c.value c.mask) w).clk)

/-- R208, R210, R268 to R273: an edge or coefficient cell is stored once for its TAG and acknowledged; an
acknowledgement ends the host's batch, with CUT records where Clay discarded it; a batch without one goes again and
the third is the last; stored words and swaps take effect at their slot. The model's own choices behind it: log
entries 13 and 15. -/
def Obligations.CellBatchesAreStoredAndAcknowledged : Prop :=
  ∀ s : State, linkUp s = true →
    (∀ (tag : BitVec 16) (es : List Edge), ArrivesDown (.schedEdge tag es) s →
      let u := takenDown s
      (s.modes.clay = true → Completes (.schedEdge tag es) s fun t =>
        t.barr.rg7 = s.barr.rg7 ++ [queued (.edgeAcks [(tag, 3)]) u] ∧ t.out = s.out ∧ t.clk = u.clk ∧
        Only [.clk, .barr] s t) ∧
      (s.modes.clay = false → ∀ x, s.barr.edgeTags.find? (fun m => m.1 == tag) = some x →
        exec (.schedEdge tag es) s = .next (upCell (.edgeAcks [(tag, x.2)]) u)) ∧
      (s.modes.clay = false → s.barr.edgeTags.find? (fun m => m.1 == tag) = none →
        Completes (.schedEdge tag es) s fun t =>
          t.out = (storeEdges es u).1.out ∧ t.clk = u.clk ∧
          t.barr.rg7 = s.barr.rg7 ++ [queued (.edgeAcks [(tag, (storeEdges es u).2)]) u] ∧
          t.barr.edgeTags = lastN 64 (s.barr.edgeTags ++ [(tag, (storeEdges es u).2)]) ∧
          Only [.clk, .barr, .out] s t)) ∧
    (∀ (b : EdgeBatch) (r : Fin 4), s.barr.batches = [b] →
      (ArrivesUp (.edgeAcks [(b.tag, r)]) s → Completes (.edgeAck [(b.tag, r)]) s fun t =>
        t.barr.batches = [] ∧ t.clk = (passUp false s).clk ∧
        t.sect.handed = (if r = 3 then s.sect.handed.filter (fun h => !b.edges.contains h.edge)
          else s.sect.handed) ∧ Only [.clk, .barr, .fw, .sect] s t) ∧
      (b.sends < 3 → Completes (.schedEdgeResend b.tag) s fun t =>
        t.barr.batches = [{ b with sends := b.sends + 1 }] ∧ Only [.barr] s t) ∧
      (3 ≤ b.sends → s.modes.clay = true → s.ev.host.length < 64 → Completes (.schedEdgeResend b.tag) s fun t =>
        t.barr.batches = [] ∧ Held .host 0x1001 0xFF t)) ∧
    (∀ c : CoefCell, ArrivesDown (.loopCoef c) s →
      let u := takenDown s
      s.barr.coefTags.find? (fun m => m.1 == c.tag) = none → cellStatus c u = 0 →
      Completes (.loopCoefCell c) s fun t =>
        (c.swap = true → t.loop.slot[c.slot] = { s.loop.slot[c.slot] with swapAt := some c.sample }) ∧
        (c.swap = false → computing u c.slot = true → t.loop.slot[c.slot] =
          { s.loop.slot[c.slot] with cells := s.loop.slot[c.slot].cells ++ [c] }) ∧
        (c.swap = false → computing u c.slot = false → s.loop.slot[c.slot].cells = [] →
          (c.banked = true → t.loop.slot[c.slot] = { s.loop.slot[c.slot] with
            shadow := putWords c.first.toNat c.words s.loop.slot[c.slot].shadow }) ∧
          (c.banked = false → t.loop.slot[c.slot].shadow = s.loop.slot[c.slot].shadow ∧
            t.loop.slot[c.slot].active = putWords c.first.toNat c.words s.loop.slot[c.slot].active)) ∧
        (∀ j : Fin 16, j ≠ c.slot → t.loop.slot[j] = s.loop.slot[j]) ∧ t.clk = u.clk ∧
        (∃ q ∈ t.barr.rg7, q.cell = .coefAcks [(c.tag, 0)]) ∧ Only [.clk, .barr, .loop, .ev] s t) ∧
    (∀ i : Fin 16,
      (∀ c : CoefCell, s.loop.slot[i].cells = [c] → c.slot = i → Completes (.coefApply i) s fun t =>
        t.loop.slot[i].cells = [] ∧
        (c.banked = true → t.loop.slot[i] = { s.loop.slot[i] with
          cells := [], shadow := putWords c.first.toNat c.words s.loop.slot[i].shadow }) ∧
        (c.banked = false → t.loop.slot[i].active = putWords c.first.toNat c.words s.loop.slot[i].active ∧
          t.loop.slot[i].shadow = s.loop.slot[i].shadow) ∧ Only [.barr, .loop, .ev] s t) ∧
      (∀ k, s.loop.slot[i].swapAt = some k → s.loop.slot[i].cells = [] → Completes (.loopSwapAct i) s fun t =>
        t.loop.slot[i].swapAt = none ∧ t.loop.slot[i].active = s.loop.slot[i].shadow ∧
        t.loop.slot[i].shadow = s.loop.slot[i].shadow ∧ Only [.clk, .barr, .loop, .ev] s t)) ∧
    (∀ (q : Request) (c : CoefSent), q.via ≠ .planner → s.barr.coefs = [{ q := q, cells := [c] }] →
      (∀ st : Byte, ArrivesUp (.coefAcks [(c.cell.tag, st)]) s → Completes (.coefAck [(c.cell.tag, st)]) s fun t =>
        t.barr.coefs = [] ∧ Answered q { status := st, detail := if st = 0x40 then 0x01 else 0 } t) ∧
      (c.result = none → c.sends < 3 → Completes (.loopCoefResend c.cell.tag) s fun t =>
        t.barr.coefs = [{ q := q, cells := [{ c with sends := c.sends + 1 }] }] ∧ Only [.barr] s t) ∧
      (c.result = none → 3 ≤ c.sends → Completes (.loopCoefResend c.cell.tag) s fun t =>
        t.barr.coefs = [] ∧ Answered q { status := 0x40, detail := 0x01 } t))

/-- R88 to R91, R114: a port that locks sends IDLE and listens, the first valid IDLE decides its partner or names a
miswired port, the timeout decides for none, and a port that loses lock has a break that makes an island of the node
below it; a break further down is told to the head. The model's own choices behind it: log entries 16, 44 and 46. -/
def Obligations.PartnersAppearAndGo : Prop :=
  ∀ s : State, chainOn s = true →
    (s.chain.upLock = false → exec (.symbolLock .up) s = .next (outUp (idleOf .up) { freshEcho s with
      chain := { s.chain with upLock := true, upKnown := false, upPartner := .none, upMiswire := false } })) ∧
    (s.chain.dnLock = false → exec (.symbolLock .dn) s = .next (outDown (idleOf .dn) { s with
      chain := { s.chain with dnLock := true, dnKnown := false, dnPartner := false, dnMiswire := false } })) ∧
    (∀ p : ChainPort, portLock p s = true →
      exec (.idleSend p) s = .next (putLine p (idleOf p) (advanceTo (busyTo p s + 80000) s))) ∧
    (∀ i : IdleInfo, s.chain.upLock = true → s.chain.upPartner = .none →
      (upPartnerOf i ≠ .none → Completes (.idleFrame .up i) s fun t =>
        t.chain = { s.chain with upKnown := true, upPartner := upPartnerOf i } ∧ t.modes = s.modes ∧ t.out = s.out) ∧
      (upPartnerOf i = .none → Completes (.idleFrame .up i) s fun t =>
        t.chain = { s.chain with upKnown := true, upMiswire := true } ∧
        (s.chain.upMiswire = false → s.ev.host.length < 64 → Held .host 0x0301 0xFF t) ∧
        (s.chain.upMiswire = true → t.ev = s.ev))) ∧
    (∀ i : IdleInfo, s.chain.dnLock = true → s.chain.dnPartner = false →
      (i.generation = 1 → i.port = 0 → Completes (.idleFrame .dn i) s fun t =>
        t.chain = { s.chain with dnKnown := true, dnPartner := true, dnGained := true
                                 fullDue := s.chain.fullDue || !s.chain.dnGained } ∧ Only [.chain, .pkt, .canA] s t) ∧
      (i.generation ≠ 1 ∨ i.port ≠ 0 → Completes (.idleFrame .dn i) s fun t =>
        t.chain = { s.chain with dnKnown := true, dnMiswire := true } ∧
        (s.chain.dnMiswire = false → s.ev.host.length < 64 → Held .host 0x0301 0xFF t))) ∧
    (s.chain.upLock = true → s.chain.upKnown = false → Completes (.partnerTimeout .up) s fun t =>
      t.chain = { s.chain with upKnown := true } ∧ Only [.free, .clk, .chain, .pkt, .canA] s t) ∧
    (s.chain.dnLock = true → s.chain.dnKnown = false → Completes (.partnerTimeout .dn) s fun t =>
      t.chain = { s.chain with dnKnown := true } ∧ Only [.chain, .pkt, .canA] s t) ∧
    (s.chain.upLock = true → Completes (.symbolLockLoss .up) s fun t =>
      t.chain.upLock = false ∧ t.chain.upPartner = .none ∧ t.chain.upKnown = false ∧
      t.chain.upBreaks = satInc s.chain.upBreaks ∧
      (s.chain.upPartner ≠ .none → t.chain.island = true ∧ t.chain.breakFrame = now s) ∧
      (s.chain.upPartner = .none → t.chain.island = s.chain.island ∧ t.modes = s.modes ∧ t.out = s.out)) ∧
    (s.chain.dnLock = true → Completes (.symbolLockLoss .dn) s fun t =>
      t.chain.dnLock = false ∧ t.chain.dnPartner = false ∧ t.chain.dnKnown = false ∧
      t.chain.dnBreaks = satInc s.chain.dnBreaks ∧ t.chain.island = s.chain.island ∧
      (s.chain.dnPartner = true → isHead s = true → s.chain.island = false → s.ev.host.length < 64 →
        Held .host 0x0304 0xFF t) ∧
      (s.chain.dnPartner = true → isHead s = false → s.chain.island = false → hcoreRuns s = true →
        ∃ x ∈ t.chain.rg5 ++ t.chain.rg5Held, x.frame = upFrame 6 (breakPacket s) s) ∧
      Only [.free, .barr, .chain, .pkt, .canA, .ev] s t)

/-- R93 to R99, R131, R132: a frame passes to the other port with its CRC or a stomped one and is counted where it is
dropped; a command for the node waits in RG4 or is served at once; replies and events go up, at the head to where the
origin entry says; the node's own frames leave most urgent first. R119, R163: consecutive valid MARL frames of one
pattern that names the node are counted and passed on, the fourth wakes it; MARL_SEND sends the pattern into the
chain. The model's own choices behind it: log entries 12, 34, 46 and 47. -/
def Obligations.FramesPassAndNameTheirNodes : Prop :=
  (∀ (s : State) (f : ChainFrame), chainOn s = true →
    (s.chain.upLock = true → Completes (.frameForward .up f) s fun t =>
      t.chain.errUp = countFrame f.crc (frameOk .up f) s.chain.errUp ∧
      t.chain.dnLine = (if f.sdl = false ∧ s.chain.upPartner ≠ .none ∧ s.chain.dnPartner = true then
        some { f with crc := if f.crc = .good then .good else .stomped } else s.chain.dnLine) ∧ Only [.chain] s t) ∧
    (s.chain.dnLock = true → Completes (.frameForward .dn f) s fun t =>
      t.chain.errDn = countFrame f.crc (frameOk .dn f) s.chain.errDn ∧
      t.chain.upLine = (if f.sdl = false ∧ s.chain.dnPartner = true ∧ s.chain.upLock = true ∧ s.chain.upPartner ≠ .none
        then some { f with crc := if f.crc = .good then .good else .stomped } else s.chain.upLine) ∧
      Only [.chain] s t) ∧
    (s.chain.upLock = true → s.chain.upPartner = .node → f.ftype = 4 →
      let u := arrive .up f s
      (f.crc ≠ .good ∨ frameOk .up f = false ∨ consumes f s = false → exec (.cmdFrame f) s = .next u) ∧
      (f.crc = .good → frameOk .up f = true → consumes f s = true → domOn s 1 = true →
        (hcoreRuns s = false → s.chain.rg4.length < 256 → Completes (.cmdFrame f) s fun t =>
          t.chain.rg4 = s.chain.rg4 ++ [{ tb := s.clk.tb, frame := f }] ∧
          t.chain.dnLine = u.chain.dnLine ∧ Only [.chain] s t) ∧
        (hcoreRuns s = true → s.chain.rg4 = [] →
          exec (.cmdFrame f) s = .next (takeBytes (.chain f.origHop) f.payload u)))) ∧
    (s.chain.dnLock = true → f.ftype = 5 →
      (isHead s = false → exec (.rplFrame f) s = .next (arrive .dn f s)) ∧
      (∀ p : Packet, isHead s = true → s.chain.dnPartner = true → f.crc = .good → frameOk .dn f = true →
        f.chainId = s.chain.chainId → hcoreRuns s = true → parsePacket f.payload = some p →
        (∀ o, s.chain.origins.find? (fun o => o.seq == p.seq && o.src == p.dest) = some o →
          exec (.rplFrame f) s = .next (routeReply o.via p s)) ∧
        (s.chain.origins.find? (fun o => o.seq == p.seq && o.src == p.dest) = none → s.chain.upPartner = .none →
          exec (.rplFrame f) s = .next { s with pkt := { s.pkt with
            chain := { s.pkt.chain with drop := satInc s.pkt.chain.drop } } }))) ∧
    (s.chain.dnLock = true → f.ftype = 6 →
      let u := arrive .dn f s
      (isHead s = false → exec (.evtFrame f) s = .next u) ∧
      (isHead s = true → hcoreRuns s = false → exec (.evtFrame f) s = .next u) ∧
      (∀ (p : Packet) (hop : Nat), isHead s = true → islandHead s = false → hcoreRuns s = true →
        s.chain.dnPartner = true → f.crc = .good → frameOk .dn f = true → f.chainId = s.chain.chainId →
        parsePacket f.payload = some p → breakReport p = some hop →
        exec (.evtFrame f) s = .next (chainBreak hop u))) ∧
    (∀ x : OwnFrame, s.chain.upLock = true → s.chain.upPartner ≠ .none →
      let Leaves (at' : Nat) (t : State) : Prop :=
        t.chain.rg5 = dropFirst (fun y => y == x) s.chain.rg5 ++ s.chain.rg5Held.take 1 ∧
        t.chain.rg5Held = s.chain.rg5Held.drop 1 ∧ t.chain.upLine = some x.frame ∧
        t.clk = (advanceTo at' s).clk ∧ Only [.clk, .barr, .chain] s t
      (firstFrame s.chain.rg5 = some x → Completes .ownFrameInsert s (Leaves s.chain.upBusyTo)) ∧
      (firstDue s.chain.rg5 = some x →
        Completes .insertWaitExpiry s (Leaves (max (waitEnd x) s.chain.upBusyTo)))) ∧
    exec .originEntryExpiry s = .next { s with chain := { s.chain with origins := s.chain.origins.drop 1 } }) ∧
  (∀ s : State, chainOn s = true →
    (∀ i : MarlInfo, s.chain.upLock = true → s.chain.upPartner ≠ .none →
      let u := arrive .up (marlOf i) s
      let mine := i.valid && ownChain i.hdr s
      let counts := mine && marlNames i s && bit (reg s 0x03002C) 0
      let n := if !counts then 0 else if s.chain.marlLast = some i then s.chain.marlCount + 1 else 1
      let v : State := { u with chain := { u.chain with marlCount := n, marlLast := if mine then some i else none } }
      (n ≠ 4 → exec (.marlFrame i) s = .next v) ∧
      (n = 4 → exec (.marlFrame i) s = .next (catchUp (wake .marl i.reason v)))) ∧
    (∀ q : Request, Accepted 0x13 q s → (reqBody q).length = 6 → (byteAt (reqBody q) 0).toNat ≤ 1 →
      Answers (.marlSend q) q s (sendPattern (marlInfo q)) {}))

/-- R106 to R111, R118, R163: the head starts a walk, judges each claim and ends it; a member takes its hop and
claims, goes on with its verdict, and takes its address at DONE, which in Loam out of Clay is Clay with cause 3. The
model's own choices behind it: log entries 16, 48 and 49. -/
def Obligations.TheEnumerationWalk : Prop :=
  ∀ s : State, chainOn s = true →
    (isHead s = true → islandHead s = false → s.chain.walk = none →
      (∀ r : Bool, r = true ∨ (s.chain.fullDue = true ∧ bit (reg s 0x030000) 3 = true) →
        Completes (.enumWalkStart r) s fun t =>
          t.chain.walkGen = s.chain.walkGen + 1 ∧ t.chain.hop = 0 ∧ t.chain.addrValid = true ∧
          t.chain.addr = (if pinned s then pinAddr s else 0) ∧ t.chain.dupCount = 0 ∧ t.chain.dupReports = [] ∧
          (r = false → t.chain.fullDue = false) ∧
          (s.chain.dnPartner = true → t.chain.enumBusy = true ∧
            t.chain.walk = some { recheck := r, gen := s.chain.walkGen + 1, q := none } ∧
            ∃ f, t.chain.dnLine = some f ∧ f.ftype = 3 ∧ f.sdl = true ∧ f.payload.headD 0xFF = 0) ∧
          (s.chain.dnPartner = false → t.chain.walk = none ∧ t.chain.walked = true ∧ t.chain.enumBusy = false ∧
            t.chain.gen = s.chain.walkGen + 1)) ∧
      (s.chain.fullDue = false ∨ bit (reg s 0x030000) 3 = false → exec (.enumWalkStart false) s = .next s) ∧
      (∀ q : Request, Accepted 0x10 q s → (reqBody q).length = 1 → (byteAt (reqBody q) 0).toNat ≤ 1 →
        s.chain.dnPartner = true → Completes (.enumerate q) s fun t =>
          t.chain.walk = some { recheck := byteAt (reqBody q) 0 == 1, gen := s.chain.walkGen + 1, q := some q } ∧
          t.chain.enumBusy = true ∧ t.chain.walkGen = s.chain.walkGen + 1)) ∧
    (∀ i : EnumInfo, s.chain.upLock = true → s.chain.upPartner = .node → i.hdr.crc = .good → genFresh i.gen s = true →
      (Completes (.enumStart i) s fun t =>
        t.chain.hop = i.hop + 1 ∧ t.chain.enumBusy = true ∧ t.chain.addr = s.chain.addr ∧
        (let keep := i.recheck && s.chain.addrValid
         let pin := !keep && pinned s
         t.chain.claim = some { recheck := i.recheck, gen := i.gen, hop := i.hop + 1, next := i.addr
                                addr := if keep then s.chain.addr else if pin then pinAddr s else i.addr
                                pinned := pin, waiting := pin, sends := 1, rejected := false
                                startSent := !pin && s.chain.dnPartner } ∧
         (pin = true ∨ s.chain.dnPartner = true →
           ∃ f, t.chain.upLine = some f ∧ f.ftype = 3 ∧ f.sdl = false ∧ f.payload.headD 0 = 1)) ∧
        Only [.chain] s t) ∧
      (Completes (.enumDone i) s fun t =>
        t.chain.gen = i.gen ∧ t.chain.headAddr = i.addr ∧ t.chain.claim = none ∧ t.chain.enumBusy = false ∧
        t.chain.island = false ∧ t.chain.islandTimer = none ∧ t.chain.chainId = i.hdr.chainId ∧
        t.chain.headPlanner = some i.planner ∧
        (s.modes.clay = true → i.planner ≠ planner s → s.ev.host.length < 64 → Held .host 0x0003 0xFF t) ∧
        (∀ c, s.chain.claim = some c → c.gen = i.gen →
          (i.hop.toNat < s.chain.hop.toNat → t.chain.addrValid = s.chain.addrValid ∧ t.chain.addr = s.chain.addr) ∧
          (s.chain.hop.toNat ≤ i.hop.toNat → t.chain.addrValid = !c.rejected ∧
            (c.rejected = false → t.chain.addr = c.addr ∧
              (s.modes.clay = false → s.chain.addrValid = false ∨ s.chain.addr ≠ c.addr →
                t.modes.clay = true ∧ t.modes.active.getLsbD 3 = true)))))) ∧
    (∀ (i : EnumInfo) (w : Walk), s.chain.dnLock = true → s.chain.dnPartner = true → s.chain.walk = some w →
      isHead s = true → islandHead s = false → i.hdr.crc = .good → i.gen = w.gen →
      (w.claims.find? (fun j => j.hop == i.hop && j.serial == i.serial) = none →
        (w.claims.find? (fun j => j.accept && j.addr == i.addr) = none → i.addr ≠ s.chain.addr →
          Completes (.enumClaim i) s fun t =>
            t.chain.walk = some { w with claims := w.claims ++
              [{ hop := i.hop, addr := i.addr, serial := i.serial, accept := true }] } ∧
            t.chain.dupCount = s.chain.dupCount ∧ t.ev = s.ev) ∧
        ((w.claims.find? (fun j => j.accept && j.addr == i.addr)).isSome = true ∨ i.addr = s.chain.addr →
          Completes (.enumClaim i) s fun t =>
            t.chain.walk = some { w with claims := w.claims ++
              [{ hop := i.hop, addr := i.addr, serial := i.serial, accept := false }] } ∧
            t.chain.dupCount = satInc s.chain.dupCount ∧
            (∃ r, t.chain.dupReports = s.chain.dupReports ++ [r] ∧ r.hop2 = i.hop ∧ r.serial2 = i.serial ∧
              r.addr = i.addr) ∧
            (s.ev.host.length < 64 → Held .host 0x0302 0xFF t))) ∧
      (Completes (.enumEnd i) s fun t =>
        t.chain.walk = none ∧ t.chain.walked = true ∧ t.chain.enumBusy = false ∧ t.chain.gen = w.gen ∧
        t.chain.headAddr = s.chain.addr ∧
        (i.stalled = true → s.ev.host.length < 64 → Held .host 0x0303 0xFF t) ∧
        (∀ q, w.q = some q → ∃ u, t = reply q { data := be 2 w.gen.toNat ++ be 2 i.hop.toNat ++ be 4 (chDup u).toNat } u))) ∧
    (∀ (i : EnumInfo) (c : Claim), s.chain.upLock = true → s.chain.upPartner ≠ .none → s.chain.claim = some c →
      myVerdict i c s = true →
      (c.waiting = true → Completes (.enumVerdict i) s fun t =>
        t.chain.claim = some { c with waiting := false, rejected := !i.accept, startSent := s.chain.dnPartner } ∧
        Only [.chain] s t) ∧
      (c.waiting = false → Completes (.enumVerdict i) s fun t =>
        t.chain.claim = some { c with rejected := c.rejected || !i.accept } ∧ Only [.chain] s t)) ∧
    (∀ w : Walk, s.chain.walk = some w → w.claims.all (fun j => j.hop != 1) = true → islandHead s = false →
      Completes .enumStallTimeout s fun t =>
        t.chain.walk = none ∧ t.chain.enumBusy = false ∧ (s.ev.host.length < 64 → Held .host 0x0303 0xFF t)) ∧
    (∀ c : Claim, s.chain.walk = none → s.chain.claim = some c → c.startSent = true →
      Completes .enumStallTimeout s fun t => t.chain.claim = some { c with startSent := false } ∧
        (s.chain.upLock = true → s.chain.upPartner ≠ .none → ∃ f, t.chain.upLine = some f ∧ f.ftype = 3 ∧
          f.payload.headD 0 = 3 ∧ (byteAt f.payload 1).getLsbD 3 = true) ∧ Only [.chain] s t) ∧
    (∀ c : Claim, s.chain.claim = some c → c.waiting = true →
      (c.sends < 3 → Completes .claimResend s fun t =>
        t.chain.claim = some { c with sends := c.sends + 1 } ∧ Only [.chain] s t) ∧
      (3 ≤ c.sends → Completes .claimResend s fun t =>
        t.chain.claim = some { c with waiting := false, rejected := true, startSent := s.chain.dnPartner } ∧
        (s.ev.host.length < 64 → Held .host 0x0303 0xFF t)))

/-- R177, R179, R182, R183, R188 to R190: a motion update, the hand-over at the commit floor with its dropped and
missed edges, the loss of motion and a latency measurement. The model's own choices behind it: log entries 2, 17, 19,
53, 54 and 55. -/
def Obligations.MotionHandoverAndLatency : Prop :=
  ∀ s : State, hcoreRuns s = true →
    (∀ ready : Fin 2001, s.modes.mode ≠ .sand →
      let u := toEdge 9 8000000 s
      let m := motionModel u
      let centre := match u.sect.body with | some b => speedAt m b.cy | none => m.speed
      Completes (.motionUpdate ready) s fun t =>
        t.sect.motion = { m with stopped := speedBelow centre u.sect.minSpeed } ∧
        (t.sect.motion.valid = true ↔ ∃ f, fixFrameOf u = some f ∧ frameDiff (now u) f ≤ 100000 * s.sect.drLimit) ∧
        t.clk = (advanceTo (u.clk.tb.toNat + ready.val * ticksPerFrame) u).clk) ∧
    (s.sect.motion.valid = true → Completes .motionLost s fun t =>
      t.sect.motion.valid = false ∧ (∀ n : Fin 32, s.sect.ch[n].geom.isSome = true → t.sect.ch[n].stopped = true) ∧
      t.out = s.out ∧
      t.clk = (match s.sect.motion.fixFrame with
        | some f => (advanceTo (tickAt (f + BitVec.ofNat 48 (100000 * s.sect.drLimit + 1)) 0 s) s).clk
        | none => s.clk)) ∧
    (s.modes.clay = false → s.sect.preds = [] → s.barr.heldEdges = [] → Completes .edgeHandover s fun t =>
      t = advanceTo (tickAt s.sect.motion.frame 0 s + 2000 * ticksPerFrame) s) ∧
    (∀ p : Pred, s.modes.clay = false → s.sect.preds = [p] → s.barr.heldEdges = [] → p.seg.isSome = true →
      p.time < (tickAt s.sect.motion.frame 0 s * 32) + 20000 * 25600 →
      let u := tickAt s.sect.motion.frame 0 s * 32
      (p.skip = true ∨ missed s p = true → Completes .edgeHandover s fun t =>
        t.sect.preds = [] ∧ t.sect.handed = s.sect.handed ∧ t.sect.ch[p.ch].target = p.on ∧
        (s.fw.asBuf.length < 4096 → ∃ r, t.fw.asBuf = s.fw.asBuf ++ [r] ∧
          r.outcome = (if p.skip then 3 else 2) ∧ r.ch = p.ch)) ∧
      (p.skip = false → missed s p = false → Completes .edgeHandover s fun t =>
        t.sect.preds = [] ∧ t.sect.ch[p.ch].target = p.on ∧
        t.sect.ch[p.ch].lastEdge = max p.time (u + 2000 * 25600) ∧
        ∃ h, t.sect.handed = s.sect.handed ++ [h] ∧ h.edge.ch = p.ch ∧ h.edge.on = p.on ∧
          h.edge.frame = BitVec.ofNat 48 (max p.time (u + 2000 * 25600) / 25600) ∧
          h.pred.late = (p.late || decide (p.time < u + 2000 * 25600)))) ∧
    (∀ (n : Fin 32) (on : Bool) (xs : List Nat) (edgeMv sigMv : Nat) (g : Geom) (a : BitVec 64 × Bool),
      s.sect.ch[n].geom = some g → g.learn = true →
      (ochMode s n.val = 0 ∨ ochMode s n.val = 1 ∨ ochMode s n.val = 3) →
      s.out.ch[n].acts.find? (fun a => a.2 == on) = some a →
      let v := signature g on xs
      Completes (.latencyMeasure n on xs edgeMv sigMv) s fun t =>
        (match rejection (if on then s.sect.ch[n].latOn else s.sect.ch[n].latOff) v (cutShort s n a.1 (v.getD 0))
            (supplyMoved edgeMv sigMv) with
          | none => t.sect.ch[n].acc = satInc s.sect.ch[n].acc ∧ t.sect.ch[n].rej = s.sect.ch[n].rej ∧
              (if on then t.sect.ch[n].latOn else t.sect.ch[n].latOff) =
                learn g.shift (v.getD 0) (if on then s.sect.ch[n].latOn else s.sect.ch[n].latOff)
          | some why => t.sect.ch[n].rej = satInc s.sect.ch[n].rej ∧ t.sect.ch[n].acc = s.sect.ch[n].acc ∧
              (if on then t.sect.ch[n].latOn else t.sect.ch[n].latOff).est =
                (if on then s.sect.ch[n].latOn else s.sect.ch[n].latOff).est ∧
              (if on then t.sect.ch[n].latOn else t.sect.ch[n].latOff).lastRej = why) ∧
        t.out.ch[n].acts = s.out.ch[n].acts.erase a ∧
        t.clk = (advanceTo (a.1.toNat + g.window * 4000000) s).clk ∧
        (∀ m : Fin 32, m ≠ n → t.sect.ch[m] = s.sect.ch[m]) ∧ Only [.clk, .barr, .out, .ev, .sect] s t)

/-- R17, R176, R189, R191, R193, R198, R199, R443: SWITCH_LINE stores the records of the planner source alone,
SWITCH_CLEAR takes the masked channels' lines and edges away and puts them off but for their overrides, GEOMETRY_SET
is refused in Loam outside Clay and for places on a -B, LOOKAHEAD_SET and LATENCY_SEED change the masked channels
alone, MOTION_GET and LATENCY_GET report, and a set-point of the Task Controller is kept, and commanded outside Clay
and islands where it differs. The model's own choices behind it: log entries 17, 19 and 50. -/
def Obligations.SectionOpcodesSetAndReport : Prop :=
  ∀ (q : Request) (s : State),
    (∀ rs, Accepted 0x30 q s → parseLines (reqBody q) = .ok rs → lineCheck q s = none →
      (plannerSource q s = false ∨ plannerDiffers s = true → Answers (.switchLine q) q s (fun u =>
        { u with pkt := { u.pkt with plannerRefused := satInc u.pkt.plannerRefused } }) { status := 0x11, detail := 0x25 }) ∧
      (∀ l : SwLine, rs = [.line l] → plannerSource q s = true → plannerDiffers s = false → planner s ≠ 0 →
        l.id ≠ 0 → s.sect.lines.all (fun x => x.id != l.id) = true → s.sect.lines.length < 4096 →
        Completes (.switchLine q) s fun t => t.sect.lines = s.sect.lines ++ [l] ∧ t.sect.ch = s.sect.ch ∧
          Answered q { data := be 2 1 ++ be 2 (4095 - s.sect.lines.length) } t ∧ Served [.sect] s t) ∧
      (∀ a b c, rs = [.origin a b c] → plannerSource q s = true → plannerDiffers s = false → planner s ≠ 0 →
        s.sect.lines.length ≤ 4096 →
        Completes (.switchLine q) s fun t => t.sect.origin = some (a, b, c) ∧ t.sect.lines = s.sect.lines ∧ Served [.sect] s t)) ∧
    (Accepted 0x31 q s → (reqBody q).length = 4 → Completes (.switchClear q) s fun t =>
      (∀ l ∈ t.sect.lines, l.mask &&& wordAt (reqBody q) 0 = 0) ∧
      (∀ p ∈ t.sect.preds, bit (wordAt (reqBody q) 0) p.ch.val = false) ∧
      (∀ n : Fin 32, bit (wordAt (reqBody q) 0) n.val = true → t.out.ch[n].queue = [] ∧ t.out.ch[n].gate = false ∧
        t.sect.ch[n].target = false ∧ t.out.ch[n].ovr = s.out.ch[n].ovr) ∧
      (∀ n : Fin 32, bit (wordAt (reqBody q) 0) n.val = false → t.sect.ch[n] = s.sect.ch[n]) ∧
      Answered q { status := if contradicted (wordAt (reqBody q) 0) s then 0x41 else 0 } t) ∧
    (∀ rs, Accepted 0x32 q s → parseGeometry (reqBody q) = .ok rs → geometryFits rs s.sect.body.isSome s = true →
      (s.modes.mode = .loam → s.modes.clay = false → Answers (.geometrySet q) q s id { status := 0x11, detail := 0x23 }) ∧
      (s.modes.clay = true → s.id.variant = .b → rs.any isPlace = true → Answers (.geometrySet q) q s id { status := 0x13 }) ∧
      (s.modes.clay = true → s.id.variant = .g2 →
        Answers (.geometrySet q) q s (fun u => rs.foldl (fun s r => applyGeo r s) u) {})) ∧
    (Accepted 0x33 q s → (reqBody q).length = 10 → lookOk ((reqBody q).drop 4) = true → Completes (.lookaheadSet q) s fun t =>
      (∀ n : Fin 32, t.sect.ch[n] = if bit (wordAt (reqBody q) 0) n.val then
        { s.sect.ch[n] with hyd := beAt (reqBody q) 4 2, flight := beAt (reqBody q) 6 2, margin := s16At (reqBody q) 8 }
        else s.sect.ch[n]) ∧ Answered q {} t ∧ Served [.sect] s t) ∧
    (Accepted 0x34 q s → (reqBody q).length = 2 → 1 ≤ (byteAt (reqBody q) 1).toNat → (byteAt (reqBody q) 1).toNat ≤ 16 →
      (byteAt (reqBody q) 0).toNat + (byteAt (reqBody q) 1).toNat ≤ 32 → Answers (.latencyGet q) q s id {
        data := ((List.range (byteAt (reqBody q) 1).toNat).flatMap fun i =>
          latencyBytes s (Fin.ofNat 32 ((byteAt (reqBody q) 0).toNat + i))) }) ∧
    (Accepted 0x35 q s → (reqBody q).length = 8 → 1 ≤ beAt (reqBody q) 4 2 → beAt (reqBody q) 4 2 ≤ 20000 →
      1 ≤ beAt (reqBody q) 6 2 → beAt (reqBody q) 6 2 ≤ 20000 → Completes (.latencySeed q) s fun t =>
        (∀ n : Fin 32, t.sect.ch[n] = if bit (wordAt (reqBody q) 0) n.val then
          { s.sect.ch[n] with latOn := { est := 10 * beAt (reqBody q) 4 2, seeded := true },
                              latOff := { est := 10 * beAt (reqBody q) 6 2, seeded := true } }
          else s.sect.ch[n]) ∧ Answered q {} t ∧ Served [.sect] s t) ∧
    (Accepted 0x36 q s → (reqBody q).length = 0 → Answers (.motionGet q) q s id { data := motionBytes s.sect.motion }) ∧
    (∀ (k : Fin 256) (on : Bool) (f : Frame48), hcoreRuns s = true → planner s = 0 → isHead s = true →
      let want := s.sect.tcWant.filter (fun c => c.1 != k) ++ [(k, on, f)]
      (s.modes.clay = true ∨ islandHead s = true ∨ commanded s k = on →
        exec (.tcSetpoint k on f) s = .next { s with sect := { s.sect with tcWant := want } }) ∧
      (s.modes.clay = false → islandHead s = false → commanded s k ≠ on → Completes (.tcSetpoint k on f) s fun t =>
        t.sect.tcWant = want ∧ t.sect.tcCmd = putSection k on s.sect.tcCmd ∧ t.out = s.out ∧ t.clk = s.clk))

/-- R205, R206, R208, R211, R222, R447: a stored edge, a generator edge, a period boundary, the end of a counting
period and the energising of a staggered driver, each at its tick and fine step (R207). The model's own choices behind
it: log entries 2, 14, 52 and 54. -/
def Obligations.ChannelsActAtTheirTicks : Prop :=
  ∀ (s : State) (n : Fin 32),
    (∀ (e : Edge) (q : List Edge), s.out.ch[n].queue = e :: q → s.modes.clay = false →
      Completes (.edgeExecute n) s fun t =>
        t.out.ch[n].queue = q ∧ t.out.ch[n].gate = e.on ∧ t.clk = (advanceTo (edgeKey s e) s).clk ∧
        (s.out.ch[n].gate ≠ e.on → ochMode s n.val = 0 → t.out.ch[n].edgeFine = e.fine) ∧
        Only [.free, .clk, .barr, .chain, .out, .sense, .fw, .ev, .sect] s t) ∧
    (∀ k : Nat, s.out.ch[n].gen = true →
      nextChange s.out.ch[n] (s.clk.tb.toNat - s.out.ch[n].perStart.toNat) = some k →
      let f := s.out.ch[n].perFine.toNat +
        (if s.out.ch[n].genOut then s.out.ch[n].offFine.toNat else s.out.ch[n].onFine.toNat)
      Completes (.generatorEdge n) s fun t =>
        t.out.ch[n].genOut = !s.out.ch[n].genOut ∧ t.out.ch[n].gate = s.out.ch[n].gate ∧
        t.out.ch[n].edgeFine = BitVec.ofNat 5 f ∧
        t.clk = (advanceTo (s.out.ch[n].perStart.toNat + k + f / 32) s).clk ∧ Only [.clk, .barr, .out, .ev] s t) ∧
    (s.out.ch[n].gen = true → Completes (.periodBoundary n) s fun t =>
        t.out.ch[n].perStart = s.out.ch[n].perStart + s.out.ch[n].period.setWidth 64 ∧
        t.out.ch[n].period = och s n.val 0x04 ∧ t.out.ch[n].onAt = och s n.val 0x08 ∧
        t.out.ch[n].gate = s.out.ch[n].gate ∧ Only [.clk, .barr, .out, .ev] s t) ∧
    (s.out.ch[feeder s n].gen = false ∨ fanHeld s n = true → Completes (.countingPeriodEnd n) s fun t =>
        t.out.ch[n] = closePeriod (leakK s n.val) s.out.ch[n] ∧
        (∀ m : Fin 32, m ≠ n → t.out.ch[m] = s.out.ch[m]) ∧
        t.clk = (toEdge (100 + n.val) 800000 s).clk ∧ Only [.clk, .barr, .out] s t) ∧
    (waiting s = [n] → s.out.ch[n].grant = .staggered →
      (let f := roomFrame s.out.recent (stagN s) (field (reg s 0x140014) 13 0) (now s + 1)
       let u := advanceTo (tickAt f 0 s) s
       (standing (dueInFrame u) u).2 < stagN s → Completes .staggerEnergise s fun t =>
        t.out.ch[n].grant = .granted ∧ t.clk = u.clk ∧
        (∀ m : Fin 32, m ≠ n → leader s m ≠ n → t.out.ch[m] = s.out.ch[m]) ∧
        Only [.clk, .barr, .out, .fw, .ev, .sect] s t))

/-- R218, R219, R220: overcurrent, short circuit, a TRIP input and over-temperature take the gate drive of their
driver away; a level within the threshold does nothing. R219, R220, R221: the ends of blanking, of the inrush window,
of the short's hold, of the temperature hold, and the retry of a tripped SWITCH channel. The model's own choices
behind it: log entries 2 and 14. -/
def Obligations.TripsTakeTheGateDriveAndTheirTimersEnd : Prop :=
  (∀ (s : State) (n : Fin 32),
    (∀ x : BitVec 12, driverOn s n = true → s.out.ch[leader s n].blanking = false → threshold s n < x.toNat →
      Completes (.overcurrentTrip n x) s fun t =>
        driverOn t n = false ∧ t.out.ch[leader s n].tripped = true ∧ t.out.ch[leader s n].lastSrc = .overcurrent ∧
        t.out.ch[leader s n].trips = (if s.out.ch[leader s n].tripInPeriod then s.out.ch[leader s n].trips
          else satInc s.out.ch[leader s n].trips) ∧
        (∀ m : Fin 32, m ≠ leader s n → leader s m ≠ leader s n → t.out.ch[m] = s.out.ch[m]) ∧
        Only [.barr, .out, .ev] s t) ∧
    (∀ x : BitVec 12, x.toNat ≤ threshold s n → exec (.overcurrentTrip n x) s = .next s) ∧
    (driverOn s n = true → Completes (.shortCircuitTrip n) s fun t =>
      driverOn t n = false ∧ t.out.ch[n].shortHeld = true ∧
      t.out.ch[leader s n].shorts = satInc s.out.ch[leader s n].shorts ∧
      t.out.ch[leader s n].tripped = true ∧ Only [.barr, .out, .ev] s t) ∧
    (Completes (.overtempTrip n) s fun t =>
      driverOn t n = false ∧ t.out.ch[n].hot = true ∧ Only [.barr, .out, .ev] s t) ∧
    (∀ (i : Fin 4) (level : Bool), bit (reg s (0x100B00 + 8 * i.val)) 0 = true →
      (level = bit (reg s (0x100B00 + 8 * i.val)) 1 → Completes (.tripInput i level) s fun t =>
        t.out.tripActive.getLsbD i.val = true ∧
        t.out.tripCnt[i] = (if s.out.tripActive.getLsbD i.val then s.out.tripCnt[i] else satInc s.out.tripCnt[i]) ∧
        (bit (reg s (0x100B04 + 8 * i.val)) n.val = true → s.out.ch[leader s n].blanking = false →
          driverOn t n = false) ∧ Only [.barr, .out, .ev] s t) ∧
      (level ≠ bit (reg s (0x100B00 + 8 * i.val)) 1 → exec (.tripInput i level) s = .next { s with out := { s.out with
        tripActive := s.out.tripActive &&& ~~~ BitVec.ofNat 4 (2 ^ i.val) } }))) ∧
  (∀ (s : State) (n : Fin 32),
    (Completes (.inrushEnd n) s fun t =>
      OneChannel (leader s n) { s.out.ch[leader s n] with inrush := false } s t) ∧
    (Completes (.shortOffEnd n) s fun t => t.out.ch[n].shortHeld = false ∧
      (s.modes.clay = true → OneChannel n { s.out.ch[n] with shortHeld := false } s t) ∧ Only [.barr, .out, .ev] s t) ∧
    (Completes (.overtempRelease n) s fun t => t.out.ch[n].hot = false ∧
      (s.modes.clay = true → OneChannel n { s.out.ch[n] with hot := false } s t) ∧ Only [.barr, .out, .ev] s t) ∧
    (∀ x : BitVec 12, s.out.ch[leader s n].blanking = true →
      (driverOn s n = false ∨ (x.toNat ≤ threshold s n ∧ tripInputOn s (leader s n) = none) →
        Completes (.blankingEnd n x) s fun t =>
          OneChannel (leader s n) { s.out.ch[leader s n] with blanking := false } s t) ∧
      (driverOn s n = true → threshold s n < x.toNat → Completes (.blankingEnd n x) s fun t =>
        driverOn t n = false ∧ t.out.ch[leader s n].tripped = true ∧ t.out.ch[leader s n].blanking = false ∧
        Only [.barr, .out, .ev] s t)) ∧
    (∀ f : Frame48, s.out.ch[n].retryFrom = some f → s.out.ch[n].blanking = false → tripInputOn s n = none →
      frameDiff f (now (advanceTo (tickAt f 0 s) s)) ≤ 0 →
      Completes (.tripRetry n) s fun t =>
        t.out.ch[n].retryFrom = none ∧ (driverCmd s n = true → t.out.ch[n].tripped = false) ∧
        (∀ m : Fin 32, m ≠ n → t.out.ch[m] = s.out.ch[m]) ∧ t.clk = (advanceTo (tickAt f 0 s) s).clk ∧
        Only [.clk, .barr, .out] s t))

/-- R212, R213, R215, R225, R226: peak and hold, lamp measurements and the calibration. The model's own choices behind
it: log entry 2. -/
def Obligations.PeakHoldLampsAndCalibration : Prop :=
  ∀ (s : State) (n : Fin 32),
    (∀ x : BitVec 12, s.out.ch[n].peakPhase = true →
      (10 * field (och s n.val 0x20) 7 0 ≤ x.toNat → Completes (.peakPhaseEnd n x) s fun t =>
        t.out.ch[n].peakPhase = false ∧ t.out.ch[n].peakMiss = s.out.ch[n].peakMiss ∧
        t.out.ch[n].holdAt = s.clk.tb ∧ (domOn s 15 = true → ∀ d ∈ driversOf s n, t.out.ch[d].sample = x) ∧
        Only [.out] s t) ∧
      (x.toNat < 10 * field (och s n.val 0x20) 7 0 → Completes (.peakPhaseEnd n x) s fun t =>
        t.out.ch[n].peakPhase = false ∧ t.out.ch[n].peakMiss = true ∧ t.out.ch[n].holdAt = t.clk.tb ∧
        t.clk = (advanceTo (s.out.ch[n].edgeAt.toNat + 800 * field (och s n.val 0x20) 23 8) s).clk ∧
        Only [.clk, .barr, .out, .ev] s t)) ∧
    (∀ x : BitVec 12, holding s n = true → s.out.ch[n].holdOff = false → Completes (.holdChopOff n x) s fun t =>
      t.out.ch[n].holdOff = true ∧
      t.clk = (if 10 * field (och s n.val 0x24) 7 0 ≤ x.toNat then s
        else advanceTo (s.out.ch[n].holdAt.toNat + holdPeriod s n - 800) s).clk ∧
      (∀ d : Fin 32, leader s d = d → driverCmd t d ≠ driverCmd s d →
        t.out.ch[d].blanking = (field (och s d.val 0x14) 15 8 != 0)) ∧ Only [.clk, .barr, .out] s t) ∧
    (holding s n = true → s.out.ch[n].holdOff = true → Completes (.holdPeriodStart n) s fun t =>
      let at' := s.out.ch[n].holdAt.toNat + holdPeriod s n
      t.out.ch[n].holdOff = false ∧ t.out.ch[n].holdAt = BitVec.ofNat 64 at' ∧ t.clk = (advanceTo at' s).clk ∧
      (∀ d : Fin 32, leader s d = d → driverCmd t d ≠ driverCmd s d →
        t.out.ch[d].blanking = (field (och s d.val 0x14) 15 8 != 0)) ∧ Only [.clk, .barr, .out] s t) ∧
    (∀ xs : List (BitVec 12), ochMode s (feeder s n).val = 4 → s.out.ch[feeder s n].gen = true →
      9600 ≤ onLength s.out.ch[feeder s n] → driverOn s n = true →
      (field (och s n.val 0x1C) 9 4 * 10 * xs.length ≤ xs.foldl (fun a x => a + x.toNat) 0 * 5 →
        Completes (.lampMeasure n xs) s fun t =>
          t.out.ch[n].lamp = .ok ∧ t.out.ch[n].diagMode = false ∧ t.out.ch[n].opens = 0 ∧
          t.out.ch[n].supplyShorts = 0 ∧ t.out.ch[n].measured = true ∧ OneChannel n t.out.ch[n] s t) ∧
      (xs.foldl (fun a x => a + x.toNat) 0 * 5 < field (och s n.val 0x1C) 9 4 * 10 * xs.length →
        s.out.ch[n].opens = 2 → s.ev.field.length < 64 → Completes (.lampMeasure n xs) s fun t =>
          t.out.ch[n].lamp = .opened ∧ Held .field 0x1003 (chanByte n) t ∧ Only [.barr, .out, .ev] s t)) ∧
    (∀ mv : Nat, ochMode s (feeder s n).val = 4 → bit (och s n.val 0x1C) 1 = true → driverOn s n = false →
      (let c := s.out.ch[feeder s n]
       c.gen = false ∨ (onLength c < 9600 ∧ onLength c + 40000 ≤ c.period.toNat)) →
      s.modes.clay = false → domOn s 15 = true →
      (mv < 1500 → Completes (.lampOffMeasure n mv) s fun t => OneChannel n { s.out.ch[n] with
          lamp := .ok, diagMode := true, opens := 0, supplyShorts := 0, measured := true } s t) ∧
      (7000 < mv → s.out.ch[n].supplyShorts = 1 → s.ev.field.length < 64 →
        Completes (.lampOffMeasure n mv) s fun t =>
          t.out.ch[n].lamp = .shortToSupply ∧ Held .field 0x1005 (chanByte n) t ∧ Only [.barr, .out, .ev] s t)) ∧
    (∀ tap : Byte, domOn s 14 = true → bit (reg s 0x110000) 0 = false → s.barr.fieldClock = true →
      s.barr.replicaLoaded = true →
      (s.out.calLast = none ∨ s.out.calLast = some tap → Completes (.calMeasure true tap) s fun t =>
        t.out.calCount = s.out.calCount + 1 ∧ t.out.calTap = tap ∧ t.out.calFail = false ∧ t.out.calFrame = now t ∧
        t.clk = (toEdge 2 819200 s).clk ∧ Only [.clk, .barr, .out] s t) ∧
      (s.out.calFails = 2 → s.ev.field.length < 64 → Completes (.calMeasure false tap) s fun t =>
        t.out.calFail = true ∧ t.out.calCount = s.out.calCount ∧ t.out.calTap = s.out.calTap ∧
        Held .field 0x1101 0xFF t ∧ Only [.clk, .barr, .out, .ev] s t))

/-- R440 to R445: disagreement of a driver's current with its command, the field disconnect, and its reclosure. The
model's own choices behind it: log entries 14 and 36. -/
def Obligations.DisagreementAndDisconnect : Prop :=
  ∀ (s : State) (n : Fin 32),
    (∀ x : BitVec 12, domOn s 15 = true → driverOn s n = false → onThr s ≤ x.toNat → s.out.ch[n].obsOn = false →
      s.ev.field.length < 63 → Completes (.disagreeOn n x) s fun t =>
        t.out.ch[n].obsOn = true ∧ t.out.ch[n].latched = true ∧ t.out.ch[n].forceHold = true ∧
        t.out.ch[n].onset = now s ∧ Held .field 0x1501 (chanByte n) t ∧ Only [.barr, .out, .ev] s t) ∧
    (∀ x : BitVec 12, domOn s 15 = true → driverOn s n = true → ochMode s (leader s n).val = 0 →
      x.toNat < offThr s → s.out.ch[n].obsOff = false → s.ev.field.length < 64 →
      Completes (.disagreeOff n x) s fun t =>
        t.out.ch[n].obsOff = true ∧ t.out.ch[n].onset = now s ∧ t.out.ch[n].latched = s.out.ch[n].latched ∧
        Held .field 0x1502 (chanByte n) t ∧ Only [.barr, .out, .ev] s t) ∧
    (Completes (.disagreeEnd n) s fun t =>
      OneChannel n { s.out.ch[n] with obsOn := false, obsOff := false, forceHold := false } s t) ∧
    (∀ x : BitVec 12, s.out.ch[n].obsOn = true → s.out.ch[n].forceHold = true → onThr s ≤ x.toNat →
      Completes (.disconnectHoldExpiry n x) s fun t =>
        t.out.discOpen = true ∧ t.out.discReason = 1 ∧ t.out.discCount = satInc s.out.discCount ∧
        t.modes.clay = true ∧ t.modes.active.getLsbD 4 = true ∧ t.clk = (toFieldFrame s).clk ∧
        Only [.modes, .clk, .barr, .pkt, .out, .sense, .loop, .fw, .ev, .sect] s t) ∧
    (Completes .fdiscCtrlOpen s fun t =>
        t.out.discOpen = true ∧ t.out.discReason = 2 ∧ t.out.discCount = satInc s.out.discCount ∧
        t.modes.clay = true ∧ t.modes.active.getLsbD 4 = true ∧ t.clk = (toFieldFrame s).clk ∧
        Only [.modes, .clk, .barr, .pkt, .out, .sense, .loop, .fw, .ev, .sect] s t) ∧
    (s.out.discOpen = true →
      ((s.modes.clay = true ∧ ∀ m : Fin 32, s.out.ch[m].obsOn = false) →
        exec .fdiscCtrlClose s = .next { s with out := { s.out with softStart := true } }) ∧
      (s.modes.clay = false → exec .fdiscCtrlClose s = .next s)) ∧
    (s.out.softStart = true → Completes .softStartEnd s fun t =>
      t.out.softStart = false ∧ t.out.discOpen = false ∧ t.out.discReason = 0 ∧ t.clk = (toFieldFrame s).clk ∧
      (s.modes.clay = true → ∀ m : Fin 32, t.out.ch[m] = s.out.ch[m]) ∧ Only [.clk, .barr, .out, .ev] s t)

/-- R165 to R167, R443, R448, R485: OCH_SET, OCH_TIMING, OCH_CLEAR, OCH_FLUSH and OCH_STATUS cross to the field side
(R154) or are refused while the barrier is down, and act there on the channels of their mask; a command off that an
observed output contradicts is answered DISAGREE, and in Clay OCH_SET is refused. R166, R208, R210: OCH_EDGES hands an
edge over in a batch with a fresh TAG, or refuses the request whole: an edge less than 400 frames ahead, Clay, a
channel bound to a section. The model's own choices behind it: log entries 13 and 14. -/
def Obligations.OutputCommandsAndEdgesReachTheirChannels : Prop :=
  (∀ (q : Request) (s : State),
    (Accepted 0x20 q s → (reqBody q).length = 5 → (byteAt (reqBody q) 4).toNat ≤ 2 → Crosses (.ochSet q) 0x20 q s) ∧
    (Accepted 0x21 q s → ochTimingCheck q s = none → Crosses (.ochTiming q) 0x21 q s) ∧
    (Accepted 0x23 q s → (reqBody q).length = 4 → Crosses (.ochClear q) 0x23 q s) ∧
    (Accepted 0x24 q s → (reqBody q).length = 0 → Crosses (.ochStatus q) 0x24 q s) ∧
    (Accepted 0x25 q s → (reqBody q).length = 4 → Crosses (.ochFlush q) 0x25 q s)) ∧
  (∀ (s : State) (c : CfgWriteCell) (b : List Byte), domOn s 14 = true → domOn s 15 = true →
    let w := partState s
    let mask := wordAt b 0
    (PartArrives ⟨0x20, b⟩ c s → sweepHolds mask s = false →
      (s.modes.clay = true → Completes (.cfgWrite c) s fun t =>
        t.out = s.out ∧ t.clk = w.clk ∧ Acks c 0x11 0x24 [] t ∧ Only [.clk, .barr] s t) ∧
      (s.modes.clay = false → byteAt b 4 = 0 ∨ byteAt b 4 = 2 → Completes (.cfgWrite c) s fun t =>
        (∀ n : Fin 32, t.out.ch[n].gate = s.out.ch[n].gate ∧ t.out.ch[n].ovr =
          (if bit mask n.val then (if byteAt b 4 = 0 then .off else .none) else s.out.ch[n].ovr)) ∧
        (byteAt b 4 = 0 → ∃ d, Acks c (if contradicted mask s then 0x41 else 0) 0 d t) ∧
        t.clk = w.clk ∧ Only [.clk, .barr, .out, .ev] s t) ∧
      (s.modes.clay = false → byteAt b 4 = 1 → Completes (.cfgWrite c) s fun t =>
        (∀ n : Fin 32, t.out.ch[n].gate = s.out.ch[n].gate ∧
          (bit mask n.val = false → t.out.ch[n].ovr = s.out.ch[n].ovr) ∧
          (t.out.ch[n].ovr = .on ∨ t.out.ch[n].ovr = s.out.ch[n].ovr)) ∧ Only [.clk, .barr, .out, .ev] s t)) ∧
    (PartArrives ⟨0x21, b⟩ c s → Canonical s → Completes (.cfgWrite c) s fun t =>
      (∀ n : Fin 32,
        och t n.val 0x04 = (if bit mask n.val then wordAt b 4 else och s n.val 0x04) ∧
        och t n.val 0x08 = (if bit mask n.val then wordAt b 8 else och s n.val 0x08) ∧
        och t n.val 0x0C = (if bit mask n.val then wordAt b 13 else och s n.val 0x0C)) ∧
      Acks c 0 0 [] t ∧ Only [.regs, .clk, .barr] s t) ∧
    (PartArrives ⟨0x23, b⟩ c s → s.out.tripActive = 0 → Completes (.cfgWrite c) s fun t =>
      (∀ n : Fin 32, bit mask n.val = true →
        t.out.ch[n].latched = false ∧ t.out.ch[n].trips = 0 ∧ t.out.ch[n].gate = false) ∧
      (∀ n : Fin 32, bit mask n.val = false → t.out.ch[n].latched = s.out.ch[n].latched ∧
        t.out.ch[n].gate = s.out.ch[n].gate) ∧
      Acks c 0 0 (be 4 (maskOf (fun n => bit mask n && s.out.ch[Fin.ofNat 32 n].latched) 32).toNat) t) ∧
    (PartArrives ⟨0x24, b⟩ c s → Completes (.cfgWrite c) s fun t => t.out = s.out ∧
      Acks c 0 0 ((List.finRange 32).flatMap fun n =>
        [BitVec.ofNat 8 (ochState s n + 8 * grantCode s.out.ch[n].grant), s.out.ch[n].trips] ++
          be 2 s.out.ch[n].mean.toNat) t ∧ Only [.clk, .barr] s t) ∧
    (PartArrives ⟨0x25, b⟩ c s → Completes (.cfgWrite c) s fun t =>
      (∀ n : Fin 32, bit mask n.val = true →
        t.out.ch[n].queue = [] ∧ t.out.ch[n].ovr = .none ∧ t.out.ch[n].gate = false) ∧
      (∀ n : Fin 32, bit mask n.val = false → t.out.ch[n].queue = s.out.ch[n].queue ∧
        t.out.ch[n].ovr = s.out.ch[n].ovr ∧ t.out.ch[n].gate = s.out.ch[n].gate) ∧
      t.barr.heldEdges = s.barr.heldEdges.filter (fun e => !bit mask e.ch.val) ∧
      Acks c (if contradicted mask s then 0x41 else 0) 0 [] t)) ∧
  (∀ (q : Request) (s : State), Accepted 0x22 q s → ochEdgesCheck q s = none →
    let es := (edgeEntries q).filterMap id
    (es.any (fun e => frameDiff e.frame (now s) < 400) = true → Answers (.ochEdges q) q s id { status := 0x30 }) ∧
    (es.any (fun e => frameDiff e.frame (now s) < 400) = false → linkUp s = true →
      (s.modes.clay = true → Answers (.ochEdges q) q s id { status := 0x11, detail := 0x24 }) ∧
      (s.modes.clay = false → es.any (fun e => s.sect.ch[e.ch].geom.isSome) = true →
        Answers (.ochEdges q) q s id { status := 0x11, detail := 0x33 }) ∧
      (∀ e : Edge, es = [e] → s.modes.clay = false → s.sect.ch[e.ch].geom = none →
        (∀ m : Word, sweepHolds m s = false) → domOn s 14 = true → crowded (e :: waitingEdges s) = false →
        s.out.ch[e.ch].queue.length + ((crossingEdges s).filter (fun x => x.ch == e.ch)).length < 32 →
        Completes (.ochEdges q) s fun t =>
          t.barr.batches = s.barr.batches ++ [{ tag := s.barr.nextTag, edges := [e], sends := 1 }] ∧
          t.barr.nextTag = nextTagOf s.barr.nextTag ∧ t.barr.heldEdges = s.barr.heldEdges ∧
          Answered q { data := [1] } t ∧ Served [.barr] s t)))

/-- R231 to R237, R249: an edge of a FREQ or QUAD input, the update of the values every 1,000 frames, an accepted
class of a SWITCH input, an open wire, and SIN_READ, which crosses to the field side and is answered there (R154). The
model's own choices behind it: log entries 2 and 13. -/
def Obligations.SenseInputsFollowTheirSignals : Prop :=
  ∀ s : State, domOn s 17 = true → s.barr.fieldClock = true →
    (∀ (n : Fin 16) (rising : Bool) (stamp : BitVec 64), sinType s n = 1 → rolesOf s n = [] →
      Completes (.sinEdge n rising false stamp) s fun t =>
        t.sense.inp[n].level = rising ∧ t.sense.inp[n].wireOpen = false ∧
        t.sense.inp[n].cnt = (if rising then s.sense.inp[n].cnt + 1 else s.sense.inp[n].cnt) ∧
        (rising = true → t.sense.inp[n].edges.head? = some stamp ∧
          t.sense.inp[n].lastInterval = (s.sense.inp[n].edges.head?.map fun e => stamp.toNat - e.toNat)) ∧
        (∀ m : Fin 16, m ≠ n → t.sense.inp[m] = s.sense.inp[m]) ∧ Only [.sense] s t) ∧
    (∀ (n : Fin 16) (rising : Bool) (stamp : BitVec 64), sinType s n = 2 → rolesOf s n = [] → pairWait s n = false →
      let a : Fin 16 := Fin.ofNat 16 (n.val / 2 * 2)
      let up := if n = a then rising != s.sense.inp[pairMate a].level else s.sense.inp[a].level == rising
      Completes (.sinEdge n rising false stamp) s fun t =>
        t.sense.inp[a].pos = (if up then s.sense.inp[a].pos + 1 else s.sense.inp[a].pos - 1) ∧
        t.sense.inp[n].level = rising ∧ Only [.sense] s t) ∧
    (∀ (n : Fin 16) (rising : Bool) (stamp : BitVec 64), sinType s n = 2 → rolesOf s n = [] → pairWait s n = false →
      let a : Fin 16 := Fin.ofNat 16 (n.val / 2 * 2)
      Completes (.sinEdge n rising true stamp) s fun t =>
        t.sense.inp[a].qerr = satInc s.sense.inp[a].qerr ∧
        t.sense.inp[pairMate a].qerr = satInc s.sense.inp[pairMate a].qerr ∧
        t.sense.inp[a].pos = s.sense.inp[a].pos ∧ t.sense.inp[n].level = rising ∧
        t.sense.inp[pairMate n].level = !s.sense.inp[pairMate n].level ∧ Only [.sense] s t) ∧
    (∀ means : List Nat, Completes (.sinUpdate means) s fun t =>
      t.clk = (toEdge 3 800000 s).clk ∧ Only [.clk, .barr, .sense] s t ∧
      ∀ n : Fin 16,
        let mean := means.getD n.val 0
        (sinType s n = 1 → t.sense.inp[n] =
          (let f := freqAt t.clk.tb.toNat s.sense.inp[n]
           { s.sense.inp[n] with
             val := satTo 32 f, valid := true, overF := decide (20000000 < f), underF := false })) ∧
        (sinType s n = 3 → t.sense.inp[n] = { s.sense.inp[n] with
          val := BitVec.ofNat 32 (min mean 25600), valid := true, underF := decide (min mean 25600 < 3600)
          overF := decide (21000 < min mean 25600), wireOpen := decide (min mean 25600 < 3600) }) ∧
        (sinType s n = 4 → t.sense.inp[n] = { s.sense.inp[n] with
          val := BitVec.ofNat 32 (min mean 6144), valid := true, underF := false
          overF := decide (5250 < min mean 6144) }) ∧
        (sinType s n = 5 → t.sense.inp[n] = { s.sense.inp[n] with
          val := BitVec.ofNat 32 (min mean 12288), valid := true, underF := false
          overF := decide (10500 < min mean 12288) })) ∧
    (∀ (n : Fin 16) (ohms : Nat), sinType s n = 6 → Completes (.switchClassAccept n ohms) s fun t =>
      t.sense.inp[n] = (if ohms < 100 then { s.sense.inp[n] with shortF := true, wireOpen := false }
        else if ohms < 2000 then { s.sense.inp[n] with val := 1, shortF := false, wireOpen := false, valid := true }
        else if ohms ≤ 20000 then { s.sense.inp[n] with val := 0, shortF := false, wireOpen := false, valid := true }
        else { s.sense.inp[n] with shortF := false, wireOpen := true }) ∧
      (∀ m : Fin 16, m ≠ n → t.sense.inp[m] = s.sense.inp[m]) ∧ Only [.sense] s t) ∧
    (∀ n : Fin 16, bit (reg s (0x120000 + 0x10 * n.val)) 3 = true → (sinType s n = 1 ∨ sinType s n = 2) →
      rolesOf s n = [] → Completes (.wireOpenDetect n) s fun t =>
        t.sense.inp[n] = { s.sense.inp[n] with wireOpen := true } ∧
        (∀ m : Fin 16, m ≠ n → t.sense.inp[m] = s.sense.inp[m]) ∧ Only [.sense] s t) ∧
    (∀ q : Request, Accepted 0x38 q s → (reqBody q).length = 0 → Crosses (.sinRead q) 0x38 q s) ∧
    (∀ (c : CfgWriteCell) (b : List Byte), PartArrives ⟨0x38, b⟩ c s → Completes (.cfgWrite c) s fun t =>
      Acks c 0 0 ((List.finRange 16).flatMap fun n =>
        be 4 s.sense.inp[n].val.toNat ++ [BitVec.ofNat 8 (sinStatus (partState s) n)]) t ∧
      t.clk = (partState s).clk ∧ Only [.clk, .barr] s t)

/-- R240, R241, R243 to R247: a role whose window expires or that stood too long in TACH_OPEN stalls, with its holds
and its FAULT; a break of the tach wire of a fast RUNNING role is TACH_OPEN; FAN_RESTART crosses to the field side and
starts a role again. The model's own choices behind it: log entries 2 and 13. -/
def Obligations.FansAreSupervised : Prop :=
  ∀ (s : State) (j : Fin 2), fanEnabled s j = true →
    (∀ k : Nat, stallAt s j = some k → Completes (.fanStall j) s fun t =>
      t.sense.fan[j].state = .stalled ∧ t.sense.fan[j].stalls = satInc s.sense.fan[j].stalls ∧
      t.sense.fan[j].driveHold = true ∧ t.sense.fan[j].depHold = reg s (0x12040C + 0x20 * j.val) ∧
      t.sense.fan[j].freeze = true ∧ t.clk = (advanceTo ((k + 799) / 800 * 800) s).clk ∧
      (bit (fanCfg s j) 1 = false → s.ev.field.length < 32 →
        Held .field 0x1201 (chanByte (fanDrive s j)) t)) ∧
    (s.sense.fan[j].state = .tachOpen → field (fanCfg s j) 31 24 ≠ 0 → Completes (.openLimExpiry j) s fun t =>
      t.sense.fan[j].state = .stalled ∧ t.sense.fan[j].stalls = satInc s.sense.fan[j].stalls ∧
      t.sense.fan[j].driveHold = true ∧ t.sense.fan[j].freeze = true ∧
      t.clk = (advanceTo (s.sense.fan[j].entered.toNat + field (fanCfg s j) 31 24 * 800000000) s).clk) ∧
    (let n := fanTach s j
     let f := mHz 1 (s.sense.inp[n].lastInterval.getD 0)
     let k := s.clk.tb.toNat - (s.sense.inp[n].edges.headD 0).toNat
     domOn s 17 = true → s.barr.fieldClock = true → bit (reg s (0x120000 + 0x10 * n.val)) 3 = true → sinType s n = 1 → rolesOf s n = [j] →
     s.sense.fan[j].state = .running →
     (field (fanThr s j) 15 0 * 100 + field (reg s (0x120408 + 0x20 * j.val)) 15 0 * 1000 * k / 800000000 ≤ f →
       Completes (.wireOpenDetect n) s fun t =>
         t.sense.fan[j].state = .tachOpen ∧ t.sense.fan[j].opens = satInc s.sense.fan[j].opens ∧
         t.sense.fan[j].freeze = true ∧ t.sense.inp[n].wireOpen = true ∧
         (s.ev.field.length < 64 → Held .field 0x1202 (chanByte (fanDrive s j)) t)) ∧
     (f < field (fanThr s j) 15 0 * 100 + field (reg s (0x120408 + 0x20 * j.val)) 15 0 * 1000 * k / 800000000 →
       Completes (.wireOpenDetect n) s fun t =>
         t.sense.fan[j].state = .running ∧ t.sense.fan[j].suspect = true ∧ t.sense.inp[n].suspect = true)) ∧
    (∀ q : Request, Accepted 0x39 q s → (reqBody q).length = 1 → (byteAt (reqBody q) 0).toNat ≤ 31 →
      Crosses (.fanRestart q) 0x39 q s) ∧
    (∀ (c : CfgWriteCell) (b : List Byte), PartArrives ⟨0x39, b⟩ c s → domOn s 17 = true →
      (byteAt b 0).toNat = (fanDrive s j).val →
      (∀ k : Fin 2, fanEnabled s k = true → (fanDrive s k).val = (fanDrive s j).val → k = j) →
      s.sense.fan[j].state ≠ .idle → Completes (.cfgWrite c) s fun t =>
        t.sense.fan[j].state = (if s.out.ch[fanDrive s j].gate then .starting else .idle) ∧
        t.sense.fan[j].driveHold = false ∧ t.sense.fan[j].freeze = false ∧
        t.sense.fan[j].depHold = s.sense.fan[j].depHold ∧ t.sense.fan[j].entered = (partState s).clk.tb ∧
        t.clk = (partState s).clk ∧ Acks c 0 0 [] t ∧ Only [.clk, .barr, .out, .sense, .loop, .ev] s t)

/-- R265, R268, R269, R273, R275, R277: LOOP_COEF and LOOP_SWAP leave as coefficient cells with fresh TAGs, LOOP_CTRL
and LOOP_TEST as register writes; RUN and tests are refused in Clay; LOOP_READ crosses and reports. The model's own
choices behind it: log entry 13. -/
def Obligations.LoopCommandsCrossTheBarrier : Prop :=
  ∀ (q : Request) (s : State), linkUp s = true → s.barr.rg6Held = [] → s.barr.rg6.length + 5 ≤ 128 →
    (let b := reqBody q
     Accepted 0x40 q s → loopCoefCheck q s = none → (byteAt b 3).toNat ≤ 4 → Completes (.loopCoef q) s fun t =>
      t.barr.coefs = s.barr.coefs ++ [{ q := q, cells := [{ sends := 1, result := none, cell :=
        { tag := s.barr.nextTag, slot := Fin.ofNat 16 (byteAt b 0).toNat, banked := byteAt b 1 == 1, swap := false
          first := byteAt b 2, words := (chunks 4 4 (b.drop 4)).map fun w => BitVec.ofNat 32 (ofBe w) } }] }] ∧
      t.barr.nextTag = nextTagOf s.barr.nextTag ∧ Only [.barr, .pkt] s t) ∧
    (let b := reqBody q
     Accepted 0x41 q s → b.length = 5 → (byteAt b 0).toNat ≤ 15 → Completes (.loopSwap q) s fun t =>
      t.barr.coefs = s.barr.coefs ++ [{ q := q, cells := [{ sends := 1, result := none, cell :=
        { tag := s.barr.nextTag, slot := Fin.ofNat 16 (byteAt b 0).toNat, banked := false, swap := true
          first := 0, words := [], sample := wordAt b 1 } }] }] ∧
      t.barr.nextTag = nextTagOf s.barr.nextTag ∧ Only [.barr, .pkt] s t) ∧
    (let b := reqBody q
     Accepted 0x42 q s → b.length = 3 → (byteAt b 2).toNat ≤ 2 →
      (byteAt b 2 = 1 → s.modes.clay = true → Answers (.loopCtrl q) q s id { status := 0x11, detail := 0x24 }) ∧
      (byteAt b 2 ≠ 1 ∨ s.modes.clay = false → exec (.loopCtrl q) s = .next (startWrite (.request q) false 0
        [{ addr := 0x130800, value := pack [(beAt b 0 2, 0), ((byteAt b 2).toNat, 16)], mask := 0xFFFFFFFF }]
        (taken q s)))) ∧
    (Accepted 0x43 q s → loopTestCheck q s = none →
      (s.modes.clay = true → Answers (.loopTest q) q s id { status := 0x11, detail := 0x24 }) ∧
      (s.modes.clay = false → s.loop.slot[(Fin.ofNat 16 (byteAt (reqBody q) 0).toNat : Fin 16)].state = .running →
        (s.loop.test.running = true → Answers (.loopTest q) q s id { status := 0x40, detail := 0x26 }) ∧
        (s.loop.test.running = false →
          exec (.loopTest q) s = .next (startWrite (.request q) false 0 (testPuts q) (taken q s))))) ∧
    (Accepted 0x44 q s → (reqBody q).length = 6 → (byteAt (reqBody q) 0).toNat ≤ 15 → byteAt (reqBody q) 1 = 0 →
      Crosses (.loopRead q) 0x44 q s) ∧
    (∀ (c : CfgWriteCell) (b : List Byte), PartArrives ⟨0x44, b⟩ c s → domOn s 16 = true → byteAt b 1 = 0 →
      let i : Fin 16 := Fin.ofNat 16 (byteAt b 0).toNat
      Completes (.cfgWrite c) s fun t =>
        Acks c 0 0 (be 4 (loopStat s.loop.slot[i]).toNat ++
          be 4 (loopSamp (partState s) i).toNat ++ be 4 s.loop.slot[i].out.toNat ++
          be 4 (loopDly s.loop.slot[i]).toNat ++
          be 4 (pack [(s.loop.test.recs.length, 0), (b2n s.loop.test.running, 16), (b2n s.loop.test.done, 17),
            (b2n s.loop.test.aborted, 18), (s.loop.test.slot.val, 24)]).toNat ++
          be 4 s.loop.test.firstSample.toNat ++ be 4 s.loop.test.exps.toNat) t ∧
        t.clk = (partState s).clk ∧ Only [.clk, .barr] s t)

/-- R250, R252, R257 to R262, R264 to R266, R275, R276: the commands of a slot, one sample of a RUNNING slot by its
law with OFF_AT of the channels bound to it, no sample of another, and the one test from its start to its end. The
model's own choices behind it: log entries 2, 10 and 14. -/
def Obligations.LoopSlotsSampleAndObey : Prop :=
  ∀ s : State, domOn s 16 = true →
    (∀ m : BitVec 16,
      (Completes (.loopStop m) s fun t =>
        (∀ i : Fin 16, t.loop.slot[i] =
          if m.getLsbD i.val then { s.loop.slot[i] with state := .stopped } else s.loop.slot[i]) ∧ Only [.loop] s t) ∧
      (s.modes.clay = false → Completes (.loopRun m) s fun t =>
        (∀ i : Fin 16, t.loop.slot[i] = if m.getLsbD i.val && s.loop.slot[i].state = .stopped then
          { s.loop.slot[i] with state := if s.loop.slot[i].fzStall || s.loop.slot[i].fzTach then .frozen else .running }
          else s.loop.slot[i]) ∧ Only [.loop] s t) ∧
      (s.modes.clay = true → exec (.loopRun m) s = .next s) ∧
      (Completes (.loopReset m) s fun t =>
        (∀ i : Fin 16, t.loop.slot[i] = if m.getLsbD i.val then
          { s.loop.slot[i] with integ := 0, deriv := 0, xPrev := 0, uPrev := 0, table := [] }
          else s.loop.slot[i]) ∧ Only [.loop] s t)) ∧
    (∀ (i : Fin 16) (fb : Int), s.loop.slot[i].cells = [] → s.loop.slot[i].swapAt = none →
      let k := nextTrigger s i
      let u := advanceTo k s
      let v : State := { u with clk := { u.clk with marks := putKey (200 + i.val) k u.clk.marks } }
      let x := tableIndex v i (loopSamp v i)
      let r := law s.loop.slot[i] (feedback v i fb).1 x.1 x.2.1 x.2.2 (boundOff v i) none Dy.zero
      (s.loop.slot[i].state ≠ .running → Completes (.loopSample i fb) s fun t =>
        t.loop.slot[i] = s.loop.slot[i] ∧ t.regs = s.regs ∧ t.clk.tb = u.clk.tb) ∧
      (s.loop.slot[i].state = .running → s.loop.test.running = false → Completes (.loopSample i fb) s fun t =>
        t.loop.slot[i].integ = r.slot.integ ∧ t.loop.slot[i].deriv = r.slot.deriv ∧
        t.loop.slot[i].xPrev = r.slot.xPrev ∧ t.loop.slot[i].uPrev = r.slot.uPrev ∧
        t.loop.slot[i].table = r.slot.table ∧ t.loop.slot[i].out = r.slot.out ∧
        t.loop.slot[i].fberr = (feedback v i fb).2 ∧ t.loop.slot[i].state = .running ∧
        t.clk.tb = u.clk.tb ∧ (∀ j : Fin 16, j ≠ i → t.loop.slot[j] = s.loop.slot[j]) ∧
        t.regs = (writeBound i r.u (expOf s.loop.slot[i].active[(0 : Fin 17)] 4) v).regs ∧
        Only [.regs, .clk, .barr, .out, .loop, .ev] s t)) ∧
    (let i : Fin 16 := Fin.ofNat 16 (field (reg s 0x130900) 3 0)
     s.modes.clay = false → s.loop.slot[i].state = .running → s.loop.test.running = false →
     exec .loopTestGo s = .next { s with loop := { s.loop with test :=
       { slot := i, running := true, len := field (reg s 0x130900) 22 8
         lfsr := BitVec.ofNat 16 (field (reg s 0x130908) 15 0), started := true } } }) ∧
    (s.loop.test.running = true →
      (exec .loopTestAbort s = .next { s with loop := { s.loop with test :=
        { s.loop.test with running := false, aborted := true } } }) ∧
      (s.loop.test.len ≤ s.loop.test.recs.length → exec .captureEnd s = .next { s with loop := { s.loop with test :=
        { s.loop.test with running := false, done := true } } }))

/-- R281, R284 to R287, R303: a free channel takes a satellite, an integration boundary is dumped and a late NCO write
waits, carrier lock comes and goes with SLIP, and the measurements are latched at their frame. The model's own choices
behind it: log entries 2 and 33. -/
def Obligations.TheReceiverTracksAndMeasures : Prop :=
  ∀ s : State, tracking s = true →
    (∀ (c : Fin 96) (sat : Byte) (g : Fin 4), signalOn s sat g = true →
      (48 ≤ c.val ↔ g.val = 1 ∨ g.val = 3) → s.gnss.trk[c].used = false →
      (s.gnss.trk.toList.any fun t => t.used && t.sat == sat && t.signal = g) = false →
      Completes (.acquisitionStart c sat g) s fun t =>
        t.gnss.trk[c] = { used := true, sat := sat, signal := g, loopSet := reg s 0x070008, corrSet := reg s 0x07000C } ∧
        (∀ d : Fin 96, d ≠ c → t.gnss.trk[d] = s.gnss.trk[d]) ∧ Only [.gnss] s t) ∧
    (∀ (c : Fin 96) (accum : List Int) (cp kp : Word) (w : Option (Word × Word)), s.gnss.trk[c].used = true →
      (Completes (.trackingDump c accum cp kp w false) s fun t =>
        t.gnss.trk[c] = { s.gnss.trk[c] with
          accum := accum, codePhase := cp, carrPhase := kp, dumps := s.gnss.trk[c].dumps + 1
          code := ((w <|> s.gnss.trk[c].pendWrite).map (·.1)).getD s.gnss.trk[c].code
          carr := ((w <|> s.gnss.trk[c].pendWrite).map (·.2)).getD s.gnss.trk[c].carr
          pendWrite := none, loopSet := reg s 0x070008, corrSet := reg s 0x07000C } ∧ Only [.gnss] s t) ∧
      (Completes (.trackingDump c accum cp kp w true) s fun t =>
        t.gnss.trk[c].pendWrite = w ∧ t.gnss.trk[c].accum = accum ∧
        t.gnss.trk[c].code = (s.gnss.trk[c].pendWrite.map (·.1)).getD s.gnss.trk[c].code ∧ Only [.gnss] s t)) ∧
    (∀ c : Fin 96,
      (s.gnss.trk[c].used = true → Completes (.carrierLock c) s fun t =>
        t.gnss.trk[c] = { s.gnss.trk[c] with lock := true, narrowed := false } ∧ Only [.gnss] s t) ∧
      (s.gnss.trk[c].lock = true → Completes (.carrierLockLoss c) s fun t =>
        t.gnss.trk[c] = { s.gnss.trk[c] with lock := false, slip := true, narrowed := true } ∧ Only [.gnss] s t)) ∧
    (∀ sigs : List MeasSig, clockOn s = true → gnssMode s = 1 → Completes (.gnssMeasure sigs) s fun t =>
      t.clk = (toEdge 10 80000000 s).clk ∧ t.gnss.measFrame = now t ∧ t.gnss.meas = (sigs.take 96).map (markSlip s) ∧
      (∀ c : Fin 96, t.gnss.trk[c] = { s.gnss.trk[c] with slip := false }) ∧ Only [.clk, .barr, .gnss] s t)

/-- R283, R287 to R290, R299, R307: a solution sets the fix, the time validity and GNSS_TOFF, with NONE for too few
satellites; a burst biases the front end and ends with its solution; stale corrections end RTK; the antenna's faults
are reported. The model's own choices behind it: log entries 2, 33 and 37. -/
def Obligations.SolutionsBurstsAndTheAntenna : Prop :=
  ∀ s : State,
    (∀ v : GnssSol, tracking s = true → gnssMode s = 1 → clockOn s = true → Completes (.gnssSolution v) s fun t =>
      let w := limitFix s { v with frame := s.gnss.measFrame }
      t.gnss = { s.gnss with
        sol := some w, solTb := s.clk.tb, timeValid := w.fix != 0 && decide (w.uncertNs ≤ 100)
        toff := satInt 32 ((w.gpsTime : Int) - tbTime s.gnss.measFrame s) } ∧
      (v.sats.toNat < satsNeeded v →
        t.gnss.sol = some { v with frame := s.gnss.measFrame, fix := 0 } ∧ t.gnss.timeValid = false) ∧
      Only [.free, .clk, .barr, .chain, .gnss, .canA, .ev, .sect] s t) ∧
    (tracking s = true → gnssMode s = 2 → clockOn s = true → Completes .burstStart s fun t =>
      t.gnss = { s.gnss with burstBias := true } ∧ Only [.clk, .barr, .gnss] s t) ∧
    (∀ v : GnssSol, tracking s = true → s.gnss.burstBias = true → clockOn s = true →
      let u := advanceTo (s.clk.tb.toNat / ticksPerEpoch * ticksPerEpoch + 48000000 +
        field (reg s 0x070000) 12 8 * 8000000) s
      Completes (.burstEnd v) s fun t =>
        t.gnss.burstBias = s.gnss.snapRun.isSome ∧ t.gnss.solTb = u.clk.tb ∧
        t.gnss.sol = some (limitFix s { v with frame := BitVec.ofNat 48 ((now u).toNat / 100000 * 100000) }) ∧
        Only [.free, .clk, .barr, .chain, .gnss, .canA, .ev, .sect] s t) ∧
    (domOn s 5 = true → Completes .rtcmStale s fun t =>
      t.gnss.rtcmStale = true ∧ t.gnss.msmFresh = false ∧
      (∀ v, s.gnss.sol = some v → t.gnss.sol = some (if v.fix = 3 ∨ v.fix = 4 then { v with fix := sppFix v } else v)) ∧
      Only [.gnss] s t) ∧
    (s.id.variant = .g2 → domOn s 5 = true → s.gnss.antBias = true →
      (Completes .antShort s fun t =>
        t.gnss = { s.gnss with antBias := false, antShort := true, antMa := 0, antOpen := true } ∧
        (s.ev.host.length < 64 → Held .host 0x0702 0xFF t) ∧ Only [.gnss, .barr, .ev] s t) ∧
      (Completes .antOpen s fun t =>
        t.gnss.antOpen = true ∧ t.gnss.antMa.toNat < 3 ∧ t.gnss.antBias = true ∧
        (s.ev.host.length < 64 → Held .host 0x0703 0xFF t) ∧ Only [.free, .gnss, .barr, .ev] s t)) ∧
    (∀ (week : BitVec 16) (tow : Word), isoRuns s = true → isHead s = true → s.canA.claim = .claimed →
      s.gnss.aidTime = none → exec (.timeDateMessage week tow) s = .next { s with gnss := { s.gnss with
        aidTime := some ⟨week, tow, 1000000⟩, aidAt := s.clk.tb, aidMsg := true } })

/-- R287, R291 to R294, R298, R301, R304, R306: the satellite commands report, take aiding and corrections, start and
end a capture, move snapshot bytes and ask for a solution, which is answered when it is done. The model's own choices
behind it: log entries 2, 33 and 61. -/
def Obligations.GnssRequestsAreServed : Prop :=
  ∀ (q : Request) (s : State),
    (∀ a, Accepted 0x48 q s → (reqBody q).length = 0 → inParts (gnssData s) = some a → Answers (.gnssGet q) q s id a) ∧
    (Accepted 0x4E q s → (reqBody q).length = 1 → (byteAt (reqBody q) 0).toNat < 64 →
      (s.gnss.sol = none ∨ byteAt (reqBody q) 0 = 0 → Answers (.nmeaGet q) q s id {}) ∧
      (∀ (v : GnssSol) (p : List Byte) (ps : List (List Byte)), s.gnss.sol = some v →
        let w : GnssSol := if gnssMode s = 2 then { v with velE := 0x8000, velN := 0x8000, velU := 0x8000 } else v
        packParts ((sentences (byteAt (reqBody q) 0) w).map fun k => Config.nmeaText k (solFields w)) [] = p :: ps →
        Answers (.nmeaGet q) q s id { data := p, parts := ps })) ∧
    (∀ a, Accepted 0x4F q s → (reqBody q).length = 0 →
      inParts (BitVec.ofNat 8 (baseList s).length :: (baseList s).flatMap baseBytes) = some a →
      Answers (.baselineGet q) q s id a) ∧
    (Accepted 0x49 q s → gnssAidCheck q s = none →
      (∀ x, aidOf q = .ok [.time x] → Answers (.gnssAid q) q s (fun u => { u with gnss := { u.gnss with
        aidTime := some x, aidAt := u.clk.tb, aidMsg := false } }) {}) ∧
      (∀ x, aidOf q = .ok [.pos x] → Answers (.gnssAid q) q s (fun u => { u with gnss := { u.gnss with
        aidPos := some x } }) {}) ∧
      (∀ x, aidOf q = .ok [.base x] → Answers (.gnssAid q) q s (fun u => { u with gnss := { u.gnss with
        bases := [x], baseTb := u.clk.tb } }) {}) ∧
      (∀ rs, aidOf q = .ok rs → rs.any isMeas = true → isHead s = false →
        Answers (.gnssAid q) q s id { status := 0x11, detail := 0x21 })) ∧
    (Accepted 0x4A q s → domOn s 5 = true →
      let r := rtcmParse (reqBody q).length (reqBody q)
      let a := (r.1.filter fun m => rtcmUsed (rtcmNumber m)).length
      Completes (.rtcmIn q) s fun t =>
        t.gnss.rtcmAcc = satAdd s.gnss.rtcmAcc a ∧ t.gnss.rtcmIgn = satAdd s.gnss.rtcmIgn (r.1.length - a) ∧
        t.gnss.rtcmBad = satAdd s.gnss.rtcmBad r.2 ∧
        (∀ m, r.1 = [m] → rtcmNumber m = 1005 ∨ rtcmNumber m = 1006 →
          t.gnss.station = some (Config.rtcmStation m) ∧
          (∀ v, s.gnss.sol = some v → v.fix = 4 → s.gnss.station.isSome = true →
            s.gnss.station ≠ some (Config.rtcmStation m) → t.gnss.sol = some { v with fix := 3 })) ∧ Answered q { data := be 2 a ++ be 2 (r.1.length - a) } t ∧
        Served [.gnss] s t) ∧
    (let b := reqBody q
     Accepted 0x4B q s → b.length = 2 → inRange 1 3 (byteAt b 0).toNat = true →
     inRange 1 (if byteAt b 0 == 3 then 40 else 80) (byteAt b 1).toNat = true →
     captureState s = none → biased s = true →
     Answers (.snapCapture q) q s (fun u => { u with gnss := { u.gnss with snapRun := some {
       bands := byteAt b 0, len := byteAt b 1, tb := BitVec.ofNat 64 ((s.clk.tb.toNat + 799) / 800 * 800) } } }) {}) ∧
    (∀ (r : SnapRun) (x : List Byte) (g1 g5 : BitVec 16), s.gnss.snapRun = some r →
      let u := advanceTo (r.tb.toNat + r.len.toNat * 800000) s
      Completes (.snapCaptureEnd x g1 g5) s fun t =>
        t.gnss = { s.gnss with snapRun := none, snap := writeBytes sramByte s.gnss.snap 0 (snapHeader r g1 g5 s ++
          x.take (12500 * r.len.toNat * (if r.bands == 3 then 2 else 1))) } ∧
        t.clk = u.clk ∧ Only [.clk, .barr, .gnss] s t) ∧
    (let b := reqBody q
     Accepted 0x4C q s → snapXferCheck q s = none → domOn s 7 = true →
      (byteAt b 0 = 0 → Answers (.snapXfer q) q s id
        { data := readBytes sramByte s.gnss.snap (beAt b 1 4) (beAt b 5 2) }) ∧
      (byteAt b 0 = 1 → s.gnss.snapRun = none → Answers (.snapXfer q) q s (fun u => { u with gnss := { u.gnss with
        snap := writeBytes sramByte u.gnss.snap (beAt b 1 4) (b.drop 5) } }) {}) ∧
      (byteAt b 0 = 1 → s.gnss.snapRun.isSome = true → Answers (.snapXfer q) q s id { status := 0x11 })) ∧
    (Accepted 0x4D q s → (reqBody q).length = 0 → s.gnss.snapRun = none → domOn s 5 = true → domOn s 7 = true →
      (s.clk.originGps = true ∧ s.clk.valid = true ∨ s.gnss.aidTime.isSome = true) →
      (s.gnss.solve = none →
        exec (.snapSolve q) s = .next { taken q s with gnss := { s.gnss with solve := some q } }) ∧
      (s.gnss.solve.isSome = true → Answers (.snapSolve q) q s id { status := 0x40 })) ∧
    (∀ v : SnapSol, s.gnss.solve = some q → exec (.snapSolveDone v) s = .next (reply q { data := snapBytes v }
      { s with gnss := { s.gnss with solve := none } }))

/-- R296, R297, R302, R303, R305: a participating member sends its measurements to the head, the head broadcasts what
it could compute, a signal with SLIP leaves its pair until it is fixed again within 10 s, FIXED is FLOAT with fewer
than 5 unslipped common satellites, and the time mark of a pulse leaves on its CAN port. The model's own choices behind
it: log entries 2, 31, 33 and 62. -/
def Obligations.BaselinesAndMarksGoOut : Prop :=
  ∀ s : State,
    (takesPart s = true → hcoreRuns s = true → isHead s = false → s.gnss.meas ≠ [] → s.gnss.meas.length ≤ 22 →
      frameDiff (now s) s.gnss.measFrame ≤ 5000 →
      ∃ p : Packet, p.opcode = 0x49 ∧ p.dest = s.chain.headAddr ∧ p.cls = 1 ∧ p.more = false ∧
        p.payload = measBytes (ownMeas s) ∧
        exec .measSend s = .next (queueUp (upFrame 6 p (draw s)) (draw s))) ∧
    (isHead s = true → s.chain.island = false → hcoreRuns s = true →
      (exec (.baselineCompute []) s = .next s) ∧
      (∀ (b : BaseRec) (a c : MeasRec), participants b.frame s = [a, c] → a.partner = c.src → c.partner = a.src →
        a.src.toNat < c.src.toNat → b.nodeA = a.src → b.nodeB = c.src → b.status.toNat ≤ 2 →
        let left : List MeasRec := s.gnss.measHeld.filter fun m => decide (0 < frameDiff m.frame b.frame)
        (solvable a c = false → solvable c a = false → Completes (.baselineCompute [b]) s fun t =>
          t.gnss.bases = s.gnss.bases ∧ t.gnss.measHeld = left ∧ Only [.free, .gnss] s t) ∧
        (solvable a c = true → solvable c a = true → s.modes.mode = .loam → s.sec.life ≠ .retired → s.pkt.dups = [] →
          s.pkt.linkUse = [] → 1780 ≤ linkShare 1 s → Completes (.baselineCompute [b]) s fun t =>
            let r (x y : MeasRec) (v : BaseRec) : BaseRec :=
              { v with status := if v.status = 2 ∧ (unslipped x y t).length < 5 then 1 else v.status }
            t.gnss.bases = [r a c b, r c a (mirrorBase b)] ∧ t.gnss.measHeld = left ∧
            (slipped a c = [] → slipped c a = [] →
              t.gnss.slips = s.gnss.slips.filter fun x => decide (0 < frameDiff x.fixFrame b.frame)) ∧
            ∀ g ∈ slipped a c, ∃ x ∈ t.gnss.slips, slipOf a.src c.src x = true ∧ x.sat = g.1 ∧ x.signal = g.2 ∧
              0 < frameDiff x.fixFrame b.frame ∧ frameDiff x.fixFrame b.frame ≤ 10000000))) ∧
    (∀ m, s.gnss.mark = some m →
      let p : CanPort := if bit (reg s 0x070014) 10 then .b else .a
      let u := advanceTo (s.clk.tb.toNat / ticksPerEpoch * ticksPerEpoch + 8000000) s
      (bit (reg s 0x070014) 9 = true → portLive p s = true → (can p s).mode = .normal →
        (p = .a → s.canA.silent = false) → Completes .timeMarkSend s fun t =>
          t.gnss.mark = none ∧ t.clk = u.clk ∧
          ∃ f : CanFrame, (can p t).segs = (can p s).segs ++ [f] ∧ f.ide = true ∧ f.data = markBytes m) ∧
      (bit (reg s 0x070014) 9 = false → Completes .timeMarkSend s fun t =>
        t.gnss.mark = none ∧ t.canA = s.canA ∧ t.canB = s.canB ∧ t.clk = u.clk))

/-- R317, R318, R320, R322 to R328, R334 to R336: a frame received without error is counted, matched and kept; an
error is counted and moves the error state; bus-off ends; a port leaves SLEEP; rate detection starts again; MO_STAT
clears. The model's own choices behind it: log entry 30. -/
def Obligations.CanFramesComeIn : Prop :=
  ∀ (s : State) (p : CanPort),
    (∀ f : CanFrame, portLive p s = true → (can p s).busOff = false → (can p s).mode ≠ .sleep → (can p s).abr = none →
      Completes (.canFrameReceive p f) s fun t =>
        (can p t).rxCnt = (can p s).rxCnt + 1 ∧
        (∀ i : Fin 128, (can p t).obj[i] = if objMatch f (can p s).obj[i] then { (can p s).obj[i] with lost := (can p s).obj[i].lost || (can p s).obj[i].isNew, isNew := true, tb := BitVec.ofNat 64 (s.clk.tb.toNat / 10 * 10), len := BitVec.ofNat 7 f.data.length, data := f.data }
          else (can p s).obj[i]) ∧
        (can p t).seq = (can p s).seq + 1 ∧
        (hcoreRuns s = false → domOn s 1 = true → (can p s).ring.length < 1024 →
          (can p t).ring = (can p s).ring ++ [{ tb := BitVec.ofNat 64 (s.clk.tb.toNat / 10 * 10), frame := f, matched := (can p s).obj.toList.any (objMatch f), seq := (can p s).seq + 1 }]) ∧
        (domOn s 1 = true → 1024 ≤ (can p s).ring.length → (can p t).ovf = satInc (can p s).ovf) ∧
        ((can p s).mode = .normal → (can p s).recCnt ≤ 127 → (can p t).recCnt = (can p s).recCnt - 1) ∧
        ((can p s).mode ≠ .normal → (can p t).recCnt = (can p s).recCnt)) ∧
    (∀ (k : CanErrKind) (tx : Bool) (tec rec' : Nat), portLive p s = true → (can p s).busOff = false →
      (can p s).mode ≠ .sleep → (can p s).abr = none → Completes (.canBusError p k tx tec rec') s fun t =>
        (can p t).eBit = (if k = .bit then satInc (can p s).eBit else (can p s).eBit) ∧
        (can p t).eStuff = (if k = .stuff then satInc (can p s).eStuff else (can p s).eStuff) ∧
        (can p t).eCrc = (if k = .crc then satInc (can p s).eCrc else (can p s).eCrc) ∧
        (can p t).eForm = (if k = .formAck then satInc (can p s).eForm else (can p s).eForm) ∧
        ((can p s).mode = .normal → (can p t).tecCnt = tec ∧ (can p t).recCnt = rec' ∧
          (can p t).passive = (decide (128 ≤ tec) || decide (128 ≤ rec')) ∧ (can p t).busOff = decide (255 < tec) ∧
          (255 < tec → (can p t).recovering = !bit (canReg p s 0) 2 ∧ (can p t).attempt = none)) ∧
        ((can p s).mode ≠ .normal → (can p t).tecCnt = (can p s).tecCnt ∧ (can p t).recCnt = (can p s).recCnt) ∧
        (tx = true → (can p t).attempt = none)) ∧
    (domOn s (canDom p) = true → (can p s).busOff = true → (can p s).recovering = true → (can p s).reqMode = none →
      Completes (.canRecoveryDone p) s fun t =>
        (can p t).busOff = false ∧ (can p t).recovering = false ∧ (can p t).tecCnt = 0 ∧ (can p t).recCnt = 0 ∧
        (can p t).busoffs = satInc (can p s).busoffs ∧ (s.ev.host.length < 64 → Held .host (canCode p 6) 0xFF t)) ∧
    ((can p s).waking = true → (can p s).mode = .sleep → domOn s (canDom p) = true → domOn s 1 = true →
      Completes (.canLeaveSleep p) s fun t =>
        (can p t).mode = (if bit (canReg p s 0) 4 then .listen else .normal) ∧ (can p t).waking = false ∧
        (can p t).wakeBuf = none ∧ (can p t).wakeGap = 0 ∧
        (can p t).seq = (can p s).seq + (if (can p s).wakeBuf.isSome then 1 else 0) + (can p s).wakeGap) ∧
    (domOn s (canDom p) = true → (can p s).abr.isSome = true → Completes (.abrTimeout p) s fun t =>
      (∃ cs, (can p t).abr = some { candidates := cs, confirms := 0, removed := [] }) ∧
      (s.ev.host.length < 64 → Held .host (canCode p 1) 0xFF t) ∧ Only [.free, .regs, .barr, .canA, .canB, .ev] s t) ∧
    (∀ n : Fin 128, domOn s (canDom p) = true → Completes (.moStatRead p n) s fun t =>
      (can p t).obj[n] = { (can p s).obj[n] with isNew := false, lost := false } ∧
      (∀ i : Fin 128, i ≠ n → (can p t).obj[i] = (can p s).obj[i]) ∧
      Only [if p = .a then .canA else .canB] s t)

/-- R315, R329 to R333, R336, R168: the port offers the frame that wins arbitration, and what a lost, sent or
cancelled frame leaves; a requested mode takes effect at the first idle; the commands of a port. The model's own
choices behind it: log entry 30. -/
def Obligations.CanFramesGoOut : Prop :=
  ∀ (s : State) (p : CanPort),
    (portLive p s = true → (can p s).mode = .normal → (can p s).busOff = false → (can p s).attempt = none →
      (can p s).reqMode = none → (can p s).obj[(0 : Fin 128)].kind ≠ .tx → (can p s).segs = [] → (can p s).own = [] →
      s.pkt.canReplies = [] → (p = .a → s.canA.silent = false) → Completes (.canTxStart p) s fun t =>
        (can p t).attempt = candidate (can p s) ∧ (can p t).retry = none ∧ (can p t).sof = s.clk.tb ∧
        (can p t).fifo = (can p s).fifo ∧ (can p t).obj = (can p s).obj) ∧
    (Completes (.canArbLost p) s fun t =>
      can p t = { can p s with attempt := none, retry := none } ∧ Only [if p = .a then .canA else .canB] s t) ∧
    (∀ h : BitVec 16, portLive p s = true → (can p s).attempt = some (.fifo h) → Completes (.canFrameSent p) s fun t =>
      (can p t).fifo = (can p s).fifo.filter (fun e => e.handle != h) ∧ (can p t).attempt = none ∧
      (can p t).txCnt = (can p s).txCnt + 1 ∧ (can p t).tecCnt = (can p s).tecCnt - 1) ∧
    (∀ i : Fin 128, portLive p s = true → (can p s).attempt = some (.obj i) → Completes (.canFrameSent p) s fun t =>
      (can p t).obj[i] = { (can p s).obj[i] with kind := .off, pend := false, sent := true, tb := (can p s).sof } ∧
      (can p t).attempt = none ∧ (can p t).txCnt = (can p s).txCnt + 1) ∧
    (∀ (m : CanMode) (o : Bool), (can p s).reqMode = some (m, o) → domOn s (canDom p) = true →
      (can p s).attempt = none → (can p s).retry = none → (can p s).busOff = false →
      (∀ q, (can p s).afterReply = some q → replyLeft q s = true) →
      Completes (.canModeApply p) s fun t =>
        (can p t).mode = m ∧ (can p t).wakeOpt = (decide (m = .sleep) && o) ∧ (can p t).reqMode = none) ∧
    (∀ x : Byte, s.canA.peer = some x → s.canA.attempt ≠ some (.obj 0) → Completes (.tpSessionTimeout .a x) s fun t =>
      t.canA.segs = [] ∧ t.canA.peer = none ∧ t.canA.obj[(0 : Fin 128)].kind ≠ .tx ∧ Only [.canA] s t) ∧
    (∀ q : Request, portOk q = true → portOf q = p → domOn s (canDom p) = true →
      (Accepted 0x50 q s → (reqBody q).length = 1 → Answers (.canGet q) q s id { data :=
        ([BitVec.ofNat 8 (canModeCode (can p s).mode), BitVec.ofNat 8 (canEstate p s), BitVec.ofNat 8 (canTec (can p s)),
          BitVec.ofNat 8 (min (can p s).recCnt 255)] ++ be 2 (can p s).ring.length) }) ∧
      (Accepted 0x51 q s → (reqBody q).length = 3 → (byteAt (reqBody q) 1).toNat ≤ 3 →
        (byteAt (reqBody q) 2 = 0 ∨ byteAt (reqBody q) 1 = 3 ∧ byteAt (reqBody q) 2 = 1) →
        Answers (.canMode q) q s (onCan p fun c => { c with
          reqMode := some (modeOf (byteAt (reqBody q) 1), byteAt (reqBody q) 2 == 1)
          afterReply := match q.via with | .can x _ => if x = p then some q else none | _ => none }) {}) ∧
      (Accepted 0x52 q s → (reqBody q).length = 1 →
        ((can p s).busOff = true → Answers (.canRecover q) q s (onCan p fun c => { c with recovering := true }) {}) ∧
        ((can p s).busOff = false → Answers (.canRecover q) q s id { status := 0x11, detail := 0x35 })) ∧
      (Accepted 0x53 q s → canSendCheck q s = none → (can p s).mode ≠ .sleep →
        ((byteAt (reqBody q) 1).getLsbD 3 = false → (can p s).fifo.length < 64 →
          Answers (.canSend q) q s (onCan p fun c => { c with
            handle := c.handle + 1
            fifo := c.fifo ++ [{ handle := 1#1 ++ (c.handle + 1), frame := sendFrame (reqBody q) }] })
            { data := be 2 (0x8000 + ((can p s).handle + 1).toNat) }) ∧
        ((byteAt (reqBody q) 1).getLsbD 3 = false → 64 ≤ (can p s).fifo.length →
          Answers (.canSend q) q s id { status := 0x40, detail := 0x26 }) ∧
        (∀ i : Fin 128, (byteAt (reqBody q) 1).getLsbD 3 = true → freeObj (can p s) = some i →
          Answers (.canSend q) q s (onCan p fun c => { c with
            obj := upd c.obj i (frameObj (sendFrame (reqBody q))) }) { data := be 2 i.val })) ∧
      (Accepted 0x54 q s → (reqBody q).length = 3 →
        (handleCand (can p s) (BitVec.ofNat 16 (beAt (reqBody q) 1 2)) = none →
          Answers (.canCancel q) q s id { status := 0x21, detail := 0x0B }) ∧
        (∀ c, handleCand (can p s) (BitVec.ofNat 16 (beAt (reqBody q) 1 2)) = some c →
          ((can p s).attempt = some c → Answers (.canCancel q) q s id { status := 0x31 }) ∧
          ((can p s).attempt ≠ some c → Completes (.canCancel q) s fun t =>
            stillPending (can p t) c = false ∧ Answered q {} t))))

/-- R337 to R339: a claim starts and completes, the lower NAME keeps its address, the loser takes the next address or
says it cannot claim, and requests and commands for the address are followed. The model's own choices behind it: log
entry 31. -/
def Obligations.TheAddressIsClaimed : Prop :=
  ∀ s : State,
    (isoRuns s = true → qualifies s = true →
      (s.canA.claim = .none → exec .addressClaimStart s = .next { s with canA := { s.canA with
        addr := (reg s 0x040040).setWidth 8, claim := .claiming, silent := false
        own := s.canA.own ++ [.addressClaimed s.id.isoName ((reg s 0x040040).setWidth 8)] } }) ∧
      (∀ a : Byte, a.toNat ≤ 253 → exec (.commandedAddress s.id.isoName a) s = .next { s with canA := { s.canA with
        addr := a, claim := .claiming, silent := false, own := s.canA.own ++ [.addressClaimed s.id.isoName a] } })) ∧
    (s.canA.claim = .claiming →
      exec .addrClaimComplete s = .next { s with canA := { s.canA with claim := .claimed } }) ∧
    (isoRuns s = true → (s.canA.claim = .claiming ∨ s.canA.claim = .claimed) →
      (exec .requestAddressClaimed s = .next { s with canA := { s.canA with
        own := s.canA.own ++ [.addressClaimed s.id.isoName s.canA.addr] } }) ∧
      (∀ name : BitVec 64,
        (s.id.isoName.toNat < name.toNat → Completes (.addressClaimed name s.canA.addr) s fun t =>
          t.canA.addr = s.canA.addr ∧ t.canA.claim = s.canA.claim ∧
          t.canA.own = s.canA.own ++ [.addressClaimed s.id.isoName s.canA.addr] ∧ Only [.canA] s t) ∧
        (name.toNat < s.id.isoName.toNat →
          let seen := if s.canA.seen.contains s.canA.addr then s.canA.seen else s.canA.seen ++ [s.canA.addr]
          (∀ a, nextAddr s.canA.addr seen = some a → selfConfigurable s = true →
            Completes (.addressClaimed name s.canA.addr) s fun t =>
              t.canA.addr = a ∧ t.canA.claim = .claiming ∧
              t.canA.own = s.canA.own ++ [.addressClaimed s.id.isoName a] ∧ Only [.canA] s t) ∧
          (nextAddr s.canA.addr seen = none ∨ selfConfigurable s = false →
            Completes (.addressClaimed name s.canA.addr) s fun t =>
              t.canA.addr = 254 ∧ t.canA.claim = .cannotClaim ∧ t.canA.silent = true ∧
              t.canA.own = s.canA.own ++ [.cannotClaim s.id.isoName] ∧
              (s.ev.host.length < 64 → Held .host 0x0407 0xFF t))))) ∧
    (isoRuns s = true → s.canA.claim = .cannotClaim → s.canA.silent = true →
      exec .requestAddressClaimed s = .next { s with canA := { s.canA with
        own := s.canA.own ++ [.cannotClaim s.id.isoName] } })

/-- R341, R343, R344, R345, R349, R351, R353, R354, R356: with PD_SVC ON and MCLK running the service port answers its
own address only. A write of pointer 0x00 and a byte selects the page, a byte written into the mailbox page reaches
the buffer (and clears READY) unless BUSY, which sets OVERRUN and changes no byte. A read gives its count of bytes and
moves the pointer. A bus error is counted and a stuck bus is recorded. Any transfer takes DFILT over and withdraws an
attention request under way. The model's own choices behind it: log entry 35. -/
def Obligations.ServiceTransfersMoveBytes : Prop :=
  ∀ s : State, svcLive s = true →
    let w := if s.svc.sdaLow then satInc s.svc.cntWithdrawn else s.svc.cntWithdrawn
    let df := BitVec.ofNat 4 (field (reg s 0x060000) 3 0)
    (∀ a bs, addressed a s = false → Completes (.i2cWriteTransfer a bs) s fun t =>
      t = { s with svc := { s.svc with sdaLow := false, cntWithdrawn := w, active := false, filt := df } }) ∧
    (∀ a n, addressed a s = false → Completes (.i2cReadTransfer a n) s fun t =>
      t = { s with svc := { s.svc with sdaLow := false, cntWithdrawn := w, active := false, filt := df } }) ∧
    (∀ a b, addressed a s = true → Completes (.i2cWriteTransfer a [0, b]) s fun t =>
      t = { s with svc := { s.svc with
        sdaLow := false, cntWithdrawn := w, active := false, filt := df, page := b.setWidth 6, pointer := 1 } }) ∧
    (∀ a p b, addressed a s = true → s.svc.page = 0x3F → 3 < p.toNat → Completes (.i2cWriteTransfer a [p, b]) s fun t =>
      Only [.svc] s t ∧ t.svc.pointer = p + 1 ∧ t.svc.cntWithdrawn = w ∧ t.svc.filt = df ∧
      (s.svc.busy = true → t.svc.overrun = true ∧ t.svc.buf = s.svc.buf ∧ t.svc.ready = s.svc.ready) ∧
      (s.svc.busy = false → t.svc.ready = false ∧ t.svc.overrun = s.svc.overrun ∧ t.svc.mbLen = s.svc.mbLen ∧
        t.svc.buf = store sramByte s.svc.buf p.toNat b)) ∧
    (∀ a n, addressed a s = true → Completes (.i2cReadTransfer a n) s fun t =>
      Only [.svc] s t ∧ t.svc.pointer = s.svc.pointer + BitVec.ofNat 8 n ∧ t.svc.lastRead.length = n ∧
      t.svc.cntWithdrawn = w ∧ t.svc.filt = df ∧ t.svc.buf = s.svc.buf ∧ t.svc.page = s.svc.page ∧
      (∀ i, i < n → s.svc.page = 0x3F → 3 < (s.svc.pointer + BitVec.ofNat 8 i).toNat →
        t.svc.lastRead[i]? = some (look sramByte s.svc.buf (s.svc.pointer + BitVec.ofNat 8 i).toNat)) ∧
      (∀ i, i < n → s.svc.page ≠ 0 → s.svc.page ≠ 0x3F → s.svc.pointer + BitVec.ofNat 8 i ≠ 0 → t.svc.lastRead[i]? = some 0)) ∧
    Completes .i2cBusError s (fun t => t = { s with svc := { s.svc with
      sdaLow := false, cntWithdrawn := w, active := false, cntErr := satInc s.svc.cntErr } }) ∧
    Completes .i2cStuck s fun t => t = { s with svc := { s.svc with
      sdaLow := false, cntWithdrawn := w, active := false, stuck := true, cntStuck := satInc s.svc.cntStuck } }

/-- R346 to R349, R352, R353: MB_GO sets BUSY and clears READY and the replies not read; a GO or NEXT while BUSY only
sets OVERRUN; a GO waits while H-core is halted, and a packet whose length MB_LEN allows is taken. MB_NEXT loads the
next held reply or empties the mailbox. A reply that finds the mailbox free is loaded, of others 16 are kept. MB_STAT
read, the attention pulse and its withdrawal change the request as R352 and R353 say. The model's own choices behind
it: log entries 12 and 35. -/
def Obligations.MailboxRunsRequestsAndReplies : Prop :=
  ∀ s : State,
    (svcLive s = true → s.svc.busy = true →
      Completes .mbGo s (fun t => t = { s with svc := { s.svc with overrun := true } }) ∧
      Completes .mbNext s fun t => t = { s with svc := { s.svc with overrun := true } }) ∧
    (svcLive s = true → s.svc.busy = false → domOn s 1 = true →
      let g : State := { s with svc := { s.svc with
        busy := true, ready := false, overrun := false, noReply := false, attnPend := false, wroteSince := false,
        heldReplies := [], goTb := s.clk.tb } }
      (hcoreRuns s = false → Completes .mbGo s fun t => t = { g with svc := { g.svc with goWaits := true } }) ∧
      (hcoreRuns s = true → s.chain.rg4 = [] →
        20 ≤ s.svc.mbLen.toNat → s.svc.mbLen.toNat ≤ 252 → Completes .mbGo s fun t =>
          t = takeBytes .svc (readBytes sramByte s.svc.buf 4 s.svc.mbLen.toNat) { g with svc := { g.svc with goWaits := false } })) ∧
    (svcLive s = true → s.svc.busy = false →
      (s.svc.heldReplies = [] → Completes .mbNext s fun t => t = { s with svc := { s.svc with
        ready := false, attnPend := false, mbLen := 0 } }) ∧
      (∀ p ps, s.svc.heldReplies = p :: ps → Completes .mbNext s fun t => Only [.svc] s t ∧ t.svc.ready = true ∧
        t.svc.mbLen = BitVec.ofNat 8 (20 + p.payload.length) ∧ t.svc.buf = writeBytes sramByte s.svc.buf 4 (packetBytes p) ∧
        t.svc.heldReplies = ps ∧ t.svc.attnPend = s.svc.attnEn)) ∧
    (∀ p : Packet, domOn s 10 = true →
      (s.svc.busy = false → s.svc.ready = false → s.svc.wroteSince = false → Completes (.mbReplyArrive p) s fun t =>
        Only [.svc] s t ∧ t.svc.ready = true ∧ t.svc.mbLen = BitVec.ofNat 8 (20 + p.payload.length) ∧
        t.svc.buf = writeBytes sramByte s.svc.buf 4 (packetBytes p) ∧ t.svc.heldReplies = s.svc.heldReplies ∧
        t.svc.attnPend = (s.svc.attnPend || s.svc.attnEn)) ∧
      (s.svc.busy = false → s.svc.ready = true → s.svc.heldReplies.length < 15 → Completes (.mbReplyArrive p) s fun t =>
        t = { s with svc := { s.svc with heldReplies := s.svc.heldReplies ++ [p] } }) ∧
      (s.svc.busy = false → s.svc.ready = true → 15 ≤ s.svc.heldReplies.length → Completes (.mbReplyArrive p) s fun t =>
        t = { s with pkt := { s.pkt with svc := { s.pkt.svc with drop := satInc s.pkt.svc.drop } } })) ∧
    (svcLive s = true → Completes .mbStatRead s fun t =>
      t = { s with svc := { s.svc with attnPend := false, lastRead := [mbStat s] } }) ∧
    (svcLive s = true → s.svc.attnPend = true → Completes .attentionSend s fun t =>
      t = { s with svc := { s.svc with sdaLow := true } }) ∧
    (s.svc.attnPend = false → Completes .attentionSend s fun t => t = s) ∧
    (s.svc.sdaLow = true → Completes .attentionPulseEnd s (fun t => t = { s with svc := { s.svc with
      sdaLow := false, attnPend := false, cntAttn := satInc s.svc.cntAttn } }) ∧
      Completes .attentionWithdraw s fun t => t = { s with svc := { s.svc with
        sdaLow := false, cntWithdrawn := satInc s.svc.cntWithdrawn } })

/-- R370, R371, R373 to R375, R396, R461: a wake source that is not enabled changes nothing; one that fires while a
transaction runs or LSUP is below its threshold is latched, the first one kept; else PD_HSRAM0 and PD_HCORE start,
after a cold relock if MCLK was stopped, and PWR_WHY and PWR_CNT record the source. A field wake pulse latches its
cause for PWRF_STAT, which a read reports. The model's own choices behind it: log entries 12, 29 and 35. -/
def Obligations.WakesRunOrAreLatched : Prop :=
  ∀ s : State, s.chain.rg4 = [] → s.svc.goWaits = false →
    (∀ (c : Instr) (w : WakeSrc) (r : Byte),
      (c = .wake w r ∨ (c = .tckWake ∧ w = .tck ∧ r = 0) ∨ (c = .canWakeEdge .a ∧ w = .canAEdge ∧ r = 0) ∨
        (c = .canWakeEdge .b ∧ w = .canBEdge ∧ r = 0) ∨ (c = .lineEnergyWake .up ∧ w = .energyUp ∧ r = 0) ∨
        (c = .lineEnergyWake .dn ∧ w = .energyDn ∧ r = 0)) →
      (wakeEnabled w s = false ∨ s.pwr.wakeLogic = false → Completes c s fun t => t = s) ∧
      (wakeEnabled w s = true → s.pwr.wakeLogic = true → (s.pwr.txn.isSome = true ∨ s.pwr.lsup = false) →
        Completes c s fun t => t = { s with pwr := { s.pwr with wakeLatch := s.pwr.wakeLatch <|> some (w, r) } }) ∧
      (wakeEnabled w s = true → s.pwr.wakeLogic = true → s.pwr.txn = none → s.pwr.lsup = true →
        Completes c s fun t =>
          t.pwr.dom[0] = .on ∧ t.pwr.dom[1] = .on ∧ t.pwr.why = wakeCode w ∧
          t.pwr.whyCold = decide (s.clk.tree = .stopped) ∧ t.pwr.wakes = satInc s.pwr.wakes ∧
          (s.clk.tree = .stopped → t.clk.tree = .relocking) ∧ (s.clk.tree ≠ .stopped → t.clk = s.clk ∧ t.modes = s.modes) ∧
          t.pwr.marlReason = (if w = .marl then r else 0))) ∧
    (∀ sin0 : Bool,
      (s.pwr.fsup = .absent ∨ (sin0 = true ∧ bit (reg s 0x140000) 0 = false) →
        Completes (.fieldWakePulse sin0) s fun t => t = s) ∧
      (s.pwr.fsup ≠ .absent → (sin0 = true → bit (reg s 0x140000) 0 = true) → s.barr.epochRetry = false →
        (s.pwr.txn.isSome = true ∨ s.pwr.lsup = false) → Completes (.fieldWakePulse sin0) s fun t =>
          t.pwr.fsupWake = (s.pwr.fsupWake || !sin0) ∧ t.pwr.sin0Wake = (s.pwr.sin0Wake || sin0) ∧ Only [.pwr] s t)) ∧
    (linkUp s = true → s.pwr.pwrfRead = false → Completes .pwrfStatRead s fun t =>
      t = { s with pwr := { s.pwr with fsupWake := false, sin0Wake := false, pwrfRead := true } }) ∧
    (s.pwr.pwrfRead = true → Completes .pwrfStatRead s fun t => t = s)

/-- R4, R364 to R368: PD_SET starts a transaction, is BUSY while one runs and is refused for PD_GRF on a -B; a
transaction of one domain moves it and no other (PD_SENSE with the sensor supply, R467) and answers; one whose prepare
step or whose domain refuses changes no domain, and its result record and its reply name the first refusing domain, the
reason and the time taken; a refusal is counted. The model's own choices behind it: log entry 29. -/
def Obligations.DomainTransactionsEndWholeOrNotAtAll : Prop :=
  ∀ s : State,
    (∀ (q : Request) (ts : List (Fin 18 × Dom)), Accepted 0x78 q s → pdSetCheck q s = none →
      pdTargets (reqBody q) = some ts →
      (s.pwr.txn.isSome = true ∨ s.pwr.queued ≠ [] → Answers (.pdSet q) q s id { status := 0x40 }) ∧
      (s.pwr.txn = none → s.pwr.queued = [] →
        (s.id.variant = .b → (∃ v, (6, v) ∈ ts ∧ v ≠ .off) → Answers (.pdSet q) q s id { status := 0x13 }) ∧
        (s.id.variant = .g2 → Completes (.pdSet q) s fun t =>
          t = { taken q s with pwr := { s.pwr with txn := some { by' := .request q, targets := ts } } }))) ∧
    (s.chain.rg4 = [] → s.svc.goWaits = false → ∀ m : Nat,
      (s.pwr.txn = none → Completes (.domainTransaction m) s fun t => t = s) ∧
      (∀ (x : PdTxn) (q : Request) (d : Fin 18), s.pwr.txn = some x → x.undo = none → x.by' = .request q →
        q.pkt.sched = false → q.via ≠ .svc → q.via ≠ .planner → s.pwr.queued = [] → s.pwr.wakeLatch = none →
        let ended (why : Byte) (t : State) : Prop :=
          t.pwr = { s.pwr with txn := none, txnDom := BitVec.ofNat 8 d.val, txnReason := why,
                               txnTime := BitVec.ofNat 32 m, refused := satInc s.pwr.refused } ∧
          t.clk = s.clk ∧ t.modes = s.modes ∧ t.regs = s.regs ∧ t.out = s.out ∧
          (∃ u, t = { reply q { status := 0x11, detail := 0x32, data := ([BitVec.ofNat 8 d.val, why] ++ be 4 m) } u with
            pwr := t.pwr })
        (∀ why : Byte, prepare x s = some (d, why) → Completes (.domainTransaction m) s (ended why)) ∧
        (∀ (v : Dom), x.targets = [(d, v)] → stopsLast x d = false → prepare x s = none →
          let moved (t : State) : Prop :=
            t.pwr.dom[d] = v ∧ (∀ e : Fin 18, e ≠ d → t.pwr.dom[e] = s.pwr.dom[e]) ∧ t.pwr.txn = none ∧
            t.pwr.txnDom = 0xFF ∧ t.pwr.txnReason = 0 ∧ t.pwr.txnTime = BitVec.ofNat 32 m ∧
            (d = 17 → t.pwr.ssup = decide (v = .on)) ∧ t.pwr.refused = s.pwr.refused ∧
            ∃ u, t = { reply q { data := ([0xFF, 0] ++ be 4 m) } u with pwr := t.pwr }
          (starts s.pwr.dom[d] v = true → Completes (.domainTransaction m) s moved) ∧
          (stops s.pwr.dom[d] v = true → stopReason s d = none → Completes (.domainTransaction m) s moved) ∧
          (∀ why : Byte, stops s.pwr.dom[d] v = true → stopReason s d = some why → x.force = false →
            Completes (.domainTransaction m) s (ended why)))))

/-- R11, R31, R376, R377, R400, R459, R460, R476: KEY_IN falling starts the 100 ms and rising in time ends it; the
shutdown waits for a halted H-core and else enters Clay under cause 9; a key that rises during the retries ends the
shutdown, and a shutdown whose domains stop is done; LSUP loss enters Clay under causes 1 and 2 and ends the
link, and its rise wakes the node or starts its wake logic; FSUP below its threshold holds cause 5, its return
releases it, and its loss leaves the field die without firmware, sensor supply or an open disconnect; the charger's
phase follows the measured cell. The model's own choices behind it: log entry 29. -/
def Obligations.SuppliesKeyAndCellChangeThePosture : Prop :=
  ∀ s : State,
    Completes .keyInFall s (fun t => t = { s with pwr := { s.pwr with keyIn := false, keyCount := true } }) ∧
    (s.pwr.keyCount = false ∨ s.sec.hHalt = true → Completes .keyInShutdown s fun t => t = s) ∧
    (s.pwr.keyCount = true → hcoreRuns s = true → s.pwr.txn.isSome = true → Completes .keyInShutdown s fun t =>
      t.modes.clay = true ∧ cause 9 &&& t.modes.active = cause 9 ∧ t.pwr.keyCount = false ∧
      t.pwr.shutdown = .commit ∧ t.pwr.queued = s.pwr.queued ++ [keyOffTxn s] ∧ t.pwr.dom = s.pwr.dom ∧ t.fw.commit = none) ∧
    (s.chain.rg4 = [] → s.svc.goWaits = false → s.pwr.shutdown = .none → s.pwr.dom[1] = .on →
      s.pwr.txn = none → Completes .keyInRise s fun t =>
        t = { s with pwr := { s.pwr with keyIn := true, keyCount := false }
                     modes := { s.modes with active := s.modes.active &&& ~~~ cause 9 } }) ∧
    (∀ n, s.chain.rg4 = [] → s.svc.goWaits = false → s.pwr.shutdown = .retry n → s.pwr.txn = none →
      Completes .keyInRise s fun t => t.pwr.keyIn = true ∧ t.pwr.shutdown = .none ∧ t.pwr.dom = s.pwr.dom ∧
        cause 9 &&& t.modes.active = 0 ∧ t.modes.clay = s.modes.clay ∧ Only [.pwr, .modes] s t) ∧
    (∀ n, s.pwr.shutdown = .retry n → s.pwr.txn = none → s.pwr.queued = [] → s.pwr.wakeLatch = none →
      (∀ d why, prepare (keyOffTxn s) s = some (d, why) → Completes .shutdownRetry s fun t =>
        t.pwr = { s.pwr with shutdown := .retry (n + 1), txnDom := BitVec.ofNat 8 d.val, txnReason := why,
                             txnTime := t.pwr.txnTime, refused := satInc s.pwr.refused }) ∧
      (prepare (keyOffTxn s) s = none → (∀ d : Fin 18, d.val = 4 ∨ d.val = 5 ∨ d.val = 6 ∨ d.val = 8 ∨ d.val = 9 ∨ d.val = 10 →
        s.pwr.dom[d] = .off) → Completes .shutdownRetry s fun t =>
          t.pwr.shutdown = .done ∧ t.pwr.txnDom = 0xFF ∧ t.pwr.txn = none ∧ ∀ d : Fin 18, t.pwr.dom[d] ≠ .on) ∧
      (let x : PdTxn := { keyOffTxn s with force := true, targets := (keyOffTxn s).targets.filter fun y =>
         !(heldDoms (keyOffTxn s) s).contains y.1 }
       prepare x s = none → Completes .shutdownForce s fun t =>
         t.pwr.shutdown = .done ∧ t.pwr.txnDom = 0xFF ∧ t.pwr.txnReason = 0 ∧ t.pwr.txn = none)) ∧
    (s.pwr.lsup = false → Completes .lsupLoss s fun t => t = s) ∧
    (s.pwr.lsup = true → Completes .lsupLoss s fun t => t.pwr.lsup = false ∧ t.modes.clay = true ∧
      (s.modes.clay = true → s.sec.fHalt = false → s.sec.hHalt = false → t.modes.active = s.modes.active ||| cause 2 ||| cause 1) ∧
      t.barr.link = .down ∧ t.pwr.txn = none ∧ t.pwr.queued = [] ∧ t.sec.attach = [] ∧ t.sec.hHalt = false) ∧
    (s.chain.rg4 = [] → s.svc.goWaits = false →
      (s.pwr.lsup = true → Completes .lsupRise s fun t => t = s) ∧
      (s.pwr.lsup = false → s.pwr.wakeLogic = true → s.pwr.wakeLatch = none →
        (wakeEnabled .lsup s = false → exec .lsupRise s = .next { s with pwr := { s.pwr with lsup := true } }) ∧
        (wakeEnabled .lsup s = true → s.pwr.txn = none → Completes .lsupRise s fun t =>
          t.pwr.lsup = true ∧ t.pwr.dom[0] = .on ∧ t.pwr.dom[1] = .on ∧ t.pwr.why = 2 ∧
          t.pwr.whyCold = decide (s.clk.tree = .stopped) ∧ t.pwr.wakes = satInc s.pwr.wakes)) ∧
      (s.pwr.lsup = false → s.pwr.wakeLogic = false → Completes .lsupRise s fun t =>
        t.pwr.lsup = true ∧ t.pwr.wakeLogic = true ∧ t.modes.booted = false ∧ t.clk = {} ∧ t.pwr.dom[2] = .off)) ∧
    (s.pwr.batAbsent = false ∨ s.pwr.lsup = false → Completes .internalHoldUpExhausted s fun t => t = s) ∧
    (s.pwr.batAbsent = true → s.pwr.lsup = true → Completes .internalHoldUpExhausted s fun t =>
      t.modes.booted = false ∧ t.clk.tb = 0 ∧ cause 10 &&& t.modes.active = cause 10 ∧ t.pwr.wakes = 0 ∧ t.svc.busy = false) ∧
    (s.pwr.fsup = .present → Completes .fsupUndervoltage s fun t =>
      t.pwr.fsup = .low ∧ t.modes.clay = true ∧ cause 5 &&& t.modes.active = cause 5 ∧
      t.clk = (toFieldFrame s).clk ∧ (ClayQuiet s → ClayQuiet t)) ∧
    (s.pwr.fsup = .low → Completes .fsupRestart s fun t =>
      t = { s with pwr := { s.pwr with fsup := .present }
                   modes := { s.modes with active := s.modes.active &&& ~~~ cause 5 } }) ∧
    (s.pwr.fsup = .absent → Completes .fsupRestart s fun t => t.pwr.fsup = .present ∧ t.modes.clay = true ∧
      cause 10 &&& t.modes.active = cause 10 ∧ cause 5 &&& t.modes.active = 0) ∧
    (s.pwr.fsup ≠ .absent → Completes .fsupLoss s fun t =>
      t.pwr.fsup = .absent ∧ t.modes.clay = true ∧ cause 5 &&& t.modes.active = cause 5 ∧ t.fw.fimgLoaded = false ∧
      t.out.discOpen = false ∧ t.ev.field = [] ∧ t.pwr.ssup = false ∧ t.barr.fieldClock = false ∧ (∀ d : Fin 18, 12 ≤ d.val → t.pwr.dom[d] = .off) ∧
      ∀ d : Fin 18, d.val < 12 → t.pwr.dom[d] = s.pwr.dom[d]) ∧
    (s.pwr.lsup = true → Completes .cellRetentionLost s (fun t => t = s) ∧ Completes .wakeLogicSupplyLost s fun t => t = s) ∧
    (s.pwr.lsup = false → Completes .cellRetentionLost s (fun t => t.pwr.dom[0] = .off ∧ t.pwr.dom[2] = .off) ∧
      Completes .wakeLogicSupplyLost s fun t => t.pwr.wakeLatch = none ∧ t.pwr.wakeLogic = false ∧ reg t 0x090004 = regReset s.id.variant 0x090004) ∧
    Completes .cellRemoved s (fun t => t = { s with pwr := { s.pwr with batAbsent := true, chg := .absent, phase := .off } }) ∧
    (∀ (mv : BitVec 12) (temp : Byte), s.pwr.batAbsent = true → 2000 ≤ mv.toNat → mv.toNat ≤ 3650 →
      Completes (.cellDetected mv temp) s fun t => Only [.pwr] s t ∧ t.pwr.batAbsent = false ∧ t.pwr.vcell = mv ∧ t.pwr.tcell = temp ∧
        t.pwr.chg = (if s.pwr.lsup = false then .off else if chargeable temp = false then .tempHold else
          if mv.toNat < 2500 then .precharge else if mv.toNat < 3600 then .cc else .cv)) ∧
    (∀ (mv : BitVec 12) (ma : Nat) (temp : Byte), s.pwr.batAbsent = false → s.pwr.lsup = true → chargeable temp = true →
      Completes (.chargerPhaseChange mv ma temp true) s fun t => Only [.pwr] s t ∧ t.pwr.vcell = mv ∧ t.pwr.tcell = temp ∧
        (s.pwr.phase = .precharge → t.pwr.chg = if mv.toNat < 2500 then .precharge else .cc) ∧
        (s.pwr.phase = .cc → t.pwr.chg = if mv.toNat < 3600 then .cc else .cv) ∧
        (s.pwr.phase = .cv → t.pwr.chg = if ma < 20 then .done else .cv) ∧
        (s.pwr.phase = .done → mv.toNat ≥ 3250 → t.pwr.chg = .done))

/-- R169, R383, R405, R410 to R412: IMG_BEGIN makes a slot invalid and starts its erase, and is refused for the
running slot; IMG_DATA is BUSY during the erase, is refused off the write pointer and else writes there; IMG_VERIFY
accepts a complete, signed, formed bundle at or above the anti-rollback counter and counts what it refuses;
IMG_ACTIVATE puts a verified slot on trial; IMG_INFO reports. The model's own choices behind it: log entries 6 and 28.
-/
def Obligations.ImagesAreWrittenVerifiedAndActivated : Prop :=
  ∀ s : State, domOn s 4 = true →
    Completes .imgEraseDone s (fun t => t = { s with fw := { s.fw with erasing := false } }) ∧
    ∀ (q : Request) (b : Bool), namedSlot q = b →
      ((reqBody q).length = 5 → (byteAt (reqBody q) 0).toNat ≤ 1 → Accepted 0x68 q s →
        1 ≤ beAt (reqBody q) 1 4 → beAt (reqBody q) 1 4 ≤ 8388608 →
        (s.fw.runningB = some b → Answers (.imgBegin q) q s id { status := 0x11, detail := 0x2A }) ∧
        (s.fw.runningB ≠ some b → Completes (.imgBegin q) s fun t =>
          (imgOf b t).invalid = true ∧ (imgOf b t).mem = [] ∧ (imgOf b t).len = beAt (reqBody q) 1 4 ∧ (imgOf b t).wptr = 0 ∧
          (imgOf b t).verified = false ∧ t.fw.openB = some b ∧ t.fw.erasing = true ∧ (s.fw.openB = some b ∨ s.fw.openB = none →
            imgOf (!b) t = imgOf (!b) s) ∧ Answered q {} t ∧ Served [.fw] s t)) ∧
      (5 ≤ (reqBody q).length → (reqBody q).length ≤ 3712 → Accepted 0x69 q s →
        (s.fw.openB = none → Answers (.imgData q) q s id { status := 0x21, detail := 0x34 }) ∧
        (s.fw.openB = some b →
          (s.fw.erasing = true → Answers (.imgData q) q s id { status := 0x40, detail := 0x36 }) ∧
          (s.fw.erasing = false → beAt (reqBody q) 0 4 ≠ (imgOf b s).wptr →
            Answers (.imgData q) q s id { status := 0x21, detail := 0x34 }) ∧
          (s.fw.erasing = false → beAt (reqBody q) 0 4 = (imgOf b s).wptr →
            (imgOf b s).wptr + ((reqBody q).length - 4) ≤ (imgOf b s).len → Completes (.imgData q) s fun t =>
              (imgOf b t).wptr = (imgOf b s).wptr + ((reqBody q).length - 4) ∧ imgOf (!b) t = imgOf (!b) s ∧
              (imgOf b t).mem = writeBytes flashByte (imgOf b s).mem (imgOf b s).wptr ((reqBody q).drop 4) ∧
              Answered q { data := be 4 (imgOf b t).wptr } t ∧ Served [.fw] s t))) ∧
      ((reqBody q).length = 1 → (byteAt (reqBody q) 0).toNat ≤ 1 → Accepted 0x6A q s → domOn s 3 = true →
        ((imgOf b s).wptr < (imgOf b s).len → Answers (.imgVerify q) q s id { status := 0x11 }) ∧
        (∀ v, (imgOf b s).len ≤ (imgOf b s).wptr → slotBundle (imgOf b s) = some v →
          (v.sigOk = false → Answers (.imgVerify q) q s
            (fun u => { u with sec := { u.sec with cntSig := satInc u.sec.cntSig } }) { status := 0x12, detail := 0x2C }) ∧
          (v.sigOk = true → v.epoch.toNat < s.sec.rollback → Answers (.imgVerify q) q s
            (fun u => { u with sec := { u.sec with cntRollback := satInc u.sec.cntRollback } })
            { status := 0x12, detail := 0x2D }) ∧
          (bundleValid v s = true → Answers (.imgVerify q) q s
            (setImg b (fun x => { x with verified := true, invalid := false })) { data := vectorBytes (some v) }))) ∧
      ((reqBody q).length = 1 → (byteAt (reqBody q) 0).toNat ≤ 1 → Accepted 0x6B q s →
        (s.fw.runningB = some b → Answers (.imgActivate q) q s id {}) ∧
        (s.fw.runningB ≠ some b → (imgOf b s).verified = false →
          Answers (.imgActivate q) q s id { status := 0x11, detail := 0x2B }) ∧
        (s.fw.runningB ≠ some b → (imgOf b s).verified = true → Completes (.imgActivate q) s fun t =>
          imgOf b t = { imgOf b s with mark := .trial 0 } ∧ imgOf (!b) t = { imgOf (!b) s with mark := .previous } ∧
          t.fw.activeB = b ∧ t.fw.bootSeq = s.fw.bootSeq + 1 ∧ Answered q {} t ∧ Served [.fw] s t)) ∧
      ((reqBody q).length = 0 → Accepted 0x6C q s → Answers (.imgInfo q) q s id { data := infoBytes s })

/-- R75, R407, R408: FIMG_CLEAR holds F-core in reset, clears LOADED, and has a load send its chunks; a chunk at the
write pointer is stored, and any other is discarded and counted; the digest makes the image valid, and the third wrong
one in a row holds the node in Silt with an event; FIMG_START runs F-core on the digest of the running bundle alone,
and only a tested pair passes. The model's own choices behind it: log entries 28 and 60. -/
def Obligations.TheFieldImageIsLoadedAndStarted : Prop :=
  ∀ s : State, linkUp s = true →
    Completes .fimgClear s (fun t => t.fw.fcoreRun = false ∧ t.fw.fimgLoaded = false ∧ t.fw.fimgValid = false ∧ t.fw.fimgPtr = 0 ∧
      t.fw.fimgChecking = false ∧ t.fw.pairSeen = false ∧ t.fw.pairOk = false ∧
      (s.fw.loading = false → t.barr = s.barr) ∧
      (s.fw.loading = true → (∃ b, runningBundle s = some b ∧ Config.sha256 (imageBytes s) = b.digest) →
        s.barr.rg6 = [] → s.barr.rg6Held = [] →
        t.barr.rg6.map (·.cell) ++ t.barr.rg6Held = chunkCells (imageBytes s) ∧ t.barr.rg6.length ≤ 16) ∧
      Only [.fw, .id, .barr] s t) ∧
    Completes .fimgCheck s (fun t => t = { s with fw := { s.fw with fimgChecking := true, fimgValid := false } }) ∧
    (∀ (off : Word) (bs : List Byte), ArrivesDown (.fimgChunk off bs) s →
      (off.toNat = s.fw.fimgPtr → s.fw.fimgLoaded = false →
        exec (.fimgChunk off bs) s = .next { takenDown s with fw := { s.fw with
          fimgMem := writeBytes sramByte s.fw.fimgMem s.fw.fimgPtr (bs.take 18), fimgPtr := s.fw.fimgPtr + 18 } }) ∧
      (off.toNat ≠ s.fw.fimgPtr ∨ s.fw.fimgLoaded = true →
        exec (.fimgChunk off bs) s = .next { takenDown s with fw := { s.fw with fimgErr := satInc s.fw.fimgErr } })) ∧
    (∀ (b : Bundle) (d : BitVec 256), runningBundle s = some b → s.fw.fimgChecking = true →
      (d = b.digest → Completes (.fimgDigestReady d) s fun t => t = { s with fw := { s.fw with
        fimgChecking := false, fimgValid := true, fimgDigest := d, misses := 0 } }) ∧
      (d ≠ b.digest → s.fw.misses < 2 → Completes (.fimgDigestReady d) s fun t => t = { s with fw := { s.fw with
        fimgChecking := false, fimgValid := true, fimgDigest := d, misses := s.fw.misses + 1 } }) ∧
      (d ≠ b.digest → 2 ≤ s.fw.misses → s.ev.host.length < 64 → s.modes.mode = .silt → Completes (.fimgDigestReady d) s fun t =>
        t.modes.mode = .silt ∧ t.modes.siltWhy = 1 ∧ Held .host 0x0C01 0xFF t ∧ t.fw.loading = false)) ∧
    (∀ b : Bundle, runningBundle s = some b →
      (s.fw.fimgValid = false ∨ s.fw.fimgDigest ≠ b.digest → Completes .fimgStart s fun t => t = s) ∧
      (s.fw.fimgValid = true → s.fw.fimgDigest = b.digest → Completes .fimgStart s fun t =>
        t.fw.fcoreRun = true ∧ t.fw.fimgLoaded = true ∧ t.id.fVer = b.f ∧ t.fw.pairSeen = true ∧
        t.fw.pairOk = b.pairs.any (fun p => p.hostStep == s.id.hostStep && p.fieldStep == s.id.fieldStep &&
          p.h == s.id.hVer && p.f == b.f) ∧
        (t.fw.pairOk = false → s.modes.mode = .silt → t.modes.mode = .silt ∧ t.modes.siltWhy = 2)))

/-- R381, R389, R412, R413 and Table 01-5: BOOT starts a valid confirmed image and ends in Loam or Silt; it stays in
Sand with its reason on a RETIRED node, without a bootable slot, under the strap or at a kept request; the third
unconfirmed trial is rejected, and the previous image runs where it is valid. The model's own choices behind it: log
entries 4 and 28. -/
def Obligations.BootStartsAnImageOrStaysInSand : Prop :=
  ∀ s : State, s.chain.rg4 = [] → s.svc.goWaits = false →
    (s.modes.booted = true ∨ clockOn s = false → Completes .boot s fun t => t = s) ∧
    (s.modes.booted = false → clockOn s = true → s.sec.hHalt = false →
      (s.sec.life = .retired → Completes .boot s fun t => t.modes.mode = .sand ∧ t.modes.sandWhy = 1 ∧ t.modes.booted = true) ∧
      (s.sec.life ≠ .retired → bootSlot s = none → Completes .boot s fun t =>
        t.modes.mode = .sand ∧ t.modes.sandWhy = 1 ∧ t.modes.booted = true ∧ t.modes.clay = true ∧ t.fw.runningB = s.fw.runningB) ∧
      (∀ b, s.sec.life ≠ .retired → bootSlot s = some b →
        (s.id.sandStrap = true → Completes .boot s fun t =>
          t.modes.mode = .sand ∧ t.modes.sandWhy = 2 ∧ t.modes.booted = true ∧ t.fw.runningB = s.fw.runningB) ∧
        (s.id.sandStrap = false → s.fw.sandReq = true → Completes .boot s fun t =>
          t.modes.mode = .sand ∧ t.modes.sandWhy = 3 ∧ t.fw.sandReq = false ∧ t.fw.bootSeq = s.fw.bootSeq + 1) ∧
        (s.id.sandStrap = false → s.fw.sandReq = false →
          ((imgOf b s).mark = .confirmed → Completes .boot s fun t =>
            t.fw.runningB = some b ∧ t.modes.booted = true ∧ (t.modes.mode = .loam ∨ t.modes.mode = .silt) ∧
            ∀ v, slotBundle (imgOf b s) = some v → t.id.hVer = v.h ∧ t.id.ssv = v.ssv ∧ t.sec.epoch = v.epoch) ∧
          (∀ n, (imgOf b s).mark = .trial n → 3 ≤ n → canRollBack b s = false → Completes .boot s fun t =>
            t.modes.mode = .sand ∧ t.modes.sandWhy = 1 ∧ (imgOf b t).mark = .rejected) ∧
          (∀ n, (imgOf b s).mark = .trial n → 3 ≤ n → canRollBack b s = true → Completes .boot s fun t =>
            t.fw.runningB = some (!b) ∧ t.fw.activeB = !b ∧ (imgOf b t).mark = .rejected ∧
            (imgOf (!b) t).mark = .confirmed ∧ t.modes.booted = true))))

/-- R433, R435, R436, R438: a field record is mirrored once and acknowledged, an unacknowledged one goes again;
EVENT_READ answers with the records from a sequence number on; EVENT_CLOSE closes the record it names or finds none;
FEV_CLOSE closes the field's record and sends it again; handling of the last record in hand ends. R14, R424, R430,
R434: at an epoch edge with MCLK running TB stands at the edge, every NOTE of the host is closed, the occurrences
start anew, the event log and the as-applied records are written where H-core and PD_FLASH allow, and the snapshots of
open records and of the status counters are taken; without MCLK there is no edge. ASAPPLIED_READ answers with the
records held from a sequence number on, or finds none. Stated for a member; the head also reports and aids. The
model's own choices behind it: log entries 2, 14, 16, 19 and 64. -/
def Obligations.EventRecordsAndEpochEdges : Prop :=
  (∀ s : State,
    (∀ r : EventRec, ArrivesUp (.event r) s →
      let u := takenUp (.event r) s
      (s.ev.mirror.find? (sameId r) = none → s.ev.mirror.length < 64 → Completes (.eventMessage r) s fun t =>
        t.ev.mirror = s.ev.mirror ++ [r] ∧ t.ev.mirrorOvf = s.ev.mirrorOvf ∧ r ∉ t.ev.unacked ∧
        (r ∈ s.ev.unacked → t.ev.heard = s.ev.heard ++ [r]) ∧ t.barr.rg7 = s.barr.rg7.drop 1 ∧
        t.barr.rxCnt = s.barr.rxCnt + 2 ∧ t.clk = u.clk ∧ t.barr = u.barr ∧ Only [.ev, .barr, .clk] s t) ∧
      (s.ev.mirror.find? (sameId r) = some r → Completes (.eventMessage r) s fun t =>
        t.ev.mirror = s.ev.mirror ∧ t.ev.mirrorOvf = s.ev.mirrorOvf ∧ r ∉ t.ev.unacked ∧ t.clk = u.clk ∧
        t.barr = u.barr ∧ Only [.ev, .barr, .clk] s t)) ∧
    (∀ (n : BitVec 31) (r : EventRec), linkUp s = true → s.barr.fieldClock = true →
      (s.ev.unacked ++ s.ev.heard).find? (fun x => x.seq == n) = some r → Completes (.eventResend n) s fun t =>
        t = { s with barr := { s.barr with rg7 := s.barr.rg7 ++ [queued (.event r) s] } }) ∧
    (∀ n : BitVec 31, (s.ev.unacked ++ s.ev.heard).find? (fun x => x.seq == n) = none →
      Completes (.eventResend n) s fun t => t = s) ∧
    (∀ r : EventRec, s.ev.handling = [r] → handles s r.side = true → s.ev.waiting = [] → Completes .eventHandle s fun t =>
      t = { s with ev := { s.ev with handling := [] } }) ∧
    (∀ q : Request, (reqBody q).length = 6 → Accepted 0x58 q s → s.modes.mode ≠ .sand → (byteAt (reqBody q) 0).toNat ≤ 2 →
      1 ≤ (byteAt (reqBody q) 5).toNat → (byteAt (reqBody q) 5).toNat ≤ 7 → Answers (.eventRead q) q s id {
        data := (be 4 (eventCount (byteAt (reqBody q) 0) s) ++ (((eventQueue (byteAt (reqBody q) 0) s).filter fun r =>
          beAt (reqBody q) 1 4 ≤ r.1).take (byteAt (reqBody q) 5).toNat).flatMap fun r => eventBytes r.2) }) ∧
    (∀ q : Request, (reqBody q).length = 4 → Accepted 0x59 q s →
      (namedEvent (beAt (reqBody q) 0 4) s = none → Answers (.eventClose q) q s id { status := 0x21, detail := 0x0B }) ∧
      (∀ r, namedEvent (beAt (reqBody q) 0 4) s = some r → r.side = .host → Completes (.eventClose q) s fun t =>
        t.ev.host = s.ev.host.map (fun x => if x.seq == r.seq then { x with opened := false } else x) ∧
        t.modes.active = (if criticalOpen t then s.modes.active else s.modes.active &&& ~~~ cause 4) ∧
        t.modes.clay = s.modes.clay ∧ Answered q {} t ∧ Served [.ev, .modes] s t)) ∧
    (∀ id : Word, domOn s 13 = true → linkUp s = true → s.barr.fieldClock = true → Completes (.fevClose id) s fun t =>
      t.ev.field = s.ev.field.map (fun r => if r.seq = id.setWidth 31 then { r with opened := false } else r) ∧
      (∀ r, s.ev.field = [r] → r.seq = id.setWidth 31 → t.barr.rg7 = s.barr.rg7 ++ [queued (.event { r with opened := false }) s]) ∧
      t.ev.host = s.ev.host ∧ Only [.ev, .barr, .modes] s t)) ∧
  (∀ s : State,
    (∀ peers samples, clockOn s = false → Completes (.epochEdge peers samples) s fun t => t = s) ∧
    (∀ peers samples, clockOn s = true → isHead s = false → Completes (.epochEdge peers samples) s fun t =>
      t.clk.tb = (toEdge 11 ticksPerEpoch s).clk.tb ∧ t.clk.pps = s.clk.originGps ∧ t.ev.openCounts = openRecords t ∧
      t.ev.snap = { relocks := s.clk.relocks, failed := s.barr.failed, upBreaks := s.chain.upBreaks,
                    dnBreaks := s.chain.dnBreaks, errUp := s.chain.errUp, errDn := s.chain.errDn } ∧
      t.ev.epochOcc = [] ∧ (∀ r ∈ t.ev.host, r.sev.toNat = 0 → r.opened = false) ∧
      (∀ r ∈ s.ev.host, 2 ≤ r.sev.toNat → r ∈ t.ev.host) ∧
      (hcoreRuns s = true → domOn s 4 = true → t.ev.unlogged = [] ∧ t.fw.asBuf = [] ∧
        t.fw.asRing = lastN 262144 (s.fw.asRing ++ s.fw.asBuf)) ∧
      Only [.free, .clk, .barr, .out, .gnss, .fw, .ev] s t) ∧
    (∀ q : Request, (reqBody q).length = 5 → Accepted 0x5D q s → 1 ≤ (byteAt (reqBody q) 4).toNat →
      (byteAt (reqBody q) 4).toNat ≤ 7 →
      (appliedFrom (wordAt (reqBody q) 0) 1 s = [] → Answers (.asappliedRead q) q s id { status := 0x21, detail := 0x0B }) ∧
      (appliedFrom (wordAt (reqBody q) 0) 1 s ≠ [] → Answers (.asappliedRead q) q s id {
        data := (((s.fw.asRing ++ s.fw.asBuf).filter fun r =>
          (r.seq - wordAt (reqBody q) 0).toNat < (byteAt (reqBody q) 4).toNat).flatMap appliedBytes) })))

/-- R452 to R455: SWEEP_START is kept for its frame where no other sweep runs, the field is out of Clay and the budget
holds; SWEEP_CTRL stores or ends it at the field; each slot end sends one result and the last ends the sweep;
CAPTURE_DATA fills the host's mirror; SWEEP_RESULT answers from it and SWEEP_ABORT sends the end across. The model's
own choices behind it: log entries 13 and 19. -/
def Obligations.SweepsAreAcceptedRunAndRead : Prop :=
  ∀ s : State, linkUp s = true →
    (∀ q : Request, hcoreRuns s = true → q.pkt.opcode = 0x5A → checkFormat q = none → forMe q s = true →
      otherChain q s = false → s.pkt.dups.find? (isDup q) = none → q.parts = [] → q.pkt.more = false →
      s.modes.mode = .loam → checkLife 0x5A s = none → (reqBody q).length = 7 → (byteAt (reqBody q) 0).toNat ≤ 3 →
      q.pkt.sched = true → s.clk.valid = true → 400 ≤ frameDiff q.pkt.applyAt (now s) →
      frameDiff q.pkt.applyAt (now s) ≤ 86400000000 → s.pkt.sched.length < 64 →
      (s.modes.clay = true → Answers (.sweepStart q) q s id { status := 0x11, detail := 0x24 }) ∧
      (s.modes.clay = false → s.out.mirror = none → (∀ n ∈ maskList (wordAt (reqBody q) 1), claimOf s n ≤ budget s) →
        domOn s 15 = true → domOn s 17 = true → Completes (.sweepStart q) s fun t =>
          t.out.mirror = some ⟨BitVec.ofNat 16 (beAt (reqBody q) 5 2), Fin.ofNat 4 (byteAt (reqBody q) 0).toNat,
            wordAt (reqBody q) 1, q.pkt.applyAt, .pending, 0, []⟩ ∧ t.out.sweep = s.out.sweep ∧
          (∃ b : Bool, t.pkt.sched = s.pkt.sched ++ [{ q := q, handed := b }]) ∧
          Answered q { status := 0x01 } t ∧ Served [.out, .barr] s t)) ∧
    (∀ (k : Fin 4) (mask : Word) (id : BitVec 16) (start : Frame48), ArrivesDown (.sweepCtrl (.start k mask id start)) s →
      exec (.sweepCtrl (.start k mask id start)) s = .next { takenDown s with
        out := { s.out with sweep := some ⟨id, k, mask, start, .pending, 0, []⟩ } }) ∧
    (∀ (id : BitVec 16) (w : Sweep), s.out.sweep = some w → w.sweepId = id → sweepLive w = true →
      ArrivesDown (.sweepCtrl (.abort id)) s →
      Completes (.sweepCtrl (.abort id)) s fun t => t.out.sweep = some (abortedSweep 5 w) ∧
        t.out.mirror = some (abortedSweep 5 w) ∧ t.out.ch = s.out.ch ∧ t.clk = (takenDown s).clk) ∧
    (∀ (v1 v2 : Word) (v3 : BitVec 16) (n : Fin 32) (w : Sweep), s.out.sweep = some w → w.state = .running → w.cur = n.val →
      sweepChannels w = [n] → w.results = [] → s.barr.fieldClock = true →
      let u := advanceTo (tickAt w.start 0 s + slotFrames w.kind s * ticksPerFrame) s
      let r : SweepRes := { ch := n, state := 1, v1 := v1, v2 := v2, v3 := v3 }
      Completes (.sweepSlotEnd v1 v2 v3 true) s fun t =>
        t.out.sweep = some { w with state := .ended, results := [r] } ∧ t.barr.rg7 = s.barr.rg7 ++ [queued (.capture r) u] ∧
        t.out.ch = s.out.ch ∧ t.clk = u.clk ∧ Only [.clk, .barr, .out] s t) ∧
    (∀ (r : SweepRes) (m : Sweep), s.out.mirror = some m → m.results = [] → m.state = .running →
      ArrivesUp (.capture r) s → exec (.captureData r) s = .next { takenUp (.capture r) s with
        out := { s.out with mirror := some { m with results := [r], cur := r.ch.val,
                                                    state := if (sweepChannels m).getLast? = some r.ch then .ended else .running } } }) ∧
    (∀ q : Request, (reqBody q).length = 3 → Accepted 0x5B q s → (byteAt (reqBody q) 2).toNat ≤ 31 →
      (s.out.mirror = none → Answers (.sweepResult q) q s id { status := 0x21, detail := 0x0B }) ∧
      (∀ w, s.out.mirror = some w → w.sweepId.toNat = beAt (reqBody q) 0 2 → Answers (.sweepResult q) q s id {
        data := (be 2 w.sweepId.toNat ++ [BitVec.ofNat 8 w.kind.val, BitVec.ofNat 8 (sweepCode w.state + 4 * b2n (sweepWhole w))] ++
          be 6 w.start.toNat ++ be 4 w.mask.toNat ++ (((sweepChannels w).filter fun n =>
            (byteAt (reqBody q) 2).toNat ≤ n.val).take 18).flatMap fun n => resBytes (resultOf w n)) })) ∧
    (∀ (q : Request) (w : Sweep), (reqBody q).length = 2 → Accepted 0x5C q s → s.out.mirror = some w →
      w.sweepId.toNat = beAt (reqBody q) 0 2 → s.pkt.sched = [] → s.barr.rg6Held = [] → s.barr.rg6.length < 128 →
      Answers (.sweepAbort q) q s (sendCell (.sweepCtrl (.abort w.sweepId))) {})
end

