-- ==== Sys2Proof/Laws/State.lean ====
section
/-! SUPPORT. The state: what conditionals and folds keep of it part by part, and what the named updates write. -/

namespace Sys2Proof.Laws

open Sys2Proof.Machine Sys2Proof.Safety

/-- What every step of a fold keeps, the fold keeps. -/
theorem foldl_keep {α β γ : Type} (p : β → γ) (g : β → α → β) (h : ∀ s a, p (g s a) = p s)
    (l : List α) (s : β) : p (l.foldl g s) = p s := by
  induction l generalizing s with
  | nil => rfl
  | cons a l ih => exact (ih _).trans (h s a)
@[simp] theorem ite_pending (c : Prop) [Decidable c] (s t : State) :
    (if c then s else t).pending = if c then s.pending else t.pending := apply_ite _ _ _ _
@[simp] theorem ite_free (c : Prop) [Decidable c] (s t : State) :
    (if c then s else t).free = if c then s.free else t.free := apply_ite _ _ _ _
@[simp] theorem ite_id (c : Prop) [Decidable c] (s t : State) :
    (if c then s else t).id = if c then s.id else t.id := apply_ite _ _ _ _
@[simp] theorem ite_modes (c : Prop) [Decidable c] (s t : State) :
    (if c then s else t).modes = if c then s.modes else t.modes := apply_ite _ _ _ _
@[simp] theorem ite_regs (c : Prop) [Decidable c] (s t : State) :
    (if c then s else t).regs = if c then s.regs else t.regs := apply_ite _ _ _ _
@[simp] theorem ite_clk (c : Prop) [Decidable c] (s t : State) :
    (if c then s else t).clk = if c then s.clk else t.clk := apply_ite _ _ _ _
@[simp] theorem ite_barr (c : Prop) [Decidable c] (s t : State) :
    (if c then s else t).barr = if c then s.barr else t.barr := apply_ite _ _ _ _
@[simp] theorem ite_chain (c : Prop) [Decidable c] (s t : State) :
    (if c then s else t).chain = if c then s.chain else t.chain := apply_ite _ _ _ _
@[simp] theorem ite_pkt (c : Prop) [Decidable c] (s t : State) :
    (if c then s else t).pkt = if c then s.pkt else t.pkt := apply_ite _ _ _ _
@[simp] theorem ite_out (c : Prop) [Decidable c] (s t : State) :
    (if c then s else t).out = if c then s.out else t.out := apply_ite _ _ _ _
@[simp] theorem ite_sense (c : Prop) [Decidable c] (s t : State) :
    (if c then s else t).sense = if c then s.sense else t.sense := apply_ite _ _ _ _
@[simp] theorem ite_loop (c : Prop) [Decidable c] (s t : State) :
    (if c then s else t).loop = if c then s.loop else t.loop := apply_ite _ _ _ _
@[simp] theorem ite_gnss (c : Prop) [Decidable c] (s t : State) :
    (if c then s else t).gnss = if c then s.gnss else t.gnss := apply_ite _ _ _ _
@[simp] theorem ite_canA (c : Prop) [Decidable c] (s t : State) :
    (if c then s else t).canA = if c then s.canA else t.canA := apply_ite _ _ _ _
@[simp] theorem ite_canB (c : Prop) [Decidable c] (s t : State) :
    (if c then s else t).canB = if c then s.canB else t.canB := apply_ite _ _ _ _
@[simp] theorem ite_svc (c : Prop) [Decidable c] (s t : State) :
    (if c then s else t).svc = if c then s.svc else t.svc := apply_ite _ _ _ _
@[simp] theorem ite_pwr (c : Prop) [Decidable c] (s t : State) :
    (if c then s else t).pwr = if c then s.pwr else t.pwr := apply_ite _ _ _ _
@[simp] theorem ite_sec (c : Prop) [Decidable c] (s t : State) :
    (if c then s else t).sec = if c then s.sec else t.sec := apply_ite _ _ _ _
@[simp] theorem ite_fw (c : Prop) [Decidable c] (s t : State) :
    (if c then s else t).fw = if c then s.fw else t.fw := apply_ite _ _ _ _
@[simp] theorem ite_ev (c : Prop) [Decidable c] (s t : State) :
    (if c then s else t).ev = if c then s.ev else t.ev := apply_ite _ _ _ _
@[simp] theorem ite_sect (c : Prop) [Decidable c] (s t : State) :
    (if c then s else t).sect = if c then s.sect else t.sect := apply_ite _ _ _ _
@[simp] theorem foldl_pending {α : Type} (g : State → α → State) (h : ∀ s a, (g s a).pending = s.pending) (l : List α) (s : State) :
    (l.foldl g s).pending = s.pending := foldl_keep (fun s => s.pending) g h l s
@[simp] theorem foldl_free {α : Type} (g : State → α → State) (h : ∀ s a, (g s a).free = s.free) (l : List α) (s : State) :
    (l.foldl g s).free = s.free := foldl_keep (fun s => s.free) g h l s
@[simp] theorem foldl_id {α : Type} (g : State → α → State) (h : ∀ s a, (g s a).id = s.id) (l : List α) (s : State) :
    (l.foldl g s).id = s.id := foldl_keep (fun s => s.id) g h l s
@[simp] theorem foldl_modes {α : Type} (g : State → α → State) (h : ∀ s a, (g s a).modes = s.modes) (l : List α) (s : State) :
    (l.foldl g s).modes = s.modes := foldl_keep (fun s => s.modes) g h l s
@[simp] theorem foldl_regs {α : Type} (g : State → α → State) (h : ∀ s a, (g s a).regs = s.regs) (l : List α) (s : State) :
    (l.foldl g s).regs = s.regs := foldl_keep (fun s => s.regs) g h l s
@[simp] theorem foldl_clk {α : Type} (g : State → α → State) (h : ∀ s a, (g s a).clk = s.clk) (l : List α) (s : State) :
    (l.foldl g s).clk = s.clk := foldl_keep (fun s => s.clk) g h l s
@[simp] theorem foldl_barr {α : Type} (g : State → α → State) (h : ∀ s a, (g s a).barr = s.barr) (l : List α) (s : State) :
    (l.foldl g s).barr = s.barr := foldl_keep (fun s => s.barr) g h l s
@[simp] theorem foldl_chain {α : Type} (g : State → α → State) (h : ∀ s a, (g s a).chain = s.chain) (l : List α) (s : State) :
    (l.foldl g s).chain = s.chain := foldl_keep (fun s => s.chain) g h l s
@[simp] theorem foldl_pkt {α : Type} (g : State → α → State) (h : ∀ s a, (g s a).pkt = s.pkt) (l : List α) (s : State) :
    (l.foldl g s).pkt = s.pkt := foldl_keep (fun s => s.pkt) g h l s
@[simp] theorem foldl_out {α : Type} (g : State → α → State) (h : ∀ s a, (g s a).out = s.out) (l : List α) (s : State) :
    (l.foldl g s).out = s.out := foldl_keep (fun s => s.out) g h l s
@[simp] theorem foldl_sense {α : Type} (g : State → α → State) (h : ∀ s a, (g s a).sense = s.sense) (l : List α) (s : State) :
    (l.foldl g s).sense = s.sense := foldl_keep (fun s => s.sense) g h l s
@[simp] theorem foldl_loop {α : Type} (g : State → α → State) (h : ∀ s a, (g s a).loop = s.loop) (l : List α) (s : State) :
    (l.foldl g s).loop = s.loop := foldl_keep (fun s => s.loop) g h l s
@[simp] theorem foldl_gnss {α : Type} (g : State → α → State) (h : ∀ s a, (g s a).gnss = s.gnss) (l : List α) (s : State) :
    (l.foldl g s).gnss = s.gnss := foldl_keep (fun s => s.gnss) g h l s
@[simp] theorem foldl_canA {α : Type} (g : State → α → State) (h : ∀ s a, (g s a).canA = s.canA) (l : List α) (s : State) :
    (l.foldl g s).canA = s.canA := foldl_keep (fun s => s.canA) g h l s
@[simp] theorem foldl_canB {α : Type} (g : State → α → State) (h : ∀ s a, (g s a).canB = s.canB) (l : List α) (s : State) :
    (l.foldl g s).canB = s.canB := foldl_keep (fun s => s.canB) g h l s
@[simp] theorem foldl_svc {α : Type} (g : State → α → State) (h : ∀ s a, (g s a).svc = s.svc) (l : List α) (s : State) :
    (l.foldl g s).svc = s.svc := foldl_keep (fun s => s.svc) g h l s
@[simp] theorem foldl_pwr {α : Type} (g : State → α → State) (h : ∀ s a, (g s a).pwr = s.pwr) (l : List α) (s : State) :
    (l.foldl g s).pwr = s.pwr := foldl_keep (fun s => s.pwr) g h l s
@[simp] theorem foldl_sec {α : Type} (g : State → α → State) (h : ∀ s a, (g s a).sec = s.sec) (l : List α) (s : State) :
    (l.foldl g s).sec = s.sec := foldl_keep (fun s => s.sec) g h l s
@[simp] theorem foldl_fw {α : Type} (g : State → α → State) (h : ∀ s a, (g s a).fw = s.fw) (l : List α) (s : State) :
    (l.foldl g s).fw = s.fw := foldl_keep (fun s => s.fw) g h l s
@[simp] theorem foldl_ev {α : Type} (g : State → α → State) (h : ∀ s a, (g s a).ev = s.ev) (l : List α) (s : State) :
    (l.foldl g s).ev = s.ev := foldl_keep (fun s => s.ev) g h l s
@[simp] theorem foldl_sect {α : Type} (g : State → α → State) (h : ∀ s a, (g s a).sect = s.sect) (l : List α) (s : State) :
    (l.foldl g s).sect = s.sect := foldl_keep (fun s => s.sect) g h l s

/-- What every step of a fold preserves, the fold preserves. -/
theorem foldl_inv {α β : Type} (p : β → Prop) (g : β → α → β) (h : ∀ s a, p s → p (g s a)) (l : List α) (s : β)
    (h0 : p s) : p (l.foldl g s) := by
  induction l generalizing s with
  | nil => exact h0
  | cons a l ih => exact ih _ (h _ _ h0)

/-! ## What the named updates write -/

@[simp] theorem draw_free_eq (s : State) : (draw s).free = s.free + 1 := rfl
@[simp] theorem setReg_regs (a : Nat) (v : Word) (s : State) :
    (setReg a v s).regs = store (regReset s.id.variant) s.regs a v := rfl
@[simp] theorem advance_tb (d : Nat) (s : State) : (advance d s).clk.tb = s.clk.tb + BitVec.ofNat 64 d := rfl
@[simp] theorem advance_link (d : Nat) (s : State) : (advance d s).barr.link = s.barr.link := rfl
@[simp] theorem setCan_a (c : Can) (s : State) : (setCan .a c s).canA = c := rfl
@[simp] theorem setCan_b (c : Can) (s : State) : (setCan .b c s).canB = c := rfl
@[simp] theorem setCan_a_b (c : Can) (s : State) : (setCan .a c s).canB = s.canB := rfl
@[simp] theorem setCan_b_a (c : Can) (s : State) : (setCan .b c s).canA = s.canA := rfl
@[simp] theorem setImg_a (f : ImgSlot → ImgSlot) (s : State) : (setImg false f s).fw.slotA = f s.fw.slotA := rfl
@[simp] theorem setImg_b (f : ImgSlot → ImgSlot) (s : State) : (setImg true f s).fw.slotB = f s.fw.slotB := rfl
@[simp] theorem setImg_a_b (f : ImgSlot → ImgSlot) (s : State) : (setImg false f s).fw.slotB = s.fw.slotB := rfl
@[simp] theorem setImg_b_a (f : ImgSlot → ImgSlot) (s : State) : (setImg true f s).fw.slotA = s.fw.slotA := rfl
@[simp] theorem setPointer_pointer (a : Byte) (s : State) : (setPointer a s).svc.pointer = a := rfl
@[simp] theorem setPointer_buf (a : Byte) (s : State) : (setPointer a s).svc.buf = s.svc.buf := rfl
theorem setCh_eq (n : Fin 32) (f : Chan → Chan) (s : State) :
    setCh n f s = { s with out := { s.out with ch := (setCh n f s).out.ch } } := rfl
@[simp] theorem setDom_dom (d : Fin 18) (v : Dom) (s : State) :
    (setDom d v s).pwr.dom = (if d = 10 && v != .on then releaseLines s else s).pwr.dom.set d v := rfl

/-- Reading an element after changing one. -/
theorem upd_get {α : Type} {n : Nat} (v : Vector α n) (i j : Fin n) (f : α → α) :
    (upd v i f)[j.val] = if j = i then f v[i.val] else v[j.val] := by
  simp only [upd, Vector.getElem_set]
  by_cases h : i = j
  · subst h; simp
  · have : i.val ≠ j.val := fun e => h (Fin.ext e)
    simp [this, Ne.symm h]

@[simp] theorem setCh_get (n m : Fin 32) (f : Chan → Chan) (s : State) :
    (setCh n f s).out.ch[m.val] = if m = n then f s.out.ch[n.val] else s.out.ch[m.val] := upd_get _ n m f
@[simp] theorem setSect_get (n m : Fin 32) (f : ChSect → ChSect) (s : State) :
    (setSect n f s).sect.ch[m.val] = if m = n then f s.sect.ch[n.val] else s.sect.ch[m.val] := upd_get _ n m f
@[simp] theorem setSlot_get (n m : Fin 16) (f : Slot → Slot) (s : State) :
    (setSlot n f s).loop.slot[m.val] = if m = n then f s.loop.slot[n.val] else s.loop.slot[m.val] := upd_get _ n m f
@[simp] theorem setIn_get (n m : Fin 16) (f : SinIn → SinIn) (s : State) :
    (setIn n f s).sense.inp[m.val] = if m = n then f s.sense.inp[n.val] else s.sense.inp[m.val] := upd_get _ n m f
@[simp] theorem setFan_get (n m : Fin 2) (f : Fan → Fan) (s : State) :
    (setFan n f s).sense.fan[m.val] = if m = n then f s.sense.fan[n.val] else s.sense.fan[m.val] := upd_get _ n m f

/-- A change of one channel is a change of that channel alone. -/
theorem setCh_oneChannel (n : Fin 32) (f : Chan → Chan) (s : State) : OneChannel n (f s.out.ch[n]) s (setCh n f s) := by
  refine ⟨by simp, fun m h => by simp [h], by simp [setCh]⟩

end Sys2Proof.Laws
end

