-- ==== Sys2Proof/Laws/FramesOps.lean ====
section
/-! SUPPORT. Frames of the operations every command shares: registers, clocks, events, packets, Clay.
One lemma for each operation, of the parts of the state that it leaves as they were. -/

namespace Sys2Proof.Laws

open Sys2Proof.Machine

@[simp] theorem setSect_frame (n : Fin 32) (f : ChSect → ChSect) (s : State) :
    (setSect n f s).pending = s.pending ∧ (setSect n f s).free = s.free ∧ (setSect n f s).id = s.id ∧ (setSect n f
    s).modes = s.modes ∧ (setSect n f s).regs = s.regs ∧ (setSect n f s).clk = s.clk ∧ (setSect n f s).barr = s.barr
    ∧ (setSect n f s).chain = s.chain ∧ (setSect n f s).pkt = s.pkt ∧ (setSect n f s).out = s.out ∧ (setSect n f
    s).sense = s.sense ∧ (setSect n f s).loop = s.loop ∧ (setSect n f s).gnss = s.gnss ∧ (setSect n f s).canA =
    s.canA ∧ (setSect n f s).canB = s.canB ∧ (setSect n f s).svc = s.svc ∧ (setSect n f s).pwr = s.pwr ∧ (setSect n
    f s).sec = s.sec ∧ (setSect n f s).fw = s.fw ∧ (setSect n f s).ev = s.ev := by simp [setSect]
@[simp] theorem dropPreds_frame (n : Fin 32) (s : State) :
    (dropPreds n s).pending = s.pending ∧ (dropPreds n s).free = s.free ∧ (dropPreds n s).id = s.id ∧ (dropPreds n
    s).modes = s.modes ∧ (dropPreds n s).regs = s.regs ∧ (dropPreds n s).clk = s.clk ∧ (dropPreds n s).barr = s.barr
    ∧ (dropPreds n s).chain = s.chain ∧ (dropPreds n s).pkt = s.pkt ∧ (dropPreds n s).out = s.out ∧ (dropPreds n
    s).sense = s.sense ∧ (dropPreds n s).loop = s.loop ∧ (dropPreds n s).gnss = s.gnss ∧ (dropPreds n s).canA =
    s.canA ∧ (dropPreds n s).canB = s.canB ∧ (dropPreds n s).svc = s.svc ∧ (dropPreds n s).pwr = s.pwr ∧ (dropPreds
    n s).sec = s.sec ∧ (dropPreds n s).fw = s.fw ∧ (dropPreds n s).ev = s.ev := by simp [dropPreds]
@[simp] theorem applyGeo_frame (r : GeoRec) (s : State) :
    (applyGeo r s).pending = s.pending ∧ (applyGeo r s).free = s.free ∧ (applyGeo r s).id = s.id ∧ (applyGeo r
    s).modes = s.modes ∧ (applyGeo r s).regs = s.regs ∧ (applyGeo r s).clk = s.clk ∧ (applyGeo r s).barr = s.barr ∧
    (applyGeo r s).chain = s.chain ∧ (applyGeo r s).pkt = s.pkt ∧ (applyGeo r s).out = s.out ∧ (applyGeo r s).sense
    = s.sense ∧ (applyGeo r s).loop = s.loop ∧ (applyGeo r s).gnss = s.gnss ∧ (applyGeo r s).canA = s.canA ∧
    (applyGeo r s).canB = s.canB ∧ (applyGeo r s).svc = s.svc ∧ (applyGeo r s).pwr = s.pwr ∧ (applyGeo r s).sec =
    s.sec ∧ (applyGeo r s).fw = s.fw ∧ (applyGeo r s).ev = s.ev := by
  unfold applyGeo; split <;> simp
@[simp] theorem runGeometry_frame (bs : List Byte) (s : State) :
    (runGeometry bs s).pending = s.pending ∧ (runGeometry bs s).free = s.free ∧ (runGeometry bs s).id = s.id ∧
    (runGeometry bs s).modes = s.modes ∧ (runGeometry bs s).regs = s.regs ∧ (runGeometry bs s).clk = s.clk ∧
    (runGeometry bs s).barr = s.barr ∧ (runGeometry bs s).chain = s.chain ∧ (runGeometry bs s).pkt = s.pkt ∧
    (runGeometry bs s).out = s.out ∧ (runGeometry bs s).sense = s.sense ∧ (runGeometry bs s).loop = s.loop ∧
    (runGeometry bs s).gnss = s.gnss ∧ (runGeometry bs s).canA = s.canA ∧ (runGeometry bs s).canB = s.canB ∧
    (runGeometry bs s).svc = s.svc ∧ (runGeometry bs s).pwr = s.pwr ∧ (runGeometry bs s).sec = s.sec ∧ (runGeometry
    bs s).fw = s.fw ∧ (runGeometry bs s).ev = s.ev := by
  unfold runGeometry; split <;> simp
@[simp] theorem applyLook_frame (b : List Byte) (n : Fin 32) (s : State) :
    (applyLook b n s).pending = s.pending ∧ (applyLook b n s).free = s.free ∧ (applyLook b n s).id = s.id ∧
    (applyLook b n s).modes = s.modes ∧ (applyLook b n s).regs = s.regs ∧ (applyLook b n s).clk = s.clk ∧ (applyLook
    b n s).barr = s.barr ∧ (applyLook b n s).chain = s.chain ∧ (applyLook b n s).pkt = s.pkt ∧ (applyLook b n s).out
    = s.out ∧ (applyLook b n s).sense = s.sense ∧ (applyLook b n s).loop = s.loop ∧ (applyLook b n s).gnss = s.gnss
    ∧ (applyLook b n s).canA = s.canA ∧ (applyLook b n s).canB = s.canB ∧ (applyLook b n s).svc = s.svc ∧ (applyLook
    b n s).pwr = s.pwr ∧ (applyLook b n s).sec = s.sec ∧ (applyLook b n s).fw = s.fw ∧ (applyLook b n s).ev = s.ev := by simp [applyLook]
@[simp] theorem runItem_frame (k : Nat) (v : List Byte) (s : State) :
    (runItem k v s).pending = s.pending ∧ (runItem k v s).free = s.free ∧ (runItem k v s).id = s.id ∧ (runItem k v
    s).modes = s.modes ∧ (runItem k v s).regs = s.regs ∧ (runItem k v s).clk = s.clk ∧ (runItem k v s).barr = s.barr
    ∧ (runItem k v s).chain = s.chain ∧ (runItem k v s).pkt = s.pkt ∧ (runItem k v s).out = s.out ∧ (runItem k v
    s).sense = s.sense ∧ (runItem k v s).loop = s.loop ∧ (runItem k v s).gnss = s.gnss ∧ (runItem k v s).canA =
    s.canA ∧ (runItem k v s).canB = s.canB ∧ (runItem k v s).svc = s.svc ∧ (runItem k v s).pwr = s.pwr ∧ (runItem k
    v s).sec = s.sec ∧ (runItem k v s).fw = s.fw ∧ (runItem k v s).ev = s.ev := by
  unfold runItem; split_ifs <;> simp only [runGeometry_frame, applyLook_frame, and_self]
@[simp] theorem advance_frame (d : Nat) (s : State) :
    (advance d s).pending = s.pending ∧ (advance d s).free = s.free ∧ (advance d s).id = s.id ∧ (advance d s).modes
    = s.modes ∧ (advance d s).regs = s.regs ∧ (advance d s).chain = s.chain ∧ (advance d s).pkt = s.pkt ∧ (advance d
    s).out = s.out ∧ (advance d s).sense = s.sense ∧ (advance d s).loop = s.loop ∧ (advance d s).gnss = s.gnss ∧
    (advance d s).canA = s.canA ∧ (advance d s).canB = s.canB ∧ (advance d s).svc = s.svc ∧ (advance d s).pwr =
    s.pwr ∧ (advance d s).sec = s.sec ∧ (advance d s).fw = s.fw ∧ (advance d s).ev = s.ev ∧ (advance d s).sect =
    s.sect := by simp [advance]
@[simp] theorem advanceTo_frame (t : Nat) (s : State) :
    (advanceTo t s).pending = s.pending ∧ (advanceTo t s).free = s.free ∧ (advanceTo t s).id = s.id ∧ (advanceTo t
    s).modes = s.modes ∧ (advanceTo t s).regs = s.regs ∧ (advanceTo t s).chain = s.chain ∧ (advanceTo t s).pkt =
    s.pkt ∧ (advanceTo t s).out = s.out ∧ (advanceTo t s).sense = s.sense ∧ (advanceTo t s).loop = s.loop ∧
    (advanceTo t s).gnss = s.gnss ∧ (advanceTo t s).canA = s.canA ∧ (advanceTo t s).canB = s.canB ∧ (advanceTo t
    s).svc = s.svc ∧ (advanceTo t s).pwr = s.pwr ∧ (advanceTo t s).sec = s.sec ∧ (advanceTo t s).fw = s.fw ∧
    (advanceTo t s).ev = s.ev ∧ (advanceTo t s).sect = s.sect := by simp [advanceTo]
@[simp] theorem toEdge_frame (k p : Nat) (s : State) :
    (toEdge k p s).pending = s.pending ∧ (toEdge k p s).free = s.free ∧ (toEdge k p s).id = s.id ∧ (toEdge k p
    s).modes = s.modes ∧ (toEdge k p s).regs = s.regs ∧ (toEdge k p s).chain = s.chain ∧ (toEdge k p s).pkt = s.pkt
    ∧ (toEdge k p s).out = s.out ∧ (toEdge k p s).sense = s.sense ∧ (toEdge k p s).loop = s.loop ∧ (toEdge k p
    s).gnss = s.gnss ∧ (toEdge k p s).canA = s.canA ∧ (toEdge k p s).canB = s.canB ∧ (toEdge k p s).svc = s.svc ∧
    (toEdge k p s).pwr = s.pwr ∧ (toEdge k p s).sec = s.sec ∧ (toEdge k p s).fw = s.fw ∧ (toEdge k p s).ev = s.ev ∧
    (toEdge k p s).sect = s.sect := by simp [toEdge]
@[simp] theorem toFrame_frame (s : State) :
    (toFrame s).pending = s.pending ∧ (toFrame s).free = s.free ∧ (toFrame s).id = s.id ∧ (toFrame s).modes =
    s.modes ∧ (toFrame s).regs = s.regs ∧ (toFrame s).chain = s.chain ∧ (toFrame s).pkt = s.pkt ∧ (toFrame s).out =
    s.out ∧ (toFrame s).sense = s.sense ∧ (toFrame s).loop = s.loop ∧ (toFrame s).gnss = s.gnss ∧ (toFrame s).canA =
    s.canA ∧ (toFrame s).canB = s.canB ∧ (toFrame s).svc = s.svc ∧ (toFrame s).pwr = s.pwr ∧ (toFrame s).sec = s.sec
    ∧ (toFrame s).fw = s.fw ∧ (toFrame s).ev = s.ev ∧ (toFrame s).sect = s.sect := by
  simp [toFrame]
@[simp] theorem setReg_frame (a : Nat) (v : Word) (s : State) :
    (setReg a v s).pending = s.pending ∧ (setReg a v s).free = s.free ∧ (setReg a v s).id = s.id ∧ (setReg a v
    s).modes = s.modes ∧ (setReg a v s).clk = s.clk ∧ (setReg a v s).barr = s.barr ∧ (setReg a v s).chain = s.chain
    ∧ (setReg a v s).pkt = s.pkt ∧ (setReg a v s).out = s.out ∧ (setReg a v s).sense = s.sense ∧ (setReg a v s).loop
    = s.loop ∧ (setReg a v s).gnss = s.gnss ∧ (setReg a v s).canA = s.canA ∧ (setReg a v s).canB = s.canB ∧ (setReg
    a v s).svc = s.svc ∧ (setReg a v s).pwr = s.pwr ∧ (setReg a v s).sec = s.sec ∧ (setReg a v s).fw = s.fw ∧
    (setReg a v s).ev = s.ev ∧ (setReg a v s).sect = s.sect := by simp [setReg]
@[simp] theorem toFieldFrame_frame (s : State) :
    (toFieldFrame s).pending = s.pending ∧ (toFieldFrame s).free = s.free ∧ (toFieldFrame s).id = s.id ∧
    (toFieldFrame s).modes = s.modes ∧ (toFieldFrame s).regs = s.regs ∧ (toFieldFrame s).chain = s.chain ∧
    (toFieldFrame s).pkt = s.pkt ∧ (toFieldFrame s).out = s.out ∧ (toFieldFrame s).sense = s.sense ∧ (toFieldFrame
    s).loop = s.loop ∧ (toFieldFrame s).gnss = s.gnss ∧ (toFieldFrame s).canA = s.canA ∧ (toFieldFrame s).canB =
    s.canB ∧ (toFieldFrame s).svc = s.svc ∧ (toFieldFrame s).pwr = s.pwr ∧ (toFieldFrame s).sec = s.sec ∧
    (toFieldFrame s).fw = s.fw ∧ (toFieldFrame s).ev = s.ev ∧ (toFieldFrame s).sect = s.sect := by
  simp [toFieldFrame]
@[simp] theorem sendEvent_frame (r : EventRec) (s : State) :
    (sendEvent r s).pending = s.pending ∧ (sendEvent r s).free = s.free ∧ (sendEvent r s).id = s.id ∧ (sendEvent r
    s).modes = s.modes ∧ (sendEvent r s).regs = s.regs ∧ (sendEvent r s).clk = s.clk ∧ (sendEvent r s).chain =
    s.chain ∧ (sendEvent r s).pkt = s.pkt ∧ (sendEvent r s).out = s.out ∧ (sendEvent r s).sense = s.sense ∧
    (sendEvent r s).loop = s.loop ∧ (sendEvent r s).gnss = s.gnss ∧ (sendEvent r s).canA = s.canA ∧ (sendEvent r
    s).canB = s.canB ∧ (sendEvent r s).svc = s.svc ∧ (sendEvent r s).pwr = s.pwr ∧ (sendEvent r s).sec = s.sec ∧
    (sendEvent r s).fw = s.fw ∧ (sendEvent r s).sect = s.sect := by simp [sendEvent]
@[simp] theorem note_frame (side : Side) (code : BitVec 16) (sev : BitVec 2) (chan : Byte) (data : List Byte) (s : State) :
    (note side code sev chan data s).pending = s.pending ∧ (note side code sev chan data s).free = s.free ∧ (note
    side code sev chan data s).id = s.id ∧ (note side code sev chan data s).modes = s.modes ∧ (note side code sev
    chan data s).regs = s.regs ∧ (note side code sev chan data s).clk = s.clk ∧ (note side code sev chan data
    s).chain = s.chain ∧ (note side code sev chan data s).pkt = s.pkt ∧ (note side code sev chan data s).out = s.out
    ∧ (note side code sev chan data s).sense = s.sense ∧ (note side code sev chan data s).loop = s.loop ∧ (note side
    code sev chan data s).gnss = s.gnss ∧ (note side code sev chan data s).canA = s.canA ∧ (note side code sev chan
    data s).canB = s.canB ∧ (note side code sev chan data s).svc = s.svc ∧ (note side code sev chan data s).pwr =
    s.pwr ∧ (note side code sev chan data s).sec = s.sec ∧ (note side code sev chan data s).fw = s.fw ∧ (note side
    code sev chan data s).sect = s.sect := by
  unfold note; dsimp only; (repeat' split) <;> simp
@[simp] theorem noteEpoch_frame (side : Side) (code : BitVec 16) (sev : BitVec 2) (chan : Byte) (data : List Byte) (s : State) :
    (noteEpoch side code sev chan data s).pending = s.pending ∧ (noteEpoch side code sev chan data s).free = s.free
    ∧ (noteEpoch side code sev chan data s).id = s.id ∧ (noteEpoch side code sev chan data s).modes = s.modes ∧
    (noteEpoch side code sev chan data s).regs = s.regs ∧ (noteEpoch side code sev chan data s).clk = s.clk ∧
    (noteEpoch side code sev chan data s).chain = s.chain ∧ (noteEpoch side code sev chan data s).pkt = s.pkt ∧
    (noteEpoch side code sev chan data s).out = s.out ∧ (noteEpoch side code sev chan data s).sense = s.sense ∧
    (noteEpoch side code sev chan data s).loop = s.loop ∧ (noteEpoch side code sev chan data s).gnss = s.gnss ∧
    (noteEpoch side code sev chan data s).canA = s.canA ∧ (noteEpoch side code sev chan data s).canB = s.canB ∧
    (noteEpoch side code sev chan data s).svc = s.svc ∧ (noteEpoch side code sev chan data s).pwr = s.pwr ∧
    (noteEpoch side code sev chan data s).sec = s.sec ∧ (noteEpoch side code sev chan data s).fw = s.fw ∧ (noteEpoch
    side code sev chan data s).sect = s.sect := by simp [noteEpoch]
@[simp] theorem sendCell_frame (c : Cell) (s : State) :
    (sendCell c s).pending = s.pending ∧ (sendCell c s).free = s.free ∧ (sendCell c s).id = s.id ∧ (sendCell c
    s).modes = s.modes ∧ (sendCell c s).regs = s.regs ∧ (sendCell c s).clk = s.clk ∧ (sendCell c s).chain = s.chain
    ∧ (sendCell c s).pkt = s.pkt ∧ (sendCell c s).out = s.out ∧ (sendCell c s).sense = s.sense ∧ (sendCell c s).loop
    = s.loop ∧ (sendCell c s).gnss = s.gnss ∧ (sendCell c s).canA = s.canA ∧ (sendCell c s).canB = s.canB ∧
    (sendCell c s).svc = s.svc ∧ (sendCell c s).pwr = s.pwr ∧ (sendCell c s).sec = s.sec ∧ (sendCell c s).fw = s.fw
    ∧ (sendCell c s).ev = s.ev ∧ (sendCell c s).sect = s.sect := by simp [sendCell]
@[simp] theorem upCell_frame (c : Cell) (s : State) :
    (upCell c s).pending = s.pending ∧ (upCell c s).free = s.free ∧ (upCell c s).id = s.id ∧ (upCell c s).modes =
    s.modes ∧ (upCell c s).regs = s.regs ∧ (upCell c s).clk = s.clk ∧ (upCell c s).chain = s.chain ∧ (upCell c
    s).pkt = s.pkt ∧ (upCell c s).out = s.out ∧ (upCell c s).sense = s.sense ∧ (upCell c s).loop = s.loop ∧ (upCell
    c s).gnss = s.gnss ∧ (upCell c s).canA = s.canA ∧ (upCell c s).canB = s.canB ∧ (upCell c s).svc = s.svc ∧
    (upCell c s).pwr = s.pwr ∧ (upCell c s).sec = s.sec ∧ (upCell c s).fw = s.fw ∧ (upCell c s).ev = s.ev ∧ (upCell
    c s).sect = s.sect := by simp [upCell]
@[simp] theorem sendUrgent_frame (c : Cell) (s : State) :
    (sendUrgent c s).pending = s.pending ∧ (sendUrgent c s).free = s.free ∧ (sendUrgent c s).id = s.id ∧ (sendUrgent
    c s).modes = s.modes ∧ (sendUrgent c s).regs = s.regs ∧ (sendUrgent c s).clk = s.clk ∧ (sendUrgent c s).chain =
    s.chain ∧ (sendUrgent c s).pkt = s.pkt ∧ (sendUrgent c s).out = s.out ∧ (sendUrgent c s).sense = s.sense ∧
    (sendUrgent c s).loop = s.loop ∧ (sendUrgent c s).gnss = s.gnss ∧ (sendUrgent c s).canA = s.canA ∧ (sendUrgent c
    s).canB = s.canB ∧ (sendUrgent c s).svc = s.svc ∧ (sendUrgent c s).pwr = s.pwr ∧ (sendUrgent c s).sec = s.sec ∧
    (sendUrgent c s).fw = s.fw ∧ (sendUrgent c s).ev = s.ev ∧ (sendUrgent c s).sect = s.sect := by simp [sendUrgent]
@[simp] theorem upUrgent_frame (c : Cell) (s : State) :
    (upUrgent c s).pending = s.pending ∧ (upUrgent c s).free = s.free ∧ (upUrgent c s).id = s.id ∧ (upUrgent c
    s).modes = s.modes ∧ (upUrgent c s).regs = s.regs ∧ (upUrgent c s).clk = s.clk ∧ (upUrgent c s).chain = s.chain
    ∧ (upUrgent c s).pkt = s.pkt ∧ (upUrgent c s).out = s.out ∧ (upUrgent c s).sense = s.sense ∧ (upUrgent c s).loop
    = s.loop ∧ (upUrgent c s).gnss = s.gnss ∧ (upUrgent c s).canA = s.canA ∧ (upUrgent c s).canB = s.canB ∧
    (upUrgent c s).svc = s.svc ∧ (upUrgent c s).pwr = s.pwr ∧ (upUrgent c s).sec = s.sec ∧ (upUrgent c s).fw = s.fw
    ∧ (upUrgent c s).ev = s.ev ∧ (upUrgent c s).sect = s.sect := by
  simp [upUrgent]
@[simp] theorem passDown_frame (s : State) :
    (passDown s).pending = s.pending ∧ (passDown s).free = s.free ∧ (passDown s).id = s.id ∧ (passDown s).modes =
    s.modes ∧ (passDown s).regs = s.regs ∧ (passDown s).chain = s.chain ∧ (passDown s).pkt = s.pkt ∧ (passDown
    s).out = s.out ∧ (passDown s).sense = s.sense ∧ (passDown s).loop = s.loop ∧ (passDown s).gnss = s.gnss ∧
    (passDown s).canA = s.canA ∧ (passDown s).canB = s.canB ∧ (passDown s).svc = s.svc ∧ (passDown s).pwr = s.pwr ∧
    (passDown s).sec = s.sec ∧ (passDown s).fw = s.fw ∧ (passDown s).ev = s.ev ∧ (passDown s).sect = s.sect := by
  unfold passDown; split <;> simp
@[simp] theorem seqDown_frame (seq : BitVec 16) (s : State) :
    (seqDown seq s).pending = s.pending ∧ (seqDown seq s).free = s.free ∧ (seqDown seq s).id = s.id ∧ (seqDown seq
    s).modes = s.modes ∧ (seqDown seq s).regs = s.regs ∧ (seqDown seq s).clk = s.clk ∧ (seqDown seq s).chain =
    s.chain ∧ (seqDown seq s).pkt = s.pkt ∧ (seqDown seq s).out = s.out ∧ (seqDown seq s).sense = s.sense ∧ (seqDown
    seq s).loop = s.loop ∧ (seqDown seq s).gnss = s.gnss ∧ (seqDown seq s).canA = s.canA ∧ (seqDown seq s).canB =
    s.canB ∧ (seqDown seq s).svc = s.svc ∧ (seqDown seq s).pwr = s.pwr ∧ (seqDown seq s).sec = s.sec ∧ (seqDown seq
    s).fw = s.fw ∧ (seqDown seq s).ev = s.ev ∧ (seqDown seq s).sect = s.sect := by
  simp [seqDown]
@[simp] theorem checkDrops_frame (s : State) :
    (checkDrops s).pending = s.pending ∧ (checkDrops s).free = s.free ∧ (checkDrops s).id = s.id ∧ (checkDrops
    s).modes = s.modes ∧ (checkDrops s).regs = s.regs ∧ (checkDrops s).clk = s.clk ∧ (checkDrops s).chain = s.chain
    ∧ (checkDrops s).pkt = s.pkt ∧ (checkDrops s).out = s.out ∧ (checkDrops s).sense = s.sense ∧ (checkDrops s).loop
    = s.loop ∧ (checkDrops s).gnss = s.gnss ∧ (checkDrops s).canA = s.canA ∧ (checkDrops s).canB = s.canB ∧
    (checkDrops s).svc = s.svc ∧ (checkDrops s).pwr = s.pwr ∧ (checkDrops s).sec = s.sec ∧ (checkDrops s).fw = s.fw
    ∧ (checkDrops s).sect = s.sect := by
  simp [checkDrops]
@[simp] theorem passUp_frame (bad : Bool) (s : State) :
    (passUp bad s).pending = s.pending ∧ (passUp bad s).free = s.free ∧ (passUp bad s).id = s.id ∧ (passUp bad
    s).modes = s.modes ∧ (passUp bad s).regs = s.regs ∧ (passUp bad s).chain = s.chain ∧ (passUp bad s).pkt = s.pkt
    ∧ (passUp bad s).out = s.out ∧ (passUp bad s).sense = s.sense ∧ (passUp bad s).loop = s.loop ∧ (passUp bad
    s).gnss = s.gnss ∧ (passUp bad s).canA = s.canA ∧ (passUp bad s).canB = s.canB ∧ (passUp bad s).svc = s.svc ∧
    (passUp bad s).pwr = s.pwr ∧ (passUp bad s).sec = s.sec ∧ (passUp bad s).fw = s.fw ∧ (passUp bad s).ev = s.ev ∧
    (passUp bad s).sect = s.sect := by
  unfold passUp; split <;> simp
@[simp] theorem seqUp_frame (s : State) :
    (seqUp s).pending = s.pending ∧ (seqUp s).free = s.free ∧ (seqUp s).id = s.id ∧ (seqUp s).modes = s.modes ∧
    (seqUp s).regs = s.regs ∧ (seqUp s).chain = s.chain ∧ (seqUp s).pkt = s.pkt ∧ (seqUp s).out = s.out ∧ (seqUp
    s).sense = s.sense ∧ (seqUp s).loop = s.loop ∧ (seqUp s).gnss = s.gnss ∧ (seqUp s).canA = s.canA ∧ (seqUp
    s).canB = s.canB ∧ (seqUp s).svc = s.svc ∧ (seqUp s).pwr = s.pwr ∧ (seqUp s).sec = s.sec ∧ (seqUp s).fw = s.fw ∧
    (seqUp s).ev = s.ev ∧ (seqUp s).sect = s.sect := by
  simp [seqUp]
/-- A value that the arrival of a cell and the cell's own effect leave is left by the cell. -/
theorem onDown_keep {α : Type} (f : State → α) (c : Cell) (act : State → State) (s : State)
    (hp : f (passDown s) = f s) (hq : ∀ n u, f (seqDown n u) = f u) (h : ∀ u, f (act u) = f u) :
    f (onDown c act s) = f s := by
  unfold onDown; split
  · rfl
  · split_ifs <;> simp only [h, hq, hp]
/-- A value that the arrival of a message and the message's own effect leave is left by the message. -/
theorem onUp_keep {α : Type} (f : State → α) (c : Cell) (act : State → State) (s : State)
    (hs : ∀ u, f (seqUp u) = f u) (hc : ∀ u, f (checkDrops u) = f u) (h : ∀ u, f (act u) = f u) :
    f (onUp c act s) = f s := by
  have hf : ∀ l : List Nat, f (l.foldl (fun s _ => seqUp s) s) = f s := fun l =>
    foldl_keep f _ (fun u _ => hs u) l s
  unfold onUp; split
  · rfl
  · dsimp only; split_ifs <;> simp only [h, hc, hf]
@[simp] theorem sendSafe_frame (causes : BitVec 16) (s : State) :
    (sendSafe causes s).pending = s.pending ∧ (sendSafe causes s).free = s.free ∧ (sendSafe causes s).id = s.id ∧
    (sendSafe causes s).modes = s.modes ∧ (sendSafe causes s).regs = s.regs ∧ (sendSafe causes s).clk = s.clk ∧
    (sendSafe causes s).chain = s.chain ∧ (sendSafe causes s).pkt = s.pkt ∧ (sendSafe causes s).out = s.out ∧
    (sendSafe causes s).sense = s.sense ∧ (sendSafe causes s).loop = s.loop ∧ (sendSafe causes s).gnss = s.gnss ∧
    (sendSafe causes s).canA = s.canA ∧ (sendSafe causes s).canB = s.canB ∧ (sendSafe causes s).svc = s.svc ∧
    (sendSafe causes s).pwr = s.pwr ∧ (sendSafe causes s).sec = s.sec ∧ (sendSafe causes s).fw = s.fw ∧ (sendSafe
    causes s).ev = s.ev ∧ (sendSafe causes s).sect = s.sect := by simp [sendSafe]
@[simp] theorem asApplied_frame (r : AsRec) (s : State) :
    (asApplied r s).pending = s.pending ∧ (asApplied r s).free = s.free ∧ (asApplied r s).id = s.id ∧ (asApplied r
    s).modes = s.modes ∧ (asApplied r s).regs = s.regs ∧ (asApplied r s).clk = s.clk ∧ (asApplied r s).barr = s.barr
    ∧ (asApplied r s).chain = s.chain ∧ (asApplied r s).pkt = s.pkt ∧ (asApplied r s).out = s.out ∧ (asApplied r
    s).sense = s.sense ∧ (asApplied r s).loop = s.loop ∧ (asApplied r s).gnss = s.gnss ∧ (asApplied r s).canA =
    s.canA ∧ (asApplied r s).canB = s.canB ∧ (asApplied r s).svc = s.svc ∧ (asApplied r s).pwr = s.pwr ∧ (asApplied
    r s).sec = s.sec ∧ (asApplied r s).ev = s.ev ∧ (asApplied r s).sect = s.sect := by simp [asApplied]
@[simp] theorem noteLatch_frame (n : Fin 32) (s : State) :
    (noteLatch n s).pending = s.pending ∧ (noteLatch n s).free = s.free ∧ (noteLatch n s).id = s.id ∧ (noteLatch n
    s).modes = s.modes ∧ (noteLatch n s).regs = s.regs ∧ (noteLatch n s).clk = s.clk ∧ (noteLatch n s).chain =
    s.chain ∧ (noteLatch n s).pkt = s.pkt ∧ (noteLatch n s).out = s.out ∧ (noteLatch n s).sense = s.sense ∧
    (noteLatch n s).loop = s.loop ∧ (noteLatch n s).gnss = s.gnss ∧ (noteLatch n s).canA = s.canA ∧ (noteLatch n
    s).canB = s.canB ∧ (noteLatch n s).svc = s.svc ∧ (noteLatch n s).pwr = s.pwr ∧ (noteLatch n s).sec = s.sec ∧
    (noteLatch n s).fw = s.fw ∧ (noteLatch n s).sect = s.sect := by simp [noteLatch]
@[simp] theorem schedFail_frame (q : Request) (status : Byte) (s : State) :
    (schedFail q status s).pending = s.pending ∧ (schedFail q status s).free = s.free ∧ (schedFail q status s).id =
    s.id ∧ (schedFail q status s).modes = s.modes ∧ (schedFail q status s).regs = s.regs ∧ (schedFail q status
    s).clk = s.clk ∧ (schedFail q status s).chain = s.chain ∧ (schedFail q status s).pkt = s.pkt ∧ (schedFail q
    status s).out = s.out ∧ (schedFail q status s).sense = s.sense ∧ (schedFail q status s).loop = s.loop ∧
    (schedFail q status s).gnss = s.gnss ∧ (schedFail q status s).canA = s.canA ∧ (schedFail q status s).canB =
    s.canB ∧ (schedFail q status s).svc = s.svc ∧ (schedFail q status s).pwr = s.pwr ∧ (schedFail q status s).sec =
    s.sec ∧ (schedFail q status s).fw = s.fw ∧ (schedFail q status s).sect = s.sect := by simp [schedFail]
@[simp] theorem discardSched_frame (p : SchedCmd → Bool) (s : State) :
    (discardSched p s).pending = s.pending ∧ (discardSched p s).free = s.free ∧ (discardSched p s).id = s.id ∧
    (discardSched p s).modes = s.modes ∧ (discardSched p s).regs = s.regs ∧ (discardSched p s).clk = s.clk ∧
    (discardSched p s).chain = s.chain ∧ (discardSched p s).out = s.out ∧ (discardSched p s).sense = s.sense ∧
    (discardSched p s).loop = s.loop ∧ (discardSched p s).gnss = s.gnss ∧ (discardSched p s).canA = s.canA ∧
    (discardSched p s).canB = s.canB ∧ (discardSched p s).svc = s.svc ∧ (discardSched p s).pwr = s.pwr ∧
    (discardSched p s).sec = s.sec ∧ (discardSched p s).fw = s.fw ∧ (discardSched p s).sect = s.sect := by simp [discardSched]
@[simp] theorem abortSweep_frame (v : Byte) (s : State) :
    (abortSweep v s).pending = s.pending ∧ (abortSweep v s).free = s.free ∧ (abortSweep v s).id = s.id ∧ (abortSweep
    v s).modes = s.modes ∧ (abortSweep v s).regs = s.regs ∧ (abortSweep v s).clk = s.clk ∧ (abortSweep v s).chain =
    s.chain ∧ (abortSweep v s).pkt = s.pkt ∧ (abortSweep v s).sense = s.sense ∧ (abortSweep v s).loop = s.loop ∧
    (abortSweep v s).gnss = s.gnss ∧ (abortSweep v s).canA = s.canA ∧ (abortSweep v s).canB = s.canB ∧ (abortSweep v
    s).svc = s.svc ∧ (abortSweep v s).pwr = s.pwr ∧ (abortSweep v s).sec = s.sec ∧ (abortSweep v s).fw = s.fw ∧
    (abortSweep v s).sect = s.sect := by
  unfold abortSweep; (repeat' split) <;> simp
@[simp] theorem settleTest_frame (s : State) :
    (settleTest s).pending = s.pending ∧ (settleTest s).free = s.free ∧ (settleTest s).id = s.id ∧ (settleTest
    s).modes = s.modes ∧ (settleTest s).regs = s.regs ∧ (settleTest s).clk = s.clk ∧ (settleTest s).barr = s.barr ∧
    (settleTest s).chain = s.chain ∧ (settleTest s).pkt = s.pkt ∧ (settleTest s).out = s.out ∧ (settleTest s).sense
    = s.sense ∧ (settleTest s).gnss = s.gnss ∧ (settleTest s).canA = s.canA ∧ (settleTest s).canB = s.canB ∧
    (settleTest s).svc = s.svc ∧ (settleTest s).pwr = s.pwr ∧ (settleTest s).sec = s.sec ∧ (settleTest s).fw = s.fw
    ∧ (settleTest s).ev = s.ev ∧ (settleTest s).sect = s.sect := by simp [settleTest]
@[simp] theorem warnSwaps_frame (s : State) :
    (warnSwaps s).pending = s.pending ∧ (warnSwaps s).free = s.free ∧ (warnSwaps s).id = s.id ∧ (warnSwaps s).modes
    = s.modes ∧ (warnSwaps s).regs = s.regs ∧ (warnSwaps s).clk = s.clk ∧ (warnSwaps s).chain = s.chain ∧ (warnSwaps
    s).pkt = s.pkt ∧ (warnSwaps s).out = s.out ∧ (warnSwaps s).sense = s.sense ∧ (warnSwaps s).loop = s.loop ∧
    (warnSwaps s).gnss = s.gnss ∧ (warnSwaps s).canA = s.canA ∧ (warnSwaps s).canB = s.canB ∧ (warnSwaps s).svc =
    s.svc ∧ (warnSwaps s).pwr = s.pwr ∧ (warnSwaps s).sec = s.sec ∧ (warnSwaps s).fw = s.fw ∧ (warnSwaps s).sect =
    s.sect := by
  unfold warnSwaps; exact ⟨foldl_pending _ (fun s i => by split <;> simp) _ _, foldl_free _ (fun s i => by split <;> simp) _ _, foldl_id
    _ (fun s i => by split <;> simp) _ _, foldl_modes _ (fun s i => by split <;> simp) _ _, foldl_regs _ (fun s i
    => by split <;> simp) _ _, foldl_clk _ (fun s i => by split <;> simp) _ _, foldl_chain _ (fun s i => by split
    <;> simp) _ _, foldl_pkt _ (fun s i => by split <;> simp) _ _, foldl_out _ (fun s i => by split <;> simp) _ _,
    foldl_sense _ (fun s i => by split <;> simp) _ _, foldl_loop _ (fun s i => by split <;> simp) _ _, foldl_gnss
    _ (fun s i => by split <;> simp) _ _, foldl_canA _ (fun s i => by split <;> simp) _ _, foldl_canB _ (fun s i
    => by split <;> simp) _ _, foldl_svc _ (fun s i => by split <;> simp) _ _, foldl_pwr _ (fun s i => by split
    <;> simp) _ _, foldl_sec _ (fun s i => by split <;> simp) _ _, foldl_fw _ (fun s i => by split <;> simp) _ _,
    foldl_sect _ (fun s i => by split <;> simp) _ _⟩
@[simp] theorem applyAtClay_frame (s : State) :
    (applyAtClay s).pending = s.pending ∧ (applyAtClay s).free = s.free ∧ (applyAtClay s).id = s.id ∧ (applyAtClay
    s).modes = s.modes ∧ (applyAtClay s).regs = s.regs ∧ (applyAtClay s).clk = s.clk ∧ (applyAtClay s).barr = s.barr
    ∧ (applyAtClay s).chain = s.chain ∧ (applyAtClay s).pkt = s.pkt ∧ (applyAtClay s).out = s.out ∧ (applyAtClay
    s).sense = s.sense ∧ (applyAtClay s).loop = s.loop ∧ (applyAtClay s).gnss = s.gnss ∧ (applyAtClay s).canA =
    s.canA ∧ (applyAtClay s).canB = s.canB ∧ (applyAtClay s).svc = s.svc ∧ (applyAtClay s).pwr = s.pwr ∧
    (applyAtClay s).sec = s.sec ∧ (applyAtClay s).ev = s.ev := by simp [applyAtClay]
@[simp] theorem cutHanded_frame (s : State) :
    (cutHanded s).pending = s.pending ∧ (cutHanded s).free = s.free ∧ (cutHanded s).id = s.id ∧ (cutHanded s).modes
    = s.modes ∧ (cutHanded s).regs = s.regs ∧ (cutHanded s).clk = s.clk ∧ (cutHanded s).barr = s.barr ∧ (cutHanded
    s).chain = s.chain ∧ (cutHanded s).pkt = s.pkt ∧ (cutHanded s).out = s.out ∧ (cutHanded s).sense = s.sense ∧
    (cutHanded s).loop = s.loop ∧ (cutHanded s).gnss = s.gnss ∧ (cutHanded s).canA = s.canA ∧ (cutHanded s).canB =
    s.canB ∧ (cutHanded s).svc = s.svc ∧ (cutHanded s).pwr = s.pwr ∧ (cutHanded s).sec = s.sec ∧ (cutHanded s).ev =
    s.ev := by simp [cutHanded]
@[simp] theorem syncFreeze_frame (s : State) :
    (syncFreeze s).pending = s.pending ∧ (syncFreeze s).free = s.free ∧ (syncFreeze s).id = s.id ∧ (syncFreeze
    s).modes = s.modes ∧ (syncFreeze s).regs = s.regs ∧ (syncFreeze s).clk = s.clk ∧ (syncFreeze s).barr = s.barr ∧
    (syncFreeze s).chain = s.chain ∧ (syncFreeze s).pkt = s.pkt ∧ (syncFreeze s).out = s.out ∧ (syncFreeze s).sense
    = s.sense ∧ (syncFreeze s).gnss = s.gnss ∧ (syncFreeze s).canA = s.canA ∧ (syncFreeze s).canB = s.canB ∧
    (syncFreeze s).svc = s.svc ∧ (syncFreeze s).pwr = s.pwr ∧ (syncFreeze s).sec = s.sec ∧ (syncFreeze s).fw = s.fw
    ∧ (syncFreeze s).ev = s.ev ∧ (syncFreeze s).sect = s.sect := by simp [syncFreeze]
@[simp] theorem clayHardware_frame (s : State) :
    (clayHardware s).pending = s.pending ∧ (clayHardware s).free = s.free ∧ (clayHardware s).id = s.id ∧
    (clayHardware s).modes = s.modes ∧ (clayHardware s).regs = s.regs ∧ (clayHardware s).clk = s.clk ∧ (clayHardware
    s).chain = s.chain ∧ (clayHardware s).pkt = s.pkt ∧ (clayHardware s).gnss = s.gnss ∧ (clayHardware s).canA =
    s.canA ∧ (clayHardware s).canB = s.canB ∧ (clayHardware s).svc = s.svc ∧ (clayHardware s).pwr = s.pwr ∧
    (clayHardware s).sec = s.sec ∧ (clayHardware s).fw = s.fw ∧ (clayHardware s).ev = s.ev := by simp [clayHardware]
@[simp] theorem clayEntry_frame (s : State) :
    (clayEntry s).pending = s.pending ∧ (clayEntry s).free = s.free ∧ (clayEntry s).id = s.id ∧ (clayEntry s).modes
    = s.modes ∧ (clayEntry s).regs = s.regs ∧ (clayEntry s).clk = s.clk ∧ (clayEntry s).chain = s.chain ∧ (clayEntry
    s).gnss = s.gnss ∧ (clayEntry s).canA = s.canA ∧ (clayEntry s).canB = s.canB ∧ (clayEntry s).svc = s.svc ∧
    (clayEntry s).pwr = s.pwr ∧ (clayEntry s).sec = s.sec := by simp [clayEntry]
@[simp] theorem enterClay_frame (c : Fin 11) (s : State) :
    (enterClay c s).pending = s.pending ∧ (enterClay c s).free = s.free ∧ (enterClay c s).id = s.id ∧ (enterClay c
    s).regs = s.regs ∧ (enterClay c s).clk = s.clk ∧ (enterClay c s).chain = s.chain ∧ (enterClay c s).gnss = s.gnss
    ∧ (enterClay c s).canA = s.canA ∧ (enterClay c s).canB = s.canB ∧ (enterClay c s).svc = s.svc ∧ (enterClay c
    s).pwr = s.pwr ∧ (enterClay c s).sec = s.sec := by simp [enterClay]
@[simp] theorem liftCause_frame (c : Fin 11) (s : State) :
    (liftCause c s).pending = s.pending ∧ (liftCause c s).free = s.free ∧ (liftCause c s).id = s.id ∧ (liftCause c
    s).regs = s.regs ∧ (liftCause c s).clk = s.clk ∧ (liftCause c s).barr = s.barr ∧ (liftCause c s).chain = s.chain
    ∧ (liftCause c s).pkt = s.pkt ∧ (liftCause c s).out = s.out ∧ (liftCause c s).sense = s.sense ∧ (liftCause c
    s).loop = s.loop ∧ (liftCause c s).gnss = s.gnss ∧ (liftCause c s).canA = s.canA ∧ (liftCause c s).canB = s.canB
    ∧ (liftCause c s).svc = s.svc ∧ (liftCause c s).pwr = s.pwr ∧ (liftCause c s).sec = s.sec ∧ (liftCause c s).fw =
    s.fw ∧ (liftCause c s).ev = s.ev ∧ (liftCause c s).sect = s.sect := by simp [liftCause]
@[simp] theorem hostClay_frame (c : Fin 11) (s : State) :
    (hostClay c s).pending = s.pending ∧ (hostClay c s).free = s.free ∧ (hostClay c s).id = s.id ∧ (hostClay c
    s).regs = s.regs ∧ (hostClay c s).clk = s.clk ∧ (hostClay c s).chain = s.chain ∧ (hostClay c s).gnss = s.gnss ∧
    (hostClay c s).canA = s.canA ∧ (hostClay c s).canB = s.canB ∧ (hostClay c s).svc = s.svc ∧ (hostClay c s).pwr =
    s.pwr ∧ (hostClay c s).sec = s.sec := by simp [hostClay]
@[simp] theorem enterSilt_frame (why : BitVec 4) (s : State) :
    (enterSilt why s).pending = s.pending ∧ (enterSilt why s).free = s.free ∧ (enterSilt why s).id = s.id ∧
    (enterSilt why s).regs = s.regs ∧ (enterSilt why s).clk = s.clk ∧ (enterSilt why s).chain = s.chain ∧ (enterSilt
    why s).gnss = s.gnss ∧ (enterSilt why s).canA = s.canA ∧ (enterSilt why s).canB = s.canB ∧ (enterSilt why s).svc
    = s.svc ∧ (enterSilt why s).pwr = s.pwr ∧ (enterSilt why s).sec = s.sec := by simp [enterSilt]
@[simp] theorem enterLoam_frame (s : State) :
    (enterLoam s).pending = s.pending ∧ (enterLoam s).free = s.free ∧ (enterLoam s).id = s.id ∧ (enterLoam s).regs =
    s.regs ∧ (enterLoam s).clk = s.clk ∧ (enterLoam s).barr = s.barr ∧ (enterLoam s).chain = s.chain ∧ (enterLoam
    s).pkt = s.pkt ∧ (enterLoam s).out = s.out ∧ (enterLoam s).sense = s.sense ∧ (enterLoam s).loop = s.loop ∧
    (enterLoam s).gnss = s.gnss ∧ (enterLoam s).canA = s.canA ∧ (enterLoam s).canB = s.canB ∧ (enterLoam s).svc =
    s.svc ∧ (enterLoam s).pwr = s.pwr ∧ (enterLoam s).sec = s.sec ∧ (enterLoam s).fw = s.fw ∧ (enterLoam s).ev =
    s.ev ∧ (enterLoam s).sect = s.sect := by simp [enterLoam]
@[simp] theorem raise_frame (side : Side) (code : BitVec 16) (sev : BitVec 2) (chan : Byte) (data : List Byte) (s : State) :
    (raise side code sev chan data s).pending = s.pending ∧ (raise side code sev chan data s).free = s.free ∧ (raise
    side code sev chan data s).id = s.id ∧ (raise side code sev chan data s).regs = s.regs ∧ (raise side code sev
    chan data s).chain = s.chain ∧ (raise side code sev chan data s).gnss = s.gnss ∧ (raise side code sev chan data
    s).canA = s.canA ∧ (raise side code sev chan data s).canB = s.canB ∧ (raise side code sev chan data s).svc =
    s.svc ∧ (raise side code sev chan data s).pwr = s.pwr ∧ (raise side code sev chan data s).sec = s.sec := by
  unfold raise; (repeat' split) <;> simp
@[simp] theorem settleCritical_frame (s : State) :
    (settleCritical s).pending = s.pending ∧ (settleCritical s).free = s.free ∧ (settleCritical s).id = s.id ∧
    (settleCritical s).regs = s.regs ∧ (settleCritical s).clk = s.clk ∧ (settleCritical s).barr = s.barr ∧
    (settleCritical s).chain = s.chain ∧ (settleCritical s).pkt = s.pkt ∧ (settleCritical s).out = s.out ∧
    (settleCritical s).sense = s.sense ∧ (settleCritical s).loop = s.loop ∧ (settleCritical s).gnss = s.gnss ∧
    (settleCritical s).canA = s.canA ∧ (settleCritical s).canB = s.canB ∧ (settleCritical s).svc = s.svc ∧
    (settleCritical s).pwr = s.pwr ∧ (settleCritical s).sec = s.sec ∧ (settleCritical s).fw = s.fw ∧ (settleCritical
    s).ev = s.ev ∧ (settleCritical s).sect = s.sect := by simp [settleCritical]
@[simp] theorem releaseClay_frame (s : State) :
    (releaseClay s).pending = s.pending ∧ (releaseClay s).free = s.free ∧ (releaseClay s).id = s.id ∧ (releaseClay
    s).regs = s.regs ∧ (releaseClay s).barr = s.barr ∧ (releaseClay s).chain = s.chain ∧ (releaseClay s).pkt = s.pkt
    ∧ (releaseClay s).out = s.out ∧ (releaseClay s).sense = s.sense ∧ (releaseClay s).gnss = s.gnss ∧ (releaseClay
    s).canA = s.canA ∧ (releaseClay s).canB = s.canB ∧ (releaseClay s).svc = s.svc ∧ (releaseClay s).pwr = s.pwr ∧
    (releaseClay s).sec = s.sec ∧ (releaseClay s).fw = s.fw ∧ (releaseClay s).ev = s.ev ∧ (releaseClay s).sect =
    s.sect := by simp [releaseClay]
@[simp] theorem draw_frame (s : State) :
    (draw s).pending = s.pending ∧ (draw s).id = s.id ∧ (draw s).modes = s.modes ∧ (draw s).regs = s.regs ∧ (draw
    s).clk = s.clk ∧ (draw s).barr = s.barr ∧ (draw s).chain = s.chain ∧ (draw s).pkt = s.pkt ∧ (draw s).out = s.out
    ∧ (draw s).sense = s.sense ∧ (draw s).loop = s.loop ∧ (draw s).gnss = s.gnss ∧ (draw s).canA = s.canA ∧ (draw
    s).canB = s.canB ∧ (draw s).svc = s.svc ∧ (draw s).pwr = s.pwr ∧ (draw s).sec = s.sec ∧ (draw s).fw = s.fw ∧
    (draw s).ev = s.ev ∧ (draw s).sect = s.sect := by simp [draw]
@[simp] theorem queueUp_frame (f : ChainFrame) (s : State) :
    (queueUp f s).pending = s.pending ∧ (queueUp f s).free = s.free ∧ (queueUp f s).id = s.id ∧ (queueUp f s).modes
    = s.modes ∧ (queueUp f s).regs = s.regs ∧ (queueUp f s).clk = s.clk ∧ (queueUp f s).barr = s.barr ∧ (queueUp f
    s).pkt = s.pkt ∧ (queueUp f s).out = s.out ∧ (queueUp f s).sense = s.sense ∧ (queueUp f s).loop = s.loop ∧
    (queueUp f s).gnss = s.gnss ∧ (queueUp f s).canA = s.canA ∧ (queueUp f s).canB = s.canB ∧ (queueUp f s).svc =
    s.svc ∧ (queueUp f s).pwr = s.pwr ∧ (queueUp f s).sec = s.sec ∧ (queueUp f s).fw = s.fw ∧ (queueUp f s).ev =
    s.ev ∧ (queueUp f s).sect = s.sect := by simp [queueUp]
@[simp] theorem outDown_frame (f : ChainFrame) (s : State) :
    (outDown f s).pending = s.pending ∧ (outDown f s).free = s.free ∧ (outDown f s).id = s.id ∧ (outDown f s).modes
    = s.modes ∧ (outDown f s).regs = s.regs ∧ (outDown f s).clk = s.clk ∧ (outDown f s).barr = s.barr ∧ (outDown f
    s).pkt = s.pkt ∧ (outDown f s).out = s.out ∧ (outDown f s).sense = s.sense ∧ (outDown f s).loop = s.loop ∧
    (outDown f s).gnss = s.gnss ∧ (outDown f s).canA = s.canA ∧ (outDown f s).canB = s.canB ∧ (outDown f s).svc =
    s.svc ∧ (outDown f s).pwr = s.pwr ∧ (outDown f s).sec = s.sec ∧ (outDown f s).fw = s.fw ∧ (outDown f s).ev =
    s.ev ∧ (outDown f s).sect = s.sect := by
  simp [outDown]
@[simp] theorem outUp_frame (f : ChainFrame) (s : State) :
    (outUp f s).pending = s.pending ∧ (outUp f s).free = s.free ∧ (outUp f s).id = s.id ∧ (outUp f s).modes =
    s.modes ∧ (outUp f s).regs = s.regs ∧ (outUp f s).clk = s.clk ∧ (outUp f s).barr = s.barr ∧ (outUp f s).pkt =
    s.pkt ∧ (outUp f s).out = s.out ∧ (outUp f s).sense = s.sense ∧ (outUp f s).loop = s.loop ∧ (outUp f s).gnss =
    s.gnss ∧ (outUp f s).canA = s.canA ∧ (outUp f s).canB = s.canB ∧ (outUp f s).svc = s.svc ∧ (outUp f s).pwr =
    s.pwr ∧ (outUp f s).sec = s.sec ∧ (outUp f s).fw = s.fw ∧ (outUp f s).ev = s.ev ∧ (outUp f s).sect = s.sect :=
    by
  simp [outUp]
@[simp] theorem sendDown_frame (f : ChainFrame) (s : State) :
    (sendDown f s).pending = s.pending ∧ (sendDown f s).free = s.free ∧ (sendDown f s).id = s.id ∧ (sendDown f
    s).modes = s.modes ∧ (sendDown f s).regs = s.regs ∧ (sendDown f s).clk = s.clk ∧ (sendDown f s).barr = s.barr ∧
    (sendDown f s).pkt = s.pkt ∧ (sendDown f s).out = s.out ∧ (sendDown f s).sense = s.sense ∧ (sendDown f s).loop =
    s.loop ∧ (sendDown f s).gnss = s.gnss ∧ (sendDown f s).canA = s.canA ∧ (sendDown f s).canB = s.canB ∧ (sendDown
    f s).svc = s.svc ∧ (sendDown f s).pwr = s.pwr ∧ (sendDown f s).sec = s.sec ∧ (sendDown f s).fw = s.fw ∧
    (sendDown f s).ev = s.ev ∧ (sendDown f s).sect = s.sect := by simp [sendDown]
@[simp] theorem sendUp_frame (f : ChainFrame) (s : State) :
    (sendUp f s).pending = s.pending ∧ (sendUp f s).free = s.free ∧ (sendUp f s).id = s.id ∧ (sendUp f s).modes =
    s.modes ∧ (sendUp f s).regs = s.regs ∧ (sendUp f s).clk = s.clk ∧ (sendUp f s).barr = s.barr ∧ (sendUp f s).pkt
    = s.pkt ∧ (sendUp f s).out = s.out ∧ (sendUp f s).sense = s.sense ∧ (sendUp f s).loop = s.loop ∧ (sendUp f
    s).gnss = s.gnss ∧ (sendUp f s).canA = s.canA ∧ (sendUp f s).canB = s.canB ∧ (sendUp f s).svc = s.svc ∧ (sendUp
    f s).pwr = s.pwr ∧ (sendUp f s).sec = s.sec ∧ (sendUp f s).fw = s.fw ∧ (sendUp f s).ev = s.ev ∧ (sendUp f
    s).sect = s.sect := by simp [sendUp]
@[simp] theorem loadReply_frame (p : Packet) (s : State) :
    (loadReply p s).pending = s.pending ∧ (loadReply p s).free = s.free ∧ (loadReply p s).id = s.id ∧ (loadReply p
    s).modes = s.modes ∧ (loadReply p s).regs = s.regs ∧ (loadReply p s).clk = s.clk ∧ (loadReply p s).barr = s.barr
    ∧ (loadReply p s).chain = s.chain ∧ (loadReply p s).pkt = s.pkt ∧ (loadReply p s).out = s.out ∧ (loadReply p
    s).sense = s.sense ∧ (loadReply p s).loop = s.loop ∧ (loadReply p s).gnss = s.gnss ∧ (loadReply p s).canA =
    s.canA ∧ (loadReply p s).canB = s.canB ∧ (loadReply p s).pwr = s.pwr ∧ (loadReply p s).sec = s.sec ∧ (loadReply
    p s).fw = s.fw ∧ (loadReply p s).ev = s.ev ∧ (loadReply p s).sect = s.sect := by simp [loadReply]
@[simp] theorem mailReply_frame (p : Packet) (s : State) :
    (mailReply p s).pending = s.pending ∧ (mailReply p s).free = s.free ∧ (mailReply p s).id = s.id ∧ (mailReply p
    s).modes = s.modes ∧ (mailReply p s).regs = s.regs ∧ (mailReply p s).clk = s.clk ∧ (mailReply p s).barr = s.barr
    ∧ (mailReply p s).chain = s.chain ∧ (mailReply p s).out = s.out ∧ (mailReply p s).sense = s.sense ∧ (mailReply p
    s).loop = s.loop ∧ (mailReply p s).gnss = s.gnss ∧ (mailReply p s).canA = s.canA ∧ (mailReply p s).canB = s.canB
    ∧ (mailReply p s).pwr = s.pwr ∧ (mailReply p s).sec = s.sec ∧ (mailReply p s).fw = s.fw ∧ (mailReply p s).ev =
    s.ev ∧ (mailReply p s).sect = s.sect := by simp [mailReply]
@[simp] theorem mailNoReply_frame (s : State) :
    (mailNoReply s).pending = s.pending ∧ (mailNoReply s).free = s.free ∧ (mailNoReply s).id = s.id ∧ (mailNoReply
    s).modes = s.modes ∧ (mailNoReply s).regs = s.regs ∧ (mailNoReply s).clk = s.clk ∧ (mailNoReply s).barr = s.barr
    ∧ (mailNoReply s).chain = s.chain ∧ (mailNoReply s).pkt = s.pkt ∧ (mailNoReply s).out = s.out ∧ (mailNoReply
    s).sense = s.sense ∧ (mailNoReply s).loop = s.loop ∧ (mailNoReply s).gnss = s.gnss ∧ (mailNoReply s).canA =
    s.canA ∧ (mailNoReply s).canB = s.canB ∧ (mailNoReply s).pwr = s.pwr ∧ (mailNoReply s).sec = s.sec ∧
    (mailNoReply s).fw = s.fw ∧ (mailNoReply s).ev = s.ev ∧ (mailNoReply s).sect = s.sect := by simp [mailNoReply]
@[simp] theorem routeReply_frame (via : Via) (p : Packet) (s : State) :
    (routeReply via p s).pending = s.pending ∧ (routeReply via p s).free = s.free ∧ (routeReply via p s).id = s.id ∧
    (routeReply via p s).modes = s.modes ∧ (routeReply via p s).regs = s.regs ∧ (routeReply via p s).clk = s.clk ∧
    (routeReply via p s).barr = s.barr ∧ (routeReply via p s).out = s.out ∧ (routeReply via p s).sense = s.sense ∧
    (routeReply via p s).loop = s.loop ∧ (routeReply via p s).gnss = s.gnss ∧ (routeReply via p s).canA = s.canA ∧
    (routeReply via p s).canB = s.canB ∧ (routeReply via p s).pwr = s.pwr ∧ (routeReply via p s).sec = s.sec ∧
    (routeReply via p s).fw = s.fw ∧ (routeReply via p s).ev = s.ev ∧ (routeReply via p s).sect = s.sect := by
  unfold routeReply; split <;> simp
@[simp] theorem sendPackets_frame (q : Request) (s : State) :
    (sendPackets q s).pending = s.pending ∧ (sendPackets q s).free = s.free ∧ (sendPackets q s).id = s.id ∧
    (sendPackets q s).modes = s.modes ∧ (sendPackets q s).regs = s.regs ∧ (sendPackets q s).clk = s.clk ∧
    (sendPackets q s).barr = s.barr ∧ (sendPackets q s).pkt = s.pkt ∧ (sendPackets q s).out = s.out ∧ (sendPackets q
    s).sense = s.sense ∧ (sendPackets q s).loop = s.loop ∧ (sendPackets q s).gnss = s.gnss ∧ (sendPackets q s).canA
    = s.canA ∧ (sendPackets q s).canB = s.canB ∧ (sendPackets q s).svc = s.svc ∧ (sendPackets q s).pwr = s.pwr ∧
    (sendPackets q s).sec = s.sec ∧ (sendPackets q s).fw = s.fw ∧ (sendPackets q s).ev = s.ev ∧ (sendPackets q
    s).sect = s.sect := by
  simp [sendPackets]
@[simp] theorem forwardPackets_frame (q : Request) (s : State) :
    (forwardPackets q s).pending = s.pending ∧ (forwardPackets q s).free = s.free ∧ (forwardPackets q s).id = s.id ∧
    (forwardPackets q s).modes = s.modes ∧ (forwardPackets q s).regs = s.regs ∧ (forwardPackets q s).clk = s.clk ∧
    (forwardPackets q s).barr = s.barr ∧ (forwardPackets q s).pkt = s.pkt ∧ (forwardPackets q s).out = s.out ∧
    (forwardPackets q s).sense = s.sense ∧ (forwardPackets q s).loop = s.loop ∧ (forwardPackets q s).gnss = s.gnss ∧
    (forwardPackets q s).canA = s.canA ∧ (forwardPackets q s).canB = s.canB ∧ (forwardPackets q s).svc = s.svc ∧
    (forwardPackets q s).pwr = s.pwr ∧ (forwardPackets q s).sec = s.sec ∧ (forwardPackets q s).fw = s.fw ∧
    (forwardPackets q s).ev = s.ev ∧ (forwardPackets q s).sect = s.sect := by
  simp [forwardPackets]
@[simp] theorem closeWindow_frame (q : Request) (s : State) :
    (closeWindow q s).pending = s.pending ∧ (closeWindow q s).free = s.free ∧ (closeWindow q s).id = s.id ∧
    (closeWindow q s).modes = s.modes ∧ (closeWindow q s).regs = s.regs ∧ (closeWindow q s).barr = s.barr ∧
    (closeWindow q s).chain = s.chain ∧ (closeWindow q s).pkt = s.pkt ∧ (closeWindow q s).out = s.out ∧ (closeWindow
    q s).sense = s.sense ∧ (closeWindow q s).loop = s.loop ∧ (closeWindow q s).gnss = s.gnss ∧ (closeWindow q
    s).canA = s.canA ∧ (closeWindow q s).canB = s.canB ∧ (closeWindow q s).svc = s.svc ∧ (closeWindow q s).pwr =
    s.pwr ∧ (closeWindow q s).sec = s.sec ∧ (closeWindow q s).fw = s.fw ∧ (closeWindow q s).ev = s.ev ∧ (closeWindow
    q s).sect = s.sect := by
  simp [closeWindow]
@[simp] theorem owe_frame (q : Request) (s : State) :
    (owe q s).pending = s.pending ∧ (owe q s).free = s.free ∧ (owe q s).id = s.id ∧ (owe q s).modes = s.modes ∧ (owe
    q s).regs = s.regs ∧ (owe q s).clk = s.clk ∧ (owe q s).barr = s.barr ∧ (owe q s).chain = s.chain ∧ (owe q s).out
    = s.out ∧ (owe q s).sense = s.sense ∧ (owe q s).loop = s.loop ∧ (owe q s).gnss = s.gnss ∧ (owe q s).canA =
    s.canA ∧ (owe q s).canB = s.canB ∧ (owe q s).svc = s.svc ∧ (owe q s).pwr = s.pwr ∧ (owe q s).sec = s.sec ∧ (owe
    q s).fw = s.fw ∧ (owe q s).ev = s.ev ∧ (owe q s).sect = s.sect := by
  simp [owe]
@[simp] theorem remember_frame (q : Request) (s : State) :
    (remember q s).pending = s.pending ∧ (remember q s).free = s.free ∧ (remember q s).id = s.id ∧ (remember q
    s).modes = s.modes ∧ (remember q s).regs = s.regs ∧ (remember q s).clk = s.clk ∧ (remember q s).barr = s.barr ∧
    (remember q s).chain = s.chain ∧ (remember q s).out = s.out ∧ (remember q s).sense = s.sense ∧ (remember q
    s).loop = s.loop ∧ (remember q s).gnss = s.gnss ∧ (remember q s).canA = s.canA ∧ (remember q s).canB = s.canB ∧
    (remember q s).svc = s.svc ∧ (remember q s).pwr = s.pwr ∧ (remember q s).sec = s.sec ∧ (remember q s).fw = s.fw
    ∧ (remember q s).ev = s.ev ∧ (remember q s).sect = s.sect := by simp [remember]
@[simp] theorem storeReply_frame (q : Request) (ps : List Packet) (s : State) :
    (storeReply q ps s).pending = s.pending ∧ (storeReply q ps s).free = s.free ∧ (storeReply q ps s).id = s.id ∧
    (storeReply q ps s).modes = s.modes ∧ (storeReply q ps s).regs = s.regs ∧ (storeReply q ps s).clk = s.clk ∧
    (storeReply q ps s).barr = s.barr ∧ (storeReply q ps s).chain = s.chain ∧ (storeReply q ps s).out = s.out ∧
    (storeReply q ps s).sense = s.sense ∧ (storeReply q ps s).loop = s.loop ∧ (storeReply q ps s).gnss = s.gnss ∧
    (storeReply q ps s).canA = s.canA ∧ (storeReply q ps s).canB = s.canB ∧ (storeReply q ps s).svc = s.svc ∧
    (storeReply q ps s).pwr = s.pwr ∧ (storeReply q ps s).sec = s.sec ∧ (storeReply q ps s).fw = s.fw ∧ (storeReply
    q ps s).ev = s.ev ∧ (storeReply q ps s).sect = s.sect := by simp [storeReply]
@[simp] theorem payOwed_frame (q : Request) (a : Ans) (s : State) :
    (payOwed q a s).pending = s.pending ∧ (payOwed q a s).free = s.free ∧ (payOwed q a s).id = s.id ∧ (payOwed q a
    s).modes = s.modes ∧ (payOwed q a s).regs = s.regs ∧ (payOwed q a s).clk = s.clk ∧ (payOwed q a s).barr = s.barr
    ∧ (payOwed q a s).out = s.out ∧ (payOwed q a s).sense = s.sense ∧ (payOwed q a s).loop = s.loop ∧ (payOwed q a
    s).gnss = s.gnss ∧ (payOwed q a s).canA = s.canA ∧ (payOwed q a s).canB = s.canB ∧ (payOwed q a s).svc = s.svc ∧
    (payOwed q a s).pwr = s.pwr ∧ (payOwed q a s).sec = s.sec ∧ (payOwed q a s).fw = s.fw ∧ (payOwed q a s).ev =
    s.ev ∧ (payOwed q a s).sect = s.sect := by
  simp [payOwed]
@[simp] theorem reply_frame (q : Request) (a : Ans) (s : State) :
    (reply q a s).pending = s.pending ∧ (reply q a s).free = s.free ∧ (reply q a s).id = s.id ∧ (reply q a s).modes
    = s.modes ∧ (reply q a s).regs = s.regs ∧ (reply q a s).clk = s.clk ∧ (reply q a s).barr = s.barr ∧ (reply q a
    s).out = s.out ∧ (reply q a s).sense = s.sense ∧ (reply q a s).loop = s.loop ∧ (reply q a s).gnss = s.gnss ∧
    (reply q a s).canA = s.canA ∧ (reply q a s).canB = s.canB ∧ (reply q a s).pwr = s.pwr ∧ (reply q a s).sec =
    s.sec ∧ (reply q a s).fw = s.fw ∧ (reply q a s).ev = s.ev ∧ (reply q a s).sect = s.sect := by simp [reply]
@[simp] theorem countAccepted_frame (via : Via) (s : State) :
    (countAccepted via s).pending = s.pending ∧ (countAccepted via s).free = s.free ∧ (countAccepted via s).id =
    s.id ∧ (countAccepted via s).modes = s.modes ∧ (countAccepted via s).regs = s.regs ∧ (countAccepted via s).clk =
    s.clk ∧ (countAccepted via s).barr = s.barr ∧ (countAccepted via s).chain = s.chain ∧ (countAccepted via s).out
    = s.out ∧ (countAccepted via s).sense = s.sense ∧ (countAccepted via s).loop = s.loop ∧ (countAccepted via
    s).gnss = s.gnss ∧ (countAccepted via s).canA = s.canA ∧ (countAccepted via s).canB = s.canB ∧ (countAccepted
    via s).svc = s.svc ∧ (countAccepted via s).pwr = s.pwr ∧ (countAccepted via s).sec = s.sec ∧ (countAccepted via
    s).fw = s.fw ∧ (countAccepted via s).ev = s.ev ∧ (countAccepted via s).sect = s.sect := by
  unfold countAccepted; split <;> simp
@[simp] theorem issue_frame (q : Request) (s : State) :
    (issue q s).pending = s.pending ∧ (issue q s).free = s.free ∧ (issue q s).id = s.id ∧ (issue q s).modes =
    s.modes ∧ (issue q s).regs = s.regs ∧ (issue q s).barr = s.barr ∧ (issue q s).pkt = s.pkt ∧ (issue q s).out =
    s.out ∧ (issue q s).sense = s.sense ∧ (issue q s).loop = s.loop ∧ (issue q s).gnss = s.gnss ∧ (issue q s).canA =
    s.canA ∧ (issue q s).canB = s.canB ∧ (issue q s).svc = s.svc ∧ (issue q s).pwr = s.pwr ∧ (issue q s).sec = s.sec
    ∧ (issue q s).fw = s.fw ∧ (issue q s).ev = s.ev ∧ (issue q s).sect = s.sect := by simp [issue]
@[simp] theorem forwardIn_frame (q : Request) (s : State) :
    (forwardIn q s).pending = s.pending ∧ (forwardIn q s).free = s.free ∧ (forwardIn q s).id = s.id ∧ (forwardIn q
    s).modes = s.modes ∧ (forwardIn q s).regs = s.regs ∧ (forwardIn q s).barr = s.barr ∧ (forwardIn q s).pkt = s.pkt
    ∧ (forwardIn q s).out = s.out ∧ (forwardIn q s).sense = s.sense ∧ (forwardIn q s).loop = s.loop ∧ (forwardIn q
    s).gnss = s.gnss ∧ (forwardIn q s).canA = s.canA ∧ (forwardIn q s).canB = s.canB ∧ (forwardIn q s).svc = s.svc ∧
    (forwardIn q s).pwr = s.pwr ∧ (forwardIn q s).sec = s.sec ∧ (forwardIn q s).fw = s.fw ∧ (forwardIn q s).ev =
    s.ev ∧ (forwardIn q s).sect = s.sect := by simp [forwardIn]
@[simp] theorem bookLink_frame (i c d : Nat) (s : State) :
    (bookLink i c d s).pending = s.pending ∧ (bookLink i c d s).free = s.free ∧ (bookLink i c d s).id = s.id ∧
    (bookLink i c d s).modes = s.modes ∧ (bookLink i c d s).regs = s.regs ∧ (bookLink i c d s).clk = s.clk ∧
    (bookLink i c d s).barr = s.barr ∧ (bookLink i c d s).chain = s.chain ∧ (bookLink i c d s).out = s.out ∧
    (bookLink i c d s).sense = s.sense ∧ (bookLink i c d s).loop = s.loop ∧ (bookLink i c d s).gnss = s.gnss ∧
    (bookLink i c d s).canA = s.canA ∧ (bookLink i c d s).canB = s.canB ∧ (bookLink i c d s).svc = s.svc ∧ (bookLink
    i c d s).pwr = s.pwr ∧ (bookLink i c d s).sec = s.sec ∧ (bookLink i c d s).fw = s.fw ∧ (bookLink i c d s).ev =
    s.ev ∧ (bookLink i c d s).sect = s.sect := by simp [bookLink]
@[simp] theorem chainArena_frame (q : Request) (s : State) :
    (chainArena q s).2.pending = s.pending ∧ (chainArena q s).2.free = s.free ∧ (chainArena q s).2.id = s.id ∧
    (chainArena q s).2.modes = s.modes ∧ (chainArena q s).2.regs = s.regs ∧ (chainArena q s).2.clk = s.clk ∧
    (chainArena q s).2.barr = s.barr ∧ (chainArena q s).2.chain = s.chain ∧ (chainArena q s).2.out = s.out ∧
    (chainArena q s).2.sense = s.sense ∧ (chainArena q s).2.loop = s.loop ∧ (chainArena q s).2.gnss = s.gnss ∧
    (chainArena q s).2.canA = s.canA ∧ (chainArena q s).2.canB = s.canB ∧ (chainArena q s).2.svc = s.svc ∧
    (chainArena q s).2.pwr = s.pwr ∧ (chainArena q s).2.sec = s.sec ∧ (chainArena q s).2.fw = s.fw ∧ (chainArena q
    s).2.ev = s.ev ∧ (chainArena q s).2.sect = s.sect := by
  unfold chainArena; dsimp only; (repeat' split) <;> simp
@[simp] theorem setCan_frame (p : CanPort) (c : Can) (s : State) :
    (setCan p c s).pending = s.pending ∧ (setCan p c s).free = s.free ∧ (setCan p c s).id = s.id ∧ (setCan p c
    s).modes = s.modes ∧ (setCan p c s).regs = s.regs ∧ (setCan p c s).clk = s.clk ∧ (setCan p c s).barr = s.barr ∧
    (setCan p c s).chain = s.chain ∧ (setCan p c s).pkt = s.pkt ∧ (setCan p c s).out = s.out ∧ (setCan p c s).sense
    = s.sense ∧ (setCan p c s).loop = s.loop ∧ (setCan p c s).gnss = s.gnss ∧ (setCan p c s).svc = s.svc ∧ (setCan p
    c s).pwr = s.pwr ∧ (setCan p c s).sec = s.sec ∧ (setCan p c s).fw = s.fw ∧ (setCan p c s).ev = s.ev ∧ (setCan p
    c s).sect = s.sect := by
  unfold setCan; split <;> simp
@[simp] theorem dropClaim_frame (s : State) :
    (dropClaim s).pending = s.pending ∧ (dropClaim s).free = s.free ∧ (dropClaim s).id = s.id ∧ (dropClaim s).modes
    = s.modes ∧ (dropClaim s).regs = s.regs ∧ (dropClaim s).clk = s.clk ∧ (dropClaim s).barr = s.barr ∧ (dropClaim
    s).chain = s.chain ∧ (dropClaim s).out = s.out ∧ (dropClaim s).sense = s.sense ∧ (dropClaim s).loop = s.loop ∧
    (dropClaim s).gnss = s.gnss ∧ (dropClaim s).canB = s.canB ∧ (dropClaim s).svc = s.svc ∧ (dropClaim s).pwr =
    s.pwr ∧ (dropClaim s).sec = s.sec ∧ (dropClaim s).fw = s.fw ∧ (dropClaim s).ev = s.ev ∧ (dropClaim s).sect =
    s.sect := by simp [dropClaim]

end Sys2Proof.Laws
end

