-- ==== Sys2Proof/Laws/FramesOutputs.lean ====
section
/-! SUPPORT. Frames of the outputs, the sense inputs and the loop engine.
One lemma for each operation, of the parts of the state that it leaves as they were. -/

namespace Sys2Proof.Laws

open Sys2Proof.Machine

@[simp] theorem setCh_frame (n : Fin 32) (f : Chan → Chan) (s : State) :
    (setCh n f s).pending = s.pending ∧ (setCh n f s).free = s.free ∧ (setCh n f s).id = s.id ∧ (setCh n f s).modes
    = s.modes ∧ (setCh n f s).regs = s.regs ∧ (setCh n f s).clk = s.clk ∧ (setCh n f s).barr = s.barr ∧ (setCh n f
    s).chain = s.chain ∧ (setCh n f s).pkt = s.pkt ∧ (setCh n f s).sense = s.sense ∧ (setCh n f s).loop = s.loop ∧
    (setCh n f s).gnss = s.gnss ∧ (setCh n f s).canA = s.canA ∧ (setCh n f s).canB = s.canB ∧ (setCh n f s).svc =
    s.svc ∧ (setCh n f s).pwr = s.pwr ∧ (setCh n f s).sec = s.sec ∧ (setCh n f s).fw = s.fw ∧ (setCh n f s).ev =
    s.ev ∧ (setCh n f s).sect = s.sect := by simp [setCh]
@[simp] theorem judge_frame (d : Fin 32) (s : State) :
    (judge d s).pending = s.pending ∧ (judge d s).free = s.free ∧ (judge d s).id = s.id ∧ (judge d s).modes =
    s.modes ∧ (judge d s).regs = s.regs ∧ (judge d s).clk = s.clk ∧ (judge d s).chain = s.chain ∧ (judge d s).pkt =
    s.pkt ∧ (judge d s).sense = s.sense ∧ (judge d s).loop = s.loop ∧ (judge d s).gnss = s.gnss ∧ (judge d s).canA =
    s.canA ∧ (judge d s).canB = s.canB ∧ (judge d s).svc = s.svc ∧ (judge d s).pwr = s.pwr ∧ (judge d s).sec = s.sec
    ∧ (judge d s).fw = s.fw ∧ (judge d s).sect = s.sect := by
  unfold judge; dsimp only; (repeat' split) <;> simp
@[simp] theorem leaveBudget_frame (d : Fin 32) (s : State) :
    (leaveBudget d s).pending = s.pending ∧ (leaveBudget d s).free = s.free ∧ (leaveBudget d s).id = s.id ∧
    (leaveBudget d s).modes = s.modes ∧ (leaveBudget d s).regs = s.regs ∧ (leaveBudget d s).clk = s.clk ∧
    (leaveBudget d s).barr = s.barr ∧ (leaveBudget d s).chain = s.chain ∧ (leaveBudget d s).pkt = s.pkt ∧
    (leaveBudget d s).sense = s.sense ∧ (leaveBudget d s).loop = s.loop ∧ (leaveBudget d s).gnss = s.gnss ∧
    (leaveBudget d s).canA = s.canA ∧ (leaveBudget d s).canB = s.canB ∧ (leaveBudget d s).svc = s.svc ∧ (leaveBudget
    d s).pwr = s.pwr ∧ (leaveBudget d s).sec = s.sec ∧ (leaveBudget d s).fw = s.fw ∧ (leaveBudget d s).ev = s.ev ∧
    (leaveBudget d s).sect = s.sect := by simp [leaveBudget]
@[simp] theorem rebudget_frame (c : Fin 32) (was : Bool) (s : State) :
    (rebudget c was s).pending = s.pending ∧ (rebudget c was s).free = s.free ∧ (rebudget c was s).id = s.id ∧
    (rebudget c was s).modes = s.modes ∧ (rebudget c was s).regs = s.regs ∧ (rebudget c was s).clk = s.clk ∧
    (rebudget c was s).chain = s.chain ∧ (rebudget c was s).pkt = s.pkt ∧ (rebudget c was s).sense = s.sense ∧
    (rebudget c was s).loop = s.loop ∧ (rebudget c was s).gnss = s.gnss ∧ (rebudget c was s).canA = s.canA ∧
    (rebudget c was s).canB = s.canB ∧ (rebudget c was s).svc = s.svc ∧ (rebudget c was s).pwr = s.pwr ∧ (rebudget c
    was s).sec = s.sec ∧ (rebudget c was s).fw = s.fw ∧ (rebudget c was s).sect = s.sect := by simp [rebudget]
@[simp] theorem noteTurn_frame (old : State) (d : Fin 32) (s : State) :
    (noteTurn old d s).pending = s.pending ∧ (noteTurn old d s).free = s.free ∧ (noteTurn old d s).id = s.id ∧
    (noteTurn old d s).modes = s.modes ∧ (noteTurn old d s).regs = s.regs ∧ (noteTurn old d s).clk = s.clk ∧
    (noteTurn old d s).barr = s.barr ∧ (noteTurn old d s).chain = s.chain ∧ (noteTurn old d s).pkt = s.pkt ∧
    (noteTurn old d s).sense = s.sense ∧ (noteTurn old d s).loop = s.loop ∧ (noteTurn old d s).gnss = s.gnss ∧
    (noteTurn old d s).canA = s.canA ∧ (noteTurn old d s).canB = s.canB ∧ (noteTurn old d s).svc = s.svc ∧ (noteTurn
    old d s).pwr = s.pwr ∧ (noteTurn old d s).sec = s.sec ∧ (noteTurn old d s).fw = s.fw ∧ (noteTurn old d s).ev =
    s.ev ∧ (noteTurn old d s).sect = s.sect := by
  simp [noteTurn]
@[simp] theorem trip_frame (d : Fin 32) (src : TripSrc) (s : State) :
    (trip d src s).pending = s.pending ∧ (trip d src s).free = s.free ∧ (trip d src s).id = s.id ∧ (trip d src
    s).modes = s.modes ∧ (trip d src s).regs = s.regs ∧ (trip d src s).clk = s.clk ∧ (trip d src s).chain = s.chain
    ∧ (trip d src s).pkt = s.pkt ∧ (trip d src s).sense = s.sense ∧ (trip d src s).loop = s.loop ∧ (trip d src
    s).gnss = s.gnss ∧ (trip d src s).canA = s.canA ∧ (trip d src s).canB = s.canB ∧ (trip d src s).svc = s.svc ∧
    (trip d src s).pwr = s.pwr ∧ (trip d src s).sec = s.sec ∧ (trip d src s).fw = s.fw ∧ (trip d src s).sect =
    s.sect := by simp [trip]
@[simp] theorem tripOff_frame (d : Fin 32) (src : TripSrc) (s : State) :
    (tripOff d src s).pending = s.pending ∧ (tripOff d src s).free = s.free ∧ (tripOff d src s).id = s.id ∧ (tripOff
    d src s).modes = s.modes ∧ (tripOff d src s).regs = s.regs ∧ (tripOff d src s).clk = s.clk ∧ (tripOff d src
    s).chain = s.chain ∧ (tripOff d src s).pkt = s.pkt ∧ (tripOff d src s).sense = s.sense ∧ (tripOff d src s).loop
    = s.loop ∧ (tripOff d src s).gnss = s.gnss ∧ (tripOff d src s).canA = s.canA ∧ (tripOff d src s).canB = s.canB ∧
    (tripOff d src s).svc = s.svc ∧ (tripOff d src s).pwr = s.pwr ∧ (tripOff d src s).sec = s.sec ∧ (tripOff d src
    s).fw = s.fw ∧ (tripOff d src s).sect = s.sect := by
  simp [tripOff]
@[simp] theorem openBlank_frame (d : Fin 32) (s : State) :
    (openBlank d s).pending = s.pending ∧ (openBlank d s).free = s.free ∧ (openBlank d s).id = s.id ∧ (openBlank d
    s).modes = s.modes ∧ (openBlank d s).regs = s.regs ∧ (openBlank d s).clk = s.clk ∧ (openBlank d s).barr = s.barr
    ∧ (openBlank d s).chain = s.chain ∧ (openBlank d s).pkt = s.pkt ∧ (openBlank d s).sense = s.sense ∧ (openBlank d
    s).loop = s.loop ∧ (openBlank d s).gnss = s.gnss ∧ (openBlank d s).canA = s.canA ∧ (openBlank d s).canB = s.canB
    ∧ (openBlank d s).svc = s.svc ∧ (openBlank d s).pwr = s.pwr ∧ (openBlank d s).sec = s.sec ∧ (openBlank d s).fw =
    s.fw ∧ (openBlank d s).ev = s.ev ∧ (openBlank d s).sect = s.sect := by
  simp [openBlank]
@[simp] theorem driverStart_frame (d : Fin 32) (s : State) :
    (driverStart d s).pending = s.pending ∧ (driverStart d s).free = s.free ∧ (driverStart d s).id = s.id ∧
    (driverStart d s).modes = s.modes ∧ (driverStart d s).regs = s.regs ∧ (driverStart d s).clk = s.clk ∧
    (driverStart d s).chain = s.chain ∧ (driverStart d s).pkt = s.pkt ∧ (driverStart d s).sense = s.sense ∧
    (driverStart d s).loop = s.loop ∧ (driverStart d s).gnss = s.gnss ∧ (driverStart d s).canA = s.canA ∧
    (driverStart d s).canB = s.canB ∧ (driverStart d s).svc = s.svc ∧ (driverStart d s).pwr = s.pwr ∧ (driverStart d
    s).sec = s.sec ∧ (driverStart d s).fw = s.fw ∧ (driverStart d s).sect = s.sect := by
  unfold driverStart; dsimp only; (repeat' split) <;> simp
@[simp] theorem edges_frame (old s : State) :
    (edges old s).pending = s.pending ∧ (edges old s).free = s.free ∧ (edges old s).id = s.id ∧ (edges old s).modes
    = s.modes ∧ (edges old s).regs = s.regs ∧ (edges old s).clk = s.clk ∧ (edges old s).chain = s.chain ∧ (edges old
    s).pkt = s.pkt ∧ (edges old s).sense = s.sense ∧ (edges old s).loop = s.loop ∧ (edges old s).gnss = s.gnss ∧
    (edges old s).canA = s.canA ∧ (edges old s).canB = s.canB ∧ (edges old s).svc = s.svc ∧ (edges old s).pwr =
    s.pwr ∧ (edges old s).sec = s.sec ∧ (edges old s).fw = s.fw ∧ (edges old s).sect = s.sect := by
  simp [edges]
@[simp] theorem resumed_frame (old s : State) :
    (resumed old s).pending = s.pending ∧ (resumed old s).free = s.free ∧ (resumed old s).id = s.id ∧ (resumed old
    s).modes = s.modes ∧ (resumed old s).regs = s.regs ∧ (resumed old s).clk = s.clk ∧ (resumed old s).chain =
    s.chain ∧ (resumed old s).pkt = s.pkt ∧ (resumed old s).sense = s.sense ∧ (resumed old s).loop = s.loop ∧
    (resumed old s).gnss = s.gnss ∧ (resumed old s).canA = s.canA ∧ (resumed old s).canB = s.canB ∧ (resumed old
    s).svc = s.svc ∧ (resumed old s).pwr = s.pwr ∧ (resumed old s).sec = s.sec ∧ (resumed old s).fw = s.fw ∧
    (resumed old s).sect = s.sect := by
  simp [resumed]
@[simp] theorem chopEdges_frame (old s : State) :
    (chopEdges old s).pending = s.pending ∧ (chopEdges old s).free = s.free ∧ (chopEdges old s).id = s.id ∧
    (chopEdges old s).modes = s.modes ∧ (chopEdges old s).regs = s.regs ∧ (chopEdges old s).clk = s.clk ∧ (chopEdges
    old s).barr = s.barr ∧ (chopEdges old s).chain = s.chain ∧ (chopEdges old s).pkt = s.pkt ∧ (chopEdges old
    s).sense = s.sense ∧ (chopEdges old s).loop = s.loop ∧ (chopEdges old s).gnss = s.gnss ∧ (chopEdges old s).canA
    = s.canA ∧ (chopEdges old s).canB = s.canB ∧ (chopEdges old s).svc = s.svc ∧ (chopEdges old s).pwr = s.pwr ∧
    (chopEdges old s).sec = s.sec ∧ (chopEdges old s).fw = s.fw ∧ (chopEdges old s).ev = s.ev ∧ (chopEdges old
    s).sect = s.sect := by
  simp [chopEdges]
@[simp] theorem startPeak_frame (n : Fin 32) (s : State) :
    (startPeak n s).pending = s.pending ∧ (startPeak n s).free = s.free ∧ (startPeak n s).id = s.id ∧ (startPeak n
    s).modes = s.modes ∧ (startPeak n s).regs = s.regs ∧ (startPeak n s).clk = s.clk ∧ (startPeak n s).barr = s.barr
    ∧ (startPeak n s).chain = s.chain ∧ (startPeak n s).pkt = s.pkt ∧ (startPeak n s).sense = s.sense ∧ (startPeak n
    s).loop = s.loop ∧ (startPeak n s).gnss = s.gnss ∧ (startPeak n s).canA = s.canA ∧ (startPeak n s).canB = s.canB
    ∧ (startPeak n s).svc = s.svc ∧ (startPeak n s).pwr = s.pwr ∧ (startPeak n s).sec = s.sec ∧ (startPeak n s).fw =
    s.fw ∧ (startPeak n s).ev = s.ev ∧ (startPeak n s).sect = s.sect := by simp [startPeak]
@[simp] theorem closePeriods_frame (n : Fin 32) (s : State) :
    (closePeriods n s).pending = s.pending ∧ (closePeriods n s).free = s.free ∧ (closePeriods n s).id = s.id ∧
    (closePeriods n s).modes = s.modes ∧ (closePeriods n s).regs = s.regs ∧ (closePeriods n s).clk = s.clk ∧
    (closePeriods n s).barr = s.barr ∧ (closePeriods n s).chain = s.chain ∧ (closePeriods n s).pkt = s.pkt ∧
    (closePeriods n s).sense = s.sense ∧ (closePeriods n s).loop = s.loop ∧ (closePeriods n s).gnss = s.gnss ∧
    (closePeriods n s).canA = s.canA ∧ (closePeriods n s).canB = s.canB ∧ (closePeriods n s).svc = s.svc ∧
    (closePeriods n s).pwr = s.pwr ∧ (closePeriods n s).sec = s.sec ∧ (closePeriods n s).fw = s.fw ∧ (closePeriods n
    s).ev = s.ev ∧ (closePeriods n s).sect = s.sect := by simp [closePeriods]
@[simp] theorem startPhase_frame (n : Fin 32) (t0 : Nat) (s : State) :
    (startPhase n t0 s).pending = s.pending ∧ (startPhase n t0 s).free = s.free ∧ (startPhase n t0 s).id = s.id ∧
    (startPhase n t0 s).modes = s.modes ∧ (startPhase n t0 s).regs = s.regs ∧ (startPhase n t0 s).clk = s.clk ∧
    (startPhase n t0 s).barr = s.barr ∧ (startPhase n t0 s).chain = s.chain ∧ (startPhase n t0 s).pkt = s.pkt ∧
    (startPhase n t0 s).sense = s.sense ∧ (startPhase n t0 s).loop = s.loop ∧ (startPhase n t0 s).gnss = s.gnss ∧
    (startPhase n t0 s).canA = s.canA ∧ (startPhase n t0 s).canB = s.canB ∧ (startPhase n t0 s).svc = s.svc ∧
    (startPhase n t0 s).pwr = s.pwr ∧ (startPhase n t0 s).sec = s.sec ∧ (startPhase n t0 s).fw = s.fw ∧ (startPhase
    n t0 s).ev = s.ev ∧ (startPhase n t0 s).sect = s.sect := by
  simp [startPhase]
@[simp] theorem loadPeriod_frame (t : BitVec 64) (fine : BitVec 5) (n : Fin 32) (s : State) :
    (loadPeriod t fine n s).pending = s.pending ∧ (loadPeriod t fine n s).free = s.free ∧ (loadPeriod t fine n s).id
    = s.id ∧ (loadPeriod t fine n s).modes = s.modes ∧ (loadPeriod t fine n s).regs = s.regs ∧ (loadPeriod t fine n
    s).clk = s.clk ∧ (loadPeriod t fine n s).barr = s.barr ∧ (loadPeriod t fine n s).chain = s.chain ∧ (loadPeriod t
    fine n s).pkt = s.pkt ∧ (loadPeriod t fine n s).sense = s.sense ∧ (loadPeriod t fine n s).loop = s.loop ∧
    (loadPeriod t fine n s).gnss = s.gnss ∧ (loadPeriod t fine n s).canA = s.canA ∧ (loadPeriod t fine n s).canB =
    s.canB ∧ (loadPeriod t fine n s).svc = s.svc ∧ (loadPeriod t fine n s).pwr = s.pwr ∧ (loadPeriod t fine n s).sec
    = s.sec ∧ (loadPeriod t fine n s).fw = s.fw ∧ (loadPeriod t fine n s).ev = s.ev ∧ (loadPeriod t fine n s).sect =
    s.sect := by
  simp [loadPeriod]
@[simp] theorem fanGate_frame (n : Fin 32) (on : Bool) (s : State) :
    (fanGate n on s).pending = s.pending ∧ (fanGate n on s).free = s.free ∧ (fanGate n on s).id = s.id ∧ (fanGate n
    on s).modes = s.modes ∧ (fanGate n on s).regs = s.regs ∧ (fanGate n on s).clk = s.clk ∧ (fanGate n on s).barr =
    s.barr ∧ (fanGate n on s).chain = s.chain ∧ (fanGate n on s).pkt = s.pkt ∧ (fanGate n on s).out = s.out ∧
    (fanGate n on s).loop = s.loop ∧ (fanGate n on s).gnss = s.gnss ∧ (fanGate n on s).canA = s.canA ∧ (fanGate n on
    s).canB = s.canB ∧ (fanGate n on s).svc = s.svc ∧ (fanGate n on s).pwr = s.pwr ∧ (fanGate n on s).sec = s.sec ∧
    (fanGate n on s).fw = s.fw ∧ (fanGate n on s).ev = s.ev ∧ (fanGate n on s).sect = s.sect := by simp [fanGate]
@[simp] theorem setGateAt_frame (fine : BitVec 5) (n : Fin 32) (on : Bool) (s0 : State) :
    (setGateAt fine n on s0).pending = s0.pending ∧ (setGateAt fine n on s0).free = s0.free ∧ (setGateAt fine n on
    s0).id = s0.id ∧ (setGateAt fine n on s0).modes = s0.modes ∧ (setGateAt fine n on s0).regs = s0.regs ∧
    (setGateAt fine n on s0).clk = s0.clk ∧ (setGateAt fine n on s0).chain = s0.chain ∧ (setGateAt fine n on s0).pkt
    = s0.pkt ∧ (setGateAt fine n on s0).loop = s0.loop ∧ (setGateAt fine n on s0).gnss = s0.gnss ∧ (setGateAt fine n
    on s0).canA = s0.canA ∧ (setGateAt fine n on s0).canB = s0.canB ∧ (setGateAt fine n on s0).svc = s0.svc ∧
    (setGateAt fine n on s0).pwr = s0.pwr ∧ (setGateAt fine n on s0).sec = s0.sec ∧ (setGateAt fine n on s0).fw =
    s0.fw ∧ (setGateAt fine n on s0).sect = s0.sect := by
  simp [setGateAt]
@[simp] theorem setGate_frame (n : Fin 32) (on : Bool) (s : State) :
    (setGate n on s).pending = s.pending ∧ (setGate n on s).free = s.free ∧ (setGate n on s).id = s.id ∧ (setGate n
    on s).modes = s.modes ∧ (setGate n on s).regs = s.regs ∧ (setGate n on s).clk = s.clk ∧ (setGate n on s).chain =
    s.chain ∧ (setGate n on s).pkt = s.pkt ∧ (setGate n on s).loop = s.loop ∧ (setGate n on s).gnss = s.gnss ∧
    (setGate n on s).canA = s.canA ∧ (setGate n on s).canB = s.canB ∧ (setGate n on s).svc = s.svc ∧ (setGate n on
    s).pwr = s.pwr ∧ (setGate n on s).sec = s.sec ∧ (setGate n on s).fw = s.fw ∧ (setGate n on s).sect = s.sect :=
    by
  simp [setGate]
@[simp] theorem setOverride_frame (n : Fin 32) (o : Override) (s : State) :
    (setOverride n o s).pending = s.pending ∧ (setOverride n o s).free = s.free ∧ (setOverride n o s).id = s.id ∧
    (setOverride n o s).modes = s.modes ∧ (setOverride n o s).regs = s.regs ∧ (setOverride n o s).clk = s.clk ∧
    (setOverride n o s).chain = s.chain ∧ (setOverride n o s).pkt = s.pkt ∧ (setOverride n o s).sense = s.sense ∧
    (setOverride n o s).loop = s.loop ∧ (setOverride n o s).gnss = s.gnss ∧ (setOverride n o s).canA = s.canA ∧
    (setOverride n o s).canB = s.canB ∧ (setOverride n o s).svc = s.svc ∧ (setOverride n o s).pwr = s.pwr ∧
    (setOverride n o s).sec = s.sec ∧ (setOverride n o s).fw = s.fw ∧ (setOverride n o s).sect = s.sect := by
  simp [setOverride]
@[simp] theorem loadTables_frame (s : State) :
    (loadTables s).pending = s.pending ∧ (loadTables s).free = s.free ∧ (loadTables s).id = s.id ∧ (loadTables
    s).modes = s.modes ∧ (loadTables s).regs = s.regs ∧ (loadTables s).clk = s.clk ∧ (loadTables s).barr = s.barr ∧
    (loadTables s).chain = s.chain ∧ (loadTables s).pkt = s.pkt ∧ (loadTables s).sense = s.sense ∧ (loadTables
    s).loop = s.loop ∧ (loadTables s).gnss = s.gnss ∧ (loadTables s).canA = s.canA ∧ (loadTables s).canB = s.canB ∧
    (loadTables s).svc = s.svc ∧ (loadTables s).pwr = s.pwr ∧ (loadTables s).sec = s.sec ∧ (loadTables s).fw = s.fw
    ∧ (loadTables s).ev = s.ev ∧ (loadTables s).sect = s.sect := by simp [loadTables]
@[simp] theorem storeEdge_frame (e0 : Edge) (s : State) :
    (storeEdge e0 s).1.pending = s.pending ∧ (storeEdge e0 s).1.free = s.free ∧ (storeEdge e0 s).1.id = s.id ∧
    (storeEdge e0 s).1.modes = s.modes ∧ (storeEdge e0 s).1.regs = s.regs ∧ (storeEdge e0 s).1.clk = s.clk ∧
    (storeEdge e0 s).1.barr = s.barr ∧ (storeEdge e0 s).1.chain = s.chain ∧ (storeEdge e0 s).1.pkt = s.pkt ∧
    (storeEdge e0 s).1.sense = s.sense ∧ (storeEdge e0 s).1.loop = s.loop ∧ (storeEdge e0 s).1.gnss = s.gnss ∧
    (storeEdge e0 s).1.canA = s.canA ∧ (storeEdge e0 s).1.canB = s.canB ∧ (storeEdge e0 s).1.svc = s.svc ∧
    (storeEdge e0 s).1.pwr = s.pwr ∧ (storeEdge e0 s).1.sec = s.sec ∧ (storeEdge e0 s).1.fw = s.fw ∧ (storeEdge e0
    s).1.ev = s.ev ∧ (storeEdge e0 s).1.sect = s.sect := by
  unfold storeEdge; dsimp only; (repeat' split) <;> simp
@[simp] theorem storeEdges_frame (es : List Edge) (s : State) :
    (storeEdges es s).1.pending = s.pending ∧ (storeEdges es s).1.free = s.free ∧ (storeEdges es s).1.id = s.id ∧
    (storeEdges es s).1.modes = s.modes ∧ (storeEdges es s).1.regs = s.regs ∧ (storeEdges es s).1.clk = s.clk ∧
    (storeEdges es s).1.barr = s.barr ∧ (storeEdges es s).1.chain = s.chain ∧ (storeEdges es s).1.pkt = s.pkt ∧
    (storeEdges es s).1.sense = s.sense ∧ (storeEdges es s).1.loop = s.loop ∧ (storeEdges es s).1.gnss = s.gnss ∧
    (storeEdges es s).1.canA = s.canA ∧ (storeEdges es s).1.canB = s.canB ∧ (storeEdges es s).1.svc = s.svc ∧
    (storeEdges es s).1.pwr = s.pwr ∧ (storeEdges es s).1.sec = s.sec ∧ (storeEdges es s).1.fw = s.fw ∧
    (storeEdges es s).1.ev = s.ev ∧ (storeEdges es s).1.sect = s.sect := by
  induction es generalizing s with
  | nil => simp [storeEdges]
  | cons e es ih => simp [storeEdges, ih]
@[simp] theorem sendBatch_frame (es : List Edge) (s : State) :
    (sendBatch es s).pending = s.pending ∧ (sendBatch es s).free = s.free ∧ (sendBatch es s).id = s.id ∧ (sendBatch
    es s).modes = s.modes ∧ (sendBatch es s).regs = s.regs ∧ (sendBatch es s).clk = s.clk ∧ (sendBatch es s).chain =
    s.chain ∧ (sendBatch es s).pkt = s.pkt ∧ (sendBatch es s).out = s.out ∧ (sendBatch es s).sense = s.sense ∧
    (sendBatch es s).loop = s.loop ∧ (sendBatch es s).gnss = s.gnss ∧ (sendBatch es s).canA = s.canA ∧ (sendBatch es
    s).canB = s.canB ∧ (sendBatch es s).svc = s.svc ∧ (sendBatch es s).pwr = s.pwr ∧ (sendBatch es s).sec = s.sec ∧
    (sendBatch es s).fw = s.fw ∧ (sendBatch es s).ev = s.ev ∧ (sendBatch es s).sect = s.sect := by simp [sendBatch]
@[simp] theorem recordActed_frame (p : Pred) (e : Edge) (f : Frame48) (tick : Nat) (late : Bool) (s : State) :
    (recordActed p e f tick late s).pending = s.pending ∧ (recordActed p e f tick late s).free = s.free ∧
    (recordActed p e f tick late s).id = s.id ∧ (recordActed p e f tick late s).modes = s.modes ∧ (recordActed p e f
    tick late s).regs = s.regs ∧ (recordActed p e f tick late s).clk = s.clk ∧ (recordActed p e f tick late s).barr
    = s.barr ∧ (recordActed p e f tick late s).chain = s.chain ∧ (recordActed p e f tick late s).pkt = s.pkt ∧
    (recordActed p e f tick late s).out = s.out ∧ (recordActed p e f tick late s).sense = s.sense ∧ (recordActed p e
    f tick late s).loop = s.loop ∧ (recordActed p e f tick late s).gnss = s.gnss ∧ (recordActed p e f tick late
    s).canA = s.canA ∧ (recordActed p e f tick late s).canB = s.canB ∧ (recordActed p e f tick late s).svc = s.svc ∧
    (recordActed p e f tick late s).pwr = s.pwr ∧ (recordActed p e f tick late s).sec = s.sec ∧ (recordActed p e f
    tick late s).ev = s.ev := by
  unfold recordActed; split <;> simp
@[simp] theorem recordEdge_frame (e : Edge) (s : State) :
    (recordEdge e s).pending = s.pending ∧ (recordEdge e s).free = s.free ∧ (recordEdge e s).id = s.id ∧ (recordEdge
    e s).modes = s.modes ∧ (recordEdge e s).regs = s.regs ∧ (recordEdge e s).clk = s.clk ∧ (recordEdge e s).barr =
    s.barr ∧ (recordEdge e s).chain = s.chain ∧ (recordEdge e s).pkt = s.pkt ∧ (recordEdge e s).out = s.out ∧
    (recordEdge e s).sense = s.sense ∧ (recordEdge e s).loop = s.loop ∧ (recordEdge e s).gnss = s.gnss ∧ (recordEdge
    e s).canA = s.canA ∧ (recordEdge e s).canB = s.canB ∧ (recordEdge e s).svc = s.svc ∧ (recordEdge e s).pwr =
    s.pwr ∧ (recordEdge e s).sec = s.sec ∧ (recordEdge e s).ev = s.ev := by
  unfold recordEdge; dsimp only; (repeat' split) <;> simp
@[simp] theorem reportEdge_frame (e : Edge) (s : State) :
    (reportEdge e s).pending = s.pending ∧ (reportEdge e s).id = s.id ∧ (reportEdge e s).modes = s.modes ∧
    (reportEdge e s).regs = s.regs ∧ (reportEdge e s).clk = s.clk ∧ (reportEdge e s).barr = s.barr ∧ (reportEdge e
    s).pkt = s.pkt ∧ (reportEdge e s).out = s.out ∧ (reportEdge e s).sense = s.sense ∧ (reportEdge e s).loop =
    s.loop ∧ (reportEdge e s).gnss = s.gnss ∧ (reportEdge e s).canA = s.canA ∧ (reportEdge e s).canB = s.canB ∧
    (reportEdge e s).svc = s.svc ∧ (reportEdge e s).pwr = s.pwr ∧ (reportEdge e s).sec = s.sec ∧ (reportEdge e s).fw
    = s.fw ∧ (reportEdge e s).ev = s.ev ∧ (reportEdge e s).sect = s.sect := by simp [reportEdge]
@[simp] theorem edgeExecute_frame (n : Fin 32) (s : State) :
    (edgeExecute n s).pending = s.pending ∧ (edgeExecute n s).id = s.id ∧ (edgeExecute n s).modes = s.modes ∧
    (edgeExecute n s).regs = s.regs ∧ (edgeExecute n s).pkt = s.pkt ∧ (edgeExecute n s).loop = s.loop ∧ (edgeExecute
    n s).gnss = s.gnss ∧ (edgeExecute n s).canA = s.canA ∧ (edgeExecute n s).canB = s.canB ∧ (edgeExecute n s).svc =
    s.svc ∧ (edgeExecute n s).pwr = s.pwr ∧ (edgeExecute n s).sec = s.sec := by
  unfold edgeExecute; split <;> simp
@[simp] theorem recordLate_frame (d : Fin 32) (s : State) :
    (recordLate d s).pending = s.pending ∧ (recordLate d s).free = s.free ∧ (recordLate d s).id = s.id ∧ (recordLate
    d s).modes = s.modes ∧ (recordLate d s).regs = s.regs ∧ (recordLate d s).clk = s.clk ∧ (recordLate d s).barr =
    s.barr ∧ (recordLate d s).chain = s.chain ∧ (recordLate d s).pkt = s.pkt ∧ (recordLate d s).out = s.out ∧
    (recordLate d s).sense = s.sense ∧ (recordLate d s).loop = s.loop ∧ (recordLate d s).gnss = s.gnss ∧ (recordLate
    d s).canA = s.canA ∧ (recordLate d s).canB = s.canB ∧ (recordLate d s).svc = s.svc ∧ (recordLate d s).pwr =
    s.pwr ∧ (recordLate d s).sec = s.sec ∧ (recordLate d s).ev = s.ev := by
  unfold recordLate; dsimp only; (repeat' split) <;> simp
@[simp] theorem rejudge_frame (d : Fin 32) (s0 : State) :
    (rejudge d s0).pending = s0.pending ∧ (rejudge d s0).free = s0.free ∧ (rejudge d s0).id = s0.id ∧ (rejudge d
    s0).modes = s0.modes ∧ (rejudge d s0).regs = s0.regs ∧ (rejudge d s0).clk = s0.clk ∧ (rejudge d s0).chain =
    s0.chain ∧ (rejudge d s0).pkt = s0.pkt ∧ (rejudge d s0).sense = s0.sense ∧ (rejudge d s0).loop = s0.loop ∧
    (rejudge d s0).gnss = s0.gnss ∧ (rejudge d s0).canA = s0.canA ∧ (rejudge d s0).canB = s0.canB ∧ (rejudge d
    s0).svc = s0.svc ∧ (rejudge d s0).pwr = s0.pwr ∧ (rejudge d s0).sec = s0.sec := by
  simp [rejudge]
@[simp] theorem staggerEnergise_frame (s : State) :
    (staggerEnergise s).pending = s.pending ∧ (staggerEnergise s).free = s.free ∧ (staggerEnergise s).id = s.id ∧
    (staggerEnergise s).modes = s.modes ∧ (staggerEnergise s).regs = s.regs ∧ (staggerEnergise s).chain = s.chain ∧
    (staggerEnergise s).pkt = s.pkt ∧ (staggerEnergise s).sense = s.sense ∧ (staggerEnergise s).loop = s.loop ∧
    (staggerEnergise s).gnss = s.gnss ∧ (staggerEnergise s).canA = s.canA ∧ (staggerEnergise s).canB = s.canB ∧
    (staggerEnergise s).svc = s.svc ∧ (staggerEnergise s).pwr = s.pwr ∧ (staggerEnergise s).sec = s.sec := by
  simp [staggerEnergise]
@[simp] theorem generatorEdge_frame (n : Fin 32) (s : State) :
    (generatorEdge n s).pending = s.pending ∧ (generatorEdge n s).free = s.free ∧ (generatorEdge n s).id = s.id ∧
    (generatorEdge n s).modes = s.modes ∧ (generatorEdge n s).regs = s.regs ∧ (generatorEdge n s).chain = s.chain ∧
    (generatorEdge n s).pkt = s.pkt ∧ (generatorEdge n s).sense = s.sense ∧ (generatorEdge n s).loop = s.loop ∧
    (generatorEdge n s).gnss = s.gnss ∧ (generatorEdge n s).canA = s.canA ∧ (generatorEdge n s).canB = s.canB ∧
    (generatorEdge n s).svc = s.svc ∧ (generatorEdge n s).pwr = s.pwr ∧ (generatorEdge n s).sec = s.sec ∧
    (generatorEdge n s).fw = s.fw ∧ (generatorEdge n s).sect = s.sect := by
  unfold generatorEdge; dsimp only; (repeat' split) <;> simp
@[simp] theorem retryTripped_frame (n : Fin 32) (s : State) :
    (retryTripped n s).pending = s.pending ∧ (retryTripped n s).free = s.free ∧ (retryTripped n s).id = s.id ∧
    (retryTripped n s).modes = s.modes ∧ (retryTripped n s).regs = s.regs ∧ (retryTripped n s).clk = s.clk ∧
    (retryTripped n s).chain = s.chain ∧ (retryTripped n s).pkt = s.pkt ∧ (retryTripped n s).sense = s.sense ∧
    (retryTripped n s).loop = s.loop ∧ (retryTripped n s).gnss = s.gnss ∧ (retryTripped n s).canA = s.canA ∧
    (retryTripped n s).canB = s.canB ∧ (retryTripped n s).svc = s.svc ∧ (retryTripped n s).pwr = s.pwr ∧
    (retryTripped n s).sec = s.sec ∧ (retryTripped n s).fw = s.fw ∧ (retryTripped n s).sect = s.sect := by simp [retryTripped]
@[simp] theorem periodBoundary_frame (n : Fin 32) (s : State) :
    (periodBoundary n s).pending = s.pending ∧ (periodBoundary n s).free = s.free ∧ (periodBoundary n s).id = s.id ∧
    (periodBoundary n s).modes = s.modes ∧ (periodBoundary n s).regs = s.regs ∧ (periodBoundary n s).chain = s.chain
    ∧ (periodBoundary n s).pkt = s.pkt ∧ (periodBoundary n s).sense = s.sense ∧ (periodBoundary n s).loop = s.loop ∧
    (periodBoundary n s).gnss = s.gnss ∧ (periodBoundary n s).canA = s.canA ∧ (periodBoundary n s).canB = s.canB ∧
    (periodBoundary n s).svc = s.svc ∧ (periodBoundary n s).pwr = s.pwr ∧ (periodBoundary n s).sec = s.sec ∧
    (periodBoundary n s).fw = s.fw ∧ (periodBoundary n s).sect = s.sect := by
  simp [periodBoundary]
@[simp] theorem countingPeriodEnd_frame (n : Fin 32) (s : State) :
    (countingPeriodEnd n s).pending = s.pending ∧ (countingPeriodEnd n s).free = s.free ∧ (countingPeriodEnd n s).id
    = s.id ∧ (countingPeriodEnd n s).modes = s.modes ∧ (countingPeriodEnd n s).regs = s.regs ∧ (countingPeriodEnd n
    s).chain = s.chain ∧ (countingPeriodEnd n s).pkt = s.pkt ∧ (countingPeriodEnd n s).sense = s.sense ∧
    (countingPeriodEnd n s).loop = s.loop ∧ (countingPeriodEnd n s).gnss = s.gnss ∧ (countingPeriodEnd n s).canA =
    s.canA ∧ (countingPeriodEnd n s).canB = s.canB ∧ (countingPeriodEnd n s).svc = s.svc ∧ (countingPeriodEnd n
    s).pwr = s.pwr ∧ (countingPeriodEnd n s).sec = s.sec ∧ (countingPeriodEnd n s).fw = s.fw ∧ (countingPeriodEnd n
    s).ev = s.ev ∧ (countingPeriodEnd n s).sect = s.sect := by simp [countingPeriodEnd]
@[simp] theorem calMeasure_frame (spanOk : Bool) (tap : Byte) (s : State) :
    (calMeasure spanOk tap s).pending = s.pending ∧ (calMeasure spanOk tap s).free = s.free ∧ (calMeasure spanOk tap
    s).id = s.id ∧ (calMeasure spanOk tap s).modes = s.modes ∧ (calMeasure spanOk tap s).regs = s.regs ∧ (calMeasure
    spanOk tap s).chain = s.chain ∧ (calMeasure spanOk tap s).pkt = s.pkt ∧ (calMeasure spanOk tap s).sense =
    s.sense ∧ (calMeasure spanOk tap s).loop = s.loop ∧ (calMeasure spanOk tap s).gnss = s.gnss ∧ (calMeasure spanOk
    tap s).canA = s.canA ∧ (calMeasure spanOk tap s).canB = s.canB ∧ (calMeasure spanOk tap s).svc = s.svc ∧
    (calMeasure spanOk tap s).pwr = s.pwr ∧ (calMeasure spanOk tap s).sec = s.sec ∧ (calMeasure spanOk tap s).fw =
    s.fw ∧ (calMeasure spanOk tap s).sect = s.sect := by simp [calMeasure]
@[simp] theorem shortTrip_frame (n : Fin 32) (s : State) :
    (shortTrip n s).pending = s.pending ∧ (shortTrip n s).free = s.free ∧ (shortTrip n s).id = s.id ∧ (shortTrip n
    s).modes = s.modes ∧ (shortTrip n s).regs = s.regs ∧ (shortTrip n s).clk = s.clk ∧ (shortTrip n s).chain =
    s.chain ∧ (shortTrip n s).pkt = s.pkt ∧ (shortTrip n s).sense = s.sense ∧ (shortTrip n s).loop = s.loop ∧
    (shortTrip n s).gnss = s.gnss ∧ (shortTrip n s).canA = s.canA ∧ (shortTrip n s).canB = s.canB ∧ (shortTrip n
    s).svc = s.svc ∧ (shortTrip n s).pwr = s.pwr ∧ (shortTrip n s).sec = s.sec ∧ (shortTrip n s).fw = s.fw ∧
    (shortTrip n s).sect = s.sect := by
  simp [shortTrip]
@[simp] theorem tripInput_frame (i : Fin 4) (level : Bool) (s : State) :
    (tripInput i level s).pending = s.pending ∧ (tripInput i level s).free = s.free ∧ (tripInput i level s).id =
    s.id ∧ (tripInput i level s).modes = s.modes ∧ (tripInput i level s).regs = s.regs ∧ (tripInput i level s).clk =
    s.clk ∧ (tripInput i level s).chain = s.chain ∧ (tripInput i level s).pkt = s.pkt ∧ (tripInput i level s).sense
    = s.sense ∧ (tripInput i level s).loop = s.loop ∧ (tripInput i level s).gnss = s.gnss ∧ (tripInput i level
    s).canA = s.canA ∧ (tripInput i level s).canB = s.canB ∧ (tripInput i level s).svc = s.svc ∧ (tripInput i level
    s).pwr = s.pwr ∧ (tripInput i level s).sec = s.sec ∧ (tripInput i level s).fw = s.fw ∧ (tripInput i level
    s).sect = s.sect := by
  simp [tripInput]
@[simp] theorem overtempTrip_frame (n : Fin 32) (s : State) :
    (overtempTrip n s).pending = s.pending ∧ (overtempTrip n s).free = s.free ∧ (overtempTrip n s).id = s.id ∧
    (overtempTrip n s).modes = s.modes ∧ (overtempTrip n s).regs = s.regs ∧ (overtempTrip n s).clk = s.clk ∧
    (overtempTrip n s).chain = s.chain ∧ (overtempTrip n s).pkt = s.pkt ∧ (overtempTrip n s).sense = s.sense ∧
    (overtempTrip n s).loop = s.loop ∧ (overtempTrip n s).gnss = s.gnss ∧ (overtempTrip n s).canA = s.canA ∧
    (overtempTrip n s).canB = s.canB ∧ (overtempTrip n s).svc = s.svc ∧ (overtempTrip n s).pwr = s.pwr ∧
    (overtempTrip n s).sec = s.sec ∧ (overtempTrip n s).fw = s.fw ∧ (overtempTrip n s).sect = s.sect := by
  simp [overtempTrip]
@[simp] theorem blankingEnd_frame (n : Fin 32) (sample : BitVec 12) (s : State) :
    (blankingEnd n sample s).pending = s.pending ∧ (blankingEnd n sample s).free = s.free ∧ (blankingEnd n sample
    s).id = s.id ∧ (blankingEnd n sample s).modes = s.modes ∧ (blankingEnd n sample s).regs = s.regs ∧ (blankingEnd
    n sample s).clk = s.clk ∧ (blankingEnd n sample s).chain = s.chain ∧ (blankingEnd n sample s).pkt = s.pkt ∧
    (blankingEnd n sample s).sense = s.sense ∧ (blankingEnd n sample s).loop = s.loop ∧ (blankingEnd n sample
    s).gnss = s.gnss ∧ (blankingEnd n sample s).canA = s.canA ∧ (blankingEnd n sample s).canB = s.canB ∧
    (blankingEnd n sample s).svc = s.svc ∧ (blankingEnd n sample s).pwr = s.pwr ∧ (blankingEnd n sample s).sec =
    s.sec ∧ (blankingEnd n sample s).fw = s.fw ∧ (blankingEnd n sample s).sect = s.sect := by
  unfold blankingEnd; dsimp only; (repeat' split) <;> simp
@[simp] theorem tripRetry_frame (n : Fin 32) (s : State) :
    (tripRetry n s).pending = s.pending ∧ (tripRetry n s).free = s.free ∧ (tripRetry n s).id = s.id ∧ (tripRetry n
    s).modes = s.modes ∧ (tripRetry n s).regs = s.regs ∧ (tripRetry n s).chain = s.chain ∧ (tripRetry n s).pkt =
    s.pkt ∧ (tripRetry n s).sense = s.sense ∧ (tripRetry n s).loop = s.loop ∧ (tripRetry n s).gnss = s.gnss ∧
    (tripRetry n s).canA = s.canA ∧ (tripRetry n s).canB = s.canB ∧ (tripRetry n s).svc = s.svc ∧ (tripRetry n
    s).pwr = s.pwr ∧ (tripRetry n s).sec = s.sec ∧ (tripRetry n s).fw = s.fw ∧ (tripRetry n s).sect = s.sect := by
  unfold tripRetry; split <;> simp
@[simp] theorem takeSample_frame (n : Fin 32) (x : BitVec 12) (s : State) :
    (takeSample n x s).pending = s.pending ∧ (takeSample n x s).free = s.free ∧ (takeSample n x s).id = s.id ∧
    (takeSample n x s).modes = s.modes ∧ (takeSample n x s).regs = s.regs ∧ (takeSample n x s).clk = s.clk ∧
    (takeSample n x s).barr = s.barr ∧ (takeSample n x s).chain = s.chain ∧ (takeSample n x s).pkt = s.pkt ∧
    (takeSample n x s).sense = s.sense ∧ (takeSample n x s).loop = s.loop ∧ (takeSample n x s).gnss = s.gnss ∧
    (takeSample n x s).canA = s.canA ∧ (takeSample n x s).canB = s.canB ∧ (takeSample n x s).svc = s.svc ∧
    (takeSample n x s).pwr = s.pwr ∧ (takeSample n x s).sec = s.sec ∧ (takeSample n x s).fw = s.fw ∧ (takeSample n x
    s).ev = s.ev ∧ (takeSample n x s).sect = s.sect := by simp [takeSample]
@[simp] theorem sampleDrivers_frame (n : Fin 32) (x : BitVec 12) (s : State) :
    (sampleDrivers n x s).pending = s.pending ∧ (sampleDrivers n x s).free = s.free ∧ (sampleDrivers n x s).id =
    s.id ∧ (sampleDrivers n x s).modes = s.modes ∧ (sampleDrivers n x s).regs = s.regs ∧ (sampleDrivers n x s).clk =
    s.clk ∧ (sampleDrivers n x s).barr = s.barr ∧ (sampleDrivers n x s).chain = s.chain ∧ (sampleDrivers n x s).pkt
    = s.pkt ∧ (sampleDrivers n x s).sense = s.sense ∧ (sampleDrivers n x s).loop = s.loop ∧ (sampleDrivers n x
    s).gnss = s.gnss ∧ (sampleDrivers n x s).canA = s.canA ∧ (sampleDrivers n x s).canB = s.canB ∧ (sampleDrivers n
    x s).svc = s.svc ∧ (sampleDrivers n x s).pwr = s.pwr ∧ (sampleDrivers n x s).sec = s.sec ∧ (sampleDrivers n x
    s).fw = s.fw ∧ (sampleDrivers n x s).ev = s.ev ∧ (sampleDrivers n x s).sect = s.sect := by
  simp [sampleDrivers]
@[simp] theorem peakEnd_frame (n : Fin 32) (sample : BitVec 12) (s : State) :
    (peakEnd n sample s).pending = s.pending ∧ (peakEnd n sample s).free = s.free ∧ (peakEnd n sample s).id = s.id ∧
    (peakEnd n sample s).modes = s.modes ∧ (peakEnd n sample s).regs = s.regs ∧ (peakEnd n sample s).chain = s.chain
    ∧ (peakEnd n sample s).pkt = s.pkt ∧ (peakEnd n sample s).sense = s.sense ∧ (peakEnd n sample s).loop = s.loop ∧
    (peakEnd n sample s).gnss = s.gnss ∧ (peakEnd n sample s).canA = s.canA ∧ (peakEnd n sample s).canB = s.canB ∧
    (peakEnd n sample s).svc = s.svc ∧ (peakEnd n sample s).pwr = s.pwr ∧ (peakEnd n sample s).sec = s.sec ∧
    (peakEnd n sample s).fw = s.fw ∧ (peakEnd n sample s).sect = s.sect := by
  simp [peakEnd]
@[simp] theorem holdOff_frame (n : Fin 32) (s : State) :
    (holdOff n s).pending = s.pending ∧ (holdOff n s).free = s.free ∧ (holdOff n s).id = s.id ∧ (holdOff n s).modes
    = s.modes ∧ (holdOff n s).regs = s.regs ∧ (holdOff n s).clk = s.clk ∧ (holdOff n s).barr = s.barr ∧ (holdOff n
    s).chain = s.chain ∧ (holdOff n s).pkt = s.pkt ∧ (holdOff n s).sense = s.sense ∧ (holdOff n s).loop = s.loop ∧
    (holdOff n s).gnss = s.gnss ∧ (holdOff n s).canA = s.canA ∧ (holdOff n s).canB = s.canB ∧ (holdOff n s).svc =
    s.svc ∧ (holdOff n s).pwr = s.pwr ∧ (holdOff n s).sec = s.sec ∧ (holdOff n s).fw = s.fw ∧ (holdOff n s).ev =
    s.ev ∧ (holdOff n s).sect = s.sect := by
  simp [holdOff]
@[simp] theorem holdChop_frame (n : Fin 32) (sample : BitVec 12) (s : State) :
    (holdChop n sample s).pending = s.pending ∧ (holdChop n sample s).free = s.free ∧ (holdChop n sample s).id =
    s.id ∧ (holdChop n sample s).modes = s.modes ∧ (holdChop n sample s).regs = s.regs ∧ (holdChop n sample s).chain
    = s.chain ∧ (holdChop n sample s).pkt = s.pkt ∧ (holdChop n sample s).sense = s.sense ∧ (holdChop n sample
    s).loop = s.loop ∧ (holdChop n sample s).gnss = s.gnss ∧ (holdChop n sample s).canA = s.canA ∧ (holdChop n
    sample s).canB = s.canB ∧ (holdChop n sample s).svc = s.svc ∧ (holdChop n sample s).pwr = s.pwr ∧ (holdChop n
    sample s).sec = s.sec ∧ (holdChop n sample s).fw = s.fw ∧ (holdChop n sample s).ev = s.ev ∧ (holdChop n sample
    s).sect = s.sect := by
  simp [holdChop]
@[simp] theorem holdStart_frame (n : Fin 32) (s : State) :
    (holdStart n s).pending = s.pending ∧ (holdStart n s).free = s.free ∧ (holdStart n s).id = s.id ∧ (holdStart n
    s).modes = s.modes ∧ (holdStart n s).regs = s.regs ∧ (holdStart n s).chain = s.chain ∧ (holdStart n s).pkt =
    s.pkt ∧ (holdStart n s).sense = s.sense ∧ (holdStart n s).loop = s.loop ∧ (holdStart n s).gnss = s.gnss ∧
    (holdStart n s).canA = s.canA ∧ (holdStart n s).canB = s.canB ∧ (holdStart n s).svc = s.svc ∧ (holdStart n
    s).pwr = s.pwr ∧ (holdStart n s).sec = s.sec ∧ (holdStart n s).fw = s.fw ∧ (holdStart n s).ev = s.ev ∧
    (holdStart n s).sect = s.sect := by
  simp [holdStart]
@[simp] theorem lampResult_frame (n : Fin 32) (kind : Fin 3) (off : Bool) (s : State) :
    (lampResult n kind off s).pending = s.pending ∧ (lampResult n kind off s).free = s.free ∧ (lampResult n kind off
    s).id = s.id ∧ (lampResult n kind off s).modes = s.modes ∧ (lampResult n kind off s).regs = s.regs ∧ (lampResult
    n kind off s).clk = s.clk ∧ (lampResult n kind off s).chain = s.chain ∧ (lampResult n kind off s).pkt = s.pkt ∧
    (lampResult n kind off s).sense = s.sense ∧ (lampResult n kind off s).loop = s.loop ∧ (lampResult n kind off
    s).gnss = s.gnss ∧ (lampResult n kind off s).canA = s.canA ∧ (lampResult n kind off s).canB = s.canB ∧
    (lampResult n kind off s).svc = s.svc ∧ (lampResult n kind off s).pwr = s.pwr ∧ (lampResult n kind off s).sec =
    s.sec ∧ (lampResult n kind off s).fw = s.fw ∧ (lampResult n kind off s).sect = s.sect := by simp [lampResult]
@[simp] theorem lampMeasure_frame (n : Fin 32) (samples : List (BitVec 12)) (s : State) :
    (lampMeasure n samples s).pending = s.pending ∧ (lampMeasure n samples s).free = s.free ∧ (lampMeasure n samples
    s).id = s.id ∧ (lampMeasure n samples s).modes = s.modes ∧ (lampMeasure n samples s).regs = s.regs ∧
    (lampMeasure n samples s).clk = s.clk ∧ (lampMeasure n samples s).chain = s.chain ∧ (lampMeasure n samples
    s).pkt = s.pkt ∧ (lampMeasure n samples s).sense = s.sense ∧ (lampMeasure n samples s).loop = s.loop ∧
    (lampMeasure n samples s).gnss = s.gnss ∧ (lampMeasure n samples s).canA = s.canA ∧ (lampMeasure n samples
    s).canB = s.canB ∧ (lampMeasure n samples s).svc = s.svc ∧ (lampMeasure n samples s).pwr = s.pwr ∧ (lampMeasure
    n samples s).sec = s.sec ∧ (lampMeasure n samples s).fw = s.fw ∧ (lampMeasure n samples s).sect = s.sect := by simp [lampMeasure]
@[simp] theorem lampOffMeasure_frame (n : Fin 32) (mv : Nat) (s : State) :
    (lampOffMeasure n mv s).pending = s.pending ∧ (lampOffMeasure n mv s).free = s.free ∧ (lampOffMeasure n mv s).id
    = s.id ∧ (lampOffMeasure n mv s).modes = s.modes ∧ (lampOffMeasure n mv s).regs = s.regs ∧ (lampOffMeasure n mv
    s).clk = s.clk ∧ (lampOffMeasure n mv s).chain = s.chain ∧ (lampOffMeasure n mv s).pkt = s.pkt ∧ (lampOffMeasure
    n mv s).sense = s.sense ∧ (lampOffMeasure n mv s).loop = s.loop ∧ (lampOffMeasure n mv s).gnss = s.gnss ∧
    (lampOffMeasure n mv s).canA = s.canA ∧ (lampOffMeasure n mv s).canB = s.canB ∧ (lampOffMeasure n mv s).svc =
    s.svc ∧ (lampOffMeasure n mv s).pwr = s.pwr ∧ (lampOffMeasure n mv s).sec = s.sec ∧ (lampOffMeasure n mv s).fw =
    s.fw ∧ (lampOffMeasure n mv s).sect = s.sect := by simp [lampOffMeasure]
@[simp] theorem epochOutputs_frame (s : State) :
    (epochOutputs s).pending = s.pending ∧ (epochOutputs s).free = s.free ∧ (epochOutputs s).id = s.id ∧
    (epochOutputs s).modes = s.modes ∧ (epochOutputs s).regs = s.regs ∧ (epochOutputs s).clk = s.clk ∧ (epochOutputs
    s).chain = s.chain ∧ (epochOutputs s).pkt = s.pkt ∧ (epochOutputs s).sense = s.sense ∧ (epochOutputs s).loop =
    s.loop ∧ (epochOutputs s).gnss = s.gnss ∧ (epochOutputs s).canA = s.canA ∧ (epochOutputs s).canB = s.canB ∧
    (epochOutputs s).svc = s.svc ∧ (epochOutputs s).pwr = s.pwr ∧ (epochOutputs s).sec = s.sec ∧ (epochOutputs s).fw
    = s.fw ∧ (epochOutputs s).sect = s.sect := by simp [epochOutputs]
@[simp] theorem disagreeOn_frame (n : Fin 32) (x : BitVec 12) (s : State) :
    (disagreeOn n x s).pending = s.pending ∧ (disagreeOn n x s).free = s.free ∧ (disagreeOn n x s).id = s.id ∧
    (disagreeOn n x s).modes = s.modes ∧ (disagreeOn n x s).regs = s.regs ∧ (disagreeOn n x s).clk = s.clk ∧
    (disagreeOn n x s).chain = s.chain ∧ (disagreeOn n x s).pkt = s.pkt ∧ (disagreeOn n x s).sense = s.sense ∧
    (disagreeOn n x s).loop = s.loop ∧ (disagreeOn n x s).gnss = s.gnss ∧ (disagreeOn n x s).canA = s.canA ∧
    (disagreeOn n x s).canB = s.canB ∧ (disagreeOn n x s).svc = s.svc ∧ (disagreeOn n x s).pwr = s.pwr ∧ (disagreeOn
    n x s).sec = s.sec ∧ (disagreeOn n x s).fw = s.fw ∧ (disagreeOn n x s).sect = s.sect := by simp [disagreeOn]
@[simp] theorem disagreeOff_frame (n : Fin 32) (x : BitVec 12) (s : State) :
    (disagreeOff n x s).pending = s.pending ∧ (disagreeOff n x s).free = s.free ∧ (disagreeOff n x s).id = s.id ∧
    (disagreeOff n x s).modes = s.modes ∧ (disagreeOff n x s).regs = s.regs ∧ (disagreeOff n x s).clk = s.clk ∧
    (disagreeOff n x s).chain = s.chain ∧ (disagreeOff n x s).pkt = s.pkt ∧ (disagreeOff n x s).sense = s.sense ∧
    (disagreeOff n x s).loop = s.loop ∧ (disagreeOff n x s).gnss = s.gnss ∧ (disagreeOff n x s).canA = s.canA ∧
    (disagreeOff n x s).canB = s.canB ∧ (disagreeOff n x s).svc = s.svc ∧ (disagreeOff n x s).pwr = s.pwr ∧
    (disagreeOff n x s).sec = s.sec ∧ (disagreeOff n x s).fw = s.fw ∧ (disagreeOff n x s).sect = s.sect := by simp [disagreeOff]
@[simp] theorem openDisc_frame (reason : BitVec 2) (s : State) :
    (openDisc reason s).pending = s.pending ∧ (openDisc reason s).free = s.free ∧ (openDisc reason s).id = s.id ∧
    (openDisc reason s).regs = s.regs ∧ (openDisc reason s).chain = s.chain ∧ (openDisc reason s).gnss = s.gnss ∧
    (openDisc reason s).canA = s.canA ∧ (openDisc reason s).canB = s.canB ∧ (openDisc reason s).svc = s.svc ∧
    (openDisc reason s).pwr = s.pwr ∧ (openDisc reason s).sec = s.sec := by
  simp [openDisc]
@[simp] theorem closeDisc_frame (s : State) :
    (closeDisc s).pending = s.pending ∧ (closeDisc s).free = s.free ∧ (closeDisc s).id = s.id ∧ (closeDisc s).modes
    = s.modes ∧ (closeDisc s).regs = s.regs ∧ (closeDisc s).clk = s.clk ∧ (closeDisc s).barr = s.barr ∧ (closeDisc
    s).chain = s.chain ∧ (closeDisc s).pkt = s.pkt ∧ (closeDisc s).sense = s.sense ∧ (closeDisc s).loop = s.loop ∧
    (closeDisc s).gnss = s.gnss ∧ (closeDisc s).canA = s.canA ∧ (closeDisc s).canB = s.canB ∧ (closeDisc s).svc =
    s.svc ∧ (closeDisc s).pwr = s.pwr ∧ (closeDisc s).sec = s.sec ∧ (closeDisc s).fw = s.fw ∧ (closeDisc s).ev =
    s.ev ∧ (closeDisc s).sect = s.sect := by simp [closeDisc]
@[simp] theorem setOn_frame (n : Fin 32) (m : SetMasks) (s : State) :
    (setOn n m s).2.pending = s.pending ∧ (setOn n m s).2.free = s.free ∧ (setOn n m s).2.id = s.id ∧ (setOn n m
    s).2.modes = s.modes ∧ (setOn n m s).2.regs = s.regs ∧ (setOn n m s).2.clk = s.clk ∧ (setOn n m s).2.chain =
    s.chain ∧ (setOn n m s).2.pkt = s.pkt ∧ (setOn n m s).2.sense = s.sense ∧ (setOn n m s).2.loop = s.loop ∧ (setOn
    n m s).2.gnss = s.gnss ∧ (setOn n m s).2.canA = s.canA ∧ (setOn n m s).2.canB = s.canB ∧ (setOn n m s).2.svc =
    s.svc ∧ (setOn n m s).2.pwr = s.pwr ∧ (setOn n m s).2.sec = s.sec ∧ (setOn n m s).2.fw = s.fw ∧ (setOn n m
    s).2.sect = s.sect := by
  unfold setOn; dsimp only; (repeat' split) <;> simp
@[simp] theorem setRun_frame (n : Fin 32) (m : SetMasks) (s : State) :
    (setRun n m s).2.pending = s.pending ∧ (setRun n m s).2.free = s.free ∧ (setRun n m s).2.id = s.id ∧ (setRun n m
    s).2.modes = s.modes ∧ (setRun n m s).2.regs = s.regs ∧ (setRun n m s).2.clk = s.clk ∧ (setRun n m s).2.chain =
    s.chain ∧ (setRun n m s).2.pkt = s.pkt ∧ (setRun n m s).2.sense = s.sense ∧ (setRun n m s).2.loop = s.loop ∧
    (setRun n m s).2.gnss = s.gnss ∧ (setRun n m s).2.canA = s.canA ∧ (setRun n m s).2.canB = s.canB ∧ (setRun n m
    s).2.svc = s.svc ∧ (setRun n m s).2.pwr = s.pwr ∧ (setRun n m s).2.sec = s.sec ∧ (setRun n m s).2.fw = s.fw ∧
    (setRun n m s).2.sect = s.sect := by
  unfold setRun; dsimp only; (repeat' split) <;> simp
@[simp] theorem setOutputs_frame (mask : Word) (action : Nat) (s : State) :
    (setOutputs mask action s).2.pending = s.pending ∧ (setOutputs mask action s).2.free = s.free ∧ (setOutputs mask
    action s).2.id = s.id ∧ (setOutputs mask action s).2.modes = s.modes ∧ (setOutputs mask action s).2.regs =
    s.regs ∧ (setOutputs mask action s).2.clk = s.clk ∧ (setOutputs mask action s).2.chain = s.chain ∧ (setOutputs
    mask action s).2.pkt = s.pkt ∧ (setOutputs mask action s).2.sense = s.sense ∧ (setOutputs mask action s).2.loop
    = s.loop ∧ (setOutputs mask action s).2.gnss = s.gnss ∧ (setOutputs mask action s).2.canA = s.canA ∧ (setOutputs
    mask action s).2.canB = s.canB ∧ (setOutputs mask action s).2.svc = s.svc ∧ (setOutputs mask action s).2.pwr =
    s.pwr ∧ (setOutputs mask action s).2.sec = s.sec ∧ (setOutputs mask action s).2.fw = s.fw ∧ (setOutputs mask
    action s).2.sect = s.sect := by
  refine ⟨?_, ?_, ?_, ?_, ?_, ?_, ?_, ?_, ?_, ?_, ?_, ?_, ?_, ?_, ?_, ?_, ?_, ?_⟩
  · first
    | rfl
    | (simp [setOutputs]; done)
    | (unfold setOutputs; dsimp only; (repeat' split) <;> (first | (simp; done) | (rw [foldl_keep (fun s : State => s.pending)]; · simp; · intro s a; (try dsimp only); (repeat' split) <;> simp; done)))
    | (unfold setOutputs; rw [foldl_keep (fun x : SetMasks × State => x.2.pending)]; intro p n; dsimp only; (repeat' split) <;> simp; done)
    | (unfold setOutputs; rw [onDown_keep (fun s : State => s.pending)] <;> intros <;> simp; done)
    | (unfold setOutputs; rw [onUp_keep (fun s : State => s.pending)] <;> intros <;> simp; done)
  · first
    | rfl
    | (simp [setOutputs]; done)
    | (unfold setOutputs; dsimp only; (repeat' split) <;> (first | (simp; done) | (rw [foldl_keep (fun s : State => s.free)]; · simp; · intro s a; (try dsimp only); (repeat' split) <;> simp; done)))
    | (unfold setOutputs; rw [foldl_keep (fun x : SetMasks × State => x.2.free)]; intro p n; dsimp only; (repeat' split) <;> simp; done)
    | (unfold setOutputs; rw [onDown_keep (fun s : State => s.free)] <;> intros <;> simp; done)
    | (unfold setOutputs; rw [onUp_keep (fun s : State => s.free)] <;> intros <;> simp; done)
  · first
    | rfl
    | (simp [setOutputs]; done)
    | (unfold setOutputs; dsimp only; (repeat' split) <;> (first | (simp; done) | (rw [foldl_keep (fun s : State => s.id)]; · simp; · intro s a; (try dsimp only); (repeat' split) <;> simp; done)))
    | (unfold setOutputs; rw [foldl_keep (fun x : SetMasks × State => x.2.id)]; intro p n; dsimp only; (repeat' split) <;> simp; done)
    | (unfold setOutputs; rw [onDown_keep (fun s : State => s.id)] <;> intros <;> simp; done)
    | (unfold setOutputs; rw [onUp_keep (fun s : State => s.id)] <;> intros <;> simp; done)
  · first
    | rfl
    | (simp [setOutputs]; done)
    | (unfold setOutputs; dsimp only; (repeat' split) <;> (first | (simp; done) | (rw [foldl_keep (fun s : State => s.modes)]; · simp; · intro s a; (try dsimp only); (repeat' split) <;> simp; done)))
    | (unfold setOutputs; rw [foldl_keep (fun x : SetMasks × State => x.2.modes)]; intro p n; dsimp only; (repeat' split) <;> simp; done)
    | (unfold setOutputs; rw [onDown_keep (fun s : State => s.modes)] <;> intros <;> simp; done)
    | (unfold setOutputs; rw [onUp_keep (fun s : State => s.modes)] <;> intros <;> simp; done)
  · first
    | rfl
    | (simp [setOutputs]; done)
    | (unfold setOutputs; dsimp only; (repeat' split) <;> (first | (simp; done) | (rw [foldl_keep (fun s : State => s.regs)]; · simp; · intro s a; (try dsimp only); (repeat' split) <;> simp; done)))
    | (unfold setOutputs; rw [foldl_keep (fun x : SetMasks × State => x.2.regs)]; intro p n; dsimp only; (repeat' split) <;> simp; done)
    | (unfold setOutputs; rw [onDown_keep (fun s : State => s.regs)] <;> intros <;> simp; done)
    | (unfold setOutputs; rw [onUp_keep (fun s : State => s.regs)] <;> intros <;> simp; done)
  · first
    | rfl
    | (simp [setOutputs]; done)
    | (unfold setOutputs; dsimp only; (repeat' split) <;> (first | (simp; done) | (rw [foldl_keep (fun s : State => s.clk)]; · simp; · intro s a; (try dsimp only); (repeat' split) <;> simp; done)))
    | (unfold setOutputs; rw [foldl_keep (fun x : SetMasks × State => x.2.clk)]; intro p n; dsimp only; (repeat' split) <;> simp; done)
    | (unfold setOutputs; rw [onDown_keep (fun s : State => s.clk)] <;> intros <;> simp; done)
    | (unfold setOutputs; rw [onUp_keep (fun s : State => s.clk)] <;> intros <;> simp; done)
  · first
    | rfl
    | (simp [setOutputs]; done)
    | (unfold setOutputs; dsimp only; (repeat' split) <;> (first | (simp; done) | (rw [foldl_keep (fun s : State => s.chain)]; · simp; · intro s a; (try dsimp only); (repeat' split) <;> simp; done)))
    | (unfold setOutputs; rw [foldl_keep (fun x : SetMasks × State => x.2.chain)]; intro p n; dsimp only; (repeat' split) <;> simp; done)
    | (unfold setOutputs; rw [onDown_keep (fun s : State => s.chain)] <;> intros <;> simp; done)
    | (unfold setOutputs; rw [onUp_keep (fun s : State => s.chain)] <;> intros <;> simp; done)
  · first
    | rfl
    | (simp [setOutputs]; done)
    | (unfold setOutputs; dsimp only; (repeat' split) <;> (first | (simp; done) | (rw [foldl_keep (fun s : State => s.pkt)]; · simp; · intro s a; (try dsimp only); (repeat' split) <;> simp; done)))
    | (unfold setOutputs; rw [foldl_keep (fun x : SetMasks × State => x.2.pkt)]; intro p n; dsimp only; (repeat' split) <;> simp; done)
    | (unfold setOutputs; rw [onDown_keep (fun s : State => s.pkt)] <;> intros <;> simp; done)
    | (unfold setOutputs; rw [onUp_keep (fun s : State => s.pkt)] <;> intros <;> simp; done)
  · first
    | rfl
    | (simp [setOutputs]; done)
    | (unfold setOutputs; dsimp only; (repeat' split) <;> (first | (simp; done) | (rw [foldl_keep (fun s : State => s.sense)]; · simp; · intro s a; (try dsimp only); (repeat' split) <;> simp; done)))
    | (unfold setOutputs; rw [foldl_keep (fun x : SetMasks × State => x.2.sense)]; intro p n; dsimp only; (repeat' split) <;> simp; done)
    | (unfold setOutputs; rw [onDown_keep (fun s : State => s.sense)] <;> intros <;> simp; done)
    | (unfold setOutputs; rw [onUp_keep (fun s : State => s.sense)] <;> intros <;> simp; done)
  · first
    | rfl
    | (simp [setOutputs]; done)
    | (unfold setOutputs; dsimp only; (repeat' split) <;> (first | (simp; done) | (rw [foldl_keep (fun s : State => s.loop)]; · simp; · intro s a; (try dsimp only); (repeat' split) <;> simp; done)))
    | (unfold setOutputs; rw [foldl_keep (fun x : SetMasks × State => x.2.loop)]; intro p n; dsimp only; (repeat' split) <;> simp; done)
    | (unfold setOutputs; rw [onDown_keep (fun s : State => s.loop)] <;> intros <;> simp; done)
    | (unfold setOutputs; rw [onUp_keep (fun s : State => s.loop)] <;> intros <;> simp; done)
  · first
    | rfl
    | (simp [setOutputs]; done)
    | (unfold setOutputs; dsimp only; (repeat' split) <;> (first | (simp; done) | (rw [foldl_keep (fun s : State => s.gnss)]; · simp; · intro s a; (try dsimp only); (repeat' split) <;> simp; done)))
    | (unfold setOutputs; rw [foldl_keep (fun x : SetMasks × State => x.2.gnss)]; intro p n; dsimp only; (repeat' split) <;> simp; done)
    | (unfold setOutputs; rw [onDown_keep (fun s : State => s.gnss)] <;> intros <;> simp; done)
    | (unfold setOutputs; rw [onUp_keep (fun s : State => s.gnss)] <;> intros <;> simp; done)
  · first
    | rfl
    | (simp [setOutputs]; done)
    | (unfold setOutputs; dsimp only; (repeat' split) <;> (first | (simp; done) | (rw [foldl_keep (fun s : State => s.canA)]; · simp; · intro s a; (try dsimp only); (repeat' split) <;> simp; done)))
    | (unfold setOutputs; rw [foldl_keep (fun x : SetMasks × State => x.2.canA)]; intro p n; dsimp only; (repeat' split) <;> simp; done)
    | (unfold setOutputs; rw [onDown_keep (fun s : State => s.canA)] <;> intros <;> simp; done)
    | (unfold setOutputs; rw [onUp_keep (fun s : State => s.canA)] <;> intros <;> simp; done)
  · first
    | rfl
    | (simp [setOutputs]; done)
    | (unfold setOutputs; dsimp only; (repeat' split) <;> (first | (simp; done) | (rw [foldl_keep (fun s : State => s.canB)]; · simp; · intro s a; (try dsimp only); (repeat' split) <;> simp; done)))
    | (unfold setOutputs; rw [foldl_keep (fun x : SetMasks × State => x.2.canB)]; intro p n; dsimp only; (repeat' split) <;> simp; done)
    | (unfold setOutputs; rw [onDown_keep (fun s : State => s.canB)] <;> intros <;> simp; done)
    | (unfold setOutputs; rw [onUp_keep (fun s : State => s.canB)] <;> intros <;> simp; done)
  · first
    | rfl
    | (simp [setOutputs]; done)
    | (unfold setOutputs; dsimp only; (repeat' split) <;> (first | (simp; done) | (rw [foldl_keep (fun s : State => s.svc)]; · simp; · intro s a; (try dsimp only); (repeat' split) <;> simp; done)))
    | (unfold setOutputs; rw [foldl_keep (fun x : SetMasks × State => x.2.svc)]; intro p n; dsimp only; (repeat' split) <;> simp; done)
    | (unfold setOutputs; rw [onDown_keep (fun s : State => s.svc)] <;> intros <;> simp; done)
    | (unfold setOutputs; rw [onUp_keep (fun s : State => s.svc)] <;> intros <;> simp; done)
  · first
    | rfl
    | (simp [setOutputs]; done)
    | (unfold setOutputs; dsimp only; (repeat' split) <;> (first | (simp; done) | (rw [foldl_keep (fun s : State => s.pwr)]; · simp; · intro s a; (try dsimp only); (repeat' split) <;> simp; done)))
    | (unfold setOutputs; rw [foldl_keep (fun x : SetMasks × State => x.2.pwr)]; intro p n; dsimp only; (repeat' split) <;> simp; done)
    | (unfold setOutputs; rw [onDown_keep (fun s : State => s.pwr)] <;> intros <;> simp; done)
    | (unfold setOutputs; rw [onUp_keep (fun s : State => s.pwr)] <;> intros <;> simp; done)
  · first
    | rfl
    | (simp [setOutputs]; done)
    | (unfold setOutputs; dsimp only; (repeat' split) <;> (first | (simp; done) | (rw [foldl_keep (fun s : State => s.sec)]; · simp; · intro s a; (try dsimp only); (repeat' split) <;> simp; done)))
    | (unfold setOutputs; rw [foldl_keep (fun x : SetMasks × State => x.2.sec)]; intro p n; dsimp only; (repeat' split) <;> simp; done)
    | (unfold setOutputs; rw [onDown_keep (fun s : State => s.sec)] <;> intros <;> simp; done)
    | (unfold setOutputs; rw [onUp_keep (fun s : State => s.sec)] <;> intros <;> simp; done)
  · first
    | rfl
    | (simp [setOutputs]; done)
    | (unfold setOutputs; dsimp only; (repeat' split) <;> (first | (simp; done) | (rw [foldl_keep (fun s : State => s.fw)]; · simp; · intro s a; (try dsimp only); (repeat' split) <;> simp; done)))
    | (unfold setOutputs; rw [foldl_keep (fun x : SetMasks × State => x.2.fw)]; intro p n; dsimp only; (repeat' split) <;> simp; done)
    | (unfold setOutputs; rw [onDown_keep (fun s : State => s.fw)] <;> intros <;> simp; done)
    | (unfold setOutputs; rw [onUp_keep (fun s : State => s.fw)] <;> intros <;> simp; done)
  · first
    | rfl
    | (simp [setOutputs]; done)
    | (unfold setOutputs; dsimp only; (repeat' split) <;> (first | (simp; done) | (rw [foldl_keep (fun s : State => s.sect)]; · simp; · intro s a; (try dsimp only); (repeat' split) <;> simp; done)))
    | (unfold setOutputs; rw [foldl_keep (fun x : SetMasks × State => x.2.sect)]; intro p n; dsimp only; (repeat' split) <;> simp; done)
    | (unfold setOutputs; rw [onDown_keep (fun s : State => s.sect)] <;> intros <;> simp; done)
    | (unfold setOutputs; rw [onUp_keep (fun s : State => s.sect)] <;> intros <;> simp; done)
@[simp] theorem judgeInverted_frame (s : State) :
    (judgeInverted s).pending = s.pending ∧ (judgeInverted s).free = s.free ∧ (judgeInverted s).id = s.id ∧
    (judgeInverted s).modes = s.modes ∧ (judgeInverted s).regs = s.regs ∧ (judgeInverted s).clk = s.clk ∧
    (judgeInverted s).chain = s.chain ∧ (judgeInverted s).pkt = s.pkt ∧ (judgeInverted s).sense = s.sense ∧
    (judgeInverted s).loop = s.loop ∧ (judgeInverted s).gnss = s.gnss ∧ (judgeInverted s).canA = s.canA ∧
    (judgeInverted s).canB = s.canB ∧ (judgeInverted s).svc = s.svc ∧ (judgeInverted s).pwr = s.pwr ∧ (judgeInverted
    s).sec = s.sec ∧ (judgeInverted s).fw = s.fw ∧ (judgeInverted s).sect = s.sect := by simp [judgeInverted]
@[simp] theorem leaveClay_frame (s : State) :
    (leaveClay s).pending = s.pending ∧ (leaveClay s).free = s.free ∧ (leaveClay s).id = s.id ∧ (leaveClay s).regs =
    s.regs ∧ (leaveClay s).chain = s.chain ∧ (leaveClay s).pkt = s.pkt ∧ (leaveClay s).sense = s.sense ∧ (leaveClay
    s).gnss = s.gnss ∧ (leaveClay s).canA = s.canA ∧ (leaveClay s).canB = s.canB ∧ (leaveClay s).svc = s.svc ∧
    (leaveClay s).pwr = s.pwr ∧ (leaveClay s).sec = s.sec ∧ (leaveClay s).fw = s.fw ∧ (leaveClay s).sect = s.sect :=
    by
  simp [leaveClay]
@[simp] theorem setIn_frame (n : Fin 16) (f : SinIn → SinIn) (s : State) :
    (setIn n f s).pending = s.pending ∧ (setIn n f s).free = s.free ∧ (setIn n f s).id = s.id ∧ (setIn n f s).modes
    = s.modes ∧ (setIn n f s).regs = s.regs ∧ (setIn n f s).clk = s.clk ∧ (setIn n f s).barr = s.barr ∧ (setIn n f
    s).chain = s.chain ∧ (setIn n f s).pkt = s.pkt ∧ (setIn n f s).out = s.out ∧ (setIn n f s).loop = s.loop ∧
    (setIn n f s).gnss = s.gnss ∧ (setIn n f s).canA = s.canA ∧ (setIn n f s).canB = s.canB ∧ (setIn n f s).svc =
    s.svc ∧ (setIn n f s).pwr = s.pwr ∧ (setIn n f s).sec = s.sec ∧ (setIn n f s).fw = s.fw ∧ (setIn n f s).ev =
    s.ev ∧ (setIn n f s).sect = s.sect := by simp [setIn]
@[simp] theorem setFan_frame (j : Fin 2) (f : Fan → Fan) (s : State) :
    (setFan j f s).pending = s.pending ∧ (setFan j f s).free = s.free ∧ (setFan j f s).id = s.id ∧ (setFan j f
    s).modes = s.modes ∧ (setFan j f s).regs = s.regs ∧ (setFan j f s).clk = s.clk ∧ (setFan j f s).barr = s.barr ∧
    (setFan j f s).chain = s.chain ∧ (setFan j f s).pkt = s.pkt ∧ (setFan j f s).out = s.out ∧ (setFan j f s).loop =
    s.loop ∧ (setFan j f s).gnss = s.gnss ∧ (setFan j f s).canA = s.canA ∧ (setFan j f s).canB = s.canB ∧ (setFan j
    f s).svc = s.svc ∧ (setFan j f s).pwr = s.pwr ∧ (setFan j f s).sec = s.sec ∧ (setFan j f s).fw = s.fw ∧ (setFan
    j f s).ev = s.ev ∧ (setFan j f s).sect = s.sect := by simp [setFan]
@[simp] theorem remoteSet_frame (j : Fin 2) (action : Byte) (s : State) :
    (remoteSet j action s).pending = s.pending ∧ (remoteSet j action s).id = s.id ∧ (remoteSet j action s).modes =
    s.modes ∧ (remoteSet j action s).regs = s.regs ∧ (remoteSet j action s).clk = s.clk ∧ (remoteSet j action s).pkt
    = s.pkt ∧ (remoteSet j action s).loop = s.loop ∧ (remoteSet j action s).gnss = s.gnss ∧ (remoteSet j action
    s).canA = s.canA ∧ (remoteSet j action s).canB = s.canB ∧ (remoteSet j action s).svc = s.svc ∧ (remoteSet j
    action s).pwr = s.pwr ∧ (remoteSet j action s).sec = s.sec ∧ (remoteSet j action s).fw = s.fw ∧ (remoteSet j
    action s).sect = s.sect := by
  simp [remoteSet]
@[simp] theorem closeHeld_frame (old s : State) :
    (closeHeld old s).pending = s.pending ∧ (closeHeld old s).free = s.free ∧ (closeHeld old s).id = s.id ∧
    (closeHeld old s).modes = s.modes ∧ (closeHeld old s).regs = s.regs ∧ (closeHeld old s).clk = s.clk ∧ (closeHeld
    old s).chain = s.chain ∧ (closeHeld old s).pkt = s.pkt ∧ (closeHeld old s).sense = s.sense ∧ (closeHeld old
    s).loop = s.loop ∧ (closeHeld old s).gnss = s.gnss ∧ (closeHeld old s).canA = s.canA ∧ (closeHeld old s).canB =
    s.canB ∧ (closeHeld old s).svc = s.svc ∧ (closeHeld old s).pwr = s.pwr ∧ (closeHeld old s).sec = s.sec ∧
    (closeHeld old s).fw = s.fw ∧ (closeHeld old s).sect = s.sect := by
  simp [closeHeld]
@[simp] theorem stallFan_frame (j : Fin 2) (s : State) :
    (stallFan j s).pending = s.pending ∧ (stallFan j s).id = s.id ∧ (stallFan j s).modes = s.modes ∧ (stallFan j
    s).regs = s.regs ∧ (stallFan j s).clk = s.clk ∧ (stallFan j s).pkt = s.pkt ∧ (stallFan j s).gnss = s.gnss ∧
    (stallFan j s).canA = s.canA ∧ (stallFan j s).canB = s.canB ∧ (stallFan j s).svc = s.svc ∧ (stallFan j s).pwr =
    s.pwr ∧ (stallFan j s).sec = s.sec ∧ (stallFan j s).fw = s.fw ∧ (stallFan j s).sect = s.sect := by
  simp [stallFan]
@[simp] theorem runFan_frame (j : Fin 2) (s : State) :
    (runFan j s).pending = s.pending ∧ (runFan j s).id = s.id ∧ (runFan j s).modes = s.modes ∧ (runFan j s).regs =
    s.regs ∧ (runFan j s).clk = s.clk ∧ (runFan j s).pkt = s.pkt ∧ (runFan j s).gnss = s.gnss ∧ (runFan j s).canA =
    s.canA ∧ (runFan j s).canB = s.canB ∧ (runFan j s).svc = s.svc ∧ (runFan j s).pwr = s.pwr ∧ (runFan j s).sec =
    s.sec ∧ (runFan j s).fw = s.fw ∧ (runFan j s).sect = s.sect := by
  simp [runFan]
@[simp] theorem tachInterval_frame (stamp start : BitVec 64) (s : State) (j : Fin 2) :
    (tachInterval stamp start s j).pending = s.pending ∧ (tachInterval stamp start s j).id = s.id ∧ (tachInterval
    stamp start s j).modes = s.modes ∧ (tachInterval stamp start s j).regs = s.regs ∧ (tachInterval stamp start s
    j).pkt = s.pkt ∧ (tachInterval stamp start s j).gnss = s.gnss ∧ (tachInterval stamp start s j).canA = s.canA ∧
    (tachInterval stamp start s j).canB = s.canB ∧ (tachInterval stamp start s j).svc = s.svc ∧ (tachInterval stamp
    start s j).pwr = s.pwr ∧ (tachInterval stamp start s j).sec = s.sec ∧ (tachInterval stamp start s j).fw = s.fw ∧
    (tachInterval stamp start s j).sect = s.sect := by
  simp [tachInterval]
@[simp] theorem quadEdge_frame (n : Fin 16) (both : Bool) (s : State) :
    (quadEdge n both s).pending = s.pending ∧ (quadEdge n both s).free = s.free ∧ (quadEdge n both s).id = s.id ∧
    (quadEdge n both s).modes = s.modes ∧ (quadEdge n both s).regs = s.regs ∧ (quadEdge n both s).clk = s.clk ∧
    (quadEdge n both s).barr = s.barr ∧ (quadEdge n both s).chain = s.chain ∧ (quadEdge n both s).pkt = s.pkt ∧
    (quadEdge n both s).out = s.out ∧ (quadEdge n both s).loop = s.loop ∧ (quadEdge n both s).gnss = s.gnss ∧
    (quadEdge n both s).canA = s.canA ∧ (quadEdge n both s).canB = s.canB ∧ (quadEdge n both s).svc = s.svc ∧
    (quadEdge n both s).pwr = s.pwr ∧ (quadEdge n both s).sec = s.sec ∧ (quadEdge n both s).fw = s.fw ∧ (quadEdge n
    both s).ev = s.ev ∧ (quadEdge n both s).sect = s.sect := by simp [quadEdge]
@[simp] theorem sinEdge_frame (n : Fin 16) (rising both : Bool) (stamp : BitVec 64) (s : State) :
    (sinEdge n rising both stamp s).pending = s.pending ∧ (sinEdge n rising both stamp s).id = s.id ∧ (sinEdge n
    rising both stamp s).modes = s.modes ∧ (sinEdge n rising both stamp s).regs = s.regs ∧ (sinEdge n rising both
    stamp s).pkt = s.pkt ∧ (sinEdge n rising both stamp s).gnss = s.gnss ∧ (sinEdge n rising both stamp s).canA =
    s.canA ∧ (sinEdge n rising both stamp s).canB = s.canB ∧ (sinEdge n rising both stamp s).svc = s.svc ∧ (sinEdge
    n rising both stamp s).pwr = s.pwr ∧ (sinEdge n rising both stamp s).sec = s.sec ∧ (sinEdge n rising both stamp
    s).fw = s.fw ∧ (sinEdge n rising both stamp s).sect = s.sect := by
  unfold sinEdge; dsimp only; (repeat' split) <;> simp
@[simp] theorem sinUpdate_frame (means : List Nat) (s : State) :
    (sinUpdate means s).pending = s.pending ∧ (sinUpdate means s).free = s.free ∧ (sinUpdate means s).id = s.id ∧
    (sinUpdate means s).modes = s.modes ∧ (sinUpdate means s).regs = s.regs ∧ (sinUpdate means s).chain = s.chain ∧
    (sinUpdate means s).pkt = s.pkt ∧ (sinUpdate means s).out = s.out ∧ (sinUpdate means s).loop = s.loop ∧
    (sinUpdate means s).gnss = s.gnss ∧ (sinUpdate means s).canA = s.canA ∧ (sinUpdate means s).canB = s.canB ∧
    (sinUpdate means s).svc = s.svc ∧ (sinUpdate means s).pwr = s.pwr ∧ (sinUpdate means s).sec = s.sec ∧ (sinUpdate
    means s).fw = s.fw ∧ (sinUpdate means s).ev = s.ev ∧ (sinUpdate means s).sect = s.sect := by simp [sinUpdate]
@[simp] theorem switchAccept_frame (n : Fin 16) (ohms : Nat) (s : State) :
    (switchAccept n ohms s).pending = s.pending ∧ (switchAccept n ohms s).free = s.free ∧ (switchAccept n ohms s).id
    = s.id ∧ (switchAccept n ohms s).modes = s.modes ∧ (switchAccept n ohms s).regs = s.regs ∧ (switchAccept n ohms
    s).clk = s.clk ∧ (switchAccept n ohms s).barr = s.barr ∧ (switchAccept n ohms s).chain = s.chain ∧ (switchAccept
    n ohms s).pkt = s.pkt ∧ (switchAccept n ohms s).out = s.out ∧ (switchAccept n ohms s).loop = s.loop ∧
    (switchAccept n ohms s).gnss = s.gnss ∧ (switchAccept n ohms s).canA = s.canA ∧ (switchAccept n ohms s).canB =
    s.canB ∧ (switchAccept n ohms s).svc = s.svc ∧ (switchAccept n ohms s).pwr = s.pwr ∧ (switchAccept n ohms s).sec
    = s.sec ∧ (switchAccept n ohms s).fw = s.fw ∧ (switchAccept n ohms s).ev = s.ev ∧ (switchAccept n ohms s).sect =
    s.sect := by simp [switchAccept]
@[simp] theorem tachBreak_frame (s : State) (j : Fin 2) :
    (tachBreak s j).pending = s.pending ∧ (tachBreak s j).free = s.free ∧ (tachBreak s j).id = s.id ∧ (tachBreak s
    j).modes = s.modes ∧ (tachBreak s j).regs = s.regs ∧ (tachBreak s j).clk = s.clk ∧ (tachBreak s j).chain =
    s.chain ∧ (tachBreak s j).pkt = s.pkt ∧ (tachBreak s j).out = s.out ∧ (tachBreak s j).gnss = s.gnss ∧ (tachBreak
    s j).canA = s.canA ∧ (tachBreak s j).canB = s.canB ∧ (tachBreak s j).svc = s.svc ∧ (tachBreak s j).pwr = s.pwr ∧
    (tachBreak s j).sec = s.sec ∧ (tachBreak s j).fw = s.fw ∧ (tachBreak s j).sect = s.sect := by simp [tachBreak]
@[simp] theorem wireOpen_frame (n : Fin 16) (s : State) :
    (wireOpen n s).pending = s.pending ∧ (wireOpen n s).free = s.free ∧ (wireOpen n s).id = s.id ∧ (wireOpen n
    s).modes = s.modes ∧ (wireOpen n s).regs = s.regs ∧ (wireOpen n s).clk = s.clk ∧ (wireOpen n s).chain = s.chain
    ∧ (wireOpen n s).pkt = s.pkt ∧ (wireOpen n s).out = s.out ∧ (wireOpen n s).gnss = s.gnss ∧ (wireOpen n s).canA =
    s.canA ∧ (wireOpen n s).canB = s.canB ∧ (wireOpen n s).svc = s.svc ∧ (wireOpen n s).pwr = s.pwr ∧ (wireOpen n
    s).sec = s.sec ∧ (wireOpen n s).fw = s.fw ∧ (wireOpen n s).sect = s.sect := by simp [wireOpen]
@[simp] theorem openLim_frame (j : Fin 2) (s : State) :
    (openLim j s).pending = s.pending ∧ (openLim j s).id = s.id ∧ (openLim j s).modes = s.modes ∧ (openLim j s).regs
    = s.regs ∧ (openLim j s).pkt = s.pkt ∧ (openLim j s).gnss = s.gnss ∧ (openLim j s).canA = s.canA ∧ (openLim j
    s).canB = s.canB ∧ (openLim j s).svc = s.svc ∧ (openLim j s).pwr = s.pwr ∧ (openLim j s).sec = s.sec ∧ (openLim
    j s).fw = s.fw ∧ (openLim j s).sect = s.sect := by
  simp [openLim]
@[simp] theorem restartFan_frame (j : Fin 2) (s : State) :
    (restartFan j s).pending = s.pending ∧ (restartFan j s).free = s.free ∧ (restartFan j s).id = s.id ∧ (restartFan
    j s).modes = s.modes ∧ (restartFan j s).regs = s.regs ∧ (restartFan j s).clk = s.clk ∧ (restartFan j s).chain =
    s.chain ∧ (restartFan j s).pkt = s.pkt ∧ (restartFan j s).gnss = s.gnss ∧ (restartFan j s).canA = s.canA ∧
    (restartFan j s).canB = s.canB ∧ (restartFan j s).svc = s.svc ∧ (restartFan j s).pwr = s.pwr ∧ (restartFan j
    s).sec = s.sec ∧ (restartFan j s).fw = s.fw ∧ (restartFan j s).sect = s.sect := by
  simp [restartFan]
@[simp] theorem repeatHolds_frame (s : State) :
    (repeatHolds s).pending = s.pending ∧ (repeatHolds s).id = s.id ∧ (repeatHolds s).modes = s.modes ∧ (repeatHolds
    s).regs = s.regs ∧ (repeatHolds s).clk = s.clk ∧ (repeatHolds s).pkt = s.pkt ∧ (repeatHolds s).loop = s.loop ∧
    (repeatHolds s).gnss = s.gnss ∧ (repeatHolds s).canA = s.canA ∧ (repeatHolds s).canB = s.canB ∧ (repeatHolds
    s).svc = s.svc ∧ (repeatHolds s).pwr = s.pwr ∧ (repeatHolds s).sec = s.sec ∧ (repeatHolds s).fw = s.fw ∧
    (repeatHolds s).sect = s.sect := by
  simp [repeatHolds]
@[simp] theorem fanRewritten_frame (j : Fin 2) (old : Word) (s : State) :
    (fanRewritten j old s).pending = s.pending ∧ (fanRewritten j old s).free = s.free ∧ (fanRewritten j old s).id =
    s.id ∧ (fanRewritten j old s).modes = s.modes ∧ (fanRewritten j old s).regs = s.regs ∧ (fanRewritten j old
    s).clk = s.clk ∧ (fanRewritten j old s).chain = s.chain ∧ (fanRewritten j old s).pkt = s.pkt ∧ (fanRewritten j
    old s).gnss = s.gnss ∧ (fanRewritten j old s).canA = s.canA ∧ (fanRewritten j old s).canB = s.canB ∧
    (fanRewritten j old s).svc = s.svc ∧ (fanRewritten j old s).pwr = s.pwr ∧ (fanRewritten j old s).sec = s.sec ∧
    (fanRewritten j old s).fw = s.fw ∧ (fanRewritten j old s).sect = s.sect := by
  simp [fanRewritten]
@[simp] theorem sinRewritten_frame (n : Fin 16) (old : Word) (s : State) :
    (sinRewritten n old s).pending = s.pending ∧ (sinRewritten n old s).free = s.free ∧ (sinRewritten n old s).id =
    s.id ∧ (sinRewritten n old s).modes = s.modes ∧ (sinRewritten n old s).regs = s.regs ∧ (sinRewritten n old
    s).clk = s.clk ∧ (sinRewritten n old s).barr = s.barr ∧ (sinRewritten n old s).chain = s.chain ∧ (sinRewritten n
    old s).pkt = s.pkt ∧ (sinRewritten n old s).out = s.out ∧ (sinRewritten n old s).loop = s.loop ∧ (sinRewritten n
    old s).gnss = s.gnss ∧ (sinRewritten n old s).canA = s.canA ∧ (sinRewritten n old s).canB = s.canB ∧
    (sinRewritten n old s).svc = s.svc ∧ (sinRewritten n old s).pwr = s.pwr ∧ (sinRewritten n old s).sec = s.sec ∧
    (sinRewritten n old s).fw = s.fw ∧ (sinRewritten n old s).ev = s.ev ∧ (sinRewritten n old s).sect = s.sect := by simp [sinRewritten]
@[simp] theorem sinCntclr_frame (value : Word) (s : State) :
    (sinCntclr value s).pending = s.pending ∧ (sinCntclr value s).free = s.free ∧ (sinCntclr value s).id = s.id ∧
    (sinCntclr value s).modes = s.modes ∧ (sinCntclr value s).regs = s.regs ∧ (sinCntclr value s).clk = s.clk ∧
    (sinCntclr value s).barr = s.barr ∧ (sinCntclr value s).chain = s.chain ∧ (sinCntclr value s).pkt = s.pkt ∧
    (sinCntclr value s).out = s.out ∧ (sinCntclr value s).loop = s.loop ∧ (sinCntclr value s).gnss = s.gnss ∧
    (sinCntclr value s).canA = s.canA ∧ (sinCntclr value s).canB = s.canB ∧ (sinCntclr value s).svc = s.svc ∧
    (sinCntclr value s).pwr = s.pwr ∧ (sinCntclr value s).sec = s.sec ∧ (sinCntclr value s).fw = s.fw ∧ (sinCntclr
    value s).ev = s.ev ∧ (sinCntclr value s).sect = s.sect := by simp [sinCntclr]
@[simp] theorem setSlot_frame (i : Fin 16) (f : Slot → Slot) (s : State) :
    (setSlot i f s).pending = s.pending ∧ (setSlot i f s).free = s.free ∧ (setSlot i f s).id = s.id ∧ (setSlot i f
    s).modes = s.modes ∧ (setSlot i f s).regs = s.regs ∧ (setSlot i f s).clk = s.clk ∧ (setSlot i f s).barr = s.barr
    ∧ (setSlot i f s).chain = s.chain ∧ (setSlot i f s).pkt = s.pkt ∧ (setSlot i f s).out = s.out ∧ (setSlot i f
    s).sense = s.sense ∧ (setSlot i f s).gnss = s.gnss ∧ (setSlot i f s).canA = s.canA ∧ (setSlot i f s).canB =
    s.canB ∧ (setSlot i f s).svc = s.svc ∧ (setSlot i f s).pwr = s.pwr ∧ (setSlot i f s).sec = s.sec ∧ (setSlot i f
    s).fw = s.fw ∧ (setSlot i f s).ev = s.ev ∧ (setSlot i f s).sect = s.sect := by simp [setSlot]
@[simp] theorem noteSat_frame (i : Fin 16) (bits : BitVec 5) (s : State) :
    (noteSat i bits s).pending = s.pending ∧ (noteSat i bits s).free = s.free ∧ (noteSat i bits s).id = s.id ∧
    (noteSat i bits s).modes = s.modes ∧ (noteSat i bits s).regs = s.regs ∧ (noteSat i bits s).clk = s.clk ∧
    (noteSat i bits s).chain = s.chain ∧ (noteSat i bits s).pkt = s.pkt ∧ (noteSat i bits s).out = s.out ∧ (noteSat
    i bits s).sense = s.sense ∧ (noteSat i bits s).gnss = s.gnss ∧ (noteSat i bits s).canA = s.canA ∧ (noteSat i
    bits s).canB = s.canB ∧ (noteSat i bits s).svc = s.svc ∧ (noteSat i bits s).pwr = s.pwr ∧ (noteSat i bits s).sec
    = s.sec ∧ (noteSat i bits s).fw = s.fw ∧ (noteSat i bits s).sect = s.sect := by simp [noteSat]
@[simp] theorem setActive_frame (i : Fin 16) (b : Vector Word 17) (s : State) :
    (setActive i b s).pending = s.pending ∧ (setActive i b s).free = s.free ∧ (setActive i b s).id = s.id ∧
    (setActive i b s).modes = s.modes ∧ (setActive i b s).regs = s.regs ∧ (setActive i b s).clk = s.clk ∧ (setActive
    i b s).chain = s.chain ∧ (setActive i b s).pkt = s.pkt ∧ (setActive i b s).out = s.out ∧ (setActive i b s).sense
    = s.sense ∧ (setActive i b s).gnss = s.gnss ∧ (setActive i b s).canA = s.canA ∧ (setActive i b s).canB = s.canB
    ∧ (setActive i b s).svc = s.svc ∧ (setActive i b s).pwr = s.pwr ∧ (setActive i b s).sec = s.sec ∧ (setActive i b
    s).fw = s.fw ∧ (setActive i b s).sect = s.sect := by simp [setActive]
@[simp] theorem applyCell_frame (c : CoefCell) (s : State) :
    (applyCell c s).pending = s.pending ∧ (applyCell c s).free = s.free ∧ (applyCell c s).id = s.id ∧ (applyCell c
    s).modes = s.modes ∧ (applyCell c s).regs = s.regs ∧ (applyCell c s).clk = s.clk ∧ (applyCell c s).chain =
    s.chain ∧ (applyCell c s).pkt = s.pkt ∧ (applyCell c s).out = s.out ∧ (applyCell c s).sense = s.sense ∧
    (applyCell c s).gnss = s.gnss ∧ (applyCell c s).canA = s.canA ∧ (applyCell c s).canB = s.canB ∧ (applyCell c
    s).svc = s.svc ∧ (applyCell c s).pwr = s.pwr ∧ (applyCell c s).sec = s.sec ∧ (applyCell c s).fw = s.fw ∧
    (applyCell c s).sect = s.sect := by simp [applyCell]
@[simp] theorem applyCells_frame (i : Fin 16) (s : State) :
    (applyCells i s).pending = s.pending ∧ (applyCells i s).free = s.free ∧ (applyCells i s).id = s.id ∧ (applyCells
    i s).modes = s.modes ∧ (applyCells i s).regs = s.regs ∧ (applyCells i s).clk = s.clk ∧ (applyCells i s).chain =
    s.chain ∧ (applyCells i s).pkt = s.pkt ∧ (applyCells i s).out = s.out ∧ (applyCells i s).sense = s.sense ∧
    (applyCells i s).gnss = s.gnss ∧ (applyCells i s).canA = s.canA ∧ (applyCells i s).canB = s.canB ∧ (applyCells i
    s).svc = s.svc ∧ (applyCells i s).pwr = s.pwr ∧ (applyCells i s).sec = s.sec ∧ (applyCells i s).fw = s.fw ∧
    (applyCells i s).sect = s.sect := by simp [applyCells]
@[simp] theorem swapBanks_frame (i : Fin 16) (s : State) :
    (swapBanks i s).pending = s.pending ∧ (swapBanks i s).free = s.free ∧ (swapBanks i s).id = s.id ∧ (swapBanks i
    s).modes = s.modes ∧ (swapBanks i s).regs = s.regs ∧ (swapBanks i s).clk = s.clk ∧ (swapBanks i s).chain =
    s.chain ∧ (swapBanks i s).pkt = s.pkt ∧ (swapBanks i s).out = s.out ∧ (swapBanks i s).sense = s.sense ∧
    (swapBanks i s).gnss = s.gnss ∧ (swapBanks i s).canA = s.canA ∧ (swapBanks i s).canB = s.canB ∧ (swapBanks i
    s).svc = s.svc ∧ (swapBanks i s).pwr = s.pwr ∧ (swapBanks i s).sec = s.sec ∧ (swapBanks i s).fw = s.fw ∧
    (swapBanks i s).sect = s.sect := by simp [swapBanks]
@[simp] theorem writeBound_frame (i : Fin 16) (u e : Int) (s : State) :
    (writeBound i u e s).pending = s.pending ∧ (writeBound i u e s).free = s.free ∧ (writeBound i u e s).id = s.id ∧
    (writeBound i u e s).modes = s.modes ∧ (writeBound i u e s).clk = s.clk ∧ (writeBound i u e s).barr = s.barr ∧
    (writeBound i u e s).chain = s.chain ∧ (writeBound i u e s).pkt = s.pkt ∧ (writeBound i u e s).out = s.out ∧
    (writeBound i u e s).sense = s.sense ∧ (writeBound i u e s).loop = s.loop ∧ (writeBound i u e s).gnss = s.gnss ∧
    (writeBound i u e s).canA = s.canA ∧ (writeBound i u e s).canB = s.canB ∧ (writeBound i u e s).svc = s.svc ∧
    (writeBound i u e s).pwr = s.pwr ∧ (writeBound i u e s).sec = s.sec ∧ (writeBound i u e s).fw = s.fw ∧
    (writeBound i u e s).ev = s.ev ∧ (writeBound i u e s).sect = s.sect := by simp [writeBound]
@[simp] theorem capture_frame (k : Word) (dly : Nat) (r : Sample) (s : State) :
    (capture k dly r s).pending = s.pending ∧ (capture k dly r s).free = s.free ∧ (capture k dly r s).id = s.id ∧
    (capture k dly r s).modes = s.modes ∧ (capture k dly r s).regs = s.regs ∧ (capture k dly r s).clk = s.clk ∧
    (capture k dly r s).barr = s.barr ∧ (capture k dly r s).chain = s.chain ∧ (capture k dly r s).pkt = s.pkt ∧
    (capture k dly r s).out = s.out ∧ (capture k dly r s).sense = s.sense ∧ (capture k dly r s).gnss = s.gnss ∧
    (capture k dly r s).canA = s.canA ∧ (capture k dly r s).canB = s.canB ∧ (capture k dly r s).svc = s.svc ∧
    (capture k dly r s).pwr = s.pwr ∧ (capture k dly r s).sec = s.sec ∧ (capture k dly r s).fw = s.fw ∧ (capture k
    dly r s).ev = s.ev ∧ (capture k dly r s).sect = s.sect := by simp [capture]
@[simp] theorem loopSample_frame (i : Fin 16) (fb : Int) (s : State) :
    (loopSample i fb s).pending = s.pending ∧ (loopSample i fb s).free = s.free ∧ (loopSample i fb s).id = s.id ∧
    (loopSample i fb s).modes = s.modes ∧ (loopSample i fb s).chain = s.chain ∧ (loopSample i fb s).pkt = s.pkt ∧
    (loopSample i fb s).sense = s.sense ∧ (loopSample i fb s).gnss = s.gnss ∧ (loopSample i fb s).canA = s.canA ∧
    (loopSample i fb s).canB = s.canB ∧ (loopSample i fb s).svc = s.svc ∧ (loopSample i fb s).pwr = s.pwr ∧
    (loopSample i fb s).sec = s.sec ∧ (loopSample i fb s).fw = s.fw ∧ (loopSample i fb s).sect = s.sect := by
  simp [loopSample]
@[simp] theorem loopSwapAct_frame (i : Fin 16) (s : State) :
    (loopSwapAct i s).pending = s.pending ∧ (loopSwapAct i s).free = s.free ∧ (loopSwapAct i s).id = s.id ∧
    (loopSwapAct i s).modes = s.modes ∧ (loopSwapAct i s).regs = s.regs ∧ (loopSwapAct i s).chain = s.chain ∧
    (loopSwapAct i s).pkt = s.pkt ∧ (loopSwapAct i s).out = s.out ∧ (loopSwapAct i s).sense = s.sense ∧ (loopSwapAct
    i s).gnss = s.gnss ∧ (loopSwapAct i s).canA = s.canA ∧ (loopSwapAct i s).canB = s.canB ∧ (loopSwapAct i s).svc =
    s.svc ∧ (loopSwapAct i s).pwr = s.pwr ∧ (loopSwapAct i s).sec = s.sec ∧ (loopSwapAct i s).fw = s.fw ∧
    (loopSwapAct i s).sect = s.sect := by
  unfold loopSwapAct; split <;> simp
@[simp] theorem loopStop_frame (m : BitVec 16) (s : State) :
    (loopStop m s).pending = s.pending ∧ (loopStop m s).free = s.free ∧ (loopStop m s).id = s.id ∧ (loopStop m
    s).modes = s.modes ∧ (loopStop m s).regs = s.regs ∧ (loopStop m s).clk = s.clk ∧ (loopStop m s).barr = s.barr ∧
    (loopStop m s).chain = s.chain ∧ (loopStop m s).pkt = s.pkt ∧ (loopStop m s).out = s.out ∧ (loopStop m s).sense
    = s.sense ∧ (loopStop m s).gnss = s.gnss ∧ (loopStop m s).canA = s.canA ∧ (loopStop m s).canB = s.canB ∧
    (loopStop m s).svc = s.svc ∧ (loopStop m s).pwr = s.pwr ∧ (loopStop m s).sec = s.sec ∧ (loopStop m s).fw = s.fw
    ∧ (loopStop m s).ev = s.ev ∧ (loopStop m s).sect = s.sect := by simp [loopStop]
@[simp] theorem loopRun_frame (m : BitVec 16) (s : State) :
    (loopRun m s).pending = s.pending ∧ (loopRun m s).free = s.free ∧ (loopRun m s).id = s.id ∧ (loopRun m s).modes
    = s.modes ∧ (loopRun m s).regs = s.regs ∧ (loopRun m s).clk = s.clk ∧ (loopRun m s).barr = s.barr ∧ (loopRun m
    s).chain = s.chain ∧ (loopRun m s).pkt = s.pkt ∧ (loopRun m s).out = s.out ∧ (loopRun m s).sense = s.sense ∧
    (loopRun m s).gnss = s.gnss ∧ (loopRun m s).canA = s.canA ∧ (loopRun m s).canB = s.canB ∧ (loopRun m s).svc =
    s.svc ∧ (loopRun m s).pwr = s.pwr ∧ (loopRun m s).sec = s.sec ∧ (loopRun m s).fw = s.fw ∧ (loopRun m s).ev =
    s.ev ∧ (loopRun m s).sect = s.sect := by simp [loopRun]
@[simp] theorem loopReset_frame (m : BitVec 16) (s : State) :
    (loopReset m s).pending = s.pending ∧ (loopReset m s).free = s.free ∧ (loopReset m s).id = s.id ∧ (loopReset m
    s).modes = s.modes ∧ (loopReset m s).regs = s.regs ∧ (loopReset m s).clk = s.clk ∧ (loopReset m s).barr = s.barr
    ∧ (loopReset m s).chain = s.chain ∧ (loopReset m s).pkt = s.pkt ∧ (loopReset m s).out = s.out ∧ (loopReset m
    s).sense = s.sense ∧ (loopReset m s).gnss = s.gnss ∧ (loopReset m s).canA = s.canA ∧ (loopReset m s).canB =
    s.canB ∧ (loopReset m s).svc = s.svc ∧ (loopReset m s).pwr = s.pwr ∧ (loopReset m s).sec = s.sec ∧ (loopReset m
    s).fw = s.fw ∧ (loopReset m s).ev = s.ev ∧ (loopReset m s).sect = s.sect := by simp [loopReset]
@[simp] theorem testGo_frame (s : State) :
    (testGo s).1.pending = s.pending ∧ (testGo s).1.free = s.free ∧ (testGo s).1.id = s.id ∧ (testGo s).1.modes =
    s.modes ∧ (testGo s).1.regs = s.regs ∧ (testGo s).1.clk = s.clk ∧ (testGo s).1.barr = s.barr ∧ (testGo
    s).1.chain = s.chain ∧ (testGo s).1.pkt = s.pkt ∧ (testGo s).1.out = s.out ∧ (testGo s).1.sense = s.sense ∧
    (testGo s).1.gnss = s.gnss ∧ (testGo s).1.canA = s.canA ∧ (testGo s).1.canB = s.canB ∧ (testGo s).1.svc = s.svc
    ∧ (testGo s).1.pwr = s.pwr ∧ (testGo s).1.sec = s.sec ∧ (testGo s).1.fw = s.fw ∧ (testGo s).1.ev = s.ev ∧
    (testGo s).1.sect = s.sect := by
  unfold testGo; dsimp only; (repeat' split) <;> simp
@[simp] theorem testAbort_frame (s : State) :
    (testAbort s).pending = s.pending ∧ (testAbort s).free = s.free ∧ (testAbort s).id = s.id ∧ (testAbort s).modes
    = s.modes ∧ (testAbort s).regs = s.regs ∧ (testAbort s).clk = s.clk ∧ (testAbort s).barr = s.barr ∧ (testAbort
    s).chain = s.chain ∧ (testAbort s).pkt = s.pkt ∧ (testAbort s).out = s.out ∧ (testAbort s).sense = s.sense ∧
    (testAbort s).gnss = s.gnss ∧ (testAbort s).canA = s.canA ∧ (testAbort s).canB = s.canB ∧ (testAbort s).svc =
    s.svc ∧ (testAbort s).pwr = s.pwr ∧ (testAbort s).sec = s.sec ∧ (testAbort s).fw = s.fw ∧ (testAbort s).ev =
    s.ev ∧ (testAbort s).sect = s.sect := by simp [testAbort]
@[simp] theorem captureEnd_frame (s : State) :
    (captureEnd s).pending = s.pending ∧ (captureEnd s).free = s.free ∧ (captureEnd s).id = s.id ∧ (captureEnd
    s).modes = s.modes ∧ (captureEnd s).regs = s.regs ∧ (captureEnd s).clk = s.clk ∧ (captureEnd s).barr = s.barr ∧
    (captureEnd s).chain = s.chain ∧ (captureEnd s).pkt = s.pkt ∧ (captureEnd s).out = s.out ∧ (captureEnd s).sense
    = s.sense ∧ (captureEnd s).gnss = s.gnss ∧ (captureEnd s).canA = s.canA ∧ (captureEnd s).canB = s.canB ∧
    (captureEnd s).svc = s.svc ∧ (captureEnd s).pwr = s.pwr ∧ (captureEnd s).sec = s.sec ∧ (captureEnd s).fw = s.fw
    ∧ (captureEnd s).ev = s.ev ∧ (captureEnd s).sect = s.sect := by simp [captureEnd]
@[simp] theorem loopClr_frame (i : Fin 16) (v : Word) (s : State) :
    (loopClr i v s).pending = s.pending ∧ (loopClr i v s).free = s.free ∧ (loopClr i v s).id = s.id ∧ (loopClr i v
    s).modes = s.modes ∧ (loopClr i v s).regs = s.regs ∧ (loopClr i v s).clk = s.clk ∧ (loopClr i v s).barr = s.barr
    ∧ (loopClr i v s).chain = s.chain ∧ (loopClr i v s).pkt = s.pkt ∧ (loopClr i v s).out = s.out ∧ (loopClr i v
    s).sense = s.sense ∧ (loopClr i v s).gnss = s.gnss ∧ (loopClr i v s).canA = s.canA ∧ (loopClr i v s).canB =
    s.canB ∧ (loopClr i v s).svc = s.svc ∧ (loopClr i v s).pwr = s.pwr ∧ (loopClr i v s).sec = s.sec ∧ (loopClr i v
    s).fw = s.fw ∧ (loopClr i v s).ev = s.ev ∧ (loopClr i v s).sect = s.sect := by simp [loopClr]
@[simp] theorem coefTaken_frame (c : CoefCell) (s : State) :
    (coefTaken c s).pending = s.pending ∧ (coefTaken c s).free = s.free ∧ (coefTaken c s).id = s.id ∧ (coefTaken c
    s).modes = s.modes ∧ (coefTaken c s).regs = s.regs ∧ (coefTaken c s).clk = s.clk ∧ (coefTaken c s).chain =
    s.chain ∧ (coefTaken c s).pkt = s.pkt ∧ (coefTaken c s).out = s.out ∧ (coefTaken c s).sense = s.sense ∧
    (coefTaken c s).gnss = s.gnss ∧ (coefTaken c s).canA = s.canA ∧ (coefTaken c s).canB = s.canB ∧ (coefTaken c
    s).svc = s.svc ∧ (coefTaken c s).pwr = s.pwr ∧ (coefTaken c s).sec = s.sec ∧ (coefTaken c s).fw = s.fw ∧
    (coefTaken c s).sect = s.sect := by
  unfold coefTaken; split <;> simp
@[simp] theorem coefCell_frame (c : CoefCell) (s : State) :
    (coefCell c s).pending = s.pending ∧ (coefCell c s).free = s.free ∧ (coefCell c s).id = s.id ∧ (coefCell c
    s).modes = s.modes ∧ (coefCell c s).regs = s.regs ∧ (coefCell c s).chain = s.chain ∧ (coefCell c s).pkt = s.pkt
    ∧ (coefCell c s).out = s.out ∧ (coefCell c s).sense = s.sense ∧ (coefCell c s).gnss = s.gnss ∧ (coefCell c
    s).canA = s.canA ∧ (coefCell c s).canB = s.canB ∧ (coefCell c s).svc = s.svc ∧ (coefCell c s).pwr = s.pwr ∧
    (coefCell c s).sec = s.sec ∧ (coefCell c s).fw = s.fw ∧ (coefCell c s).sect = s.sect := by
  refine ⟨?_, ?_, ?_, ?_, ?_, ?_, ?_, ?_, ?_, ?_, ?_, ?_, ?_, ?_, ?_, ?_, ?_⟩
  · first
    | rfl
    | (simp [coefCell]; done)
    | (unfold coefCell; dsimp only; (repeat' split) <;> (first | (simp; done) | (rw [foldl_keep (fun s : State => s.pending)]; · simp; · intro s a; (try dsimp only); (repeat' split) <;> simp; done)))
    | (unfold coefCell; rw [onDown_keep (fun s : State => s.pending)] <;> intros <;> simp; done)
    | (unfold coefCell; rw [onUp_keep (fun s : State => s.pending)] <;> intros <;> simp; done)
  · first
    | rfl
    | (simp [coefCell]; done)
    | (unfold coefCell; dsimp only; (repeat' split) <;> (first | (simp; done) | (rw [foldl_keep (fun s : State => s.free)]; · simp; · intro s a; (try dsimp only); (repeat' split) <;> simp; done)))
    | (unfold coefCell; rw [onDown_keep (fun s : State => s.free)] <;> intros <;> simp; done)
    | (unfold coefCell; rw [onUp_keep (fun s : State => s.free)] <;> intros <;> simp; done)
  · first
    | rfl
    | (simp [coefCell]; done)
    | (unfold coefCell; dsimp only; (repeat' split) <;> (first | (simp; done) | (rw [foldl_keep (fun s : State => s.id)]; · simp; · intro s a; (try dsimp only); (repeat' split) <;> simp; done)))
    | (unfold coefCell; rw [onDown_keep (fun s : State => s.id)] <;> intros <;> simp; done)
    | (unfold coefCell; rw [onUp_keep (fun s : State => s.id)] <;> intros <;> simp; done)
  · first
    | rfl
    | (simp [coefCell]; done)
    | (unfold coefCell; dsimp only; (repeat' split) <;> (first | (simp; done) | (rw [foldl_keep (fun s : State => s.modes)]; · simp; · intro s a; (try dsimp only); (repeat' split) <;> simp; done)))
    | (unfold coefCell; rw [onDown_keep (fun s : State => s.modes)] <;> intros <;> simp; done)
    | (unfold coefCell; rw [onUp_keep (fun s : State => s.modes)] <;> intros <;> simp; done)
  · first
    | rfl
    | (simp [coefCell]; done)
    | (unfold coefCell; dsimp only; (repeat' split) <;> (first | (simp; done) | (rw [foldl_keep (fun s : State => s.regs)]; · simp; · intro s a; (try dsimp only); (repeat' split) <;> simp; done)))
    | (unfold coefCell; rw [onDown_keep (fun s : State => s.regs)] <;> intros <;> simp; done)
    | (unfold coefCell; rw [onUp_keep (fun s : State => s.regs)] <;> intros <;> simp; done)
  · first
    | rfl
    | (simp [coefCell]; done)
    | (unfold coefCell; dsimp only; (repeat' split) <;> (first | (simp; done) | (rw [foldl_keep (fun s : State => s.chain)]; · simp; · intro s a; (try dsimp only); (repeat' split) <;> simp; done)))
    | (unfold coefCell; rw [onDown_keep (fun s : State => s.chain)] <;> intros <;> simp; done)
    | (unfold coefCell; rw [onUp_keep (fun s : State => s.chain)] <;> intros <;> simp; done)
  · first
    | rfl
    | (simp [coefCell]; done)
    | (unfold coefCell; dsimp only; (repeat' split) <;> (first | (simp; done) | (rw [foldl_keep (fun s : State => s.pkt)]; · simp; · intro s a; (try dsimp only); (repeat' split) <;> simp; done)))
    | (unfold coefCell; rw [onDown_keep (fun s : State => s.pkt)] <;> intros <;> simp; done)
    | (unfold coefCell; rw [onUp_keep (fun s : State => s.pkt)] <;> intros <;> simp; done)
  · first
    | rfl
    | (simp [coefCell]; done)
    | (unfold coefCell; dsimp only; (repeat' split) <;> (first | (simp; done) | (rw [foldl_keep (fun s : State => s.out)]; · simp; · intro s a; (try dsimp only); (repeat' split) <;> simp; done)))
    | (unfold coefCell; rw [onDown_keep (fun s : State => s.out)] <;> intros <;> simp; done)
    | (unfold coefCell; rw [onUp_keep (fun s : State => s.out)] <;> intros <;> simp; done)
  · first
    | rfl
    | (simp [coefCell]; done)
    | (unfold coefCell; dsimp only; (repeat' split) <;> (first | (simp; done) | (rw [foldl_keep (fun s : State => s.sense)]; · simp; · intro s a; (try dsimp only); (repeat' split) <;> simp; done)))
    | (unfold coefCell; rw [onDown_keep (fun s : State => s.sense)] <;> intros <;> simp; done)
    | (unfold coefCell; rw [onUp_keep (fun s : State => s.sense)] <;> intros <;> simp; done)
  · first
    | rfl
    | (simp [coefCell]; done)
    | (unfold coefCell; dsimp only; (repeat' split) <;> (first | (simp; done) | (rw [foldl_keep (fun s : State => s.gnss)]; · simp; · intro s a; (try dsimp only); (repeat' split) <;> simp; done)))
    | (unfold coefCell; rw [onDown_keep (fun s : State => s.gnss)] <;> intros <;> simp; done)
    | (unfold coefCell; rw [onUp_keep (fun s : State => s.gnss)] <;> intros <;> simp; done)
  · first
    | rfl
    | (simp [coefCell]; done)
    | (unfold coefCell; dsimp only; (repeat' split) <;> (first | (simp; done) | (rw [foldl_keep (fun s : State => s.canA)]; · simp; · intro s a; (try dsimp only); (repeat' split) <;> simp; done)))
    | (unfold coefCell; rw [onDown_keep (fun s : State => s.canA)] <;> intros <;> simp; done)
    | (unfold coefCell; rw [onUp_keep (fun s : State => s.canA)] <;> intros <;> simp; done)
  · first
    | rfl
    | (simp [coefCell]; done)
    | (unfold coefCell; dsimp only; (repeat' split) <;> (first | (simp; done) | (rw [foldl_keep (fun s : State => s.canB)]; · simp; · intro s a; (try dsimp only); (repeat' split) <;> simp; done)))
    | (unfold coefCell; rw [onDown_keep (fun s : State => s.canB)] <;> intros <;> simp; done)
    | (unfold coefCell; rw [onUp_keep (fun s : State => s.canB)] <;> intros <;> simp; done)
  · first
    | rfl
    | (simp [coefCell]; done)
    | (unfold coefCell; dsimp only; (repeat' split) <;> (first | (simp; done) | (rw [foldl_keep (fun s : State => s.svc)]; · simp; · intro s a; (try dsimp only); (repeat' split) <;> simp; done)))
    | (unfold coefCell; rw [onDown_keep (fun s : State => s.svc)] <;> intros <;> simp; done)
    | (unfold coefCell; rw [onUp_keep (fun s : State => s.svc)] <;> intros <;> simp; done)
  · first
    | rfl
    | (simp [coefCell]; done)
    | (unfold coefCell; dsimp only; (repeat' split) <;> (first | (simp; done) | (rw [foldl_keep (fun s : State => s.pwr)]; · simp; · intro s a; (try dsimp only); (repeat' split) <;> simp; done)))
    | (unfold coefCell; rw [onDown_keep (fun s : State => s.pwr)] <;> intros <;> simp; done)
    | (unfold coefCell; rw [onUp_keep (fun s : State => s.pwr)] <;> intros <;> simp; done)
  · first
    | rfl
    | (simp [coefCell]; done)
    | (unfold coefCell; dsimp only; (repeat' split) <;> (first | (simp; done) | (rw [foldl_keep (fun s : State => s.sec)]; · simp; · intro s a; (try dsimp only); (repeat' split) <;> simp; done)))
    | (unfold coefCell; rw [onDown_keep (fun s : State => s.sec)] <;> intros <;> simp; done)
    | (unfold coefCell; rw [onUp_keep (fun s : State => s.sec)] <;> intros <;> simp; done)
  · first
    | rfl
    | (simp [coefCell]; done)
    | (unfold coefCell; dsimp only; (repeat' split) <;> (first | (simp; done) | (rw [foldl_keep (fun s : State => s.fw)]; · simp; · intro s a; (try dsimp only); (repeat' split) <;> simp; done)))
    | (unfold coefCell; rw [onDown_keep (fun s : State => s.fw)] <;> intros <;> simp; done)
    | (unfold coefCell; rw [onUp_keep (fun s : State => s.fw)] <;> intros <;> simp; done)
  · first
    | rfl
    | (simp [coefCell]; done)
    | (unfold coefCell; dsimp only; (repeat' split) <;> (first | (simp; done) | (rw [foldl_keep (fun s : State => s.sect)]; · simp; · intro s a; (try dsimp only); (repeat' split) <;> simp; done)))
    | (unfold coefCell; rw [onDown_keep (fun s : State => s.sect)] <;> intros <;> simp; done)
    | (unfold coefCell; rw [onUp_keep (fun s : State => s.sect)] <;> intros <;> simp; done)

end Sys2Proof.Laws
end

