-- ==== Sys2Proof/Laws/FramesField.lean ====
section
/-! SUPPORT. Frames of field registers, the link, the timebase and the barrier.
One lemma for each operation, of the parts of the state that it leaves as they were. -/

namespace Sys2Proof.Laws

open Sys2Proof.Machine

@[simp] theorem closeFieldRec_frame (seq : BitVec 31) (s : State) :
    (closeFieldRec seq s).pending = s.pending ∧ (closeFieldRec seq s).free = s.free ∧ (closeFieldRec seq s).id =
    s.id ∧ (closeFieldRec seq s).regs = s.regs ∧ (closeFieldRec seq s).clk = s.clk ∧ (closeFieldRec seq s).chain =
    s.chain ∧ (closeFieldRec seq s).pkt = s.pkt ∧ (closeFieldRec seq s).out = s.out ∧ (closeFieldRec seq s).sense =
    s.sense ∧ (closeFieldRec seq s).loop = s.loop ∧ (closeFieldRec seq s).gnss = s.gnss ∧ (closeFieldRec seq s).canA
    = s.canA ∧ (closeFieldRec seq s).canB = s.canB ∧ (closeFieldRec seq s).svc = s.svc ∧ (closeFieldRec seq s).pwr =
    s.pwr ∧ (closeFieldRec seq s).sec = s.sec ∧ (closeFieldRec seq s).fw = s.fw ∧ (closeFieldRec seq s).sect =
    s.sect := by
  unfold closeFieldRec; dsimp only; (repeat' split) <;> simp
/-- A value that a field part leaves is left where its conditions are asked first. -/
theorem orElse_keep {α : Type} (f : State → α) (c : Option Ans) (s : State) (act : State → State × Ans)
    (h : ∀ u, f (act u).1 = f u) : f (orElse c s act).1 = f s := by
  unfold orElse; split
  · rfl
  · exact h s
@[simp] theorem loopCmd_frame (v : Word) (s : State) :
    (loopCmd v s).pending = s.pending ∧ (loopCmd v s).free = s.free ∧ (loopCmd v s).id = s.id ∧ (loopCmd v s).modes
    = s.modes ∧ (loopCmd v s).regs = s.regs ∧ (loopCmd v s).clk = s.clk ∧ (loopCmd v s).barr = s.barr ∧ (loopCmd v
    s).chain = s.chain ∧ (loopCmd v s).pkt = s.pkt ∧ (loopCmd v s).out = s.out ∧ (loopCmd v s).sense = s.sense ∧
    (loopCmd v s).gnss = s.gnss ∧ (loopCmd v s).canA = s.canA ∧ (loopCmd v s).canB = s.canB ∧ (loopCmd v s).svc =
    s.svc ∧ (loopCmd v s).pwr = s.pwr ∧ (loopCmd v s).sec = s.sec ∧ (loopCmd v s).fw = s.fw ∧ (loopCmd v s).ev =
    s.ev ∧ (loopCmd v s).sect = s.sect := by
  unfold loopCmd; split <;> simp
@[simp] theorem fieldCommand_frame (a : Nat) (v : Word) (s : State) :
    (fieldCommand a v s).pending = s.pending ∧ (fieldCommand a v s).free = s.free ∧ (fieldCommand a v s).id = s.id ∧
    (fieldCommand a v s).regs = s.regs ∧ (fieldCommand a v s).chain = s.chain ∧ (fieldCommand a v s).gnss = s.gnss ∧
    (fieldCommand a v s).canA = s.canA ∧ (fieldCommand a v s).canB = s.canB ∧ (fieldCommand a v s).svc = s.svc ∧
    (fieldCommand a v s).pwr = s.pwr ∧ (fieldCommand a v s).sec = s.sec := by
  unfold fieldCommand; split <;> simp
@[simp] theorem fieldPut_frame (a : Nat) (v : Word) (s : State) :
    (fieldPut a v s).pending = s.pending ∧ (fieldPut a v s).free = s.free ∧ (fieldPut a v s).id = s.id ∧ (fieldPut a
    v s).chain = s.chain ∧ (fieldPut a v s).gnss = s.gnss ∧ (fieldPut a v s).canA = s.canA ∧ (fieldPut a v s).canB =
    s.canB ∧ (fieldPut a v s).svc = s.svc ∧ (fieldPut a v s).pwr = s.pwr ∧ (fieldPut a v s).sec = s.sec := by
  unfold fieldPut; split <;> simp
@[simp] theorem fieldWrite_frame (a : Nat) (value mask : Word) (s : State) :
    (fieldWrite a value mask s).1.pending = s.pending ∧ (fieldWrite a value mask s).1.free = s.free ∧ (fieldWrite a
    value mask s).1.id = s.id ∧ (fieldWrite a value mask s).1.chain = s.chain ∧ (fieldWrite a value mask s).1.gnss =
    s.gnss ∧ (fieldWrite a value mask s).1.canA = s.canA ∧ (fieldWrite a value mask s).1.canB = s.canB ∧ (fieldWrite
    a value mask s).1.svc = s.svc ∧ (fieldWrite a value mask s).1.pwr = s.pwr ∧ (fieldWrite a value mask s).1.sec =
    s.sec := by
  unfold fieldWrite; split <;> simp
@[simp] theorem fieldReadAct_frame (a : Nat) (s : State) :
    (fieldReadAct a s).pending = s.pending ∧ (fieldReadAct a s).free = s.free ∧ (fieldReadAct a s).id = s.id ∧
    (fieldReadAct a s).modes = s.modes ∧ (fieldReadAct a s).regs = s.regs ∧ (fieldReadAct a s).clk = s.clk ∧
    (fieldReadAct a s).barr = s.barr ∧ (fieldReadAct a s).chain = s.chain ∧ (fieldReadAct a s).pkt = s.pkt ∧
    (fieldReadAct a s).out = s.out ∧ (fieldReadAct a s).sense = s.sense ∧ (fieldReadAct a s).loop = s.loop ∧
    (fieldReadAct a s).gnss = s.gnss ∧ (fieldReadAct a s).canA = s.canA ∧ (fieldReadAct a s).canB = s.canB ∧
    (fieldReadAct a s).svc = s.svc ∧ (fieldReadAct a s).sec = s.sec ∧ (fieldReadAct a s).fw = s.fw ∧ (fieldReadAct a
    s).ev = s.ev ∧ (fieldReadAct a s).sect = s.sect := by simp [fieldReadAct]
@[simp] theorem ochSetField_frame (b : List Byte) (s : State) :
    (ochSetField b s).1.pending = s.pending ∧ (ochSetField b s).1.free = s.free ∧ (ochSetField b s).1.id = s.id ∧
    (ochSetField b s).1.modes = s.modes ∧ (ochSetField b s).1.regs = s.regs ∧ (ochSetField b s).1.clk = s.clk ∧
    (ochSetField b s).1.chain = s.chain ∧ (ochSetField b s).1.pkt = s.pkt ∧ (ochSetField b s).1.sense = s.sense ∧
    (ochSetField b s).1.loop = s.loop ∧ (ochSetField b s).1.gnss = s.gnss ∧ (ochSetField b s).1.canA = s.canA ∧
    (ochSetField b s).1.canB = s.canB ∧ (ochSetField b s).1.svc = s.svc ∧ (ochSetField b s).1.pwr = s.pwr ∧
    (ochSetField b s).1.sec = s.sec ∧ (ochSetField b s).1.fw = s.fw ∧ (ochSetField b s).1.sect = s.sect := by
  refine ⟨?_, ?_, ?_, ?_, ?_, ?_, ?_, ?_, ?_, ?_, ?_, ?_, ?_, ?_, ?_, ?_, ?_, ?_⟩
  · unfold ochSetField; (try dsimp only); repeat' (first | (intro _) | split | rw [foldl_keep (fun s : State => s.pending)] | rw [foldl_keep (fun x : List Edge × State => x.2.pending)] | rw [onDown_keep (fun s : State => s.pending)] | rw [onUp_keep (fun s : State => s.pending)] | rw [orElse_keep (fun s : State => s.pending)])
    all_goals first | rfl | (simp; done)
  · unfold ochSetField; (try dsimp only); repeat' (first | (intro _) | split | rw [foldl_keep (fun s : State => s.free)] | rw [foldl_keep (fun x : List Edge × State => x.2.free)] | rw [onDown_keep (fun s : State => s.free)] | rw [onUp_keep (fun s : State => s.free)] | rw [orElse_keep (fun s : State => s.free)])
    all_goals first | rfl | (simp; done)
  · unfold ochSetField; (try dsimp only); repeat' (first | (intro _) | split | rw [foldl_keep (fun s : State => s.id)] | rw [foldl_keep (fun x : List Edge × State => x.2.id)] | rw [onDown_keep (fun s : State => s.id)] | rw [onUp_keep (fun s : State => s.id)] | rw [orElse_keep (fun s : State => s.id)])
    all_goals first | rfl | (simp; done)
  · unfold ochSetField; (try dsimp only); repeat' (first | (intro _) | split | rw [foldl_keep (fun s : State => s.modes)] | rw [foldl_keep (fun x : List Edge × State => x.2.modes)] | rw [onDown_keep (fun s : State => s.modes)] | rw [onUp_keep (fun s : State => s.modes)] | rw [orElse_keep (fun s : State => s.modes)])
    all_goals first | rfl | (simp; done)
  · unfold ochSetField; (try dsimp only); repeat' (first | (intro _) | split | rw [foldl_keep (fun s : State => s.regs)] | rw [foldl_keep (fun x : List Edge × State => x.2.regs)] | rw [onDown_keep (fun s : State => s.regs)] | rw [onUp_keep (fun s : State => s.regs)] | rw [orElse_keep (fun s : State => s.regs)])
    all_goals first | rfl | (simp; done)
  · unfold ochSetField; (try dsimp only); repeat' (first | (intro _) | split | rw [foldl_keep (fun s : State => s.clk)] | rw [foldl_keep (fun x : List Edge × State => x.2.clk)] | rw [onDown_keep (fun s : State => s.clk)] | rw [onUp_keep (fun s : State => s.clk)] | rw [orElse_keep (fun s : State => s.clk)])
    all_goals first | rfl | (simp; done)
  · unfold ochSetField; (try dsimp only); repeat' (first | (intro _) | split | rw [foldl_keep (fun s : State => s.chain)] | rw [foldl_keep (fun x : List Edge × State => x.2.chain)] | rw [onDown_keep (fun s : State => s.chain)] | rw [onUp_keep (fun s : State => s.chain)] | rw [orElse_keep (fun s : State => s.chain)])
    all_goals first | rfl | (simp; done)
  · unfold ochSetField; (try dsimp only); repeat' (first | (intro _) | split | rw [foldl_keep (fun s : State => s.pkt)] | rw [foldl_keep (fun x : List Edge × State => x.2.pkt)] | rw [onDown_keep (fun s : State => s.pkt)] | rw [onUp_keep (fun s : State => s.pkt)] | rw [orElse_keep (fun s : State => s.pkt)])
    all_goals first | rfl | (simp; done)
  · unfold ochSetField; (try dsimp only); repeat' (first | (intro _) | split | rw [foldl_keep (fun s : State => s.sense)] | rw [foldl_keep (fun x : List Edge × State => x.2.sense)] | rw [onDown_keep (fun s : State => s.sense)] | rw [onUp_keep (fun s : State => s.sense)] | rw [orElse_keep (fun s : State => s.sense)])
    all_goals first | rfl | (simp; done)
  · unfold ochSetField; (try dsimp only); repeat' (first | (intro _) | split | rw [foldl_keep (fun s : State => s.loop)] | rw [foldl_keep (fun x : List Edge × State => x.2.loop)] | rw [onDown_keep (fun s : State => s.loop)] | rw [onUp_keep (fun s : State => s.loop)] | rw [orElse_keep (fun s : State => s.loop)])
    all_goals first | rfl | (simp; done)
  · unfold ochSetField; (try dsimp only); repeat' (first | (intro _) | split | rw [foldl_keep (fun s : State => s.gnss)] | rw [foldl_keep (fun x : List Edge × State => x.2.gnss)] | rw [onDown_keep (fun s : State => s.gnss)] | rw [onUp_keep (fun s : State => s.gnss)] | rw [orElse_keep (fun s : State => s.gnss)])
    all_goals first | rfl | (simp; done)
  · unfold ochSetField; (try dsimp only); repeat' (first | (intro _) | split | rw [foldl_keep (fun s : State => s.canA)] | rw [foldl_keep (fun x : List Edge × State => x.2.canA)] | rw [onDown_keep (fun s : State => s.canA)] | rw [onUp_keep (fun s : State => s.canA)] | rw [orElse_keep (fun s : State => s.canA)])
    all_goals first | rfl | (simp; done)
  · unfold ochSetField; (try dsimp only); repeat' (first | (intro _) | split | rw [foldl_keep (fun s : State => s.canB)] | rw [foldl_keep (fun x : List Edge × State => x.2.canB)] | rw [onDown_keep (fun s : State => s.canB)] | rw [onUp_keep (fun s : State => s.canB)] | rw [orElse_keep (fun s : State => s.canB)])
    all_goals first | rfl | (simp; done)
  · unfold ochSetField; (try dsimp only); repeat' (first | (intro _) | split | rw [foldl_keep (fun s : State => s.svc)] | rw [foldl_keep (fun x : List Edge × State => x.2.svc)] | rw [onDown_keep (fun s : State => s.svc)] | rw [onUp_keep (fun s : State => s.svc)] | rw [orElse_keep (fun s : State => s.svc)])
    all_goals first | rfl | (simp; done)
  · unfold ochSetField; (try dsimp only); repeat' (first | (intro _) | split | rw [foldl_keep (fun s : State => s.pwr)] | rw [foldl_keep (fun x : List Edge × State => x.2.pwr)] | rw [onDown_keep (fun s : State => s.pwr)] | rw [onUp_keep (fun s : State => s.pwr)] | rw [orElse_keep (fun s : State => s.pwr)])
    all_goals first | rfl | (simp; done)
  · unfold ochSetField; (try dsimp only); repeat' (first | (intro _) | split | rw [foldl_keep (fun s : State => s.sec)] | rw [foldl_keep (fun x : List Edge × State => x.2.sec)] | rw [onDown_keep (fun s : State => s.sec)] | rw [onUp_keep (fun s : State => s.sec)] | rw [orElse_keep (fun s : State => s.sec)])
    all_goals first | rfl | (simp; done)
  · unfold ochSetField; (try dsimp only); repeat' (first | (intro _) | split | rw [foldl_keep (fun s : State => s.fw)] | rw [foldl_keep (fun x : List Edge × State => x.2.fw)] | rw [onDown_keep (fun s : State => s.fw)] | rw [onUp_keep (fun s : State => s.fw)] | rw [orElse_keep (fun s : State => s.fw)])
    all_goals first | rfl | (simp; done)
  · unfold ochSetField; (try dsimp only); repeat' (first | (intro _) | split | rw [foldl_keep (fun s : State => s.sect)] | rw [foldl_keep (fun x : List Edge × State => x.2.sect)] | rw [onDown_keep (fun s : State => s.sect)] | rw [onUp_keep (fun s : State => s.sect)] | rw [orElse_keep (fun s : State => s.sect)])
    all_goals first | rfl | (simp; done)
@[simp] theorem ochTimingField_frame (b : List Byte) (s : State) :
    (ochTimingField b s).1.pending = s.pending ∧ (ochTimingField b s).1.free = s.free ∧ (ochTimingField b s).1.id =
    s.id ∧ (ochTimingField b s).1.modes = s.modes ∧ (ochTimingField b s).1.clk = s.clk ∧ (ochTimingField b s).1.barr
    = s.barr ∧ (ochTimingField b s).1.chain = s.chain ∧ (ochTimingField b s).1.pkt = s.pkt ∧ (ochTimingField b
    s).1.out = s.out ∧ (ochTimingField b s).1.sense = s.sense ∧ (ochTimingField b s).1.loop = s.loop ∧
    (ochTimingField b s).1.gnss = s.gnss ∧ (ochTimingField b s).1.canA = s.canA ∧ (ochTimingField b s).1.canB =
    s.canB ∧ (ochTimingField b s).1.svc = s.svc ∧ (ochTimingField b s).1.pwr = s.pwr ∧ (ochTimingField b s).1.sec =
    s.sec ∧ (ochTimingField b s).1.fw = s.fw ∧ (ochTimingField b s).1.ev = s.ev ∧ (ochTimingField b s).1.sect =
    s.sect := by
  refine ⟨?_, ?_, ?_, ?_, ?_, ?_, ?_, ?_, ?_, ?_, ?_, ?_, ?_, ?_, ?_, ?_, ?_, ?_, ?_, ?_⟩
  · unfold ochTimingField; (try dsimp only); repeat' (first | (intro _) | split | rw [foldl_keep (fun s : State => s.pending)] | rw [foldl_keep (fun x : List Edge × State => x.2.pending)] | rw [onDown_keep (fun s : State => s.pending)] | rw [onUp_keep (fun s : State => s.pending)] | rw [orElse_keep (fun s : State => s.pending)])
    all_goals first | rfl | (simp; done)
  · unfold ochTimingField; (try dsimp only); repeat' (first | (intro _) | split | rw [foldl_keep (fun s : State => s.free)] | rw [foldl_keep (fun x : List Edge × State => x.2.free)] | rw [onDown_keep (fun s : State => s.free)] | rw [onUp_keep (fun s : State => s.free)] | rw [orElse_keep (fun s : State => s.free)])
    all_goals first | rfl | (simp; done)
  · unfold ochTimingField; (try dsimp only); repeat' (first | (intro _) | split | rw [foldl_keep (fun s : State => s.id)] | rw [foldl_keep (fun x : List Edge × State => x.2.id)] | rw [onDown_keep (fun s : State => s.id)] | rw [onUp_keep (fun s : State => s.id)] | rw [orElse_keep (fun s : State => s.id)])
    all_goals first | rfl | (simp; done)
  · unfold ochTimingField; (try dsimp only); repeat' (first | (intro _) | split | rw [foldl_keep (fun s : State => s.modes)] | rw [foldl_keep (fun x : List Edge × State => x.2.modes)] | rw [onDown_keep (fun s : State => s.modes)] | rw [onUp_keep (fun s : State => s.modes)] | rw [orElse_keep (fun s : State => s.modes)])
    all_goals first | rfl | (simp; done)
  · unfold ochTimingField; (try dsimp only); repeat' (first | (intro _) | split | rw [foldl_keep (fun s : State => s.clk)] | rw [foldl_keep (fun x : List Edge × State => x.2.clk)] | rw [onDown_keep (fun s : State => s.clk)] | rw [onUp_keep (fun s : State => s.clk)] | rw [orElse_keep (fun s : State => s.clk)])
    all_goals first | rfl | (simp; done)
  · unfold ochTimingField; (try dsimp only); repeat' (first | (intro _) | split | rw [foldl_keep (fun s : State => s.barr)] | rw [foldl_keep (fun x : List Edge × State => x.2.barr)] | rw [onDown_keep (fun s : State => s.barr)] | rw [onUp_keep (fun s : State => s.barr)] | rw [orElse_keep (fun s : State => s.barr)])
    all_goals first | rfl | (simp; done)
  · unfold ochTimingField; (try dsimp only); repeat' (first | (intro _) | split | rw [foldl_keep (fun s : State => s.chain)] | rw [foldl_keep (fun x : List Edge × State => x.2.chain)] | rw [onDown_keep (fun s : State => s.chain)] | rw [onUp_keep (fun s : State => s.chain)] | rw [orElse_keep (fun s : State => s.chain)])
    all_goals first | rfl | (simp; done)
  · unfold ochTimingField; (try dsimp only); repeat' (first | (intro _) | split | rw [foldl_keep (fun s : State => s.pkt)] | rw [foldl_keep (fun x : List Edge × State => x.2.pkt)] | rw [onDown_keep (fun s : State => s.pkt)] | rw [onUp_keep (fun s : State => s.pkt)] | rw [orElse_keep (fun s : State => s.pkt)])
    all_goals first | rfl | (simp; done)
  · unfold ochTimingField; (try dsimp only); repeat' (first | (intro _) | split | rw [foldl_keep (fun s : State => s.out)] | rw [foldl_keep (fun x : List Edge × State => x.2.out)] | rw [onDown_keep (fun s : State => s.out)] | rw [onUp_keep (fun s : State => s.out)] | rw [orElse_keep (fun s : State => s.out)])
    all_goals first | rfl | (simp; done)
  · unfold ochTimingField; (try dsimp only); repeat' (first | (intro _) | split | rw [foldl_keep (fun s : State => s.sense)] | rw [foldl_keep (fun x : List Edge × State => x.2.sense)] | rw [onDown_keep (fun s : State => s.sense)] | rw [onUp_keep (fun s : State => s.sense)] | rw [orElse_keep (fun s : State => s.sense)])
    all_goals first | rfl | (simp; done)
  · unfold ochTimingField; (try dsimp only); repeat' (first | (intro _) | split | rw [foldl_keep (fun s : State => s.loop)] | rw [foldl_keep (fun x : List Edge × State => x.2.loop)] | rw [onDown_keep (fun s : State => s.loop)] | rw [onUp_keep (fun s : State => s.loop)] | rw [orElse_keep (fun s : State => s.loop)])
    all_goals first | rfl | (simp; done)
  · unfold ochTimingField; (try dsimp only); repeat' (first | (intro _) | split | rw [foldl_keep (fun s : State => s.gnss)] | rw [foldl_keep (fun x : List Edge × State => x.2.gnss)] | rw [onDown_keep (fun s : State => s.gnss)] | rw [onUp_keep (fun s : State => s.gnss)] | rw [orElse_keep (fun s : State => s.gnss)])
    all_goals first | rfl | (simp; done)
  · unfold ochTimingField; (try dsimp only); repeat' (first | (intro _) | split | rw [foldl_keep (fun s : State => s.canA)] | rw [foldl_keep (fun x : List Edge × State => x.2.canA)] | rw [onDown_keep (fun s : State => s.canA)] | rw [onUp_keep (fun s : State => s.canA)] | rw [orElse_keep (fun s : State => s.canA)])
    all_goals first | rfl | (simp; done)
  · unfold ochTimingField; (try dsimp only); repeat' (first | (intro _) | split | rw [foldl_keep (fun s : State => s.canB)] | rw [foldl_keep (fun x : List Edge × State => x.2.canB)] | rw [onDown_keep (fun s : State => s.canB)] | rw [onUp_keep (fun s : State => s.canB)] | rw [orElse_keep (fun s : State => s.canB)])
    all_goals first | rfl | (simp; done)
  · unfold ochTimingField; (try dsimp only); repeat' (first | (intro _) | split | rw [foldl_keep (fun s : State => s.svc)] | rw [foldl_keep (fun x : List Edge × State => x.2.svc)] | rw [onDown_keep (fun s : State => s.svc)] | rw [onUp_keep (fun s : State => s.svc)] | rw [orElse_keep (fun s : State => s.svc)])
    all_goals first | rfl | (simp; done)
  · unfold ochTimingField; (try dsimp only); repeat' (first | (intro _) | split | rw [foldl_keep (fun s : State => s.pwr)] | rw [foldl_keep (fun x : List Edge × State => x.2.pwr)] | rw [onDown_keep (fun s : State => s.pwr)] | rw [onUp_keep (fun s : State => s.pwr)] | rw [orElse_keep (fun s : State => s.pwr)])
    all_goals first | rfl | (simp; done)
  · unfold ochTimingField; (try dsimp only); repeat' (first | (intro _) | split | rw [foldl_keep (fun s : State => s.sec)] | rw [foldl_keep (fun x : List Edge × State => x.2.sec)] | rw [onDown_keep (fun s : State => s.sec)] | rw [onUp_keep (fun s : State => s.sec)] | rw [orElse_keep (fun s : State => s.sec)])
    all_goals first | rfl | (simp; done)
  · unfold ochTimingField; (try dsimp only); repeat' (first | (intro _) | split | rw [foldl_keep (fun s : State => s.fw)] | rw [foldl_keep (fun x : List Edge × State => x.2.fw)] | rw [onDown_keep (fun s : State => s.fw)] | rw [onUp_keep (fun s : State => s.fw)] | rw [orElse_keep (fun s : State => s.fw)])
    all_goals first | rfl | (simp; done)
  · unfold ochTimingField; (try dsimp only); repeat' (first | (intro _) | split | rw [foldl_keep (fun s : State => s.ev)] | rw [foldl_keep (fun x : List Edge × State => x.2.ev)] | rw [onDown_keep (fun s : State => s.ev)] | rw [onUp_keep (fun s : State => s.ev)] | rw [orElse_keep (fun s : State => s.ev)])
    all_goals first | rfl | (simp; done)
  · unfold ochTimingField; (try dsimp only); repeat' (first | (intro _) | split | rw [foldl_keep (fun s : State => s.sect)] | rw [foldl_keep (fun x : List Edge × State => x.2.sect)] | rw [onDown_keep (fun s : State => s.sect)] | rw [onUp_keep (fun s : State => s.sect)] | rw [orElse_keep (fun s : State => s.sect)])
    all_goals first | rfl | (simp; done)
@[simp] theorem clearChannel_frame (n : Fin 32) (s : State) :
    (clearChannel n s).pending = s.pending ∧ (clearChannel n s).free = s.free ∧ (clearChannel n s).id = s.id ∧
    (clearChannel n s).modes = s.modes ∧ (clearChannel n s).regs = s.regs ∧ (clearChannel n s).clk = s.clk ∧
    (clearChannel n s).chain = s.chain ∧ (clearChannel n s).pkt = s.pkt ∧ (clearChannel n s).loop = s.loop ∧
    (clearChannel n s).gnss = s.gnss ∧ (clearChannel n s).canA = s.canA ∧ (clearChannel n s).canB = s.canB ∧
    (clearChannel n s).svc = s.svc ∧ (clearChannel n s).pwr = s.pwr ∧ (clearChannel n s).sec = s.sec ∧ (clearChannel
    n s).fw = s.fw ∧ (clearChannel n s).sect = s.sect := by
  simp [clearChannel]
@[simp] theorem ochClearField_frame (b : List Byte) (s : State) :
    (ochClearField b s).1.pending = s.pending ∧ (ochClearField b s).1.free = s.free ∧ (ochClearField b s).1.id =
    s.id ∧ (ochClearField b s).1.modes = s.modes ∧ (ochClearField b s).1.regs = s.regs ∧ (ochClearField b s).1.clk =
    s.clk ∧ (ochClearField b s).1.chain = s.chain ∧ (ochClearField b s).1.pkt = s.pkt ∧ (ochClearField b s).1.loop =
    s.loop ∧ (ochClearField b s).1.gnss = s.gnss ∧ (ochClearField b s).1.canA = s.canA ∧ (ochClearField b s).1.canB
    = s.canB ∧ (ochClearField b s).1.svc = s.svc ∧ (ochClearField b s).1.pwr = s.pwr ∧ (ochClearField b s).1.sec =
    s.sec ∧ (ochClearField b s).1.fw = s.fw ∧ (ochClearField b s).1.sect = s.sect := by
  refine ⟨?_, ?_, ?_, ?_, ?_, ?_, ?_, ?_, ?_, ?_, ?_, ?_, ?_, ?_, ?_, ?_, ?_⟩
  · unfold ochClearField; (try dsimp only); repeat' (first | (intro _) | split | rw [foldl_keep (fun s : State => s.pending)] | rw [foldl_keep (fun x : List Edge × State => x.2.pending)] | rw [onDown_keep (fun s : State => s.pending)] | rw [onUp_keep (fun s : State => s.pending)] | rw [orElse_keep (fun s : State => s.pending)])
    all_goals first | rfl | (simp; done)
  · unfold ochClearField; (try dsimp only); repeat' (first | (intro _) | split | rw [foldl_keep (fun s : State => s.free)] | rw [foldl_keep (fun x : List Edge × State => x.2.free)] | rw [onDown_keep (fun s : State => s.free)] | rw [onUp_keep (fun s : State => s.free)] | rw [orElse_keep (fun s : State => s.free)])
    all_goals first | rfl | (simp; done)
  · unfold ochClearField; (try dsimp only); repeat' (first | (intro _) | split | rw [foldl_keep (fun s : State => s.id)] | rw [foldl_keep (fun x : List Edge × State => x.2.id)] | rw [onDown_keep (fun s : State => s.id)] | rw [onUp_keep (fun s : State => s.id)] | rw [orElse_keep (fun s : State => s.id)])
    all_goals first | rfl | (simp; done)
  · unfold ochClearField; (try dsimp only); repeat' (first | (intro _) | split | rw [foldl_keep (fun s : State => s.modes)] | rw [foldl_keep (fun x : List Edge × State => x.2.modes)] | rw [onDown_keep (fun s : State => s.modes)] | rw [onUp_keep (fun s : State => s.modes)] | rw [orElse_keep (fun s : State => s.modes)])
    all_goals first | rfl | (simp; done)
  · unfold ochClearField; (try dsimp only); repeat' (first | (intro _) | split | rw [foldl_keep (fun s : State => s.regs)] | rw [foldl_keep (fun x : List Edge × State => x.2.regs)] | rw [onDown_keep (fun s : State => s.regs)] | rw [onUp_keep (fun s : State => s.regs)] | rw [orElse_keep (fun s : State => s.regs)])
    all_goals first | rfl | (simp; done)
  · unfold ochClearField; (try dsimp only); repeat' (first | (intro _) | split | rw [foldl_keep (fun s : State => s.clk)] | rw [foldl_keep (fun x : List Edge × State => x.2.clk)] | rw [onDown_keep (fun s : State => s.clk)] | rw [onUp_keep (fun s : State => s.clk)] | rw [orElse_keep (fun s : State => s.clk)])
    all_goals first | rfl | (simp; done)
  · unfold ochClearField; (try dsimp only); repeat' (first | (intro _) | split | rw [foldl_keep (fun s : State => s.chain)] | rw [foldl_keep (fun x : List Edge × State => x.2.chain)] | rw [onDown_keep (fun s : State => s.chain)] | rw [onUp_keep (fun s : State => s.chain)] | rw [orElse_keep (fun s : State => s.chain)])
    all_goals first | rfl | (simp; done)
  · unfold ochClearField; (try dsimp only); repeat' (first | (intro _) | split | rw [foldl_keep (fun s : State => s.pkt)] | rw [foldl_keep (fun x : List Edge × State => x.2.pkt)] | rw [onDown_keep (fun s : State => s.pkt)] | rw [onUp_keep (fun s : State => s.pkt)] | rw [orElse_keep (fun s : State => s.pkt)])
    all_goals first | rfl | (simp; done)
  · unfold ochClearField; (try dsimp only); repeat' (first | (intro _) | split | rw [foldl_keep (fun s : State => s.loop)] | rw [foldl_keep (fun x : List Edge × State => x.2.loop)] | rw [onDown_keep (fun s : State => s.loop)] | rw [onUp_keep (fun s : State => s.loop)] | rw [orElse_keep (fun s : State => s.loop)])
    all_goals first | rfl | (simp; done)
  · unfold ochClearField; (try dsimp only); repeat' (first | (intro _) | split | rw [foldl_keep (fun s : State => s.gnss)] | rw [foldl_keep (fun x : List Edge × State => x.2.gnss)] | rw [onDown_keep (fun s : State => s.gnss)] | rw [onUp_keep (fun s : State => s.gnss)] | rw [orElse_keep (fun s : State => s.gnss)])
    all_goals first | rfl | (simp; done)
  · unfold ochClearField; (try dsimp only); repeat' (first | (intro _) | split | rw [foldl_keep (fun s : State => s.canA)] | rw [foldl_keep (fun x : List Edge × State => x.2.canA)] | rw [onDown_keep (fun s : State => s.canA)] | rw [onUp_keep (fun s : State => s.canA)] | rw [orElse_keep (fun s : State => s.canA)])
    all_goals first | rfl | (simp; done)
  · unfold ochClearField; (try dsimp only); repeat' (first | (intro _) | split | rw [foldl_keep (fun s : State => s.canB)] | rw [foldl_keep (fun x : List Edge × State => x.2.canB)] | rw [onDown_keep (fun s : State => s.canB)] | rw [onUp_keep (fun s : State => s.canB)] | rw [orElse_keep (fun s : State => s.canB)])
    all_goals first | rfl | (simp; done)
  · unfold ochClearField; (try dsimp only); repeat' (first | (intro _) | split | rw [foldl_keep (fun s : State => s.svc)] | rw [foldl_keep (fun x : List Edge × State => x.2.svc)] | rw [onDown_keep (fun s : State => s.svc)] | rw [onUp_keep (fun s : State => s.svc)] | rw [orElse_keep (fun s : State => s.svc)])
    all_goals first | rfl | (simp; done)
  · unfold ochClearField; (try dsimp only); repeat' (first | (intro _) | split | rw [foldl_keep (fun s : State => s.pwr)] | rw [foldl_keep (fun x : List Edge × State => x.2.pwr)] | rw [onDown_keep (fun s : State => s.pwr)] | rw [onUp_keep (fun s : State => s.pwr)] | rw [orElse_keep (fun s : State => s.pwr)])
    all_goals first | rfl | (simp; done)
  · unfold ochClearField; (try dsimp only); repeat' (first | (intro _) | split | rw [foldl_keep (fun s : State => s.sec)] | rw [foldl_keep (fun x : List Edge × State => x.2.sec)] | rw [onDown_keep (fun s : State => s.sec)] | rw [onUp_keep (fun s : State => s.sec)] | rw [orElse_keep (fun s : State => s.sec)])
    all_goals first | rfl | (simp; done)
  · unfold ochClearField; (try dsimp only); repeat' (first | (intro _) | split | rw [foldl_keep (fun s : State => s.fw)] | rw [foldl_keep (fun x : List Edge × State => x.2.fw)] | rw [onDown_keep (fun s : State => s.fw)] | rw [onUp_keep (fun s : State => s.fw)] | rw [orElse_keep (fun s : State => s.fw)])
    all_goals first | rfl | (simp; done)
  · unfold ochClearField; (try dsimp only); repeat' (first | (intro _) | split | rw [foldl_keep (fun s : State => s.sect)] | rw [foldl_keep (fun x : List Edge × State => x.2.sect)] | rw [onDown_keep (fun s : State => s.sect)] | rw [onUp_keep (fun s : State => s.sect)] | rw [orElse_keep (fun s : State => s.sect)])
    all_goals first | rfl | (simp; done)
@[simp] theorem cutEdges_frame (es : List Edge) (s : State) :
    (cutEdges es s).pending = s.pending ∧ (cutEdges es s).free = s.free ∧ (cutEdges es s).id = s.id ∧ (cutEdges es
    s).modes = s.modes ∧ (cutEdges es s).regs = s.regs ∧ (cutEdges es s).clk = s.clk ∧ (cutEdges es s).barr = s.barr
    ∧ (cutEdges es s).chain = s.chain ∧ (cutEdges es s).pkt = s.pkt ∧ (cutEdges es s).out = s.out ∧ (cutEdges es
    s).sense = s.sense ∧ (cutEdges es s).loop = s.loop ∧ (cutEdges es s).gnss = s.gnss ∧ (cutEdges es s).canA =
    s.canA ∧ (cutEdges es s).canB = s.canB ∧ (cutEdges es s).svc = s.svc ∧ (cutEdges es s).pwr = s.pwr ∧ (cutEdges
    es s).sec = s.sec ∧ (cutEdges es s).ev = s.ev := by simp [cutEdges]
@[simp] theorem dropEdges_frame (mask : Word) (s : State) :
    (dropEdges mask s).pending = s.pending ∧ (dropEdges mask s).free = s.free ∧ (dropEdges mask s).id = s.id ∧
    (dropEdges mask s).modes = s.modes ∧ (dropEdges mask s).regs = s.regs ∧ (dropEdges mask s).clk = s.clk ∧
    (dropEdges mask s).chain = s.chain ∧ (dropEdges mask s).pkt = s.pkt ∧ (dropEdges mask s).sense = s.sense ∧
    (dropEdges mask s).loop = s.loop ∧ (dropEdges mask s).gnss = s.gnss ∧ (dropEdges mask s).canA = s.canA ∧
    (dropEdges mask s).canB = s.canB ∧ (dropEdges mask s).svc = s.svc ∧ (dropEdges mask s).pwr = s.pwr ∧ (dropEdges
    mask s).sec = s.sec ∧ (dropEdges mask s).ev = s.ev := by
  simp [dropEdges]
@[simp] theorem flushChannels_frame (mask : Word) (s : State) :
    (flushChannels mask s).pending = s.pending ∧ (flushChannels mask s).free = s.free ∧ (flushChannels mask s).id =
    s.id ∧ (flushChannels mask s).modes = s.modes ∧ (flushChannels mask s).regs = s.regs ∧ (flushChannels mask
    s).clk = s.clk ∧ (flushChannels mask s).chain = s.chain ∧ (flushChannels mask s).pkt = s.pkt ∧ (flushChannels
    mask s).loop = s.loop ∧ (flushChannels mask s).gnss = s.gnss ∧ (flushChannels mask s).canA = s.canA ∧
    (flushChannels mask s).canB = s.canB ∧ (flushChannels mask s).svc = s.svc ∧ (flushChannels mask s).pwr = s.pwr ∧
    (flushChannels mask s).sec = s.sec := by
  simp [flushChannels]
@[simp] theorem ochFlushField_frame (b : List Byte) (s : State) :
    (ochFlushField b s).1.pending = s.pending ∧ (ochFlushField b s).1.free = s.free ∧ (ochFlushField b s).1.id =
    s.id ∧ (ochFlushField b s).1.modes = s.modes ∧ (ochFlushField b s).1.regs = s.regs ∧ (ochFlushField b s).1.clk =
    s.clk ∧ (ochFlushField b s).1.chain = s.chain ∧ (ochFlushField b s).1.pkt = s.pkt ∧ (ochFlushField b s).1.loop =
    s.loop ∧ (ochFlushField b s).1.gnss = s.gnss ∧ (ochFlushField b s).1.canA = s.canA ∧ (ochFlushField b s).1.canB
    = s.canB ∧ (ochFlushField b s).1.svc = s.svc ∧ (ochFlushField b s).1.pwr = s.pwr ∧ (ochFlushField b s).1.sec =
    s.sec := by
  refine ⟨?_, ?_, ?_, ?_, ?_, ?_, ?_, ?_, ?_, ?_, ?_, ?_, ?_, ?_, ?_⟩
  · unfold ochFlushField; (try dsimp only); repeat' (first | (intro _) | split | rw [foldl_keep (fun s : State => s.pending)] | rw [foldl_keep (fun x : List Edge × State => x.2.pending)] | rw [onDown_keep (fun s : State => s.pending)] | rw [onUp_keep (fun s : State => s.pending)] | rw [orElse_keep (fun s : State => s.pending)])
    all_goals first | rfl | (simp; done)
  · unfold ochFlushField; (try dsimp only); repeat' (first | (intro _) | split | rw [foldl_keep (fun s : State => s.free)] | rw [foldl_keep (fun x : List Edge × State => x.2.free)] | rw [onDown_keep (fun s : State => s.free)] | rw [onUp_keep (fun s : State => s.free)] | rw [orElse_keep (fun s : State => s.free)])
    all_goals first | rfl | (simp; done)
  · unfold ochFlushField; (try dsimp only); repeat' (first | (intro _) | split | rw [foldl_keep (fun s : State => s.id)] | rw [foldl_keep (fun x : List Edge × State => x.2.id)] | rw [onDown_keep (fun s : State => s.id)] | rw [onUp_keep (fun s : State => s.id)] | rw [orElse_keep (fun s : State => s.id)])
    all_goals first | rfl | (simp; done)
  · unfold ochFlushField; (try dsimp only); repeat' (first | (intro _) | split | rw [foldl_keep (fun s : State => s.modes)] | rw [foldl_keep (fun x : List Edge × State => x.2.modes)] | rw [onDown_keep (fun s : State => s.modes)] | rw [onUp_keep (fun s : State => s.modes)] | rw [orElse_keep (fun s : State => s.modes)])
    all_goals first | rfl | (simp; done)
  · unfold ochFlushField; (try dsimp only); repeat' (first | (intro _) | split | rw [foldl_keep (fun s : State => s.regs)] | rw [foldl_keep (fun x : List Edge × State => x.2.regs)] | rw [onDown_keep (fun s : State => s.regs)] | rw [onUp_keep (fun s : State => s.regs)] | rw [orElse_keep (fun s : State => s.regs)])
    all_goals first | rfl | (simp; done)
  · unfold ochFlushField; (try dsimp only); repeat' (first | (intro _) | split | rw [foldl_keep (fun s : State => s.clk)] | rw [foldl_keep (fun x : List Edge × State => x.2.clk)] | rw [onDown_keep (fun s : State => s.clk)] | rw [onUp_keep (fun s : State => s.clk)] | rw [orElse_keep (fun s : State => s.clk)])
    all_goals first | rfl | (simp; done)
  · unfold ochFlushField; (try dsimp only); repeat' (first | (intro _) | split | rw [foldl_keep (fun s : State => s.chain)] | rw [foldl_keep (fun x : List Edge × State => x.2.chain)] | rw [onDown_keep (fun s : State => s.chain)] | rw [onUp_keep (fun s : State => s.chain)] | rw [orElse_keep (fun s : State => s.chain)])
    all_goals first | rfl | (simp; done)
  · unfold ochFlushField; (try dsimp only); repeat' (first | (intro _) | split | rw [foldl_keep (fun s : State => s.pkt)] | rw [foldl_keep (fun x : List Edge × State => x.2.pkt)] | rw [onDown_keep (fun s : State => s.pkt)] | rw [onUp_keep (fun s : State => s.pkt)] | rw [orElse_keep (fun s : State => s.pkt)])
    all_goals first | rfl | (simp; done)
  · unfold ochFlushField; (try dsimp only); repeat' (first | (intro _) | split | rw [foldl_keep (fun s : State => s.loop)] | rw [foldl_keep (fun x : List Edge × State => x.2.loop)] | rw [onDown_keep (fun s : State => s.loop)] | rw [onUp_keep (fun s : State => s.loop)] | rw [orElse_keep (fun s : State => s.loop)])
    all_goals first | rfl | (simp; done)
  · unfold ochFlushField; (try dsimp only); repeat' (first | (intro _) | split | rw [foldl_keep (fun s : State => s.gnss)] | rw [foldl_keep (fun x : List Edge × State => x.2.gnss)] | rw [onDown_keep (fun s : State => s.gnss)] | rw [onUp_keep (fun s : State => s.gnss)] | rw [orElse_keep (fun s : State => s.gnss)])
    all_goals first | rfl | (simp; done)
  · unfold ochFlushField; (try dsimp only); repeat' (first | (intro _) | split | rw [foldl_keep (fun s : State => s.canA)] | rw [foldl_keep (fun x : List Edge × State => x.2.canA)] | rw [onDown_keep (fun s : State => s.canA)] | rw [onUp_keep (fun s : State => s.canA)] | rw [orElse_keep (fun s : State => s.canA)])
    all_goals first | rfl | (simp; done)
  · unfold ochFlushField; (try dsimp only); repeat' (first | (intro _) | split | rw [foldl_keep (fun s : State => s.canB)] | rw [foldl_keep (fun x : List Edge × State => x.2.canB)] | rw [onDown_keep (fun s : State => s.canB)] | rw [onUp_keep (fun s : State => s.canB)] | rw [orElse_keep (fun s : State => s.canB)])
    all_goals first | rfl | (simp; done)
  · unfold ochFlushField; (try dsimp only); repeat' (first | (intro _) | split | rw [foldl_keep (fun s : State => s.svc)] | rw [foldl_keep (fun x : List Edge × State => x.2.svc)] | rw [onDown_keep (fun s : State => s.svc)] | rw [onUp_keep (fun s : State => s.svc)] | rw [orElse_keep (fun s : State => s.svc)])
    all_goals first | rfl | (simp; done)
  · unfold ochFlushField; (try dsimp only); repeat' (first | (intro _) | split | rw [foldl_keep (fun s : State => s.pwr)] | rw [foldl_keep (fun x : List Edge × State => x.2.pwr)] | rw [onDown_keep (fun s : State => s.pwr)] | rw [onUp_keep (fun s : State => s.pwr)] | rw [orElse_keep (fun s : State => s.pwr)])
    all_goals first | rfl | (simp; done)
  · unfold ochFlushField; (try dsimp only); repeat' (first | (intro _) | split | rw [foldl_keep (fun s : State => s.sec)] | rw [foldl_keep (fun x : List Edge × State => x.2.sec)] | rw [onDown_keep (fun s : State => s.sec)] | rw [onUp_keep (fun s : State => s.sec)] | rw [orElse_keep (fun s : State => s.sec)])
    all_goals first | rfl | (simp; done)
@[simp] theorem sinReadField_frame (s : State) :
    (sinReadField s).1.pending = s.pending ∧ (sinReadField s).1.free = s.free ∧ (sinReadField s).1.id = s.id ∧
    (sinReadField s).1.modes = s.modes ∧ (sinReadField s).1.regs = s.regs ∧ (sinReadField s).1.clk = s.clk ∧
    (sinReadField s).1.barr = s.barr ∧ (sinReadField s).1.chain = s.chain ∧ (sinReadField s).1.pkt = s.pkt ∧
    (sinReadField s).1.out = s.out ∧ (sinReadField s).1.sense = s.sense ∧ (sinReadField s).1.loop = s.loop ∧
    (sinReadField s).1.gnss = s.gnss ∧ (sinReadField s).1.canA = s.canA ∧ (sinReadField s).1.canB = s.canB ∧
    (sinReadField s).1.svc = s.svc ∧ (sinReadField s).1.pwr = s.pwr ∧ (sinReadField s).1.sec = s.sec ∧ (sinReadField
    s).1.fw = s.fw ∧ (sinReadField s).1.ev = s.ev ∧ (sinReadField s).1.sect = s.sect := by
  refine ⟨?_, ?_, ?_, ?_, ?_, ?_, ?_, ?_, ?_, ?_, ?_, ?_, ?_, ?_, ?_, ?_, ?_, ?_, ?_, ?_, ?_⟩
  · unfold sinReadField; (try dsimp only); repeat' (first | (intro _) | split | rw [foldl_keep (fun s : State => s.pending)] | rw [foldl_keep (fun x : List Edge × State => x.2.pending)] | rw [onDown_keep (fun s : State => s.pending)] | rw [onUp_keep (fun s : State => s.pending)] | rw [orElse_keep (fun s : State => s.pending)])
    all_goals first | rfl | (simp; done)
  · unfold sinReadField; (try dsimp only); repeat' (first | (intro _) | split | rw [foldl_keep (fun s : State => s.free)] | rw [foldl_keep (fun x : List Edge × State => x.2.free)] | rw [onDown_keep (fun s : State => s.free)] | rw [onUp_keep (fun s : State => s.free)] | rw [orElse_keep (fun s : State => s.free)])
    all_goals first | rfl | (simp; done)
  · unfold sinReadField; (try dsimp only); repeat' (first | (intro _) | split | rw [foldl_keep (fun s : State => s.id)] | rw [foldl_keep (fun x : List Edge × State => x.2.id)] | rw [onDown_keep (fun s : State => s.id)] | rw [onUp_keep (fun s : State => s.id)] | rw [orElse_keep (fun s : State => s.id)])
    all_goals first | rfl | (simp; done)
  · unfold sinReadField; (try dsimp only); repeat' (first | (intro _) | split | rw [foldl_keep (fun s : State => s.modes)] | rw [foldl_keep (fun x : List Edge × State => x.2.modes)] | rw [onDown_keep (fun s : State => s.modes)] | rw [onUp_keep (fun s : State => s.modes)] | rw [orElse_keep (fun s : State => s.modes)])
    all_goals first | rfl | (simp; done)
  · unfold sinReadField; (try dsimp only); repeat' (first | (intro _) | split | rw [foldl_keep (fun s : State => s.regs)] | rw [foldl_keep (fun x : List Edge × State => x.2.regs)] | rw [onDown_keep (fun s : State => s.regs)] | rw [onUp_keep (fun s : State => s.regs)] | rw [orElse_keep (fun s : State => s.regs)])
    all_goals first | rfl | (simp; done)
  · unfold sinReadField; (try dsimp only); repeat' (first | (intro _) | split | rw [foldl_keep (fun s : State => s.clk)] | rw [foldl_keep (fun x : List Edge × State => x.2.clk)] | rw [onDown_keep (fun s : State => s.clk)] | rw [onUp_keep (fun s : State => s.clk)] | rw [orElse_keep (fun s : State => s.clk)])
    all_goals first | rfl | (simp; done)
  · unfold sinReadField; (try dsimp only); repeat' (first | (intro _) | split | rw [foldl_keep (fun s : State => s.barr)] | rw [foldl_keep (fun x : List Edge × State => x.2.barr)] | rw [onDown_keep (fun s : State => s.barr)] | rw [onUp_keep (fun s : State => s.barr)] | rw [orElse_keep (fun s : State => s.barr)])
    all_goals first | rfl | (simp; done)
  · unfold sinReadField; (try dsimp only); repeat' (first | (intro _) | split | rw [foldl_keep (fun s : State => s.chain)] | rw [foldl_keep (fun x : List Edge × State => x.2.chain)] | rw [onDown_keep (fun s : State => s.chain)] | rw [onUp_keep (fun s : State => s.chain)] | rw [orElse_keep (fun s : State => s.chain)])
    all_goals first | rfl | (simp; done)
  · unfold sinReadField; (try dsimp only); repeat' (first | (intro _) | split | rw [foldl_keep (fun s : State => s.pkt)] | rw [foldl_keep (fun x : List Edge × State => x.2.pkt)] | rw [onDown_keep (fun s : State => s.pkt)] | rw [onUp_keep (fun s : State => s.pkt)] | rw [orElse_keep (fun s : State => s.pkt)])
    all_goals first | rfl | (simp; done)
  · unfold sinReadField; (try dsimp only); repeat' (first | (intro _) | split | rw [foldl_keep (fun s : State => s.out)] | rw [foldl_keep (fun x : List Edge × State => x.2.out)] | rw [onDown_keep (fun s : State => s.out)] | rw [onUp_keep (fun s : State => s.out)] | rw [orElse_keep (fun s : State => s.out)])
    all_goals first | rfl | (simp; done)
  · unfold sinReadField; (try dsimp only); repeat' (first | (intro _) | split | rw [foldl_keep (fun s : State => s.sense)] | rw [foldl_keep (fun x : List Edge × State => x.2.sense)] | rw [onDown_keep (fun s : State => s.sense)] | rw [onUp_keep (fun s : State => s.sense)] | rw [orElse_keep (fun s : State => s.sense)])
    all_goals first | rfl | (simp; done)
  · unfold sinReadField; (try dsimp only); repeat' (first | (intro _) | split | rw [foldl_keep (fun s : State => s.loop)] | rw [foldl_keep (fun x : List Edge × State => x.2.loop)] | rw [onDown_keep (fun s : State => s.loop)] | rw [onUp_keep (fun s : State => s.loop)] | rw [orElse_keep (fun s : State => s.loop)])
    all_goals first | rfl | (simp; done)
  · unfold sinReadField; (try dsimp only); repeat' (first | (intro _) | split | rw [foldl_keep (fun s : State => s.gnss)] | rw [foldl_keep (fun x : List Edge × State => x.2.gnss)] | rw [onDown_keep (fun s : State => s.gnss)] | rw [onUp_keep (fun s : State => s.gnss)] | rw [orElse_keep (fun s : State => s.gnss)])
    all_goals first | rfl | (simp; done)
  · unfold sinReadField; (try dsimp only); repeat' (first | (intro _) | split | rw [foldl_keep (fun s : State => s.canA)] | rw [foldl_keep (fun x : List Edge × State => x.2.canA)] | rw [onDown_keep (fun s : State => s.canA)] | rw [onUp_keep (fun s : State => s.canA)] | rw [orElse_keep (fun s : State => s.canA)])
    all_goals first | rfl | (simp; done)
  · unfold sinReadField; (try dsimp only); repeat' (first | (intro _) | split | rw [foldl_keep (fun s : State => s.canB)] | rw [foldl_keep (fun x : List Edge × State => x.2.canB)] | rw [onDown_keep (fun s : State => s.canB)] | rw [onUp_keep (fun s : State => s.canB)] | rw [orElse_keep (fun s : State => s.canB)])
    all_goals first | rfl | (simp; done)
  · unfold sinReadField; (try dsimp only); repeat' (first | (intro _) | split | rw [foldl_keep (fun s : State => s.svc)] | rw [foldl_keep (fun x : List Edge × State => x.2.svc)] | rw [onDown_keep (fun s : State => s.svc)] | rw [onUp_keep (fun s : State => s.svc)] | rw [orElse_keep (fun s : State => s.svc)])
    all_goals first | rfl | (simp; done)
  · unfold sinReadField; (try dsimp only); repeat' (first | (intro _) | split | rw [foldl_keep (fun s : State => s.pwr)] | rw [foldl_keep (fun x : List Edge × State => x.2.pwr)] | rw [onDown_keep (fun s : State => s.pwr)] | rw [onUp_keep (fun s : State => s.pwr)] | rw [orElse_keep (fun s : State => s.pwr)])
    all_goals first | rfl | (simp; done)
  · unfold sinReadField; (try dsimp only); repeat' (first | (intro _) | split | rw [foldl_keep (fun s : State => s.sec)] | rw [foldl_keep (fun x : List Edge × State => x.2.sec)] | rw [onDown_keep (fun s : State => s.sec)] | rw [onUp_keep (fun s : State => s.sec)] | rw [orElse_keep (fun s : State => s.sec)])
    all_goals first | rfl | (simp; done)
  · unfold sinReadField; (try dsimp only); repeat' (first | (intro _) | split | rw [foldl_keep (fun s : State => s.fw)] | rw [foldl_keep (fun x : List Edge × State => x.2.fw)] | rw [onDown_keep (fun s : State => s.fw)] | rw [onUp_keep (fun s : State => s.fw)] | rw [orElse_keep (fun s : State => s.fw)])
    all_goals first | rfl | (simp; done)
  · unfold sinReadField; (try dsimp only); repeat' (first | (intro _) | split | rw [foldl_keep (fun s : State => s.ev)] | rw [foldl_keep (fun x : List Edge × State => x.2.ev)] | rw [onDown_keep (fun s : State => s.ev)] | rw [onUp_keep (fun s : State => s.ev)] | rw [orElse_keep (fun s : State => s.ev)])
    all_goals first | rfl | (simp; done)
  · unfold sinReadField; (try dsimp only); repeat' (first | (intro _) | split | rw [foldl_keep (fun s : State => s.sect)] | rw [foldl_keep (fun x : List Edge × State => x.2.sect)] | rw [onDown_keep (fun s : State => s.sect)] | rw [onUp_keep (fun s : State => s.sect)] | rw [orElse_keep (fun s : State => s.sect)])
    all_goals first | rfl | (simp; done)
@[simp] theorem fanRestartField_frame (b : List Byte) (s : State) :
    (fanRestartField b s).1.pending = s.pending ∧ (fanRestartField b s).1.free = s.free ∧ (fanRestartField b s).1.id
    = s.id ∧ (fanRestartField b s).1.modes = s.modes ∧ (fanRestartField b s).1.regs = s.regs ∧ (fanRestartField b
    s).1.clk = s.clk ∧ (fanRestartField b s).1.chain = s.chain ∧ (fanRestartField b s).1.pkt = s.pkt ∧
    (fanRestartField b s).1.gnss = s.gnss ∧ (fanRestartField b s).1.canA = s.canA ∧ (fanRestartField b s).1.canB =
    s.canB ∧ (fanRestartField b s).1.svc = s.svc ∧ (fanRestartField b s).1.pwr = s.pwr ∧ (fanRestartField b s).1.sec
    = s.sec ∧ (fanRestartField b s).1.fw = s.fw ∧ (fanRestartField b s).1.sect = s.sect := by
  refine ⟨?_, ?_, ?_, ?_, ?_, ?_, ?_, ?_, ?_, ?_, ?_, ?_, ?_, ?_, ?_, ?_⟩
  · unfold fanRestartField; (try dsimp only); repeat' (first | (intro _) | split | rw [foldl_keep (fun s : State => s.pending)] | rw [foldl_keep (fun x : List Edge × State => x.2.pending)] | rw [onDown_keep (fun s : State => s.pending)] | rw [onUp_keep (fun s : State => s.pending)] | rw [orElse_keep (fun s : State => s.pending)])
    all_goals first | rfl | (simp; done)
  · unfold fanRestartField; (try dsimp only); repeat' (first | (intro _) | split | rw [foldl_keep (fun s : State => s.free)] | rw [foldl_keep (fun x : List Edge × State => x.2.free)] | rw [onDown_keep (fun s : State => s.free)] | rw [onUp_keep (fun s : State => s.free)] | rw [orElse_keep (fun s : State => s.free)])
    all_goals first | rfl | (simp; done)
  · unfold fanRestartField; (try dsimp only); repeat' (first | (intro _) | split | rw [foldl_keep (fun s : State => s.id)] | rw [foldl_keep (fun x : List Edge × State => x.2.id)] | rw [onDown_keep (fun s : State => s.id)] | rw [onUp_keep (fun s : State => s.id)] | rw [orElse_keep (fun s : State => s.id)])
    all_goals first | rfl | (simp; done)
  · unfold fanRestartField; (try dsimp only); repeat' (first | (intro _) | split | rw [foldl_keep (fun s : State => s.modes)] | rw [foldl_keep (fun x : List Edge × State => x.2.modes)] | rw [onDown_keep (fun s : State => s.modes)] | rw [onUp_keep (fun s : State => s.modes)] | rw [orElse_keep (fun s : State => s.modes)])
    all_goals first | rfl | (simp; done)
  · unfold fanRestartField; (try dsimp only); repeat' (first | (intro _) | split | rw [foldl_keep (fun s : State => s.regs)] | rw [foldl_keep (fun x : List Edge × State => x.2.regs)] | rw [onDown_keep (fun s : State => s.regs)] | rw [onUp_keep (fun s : State => s.regs)] | rw [orElse_keep (fun s : State => s.regs)])
    all_goals first | rfl | (simp; done)
  · unfold fanRestartField; (try dsimp only); repeat' (first | (intro _) | split | rw [foldl_keep (fun s : State => s.clk)] | rw [foldl_keep (fun x : List Edge × State => x.2.clk)] | rw [onDown_keep (fun s : State => s.clk)] | rw [onUp_keep (fun s : State => s.clk)] | rw [orElse_keep (fun s : State => s.clk)])
    all_goals first | rfl | (simp; done)
  · unfold fanRestartField; (try dsimp only); repeat' (first | (intro _) | split | rw [foldl_keep (fun s : State => s.chain)] | rw [foldl_keep (fun x : List Edge × State => x.2.chain)] | rw [onDown_keep (fun s : State => s.chain)] | rw [onUp_keep (fun s : State => s.chain)] | rw [orElse_keep (fun s : State => s.chain)])
    all_goals first | rfl | (simp; done)
  · unfold fanRestartField; (try dsimp only); repeat' (first | (intro _) | split | rw [foldl_keep (fun s : State => s.pkt)] | rw [foldl_keep (fun x : List Edge × State => x.2.pkt)] | rw [onDown_keep (fun s : State => s.pkt)] | rw [onUp_keep (fun s : State => s.pkt)] | rw [orElse_keep (fun s : State => s.pkt)])
    all_goals first | rfl | (simp; done)
  · unfold fanRestartField; (try dsimp only); repeat' (first | (intro _) | split | rw [foldl_keep (fun s : State => s.gnss)] | rw [foldl_keep (fun x : List Edge × State => x.2.gnss)] | rw [onDown_keep (fun s : State => s.gnss)] | rw [onUp_keep (fun s : State => s.gnss)] | rw [orElse_keep (fun s : State => s.gnss)])
    all_goals first | rfl | (simp; done)
  · unfold fanRestartField; (try dsimp only); repeat' (first | (intro _) | split | rw [foldl_keep (fun s : State => s.canA)] | rw [foldl_keep (fun x : List Edge × State => x.2.canA)] | rw [onDown_keep (fun s : State => s.canA)] | rw [onUp_keep (fun s : State => s.canA)] | rw [orElse_keep (fun s : State => s.canA)])
    all_goals first | rfl | (simp; done)
  · unfold fanRestartField; (try dsimp only); repeat' (first | (intro _) | split | rw [foldl_keep (fun s : State => s.canB)] | rw [foldl_keep (fun x : List Edge × State => x.2.canB)] | rw [onDown_keep (fun s : State => s.canB)] | rw [onUp_keep (fun s : State => s.canB)] | rw [orElse_keep (fun s : State => s.canB)])
    all_goals first | rfl | (simp; done)
  · unfold fanRestartField; (try dsimp only); repeat' (first | (intro _) | split | rw [foldl_keep (fun s : State => s.svc)] | rw [foldl_keep (fun x : List Edge × State => x.2.svc)] | rw [onDown_keep (fun s : State => s.svc)] | rw [onUp_keep (fun s : State => s.svc)] | rw [orElse_keep (fun s : State => s.svc)])
    all_goals first | rfl | (simp; done)
  · unfold fanRestartField; (try dsimp only); repeat' (first | (intro _) | split | rw [foldl_keep (fun s : State => s.pwr)] | rw [foldl_keep (fun x : List Edge × State => x.2.pwr)] | rw [onDown_keep (fun s : State => s.pwr)] | rw [onUp_keep (fun s : State => s.pwr)] | rw [orElse_keep (fun s : State => s.pwr)])
    all_goals first | rfl | (simp; done)
  · unfold fanRestartField; (try dsimp only); repeat' (first | (intro _) | split | rw [foldl_keep (fun s : State => s.sec)] | rw [foldl_keep (fun x : List Edge × State => x.2.sec)] | rw [onDown_keep (fun s : State => s.sec)] | rw [onUp_keep (fun s : State => s.sec)] | rw [orElse_keep (fun s : State => s.sec)])
    all_goals first | rfl | (simp; done)
  · unfold fanRestartField; (try dsimp only); repeat' (first | (intro _) | split | rw [foldl_keep (fun s : State => s.fw)] | rw [foldl_keep (fun x : List Edge × State => x.2.fw)] | rw [onDown_keep (fun s : State => s.fw)] | rw [onUp_keep (fun s : State => s.fw)] | rw [orElse_keep (fun s : State => s.fw)])
    all_goals first | rfl | (simp; done)
  · unfold fanRestartField; (try dsimp only); repeat' (first | (intro _) | split | rw [foldl_keep (fun s : State => s.sect)] | rw [foldl_keep (fun x : List Edge × State => x.2.sect)] | rw [onDown_keep (fun s : State => s.sect)] | rw [onUp_keep (fun s : State => s.sect)] | rw [orElse_keep (fun s : State => s.sect)])
    all_goals first | rfl | (simp; done)
@[simp] theorem loopReadField_frame (b : List Byte) (s : State) :
    (loopReadField b s).1.pending = s.pending ∧ (loopReadField b s).1.free = s.free ∧ (loopReadField b s).1.id =
    s.id ∧ (loopReadField b s).1.modes = s.modes ∧ (loopReadField b s).1.regs = s.regs ∧ (loopReadField b s).1.clk =
    s.clk ∧ (loopReadField b s).1.barr = s.barr ∧ (loopReadField b s).1.chain = s.chain ∧ (loopReadField b s).1.pkt
    = s.pkt ∧ (loopReadField b s).1.out = s.out ∧ (loopReadField b s).1.sense = s.sense ∧ (loopReadField b s).1.loop
    = s.loop ∧ (loopReadField b s).1.gnss = s.gnss ∧ (loopReadField b s).1.canA = s.canA ∧ (loopReadField b
    s).1.canB = s.canB ∧ (loopReadField b s).1.svc = s.svc ∧ (loopReadField b s).1.pwr = s.pwr ∧ (loopReadField b
    s).1.sec = s.sec ∧ (loopReadField b s).1.fw = s.fw ∧ (loopReadField b s).1.ev = s.ev ∧ (loopReadField b
    s).1.sect = s.sect := by
  refine ⟨?_, ?_, ?_, ?_, ?_, ?_, ?_, ?_, ?_, ?_, ?_, ?_, ?_, ?_, ?_, ?_, ?_, ?_, ?_, ?_, ?_⟩
  · unfold loopReadField; (try dsimp only); repeat' (first | (intro _) | split | rw [foldl_keep (fun s : State => s.pending)] | rw [foldl_keep (fun x : List Edge × State => x.2.pending)] | rw [onDown_keep (fun s : State => s.pending)] | rw [onUp_keep (fun s : State => s.pending)] | rw [orElse_keep (fun s : State => s.pending)])
    all_goals first | rfl | (simp; done)
  · unfold loopReadField; (try dsimp only); repeat' (first | (intro _) | split | rw [foldl_keep (fun s : State => s.free)] | rw [foldl_keep (fun x : List Edge × State => x.2.free)] | rw [onDown_keep (fun s : State => s.free)] | rw [onUp_keep (fun s : State => s.free)] | rw [orElse_keep (fun s : State => s.free)])
    all_goals first | rfl | (simp; done)
  · unfold loopReadField; (try dsimp only); repeat' (first | (intro _) | split | rw [foldl_keep (fun s : State => s.id)] | rw [foldl_keep (fun x : List Edge × State => x.2.id)] | rw [onDown_keep (fun s : State => s.id)] | rw [onUp_keep (fun s : State => s.id)] | rw [orElse_keep (fun s : State => s.id)])
    all_goals first | rfl | (simp; done)
  · unfold loopReadField; (try dsimp only); repeat' (first | (intro _) | split | rw [foldl_keep (fun s : State => s.modes)] | rw [foldl_keep (fun x : List Edge × State => x.2.modes)] | rw [onDown_keep (fun s : State => s.modes)] | rw [onUp_keep (fun s : State => s.modes)] | rw [orElse_keep (fun s : State => s.modes)])
    all_goals first | rfl | (simp; done)
  · unfold loopReadField; (try dsimp only); repeat' (first | (intro _) | split | rw [foldl_keep (fun s : State => s.regs)] | rw [foldl_keep (fun x : List Edge × State => x.2.regs)] | rw [onDown_keep (fun s : State => s.regs)] | rw [onUp_keep (fun s : State => s.regs)] | rw [orElse_keep (fun s : State => s.regs)])
    all_goals first | rfl | (simp; done)
  · unfold loopReadField; (try dsimp only); repeat' (first | (intro _) | split | rw [foldl_keep (fun s : State => s.clk)] | rw [foldl_keep (fun x : List Edge × State => x.2.clk)] | rw [onDown_keep (fun s : State => s.clk)] | rw [onUp_keep (fun s : State => s.clk)] | rw [orElse_keep (fun s : State => s.clk)])
    all_goals first | rfl | (simp; done)
  · unfold loopReadField; (try dsimp only); repeat' (first | (intro _) | split | rw [foldl_keep (fun s : State => s.barr)] | rw [foldl_keep (fun x : List Edge × State => x.2.barr)] | rw [onDown_keep (fun s : State => s.barr)] | rw [onUp_keep (fun s : State => s.barr)] | rw [orElse_keep (fun s : State => s.barr)])
    all_goals first | rfl | (simp; done)
  · unfold loopReadField; (try dsimp only); repeat' (first | (intro _) | split | rw [foldl_keep (fun s : State => s.chain)] | rw [foldl_keep (fun x : List Edge × State => x.2.chain)] | rw [onDown_keep (fun s : State => s.chain)] | rw [onUp_keep (fun s : State => s.chain)] | rw [orElse_keep (fun s : State => s.chain)])
    all_goals first | rfl | (simp; done)
  · unfold loopReadField; (try dsimp only); repeat' (first | (intro _) | split | rw [foldl_keep (fun s : State => s.pkt)] | rw [foldl_keep (fun x : List Edge × State => x.2.pkt)] | rw [onDown_keep (fun s : State => s.pkt)] | rw [onUp_keep (fun s : State => s.pkt)] | rw [orElse_keep (fun s : State => s.pkt)])
    all_goals first | rfl | (simp; done)
  · unfold loopReadField; (try dsimp only); repeat' (first | (intro _) | split | rw [foldl_keep (fun s : State => s.out)] | rw [foldl_keep (fun x : List Edge × State => x.2.out)] | rw [onDown_keep (fun s : State => s.out)] | rw [onUp_keep (fun s : State => s.out)] | rw [orElse_keep (fun s : State => s.out)])
    all_goals first | rfl | (simp; done)
  · unfold loopReadField; (try dsimp only); repeat' (first | (intro _) | split | rw [foldl_keep (fun s : State => s.sense)] | rw [foldl_keep (fun x : List Edge × State => x.2.sense)] | rw [onDown_keep (fun s : State => s.sense)] | rw [onUp_keep (fun s : State => s.sense)] | rw [orElse_keep (fun s : State => s.sense)])
    all_goals first | rfl | (simp; done)
  · unfold loopReadField; (try dsimp only); repeat' (first | (intro _) | split | rw [foldl_keep (fun s : State => s.loop)] | rw [foldl_keep (fun x : List Edge × State => x.2.loop)] | rw [onDown_keep (fun s : State => s.loop)] | rw [onUp_keep (fun s : State => s.loop)] | rw [orElse_keep (fun s : State => s.loop)])
    all_goals first | rfl | (simp; done)
  · unfold loopReadField; (try dsimp only); repeat' (first | (intro _) | split | rw [foldl_keep (fun s : State => s.gnss)] | rw [foldl_keep (fun x : List Edge × State => x.2.gnss)] | rw [onDown_keep (fun s : State => s.gnss)] | rw [onUp_keep (fun s : State => s.gnss)] | rw [orElse_keep (fun s : State => s.gnss)])
    all_goals first | rfl | (simp; done)
  · unfold loopReadField; (try dsimp only); repeat' (first | (intro _) | split | rw [foldl_keep (fun s : State => s.canA)] | rw [foldl_keep (fun x : List Edge × State => x.2.canA)] | rw [onDown_keep (fun s : State => s.canA)] | rw [onUp_keep (fun s : State => s.canA)] | rw [orElse_keep (fun s : State => s.canA)])
    all_goals first | rfl | (simp; done)
  · unfold loopReadField; (try dsimp only); repeat' (first | (intro _) | split | rw [foldl_keep (fun s : State => s.canB)] | rw [foldl_keep (fun x : List Edge × State => x.2.canB)] | rw [onDown_keep (fun s : State => s.canB)] | rw [onUp_keep (fun s : State => s.canB)] | rw [orElse_keep (fun s : State => s.canB)])
    all_goals first | rfl | (simp; done)
  · unfold loopReadField; (try dsimp only); repeat' (first | (intro _) | split | rw [foldl_keep (fun s : State => s.svc)] | rw [foldl_keep (fun x : List Edge × State => x.2.svc)] | rw [onDown_keep (fun s : State => s.svc)] | rw [onUp_keep (fun s : State => s.svc)] | rw [orElse_keep (fun s : State => s.svc)])
    all_goals first | rfl | (simp; done)
  · unfold loopReadField; (try dsimp only); repeat' (first | (intro _) | split | rw [foldl_keep (fun s : State => s.pwr)] | rw [foldl_keep (fun x : List Edge × State => x.2.pwr)] | rw [onDown_keep (fun s : State => s.pwr)] | rw [onUp_keep (fun s : State => s.pwr)] | rw [orElse_keep (fun s : State => s.pwr)])
    all_goals first | rfl | (simp; done)
  · unfold loopReadField; (try dsimp only); repeat' (first | (intro _) | split | rw [foldl_keep (fun s : State => s.sec)] | rw [foldl_keep (fun x : List Edge × State => x.2.sec)] | rw [onDown_keep (fun s : State => s.sec)] | rw [onUp_keep (fun s : State => s.sec)] | rw [orElse_keep (fun s : State => s.sec)])
    all_goals first | rfl | (simp; done)
  · unfold loopReadField; (try dsimp only); repeat' (first | (intro _) | split | rw [foldl_keep (fun s : State => s.fw)] | rw [foldl_keep (fun x : List Edge × State => x.2.fw)] | rw [onDown_keep (fun s : State => s.fw)] | rw [onUp_keep (fun s : State => s.fw)] | rw [orElse_keep (fun s : State => s.fw)])
    all_goals first | rfl | (simp; done)
  · unfold loopReadField; (try dsimp only); repeat' (first | (intro _) | split | rw [foldl_keep (fun s : State => s.ev)] | rw [foldl_keep (fun x : List Edge × State => x.2.ev)] | rw [onDown_keep (fun s : State => s.ev)] | rw [onUp_keep (fun s : State => s.ev)] | rw [orElse_keep (fun s : State => s.ev)])
    all_goals first | rfl | (simp; done)
  · unfold loopReadField; (try dsimp only); repeat' (first | (intro _) | split | rw [foldl_keep (fun s : State => s.sect)] | rw [foldl_keep (fun x : List Edge × State => x.2.sect)] | rw [onDown_keep (fun s : State => s.sect)] | rw [onUp_keep (fun s : State => s.sect)] | rw [orElse_keep (fun s : State => s.sect)])
    all_goals first | rfl | (simp; done)
@[simp] theorem sweepAbortField_frame (sid : Nat) (s : State) :
    (sweepAbortField sid s).pending = s.pending ∧ (sweepAbortField sid s).free = s.free ∧ (sweepAbortField sid s).id
    = s.id ∧ (sweepAbortField sid s).modes = s.modes ∧ (sweepAbortField sid s).regs = s.regs ∧ (sweepAbortField sid
    s).clk = s.clk ∧ (sweepAbortField sid s).chain = s.chain ∧ (sweepAbortField sid s).pkt = s.pkt ∧
    (sweepAbortField sid s).sense = s.sense ∧ (sweepAbortField sid s).loop = s.loop ∧ (sweepAbortField sid s).gnss =
    s.gnss ∧ (sweepAbortField sid s).canA = s.canA ∧ (sweepAbortField sid s).canB = s.canB ∧ (sweepAbortField sid
    s).svc = s.svc ∧ (sweepAbortField sid s).pwr = s.pwr ∧ (sweepAbortField sid s).sec = s.sec ∧ (sweepAbortField
    sid s).fw = s.fw ∧ (sweepAbortField sid s).sect = s.sect := by
  simp [sweepAbortField]
@[simp] theorem loaderRead_frame (s : State) :
    (loaderRead s).1.pending = s.pending ∧ (loaderRead s).1.free = s.free ∧ (loaderRead s).1.id = s.id ∧ (loaderRead
    s).1.modes = s.modes ∧ (loaderRead s).1.regs = s.regs ∧ (loaderRead s).1.clk = s.clk ∧ (loaderRead s).1.barr =
    s.barr ∧ (loaderRead s).1.chain = s.chain ∧ (loaderRead s).1.pkt = s.pkt ∧ (loaderRead s).1.out = s.out ∧
    (loaderRead s).1.sense = s.sense ∧ (loaderRead s).1.loop = s.loop ∧ (loaderRead s).1.gnss = s.gnss ∧ (loaderRead
    s).1.canA = s.canA ∧ (loaderRead s).1.canB = s.canB ∧ (loaderRead s).1.svc = s.svc ∧ (loaderRead s).1.pwr =
    s.pwr ∧ (loaderRead s).1.sec = s.sec ∧ (loaderRead s).1.fw = s.fw ∧ (loaderRead s).1.ev = s.ev ∧ (loaderRead
    s).1.sect = s.sect := by
  simp [loaderRead]
@[simp] theorem fieldPart_frame (o : FieldOp) (s : State) :
    (fieldPart o s).1.pending = s.pending ∧ (fieldPart o s).1.free = s.free ∧ (fieldPart o s).1.id = s.id ∧
    (fieldPart o s).1.modes = s.modes ∧ (fieldPart o s).1.clk = s.clk ∧ (fieldPart o s).1.chain = s.chain ∧
    (fieldPart o s).1.pkt = s.pkt ∧ (fieldPart o s).1.gnss = s.gnss ∧ (fieldPart o s).1.canA = s.canA ∧ (fieldPart o
    s).1.canB = s.canB ∧ (fieldPart o s).1.svc = s.svc ∧ (fieldPart o s).1.pwr = s.pwr ∧ (fieldPart o s).1.sec =
    s.sec := by
  refine ⟨?_, ?_, ?_, ?_, ?_, ?_, ?_, ?_, ?_, ?_, ?_, ?_, ?_⟩
  · unfold fieldPart; (try dsimp only); repeat' (first | (intro _) | split | rw [foldl_keep (fun s : State => s.pending)] | rw [foldl_keep (fun x : List Edge × State => x.2.pending)] | rw [onDown_keep (fun s : State => s.pending)] | rw [onUp_keep (fun s : State => s.pending)] | rw [orElse_keep (fun s : State => s.pending)])
    all_goals first | rfl | (simp; done)
  · unfold fieldPart; (try dsimp only); repeat' (first | (intro _) | split | rw [foldl_keep (fun s : State => s.free)] | rw [foldl_keep (fun x : List Edge × State => x.2.free)] | rw [onDown_keep (fun s : State => s.free)] | rw [onUp_keep (fun s : State => s.free)] | rw [orElse_keep (fun s : State => s.free)])
    all_goals first | rfl | (simp; done)
  · unfold fieldPart; (try dsimp only); repeat' (first | (intro _) | split | rw [foldl_keep (fun s : State => s.id)] | rw [foldl_keep (fun x : List Edge × State => x.2.id)] | rw [onDown_keep (fun s : State => s.id)] | rw [onUp_keep (fun s : State => s.id)] | rw [orElse_keep (fun s : State => s.id)])
    all_goals first | rfl | (simp; done)
  · unfold fieldPart; (try dsimp only); repeat' (first | (intro _) | split | rw [foldl_keep (fun s : State => s.modes)] | rw [foldl_keep (fun x : List Edge × State => x.2.modes)] | rw [onDown_keep (fun s : State => s.modes)] | rw [onUp_keep (fun s : State => s.modes)] | rw [orElse_keep (fun s : State => s.modes)])
    all_goals first | rfl | (simp; done)
  · unfold fieldPart; (try dsimp only); repeat' (first | (intro _) | split | rw [foldl_keep (fun s : State => s.clk)] | rw [foldl_keep (fun x : List Edge × State => x.2.clk)] | rw [onDown_keep (fun s : State => s.clk)] | rw [onUp_keep (fun s : State => s.clk)] | rw [orElse_keep (fun s : State => s.clk)])
    all_goals first | rfl | (simp; done)
  · unfold fieldPart; (try dsimp only); repeat' (first | (intro _) | split | rw [foldl_keep (fun s : State => s.chain)] | rw [foldl_keep (fun x : List Edge × State => x.2.chain)] | rw [onDown_keep (fun s : State => s.chain)] | rw [onUp_keep (fun s : State => s.chain)] | rw [orElse_keep (fun s : State => s.chain)])
    all_goals first | rfl | (simp; done)
  · unfold fieldPart; (try dsimp only); repeat' (first | (intro _) | split | rw [foldl_keep (fun s : State => s.pkt)] | rw [foldl_keep (fun x : List Edge × State => x.2.pkt)] | rw [onDown_keep (fun s : State => s.pkt)] | rw [onUp_keep (fun s : State => s.pkt)] | rw [orElse_keep (fun s : State => s.pkt)])
    all_goals first | rfl | (simp; done)
  · unfold fieldPart; (try dsimp only); repeat' (first | (intro _) | split | rw [foldl_keep (fun s : State => s.gnss)] | rw [foldl_keep (fun x : List Edge × State => x.2.gnss)] | rw [onDown_keep (fun s : State => s.gnss)] | rw [onUp_keep (fun s : State => s.gnss)] | rw [orElse_keep (fun s : State => s.gnss)])
    all_goals first | rfl | (simp; done)
  · unfold fieldPart; (try dsimp only); repeat' (first | (intro _) | split | rw [foldl_keep (fun s : State => s.canA)] | rw [foldl_keep (fun x : List Edge × State => x.2.canA)] | rw [onDown_keep (fun s : State => s.canA)] | rw [onUp_keep (fun s : State => s.canA)] | rw [orElse_keep (fun s : State => s.canA)])
    all_goals first | rfl | (simp; done)
  · unfold fieldPart; (try dsimp only); repeat' (first | (intro _) | split | rw [foldl_keep (fun s : State => s.canB)] | rw [foldl_keep (fun x : List Edge × State => x.2.canB)] | rw [onDown_keep (fun s : State => s.canB)] | rw [onUp_keep (fun s : State => s.canB)] | rw [orElse_keep (fun s : State => s.canB)])
    all_goals first | rfl | (simp; done)
  · unfold fieldPart; (try dsimp only); repeat' (first | (intro _) | split | rw [foldl_keep (fun s : State => s.svc)] | rw [foldl_keep (fun x : List Edge × State => x.2.svc)] | rw [onDown_keep (fun s : State => s.svc)] | rw [onUp_keep (fun s : State => s.svc)] | rw [orElse_keep (fun s : State => s.svc)])
    all_goals first | rfl | (simp; done)
  · unfold fieldPart; (try dsimp only); repeat' (first | (intro _) | split | rw [foldl_keep (fun s : State => s.pwr)] | rw [foldl_keep (fun x : List Edge × State => x.2.pwr)] | rw [onDown_keep (fun s : State => s.pwr)] | rw [onUp_keep (fun s : State => s.pwr)] | rw [orElse_keep (fun s : State => s.pwr)])
    all_goals first | rfl | (simp; done)
  · unfold fieldPart; (try dsimp only); repeat' (first | (intro _) | split | rw [foldl_keep (fun s : State => s.sec)] | rw [foldl_keep (fun x : List Edge × State => x.2.sec)] | rw [onDown_keep (fun s : State => s.sec)] | rw [onUp_keep (fun s : State => s.sec)] | rw [orElse_keep (fun s : State => s.sec)])
    all_goals first | rfl | (simp; done)
@[simp] theorem loseTxn_frame (t : RegTxn) (s : State) :
    (loseTxn t s).pending = s.pending ∧ (loseTxn t s).free = s.free ∧ (loseTxn t s).id = s.id ∧ (loseTxn t s).modes
    = s.modes ∧ (loseTxn t s).regs = s.regs ∧ (loseTxn t s).clk = s.clk ∧ (loseTxn t s).barr = s.barr ∧ (loseTxn t
    s).out = s.out ∧ (loseTxn t s).sense = s.sense ∧ (loseTxn t s).loop = s.loop ∧ (loseTxn t s).gnss = s.gnss ∧
    (loseTxn t s).canA = s.canA ∧ (loseTxn t s).canB = s.canB ∧ (loseTxn t s).pwr = s.pwr ∧ (loseTxn t s).sec =
    s.sec ∧ (loseTxn t s).ev = s.ev ∧ (loseTxn t s).sect = s.sect := by
  unfold loseTxn; split <;> simp
@[simp] theorem dropLink_frame (s : State) :
    (dropLink s).pending = s.pending ∧ (dropLink s).free = s.free ∧ (dropLink s).id = s.id ∧ (dropLink s).modes =
    s.modes ∧ (dropLink s).regs = s.regs ∧ (dropLink s).clk = s.clk ∧ (dropLink s).out = s.out ∧ (dropLink s).sense
    = s.sense ∧ (dropLink s).loop = s.loop ∧ (dropLink s).gnss = s.gnss ∧ (dropLink s).canA = s.canA ∧ (dropLink
    s).canB = s.canB ∧ (dropLink s).pwr = s.pwr ∧ (dropLink s).sec = s.sec ∧ (dropLink s).ev = s.ev ∧ (dropLink
    s).sect = s.sect := by simp [dropLink]
@[simp] theorem stopLink_frame (s : State) :
    (stopLink s).pending = s.pending ∧ (stopLink s).free = s.free ∧ (stopLink s).id = s.id ∧ (stopLink s).regs =
    s.regs ∧ (stopLink s).clk = s.clk ∧ (stopLink s).gnss = s.gnss ∧ (stopLink s).canA = s.canA ∧ (stopLink s).canB
    = s.canB ∧ (stopLink s).pwr = s.pwr ∧ (stopLink s).sec = s.sec := by simp [stopLink]
@[simp] theorem resumeF_frame (s : State) :
    (resumeF s).pending = s.pending ∧ (resumeF s).free = s.free ∧ (resumeF s).id = s.id ∧ (resumeF s).regs = s.regs
    ∧ (resumeF s).clk = s.clk ∧ (resumeF s).barr = s.barr ∧ (resumeF s).chain = s.chain ∧ (resumeF s).pkt = s.pkt ∧
    (resumeF s).out = s.out ∧ (resumeF s).sense = s.sense ∧ (resumeF s).loop = s.loop ∧ (resumeF s).gnss = s.gnss ∧
    (resumeF s).canA = s.canA ∧ (resumeF s).canB = s.canB ∧ (resumeF s).svc = s.svc ∧ (resumeF s).pwr = s.pwr ∧
    (resumeF s).fw = s.fw ∧ (resumeF s).ev = s.ev ∧ (resumeF s).sect = s.sect := by simp [resumeF]
@[simp] theorem resumeH_frame (s : State) :
    (resumeH s).pending = s.pending ∧ (resumeH s).free = s.free ∧ (resumeH s).id = s.id ∧ (resumeH s).modes =
    s.modes ∧ (resumeH s).regs = s.regs ∧ (resumeH s).clk = s.clk ∧ (resumeH s).barr = s.barr ∧ (resumeH s).chain =
    s.chain ∧ (resumeH s).pkt = s.pkt ∧ (resumeH s).out = s.out ∧ (resumeH s).sense = s.sense ∧ (resumeH s).loop =
    s.loop ∧ (resumeH s).gnss = s.gnss ∧ (resumeH s).svc = s.svc ∧ (resumeH s).pwr = s.pwr ∧ (resumeH s).fw = s.fw ∧
    (resumeH s).ev = s.ev ∧ (resumeH s).sect = s.sect := by simp [resumeH]
@[simp] theorem setLevel_frame (l : Fin 5) (s : State) :
    (setLevel l s).pending = s.pending ∧ (setLevel l s).free = s.free ∧ (setLevel l s).id = s.id ∧ (setLevel l
    s).regs = s.regs ∧ (setLevel l s).clk = s.clk ∧ (setLevel l s).chain = s.chain ∧ (setLevel l s).pkt = s.pkt ∧
    (setLevel l s).out = s.out ∧ (setLevel l s).sense = s.sense ∧ (setLevel l s).loop = s.loop ∧ (setLevel l s).gnss
    = s.gnss ∧ (setLevel l s).svc = s.svc ∧ (setLevel l s).pwr = s.pwr ∧ (setLevel l s).fw = s.fw ∧ (setLevel l
    s).sect = s.sect := by simp [setLevel]
@[simp] theorem enterHoldover_frame (s : State) :
    (enterHoldover s).pending = s.pending ∧ (enterHoldover s).free = s.free ∧ (enterHoldover s).id = s.id ∧
    (enterHoldover s).modes = s.modes ∧ (enterHoldover s).regs = s.regs ∧ (enterHoldover s).chain = s.chain ∧
    (enterHoldover s).pkt = s.pkt ∧ (enterHoldover s).out = s.out ∧ (enterHoldover s).sense = s.sense ∧
    (enterHoldover s).loop = s.loop ∧ (enterHoldover s).gnss = s.gnss ∧ (enterHoldover s).canA = s.canA ∧
    (enterHoldover s).canB = s.canB ∧ (enterHoldover s).svc = s.svc ∧ (enterHoldover s).pwr = s.pwr ∧ (enterHoldover
    s).sec = s.sec ∧ (enterHoldover s).fw = s.fw ∧ (enterHoldover s).sect = s.sect := by simp [enterHoldover]
@[simp] theorem follow_frame (r : TbRef) (s : State) :
    (follow r s).pending = s.pending ∧ (follow r s).free = s.free ∧ (follow r s).id = s.id ∧ (follow r s).modes =
    s.modes ∧ (follow r s).regs = s.regs ∧ (follow r s).barr = s.barr ∧ (follow r s).chain = s.chain ∧ (follow r
    s).pkt = s.pkt ∧ (follow r s).out = s.out ∧ (follow r s).sense = s.sense ∧ (follow r s).loop = s.loop ∧ (follow
    r s).gnss = s.gnss ∧ (follow r s).canA = s.canA ∧ (follow r s).canB = s.canB ∧ (follow r s).svc = s.svc ∧
    (follow r s).pwr = s.pwr ∧ (follow r s).sec = s.sec ∧ (follow r s).fw = s.fw ∧ (follow r s).ev = s.ev ∧ (follow
    r s).sect = s.sect := by simp [follow]
@[simp] theorem chooseRef_frame (s : State) :
    (chooseRef s).pending = s.pending ∧ (chooseRef s).free = s.free ∧ (chooseRef s).id = s.id ∧ (chooseRef s).modes
    = s.modes ∧ (chooseRef s).regs = s.regs ∧ (chooseRef s).chain = s.chain ∧ (chooseRef s).pkt = s.pkt ∧ (chooseRef
    s).out = s.out ∧ (chooseRef s).sense = s.sense ∧ (chooseRef s).loop = s.loop ∧ (chooseRef s).gnss = s.gnss ∧
    (chooseRef s).canA = s.canA ∧ (chooseRef s).canB = s.canB ∧ (chooseRef s).svc = s.svc ∧ (chooseRef s).pwr =
    s.pwr ∧ (chooseRef s).sec = s.sec ∧ (chooseRef s).fw = s.fw ∧ (chooseRef s).sect = s.sect := by simp [chooseRef]
@[simp] theorem startTimebase_frame (s : State) :
    (startTimebase s).pending = s.pending ∧ (startTimebase s).id = s.id ∧ (startTimebase s).modes = s.modes ∧
    (startTimebase s).regs = s.regs ∧ (startTimebase s).barr = s.barr ∧ (startTimebase s).chain = s.chain ∧
    (startTimebase s).pkt = s.pkt ∧ (startTimebase s).out = s.out ∧ (startTimebase s).sense = s.sense ∧
    (startTimebase s).loop = s.loop ∧ (startTimebase s).gnss = s.gnss ∧ (startTimebase s).canA = s.canA ∧
    (startTimebase s).canB = s.canB ∧ (startTimebase s).svc = s.svc ∧ (startTimebase s).pwr = s.pwr ∧ (startTimebase
    s).sec = s.sec ∧ (startTimebase s).fw = s.fw ∧ (startTimebase s).ev = s.ev ∧ (startTimebase s).sect = s.sect := by simp [startTimebase]
@[simp] theorem ensureTimebase_frame (s : State) :
    (ensureTimebase s).pending = s.pending ∧ (ensureTimebase s).id = s.id ∧ (ensureTimebase s).modes = s.modes ∧
    (ensureTimebase s).regs = s.regs ∧ (ensureTimebase s).barr = s.barr ∧ (ensureTimebase s).chain = s.chain ∧
    (ensureTimebase s).pkt = s.pkt ∧ (ensureTimebase s).out = s.out ∧ (ensureTimebase s).sense = s.sense ∧
    (ensureTimebase s).loop = s.loop ∧ (ensureTimebase s).gnss = s.gnss ∧ (ensureTimebase s).canA = s.canA ∧
    (ensureTimebase s).canB = s.canB ∧ (ensureTimebase s).svc = s.svc ∧ (ensureTimebase s).pwr = s.pwr ∧
    (ensureTimebase s).sec = s.sec ∧ (ensureTimebase s).fw = s.fw ∧ (ensureTimebase s).ev = s.ev ∧ (ensureTimebase
    s).sect = s.sect := by simp [ensureTimebase]
@[simp] theorem shiftInstants_frame (d : Int) (s : State) :
    (shiftInstants d s).pending = s.pending ∧ (shiftInstants d s).free = s.free ∧ (shiftInstants d s).id = s.id ∧
    (shiftInstants d s).modes = s.modes ∧ (shiftInstants d s).regs = s.regs ∧ (shiftInstants d s).pkt = s.pkt ∧
    (shiftInstants d s).out = s.out ∧ (shiftInstants d s).sense = s.sense ∧ (shiftInstants d s).loop = s.loop ∧
    (shiftInstants d s).gnss = s.gnss ∧ (shiftInstants d s).canA = s.canA ∧ (shiftInstants d s).canB = s.canB ∧
    (shiftInstants d s).svc = s.svc ∧ (shiftInstants d s).pwr = s.pwr ∧ (shiftInstants d s).fw = s.fw ∧
    (shiftInstants d s).ev = s.ev ∧ (shiftInstants d s).sect = s.sect := by
  simp [shiftInstants]
@[simp] theorem stepTb_frame (d : Int) (s : State) :
    (stepTb d s).pending = s.pending ∧ (stepTb d s).free = s.free ∧ (stepTb d s).id = s.id ∧ (stepTb d s).modes =
    s.modes ∧ (stepTb d s).regs = s.regs ∧ (stepTb d s).out = s.out ∧ (stepTb d s).sense = s.sense ∧ (stepTb d
    s).loop = s.loop ∧ (stepTb d s).gnss = s.gnss ∧ (stepTb d s).canA = s.canA ∧ (stepTb d s).canB = s.canB ∧
    (stepTb d s).svc = s.svc ∧ (stepTb d s).pwr = s.pwr ∧ (stepTb d s).fw = s.fw ∧ (stepTb d s).sect = s.sect := by
  simp [stepTb]
@[simp] theorem setGpsOrigin_frame (s : State) :
    (setGpsOrigin s).pending = s.pending ∧ (setGpsOrigin s).free = s.free ∧ (setGpsOrigin s).id = s.id ∧
    (setGpsOrigin s).modes = s.modes ∧ (setGpsOrigin s).regs = s.regs ∧ (setGpsOrigin s).barr = s.barr ∧
    (setGpsOrigin s).chain = s.chain ∧ (setGpsOrigin s).pkt = s.pkt ∧ (setGpsOrigin s).out = s.out ∧ (setGpsOrigin
    s).sense = s.sense ∧ (setGpsOrigin s).loop = s.loop ∧ (setGpsOrigin s).gnss = s.gnss ∧ (setGpsOrigin s).canA =
    s.canA ∧ (setGpsOrigin s).canB = s.canB ∧ (setGpsOrigin s).svc = s.svc ∧ (setGpsOrigin s).pwr = s.pwr ∧
    (setGpsOrigin s).sec = s.sec ∧ (setGpsOrigin s).fw = s.fw ∧ (setGpsOrigin s).ev = s.ev ∧ (setGpsOrigin s).sect =
    s.sect := by
  unfold setGpsOrigin; split <;> simp
@[simp] theorem originStep_frame (s : State) :
    (originStep s).pending = s.pending ∧ (originStep s).free = s.free ∧ (originStep s).id = s.id ∧ (originStep
    s).regs = s.regs ∧ (originStep s).gnss = s.gnss ∧ (originStep s).canA = s.canA ∧ (originStep s).canB = s.canB ∧
    (originStep s).svc = s.svc ∧ (originStep s).pwr = s.pwr := by
  unfold originStep; split <;> simp
@[simp] theorem insertTime_frame (s : State) :
    (insertTime s).pending = s.pending ∧ (insertTime s).free = s.free ∧ (insertTime s).id = s.id ∧ (insertTime
    s).modes = s.modes ∧ (insertTime s).regs = s.regs ∧ (insertTime s).clk = s.clk ∧ (insertTime s).barr = s.barr ∧
    (insertTime s).pkt = s.pkt ∧ (insertTime s).out = s.out ∧ (insertTime s).sense = s.sense ∧ (insertTime s).loop =
    s.loop ∧ (insertTime s).gnss = s.gnss ∧ (insertTime s).canA = s.canA ∧ (insertTime s).canB = s.canB ∧
    (insertTime s).svc = s.svc ∧ (insertTime s).pwr = s.pwr ∧ (insertTime s).sec = s.sec ∧ (insertTime s).fw = s.fw
    ∧ (insertTime s).ev = s.ev ∧ (insertTime s).sect = s.sect := by simp [insertTime]
@[simp] theorem announceStep_frame (s : State) :
    (announceStep s).pending = s.pending ∧ (announceStep s).free = s.free ∧ (announceStep s).id = s.id ∧
    (announceStep s).modes = s.modes ∧ (announceStep s).regs = s.regs ∧ (announceStep s).barr = s.barr ∧
    (announceStep s).pkt = s.pkt ∧ (announceStep s).out = s.out ∧ (announceStep s).sense = s.sense ∧ (announceStep
    s).loop = s.loop ∧ (announceStep s).gnss = s.gnss ∧ (announceStep s).canA = s.canA ∧ (announceStep s).canB =
    s.canB ∧ (announceStep s).svc = s.svc ∧ (announceStep s).pwr = s.pwr ∧ (announceStep s).sec = s.sec ∧
    (announceStep s).fw = s.fw ∧ (announceStep s).ev = s.ev ∧ (announceStep s).sect = s.sect := by
  unfold announceStep; split <;> simp
@[simp] theorem autoStep_frame (s : State) :
    (autoStep s).pending = s.pending ∧ (autoStep s).free = s.free ∧ (autoStep s).id = s.id ∧ (autoStep s).modes =
    s.modes ∧ (autoStep s).regs = s.regs ∧ (autoStep s).barr = s.barr ∧ (autoStep s).pkt = s.pkt ∧ (autoStep s).out
    = s.out ∧ (autoStep s).sense = s.sense ∧ (autoStep s).loop = s.loop ∧ (autoStep s).gnss = s.gnss ∧ (autoStep
    s).canA = s.canA ∧ (autoStep s).canB = s.canB ∧ (autoStep s).svc = s.svc ∧ (autoStep s).pwr = s.pwr ∧ (autoStep
    s).sec = s.sec ∧ (autoStep s).fw = s.fw ∧ (autoStep s).ev = s.ev ∧ (autoStep s).sect = s.sect := by simp [autoStep]
@[simp] theorem slewBy_frame (offset : Int) (s : State) :
    (slewBy offset s).pending = s.pending ∧ (slewBy offset s).id = s.id ∧ (slewBy offset s).modes = s.modes ∧
    (slewBy offset s).regs = s.regs ∧ (slewBy offset s).barr = s.barr ∧ (slewBy offset s).chain = s.chain ∧ (slewBy
    offset s).pkt = s.pkt ∧ (slewBy offset s).out = s.out ∧ (slewBy offset s).sense = s.sense ∧ (slewBy offset
    s).loop = s.loop ∧ (slewBy offset s).gnss = s.gnss ∧ (slewBy offset s).canA = s.canA ∧ (slewBy offset s).canB =
    s.canB ∧ (slewBy offset s).svc = s.svc ∧ (slewBy offset s).pwr = s.pwr ∧ (slewBy offset s).sec = s.sec ∧ (slewBy
    offset s).fw = s.fw ∧ (slewBy offset s).ev = s.ev ∧ (slewBy offset s).sect = s.sect := by simp [slewBy]
@[simp] theorem steer_frame (s : State) :
    (steer s).pending = s.pending ∧ (steer s).id = s.id ∧ (steer s).modes = s.modes ∧ (steer s).regs = s.regs ∧
    (steer s).barr = s.barr ∧ (steer s).chain = s.chain ∧ (steer s).pkt = s.pkt ∧ (steer s).out = s.out ∧ (steer
    s).sense = s.sense ∧ (steer s).loop = s.loop ∧ (steer s).gnss = s.gnss ∧ (steer s).canA = s.canA ∧ (steer
    s).canB = s.canB ∧ (steer s).svc = s.svc ∧ (steer s).pwr = s.pwr ∧ (steer s).sec = s.sec ∧ (steer s).fw = s.fw ∧
    (steer s).ev = s.ev ∧ (steer s).sect = s.sect := by
  unfold steer; split <;> simp
@[simp] theorem adopt_frame (i : TimeInfo) (off10 : Int) (s : State) :
    (adopt i off10 s).pending = s.pending ∧ (adopt i off10 s).free = s.free ∧ (adopt i off10 s).id = s.id ∧ (adopt i
    off10 s).modes = s.modes ∧ (adopt i off10 s).regs = s.regs ∧ (adopt i off10 s).out = s.out ∧ (adopt i off10
    s).sense = s.sense ∧ (adopt i off10 s).loop = s.loop ∧ (adopt i off10 s).gnss = s.gnss ∧ (adopt i off10 s).canA
    = s.canA ∧ (adopt i off10 s).canB = s.canB ∧ (adopt i off10 s).svc = s.svc ∧ (adopt i off10 s).pwr = s.pwr ∧
    (adopt i off10 s).fw = s.fw ∧ (adopt i off10 s).sect = s.sect := by
  simp [adopt]
@[simp] theorem align_frame (i : TimeInfo) (off10 : Int) (s : State) :
    (align i off10 s).pending = s.pending ∧ (align i off10 s).id = s.id ∧ (align i off10 s).regs = s.regs ∧ (align i
    off10 s).gnss = s.gnss ∧ (align i off10 s).canA = s.canA ∧ (align i off10 s).canB = s.canB ∧ (align i off10
    s).svc = s.svc ∧ (align i off10 s).pwr = s.pwr := by
  simp [align]
@[simp] theorem takeFlags_frame (i : TimeInfo) (s : State) :
    (takeFlags i s).pending = s.pending ∧ (takeFlags i s).free = s.free ∧ (takeFlags i s).id = s.id ∧ (takeFlags i
    s).modes = s.modes ∧ (takeFlags i s).regs = s.regs ∧ (takeFlags i s).barr = s.barr ∧ (takeFlags i s).chain =
    s.chain ∧ (takeFlags i s).pkt = s.pkt ∧ (takeFlags i s).out = s.out ∧ (takeFlags i s).sense = s.sense ∧
    (takeFlags i s).loop = s.loop ∧ (takeFlags i s).gnss = s.gnss ∧ (takeFlags i s).canA = s.canA ∧ (takeFlags i
    s).canB = s.canB ∧ (takeFlags i s).svc = s.svc ∧ (takeFlags i s).pwr = s.pwr ∧ (takeFlags i s).sec = s.sec ∧
    (takeFlags i s).fw = s.fw ∧ (takeFlags i s).ev = s.ev ∧ (takeFlags i s).sect = s.sect := by simp [takeFlags]
@[simp] theorem takeIsland_frame (i : TimeInfo) (s : State) :
    (takeIsland i s).pending = s.pending ∧ (takeIsland i s).free = s.free ∧ (takeIsland i s).id = s.id ∧ (takeIsland
    i s).modes = s.modes ∧ (takeIsland i s).regs = s.regs ∧ (takeIsland i s).clk = s.clk ∧ (takeIsland i s).barr =
    s.barr ∧ (takeIsland i s).pkt = s.pkt ∧ (takeIsland i s).out = s.out ∧ (takeIsland i s).sense = s.sense ∧
    (takeIsland i s).loop = s.loop ∧ (takeIsland i s).gnss = s.gnss ∧ (takeIsland i s).canA = s.canA ∧ (takeIsland i
    s).canB = s.canB ∧ (takeIsland i s).svc = s.svc ∧ (takeIsland i s).pwr = s.pwr ∧ (takeIsland i s).sec = s.sec ∧
    (takeIsland i s).fw = s.fw ∧ (takeIsland i s).ev = s.ev ∧ (takeIsland i s).sect = s.sect := by simp [takeIsland]
@[simp] theorem policyClay_frame (s : State) :
    (policyClay s).pending = s.pending ∧ (policyClay s).free = s.free ∧ (policyClay s).id = s.id ∧ (policyClay
    s).regs = s.regs ∧ (policyClay s).clk = s.clk ∧ (policyClay s).gnss = s.gnss ∧ (policyClay s).canA = s.canA ∧
    (policyClay s).canB = s.canB ∧ (policyClay s).svc = s.svc ∧ (policyClay s).pwr = s.pwr ∧ (policyClay s).sec =
    s.sec := by simp [policyClay]
@[simp] theorem duePolicy_frame (s : State) :
    (duePolicy s).pending = s.pending ∧ (duePolicy s).free = s.free ∧ (duePolicy s).id = s.id ∧ (duePolicy s).regs =
    s.regs ∧ (duePolicy s).clk = s.clk ∧ (duePolicy s).gnss = s.gnss ∧ (duePolicy s).canA = s.canA ∧ (duePolicy
    s).canB = s.canB ∧ (duePolicy s).svc = s.svc ∧ (duePolicy s).pwr = s.pwr ∧ (duePolicy s).sec = s.sec := by
  unfold duePolicy; split <;> simp
@[simp] theorem useTime_frame (i : TimeInfo) (arrival : BitVec 32) (s : State) :
    (useTime i arrival s).pending = s.pending ∧ (useTime i arrival s).id = s.id ∧ (useTime i arrival s).regs =
    s.regs ∧ (useTime i arrival s).gnss = s.gnss ∧ (useTime i arrival s).canA = s.canA ∧ (useTime i arrival s).canB
    = s.canB ∧ (useTime i arrival s).svc = s.svc ∧ (useTime i arrival s).pwr = s.pwr := by
  simp [useTime]
@[simp] theorem timeFrame_frame (i : TimeInfo) (residence : Nat) (s : State) :
    (timeFrame i residence s).pending = s.pending ∧ (timeFrame i residence s).id = s.id ∧ (timeFrame i residence
    s).regs = s.regs ∧ (timeFrame i residence s).gnss = s.gnss ∧ (timeFrame i residence s).canA = s.canA ∧
    (timeFrame i residence s).canB = s.canB ∧ (timeFrame i residence s).svc = s.svc ∧ (timeFrame i residence s).pwr
    = s.pwr := by
  simp [timeFrame]
@[simp] theorem freshEcho_frame (s : State) :
    (freshEcho s).pending = s.pending ∧ (freshEcho s).free = s.free ∧ (freshEcho s).id = s.id ∧ (freshEcho s).modes
    = s.modes ∧ (freshEcho s).regs = s.regs ∧ (freshEcho s).barr = s.barr ∧ (freshEcho s).chain = s.chain ∧
    (freshEcho s).pkt = s.pkt ∧ (freshEcho s).out = s.out ∧ (freshEcho s).sense = s.sense ∧ (freshEcho s).loop =
    s.loop ∧ (freshEcho s).gnss = s.gnss ∧ (freshEcho s).canA = s.canA ∧ (freshEcho s).canB = s.canB ∧ (freshEcho
    s).svc = s.svc ∧ (freshEcho s).pwr = s.pwr ∧ (freshEcho s).sec = s.sec ∧ (freshEcho s).fw = s.fw ∧ (freshEcho
    s).ev = s.ev ∧ (freshEcho s).sect = s.sect := by
  simp [freshEcho]
@[simp] theorem releaseLines_frame (s : State) :
    (releaseLines s).pending = s.pending ∧ (releaseLines s).free = s.free ∧ (releaseLines s).id = s.id ∧
    (releaseLines s).modes = s.modes ∧ (releaseLines s).regs = s.regs ∧ (releaseLines s).clk = s.clk ∧ (releaseLines
    s).barr = s.barr ∧ (releaseLines s).chain = s.chain ∧ (releaseLines s).pkt = s.pkt ∧ (releaseLines s).out =
    s.out ∧ (releaseLines s).sense = s.sense ∧ (releaseLines s).loop = s.loop ∧ (releaseLines s).gnss = s.gnss ∧
    (releaseLines s).canA = s.canA ∧ (releaseLines s).canB = s.canB ∧ (releaseLines s).pwr = s.pwr ∧ (releaseLines
    s).sec = s.sec ∧ (releaseLines s).fw = s.fw ∧ (releaseLines s).ev = s.ev ∧ (releaseLines s).sect = s.sect := by simp [releaseLines]
@[simp] theorem relockFresh_frame (s : State) :
    (relockFresh s).pending = s.pending ∧ (relockFresh s).free = s.free ∧ (relockFresh s).id = s.id ∧ (relockFresh
    s).regs = s.regs ∧ (relockFresh s).gnss = s.gnss ∧ (relockFresh s).canA = s.canA ∧ (relockFresh s).canB = s.canB
    ∧ (relockFresh s).pwr = s.pwr ∧ (relockFresh s).sec = s.sec := by simp [relockFresh]
@[simp] theorem coldRelock_frame (why : RelockCause) (s : State) :
    (coldRelock why s).pending = s.pending ∧ (coldRelock why s).free = s.free ∧ (coldRelock why s).id = s.id ∧
    (coldRelock why s).regs = s.regs ∧ (coldRelock why s).gnss = s.gnss ∧ (coldRelock why s).pwr = s.pwr := by
  unfold coldRelock; split <;> simp
@[simp] theorem dpllLock_frame (r : LockRef) (s : State) :
    (dpllLock r s).pending = s.pending ∧ (dpllLock r s).free = s.free ∧ (dpllLock r s).id = s.id ∧ (dpllLock r
    s).modes = s.modes ∧ (dpllLock r s).regs = s.regs ∧ (dpllLock r s).barr = s.barr ∧ (dpllLock r s).chain =
    s.chain ∧ (dpllLock r s).pkt = s.pkt ∧ (dpllLock r s).out = s.out ∧ (dpllLock r s).sense = s.sense ∧ (dpllLock r
    s).loop = s.loop ∧ (dpllLock r s).gnss = s.gnss ∧ (dpllLock r s).canA = s.canA ∧ (dpllLock r s).canB = s.canB ∧
    (dpllLock r s).svc = s.svc ∧ (dpllLock r s).pwr = s.pwr ∧ (dpllLock r s).sec = s.sec ∧ (dpllLock r s).fw = s.fw
    ∧ (dpllLock r s).ev = s.ev ∧ (dpllLock r s).sect = s.sect := by
  unfold dpllLock; (repeat' split) <;> simp
@[simp] theorem reloadTb_frame (refCycles : Nat) (s : State) :
    (reloadTb refCycles s).pending = s.pending ∧ (reloadTb refCycles s).id = s.id ∧ (reloadTb refCycles s).modes =
    s.modes ∧ (reloadTb refCycles s).regs = s.regs ∧ (reloadTb refCycles s).barr = s.barr ∧ (reloadTb refCycles
    s).chain = s.chain ∧ (reloadTb refCycles s).pkt = s.pkt ∧ (reloadTb refCycles s).out = s.out ∧ (reloadTb
    refCycles s).sense = s.sense ∧ (reloadTb refCycles s).loop = s.loop ∧ (reloadTb refCycles s).gnss = s.gnss ∧
    (reloadTb refCycles s).canA = s.canA ∧ (reloadTb refCycles s).canB = s.canB ∧ (reloadTb refCycles s).svc = s.svc
    ∧ (reloadTb refCycles s).pwr = s.pwr ∧ (reloadTb refCycles s).sec = s.sec ∧ (reloadTb refCycles s).fw = s.fw ∧
    (reloadTb refCycles s).ev = s.ev ∧ (reloadTb refCycles s).sect = s.sect := by simp [reloadTb]
@[simp] theorem clockUngate_frame (refCycles : Nat) (s : State) :
    (clockUngate refCycles s).pending = s.pending ∧ (clockUngate refCycles s).id = s.id ∧ (clockUngate refCycles
    s).regs = s.regs ∧ (clockUngate refCycles s).chain = s.chain ∧ (clockUngate refCycles s).gnss = s.gnss ∧
    (clockUngate refCycles s).canA = s.canA ∧ (clockUngate refCycles s).canB = s.canB ∧ (clockUngate refCycles
    s).svc = s.svc ∧ (clockUngate refCycles s).pwr = s.pwr ∧ (clockUngate refCycles s).sec = s.sec := by simp [clockUngate]
@[simp] theorem epochClock_frame (s : State) :
    (epochClock s).pending = s.pending ∧ (epochClock s).free = s.free ∧ (epochClock s).id = s.id ∧ (epochClock
    s).modes = s.modes ∧ (epochClock s).regs = s.regs ∧ (epochClock s).barr = s.barr ∧ (epochClock s).chain =
    s.chain ∧ (epochClock s).pkt = s.pkt ∧ (epochClock s).out = s.out ∧ (epochClock s).sense = s.sense ∧ (epochClock
    s).loop = s.loop ∧ (epochClock s).gnss = s.gnss ∧ (epochClock s).canA = s.canA ∧ (epochClock s).canB = s.canB ∧
    (epochClock s).svc = s.svc ∧ (epochClock s).pwr = s.pwr ∧ (epochClock s).sec = s.sec ∧ (epochClock s).fw = s.fw
    ∧ (epochClock s).ev = s.ev ∧ (epochClock s).sect = s.sect := by simp [epochClock]
@[simp] theorem readNow_frame (s : State) :
    (readNow s).pending = s.pending ∧ (readNow s).free = s.free ∧ (readNow s).id = s.id ∧ (readNow s).modes =
    s.modes ∧ (readNow s).regs = s.regs ∧ (readNow s).barr = s.barr ∧ (readNow s).chain = s.chain ∧ (readNow s).pkt
    = s.pkt ∧ (readNow s).out = s.out ∧ (readNow s).sense = s.sense ∧ (readNow s).loop = s.loop ∧ (readNow s).gnss =
    s.gnss ∧ (readNow s).canA = s.canA ∧ (readNow s).canB = s.canB ∧ (readNow s).svc = s.svc ∧ (readNow s).pwr =
    s.pwr ∧ (readNow s).sec = s.sec ∧ (readNow s).fw = s.fw ∧ (readNow s).ev = s.ev ∧ (readNow s).sect = s.sect := by simp [readNow]
@[simp] theorem putTbCtrl_frame (v : Word) (s : State) :
    (putTbCtrl v s).pending = s.pending ∧ (putTbCtrl v s).free = s.free ∧ (putTbCtrl v s).id = s.id ∧ (putTbCtrl v
    s).modes = s.modes ∧ (putTbCtrl v s).chain = s.chain ∧ (putTbCtrl v s).pkt = s.pkt ∧ (putTbCtrl v s).out = s.out
    ∧ (putTbCtrl v s).sense = s.sense ∧ (putTbCtrl v s).loop = s.loop ∧ (putTbCtrl v s).gnss = s.gnss ∧ (putTbCtrl v
    s).canA = s.canA ∧ (putTbCtrl v s).canB = s.canB ∧ (putTbCtrl v s).svc = s.svc ∧ (putTbCtrl v s).pwr = s.pwr ∧
    (putTbCtrl v s).sec = s.sec ∧ (putTbCtrl v s).fw = s.fw ∧ (putTbCtrl v s).sect = s.sect := by simp [putTbCtrl]
@[simp] theorem enableLanes_frame (s : State) :
    (enableLanes s).pending = s.pending ∧ (enableLanes s).free = s.free ∧ (enableLanes s).id = s.id ∧ (enableLanes
    s).modes = s.modes ∧ (enableLanes s).regs = s.regs ∧ (enableLanes s).clk = s.clk ∧ (enableLanes s).chain =
    s.chain ∧ (enableLanes s).pkt = s.pkt ∧ (enableLanes s).out = s.out ∧ (enableLanes s).sense = s.sense ∧
    (enableLanes s).loop = s.loop ∧ (enableLanes s).gnss = s.gnss ∧ (enableLanes s).canA = s.canA ∧ (enableLanes
    s).canB = s.canB ∧ (enableLanes s).svc = s.svc ∧ (enableLanes s).pwr = s.pwr ∧ (enableLanes s).sec = s.sec ∧
    (enableLanes s).fw = s.fw ∧ (enableLanes s).ev = s.ev ∧ (enableLanes s).sect = s.sect := by simp [enableLanes]
@[simp] theorem linkUpAbandon_frame (s : State) :
    (linkUpAbandon s).pending = s.pending ∧ (linkUpAbandon s).free = s.free ∧ (linkUpAbandon s).id = s.id ∧
    (linkUpAbandon s).modes = s.modes ∧ (linkUpAbandon s).regs = s.regs ∧ (linkUpAbandon s).clk = s.clk ∧
    (linkUpAbandon s).chain = s.chain ∧ (linkUpAbandon s).pkt = s.pkt ∧ (linkUpAbandon s).out = s.out ∧
    (linkUpAbandon s).sense = s.sense ∧ (linkUpAbandon s).loop = s.loop ∧ (linkUpAbandon s).gnss = s.gnss ∧
    (linkUpAbandon s).canA = s.canA ∧ (linkUpAbandon s).canB = s.canB ∧ (linkUpAbandon s).svc = s.svc ∧
    (linkUpAbandon s).pwr = s.pwr ∧ (linkUpAbandon s).sec = s.sec ∧ (linkUpAbandon s).fw = s.fw ∧ (linkUpAbandon
    s).sect = s.sect := by simp [linkUpAbandon]
@[simp] theorem readOneShot_frame (s : State) :
    (readOneShot s).pending = s.pending ∧ (readOneShot s).free = s.free ∧ (readOneShot s).id = s.id ∧ (readOneShot
    s).regs = s.regs ∧ (readOneShot s).clk = s.clk ∧ (readOneShot s).chain = s.chain ∧ (readOneShot s).pkt = s.pkt ∧
    (readOneShot s).out = s.out ∧ (readOneShot s).sense = s.sense ∧ (readOneShot s).loop = s.loop ∧ (readOneShot
    s).gnss = s.gnss ∧ (readOneShot s).canA = s.canA ∧ (readOneShot s).canB = s.canB ∧ (readOneShot s).svc = s.svc ∧
    (readOneShot s).pwr = s.pwr ∧ (readOneShot s).sec = s.sec ∧ (readOneShot s).fw = s.fw ∧ (readOneShot s).ev =
    s.ev ∧ (readOneShot s).sect = s.sect := by
  simp [readOneShot]
@[simp] theorem completeLink_frame (latency : Nat) (s : State) :
    (completeLink latency s).pending = s.pending ∧ (completeLink latency s).free = s.free ∧ (completeLink latency
    s).id = s.id ∧ (completeLink latency s).regs = s.regs ∧ (completeLink latency s).clk = s.clk ∧ (completeLink
    latency s).chain = s.chain ∧ (completeLink latency s).pkt = s.pkt ∧ (completeLink latency s).out = s.out ∧
    (completeLink latency s).sense = s.sense ∧ (completeLink latency s).loop = s.loop ∧ (completeLink latency
    s).gnss = s.gnss ∧ (completeLink latency s).canA = s.canA ∧ (completeLink latency s).canB = s.canB ∧
    (completeLink latency s).svc = s.svc ∧ (completeLink latency s).sec = s.sec ∧ (completeLink latency s).fw = s.fw
    ∧ (completeLink latency s).sect = s.sect := by simp [completeLink]
@[simp] theorem epochBarrier_frame (s : State) :
    (epochBarrier s).pending = s.pending ∧ (epochBarrier s).free = s.free ∧ (epochBarrier s).id = s.id ∧
    (epochBarrier s).modes = s.modes ∧ (epochBarrier s).regs = s.regs ∧ (epochBarrier s).clk = s.clk ∧ (epochBarrier
    s).chain = s.chain ∧ (epochBarrier s).pkt = s.pkt ∧ (epochBarrier s).out = s.out ∧ (epochBarrier s).sense =
    s.sense ∧ (epochBarrier s).loop = s.loop ∧ (epochBarrier s).gnss = s.gnss ∧ (epochBarrier s).canA = s.canA ∧
    (epochBarrier s).canB = s.canB ∧ (epochBarrier s).svc = s.svc ∧ (epochBarrier s).pwr = s.pwr ∧ (epochBarrier
    s).sec = s.sec ∧ (epochBarrier s).fw = s.fw ∧ (epochBarrier s).ev = s.ev ∧ (epochBarrier s).sect = s.sect := by simp [epochBarrier]
@[simp] theorem rejectUp_frame (why : CellDrop) (s : State) :
    (rejectUp why s).pending = s.pending ∧ (rejectUp why s).free = s.free ∧ (rejectUp why s).id = s.id ∧ (rejectUp
    why s).modes = s.modes ∧ (rejectUp why s).regs = s.regs ∧ (rejectUp why s).chain = s.chain ∧ (rejectUp why
    s).pkt = s.pkt ∧ (rejectUp why s).out = s.out ∧ (rejectUp why s).sense = s.sense ∧ (rejectUp why s).loop =
    s.loop ∧ (rejectUp why s).gnss = s.gnss ∧ (rejectUp why s).canA = s.canA ∧ (rejectUp why s).canB = s.canB ∧
    (rejectUp why s).svc = s.svc ∧ (rejectUp why s).pwr = s.pwr ∧ (rejectUp why s).sec = s.sec ∧ (rejectUp why s).fw
    = s.fw ∧ (rejectUp why s).sect = s.sect := by
  simp [rejectUp]
@[simp] theorem rejectDown_frame (why : CellDrop) (s : State) :
    (rejectDown why s).pending = s.pending ∧ (rejectDown why s).free = s.free ∧ (rejectDown why s).id = s.id ∧
    (rejectDown why s).modes = s.modes ∧ (rejectDown why s).regs = s.regs ∧ (rejectDown why s).chain = s.chain ∧
    (rejectDown why s).pkt = s.pkt ∧ (rejectDown why s).out = s.out ∧ (rejectDown why s).sense = s.sense ∧
    (rejectDown why s).loop = s.loop ∧ (rejectDown why s).gnss = s.gnss ∧ (rejectDown why s).canA = s.canA ∧
    (rejectDown why s).canB = s.canB ∧ (rejectDown why s).svc = s.svc ∧ (rejectDown why s).pwr = s.pwr ∧ (rejectDown
    why s).sec = s.sec ∧ (rejectDown why s).fw = s.fw ∧ (rejectDown why s).ev = s.ev ∧ (rejectDown why s).sect =
    s.sect := by
  simp [rejectDown]
@[simp] theorem cellReject_frame (side : Side) (why : CellDrop) (inMessage : Bool) (s : State) :
    (cellReject side why inMessage s).pending = s.pending ∧ (cellReject side why inMessage s).free = s.free ∧
    (cellReject side why inMessage s).id = s.id ∧ (cellReject side why inMessage s).modes = s.modes ∧ (cellReject
    side why inMessage s).regs = s.regs ∧ (cellReject side why inMessage s).chain = s.chain ∧ (cellReject side why
    inMessage s).pkt = s.pkt ∧ (cellReject side why inMessage s).out = s.out ∧ (cellReject side why inMessage
    s).sense = s.sense ∧ (cellReject side why inMessage s).loop = s.loop ∧ (cellReject side why inMessage s).gnss =
    s.gnss ∧ (cellReject side why inMessage s).canA = s.canA ∧ (cellReject side why inMessage s).canB = s.canB ∧
    (cellReject side why inMessage s).svc = s.svc ∧ (cellReject side why inMessage s).pwr = s.pwr ∧ (cellReject side
    why inMessage s).sec = s.sec ∧ (cellReject side why inMessage s).fw = s.fw ∧ (cellReject side why inMessage
    s).sect = s.sect := by
  unfold cellReject; (repeat' split) <;> simp
@[simp] theorem clearBarr_frame (v : Word) (s : State) :
    (clearBarr v s).pending = s.pending ∧ (clearBarr v s).free = s.free ∧ (clearBarr v s).id = s.id ∧ (clearBarr v
    s).modes = s.modes ∧ (clearBarr v s).regs = s.regs ∧ (clearBarr v s).clk = s.clk ∧ (clearBarr v s).chain =
    s.chain ∧ (clearBarr v s).pkt = s.pkt ∧ (clearBarr v s).out = s.out ∧ (clearBarr v s).sense = s.sense ∧
    (clearBarr v s).loop = s.loop ∧ (clearBarr v s).gnss = s.gnss ∧ (clearBarr v s).canA = s.canA ∧ (clearBarr v
    s).canB = s.canB ∧ (clearBarr v s).svc = s.svc ∧ (clearBarr v s).pwr = s.pwr ∧ (clearBarr v s).sec = s.sec ∧
    (clearBarr v s).fw = s.fw ∧ (clearBarr v s).ev = s.ev ∧ (clearBarr v s).sect = s.sect := by simp [clearBarr]
@[simp] theorem heartbeatSend_frame (side : Side) (s : State) :
    (heartbeatSend side s).pending = s.pending ∧ (heartbeatSend side s).free = s.free ∧ (heartbeatSend side s).id =
    s.id ∧ (heartbeatSend side s).modes = s.modes ∧ (heartbeatSend side s).regs = s.regs ∧ (heartbeatSend side
    s).chain = s.chain ∧ (heartbeatSend side s).pkt = s.pkt ∧ (heartbeatSend side s).out = s.out ∧ (heartbeatSend
    side s).sense = s.sense ∧ (heartbeatSend side s).loop = s.loop ∧ (heartbeatSend side s).gnss = s.gnss ∧
    (heartbeatSend side s).canA = s.canA ∧ (heartbeatSend side s).canB = s.canB ∧ (heartbeatSend side s).svc = s.svc
    ∧ (heartbeatSend side s).pwr = s.pwr ∧ (heartbeatSend side s).sec = s.sec ∧ (heartbeatSend side s).fw = s.fw ∧
    (heartbeatSend side s).ev = s.ev ∧ (heartbeatSend side s).sect = s.sect := by
  unfold heartbeatSend; (repeat' split) <;> simp
@[simp] theorem checkSafe_frame (a : BitVec 16) (c q t : Byte) (s : State) :
    (checkSafe a c q t s).pending = s.pending ∧ (checkSafe a c q t s).free = s.free ∧ (checkSafe a c q t s).id =
    s.id ∧ (checkSafe a c q t s).modes = s.modes ∧ (checkSafe a c q t s).regs = s.regs ∧ (checkSafe a c q t s).clk =
    s.clk ∧ (checkSafe a c q t s).chain = s.chain ∧ (checkSafe a c q t s).pkt = s.pkt ∧ (checkSafe a c q t s).out =
    s.out ∧ (checkSafe a c q t s).sense = s.sense ∧ (checkSafe a c q t s).loop = s.loop ∧ (checkSafe a c q t s).gnss
    = s.gnss ∧ (checkSafe a c q t s).canA = s.canA ∧ (checkSafe a c q t s).canB = s.canB ∧ (checkSafe a c q t s).svc
    = s.svc ∧ (checkSafe a c q t s).pwr = s.pwr ∧ (checkSafe a c q t s).sec = s.sec ∧ (checkSafe a c q t s).fw =
    s.fw ∧ (checkSafe a c q t s).ev = s.ev ∧ (checkSafe a c q t s).sect = s.sect := by
  simp [checkSafe]
@[simp] theorem hostBeat_frame (alive ack : BitVec 16) (halted : Bool) (hbto : BitVec 16) (s : State) :
    (hostBeat alive ack halted hbto s).pending = s.pending ∧ (hostBeat alive ack halted hbto s).free = s.free ∧
    (hostBeat alive ack halted hbto s).id = s.id ∧ (hostBeat alive ack halted hbto s).regs = s.regs ∧ (hostBeat
    alive ack halted hbto s).clk = s.clk ∧ (hostBeat alive ack halted hbto s).chain = s.chain ∧ (hostBeat alive ack
    halted hbto s).pkt = s.pkt ∧ (hostBeat alive ack halted hbto s).out = s.out ∧ (hostBeat alive ack halted hbto
    s).sense = s.sense ∧ (hostBeat alive ack halted hbto s).loop = s.loop ∧ (hostBeat alive ack halted hbto s).gnss
    = s.gnss ∧ (hostBeat alive ack halted hbto s).canA = s.canA ∧ (hostBeat alive ack halted hbto s).canB = s.canB ∧
    (hostBeat alive ack halted hbto s).svc = s.svc ∧ (hostBeat alive ack halted hbto s).pwr = s.pwr ∧ (hostBeat
    alive ack halted hbto s).sec = s.sec ∧ (hostBeat alive ack halted hbto s).fw = s.fw ∧ (hostBeat alive ack halted
    hbto s).sect = s.sect := by
  simp [hostBeat]
@[simp] theorem fieldBeat_frame (alive ack : BitVec 16) (halted : Bool) (c q t : Byte) (active : BitVec 16) (s : State) :
    (fieldBeat alive ack halted c q t active s).pending = s.pending ∧ (fieldBeat alive ack halted c q t active
    s).free = s.free ∧ (fieldBeat alive ack halted c q t active s).id = s.id ∧ (fieldBeat alive ack halted c q t
    active s).modes = s.modes ∧ (fieldBeat alive ack halted c q t active s).regs = s.regs ∧ (fieldBeat alive ack
    halted c q t active s).clk = s.clk ∧ (fieldBeat alive ack halted c q t active s).chain = s.chain ∧ (fieldBeat
    alive ack halted c q t active s).pkt = s.pkt ∧ (fieldBeat alive ack halted c q t active s).out = s.out ∧
    (fieldBeat alive ack halted c q t active s).sense = s.sense ∧ (fieldBeat alive ack halted c q t active s).loop =
    s.loop ∧ (fieldBeat alive ack halted c q t active s).gnss = s.gnss ∧ (fieldBeat alive ack halted c q t active
    s).canA = s.canA ∧ (fieldBeat alive ack halted c q t active s).canB = s.canB ∧ (fieldBeat alive ack halted c q t
    active s).svc = s.svc ∧ (fieldBeat alive ack halted c q t active s).pwr = s.pwr ∧ (fieldBeat alive ack halted c
    q t active s).sec = s.sec ∧ (fieldBeat alive ack halted c q t active s).fw = s.fw ∧ (fieldBeat alive ack halted
    c q t active s).sect = s.sect := by
  simp [fieldBeat]
@[simp] theorem heartbeat_frame (h : Heartbeat) (s : State) :
    (heartbeat h s).pending = s.pending ∧ (heartbeat h s).free = s.free ∧ (heartbeat h s).id = s.id ∧ (heartbeat h
    s).regs = s.regs ∧ (heartbeat h s).chain = s.chain ∧ (heartbeat h s).pkt = s.pkt ∧ (heartbeat h s).out = s.out ∧
    (heartbeat h s).sense = s.sense ∧ (heartbeat h s).loop = s.loop ∧ (heartbeat h s).gnss = s.gnss ∧ (heartbeat h
    s).canA = s.canA ∧ (heartbeat h s).canB = s.canB ∧ (heartbeat h s).svc = s.svc ∧ (heartbeat h s).pwr = s.pwr ∧
    (heartbeat h s).sec = s.sec ∧ (heartbeat h s).fw = s.fw ∧ (heartbeat h s).sect = s.sect := by
  refine ⟨?_, ?_, ?_, ?_, ?_, ?_, ?_, ?_, ?_, ?_, ?_, ?_, ?_, ?_, ?_, ?_, ?_⟩
  · unfold heartbeat; (try dsimp only); repeat' (first | (intro _) | split | rw [foldl_keep (fun s : State => s.pending)] | rw [foldl_keep (fun x : List Edge × State => x.2.pending)] | rw [onDown_keep (fun s : State => s.pending)] | rw [onUp_keep (fun s : State => s.pending)] | rw [orElse_keep (fun s : State => s.pending)])
    all_goals first | rfl | (simp; done)
  · unfold heartbeat; (try dsimp only); repeat' (first | (intro _) | split | rw [foldl_keep (fun s : State => s.free)] | rw [foldl_keep (fun x : List Edge × State => x.2.free)] | rw [onDown_keep (fun s : State => s.free)] | rw [onUp_keep (fun s : State => s.free)] | rw [orElse_keep (fun s : State => s.free)])
    all_goals first | rfl | (simp; done)
  · unfold heartbeat; (try dsimp only); repeat' (first | (intro _) | split | rw [foldl_keep (fun s : State => s.id)] | rw [foldl_keep (fun x : List Edge × State => x.2.id)] | rw [onDown_keep (fun s : State => s.id)] | rw [onUp_keep (fun s : State => s.id)] | rw [orElse_keep (fun s : State => s.id)])
    all_goals first | rfl | (simp; done)
  · unfold heartbeat; (try dsimp only); repeat' (first | (intro _) | split | rw [foldl_keep (fun s : State => s.regs)] | rw [foldl_keep (fun x : List Edge × State => x.2.regs)] | rw [onDown_keep (fun s : State => s.regs)] | rw [onUp_keep (fun s : State => s.regs)] | rw [orElse_keep (fun s : State => s.regs)])
    all_goals first | rfl | (simp; done)
  · unfold heartbeat; (try dsimp only); repeat' (first | (intro _) | split | rw [foldl_keep (fun s : State => s.chain)] | rw [foldl_keep (fun x : List Edge × State => x.2.chain)] | rw [onDown_keep (fun s : State => s.chain)] | rw [onUp_keep (fun s : State => s.chain)] | rw [orElse_keep (fun s : State => s.chain)])
    all_goals first | rfl | (simp; done)
  · unfold heartbeat; (try dsimp only); repeat' (first | (intro _) | split | rw [foldl_keep (fun s : State => s.pkt)] | rw [foldl_keep (fun x : List Edge × State => x.2.pkt)] | rw [onDown_keep (fun s : State => s.pkt)] | rw [onUp_keep (fun s : State => s.pkt)] | rw [orElse_keep (fun s : State => s.pkt)])
    all_goals first | rfl | (simp; done)
  · unfold heartbeat; (try dsimp only); repeat' (first | (intro _) | split | rw [foldl_keep (fun s : State => s.out)] | rw [foldl_keep (fun x : List Edge × State => x.2.out)] | rw [onDown_keep (fun s : State => s.out)] | rw [onUp_keep (fun s : State => s.out)] | rw [orElse_keep (fun s : State => s.out)])
    all_goals first | rfl | (simp; done)
  · unfold heartbeat; (try dsimp only); repeat' (first | (intro _) | split | rw [foldl_keep (fun s : State => s.sense)] | rw [foldl_keep (fun x : List Edge × State => x.2.sense)] | rw [onDown_keep (fun s : State => s.sense)] | rw [onUp_keep (fun s : State => s.sense)] | rw [orElse_keep (fun s : State => s.sense)])
    all_goals first | rfl | (simp; done)
  · unfold heartbeat; (try dsimp only); repeat' (first | (intro _) | split | rw [foldl_keep (fun s : State => s.loop)] | rw [foldl_keep (fun x : List Edge × State => x.2.loop)] | rw [onDown_keep (fun s : State => s.loop)] | rw [onUp_keep (fun s : State => s.loop)] | rw [orElse_keep (fun s : State => s.loop)])
    all_goals first | rfl | (simp; done)
  · unfold heartbeat; (try dsimp only); repeat' (first | (intro _) | split | rw [foldl_keep (fun s : State => s.gnss)] | rw [foldl_keep (fun x : List Edge × State => x.2.gnss)] | rw [onDown_keep (fun s : State => s.gnss)] | rw [onUp_keep (fun s : State => s.gnss)] | rw [orElse_keep (fun s : State => s.gnss)])
    all_goals first | rfl | (simp; done)
  · unfold heartbeat; (try dsimp only); repeat' (first | (intro _) | split | rw [foldl_keep (fun s : State => s.canA)] | rw [foldl_keep (fun x : List Edge × State => x.2.canA)] | rw [onDown_keep (fun s : State => s.canA)] | rw [onUp_keep (fun s : State => s.canA)] | rw [orElse_keep (fun s : State => s.canA)])
    all_goals first | rfl | (simp; done)
  · unfold heartbeat; (try dsimp only); repeat' (first | (intro _) | split | rw [foldl_keep (fun s : State => s.canB)] | rw [foldl_keep (fun x : List Edge × State => x.2.canB)] | rw [onDown_keep (fun s : State => s.canB)] | rw [onUp_keep (fun s : State => s.canB)] | rw [orElse_keep (fun s : State => s.canB)])
    all_goals first | rfl | (simp; done)
  · unfold heartbeat; (try dsimp only); repeat' (first | (intro _) | split | rw [foldl_keep (fun s : State => s.svc)] | rw [foldl_keep (fun x : List Edge × State => x.2.svc)] | rw [onDown_keep (fun s : State => s.svc)] | rw [onUp_keep (fun s : State => s.svc)] | rw [orElse_keep (fun s : State => s.svc)])
    all_goals first | rfl | (simp; done)
  · unfold heartbeat; (try dsimp only); repeat' (first | (intro _) | split | rw [foldl_keep (fun s : State => s.pwr)] | rw [foldl_keep (fun x : List Edge × State => x.2.pwr)] | rw [onDown_keep (fun s : State => s.pwr)] | rw [onUp_keep (fun s : State => s.pwr)] | rw [orElse_keep (fun s : State => s.pwr)])
    all_goals first | rfl | (simp; done)
  · unfold heartbeat; (try dsimp only); repeat' (first | (intro _) | split | rw [foldl_keep (fun s : State => s.sec)] | rw [foldl_keep (fun x : List Edge × State => x.2.sec)] | rw [onDown_keep (fun s : State => s.sec)] | rw [onUp_keep (fun s : State => s.sec)] | rw [orElse_keep (fun s : State => s.sec)])
    all_goals first | rfl | (simp; done)
  · unfold heartbeat; (try dsimp only); repeat' (first | (intro _) | split | rw [foldl_keep (fun s : State => s.fw)] | rw [foldl_keep (fun x : List Edge × State => x.2.fw)] | rw [onDown_keep (fun s : State => s.fw)] | rw [onUp_keep (fun s : State => s.fw)] | rw [orElse_keep (fun s : State => s.fw)])
    all_goals first | rfl | (simp; done)
  · unfold heartbeat; (try dsimp only); repeat' (first | (intro _) | split | rw [foldl_keep (fun s : State => s.sect)] | rw [foldl_keep (fun x : List Edge × State => x.2.sect)] | rw [onDown_keep (fun s : State => s.sect)] | rw [onUp_keep (fun s : State => s.sect)] | rw [orElse_keep (fun s : State => s.sect)])
    all_goals first | rfl | (simp; done)
@[simp] theorem safeTaken_frame (causes : BitVec 16) (s : State) :
    (safeTaken causes s).pending = s.pending ∧ (safeTaken causes s).free = s.free ∧ (safeTaken causes s).id = s.id ∧
    (safeTaken causes s).regs = s.regs ∧ (safeTaken causes s).chain = s.chain ∧ (safeTaken causes s).gnss = s.gnss ∧
    (safeTaken causes s).canA = s.canA ∧ (safeTaken causes s).canB = s.canB ∧ (safeTaken causes s).svc = s.svc ∧
    (safeTaken causes s).pwr = s.pwr ∧ (safeTaken causes s).sec = s.sec := by
  simp [safeTaken]
@[simp] theorem safeReq_frame (causes : BitVec 16) (s : State) :
    (safeReq causes s).pending = s.pending ∧ (safeReq causes s).free = s.free ∧ (safeReq causes s).id = s.id ∧
    (safeReq causes s).regs = s.regs ∧ (safeReq causes s).chain = s.chain ∧ (safeReq causes s).gnss = s.gnss ∧
    (safeReq causes s).canA = s.canA ∧ (safeReq causes s).canB = s.canB ∧ (safeReq causes s).svc = s.svc ∧ (safeReq
    causes s).pwr = s.pwr ∧ (safeReq causes s).sec = s.sec := by
  refine ⟨?_, ?_, ?_, ?_, ?_, ?_, ?_, ?_, ?_, ?_, ?_⟩
  · first
    | rfl
    | (simp [safeReq]; done)
    | (unfold safeReq; dsimp only; (repeat' split) <;> (first | (simp; done) | (rw [foldl_keep (fun s : State => s.pending)]; · simp; · intro s a; (try dsimp only); (repeat' split) <;> simp; done)))
    | (unfold safeReq; rw [onDown_keep (fun s : State => s.pending)] <;> intros <;> simp; done)
    | (unfold safeReq; rw [onUp_keep (fun s : State => s.pending)] <;> intros <;> simp; done)
  · first
    | rfl
    | (simp [safeReq]; done)
    | (unfold safeReq; dsimp only; (repeat' split) <;> (first | (simp; done) | (rw [foldl_keep (fun s : State => s.free)]; · simp; · intro s a; (try dsimp only); (repeat' split) <;> simp; done)))
    | (unfold safeReq; rw [onDown_keep (fun s : State => s.free)] <;> intros <;> simp; done)
    | (unfold safeReq; rw [onUp_keep (fun s : State => s.free)] <;> intros <;> simp; done)
  · first
    | rfl
    | (simp [safeReq]; done)
    | (unfold safeReq; dsimp only; (repeat' split) <;> (first | (simp; done) | (rw [foldl_keep (fun s : State => s.id)]; · simp; · intro s a; (try dsimp only); (repeat' split) <;> simp; done)))
    | (unfold safeReq; rw [onDown_keep (fun s : State => s.id)] <;> intros <;> simp; done)
    | (unfold safeReq; rw [onUp_keep (fun s : State => s.id)] <;> intros <;> simp; done)
  · first
    | rfl
    | (simp [safeReq]; done)
    | (unfold safeReq; dsimp only; (repeat' split) <;> (first | (simp; done) | (rw [foldl_keep (fun s : State => s.regs)]; · simp; · intro s a; (try dsimp only); (repeat' split) <;> simp; done)))
    | (unfold safeReq; rw [onDown_keep (fun s : State => s.regs)] <;> intros <;> simp; done)
    | (unfold safeReq; rw [onUp_keep (fun s : State => s.regs)] <;> intros <;> simp; done)
  · first
    | rfl
    | (simp [safeReq]; done)
    | (unfold safeReq; dsimp only; (repeat' split) <;> (first | (simp; done) | (rw [foldl_keep (fun s : State => s.chain)]; · simp; · intro s a; (try dsimp only); (repeat' split) <;> simp; done)))
    | (unfold safeReq; rw [onDown_keep (fun s : State => s.chain)] <;> intros <;> simp; done)
    | (unfold safeReq; rw [onUp_keep (fun s : State => s.chain)] <;> intros <;> simp; done)
  · first
    | rfl
    | (simp [safeReq]; done)
    | (unfold safeReq; dsimp only; (repeat' split) <;> (first | (simp; done) | (rw [foldl_keep (fun s : State => s.gnss)]; · simp; · intro s a; (try dsimp only); (repeat' split) <;> simp; done)))
    | (unfold safeReq; rw [onDown_keep (fun s : State => s.gnss)] <;> intros <;> simp; done)
    | (unfold safeReq; rw [onUp_keep (fun s : State => s.gnss)] <;> intros <;> simp; done)
  · first
    | rfl
    | (simp [safeReq]; done)
    | (unfold safeReq; dsimp only; (repeat' split) <;> (first | (simp; done) | (rw [foldl_keep (fun s : State => s.canA)]; · simp; · intro s a; (try dsimp only); (repeat' split) <;> simp; done)))
    | (unfold safeReq; rw [onDown_keep (fun s : State => s.canA)] <;> intros <;> simp; done)
    | (unfold safeReq; rw [onUp_keep (fun s : State => s.canA)] <;> intros <;> simp; done)
  · first
    | rfl
    | (simp [safeReq]; done)
    | (unfold safeReq; dsimp only; (repeat' split) <;> (first | (simp; done) | (rw [foldl_keep (fun s : State => s.canB)]; · simp; · intro s a; (try dsimp only); (repeat' split) <;> simp; done)))
    | (unfold safeReq; rw [onDown_keep (fun s : State => s.canB)] <;> intros <;> simp; done)
    | (unfold safeReq; rw [onUp_keep (fun s : State => s.canB)] <;> intros <;> simp; done)
  · first
    | rfl
    | (simp [safeReq]; done)
    | (unfold safeReq; dsimp only; (repeat' split) <;> (first | (simp; done) | (rw [foldl_keep (fun s : State => s.svc)]; · simp; · intro s a; (try dsimp only); (repeat' split) <;> simp; done)))
    | (unfold safeReq; rw [onDown_keep (fun s : State => s.svc)] <;> intros <;> simp; done)
    | (unfold safeReq; rw [onUp_keep (fun s : State => s.svc)] <;> intros <;> simp; done)
  · first
    | rfl
    | (simp [safeReq]; done)
    | (unfold safeReq; dsimp only; (repeat' split) <;> (first | (simp; done) | (rw [foldl_keep (fun s : State => s.pwr)]; · simp; · intro s a; (try dsimp only); (repeat' split) <;> simp; done)))
    | (unfold safeReq; rw [onDown_keep (fun s : State => s.pwr)] <;> intros <;> simp; done)
    | (unfold safeReq; rw [onUp_keep (fun s : State => s.pwr)] <;> intros <;> simp; done)
  · first
    | rfl
    | (simp [safeReq]; done)
    | (unfold safeReq; dsimp only; (repeat' split) <;> (first | (simp; done) | (rw [foldl_keep (fun s : State => s.sec)]; · simp; · intro s a; (try dsimp only); (repeat' split) <;> simp; done)))
    | (unfold safeReq; rw [onDown_keep (fun s : State => s.sec)] <;> intros <;> simp; done)
    | (unfold safeReq; rw [onUp_keep (fun s : State => s.sec)] <;> intros <;> simp; done)
@[simp] theorem syncTaken_frame (tb : BitVec 64) (s : State) :
    (syncTaken tb s).pending = s.pending ∧ (syncTaken tb s).free = s.free ∧ (syncTaken tb s).id = s.id ∧ (syncTaken
    tb s).modes = s.modes ∧ (syncTaken tb s).regs = s.regs ∧ (syncTaken tb s).chain = s.chain ∧ (syncTaken tb s).pkt
    = s.pkt ∧ (syncTaken tb s).out = s.out ∧ (syncTaken tb s).sense = s.sense ∧ (syncTaken tb s).loop = s.loop ∧
    (syncTaken tb s).gnss = s.gnss ∧ (syncTaken tb s).canA = s.canA ∧ (syncTaken tb s).canB = s.canB ∧ (syncTaken tb
    s).svc = s.svc ∧ (syncTaken tb s).pwr = s.pwr ∧ (syncTaken tb s).sec = s.sec ∧ (syncTaken tb s).fw = s.fw ∧
    (syncTaken tb s).sect = s.sect := by
  simp [syncTaken]
@[simp] theorem timeSync_frame (tb : BitVec 64) (s : State) :
    (timeSync tb s).pending = s.pending ∧ (timeSync tb s).free = s.free ∧ (timeSync tb s).id = s.id ∧ (timeSync tb
    s).modes = s.modes ∧ (timeSync tb s).regs = s.regs ∧ (timeSync tb s).chain = s.chain ∧ (timeSync tb s).pkt =
    s.pkt ∧ (timeSync tb s).out = s.out ∧ (timeSync tb s).sense = s.sense ∧ (timeSync tb s).loop = s.loop ∧
    (timeSync tb s).gnss = s.gnss ∧ (timeSync tb s).canA = s.canA ∧ (timeSync tb s).canB = s.canB ∧ (timeSync tb
    s).svc = s.svc ∧ (timeSync tb s).pwr = s.pwr ∧ (timeSync tb s).sec = s.sec ∧ (timeSync tb s).fw = s.fw ∧
    (timeSync tb s).sect = s.sect := by
  refine ⟨?_, ?_, ?_, ?_, ?_, ?_, ?_, ?_, ?_, ?_, ?_, ?_, ?_, ?_, ?_, ?_, ?_, ?_⟩
  · first
    | rfl
    | (simp [timeSync]; done)
    | (unfold timeSync; dsimp only; (repeat' split) <;> (first | (simp; done) | (rw [foldl_keep (fun s : State => s.pending)]; · simp; · intro s a; (try dsimp only); (repeat' split) <;> simp; done)))
    | (unfold timeSync; rw [onDown_keep (fun s : State => s.pending)] <;> intros <;> simp; done)
    | (unfold timeSync; rw [onUp_keep (fun s : State => s.pending)] <;> intros <;> simp; done)
  · first
    | rfl
    | (simp [timeSync]; done)
    | (unfold timeSync; dsimp only; (repeat' split) <;> (first | (simp; done) | (rw [foldl_keep (fun s : State => s.free)]; · simp; · intro s a; (try dsimp only); (repeat' split) <;> simp; done)))
    | (unfold timeSync; rw [onDown_keep (fun s : State => s.free)] <;> intros <;> simp; done)
    | (unfold timeSync; rw [onUp_keep (fun s : State => s.free)] <;> intros <;> simp; done)
  · first
    | rfl
    | (simp [timeSync]; done)
    | (unfold timeSync; dsimp only; (repeat' split) <;> (first | (simp; done) | (rw [foldl_keep (fun s : State => s.id)]; · simp; · intro s a; (try dsimp only); (repeat' split) <;> simp; done)))
    | (unfold timeSync; rw [onDown_keep (fun s : State => s.id)] <;> intros <;> simp; done)
    | (unfold timeSync; rw [onUp_keep (fun s : State => s.id)] <;> intros <;> simp; done)
  · first
    | rfl
    | (simp [timeSync]; done)
    | (unfold timeSync; dsimp only; (repeat' split) <;> (first | (simp; done) | (rw [foldl_keep (fun s : State => s.modes)]; · simp; · intro s a; (try dsimp only); (repeat' split) <;> simp; done)))
    | (unfold timeSync; rw [onDown_keep (fun s : State => s.modes)] <;> intros <;> simp; done)
    | (unfold timeSync; rw [onUp_keep (fun s : State => s.modes)] <;> intros <;> simp; done)
  · first
    | rfl
    | (simp [timeSync]; done)
    | (unfold timeSync; dsimp only; (repeat' split) <;> (first | (simp; done) | (rw [foldl_keep (fun s : State => s.regs)]; · simp; · intro s a; (try dsimp only); (repeat' split) <;> simp; done)))
    | (unfold timeSync; rw [onDown_keep (fun s : State => s.regs)] <;> intros <;> simp; done)
    | (unfold timeSync; rw [onUp_keep (fun s : State => s.regs)] <;> intros <;> simp; done)
  · first
    | rfl
    | (simp [timeSync]; done)
    | (unfold timeSync; dsimp only; (repeat' split) <;> (first | (simp; done) | (rw [foldl_keep (fun s : State => s.chain)]; · simp; · intro s a; (try dsimp only); (repeat' split) <;> simp; done)))
    | (unfold timeSync; rw [onDown_keep (fun s : State => s.chain)] <;> intros <;> simp; done)
    | (unfold timeSync; rw [onUp_keep (fun s : State => s.chain)] <;> intros <;> simp; done)
  · first
    | rfl
    | (simp [timeSync]; done)
    | (unfold timeSync; dsimp only; (repeat' split) <;> (first | (simp; done) | (rw [foldl_keep (fun s : State => s.pkt)]; · simp; · intro s a; (try dsimp only); (repeat' split) <;> simp; done)))
    | (unfold timeSync; rw [onDown_keep (fun s : State => s.pkt)] <;> intros <;> simp; done)
    | (unfold timeSync; rw [onUp_keep (fun s : State => s.pkt)] <;> intros <;> simp; done)
  · first
    | rfl
    | (simp [timeSync]; done)
    | (unfold timeSync; dsimp only; (repeat' split) <;> (first | (simp; done) | (rw [foldl_keep (fun s : State => s.out)]; · simp; · intro s a; (try dsimp only); (repeat' split) <;> simp; done)))
    | (unfold timeSync; rw [onDown_keep (fun s : State => s.out)] <;> intros <;> simp; done)
    | (unfold timeSync; rw [onUp_keep (fun s : State => s.out)] <;> intros <;> simp; done)
  · first
    | rfl
    | (simp [timeSync]; done)
    | (unfold timeSync; dsimp only; (repeat' split) <;> (first | (simp; done) | (rw [foldl_keep (fun s : State => s.sense)]; · simp; · intro s a; (try dsimp only); (repeat' split) <;> simp; done)))
    | (unfold timeSync; rw [onDown_keep (fun s : State => s.sense)] <;> intros <;> simp; done)
    | (unfold timeSync; rw [onUp_keep (fun s : State => s.sense)] <;> intros <;> simp; done)
  · first
    | rfl
    | (simp [timeSync]; done)
    | (unfold timeSync; dsimp only; (repeat' split) <;> (first | (simp; done) | (rw [foldl_keep (fun s : State => s.loop)]; · simp; · intro s a; (try dsimp only); (repeat' split) <;> simp; done)))
    | (unfold timeSync; rw [onDown_keep (fun s : State => s.loop)] <;> intros <;> simp; done)
    | (unfold timeSync; rw [onUp_keep (fun s : State => s.loop)] <;> intros <;> simp; done)
  · first
    | rfl
    | (simp [timeSync]; done)
    | (unfold timeSync; dsimp only; (repeat' split) <;> (first | (simp; done) | (rw [foldl_keep (fun s : State => s.gnss)]; · simp; · intro s a; (try dsimp only); (repeat' split) <;> simp; done)))
    | (unfold timeSync; rw [onDown_keep (fun s : State => s.gnss)] <;> intros <;> simp; done)
    | (unfold timeSync; rw [onUp_keep (fun s : State => s.gnss)] <;> intros <;> simp; done)
  · first
    | rfl
    | (simp [timeSync]; done)
    | (unfold timeSync; dsimp only; (repeat' split) <;> (first | (simp; done) | (rw [foldl_keep (fun s : State => s.canA)]; · simp; · intro s a; (try dsimp only); (repeat' split) <;> simp; done)))
    | (unfold timeSync; rw [onDown_keep (fun s : State => s.canA)] <;> intros <;> simp; done)
    | (unfold timeSync; rw [onUp_keep (fun s : State => s.canA)] <;> intros <;> simp; done)
  · first
    | rfl
    | (simp [timeSync]; done)
    | (unfold timeSync; dsimp only; (repeat' split) <;> (first | (simp; done) | (rw [foldl_keep (fun s : State => s.canB)]; · simp; · intro s a; (try dsimp only); (repeat' split) <;> simp; done)))
    | (unfold timeSync; rw [onDown_keep (fun s : State => s.canB)] <;> intros <;> simp; done)
    | (unfold timeSync; rw [onUp_keep (fun s : State => s.canB)] <;> intros <;> simp; done)
  · first
    | rfl
    | (simp [timeSync]; done)
    | (unfold timeSync; dsimp only; (repeat' split) <;> (first | (simp; done) | (rw [foldl_keep (fun s : State => s.svc)]; · simp; · intro s a; (try dsimp only); (repeat' split) <;> simp; done)))
    | (unfold timeSync; rw [onDown_keep (fun s : State => s.svc)] <;> intros <;> simp; done)
    | (unfold timeSync; rw [onUp_keep (fun s : State => s.svc)] <;> intros <;> simp; done)
  · first
    | rfl
    | (simp [timeSync]; done)
    | (unfold timeSync; dsimp only; (repeat' split) <;> (first | (simp; done) | (rw [foldl_keep (fun s : State => s.pwr)]; · simp; · intro s a; (try dsimp only); (repeat' split) <;> simp; done)))
    | (unfold timeSync; rw [onDown_keep (fun s : State => s.pwr)] <;> intros <;> simp; done)
    | (unfold timeSync; rw [onUp_keep (fun s : State => s.pwr)] <;> intros <;> simp; done)
  · first
    | rfl
    | (simp [timeSync]; done)
    | (unfold timeSync; dsimp only; (repeat' split) <;> (first | (simp; done) | (rw [foldl_keep (fun s : State => s.sec)]; · simp; · intro s a; (try dsimp only); (repeat' split) <;> simp; done)))
    | (unfold timeSync; rw [onDown_keep (fun s : State => s.sec)] <;> intros <;> simp; done)
    | (unfold timeSync; rw [onUp_keep (fun s : State => s.sec)] <;> intros <;> simp; done)
  · first
    | rfl
    | (simp [timeSync]; done)
    | (unfold timeSync; dsimp only; (repeat' split) <;> (first | (simp; done) | (rw [foldl_keep (fun s : State => s.fw)]; · simp; · intro s a; (try dsimp only); (repeat' split) <;> simp; done)))
    | (unfold timeSync; rw [onDown_keep (fun s : State => s.fw)] <;> intros <;> simp; done)
    | (unfold timeSync; rw [onUp_keep (fun s : State => s.fw)] <;> intros <;> simp; done)
  · first
    | rfl
    | (simp [timeSync]; done)
    | (unfold timeSync; dsimp only; (repeat' split) <;> (first | (simp; done) | (rw [foldl_keep (fun s : State => s.sect)]; · simp; · intro s a; (try dsimp only); (repeat' split) <;> simp; done)))
    | (unfold timeSync; rw [onDown_keep (fun s : State => s.sect)] <;> intros <;> simp; done)
    | (unfold timeSync; rw [onUp_keep (fun s : State => s.sect)] <;> intros <;> simp; done)
@[simp] theorem drawTag_frame (s : State) :
    (drawTag s).2.pending = s.pending ∧ (drawTag s).2.free = s.free ∧ (drawTag s).2.id = s.id ∧ (drawTag s).2.modes
    = s.modes ∧ (drawTag s).2.regs = s.regs ∧ (drawTag s).2.clk = s.clk ∧ (drawTag s).2.chain = s.chain ∧ (drawTag
    s).2.pkt = s.pkt ∧ (drawTag s).2.out = s.out ∧ (drawTag s).2.sense = s.sense ∧ (drawTag s).2.loop = s.loop ∧
    (drawTag s).2.gnss = s.gnss ∧ (drawTag s).2.canA = s.canA ∧ (drawTag s).2.canB = s.canB ∧ (drawTag s).2.svc =
    s.svc ∧ (drawTag s).2.pwr = s.pwr ∧ (drawTag s).2.sec = s.sec ∧ (drawTag s).2.fw = s.fw ∧ (drawTag s).2.ev =
    s.ev ∧ (drawTag s).2.sect = s.sect := by simp [drawTag]
@[simp] theorem sendTxn_frame (t0 : RegTxn) (s : State) :
    (sendTxn t0 s).pending = s.pending ∧ (sendTxn t0 s).free = s.free ∧ (sendTxn t0 s).id = s.id ∧ (sendTxn t0
    s).modes = s.modes ∧ (sendTxn t0 s).regs = s.regs ∧ (sendTxn t0 s).clk = s.clk ∧ (sendTxn t0 s).chain = s.chain
    ∧ (sendTxn t0 s).pkt = s.pkt ∧ (sendTxn t0 s).out = s.out ∧ (sendTxn t0 s).sense = s.sense ∧ (sendTxn t0 s).loop
    = s.loop ∧ (sendTxn t0 s).gnss = s.gnss ∧ (sendTxn t0 s).canA = s.canA ∧ (sendTxn t0 s).canB = s.canB ∧ (sendTxn
    t0 s).svc = s.svc ∧ (sendTxn t0 s).pwr = s.pwr ∧ (sendTxn t0 s).sec = s.sec ∧ (sendTxn t0 s).fw = s.fw ∧
    (sendTxn t0 s).ev = s.ev ∧ (sendTxn t0 s).sect = s.sect := by
  unfold sendTxn; dsimp only; (repeat' split) <;> simp
@[simp] theorem startWrite_frame (why : TxnFor) (sched : Bool) (applyAt : Frame48) (puts : List RegPut) (s : State) :
    (startWrite why sched applyAt puts s).pending = s.pending ∧ (startWrite why sched applyAt puts s).free = s.free
    ∧ (startWrite why sched applyAt puts s).id = s.id ∧ (startWrite why sched applyAt puts s).modes = s.modes ∧
    (startWrite why sched applyAt puts s).regs = s.regs ∧ (startWrite why sched applyAt puts s).clk = s.clk ∧
    (startWrite why sched applyAt puts s).chain = s.chain ∧ (startWrite why sched applyAt puts s).pkt = s.pkt ∧
    (startWrite why sched applyAt puts s).out = s.out ∧ (startWrite why sched applyAt puts s).sense = s.sense ∧
    (startWrite why sched applyAt puts s).loop = s.loop ∧ (startWrite why sched applyAt puts s).gnss = s.gnss ∧
    (startWrite why sched applyAt puts s).canA = s.canA ∧ (startWrite why sched applyAt puts s).canB = s.canB ∧
    (startWrite why sched applyAt puts s).svc = s.svc ∧ (startWrite why sched applyAt puts s).pwr = s.pwr ∧
    (startWrite why sched applyAt puts s).sec = s.sec ∧ (startWrite why sched applyAt puts s).fw = s.fw ∧
    (startWrite why sched applyAt puts s).ev = s.ev ∧ (startWrite why sched applyAt puts s).sect = s.sect := by simp [startWrite]
@[simp] theorem startRead_frame (why : TxnFor) (a : BitVec 24) (n : Nat) (s : State) :
    (startRead why a n s).pending = s.pending ∧ (startRead why a n s).free = s.free ∧ (startRead why a n s).id =
    s.id ∧ (startRead why a n s).modes = s.modes ∧ (startRead why a n s).regs = s.regs ∧ (startRead why a n s).clk =
    s.clk ∧ (startRead why a n s).chain = s.chain ∧ (startRead why a n s).pkt = s.pkt ∧ (startRead why a n s).out =
    s.out ∧ (startRead why a n s).sense = s.sense ∧ (startRead why a n s).loop = s.loop ∧ (startRead why a n s).gnss
    = s.gnss ∧ (startRead why a n s).canA = s.canA ∧ (startRead why a n s).canB = s.canB ∧ (startRead why a n s).svc
    = s.svc ∧ (startRead why a n s).pwr = s.pwr ∧ (startRead why a n s).sec = s.sec ∧ (startRead why a n s).fw =
    s.fw ∧ (startRead why a n s).ev = s.ev ∧ (startRead why a n s).sect = s.sect := by simp [startRead]
@[simp] theorem startOp_frame (why : TxnFor) (sched : Bool) (applyAt : Frame48) (o : FieldOp) (s : State) :
    (startOp why sched applyAt o s).pending = s.pending ∧ (startOp why sched applyAt o s).free = s.free ∧ (startOp
    why sched applyAt o s).id = s.id ∧ (startOp why sched applyAt o s).modes = s.modes ∧ (startOp why sched applyAt
    o s).regs = s.regs ∧ (startOp why sched applyAt o s).clk = s.clk ∧ (startOp why sched applyAt o s).chain =
    s.chain ∧ (startOp why sched applyAt o s).pkt = s.pkt ∧ (startOp why sched applyAt o s).out = s.out ∧ (startOp
    why sched applyAt o s).sense = s.sense ∧ (startOp why sched applyAt o s).loop = s.loop ∧ (startOp why sched
    applyAt o s).gnss = s.gnss ∧ (startOp why sched applyAt o s).canA = s.canA ∧ (startOp why sched applyAt o
    s).canB = s.canB ∧ (startOp why sched applyAt o s).svc = s.svc ∧ (startOp why sched applyAt o s).pwr = s.pwr ∧
    (startOp why sched applyAt o s).sec = s.sec ∧ (startOp why sched applyAt o s).fw = s.fw ∧ (startOp why sched
    applyAt o s).ev = s.ev ∧ (startOp why sched applyAt o s).sect = s.sect := by
  simp [startOp]
@[simp] theorem opAnswer_frame (q : Request) (status detail : Byte) (data : List Byte) (s : State) :
    (opAnswer q status detail data s).1.pending = s.pending ∧ (opAnswer q status detail data s).1.free = s.free ∧
    (opAnswer q status detail data s).1.id = s.id ∧ (opAnswer q status detail data s).1.modes = s.modes ∧ (opAnswer
    q status detail data s).1.regs = s.regs ∧ (opAnswer q status detail data s).1.clk = s.clk ∧ (opAnswer q status
    detail data s).1.barr = s.barr ∧ (opAnswer q status detail data s).1.chain = s.chain ∧ (opAnswer q status detail
    data s).1.out = s.out ∧ (opAnswer q status detail data s).1.sense = s.sense ∧ (opAnswer q status detail data
    s).1.loop = s.loop ∧ (opAnswer q status detail data s).1.gnss = s.gnss ∧ (opAnswer q status detail data
    s).1.canA = s.canA ∧ (opAnswer q status detail data s).1.canB = s.canB ∧ (opAnswer q status detail data s).1.svc
    = s.svc ∧ (opAnswer q status detail data s).1.pwr = s.pwr ∧ (opAnswer q status detail data s).1.sec = s.sec ∧
    (opAnswer q status detail data s).1.fw = s.fw ∧ (opAnswer q status detail data s).1.ev = s.ev ∧ (opAnswer q
    status detail data s).1.sect = s.sect := by
  unfold opAnswer; (repeat' split) <;> simp
@[simp] theorem answerTxn_frame (t : RegTxn) (q : Request) (status detail : Byte) (s : State) :
    (answerTxn t q status detail s).pending = s.pending ∧ (answerTxn t q status detail s).free = s.free ∧ (answerTxn
    t q status detail s).id = s.id ∧ (answerTxn t q status detail s).modes = s.modes ∧ (answerTxn t q status detail
    s).regs = s.regs ∧ (answerTxn t q status detail s).clk = s.clk ∧ (answerTxn t q status detail s).out = s.out ∧
    (answerTxn t q status detail s).sense = s.sense ∧ (answerTxn t q status detail s).loop = s.loop ∧ (answerTxn t q
    status detail s).gnss = s.gnss ∧ (answerTxn t q status detail s).canA = s.canA ∧ (answerTxn t q status detail
    s).canB = s.canB ∧ (answerTxn t q status detail s).pwr = s.pwr ∧ (answerTxn t q status detail s).sec = s.sec ∧
    (answerTxn t q status detail s).fw = s.fw ∧ (answerTxn t q status detail s).sect = s.sect := by simp [answerTxn]
@[simp] theorem sendBankWord_frame (p : RegPut) (s : State) :
    (sendBankWord p s).pending = s.pending ∧ (sendBankWord p s).free = s.free ∧ (sendBankWord p s).id = s.id ∧
    (sendBankWord p s).modes = s.modes ∧ (sendBankWord p s).regs = s.regs ∧ (sendBankWord p s).clk = s.clk ∧
    (sendBankWord p s).chain = s.chain ∧ (sendBankWord p s).pkt = s.pkt ∧ (sendBankWord p s).out = s.out ∧
    (sendBankWord p s).sense = s.sense ∧ (sendBankWord p s).loop = s.loop ∧ (sendBankWord p s).gnss = s.gnss ∧
    (sendBankWord p s).canA = s.canA ∧ (sendBankWord p s).canB = s.canB ∧ (sendBankWord p s).svc = s.svc ∧
    (sendBankWord p s).pwr = s.pwr ∧ (sendBankWord p s).sec = s.sec ∧ (sendBankWord p s).fw = s.fw ∧ (sendBankWord p
    s).ev = s.ev ∧ (sendBankWord p s).sect = s.sect := by simp [sendBankWord]
@[simp] theorem configureNext_frame (s : State) :
    (configureNext s).pending = s.pending ∧ (configureNext s).free = s.free ∧ (configureNext s).id = s.id ∧
    (configureNext s).modes = s.modes ∧ (configureNext s).regs = s.regs ∧ (configureNext s).clk = s.clk ∧
    (configureNext s).chain = s.chain ∧ (configureNext s).pkt = s.pkt ∧ (configureNext s).out = s.out ∧
    (configureNext s).sense = s.sense ∧ (configureNext s).loop = s.loop ∧ (configureNext s).gnss = s.gnss ∧
    (configureNext s).canA = s.canA ∧ (configureNext s).canB = s.canB ∧ (configureNext s).svc = s.svc ∧
    (configureNext s).pwr = s.pwr ∧ (configureNext s).sec = s.sec ∧ (configureNext s).ev = s.ev ∧ (configureNext
    s).sect = s.sect := by
  unfold configureNext; split <;> simp
@[simp] theorem cfgRefusal_frame (s : State) :
    (cfgRefusal s).pending = s.pending ∧ (cfgRefusal s).free = s.free ∧ (cfgRefusal s).id = s.id ∧ (cfgRefusal
    s).modes = s.modes ∧ (cfgRefusal s).regs = s.regs ∧ (cfgRefusal s).clk = s.clk ∧ (cfgRefusal s).chain = s.chain
    ∧ (cfgRefusal s).pkt = s.pkt ∧ (cfgRefusal s).out = s.out ∧ (cfgRefusal s).sense = s.sense ∧ (cfgRefusal s).loop
    = s.loop ∧ (cfgRefusal s).gnss = s.gnss ∧ (cfgRefusal s).canA = s.canA ∧ (cfgRefusal s).canB = s.canB ∧
    (cfgRefusal s).svc = s.svc ∧ (cfgRefusal s).pwr = s.pwr ∧ (cfgRefusal s).sec = s.sec ∧ (cfgRefusal s).sect =
    s.sect := by simp [cfgRefusal]
@[simp] theorem endTxn_frame (t : RegTxn) (status detail : Byte) (s : State) :
    (endTxn t status detail s).pending = s.pending ∧ (endTxn t status detail s).free = s.free ∧ (endTxn t status
    detail s).id = s.id ∧ (endTxn t status detail s).modes = s.modes ∧ (endTxn t status detail s).regs = s.regs ∧
    (endTxn t status detail s).clk = s.clk ∧ (endTxn t status detail s).out = s.out ∧ (endTxn t status detail
    s).sense = s.sense ∧ (endTxn t status detail s).loop = s.loop ∧ (endTxn t status detail s).gnss = s.gnss ∧
    (endTxn t status detail s).canA = s.canA ∧ (endTxn t status detail s).canB = s.canB ∧ (endTxn t status detail
    s).pwr = s.pwr ∧ (endTxn t status detail s).sec = s.sec ∧ (endTxn t status detail s).sect = s.sect := by
  unfold endTxn; split <;> simp
@[simp] theorem dataTaken_frame (tag : BitVec 16) (status : Byte) (addr : BitVec 24) (values : List Word) (s : State) :
    (dataTaken tag status addr values s).pending = s.pending ∧ (dataTaken tag status addr values s).free = s.free ∧
    (dataTaken tag status addr values s).id = s.id ∧ (dataTaken tag status addr values s).modes = s.modes ∧
    (dataTaken tag status addr values s).regs = s.regs ∧ (dataTaken tag status addr values s).clk = s.clk ∧
    (dataTaken tag status addr values s).out = s.out ∧ (dataTaken tag status addr values s).sense = s.sense ∧
    (dataTaken tag status addr values s).loop = s.loop ∧ (dataTaken tag status addr values s).gnss = s.gnss ∧
    (dataTaken tag status addr values s).canA = s.canA ∧ (dataTaken tag status addr values s).canB = s.canB ∧
    (dataTaken tag status addr values s).pwr = s.pwr ∧ (dataTaken tag status addr values s).sec = s.sec ∧ (dataTaken
    tag status addr values s).sect = s.sect := by
  unfold dataTaken; split <;> simp
@[simp] theorem cfgData_frame (tag : BitVec 16) (status : Byte) (addr : BitVec 24) (values : List Word) (s : State) :
    (cfgData tag status addr values s).pending = s.pending ∧ (cfgData tag status addr values s).free = s.free ∧
    (cfgData tag status addr values s).id = s.id ∧ (cfgData tag status addr values s).modes = s.modes ∧ (cfgData tag
    status addr values s).regs = s.regs ∧ (cfgData tag status addr values s).out = s.out ∧ (cfgData tag status addr
    values s).sense = s.sense ∧ (cfgData tag status addr values s).loop = s.loop ∧ (cfgData tag status addr values
    s).gnss = s.gnss ∧ (cfgData tag status addr values s).canA = s.canA ∧ (cfgData tag status addr values s).canB =
    s.canB ∧ (cfgData tag status addr values s).pwr = s.pwr ∧ (cfgData tag status addr values s).sec = s.sec ∧
    (cfgData tag status addr values s).sect = s.sect := by
  refine ⟨?_, ?_, ?_, ?_, ?_, ?_, ?_, ?_, ?_, ?_, ?_, ?_, ?_, ?_⟩
  · first
    | rfl
    | (simp [cfgData]; done)
    | (unfold cfgData; dsimp only; (repeat' split) <;> (first | (simp; done) | (rw [foldl_keep (fun s : State => s.pending)]; · simp; · intro s a; (try dsimp only); (repeat' split) <;> simp; done)))
    | (unfold cfgData; rw [onDown_keep (fun s : State => s.pending)] <;> intros <;> simp; done)
    | (unfold cfgData; rw [onUp_keep (fun s : State => s.pending)] <;> intros <;> simp; done)
  · first
    | rfl
    | (simp [cfgData]; done)
    | (unfold cfgData; dsimp only; (repeat' split) <;> (first | (simp; done) | (rw [foldl_keep (fun s : State => s.free)]; · simp; · intro s a; (try dsimp only); (repeat' split) <;> simp; done)))
    | (unfold cfgData; rw [onDown_keep (fun s : State => s.free)] <;> intros <;> simp; done)
    | (unfold cfgData; rw [onUp_keep (fun s : State => s.free)] <;> intros <;> simp; done)
  · first
    | rfl
    | (simp [cfgData]; done)
    | (unfold cfgData; dsimp only; (repeat' split) <;> (first | (simp; done) | (rw [foldl_keep (fun s : State => s.id)]; · simp; · intro s a; (try dsimp only); (repeat' split) <;> simp; done)))
    | (unfold cfgData; rw [onDown_keep (fun s : State => s.id)] <;> intros <;> simp; done)
    | (unfold cfgData; rw [onUp_keep (fun s : State => s.id)] <;> intros <;> simp; done)
  · first
    | rfl
    | (simp [cfgData]; done)
    | (unfold cfgData; dsimp only; (repeat' split) <;> (first | (simp; done) | (rw [foldl_keep (fun s : State => s.modes)]; · simp; · intro s a; (try dsimp only); (repeat' split) <;> simp; done)))
    | (unfold cfgData; rw [onDown_keep (fun s : State => s.modes)] <;> intros <;> simp; done)
    | (unfold cfgData; rw [onUp_keep (fun s : State => s.modes)] <;> intros <;> simp; done)
  · first
    | rfl
    | (simp [cfgData]; done)
    | (unfold cfgData; dsimp only; (repeat' split) <;> (first | (simp; done) | (rw [foldl_keep (fun s : State => s.regs)]; · simp; · intro s a; (try dsimp only); (repeat' split) <;> simp; done)))
    | (unfold cfgData; rw [onDown_keep (fun s : State => s.regs)] <;> intros <;> simp; done)
    | (unfold cfgData; rw [onUp_keep (fun s : State => s.regs)] <;> intros <;> simp; done)
  · first
    | rfl
    | (simp [cfgData]; done)
    | (unfold cfgData; dsimp only; (repeat' split) <;> (first | (simp; done) | (rw [foldl_keep (fun s : State => s.out)]; · simp; · intro s a; (try dsimp only); (repeat' split) <;> simp; done)))
    | (unfold cfgData; rw [onDown_keep (fun s : State => s.out)] <;> intros <;> simp; done)
    | (unfold cfgData; rw [onUp_keep (fun s : State => s.out)] <;> intros <;> simp; done)
  · first
    | rfl
    | (simp [cfgData]; done)
    | (unfold cfgData; dsimp only; (repeat' split) <;> (first | (simp; done) | (rw [foldl_keep (fun s : State => s.sense)]; · simp; · intro s a; (try dsimp only); (repeat' split) <;> simp; done)))
    | (unfold cfgData; rw [onDown_keep (fun s : State => s.sense)] <;> intros <;> simp; done)
    | (unfold cfgData; rw [onUp_keep (fun s : State => s.sense)] <;> intros <;> simp; done)
  · first
    | rfl
    | (simp [cfgData]; done)
    | (unfold cfgData; dsimp only; (repeat' split) <;> (first | (simp; done) | (rw [foldl_keep (fun s : State => s.loop)]; · simp; · intro s a; (try dsimp only); (repeat' split) <;> simp; done)))
    | (unfold cfgData; rw [onDown_keep (fun s : State => s.loop)] <;> intros <;> simp; done)
    | (unfold cfgData; rw [onUp_keep (fun s : State => s.loop)] <;> intros <;> simp; done)
  · first
    | rfl
    | (simp [cfgData]; done)
    | (unfold cfgData; dsimp only; (repeat' split) <;> (first | (simp; done) | (rw [foldl_keep (fun s : State => s.gnss)]; · simp; · intro s a; (try dsimp only); (repeat' split) <;> simp; done)))
    | (unfold cfgData; rw [onDown_keep (fun s : State => s.gnss)] <;> intros <;> simp; done)
    | (unfold cfgData; rw [onUp_keep (fun s : State => s.gnss)] <;> intros <;> simp; done)
  · first
    | rfl
    | (simp [cfgData]; done)
    | (unfold cfgData; dsimp only; (repeat' split) <;> (first | (simp; done) | (rw [foldl_keep (fun s : State => s.canA)]; · simp; · intro s a; (try dsimp only); (repeat' split) <;> simp; done)))
    | (unfold cfgData; rw [onDown_keep (fun s : State => s.canA)] <;> intros <;> simp; done)
    | (unfold cfgData; rw [onUp_keep (fun s : State => s.canA)] <;> intros <;> simp; done)
  · first
    | rfl
    | (simp [cfgData]; done)
    | (unfold cfgData; dsimp only; (repeat' split) <;> (first | (simp; done) | (rw [foldl_keep (fun s : State => s.canB)]; · simp; · intro s a; (try dsimp only); (repeat' split) <;> simp; done)))
    | (unfold cfgData; rw [onDown_keep (fun s : State => s.canB)] <;> intros <;> simp; done)
    | (unfold cfgData; rw [onUp_keep (fun s : State => s.canB)] <;> intros <;> simp; done)
  · first
    | rfl
    | (simp [cfgData]; done)
    | (unfold cfgData; dsimp only; (repeat' split) <;> (first | (simp; done) | (rw [foldl_keep (fun s : State => s.pwr)]; · simp; · intro s a; (try dsimp only); (repeat' split) <;> simp; done)))
    | (unfold cfgData; rw [onDown_keep (fun s : State => s.pwr)] <;> intros <;> simp; done)
    | (unfold cfgData; rw [onUp_keep (fun s : State => s.pwr)] <;> intros <;> simp; done)
  · first
    | rfl
    | (simp [cfgData]; done)
    | (unfold cfgData; dsimp only; (repeat' split) <;> (first | (simp; done) | (rw [foldl_keep (fun s : State => s.sec)]; · simp; · intro s a; (try dsimp only); (repeat' split) <;> simp; done)))
    | (unfold cfgData; rw [onDown_keep (fun s : State => s.sec)] <;> intros <;> simp; done)
    | (unfold cfgData; rw [onUp_keep (fun s : State => s.sec)] <;> intros <;> simp; done)
  · first
    | rfl
    | (simp [cfgData]; done)
    | (unfold cfgData; dsimp only; (repeat' split) <;> (first | (simp; done) | (rw [foldl_keep (fun s : State => s.sect)]; · simp; · intro s a; (try dsimp only); (repeat' split) <;> simp; done)))
    | (unfold cfgData; rw [onDown_keep (fun s : State => s.sect)] <;> intros <;> simp; done)
    | (unfold cfgData; rw [onUp_keep (fun s : State => s.sect)] <;> intros <;> simp; done)
@[simp] theorem cfgResend_frame (tag : BitVec 16) (s : State) :
    (cfgResend tag s).pending = s.pending ∧ (cfgResend tag s).free = s.free ∧ (cfgResend tag s).id = s.id ∧
    (cfgResend tag s).modes = s.modes ∧ (cfgResend tag s).regs = s.regs ∧ (cfgResend tag s).clk = s.clk ∧ (cfgResend
    tag s).out = s.out ∧ (cfgResend tag s).sense = s.sense ∧ (cfgResend tag s).loop = s.loop ∧ (cfgResend tag
    s).gnss = s.gnss ∧ (cfgResend tag s).canA = s.canA ∧ (cfgResend tag s).canB = s.canB ∧ (cfgResend tag s).pwr =
    s.pwr ∧ (cfgResend tag s).sec = s.sec ∧ (cfgResend tag s).sect = s.sect := by
  unfold cfgResend; (repeat' split) <;> simp
@[simp] theorem rememberTag_frame (tag : BitVec 16) (c : Cell) (s : State) :
    (rememberTag tag c s).pending = s.pending ∧ (rememberTag tag c s).free = s.free ∧ (rememberTag tag c s).id =
    s.id ∧ (rememberTag tag c s).modes = s.modes ∧ (rememberTag tag c s).regs = s.regs ∧ (rememberTag tag c s).clk =
    s.clk ∧ (rememberTag tag c s).chain = s.chain ∧ (rememberTag tag c s).pkt = s.pkt ∧ (rememberTag tag c s).out =
    s.out ∧ (rememberTag tag c s).sense = s.sense ∧ (rememberTag tag c s).loop = s.loop ∧ (rememberTag tag c s).gnss
    = s.gnss ∧ (rememberTag tag c s).canA = s.canA ∧ (rememberTag tag c s).canB = s.canB ∧ (rememberTag tag c s).svc
    = s.svc ∧ (rememberTag tag c s).pwr = s.pwr ∧ (rememberTag tag c s).sec = s.sec ∧ (rememberTag tag c s).fw =
    s.fw ∧ (rememberTag tag c s).ev = s.ev ∧ (rememberTag tag c s).sect = s.sect := by simp [rememberTag]
@[simp] theorem applyCfgWrite_frame (c : CfgWriteCell) (s : State) :
    (applyCfgWrite c s).1.pending = s.pending ∧ (applyCfgWrite c s).1.free = s.free ∧ (applyCfgWrite c s).1.id =
    s.id ∧ (applyCfgWrite c s).1.chain = s.chain ∧ (applyCfgWrite c s).1.gnss = s.gnss ∧ (applyCfgWrite c s).1.canA
    = s.canA ∧ (applyCfgWrite c s).1.canB = s.canB ∧ (applyCfgWrite c s).1.svc = s.svc ∧ (applyCfgWrite c s).1.pwr =
    s.pwr ∧ (applyCfgWrite c s).1.sec = s.sec := by
  unfold applyCfgWrite; (repeat' split) <;> simp
@[simp] theorem writeTaken_frame (c : CfgWriteCell) (s : State) :
    (writeTaken c s).pending = s.pending ∧ (writeTaken c s).free = s.free ∧ (writeTaken c s).id = s.id ∧ (writeTaken
    c s).chain = s.chain ∧ (writeTaken c s).gnss = s.gnss ∧ (writeTaken c s).canA = s.canA ∧ (writeTaken c s).canB =
    s.canB ∧ (writeTaken c s).svc = s.svc ∧ (writeTaken c s).pwr = s.pwr ∧ (writeTaken c s).sec = s.sec := by
  unfold writeTaken; split <;> simp
@[simp] theorem cfgWrite_frame (c : CfgWriteCell) (s : State) :
    (cfgWrite c s).pending = s.pending ∧ (cfgWrite c s).free = s.free ∧ (cfgWrite c s).id = s.id ∧ (cfgWrite c
    s).chain = s.chain ∧ (cfgWrite c s).gnss = s.gnss ∧ (cfgWrite c s).canA = s.canA ∧ (cfgWrite c s).canB = s.canB
    ∧ (cfgWrite c s).svc = s.svc ∧ (cfgWrite c s).pwr = s.pwr ∧ (cfgWrite c s).sec = s.sec := by
  refine ⟨?_, ?_, ?_, ?_, ?_, ?_, ?_, ?_, ?_, ?_⟩
  · unfold cfgWrite; (try dsimp only); repeat' (first | (intro _) | split | rw [foldl_keep (fun s : State => s.pending)] | rw [foldl_keep (fun x : List Edge × State => x.2.pending)] | rw [onDown_keep (fun s : State => s.pending)] | rw [onUp_keep (fun s : State => s.pending)] | rw [orElse_keep (fun s : State => s.pending)])
    all_goals first | rfl | (simp; done)
  · unfold cfgWrite; (try dsimp only); repeat' (first | (intro _) | split | rw [foldl_keep (fun s : State => s.free)] | rw [foldl_keep (fun x : List Edge × State => x.2.free)] | rw [onDown_keep (fun s : State => s.free)] | rw [onUp_keep (fun s : State => s.free)] | rw [orElse_keep (fun s : State => s.free)])
    all_goals first | rfl | (simp; done)
  · unfold cfgWrite; (try dsimp only); repeat' (first | (intro _) | split | rw [foldl_keep (fun s : State => s.id)] | rw [foldl_keep (fun x : List Edge × State => x.2.id)] | rw [onDown_keep (fun s : State => s.id)] | rw [onUp_keep (fun s : State => s.id)] | rw [orElse_keep (fun s : State => s.id)])
    all_goals first | rfl | (simp; done)
  · unfold cfgWrite; (try dsimp only); repeat' (first | (intro _) | split | rw [foldl_keep (fun s : State => s.chain)] | rw [foldl_keep (fun x : List Edge × State => x.2.chain)] | rw [onDown_keep (fun s : State => s.chain)] | rw [onUp_keep (fun s : State => s.chain)] | rw [orElse_keep (fun s : State => s.chain)])
    all_goals first | rfl | (simp; done)
  · unfold cfgWrite; (try dsimp only); repeat' (first | (intro _) | split | rw [foldl_keep (fun s : State => s.gnss)] | rw [foldl_keep (fun x : List Edge × State => x.2.gnss)] | rw [onDown_keep (fun s : State => s.gnss)] | rw [onUp_keep (fun s : State => s.gnss)] | rw [orElse_keep (fun s : State => s.gnss)])
    all_goals first | rfl | (simp; done)
  · unfold cfgWrite; (try dsimp only); repeat' (first | (intro _) | split | rw [foldl_keep (fun s : State => s.canA)] | rw [foldl_keep (fun x : List Edge × State => x.2.canA)] | rw [onDown_keep (fun s : State => s.canA)] | rw [onUp_keep (fun s : State => s.canA)] | rw [orElse_keep (fun s : State => s.canA)])
    all_goals first | rfl | (simp; done)
  · unfold cfgWrite; (try dsimp only); repeat' (first | (intro _) | split | rw [foldl_keep (fun s : State => s.canB)] | rw [foldl_keep (fun x : List Edge × State => x.2.canB)] | rw [onDown_keep (fun s : State => s.canB)] | rw [onUp_keep (fun s : State => s.canB)] | rw [orElse_keep (fun s : State => s.canB)])
    all_goals first | rfl | (simp; done)
  · unfold cfgWrite; (try dsimp only); repeat' (first | (intro _) | split | rw [foldl_keep (fun s : State => s.svc)] | rw [foldl_keep (fun x : List Edge × State => x.2.svc)] | rw [onDown_keep (fun s : State => s.svc)] | rw [onUp_keep (fun s : State => s.svc)] | rw [orElse_keep (fun s : State => s.svc)])
    all_goals first | rfl | (simp; done)
  · unfold cfgWrite; (try dsimp only); repeat' (first | (intro _) | split | rw [foldl_keep (fun s : State => s.pwr)] | rw [foldl_keep (fun x : List Edge × State => x.2.pwr)] | rw [onDown_keep (fun s : State => s.pwr)] | rw [onUp_keep (fun s : State => s.pwr)] | rw [orElse_keep (fun s : State => s.pwr)])
    all_goals first | rfl | (simp; done)
  · unfold cfgWrite; (try dsimp only); repeat' (first | (intro _) | split | rw [foldl_keep (fun s : State => s.sec)] | rw [foldl_keep (fun x : List Edge × State => x.2.sec)] | rw [onDown_keep (fun s : State => s.sec)] | rw [onUp_keep (fun s : State => s.sec)] | rw [orElse_keep (fun s : State => s.sec)])
    all_goals first | rfl | (simp; done)
@[simp] theorem readTaken_frame (tag : BitVec 16) (addr : BitVec 24) (count : BitVec 3) (s : State) :
    (readTaken tag addr count s).pending = s.pending ∧ (readTaken tag addr count s).free = s.free ∧ (readTaken tag
    addr count s).id = s.id ∧ (readTaken tag addr count s).modes = s.modes ∧ (readTaken tag addr count s).regs =
    s.regs ∧ (readTaken tag addr count s).clk = s.clk ∧ (readTaken tag addr count s).chain = s.chain ∧ (readTaken
    tag addr count s).pkt = s.pkt ∧ (readTaken tag addr count s).out = s.out ∧ (readTaken tag addr count s).sense =
    s.sense ∧ (readTaken tag addr count s).loop = s.loop ∧ (readTaken tag addr count s).gnss = s.gnss ∧ (readTaken
    tag addr count s).canA = s.canA ∧ (readTaken tag addr count s).canB = s.canB ∧ (readTaken tag addr count s).svc
    = s.svc ∧ (readTaken tag addr count s).sec = s.sec ∧ (readTaken tag addr count s).fw = s.fw ∧ (readTaken tag
    addr count s).ev = s.ev ∧ (readTaken tag addr count s).sect = s.sect := by
  unfold readTaken; split <;> simp
@[simp] theorem cfgRead_frame (tag : BitVec 16) (addr : BitVec 24) (count : BitVec 3) (s : State) :
    (cfgRead tag addr count s).pending = s.pending ∧ (cfgRead tag addr count s).free = s.free ∧ (cfgRead tag addr
    count s).id = s.id ∧ (cfgRead tag addr count s).modes = s.modes ∧ (cfgRead tag addr count s).regs = s.regs ∧
    (cfgRead tag addr count s).chain = s.chain ∧ (cfgRead tag addr count s).pkt = s.pkt ∧ (cfgRead tag addr count
    s).out = s.out ∧ (cfgRead tag addr count s).sense = s.sense ∧ (cfgRead tag addr count s).loop = s.loop ∧
    (cfgRead tag addr count s).gnss = s.gnss ∧ (cfgRead tag addr count s).canA = s.canA ∧ (cfgRead tag addr count
    s).canB = s.canB ∧ (cfgRead tag addr count s).svc = s.svc ∧ (cfgRead tag addr count s).sec = s.sec ∧ (cfgRead
    tag addr count s).fw = s.fw ∧ (cfgRead tag addr count s).ev = s.ev ∧ (cfgRead tag addr count s).sect = s.sect :=
    by
  refine ⟨?_, ?_, ?_, ?_, ?_, ?_, ?_, ?_, ?_, ?_, ?_, ?_, ?_, ?_, ?_, ?_, ?_, ?_⟩
  · first
    | rfl
    | (simp [cfgRead]; done)
    | (unfold cfgRead; dsimp only; (repeat' split) <;> (first | (simp; done) | (rw [foldl_keep (fun s : State => s.pending)]; · simp; · intro s a; (try dsimp only); (repeat' split) <;> simp; done)))
    | (unfold cfgRead; rw [onDown_keep (fun s : State => s.pending)] <;> intros <;> simp; done)
    | (unfold cfgRead; rw [onUp_keep (fun s : State => s.pending)] <;> intros <;> simp; done)
  · first
    | rfl
    | (simp [cfgRead]; done)
    | (unfold cfgRead; dsimp only; (repeat' split) <;> (first | (simp; done) | (rw [foldl_keep (fun s : State => s.free)]; · simp; · intro s a; (try dsimp only); (repeat' split) <;> simp; done)))
    | (unfold cfgRead; rw [onDown_keep (fun s : State => s.free)] <;> intros <;> simp; done)
    | (unfold cfgRead; rw [onUp_keep (fun s : State => s.free)] <;> intros <;> simp; done)
  · first
    | rfl
    | (simp [cfgRead]; done)
    | (unfold cfgRead; dsimp only; (repeat' split) <;> (first | (simp; done) | (rw [foldl_keep (fun s : State => s.id)]; · simp; · intro s a; (try dsimp only); (repeat' split) <;> simp; done)))
    | (unfold cfgRead; rw [onDown_keep (fun s : State => s.id)] <;> intros <;> simp; done)
    | (unfold cfgRead; rw [onUp_keep (fun s : State => s.id)] <;> intros <;> simp; done)
  · first
    | rfl
    | (simp [cfgRead]; done)
    | (unfold cfgRead; dsimp only; (repeat' split) <;> (first | (simp; done) | (rw [foldl_keep (fun s : State => s.modes)]; · simp; · intro s a; (try dsimp only); (repeat' split) <;> simp; done)))
    | (unfold cfgRead; rw [onDown_keep (fun s : State => s.modes)] <;> intros <;> simp; done)
    | (unfold cfgRead; rw [onUp_keep (fun s : State => s.modes)] <;> intros <;> simp; done)
  · first
    | rfl
    | (simp [cfgRead]; done)
    | (unfold cfgRead; dsimp only; (repeat' split) <;> (first | (simp; done) | (rw [foldl_keep (fun s : State => s.regs)]; · simp; · intro s a; (try dsimp only); (repeat' split) <;> simp; done)))
    | (unfold cfgRead; rw [onDown_keep (fun s : State => s.regs)] <;> intros <;> simp; done)
    | (unfold cfgRead; rw [onUp_keep (fun s : State => s.regs)] <;> intros <;> simp; done)
  · first
    | rfl
    | (simp [cfgRead]; done)
    | (unfold cfgRead; dsimp only; (repeat' split) <;> (first | (simp; done) | (rw [foldl_keep (fun s : State => s.chain)]; · simp; · intro s a; (try dsimp only); (repeat' split) <;> simp; done)))
    | (unfold cfgRead; rw [onDown_keep (fun s : State => s.chain)] <;> intros <;> simp; done)
    | (unfold cfgRead; rw [onUp_keep (fun s : State => s.chain)] <;> intros <;> simp; done)
  · first
    | rfl
    | (simp [cfgRead]; done)
    | (unfold cfgRead; dsimp only; (repeat' split) <;> (first | (simp; done) | (rw [foldl_keep (fun s : State => s.pkt)]; · simp; · intro s a; (try dsimp only); (repeat' split) <;> simp; done)))
    | (unfold cfgRead; rw [onDown_keep (fun s : State => s.pkt)] <;> intros <;> simp; done)
    | (unfold cfgRead; rw [onUp_keep (fun s : State => s.pkt)] <;> intros <;> simp; done)
  · first
    | rfl
    | (simp [cfgRead]; done)
    | (unfold cfgRead; dsimp only; (repeat' split) <;> (first | (simp; done) | (rw [foldl_keep (fun s : State => s.out)]; · simp; · intro s a; (try dsimp only); (repeat' split) <;> simp; done)))
    | (unfold cfgRead; rw [onDown_keep (fun s : State => s.out)] <;> intros <;> simp; done)
    | (unfold cfgRead; rw [onUp_keep (fun s : State => s.out)] <;> intros <;> simp; done)
  · first
    | rfl
    | (simp [cfgRead]; done)
    | (unfold cfgRead; dsimp only; (repeat' split) <;> (first | (simp; done) | (rw [foldl_keep (fun s : State => s.sense)]; · simp; · intro s a; (try dsimp only); (repeat' split) <;> simp; done)))
    | (unfold cfgRead; rw [onDown_keep (fun s : State => s.sense)] <;> intros <;> simp; done)
    | (unfold cfgRead; rw [onUp_keep (fun s : State => s.sense)] <;> intros <;> simp; done)
  · first
    | rfl
    | (simp [cfgRead]; done)
    | (unfold cfgRead; dsimp only; (repeat' split) <;> (first | (simp; done) | (rw [foldl_keep (fun s : State => s.loop)]; · simp; · intro s a; (try dsimp only); (repeat' split) <;> simp; done)))
    | (unfold cfgRead; rw [onDown_keep (fun s : State => s.loop)] <;> intros <;> simp; done)
    | (unfold cfgRead; rw [onUp_keep (fun s : State => s.loop)] <;> intros <;> simp; done)
  · first
    | rfl
    | (simp [cfgRead]; done)
    | (unfold cfgRead; dsimp only; (repeat' split) <;> (first | (simp; done) | (rw [foldl_keep (fun s : State => s.gnss)]; · simp; · intro s a; (try dsimp only); (repeat' split) <;> simp; done)))
    | (unfold cfgRead; rw [onDown_keep (fun s : State => s.gnss)] <;> intros <;> simp; done)
    | (unfold cfgRead; rw [onUp_keep (fun s : State => s.gnss)] <;> intros <;> simp; done)
  · first
    | rfl
    | (simp [cfgRead]; done)
    | (unfold cfgRead; dsimp only; (repeat' split) <;> (first | (simp; done) | (rw [foldl_keep (fun s : State => s.canA)]; · simp; · intro s a; (try dsimp only); (repeat' split) <;> simp; done)))
    | (unfold cfgRead; rw [onDown_keep (fun s : State => s.canA)] <;> intros <;> simp; done)
    | (unfold cfgRead; rw [onUp_keep (fun s : State => s.canA)] <;> intros <;> simp; done)
  · first
    | rfl
    | (simp [cfgRead]; done)
    | (unfold cfgRead; dsimp only; (repeat' split) <;> (first | (simp; done) | (rw [foldl_keep (fun s : State => s.canB)]; · simp; · intro s a; (try dsimp only); (repeat' split) <;> simp; done)))
    | (unfold cfgRead; rw [onDown_keep (fun s : State => s.canB)] <;> intros <;> simp; done)
    | (unfold cfgRead; rw [onUp_keep (fun s : State => s.canB)] <;> intros <;> simp; done)
  · first
    | rfl
    | (simp [cfgRead]; done)
    | (unfold cfgRead; dsimp only; (repeat' split) <;> (first | (simp; done) | (rw [foldl_keep (fun s : State => s.svc)]; · simp; · intro s a; (try dsimp only); (repeat' split) <;> simp; done)))
    | (unfold cfgRead; rw [onDown_keep (fun s : State => s.svc)] <;> intros <;> simp; done)
    | (unfold cfgRead; rw [onUp_keep (fun s : State => s.svc)] <;> intros <;> simp; done)
  · first
    | rfl
    | (simp [cfgRead]; done)
    | (unfold cfgRead; dsimp only; (repeat' split) <;> (first | (simp; done) | (rw [foldl_keep (fun s : State => s.sec)]; · simp; · intro s a; (try dsimp only); (repeat' split) <;> simp; done)))
    | (unfold cfgRead; rw [onDown_keep (fun s : State => s.sec)] <;> intros <;> simp; done)
    | (unfold cfgRead; rw [onUp_keep (fun s : State => s.sec)] <;> intros <;> simp; done)
  · first
    | rfl
    | (simp [cfgRead]; done)
    | (unfold cfgRead; dsimp only; (repeat' split) <;> (first | (simp; done) | (rw [foldl_keep (fun s : State => s.fw)]; · simp; · intro s a; (try dsimp only); (repeat' split) <;> simp; done)))
    | (unfold cfgRead; rw [onDown_keep (fun s : State => s.fw)] <;> intros <;> simp; done)
    | (unfold cfgRead; rw [onUp_keep (fun s : State => s.fw)] <;> intros <;> simp; done)
  · first
    | rfl
    | (simp [cfgRead]; done)
    | (unfold cfgRead; dsimp only; (repeat' split) <;> (first | (simp; done) | (rw [foldl_keep (fun s : State => s.ev)]; · simp; · intro s a; (try dsimp only); (repeat' split) <;> simp; done)))
    | (unfold cfgRead; rw [onDown_keep (fun s : State => s.ev)] <;> intros <;> simp; done)
    | (unfold cfgRead; rw [onUp_keep (fun s : State => s.ev)] <;> intros <;> simp; done)
  · first
    | rfl
    | (simp [cfgRead]; done)
    | (unfold cfgRead; dsimp only; (repeat' split) <;> (first | (simp; done) | (rw [foldl_keep (fun s : State => s.sect)]; · simp; · intro s a; (try dsimp only); (repeat' split) <;> simp; done)))
    | (unfold cfgRead; rw [onDown_keep (fun s : State => s.sect)] <;> intros <;> simp; done)
    | (unfold cfgRead; rw [onUp_keep (fun s : State => s.sect)] <;> intros <;> simp; done)
@[simp] theorem markSched_frame (w : CfgWriteCell) (f : SchedCmd → SchedCmd) (s : State) :
    (markSched w f s).pending = s.pending ∧ (markSched w f s).free = s.free ∧ (markSched w f s).id = s.id ∧
    (markSched w f s).modes = s.modes ∧ (markSched w f s).regs = s.regs ∧ (markSched w f s).clk = s.clk ∧ (markSched
    w f s).barr = s.barr ∧ (markSched w f s).chain = s.chain ∧ (markSched w f s).out = s.out ∧ (markSched w f
    s).sense = s.sense ∧ (markSched w f s).loop = s.loop ∧ (markSched w f s).gnss = s.gnss ∧ (markSched w f s).canA
    = s.canA ∧ (markSched w f s).canB = s.canB ∧ (markSched w f s).svc = s.svc ∧ (markSched w f s).pwr = s.pwr ∧
    (markSched w f s).sec = s.sec ∧ (markSched w f s).fw = s.fw ∧ (markSched w f s).ev = s.ev ∧ (markSched w f
    s).sect = s.sect := by
  simp [markSched]
@[simp] theorem failSched_frame (w : CfgWriteCell) (status : Byte) (s : State) :
    (failSched w status s).pending = s.pending ∧ (failSched w status s).free = s.free ∧ (failSched w status s).id =
    s.id ∧ (failSched w status s).modes = s.modes ∧ (failSched w status s).regs = s.regs ∧ (failSched w status
    s).clk = s.clk ∧ (failSched w status s).chain = s.chain ∧ (failSched w status s).out = s.out ∧ (failSched w
    status s).sense = s.sense ∧ (failSched w status s).loop = s.loop ∧ (failSched w status s).gnss = s.gnss ∧
    (failSched w status s).canA = s.canA ∧ (failSched w status s).canB = s.canB ∧ (failSched w status s).svc = s.svc
    ∧ (failSched w status s).pwr = s.pwr ∧ (failSched w status s).sec = s.sec ∧ (failSched w status s).fw = s.fw ∧
    (failSched w status s).sect = s.sect := by
  unfold failSched; split <;> simp
@[simp] theorem actSchedWrite_frame (c : CfgWriteCell) (s : State) :
    (actSchedWrite c s).pending = s.pending ∧ (actSchedWrite c s).free = s.free ∧ (actSchedWrite c s).id = s.id ∧
    (actSchedWrite c s).chain = s.chain ∧ (actSchedWrite c s).gnss = s.gnss ∧ (actSchedWrite c s).canA = s.canA ∧
    (actSchedWrite c s).canB = s.canB ∧ (actSchedWrite c s).svc = s.svc ∧ (actSchedWrite c s).pwr = s.pwr ∧
    (actSchedWrite c s).sec = s.sec := by
  unfold actSchedWrite; (try dsimp only); (repeat' split) <;> simp
@[simp] theorem schedWriteAct_frame (s : State) :
    (schedWriteAct s).pending = s.pending ∧ (schedWriteAct s).free = s.free ∧ (schedWriteAct s).id = s.id ∧
    (schedWriteAct s).chain = s.chain ∧ (schedWriteAct s).gnss = s.gnss ∧ (schedWriteAct s).canA = s.canA ∧
    (schedWriteAct s).canB = s.canB ∧ (schedWriteAct s).svc = s.svc ∧ (schedWriteAct s).pwr = s.pwr ∧ (schedWriteAct
    s).sec = s.sec := by
  unfold schedWriteAct; split <;> simp
@[simp] theorem edgesTaken_frame (tag : BitVec 16) (es : List Edge) (s : State) :
    (edgesTaken tag es s).pending = s.pending ∧ (edgesTaken tag es s).free = s.free ∧ (edgesTaken tag es s).id =
    s.id ∧ (edgesTaken tag es s).modes = s.modes ∧ (edgesTaken tag es s).regs = s.regs ∧ (edgesTaken tag es s).clk =
    s.clk ∧ (edgesTaken tag es s).chain = s.chain ∧ (edgesTaken tag es s).pkt = s.pkt ∧ (edgesTaken tag es s).sense
    = s.sense ∧ (edgesTaken tag es s).loop = s.loop ∧ (edgesTaken tag es s).gnss = s.gnss ∧ (edgesTaken tag es
    s).canA = s.canA ∧ (edgesTaken tag es s).canB = s.canB ∧ (edgesTaken tag es s).svc = s.svc ∧ (edgesTaken tag es
    s).pwr = s.pwr ∧ (edgesTaken tag es s).sec = s.sec ∧ (edgesTaken tag es s).fw = s.fw ∧ (edgesTaken tag es s).ev
    = s.ev ∧ (edgesTaken tag es s).sect = s.sect := by
  unfold edgesTaken; (repeat' split) <;> simp
@[simp] theorem schedEdge_frame (tag : BitVec 16) (es : List Edge) (s : State) :
    (schedEdge tag es s).pending = s.pending ∧ (schedEdge tag es s).free = s.free ∧ (schedEdge tag es s).id = s.id ∧
    (schedEdge tag es s).modes = s.modes ∧ (schedEdge tag es s).regs = s.regs ∧ (schedEdge tag es s).chain = s.chain
    ∧ (schedEdge tag es s).pkt = s.pkt ∧ (schedEdge tag es s).sense = s.sense ∧ (schedEdge tag es s).loop = s.loop ∧
    (schedEdge tag es s).gnss = s.gnss ∧ (schedEdge tag es s).canA = s.canA ∧ (schedEdge tag es s).canB = s.canB ∧
    (schedEdge tag es s).svc = s.svc ∧ (schedEdge tag es s).pwr = s.pwr ∧ (schedEdge tag es s).sec = s.sec ∧
    (schedEdge tag es s).fw = s.fw ∧ (schedEdge tag es s).ev = s.ev ∧ (schedEdge tag es s).sect = s.sect := by
  refine ⟨?_, ?_, ?_, ?_, ?_, ?_, ?_, ?_, ?_, ?_, ?_, ?_, ?_, ?_, ?_, ?_, ?_, ?_⟩
  · first
    | rfl
    | (simp [schedEdge]; done)
    | (unfold schedEdge; dsimp only; (repeat' split) <;> (first | (simp; done) | (rw [foldl_keep (fun s : State => s.pending)]; · simp; · intro s a; (try dsimp only); (repeat' split) <;> simp; done)))
    | (unfold schedEdge; rw [foldl_keep (fun x : SetMasks × State => x.2.pending)]; intro p n; dsimp only; (repeat' split) <;> simp; done)
    | (unfold schedEdge; rw [onDown_keep (fun s : State => s.pending)] <;> intros <;> simp; done)
    | (unfold schedEdge; rw [onUp_keep (fun s : State => s.pending)] <;> intros <;> simp; done)
  · first
    | rfl
    | (simp [schedEdge]; done)
    | (unfold schedEdge; dsimp only; (repeat' split) <;> (first | (simp; done) | (rw [foldl_keep (fun s : State => s.free)]; · simp; · intro s a; (try dsimp only); (repeat' split) <;> simp; done)))
    | (unfold schedEdge; rw [foldl_keep (fun x : SetMasks × State => x.2.free)]; intro p n; dsimp only; (repeat' split) <;> simp; done)
    | (unfold schedEdge; rw [onDown_keep (fun s : State => s.free)] <;> intros <;> simp; done)
    | (unfold schedEdge; rw [onUp_keep (fun s : State => s.free)] <;> intros <;> simp; done)
  · first
    | rfl
    | (simp [schedEdge]; done)
    | (unfold schedEdge; dsimp only; (repeat' split) <;> (first | (simp; done) | (rw [foldl_keep (fun s : State => s.id)]; · simp; · intro s a; (try dsimp only); (repeat' split) <;> simp; done)))
    | (unfold schedEdge; rw [foldl_keep (fun x : SetMasks × State => x.2.id)]; intro p n; dsimp only; (repeat' split) <;> simp; done)
    | (unfold schedEdge; rw [onDown_keep (fun s : State => s.id)] <;> intros <;> simp; done)
    | (unfold schedEdge; rw [onUp_keep (fun s : State => s.id)] <;> intros <;> simp; done)
  · first
    | rfl
    | (simp [schedEdge]; done)
    | (unfold schedEdge; dsimp only; (repeat' split) <;> (first | (simp; done) | (rw [foldl_keep (fun s : State => s.modes)]; · simp; · intro s a; (try dsimp only); (repeat' split) <;> simp; done)))
    | (unfold schedEdge; rw [foldl_keep (fun x : SetMasks × State => x.2.modes)]; intro p n; dsimp only; (repeat' split) <;> simp; done)
    | (unfold schedEdge; rw [onDown_keep (fun s : State => s.modes)] <;> intros <;> simp; done)
    | (unfold schedEdge; rw [onUp_keep (fun s : State => s.modes)] <;> intros <;> simp; done)
  · first
    | rfl
    | (simp [schedEdge]; done)
    | (unfold schedEdge; dsimp only; (repeat' split) <;> (first | (simp; done) | (rw [foldl_keep (fun s : State => s.regs)]; · simp; · intro s a; (try dsimp only); (repeat' split) <;> simp; done)))
    | (unfold schedEdge; rw [foldl_keep (fun x : SetMasks × State => x.2.regs)]; intro p n; dsimp only; (repeat' split) <;> simp; done)
    | (unfold schedEdge; rw [onDown_keep (fun s : State => s.regs)] <;> intros <;> simp; done)
    | (unfold schedEdge; rw [onUp_keep (fun s : State => s.regs)] <;> intros <;> simp; done)
  · first
    | rfl
    | (simp [schedEdge]; done)
    | (unfold schedEdge; dsimp only; (repeat' split) <;> (first | (simp; done) | (rw [foldl_keep (fun s : State => s.chain)]; · simp; · intro s a; (try dsimp only); (repeat' split) <;> simp; done)))
    | (unfold schedEdge; rw [foldl_keep (fun x : SetMasks × State => x.2.chain)]; intro p n; dsimp only; (repeat' split) <;> simp; done)
    | (unfold schedEdge; rw [onDown_keep (fun s : State => s.chain)] <;> intros <;> simp; done)
    | (unfold schedEdge; rw [onUp_keep (fun s : State => s.chain)] <;> intros <;> simp; done)
  · first
    | rfl
    | (simp [schedEdge]; done)
    | (unfold schedEdge; dsimp only; (repeat' split) <;> (first | (simp; done) | (rw [foldl_keep (fun s : State => s.pkt)]; · simp; · intro s a; (try dsimp only); (repeat' split) <;> simp; done)))
    | (unfold schedEdge; rw [foldl_keep (fun x : SetMasks × State => x.2.pkt)]; intro p n; dsimp only; (repeat' split) <;> simp; done)
    | (unfold schedEdge; rw [onDown_keep (fun s : State => s.pkt)] <;> intros <;> simp; done)
    | (unfold schedEdge; rw [onUp_keep (fun s : State => s.pkt)] <;> intros <;> simp; done)
  · first
    | rfl
    | (simp [schedEdge]; done)
    | (unfold schedEdge; dsimp only; (repeat' split) <;> (first | (simp; done) | (rw [foldl_keep (fun s : State => s.sense)]; · simp; · intro s a; (try dsimp only); (repeat' split) <;> simp; done)))
    | (unfold schedEdge; rw [foldl_keep (fun x : SetMasks × State => x.2.sense)]; intro p n; dsimp only; (repeat' split) <;> simp; done)
    | (unfold schedEdge; rw [onDown_keep (fun s : State => s.sense)] <;> intros <;> simp; done)
    | (unfold schedEdge; rw [onUp_keep (fun s : State => s.sense)] <;> intros <;> simp; done)
  · first
    | rfl
    | (simp [schedEdge]; done)
    | (unfold schedEdge; dsimp only; (repeat' split) <;> (first | (simp; done) | (rw [foldl_keep (fun s : State => s.loop)]; · simp; · intro s a; (try dsimp only); (repeat' split) <;> simp; done)))
    | (unfold schedEdge; rw [foldl_keep (fun x : SetMasks × State => x.2.loop)]; intro p n; dsimp only; (repeat' split) <;> simp; done)
    | (unfold schedEdge; rw [onDown_keep (fun s : State => s.loop)] <;> intros <;> simp; done)
    | (unfold schedEdge; rw [onUp_keep (fun s : State => s.loop)] <;> intros <;> simp; done)
  · first
    | rfl
    | (simp [schedEdge]; done)
    | (unfold schedEdge; dsimp only; (repeat' split) <;> (first | (simp; done) | (rw [foldl_keep (fun s : State => s.gnss)]; · simp; · intro s a; (try dsimp only); (repeat' split) <;> simp; done)))
    | (unfold schedEdge; rw [foldl_keep (fun x : SetMasks × State => x.2.gnss)]; intro p n; dsimp only; (repeat' split) <;> simp; done)
    | (unfold schedEdge; rw [onDown_keep (fun s : State => s.gnss)] <;> intros <;> simp; done)
    | (unfold schedEdge; rw [onUp_keep (fun s : State => s.gnss)] <;> intros <;> simp; done)
  · first
    | rfl
    | (simp [schedEdge]; done)
    | (unfold schedEdge; dsimp only; (repeat' split) <;> (first | (simp; done) | (rw [foldl_keep (fun s : State => s.canA)]; · simp; · intro s a; (try dsimp only); (repeat' split) <;> simp; done)))
    | (unfold schedEdge; rw [foldl_keep (fun x : SetMasks × State => x.2.canA)]; intro p n; dsimp only; (repeat' split) <;> simp; done)
    | (unfold schedEdge; rw [onDown_keep (fun s : State => s.canA)] <;> intros <;> simp; done)
    | (unfold schedEdge; rw [onUp_keep (fun s : State => s.canA)] <;> intros <;> simp; done)
  · first
    | rfl
    | (simp [schedEdge]; done)
    | (unfold schedEdge; dsimp only; (repeat' split) <;> (first | (simp; done) | (rw [foldl_keep (fun s : State => s.canB)]; · simp; · intro s a; (try dsimp only); (repeat' split) <;> simp; done)))
    | (unfold schedEdge; rw [foldl_keep (fun x : SetMasks × State => x.2.canB)]; intro p n; dsimp only; (repeat' split) <;> simp; done)
    | (unfold schedEdge; rw [onDown_keep (fun s : State => s.canB)] <;> intros <;> simp; done)
    | (unfold schedEdge; rw [onUp_keep (fun s : State => s.canB)] <;> intros <;> simp; done)
  · first
    | rfl
    | (simp [schedEdge]; done)
    | (unfold schedEdge; dsimp only; (repeat' split) <;> (first | (simp; done) | (rw [foldl_keep (fun s : State => s.svc)]; · simp; · intro s a; (try dsimp only); (repeat' split) <;> simp; done)))
    | (unfold schedEdge; rw [foldl_keep (fun x : SetMasks × State => x.2.svc)]; intro p n; dsimp only; (repeat' split) <;> simp; done)
    | (unfold schedEdge; rw [onDown_keep (fun s : State => s.svc)] <;> intros <;> simp; done)
    | (unfold schedEdge; rw [onUp_keep (fun s : State => s.svc)] <;> intros <;> simp; done)
  · first
    | rfl
    | (simp [schedEdge]; done)
    | (unfold schedEdge; dsimp only; (repeat' split) <;> (first | (simp; done) | (rw [foldl_keep (fun s : State => s.pwr)]; · simp; · intro s a; (try dsimp only); (repeat' split) <;> simp; done)))
    | (unfold schedEdge; rw [foldl_keep (fun x : SetMasks × State => x.2.pwr)]; intro p n; dsimp only; (repeat' split) <;> simp; done)
    | (unfold schedEdge; rw [onDown_keep (fun s : State => s.pwr)] <;> intros <;> simp; done)
    | (unfold schedEdge; rw [onUp_keep (fun s : State => s.pwr)] <;> intros <;> simp; done)
  · first
    | rfl
    | (simp [schedEdge]; done)
    | (unfold schedEdge; dsimp only; (repeat' split) <;> (first | (simp; done) | (rw [foldl_keep (fun s : State => s.sec)]; · simp; · intro s a; (try dsimp only); (repeat' split) <;> simp; done)))
    | (unfold schedEdge; rw [foldl_keep (fun x : SetMasks × State => x.2.sec)]; intro p n; dsimp only; (repeat' split) <;> simp; done)
    | (unfold schedEdge; rw [onDown_keep (fun s : State => s.sec)] <;> intros <;> simp; done)
    | (unfold schedEdge; rw [onUp_keep (fun s : State => s.sec)] <;> intros <;> simp; done)
  · first
    | rfl
    | (simp [schedEdge]; done)
    | (unfold schedEdge; dsimp only; (repeat' split) <;> (first | (simp; done) | (rw [foldl_keep (fun s : State => s.fw)]; · simp; · intro s a; (try dsimp only); (repeat' split) <;> simp; done)))
    | (unfold schedEdge; rw [foldl_keep (fun x : SetMasks × State => x.2.fw)]; intro p n; dsimp only; (repeat' split) <;> simp; done)
    | (unfold schedEdge; rw [onDown_keep (fun s : State => s.fw)] <;> intros <;> simp; done)
    | (unfold schedEdge; rw [onUp_keep (fun s : State => s.fw)] <;> intros <;> simp; done)
  · first
    | rfl
    | (simp [schedEdge]; done)
    | (unfold schedEdge; dsimp only; (repeat' split) <;> (first | (simp; done) | (rw [foldl_keep (fun s : State => s.ev)]; · simp; · intro s a; (try dsimp only); (repeat' split) <;> simp; done)))
    | (unfold schedEdge; rw [foldl_keep (fun x : SetMasks × State => x.2.ev)]; intro p n; dsimp only; (repeat' split) <;> simp; done)
    | (unfold schedEdge; rw [onDown_keep (fun s : State => s.ev)] <;> intros <;> simp; done)
    | (unfold schedEdge; rw [onUp_keep (fun s : State => s.ev)] <;> intros <;> simp; done)
  · first
    | rfl
    | (simp [schedEdge]; done)
    | (unfold schedEdge; dsimp only; (repeat' split) <;> (first | (simp; done) | (rw [foldl_keep (fun s : State => s.sect)]; · simp; · intro s a; (try dsimp only); (repeat' split) <;> simp; done)))
    | (unfold schedEdge; rw [foldl_keep (fun x : SetMasks × State => x.2.sect)]; intro p n; dsimp only; (repeat' split) <;> simp; done)
    | (unfold schedEdge; rw [onDown_keep (fun s : State => s.sect)] <;> intros <;> simp; done)
    | (unfold schedEdge; rw [onUp_keep (fun s : State => s.sect)] <;> intros <;> simp; done)
@[simp] theorem acksTaken_frame (acks : List (BitVec 16 × Fin 4)) (s : State) :
    (acksTaken acks s).pending = s.pending ∧ (acksTaken acks s).free = s.free ∧ (acksTaken acks s).id = s.id ∧
    (acksTaken acks s).modes = s.modes ∧ (acksTaken acks s).regs = s.regs ∧ (acksTaken acks s).clk = s.clk ∧
    (acksTaken acks s).chain = s.chain ∧ (acksTaken acks s).pkt = s.pkt ∧ (acksTaken acks s).out = s.out ∧
    (acksTaken acks s).sense = s.sense ∧ (acksTaken acks s).loop = s.loop ∧ (acksTaken acks s).gnss = s.gnss ∧
    (acksTaken acks s).canA = s.canA ∧ (acksTaken acks s).canB = s.canB ∧ (acksTaken acks s).svc = s.svc ∧
    (acksTaken acks s).pwr = s.pwr ∧ (acksTaken acks s).sec = s.sec ∧ (acksTaken acks s).ev = s.ev := by
  refine ⟨?_, ?_, ?_, ?_, ?_, ?_, ?_, ?_, ?_, ?_, ?_, ?_, ?_, ?_, ?_, ?_, ?_, ?_⟩
  · first
    | rfl
    | (simp [acksTaken]; done)
    | (unfold acksTaken; dsimp only; (repeat' split) <;> (first | (simp; done) | (rw [foldl_keep (fun s : State => s.pending)]; · simp; · intro s a; (try dsimp only); (repeat' split) <;> simp; done)))
    | (unfold acksTaken; rw [onDown_keep (fun s : State => s.pending)] <;> intros <;> simp; done)
    | (unfold acksTaken; rw [onUp_keep (fun s : State => s.pending)] <;> intros <;> simp; done)
  · first
    | rfl
    | (simp [acksTaken]; done)
    | (unfold acksTaken; dsimp only; (repeat' split) <;> (first | (simp; done) | (rw [foldl_keep (fun s : State => s.free)]; · simp; · intro s a; (try dsimp only); (repeat' split) <;> simp; done)))
    | (unfold acksTaken; rw [onDown_keep (fun s : State => s.free)] <;> intros <;> simp; done)
    | (unfold acksTaken; rw [onUp_keep (fun s : State => s.free)] <;> intros <;> simp; done)
  · first
    | rfl
    | (simp [acksTaken]; done)
    | (unfold acksTaken; dsimp only; (repeat' split) <;> (first | (simp; done) | (rw [foldl_keep (fun s : State => s.id)]; · simp; · intro s a; (try dsimp only); (repeat' split) <;> simp; done)))
    | (unfold acksTaken; rw [onDown_keep (fun s : State => s.id)] <;> intros <;> simp; done)
    | (unfold acksTaken; rw [onUp_keep (fun s : State => s.id)] <;> intros <;> simp; done)
  · first
    | rfl
    | (simp [acksTaken]; done)
    | (unfold acksTaken; dsimp only; (repeat' split) <;> (first | (simp; done) | (rw [foldl_keep (fun s : State => s.modes)]; · simp; · intro s a; (try dsimp only); (repeat' split) <;> simp; done)))
    | (unfold acksTaken; rw [onDown_keep (fun s : State => s.modes)] <;> intros <;> simp; done)
    | (unfold acksTaken; rw [onUp_keep (fun s : State => s.modes)] <;> intros <;> simp; done)
  · first
    | rfl
    | (simp [acksTaken]; done)
    | (unfold acksTaken; dsimp only; (repeat' split) <;> (first | (simp; done) | (rw [foldl_keep (fun s : State => s.regs)]; · simp; · intro s a; (try dsimp only); (repeat' split) <;> simp; done)))
    | (unfold acksTaken; rw [onDown_keep (fun s : State => s.regs)] <;> intros <;> simp; done)
    | (unfold acksTaken; rw [onUp_keep (fun s : State => s.regs)] <;> intros <;> simp; done)
  · first
    | rfl
    | (simp [acksTaken]; done)
    | (unfold acksTaken; dsimp only; (repeat' split) <;> (first | (simp; done) | (rw [foldl_keep (fun s : State => s.clk)]; · simp; · intro s a; (try dsimp only); (repeat' split) <;> simp; done)))
    | (unfold acksTaken; rw [onDown_keep (fun s : State => s.clk)] <;> intros <;> simp; done)
    | (unfold acksTaken; rw [onUp_keep (fun s : State => s.clk)] <;> intros <;> simp; done)
  · first
    | rfl
    | (simp [acksTaken]; done)
    | (unfold acksTaken; dsimp only; (repeat' split) <;> (first | (simp; done) | (rw [foldl_keep (fun s : State => s.chain)]; · simp; · intro s a; (try dsimp only); (repeat' split) <;> simp; done)))
    | (unfold acksTaken; rw [onDown_keep (fun s : State => s.chain)] <;> intros <;> simp; done)
    | (unfold acksTaken; rw [onUp_keep (fun s : State => s.chain)] <;> intros <;> simp; done)
  · first
    | rfl
    | (simp [acksTaken]; done)
    | (unfold acksTaken; dsimp only; (repeat' split) <;> (first | (simp; done) | (rw [foldl_keep (fun s : State => s.pkt)]; · simp; · intro s a; (try dsimp only); (repeat' split) <;> simp; done)))
    | (unfold acksTaken; rw [onDown_keep (fun s : State => s.pkt)] <;> intros <;> simp; done)
    | (unfold acksTaken; rw [onUp_keep (fun s : State => s.pkt)] <;> intros <;> simp; done)
  · first
    | rfl
    | (simp [acksTaken]; done)
    | (unfold acksTaken; dsimp only; (repeat' split) <;> (first | (simp; done) | (rw [foldl_keep (fun s : State => s.out)]; · simp; · intro s a; (try dsimp only); (repeat' split) <;> simp; done)))
    | (unfold acksTaken; rw [onDown_keep (fun s : State => s.out)] <;> intros <;> simp; done)
    | (unfold acksTaken; rw [onUp_keep (fun s : State => s.out)] <;> intros <;> simp; done)
  · first
    | rfl
    | (simp [acksTaken]; done)
    | (unfold acksTaken; dsimp only; (repeat' split) <;> (first | (simp; done) | (rw [foldl_keep (fun s : State => s.sense)]; · simp; · intro s a; (try dsimp only); (repeat' split) <;> simp; done)))
    | (unfold acksTaken; rw [onDown_keep (fun s : State => s.sense)] <;> intros <;> simp; done)
    | (unfold acksTaken; rw [onUp_keep (fun s : State => s.sense)] <;> intros <;> simp; done)
  · first
    | rfl
    | (simp [acksTaken]; done)
    | (unfold acksTaken; dsimp only; (repeat' split) <;> (first | (simp; done) | (rw [foldl_keep (fun s : State => s.loop)]; · simp; · intro s a; (try dsimp only); (repeat' split) <;> simp; done)))
    | (unfold acksTaken; rw [onDown_keep (fun s : State => s.loop)] <;> intros <;> simp; done)
    | (unfold acksTaken; rw [onUp_keep (fun s : State => s.loop)] <;> intros <;> simp; done)
  · first
    | rfl
    | (simp [acksTaken]; done)
    | (unfold acksTaken; dsimp only; (repeat' split) <;> (first | (simp; done) | (rw [foldl_keep (fun s : State => s.gnss)]; · simp; · intro s a; (try dsimp only); (repeat' split) <;> simp; done)))
    | (unfold acksTaken; rw [onDown_keep (fun s : State => s.gnss)] <;> intros <;> simp; done)
    | (unfold acksTaken; rw [onUp_keep (fun s : State => s.gnss)] <;> intros <;> simp; done)
  · first
    | rfl
    | (simp [acksTaken]; done)
    | (unfold acksTaken; dsimp only; (repeat' split) <;> (first | (simp; done) | (rw [foldl_keep (fun s : State => s.canA)]; · simp; · intro s a; (try dsimp only); (repeat' split) <;> simp; done)))
    | (unfold acksTaken; rw [onDown_keep (fun s : State => s.canA)] <;> intros <;> simp; done)
    | (unfold acksTaken; rw [onUp_keep (fun s : State => s.canA)] <;> intros <;> simp; done)
  · first
    | rfl
    | (simp [acksTaken]; done)
    | (unfold acksTaken; dsimp only; (repeat' split) <;> (first | (simp; done) | (rw [foldl_keep (fun s : State => s.canB)]; · simp; · intro s a; (try dsimp only); (repeat' split) <;> simp; done)))
    | (unfold acksTaken; rw [onDown_keep (fun s : State => s.canB)] <;> intros <;> simp; done)
    | (unfold acksTaken; rw [onUp_keep (fun s : State => s.canB)] <;> intros <;> simp; done)
  · first
    | rfl
    | (simp [acksTaken]; done)
    | (unfold acksTaken; dsimp only; (repeat' split) <;> (first | (simp; done) | (rw [foldl_keep (fun s : State => s.svc)]; · simp; · intro s a; (try dsimp only); (repeat' split) <;> simp; done)))
    | (unfold acksTaken; rw [onDown_keep (fun s : State => s.svc)] <;> intros <;> simp; done)
    | (unfold acksTaken; rw [onUp_keep (fun s : State => s.svc)] <;> intros <;> simp; done)
  · first
    | rfl
    | (simp [acksTaken]; done)
    | (unfold acksTaken; dsimp only; (repeat' split) <;> (first | (simp; done) | (rw [foldl_keep (fun s : State => s.pwr)]; · simp; · intro s a; (try dsimp only); (repeat' split) <;> simp; done)))
    | (unfold acksTaken; rw [onDown_keep (fun s : State => s.pwr)] <;> intros <;> simp; done)
    | (unfold acksTaken; rw [onUp_keep (fun s : State => s.pwr)] <;> intros <;> simp; done)
  · first
    | rfl
    | (simp [acksTaken]; done)
    | (unfold acksTaken; dsimp only; (repeat' split) <;> (first | (simp; done) | (rw [foldl_keep (fun s : State => s.sec)]; · simp; · intro s a; (try dsimp only); (repeat' split) <;> simp; done)))
    | (unfold acksTaken; rw [onDown_keep (fun s : State => s.sec)] <;> intros <;> simp; done)
    | (unfold acksTaken; rw [onUp_keep (fun s : State => s.sec)] <;> intros <;> simp; done)
  · first
    | rfl
    | (simp [acksTaken]; done)
    | (unfold acksTaken; dsimp only; (repeat' split) <;> (first | (simp; done) | (rw [foldl_keep (fun s : State => s.ev)]; · simp; · intro s a; (try dsimp only); (repeat' split) <;> simp; done)))
    | (unfold acksTaken; rw [onDown_keep (fun s : State => s.ev)] <;> intros <;> simp; done)
    | (unfold acksTaken; rw [onUp_keep (fun s : State => s.ev)] <;> intros <;> simp; done)
@[simp] theorem edgeAck_frame (acks : List (BitVec 16 × Fin 4)) (s : State) :
    (edgeAck acks s).pending = s.pending ∧ (edgeAck acks s).free = s.free ∧ (edgeAck acks s).id = s.id ∧ (edgeAck
    acks s).modes = s.modes ∧ (edgeAck acks s).regs = s.regs ∧ (edgeAck acks s).chain = s.chain ∧ (edgeAck acks
    s).pkt = s.pkt ∧ (edgeAck acks s).out = s.out ∧ (edgeAck acks s).sense = s.sense ∧ (edgeAck acks s).loop =
    s.loop ∧ (edgeAck acks s).gnss = s.gnss ∧ (edgeAck acks s).canA = s.canA ∧ (edgeAck acks s).canB = s.canB ∧
    (edgeAck acks s).svc = s.svc ∧ (edgeAck acks s).pwr = s.pwr ∧ (edgeAck acks s).sec = s.sec := by
  refine ⟨?_, ?_, ?_, ?_, ?_, ?_, ?_, ?_, ?_, ?_, ?_, ?_, ?_, ?_, ?_, ?_⟩
  · first
    | rfl
    | (simp [edgeAck]; done)
    | (unfold edgeAck; dsimp only; (repeat' split) <;> (first | (simp; done) | (rw [foldl_keep (fun s : State => s.pending)]; · simp; · intro s a; (try dsimp only); (repeat' split) <;> simp; done)))
    | (unfold edgeAck; rw [onDown_keep (fun s : State => s.pending)] <;> intros <;> simp; done)
    | (unfold edgeAck; rw [onUp_keep (fun s : State => s.pending)] <;> intros <;> simp; done)
  · first
    | rfl
    | (simp [edgeAck]; done)
    | (unfold edgeAck; dsimp only; (repeat' split) <;> (first | (simp; done) | (rw [foldl_keep (fun s : State => s.free)]; · simp; · intro s a; (try dsimp only); (repeat' split) <;> simp; done)))
    | (unfold edgeAck; rw [onDown_keep (fun s : State => s.free)] <;> intros <;> simp; done)
    | (unfold edgeAck; rw [onUp_keep (fun s : State => s.free)] <;> intros <;> simp; done)
  · first
    | rfl
    | (simp [edgeAck]; done)
    | (unfold edgeAck; dsimp only; (repeat' split) <;> (first | (simp; done) | (rw [foldl_keep (fun s : State => s.id)]; · simp; · intro s a; (try dsimp only); (repeat' split) <;> simp; done)))
    | (unfold edgeAck; rw [onDown_keep (fun s : State => s.id)] <;> intros <;> simp; done)
    | (unfold edgeAck; rw [onUp_keep (fun s : State => s.id)] <;> intros <;> simp; done)
  · first
    | rfl
    | (simp [edgeAck]; done)
    | (unfold edgeAck; dsimp only; (repeat' split) <;> (first | (simp; done) | (rw [foldl_keep (fun s : State => s.modes)]; · simp; · intro s a; (try dsimp only); (repeat' split) <;> simp; done)))
    | (unfold edgeAck; rw [onDown_keep (fun s : State => s.modes)] <;> intros <;> simp; done)
    | (unfold edgeAck; rw [onUp_keep (fun s : State => s.modes)] <;> intros <;> simp; done)
  · first
    | rfl
    | (simp [edgeAck]; done)
    | (unfold edgeAck; dsimp only; (repeat' split) <;> (first | (simp; done) | (rw [foldl_keep (fun s : State => s.regs)]; · simp; · intro s a; (try dsimp only); (repeat' split) <;> simp; done)))
    | (unfold edgeAck; rw [onDown_keep (fun s : State => s.regs)] <;> intros <;> simp; done)
    | (unfold edgeAck; rw [onUp_keep (fun s : State => s.regs)] <;> intros <;> simp; done)
  · first
    | rfl
    | (simp [edgeAck]; done)
    | (unfold edgeAck; dsimp only; (repeat' split) <;> (first | (simp; done) | (rw [foldl_keep (fun s : State => s.chain)]; · simp; · intro s a; (try dsimp only); (repeat' split) <;> simp; done)))
    | (unfold edgeAck; rw [onDown_keep (fun s : State => s.chain)] <;> intros <;> simp; done)
    | (unfold edgeAck; rw [onUp_keep (fun s : State => s.chain)] <;> intros <;> simp; done)
  · first
    | rfl
    | (simp [edgeAck]; done)
    | (unfold edgeAck; dsimp only; (repeat' split) <;> (first | (simp; done) | (rw [foldl_keep (fun s : State => s.pkt)]; · simp; · intro s a; (try dsimp only); (repeat' split) <;> simp; done)))
    | (unfold edgeAck; rw [onDown_keep (fun s : State => s.pkt)] <;> intros <;> simp; done)
    | (unfold edgeAck; rw [onUp_keep (fun s : State => s.pkt)] <;> intros <;> simp; done)
  · first
    | rfl
    | (simp [edgeAck]; done)
    | (unfold edgeAck; dsimp only; (repeat' split) <;> (first | (simp; done) | (rw [foldl_keep (fun s : State => s.out)]; · simp; · intro s a; (try dsimp only); (repeat' split) <;> simp; done)))
    | (unfold edgeAck; rw [onDown_keep (fun s : State => s.out)] <;> intros <;> simp; done)
    | (unfold edgeAck; rw [onUp_keep (fun s : State => s.out)] <;> intros <;> simp; done)
  · first
    | rfl
    | (simp [edgeAck]; done)
    | (unfold edgeAck; dsimp only; (repeat' split) <;> (first | (simp; done) | (rw [foldl_keep (fun s : State => s.sense)]; · simp; · intro s a; (try dsimp only); (repeat' split) <;> simp; done)))
    | (unfold edgeAck; rw [onDown_keep (fun s : State => s.sense)] <;> intros <;> simp; done)
    | (unfold edgeAck; rw [onUp_keep (fun s : State => s.sense)] <;> intros <;> simp; done)
  · first
    | rfl
    | (simp [edgeAck]; done)
    | (unfold edgeAck; dsimp only; (repeat' split) <;> (first | (simp; done) | (rw [foldl_keep (fun s : State => s.loop)]; · simp; · intro s a; (try dsimp only); (repeat' split) <;> simp; done)))
    | (unfold edgeAck; rw [onDown_keep (fun s : State => s.loop)] <;> intros <;> simp; done)
    | (unfold edgeAck; rw [onUp_keep (fun s : State => s.loop)] <;> intros <;> simp; done)
  · first
    | rfl
    | (simp [edgeAck]; done)
    | (unfold edgeAck; dsimp only; (repeat' split) <;> (first | (simp; done) | (rw [foldl_keep (fun s : State => s.gnss)]; · simp; · intro s a; (try dsimp only); (repeat' split) <;> simp; done)))
    | (unfold edgeAck; rw [onDown_keep (fun s : State => s.gnss)] <;> intros <;> simp; done)
    | (unfold edgeAck; rw [onUp_keep (fun s : State => s.gnss)] <;> intros <;> simp; done)
  · first
    | rfl
    | (simp [edgeAck]; done)
    | (unfold edgeAck; dsimp only; (repeat' split) <;> (first | (simp; done) | (rw [foldl_keep (fun s : State => s.canA)]; · simp; · intro s a; (try dsimp only); (repeat' split) <;> simp; done)))
    | (unfold edgeAck; rw [onDown_keep (fun s : State => s.canA)] <;> intros <;> simp; done)
    | (unfold edgeAck; rw [onUp_keep (fun s : State => s.canA)] <;> intros <;> simp; done)
  · first
    | rfl
    | (simp [edgeAck]; done)
    | (unfold edgeAck; dsimp only; (repeat' split) <;> (first | (simp; done) | (rw [foldl_keep (fun s : State => s.canB)]; · simp; · intro s a; (try dsimp only); (repeat' split) <;> simp; done)))
    | (unfold edgeAck; rw [onDown_keep (fun s : State => s.canB)] <;> intros <;> simp; done)
    | (unfold edgeAck; rw [onUp_keep (fun s : State => s.canB)] <;> intros <;> simp; done)
  · first
    | rfl
    | (simp [edgeAck]; done)
    | (unfold edgeAck; dsimp only; (repeat' split) <;> (first | (simp; done) | (rw [foldl_keep (fun s : State => s.svc)]; · simp; · intro s a; (try dsimp only); (repeat' split) <;> simp; done)))
    | (unfold edgeAck; rw [onDown_keep (fun s : State => s.svc)] <;> intros <;> simp; done)
    | (unfold edgeAck; rw [onUp_keep (fun s : State => s.svc)] <;> intros <;> simp; done)
  · first
    | rfl
    | (simp [edgeAck]; done)
    | (unfold edgeAck; dsimp only; (repeat' split) <;> (first | (simp; done) | (rw [foldl_keep (fun s : State => s.pwr)]; · simp; · intro s a; (try dsimp only); (repeat' split) <;> simp; done)))
    | (unfold edgeAck; rw [onDown_keep (fun s : State => s.pwr)] <;> intros <;> simp; done)
    | (unfold edgeAck; rw [onUp_keep (fun s : State => s.pwr)] <;> intros <;> simp; done)
  · first
    | rfl
    | (simp [edgeAck]; done)
    | (unfold edgeAck; dsimp only; (repeat' split) <;> (first | (simp; done) | (rw [foldl_keep (fun s : State => s.sec)]; · simp; · intro s a; (try dsimp only); (repeat' split) <;> simp; done)))
    | (unfold edgeAck; rw [onDown_keep (fun s : State => s.sec)] <;> intros <;> simp; done)
    | (unfold edgeAck; rw [onUp_keep (fun s : State => s.sec)] <;> intros <;> simp; done)
@[simp] theorem schedEdgeResend_frame (tag : BitVec 16) (s : State) :
    (schedEdgeResend tag s).pending = s.pending ∧ (schedEdgeResend tag s).free = s.free ∧ (schedEdgeResend tag s).id
    = s.id ∧ (schedEdgeResend tag s).regs = s.regs ∧ (schedEdgeResend tag s).chain = s.chain ∧ (schedEdgeResend tag
    s).gnss = s.gnss ∧ (schedEdgeResend tag s).canA = s.canA ∧ (schedEdgeResend tag s).canB = s.canB ∧
    (schedEdgeResend tag s).svc = s.svc ∧ (schedEdgeResend tag s).pwr = s.pwr ∧ (schedEdgeResend tag s).sec = s.sec
    := by
  unfold schedEdgeResend; split <;> simp
@[simp] theorem answerCoef_frame (r : CoefReq) (s : State) :
    (answerCoef r s).pending = s.pending ∧ (answerCoef r s).free = s.free ∧ (answerCoef r s).id = s.id ∧ (answerCoef
    r s).modes = s.modes ∧ (answerCoef r s).regs = s.regs ∧ (answerCoef r s).clk = s.clk ∧ (answerCoef r s).out =
    s.out ∧ (answerCoef r s).sense = s.sense ∧ (answerCoef r s).loop = s.loop ∧ (answerCoef r s).gnss = s.gnss ∧
    (answerCoef r s).canA = s.canA ∧ (answerCoef r s).canB = s.canB ∧ (answerCoef r s).pwr = s.pwr ∧ (answerCoef r
    s).sec = s.sec ∧ (answerCoef r s).sect = s.sect := by
  unfold answerCoef; split <;> simp
@[simp] theorem coefResult_frame (tag : BitVec 16) (st : Byte) (s : State) :
    (coefResult tag st s).pending = s.pending ∧ (coefResult tag st s).free = s.free ∧ (coefResult tag st s).id =
    s.id ∧ (coefResult tag st s).modes = s.modes ∧ (coefResult tag st s).regs = s.regs ∧ (coefResult tag st s).clk =
    s.clk ∧ (coefResult tag st s).out = s.out ∧ (coefResult tag st s).sense = s.sense ∧ (coefResult tag st s).loop =
    s.loop ∧ (coefResult tag st s).gnss = s.gnss ∧ (coefResult tag st s).canA = s.canA ∧ (coefResult tag st s).canB
    = s.canB ∧ (coefResult tag st s).pwr = s.pwr ∧ (coefResult tag st s).sec = s.sec ∧ (coefResult tag st s).sect =
    s.sect := by simp [coefResult]
@[simp] theorem coefAcksTaken_frame (acks : List (BitVec 16 × Byte)) (s : State) :
    (coefAcksTaken acks s).pending = s.pending ∧ (coefAcksTaken acks s).free = s.free ∧ (coefAcksTaken acks s).id =
    s.id ∧ (coefAcksTaken acks s).modes = s.modes ∧ (coefAcksTaken acks s).regs = s.regs ∧ (coefAcksTaken acks
    s).clk = s.clk ∧ (coefAcksTaken acks s).out = s.out ∧ (coefAcksTaken acks s).sense = s.sense ∧ (coefAcksTaken
    acks s).loop = s.loop ∧ (coefAcksTaken acks s).gnss = s.gnss ∧ (coefAcksTaken acks s).canA = s.canA ∧
    (coefAcksTaken acks s).canB = s.canB ∧ (coefAcksTaken acks s).pwr = s.pwr ∧ (coefAcksTaken acks s).sec = s.sec ∧
    (coefAcksTaken acks s).sect = s.sect := by
  simp [coefAcksTaken]
@[simp] theorem loopCoefResend_frame (tag : BitVec 16) (s : State) :
    (loopCoefResend tag s).pending = s.pending ∧ (loopCoefResend tag s).free = s.free ∧ (loopCoefResend tag s).id =
    s.id ∧ (loopCoefResend tag s).modes = s.modes ∧ (loopCoefResend tag s).regs = s.regs ∧ (loopCoefResend tag
    s).clk = s.clk ∧ (loopCoefResend tag s).out = s.out ∧ (loopCoefResend tag s).sense = s.sense ∧ (loopCoefResend
    tag s).loop = s.loop ∧ (loopCoefResend tag s).gnss = s.gnss ∧ (loopCoefResend tag s).canA = s.canA ∧
    (loopCoefResend tag s).canB = s.canB ∧ (loopCoefResend tag s).pwr = s.pwr ∧ (loopCoefResend tag s).sec = s.sec ∧
    (loopCoefResend tag s).sect = s.sect := by
  unfold loopCoefResend; split <;> simp

end Sys2Proof.Laws
end

