-- ==== Sys2Proof/Laws/FramesChain.lean ====
section
/-! SUPPORT. Frames of the chain, the requests that act on the field side, and events.
One lemma for each operation, of the parts of the state that it leaves as they were. -/

namespace Sys2Proof.Laws

open Sys2Proof.Machine

@[simp] theorem putLine_frame (p : ChainPort) (f : ChainFrame) (s : State) :
    (putLine p f s).pending = s.pending ∧ (putLine p f s).free = s.free ∧ (putLine p f s).id = s.id ∧ (putLine p f
    s).modes = s.modes ∧ (putLine p f s).regs = s.regs ∧ (putLine p f s).clk = s.clk ∧ (putLine p f s).barr = s.barr
    ∧ (putLine p f s).pkt = s.pkt ∧ (putLine p f s).out = s.out ∧ (putLine p f s).sense = s.sense ∧ (putLine p f
    s).loop = s.loop ∧ (putLine p f s).gnss = s.gnss ∧ (putLine p f s).canA = s.canA ∧ (putLine p f s).canB = s.canB
    ∧ (putLine p f s).svc = s.svc ∧ (putLine p f s).pwr = s.pwr ∧ (putLine p f s).sec = s.sec ∧ (putLine p f s).fw =
    s.fw ∧ (putLine p f s).ev = s.ev ∧ (putLine p f s).sect = s.sect := by
  unfold putLine; split <;> simp
/-- What the barrier arena answers differs from the state in the packet counters and the deferred requests. -/
theorem barrierArena_keep {α : Type} (f : State → α) (q : Request) (n : Nat) (s : State) (r : State × Option Ans)
    (hf : ∀ (u : State) (p : Packets), f { u with pkt := p } = f u) (h : barrierArena q n s = some r) : f r.1 = f s := by
  unfold barrierArena at h
  extract_lets rank b t at h
  by_cases h1 : (decide (b = 0) && decide (s.barr.rg6.length + n ≤ 128)) = true
  · rw [if_pos h1] at h; cases h
  · rw [if_neg h1] at h
    by_cases h2 : b + n ≤ 4096
    · rw [if_pos h2] at h; obtain rfl := Option.some.inj h; exact hf s _
    · rw [if_neg h2] at h; obtain rfl := Option.some.inj h; exact hf s _
/-- A value that a guarded action leaves is left where its guard is asked first. -/
theorem guarded_keep {α : Type} (f : State → α) (c : Option Ans) (s : State) (act : State → State × Option Ans)
    (h : ∀ u, f (act u).1 = f u) : f (guarded c s act).1 = f s := by
  unfold guarded; split
  · rfl
  · exact h s
@[simp] theorem idleSend_frame (p : ChainPort) (s : State) :
    (idleSend p s).pending = s.pending ∧ (idleSend p s).free = s.free ∧ (idleSend p s).id = s.id ∧ (idleSend p
    s).modes = s.modes ∧ (idleSend p s).regs = s.regs ∧ (idleSend p s).clk = s.clk ∧ (idleSend p s).barr = s.barr ∧
    (idleSend p s).pkt = s.pkt ∧ (idleSend p s).out = s.out ∧ (idleSend p s).sense = s.sense ∧ (idleSend p s).loop =
    s.loop ∧ (idleSend p s).gnss = s.gnss ∧ (idleSend p s).canA = s.canA ∧ (idleSend p s).canB = s.canB ∧ (idleSend
    p s).svc = s.svc ∧ (idleSend p s).pwr = s.pwr ∧ (idleSend p s).sec = s.sec ∧ (idleSend p s).fw = s.fw ∧
    (idleSend p s).ev = s.ev ∧ (idleSend p s).sect = s.sect := by simp [idleSend]
@[simp] theorem symbolLock_frame (p : ChainPort) (s : State) :
    (symbolLock p s).pending = s.pending ∧ (symbolLock p s).free = s.free ∧ (symbolLock p s).id = s.id ∧ (symbolLock
    p s).modes = s.modes ∧ (symbolLock p s).regs = s.regs ∧ (symbolLock p s).barr = s.barr ∧ (symbolLock p s).pkt =
    s.pkt ∧ (symbolLock p s).out = s.out ∧ (symbolLock p s).sense = s.sense ∧ (symbolLock p s).loop = s.loop ∧
    (symbolLock p s).gnss = s.gnss ∧ (symbolLock p s).canA = s.canA ∧ (symbolLock p s).canB = s.canB ∧ (symbolLock p
    s).svc = s.svc ∧ (symbolLock p s).pwr = s.pwr ∧ (symbolLock p s).sec = s.sec ∧ (symbolLock p s).fw = s.fw ∧
    (symbolLock p s).ev = s.ev ∧ (symbolLock p s).sect = s.sect := by
  unfold symbolLock; (repeat' split) <;> simp
@[simp] theorem miswire_frame (p : ChainPort) (s : State) :
    (miswire p s).pending = s.pending ∧ (miswire p s).free = s.free ∧ (miswire p s).id = s.id ∧ (miswire p s).modes
    = s.modes ∧ (miswire p s).regs = s.regs ∧ (miswire p s).clk = s.clk ∧ (miswire p s).chain = s.chain ∧ (miswire p
    s).pkt = s.pkt ∧ (miswire p s).out = s.out ∧ (miswire p s).sense = s.sense ∧ (miswire p s).loop = s.loop ∧
    (miswire p s).gnss = s.gnss ∧ (miswire p s).canA = s.canA ∧ (miswire p s).canB = s.canB ∧ (miswire p s).svc =
    s.svc ∧ (miswire p s).pwr = s.pwr ∧ (miswire p s).sec = s.sec ∧ (miswire p s).fw = s.fw ∧ (miswire p s).sect =
    s.sect := by simp [miswire]
@[simp] theorem idleFrame_frame (p : ChainPort) (i : IdleInfo) (s : State) :
    (idleFrame p i s).pending = s.pending ∧ (idleFrame p i s).id = s.id ∧ (idleFrame p i s).modes = s.modes ∧
    (idleFrame p i s).regs = s.regs ∧ (idleFrame p i s).pkt = s.pkt ∧ (idleFrame p i s).out = s.out ∧ (idleFrame p i
    s).sense = s.sense ∧ (idleFrame p i s).loop = s.loop ∧ (idleFrame p i s).gnss = s.gnss ∧ (idleFrame p i s).canA
    = s.canA ∧ (idleFrame p i s).canB = s.canB ∧ (idleFrame p i s).svc = s.svc ∧ (idleFrame p i s).pwr = s.pwr ∧
    (idleFrame p i s).sec = s.sec ∧ (idleFrame p i s).fw = s.fw ∧ (idleFrame p i s).sect = s.sect := by
  unfold idleFrame; (repeat' split) <;> simp
@[simp] theorem partnerTimeout_frame (p : ChainPort) (s : State) :
    (partnerTimeout p s).pending = s.pending ∧ (partnerTimeout p s).id = s.id ∧ (partnerTimeout p s).modes = s.modes
    ∧ (partnerTimeout p s).regs = s.regs ∧ (partnerTimeout p s).barr = s.barr ∧ (partnerTimeout p s).pkt = s.pkt ∧
    (partnerTimeout p s).out = s.out ∧ (partnerTimeout p s).sense = s.sense ∧ (partnerTimeout p s).loop = s.loop ∧
    (partnerTimeout p s).gnss = s.gnss ∧ (partnerTimeout p s).canA = s.canA ∧ (partnerTimeout p s).canB = s.canB ∧
    (partnerTimeout p s).svc = s.svc ∧ (partnerTimeout p s).pwr = s.pwr ∧ (partnerTimeout p s).sec = s.sec ∧
    (partnerTimeout p s).fw = s.fw ∧ (partnerTimeout p s).ev = s.ev ∧ (partnerTimeout p s).sect = s.sect := by
  unfold partnerTimeout; (repeat' split) <;> simp
@[simp] theorem dropWalk_frame (s : State) :
    (dropWalk s).pending = s.pending ∧ (dropWalk s).free = s.free ∧ (dropWalk s).id = s.id ∧ (dropWalk s).modes =
    s.modes ∧ (dropWalk s).regs = s.regs ∧ (dropWalk s).clk = s.clk ∧ (dropWalk s).barr = s.barr ∧ (dropWalk s).out
    = s.out ∧ (dropWalk s).sense = s.sense ∧ (dropWalk s).loop = s.loop ∧ (dropWalk s).gnss = s.gnss ∧ (dropWalk
    s).canA = s.canA ∧ (dropWalk s).canB = s.canB ∧ (dropWalk s).pwr = s.pwr ∧ (dropWalk s).sec = s.sec ∧ (dropWalk
    s).fw = s.fw ∧ (dropWalk s).ev = s.ev ∧ (dropWalk s).sect = s.sect := by
  unfold dropWalk; (repeat' split) <;> simp
@[simp] theorem islandFrom_frame (s : State) :
    (islandFrom s).pending = s.pending ∧ (islandFrom s).id = s.id ∧ (islandFrom s).regs = s.regs ∧ (islandFrom
    s).gnss = s.gnss ∧ (islandFrom s).canA = s.canA ∧ (islandFrom s).canB = s.canB ∧ (islandFrom s).pwr = s.pwr ∧
    (islandFrom s).sec = s.sec := by
  simp [islandFrom]
@[simp] theorem chainBreak_frame (hop : Nat) (s : State) :
    (chainBreak hop s).pending = s.pending ∧ (chainBreak hop s).free = s.free ∧ (chainBreak hop s).id = s.id ∧
    (chainBreak hop s).modes = s.modes ∧ (chainBreak hop s).regs = s.regs ∧ (chainBreak hop s).clk = s.clk ∧
    (chainBreak hop s).chain = s.chain ∧ (chainBreak hop s).pkt = s.pkt ∧ (chainBreak hop s).out = s.out ∧
    (chainBreak hop s).sense = s.sense ∧ (chainBreak hop s).loop = s.loop ∧ (chainBreak hop s).gnss = s.gnss ∧
    (chainBreak hop s).canA = s.canA ∧ (chainBreak hop s).canB = s.canB ∧ (chainBreak hop s).svc = s.svc ∧
    (chainBreak hop s).pwr = s.pwr ∧ (chainBreak hop s).sec = s.sec ∧ (chainBreak hop s).fw = s.fw ∧ (chainBreak hop
    s).sect = s.sect := by
  simp [chainBreak]
@[simp] theorem symbolLockLoss_frame (p : ChainPort) (s : State) :
    (symbolLockLoss p s).pending = s.pending ∧ (symbolLockLoss p s).id = s.id ∧ (symbolLockLoss p s).regs = s.regs ∧
    (symbolLockLoss p s).gnss = s.gnss ∧ (symbolLockLoss p s).canA = s.canA ∧ (symbolLockLoss p s).canB = s.canB ∧
    (symbolLockLoss p s).pwr = s.pwr ∧ (symbolLockLoss p s).sec = s.sec := by
  unfold symbolLockLoss; (repeat' split) <;> simp
@[simp] theorem countOn_frame (p : ChainPort) (c : CrcState) (ok : Bool) (s : State) :
    (countOn p c ok s).pending = s.pending ∧ (countOn p c ok s).free = s.free ∧ (countOn p c ok s).id = s.id ∧
    (countOn p c ok s).modes = s.modes ∧ (countOn p c ok s).regs = s.regs ∧ (countOn p c ok s).clk = s.clk ∧
    (countOn p c ok s).barr = s.barr ∧ (countOn p c ok s).pkt = s.pkt ∧ (countOn p c ok s).out = s.out ∧ (countOn p
    c ok s).sense = s.sense ∧ (countOn p c ok s).loop = s.loop ∧ (countOn p c ok s).gnss = s.gnss ∧ (countOn p c ok
    s).canA = s.canA ∧ (countOn p c ok s).canB = s.canB ∧ (countOn p c ok s).svc = s.svc ∧ (countOn p c ok s).pwr =
    s.pwr ∧ (countOn p c ok s).sec = s.sec ∧ (countOn p c ok s).fw = s.fw ∧ (countOn p c ok s).ev = s.ev ∧ (countOn
    p c ok s).sect = s.sect := by
  unfold countOn; split <;> simp
@[simp] theorem forwardOn_frame (p : ChainPort) (f : ChainFrame) (s : State) :
    (forwardOn p f s).pending = s.pending ∧ (forwardOn p f s).free = s.free ∧ (forwardOn p f s).id = s.id ∧
    (forwardOn p f s).modes = s.modes ∧ (forwardOn p f s).regs = s.regs ∧ (forwardOn p f s).clk = s.clk ∧ (forwardOn
    p f s).barr = s.barr ∧ (forwardOn p f s).pkt = s.pkt ∧ (forwardOn p f s).out = s.out ∧ (forwardOn p f s).sense =
    s.sense ∧ (forwardOn p f s).loop = s.loop ∧ (forwardOn p f s).gnss = s.gnss ∧ (forwardOn p f s).canA = s.canA ∧
    (forwardOn p f s).canB = s.canB ∧ (forwardOn p f s).svc = s.svc ∧ (forwardOn p f s).pwr = s.pwr ∧ (forwardOn p f
    s).sec = s.sec ∧ (forwardOn p f s).fw = s.fw ∧ (forwardOn p f s).ev = s.ev ∧ (forwardOn p f s).sect = s.sect :=
    by
  unfold forwardOn; (repeat' split) <;> simp
@[simp] theorem arrive_frame (p : ChainPort) (f : ChainFrame) (s : State) :
    (arrive p f s).pending = s.pending ∧ (arrive p f s).free = s.free ∧ (arrive p f s).id = s.id ∧ (arrive p f
    s).modes = s.modes ∧ (arrive p f s).regs = s.regs ∧ (arrive p f s).clk = s.clk ∧ (arrive p f s).barr = s.barr ∧
    (arrive p f s).pkt = s.pkt ∧ (arrive p f s).out = s.out ∧ (arrive p f s).sense = s.sense ∧ (arrive p f s).loop =
    s.loop ∧ (arrive p f s).gnss = s.gnss ∧ (arrive p f s).canA = s.canA ∧ (arrive p f s).canB = s.canB ∧ (arrive p
    f s).svc = s.svc ∧ (arrive p f s).pwr = s.pwr ∧ (arrive p f s).sec = s.sec ∧ (arrive p f s).fw = s.fw ∧ (arrive
    p f s).ev = s.ev ∧ (arrive p f s).sect = s.sect := by
  simp [arrive]
@[simp] theorem frameForward_frame (p : ChainPort) (f : ChainFrame) (s : State) :
    (frameForward p f s).pending = s.pending ∧ (frameForward p f s).free = s.free ∧ (frameForward p f s).id = s.id ∧
    (frameForward p f s).modes = s.modes ∧ (frameForward p f s).regs = s.regs ∧ (frameForward p f s).clk = s.clk ∧
    (frameForward p f s).barr = s.barr ∧ (frameForward p f s).pkt = s.pkt ∧ (frameForward p f s).out = s.out ∧
    (frameForward p f s).sense = s.sense ∧ (frameForward p f s).loop = s.loop ∧ (frameForward p f s).gnss = s.gnss ∧
    (frameForward p f s).canA = s.canA ∧ (frameForward p f s).canB = s.canB ∧ (frameForward p f s).svc = s.svc ∧
    (frameForward p f s).pwr = s.pwr ∧ (frameForward p f s).sec = s.sec ∧ (frameForward p f s).fw = s.fw ∧
    (frameForward p f s).ev = s.ev ∧ (frameForward p f s).sect = s.sect := by
  simp [frameForward]
@[simp] theorem insertFrame_frame (x : OwnFrame) (s : State) :
    (insertFrame x s).pending = s.pending ∧ (insertFrame x s).free = s.free ∧ (insertFrame x s).id = s.id ∧
    (insertFrame x s).modes = s.modes ∧ (insertFrame x s).regs = s.regs ∧ (insertFrame x s).clk = s.clk ∧
    (insertFrame x s).barr = s.barr ∧ (insertFrame x s).pkt = s.pkt ∧ (insertFrame x s).out = s.out ∧ (insertFrame x
    s).sense = s.sense ∧ (insertFrame x s).loop = s.loop ∧ (insertFrame x s).gnss = s.gnss ∧ (insertFrame x s).canA
    = s.canA ∧ (insertFrame x s).canB = s.canB ∧ (insertFrame x s).svc = s.svc ∧ (insertFrame x s).pwr = s.pwr ∧
    (insertFrame x s).sec = s.sec ∧ (insertFrame x s).fw = s.fw ∧ (insertFrame x s).ev = s.ev ∧ (insertFrame x
    s).sect = s.sect := by
  simp [insertFrame]
@[simp] theorem insertOwn_frame (s : State) :
    (insertOwn s).pending = s.pending ∧ (insertOwn s).free = s.free ∧ (insertOwn s).id = s.id ∧ (insertOwn s).modes
    = s.modes ∧ (insertOwn s).regs = s.regs ∧ (insertOwn s).pkt = s.pkt ∧ (insertOwn s).out = s.out ∧ (insertOwn
    s).sense = s.sense ∧ (insertOwn s).loop = s.loop ∧ (insertOwn s).gnss = s.gnss ∧ (insertOwn s).canA = s.canA ∧
    (insertOwn s).canB = s.canB ∧ (insertOwn s).svc = s.svc ∧ (insertOwn s).pwr = s.pwr ∧ (insertOwn s).sec = s.sec
    ∧ (insertOwn s).fw = s.fw ∧ (insertOwn s).ev = s.ev ∧ (insertOwn s).sect = s.sect := by
  unfold insertOwn; (repeat' split) <;> simp
@[simp] theorem insertDue_frame (s : State) :
    (insertDue s).pending = s.pending ∧ (insertDue s).free = s.free ∧ (insertDue s).id = s.id ∧ (insertDue s).modes
    = s.modes ∧ (insertDue s).regs = s.regs ∧ (insertDue s).pkt = s.pkt ∧ (insertDue s).out = s.out ∧ (insertDue
    s).sense = s.sense ∧ (insertDue s).loop = s.loop ∧ (insertDue s).gnss = s.gnss ∧ (insertDue s).canA = s.canA ∧
    (insertDue s).canB = s.canB ∧ (insertDue s).svc = s.svc ∧ (insertDue s).pwr = s.pwr ∧ (insertDue s).sec = s.sec
    ∧ (insertDue s).fw = s.fw ∧ (insertDue s).ev = s.ev ∧ (insertDue s).sect = s.sect := by
  unfold insertDue; (repeat' split) <;> simp
@[simp] theorem returnReply_frame (f : ChainFrame) (s : State) :
    (returnReply f s).pending = s.pending ∧ (returnReply f s).free = s.free ∧ (returnReply f s).id = s.id ∧
    (returnReply f s).modes = s.modes ∧ (returnReply f s).regs = s.regs ∧ (returnReply f s).clk = s.clk ∧
    (returnReply f s).barr = s.barr ∧ (returnReply f s).out = s.out ∧ (returnReply f s).sense = s.sense ∧
    (returnReply f s).loop = s.loop ∧ (returnReply f s).gnss = s.gnss ∧ (returnReply f s).canA = s.canA ∧
    (returnReply f s).canB = s.canB ∧ (returnReply f s).pwr = s.pwr ∧ (returnReply f s).sec = s.sec ∧ (returnReply f
    s).fw = s.fw ∧ (returnReply f s).ev = s.ev ∧ (returnReply f s).sect = s.sect := by
  unfold returnReply; (repeat' split) <;> simp
@[simp] theorem rplFrame_frame (f : ChainFrame) (s : State) :
    (rplFrame f s).pending = s.pending ∧ (rplFrame f s).free = s.free ∧ (rplFrame f s).id = s.id ∧ (rplFrame f
    s).modes = s.modes ∧ (rplFrame f s).regs = s.regs ∧ (rplFrame f s).clk = s.clk ∧ (rplFrame f s).barr = s.barr ∧
    (rplFrame f s).out = s.out ∧ (rplFrame f s).sense = s.sense ∧ (rplFrame f s).loop = s.loop ∧ (rplFrame f s).gnss
    = s.gnss ∧ (rplFrame f s).canA = s.canA ∧ (rplFrame f s).canB = s.canB ∧ (rplFrame f s).pwr = s.pwr ∧ (rplFrame
    f s).sec = s.sec ∧ (rplFrame f s).fw = s.fw ∧ (rplFrame f s).ev = s.ev ∧ (rplFrame f s).sect = s.sect := by
  simp [rplFrame]
@[simp] theorem enumPass_frame (p : ChainPort) (kind : Nat) (i : EnumInfo) (s : State) :
    (enumPass p kind i s).pending = s.pending ∧ (enumPass p kind i s).free = s.free ∧ (enumPass p kind i s).id =
    s.id ∧ (enumPass p kind i s).modes = s.modes ∧ (enumPass p kind i s).regs = s.regs ∧ (enumPass p kind i s).clk =
    s.clk ∧ (enumPass p kind i s).barr = s.barr ∧ (enumPass p kind i s).pkt = s.pkt ∧ (enumPass p kind i s).out =
    s.out ∧ (enumPass p kind i s).sense = s.sense ∧ (enumPass p kind i s).loop = s.loop ∧ (enumPass p kind i s).gnss
    = s.gnss ∧ (enumPass p kind i s).canA = s.canA ∧ (enumPass p kind i s).canB = s.canB ∧ (enumPass p kind i s).svc
    = s.svc ∧ (enumPass p kind i s).pwr = s.pwr ∧ (enumPass p kind i s).sec = s.sec ∧ (enumPass p kind i s).fw =
    s.fw ∧ (enumPass p kind i s).ev = s.ev ∧ (enumPass p kind i s).sect = s.sect := by
  simp [enumPass]
@[simp] theorem checkPlanner_frame (p : Byte) (s : State) :
    (checkPlanner p s).pending = s.pending ∧ (checkPlanner p s).free = s.free ∧ (checkPlanner p s).id = s.id ∧
    (checkPlanner p s).modes = s.modes ∧ (checkPlanner p s).regs = s.regs ∧ (checkPlanner p s).clk = s.clk ∧
    (checkPlanner p s).pkt = s.pkt ∧ (checkPlanner p s).out = s.out ∧ (checkPlanner p s).sense = s.sense ∧
    (checkPlanner p s).loop = s.loop ∧ (checkPlanner p s).gnss = s.gnss ∧ (checkPlanner p s).canA = s.canA ∧
    (checkPlanner p s).canB = s.canB ∧ (checkPlanner p s).svc = s.svc ∧ (checkPlanner p s).pwr = s.pwr ∧
    (checkPlanner p s).sec = s.sec ∧ (checkPlanner p s).fw = s.fw ∧ (checkPlanner p s).sect = s.sect := by simp [checkPlanner]
@[simp] theorem takeAddr_frame (a : BitVec 16) (valid : Bool) (id : BitVec 3) (s : State) :
    (takeAddr a valid id s).pending = s.pending ∧ (takeAddr a valid id s).free = s.free ∧ (takeAddr a valid id s).id
    = s.id ∧ (takeAddr a valid id s).regs = s.regs ∧ (takeAddr a valid id s).clk = s.clk ∧ (takeAddr a valid id
    s).gnss = s.gnss ∧ (takeAddr a valid id s).canA = s.canA ∧ (takeAddr a valid id s).canB = s.canB ∧ (takeAddr a
    valid id s).svc = s.svc ∧ (takeAddr a valid id s).pwr = s.pwr ∧ (takeAddr a valid id s).sec = s.sec := by simp [takeAddr]
@[simp] theorem endIsland_frame (s : State) :
    (endIsland s).pending = s.pending ∧ (endIsland s).free = s.free ∧ (endIsland s).id = s.id ∧ (endIsland s).regs =
    s.regs ∧ (endIsland s).clk = s.clk ∧ (endIsland s).barr = s.barr ∧ (endIsland s).pkt = s.pkt ∧ (endIsland s).out
    = s.out ∧ (endIsland s).sense = s.sense ∧ (endIsland s).loop = s.loop ∧ (endIsland s).gnss = s.gnss ∧ (endIsland
    s).canA = s.canA ∧ (endIsland s).canB = s.canB ∧ (endIsland s).svc = s.svc ∧ (endIsland s).pwr = s.pwr ∧
    (endIsland s).sec = s.sec ∧ (endIsland s).fw = s.fw ∧ (endIsland s).ev = s.ev ∧ (endIsland s).sect = s.sect := by simp [endIsland]
@[simp] theorem sendStart_frame (recheck : Bool) (gen next : BitVec 16) (s : State) :
    (sendStart recheck gen next s).pending = s.pending ∧ (sendStart recheck gen next s).free = s.free ∧ (sendStart
    recheck gen next s).id = s.id ∧ (sendStart recheck gen next s).modes = s.modes ∧ (sendStart recheck gen next
    s).regs = s.regs ∧ (sendStart recheck gen next s).clk = s.clk ∧ (sendStart recheck gen next s).barr = s.barr ∧
    (sendStart recheck gen next s).pkt = s.pkt ∧ (sendStart recheck gen next s).out = s.out ∧ (sendStart recheck gen
    next s).sense = s.sense ∧ (sendStart recheck gen next s).loop = s.loop ∧ (sendStart recheck gen next s).gnss =
    s.gnss ∧ (sendStart recheck gen next s).canA = s.canA ∧ (sendStart recheck gen next s).canB = s.canB ∧
    (sendStart recheck gen next s).svc = s.svc ∧ (sendStart recheck gen next s).pwr = s.pwr ∧ (sendStart recheck gen
    next s).sec = s.sec ∧ (sendStart recheck gen next s).fw = s.fw ∧ (sendStart recheck gen next s).ev = s.ev ∧
    (sendStart recheck gen next s).sect = s.sect := by simp [sendStart]
@[simp] theorem endWalk_frame (last : BitVec 16) (stalled : Bool) (s : State) :
    (endWalk last stalled s).pending = s.pending ∧ (endWalk last stalled s).free = s.free ∧ (endWalk last stalled
    s).id = s.id ∧ (endWalk last stalled s).regs = s.regs ∧ (endWalk last stalled s).clk = s.clk ∧ (endWalk last
    stalled s).out = s.out ∧ (endWalk last stalled s).sense = s.sense ∧ (endWalk last stalled s).loop = s.loop ∧
    (endWalk last stalled s).gnss = s.gnss ∧ (endWalk last stalled s).canA = s.canA ∧ (endWalk last stalled s).canB
    = s.canB ∧ (endWalk last stalled s).pwr = s.pwr ∧ (endWalk last stalled s).sec = s.sec ∧ (endWalk last stalled
    s).fw = s.fw ∧ (endWalk last stalled s).sect = s.sect := by
  unfold endWalk; (repeat' split) <;> simp
@[simp] theorem walkStart_frame (recheck : Bool) (q : Option Request) (s : State) :
    (walkStart recheck q s).pending = s.pending ∧ (walkStart recheck q s).free = s.free ∧ (walkStart recheck q s).id
    = s.id ∧ (walkStart recheck q s).regs = s.regs ∧ (walkStart recheck q s).clk = s.clk ∧ (walkStart recheck q
    s).gnss = s.gnss ∧ (walkStart recheck q s).canA = s.canA ∧ (walkStart recheck q s).canB = s.canB ∧ (walkStart
    recheck q s).pwr = s.pwr ∧ (walkStart recheck q s).sec = s.sec := by
  unfold walkStart; (repeat' split) <;> simp
@[simp] theorem autoWalk_frame (recheck : Bool) (s : State) :
    (autoWalk recheck s).pending = s.pending ∧ (autoWalk recheck s).free = s.free ∧ (autoWalk recheck s).id = s.id ∧
    (autoWalk recheck s).regs = s.regs ∧ (autoWalk recheck s).clk = s.clk ∧ (autoWalk recheck s).gnss = s.gnss ∧
    (autoWalk recheck s).canA = s.canA ∧ (autoWalk recheck s).canB = s.canB ∧ (autoWalk recheck s).pwr = s.pwr ∧
    (autoWalk recheck s).sec = s.sec := by
  simp [autoWalk]
@[simp] theorem enumStart_frame (i : EnumInfo) (s : State) :
    (enumStart i s).pending = s.pending ∧ (enumStart i s).free = s.free ∧ (enumStart i s).id = s.id ∧ (enumStart i
    s).modes = s.modes ∧ (enumStart i s).regs = s.regs ∧ (enumStart i s).clk = s.clk ∧ (enumStart i s).barr = s.barr
    ∧ (enumStart i s).pkt = s.pkt ∧ (enumStart i s).out = s.out ∧ (enumStart i s).sense = s.sense ∧ (enumStart i
    s).loop = s.loop ∧ (enumStart i s).gnss = s.gnss ∧ (enumStart i s).canA = s.canA ∧ (enumStart i s).canB = s.canB
    ∧ (enumStart i s).svc = s.svc ∧ (enumStart i s).pwr = s.pwr ∧ (enumStart i s).sec = s.sec ∧ (enumStart i s).fw =
    s.fw ∧ (enumStart i s).ev = s.ev ∧ (enumStart i s).sect = s.sect := by
  simp [enumStart]
@[simp] theorem reportDup_frame (first : Option Judged) (i : EnumInfo) (s : State) :
    (reportDup first i s).pending = s.pending ∧ (reportDup first i s).free = s.free ∧ (reportDup first i s).id =
    s.id ∧ (reportDup first i s).modes = s.modes ∧ (reportDup first i s).regs = s.regs ∧ (reportDup first i s).clk =
    s.clk ∧ (reportDup first i s).pkt = s.pkt ∧ (reportDup first i s).out = s.out ∧ (reportDup first i s).sense =
    s.sense ∧ (reportDup first i s).loop = s.loop ∧ (reportDup first i s).gnss = s.gnss ∧ (reportDup first i s).canA
    = s.canA ∧ (reportDup first i s).canB = s.canB ∧ (reportDup first i s).svc = s.svc ∧ (reportDup first i s).pwr =
    s.pwr ∧ (reportDup first i s).sec = s.sec ∧ (reportDup first i s).fw = s.fw ∧ (reportDup first i s).sect =
    s.sect := by
  simp [reportDup]
@[simp] theorem judgeClaim_frame (i : EnumInfo) (w : Walk) (s : State) :
    (judgeClaim i w s).pending = s.pending ∧ (judgeClaim i w s).free = s.free ∧ (judgeClaim i w s).id = s.id ∧
    (judgeClaim i w s).modes = s.modes ∧ (judgeClaim i w s).regs = s.regs ∧ (judgeClaim i w s).clk = s.clk ∧
    (judgeClaim i w s).pkt = s.pkt ∧ (judgeClaim i w s).out = s.out ∧ (judgeClaim i w s).sense = s.sense ∧
    (judgeClaim i w s).loop = s.loop ∧ (judgeClaim i w s).gnss = s.gnss ∧ (judgeClaim i w s).canA = s.canA ∧
    (judgeClaim i w s).canB = s.canB ∧ (judgeClaim i w s).svc = s.svc ∧ (judgeClaim i w s).pwr = s.pwr ∧ (judgeClaim
    i w s).sec = s.sec ∧ (judgeClaim i w s).fw = s.fw ∧ (judgeClaim i w s).sect = s.sect := by
  unfold judgeClaim; split <;> simp
@[simp] theorem sawClaim_frame (i : EnumInfo) (s : State) :
    (sawClaim i s).pending = s.pending ∧ (sawClaim i s).free = s.free ∧ (sawClaim i s).id = s.id ∧ (sawClaim i
    s).modes = s.modes ∧ (sawClaim i s).regs = s.regs ∧ (sawClaim i s).clk = s.clk ∧ (sawClaim i s).barr = s.barr ∧
    (sawClaim i s).pkt = s.pkt ∧ (sawClaim i s).out = s.out ∧ (sawClaim i s).sense = s.sense ∧ (sawClaim i s).loop =
    s.loop ∧ (sawClaim i s).gnss = s.gnss ∧ (sawClaim i s).canA = s.canA ∧ (sawClaim i s).canB = s.canB ∧ (sawClaim
    i s).svc = s.svc ∧ (sawClaim i s).pwr = s.pwr ∧ (sawClaim i s).sec = s.sec ∧ (sawClaim i s).fw = s.fw ∧
    (sawClaim i s).ev = s.ev ∧ (sawClaim i s).sect = s.sect := by
  unfold sawClaim; split <;> simp
@[simp] theorem enumClaim_frame (i : EnumInfo) (s : State) :
    (enumClaim i s).pending = s.pending ∧ (enumClaim i s).free = s.free ∧ (enumClaim i s).id = s.id ∧ (enumClaim i
    s).modes = s.modes ∧ (enumClaim i s).regs = s.regs ∧ (enumClaim i s).clk = s.clk ∧ (enumClaim i s).pkt = s.pkt ∧
    (enumClaim i s).out = s.out ∧ (enumClaim i s).sense = s.sense ∧ (enumClaim i s).loop = s.loop ∧ (enumClaim i
    s).gnss = s.gnss ∧ (enumClaim i s).canA = s.canA ∧ (enumClaim i s).canB = s.canB ∧ (enumClaim i s).svc = s.svc ∧
    (enumClaim i s).pwr = s.pwr ∧ (enumClaim i s).sec = s.sec ∧ (enumClaim i s).fw = s.fw ∧ (enumClaim i s).sect =
    s.sect := by
  unfold enumClaim; (try dsimp only); (repeat' split) <;> simp
@[simp] theorem enumVerdict_frame (i : EnumInfo) (s : State) :
    (enumVerdict i s).pending = s.pending ∧ (enumVerdict i s).free = s.free ∧ (enumVerdict i s).id = s.id ∧
    (enumVerdict i s).modes = s.modes ∧ (enumVerdict i s).regs = s.regs ∧ (enumVerdict i s).clk = s.clk ∧
    (enumVerdict i s).barr = s.barr ∧ (enumVerdict i s).pkt = s.pkt ∧ (enumVerdict i s).out = s.out ∧ (enumVerdict i
    s).sense = s.sense ∧ (enumVerdict i s).loop = s.loop ∧ (enumVerdict i s).gnss = s.gnss ∧ (enumVerdict i s).canA
    = s.canA ∧ (enumVerdict i s).canB = s.canB ∧ (enumVerdict i s).svc = s.svc ∧ (enumVerdict i s).pwr = s.pwr ∧
    (enumVerdict i s).sec = s.sec ∧ (enumVerdict i s).fw = s.fw ∧ (enumVerdict i s).ev = s.ev ∧ (enumVerdict i
    s).sect = s.sect := by
  unfold enumVerdict; (try dsimp only); (repeat' split) <;> simp
@[simp] theorem enumEnd_frame (i : EnumInfo) (s : State) :
    (enumEnd i s).pending = s.pending ∧ (enumEnd i s).free = s.free ∧ (enumEnd i s).id = s.id ∧ (enumEnd i s).regs =
    s.regs ∧ (enumEnd i s).clk = s.clk ∧ (enumEnd i s).out = s.out ∧ (enumEnd i s).sense = s.sense ∧ (enumEnd i
    s).loop = s.loop ∧ (enumEnd i s).gnss = s.gnss ∧ (enumEnd i s).canA = s.canA ∧ (enumEnd i s).canB = s.canB ∧
    (enumEnd i s).pwr = s.pwr ∧ (enumEnd i s).sec = s.sec ∧ (enumEnd i s).fw = s.fw ∧ (enumEnd i s).sect = s.sect :=
    by
  unfold enumEnd; (try dsimp only); (repeat' split) <;> simp
@[simp] theorem applyClaim_frame (i : EnumInfo) (s : State) :
    (applyClaim i s).pending = s.pending ∧ (applyClaim i s).free = s.free ∧ (applyClaim i s).id = s.id ∧ (applyClaim
    i s).regs = s.regs ∧ (applyClaim i s).clk = s.clk ∧ (applyClaim i s).gnss = s.gnss ∧ (applyClaim i s).canA =
    s.canA ∧ (applyClaim i s).canB = s.canB ∧ (applyClaim i s).svc = s.svc ∧ (applyClaim i s).pwr = s.pwr ∧
    (applyClaim i s).sec = s.sec := by
  unfold applyClaim; split <;> simp
@[simp] theorem enumDone_frame (i : EnumInfo) (s : State) :
    (enumDone i s).pending = s.pending ∧ (enumDone i s).free = s.free ∧ (enumDone i s).id = s.id ∧ (enumDone i
    s).regs = s.regs ∧ (enumDone i s).clk = s.clk ∧ (enumDone i s).gnss = s.gnss ∧ (enumDone i s).canA = s.canA ∧
    (enumDone i s).canB = s.canB ∧ (enumDone i s).svc = s.svc ∧ (enumDone i s).pwr = s.pwr ∧ (enumDone i s).sec =
    s.sec := by
  simp [enumDone]
@[simp] theorem enumStallTimeout_frame (s : State) :
    (enumStallTimeout s).pending = s.pending ∧ (enumStallTimeout s).free = s.free ∧ (enumStallTimeout s).id = s.id ∧
    (enumStallTimeout s).regs = s.regs ∧ (enumStallTimeout s).clk = s.clk ∧ (enumStallTimeout s).out = s.out ∧
    (enumStallTimeout s).sense = s.sense ∧ (enumStallTimeout s).loop = s.loop ∧ (enumStallTimeout s).gnss = s.gnss ∧
    (enumStallTimeout s).canA = s.canA ∧ (enumStallTimeout s).canB = s.canB ∧ (enumStallTimeout s).pwr = s.pwr ∧
    (enumStallTimeout s).sec = s.sec ∧ (enumStallTimeout s).fw = s.fw ∧ (enumStallTimeout s).sect = s.sect := by
  unfold enumStallTimeout; (repeat' split) <;> simp
@[simp] theorem claimResend_frame (s : State) :
    (claimResend s).pending = s.pending ∧ (claimResend s).free = s.free ∧ (claimResend s).id = s.id ∧ (claimResend
    s).modes = s.modes ∧ (claimResend s).regs = s.regs ∧ (claimResend s).clk = s.clk ∧ (claimResend s).pkt = s.pkt ∧
    (claimResend s).out = s.out ∧ (claimResend s).sense = s.sense ∧ (claimResend s).loop = s.loop ∧ (claimResend
    s).gnss = s.gnss ∧ (claimResend s).canA = s.canA ∧ (claimResend s).canB = s.canB ∧ (claimResend s).svc = s.svc ∧
    (claimResend s).pwr = s.pwr ∧ (claimResend s).sec = s.sec ∧ (claimResend s).fw = s.fw ∧ (claimResend s).sect =
    s.sect := by
  unfold claimResend; split <;> simp
@[simp] theorem marlCount_frame (i : MarlInfo) (s : State) :
    (marlCount i s).1.pending = s.pending ∧ (marlCount i s).1.free = s.free ∧ (marlCount i s).1.id = s.id ∧
    (marlCount i s).1.modes = s.modes ∧ (marlCount i s).1.regs = s.regs ∧ (marlCount i s).1.clk = s.clk ∧ (marlCount
    i s).1.barr = s.barr ∧ (marlCount i s).1.pkt = s.pkt ∧ (marlCount i s).1.out = s.out ∧ (marlCount i s).1.sense =
    s.sense ∧ (marlCount i s).1.loop = s.loop ∧ (marlCount i s).1.gnss = s.gnss ∧ (marlCount i s).1.canA = s.canA ∧
    (marlCount i s).1.canB = s.canB ∧ (marlCount i s).1.svc = s.svc ∧ (marlCount i s).1.pwr = s.pwr ∧ (marlCount i
    s).1.sec = s.sec ∧ (marlCount i s).1.fw = s.fw ∧ (marlCount i s).1.ev = s.ev ∧ (marlCount i s).1.sect = s.sect
    := by
  unfold marlCount; split <;> simp
@[simp] theorem sendPattern_frame (i : MarlInfo) (s : State) :
    (sendPattern i s).pending = s.pending ∧ (sendPattern i s).free = s.free ∧ (sendPattern i s).id = s.id ∧
    (sendPattern i s).modes = s.modes ∧ (sendPattern i s).regs = s.regs ∧ (sendPattern i s).pkt = s.pkt ∧
    (sendPattern i s).out = s.out ∧ (sendPattern i s).sense = s.sense ∧ (sendPattern i s).loop = s.loop ∧
    (sendPattern i s).gnss = s.gnss ∧ (sendPattern i s).canA = s.canA ∧ (sendPattern i s).canB = s.canB ∧
    (sendPattern i s).svc = s.svc ∧ (sendPattern i s).pwr = s.pwr ∧ (sendPattern i s).sec = s.sec ∧ (sendPattern i
    s).fw = s.fw ∧ (sendPattern i s).ev = s.ev ∧ (sendPattern i s).sect = s.sect := by
  simp [sendPattern]
@[simp] theorem clearChain_frame (v : Word) (s : State) :
    (clearChain v s).pending = s.pending ∧ (clearChain v s).free = s.free ∧ (clearChain v s).id = s.id ∧ (clearChain
    v s).modes = s.modes ∧ (clearChain v s).regs = s.regs ∧ (clearChain v s).clk = s.clk ∧ (clearChain v s).barr =
    s.barr ∧ (clearChain v s).pkt = s.pkt ∧ (clearChain v s).out = s.out ∧ (clearChain v s).sense = s.sense ∧
    (clearChain v s).loop = s.loop ∧ (clearChain v s).gnss = s.gnss ∧ (clearChain v s).canA = s.canA ∧ (clearChain v
    s).canB = s.canB ∧ (clearChain v s).svc = s.svc ∧ (clearChain v s).pwr = s.pwr ∧ (clearChain v s).sec = s.sec ∧
    (clearChain v s).fw = s.fw ∧ (clearChain v s).ev = s.ev ∧ (clearChain v s).sect = s.sect := by simp [clearChain]
@[simp] theorem crossAct_frame (q : Request) (s : State) :
    (crossAct q s).1.pending = s.pending ∧ (crossAct q s).1.free = s.free ∧ (crossAct q s).1.id = s.id ∧ (crossAct q
    s).1.modes = s.modes ∧ (crossAct q s).1.regs = s.regs ∧ (crossAct q s).1.clk = s.clk ∧ (crossAct q s).1.chain =
    s.chain ∧ (crossAct q s).1.out = s.out ∧ (crossAct q s).1.sense = s.sense ∧ (crossAct q s).1.loop = s.loop ∧
    (crossAct q s).1.gnss = s.gnss ∧ (crossAct q s).1.canA = s.canA ∧ (crossAct q s).1.canB = s.canB ∧ (crossAct q
    s).1.svc = s.svc ∧ (crossAct q s).1.pwr = s.pwr ∧ (crossAct q s).1.sec = s.sec ∧ (crossAct q s).1.fw = s.fw ∧
    (crossAct q s).1.ev = s.ev ∧ (crossAct q s).1.sect = s.sect := by
  refine ⟨?_, ?_, ?_, ?_, ?_, ?_, ?_, ?_, ?_, ?_, ?_, ?_, ?_, ?_, ?_, ?_, ?_, ?_, ?_⟩
  · unfold crossAct; (try dsimp only); repeat' (first | (intro _) | split | rw [foldl_keep (fun s : State => s.pending)] | rw [foldl_keep (fun x : List Edge × State => x.2.pending)] | rw [onDown_keep (fun s : State => s.pending)] | rw [onUp_keep (fun s : State => s.pending)] | rw [orElse_keep (fun s : State => s.pending)] | rw [guarded_keep (fun s : State => s.pending)])
    all_goals first | rfl | (simp; done) | exact barrierArena_keep (fun s : State => s.pending) _ _ _ _ (fun _ _ => rfl) ‹_›
  · unfold crossAct; (try dsimp only); repeat' (first | (intro _) | split | rw [foldl_keep (fun s : State => s.free)] | rw [foldl_keep (fun x : List Edge × State => x.2.free)] | rw [onDown_keep (fun s : State => s.free)] | rw [onUp_keep (fun s : State => s.free)] | rw [orElse_keep (fun s : State => s.free)] | rw [guarded_keep (fun s : State => s.free)])
    all_goals first | rfl | (simp; done) | exact barrierArena_keep (fun s : State => s.free) _ _ _ _ (fun _ _ => rfl) ‹_›
  · unfold crossAct; (try dsimp only); repeat' (first | (intro _) | split | rw [foldl_keep (fun s : State => s.id)] | rw [foldl_keep (fun x : List Edge × State => x.2.id)] | rw [onDown_keep (fun s : State => s.id)] | rw [onUp_keep (fun s : State => s.id)] | rw [orElse_keep (fun s : State => s.id)] | rw [guarded_keep (fun s : State => s.id)])
    all_goals first | rfl | (simp; done) | exact barrierArena_keep (fun s : State => s.id) _ _ _ _ (fun _ _ => rfl) ‹_›
  · unfold crossAct; (try dsimp only); repeat' (first | (intro _) | split | rw [foldl_keep (fun s : State => s.modes)] | rw [foldl_keep (fun x : List Edge × State => x.2.modes)] | rw [onDown_keep (fun s : State => s.modes)] | rw [onUp_keep (fun s : State => s.modes)] | rw [orElse_keep (fun s : State => s.modes)] | rw [guarded_keep (fun s : State => s.modes)])
    all_goals first | rfl | (simp; done) | exact barrierArena_keep (fun s : State => s.modes) _ _ _ _ (fun _ _ => rfl) ‹_›
  · unfold crossAct; (try dsimp only); repeat' (first | (intro _) | split | rw [foldl_keep (fun s : State => s.regs)] | rw [foldl_keep (fun x : List Edge × State => x.2.regs)] | rw [onDown_keep (fun s : State => s.regs)] | rw [onUp_keep (fun s : State => s.regs)] | rw [orElse_keep (fun s : State => s.regs)] | rw [guarded_keep (fun s : State => s.regs)])
    all_goals first | rfl | (simp; done) | exact barrierArena_keep (fun s : State => s.regs) _ _ _ _ (fun _ _ => rfl) ‹_›
  · unfold crossAct; (try dsimp only); repeat' (first | (intro _) | split | rw [foldl_keep (fun s : State => s.clk)] | rw [foldl_keep (fun x : List Edge × State => x.2.clk)] | rw [onDown_keep (fun s : State => s.clk)] | rw [onUp_keep (fun s : State => s.clk)] | rw [orElse_keep (fun s : State => s.clk)] | rw [guarded_keep (fun s : State => s.clk)])
    all_goals first | rfl | (simp; done) | exact barrierArena_keep (fun s : State => s.clk) _ _ _ _ (fun _ _ => rfl) ‹_›
  · unfold crossAct; (try dsimp only); repeat' (first | (intro _) | split | rw [foldl_keep (fun s : State => s.chain)] | rw [foldl_keep (fun x : List Edge × State => x.2.chain)] | rw [onDown_keep (fun s : State => s.chain)] | rw [onUp_keep (fun s : State => s.chain)] | rw [orElse_keep (fun s : State => s.chain)] | rw [guarded_keep (fun s : State => s.chain)])
    all_goals first | rfl | (simp; done) | exact barrierArena_keep (fun s : State => s.chain) _ _ _ _ (fun _ _ => rfl) ‹_›
  · unfold crossAct; (try dsimp only); repeat' (first | (intro _) | split | rw [foldl_keep (fun s : State => s.out)] | rw [foldl_keep (fun x : List Edge × State => x.2.out)] | rw [onDown_keep (fun s : State => s.out)] | rw [onUp_keep (fun s : State => s.out)] | rw [orElse_keep (fun s : State => s.out)] | rw [guarded_keep (fun s : State => s.out)])
    all_goals first | rfl | (simp; done) | exact barrierArena_keep (fun s : State => s.out) _ _ _ _ (fun _ _ => rfl) ‹_›
  · unfold crossAct; (try dsimp only); repeat' (first | (intro _) | split | rw [foldl_keep (fun s : State => s.sense)] | rw [foldl_keep (fun x : List Edge × State => x.2.sense)] | rw [onDown_keep (fun s : State => s.sense)] | rw [onUp_keep (fun s : State => s.sense)] | rw [orElse_keep (fun s : State => s.sense)] | rw [guarded_keep (fun s : State => s.sense)])
    all_goals first | rfl | (simp; done) | exact barrierArena_keep (fun s : State => s.sense) _ _ _ _ (fun _ _ => rfl) ‹_›
  · unfold crossAct; (try dsimp only); repeat' (first | (intro _) | split | rw [foldl_keep (fun s : State => s.loop)] | rw [foldl_keep (fun x : List Edge × State => x.2.loop)] | rw [onDown_keep (fun s : State => s.loop)] | rw [onUp_keep (fun s : State => s.loop)] | rw [orElse_keep (fun s : State => s.loop)] | rw [guarded_keep (fun s : State => s.loop)])
    all_goals first | rfl | (simp; done) | exact barrierArena_keep (fun s : State => s.loop) _ _ _ _ (fun _ _ => rfl) ‹_›
  · unfold crossAct; (try dsimp only); repeat' (first | (intro _) | split | rw [foldl_keep (fun s : State => s.gnss)] | rw [foldl_keep (fun x : List Edge × State => x.2.gnss)] | rw [onDown_keep (fun s : State => s.gnss)] | rw [onUp_keep (fun s : State => s.gnss)] | rw [orElse_keep (fun s : State => s.gnss)] | rw [guarded_keep (fun s : State => s.gnss)])
    all_goals first | rfl | (simp; done) | exact barrierArena_keep (fun s : State => s.gnss) _ _ _ _ (fun _ _ => rfl) ‹_›
  · unfold crossAct; (try dsimp only); repeat' (first | (intro _) | split | rw [foldl_keep (fun s : State => s.canA)] | rw [foldl_keep (fun x : List Edge × State => x.2.canA)] | rw [onDown_keep (fun s : State => s.canA)] | rw [onUp_keep (fun s : State => s.canA)] | rw [orElse_keep (fun s : State => s.canA)] | rw [guarded_keep (fun s : State => s.canA)])
    all_goals first | rfl | (simp; done) | exact barrierArena_keep (fun s : State => s.canA) _ _ _ _ (fun _ _ => rfl) ‹_›
  · unfold crossAct; (try dsimp only); repeat' (first | (intro _) | split | rw [foldl_keep (fun s : State => s.canB)] | rw [foldl_keep (fun x : List Edge × State => x.2.canB)] | rw [onDown_keep (fun s : State => s.canB)] | rw [onUp_keep (fun s : State => s.canB)] | rw [orElse_keep (fun s : State => s.canB)] | rw [guarded_keep (fun s : State => s.canB)])
    all_goals first | rfl | (simp; done) | exact barrierArena_keep (fun s : State => s.canB) _ _ _ _ (fun _ _ => rfl) ‹_›
  · unfold crossAct; (try dsimp only); repeat' (first | (intro _) | split | rw [foldl_keep (fun s : State => s.svc)] | rw [foldl_keep (fun x : List Edge × State => x.2.svc)] | rw [onDown_keep (fun s : State => s.svc)] | rw [onUp_keep (fun s : State => s.svc)] | rw [orElse_keep (fun s : State => s.svc)] | rw [guarded_keep (fun s : State => s.svc)])
    all_goals first | rfl | (simp; done) | exact barrierArena_keep (fun s : State => s.svc) _ _ _ _ (fun _ _ => rfl) ‹_›
  · unfold crossAct; (try dsimp only); repeat' (first | (intro _) | split | rw [foldl_keep (fun s : State => s.pwr)] | rw [foldl_keep (fun x : List Edge × State => x.2.pwr)] | rw [onDown_keep (fun s : State => s.pwr)] | rw [onUp_keep (fun s : State => s.pwr)] | rw [orElse_keep (fun s : State => s.pwr)] | rw [guarded_keep (fun s : State => s.pwr)])
    all_goals first | rfl | (simp; done) | exact barrierArena_keep (fun s : State => s.pwr) _ _ _ _ (fun _ _ => rfl) ‹_›
  · unfold crossAct; (try dsimp only); repeat' (first | (intro _) | split | rw [foldl_keep (fun s : State => s.sec)] | rw [foldl_keep (fun x : List Edge × State => x.2.sec)] | rw [onDown_keep (fun s : State => s.sec)] | rw [onUp_keep (fun s : State => s.sec)] | rw [orElse_keep (fun s : State => s.sec)] | rw [guarded_keep (fun s : State => s.sec)])
    all_goals first | rfl | (simp; done) | exact barrierArena_keep (fun s : State => s.sec) _ _ _ _ (fun _ _ => rfl) ‹_›
  · unfold crossAct; (try dsimp only); repeat' (first | (intro _) | split | rw [foldl_keep (fun s : State => s.fw)] | rw [foldl_keep (fun x : List Edge × State => x.2.fw)] | rw [onDown_keep (fun s : State => s.fw)] | rw [onUp_keep (fun s : State => s.fw)] | rw [orElse_keep (fun s : State => s.fw)] | rw [guarded_keep (fun s : State => s.fw)])
    all_goals first | rfl | (simp; done) | exact barrierArena_keep (fun s : State => s.fw) _ _ _ _ (fun _ _ => rfl) ‹_›
  · unfold crossAct; (try dsimp only); repeat' (first | (intro _) | split | rw [foldl_keep (fun s : State => s.ev)] | rw [foldl_keep (fun x : List Edge × State => x.2.ev)] | rw [onDown_keep (fun s : State => s.ev)] | rw [onUp_keep (fun s : State => s.ev)] | rw [orElse_keep (fun s : State => s.ev)] | rw [guarded_keep (fun s : State => s.ev)])
    all_goals first | rfl | (simp; done) | exact barrierArena_keep (fun s : State => s.ev) _ _ _ _ (fun _ _ => rfl) ‹_›
  · unfold crossAct; (try dsimp only); repeat' (first | (intro _) | split | rw [foldl_keep (fun s : State => s.sect)] | rw [foldl_keep (fun x : List Edge × State => x.2.sect)] | rw [onDown_keep (fun s : State => s.sect)] | rw [onUp_keep (fun s : State => s.sect)] | rw [orElse_keep (fun s : State => s.sect)] | rw [guarded_keep (fun s : State => s.sect)])
    all_goals first | rfl | (simp; done) | exact barrierArena_keep (fun s : State => s.sect) _ _ _ _ (fun _ _ => rfl) ‹_›
@[simp] theorem handOp_frame (q : Request) (s : State) :
    (handOp q s).pending = s.pending ∧ (handOp q s).free = s.free ∧ (handOp q s).id = s.id ∧ (handOp q s).modes =
    s.modes ∧ (handOp q s).regs = s.regs ∧ (handOp q s).clk = s.clk ∧ (handOp q s).chain = s.chain ∧ (handOp q
    s).pkt = s.pkt ∧ (handOp q s).out = s.out ∧ (handOp q s).sense = s.sense ∧ (handOp q s).loop = s.loop ∧ (handOp
    q s).gnss = s.gnss ∧ (handOp q s).canA = s.canA ∧ (handOp q s).canB = s.canB ∧ (handOp q s).svc = s.svc ∧
    (handOp q s).pwr = s.pwr ∧ (handOp q s).sec = s.sec ∧ (handOp q s).fw = s.fw ∧ (handOp q s).ev = s.ev ∧ (handOp
    q s).sect = s.sect := by
  simp [handOp]
@[simp] theorem sendCoefs_frame (q : Request) (cs : List CoefCell) (s : State) :
    (sendCoefs q cs s).pending = s.pending ∧ (sendCoefs q cs s).free = s.free ∧ (sendCoefs q cs s).id = s.id ∧
    (sendCoefs q cs s).modes = s.modes ∧ (sendCoefs q cs s).regs = s.regs ∧ (sendCoefs q cs s).clk = s.clk ∧
    (sendCoefs q cs s).chain = s.chain ∧ (sendCoefs q cs s).pkt = s.pkt ∧ (sendCoefs q cs s).out = s.out ∧
    (sendCoefs q cs s).sense = s.sense ∧ (sendCoefs q cs s).loop = s.loop ∧ (sendCoefs q cs s).gnss = s.gnss ∧
    (sendCoefs q cs s).canA = s.canA ∧ (sendCoefs q cs s).canB = s.canB ∧ (sendCoefs q cs s).svc = s.svc ∧
    (sendCoefs q cs s).pwr = s.pwr ∧ (sendCoefs q cs s).sec = s.sec ∧ (sendCoefs q cs s).fw = s.fw ∧ (sendCoefs q cs
    s).ev = s.ev ∧ (sendCoefs q cs s).sect = s.sect := by
  exact ⟨foldl_keep (fun p : List CoefSent × State => p.2.pending) _ (fun p n => by simp) _ _, foldl_keep (fun p : List
    CoefSent × State => p.2.free) _ (fun p n => by simp) _ _, foldl_keep (fun p : List CoefSent × State => p.2.id)
    _ (fun p n => by simp) _ _, foldl_keep (fun p : List CoefSent × State => p.2.modes) _ (fun p n => by simp) _
    _, foldl_keep (fun p : List CoefSent × State => p.2.regs) _ (fun p n => by simp) _ _, foldl_keep (fun p : List
    CoefSent × State => p.2.clk) _ (fun p n => by simp) _ _, foldl_keep (fun p : List CoefSent × State =>
    p.2.chain) _ (fun p n => by simp) _ _, foldl_keep (fun p : List CoefSent × State => p.2.pkt) _ (fun p n => by
    simp) _ _, foldl_keep (fun p : List CoefSent × State => p.2.out) _ (fun p n => by simp) _ _, foldl_keep (fun p
    : List CoefSent × State => p.2.sense) _ (fun p n => by simp) _ _, foldl_keep (fun p : List CoefSent × State =>
    p.2.loop) _ (fun p n => by simp) _ _, foldl_keep (fun p : List CoefSent × State => p.2.gnss) _ (fun p n => by
    simp) _ _, foldl_keep (fun p : List CoefSent × State => p.2.canA) _ (fun p n => by simp) _ _, foldl_keep (fun
    p : List CoefSent × State => p.2.canB) _ (fun p n => by simp) _ _, foldl_keep (fun p : List CoefSent × State
    => p.2.svc) _ (fun p n => by simp) _ _, foldl_keep (fun p : List CoefSent × State => p.2.pwr) _ (fun p n => by
    simp) _ _, foldl_keep (fun p : List CoefSent × State => p.2.sec) _ (fun p n => by simp) _ _, foldl_keep (fun p
    : List CoefSent × State => p.2.fw) _ (fun p n => by simp) _ _, foldl_keep (fun p : List CoefSent × State =>
    p.2.ev) _ (fun p n => by simp) _ _, foldl_keep (fun p : List CoefSent × State => p.2.sect) _ (fun p n => by
    simp) _ _⟩
@[simp] theorem loopCoefAct_frame (q : Request) (s : State) :
    (loopCoefAct q s).1.pending = s.pending ∧ (loopCoefAct q s).1.free = s.free ∧ (loopCoefAct q s).1.id = s.id ∧
    (loopCoefAct q s).1.modes = s.modes ∧ (loopCoefAct q s).1.regs = s.regs ∧ (loopCoefAct q s).1.clk = s.clk ∧
    (loopCoefAct q s).1.chain = s.chain ∧ (loopCoefAct q s).1.out = s.out ∧ (loopCoefAct q s).1.sense = s.sense ∧
    (loopCoefAct q s).1.loop = s.loop ∧ (loopCoefAct q s).1.gnss = s.gnss ∧ (loopCoefAct q s).1.canA = s.canA ∧
    (loopCoefAct q s).1.canB = s.canB ∧ (loopCoefAct q s).1.svc = s.svc ∧ (loopCoefAct q s).1.pwr = s.pwr ∧
    (loopCoefAct q s).1.sec = s.sec ∧ (loopCoefAct q s).1.fw = s.fw ∧ (loopCoefAct q s).1.ev = s.ev ∧ (loopCoefAct q
    s).1.sect = s.sect := by
  refine ⟨?_, ?_, ?_, ?_, ?_, ?_, ?_, ?_, ?_, ?_, ?_, ?_, ?_, ?_, ?_, ?_, ?_, ?_, ?_⟩
  · unfold loopCoefAct; (try dsimp only); repeat' (first | (intro _) | split | rw [foldl_keep (fun s : State => s.pending)] | rw [foldl_keep (fun x : List Edge × State => x.2.pending)] | rw [onDown_keep (fun s : State => s.pending)] | rw [onUp_keep (fun s : State => s.pending)] | rw [orElse_keep (fun s : State => s.pending)] | rw [guarded_keep (fun s : State => s.pending)])
    all_goals first | rfl | (simp; done) | exact barrierArena_keep (fun s : State => s.pending) _ _ _ _ (fun _ _ => rfl) ‹_›
  · unfold loopCoefAct; (try dsimp only); repeat' (first | (intro _) | split | rw [foldl_keep (fun s : State => s.free)] | rw [foldl_keep (fun x : List Edge × State => x.2.free)] | rw [onDown_keep (fun s : State => s.free)] | rw [onUp_keep (fun s : State => s.free)] | rw [orElse_keep (fun s : State => s.free)] | rw [guarded_keep (fun s : State => s.free)])
    all_goals first | rfl | (simp; done) | exact barrierArena_keep (fun s : State => s.free) _ _ _ _ (fun _ _ => rfl) ‹_›
  · unfold loopCoefAct; (try dsimp only); repeat' (first | (intro _) | split | rw [foldl_keep (fun s : State => s.id)] | rw [foldl_keep (fun x : List Edge × State => x.2.id)] | rw [onDown_keep (fun s : State => s.id)] | rw [onUp_keep (fun s : State => s.id)] | rw [orElse_keep (fun s : State => s.id)] | rw [guarded_keep (fun s : State => s.id)])
    all_goals first | rfl | (simp; done) | exact barrierArena_keep (fun s : State => s.id) _ _ _ _ (fun _ _ => rfl) ‹_›
  · unfold loopCoefAct; (try dsimp only); repeat' (first | (intro _) | split | rw [foldl_keep (fun s : State => s.modes)] | rw [foldl_keep (fun x : List Edge × State => x.2.modes)] | rw [onDown_keep (fun s : State => s.modes)] | rw [onUp_keep (fun s : State => s.modes)] | rw [orElse_keep (fun s : State => s.modes)] | rw [guarded_keep (fun s : State => s.modes)])
    all_goals first | rfl | (simp; done) | exact barrierArena_keep (fun s : State => s.modes) _ _ _ _ (fun _ _ => rfl) ‹_›
  · unfold loopCoefAct; (try dsimp only); repeat' (first | (intro _) | split | rw [foldl_keep (fun s : State => s.regs)] | rw [foldl_keep (fun x : List Edge × State => x.2.regs)] | rw [onDown_keep (fun s : State => s.regs)] | rw [onUp_keep (fun s : State => s.regs)] | rw [orElse_keep (fun s : State => s.regs)] | rw [guarded_keep (fun s : State => s.regs)])
    all_goals first | rfl | (simp; done) | exact barrierArena_keep (fun s : State => s.regs) _ _ _ _ (fun _ _ => rfl) ‹_›
  · unfold loopCoefAct; (try dsimp only); repeat' (first | (intro _) | split | rw [foldl_keep (fun s : State => s.clk)] | rw [foldl_keep (fun x : List Edge × State => x.2.clk)] | rw [onDown_keep (fun s : State => s.clk)] | rw [onUp_keep (fun s : State => s.clk)] | rw [orElse_keep (fun s : State => s.clk)] | rw [guarded_keep (fun s : State => s.clk)])
    all_goals first | rfl | (simp; done) | exact barrierArena_keep (fun s : State => s.clk) _ _ _ _ (fun _ _ => rfl) ‹_›
  · unfold loopCoefAct; (try dsimp only); repeat' (first | (intro _) | split | rw [foldl_keep (fun s : State => s.chain)] | rw [foldl_keep (fun x : List Edge × State => x.2.chain)] | rw [onDown_keep (fun s : State => s.chain)] | rw [onUp_keep (fun s : State => s.chain)] | rw [orElse_keep (fun s : State => s.chain)] | rw [guarded_keep (fun s : State => s.chain)])
    all_goals first | rfl | (simp; done) | exact barrierArena_keep (fun s : State => s.chain) _ _ _ _ (fun _ _ => rfl) ‹_›
  · unfold loopCoefAct; (try dsimp only); repeat' (first | (intro _) | split | rw [foldl_keep (fun s : State => s.out)] | rw [foldl_keep (fun x : List Edge × State => x.2.out)] | rw [onDown_keep (fun s : State => s.out)] | rw [onUp_keep (fun s : State => s.out)] | rw [orElse_keep (fun s : State => s.out)] | rw [guarded_keep (fun s : State => s.out)])
    all_goals first | rfl | (simp; done) | exact barrierArena_keep (fun s : State => s.out) _ _ _ _ (fun _ _ => rfl) ‹_›
  · unfold loopCoefAct; (try dsimp only); repeat' (first | (intro _) | split | rw [foldl_keep (fun s : State => s.sense)] | rw [foldl_keep (fun x : List Edge × State => x.2.sense)] | rw [onDown_keep (fun s : State => s.sense)] | rw [onUp_keep (fun s : State => s.sense)] | rw [orElse_keep (fun s : State => s.sense)] | rw [guarded_keep (fun s : State => s.sense)])
    all_goals first | rfl | (simp; done) | exact barrierArena_keep (fun s : State => s.sense) _ _ _ _ (fun _ _ => rfl) ‹_›
  · unfold loopCoefAct; (try dsimp only); repeat' (first | (intro _) | split | rw [foldl_keep (fun s : State => s.loop)] | rw [foldl_keep (fun x : List Edge × State => x.2.loop)] | rw [onDown_keep (fun s : State => s.loop)] | rw [onUp_keep (fun s : State => s.loop)] | rw [orElse_keep (fun s : State => s.loop)] | rw [guarded_keep (fun s : State => s.loop)])
    all_goals first | rfl | (simp; done) | exact barrierArena_keep (fun s : State => s.loop) _ _ _ _ (fun _ _ => rfl) ‹_›
  · unfold loopCoefAct; (try dsimp only); repeat' (first | (intro _) | split | rw [foldl_keep (fun s : State => s.gnss)] | rw [foldl_keep (fun x : List Edge × State => x.2.gnss)] | rw [onDown_keep (fun s : State => s.gnss)] | rw [onUp_keep (fun s : State => s.gnss)] | rw [orElse_keep (fun s : State => s.gnss)] | rw [guarded_keep (fun s : State => s.gnss)])
    all_goals first | rfl | (simp; done) | exact barrierArena_keep (fun s : State => s.gnss) _ _ _ _ (fun _ _ => rfl) ‹_›
  · unfold loopCoefAct; (try dsimp only); repeat' (first | (intro _) | split | rw [foldl_keep (fun s : State => s.canA)] | rw [foldl_keep (fun x : List Edge × State => x.2.canA)] | rw [onDown_keep (fun s : State => s.canA)] | rw [onUp_keep (fun s : State => s.canA)] | rw [orElse_keep (fun s : State => s.canA)] | rw [guarded_keep (fun s : State => s.canA)])
    all_goals first | rfl | (simp; done) | exact barrierArena_keep (fun s : State => s.canA) _ _ _ _ (fun _ _ => rfl) ‹_›
  · unfold loopCoefAct; (try dsimp only); repeat' (first | (intro _) | split | rw [foldl_keep (fun s : State => s.canB)] | rw [foldl_keep (fun x : List Edge × State => x.2.canB)] | rw [onDown_keep (fun s : State => s.canB)] | rw [onUp_keep (fun s : State => s.canB)] | rw [orElse_keep (fun s : State => s.canB)] | rw [guarded_keep (fun s : State => s.canB)])
    all_goals first | rfl | (simp; done) | exact barrierArena_keep (fun s : State => s.canB) _ _ _ _ (fun _ _ => rfl) ‹_›
  · unfold loopCoefAct; (try dsimp only); repeat' (first | (intro _) | split | rw [foldl_keep (fun s : State => s.svc)] | rw [foldl_keep (fun x : List Edge × State => x.2.svc)] | rw [onDown_keep (fun s : State => s.svc)] | rw [onUp_keep (fun s : State => s.svc)] | rw [orElse_keep (fun s : State => s.svc)] | rw [guarded_keep (fun s : State => s.svc)])
    all_goals first | rfl | (simp; done) | exact barrierArena_keep (fun s : State => s.svc) _ _ _ _ (fun _ _ => rfl) ‹_›
  · unfold loopCoefAct; (try dsimp only); repeat' (first | (intro _) | split | rw [foldl_keep (fun s : State => s.pwr)] | rw [foldl_keep (fun x : List Edge × State => x.2.pwr)] | rw [onDown_keep (fun s : State => s.pwr)] | rw [onUp_keep (fun s : State => s.pwr)] | rw [orElse_keep (fun s : State => s.pwr)] | rw [guarded_keep (fun s : State => s.pwr)])
    all_goals first | rfl | (simp; done) | exact barrierArena_keep (fun s : State => s.pwr) _ _ _ _ (fun _ _ => rfl) ‹_›
  · unfold loopCoefAct; (try dsimp only); repeat' (first | (intro _) | split | rw [foldl_keep (fun s : State => s.sec)] | rw [foldl_keep (fun x : List Edge × State => x.2.sec)] | rw [onDown_keep (fun s : State => s.sec)] | rw [onUp_keep (fun s : State => s.sec)] | rw [orElse_keep (fun s : State => s.sec)] | rw [guarded_keep (fun s : State => s.sec)])
    all_goals first | rfl | (simp; done) | exact barrierArena_keep (fun s : State => s.sec) _ _ _ _ (fun _ _ => rfl) ‹_›
  · unfold loopCoefAct; (try dsimp only); repeat' (first | (intro _) | split | rw [foldl_keep (fun s : State => s.fw)] | rw [foldl_keep (fun x : List Edge × State => x.2.fw)] | rw [onDown_keep (fun s : State => s.fw)] | rw [onUp_keep (fun s : State => s.fw)] | rw [orElse_keep (fun s : State => s.fw)] | rw [guarded_keep (fun s : State => s.fw)])
    all_goals first | rfl | (simp; done) | exact barrierArena_keep (fun s : State => s.fw) _ _ _ _ (fun _ _ => rfl) ‹_›
  · unfold loopCoefAct; (try dsimp only); repeat' (first | (intro _) | split | rw [foldl_keep (fun s : State => s.ev)] | rw [foldl_keep (fun x : List Edge × State => x.2.ev)] | rw [onDown_keep (fun s : State => s.ev)] | rw [onUp_keep (fun s : State => s.ev)] | rw [orElse_keep (fun s : State => s.ev)] | rw [guarded_keep (fun s : State => s.ev)])
    all_goals first | rfl | (simp; done) | exact barrierArena_keep (fun s : State => s.ev) _ _ _ _ (fun _ _ => rfl) ‹_›
  · unfold loopCoefAct; (try dsimp only); repeat' (first | (intro _) | split | rw [foldl_keep (fun s : State => s.sect)] | rw [foldl_keep (fun x : List Edge × State => x.2.sect)] | rw [onDown_keep (fun s : State => s.sect)] | rw [onUp_keep (fun s : State => s.sect)] | rw [orElse_keep (fun s : State => s.sect)] | rw [guarded_keep (fun s : State => s.sect)])
    all_goals first | rfl | (simp; done) | exact barrierArena_keep (fun s : State => s.sect) _ _ _ _ (fun _ _ => rfl) ‹_›
@[simp] theorem loopSwapReq_frame (q : Request) (s : State) :
    (loopSwapReq q s).1.pending = s.pending ∧ (loopSwapReq q s).1.free = s.free ∧ (loopSwapReq q s).1.id = s.id ∧
    (loopSwapReq q s).1.modes = s.modes ∧ (loopSwapReq q s).1.regs = s.regs ∧ (loopSwapReq q s).1.clk = s.clk ∧
    (loopSwapReq q s).1.chain = s.chain ∧ (loopSwapReq q s).1.out = s.out ∧ (loopSwapReq q s).1.sense = s.sense ∧
    (loopSwapReq q s).1.loop = s.loop ∧ (loopSwapReq q s).1.gnss = s.gnss ∧ (loopSwapReq q s).1.canA = s.canA ∧
    (loopSwapReq q s).1.canB = s.canB ∧ (loopSwapReq q s).1.svc = s.svc ∧ (loopSwapReq q s).1.pwr = s.pwr ∧
    (loopSwapReq q s).1.sec = s.sec ∧ (loopSwapReq q s).1.fw = s.fw ∧ (loopSwapReq q s).1.ev = s.ev ∧ (loopSwapReq q
    s).1.sect = s.sect := by
  refine ⟨?_, ?_, ?_, ?_, ?_, ?_, ?_, ?_, ?_, ?_, ?_, ?_, ?_, ?_, ?_, ?_, ?_, ?_, ?_⟩
  · unfold loopSwapReq; (try dsimp only); repeat' (first | (intro _) | split | rw [foldl_keep (fun s : State => s.pending)] | rw [foldl_keep (fun x : List Edge × State => x.2.pending)] | rw [onDown_keep (fun s : State => s.pending)] | rw [onUp_keep (fun s : State => s.pending)] | rw [orElse_keep (fun s : State => s.pending)] | rw [guarded_keep (fun s : State => s.pending)])
    all_goals first | rfl | (simp; done) | exact barrierArena_keep (fun s : State => s.pending) _ _ _ _ (fun _ _ => rfl) ‹_›
  · unfold loopSwapReq; (try dsimp only); repeat' (first | (intro _) | split | rw [foldl_keep (fun s : State => s.free)] | rw [foldl_keep (fun x : List Edge × State => x.2.free)] | rw [onDown_keep (fun s : State => s.free)] | rw [onUp_keep (fun s : State => s.free)] | rw [orElse_keep (fun s : State => s.free)] | rw [guarded_keep (fun s : State => s.free)])
    all_goals first | rfl | (simp; done) | exact barrierArena_keep (fun s : State => s.free) _ _ _ _ (fun _ _ => rfl) ‹_›
  · unfold loopSwapReq; (try dsimp only); repeat' (first | (intro _) | split | rw [foldl_keep (fun s : State => s.id)] | rw [foldl_keep (fun x : List Edge × State => x.2.id)] | rw [onDown_keep (fun s : State => s.id)] | rw [onUp_keep (fun s : State => s.id)] | rw [orElse_keep (fun s : State => s.id)] | rw [guarded_keep (fun s : State => s.id)])
    all_goals first | rfl | (simp; done) | exact barrierArena_keep (fun s : State => s.id) _ _ _ _ (fun _ _ => rfl) ‹_›
  · unfold loopSwapReq; (try dsimp only); repeat' (first | (intro _) | split | rw [foldl_keep (fun s : State => s.modes)] | rw [foldl_keep (fun x : List Edge × State => x.2.modes)] | rw [onDown_keep (fun s : State => s.modes)] | rw [onUp_keep (fun s : State => s.modes)] | rw [orElse_keep (fun s : State => s.modes)] | rw [guarded_keep (fun s : State => s.modes)])
    all_goals first | rfl | (simp; done) | exact barrierArena_keep (fun s : State => s.modes) _ _ _ _ (fun _ _ => rfl) ‹_›
  · unfold loopSwapReq; (try dsimp only); repeat' (first | (intro _) | split | rw [foldl_keep (fun s : State => s.regs)] | rw [foldl_keep (fun x : List Edge × State => x.2.regs)] | rw [onDown_keep (fun s : State => s.regs)] | rw [onUp_keep (fun s : State => s.regs)] | rw [orElse_keep (fun s : State => s.regs)] | rw [guarded_keep (fun s : State => s.regs)])
    all_goals first | rfl | (simp; done) | exact barrierArena_keep (fun s : State => s.regs) _ _ _ _ (fun _ _ => rfl) ‹_›
  · unfold loopSwapReq; (try dsimp only); repeat' (first | (intro _) | split | rw [foldl_keep (fun s : State => s.clk)] | rw [foldl_keep (fun x : List Edge × State => x.2.clk)] | rw [onDown_keep (fun s : State => s.clk)] | rw [onUp_keep (fun s : State => s.clk)] | rw [orElse_keep (fun s : State => s.clk)] | rw [guarded_keep (fun s : State => s.clk)])
    all_goals first | rfl | (simp; done) | exact barrierArena_keep (fun s : State => s.clk) _ _ _ _ (fun _ _ => rfl) ‹_›
  · unfold loopSwapReq; (try dsimp only); repeat' (first | (intro _) | split | rw [foldl_keep (fun s : State => s.chain)] | rw [foldl_keep (fun x : List Edge × State => x.2.chain)] | rw [onDown_keep (fun s : State => s.chain)] | rw [onUp_keep (fun s : State => s.chain)] | rw [orElse_keep (fun s : State => s.chain)] | rw [guarded_keep (fun s : State => s.chain)])
    all_goals first | rfl | (simp; done) | exact barrierArena_keep (fun s : State => s.chain) _ _ _ _ (fun _ _ => rfl) ‹_›
  · unfold loopSwapReq; (try dsimp only); repeat' (first | (intro _) | split | rw [foldl_keep (fun s : State => s.out)] | rw [foldl_keep (fun x : List Edge × State => x.2.out)] | rw [onDown_keep (fun s : State => s.out)] | rw [onUp_keep (fun s : State => s.out)] | rw [orElse_keep (fun s : State => s.out)] | rw [guarded_keep (fun s : State => s.out)])
    all_goals first | rfl | (simp; done) | exact barrierArena_keep (fun s : State => s.out) _ _ _ _ (fun _ _ => rfl) ‹_›
  · unfold loopSwapReq; (try dsimp only); repeat' (first | (intro _) | split | rw [foldl_keep (fun s : State => s.sense)] | rw [foldl_keep (fun x : List Edge × State => x.2.sense)] | rw [onDown_keep (fun s : State => s.sense)] | rw [onUp_keep (fun s : State => s.sense)] | rw [orElse_keep (fun s : State => s.sense)] | rw [guarded_keep (fun s : State => s.sense)])
    all_goals first | rfl | (simp; done) | exact barrierArena_keep (fun s : State => s.sense) _ _ _ _ (fun _ _ => rfl) ‹_›
  · unfold loopSwapReq; (try dsimp only); repeat' (first | (intro _) | split | rw [foldl_keep (fun s : State => s.loop)] | rw [foldl_keep (fun x : List Edge × State => x.2.loop)] | rw [onDown_keep (fun s : State => s.loop)] | rw [onUp_keep (fun s : State => s.loop)] | rw [orElse_keep (fun s : State => s.loop)] | rw [guarded_keep (fun s : State => s.loop)])
    all_goals first | rfl | (simp; done) | exact barrierArena_keep (fun s : State => s.loop) _ _ _ _ (fun _ _ => rfl) ‹_›
  · unfold loopSwapReq; (try dsimp only); repeat' (first | (intro _) | split | rw [foldl_keep (fun s : State => s.gnss)] | rw [foldl_keep (fun x : List Edge × State => x.2.gnss)] | rw [onDown_keep (fun s : State => s.gnss)] | rw [onUp_keep (fun s : State => s.gnss)] | rw [orElse_keep (fun s : State => s.gnss)] | rw [guarded_keep (fun s : State => s.gnss)])
    all_goals first | rfl | (simp; done) | exact barrierArena_keep (fun s : State => s.gnss) _ _ _ _ (fun _ _ => rfl) ‹_›
  · unfold loopSwapReq; (try dsimp only); repeat' (first | (intro _) | split | rw [foldl_keep (fun s : State => s.canA)] | rw [foldl_keep (fun x : List Edge × State => x.2.canA)] | rw [onDown_keep (fun s : State => s.canA)] | rw [onUp_keep (fun s : State => s.canA)] | rw [orElse_keep (fun s : State => s.canA)] | rw [guarded_keep (fun s : State => s.canA)])
    all_goals first | rfl | (simp; done) | exact barrierArena_keep (fun s : State => s.canA) _ _ _ _ (fun _ _ => rfl) ‹_›
  · unfold loopSwapReq; (try dsimp only); repeat' (first | (intro _) | split | rw [foldl_keep (fun s : State => s.canB)] | rw [foldl_keep (fun x : List Edge × State => x.2.canB)] | rw [onDown_keep (fun s : State => s.canB)] | rw [onUp_keep (fun s : State => s.canB)] | rw [orElse_keep (fun s : State => s.canB)] | rw [guarded_keep (fun s : State => s.canB)])
    all_goals first | rfl | (simp; done) | exact barrierArena_keep (fun s : State => s.canB) _ _ _ _ (fun _ _ => rfl) ‹_›
  · unfold loopSwapReq; (try dsimp only); repeat' (first | (intro _) | split | rw [foldl_keep (fun s : State => s.svc)] | rw [foldl_keep (fun x : List Edge × State => x.2.svc)] | rw [onDown_keep (fun s : State => s.svc)] | rw [onUp_keep (fun s : State => s.svc)] | rw [orElse_keep (fun s : State => s.svc)] | rw [guarded_keep (fun s : State => s.svc)])
    all_goals first | rfl | (simp; done) | exact barrierArena_keep (fun s : State => s.svc) _ _ _ _ (fun _ _ => rfl) ‹_›
  · unfold loopSwapReq; (try dsimp only); repeat' (first | (intro _) | split | rw [foldl_keep (fun s : State => s.pwr)] | rw [foldl_keep (fun x : List Edge × State => x.2.pwr)] | rw [onDown_keep (fun s : State => s.pwr)] | rw [onUp_keep (fun s : State => s.pwr)] | rw [orElse_keep (fun s : State => s.pwr)] | rw [guarded_keep (fun s : State => s.pwr)])
    all_goals first | rfl | (simp; done) | exact barrierArena_keep (fun s : State => s.pwr) _ _ _ _ (fun _ _ => rfl) ‹_›
  · unfold loopSwapReq; (try dsimp only); repeat' (first | (intro _) | split | rw [foldl_keep (fun s : State => s.sec)] | rw [foldl_keep (fun x : List Edge × State => x.2.sec)] | rw [onDown_keep (fun s : State => s.sec)] | rw [onUp_keep (fun s : State => s.sec)] | rw [orElse_keep (fun s : State => s.sec)] | rw [guarded_keep (fun s : State => s.sec)])
    all_goals first | rfl | (simp; done) | exact barrierArena_keep (fun s : State => s.sec) _ _ _ _ (fun _ _ => rfl) ‹_›
  · unfold loopSwapReq; (try dsimp only); repeat' (first | (intro _) | split | rw [foldl_keep (fun s : State => s.fw)] | rw [foldl_keep (fun x : List Edge × State => x.2.fw)] | rw [onDown_keep (fun s : State => s.fw)] | rw [onUp_keep (fun s : State => s.fw)] | rw [orElse_keep (fun s : State => s.fw)] | rw [guarded_keep (fun s : State => s.fw)])
    all_goals first | rfl | (simp; done) | exact barrierArena_keep (fun s : State => s.fw) _ _ _ _ (fun _ _ => rfl) ‹_›
  · unfold loopSwapReq; (try dsimp only); repeat' (first | (intro _) | split | rw [foldl_keep (fun s : State => s.ev)] | rw [foldl_keep (fun x : List Edge × State => x.2.ev)] | rw [onDown_keep (fun s : State => s.ev)] | rw [onUp_keep (fun s : State => s.ev)] | rw [orElse_keep (fun s : State => s.ev)] | rw [guarded_keep (fun s : State => s.ev)])
    all_goals first | rfl | (simp; done) | exact barrierArena_keep (fun s : State => s.ev) _ _ _ _ (fun _ _ => rfl) ‹_›
  · unfold loopSwapReq; (try dsimp only); repeat' (first | (intro _) | split | rw [foldl_keep (fun s : State => s.sect)] | rw [foldl_keep (fun x : List Edge × State => x.2.sect)] | rw [onDown_keep (fun s : State => s.sect)] | rw [onUp_keep (fun s : State => s.sect)] | rw [orElse_keep (fun s : State => s.sect)] | rw [guarded_keep (fun s : State => s.sect)])
    all_goals first | rfl | (simp; done) | exact barrierArena_keep (fun s : State => s.sect) _ _ _ _ (fun _ _ => rfl) ‹_›
@[simp] theorem loopCtrlAct_frame (q : Request) (s : State) :
    (loopCtrlAct q s).1.pending = s.pending ∧ (loopCtrlAct q s).1.free = s.free ∧ (loopCtrlAct q s).1.id = s.id ∧
    (loopCtrlAct q s).1.modes = s.modes ∧ (loopCtrlAct q s).1.regs = s.regs ∧ (loopCtrlAct q s).1.clk = s.clk ∧
    (loopCtrlAct q s).1.chain = s.chain ∧ (loopCtrlAct q s).1.out = s.out ∧ (loopCtrlAct q s).1.sense = s.sense ∧
    (loopCtrlAct q s).1.loop = s.loop ∧ (loopCtrlAct q s).1.gnss = s.gnss ∧ (loopCtrlAct q s).1.canA = s.canA ∧
    (loopCtrlAct q s).1.canB = s.canB ∧ (loopCtrlAct q s).1.svc = s.svc ∧ (loopCtrlAct q s).1.pwr = s.pwr ∧
    (loopCtrlAct q s).1.sec = s.sec ∧ (loopCtrlAct q s).1.fw = s.fw ∧ (loopCtrlAct q s).1.ev = s.ev ∧ (loopCtrlAct q
    s).1.sect = s.sect := by
  refine ⟨?_, ?_, ?_, ?_, ?_, ?_, ?_, ?_, ?_, ?_, ?_, ?_, ?_, ?_, ?_, ?_, ?_, ?_, ?_⟩
  · unfold loopCtrlAct; (try dsimp only); repeat' (first | (intro _) | split | rw [foldl_keep (fun s : State => s.pending)] | rw [foldl_keep (fun x : List Edge × State => x.2.pending)] | rw [onDown_keep (fun s : State => s.pending)] | rw [onUp_keep (fun s : State => s.pending)] | rw [orElse_keep (fun s : State => s.pending)] | rw [guarded_keep (fun s : State => s.pending)])
    all_goals first | rfl | (simp; done) | exact barrierArena_keep (fun s : State => s.pending) _ _ _ _ (fun _ _ => rfl) ‹_›
  · unfold loopCtrlAct; (try dsimp only); repeat' (first | (intro _) | split | rw [foldl_keep (fun s : State => s.free)] | rw [foldl_keep (fun x : List Edge × State => x.2.free)] | rw [onDown_keep (fun s : State => s.free)] | rw [onUp_keep (fun s : State => s.free)] | rw [orElse_keep (fun s : State => s.free)] | rw [guarded_keep (fun s : State => s.free)])
    all_goals first | rfl | (simp; done) | exact barrierArena_keep (fun s : State => s.free) _ _ _ _ (fun _ _ => rfl) ‹_›
  · unfold loopCtrlAct; (try dsimp only); repeat' (first | (intro _) | split | rw [foldl_keep (fun s : State => s.id)] | rw [foldl_keep (fun x : List Edge × State => x.2.id)] | rw [onDown_keep (fun s : State => s.id)] | rw [onUp_keep (fun s : State => s.id)] | rw [orElse_keep (fun s : State => s.id)] | rw [guarded_keep (fun s : State => s.id)])
    all_goals first | rfl | (simp; done) | exact barrierArena_keep (fun s : State => s.id) _ _ _ _ (fun _ _ => rfl) ‹_›
  · unfold loopCtrlAct; (try dsimp only); repeat' (first | (intro _) | split | rw [foldl_keep (fun s : State => s.modes)] | rw [foldl_keep (fun x : List Edge × State => x.2.modes)] | rw [onDown_keep (fun s : State => s.modes)] | rw [onUp_keep (fun s : State => s.modes)] | rw [orElse_keep (fun s : State => s.modes)] | rw [guarded_keep (fun s : State => s.modes)])
    all_goals first | rfl | (simp; done) | exact barrierArena_keep (fun s : State => s.modes) _ _ _ _ (fun _ _ => rfl) ‹_›
  · unfold loopCtrlAct; (try dsimp only); repeat' (first | (intro _) | split | rw [foldl_keep (fun s : State => s.regs)] | rw [foldl_keep (fun x : List Edge × State => x.2.regs)] | rw [onDown_keep (fun s : State => s.regs)] | rw [onUp_keep (fun s : State => s.regs)] | rw [orElse_keep (fun s : State => s.regs)] | rw [guarded_keep (fun s : State => s.regs)])
    all_goals first | rfl | (simp; done) | exact barrierArena_keep (fun s : State => s.regs) _ _ _ _ (fun _ _ => rfl) ‹_›
  · unfold loopCtrlAct; (try dsimp only); repeat' (first | (intro _) | split | rw [foldl_keep (fun s : State => s.clk)] | rw [foldl_keep (fun x : List Edge × State => x.2.clk)] | rw [onDown_keep (fun s : State => s.clk)] | rw [onUp_keep (fun s : State => s.clk)] | rw [orElse_keep (fun s : State => s.clk)] | rw [guarded_keep (fun s : State => s.clk)])
    all_goals first | rfl | (simp; done) | exact barrierArena_keep (fun s : State => s.clk) _ _ _ _ (fun _ _ => rfl) ‹_›
  · unfold loopCtrlAct; (try dsimp only); repeat' (first | (intro _) | split | rw [foldl_keep (fun s : State => s.chain)] | rw [foldl_keep (fun x : List Edge × State => x.2.chain)] | rw [onDown_keep (fun s : State => s.chain)] | rw [onUp_keep (fun s : State => s.chain)] | rw [orElse_keep (fun s : State => s.chain)] | rw [guarded_keep (fun s : State => s.chain)])
    all_goals first | rfl | (simp; done) | exact barrierArena_keep (fun s : State => s.chain) _ _ _ _ (fun _ _ => rfl) ‹_›
  · unfold loopCtrlAct; (try dsimp only); repeat' (first | (intro _) | split | rw [foldl_keep (fun s : State => s.out)] | rw [foldl_keep (fun x : List Edge × State => x.2.out)] | rw [onDown_keep (fun s : State => s.out)] | rw [onUp_keep (fun s : State => s.out)] | rw [orElse_keep (fun s : State => s.out)] | rw [guarded_keep (fun s : State => s.out)])
    all_goals first | rfl | (simp; done) | exact barrierArena_keep (fun s : State => s.out) _ _ _ _ (fun _ _ => rfl) ‹_›
  · unfold loopCtrlAct; (try dsimp only); repeat' (first | (intro _) | split | rw [foldl_keep (fun s : State => s.sense)] | rw [foldl_keep (fun x : List Edge × State => x.2.sense)] | rw [onDown_keep (fun s : State => s.sense)] | rw [onUp_keep (fun s : State => s.sense)] | rw [orElse_keep (fun s : State => s.sense)] | rw [guarded_keep (fun s : State => s.sense)])
    all_goals first | rfl | (simp; done) | exact barrierArena_keep (fun s : State => s.sense) _ _ _ _ (fun _ _ => rfl) ‹_›
  · unfold loopCtrlAct; (try dsimp only); repeat' (first | (intro _) | split | rw [foldl_keep (fun s : State => s.loop)] | rw [foldl_keep (fun x : List Edge × State => x.2.loop)] | rw [onDown_keep (fun s : State => s.loop)] | rw [onUp_keep (fun s : State => s.loop)] | rw [orElse_keep (fun s : State => s.loop)] | rw [guarded_keep (fun s : State => s.loop)])
    all_goals first | rfl | (simp; done) | exact barrierArena_keep (fun s : State => s.loop) _ _ _ _ (fun _ _ => rfl) ‹_›
  · unfold loopCtrlAct; (try dsimp only); repeat' (first | (intro _) | split | rw [foldl_keep (fun s : State => s.gnss)] | rw [foldl_keep (fun x : List Edge × State => x.2.gnss)] | rw [onDown_keep (fun s : State => s.gnss)] | rw [onUp_keep (fun s : State => s.gnss)] | rw [orElse_keep (fun s : State => s.gnss)] | rw [guarded_keep (fun s : State => s.gnss)])
    all_goals first | rfl | (simp; done) | exact barrierArena_keep (fun s : State => s.gnss) _ _ _ _ (fun _ _ => rfl) ‹_›
  · unfold loopCtrlAct; (try dsimp only); repeat' (first | (intro _) | split | rw [foldl_keep (fun s : State => s.canA)] | rw [foldl_keep (fun x : List Edge × State => x.2.canA)] | rw [onDown_keep (fun s : State => s.canA)] | rw [onUp_keep (fun s : State => s.canA)] | rw [orElse_keep (fun s : State => s.canA)] | rw [guarded_keep (fun s : State => s.canA)])
    all_goals first | rfl | (simp; done) | exact barrierArena_keep (fun s : State => s.canA) _ _ _ _ (fun _ _ => rfl) ‹_›
  · unfold loopCtrlAct; (try dsimp only); repeat' (first | (intro _) | split | rw [foldl_keep (fun s : State => s.canB)] | rw [foldl_keep (fun x : List Edge × State => x.2.canB)] | rw [onDown_keep (fun s : State => s.canB)] | rw [onUp_keep (fun s : State => s.canB)] | rw [orElse_keep (fun s : State => s.canB)] | rw [guarded_keep (fun s : State => s.canB)])
    all_goals first | rfl | (simp; done) | exact barrierArena_keep (fun s : State => s.canB) _ _ _ _ (fun _ _ => rfl) ‹_›
  · unfold loopCtrlAct; (try dsimp only); repeat' (first | (intro _) | split | rw [foldl_keep (fun s : State => s.svc)] | rw [foldl_keep (fun x : List Edge × State => x.2.svc)] | rw [onDown_keep (fun s : State => s.svc)] | rw [onUp_keep (fun s : State => s.svc)] | rw [orElse_keep (fun s : State => s.svc)] | rw [guarded_keep (fun s : State => s.svc)])
    all_goals first | rfl | (simp; done) | exact barrierArena_keep (fun s : State => s.svc) _ _ _ _ (fun _ _ => rfl) ‹_›
  · unfold loopCtrlAct; (try dsimp only); repeat' (first | (intro _) | split | rw [foldl_keep (fun s : State => s.pwr)] | rw [foldl_keep (fun x : List Edge × State => x.2.pwr)] | rw [onDown_keep (fun s : State => s.pwr)] | rw [onUp_keep (fun s : State => s.pwr)] | rw [orElse_keep (fun s : State => s.pwr)] | rw [guarded_keep (fun s : State => s.pwr)])
    all_goals first | rfl | (simp; done) | exact barrierArena_keep (fun s : State => s.pwr) _ _ _ _ (fun _ _ => rfl) ‹_›
  · unfold loopCtrlAct; (try dsimp only); repeat' (first | (intro _) | split | rw [foldl_keep (fun s : State => s.sec)] | rw [foldl_keep (fun x : List Edge × State => x.2.sec)] | rw [onDown_keep (fun s : State => s.sec)] | rw [onUp_keep (fun s : State => s.sec)] | rw [orElse_keep (fun s : State => s.sec)] | rw [guarded_keep (fun s : State => s.sec)])
    all_goals first | rfl | (simp; done) | exact barrierArena_keep (fun s : State => s.sec) _ _ _ _ (fun _ _ => rfl) ‹_›
  · unfold loopCtrlAct; (try dsimp only); repeat' (first | (intro _) | split | rw [foldl_keep (fun s : State => s.fw)] | rw [foldl_keep (fun x : List Edge × State => x.2.fw)] | rw [onDown_keep (fun s : State => s.fw)] | rw [onUp_keep (fun s : State => s.fw)] | rw [orElse_keep (fun s : State => s.fw)] | rw [guarded_keep (fun s : State => s.fw)])
    all_goals first | rfl | (simp; done) | exact barrierArena_keep (fun s : State => s.fw) _ _ _ _ (fun _ _ => rfl) ‹_›
  · unfold loopCtrlAct; (try dsimp only); repeat' (first | (intro _) | split | rw [foldl_keep (fun s : State => s.ev)] | rw [foldl_keep (fun x : List Edge × State => x.2.ev)] | rw [onDown_keep (fun s : State => s.ev)] | rw [onUp_keep (fun s : State => s.ev)] | rw [orElse_keep (fun s : State => s.ev)] | rw [guarded_keep (fun s : State => s.ev)])
    all_goals first | rfl | (simp; done) | exact barrierArena_keep (fun s : State => s.ev) _ _ _ _ (fun _ _ => rfl) ‹_›
  · unfold loopCtrlAct; (try dsimp only); repeat' (first | (intro _) | split | rw [foldl_keep (fun s : State => s.sect)] | rw [foldl_keep (fun x : List Edge × State => x.2.sect)] | rw [onDown_keep (fun s : State => s.sect)] | rw [onUp_keep (fun s : State => s.sect)] | rw [orElse_keep (fun s : State => s.sect)] | rw [guarded_keep (fun s : State => s.sect)])
    all_goals first | rfl | (simp; done) | exact barrierArena_keep (fun s : State => s.sect) _ _ _ _ (fun _ _ => rfl) ‹_›
@[simp] theorem handWrite_frame (puts : Request → List RegPut) (q : Request) (s : State) :
    (handWrite puts q s).pending = s.pending ∧ (handWrite puts q s).free = s.free ∧ (handWrite puts q s).id = s.id ∧
    (handWrite puts q s).modes = s.modes ∧ (handWrite puts q s).regs = s.regs ∧ (handWrite puts q s).clk = s.clk ∧
    (handWrite puts q s).chain = s.chain ∧ (handWrite puts q s).pkt = s.pkt ∧ (handWrite puts q s).out = s.out ∧
    (handWrite puts q s).sense = s.sense ∧ (handWrite puts q s).loop = s.loop ∧ (handWrite puts q s).gnss = s.gnss ∧
    (handWrite puts q s).canA = s.canA ∧ (handWrite puts q s).canB = s.canB ∧ (handWrite puts q s).svc = s.svc ∧
    (handWrite puts q s).pwr = s.pwr ∧ (handWrite puts q s).sec = s.sec ∧ (handWrite puts q s).fw = s.fw ∧
    (handWrite puts q s).ev = s.ev ∧ (handWrite puts q s).sect = s.sect := by simp [handWrite]
@[simp] theorem loopTestAct_frame (q : Request) (s : State) :
    (loopTestAct q s).1.pending = s.pending ∧ (loopTestAct q s).1.free = s.free ∧ (loopTestAct q s).1.id = s.id ∧
    (loopTestAct q s).1.modes = s.modes ∧ (loopTestAct q s).1.regs = s.regs ∧ (loopTestAct q s).1.clk = s.clk ∧
    (loopTestAct q s).1.chain = s.chain ∧ (loopTestAct q s).1.out = s.out ∧ (loopTestAct q s).1.sense = s.sense ∧
    (loopTestAct q s).1.loop = s.loop ∧ (loopTestAct q s).1.gnss = s.gnss ∧ (loopTestAct q s).1.canA = s.canA ∧
    (loopTestAct q s).1.canB = s.canB ∧ (loopTestAct q s).1.svc = s.svc ∧ (loopTestAct q s).1.pwr = s.pwr ∧
    (loopTestAct q s).1.sec = s.sec ∧ (loopTestAct q s).1.fw = s.fw ∧ (loopTestAct q s).1.ev = s.ev ∧ (loopTestAct q
    s).1.sect = s.sect := by
  refine ⟨?_, ?_, ?_, ?_, ?_, ?_, ?_, ?_, ?_, ?_, ?_, ?_, ?_, ?_, ?_, ?_, ?_, ?_, ?_⟩
  · unfold loopTestAct; (try dsimp only); repeat' (first | (intro _) | split | rw [foldl_keep (fun s : State => s.pending)] | rw [foldl_keep (fun x : List Edge × State => x.2.pending)] | rw [onDown_keep (fun s : State => s.pending)] | rw [onUp_keep (fun s : State => s.pending)] | rw [orElse_keep (fun s : State => s.pending)] | rw [guarded_keep (fun s : State => s.pending)])
    all_goals first | rfl | (simp; done) | exact barrierArena_keep (fun s : State => s.pending) _ _ _ _ (fun _ _ => rfl) ‹_›
  · unfold loopTestAct; (try dsimp only); repeat' (first | (intro _) | split | rw [foldl_keep (fun s : State => s.free)] | rw [foldl_keep (fun x : List Edge × State => x.2.free)] | rw [onDown_keep (fun s : State => s.free)] | rw [onUp_keep (fun s : State => s.free)] | rw [orElse_keep (fun s : State => s.free)] | rw [guarded_keep (fun s : State => s.free)])
    all_goals first | rfl | (simp; done) | exact barrierArena_keep (fun s : State => s.free) _ _ _ _ (fun _ _ => rfl) ‹_›
  · unfold loopTestAct; (try dsimp only); repeat' (first | (intro _) | split | rw [foldl_keep (fun s : State => s.id)] | rw [foldl_keep (fun x : List Edge × State => x.2.id)] | rw [onDown_keep (fun s : State => s.id)] | rw [onUp_keep (fun s : State => s.id)] | rw [orElse_keep (fun s : State => s.id)] | rw [guarded_keep (fun s : State => s.id)])
    all_goals first | rfl | (simp; done) | exact barrierArena_keep (fun s : State => s.id) _ _ _ _ (fun _ _ => rfl) ‹_›
  · unfold loopTestAct; (try dsimp only); repeat' (first | (intro _) | split | rw [foldl_keep (fun s : State => s.modes)] | rw [foldl_keep (fun x : List Edge × State => x.2.modes)] | rw [onDown_keep (fun s : State => s.modes)] | rw [onUp_keep (fun s : State => s.modes)] | rw [orElse_keep (fun s : State => s.modes)] | rw [guarded_keep (fun s : State => s.modes)])
    all_goals first | rfl | (simp; done) | exact barrierArena_keep (fun s : State => s.modes) _ _ _ _ (fun _ _ => rfl) ‹_›
  · unfold loopTestAct; (try dsimp only); repeat' (first | (intro _) | split | rw [foldl_keep (fun s : State => s.regs)] | rw [foldl_keep (fun x : List Edge × State => x.2.regs)] | rw [onDown_keep (fun s : State => s.regs)] | rw [onUp_keep (fun s : State => s.regs)] | rw [orElse_keep (fun s : State => s.regs)] | rw [guarded_keep (fun s : State => s.regs)])
    all_goals first | rfl | (simp; done) | exact barrierArena_keep (fun s : State => s.regs) _ _ _ _ (fun _ _ => rfl) ‹_›
  · unfold loopTestAct; (try dsimp only); repeat' (first | (intro _) | split | rw [foldl_keep (fun s : State => s.clk)] | rw [foldl_keep (fun x : List Edge × State => x.2.clk)] | rw [onDown_keep (fun s : State => s.clk)] | rw [onUp_keep (fun s : State => s.clk)] | rw [orElse_keep (fun s : State => s.clk)] | rw [guarded_keep (fun s : State => s.clk)])
    all_goals first | rfl | (simp; done) | exact barrierArena_keep (fun s : State => s.clk) _ _ _ _ (fun _ _ => rfl) ‹_›
  · unfold loopTestAct; (try dsimp only); repeat' (first | (intro _) | split | rw [foldl_keep (fun s : State => s.chain)] | rw [foldl_keep (fun x : List Edge × State => x.2.chain)] | rw [onDown_keep (fun s : State => s.chain)] | rw [onUp_keep (fun s : State => s.chain)] | rw [orElse_keep (fun s : State => s.chain)] | rw [guarded_keep (fun s : State => s.chain)])
    all_goals first | rfl | (simp; done) | exact barrierArena_keep (fun s : State => s.chain) _ _ _ _ (fun _ _ => rfl) ‹_›
  · unfold loopTestAct; (try dsimp only); repeat' (first | (intro _) | split | rw [foldl_keep (fun s : State => s.out)] | rw [foldl_keep (fun x : List Edge × State => x.2.out)] | rw [onDown_keep (fun s : State => s.out)] | rw [onUp_keep (fun s : State => s.out)] | rw [orElse_keep (fun s : State => s.out)] | rw [guarded_keep (fun s : State => s.out)])
    all_goals first | rfl | (simp; done) | exact barrierArena_keep (fun s : State => s.out) _ _ _ _ (fun _ _ => rfl) ‹_›
  · unfold loopTestAct; (try dsimp only); repeat' (first | (intro _) | split | rw [foldl_keep (fun s : State => s.sense)] | rw [foldl_keep (fun x : List Edge × State => x.2.sense)] | rw [onDown_keep (fun s : State => s.sense)] | rw [onUp_keep (fun s : State => s.sense)] | rw [orElse_keep (fun s : State => s.sense)] | rw [guarded_keep (fun s : State => s.sense)])
    all_goals first | rfl | (simp; done) | exact barrierArena_keep (fun s : State => s.sense) _ _ _ _ (fun _ _ => rfl) ‹_›
  · unfold loopTestAct; (try dsimp only); repeat' (first | (intro _) | split | rw [foldl_keep (fun s : State => s.loop)] | rw [foldl_keep (fun x : List Edge × State => x.2.loop)] | rw [onDown_keep (fun s : State => s.loop)] | rw [onUp_keep (fun s : State => s.loop)] | rw [orElse_keep (fun s : State => s.loop)] | rw [guarded_keep (fun s : State => s.loop)])
    all_goals first | rfl | (simp; done) | exact barrierArena_keep (fun s : State => s.loop) _ _ _ _ (fun _ _ => rfl) ‹_›
  · unfold loopTestAct; (try dsimp only); repeat' (first | (intro _) | split | rw [foldl_keep (fun s : State => s.gnss)] | rw [foldl_keep (fun x : List Edge × State => x.2.gnss)] | rw [onDown_keep (fun s : State => s.gnss)] | rw [onUp_keep (fun s : State => s.gnss)] | rw [orElse_keep (fun s : State => s.gnss)] | rw [guarded_keep (fun s : State => s.gnss)])
    all_goals first | rfl | (simp; done) | exact barrierArena_keep (fun s : State => s.gnss) _ _ _ _ (fun _ _ => rfl) ‹_›
  · unfold loopTestAct; (try dsimp only); repeat' (first | (intro _) | split | rw [foldl_keep (fun s : State => s.canA)] | rw [foldl_keep (fun x : List Edge × State => x.2.canA)] | rw [onDown_keep (fun s : State => s.canA)] | rw [onUp_keep (fun s : State => s.canA)] | rw [orElse_keep (fun s : State => s.canA)] | rw [guarded_keep (fun s : State => s.canA)])
    all_goals first | rfl | (simp; done) | exact barrierArena_keep (fun s : State => s.canA) _ _ _ _ (fun _ _ => rfl) ‹_›
  · unfold loopTestAct; (try dsimp only); repeat' (first | (intro _) | split | rw [foldl_keep (fun s : State => s.canB)] | rw [foldl_keep (fun x : List Edge × State => x.2.canB)] | rw [onDown_keep (fun s : State => s.canB)] | rw [onUp_keep (fun s : State => s.canB)] | rw [orElse_keep (fun s : State => s.canB)] | rw [guarded_keep (fun s : State => s.canB)])
    all_goals first | rfl | (simp; done) | exact barrierArena_keep (fun s : State => s.canB) _ _ _ _ (fun _ _ => rfl) ‹_›
  · unfold loopTestAct; (try dsimp only); repeat' (first | (intro _) | split | rw [foldl_keep (fun s : State => s.svc)] | rw [foldl_keep (fun x : List Edge × State => x.2.svc)] | rw [onDown_keep (fun s : State => s.svc)] | rw [onUp_keep (fun s : State => s.svc)] | rw [orElse_keep (fun s : State => s.svc)] | rw [guarded_keep (fun s : State => s.svc)])
    all_goals first | rfl | (simp; done) | exact barrierArena_keep (fun s : State => s.svc) _ _ _ _ (fun _ _ => rfl) ‹_›
  · unfold loopTestAct; (try dsimp only); repeat' (first | (intro _) | split | rw [foldl_keep (fun s : State => s.pwr)] | rw [foldl_keep (fun x : List Edge × State => x.2.pwr)] | rw [onDown_keep (fun s : State => s.pwr)] | rw [onUp_keep (fun s : State => s.pwr)] | rw [orElse_keep (fun s : State => s.pwr)] | rw [guarded_keep (fun s : State => s.pwr)])
    all_goals first | rfl | (simp; done) | exact barrierArena_keep (fun s : State => s.pwr) _ _ _ _ (fun _ _ => rfl) ‹_›
  · unfold loopTestAct; (try dsimp only); repeat' (first | (intro _) | split | rw [foldl_keep (fun s : State => s.sec)] | rw [foldl_keep (fun x : List Edge × State => x.2.sec)] | rw [onDown_keep (fun s : State => s.sec)] | rw [onUp_keep (fun s : State => s.sec)] | rw [orElse_keep (fun s : State => s.sec)] | rw [guarded_keep (fun s : State => s.sec)])
    all_goals first | rfl | (simp; done) | exact barrierArena_keep (fun s : State => s.sec) _ _ _ _ (fun _ _ => rfl) ‹_›
  · unfold loopTestAct; (try dsimp only); repeat' (first | (intro _) | split | rw [foldl_keep (fun s : State => s.fw)] | rw [foldl_keep (fun x : List Edge × State => x.2.fw)] | rw [onDown_keep (fun s : State => s.fw)] | rw [onUp_keep (fun s : State => s.fw)] | rw [orElse_keep (fun s : State => s.fw)] | rw [guarded_keep (fun s : State => s.fw)])
    all_goals first | rfl | (simp; done) | exact barrierArena_keep (fun s : State => s.fw) _ _ _ _ (fun _ _ => rfl) ‹_›
  · unfold loopTestAct; (try dsimp only); repeat' (first | (intro _) | split | rw [foldl_keep (fun s : State => s.ev)] | rw [foldl_keep (fun x : List Edge × State => x.2.ev)] | rw [onDown_keep (fun s : State => s.ev)] | rw [onUp_keep (fun s : State => s.ev)] | rw [orElse_keep (fun s : State => s.ev)] | rw [guarded_keep (fun s : State => s.ev)])
    all_goals first | rfl | (simp; done) | exact barrierArena_keep (fun s : State => s.ev) _ _ _ _ (fun _ _ => rfl) ‹_›
  · unfold loopTestAct; (try dsimp only); repeat' (first | (intro _) | split | rw [foldl_keep (fun s : State => s.sect)] | rw [foldl_keep (fun x : List Edge × State => x.2.sect)] | rw [onDown_keep (fun s : State => s.sect)] | rw [onUp_keep (fun s : State => s.sect)] | rw [orElse_keep (fun s : State => s.sect)] | rw [guarded_keep (fun s : State => s.sect)])
    all_goals first | rfl | (simp; done) | exact barrierArena_keep (fun s : State => s.sect) _ _ _ _ (fun _ _ => rfl) ‹_›
@[simp] theorem mirrorEvent_frame (r : EventRec) (s : State) :
    (mirrorEvent r s).pending = s.pending ∧ (mirrorEvent r s).free = s.free ∧ (mirrorEvent r s).id = s.id ∧
    (mirrorEvent r s).modes = s.modes ∧ (mirrorEvent r s).regs = s.regs ∧ (mirrorEvent r s).clk = s.clk ∧
    (mirrorEvent r s).barr = s.barr ∧ (mirrorEvent r s).chain = s.chain ∧ (mirrorEvent r s).pkt = s.pkt ∧
    (mirrorEvent r s).out = s.out ∧ (mirrorEvent r s).sense = s.sense ∧ (mirrorEvent r s).loop = s.loop ∧
    (mirrorEvent r s).gnss = s.gnss ∧ (mirrorEvent r s).canA = s.canA ∧ (mirrorEvent r s).canB = s.canB ∧
    (mirrorEvent r s).svc = s.svc ∧ (mirrorEvent r s).pwr = s.pwr ∧ (mirrorEvent r s).sec = s.sec ∧ (mirrorEvent r
    s).fw = s.fw ∧ (mirrorEvent r s).sect = s.sect := by
  unfold mirrorEvent; split <;> simp
@[simp] theorem eventTaken_frame (r : EventRec) (s : State) :
    (eventTaken r s).pending = s.pending ∧ (eventTaken r s).free = s.free ∧ (eventTaken r s).id = s.id ∧ (eventTaken
    r s).modes = s.modes ∧ (eventTaken r s).regs = s.regs ∧ (eventTaken r s).clk = s.clk ∧ (eventTaken r s).barr =
    s.barr ∧ (eventTaken r s).chain = s.chain ∧ (eventTaken r s).pkt = s.pkt ∧ (eventTaken r s).out = s.out ∧
    (eventTaken r s).sense = s.sense ∧ (eventTaken r s).loop = s.loop ∧ (eventTaken r s).gnss = s.gnss ∧ (eventTaken
    r s).canA = s.canA ∧ (eventTaken r s).canB = s.canB ∧ (eventTaken r s).svc = s.svc ∧ (eventTaken r s).pwr =
    s.pwr ∧ (eventTaken r s).sec = s.sec ∧ (eventTaken r s).fw = s.fw ∧ (eventTaken r s).sect = s.sect := by
  simp [eventTaken]
@[simp] theorem eventMessage_frame (r : EventRec) (s : State) :
    (eventMessage r s).pending = s.pending ∧ (eventMessage r s).free = s.free ∧ (eventMessage r s).id = s.id ∧
    (eventMessage r s).modes = s.modes ∧ (eventMessage r s).regs = s.regs ∧ (eventMessage r s).chain = s.chain ∧
    (eventMessage r s).pkt = s.pkt ∧ (eventMessage r s).out = s.out ∧ (eventMessage r s).sense = s.sense ∧
    (eventMessage r s).loop = s.loop ∧ (eventMessage r s).gnss = s.gnss ∧ (eventMessage r s).canA = s.canA ∧
    (eventMessage r s).canB = s.canB ∧ (eventMessage r s).svc = s.svc ∧ (eventMessage r s).pwr = s.pwr ∧
    (eventMessage r s).sec = s.sec ∧ (eventMessage r s).fw = s.fw ∧ (eventMessage r s).sect = s.sect := by
  refine ⟨?_, ?_, ?_, ?_, ?_, ?_, ?_, ?_, ?_, ?_, ?_, ?_, ?_, ?_, ?_, ?_, ?_, ?_⟩
  · first
    | rfl
    | (simp [eventMessage]; done)
    | (unfold eventMessage; dsimp only; (repeat' split) <;> (first | (simp; done) | (rw [foldl_keep (fun s : State => s.pending)]; · simp; · intro s a; (try dsimp only); (repeat' split) <;> simp; done)))
    | (unfold eventMessage; rw [foldl_keep (fun x : SetMasks × State => x.2.pending)]; intro p n; dsimp only; (repeat' split) <;> simp; done)
    | (unfold eventMessage; rw [onDown_keep (fun s : State => s.pending)] <;> intros <;> simp; done)
    | (unfold eventMessage; rw [onUp_keep (fun s : State => s.pending)] <;> intros <;> simp; done)
  · first
    | rfl
    | (simp [eventMessage]; done)
    | (unfold eventMessage; dsimp only; (repeat' split) <;> (first | (simp; done) | (rw [foldl_keep (fun s : State => s.free)]; · simp; · intro s a; (try dsimp only); (repeat' split) <;> simp; done)))
    | (unfold eventMessage; rw [foldl_keep (fun x : SetMasks × State => x.2.free)]; intro p n; dsimp only; (repeat' split) <;> simp; done)
    | (unfold eventMessage; rw [onDown_keep (fun s : State => s.free)] <;> intros <;> simp; done)
    | (unfold eventMessage; rw [onUp_keep (fun s : State => s.free)] <;> intros <;> simp; done)
  · first
    | rfl
    | (simp [eventMessage]; done)
    | (unfold eventMessage; dsimp only; (repeat' split) <;> (first | (simp; done) | (rw [foldl_keep (fun s : State => s.id)]; · simp; · intro s a; (try dsimp only); (repeat' split) <;> simp; done)))
    | (unfold eventMessage; rw [foldl_keep (fun x : SetMasks × State => x.2.id)]; intro p n; dsimp only; (repeat' split) <;> simp; done)
    | (unfold eventMessage; rw [onDown_keep (fun s : State => s.id)] <;> intros <;> simp; done)
    | (unfold eventMessage; rw [onUp_keep (fun s : State => s.id)] <;> intros <;> simp; done)
  · first
    | rfl
    | (simp [eventMessage]; done)
    | (unfold eventMessage; dsimp only; (repeat' split) <;> (first | (simp; done) | (rw [foldl_keep (fun s : State => s.modes)]; · simp; · intro s a; (try dsimp only); (repeat' split) <;> simp; done)))
    | (unfold eventMessage; rw [foldl_keep (fun x : SetMasks × State => x.2.modes)]; intro p n; dsimp only; (repeat' split) <;> simp; done)
    | (unfold eventMessage; rw [onDown_keep (fun s : State => s.modes)] <;> intros <;> simp; done)
    | (unfold eventMessage; rw [onUp_keep (fun s : State => s.modes)] <;> intros <;> simp; done)
  · first
    | rfl
    | (simp [eventMessage]; done)
    | (unfold eventMessage; dsimp only; (repeat' split) <;> (first | (simp; done) | (rw [foldl_keep (fun s : State => s.regs)]; · simp; · intro s a; (try dsimp only); (repeat' split) <;> simp; done)))
    | (unfold eventMessage; rw [foldl_keep (fun x : SetMasks × State => x.2.regs)]; intro p n; dsimp only; (repeat' split) <;> simp; done)
    | (unfold eventMessage; rw [onDown_keep (fun s : State => s.regs)] <;> intros <;> simp; done)
    | (unfold eventMessage; rw [onUp_keep (fun s : State => s.regs)] <;> intros <;> simp; done)
  · first
    | rfl
    | (simp [eventMessage]; done)
    | (unfold eventMessage; dsimp only; (repeat' split) <;> (first | (simp; done) | (rw [foldl_keep (fun s : State => s.chain)]; · simp; · intro s a; (try dsimp only); (repeat' split) <;> simp; done)))
    | (unfold eventMessage; rw [foldl_keep (fun x : SetMasks × State => x.2.chain)]; intro p n; dsimp only; (repeat' split) <;> simp; done)
    | (unfold eventMessage; rw [onDown_keep (fun s : State => s.chain)] <;> intros <;> simp; done)
    | (unfold eventMessage; rw [onUp_keep (fun s : State => s.chain)] <;> intros <;> simp; done)
  · first
    | rfl
    | (simp [eventMessage]; done)
    | (unfold eventMessage; dsimp only; (repeat' split) <;> (first | (simp; done) | (rw [foldl_keep (fun s : State => s.pkt)]; · simp; · intro s a; (try dsimp only); (repeat' split) <;> simp; done)))
    | (unfold eventMessage; rw [foldl_keep (fun x : SetMasks × State => x.2.pkt)]; intro p n; dsimp only; (repeat' split) <;> simp; done)
    | (unfold eventMessage; rw [onDown_keep (fun s : State => s.pkt)] <;> intros <;> simp; done)
    | (unfold eventMessage; rw [onUp_keep (fun s : State => s.pkt)] <;> intros <;> simp; done)
  · first
    | rfl
    | (simp [eventMessage]; done)
    | (unfold eventMessage; dsimp only; (repeat' split) <;> (first | (simp; done) | (rw [foldl_keep (fun s : State => s.out)]; · simp; · intro s a; (try dsimp only); (repeat' split) <;> simp; done)))
    | (unfold eventMessage; rw [foldl_keep (fun x : SetMasks × State => x.2.out)]; intro p n; dsimp only; (repeat' split) <;> simp; done)
    | (unfold eventMessage; rw [onDown_keep (fun s : State => s.out)] <;> intros <;> simp; done)
    | (unfold eventMessage; rw [onUp_keep (fun s : State => s.out)] <;> intros <;> simp; done)
  · first
    | rfl
    | (simp [eventMessage]; done)
    | (unfold eventMessage; dsimp only; (repeat' split) <;> (first | (simp; done) | (rw [foldl_keep (fun s : State => s.sense)]; · simp; · intro s a; (try dsimp only); (repeat' split) <;> simp; done)))
    | (unfold eventMessage; rw [foldl_keep (fun x : SetMasks × State => x.2.sense)]; intro p n; dsimp only; (repeat' split) <;> simp; done)
    | (unfold eventMessage; rw [onDown_keep (fun s : State => s.sense)] <;> intros <;> simp; done)
    | (unfold eventMessage; rw [onUp_keep (fun s : State => s.sense)] <;> intros <;> simp; done)
  · first
    | rfl
    | (simp [eventMessage]; done)
    | (unfold eventMessage; dsimp only; (repeat' split) <;> (first | (simp; done) | (rw [foldl_keep (fun s : State => s.loop)]; · simp; · intro s a; (try dsimp only); (repeat' split) <;> simp; done)))
    | (unfold eventMessage; rw [foldl_keep (fun x : SetMasks × State => x.2.loop)]; intro p n; dsimp only; (repeat' split) <;> simp; done)
    | (unfold eventMessage; rw [onDown_keep (fun s : State => s.loop)] <;> intros <;> simp; done)
    | (unfold eventMessage; rw [onUp_keep (fun s : State => s.loop)] <;> intros <;> simp; done)
  · first
    | rfl
    | (simp [eventMessage]; done)
    | (unfold eventMessage; dsimp only; (repeat' split) <;> (first | (simp; done) | (rw [foldl_keep (fun s : State => s.gnss)]; · simp; · intro s a; (try dsimp only); (repeat' split) <;> simp; done)))
    | (unfold eventMessage; rw [foldl_keep (fun x : SetMasks × State => x.2.gnss)]; intro p n; dsimp only; (repeat' split) <;> simp; done)
    | (unfold eventMessage; rw [onDown_keep (fun s : State => s.gnss)] <;> intros <;> simp; done)
    | (unfold eventMessage; rw [onUp_keep (fun s : State => s.gnss)] <;> intros <;> simp; done)
  · first
    | rfl
    | (simp [eventMessage]; done)
    | (unfold eventMessage; dsimp only; (repeat' split) <;> (first | (simp; done) | (rw [foldl_keep (fun s : State => s.canA)]; · simp; · intro s a; (try dsimp only); (repeat' split) <;> simp; done)))
    | (unfold eventMessage; rw [foldl_keep (fun x : SetMasks × State => x.2.canA)]; intro p n; dsimp only; (repeat' split) <;> simp; done)
    | (unfold eventMessage; rw [onDown_keep (fun s : State => s.canA)] <;> intros <;> simp; done)
    | (unfold eventMessage; rw [onUp_keep (fun s : State => s.canA)] <;> intros <;> simp; done)
  · first
    | rfl
    | (simp [eventMessage]; done)
    | (unfold eventMessage; dsimp only; (repeat' split) <;> (first | (simp; done) | (rw [foldl_keep (fun s : State => s.canB)]; · simp; · intro s a; (try dsimp only); (repeat' split) <;> simp; done)))
    | (unfold eventMessage; rw [foldl_keep (fun x : SetMasks × State => x.2.canB)]; intro p n; dsimp only; (repeat' split) <;> simp; done)
    | (unfold eventMessage; rw [onDown_keep (fun s : State => s.canB)] <;> intros <;> simp; done)
    | (unfold eventMessage; rw [onUp_keep (fun s : State => s.canB)] <;> intros <;> simp; done)
  · first
    | rfl
    | (simp [eventMessage]; done)
    | (unfold eventMessage; dsimp only; (repeat' split) <;> (first | (simp; done) | (rw [foldl_keep (fun s : State => s.svc)]; · simp; · intro s a; (try dsimp only); (repeat' split) <;> simp; done)))
    | (unfold eventMessage; rw [foldl_keep (fun x : SetMasks × State => x.2.svc)]; intro p n; dsimp only; (repeat' split) <;> simp; done)
    | (unfold eventMessage; rw [onDown_keep (fun s : State => s.svc)] <;> intros <;> simp; done)
    | (unfold eventMessage; rw [onUp_keep (fun s : State => s.svc)] <;> intros <;> simp; done)
  · first
    | rfl
    | (simp [eventMessage]; done)
    | (unfold eventMessage; dsimp only; (repeat' split) <;> (first | (simp; done) | (rw [foldl_keep (fun s : State => s.pwr)]; · simp; · intro s a; (try dsimp only); (repeat' split) <;> simp; done)))
    | (unfold eventMessage; rw [foldl_keep (fun x : SetMasks × State => x.2.pwr)]; intro p n; dsimp only; (repeat' split) <;> simp; done)
    | (unfold eventMessage; rw [onDown_keep (fun s : State => s.pwr)] <;> intros <;> simp; done)
    | (unfold eventMessage; rw [onUp_keep (fun s : State => s.pwr)] <;> intros <;> simp; done)
  · first
    | rfl
    | (simp [eventMessage]; done)
    | (unfold eventMessage; dsimp only; (repeat' split) <;> (first | (simp; done) | (rw [foldl_keep (fun s : State => s.sec)]; · simp; · intro s a; (try dsimp only); (repeat' split) <;> simp; done)))
    | (unfold eventMessage; rw [foldl_keep (fun x : SetMasks × State => x.2.sec)]; intro p n; dsimp only; (repeat' split) <;> simp; done)
    | (unfold eventMessage; rw [onDown_keep (fun s : State => s.sec)] <;> intros <;> simp; done)
    | (unfold eventMessage; rw [onUp_keep (fun s : State => s.sec)] <;> intros <;> simp; done)
  · first
    | rfl
    | (simp [eventMessage]; done)
    | (unfold eventMessage; dsimp only; (repeat' split) <;> (first | (simp; done) | (rw [foldl_keep (fun s : State => s.fw)]; · simp; · intro s a; (try dsimp only); (repeat' split) <;> simp; done)))
    | (unfold eventMessage; rw [foldl_keep (fun x : SetMasks × State => x.2.fw)]; intro p n; dsimp only; (repeat' split) <;> simp; done)
    | (unfold eventMessage; rw [onDown_keep (fun s : State => s.fw)] <;> intros <;> simp; done)
    | (unfold eventMessage; rw [onUp_keep (fun s : State => s.fw)] <;> intros <;> simp; done)
  · first
    | rfl
    | (simp [eventMessage]; done)
    | (unfold eventMessage; dsimp only; (repeat' split) <;> (first | (simp; done) | (rw [foldl_keep (fun s : State => s.sect)]; · simp; · intro s a; (try dsimp only); (repeat' split) <;> simp; done)))
    | (unfold eventMessage; rw [foldl_keep (fun x : SetMasks × State => x.2.sect)]; intro p n; dsimp only; (repeat' split) <;> simp; done)
    | (unfold eventMessage; rw [onDown_keep (fun s : State => s.sect)] <;> intros <;> simp; done)
    | (unfold eventMessage; rw [onUp_keep (fun s : State => s.sect)] <;> intros <;> simp; done)
@[simp] theorem eventHandle_frame (s : State) :
    (eventHandle s).pending = s.pending ∧ (eventHandle s).free = s.free ∧ (eventHandle s).id = s.id ∧ (eventHandle
    s).modes = s.modes ∧ (eventHandle s).regs = s.regs ∧ (eventHandle s).clk = s.clk ∧ (eventHandle s).barr = s.barr
    ∧ (eventHandle s).chain = s.chain ∧ (eventHandle s).pkt = s.pkt ∧ (eventHandle s).out = s.out ∧ (eventHandle
    s).sense = s.sense ∧ (eventHandle s).loop = s.loop ∧ (eventHandle s).gnss = s.gnss ∧ (eventHandle s).canA =
    s.canA ∧ (eventHandle s).canB = s.canB ∧ (eventHandle s).svc = s.svc ∧ (eventHandle s).pwr = s.pwr ∧
    (eventHandle s).sec = s.sec ∧ (eventHandle s).fw = s.fw ∧ (eventHandle s).sect = s.sect := by
  unfold eventHandle; dsimp only; (repeat' split) <;> simp
@[simp] theorem clearEvt_frame (v : Word) (s : State) :
    (clearEvt v s).pending = s.pending ∧ (clearEvt v s).free = s.free ∧ (clearEvt v s).id = s.id ∧ (clearEvt v
    s).modes = s.modes ∧ (clearEvt v s).regs = s.regs ∧ (clearEvt v s).clk = s.clk ∧ (clearEvt v s).barr = s.barr ∧
    (clearEvt v s).chain = s.chain ∧ (clearEvt v s).pkt = s.pkt ∧ (clearEvt v s).out = s.out ∧ (clearEvt v s).sense
    = s.sense ∧ (clearEvt v s).loop = s.loop ∧ (clearEvt v s).gnss = s.gnss ∧ (clearEvt v s).canA = s.canA ∧
    (clearEvt v s).canB = s.canB ∧ (clearEvt v s).svc = s.svc ∧ (clearEvt v s).pwr = s.pwr ∧ (clearEvt v s).sec =
    s.sec ∧ (clearEvt v s).fw = s.fw ∧ (clearEvt v s).sect = s.sect := by simp [clearEvt]
@[simp] theorem closeEpoch_frame (s : State) :
    (closeEpoch s).pending = s.pending ∧ (closeEpoch s).free = s.free ∧ (closeEpoch s).id = s.id ∧ (closeEpoch
    s).modes = s.modes ∧ (closeEpoch s).regs = s.regs ∧ (closeEpoch s).clk = s.clk ∧ (closeEpoch s).chain = s.chain
    ∧ (closeEpoch s).pkt = s.pkt ∧ (closeEpoch s).out = s.out ∧ (closeEpoch s).sense = s.sense ∧ (closeEpoch s).loop
    = s.loop ∧ (closeEpoch s).gnss = s.gnss ∧ (closeEpoch s).canA = s.canA ∧ (closeEpoch s).canB = s.canB ∧
    (closeEpoch s).svc = s.svc ∧ (closeEpoch s).pwr = s.pwr ∧ (closeEpoch s).sec = s.sec ∧ (closeEpoch s).fw = s.fw
    ∧ (closeEpoch s).sect = s.sect := by simp [closeEpoch]
@[simp] theorem writeLog_frame (s : State) :
    (writeLog s).pending = s.pending ∧ (writeLog s).free = s.free ∧ (writeLog s).id = s.id ∧ (writeLog s).modes =
    s.modes ∧ (writeLog s).regs = s.regs ∧ (writeLog s).clk = s.clk ∧ (writeLog s).barr = s.barr ∧ (writeLog
    s).chain = s.chain ∧ (writeLog s).pkt = s.pkt ∧ (writeLog s).out = s.out ∧ (writeLog s).sense = s.sense ∧
    (writeLog s).loop = s.loop ∧ (writeLog s).gnss = s.gnss ∧ (writeLog s).canA = s.canA ∧ (writeLog s).canB =
    s.canB ∧ (writeLog s).svc = s.svc ∧ (writeLog s).pwr = s.pwr ∧ (writeLog s).sec = s.sec ∧ (writeLog s).fw = s.fw
    ∧ (writeLog s).sect = s.sect := by simp [writeLog]
@[simp] theorem writeApplied_frame (s : State) :
    (writeApplied s).pending = s.pending ∧ (writeApplied s).free = s.free ∧ (writeApplied s).id = s.id ∧
    (writeApplied s).modes = s.modes ∧ (writeApplied s).regs = s.regs ∧ (writeApplied s).clk = s.clk ∧ (writeApplied
    s).barr = s.barr ∧ (writeApplied s).chain = s.chain ∧ (writeApplied s).pkt = s.pkt ∧ (writeApplied s).out =
    s.out ∧ (writeApplied s).sense = s.sense ∧ (writeApplied s).loop = s.loop ∧ (writeApplied s).gnss = s.gnss ∧
    (writeApplied s).canA = s.canA ∧ (writeApplied s).canB = s.canB ∧ (writeApplied s).svc = s.svc ∧ (writeApplied
    s).pwr = s.pwr ∧ (writeApplied s).sec = s.sec ∧ (writeApplied s).ev = s.ev ∧ (writeApplied s).sect = s.sect := by simp [writeApplied]
@[simp] theorem commitRecords_frame (s : State) :
    (commitRecords s).pending = s.pending ∧ (commitRecords s).free = s.free ∧ (commitRecords s).id = s.id ∧
    (commitRecords s).modes = s.modes ∧ (commitRecords s).regs = s.regs ∧ (commitRecords s).clk = s.clk ∧
    (commitRecords s).barr = s.barr ∧ (commitRecords s).chain = s.chain ∧ (commitRecords s).pkt = s.pkt ∧
    (commitRecords s).out = s.out ∧ (commitRecords s).sense = s.sense ∧ (commitRecords s).loop = s.loop ∧
    (commitRecords s).gnss = s.gnss ∧ (commitRecords s).canA = s.canA ∧ (commitRecords s).canB = s.canB ∧
    (commitRecords s).svc = s.svc ∧ (commitRecords s).pwr = s.pwr ∧ (commitRecords s).sec = s.sec ∧ (commitRecords
    s).sect = s.sect := by simp [commitRecords]
@[simp] theorem eventReadAct_frame (q : Request) (s : State) :
    (eventReadAct q s).1.pending = s.pending ∧ (eventReadAct q s).1.free = s.free ∧ (eventReadAct q s).1.id = s.id ∧
    (eventReadAct q s).1.modes = s.modes ∧ (eventReadAct q s).1.regs = s.regs ∧ (eventReadAct q s).1.clk = s.clk ∧
    (eventReadAct q s).1.barr = s.barr ∧ (eventReadAct q s).1.chain = s.chain ∧ (eventReadAct q s).1.pkt = s.pkt ∧
    (eventReadAct q s).1.out = s.out ∧ (eventReadAct q s).1.sense = s.sense ∧ (eventReadAct q s).1.loop = s.loop ∧
    (eventReadAct q s).1.gnss = s.gnss ∧ (eventReadAct q s).1.canA = s.canA ∧ (eventReadAct q s).1.canB = s.canB ∧
    (eventReadAct q s).1.svc = s.svc ∧ (eventReadAct q s).1.pwr = s.pwr ∧ (eventReadAct q s).1.sec = s.sec ∧
    (eventReadAct q s).1.fw = s.fw ∧ (eventReadAct q s).1.ev = s.ev ∧ (eventReadAct q s).1.sect = s.sect := by simp [eventReadAct]
@[simp] theorem eventCloseAct_frame (q : Request) (s : State) :
    (eventCloseAct q s).1.pending = s.pending ∧ (eventCloseAct q s).1.free = s.free ∧ (eventCloseAct q s).1.id =
    s.id ∧ (eventCloseAct q s).1.regs = s.regs ∧ (eventCloseAct q s).1.clk = s.clk ∧ (eventCloseAct q s).1.chain =
    s.chain ∧ (eventCloseAct q s).1.pkt = s.pkt ∧ (eventCloseAct q s).1.out = s.out ∧ (eventCloseAct q s).1.sense =
    s.sense ∧ (eventCloseAct q s).1.loop = s.loop ∧ (eventCloseAct q s).1.gnss = s.gnss ∧ (eventCloseAct q s).1.canA
    = s.canA ∧ (eventCloseAct q s).1.canB = s.canB ∧ (eventCloseAct q s).1.svc = s.svc ∧ (eventCloseAct q s).1.pwr =
    s.pwr ∧ (eventCloseAct q s).1.sec = s.sec ∧ (eventCloseAct q s).1.fw = s.fw ∧ (eventCloseAct q s).1.sect =
    s.sect := by
  unfold eventCloseAct; dsimp only; (repeat' split) <;> simp
@[simp] theorem startSlot_frame (w : Sweep) (n : Fin 32) (s : State) :
    (startSlot w n s).pending = s.pending ∧ (startSlot w n s).free = s.free ∧ (startSlot w n s).id = s.id ∧
    (startSlot w n s).modes = s.modes ∧ (startSlot w n s).regs = s.regs ∧ (startSlot w n s).clk = s.clk ∧ (startSlot
    w n s).barr = s.barr ∧ (startSlot w n s).chain = s.chain ∧ (startSlot w n s).pkt = s.pkt ∧ (startSlot w n
    s).sense = s.sense ∧ (startSlot w n s).loop = s.loop ∧ (startSlot w n s).gnss = s.gnss ∧ (startSlot w n s).canA
    = s.canA ∧ (startSlot w n s).canB = s.canB ∧ (startSlot w n s).svc = s.svc ∧ (startSlot w n s).pwr = s.pwr ∧
    (startSlot w n s).sec = s.sec ∧ (startSlot w n s).fw = s.fw ∧ (startSlot w n s).ev = s.ev ∧ (startSlot w n
    s).sect = s.sect := by
  unfold startSlot; dsimp only; (repeat' split) <;> simp
@[simp] theorem startSweep_frame (sweepId : BitVec 16) (s : State) :
    (startSweep sweepId s).pending = s.pending ∧ (startSweep sweepId s).free = s.free ∧ (startSweep sweepId s).id =
    s.id ∧ (startSweep sweepId s).modes = s.modes ∧ (startSweep sweepId s).regs = s.regs ∧ (startSweep sweepId
    s).clk = s.clk ∧ (startSweep sweepId s).chain = s.chain ∧ (startSweep sweepId s).pkt = s.pkt ∧ (startSweep
    sweepId s).sense = s.sense ∧ (startSweep sweepId s).loop = s.loop ∧ (startSweep sweepId s).gnss = s.gnss ∧
    (startSweep sweepId s).canA = s.canA ∧ (startSweep sweepId s).canB = s.canB ∧ (startSweep sweepId s).svc = s.svc
    ∧ (startSweep sweepId s).pwr = s.pwr ∧ (startSweep sweepId s).sec = s.sec ∧ (startSweep sweepId s).fw = s.fw ∧
    (startSweep sweepId s).sect = s.sect := by
  unfold startSweep; dsimp only; (repeat' split) <;> simp
@[simp] theorem startDue_frame (s : State) :
    (startDue s).pending = s.pending ∧ (startDue s).free = s.free ∧ (startDue s).id = s.id ∧ (startDue s).modes =
    s.modes ∧ (startDue s).regs = s.regs ∧ (startDue s).chain = s.chain ∧ (startDue s).pkt = s.pkt ∧ (startDue
    s).sense = s.sense ∧ (startDue s).loop = s.loop ∧ (startDue s).gnss = s.gnss ∧ (startDue s).canA = s.canA ∧
    (startDue s).canB = s.canB ∧ (startDue s).svc = s.svc ∧ (startDue s).pwr = s.pwr ∧ (startDue s).sec = s.sec ∧
    (startDue s).fw = s.fw ∧ (startDue s).sect = s.sect := by
  unfold startDue; split <;> simp
@[simp] theorem sweepSlotEnd_frame (v1 v2 : Word) (v3 : BitVec 16) (measured : Bool) (s : State) :
    (sweepSlotEnd v1 v2 v3 measured s).pending = s.pending ∧ (sweepSlotEnd v1 v2 v3 measured s).free = s.free ∧
    (sweepSlotEnd v1 v2 v3 measured s).id = s.id ∧ (sweepSlotEnd v1 v2 v3 measured s).modes = s.modes ∧
    (sweepSlotEnd v1 v2 v3 measured s).regs = s.regs ∧ (sweepSlotEnd v1 v2 v3 measured s).chain = s.chain ∧
    (sweepSlotEnd v1 v2 v3 measured s).pkt = s.pkt ∧ (sweepSlotEnd v1 v2 v3 measured s).sense = s.sense ∧
    (sweepSlotEnd v1 v2 v3 measured s).loop = s.loop ∧ (sweepSlotEnd v1 v2 v3 measured s).gnss = s.gnss ∧
    (sweepSlotEnd v1 v2 v3 measured s).canA = s.canA ∧ (sweepSlotEnd v1 v2 v3 measured s).canB = s.canB ∧
    (sweepSlotEnd v1 v2 v3 measured s).svc = s.svc ∧ (sweepSlotEnd v1 v2 v3 measured s).pwr = s.pwr ∧ (sweepSlotEnd
    v1 v2 v3 measured s).sec = s.sec ∧ (sweepSlotEnd v1 v2 v3 measured s).fw = s.fw ∧ (sweepSlotEnd v1 v2 v3
    measured s).sect = s.sect := by
  unfold sweepSlotEnd; (try dsimp only); (repeat' split) <;> simp
@[simp] theorem captureTaken_frame (res : SweepRes) (s : State) :
    (captureTaken res s).pending = s.pending ∧ (captureTaken res s).free = s.free ∧ (captureTaken res s).id = s.id ∧
    (captureTaken res s).modes = s.modes ∧ (captureTaken res s).regs = s.regs ∧ (captureTaken res s).clk = s.clk ∧
    (captureTaken res s).barr = s.barr ∧ (captureTaken res s).chain = s.chain ∧ (captureTaken res s).pkt = s.pkt ∧
    (captureTaken res s).sense = s.sense ∧ (captureTaken res s).loop = s.loop ∧ (captureTaken res s).gnss = s.gnss ∧
    (captureTaken res s).canA = s.canA ∧ (captureTaken res s).canB = s.canB ∧ (captureTaken res s).svc = s.svc ∧
    (captureTaken res s).pwr = s.pwr ∧ (captureTaken res s).sec = s.sec ∧ (captureTaken res s).fw = s.fw ∧
    (captureTaken res s).ev = s.ev ∧ (captureTaken res s).sect = s.sect := by
  simp [captureTaken]
@[simp] theorem captureData_frame (res : SweepRes) (s : State) :
    (captureData res s).pending = s.pending ∧ (captureData res s).free = s.free ∧ (captureData res s).id = s.id ∧
    (captureData res s).modes = s.modes ∧ (captureData res s).regs = s.regs ∧ (captureData res s).chain = s.chain ∧
    (captureData res s).pkt = s.pkt ∧ (captureData res s).sense = s.sense ∧ (captureData res s).loop = s.loop ∧
    (captureData res s).gnss = s.gnss ∧ (captureData res s).canA = s.canA ∧ (captureData res s).canB = s.canB ∧
    (captureData res s).svc = s.svc ∧ (captureData res s).pwr = s.pwr ∧ (captureData res s).sec = s.sec ∧
    (captureData res s).fw = s.fw ∧ (captureData res s).sect = s.sect := by
  refine ⟨?_, ?_, ?_, ?_, ?_, ?_, ?_, ?_, ?_, ?_, ?_, ?_, ?_, ?_, ?_, ?_, ?_⟩
  · first
    | rfl
    | (simp [captureData]; done)
    | (unfold captureData; dsimp only; (repeat' split) <;> (first | (simp; done) | (rw [foldl_keep (fun s : State => s.pending)]; · simp; · intro s a; (try dsimp only); (repeat' split) <;> simp; done)))
    | (unfold captureData; rw [foldl_keep (fun x : SetMasks × State => x.2.pending)]; intro p n; dsimp only; (repeat' split) <;> simp; done)
    | (unfold captureData; rw [onDown_keep (fun s : State => s.pending)] <;> intros <;> simp; done)
    | (unfold captureData; rw [onUp_keep (fun s : State => s.pending)] <;> intros <;> simp; done)
  · first
    | rfl
    | (simp [captureData]; done)
    | (unfold captureData; dsimp only; (repeat' split) <;> (first | (simp; done) | (rw [foldl_keep (fun s : State => s.free)]; · simp; · intro s a; (try dsimp only); (repeat' split) <;> simp; done)))
    | (unfold captureData; rw [foldl_keep (fun x : SetMasks × State => x.2.free)]; intro p n; dsimp only; (repeat' split) <;> simp; done)
    | (unfold captureData; rw [onDown_keep (fun s : State => s.free)] <;> intros <;> simp; done)
    | (unfold captureData; rw [onUp_keep (fun s : State => s.free)] <;> intros <;> simp; done)
  · first
    | rfl
    | (simp [captureData]; done)
    | (unfold captureData; dsimp only; (repeat' split) <;> (first | (simp; done) | (rw [foldl_keep (fun s : State => s.id)]; · simp; · intro s a; (try dsimp only); (repeat' split) <;> simp; done)))
    | (unfold captureData; rw [foldl_keep (fun x : SetMasks × State => x.2.id)]; intro p n; dsimp only; (repeat' split) <;> simp; done)
    | (unfold captureData; rw [onDown_keep (fun s : State => s.id)] <;> intros <;> simp; done)
    | (unfold captureData; rw [onUp_keep (fun s : State => s.id)] <;> intros <;> simp; done)
  · first
    | rfl
    | (simp [captureData]; done)
    | (unfold captureData; dsimp only; (repeat' split) <;> (first | (simp; done) | (rw [foldl_keep (fun s : State => s.modes)]; · simp; · intro s a; (try dsimp only); (repeat' split) <;> simp; done)))
    | (unfold captureData; rw [foldl_keep (fun x : SetMasks × State => x.2.modes)]; intro p n; dsimp only; (repeat' split) <;> simp; done)
    | (unfold captureData; rw [onDown_keep (fun s : State => s.modes)] <;> intros <;> simp; done)
    | (unfold captureData; rw [onUp_keep (fun s : State => s.modes)] <;> intros <;> simp; done)
  · first
    | rfl
    | (simp [captureData]; done)
    | (unfold captureData; dsimp only; (repeat' split) <;> (first | (simp; done) | (rw [foldl_keep (fun s : State => s.regs)]; · simp; · intro s a; (try dsimp only); (repeat' split) <;> simp; done)))
    | (unfold captureData; rw [foldl_keep (fun x : SetMasks × State => x.2.regs)]; intro p n; dsimp only; (repeat' split) <;> simp; done)
    | (unfold captureData; rw [onDown_keep (fun s : State => s.regs)] <;> intros <;> simp; done)
    | (unfold captureData; rw [onUp_keep (fun s : State => s.regs)] <;> intros <;> simp; done)
  · first
    | rfl
    | (simp [captureData]; done)
    | (unfold captureData; dsimp only; (repeat' split) <;> (first | (simp; done) | (rw [foldl_keep (fun s : State => s.chain)]; · simp; · intro s a; (try dsimp only); (repeat' split) <;> simp; done)))
    | (unfold captureData; rw [foldl_keep (fun x : SetMasks × State => x.2.chain)]; intro p n; dsimp only; (repeat' split) <;> simp; done)
    | (unfold captureData; rw [onDown_keep (fun s : State => s.chain)] <;> intros <;> simp; done)
    | (unfold captureData; rw [onUp_keep (fun s : State => s.chain)] <;> intros <;> simp; done)
  · first
    | rfl
    | (simp [captureData]; done)
    | (unfold captureData; dsimp only; (repeat' split) <;> (first | (simp; done) | (rw [foldl_keep (fun s : State => s.pkt)]; · simp; · intro s a; (try dsimp only); (repeat' split) <;> simp; done)))
    | (unfold captureData; rw [foldl_keep (fun x : SetMasks × State => x.2.pkt)]; intro p n; dsimp only; (repeat' split) <;> simp; done)
    | (unfold captureData; rw [onDown_keep (fun s : State => s.pkt)] <;> intros <;> simp; done)
    | (unfold captureData; rw [onUp_keep (fun s : State => s.pkt)] <;> intros <;> simp; done)
  · first
    | rfl
    | (simp [captureData]; done)
    | (unfold captureData; dsimp only; (repeat' split) <;> (first | (simp; done) | (rw [foldl_keep (fun s : State => s.sense)]; · simp; · intro s a; (try dsimp only); (repeat' split) <;> simp; done)))
    | (unfold captureData; rw [foldl_keep (fun x : SetMasks × State => x.2.sense)]; intro p n; dsimp only; (repeat' split) <;> simp; done)
    | (unfold captureData; rw [onDown_keep (fun s : State => s.sense)] <;> intros <;> simp; done)
    | (unfold captureData; rw [onUp_keep (fun s : State => s.sense)] <;> intros <;> simp; done)
  · first
    | rfl
    | (simp [captureData]; done)
    | (unfold captureData; dsimp only; (repeat' split) <;> (first | (simp; done) | (rw [foldl_keep (fun s : State => s.loop)]; · simp; · intro s a; (try dsimp only); (repeat' split) <;> simp; done)))
    | (unfold captureData; rw [foldl_keep (fun x : SetMasks × State => x.2.loop)]; intro p n; dsimp only; (repeat' split) <;> simp; done)
    | (unfold captureData; rw [onDown_keep (fun s : State => s.loop)] <;> intros <;> simp; done)
    | (unfold captureData; rw [onUp_keep (fun s : State => s.loop)] <;> intros <;> simp; done)
  · first
    | rfl
    | (simp [captureData]; done)
    | (unfold captureData; dsimp only; (repeat' split) <;> (first | (simp; done) | (rw [foldl_keep (fun s : State => s.gnss)]; · simp; · intro s a; (try dsimp only); (repeat' split) <;> simp; done)))
    | (unfold captureData; rw [foldl_keep (fun x : SetMasks × State => x.2.gnss)]; intro p n; dsimp only; (repeat' split) <;> simp; done)
    | (unfold captureData; rw [onDown_keep (fun s : State => s.gnss)] <;> intros <;> simp; done)
    | (unfold captureData; rw [onUp_keep (fun s : State => s.gnss)] <;> intros <;> simp; done)
  · first
    | rfl
    | (simp [captureData]; done)
    | (unfold captureData; dsimp only; (repeat' split) <;> (first | (simp; done) | (rw [foldl_keep (fun s : State => s.canA)]; · simp; · intro s a; (try dsimp only); (repeat' split) <;> simp; done)))
    | (unfold captureData; rw [foldl_keep (fun x : SetMasks × State => x.2.canA)]; intro p n; dsimp only; (repeat' split) <;> simp; done)
    | (unfold captureData; rw [onDown_keep (fun s : State => s.canA)] <;> intros <;> simp; done)
    | (unfold captureData; rw [onUp_keep (fun s : State => s.canA)] <;> intros <;> simp; done)
  · first
    | rfl
    | (simp [captureData]; done)
    | (unfold captureData; dsimp only; (repeat' split) <;> (first | (simp; done) | (rw [foldl_keep (fun s : State => s.canB)]; · simp; · intro s a; (try dsimp only); (repeat' split) <;> simp; done)))
    | (unfold captureData; rw [foldl_keep (fun x : SetMasks × State => x.2.canB)]; intro p n; dsimp only; (repeat' split) <;> simp; done)
    | (unfold captureData; rw [onDown_keep (fun s : State => s.canB)] <;> intros <;> simp; done)
    | (unfold captureData; rw [onUp_keep (fun s : State => s.canB)] <;> intros <;> simp; done)
  · first
    | rfl
    | (simp [captureData]; done)
    | (unfold captureData; dsimp only; (repeat' split) <;> (first | (simp; done) | (rw [foldl_keep (fun s : State => s.svc)]; · simp; · intro s a; (try dsimp only); (repeat' split) <;> simp; done)))
    | (unfold captureData; rw [foldl_keep (fun x : SetMasks × State => x.2.svc)]; intro p n; dsimp only; (repeat' split) <;> simp; done)
    | (unfold captureData; rw [onDown_keep (fun s : State => s.svc)] <;> intros <;> simp; done)
    | (unfold captureData; rw [onUp_keep (fun s : State => s.svc)] <;> intros <;> simp; done)
  · first
    | rfl
    | (simp [captureData]; done)
    | (unfold captureData; dsimp only; (repeat' split) <;> (first | (simp; done) | (rw [foldl_keep (fun s : State => s.pwr)]; · simp; · intro s a; (try dsimp only); (repeat' split) <;> simp; done)))
    | (unfold captureData; rw [foldl_keep (fun x : SetMasks × State => x.2.pwr)]; intro p n; dsimp only; (repeat' split) <;> simp; done)
    | (unfold captureData; rw [onDown_keep (fun s : State => s.pwr)] <;> intros <;> simp; done)
    | (unfold captureData; rw [onUp_keep (fun s : State => s.pwr)] <;> intros <;> simp; done)
  · first
    | rfl
    | (simp [captureData]; done)
    | (unfold captureData; dsimp only; (repeat' split) <;> (first | (simp; done) | (rw [foldl_keep (fun s : State => s.sec)]; · simp; · intro s a; (try dsimp only); (repeat' split) <;> simp; done)))
    | (unfold captureData; rw [foldl_keep (fun x : SetMasks × State => x.2.sec)]; intro p n; dsimp only; (repeat' split) <;> simp; done)
    | (unfold captureData; rw [onDown_keep (fun s : State => s.sec)] <;> intros <;> simp; done)
    | (unfold captureData; rw [onUp_keep (fun s : State => s.sec)] <;> intros <;> simp; done)
  · first
    | rfl
    | (simp [captureData]; done)
    | (unfold captureData; dsimp only; (repeat' split) <;> (first | (simp; done) | (rw [foldl_keep (fun s : State => s.fw)]; · simp; · intro s a; (try dsimp only); (repeat' split) <;> simp; done)))
    | (unfold captureData; rw [foldl_keep (fun x : SetMasks × State => x.2.fw)]; intro p n; dsimp only; (repeat' split) <;> simp; done)
    | (unfold captureData; rw [onDown_keep (fun s : State => s.fw)] <;> intros <;> simp; done)
    | (unfold captureData; rw [onUp_keep (fun s : State => s.fw)] <;> intros <;> simp; done)
  · first
    | rfl
    | (simp [captureData]; done)
    | (unfold captureData; dsimp only; (repeat' split) <;> (first | (simp; done) | (rw [foldl_keep (fun s : State => s.sect)]; · simp; · intro s a; (try dsimp only); (repeat' split) <;> simp; done)))
    | (unfold captureData; rw [foldl_keep (fun x : SetMasks × State => x.2.sect)]; intro p n; dsimp only; (repeat' split) <;> simp; done)
    | (unfold captureData; rw [onDown_keep (fun s : State => s.sect)] <;> intros <;> simp; done)
    | (unfold captureData; rw [onUp_keep (fun s : State => s.sect)] <;> intros <;> simp; done)
@[simp] theorem sweepTaken_frame (m : SweepMsg) (s : State) :
    (sweepTaken m s).pending = s.pending ∧ (sweepTaken m s).free = s.free ∧ (sweepTaken m s).id = s.id ∧ (sweepTaken
    m s).modes = s.modes ∧ (sweepTaken m s).regs = s.regs ∧ (sweepTaken m s).clk = s.clk ∧ (sweepTaken m s).chain =
    s.chain ∧ (sweepTaken m s).pkt = s.pkt ∧ (sweepTaken m s).sense = s.sense ∧ (sweepTaken m s).loop = s.loop ∧
    (sweepTaken m s).gnss = s.gnss ∧ (sweepTaken m s).canA = s.canA ∧ (sweepTaken m s).canB = s.canB ∧ (sweepTaken m
    s).svc = s.svc ∧ (sweepTaken m s).pwr = s.pwr ∧ (sweepTaken m s).sec = s.sec ∧ (sweepTaken m s).fw = s.fw ∧
    (sweepTaken m s).sect = s.sect := by
  unfold sweepTaken; split <;> simp
@[simp] theorem sweepCtrl_frame (m : SweepMsg) (s : State) :
    (sweepCtrl m s).pending = s.pending ∧ (sweepCtrl m s).free = s.free ∧ (sweepCtrl m s).id = s.id ∧ (sweepCtrl m
    s).modes = s.modes ∧ (sweepCtrl m s).regs = s.regs ∧ (sweepCtrl m s).chain = s.chain ∧ (sweepCtrl m s).pkt =
    s.pkt ∧ (sweepCtrl m s).sense = s.sense ∧ (sweepCtrl m s).loop = s.loop ∧ (sweepCtrl m s).gnss = s.gnss ∧
    (sweepCtrl m s).canA = s.canA ∧ (sweepCtrl m s).canB = s.canB ∧ (sweepCtrl m s).svc = s.svc ∧ (sweepCtrl m
    s).pwr = s.pwr ∧ (sweepCtrl m s).sec = s.sec ∧ (sweepCtrl m s).fw = s.fw ∧ (sweepCtrl m s).sect = s.sect := by
  refine ⟨?_, ?_, ?_, ?_, ?_, ?_, ?_, ?_, ?_, ?_, ?_, ?_, ?_, ?_, ?_, ?_, ?_⟩
  · first
    | rfl
    | (simp [sweepCtrl]; done)
    | (unfold sweepCtrl; dsimp only; (repeat' split) <;> (first | (simp; done) | (rw [foldl_keep (fun s : State => s.pending)]; · simp; · intro s a; (try dsimp only); (repeat' split) <;> simp; done)))
    | (unfold sweepCtrl; rw [foldl_keep (fun x : SetMasks × State => x.2.pending)]; intro p n; dsimp only; (repeat' split) <;> simp; done)
    | (unfold sweepCtrl; rw [onDown_keep (fun s : State => s.pending)] <;> intros <;> simp; done)
    | (unfold sweepCtrl; rw [onUp_keep (fun s : State => s.pending)] <;> intros <;> simp; done)
  · first
    | rfl
    | (simp [sweepCtrl]; done)
    | (unfold sweepCtrl; dsimp only; (repeat' split) <;> (first | (simp; done) | (rw [foldl_keep (fun s : State => s.free)]; · simp; · intro s a; (try dsimp only); (repeat' split) <;> simp; done)))
    | (unfold sweepCtrl; rw [foldl_keep (fun x : SetMasks × State => x.2.free)]; intro p n; dsimp only; (repeat' split) <;> simp; done)
    | (unfold sweepCtrl; rw [onDown_keep (fun s : State => s.free)] <;> intros <;> simp; done)
    | (unfold sweepCtrl; rw [onUp_keep (fun s : State => s.free)] <;> intros <;> simp; done)
  · first
    | rfl
    | (simp [sweepCtrl]; done)
    | (unfold sweepCtrl; dsimp only; (repeat' split) <;> (first | (simp; done) | (rw [foldl_keep (fun s : State => s.id)]; · simp; · intro s a; (try dsimp only); (repeat' split) <;> simp; done)))
    | (unfold sweepCtrl; rw [foldl_keep (fun x : SetMasks × State => x.2.id)]; intro p n; dsimp only; (repeat' split) <;> simp; done)
    | (unfold sweepCtrl; rw [onDown_keep (fun s : State => s.id)] <;> intros <;> simp; done)
    | (unfold sweepCtrl; rw [onUp_keep (fun s : State => s.id)] <;> intros <;> simp; done)
  · first
    | rfl
    | (simp [sweepCtrl]; done)
    | (unfold sweepCtrl; dsimp only; (repeat' split) <;> (first | (simp; done) | (rw [foldl_keep (fun s : State => s.modes)]; · simp; · intro s a; (try dsimp only); (repeat' split) <;> simp; done)))
    | (unfold sweepCtrl; rw [foldl_keep (fun x : SetMasks × State => x.2.modes)]; intro p n; dsimp only; (repeat' split) <;> simp; done)
    | (unfold sweepCtrl; rw [onDown_keep (fun s : State => s.modes)] <;> intros <;> simp; done)
    | (unfold sweepCtrl; rw [onUp_keep (fun s : State => s.modes)] <;> intros <;> simp; done)
  · first
    | rfl
    | (simp [sweepCtrl]; done)
    | (unfold sweepCtrl; dsimp only; (repeat' split) <;> (first | (simp; done) | (rw [foldl_keep (fun s : State => s.regs)]; · simp; · intro s a; (try dsimp only); (repeat' split) <;> simp; done)))
    | (unfold sweepCtrl; rw [foldl_keep (fun x : SetMasks × State => x.2.regs)]; intro p n; dsimp only; (repeat' split) <;> simp; done)
    | (unfold sweepCtrl; rw [onDown_keep (fun s : State => s.regs)] <;> intros <;> simp; done)
    | (unfold sweepCtrl; rw [onUp_keep (fun s : State => s.regs)] <;> intros <;> simp; done)
  · first
    | rfl
    | (simp [sweepCtrl]; done)
    | (unfold sweepCtrl; dsimp only; (repeat' split) <;> (first | (simp; done) | (rw [foldl_keep (fun s : State => s.chain)]; · simp; · intro s a; (try dsimp only); (repeat' split) <;> simp; done)))
    | (unfold sweepCtrl; rw [foldl_keep (fun x : SetMasks × State => x.2.chain)]; intro p n; dsimp only; (repeat' split) <;> simp; done)
    | (unfold sweepCtrl; rw [onDown_keep (fun s : State => s.chain)] <;> intros <;> simp; done)
    | (unfold sweepCtrl; rw [onUp_keep (fun s : State => s.chain)] <;> intros <;> simp; done)
  · first
    | rfl
    | (simp [sweepCtrl]; done)
    | (unfold sweepCtrl; dsimp only; (repeat' split) <;> (first | (simp; done) | (rw [foldl_keep (fun s : State => s.pkt)]; · simp; · intro s a; (try dsimp only); (repeat' split) <;> simp; done)))
    | (unfold sweepCtrl; rw [foldl_keep (fun x : SetMasks × State => x.2.pkt)]; intro p n; dsimp only; (repeat' split) <;> simp; done)
    | (unfold sweepCtrl; rw [onDown_keep (fun s : State => s.pkt)] <;> intros <;> simp; done)
    | (unfold sweepCtrl; rw [onUp_keep (fun s : State => s.pkt)] <;> intros <;> simp; done)
  · first
    | rfl
    | (simp [sweepCtrl]; done)
    | (unfold sweepCtrl; dsimp only; (repeat' split) <;> (first | (simp; done) | (rw [foldl_keep (fun s : State => s.sense)]; · simp; · intro s a; (try dsimp only); (repeat' split) <;> simp; done)))
    | (unfold sweepCtrl; rw [foldl_keep (fun x : SetMasks × State => x.2.sense)]; intro p n; dsimp only; (repeat' split) <;> simp; done)
    | (unfold sweepCtrl; rw [onDown_keep (fun s : State => s.sense)] <;> intros <;> simp; done)
    | (unfold sweepCtrl; rw [onUp_keep (fun s : State => s.sense)] <;> intros <;> simp; done)
  · first
    | rfl
    | (simp [sweepCtrl]; done)
    | (unfold sweepCtrl; dsimp only; (repeat' split) <;> (first | (simp; done) | (rw [foldl_keep (fun s : State => s.loop)]; · simp; · intro s a; (try dsimp only); (repeat' split) <;> simp; done)))
    | (unfold sweepCtrl; rw [foldl_keep (fun x : SetMasks × State => x.2.loop)]; intro p n; dsimp only; (repeat' split) <;> simp; done)
    | (unfold sweepCtrl; rw [onDown_keep (fun s : State => s.loop)] <;> intros <;> simp; done)
    | (unfold sweepCtrl; rw [onUp_keep (fun s : State => s.loop)] <;> intros <;> simp; done)
  · first
    | rfl
    | (simp [sweepCtrl]; done)
    | (unfold sweepCtrl; dsimp only; (repeat' split) <;> (first | (simp; done) | (rw [foldl_keep (fun s : State => s.gnss)]; · simp; · intro s a; (try dsimp only); (repeat' split) <;> simp; done)))
    | (unfold sweepCtrl; rw [foldl_keep (fun x : SetMasks × State => x.2.gnss)]; intro p n; dsimp only; (repeat' split) <;> simp; done)
    | (unfold sweepCtrl; rw [onDown_keep (fun s : State => s.gnss)] <;> intros <;> simp; done)
    | (unfold sweepCtrl; rw [onUp_keep (fun s : State => s.gnss)] <;> intros <;> simp; done)
  · first
    | rfl
    | (simp [sweepCtrl]; done)
    | (unfold sweepCtrl; dsimp only; (repeat' split) <;> (first | (simp; done) | (rw [foldl_keep (fun s : State => s.canA)]; · simp; · intro s a; (try dsimp only); (repeat' split) <;> simp; done)))
    | (unfold sweepCtrl; rw [foldl_keep (fun x : SetMasks × State => x.2.canA)]; intro p n; dsimp only; (repeat' split) <;> simp; done)
    | (unfold sweepCtrl; rw [onDown_keep (fun s : State => s.canA)] <;> intros <;> simp; done)
    | (unfold sweepCtrl; rw [onUp_keep (fun s : State => s.canA)] <;> intros <;> simp; done)
  · first
    | rfl
    | (simp [sweepCtrl]; done)
    | (unfold sweepCtrl; dsimp only; (repeat' split) <;> (first | (simp; done) | (rw [foldl_keep (fun s : State => s.canB)]; · simp; · intro s a; (try dsimp only); (repeat' split) <;> simp; done)))
    | (unfold sweepCtrl; rw [foldl_keep (fun x : SetMasks × State => x.2.canB)]; intro p n; dsimp only; (repeat' split) <;> simp; done)
    | (unfold sweepCtrl; rw [onDown_keep (fun s : State => s.canB)] <;> intros <;> simp; done)
    | (unfold sweepCtrl; rw [onUp_keep (fun s : State => s.canB)] <;> intros <;> simp; done)
  · first
    | rfl
    | (simp [sweepCtrl]; done)
    | (unfold sweepCtrl; dsimp only; (repeat' split) <;> (first | (simp; done) | (rw [foldl_keep (fun s : State => s.svc)]; · simp; · intro s a; (try dsimp only); (repeat' split) <;> simp; done)))
    | (unfold sweepCtrl; rw [foldl_keep (fun x : SetMasks × State => x.2.svc)]; intro p n; dsimp only; (repeat' split) <;> simp; done)
    | (unfold sweepCtrl; rw [onDown_keep (fun s : State => s.svc)] <;> intros <;> simp; done)
    | (unfold sweepCtrl; rw [onUp_keep (fun s : State => s.svc)] <;> intros <;> simp; done)
  · first
    | rfl
    | (simp [sweepCtrl]; done)
    | (unfold sweepCtrl; dsimp only; (repeat' split) <;> (first | (simp; done) | (rw [foldl_keep (fun s : State => s.pwr)]; · simp; · intro s a; (try dsimp only); (repeat' split) <;> simp; done)))
    | (unfold sweepCtrl; rw [foldl_keep (fun x : SetMasks × State => x.2.pwr)]; intro p n; dsimp only; (repeat' split) <;> simp; done)
    | (unfold sweepCtrl; rw [onDown_keep (fun s : State => s.pwr)] <;> intros <;> simp; done)
    | (unfold sweepCtrl; rw [onUp_keep (fun s : State => s.pwr)] <;> intros <;> simp; done)
  · first
    | rfl
    | (simp [sweepCtrl]; done)
    | (unfold sweepCtrl; dsimp only; (repeat' split) <;> (first | (simp; done) | (rw [foldl_keep (fun s : State => s.sec)]; · simp; · intro s a; (try dsimp only); (repeat' split) <;> simp; done)))
    | (unfold sweepCtrl; rw [foldl_keep (fun x : SetMasks × State => x.2.sec)]; intro p n; dsimp only; (repeat' split) <;> simp; done)
    | (unfold sweepCtrl; rw [onDown_keep (fun s : State => s.sec)] <;> intros <;> simp; done)
    | (unfold sweepCtrl; rw [onUp_keep (fun s : State => s.sec)] <;> intros <;> simp; done)
  · first
    | rfl
    | (simp [sweepCtrl]; done)
    | (unfold sweepCtrl; dsimp only; (repeat' split) <;> (first | (simp; done) | (rw [foldl_keep (fun s : State => s.fw)]; · simp; · intro s a; (try dsimp only); (repeat' split) <;> simp; done)))
    | (unfold sweepCtrl; rw [foldl_keep (fun x : SetMasks × State => x.2.fw)]; intro p n; dsimp only; (repeat' split) <;> simp; done)
    | (unfold sweepCtrl; rw [onDown_keep (fun s : State => s.fw)] <;> intros <;> simp; done)
    | (unfold sweepCtrl; rw [onUp_keep (fun s : State => s.fw)] <;> intros <;> simp; done)
  · first
    | rfl
    | (simp [sweepCtrl]; done)
    | (unfold sweepCtrl; dsimp only; (repeat' split) <;> (first | (simp; done) | (rw [foldl_keep (fun s : State => s.sect)]; · simp; · intro s a; (try dsimp only); (repeat' split) <;> simp; done)))
    | (unfold sweepCtrl; rw [foldl_keep (fun x : SetMasks × State => x.2.sect)]; intro p n; dsimp only; (repeat' split) <;> simp; done)
    | (unfold sweepCtrl; rw [onDown_keep (fun s : State => s.sect)] <;> intros <;> simp; done)
    | (unfold sweepCtrl; rw [onUp_keep (fun s : State => s.sect)] <;> intros <;> simp; done)
@[simp] theorem sweepAccepted_frame (q : Request) (s : State) :
    (sweepAccepted q s).pending = s.pending ∧ (sweepAccepted q s).free = s.free ∧ (sweepAccepted q s).id = s.id ∧
    (sweepAccepted q s).modes = s.modes ∧ (sweepAccepted q s).regs = s.regs ∧ (sweepAccepted q s).clk = s.clk ∧
    (sweepAccepted q s).barr = s.barr ∧ (sweepAccepted q s).chain = s.chain ∧ (sweepAccepted q s).pkt = s.pkt ∧
    (sweepAccepted q s).sense = s.sense ∧ (sweepAccepted q s).loop = s.loop ∧ (sweepAccepted q s).gnss = s.gnss ∧
    (sweepAccepted q s).canA = s.canA ∧ (sweepAccepted q s).canB = s.canB ∧ (sweepAccepted q s).svc = s.svc ∧
    (sweepAccepted q s).pwr = s.pwr ∧ (sweepAccepted q s).sec = s.sec ∧ (sweepAccepted q s).fw = s.fw ∧
    (sweepAccepted q s).ev = s.ev ∧ (sweepAccepted q s).sect = s.sect := by simp [sweepAccepted]
@[simp] theorem sweepHand_frame (q : Request) (s : State) :
    (sweepHand q s).pending = s.pending ∧ (sweepHand q s).free = s.free ∧ (sweepHand q s).id = s.id ∧ (sweepHand q
    s).modes = s.modes ∧ (sweepHand q s).regs = s.regs ∧ (sweepHand q s).clk = s.clk ∧ (sweepHand q s).chain =
    s.chain ∧ (sweepHand q s).pkt = s.pkt ∧ (sweepHand q s).out = s.out ∧ (sweepHand q s).sense = s.sense ∧
    (sweepHand q s).loop = s.loop ∧ (sweepHand q s).gnss = s.gnss ∧ (sweepHand q s).canA = s.canA ∧ (sweepHand q
    s).canB = s.canB ∧ (sweepHand q s).svc = s.svc ∧ (sweepHand q s).pwr = s.pwr ∧ (sweepHand q s).sec = s.sec ∧
    (sweepHand q s).fw = s.fw ∧ (sweepHand q s).ev = s.ev ∧ (sweepHand q s).sect = s.sect := by simp [sweepHand]
@[simp] theorem sweepResultAct_frame (q : Request) (s : State) :
    (sweepResultAct q s).1.pending = s.pending ∧ (sweepResultAct q s).1.free = s.free ∧ (sweepResultAct q s).1.id =
    s.id ∧ (sweepResultAct q s).1.modes = s.modes ∧ (sweepResultAct q s).1.regs = s.regs ∧ (sweepResultAct q
    s).1.clk = s.clk ∧ (sweepResultAct q s).1.barr = s.barr ∧ (sweepResultAct q s).1.chain = s.chain ∧
    (sweepResultAct q s).1.pkt = s.pkt ∧ (sweepResultAct q s).1.out = s.out ∧ (sweepResultAct q s).1.sense = s.sense
    ∧ (sweepResultAct q s).1.loop = s.loop ∧ (sweepResultAct q s).1.gnss = s.gnss ∧ (sweepResultAct q s).1.canA =
    s.canA ∧ (sweepResultAct q s).1.canB = s.canB ∧ (sweepResultAct q s).1.svc = s.svc ∧ (sweepResultAct q s).1.pwr
    = s.pwr ∧ (sweepResultAct q s).1.sec = s.sec ∧ (sweepResultAct q s).1.fw = s.fw ∧ (sweepResultAct q s).1.ev =
    s.ev ∧ (sweepResultAct q s).1.sect = s.sect := by
  unfold sweepResultAct; dsimp only; (repeat' split) <;> simp
@[simp] theorem sweepAbortAct_frame (q : Request) (s : State) :
    (sweepAbortAct q s).1.pending = s.pending ∧ (sweepAbortAct q s).1.free = s.free ∧ (sweepAbortAct q s).1.id =
    s.id ∧ (sweepAbortAct q s).1.modes = s.modes ∧ (sweepAbortAct q s).1.regs = s.regs ∧ (sweepAbortAct q s).1.clk =
    s.clk ∧ (sweepAbortAct q s).1.chain = s.chain ∧ (sweepAbortAct q s).1.sense = s.sense ∧ (sweepAbortAct q
    s).1.loop = s.loop ∧ (sweepAbortAct q s).1.gnss = s.gnss ∧ (sweepAbortAct q s).1.canA = s.canA ∧ (sweepAbortAct
    q s).1.canB = s.canB ∧ (sweepAbortAct q s).1.svc = s.svc ∧ (sweepAbortAct q s).1.pwr = s.pwr ∧ (sweepAbortAct q
    s).1.sec = s.sec ∧ (sweepAbortAct q s).1.fw = s.fw ∧ (sweepAbortAct q s).1.sect = s.sect := by
  refine ⟨?_, ?_, ?_, ?_, ?_, ?_, ?_, ?_, ?_, ?_, ?_, ?_, ?_, ?_, ?_, ?_, ?_⟩
  · unfold sweepAbortAct; (try dsimp only); repeat' (first | (intro _) | split | rw [foldl_keep (fun s : State => s.pending)] | rw [foldl_keep (fun x : List Edge × State => x.2.pending)] | rw [onDown_keep (fun s : State => s.pending)] | rw [onUp_keep (fun s : State => s.pending)] | rw [orElse_keep (fun s : State => s.pending)] | rw [guarded_keep (fun s : State => s.pending)])
    all_goals first | rfl | (simp; done) | exact barrierArena_keep (fun s : State => s.pending) _ _ _ _ (fun _ _ => rfl) ‹_›
  · unfold sweepAbortAct; (try dsimp only); repeat' (first | (intro _) | split | rw [foldl_keep (fun s : State => s.free)] | rw [foldl_keep (fun x : List Edge × State => x.2.free)] | rw [onDown_keep (fun s : State => s.free)] | rw [onUp_keep (fun s : State => s.free)] | rw [orElse_keep (fun s : State => s.free)] | rw [guarded_keep (fun s : State => s.free)])
    all_goals first | rfl | (simp; done) | exact barrierArena_keep (fun s : State => s.free) _ _ _ _ (fun _ _ => rfl) ‹_›
  · unfold sweepAbortAct; (try dsimp only); repeat' (first | (intro _) | split | rw [foldl_keep (fun s : State => s.id)] | rw [foldl_keep (fun x : List Edge × State => x.2.id)] | rw [onDown_keep (fun s : State => s.id)] | rw [onUp_keep (fun s : State => s.id)] | rw [orElse_keep (fun s : State => s.id)] | rw [guarded_keep (fun s : State => s.id)])
    all_goals first | rfl | (simp; done) | exact barrierArena_keep (fun s : State => s.id) _ _ _ _ (fun _ _ => rfl) ‹_›
  · unfold sweepAbortAct; (try dsimp only); repeat' (first | (intro _) | split | rw [foldl_keep (fun s : State => s.modes)] | rw [foldl_keep (fun x : List Edge × State => x.2.modes)] | rw [onDown_keep (fun s : State => s.modes)] | rw [onUp_keep (fun s : State => s.modes)] | rw [orElse_keep (fun s : State => s.modes)] | rw [guarded_keep (fun s : State => s.modes)])
    all_goals first | rfl | (simp; done) | exact barrierArena_keep (fun s : State => s.modes) _ _ _ _ (fun _ _ => rfl) ‹_›
  · unfold sweepAbortAct; (try dsimp only); repeat' (first | (intro _) | split | rw [foldl_keep (fun s : State => s.regs)] | rw [foldl_keep (fun x : List Edge × State => x.2.regs)] | rw [onDown_keep (fun s : State => s.regs)] | rw [onUp_keep (fun s : State => s.regs)] | rw [orElse_keep (fun s : State => s.regs)] | rw [guarded_keep (fun s : State => s.regs)])
    all_goals first | rfl | (simp; done) | exact barrierArena_keep (fun s : State => s.regs) _ _ _ _ (fun _ _ => rfl) ‹_›
  · unfold sweepAbortAct; (try dsimp only); repeat' (first | (intro _) | split | rw [foldl_keep (fun s : State => s.clk)] | rw [foldl_keep (fun x : List Edge × State => x.2.clk)] | rw [onDown_keep (fun s : State => s.clk)] | rw [onUp_keep (fun s : State => s.clk)] | rw [orElse_keep (fun s : State => s.clk)] | rw [guarded_keep (fun s : State => s.clk)])
    all_goals first | rfl | (simp; done) | exact barrierArena_keep (fun s : State => s.clk) _ _ _ _ (fun _ _ => rfl) ‹_›
  · unfold sweepAbortAct; (try dsimp only); repeat' (first | (intro _) | split | rw [foldl_keep (fun s : State => s.chain)] | rw [foldl_keep (fun x : List Edge × State => x.2.chain)] | rw [onDown_keep (fun s : State => s.chain)] | rw [onUp_keep (fun s : State => s.chain)] | rw [orElse_keep (fun s : State => s.chain)] | rw [guarded_keep (fun s : State => s.chain)])
    all_goals first | rfl | (simp; done) | exact barrierArena_keep (fun s : State => s.chain) _ _ _ _ (fun _ _ => rfl) ‹_›
  · unfold sweepAbortAct; (try dsimp only); repeat' (first | (intro _) | split | rw [foldl_keep (fun s : State => s.sense)] | rw [foldl_keep (fun x : List Edge × State => x.2.sense)] | rw [onDown_keep (fun s : State => s.sense)] | rw [onUp_keep (fun s : State => s.sense)] | rw [orElse_keep (fun s : State => s.sense)] | rw [guarded_keep (fun s : State => s.sense)])
    all_goals first | rfl | (simp; done) | exact barrierArena_keep (fun s : State => s.sense) _ _ _ _ (fun _ _ => rfl) ‹_›
  · unfold sweepAbortAct; (try dsimp only); repeat' (first | (intro _) | split | rw [foldl_keep (fun s : State => s.loop)] | rw [foldl_keep (fun x : List Edge × State => x.2.loop)] | rw [onDown_keep (fun s : State => s.loop)] | rw [onUp_keep (fun s : State => s.loop)] | rw [orElse_keep (fun s : State => s.loop)] | rw [guarded_keep (fun s : State => s.loop)])
    all_goals first | rfl | (simp; done) | exact barrierArena_keep (fun s : State => s.loop) _ _ _ _ (fun _ _ => rfl) ‹_›
  · unfold sweepAbortAct; (try dsimp only); repeat' (first | (intro _) | split | rw [foldl_keep (fun s : State => s.gnss)] | rw [foldl_keep (fun x : List Edge × State => x.2.gnss)] | rw [onDown_keep (fun s : State => s.gnss)] | rw [onUp_keep (fun s : State => s.gnss)] | rw [orElse_keep (fun s : State => s.gnss)] | rw [guarded_keep (fun s : State => s.gnss)])
    all_goals first | rfl | (simp; done) | exact barrierArena_keep (fun s : State => s.gnss) _ _ _ _ (fun _ _ => rfl) ‹_›
  · unfold sweepAbortAct; (try dsimp only); repeat' (first | (intro _) | split | rw [foldl_keep (fun s : State => s.canA)] | rw [foldl_keep (fun x : List Edge × State => x.2.canA)] | rw [onDown_keep (fun s : State => s.canA)] | rw [onUp_keep (fun s : State => s.canA)] | rw [orElse_keep (fun s : State => s.canA)] | rw [guarded_keep (fun s : State => s.canA)])
    all_goals first | rfl | (simp; done) | exact barrierArena_keep (fun s : State => s.canA) _ _ _ _ (fun _ _ => rfl) ‹_›
  · unfold sweepAbortAct; (try dsimp only); repeat' (first | (intro _) | split | rw [foldl_keep (fun s : State => s.canB)] | rw [foldl_keep (fun x : List Edge × State => x.2.canB)] | rw [onDown_keep (fun s : State => s.canB)] | rw [onUp_keep (fun s : State => s.canB)] | rw [orElse_keep (fun s : State => s.canB)] | rw [guarded_keep (fun s : State => s.canB)])
    all_goals first | rfl | (simp; done) | exact barrierArena_keep (fun s : State => s.canB) _ _ _ _ (fun _ _ => rfl) ‹_›
  · unfold sweepAbortAct; (try dsimp only); repeat' (first | (intro _) | split | rw [foldl_keep (fun s : State => s.svc)] | rw [foldl_keep (fun x : List Edge × State => x.2.svc)] | rw [onDown_keep (fun s : State => s.svc)] | rw [onUp_keep (fun s : State => s.svc)] | rw [orElse_keep (fun s : State => s.svc)] | rw [guarded_keep (fun s : State => s.svc)])
    all_goals first | rfl | (simp; done) | exact barrierArena_keep (fun s : State => s.svc) _ _ _ _ (fun _ _ => rfl) ‹_›
  · unfold sweepAbortAct; (try dsimp only); repeat' (first | (intro _) | split | rw [foldl_keep (fun s : State => s.pwr)] | rw [foldl_keep (fun x : List Edge × State => x.2.pwr)] | rw [onDown_keep (fun s : State => s.pwr)] | rw [onUp_keep (fun s : State => s.pwr)] | rw [orElse_keep (fun s : State => s.pwr)] | rw [guarded_keep (fun s : State => s.pwr)])
    all_goals first | rfl | (simp; done) | exact barrierArena_keep (fun s : State => s.pwr) _ _ _ _ (fun _ _ => rfl) ‹_›
  · unfold sweepAbortAct; (try dsimp only); repeat' (first | (intro _) | split | rw [foldl_keep (fun s : State => s.sec)] | rw [foldl_keep (fun x : List Edge × State => x.2.sec)] | rw [onDown_keep (fun s : State => s.sec)] | rw [onUp_keep (fun s : State => s.sec)] | rw [orElse_keep (fun s : State => s.sec)] | rw [guarded_keep (fun s : State => s.sec)])
    all_goals first | rfl | (simp; done) | exact barrierArena_keep (fun s : State => s.sec) _ _ _ _ (fun _ _ => rfl) ‹_›
  · unfold sweepAbortAct; (try dsimp only); repeat' (first | (intro _) | split | rw [foldl_keep (fun s : State => s.fw)] | rw [foldl_keep (fun x : List Edge × State => x.2.fw)] | rw [onDown_keep (fun s : State => s.fw)] | rw [onUp_keep (fun s : State => s.fw)] | rw [orElse_keep (fun s : State => s.fw)] | rw [guarded_keep (fun s : State => s.fw)])
    all_goals first | rfl | (simp; done) | exact barrierArena_keep (fun s : State => s.fw) _ _ _ _ (fun _ _ => rfl) ‹_›
  · unfold sweepAbortAct; (try dsimp only); repeat' (first | (intro _) | split | rw [foldl_keep (fun s : State => s.sect)] | rw [foldl_keep (fun x : List Edge × State => x.2.sect)] | rw [onDown_keep (fun s : State => s.sect)] | rw [onUp_keep (fun s : State => s.sect)] | rw [orElse_keep (fun s : State => s.sect)] | rw [guarded_keep (fun s : State => s.sect)])
    all_goals first | rfl | (simp; done) | exact barrierArena_keep (fun s : State => s.sect) _ _ _ _ (fun _ _ => rfl) ‹_›

end Sys2Proof.Laws
end

