-- ==== Sys2Proof/Laws/FramesSection.lean ====
section
/-! SUPPORT. Frames of section control.
One lemma for each operation, of the parts of the state that it leaves as they were. -/

namespace Sys2Proof.Laws

open Sys2Proof.Machine

@[simp] theorem geometrySetAct_frame (q : Request) (s : State) :
    (geometrySetAct q s).1.pending = s.pending ∧ (geometrySetAct q s).1.free = s.free ∧ (geometrySetAct q s).1.id =
    s.id ∧ (geometrySetAct q s).1.modes = s.modes ∧ (geometrySetAct q s).1.regs = s.regs ∧ (geometrySetAct q
    s).1.clk = s.clk ∧ (geometrySetAct q s).1.barr = s.barr ∧ (geometrySetAct q s).1.chain = s.chain ∧
    (geometrySetAct q s).1.pkt = s.pkt ∧ (geometrySetAct q s).1.out = s.out ∧ (geometrySetAct q s).1.sense = s.sense
    ∧ (geometrySetAct q s).1.loop = s.loop ∧ (geometrySetAct q s).1.gnss = s.gnss ∧ (geometrySetAct q s).1.canA =
    s.canA ∧ (geometrySetAct q s).1.canB = s.canB ∧ (geometrySetAct q s).1.svc = s.svc ∧ (geometrySetAct q s).1.pwr
    = s.pwr ∧ (geometrySetAct q s).1.sec = s.sec ∧ (geometrySetAct q s).1.fw = s.fw ∧ (geometrySetAct q s).1.ev =
    s.ev := by
  unfold geometrySetAct; (repeat' split) <;> simp
@[simp] theorem groundMeasured_frame (n : Fin 32) (on : Bool) (e : BitVec 64) (m : Nat) (s : State) :
    (groundMeasured n on e m s).pending = s.pending ∧ (groundMeasured n on e m s).free = s.free ∧ (groundMeasured n
    on e m s).id = s.id ∧ (groundMeasured n on e m s).modes = s.modes ∧ (groundMeasured n on e m s).regs = s.regs ∧
    (groundMeasured n on e m s).clk = s.clk ∧ (groundMeasured n on e m s).barr = s.barr ∧ (groundMeasured n on e m
    s).chain = s.chain ∧ (groundMeasured n on e m s).pkt = s.pkt ∧ (groundMeasured n on e m s).out = s.out ∧
    (groundMeasured n on e m s).sense = s.sense ∧ (groundMeasured n on e m s).loop = s.loop ∧ (groundMeasured n on e
    m s).gnss = s.gnss ∧ (groundMeasured n on e m s).canA = s.canA ∧ (groundMeasured n on e m s).canB = s.canB ∧
    (groundMeasured n on e m s).svc = s.svc ∧ (groundMeasured n on e m s).pwr = s.pwr ∧ (groundMeasured n on e m
    s).sec = s.sec ∧ (groundMeasured n on e m s).fw = s.fw ∧ (groundMeasured n on e m s).ev = s.ev := by
  simp [groundMeasured]
@[simp] theorem latencyMeasure_frame (n : Fin 32) (on : Bool) (samples : List Nat) (edgeMv sigMv : Nat) (s : State) :
    (latencyMeasure n on samples edgeMv sigMv s).pending = s.pending ∧ (latencyMeasure n on samples edgeMv sigMv
    s).free = s.free ∧ (latencyMeasure n on samples edgeMv sigMv s).id = s.id ∧ (latencyMeasure n on samples edgeMv
    sigMv s).modes = s.modes ∧ (latencyMeasure n on samples edgeMv sigMv s).regs = s.regs ∧ (latencyMeasure n on
    samples edgeMv sigMv s).chain = s.chain ∧ (latencyMeasure n on samples edgeMv sigMv s).pkt = s.pkt ∧
    (latencyMeasure n on samples edgeMv sigMv s).sense = s.sense ∧ (latencyMeasure n on samples edgeMv sigMv s).loop
    = s.loop ∧ (latencyMeasure n on samples edgeMv sigMv s).gnss = s.gnss ∧ (latencyMeasure n on samples edgeMv
    sigMv s).canA = s.canA ∧ (latencyMeasure n on samples edgeMv sigMv s).canB = s.canB ∧ (latencyMeasure n on
    samples edgeMv sigMv s).svc = s.svc ∧ (latencyMeasure n on samples edgeMv sigMv s).pwr = s.pwr ∧ (latencyMeasure
    n on samples edgeMv sigMv s).sec = s.sec ∧ (latencyMeasure n on samples edgeMv sigMv s).fw = s.fw := by
  unfold latencyMeasure; dsimp only; (repeat' split) <;> simp
@[simp] theorem addPred_frame (p : Pred) (s : State) :
    (addPred p s).pending = s.pending ∧ (addPred p s).free = s.free ∧ (addPred p s).id = s.id ∧ (addPred p s).modes
    = s.modes ∧ (addPred p s).regs = s.regs ∧ (addPred p s).clk = s.clk ∧ (addPred p s).barr = s.barr ∧ (addPred p
    s).chain = s.chain ∧ (addPred p s).pkt = s.pkt ∧ (addPred p s).out = s.out ∧ (addPred p s).sense = s.sense ∧
    (addPred p s).loop = s.loop ∧ (addPred p s).gnss = s.gnss ∧ (addPred p s).canA = s.canA ∧ (addPred p s).canB =
    s.canB ∧ (addPred p s).svc = s.svc ∧ (addPred p s).pwr = s.pwr ∧ (addPred p s).sec = s.sec ∧ (addPred p s).fw =
    s.fw ∧ (addPred p s).ev = s.ev := by simp [addPred]
@[simp] theorem stopOrStart_frame (n : Fin 32) (s : State) :
    (stopOrStart n s).pending = s.pending ∧ (stopOrStart n s).free = s.free ∧ (stopOrStart n s).id = s.id ∧
    (stopOrStart n s).modes = s.modes ∧ (stopOrStart n s).regs = s.regs ∧ (stopOrStart n s).clk = s.clk ∧
    (stopOrStart n s).barr = s.barr ∧ (stopOrStart n s).chain = s.chain ∧ (stopOrStart n s).pkt = s.pkt ∧
    (stopOrStart n s).out = s.out ∧ (stopOrStart n s).sense = s.sense ∧ (stopOrStart n s).loop = s.loop ∧
    (stopOrStart n s).gnss = s.gnss ∧ (stopOrStart n s).canA = s.canA ∧ (stopOrStart n s).canB = s.canB ∧
    (stopOrStart n s).svc = s.svc ∧ (stopOrStart n s).pwr = s.pwr ∧ (stopOrStart n s).sec = s.sec ∧ (stopOrStart n
    s).fw = s.fw ∧ (stopOrStart n s).ev = s.ev := by simp [stopOrStart]
@[simp] theorem consume_frame (limit : Nat) (xs : List (Fin 32 × List Crossing)) (s : State) :
    (consume limit xs s).pending = s.pending ∧ (consume limit xs s).free = s.free ∧ (consume limit xs s).id = s.id ∧
    (consume limit xs s).modes = s.modes ∧ (consume limit xs s).regs = s.regs ∧ (consume limit xs s).clk = s.clk ∧
    (consume limit xs s).barr = s.barr ∧ (consume limit xs s).chain = s.chain ∧ (consume limit xs s).pkt = s.pkt ∧
    (consume limit xs s).out = s.out ∧ (consume limit xs s).sense = s.sense ∧ (consume limit xs s).loop = s.loop ∧
    (consume limit xs s).gnss = s.gnss ∧ (consume limit xs s).canA = s.canA ∧ (consume limit xs s).canB = s.canB ∧
    (consume limit xs s).svc = s.svc ∧ (consume limit xs s).pwr = s.pwr ∧ (consume limit xs s).sec = s.sec ∧
    (consume limit xs s).fw = s.fw ∧ (consume limit xs s).ev = s.ev := by simp [consume]
@[simp] theorem retireLines_frame (s : State) :
    (retireLines s).pending = s.pending ∧ (retireLines s).free = s.free ∧ (retireLines s).id = s.id ∧ (retireLines
    s).modes = s.modes ∧ (retireLines s).regs = s.regs ∧ (retireLines s).clk = s.clk ∧ (retireLines s).barr = s.barr
    ∧ (retireLines s).chain = s.chain ∧ (retireLines s).pkt = s.pkt ∧ (retireLines s).out = s.out ∧ (retireLines
    s).sense = s.sense ∧ (retireLines s).loop = s.loop ∧ (retireLines s).gnss = s.gnss ∧ (retireLines s).canA =
    s.canA ∧ (retireLines s).canB = s.canB ∧ (retireLines s).svc = s.svc ∧ (retireLines s).pwr = s.pwr ∧
    (retireLines s).sec = s.sec ∧ (retireLines s).fw = s.fw ∧ (retireLines s).ev = s.ev := by simp [retireLines]
@[simp] theorem turnComp_frame (n : Fin 32) (s : State) :
    (turnComp n s).pending = s.pending ∧ (turnComp n s).free = s.free ∧ (turnComp n s).id = s.id ∧ (turnComp n
    s).modes = s.modes ∧ (turnComp n s).regs = s.regs ∧ (turnComp n s).clk = s.clk ∧ (turnComp n s).barr = s.barr ∧
    (turnComp n s).chain = s.chain ∧ (turnComp n s).pkt = s.pkt ∧ (turnComp n s).sense = s.sense ∧ (turnComp n
    s).loop = s.loop ∧ (turnComp n s).gnss = s.gnss ∧ (turnComp n s).canA = s.canA ∧ (turnComp n s).canB = s.canB ∧
    (turnComp n s).svc = s.svc ∧ (turnComp n s).pwr = s.pwr ∧ (turnComp n s).sec = s.sec ∧ (turnComp n s).fw = s.fw
    ∧ (turnComp n s).ev = s.ev ∧ (turnComp n s).sect = s.sect := by
  unfold turnComp; split <;> simp
@[simp] theorem loseMotion_frame (s : State) :
    (loseMotion s).pending = s.pending ∧ (loseMotion s).free = s.free ∧ (loseMotion s).id = s.id ∧ (loseMotion
    s).modes = s.modes ∧ (loseMotion s).regs = s.regs ∧ (loseMotion s).clk = s.clk ∧ (loseMotion s).chain = s.chain
    ∧ (loseMotion s).pkt = s.pkt ∧ (loseMotion s).out = s.out ∧ (loseMotion s).sense = s.sense ∧ (loseMotion s).loop
    = s.loop ∧ (loseMotion s).gnss = s.gnss ∧ (loseMotion s).canA = s.canA ∧ (loseMotion s).canB = s.canB ∧
    (loseMotion s).svc = s.svc ∧ (loseMotion s).pwr = s.pwr ∧ (loseMotion s).sec = s.sec ∧ (loseMotion s).fw = s.fw := by simp [loseMotion]
@[simp] theorem markCell_frame (c : Int × Int) (s : State) :
    (markCell c s).pending = s.pending ∧ (markCell c s).free = s.free ∧ (markCell c s).id = s.id ∧ (markCell c
    s).modes = s.modes ∧ (markCell c s).regs = s.regs ∧ (markCell c s).clk = s.clk ∧ (markCell c s).chain = s.chain
    ∧ (markCell c s).pkt = s.pkt ∧ (markCell c s).out = s.out ∧ (markCell c s).sense = s.sense ∧ (markCell c s).loop
    = s.loop ∧ (markCell c s).gnss = s.gnss ∧ (markCell c s).canA = s.canA ∧ (markCell c s).canB = s.canB ∧
    (markCell c s).svc = s.svc ∧ (markCell c s).pwr = s.pwr ∧ (markCell c s).sec = s.sec ∧ (markCell c s).fw = s.fw := by simp [markCell]
@[simp] theorem storeLine_frame (l : SwLine) (s : State) :
    (storeLine l s).pending = s.pending ∧ (storeLine l s).free = s.free ∧ (storeLine l s).id = s.id ∧ (storeLine l
    s).modes = s.modes ∧ (storeLine l s).regs = s.regs ∧ (storeLine l s).clk = s.clk ∧ (storeLine l s).barr = s.barr
    ∧ (storeLine l s).chain = s.chain ∧ (storeLine l s).pkt = s.pkt ∧ (storeLine l s).out = s.out ∧ (storeLine l
    s).sense = s.sense ∧ (storeLine l s).loop = s.loop ∧ (storeLine l s).gnss = s.gnss ∧ (storeLine l s).canA =
    s.canA ∧ (storeLine l s).canB = s.canB ∧ (storeLine l s).svc = s.svc ∧ (storeLine l s).pwr = s.pwr ∧ (storeLine
    l s).sec = s.sec ∧ (storeLine l s).fw = s.fw ∧ (storeLine l s).ev = s.ev := by simp [storeLine]
@[simp] theorem ownLines_frame (n : Fin 32) (poses : List Pose) (s : State) :
    (ownLines n poses s).pending = s.pending ∧ (ownLines n poses s).free = s.free ∧ (ownLines n poses s).id = s.id ∧
    (ownLines n poses s).modes = s.modes ∧ (ownLines n poses s).regs = s.regs ∧ (ownLines n poses s).clk = s.clk ∧
    (ownLines n poses s).barr = s.barr ∧ (ownLines n poses s).chain = s.chain ∧ (ownLines n poses s).pkt = s.pkt ∧
    (ownLines n poses s).out = s.out ∧ (ownLines n poses s).sense = s.sense ∧ (ownLines n poses s).loop = s.loop ∧
    (ownLines n poses s).gnss = s.gnss ∧ (ownLines n poses s).canA = s.canA ∧ (ownLines n poses s).canB = s.canB ∧
    (ownLines n poses s).svc = s.svc ∧ (ownLines n poses s).pwr = s.pwr ∧ (ownLines n poses s).sec = s.sec ∧
    (ownLines n poses s).fw = s.fw ∧ (ownLines n poses s).ev = s.ev := by
  unfold ownLines; split <;> simp
@[simp] theorem memberLines_frame (m : BitVec 16 × Fin 32 × Nat × List (Int × Int)) (s : State) :
    (memberLines m s).pending = s.pending ∧ (memberLines m s).id = s.id ∧ (memberLines m s).modes = s.modes ∧
    (memberLines m s).regs = s.regs ∧ (memberLines m s).clk = s.clk ∧ (memberLines m s).barr = s.barr ∧ (memberLines
    m s).pkt = s.pkt ∧ (memberLines m s).out = s.out ∧ (memberLines m s).sense = s.sense ∧ (memberLines m s).loop =
    s.loop ∧ (memberLines m s).gnss = s.gnss ∧ (memberLines m s).canA = s.canA ∧ (memberLines m s).canB = s.canB ∧
    (memberLines m s).svc = s.svc ∧ (memberLines m s).pwr = s.pwr ∧ (memberLines m s).sec = s.sec ∧ (memberLines m
    s).fw = s.fw ∧ (memberLines m s).ev = s.ev ∧ (memberLines m s).sect = s.sect := by
  simp [memberLines]
@[simp] theorem coverage_frame (poses : List Pose) (s : State) :
    (coverage poses s).pending = s.pending ∧ (coverage poses s).id = s.id ∧ (coverage poses s).modes = s.modes ∧
    (coverage poses s).regs = s.regs ∧ (coverage poses s).clk = s.clk ∧ (coverage poses s).pkt = s.pkt ∧ (coverage
    poses s).out = s.out ∧ (coverage poses s).sense = s.sense ∧ (coverage poses s).loop = s.loop ∧ (coverage poses
    s).gnss = s.gnss ∧ (coverage poses s).canA = s.canA ∧ (coverage poses s).canB = s.canB ∧ (coverage poses s).svc
    = s.svc ∧ (coverage poses s).pwr = s.pwr ∧ (coverage poses s).sec = s.sec ∧ (coverage poses s).fw = s.fw := by
  refine ⟨?_, ?_, ?_, ?_, ?_, ?_, ?_, ?_, ?_, ?_, ?_, ?_, ?_, ?_, ?_, ?_⟩
  · unfold coverage; (try dsimp only); repeat' (first | (intro _) | split | rw [foldl_keep (fun s : State => s.pending)] | rw [foldl_keep (fun x : List Edge × State => x.2.pending)] | rw [onDown_keep (fun s : State => s.pending)] | rw [onUp_keep (fun s : State => s.pending)] | rw [orElse_keep (fun s : State => s.pending)] | rw [guarded_keep (fun s : State => s.pending)])
    all_goals first | rfl | (simp; done) | exact barrierArena_keep (fun s : State => s.pending) _ _ _ _ (fun _ _ => rfl) ‹_›
  · unfold coverage; (try dsimp only); repeat' (first | (intro _) | split | rw [foldl_keep (fun s : State => s.id)] | rw [foldl_keep (fun x : List Edge × State => x.2.id)] | rw [onDown_keep (fun s : State => s.id)] | rw [onUp_keep (fun s : State => s.id)] | rw [orElse_keep (fun s : State => s.id)] | rw [guarded_keep (fun s : State => s.id)])
    all_goals first | rfl | (simp; done) | exact barrierArena_keep (fun s : State => s.id) _ _ _ _ (fun _ _ => rfl) ‹_›
  · unfold coverage; (try dsimp only); repeat' (first | (intro _) | split | rw [foldl_keep (fun s : State => s.modes)] | rw [foldl_keep (fun x : List Edge × State => x.2.modes)] | rw [onDown_keep (fun s : State => s.modes)] | rw [onUp_keep (fun s : State => s.modes)] | rw [orElse_keep (fun s : State => s.modes)] | rw [guarded_keep (fun s : State => s.modes)])
    all_goals first | rfl | (simp; done) | exact barrierArena_keep (fun s : State => s.modes) _ _ _ _ (fun _ _ => rfl) ‹_›
  · unfold coverage; (try dsimp only); repeat' (first | (intro _) | split | rw [foldl_keep (fun s : State => s.regs)] | rw [foldl_keep (fun x : List Edge × State => x.2.regs)] | rw [onDown_keep (fun s : State => s.regs)] | rw [onUp_keep (fun s : State => s.regs)] | rw [orElse_keep (fun s : State => s.regs)] | rw [guarded_keep (fun s : State => s.regs)])
    all_goals first | rfl | (simp; done) | exact barrierArena_keep (fun s : State => s.regs) _ _ _ _ (fun _ _ => rfl) ‹_›
  · unfold coverage; (try dsimp only); repeat' (first | (intro _) | split | rw [foldl_keep (fun s : State => s.clk)] | rw [foldl_keep (fun x : List Edge × State => x.2.clk)] | rw [onDown_keep (fun s : State => s.clk)] | rw [onUp_keep (fun s : State => s.clk)] | rw [orElse_keep (fun s : State => s.clk)] | rw [guarded_keep (fun s : State => s.clk)])
    all_goals first | rfl | (simp; done) | exact barrierArena_keep (fun s : State => s.clk) _ _ _ _ (fun _ _ => rfl) ‹_›
  · unfold coverage; (try dsimp only); repeat' (first | (intro _) | split | rw [foldl_keep (fun s : State => s.pkt)] | rw [foldl_keep (fun x : List Edge × State => x.2.pkt)] | rw [onDown_keep (fun s : State => s.pkt)] | rw [onUp_keep (fun s : State => s.pkt)] | rw [orElse_keep (fun s : State => s.pkt)] | rw [guarded_keep (fun s : State => s.pkt)])
    all_goals first | rfl | (simp; done) | exact barrierArena_keep (fun s : State => s.pkt) _ _ _ _ (fun _ _ => rfl) ‹_›
  · unfold coverage; (try dsimp only); repeat' (first | (intro _) | split | rw [foldl_keep (fun s : State => s.out)] | rw [foldl_keep (fun x : List Edge × State => x.2.out)] | rw [onDown_keep (fun s : State => s.out)] | rw [onUp_keep (fun s : State => s.out)] | rw [orElse_keep (fun s : State => s.out)] | rw [guarded_keep (fun s : State => s.out)])
    all_goals first | rfl | (simp; done) | exact barrierArena_keep (fun s : State => s.out) _ _ _ _ (fun _ _ => rfl) ‹_›
  · unfold coverage; (try dsimp only); repeat' (first | (intro _) | split | rw [foldl_keep (fun s : State => s.sense)] | rw [foldl_keep (fun x : List Edge × State => x.2.sense)] | rw [onDown_keep (fun s : State => s.sense)] | rw [onUp_keep (fun s : State => s.sense)] | rw [orElse_keep (fun s : State => s.sense)] | rw [guarded_keep (fun s : State => s.sense)])
    all_goals first | rfl | (simp; done) | exact barrierArena_keep (fun s : State => s.sense) _ _ _ _ (fun _ _ => rfl) ‹_›
  · unfold coverage; (try dsimp only); repeat' (first | (intro _) | split | rw [foldl_keep (fun s : State => s.loop)] | rw [foldl_keep (fun x : List Edge × State => x.2.loop)] | rw [onDown_keep (fun s : State => s.loop)] | rw [onUp_keep (fun s : State => s.loop)] | rw [orElse_keep (fun s : State => s.loop)] | rw [guarded_keep (fun s : State => s.loop)])
    all_goals first | rfl | (simp; done) | exact barrierArena_keep (fun s : State => s.loop) _ _ _ _ (fun _ _ => rfl) ‹_›
  · unfold coverage; (try dsimp only); repeat' (first | (intro _) | split | rw [foldl_keep (fun s : State => s.gnss)] | rw [foldl_keep (fun x : List Edge × State => x.2.gnss)] | rw [onDown_keep (fun s : State => s.gnss)] | rw [onUp_keep (fun s : State => s.gnss)] | rw [orElse_keep (fun s : State => s.gnss)] | rw [guarded_keep (fun s : State => s.gnss)])
    all_goals first | rfl | (simp; done) | exact barrierArena_keep (fun s : State => s.gnss) _ _ _ _ (fun _ _ => rfl) ‹_›
  · unfold coverage; (try dsimp only); repeat' (first | (intro _) | split | rw [foldl_keep (fun s : State => s.canA)] | rw [foldl_keep (fun x : List Edge × State => x.2.canA)] | rw [onDown_keep (fun s : State => s.canA)] | rw [onUp_keep (fun s : State => s.canA)] | rw [orElse_keep (fun s : State => s.canA)] | rw [guarded_keep (fun s : State => s.canA)])
    all_goals first | rfl | (simp; done) | exact barrierArena_keep (fun s : State => s.canA) _ _ _ _ (fun _ _ => rfl) ‹_›
  · unfold coverage; (try dsimp only); repeat' (first | (intro _) | split | rw [foldl_keep (fun s : State => s.canB)] | rw [foldl_keep (fun x : List Edge × State => x.2.canB)] | rw [onDown_keep (fun s : State => s.canB)] | rw [onUp_keep (fun s : State => s.canB)] | rw [orElse_keep (fun s : State => s.canB)] | rw [guarded_keep (fun s : State => s.canB)])
    all_goals first | rfl | (simp; done) | exact barrierArena_keep (fun s : State => s.canB) _ _ _ _ (fun _ _ => rfl) ‹_›
  · unfold coverage; (try dsimp only); repeat' (first | (intro _) | split | rw [foldl_keep (fun s : State => s.svc)] | rw [foldl_keep (fun x : List Edge × State => x.2.svc)] | rw [onDown_keep (fun s : State => s.svc)] | rw [onUp_keep (fun s : State => s.svc)] | rw [orElse_keep (fun s : State => s.svc)] | rw [guarded_keep (fun s : State => s.svc)])
    all_goals first | rfl | (simp; done) | exact barrierArena_keep (fun s : State => s.svc) _ _ _ _ (fun _ _ => rfl) ‹_›
  · unfold coverage; (try dsimp only); repeat' (first | (intro _) | split | rw [foldl_keep (fun s : State => s.pwr)] | rw [foldl_keep (fun x : List Edge × State => x.2.pwr)] | rw [onDown_keep (fun s : State => s.pwr)] | rw [onUp_keep (fun s : State => s.pwr)] | rw [orElse_keep (fun s : State => s.pwr)] | rw [guarded_keep (fun s : State => s.pwr)])
    all_goals first | rfl | (simp; done) | exact barrierArena_keep (fun s : State => s.pwr) _ _ _ _ (fun _ _ => rfl) ‹_›
  · unfold coverage; (try dsimp only); repeat' (first | (intro _) | split | rw [foldl_keep (fun s : State => s.sec)] | rw [foldl_keep (fun x : List Edge × State => x.2.sec)] | rw [onDown_keep (fun s : State => s.sec)] | rw [onUp_keep (fun s : State => s.sec)] | rw [orElse_keep (fun s : State => s.sec)] | rw [guarded_keep (fun s : State => s.sec)])
    all_goals first | rfl | (simp; done) | exact barrierArena_keep (fun s : State => s.sec) _ _ _ _ (fun _ _ => rfl) ‹_›
  · unfold coverage; (try dsimp only); repeat' (first | (intro _) | split | rw [foldl_keep (fun s : State => s.fw)] | rw [foldl_keep (fun x : List Edge × State => x.2.fw)] | rw [onDown_keep (fun s : State => s.fw)] | rw [onUp_keep (fun s : State => s.fw)] | rw [orElse_keep (fun s : State => s.fw)] | rw [guarded_keep (fun s : State => s.fw)])
    all_goals first | rfl | (simp; done) | exact barrierArena_keep (fun s : State => s.fw) _ _ _ _ (fun _ _ => rfl) ‹_›
@[simp] theorem settleGround_frame (s : State) :
    (settleGround s).pending = s.pending ∧ (settleGround s).free = s.free ∧ (settleGround s).id = s.id ∧
    (settleGround s).modes = s.modes ∧ (settleGround s).regs = s.regs ∧ (settleGround s).clk = s.clk ∧ (settleGround
    s).barr = s.barr ∧ (settleGround s).chain = s.chain ∧ (settleGround s).pkt = s.pkt ∧ (settleGround s).out =
    s.out ∧ (settleGround s).sense = s.sense ∧ (settleGround s).loop = s.loop ∧ (settleGround s).gnss = s.gnss ∧
    (settleGround s).canA = s.canA ∧ (settleGround s).canB = s.canB ∧ (settleGround s).svc = s.svc ∧ (settleGround
    s).pwr = s.pwr ∧ (settleGround s).sec = s.sec ∧ (settleGround s).ev = s.ev := by
  simp [settleGround]
@[simp] theorem takeMotion_frame (s : State) :
    (takeMotion s).pending = s.pending ∧ (takeMotion s).free = s.free ∧ (takeMotion s).id = s.id ∧ (takeMotion
    s).modes = s.modes ∧ (takeMotion s).regs = s.regs ∧ (takeMotion s).clk = s.clk ∧ (takeMotion s).barr = s.barr ∧
    (takeMotion s).chain = s.chain ∧ (takeMotion s).pkt = s.pkt ∧ (takeMotion s).out = s.out ∧ (takeMotion s).sense
    = s.sense ∧ (takeMotion s).loop = s.loop ∧ (takeMotion s).gnss = s.gnss ∧ (takeMotion s).canA = s.canA ∧
    (takeMotion s).canB = s.canB ∧ (takeMotion s).svc = s.svc ∧ (takeMotion s).pwr = s.pwr ∧ (takeMotion s).sec =
    s.sec ∧ (takeMotion s).ev = s.ev := by
  simp [takeMotion]
@[simp] theorem takeTarget_frame (p : Pred) (s : State) :
    (takeTarget p s).pending = s.pending ∧ (takeTarget p s).free = s.free ∧ (takeTarget p s).id = s.id ∧ (takeTarget
    p s).modes = s.modes ∧ (takeTarget p s).regs = s.regs ∧ (takeTarget p s).clk = s.clk ∧ (takeTarget p s).barr =
    s.barr ∧ (takeTarget p s).chain = s.chain ∧ (takeTarget p s).pkt = s.pkt ∧ (takeTarget p s).out = s.out ∧
    (takeTarget p s).sense = s.sense ∧ (takeTarget p s).loop = s.loop ∧ (takeTarget p s).gnss = s.gnss ∧ (takeTarget
    p s).canA = s.canA ∧ (takeTarget p s).canB = s.canB ∧ (takeTarget p s).svc = s.svc ∧ (takeTarget p s).pwr =
    s.pwr ∧ (takeTarget p s).sec = s.sec ∧ (takeTarget p s).fw = s.fw ∧ (takeTarget p s).ev = s.ev := by simp [takeTarget]
@[simp] theorem missInClay_frame (u : Nat) (s : State) :
    (missInClay u s).pending = s.pending ∧ (missInClay u s).free = s.free ∧ (missInClay u s).id = s.id ∧ (missInClay
    u s).modes = s.modes ∧ (missInClay u s).regs = s.regs ∧ (missInClay u s).clk = s.clk ∧ (missInClay u s).barr =
    s.barr ∧ (missInClay u s).chain = s.chain ∧ (missInClay u s).pkt = s.pkt ∧ (missInClay u s).out = s.out ∧
    (missInClay u s).sense = s.sense ∧ (missInClay u s).loop = s.loop ∧ (missInClay u s).gnss = s.gnss ∧ (missInClay
    u s).canA = s.canA ∧ (missInClay u s).canB = s.canB ∧ (missInClay u s).svc = s.svc ∧ (missInClay u s).pwr =
    s.pwr ∧ (missInClay u s).sec = s.sec ∧ (missInClay u s).ev = s.ev := by simp [missInClay]
@[simp] theorem bridge_frame (on : Bool) (mask : Word) (anchor : Frame48) (s : State) :
    (bridge on mask anchor s).pending = s.pending ∧ (bridge on mask anchor s).free = s.free ∧ (bridge on mask anchor
    s).id = s.id ∧ (bridge on mask anchor s).modes = s.modes ∧ (bridge on mask anchor s).regs = s.regs ∧ (bridge on
    mask anchor s).clk = s.clk ∧ (bridge on mask anchor s).barr = s.barr ∧ (bridge on mask anchor s).chain = s.chain
    ∧ (bridge on mask anchor s).pkt = s.pkt ∧ (bridge on mask anchor s).out = s.out ∧ (bridge on mask anchor
    s).sense = s.sense ∧ (bridge on mask anchor s).loop = s.loop ∧ (bridge on mask anchor s).gnss = s.gnss ∧ (bridge
    on mask anchor s).canA = s.canA ∧ (bridge on mask anchor s).canB = s.canB ∧ (bridge on mask anchor s).svc =
    s.svc ∧ (bridge on mask anchor s).pwr = s.pwr ∧ (bridge on mask anchor s).sec = s.sec ∧ (bridge on mask anchor
    s).fw = s.fw ∧ (bridge on mask anchor s).ev = s.ev := by
  refine ⟨?_, ?_, ?_, ?_, ?_, ?_, ?_, ?_, ?_, ?_, ?_, ?_, ?_, ?_, ?_, ?_, ?_, ?_, ?_, ?_⟩
  · first
    | rfl
    | (simp [bridge]; done)
    | (unfold bridge; dsimp only; (repeat' split) <;> (first | (simp; done) | (rw [foldl_keep (fun s : State => s.pending)]; · simp; · intro s a; (try dsimp only); (repeat' split) <;> simp; done)))
    | (unfold bridge; rw [foldl_keep (fun x : SetMasks × State => x.2.pending)]; intro p n; dsimp only; (repeat' split) <;> simp; done)
    | (unfold bridge; rw [onDown_keep (fun s : State => s.pending)] <;> intros <;> simp; done)
    | (unfold bridge; rw [onUp_keep (fun s : State => s.pending)] <;> intros <;> simp; done)
  · first
    | rfl
    | (simp [bridge]; done)
    | (unfold bridge; dsimp only; (repeat' split) <;> (first | (simp; done) | (rw [foldl_keep (fun s : State => s.free)]; · simp; · intro s a; (try dsimp only); (repeat' split) <;> simp; done)))
    | (unfold bridge; rw [foldl_keep (fun x : SetMasks × State => x.2.free)]; intro p n; dsimp only; (repeat' split) <;> simp; done)
    | (unfold bridge; rw [onDown_keep (fun s : State => s.free)] <;> intros <;> simp; done)
    | (unfold bridge; rw [onUp_keep (fun s : State => s.free)] <;> intros <;> simp; done)
  · first
    | rfl
    | (simp [bridge]; done)
    | (unfold bridge; dsimp only; (repeat' split) <;> (first | (simp; done) | (rw [foldl_keep (fun s : State => s.id)]; · simp; · intro s a; (try dsimp only); (repeat' split) <;> simp; done)))
    | (unfold bridge; rw [foldl_keep (fun x : SetMasks × State => x.2.id)]; intro p n; dsimp only; (repeat' split) <;> simp; done)
    | (unfold bridge; rw [onDown_keep (fun s : State => s.id)] <;> intros <;> simp; done)
    | (unfold bridge; rw [onUp_keep (fun s : State => s.id)] <;> intros <;> simp; done)
  · first
    | rfl
    | (simp [bridge]; done)
    | (unfold bridge; dsimp only; (repeat' split) <;> (first | (simp; done) | (rw [foldl_keep (fun s : State => s.modes)]; · simp; · intro s a; (try dsimp only); (repeat' split) <;> simp; done)))
    | (unfold bridge; rw [foldl_keep (fun x : SetMasks × State => x.2.modes)]; intro p n; dsimp only; (repeat' split) <;> simp; done)
    | (unfold bridge; rw [onDown_keep (fun s : State => s.modes)] <;> intros <;> simp; done)
    | (unfold bridge; rw [onUp_keep (fun s : State => s.modes)] <;> intros <;> simp; done)
  · first
    | rfl
    | (simp [bridge]; done)
    | (unfold bridge; dsimp only; (repeat' split) <;> (first | (simp; done) | (rw [foldl_keep (fun s : State => s.regs)]; · simp; · intro s a; (try dsimp only); (repeat' split) <;> simp; done)))
    | (unfold bridge; rw [foldl_keep (fun x : SetMasks × State => x.2.regs)]; intro p n; dsimp only; (repeat' split) <;> simp; done)
    | (unfold bridge; rw [onDown_keep (fun s : State => s.regs)] <;> intros <;> simp; done)
    | (unfold bridge; rw [onUp_keep (fun s : State => s.regs)] <;> intros <;> simp; done)
  · first
    | rfl
    | (simp [bridge]; done)
    | (unfold bridge; dsimp only; (repeat' split) <;> (first | (simp; done) | (rw [foldl_keep (fun s : State => s.clk)]; · simp; · intro s a; (try dsimp only); (repeat' split) <;> simp; done)))
    | (unfold bridge; rw [foldl_keep (fun x : SetMasks × State => x.2.clk)]; intro p n; dsimp only; (repeat' split) <;> simp; done)
    | (unfold bridge; rw [onDown_keep (fun s : State => s.clk)] <;> intros <;> simp; done)
    | (unfold bridge; rw [onUp_keep (fun s : State => s.clk)] <;> intros <;> simp; done)
  · first
    | rfl
    | (simp [bridge]; done)
    | (unfold bridge; dsimp only; (repeat' split) <;> (first | (simp; done) | (rw [foldl_keep (fun s : State => s.barr)]; · simp; · intro s a; (try dsimp only); (repeat' split) <;> simp; done)))
    | (unfold bridge; rw [foldl_keep (fun x : SetMasks × State => x.2.barr)]; intro p n; dsimp only; (repeat' split) <;> simp; done)
    | (unfold bridge; rw [onDown_keep (fun s : State => s.barr)] <;> intros <;> simp; done)
    | (unfold bridge; rw [onUp_keep (fun s : State => s.barr)] <;> intros <;> simp; done)
  · first
    | rfl
    | (simp [bridge]; done)
    | (unfold bridge; dsimp only; (repeat' split) <;> (first | (simp; done) | (rw [foldl_keep (fun s : State => s.chain)]; · simp; · intro s a; (try dsimp only); (repeat' split) <;> simp; done)))
    | (unfold bridge; rw [foldl_keep (fun x : SetMasks × State => x.2.chain)]; intro p n; dsimp only; (repeat' split) <;> simp; done)
    | (unfold bridge; rw [onDown_keep (fun s : State => s.chain)] <;> intros <;> simp; done)
    | (unfold bridge; rw [onUp_keep (fun s : State => s.chain)] <;> intros <;> simp; done)
  · first
    | rfl
    | (simp [bridge]; done)
    | (unfold bridge; dsimp only; (repeat' split) <;> (first | (simp; done) | (rw [foldl_keep (fun s : State => s.pkt)]; · simp; · intro s a; (try dsimp only); (repeat' split) <;> simp; done)))
    | (unfold bridge; rw [foldl_keep (fun x : SetMasks × State => x.2.pkt)]; intro p n; dsimp only; (repeat' split) <;> simp; done)
    | (unfold bridge; rw [onDown_keep (fun s : State => s.pkt)] <;> intros <;> simp; done)
    | (unfold bridge; rw [onUp_keep (fun s : State => s.pkt)] <;> intros <;> simp; done)
  · first
    | rfl
    | (simp [bridge]; done)
    | (unfold bridge; dsimp only; (repeat' split) <;> (first | (simp; done) | (rw [foldl_keep (fun s : State => s.out)]; · simp; · intro s a; (try dsimp only); (repeat' split) <;> simp; done)))
    | (unfold bridge; rw [foldl_keep (fun x : SetMasks × State => x.2.out)]; intro p n; dsimp only; (repeat' split) <;> simp; done)
    | (unfold bridge; rw [onDown_keep (fun s : State => s.out)] <;> intros <;> simp; done)
    | (unfold bridge; rw [onUp_keep (fun s : State => s.out)] <;> intros <;> simp; done)
  · first
    | rfl
    | (simp [bridge]; done)
    | (unfold bridge; dsimp only; (repeat' split) <;> (first | (simp; done) | (rw [foldl_keep (fun s : State => s.sense)]; · simp; · intro s a; (try dsimp only); (repeat' split) <;> simp; done)))
    | (unfold bridge; rw [foldl_keep (fun x : SetMasks × State => x.2.sense)]; intro p n; dsimp only; (repeat' split) <;> simp; done)
    | (unfold bridge; rw [onDown_keep (fun s : State => s.sense)] <;> intros <;> simp; done)
    | (unfold bridge; rw [onUp_keep (fun s : State => s.sense)] <;> intros <;> simp; done)
  · first
    | rfl
    | (simp [bridge]; done)
    | (unfold bridge; dsimp only; (repeat' split) <;> (first | (simp; done) | (rw [foldl_keep (fun s : State => s.loop)]; · simp; · intro s a; (try dsimp only); (repeat' split) <;> simp; done)))
    | (unfold bridge; rw [foldl_keep (fun x : SetMasks × State => x.2.loop)]; intro p n; dsimp only; (repeat' split) <;> simp; done)
    | (unfold bridge; rw [onDown_keep (fun s : State => s.loop)] <;> intros <;> simp; done)
    | (unfold bridge; rw [onUp_keep (fun s : State => s.loop)] <;> intros <;> simp; done)
  · first
    | rfl
    | (simp [bridge]; done)
    | (unfold bridge; dsimp only; (repeat' split) <;> (first | (simp; done) | (rw [foldl_keep (fun s : State => s.gnss)]; · simp; · intro s a; (try dsimp only); (repeat' split) <;> simp; done)))
    | (unfold bridge; rw [foldl_keep (fun x : SetMasks × State => x.2.gnss)]; intro p n; dsimp only; (repeat' split) <;> simp; done)
    | (unfold bridge; rw [onDown_keep (fun s : State => s.gnss)] <;> intros <;> simp; done)
    | (unfold bridge; rw [onUp_keep (fun s : State => s.gnss)] <;> intros <;> simp; done)
  · first
    | rfl
    | (simp [bridge]; done)
    | (unfold bridge; dsimp only; (repeat' split) <;> (first | (simp; done) | (rw [foldl_keep (fun s : State => s.canA)]; · simp; · intro s a; (try dsimp only); (repeat' split) <;> simp; done)))
    | (unfold bridge; rw [foldl_keep (fun x : SetMasks × State => x.2.canA)]; intro p n; dsimp only; (repeat' split) <;> simp; done)
    | (unfold bridge; rw [onDown_keep (fun s : State => s.canA)] <;> intros <;> simp; done)
    | (unfold bridge; rw [onUp_keep (fun s : State => s.canA)] <;> intros <;> simp; done)
  · first
    | rfl
    | (simp [bridge]; done)
    | (unfold bridge; dsimp only; (repeat' split) <;> (first | (simp; done) | (rw [foldl_keep (fun s : State => s.canB)]; · simp; · intro s a; (try dsimp only); (repeat' split) <;> simp; done)))
    | (unfold bridge; rw [foldl_keep (fun x : SetMasks × State => x.2.canB)]; intro p n; dsimp only; (repeat' split) <;> simp; done)
    | (unfold bridge; rw [onDown_keep (fun s : State => s.canB)] <;> intros <;> simp; done)
    | (unfold bridge; rw [onUp_keep (fun s : State => s.canB)] <;> intros <;> simp; done)
  · first
    | rfl
    | (simp [bridge]; done)
    | (unfold bridge; dsimp only; (repeat' split) <;> (first | (simp; done) | (rw [foldl_keep (fun s : State => s.svc)]; · simp; · intro s a; (try dsimp only); (repeat' split) <;> simp; done)))
    | (unfold bridge; rw [foldl_keep (fun x : SetMasks × State => x.2.svc)]; intro p n; dsimp only; (repeat' split) <;> simp; done)
    | (unfold bridge; rw [onDown_keep (fun s : State => s.svc)] <;> intros <;> simp; done)
    | (unfold bridge; rw [onUp_keep (fun s : State => s.svc)] <;> intros <;> simp; done)
  · first
    | rfl
    | (simp [bridge]; done)
    | (unfold bridge; dsimp only; (repeat' split) <;> (first | (simp; done) | (rw [foldl_keep (fun s : State => s.pwr)]; · simp; · intro s a; (try dsimp only); (repeat' split) <;> simp; done)))
    | (unfold bridge; rw [foldl_keep (fun x : SetMasks × State => x.2.pwr)]; intro p n; dsimp only; (repeat' split) <;> simp; done)
    | (unfold bridge; rw [onDown_keep (fun s : State => s.pwr)] <;> intros <;> simp; done)
    | (unfold bridge; rw [onUp_keep (fun s : State => s.pwr)] <;> intros <;> simp; done)
  · first
    | rfl
    | (simp [bridge]; done)
    | (unfold bridge; dsimp only; (repeat' split) <;> (first | (simp; done) | (rw [foldl_keep (fun s : State => s.sec)]; · simp; · intro s a; (try dsimp only); (repeat' split) <;> simp; done)))
    | (unfold bridge; rw [foldl_keep (fun x : SetMasks × State => x.2.sec)]; intro p n; dsimp only; (repeat' split) <;> simp; done)
    | (unfold bridge; rw [onDown_keep (fun s : State => s.sec)] <;> intros <;> simp; done)
    | (unfold bridge; rw [onUp_keep (fun s : State => s.sec)] <;> intros <;> simp; done)
  · first
    | rfl
    | (simp [bridge]; done)
    | (unfold bridge; dsimp only; (repeat' split) <;> (first | (simp; done) | (rw [foldl_keep (fun s : State => s.fw)]; · simp; · intro s a; (try dsimp only); (repeat' split) <;> simp; done)))
    | (unfold bridge; rw [foldl_keep (fun x : SetMasks × State => x.2.fw)]; intro p n; dsimp only; (repeat' split) <;> simp; done)
    | (unfold bridge; rw [onDown_keep (fun s : State => s.fw)] <;> intros <;> simp; done)
    | (unfold bridge; rw [onUp_keep (fun s : State => s.fw)] <;> intros <;> simp; done)
  · first
    | rfl
    | (simp [bridge]; done)
    | (unfold bridge; dsimp only; (repeat' split) <;> (first | (simp; done) | (rw [foldl_keep (fun s : State => s.ev)]; · simp; · intro s a; (try dsimp only); (repeat' split) <;> simp; done)))
    | (unfold bridge; rw [foldl_keep (fun x : SetMasks × State => x.2.ev)]; intro p n; dsimp only; (repeat' split) <;> simp; done)
    | (unfold bridge; rw [onDown_keep (fun s : State => s.ev)] <;> intros <;> simp; done)
    | (unfold bridge; rw [onUp_keep (fun s : State => s.ev)] <;> intros <;> simp; done)
@[simp] theorem storeRec_frame (r : LineRec) (s : State) :
    (storeRec r s).pending = s.pending ∧ (storeRec r s).free = s.free ∧ (storeRec r s).id = s.id ∧ (storeRec r
    s).modes = s.modes ∧ (storeRec r s).regs = s.regs ∧ (storeRec r s).clk = s.clk ∧ (storeRec r s).barr = s.barr ∧
    (storeRec r s).chain = s.chain ∧ (storeRec r s).pkt = s.pkt ∧ (storeRec r s).out = s.out ∧ (storeRec r s).sense
    = s.sense ∧ (storeRec r s).loop = s.loop ∧ (storeRec r s).gnss = s.gnss ∧ (storeRec r s).canA = s.canA ∧
    (storeRec r s).canB = s.canB ∧ (storeRec r s).svc = s.svc ∧ (storeRec r s).pwr = s.pwr ∧ (storeRec r s).sec =
    s.sec ∧ (storeRec r s).fw = s.fw ∧ (storeRec r s).ev = s.ev := by
  unfold storeRec; split <;> simp
@[simp] theorem switchLineAct_frame (q : Request) (s : State) :
    (switchLineAct q s).1.pending = s.pending ∧ (switchLineAct q s).1.free = s.free ∧ (switchLineAct q s).1.id =
    s.id ∧ (switchLineAct q s).1.modes = s.modes ∧ (switchLineAct q s).1.regs = s.regs ∧ (switchLineAct q s).1.clk =
    s.clk ∧ (switchLineAct q s).1.barr = s.barr ∧ (switchLineAct q s).1.chain = s.chain ∧ (switchLineAct q s).1.out
    = s.out ∧ (switchLineAct q s).1.sense = s.sense ∧ (switchLineAct q s).1.loop = s.loop ∧ (switchLineAct q
    s).1.gnss = s.gnss ∧ (switchLineAct q s).1.canA = s.canA ∧ (switchLineAct q s).1.canB = s.canB ∧ (switchLineAct
    q s).1.svc = s.svc ∧ (switchLineAct q s).1.pwr = s.pwr ∧ (switchLineAct q s).1.sec = s.sec ∧ (switchLineAct q
    s).1.fw = s.fw ∧ (switchLineAct q s).1.ev = s.ev := by
  unfold switchLineAct; (repeat' split) <;> simp
@[simp] theorem switchClear_frame (mask : Word) (s : State) :
    (switchClear mask s).pending = s.pending ∧ (switchClear mask s).free = s.free ∧ (switchClear mask s).id = s.id ∧
    (switchClear mask s).modes = s.modes ∧ (switchClear mask s).regs = s.regs ∧ (switchClear mask s).clk = s.clk ∧
    (switchClear mask s).chain = s.chain ∧ (switchClear mask s).pkt = s.pkt ∧ (switchClear mask s).loop = s.loop ∧
    (switchClear mask s).gnss = s.gnss ∧ (switchClear mask s).canA = s.canA ∧ (switchClear mask s).canB = s.canB ∧
    (switchClear mask s).svc = s.svc ∧ (switchClear mask s).pwr = s.pwr ∧ (switchClear mask s).sec = s.sec := by simp [switchClear]
@[simp] theorem tcSection_frame (peers : List PeerLook) (s : State) (e : Nat × BitVec 16 × Word) :
    (tcSection peers s e).pending = s.pending ∧ (tcSection peers s e).free = s.free ∧ (tcSection peers s e).id =
    s.id ∧ (tcSection peers s e).modes = s.modes ∧ (tcSection peers s e).regs = s.regs ∧ (tcSection peers s e).clk =
    s.clk ∧ (tcSection peers s e).barr = s.barr ∧ (tcSection peers s e).chain = s.chain ∧ (tcSection peers s e).pkt
    = s.pkt ∧ (tcSection peers s e).out = s.out ∧ (tcSection peers s e).sense = s.sense ∧ (tcSection peers s e).loop
    = s.loop ∧ (tcSection peers s e).gnss = s.gnss ∧ (tcSection peers s e).canB = s.canB ∧ (tcSection peers s e).svc
    = s.svc ∧ (tcSection peers s e).pwr = s.pwr ∧ (tcSection peers s e).sec = s.sec ∧ (tcSection peers s e).fw =
    s.fw ∧ (tcSection peers s e).ev = s.ev := by
  simp [tcSection]
@[simp] theorem tcConnect_frame (s : State) :
    (tcConnect s).pending = s.pending ∧ (tcConnect s).free = s.free ∧ (tcConnect s).id = s.id ∧ (tcConnect s).modes
    = s.modes ∧ (tcConnect s).regs = s.regs ∧ (tcConnect s).clk = s.clk ∧ (tcConnect s).barr = s.barr ∧ (tcConnect
    s).chain = s.chain ∧ (tcConnect s).pkt = s.pkt ∧ (tcConnect s).out = s.out ∧ (tcConnect s).sense = s.sense ∧
    (tcConnect s).loop = s.loop ∧ (tcConnect s).gnss = s.gnss ∧ (tcConnect s).canB = s.canB ∧ (tcConnect s).svc =
    s.svc ∧ (tcConnect s).pwr = s.pwr ∧ (tcConnect s).sec = s.sec ∧ (tcConnect s).fw = s.fw ∧ (tcConnect s).ev =
    s.ev := by
  simp [tcConnect]
@[simp] theorem tcReport_frame (peers : List PeerLook) (s : State) :
    (tcReport peers s).pending = s.pending ∧ (tcReport peers s).free = s.free ∧ (tcReport peers s).id = s.id ∧
    (tcReport peers s).modes = s.modes ∧ (tcReport peers s).regs = s.regs ∧ (tcReport peers s).clk = s.clk ∧
    (tcReport peers s).barr = s.barr ∧ (tcReport peers s).chain = s.chain ∧ (tcReport peers s).pkt = s.pkt ∧
    (tcReport peers s).out = s.out ∧ (tcReport peers s).sense = s.sense ∧ (tcReport peers s).loop = s.loop ∧
    (tcReport peers s).gnss = s.gnss ∧ (tcReport peers s).canB = s.canB ∧ (tcReport peers s).svc = s.svc ∧ (tcReport
    peers s).pwr = s.pwr ∧ (tcReport peers s).sec = s.sec ∧ (tcReport peers s).fw = s.fw ∧ (tcReport peers s).ev =
    s.ev := by simp [tcReport]
@[simp] theorem bridgeSection_frame (k : Fin 256) (on : Bool) (rx : Frame48) (s : State) :
    (bridgeSection k on rx s).pending = s.pending ∧ (bridgeSection k on rx s).id = s.id ∧ (bridgeSection k on rx
    s).modes = s.modes ∧ (bridgeSection k on rx s).regs = s.regs ∧ (bridgeSection k on rx s).clk = s.clk ∧
    (bridgeSection k on rx s).barr = s.barr ∧ (bridgeSection k on rx s).pkt = s.pkt ∧ (bridgeSection k on rx s).out
    = s.out ∧ (bridgeSection k on rx s).sense = s.sense ∧ (bridgeSection k on rx s).loop = s.loop ∧ (bridgeSection k
    on rx s).gnss = s.gnss ∧ (bridgeSection k on rx s).canA = s.canA ∧ (bridgeSection k on rx s).canB = s.canB ∧
    (bridgeSection k on rx s).svc = s.svc ∧ (bridgeSection k on rx s).pwr = s.pwr ∧ (bridgeSection k on rx s).sec =
    s.sec ∧ (bridgeSection k on rx s).fw = s.fw ∧ (bridgeSection k on rx s).ev = s.ev := by
  unfold bridgeSection; dsimp only; (repeat' split) <;> simp
@[simp] theorem bridgeWanted_frame (k : Fin 256) (on : Bool) (rx : Frame48) (s : State) :
    (bridgeWanted k on rx s).pending = s.pending ∧ (bridgeWanted k on rx s).id = s.id ∧ (bridgeWanted k on rx
    s).modes = s.modes ∧ (bridgeWanted k on rx s).regs = s.regs ∧ (bridgeWanted k on rx s).clk = s.clk ∧
    (bridgeWanted k on rx s).barr = s.barr ∧ (bridgeWanted k on rx s).pkt = s.pkt ∧ (bridgeWanted k on rx s).out =
    s.out ∧ (bridgeWanted k on rx s).sense = s.sense ∧ (bridgeWanted k on rx s).loop = s.loop ∧ (bridgeWanted k on
    rx s).gnss = s.gnss ∧ (bridgeWanted k on rx s).canA = s.canA ∧ (bridgeWanted k on rx s).canB = s.canB ∧
    (bridgeWanted k on rx s).svc = s.svc ∧ (bridgeWanted k on rx s).pwr = s.pwr ∧ (bridgeWanted k on rx s).sec =
    s.sec ∧ (bridgeWanted k on rx s).fw = s.fw ∧ (bridgeWanted k on rx s).ev = s.ev := by simp [bridgeWanted]
@[simp] theorem tcSetpoint_frame (k : Fin 256) (on : Bool) (rx : Frame48) (s : State) :
    (tcSetpoint k on rx s).pending = s.pending ∧ (tcSetpoint k on rx s).id = s.id ∧ (tcSetpoint k on rx s).modes =
    s.modes ∧ (tcSetpoint k on rx s).regs = s.regs ∧ (tcSetpoint k on rx s).clk = s.clk ∧ (tcSetpoint k on rx
    s).barr = s.barr ∧ (tcSetpoint k on rx s).pkt = s.pkt ∧ (tcSetpoint k on rx s).out = s.out ∧ (tcSetpoint k on rx
    s).sense = s.sense ∧ (tcSetpoint k on rx s).loop = s.loop ∧ (tcSetpoint k on rx s).gnss = s.gnss ∧ (tcSetpoint k
    on rx s).canA = s.canA ∧ (tcSetpoint k on rx s).canB = s.canB ∧ (tcSetpoint k on rx s).svc = s.svc ∧ (tcSetpoint
    k on rx s).pwr = s.pwr ∧ (tcSetpoint k on rx s).sec = s.sec ∧ (tcSetpoint k on rx s).fw = s.fw ∧ (tcSetpoint k
    on rx s).ev = s.ev := by simp [tcSetpoint]
@[simp] theorem bridgeAfterRelease_frame (s : State) :
    (bridgeAfterRelease s).pending = s.pending ∧ (bridgeAfterRelease s).id = s.id ∧ (bridgeAfterRelease s).modes =
    s.modes ∧ (bridgeAfterRelease s).regs = s.regs ∧ (bridgeAfterRelease s).clk = s.clk ∧ (bridgeAfterRelease
    s).barr = s.barr ∧ (bridgeAfterRelease s).pkt = s.pkt ∧ (bridgeAfterRelease s).out = s.out ∧ (bridgeAfterRelease
    s).sense = s.sense ∧ (bridgeAfterRelease s).loop = s.loop ∧ (bridgeAfterRelease s).gnss = s.gnss ∧
    (bridgeAfterRelease s).canA = s.canA ∧ (bridgeAfterRelease s).canB = s.canB ∧ (bridgeAfterRelease s).svc = s.svc
    ∧ (bridgeAfterRelease s).pwr = s.pwr ∧ (bridgeAfterRelease s).sec = s.sec ∧ (bridgeAfterRelease s).fw = s.fw ∧
    (bridgeAfterRelease s).ev = s.ev := by simp [bridgeAfterRelease]

end Sys2Proof.Laws
end

