-- ==== Sys2Proof/Laws/Events.lean ====
section
/-! SUPPORT. Events, Clay and the link: what raising an event, entering Clay and losing the link leave. -/

namespace Sys2Proof.Laws

open Sys2Proof.Machine Sys2Proof.Safety

theorem any_modFirst {α} (p : α → Bool) (f : α → α) (h : ∀ x, p x = true → p (f x) = true) (l : List α) (hl : l.any p = true) : (modFirst p f l).any p = true := by
  induction l with
  | nil => simp at hl
  | cons a l ih =>
    unfold modFirst; split
    · simp [h _ ‹_›]
    · rw [List.any_cons] at hl ⊢
      rw [Bool.or_eq_true] at hl ⊢
      rcases hl with hl | hl
      · exact absurd hl ‹_›
      · exact .inr (ih hl)

/-- A condition noted at the host side has an open record there, while the queue has room. -/
theorem note_any (code : BitVec 16) (sev chan data) (s : State) (h : s.ev.host.length < 64) :
    (note .host code sev chan data s).ev.host.any (sameSource code chan) = true := by
  unfold note; simp only
  split
  · apply any_modFirst _ _ _ _ (by assumption)
    intro x hx; simpa [sameSource] using hx
  · simp only [startHandling, enqueue]
    simp [h, sameSource, freshRec]
    split <;> simp

/-- A condition noted at the field side has an open record there, while the queue has room. -/
theorem note_anyF (code : BitVec 16) (sev chan data) (s : State) (h : s.ev.field.length < 64) :
    (note .field code sev chan data s).ev.field.any (sameSource code chan) = true := by
  unfold note; simp only
  split
  · have := any_modFirst (sameSource code chan)
      (fun (x : EventRec) => { x with count := satInc x.count, last := (tbOf .field { s with ev := { s.ev with
        epochOcc := if s.ev.epochOcc.contains (Side.field, code, chan) then s.ev.epochOcc
          else s.ev.epochOcc ++ [(Side.field, code, chan)] } }).setWidth 32, data := (data ++ be 8 0).take 8 })
      (by intro x hx; simpa [sameSource] using hx) _ (by assumption)
    split
    · simp only [sendEvent]; exact this
    · exact this
  · simp only [startHandling, enqueue]
    simp [h, sameSource, freshRec, sendEvent]
    split <;> simp

/-- Entering Clay sets Clay and the cause, and latches the cause that started it (Table 01-8). -/
@[simp] theorem modes_enterClay (c : Fin 11) (s : State) : (enterClay c s).modes =
    { s.modes with clay := true, active := s.modes.active ||| cause c,
                   latched := if s.modes.clay then s.modes.latched ||| cause c else s.modes.active ||| cause c } := by
  unfold enterClay; split <;> simp_all [clayEntry]

/-- After the link is lost it is down, and the field side has no clock. -/
theorem dropLink_link (s : State) : (dropLink s).barr.link = .down ∧ (dropLink s).barr.fieldClock = false := by
  unfold dropLink; simp only []
  constructor <;> (rw [foldl_keep (fun s : State => s.barr), foldl_keep (fun s : State => s.barr)] <;> (try intro s a) <;> (try unfold loseTxn) <;> (try split) <;> simp)

/-- With no frame left in RG4 and no GO waiting, catching up does nothing. -/
theorem catchUp_idle (s : State) (h : s.chain.rg4 = []) (h2 : s.svc.goWaits = false) : catchUp s = s := by
  simp [catchUp, serveEntry, goFirst, nextEntry, h, h2]

end Sys2Proof.Laws
end

