-- ==== Sys2Proof/Laws/Requests.lean ====
section
/-! SUPPORT. Requests: what serving an accepted request comes down to. -/
open Sys2Proof.Machine Sys2Proof.Safety
namespace Sys2Proof.Laws
theorem taken_chain (q : Request) (s : State) : (taken q s).chain = s.chain := by
  unfold taken countAccepted remember; simp only; split <;> rfl
theorem taken_modes (q : Request) (s : State) : (taken q s).modes = s.modes := by
  unfold taken countAccepted remember; simp only; split <;> rfl
theorem taken_sec (q : Request) (s : State) : (taken q s).sec = s.sec := by
  unfold taken countAccepted remember; simp only; split <;> rfl
theorem taken_pwr (q : Request) (s : State) : (taken q s).pwr = s.pwr := by
  unfold taken countAccepted remember; simp only; split <;> rfl
theorem taken_clk (q : Request) (s : State) : (taken q s).clk = s.clk := by
  unfold taken countAccepted remember; simp only; split <;> rfl
theorem taken_regs (q : Request) (s : State) : (taken q s).regs = s.regs := by
  unfold taken countAccepted remember; simp only; split <;> rfl

theorem inside (v : Via) (h : onChain v = true) : fromOutside v = false := by
  match v, h with
  | .chain _, _ => rfl
  | .headHost, _ => rfl
  | .planner, _ => rfl

theorem serve_accepted (o : Op) (q : Request) (s : State) (h : Accepted o.code q s)
    (hl : o.life q (taken q s) = none) (hc : o.check q (taken q s) = none) :
    serve o q s =
      (let r := o.act q (taken q s)
       let t := match r.2 with | some a => reply q a r.1 | none => r.1
       if ((r.2.map (·.status)).getD 0 != 0) = true then t else o.after q t) := by
  obtain ⟨⟨i, hi, hrun, hop, hf, hme, hother, hdup, hm, hmode, hlife, hs, hmust⟩, hh⟩ := h
  rw [hi] at hh; simp only [Option.bind_some] at hh
  have hq : ({ q with pkt := { q.pkt with opcode := BitVec.ofNat 8 o.code } } : Request) = q := by
    rw [← hop]
  have hnb : q.pkt.bcast = false ∨ onChain q.via = true := by
    rcases hme with h | h
    · left; simp [forMe] at h; exact h.1.1
    · right; exact h.2.1
  have hno : notHead q s = false := by
    rcases hme with h | h
    · simp [notHead, h]; intro _ _; simp [forMe] at h; exact h.1.1
    · simp only [notHead, inside q.via h.2.1, Bool.and_false, Bool.false_and]
  have hfo : forOther q s = false := by
    rcases hme with h | h
    · simp [forOther, h]
    · simp only [forOther, inside q.via h.2.1, Bool.and_false, Bool.false_and]
  have hv : vet o q (taken q s) = none := by
    have h1 : checkMode i (taken q s) = none := by
      rw [← hmode]; simp only [checkMode, taken_modes]
    have h2 : checkLife o.code (taken q s) = none := by
      rw [← hlife]; simp only [checkLife, taken_sec]
    have h3 : (if (!q.parts.isEmpty || q.pkt.more) && !(opInfo o.code).any (·.m) then refuse 0x22 0x12 else none) = none := by
      rw [if_neg]; rw [hi]
      rcases hm with ⟨a, b⟩ | hm
      · simp [a, b]
      · simp [hm]
    have h4 : (if q.pkt.bcast && !i.b then refuse 0x21 0x20 else none) = none := by
      rw [if_neg]
      rcases hme with h | h
      · simp [forMe] at h; simp [h.1.1]
      · simp [h.2.2]
    have h5 : checkSched i q (taken q s) = none := by
      simp [checkSched, hs, hmust]
    unfold vet
    rw [h3, hi]; simp only [h1, h2, hl, h4, hc, h5]; rfl
  have hpass : ∀ u, passesOn q u = false := by
    intro u
    rcases hnb with h | h <;> simp [passesOn, h]
  have howe : ∀ u, owe q u = u := fun u => by simp [owe, hpass]
  have hp : perform o q (taken q s) = o.act q (taken q s) := by
    unfold perform
    have : checkHead i (taken q s) = none := by
      rw [← hh]; unfold checkHead isHead islandHead; rw [taken_chain]
    rw [hi]; simp [this]
  have hproc : process o q (taken q s) = actOn o q (taken q s) := by
    unfold process; rw [hv]; simp only
    rcases hnb with h | h <;> simp [h]
  unfold serve; simp only [hq, hrun, if_true]
  unfold takeIn
  rw [hf]; simp only [hother, hno, hfo, hdup]
  show process o q (taken q s) = _
  rw [hproc]; unfold actOn actNow; simp only [hs, hp, hpass, howe]
  generalize o.act q (taken q s) = r
  obtain ⟨u, a⟩ := r
  cases a <;> simp [hs]

end Sys2Proof.Laws
end

