-- ==== Sys2Proof/Laws/Stores.lean ====
section
/-! SUPPORT. The sparse stores: reading after writing, and every store operation keeps the canonical form. -/

namespace Sys2Proof.Laws

open Sys2Proof.Machine

theorem allAbove_mono {α : Type} {j k : Nat} (h : j ≤ k) (m : Sparse α) (hm : allAbove k m = true) :
    allAbove j m = true := by
  induction m with
  | nil => rfl
  | cons a m ih =>
    simp only [allAbove, Bool.and_eq_true, decide_eq_true_eq] at hm ⊢
    exact ⟨by omega, ih hm.2⟩

/-- A key at or below every listed key reads as unlisted. -/
theorem look_below {α : Type} (d : Nat → α) {j k : Nat} (h : k ≤ j) (m : Sparse α) (hm : allAbove j m = true) :
    look d m k = d k := by
  induction m with
  | nil => rfl
  | cons a m ih =>
    simp only [allAbove, Bool.and_eq_true, decide_eq_true_eq] at hm
    rw [look, if_neg (by omega), ih hm.2]

theorem store_above {α : Type} [DecidableEq α] (d : Nat → α) {j k : Nat} (v : α) (h : j < k) (m : Sparse α)
    (hm : allAbove j m = true) : allAbove j (store d m k v) = true := by
  induction m with
  | nil => unfold store; split <;> simp [allAbove, h]
  | cons a m ih =>
    simp only [allAbove, Bool.and_eq_true, decide_eq_true_eq] at hm
    unfold store
    (repeat' split) <;> simp [allAbove, h, hm, ih]

/-- A write keeps the canonical form. -/
theorem store_canon {α : Type} [DecidableEq α] (d : Nat → α) (k : Nat) (v : α) (m : Sparse α)
    (hm : canon d m = true) : canon d (store d m k v) = true := by
  induction m with
  | nil => unfold store; split <;> simp_all [canon, allAbove]
  | cons a m ih =>
    have h := hm
    simp only [canon, Bool.and_eq_true, decide_eq_true_eq] at h
    unfold store
    split
    · next hlt =>
      split
      · exact hm
      · next hv =>
        simp [canon, allAbove, hv, h, hlt, allAbove_mono (Nat.le_of_lt hlt) m h.1.2]
    · split
      · next hk =>
        split
        · exact h.2
        · next hv => subst hk; simp [canon, hv, h]
      · next h1 h2 => simp [canon, h, ih h.2, store_above d v (by omega : a.1 < k) m h.1.2]

/-- The value written is the value read back. -/
theorem look_store_same {α : Type} [DecidableEq α] (d : Nat → α) (k : Nat) (v : α) (m : Sparse α)
    (hm : canon d m = true) : look d (store d m k v) k = v := by
  induction m with
  | nil => unfold store; split <;> simp_all [look]
  | cons a m ih =>
    simp only [canon, Bool.and_eq_true, decide_eq_true_eq] at hm
    unfold store
    split
    · next hlt =>
      split
      · next hv =>
        rw [look, if_neg (by omega), look_below d (Nat.le_of_lt hlt) m hm.1.2, hv]
      · simp [look]
    · split
      · next hk =>
        split
        · next hv => rw [look_below d (by omega) m hm.1.2, hv]
        · simp [look, hk]
      · next h1 h2 => rw [look, if_neg h2, ih hm.2]

/-- A write leaves every other key alone. -/
theorem look_store_other {α : Type} [DecidableEq α] (d : Nat → α) (k : Nat) (v : α) (m : Sparse α) (j : Nat)
    (h : j ≠ k) : look d (store d m k v) j = look d m j := by
  induction m with
  | nil => unfold store; split <;> simp [look, h]
  | cons a m ih =>
    unfold store
    split
    · split <;> simp [look, h]
    · split
      · next hk => split <;> simp [look, ← hk, h]
      · simp [look, ih]

theorem writeBytes_canon (d : Nat → Byte) (bs : List Byte) (m : Memory) (a : Nat) (hm : Memory.wf d m) :
    Memory.wf d (writeBytes d m a bs) := by
  induction bs generalizing m a with
  | nil => exact hm
  | cons b bs ih => exact ih _ _ (store_canon d a b m hm)

theorem look_writeBytes_other (d : Nat → Byte) (bs : List Byte) (m : Memory) (a j : Nat)
    (h : j < a ∨ a + bs.length ≤ j) : look d (writeBytes d m a bs) j = look d m j := by
  induction bs generalizing m a with
  | nil => rfl
  | cons b bs ih =>
    simp only [List.length_cons] at h
    rw [writeBytes, ih _ _ (by omega), look_store_other d a b m j (by omega)]

theorem readBytes_writeBytes (d : Nat → Byte) (bs : List Byte) (m : Memory) (a : Nat) (hm : Memory.wf d m) :
    readBytes d (writeBytes d m a bs) a bs.length = bs := by
  induction bs generalizing m a with
  | nil => rfl
  | cons b bs ih =>
    rw [List.length_cons, readBytes, writeBytes, ih _ _ (store_canon d a b m hm),
      look_writeBytes_other d bs _ _ _ (by omega), look_store_same d a b m hm]

theorem setReg_canon (a : Nat) (v : Word) (s : State) (h : canon (regReset s.id.variant) s.regs = true) :
    canon (regReset (setReg a v s).id.variant) (setReg a v s).regs = true :=
  store_canon _ a v _ h

theorem reg_setReg_same (a : Nat) (v : Word) (s : State) (h : canon (regReset s.id.variant) s.regs = true) :
    reg (setReg a v s) a = v := look_store_same _ a v _ h

theorem reg_setReg_other (a b : Nat) (v : Word) (s : State) (h : b ≠ a) :
    reg (setReg a v s) b = reg s b := look_store_other _ a v _ b h

end Sys2Proof.Laws
end

