-- ==== Sys2Proof/WellFormed.lean ====
section
/-! DEFINITION. Well-formed commands: operands within the sizes the spec gives packets, frames, cells and lists.
What a command's operands mean is checked where it acts; a well-formed command may still be refused. -/

namespace Sys2Proof

/-- A packet carries at most 232 payload bytes (R122, R129). -/
def Packet.wf (p : Packet) : Bool := decide (p.payload.length ≤ 232)

/-- A request: its packet, and 2 to 16 parts where it has several (R129). -/
def Request.wf (q : Request) : Bool :=
  q.pkt.wf && (q.parts.isEmpty || decide (2 ≤ q.parts.length)) && decide (q.parts.length ≤ 16) &&
  q.parts.all (fun p => decide (p.length ≤ 232))

/-- A chain frame's LEN is 0 to 252 (Table 04-1). -/
def ChainFrame.wf (f : ChainFrame) : Bool := decide (f.payload.length ≤ 252)

/-- The lengths of a CAN FD payload (ISO 11898-1, R308). -/
def fdLengths : List Nat := [0, 1, 2, 3, 4, 5, 6, 7, 8, 12, 16, 20, 24, 32, 48, 64]

/-- A CAN frame: a length its format has, and an identifier of 11 bits unless extended (R308, Table 12-4). -/
def CanFrame.wf (f : CanFrame) : Bool :=
  (if f.fdf then fdLengths.contains f.data.length && !f.rtr else decide (f.data.length ≤ 8) && !f.brs) &&
  (f.ide || decide (f.id.toNat < 2048))

/-- A LOOP_COEF cell: 1 to 4 words from a first index on, or none with SWAP (Table 10-4). -/
def CoefCell.wf (c : CoefCell) : Bool :=
  if c.swap then c.words.isEmpty
  else decide (1 ≤ c.words.length) && decide (c.words.length ≤ 4) && decide (c.first.toNat + c.words.length ≤ 17)

/-- A field record of an EVENT message: eight bytes of DATA (Table 17-1, R433). -/
def EventRec.wf (r : EventRec) : Bool := decide (r.data.length = 8) && r.side == .field

/-- The operands of a command have the sizes the spec gives them. -/
def Instr.wf : Instr → Bool
  | .epochEdge peers _ => decide (peers.length ≤ 256)
  | .barrierLinkUp latency => decide (416 ≤ latency.val) && decide (latency.val ≤ 480)
  | .cfgRead _ _ count => decide (1 ≤ count.toNat) && decide (count.toNat ≤ 4)
  | .cfgData _ _ _ values => decide (values.length ≤ 4)
  | .frameForward _ frame => frame.wf
  | .cmdFrame frame => frame.wf
  | .rplFrame frame => frame.wf
  | .evtFrame frame => frame.wf
  | .canTpMessage _ _ _ _ bytes => decide (bytes.length ≤ 1785)
  | .canFdSegment _ _ data => decide (data.length ≤ 64)
  | .schedEdge _ edges => decide (1 ≤ edges.length) && decide (edges.length ≤ 2)
  | .edgeAck acks => decide (1 ≤ acks.length) && decide (acks.length ≤ 5)
  | .lampMeasure _ samples => decide (samples.length = 4)
  | .sinUpdate means => decide (means.length = 16)
  | .loopCoefCell cell => cell.wf
  | .coefAck acks => decide (1 ≤ acks.length) && decide (acks.length ≤ 5)
  | .gnssMeasure sigs => decide (sigs.length ≤ 96)
  | .canFrameReceive _ frame => frame.wf
  | .i2cReadTransfer _ count => decide (1 ≤ count)
  | .mbReplyArrive pkt => pkt.wf
  | .fimgChunk _ bytes => decide (bytes.length = 18)
  | .eventMessage r => r.wf
  | .idGet q | .modeSet q | .clayEnter q | .clayRelease q | .reset q | .statusGet q | .cancel q | .enumerate q
  | .chainGet q | .pinSet q | .marlSend q | .tbRead q | .tbRealign q | .ochSet q | .ochTiming q | .ochEdges q
  | .ochClear q | .ochStatus q | .ochFlush q | .switchLine q | .switchClear q | .geometrySet q | .lookaheadSet q
  | .latencyGet q | .latencySeed q | .motionGet q | .sinRead q | .fanRestart q | .loopCoef q | .loopSwap q
  | .loopCtrl q | .loopTest q | .loopRead q | .gnssGet q | .gnssAid q | .rtcmIn q | .snapCapture q | .snapXfer q
  | .snapSolve q | .nmeaGet q | .baselineGet q | .canGet q | .canMode q | .canRecover q | .canSend q | .canCancel q
  | .eventRead q | .eventClose q | .sweepStart q | .sweepResult q | .sweepAbort q | .asappliedRead q | .setRead q
  | .setWrite q | .setCommit q | .setDiscard q | .imgBegin q | .imgData q | .imgVerify q | .imgActivate q
  | .imgInfo q | .secGet q | .dbgNonce q | .dbgUnlock q | .dbgLock q | .lcAdvance q | .pdSet q | .pdGet q
  | .regRead q | .regWrite q => q.wf
  | .cellDetected _ _ | .chargerPhaseChange _ _ _ _ | .coldRelock _ | .dpllLockDetect _ | .clockUngate _
  | .tbCtrlWrite _ _ | .timeFrame _ _ | .timeEchoSend _ | .timeEchoRequest _ _ | .timeEchoAnswer _ _ _
  | .heartbeatSend _ | .heartbeat _ | .timeSync _ | .cellReject _ _ _ | .cfgWrite _ | .cfgResend _
  | .safeReq _ | .barrCntclr _ | .symbolLock _ | .symbolLockLoss _ | .idleSend _ | .idleFrame _ _ | .partnerTimeout _
  | .enumWalkStart _ | .enumStart _ | .enumClaim _ | .enumVerdict _ | .enumEnd _ | .enumDone _ | .marlFrame _
  | .lineEnergyWake _ | .chCntclr _ | .fdSegmentTimeout _ _ | .multipartTimeout _ _ | .pktCntclr _ | .loopStop _
  | .loopRun _ | .loopReset _ | .loopClr _ _ | .snapCaptureEnd _ _ _ | .snapSolveDone _ | .domainTransaction _
  | .registerWrite _ _ _ | .motionUpdate _ | .latencyMeasure _ _ _ _ _ | .tcSetpoint _ _ _ | .schedEdgeResend _
  | .edgeExecute _ | .generatorEdge _ | .periodBoundary _ | .calMeasure _ _ | .overcurrentTrip _ _
  | .shortCircuitTrip _ | .tripInput _ _ | .overtempTrip _ | .blankingEnd _ _ | .inrushEnd _ | .tripRetry _
  | .shortOffEnd _ | .overtempRelease _ | .countingPeriodEnd _ | .peakPhaseEnd _ _ | .holdChopOff _ _
  | .lampOffMeasure _ _ | .ochCntclr _ | .sinEdge _ _ _ _ | .switchClassAccept _ _ | .wireOpenDetect _ | .fanStall _
  | .openLimExpiry _ | .sinCntclr _ | .loopSample _ _ | .loopSwapAct _ | .coefApply _ | .loopCoefResend _
  | .acquisitionStart _ _ _ | .trackingDump _ _ _ _ _ _ | .carrierLock _ | .carrierLockLoss _ | .gnssSolution _
  | .baselineCompute _ | .burstEnd _ | .timeDateMessage _ _ | .gnssCntclr _ | .abrTimeout _ | .canTxStart _
  | .canArbLost _ | .canBusError _ _ _ _ _ | .canFrameSent _ | .canRecoveryDone _ | .canModeApply _ | .canWakeEdge _
  | .canLeaveSleep _ | .addressClaimed _ _ | .commandedAddress _ _ | .moStatRead _ _ | .canCntclr _ _
  | .i2cWriteTransfer _ _ | .svcCntclr _ | .wake _ _ | .fieldWakePulse _ | .dbgSel _ _ | .tapBoundaryScan _
  | .dbgReq _ | .dbgData _ | .secCntclr _ | .fimgDigestReady _ | .eventResend _ | .fevClose _ | .evtCntclr _
  | .disagreeOn _ _ | .disagreeOff _ _ | .disagreeEnd _ | .disconnectHoldExpiry _ _ | .sweepSlotEnd _ _ _ _
  | .captureData _ | .sweepCtrl _ | .holdPeriodStart _ | .tpSessionTimeout _ _ | .lsupRise | .lsupLoss
  | .fsupUndervoltage | .fsupRestart | .fsupLoss | .boot | .keyInFall | .keyInShutdown | .keyInRise | .shutdownRetry
  | .shutdownForce | .cellRetentionLost | .cellRemoved | .ppsPulseEnd | .timeMarkSend | .linkUpRetry | .holdoverLimit
  | .originStep | .tbNowLoRead | .timeFrameInsert | .laneEnable | .linkUpAbandon | .barrierLossHost
  | .barrierLossField | .hostHeartbeatTimeout | .fcoreStall | .oneShotFire | .oneShotRelease | .timeSyncSend
  | .schedWriteAct | .safeReqResend | .ownFrameInsert | .insertWaitExpiry | .enumStallTimeout | .claimResend
  | .islandPolicyTimeout | .duplicateEntryExpiry | .originEntryExpiry | .schedHandover | .schedAct | .deferredServe
  | .loopTestGo | .loopTestAbort | .setCommitDone | .imgEraseDone | .nonceExpiry | .sessionExpiry | .edgeHandover
  | .motionLost | .tcSectionAuto | .operatorWorkEnable | .staggerEnergise | .captureEnd | .measSend | .burstStart
  | .rtcmStale | .antShort | .antOpen | .addressClaimStart | .addrClaimComplete | .requestAddressClaimed
  | .i2cBusError | .i2cStuck | .mbGo | .mbNext | .mbStatRead | .attentionSend | .attentionPulseEnd
  | .attentionWithdraw | .tckWake | .pwrfStatRead | .fcoreHalt | .fcoreResume | .hcoreHalt | .hcoreResume | .tapReset
  | .fimgClear | .fimgCheck | .fimgStart | .eventHandle | .fdiscCtrlOpen | .fdiscCtrlClose | .softStartEnd
  | .timevalidExpiry | .internalHoldUpExhausted | .wakeLogicSupplyLost => true

end Sys2Proof
end

