-- ==== Sys2Proof/Tests/Slice0.lean ====
section
/-! SUPPORT. Tests: the smoke test of WellFormed, worked values of the spec, and for every statement a state and
operands that meet its hypotheses. -/

namespace Sys2Proof.Tests

set_option Elab.async false

open Sys2Proof.Machine Sys2Proof.Safety

/-! ## Requests that are accepted, as a computation -/

def reachesB (code : Nat) (q : Request) (s : State) : Bool :=
  (opInfo code).any fun i => hcoreRuns s && (q.pkt.opcode == BitVec.ofNat 8 code) && (checkFormat q).isNone &&
    (forMe q s || (q.pkt.bcast && onChain q.via && i.b)) && !otherChain q s && (s.pkt.dups.find? (isDup q)).isNone &&
    ((q.parts.isEmpty && !q.pkt.more) || i.m) && (checkMode i s).isNone && (checkLife code s).isNone &&
    !q.pkt.sched && !i.must

theorem reaches_of {code : Nat} {q : Request} {s : State} (h : reachesB code q s = true) : Reaches code q s := by
  unfold reachesB at h
  cases hi : opInfo code with
  | none => simp [hi] at h
  | some i =>
  rw [hi, Option.any_some] at h
  simp only [Bool.and_eq_true, Bool.or_eq_true, Option.isNone_iff_eq_none, beq_iff_eq, Bool.not_eq_true',
    List.isEmpty_iff] at h
  obtain ⟨⟨⟨⟨⟨⟨⟨⟨⟨⟨h1, h2⟩, h3⟩, h4⟩, h5⟩, h6⟩, h7⟩, h8⟩, h9⟩, h10⟩, h11⟩ := h
  refine ⟨i, hi, h1, h2, h3, ?_, h5, h6, h7, h8, h9, h10, h11⟩
  rcases h4 with h | ⟨⟨a, b⟩, c⟩
  · exact .inl h
  · exact .inr ⟨a, b, c⟩

def acceptedB (code : Nat) (q : Request) (s : State) : Bool :=
  reachesB code q s && ((opInfo code).bind fun i => checkHead i s).isNone

theorem accepted_of {code : Nat} {q : Request} {s : State} (h : acceptedB code q s = true) : Accepted code q s := by
  unfold acceptedB at h
  rw [Bool.and_eq_true, Option.isNone_iff_eq_none] at h
  exact ⟨reaches_of h.1, h.2⟩

/-! ## Cells that arrive, as a computation -/

theorem arrivesDown_of {c : Cell} {s : State} (h : (linkUp s && s.barr.fieldClock &&
    (s.barr.hostNext == s.barr.fieldExpect) && (s.barr.rg6.head?.map (·.cell) == some c)) = true) : ArrivesDown c s := by
  simp only [Bool.and_eq_true, beq_iff_eq] at h
  obtain ⟨⟨⟨h1, h2⟩, h3⟩, h4⟩ := h
  cases e : s.barr.rg6 with
  | nil => simp [e] at h4
  | cons q rest => exact ⟨h1, h2, h3, q, rest, e, by simpa [e] using h4⟩

theorem arrivesUp_of {c : Cell} {s : State} (h : (linkUp s && (s.barr.fieldNext == s.barr.hostExpect) &&
    (s.barr.upPart == 0) && !s.barr.upBad && (s.barr.rg7.head?.map (·.cell) == some c)) = true) : ArrivesUp c s := by
  simp only [Bool.and_eq_true, beq_iff_eq, Bool.not_eq_true'] at h
  obtain ⟨⟨⟨⟨h1, h2⟩, h3⟩, h4⟩, h5⟩ := h
  cases e : s.barr.rg7 with
  | nil => simp [e] at h5
  | cons q rest => exact ⟨h1, h2, h3, h4, q, rest, e, by simpa [e] using h5⟩

/-- Cell c is at the front of RG6, or of RG7. -/
def down (c : Cell) (s : State) : State := { s with barr := { s.barr with rg6 := [queued c s] } }
def up (c : Cell) (s : State) : State := { s with barr := { s.barr with rg7 := [queued c s] } }

/-! ## States and requests of the tests -/

/-- A lone node (HEAD, ALONE) at work: Loam, out of Clay, every domain ON, the barrier up. -/
def loam : State := { State.reset with
  modes := { mode := .loam, clay := false, active := 0, latched := 0, booted := true }
  clk := { tree := .running, lock := true, valid := true, tb := 8000000000 }
  barr := { link := .up, static := false, fieldClock := true, replicaLoaded := true, oneShot := false, supervise := true }
  chain := { addrValid := true }
  pwr := { dom := Vector.replicate 18 .on }
  fw := { fcoreRun := true, fimgLoaded := true, fimgValid := true, pairOk := true, pairSeen := true, runningB := some false }
  out := { softStart := false } }

/-- The same node as a member of a chain, at address 3. -/
def member : State := { loam with chain := {
  upLock := true, dnLock := true, upPartner := .node, dnPartner := true, upKnown := true, dnKnown := true
  addrValid := true, addr := 3, hop := 3 } }

/-- The head of a chain with a node below it. -/
def head : State := { loam with chain := {
  dnLock := true, dnPartner := true, upKnown := true, dnKnown := true, addrValid := true } }

def clay (s : State) : State := { s with modes := { s.modes with clay := true, active := 8, latched := 8 } }
def silt (s : State) : State := { s with modes := { s.modes with mode := .silt, clay := true, active := 256 } }
def inSand (s : State) : State := { s with modes := { s.modes with mode := .sand, clay := true, active := 256 } }
def halted (s : State) : State := { s with sec := { s.sec with hHalt := true } }
def linkDown (s : State) : State := { s with
  modes := { s.modes with clay := true, active := 4 }, barr := { s.barr with link := .down, static := true, fieldClock := false } }

/-- A request on the service port for a lone node. -/
def rq (op : Byte) (body : List Byte) : Request :=
  { via := .svc, pkt := { opcode := op, seq := 1, dest := 0, src := 0xFFFE, payload := body } }

/-- A request on the chain for the member. -/
def mq (op : Byte) (body : List Byte) : Request :=
  { via := .chain 0, pkt := { opcode := op, seq := 1, dest := 3, src := 0, payload := body } }

def recA (side : Side) (sev : BitVec 2) : EventRec :=
  { tb := 0, side := side, seq := 7, code := 0x1501, sev := sev, opened := true, chan := 3, count := 1, last := 0, data := List.replicate 8 0 }

/-! ## Every statement's hypotheses are met -/

theorem meets_StepTakesTheFrontCommand : ({ loam with pending := [.pdGet (rq 0x79 [])] } : State).pending =
    .pdGet (rq 0x79 []) :: [] := rfl

theorem meets_invariants : Canonical State.reset ∧ ClayQuiet State.reset ∧ ClayHeld State.reset ∧
    Bounded State.reset := by
  unfold Canonical ClayQuiet ClayHeld Bounded Quiet; repeat' first | exact accepted_of (by decide +kernel) | exact reaches_of (by decide +kernel) | exact arrivesDown_of (by decide +kernel) | exact arrivesUp_of (by decide +kernel) | decide +kernel | apply And.intro

theorem meets_IdentityRegistersRefuseWrites :
    (Accepted 0x7B (rq 0x7B [0, 0, 0x40, 1, 0, 0, 0, 0, 0xFF, 0xFF, 0xFF, 0xFF]) loam ∧
      (reqBody (rq 0x7B [0, 0, 0x40, 1, 0, 0, 0, 0, 0xFF, 0xFF, 0xFF, 0xFF])).length = 12 ∧
      regBase (rq 0x7B [0, 0, 0x40, 1, 0, 0, 0, 0, 0xFF, 0xFF, 0xFF, 0xFF]) = 0x40 ∧
      regCount (rq 0x7B [0, 0, 0x40, 1, 0, 0, 0, 0, 0xFF, 0xFF, 0xFF, 0xFF]) = 1) ∧
    (Accepted 0x7B (rq 0x7B [0, 0, 0x44, 1, 0, 0, 0, 0, 0xFF, 0xFF, 0xFF, 0xFF]) loam ∧
      regBase (rq 0x7B [0, 0, 0x44, 1, 0, 0, 0, 0, 0xFF, 0xFF, 0xFF, 0xFF]) = 0x44 ∧
      regCount (rq 0x7B [0, 0, 0x44, 1, 0, 0, 0, 0, 0xFF, 0xFF, 0xFF, 0xFF]) = 1) := by
  repeat' first | exact accepted_of (by decide +kernel) | exact reaches_of (by decide +kernel) | exact arrivesDown_of (by decide +kernel) | exact arrivesUp_of (by decide +kernel) | decide +kernel | apply And.intro
def solA : GnssSol := { fix := 2, sats := 9, sigCount := 20, frame := 0, lat := 5, lon := 6, height := 7, velE := 0, velN := 0
                        velU := 0, week := 2300, tow := 5, gpsTime := 1391040000000000000, uncertNs := 20, hdop := 10
                        sigma := 100, corrAge := 0, signals := [] }
def timed (s : State) : State := { s with gnss := { s.gnss with sol := some solA, timeValid := true } }
def ahead (n : Nat) (q : Request) (s : State) : Request :=
  { q with pkt := { q.pkt with sched := true, applyAt := now s + BitVec.ofNat 48 n } }
/-- The scheduled command that CANCEL [FF FE 00 01] names. -/
def keptEnter (n : Nat) : SchedCmd := { q := ahead n (rq 0x02 []) loam }
def keep (c : SchedCmd) (s : State) : State := { s with pkt := { s.pkt with sched := [c] } }
def cancelQ : Request := rq 0x06 [0xFF, 0xFE, 0, 1]

theorem meets_HeadOpcodesNeedTheHead :
    (Reaches 0x10 (mq 0x10 [1]) member ∧ Reaches 0x13 (mq 0x13 [1, 0, 0, 0, 0, 0]) member ∧ Reaches 0x19 (mq 0x19 []) member ∧
      isHead member = false) ∧
    (Reaches 0x10 (rq 0x10 [0]) { head with chain := { head.chain with island := true } } ∧
      islandHead { head with chain := { head.chain with island := true } } = true) := by
  repeat' first | exact accepted_of (by decide +kernel) | exact reaches_of (by decide +kernel) | exact arrivesDown_of (by decide +kernel) | exact arrivesUp_of (by decide +kernel) | decide +kernel | apply And.intro

theorem meets_ImpossibleMailboxLengthsGetNoReply :
    ∀ n : Byte, n = 19 ∨ n = 253 → let s : State := { loam with svc := { mbLen := n } }
      svcLive s = true ∧ s.svc.busy = false ∧ hcoreRuns s = true ∧ s.chain.rg4 = [] ∧
      (s.svc.mbLen.toNat < 20 ∨ 252 < s.svc.mbLen.toNat) := by
  rintro n (rfl | rfl) <;> decide +kernel

theorem meets_LatchedWakesActAtLsup :
    let s : State := { loam with regs := [(0x090004, 0xFFFFFFFF)], pwr := { loam.pwr with lsup := false } }
    (s.pwr.lsup = false ∧ s.pwr.wakeLogic = true ∧ s.chain.rg4 = [] ∧ s.svc.goWaits = false ∧
      wakeEnabled .keyIn s = true) ∧
    ({ s with pwr := { s.pwr with wakeLatch := some (.keyIn, 0) } } : State).pwr.wakeLatch = some (.keyIn, 0) := by
  repeat' first | exact accepted_of (by decide +kernel) | exact reaches_of (by decide +kernel) | exact arrivesDown_of (by decide +kernel) | exact arrivesUp_of (by decide +kernel) | decide +kernel | apply And.intro

theorem meets_QueriesAnswerAndCommandsAreWithdrawn :
    (Accepted 0x00 (rq 0x00 []) loam ∧ Accepted 0x05 (rq 0x05 []) loam ∧ Accepted 0x11 (rq 0x11 []) loam ∧
      Accepted 0x18 (rq 0x18 []) loam ∧ Accepted 0x79 (rq 0x79 []) loam) ∧
    (Accepted 0x06 cancelQ (keep (keptEnter 5000) loam) ∧ (reqBody cancelQ).length = 4 ∧
      earliest ((keep (keptEnter 5000) loam).pkt.sched.filter (cancels cancelQ)) = some (keptEnter 5000) ∧
      0 < frameDiff (keptEnter 5000).q.pkt.applyAt (now loam) ∧
      ((keptEnter 5000).handed && hasFieldPart (keptEnter 5000).q) = false ∧ (keptEnter 5000).q.pkt.opcode ≠ 0x5A) ∧
    (earliest ((keep (keptEnter 0) loam).pkt.sched.filter (cancels cancelQ)) = some (keptEnter 0) ∧
      frameDiff (keptEnter 0).q.pkt.applyAt (now loam) ≤ 0) ∧
    (let c : SchedCmd := { q := ahead 5000 (rq 0x20 [0, 0, 0, 1, 0]) loam, handed := true }
     earliest ((keep c loam).pkt.sched.filter (cancels cancelQ)) = some c ∧ (c.handed && hasFieldPart c.q) = true) ∧
    (earliest (loam.pkt.sched.filter (cancels cancelQ)) = none ∧ loam.pkt.acted.any (cancels cancelQ) = false) ∧
    (Accepted 0x19 (rq 0x19 []) loam ∧ loam.gnss.timeValid = false) ∧
    (Accepted 0x19 (rq 0x19 []) (timed loam) ∧ (timed loam).gnss.timeValid = true ∧
      (timed loam).gnss.sol = some solA ∧ (timed loam).clk.originGps = false) ∧
    (let s := timed { loam with clk := { loam.clk with originGps := true } }
     s.gnss.timeValid = true ∧ s.gnss.sol = some solA ∧ s.clk.originGps = true) := by
  repeat' first | exact accepted_of (by decide +kernel) | exact reaches_of (by decide +kernel) | exact arrivesDown_of (by decide +kernel) | exact arrivesUp_of (by decide +kernel) | decide +kernel | apply And.intro

theorem meets_ClayEntersAndReleases :
    (Accepted 0x02 (rq 0x02 []) loam ∧ (reqBody (rq 0x02 [])).length = 0) ∧
    (let q : Request := { rq 0x03 [] with via := .planner }
     Accepted 0x03 q (clay loam) ∧ plannerSource q (clay loam) = true ∧ (clay loam).chain.addrValid = true ∧
     (clay loam).clk.valid = true ∧ fieldDomainsOn (clay loam) = true ∧ configuring (clay loam) = false ∧
     holdingCauses (clay loam) = 0 ∧ (clay loam).modes.clay = true ∧
     holdingCauses { clay loam with modes := { (clay loam).modes with active := 16 } } ≠ 0 ∧ isHead (clay loam) = true) ∧
    (∀ p : Byte, p = 0 ∨ p = 1 → let s : State := { loam with fw := { loam.fw with items := [(1, [p])] } }
      arms p s = true ∧ s.modes.mode = .loam ∧ s.sec.life ≠ .retired ∧ s.clk.valid = true ∧ s.chain.addrValid = true ∧
      fieldDomainsOn s = true ∧ configuring s = false ∧ s.pkt.sched.length < 64 ∧ s.pkt.dups = [] ∧
      s.sect.origin = none ∧ s.gnss.sol = none) := by
  refine ⟨by (repeat' first | exact accepted_of (by decide +kernel) | exact reaches_of (by decide +kernel) | exact arrivesDown_of (by decide +kernel) | exact arrivesUp_of (by decide +kernel) | decide +kernel | apply And.intro), by (repeat' first | exact accepted_of (by decide +kernel) | exact reaches_of (by decide +kernel) | exact arrivesDown_of (by decide +kernel) | exact arrivesUp_of (by decide +kernel) | decide +kernel | apply And.intro), ?_⟩
  rintro p (rfl | rfl) <;> decide +kernel

/-- A token of 94 bytes: kind, level or state, key slot, 0, limit, nonce, serial, signature. -/
def token (kind level slot : Byte) (limit : Nat) : List Byte :=
  [kind, level, slot, 0] ++ be 2 limit ++ List.replicate 16 7 ++ be 8 1 ++ List.replicate 64 9
def nonced (l : Fin 5) (s : State) : State := { s with sec := { s.sec with nonce := some ⟨l, List.replicate 16 7⟩ } }

theorem meets_ModesResetAndLifecycleByCommand :
    (Accepted 0x01 (rq 0x01 [1]) loam ∧ loam.modes.mode = .loam ∧ byteAt (reqBody (rq 0x01 [1])) 0 = 1) ∧
    (Accepted 0x01 (rq 0x01 [1]) (silt loam) ∧ (silt loam).modes.mode = .silt) ∧
    (Accepted 0x01 (rq 0x01 [2]) (silt loam) ∧ loamCode (silt loam) = 0) ∧
    (let s := silt { loam with fw := { loam.fw with pairOk := false } }
     Accepted 0x01 (rq 0x01 [2]) s ∧ loamCode s ≠ 0) ∧
    (Accepted 0x01 (rq 0x01 [2]) loam ∧ byteAt (reqBody (rq 0x01 [2])) 0 = 2) ∧
    (Accepted 0x01 (rq 0x01 [0]) loam ∧ sandPermitted loam = true) ∧
    (Accepted 0x04 (rq 0x04 []) loam ∧ isField 0x010000 = false) ∧
    (let q := rq 0x74 (3 :: token 2 3 1 0)
     Accepted 0x74 q loam ∧ lcAdvanceCheck q loam = none ∧ domOn loam 3 = true ∧
       tokenOk ((reqBody q).drop 1) [] 2 4 loam = false) := by
  repeat' first | exact accepted_of (by decide +kernel) | exact reaches_of (by decide +kernel) | exact arrivesDown_of (by decide +kernel) | exact arrivesUp_of (by decide +kernel) | decide +kernel | apply And.intro

theorem meets_lcAdvance_ok (k : Byte) (hk : k = 1 ∨ k = 2 ∨ k = 3) :
    let s := nonced 4 (clay { loam with sec := { life := if k = 1 then .opened else .provisioned, keyIntegrator := some [] } })
    let q := rq 0x74 (k :: token 2 k (if k = 1 then 0 else 1) 0 ++ (if k = 1 then List.replicate 64 8 else []))
    Accepted 0x74 q s ∧ lcAdvanceCheck q s = none ∧ domOn s 3 = true ∧ s.modes.clay = true ∧
    (Config.tokenSignature (k == 1) (((reqBody q).drop 1).take 30 ++ (reqBody q).drop 95)
        ((((reqBody q).drop 1).take 94).drop 30 |>.take 64) = true →
      (let b := reqBody q
       tokenOk ((b.drop 1).take 94) (b.drop 95) 2 4 s && (byteAt (b.drop 1) 1).toNat = (byteAt b 0).toNat &&
         ((byteAt b 0).toNat != 1 || byteAt (b.drop 1) 2 == 0)) = true) := by
  rcases hk with rfl | rfl | rfl
  all_goals
    refine ⟨accepted_of (by decide +kernel), by decide +kernel, by decide +kernel, by decide +kernel, fun h => ?_⟩
    unfold tokenOk
    simp only [Bool.and_eq_true, decide_eq_true_eq]
    exact ⟨⟨⟨⟨⟨⟨by decide +kernel, by decide +kernel⟩, by decide +kernel⟩, by decide +kernel⟩, h⟩, by decide +kernel⟩, by decide +kernel⟩

theorem meets_DebugSessionsOpenAndEnd :
    (Accepted 0x70 (rq 0x70 []) loam ∧ Accepted 0x71 (rq 0x71 [4]) loam ∧ domOn loam 3 = true ∧
      byteAt (reqBody (rq 0x71 [4])) 0 = BitVec.ofNat 8 (4 : Fin 5).val ∧ (4 : Fin 5).val ≤ ceiling loam) ∧
    (let q := rq 0x72 (token 1 1 1 1440)
     Accepted 0x72 q loam ∧ (reqBody q).length = 94 ∧ tokenForm (reqBody q) = true ∧
     byteAt (reqBody q) 1 = BitVec.ofNat 8 (1 : Fin 5).val ∧ (1 : Fin 5).val ≤ ceiling loam ∧ loam.sec.life = .opened) ∧
    (let q := rq 0x72 (token 1 2 1 1)
     let s : State := { loam with sec := { life := .sealed', level := 0, keyIntegrator := some [] } }
     Accepted 0x72 q s ∧ tokenForm (reqBody q) = true ∧ (2 : Fin 5).val ≤ ceiling s ∧ s.sec.life ≠ .opened ∧
     domOn s 3 = true ∧ tokenOk (reqBody q) [] 1 2 s = false ∧
     Accepted 0x72 q (nonced 2 s)) ∧
    (Accepted 0x73 (rq 0x73 []) loam ∧ 0 < loam.sec.level.val) ∧
    (let s : State := { loam with sec := { loam.sec with session := some (5, true) } }
     s.sec.session.isSome = true ∧ clockOn s = true ∧ s.chain.rg4 = [] ∧ s.svc.goWaits = false) := by
  repeat' first | exact accepted_of (by decide +kernel) | exact reaches_of (by decide +kernel) | exact arrivesDown_of (by decide +kernel) | exact arrivesUp_of (by decide +kernel) | decide +kernel | apply And.intro

theorem meets_dbgUnlock_ok :
    let q := rq 0x72 (token 1 2 1 1)
    let s := nonced 2 { loam with sec := { life := .sealed', level := 0, keyIntegrator := some [] } }
    Config.tokenSignature false ((reqBody q).take 30 ++ []) (((reqBody q).drop 30).take 64) = true →
      tokenOk (reqBody q) [] 1 2 s = true := by
  intro q s h
  rw [tokenOk]
  simp only [Bool.and_eq_true, decide_eq_true_eq]
  exact ⟨⟨⟨⟨by decide +kernel, by decide +kernel⟩, by decide +kernel⟩, by decide +kernel⟩, h⟩

theorem meets_AttachesAndHalts :
    (let l : Fin 5 := 2
     l ≠ 0 ∧ clockOn loam = true ∧ mayAttach l loam = true ∧ (affected .f l).all (domOn loam) = true) ∧
    (mayAttach 3 { loam with sec := { loam.sec with level := 2 } } = false) ∧
    (let s : State := { loam with sec := { loam.sec with attach := [(.f, 2), (.h, 3)] } }
     attached .f 2 s = true ∧ domOn s 13 = true ∧ attached .h 3 s = true ∧ domOn s 1 = true ∧ clockOn s = true ∧
     ArrivesDown (.dbgReq (.readSram 0xFFFFF)) (down (.dbgReq (.readSram 0xFFFFF)) s) ∧ s.pwr.dom[(12 : Fin 18)] = .on ∧
     linkUp s = true ∧ attached .f 1 s = true ∧ s.barr.rg6 = [] ∧ s.barr.rg6Held = [] ∧ s.barr.fieldClock = true ∧
     s.barr.hostNext = s.barr.fieldExpect ∧ ArrivesUp (.dbgData [1]) (up (.dbgData [1]) s)) ∧
    ({ loam with sec := { loam.sec with fHalt := true } } : State).sec.fHalt = true ∧
    ((halted loam).sec.hHalt = true ∧ (halted loam).chain.rg4 = [] ∧ (halted loam).svc.goWaits = false) ∧
    (3 ≤ loam.sec.level.val ∧ ({ loam with sec := { loam.sec with level := 2 } } : State).sec.level.val < 3) ∧
    ({ loam with sec := { loam.sec with scan := some .extest } } : State).sec.scan.isSome = true := by
  repeat' first | exact accepted_of (by decide +kernel) | exact reaches_of (by decide +kernel) | exact arrivesDown_of (by decide +kernel) | exact arrivesUp_of (by decide +kernel) | decide +kernel | apply And.intro

theorem meets_SettingsAreStagedAndCommitted :
    (Accepted 0x60 (rq 0x60 [0, 1]) loam ∧ (itemLen 1).isSome = true ∧ (itemValue 1 loam.fw.items loam).length ≤ 230) ∧
    (let q := rq 0x61 [0, 0x20, 0, 0, 0, 0x0C]
     Accepted 0x61 q loam ∧ loam.sec.zeroised = false ∧ setWriteCheck q loam = none ∧ domOn loam 3 = true ∧
     itemClay (beAt (reqBody q) 0 2) = false) ∧
    (let q := rq 0x61 [0, 1, 2]
     Accepted 0x61 q loam ∧ setWriteCheck q loam = none ∧ itemClay (beAt (reqBody q) 0 2) = true ∧
     loam.modes.clay = false ∧ setWriteCheck q (clay loam) = none ∧ (clay loam).modes.clay = true) ∧
    Accepted 0x63 (rq 0x63 []) loam ∧
    (let s : State := { loam with fw := { loam.fw with staging := some [(1, [2])] } }
     Accepted 0x62 (rq 0x62 []) s ∧ committing s = false ∧ loam.fw.staging = none ∧ s.fw.staging = some [(1, [2])] ∧
     domOn s 3 = true ∧ domOn s 4 = true) ∧
    (Accepted 0x12 (rq 0x12 [0, 5, 1]) loam ∧ (byteAt (reqBody (rq 0x12 [0, 5, 1])) 2).toNat ≤ 1 ∧ storeCheck loam = none) ∧
    (let c : Commit := { items := [], gen := 2, q := some (rq 0x62 []) }
     ({ loam with fw := { loam.fw with commit := some c } } : State).fw.commit = some c ∧ (rq 0x62 []).pkt.opcode ≠ 0x12) := by
  repeat' first | exact accepted_of (by decide +kernel) | exact reaches_of (by decide +kernel) | exact arrivesDown_of (by decide +kernel) | exact arrivesUp_of (by decide +kernel) | decide +kernel | apply And.intro

theorem meets_AllClearRegistersClearTheirCounters :
    domOn loam 1 = true ∧ domOn loam 11 = true ∧ domOn loam 5 = true ∧ domOn loam (canDom .a) = true ∧
    domOn loam (canDom .b) = true ∧ domOn loam 10 = true ∧ domOn loam 14 = true ∧ domOn loam 15 = true ∧
    domOn loam 16 = true ∧ domOn loam 17 = true ∧ bit 1 0 = true ∧ bit 2 0 = false ∧ bit 2 1 = true := by
  repeat' first | exact accepted_of (by decide +kernel) | exact reaches_of (by decide +kernel) | exact arrivesDown_of (by decide +kernel) | exact arrivesUp_of (by decide +kernel) | decide +kernel | apply And.intro

def regR (a : Nat) (n : Byte) : Request := rq 0x7A (be 3 a ++ [n])
def regW (a v : Nat) : Request := rq 0x7B (be 3 a ++ [1] ++ be 4 v ++ [0xFF, 0xFF, 0xFF, 0xFF])

theorem meets_RegistersAreReadAndWritten :
    (Accepted 0x7A (regR 0x01000C 2) loam ∧ regReadCheck (regR 0x01000C 2) loam = none ∧
      regReadMode (regR 0x01000C 2) loam = none ∧ isField (regBase (regR 0x01000C 2)) = false ∧
      ∀ a ∈ regAddrs (regR 0x01000C 2), domainCheck loam a = none ∧ a ≠ 0x010008 ∧ objectAt a = none) ∧
    (let q := regR 0x100000 8
     Accepted 0x7A q loam ∧ regReadCheck q loam = none ∧ regReadMode q loam = none ∧ isField (regBase q) = true ∧
     linkUp loam = true ∧ spanCheck q loam = none ∧ loam.barr.rg6Held = [] ∧
     loam.barr.rg6.length + (regCount q + 3) / 4 ≤ 128 ∧ Accepted 0x7A q (linkDown loam) ∧ linkUp (linkDown loam) = false) ∧
    (let q := regW 0x010014 7
     Accepted 0x7B q loam ∧ regWriteCheck q loam = none ∧ regWriteLife q loam = none ∧ isField (regBase q) = false ∧
     ∀ p ∈ regPuts q, hostStateCheck loam p = none) ∧
    (let q := regW 0x110000 1
     Accepted 0x7B q loam ∧ regWriteCheck q loam = none ∧ regWriteLife q loam = none ∧ isField (regBase q) = true ∧
     spanCheck q loam = none ∧ loam.barr.rg6.length + regCount q ≤ 128) ∧
    (let p : RegPut := { addr := 0x010014, value := 7, mask := 0xFFFFFFFF }
     loam.modes.mode ≠ .sand ∧ isField p.addr.toNat = false ∧ objectAt p.addr.toNat = none ∧
     p.addr.toNat ∉ [0x000094, 0x010000, 0x02001C, 0x030008, 0x030024, 0x040030, 0x050030, 0x040040, 0x06000C, 0x070000,
       0x070038, 0x090014, 0x0A000C] ∧ p.addr ≠ 0x090004 ∧ loam.sec.level ≠ 0 ∧
     hostPutCheck [p] loam p = none ∧ hostStateCheck loam p = none ∧
     (hostPutCheck [{ p with addr := 0x000040 }] loam { p with addr := 0x000040 }).isSome = true) ∧
    (isField (0x110000 : BitVec 24).toNat = true ∧ linkUp loam = true ∧ loam.barr.fieldClock = true ∧
      linkUp (linkDown loam) = false ∧ (linkDown loam).barr.fieldClock = false) := by
  repeat' first | exact accepted_of (by decide +kernel) | exact reaches_of (by decide +kernel) | exact arrivesDown_of (by decide +kernel) | exact arrivesUp_of (by decide +kernel) | decide +kernel | apply And.intro

theorem meets_EveryOpcodePassesTheSameChecks :
    (let q : Request := { rq 0x01 [1] with parts := [[1], [2]] }
     opInfo 0x01 = some { b := true, sched := true } ∧ hcoreRuns loam = true ∧ checkFormat q = none ∧
     forMe q loam = true ∧ otherChain q loam = false ∧ loam.pkt.dups.find? (isDup q) = none ∧ q.parts ≠ []) ∧
    ((inSand loam).modes.mode = .sand ∧ hcoreRuns (inSand loam) = true ∧ forMe (rq 0x01 [1]) (inSand loam) = true ∧
      otherChain (rq 0x01 [1]) (inSand loam) = false) ∧
    ((silt loam).modes.mode = .silt ∧ opInfo 0x03 = some { silt := false, b := true, sched := true } ∧
      hcoreRuns (silt loam) = true ∧ forMe (rq 0x03 []) (silt loam) = true) ∧
    (let s : State := { silt loam with sec := { loam.sec with life := .retired } }
     checkMode { b := true, sched := true } s = none ∧ s.sec.life = .retired ∧ hcoreRuns s = true ∧
     forMe (rq 0x01 [1]) s = true) := by
  repeat' first | exact accepted_of (by decide +kernel) | exact reaches_of (by decide +kernel) | exact arrivesDown_of (by decide +kernel) | exact arrivesUp_of (by decide +kernel) | decide +kernel | apply And.intro

theorem meets_TransportsDeliverPacketsJudgedAtTheDoor :
    (let q : Request := { regW 0x010014 7 with via := .can .a 9 }
     let d : DupEntry := { via := q.via, src := q.pkt.src, seq := q.pkt.seq, opcode := q.pkt.opcode, crc := packetCrc q.pkt, finished := true, replies := [] }
     hcoreRuns loam = true ∧ q.pkt.opcode = 0x7B ∧ q.via ≠ .svc ∧ q.pkt.ver = 1 ∧ checkFormat q = none ∧
     isHead loam = true ∧ isHead member = false ∧ fromOutside q.via = true ∧ forMe q member = false ∧ forMe q loam = true ∧
     otherChain q loam = false ∧ [d].find? (isDup q) = some d ∧
     ({ q with pkt := { q.pkt with ver := 2 } } : Request).pkt.ver ≠ 1 ∧
     232 < ({ q with pkt := { q.pkt with payload := List.replicate 233 0 } } : Request).pkt.payload.length ∧
     ({ q with pkt := { q.pkt with chainId := 1 } } : Request).pkt.chainId ≠ loam.chain.chainId) ∧
    (let s : State := { loam with canA := { mode := .normal, claim := .claimed, addr := 0x80 } }
     isoRuns s = true ∧ s.canA.claim = .claimed ∧ hcoreRuns s = true ∧ (byteAt [0x10] 0).getLsbD 3 = false) ∧
    (let s : State := { loam with canB := { mode := .normal }, regs := [(0x050000, 0x0A602202)] }
     let i : BitVec 29 := 0x5A82211
     hcoreRuns s = true ∧ portLive .b s = true ∧ profile .b s = 2 ∧ s.canB.mode ≠ .sleep ∧ i.extractLsb' 19 8 = 0xB5 ∧
     i.getLsbD 18 = false ∧ (i.extractLsb' 8 8).toNat = field (canReg .b s 0) 15 8 ∧ s.pkt.fdAsms = [] ∧
     (0x80 : Byte).toNat % 64 = 0 ∧ (0x80 : Byte).getLsbD 7 = true ∧ (0x80 : Byte).getLsbD 6 = false ∧
     (0xC0 : Byte).getLsbD 6 = true ∧ 20 + (byteAt (List.replicate 20 0) 9).toNat ≤ (List.replicate 20 (0 : Byte)).length ∧
     ([] : List Byte).length < 20 + (byteAt [] 9).toNat) ∧
    (let a : FdAsm := { port := .b, node := 0x11, nextIdx := 1, need := 100, bytes := [] }
     ownFd .b 0x11 a = true ∧ a.dead = false ∧ ownFd .b 0x11 { a with dead := true } = true) ∧
    (let s : State := { loam with pkt := { asms := [{ via := .svc, last := (rq 0x69 []).pkt, parts := [] }] } }
     hcoreRuns s = true ∧ s.pkt.asms = [{ via := .svc, last := (rq 0x69 []).pkt, parts := [] }]) := by
  repeat' first | exact accepted_of (by decide +kernel) | exact reaches_of (by decide +kernel) | exact arrivesDown_of (by decide +kernel) | exact arrivesUp_of (by decide +kernel) | decide +kernel | apply And.intro

def clayAt (n : Nat) : Request := ahead n (rq 0x02 []) loam

theorem meets_ScheduledAndDeferredRequests :
    (∀ n : Nat, n = 400 ∨ n = 86400000000 ∨ n = 399 ∨ n = 86400000001 → let q := clayAt n
      hcoreRuns loam = true ∧ q.pkt.opcode = 0x02 ∧ checkFormat q = none ∧ forMe q loam = true ∧ otherChain q loam = false ∧
      loam.pkt.dups.find? (isDup q) = none ∧ q.parts = [] ∧ q.pkt.more = false ∧ loam.modes.mode ≠ .sand ∧
      loam.sec.life ≠ .retired ∧ reqBody q = [] ∧ q.pkt.sched = true ∧ loam.clk.valid = true ∧
      frameDiff q.pkt.applyAt (now loam) = n) ∧
    (loam.pkt.sched.length < 64 ∧ 64 ≤ (List.replicate 64 (keptEnter 5000)).length) ∧
    ((keep (keptEnter 5000) loam).pkt.sched = [keptEnter 5000] ∧ (keptEnter 5000).q.pkt.opcode = 0x02 ∧
      (keptEnter 5000).handed = false ∧ ({ keptEnter 5000 with handed := true } : SchedCmd).handed = true ∧
      (keptEnter 5000).q.pkt.sched = true ∧ (keep (keptEnter 5000) loam).pkt.acted = []) ∧
    (let d : Deferred := { q := rq 0x20 [0, 0, 0, 1, 0], ticket := 5, why := .budget }
     ({ loam with pkt := { deferred := [d] } } : State).pkt.deferred = [d] ∧ d.why = .budget) := by
  refine ⟨?_, by (repeat' first | exact accepted_of (by decide +kernel) | exact reaches_of (by decide +kernel) | exact arrivesDown_of (by decide +kernel) | exact arrivesUp_of (by decide +kernel) | decide +kernel | apply And.intro), by (repeat' first | exact accepted_of (by decide +kernel) | exact reaches_of (by decide +kernel) | exact arrivesDown_of (by decide +kernel) | exact arrivesUp_of (by decide +kernel) | decide +kernel | apply And.intro), by (repeat' first | exact accepted_of (by decide +kernel) | exact reaches_of (by decide +kernel) | exact arrivesDown_of (by decide +kernel) | exact arrivesUp_of (by decide +kernel) | decide +kernel | apply And.intro)⟩
  rintro n (rfl | rfl | rfl | rfl) <;> decide +kernel

theorem meets_TheClockTreeStopsAndStarts :
    (clockOn loam = true ∧ State.reset.clk.tree = .relocking ∧ State.reset.clk.countRelock = false ∧
      ({ loam with clk := { loam.clk with tree := .stopped } } : State).clk.tree = .stopped ∧ loam.clk.tree ≠ .stopped ∧
      loam.clk.tree ≠ .relocking ∧ ({ State.reset with clk := { State.reset.clk with countRelock := true } } : State).clk.countRelock = true) ∧
    (followsUp { member with clk := { member.clk with tree := .relocking } } = true ∧ followsUp loam = false ∧
      ({ loam with clk := { loam.clk with tree := .noReference } } : State).clk.tree = .noReference) ∧
    (let s : State := { State.reset with clk := { tree := .locked, countRelock := true, refWasUp := true } }
     s.clk.tree = .locked ∧ s.chain.rg4 = [] ∧ s.svc.goWaits = false ∧ s.clk.countRelock = true ∧ s.clk.refWasUp = true ∧
     ({ s with clk := { s.clk with refWasUp := false } } : State).clk.refWasUp = false ∧
     ({ s with clk := { s.clk with countRelock := false } } : State).clk.countRelock = false ∧
     upClocked { s with chain := member.chain } = true ∧ isHead s = true ∧
     ({ s with modes := { s.modes with booted := true } } : State).modes.booted = true) := by
  repeat' first | exact accepted_of (by decide +kernel) | exact reaches_of (by decide +kernel) | exact arrivesDown_of (by decide +kernel) | exact arrivesUp_of (by decide +kernel) | decide +kernel | apply And.intro

theorem meets_TimebaseRegistersFramesAndEchoes :
    (loam.modes.mode = .loam ∧ paramCheck true loam 0x010000 0x0000000C 0xFFFFFFFF = none ∧
      field (merged loam 0x010000 0x0000000C 0xFFFFFFFF) 1 0 = field (reg loam 0x010000) 1 0 ∧
      field (merged loam 0x010000 0x0000000D 0xFFFFFFFF) 1 0 ≠ field (reg loam 0x010000) 1 0 ∧ (silt loam).modes.mode = .silt ∧
      (0x0000000D : Word).toNat < 16 ∧ (0x0000000D : Word).toNat % 4 ≤ 1 ∧ (0 : Word).toNat % 4 ≤ 1) ∧
    (let s : State := { loam with clk := { loam.clk with qual := .holdover } }
     s.clk.qual = .holdover ∧ clockOn s = true ∧ s.ev.host.length < 64) ∧
    (let s : State := { timed loam with clk := { loam.clk with ref := .gnss } }
     s.gnss.timeValid = true ∧ clockOn s = true ∧ s.clk.ref = .gnss ∧ bit (reg s 0x010000) 2 = true ∧ upClocked s = false) ∧
    (({ loam with clk := { loam.clk with pps := true } } : State).clk.pps = true ∧ clockOn loam = true) ∧
    (clockOn head = true ∧ domOn head 11 = true ∧ isHead head = true ∧ upClocked head = false ∧ head.clk.valid = true ∧
      head.chain.dnPartner = true ∧ head.chain.dnLock = true) ∧
    (upClocked member = true ∧ member.chain.upLock = true ∧ member.chain.upPartner ≠ .none ∧ member.chain.dnPartner = true ∧
      clockOn member = true ∧ domOn member 11 = true ∧ member.chain.dnLock = true) ∧
    ([((4 : Byte), 1000)].find? (fun e => e.1 == 4) = some (4, 1000)) := by
  repeat' first | exact accepted_of (by decide +kernel) | exact reaches_of (by decide +kernel) | exact arrivesDown_of (by decide +kernel) | exact arrivesUp_of (by decide +kernel) | decide +kernel | apply And.intro

def timeInfo (o : Word) : TimeInfo := { tbTx := 8000000000, corr := 0, originId := o, originGps := false, qual := 0, island := false
                                        step := false, policy := 5, breakFrame := 0, w1 := 0, w2 := 0 }

theorem meets_OriginStepsAndTimeFramesAlign :
    (({ loam with clk := { loam.clk with announced := some ⟨20, 5⟩ } } : State).clk.announced = some ⟨20, 5⟩ ∧
      clockOn loam = true ∧ islandHead loam = false ∧ loam.modes.clay = false ∧
      islandHead { head with chain := { head.chain with island := true } } = true ∧
      ({ member with chain := { member.chain with islandTimer := some 5 } } : State).chain.islandTimer = some 5) ∧
    (let s : State := { member with clk := { member.clk with echoes := 64 } }
     clockOn s = true ∧ domOn s 11 = true ∧ upClocked s = true ∧ 64 ≤ s.clk.echoes ∧ (timeInfo 0).island = false ∧
     s.chain.islandTimer = none ∧ s.clk.valid = true ∧ (timeInfo 0).hdr.crc = .good ∧ ownChain (timeInfo 0).hdr s = true ∧
     (timeInfo 0).originId = s.clk.originId ∧ (timeInfo 9).originId ≠ s.clk.originId) := by
  repeat' first | exact accepted_of (by decide +kernel) | exact reaches_of (by decide +kernel) | exact arrivesDown_of (by decide +kernel) | exact arrivesUp_of (by decide +kernel) | decide +kernel | apply And.intro

theorem meets_TheBarrierLinkComesUpGoesDownAndRejectsCells :
    (let s : State := { linkDown loam with pwr := loam.pwr }
     s.barr.link = .down ∧ clockOn s = true ∧ domOn s 1 = true ∧ s.barr.static = true ∧ s.barr.epochRetry = false ∧
     ({ s with barr := { s.barr with epochRetry := true } } : State).barr.epochRetry = true) ∧
    (∀ n : Nat, n = 8 ∨ n = 9 → let s : State := { linkDown loam with barr := { link := .training, runFails := n } }
      s.barr.link = .training ∧ (n = 9 ↔ s.barr.runFails = 9) ∧ s.ev.host.length < 64 ∧ clockOn s = true ∧
      domOn s 1 = true ∧ s.pwr.fsup ≠ .absent) ∧
    ((415 : Fin 1024).val < 416 ∧ 480 < (481 : Fin 1024).val ∧ 416 ≤ (416 : Fin 1024).val ∧ (480 : Fin 1024).val ≤ 480) ∧
    ({ State.reset with barr := { link := .training } } : State).modes.booted = false ∧
    ((linkDown loam).barr.static = true ∧ clockOn State.reset = false ∧ (linkDown loam).barr.fieldClock = false ∧
      (linkDown loam).pwr.fsup ≠ .absent) ∧
    (loam.barr.fieldClock = true ∧ clockOn loam = true ∧ linkUp loam = true) ∧
    (let s := up (.event (recA .field 1)) loam
     linkUp s = true ∧ s.barr.rg7 = [queued (.event (recA .field 1)) loam] ∧ cellsOf (.event (recA .field 1)) = 2 ∧
     (seqUp s).barr.fieldNext = (seqUp s).barr.hostExpect ∧ (seqUp s).barr.upPart + 1 = 2 ∧
     (let w : State := { s with barr := { s.barr with fieldNext := 5 } }
      w.barr.fieldNext ≠ w.barr.hostExpect ∧ w.barr.upPart + 1 ≠ 2)) ∧
    (let s := down (.cfgRead 7 0x100000 4) loam
     linkUp s = true ∧ s.barr.rg6 = [queued (.cfgRead 7 0x100000 4) loam] ∧ s.barr.fieldClock = true ∧
     ({ s with barr := { s.barr with hostNext := 5 } } : State).barr.hostNext ≠ s.barr.fieldExpect) := by
  refine ⟨by (repeat' first | exact accepted_of (by decide +kernel) | exact reaches_of (by decide +kernel) | exact arrivesDown_of (by decide +kernel) | exact arrivesUp_of (by decide +kernel) | decide +kernel | apply And.intro), ?_, by (repeat' first | exact accepted_of (by decide +kernel) | exact reaches_of (by decide +kernel) | exact arrivesDown_of (by decide +kernel) | exact arrivesUp_of (by decide +kernel) | decide +kernel | apply And.intro)⟩
  rintro n (rfl | rfl) <;> decide +kernel

theorem meets_HeartbeatsKeepTheTwoSides :
    (linkUp loam = true ∧ loam.barr.fieldDeclared = false ∧ loam.pwr.fsup ≠ .absent ∧ loam.barr.fieldClock = true ∧
      (let c : Cell := .heartbeat (.fromHost 1 7 false 50)
       ArrivesDown c (down c loam)) ∧
      (let c : Cell := .heartbeat (.fromField 1 7 false 0 0 0 4)
       ArrivesUp c (up c loam))) ∧
    (let x : SafeSent := { causes := 4, seq := 7, dropsBefore := (0, 0, 0) }
     ({ loam with barr := { loam.barr with safe := [x] } } : State).barr.safe = x :: [] ∧ reached 7 x = true ∧
     (rose x.dropsBefore.1 0 || rose x.dropsBefore.2.1 0 || rose x.dropsBefore.2.2 0) = false) ∧
    (ArrivesDown (.safeReq 4) (down (.safeReq 4) loam) ∧ (4 : BitVec 16).getLsbD (2 : Fin 11).val = true ∧
      (∀ c : Fin 11, (0x8000 : BitVec 16).getLsbD c.val = false) ∧ ArrivesDown (.safeReq 0x8000) (down (.safeReq 0x8000) loam)) ∧
    (let s := down (.timeSync 1000) loam
     let u := takenDown s
     let right : BitVec 64 := 1000 + BitVec.ofNat 64 (u.clk.tb.toNat - (findKey 4 u.clk.marks).getD u.clk.tb.toNat)
     ArrivesDown (.timeSync 1000) s ∧ u.barr.replica ≠ right ∧
     (let w : State := { s with barr := { s.barr with replica := s.barr.replica + (right - u.barr.replica) } }
      ArrivesDown (.timeSync 1000) w ∧ (takenDown w).barr.replica =
        1000 + BitVec.ofNat 64 ((takenDown w).clk.tb.toNat - (findKey 4 (takenDown w).clk.marks).getD (takenDown w).clk.tb.toNat))) ∧
    (loam.ev.field.length < 64 ∧ loam.barr.supervise = true ∧ domOn loam 13 = true ∧ loam.barr.fhalt = false ∧
      (clay loam).modes.clay = true ∧ loam.ev.host.length < 64) := by
  repeat' first | exact accepted_of (by decide +kernel) | exact reaches_of (by decide +kernel) | exact arrivesDown_of (by decide +kernel) | exact arrivesUp_of (by decide +kernel) | decide +kernel | apply And.intro

def cellW (sch : Bool) : CfgWriteCell := { tag := 7, sched := sch, addr := 0x100008, value := 5, mask := 0xFFFFFFFF, applyAt := 5 }
def regTxn (w : Bool) (n : Nat) : RegTxn :=
  { tag := 7, why := .request (if w then regW 0x110000 1 else regR 0x110000 1), isWrite := w
    puts := if w then [{ addr := 0x110000, value := 1, mask := 0xFFFFFFFF }] else [], readAddr := 0x110000
    readLeft := if w then 0 else 1, sends := n }
/-- The field part of OCH_SET RUN for channel 0, and its transaction. -/
def setPart : FieldOp := ⟨0x20, [0, 0, 0, 1, 2]⟩
def setCell : CfgWriteCell := { tag := 7, addr := 0, value := 0, mask := 0, op := some setPart }
def setTxn : RegTxn := { tag := 7, why := .request (rq 0x20 [0, 0, 0, 1, 2]), isWrite := true, op := some setPart }
def withTxn (x : RegTxn) (s : State) : State := { s with barr := { s.barr with txns := [x] } }

theorem meets_FieldRegistersOverTheBarrier :
    (∀ b : Bool, ArrivesDown (.cfgWrite (cellW b)) (down (.cfgWrite (cellW b)) loam)) ∧
    (loam.barr.tagMem.find? (fun m => m.1 == (cellW false).tag) = none ∧ isField (cellW false).addr.toNat = true ∧
      (cellW false).sched = false ∧ (cellW false).op = none ∧ (cellW true).sched = true ∧
      ArrivesDown (.cfgWrite setCell) (down (.cfgWrite setCell) loam) ∧ setCell.sched = false ∧ setCell.op = some setPart ∧
      (fieldPart setPart (toFieldFrame (takenDown (down (.cfgWrite setCell) loam)))).1.barr.fieldClock = true ∧
      ([((7 : BitVec 16), Cell.cfgData 7 0 0x100000 [])]).find? (fun m => m.1 == (cellW false).tag) =
        some (7, .cfgData 7 0 0x100000 [])) ∧
    (Config.schedWriteSlots ≠ 0 → schedWriteStatus (cellW true) (takenDown (down (.cfgWrite (cellW true)) loam)) = 1) ∧
    (ArrivesDown (.cfgRead 7 0x100000 4) (down (.cfgRead 7 0x100000 4) loam) ∧
      cfgReadStatus (0x100000 : BitVec 24).toNat (4 : BitVec 3).toNat (takenDown (down (.cfgRead 7 0x100000 4) loam)) = 0) ∧
    (let q := regR 0x110000 1
     let s := withTxn (regTxn false 2) loam
     s.barr.txns = [regTxn false 2] ∧ (regTxn false 2).why = .request q ∧ (regTxn false 2).sched = false ∧
     s.fw.fieldImage = none ∧ (regTxn false 2).op = none ∧ (regTxn false 2).isWrite = false ∧
     q.pkt.opcode = 0x7A ∧ (regTxn false 2).readLeft = [(5 : Word)].length ∧
     ArrivesUp (.cfgData 7 0 0x110000 [5]) (up (.cfgData 7 0 0x110000 [5]) s) ∧ (regTxn false 2).sends < 3 ∧
     3 ≤ (regTxn false 3).sends) ∧
    (let q := regW 0x110000 1
     (regTxn true 1).why = .request q ∧ q.pkt.opcode = 0x7B ∧ (regTxn true 1).isWrite = true ∧
     (regTxn true 1).puts = [{ addr := 0x110000, value := 1, mask := 0xFFFFFFFF }] ∧
     ArrivesUp (.cfgData 7 0 0x110000 []) (up (.cfgData 7 0 0x110000 []) (withTxn (regTxn true 1) loam))) ∧
    (setTxn.op = some setPart ∧ setTxn.why = .request (rq 0x20 [0, 0, 0, 1, 2]) ∧ (rq 0x20 [0, 0, 0, 1, 2]).pkt.opcode ≠ 0x44 ∧
      ArrivesUp (.cfgData 7 0 0 []) (up (.cfgData 7 0 0 []) (withTxn setTxn loam))) ∧
    (let c : CfgWriteCell := { cellW true with applyAt := now loam + 9 }
     let s : State := { loam with barr := { loam.barr with schedWrites := [c] } }
     let u := advanceTo (tickAt c.applyAt 0 s) s
     let w : State := { u with barr := { u.barr with schedWrites := u.barr.schedWrites.erase c } }
     firstWrite s s.barr.schedWrites = some c ∧ s.barr.fieldClock = true ∧ c.op = none ∧
     (writeDomains c w <|> fieldStateCheck w c.addr.toNat (merged w c.addr.toNat c.value c.mask)) = none) := by
  refine ⟨by rintro (_ | _) <;> exact arrivesDown_of (by decide +kernel), by (repeat' first | exact accepted_of (by decide +kernel) | exact reaches_of (by decide +kernel) | exact arrivesDown_of (by decide +kernel) | exact arrivesUp_of (by decide +kernel) | decide +kernel | apply And.intro), fun h => ?_, by (repeat' first | exact accepted_of (by decide +kernel) | exact reaches_of (by decide +kernel) | exact arrivesDown_of (by decide +kernel) | exact arrivesUp_of (by decide +kernel) | decide +kernel | apply And.intro), by (repeat' first | exact accepted_of (by decide +kernel) | exact reaches_of (by decide +kernel) | exact arrivesDown_of (by decide +kernel) | exact arrivesUp_of (by decide +kernel) | decide +kernel | apply And.intro), by (repeat' first | exact accepted_of (by decide +kernel) | exact reaches_of (by decide +kernel) | exact arrivesDown_of (by decide +kernel) | exact arrivesUp_of (by decide +kernel) | decide +kernel | apply And.intro), by (repeat' first | exact accepted_of (by decide +kernel) | exact reaches_of (by decide +kernel) | exact arrivesDown_of (by decide +kernel) | exact arrivesUp_of (by decide +kernel) | decide +kernel | apply And.intro), by (repeat' first | exact accepted_of (by decide +kernel) | exact reaches_of (by decide +kernel) | exact arrivesDown_of (by decide +kernel) | exact arrivesUp_of (by decide +kernel) | decide +kernel | apply And.intro)⟩
  have b : ¬ frameDiff (cellW true).applyAt
    (frameOf (takenDown (down (.cfgWrite (cellW true)) loam)).barr.replica) ≤ 0 := by decide +kernel
  have a : ((cellW true).op.isNone && ((paramCheck true (takenDown (down (.cfgWrite (cellW true)) loam)) (cellW true).addr.toNat
    (cellW true).value (cellW true).mask).isSome || !isField (cellW true).addr.toNat)) = false := by decide +kernel
  have c : (takenDown (down (.cfgWrite (cellW true)) loam)).barr.schedWrites.length = 0 := by decide +kernel
  rw [schedWriteStatus, a, if_neg (by decide), if_neg b, c, if_neg (by omega)]

def edgeA : Edge := { ch := 31, on := true, frame := 20000, tick := 799, fine := 31 }
def coefA (banked swap : Bool) : CoefCell :=
  { tag := 7, slot := 15, banked := banked, swap := swap, first := if swap then 0 else 16, words := if swap then [] else [0], sample := loopSamp loam 15 + 2 }
def withSlot (i : Fin 16) (f : Slot → Slot) (s : State) : State := setSlot i f s

theorem meets_CellBatchesAreStoredAndAcknowledged :
    (linkUp loam = true ∧ ArrivesDown (.schedEdge 7 [edgeA]) (down (.schedEdge 7 [edgeA]) loam) ∧
      ArrivesDown (.schedEdge 7 [edgeA]) (down (.schedEdge 7 [edgeA]) (clay loam)) ∧ loam.modes.clay = false ∧
      loam.barr.edgeTags.find? (fun m => m.1 == 7) = none ∧
      ([((7 : BitVec 16), (1 : Fin 4))]).find? (fun m => m.1 == 7) = some (7, 1) ∧ (clay loam).modes.clay = true) ∧
    (∀ n : Nat, n = 2 ∨ n = 3 → let b : EdgeBatch := { tag := 7, edges := [edgeA], sends := n }
      let s : State := { clay loam with barr := { loam.barr with batches := [b] } }
      s.barr.batches = [b] ∧ linkUp s = true ∧ s.modes.clay = true ∧ s.ev.host.length < 64) ∧
    (let b : EdgeBatch := { tag := 7, edges := [edgeA], sends := 1 }
     ∀ r : Fin 4, ArrivesUp (.edgeAcks [(b.tag, r)]) (up (.edgeAcks [(b.tag, r)]) { loam with barr := { loam.barr with batches := [b] } })) ∧
    (∀ x y : Bool, let c := coefA x y
      loam.barr.coefTags.find? (fun m => m.1 == c.tag) = none ∧ ArrivesDown (.loopCoef c) (down (.loopCoef c) loam) ∧
      cellStatus c (takenDown (down (.loopCoef c) loam)) = 0 ∧ computing (takenDown (down (.loopCoef c) loam)) c.slot = false) ∧
    (let u : State := setSlot 15 (fun l => { l with state := .running, dly := 240 }) loam
     let s : State := { u with clk := { u.clk with
       marks := [(215, (takenDown (down (.loopCoef (coefA true false)) loam)).clk.tb.toNat)] } }
     ArrivesDown (.loopCoef (coefA true false)) (down (.loopCoef (coefA true false)) s) ∧
     computing (takenDown (down (.loopCoef (coefA true false)) s)) 15 = true) ∧
    ((withSlot 15 (fun l => { l with cells := [coefA true false] }) loam).loop.slot[(15 : Fin 16)].cells = [coefA true false] ∧
      (coefA true false).slot = 15 ∧ (coefA true false).banked = true ∧ (coefA false false).banked = false) ∧
    ((withSlot 15 (fun l => { l with swapAt := some 9 }) loam).loop.slot[(15 : Fin 16)].swapAt = some 9 ∧
      (withSlot 15 (fun l => { l with swapAt := some 9 }) loam).loop.slot[(15 : Fin 16)].cells = []) ∧
    (∀ n : Nat, n = 2 ∨ n = 3 → let c : CoefSent := { cell := coefA true false, sends := n, result := none }
      let s : State := { loam with barr := { loam.barr with coefs := [{ q := rq 0x40 [], cells := [c] }] } }
      s.barr.coefs = [{ q := rq 0x40 [], cells := [c] }] ∧ (rq 0x40 []).via ≠ .planner ∧ c.result = none ∧
      ArrivesUp (.coefAcks [(c.cell.tag, 0)]) (up (.coefAcks [(c.cell.tag, 0)]) s)) := by
  refine ⟨by (repeat' first | exact accepted_of (by decide +kernel) | exact reaches_of (by decide +kernel) | exact arrivesDown_of (by decide +kernel) | exact arrivesUp_of (by decide +kernel) | decide +kernel | apply And.intro), ?_, ?_, ?_, by (repeat' first | exact accepted_of (by decide +kernel) | exact reaches_of (by decide +kernel) | exact arrivesDown_of (by decide +kernel) | exact arrivesUp_of (by decide +kernel) | decide +kernel | apply And.intro), by (repeat' first | exact accepted_of (by decide +kernel) | exact reaches_of (by decide +kernel) | exact arrivesDown_of (by decide +kernel) | exact arrivesUp_of (by decide +kernel) | decide +kernel | apply And.intro), by (repeat' first | exact accepted_of (by decide +kernel) | exact reaches_of (by decide +kernel) | exact arrivesDown_of (by decide +kernel) | exact arrivesUp_of (by decide +kernel) | decide +kernel | apply And.intro), ?_⟩
  · rintro n (rfl | rfl) <;> decide +kernel
  · intro b r; exact arrivesUp_of (by revert r; decide +kernel)
  · rintro (_ | _) (_ | _) <;> (repeat' first | exact accepted_of (by decide +kernel) | exact reaches_of (by decide +kernel) | exact arrivesDown_of (by decide +kernel) | exact arrivesUp_of (by decide +kernel) | decide +kernel | apply And.intro)
  · rintro n (rfl | rfl) <;> (repeat' first | exact accepted_of (by decide +kernel) | exact reaches_of (by decide +kernel) | exact arrivesDown_of (by decide +kernel) | exact arrivesUp_of (by decide +kernel) | decide +kernel | apply And.intro)

theorem meets_PartnersAppearAndGo :
    (chainOn loam = true ∧ loam.chain.upLock = false ∧ loam.chain.dnLock = false) ∧
    (let s : State := { loam with chain := { upLock := true, dnLock := true } }
     portLock .up s = true ∧ portLock .dn s = true ∧ s.chain.upPartner = .none ∧ s.chain.dnPartner = false ∧
     s.chain.upKnown = false ∧ s.chain.dnKnown = false ∧ s.chain.upMiswire = false ∧ s.chain.dnMiswire = false ∧
     s.ev.host.length < 64 ∧ ({ s with chain := { s.chain with upMiswire := true } } : State).chain.upMiswire = true ∧
     upPartnerOf { port := 1 } ≠ .none ∧ upPartnerOf { port := 2 } ≠ .none ∧ upPartnerOf { port := 0 } = .none ∧
     upPartnerOf { port := 1, generation := 2 } = .none ∧ ({ port := 0 } : IdleInfo).generation = 1 ∧
     ({ port := 1 } : IdleInfo).port ≠ 0) ∧
    (member.chain.upLock = true ∧ member.chain.upPartner ≠ .none ∧ member.chain.dnLock = true ∧ chainOn member = true ∧
      member.chain.dnPartner = true ∧ isHead member = false ∧ member.chain.island = false ∧ hcoreRuns member = true) ∧
    (head.chain.dnLock = true ∧ head.chain.dnPartner = true ∧ isHead head = true ∧ head.chain.island = false ∧
      head.ev.host.length < 64) := by
  repeat' first | exact accepted_of (by decide +kernel) | exact reaches_of (by decide +kernel) | exact arrivesDown_of (by decide +kernel) | exact arrivesUp_of (by decide +kernel) | decide +kernel | apply And.intro

def cmdF : ChainFrame := { ftype := 4, amode := 0, dest := 3, payload := packetBytes (mq 0x00 []).pkt }
def rplF : ChainFrame := { ftype := 5, amode := 0, payload := packetBytes { opcode := 0, seq := 9, dest := 4, src := 3, ackreq := false } }
/-- The report of a break below hop 2, as a frame. -/
def evtF : ChainFrame := { ftype := 6, amode := 0, payload := packetBytes (breakPacket { member with chain := { member.chain with hop := 2 } }) }
def marlAll (v : Bool) : MarlInfo := { all := true, reason := 5, first := 0, last := 0, valid := v }

theorem meets_FramesPassAndNameTheirNodes :
    (chainOn member = true ∧ member.chain.upLock = true ∧ member.chain.dnLock = true ∧ cmdF.sdl = false ∧
      member.chain.upPartner = .node ∧ cmdF.ftype = 4 ∧ cmdF.crc = .good ∧ frameOk .up cmdF = true ∧
      consumes cmdF member = true ∧ domOn member 1 = true ∧
      hcoreRuns (halted member) = false ∧ member.chain.rg4.length < 256 ∧ hcoreRuns member = true ∧ member.chain.rg4 = [] ∧
      consumes { cmdF with dest := 4 } member = false ∧ frameOk .up { cmdF with sdl := true } = false) ∧
    (rplF.crc = .good ∧ rplF.ftype = 5 ∧ frameOk .dn rplF = true ∧ rplF.chainId = head.chain.chainId ∧ isHead member = false ∧
      isHead head = true ∧ head.chain.dnLock = true ∧ head.chain.dnPartner = true ∧ hcoreRuns head = true ∧
      (parsePacket rplF.payload).map (fun p => (p.seq, p.dest)) = some (9, 4) ∧
      (head.chain.origins.find? (fun o => o.seq == 9 && o.src == 4)) = none ∧ head.chain.upPartner = .none ∧ chainOn head = true ∧
      ([{ seq := 9, src := 4, via := .svc }] : List Origin).find? (fun o => o.seq == 9 && o.src == 4) =
        some { seq := 9, src := 4, via := .svc }) ∧
    (evtF.ftype = 6 ∧ evtF.crc = .good ∧ frameOk .dn evtF = true ∧ evtF.chainId = head.chain.chainId ∧
      islandHead head = false ∧ (parsePacket evtF.payload).bind breakReport = some 2 ∧ isHead (halted head) = true ∧
      hcoreRuns (halted head) = false) ∧
    (firstFrame [⟨5, rplF⟩] = some ⟨5, rplF⟩ ∧ firstDue [⟨5, rplF⟩] = some ⟨5, rplF⟩ ∧ member.chain.upPartner ≠ .none) ∧
    (let s : State := { member with chain := { member.chain with marlCount := 3, marlLast := some (marlAll true) } }
     (marlAll true).valid = true ∧ ownChain (marlAll true).hdr s = true ∧ marlNames (marlAll true) s = true ∧
     bit (reg s 0x03002C) 0 = true ∧ s.chain.marlLast = some (marlAll true) ∧ s.chain.marlCount + 1 = 4 ∧
     member.chain.marlCount + 1 ≠ 4) ∧
    (Accepted 0x13 (rq 0x13 [1, 0, 0, 0, 0, 0]) head ∧ (reqBody (rq 0x13 [1, 0, 0, 0, 0, 0])).length = 6) := by
  repeat' first | exact accepted_of (by decide +kernel) | exact reaches_of (by decide +kernel) | exact arrivesDown_of (by decide +kernel) | exact arrivesUp_of (by decide +kernel) | decide +kernel | apply And.intro

def enumI : EnumInfo := { recheck := false, gen := 1, hop := 2, addr := 5, serial := 77 }
def claimA (w : Bool) (n : Nat) : Claim :=
  { recheck := false, gen := 1, hop := 3, next := 6, addr := 6, pinned := false, waiting := w, sends := n, rejected := false, startSent := true }

theorem meets_TheEnumerationWalk :
    (let s : State := { setReg 0x030000 8 head with chain := { head.chain with fullDue := true } }
     chainOn head = true ∧ isHead head = true ∧ islandHead head = false ∧ head.chain.walk = none ∧
      s.chain.fullDue = true ∧ bit (reg s 0x030000) 3 = true ∧ bit (reg (setReg 0x030000 0 head) 0x030000) 3 = false ∧
      head.chain.fullDue = false ∧ head.chain.dnPartner = true ∧ loam.chain.dnPartner = false ∧
      Accepted 0x10 (rq 0x10 [1]) head ∧ (byteAt (reqBody (rq 0x10 [1])) 0).toNat ≤ 1 ∧ chainOn loam = true) ∧
    (chainOn member = true ∧ member.chain.upLock = true ∧ member.chain.upPartner = .node ∧ enumI.hdr.crc = .good ∧
      genFresh enumI.gen member = true) ∧
    (let s : State := { member with chain := { member.chain with claim := some (claimA false 1) } }
     s.chain.claim = some (claimA false 1) ∧ (claimA false 1).gen = enumI.gen ∧ s.chain.addr ≠ (claimA false 1).addr ∧
     s.modes.clay = false ∧ genFresh enumI.gen s = true ∧ s.chain.walk = none ∧ s.chain.dnPartner = true ∧
     (claimA false 1).startSent = true ∧ s.chain.hop.toNat ≤ ({ enumI with hop := 3 } : EnumInfo).hop.toNat ∧
     ({ enumI with hop := 2 } : EnumInfo).hop.toNat < s.chain.hop.toNat ∧ (claimA false 1).rejected = false ∧
     (clay s).modes.clay = true ∧ ({ enumI with planner := 1 } : EnumInfo).planner ≠ planner s) ∧
    (let w : Walk := { recheck := false, gen := 1 }
     let s : State := { head with chain := { head.chain with walk := some w } }
     s.chain.walk = some w ∧ isHead s = true ∧ islandHead s = false ∧ s.chain.dnLock = true ∧ s.chain.dnPartner = true ∧
     enumI.gen = w.gen ∧ w.claims = [] ∧ w.claims.all (fun j => j.hop != 1) = true ∧
     w.claims.find? (fun j => j.hop == enumI.hop && j.serial == enumI.serial) = none ∧
     w.claims.find? (fun j => j.accept && j.addr == enumI.addr) = none ∧ enumI.addr ≠ s.chain.addr ∧
     ({ enumI with addr := 0 } : EnumInfo).addr = s.chain.addr ∧ s.ev.host.length < 64 ∧
     ({ w with q := some (rq 0x10 [0]) } : Walk).q = some (rq 0x10 [0])) ∧
    (let i : EnumInfo := { enumI with hop := member.chain.hop, serial := member.id.serial, hdr := { dest := member.chain.hop } }
     myVerdict i (claimA true 2) member = true ∧ myVerdict i (claimA false 2) member = true ∧
     (claimA true 2).waiting = true ∧ (claimA false 2).waiting = false ∧ (claimA true 2).sends < 3 ∧ 3 ≤ (claimA true 3).sends) := by
  repeat' first | exact accepted_of (by decide +kernel) | exact reaches_of (by decide +kernel) | exact arrivesDown_of (by decide +kernel) | exact arrivesUp_of (by decide +kernel) | decide +kernel | apply And.intro

def geomA : Geom := { x := 0, y := 0, width := 500, turnComp := false, learn := true, shift := 3, window := 40, dipMin := 10 }
def withCh (n : Fin 32) (f : Chan → Chan) (s : State) : State := setCh n f s

theorem meets_MotionHandoverAndLatency :
    (hcoreRuns loam = true ∧ loam.modes.mode ≠ .sand ∧ loam.modes.clay = false ∧ loam.sect.preds = [] ∧
      loam.barr.heldEdges = []) ∧
    (let p : Pred := { ch := 0, on := true, line := 1, cross := 0, time := 8000000000 * 32, skip := true, seg := some (0, 0, 0, 0) }
     let s : State := { loam with sect := { motion := { valid := true, frame := 10000000 }, preds := [p] } }
     s.sect.motion.valid = true ∧ s.sect.preds = [p] ∧ p.seg.isSome = true ∧
     p.time < (tickAt s.sect.motion.frame 0 s * 32) + 20000 * 25600 ∧ p.skip = true ∧ missed s p = false ∧
     missed { s with modes := { s.modes with releaseFrame := 10000000 } } { p with skip := false } = true ∧
     missed { s with modes := { s.modes with releaseFrame := 10000000 } } { p with skip := false, on := false } = false ∧
     s.fw.asBuf.length < 4096) ∧
    (let s := setSect 31 (fun c => { c with geom := some geomA }) (withCh 31 (fun c => { c with acts := [(8000000000, true)] }) loam)
     s.sect.ch[(31 : Fin 32)].geom = some geomA ∧ geomA.learn = true ∧ ochMode s 31 = 0 ∧
     s.out.ch[(31 : Fin 32)].acts.find? (fun a => a.2 == true) = some (8000000000, true)) := by
  repeat' first | exact accepted_of (by decide +kernel) | exact reaches_of (by decide +kernel) | exact arrivesDown_of (by decide +kernel) | exact arrivesUp_of (by decide +kernel) | decide +kernel | apply And.intro

def lineA : SwLine := { id := 1, on := true, dir := 2, keep := true, mask := 0x80000001, e1 := 0, n1 := 0, e2 := 1000000, n2 := 0 }
def lineQ : Request := { rq 0x30 (lineBytes lineA) with via := .planner }
def originQ : Request := { rq 0x30 (1 :: List.replicate 15 0) with via := .planner }
/-- A node whose planner is its own (BUILTIN, item 0x0001 = 1) with a section origin. -/
def planning (s : State) : State :=
  { s with fw := { s.fw with items := [(1, [1])] }, sect := { s.sect with origin := some (0, 0, 0) } }

theorem meets_SectionOpcodesSetAndReport :
    (let s := planning loam
     Accepted 0x30 lineQ s ∧ parseLines (reqBody lineQ) = .ok [.line lineA] ∧ lineCheck lineQ s = none ∧
     plannerSource lineQ s = true ∧ plannerDiffers s = false ∧ planner s ≠ 0 ∧ lineA.id ≠ 0 ∧
     s.sect.lines.all (fun x => x.id != lineA.id) = true ∧ s.sect.lines.length < 4096 ∧
     parseLines (reqBody originQ) = .ok [.origin 0 0 0] ∧ lineCheck originQ s = none ∧ Accepted 0x30 originQ s ∧
     plannerSource (rq 0x30 (lineBytes lineA)) s = false ∧
     plannerDiffers { member with chain := { member.chain with headPlanner := some 1 } } = true ∧ Accepted 0x30 (rq 0x30 (lineBytes lineA)) s) ∧
    Accepted 0x31 (rq 0x31 [0x80, 0, 0, 1]) loam ∧
    (let q := rq 0x32 [5, 31, 0, 0]
     let b := rq 0x32 (1 :: List.replicate 15 0)
     Accepted 0x32 q loam ∧ parseGeometry (reqBody q) = .ok [.unbind 31] ∧ geometryFits [.unbind 31] loam.sect.body.isSome loam = true ∧
     loam.modes.mode = .loam ∧ loam.modes.clay = false ∧ (clay loam).modes.clay = true ∧ (clay loam).id.variant = .g2 ∧
     parseGeometry (reqBody b) = .ok [.body ⟨false, false, 0, 0, 0⟩] ∧ [GeoRec.body ⟨false, false, 0, 0, 0⟩].any isPlace = true ∧
     Accepted 0x32 b { clay loam with id := { loam.id with variant := .b } }) ∧
    (let q := rq 0x33 [0, 0, 0, 1, 0xEA, 0x60, 0, 0, 0xFC, 0x18]
     Accepted 0x33 q loam ∧ lookOk ((reqBody q).drop 4) = true) ∧
    (Accepted 0x34 (rq 0x34 [16, 16]) loam ∧ Accepted 0x36 (rq 0x36 []) loam) ∧
    (let q := rq 0x35 [0, 0, 0, 1, 0x4E, 0x20, 0, 1]
     Accepted 0x35 q loam ∧ beAt (reqBody q) 4 2 = 20000 ∧ 1 ≤ beAt (reqBody q) 6 2) ∧
    (hcoreRuns loam = true ∧ planner loam = 0 ∧ isHead loam = true ∧ islandHead loam = false ∧ commanded loam 3 = false ∧
      (clay loam).modes.clay = true) := by
  repeat' first | exact accepted_of (by decide +kernel) | exact reaches_of (by decide +kernel) | exact arrivesDown_of (by decide +kernel) | exact arrivesUp_of (by decide +kernel) | decide +kernel | apply And.intro | rfl

theorem meets_ChannelsActAtTheirTicks :
    ((withCh 31 (fun c => { c with queue := [edgeA] }) loam).out.ch[(31 : Fin 32)].queue = edgeA :: [] ∧ loam.modes.clay = false ∧
      (withCh 31 (fun c => { c with queue := [edgeA] }) loam).out.ch[(31 : Fin 32)].gate ≠ edgeA.on ∧ ochMode loam 31 = 0) ∧
    (let s := withCh 0 (fun c => { c with gen := true, perStart := 8000000000, period := 1000, onAt := 10, offAt := 500 }) loam
     s.out.ch[(0 : Fin 32)].gen = true ∧
     nextChange s.out.ch[(0 : Fin 32)] (s.clk.tb.toNat - s.out.ch[(0 : Fin 32)].perStart.toNat) = some 10) ∧
    (loam.out.ch[feeder loam 0].gen = false) ∧
    (let s := withCh 0 (fun c => { c with placed := true, grant := .staggered }) (setReg 0x140014 0x00010001 loam)
     waiting s = [0] ∧ s.out.ch[(0 : Fin 32)].grant = .staggered ∧
     (let f := roomFrame s.out.recent (stagN s) (field (reg s 0x140014) 13 0) (now s + 1)
      let u := advanceTo (tickAt f 0 s) s
      (standing (dueInFrame u) u).2 < stagN s)) := by
  repeat' first | exact accepted_of (by decide +kernel) | exact reaches_of (by decide +kernel) | exact arrivesDown_of (by decide +kernel) | exact arrivesUp_of (by decide +kernel) | decide +kernel | apply And.intro

/-- Channel 0 commanded on as a SWITCH, its driver on. -/
def driven : State := withCh 0 (fun c => { c with ovr := .on }) loam

theorem meets_TripsTakeTheGateDriveAndTheirTimersEnd :
    (driverOn driven 0 = true ∧ driven.out.ch[leader driven 0].blanking = false ∧ threshold driven 0 < (4095 : BitVec 12).toNat ∧
      (0 : BitVec 12).toNat ≤ threshold driven 0) ∧
    (let s := setReg 0x100B00 1 (setReg 0x100B04 1 loam)
     bit (reg s (0x100B00 + 8 * (0 : Fin 4).val)) 0 = true ∧ false = bit (reg s (0x100B00 + 8 * (0 : Fin 4).val)) 1 ∧
     true ≠ bit (reg s (0x100B00 + 8 * (0 : Fin 4).val)) 1 ∧ bit (reg s (0x100B04 + 8 * (0 : Fin 4).val)) 0 = true) ∧
    (let s := withCh 0 (fun c => { c with blanking := true }) driven
     s.out.ch[leader s 0].blanking = true ∧ driverOn s 0 = true ∧ threshold s 0 < (4095 : BitVec 12).toNat ∧
     tripInputOn s (leader s 0) = none ∧ driverOn loam 0 = false) ∧
    (let s := withCh 0 (fun c => { c with retryFrom := some 5 }) driven
     s.out.ch[(0 : Fin 32)].retryFrom = some 5 ∧ s.out.ch[(0 : Fin 32)].blanking = false ∧ tripInputOn s 0 = none ∧
     frameDiff 5 (now (advanceTo (tickAt 5 0 s) s)) ≤ 0 ∧ driverCmd s 0 = true ∧ (clay s).modes.clay = true) := by
  repeat' first | exact accepted_of (by decide +kernel) | exact reaches_of (by decide +kernel) | exact arrivesDown_of (by decide +kernel) | exact arrivesUp_of (by decide +kernel) | decide +kernel | apply And.intro

theorem meets_PeakHoldLampsAndCalibration :
    (let s := withCh 0 (fun c => { c with peakPhase := true }) (setReg 0x100020 5 loam)
     s.out.ch[(0 : Fin 32)].peakPhase = true ∧ 10 * field (och s 0 0x20) 7 0 ≤ (50 : BitVec 12).toNat ∧
     (49 : BitVec 12).toNat < 10 * field (och s 0 0x20) 7 0) ∧
    (let s := withCh 0 (fun c => { c with gate := true, genOut := true }) (setReg 0x100000 3 loam)
     holding s 0 = true ∧ s.out.ch[(0 : Fin 32)].holdOff = false ∧ 10 * field (och s 0 0x24) 7 0 ≤ (4095 : BitVec 12).toNat ∧
     ({ s.out.ch[(0 : Fin 32)] with holdOff := true } : Chan).holdOff = true) ∧
    (let s := withCh 0 (fun c => { c with gate := true, gen := true, genOut := true, opens := 2, period := 80000, offAt := 9600 })
       (setReg 0x100000 4 (setReg 0x10001C 0x3F3 loam))
     ochMode s (feeder s 0).val = 4 ∧ s.out.ch[feeder s 0].gen = true ∧ 9600 ≤ onLength s.out.ch[feeder s 0] ∧
     driverOn s 0 = true ∧ s.ev.field.length < 64 ∧ s.out.ch[(0 : Fin 32)].opens = 2 ∧
     field (och s 0 0x1C) 9 4 * 10 * [(4095 : BitVec 12)].length ≤ [(4095 : BitVec 12)].foldl (fun a x => a + x.toNat) 0 * 5 ∧
     [(0 : BitVec 12)].foldl (fun a x => a + x.toNat) 0 * 5 < field (och s 0 0x1C) 9 4 * 10 * [(0 : BitVec 12)].length) ∧
    (let s := withCh 0 (fun c => { c with supplyShorts := 1 }) (setReg 0x100000 4 (setReg 0x10001C 2 loam))
     ochMode s (feeder s 0).val = 4 ∧ bit (och s 0 0x1C) 1 = true ∧ driverOn s 0 = false ∧ s.out.ch[feeder s 0].gen = false ∧
     s.modes.clay = false ∧ domOn s 15 = true ∧ s.out.ch[(0 : Fin 32)].supplyShorts = 1 ∧ s.ev.field.length < 64 ∧
     (let c : Chan := { s.out.ch[(0 : Fin 32)] with gen := true, period := 80000, offAt := 9599 }
      onLength c < 9600 ∧ onLength c + 40000 ≤ c.period.toNat)) ∧
    (domOn loam 14 = true ∧ bit (reg loam 0x110000) 0 = false ∧ loam.barr.fieldClock = true ∧
      loam.barr.replicaLoaded = true ∧ loam.out.calLast = none ∧ loam.ev.field.length < 64 ∧
      ({ loam with out := { loam.out with calFails := 2 } } : State).out.calFails = 2) := by
  repeat' first | exact accepted_of (by decide +kernel) | exact reaches_of (by decide +kernel) | exact arrivesDown_of (by decide +kernel) | exact arrivesUp_of (by decide +kernel) | decide +kernel | apply And.intro

theorem meets_DisagreementAndDisconnect :
    (domOn loam 15 = true ∧ driverOn loam 0 = false ∧ onThr loam ≤ (4095 : BitVec 12).toNat ∧ loam.out.ch[(0 : Fin 32)].obsOn = false ∧
      loam.ev.field.length < 63) ∧
    (driverOn driven 0 = true ∧ ochMode driven (leader driven 0).val = 0 ∧ (0 : BitVec 12).toNat < offThr driven ∧
      driven.out.ch[(0 : Fin 32)].obsOff = false) ∧
    (let s := withCh 0 (fun c => { c with obsOn := true, forceHold := true }) loam
     s.out.ch[(0 : Fin 32)].obsOn = true ∧ s.out.ch[(0 : Fin 32)].forceHold = true) ∧
    (let s : State := { clay loam with out := { loam.out with discOpen := true } }
     s.out.discOpen = true ∧ s.modes.clay = true ∧ ∀ m : Fin 32, s.out.ch[m].obsOn = false) ∧
    (({ loam with out := { loam.out with softStart := true } } : State).out.softStart = true) := by
  repeat' first | exact accepted_of (by decide +kernel) | exact reaches_of (by decide +kernel) | exact arrivesDown_of (by decide +kernel) | exact arrivesUp_of (by decide +kernel) | decide +kernel | apply And.intro

/-- The field part o crosses in a cell with TAG 7. -/
def partCell (code : Byte) (b : List Byte) : CfgWriteCell := { tag := 7, addr := 0, value := 0, mask := 0, op := some ⟨code, b⟩ }

theorem partArrives_of {code : Byte} {b : List Byte} {s : State}
    (h : ArrivesDown (.cfgWrite (partCell code b)) s) (h2 : (s.barr.tagMem.find? (fun m => m.1 == (7 : BitVec 16))).isNone = true) :
    PartArrives ⟨code, b⟩ (partCell code b) s := ⟨h, rfl, rfl, by rwa [Option.isNone_iff_eq_none] at h2⟩

/-- Every field part reaches a field side that is up, in Clay or not. -/
theorem meets_parts (code : Byte) (b : List Byte) : ∀ s ∈ [loam, clay loam],
    PartArrives ⟨code, b⟩ (partCell code b) (down (.cfgWrite (partCell code b)) s) := by
  intro s hs
  have h : linkUp s = true ∧ s.barr.fieldClock = true ∧ s.barr.hostNext = s.barr.fieldExpect ∧
      (s.barr.tagMem.find? (fun m => m.1 == (7 : BitVec 16))).isNone = true := by
    simp only [List.mem_cons, List.not_mem_nil, or_false] at hs
    rcases hs with rfl | rfl <;> decide +kernel
  exact partArrives_of ⟨h.1, h.2.1, h.2.2.1, _, [], rfl, rfl⟩ h.2.2.2

/-- A state to which the commands of flag F cross. -/
def crosses (s : State) : Prop := linkUp s = true ∧ s.barr.rg6Held = [] ∧ s.barr.rg6.length < 128

theorem meets_crosses : crosses loam ∧ linkUp (linkDown loam) = false := by
  unfold crosses; decide +kernel

def edgeQ (t : Nat) : Request := rq 0x22 ([1, 0x9F] ++ be 6 (10000000 + t) ++ be 2 799 ++ [31])

theorem meets_OutputCommandsAndEdgesReachTheirChannels :
    (∀ a : Byte, a = 0 ∨ a = 1 ∨ a = 2 → acceptedB 0x20 (rq 0x20 [0x80, 0, 0, 1, a]) loam = true ∧ a.toNat ≤ 2) ∧
    (let q := rq 0x21 ([0x80, 0, 0, 1] ++ be 4 100000 ++ be 4 0 ++ [31] ++ be 4 50000 ++ [0])
     Accepted 0x21 q loam ∧ ochTimingCheck q loam = none) ∧
    (Accepted 0x23 (rq 0x23 [0, 0, 0, 1]) loam ∧ Accepted 0x24 (rq 0x24 []) loam ∧ Accepted 0x25 (rq 0x25 [0, 0, 0, 1]) loam) ∧
    (domOn loam 14 = true ∧ domOn loam 15 = true ∧ sweepHolds 0x80000001 (down (.cfgWrite (partCell 0x20 [0x80, 0, 0, 1, 0])) loam) = false ∧
      loam.modes.clay = false ∧ (clay loam).modes.clay = true ∧ loam.out.tripActive = 0 ∧
      byteAt [0x80, 0, 0, 1, 1] 4 = 1 ∧ byteAt [0x80, 0, 0, 1, 2] 4 = 2 ∧ bit (wordAt [0x80, 0, 0, 1, 0] 0) 31 = true ∧
      bit (wordAt [0x80, 0, 0, 1, 0] 0) 30 = false) ∧
    Canonical (down (.cfgWrite (partCell 0x21 [])) loam) ∧
    (Accepted 0x22 (edgeQ 399) loam ∧ ochEdgesCheck (edgeQ 399) loam = none ∧
      ((edgeEntries (edgeQ 399)).filterMap id).any (fun e => frameDiff e.frame (now loam) < 400) = true) ∧
    (let e : Edge := { ch := 31, on := true, frame := 10000400, tick := 799, fine := 31 }
     Accepted 0x22 (edgeQ 400) loam ∧ ochEdgesCheck (edgeQ 400) loam = none ∧ (edgeEntries (edgeQ 400)).filterMap id = [e] ∧
     [e].any (fun e => frameDiff e.frame (now loam) < 400) = false ∧ linkUp loam = true ∧ linkUp (clay loam) = true ∧
     loam.sect.ch[e.ch].geom = none ∧ crowded (e :: waitingEdges loam) = false ∧
     [e].any (fun x => (setSect 31 (fun c => { c with geom := some geomA }) loam).sect.ch[x.ch].geom.isSome) = true ∧
     loam.out.ch[e.ch].queue.length + ((crossingEdges loam).filter (fun x => x.ch == e.ch)).length < 32) ∧
    (∀ m : Word, sweepHolds m loam = false) := by
  refine ⟨by rintro a (rfl | rfl | rfl) <;> decide +kernel, by (repeat' first | exact accepted_of (by decide +kernel) | exact reaches_of (by decide +kernel) | exact arrivesDown_of (by decide +kernel) | exact arrivesUp_of (by decide +kernel) | decide +kernel | apply And.intro), by (repeat' first | exact accepted_of (by decide +kernel) | exact reaches_of (by decide +kernel) | exact arrivesDown_of (by decide +kernel) | exact arrivesUp_of (by decide +kernel) | decide +kernel | apply And.intro), by (repeat' first | exact accepted_of (by decide +kernel) | exact reaches_of (by decide +kernel) | exact arrivesDown_of (by decide +kernel) | exact arrivesUp_of (by decide +kernel) | decide +kernel | apply And.intro), ?_, by (repeat' first | exact accepted_of (by decide +kernel) | exact reaches_of (by decide +kernel) | exact arrivesDown_of (by decide +kernel) | exact arrivesUp_of (by decide +kernel) | decide +kernel | apply And.intro), by (repeat' first | exact accepted_of (by decide +kernel) | exact reaches_of (by decide +kernel) | exact arrivesDown_of (by decide +kernel) | exact arrivesUp_of (by decide +kernel) | decide +kernel | apply And.intro), fun _ => rfl⟩
  unfold Canonical
  repeat' first | exact accepted_of (by decide +kernel) | exact reaches_of (by decide +kernel) | exact arrivesDown_of (by decide +kernel) | exact arrivesUp_of (by decide +kernel) | decide +kernel | apply And.intro

theorem meets_SenseInputsFollowTheirSignals :
    (∀ t : Nat, 1 ≤ t → t ≤ 6 → let s := setReg 0x120000 (BitVec.ofNat 32 t) (setReg 0x120010 (BitVec.ofNat 32 t) loam)
      domOn s 17 = true ∧ s.barr.fieldClock = true ∧ sinType s 0 = t ∧ rolesOf s 0 = [] ∧ pairWait s 0 = false) ∧
    (bit (reg (setReg 0x120000 9 loam) 0x120000) 3 = true ∧ sinType (setReg 0x120000 9 loam) 0 = 1) ∧
    Accepted 0x38 (rq 0x38 []) loam := by
  refine ⟨?_, by (repeat' first | exact accepted_of (by decide +kernel) | exact reaches_of (by decide +kernel) | exact arrivesDown_of (by decide +kernel) | exact arrivesUp_of (by decide +kernel) | decide +kernel | apply And.intro), by (repeat' first | exact accepted_of (by decide +kernel) | exact reaches_of (by decide +kernel) | exact arrivesDown_of (by decide +kernel) | exact arrivesUp_of (by decide +kernel) | decide +kernel | apply And.intro)⟩
  intro t h1 h2
  interval_cases t <;> decide +kernel

/-- Fan role 0 enabled on drive channel 4 and tach input 2 (FREQ, with open-wire detection). -/
def fanned (f : Fan → Fan) : State :=
  setFan 0 f (setReg 0x120400 0x05020401 (setReg 0x120404 0x00020010 (setReg 0x120408 0x00010000 (setReg 0x120020 9 loam))))

theorem meets_FansAreSupervised :
    (let s := fanned fun f => { f with state := .starting, entered := 8000000000 }
     fanEnabled s 0 = true ∧ stallAt s 0 = some 8160000000 ∧ s.ev.field.length < 32 ∧ bit (fanCfg s 0) 1 = false) ∧
    (let s := fanned fun f => { f with state := .tachOpen }
     s.sense.fan[(0 : Fin 2)].state = .tachOpen ∧ field (fanCfg s 0) 31 24 ≠ 0) ∧
    (let s := fanned fun f => { f with state := .running }
     fanTach s 0 = 2 ∧ domOn s 17 = true ∧ s.barr.fieldClock = true ∧ bit (reg s 0x120020) 3 = true ∧ sinType s 2 = 1 ∧ rolesOf s 2 = [0] ∧
     s.sense.fan[(0 : Fin 2)].state = .running ∧
     mHz 1 (s.sense.inp[(2 : Fin 16)].lastInterval.getD 0) < field (fanThr s 0) 15 0 * 100 +
       field (reg s 0x120408) 15 0 * 1000 * (s.clk.tb.toNat - (s.sense.inp[(2 : Fin 16)].edges.headD 0).toNat) / 800000000) ∧
    (let s := setIn 2 (fun i => { i with lastInterval := some 1000, edges := [8000000000] }) (fanned fun f => { f with state := .running })
     field (fanThr s 0) 15 0 * 100 +
       field (reg s 0x120408) 15 0 * 1000 * (s.clk.tb.toNat - (s.sense.inp[(2 : Fin 16)].edges.headD 0).toNat) / 800000000 ≤
       mHz 1 (s.sense.inp[(2 : Fin 16)].lastInterval.getD 0)) ∧
    (let s := fanned fun f => { f with state := .stalled }
     crosses s ∧ Accepted 0x39 (rq 0x39 [4]) s ∧ domOn s 17 = true ∧
     PartArrives ⟨0x39, [4]⟩ (partCell 0x39 [4]) (down (.cfgWrite (partCell 0x39 [4])) s) ∧ (byteAt (reqBody (rq 0x39 [4])) 0).toNat = (fanDrive s 0).val ∧
     s.sense.fan[(0 : Fin 2)].state ≠ .idle ∧
     ∀ k : Fin 2, fanEnabled s k = true → (fanDrive s k).val = (fanDrive s 0).val → k = 0) := by
  unfold crosses
  repeat' first | exact partArrives_of (arrivesDown_of (by decide +kernel)) (by decide +kernel) | exact accepted_of (by decide +kernel) | exact reaches_of (by decide +kernel) | exact arrivesDown_of (by decide +kernel) | exact arrivesUp_of (by decide +kernel) | decide +kernel | apply And.intro
theorem meets_LoopCommandsCrossTheBarrier :
    (linkUp loam = true ∧ loam.barr.rg6Held = [] ∧ loam.barr.rg6.length + 5 ≤ 128) ∧
    (let q := rq 0x40 ([15, 1, 13, 4] ++ List.replicate 16 0)
     Accepted 0x40 q loam ∧ loopCoefCheck q loam = none ∧ (byteAt (reqBody q) 3).toNat ≤ 4) ∧
    (Accepted 0x41 (rq 0x41 [15, 0, 0, 0, 9]) loam ∧ Accepted 0x42 (rq 0x42 [0xFF, 0xFF, 1]) loam ∧ loam.modes.clay = false ∧
      (clay loam).modes.clay = true) ∧
    (let q := rq 0x43 [15, 0, 0, 0x40, 0, 0, 0, 1, 0, 7, 1, 0, 1]
     let s := withSlot 15 (fun l => { l with state := .running }) loam
     Accepted 0x43 q s ∧ loopTestCheck q s = none ∧ s.loop.slot[(Fin.ofNat 16 (byteAt (reqBody q) 0).toNat : Fin 16)].state = .running ∧
     s.loop.test.running = false) ∧
    (Accepted 0x44 (rq 0x44 [15, 0, 0, 0, 0, 0]) loam ∧ domOn loam 16 = true ∧ byteAt [15, 0, 0, 0, 0, 0] 1 = 0 ∧
      byteAt (reqBody (rq 0x42 [0xFF, 0xFF, 0])) 2 ≠ 1) := by
  repeat' first | exact accepted_of (by decide +kernel) | exact reaches_of (by decide +kernel) | exact arrivesDown_of (by decide +kernel) | exact arrivesUp_of (by decide +kernel) | decide +kernel | apply And.intro

theorem meets_LoopSlotsSampleAndObey :
    (domOn loam 16 = true ∧ loam.modes.clay = false ∧ (clay loam).modes.clay = true ∧
      loam.loop.slot[(15 : Fin 16)].cells = [] ∧ loam.loop.slot[(15 : Fin 16)].swapAt = none ∧
      loam.loop.slot[(15 : Fin 16)].state ≠ .running ∧ loam.loop.test.running = false) ∧
    (let s := withSlot 0 (fun l => { l with state := .running }) loam
     s.loop.slot[(Fin.ofNat 16 (field (reg s 0x130900) 3 0) : Fin 16)].state = .running ∧ s.loop.slot[(0 : Fin 16)].cells = [] ∧
     s.loop.slot[(0 : Fin 16)].swapAt = none) ∧
    (let s : State := { loam with loop := { loam.loop with test := { running := true, len := 0 } } }
     s.loop.test.running = true ∧ s.loop.test.len ≤ s.loop.test.recs.length) := by
  repeat' first | exact accepted_of (by decide +kernel) | exact reaches_of (by decide +kernel) | exact arrivesDown_of (by decide +kernel) | exact arrivesUp_of (by decide +kernel) | decide +kernel | apply And.intro

/-- The receiver on: CONT, GPS, GALILEO, both bands, RTK and RTK_BASE. -/
def rx (s : State) : State := setReg 0x070000 0x7D s
def onBand (n : Fin 96) (f : Track → Track) (s : State) : State :=
  { s with gnss := { s.gnss with trk := upd s.gnss.trk n f } }

theorem meets_TheReceiverTracksAndMeasures :
    (tracking (rx loam) = true ∧ signalOn (rx loam) 5 1 = true ∧ signalOn (rx loam) 63 0 = true ∧
      (rx loam).gnss.trk[(48 : Fin 96)].used = false ∧
      ((rx loam).gnss.trk.toList.any fun t => t.used && t.sat == 5 && t.signal = 1) = false ∧ (48 ≤ (48 : Fin 96).val ↔ (1 : Fin 4).val = 1 ∨ (1 : Fin 4).val = 3) ∧
      (48 ≤ (47 : Fin 96).val ↔ (0 : Fin 4).val = 1 ∨ (0 : Fin 4).val = 3)) ∧
    (let s := onBand 95 (fun t => { t with used := true, lock := true }) (rx loam)
     tracking s = true ∧ s.gnss.trk[(95 : Fin 96)].used = true ∧ s.gnss.trk[(95 : Fin 96)].lock = true ∧ clockOn s = true ∧ gnssMode s = 1) := by
  repeat' first | exact accepted_of (by decide +kernel) | exact reaches_of (by decide +kernel) | exact arrivesDown_of (by decide +kernel) | exact arrivesUp_of (by decide +kernel) | decide +kernel | apply And.intro

theorem meets_SolutionsBurstsAndTheAntenna :
    (tracking (rx loam) = true ∧ gnssMode (rx loam) = 1 ∧ clockOn (rx loam) = true ∧
      ({ solA with sats := 3 } : GnssSol).sats.toNat < satsNeeded { solA with sats := 3 }) ∧
    (let s := setReg 0x070000 0x1E loam
     tracking s = true ∧ gnssMode s = 2 ∧ clockOn s = true ∧
     ({ s with gnss := { s.gnss with burstBias := true } } : State).gnss.burstBias = true) ∧
    (loam.id.variant = .g2 ∧ domOn loam 5 = true ∧ loam.gnss.antBias = true ∧ loam.ev.host.length < 64) ∧
    (let s : State := { loam with canA := { mode := .normal, claim := .claimed, addr := 0x80 } }
     isoRuns s = true ∧ isHead s = true ∧ s.canA.claim = .claimed ∧ s.gnss.aidTime = none) := by
  repeat' first | exact accepted_of (by decide +kernel) | exact reaches_of (by decide +kernel) | exact arrivesDown_of (by decide +kernel) | exact arrivesUp_of (by decide +kernel) | decide +kernel | apply And.intro

def aidTimeQ : Request := rq 0x49 ([1, 0] ++ be 2 2300 ++ be 4 1000 ++ be 4 1000000)
def aidPosQ : Request := rq 0x49 ([2, 0] ++ be 4 1 ++ be 4 2 ++ be 4 3 ++ be 2 65535)
def aidMeasQ : Request := mq 0x49 (measBytes { src := 3, clkOk := true, partner := 4, frame := 5, sigs := [{ sat := 127, flags := 7, cn0 := 40, phase := 0, range := 0 }] })

theorem meets_GnssRequestsAreServed :
    (Accepted 0x48 (rq 0x48 []) loam ∧ (inParts (gnssData loam)).isSome = true ∧ Accepted 0x4E (rq 0x4E [0]) loam ∧
      loam.gnss.sol = none ∧ Accepted 0x4F (rq 0x4F []) loam ∧
      (inParts (BitVec.ofNat 8 (baseList loam).length :: (baseList loam).flatMap baseBytes)).isSome = true) ∧
    (Accepted 0x49 aidTimeQ loam ∧ gnssAidCheck aidTimeQ loam = none ∧
      aidOf aidTimeQ = .ok [.time ⟨2300, 1000, 1000000⟩]) ∧
    (Accepted 0x49 aidPosQ loam ∧ gnssAidCheck aidPosQ loam = none ∧ (aidOf aidPosQ).toOption.isSome = true) ∧
    (Accepted 0x49 aidMeasQ member ∧ gnssAidCheck aidMeasQ member = none ∧
      ((aidOf aidMeasQ).toOption.any fun rs => rs.any isMeas) = true ∧ isHead member = false) ∧
    (Accepted 0x4A (rq 0x4A [0xD3, 0, 0]) loam ∧ domOn loam 5 = true) ∧
    (let q := rq 0x4B [3, 40]
     Accepted 0x4B q (rx loam) ∧ inRange 1 3 (byteAt (reqBody q) 0).toNat = true ∧
     inRange 1 (if byteAt (reqBody q) 0 == 3 then 40 else 80) (byteAt (reqBody q) 1).toNat = true ∧
     captureState (rx loam) = none ∧ biased (rx loam) = true) ∧
    (({ loam with gnss := { loam.gnss with snapRun := some ⟨1, 80, 8000000000⟩ } } : State).gnss.snapRun.isSome = true) ∧
    (Accepted 0x4C (rq 0x4C ([0] ++ be 4 0 ++ be 2 200)) loam ∧ snapXferCheck (rq 0x4C ([0] ++ be 4 0 ++ be 2 200)) loam = none ∧
      domOn loam 7 = true ∧ Accepted 0x4C (rq 0x4C ([1] ++ be 4 0 ++ [7])) loam ∧
      snapXferCheck (rq 0x4C ([1] ++ be 4 0 ++ [7])) loam = none) ∧
    (let s : State := { loam with clk := { loam.clk with originGps := true } }
     Accepted 0x4D (rq 0x4D []) s ∧ s.gnss.snapRun = none ∧ domOn s 5 = true ∧ domOn s 7 = true ∧ s.clk.originGps = true ∧
     s.clk.valid = true ∧ s.gnss.solve = none ∧
     ({ s with gnss := { s.gnss with solve := some (rq 0x4D []) } } : State).gnss.solve.isSome = true) := by
  repeat' first | exact accepted_of (by decide +kernel) | exact reaches_of (by decide +kernel) | exact arrivesDown_of (by decide +kernel) | exact arrivesUp_of (by decide +kernel) | decide +kernel | apply And.intro | rfl

def sigsOf (src : BitVec 16) (n : Nat) : MeasRec :=
  { src := src, clkOk := true, partner := 7 - src, frame := 10000000, sigs := (List.range n).flatMap fun i =>
      [{ sat := BitVec.ofNat 8 i, flags := 0, cn0 := 40, phase := 0, range := 0 },
       { sat := BitVec.ofNat 8 i, flags := 1, cn0 := 40, phase := 0, range := 0 }] }
/-- The same signals, one with SLIP. -/
def slipRec (m : MeasRec) : MeasRec := { m with sigs := m.sigs.map fun g => if g.sat == 0 then { g with flags := g.flags ||| 4 } else g }
def baseA : BaseRec := { status := 2, nodeA := 3, nodeB := 4, frame := 10000000, east := 0, north := 0, up := 0, sigmaH := 1, sigmaV := 1 }

theorem meets_BaselinesAndMarksGoOut :
    (let s := rx { member with sect := { body := some ⟨true, true, 4, 0, 0⟩ }
                               gnss := { meas := (sigsOf 3 11).sigs, measFrame := 9995000 } }
     takesPart s = true ∧ hcoreRuns s = true ∧ isHead s = false ∧ s.gnss.meas ≠ [] ∧ s.gnss.meas.length ≤ 22 ∧
     frameDiff (now s) s.gnss.measFrame ≤ 5000) ∧
    (let s : State := { head with gnss := { measHeld := [sigsOf 3 5, sigsOf 4 5] } }
     isHead s = true ∧ s.chain.island = false ∧ hcoreRuns s = true ∧ participants baseA.frame s = [sigsOf 3 5, sigsOf 4 5] ∧
     (sigsOf 3 5).partner = (sigsOf 4 5).src ∧ (sigsOf 4 5).partner = (sigsOf 3 5).src ∧
     (sigsOf 3 5).src.toNat < (sigsOf 4 5).src.toNat ∧ baseA.nodeA = (sigsOf 3 5).src ∧ baseA.nodeB = (sigsOf 4 5).src ∧
     baseA.status.toNat ≤ 2 ∧ solvable (sigsOf 3 5) (sigsOf 4 5) = true ∧ solvable (sigsOf 4 5) (sigsOf 3 5) = true ∧
     s.modes.mode = .loam ∧ s.sec.life ≠ .retired ∧ s.pkt.dups = [] ∧ s.pkt.linkUse = [] ∧ 1780 ≤ linkShare 1 s ∧
     solvable (sigsOf 3 4) (sigsOf 4 4) = false ∧ solvable (sigsOf 4 4) (sigsOf 3 4) = false ∧
     slipped (sigsOf 3 5) (sigsOf 4 5) = [] ∧ slipped (sigsOf 4 5) (sigsOf 3 5) = [] ∧
     (0, 0) ∈ slipped (slipRec (sigsOf 3 5)) (sigsOf 4 5)) ∧
    (let s : State := setReg 0x070014 0x600 { loam with canB := { mode := .normal }, gnss := { mark := some (5, 5, 5) } }
     s.gnss.mark = some (5, 5, 5) ∧ bit (reg s 0x070014) 9 = true ∧ bit (reg s 0x070014) 10 = true ∧ portLive .b s = true ∧ s.canB.mode = .normal) ∧
    (let s : State := setReg 0x070014 0x200 { loam with canA := { mode := .normal }, gnss := { mark := some (5, 5, 5) } }
     bit (reg s 0x070014) 9 = true ∧ bit (reg s 0x070014) 10 = false ∧ portLive .a s = true ∧ s.canA.mode = .normal ∧ s.canA.silent = false) ∧
    (bit (reg (setReg 0x070014 0 loam) 0x070014) 9 = false) := by
  repeat' first | exact accepted_of (by decide +kernel) | exact reaches_of (by decide +kernel) | exact arrivesDown_of (by decide +kernel) | exact arrivesUp_of (by decide +kernel) | decide +kernel | apply And.intro

theorem meets_CanFramesComeIn :
    (let s : State := { loam with canA := { mode := .normal } }
     portLive .a s = true ∧ (can .a s).busOff = false ∧ (can .a s).mode ≠ .sleep ∧ (can .a s).abr = none ∧ domOn s 1 = true ∧
     (can .a s).ring.length < 1024 ∧ (can .a s).recCnt ≤ 127 ∧ hcoreRuns (halted s) = false ∧
     1024 ≤ (List.replicate 1024 (⟨0, ⟨true, 0, false, false, false, false, []⟩, false, 0⟩ : RingEntry)).length) ∧
    (let s : State := { loam with canB := { mode := .listen } }
     portLive .b s = true ∧ (can .b s).mode ≠ .sleep ∧ (can .b s).mode ≠ .normal ∧ (can .b s).abr = none) ∧
    (let s : State := { loam with canA := { mode := .normal, busOff := true, recovering := true } }
     domOn s (canDom .a) = true ∧ (can .a s).busOff = true ∧ (can .a s).recovering = true ∧ (can .a s).reqMode = none ∧ s.ev.host.length < 64) ∧
    (let s : State := { loam with canA := { waking := true } }
     (can .a s).waking = true ∧ (can .a s).mode = .sleep ∧ domOn s (canDom .a) = true ∧ domOn s 1 = true) ∧
    (({ loam with canA := { abr := some ⟨[0], 0, []⟩ } } : State).canA.abr.isSome = true) := by
  repeat' first | exact accepted_of (by decide +kernel) | exact reaches_of (by decide +kernel) | exact arrivesDown_of (by decide +kernel) | exact arrivesUp_of (by decide +kernel) | decide +kernel | apply And.intro

def sendQ (objects : Bool) : Request := rq 0x53 ([0, if objects then 0x09 else 0x01] ++ be 4 0x1FFFFFFF ++ [8] ++ List.replicate 8 1)
def fifoA : Can := { mode := .normal, fifo := [{ handle := 0x8001, frame := { ide := true, id := 5, data := [] } }] }

theorem meets_CanFramesGoOut :
    (let s : State := { loam with canA := { mode := .normal } }
     portLive .a s = true ∧ (can .a s).mode = .normal ∧ (can .a s).busOff = false ∧ (can .a s).attempt = none ∧ (can .a s).reqMode = none ∧
     (can .a s).obj[(0 : Fin 128)].kind ≠ .tx ∧ (can .a s).segs = [] ∧ (can .a s).own = [] ∧ s.pkt.canReplies = [] ∧ s.canA.silent = false) ∧
    (let s : State := { loam with canA := { fifoA with attempt := some (.fifo 0x8001) } }
     portLive .a s = true ∧ (can .a s).attempt = some (.fifo 0x8001) ∧
     ({ loam with canA := { fifoA with attempt := some (.obj 127) } } : State).canA.attempt = some (.obj 127)) ∧
    (let s : State := { loam with canA := { mode := .normal, reqMode := some (.sleep, true) } }
     (can .a s).reqMode = some (.sleep, true) ∧ domOn s (canDom .a) = true ∧ (can .a s).attempt = none ∧ (can .a s).retry = none ∧
     (can .a s).busOff = false ∧ (can .a s).afterReply = none ∧
     replyLeft (rq 0x51 [0, 3, 1]) s = true) ∧
    (({ loam with canA := { peer := some 0 } } : State).canA.peer = some 0 ∧
      ({ loam with canA := { peer := some 0 } } : State).canA.attempt ≠ some (.obj 0)) ∧
    (Accepted 0x50 (rq 0x50 [1]) loam ∧ portOk (rq 0x50 [1]) = true ∧ portOf (rq 0x50 [1]) = .b ∧
      Accepted 0x51 (rq 0x51 [0, 3, 1]) loam ∧ Accepted 0x52 (rq 0x52 [0]) loam ∧ loam.canA.busOff = false ∧
      ({ loam with canA := { busOff := true } } : State).canA.busOff = true) ∧
    (let s : State := { loam with canA := { mode := .normal } }
     Accepted 0x53 (sendQ false) s ∧ canSendCheck (sendQ false) s = none ∧ canSendCheck (sendQ true) s = none ∧
     Accepted 0x53 (sendQ true) s ∧ (can .a s).mode ≠ .sleep ∧ (byteAt (reqBody (sendQ false)) 1).getLsbD 3 = false ∧
     (can .a s).fifo.length < 64 ∧ (byteAt (reqBody (sendQ true)) 1).getLsbD 3 = true ∧ freeObj (can .a s) = some 16 ∧
     64 ≤ (List.replicate 64 fifoA.fifo).length) ∧
    (let q := rq 0x54 [0, 0x80, 1]
     Accepted 0x54 q loam ∧ handleCand (can .a loam) (BitVec.ofNat 16 (beAt (reqBody q) 1 2)) = none ∧
     handleCand fifoA (BitVec.ofNat 16 (beAt (reqBody q) 1 2)) = some (.fifo 0x8001) ∧ fifoA.attempt ≠ some (.fifo 0x8001) ∧
     ({ fifoA with attempt := some (.fifo 0x8001) } : Can).attempt = some (.fifo 0x8001)) := by
  repeat' first | exact accepted_of (by decide +kernel) | exact reaches_of (by decide +kernel) | exact arrivesDown_of (by decide +kernel) | exact arrivesUp_of (by decide +kernel) | decide +kernel | apply And.intro

theorem meets_TheAddressIsClaimed :
    (let s : State := { loam with canA := { mode := .normal } }
     isoRuns s = true ∧ qualifies s = true ∧ s.canA.claim = .none ∧ (253 : Byte).toNat ≤ 253) ∧
    (let s : State := { loam with id := { loam.id with isoName := 5 }, canA := { mode := .normal, claim := .claimed, addr := 128 } }
     isoRuns s = true ∧ s.canA.claim = .claimed ∧ s.id.isoName.toNat < (6 : BitVec 64).toNat ∧ (4 : BitVec 64).toNat < s.id.isoName.toNat ∧
     selfConfigurable s = false ∧ s.ev.host.length < 64 ∧ nextAddr 128 [128] = some 129 ∧
     selfConfigurable { s with id := { s.id with isoName := 0x8000000000000005 } } = true ∧
     nextAddr 247 ((List.range 120).map fun i => BitVec.ofNat 8 (128 + i)) = none) ∧
    (let s : State := { loam with canA := { mode := .normal, claim := .cannotClaim, silent := true } }
     isoRuns s = true ∧ s.canA.claim = .cannotClaim ∧ s.canA.silent = true ∧
     ({ loam with canA := { claim := .claiming } } : State).canA.claim = .claiming) := by
  repeat' first | exact accepted_of (by decide +kernel) | exact reaches_of (by decide +kernel) | exact arrivesDown_of (by decide +kernel) | exact arrivesUp_of (by decide +kernel) | decide +kernel | apply And.intro
theorem meets_ServiceTransfersMoveBytes :
    svcLive loam = true ∧ addressed 0x48 loam = true ∧ addressed 0x49 loam = false ∧
    ({ loam with svc := { page := 0x3F } } : State).svc.page = 0x3F ∧ 3 < (4 : Byte).toNat ∧ 3 < (255 : Byte).toNat ∧
    ({ loam with svc := { page := 0x3F, busy := true } } : State).svc.busy = true := by
  repeat' first | exact accepted_of (by decide +kernel) | exact reaches_of (by decide +kernel) | exact arrivesDown_of (by decide +kernel) | exact arrivesUp_of (by decide +kernel) | decide +kernel | apply And.intro

def replyA : Packet := { opcode := 0, seq := 1, dest := 0xFFFE, src := 0 }

theorem meets_MailboxRunsRequestsAndReplies :
    (svcLive loam = true ∧ ({ loam with svc := { busy := true } } : State).svc.busy = true ∧ loam.svc.busy = false ∧ domOn loam 1 = true) ∧
    (hcoreRuns (halted loam) = false ∧ domOn (halted loam) 1 = true) ∧
    (∀ n : Byte, n = 20 ∨ n = 252 → let s : State := { loam with svc := { mbLen := n } }
      hcoreRuns s = true ∧ domOn s 1 = true ∧ s.chain.rg4 = [] ∧ 20 ≤ s.svc.mbLen.toNat ∧ s.svc.mbLen.toNat ≤ 252) ∧
    (({ loam with svc := { heldReplies := [replyA] } } : State).svc.heldReplies = replyA :: [] ∧ loam.svc.heldReplies = []) ∧
    (domOn loam 10 = true ∧ loam.svc.ready = false ∧ loam.svc.wroteSince = false) ∧
    (∀ n : Nat, n = 14 ∨ n = 15 → let s : State := { loam with svc := { ready := true, heldReplies := List.replicate n replyA } }
      s.svc.busy = false ∧ s.svc.ready = true ∧ s.svc.heldReplies.length = n) ∧
    (({ loam with svc := { attnPend := true } } : State).svc.attnPend = true ∧ loam.svc.attnPend = false ∧
      ({ loam with svc := { sdaLow := true } } : State).svc.sdaLow = true) := by
  refine ⟨by (repeat' first | exact accepted_of (by decide +kernel) | exact reaches_of (by decide +kernel) | exact arrivesDown_of (by decide +kernel) | exact arrivesUp_of (by decide +kernel) | decide +kernel | apply And.intro), by (repeat' first | exact accepted_of (by decide +kernel) | exact reaches_of (by decide +kernel) | exact arrivesDown_of (by decide +kernel) | exact arrivesUp_of (by decide +kernel) | decide +kernel | apply And.intro), ?_, by (repeat' first | exact accepted_of (by decide +kernel) | exact reaches_of (by decide +kernel) | exact arrivesDown_of (by decide +kernel) | exact arrivesUp_of (by decide +kernel) | decide +kernel | apply And.intro), by (repeat' first | exact accepted_of (by decide +kernel) | exact reaches_of (by decide +kernel) | exact arrivesDown_of (by decide +kernel) | exact arrivesUp_of (by decide +kernel) | decide +kernel | apply And.intro), ?_, by (repeat' first | exact accepted_of (by decide +kernel) | exact reaches_of (by decide +kernel) | exact arrivesDown_of (by decide +kernel) | exact arrivesUp_of (by decide +kernel) | decide +kernel | apply And.intro)⟩ <;> rintro n (rfl | rfl) <;> decide +kernel

theorem meets_WakesRunOrAreLatched :
    (loam.chain.rg4 = [] ∧ loam.svc.goWaits = false ∧ wakeEnabled .energyUp loam = false) ∧
    (let s : State := setReg 0x080008 0x1FFF { loam with pwr := {} }
     wakeEnabled .keyIn s = true ∧ wakeEnabled .energyUp s = true ∧ s.pwr.wakeLogic = true ∧ s.pwr.txn = none ∧ s.pwr.lsup = true ∧
     ({ s with pwr := { s.pwr with lsup := false } } : State).pwr.lsup = false ∧
     ({ s with pwr := { s.pwr with txn := some { by' := .keyOff, targets := [] } } } : State).pwr.txn.isSome = true ∧
     ({ s with clk := { s.clk with tree := .stopped } } : State).clk.tree = .stopped ∧ s.clk.tree ≠ .stopped) ∧
    (({ loam with pwr := { loam.pwr with fsup := .absent } } : State).pwr.fsup = .absent ∧
      bit (reg (setReg 0x140000 0 loam) 0x140000) 0 = false ∧ bit (reg (setReg 0x140000 1 loam) 0x140000) 0 = true ∧
      loam.pwr.fsup ≠ .absent ∧ loam.barr.epochRetry = false) ∧
    (linkUp loam = true ∧ loam.pwr.pwrfRead = false ∧
      ({ loam with pwr := { loam.pwr with pwrfRead := true } } : State).pwr.pwrfRead = true) := by
  repeat' first | exact accepted_of (by decide +kernel) | exact reaches_of (by decide +kernel) | exact arrivesDown_of (by decide +kernel) | exact arrivesUp_of (by decide +kernel) | decide +kernel | apply And.intro

def pdQ : Request := rq 0x78 [2, 6, 2, 9, 0]
/-- A request of the chain that takes FLASH's keeper away while images need it. -/
def pdTxn (ts : List (Fin 18 × Dom)) : PdTxn := { by' := .request { rq 0x78 [] with via := .headHost }, targets := ts }
def inTxn (ts : List (Fin 18 × Dom)) (s : State) : State := { s with pwr := { s.pwr with txn := some (pdTxn ts) } }

theorem meets_DomainTransactionsEndWholeOrNotAtAll :
    (Accepted 0x78 pdQ loam ∧ pdSetCheck pdQ loam = none ∧ pdTargets (reqBody pdQ) = some [(6, .on), (9, .off)] ∧
      loam.pwr.txn = none ∧ loam.pwr.queued = [] ∧ loam.id.variant = .g2 ∧
      ({ loam with id := { loam.id with variant := .b } } : State).id.variant = .b ∧ (6, Dom.on) ∈ [((6 : Fin 18), Dom.on), (9, .off)] ∧
      (inTxn [] loam).pwr.txn.isSome = true) ∧
    (let x := pdTxn [(0, .off)]
     let s := inTxn [(0, .off)] loam
     s.pwr.txn = some x ∧ x.undo = none ∧ (prepare x s).isSome = true ∧ s.pwr.queued = [] ∧
     s.pwr.wakeLatch = none ∧ s.chain.rg4 = [] ∧ s.svc.goWaits = false ∧
     (rq 0x78 []).pkt.sched = false ∧ Via.headHost ≠ .svc ∧ Via.headHost ≠ .planner) ∧
    (let s := inTxn [(17, .on)] { loam with pwr := { loam.pwr with dom := loam.pwr.dom.set 17 .off } }
     stopsLast (pdTxn [(17, .on)]) 17 = false ∧ prepare (pdTxn [(17, .on)]) s = none ∧ starts s.pwr.dom[(17 : Fin 18)] .on = true) ∧
    (let s := inTxn [(9, .off)] loam
     stopsLast (pdTxn [(9, .off)]) 9 = false ∧ prepare (pdTxn [(9, .off)]) s = none ∧ stops s.pwr.dom[(9 : Fin 18)] .off = true ∧
     stopReason { s with canB := { mode := .normal } } 9 = none ∧
     stopReason { s with canB := { mode := .sleep, wakeOpt := true } } 9 = some 2 ∧ (pdTxn [(9, .off)]).force = false) := by
  repeat' first | exact accepted_of (by decide +kernel) | exact reaches_of (by decide +kernel) | exact arrivesDown_of (by decide +kernel) | exact arrivesUp_of (by decide +kernel) | decide +kernel | apply And.intro

/-- The domains a shutdown turns off are OFF but those it turns off last. -/
def bare : State := { linkDown loam with pwr := { loam.pwr with
  dom := ((((((Vector.replicate 18 Dom.off).set 0 .on).set 1 .on).set 2 .on).set 3 .on).set 7 .on).set 11 .on } }

theorem meets_SuppliesKeyAndCellChangeThePosture :
    (let s : State := { loam with pwr := { loam.pwr with keyCount := true, txn := some (pdTxn []) } }
     s.pwr.keyCount = true ∧ hcoreRuns s = true ∧ s.pwr.txn.isSome = true ∧ (halted s).sec.hHalt = true ∧ loam.pwr.keyCount = false) ∧
    (loam.chain.rg4 = [] ∧ loam.svc.goWaits = false ∧ loam.pwr.shutdown = .none ∧ loam.pwr.dom[1] = .on ∧ loam.pwr.txn = none) ∧
    (let s : State := { linkDown loam with pwr := { loam.pwr with shutdown := .retry 9 } }
     s.pwr.shutdown = .retry 9 ∧ s.pwr.txn = none ∧ s.pwr.queued = [] ∧ s.pwr.wakeLatch = none ∧
     (prepare (keyOffTxn s) s).isSome = true ∧
     prepare { keyOffTxn s with force := true, targets := (keyOffTxn s).targets.filter fun y => !(heldDoms (keyOffTxn s) s).contains y.1 } s = none) ∧
    (let s : State := { bare with pwr := { bare.pwr with shutdown := .retry 0 } }
     prepare (keyOffTxn s) s = none ∧ ∀ d : Fin 18, d.val = 4 ∨ d.val = 5 ∨ d.val = 6 ∨ d.val = 8 ∨ d.val = 9 ∨ d.val = 10 → s.pwr.dom[d] = .off) ∧
    (let s : State := { clay loam with pwr := { loam.pwr with batAbsent := true } }
     s.pwr.lsup = true ∧ s.pwr.batAbsent = true ∧ s.modes.clay = true ∧ s.sec.fHalt = false ∧ s.sec.hHalt = false ∧
     loam.pwr.batAbsent = false ∧ ({ s with pwr := { s.pwr with lsup := false } } : State).pwr.lsup = false) ∧
    (let s : State := { loam with pwr := { loam.pwr with lsup := false } }
     s.pwr.lsup = false ∧ s.pwr.wakeLogic = true ∧ s.pwr.wakeLatch = none ∧ s.pwr.txn = none ∧
     wakeEnabled .lsup (setReg 0x080008 0 s) = false ∧ wakeEnabled .lsup (setReg 0x080008 2 s) = true ∧
     ({ s with pwr := { s.pwr with wakeLogic := false } } : State).pwr.wakeLogic = false) ∧
    (loam.pwr.fsup = .present ∧ ({ loam with pwr := { loam.pwr with fsup := .low } } : State).pwr.fsup = .low ∧
      ({ loam with pwr := { loam.pwr with fsup := .absent } } : State).pwr.fsup = .absent) ∧
    (2000 ≤ (2000 : BitVec 12).toNat ∧ (3650 : BitVec 12).toNat ≤ 3650 ∧ chargeable 0 = true ∧ chargeable 45 = true ∧ chargeable 46 = false ∧
      ({ loam with pwr := { loam.pwr with phase := .cv } } : State).pwr.phase = .cv) := by
  repeat' first | exact accepted_of (by decide +kernel) | exact reaches_of (by decide +kernel) | exact arrivesDown_of (by decide +kernel) | exact arrivesUp_of (by decide +kernel) | decide +kernel | apply And.intro

theorem meets_ImagesAreWrittenVerifiedAndActivated :
    (domOn loam 4 = true ∧ namedSlot (rq 0x68 ([1] ++ be 4 8388608)) = true ∧ Accepted 0x68 (rq 0x68 ([1] ++ be 4 8388608)) loam ∧
      beAt (reqBody (rq 0x68 ([1] ++ be 4 8388608))) 1 4 ≤ 8388608 ∧ loam.fw.runningB = some false ∧ loam.fw.runningB ≠ some true ∧
      namedSlot (rq 0x68 ([0] ++ be 4 1)) = false ∧ Accepted 0x68 (rq 0x68 ([0] ++ be 4 1)) loam) ∧
    (let q := rq 0x69 ([0, 0, 0, 0] ++ List.replicate 200 5)
     let s : State := { loam with fw := { loam.fw with openB := some false, slotA := { len := 200 } } }
     Accepted 0x69 q s ∧ namedSlot q = false ∧ loam.fw.openB = none ∧ s.fw.openB = some false ∧ s.fw.erasing = false ∧
     beAt (reqBody q) 0 4 = (imgOf false s).wptr ∧ (imgOf false s).wptr + ((reqBody q).length - 4) ≤ (imgOf false s).len ∧
     beAt (reqBody (rq 0x69 [0, 0, 0, 1, 5])) 0 4 ≠ (imgOf false s).wptr ∧
     ({ s with fw := { s.fw with erasing := true } } : State).fw.erasing = true) ∧
    (let q := rq 0x6A [0]
     Accepted 0x6A q loam ∧ namedSlot q = false ∧ domOn loam 3 = true ∧ (imgOf false loam).len ≤ (imgOf false loam).wptr ∧
     slotBundle (imgOf false loam) = some factoryBundle ∧ bundleValid factoryBundle loam = true ∧
     factoryBundle.epoch.toNat < ({ loam with sec := { loam.sec with rollback := 2 } } : State).sec.rollback ∧ factoryBundle.sigOk = true ∧
     (let s : State := { loam with fw := { loam.fw with slotA := { bundle := some { factoryBundle with sigOk := false } } } }
      slotBundle (imgOf false s) = some { factoryBundle with sigOk := false } ∧ (imgOf false s).len ≤ (imgOf false s).wptr) ∧
     (let s : State := { loam with fw := { loam.fw with slotA := { len := 5 } } }
      (imgOf false s).wptr < (imgOf false s).len)) ∧
    (let q := rq 0x6B [1]
     Accepted 0x6B q loam ∧ namedSlot q = true ∧ (imgOf true loam).verified = false ∧
     (imgOf true { loam with fw := { loam.fw with slotB := { verified := true } } }).verified = true ∧
     Accepted 0x6B (rq 0x6B [0]) loam ∧ namedSlot (rq 0x6B [0]) = false) ∧
    (Accepted 0x6C (rq 0x6C []) loam ∧ namedSlot (rq 0x6C []) = false) := by
  repeat' first | exact accepted_of (by decide +kernel) | exact reaches_of (by decide +kernel) | exact arrivesDown_of (by decide +kernel) | exact arrivesUp_of (by decide +kernel) | decide +kernel | apply And.intro

/-- A bundle whose digest is that of its F-image. -/
def soundBundle : Bundle := { factoryBundle with
  fOff := 0, fLen := 18, digest := Config.sha256 (readBytes flashByte [] 0 18) }

theorem meets_TheFieldImageIsLoadedAndStarted :
    (linkUp loam = true ∧ (0 : Word).toNat = loam.fw.fimgPtr ∧ loam.fw.fimgLoaded = true ∧ loam.fw.loading = false ∧
      ArrivesDown (.fimgChunk 0 []) (down (.fimgChunk 0 []) loam) ∧
      ({ loam with fw := { loam.fw with fimgLoaded := false } } : State).fw.fimgLoaded = false ∧ (18 : Word).toNat ≠ loam.fw.fimgPtr) ∧
    (let s : State := { loam with fw := { loam.fw with loading := true, slotA := { bundle := some soundBundle } } }
     s.fw.loading = true ∧ (∃ b, runningBundle s = some b ∧ Config.sha256 (imageBytes s) = b.digest) ∧
     s.barr.rg6 = [] ∧ s.barr.rg6Held = []) ∧
    (∀ n : Nat, n = 1 ∨ n = 2 → let s := silt { loam with fw := { loam.fw with fimgChecking := true, misses := n } }
      runningBundle s = some factoryBundle ∧ s.fw.fimgChecking = true ∧ s.fw.misses = n ∧ s.ev.host.length < 64 ∧ s.modes.mode = .silt ∧
      factoryBundle.digest + 1 ≠ factoryBundle.digest) ∧
    (let s : State := { loam with fw := { loam.fw with fimgValid := true, fimgDigest := factoryBundle.digest } }
     s.fw.fimgValid = true ∧ s.fw.fimgDigest = factoryBundle.digest ∧
     ({ s with fw := { s.fw with fimgValid := false } } : State).fw.fimgValid = false) := by
  refine ⟨by (repeat' first | exact accepted_of (by decide +kernel) | exact reaches_of (by decide +kernel) | exact arrivesDown_of (by decide +kernel) | exact arrivesUp_of (by decide +kernel) | decide +kernel | apply And.intro), ⟨rfl, ⟨soundBundle, rfl, rfl⟩, rfl, rfl⟩, ?_, by (repeat' first | exact accepted_of (by decide +kernel) | exact reaches_of (by decide +kernel) | exact arrivesDown_of (by decide +kernel) | exact arrivesUp_of (by decide +kernel) | decide +kernel | apply And.intro)⟩
  rintro n (rfl | rfl) <;> decide +kernel

/-- The node before BOOT, with the slots as given. -/
def powered (a b : ImgSlot) : State := { State.reset with
  clk := { tree := .running, lock := true, valid := true }, fw := { slotA := a, slotB := b } }
def goodSlot (m : SlotMark) : ImgSlot := { invalid := false, bundle := some factoryBundle, len := 1024, wptr := 1024, mark := m }

theorem meets_BootStartsAnImageOrStaysInSand :
    (let s := powered (goodSlot .confirmed) {}
     s.chain.rg4 = [] ∧ s.svc.goWaits = false ∧ s.modes.booted = false ∧ clockOn s = true ∧ s.sec.hHalt = false ∧
     s.sec.life ≠ .retired ∧ bootSlot s = some false ∧ s.id.sandStrap = false ∧ s.fw.sandReq = false ∧
     (imgOf false s).mark = .confirmed ∧ slotBundle (imgOf false s) = some factoryBundle ∧
     ({ s with id := { s.id with sandStrap := true } } : State).id.sandStrap = true ∧
     ({ s with fw := { s.fw with sandReq := true } } : State).fw.sandReq = true) ∧
    (({ State.reset with sec := { State.reset.sec with life := .retired } } : State).sec.life = .retired ∧
      bootSlot (powered {} {}) = none ∧ clockOn State.reset = false ∧ loam.modes.booted = true) ∧
    ((imgOf false (powered (goodSlot (.trial 3)) {})).mark = .trial 3 ∧ bootSlot (powered (goodSlot (.trial 3)) {}) = some false ∧
      canRollBack false (powered (goodSlot (.trial 3)) {}) = false ∧
      canRollBack false (powered (goodSlot (.trial 3)) (goodSlot .previous)) = true ∧
      bootSlot (powered (goodSlot (.trial 3)) (goodSlot .previous)) = some false) := by
  repeat' first | exact accepted_of (by decide +kernel) | exact reaches_of (by decide +kernel) | exact arrivesDown_of (by decide +kernel) | exact arrivesUp_of (by decide +kernel) | decide +kernel | apply And.intro

def asA : AsRec := { ch := 0, on := true, outcome := 0, line := 1, cross := 0, edge := 0, tick := 0, fine := 0, late := 0, ground := 0, seq := 5, flags := 0 }

theorem meets_EventRecordsAndEpochEdges :
    (let s : State := { loam with ev := { mirror := [recA .field 1], unacked := [recA .field 1] } }
     linkUp s = true ∧ s.barr.fieldClock = true ∧ ArrivesUp (.event (recA .field 1)) (up (.event (recA .field 1)) loam) ∧
     ArrivesUp (.event (recA .field 1)) (up (.event (recA .field 1)) s) ∧ recA .field 1 ∈ s.ev.unacked ∧
     loam.ev.mirror.find? (sameId (recA .field 1)) = none ∧ loam.ev.mirror.length < 64 ∧
     s.ev.mirror.find? (sameId (recA .field 1)) = some (recA .field 1) ∧
     (s.ev.unacked ++ s.ev.heard).find? (fun x => x.seq == 7) = some (recA .field 1) ∧
     (loam.ev.unacked ++ loam.ev.heard).find? (fun x => x.seq == 7) = none) ∧
    (let s : State := { loam with ev := { handling := [recA .host 1] } }
     s.ev.handling = [recA .host 1] ∧ handles s (recA .host 1).side = true ∧ s.ev.waiting = [] ∧ handles s .field = true) ∧
    (Accepted 0x58 (rq 0x58 [2, 0, 0, 0, 0, 7]) loam ∧ loam.modes.mode ≠ .sand ∧
      (byteAt (reqBody (rq 0x58 [2, 0, 0, 0, 0, 7])) 0).toNat ≤ 2 ∧
      (byteAt (reqBody (rq 0x58 [2, 0, 0, 0, 0, 7])) 5).toNat ≤ 7) ∧
    (let s : State := { loam with ev := { host := [recA .host 2] } }
     Accepted 0x59 (rq 0x59 [0, 0, 0, 7]) s ∧ namedEvent 7 s = some (recA .host 2) ∧ (recA .host 2).side = .host ∧ namedEvent 8 s = none ∧
     recA .host 2 ∈ s.ev.host ∧ 2 ≤ (recA .host 2).sev.toNat) ∧
    (let s : State := { loam with ev := { field := [recA .field 2] } }
     domOn s 13 = true ∧ linkUp s = true ∧ s.ev.field = [recA .field 2] ∧ (recA .field 2).seq = (7 : Word).setWidth 31) ∧
    (clockOn State.reset = false ∧ clockOn member = true ∧ isHead member = false ∧ hcoreRuns member = true ∧ domOn member 4 = true) ∧
    (let q := rq 0x5D [0, 0, 0, 5, 7]
     Accepted 0x5D q loam ∧ (byteAt (reqBody q) 4).toNat ≤ 7 ∧ appliedFrom (wordAt (reqBody q) 0) 1 loam = [] ∧
     appliedFrom (wordAt (reqBody q) 0) 1 { loam with fw := { loam.fw with asRing := [asA] } } ≠ []) := by
  repeat' first | exact accepted_of (by decide +kernel) | exact reaches_of (by decide +kernel) | exact arrivesDown_of (by decide +kernel) | exact arrivesUp_of (by decide +kernel) | decide +kernel | apply And.intro

def sweepQ : Request := ahead 400 (rq 0x5A [3, 0, 0, 0, 1, 0, 9]) loam
def sweepA (st : SweepState) : Sweep := ⟨9, 3, 1, 10000400, st, 0, []⟩
def swept (st : SweepState) : State := { loam with out := { loam.out with sweep := some (sweepA st), mirror := some (sweepA st) } }

theorem meets_SweepsAreAcceptedRunAndRead :
    (linkUp loam = true ∧ hcoreRuns loam = true ∧ sweepQ.pkt.opcode = 0x5A ∧ checkFormat sweepQ = none ∧ forMe sweepQ loam = true ∧
      otherChain sweepQ loam = false ∧ loam.pkt.dups.find? (isDup sweepQ) = none ∧ sweepQ.parts = [] ∧ sweepQ.pkt.more = false ∧
      loam.modes.mode = .loam ∧ checkLife 0x5A loam = none ∧ (reqBody sweepQ).length = 7 ∧ (byteAt (reqBody sweepQ) 0).toNat ≤ 3 ∧
      sweepQ.pkt.sched = true ∧ loam.clk.valid = true ∧ 400 ≤ frameDiff sweepQ.pkt.applyAt (now loam) ∧
      frameDiff sweepQ.pkt.applyAt (now loam) ≤ 86400000000 ∧ loam.pkt.sched.length < 64 ∧ (clay loam).modes.clay = true ∧
      loam.modes.clay = false ∧ loam.out.mirror = none ∧ (∀ n ∈ maskList (wordAt (reqBody sweepQ) 1), claimOf loam n ≤ budget loam) ∧
      domOn loam 15 = true ∧ domOn loam 17 = true) ∧
    (let c : Cell := .sweepCtrl (.start 3 1 9 10000400)
     ArrivesDown c (down c loam)) ∧
    (let c : Cell := .sweepCtrl (.abort 9)
     ArrivesDown c (down c (swept .running))) ∧
    ((swept .running).out.sweep = some (sweepA .running) ∧ (sweepA .running).sweepId = 9 ∧ sweepLive (sweepA .running) = true ∧
      (sweepA .running).state = .running ∧ (sweepA .running).cur = (0 : Fin 32).val ∧ sweepChannels (sweepA .running) = [0] ∧
      (sweepA .running).results = [] ∧ linkUp (swept .running) = true ∧ (swept .running).barr.fieldClock = true) ∧
    (let r : SweepRes := { ch := 0, state := 1, v1 := 1, v2 := 2, v3 := 3 }
     ArrivesUp (.capture r) (up (.capture r) (swept .running)) ∧ (swept .running).out.mirror = some (sweepA .running)) ∧
    (Accepted 0x5B (rq 0x5B [0, 9, 31]) loam ∧ Accepted 0x5B (rq 0x5B [0, 9, 0]) (swept .ended) ∧
      (sweepA .ended).sweepId.toNat = beAt (reqBody (rq 0x5B [0, 9, 0])) 0 2) ∧
    (Accepted 0x5C (rq 0x5C [0, 9]) (swept .running) ∧ (swept .running).pkt.sched = [] ∧ (swept .running).barr.rg6Held = [] ∧
      (swept .running).barr.rg6.length < 128) := by
  repeat' first | exact accepted_of (by decide +kernel) | exact reaches_of (by decide +kernel) | exact arrivesDown_of (by decide +kernel) | exact arrivesUp_of (by decide +kernel) | decide +kernel | apply And.intro

/-! ## WellFormed refuses -/

def oneFrame (n : Nat) : ChainFrame := { ftype := 1, amode := 0, payload := List.replicate n 0 }
def someCoef (first : Byte) (n : Nat) (swap : Bool) : Instr :=
  .loopCoefCell { tag := 1, slot := 0, banked := true, swap := swap, first := first, words := List.replicate n 0 }
def someRec (n : Nat) (side : Side) : EventRec :=
  { tb := 0, side := side, seq := 1, code := 0, sev := 0, opened := false, chan := 0, count := 1, last := 0,
    data := List.replicate n 0 }
def someSig : MeasSig := { sat := 0, flags := 0, cn0 := 0, phase := 0, range := 0 }
def someEdge : Edge := { ch := 0, on := true, frame := 0, tick := 0, fine := 0 }
def someCan (fdf rtr brs : Bool) (id n : Nat) : Instr :=
  .canFrameReceive .a { ide := false, id := BitVec.ofNat 29 id, fdf := fdf, brs := brs, rtr := rtr, data := List.replicate n 0 }

theorem test_wf_refuses_bad_packets :
    ([Instr.statusGet (rq 0x06 (List.replicate 233 0)),
      .ochEdges { rq 0x22 [] with parts := [[0]] },
      .ochEdges { rq 0x22 [] with parts := List.replicate 17 [0] },
      .ochEdges { rq 0x22 [] with parts := [[0], List.replicate 233 0] },
      .mbReplyArrive (rq 0x01 (List.replicate 233 0)).pkt,
      .frameForward .up (oneFrame 253), .cmdFrame (oneFrame 253), .rplFrame (oneFrame 253), .evtFrame (oneFrame 253),
      .canTpMessage .a 0 0 .singleFrame (List.replicate 1786 0), .canFdSegment .a 0 (List.replicate 65 0),
      .fimgChunk 0 (List.replicate 17 0)]).all (fun i => !i.wf) = true := by decide +kernel

theorem test_wf_refuses_bad_cells :
    ([Instr.cfgRead 1 0 0, .cfgRead 1 0 5, .cfgData 1 0 0 [0, 0, 0, 0, 0], .schedEdge 1 [],
      .barrierLinkUp 415, .barrierLinkUp 481, .schedEdge 1 [someEdge, someEdge, someEdge], .edgeAck [], .edgeAck (List.replicate 6 (0, 0)),
      someCoef 1 1 true, someCoef 1 0 false, someCoef 1 5 false, someCoef 15 3 false, .coefAck [],
      .coefAck (List.replicate 6 (0, 0)), .eventMessage (someRec 7 .field), .eventMessage (someRec 8 .host)]).all
      (fun i => !i.wf) = true := by decide +kernel

theorem test_wf_refuses_bad_lists :
    ([Instr.epochEdge (List.replicate 257 { sect := 0, on := 0, off := 0 }) [], .lampMeasure 0 [1, 2, 3], .sinUpdate [0],
      .gnssMeasure (List.replicate 97 someSig), .i2cReadTransfer 0x48 0,
      someCan false false false 0 9, someCan false false true 0 8, someCan true false false 0 9,
      someCan true true false 0 8, someCan false false false 2048 8]).all (fun i => !i.wf) = true := by decide +kernel

theorem test_wf_accepts :
    ([Instr.statusGet (rq 0x06 []), .barrierLinkUp 416, .barrierLinkUp 480, .cfgRead 1 0 4,
      .schedEdge 1 [someEdge, someEdge], someCoef 13 4 false, someCoef 0 0 true, someCan true false true 2047 12, .eventMessage (someRec 8 .field), .i2cReadTransfer 0x48 1,
      .ochEdges { rq 0x22 [] with parts := List.replicate 16 [0] }]).all Instr.wf = true := by decide +kernel

/-! ## Worked values of the spec -/

def after (c : Instr) (s : State) : State := match exec c s with | .next t => t | _ => s
def runs (s : State) (cs : List Instr) : State := cs.foldl (fun s c => after c s) s
/-- The payload of the reply in the mailbox buffer. -/
def payloadOf (s : State) : List Byte :=
  ((List.range (s.svc.mbLen.toNat - 20)).map fun i => (readBytes sramByte s.svc.buf (4 + 16 + i) 1).headD 0)

/-- Table 00-7: TB 800,000,000,000 is FRAME48 1,000,000,000. -/
theorem test_frame48 : frameOf 800000000000 = 1000000000 ∧ frameOf 800200000000 = 1000250000 := by decide +kernel

/-- Table 01-9: before the first release ID_CLAY reads 0x0400_0400. -/
theorem test_clay_at_powerup : idClay State.reset = 0x04000400 := by decide +kernel

/-- The check value of CRC-32C over the digits 1 to 9 (the CRC R132 names). -/
theorem test_crc32c : crc32c [0x31, 0x32, 0x33, 0x34, 0x35, 0x36, 0x37, 0x38, 0x39] = 0xE3069283 := by decide +kernel

/-- Table 13-6: CHAIN_GET answers 30 payload bytes, MB_LEN 0x32, READY; with two more replies MB_STAT reads 0x22. -/
theorem test_mailbox_reply : (after (.chainGet (rq 0x11 [])) loam).svc.mbLen = 0x32 ∧
    mbStat (after (.chainGet (rq 0x11 [])) loam) = 0x02 ∧
    mbStat { loam with svc := { loam.svc with ready := true, heldReplies := [(rq 1 []).pkt, (rq 1 []).pkt] } } = 0x22 := by
  decide +kernel

/-- Table 06-18, 60.26 ms: CLAY_ENTER is answered DONE with ID_CLAY 0x0008_0008. -/
theorem test_clay_enter : (after (.clayEnter (rq 0x02 [])) loam).modes.clay = true ∧
    payloadOf (after (.clayEnter (rq 0x02 [])) loam) = [0x00, 0x00, 0x00, 0x08, 0x00, 0x08] := by decide +kernel

/-- Table 06-18, 70.26 ms: CLAY_RELEASE from the service port on a BUILTIN chain is refused with WRONG_PLANNER (0x25)
and r2 to r5 0x0008_0000. -/
theorem test_clay_release_wrong_party :
    (let s := { clay loam with fw := { loam.fw with items := [(0x0001, [1])] } }
     payloadOf (after (.clayRelease (rq 0x03 [])) s) = [0x11, 0x25, 0x00, 0x08, 0x00, 0x00]) := by decide +kernel

/-- Table 07-9: learning shift 3, an estimate of 38,000 µs and a measurement of 37,600 µs give 37,950 µs. -/
theorem test_latency_filter : (learn 3 37600 { est := 38000, n := 8 }).est = 37950 := by decide +kernel

/-- Table 10-9: DIV 200 and PHASE 150 at frame 2,400,000,000 give sample 11,999,999, one frame before 150 later the next. -/
theorem test_sample_number : sampleAt 0x000258C8 2400000000 = 11999999 ∧ sampleAt 0x000258C8 2400000150 = 12000000 ∧
    sampleAt 0x000258C8 2405000150 = 12025000 := by decide +kernel

/-- Table 08-11: a trip at 12.001 ms retries at the first 1,000-frame boundary at least 50 ms later, 63 ms; the
eighth trip latches the channel off with OCH_LATCH. -/
def clutch (trips : Byte) : State :=
  let s := setReg (0x100000 + 0x40 * 12 + 0x14) 0x3208643C loam
  setCh 12 (fun c => { c with gate := true, genOut := true, trips := trips }) { s with clk := { s.clk with tb := 800 * 12001 } }

theorem test_overcurrent_retry :
    (let t := after (.overcurrentTrip 12 0xFFF) (clutch 0)
     (t.out.ch[12].trips, t.out.ch[12].retryFrom, ochState t 12)) = (1, some 63000, 3) := by decide +kernel

theorem test_overcurrent_latches :
    (let t := after (.overcurrentTrip 12 0xFFF) (clutch 7)
     (t.out.ch[12].trips, t.out.ch[12].latched, ochState t 12, t.ev.field.map (·.code))) = (8, true, 2, [0x1002]) := by
  decide +kernel

/-- Table 09-6: with the last edge at 225 Hz 3 ms ago and DECEL_MAX 40 Hz/s, f_min is 224.88 Hz: TACH_OPEN. -/
theorem test_tach_open :
    (let s := fanned fun f => { f with state := .running }
     let s := setReg 0x120404 0x001E03E8 (setReg 0x120408 0x00000028 s)
     let s := setIn 2 (fun i => { i with lastInterval := some 3555555, edges := [8000000000 - 2400000] }) s
     let t := after (.wireOpenDetect 2) s
     (t.sense.fan[0].state, t.sense.inp[2].wireOpen, t.ev.field.map (·.data.take 4))) =
      (.tachOpen, true, [[0, 0x00, 0x0B, 0xB8]]) := by decide +kernel

/-- Table 11-13: 22 signals make a MEAS record of 231 bytes, three BASE records 84 bytes. -/
theorem test_record_lengths :
    (measBytes { src := 0, clkOk := true, partner := 0, frame := 0, sigs := List.replicate 22 someSig }).length = 231 ∧
    3 * ((baseBytes ⟨0, 0, 0, 0, 0, 0, 0, 0, 0⟩).length + 1) = 84 := by decide +kernel

/-- Table 12-7: the first FIFO handle is 0x8001 and the first object 0x0010; CANCEL of a frame whose attempt runs is
CANCEL_LATE. -/
def canUp : State := { loam with canA := { mode := .normal } }
def sent (flags : Byte) : State := after (.canSend (rq 0x53 [0, flags, 0, 0, 1, 0, 1, 0x55])) canUp

theorem test_can_handles : payloadOf (sent 0) = [0, 0, 0x80, 0x01] ∧ payloadOf (sent 8) = [0, 0, 0x00, 0x10] := by
  decide +kernel

theorem test_can_cancel_late :
    (let s := { sent 0 with svc := {} , canA := { (sent 0).canA with attempt := some (.fifo 0x8001) } }
     payloadOf (after (.canCancel (rq 0x54 [0, 0x80, 0x01])) s)) = [0x31, 0] := by decide +kernel

/-- Table 18-15: a cell fitted at 3.30 V starts in CC. -/
theorem test_cell_detected :
    (let s := { loam with pwr := { loam.pwr with batAbsent := true, chg := .absent, phase := .absent } }
     let t := after (.cellDetected 3300 25) s
     (t.pwr.batAbsent, t.pwr.phase)) = (false, .cc) := by decide +kernel

/-- Table 04-9: the head rejects the second claim of an address: CH_DUP 0x1388_0001. -/
theorem test_duplicate_claim :
    (let w : Walk := { gen := 1, recheck := false, claims := [{ hop := 16, addr := 16, serial := 7, accept := true }] }
     let s := { head with chain := { head.chain with walk := some w } }
     chDup (after (.enumClaim { recheck := false, pinned := true, gen := 1, hop := 5000, addr := 16, serial := 9 }) s)) =
      0x13880001 := by decide +kernel

/-- Table 05-8: a scheduled write that arrives 2,150 frames after its APPLY_AT is answered LATE (0x30) and counted. -/
theorem test_late :
    (let q := rq 0x7B [2, 0, 0, 1, 0, 0, 0, 100, 0xFF, 0xFF, 0xFF, 0xFF]
     let t := after (.regWrite { q with pkt := { q.pkt with sched := true, applyAt := 10000000 - 2150 } }) loam
     (payloadOf t |>.headD 0, t.pkt.lateReplies, t.pkt.sched)) = (0x30, 1, []) := by decide +kernel

/-- Table 09-6: 3.0 s after entry without proof of air the role stalls, with FAN_STALL. -/
theorem test_fan_stall :
    (let s := fanned fun f => { f with state := .starting, entered := 8000000000 }
     let t := after (.fanStall 0) (setReg 0x120404 0x001E03E8 s)
     (t.sense.fan[0].state, t.clk.tb, t.ev.field.map fun r => (r.code, r.sev))) =
      (.stalled, 8000000000 + 2400000000, [(0x1201, 2)]) := by decide +kernel

/-- Table 05-8: the stored write of HBTO = 100 acts at frame APPLY_AT. -/
theorem test_scheduled_write :
    (let q := rq 0x7B [2, 0, 0, 1, 0, 0, 0, 100, 0xFF, 0xFF, 0xFF, 0xFF]
     let s := after (.regWrite { q with pkt := { q.pkt with sched := true, applyAt := 10095850 } }) loam
     let t := after .schedAct s
     (payloadOf s, reg s 0x020000, reg t 0x020000, now t)) = ([0x01, 0], 0x32, 100, 10095850) := by decide +kernel
end Sys2Proof.Tests
end

/-! Requests that a check of steps 9 or 10 refuses, and what an answer leaves as it was. -/

namespace Sys2Proof.Proofs

open Sys2Proof.Machine Sys2Proof.Safety Sys2Proof.Laws

/-! ## The way of a request to its opcode -/

/-- Steps 2 to 5 of Table 05-3 let a request through that reaches its opcode; it is remembered and counted. -/
theorem serve_reaches (o : Op) (q : Request) (s : State) (h : Reaches o.code q s) :
    serve o q s = process o q (taken q s) := by
  obtain ⟨i, -, hrun, hop, hformat, hdest, hother, hdup, -⟩ := h
  have hq : ({ q with pkt := { q.pkt with opcode := BitVec.ofNat 8 o.code } } : Request) = q := by rw [← hop]
  have hplace : notHead q s = false ∧ forOther q s = false := by
    rcases hdest with hme | ⟨-, hchain, -⟩
    · have hsingle : q.pkt.bcast = false := by simp_all [forMe]
      simp [notHead, forOther, hme, hsingle]
    · simp [notHead, forOther, inside q.via hchain]
  simp only [serve, hq, hrun, takeIn, hformat, hother, hplace, hdup, taken]; rfl

/-- Of the checks of steps 7 to 11, only those of the opcode itself are left for a request that reaches it. -/
theorem vet_reaches (o : Op) (q : Request) (s : State) (h : Reaches o.code q s) :
    vet o q (taken q s) = (o.life q (taken q s) <|> o.check q (taken q s)) := by
  obtain ⟨i, hi, -, -, -, hdest, -, -, hparts, hmode, hlife, hsched, hmust⟩ := h
  have hmulti : ((!q.parts.isEmpty || q.pkt.more) && !i.m) = false := by
    rcases hparts with ⟨hnil, hmore⟩ | hm
    · simp [hnil, hmore]
    · simp [hm]
  have hbcast : (q.pkt.bcast && !i.b) = false := by
    rcases hdest with hme | ⟨-, -, hb⟩
    · simp_all [forMe]
    · simp [hb]
  have hm : checkMode i (taken q s) = none := by simpa only [checkMode, taken_modes] using hmode
  have hl : checkLife o.code (taken q s) = none := by simpa only [checkLife, taken_sec] using hlife
  have hs : checkSched i q (taken q s) = none := by simp [checkSched, hsched, hmust]
  simp [vet, hi, hmulti, hbcast, hm, hl, hs]

/-- A request that reaches its opcode and fails the opcode's own checks is answered with what they say, and has no
other effect. -/
theorem serve_refused (o : Op) (q : Request) (s : State) (a : Ans) (h : Reaches o.code q s)
    (hl : o.life q (taken q s) = none) (hc : o.check q (taken q s) = some a) :
    serve o q s = reply q a (taken q s) := by
  have hv : vet o q (taken q s) = some a := by simp [vet_reaches o q s h, hl, hc]
  rw [serve_reaches o q s h, process, hv]

/-- Taking a request in and answering it changes no part but the chain's queues, the packet layer and the mailbox. -/
theorem served_reply_taken (q : Request) (a : Ans) (s : State) : Served [] s (reply q a (taken q s)) := by
  intro p hp
  cases p <;> simp_all [same, taken]

/-! ## An answer leaves the partners of both chain ports, and so the roles of R91 -/

/-- The partners of the two chain ports, which decide the roles HEAD and TAIL (R91). -/
def partners (s : State) : Partner × Bool := (s.chain.upPartner, s.chain.dnPartner)

theorem partners_of_chain {s t : State} (h : t.chain = s.chain) : partners t = partners s := by
  rw [partners, h, partners]

@[simp] theorem partners_queueUp (f : ChainFrame) (s : State) : partners (queueUp f s) = partners s := by
  unfold queueUp; dsimp only; split <;> rfl

@[simp] theorem partners_routeReply (via : Via) (p : Packet) (s : State) :
    partners (routeReply via p s) = partners s := by
  cases via with
  | chain _ | headHost => exact partners_queueUp _ s
  | svc => exact partners_of_chain (by simp [routeReply])
  | can _ _ | planner => rfl

@[simp] theorem partners_sendDown (f : ChainFrame) (s : State) : partners (sendDown f s) = partners s := by
  unfold sendDown; split <;> rfl

@[simp] theorem partners_forwardPackets (q : Request) (s : State) : partners (forwardPackets q s) = partners s := by
  rw [forwardPackets, sendPackets, foldl_keep partners _ (fun s p => partners_sendDown _ s)]
  split <;> simp only [partners]

@[simp] theorem partners_payOwed (q : Request) (a : Ans) (s : State) : partners (payOwed q a s) = partners s := by
  have herase (k : Packets) : partners { s with pkt := k } = partners s := rfl
  simp only [payOwed, apply_ite partners, partners_forwardPackets, herase, ite_self]

@[simp] theorem partners_reply (q : Request) (a : Ans) (s : State) : partners (reply q a s) = partners s := by
  have hroute (ps : List Packet) (u : State) :
      partners (ps.foldl (fun s p => routeReply q.via p s) u) = partners u :=
    foldl_keep partners _ (fun s p => partners_routeReply q.via p s) ps u
  have hmail (u : State) : partners (mailNoReply u) = partners u := partners_of_chain (by simp)
  have hlate (k : Packets) (u : State) : partners { u with pkt := k } = partners u := rfl
  have hstore (ps : List Packet) : partners (storeReply q ps s) = partners s := rfl
  simp only [reply, partners_payOwed, apply_ite partners, hroute, hmail, hlate, hstore, ite_self]

@[simp] theorem partners_taken (q : Request) (s : State) : partners (taken q s) = partners s :=
  partners_of_chain (taken_chain q s)

/-- ID_MODE shows the modes and the roles the partners give the node (Table 01-7). -/
theorem idMode_congr {s t : State} (hm : t.modes = s.modes) (hp : partners t = partners s) : idMode t = idMode s := by
  obtain ⟨hup, hdn⟩ := Prod.mk.inj hp
  simp only [idMode, isHead, isTail, hm, hup, hdn]

theorem idMode_reply_taken (q : Request) (a : Ans) (s : State) : idMode (reply q a (taken q s)) = idMode s :=
  idMode_congr (by simp [taken_modes]) (by simp)

theorem idClay_reply_taken (q : Request) (a : Ans) (s : State) : idClay (reply q a (taken q s)) = idClay s := by
  simp [idClay, taken_modes]

end Sys2Proof.Proofs

/-! R28: the identity registers refuse writes. -/

namespace Sys2Proof.Proofs

open Sys2Proof.Machine Sys2Proof.Safety Sys2Proof.Laws

/-- Step 10 refuses a host write of a read-only register with BAD_PARAM, READ_ONLY (R144). -/
theorem hostPutCheck_readOnly (ps : List RegPut) (s : State) (p : RegPut) (d : RegDef)
    (halign : p.addr.toNat % 4 = 0) (hdef : regDef p.addr.toNat = some d) (hro : d.acc = .ro) :
    hostPutCheck ps s p = refuse 0x21 0x0F := by
  simp [hostPutCheck, paramCheck, halign, hdef, hro, refuse]

theorem regPuts_one (q : Request) (hcount : regCount q = 1) :
    regPuts q = [⟨BitVec.ofNat 24 (regBase q), wordAt (reqBody q) 4, wordAt (reqBody q) 8⟩] := by
  simp [regPuts, hcount]

/-- Step 10 of a REG_WRITE of one host register is that register's own check. -/
theorem regWriteCheck_one (q : Request) (s : State) (p : RegPut) (hlen : (reqBody q).length = 12)
    (hcount : regCount q = 1) (hhost : isField (regBase q) = false) (hputs : regPuts q = [p]) :
    regWriteCheck q s = hostPutCheck [p] s p := by
  simp [regWriteCheck, hlen, hcount, hhost, hputs, param, inRange, firstAns]

/-- Step 9 concerns DBG_CTRL alone (R403). -/
theorem regWriteLife_one (q : Request) (s : State) (hcount : regCount q = 1) (hbase : regBase q ≠ 0x090004) :
    regWriteLife q s = none := by
  simp [regWriteLife, regAddrs, hcount, hbase.symm]

/-- What the checks of a write need of the address of ID_MODE and of ID_CLAY (Table 01-7, Table 01-8). -/
theorem identity_address {a : Nat} (ha : a = 0x000040 ∨ a = 0x000044) :
    (BitVec.ofNat 24 a).toNat = a ∧ a % 4 = 0 ∧ isField a = false ∧ a ≠ 0x090004 ∧
      regDef a = some { acc := .ro, doms := [] } := by
  rcases ha with rfl | rfl <;> decide

/-- Step 10 refuses every host write of ID_MODE or ID_CLAY, whatever else the access writes (R28). -/
theorem hostPutCheck_identity {a : Nat} (ha : a = 0x000040 ∨ a = 0x000044) (ps : List RegPut) (s : State) (p : RegPut)
    (hp : p.addr = BitVec.ofNat 24 a) : hostPutCheck ps s p = refuse 0x21 0x0F := by
  obtain ⟨hnat, halign, -, -, hdef⟩ := identity_address ha
  rw [← hnat, ← hp] at halign hdef
  exact hostPutCheck_readOnly ps s p _ halign hdef rfl

/-- A REG_WRITE of ID_MODE or ID_CLAY is answered BAD_PARAM, READ_ONLY and has no other effect (R28). -/
theorem exec_regWrite_identity {a : Nat} (ha : a = 0x000040 ∨ a = 0x000044) (q : Request) (s : State)
    (hacc : Accepted 0x7B q s) (hlen : (reqBody q).length = 12) (hbase : regBase q = a) (hcount : regCount q = 1) :
    exec (.regWrite q) s = .next (reply q { status := 0x21, detail := 0x0F } (taken q s)) := by
  obtain ⟨-, -, hhost, hdbg, -⟩ := identity_address ha
  have hrefuse : regWriteCheck q (taken q s) = refuse 0x21 0x0F := by
    rw [regWriteCheck_one q _ _ hlen hcount (hbase ▸ hhost) (regPuts_one q hcount),
      hostPutCheck_identity ha _ _ _ (by rw [hbase])]
  have hlife : regWriteLife q (taken q s) = none := regWriteLife_one q _ hcount (hbase ▸ hdbg)
  exact congrArg _ (serve_refused opRegWrite q s _ hacc.1 hlife hrefuse)

/-- A single register write of ID_MODE or ID_CLAY changes nothing (R28): in Sand no write passes, and elsewhere step
10 refuses it. -/
theorem registerWrite_identity {a : Nat} (ha : a = 0x000040 ∨ a = 0x000044) (v m : Word) (s : State) :
    registerWrite (BitVec.ofNat 24 a) v m s = s := by
  obtain ⟨hnat, -, hhost, -, -⟩ := identity_address ha
  have hrefuse := hostPutCheck_identity ha [⟨BitVec.ofNat 24 a, v, m⟩] s ⟨BitVec.ofNat 24 a, v, m⟩ rfl
  unfold registerWrite
  split
  · rfl
  · simp [hnat, hhost, hrefuse, refuse]

/-- Settles O7: the identity registers are read-only, so step 10 of Table 05-3 refuses their write before it acts. -/
theorem identityRegistersRefuseWrites : Obligations.IdentityRegistersRefuseWrites := by
  intro s a ha
  refine ⟨fun q hacc hlen hbase hcount => ?_, fun v m => ?_⟩
  · exact ⟨_, exec_regWrite_identity ha q s hacc hlen hbase hcount, ⟨0x0F, _, rfl⟩, idMode_reply_taken q _ s,
      idClay_reply_taken q _ s, served_reply_taken q _ s⟩
  · exact ⟨s, congrArg _ (registerWrite_identity ha v m s), rfl⟩

end Sys2Proof.Proofs

/-! Every step keeps the stores canonical. Each operation of the model keeps them, by one lemma
`Canonical.<operation>` that composes the lemmas of the operations it calls in the order in which it calls them; only
the few operations that write a store, or that drop a part of one, argue about the store itself. -/

namespace Sys2Proof.Safety

open Sys2Proof.Machine Sys2Proof.Laws

-- The checker's limit on memory counts the stack of every thread, and the many short lemmas below, elaborated at the
-- same time, would start too many threads for it.
set_option Elab.async false

variable {s t : State}

/-! ## How operations are put together -/

/-- Both branches of a conditional keep the stores canonical. -/
protected theorem Canonical.ite {c : Prop} [Decidable c] (hs : Canonical s) (ht : Canonical t) :
    Canonical (if c then s else t) := by
  split
  · exact hs
  · exact ht

protected theorem Canonical.iteFst {α : Type} {c : Prop} [Decidable c] {x y : State × α} (hx : Canonical x.1)
    (hy : Canonical y.1) : Canonical (if c then x else y).1 := by
  split
  · exact hx
  · exact hy

protected theorem Canonical.iteSnd {α : Type} {c : Prop} [Decidable c] {x y : α × State} (hx : Canonical x.2)
    (hy : Canonical y.2) : Canonical (if c then x else y).2 := by
  split
  · exact hx
  · exact hy

protected theorem Canonical.foldl {α : Type} {g : State → α → State} {l : List α}
    (hg : ∀ {s} a, Canonical s → Canonical (g s a)) (h : Canonical s) : Canonical (l.foldl g s) :=
  foldl_inv Canonical g (fun _ a => hg a) l s h

/-- An operation whose frame lemma says that it leaves every part with a store as it was. -/
protected theorem Canonical.frame (h : Canonical s) (e : t.id = s.id ∧ t.regs = s.regs ∧ t.svc = s.svc ∧ t.fw = s.fw ∧
    t.gnss = s.gnss ∧ t.loop = s.loop) : Canonical t := by
  obtain ⟨hid, hregs, hsvc, hfw, hgnss, hloop⟩ := e
  simpa only [Canonical, hid, hregs, hsvc, hfw, hgnss, hloop] using h

/-- A record update that writes no store. Which fields it writes is read off the goal; that the stores are the same
ones holds by computation. -/
protected theorem Canonical.update {pending free id modes clk barr chain pkt out sense loop gnss canA canB svc pwr sec
    fw ev sect} (h : Canonical s) (hvariant : id.variant = s.id.variant := by rfl)
    (hbuf : svc.buf = s.svc.buf := by rfl) (hfsram : fw.fsram = s.fw.fsram := by rfl)
    (himg : fw.fimgMem = s.fw.fimgMem := by rfl) (hA : fw.slotA.mem = s.fw.slotA.mem := by rfl)
    (hB : fw.slotB.mem = s.fw.slotB.mem := by rfl) (hsnap : gnss.snap = s.gnss.snap := by rfl)
    (htable : ∀ i : Fin 16, loop.slot[i].table = s.loop.slot[i].table := by exact fun _ => rfl) :
    Canonical ⟨pending, free, id, modes, s.regs, clk, barr, chain, pkt, out, sense, loop, gnss, canA, canB, svc, pwr,
      sec, fw, ev, sect⟩ := by
  simpa only [Canonical, hvariant, hbuf, hfsram, himg, hA, hB, hsnap, htable] using h

protected theorem Canonical.slotTable (h : Canonical s) (i : Fin 16) :
    canon (fun _ => (0 : Int)) s.loop.slot[i].table = true := by
  obtain ⟨-, -, -, -, -, -, -, htable⟩ := h
  exact htable i

theorem vmap_get {α β : Type} {n : Nat} (f : α → β) (v : Vector α n) (i : Fin n) : (vmap f v)[i] = f v[i] := by
  simp [vmap]

theorem vmapIdx_get {α β : Type} {n : Nat} (f : Fin n → α → β) (v : Vector α n) (i : Fin n) :
    (vmapIdx f v)[i] = f i v[i] := by
  simp [vmapIdx]

/-- An opcode keeps the stores canonical when each of its parts that change the state does. -/
structure KeepsCanonical (o : Op) : Prop where
  act : ∀ q s, Canonical s → Canonical (o.act q s).1
  hand : ∀ q s, Canonical s → Canonical (o.hand q s) := by exact fun _ _ h => h
  after : ∀ q s, Canonical s → Canonical (o.after q s) := by exact fun _ _ h => h
  onAccept : ∀ q s, Canonical s → Canonical (o.onAccept q s) := by exact fun _ _ h => h

/-! ## Edge geometry and items -/

protected theorem Canonical.setSect {n : Fin 32} {f : ChSect → ChSect} (h : Canonical s) :
    Canonical (setSect n f s) := .frame h (by simp)

protected theorem Canonical.applyLook {b : List Byte} {n : Fin 32} (h : Canonical s) : Canonical (applyLook b n s) :=
  .frame h (by simp)

protected theorem Canonical.runItem {k : Nat} {v : List Byte} (h : Canonical s) : Canonical (runItem k v s) :=
  .frame h (by simp)

/-! ## Time, notes, cells, Clay and replies -/

protected theorem Canonical.advance {d : Nat} (h : Canonical s) : Canonical (advance d s) := .frame h (by simp)

protected theorem Canonical.advanceTo {t : Nat} (h : Canonical s) : Canonical (advanceTo t s) := .frame h (by simp)

protected theorem Canonical.toEdge {k p : Nat} (h : Canonical s) : Canonical (toEdge k p s) := .frame h (by simp)

protected theorem Canonical.toFrame (h : Canonical s) : Canonical (toFrame s) := .frame h (by simp)

protected theorem Canonical.setReg {a : Nat} {v : Word} (h : Canonical s) : Canonical (setReg a v s) := by
  obtain ⟨hregs, hrest⟩ := h
  exact ⟨setReg_canon a v s hregs, hrest⟩

protected theorem Canonical.toFieldFrame (h : Canonical s) : Canonical (toFieldFrame s) := .frame h (by simp)

protected theorem Canonical.note {side : Side} {code : BitVec 16} {sev : BitVec 2} {chan : Byte} {data : List Byte}
    (h : Canonical s) : Canonical (note side code sev chan data s) := .frame h (by simp)

protected theorem Canonical.noteEpoch {side : Side} {code : BitVec 16} {sev : BitVec 2} {chan : Byte}
    {data : List Byte} (h : Canonical s) : Canonical (noteEpoch side code sev chan data s) := .frame h (by simp)

protected theorem Canonical.sendCell {c : Cell} (h : Canonical s) : Canonical (sendCell c s) := .frame h (by simp)

protected theorem Canonical.upCell {c : Cell} (h : Canonical s) : Canonical (upCell c s) := .frame h (by simp)

protected theorem Canonical.sendUrgent {c : Cell} (h : Canonical s) : Canonical (sendUrgent c s) := .frame h (by simp)

protected theorem Canonical.passDown (h : Canonical s) : Canonical (passDown s) := .frame h (by simp)

protected theorem Canonical.seqDown {seq : BitVec 16} (h : Canonical s) : Canonical (seqDown seq s) :=
  .frame h (by simp)

protected theorem Canonical.onDown {c : Cell} {act : State → State} (hact : ∀ {s}, Canonical s → Canonical (act s))
    (h : Canonical s) : Canonical (onDown c act s) := by
  unfold Machine.onDown
  split
  · exact h
  · exact .ite h (.ite (.passDown h) (.ite (hact (.seqDown (.passDown h))) (.seqDown (.passDown h))))

protected theorem Canonical.checkDrops (h : Canonical s) : Canonical (checkDrops s) := .frame h (by simp)

protected theorem Canonical.seqUp (h : Canonical s) : Canonical (seqUp s) := .frame h (by simp)

protected theorem Canonical.onUp {c : Cell} {act : State → State} (hact : ∀ {s}, Canonical s → Canonical (act s))
    (h : Canonical s) : Canonical (onUp c act s) := by
  unfold Machine.onUp
  split
  · exact h
  · exact .ite h (.ite (hact (.foldl (fun _ => .seqUp) h)) (.checkDrops (.foldl (fun _ => .seqUp) h)))

protected theorem Canonical.sendSafe {causes : BitVec 16} (h : Canonical s) : Canonical (sendSafe causes s) :=
  .frame h (by simp)

protected theorem Canonical.asApplied {r : AsRec} (h : Canonical s) : Canonical (asApplied r s) :=
  .ite (.update h) (.update h)

protected theorem Canonical.schedFail {q : Request} {status : Byte} (h : Canonical s) :
    Canonical (schedFail q status s) := .frame h (by simp)

protected theorem Canonical.discardSched {p : SchedCmd → Bool} (h : Canonical s) : Canonical (discardSched p s) :=
  .frame h (by simp)

protected theorem Canonical.abortSweep {v : Byte} (h : Canonical s) : Canonical (abortSweep v s) := .frame h (by simp)

protected theorem Canonical.settleTest (h : Canonical s) : Canonical (settleTest s) := .ite (.update h) h

protected theorem Canonical.warnSwaps (h : Canonical s) : Canonical (warnSwaps s) := .frame h (by simp)

protected theorem Canonical.applyAtClay (h : Canonical s) : Canonical (applyAtClay s) :=
  .foldl (fun _ => .runItem) (.update h)

protected theorem Canonical.cutHanded (h : Canonical s) : Canonical (cutHanded s) :=
  .foldl (fun _ => .asApplied) (.update h)

protected theorem Canonical.syncFreeze (h : Canonical s) : Canonical (syncFreeze s) :=
  .settleTest (.update h (htable := fun i => by simp only [vmapIdx_get]; rfl))

protected theorem Canonical.clayHardware (h : Canonical s) : Canonical (clayHardware s) :=
  .update h (htable := fun i => by simp only [vmap_get]; rfl)

protected theorem Canonical.clayEntry (h : Canonical s) : Canonical (clayEntry s) :=
  .applyAtClay (.cutHanded (.abortSweep (.syncFreeze (.clayHardware (.warnSwaps (.discardSched h))))))

protected theorem Canonical.enterClay {c : Fin 11} (h : Canonical s) : Canonical (enterClay c s) :=
  .ite (.update h) (.clayEntry (.update h))

protected theorem Canonical.liftCause {c : Fin 11} (h : Canonical s) : Canonical (liftCause c s) := .frame h (by simp)

protected theorem Canonical.hostClay {c : Fin 11} (h : Canonical s) : Canonical (hostClay c s) :=
  .sendSafe (.enterClay h)

protected theorem Canonical.enterSilt {why : BitVec 4} (h : Canonical s) : Canonical (enterSilt why s) :=
  .hostClay (.update h)

protected theorem Canonical.enterLoam (h : Canonical s) : Canonical (enterLoam s) := .frame h (by simp)

protected theorem Canonical.raise {side : Side} {code : BitVec 16} {sev : BitVec 2} {chan : Byte} {data : List Byte}
    (h : Canonical s) : Canonical (raise side code sev chan data s) := by
  unfold Machine.raise
  extract_lets nested opens s1 s2
  have h1 : Canonical s1 := .note h
  have h2 : Canonical s2 := by
    unfold s2
    split
    · exact .hostClay h1
    · exact .enterClay (.toFieldFrame h1)
  exact .ite (.ite (.enterSilt h2) h2) h1

protected theorem Canonical.releaseClay (h : Canonical s) : Canonical (releaseClay s) :=
  .update h (htable := fun i => by simp only [vmap_get]; rfl)

protected theorem Canonical.draw (h : Canonical s) : Canonical (draw s) := .frame h (by simp)

protected theorem Canonical.queueUp {f : ChainFrame} (h : Canonical s) : Canonical (queueUp f s) := .frame h (by simp)

protected theorem Canonical.outDown {f : ChainFrame} (h : Canonical s) : Canonical (outDown f s) := .frame h (by simp)

protected theorem Canonical.sendDown {f : ChainFrame} (h : Canonical s) : Canonical (sendDown f s) :=
  .frame h (by simp)

protected theorem Canonical.sendUp {f : ChainFrame} (h : Canonical s) : Canonical (sendUp f s) := .frame h (by simp)

protected theorem Canonical.loadReply {p : Packet} (h : Canonical s) : Canonical (loadReply p s) := by
  obtain ⟨hregs, hbuf, hrest⟩ := h
  refine ⟨hregs, ?_, hrest⟩
  dsimp only [Machine.loadReply]
  exact writeBytes_canon _ _ _ _ hbuf

protected theorem Canonical.mailReply {p : Packet} (h : Canonical s) : Canonical (mailReply p s) :=
  .ite h (.ite (.loadReply h) (.ite (.update h) (.update h)))

protected theorem Canonical.mailNoReply (h : Canonical s) : Canonical (mailNoReply s) := .ite (.update h) h

protected theorem Canonical.routeReply {via : Via} {p : Packet} (h : Canonical s) :
    Canonical (routeReply via p s) := by
  unfold Machine.routeReply
  split
  · exact .queueUp h
  · exact .queueUp h
  · exact .update h
  · exact .mailReply h
  · exact h

protected theorem Canonical.closeWindow {q : Request} (h : Canonical s) : Canonical (closeWindow q s) :=
  .frame h (by simp)

protected theorem Canonical.remember {q : Request} (h : Canonical s) : Canonical (remember q s) := .frame h (by simp)

protected theorem Canonical.storeReply {q : Request} {ps : List Packet} (h : Canonical s) :
    Canonical (storeReply q ps s) := .frame h (by simp)

protected theorem Canonical.payOwed {q : Request} {a : Ans} (h : Canonical s) : Canonical (payOwed q a s) :=
  .frame h (by simp)

protected theorem Canonical.reply {q : Request} {a : Ans} (h : Canonical s) : Canonical (reply q a s) := by
  unfold Machine.reply
  extract_lets ps s1 _ s2
  have h2 : Canonical s2 := .ite (.update (.storeReply h)) (.storeReply h)
  exact .payOwed (.ite (.ite (.mailNoReply h2) h2) (.foldl (fun _ => .routeReply) h2))

protected theorem Canonical.perform {o : Op} {q : Request} (ho : KeepsCanonical o) (h : Canonical s) :
    Canonical (perform o q s).1 := by
  unfold Machine.perform
  split
  · exact h
  · exact ho.act _ _ h

protected theorem Canonical.countAccepted {via : Via} (h : Canonical s) : Canonical (countAccepted via s) :=
  .frame h (by simp)

protected theorem Canonical.issue {q : Request} (h : Canonical s) : Canonical (issue q s) := .frame h (by simp)

protected theorem Canonical.forwardIn {q : Request} (h : Canonical s) : Canonical (forwardIn q s) :=
  .frame h (by simp)

protected theorem Canonical.throughArena {q : Request} {go : State → State}
    (hgo : ∀ {s}, Canonical s → Canonical (go s)) (h : Canonical s) : Canonical (throughArena q go s) := by
  have harena : Canonical (chainArena q s).2 := h.frame (by simp)
  unfold Machine.throughArena
  split <;> rename_i hbook <;> rw [hbook] at harena
  · exact hgo harena
  · exact .reply harena
  · exact .reply harena

protected theorem Canonical.keepSched {o : Op} {q : Request} (ho : KeepsCanonical o) (h : Canonical s) :
    Canonical (keepSched o q s) := .ite (ho.hand _ _ (.update h)) (.update h)

protected theorem Canonical.actNow {o : Op} {q : Request} (ho : KeepsCanonical o) (h : Canonical s) :
    Canonical (actNow o q s).1 := by
  unfold Machine.actNow
  split
  · split
    · exact h
    · exact .keepSched ho (ho.onAccept _ _ h)
  · exact .perform ho h

protected theorem Canonical.actOn {o : Op} {q : Request} (ho : KeepsCanonical o) (h : Canonical s) :
    Canonical (actOn o q s) := by
  have hact : Canonical (actNow o q (owe q s)).1 := .actNow ho (.ite (.update h) h)
  unfold Machine.actOn
  generalize actNow o q (owe q s) = r at hact ⊢
  obtain ⟨u, _ | a⟩ := r
  · exact .ite (.ite (.closeWindow hact) hact) (ho.after _ _ (.ite (.closeWindow hact) hact))
  · exact .ite (.ite (.closeWindow (.reply hact)) (.reply hact))
      (ho.after _ _ (.ite (.closeWindow (.reply hact)) (.reply hact)))

protected theorem Canonical.process {o : Op} {q : Request} (ho : KeepsCanonical o) (h : Canonical s) :
    Canonical (process o q s) := by
  unfold Machine.process
  split
  · exact .reply h
  · exact .ite (.throughArena (.actOn ho) h) (.actOn ho h)

protected theorem Canonical.relay {q : Request} (h : Canonical s) : Canonical (relay q s) := by
  unfold Machine.relay
  extract_lets u
  have hu : Canonical u := .countAccepted h
  split
  · exact .reply (.ite (.update hu) hu)
  · have harena : Canonical (if mayIssue u then throughArena q (forwardIn q) u else u) :=
      .ite (.throughArena .forwardIn hu) hu
    exact .ite (.mailNoReply harena) harena

protected theorem Canonical.takeIn {q : Request} {next : State → State}
    (hnext : ∀ {s}, Canonical s → Canonical (next s)) (h : Canonical s) : Canonical (takeIn q next s) := by
  unfold Machine.takeIn
  split
  · exact .reply h
  · refine .ite (.ite (.mailNoReply h) h) (.ite (.reply h) (.ite (.relay h) ?_))
    split
    · exact .ite (.ite (.mailNoReply h) (.foldl (fun _ => .routeReply) h)) (.foldl (fun _ => .routeReply) h)
    · exact hnext (.countAccepted (.remember h))

protected theorem Canonical.serve {o : Op} {q : Request} (ho : KeepsCanonical o) (h : Canonical s) :
    Canonical (serve o q s) := .ite (.takeIn (.process ho) h) h

/-! ## CAN state -/

protected theorem Canonical.setCan {p : CanPort} {c : Can} (h : Canonical s) : Canonical (setCan p c s) :=
  .frame h (by simp)

protected theorem Canonical.dropClaim (h : Canonical s) : Canonical (dropClaim s) := .frame h (by simp)

/-! ## Output channels -/

protected theorem Canonical.setCh {n : Fin 32} {f : Chan → Chan} (h : Canonical s) : Canonical (setCh n f s) :=
  .frame h (by simp)

protected theorem Canonical.tripOff {d : Fin 32} {src : TripSrc} (h : Canonical s) : Canonical (tripOff d src s) :=
  .frame h (by simp)

protected theorem Canonical.resumed {old : State} (h : Canonical s) : Canonical (resumed old s) := .frame h (by simp)

protected theorem Canonical.setGateAt {fine : BitVec 5} {n : Fin 32} {on : Bool} {s0 : State} (h : Canonical s0) :
    Canonical (setGateAt fine n on s0) := .frame h (by simp)

protected theorem Canonical.setGate {n : Fin 32} {on : Bool} (h : Canonical s) : Canonical (setGate n on s) :=
  .frame h (by simp)

protected theorem Canonical.setOverride {n : Fin 32} {o : Override} (h : Canonical s) :
    Canonical (setOverride n o s) := .frame h (by simp)

protected theorem Canonical.loadTables (h : Canonical s) : Canonical (loadTables s) := .frame h (by simp)

protected theorem Canonical.sendBatch {es : List Edge} (h : Canonical s) : Canonical (sendBatch es s) :=
  .frame h (by simp)

protected theorem Canonical.sendEdges {es : List Edge} (h : Canonical s) : Canonical (sendEdges es s) := by
  induction es, s using sendEdges.induct with
  | case1 => exact h
  | case2 => exact .sendBatch h
  | case3 _ _ _ _ ih => exact ih (.sendBatch h)

protected theorem Canonical.recordActed {p : Pred} {e : Edge} {f : Frame48} {tick : Nat} {late : Bool}
    (h : Canonical s) : Canonical (recordActed p e f tick late s) := by
  unfold Machine.recordActed
  split
  · exact .asApplied h
  · exact .ite (.asApplied h) (.update (.asApplied h))

protected theorem Canonical.recordEdge {e : Edge} (h : Canonical s) : Canonical (recordEdge e s) := by
  unfold Machine.recordEdge
  extract_lets lost s1 u
  have hu : Canonical u := .foldl (fun _ => .asApplied) (.update h)
  split
  · exact hu
  · exact .ite hu (.recordActed (.update hu))

protected theorem Canonical.reportEdge {e : Edge} (h : Canonical s) : Canonical (reportEdge e s) := .frame h (by simp)

protected theorem Canonical.edgeExecute {n : Fin 32} (h : Canonical s) : Canonical (edgeExecute n s) := by
  unfold Machine.edgeExecute
  split
  · exact h
  · exact .ite h (.reportEdge (.recordEdge (.setGateAt (.setCh (.loadTables (.advanceTo h))))))

protected theorem Canonical.recordLate {d : Fin 32} (h : Canonical s) : Canonical (recordLate d s) := by
  unfold Machine.recordLate
  extract_lets c
  split
  · exact h
  · exact .recordActed (.update h)

protected theorem Canonical.rejudge {d : Fin 32} (h : Canonical s) : Canonical (rejudge d s) := by
  unfold Machine.rejudge
  extract_lets s0 _ s1 g _ s2 s3
  have h2 : Canonical s2 := .ite (.update (.setCh h)) (.setCh h)
  have h3 : Canonical s3 := .setCh h2
  exact .resumed (.ite (.ite (.recordLate (.setCh (.update h))) h) (.ite (.recordLate h3) h3))

protected theorem Canonical.staggerEnergise (h : Canonical s) : Canonical (staggerEnergise s) :=
  .ite h (.foldl (fun _ => .rejudge) (.advanceTo h))

protected theorem Canonical.generatorEdge {n : Fin 32} (h : Canonical s) : Canonical (generatorEdge n s) :=
  .frame h (by simp)

protected theorem Canonical.periodBoundary {n : Fin 32} (h : Canonical s) : Canonical (periodBoundary n s) :=
  .frame h (by simp)

protected theorem Canonical.countingPeriodEnd {n : Fin 32} (h : Canonical s) : Canonical (countingPeriodEnd n s) :=
  .frame h (by simp)

protected theorem Canonical.calMeasure {spanOk : Bool} {tap : Byte} (h : Canonical s) :
    Canonical (calMeasure spanOk tap s) := .frame h (by simp)

protected theorem Canonical.shortTrip {n : Fin 32} (h : Canonical s) : Canonical (shortTrip n s) := .frame h (by simp)

protected theorem Canonical.tripInput {i : Fin 4} {level : Bool} (h : Canonical s) :
    Canonical (tripInput i level s) := .frame h (by simp)

protected theorem Canonical.overtempTrip {n : Fin 32} (h : Canonical s) : Canonical (overtempTrip n s) :=
  .frame h (by simp)

protected theorem Canonical.blankingEnd {n : Fin 32} {sample : BitVec 12} (h : Canonical s) :
    Canonical (blankingEnd n sample s) := .frame h (by simp)

protected theorem Canonical.tripRetry {n : Fin 32} (h : Canonical s) : Canonical (tripRetry n s) := .frame h (by simp)

protected theorem Canonical.takeSample {n : Fin 32} {x : BitVec 12} (h : Canonical s) :
    Canonical (takeSample n x s) := .frame h (by simp)

protected theorem Canonical.peakEnd {n : Fin 32} {sample : BitVec 12} (h : Canonical s) :
    Canonical (peakEnd n sample s) := .frame h (by simp)

protected theorem Canonical.holdChop {n : Fin 32} {sample : BitVec 12} (h : Canonical s) :
    Canonical (holdChop n sample s) := .frame h (by simp)

protected theorem Canonical.holdStart {n : Fin 32} (h : Canonical s) : Canonical (holdStart n s) := .frame h (by simp)

protected theorem Canonical.lampMeasure {n : Fin 32} {samples : List (BitVec 12)} (h : Canonical s) :
    Canonical (lampMeasure n samples s) := .frame h (by simp)

protected theorem Canonical.lampOffMeasure {n : Fin 32} {mv : Nat} (h : Canonical s) :
    Canonical (lampOffMeasure n mv s) := .frame h (by simp)

protected theorem Canonical.epochOutputs (h : Canonical s) : Canonical (epochOutputs s) := .frame h (by simp)

protected theorem Canonical.disagreeOn {n : Fin 32} {x : BitVec 12} (h : Canonical s) :
    Canonical (disagreeOn n x s) := .frame h (by simp)

protected theorem Canonical.disagreeOff {n : Fin 32} {x : BitVec 12} (h : Canonical s) :
    Canonical (disagreeOff n x s) := .frame h (by simp)

protected theorem Canonical.openDisc {reason : BitVec 2} (h : Canonical s) : Canonical (openDisc reason s) :=
  .raise (.update h)

protected theorem Canonical.closeDisc (h : Canonical s) : Canonical (closeDisc s) := .frame h (by simp)

protected theorem Canonical.judgeInverted (h : Canonical s) : Canonical (judgeInverted s) := .frame h (by simp)

protected theorem Canonical.leaveClay (h : Canonical s) : Canonical (leaveClay s) :=
  .resumed (.judgeInverted (.releaseClay h))

/-! ## Sense inputs and fans -/

protected theorem Canonical.setIn {n : Fin 16} {f : SinIn → SinIn} (h : Canonical s) : Canonical (setIn n f s) :=
  .frame h (by simp)

protected theorem Canonical.setFan {j : Fin 2} {f : Fan → Fan} (h : Canonical s) : Canonical (setFan j f s) :=
  .frame h (by simp)

protected theorem Canonical.remoteSet {j : Fin 2} {action : Byte} (h : Canonical s) :
    Canonical (remoteSet j action s) := .frame h (by simp)

protected theorem Canonical.closeHeld {old : State} (h : Canonical s) : Canonical (closeHeld old s) :=
  .frame h (by simp)

protected theorem Canonical.stallFan {j : Fin 2} (h : Canonical s) : Canonical (stallFan j s) :=
  .remoteSet (.note (.syncFreeze (.closeHeld (.setFan h))))

protected theorem Canonical.runFan {j : Fin 2} (h : Canonical s) : Canonical (runFan j s) := by
  unfold Machine.runFan
  extract_lets old s1 s2 s3
  have h2 : Canonical s2 := .syncFreeze (.closeHeld (.setFan h))
  have h3 : Canonical s3 := .ite (.note h2) h2
  exact .ite (.remoteSet h3) h3

protected theorem Canonical.tachInterval {stamp start : BitVec 64} {j : Fin 2} (h : Canonical s) :
    Canonical (tachInterval stamp start s j) := .ite (.runFan (.toFrame (.setFan h))) (.setFan h)

protected theorem Canonical.quadEdge {n : Fin 16} {both : Bool} (h : Canonical s) : Canonical (quadEdge n both s) :=
  .frame h (by simp)

protected theorem Canonical.sinEdge {n : Fin 16} {rising both : Bool} {stamp : BitVec 64} (h : Canonical s) :
    Canonical (sinEdge n rising both stamp s) := by
  unfold Machine.sinEdge
  refine .ite h ?_
  extract_lets old s1 s2 s3 s4
  have h2 : Canonical s2 := .foldl (fun _ => .setFan) (.setIn h)
  have h3 : Canonical s3 := .setIn h2
  have h4 : Canonical s4 := by
    refine .ite ?_ h2
    split
    · exact h3
    · exact .foldl (fun _ => .tachInterval) h3
  exact .ite (.quadEdge h4) h4

protected theorem Canonical.sinUpdate {means : List Nat} (h : Canonical s) : Canonical (sinUpdate means s) :=
  .frame h (by simp)

protected theorem Canonical.switchAccept {n : Fin 16} {ohms : Nat} (h : Canonical s) :
    Canonical (switchAccept n ohms s) := .frame h (by simp)

protected theorem Canonical.tachBreak {j : Fin 2} (h : Canonical s) : Canonical (tachBreak s j) :=
  .ite h (.ite (.note (.syncFreeze (.setFan h))) (.setIn (.setFan h)))

protected theorem Canonical.wireOpen {n : Fin 16} (h : Canonical s) : Canonical (wireOpen n s) :=
  .ite h (.foldl (fun _ => .tachBreak) (.setIn h))

protected theorem Canonical.fanStall {j : Fin 2} (h : Canonical s) : Canonical (fanStall j s) := by
  refine .ite h ?_
  split
  · exact h
  · exact .stallFan (.advanceTo h)

protected theorem Canonical.openLim {j : Fin 2} (h : Canonical s) : Canonical (openLim j s) :=
  .ite (.stallFan (.advanceTo h)) h

protected theorem Canonical.restartFan {j : Fin 2} (h : Canonical s) : Canonical (restartFan j s) :=
  .ite h (.syncFreeze (.closeHeld (.setFan h)))

protected theorem Canonical.repeatHolds (h : Canonical s) : Canonical (repeatHolds s) := .frame h (by simp)

protected theorem Canonical.fanRewritten {j : Fin 2} {old : Word} (h : Canonical s) :
    Canonical (fanRewritten j old s) := .ite h (.syncFreeze (.closeHeld (.setFan h)))

protected theorem Canonical.sinRewritten {n : Fin 16} {old : Word} (h : Canonical s) :
    Canonical (sinRewritten n old s) := .frame h (by simp)

protected theorem Canonical.sinCntclr {value : Word} (h : Canonical s) : Canonical (sinCntclr value s) :=
  .frame h (by simp)

/-! ## The loop engine: it writes the loop tables -/

/-- A slot changed to one whose table is canonical. -/
protected theorem Canonical.putSlot {i : Fin 16} {f : Slot → Slot} (h : Canonical s)
    (hf : canon (fun _ => (0 : Int)) (f s.loop.slot[i]).table = true) : Canonical (setSlot i f s) := by
  obtain ⟨hregs, hbuf, hfsram, himg, hA, hB, hsnap, htable⟩ := h
  refine ⟨hregs, hbuf, hfsram, himg, hA, hB, hsnap, fun j => ?_⟩
  simp only [Fin.getElem_fin, setSlot_get]
  split
  · exact hf
  · exact htable j

/-- A change of a slot that leaves its table as it was. -/
protected theorem Canonical.setSlot {i : Fin 16} {f : Slot → Slot} (h : Canonical s)
    (hf : ∀ l, (f l).table = l.table := by exact fun _ => rfl) : Canonical (setSlot i f s) := by
  refine .putSlot h ?_
  rw [hf]
  obtain ⟨-, -, -, -, -, -, -, htable⟩ := h
  exact htable i

protected theorem Canonical.noteSat {i : Fin 16} {bits : BitVec 5} (h : Canonical s) : Canonical (noteSat i bits s) :=
  .ite h (.noteEpoch (.setSlot h))

/-- A change of the scale clears the table or leaves it as it was. -/
theorem rescale_table_canon {old new : Word} {l : Slot} (hl : canon (fun _ => (0 : Int)) l.table = true) :
    canon (fun _ => (0 : Int)) (rescale old new l).1.table = true := by
  simp only [rescale]
  split
  · exact hl
  · rfl

protected theorem Canonical.setActive {i : Fin 16} {b : Vector Word 17} (h : Canonical s) :
    Canonical (setActive i b s) := by
  have hslot : Canonical (setSlot i (fun _ => { (rescale s.loop.slot[i].active[(0 : Fin 17)] b[(0 : Fin 17)]
      s.loop.slot[i]).1 with active := b }) s) := .putSlot h (rescale_table_canon (h.slotTable i))
  exact .ite (.noteSat hslot) (.note (.noteSat hslot))

protected theorem Canonical.applyCell {c : CoefCell} (h : Canonical s) : Canonical (applyCell c s) :=
  .ite (.setSlot h) (.setActive h)

protected theorem Canonical.applyCells {i : Fin 16} (h : Canonical s) : Canonical (applyCells i s) :=
  .foldl (fun _ => .applyCell) (.setSlot h)

protected theorem Canonical.swapBanks {i : Fin 16} (h : Canonical s) : Canonical (swapBanks i s) :=
  .setActive (.setSlot h)

/-- The control law learns by one store into the table. -/
theorem law_table_canon {l : Slot} {fb : Int} {k n : Nat} {lost held : Bool} {point : Option Nat} {d : Dy}
    (hl : canon (fun _ => (0 : Int)) l.table = true) :
    canon (fun _ => (0 : Int)) (law l fb k n lost held point d).slot.table = true := by
  simp only [law]
  split
  · exact store_canon _ _ _ _ hl
  · exact hl

protected theorem Canonical.writeBound {i : Fin 16} {u e : Int} (h : Canonical s) : Canonical (writeBound i u e s) :=
  .ite h (.foldl (fun _ => .setReg) h)

protected theorem Canonical.capture {k : Word} {dly : Nat} {r : Sample} (h : Canonical s) :
    Canonical (capture k dly r s) := .ite (.update h) h

protected theorem Canonical.loopSample {i : Fin 16} {fb : Int} (h : Canonical s) : Canonical (loopSample i fb s) := by
  unfold Machine.loopSample
  refine .ite h ?_
  extract_lets t s1 _ s2 k s3 s4 mine point work rest dly _
  have h2 : Canonical s2 := .update (.advanceTo h)
  have h3 : Canonical s3 := .ite (.applyCells (.swapBanks (.applyCells h2))) (.applyCells h2)
  have h4 : Canonical s4 := .ite (.takeSample h3) h3
  refine .ite h3 ?_
  clear_value s4
  iterate 3 split
  extract_lets r s5 _ s6 s7 s8
  have h6 : Canonical s6 := .putSlot (.update h4) (law_table_canon (h4.slotTable i))
  have h8 : Canonical s8 := .writeBound (.noteSat h6)
  exact .ite (.capture h8) h8

protected theorem Canonical.loopSwapAct {i : Fin 16} (h : Canonical s) : Canonical (loopSwapAct i s) := by
  unfold Machine.loopSwapAct
  split
  · exact h
  · exact .swapBanks (.applyCells (.advanceTo h))

protected theorem Canonical.loopStop {m : BitVec 16} (h : Canonical s) : Canonical (loopStop m s) :=
  .settleTest (.foldl (fun _ h => .setSlot h) h)

protected theorem Canonical.loopRun {m : BitVec 16} (h : Canonical s) : Canonical (loopRun m s) :=
  .ite h (.foldl (fun _ h => .setSlot h) h)

protected theorem Canonical.loopReset {m : BitVec 16} (h : Canonical s) : Canonical (loopReset m s) :=
  .foldl (fun _ h => .putSlot h rfl) h

protected theorem Canonical.testGo (h : Canonical s) : Canonical (testGo s).1 :=
  .iteFst h (.iteFst h (.iteFst h (.update h)))

protected theorem Canonical.testAbort (h : Canonical s) : Canonical (testAbort s) := .ite (.update h) h

protected theorem Canonical.captureEnd (h : Canonical s) : Canonical (captureEnd s) := .ite (.update h) h

protected theorem Canonical.loopClr {i : Fin 16} {v : Word} (h : Canonical s) : Canonical (loopClr i v s) :=
  .setSlot h

protected theorem Canonical.coefTaken {c : CoefCell} (h : Canonical s) : Canonical (coefTaken c s) := by
  unfold Machine.coefTaken
  split
  · exact .upCell h
  · exact .upCell (.ite (.update h) (.ite (.setSlot (.update h)) (.ite (.setSlot (.update h)) (.applyCell
      (.applyCells (.update h))))))

protected theorem Canonical.coefCell {c : CoefCell} (h : Canonical s) : Canonical (coefCell c s) :=
  .onDown .coefTaken h

/-! ## Field registers -/

protected theorem Canonical.closeFieldRec {seq : BitVec 31} (h : Canonical s) : Canonical (closeFieldRec seq s) :=
  .frame h (by simp)

protected theorem Canonical.loopCmd {v : Word} (h : Canonical s) : Canonical (loopCmd v s) := by
  unfold Machine.loopCmd
  split
  · exact .loopStop h
  · exact .loopRun h
  · exact .loopReset h

protected theorem Canonical.fieldCommand {a : Nat} {v : Word} (h : Canonical s) : Canonical (fieldCommand a v s) := by
  unfold Machine.fieldCommand
  split
  · exact .update h
  · exact .sinCntclr h
  · exact .ite (.loopCmd h) (.ite (.ite (.testGo h) (.ite (.testAbort h) h)) (.loopClr h))
  · exact .ite (.closeFieldRec h) (.ite (.openDisc h) (.ite (.closeDisc h) h))

protected theorem Canonical.fieldPut {a : Nat} {v : Word} (h : Canonical s) : Canonical (fieldPut a v s) := by
  unfold Machine.fieldPut
  split
  · exact h
  · exact .ite (.fieldCommand h) (.ite (.sinRewritten (.setReg h)) (.ite (.fanRewritten (.setReg h)) (.ite
      (.fanRewritten (.setReg h)) (.setReg h))))

protected theorem Canonical.fieldWrite {a : Nat} {value mask : Word} (h : Canonical s) :
    Canonical (fieldWrite a value mask s).1 := by
  unfold Machine.fieldWrite
  split
  · exact h
  · exact .fieldPut h

protected theorem Canonical.fieldReadAct {a : Nat} (h : Canonical s) : Canonical (fieldReadAct a s) :=
  .frame h (by simp)

/-! ## What the field side does for a command -/

protected theorem Canonical.orElse {c : Option Ans} {f : State → State × Ans} (h : Canonical s)
    (hf : ∀ {s}, Canonical s → Canonical (f s).1) : Canonical (orElse c s f).1 := by
  unfold Machine.orElse
  split
  · exact h
  · exact hf h

protected theorem Canonical.ochSetField {b : List Byte} (h : Canonical s) : Canonical (ochSetField b s).1 :=
  .frame h (by simp)

protected theorem Canonical.ochTimingField {b : List Byte} (h : Canonical s) : Canonical (ochTimingField b s).1 :=
  .orElse h (fun h => .foldl (fun _ h => .setReg (.setReg (.setReg (.setReg h)))) h)

protected theorem Canonical.ochClearField {b : List Byte} (h : Canonical s) : Canonical (ochClearField b s).1 :=
  .frame h (by simp)

protected theorem Canonical.cutEdges {es : List Edge} (h : Canonical s) : Canonical (cutEdges es s) :=
  .foldl (fun _ => .asApplied) (.update h)

protected theorem Canonical.dropEdges {mask : Word} (h : Canonical s) : Canonical (dropEdges mask s) :=
  .cutEdges (.update h)

protected theorem Canonical.flushChannels {mask : Word} (h : Canonical s) : Canonical (flushChannels mask s) :=
  .foldl (fun _ h => .setGate (.setOverride h)) (.dropEdges h)

protected theorem Canonical.ochFlushField {b : List Byte} (h : Canonical s) : Canonical (ochFlushField b s).1 :=
  .orElse h .flushChannels

protected theorem Canonical.sinReadField (h : Canonical s) : Canonical (sinReadField s).1 := .frame h (by simp)

protected theorem Canonical.fanRestartField {b : List Byte} (h : Canonical s) :
    Canonical (fanRestartField b s).1 := by
  refine .orElse h (fun h => ?_)
  split
  · exact h
  · exact .restartFan h

protected theorem Canonical.loopReadField {b : List Byte} (h : Canonical s) : Canonical (loopReadField b s).1 :=
  .frame h (by simp)

protected theorem Canonical.sweepAbortField {sid : Nat} (h : Canonical s) : Canonical (sweepAbortField sid s) :=
  .frame h (by simp)

protected theorem Canonical.loaderRead (h : Canonical s) : Canonical (loaderRead s).1 := .frame h (by simp)

protected theorem Canonical.fieldPart {o : FieldOp} (h : Canonical s) : Canonical (fieldPart o s).1 := by
  unfold Machine.fieldPart
  split
  · exact .ochSetField h
  · exact .ochTimingField h
  · exact .ochClearField h
  · exact .orElse h (fun h => h)
  · exact .ochFlushField h
  · exact .sinReadField h
  · exact .fanRestartField h
  · exact .sweepAbortField h
  · exact .loaderRead h
  · exact .loopReadField h

/-! ## Loss of the barrier link -/

protected theorem Canonical.loseTxn {t : RegTxn} (h : Canonical s) : Canonical (loseTxn t s) := by
  unfold Machine.loseTxn
  split
  · exact .ite h (.reply h)
  · exact h
  · exact .update h
  · exact h

protected theorem Canonical.dropLink (h : Canonical s) : Canonical (dropLink s) :=
  .foldl (fun _ => .reply) (.foldl (fun _ => .loseTxn) (.update h))

protected theorem Canonical.stopLink (h : Canonical s) : Canonical (stopLink s) := .enterClay (.dropLink h)

protected theorem Canonical.resumeF (h : Canonical s) : Canonical (resumeF s) := .frame h (by simp)

protected theorem Canonical.resumeH (h : Canonical s) : Canonical (resumeH s) := .frame h (by simp)

protected theorem Canonical.setLevel {l : Fin 5} (h : Canonical s) : Canonical (setLevel l s) := .frame h (by simp)

/-! ## The time base -/

protected theorem Canonical.chooseRef (h : Canonical s) : Canonical (chooseRef s) := .frame h (by simp)

protected theorem Canonical.ensureTimebase (h : Canonical s) : Canonical (ensureTimebase s) := .frame h (by simp)

protected theorem Canonical.stepTb {d : Int} (h : Canonical s) : Canonical (stepTb d s) := .frame h (by simp)

protected theorem Canonical.setGpsOrigin (h : Canonical s) : Canonical (setGpsOrigin s) := .frame h (by simp)

protected theorem Canonical.originStep (h : Canonical s) : Canonical (originStep s) := by
  unfold Machine.originStep
  split
  · exact h
  · refine .ite h ?_
    extract_lets s1 _ s2 s3 _ s4
    have h2 : Canonical s2 := .stepTb (.update (.advanceTo h))
    have h4 : Canonical s4 := .update (.ite h2 (.hostClay h2))
    exact .ite (.setGpsOrigin h4) h4

protected theorem Canonical.insertTime (h : Canonical s) : Canonical (insertTime s) := .frame h (by simp)

protected theorem Canonical.announceStep (h : Canonical s) : Canonical (announceStep s) := .frame h (by simp)

protected theorem Canonical.autoStep (h : Canonical s) : Canonical (autoStep s) := .frame h (by simp)

protected theorem Canonical.slewBy {off10 : Int} (h : Canonical s) : Canonical (slewBy off10 s) := .frame h (by simp)

protected theorem Canonical.steer (h : Canonical s) : Canonical (steer s) := .frame h (by simp)

protected theorem Canonical.adopt {i : TimeInfo} {off10 : Int} (h : Canonical s) : Canonical (adopt i off10 s) :=
  .frame h (by simp)

protected theorem Canonical.align {i : TimeInfo} {off10 : Int} (h : Canonical s) : Canonical (align i off10 s) :=
  .update (.ite (.adopt h) (.ite (.slewBy h) (.adopt (.ite h (.hostClay h)))))

protected theorem Canonical.takeFlags {i : TimeInfo} (h : Canonical s) : Canonical (takeFlags i s) :=
  .frame h (by simp)

protected theorem Canonical.takeIsland {i : TimeInfo} (h : Canonical s) : Canonical (takeIsland i s) :=
  .frame h (by simp)

protected theorem Canonical.policyClay (h : Canonical s) : Canonical (policyClay s) := .hostClay (.update h)

protected theorem Canonical.duePolicy (h : Canonical s) : Canonical (duePolicy s) := by
  unfold Machine.duePolicy
  split
  · exact .ite (.policyClay h) h
  · exact h

protected theorem Canonical.useTime {i : TimeInfo} {arrival : BitVec 32} (h : Canonical s) :
    Canonical (useTime i arrival s) :=
  .ite (.duePolicy (.takeIsland h)) (.takeFlags (.ite (.align (.update (.duePolicy (.takeIsland h)))) (.slewBy
    (.update (.duePolicy (.takeIsland h))))))

protected theorem Canonical.timeFrame {i : TimeInfo} {residence : Nat} (h : Canonical s) :
    Canonical (timeFrame i residence s) :=
  .ite h (.ite (.update h) (.ite (.useTime (.sendDown (.update h))) (.sendDown (.update h))))

protected theorem Canonical.freshEcho (h : Canonical s) : Canonical (freshEcho s) := .frame h (by simp)

protected theorem Canonical.releaseLines (h : Canonical s) : Canonical (releaseLines s) := .update h

protected theorem Canonical.relockFresh (h : Canonical s) : Canonical (relockFresh s) :=
  .stopLink (.update (.freshEcho (.releaseLines h)))

protected theorem Canonical.coldRelock {why : RelockCause} (h : Canonical s) : Canonical (coldRelock why s) := by
  unfold Machine.coldRelock
  split
  · exact .ite (.relockFresh h) h
  · exact .ite (.relockFresh h) h
  · exact .ite (.setLevel (.stopLink (.update (.releaseLines h)))) h
  · exact .ite (.setLevel (.stopLink (.update (.releaseLines h)))) h

protected theorem Canonical.dpllLock {r : LockRef} (h : Canonical s) : Canonical (dpllLock r s) := .frame h (by simp)

protected theorem Canonical.reloadTb {refCycles : Nat} (h : Canonical s) : Canonical (reloadTb refCycles s) :=
  .frame h (by simp)

protected theorem Canonical.clockUngate {refCycles : Nat} (h : Canonical s) : Canonical (clockUngate refCycles s) := by
  unfold Machine.clockUngate
  refine .ite h ?_
  extract_lets counts s1 _ s2 s3 _ s4
  have h2 : Canonical s2 := .update (.reloadTb h)
  have h3 : Canonical s3 := .ite (.note h2) h2
  have h4 : Canonical s4 := .ite (.raise (.update h3)) h3
  exact .ensureTimebase (.chooseRef h4)

protected theorem Canonical.epochClock (h : Canonical s) : Canonical (epochClock s) := .frame h (by simp)

protected theorem Canonical.readNow (h : Canonical s) : Canonical (readNow s) := .frame h (by simp)

protected theorem Canonical.putTbCtrl {v : Word} (h : Canonical s) : Canonical (putTbCtrl v s) :=
  .chooseRef (.setReg h)

/-! ## The barrier and its transactions -/

protected theorem Canonical.enableLanes (h : Canonical s) : Canonical (enableLanes s) := .frame h (by simp)

protected theorem Canonical.linkUpAbandon (h : Canonical s) : Canonical (linkUpAbandon s) := .frame h (by simp)

protected theorem Canonical.completeLink {latency : Nat} (h : Canonical s) : Canonical (completeLink latency s) :=
  .frame h (by simp)

protected theorem Canonical.epochBarrier (h : Canonical s) : Canonical (epochBarrier s) := .frame h (by simp)

protected theorem Canonical.cellReject {side : Side} {why : CellDrop} {inMessage : Bool} (h : Canonical s) :
    Canonical (cellReject side why inMessage s) := .frame h (by simp)

protected theorem Canonical.clearBarr {v : Word} (h : Canonical s) : Canonical (clearBarr v s) := .frame h (by simp)

protected theorem Canonical.heartbeatSend {side : Side} (h : Canonical s) : Canonical (heartbeatSend side s) :=
  .frame h (by simp)

protected theorem Canonical.heartbeat {b : Heartbeat} (h : Canonical s) : Canonical (heartbeat b s) :=
  .frame h (by simp)

protected theorem Canonical.safeTaken {causes : BitVec 16} (h : Canonical s) : Canonical (safeTaken causes s) :=
  .foldl (fun _ h => .ite (.enterClay h) h) (.toFieldFrame h)

protected theorem Canonical.safeReq {causes : BitVec 16} (h : Canonical s) : Canonical (safeReq causes s) :=
  .onDown .safeTaken h

protected theorem Canonical.timeSync {tb : BitVec 64} (h : Canonical s) : Canonical (timeSync tb s) :=
  .frame h (by simp)

protected theorem Canonical.sendTxn {t0 : RegTxn} (h : Canonical s) : Canonical (sendTxn t0 s) := .frame h (by simp)

protected theorem Canonical.startWrite {why : TxnFor} {sched : Bool} {applyAt : Frame48} {puts : List RegPut}
    (h : Canonical s) : Canonical (startWrite why sched applyAt puts s) := .frame h (by simp)

protected theorem Canonical.startRead {why : TxnFor} {a : BitVec 24} {n : Nat} (h : Canonical s) :
    Canonical (startRead why a n s) := .frame h (by simp)

protected theorem Canonical.startOp {why : TxnFor} {sched : Bool} {applyAt : Frame48} {o : FieldOp}
    (h : Canonical s) : Canonical (startOp why sched applyAt o s) := .frame h (by simp)

protected theorem Canonical.opAnswer {q : Request} {status detail : Byte} {data : List Byte} (h : Canonical s) :
    Canonical (opAnswer q status detail data s).1 := .frame h (by simp)

protected theorem Canonical.answerTxn {t : RegTxn} {q : Request} {status detail : Byte} (h : Canonical s) :
    Canonical (answerTxn t q status detail s) :=
  .ite (.ite h (.schedFail (.update h))) (.ite (.reply (.opAnswer h)) (.reply h))

protected theorem Canonical.sendBankWord {p : RegPut} (h : Canonical s) : Canonical (sendBankWord p s) :=
  .frame h (by simp)

protected theorem Canonical.configureNext (h : Canonical s) : Canonical (configureNext s) := by
  unfold Machine.configureNext
  split
  · exact h
  · exact .ite (.sendBankWord (.update h)) (.startWrite (.update h))

protected theorem Canonical.cfgRefusal (h : Canonical s) : Canonical (cfgRefusal s) := .note (.update h)

protected theorem Canonical.endTxn {t : RegTxn} {status detail : Byte} (h : Canonical s) :
    Canonical (endTxn t status detail s) := by
  unfold Machine.endTxn
  split
  · exact .answerTxn (.update h)
  · exact .configureNext (.ite (.update h) (.cfgRefusal (.update h)))
  · exact .update h
  · exact .update h

protected theorem Canonical.dataTaken {tag : BitVec 16} {status : Byte} {addr : BitVec 24} {values : List Word}
    (h : Canonical s) : Canonical (dataTaken tag status addr values s) := by
  unfold Machine.dataTaken
  split
  · exact h
  · exact .ite (.endTxn h) (.ite (.endTxn h) (.ite (.endTxn h) (.sendTxn (.update h))))

protected theorem Canonical.cfgData {tag : BitVec 16} {status : Byte} {addr : BitVec 24} {values : List Word}
    (h : Canonical s) : Canonical (cfgData tag status addr values s) := .onUp .dataTaken h

protected theorem Canonical.cfgResend {tag : BitVec 16} (h : Canonical s) : Canonical (cfgResend tag s) := by
  unfold Machine.cfgResend
  split
  · exact h
  · refine .ite h (.ite (.endTxn h) ?_)
    split
    · exact .sendCell (.update h)
    · exact .update h

protected theorem Canonical.rememberTag {tag : BitVec 16} {c : Cell} (h : Canonical s) :
    Canonical (rememberTag tag c s) := .frame h (by simp)

protected theorem Canonical.applyCfgWrite {c : CfgWriteCell} (h : Canonical s) : Canonical (applyCfgWrite c s).1 := by
  refine .iteFst (.ite (.update h) h) ?_
  split
  · exact .fieldPart (.toFieldFrame h)
  · exact .iteFst h (.fieldWrite (.toFieldFrame h))

protected theorem Canonical.writeTaken {c : CfgWriteCell} (h : Canonical s) : Canonical (writeTaken c s) := by
  unfold Machine.writeTaken
  split
  · exact .upCell h
  · exact .upCell (.rememberTag (.applyCfgWrite h))

protected theorem Canonical.cfgWrite {c : CfgWriteCell} (h : Canonical s) : Canonical (cfgWrite c s) :=
  .onDown .writeTaken h

protected theorem Canonical.cfgRead {tag : BitVec 16} {addr : BitVec 24} {count : BitVec 3} (h : Canonical s) :
    Canonical (cfgRead tag addr count s) := .frame h (by simp)

protected theorem Canonical.markSched {w : CfgWriteCell} {f : SchedCmd → SchedCmd} (h : Canonical s) :
    Canonical (markSched w f s) := .frame h (by simp)

protected theorem Canonical.failSched {w : CfgWriteCell} {status : Byte} (h : Canonical s) :
    Canonical (failSched w status s) := .frame h (by simp)

protected theorem Canonical.actSchedWrite {c : CfgWriteCell} (h : Canonical s) : Canonical (actSchedWrite c s) := by
  unfold Machine.actSchedWrite
  split
  · exact .ite (.failSched (.markSched (.fieldPart h))) (.markSched (.fieldPart h))
  · extract_lets v
    split
    · exact .markSched (.fieldPut h)
    · exact .failSched h

protected theorem Canonical.schedWriteAct (h : Canonical s) : Canonical (schedWriteAct s) := by
  unfold Machine.schedWriteAct
  split
  · exact h
  · exact .ite h (.actSchedWrite (.update (.advanceTo h)))

protected theorem Canonical.schedEdge {tag : BitVec 16} {es : List Edge} (h : Canonical s) :
    Canonical (schedEdge tag es s) := .frame h (by simp)

protected theorem Canonical.acksTaken {acks : List (BitVec 16 × Fin 4)} (h : Canonical s) :
    Canonical (acksTaken acks s) := by
  refine .foldl (fun _ h => ?_) h
  split
  · exact h
  · exact .ite (.cutEdges (.update h)) (.update h)

protected theorem Canonical.edgeAck {acks : List (BitVec 16 × Fin 4)} (h : Canonical s) :
    Canonical (edgeAck acks s) := .onUp .acksTaken h

protected theorem Canonical.schedEdgeResend {tag : BitVec 16} (h : Canonical s) :
    Canonical (schedEdgeResend tag s) := by
  unfold Machine.schedEdgeResend
  split
  · exact h
  · exact .ite h (.ite (.raise (.update h)) (.sendCell (.update h)))

protected theorem Canonical.answerCoef {r : CoefReq} (h : Canonical s) : Canonical (answerCoef r s) := by
  unfold Machine.answerCoef
  split
  · exact .ite (.configureNext h) (.reply h)
  · exact .ite (.configureNext (.cfgRefusal h)) (.reply h)

protected theorem Canonical.coefResult {tag : BitVec 16} {st : Byte} (h : Canonical s) :
    Canonical (coefResult tag st s) := .foldl (fun _ => .answerCoef) (.update h)

protected theorem Canonical.coefAcksTaken {acks : List (BitVec 16 × Byte)} (h : Canonical s) :
    Canonical (coefAcksTaken acks s) := .foldl (fun _ => .coefResult) h

protected theorem Canonical.loopCoefResend {tag : BitVec 16} (h : Canonical s) :
    Canonical (loopCoefResend tag s) := by
  unfold Machine.loopCoefResend
  split
  · exact h
  · exact .ite h (.ite (.coefResult h) (.sendCell (.update h)))

/-! ## The chain -/

protected theorem Canonical.idleSend {p : ChainPort} (h : Canonical s) : Canonical (idleSend p s) :=
  .frame h (by simp)

protected theorem Canonical.symbolLock {p : ChainPort} (h : Canonical s) : Canonical (symbolLock p s) :=
  .frame h (by simp)

protected theorem Canonical.idleFrame {p : ChainPort} {i : IdleInfo} (h : Canonical s) :
    Canonical (idleFrame p i s) := .frame h (by simp)

protected theorem Canonical.partnerTimeout {p : ChainPort} (h : Canonical s) : Canonical (partnerTimeout p s) :=
  .frame h (by simp)

protected theorem Canonical.dropWalk (h : Canonical s) : Canonical (dropWalk s) := by
  unfold Machine.dropWalk
  split
  · exact h
  · split
    · exact .reply (.update h)
    · exact .update h

protected theorem Canonical.islandFrom (h : Canonical s) : Canonical (islandFrom s) :=
  .insertTime (.advanceTo (.duePolicy (.ensureTimebase (.chooseRef (.update (.dropWalk h))))))

protected theorem Canonical.chainBreak {hop : Nat} (h : Canonical s) : Canonical (chainBreak hop s) :=
  .frame h (by simp)

protected theorem Canonical.symbolLockLoss {p : ChainPort} (h : Canonical s) : Canonical (symbolLockLoss p s) := by
  have hdraw : Canonical (draw s) := .draw h
  refine .ite h ?_
  cases p with
  | up => exact .ite (.chooseRef (.freshEcho (.update hdraw))) (.islandFrom (.freshEcho (.update hdraw)))
  | dn =>
    exact .ite (.update hdraw) (.ite (.chainBreak (.update hdraw))
      (.ite (.queueUp (.update hdraw)) (.update hdraw)))

protected theorem Canonical.countOn {p : ChainPort} {c : CrcState} {ok : Bool} (h : Canonical s) :
    Canonical (countOn p c ok s) := .frame h (by simp)

protected theorem Canonical.forwardOn {p : ChainPort} {f : ChainFrame} (h : Canonical s) :
    Canonical (forwardOn p f s) := .frame h (by simp)

protected theorem Canonical.arrive {p : ChainPort} {f : ChainFrame} (h : Canonical s) : Canonical (arrive p f s) :=
  .frame h (by simp)

protected theorem Canonical.frameForward {p : ChainPort} {f : ChainFrame} (h : Canonical s) :
    Canonical (frameForward p f s) := .frame h (by simp)

protected theorem Canonical.insertOwn (h : Canonical s) : Canonical (insertOwn s) := .frame h (by simp)

protected theorem Canonical.insertDue (h : Canonical s) : Canonical (insertDue s) := .frame h (by simp)

protected theorem Canonical.returnReply {f : ChainFrame} (h : Canonical s) : Canonical (returnReply f s) := by
  unfold Machine.returnReply
  split
  · exact .update h
  · split
    · exact .routeReply h
    · exact .ite (.sendUp h) (.update h)

protected theorem Canonical.rplFrame {f : ChainFrame} (h : Canonical s) : Canonical (rplFrame f s) :=
  .ite h (.ite (.arrive h) (.ite (.returnReply (.countOn h)) (.forwardOn (.countOn h))))

protected theorem Canonical.enumPass {p : ChainPort} {kind : Nat} {i : EnumInfo} (h : Canonical s) :
    Canonical (enumPass p kind i s) := .frame h (by simp)

protected theorem Canonical.checkPlanner {p : Byte} (h : Canonical s) : Canonical (checkPlanner p s) :=
  .frame h (by simp)

protected theorem Canonical.takeAddr {a : BitVec 16} {valid : Bool} {id : BitVec 3} (h : Canonical s) :
    Canonical (takeAddr a valid id s) := .ite (.note (.hostClay (.update h))) (.update h)

protected theorem Canonical.endIsland (h : Canonical s) : Canonical (endIsland s) := .frame h (by simp)

protected theorem Canonical.sendStart {recheck : Bool} {gen next : BitVec 16} (h : Canonical s) :
    Canonical (sendStart recheck gen next s) := .frame h (by simp)

protected theorem Canonical.endWalk {last : BitVec 16} {stalled : Bool} (h : Canonical s) :
    Canonical (endWalk last stalled s) := by
  unfold Machine.endWalk
  split
  · exact h
  · extract_lets _ s1 s2 _ s3 s4
    have h2 : Canonical s2 := .ite (.note (.sendDown h)) (.sendDown h)
    have h4 : Canonical s4 := .endIsland (.checkPlanner (.update h2))
    split
    · exact h4
    · exact .reply h4

protected theorem Canonical.walkStart {recheck : Bool} {q : Option Request} (h : Canonical s) :
    Canonical (walkStart recheck q s) := by
  unfold Machine.walkStart
  refine .ite h ?_
  extract_lets s1 gen s2 _ s3
  have h1 : Canonical s1 := by
    unfold s1
    split
    · split
      · exact .reply h
      · exact h
    · exact h
  have h3 : Canonical s3 := .update (.takeAddr h1)
  exact .ite (.sendStart h3) (.endWalk h3)

protected theorem Canonical.autoWalk {recheck : Bool} (h : Canonical s) : Canonical (autoWalk recheck s) :=
  .ite (.walkStart h) (.ite (.walkStart (.update h)) h)

protected theorem Canonical.enumStart {i : EnumInfo} (h : Canonical s) : Canonical (enumStart i s) :=
  .frame h (by simp)

protected theorem Canonical.enumClaim {i : EnumInfo} (h : Canonical s) : Canonical (enumClaim i s) :=
  .frame h (by simp)

protected theorem Canonical.enumVerdict {i : EnumInfo} (h : Canonical s) : Canonical (enumVerdict i s) :=
  .frame h (by simp)

protected theorem Canonical.enumEnd {i : EnumInfo} (h : Canonical s) : Canonical (enumEnd i s) := by
  refine .ite h ?_
  extract_lets u
  have hu : Canonical u := .enumPass h
  split
  · exact .endWalk hu
  · exact hu

protected theorem Canonical.applyClaim {i : EnumInfo} (h : Canonical s) : Canonical (applyClaim i s) := by
  unfold Machine.applyClaim
  split
  · exact .ite (.takeAddr h) h
  · exact h

protected theorem Canonical.enumDone {i : EnumInfo} (h : Canonical s) : Canonical (enumDone i s) :=
  .ite h (.ite (.enumPass h) (.endIsland (.checkPlanner (.update (.applyClaim (.enumPass h))))))

protected theorem Canonical.enumStallTimeout (h : Canonical s) : Canonical (enumStallTimeout s) := by
  refine .ite h ?_
  split
  · exact .ite (.endWalk h) h
  · exact .ite (.sendUp (.update h)) h
  · exact h

protected theorem Canonical.claimResend (h : Canonical s) : Canonical (claimResend s) := .frame h (by simp)

protected theorem Canonical.marlCount {i : MarlInfo} (h : Canonical s) : Canonical (marlCount i s).1 :=
  .frame h (by simp)

protected theorem Canonical.sendPattern {i : MarlInfo} (h : Canonical s) : Canonical (sendPattern i s) :=
  .frame h (by simp)

protected theorem Canonical.clearChain {v : Word} (h : Canonical s) : Canonical (clearChain v s) := .frame h (by simp)

/-! ## Commands that act on the field side -/

protected theorem Canonical.guarded {c : Option Ans} {f : State → State × Option Ans} (h : Canonical s)
    (hf : ∀ {s}, Canonical s → Canonical (f s).1) : Canonical (guarded c s f).1 := by
  unfold Machine.guarded
  split
  · exact h
  · exact hf h

protected theorem Canonical.crossAct {q : Request} (h : Canonical s) : Canonical (crossAct q s).1 :=
  .frame h (by simp)

protected theorem Canonical.handOp {q : Request} (h : Canonical s) : Canonical (handOp q s) := .frame h (by simp)

protected theorem KeepsCanonical.opOchSet : KeepsCanonical opOchSet where
  act := fun _ _ h => .crossAct h
  hand := fun _ _ h => .handOp h

protected theorem KeepsCanonical.opOchTiming : KeepsCanonical opOchTiming where
  act := fun _ _ h => .crossAct h
  hand := fun _ _ h => .handOp h

protected theorem Canonical.handEdges {es : List Edge} (h : Canonical s) : Canonical (handEdges es s) :=
  .sendEdges (.update h)

protected theorem Canonical.ochEdgesAct {q : Request} (h : Canonical s) : Canonical (ochEdgesAct q s).1 :=
  .guarded h .handEdges

protected theorem KeepsCanonical.opOchEdges : KeepsCanonical opOchEdges where
  act := fun _ _ h => .ochEdgesAct h

protected theorem KeepsCanonical.opOchClear : KeepsCanonical opOchClear where
  act := fun _ _ h => .crossAct h
  hand := fun _ _ h => .handOp h

protected theorem KeepsCanonical.opOchStatus : KeepsCanonical opOchStatus where
  act := fun _ _ h => .crossAct h

protected theorem KeepsCanonical.opOchFlush : KeepsCanonical opOchFlush where
  act := fun _ _ h => .crossAct h
  hand := fun _ _ h => .handOp h

protected theorem KeepsCanonical.opSinRead : KeepsCanonical opSinRead where
  act := fun _ _ h => .crossAct h

protected theorem KeepsCanonical.opFanRestart : KeepsCanonical opFanRestart where
  act := fun _ _ h => .crossAct h
  hand := fun _ _ h => .handOp h

protected theorem Canonical.loopCoefAct {q : Request} (h : Canonical s) : Canonical (loopCoefAct q s).1 :=
  .frame h (by simp)

protected theorem KeepsCanonical.opLoopCoef : KeepsCanonical opLoopCoef where
  act := fun _ _ h => .loopCoefAct h

protected theorem Canonical.loopSwapReq {q : Request} (h : Canonical s) : Canonical (loopSwapReq q s).1 :=
  .frame h (by simp)

protected theorem KeepsCanonical.opLoopSwap : KeepsCanonical opLoopSwap where
  act := fun _ _ h => .loopSwapReq h

protected theorem Canonical.loopCtrlAct {q : Request} (h : Canonical s) : Canonical (loopCtrlAct q s).1 :=
  .frame h (by simp)

protected theorem Canonical.handWrite {puts : Request → List RegPut} {q : Request} (h : Canonical s) :
    Canonical (handWrite puts q s) := .frame h (by simp)

protected theorem KeepsCanonical.opLoopCtrl : KeepsCanonical opLoopCtrl where
  act := fun _ _ h => .loopCtrlAct h
  hand := fun _ _ h => .handWrite h

protected theorem Canonical.loopTestAct {q : Request} (h : Canonical s) : Canonical (loopTestAct q s).1 :=
  .frame h (by simp)

protected theorem KeepsCanonical.opLoopTest : KeepsCanonical opLoopTest where
  act := fun _ _ h => .loopTestAct h
  hand := fun _ _ h => .handWrite h

protected theorem KeepsCanonical.opLoopRead : KeepsCanonical opLoopRead where
  act := fun _ _ h => .crossAct h

/-! ## Events, sweeps and the as-applied log -/

protected theorem Canonical.eventMessage {r : EventRec} (h : Canonical s) : Canonical (eventMessage r s) :=
  .frame h (by simp)

protected theorem Canonical.eventHandle (h : Canonical s) : Canonical (eventHandle s) := .frame h (by simp)

protected theorem Canonical.clearEvt {v : Word} (h : Canonical s) : Canonical (clearEvt v s) := .frame h (by simp)

protected theorem Canonical.closeEpoch (h : Canonical s) : Canonical (closeEpoch s) := .frame h (by simp)

protected theorem Canonical.writeLog (h : Canonical s) : Canonical (writeLog s) := .frame h (by simp)

protected theorem Canonical.writeApplied (h : Canonical s) : Canonical (writeApplied s) := .update h

protected theorem Canonical.commitRecords (h : Canonical s) : Canonical (commitRecords s) :=
  .writeApplied (.writeLog h)

protected theorem Canonical.eventReadAct {q : Request} (h : Canonical s) : Canonical (eventReadAct q s).1 :=
  .frame h (by simp)

protected theorem KeepsCanonical.opEventRead : KeepsCanonical opEventRead where
  act := fun _ _ h => .eventReadAct h

protected theorem Canonical.eventCloseAct {q : Request} (h : Canonical s) : Canonical (eventCloseAct q s).1 :=
  .frame h (by simp)

protected theorem KeepsCanonical.opEventClose : KeepsCanonical opEventClose where
  act := fun _ _ h => .eventCloseAct h

protected theorem Canonical.startSweep {sweepId : BitVec 16} (h : Canonical s) : Canonical (startSweep sweepId s) :=
  .frame h (by simp)

protected theorem Canonical.sweepSlotEnd {v1 v2 : Word} {v3 : BitVec 16} {measured : Bool} (h : Canonical s) :
    Canonical (sweepSlotEnd v1 v2 v3 measured s) := .frame h (by simp)

protected theorem Canonical.captureData {res : SweepRes} (h : Canonical s) : Canonical (captureData res s) :=
  .frame h (by simp)

protected theorem Canonical.sweepCtrl {m : SweepMsg} (h : Canonical s) : Canonical (sweepCtrl m s) :=
  .frame h (by simp)

protected theorem Canonical.sweepAccepted {q : Request} (h : Canonical s) : Canonical (sweepAccepted q s) :=
  .frame h (by simp)

protected theorem Canonical.sweepHand {q : Request} (h : Canonical s) : Canonical (sweepHand q s) :=
  .frame h (by simp)

protected theorem KeepsCanonical.opSweepStart : KeepsCanonical opSweepStart where
  act := fun _ _ h => .iteFst (.startSweep h) h
  hand := fun _ _ h => .sweepHand h
  onAccept := fun _ _ h => .sweepAccepted h

protected theorem Canonical.sweepResultAct {q : Request} (h : Canonical s) : Canonical (sweepResultAct q s).1 :=
  .frame h (by simp)

protected theorem KeepsCanonical.opSweepResult : KeepsCanonical opSweepResult where
  act := fun _ _ h => .sweepResultAct h

protected theorem Canonical.sweepAbortAct {q : Request} (h : Canonical s) : Canonical (sweepAbortAct q s).1 :=
  .frame h (by simp)

protected theorem KeepsCanonical.opSweepAbort : KeepsCanonical opSweepAbort where
  act := fun _ _ h => .sweepAbortAct h
  hand := fun _ _ h => .handOp h

protected theorem KeepsCanonical.opAsappliedRead : KeepsCanonical opAsappliedRead where
  act := fun _ _ h => h

/-! ## Section control -/

protected theorem Canonical.geometrySetAct {q : Request} (h : Canonical s) : Canonical (geometrySetAct q s).1 :=
  .frame h (by simp)

protected theorem KeepsCanonical.opGeometrySet : KeepsCanonical opGeometrySet where
  act := fun _ _ h => .geometrySetAct h

protected theorem KeepsCanonical.opLookaheadSet : KeepsCanonical opLookaheadSet where
  act := fun _ _ h => .foldl (fun _ => .applyLook) h

protected theorem KeepsCanonical.opLatencyGet : KeepsCanonical opLatencyGet where
  act := fun _ _ h => h

protected theorem KeepsCanonical.opLatencySeed : KeepsCanonical opLatencySeed where
  act := fun _ _ h => .foldl (fun _ => .setSect) h

protected theorem Canonical.latencyMeasure {n : Fin 32} {on : Bool} {samples : List Nat} {edgeMv sigMv : Nat}
    (h : Canonical s) : Canonical (latencyMeasure n on samples edgeMv sigMv s) := .frame h (by simp)

protected theorem Canonical.stopOrStart {n : Fin 32} (h : Canonical s) : Canonical (stopOrStart n s) :=
  .frame h (by simp)

protected theorem Canonical.consume {limit : Nat} {xs : List (Fin 32 × List Crossing)} (h : Canonical s) :
    Canonical (consume limit xs s) := .frame h (by simp)

protected theorem Canonical.retireLines (h : Canonical s) : Canonical (retireLines s) := .frame h (by simp)

protected theorem Canonical.turnComp {n : Fin 32} (h : Canonical s) : Canonical (turnComp n s) := .frame h (by simp)

protected theorem Canonical.loseMotion (h : Canonical s) : Canonical (loseMotion s) := .frame h (by simp)

protected theorem Canonical.markCell {c : Int × Int} (h : Canonical s) : Canonical (markCell c s) :=
  .frame h (by simp)

protected theorem Canonical.coverage {poses : List Pose} (h : Canonical s) : Canonical (coverage poses s) :=
  .frame h (by simp)

protected theorem Canonical.settleGround (h : Canonical s) : Canonical (settleGround s) :=
  .update (.foldl (fun _ h => .update h) h)

protected theorem Canonical.takeMotion (h : Canonical s) : Canonical (takeMotion s) := .settleGround (.update h)

protected theorem Canonical.predict (h : Canonical s) : Canonical (predict s) :=
  .foldl (fun _ => .turnComp) (.retireLines (.consume (.update (.coverage (.foldl (fun _ => .stopOrStart) (.update
    h))))))

protected theorem Canonical.motionUpdate {ready : Fin 2001} (h : Canonical s) : Canonical (motionUpdate ready s) :=
  .ite h (.advanceTo (.ite (.predict (.takeMotion (.toEdge h))) (.ite (.loseMotion (.takeMotion (.toEdge h)))
    (.takeMotion (.toEdge h)))))

protected theorem Canonical.takeTarget {p : Pred} (h : Canonical s) : Canonical (takeTarget p s) := .frame h (by simp)

protected theorem Canonical.handOne {u : Nat} {acc : List Edge × State} {p : Pred} (h : Canonical acc.2) :
    Canonical (handOne u acc p).2 := by
  unfold Machine.handOne
  extract_lets _ _ s1
  have h1 : Canonical s1 := .takeTarget (.update h)
  exact .iteSnd (.asApplied h1) (.iteSnd (.asApplied h1) (.setSect (.update h1)))

protected theorem Canonical.missInClay {u : Nat} (h : Canonical s) : Canonical (missInClay u s) :=
  .foldl (fun _ h => .asApplied (.takeTarget (.update h))) h

protected theorem Canonical.edgeHandover (h : Canonical s) : Canonical (edgeHandover s) :=
  .ite h (.ite (.missInClay (.advanceTo h)) (.handEdges
    (foldl_inv (fun r : List Edge × State => Canonical r.2) _ (fun _ _ => .handOne) _ _
      (.handEdges (.update (.advanceTo h))))))

protected theorem Canonical.switchLineAct {q : Request} (h : Canonical s) : Canonical (switchLineAct q s).1 :=
  .frame h (by simp)

protected theorem KeepsCanonical.opSwitchLine : KeepsCanonical opSwitchLine where
  act := fun _ _ h => .switchLineAct h

protected theorem Canonical.switchClear {mask : Word} (h : Canonical s) : Canonical (switchClear mask s) :=
  .foldl (fun _ => .setGate) (.dropEdges (.foldl (fun _ => .setSect) (.update h)))

protected theorem KeepsCanonical.opSwitchClear : KeepsCanonical opSwitchClear where
  act := fun _ _ h => .switchClear h

protected theorem KeepsCanonical.opMotionGet : KeepsCanonical opMotionGet where
  act := fun _ _ h => h

protected theorem Canonical.tcReport {peers : List PeerLook} (h : Canonical s) : Canonical (tcReport peers s) :=
  .frame h (by simp)

protected theorem Canonical.tcSetpoint {k : Fin 256} {on : Bool} {rx : Frame48} (h : Canonical s) :
    Canonical (tcSetpoint k on rx s) := .frame h (by simp)

protected theorem Canonical.bridgeAfterRelease (h : Canonical s) : Canonical (bridgeAfterRelease s) :=
  .frame h (by simp)

protected theorem Canonical.sendBoundary (h : Canonical s) : Canonical (sendBoundary s) :=
  .ite (.ite h (.serve .opSwitchLine (.draw h))) (.foldl (fun _ h => .serve .opSwitchLine (.draw h)) (.ite h (.serve
    .opSwitchLine (.draw h))))

/-! ## Settings -/

protected theorem KeepsCanonical.opSetRead : KeepsCanonical opSetRead where
  act := fun _ _ h => .iteFst h (by split <;> exact h)

protected theorem KeepsCanonical.opSetWrite : KeepsCanonical opSetWrite where
  act := fun _ _ h => .iteFst h (.iteFst h (.update h))

protected theorem Canonical.startCommit {items : List (Nat × List Byte)} {q : Option Request} (h : Canonical s) :
    Canonical (startCommit items q s) := .update h

protected theorem Canonical.setCommitAct {q : Request} (h : Canonical s) : Canonical (setCommitAct q s).1 := by
  refine .iteFst h ?_
  split
  · exact h
  · exact .guarded h (fun h => .startCommit (.update h))

protected theorem KeepsCanonical.opSetCommit : KeepsCanonical opSetCommit where
  act := fun _ _ h => .setCommitAct h

protected theorem KeepsCanonical.opSetDiscard : KeepsCanonical opSetDiscard where
  act := fun _ _ h => .update h

protected theorem Canonical.pinSetAct {q : Request} (h : Canonical s) : Canonical (pinSetAct q s).1 :=
  .guarded h (fun h => .startCommit (.update h))

protected theorem KeepsCanonical.opPinSet : KeepsCanonical opPinSet where
  act := fun _ _ h => .pinSetAct h

protected theorem Canonical.answerCommit {c : Commit} (h : Canonical s) : Canonical (answerCommit c s) := by
  unfold Machine.answerCommit
  split
  · exact h
  · exact .ite (.reply (.setReg h)) (.reply h)

protected theorem Canonical.commitDone (h : Canonical s) : Canonical (commitDone s) := by
  unfold Machine.commitDone
  split
  · exact h
  · exact .answerCommit (.ite (.foldl (fun _ => .runItem) (.update h)) (.update h))

/-! ## Firmware images: they write the flash slots -/

/-- A change of the image in one flash slot. -/
protected theorem Canonical.setImg {b : Bool} {f : ImgSlot → ImgSlot} (h : Canonical s)
    (hf : ∀ x, Memory.wf flashByte x.mem → Memory.wf flashByte (f x).mem := by exact fun _ hx => hx) :
    Canonical (setImg b f s) := by
  obtain ⟨hregs, hbuf, hfsram, himg, hA, hB, hrest⟩ := h
  cases b
  · exact ⟨hregs, hbuf, hfsram, himg, hf _ hA, hB, hrest⟩
  · exact ⟨hregs, hbuf, hfsram, himg, hA, hf _ hB, hrest⟩

protected theorem Canonical.closeUpdate (h : Canonical s) : Canonical (closeUpdate s) := by
  unfold Machine.closeUpdate
  split
  · exact .setImg h
  · exact h

protected theorem Canonical.imgBeginAct {q : Request} (h : Canonical s) : Canonical (imgBeginAct q s).1 :=
  .guarded h fun h => .update (.setImg (.closeUpdate h) fun _ _ => rfl)

protected theorem KeepsCanonical.opImgBegin : KeepsCanonical opImgBegin where
  act := fun _ _ h => .imgBeginAct h

protected theorem Canonical.imgDataAct {q : Request} (h : Canonical s) : Canonical (imgDataAct q s).1 := by
  unfold Machine.imgDataAct
  split
  · exact h
  · exact .iteFst h (.guarded h fun h => .setImg h fun _ hx => writeBytes_canon _ _ _ _ hx)

protected theorem KeepsCanonical.opImgData : KeepsCanonical opImgData where
  act := fun _ _ h => .imgDataAct h

protected theorem Canonical.imgVerifyAct {q : Request} (h : Canonical s) : Canonical (imgVerifyAct q s).1 := by
  refine .guarded h (fun h => ?_)
  split
  · exact .update h
  · exact .iteFst (.update h) (.iteFst (.update h) (.iteFst (.update h) (.setImg h)))

protected theorem KeepsCanonical.opImgVerify : KeepsCanonical opImgVerify where
  act := fun _ _ h => .imgVerifyAct h

protected theorem Canonical.imgActivateAct {q : Request} (h : Canonical s) : Canonical (imgActivateAct q s).1 :=
  .iteFst h (.iteFst h (.guarded h (fun h => .update (.setImg (.setImg h)))))

protected theorem KeepsCanonical.opImgActivate : KeepsCanonical opImgActivate where
  act := fun _ _ h => .imgActivateAct h

protected theorem KeepsCanonical.opImgInfo : KeepsCanonical opImgInfo where
  act := fun _ _ h => h

/-! ## Domains: their loss empties the stores in them -/

theorem allAbove_filter {α : Type} {p : Nat × α → Bool} {k : Nat} {m : Sparse α} (hm : allAbove k m = true) :
    allAbove k (m.filter p) = true := by
  induction m with
  | nil => rfl
  | cons a m ih =>
    simp only [allAbove, Bool.and_eq_true] at hm
    obtain ⟨hlt, hrest⟩ := hm
    simp only [List.filter]
    split
    · simp only [allAbove, hlt, ih hrest, Bool.and_self]
    · exact ih hrest

/-- A store stays in its canonical form when some of its cells are dropped. -/
theorem canon_filter {α : Type} [DecidableEq α] {d : Nat → α} {p : Nat × α → Bool} {m : Sparse α}
    (hm : canon d m = true) : canon d (m.filter p) = true := by
  induction m with
  | nil => rfl
  | cons a m ih =>
    simp only [canon, Bool.and_eq_true] at hm
    obtain ⟨⟨hne, hlt⟩, hrest⟩ := hm
    simp only [List.filter]
    split
    · simp only [canon, hne, allAbove_filter hlt, ih hrest, Bool.and_self]
    · exact ih hrest

protected theorem Canonical.dropRegs {p : Nat → Bool} (h : Canonical s) : Canonical (dropRegs p s) := by
  obtain ⟨hregs, hrest⟩ := h
  exact ⟨canon_filter hregs, hrest⟩

protected theorem Canonical.stopWalk (h : Canonical s) : Canonical (stopWalk s) := by
  unfold Machine.stopWalk
  split
  · exact .reply (.update h)
  · exact .update h

protected theorem Canonical.portsDown (h : Canonical s) : Canonical (portsDown s) :=
  .ensureTimebase (.chooseRef (.update (.freshEcho (.stopWalk h))))

/-- A domain that goes OFF drops its registers and empties the stores in it: the snapshot memory, the mailbox
buffer, the memory of F-core and the loop tables. -/
protected theorem Canonical.loseDomain {d : Fin 18} (h : Canonical s) : Canonical (loseDomain d s) := by
  have hdrop : Canonical (dropRegs (regIn d) s) := .dropRegs h
  unfold Machine.loseDomain
  dsimp only
  generalize dropRegs (regIn d) s = u at hdrop
  have hkeep := hdrop
  obtain ⟨hregs, hbuf, hfsram, himg, hA, hB, hsnap, htable⟩ := hdrop
  split
  · exact .update hkeep
  · exact .update hkeep
  · exact .chooseRef (.update hkeep)
  · exact ⟨hregs, hbuf, hfsram, himg, hA, hB, rfl, htable⟩
  · exact .update hkeep
  · exact .update hkeep
  · exact ⟨hregs, rfl, hfsram, himg, hA, hB, hsnap, htable⟩
  · exact .update hkeep
  · exact ⟨hregs, hbuf, rfl, himg, hA, hB, hsnap, htable⟩
  · exact .update hkeep
  · exact .update hkeep
  · refine ⟨hregs, hbuf, hfsram, himg, hA, hB, hsnap, fun i => ?_⟩
    simp only [Fin.getElem_fin, Vector.getElem_replicate]
    rfl
  · exact .update hkeep
  · exact hkeep

protected theorem Canonical.loseHost (h : Canonical s) : Canonical (loseHost s) := .update h

protected theorem Canonical.stopTracking (h : Canonical s) : Canonical (stopTracking s) := .update h

protected theorem Canonical.setDom {d : Fin 18} {v : Dom} (h : Canonical s) : Canonical (setDom d v s) :=
  .update (.ite (.releaseLines h) h)

protected theorem Canonical.stopClock (h : Canonical s) : Canonical (stopClock s) :=
  .update (.setLevel (.relockFresh h))

protected theorem Canonical.strandField (h : Canonical s) : Canonical (strandField s) :=
  .foldl (fun _ h => .ite (.setDom h) h) h

protected theorem Canonical.stopDom {d : Fin 18} {v : Dom} (h : Canonical s) : Canonical (stopDom d v s) := by
  unfold Machine.stopDom
  extract_lets was _ s1 s2 s3 s4 s5 s6
  have h1 : Canonical s1 := .ite (.stopLink (.update h)) h
  have h2 : Canonical s2 := .ite (.strandField h1) h1
  have h3 : Canonical s3 := .ite (.portsDown h2) h2
  have h4 : Canonical s4 := .ite (.stopTracking h3) h3
  have h5 : Canonical s5 := .setDom h4
  have h6 : Canonical s6 := .ite (.loseDomain (.ite (.loseHost h5) h5)) h5
  exact .ite (.stopClock h6) h6

protected theorem Canonical.applyCanMode {k : Nat} (h : Canonical s) : Canonical (applyCanMode k s) :=
  .ite (.update h) (.update h)

protected theorem Canonical.applyHostItem {k : Nat} (h : Canonical s) : Canonical (applyHostItem k s) := by
  unfold Machine.applyHostItem
  extract_lets u
  have hu : Canonical u := .foldl (fun _ => .setReg) h
  split
  · exact .update hu
  · exact .chooseRef hu
  · exact .applyCanMode hu
  · exact .applyCanMode hu
  · exact .update hu
  · exact .update hu
  · exact hu

protected theorem Canonical.startDom {d : Fin 18} {v : Dom} (h : Canonical s) : Canonical (startDom d v s) := by
  unfold Machine.startDom
  extract_lets was s1 _ s2 _ s3
  have h1 : Canonical s1 := .setDom h
  have h2 : Canonical s2 := .ite (.update h1) h1
  have h3 : Canonical s3 := .ite (.update h2) h2
  exact .ite h1 (.ite (.foldl (fun _ => .applyHostItem) h3) h3)

protected theorem Canonical.skipNote {mask : Word} (h : Canonical s) : Canonical (skipNote mask s) := .ite h (.note h)

protected theorem Canonical.startWset {which : Fin 18 → Bool} (h : Canonical s) : Canonical (startWset which s) := by
  unfold Machine.startWset
  refine .skipNote (foldl_inv (fun r : State × Word => Canonical r.1) _ (fun r d hr => ?_) _ (s, 0) h)
  split
  · exact .startDom hr
  · exact hr

protected theorem Canonical.startFieldSet (h : Canonical s) : Canonical (startFieldSet s) :=
  .ite (.startWset (.update h)) h

protected theorem Canonical.loseField (h : Canonical s) : Canonical (loseField s) := by
  have hlost : Canonical (dropRegs isField ((List.finRange 18).foldl
      (fun s d => if 12 ≤ d.val then loseDomain d (setDom d .off s) else s) s)) :=
    .dropRegs (.foldl (fun _ h => .ite (.loseDomain (.setDom h)) h) h)
  obtain ⟨hregs, hbuf, hfsram, -, hrest⟩ := hlost
  exact ⟨hregs, hbuf, hfsram, rfl, hrest⟩

protected theorem Canonical.commitAll (h : Canonical s) : Canonical (commitAll s) := .commitRecords (.commitDone h)

protected theorem Canonical.restartDoms (h : Canonical s) : Canonical (restartDoms s) :=
  .foldl (fun _ h => .ite (.setDom h) (.setDom (.loseDomain h))) h

protected theorem Canonical.flushUp (h : Canonical s) : Canonical (flushUp s) := .update (.foldl (fun _ => .sendUp) h)

protected theorem Canonical.restart (h : Canonical s) : Canonical (restart s) := by
  have hlost : Canonical (dropRegs (fun a => !isField a && a != 0x090004)
      (restartDoms (loseHost (stopLink (flushUp s))))) := .dropRegs (.restartDoms (.loseHost (.stopLink (.flushUp h))))
  obtain ⟨hregs, -, hrest⟩ := hlost
  exact ⟨hregs, rfl, hrest⟩

/-! ## Boot, bundles and the field image -/

protected theorem Canonical.goLoam (h : Canonical s) : Canonical (goLoam s) := by
  unfold Machine.goLoam
  extract_lets s1 _ s2
  have h2 : Canonical s2 := .ite (.note (.update (.enterLoam h))) (.enterLoam h)
  exact .ite (.startCommit (.update h2)) h2

protected theorem Canonical.siltWith {why : BitVec 4} (h : Canonical s) : Canonical (siltWith why s) := by
  unfold Machine.siltWith
  split
  · exact .enterSilt h
  · exact .update h
  · exact h

protected theorem Canonical.checkPair (h : Canonical s) : Canonical (checkPair s) :=
  .ite (.siltWith (.note (.update h))) (.ite (.goLoam (.update h)) (.update h))

protected theorem Canonical.startConfigure {loaded : Bool} (h : Canonical s) : Canonical (startConfigure loaded s) :=
  .ite (.configureNext (.update h)) (.update h)

protected theorem Canonical.checkImage {image : Bool × BitVec 256} (h : Canonical s) :
    Canonical (checkImage image s) := by
  unfold Machine.checkImage
  split
  · exact h
  · exact .ite (.checkPair (.update h)) (.update h)

protected theorem Canonical.readDigest (h : Canonical s) : Canonical (readDigest s) := .startOp h

protected theorem Canonical.takeDigest (h : Canonical s) : Canonical (takeDigest s) := by
  unfold Machine.takeDigest
  split
  · exact h
  · exact .startConfigure (.checkImage (.update h))

protected theorem Canonical.linkUpDone {latency : Nat} (h : Canonical s) : Canonical (linkUpDone latency s) :=
  .ite h (.ite (.readDigest (.startFieldSet (.completeLink h))) (.completeLink h))

protected theorem Canonical.chunkTaken {offset : Word} {bytes : List Byte} (h : Canonical s) :
    Canonical (chunkTaken offset bytes s) := by
  obtain ⟨hregs, hbuf, hfsram, himg, hrest⟩ := h
  unfold Machine.chunkTaken
  split
  · exact ⟨hregs, hbuf, hfsram, writeBytes_canon _ _ _ _ himg, hrest⟩
  · exact ⟨hregs, hbuf, hfsram, himg, hrest⟩

protected theorem Canonical.digestReady {digest : BitVec 256} (h : Canonical s) : Canonical (digestReady digest s) :=
  .ite h (.ite (.update h) (.ite (.siltWith (.note (.update h))) (.update h)))

protected theorem Canonical.startFimg (h : Canonical s) : Canonical (startFimg s) := by
  unfold Machine.startFimg
  split
  · exact h
  · exact .ite (.checkPair (.update h)) h

protected theorem Canonical.enterSand {why : BitVec 4} {s0 : State} (h : Canonical s0) :
    Canonical (enterSand why s0) := .hostClay (.ensureTimebase (.chooseRef (.update (.startWset h))))

protected theorem Canonical.bootRecord (h : Canonical s) : Canonical (bootRecord s) := .update h

protected theorem Canonical.rejectSlot {b : Bool} (h : Canonical s) : Canonical (rejectSlot b s) :=
  .bootRecord (.setImg h)

protected theorem Canonical.rollBack {b : Bool} (h : Canonical s) : Canonical (rollBack b s) :=
  .update (.setImg (.rejectSlot h))

protected theorem Canonical.countSignatures (h : Canonical s) : Canonical (countSignatures s) := .ite (.update h) h

protected theorem Canonical.countAttempt {b : Bool} (h : Canonical s) : Canonical (countAttempt b s).2 := by
  unfold Machine.countAttempt
  split
  · exact .iteSnd (.iteSnd (.rollBack h) (.rejectSlot h)) (.bootRecord (.setImg h))
  · exact h

protected theorem Canonical.runImage {b : Bool} (h : Canonical s) : Canonical (runImage b s) := by
  unfold Machine.runImage
  split
  · exact h
  · exact .update h

protected theorem Canonical.loadCopies (h : Canonical s) : Canonical (loadCopies s).2 := by
  unfold Machine.loadCopies
  dsimp only
  split
  · exact h
  · exact .note (.update h)
  · exact .note (.update h)
  · exact .note h

protected theorem Canonical.useItems {items : List (Nat × List Byte)} {gen : Word} {ssv : Byte} {valid : Bool}
    (h : Canonical s) : Canonical (useItems items gen ssv valid s) := .update h

protected theorem Canonical.migFail {c : SetCopy} {item : Nat} (h : Canonical s) : Canonical (migFail c item s) :=
  .writeLog (.note h)

protected theorem Canonical.migrate {c : SetCopy} (h : Canonical s) : Canonical (migrate c s).2 := by
  refine .iteSnd (.useItems h) (.iteSnd ?_ (.migFail h))
  dsimp only
  split
  · exact .migFail (.writeLog (.note h))
  · exact .update (.useItems (.note (.writeLog (.note h))))

protected theorem Canonical.afterFail {b : Bool} {c : SetCopy} (h : Canonical s) : Canonical (afterFail b c s).2 :=
  .iteSnd (.restart (.rollBack (.writeLog (.note h)))) (.useItems (.ite (.writeLog (.note (.rejectSlot h))) h))

protected theorem Canonical.settingsStep {b : Bool} (h : Canonical s) : Canonical (settingsStep b s).2 := by
  have hload : Canonical (loadCopies s).2 := .loadCopies h
  unfold Machine.settingsStep
  generalize loadCopies s = l at hload ⊢
  obtain ⟨c, u⟩ := l
  extract_lets confirm
  have hconfirm {s : State} (h : Canonical s) : Canonical (confirm s) := by
    unfold confirm
    split
    · exact .bootRecord (.setImg h)
    · exact h
  cases c with
  | none => exact hconfirm (.useItems hload)
  | some c =>
    have hmigrate : Canonical (migrate c u).2 := .migrate hload
    dsimp only
    generalize migrate c u = m at hmigrate ⊢
    obtain ⟨_ | _, v⟩ := m
    · exact hconfirm hmigrate
    · exact .afterFail hmigrate

protected theorem Canonical.loadJournal (h : Canonical s) : Canonical (loadJournal s) := by
  unfold Machine.loadJournal
  split
  · exact h
  · exact .ite (.update h) (.update h)

protected theorem Canonical.applySettings (h : Canonical s) : Canonical (applySettings s) :=
  .foldl (fun _ => .runItem) (.foldl (fun _ => .applyHostItem) h)

protected theorem Canonical.bootMode (h : Canonical s) : Canonical (bootMode s) :=
  .ite (.goLoam (.ensureTimebase (.chooseRef (.update h)))) (.hostClay (.update (.ensureTimebase (.chooseRef (.update
    h)))))

protected theorem Canonical.startImage {b : Bool} (h : Canonical s) : Canonical (startImage b s) := by
  have hstep : Canonical (settingsStep b (runImage b s)).2 := .settingsStep (.runImage h)
  unfold Machine.startImage
  generalize settingsStep b (runImage b s) = r at hstep ⊢
  obtain ⟨again, u⟩ := r
  refine .ite hstep ?_
  extract_lets s1 _ s2 s3
  have h1 : Canonical s1 := .applySettings (.loadJournal hstep)
  have h3 : Canonical s3 := .bootMode (.startWset (.update h1))
  exact .ite (.readDigest (.startFieldSet h3)) h3

protected theorem Canonical.bootDoms (h : Canonical s) : Canonical (bootDoms s) :=
  .foldl (fun _ h => .ite h (.startDom h)) h

protected theorem Canonical.boot (h : Canonical s) : Canonical (boot s) := by
  unfold Machine.boot
  refine .ite h ?_
  extract_lets s1 asked _ s2 s3
  have h1 : Canonical s1 := .bootDoms h
  clear_value s1
  have h2 : Canonical s2 := .ite (.bootRecord (.update h1)) h1
  have h3 : Canonical s3 := .countSignatures h2
  refine .ite (.enterSand h2) ?_
  split
  · exact .enterSand h3
  · next b _ =>
    have hattempt : Canonical (countAttempt b s3).2 := .countAttempt h3
    refine .ite (.enterSand h3) (.ite (.enterSand h3) ?_)
    generalize countAttempt b s3 = r at hattempt ⊢
    obtain ⟨_ | b, u⟩ := r
    · exact .enterSand hattempt
    · exact .startImage hattempt

/-! ## Power and domain transactions -/

protected theorem Canonical.startOne {t : PdTxn} {r : TxnRun} {d : Fin 18} (h : Canonical r.st) :
    Canonical (startOne t r d).st := by
  unfold Machine.startOne
  dsimp only
  split
  · exact .startDom h
  · exact h

protected theorem Canonical.stopOne {t : PdTxn} {r : TxnRun} {d : Fin 18} (h : Canonical r.st) :
    Canonical (stopOne t r d).st := by
  unfold Machine.stopOne
  dsimp only
  split
  · exact h
  · split
    · split
      · exact .stopDom h
      · exact h
    · exact .stopDom h

protected theorem Canonical.restoreAll {r : TxnRun} (h : Canonical r.st) : Canonical (restoreAll r) :=
  .foldl (fun _ h => .ite (.startDom h) (.ite (.stopDom h) h)) h

protected theorem Canonical.txnResult {f : Option (Fin 18 × Byte)} {micros : Nat} (h : Canonical s) :
    Canonical (txnResult f micros s) := .update h

protected theorem Canonical.answerTxnPd {t : PdTxn} {f : Option (Fin 18 × Byte)} {micros : Nat} (h : Canonical s) :
    Canonical (answerTxnPd t f micros s) := by
  unfold Machine.answerTxnPd
  split
  · exact .reply (.ite (.schedFail h) h)
  · exact h

theorem foldl_stopOne_canonical {t : PdTxn} {ds : List (Fin 18)} {r : TxnRun} (h : Canonical r.st) :
    Canonical (ds.foldl (stopOne t) r).st :=
  foldl_inv (fun r : TxnRun => Canonical r.st) _ (fun _ _ => .stopOne) ds r h

theorem foldl_startOne_canonical {t : PdTxn} {ds : List (Fin 18)} {r : TxnRun} (h : Canonical r.st) :
    Canonical (ds.foldl (startOne t) r).st :=
  foldl_inv (fun r : TxnRun => Canonical r.st) _ (fun _ _ => .startOne) ds r h

protected theorem Canonical.finishTxn {t : PdTxn} {micros : Nat} {r : TxnRun} (h : Canonical r.st) :
    Canonical (finishTxn t micros r) := by
  unfold Machine.finishTxn
  extract_lets r' s'
  have hr : Canonical r'.st := foldl_stopOne_canonical (.txnResult h)
  have hs : Canonical s' := by
    unfold s'
    split
    · exact .txnResult (.restoreAll hr)
    · exact hr
  exact .ite hs (.note hs)

protected theorem Canonical.transact {t : PdTxn} {micros : Nat} (h : Canonical s) :
    Canonical (transact t micros s).2 := by
  unfold Machine.transact
  split
  · exact .txnResult (.answerTxnPd h)
  · extract_lets r₁ r u
    have hr : Canonical r.st := foldl_stopOne_canonical (foldl_startOne_canonical h)
    have hu : Canonical u := .answerTxnPd hr
    split
    · exact .txnResult (.answerTxnPd (.restoreAll hr))
    · exact .iteSnd (.finishTxn hu) hu

protected theorem Canonical.pdSetAct {q : Request} (h : Canonical s) : Canonical (pdSetAct q s).1 := by
  unfold Machine.pdSetAct
  split
  · exact h
  · exact .iteFst h (.iteFst h (.update h))

protected theorem KeepsCanonical.opPdSet : KeepsCanonical opPdSet where
  act := fun _ _ h => .pdSetAct h

protected theorem KeepsCanonical.opPdGet : KeepsCanonical opPdGet where
  act := fun _ _ h => h

protected theorem Canonical.startOff {d : Fin 18} (h : Canonical s) : Canonical (startOff d s) := .ite h (.startDom h)

protected theorem Canonical.wakePort {w : WakeSrc} (h : Canonical s) : Canonical (wakePort w s) := by
  unfold Machine.wakePort
  split
  · exact .update h
  · exact .update h
  · exact .update h
  · exact .update h
  · exact h

protected theorem Canonical.runWake {w : WakeSrc} {reason : Byte} (h : Canonical s) :
    Canonical (runWake w reason s) := by
  unfold Machine.runWake
  extract_lets cold s1 s2 s3 _ s4 s5
  have h1 : Canonical s1 := .ite (.relockFresh h) h
  have h2 : Canonical s2 := by
    unfold s2
    split
    · exact .startOff h1
    · exact h1
  have h4 : Canonical s4 := .update (.wakePort (.startOff (.startOff h2)))
  have h5 : Canonical s5 := .startWset h4
  exact .ite (.ite (.startFieldSet h5) (.ite (.startWset h5) h5)) h4

protected theorem Canonical.wake {w : WakeSrc} {reason : Byte} (h : Canonical s) : Canonical (wake w reason s) :=
  .ite h (.ite (.update h) (.runWake h))

protected theorem Canonical.latchedWake (h : Canonical s) : Canonical (latchedWake s) := by
  unfold Machine.latchedWake
  split
  · exact .ite (.runWake (.update h)) h
  · exact h

protected theorem Canonical.afterTxn {t : PdTxn} (h : Canonical s) : Canonical (afterTxn t s) := by
  unfold Machine.afterTxn
  split
  · exact .ite (.update h) (.update h)
  · exact .ite (.update h) (.update h)
  · exact h

protected theorem Canonical.endTransaction {t : PdTxn} (h : Canonical s) : Canonical (endTransaction t s) :=
  .ite (.latchedWake (.update (.afterTxn h))) (.update (.afterTxn h))

protected theorem Canonical.domainTransaction {micros : Nat} (h : Canonical s) :
    Canonical (domainTransaction micros s) := by
  unfold Machine.domainTransaction
  split
  · exact h
  · next t _ =>
    split
    · exact .ite (.endTransaction (.finishTxn h)) h
    · have hrun : Canonical (transact t micros s).2 := .transact h
      split <;> rename_i hres <;> rw [hres] at hrun
      · exact .endTransaction hrun
      · exact .update hrun

protected theorem Canonical.ownTxn {t : PdTxn} (h : Canonical s) : Canonical (ownTxn t s) :=
  .ite (.update h) (.domainTransaction (.draw (.update h)))

protected theorem Canonical.fieldWakePulse {sin0 : Bool} (h : Canonical s) : Canonical (fieldWakePulse sin0 s) :=
  .ite h (.wake (.ite (.enableLanes (.update h)) (.update h)))

protected theorem Canonical.writeJournal (h : Canonical s) : Canonical (writeJournal s) := .update h

protected theorem Canonical.shutdownCommit (h : Canonical s) : Canonical (shutdownCommit s) :=
  .writeJournal (.commitAll h)

protected theorem Canonical.keyInShutdown (h : Canonical s) : Canonical (keyInShutdown s) :=
  .ite h (.ownTxn (.shutdownCommit (.hostClay (.update h))))

protected theorem Canonical.keyInRise (h : Canonical s) : Canonical (keyInRise s) :=
  .ite (.update (.liftCause (.update h))) (.ite (.liftCause (.update h)) (.wake (.liftCause (.update h))))

protected theorem Canonical.shutdownForce (h : Canonical s) : Canonical (shutdownForce s) := .ite h (.ownTxn h)

protected theorem Canonical.spoilCommit (h : Canonical s) : Canonical (spoilCommit s) := by
  unfold Machine.spoilCommit
  split
  · exact h
  · exact .ite (.update (.draw h)) (.update (.draw h))

protected theorem Canonical.dropUpdate (h : Canonical s) : Canonical (dropUpdate s) := .update (.closeUpdate h)

protected theorem Canonical.cellPosture (h : Canonical s) : Canonical (cellPosture s) :=
  .foldl (fun _ h => .ite (.stopDom h) h) h

protected theorem Canonical.hostPowerLost (h : Canonical s) : Canonical (hostPowerLost s) :=
  .update (.dropRegs (.foldl (fun _ h => .ite (.stopDom h) h) (.dropUpdate (.spoilCommit h))))

protected theorem Canonical.detachAll (h : Canonical s) : Canonical (detachAll s) := .resumeH (.resumeF (.update h))

protected theorem Canonical.lsupLoss (h : Canonical s) : Canonical (lsupLoss s) := by
  have hu : Canonical (enterClay 1 (stopLink (detachAll
      { s with pwr := { s.pwr with lsup := false, txn := none, queued := [] } }))) :=
    .enterClay (.stopLink (.detachAll (.update h)))
  exact .ite h (.ite (.hostPowerLost hu)
    (.ite (.cellPosture (.dropUpdate (.shutdownCommit hu))) (.cellPosture (.dropUpdate (.spoilCommit hu)))))

protected theorem Canonical.powerUp (h : Canonical s) : Canonical (powerUp s) :=
  .update (.setDom (.restart (.update h)))

protected theorem Canonical.lsupRise (h : Canonical s) : Canonical (lsupRise s) :=
  .ite h (.ite (.powerUp (.update h)) (.ite (.latchedWake (.update h)) (.wake (.update h))))

/-! ## Security and debug access -/

protected theorem Canonical.resetNow (h : Canonical s) : Canonical (resetNow s) :=
  .restart (.commitAll (.note (.hostClay (.update h))))

protected theorem KeepsCanonical.opReset : KeepsCanonical opReset where
  act := fun _ _ h => .resetNow (.ite h (.reply h))

protected theorem Canonical.goSand {q : Request} (h : Canonical s) : Canonical (goSand q s) :=
  .restart (.update (.bootRecord (.commitAll (.hostClay (.reply h)))))

protected theorem Canonical.modeSetAct {q : Request} (h : Canonical s) : Canonical (modeSetAct q s).1 := by
  unfold Machine.modeSetAct
  split
  · exact h
  · exact h
  · exact h
  · exact .goSand h
  · exact .enterSilt h
  · exact .iteFst (.goLoam h) h

protected theorem KeepsCanonical.opModeSet : KeepsCanonical opModeSet where
  act := fun _ _ h => .modeSetAct h

protected theorem KeepsCanonical.opSecGet : KeepsCanonical opSecGet where
  act := fun _ _ h => h

protected theorem Canonical.nonceAct {q : Request} (h : Canonical s) : Canonical (nonceAct q s).1 :=
  .guarded h (fun h => .draw (.update h))

protected theorem KeepsCanonical.opDbgNonce : KeepsCanonical opDbgNonce where
  act := fun _ _ h => .nonceAct h

protected theorem Canonical.tokenRefused (h : Canonical s) : Canonical (tokenRefused s).1 := .update h

protected theorem Canonical.openSession {l : Fin 5} {m : Nat} {slot : Bool} (h : Canonical s) :
    Canonical (openSession l m slot s) := .update (.setLevel h)

protected theorem Canonical.zeroise {l : Fin 5} {slot : Byte} (h : Canonical s) : Canonical (zeroise l slot s) :=
  .note (.update h)

protected theorem Canonical.unlockAct {q : Request} (h : Canonical s) : Canonical (unlockAct q s).1 :=
  .iteFst (.setLevel h) (.iteFst h (.iteFst (.tokenRefused (.update h)) (.ite (.zeroise (.openSession (.update h)))
    (.openSession (.update h)))))

protected theorem KeepsCanonical.opDbgUnlock : KeepsCanonical opDbgUnlock where
  act := fun _ _ h => .unlockAct h

protected theorem KeepsCanonical.opDbgLock : KeepsCanonical opDbgLock where
  act := fun _ _ h => .setLevel h

protected theorem Canonical.sessionExpiry (h : Canonical s) : Canonical (sessionExpiry s) :=
  .ite (.setLevel (.advanceTo h)) h

protected theorem Canonical.retire (h : Canonical s) : Canonical (retire s) := .update h

protected theorem Canonical.advanceLife {q : Request} {target : Nat} (h : Canonical s) :
    Canonical (advanceLife q target s) := .resetNow (.reply (.update (.ite (.retire h) h)))

protected theorem Canonical.lcAdvanceAct {q : Request} (h : Canonical s) : Canonical (lcAdvanceAct q s).1 :=
  .guarded h (fun h => .iteFst (.tokenRefused (.update h)) (.iteFst (.update h) (.advanceLife (.update h))))

protected theorem KeepsCanonical.opLcAdvance : KeepsCanonical opLcAdvance where
  act := fun _ _ h => .lcAdvanceAct h

protected theorem Canonical.clearSec {v : Word} (h : Canonical s) : Canonical (clearSec v s) := .ite (.update h) h

protected theorem Canonical.countIgnored (h : Canonical s) : Canonical (countIgnored s) := .ite (.update h) h

protected theorem Canonical.attach {p : DbgPort} {l : Fin 5} (h : Canonical s) : Canonical (attach p l s) := .update h

protected theorem Canonical.dbgSel {p : DbgPort} {l : Fin 5} (h : Canonical s) : Canonical (dbgSel p l s) :=
  .ite h (.ite (.countIgnored h) (.ite (.countIgnored h) (.ite (.attach h) (.ite (.ownTxn h) (.countIgnored h)))))

protected theorem Canonical.haltF (h : Canonical s) : Canonical (haltF s) :=
  .ite (.enterClay (.toFieldFrame (.update h))) h

protected theorem Canonical.boundaryScan {i : ScanInstr} (h : Canonical s) : Canonical (boundaryScan i s) :=
  .ite (.countIgnored h) (.update (.hostClay h))

/-- A debugger writes one store: the memory of F-core. -/
protected theorem Canonical.debugAct {r : DbgReq} (h : Canonical s) : Canonical (debugAct r s).1 := by
  unfold Machine.debugAct
  split
  · exact .haltF h
  · exact .ite (.resumeF h) h
  · exact h
  · exact .iteFst (.fieldReadAct h) h
  · exact .iteFst (.fieldWrite h) h
  · exact h
  · obtain ⟨hregs, hbuf, hfsram, hrest⟩ := h
    exact .iteFst ⟨hregs, hbuf, store_canon _ _ _ _ hfsram, hrest⟩ ⟨hregs, hbuf, hfsram, hrest⟩
  · exact .ite (.update h) h

protected theorem Canonical.debugTaken {r : DbgReq} (h : Canonical s) : Canonical (debugTaken r s) :=
  .upCell (.debugAct h)

protected theorem Canonical.dbgReq {r : DbgReq} (h : Canonical s) : Canonical (dbgReq r s) :=
  .onDown .debugTaken (.ite (.sendCell h) h)

protected theorem Canonical.debugBytes {bytes : List Byte} (h : Canonical s) : Canonical (debugBytes bytes s) :=
  .update h

/-! ## CAN -/

protected theorem Canonical.onCan {p : CanPort} {f : Can → Can} (h : Canonical s) : Canonical (onCan p f s) :=
  .setCan h

protected theorem Canonical.measure {p : CanPort} {removed : List (Fin 7)} (h : Canonical s) :
    Canonical (measure p removed s) := by
  unfold Machine.measure
  extract_lets m cs u
  have hu : Canonical u := .onCan (.draw h)
  clear_value cs
  split
  · exact .setReg hu
  · exact hu

protected theorem Canonical.startAbr {p : CanPort} (h : Canonical s) : Canonical (startAbr p s) :=
  .ite (.measure (.onCan h)) h

protected theorem Canonical.abrTimeout {p : CanPort} (h : Canonical s) : Canonical (abrTimeout p s) :=
  .ite (.measure (.note h)) h

protected theorem Canonical.errorEvents {p : CanPort} {old : Can} (h : Canonical s) :
    Canonical (errorEvents p old s) := by
  unfold Machine.errorEvents
  extract_lets c ewl rose s1 passive s2 s3
  have h1 : Canonical s1 := .ite (.note h) h
  have h3 : Canonical s3 := .ite (.note (.onCan h1)) (.onCan h1)
  exact .ite (.note (.onCan h3)) (.ite (.note h3) h3)

protected theorem Canonical.canBusError {p : CanPort} {k : CanErrKind} {tx : Bool} {tec rec' : Nat}
    (h : Canonical s) : Canonical (canBusError p k tx tec rec' s) := by
  unfold Machine.canBusError
  refine .ite h ?_
  extract_lets s1 s2 s3
  have h2 : Canonical s2 := .ite (.onCan (.onCan h)) (.onCan h)
  have h3 : Canonical s3 := by
    unfold s3
    split
    · exact .measure h2
    · exact h2
  exact .ite (.errorEvents (.onCan h3)) h3

protected theorem Canonical.ringStore {p : CanPort} {tb : BitVec 64} {f : CanFrame} {matched : Bool}
    (h : Canonical s) : Canonical (ringStore p tb f matched s) :=
  .ite (.onCan (.onCan h)) (.ite (.noteEpoch (.onCan (.onCan h))) (.onCan (.onCan h)))

protected theorem Canonical.drainRing {p : CanPort} (h : Canonical s) : Canonical (drainRing p s) := .ite (.onCan h) h

protected theorem Canonical.singleFrameDrop {p : CanPort} {f : CanFrame} (h : Canonical s) :
    Canonical (singleFrameDrop p f s) := .ite (.update h) h

protected theorem Canonical.receive {p : CanPort} {f : CanFrame} (h : Canonical s) : Canonical (receive p f s) := by
  unfold Machine.receive
  extract_lets old tb hit s1 s2
  have h2 : Canonical s2 := .singleFrameDrop (.drainRing (.ringStore (.onCan h)))
  exact .ite (.draw (.errorEvents (.onCan h2))) h2

protected theorem Canonical.sleepReceive {p : CanPort} {f : CanFrame} (h : Canonical s) :
    Canonical (sleepReceive p f s) :=
  .ite (.onCan h) (.ite h (.onCan (.ite (.drainRing (.ringStore (.wake h))) (.onCan (.wake h)))))

protected theorem Canonical.canFrameReceive {p : CanPort} {f : CanFrame} (h : Canonical s) :
    Canonical (canFrameReceive p f s) := .ite h (.ite (.ite (.sleepReceive h) h) (.ite h (.receive h)))

protected theorem Canonical.nextOwn {p : CanPort} (h : Canonical s) : Canonical (nextOwn p s) := by
  refine .ite h ?_
  split
  · exact .onCan h
  · split
    · exact .onCan (.update h)
    · exact h

protected theorem Canonical.loadOwn {p : CanPort} (h : Canonical s) : Canonical (loadOwn p s) :=
  .ite h (.onCan (.nextOwn h))

protected theorem Canonical.canTxStart {p : CanPort} (h : Canonical s) : Canonical (canTxStart p s) :=
  .ite h (.ite (.onCan h) (.onCan (.loadOwn h)))

protected theorem Canonical.canFrameSent {p : CanPort} (h : Canonical s) : Canonical (canFrameSent p s) := by
  unfold Machine.canFrameSent
  extract_lets c
  split
  · exact h
  · exact .errorEvents (.onCan h)

protected theorem Canonical.enterMode {p : CanPort} {m : CanMode} {opt : Bool} (h : Canonical s) :
    Canonical (enterMode p m opt s) := .dropClaim (.ite (.startAbr (.onCan h)) (.onCan h))

protected theorem Canonical.canModeApply {p : CanPort} (h : Canonical s) : Canonical (canModeApply p s) := by
  unfold Machine.canModeApply
  extract_lets c
  split
  · exact h
  · exact .ite h (.enterMode h)

protected theorem Canonical.canRecoveryDone {p : CanPort} (h : Canonical s) : Canonical (canRecoveryDone p s) :=
  .ite h (.canModeApply (.note (.onCan h)))

protected theorem Canonical.canLeaveSleep {p : CanPort} (h : Canonical s) : Canonical (canLeaveSleep p s) := by
  refine .ite h (.onCan ?_)
  split
  · exact .drainRing (.ringStore (.enterMode h))
  · exact .enterMode h

protected theorem Canonical.sendIso {m : IsoMsg} (h : Canonical s) : Canonical (sendIso m s) := .update h

protected theorem Canonical.claimAddr {a : Byte} (h : Canonical s) : Canonical (claimAddr a s) := .sendIso (.update h)

protected theorem Canonical.cannotClaim (h : Canonical s) : Canonical (cannotClaim s) := .note (.sendIso (.update h))

protected theorem Canonical.addressClaimed {name : BitVec 64} {sa : Byte} (h : Canonical s) :
    Canonical (addressClaimed name sa s) := by
  refine .ite h (.ite (.update h) (.ite (.sendIso (.update h)) ?_))
  split
  · exact .claimAddr (.update h)
  · exact .cannotClaim (.update h)

protected theorem Canonical.moRead {p : CanPort} {n : Fin 128} (h : Canonical s) : Canonical (moRead p n s) :=
  .onCan h

protected theorem Canonical.clearCan {p : CanPort} {v : Word} (h : Canonical s) : Canonical (clearCan p v s) :=
  .onCan h

protected theorem KeepsCanonical.opCanGet : KeepsCanonical opCanGet where
  act := fun _ _ h => .guarded h (fun h => h)

protected theorem KeepsCanonical.opCanMode : KeepsCanonical opCanMode where
  act := fun _ _ h => .guarded h .onCan

protected theorem KeepsCanonical.opCanRecover : KeepsCanonical opCanRecover where
  act := fun _ _ h => .guarded h (fun h => .iteFst (.onCan h) h)

protected theorem Canonical.canSendAct {q : Request} (h : Canonical s) : Canonical (canSendAct q s).1 := by
  refine .guarded h (fun h => .iteFst h (.iteFst ?_ (.iteFst h (.onCan h))))
  split
  · exact .onCan h
  · exact h

protected theorem KeepsCanonical.opCanSend : KeepsCanonical opCanSend where
  act := fun _ _ h => .canSendAct h

protected theorem Canonical.canCancelAct {q : Request} (h : Canonical s) : Canonical (canCancelAct q s).1 := by
  refine .guarded h fun h => ?_
  extract_lets _ _
  split
  · exact h
  · exact .iteFst h (.onCan h)

protected theorem KeepsCanonical.opCanCancel : KeepsCanonical opCanCancel where
  act := fun _ _ h => .canCancelAct h

protected theorem Canonical.tpTimeout {p : CanPort} {peer : Byte} (h : Canonical s) :
    Canonical (tpTimeout p peer s) := .ite (.update h) h

/-! ## The receiver: snapshots write the snapshot memory -/

protected theorem Canonical.onTrack {c : Fin 96} {f : Track → Track} (h : Canonical s) : Canonical (onTrack c f s) :=
  .update h

protected theorem Canonical.acquire {c : Fin 96} {sat : Byte} {signal : Fin 4} (h : Canonical s) :
    Canonical (acquire c sat signal s) := .ite (.onTrack h) h

protected theorem Canonical.gnssMeasure {sigs : List MeasSig} (h : Canonical s) : Canonical (gnssMeasure sigs s) := by
  unfold Machine.gnssMeasure
  refine .ite h ?_
  extract_lets u _ w
  have hw : Canonical w := .update (.toEdge h)
  exact .ite (.update hw) hw

protected theorem Canonical.positionOut {v : GnssSol} (h : Canonical s) : Canonical (positionOut v s) := by
  unfold Machine.positionOut
  refine .ite h ?_
  extract_lets o sh s1 s2
  have h1 : Canonical s1 := .ite (.sendIso h) h
  have h2 : Canonical s2 := .ite (.sendIso h1) h1
  exact .ite (.sendIso h2) h2

protected theorem Canonical.takeOrigin {v : GnssSol} (h : Canonical s) : Canonical (takeOrigin v s) :=
  .ite (.update h) h

protected theorem Canonical.takeSolution {v0 : GnssSol} (h : Canonical s) : Canonical (takeSolution v0 s) :=
  .positionOut (.autoStep (.steer (.chooseRef (.takeOrigin (.update h)))))

protected theorem Canonical.burstStart (h : Canonical s) : Canonical (burstStart s) := .ite h (.update (.advanceTo h))

protected theorem Canonical.burstEnd {v : GnssSol} (h : Canonical s) : Canonical (burstEnd v s) :=
  .ite h (.takeSolution (.update (.advanceTo h)))

protected theorem Canonical.antennaEpoch (h : Canonical s) : Canonical (antennaEpoch s) := .ite (.draw (.update h)) h

protected theorem Canonical.clearGnss {v : Word} (h : Canonical s) : Canonical (clearGnss v s) := .update h

protected theorem Canonical.aidAct {r : AidRec} (h : Canonical s) : Canonical (aidAct r s) := by
  unfold Machine.aidAct
  split <;> exact .update h

protected theorem Canonical.gnssAidAct {q : Request} (h : Canonical s) : Canonical (gnssAidAct q s).1 := by
  unfold Machine.gnssAidAct
  split
  · exact h
  · exact .iteFst h (.foldl (fun _ => .aidAct) (.ite (.update h) h))

protected theorem KeepsCanonical.opGnssAid : KeepsCanonical opGnssAid where
  act := fun _ _ h => .gnssAidAct h

protected theorem Canonical.aidBroadcast (h : Canonical s) : Canonical (aidBroadcast s) := .ite (.issue (.draw h)) h

protected theorem Canonical.rtcmAct {m : List Byte} (h : Canonical s) : Canonical (rtcmAct m s) :=
  .ite (.update h) (.ite (.update h) (.ite (.update h) h))

protected theorem Canonical.rtcmInAct {q : Request} (h : Canonical s) : Canonical (rtcmInAct q s).1 :=
  .ite (.update (.foldl (fun _ => .rtcmAct) h)) (.foldl (fun _ => .rtcmAct) h)

protected theorem KeepsCanonical.opRtcmIn : KeepsCanonical opRtcmIn where
  act := fun _ _ h => .rtcmInAct h

protected theorem KeepsCanonical.opGnssGet : KeepsCanonical opGnssGet where
  act := fun _ _ h => h

protected theorem Canonical.nmeaAct {q : Request} (h : Canonical s) : Canonical (nmeaAct q s).1 := by
  unfold Machine.nmeaAct
  split
  · exact h
  · dsimp only
    split <;> exact h

protected theorem KeepsCanonical.opNmeaGet : KeepsCanonical opNmeaGet where
  act := fun _ _ h => .nmeaAct h

protected theorem KeepsCanonical.opBaselineGet : KeepsCanonical opBaselineGet where
  act := fun _ _ h => h

protected theorem Canonical.measSend (h : Canonical s) : Canonical (measSend s) :=
  .ite h (.foldl (fun _ => .queueUp) (.draw h))

protected theorem Canonical.removeSlips {f : Frame48} {a c : MeasRec} (h : Canonical s) :
    Canonical (removeSlips f a c s) := .foldl (fun _ h => .draw (.update h)) (.update h)

protected theorem Canonical.baselineCompute {recs : List BaseRec} (h : Canonical s) :
    Canonical (baselineCompute recs s) := by
  unfold Machine.baselineCompute
  refine .ite h ?_
  split
  · exact h
  · extract_lets all s1 ms slip s2 good _ s3 ps q
    have hslip {u : State} (a : MeasRec) (hu : Canonical u) : Canonical (slip u a) := by
      unfold slip
      split
      · exact .removeSlips hu
      · exact hu
    have h2 : Canonical s2 := .foldl hslip (.ite (.noteEpoch h) h)
    have h3 : Canonical s3 := .update h2
    exact .ite h3 (.serve .opGnssAid (.draw h3))

protected theorem Canonical.snapCaptureAct {q : Request} (h : Canonical s) : Canonical (snapCaptureAct q s).1 :=
  .guarded h (fun h => .update h)

protected theorem KeepsCanonical.opSnapCapture : KeepsCanonical opSnapCapture where
  act := fun _ _ h => .snapCaptureAct h

protected theorem Canonical.snapCaptureEnd {samples : List Byte} {gain1 gain5 : BitVec 16} (h : Canonical s) :
    Canonical (snapCaptureEnd samples gain1 gain5 s) := by
  unfold Machine.snapCaptureEnd
  split
  · exact h
  · extract_lets n u
    have hu : Canonical u := .advanceTo h
    clear_value u
    obtain ⟨hregs, hbuf, hfsram, himg, hA, hB, hsnap, htable⟩ := hu
    refine ⟨hregs, hbuf, hfsram, himg, hA, hB, ?_, htable⟩
    dsimp only
    exact writeBytes_canon _ _ _ _ hsnap

protected theorem Canonical.snapXferAct {q : Request} (h : Canonical s) : Canonical (snapXferAct q s).1 := by
  refine .guarded h fun h => .iteFst ?_ h
  obtain ⟨hregs, hbuf, hfsram, himg, hA, hB, hsnap, htable⟩ := h
  exact ⟨hregs, hbuf, hfsram, himg, hA, hB, writeBytes_canon _ _ _ _ hsnap, htable⟩

protected theorem KeepsCanonical.opSnapXfer : KeepsCanonical opSnapXfer where
  act := fun _ _ h => .snapXferAct h

protected theorem Canonical.snapSolveAct {q : Request} (h : Canonical s) : Canonical (snapSolveAct q s).1 :=
  .guarded h (fun h => .update h)

protected theorem KeepsCanonical.opSnapSolve : KeepsCanonical opSnapSolve where
  act := fun _ _ h => .snapSolveAct h

protected theorem Canonical.formMark (h : Canonical s) : Canonical (formMark s) := .draw (.update h)

protected theorem Canonical.timeMarkSend (h : Canonical s) : Canonical (timeMarkSend s) := by
  unfold Machine.timeMarkSend
  split
  · exact h
  · exact .ite (.onCan (.update (.advanceTo h))) (.update (.advanceTo h))

/-! ## Node-wide commands and register access -/

protected theorem Canonical.clearPkt {v : Word} (h : Canonical s) : Canonical (clearPkt v s) := .update h

protected theorem KeepsCanonical.opIdGet : KeepsCanonical opIdGet where
  act := fun _ _ h => h

protected theorem KeepsCanonical.opStatusGet : KeepsCanonical opStatusGet where
  act := fun _ _ h => h

protected theorem Canonical.toActing {q : Request} (h : Canonical s) : Canonical (toActing q s) := .ite h (.toFrame h)

protected theorem Canonical.clayEnterAct {q : Request} (h : Canonical s) : Canonical (clayEnterAct q s).1 :=
  .hostClay (.toActing h)

protected theorem KeepsCanonical.opClayEnter : KeepsCanonical opClayEnter where
  act := fun _ _ h => .clayEnterAct h

protected theorem Canonical.clayReleaseAct {q : Request} (h : Canonical s) : Canonical (clayReleaseAct q s).1 := by
  unfold Machine.clayReleaseAct
  extract_lets u
  have hu : Canonical u := .toActing h
  split
  · exact hu
  · exact .ite (.leaveClay hu) hu

protected theorem KeepsCanonical.opClayRelease : KeepsCanonical opClayRelease where
  act := fun _ _ h => .clayReleaseAct h
  after := fun _ _ h => .repeatHolds (.bridgeAfterRelease h)

protected theorem Canonical.plannerRelease (h : Canonical s) : Canonical (plannerRelease s) :=
  .serve .opClayRelease (.draw (.autoStep h))

protected theorem Canonical.cancelAct {q : Request} (h : Canonical s) : Canonical (cancelAct q s).1 := by
  unfold Machine.cancelAct
  split
  · exact h
  · exact .iteFst h (.iteFst h (.ite (.abortSweep (.update h)) (.update h)))

protected theorem KeepsCanonical.opCancel : KeepsCanonical opCancel where
  act := fun _ _ h => .cancelAct h

protected theorem Canonical.enumerateAct {q : Request} (h : Canonical s) : Canonical (enumerateAct q s).1 :=
  .guarded h .walkStart

protected theorem KeepsCanonical.opEnumerate : KeepsCanonical opEnumerate where
  act := fun _ _ h => .enumerateAct h

protected theorem KeepsCanonical.opChainGet : KeepsCanonical opChainGet where
  act := fun _ _ h => h

protected theorem KeepsCanonical.opMarlSend : KeepsCanonical opMarlSend where
  act := fun _ _ h => .guarded h .sendPattern

protected theorem KeepsCanonical.opTbRead : KeepsCanonical opTbRead where
  act := fun _ _ h => h

protected theorem Canonical.tbRealignAct {q : Request} (h : Canonical s) : Canonical (tbRealignAct q s).1 :=
  .iteFst h (.iteFst h (.announceStep h))

protected theorem KeepsCanonical.opTbRealign : KeepsCanonical opTbRealign where
  act := fun q _ h => .tbRealignAct (q := q) h

protected theorem Canonical.clearSvc {v : Word} (h : Canonical s) : Canonical (clearSvc v s) := by
  refine .update h (hbuf := ?_)
  split <;> split <;> rfl

protected theorem Canonical.hostPut {a : Nat} {v : Word} (h : Canonical s) : Canonical (hostPut a v s) := by
  unfold Machine.hostPut
  split
  · exact .onCan h
  · split
    · exact .clearPkt h
    · exact .putTbCtrl h
    · exact .clearBarr h
    · exact .ite (.update (.setReg h)) (.setReg h)
    · exact .clearChain h
    · exact .clearCan h
    · exact .clearCan h
    · exact .dropClaim (.setReg h)
    · exact .clearSvc h
    · exact .ite (.stopTracking (.setReg h)) (.setReg h)
    · exact .clearGnss h
    · exact .clearSec h
    · exact .clearEvt h
    · exact .setReg h

protected theorem Canonical.hostWrite {ps : List RegPut} (h : Canonical s) : Canonical (hostWrite ps s) :=
  .foldl (fun _ => .hostPut) h

protected theorem Canonical.hostReadAct {a : Nat} (h : Canonical s) : Canonical (hostReadAct a s).2 := by
  unfold Machine.hostReadAct
  extract_lets u w
  have hu : Canonical u := .ite (.readNow h) h
  change Canonical (match objectAt a with
    | some (p, n) => if a % 0x80 = 0x0C then moRead p n u else u
    | none => u)
  split
  · exact .ite (.moRead hu) hu
  · exact hu

protected theorem Canonical.hostReads {as : List Nat} (h : Canonical s) : Canonical (hostReads as s).2 := by
  induction as generalizing s with
  | nil => exact h
  | cons a as ih => exact ih (.hostReadAct h)

protected theorem Canonical.barrierArena {q : Request} {n : Nat} {r : State × Option Ans} (h : Canonical s)
    (hr : barrierArena q n s = some r) : Canonical r.1 :=
  barrierArena_keep Canonical q n s r (fun _ _ => rfl) hr ▸ h

protected theorem Canonical.regReadAct {q : Request} (h : Canonical s) : Canonical (regReadAct q s).1 := by
  unfold Machine.regReadAct
  refine .iteFst (.iteFst h (.iteFst h ?_)) (.guarded h .hostReads)
  split
  · next r hr => exact .barrierArena h hr
  · exact .startRead h

protected theorem KeepsCanonical.opRegRead : KeepsCanonical opRegRead where
  act := fun _ _ h => .regReadAct h

protected theorem Canonical.regWriteAct {q : Request} (h : Canonical s) : Canonical (regWriteAct q s).1 := by
  unfold Machine.regWriteAct
  refine .iteFst (.iteFst h (.iteFst h ?_)) (.guarded h .hostWrite)
  split
  · next r hr => exact .barrierArena h hr
  · exact .startWrite h

protected theorem KeepsCanonical.opRegWrite : KeepsCanonical opRegWrite where
  act := fun _ _ h => .regWriteAct h
  hand := fun _ _ h => .ite (.handWrite h) h

protected theorem Canonical.registerWrite {a : BitVec 24} {v m : Word} (h : Canonical s) :
    Canonical (registerWrite a v m s) :=
  .ite h (.ite (.ite (.fieldWrite (.toFieldFrame h)) h) (.ite h (.ite h (.hostWrite h))))

/-! ## Transports and scheduled requests -/

/-- The opcodes of Tables 06-4 to 06-17, in the order in which `opOf` lists them, and the undefined ones. -/
protected theorem KeepsCanonical.opFor {b : Byte} : KeepsCanonical (opFor b) := by
  unfold Machine.opFor opOf
  split
  exacts [.opIdGet, .opModeSet, .opClayEnter, .opClayRelease, .opReset, .opStatusGet, .opCancel, .opEnumerate,
    .opChainGet, .opPinSet, .opMarlSend, .opTbRead, .opTbRealign, .opOchSet, .opOchTiming, .opOchEdges, .opOchClear,
    .opOchStatus, .opOchFlush, .opSwitchLine, .opSwitchClear, .opGeometrySet, .opLookaheadSet, .opLatencyGet,
    .opLatencySeed, .opMotionGet, .opSinRead, .opFanRestart, .opLoopCoef, .opLoopSwap, .opLoopCtrl, .opLoopTest,
    .opLoopRead, .opGnssGet, .opGnssAid, .opRtcmIn, .opSnapCapture, .opSnapXfer, .opSnapSolve, .opNmeaGet,
    .opBaselineGet, .opCanGet, .opCanMode, .opCanRecover, .opCanSend, .opCanCancel, .opEventRead, .opEventClose,
    .opSweepStart, .opSweepResult, .opSweepAbort, .opAsappliedRead, .opSetRead, .opSetWrite, .opSetCommit,
    .opSetDiscard, .opImgBegin, .opImgData, .opImgVerify, .opImgActivate, .opImgInfo, .opSecGet, .opDbgNonce,
    .opDbgUnlock, .opDbgLock, .opLcAdvance, .opPdSet, .opPdGet, .opRegRead, .opRegWrite, { act := fun _ _ h => h }]

protected theorem Canonical.onCount {via : Via} {f : PktCnt → PktCnt} (h : Canonical s) :
    Canonical (onCount via f s) := by
  unfold Machine.onCount
  split
  · exact .update h
  · exact .update h
  · exact .update h
  · exact .update h
  · exact .update h
  · exact h

protected theorem Canonical.countCrc {via : Via} (h : Canonical s) : Canonical (countCrc via s) := .onCount h

protected theorem Canonical.countDrop {via : Via} (h : Canonical s) : Canonical (countDrop via s) := .onCount h

protected theorem Canonical.joinPart {via : Via} {multi : Bool} {p : Packet} (h : Canonical s) :
    Canonical (joinPart via multi p s).2 := by
  unfold Machine.joinPart
  split
  · exact .iteSnd (.update h) h
  · exact .iteSnd (.update h) (.iteSnd (.update h) (.update h))

protected theorem Canonical.assemble {q : Request} (h : Canonical s) : Canonical (assemble q s) := by
  have hjoin : Canonical (joinPart q.via ((opInfo (opFor q.pkt.opcode).code).any (·.m)) q.pkt s).2 := .joinPart h
  unfold Machine.assemble
  dsimp only
  split <;> rename_i hres <;> rw [hres] at hjoin
  · exact .process .opFor hjoin
  · exact .process .opFor hjoin
  · exact .ite (.mailNoReply (.storeReply hjoin)) (.storeReply hjoin)
  · exact .reply (.countDrop hjoin)

protected theorem Canonical.takeBytes {via : Via} {bs : List Byte} (h : Canonical s) :
    Canonical (takeBytes via bs s) :=
  .ite (.ite (.mailNoReply (.countCrc h)) (.countCrc h)) (.ite (.reply h) (.takeIn .assemble h))

protected theorem Canonical.multipartTimeout {via : Via} {src : BitVec 16} (h : Canonical s) :
    Canonical (multipartTimeout via src s) := by
  unfold Machine.multipartTimeout
  split
  · exact h
  · exact .reply (.countDrop (.update h))

protected theorem Canonical.enterRing {f : ChainFrame} (h : Canonical s) : Canonical (enterRing f s) :=
  .ite h (.ite (.countDrop h) (.update h))

protected theorem Canonical.serveEntry (h : Canonical s) : Canonical (serveEntry s) := by
  unfold Machine.serveEntry
  split
  · exact h
  · exact .ite h (.takeBytes (.update h))

protected theorem Canonical.drainCmds (h : Canonical s) : Canonical (drainCmds s) := .foldl (fun _ => .serveEntry) h

protected theorem Canonical.cmdFrame {f : ChainFrame} (h : Canonical s) : Canonical (cmdFrame f s) :=
  .ite h (.ite (.arrive h) (.ite (.drainCmds (.enterRing (.ite (.update (.arrive h)) (.arrive h)))) (.ite (.update
    (.arrive h)) (.arrive h))))

protected theorem Canonical.takeMeas {via : Via} {p : Packet} (h : Canonical s) : Canonical (takeMeas via p s) := by
  have hjoin : Canonical (joinPart via true p s).2 := .joinPart h
  unfold Machine.takeMeas
  extract_lets hold
  have hhold (bs : List Byte) {s : State} (h : Canonical s) : Canonical (hold bs s) := by
    unfold hold
    split
    · exact .ite (.foldl (fun _ => .aidAct) h) h
    · exact h
  clear_value hold
  generalize joinPart via true p s = r at hjoin ⊢
  obtain ⟨j, u⟩ := r
  cases j
  case single => exact hhold _ hjoin
  case whole => exact hhold _ hjoin
  all_goals exact hjoin

protected theorem Canonical.evtFrame {f : ChainFrame} (h : Canonical s) : Canonical (evtFrame f s) := by
  refine .ite h (.ite (.arrive h) ?_)
  split
  · exact .countCrc (.arrive h)
  · exact .ite (.takeMeas (.arrive h)) (.ite (.ite (.arrive h) (.chainBreak (.arrive h))) (.ite (.foldl (fun _ =>
      .markCell) (.arrive h)) (.arrive h)))

protected theorem Canonical.canTpMessage {port : CanPort} {sa da : Byte} {kind : TpKind} {bytes : List Byte}
    (h : Canonical s) : Canonical (canTpMessage port sa da kind bytes s) := by
  refine .ite h ?_
  split
  · exact .countDrop h
  · exact .ite (.countDrop h) h
  · exact .ite h (.foldl (fun _ h => .ite (.takeBytes h) h) h)

protected theorem Canonical.dropFd {port : CanPort} {node : Byte} (h : Canonical s) :
    Canonical (dropFd port node s) := .ite (.countDrop (.update h)) (.update h)

protected theorem Canonical.brokenFd {port : CanPort} {node : Byte} {last : Bool} (h : Canonical s) :
    Canonical (brokenFd port node last s) := .ite (.dropFd h) (.update (.dropFd h))

protected theorem Canonical.joinFd {a : FdAsm} {last : Bool} {seg : List Byte} (h : Canonical s) :
    Canonical (joinFd a last seg s) := .ite (.update h) (.ite (.countDrop (.update h)) (.takeBytes (.update h)))

protected theorem Canonical.canFdSegment {port : CanPort} {id : BitVec 29} {data : List Byte} (h : Canonical s) :
    Canonical (canFdSegment port id data s) := by
  refine .ite h (.ite (.ite (.brokenFd (.countDrop (.dropFd h))) (.joinFd (.dropFd h))) ?_)
  split
  · exact .brokenFd (.countDrop h)
  · exact .ite (.ite (.dropFd h) h) (.ite (.joinFd h) (.brokenFd h))

protected theorem Canonical.handOver {c : SchedCmd} (h : Canonical s) : Canonical (handOver c s) :=
  (KeepsCanonical.opFor).hand _ _ (.update (.advanceTo h))

protected theorem Canonical.warnFail {q : Request} {a : Ans} (h : Canonical s) : Canonical (warnFail q a s) :=
  .ite (.note h) (.schedFail h)

protected theorem Canonical.finishSched {q : Request} {warn : Bool} {a : Option Ans} (h : Canonical s) :
    Canonical (finishSched q warn a s) := by
  unfold Machine.finishSched
  split
  · exact h
  · exact .ite (.reply (.ite (.warnFail h) h)) (.ite (.warnFail h) h)

protected theorem Canonical.actStored {c : SchedCmd} (h : Canonical s) : Canonical (actStored c s) :=
  .foldl (fun _ h => .actSchedWrite (.update h)) h

protected theorem Canonical.schedAct (h : Canonical s) : Canonical (schedAct s) := by
  unfold Machine.schedAct
  split
  · exact h
  · refine .ite h ?_
    extract_lets s1 s2 c1 s3 c2 _ s4 r t o
    have h1 : Canonical s1 := .ite h (.handOver h)
    have h3 : Canonical s3 := .ite (.actStored (.advanceTo h1)) (.advanceTo h1)
    have h4 : Canonical s4 := .update h3
    have hact : Canonical (perform o c2.q s4).1 := .perform .opFor h4
    refine .ite (.finishSched (.opAnswer h4)) ?_
    generalize perform o c2.q s4 = p at hact ⊢
    obtain ⟨s5, a⟩ := p
    exact .ite (.finishSched hact) (KeepsCanonical.opFor.after _ _ (.finishSched hact))

protected theorem Canonical.serveBarrier {o : Op} {q : Request} (ho : KeepsCanonical o) (h : Canonical s) :
    Canonical (serveBarrier o q s) := by
  have hact : Canonical (perform o q s).1 := .perform ho h
  unfold Machine.serveBarrier
  generalize perform o q s = r at hact ⊢
  obtain ⟨u, _ | a⟩ := r
  · exact hact
  · exact .ite (.reply (.update h)) (.reply hact)

protected theorem Canonical.serveBudget {q : Request} (h : Canonical s) : Canonical (serveBudget q s) := .reply h

protected theorem Canonical.serveChain {q : Request} (h : Canonical s) : Canonical (serveChain q s) :=
  .ite (.forwardIn h) (.ite (.reply h) (.reply h))

protected theorem Canonical.deferredServe (h : Canonical s) : Canonical (deferredServe s) := by
  unfold Machine.deferredServe
  split
  · exact h
  · refine .ite h ?_
    split
    · exact .ite (.actOn .opFor (.update (.advanceTo h))) (.serveChain (.update (.advanceTo h)))
    · exact .serveBarrier .opFor (.update (.advanceTo h))
    · exact .serveBudget (.update (.advanceTo h))

/-! ## The service port and its mailbox: it writes the buffers -/

protected theorem Canonical.takeGo (h : Canonical s) : Canonical (takeGo s) :=
  .ite h (.ite (.mailNoReply (.countCrc (.update h))) (.takeBytes (.update h)))

protected theorem Canonical.catchUp (h : Canonical s) : Canonical (catchUp s) :=
  .foldl (fun _ h => .ite (.takeGo h) (.serveEntry h)) h

protected theorem Canonical.mailGo (h : Canonical s) : Canonical (mailGo s) :=
  .catchUp (.ite (.update h) (.wake (.update h)))

protected theorem Canonical.mailNext (h : Canonical s) : Canonical (mailNext s) := by
  unfold Machine.mailNext
  split
  · exact .update h
  · exact .loadReply (.update h)

protected theorem Canonical.mbCtrl {b : Byte} (h : Canonical s) : Canonical (mbCtrl b s) :=
  .ite (.update h) (.ite (.mailGo (.update h)) (.ite (.mailNext (.update h)) (.update h)))

protected theorem Canonical.mbWrite {a : Nat} {b : Byte} (h : Canonical s) : Canonical (mbWrite a b s) := by
  obtain ⟨hregs, hbuf, hrest⟩ := h
  unfold Machine.mbWrite
  split_ifs
  · exact ⟨hregs, hbuf, hrest⟩
  · exact ⟨hregs, hbuf, hrest⟩
  · exact ⟨hregs, store_canon _ _ _ _ hbuf, hrest⟩

protected theorem Canonical.putAt {a b : Byte} (h : Canonical s) : Canonical (putAt a b s) :=
  .ite (.update h) (.ite h (.ite (.mbCtrl h) (.mbWrite h)))

protected theorem Canonical.attentionWithdraw (h : Canonical s) : Canonical (attentionWithdraw s) :=
  .ite (.update h) h

protected theorem Canonical.busStop (h : Canonical s) : Canonical (busStop s) := .update h

protected theorem Canonical.setPointer {a : Byte} (h : Canonical s) : Canonical (setPointer a s) := .update h

protected theorem Canonical.writeData {bs : List Byte} (h : Canonical s) : Canonical (writeData bs s) := by
  unfold Machine.writeData
  split
  · exact h
  · exact .foldl (fun _ h => .setPointer (.putAt h)) (.setPointer h)

protected theorem Canonical.i2cWrite {a : BitVec 7} {bs : List Byte} (h : Canonical s) :
    Canonical (i2cWrite a bs s) :=
  .ite h (.ite (.busStop (.attentionWithdraw h)) (.busStop (.writeData (.update (.attentionWithdraw h)))))

protected theorem Canonical.mbStatRead (h : Canonical s) : Canonical (mbStatRead s) := .update h

protected theorem Canonical.i2cRead {a : BitVec 7} {n : Nat} (h : Canonical s) : Canonical (i2cRead a n s) :=
  .ite h (.ite (.busStop (.attentionWithdraw h)) (.busStop (.update (.attentionWithdraw h))))

protected theorem Canonical.mbCommand {b : Byte} (h : Canonical s) : Canonical (mbCommand b s) := .ite (.mbCtrl h) h

/-! ## The epoch edge -/

protected theorem Canonical.epochField {samples : List (Fin 32 × BitVec 12)} (h : Canonical s) :
    Canonical (epochField samples s) := .ite h (.epochOutputs (.foldl (fun _ => .takeSample) h))

protected theorem Canonical.epochFlash (h : Canonical s) : Canonical (epochFlash s) := .ite (.commitRecords h) h

protected theorem Canonical.epochHost {peers : List PeerLook} (h : Canonical s) : Canonical (epochHost peers s) :=
  .ite (.aidBroadcast (.tcReport h)) h

protected theorem Canonical.epochMark (h : Canonical s) : Canonical (epochMark s) := .ite (.formMark h) h

protected theorem Canonical.epochEdge {peers : List PeerLook} {samples : List (Fin 32 × BitVec 12)}
    (h : Canonical s) : Canonical (epochEdge peers samples s) :=
  .ite h (.update (.antennaEpoch (.epochHost (.epochFlash (.closeEpoch (.epochField (.epochMark (.epochBarrier
    (.epochClock (.toEdge h))))))))))

/-! ## The step -/

/-- The next state, where there is one, keeps its stores canonical. -/
def NextCanonical : Out → Prop
  | .next t => Canonical t
  | _ => True

theorem exec_canonical (c : Instr) (h : Canonical s) : NextCanonical (exec c s) := by
  cases c with
  | cellDetected _ _ => exact Canonical.ite (.update h) h
  | chargerPhaseChange _ _ _ _ => exact Canonical.ite h (.update h)
  | epochEdge _ _ => exact Canonical.epochEdge h
  | coldRelock _ => exact Canonical.coldRelock h
  | dpllLockDetect _ => exact Canonical.dpllLock h
  | clockUngate _ => exact Canonical.catchUp (.clockUngate h)
  | tbCtrlWrite _ _ => exact Canonical.ite (.putTbCtrl h) h
  | timeFrame _ _ => exact Canonical.timeFrame h
  | timeEchoSend _ => exact Canonical.ite (.sendUp (.update (.advanceTo h))) h
  | timeEchoRequest _ _ => exact Canonical.ite (.outDown h) h
  | timeEchoAnswer _ _ _ =>
    change Canonical _
    split
    · exact h
    · exact Canonical.ite h (.update h)
  | barrierLinkUp _ => exact Canonical.linkUpDone h
  | heartbeatSend _ => exact Canonical.heartbeatSend h
  | heartbeat _ => exact Canonical.heartbeat h
  | timeSync _ => exact Canonical.timeSync h
  | cellReject _ _ _ => exact Canonical.cellReject h
  | cfgWrite _ => exact Canonical.cfgWrite h
  | cfgRead _ _ _ => exact Canonical.cfgRead h
  | cfgData _ _ _ _ => exact Canonical.takeDigest (.cfgData h)
  | cfgResend _ => exact Canonical.takeDigest (.cfgResend h)
  | safeReq _ => exact Canonical.safeReq h
  | barrCntclr _ => exact Canonical.ite (.clearBarr h) h
  | symbolLock _ => exact Canonical.symbolLock h
  | symbolLockLoss _ => exact Canonical.dropClaim (.symbolLockLoss h)
  | idleSend _ => exact Canonical.ite (.idleSend (.advanceTo h)) h
  | idleFrame _ _ => exact Canonical.dropClaim (.idleFrame h)
  | partnerTimeout _ => exact Canonical.dropClaim (.partnerTimeout h)
  | frameForward _ _ => exact Canonical.frameForward h
  | cmdFrame _ => exact Canonical.cmdFrame h
  | rplFrame _ => exact Canonical.rplFrame h
  | evtFrame _ => exact Canonical.evtFrame h
  | enumWalkStart _ => exact Canonical.autoWalk h
  | enumStart _ => exact Canonical.enumStart h
  | enumClaim _ => exact Canonical.enumClaim h
  | enumVerdict _ => exact Canonical.enumVerdict h
  | enumEnd _ => exact Canonical.enumEnd h
  | enumDone _ => exact Canonical.enumDone h
  | marlFrame info =>
    have hcount : Canonical (marlCount info s).1 := .marlCount h
    exact Canonical.ite (.catchUp (.wake hcount)) hcount
  | lineEnergyWake _ => exact Canonical.catchUp (.wake h)
  | chCntclr _ => exact Canonical.ite (.clearChain h) h
  | canTpMessage _ _ _ _ _ => exact Canonical.canTpMessage h
  | canFdSegment _ _ _ => exact Canonical.canFdSegment h
  | fdSegmentTimeout _ _ => exact Canonical.ite (.dropFd h) h
  | multipartTimeout _ _ => exact Canonical.ite (.multipartTimeout h) h
  | pktCntclr _ => exact Canonical.clearPkt h
  | idGet _ => exact Canonical.serve .opIdGet h
  | modeSet _ => exact Canonical.serve .opModeSet h
  | clayEnter _ => exact Canonical.serve .opClayEnter h
  | clayRelease _ => exact Canonical.serve .opClayRelease h
  | reset _ => exact Canonical.serve .opReset h
  | statusGet _ => exact Canonical.serve .opStatusGet h
  | cancel _ => exact Canonical.serve .opCancel h
  | enumerate _ => exact Canonical.serve .opEnumerate h
  | chainGet _ => exact Canonical.serve .opChainGet h
  | pinSet _ => exact Canonical.serve .opPinSet h
  | marlSend _ => exact Canonical.serve .opMarlSend h
  | tbRead _ => exact Canonical.serve .opTbRead h
  | tbRealign _ => exact Canonical.serve .opTbRealign h
  | ochSet _ => exact Canonical.serve .opOchSet h
  | ochTiming _ => exact Canonical.serve .opOchTiming h
  | ochEdges _ => exact Canonical.serve .opOchEdges h
  | ochClear _ => exact Canonical.serve .opOchClear h
  | ochStatus _ => exact Canonical.serve .opOchStatus h
  | ochFlush _ => exact Canonical.serve .opOchFlush h
  | switchLine _ => exact Canonical.serve .opSwitchLine h
  | switchClear _ => exact Canonical.serve .opSwitchClear h
  | geometrySet _ => exact Canonical.serve .opGeometrySet h
  | lookaheadSet _ => exact Canonical.serve .opLookaheadSet h
  | latencyGet _ => exact Canonical.serve .opLatencyGet h
  | latencySeed _ => exact Canonical.serve .opLatencySeed h
  | motionGet _ => exact Canonical.serve .opMotionGet h
  | sinRead _ => exact Canonical.serve .opSinRead h
  | fanRestart _ => exact Canonical.serve .opFanRestart h
  | loopCoef _ => exact Canonical.serve .opLoopCoef h
  | loopSwap _ => exact Canonical.serve .opLoopSwap h
  | loopCtrl _ => exact Canonical.serve .opLoopCtrl h
  | loopStop _ => exact Canonical.ite (.loopStop h) h
  | loopRun _ => exact Canonical.ite (.loopRun h) h
  | loopReset _ => exact Canonical.ite (.loopReset h) h
  | loopTest _ => exact Canonical.serve .opLoopTest h
  | loopRead _ => exact Canonical.serve .opLoopRead h
  | loopClr _ _ => exact Canonical.ite (.loopClr h) h
  | gnssGet _ => exact Canonical.serve .opGnssGet h
  | gnssAid _ => exact Canonical.serve .opGnssAid h
  | rtcmIn _ => exact Canonical.serve .opRtcmIn h
  | snapCapture _ => exact Canonical.serve .opSnapCapture h
  | snapCaptureEnd _ _ _ => exact Canonical.snapCaptureEnd h
  | snapXfer _ => exact Canonical.serve .opSnapXfer h
  | snapSolve _ => exact Canonical.serve .opSnapSolve h
  | snapSolveDone _ =>
    change Canonical _
    split
    · exact Canonical.reply (.update h)
    · exact h
  | nmeaGet _ => exact Canonical.serve .opNmeaGet h
  | baselineGet _ => exact Canonical.serve .opBaselineGet h
  | canGet _ => exact Canonical.serve .opCanGet h
  | canMode _ => exact Canonical.serve .opCanMode h
  | canRecover _ => exact Canonical.serve .opCanRecover h
  | canSend _ => exact Canonical.serve .opCanSend h
  | canCancel _ => exact Canonical.serve .opCanCancel h
  | eventRead _ => exact Canonical.serve .opEventRead h
  | eventClose _ => exact Canonical.serve .opEventClose h
  | sweepStart _ => exact Canonical.serve .opSweepStart h
  | sweepResult _ => exact Canonical.serve .opSweepResult h
  | sweepAbort _ => exact Canonical.serve .opSweepAbort h
  | asappliedRead _ => exact Canonical.serve .opAsappliedRead h
  | setRead _ => exact Canonical.serve .opSetRead h
  | setWrite _ => exact Canonical.serve .opSetWrite h
  | setCommit _ => exact Canonical.serve .opSetCommit h
  | setDiscard _ => exact Canonical.serve .opSetDiscard h
  | imgBegin _ => exact Canonical.serve .opImgBegin h
  | imgData _ => exact Canonical.serve .opImgData h
  | imgVerify _ => exact Canonical.serve .opImgVerify h
  | imgActivate _ => exact Canonical.serve .opImgActivate h
  | imgInfo _ => exact Canonical.serve .opImgInfo h
  | secGet _ => exact Canonical.serve .opSecGet h
  | dbgNonce _ => exact Canonical.serve .opDbgNonce h
  | dbgUnlock _ => exact Canonical.serve .opDbgUnlock h
  | dbgLock _ => exact Canonical.serve .opDbgLock h
  | lcAdvance _ => exact Canonical.serve .opLcAdvance h
  | pdSet _ => exact Canonical.serve .opPdSet h
  | domainTransaction _ => exact Canonical.catchUp (.domainTransaction h)
  | pdGet _ => exact Canonical.serve .opPdGet h
  | regRead _ => exact Canonical.serve .opRegRead h
  | regWrite _ => exact Canonical.serve .opRegWrite h
  | registerWrite _ _ _ => exact Canonical.registerWrite h
  | motionUpdate _ => exact Canonical.motionUpdate h
  | latencyMeasure _ _ _ _ _ => exact Canonical.latencyMeasure h
  | tcSetpoint _ _ _ => exact Canonical.tcSetpoint h
  | schedEdge _ _ => exact Canonical.schedEdge h
  | edgeAck _ => exact Canonical.edgeAck h
  | schedEdgeResend _ => exact Canonical.schedEdgeResend h
  | edgeExecute _ => exact Canonical.edgeExecute h
  | generatorEdge _ => exact Canonical.generatorEdge h
  | periodBoundary _ => exact Canonical.periodBoundary h
  | calMeasure _ _ => exact Canonical.calMeasure h
  | overcurrentTrip _ _ => exact Canonical.ite (.tripOff h) h
  | shortCircuitTrip _ => exact Canonical.shortTrip h
  | tripInput _ _ => exact Canonical.tripInput h
  | overtempTrip _ => exact Canonical.overtempTrip h
  | blankingEnd _ _ => exact Canonical.blankingEnd h
  | inrushEnd _ => exact Canonical.setCh h
  | tripRetry _ => exact Canonical.tripRetry h
  | shortOffEnd _ => exact Canonical.resumed (.setCh h)
  | overtempRelease _ => exact Canonical.resumed (.setCh h)
  | countingPeriodEnd _ => exact Canonical.countingPeriodEnd h
  | peakPhaseEnd _ _ => exact Canonical.peakEnd h
  | holdChopOff _ _ => exact Canonical.holdChop h
  | lampMeasure _ _ => exact Canonical.lampMeasure h
  | lampOffMeasure _ _ => exact Canonical.lampOffMeasure h
  | ochCntclr _ => exact Canonical.ite (.update h) h
  | sinEdge _ _ _ _ => exact Canonical.sinEdge h
  | sinUpdate _ => exact Canonical.sinUpdate h
  | switchClassAccept _ _ => exact Canonical.switchAccept h
  | wireOpenDetect _ => exact Canonical.wireOpen h
  | fanStall _ => exact Canonical.fanStall h
  | openLimExpiry _ => exact Canonical.openLim h
  | sinCntclr _ => exact Canonical.sinCntclr h
  | loopSample _ _ => exact Canonical.loopSample h
  | loopSwapAct _ => exact Canonical.loopSwapAct h
  | loopCoefCell _ => exact Canonical.coefCell h
  | coefApply _ => exact Canonical.applyCells h
  | coefAck _ => exact Canonical.onUp .coefAcksTaken h
  | loopCoefResend _ => exact Canonical.loopCoefResend h
  | acquisitionStart _ _ _ => exact Canonical.acquire h
  | trackingDump _ _ _ _ _ _ => exact Canonical.ite (.onTrack h) h
  | carrierLock _ => exact Canonical.ite (.onTrack h) h
  | carrierLockLoss _ => exact Canonical.ite (.onTrack h) h
  | gnssMeasure _ => exact Canonical.gnssMeasure h
  | gnssSolution _ => exact Canonical.ite (.takeSolution h) h
  | baselineCompute _ => exact Canonical.baselineCompute h
  | burstEnd _ => exact Canonical.burstEnd h
  | timeDateMessage _ _ => exact Canonical.ite (.update h) h
  | gnssCntclr _ => exact Canonical.ite (.clearGnss h) h
  | canFrameReceive _ _ => exact Canonical.canFrameReceive h
  | abrTimeout _ => exact Canonical.abrTimeout h
  | canTxStart _ => exact Canonical.canTxStart h
  | canArbLost _ => exact Canonical.onCan h
  | canBusError _ _ _ _ _ => exact Canonical.canBusError h
  | canFrameSent _ => exact Canonical.ite (.canFrameSent h) h
  | canRecoveryDone _ => exact Canonical.canRecoveryDone h
  | canModeApply _ => exact Canonical.canModeApply h
  | canWakeEdge _ => exact Canonical.catchUp (.wake h)
  | canLeaveSleep _ => exact Canonical.canLeaveSleep h
  | addressClaimed _ _ => exact Canonical.addressClaimed h
  | commandedAddress _ _ => exact Canonical.ite (.claimAddr h) h
  | moStatRead _ _ => exact Canonical.ite (.moRead h) h
  | canCntclr _ _ => exact Canonical.ite (.clearCan h) h
  | i2cWriteTransfer _ _ => exact Canonical.i2cWrite h
  | i2cReadTransfer _ _ => exact Canonical.i2cRead h
  | mbReplyArrive _ => exact Canonical.mailReply h
  | svcCntclr _ => exact Canonical.ite (.clearSvc h) h
  | wake _ _ => exact Canonical.catchUp (.wake h)
  | fieldWakePulse _ => exact Canonical.catchUp (.fieldWakePulse h)
  | dbgSel _ _ => exact Canonical.dbgSel h
  | tapBoundaryScan _ => exact Canonical.boundaryScan h
  | dbgReq _ => exact Canonical.dbgReq h
  | dbgData _ => exact Canonical.onUp .debugBytes h
  | secCntclr _ => exact Canonical.clearSec h
  | fimgChunk _ _ => exact Canonical.onDown .chunkTaken h
  | fimgDigestReady _ => exact Canonical.digestReady h
  | eventMessage _ => exact Canonical.eventMessage h
  | eventResend _ => exact Canonical.ite h (by split; exacts [.upCell h, h])
  | fevClose _ => exact Canonical.ite (.closeFieldRec h) h
  | evtCntclr _ => exact Canonical.ite (.clearEvt h) h
  | disagreeOn _ _ => exact Canonical.disagreeOn h
  | disagreeOff _ _ => exact Canonical.disagreeOff h
  | disagreeEnd _ => exact Canonical.setCh h
  | disconnectHoldExpiry _ _ => exact Canonical.ite (.openDisc (.setCh (.takeSample h))) h
  | sweepSlotEnd _ _ _ _ => exact Canonical.sweepSlotEnd h
  | captureData _ => exact Canonical.captureData h
  | sweepCtrl _ => exact Canonical.sweepCtrl h
  | holdPeriodStart _ => exact Canonical.holdStart h
  | tpSessionTimeout _ _ => exact Canonical.tpTimeout h
  | lsupRise => exact Canonical.catchUp (.lsupRise h)
  | lsupLoss => exact Canonical.lsupLoss h
  | fsupUndervoltage => exact Canonical.ite (.enterClay (.toFieldFrame (.note (.update h)))) h
  | fsupRestart =>
    change Canonical _
    split
    · exact h
    · exact Canonical.liftCause (.update h)
    · exact Canonical.enterClay (.liftCause (.update h))
  | fsupLoss => exact Canonical.ite h (.loseField (.enterClay (.update h)))
  | boot => exact Canonical.catchUp (.boot h)
  | keyInFall => exact Canonical.update h
  | keyInShutdown => exact Canonical.keyInShutdown h
  | keyInRise => exact Canonical.catchUp (.keyInRise h)
  | shutdownRetry => exact Canonical.ite (.ownTxn h) h
  | shutdownForce => exact Canonical.shutdownForce h
  | cellRetentionLost => exact Canonical.ite h (.foldl (fun _ h => .ite (.stopDom h) h) h)
  | cellRemoved => exact Canonical.update h
  | ppsPulseEnd => exact Canonical.ite (.update (.advanceTo h)) h
  | timeMarkSend => exact Canonical.timeMarkSend h
  | linkUpRetry => exact Canonical.ite (.enableLanes (.toEdge h)) h
  | holdoverLimit => exact Canonical.ite (.note (.update h)) h
  | originStep => exact Canonical.originStep h
  | tbNowLoRead => exact Canonical.readNow h
  | timeFrameInsert => exact Canonical.ite (.insertTime (.toEdge h)) h
  | laneEnable => exact Canonical.ite (.enableLanes h) h
  | linkUpAbandon => exact Canonical.linkUpAbandon h
  | barrierLossHost => exact Canonical.ite (.note (.update (.enterClay (.dropLink h)))) h
  | barrierLossField => exact Canonical.ite (.enterClay (.update (.toFieldFrame h))) h
  | hostHeartbeatTimeout => exact Canonical.ite (.enterClay (.toFieldFrame h)) h
  | fcoreStall => exact Canonical.ite (.raise h) h
  | oneShotFire => exact Canonical.ite (.update (.ite h (.clayEntry (.update h)))) h
  | oneShotRelease => exact Canonical.ite (.update h) h
  | timeSyncSend => exact Canonical.ite (.sendUrgent (.toEdge h)) h
  | schedWriteAct => exact Canonical.schedWriteAct h
  | safeReqResend =>
    change Canonical _
    split
    · exact Canonical.sendSafe h
    · exact h
  | ownFrameInsert => exact Canonical.insertOwn h
  | insertWaitExpiry => exact Canonical.insertDue h
  | enumStallTimeout => exact Canonical.enumStallTimeout h
  | claimResend => exact Canonical.claimResend h
  | islandPolicyTimeout =>
    change Canonical _
    split
    · exact Canonical.policyClay (.advanceTo h)
    · exact h
  | duplicateEntryExpiry => exact Canonical.update h
  | originEntryExpiry => exact Canonical.update h
  | schedHandover =>
    change Canonical _
    split
    · exact Canonical.ite (.handOver h) h
    · exact h
  | schedAct => exact Canonical.schedAct h
  | deferredServe => exact Canonical.deferredServe h
  | loopTestGo => exact Canonical.ite (.testGo h) h
  | loopTestAbort => exact Canonical.ite (.testAbort h) h
  | setCommitDone => exact Canonical.commitDone h
  | imgEraseDone => exact Canonical.update h
  | nonceExpiry => exact Canonical.update h
  | sessionExpiry => exact Canonical.catchUp (.sessionExpiry h)
  | edgeHandover => exact Canonical.edgeHandover h
  | motionLost => exact Canonical.ite (.loseMotion (by split; exacts [.advanceTo h, h])) h
  | tcSectionAuto => exact Canonical.ite (.plannerRelease (.update h)) h
  | operatorWorkEnable => exact Canonical.ite (.plannerRelease (.sendBoundary (.update h))) h
  | staggerEnergise => exact Canonical.staggerEnergise h
  | captureEnd => exact Canonical.captureEnd h
  | measSend => exact Canonical.measSend h
  | burstStart => exact Canonical.burstStart h
  | rtcmStale => exact Canonical.ite h (.update h)
  | antShort => exact Canonical.ite (.note (.update h)) h
  | antOpen => exact Canonical.ite (.note (.draw (.update h))) h
  | addressClaimStart => exact Canonical.ite (.claimAddr h) h
  | addrClaimComplete => exact Canonical.ite (.update h) h
  | requestAddressClaimed => exact Canonical.ite h (.ite (.sendIso h) (.ite (.sendIso h) h))
  | i2cBusError => exact Canonical.ite (.update (.attentionWithdraw h)) h
  | i2cStuck => exact Canonical.ite (.update (.attentionWithdraw h)) h
  | mbGo => exact Canonical.mbCommand h
  | mbNext => exact Canonical.mbCommand h
  | mbStatRead => exact Canonical.ite (.mbStatRead h) h
  | attentionSend => exact Canonical.ite (.update h) h
  | attentionPulseEnd => exact Canonical.ite (.update h) h
  | attentionWithdraw => exact Canonical.attentionWithdraw h
  | tckWake => exact Canonical.catchUp (.wake h)
  | pwrfStatRead => exact Canonical.ite (.fieldReadAct h) h
  | fcoreHalt => exact Canonical.haltF h
  | fcoreResume => exact Canonical.resumeF h
  | hcoreHalt => exact Canonical.ite (.update h) h
  | hcoreResume => exact Canonical.catchUp (.resumeH h)
  | tapReset => exact Canonical.ite (.resetNow (.update h)) h
  | fimgClear => exact Canonical.ite (.update h) h
  | fimgCheck => exact Canonical.ite (.update h) h
  | fimgStart => exact Canonical.startFimg h
  | eventHandle => exact Canonical.eventHandle h
  | fdiscCtrlOpen => exact Canonical.openDisc h
  | fdiscCtrlClose => exact Canonical.closeDisc h
  | softStartEnd => exact Canonical.ite (.resumed (.update (.toFieldFrame h))) h
  | timevalidExpiry => exact Canonical.ite (.chooseRef (.update h)) h
  | internalHoldUpExhausted =>
    exact Canonical.ite (.powerUp (.hostPowerLost (.enterClay (.stopLink (.detachAll (.update h)))))) h
  | wakeLogicSupplyLost => exact Canonical.ite h (.hostPowerLost h)

/-- A step executes the command at the front of the queue, or lets time pass. -/
theorem step_canonical (h : Canonical s) : NextCanonical (step s) := by
  unfold step
  split
  · exact exec_canonical _ (.update h)
  · exact Canonical.ite (.advance h) h

/-- Settles O3: every operation that a command calls keeps the stores canonical (`exec_canonical`). -/
theorem everyStepKeepsTheStoresCanonical : Obligations.EveryStepKeepsTheStoresCanonical := by
  intro s t h hstep
  have hnext : NextCanonical (step s) := step_canonical h
  rw [hstep] at hnext
  exact hnext

end Sys2Proof.Safety

/-! R152: the opcodes of flag H need the head. -/

namespace Sys2Proof.Proofs

open Sys2Proof.Machine Sys2Proof.Safety Sys2Proof.Laws

/-- Flag H stands at ENUMERATE, MARL_SEND and TB_REALIGN and at no other opcode (Tables 06-4 to 06-17). -/
theorem opInfo_h_iff (code : Nat) :
    (∃ i, opInfo code = some i ∧ i.h = true) ↔ code = 0x10 ∨ code = 0x13 ∨ code = 0x19 := by
  constructor
  · rintro ⟨i, hi, hflag⟩
    unfold opInfo at hi
    split at hi <;> cases hi <;> simp at hflag ⊢
  · rintro (rfl | rfl | rfl) <;> exact ⟨_, rfl, rfl⟩

/-! ## Step 12 for flag H -/

/-- The node's place among the heads is that of its chain ports, which taking a request in leaves alone. -/
theorem checkHead_taken (i : OpInfo) (q : Request) (s : State) : checkHead i (taken q s) = checkHead i s := by
  unfold checkHead isHead islandHead
  rw [taken_chain]

theorem checkHead_member {i : OpInfo} {s : State} (hflag : i.h = true) (hs : isHead s = false) :
    checkHead i s = refuse 0x11 0x21 := by
  simp [checkHead, hflag, hs]

/-- An island head has no upstream partner (R115), so it holds HEAD. -/
theorem isHead_of_islandHead {s : State} (hs : islandHead s = true) : isHead s = true := by
  simp_all [islandHead, isHead]

theorem checkHead_island {i : OpInfo} {s : State} (hflag : i.h = true) (hs : islandHead s = true) :
    checkHead i s = refuse 0x11 0x22 := by
  simp [checkHead, hflag, hs, isHead_of_islandHead hs]

/-! ## A request that flag H refuses -/

/-- A request that reaches its opcode names this node alone or came over the chain, so no head passes it on (R155). -/
theorem passesOn_of_reaches {code : Nat} {q : Request} {s : State} (h : Reaches code q s) (u : State) :
    passesOn q u = false := by
  obtain ⟨i, -, -, -, -, hdest, -⟩ := h
  rcases hdest with hme | ⟨-, hchain, -⟩
  · simp_all [passesOn, forMe]
  · simp [passesOn, hchain]

/-- A request that passes the checks of its opcode comes to its action. -/
theorem serve_passed (o : Op) (q : Request) (s : State) (h : Reaches o.code q s)
    (hl : o.life q (taken q s) = none) (hc : o.check q (taken q s) = none) :
    serve o q s = actOn o q (taken q s) := by
  have hv : vet o q (taken q s) = none := by simp [vet_reaches o q s h, hl, hc]
  have harena : (q.pkt.bcast && mayIssue (taken q s) && !onChain q.via) = false := passesOn_of_reaches h _
  simp [serve_reaches o q s h, process, hv, harena]

/-- A request that its action refuses, with no other effect, gets the refusal and leaves no more behind. -/
theorem actOn_refused (o : Op) (q : Request) (s u : State) (a : Ans) (h : Reaches o.code q s)
    (hact : perform o q u = (u, some a)) (ha : a.status ≠ 0) : actOn o q u = reply q a u := by
  have hpass := passesOn_of_reaches h
  have hsched : q.pkt.sched = false := by
    obtain ⟨i, -, -, -, -, -, -, -, -, -, -, hsched, -⟩ := h
    exact hsched
  simpa [actOn, actNow, owe, hpass, hsched, hact] using fun hzero => absurd hzero ha

/-- What step 12 refuses for flag H is answered so, and has no other effect (R152). -/
theorem serve_headRefused (o : Op) (q : Request) (s : State) (i : OpInfo) (a : Ans) (h : Reaches o.code q s)
    (hl : o.life q (taken q s) = none) (hc : o.check q (taken q s) = none) (hi : opInfo o.code = some i)
    (hhead : checkHead i s = some a) (ha : a.status ≠ 0) : serve o q s = reply q a (taken q s) := by
  have hperform : perform o q (taken q s) = (taken q s, some a) := by
    simp [perform, hi, checkHead_taken, hhead]
  rw [serve_passed o q s h hl hc, actOn_refused o q s _ a h hperform ha]

/-- A command whose opcode has flag H, asked in vain: NOT_HEAD_ROLE at a member, ISLAND at an island head (R152). -/
theorem answers_flagH (o : Op) (c : Instr) (q : Request) (s : State) (hexec : exec c s = .next (serve o q s))
    (hflag : o.code = 0x10 ∨ o.code = 0x13 ∨ o.code = 0x19) (h : Reaches o.code q s)
    (hl : o.life q (taken q s) = none) (hc : o.check q (taken q s) = none) :
    (isHead s = false → Answers c q s id { status := 0x11, detail := 0x21 }) ∧
    (islandHead s = true → Answers c q s id { status := 0x11, detail := 0x22 }) := by
  obtain ⟨i, hi, hih⟩ := (opInfo_h_iff o.code).mpr hflag
  constructor
  · intro hs
    exact hexec.trans (congrArg _ (serve_headRefused o q s i _ h hl hc hi (checkHead_member hih hs) (by decide)))
  · intro hs
    exact hexec.trans (congrArg _ (serve_headRefused o q s i _ h hl hc hi (checkHead_island hih hs) (by decide)))

/-- Settles O8: the payload passes step 10 of Table 05-3 in each of the three forms, so step 12 decides. -/
theorem headOpcodesNeedTheHead : Obligations.HeadOpcodesNeedTheHead := by
  refine ⟨opInfo_h_iff, ?_⟩
  rintro q s c (⟨rfl, hreach, hlen, hbyte⟩ | ⟨rfl, hreach, hlen, hbyte⟩ | ⟨rfl, hreach, hlen⟩)
  · exact answers_flagH opEnumerate _ q s rfl (.inl rfl) hreach rfl (by simp [opEnumerate, lenIs, param, hlen, hbyte])
  · exact answers_flagH opMarlSend _ q s rfl (.inr (.inl rfl)) hreach rfl
      (by simp [opMarlSend, lenIs, param, hlen, hbyte])
  · exact answers_flagH opTbRealign _ q s rfl (.inr (.inr rfl)) hreach rfl (if_pos hlen)

end Sys2Proof.Proofs

/-! R259: the output of a loop sample. A dyadic number stands for a rational; the rounding of R253 is monotone
in it, so the clamp of R257 keeps its bounds in the format of the OUT stage. -/

namespace Sys2Proof.Proofs

open Sys2Proof.Machine

/-! ## The value of a dyadic number -/

/-- The rational that a mantissa with an exponent stands for (R253). -/
def dyVal (d : Dy) : ℚ := d.m * 2 ^ d.e

theorem zpow_eq_pow_mul_zpow {f e : ℤ} (h : f ≤ e) : (2 : ℚ) ^ e = 2 ^ (e - f).toNat * 2 ^ f := by
  rw [← zpow_natCast, Int.toNat_of_nonneg (by omega), ← zpow_add₀ two_ne_zero, sub_add_cancel]

/-- A mantissa taken to a smaller exponent keeps the value. -/
theorem dyVal_eq_atExp {d : Dy} {f : ℤ} (h : f ≤ d.e) : dyVal d = d.atExp f * 2 ^ f := by
  simp [dyVal, Dy.atExp, zpow_eq_pow_mul_zpow h, mul_assoc]

theorem dyLe_iff (a b : Dy) : a.le b = true ↔ dyVal a ≤ dyVal b := by
  rw [dyVal_eq_atExp (min_le_left a.e b.e), dyVal_eq_atExp (min_le_right a.e b.e),
    mul_le_mul_iff_left₀ (by positivity), Int.cast_le]
  exact decide_eq_true_iff

theorem dyVal_dmin (a b : Dy) : dyVal (Dy.dmin a b) = min (dyVal a) (dyVal b) := by
  simp [Dy.dmin, dyLe_iff, min_def, apply_ite dyVal]

theorem dyVal_dmax (a b : Dy) : dyVal (Dy.dmax a b) = max (dyVal a) (dyVal b) := by
  simp [Dy.dmax, dyLe_iff, max_def, apply_ite dyVal]

/-! ## Rounding to the nearest integer, ties to even, is monotone -/

/-- The integer r is nearest to x, and is even where x lies halfway between two (R253). -/
def NearestEven (x : ℚ) (r : ℤ) : Prop := |x - r| ≤ 1 / 2 ∧ (|x - r| = 1 / 2 → Even r)

/-- An order turned round by rounding puts both numbers halfway between the two results, which are then
neighbours and both even. -/
theorem NearestEven.mono {x y : ℚ} {r t : ℤ} (hr : NearestEven x r) (ht : NearestEven y t) (hxy : x ≤ y) :
    r ≤ t := by
  obtain ⟨hxr, hrEven⟩ := hr
  obtain ⟨hyt, htEven⟩ := ht
  by_contra! hlt
  have hx := (abs_le.mp hxr).1
  have hy := (abs_le.mp hyt).2
  have hstep : (t : ℚ) + 1 ≤ r := by exact_mod_cast hlt
  have htie : x - r = -(1 / 2) := by linarith
  have hnext : r = t + 1 := by exact_mod_cast (by linarith : (r : ℚ) = t + 1)
  have hevenR : Even r := hrEven (by rw [htie]; norm_num)
  have hevenT : Even t := htEven (by rw [show y - t = 1 / 2 by linarith]; norm_num)
  exact Int.not_even_iff_odd.mpr hevenT.add_one (hnext ▸ hevenR)

theorem nearestEven_intCast (r : ℤ) : NearestEven r r := by simp [NearestEven]

/-- For a fraction, the distance to the nearest integer in whole numbers. -/
theorem nearestEven_div_iff {m k r : ℤ} (hk : 0 < k) :
    NearestEven (m / k) r ↔ |2 * (m - k * r)| ≤ k ∧ (|2 * (m - k * r)| = k → Even r) := by
  have hkQ : (0 : ℚ) < k := by exact_mod_cast hk
  have hdist : |(m / k : ℚ) - r| = (|2 * (m - k * r)| : ℤ) / (2 * k) := by
    rw [show (m / k : ℚ) - r = (2 * (m - k * r)) / (2 * k) by field_simp, abs_div,
      abs_of_pos (by positivity : (0 : ℚ) < 2 * k)]
    push_cast
    rfl
  have hhalf : (1 / 2 : ℚ) = k / (2 * k) := by field_simp
  rw [NearestEven, hdist, hhalf, div_le_div_iff_of_pos_right (by positivity), div_left_inj' (by positivity),
    Int.cast_le, Int.cast_inj]

/-- The quotient and the remainder decide between the quotient and its successor. -/
theorem nearestEven_div (m : ℤ) {k : ℤ} (hk : 0 < k) :
    NearestEven (m / k) (if 2 * (m % k) < k then m / k else if k < 2 * (m % k) then m / k + 1
      else if m / k % 2 = 0 then m / k else m / k + 1) := by
  rw [nearestEven_div_iff hk]
  have hrem := Int.emod_nonneg m hk.ne'
  have hlt := Int.emod_lt_of_pos m hk
  have hdown : m - k * (m / k) = m % k := (Int.emod_def m k).symm
  have hup : m - k * (m / k + 1) = m % k - k := by rw [← hdown]; ring
  split_ifs with hbelow habove heven
  · rw [hdown, abs_of_nonneg (by omega)]
    omega
  · rw [hup, abs_of_nonpos (by omega)]
    omega
  · rw [hdown, abs_of_nonneg (by omega)]
    exact ⟨by omega, fun _ => Int.even_iff.mpr heven⟩
  · rw [hup, abs_of_nonpos (by omega)]
    exact ⟨by omega, fun _ => Int.even_iff.mpr (by omega)⟩

theorem nearestEven_round (d : Dy) (e : ℤ) : NearestEven (dyVal d / 2 ^ e) (d.round e) := by
  unfold Dy.round
  split_ifs with he
  · have hexact : dyVal d / 2 ^ e = (d.atExp e : ℤ) := by
      rw [dyVal_eq_atExp he, mul_div_cancel_right₀ _ (by positivity)]
    rw [hexact]
    exact nearestEven_intCast _
  · have hquot : dyVal d / 2 ^ e = d.m / ((2 ^ (e - d.e).toNat : ℤ) : ℚ) := by
      rw [dyVal, zpow_eq_pow_mul_zpow (not_le.mp he).le, mul_div_mul_right _ _ (by positivity)]
      push_cast
      rfl
    rw [hquot]
    exact nearestEven_div d.m (by positivity)

theorem round_mono {a b : Dy} (h : dyVal a ≤ dyVal b) (e : ℤ) : a.round e ≤ b.round e :=
  (nearestEven_round a e).mono (nearestEven_round b e) (div_le_div_of_nonneg_right h (by positivity))

/-! ## Stage results -/

/-- A stage result is the rounded value, kept within 20 bits (R253). -/
theorem stage_fst (d : Dy) (e : ℤ) : (stage d e).1 = max (-524288) (min (d.round e) 524287) := by
  unfold stage
  dsimp only
  split_ifs <;> dsimp only <;> omega

theorem stage_mono {a b : Dy} (h : dyVal a ≤ dyVal b) (e : ℤ) : (stage a e).1 ≤ (stage b e).1 := by
  rw [stage_fst, stage_fst]
  exact max_le_max_left _ (min_le_min_right _ (round_mono h e))

/-- A stage result depends on the value alone, not on how mantissa and exponent share it. -/
theorem stage_congr {a b : Dy} (h : dyVal a = dyVal b) (e : ℤ) : (stage a e).1 = (stage b e).1 :=
  le_antisymm (stage_mono h.le e) (stage_mono h.ge e)

/-! ## The clamp of the output -/

/-- The clamp of R257: UMIN first, then UMAX, which therefore wins. -/
def clampOut (v umin umax : Dy) : Dy := Dy.dmin (Dy.dmax v umin) umax

theorem dyVal_clampOut (v umin umax : Dy) :
    dyVal (clampOut v umin umax) = min (max (dyVal v) (dyVal umin)) (dyVal umax) := by
  rw [clampOut, dyVal_dmin, dyVal_dmax]

theorem clampOut_le (v umin umax : Dy) : dyVal (clampOut v umin umax) ≤ dyVal umax :=
  dyVal_clampOut v umin umax ▸ min_le_right _ _

theorem le_clampOut (v umin umax : Dy) : dyVal (Dy.dmin umin umax) ≤ dyVal (clampOut v umin umax) := by
  rw [dyVal_dmin, dyVal_clampOut]
  exact min_le_min_right _ (le_max_right _ _)

theorem clampOut_of_lt {umin umax : Dy} (v : Dy) (h : dyVal umax < dyVal umin) :
    dyVal (clampOut v umin umax) = dyVal umax := by
  rw [dyVal_clampOut]
  exact min_eq_right (h.le.trans (le_max_right _ _))

/-- The output of a sample is the OUT-stage result of a clamped value, and becomes the slot's previous output. -/
theorem law_output (l : Slot) (fb : Int) (k n : Nat) (lost held : Bool) (point : Option Nat) (d : Dy) :
    (law l fb k n lost held point d).slot.uPrev = (law l fb k n lost held point d).u ∧
    ∃ v, (law l fb k n lost held point d).u =
      (stage (clampOut v (coefVal l.active[(13 : Fin 17)]) (coefVal l.active[(14 : Fin 17)]))
        (expOf l.active[(0 : Fin 17)] 4)).1 :=
  ⟨rfl, _, rfl⟩

/-- Settles O9: the clamp stands last in the law, and the OUT stage's rounding keeps its order. -/
theorem loopOutputsStayWithinTheirLimits : Obligations.LoopOutputsStayWithinTheirLimits := by
  intro l fb k n lost held point d umin umax e r
  obtain ⟨hprev, v, hu⟩ := law_output l fb k n lost held point d
  refine ⟨hprev, fun hcross => ?_, hu ▸ stage_mono (le_clampOut v umin umax) e,
    hu ▸ stage_mono (clampOut_le v umin umax) e⟩
  have hlt : dyVal umax < dyVal umin := by simpa [dyLe_iff] using (Bool.eq_false_iff.mp hcross)
  exact hu.trans (stage_congr (clampOut_of_lt v hlt) e)

end Sys2Proof.Proofs

/-! R347: a GO whose MB_LEN no packet can have is dropped as a packet with a bad CRC. -/

namespace Sys2Proof.Proofs

open Sys2Proof.Machine Sys2Proof.Safety Sys2Proof.Laws

/-! ## The CRC count of a packet register (Table 05-7) -/

theorem toNat_satInc {w : Nat} (x : BitVec w) : (satInc x).toNat = min (2 ^ w - 1) (x.toNat + 1) := by
  have hmax : x = BitVec.allOnes w ↔ x.toNat = 2 ^ w - 1 := by simp [← BitVec.toNat_inj]
  have hlt : x.toNat < 2 ^ w := x.isLt
  unfold satInc
  split_ifs with h
  · have hat : x.toNat = 2 ^ w - 1 := hmax.mp h
    omega
  · have hne : x.toNat ≠ 2 ^ w - 1 := mt hmax.mpr h
    have hfit : x.toNat + 1 < 2 ^ w := by omega
    have hsucc : (x + 1).toNat = x.toNat + 1 := by simp [Nat.mod_eq_of_lt hfit]
    omega

theorem toNat_pack_three (x y z i j k : Nat) :
    (pack [(x, i), (y, j), (z, k)]).toNat = (x * 2 ^ i + y * 2 ^ j + z * 2 ^ k) % 2 ^ 32 := by
  simp [pack]

theorem field_pktWord_crc (c : PktCnt) : field (pktWord c) 23 16 = c.crc.toNat := by
  have hacc : c.acc.toNat < 2 ^ 16 := c.acc.isLt
  have hcrc : c.crc.toNat < 2 ^ 8 := c.crc.isLt
  rw [field, pktWord, toNat_pack_three, Nat.shiftRight_eq_div_pow]
  omega

/-! ## The way of a GO to H-core -/

/-- The mailbox as GO leaves it for H-core: BUSY, with READY and every unread reply gone (R346, R349). -/
def goSet (s : State) : State :=
  { s with svc := { s.svc with
    busy := true, ready := false, overrun := false, noReply := false, attnPend := false, wroteSince := false
    heldReplies := [], goWaits := true, goTb := s.clk.tb } }

/-- A request dropped for its MB_LEN: counted as a bad CRC, and ended with NOREPLY. -/
def goDropped (s : State) : State := mailNoReply (countCrc .svc { s with svc := { s.svc with goWaits := false } })

/-- A write of MB_CTRL to a free mailbox with GO set and ATTN_EN as it stands. -/
theorem mbCtrl_go {b : Byte} {s : State} (hfree : s.svc.busy = false) (hgo : b.getLsbD 0 = true)
    (hattn : b.getLsbD 1 = s.svc.attnEn) : mbCtrl b s = mailGo s := by
  rw [mbCtrl, if_neg (by simp [hfree]), if_pos hgo, hattn]

theorem exec_mbGo {s : State} (hlive : svcLive s = true) (hfree : s.svc.busy = false) :
    exec .mbGo s = .next (mailGo s) := by
  have hgo : mbCtrl (if s.svc.attnEn then 3 else 1) s = mailGo s := by
    cases hattn : s.svc.attnEn <;> exact mbCtrl_go hfree rfl hattn.symm
  rw [← hgo]
  exact congrArg _ (if_pos hlive)

/-- With H-core powered, GO wakes nothing. -/
theorem mailGo_powered {s : State} (hpow : domOn s 1 = true) : mailGo s = catchUp (goSet s) :=
  congrArg catchUp (if_pos hpow)

/-- With no frame in RG4, catching up takes the waiting GO and nothing else (R130). -/
theorem catchUp_go {s : State} (hring : s.chain.rg4 = []) (hgo : s.svc.goWaits = true) : catchUp s = takeGo s := by
  simp [catchUp, goFirst, nextEntry, hring, hgo]

theorem takeGo_badLength {s : State} (hgo : s.svc.goWaits = true) (hrun : hcoreRuns s = true)
    (hpow : domOn s 10 = true) (hlen : s.svc.mbLen.toNat < 20 ∨ 252 < s.svc.mbLen.toNat) :
    takeGo s = goDropped s := by
  simp [takeGo, goDropped, hgo, hrun, hpow, hlen]

/-- A GO of impossible length is dropped within its step. -/
theorem exec_mbGo_badLength {s : State} (hlive : svcLive s = true) (hfree : s.svc.busy = false)
    (hrun : hcoreRuns s = true) (hring : s.chain.rg4 = [])
    (hlen : s.svc.mbLen.toNat < 20 ∨ 252 < s.svc.mbLen.toNat) : exec .mbGo s = .next (goDropped (goSet s)) := by
  obtain ⟨hpow10, -⟩ : domOn s 10 = true ∧ clockOn s = true := by simpa [svcLive] using hlive
  have hpow1 : domOn s 1 = true := by simp_all [hcoreRuns]
  rw [exec_mbGo hlive hfree, mailGo_powered hpow1, catchUp_go (s := goSet s) hring rfl,
    takeGo_badLength (s := goSet s) rfl hrun hpow10 hlen]

/-- Settles O10: H-core takes the GO in the same step, and its length alone drops it. -/
theorem impossibleMailboxLengthsGetNoReply : Obligations.ImpossibleMailboxLengthsGetNoReply := by
  intro s hlive hfree hrun hring hlen
  refine ⟨goDropped (goSet s), exec_mbGo_badLength hlive hfree hrun hring hlen,
    rfl, rfl, rfl, rfl, rfl, ?counted, rfl, rfl, ?frame⟩
  case counted =>
    rw [field_pktWord_crc, field_pktWord_crc]
    exact toNat_satInc s.pkt.svc.crc
  case frame =>
    intro p hp
    obtain ⟨hsvc, hpkt⟩ : p ≠ .svc ∧ p ≠ .pkt := by simpa using hp
    cases p with
    | svc => exact absurd rfl hsvc
    | pkt => exact absurd rfl hpkt
    | _ => rfl

end Sys2Proof.Proofs

/-! R461: a latched wake acts as LSUP rises. A wake starts domains, and starting a domain leaves alone both the
record of the wake and the work that waits for H-core, so nothing but the wake acts in its step. -/

namespace Sys2Proof.Proofs

open Sys2Proof.Machine Sys2Proof.Safety Sys2Proof.Laws

/-! ## The work that waits for H-core -/

/-- What H-core would take up when it runs again: the CMD frames of RG4 and a waiting mailbox request (R130). -/
def inbox (s : State) : List RingFrame × Bool := (s.chain.rg4, s.svc.goWaits)

theorem inbox_congr {s t : State} (hchain : t.chain = s.chain) (hsvc : t.svc = s.svc) : inbox t = inbox s := by
  simp [inbox, hchain, hsvc]

theorem catchUp_of_inbox_empty {s : State} (h : inbox s = ([], false)) : catchUp s = s := by
  obtain ⟨hring, hgo⟩ : s.chain.rg4 = [] ∧ s.svc.goWaits = false := by simpa [inbox] using h
  exact catchUp_idle s hring hgo

theorem inbox_sendDown (f : ChainFrame) (s : State) : inbox (sendDown f s) = inbox s := by
  unfold sendDown outDown
  split <;> rfl

theorem inbox_sendPackets (q : Request) (s : State) : inbox (sendPackets q s) = inbox s :=
  foldl_keep inbox (fun s p => sendDown (cmdOf p s) s) (fun _ _ => inbox_sendDown _ _) (partPackets q) s

theorem inbox_forwardPackets (q : Request) (s : State) : inbox (forwardPackets q s) = inbox s := by
  rw [forwardPackets, inbox_sendPackets]
  split
  · rfl
  · simp [inbox]

theorem inbox_payOwed (q : Request) (a : Ans) (s : State) : inbox (payOwed q a s) = inbox s := by
  unfold payOwed
  split
  · dsimp only
    split
    · rfl
    · exact inbox_forwardPackets q _
  · rfl

theorem inbox_mailNoReply (s : State) : inbox (mailNoReply s) = inbox s := by
  unfold mailNoReply
  split <;> rfl

theorem inbox_mailReply (p : Packet) (s : State) : inbox (mailReply p s) = inbox s := by
  unfold mailReply loadReply
  split_ifs <;> rfl

theorem inbox_queueUp (f : ChainFrame) (s : State) : inbox (queueUp f s) = inbox s := by
  unfold queueUp
  dsimp only
  split <;> rfl

theorem inbox_routeReply (via : Via) (p : Packet) (s : State) : inbox (routeReply via p s) = inbox s := by
  cases via with
  | chain _ => exact inbox_queueUp _ s
  | headHost => exact inbox_queueUp _ s
  | can _ _ => rfl
  | svc => exact inbox_mailReply p s
  | planner => rfl

/-- Answers leave the node: none comes to where requests wait. -/
theorem inbox_reply (q : Request) (a : Ans) (s : State) : inbox (reply q a s) = inbox s := by
  unfold reply
  extract_lets ps s1 _ s2
  have hstored : inbox s2 = inbox s := by
    unfold s2
    split <;> rfl
  rw [inbox_payOwed, ← hstored]
  split
  · split
    · exact inbox_mailNoReply s2
    · rfl
  · exact foldl_keep inbox _ (fun _ _ => inbox_routeReply _ _ _) ps s2

theorem inbox_loseTxn (t : RegTxn) (s : State) : inbox (loseTxn t s) = inbox s := by
  unfold loseTxn
  split
  · split
    · rfl
    · exact inbox_reply _ _ s
  · rfl
  · rfl
  · rfl

theorem inbox_dropLink (s : State) : inbox (dropLink s) = inbox s :=
  (foldl_keep inbox _ (fun _ _ => inbox_reply _ _ _) _ _).trans
    (foldl_keep inbox _ (fun _ _ => inbox_loseTxn _ _) _ _)

theorem inbox_stopLink (s : State) : inbox (stopLink s) = inbox s :=
  (inbox_congr (by simp [stopLink]) (by simp [stopLink])).trans (inbox_dropLink s)

theorem inbox_relockFresh (s : State) : inbox (relockFresh s) = inbox s := inbox_stopLink _

/-! ## What starting a domain leaves alone -/

/-- From s to t domains have started and none has stopped; the record of the last wake, the latched wake, the supply
and the work that waits for H-core are as they were. -/
structure Starts (s t : State) : Prop where
  inbox_eq : inbox t = inbox s
  lsup : t.pwr.lsup = s.pwr.lsup
  latch : t.pwr.wakeLatch = s.pwr.wakeLatch
  why : t.pwr.why = s.pwr.why
  wakes : t.pwr.wakes = s.pwr.wakes
  on : ∀ d, domOn s d = true → domOn t d = true

theorem Starts.of_pwr {s t : State} (hinbox : inbox t = inbox s) (hpwr : t.pwr = s.pwr) : Starts s t where
  inbox_eq := hinbox
  lsup := by rw [hpwr]
  latch := by rw [hpwr]
  why := by rw [hpwr]
  wakes := by rw [hpwr]
  on := fun d hd => by simpa [domOn, hpwr] using hd

theorem Starts.refl (s : State) : Starts s s := .of_pwr rfl rfl

theorem Starts.trans {s t u : State} (h : Starts s t) (g : Starts t u) : Starts s u where
  inbox_eq := g.inbox_eq.trans h.inbox_eq
  lsup := g.lsup.trans h.lsup
  latch := g.latch.trans h.latch
  why := g.why.trans h.why
  wakes := g.wakes.trans h.wakes
  on := fun d hd => g.on d (h.on d hd)

theorem Starts.ite {c : Prop} [Decidable c] {s t u : State} (ht : Starts s t) (hu : Starts s u) :
    Starts s (if c then t else u) := by
  split <;> assumption

theorem Starts.foldl {α : Type} {g : State → α → State} (h : ∀ s a, Starts s (g s a)) (l : List α) (s : State) :
    Starts s (l.foldl g s) :=
  foldl_inv (Starts s) g (fun t a ht => ht.trans (h t a)) l s (.refl s)

theorem starts_relockFresh (s : State) : Starts s (relockFresh s) := .of_pwr (inbox_relockFresh s) (by simp)

theorem domOn_setDom_on (d e : Fin 18) (s : State) : domOn (setDom d .on s) e = (decide (d = e) || domOn s e) := by
  by_cases h : d = e
  · simp [domOn, h]
  · have hne : d.val ≠ e.val := fun he => h (Fin.ext he)
    simp [domOn, h, Vector.getElem_set_ne, hne]

theorem starts_setDom_on (d : Fin 18) (s : State) : Starts s (setDom d .on s) where
  inbox_eq := inbox_congr (by simp [setDom]) (by simp [setDom])
  lsup := by simp [setDom]
  latch := by simp [setDom]
  why := by simp [setDom]
  wakes := by simp [setDom]
  on := fun e he => by rw [domOn_setDom_on, he, Bool.or_true]

theorem starts_applyCanMode (k : Nat) (s : State) : Starts s (applyCanMode k s) := by
  unfold applyCanMode
  extract_lets
  exact .ite (.of_pwr rfl rfl) (.of_pwr rfl rfl)

/-- The stored settings of a domain are registers, and copies of them in other places than those of `Starts`. -/
theorem starts_applyHostItem (k : Nat) (s : State) : Starts s (applyHostItem k s) := by
  unfold applyHostItem
  extract_lets u
  have hu : Starts s u := .foldl (g := fun s (w : Nat × Word) => setReg w.1 w.2 s) (fun _ _ => .of_pwr rfl rfl) _ s
  refine hu.trans ?_
  split
  · exact .of_pwr rfl rfl
  · exact .of_pwr (inbox_congr (by simp) (by simp)) (by simp)
  · exact starts_applyCanMode _ u
  · exact starts_applyCanMode _ u
  · exact .of_pwr rfl rfl
  · exact .of_pwr rfl rfl
  · exact .refl u

/-- What follows the change of state in the start of a domain stops none. -/
theorem setDom_starts_startDom (d : Fin 18) (s : State) : Starts (setDom d .on s) (startDom d .on s) := by
  unfold startDom
  extract_lets was s1 _ s2 _ s3
  have h2 : Starts s1 s2 := .ite (.of_pwr rfl rfl) (.refl s1)
  have h3 : Starts s1 s3 := h2.trans (.ite (.of_pwr rfl rfl) (.refl s2))
  exact .ite (.refl s1) (.ite (h3.trans (.foldl (fun s k => starts_applyHostItem k s) _ s3)) h3)

theorem starts_startDom (d : Fin 18) (s : State) : Starts s (startDom d .on s) :=
  (starts_setDom_on d s).trans (setDom_starts_startDom d s)

theorem domOn_startDom (d : Fin 18) (s : State) : domOn (startDom d .on s) d = true :=
  (setDom_starts_startDom d s).on d (by simp [domOn_setDom_on])

theorem starts_startOff (d : Fin 18) (s : State) : Starts s (startOff d s) := .ite (.refl s) (starts_startDom d s)

theorem domOn_startOff (d : Fin 18) (s : State) : domOn (startOff d s) d = true := by
  unfold startOff
  split
  · assumption
  · exact domOn_startDom d s

theorem starts_skipNote (mask : Word) (s : State) : Starts s (skipNote mask s) :=
  .ite (.refl s) (.of_pwr (inbox_congr (by simp) (by simp)) (by simp))

theorem starts_startWset (which : Fin 18 → Bool) (s : State) : Starts s (startWset which s) := by
  unfold startWset
  refine .trans ?_ (starts_skipNote _ _)
  refine foldl_inv (fun r : State × Word => Starts s r.1) _ (fun r d hr => ?_) _ (s, 0) (.refl s)
  split
  · exact hr.trans (starts_startDom d r.1)
  · exact hr

theorem starts_startFieldSet (s : State) : Starts s (startFieldSet s) := by
  have hnoted : Starts s { s with pwr := { s.pwr with fieldStart := false } } :=
    ⟨rfl, rfl, rfl, rfl, rfl, fun _ hd => hd⟩
  exact .ite (hnoted.trans (starts_startWset _ _)) (.refl s)

theorem starts_wakePort (w : WakeSrc) (s : State) : Starts s (wakePort w s) := by
  unfold wakePort
  split
  · exact .of_pwr rfl rfl
  · exact .of_pwr rfl rfl
  · exact .of_pwr rfl rfl
  · exact .of_pwr rfl rfl
  · exact .refl s

/-! ## A wake -/

/-- The state t in which the wake of source w leaves the node that was in state s (R374). -/
structure WokenBy (w : WakeSrc) (s t : State) : Prop where
  inbox_eq : inbox t = inbox s
  lsup : t.pwr.lsup = s.pwr.lsup
  latch : t.pwr.wakeLatch = s.pwr.wakeLatch
  why : t.pwr.why = wakeCode w
  wakes : t.pwr.wakes = satInc s.pwr.wakes
  hsram : domOn t 0 = true
  hcore : domOn t 1 = true

theorem WokenBy.starts {w : WakeSrc} {s t u : State} (h : WokenBy w s t) (g : Starts t u) : WokenBy w s u where
  inbox_eq := g.inbox_eq.trans h.inbox_eq
  lsup := g.lsup.trans h.lsup
  latch := g.latch.trans h.latch
  why := g.why.trans h.why
  wakes := g.wakes.trans h.wakes
  hsram := g.on 0 h.hsram
  hcore := g.on 1 h.hcore

/-- PD_HSRAM0 and PD_HCORE start before the wake is recorded, and the wake set starts after it (R374). -/
theorem wokenBy_runWake (w : WakeSrc) (reason : Byte) (s : State) : WokenBy w s (runWake w reason s) := by
  unfold runWake
  extract_lets cold s1 s2 s3 _ s4 s5
  have h1 : Starts s s1 := .ite (starts_relockFresh s) (.refl s)
  have h2 : Starts s s2 := by
    unfold s2
    split
    · exact h1.trans (starts_startOff _ s1)
    · exact h1
  have hport : Starts (startOff 1 (startOff 0 s2)) s3 := starts_wakePort w _
  have h3 : Starts s s3 := ((h2.trans (starts_startOff 0 s2)).trans (starts_startOff 1 _)).trans hport
  have hsram : domOn s3 0 = true := hport.on 0 ((starts_startOff 1 _).on 0 (domOn_startOff 0 s2))
  have hcore : domOn s3 1 = true := hport.on 1 (domOn_startOff 1 _)
  have h4 : WokenBy w s s4 := ⟨h3.inbox_eq, h3.lsup, h3.latch, rfl, congrArg satInc h3.wakes, hsram, hcore⟩
  have h5 : WokenBy w s s5 := h4.starts (starts_startWset _ s4)
  split
  · exact h5.starts (.ite (starts_startFieldSet s5) (.ite (starts_startWset _ s5) (.refl s5)))
  · exact h4

/-- Below the start threshold of LSUP an enabled source is latched behind the one latched before it. -/
theorem wake_latched {w : WakeSrc} {reason : Byte} {s : State} (hen : wakeEnabled w s = true)
    (hlogic : s.pwr.wakeLogic = true) (hlow : s.pwr.lsup = false) :
    wake w reason s = { s with pwr := { s.pwr with wakeLatch := s.pwr.wakeLatch <|> some (w, reason) } } := by
  simp [wake, hen, hlogic, hlow]

/-- The rise of LSUP hands the latched wake over, and the latch is free. -/
theorem lsupRise_latched {w : WakeSrc} {reason : Byte} {s : State} (hlow : s.pwr.lsup = false)
    (hlogic : s.pwr.wakeLogic = true) (hlatch : s.pwr.wakeLatch = some (w, reason)) :
    lsupRise s = runWake w reason { s with pwr := { s.pwr with lsup := true, wakeLatch := none } } := by
  simp [lsupRise, latchedWake, hlow, hlogic, hlatch]

/-- Settles O11: while LSUP is low the first source stays latched, and the rise runs the wake of that source. -/
theorem latchedWakesActAtLsup : Obligations.LatchedWakesActAtLsup := by
  intro s hlow hlogic hring hgo
  constructor
  · intro w r hen
    refine ⟨_, rfl, ?_⟩
    rw [wake_latched hen hlogic hlow]
    exact catchUp_idle _ hring hgo
  · intro w r hlatch
    have hwoken := wokenBy_runWake w r { s with pwr := { s.pwr with lsup := true, wakeLatch := none } }
    have hidle := catchUp_of_inbox_empty (hwoken.inbox_eq.trans (congrArg₂ Prod.mk hring hgo))
    have hexec : exec .lsupRise s = .next (catchUp (lsupRise s)) := rfl
    rw [lsupRise_latched hlow hlogic hlatch, hidle] at hexec
    refine ⟨_, hexec, ?_⟩
    exact ⟨hwoken.lsup, hwoken.latch, hwoken.why, hwoken.wakes, of_decide_eq_true hwoken.hsram,
      of_decide_eq_true hwoken.hcore⟩

end Sys2Proof.Proofs

/-! The first step, the reset state, and the invariant of Clay that a node of mixed posture breaks. -/

namespace Sys2Proof.Proofs

open Sys2Proof.Machine Sys2Proof.Safety Sys2Proof.Laws

/-- Settles O1: a step reads its queue and nothing else. -/
theorem stepTakesTheFrontCommand : Obligations.StepTakesTheFrontCommand := by
  intro c rest s h
  rw [step, h]

/-- Every channel of the reset state is at its reset values. -/
theorem quiet_reset (n : Fin 32) : Quiet State.reset.out.ch[n] := by
  have h : State.reset.out.ch[n] = {} := by simp [State.reset]
  rw [h]
  exact ⟨rfl, rfl, rfl, rfl⟩

/-- A memory that lists nothing has the canonical form. -/
theorem canonical_reset : Canonical State.reset := by
  refine ⟨rfl, rfl, rfl, rfl, rfl, rfl, rfl, fun i => ?_⟩
  have h : State.reset.loop.slot[i] = {} := by simp [State.reset]
  rw [h]; rfl

/-- Settles O2: the values are the defaults of the state's fields, and the four invariants are read off them. -/
theorem resetLeavesTheStatedValues : Obligations.ResetLeavesTheStatedValues := by
  refine ⟨rfl, rfl, rfl, rfl, rfl, quiet_reset, by decide, rfl, by decide, by decide, canonical_reset,
    fun _ => quiet_reset, ?_, ?_⟩
  · exact ⟨fun _ => ⟨rfl, by decide⟩, fun _ => ⟨rfl, by decide⟩⟩
  · exact ⟨by decide, by decide, by decide⟩

/-- Without LSUP the loss of the wake logic's supply leaves the host side without any. -/
theorem exec_wakeLogicSupplyLost (s : State) (h : s.pwr.lsup = false) :
    exec .wakeLogicSupplyLost s = .next (hostPowerLost s) := by
  change execWakeLogicSupplyLost s = _
  simp [execWakeLogicSupplyLost, h]

/-- A node in Loam and out of Clay whose barrier link stands up although PD_HCORE is in RET and LSUP is absent; the
wake logic loses its supply next. -/
def retainedHost : State :=
  { State.reset with
    pending := [.wakeLogicSupplyLost]
    modes := { State.reset.modes with mode := .loam, clay := false, booted := true, active := 0 }
    barr := { State.reset.barr with link := .up }
    pwr := { State.reset.pwr with lsup := false, dom := (Vector.replicate 18 .off).set 1 .ret } }

/-- Refutes O5: where PD_HCORE is already in RET its stop ends no link, so the host side that loses its supply falls
to Sand (R374) and the field side stays out of Clay. -/
theorem not_everyStepKeepsTheFieldInClayOutsideLoam : ¬ Obligations.EveryStepKeepsTheFieldInClayOutsideLoam := by
  intro h
  have hbefore : ClayHeld retainedHost := ⟨fun hm => absurd rfl hm, fun hl => absurd rfl hl⟩
  have hstep : step retainedHost = .next (hostPowerLost { retainedHost with pending := [] }) := by
    rw [stepTakesTheFrontCommand _ [] retainedHost rfl, exec_wakeLogicSupplyLost _ rfl]
  have hmode : (hostPowerLost { retainedHost with pending := [] }).modes.mode = .sand := by decide +kernel
  have hclay : (hostPowerLost { retainedHost with pending := [] }).modes.clay = false := by decide +kernel
  have hafter : ClayHeld (hostPowerLost { retainedHost with pending := [] }) := h _ _ hbefore hstep
  obtain ⟨hheld, -⟩ := hafter.1 (by rw [hmode]; decide)
  rw [hclay] at hheld
  exact Bool.noConfusion hheld

end Sys2Proof.Proofs

/-! Every step keeps a Clay field side quiet and the event queues bounded. One walk over the operations shows both:
`Calm Q B` holds the first invariant under Q and the second under B, and each operation keeps it by one lemma
`Calm.<operation>`, composed of the lemmas of the operations it calls. Only the operations that write a gate, an
override, a generator, a queue of edges or a queue of records argue about them. -/

namespace Sys2Proof.Safety

open Sys2Proof.Machine Sys2Proof.Laws

-- The checker's limit on memory counts the stack of every thread, and the many short lemmas below, elaborated at the
-- same time, would start too many threads for it.
set_option Elab.async false

/-- Under Q a field side in Clay is quiet, and under B the event queues are bounded. -/
def Calm (Q B : Prop) (s : State) : Prop := (Q → ClayQuiet s) ∧ (B → Bounded s)

variable {Q B : Prop} {s t : State}

/-! ## How operations are put together -/

protected theorem Calm.ite {c : Prop} [Decidable c] (hs : Calm Q B s) (ht : Calm Q B t) :
    Calm Q B (if c then s else t) := by
  split
  · exact hs
  · exact ht

protected theorem Calm.iteFst {α : Type} {c : Prop} [Decidable c] {x y : State × α} (hx : Calm Q B x.1)
    (hy : Calm Q B y.1) : Calm Q B (if c then x else y).1 := by
  split
  · exact hx
  · exact hy

protected theorem Calm.iteSnd {α : Type} {c : Prop} [Decidable c] {x y : α × State} (hx : Calm Q B x.2)
    (hy : Calm Q B y.2) : Calm Q B (if c then x else y).2 := by
  split
  · exact hx
  · exact hy

protected theorem Calm.foldl {α : Type} {g : State → α → State} {l : List α}
    (hg : ∀ {s} a, Calm Q B s → Calm Q B (g s a)) (h : Calm Q B s) : Calm Q B (l.foldl g s) :=
  foldl_inv (Calm Q B) g (fun _ a => hg a) l s h

/-- An operation that leaves Clay, the channels and the event queues as they were. -/
protected theorem Calm.frame (h : Calm Q B s) (e : t.modes = s.modes ∧ t.out = s.out ∧ t.ev = s.ev) : Calm Q B t := by
  obtain ⟨hmodes, hout, hev⟩ := e
  simpa only [Calm, ClayQuiet, Bounded, hmodes, hout, hev] using h

/-- A record update. Which fields it writes is read off the goal; that it neither enters Clay, nor commands a channel
on, nor lengthens a queue holds by computation where it is not shown. -/
protected theorem Calm.update {pending free id modes regs clk barr chain pkt out sense loop gnss canA canB svc pwr sec
    fw ev sect} (h : Calm Q B s) (hclay : Q → modes.clay = true → s.modes.clay = true := by exact fun _ h => h)
    (hch : Q → ∀ n : Fin 32, Quiet s.out.ch[n] → Quiet out.ch[n] := by exact fun _ _ h => h)
    (hhost : s.ev.host.length ≤ 64 → ev.host.length ≤ 64 := by exact fun h => h)
    (hfield : s.ev.field.length ≤ 64 → ev.field.length ≤ 64 := by exact fun h => h)
    (hmirror : s.ev.mirror.length ≤ 64 → ev.mirror.length ≤ 64 := by exact fun h => h) :
    Calm Q B ⟨pending, free, id, modes, regs, clk, barr, chain, pkt, out, sense, loop, gnss, canA, canB, svc, pwr,
      sec, fw, ev, sect⟩ := by
  obtain ⟨hq, hb⟩ := h
  refine ⟨fun q hin n => hch q n (hq q (hclay q hin) n), fun b => ?_⟩
  obtain ⟨h1, h2, h3⟩ := hb b
  exact ⟨hhost h1, hfield h2, hmirror h3⟩

/-- The event queues alone, where Clay is argued about apart. -/
protected theorem Calm.queues (h : Calm Q B s) : Calm False B s := ⟨False.elim, h.2⟩

/-- Out of Clay nothing has to be quiet. -/
protected theorem Calm.awake (hclay : t.modes.clay = false) (h : Calm False B t) : Calm Q B t :=
  ⟨fun _ hin => by rw [hclay] at hin; exact Bool.noConfusion hin, h.2⟩

/-- A state all of whose channels are quiet. -/
protected theorem Calm.stilled (hquiet : ∀ n : Fin 32, Quiet t.out.ch[n]) (h : Calm False B t) : Calm Q B t :=
  ⟨fun _ _ => hquiet, h.2⟩

/-- An operation that leaves Clay and the channels as they were, and the queues bounded. -/
protected theorem Calm.events (h : Calm Q B s) (e : t.modes = s.modes ∧ t.out = s.out)
    (hb : Bounded s → Bounded t) : Calm Q B t := by
  obtain ⟨hmodes, hout⟩ := e
  obtain ⟨hq, hold⟩ := h
  refine ⟨fun q => ?_, fun b => hb (hold b)⟩
  simpa only [ClayQuiet, hmodes, hout] using hq q

/-- An opcode keeps both invariants when each of its parts that change the state does. -/
structure KeepsCalm (Q B : Prop) (o : Op) : Prop where
  act : ∀ q s, Calm Q B s → Calm Q B (o.act q s).1
  hand : ∀ q s, Calm Q B s → Calm Q B (o.hand q s) := by exact fun _ _ h => h
  after : ∀ q s, Calm Q B s → Calm Q B (o.after q s) := by exact fun _ _ h => h
  onAccept : ∀ q s, Calm Q B s → Calm Q B (o.onAccept q s) := by exact fun _ _ h => h

/-! ## Edge geometry and items -/

protected theorem Calm.setSect {n : Fin 32} {f : ChSect → ChSect} (h : Calm Q B s) :
    Calm Q B (setSect n f s) := .frame h (by simp)

protected theorem Calm.applyLook {b : List Byte} {n : Fin 32} (h : Calm Q B s) : Calm Q B (applyLook b n s) :=
  .frame h (by simp)

protected theorem Calm.runItem {k : Nat} {v : List Byte} (h : Calm Q B s) : Calm Q B (runItem k v s) :=
  .frame h (by simp)

/-! ## Time, notes, cells, Clay and replies -/

protected theorem Calm.advance {d : Nat} (h : Calm Q B s) : Calm Q B (advance d s) := .frame h (by simp)

protected theorem Calm.advanceTo {t : Nat} (h : Calm Q B s) : Calm Q B (advanceTo t s) := .frame h (by simp)

protected theorem Calm.toEdge {k p : Nat} (h : Calm Q B s) : Calm Q B (toEdge k p s) := .frame h (by simp)

protected theorem Calm.toFrame (h : Calm Q B s) : Calm Q B (toFrame s) := .frame h (by simp)

protected theorem Calm.setReg {a : Nat} {v : Word} (h : Calm Q B s) : Calm Q B (setReg a v s) := .frame h (by simp)

protected theorem Calm.toFieldFrame (h : Calm Q B s) : Calm Q B (toFieldFrame s) := .frame h (by simp)

@[simp] theorem length_modFirst {α : Type} (p : α → Bool) (f : α → α) (l : List α) :
    (modFirst p f l).length = l.length := by
  induction l with
  | nil => rfl
  | cons a l ih => unfold modFirst; split <;> simp [ih]

/-- Displacing one of the records that p accepts makes room for one. -/
theorem length_dropFirst {α : Type} {p : α → Bool} {l : List α} (h : l.any p = true) :
    (dropFirst p l).length + 1 = l.length := by
  induction l with
  | nil => simp at h
  | cons a l ih =>
    unfold dropFirst
    by_cases hp : p a = true
    · simp [hp]
    · simp only [List.any_cons, hp, Bool.false_or] at h
      simp [hp, ih h]

/-- A queue of 64 stays one (R432). -/
theorem length_enqueue (r : EventRec) {q : List EventRec} (h : q.length ≤ 64) : (enqueue r q).1.length ≤ 64 := by
  have hdrop {p : EventRec → Bool} (hp : q.any p = true) : (dropFirst p q ++ [r]).length ≤ 64 := by
    have := length_dropFirst hp
    simp only [List.length_append, List.length_singleton]
    omega
  have hsev {k : BitVec 2} {b : Bool} (hp : q.any (fun x => x.sev == k && b) = true) :
      (dropFirst (fun x => x.sev == k) q ++ [r]).length ≤ 64 := by
    refine hdrop ?_
    simp only [List.any_eq_true, Bool.and_eq_true] at hp ⊢
    obtain ⟨x, hx, hk, -⟩ := hp
    exact ⟨x, hx, hk⟩
  unfold enqueue
  split
  · next hroom => simp only [List.length_append, List.length_singleton]; omega
  · split
    · next hclosed => exact hdrop hclosed
    · split
      · next h0 => exact hsev h0
      · split
        · next h1 => exact hsev h1
        · split
          · next h2 => exact hsev h2
          · exact h

/-- A count on the newest open CRITICAL record takes no place (R432). -/
theorem length_countOnNewest (tb : BitVec 64) (q : List EventRec) : (countOnNewest tb q).length = q.length := by
  simp [countOnNewest]

@[simp] theorem startHandling_queues (r : EventRec) (e : Events) : (startHandling r e).host = e.host ∧
    (startHandling r e).field = e.field ∧ (startHandling r e).mirror = e.mirror := by
  unfold startHandling
  split <;> exact ⟨rfl, rfl, rfl⟩

/-- A field record that leaves stays in its queue until it is closed. -/
@[simp] theorem sendEvent_queues (r : EventRec) (s : State) : (sendEvent r s).ev.host = s.ev.host ∧
    (sendEvent r s).ev.field = s.ev.field ∧ (sendEvent r s).ev.mirror = s.ev.mirror := ⟨rfl, rfl, rfl⟩

/-- The queue after a record is placed, or counted where it found no place. -/
theorem length_place {sev : BitVec 2} {tb : BitVec 64} (r : EventRec) {q : List EventRec} (h : q.length ≤ 64) :
    (if ((enqueue r q).2.2 || sev != sevCritical) = true then (enqueue r q).1
      else countOnNewest tb (enqueue r q).1).length ≤ 64 := by
  split
  · exact length_enqueue r h
  · rw [length_countOnNewest]; exact length_enqueue r h

protected theorem Calm.sendEvent {r : EventRec} (h : Calm Q B s) : Calm Q B (sendEvent r s) := .update h

/-- A record newly placed among the field records. -/
protected theorem Calm.placeField {r : EventRec} {sev : BitVec 2} {tb : BitVec 64} {e : Events} (h : Calm Q B s)
    (hhost : e.host = s.ev.host) (hmirror : e.mirror = s.ev.mirror)
    (hfield : e.field = if ((enqueue r s.ev.field).2.2 || sev != sevCritical) = true then (enqueue r s.ev.field).1
      else countOnNewest tb (enqueue r s.ev.field).1) : Calm Q B { s with ev := startHandling r e } := by
  refine .update h (hhost := ?_) (hfield := ?_) (hmirror := ?_) <;> simp only [startHandling_queues]
  · rw [hhost]; exact id
  · rw [hfield]; exact length_place r
  · rw [hmirror]; exact id

protected theorem Calm.note {side : Side} {code : BitVec 16} {sev : BitVec 2} {chan : Byte} {data : List Byte}
    (h : Calm Q B s) : Calm Q B (note side code sev chan data s) := by
  unfold Machine.note
  dsimp only
  cases side with
  | host =>
    refine .ite (.update h (hhost := by rw [length_modFirst]; exact id)) ?_
    refine .update h (hhost := ?_) (hfield := ?_) (hmirror := ?_) <;> simp only [startHandling_queues]
    · exact length_place _
    · exact id
    · exact id
  | field =>
    refine .ite ?_ ?_
    · split
      · exact .sendEvent (.update h (hfield := by rw [length_modFirst]; exact id))
      · exact .update h (hfield := by rw [length_modFirst]; exact id)
    · refine .ite (.sendEvent (.placeField h rfl rfl rfl)) ?_
      split
      · exact .ite (.sendEvent (.placeField h rfl rfl rfl)) (.placeField h rfl rfl rfl)
      · exact .placeField h rfl rfl rfl

protected theorem Calm.noteEpoch {side : Side} {code : BitVec 16} {sev : BitVec 2} {chan : Byte} {data : List Byte}
    (h : Calm Q B s) : Calm Q B (noteEpoch side code sev chan data s) := .ite h (.note h)

protected theorem Calm.sendCell {c : Cell} (h : Calm Q B s) : Calm Q B (sendCell c s) := .frame h (by simp)

protected theorem Calm.upCell {c : Cell} (h : Calm Q B s) : Calm Q B (upCell c s) := .frame h (by simp)

protected theorem Calm.sendUrgent {c : Cell} (h : Calm Q B s) : Calm Q B (sendUrgent c s) := .frame h (by simp)

protected theorem Calm.passDown (h : Calm Q B s) : Calm Q B (passDown s) := .frame h (by simp)

protected theorem Calm.seqDown {seq : BitVec 16} (h : Calm Q B s) : Calm Q B (seqDown seq s) := .frame h (by simp)

protected theorem Calm.onDown {c : Cell} {act : State → State} (hact : ∀ {s}, Calm Q B s → Calm Q B (act s))
    (h : Calm Q B s) : Calm Q B (onDown c act s) := by
  unfold Machine.onDown
  split
  · exact h
  · exact .ite h (.ite (.passDown h) (.ite (hact (.seqDown (.passDown h))) (.seqDown (.passDown h))))

protected theorem Calm.checkDrops (h : Calm Q B s) : Calm Q B (checkDrops s) := .ite (.note (.update h)) h

protected theorem Calm.seqUp (h : Calm Q B s) : Calm Q B (seqUp s) := .frame h (by simp)

protected theorem Calm.onUp {c : Cell} {act : State → State} (hact : ∀ {s}, Calm Q B s → Calm Q B (act s))
    (h : Calm Q B s) : Calm Q B (onUp c act s) := by
  unfold Machine.onUp
  split
  · exact h
  · exact .ite h (.ite (hact (.foldl (fun _ => .seqUp) h)) (.checkDrops (.foldl (fun _ => .seqUp) h)))

protected theorem Calm.sendSafe {causes : BitVec 16} (h : Calm Q B s) : Calm Q B (sendSafe causes s) :=
  .frame h (by simp)

protected theorem Calm.asApplied {r : AsRec} (h : Calm Q B s) : Calm Q B (asApplied r s) := .frame h (by simp)

protected theorem Calm.schedFail {q : Request} {status : Byte} (h : Calm Q B s) : Calm Q B (schedFail q status s) :=
  .note h

protected theorem Calm.discardSched {p : SchedCmd → Bool} (h : Calm Q B s) : Calm Q B (discardSched p s) :=
  .foldl (fun _ => .schedFail) (.update h)

/-- The end of a sweep leaves the channels alone. -/
theorem abortSweep_ch (v : Byte) (s : State) : (abortSweep v s).out.ch = s.out.ch := by
  unfold abortSweep
  split
  · simp
  · split <;> rfl

protected theorem Calm.abortSweep {v : Byte} (h : Calm Q B s) : Calm Q B (abortSweep v s) := by
  unfold Machine.abortSweep
  split
  · exact .note (.update h)
  · split
    · exact .update h
    · exact h

protected theorem Calm.settleTest (h : Calm Q B s) : Calm Q B (settleTest s) := .frame h (by simp)

protected theorem Calm.warnSwaps (h : Calm Q B s) : Calm Q B (warnSwaps s) := by
  refine .foldl (fun _ h => ?_) h
  split
  · exact .note h
  · exact h

protected theorem Calm.applyAtClay (h : Calm Q B s) : Calm Q B (applyAtClay s) := .frame h (by simp)

protected theorem Calm.cutHanded (h : Calm Q B s) : Calm Q B (cutHanded s) := .frame h (by simp)

protected theorem Calm.syncFreeze (h : Calm Q B s) : Calm Q B (syncFreeze s) := .frame h (by simp)

/-- A channel at Clay entry is quiet (R229). -/
theorem quiet_chanClay (tb : BitVec 64) (closes : Bool) (k : Nat) (c : Chan) : Quiet (chanClay tb closes k c) :=
  ⟨rfl, rfl, rfl, rfl⟩

theorem quiet_clayHardware (s : State) (n : Fin 32) : Quiet (clayHardware s).out.ch[n] := by
  simp only [clayHardware, vmapIdx_get]
  exact quiet_chanClay _ _ _ _

protected theorem Calm.clayHardware (h : Calm Q B s) : Calm Q B (clayHardware s) :=
  .stilled (quiet_clayHardware s) (.update h.queues (hch := fun q => q.elim))

protected theorem Calm.clayEntry (h : Calm Q B s) : Calm Q B (clayEntry s) :=
  .applyAtClay (.cutHanded (.abortSweep (.syncFreeze (.clayHardware (.warnSwaps (.discardSched h))))))

/-- Every channel is quiet after Clay entry (R22, R229). -/
theorem quiet_clayEntry (s : State) (n : Fin 32) : Quiet (clayEntry s).out.ch[n] := by
  have hch : (clayEntry s).out.ch = (clayHardware (warnSwaps
      (discardSched (fun c => c.q.pkt.opcode != 0x02) s))).out.ch := by
    simp only [clayEntry, applyAtClay_frame, cutHanded_frame, abortSweep_ch, syncFreeze_frame]
  rw [hch]
  exact quiet_clayHardware _ n

/-- A state in Clay through Clay entry, whatever it was before. -/
protected theorem Calm.entered (h : Calm False B s) : Calm Q B (clayEntry s) := .stilled (quiet_clayEntry s) h.clayEntry

protected theorem Calm.enterClay {c : Fin 11} (h : Calm Q B s) : Calm Q B (enterClay c s) := by
  unfold Machine.enterClay
  split
  · exact .update h
  · exact .entered (.update h.queues (hclay := fun q => q.elim))

protected theorem Calm.liftCause {c : Fin 11} (h : Calm Q B s) : Calm Q B (liftCause c s) := .update h

protected theorem Calm.hostClay {c : Fin 11} (h : Calm Q B s) : Calm Q B (hostClay c s) :=
  .sendSafe (.enterClay h)

protected theorem Calm.enterSilt {why : BitVec 4} (h : Calm Q B s) : Calm Q B (enterSilt why s) :=
  .hostClay (.update h)

protected theorem Calm.enterLoam (h : Calm Q B s) : Calm Q B (enterLoam s) := .liftCause (.update h)

protected theorem Calm.raise {side : Side} {code : BitVec 16} {sev : BitVec 2} {chan : Byte} {data : List Byte}
    (h : Calm Q B s) : Calm Q B (raise side code sev chan data s) := by
  unfold Machine.raise
  extract_lets nested opens s1 s2
  have h1 : Calm Q B s1 := .note h
  have h2 : Calm Q B s2 := by
    unfold s2
    split
    · exact .hostClay h1
    · exact .enterClay (.toFieldFrame h1)
  exact .ite (.ite (.enterSilt h2) h2) h1

protected theorem Calm.releaseClay (h : Calm Q B s) : Calm Q B (releaseClay s) :=
  .awake rfl (.update h.queues (hclay := fun q => q.elim))

protected theorem Calm.draw (h : Calm Q B s) : Calm Q B (draw s) := .frame h (by simp)

protected theorem Calm.queueUp {f : ChainFrame} (h : Calm Q B s) : Calm Q B (queueUp f s) := .frame h (by simp)

protected theorem Calm.outDown {f : ChainFrame} (h : Calm Q B s) : Calm Q B (outDown f s) := .frame h (by simp)

protected theorem Calm.sendDown {f : ChainFrame} (h : Calm Q B s) : Calm Q B (sendDown f s) := .frame h (by simp)

protected theorem Calm.sendUp {f : ChainFrame} (h : Calm Q B s) : Calm Q B (sendUp f s) := .frame h (by simp)

protected theorem Calm.loadReply {p : Packet} (h : Calm Q B s) : Calm Q B (loadReply p s) := .frame h (by simp)

protected theorem Calm.mailReply {p : Packet} (h : Calm Q B s) : Calm Q B (mailReply p s) := .frame h (by simp)

protected theorem Calm.mailNoReply (h : Calm Q B s) : Calm Q B (mailNoReply s) := .frame h (by simp)

protected theorem Calm.routeReply {via : Via} {p : Packet} (h : Calm Q B s) :
    Calm Q B (routeReply via p s) := .frame h (by simp)

protected theorem Calm.closeWindow {q : Request} (h : Calm Q B s) : Calm Q B (closeWindow q s) := .frame h (by simp)

protected theorem Calm.remember {q : Request} (h : Calm Q B s) : Calm Q B (remember q s) := .frame h (by simp)

protected theorem Calm.storeReply {q : Request} {ps : List Packet} (h : Calm Q B s) :
    Calm Q B (storeReply q ps s) := .frame h (by simp)

protected theorem Calm.payOwed {q : Request} {a : Ans} (h : Calm Q B s) : Calm Q B (payOwed q a s) := .frame h (by simp)

protected theorem Calm.reply {q : Request} {a : Ans} (h : Calm Q B s) : Calm Q B (reply q a s) := .frame h (by simp)

protected theorem Calm.perform {o : Op} {q : Request} (ho : KeepsCalm Q B o) (h : Calm Q B s) :
    Calm Q B (perform o q s).1 := by
  unfold Machine.perform
  split
  · exact h
  · exact ho.act _ _ h

protected theorem Calm.countAccepted {via : Via} (h : Calm Q B s) : Calm Q B (countAccepted via s) := .frame h (by simp)

protected theorem Calm.issue {q : Request} (h : Calm Q B s) : Calm Q B (issue q s) := .frame h (by simp)

protected theorem Calm.forwardIn {q : Request} (h : Calm Q B s) : Calm Q B (forwardIn q s) := .frame h (by simp)

protected theorem Calm.throughArena {q : Request} {go : State → State}
    (hgo : ∀ {s}, Calm Q B s → Calm Q B (go s)) (h : Calm Q B s) : Calm Q B (throughArena q go s) := by
  have harena : Calm Q B (chainArena q s).2 := h.frame (by simp)
  unfold Machine.throughArena
  split <;> rename_i hbook <;> rw [hbook] at harena
  · exact hgo harena
  · exact .reply harena
  · exact .reply harena

protected theorem Calm.keepSched {o : Op} {q : Request} (ho : KeepsCalm Q B o) (h : Calm Q B s) :
    Calm Q B (keepSched o q s) := .ite (ho.hand _ _ (.update h)) (.update h)

protected theorem Calm.actNow {o : Op} {q : Request} (ho : KeepsCalm Q B o) (h : Calm Q B s) :
    Calm Q B (actNow o q s).1 := by
  unfold Machine.actNow
  split
  · split
    · exact h
    · exact .keepSched ho (ho.onAccept _ _ h)
  · exact .perform ho h

protected theorem Calm.actOn {o : Op} {q : Request} (ho : KeepsCalm Q B o) (h : Calm Q B s) :
    Calm Q B (actOn o q s) := by
  have hact : Calm Q B (actNow o q (owe q s)).1 := .actNow ho (.ite (.update h) h)
  unfold Machine.actOn
  generalize actNow o q (owe q s) = r at hact ⊢
  obtain ⟨u, _ | a⟩ := r
  · exact .ite (.ite (.closeWindow hact) hact) (ho.after _ _ (.ite (.closeWindow hact) hact))
  · exact .ite (.ite (.closeWindow (.reply hact)) (.reply hact))
      (ho.after _ _ (.ite (.closeWindow (.reply hact)) (.reply hact)))

protected theorem Calm.process {o : Op} {q : Request} (ho : KeepsCalm Q B o) (h : Calm Q B s) :
    Calm Q B (process o q s) := by
  unfold Machine.process
  split
  · exact .reply h
  · exact .ite (.throughArena (.actOn ho) h) (.actOn ho h)

protected theorem Calm.relay {q : Request} (h : Calm Q B s) : Calm Q B (relay q s) := by
  unfold Machine.relay
  extract_lets u
  have hu : Calm Q B u := .countAccepted h
  split
  · exact .reply (.ite (.update hu) hu)
  · have harena : Calm Q B (if mayIssue u then throughArena q (forwardIn q) u else u) :=
      .ite (.throughArena .forwardIn hu) hu
    exact .ite (.mailNoReply harena) harena

protected theorem Calm.takeIn {q : Request} {next : State → State}
    (hnext : ∀ {s}, Calm Q B s → Calm Q B (next s)) (h : Calm Q B s) : Calm Q B (takeIn q next s) := by
  unfold Machine.takeIn
  split
  · exact .reply h
  · refine .ite (.ite (.mailNoReply h) h) (.ite (.reply h) (.ite (.relay h) ?_))
    split
    · exact .ite (.ite (.mailNoReply h) (.foldl (fun _ => .routeReply) h)) (.foldl (fun _ => .routeReply) h)
    · exact hnext (.countAccepted (.remember h))

protected theorem Calm.serve {o : Op} {q : Request} (ho : KeepsCalm Q B o) (h : Calm Q B s) :
    Calm Q B (serve o q s) := .ite (.takeIn (.process ho) h) h

/-! ## CAN state -/

protected theorem Calm.setCan {p : CanPort} {c : Can} (h : Calm Q B s) : Calm Q B (setCan p c s) := .frame h (by simp)

protected theorem Calm.dropClaim (h : Calm Q B s) : Calm Q B (dropClaim s) := .frame h (by simp)

/-! ## Output channels -/

/-- A change of a channel that, in Clay, keeps it quiet. -/
protected theorem Calm.setChWhere {n : Fin 32} {f : Chan → Chan} (h : Calm Q B s)
    (hf : Q → s.modes.clay = true → Quiet s.out.ch[n] → Quiet (f s.out.ch[n])) : Calm Q B (setCh n f s) := by
  obtain ⟨hq, hb⟩ := h
  refine ⟨fun q hin m => ?_, hb⟩
  have hin : s.modes.clay = true := hin
  rw [Fin.getElem_fin, setCh_get]
  split
  · exact hf q hin (hq q hin n)
  · exact hq q hin m

protected theorem Calm.setCh {n : Fin 32} {f : Chan → Chan} (h : Calm Q B s)
    (hf : ∀ c, Quiet c → Quiet (f c) := by exact fun _ h => h) : Calm Q B (setCh n f s) :=
  h.setChWhere fun _ _ => hf _

protected theorem Calm.noteTurn {old : State} {d : Fin 32} (h : Calm Q B s) : Calm Q B (noteTurn old d s) :=
  .ite h (.setCh h)

protected theorem Calm.noteLatch {n : Fin 32} (h : Calm Q B s) : Calm Q B (noteLatch n s) := .note h

theorem Quiet.countTrip {n : Nat} {src : TripSrc} {c : Chan} (h : Quiet c) : Quiet (countTrip n src c) := by
  unfold Machine.countTrip
  split <;> exact h

theorem Quiet.closePeriod {k : Nat} {c : Chan} (h : Quiet c) : Quiet (closePeriod k c) := by
  unfold Machine.closePeriod
  split
  · exact h
  · split <;> exact h

protected theorem Calm.trip {d : Fin 32} {src : TripSrc} (h : Calm Q B s) : Calm Q B (trip d src s) := by
  unfold Machine.trip
  extract_lets m was at' retry u
  have hu : Calm Q B u := h.setCh fun _ hc => (Quiet.countTrip hc : Quiet (countTrip _ _ _))
  exact .ite (.noteLatch hu) hu

protected theorem Calm.tripOff {d : Fin 32} {src : TripSrc} (h : Calm Q B s) : Calm Q B (tripOff d src s) :=
  .foldl (fun _ => .noteTurn) (.trip h)

protected theorem Calm.openBlank {d : Fin 32} (h : Calm Q B s) : Calm Q B (openBlank d s) := .setCh h

protected theorem Calm.driverStart {d : Fin 32} (h : Calm Q B s) : Calm Q B (driverStart d s) := by
  unfold Machine.driverStart
  refine .ite (.openBlank h) ?_
  extract_lets blanked u
  have hu : Calm Q B u := .setCh h
  split
  · exact .trip hu
  · exact .openBlank (.setCh hu)

protected theorem Calm.resumed {old : State} (h : Calm Q B s) : Calm Q B (resumed old s) :=
  .foldl (fun _ => .noteTurn) (.foldl (fun _ h => .ite (.driverStart h) h) h)

protected theorem Calm.edges {old : State} (h : Calm Q B s) : Calm Q B (edges old s) :=
  .foldl (fun _ => .noteTurn)
    (.foldl (fun _ h => .ite h (.ite (.driverStart h) (.ite (.openBlank (.setCh h)) h))) h)

protected theorem Calm.chopEdges {old : State} (h : Calm Q B s) : Calm Q B (chopEdges old s) :=
  .foldl (fun _ => .noteTurn) (.foldl (fun _ h => .ite (.openBlank h) h) h)

protected theorem Calm.judge {d : Fin 32} (h : Calm Q B s) : Calm Q B (judge d s) := by
  unfold Machine.judge
  extract_lets s1 g _ s2 _ s3 s4
  have h1 : Calm Q B s1 := .setCh h
  have h2 : Calm Q B s2 := by
    clear_value g
    cases g with
    | granted => exact .update h1
    | staggered => exact h1
    | refused => exact h1
  have h3 : Calm Q B s3 := .ite (.update h2) h2
  exact .setCh (.ite (.note h3) h3)

protected theorem Calm.rebudget {n : Fin 32} {was : Bool} (h : Calm Q B s) : Calm Q B (rebudget n was s) :=
  .foldl (fun _ h => .ite h (.ite (.judge h) (.ite (.setCh h) h))) h

protected theorem Calm.closePeriods {n : Fin 32} (h : Calm Q B s) : Calm Q B (closePeriods n s) :=
  .foldl (fun _ h => .ite h (h.setCh fun _ => .closePeriod)) h

protected theorem Calm.startPeak {n : Fin 32} (h : Calm Q B s) : Calm Q B (startPeak n s) := .setCh h

protected theorem Calm.startPhase {n : Fin 32} {t0 : Nat} (h : Calm Q B s) : Calm Q B (startPhase n t0 s) :=
  .ite h (.setCh h)

/-- A period that is loaded out of Clay. -/
protected theorem Calm.loadPeriod {t : BitVec 64} {fine : BitVec 5} {n : Fin 32} (h : Calm Q B s)
    (hout : Q → s.modes.clay = false) : Calm Q B (loadPeriod t fine n s) := by
  unfold Machine.loadPeriod
  extract_lets offAt onAt out was u
  have hu : Calm Q B u := h.setChWhere fun q hin => by rw [hout q] at hin; exact Bool.noConfusion hin
  exact .ite (.startPhase (.setCh hu)) (.ite (.setCh hu) hu)

protected theorem Calm.fanGate {n : Fin 32} {on : Bool} (h : Calm Q B s) : Calm Q B (fanGate n on s) := .update h

/-- A gate goes off anywhere, and on out of Clay alone. -/
protected theorem Calm.setGateAt {fine : BitVec 5} {n : Fin 32} {on : Bool} (h : Calm Q B s)
    (hon : Q → on = true → s.modes.clay = false) : Calm Q B (setGateAt fine n on s) := by
  unfold Machine.setGateAt
  refine .ite h ?_
  extract_lets s1 _ s2
  have hin (q : Q) (hclay : s.modes.clay = true) : on = false := by
    cases on
    · rfl
    · rw [hon q rfl] at hclay; exact Bool.noConfusion hclay
  have h1 : Calm Q B s1 := (Calm.fanGate h).setChWhere fun q hclay hc => ⟨hin q hclay, hc.2⟩
  have h2 : Calm Q B s2 := by
    unfold s2
    split
    · next hgate =>
      exact .ite (.setCh h1) (.startPeak (.loadPeriod (.closePeriods h1) fun q => by simpa [s1] using hon q hgate))
    · exact .setCh (.ite (.closePeriods h1) h1) fun c hc => ⟨hc.1, hc.2.1, rfl, hc.2.2.2⟩
  exact .rebudget (.edges h2)

protected theorem Calm.gateOff {n : Fin 32} (h : Calm Q B s) : Calm Q B (setGate n false s) :=
  h.setGateAt fun _ hon => Bool.noConfusion hon

/-- An override is set out of Clay alone, and cleared anywhere. -/
protected theorem Calm.setOverride {n : Fin 32} {o : Override} (h : Calm Q B s)
    (hout : Q → s.modes.clay = true → o = .none) : Calm Q B (setOverride n o s) :=
  .rebudget (.edges (h.setChWhere fun q hin hc => ⟨hc.1, hout q hin, hc.2.2⟩))

protected theorem Calm.loadTables (h : Calm Q B s) : Calm Q B (loadTables s) := by
  refine .update h (hch := fun _ n hc => ?_)
  simp only [vmapIdx_get]
  split <;> exact hc

protected theorem Calm.sendBatch {es : List Edge} (h : Calm Q B s) : Calm Q B (sendBatch es s) := .frame h (by simp)

protected theorem Calm.sendEdges {es : List Edge} (h : Calm Q B s) : Calm Q B (sendEdges es s) := by
  induction es, s using sendEdges.induct with
  | case1 => exact h
  | case2 => exact .sendBatch h
  | case3 _ _ _ _ ih => exact ih (.sendBatch h)

protected theorem Calm.recordActed {p : Pred} {e : Edge} {f : Frame48} {tick : Nat} {late : Bool}
    (h : Calm Q B s) : Calm Q B (recordActed p e f tick late s) := .frame h (by simp)

protected theorem Calm.recordEdge {e : Edge} (h : Calm Q B s) : Calm Q B (recordEdge e s) := .frame h (by simp)

protected theorem Calm.reportEdge {e : Edge} (h : Calm Q B s) : Calm Q B (reportEdge e s) := .frame h (by simp)

protected theorem Calm.edgeExecute {n : Fin 32} (h : Calm Q B s) : Calm Q B (edgeExecute n s) := by
  unfold Machine.edgeExecute
  split
  · exact h
  · split
    · exact h
    · next hclay =>
      exact .awake (by simpa using hclay) (.reportEdge (.recordEdge (.setGateAt
        (.setChWhere (.loadTables (.advanceTo h.queues)) fun q => q.elim) fun q => q.elim)))

protected theorem Calm.recordLate {d : Fin 32} (h : Calm Q B s) : Calm Q B (recordLate d s) := .frame h (by simp)

protected theorem Calm.rejudge {d : Fin 32} (h : Calm Q B s) : Calm Q B (rejudge d s) := by
  unfold Machine.rejudge
  extract_lets s0 _ s1 g _ s2 s3
  have h1 : Calm Q B s1 := .setCh h
  have h2 : Calm Q B s2 := .ite (.update h1) h1
  have h3 : Calm Q B s3 := .setCh h2
  exact .resumed (.ite (.ite (.recordLate (.setCh (.update h))) h) (.ite (.recordLate h3) h3))

protected theorem Calm.staggerEnergise (h : Calm Q B s) : Calm Q B (staggerEnergise s) :=
  .ite h (.foldl (fun _ => .rejudge) (.advanceTo h))

protected theorem Calm.generatorEdge {n : Fin 32} (h : Calm Q B s) : Calm Q B (generatorEdge n s) := by
  unfold Machine.generatorEdge
  refine .ite h ?_
  split
  · exact h
  · exact .edges (.startPeak (.startPhase (.setCh (.advanceTo h))))

protected theorem Calm.retryTripped {n : Fin 32} (h : Calm Q B s) : Calm Q B (retryTripped n s) :=
  .foldl (fun _ h => .ite (.driverStart h) h) h

/-- A generator runs out of Clay alone, so its next period is loaded there. -/
protected theorem Calm.periodBoundary {n : Fin 32} (h : Calm Q B s) : Calm Q B (periodBoundary n s) := by
  unfold Machine.periodBoundary
  extract_lets c t s1 u v
  split
  · exact h
  · next hgen =>
    have hout (q : Q) : s.modes.clay = false := by
      by_contra hin
      obtain ⟨-, -, hoff, -⟩ := h.1 q (by simpa using hin) n
      exact hgen (by simpa [c] using hoff)
    have hu : Calm Q B u := .loadPeriod (.closePeriods (.advanceTo h)) fun q => by simpa [s1] using hout q
    exact .retryTripped (.edges (.ite hu (.startPeak hu)))

protected theorem Calm.countingPeriodEnd {n : Fin 32} (h : Calm Q B s) : Calm Q B (countingPeriodEnd n s) :=
  .ite h ((Calm.toEdge h).setCh fun _ => .closePeriod)

protected theorem Calm.calMeasure {spanOk : Bool} {tap : Byte} (h : Calm Q B s) :
    Calm Q B (calMeasure spanOk tap s) := by
  unfold Machine.calMeasure
  extract_lets s1 near s2 o
  have h1 : Calm Q B s1 := .toEdge h
  have h2 : Calm Q B s2 := .loadTables h1
  exact .ite h1 (.ite (.update h2) (.ite (.note (.update h2)) (.update h2)))

protected theorem Calm.shortTrip {n : Fin 32} (h : Calm Q B s) : Calm Q B (shortTrip n s) :=
  .ite h (.setCh (.setCh (.tripOff h)))

protected theorem Calm.tripInput {i : Fin 4} {level : Bool} (h : Calm Q B s) : Calm Q B (tripInput i level s) :=
  .ite (.foldl (fun _ h => .ite (.tripOff h) h) (.update h)) (.update h)

protected theorem Calm.overtempTrip {n : Fin 32} (h : Calm Q B s) : Calm Q B (overtempTrip n s) :=
  .setCh (.ite (.tripOff h) h)

protected theorem Calm.blankingEnd {n : Fin 32} {sample : BitVec 12} (h : Calm Q B s) :
    Calm Q B (blankingEnd n sample s) := by
  unfold Machine.blankingEnd
  extract_lets m u
  have hu : Calm Q B u := .setCh h
  refine .ite h (.ite hu (.ite (.tripOff hu) ?_))
  split
  · exact .tripOff hu
  · exact hu

protected theorem Calm.tripRetry {n : Fin 32} (h : Calm Q B s) : Calm Q B (tripRetry n s) := by
  unfold Machine.tripRetry
  split
  · exact h
  · exact .ite (.noteTurn (.driverStart (.advanceTo h))) (.setCh (.advanceTo h))

protected theorem Calm.takeSample {n : Fin 32} {x : BitVec 12} (h : Calm Q B s) : Calm Q B (takeSample n x s) :=
  .ite (.setCh h) h

protected theorem Calm.sampleDrivers {n : Fin 32} {x : BitVec 12} (h : Calm Q B s) : Calm Q B (sampleDrivers n x s) :=
  .foldl (fun _ => .takeSample) h

protected theorem Calm.peakEnd {n : Fin 32} {sample : BitVec 12} (h : Calm Q B s) : Calm Q B (peakEnd n sample s) := by
  unfold Machine.peakEnd
  refine .ite h ?_
  extract_lets reached s1 s2 s3
  have h3 : Calm Q B s3 := .setCh (.sampleDrivers (.ite h (.advanceTo h)))
  exact .ite h3 (.noteEpoch h3)

protected theorem Calm.holdOff {n : Fin 32} (h : Calm Q B s) : Calm Q B (holdOff n s) := .chopEdges (.setCh h)

protected theorem Calm.holdChop {n : Fin 32} {sample : BitVec 12} (h : Calm Q B s) : Calm Q B (holdChop n sample s) :=
  .ite h (.ite (.holdOff (.sampleDrivers h)) (.holdOff (.advanceTo h)))

protected theorem Calm.holdStart {n : Fin 32} (h : Calm Q B s) : Calm Q B (holdStart n s) :=
  .ite h (.chopEdges (.setCh (.advanceTo (.ite h (.holdOff (.advanceTo h))))))

protected theorem Calm.lampResult {n : Fin 32} {kind : Fin 3} {off : Bool} (h : Calm Q B s) :
    Calm Q B (lampResult n kind off s) := .ite (.note (.setCh h)) (.ite (.note (.setCh h)) (.setCh h))

protected theorem Calm.lampMeasure {n : Fin 32} {samples : List (BitVec 12)} (h : Calm Q B s) :
    Calm Q B (lampMeasure n samples s) := .ite (.lampResult (.foldl (fun _ => .takeSample) h)) h

protected theorem Calm.lampOffMeasure {n : Fin 32} {mv : Nat} (h : Calm Q B s) : Calm Q B (lampOffMeasure n mv s) :=
  .ite (.lampResult h) h

protected theorem Calm.epochOutputs (h : Calm Q B s) : Calm Q B (epochOutputs s) :=
  .foldl (fun _ => .note) (.update (.loadTables h) (hch := fun _ n hc => by simp only [vmapIdx_get]; exact hc))

protected theorem Calm.disagreeOn {n : Fin 32} {x : BitVec 12} (h : Calm Q B s) : Calm Q B (disagreeOn n x s) :=
  .ite (.ite (.note (.setCh (.takeSample h))) (.noteLatch (.note (.setCh (.takeSample h))))) h

protected theorem Calm.disagreeOff {n : Fin 32} {x : BitVec 12} (h : Calm Q B s) : Calm Q B (disagreeOff n x s) :=
  .ite (.note (.setCh (.takeSample h))) h

protected theorem Calm.openDisc {reason : BitVec 2} (h : Calm Q B s) : Calm Q B (openDisc reason s) :=
  .raise (.update h (hch := fun _ n hc => by simp only [vmap_get]; exact hc))

protected theorem Calm.closeDisc (h : Calm Q B s) : Calm Q B (closeDisc s) := .ite (.update h) h

protected theorem Calm.judgeInverted (h : Calm Q B s) : Calm Q B (judgeInverted s) :=
  .foldl (fun _ h => .ite (.judge h) h) h

protected theorem Calm.leaveClay (h : Calm Q B s) : Calm Q B (leaveClay s) :=
  .resumed (.judgeInverted (.releaseClay h))

/-! ## Sense inputs and fans -/

protected theorem Calm.setIn {n : Fin 16} {f : SinIn → SinIn} (h : Calm Q B s) : Calm Q B (setIn n f s) :=
  .frame h (by simp)

protected theorem Calm.setFan {j : Fin 2} {f : Fan → Fan} (h : Calm Q B s) : Calm Q B (setFan j f s) :=
  .frame h (by simp)

protected theorem Calm.setOn {n : Fin 32} {m : SetMasks} (h : Calm Q B s) (hout : Q → s.modes.clay = false) :
    Calm Q B (setOn n m s).2 := by
  have hset {o : Override} : Calm Q B (setOverride n o s) :=
    h.setOverride fun q hin => by rw [hout q] at hin; exact Bool.noConfusion hin
  unfold Machine.setOn
  dsimp only
  exact .iteSnd (.iteSnd h hset) (.iteSnd ⟨h.1, hset.2⟩ (.iteSnd hset hset))

protected theorem Calm.setRun {n : Fin 32} {m : SetMasks} (h : Calm Q B s) : Calm Q B (setRun n m s).2 :=
  have hset : Calm Q B (setOverride n .none s) := h.setOverride fun _ _ => rfl
  .iteSnd hset (.iteSnd hset hset)

protected theorem Calm.setOutputs {mask : Word} {action : Nat} (h : Calm Q B s) (hout : Q → s.modes.clay = false) :
    Calm Q B (setOutputs mask action s).2 := by
  have hkeep : Calm Q B (setOutputs mask action s).2 ∧ (setOutputs mask action s).2.modes = s.modes := by
    refine foldl_inv (fun p : SetMasks × State => Calm Q B p.2 ∧ p.2.modes = s.modes) _ (fun p n hp => ?_) _ _ ⟨h, rfl⟩
    obtain ⟨hcalm, hmodes⟩ := hp
    have hawake (q : Q) : p.2.modes.clay = false := by rw [hmodes]; exact hout q
    dsimp only
    split
    · exact ⟨hcalm.setOverride fun q hin => by rw [hawake q] at hin; exact Bool.noConfusion hin, by simpa using hmodes⟩
    · split
      · exact ⟨hcalm.setOn hawake, by simpa using hmodes⟩
      · exact ⟨hcalm.setRun, by simpa using hmodes⟩
  exact hkeep.1

protected theorem Calm.remoteSet {j : Fin 2} {action : Byte} (h : Calm Q B s) : Calm Q B (remoteSet j action s) := by
  unfold Machine.remoteSet
  refine .ite ?_ h
  extract_lets mask p u v
  have hv : Calm Q B v := .setFan (.sendDown (.draw h))
  split
  · exact hv
  · next hclay => exact hv.setOutputs fun _ => by simpa using hclay

protected theorem Calm.closeHeld {old : State} (h : Calm Q B s) : Calm Q B (closeHeld old s) :=
  .resumed (.foldl (fun _ h => .ite (h.setCh fun _ => .closePeriod) h) h)

protected theorem Calm.stallFan {j : Fin 2} (h : Calm Q B s) : Calm Q B (stallFan j s) :=
  .remoteSet (.note (.syncFreeze (.closeHeld (.setFan h))))

protected theorem Calm.runFan {j : Fin 2} (h : Calm Q B s) : Calm Q B (runFan j s) := by
  unfold Machine.runFan
  extract_lets old s1 s2 s3
  have h2 : Calm Q B s2 := .syncFreeze (.closeHeld (.setFan h))
  have h3 : Calm Q B s3 := .ite (.note h2) h2
  exact .ite (.remoteSet h3) h3

protected theorem Calm.tachInterval {stamp start : BitVec 64} {j : Fin 2} (h : Calm Q B s) :
    Calm Q B (tachInterval stamp start s j) := .ite (.runFan (.toFrame (.setFan h))) (.setFan h)

protected theorem Calm.quadEdge {n : Fin 16} {both : Bool} (h : Calm Q B s) : Calm Q B (quadEdge n both s) :=
  .frame h (by simp)

protected theorem Calm.sinEdge {n : Fin 16} {rising both : Bool} {stamp : BitVec 64} (h : Calm Q B s) :
    Calm Q B (sinEdge n rising both stamp s) := by
  unfold Machine.sinEdge
  refine .ite h ?_
  extract_lets old s1 s2 s3 s4
  have h2 : Calm Q B s2 := .foldl (fun _ => .setFan) (.setIn h)
  have h3 : Calm Q B s3 := .setIn h2
  have h4 : Calm Q B s4 := by
    refine .ite ?_ h2
    split
    · exact h3
    · exact .foldl (fun _ => .tachInterval) h3
  exact .ite (.quadEdge h4) h4

protected theorem Calm.sinUpdate {means : List Nat} (h : Calm Q B s) : Calm Q B (sinUpdate means s) :=
  .frame h (by simp)

protected theorem Calm.switchAccept {n : Fin 16} {ohms : Nat} (h : Calm Q B s) :
    Calm Q B (switchAccept n ohms s) := .frame h (by simp)

protected theorem Calm.tachBreak {j : Fin 2} (h : Calm Q B s) : Calm Q B (tachBreak s j) :=
  .ite h (.ite (.note (.syncFreeze (.setFan h))) (.setIn (.setFan h)))

protected theorem Calm.wireOpen {n : Fin 16} (h : Calm Q B s) : Calm Q B (wireOpen n s) :=
  .ite h (.foldl (fun _ => .tachBreak) (.setIn h))

protected theorem Calm.fanStall {j : Fin 2} (h : Calm Q B s) : Calm Q B (fanStall j s) := by
  refine .ite h ?_
  split
  · exact h
  · exact .stallFan (.advanceTo h)

protected theorem Calm.openLim {j : Fin 2} (h : Calm Q B s) : Calm Q B (openLim j s) :=
  .ite (.stallFan (.advanceTo h)) h

protected theorem Calm.restartFan {j : Fin 2} (h : Calm Q B s) : Calm Q B (restartFan j s) :=
  .ite h (.syncFreeze (.closeHeld (.setFan h)))

protected theorem Calm.repeatHolds (h : Calm Q B s) : Calm Q B (repeatHolds s) :=
  .foldl (fun _ h => .ite (.remoteSet h) h) h

protected theorem Calm.fanRewritten {j : Fin 2} {old : Word} (h : Calm Q B s) :
    Calm Q B (fanRewritten j old s) := .ite h (.syncFreeze (.closeHeld (.setFan h)))

protected theorem Calm.sinRewritten {n : Fin 16} {old : Word} (h : Calm Q B s) :
    Calm Q B (sinRewritten n old s) := .frame h (by simp)

protected theorem Calm.sinCntclr {value : Word} (h : Calm Q B s) : Calm Q B (sinCntclr value s) := .frame h (by simp)

/-! ## The loop engine: it writes the loop tables -/

protected theorem Calm.setSlot {i : Fin 16} {f : Slot → Slot} (h : Calm Q B s) : Calm Q B (setSlot i f s) := .update h

protected theorem Calm.noteSat {i : Fin 16} {bits : BitVec 5} (h : Calm Q B s) : Calm Q B (noteSat i bits s) :=
  .ite h (.noteEpoch (.setSlot h))

protected theorem Calm.setActive {i : Fin 16} {b : Vector Word 17} (h : Calm Q B s) : Calm Q B (setActive i b s) :=
  .ite (.noteSat (.setSlot h)) (.note (.noteSat (.setSlot h)))

protected theorem Calm.applyCell {c : CoefCell} (h : Calm Q B s) : Calm Q B (applyCell c s) :=
  .ite (.setSlot h) (.setActive h)

protected theorem Calm.applyCells {i : Fin 16} (h : Calm Q B s) : Calm Q B (applyCells i s) :=
  .foldl (fun _ => .applyCell) (.setSlot h)

protected theorem Calm.swapBanks {i : Fin 16} (h : Calm Q B s) : Calm Q B (swapBanks i s) :=
  .setActive (.setSlot h)

protected theorem Calm.writeBound {i : Fin 16} {u e : Int} (h : Calm Q B s) : Calm Q B (writeBound i u e s) :=
  .frame h (by simp)

protected theorem Calm.capture {k : Word} {dly : Nat} {r : Sample} (h : Calm Q B s) :
    Calm Q B (capture k dly r s) := .frame h (by simp)

protected theorem Calm.loopSample {i : Fin 16} {fb : Int} (h : Calm Q B s) : Calm Q B (loopSample i fb s) := by
  unfold Machine.loopSample
  refine .ite h ?_
  extract_lets t s1 _ s2 k s3 s4 mine point work rest dly _
  have h2 : Calm Q B s2 := .update (.advanceTo h)
  have h3 : Calm Q B s3 := .ite (.applyCells (.swapBanks (.applyCells h2))) (.applyCells h2)
  have h4 : Calm Q B s4 := .ite (.takeSample h3) h3
  refine .ite h3 ?_
  clear_value s4
  iterate 3 split
  extract_lets r s5 _ s6 s7 s8
  have h8 : Calm Q B s8 := .writeBound (.noteSat (.setSlot (.update h4)))
  exact .ite (.capture h8) h8

protected theorem Calm.loopSwapAct {i : Fin 16} (h : Calm Q B s) : Calm Q B (loopSwapAct i s) := by
  unfold Machine.loopSwapAct
  split
  · exact h
  · exact .swapBanks (.applyCells (.advanceTo h))

protected theorem Calm.loopStop {m : BitVec 16} (h : Calm Q B s) : Calm Q B (loopStop m s) := .frame h (by simp)

protected theorem Calm.loopRun {m : BitVec 16} (h : Calm Q B s) : Calm Q B (loopRun m s) := .frame h (by simp)

protected theorem Calm.loopReset {m : BitVec 16} (h : Calm Q B s) : Calm Q B (loopReset m s) := .frame h (by simp)

protected theorem Calm.testGo (h : Calm Q B s) : Calm Q B (testGo s).1 := .frame h (by simp)

protected theorem Calm.testAbort (h : Calm Q B s) : Calm Q B (testAbort s) := .frame h (by simp)

protected theorem Calm.captureEnd (h : Calm Q B s) : Calm Q B (captureEnd s) := .frame h (by simp)

protected theorem Calm.loopClr {i : Fin 16} {v : Word} (h : Calm Q B s) : Calm Q B (loopClr i v s) := .frame h (by simp)

protected theorem Calm.coefTaken {c : CoefCell} (h : Calm Q B s) : Calm Q B (coefTaken c s) := by
  unfold Machine.coefTaken
  split
  · exact .upCell h
  · exact .upCell (.ite (.update h) (.ite (.setSlot (.update h)) (.ite (.setSlot (.update h)) (.applyCell
      (.applyCells (.update h))))))

protected theorem Calm.coefCell {c : CoefCell} (h : Calm Q B s) : Calm Q B (coefCell c s) :=
  .onDown .coefTaken h

/-! ## Field registers -/

protected theorem Calm.settleCritical (h : Calm Q B s) : Calm Q B (settleCritical s) := .ite h (.liftCause h)

protected theorem Calm.closeFieldRec {seq : BitVec 31} (h : Calm Q B s) : Calm Q B (closeFieldRec seq s) := by
  have hshut : Calm Q B { s with ev := { s.ev with
      field := s.ev.field.map fun r => if r.seq = seq then { r with opened := false } else r } } :=
    .update h (hfield := by rw [List.length_map]; exact id)
  refine .settleCritical ?_
  split
  · exact .sendEvent hshut
  · exact hshut

protected theorem Calm.loopCmd {v : Word} (h : Calm Q B s) : Calm Q B (loopCmd v s) := .frame h (by simp)

protected theorem Calm.fieldCommand {a : Nat} {v : Word} (h : Calm Q B s) : Calm Q B (fieldCommand a v s) := by
  unfold Machine.fieldCommand
  split
  · exact .update h (hch := fun _ n hc => by simp only [vmap_get]; exact hc)
  · exact .sinCntclr h
  · exact .ite (.loopCmd h) (.ite (.ite (.testGo h) (.ite (.testAbort h) h)) (.loopClr h))
  · exact .ite (.closeFieldRec h) (.ite (.openDisc h) (.ite (.closeDisc h) h))

protected theorem Calm.fieldPut {a : Nat} {v : Word} (h : Calm Q B s) : Calm Q B (fieldPut a v s) := by
  unfold Machine.fieldPut
  split
  · exact h
  · exact .ite (.fieldCommand h) (.ite (.sinRewritten (.setReg h)) (.ite (.fanRewritten (.setReg h)) (.ite
      (.fanRewritten (.setReg h)) (.setReg h))))

protected theorem Calm.fieldWrite {a : Nat} {value mask : Word} (h : Calm Q B s) :
    Calm Q B (fieldWrite a value mask s).1 := by
  unfold Machine.fieldWrite
  split
  · exact h
  · exact .fieldPut h

protected theorem Calm.fieldReadAct {a : Nat} (h : Calm Q B s) : Calm Q B (fieldReadAct a s) := .frame h (by simp)

/-! ## What the field side does for a command -/

protected theorem Calm.orElse {c : Option Ans} {f : State → State × Ans} (h : Calm Q B s)
    (hf : ∀ {s}, Calm Q B s → Calm Q B (f s).1) : Calm Q B (orElse c s f).1 := by
  unfold Machine.orElse
  split
  · exact h
  · exact hf h

/-- OCH_SET sets its channels out of Clay alone (R229). -/
protected theorem Calm.ochSetField {b : List Byte} (h : Calm Q B s) : Calm Q B (ochSetField b s).1 := by
  unfold Machine.ochSetField Machine.orElse
  extract_lets mask action
  split
  · exact h
  · next hnone =>
    have hclay : s.modes.clay = false := by
      by_contra hin
      simp [hin, refuse] at hnone
    have hset : Calm Q B (setOutputs mask action s).2 := h.setOutputs fun _ => hclay
    exact .iteFst hset (.iteFst hset (.iteFst hset hset))

protected theorem Calm.ochTimingField {b : List Byte} (h : Calm Q B s) : Calm Q B (ochTimingField b s).1 :=
  .frame h (by simp)

protected theorem Calm.clearChannel {n : Fin 32} (h : Calm Q B s) : Calm Q B (clearChannel n s) :=
  .ite (.driverStart (.gateOff (.setCh h))) (.gateOff (.setCh h))

protected theorem Calm.ochClearField {b : List Byte} (h : Calm Q B s) : Calm Q B (ochClearField b s).1 :=
  .orElse h (.foldl fun _ => .clearChannel)

protected theorem Calm.cutEdges {es : List Edge} (h : Calm Q B s) : Calm Q B (cutEdges es s) := .frame h (by simp)

protected theorem Calm.dropEdges {mask : Word} (h : Calm Q B s) : Calm Q B (dropEdges mask s) := by
  refine .cutEdges (.update h (hch := fun _ n hc => ?_))
  simp only [vmapIdx_get]
  split
  · exact ⟨hc.1, hc.2.1, hc.2.2.1, rfl⟩
  · exact hc

protected theorem Calm.flushChannels {mask : Word} (h : Calm Q B s) : Calm Q B (flushChannels mask s) :=
  .foldl (fun _ h => .gateOff (.setOverride h fun _ _ => rfl)) (.dropEdges h)

protected theorem Calm.ochFlushField {b : List Byte} (h : Calm Q B s) : Calm Q B (ochFlushField b s).1 :=
  .orElse h .flushChannels

protected theorem Calm.sinReadField (h : Calm Q B s) : Calm Q B (sinReadField s).1 := .frame h (by simp)

protected theorem Calm.fanRestartField {b : List Byte} (h : Calm Q B s) :
    Calm Q B (fanRestartField b s).1 := by
  refine .orElse h (fun h => ?_)
  split
  · exact h
  · exact .restartFan h

protected theorem Calm.loopReadField {b : List Byte} (h : Calm Q B s) : Calm Q B (loopReadField b s).1 :=
  .frame h (by simp)

protected theorem Calm.sweepAbortField {sid : Nat} (h : Calm Q B s) : Calm Q B (sweepAbortField sid s) :=
  .ite (.abortSweep h) h

protected theorem Calm.loaderRead (h : Calm Q B s) : Calm Q B (loaderRead s).1 := .frame h (by simp)

protected theorem Calm.fieldPart {o : FieldOp} (h : Calm Q B s) : Calm Q B (fieldPart o s).1 := by
  unfold Machine.fieldPart
  split
  · exact .ochSetField h
  · exact .ochTimingField h
  · exact .ochClearField h
  · exact .orElse h (fun h => h)
  · exact .ochFlushField h
  · exact .sinReadField h
  · exact .fanRestartField h
  · exact .sweepAbortField h
  · exact .loaderRead h
  · exact .loopReadField h

/-! ## Loss of the barrier link -/

protected theorem Calm.loseTxn {t : RegTxn} (h : Calm Q B s) : Calm Q B (loseTxn t s) := .frame h (by simp)

protected theorem Calm.dropLink (h : Calm Q B s) : Calm Q B (dropLink s) := .frame h (by simp)

protected theorem Calm.stopLink (h : Calm Q B s) : Calm Q B (stopLink s) := .enterClay (.dropLink h)

protected theorem Calm.resumeF (h : Calm Q B s) : Calm Q B (resumeF s) := .ite (.liftCause (.update h)) h

protected theorem Calm.resumeH (h : Calm Q B s) : Calm Q B (resumeH s) := .frame h (by simp)

protected theorem Calm.setLevel {l : Fin 5} (h : Calm Q B s) : Calm Q B (setLevel l s) := by
  unfold Machine.setLevel
  extract_lets falls _ s1 s2 s3
  have h1 : Calm Q B s1 := .update h
  have h2 : Calm Q B s2 := .ite (.resumeF h1) h1
  have h3 : Calm Q B s3 := .ite (.resumeH h2) h2
  exact .ite h1 (.note (.update h3))

/-! ## The time base -/

protected theorem Calm.enterHoldover (h : Calm Q B s) : Calm Q B (enterHoldover s) := .note (.update h)

protected theorem Calm.follow {r : TbRef} (h : Calm Q B s) : Calm Q B (follow r s) := .update h

protected theorem Calm.chooseRef (h : Calm Q B s) : Calm Q B (chooseRef s) :=
  .ite h (.ite (.follow h) (.ite (.ite (.follow h) (.enterHoldover h)) (.ite (.follow h)
    (.ite (.ite (.enterHoldover h) (.follow h)) h))))

protected theorem Calm.ensureTimebase (h : Calm Q B s) : Calm Q B (ensureTimebase s) := .frame h (by simp)

protected theorem Calm.stepTb {d : Int} (h : Calm Q B s) : Calm Q B (stepTb d s) :=
  .note (.update (.discardSched h))

protected theorem Calm.setGpsOrigin (h : Calm Q B s) : Calm Q B (setGpsOrigin s) := .frame h (by simp)

protected theorem Calm.originStep (h : Calm Q B s) : Calm Q B (originStep s) := by
  unfold Machine.originStep
  split
  · exact h
  · refine .ite h ?_
    extract_lets s1 _ s2 s3 _ s4
    have h2 : Calm Q B s2 := .stepTb (.update (.advanceTo h))
    have h4 : Calm Q B s4 := .update (.ite h2 (.hostClay h2))
    exact .ite (.setGpsOrigin h4) h4

protected theorem Calm.insertTime (h : Calm Q B s) : Calm Q B (insertTime s) := .frame h (by simp)

protected theorem Calm.announceStep (h : Calm Q B s) : Calm Q B (announceStep s) := .frame h (by simp)

protected theorem Calm.autoStep (h : Calm Q B s) : Calm Q B (autoStep s) := .frame h (by simp)

protected theorem Calm.slewBy {off10 : Int} (h : Calm Q B s) : Calm Q B (slewBy off10 s) := .frame h (by simp)

protected theorem Calm.steer (h : Calm Q B s) : Calm Q B (steer s) := .frame h (by simp)

protected theorem Calm.adopt {i : TimeInfo} {off10 : Int} (h : Calm Q B s) : Calm Q B (adopt i off10 s) :=
  .update (.stepTb h)

protected theorem Calm.align {i : TimeInfo} {off10 : Int} (h : Calm Q B s) : Calm Q B (align i off10 s) :=
  .update (.ite (.adopt h) (.ite (.slewBy h) (.adopt (.ite h (.hostClay h)))))

protected theorem Calm.takeFlags {i : TimeInfo} (h : Calm Q B s) : Calm Q B (takeFlags i s) := .frame h (by simp)

protected theorem Calm.takeIsland {i : TimeInfo} (h : Calm Q B s) : Calm Q B (takeIsland i s) := .frame h (by simp)

protected theorem Calm.policyClay (h : Calm Q B s) : Calm Q B (policyClay s) := .hostClay (.update h)

protected theorem Calm.duePolicy (h : Calm Q B s) : Calm Q B (duePolicy s) := by
  unfold Machine.duePolicy
  split
  · exact .ite (.policyClay h) h
  · exact h

protected theorem Calm.useTime {i : TimeInfo} {arrival : BitVec 32} (h : Calm Q B s) :
    Calm Q B (useTime i arrival s) :=
  .ite (.duePolicy (.takeIsland h)) (.takeFlags (.ite (.align (.update (.duePolicy (.takeIsland h)))) (.slewBy
    (.update (.duePolicy (.takeIsland h))))))

protected theorem Calm.timeFrame {i : TimeInfo} {residence : Nat} (h : Calm Q B s) :
    Calm Q B (timeFrame i residence s) :=
  .ite h (.ite (.update h) (.ite (.useTime (.sendDown (.update h))) (.sendDown (.update h))))

protected theorem Calm.freshEcho (h : Calm Q B s) : Calm Q B (freshEcho s) := .frame h (by simp)

protected theorem Calm.releaseLines (h : Calm Q B s) : Calm Q B (releaseLines s) := .frame h (by simp)

protected theorem Calm.relockFresh (h : Calm Q B s) : Calm Q B (relockFresh s) :=
  .stopLink (.update (.freshEcho (.releaseLines h)))

protected theorem Calm.coldRelock {why : RelockCause} (h : Calm Q B s) : Calm Q B (coldRelock why s) := by
  unfold Machine.coldRelock
  split
  · exact .ite (.relockFresh h) h
  · exact .ite (.relockFresh h) h
  · exact .ite (.setLevel (.stopLink (.update (.releaseLines h)))) h
  · exact .ite (.setLevel (.stopLink (.update (.releaseLines h)))) h

protected theorem Calm.dpllLock {r : LockRef} (h : Calm Q B s) : Calm Q B (dpllLock r s) := .frame h (by simp)

protected theorem Calm.reloadTb {refCycles : Nat} (h : Calm Q B s) : Calm Q B (reloadTb refCycles s) :=
  .frame h (by simp)

protected theorem Calm.clockUngate {refCycles : Nat} (h : Calm Q B s) : Calm Q B (clockUngate refCycles s) := by
  unfold Machine.clockUngate
  refine .ite h ?_
  extract_lets counts s1 _ s2 s3 _ s4
  have h2 : Calm Q B s2 := .update (.reloadTb h)
  have h3 : Calm Q B s3 := .ite (.note h2) h2
  have h4 : Calm Q B s4 := .ite (.raise (.update h3)) h3
  exact .ensureTimebase (.chooseRef h4)

protected theorem Calm.epochClock (h : Calm Q B s) : Calm Q B (epochClock s) := .frame h (by simp)

protected theorem Calm.readNow (h : Calm Q B s) : Calm Q B (readNow s) := .frame h (by simp)

protected theorem Calm.putTbCtrl {v : Word} (h : Calm Q B s) : Calm Q B (putTbCtrl v s) :=
  .chooseRef (.setReg h)

/-! ## The barrier and its transactions -/

protected theorem Calm.enableLanes (h : Calm Q B s) : Calm Q B (enableLanes s) := .frame h (by simp)

protected theorem Calm.linkUpAbandon (h : Calm Q B s) : Calm Q B (linkUpAbandon s) :=
  .ite h (.ite (.note (.update h)) (.update h))

protected theorem Calm.readOneShot (h : Calm Q B s) : Calm Q B (readOneShot s) := .ite (.update h) h

theorem length_nameField (q : List EventRec) : (nameField q).length = q.length := by simp [nameField]

protected theorem Calm.completeLink {latency : Nat} (h : Calm Q B s) : Calm Q B (completeLink latency s) := by
  unfold Machine.completeLink
  extract_lets _ s1 _ _ s2
  have h1 : Calm Q B s1 := .update h
  have h2 : Calm Q B s2 := by
    refine .ite (.update h1 (hhost := ?_)) h1
    rw [length_nameField]
    exact id
  exact .liftCause (.liftCause (.update (.readOneShot h2)))

protected theorem Calm.epochBarrier (h : Calm Q B s) : Calm Q B (epochBarrier s) := .frame h (by simp)

protected theorem Calm.passUp {bad : Bool} (h : Calm Q B s) : Calm Q B (passUp bad s) := .frame h (by simp)

protected theorem Calm.rejectUp {why : CellDrop} (h : Calm Q B s) : Calm Q B (rejectUp why s) :=
  .checkDrops (.update (.passUp h))

protected theorem Calm.rejectDown {why : CellDrop} (h : Calm Q B s) : Calm Q B (rejectDown why s) :=
  .update (.passDown h)

protected theorem Calm.cellReject {side : Side} {why : CellDrop} {inMessage : Bool} (h : Calm Q B s) :
    Calm Q B (cellReject side why inMessage s) := by
  unfold Machine.cellReject
  split
  · split
    · exact h
    · exact .ite h (.ite (.rejectUp (.ite (.seqUp h) h)) (.ite (.seqUp h) h))
  · exact .ite (.rejectDown h) h

protected theorem Calm.clearBarr {v : Word} (h : Calm Q B s) : Calm Q B (clearBarr v s) := .frame h (by simp)

protected theorem Calm.heartbeatSend {side : Side} (h : Calm Q B s) : Calm Q B (heartbeatSend side s) :=
  .frame h (by simp)

protected theorem Calm.hostBeat {alive ack : BitVec 16} {halted : Bool} {hbto : BitVec 16} (h : Calm Q B s) :
    Calm Q B (hostBeat alive ack halted hbto s) := .ite (.liftCause (.update h)) (.update h)

protected theorem Calm.checkSafe {ack : BitVec 16} {c q t : Byte} (h : Calm Q B s) :
    Calm Q B (checkSafe ack c q t s) := .frame h (by simp)

protected theorem Calm.fieldBeat {alive ack : BitVec 16} {halted : Bool} {c q t : Byte} {active : BitVec 16}
    (h : Calm Q B s) : Calm Q B (fieldBeat alive ack halted c q t active s) :=
  .checkDrops (.update (.checkSafe (.update h)))

protected theorem Calm.heartbeat {b : Heartbeat} (h : Calm Q B s) : Calm Q B (heartbeat b s) := by
  unfold Machine.heartbeat
  split
  · exact .onDown .hostBeat h
  · exact .onUp .fieldBeat h

protected theorem Calm.safeTaken {causes : BitVec 16} (h : Calm Q B s) : Calm Q B (safeTaken causes s) :=
  .foldl (fun _ h => .ite (.enterClay h) h) (.toFieldFrame h)

protected theorem Calm.safeReq {causes : BitVec 16} (h : Calm Q B s) : Calm Q B (safeReq causes s) :=
  .onDown .safeTaken h

protected theorem Calm.syncTaken {tb : BitVec 64} (h : Calm Q B s) : Calm Q B (syncTaken tb s) :=
  .ite h (.update (.toFieldFrame (.note (.update h))))

protected theorem Calm.timeSync {tb : BitVec 64} (h : Calm Q B s) : Calm Q B (timeSync tb s) := .onDown .syncTaken h

protected theorem Calm.sendTxn {t0 : RegTxn} (h : Calm Q B s) : Calm Q B (sendTxn t0 s) := .frame h (by simp)

protected theorem Calm.startWrite {why : TxnFor} {sched : Bool} {applyAt : Frame48} {puts : List RegPut}
    (h : Calm Q B s) : Calm Q B (startWrite why sched applyAt puts s) := .frame h (by simp)

protected theorem Calm.startRead {why : TxnFor} {a : BitVec 24} {n : Nat} (h : Calm Q B s) :
    Calm Q B (startRead why a n s) := .frame h (by simp)

protected theorem Calm.startOp {why : TxnFor} {sched : Bool} {applyAt : Frame48} {o : FieldOp}
    (h : Calm Q B s) : Calm Q B (startOp why sched applyAt o s) := .frame h (by simp)

protected theorem Calm.opAnswer {q : Request} {status detail : Byte} {data : List Byte} (h : Calm Q B s) :
    Calm Q B (opAnswer q status detail data s).1 := .frame h (by simp)

protected theorem Calm.answerTxn {t : RegTxn} {q : Request} {status detail : Byte} (h : Calm Q B s) :
    Calm Q B (answerTxn t q status detail s) :=
  .ite (.ite h (.schedFail (.update h))) (.ite (.reply (.opAnswer h)) (.reply h))

protected theorem Calm.sendBankWord {p : RegPut} (h : Calm Q B s) : Calm Q B (sendBankWord p s) := .frame h (by simp)

protected theorem Calm.configureNext (h : Calm Q B s) : Calm Q B (configureNext s) := .frame h (by simp)

protected theorem Calm.cfgRefusal (h : Calm Q B s) : Calm Q B (cfgRefusal s) := .note (.update h)

protected theorem Calm.endTxn {t : RegTxn} {status detail : Byte} (h : Calm Q B s) :
    Calm Q B (endTxn t status detail s) := by
  unfold Machine.endTxn
  split
  · exact .answerTxn (.update h)
  · exact .configureNext (.ite (.update h) (.cfgRefusal (.update h)))
  · exact .update h
  · exact .update h

protected theorem Calm.dataTaken {tag : BitVec 16} {status : Byte} {addr : BitVec 24} {values : List Word}
    (h : Calm Q B s) : Calm Q B (dataTaken tag status addr values s) := by
  unfold Machine.dataTaken
  split
  · exact h
  · exact .ite (.endTxn h) (.ite (.endTxn h) (.ite (.endTxn h) (.sendTxn (.update h))))

protected theorem Calm.cfgData {tag : BitVec 16} {status : Byte} {addr : BitVec 24} {values : List Word}
    (h : Calm Q B s) : Calm Q B (cfgData tag status addr values s) := .onUp .dataTaken h

protected theorem Calm.cfgResend {tag : BitVec 16} (h : Calm Q B s) : Calm Q B (cfgResend tag s) := by
  unfold Machine.cfgResend
  split
  · exact h
  · refine .ite h (.ite (.endTxn h) ?_)
    split
    · exact .sendCell (.update h)
    · exact .update h

protected theorem Calm.rememberTag {tag : BitVec 16} {c : Cell} (h : Calm Q B s) :
    Calm Q B (rememberTag tag c s) := .frame h (by simp)

protected theorem Calm.applyCfgWrite {c : CfgWriteCell} (h : Calm Q B s) : Calm Q B (applyCfgWrite c s).1 := by
  refine .iteFst (.ite (.update h) h) ?_
  split
  · exact .fieldPart (.toFieldFrame h)
  · exact .iteFst h (.fieldWrite (.toFieldFrame h))

protected theorem Calm.writeTaken {c : CfgWriteCell} (h : Calm Q B s) : Calm Q B (writeTaken c s) := by
  unfold Machine.writeTaken
  split
  · exact .upCell h
  · exact .upCell (.rememberTag (.applyCfgWrite h))

protected theorem Calm.cfgWrite {c : CfgWriteCell} (h : Calm Q B s) : Calm Q B (cfgWrite c s) :=
  .onDown .writeTaken h

protected theorem Calm.cfgRead {tag : BitVec 16} {addr : BitVec 24} {count : BitVec 3} (h : Calm Q B s) :
    Calm Q B (cfgRead tag addr count s) := .frame h (by simp)

protected theorem Calm.markSched {w : CfgWriteCell} {f : SchedCmd → SchedCmd} (h : Calm Q B s) :
    Calm Q B (markSched w f s) := .frame h (by simp)

protected theorem Calm.failSched {w : CfgWriteCell} {status : Byte} (h : Calm Q B s) :
    Calm Q B (failSched w status s) := by
  unfold Machine.failSched
  split
  · exact .schedFail (.markSched h)
  · exact h

protected theorem Calm.actSchedWrite {c : CfgWriteCell} (h : Calm Q B s) : Calm Q B (actSchedWrite c s) := by
  unfold Machine.actSchedWrite
  split
  · exact .ite (.failSched (.markSched (.fieldPart h))) (.markSched (.fieldPart h))
  · extract_lets v
    split
    · exact .markSched (.fieldPut h)
    · exact .failSched h

protected theorem Calm.schedWriteAct (h : Calm Q B s) : Calm Q B (schedWriteAct s) := by
  unfold Machine.schedWriteAct
  split
  · exact h
  · exact .ite h (.actSchedWrite (.update (.advanceTo h)))

/-- An edge is stored out of Clay alone (R208). -/
protected theorem Calm.storeEdge {e : Edge} (h : Calm Q B s) : Calm Q B (storeEdge e s).1 := by
  unfold Machine.storeEdge
  split
  · exact h
  · next hclay => exact .iteFst (h.setChWhere fun _ hin => absurd hin hclay) h

protected theorem Calm.storeEdges {es : List Edge} (h : Calm Q B s) : Calm Q B (storeEdges es s).1 := by
  induction es generalizing s with
  | nil => exact h
  | cons e es ih => exact ih (.storeEdge h)

protected theorem Calm.edgesTaken {tag : BitVec 16} {es : List Edge} (h : Calm Q B s) :
    Calm Q B (edgesTaken tag es s) := by
  unfold Machine.edgesTaken
  refine .ite (.upCell (.update h)) ?_
  split
  · exact .upCell h
  · exact .upCell (.update (.storeEdges h))

protected theorem Calm.schedEdge {tag : BitVec 16} {es : List Edge} (h : Calm Q B s) :
    Calm Q B (schedEdge tag es s) := .onDown .edgesTaken h

protected theorem Calm.acksTaken {acks : List (BitVec 16 × Fin 4)} (h : Calm Q B s) :
    Calm Q B (acksTaken acks s) := .frame h (by simp)

protected theorem Calm.edgeAck {acks : List (BitVec 16 × Fin 4)} (h : Calm Q B s) :
    Calm Q B (edgeAck acks s) := .onUp .acksTaken h

protected theorem Calm.schedEdgeResend {tag : BitVec 16} (h : Calm Q B s) :
    Calm Q B (schedEdgeResend tag s) := by
  unfold Machine.schedEdgeResend
  split
  · exact h
  · exact .ite h (.ite (.raise (.update h)) (.sendCell (.update h)))

protected theorem Calm.answerCoef {r : CoefReq} (h : Calm Q B s) : Calm Q B (answerCoef r s) := by
  unfold Machine.answerCoef
  split
  · exact .ite (.configureNext h) (.reply h)
  · exact .ite (.configureNext (.cfgRefusal h)) (.reply h)

protected theorem Calm.coefResult {tag : BitVec 16} {st : Byte} (h : Calm Q B s) :
    Calm Q B (coefResult tag st s) := .foldl (fun _ => .answerCoef) (.update h)

protected theorem Calm.coefAcksTaken {acks : List (BitVec 16 × Byte)} (h : Calm Q B s) :
    Calm Q B (coefAcksTaken acks s) := .foldl (fun _ => .coefResult) h

protected theorem Calm.loopCoefResend {tag : BitVec 16} (h : Calm Q B s) :
    Calm Q B (loopCoefResend tag s) := by
  unfold Machine.loopCoefResend
  split
  · exact h
  · exact .ite h (.ite (.coefResult h) (.sendCell (.update h)))

/-! ## The chain -/

protected theorem Calm.idleSend {p : ChainPort} (h : Calm Q B s) : Calm Q B (idleSend p s) := .frame h (by simp)

protected theorem Calm.symbolLock {p : ChainPort} (h : Calm Q B s) : Calm Q B (symbolLock p s) := .frame h (by simp)

protected theorem Calm.miswire {p : ChainPort} (h : Calm Q B s) : Calm Q B (miswire p s) := .note h

protected theorem Calm.idleFrame {p : ChainPort} {i : IdleInfo} (h : Calm Q B s) : Calm Q B (idleFrame p i s) := by
  unfold Machine.idleFrame
  refine .ite h ?_
  split
  · exact .ite h (.ite (.ite (.update h) (.miswire (.update h))) (.ensureTimebase (.chooseRef (.update h))))
  · exact .ite h (.ite (.ite (.update h) (.miswire (.update h))) (.update h))

protected theorem Calm.partnerTimeout {p : ChainPort} (h : Calm Q B s) : Calm Q B (partnerTimeout p s) :=
  .frame h (by simp)

protected theorem Calm.dropWalk (h : Calm Q B s) : Calm Q B (dropWalk s) := .frame h (by simp)

protected theorem Calm.islandFrom (h : Calm Q B s) : Calm Q B (islandFrom s) :=
  .insertTime (.advanceTo (.duePolicy (.ensureTimebase (.chooseRef (.update (.dropWalk h))))))

protected theorem Calm.chainBreak {hop : Nat} (h : Calm Q B s) : Calm Q B (chainBreak hop s) := .note h

protected theorem Calm.symbolLockLoss {p : ChainPort} (h : Calm Q B s) : Calm Q B (symbolLockLoss p s) := by
  have hdraw : Calm Q B (draw s) := .draw h
  refine .ite h ?_
  cases p with
  | up => exact .ite (.chooseRef (.freshEcho (.update hdraw))) (.islandFrom (.freshEcho (.update hdraw)))
  | dn =>
    exact .ite (.update hdraw) (.ite (.chainBreak (.update hdraw))
      (.ite (.queueUp (.update hdraw)) (.update hdraw)))

protected theorem Calm.countOn {p : ChainPort} {c : CrcState} {ok : Bool} (h : Calm Q B s) :
    Calm Q B (countOn p c ok s) := .frame h (by simp)

protected theorem Calm.forwardOn {p : ChainPort} {f : ChainFrame} (h : Calm Q B s) :
    Calm Q B (forwardOn p f s) := .frame h (by simp)

protected theorem Calm.arrive {p : ChainPort} {f : ChainFrame} (h : Calm Q B s) : Calm Q B (arrive p f s) :=
  .frame h (by simp)

protected theorem Calm.frameForward {p : ChainPort} {f : ChainFrame} (h : Calm Q B s) :
    Calm Q B (frameForward p f s) := .frame h (by simp)

protected theorem Calm.insertOwn (h : Calm Q B s) : Calm Q B (insertOwn s) := .frame h (by simp)

protected theorem Calm.insertDue (h : Calm Q B s) : Calm Q B (insertDue s) := .frame h (by simp)

protected theorem Calm.returnReply {f : ChainFrame} (h : Calm Q B s) : Calm Q B (returnReply f s) := .frame h (by simp)

protected theorem Calm.rplFrame {f : ChainFrame} (h : Calm Q B s) : Calm Q B (rplFrame f s) := .frame h (by simp)

protected theorem Calm.enumPass {p : ChainPort} {kind : Nat} {i : EnumInfo} (h : Calm Q B s) :
    Calm Q B (enumPass p kind i s) := .frame h (by simp)

protected theorem Calm.checkPlanner {p : Byte} (h : Calm Q B s) : Calm Q B (checkPlanner p s) :=
  .ite (.note (.update h)) (.update h)

protected theorem Calm.takeAddr {a : BitVec 16} {valid : Bool} {id : BitVec 3} (h : Calm Q B s) :
    Calm Q B (takeAddr a valid id s) := .ite (.note (.hostClay (.update h))) (.update h)

protected theorem Calm.endIsland (h : Calm Q B s) : Calm Q B (endIsland s) := .liftCause (.update h)

protected theorem Calm.sendStart {recheck : Bool} {gen next : BitVec 16} (h : Calm Q B s) :
    Calm Q B (sendStart recheck gen next s) := .frame h (by simp)

protected theorem Calm.endWalk {last : BitVec 16} {stalled : Bool} (h : Calm Q B s) :
    Calm Q B (endWalk last stalled s) := by
  unfold Machine.endWalk
  split
  · exact h
  · extract_lets _ s1 s2 _ s3 s4
    have h2 : Calm Q B s2 := .ite (.note (.sendDown h)) (.sendDown h)
    have h4 : Calm Q B s4 := .endIsland (.checkPlanner (.update h2))
    split
    · exact h4
    · exact .reply h4

protected theorem Calm.walkStart {recheck : Bool} {q : Option Request} (h : Calm Q B s) :
    Calm Q B (walkStart recheck q s) := by
  unfold Machine.walkStart
  refine .ite h ?_
  extract_lets s1 gen s2 _ s3
  have h1 : Calm Q B s1 := by
    unfold s1
    split
    · split
      · exact .reply h
      · exact h
    · exact h
  have h3 : Calm Q B s3 := .update (.takeAddr h1)
  exact .ite (.sendStart h3) (.endWalk h3)

protected theorem Calm.autoWalk {recheck : Bool} (h : Calm Q B s) : Calm Q B (autoWalk recheck s) :=
  .ite (.walkStart h) (.ite (.walkStart (.update h)) h)

protected theorem Calm.enumStart {i : EnumInfo} (h : Calm Q B s) : Calm Q B (enumStart i s) := .frame h (by simp)

protected theorem Calm.reportDup {first : Option Judged} {i : EnumInfo} (h : Calm Q B s) :
    Calm Q B (reportDup first i s) := .note (.update h)

protected theorem Calm.judgeClaim {i : EnumInfo} {w : Walk} (h : Calm Q B s) : Calm Q B (judgeClaim i w s) := by
  unfold Machine.judgeClaim
  split
  · exact .ite (.sendDown h) h
  · extract_lets first ok j _ s1 s2
    have h1 : Calm Q B s1 := .update h
    have h2 : Calm Q B s2 := .ite (.sendDown h1) h1
    exact .ite h2 (.reportDup h2)

protected theorem Calm.enumClaim {i : EnumInfo} (h : Calm Q B s) : Calm Q B (enumClaim i s) := by
  unfold Machine.enumClaim
  refine .ite h ?_
  extract_lets u
  have hu : Calm Q B u := .frame h (by simp [u])
  split
  · exact .judgeClaim hu
  · exact hu

protected theorem Calm.enumVerdict {i : EnumInfo} (h : Calm Q B s) : Calm Q B (enumVerdict i s) := .frame h (by simp)

protected theorem Calm.enumEnd {i : EnumInfo} (h : Calm Q B s) : Calm Q B (enumEnd i s) := by
  refine .ite h ?_
  extract_lets u
  have hu : Calm Q B u := .enumPass h
  split
  · exact .endWalk hu
  · exact hu

protected theorem Calm.applyClaim {i : EnumInfo} (h : Calm Q B s) : Calm Q B (applyClaim i s) := by
  unfold Machine.applyClaim
  split
  · exact .ite (.takeAddr h) h
  · exact h

protected theorem Calm.enumDone {i : EnumInfo} (h : Calm Q B s) : Calm Q B (enumDone i s) :=
  .ite h (.ite (.enumPass h) (.endIsland (.checkPlanner (.update (.applyClaim (.enumPass h))))))

protected theorem Calm.enumStallTimeout (h : Calm Q B s) : Calm Q B (enumStallTimeout s) := by
  refine .ite h ?_
  split
  · exact .ite (.endWalk h) h
  · exact .ite (.sendUp (.update h)) h
  · exact h

protected theorem Calm.claimResend (h : Calm Q B s) : Calm Q B (claimResend s) := by
  unfold Machine.claimResend
  split
  · exact h
  · exact .ite h (.ite (.sendUp (.update h)) (.note (.sendStart (.update h))))

protected theorem Calm.marlCount {i : MarlInfo} (h : Calm Q B s) : Calm Q B (marlCount i s).1 := .frame h (by simp)

protected theorem Calm.sendPattern {i : MarlInfo} (h : Calm Q B s) : Calm Q B (sendPattern i s) := .frame h (by simp)

protected theorem Calm.clearChain {v : Word} (h : Calm Q B s) : Calm Q B (clearChain v s) := .frame h (by simp)

/-! ## Commands that act on the field side -/

protected theorem Calm.guarded {c : Option Ans} {f : State → State × Option Ans} (h : Calm Q B s)
    (hf : ∀ {s}, Calm Q B s → Calm Q B (f s).1) : Calm Q B (guarded c s f).1 := by
  unfold Machine.guarded
  split
  · exact h
  · exact hf h

protected theorem Calm.crossAct {q : Request} (h : Calm Q B s) : Calm Q B (crossAct q s).1 := .frame h (by simp)

protected theorem Calm.handOp {q : Request} (h : Calm Q B s) : Calm Q B (handOp q s) := .frame h (by simp)

protected theorem KeepsCalm.opOchSet : KeepsCalm Q B opOchSet where
  act := fun _ _ h => .crossAct h
  hand := fun _ _ h => .handOp h

protected theorem KeepsCalm.opOchTiming : KeepsCalm Q B opOchTiming where
  act := fun _ _ h => .crossAct h
  hand := fun _ _ h => .handOp h

protected theorem Calm.handEdges {es : List Edge} (h : Calm Q B s) : Calm Q B (handEdges es s) :=
  .sendEdges (.update h)

protected theorem Calm.ochEdgesAct {q : Request} (h : Calm Q B s) : Calm Q B (ochEdgesAct q s).1 :=
  .guarded h .handEdges

protected theorem KeepsCalm.opOchEdges : KeepsCalm Q B opOchEdges where
  act := fun _ _ h => .ochEdgesAct h

protected theorem KeepsCalm.opOchClear : KeepsCalm Q B opOchClear where
  act := fun _ _ h => .crossAct h
  hand := fun _ _ h => .handOp h

protected theorem KeepsCalm.opOchStatus : KeepsCalm Q B opOchStatus where
  act := fun _ _ h => .crossAct h

protected theorem KeepsCalm.opOchFlush : KeepsCalm Q B opOchFlush where
  act := fun _ _ h => .crossAct h
  hand := fun _ _ h => .handOp h

protected theorem KeepsCalm.opSinRead : KeepsCalm Q B opSinRead where
  act := fun _ _ h => .crossAct h

protected theorem KeepsCalm.opFanRestart : KeepsCalm Q B opFanRestart where
  act := fun _ _ h => .crossAct h
  hand := fun _ _ h => .handOp h

protected theorem Calm.loopCoefAct {q : Request} (h : Calm Q B s) : Calm Q B (loopCoefAct q s).1 := .frame h (by simp)

protected theorem KeepsCalm.opLoopCoef : KeepsCalm Q B opLoopCoef where
  act := fun _ _ h => .loopCoefAct h

protected theorem Calm.loopSwapReq {q : Request} (h : Calm Q B s) : Calm Q B (loopSwapReq q s).1 := .frame h (by simp)

protected theorem KeepsCalm.opLoopSwap : KeepsCalm Q B opLoopSwap where
  act := fun _ _ h => .loopSwapReq h

protected theorem Calm.loopCtrlAct {q : Request} (h : Calm Q B s) : Calm Q B (loopCtrlAct q s).1 := .frame h (by simp)

protected theorem Calm.handWrite {puts : Request → List RegPut} {q : Request} (h : Calm Q B s) :
    Calm Q B (handWrite puts q s) := .frame h (by simp)

protected theorem KeepsCalm.opLoopCtrl : KeepsCalm Q B opLoopCtrl where
  act := fun _ _ h => .loopCtrlAct h
  hand := fun _ _ h => .handWrite h

protected theorem Calm.loopTestAct {q : Request} (h : Calm Q B s) : Calm Q B (loopTestAct q s).1 := .frame h (by simp)

protected theorem KeepsCalm.opLoopTest : KeepsCalm Q B opLoopTest where
  act := fun _ _ h => .loopTestAct h
  hand := fun _ _ h => .handWrite h

protected theorem KeepsCalm.opLoopRead : KeepsCalm Q B opLoopRead where
  act := fun _ _ h => .crossAct h

/-! ## Events, sweeps and the as-applied log -/

protected theorem Calm.mirrorEvent {r : EventRec} (h : Calm Q B s) : Calm Q B (mirrorEvent r s) := by
  unfold Machine.mirrorEvent
  extract_lets unlogged
  split
  · exact .ite h (.update h (hmirror := by rw [length_modFirst]; exact id))
  · exact .update h (hmirror := length_enqueue r)

protected theorem Calm.eventTaken {r : EventRec} (h : Calm Q B s) : Calm Q B (eventTaken r s) :=
  .update (.mirrorEvent h)

protected theorem Calm.eventMessage {r : EventRec} (h : Calm Q B s) : Calm Q B (eventMessage r s) :=
  .onUp .eventTaken h

protected theorem Calm.eventHandle (h : Calm Q B s) : Calm Q B (eventHandle s) := by
  unfold Machine.eventHandle
  split
  · exact h
  · extract_lets rest u
    split
    · exact .update h
    · exact .ite (.update h) (.update h)

protected theorem Calm.clearEvt {v : Word} (h : Calm Q B s) : Calm Q B (clearEvt v s) := .update h

protected theorem Calm.closeEpoch (h : Calm Q B s) : Calm Q B (closeEpoch s) :=
  .foldl (fun _ => .sendEvent) (.update h (hhost := by rw [List.length_map]; exact id)
    (hfield := by rw [List.length_map]; exact id))

protected theorem Calm.writeLog (h : Calm Q B s) : Calm Q B (writeLog s) := .update h

protected theorem Calm.writeApplied (h : Calm Q B s) : Calm Q B (writeApplied s) := .frame h (by simp)

protected theorem Calm.commitRecords (h : Calm Q B s) : Calm Q B (commitRecords s) :=
  .writeApplied (.writeLog h)

protected theorem Calm.eventReadAct {q : Request} (h : Calm Q B s) : Calm Q B (eventReadAct q s).1 := .frame h (by simp)

protected theorem KeepsCalm.opEventRead : KeepsCalm Q B opEventRead where
  act := fun _ _ h => .eventReadAct h

protected theorem Calm.eventCloseAct {q : Request} (h : Calm Q B s) : Calm Q B (eventCloseAct q s).1 := by
  unfold Machine.eventCloseAct
  extract_lets id
  split
  · exact h
  · extract_lets shut unlogged
    split
    · refine .settleCritical (.update h (hhost := ?_))
      rw [List.length_map]; exact fun h => h
    · refine .ite (.startWrite (.update h (hmirror := ?_))) (.update h (hmirror := ?_)) <;>
        (rw [List.length_map]; exact fun h => h)

protected theorem KeepsCalm.opEventClose : KeepsCalm Q B opEventClose where
  act := fun _ _ h => .eventCloseAct h

protected theorem Calm.startSlot {w : Sweep} {n : Fin 32} (h : Calm Q B s) : Calm Q B (startSlot w n s) := by
  unfold Machine.startSlot
  extract_lets w'
  split
  · exact .update h
  · exact .update h

protected theorem Calm.startSweep {sweepId : BitVec 16} (h : Calm Q B s) : Calm Q B (startSweep sweepId s) := by
  unfold Machine.startSweep
  split
  · exact h
  · refine .ite h (.ite (.abortSweep h) ?_)
    extract_lets w _ u
    have hu : Calm Q B u := .update h
    split
    · exact .update hu
    · exact .startSlot hu

protected theorem Calm.startDue (h : Calm Q B s) : Calm Q B (startDue s) := by
  unfold Machine.startDue
  split
  · exact .ite (.startSweep (.advanceTo h)) h
  · exact h

protected theorem Calm.sweepSlotEnd {v1 v2 : Word} {v3 : BitVec 16} {measured : Bool} (h : Calm Q B s) :
    Calm Q B (sweepSlotEnd v1 v2 v3 measured s) := by
  unfold Machine.sweepSlotEnd
  extract_lets s1
  have h1 : Calm Q B s1 := .startDue h
  split
  · exact h1
  · refine .ite h1 ?_
    extract_lets n k s2 skipped res w' s3
    have h3 : Calm Q B s3 := .ite (.upCell (.advanceTo h1)) (.advanceTo h1)
    split
    · exact .update h3
    · exact .startSlot h3

protected theorem Calm.captureData {res : SweepRes} (h : Calm Q B s) : Calm Q B (captureData res s) :=
  .onUp (fun h => .update h) h

protected theorem Calm.sweepTaken {m : SweepMsg} (h : Calm Q B s) : Calm Q B (sweepTaken m s) := by
  unfold Machine.sweepTaken
  split
  · exact .update h
  · exact .sweepAbortField h

protected theorem Calm.sweepCtrl {m : SweepMsg} (h : Calm Q B s) : Calm Q B (sweepCtrl m s) := .onDown .sweepTaken h

protected theorem Calm.sweepAccepted {q : Request} (h : Calm Q B s) : Calm Q B (sweepAccepted q s) := .update h

protected theorem Calm.sweepHand {q : Request} (h : Calm Q B s) : Calm Q B (sweepHand q s) := .frame h (by simp)

protected theorem KeepsCalm.opSweepStart : KeepsCalm Q B opSweepStart where
  act := fun _ _ h => .iteFst (.startSweep h) h
  hand := fun _ _ h => .sweepHand h
  onAccept := fun _ _ h => .sweepAccepted h

protected theorem Calm.sweepResultAct {q : Request} (h : Calm Q B s) : Calm Q B (sweepResultAct q s).1 :=
  .frame h (by simp)

protected theorem KeepsCalm.opSweepResult : KeepsCalm Q B opSweepResult where
  act := fun _ _ h => .sweepResultAct h

protected theorem Calm.barrierArena {q : Request} {n : Nat} {r : State × Option Ans} (h : Calm Q B s)
    (hr : barrierArena q n s = some r) : Calm Q B r.1 :=
  barrierArena_keep (Calm Q B) q n s r (fun _ _ => rfl) hr ▸ h

protected theorem Calm.sweepAbortAct {q : Request} (h : Calm Q B s) : Calm Q B (sweepAbortAct q s).1 := by
  unfold Machine.sweepAbortAct
  extract_lets sid mine
  refine .iteFst h (.iteFst (.abortSweep (.update h)) (.iteFst h ?_))
  split
  · next hr => exact h.barrierArena hr
  · exact .sendCell h

protected theorem KeepsCalm.opSweepAbort : KeepsCalm Q B opSweepAbort where
  act := fun _ _ h => .sweepAbortAct h
  hand := fun _ _ h => .handOp h

protected theorem KeepsCalm.opAsappliedRead : KeepsCalm Q B opAsappliedRead where
  act := fun _ _ h => h

/-! ## Section control -/

protected theorem Calm.geometrySetAct {q : Request} (h : Calm Q B s) : Calm Q B (geometrySetAct q s).1 :=
  .frame h (by simp)

protected theorem KeepsCalm.opGeometrySet : KeepsCalm Q B opGeometrySet where
  act := fun _ _ h => .geometrySetAct h

protected theorem KeepsCalm.opLookaheadSet : KeepsCalm Q B opLookaheadSet where
  act := fun _ _ h => .foldl (fun _ => .applyLook) h

protected theorem KeepsCalm.opLatencyGet : KeepsCalm Q B opLatencyGet where
  act := fun _ _ h => h

protected theorem KeepsCalm.opLatencySeed : KeepsCalm Q B opLatencySeed where
  act := fun _ _ h => .foldl (fun _ => .setSect) h

protected theorem Calm.groundMeasured {n : Fin 32} {on : Bool} {e : BitVec 64} {m : Nat} (h : Calm Q B s) :
    Calm Q B (groundMeasured n on e m s) := .update h

protected theorem Calm.latencyMeasure {n : Fin 32} {on : Bool} {samples : List Nat} {edgeMv sigMv : Nat}
    (h : Calm Q B s) : Calm Q B (latencyMeasure n on samples edgeMv sigMv s) := by
  unfold Machine.latencyMeasure
  split
  · refine .ite h ?_
    extract_lets s1 l v put
    have h1 : Calm Q B s1 := .advanceTo (.setCh h)
    split
    · exact .groundMeasured (.setSect h1)
    · exact .ite (.note (.setSect h1)) (.setSect h1)
  · exact h

protected theorem Calm.stopOrStart {n : Fin 32} (h : Calm Q B s) : Calm Q B (stopOrStart n s) := .frame h (by simp)

protected theorem Calm.consume {limit : Nat} {xs : List (Fin 32 × List Crossing)} (h : Calm Q B s) :
    Calm Q B (consume limit xs s) := .frame h (by simp)

protected theorem Calm.retireLines (h : Calm Q B s) : Calm Q B (retireLines s) := .frame h (by simp)

protected theorem Calm.turnComp {n : Fin 32} (h : Calm Q B s) : Calm Q B (turnComp n s) := .ite h (.setCh h)

protected theorem Calm.loseMotion (h : Calm Q B s) : Calm Q B (loseMotion s) :=
  .note (.foldl (fun _ h => .setSect (.ite (.update h) h)) (.update h))

protected theorem Calm.markCell {c : Int × Int} (h : Calm Q B s) : Calm Q B (markCell c s) :=
  .ite h (.ite (.update h) (.ite h (.note (.update h))))

protected theorem Calm.memberLines {m : BitVec 16 × Fin 32 × Nat × List (Int × Int)} (h : Calm Q B s) :
    Calm Q B (memberLines m s) := .frame h (by simp)

protected theorem Calm.ownLines {n : Fin 32} {poses : List Pose} (h : Calm Q B s) : Calm Q B (ownLines n poses s) :=
  .frame h (by simp)

protected theorem Calm.coverage {poses : List Pose} (h : Calm Q B s) : Calm Q B (coverage poses s) := by
  unfold Machine.coverage
  refine .ite h ?_
  extract_lets u
  have hu : Calm Q B u := by
    refine .foldl (fun _ h => ?_) h
    split
    · exact .ite (.foldl (fun _ => .markCell) h) h
    · exact h
  exact .ite (.foldl (fun _ => .memberLines) (.foldl (fun _ => .ownLines) hu)) hu

protected theorem Calm.settleGround (h : Calm Q B s) : Calm Q B (settleGround s) := .frame h (by simp)

protected theorem Calm.takeMotion (h : Calm Q B s) : Calm Q B (takeMotion s) := .frame h (by simp)

protected theorem Calm.predict (h : Calm Q B s) : Calm Q B (predict s) :=
  .foldl (fun _ => .turnComp) (.retireLines (.consume (.update (.coverage (.foldl (fun _ => .stopOrStart) (.update
    h))))))

protected theorem Calm.motionUpdate {ready : Fin 2001} (h : Calm Q B s) : Calm Q B (motionUpdate ready s) :=
  .ite h (.advanceTo (.ite (.predict (.takeMotion (.toEdge h))) (.ite (.loseMotion (.takeMotion (.toEdge h)))
    (.takeMotion (.toEdge h)))))

protected theorem Calm.takeTarget {p : Pred} (h : Calm Q B s) : Calm Q B (takeTarget p s) := .frame h (by simp)

protected theorem Calm.handOne {u : Nat} {acc : List Edge × State} {p : Pred} (h : Calm Q B acc.2) :
    Calm Q B (handOne u acc p).2 := by
  unfold Machine.handOne
  extract_lets _ _ s1
  have h1 : Calm Q B s1 := .takeTarget (.update h)
  exact .iteSnd (.asApplied h1) (.iteSnd (.asApplied h1) (.setSect (.update h1)))

protected theorem Calm.missInClay {u : Nat} (h : Calm Q B s) : Calm Q B (missInClay u s) := .frame h (by simp)

protected theorem Calm.edgeHandover (h : Calm Q B s) : Calm Q B (edgeHandover s) :=
  .ite h (.ite (.missInClay (.advanceTo h)) (.handEdges
    (foldl_inv (fun r : List Edge × State => Calm Q B r.2) _ (fun _ _ => .handOne) _ _
      (.handEdges (.update (.advanceTo h))))))

protected theorem Calm.switchLineAct {q : Request} (h : Calm Q B s) : Calm Q B (switchLineAct q s).1 :=
  .frame h (by simp)

protected theorem KeepsCalm.opSwitchLine : KeepsCalm Q B opSwitchLine where
  act := fun _ _ h => .switchLineAct h

protected theorem Calm.switchClear {mask : Word} (h : Calm Q B s) : Calm Q B (switchClear mask s) :=
  .foldl (fun _ => .gateOff) (.dropEdges (.foldl (fun _ => .setSect) (.update h)))

protected theorem KeepsCalm.opSwitchClear : KeepsCalm Q B opSwitchClear where
  act := fun _ _ h => .switchClear h

protected theorem KeepsCalm.opMotionGet : KeepsCalm Q B opMotionGet where
  act := fun _ _ h => h

protected theorem Calm.tcReport {peers : List PeerLook} (h : Calm Q B s) : Calm Q B (tcReport peers s) :=
  .frame h (by simp)

protected theorem Calm.tcSetpoint {k : Fin 256} {on : Bool} {rx : Frame48} (h : Calm Q B s) :
    Calm Q B (tcSetpoint k on rx s) := .frame h (by simp)

protected theorem Calm.bridgeAfterRelease (h : Calm Q B s) : Calm Q B (bridgeAfterRelease s) := .frame h (by simp)

protected theorem Calm.sendBoundary (h : Calm Q B s) : Calm Q B (sendBoundary s) :=
  .ite (.ite h (.serve .opSwitchLine (.draw h))) (.foldl (fun _ h => .serve .opSwitchLine (.draw h)) (.ite h (.serve
    .opSwitchLine (.draw h))))

/-! ## Settings -/

protected theorem KeepsCalm.opSetRead : KeepsCalm Q B opSetRead where
  act := fun _ _ h => .iteFst h (by split <;> exact h)

protected theorem KeepsCalm.opSetWrite : KeepsCalm Q B opSetWrite where
  act := fun _ _ h => .iteFst h (.iteFst h (.update h))

protected theorem Calm.startCommit {items : List (Nat × List Byte)} {q : Option Request} (h : Calm Q B s) :
    Calm Q B (startCommit items q s) := .update h

protected theorem Calm.setCommitAct {q : Request} (h : Calm Q B s) : Calm Q B (setCommitAct q s).1 := by
  refine .iteFst h ?_
  split
  · exact h
  · exact .guarded h (fun h => .startCommit (.update h))

protected theorem KeepsCalm.opSetCommit : KeepsCalm Q B opSetCommit where
  act := fun _ _ h => .setCommitAct h

protected theorem KeepsCalm.opSetDiscard : KeepsCalm Q B opSetDiscard where
  act := fun _ _ h => .update h

protected theorem Calm.pinSetAct {q : Request} (h : Calm Q B s) : Calm Q B (pinSetAct q s).1 :=
  .guarded h (fun h => .startCommit (.update h))

protected theorem KeepsCalm.opPinSet : KeepsCalm Q B opPinSet where
  act := fun _ _ h => .pinSetAct h

protected theorem Calm.answerCommit {c : Commit} (h : Calm Q B s) : Calm Q B (answerCommit c s) := by
  unfold Machine.answerCommit
  split
  · exact h
  · exact .ite (.reply (.setReg h)) (.reply h)

protected theorem Calm.commitDone (h : Calm Q B s) : Calm Q B (commitDone s) := by
  unfold Machine.commitDone
  split
  · exact h
  · exact .answerCommit (.ite (.foldl (fun _ => .runItem) (.update h)) (.update h))

/-! ## Firmware images: they write the flash slots -/

protected theorem Calm.setImg {b : Bool} {f : ImgSlot → ImgSlot} (h : Calm Q B s) : Calm Q B (setImg b f s) :=
  .update h

protected theorem Calm.closeUpdate (h : Calm Q B s) : Calm Q B (closeUpdate s) := by
  unfold Machine.closeUpdate
  split
  · exact .setImg h
  · exact h

protected theorem Calm.imgBeginAct {q : Request} (h : Calm Q B s) : Calm Q B (imgBeginAct q s).1 :=
  .guarded h fun h => .update (.setImg (.closeUpdate h))

protected theorem KeepsCalm.opImgBegin : KeepsCalm Q B opImgBegin where
  act := fun _ _ h => .imgBeginAct h

protected theorem Calm.imgDataAct {q : Request} (h : Calm Q B s) : Calm Q B (imgDataAct q s).1 := by
  unfold Machine.imgDataAct
  split
  · exact h
  · exact .iteFst h (.guarded h fun h => .setImg h)

protected theorem KeepsCalm.opImgData : KeepsCalm Q B opImgData where
  act := fun _ _ h => .imgDataAct h

protected theorem Calm.imgVerifyAct {q : Request} (h : Calm Q B s) : Calm Q B (imgVerifyAct q s).1 := by
  refine .guarded h (fun h => ?_)
  split
  · exact .update h
  · exact .iteFst (.update h) (.iteFst (.update h) (.iteFst (.update h) (.setImg h)))

protected theorem KeepsCalm.opImgVerify : KeepsCalm Q B opImgVerify where
  act := fun _ _ h => .imgVerifyAct h

protected theorem Calm.imgActivateAct {q : Request} (h : Calm Q B s) : Calm Q B (imgActivateAct q s).1 :=
  .iteFst h (.iteFst h (.guarded h (fun h => .update (.setImg (.setImg h)))))

protected theorem KeepsCalm.opImgActivate : KeepsCalm Q B opImgActivate where
  act := fun _ _ h => .imgActivateAct h

protected theorem KeepsCalm.opImgInfo : KeepsCalm Q B opImgInfo where
  act := fun _ _ h => h

/-! ## Domains: their loss empties the stores in them -/

protected theorem Calm.dropRegs {p : Nat → Bool} (h : Calm Q B s) : Calm Q B (dropRegs p s) := .update h

protected theorem Calm.stopWalk (h : Calm Q B s) : Calm Q B (stopWalk s) := by
  unfold Machine.stopWalk
  split
  · exact .reply (.update h)
  · exact .update h

protected theorem Calm.portsDown (h : Calm Q B s) : Calm Q B (portsDown s) :=
  .ensureTimebase (.chooseRef (.update (.freshEcho (.stopWalk h))))

/-- A channel that loses its generator part is quiet, and one that loses its driver part stays so. -/
theorem quiet_genReset (c : Chan) : Quiet (genReset c) := ⟨rfl, rfl, rfl, rfl⟩

protected theorem Calm.loseDomain {d : Fin 18} (h : Calm Q B s) : Calm Q B (loseDomain d s) := by
  have hdrop : Calm Q B (dropRegs (regIn d) s) := .dropRegs h
  unfold Machine.loseDomain
  dsimp only
  generalize dropRegs (regIn d) s = u at hdrop
  split
  case h_3 => exact .chooseRef (.update hdrop)
  case h_9 => exact .update hdrop (hfield := fun _ => Nat.zero_le _)
  case h_10 => exact .update hdrop (hch := fun _ n _ => by simp only [vmap_get]; exact quiet_genReset _)
  case h_11 => exact .update hdrop (hch := fun _ n hc => by simp only [vmap_get]; exact hc)
  case h_14 => exact hdrop
  all_goals exact .update hdrop

protected theorem Calm.loseHost (h : Calm Q B s) : Calm Q B (loseHost s) :=
  .update h (hhost := fun _ => Nat.zero_le _) (hmirror := fun _ => Nat.zero_le _)

protected theorem Calm.stopTracking (h : Calm Q B s) : Calm Q B (stopTracking s) := .update h

protected theorem Calm.setDom {d : Fin 18} {v : Dom} (h : Calm Q B s) : Calm Q B (setDom d v s) :=
  .update (.ite (.releaseLines h) h)

protected theorem Calm.stopClock (h : Calm Q B s) : Calm Q B (stopClock s) :=
  .update (.setLevel (.relockFresh h))

protected theorem Calm.strandField (h : Calm Q B s) : Calm Q B (strandField s) :=
  .foldl (fun _ h => .ite (.setDom h) h) h

protected theorem Calm.stopDom {d : Fin 18} {v : Dom} (h : Calm Q B s) : Calm Q B (stopDom d v s) := by
  unfold Machine.stopDom
  extract_lets was _ s1 s2 s3 s4 s5 s6
  have h1 : Calm Q B s1 := .ite (.stopLink (.update h)) h
  have h2 : Calm Q B s2 := .ite (.strandField h1) h1
  have h3 : Calm Q B s3 := .ite (.portsDown h2) h2
  have h4 : Calm Q B s4 := .ite (.stopTracking h3) h3
  have h5 : Calm Q B s5 := .setDom h4
  have h6 : Calm Q B s6 := .ite (.loseDomain (.ite (.loseHost h5) h5)) h5
  exact .ite (.stopClock h6) h6

protected theorem Calm.applyCanMode {k : Nat} (h : Calm Q B s) : Calm Q B (applyCanMode k s) :=
  .ite (.update h) (.update h)

protected theorem Calm.applyHostItem {k : Nat} (h : Calm Q B s) : Calm Q B (applyHostItem k s) := by
  unfold Machine.applyHostItem
  extract_lets u
  have hu : Calm Q B u := .foldl (fun _ => .setReg) h
  split
  · exact .update hu
  · exact .chooseRef hu
  · exact .applyCanMode hu
  · exact .applyCanMode hu
  · exact .update hu
  · exact .update hu
  · exact hu

protected theorem Calm.startDom {d : Fin 18} {v : Dom} (h : Calm Q B s) : Calm Q B (startDom d v s) := by
  unfold Machine.startDom
  extract_lets was s1 _ s2 _ s3
  have h1 : Calm Q B s1 := .setDom h
  have h2 : Calm Q B s2 := .ite (.update h1) h1
  have h3 : Calm Q B s3 := .ite (.update h2) h2
  exact .ite h1 (.ite (.foldl (fun _ => .applyHostItem) h3) h3)

protected theorem Calm.skipNote {mask : Word} (h : Calm Q B s) : Calm Q B (skipNote mask s) := .ite h (.note h)

protected theorem Calm.startWset {which : Fin 18 → Bool} (h : Calm Q B s) : Calm Q B (startWset which s) := by
  unfold Machine.startWset
  refine .skipNote (foldl_inv (fun r : State × Word => Calm Q B r.1) _ (fun r d hr => ?_) _ (s, 0) h)
  split
  · exact .startDom hr
  · exact hr

protected theorem Calm.startFieldSet (h : Calm Q B s) : Calm Q B (startFieldSet s) :=
  .ite (.startWset (.update h)) h

protected theorem Calm.loseField (h : Calm Q B s) : Calm Q B (loseField s) :=
  .update (.dropRegs (.foldl (fun _ h => .ite (.loseDomain (.setDom h)) h) h))

protected theorem Calm.commitAll (h : Calm Q B s) : Calm Q B (commitAll s) := .commitRecords (.commitDone h)

protected theorem Calm.restartDoms (h : Calm Q B s) : Calm Q B (restartDoms s) :=
  .foldl (fun _ h => .ite (.setDom h) (.setDom (.loseDomain h))) h

protected theorem Calm.flushUp (h : Calm Q B s) : Calm Q B (flushUp s) := .update (.foldl (fun _ => .sendUp) h)

protected theorem Calm.restart (h : Calm Q B s) : Calm Q B (restart s) :=
  .update (.dropRegs (.restartDoms (.loseHost (.stopLink (.flushUp h)))))

/-! ## Boot, bundles and the field image -/

protected theorem Calm.goLoam (h : Calm Q B s) : Calm Q B (goLoam s) := by
  unfold Machine.goLoam
  extract_lets s1 _ s2
  have h2 : Calm Q B s2 := .ite (.note (.update (.enterLoam h))) (.enterLoam h)
  exact .ite (.startCommit (.update h2)) h2

protected theorem Calm.siltWith {why : BitVec 4} (h : Calm Q B s) : Calm Q B (siltWith why s) := by
  unfold Machine.siltWith
  split
  · exact .enterSilt h
  · exact .update h
  · exact h

protected theorem Calm.checkPair (h : Calm Q B s) : Calm Q B (checkPair s) :=
  .ite (.siltWith (.note (.update h))) (.ite (.goLoam (.update h)) (.update h))

protected theorem Calm.startConfigure {loaded : Bool} (h : Calm Q B s) : Calm Q B (startConfigure loaded s) :=
  .ite (.configureNext (.update h)) (.update h)

protected theorem Calm.checkImage {image : Bool × BitVec 256} (h : Calm Q B s) :
    Calm Q B (checkImage image s) := by
  unfold Machine.checkImage
  split
  · exact h
  · exact .ite (.checkPair (.update h)) (.update h)

protected theorem Calm.readDigest (h : Calm Q B s) : Calm Q B (readDigest s) := .startOp h

protected theorem Calm.takeDigest (h : Calm Q B s) : Calm Q B (takeDigest s) := by
  unfold Machine.takeDigest
  split
  · exact h
  · exact .startConfigure (.checkImage (.update h))

protected theorem Calm.linkUpDone {latency : Nat} (h : Calm Q B s) : Calm Q B (linkUpDone latency s) :=
  .ite h (.ite (.readDigest (.startFieldSet (.completeLink h))) (.completeLink h))

protected theorem Calm.chunkTaken {offset : Word} {bytes : List Byte} (h : Calm Q B s) :
    Calm Q B (chunkTaken offset bytes s) := .ite (.update h) (.update h)

protected theorem Calm.digestReady {digest : BitVec 256} (h : Calm Q B s) : Calm Q B (digestReady digest s) :=
  .ite h (.ite (.update h) (.ite (.siltWith (.note (.update h))) (.update h)))

protected theorem Calm.startFimg (h : Calm Q B s) : Calm Q B (startFimg s) := by
  unfold Machine.startFimg
  split
  · exact h
  · exact .ite (.checkPair (.update h)) h

protected theorem Calm.enterSand {why : BitVec 4} {s0 : State} (h : Calm Q B s0) :
    Calm Q B (enterSand why s0) := .hostClay (.ensureTimebase (.chooseRef (.update (.startWset h))))

protected theorem Calm.bootRecord (h : Calm Q B s) : Calm Q B (bootRecord s) := .update h

protected theorem Calm.rejectSlot {b : Bool} (h : Calm Q B s) : Calm Q B (rejectSlot b s) :=
  .bootRecord (.setImg h)

protected theorem Calm.rollBack {b : Bool} (h : Calm Q B s) : Calm Q B (rollBack b s) :=
  .update (.setImg (.rejectSlot h))

protected theorem Calm.countSignatures (h : Calm Q B s) : Calm Q B (countSignatures s) := .ite (.update h) h

protected theorem Calm.countAttempt {b : Bool} (h : Calm Q B s) : Calm Q B (countAttempt b s).2 := by
  unfold Machine.countAttempt
  split
  · exact .iteSnd (.iteSnd (.rollBack h) (.rejectSlot h)) (.bootRecord (.setImg h))
  · exact h

protected theorem Calm.runImage {b : Bool} (h : Calm Q B s) : Calm Q B (runImage b s) := by
  unfold Machine.runImage
  split
  · exact h
  · exact .update h

protected theorem Calm.loadCopies (h : Calm Q B s) : Calm Q B (loadCopies s).2 := by
  unfold Machine.loadCopies
  dsimp only
  split
  · exact h
  · exact .note (.update h)
  · exact .note (.update h)
  · exact .note h

protected theorem Calm.useItems {items : List (Nat × List Byte)} {gen : Word} {ssv : Byte} {valid : Bool}
    (h : Calm Q B s) : Calm Q B (useItems items gen ssv valid s) := .update h

protected theorem Calm.migFail {c : SetCopy} {item : Nat} (h : Calm Q B s) : Calm Q B (migFail c item s) :=
  .writeLog (.note h)

protected theorem Calm.migrate {c : SetCopy} (h : Calm Q B s) : Calm Q B (migrate c s).2 := by
  refine .iteSnd (.useItems h) (.iteSnd ?_ (.migFail h))
  dsimp only
  split
  · exact .migFail (.writeLog (.note h))
  · exact .update (.useItems (.note (.writeLog (.note h))))

protected theorem Calm.afterFail {b : Bool} {c : SetCopy} (h : Calm Q B s) : Calm Q B (afterFail b c s).2 :=
  .iteSnd (.restart (.rollBack (.writeLog (.note h)))) (.useItems (.ite (.writeLog (.note (.rejectSlot h))) h))

protected theorem Calm.settingsStep {b : Bool} (h : Calm Q B s) : Calm Q B (settingsStep b s).2 := by
  have hload : Calm Q B (loadCopies s).2 := .loadCopies h
  unfold Machine.settingsStep
  generalize loadCopies s = l at hload ⊢
  obtain ⟨c, u⟩ := l
  extract_lets confirm
  have hconfirm {s : State} (h : Calm Q B s) : Calm Q B (confirm s) := by
    unfold confirm
    split
    · exact .bootRecord (.setImg h)
    · exact h
  cases c with
  | none => exact hconfirm (.useItems hload)
  | some c =>
    have hmigrate : Calm Q B (migrate c u).2 := .migrate hload
    dsimp only
    generalize migrate c u = m at hmigrate ⊢
    obtain ⟨_ | _, v⟩ := m
    · exact hconfirm hmigrate
    · exact .afterFail hmigrate

protected theorem Calm.loadJournal (h : Calm Q B s) : Calm Q B (loadJournal s) := by
  unfold Machine.loadJournal
  split
  · exact h
  · exact .ite (.update h) (.update h)

protected theorem Calm.applySettings (h : Calm Q B s) : Calm Q B (applySettings s) :=
  .foldl (fun _ => .runItem) (.foldl (fun _ => .applyHostItem) h)

protected theorem Calm.bootMode (h : Calm Q B s) : Calm Q B (bootMode s) := by
  unfold Machine.bootMode
  extract_lets _ s1 s2 code why
  have h1 : Calm Q B s1 := .update h
  have h2 : Calm Q B s2 := .ensureTimebase (.chooseRef h1)
  exact .ite (.goLoam h2) (.hostClay (.update h2))

protected theorem Calm.startImage {b : Bool} (h : Calm Q B s) : Calm Q B (startImage b s) := by
  have hstep : Calm Q B (settingsStep b (runImage b s)).2 := .settingsStep (.runImage h)
  unfold Machine.startImage
  generalize settingsStep b (runImage b s) = r at hstep ⊢
  obtain ⟨again, u⟩ := r
  refine .ite hstep ?_
  extract_lets s1 _ s2 s3
  have h1 : Calm Q B s1 := .applySettings (.loadJournal hstep)
  have h3 : Calm Q B s3 := .bootMode (.startWset (.update h1))
  exact .ite (.readDigest (.startFieldSet h3)) h3

protected theorem Calm.bootDoms (h : Calm Q B s) : Calm Q B (bootDoms s) :=
  .foldl (fun _ h => .ite h (.startDom h)) h

protected theorem Calm.boot (h : Calm Q B s) : Calm Q B (boot s) := by
  unfold Machine.boot
  refine .ite h ?_
  extract_lets s1 asked _ s2 s3
  have h1 : Calm Q B s1 := .bootDoms h
  clear_value s1
  have h2 : Calm Q B s2 := .ite (.bootRecord (.update h1)) h1
  have h3 : Calm Q B s3 := .countSignatures h2
  refine .ite (.enterSand h2) ?_
  split
  · exact .enterSand h3
  · next b _ =>
    have hattempt : Calm Q B (countAttempt b s3).2 := .countAttempt h3
    refine .ite (.enterSand h3) (.ite (.enterSand h3) ?_)
    generalize countAttempt b s3 = r at hattempt ⊢
    obtain ⟨_ | b, u⟩ := r
    · exact .enterSand hattempt
    · exact .startImage hattempt

/-! ## Power and domain transactions -/

protected theorem Calm.startOne {t : PdTxn} {r : TxnRun} {d : Fin 18} (h : Calm Q B r.st) :
    Calm Q B (startOne t r d).st := by
  unfold Machine.startOne
  dsimp only
  split
  · exact .startDom h
  · exact h

protected theorem Calm.stopOne {t : PdTxn} {r : TxnRun} {d : Fin 18} (h : Calm Q B r.st) :
    Calm Q B (stopOne t r d).st := by
  unfold Machine.stopOne
  dsimp only
  split
  · exact h
  · split
    · split
      · exact .stopDom h
      · exact h
    · exact .stopDom h

protected theorem Calm.restoreAll {r : TxnRun} (h : Calm Q B r.st) : Calm Q B (restoreAll r) :=
  .foldl (fun _ h => .ite (.startDom h) (.ite (.stopDom h) h)) h

protected theorem Calm.txnResult {f : Option (Fin 18 × Byte)} {micros : Nat} (h : Calm Q B s) :
    Calm Q B (txnResult f micros s) := .update h

protected theorem Calm.answerTxnPd {t : PdTxn} {f : Option (Fin 18 × Byte)} {micros : Nat} (h : Calm Q B s) :
    Calm Q B (answerTxnPd t f micros s) := by
  unfold Machine.answerTxnPd
  split
  · exact .reply (.ite (.schedFail h) h)
  · exact h

protected theorem Calm.foldlStopOne {t : PdTxn} {ds : List (Fin 18)} {r : TxnRun} (h : Calm Q B r.st) :
    Calm Q B (ds.foldl (stopOne t) r).st :=
  foldl_inv (fun r : TxnRun => Calm Q B r.st) _ (fun _ _ => .stopOne) ds r h

protected theorem Calm.foldlStartOne {t : PdTxn} {ds : List (Fin 18)} {r : TxnRun} (h : Calm Q B r.st) :
    Calm Q B (ds.foldl (startOne t) r).st :=
  foldl_inv (fun r : TxnRun => Calm Q B r.st) _ (fun _ _ => .startOne) ds r h

protected theorem Calm.finishTxn {t : PdTxn} {micros : Nat} {r : TxnRun} (h : Calm Q B r.st) :
    Calm Q B (finishTxn t micros r) := by
  unfold Machine.finishTxn
  extract_lets r' s'
  have hr : Calm Q B r'.st := .foldlStopOne (.txnResult h)
  have hs : Calm Q B s' := by
    unfold s'
    split
    · exact .txnResult (.restoreAll hr)
    · exact hr
  exact .ite hs (.note hs)

protected theorem Calm.transact {t : PdTxn} {micros : Nat} (h : Calm Q B s) : Calm Q B (transact t micros s).2 := by
  unfold Machine.transact
  split
  · exact .txnResult (.answerTxnPd h)
  · extract_lets r₁ r u
    have hr : Calm Q B r.st := .foldlStopOne (.foldlStartOne h)
    have hu : Calm Q B u := .answerTxnPd hr
    split
    · exact .txnResult (.answerTxnPd (.restoreAll hr))
    · exact .iteSnd (.finishTxn hu) hu

protected theorem Calm.pdSetAct {q : Request} (h : Calm Q B s) : Calm Q B (pdSetAct q s).1 := by
  unfold Machine.pdSetAct
  split
  · exact h
  · exact .iteFst h (.iteFst h (.update h))

protected theorem KeepsCalm.opPdSet : KeepsCalm Q B opPdSet where
  act := fun _ _ h => .pdSetAct h

protected theorem KeepsCalm.opPdGet : KeepsCalm Q B opPdGet where
  act := fun _ _ h => h

protected theorem Calm.startOff {d : Fin 18} (h : Calm Q B s) : Calm Q B (startOff d s) := .ite h (.startDom h)

protected theorem Calm.wakePort {w : WakeSrc} (h : Calm Q B s) : Calm Q B (wakePort w s) := by
  unfold Machine.wakePort
  split
  · exact .update h
  · exact .update h
  · exact .update h
  · exact .update h
  · exact h

protected theorem Calm.runWake {w : WakeSrc} {reason : Byte} (h : Calm Q B s) :
    Calm Q B (runWake w reason s) := by
  unfold Machine.runWake
  extract_lets cold s1 s2 s3 _ s4 s5
  have h1 : Calm Q B s1 := .ite (.relockFresh h) h
  have h2 : Calm Q B s2 := by
    unfold s2
    split
    · exact .startOff h1
    · exact h1
  have h4 : Calm Q B s4 := .update (.wakePort (.startOff (.startOff h2)))
  have h5 : Calm Q B s5 := .startWset h4
  exact .ite (.ite (.startFieldSet h5) (.ite (.startWset h5) h5)) h4

protected theorem Calm.wake {w : WakeSrc} {reason : Byte} (h : Calm Q B s) : Calm Q B (wake w reason s) :=
  .ite h (.ite (.update h) (.runWake h))

protected theorem Calm.latchedWake (h : Calm Q B s) : Calm Q B (latchedWake s) := by
  unfold Machine.latchedWake
  split
  · exact .ite (.runWake (.update h)) h
  · exact h

protected theorem Calm.afterTxn {t : PdTxn} (h : Calm Q B s) : Calm Q B (afterTxn t s) := by
  unfold Machine.afterTxn
  split
  · exact .ite (.update h) (.update h)
  · exact .ite (.update h) (.update h)
  · exact h

protected theorem Calm.endTransaction {t : PdTxn} (h : Calm Q B s) : Calm Q B (endTransaction t s) :=
  .ite (.latchedWake (.update (.afterTxn h))) (.update (.afterTxn h))

protected theorem Calm.domainTransaction {micros : Nat} (h : Calm Q B s) :
    Calm Q B (domainTransaction micros s) := by
  unfold Machine.domainTransaction
  split
  · exact h
  · next t _ =>
    split
    · exact .ite (.endTransaction (.finishTxn h)) h
    · have hrun : Calm Q B (transact t micros s).2 := .transact h
      split <;> rename_i hres <;> rw [hres] at hrun
      · exact .endTransaction hrun
      · exact .update hrun

protected theorem Calm.ownTxn {t : PdTxn} (h : Calm Q B s) : Calm Q B (ownTxn t s) :=
  .ite (.update h) (.domainTransaction (.draw (.update h)))

protected theorem Calm.fieldWakePulse {sin0 : Bool} (h : Calm Q B s) : Calm Q B (fieldWakePulse sin0 s) :=
  .ite h (.wake (.ite (.enableLanes (.update h)) (.update h)))

protected theorem Calm.writeJournal (h : Calm Q B s) : Calm Q B (writeJournal s) := .update h

protected theorem Calm.shutdownCommit (h : Calm Q B s) : Calm Q B (shutdownCommit s) :=
  .writeJournal (.commitAll h)

protected theorem Calm.keyInShutdown (h : Calm Q B s) : Calm Q B (keyInShutdown s) :=
  .ite h (.ownTxn (.shutdownCommit (.hostClay (.update h))))

protected theorem Calm.keyInRise (h : Calm Q B s) : Calm Q B (keyInRise s) :=
  .ite (.update (.liftCause (.update h))) (.ite (.liftCause (.update h)) (.wake (.liftCause (.update h))))

protected theorem Calm.shutdownForce (h : Calm Q B s) : Calm Q B (shutdownForce s) := .ite h (.ownTxn h)

protected theorem Calm.spoilCommit (h : Calm Q B s) : Calm Q B (spoilCommit s) := by
  unfold Machine.spoilCommit
  split
  · exact h
  · exact .ite (.update (.draw h)) (.update (.draw h))

protected theorem Calm.dropUpdate (h : Calm Q B s) : Calm Q B (dropUpdate s) := .update (.closeUpdate h)

protected theorem Calm.cellPosture (h : Calm Q B s) : Calm Q B (cellPosture s) :=
  .foldl (fun _ h => .ite (.stopDom h) h) h

protected theorem Calm.hostPowerLost (h : Calm Q B s) : Calm Q B (hostPowerLost s) := by
  unfold Machine.hostPowerLost
  extract_lets s1 s2
  have h2 : Calm Q B s2 := .foldl (fun _ h => .ite (.stopDom h) h) (.dropUpdate (.spoilCommit h))
  clear_value s2
  exact .update h2

protected theorem Calm.detachAll (h : Calm Q B s) : Calm Q B (detachAll s) := .resumeH (.resumeF (.update h))

protected theorem Calm.lsupLoss (h : Calm Q B s) : Calm Q B (lsupLoss s) := by
  have hu : Calm Q B (enterClay 1 (stopLink (detachAll
      { s with pwr := { s.pwr with lsup := false, txn := none, queued := [] } }))) :=
    .enterClay (.stopLink (.detachAll (.update h)))
  exact .ite h (.ite (.hostPowerLost hu)
    (.ite (.cellPosture (.dropUpdate (.shutdownCommit hu))) (.cellPosture (.dropUpdate (.spoilCommit hu)))))

protected theorem Calm.powerUp (h : Calm Q B s) : Calm Q B (powerUp s) :=
  .update (.setDom (.restart (.update h)))

protected theorem Calm.lsupRise (h : Calm Q B s) : Calm Q B (lsupRise s) :=
  .ite h (.ite (.powerUp (.update h)) (.ite (.latchedWake (.update h)) (.wake (.update h))))

/-! ## Security and debug access -/

protected theorem Calm.resetNow (h : Calm Q B s) : Calm Q B (resetNow s) :=
  .restart (.commitAll (.note (.hostClay (.update h))))

protected theorem KeepsCalm.opReset : KeepsCalm Q B opReset where
  act := fun _ _ h => .resetNow (.ite h (.reply h))

protected theorem Calm.goSand {q : Request} (h : Calm Q B s) : Calm Q B (goSand q s) :=
  .restart (.update (.bootRecord (.commitAll (.hostClay (.reply h)))))

protected theorem Calm.modeSetAct {q : Request} (h : Calm Q B s) : Calm Q B (modeSetAct q s).1 := by
  unfold Machine.modeSetAct
  split
  · exact h
  · exact h
  · exact h
  · exact .goSand h
  · exact .enterSilt h
  · exact .iteFst (.goLoam h) h

protected theorem KeepsCalm.opModeSet : KeepsCalm Q B opModeSet where
  act := fun _ _ h => .modeSetAct h

protected theorem KeepsCalm.opSecGet : KeepsCalm Q B opSecGet where
  act := fun _ _ h => h

protected theorem Calm.nonceAct {q : Request} (h : Calm Q B s) : Calm Q B (nonceAct q s).1 :=
  .guarded h (fun h => .draw (.update h))

protected theorem KeepsCalm.opDbgNonce : KeepsCalm Q B opDbgNonce where
  act := fun _ _ h => .nonceAct h

protected theorem Calm.tokenRefused (h : Calm Q B s) : Calm Q B (tokenRefused s).1 := .update h

protected theorem Calm.openSession {l : Fin 5} {m : Nat} {slot : Bool} (h : Calm Q B s) :
    Calm Q B (openSession l m slot s) := .update (.setLevel h)

protected theorem Calm.zeroise {l : Fin 5} {slot : Byte} (h : Calm Q B s) : Calm Q B (zeroise l slot s) :=
  .note (.update h)

protected theorem Calm.unlockAct {q : Request} (h : Calm Q B s) : Calm Q B (unlockAct q s).1 :=
  .iteFst (.setLevel h) (.iteFst h (.iteFst (.tokenRefused (.update h)) (.ite (.zeroise (.openSession (.update h)))
    (.openSession (.update h)))))

protected theorem KeepsCalm.opDbgUnlock : KeepsCalm Q B opDbgUnlock where
  act := fun _ _ h => .unlockAct h

protected theorem KeepsCalm.opDbgLock : KeepsCalm Q B opDbgLock where
  act := fun _ _ h => .setLevel h

protected theorem Calm.sessionExpiry (h : Calm Q B s) : Calm Q B (sessionExpiry s) :=
  .ite (.setLevel (.advanceTo h)) h

protected theorem Calm.retire (h : Calm Q B s) : Calm Q B (retire s) := .update h

protected theorem Calm.advanceLife {q : Request} {target : Nat} (h : Calm Q B s) :
    Calm Q B (advanceLife q target s) := .resetNow (.reply (.update (.ite (.retire h) h)))

protected theorem Calm.lcAdvanceAct {q : Request} (h : Calm Q B s) : Calm Q B (lcAdvanceAct q s).1 :=
  .guarded h (fun h => .iteFst (.tokenRefused (.update h)) (.iteFst (.update h) (.advanceLife (.update h))))

protected theorem KeepsCalm.opLcAdvance : KeepsCalm Q B opLcAdvance where
  act := fun _ _ h => .lcAdvanceAct h

protected theorem Calm.clearSec {v : Word} (h : Calm Q B s) : Calm Q B (clearSec v s) := .ite (.update h) h

protected theorem Calm.countIgnored (h : Calm Q B s) : Calm Q B (countIgnored s) := .ite (.update h) h

protected theorem Calm.attach {p : DbgPort} {l : Fin 5} (h : Calm Q B s) : Calm Q B (attach p l s) := .update h

protected theorem Calm.dbgSel {p : DbgPort} {l : Fin 5} (h : Calm Q B s) : Calm Q B (dbgSel p l s) :=
  .ite h (.ite (.countIgnored h) (.ite (.countIgnored h) (.ite (.attach h) (.ite (.ownTxn h) (.countIgnored h)))))

protected theorem Calm.haltF (h : Calm Q B s) : Calm Q B (haltF s) :=
  .ite (.enterClay (.toFieldFrame (.update h))) h

protected theorem Calm.boundaryScan {i : ScanInstr} (h : Calm Q B s) : Calm Q B (boundaryScan i s) :=
  .ite (.countIgnored h) (.update (.hostClay h))

protected theorem Calm.debugAct {r : DbgReq} (h : Calm Q B s) : Calm Q B (debugAct r s).1 := by
  unfold Machine.debugAct
  split
  · exact .haltF h
  · exact .ite (.resumeF h) h
  · exact h
  · exact .iteFst (.fieldReadAct h) h
  · exact .iteFst (.fieldWrite h) h
  · exact h
  · exact .iteFst (.update h) h
  · exact .ite (.update h) h

protected theorem Calm.debugTaken {r : DbgReq} (h : Calm Q B s) : Calm Q B (debugTaken r s) :=
  .upCell (.debugAct h)

protected theorem Calm.dbgReq {r : DbgReq} (h : Calm Q B s) : Calm Q B (dbgReq r s) :=
  .onDown .debugTaken (.ite (.sendCell h) h)

protected theorem Calm.debugBytes {bytes : List Byte} (h : Calm Q B s) : Calm Q B (debugBytes bytes s) :=
  .update h

/-! ## CAN -/

protected theorem Calm.onCan {p : CanPort} {f : Can → Can} (h : Calm Q B s) : Calm Q B (onCan p f s) :=
  .setCan h

protected theorem Calm.measure {p : CanPort} {removed : List (Fin 7)} (h : Calm Q B s) :
    Calm Q B (measure p removed s) := by
  unfold Machine.measure
  extract_lets m cs u
  have hu : Calm Q B u := .onCan (.draw h)
  clear_value cs
  split
  · exact .setReg hu
  · exact hu

protected theorem Calm.startAbr {p : CanPort} (h : Calm Q B s) : Calm Q B (startAbr p s) :=
  .ite (.measure (.onCan h)) h

protected theorem Calm.abrTimeout {p : CanPort} (h : Calm Q B s) : Calm Q B (abrTimeout p s) :=
  .ite (.measure (.note h)) h

protected theorem Calm.errorEvents {p : CanPort} {old : Can} (h : Calm Q B s) :
    Calm Q B (errorEvents p old s) := by
  unfold Machine.errorEvents
  extract_lets c ewl rose s1 passive s2 s3
  have h1 : Calm Q B s1 := .ite (.note h) h
  have h3 : Calm Q B s3 := .ite (.note (.onCan h1)) (.onCan h1)
  exact .ite (.note (.onCan h3)) (.ite (.note h3) h3)

protected theorem Calm.canBusError {p : CanPort} {k : CanErrKind} {tx : Bool} {tec rec' : Nat}
    (h : Calm Q B s) : Calm Q B (canBusError p k tx tec rec' s) := by
  unfold Machine.canBusError
  refine .ite h ?_
  extract_lets s1 s2 s3
  have h2 : Calm Q B s2 := .ite (.onCan (.onCan h)) (.onCan h)
  have h3 : Calm Q B s3 := by
    unfold s3
    split
    · exact .measure h2
    · exact h2
  exact .ite (.errorEvents (.onCan h3)) h3

protected theorem Calm.ringStore {p : CanPort} {tb : BitVec 64} {f : CanFrame} {matched : Bool}
    (h : Calm Q B s) : Calm Q B (ringStore p tb f matched s) :=
  .ite (.onCan (.onCan h)) (.ite (.noteEpoch (.onCan (.onCan h))) (.onCan (.onCan h)))

protected theorem Calm.drainRing {p : CanPort} (h : Calm Q B s) : Calm Q B (drainRing p s) := .ite (.onCan h) h

protected theorem Calm.singleFrameDrop {p : CanPort} {f : CanFrame} (h : Calm Q B s) :
    Calm Q B (singleFrameDrop p f s) := .ite (.update h) h

protected theorem Calm.receive {p : CanPort} {f : CanFrame} (h : Calm Q B s) : Calm Q B (receive p f s) := by
  unfold Machine.receive
  extract_lets old tb hit s1 s2
  have h2 : Calm Q B s2 := .singleFrameDrop (.drainRing (.ringStore (.onCan h)))
  exact .ite (.draw (.errorEvents (.onCan h2))) h2

protected theorem Calm.sleepReceive {p : CanPort} {f : CanFrame} (h : Calm Q B s) :
    Calm Q B (sleepReceive p f s) :=
  .ite (.onCan h) (.ite h (.onCan (.ite (.drainRing (.ringStore (.wake h))) (.onCan (.wake h)))))

protected theorem Calm.canFrameReceive {p : CanPort} {f : CanFrame} (h : Calm Q B s) :
    Calm Q B (canFrameReceive p f s) := .ite h (.ite (.ite (.sleepReceive h) h) (.ite h (.receive h)))

protected theorem Calm.nextOwn {p : CanPort} (h : Calm Q B s) : Calm Q B (nextOwn p s) := by
  refine .ite h ?_
  split
  · exact .onCan h
  · split
    · exact .onCan (.update h)
    · exact h

protected theorem Calm.loadOwn {p : CanPort} (h : Calm Q B s) : Calm Q B (loadOwn p s) :=
  .ite h (.onCan (.nextOwn h))

protected theorem Calm.canTxStart {p : CanPort} (h : Calm Q B s) : Calm Q B (canTxStart p s) :=
  .ite h (.ite (.onCan h) (.onCan (.loadOwn h)))

protected theorem Calm.canFrameSent {p : CanPort} (h : Calm Q B s) : Calm Q B (canFrameSent p s) := by
  unfold Machine.canFrameSent
  extract_lets c
  split
  · exact h
  · exact .errorEvents (.onCan h)

protected theorem Calm.enterMode {p : CanPort} {m : CanMode} {opt : Bool} (h : Calm Q B s) :
    Calm Q B (enterMode p m opt s) := .dropClaim (.ite (.startAbr (.onCan h)) (.onCan h))

protected theorem Calm.canModeApply {p : CanPort} (h : Calm Q B s) : Calm Q B (canModeApply p s) := by
  unfold Machine.canModeApply
  extract_lets c
  split
  · exact h
  · exact .ite h (.enterMode h)

protected theorem Calm.canRecoveryDone {p : CanPort} (h : Calm Q B s) : Calm Q B (canRecoveryDone p s) :=
  .ite h (.canModeApply (.note (.onCan h)))

protected theorem Calm.canLeaveSleep {p : CanPort} (h : Calm Q B s) : Calm Q B (canLeaveSleep p s) := by
  refine .ite h (.onCan ?_)
  split
  · exact .drainRing (.ringStore (.enterMode h))
  · exact .enterMode h

protected theorem Calm.sendIso {m : IsoMsg} (h : Calm Q B s) : Calm Q B (sendIso m s) := .update h

protected theorem Calm.claimAddr {a : Byte} (h : Calm Q B s) : Calm Q B (claimAddr a s) := .sendIso (.update h)

protected theorem Calm.cannotClaim (h : Calm Q B s) : Calm Q B (cannotClaim s) := .note (.sendIso (.update h))

protected theorem Calm.addressClaimed {name : BitVec 64} {sa : Byte} (h : Calm Q B s) :
    Calm Q B (addressClaimed name sa s) := by
  refine .ite h (.ite (.update h) (.ite (.sendIso (.update h)) ?_))
  split
  · exact .claimAddr (.update h)
  · exact .cannotClaim (.update h)

protected theorem Calm.moRead {p : CanPort} {n : Fin 128} (h : Calm Q B s) : Calm Q B (moRead p n s) :=
  .onCan h

protected theorem Calm.clearCan {p : CanPort} {v : Word} (h : Calm Q B s) : Calm Q B (clearCan p v s) :=
  .onCan h

protected theorem KeepsCalm.opCanGet : KeepsCalm Q B opCanGet where
  act := fun _ _ h => .guarded h (fun h => h)

protected theorem KeepsCalm.opCanMode : KeepsCalm Q B opCanMode where
  act := fun _ _ h => .guarded h .onCan

protected theorem KeepsCalm.opCanRecover : KeepsCalm Q B opCanRecover where
  act := fun _ _ h => .guarded h (fun h => .iteFst (.onCan h) h)

protected theorem Calm.canSendAct {q : Request} (h : Calm Q B s) : Calm Q B (canSendAct q s).1 := by
  refine .guarded h (fun h => .iteFst h (.iteFst ?_ (.iteFst h (.onCan h))))
  split
  · exact .onCan h
  · exact h

protected theorem KeepsCalm.opCanSend : KeepsCalm Q B opCanSend where
  act := fun _ _ h => .canSendAct h

protected theorem Calm.canCancelAct {q : Request} (h : Calm Q B s) : Calm Q B (canCancelAct q s).1 := by
  refine .guarded h fun h => ?_
  extract_lets _ _
  split
  · exact h
  · exact .iteFst h (.onCan h)

protected theorem KeepsCalm.opCanCancel : KeepsCalm Q B opCanCancel where
  act := fun _ _ h => .canCancelAct h

protected theorem Calm.tpTimeout {p : CanPort} {peer : Byte} (h : Calm Q B s) :
    Calm Q B (tpTimeout p peer s) := .ite (.update h) h

/-! ## The receiver: snapshots write the snapshot memory -/

protected theorem Calm.onTrack {c : Fin 96} {f : Track → Track} (h : Calm Q B s) : Calm Q B (onTrack c f s) :=
  .update h

protected theorem Calm.acquire {c : Fin 96} {sat : Byte} {signal : Fin 4} (h : Calm Q B s) :
    Calm Q B (acquire c sat signal s) := .ite (.onTrack h) h

protected theorem Calm.gnssMeasure {sigs : List MeasSig} (h : Calm Q B s) : Calm Q B (gnssMeasure sigs s) := by
  unfold Machine.gnssMeasure
  refine .ite h ?_
  extract_lets u _ w
  have hw : Calm Q B w := .update (.toEdge h)
  exact .ite (.update hw) hw

protected theorem Calm.positionOut {v : GnssSol} (h : Calm Q B s) : Calm Q B (positionOut v s) := by
  unfold Machine.positionOut
  refine .ite h ?_
  extract_lets o sh s1 s2
  have h1 : Calm Q B s1 := .ite (.sendIso h) h
  have h2 : Calm Q B s2 := .ite (.sendIso h1) h1
  exact .ite (.sendIso h2) h2

protected theorem Calm.takeOrigin {v : GnssSol} (h : Calm Q B s) : Calm Q B (takeOrigin v s) :=
  .ite (.update h) h

protected theorem Calm.takeSolution {v0 : GnssSol} (h : Calm Q B s) : Calm Q B (takeSolution v0 s) :=
  .positionOut (.autoStep (.steer (.chooseRef (.takeOrigin (.update h)))))

protected theorem Calm.burstStart (h : Calm Q B s) : Calm Q B (burstStart s) := .ite h (.update (.advanceTo h))

protected theorem Calm.burstEnd {v : GnssSol} (h : Calm Q B s) : Calm Q B (burstEnd v s) :=
  .ite h (.takeSolution (.update (.advanceTo h)))

protected theorem Calm.antennaEpoch (h : Calm Q B s) : Calm Q B (antennaEpoch s) := .ite (.draw (.update h)) h

protected theorem Calm.clearGnss {v : Word} (h : Calm Q B s) : Calm Q B (clearGnss v s) := .update h

protected theorem Calm.aidAct {r : AidRec} (h : Calm Q B s) : Calm Q B (aidAct r s) := by
  unfold Machine.aidAct
  split <;> exact .update h

protected theorem Calm.gnssAidAct {q : Request} (h : Calm Q B s) : Calm Q B (gnssAidAct q s).1 := by
  unfold Machine.gnssAidAct
  split
  · exact h
  · exact .iteFst h (.foldl (fun _ => .aidAct) (.ite (.update h) h))

protected theorem KeepsCalm.opGnssAid : KeepsCalm Q B opGnssAid where
  act := fun _ _ h => .gnssAidAct h

protected theorem Calm.aidBroadcast (h : Calm Q B s) : Calm Q B (aidBroadcast s) := .ite (.issue (.draw h)) h

protected theorem Calm.rtcmAct {m : List Byte} (h : Calm Q B s) : Calm Q B (rtcmAct m s) :=
  .ite (.update h) (.ite (.update h) (.ite (.update h) h))

protected theorem Calm.rtcmInAct {q : Request} (h : Calm Q B s) : Calm Q B (rtcmInAct q s).1 :=
  .ite (.update (.foldl (fun _ => .rtcmAct) h)) (.foldl (fun _ => .rtcmAct) h)

protected theorem KeepsCalm.opRtcmIn : KeepsCalm Q B opRtcmIn where
  act := fun _ _ h => .rtcmInAct h

protected theorem KeepsCalm.opGnssGet : KeepsCalm Q B opGnssGet where
  act := fun _ _ h => h

protected theorem Calm.nmeaAct {q : Request} (h : Calm Q B s) : Calm Q B (nmeaAct q s).1 := by
  unfold Machine.nmeaAct
  split
  · exact h
  · dsimp only
    split <;> exact h

protected theorem KeepsCalm.opNmeaGet : KeepsCalm Q B opNmeaGet where
  act := fun _ _ h => .nmeaAct h

protected theorem KeepsCalm.opBaselineGet : KeepsCalm Q B opBaselineGet where
  act := fun _ _ h => h

protected theorem Calm.measSend (h : Calm Q B s) : Calm Q B (measSend s) :=
  .ite h (.foldl (fun _ => .queueUp) (.draw h))

protected theorem Calm.removeSlips {f : Frame48} {a c : MeasRec} (h : Calm Q B s) :
    Calm Q B (removeSlips f a c s) := .foldl (fun _ h => .draw (.update h)) (.update h)

protected theorem Calm.baselineCompute {recs : List BaseRec} (h : Calm Q B s) :
    Calm Q B (baselineCompute recs s) := by
  unfold Machine.baselineCompute
  refine .ite h ?_
  split
  · exact h
  · extract_lets all s1 ms slip s2 good _ s3 ps q
    have hslip {u : State} (a : MeasRec) (hu : Calm Q B u) : Calm Q B (slip u a) := by
      unfold slip
      split
      · exact .removeSlips hu
      · exact hu
    have h2 : Calm Q B s2 := .foldl hslip (.ite (.noteEpoch h) h)
    have h3 : Calm Q B s3 := .update h2
    exact .ite h3 (.serve .opGnssAid (.draw h3))

protected theorem Calm.snapCaptureAct {q : Request} (h : Calm Q B s) : Calm Q B (snapCaptureAct q s).1 :=
  .guarded h (fun h => .update h)

protected theorem KeepsCalm.opSnapCapture : KeepsCalm Q B opSnapCapture where
  act := fun _ _ h => .snapCaptureAct h

protected theorem Calm.snapCaptureEnd {samples : List Byte} {gain1 gain5 : BitVec 16} (h : Calm Q B s) :
    Calm Q B (snapCaptureEnd samples gain1 gain5 s) := by
  unfold Machine.snapCaptureEnd
  split
  · exact h
  · extract_lets n u
    have hu : Calm Q B u := .advanceTo h
    exact .update hu

protected theorem Calm.snapXferAct {q : Request} (h : Calm Q B s) : Calm Q B (snapXferAct q s).1 :=
  .guarded h fun h => .iteFst (.update h) h

protected theorem KeepsCalm.opSnapXfer : KeepsCalm Q B opSnapXfer where
  act := fun _ _ h => .snapXferAct h

protected theorem Calm.snapSolveAct {q : Request} (h : Calm Q B s) : Calm Q B (snapSolveAct q s).1 :=
  .guarded h (fun h => .update h)

protected theorem KeepsCalm.opSnapSolve : KeepsCalm Q B opSnapSolve where
  act := fun _ _ h => .snapSolveAct h

protected theorem Calm.formMark (h : Calm Q B s) : Calm Q B (formMark s) := .draw (.update h)

protected theorem Calm.timeMarkSend (h : Calm Q B s) : Calm Q B (timeMarkSend s) := by
  unfold Machine.timeMarkSend
  split
  · exact h
  · exact .ite (.onCan (.update (.advanceTo h))) (.update (.advanceTo h))

/-! ## Node-wide commands and register access -/

protected theorem Calm.clearPkt {v : Word} (h : Calm Q B s) : Calm Q B (clearPkt v s) := .update h

protected theorem KeepsCalm.opIdGet : KeepsCalm Q B opIdGet where
  act := fun _ _ h => h

protected theorem KeepsCalm.opStatusGet : KeepsCalm Q B opStatusGet where
  act := fun _ _ h => h

protected theorem Calm.toActing {q : Request} (h : Calm Q B s) : Calm Q B (toActing q s) := .ite h (.toFrame h)

protected theorem Calm.clayEnterAct {q : Request} (h : Calm Q B s) : Calm Q B (clayEnterAct q s).1 :=
  .hostClay (.toActing h)

protected theorem KeepsCalm.opClayEnter : KeepsCalm Q B opClayEnter where
  act := fun _ _ h => .clayEnterAct h

protected theorem Calm.clayReleaseAct {q : Request} (h : Calm Q B s) : Calm Q B (clayReleaseAct q s).1 := by
  unfold Machine.clayReleaseAct
  extract_lets u
  have hu : Calm Q B u := .toActing h
  split
  · exact hu
  · exact .ite (.leaveClay hu) hu

protected theorem KeepsCalm.opClayRelease : KeepsCalm Q B opClayRelease where
  act := fun _ _ h => .clayReleaseAct h
  after := fun _ _ h => .repeatHolds (.bridgeAfterRelease h)

protected theorem Calm.plannerRelease (h : Calm Q B s) : Calm Q B (plannerRelease s) :=
  .serve .opClayRelease (.draw (.autoStep h))

protected theorem Calm.cancelAct {q : Request} (h : Calm Q B s) : Calm Q B (cancelAct q s).1 := by
  unfold Machine.cancelAct
  split
  · exact h
  · exact .iteFst h (.iteFst h (.ite (.abortSweep (.update h)) (.update h)))

protected theorem KeepsCalm.opCancel : KeepsCalm Q B opCancel where
  act := fun _ _ h => .cancelAct h

protected theorem Calm.enumerateAct {q : Request} (h : Calm Q B s) : Calm Q B (enumerateAct q s).1 :=
  .guarded h .walkStart

protected theorem KeepsCalm.opEnumerate : KeepsCalm Q B opEnumerate where
  act := fun _ _ h => .enumerateAct h

protected theorem KeepsCalm.opChainGet : KeepsCalm Q B opChainGet where
  act := fun _ _ h => h

protected theorem KeepsCalm.opMarlSend : KeepsCalm Q B opMarlSend where
  act := fun _ _ h => .guarded h .sendPattern

protected theorem KeepsCalm.opTbRead : KeepsCalm Q B opTbRead where
  act := fun _ _ h => h

protected theorem Calm.tbRealignAct {q : Request} (h : Calm Q B s) : Calm Q B (tbRealignAct q s).1 :=
  .iteFst h (.iteFst h (.announceStep h))

protected theorem KeepsCalm.opTbRealign : KeepsCalm Q B opTbRealign where
  act := fun q _ h => .tbRealignAct (q := q) h

protected theorem Calm.clearSvc {v : Word} (h : Calm Q B s) : Calm Q B (clearSvc v s) := .update h

protected theorem Calm.hostPut {a : Nat} {v : Word} (h : Calm Q B s) : Calm Q B (hostPut a v s) := by
  unfold Machine.hostPut
  split
  · exact .onCan h
  · split
    · exact .clearPkt h
    · exact .putTbCtrl h
    · exact .clearBarr h
    · exact .ite (.update (.setReg h)) (.setReg h)
    · exact .clearChain h
    · exact .clearCan h
    · exact .clearCan h
    · exact .dropClaim (.setReg h)
    · exact .clearSvc h
    · exact .ite (.stopTracking (.setReg h)) (.setReg h)
    · exact .clearGnss h
    · exact .clearSec h
    · exact .clearEvt h
    · exact .setReg h

protected theorem Calm.hostWrite {ps : List RegPut} (h : Calm Q B s) : Calm Q B (hostWrite ps s) :=
  .foldl (fun _ => .hostPut) h

protected theorem Calm.hostReadAct {a : Nat} (h : Calm Q B s) : Calm Q B (hostReadAct a s).2 := by
  unfold Machine.hostReadAct
  extract_lets u w
  have hu : Calm Q B u := .ite (.readNow h) h
  change Calm Q B (match objectAt a with
    | some (p, n) => if a % 0x80 = 0x0C then moRead p n u else u
    | none => u)
  split
  · exact .ite (.moRead hu) hu
  · exact hu

protected theorem Calm.hostReads {as : List Nat} (h : Calm Q B s) : Calm Q B (hostReads as s).2 := by
  induction as generalizing s with
  | nil => exact h
  | cons a as ih => exact ih (.hostReadAct h)

protected theorem Calm.regReadAct {q : Request} (h : Calm Q B s) : Calm Q B (regReadAct q s).1 := by
  unfold Machine.regReadAct
  refine .iteFst (.iteFst h (.iteFst h ?_)) (.guarded h .hostReads)
  split
  · next r hr => exact .barrierArena h hr
  · exact .startRead h

protected theorem KeepsCalm.opRegRead : KeepsCalm Q B opRegRead where
  act := fun _ _ h => .regReadAct h

protected theorem Calm.regWriteAct {q : Request} (h : Calm Q B s) : Calm Q B (regWriteAct q s).1 := by
  unfold Machine.regWriteAct
  refine .iteFst (.iteFst h (.iteFst h ?_)) (.guarded h .hostWrite)
  split
  · next r hr => exact .barrierArena h hr
  · exact .startWrite h

protected theorem KeepsCalm.opRegWrite : KeepsCalm Q B opRegWrite where
  act := fun _ _ h => .regWriteAct h
  hand := fun _ _ h => .ite (.handWrite h) h

protected theorem Calm.registerWrite {a : BitVec 24} {v m : Word} (h : Calm Q B s) :
    Calm Q B (registerWrite a v m s) :=
  .ite h (.ite (.ite (.fieldWrite (.toFieldFrame h)) h) (.ite h (.ite h (.hostWrite h))))

/-! ## Transports and scheduled requests -/

protected theorem KeepsCalm.opFor {b : Byte} : KeepsCalm Q B (opFor b) := by
  unfold Machine.opFor opOf
  split
  exacts [.opIdGet, .opModeSet, .opClayEnter, .opClayRelease, .opReset, .opStatusGet, .opCancel, .opEnumerate,
    .opChainGet, .opPinSet, .opMarlSend, .opTbRead, .opTbRealign, .opOchSet, .opOchTiming, .opOchEdges, .opOchClear,
    .opOchStatus, .opOchFlush, .opSwitchLine, .opSwitchClear, .opGeometrySet, .opLookaheadSet, .opLatencyGet,
    .opLatencySeed, .opMotionGet, .opSinRead, .opFanRestart, .opLoopCoef, .opLoopSwap, .opLoopCtrl, .opLoopTest,
    .opLoopRead, .opGnssGet, .opGnssAid, .opRtcmIn, .opSnapCapture, .opSnapXfer, .opSnapSolve, .opNmeaGet,
    .opBaselineGet, .opCanGet, .opCanMode, .opCanRecover, .opCanSend, .opCanCancel, .opEventRead, .opEventClose,
    .opSweepStart, .opSweepResult, .opSweepAbort, .opAsappliedRead, .opSetRead, .opSetWrite, .opSetCommit,
    .opSetDiscard, .opImgBegin, .opImgData, .opImgVerify, .opImgActivate, .opImgInfo, .opSecGet, .opDbgNonce,
    .opDbgUnlock, .opDbgLock, .opLcAdvance, .opPdSet, .opPdGet, .opRegRead, .opRegWrite, { act := fun _ _ h => h }]

protected theorem Calm.onCount {via : Via} {f : PktCnt → PktCnt} (h : Calm Q B s) :
    Calm Q B (onCount via f s) := by
  unfold Machine.onCount
  split
  · exact .update h
  · exact .update h
  · exact .update h
  · exact .update h
  · exact .update h
  · exact h

protected theorem Calm.countCrc {via : Via} (h : Calm Q B s) : Calm Q B (countCrc via s) := .onCount h

protected theorem Calm.countDrop {via : Via} (h : Calm Q B s) : Calm Q B (countDrop via s) := .onCount h

protected theorem Calm.joinPart {via : Via} {multi : Bool} {p : Packet} (h : Calm Q B s) :
    Calm Q B (joinPart via multi p s).2 := by
  unfold Machine.joinPart
  split
  · exact .iteSnd (.update h) h
  · exact .iteSnd (.update h) (.iteSnd (.update h) (.update h))

protected theorem Calm.assemble {q : Request} (h : Calm Q B s) : Calm Q B (assemble q s) := by
  have hjoin : Calm Q B (joinPart q.via ((opInfo (opFor q.pkt.opcode).code).any (·.m)) q.pkt s).2 := .joinPart h
  unfold Machine.assemble
  dsimp only
  split <;> rename_i hres <;> rw [hres] at hjoin
  · exact .process .opFor hjoin
  · exact .process .opFor hjoin
  · exact .ite (.mailNoReply (.storeReply hjoin)) (.storeReply hjoin)
  · exact .reply (.countDrop hjoin)

protected theorem Calm.takeBytes {via : Via} {bs : List Byte} (h : Calm Q B s) :
    Calm Q B (takeBytes via bs s) :=
  .ite (.ite (.mailNoReply (.countCrc h)) (.countCrc h)) (.ite (.reply h) (.takeIn .assemble h))

protected theorem Calm.multipartTimeout {via : Via} {src : BitVec 16} (h : Calm Q B s) :
    Calm Q B (multipartTimeout via src s) := by
  unfold Machine.multipartTimeout
  split
  · exact h
  · exact .reply (.countDrop (.update h))

protected theorem Calm.enterRing {f : ChainFrame} (h : Calm Q B s) : Calm Q B (enterRing f s) :=
  .ite h (.ite (.countDrop h) (.update h))

protected theorem Calm.serveEntry (h : Calm Q B s) : Calm Q B (serveEntry s) := by
  unfold Machine.serveEntry
  split
  · exact h
  · exact .ite h (.takeBytes (.update h))

protected theorem Calm.drainCmds (h : Calm Q B s) : Calm Q B (drainCmds s) := .foldl (fun _ => .serveEntry) h

protected theorem Calm.cmdFrame {f : ChainFrame} (h : Calm Q B s) : Calm Q B (cmdFrame f s) :=
  .ite h (.ite (.arrive h) (.ite (.drainCmds (.enterRing (.ite (.update (.arrive h)) (.arrive h)))) (.ite (.update
    (.arrive h)) (.arrive h))))

protected theorem Calm.takeMeas {via : Via} {p : Packet} (h : Calm Q B s) : Calm Q B (takeMeas via p s) := by
  have hjoin : Calm Q B (joinPart via true p s).2 := .joinPart h
  unfold Machine.takeMeas
  extract_lets hold
  have hhold (bs : List Byte) {s : State} (h : Calm Q B s) : Calm Q B (hold bs s) := by
    unfold hold
    split
    · exact .ite (.foldl (fun _ => .aidAct) h) h
    · exact h
  clear_value hold
  generalize joinPart via true p s = r at hjoin ⊢
  obtain ⟨j, u⟩ := r
  cases j
  case single => exact hhold _ hjoin
  case whole => exact hhold _ hjoin
  all_goals exact hjoin

protected theorem Calm.evtFrame {f : ChainFrame} (h : Calm Q B s) : Calm Q B (evtFrame f s) := by
  refine .ite h (.ite (.arrive h) ?_)
  split
  · exact .countCrc (.arrive h)
  · exact .ite (.takeMeas (.arrive h)) (.ite (.ite (.arrive h) (.chainBreak (.arrive h))) (.ite (.foldl (fun _ =>
      .markCell) (.arrive h)) (.arrive h)))

protected theorem Calm.canTpMessage {port : CanPort} {sa da : Byte} {kind : TpKind} {bytes : List Byte}
    (h : Calm Q B s) : Calm Q B (canTpMessage port sa da kind bytes s) := by
  refine .ite h ?_
  split
  · exact .countDrop h
  · exact .ite (.countDrop h) h
  · exact .ite h (.foldl (fun _ h => .ite (.takeBytes h) h) h)

protected theorem Calm.dropFd {port : CanPort} {node : Byte} (h : Calm Q B s) :
    Calm Q B (dropFd port node s) := .ite (.countDrop (.update h)) (.update h)

protected theorem Calm.brokenFd {port : CanPort} {node : Byte} {last : Bool} (h : Calm Q B s) :
    Calm Q B (brokenFd port node last s) := .ite (.dropFd h) (.update (.dropFd h))

protected theorem Calm.joinFd {a : FdAsm} {last : Bool} {seg : List Byte} (h : Calm Q B s) :
    Calm Q B (joinFd a last seg s) := .ite (.update h) (.ite (.countDrop (.update h)) (.takeBytes (.update h)))

protected theorem Calm.canFdSegment {port : CanPort} {id : BitVec 29} {data : List Byte} (h : Calm Q B s) :
    Calm Q B (canFdSegment port id data s) := by
  refine .ite h (.ite (.ite (.brokenFd (.countDrop (.dropFd h))) (.joinFd (.dropFd h))) ?_)
  split
  · exact .brokenFd (.countDrop h)
  · exact .ite (.ite (.dropFd h) h) (.ite (.joinFd h) (.brokenFd h))

protected theorem Calm.handOver {c : SchedCmd} (h : Calm Q B s) : Calm Q B (handOver c s) :=
  (KeepsCalm.opFor).hand _ _ (.update (.advanceTo h))

protected theorem Calm.warnFail {q : Request} {a : Ans} (h : Calm Q B s) : Calm Q B (warnFail q a s) :=
  .ite (.note h) (.schedFail h)

protected theorem Calm.finishSched {q : Request} {warn : Bool} {a : Option Ans} (h : Calm Q B s) :
    Calm Q B (finishSched q warn a s) := by
  unfold Machine.finishSched
  split
  · exact h
  · exact .ite (.reply (.ite (.warnFail h) h)) (.ite (.warnFail h) h)

protected theorem Calm.actStored {c : SchedCmd} (h : Calm Q B s) : Calm Q B (actStored c s) :=
  .foldl (fun _ h => .actSchedWrite (.update h)) h

protected theorem Calm.schedAct (h : Calm Q B s) : Calm Q B (schedAct s) := by
  unfold Machine.schedAct
  split
  · exact h
  · refine .ite h ?_
    extract_lets s1 s2 c1 s3 c2 _ s4 r t o
    have h1 : Calm Q B s1 := .ite h (.handOver h)
    have h3 : Calm Q B s3 := .ite (.actStored (.advanceTo h1)) (.advanceTo h1)
    have h4 : Calm Q B s4 := .update h3
    have hact : Calm Q B (perform o c2.q s4).1 := .perform .opFor h4
    refine .ite (.finishSched (.opAnswer h4)) ?_
    generalize perform o c2.q s4 = p at hact ⊢
    obtain ⟨s5, a⟩ := p
    exact .ite (.finishSched hact) (KeepsCalm.opFor.after _ _ (.finishSched hact))

protected theorem Calm.serveBarrier {o : Op} {q : Request} (ho : KeepsCalm Q B o) (h : Calm Q B s) :
    Calm Q B (serveBarrier o q s) := by
  have hact : Calm Q B (perform o q s).1 := .perform ho h
  unfold Machine.serveBarrier
  generalize perform o q s = r at hact ⊢
  obtain ⟨u, _ | a⟩ := r
  · exact hact
  · exact .ite (.reply (.update h)) (.reply hact)

protected theorem Calm.serveBudget {q : Request} (h : Calm Q B s) : Calm Q B (serveBudget q s) := .reply h

protected theorem Calm.serveChain {q : Request} (h : Calm Q B s) : Calm Q B (serveChain q s) :=
  .ite (.forwardIn h) (.ite (.reply h) (.reply h))

protected theorem Calm.deferredServe (h : Calm Q B s) : Calm Q B (deferredServe s) := by
  unfold Machine.deferredServe
  split
  · exact h
  · refine .ite h ?_
    split
    · exact .ite (.actOn .opFor (.update (.advanceTo h))) (.serveChain (.update (.advanceTo h)))
    · exact .serveBarrier .opFor (.update (.advanceTo h))
    · exact .serveBudget (.update (.advanceTo h))

/-! ## The service port and its mailbox: it writes the buffers -/

protected theorem Calm.takeGo (h : Calm Q B s) : Calm Q B (takeGo s) :=
  .ite h (.ite (.mailNoReply (.countCrc (.update h))) (.takeBytes (.update h)))

protected theorem Calm.catchUp (h : Calm Q B s) : Calm Q B (catchUp s) :=
  .foldl (fun _ h => .ite (.takeGo h) (.serveEntry h)) h

protected theorem Calm.mailGo (h : Calm Q B s) : Calm Q B (mailGo s) :=
  .catchUp (.ite (.update h) (.wake (.update h)))

protected theorem Calm.mailNext (h : Calm Q B s) : Calm Q B (mailNext s) := by
  unfold Machine.mailNext
  split
  · exact .update h
  · exact .loadReply (.update h)

protected theorem Calm.mbCtrl {b : Byte} (h : Calm Q B s) : Calm Q B (mbCtrl b s) :=
  .ite (.update h) (.ite (.mailGo (.update h)) (.ite (.mailNext (.update h)) (.update h)))

protected theorem Calm.mbWrite {a : Nat} {b : Byte} (h : Calm Q B s) : Calm Q B (mbWrite a b s) :=
  .ite (.update h) (.ite (.update h) (.update h))

protected theorem Calm.putAt {a b : Byte} (h : Calm Q B s) : Calm Q B (putAt a b s) :=
  .ite (.update h) (.ite h (.ite (.mbCtrl h) (.mbWrite h)))

protected theorem Calm.attentionWithdraw (h : Calm Q B s) : Calm Q B (attentionWithdraw s) :=
  .ite (.update h) h

protected theorem Calm.busStop (h : Calm Q B s) : Calm Q B (busStop s) := .update h

protected theorem Calm.setPointer {a : Byte} (h : Calm Q B s) : Calm Q B (setPointer a s) := .update h

protected theorem Calm.writeData {bs : List Byte} (h : Calm Q B s) : Calm Q B (writeData bs s) := by
  unfold Machine.writeData
  split
  · exact h
  · exact .foldl (fun _ h => .setPointer (.putAt h)) (.setPointer h)

protected theorem Calm.i2cWrite {a : BitVec 7} {bs : List Byte} (h : Calm Q B s) :
    Calm Q B (i2cWrite a bs s) :=
  .ite h (.ite (.busStop (.attentionWithdraw h)) (.busStop (.writeData (.update (.attentionWithdraw h)))))

protected theorem Calm.mbStatRead (h : Calm Q B s) : Calm Q B (mbStatRead s) := .update h

protected theorem Calm.i2cRead {a : BitVec 7} {n : Nat} (h : Calm Q B s) : Calm Q B (i2cRead a n s) :=
  .ite h (.ite (.busStop (.attentionWithdraw h)) (.busStop (.update (.attentionWithdraw h))))

protected theorem Calm.mbCommand {b : Byte} (h : Calm Q B s) : Calm Q B (mbCommand b s) := .ite (.mbCtrl h) h

/-! ## The epoch edge -/

protected theorem Calm.epochField {samples : List (Fin 32 × BitVec 12)} (h : Calm Q B s) :
    Calm Q B (epochField samples s) := .ite h (.epochOutputs (.foldl (fun _ => .takeSample) h))

protected theorem Calm.epochFlash (h : Calm Q B s) : Calm Q B (epochFlash s) := .ite (.commitRecords h) h

protected theorem Calm.epochHost {peers : List PeerLook} (h : Calm Q B s) : Calm Q B (epochHost peers s) :=
  .ite (.aidBroadcast (.tcReport h)) h

protected theorem Calm.epochMark (h : Calm Q B s) : Calm Q B (epochMark s) := .ite (.formMark h) h

protected theorem Calm.epochEdge {peers : List PeerLook} {samples : List (Fin 32 × BitVec 12)}
    (h : Calm Q B s) : Calm Q B (epochEdge peers samples s) := by
  unfold epochEdge
  split
  · exact h
  · extract_lets a b c snap
    have hc : Calm Q B c :=
      .antennaEpoch (.epochHost (.epochFlash (.closeEpoch (.epochField (.epochMark (.epochBarrier (.epochClock
        (.toEdge h))))))))
    clear_value snap c
    exact .update hc

/-! ## The step -/

/-- The next state, where there is one, keeps both invariants. -/
def NextCalm (Q B : Prop) : Out → Prop
  | .next t => Calm Q B t
  | _ => True

/-- The one-shot puts the field side into Clay by its entry (R80). -/
theorem oneShot_calm (h : Calm Q B s) :
    Calm Q B (if s.modes.clay then s else clayEntry { s with modes := { s.modes with clay := true } }) :=
  .ite h (.entered (.update h.queues (hclay := fun q => q.elim)))

theorem exec_calm (c : Instr) (h : Calm Q B s) : NextCalm Q B (exec c s) := by
  cases c with
  | cellDetected _ _ => exact Calm.ite (.update h) h
  | chargerPhaseChange _ _ _ _ => exact Calm.ite h (.update h)
  | epochEdge _ _ => exact Calm.epochEdge h
  | coldRelock _ => exact Calm.coldRelock h
  | dpllLockDetect _ => exact Calm.dpllLock h
  | clockUngate _ => exact Calm.catchUp (.clockUngate h)
  | tbCtrlWrite _ _ => exact Calm.ite (.putTbCtrl h) h
  | timeFrame _ _ => exact Calm.timeFrame h
  | timeEchoSend _ => exact Calm.ite (.sendUp (.update (.advanceTo h))) h
  | timeEchoRequest _ _ => exact Calm.ite (.outDown h) h
  | timeEchoAnswer _ _ _ =>
    change Calm Q B _
    split
    · exact h
    · exact Calm.ite h (.update h)
  | barrierLinkUp _ => exact Calm.linkUpDone h
  | heartbeatSend _ => exact Calm.heartbeatSend h
  | heartbeat _ => exact Calm.heartbeat h
  | timeSync _ => exact Calm.timeSync h
  | cellReject _ _ _ => exact Calm.cellReject h
  | cfgWrite _ => exact Calm.cfgWrite h
  | cfgRead _ _ _ => exact Calm.cfgRead h
  | cfgData _ _ _ _ => exact Calm.takeDigest (.cfgData h)
  | cfgResend _ => exact Calm.takeDigest (.cfgResend h)
  | safeReq _ => exact Calm.safeReq h
  | barrCntclr _ => exact Calm.ite (.clearBarr h) h
  | symbolLock _ => exact Calm.symbolLock h
  | symbolLockLoss _ => exact Calm.dropClaim (.symbolLockLoss h)
  | idleSend _ => exact Calm.ite (.idleSend (.advanceTo h)) h
  | idleFrame _ _ => exact Calm.dropClaim (.idleFrame h)
  | partnerTimeout _ => exact Calm.dropClaim (.partnerTimeout h)
  | frameForward _ _ => exact Calm.frameForward h
  | cmdFrame _ => exact Calm.cmdFrame h
  | rplFrame _ => exact Calm.rplFrame h
  | evtFrame _ => exact Calm.evtFrame h
  | enumWalkStart _ => exact Calm.autoWalk h
  | enumStart _ => exact Calm.enumStart h
  | enumClaim _ => exact Calm.enumClaim h
  | enumVerdict _ => exact Calm.enumVerdict h
  | enumEnd _ => exact Calm.enumEnd h
  | enumDone _ => exact Calm.enumDone h
  | marlFrame info =>
    have hcount : Calm Q B (marlCount info s).1 := .marlCount h
    exact Calm.ite (.catchUp (.wake hcount)) hcount
  | lineEnergyWake _ => exact Calm.catchUp (.wake h)
  | chCntclr _ => exact Calm.ite (.clearChain h) h
  | canTpMessage _ _ _ _ _ => exact Calm.canTpMessage h
  | canFdSegment _ _ _ => exact Calm.canFdSegment h
  | fdSegmentTimeout _ _ => exact Calm.ite (.dropFd h) h
  | multipartTimeout _ _ => exact Calm.ite (.multipartTimeout h) h
  | pktCntclr _ => exact Calm.clearPkt h
  | idGet _ => exact Calm.serve .opIdGet h
  | modeSet _ => exact Calm.serve .opModeSet h
  | clayEnter _ => exact Calm.serve .opClayEnter h
  | clayRelease _ => exact Calm.serve .opClayRelease h
  | reset _ => exact Calm.serve .opReset h
  | statusGet _ => exact Calm.serve .opStatusGet h
  | cancel _ => exact Calm.serve .opCancel h
  | enumerate _ => exact Calm.serve .opEnumerate h
  | chainGet _ => exact Calm.serve .opChainGet h
  | pinSet _ => exact Calm.serve .opPinSet h
  | marlSend _ => exact Calm.serve .opMarlSend h
  | tbRead _ => exact Calm.serve .opTbRead h
  | tbRealign _ => exact Calm.serve .opTbRealign h
  | ochSet _ => exact Calm.serve .opOchSet h
  | ochTiming _ => exact Calm.serve .opOchTiming h
  | ochEdges _ => exact Calm.serve .opOchEdges h
  | ochClear _ => exact Calm.serve .opOchClear h
  | ochStatus _ => exact Calm.serve .opOchStatus h
  | ochFlush _ => exact Calm.serve .opOchFlush h
  | switchLine _ => exact Calm.serve .opSwitchLine h
  | switchClear _ => exact Calm.serve .opSwitchClear h
  | geometrySet _ => exact Calm.serve .opGeometrySet h
  | lookaheadSet _ => exact Calm.serve .opLookaheadSet h
  | latencyGet _ => exact Calm.serve .opLatencyGet h
  | latencySeed _ => exact Calm.serve .opLatencySeed h
  | motionGet _ => exact Calm.serve .opMotionGet h
  | sinRead _ => exact Calm.serve .opSinRead h
  | fanRestart _ => exact Calm.serve .opFanRestart h
  | loopCoef _ => exact Calm.serve .opLoopCoef h
  | loopSwap _ => exact Calm.serve .opLoopSwap h
  | loopCtrl _ => exact Calm.serve .opLoopCtrl h
  | loopStop _ => exact Calm.ite (.loopStop h) h
  | loopRun _ => exact Calm.ite (.loopRun h) h
  | loopReset _ => exact Calm.ite (.loopReset h) h
  | loopTest _ => exact Calm.serve .opLoopTest h
  | loopRead _ => exact Calm.serve .opLoopRead h
  | loopClr _ _ => exact Calm.ite (.loopClr h) h
  | gnssGet _ => exact Calm.serve .opGnssGet h
  | gnssAid _ => exact Calm.serve .opGnssAid h
  | rtcmIn _ => exact Calm.serve .opRtcmIn h
  | snapCapture _ => exact Calm.serve .opSnapCapture h
  | snapCaptureEnd _ _ _ => exact Calm.snapCaptureEnd h
  | snapXfer _ => exact Calm.serve .opSnapXfer h
  | snapSolve _ => exact Calm.serve .opSnapSolve h
  | snapSolveDone _ =>
    change Calm Q B _
    split
    · exact Calm.reply (.update h)
    · exact h
  | nmeaGet _ => exact Calm.serve .opNmeaGet h
  | baselineGet _ => exact Calm.serve .opBaselineGet h
  | canGet _ => exact Calm.serve .opCanGet h
  | canMode _ => exact Calm.serve .opCanMode h
  | canRecover _ => exact Calm.serve .opCanRecover h
  | canSend _ => exact Calm.serve .opCanSend h
  | canCancel _ => exact Calm.serve .opCanCancel h
  | eventRead _ => exact Calm.serve .opEventRead h
  | eventClose _ => exact Calm.serve .opEventClose h
  | sweepStart _ => exact Calm.serve .opSweepStart h
  | sweepResult _ => exact Calm.serve .opSweepResult h
  | sweepAbort _ => exact Calm.serve .opSweepAbort h
  | asappliedRead _ => exact Calm.serve .opAsappliedRead h
  | setRead _ => exact Calm.serve .opSetRead h
  | setWrite _ => exact Calm.serve .opSetWrite h
  | setCommit _ => exact Calm.serve .opSetCommit h
  | setDiscard _ => exact Calm.serve .opSetDiscard h
  | imgBegin _ => exact Calm.serve .opImgBegin h
  | imgData _ => exact Calm.serve .opImgData h
  | imgVerify _ => exact Calm.serve .opImgVerify h
  | imgActivate _ => exact Calm.serve .opImgActivate h
  | imgInfo _ => exact Calm.serve .opImgInfo h
  | secGet _ => exact Calm.serve .opSecGet h
  | dbgNonce _ => exact Calm.serve .opDbgNonce h
  | dbgUnlock _ => exact Calm.serve .opDbgUnlock h
  | dbgLock _ => exact Calm.serve .opDbgLock h
  | lcAdvance _ => exact Calm.serve .opLcAdvance h
  | pdSet _ => exact Calm.serve .opPdSet h
  | domainTransaction _ => exact Calm.catchUp (.domainTransaction h)
  | pdGet _ => exact Calm.serve .opPdGet h
  | regRead _ => exact Calm.serve .opRegRead h
  | regWrite _ => exact Calm.serve .opRegWrite h
  | registerWrite _ _ _ => exact Calm.registerWrite h
  | motionUpdate _ => exact Calm.motionUpdate h
  | latencyMeasure _ _ _ _ _ => exact Calm.latencyMeasure h
  | tcSetpoint _ _ _ => exact Calm.tcSetpoint h
  | schedEdge _ _ => exact Calm.schedEdge h
  | edgeAck _ => exact Calm.edgeAck h
  | schedEdgeResend _ => exact Calm.schedEdgeResend h
  | edgeExecute _ => exact Calm.edgeExecute h
  | generatorEdge _ => exact Calm.generatorEdge h
  | periodBoundary _ => exact Calm.periodBoundary h
  | calMeasure _ _ => exact Calm.calMeasure h
  | overcurrentTrip _ _ => exact Calm.ite (.tripOff h) h
  | shortCircuitTrip _ => exact Calm.shortTrip h
  | tripInput _ _ => exact Calm.tripInput h
  | overtempTrip _ => exact Calm.overtempTrip h
  | blankingEnd _ _ => exact Calm.blankingEnd h
  | inrushEnd _ => exact Calm.setCh h
  | tripRetry _ => exact Calm.tripRetry h
  | shortOffEnd _ => exact Calm.resumed (.setCh h)
  | overtempRelease _ => exact Calm.resumed (.setCh h)
  | countingPeriodEnd _ => exact Calm.countingPeriodEnd h
  | peakPhaseEnd _ _ => exact Calm.peakEnd h
  | holdChopOff _ _ => exact Calm.holdChop h
  | lampMeasure _ _ => exact Calm.lampMeasure h
  | lampOffMeasure _ _ => exact Calm.lampOffMeasure h
  | ochCntclr _ => exact Calm.ite (.update h (hch := fun _ n hc => by simp only [vmap_get]; exact hc)) h
  | sinEdge _ _ _ _ => exact Calm.sinEdge h
  | sinUpdate _ => exact Calm.sinUpdate h
  | switchClassAccept _ _ => exact Calm.switchAccept h
  | wireOpenDetect _ => exact Calm.wireOpen h
  | fanStall _ => exact Calm.fanStall h
  | openLimExpiry _ => exact Calm.openLim h
  | sinCntclr _ => exact Calm.sinCntclr h
  | loopSample _ _ => exact Calm.loopSample h
  | loopSwapAct _ => exact Calm.loopSwapAct h
  | loopCoefCell _ => exact Calm.coefCell h
  | coefApply _ => exact Calm.applyCells h
  | coefAck _ => exact Calm.onUp .coefAcksTaken h
  | loopCoefResend _ => exact Calm.loopCoefResend h
  | acquisitionStart _ _ _ => exact Calm.acquire h
  | trackingDump _ _ _ _ _ _ => exact Calm.ite (.onTrack h) h
  | carrierLock _ => exact Calm.ite (.onTrack h) h
  | carrierLockLoss _ => exact Calm.ite (.onTrack h) h
  | gnssMeasure _ => exact Calm.gnssMeasure h
  | gnssSolution _ => exact Calm.ite (.takeSolution h) h
  | baselineCompute _ => exact Calm.baselineCompute h
  | burstEnd _ => exact Calm.burstEnd h
  | timeDateMessage _ _ => exact Calm.ite (.update h) h
  | gnssCntclr _ => exact Calm.ite (.clearGnss h) h
  | canFrameReceive _ _ => exact Calm.canFrameReceive h
  | abrTimeout _ => exact Calm.abrTimeout h
  | canTxStart _ => exact Calm.canTxStart h
  | canArbLost _ => exact Calm.onCan h
  | canBusError _ _ _ _ _ => exact Calm.canBusError h
  | canFrameSent _ => exact Calm.ite (.canFrameSent h) h
  | canRecoveryDone _ => exact Calm.canRecoveryDone h
  | canModeApply _ => exact Calm.canModeApply h
  | canWakeEdge _ => exact Calm.catchUp (.wake h)
  | canLeaveSleep _ => exact Calm.canLeaveSleep h
  | addressClaimed _ _ => exact Calm.addressClaimed h
  | commandedAddress _ _ => exact Calm.ite (.claimAddr h) h
  | moStatRead _ _ => exact Calm.ite (.moRead h) h
  | canCntclr _ _ => exact Calm.ite (.clearCan h) h
  | i2cWriteTransfer _ _ => exact Calm.i2cWrite h
  | i2cReadTransfer _ _ => exact Calm.i2cRead h
  | mbReplyArrive _ => exact Calm.mailReply h
  | svcCntclr _ => exact Calm.ite (.clearSvc h) h
  | wake _ _ => exact Calm.catchUp (.wake h)
  | fieldWakePulse _ => exact Calm.catchUp (.fieldWakePulse h)
  | dbgSel _ _ => exact Calm.dbgSel h
  | tapBoundaryScan _ => exact Calm.boundaryScan h
  | dbgReq _ => exact Calm.dbgReq h
  | dbgData _ => exact Calm.onUp .debugBytes h
  | secCntclr _ => exact Calm.clearSec h
  | fimgChunk _ _ => exact Calm.onDown .chunkTaken h
  | fimgDigestReady _ => exact Calm.digestReady h
  | eventMessage _ => exact Calm.eventMessage h
  | eventResend _ => exact Calm.ite h (by split; exacts [.upCell h, h])
  | fevClose _ => exact Calm.ite (.closeFieldRec h) h
  | evtCntclr _ => exact Calm.ite (.clearEvt h) h
  | disagreeOn _ _ => exact Calm.disagreeOn h
  | disagreeOff _ _ => exact Calm.disagreeOff h
  | disagreeEnd _ => exact Calm.setCh h
  | disconnectHoldExpiry _ _ => exact Calm.ite (.openDisc (.setCh (.takeSample h))) h
  | sweepSlotEnd _ _ _ _ => exact Calm.sweepSlotEnd h
  | captureData _ => exact Calm.captureData h
  | sweepCtrl _ => exact Calm.sweepCtrl h
  | holdPeriodStart _ => exact Calm.holdStart h
  | tpSessionTimeout _ _ => exact Calm.tpTimeout h
  | lsupRise => exact Calm.catchUp (.lsupRise h)
  | lsupLoss => exact Calm.lsupLoss h
  | fsupUndervoltage => exact Calm.ite (.enterClay (.toFieldFrame (.note (.update h)))) h
  | fsupRestart =>
    change Calm Q B _
    split
    · exact h
    · exact Calm.liftCause (.update h)
    · exact Calm.enterClay (.liftCause (.update h))
  | fsupLoss => exact Calm.ite h (.loseField (.enterClay (.update h)))
  | boot => exact Calm.catchUp (.boot h)
  | keyInFall => exact Calm.update h
  | keyInShutdown => exact Calm.keyInShutdown h
  | keyInRise => exact Calm.catchUp (.keyInRise h)
  | shutdownRetry => exact Calm.ite (.ownTxn h) h
  | shutdownForce => exact Calm.shutdownForce h
  | cellRetentionLost => exact Calm.ite h (.foldl (fun _ h => .ite (.stopDom h) h) h)
  | cellRemoved => exact Calm.update h
  | ppsPulseEnd => exact Calm.ite (.update (.advanceTo h)) h
  | timeMarkSend => exact Calm.timeMarkSend h
  | linkUpRetry => exact Calm.ite (.enableLanes (.toEdge h)) h
  | holdoverLimit => exact Calm.ite (.note (.update h)) h
  | originStep => exact Calm.originStep h
  | tbNowLoRead => exact Calm.readNow h
  | timeFrameInsert => exact Calm.ite (.insertTime (.toEdge h)) h
  | laneEnable => exact Calm.ite (.enableLanes h) h
  | linkUpAbandon => exact Calm.linkUpAbandon h
  | barrierLossHost => exact Calm.ite (.note (.update (.enterClay (.dropLink h)))) h
  | barrierLossField => exact Calm.ite (.enterClay (.update (.toFieldFrame h))) h
  | hostHeartbeatTimeout => exact Calm.ite (.enterClay (.toFieldFrame h)) h
  | fcoreStall => exact Calm.ite (.raise h) h
  | oneShotFire => exact Calm.ite (.update (oneShot_calm h)) h
  | oneShotRelease => exact Calm.ite (.update h) h
  | timeSyncSend => exact Calm.ite (.sendUrgent (.toEdge h)) h
  | schedWriteAct => exact Calm.schedWriteAct h
  | safeReqResend =>
    change Calm Q B _
    split
    · exact Calm.sendSafe h
    · exact h
  | ownFrameInsert => exact Calm.insertOwn h
  | insertWaitExpiry => exact Calm.insertDue h
  | enumStallTimeout => exact Calm.enumStallTimeout h
  | claimResend => exact Calm.claimResend h
  | islandPolicyTimeout =>
    change Calm Q B _
    split
    · exact Calm.policyClay (.advanceTo h)
    · exact h
  | duplicateEntryExpiry => exact Calm.update h
  | originEntryExpiry => exact Calm.update h
  | schedHandover =>
    change Calm Q B _
    split
    · exact Calm.ite (.handOver h) h
    · exact h
  | schedAct => exact Calm.schedAct h
  | deferredServe => exact Calm.deferredServe h
  | loopTestGo => exact Calm.ite (.testGo h) h
  | loopTestAbort => exact Calm.ite (.testAbort h) h
  | setCommitDone => exact Calm.commitDone h
  | imgEraseDone => exact Calm.update h
  | nonceExpiry => exact Calm.update h
  | sessionExpiry => exact Calm.catchUp (.sessionExpiry h)
  | edgeHandover => exact Calm.edgeHandover h
  | motionLost => exact Calm.ite (.loseMotion (by split; exacts [.advanceTo h, h])) h
  | tcSectionAuto => exact Calm.ite (.plannerRelease (.update h)) h
  | operatorWorkEnable => exact Calm.ite (.plannerRelease (.sendBoundary (.update h))) h
  | staggerEnergise => exact Calm.staggerEnergise h
  | captureEnd => exact Calm.captureEnd h
  | measSend => exact Calm.measSend h
  | burstStart => exact Calm.burstStart h
  | rtcmStale => exact Calm.ite h (.update h)
  | antShort => exact Calm.ite (.note (.update h)) h
  | antOpen => exact Calm.ite (.note (.draw (.update h))) h
  | addressClaimStart => exact Calm.ite (.claimAddr h) h
  | addrClaimComplete => exact Calm.ite (.update h) h
  | requestAddressClaimed => exact Calm.ite h (.ite (.sendIso h) (.ite (.sendIso h) h))
  | i2cBusError => exact Calm.ite (.update (.attentionWithdraw h)) h
  | i2cStuck => exact Calm.ite (.update (.attentionWithdraw h)) h
  | mbGo => exact Calm.mbCommand h
  | mbNext => exact Calm.mbCommand h
  | mbStatRead => exact Calm.ite (.mbStatRead h) h
  | attentionSend => exact Calm.ite (.update h) h
  | attentionPulseEnd => exact Calm.ite (.update h) h
  | attentionWithdraw => exact Calm.attentionWithdraw h
  | tckWake => exact Calm.catchUp (.wake h)
  | pwrfStatRead => exact Calm.ite (.fieldReadAct h) h
  | fcoreHalt => exact Calm.haltF h
  | fcoreResume => exact Calm.resumeF h
  | hcoreHalt => exact Calm.ite (.update h) h
  | hcoreResume => exact Calm.catchUp (.resumeH h)
  | tapReset => exact Calm.ite (.resetNow (.update h)) h
  | fimgClear => exact Calm.ite (.update h) h
  | fimgCheck => exact Calm.ite (.update h) h
  | fimgStart => exact Calm.startFimg h
  | eventHandle => exact Calm.eventHandle h
  | fdiscCtrlOpen => exact Calm.openDisc h
  | fdiscCtrlClose => exact Calm.closeDisc h
  | softStartEnd => exact Calm.ite (.resumed (.update (.toFieldFrame h))) h
  | timevalidExpiry => exact Calm.ite (.chooseRef (.update h)) h
  | internalHoldUpExhausted =>
    exact Calm.ite (.powerUp (.hostPowerLost (.enterClay (.stopLink (.detachAll (.update h)))))) h
  | wakeLogicSupplyLost => exact Calm.ite h (.hostPowerLost h)

/-- A step executes the command at the front of the queue, or lets time pass. -/
theorem step_calm (h : Calm Q B s) : NextCalm Q B (step s) := by
  unfold step
  split
  · exact exec_calm _ (.update h)
  · exact Calm.ite (.advance h) h

/-- Settles O4: Clay entry quiets every channel, and what commands one on acts out of Clay alone (`exec_calm`). -/
theorem everyStepKeepsClayQuiet : Obligations.EveryStepKeepsClayQuiet := by
  intro s t h hstep
  have hnext : NextCalm True False (step s) := step_calm ⟨fun _ => h, False.elim⟩
  rw [hstep] at hnext
  exact hnext.1 trivial

/-- Settles O6: a record displaces another where its queue is full (`exec_calm`). -/
theorem everyStepKeepsTheEventQueuesBounded : Obligations.EveryStepKeepsTheEventQueuesBounded := by
  intro s t h hstep
  have hnext : NextCalm False True (step s) := step_calm ⟨False.elim, fun _ => h⟩
  rw [hstep] at hnext
  exact hnext.2 trivial

end Sys2Proof.Safety

/-! Requests that reach their opcode: the state in which they are served, what they are answered, and what serving
them leaves as it was. -/

namespace Sys2Proof.Proofs

open Sys2Proof.Machine Sys2Proof.Safety Sys2Proof.Laws

/-- Taking a request in touches the memory of requests and the packet counters alone. -/
theorem taken_shape (q : Request) (s : State) : ∃ d c a b v, taken q s =
    { s with pkt := { s.pkt with dups := d, chain := c, canA := a, canB := b, svc := v } } := by
  unfold taken countAccepted remember
  dsimp only
  split <;> exact ⟨_, _, _, _, _, rfl⟩

@[simp] theorem taken_frame (q : Request) (s : State) :
    (taken q s).pending = s.pending ∧ (taken q s).free = s.free ∧ (taken q s).id = s.id ∧
    (taken q s).modes = s.modes ∧ (taken q s).regs = s.regs ∧ (taken q s).clk = s.clk ∧
    (taken q s).barr = s.barr ∧ (taken q s).chain = s.chain ∧ (taken q s).out = s.out ∧
    (taken q s).sense = s.sense ∧ (taken q s).loop = s.loop ∧ (taken q s).gnss = s.gnss ∧
    (taken q s).canA = s.canA ∧ (taken q s).canB = s.canB ∧ (taken q s).svc = s.svc ∧ (taken q s).pwr = s.pwr ∧
    (taken q s).sec = s.sec ∧ (taken q s).fw = s.fw ∧ (taken q s).ev = s.ev ∧ (taken q s).sect = s.sect := by
  obtain ⟨d, c, a, b, v, h⟩ := taken_shape q s
  rw [h]
  simp

/-- What a function of the state reads beside the memory of requests and the packet counters stays when a request is
taken in. -/
theorem taken_keep {α : Type} (f : State → α) (q : Request) (s : State)
    (hf : ∀ d c a b v, f { s with pkt := { s.pkt with dups := d, chain := c, canA := a, canB := b, svc := v } } = f s :=
      by exact fun _ _ _ _ _ => rfl) : f (taken q s) = f s := by
  obtain ⟨d, c, a, b, v, h⟩ := taken_shape q s
  rw [h]
  exact hf d c a b v

/-! ## Frames of a step -/

theorem only_mono {ps qs : List Part} {s t : State} (h : Only ps s t) (hsub : ps ⊆ qs) : Only qs s t :=
  fun p hp => h p fun hmem => hp (hsub hmem)

theorem only_served {ps : List Part} {s t : State} (h : Only ps s t) : Served ps s t :=
  only_mono h fun _ hp => by simp [hp]

theorem same_trans {p : Part} {s t u : State} (h : same p s t) (g : same p t u) : same p s u := by
  cases p <;> exact Eq.trans g h

theorem only_trans {ps : List Part} {s t u : State} (h : Only ps s t) (g : Only ps t u) : Only ps s u :=
  fun p hp => same_trans (h p hp) (g p hp)

/-- A reply touches only the chain's queues, the packet layer and the mailbox. -/
theorem served_reply {ps : List Part} {s u : State} (q : Request) (a : Ans) (h : Served ps s u) :
    Served ps s (reply q a u) := by
  intro p hp
  have hu := h p hp
  cases p <;> simp_all [same]

/-- What changes from the state in which a request is served is all that changes. -/
theorem served_of_taken {ps : List Part} {q : Request} {s u : State} (h : Served ps (taken q s) u) :
    Served ps s u := by
  intro p hp
  have hu := h p hp
  cases p <;> simp_all [same]

/-- What the action of a request changes, and its reply, are all that the step changes. -/
theorem served_answer {ps : List Part} {s u : State} (q : Request) (a : Ans)
    (h : Only ps (taken q s) u) : Served ps s (reply q a u) :=
  served_reply q a (served_of_taken (only_served h))

/-- An accepted request whose action answers a at once is answered with a. -/
theorem answers_of (o : Op) {c : Instr} {q : Request} {s : State} {f : State → State} {a : Ans}
    (h : Accepted o.code q s) (hexec : exec c s = .next (serve o q s) := by rfl)
    (hl : o.life q (taken q s) = none := by rfl) (hc : o.check q (taken q s) = none)
    (hact : o.act q (taken q s) = (f (taken q s), some a))
    (hafter : a.status ≠ 0 ∨ ∀ u, o.after q u = u := by exact .inr fun _ => rfl) : Answers c q s f a := by
  rw [Answers, hexec, serve_accepted o q s h hl hc, hact]
  dsimp only [Option.map_some, Option.getD_some]
  split
  · rfl
  · next hz =>
    rcases hafter with hst | hid
    · exact absurd (by simpa using hst) hz
    · rw [hid]

/-- An accepted request whose action leads to u and answers a at once. -/
theorem completes_of (o : Op) {c : Instr} {q : Request} {s u : State} {a : Ans} {P : State → Prop}
    (h : Accepted o.code q s) (hc : o.check q (taken q s) = none)
    (hact : o.act q (taken q s) = (u, some a)) (hP : P (reply q a u))
    (hexec : exec c s = .next (serve o q s) := by rfl)
    (hl : o.life q (taken q s) = none := by rfl)
    (hafter : a.status ≠ 0 ∨ ∀ u, o.after q u = u := by exact .inr fun _ => rfl) : Completes c s P :=
  ⟨_, answers_of (f := fun _ => u) o h hexec hl hc hact hafter, hP⟩

/-- An accepted request whose action leads to u and answers later. -/
theorem exec_later (o : Op) {c : Instr} {q : Request} {s u : State}
    (h : Accepted o.code q s) (hc : o.check q (taken q s) = none) (hact : o.act q (taken q s) = (u, none))
    (hexec : exec c s = .next (serve o q s) := by rfl) (hl : o.life q (taken q s) = none := by rfl)
    (hafter : ∀ u, o.after q u = u := by exact fun _ => rfl) : exec c s = .next u := by
  rw [hexec, serve_accepted o q s h hl hc, hact]
  simp [hafter]

/-- The payload has the length that step 10 asks for. -/
theorem lenIs_of {n : Nat} {q : Request} (h : (reqBody q).length = n) : lenIs n q = none := if_pos h

/-! ## What sending a frame or a reply leaves of the chain and of the packet layer -/

/-- The chain side without the frames under way: what sending a frame leaves as it was. -/
def standing (s : State) : Chain :=
  { s.chain with rg5 := [], rg5Held := [], origins := [], upLine := none, dnLine := none, upBusyTo := 0, dnBusyTo := 0 }

theorem standing_of_chain {s t : State} (h : t.chain = s.chain) : standing t = standing s := by
  rw [standing, h, standing]

@[simp] theorem standing_queueUp (f : ChainFrame) (s : State) : standing (queueUp f s) = standing s := by
  unfold queueUp; dsimp only; split <;> rfl

@[simp] theorem standing_sendDown (f : ChainFrame) (s : State) : standing (sendDown f s) = standing s := by
  unfold sendDown; split <;> rfl

@[simp] theorem standing_routeReply (via : Via) (p : Packet) (s : State) :
    standing (routeReply via p s) = standing s := by
  cases via with
  | chain _ | headHost => exact standing_queueUp _ s
  | svc => exact standing_of_chain (by simp [routeReply])
  | can _ _ | planner => rfl

@[simp] theorem standing_sendPackets (q : Request) (s : State) : standing (sendPackets q s) = standing s :=
  foldl_keep standing _ (fun _ _ => standing_sendDown _ _) _ s

@[simp] theorem standing_forwardPackets (q : Request) (s : State) : standing (forwardPackets q s) = standing s := by
  rw [forwardPackets, standing_sendPackets]
  split <;> simp only [standing]

@[simp] theorem standing_payOwed (q : Request) (a : Ans) (s : State) : standing (payOwed q a s) = standing s := by
  have herase (k : Packets) : standing { s with pkt := k } = standing s := rfl
  simp only [payOwed, apply_ite standing, standing_forwardPackets, herase, ite_self]

@[simp] theorem standing_reply (q : Request) (a : Ans) (s : State) : standing (reply q a s) = standing s := by
  have hroute (ps : List Packet) (u : State) :
      standing (ps.foldl (fun s p => routeReply q.via p s) u) = standing u :=
    foldl_keep standing _ (fun s p => standing_routeReply q.via p s) ps u
  have hmail (u : State) : standing (mailNoReply u) = standing u := standing_of_chain (by simp)
  have hlate (k : Packets) (u : State) : standing { u with pkt := k } = standing u := rfl
  have hstore (ps : List Packet) : standing (storeReply q ps s) = standing s := rfl
  simp only [reply, standing_payOwed, apply_ite standing, hroute, hmail, hlate, hstore, ite_self]

@[simp] theorem standing_taken (q : Request) (s : State) : standing (taken q s) = standing s :=
  standing_of_chain (taken_chain q s)

theorem isHead_of_standing {s t : State} (h : standing t = standing s) : isHead t = isHead s := by
  have := congrArg Chain.upPartner h
  simp_all [standing, isHead]

theorem islandHead_of_standing {s t : State} (h : standing t = standing s) : islandHead t = islandHead s := by
  have hup := congrArg Chain.upPartner h
  have hisland := congrArg Chain.island h
  simp_all [standing, islandHead]

/-- The packet layer without the memory of requests and the replies under way: what a reply leaves as it was. -/
def plans (s : State) : Packets :=
  { s.pkt with dups := [], canReplies := [], owed := [], lateReplies := 0, chain := {}, canA := {}, canB := {}, svc := {} }

theorem plans_of_pkt {s t : State} (h : t.pkt = s.pkt) : plans t = plans s := by
  rw [plans, h, plans]

@[simp] theorem plans_mailReply (p : Packet) (s : State) : plans (mailReply p s) = plans s := by
  have hload : plans (loadReply p s) = plans s := plans_of_pkt (by simp)
  have hheld (v : Svc) : plans { s with svc := v } = plans s := rfl
  have hdrop (c : PktCnt) : plans { s with pkt := { s.pkt with svc := c } } = plans s := rfl
  simp only [mailReply, apply_ite plans, hload, hheld, hdrop, ite_self]

@[simp] theorem plans_routeReply (via : Via) (p : Packet) (s : State) : plans (routeReply via p s) = plans s := by
  cases via with
  | chain _ | headHost => exact plans_of_pkt (by simp [routeReply])
  | svc => exact plans_mailReply p s
  | can _ _ | planner => rfl

@[simp] theorem plans_forwardPackets (q : Request) (s : State) : plans (forwardPackets q s) = plans s :=
  plans_of_pkt (by simp)

@[simp] theorem plans_payOwed (q : Request) (a : Ans) (s : State) : plans (payOwed q a s) = plans s := by
  have herase (l : List Request) : plans { s with pkt := { s.pkt with owed := l } } = plans s := rfl
  simp only [payOwed, apply_ite plans, plans_forwardPackets, herase, ite_self]

@[simp] theorem plans_reply (q : Request) (a : Ans) (s : State) : plans (reply q a s) = plans s := by
  have hroute (ps : List Packet) (u : State) :
      plans (ps.foldl (fun s p => routeReply q.via p s) u) = plans u :=
    foldl_keep plans _ (fun s p => plans_routeReply q.via p s) ps u
  have hmail (u : State) : plans (mailNoReply u) = plans u := plans_of_pkt (by simp)
  have hlate (k : BitVec 16) (u : State) : plans { u with pkt := { u.pkt with lateReplies := k } } = plans u := rfl
  have hstore (ps : List Packet) : plans (storeReply q ps s) = plans s := rfl
  simp only [reply, plans_payOwed, apply_ite plans, hroute, hmail, hlate, hstore, ite_self]

@[simp] theorem plans_taken (q : Request) (s : State) : plans (taken q s) = plans s :=
  taken_keep plans q s

theorem plans_fields {s t : State} (h : plans t = plans s) :
    t.pkt.sched = s.pkt.sched ∧ t.pkt.acted = s.pkt.acted ∧ t.pkt.schedMost = s.pkt.schedMost ∧
    t.pkt.asms = s.pkt.asms ∧ t.pkt.fdAsms = s.pkt.fdAsms ∧ t.pkt.deferred = s.pkt.deferred ∧
    t.pkt.plannerRefused = s.pkt.plannerRefused ∧ t.pkt.linkUse = s.pkt.linkUse ∧
    t.pkt.chainDeferred = s.pkt.chainDeferred ∧ t.pkt.chainRefused = s.pkt.chainRefused ∧
    t.pkt.barrDeferred = s.pkt.barrDeferred ∧ t.pkt.barrRefused = s.pkt.barrRefused := by
  simpa only [plans, Packets.mk.injEq, true_and, and_true] using h

theorem standing_fields {s t : State} (h : standing t = standing s) :
    t.chain.upLock = s.chain.upLock ∧ t.chain.dnLock = s.chain.dnLock ∧
    t.chain.upPartner = s.chain.upPartner ∧ t.chain.dnPartner = s.chain.dnPartner ∧
    t.chain.upKnown = s.chain.upKnown ∧ t.chain.dnKnown = s.chain.dnKnown ∧
    t.chain.upMiswire = s.chain.upMiswire ∧ t.chain.dnMiswire = s.chain.dnMiswire ∧
    t.chain.island = s.chain.island ∧ t.chain.enumBusy = s.chain.enumBusy ∧
    t.chain.policyExpired = s.chain.policyExpired ∧ t.chain.addr = s.chain.addr ∧
    t.chain.addrValid = s.chain.addrValid ∧ t.chain.chainId = s.chain.chainId ∧ t.chain.hop = s.chain.hop ∧
    t.chain.gen = s.chain.gen ∧ t.chain.headAddr = s.chain.headAddr ∧ t.chain.upBreaks = s.chain.upBreaks ∧
    t.chain.dnBreaks = s.chain.dnBreaks ∧ t.chain.errUp = s.chain.errUp ∧ t.chain.errDn = s.chain.errDn ∧
    t.chain.dupCount = s.chain.dupCount ∧ t.chain.dupHop = s.chain.dupHop ∧ t.chain.walk = s.chain.walk ∧
    t.chain.walkGen = s.chain.walkGen ∧ t.chain.walked = s.chain.walked ∧ t.chain.claim = s.chain.claim ∧
    t.chain.breakFrame = s.chain.breakFrame ∧ t.chain.policy = s.chain.policy ∧
    t.chain.islandTimer = s.chain.islandTimer ∧ t.chain.marlCount = s.chain.marlCount ∧
    t.chain.marlLast = s.chain.marlLast ∧ t.chain.rg4 = s.chain.rg4 ∧ t.chain.dnGained = s.chain.dnGained ∧
    t.chain.fullDue = s.chain.fullDue ∧ t.chain.dupReports = s.chain.dupReports ∧
    t.chain.headPlanner = s.chain.headPlanner := by
  simpa only [standing, Chain.mk.injEq, true_and, and_true] using h

@[simp] theorem reply_plans (q : Request) (a : Ans) (s : State) :
    (reply q a s).pkt.sched = s.pkt.sched ∧ (reply q a s).pkt.acted = s.pkt.acted ∧
    (reply q a s).pkt.schedMost = s.pkt.schedMost ∧ (reply q a s).pkt.asms = s.pkt.asms ∧
    (reply q a s).pkt.fdAsms = s.pkt.fdAsms ∧ (reply q a s).pkt.deferred = s.pkt.deferred ∧
    (reply q a s).pkt.plannerRefused = s.pkt.plannerRefused ∧ (reply q a s).pkt.linkUse = s.pkt.linkUse ∧
    (reply q a s).pkt.chainDeferred = s.pkt.chainDeferred ∧ (reply q a s).pkt.chainRefused = s.pkt.chainRefused ∧
    (reply q a s).pkt.barrDeferred = s.pkt.barrDeferred ∧ (reply q a s).pkt.barrRefused = s.pkt.barrRefused :=
  plans_fields (plans_reply q a s)

@[simp] theorem taken_plans (q : Request) (s : State) :
    (taken q s).pkt.sched = s.pkt.sched ∧ (taken q s).pkt.acted = s.pkt.acted ∧
    (taken q s).pkt.schedMost = s.pkt.schedMost ∧ (taken q s).pkt.asms = s.pkt.asms ∧
    (taken q s).pkt.fdAsms = s.pkt.fdAsms ∧ (taken q s).pkt.deferred = s.pkt.deferred ∧
    (taken q s).pkt.plannerRefused = s.pkt.plannerRefused ∧ (taken q s).pkt.linkUse = s.pkt.linkUse ∧
    (taken q s).pkt.chainDeferred = s.pkt.chainDeferred ∧ (taken q s).pkt.chainRefused = s.pkt.chainRefused ∧
    (taken q s).pkt.barrDeferred = s.pkt.barrDeferred ∧ (taken q s).pkt.barrRefused = s.pkt.barrRefused :=
  plans_fields (plans_taken q s)

@[simp] theorem reply_standing (q : Request) (a : Ans) (s : State) :
    (reply q a s).chain.upLock = s.chain.upLock ∧ (reply q a s).chain.dnLock = s.chain.dnLock ∧
    (reply q a s).chain.upPartner = s.chain.upPartner ∧ (reply q a s).chain.dnPartner = s.chain.dnPartner ∧
    (reply q a s).chain.upKnown = s.chain.upKnown ∧ (reply q a s).chain.dnKnown = s.chain.dnKnown ∧
    (reply q a s).chain.upMiswire = s.chain.upMiswire ∧ (reply q a s).chain.dnMiswire = s.chain.dnMiswire ∧
    (reply q a s).chain.island = s.chain.island ∧ (reply q a s).chain.enumBusy = s.chain.enumBusy ∧
    (reply q a s).chain.policyExpired = s.chain.policyExpired ∧ (reply q a s).chain.addr = s.chain.addr ∧
    (reply q a s).chain.addrValid = s.chain.addrValid ∧ (reply q a s).chain.chainId = s.chain.chainId ∧
    (reply q a s).chain.hop = s.chain.hop ∧ (reply q a s).chain.gen = s.chain.gen ∧
    (reply q a s).chain.headAddr = s.chain.headAddr ∧ (reply q a s).chain.upBreaks = s.chain.upBreaks ∧
    (reply q a s).chain.dnBreaks = s.chain.dnBreaks ∧ (reply q a s).chain.errUp = s.chain.errUp ∧
    (reply q a s).chain.errDn = s.chain.errDn ∧ (reply q a s).chain.dupCount = s.chain.dupCount ∧
    (reply q a s).chain.dupHop = s.chain.dupHop ∧ (reply q a s).chain.walk = s.chain.walk ∧
    (reply q a s).chain.walkGen = s.chain.walkGen ∧ (reply q a s).chain.walked = s.chain.walked ∧
    (reply q a s).chain.claim = s.chain.claim ∧ (reply q a s).chain.breakFrame = s.chain.breakFrame ∧
    (reply q a s).chain.policy = s.chain.policy ∧ (reply q a s).chain.islandTimer = s.chain.islandTimer ∧
    (reply q a s).chain.marlCount = s.chain.marlCount ∧ (reply q a s).chain.marlLast = s.chain.marlLast ∧
    (reply q a s).chain.rg4 = s.chain.rg4 ∧ (reply q a s).chain.dnGained = s.chain.dnGained ∧
    (reply q a s).chain.fullDue = s.chain.fullDue ∧ (reply q a s).chain.dupReports = s.chain.dupReports ∧
    (reply q a s).chain.headPlanner = s.chain.headPlanner :=
  standing_fields (standing_reply q a s)

end Sys2Proof.Proofs

/-! Queries and withdrawn commands. -/

namespace Sys2Proof.Proofs

open Sys2Proof.Machine Sys2Proof.Safety Sys2Proof.Laws

/-- A query, which leaves the state as it is and answers DONE with what f reads of it. -/
theorem answers_query (o : Op) {c : Instr} {q : Request} {s : State} (f : State → List Byte)
    (h : Accepted o.code q s) (hc : o.check q (taken q s) = none)
    (hact : o.act q (taken q s) = (taken q s, done (f (taken q s))))
    (hf : ∀ d c a b v, f { s with pkt := { s.pkt with dups := d, chain := c, canA := a, canB := b, svc := v } } = f s :=
      by exact fun _ _ _ _ _ => rfl)
    (hexec : exec c s = .next (serve o q s) := by rfl) (hl : o.life q (taken q s) = none := by rfl)
    (hafter : ∀ u, o.after q u = u := by exact fun _ => rfl) : Answers c q s id { data := f s } :=
  answers_of o h hexec hl hc (by rw [hact, taken_keep f q s hf]; rfl) (.inr hafter)

theorem chainData_words (s : State) : chainData s =
    be 4 (chAddr s).toNat ++ be 4 (chHop s).toNat ++ be 4 (chStat s).toNat ++ be 4 (chBreak (atEdge s)).toNat ++
      be 4 (portErrWord s.ev.snap.errUp).toNat ++ be 4 (portErrWord s.ev.snap.errDn).toNat ++
      be 4 (s.clk.hopDly.setWidth 32 : Word).toNat := by
  simp [chainData, atEdge]

theorem queriesAnswer (q : Request) (s : State) (hlen : (reqBody q).length = 0) :
    (Accepted 0x00 q s → Answers (.idGet q) q s id { data := idData s }) ∧
    (Accepted 0x05 q s → Answers (.statusGet q) q s id { data := statusData s }) ∧
    (Accepted 0x11 q s → Answers (.chainGet q) q s id { data := chainData s }) ∧
    (Accepted 0x18 q s → Answers (.tbRead q) q s id { data := tbData s }) ∧
    (Accepted 0x79 q s → Answers (.pdGet q) q s id {
      data := (List.finRange 18).map fun d => BitVec.ofNat 8 (domCode s d) }) :=
  ⟨fun h => answers_query opIdGet idData h (lenIs_of hlen) rfl,
    fun h => answers_query opStatusGet statusData h (lenIs_of hlen) rfl,
    fun h => answers_query opChainGet chainData h (lenIs_of hlen) rfl,
    fun h => answers_query opTbRead tbData h (lenIs_of hlen) rfl,
    fun h => answers_query opPdGet (fun s => (List.finRange 18).map fun d => BitVec.ofNat 8 (domCode s d)) h
      (lenIs_of hlen) rfl⟩

/-! ## CANCEL -/

theorem cancelAct_found {q : Request} {s : State} {c : SchedCmd}
    (hc : earliest (s.pkt.sched.filter (cancels q)) = some c) : cancelAct q s =
      if frameDiff c.q.pkt.applyAt (now s) ≤ 0 then (s, refuse 0x31 0)
      else if c.handed && hasFieldPart c.q then (s, refuse 0x31 0x0C)
      else
        let s := { s with pkt := { s.pkt with sched := dropFirst (fun x => x == c) s.pkt.sched } }
        (if c.q.pkt.opcode == 0x5A then abortSweep 5 s else s, done []) := by
  rw [cancelAct, hc]

theorem cancelAnswers (q : Request) (s : State) (hlen : (reqBody q).length = 4) (h : Accepted 0x06 q s) :
    (∀ c : SchedCmd, earliest (s.pkt.sched.filter (cancels q)) = some c →
      (frameDiff c.q.pkt.applyAt (now s) ≤ 0 → Answers (.cancel q) q s id { status := 0x31 }) ∧
      (0 < frameDiff c.q.pkt.applyAt (now s) → (c.handed && hasFieldPart c.q) = true →
        Answers (.cancel q) q s id { status := 0x31, detail := 0x0C }) ∧
      (0 < frameDiff c.q.pkt.applyAt (now s) → (c.handed && hasFieldPart c.q) = false → c.q.pkt.opcode ≠ 0x5A →
        Answers (.cancel q) q s (fun u => { u with pkt := { u.pkt with
          sched := dropFirst (fun x => x == c) u.pkt.sched } }) {})) ∧
    (earliest (s.pkt.sched.filter (cancels q)) = none → s.pkt.acted.any (cancels q) = false →
      Answers (.cancel q) q s id { status := 0x21, detail := 0x0B }) := by
  have hsched : (taken q s).pkt.sched = s.pkt.sched := taken_keep (fun s => s.pkt.sched) q s
  have hacted : (taken q s).pkt.acted = s.pkt.acted := taken_keep (fun s => s.pkt.acted) q s
  have hnow : now (taken q s) = now s := taken_keep now q s
  refine ⟨fun c hc => ?_, fun hc hacts => ?_⟩
  · rw [← hsched] at hc
    have hact := cancelAct_found hc
    rw [hnow] at hact
    refine ⟨fun hpast => ?_, fun hahead hhanded => ?_, fun hahead hhanded hop => ?_⟩
    · exact answers_of opCancel h rfl rfl (lenIs_of hlen) (hact.trans (if_pos hpast))
    · exact answers_of opCancel h rfl rfl (lenIs_of hlen)
        (hact.trans ((if_neg (by omega)).trans (if_pos hhanded)))
    · exact answers_of opCancel h rfl rfl (lenIs_of hlen)
        (hact.trans ((if_neg (by omega)).trans ((if_neg (by simp [hhanded])).trans (by rw [beq_eq_false_iff_ne.mpr hop]; rfl))))
  · refine answers_of opCancel h rfl rfl (lenIs_of hlen) ?_
    change cancelAct q (taken q s) = _
    rw [cancelAct, hsched, hc, hacted, hacts]
    rfl

/-! ## TB_REALIGN -/

@[simp] theorem insertTime_clk (s : State) : (insertTime s).clk = s.clk := by simp

/-- The origin step that a node with solution v announces (R38). -/
def originStepOf (s : State) (v : GnssSol) : OriginStep :=
  ⟨BitVec.ofNat 32 ((s.clk.tb.toNat + ticksPerEpoch - 1) / ticksPerEpoch + 2), BitVec.ofInt 32 (misalignment s v)⟩

theorem announceStep_announced {s : State} {v : GnssSol} (hsol : s.gnss.sol = some v) :
    (announceStep s).clk.announced = some (originStepOf s v) ∧ (announceStep s).clk.tb = s.clk.tb := by
  simp [announceStep, hsol, originStepOf]

theorem served_insertTime {ps : List Part} {s u : State} (h : Served ps s u) : Served ps s (insertTime u) := by
  intro p hp
  have hu := h p hp
  cases p <;> simp_all [same]

theorem tbRealignAnswers (q : Request) (s : State) (hlen : (reqBody q).length = 0) (h : Accepted 0x19 q s) :
    (s.gnss.timeValid = false ∨ s.gnss.sol = none →
      Answers (.tbRealign q) q s id { status := 0x11, detail := 0x28 }) ∧
    (∀ v, s.gnss.timeValid = true → s.gnss.sol = some v → s.clk.originGps = true →
      Answers (.tbRealign q) q s id { status := 0x11, detail := 0x29 }) ∧
    (∀ v, s.gnss.timeValid = true → s.gnss.sol = some v → s.clk.originGps = false →
      Completes (.tbRealign q) s fun t =>
        (∃ a : OriginStep, t.clk.announced = some a ∧
          a.epoch = BitVec.ofNat 32 ((s.clk.tb.toNat + ticksPerEpoch - 1) / ticksPerEpoch + 2) ∧
          a.d = BitVec.ofInt 32 (misalignment s v) ∧
          Answered q { data := be 4 a.epoch.toNat ++ be 4 a.d.toNat } t) ∧
        t.clk.tb = s.clk.tb ∧ Served [.clk] s t) := by
  refine ⟨fun hno => ?_, fun v htime hsol hgps => ?_, fun v htime hsol hgps => ?_⟩
  · refine answers_of opTbRealign h rfl rfl (lenIs_of hlen) ?_
    change tbRealignAct q (taken q s) = _
    rcases hno with hno | hno <;> simp [tbRealignAct, hno, refuse]
  · refine answers_of opTbRealign h rfl rfl (lenIs_of hlen) ?_
    change tbRealignAct q (taken q s) = _
    simp [tbRealignAct, htime, hsol, hgps, refuse]
  · have hstep : originStepOf (taken q s) v = originStepOf s v := taken_keep (originStepOf · v) q s
    obtain ⟨hann, htb⟩ := announceStep_announced (s := taken q s) (v := v) (by simpa using hsol)
    rw [hstep] at hann
    refine completes_of opTbRealign h (lenIs_of hlen) (u := announceStep (taken q s))
      (a := { data := be 4 (originStepOf s v).epoch.toNat ++ be 4 (originStepOf s v).d.toNat }) ?_ ?_
    · change tbRealignAct q (taken q s) = _
      simp only [tbRealignAct, taken_frame, htime, hsol, hgps, hann]
      rfl
    · refine ⟨⟨_, by simpa using hann, rfl, rfl, _, rfl⟩, by simpa using htb, served_reply _ _ ?_⟩
      simp only [announceStep, taken_frame, hsol]
      refine served_insertTime fun p hp => ?_
      cases p <;> simp_all [same]

/-- Settles O12: the queries, CANCEL and TB_REALIGN, each by the one branch of its action that the premises choose. -/
theorem queriesAnswerAndCommandsAreWithdrawn : Obligations.QueriesAnswerAndCommandsAreWithdrawn := by
  unfold Obligations.QueriesAnswerAndCommandsAreWithdrawn
  refine ⟨fun q s hlen => ?_, fun q s => ⟨cancelAnswers q s, tbRealignAnswers q s⟩⟩
  have h := queriesAnswer q s hlen
  rw [chainData_words] at h
  exact h

end Sys2Proof.Proofs

/-! Clay is entered and released by command, and by the head's own planner. -/

namespace Sys2Proof.Proofs

open Sys2Proof.Machine Sys2Proof.Safety Sys2Proof.Laws

theorem unscheduled_of_accepted {code : Nat} {q : Request} {s : State} (h : Accepted code q s) :
    q.pkt.sched = false := by
  obtain ⟨⟨_, -, -, -, -, -, -, -, -, -, -, hs, -⟩, -⟩ := h
  exact hs

theorem hcoreRuns_of_accepted {code : Nat} {q : Request} {s : State} (h : Accepted code q s) :
    hcoreRuns s = true := by
  obtain ⟨⟨_, -, hrun, -⟩, -⟩ := h
  exact hrun

/-- An accepted request whose action leads to u and answers a at once with DONE, after which the opcode's own sequel
runs. -/
theorem completes_after (o : Op) {c : Instr} {q : Request} {s u : State} {a : Ans} {P : State → Prop}
    (h : Accepted o.code q s) (hc : o.check q (taken q s) = none)
    (hact : o.act q (taken q s) = (u, some a)) (hst : a.status = 0) (hP : P (o.after q (reply q a u)))
    (hexec : exec c s = .next (serve o q s) := by rfl)
    (hl : o.life q (taken q s) = none := by rfl) : Completes c s P := by
  refine ⟨_, hexec, ?_⟩
  rw [serve_accepted o q s h hl hc, hact]
  simpa [hst] using hP

theorem idClay_congr {s t : State} (h : t.modes = s.modes) : idClay t = idClay s := by rw [idClay, idClay, h]

/-! ## CLAY_ENTER -/

theorem quiet_of_calm {s t : State} (hcalm : Calm True False s → Calm True False t) (hclay : t.modes.clay = true)
    (hs : ClayQuiet s) (n : Fin 32) : Quiet t.out.ch[n] :=
  (hcalm ⟨fun _ => hs, False.elim⟩).1 trivial hclay n

theorem toFrame_taken_clk (q : Request) (s : State) : (toFrame (taken q s)).clk = (toFrame s).clk :=
  taken_keep (fun s => (toFrame s).clk) q s

theorem clayEnterCompletes {q : Request} {s : State} (hlen : (reqBody q).length = 0) (h : Accepted 0x02 q s) :
    Completes (.clayEnter q) s fun t =>
      t.modes.clay = true ∧ t.modes.active = s.modes.active ||| cause 3 ∧ t.clk = (toFrame s).clk ∧
      (ClayQuiet s → ∀ n : Fin 32, Quiet t.out.ch[n]) ∧
      Answered q { status := if contradicted 0xFFFFFFFF s then 0x41 else 0, data := be 4 (idClay t).toNat } t ∧
      Served [.modes, .clk, .barr, .out, .sense, .loop, .fw, .ev, .sect] s t := by
  have hbad : contradicted 0xFFFFFFFF (toFrame (taken q s)) = contradicted 0xFFFFFFFF s := by simp [contradicted]
  refine completes_of opClayEnter h (lenIs_of hlen) (u := hostClay 3 (toFrame (taken q s)))
    (a := { status := if contradicted 0xFFFFFFFF s then 0x41 else 0
            data := be 4 (idClay (hostClay 3 (toFrame (taken q s)))).toNat }) ?_ ?_
  · change clayEnterAct q (taken q s) = _
    simp only [clayEnterAct, toActing, unscheduled_of_accepted h, hbad, Bool.false_eq_true, if_false]
  · have hclk := toFrame_taken_clk q s
    have hclay : (hostClay 3 (toFrame (taken q s))).modes.clay = true := by simp [hostClay]
    refine ⟨by simpa using hclay, by simp [hostClay], by simpa using hclk, fun hq => ?_, ?_, ?_⟩
    · simp only [reply_frame]
      exact quiet_of_calm (s := s)
        (fun hs => .hostClay (.frame hs (by simp))) hclay hq
    · rw [idClay_congr (reply_frame ..).2.2.2.1]
      exact ⟨_, rfl⟩
    · refine served_reply _ _ (served_of_taken (q := q) fun p hp => ?_)
      cases p <;> simp_all [same]

/-! ## CLAY_RELEASE -/

/-- Nothing but a cause holds against a release of the planner's own. -/
theorem releaseRefusal_none {q : Request} {s : State} (hsrc : plannerSource q s = true)
    (haddr : s.chain.addrValid = true) (htb : s.clk.valid = true) (hfield : fieldDomainsOn s = true)
    (hcfg : configuring s = false) : releaseRefusal q s = none := by
  simp [releaseRefusal, hsrc, haddr, htb, hfield, hcfg]

theorem releaseRefusal_acting {q : Request} {s : State} (h : releaseRefusal q s = none) :
    releaseRefusal q (toFrame (taken q s)) = none :=
  (taken_keep (fun s => releaseRefusal q (toFrame s)) q s).trans h

theorem leaveClay_modes (s : State) : (leaveClay s).modes =
    { s.modes with clay := false, latched := 0, active := 0, releaseFrame := now s } := by
  simp [leaveClay, releaseClay]

theorem leaveClay_clk (s : State) :
    (leaveClay s).clk = { s.clk with window := if isHead s then false else s.clk.window } := by
  simp [leaveClay, releaseClay]

/-- A release that succeeds. -/
def released (s : State) : State := if s.modes.clay then leaveClay s else s

theorem clayRelease_refused {q : Request} {s : State} (hlen : (reqBody q).length = 0) (h : Accepted 0x03 q s)
    (hfree : releaseRefusal q s = none) (hhold : holdingCauses s ≠ 0) :
    Answers (.clayRelease q) q s toFrame { status := 0x11, data := be 4 (s.modes.active.toNat * 65536) } := by
  refine answers_of opClayRelease h rfl rfl (lenIs_of hlen) ?_ (.inl (by simp))
  change clayReleaseAct q (taken q s) = _
  have hcauses : holdingCauses (toFrame (taken q s)) = holdingCauses s := by simp [holdingCauses]
  have hne : ¬ holdingCauses s = 0#16 := hhold
  simp [clayReleaseAct, toActing, unscheduled_of_accepted h, releaseRefusal_acting hfree, hcauses, hne, refuse,
    withActive]

theorem clayRelease_released {q : Request} {s : State} (hlen : (reqBody q).length = 0) (h : Accepted 0x03 q s)
    (hfree : releaseRefusal q s = none) (hhold : holdingCauses s = 0) : Completes (.clayRelease q) s fun t =>
      t.modes.clay = false ∧ (s.modes.clay = true → t.modes.active = 0) ∧
      t.clk.tb = (toFrame s).clk.tb ∧ (s.modes.clay = true → isHead s = true → t.clk.window = false) := by
  have hcauses : holdingCauses (toFrame (taken q s)) = 0 := by simpa [holdingCauses] using hhold
  have hhead : isHead (toFrame (taken q s)) = isHead s := by simp [isHead]
  have hclk := toFrame_taken_clk q s
  refine completes_after opClayRelease h (lenIs_of hlen) (u := released (toFrame (taken q s))) (a := {}) ?_ rfl ?_
  · change clayReleaseAct q (taken q s) = _
    simp [clayReleaseAct, toActing, unscheduled_of_accepted h, releaseRefusal_acting hfree, hcauses, done, released]
  · simp only [opClayRelease, repeatHolds_frame, bridgeAfterRelease_frame, reply_frame, released]
    split
    · simp +contextual [leaveClay_modes, leaveClay_clk, hclk, hhead]
    · simp_all

/-! ## The head's own planner (R22, R193, R195) -/

@[simp] theorem standing_insertTime (s : State) : standing (insertTime s) = standing s := by
  unfold insertTime; split <;> simp

/-- Announcing a step changes of the clock side only the step announced. -/
theorem announceStep_shape (s : State) : standing (announceStep s) = standing s ∧
    (announceStep s).clk.tb = s.clk.tb ∧ (announceStep s).clk.tree = s.clk.tree ∧
    (announceStep s).clk.valid = s.clk.valid := by
  unfold announceStep
  split
  · simp
  · refine ⟨(standing_insertTime _).trans rfl, ?_⟩
    simp

theorem autoStep_shape (s : State) : standing (autoStep s) = standing s ∧
    (autoStep s).clk.tb = s.clk.tb ∧ (autoStep s).clk.tree = s.clk.tree ∧ (autoStep s).clk.valid = s.clk.valid := by
  unfold autoStep
  split
  · exact announceStep_shape s
  · simp

/-- What a planner's release needs of the node that sends it. -/
structure MayRelease (s : State) : Prop where
  runs : hcoreRuns s = true
  head : isHead s = true
  own : islandHead s = false
  builtin : planner s ≠ 2
  loam : s.modes.mode = .loam
  alive : s.sec.life ≠ .retired
  timed : s.clk.valid = true
  named : s.chain.addrValid = true
  fielded : fieldDomainsOn s = true
  configured : configuring s = false
  room : s.pkt.sched.length < 64
  fresh : s.pkt.dups = []

theorem MayRelease.afterStep {s : State} (h : MayRelease s) : MayRelease (draw (autoStep s)) := by
  obtain ⟨hst, -, htree, hvalid⟩ := autoStep_shape s
  have hst' : standing (draw (autoStep s)) = standing s := (standing_of_chain (by simp)).trans hst
  have haddr : (autoStep s).chain.addrValid = s.chain.addrValid := by
    simp [standing_fields hst]
  exact {
    runs := by simpa [hcoreRuns, clockOn, htree, domOn] using h.runs
    head := (isHead_of_standing hst').trans h.head
    own := (islandHead_of_standing hst').trans h.own
    builtin := by simpa [planner, itemOr] using h.builtin
    loam := by simpa using h.loam
    alive := by simpa using h.alive
    timed := by simpa [hvalid] using h.timed
    named := by simpa [haddr] using h.named
    fielded := by simpa [fieldDomainsOn, domOn] using h.fielded
    configured := by simpa [configuring] using h.configured
    room := by simpa using h.room
    fresh := by simpa using h.fresh }

/-- The release of the planner waits for its frame, and nothing acts before it. -/
def ReleaseKept (s t : State) : Prop :=
  t.pkt.sched.any (fun c => c.q.via == .planner && c.q.pkt.opcode == 0x03 && c.q.pkt.applyAt == now s + 2000) = true ∧
  t.modes = s.modes ∧ t.out = s.out ∧ t.sect = s.sect

/-- The request of the planner's release. -/
def releaseRequest (s : State) : Request := plannerRequest 0x03 true (now s + 2000) [] s

theorem frameDiff_ahead (s : State) : frameDiff (now s + 2000) (now s) = 2000 := by
  rw [frameDiff, BitVec.add_comm, BitVec.add_sub_cancel]; rfl

/-- A request kept for its frame; a release needs no hand-over. -/
def keptCmd (q : Request) (s : State) : SchedCmd :=
  { q := q, handed := decide (frameDiff q.pkt.applyAt (now s) < 1000) }

theorem keepSched_release (q : Request) (s : State) :
    (keepSched opClayRelease q s).pkt.sched = s.pkt.sched ++ [keptCmd q s] ∧
    (keepSched opClayRelease q s).modes = s.modes ∧ (keepSched opClayRelease q s).out = s.out ∧
    (keepSched opClayRelease q s).sect = s.sect := by
  unfold keepSched
  dsimp only
  split <;> exact ⟨rfl, rfl, rfl, rfl⟩

/-- Step 12 of the planner's release in a state that its head's conditions hold in: it is kept for its frame. -/
theorem actOn_release {q : Request} {s : State} (hsched : q.pkt.sched = true)
    (hfree : releaseRefusal q s = none) :
    (actOn opClayRelease q s).pkt.sched = s.pkt.sched ++ [keptCmd q s] ∧
    (actOn opClayRelease q s).modes = s.modes ∧ (actOn opClayRelease q s).out = s.out ∧
    (actOn opClayRelease q s).sect = s.sect := by
  have howe (u : State) : (owe q u).pkt.sched = u.pkt.sched ∧ keptCmd q (owe q u) = keptCmd q u ∧
      releaseRefusal q (owe q u) = releaseRefusal q u := by
    unfold owe
    split <;> exact ⟨rfl, rfl, rfl⟩
  obtain ⟨howed, hkept, hrefusal⟩ := howe s
  obtain ⟨hsched', hmodes, hout, hsect⟩ := keepSched_release q (owe q s)
  have hnow : actNow opClayRelease q (owe q s) = (keepSched opClayRelease q (owe q s), some { status := 0x01 }) := by
    simp only [actNow, hsched, if_true]
    have haccept : opClayRelease.accept q (owe q s) = none := by simp [opClayRelease, hrefusal, hfree]
    rw [haccept]
    rfl
  simp only [actOn, hnow, hsched, Bool.true_or, if_true]
  split <;> simp [hsched', hmodes, hout, hsect, howed, hkept]

theorem releaseRefusal_own {s : State} (h : MayRelease s) (q : Request) (hvia : q.via = .planner) :
    releaseRefusal q s = none := by
  refine releaseRefusal_none ?_ h.named h.timed h.fielded h.configured
  have hplanner : ¬ planner s = 2#8 := h.builtin
  simp [plannerSource, h.head, hplanner, hvia]

/-- The planner's release passes the checks of Table 05-3 and is kept for its frame. -/
theorem serve_release {s : State} {q : Request} (h : MayRelease s) (hq : q = { releaseRequest s with
      pkt := { (releaseRequest s).pkt with seq := q.pkt.seq, chainId := q.pkt.chainId, src := q.pkt.src } }) :
    (serve opClayRelease q s).pkt.sched = s.pkt.sched ++ [keptCmd q s] ∧
    (serve opClayRelease q s).modes = s.modes ∧ (serve opClayRelease q s).out = s.out ∧
    (serve opClayRelease q s).sect = s.sect := by
  have hvia : q.via = .planner := by rw [hq]; rfl
  have hsched : q.pkt.sched = true := by rw [hq]; rfl
  have hcls : q.pkt.cls = 0 := by rw [hq]; rfl
  have hop : ({ q with pkt := { q.pkt with opcode := BitVec.ofNat 8 opClayRelease.code } } : Request) = q := by
    rw [hq]; rfl
  have hbody : reqBody q = [] := by rw [hq]; rfl
  have hformat : checkFormat q = none := by rw [hq]; rfl
  have happly : q.pkt.applyAt = now s + 2000 := by rw [hq]; rfl
  have hdups : s.pkt.dups.find? (isDup q) = none := by rw [h.fresh]; rfl
  have hparts : q.parts = [] ∧ q.pkt.more = false := by rw [hq]; exact ⟨rfl, rfl⟩
  have hin : takeIn q (process opClayRelease q) s = process opClayRelease q (taken q s) := by
    simp [takeIn, hformat, otherChain, notHead, forOther, fromOutside, hvia, hdups, taken]
  have hvet : vet opClayRelease q (taken q s) = none := by
    have hnow : now (taken q s) = now s := taken_keep now q s
    have hwhen (i : OpInfo) (hi : i.sched = true) : checkSched i q (taken q s) = none := by
      have hroom := h.room
      simp only [checkSched, happly, hnow, frameDiff_ahead, hsched, hi]
      simp [h.timed, hroom]
    simp [vet, opClayRelease, opInfo, hparts, checkMode, h.loam, checkLife, h.alive, lenIs, hbody, hwhen]
  have hfree (u : State) (hu : releaseRefusal q u = releaseRefusal q s) : releaseRefusal q u = none :=
    hu.trans (releaseRefusal_own h q hvia)
  simp only [serve, hop, h.runs, if_true, hin, process, hvet]
  have hkept : keptCmd q (taken q s) = keptCmd q s := taken_keep (keptCmd q) q s
  have hplain := actOn_release hsched (hfree (taken q s) (taken_keep (releaseRefusal q) q s))
  rw [hkept] at hplain
  split
  · have harena : chainArena q (taken q s) =
        (.now, bookLink ((taken q s).clk.tb.toNat / 800000) 0 (linkTicks q) (taken q s)) := by
      simp [chainArena, hcls]
    simp only [throughArena, harena]
    have hbooked := actOn_release (s := bookLink ((taken q s).clk.tb.toNat / 800000) 0 (linkTicks q) (taken q s))
      hsched (hfree _ (taken_keep (releaseRefusal q) q s))
    have hbook (i c d : Nat) (u : State) : (bookLink i c d u).pkt.sched = u.pkt.sched ∧
        (bookLink i c d u).modes = u.modes ∧ (bookLink i c d u).out = u.out ∧ (bookLink i c d u).sect = u.sect ∧
        keptCmd q (bookLink i c d u) = keptCmd q u := ⟨rfl, rfl, rfl, rfl, rfl⟩
    simpa [hbook, hkept] using hbooked
  · simpa using hplain

theorem plannerRelease_kept {s : State} (h : MayRelease s) : ReleaseKept s (plannerRelease s) := by
  have hw := h.afterStep
  obtain ⟨-, htb, -⟩ := autoStep_shape s
  have hnow : now (draw (autoStep s)) = now s := by simp [now, htb]
  obtain ⟨hsched, hmodes, hout, hsect⟩ :=
    serve_release (q := plannerRequest 0x03 true (now (autoStep s) + 2000) [] (autoStep s)) hw rfl
  refine ⟨?_, ?_, ?_, ?_⟩
  · rw [plannerRelease, hsched]
    have hstep : now (autoStep s) = now s := by simp [now, htb]
    simp [keptCmd, plannerRequest, hstep]
  · exact hmodes.trans (by simp)
  · exact hout.trans (by simp)
  · exact hsect.trans (by simp)

theorem sendBoundary_idle {s : State} (horigin : s.sect.origin = none) (hsol : s.gnss.sol = none) :
    sendBoundary s = s := by
  simp [sendBoundary, horigin, hsol]

/-- The head's planner arms the chain with a release 2,000 frames ahead, under TC and under BUILTIN. -/
theorem plannersRelease {p : Byte} {s : State} (harms : arms p s = true) (hp : p ≠ 2) (hmode : s.modes.mode = .loam)
    (hlife : s.sec.life ≠ .retired) (htb : s.clk.valid = true) (haddr : s.chain.addrValid = true)
    (hfield : fieldDomainsOn s = true) (hcfg : configuring s = false) (hroom : s.pkt.sched.length < 64)
    (hdups : s.pkt.dups = []) (k : Sect) :
    MayRelease { s with sect := k } := by
  simp only [arms, Bool.and_eq_true, Bool.not_eq_true', beq_iff_eq] at harms
  obtain ⟨⟨⟨hruns, hplanner⟩, hhead⟩, hisland⟩ := harms
  exact ⟨hruns, hhead, hisland, hplanner.symm ▸ hp, hmode, hlife, htb, haddr, hfield, hcfg, hroom, hdups⟩

/-- Settles O13: CLAY_ENTER and CLAY_RELEASE by the branches of their actions, and the planner's release by the way of
its request through Table 05-3 into the store of scheduled commands. -/
theorem clayEntersAndReleases : Obligations.ClayEntersAndReleases := by
  unfold Obligations.ClayEntersAndReleases
  intro s
  refine ⟨fun q hlen h => clayEnterCompletes hlen h, fun q hlen h hsrc haddr htb hfield hcfg => ?_,
    fun p harms hmode hlife htb haddr hfield hcfg hroom hdups => ?_⟩
  · have hfree := releaseRefusal_none hsrc haddr htb hfield hcfg
    exact ⟨clayRelease_released hlen h hfree, clayRelease_refused hlen h hfree⟩
  · have hmay (hp : p ≠ 2) := plannersRelease harms hp hmode hlife htb haddr hfield hcfg hroom hdups
    refine ⟨?_, ?_⟩
    · rintro rfl
      obtain ⟨hsched, hmodes, hout, hsect⟩ := plannerRelease_kept (hmay (by decide) { s.sect with tcAuto := true })
      exact ⟨_, by
        change execTcSectionAuto _ = _; simp only [execTcSectionAuto, harms, if_true], by rw [hsect], hsched, hmodes, hout⟩
    · rintro rfl horigin hsol
      obtain ⟨hsched, hmodes, hout, hsect⟩ := plannerRelease_kept (hmay (by decide) { s.sect with workOn := true })
      have hidle : sendBoundary { s with sect := { s.sect with workOn := true } } = _ := sendBoundary_idle horigin hsol
      exact ⟨_, by
        change execOperatorWorkEnable _ = _; simp only [execOperatorWorkEnable, harms, if_true, hidle], by rw [hsect], hsched, hmodes, hout⟩

end Sys2Proof.Proofs

/-! Debug sessions open and end. -/

namespace Sys2Proof.Proofs

open Sys2Proof.Machine Sys2Proof.Safety Sys2Proof.Laws

/-! ## The level in force (R391) -/

theorem setLevel_sec (l : Fin 5) (s : State) :
    (setLevel l s).sec.level = l ∧ (setLevel l s).sec.session = none ∧ (setLevel l s).sec.nonce = s.sec.nonce ∧
    (setLevel l s).sec.life = s.sec.life := by
  simp only [setLevel, resumeF, resumeH]
  split <;> (repeat' split) <;> simp [liftCause]

/-- A fall to level 0 releases both halts and detaches every tool beyond it. -/
theorem setLevel_zero {s : State} (h : 0 < s.sec.level.val) :
    (setLevel 0 s).sec.fHalt = false ∧ (setLevel 0 s).sec.hHalt = false ∧
    ∀ a ∈ (setLevel 0 s).sec.attach, a.2 = 0 := by
  have hfalls : (0 : Fin 5) < s.sec.level := h
  simp only [setLevel, hfalls, resumeF, resumeH]
  refine ⟨?_, ?_, fun a ha => ?_⟩
  · (repeat' split) <;> simp_all [liftCause]
  · (repeat' split) <;> simp_all [liftCause]
  · simp at ha
    exact ha.2

theorem only_setLevel (l : Fin 5) (s : State) :
    Only [.modes, .barr, .canA, .canB, .sec, .ev] s (setLevel l s) := by
  intro p hp
  cases p <;> simp_all [same]

/-! ## The debug commands -/

theorem dbgNonceAnswers {q : Request} {s : State} (hlen : (reqBody q).length = 1) (h : Accepted 0x71 q s)
    (hdom : domOn s 3 = true) (l : Fin 5) (hl : byteAt (reqBody q) 0 = BitVec.ofNat 8 l.val) (hpos : 1 ≤ l.val)
    (hceil : l.val ≤ ceiling s ∨ l.val = 4) :
    Answers (.dbgNonce q) q s
      (fun u => draw { u with sec := { u.sec with
        nonce := some { level := l, bytes := be 16 (Config.freeNonce s.free).toNat } } })
      { data := be 16 (Config.freeNonce s.free).toNat ++ be 8 s.id.serial.toNat } := by
  have hnat : (byteAt (reqBody q) 0).toNat = l.val := by rw [hl]; simp; omega
  have hceiling : ceiling (taken q s) = ceiling s := taken_keep ceiling q s
  refine answers_of opDbgNonce h rfl ?_ ?_ ?_
  · rcases hceil with hle | hfour
    · simp [opDbgNonce, hnat, hceiling, hle]
    · simp [opDbgNonce, hnat, inRange, hfour]
  · have hle : l.val ≤ 4 := by omega
    simp [opDbgNonce, lenIs, hlen, param, inRange, hnat, hpos, hle]
  · change nonceAct q (taken q s) = _
    have hlevel : Fin.ofNat 5 (byteAt (reqBody q) 0).toNat = l := by
      rw [hnat]; exact Fin.ofNat_val_eq_self l
    have hpow : domOn (taken q s) 3 = true := by simpa [domOn] using hdom
    simp only [nonceAct, guarded, hpow, hlevel, taken_frame, done]
    rfl

/-- The session that a token which matched opens. -/
def sessionOpened (q : Request) (l : Fin 5) (s : State) : State :=
  openSession l (beAt (reqBody q) 4 2) (byteAt (reqBody q) 2 == 1) { s with sec := { s.sec with nonce := none } }

theorem unlockAct_session {q : Request} {l : Fin 5} {s : State} (hl : Fin.ofNat 5 (byteAt (reqBody q) 1).toNat = l)
    (hlocked : s.sec.life ≠ .opened) (hdom : domOn s 3 = true) (hok : tokenOk (reqBody q) [] 1 l.val s = true) :
    unlockAct q s = (if s.sec.life = .sealed' then zeroise l (byteAt (reqBody q) 2) (sessionOpened q l s)
      else sessionOpened q l s, done [byteAt (reqBody q) 1]) := by
  have hstay : (sessionOpened q l s).sec.life = s.sec.life := (setLevel_sec l _).2.2.2
  rw [← hstay]
  simp only [unlockAct, hlocked, if_false, hl, hdom, hok, Bool.not_true, Bool.false_eq_true]
  rfl

theorem sessionOpened_sec (q : Request) (l : Fin 5) (s : State) :
    (sessionOpened q l s).sec.level = l ∧ (sessionOpened q l s).sec.nonce = none ∧
    (sessionOpened q l s).sec.session = some (BitVec.ofNat 11 (beAt (reqBody q) 4 2), byteAt (reqBody q) 2 == 1) := by
  obtain ⟨hlevel, -, hnonce, -⟩ := setLevel_sec l { s with sec := { s.sec with nonce := none } }
  exact ⟨hlevel, hnonce, rfl⟩

theorem only_sessionOpened (q : Request) (l : Fin 5) (s : State) :
    Only [.modes, .barr, .canA, .canB, .sec, .ev] s (sessionOpened q l s) := by
  intro p hp
  have hset := only_setLevel l { s with sec := { s.sec with nonce := none } } p hp
  cases p <;> simp_all [same, sessionOpened, openSession]

theorem only_zeroise (l : Fin 5) (slot : Byte) (s : State) :
    Only [.modes, .barr, .canA, .canB, .sec, .fw, .ev] s (zeroise l slot s) := by
  intro p hp
  cases p <;> simp_all [same, zeroise]

section Unlock

variable {q : Request} {s : State} (hlen : (reqBody q).length = 94) (h : Accepted 0x72 q s)
  (hform : tokenForm (reqBody q) = true) (l : Fin 5) (hl : byteAt (reqBody q) 1 = BitVec.ofNat 8 l.val)
  (hceil : l.val ≤ ceiling s)
include hlen hform hl hceil

theorem dbgUnlock_checked : opDbgUnlock.life q (taken q s) = none ∧ opDbgUnlock.check q (taken q s) = none := by
  have hceiling : ceiling (taken q s) = ceiling s := taken_keep ceiling q s
  have hnat : (byteAt (reqBody q) 1).toNat = l.val := by rw [hl]; simp; omega
  have hnot : ¬ ceiling s < l.val := by omega
  exact ⟨by simp [opDbgUnlock, hceiling, hnat, hnot], by simp [opDbgUnlock, lenIs, hlen, param, hform]⟩

include h

theorem dbgUnlock_open (hopen : s.sec.life = .opened) : Completes (.dbgUnlock q) s fun t =>
    t.sec.level = l ∧ t.sec.session = none ∧ t.sec.nonce = s.sec.nonce ∧
    Answered q { data := [byteAt (reqBody q) 1] } t ∧ Served [.modes, .barr, .canA, .canB, .sec, .ev] s t := by
  obtain ⟨hlife, hcheck⟩ := dbgUnlock_checked hlen hform l hl hceil
  obtain ⟨hlevel, hsession, hnonce, -⟩ := setLevel_sec l (taken q s)
  refine completes_of opDbgUnlock h hcheck (u := setLevel l (taken q s)) (a := { data := [byteAt (reqBody q) 1] })
    ?_ ?_ rfl hlife
  · change unlockAct q (taken q s) = _
    have hnat : Fin.ofNat 5 (byteAt (reqBody q) 1).toNat = l := by
      rw [hl]; ext; simp; omega
    simp only [unlockAct, taken_frame, hopen, hnat, done, if_true]
  · exact ⟨by simpa using hlevel, by simpa using hsession, by simpa using hnonce, ⟨_, rfl⟩,
      served_answer _ _ (only_setLevel l _)⟩

theorem dbgUnlock_session (hlocked : s.sec.life ≠ .opened) (hdom : domOn s 3 = true)
    (hok : tokenOk (reqBody q) [] 1 l.val s = true) : Completes (.dbgUnlock q) s fun t =>
      t.sec.level = l ∧ t.sec.nonce = none ∧
      t.sec.session = some (BitVec.ofNat 11 (beAt (reqBody q) 4 2), byteAt (reqBody q) 2 == 1) ∧
      (s.sec.life = .sealed' → t.sec.zeroised = true ∧ t.fw.staging = none) ∧
      Answered q { data := [byteAt (reqBody q) 1] } t ∧
      Served [.modes, .barr, .canA, .canB, .sec, .fw, .ev] s t := by
  obtain ⟨hlife, hcheck⟩ := dbgUnlock_checked hlen hform l hl hceil
  have hnat : Fin.ofNat 5 (byteAt (reqBody q) 1).toNat = l := by rw [hl]; ext; simp; omega
  have hact := unlockAct_session (s := taken q s) hnat (by simpa using hlocked) (by simpa [domOn] using hdom)
    ((taken_keep (tokenOk (reqBody q) [] 1 l.val) q s).trans hok)
  obtain ⟨hlevel, hnonce, hsession⟩ := sessionOpened_sec q l (taken q s)
  have hopened := only_mono (only_sessionOpened q l (taken q s))
    (show _ ⊆ [Part.modes, .barr, .canA, .canB, .sec, .fw, .ev] by simp)
  refine completes_of opDbgUnlock h hcheck (a := { data := [byteAt (reqBody q) 1] }) hact ?_ rfl hlife
  rw [taken_sec]
  refine ⟨?_, ?_, ?_, fun hs => ?_, ⟨_, rfl⟩, served_answer _ _ ?_⟩
  · split <;> simpa [zeroise] using hlevel
  · split <;> simpa [zeroise] using hnonce
  · split <;> simpa [zeroise] using hsession
  · simp [hs, zeroise]
  · split
    · exact only_trans hopened (only_zeroise l _ _)
    · exact hopened

theorem dbgUnlock_refused (hlocked : s.sec.life ≠ .opened) (hdom : domOn s 3 = true)
    (hbad : tokenOk (reqBody q) [] 1 l.val s = false) : Answers (.dbgUnlock q) q s
      (fun u => { u with sec := { u.sec with nonce := none, cntToken := satInc u.sec.cntToken } })
      { status := 0x12, detail := 0x2E } := by
  obtain ⟨hlife, hcheck⟩ := dbgUnlock_checked hlen hform l hl hceil
  have hnat : Fin.ofNat 5 (byteAt (reqBody q) 1).toNat = l := by rw [hl]; ext; simp; omega
  have htoken : tokenOk (reqBody q) [] 1 l.val (taken q s) = false :=
    (taken_keep (tokenOk (reqBody q) [] 1 l.val) q s).trans hbad
  have hpow : domOn (taken q s) 3 = true := by simpa [domOn] using hdom
  refine answers_of opDbgUnlock h rfl hlife hcheck ?_
  change unlockAct q (taken q s) = _
  simp only [unlockAct, taken_frame, hlocked, if_false, hnat, htoken, hpow, Bool.not_true, Bool.false_eq_true]
  rfl

end Unlock

theorem dbgLockCompletes {q : Request} {s : State} (hlen : (reqBody q).length = 0) (h : Accepted 0x73 q s) :
    Completes (.dbgLock q) s fun t =>
      t.sec.level = 0 ∧ t.sec.session = none ∧ (0 < s.sec.level.val → t.sec.fHalt = false ∧ t.sec.hHalt = false ∧
        ∀ a ∈ t.sec.attach, a.2 = 0) ∧ Served [.modes, .barr, .canA, .canB, .sec, .ev] s t := by
  obtain ⟨hlevel, hsession, -⟩ := setLevel_sec 0 (taken q s)
  have hfall := setLevel_zero (s := taken q s)
  refine completes_of opDbgLock h (lenIs_of hlen) rfl ⟨by simpa using hlevel, by simpa using hsession,
    by simpa using hfall, served_answer _ _ (only_setLevel 0 _)⟩

theorem sessionExpiryCompletes {s : State} (hopen : s.sec.session.isSome = true) (hclk : clockOn s = true)
    (hring : s.chain.rg4 = []) (hgo : s.svc.goWaits = false) : Completes .sessionExpiry s fun t =>
      t.sec.level = 0 ∧ t.sec.session = none ∧ t.clk = (advanceTo s.sec.sessEnd s).clk ∧
      Only [.modes, .clk, .barr, .canA, .canB, .sec, .ev] s t := by
  obtain ⟨hlevel, hsession, -⟩ := setLevel_sec 0 (advanceTo s.sec.sessEnd s)
  have hidle : catchUp (setLevel 0 (advanceTo s.sec.sessEnd s)) = setLevel 0 (advanceTo s.sec.sessEnd s) :=
    catchUp_idle _ (by simpa using hring) (by simpa using hgo)
  refine ⟨setLevel 0 (advanceTo s.sec.sessEnd s), ?_, hlevel, hsession, by simp, ?_⟩
  · change execSessionExpiry _ = _
    simp [execSessionExpiry, sessionExpiry, hopen, hclk, hidle]
  · refine only_trans (t := advanceTo s.sec.sessEnd s) (fun p hp => ?_)
      (only_mono (only_setLevel 0 _) (by simp))
    cases p <;> simp_all [same]

/-- Settles O15: each debug command by the branch of its action; the level falls by `setLevel`. -/
theorem debugSessionsOpenAndEnd : Obligations.DebugSessionsOpenAndEnd := by
  unfold Obligations.DebugSessionsOpenAndEnd
  intro q s
  refine ⟨fun hlen h => ?_, fun hlen h hdom l hl hpos hceil => dbgNonceAnswers hlen h hdom l hl hpos hceil, rfl,
    fun hlen h hform l hl hceil => ⟨dbgUnlock_open hlen h hform l hl hceil, dbgUnlock_session hlen h hform l hl hceil,
      dbgUnlock_refused hlen h hform l hl hceil⟩, dbgLockCompletes, sessionExpiryCompletes⟩
  exact answers_query opSecGet (fun s => [BitVec.ofNat 8 (lifeCode s.sec.life), BitVec.ofNat 8 s.sec.level.val,
    s.sec.epoch] ++ be 2 s.sec.rollback) h (lenIs_of hlen) rfl

end Sys2Proof.Proofs

/-! Attaches and halts, and the cells of the debug module. -/

namespace Sys2Proof.Proofs

open Sys2Proof.Machine Sys2Proof.Safety Sys2Proof.Laws

/-! ## Cells that arrive in order -/

theorem onDown_arrives {c : Cell} {s : State} (h : ArrivesDown c s) (act : State → State) :
    onDown c act s = act (takenDown s) := by
  obtain ⟨hlink, hclk, hseq, q, rest, hring, hcell⟩ := h
  simp only [onDown, hring, hlink, hclk, hseq, hcell, beq_self_eq_true, Bool.and_self, Bool.not_true,
    Bool.false_eq_true, if_false, if_true, takenDown]

theorem onUp_arrives {c : Cell} {s : State} (h : ArrivesUp c s) (act : State → State) :
    onUp c act s = act (takenUp c s) := by
  obtain ⟨hlink, hseq, hpart, hgood, q, rest, hring, hcell⟩ := h
  simp only [onUp, hring, hlink, hseq, hcell, hpart, hgood, takenUp]
  simp

@[simp] theorem takenDown_frame (s : State) :
    (takenDown s).pending = s.pending ∧ (takenDown s).free = s.free ∧ (takenDown s).id = s.id ∧
    (takenDown s).modes = s.modes ∧ (takenDown s).regs = s.regs ∧ (takenDown s).chain = s.chain ∧
    (takenDown s).pkt = s.pkt ∧ (takenDown s).out = s.out ∧ (takenDown s).sense = s.sense ∧
    (takenDown s).loop = s.loop ∧ (takenDown s).gnss = s.gnss ∧ (takenDown s).canA = s.canA ∧
    (takenDown s).canB = s.canB ∧ (takenDown s).svc = s.svc ∧ (takenDown s).pwr = s.pwr ∧ (takenDown s).sec = s.sec ∧
    (takenDown s).fw = s.fw ∧ (takenDown s).ev = s.ev ∧ (takenDown s).sect = s.sect := by
  simp [takenDown]

@[simp] theorem takenUp_frame (c : Cell) (s : State) :
    (takenUp c s).pending = s.pending ∧ (takenUp c s).free = s.free ∧ (takenUp c s).id = s.id ∧
    (takenUp c s).modes = s.modes ∧ (takenUp c s).regs = s.regs ∧ (takenUp c s).chain = s.chain ∧
    (takenUp c s).pkt = s.pkt ∧ (takenUp c s).out = s.out ∧ (takenUp c s).sense = s.sense ∧
    (takenUp c s).loop = s.loop ∧ (takenUp c s).gnss = s.gnss ∧ (takenUp c s).canA = s.canA ∧
    (takenUp c s).canB = s.canB ∧ (takenUp c s).svc = s.svc ∧ (takenUp c s).pwr = s.pwr ∧ (takenUp c s).sec = s.sec ∧
    (takenUp c s).fw = s.fw ∧ (takenUp c s).ev = s.ev ∧ (takenUp c s).sect = s.sect := by
  simp [takenUp]

/-! ## Attaches (Table 15-5) -/

theorem dbgSel_permitted {p : DbgPort} {l : Fin 5} {s : State} (hl : l ≠ 0) (hclk : clockOn s = true)
    (hmay : mayAttach l s = true) (hon : (affected p l).all (domOn s) = true) : dbgSel p l s = attach p l s := by
  have hoff : ((affected p l).any fun d => s.pwr.dom[d] = .off) = false := by
    rw [List.any_eq_false]
    intro d hd
    have hd' : s.pwr.dom[d] = .on := by simpa [domOn] using List.all_eq_true.mp hon d hd
    simp [hd']
  simp only [dbgSel, hl, hclk, hmay, hon, hoff, if_false, if_true, Bool.not_true, Bool.or_self, Bool.false_eq_true]

theorem dbgSel_ignored {p : DbgPort} {l : Fin 5} {s : State} (hl : l ≠ 0) (hclk : clockOn s = true)
    (hmay : mayAttach l s = false) : dbgSel p l s = { s with
      sec := { s.sec with cntIgnored := satInc s.sec.cntIgnored } } := by
  simp [dbgSel, hl, hmay, countIgnored, hclk]

/-! ## Halts and boundary scans -/

theorem fcoreHaltCompletes {s : State} (hatt : attached .f 2 s = true) (hdom : domOn s 13 = true) :
    Completes .fcoreHalt s fun t =>
      t.sec = { s.sec with fHalt := true } ∧ t.modes.clay = true ∧ t.modes.active = s.modes.active ||| cause 0 ∧
      t.clk = (toFieldFrame s).clk ∧ (ClayQuiet s → ∀ n : Fin 32, Quiet t.out.ch[n]) := by
  refine ⟨haltF s, rfl, ?_⟩
  have hhalt : haltF s = enterClay 0 (toFieldFrame { s with sec := { s.sec with fHalt := true } }) := by
    simp [haltF, hatt, hdom]
  rw [hhalt]
  refine ⟨by simp, by simp, by simp, by simp only [enterClay_frame]; rfl, fun hq => ?_⟩
  exact quiet_of_calm (s := s) (fun hs => .enterClay (.toFieldFrame (.frame hs (by simp)))) (by simp) hq

theorem boundaryScanCompletes {i : ScanInstr} {s : State} (hlevel : 3 ≤ s.sec.level.val) :
    Completes (.tapBoundaryScan i) s fun t =>
      t.sec = { s.sec with scan := some i, hHalt := true } ∧ t.modes.clay = true ∧
      t.modes.active = s.modes.active ||| cause 3 ∧ t.chain.upLine = none ∧ t.chain.dnLine = none := by
  have hnot : ¬ s.sec.level < 3 := by simpa [Fin.lt_def] using hlevel
  refine ⟨boundaryScan i s, rfl, ?_⟩
  simp [boundaryScan, hnot, hostClay]

theorem tapBoundaryScan_ignored {i : ScanInstr} {s : State} (hlevel : s.sec.level.val < 3) (hclk : clockOn s = true) :
    exec (.tapBoundaryScan i) s = .next { s with sec := { s.sec with cntIgnored := satInc s.sec.cntIgnored } } := by
  have hlow : s.sec.level < 3 := hlevel
  change execTapBoundaryScan _ _ = _
  simp [execTapBoundaryScan, boundaryScan, hlow, countIgnored, hclk]

/-! ## The restart of the node -/

theorem loseDomain_modes (d : Fin 18) (s : State) : (loseDomain d s).modes = s.modes := by
  unfold loseDomain
  split <;> simp [dropRegs]

theorem setDom_modes (d : Fin 18) (v : Dom) (s : State) : (setDom d v s).modes = s.modes := by
  unfold setDom
  dsimp only
  split <;> simp

theorem restartDoms_modes (s : State) : (restartDoms s).modes = s.modes := by
  refine foldl_keep (fun s : State => s.modes) _ (fun s d => ?_) _ s
  dsimp only
  split
  · exact setDom_modes _ _ s
  · exact (setDom_modes _ _ _).trans (loseDomain_modes _ s)

theorem restart_modes (s : State) : (restart s).modes.clay = true ∧ (restart s).modes.booted = false := by
  simp only [restart, dropRegs, restartDoms_modes]
  simp [loseHost, stopLink]

theorem restart_fresh (s : State) :
    (restart s).sec.scan = none ∧ (restart s).sec.hHalt = false ∧ (restart s).clk.tree = .relocking := by
  simp [restart]

theorem resetNow_restarts (s : State) : ∃ u, resetNow s = restart u := ⟨_, rfl⟩

theorem tapResetCompletes {s : State} (hscan : s.sec.scan.isSome = true) : Completes .tapReset s fun t =>
    t.sec.scan = none ∧ t.sec.hHalt = false ∧ t.modes.clay = true ∧ t.modes.booted = false ∧
    t.clk.tree = .relocking := by
  refine ⟨resetNow { s with sec := { s.sec with scan := none } }, by
    change execTapReset _ = _; simp [execTapReset, hscan], ?_⟩
  obtain ⟨u, hu⟩ := resetNow_restarts { s with sec := { s.sec with scan := none } }
  rw [hu]
  obtain ⟨hclay, hbooted⟩ := restart_modes u
  obtain ⟨hscan, hhalt, htree⟩ := restart_fresh u
  exact ⟨hscan, hhalt, hclay, hbooted, htree⟩

/-! ## Debug cells (R390) -/

/-- A debug request at the front of RG6 is not sent again. -/
theorem dbgReq_arrives {r : DbgReq} {s : State} (h : ArrivesDown (.dbgReq r) s) :
    dbgReq r s = debugTaken r (takenDown s) := by
  obtain ⟨-, -, -, q, rest, hring, hcell⟩ := id h
  have hsent : debugSent r s = true := by simp [debugSent, hring, hcell]
  simp only [dbgReq, hsent, Bool.not_true, Bool.and_false, Bool.false_eq_true, if_false, onDown_arrives h]

theorem debugTaken_readSram {a : BitVec 20} {s : State} (hatt : attached .f 2 s = true)
    (hdom : s.pwr.dom[(12 : Fin 18)] = .on) :
    debugTaken (.readSram a) s = upCell (.dbgData [look sramByte s.fw.fsram a.toNat]) s := by
  simp [debugTaken, debugAct, hatt, hdom]

theorem sendCell_empty {c : Cell} {s : State} (hring : s.barr.rg6 = []) (hheld : s.barr.rg6Held = []) :
    sendCell c s = { s with barr := { s.barr with rg6 := [queued c s] } } := by
  have htakes : ringTakes c [] = true := by cases c <;> rfl
  simp [sendCell, hring, hheld, htakes]

theorem dbgReq_sent {r : DbgReq} {s : State} (hlink : linkUp s = true) (hatt : attached .f 1 s = true)
    (hring : s.barr.rg6 = []) (hheld : s.barr.rg6Held = []) (hclk : s.barr.fieldClock = true)
    (hseq : s.barr.hostNext = s.barr.fieldExpect) :
    dbgReq r s = debugTaken r (takenDown (sendCell (.dbgReq r) s)) := by
  have hnot : debugSent r s = false := by simp [debugSent, hring, hheld]
  have harrives : ArrivesDown (.dbgReq r) (sendCell (.dbgReq r) s) := by
    rw [sendCell_empty hring hheld]
    exact ⟨hlink, hclk, hseq, _, [], rfl, rfl⟩
  simp only [dbgReq, hlink, hatt, hnot, Bool.not_false, Bool.and_self, if_true, onDown_arrives harrives]

/-- Settles O16: attaches, halts and boundary scans by the branches of their commands, debug cells by their arrival in
order. -/
theorem attachesAndHalts : Obligations.AttachesAndHalts := by
  unfold Obligations.AttachesAndHalts
  intro s
  refine ⟨fun p l hl hclk => ⟨fun hmay hon => ?_, fun hmay => ?_⟩, fcoreHaltCompletes, fun hhalt => ?_,
    fun hatt hdom hclk => ?_, fun hhalt hring hgo => ?_,
    fun i => ⟨boundaryScanCompletes, tapBoundaryScan_ignored⟩, tapResetCompletes, fun a h hatt hdom => ?_,
    fun r hlink hatt hring hheld hclk hseq => ?_, fun bytes h => ?_⟩
  · exact congrArg _ (dbgSel_permitted hl hclk hmay hon)
  · exact congrArg _ (dbgSel_ignored hl hclk hmay)
  · change execFcoreResume _ = _
    simp [execFcoreResume, resumeF, hhalt, liftCause]
  · change execHcoreHalt _ = _
    simp [execHcoreHalt, hatt, hdom, hclk]
  · have hidle : catchUp (resumeH s) = resumeH s := catchUp_idle _ (by simpa using hring) (by simpa using hgo)
    change execHcoreResume _ = _
    rw [execHcoreResume, hidle]
    simp [resumeH, hhalt]
  · have hread := debugTaken_readSram (a := a) (s := takenDown s) (by simpa [attached] using hatt) (by simpa using hdom)
    refine congrArg _ ((dbgReq_arrives h).trans (hread.trans ?_))
    rw [(takenDown_frame s).2.2.2.2.2.2.2.2.2.2.2.2.2.2.2.2.1]
  · exact congrArg _ (dbgReq_sent hlink hatt hring hheld hclk hseq)
  · refine ⟨debugBytes bytes (takenUp (.dbgData bytes) s), congrArg _ (onUp_arrives h _), rfl, rfl, fun p hp => ?_⟩
    cases p <;> simp_all [same, debugBytes]

end Sys2Proof.Proofs

/-! Settings are staged and committed. -/

namespace Sys2Proof.Proofs

open Sys2Proof.Machine Sys2Proof.Safety Sys2Proof.Laws

theorem setReadAnswers {q : Request} {s : State} (hlen : (reqBody q).length = 2) (h : Accepted 0x60 q s)
    (hitem : (itemLen (beAt (reqBody q) 0 2)).isSome = true)
    (hshort : (itemValue (beAt (reqBody q) 0 2) s.fw.items s).length ≤ 230) :
    Answers (.setRead q) q s id { data := itemValue (beAt (reqBody q) 0 2) s.fw.items s } := by
  have hvalue : itemValue (beAt (reqBody q) 0 2) (taken q s).fw.items (taken q s) =
      itemValue (beAt (reqBody q) 0 2) s.fw.items s :=
    taken_keep (fun s => itemValue (beAt (reqBody q) 0 2) s.fw.items s) q s
  refine answers_of opSetRead h rfl rfl ?_ ?_
  · simp only [opSetRead, lenIs_of hlen, Option.isNone_iff_eq_none, Option.ne_none_iff_isSome.mpr hitem, if_false]
    rfl
  · simp only [opSetRead, hvalue, if_pos hshort]
    rfl

/-- The keys that settings operations need are there (R380, R393). -/
theorem keysCheck_taken {q : Request} {s : State} (hkeys : s.sec.zeroised = false) : keysCheck (taken q s) = none := by
  simp [keysCheck, hkeys]

/-- The registers as settings items would leave them do not depend on the packet layer. -/
theorem scratch_pkt (items : List (Nat × List Byte)) (s : State) (p : Packets) :
    scratch items { s with pkt := p } = { scratch items s with pkt := p } := by
  unfold scratch
  refine List.foldl_hom (fun s : State => { s with pkt := p }) (g₁ := _) (g₂ := _) (init := { s with regs := [] })
    (l := items) fun u i => ?_
  refine List.foldl_hom (fun s : State => { s with pkt := p }) (g₁ := _) (g₂ := _) (init := u) fun v w => ?_
  split <;> rfl

theorem geometryFits_pkt (rs : List GeoRec) (b : Bool) (s : State) (p : Packets) :
    geometryFits rs b { s with pkt := p } = geometryFits rs b s := by
  induction rs generalizing b with
  | nil => rfl
  | cons r rs ih =>
    have hinput (i : Fin 16) : sinType { s with pkt := p } i = sinType s i := rfl
    cases r <;> simp only [geometryFits, ih, hinput]

theorem wordFits_pkt (s : State) (p : Packets) : wordFits { s with pkt := p } = wordFits s := rfl

theorem itemOk_pkt (k : Nat) (v : List Byte) (items : List (Nat × List Byte)) (s : State) (p : Packets) :
    itemOk k v items { s with pkt := p } = itemOk k v items s := by
  simp only [itemOk, scratch_pkt, geometryFits_pkt, wordFits_pkt]

theorem setWriteCheck_taken (q : Request) (s : State) : setWriteCheck q (taken q s) = setWriteCheck q s :=
  taken_keep (setWriteCheck q) q s fun _ _ _ _ _ => by simp only [setWriteCheck, itemOk_pkt]; rfl

theorem setWriteAnswers {q : Request} {s : State} (h : Accepted 0x61 q s) (hkeys : s.sec.zeroised = false)
    (hcheck : setWriteCheck q s = none) (hdom : domOn s 3 = true) :
    (itemClay (beAt (reqBody q) 0 2) = false ∨ s.modes.clay = true → Answers (.setWrite q) q s
      (fun u => { u with fw := { u.fw with
        staging := some (putKey (beAt (reqBody q) 0 2) ((reqBody q).drop 2) (staged s)) } }) {}) ∧
    (itemClay (beAt (reqBody q) 0 2) = true → s.modes.clay = false →
      Answers (.setWrite q) q s id { status := 0x11, detail := 0x23 }) := by
  have hchecked : setWriteCheck q (taken q s) = none := (setWriteCheck_taken q s).trans hcheck
  have hpow : domOn (taken q s) 3 = true := by simpa [domOn] using hdom
  have hstaged : staged (taken q s) = staged s := taken_keep staged q s
  refine ⟨fun hfree => ?_, fun hclay hout => ?_⟩
  · refine answers_of opSetWrite h rfl (keysCheck_taken hkeys) hchecked ?_
    have hwritable : (itemClay (beAt (reqBody q) 0 2) && !(taken q s).modes.clay) = false := by
      rcases hfree with hitem | hin
      · simp [hitem]
      · simp [hin]
    simp only [opSetWrite, hwritable, hpow, hstaged, done, Bool.not_true, Bool.false_eq_true, if_false]
  · refine answers_of opSetWrite h rfl (keysCheck_taken hkeys) hchecked ?_
    simp [opSetWrite, hclay, hout, refuse]

theorem setCommitAnswers {q : Request} {s : State} (hlen : (reqBody q).length = 0) (h : Accepted 0x62 q s)
    (hkeys : s.sec.zeroised = false) (hidle : committing s = false) :
    (s.fw.staging = none → Answers (.setCommit q) q s id { data := be 4 s.fw.gen.toNat }) ∧
    (∀ items, s.fw.staging = some items → domOn s 3 = true → domOn s 4 = true →
      exec (.setCommit q) s = .next { taken q s with fw := { s.fw with
        staging := none, commit := some { items := items, gen := s.fw.gen + 1, q := some q } } }) := by
  have hfree : committing (taken q s) = false := by simpa [committing] using hidle
  refine ⟨fun hnone => ?_, fun items hitems hdom3 hdom4 => ?_⟩
  · refine answers_of opSetCommit h rfl (keysCheck_taken hkeys) (lenIs_of hlen) ?_
    change setCommitAct q (taken q s) = _
    simp [setCommitAct, hfree, hnone, done]
  · have hstore : storeCheck (taken q s) = none := by
      have hpow3 : domOn (taken q s) 3 = true := by simpa [domOn] using hdom3
      have hpow4 : domOn (taken q s) 4 = true := by simpa [domOn] using hdom4
      simp [storeCheck, hfree, hpow3, hpow4]
    refine exec_later opSetCommit h (lenIs_of hlen) ?_ rfl (keysCheck_taken hkeys)
    change setCommitAct q (taken q s) = _
    have hstaged : (taken q s).fw.staging = some items := by simpa using hitems
    rw [setCommitAct, hfree, hstaged, if_neg Bool.false_ne_true]
    simp only [hstore, guarded, startCommit, taken_frame]

theorem pinSetAct_stored {q : Request} {u : State} (hstore : storeCheck u = none) :
    pinSetAct q u = ({ u with fw := { u.fw with
      staging := u.fw.staging.map (putKey 0x0011 ([0, byteAt (reqBody q) 2] ++ (reqBody q).take 2))
      commit := some { items := putKey 0x0011 ([0, byteAt (reqBody q) 2] ++ (reqBody q).take 2) (latestItems u)
                       gen := u.fw.gen + 1, q := some q } } }, none) := by
  rw [pinSetAct, hstore]
  rfl

theorem pinSetCommits {q : Request} {s : State} (hlen : (reqBody q).length = 3) (h : Accepted 0x12 q s)
    (hbit : (byteAt (reqBody q) 2).toNat ≤ 1) (hkeys : s.sec.zeroised = false) (hstore : storeCheck s = none) :
    exec (.pinSet q) s = .next { taken q s with fw := { s.fw with
      staging := s.fw.staging.map (putKey 0x0011 ([0, byteAt (reqBody q) 2] ++ (reqBody q).take 2))
      commit := some { items := putKey 0x0011 ([0, byteAt (reqBody q) 2] ++ (reqBody q).take 2) (latestItems s)
                       gen := s.fw.gen + 1, q := some q } } } := by
  have hchecked : storeCheck (taken q s) = none := (taken_keep storeCheck q s).trans hstore
  refine exec_later opPinSet h ?_ ?_ rfl (keysCheck_taken hkeys)
  · simp [opPinSet, lenIs, hlen, param, hbit]
  · have hlatest : latestItems (taken q s) = latestItems s := taken_keep latestItems q s
    have hact := pinSetAct_stored (q := q) hchecked
    have hfw : (taken q s).fw = s.fw := by simp
    rw [hlatest, hfw] at hact
    exact hact

/-- The running items that take effect at a commit change no more than their registers and the look-ahead. -/
theorem commitDone_fw {c : Commit} {s : State} (h : s.fw.commit = some c) :
    (commitDone s).fw.commit = none ∧ (commitDone s).fw.gen = c.gen ∧ (commitDone s).fw.setValid = true ∧
    (commitDone s).fw.copyA = (commitDone s).fw.copyB ∧
    (commitDone s).fw.copyA = { good := true, gen := c.gen, ssv := s.id.ssv, items := c.items } := by
  have hanswer (u : State) : (answerCommit c u).fw = u.fw := by
    unfold answerCommit
    (repeat' split) <;> simp
  simp only [commitDone, h, hanswer]
  split <;> simp

theorem commitDone_answers {c : Commit} {s : State} (h : s.fw.commit = some c) {r : Request} (hr : c.q = some r)
    (hop : r.pkt.opcode ≠ 0x12) : Answered r { data := be 4 c.gen.toNat } (commitDone s) := by
  simp only [commitDone, h]
  exact ⟨_, by rw [answerCommit, hr]; exact if_neg hop⟩

/-- Settles O17: each settings command by the branch of its action. -/
theorem settingsAreStagedAndCommitted : Obligations.SettingsAreStagedAndCommitted := by
  unfold Obligations.SettingsAreStagedAndCommitted
  intro q s
  refine ⟨setReadAnswers, setWriteAnswers, fun hlen h => ?_, setCommitAnswers, pinSetCommits, fun c hc => ?_⟩
  · exact answers_of opSetDiscard h rfl rfl (lenIs_of hlen) rfl
  · obtain ⟨hcommit, hgen, hvalid, hcopies, hcopy⟩ := commitDone_fw hc
    exact ⟨_, rfl, hcommit, hgen, hvalid, hcopies, hcopy, fun r hr hop => commitDone_answers hc hr hop⟩

end Sys2Proof.Proofs

/-! The clear registers. -/

namespace Sys2Proof.Proofs

open Sys2Proof.Machine Sys2Proof.Safety Sys2Proof.Laws

theorem clearBarr_clears (v : Word) (s : State) :
    (bit v 0 = true → (clearBarr v s).barr.hCrc = 0 ∧ (clearBarr v s).barr.hSeq = 0 ∧ (clearBarr v s).barr.hTyp = 0 ∧
      (clearBarr v s).barr.hMsg = 0) ∧
    (bit v 0 = false → (clearBarr v s).barr.hCrc = s.barr.hCrc ∧ (clearBarr v s).barr.hSeq = s.barr.hSeq ∧
      (clearBarr v s).barr.hTyp = s.barr.hTyp ∧ (clearBarr v s).barr.hMsg = s.barr.hMsg) ∧
    (bit v 1 = true → (clearBarr v s).barr.mCrc = 0 ∧ (clearBarr v s).barr.mSeq = 0 ∧ (clearBarr v s).barr.mTyp = 0 ∧
      (clearBarr v s).barr.ferrClear = true) ∧
    (bit v 1 = false → (clearBarr v s).barr.mCrc = s.barr.mCrc ∧ (clearBarr v s).barr.mSeq = s.barr.mSeq ∧
      (clearBarr v s).barr.mTyp = s.barr.mTyp) ∧
    (clearBarr v s).barr.tserr = (if bit v 2 then 0 else s.barr.tserr) ∧
    (clearBarr v s).barr.lossCnt = s.barr.lossCnt ∧ (clearBarr v s).barr.link = s.barr.link ∧
    Only [.barr] s (clearBarr v s) := by
  refine ⟨fun h => ?_, fun h => ?_, fun h => ?_, fun h => ?_, ?_, ?_, ?_, fun p hp => ?_⟩
  · cases h1 : bit v 1 <;> cases h2 : bit v 2 <;> simp [clearBarr, h, h1, h2]
  · cases h1 : bit v 1 <;> cases h2 : bit v 2 <;> simp [clearBarr, h, h1, h2]
  · cases h1 : bit v 0 <;> cases h2 : bit v 2 <;> simp [clearBarr, h, h1, h2]
  · cases h1 : bit v 0 <;> cases h2 : bit v 2 <;> simp [clearBarr, h, h1, h2]
  · cases h0 : bit v 0 <;> cases h1 : bit v 1 <;> cases h2 : bit v 2 <;> simp [clearBarr, h0, h1, h2]
  · cases h0 : bit v 0 <;> cases h1 : bit v 1 <;> cases h2 : bit v 2 <;> simp [clearBarr, h0, h1, h2]
  · cases h0 : bit v 0 <;> cases h1 : bit v 1 <;> cases h2 : bit v 2 <;> simp [clearBarr, h0, h1, h2]
  · cases p
    case barr => exact absurd List.mem_cons_self hp
    all_goals rfl

theorem clearChain_eq (v : Word) (s : State) : clearChain v s = { s with chain := { s.chain with
    errUp := if bit v 0 then {} else s.chain.errUp, errDn := if bit v 1 then {} else s.chain.errDn
    upBreaks := if bit v 2 then 0 else s.chain.upBreaks, dnBreaks := if bit v 2 then 0 else s.chain.dnBreaks } } := by
  unfold clearChain
  cases bit v 0 <;> cases bit v 1 <;> cases bit v 2 <;> rfl

theorem clearSvc_eq (v : Word) (s : State) : clearSvc v s = { s with svc := { s.svc with
    stuck := if bit v 0 then false else s.svc.stuck
    cntStuck := if bit v 1 then 0 else s.svc.cntStuck, cntAttn := if bit v 1 then 0 else s.svc.cntAttn
    cntWithdrawn := if bit v 1 then 0 else s.svc.cntWithdrawn, cntErr := if bit v 1 then 0 else s.svc.cntErr } } := by
  unfold clearSvc
  cases bit v 0 <;> cases bit v 1 <;> rfl

theorem can_onCan (p : CanPort) (f : Can → Can) (s : State) : can p (onCan p f s) = f (can p s) := by
  cases p <;> rfl

theorem only_onCan (p : CanPort) (f : Can → Can) (s : State) :
    Only [if p = .a then .canA else .canB] s (onCan p f s) := by
  intro x hx
  cases p with
  | a => cases x; case canA => exact absurd List.mem_cons_self hx
         all_goals rfl
  | b => cases x; case canB => exact absurd List.mem_cons_self hx
         all_goals rfl

theorem clearCan_port (p : CanPort) (v : Word) (s : State) : can p (clearCan p v s) = { can p s with
    ovf := if bit v 0 then 0 else (can p s).ovf
    rxCnt := if bit v 1 then 0 else (can p s).rxCnt, txCnt := if bit v 1 then 0 else (can p s).txCnt
    eBit := if bit v 2 then 0 else (can p s).eBit, eStuff := if bit v 2 then 0 else (can p s).eStuff
    eCrc := if bit v 2 then 0 else (can p s).eCrc, eForm := if bit v 2 then 0 else (can p s).eForm
    busoffs := if bit v 3 then 0 else (can p s).busoffs } := by
  rw [clearCan, can_onCan]
  cases bit v 0 <;> cases bit v 1 <;> cases bit v 2 <;> cases bit v 3 <;> rfl

/-- Settles O18: each clear register by the equation of its operation. -/
theorem allClearRegistersClearTheirCounters : Obligations.AllClearRegistersClearTheirCounters := by
  unfold Obligations.AllClearRegistersClearTheirCounters
  refine ⟨fun s v => ⟨fun hdom => ?_, fun hdom => ?_, rfl, fun hdom => ?_, fun p hdom => ?_, fun hdom => ?_,
    fun hbit => ?_, fun hbit => ?_, fun hdom => ?_⟩, fun s v => ⟨fun hdrv hgate => ?_, fun hdom => ?_, fun hdom i => ?_⟩⟩
  · exact ⟨clearBarr v s, congrArg Host.Outcome.next (if_pos hdom), clearBarr_clears v s⟩
  · change execChCntclr _ _ = _
    simp [execChCntclr, hdom, clearChain_eq]
  · change execGnssCntclr _ _ = _
    simp [execGnssCntclr, hdom, clearGnss]
  · exact ⟨clearCan p v s, congrArg Host.Outcome.next (if_pos hdom), clearCan_port p v s, only_onCan p _ s⟩
  · change execSvcCntclr _ _ = _
    simp [execSvcCntclr, hdom, clearSvc_eq]
  · change execSecCntclr _ _ = _
    simp [execSecCntclr, clearSec, hbit]
  · change execSecCntclr _ _ = _
    simp [execSecCntclr, clearSec, hbit]
  · change execEvtCntclr _ _ = _
    simp [execEvtCntclr, hdom, clearEvt]
  · refine ⟨_, by
      change execOchCntclr _ _ = _; simp only [execOchCntclr, hdrv, hgate, Bool.and_self, if_true]; rfl, fun n => ?_, fun i => ?_, rfl⟩
    · exact Safety.vmap_get _ _ n
    · cases bit v 1 <;> simp
  · refine ⟨_, by
      change execSinCntclr _ _ = _; simp only [execSinCntclr, sinCntclr, hdom, if_true]; rfl, fun n => ?_, rfl⟩
    rw [Safety.vmapIdx_get]
    cases bit v n.val <;> rfl
  · refine ⟨loopClr i v s, congrArg Host.Outcome.next (if_pos hdom), ?_, fun j hj => ?_, fun p hp => ?_⟩
    · simp [loopClr]
    · simp [loopClr, hj]
    · cases p
      case loop => exact absurd List.mem_cons_self hp
      all_goals rfl

end Sys2Proof.Proofs

/-! Transports and the checks at the door. -/

namespace Sys2Proof.Proofs

open Sys2Proof.Machine Sys2Proof.Safety Sys2Proof.Laws

/-! ## Steps 2 to 5 of Table 05-3 -/

/-- A request under its own opcode enters at step 2. -/
theorem serve_takeIn (o : Op) {q : Request} {s : State} (hop : q.pkt.opcode = BitVec.ofNat 8 o.code)
    (hrun : hcoreRuns s = true) : serve o q s = takeIn q (process o q) s := by
  have hq : ({ q with pkt := { q.pkt with opcode := BitVec.ofNat 8 o.code } } : Request) = q := by rw [← hop]
  simp only [serve, hq, hrun, if_true]

theorem takeIn_format {q : Request} {a : Ans} (next : State → State) {s : State} (h : checkFormat q = some a) :
    takeIn q next s = reply q a s := by
  simp only [takeIn, h]

theorem takeIn_otherChain {q : Request} (next : State → State) {s : State} (hformat : checkFormat q = none)
    (hother : otherChain q s = true) (hvia : q.via ≠ .svc) : takeIn q next s = s := by
  simp only [takeIn, hformat, hother, hvia, if_true, if_false]

theorem takeIn_notHead {q : Request} (next : State → State) {s : State} (hformat : checkFormat q = none)
    (hchain : otherChain q s = false) (hnot : notHead q s = true) :
    takeIn q next s = reply q { status := 0x11, detail := 0x04 } s := by
  simp only [takeIn, hformat, hchain, hnot, if_true, Bool.false_eq_true, if_false]

/-- A request this node is named by, and which it remembers, is answered from its memory. -/
theorem takeIn_remembered {q : Request} {d : DupEntry} (next : State → State) {s : State} (hformat : checkFormat q = none)
    (hme : forMe q s = true) (hchain : otherChain q s = false) (hdup : s.pkt.dups.find? (isDup q) = some d)
    (hvia : q.via ≠ .svc) : takeIn q next s =
      (if d.finished then d.replies else replyPackets q { status := 0x40, detail := 0x06 } s).foldl
        (fun u p => routeReply q.via p u) s := by
  have hsingle : q.pkt.bcast = false := by simp_all [forMe]
  have hplace : notHead q s = false ∧ forOther q s = false := by simp [notHead, forOther, hme, hsingle]
  simp only [takeIn, hformat, hchain, hplace, hdup, hvia, Bool.false_eq_true, if_false, decide_false, Bool.and_false]
  split <;> rfl

theorem routeReplies_keep {α : Type} (f : State → α) (hf : ∀ via p s, f (routeReply via p s) = f s) (via : Via)
    (ps : List Packet) (s : State) : f (ps.foldl (fun u p => routeReply via p u) s) = f s :=
  foldl_keep f _ (fun s p => hf via p s) ps s

section Door

variable {q : Request} {s : State} (hop : q.pkt.opcode = 0x7B) (hrun : hcoreRuns s = true) (hvia : q.via ≠ .svc)
include hop hrun

theorem regWrite_takeIn : exec (.regWrite q) s = .next (takeIn q (process opRegWrite q) s) :=
  congrArg _ (serve_takeIn opRegWrite hop hrun)

theorem regWrite_badVersion (hver : q.pkt.ver ≠ 1) :
    exec (.regWrite q) s = .next (reply q { status := 0x21, detail := 0x07 } s) := by
  have hformat : checkFormat q = some { status := 0x21, detail := 0x07 } := by
    rw [checkFormat, if_pos (bne_iff_ne.mpr hver)]; rfl
  rw [regWrite_takeIn hop hrun, takeIn_format _ hformat]

theorem regWrite_tooLong (hver : q.pkt.ver = 1) (hlen : 232 < q.pkt.payload.length) :
    exec (.regWrite q) s = .next (reply q { status := 0x22 } s) := by
  have hformat : checkFormat q = some { status := 0x22 } := by simp [checkFormat, hver, hlen, refuse]
  rw [regWrite_takeIn hop hrun, takeIn_format _ hformat]

theorem regWrite_member (hformat : checkFormat q = none) (hmember : isHead s = false)
    (hout : fromOutside q.via = true) (hnot : forMe q s = false) :
    exec (.regWrite q) s = .next (reply q { status := 0x11, detail := 0x04 } s) := by
  rw [regWrite_takeIn hop hrun, takeIn_notHead _ hformat]
  · simp [otherChain, hmember]
  · simp [notHead, hmember, hout, hnot]

include hvia

theorem regWrite_otherChain (hformat : checkFormat q = none) (hhead : isHead s = true)
    (hout : fromOutside q.via = true) (hchain : q.pkt.chainId ≠ s.chain.chainId) : exec (.regWrite q) s = .next s := by
  rw [regWrite_takeIn hop hrun, takeIn_otherChain _ hformat _ hvia]
  simp [otherChain, hhead, hout, hchain]

theorem regWrite_remembered {d : DupEntry} (hformat : checkFormat q = none) (hme : forMe q s = true)
    (hchain : otherChain q s = false) (hdup : s.pkt.dups.find? (isDup q) = some d) :
    Completes (.regWrite q) s fun t =>
      t = (if d.finished then d.replies else replyPackets q { status := 0x40, detail := 0x06 } s).foldl
        (fun u p => routeReply q.via p u) s ∧ t.regs = s.regs ∧ t.barr = s.barr ∧ t.modes = s.modes :=
  ⟨_, by rw [regWrite_takeIn hop hrun, takeIn_remembered _ hformat hme hchain hdup hvia], rfl,
    routeReplies_keep (fun s => s.regs) (by simp) q.via _ s, routeReplies_keep (fun s => s.barr) (by simp) q.via _ s,
    routeReplies_keep (fun s => s.modes) (by simp) q.via _ s⟩

end Door

/-! ## ISO 11783 messages (R133) -/

theorem splitPackets_single {bytes : List Byte} (hne : bytes ≠ []) (hmore : (byteAt bytes 0).getLsbD 3 = false) :
    splitPackets 16 bytes = [bytes] := by
  cases bytes with
  | nil => exact absurd rfl hne
  | cons b bs =>
    have hb : b.getLsbD 3 = false := by simpa [byteAt] using hmore
    simp only [splitPackets, hb, Bool.not_false, if_true]

theorem canTpMessage_claimed {sa da : Byte} {kind : TpKind} {bytes : List Byte} {s : State} (hiso : isoRuns s = true)
    (hclaim : s.canA.claim = .claimed) : canTpMessage .a sa da kind bytes s = match kind with
      | .bam => countDrop (.can .a sa) s
      | .singleFrame => if da == s.canA.addr then countDrop (.can .a sa) s else s
      | .connection =>
        if da != s.canA.addr then s
        else (splitPackets 16 bytes).foldl (fun s b => if hcoreRuns s then takeBytes (.can .a sa) b s else s) s := by
  simp only [canTpMessage, hiso, hclaim]
  rfl

theorem canTpMessages {sa : Byte} {bytes : List Byte} {s : State} (hiso : isoRuns s = true)
    (hclaim : s.canA.claim = .claimed) :
    (∀ da : Byte, exec (.canTpMessage .a sa da .bam bytes) s = .next (countDrop (.can .a sa) s)) ∧
    (exec (.canTpMessage .a sa s.canA.addr .singleFrame bytes) s = .next (countDrop (.can .a sa) s)) ∧
    (hcoreRuns s = true → bytes ≠ [] → (byteAt bytes 0).getLsbD 3 = false →
      exec (.canTpMessage .a sa s.canA.addr .connection bytes) s = .next (takeBytes (.can .a sa) bytes s)) ∧
    (∀ da : Byte, da ≠ s.canA.addr → exec (.canTpMessage .a sa da .connection bytes) s = .next s) := by
  refine ⟨fun da => ?_, ?_, fun hrun hne hmore => ?_, fun da hda => ?_⟩ <;>
    refine congrArg _ ((canTpMessage_claimed hiso hclaim).trans ?_)
  · rfl
  · simp
  · simp [splitPackets_single hne hmore, hrun]
  · simp [hda]

/-! ## Native FD packets (R134) -/

theorem without_fdAsms {s : State} (h : s.pkt.fdAsms = []) : { s with pkt := { s.pkt with fdAsms := [] } } = s := by
  rw [← h]

theorem dropFd_none {p : CanPort} {node : Byte} {s : State} (h : s.pkt.fdAsms = []) : dropFd p node s = s := by
  simp only [dropFd, h, List.filter_nil, List.any_nil, Bool.false_eq_true, if_false, without_fdAsms h]

/-- The packet that its first segment opens: the length of its payload gives what it needs. -/
def openedFd (p : CanPort) (node : Byte) (seg : List Byte) : FdAsm :=
  { port := p, node := node, nextIdx := 0, need := 20 + (byteAt seg 9).toNat, bytes := [] }

section Segment

variable {p : CanPort} {id : BitVec 29} {h : Byte} {seg : List Byte} {s : State}

/-- The first segment of a packet for this node opens the packet. -/
theorem canFdSegment_first (hrun : hcoreRuns s = true) (hlive : portLive p s = true) (hprof : profile p s = 2)
    (hawake : (can p s).mode ≠ .sleep) (hpgn : id.extractLsb' 19 8 = 0xB5) (hbit : id.getLsbD 18 = false)
    (hnode : (id.extractLsb' 8 8).toNat = field (canReg p s 0) 15 8) (hasms : s.pkt.fdAsms = [])
    (hidx : h.toNat % 64 = 0) (hfirst : h.getLsbD 7 = true) :
    exec (.canFdSegment p id (h :: seg)) s = .next (joinFd (openedFd p (id.extractLsb' 0 8) seg)
      (h.getLsbD 6) seg s) := by
  have hhead : byteAt (h :: seg) 0 = h := rfl
  have hpgn' : (id.extractLsb' 19 8 == 0xB5#8) = true := beq_iff_eq.mpr hpgn
  change execCanFdSegment _ _ _ _ = _
  simp only [execCanFdSegment, canFdSegment, hrun, hlive, hprof, hawake, hpgn', hbit, hnode, hhead, hidx, hfirst,
    dropFd_none hasms, openedFd]
  simp

theorem joinFd_first {a : FdAsm} {last : Bool} (hasms : s.pkt.fdAsms = []) (hempty : a.bytes = []) :
    joinFd a last seg s =
      if !last then { s with pkt := { s.pkt with fdAsms := [{ a with nextIdx := a.nextIdx + 1, bytes := seg }] } }
      else if seg.length < a.need then countDrop (.can a.port a.node) s
      else takeBytes (.can a.port a.node) (seg.take a.need) s := by
  simp only [joinFd, hasms, hempty, List.nil_append, List.filter_nil, without_fdAsms hasms]

end Segment

theorem dropFd_one {p : CanPort} {node : Byte} {a : FdAsm} {s : State} (hasms : s.pkt.fdAsms = [a])
    (hown : ownFd p node a = true) : dropFd p node s =
      if a.dead then { s with pkt := { s.pkt with fdAsms := [] } }
      else countDrop (.can p node) { s with pkt := { s.pkt with fdAsms := [] } } := by
  simp only [dropFd, hasms]
  cases hdead : a.dead <;> simp [hown, hdead]

theorem multipartTimeout_one {a : Assembly} {s : State} (hasms : s.pkt.asms = [a]) :
    multipartTimeout a.via a.last.src s = reply { via := a.via, pkt := a.last } { status := 0x22, detail := 0x10 }
      (countDrop a.via { s with pkt := { s.pkt with asms := [] } }) := by
  have hown : ownAsm a.via a.last.src a = true := by simp [ownAsm]
  simp only [multipartTimeout, hasms, List.find?_cons, hown]
  simp [hown]

/-- Settles O21: the door's checks in the order of Table 05-3, then each transport by its own operation. -/
theorem transportsDeliverPacketsJudgedAtTheDoor : Obligations.TransportsDeliverPacketsJudgedAtTheDoor := by
  unfold Obligations.TransportsDeliverPacketsJudgedAtTheDoor
  refine ⟨fun q s hop hrun hvia => ⟨regWrite_badVersion hop hrun, regWrite_tooLong hop hrun,
    regWrite_otherChain hop hrun hvia, regWrite_member hop hrun, fun d hformat hme hchain hdup =>
      ⟨fun hfin => ?_, fun hfin => ?_⟩⟩,
    fun s => ⟨fun sa bytes hiso hclaim => canTpMessages hiso hclaim, ?_, fun p node a hrun hasms hown => ?_,
      fun a hrun hasms => ?_, rfl⟩⟩
  · simpa only [hfin, if_true] using regWrite_remembered hop hrun hvia hformat hme hchain hdup
  · simpa only [hfin, Bool.false_eq_true, if_false] using regWrite_remembered hop hrun hvia hformat hme hchain hdup
  · intro p id h seg node hrun hlive hprof hawake hpgn hbit hnode hasms hidx hfirst need
    have hstep := canFdSegment_first (seg := seg) hrun hlive hprof hawake hpgn hbit hnode hasms hidx hfirst
    rw [joinFd_first hasms rfl] at hstep
    refine ⟨fun hlast => ⟨_, hstep, ?_⟩, fun hlast hlong => ?_, fun hlast hshort => ?_⟩
    · rw [hlast]
      refine ⟨rfl, fun x hx => ?_⟩
      cases x
      case pkt => exact absurd List.mem_cons_self hx
      all_goals rfl
    · rw [hstep, hlast]
      exact congrArg _ (if_neg (Nat.not_lt.mpr hlong))
    · rw [hstep, hlast]
      exact congrArg _ (if_pos hshort)
  · rw [← dropFd_one hasms hown]
    change execFdSegmentTimeout _ _ _ = _
    simp only [execFdSegmentTimeout, hrun, if_true]
  · rw [← multipartTimeout_one hasms]
    change execMultipartTimeout _ _ _ = _
    simp only [execMultipartTimeout, hrun, if_true]

end Sys2Proof.Proofs

/-! Scheduled and deferred requests. -/

namespace Sys2Proof.Proofs

open Sys2Proof.Machine Sys2Proof.Safety Sys2Proof.Laws

/-! ## A scheduled CLAY_ENTER is accepted or refused (R140, R142, R151) -/

section Schedule

variable {q : Request} {s : State} (hrun : hcoreRuns s = true) (hop : q.pkt.opcode = 0x02)
  (hformat : checkFormat q = none) (hme : forMe q s = true) (hother : otherChain q s = false)
  (hdup : s.pkt.dups.find? (isDup q) = none)
include hrun hop hformat hme hother hdup

theorem clayEnter_process : exec (.clayEnter q) s = .next (process opClayEnter q (taken q s)) := by
  have hsingle : q.pkt.bcast = false := by simp_all [forMe]
  have hplace : notHead q s = false ∧ forOther q s = false := by simp [notHead, forOther, hme, hsingle]
  refine congrArg _ ((serve_takeIn opClayEnter hop hrun).trans ?_)
  simp only [takeIn, hformat, hother, hplace, hdup, Bool.false_eq_true, if_false, taken]

variable (hparts : q.parts = []) (hmore : q.pkt.more = false) (hmode : s.modes.mode ≠ .sand)
  (hlife : s.sec.life ≠ .retired) (hbody : reqBody q = []) (hsched : q.pkt.sched = true) (htb : s.clk.valid = true)

omit hrun hop hformat hother hdup in
include hparts hmore hmode hlife hbody in
/-- Of the checks of steps 6 to 11 only the one of its APPLY_AT is left. -/
theorem vet_clayEnter : vet opClayEnter q (taken q s) = checkSched { b := true, sched := true } q (taken q s) := by
  have hsingle : q.pkt.bcast = false := by simp_all [forMe]
  have hm : checkMode { b := true, sched := true } (taken q s) = none := by
    cases hs : s.modes.mode <;> simp_all [checkMode]
  simp [vet, opClayEnter, opInfo, hparts, hmore, hm, checkLife, hlife, hsingle, lenIs, hbody]

include hparts hmore hmode hlife hbody in
/-- A scheduled command that step 11 refuses is answered so, and nothing else happens. -/
theorem clayEnter_notScheduled {a : Ans} (h : checkSched { b := true, sched := true } q (taken q s) = some a) :
    Answers (.clayEnter q) q s id a := by
  refine (clayEnter_process hrun hop hformat hme hother hdup).trans ?_
  simp only [process, (vet_clayEnter hme hparts hmore hmode hlife hbody).trans h]
  rfl

omit hrun hop hformat hme hother hdup in
include hsched htb in
theorem checkSched_scheduled : checkSched { b := true, sched := true } q (taken q s) =
    if 86400000000 < frameDiff q.pkt.applyAt (now s) then refuse 0x21 0x09
    else if frameDiff q.pkt.applyAt (now s) < 400 then refuse 0x30 0
    else if 64 ≤ s.pkt.sched.length then refuse 0x40 0x0A
    else none := by
  have hnow : now (taken q s) = now s := taken_keep now q s
  simp [checkSched, hsched, htb, hnow]

omit hrun hop hformat hother hdup hme in
theorem keepSched_clayEnter (q : Request) (s : State) : ∃ (b : Bool) (k : BitVec 7),
    keepSched opClayEnter q s =
      { s with pkt := { s.pkt with sched := s.pkt.sched ++ [{ q := q, handed := b }], schedMost := k } } := by
  unfold keepSched
  dsimp only
  split <;> exact ⟨_, _, rfl⟩

include hparts hmore hmode hlife hbody hsched in
theorem clayEnter_kept (h : checkSched { b := true, sched := true } q (taken q s) = none) :
    Completes (.clayEnter q) s fun t =>
      (∃ b : Bool, t.pkt.sched = s.pkt.sched ++ [{ q := q, handed := b }]) ∧ t.modes = s.modes ∧ t.out = s.out ∧
      Answered q { status := 0x01 } t ∧ Served [] s t := by
  have hsingle : q.pkt.bcast = false := by simp_all [forMe]
  have howe (u : State) : passesOn q u = false ∧ owe q u = u := by simp [owe, passesOn, hsingle]
  obtain ⟨b, k, hkeep⟩ := keepSched_clayEnter q (taken q s)
  refine ⟨reply q { status := 0x01 } (keepSched opClayEnter q (taken q s)), ?_, ⟨b, ?_⟩, ?_, ?_, ⟨_, rfl⟩, ?_⟩
  · refine (clayEnter_process hrun hop hformat hme hother hdup).trans (congrArg _ ?_)
    simp only [process, (vet_clayEnter hme hparts hmore hmode hlife hbody).trans h, hsingle, actOn, howe, actNow, hsched,
      Bool.false_and, Bool.false_eq_true, if_false, Bool.true_or, if_true]
    rfl
  · rw [(reply_plans ..).1, hkeep]
    simp
  · rw [hkeep]; simp
  · rw [hkeep]; simp
  · refine served_reply q _ (served_of_taken (q := q) fun p hp => ?_)
    rw [hkeep]
    cases p <;> simp_all [same]

end Schedule

/-! ## Hand-over and action of the one scheduled command (R141) -/

section Act

variable {c : SchedCmd} {s : State} (hrun : hcoreRuns s = true) (hone : s.pkt.sched = [c])
  (hop : c.q.pkt.opcode = 0x02)

include hop in
omit hrun hone in
theorem opFor_clayEnter : opFor c.q.pkt.opcode = opClayEnter := by rw [hop]; rfl

include hrun hone hop in
theorem schedHandover_one (hfresh : c.handed = false) : Completes .schedHandover s fun t =>
    t.pkt.sched = [{ c with handed := true }] ∧
    t.clk = (advanceTo (tickAt (c.q.pkt.applyAt - 1000) 0 s) s).clk ∧ Only [.clk, .barr, .pkt] s t := by
  have hnext : earliest (s.pkt.sched.filter fun c => !c.handed) = some c := by simp [hone, hfresh, earliest]
  have hexec : exec .schedHandover s = .next (handOver c s) := by
    change execSchedHandover _ = _
    simp only [execSchedHandover, hnext, hrun, if_true]
  refine ⟨handOver c s, hexec, ?_, ?_, fun p hp => ?_⟩
  · simp [handOver, opFor_clayEnter hop, opClayEnter, hone, modFirst]
  · simp [handOver, opFor_clayEnter hop, opClayEnter]
  · cases p <;> simp_all [same, handOver, opFor, opOf, opClayEnter]

end Act

theorem enterClay_pkt (c : Fin 11) (s : State) : (enterClay c s).pkt =
    if s.modes.clay then s.pkt
    else { s.pkt with sched := s.pkt.sched.filter fun c => !(c.q.pkt.opcode != 0x02) } := by
  unfold enterClay
  split
  · rfl
  · have hdiscard (p : SchedCmd → Bool) (u : State) : (discardSched p u).pkt =
        { u.pkt with sched := u.pkt.sched.filter fun c => !p c } :=
      foldl_keep (fun s : State => s.pkt) _ (fun _ _ => by simp) _ _
    simp only [clayEntry, applyAtClay_frame, cutHanded_frame, abortSweep_frame, syncFreeze_frame, clayHardware_frame,
      warnSwaps_frame, hdiscard]

/-- A scheduled CLAY_ENTER acts where it stands: in its frame (R12, R160). -/
theorem clayEnterAct_scheduled {q : Request} (hsched : q.pkt.sched = true) (s : State) : ∃ a : Ans,
    clayEnterAct q s = (hostClay 3 s, some a) ∧ isFailure a.status = false := by
  refine ⟨{ status := if contradicted 0xFFFFFFFF s then 0x41 else 0, data := be 4 (idClay (hostClay 3 s)).toNat },
    by simp only [clayEnterAct, toActing, hsched, if_true], ?_⟩
  dsimp only
  split <;> rfl

theorem hostClay_pkt {c : Fin 11} {s : State} (h : s.pkt.sched = []) : (hostClay c s).pkt.sched = [] ∧
    (hostClay c s).pkt.acted = s.pkt.acted := by
  simp only [hostClay, sendSafe_frame, enterClay_pkt]
  split <;> simp [h]

/-- The one scheduled command has left the store for those that acted. -/
def movedToActed (c : SchedCmd) (s : State) : State :=
  { s with pkt := { s.pkt with sched := [], acted := lastN 64 (s.pkt.acted ++ [c]) } }

theorem schedAct_one {c : SchedCmd} {s : State} (hrun : hcoreRuns s = true) (hone : s.pkt.sched = [c])
    (hop : c.q.pkt.opcode = 0x02) (hhanded : c.handed = true) (hsched : c.q.pkt.sched = true) : ∃ a : Ans,
    schedAct s = reply c.q a (hostClay 3 (movedToActed c (advanceTo (tickAt c.q.pkt.applyAt 0 s) s))) := by
  have hnext : earliest s.pkt.sched = some c := by rw [hone]; rfl
  have hc : ({ c with handed := true } : SchedCmd) = c := by rw [← hhanded]
  have hpart : hasFieldPart c.q = false ∧ viaStored c.q = false := by simp [hasFieldPart, viaStored, hop]
  have hsecond (a : Ans) : secondReply c.q a = true := by simp [secondReply, hop]
  have hfor : opFor c.q.pkt.opcode = opClayEnter := opFor_clayEnter hop
  have hstore : (advanceTo (tickAt c.q.pkt.applyAt 0 s) s).pkt.sched = [c] := by simpa using hone
  simp only [schedAct, hnext, hrun, hhanded, hc, Bool.not_true, Bool.false_eq_true, if_false, if_true]
  generalize advanceTo (tickAt c.q.pkt.applyAt 0 s) s = u at hstore
  obtain ⟨a, hact, hfine⟩ := clayEnterAct_scheduled hsched (movedToActed c u)
  have hperform : perform opClayEnter c.q (movedToActed c u) = (hostClay 3 (movedToActed c u), some a) := hact
  have hmoved : ({ u with pkt := { u.pkt with sched := [], acted := lastN 64 (u.pkt.acted ++ [c]) } } : State) =
      movedToActed c u := rfl
  refine ⟨a, ?_⟩
  simp only [hpart, hstore, hfor, Bool.false_eq_true, if_false, List.find?_cons, beq_self_eq_true, Option.getD_some,
    dropFirst, if_true, hmoved, hperform, finishSched, hfine, hsecond, Bool.false_and, Option.any_some]
  rfl

theorem schedAct_clayEnter {c : SchedCmd} {s : State} (hrun : hcoreRuns s = true) (hone : s.pkt.sched = [c])
    (hop : c.q.pkt.opcode = 0x02) (hhanded : c.handed = true) (hsched : c.q.pkt.sched = true) :
    Completes .schedAct s fun t =>
      t.pkt.sched = [] ∧ t.modes.clay = true ∧ t.modes.active.getLsbD 3 = true ∧
      t.clk = (advanceTo (tickAt c.q.pkt.applyAt 0 s) s).clk ∧ (s.pkt.acted = [] → t.pkt.acted = [c]) := by
  obtain ⟨a, hact⟩ := schedAct_one hrun hone hop hhanded hsched
  refine ⟨_, congrArg Host.Outcome.next hact, ?_, ?_, ?_, ?_, fun hnone => ?_⟩
  · rw [(reply_plans ..).1, (hostClay_pkt rfl).1]
  · simp [hostClay]
  · simp [hostClay, cause]
  · simp [movedToActed]
  · rw [(reply_plans ..).2.1, (hostClay_pkt rfl).2]
    simp [movedToActed, hnone, lastN]

theorem deferredServe_budget {d : Deferred} {s : State} (hrun : hcoreRuns s = true) (hone : s.pkt.deferred = [d])
    (hwhy : d.why = .budget) : Completes .deferredServe s fun t =>
      t.pkt.deferred = [] ∧ t.clk = (advanceTo (tickAt d.ticket 0 s) s).clk ∧
      (∃ m : SetMasks, Answered d.q { status := if m.refused != 0 then 0x10 else 0, data := maskBytes m } t) ∧
      t.out = s.out ∧ t.modes = s.modes := by
  have hnext : earliestTicket s.pkt.deferred = some d := by simp [hone, earliestTicket]
  have hserve : deferredServe s = serveBudget d.q (let u := advanceTo (tickAt d.ticket 0 s) s
      { u with pkt := { u.pkt with deferred := [] } }) := by
    have hgone : (advanceTo (tickAt d.ticket 0 s) s).pkt.deferred.erase d = [] := by simp [hone]
    simp only [deferredServe, hnext, hrun, hwhy, hgone, Bool.not_true, Bool.false_eq_true, if_false]
  refine ⟨_, congrArg Host.Outcome.next hserve, ?_, ?_, ⟨_, _, rfl⟩, ?_, ?_⟩ <;> simp [serveBudget]

/-- Settles O22: step 11 for a scheduled CLAY_ENTER, then its hand-over and its action at its frame; a deferred OCH_SET
has its second reply. -/
theorem scheduledAndDeferredRequests : Obligations.ScheduledAndDeferredRequests := by
  unfold Obligations.ScheduledAndDeferredRequests
  intro s hrun
  refine ⟨fun q hop hformat hme hother hdup hparts hmore hmode hlife hbody hsched htb => ?_,
    fun c hone hop => ⟨schedHandover_one hrun hone hop, schedAct_clayEnter hrun hone hop⟩,
    fun d hone hwhy => deferredServe_budget hrun hone hwhy⟩
  have hcheck := checkSched_scheduled hsched htb
  have hrefused (a : Ans) := clayEnter_notScheduled (a := a) hrun hop hformat hme hother hdup hparts hmore hmode hlife hbody
  refine ⟨fun hnear hfar hroom => ?_, fun hnear => ?_, fun hfar => ?_, fun hnear hfar hfull => ?_⟩
  · refine clayEnter_kept hrun hop hformat hme hother hdup hparts hmore hmode hlife hbody hsched ?_
    rw [hcheck, if_neg (by omega), if_neg (by omega), if_neg (by omega)]
  · refine hrefused _ ?_
    rw [hcheck, if_neg (by omega), if_pos hnear]
    rfl
  · refine hrefused _ ?_
    rw [hcheck, if_pos hfar]
    rfl
  · refine hrefused _ ?_
    rw [hcheck, if_neg (by omega), if_neg (by omega), if_pos hfull]
    rfl

end Sys2Proof.Proofs

/-! What events, Clay entries and their cells leave of the barrier side. -/

namespace Sys2Proof.Proofs

open Sys2Proof.Machine Sys2Proof.Safety Sys2Proof.Laws

/-- The barrier side without the cells under way and the stored field writes and edges: what an event and a Clay entry
leave as it was. -/
def lanes (s : State) : Barrier :=
  { s.barr with safe := [], rg6 := [], rg6Held := [], rg7 := [], schedWrites := [], heldEdges := [] }

theorem lanes_of_barr {s t : State} (h : t.barr = s.barr) : lanes t = lanes s := by
  rw [lanes, h, lanes]

theorem lanes_fields {s t : State} (h : lanes t = lanes s) :
    t.barr.link = s.barr.link ∧ t.barr.fhalt = s.barr.fhalt ∧ t.barr.fstall = s.barr.fstall ∧
    t.barr.failed = s.barr.failed ∧ t.barr.runFails = s.barr.runFails ∧ t.barr.lat = s.barr.lat ∧
    t.barr.hCrc = s.barr.hCrc ∧ t.barr.hSeq = s.barr.hSeq ∧ t.barr.hTyp = s.barr.hTyp ∧ t.barr.hMsg = s.barr.hMsg ∧
    t.barr.mCrc = s.barr.mCrc ∧ t.barr.mSeq = s.barr.mSeq ∧ t.barr.mTyp = s.barr.mTyp ∧
    t.barr.lossCnt = s.barr.lossCnt ∧ t.barr.declarer = s.barr.declarer ∧ t.barr.tserr = s.barr.tserr ∧
    t.barr.txCnt = s.barr.txCnt ∧ t.barr.rxCnt = s.barr.rxCnt ∧ t.barr.hostGot = s.barr.hostGot ∧
    t.barr.fieldGot = s.barr.fieldGot ∧ t.barr.downSlot = s.barr.downSlot ∧ t.barr.upSlot = s.barr.upSlot ∧
    t.barr.upPart = s.barr.upPart ∧ t.barr.upBad = s.barr.upBad ∧ t.barr.hostNext = s.barr.hostNext ∧
    t.barr.hostExpect = s.barr.hostExpect ∧ t.barr.fieldNext = s.barr.fieldNext ∧
    t.barr.fieldExpect = s.barr.fieldExpect ∧ t.barr.ackFromField = s.barr.ackFromField ∧
    t.barr.ackFromHost = s.barr.ackFromHost ∧ t.barr.fCrc = s.barr.fCrc ∧ t.barr.fSeq = s.barr.fSeq ∧
    t.barr.fTyp = s.barr.fTyp ∧ t.barr.fMsg = s.barr.fMsg ∧ t.barr.hostAlive = s.barr.hostAlive ∧
    t.barr.fieldAlive = s.barr.fieldAlive ∧ t.barr.hostAliveSeen = s.barr.hostAliveSeen ∧
    t.barr.fieldAliveSeen = s.barr.fieldAliveSeen ∧ t.barr.hostHaltedSeen = s.barr.hostHaltedSeen ∧
    t.barr.supervise = s.barr.supervise ∧ t.barr.hbto = s.barr.hbto ∧ t.barr.ferrClear = s.barr.ferrClear ∧
    t.barr.mirrorActive = s.barr.mirrorActive ∧ t.barr.static = s.barr.static ∧
    t.barr.epochRetry = s.barr.epochRetry ∧ t.barr.fieldClock = s.barr.fieldClock ∧ t.barr.replica = s.barr.replica ∧
    t.barr.replicaLoaded = s.barr.replicaLoaded ∧ t.barr.oneShot = s.barr.oneShot ∧
    t.barr.oneShotLatch = s.barr.oneShotLatch ∧ t.barr.fieldDeclared = s.barr.fieldDeclared ∧
    t.barr.plannedStop = s.barr.plannedStop ∧ t.barr.nextTag = s.barr.nextTag ∧ t.barr.txns = s.barr.txns ∧
    t.barr.tagMem = s.barr.tagMem ∧ t.barr.edgeTags = s.barr.edgeTags ∧ t.barr.coefTags = s.barr.coefTags ∧
    t.barr.batches = s.barr.batches ∧ t.barr.coefs = s.barr.coefs ∧ t.barr.dropsAtEpoch = s.barr.dropsAtEpoch ∧
    t.barr.dropsWarned = s.barr.dropsWarned ∧ t.barr.traceOn = s.barr.traceOn ∧ t.barr.dbgBytes = s.barr.dbgBytes := by
  simpa only [lanes, Barrier.mk.injEq, true_and, and_true] using h

@[simp] theorem note_host_barr (code : BitVec 16) (sev : BitVec 2) (chan : Byte) (data : List Byte) (s : State) :
    (note .host code sev chan data s).barr = s.barr := by
  simp only [note]
  split <;> rfl

@[simp] theorem lanes_sendEvent (r : EventRec) (s : State) : lanes (sendEvent r s) = lanes s := by
  simp only [lanes, sendEvent]

@[simp] theorem lanes_note (side : Side) (code : BitVec 16) (sev : BitVec 2) (chan : Byte) (data : List Byte)
    (s : State) : lanes (note side code sev chan data s) = lanes s := by
  cases side with
  | host => exact lanes_of_barr (note_host_barr ..)
  | field =>
    have hev (u : State) (e : Events) : lanes { u with ev := e } = lanes u := rfl
    simp only [note]
    (repeat' split) <;> simp only [lanes_sendEvent, hev]

@[simp] theorem lanes_discardSched (p : SchedCmd → Bool) (s : State) : lanes (discardSched p s) = lanes s :=
  (foldl_keep lanes _ (fun _ _ => lanes_of_barr (note_host_barr ..)) _ _).trans rfl

@[simp] theorem lanes_warnSwaps (s : State) : lanes (warnSwaps s) = lanes s := by
  refine foldl_keep lanes _ (fun s i => ?_) _ s
  split
  · exact lanes_note ..
  · rfl

@[simp] theorem lanes_abortSweep (v : Byte) (s : State) : lanes (abortSweep v s) = lanes s := by
  unfold abortSweep
  split
  · exact (lanes_note ..).trans rfl
  · split <;> rfl

@[simp] theorem lanes_clayEntry (s : State) : lanes (clayEntry s) = lanes s := by
  have hitems (u : State) : lanes (applyAtClay u) = lanes u := lanes_of_barr (by simp)
  have hcut (u : State) : lanes (cutHanded u) = lanes u := lanes_of_barr (by simp)
  have hfreeze (u : State) : lanes (syncFreeze u) = lanes u := lanes_of_barr (by simp)
  have hdrivers (u : State) : lanes (clayHardware u) = lanes u := rfl
  simp only [clayEntry, hitems, hcut, lanes_abortSweep, hfreeze, hdrivers, lanes_warnSwaps, lanes_discardSched]

@[simp] theorem lanes_enterClay (c : Fin 11) (s : State) : lanes (enterClay c s) = lanes s := by
  unfold enterClay
  split
  · rfl
  · exact (lanes_clayEntry _).trans rfl

@[simp] theorem lanes_sendSafe (causes : BitVec 16) (s : State) : lanes (sendSafe causes s) = lanes s := by
  unfold sendSafe
  split
  · simp only [lanes, sendUrgent]
  · rfl

@[simp] theorem lanes_hostClay (c : Fin 11) (s : State) : lanes (hostClay c s) = lanes s := by
  simp only [hostClay, lanes_sendSafe, lanes_enterClay]

@[simp] theorem lanes_enterSilt (why : BitVec 4) (s : State) : lanes (enterSilt why s) = lanes s :=
  (lanes_hostClay ..).trans rfl

@[simp] theorem lanes_raise_host (code : BitVec 16) (sev : BitVec 2) (chan : Byte) (data : List Byte) (s : State) :
    lanes (raise .host code sev chan data s) = lanes s := by
  simp only [raise]
  (repeat' split) <;> simp only [lanes_enterSilt, lanes_hostClay, lanes_note]

/-! ## Events of the host side leave the clock -/

@[simp] theorem raise_host_clk (code : BitVec 16) (sev : BitVec 2) (chan : Byte) (data : List Byte) (s : State) :
    (raise .host code sev chan data s).clk = s.clk := by
  simp only [raise]
  (repeat' split) <;> simp

@[simp] theorem hostClay_booted (c : Fin 11) (s : State) : (hostClay c s).modes.booted = s.modes.booted := by
  simp [hostClay]

@[simp] theorem raise_host_booted (code : BitVec 16) (sev : BitVec 2) (chan : Byte) (data : List Byte) (s : State) :
    (raise .host code sev chan data s).modes.booted = s.modes.booted := by
  simp only [raise]
  (repeat' split) <;> simp [enterSilt]

end Sys2Proof.Proofs

/-! The clock tree stops and starts. -/

namespace Sys2Proof.Proofs

open Sys2Proof.Machine Sys2Proof.Safety Sys2Proof.Laws

/-! ## The clock stops (R47, R48, R59) -/

theorem stopLink_link (s : State) : (stopLink s).barr.link = .down ∧ (stopLink s).barr.fieldClock = false ∧
    (stopLink s).modes.clay = true := by
  obtain ⟨hlink, hclk⟩ := dropLink_link s
  have hfields := lanes_fields (lanes_enterClay 2 (dropLink s))
  exact ⟨by simp [stopLink, hfields, hlink], by simp [stopLink, hfields, hclk], by simp [stopLink]⟩

@[simp] theorem setLevel_barr (l : Fin 5) (s : State) : (setLevel l s).barr = s.barr := by
  simp [setLevel]

theorem setLevel_clay (l : Fin 5) (s : State) : (setLevel l s).modes.clay = s.modes.clay := by
  simp only [setLevel, resumeF, resumeH, liftCause]
  (repeat' split) <;> simp

theorem lossOfLock {w : RelockCause} (hw : w = .phaseError ∨ w = .outOfRange) {s : State} (hclk : clockOn s = true) :
    Completes (.coldRelock w) s fun t =>
      t.clk.tree = .relocking ∧ clockOn t = false ∧ t.clk.lock = false ∧ t.clk.tb = s.clk.tb ∧
      t.clk.refcnt = s.clk.refcnt ∧ t.clk.originId = s.clk.originId ∧ t.clk.originGps = s.clk.originGps ∧
      t.barr.link = .down ∧ t.barr.fieldClock = false ∧ t.modes.clay = true ∧
      Only [.modes, .clk, .barr, .chain, .pkt, .out, .sense, .loop, .canA, .canB, .svc, .sec, .fw, .ev, .sect] s t := by
  let v : State := { releaseLines s with clk := { s.clk with
    tree := .relocking, lock := false, countRelock := true, refWasUp := s.clk.ref = .chainUp, lockMins := 0, lockSecs := 0 } }
  have hstep : coldRelock w s = setLevel (lifeLevel s) (stopLink v) := by
    rcases hw with rfl | rfl <;> simp only [coldRelock, hclk, if_true] <;> rfl
  obtain ⟨hlink, hfield, hclay⟩ := stopLink_link v
  have htree : (setLevel (lifeLevel s) (stopLink v)).clk = v.clk := by simp
  refine ⟨_, congrArg Host.Outcome.next hstep, ?_, ?_, ?_, ?_, ?_, ?_, ?_, by simpa using hlink, by simpa using hfield,
    (setLevel_clay _ _).trans hclay, fun p hp => ?_⟩
  · rw [htree]
  · rw [clockOn, htree]; rfl
  · rw [htree]
  · rw [htree]
  · rw [htree]
  · rw [htree]
  · rw [htree]
  · cases p <;> simp_all [same, v]

theorem freshStart {w : RelockCause} (hw : w = .powerUp ∨ w = .wake) {s : State}
    (hstop : s.clk.tree = .stopped ∨ (s.clk.tree = .relocking ∧ s.clk.countRelock = false)) :
    Completes (.coldRelock w) s fun t =>
      t.clk.tree = .relocking ∧ t.clk.lock = false ∧ t.clk.tb = 0 ∧ t.clk.valid = false ∧ t.clk.originId = 0 ∧
      t.clk.originGps = false ∧ t.barr.link = .down ∧ t.barr.fieldClock = false ∧
      Only [.modes, .clk, .barr, .chain, .pkt, .out, .sense, .loop, .svc, .fw, .ev, .sect] s t := by
  have hstep : coldRelock w s = relockFresh s := by
    rcases hw with rfl | rfl <;> rcases hstop with h | ⟨h, h'⟩ <;> simp [coldRelock, *]
  have hclk : (relockFresh s).clk.tree = .relocking ∧ (relockFresh s).clk.lock = false ∧ (relockFresh s).clk.tb = 0 ∧
      (relockFresh s).clk.valid = false ∧ (relockFresh s).clk.originId = 0 ∧ (relockFresh s).clk.originGps = false := by
    simp [relockFresh]
  obtain ⟨htree, hlock, htb, hvalid, hid, hgps⟩ := hclk
  refine ⟨_, congrArg Host.Outcome.next hstep, htree, hlock, htb, hvalid, hid, hgps, (stopLink_link _).1,
    (stopLink_link _).2.1, fun p hp => ?_⟩
  cases p <;> simp_all [same]

theorem relockGoesOn {w : RelockCause} (hw : w = .powerUp ∨ w = .wake) {s : State} (hstop : s.clk.tree ≠ .stopped)
    (hgo : s.clk.tree ≠ .relocking ∨ s.clk.countRelock = true) : exec (.coldRelock w) s = .next s := by
  rcases hw with rfl | rfl <;> rcases hgo with h | h <;>
    (change execColdRelock _ _ = _; simp [execColdRelock, coldRelock, hstop, h])

/-! ## The clock starts (R48, R49, R51) -/

/-- A change of reference leaves the tree, the count and what counts relocks. -/
theorem chooseRef_clk (s : State) : (chooseRef s).clk.tree = s.clk.tree ∧ (chooseRef s).clk.tb = s.clk.tb ∧
    (chooseRef s).clk.refcnt = s.clk.refcnt ∧ (chooseRef s).clk.relocks = s.clk.relocks ∧
    (chooseRef s).clk.valid = s.clk.valid := by
  unfold chooseRef
  (repeat' split) <;> simp [follow, enterHoldover]

theorem ensureTimebase_clk (s : State) : (ensureTimebase s).clk.tree = s.clk.tree ∧
    (ensureTimebase s).clk.tb = s.clk.tb ∧ (ensureTimebase s).clk.refcnt = s.clk.refcnt ∧
    (ensureTimebase s).clk.relocks = s.clk.relocks ∧
    (upClocked s = true → (ensureTimebase s).clk.valid = s.clk.valid) ∧
    (clockOn s = true → s.modes.booted = true → isHead s = true →
      (ensureTimebase s).clk.valid = true ∨ upClocked s = true) := by
  unfold ensureTimebase
  split
  · simp_all [startTimebase]
  · simp only [true_and, implies_true]
    intro hclk hbooted hhead
    cases hup : upClocked s <;> cases hvalid : s.clk.valid <;> simp_all

/-- The tree runs again, with TB reloaded. -/
def ungated (n : Nat) (s : State) : State :=
  let u := reloadTb n s
  { u with clk := { u.clk with
    tree := .running, relocks := if s.clk.countRelock then satInc u.clk.relocks else u.clk.relocks
    countRelock := false, refWasUp := false } }

/-- The events of a relock. -/
def ungateEvents (n : Nat) (s : State) : State :=
  let u := ungated n s
  let u := if s.clk.countRelock && u.modes.mode = .loam then note .host 0x0103 2 0xFF [] u else u
  if u.clk.noRef then raise .host 0x0105 3 0xFF [] { u with clk := { u.clk with noRef := false } } else u

theorem clockUngate_locked {n : Nat} {s : State} (h : s.clk.tree = .locked) :
    clockUngate n s = ensureTimebase (chooseRef (ungateEvents n s)) := by
  simp only [clockUngate, h]
  rfl

theorem ungateEvents_clk (n : Nat) (s : State) : (ungateEvents n s).clk.tree = .running ∧
    (ungateEvents n s).clk.tb = (reloadTb n s).clk.tb ∧ (ungateEvents n s).clk.refcnt = (reloadTb n s).clk.refcnt ∧
    (ungateEvents n s).clk.valid = (reloadTb n s).clk.valid ∧
    (ungateEvents n s).clk.relocks =
      (if s.clk.countRelock then satInc (reloadTb n s).clk.relocks else (reloadTb n s).clk.relocks) ∧
    (ungateEvents n s).chain = s.chain ∧ (ungateEvents n s).svc = s.svc ∧
    (ungateEvents n s).modes.booted = s.modes.booted := by
  simp only [ungateEvents]
  (repeat' split) <;> simp [ungated, *]

theorem reloadTb_clk (n : Nat) (s : State) : (reloadTb n s).clk.refcnt = s.clk.refcnt + BitVec.ofNat 32 n ∧
    (reloadTb n s).clk.relocks = s.clk.relocks ∧ (s.clk.countRelock = false → (reloadTb n s).clk.tb = s.clk.tb) ∧
    (s.clk.countRelock = true → s.clk.refWasUp = false → ∃ e : Int, -20 ≤ e ∧ e ≤ 20 ∧
      (reloadTb n s).clk.tb = s.clk.tb + BitVec.ofInt 64 ((n : Int) * 20 + e)) ∧
    (s.clk.countRelock = true → s.clk.refWasUp = true → (reloadTb n s).clk.valid = false) := by
  refine ⟨?_, ?_, fun hcold => ?_, fun hcount hown => ?_, fun hcount hup => ?_⟩
  · unfold reloadTb
    (repeat' split) <;> rfl
  · unfold reloadTb
    (repeat' split) <;> rfl
  · simp [reloadTb, hcold]
  · refine ⟨((Config.reloadError s.free).val : Int) - 20, by omega, by omega, ?_⟩
    simp [reloadTb, hcount, hown]
  · simp [reloadTb, hcount, hup]

theorem upClocked_of_chain {s t : State} (h : t.chain = s.chain) : upClocked t = upClocked s := by
  rw [upClocked, h, upClocked]

theorem isHead_of_chain {s t : State} (h : t.chain = s.chain) : isHead t = isHead s := by
  rw [isHead, h, isHead]

theorem only_clockUngate (n : Nat) (s : State) :
    Only [.free, .modes, .clk, .barr, .chain, .pkt, .out, .sense, .loop, .fw, .ev, .sect, .svc] s (clockUngate n s) := by
  intro p hp
  cases p <;> simp_all [same]

theorem clockUngateCompletes {n : Nat} {s : State} (hlocked : s.clk.tree = .locked) (hring : s.chain.rg4 = [])
    (hgo : s.svc.goWaits = false) : Completes (.clockUngate n) s fun t =>
      clockOn t = true ∧ t.clk.refcnt = s.clk.refcnt + BitVec.ofNat 32 n ∧
      t.clk.relocks = (if s.clk.countRelock then satInc s.clk.relocks else s.clk.relocks) ∧
      (s.clk.countRelock = false → t.clk.tb = s.clk.tb) ∧
      (s.clk.countRelock = true → s.clk.refWasUp = false →
        ∃ e : Int, -20 ≤ e ∧ e ≤ 20 ∧ t.clk.tb = s.clk.tb + BitVec.ofInt 64 ((n : Int) * 20 + e)) ∧
      (s.clk.countRelock = true → s.clk.refWasUp = true → upClocked s = true → t.clk.valid = false) ∧
      (isHead s = true → s.modes.booted = true → t.clk.valid = true ∨ upClocked s = true) ∧
      Only [.free, .modes, .clk, .barr, .chain, .pkt, .out, .sense, .loop, .fw, .ev, .sect, .svc] s t := by
  obtain ⟨etree, etb, eref, evalid, erelocks, echain, esvc, ebooted⟩ := ungateEvents_clk n s
  obtain ⟨rref, rrelocks, rkeep, rreload, rinvalid⟩ := reloadTb_clk n s
  obtain ⟨ctree, ctb, cref, crelocks, cvalid⟩ := chooseRef_clk (ungateEvents n s)
  obtain ⟨ttree, ttb, tref, trelocks, tvalid, thead⟩ := ensureTimebase_clk (chooseRef (ungateEvents n s))
  have hchain : (chooseRef (ungateEvents n s)).chain = s.chain := by simpa using echain
  have hup := upClocked_of_chain hchain
  have hstep := clockUngate_locked (n := n) hlocked
  have hidle : catchUp (clockUngate n s) = clockUngate n s :=
    catchUp_idle _ (by simpa using hring) (by simpa using hgo)
  refine ⟨clockUngate n s, congrArg Host.Outcome.next hidle, ?_, ?_, ?_, ?_, ?_, ?_, ?_, fun p hp => ?_⟩
  · simp [clockOn, hstep, ttree, ctree, etree]
  · rw [hstep, tref, cref, eref, rref]
  · rw [hstep, trelocks, crelocks, erelocks, rrelocks]
  · rw [hstep, ttb, ctb, etb]; exact rkeep
  · rw [hstep, ttb, ctb, etb]; exact rreload
  · intro hcount hwas hupc
    rw [hstep, tvalid (hup.trans hupc), cvalid, evalid]
    exact rinvalid hcount hwas
  · intro hhead hbooted
    rw [hstep, ← hup]
    refine thead ?_ ?_ ((isHead_of_chain hchain).trans hhead)
    · simp [clockOn, ctree, etree]
    · simpa [ebooted] using hbooted
  · exact only_clockUngate n s p hp

/-- Settles O23: the relocks and locks by the branches of their commands; an ungate reloads TB, raises its events and
chooses the reference. -/
theorem theClockTreeStopsAndStarts : Obligations.TheClockTreeStopsAndStarts := by
  unfold Obligations.TheClockTreeStopsAndStarts
  refine ⟨fun s => ⟨fun hclk w hw => lossOfLock hw hclk, fun w hw => ⟨freshStart hw, relockGoesOn hw⟩⟩,
    fun s htree => ⟨?_, fun hup => ?_, fun hup => ?_, ?_⟩, fun s n => clockUngateCompletes⟩
  all_goals rcases htree with h | h <;> (change execDpllLockDetect _ _ = _; simp [execDpllLockDetect, dpllLock, *])

end Sys2Proof.Proofs

/-! A write of TB_CTRL. -/

namespace Sys2Proof.Proofs

open Sys2Proof.Machine Sys2Proof.Safety Sys2Proof.Laws

/-- Where the store of the registers is canonical, a write of TB_CTRL leaves the merged value there. -/
theorem reg_putTbCtrl {v : Word} {s : State} (hcanon : canon (regReset s.id.variant) s.regs = true) :
    reg (putTbCtrl v s) 0x010000 = v := by
  have hregs : reg (putTbCtrl v s) 0x010000 = reg (setReg 0x010000 v s) 0x010000 := by simp [putTbCtrl, reg]
  rw [hregs, reg_setReg_same _ _ _ hcanon]

/-- A node in Silt whose store of registers lists TB_CTRL twice, which no reachable node's does (O3). -/
def doubledTbCtrl : State :=
  { State.reset with
    modes := { State.reset.modes with mode := .silt }
    regs := [(0x010000, 5), (0x010000, 7)] }

/-- Refutes O24: the statement asks of every state, of one with a store that is not canonical too, that TB_CTRL holds
the merged value after its write. A write of its reset value unlists its first entry alone, and the second is read
then. Where the store is canonical the value is there: `reg_putTbCtrl`. -/
theorem not_timebaseRegistersFramesAndEchoes : ¬ Obligations.TimebaseRegistersFramesAndEchoes := by
  unfold Obligations.TimebaseRegistersFramesAndEchoes
  intro h
  obtain ⟨t, hexec, hreg, -⟩ :=
    (h.1 doubledTbCtrl).2.1 0x0000000C 0xFFFFFFFF (by decide) (by decide +kernel) (.inl rfl)
  have hwritten : exec (.tbCtrlWrite 0x0000000C 0xFFFFFFFF) doubledTbCtrl =
      .next (putTbCtrl (merged doubledTbCtrl 0x010000 0x0000000C 0xFFFFFFFF) doubledTbCtrl) :=
    congrArg Host.Outcome.next (if_pos (by decide +kernel))
  have hmerged : merged doubledTbCtrl 0x010000 0x0000000C 0xFFFFFFFF = 0x0000000C := by decide +kernel
  rw [hmerged] at hwritten
  obtain rfl : putTbCtrl 0x0000000C doubledTbCtrl = t := by simpa using hwritten.symm.trans hexec
  exact absurd hreg (by decide +kernel)

end Sys2Proof.Proofs

/-! Steps of TB: at the announced edge, at the policy timeout, and on a TIME frame of another timebase. -/

namespace Sys2Proof.Proofs

open Sys2Proof.Machine Sys2Proof.Safety Sys2Proof.Laws

/-- What a step of TB leaves in the store: the CLAY_ENTER commands. -/
def clayEnters (l : List SchedCmd) : List SchedCmd := l.filter fun c => c.q.pkt.opcode == 0x02

theorem clayEnters_eq (l : List SchedCmd) : (l.filter fun c => !(c.q.pkt.opcode != 0x02)) = clayEnters l := by
  simp [clayEnters, bne]

theorem clayEnters_idem (l : List SchedCmd) : clayEnters (clayEnters l) = clayEnters l := by
  simp [clayEnters]

theorem hostClay_sched (c : Fin 11) (s : State) : (hostClay c s).pkt.sched =
    if s.modes.clay then s.pkt.sched else clayEnters s.pkt.sched := by
  simp only [hostClay, sendSafe_frame, enterClay_pkt, clayEnters_eq, apply_ite Packets.sched]

theorem stepTb_clk (d : Int) (s : State) : (stepTb d s).clk =
    { s.clk with tb := s.clk.tb + BitVec.ofInt 64 d, echoAt := s.clk.echoAt.map (shift d) } := by
  simp [stepTb, shiftInstants]

theorem stepTb_sched (d : Int) (s : State) : (stepTb d s).pkt.sched = clayEnters s.pkt.sched := by
  have hdiscard (p : SchedCmd → Bool) : (discardSched p s).pkt.sched = s.pkt.sched.filter fun c => !p c :=
    (foldl_keep (fun u : State => u.pkt.sched) _ (fun _ _ => by simp) _ _).trans rfl
  simp only [stepTb, note_frame, shiftInstants, hdiscard, clayEnters_eq]

/-- A node out of Clay enters it with cause 3. -/
def stepClay (s : State) : State := if s.modes.clay then s else hostClay 3 s

theorem stepClay_clk (s : State) : (stepClay s).clk = s.clk := by
  unfold stepClay; split <;> simp

theorem stepClay_modes (s : State) : (stepClay s).modes.clay = true ∧
    (s.modes.clay = false → (stepClay s).modes.active.getLsbD 3 = true) := by
  unfold stepClay
  cases h : s.modes.clay <;> simp [hostClay, h, cause]

theorem stepClay_sched {s : State} (h : clayEnters s.pkt.sched = s.pkt.sched) :
    (stepClay s).pkt.sched = s.pkt.sched := by
  unfold stepClay
  split
  · rfl
  · rw [hostClay_sched, h, ite_self]

/-! ## The announced edge (R38, R39, R61) -/

/-- The origin step at its edge, with TB_GPSORG still to be set at the head. -/
def originStepped (a : OriginStep) (s : State) : State :=
  let u := advanceTo (s.clk.tb.toNat + (toEpoch s a.epoch).toNat) s
  let v := stepClay (stepTb a.d.toInt { u with clk := { u.clk with announced := none } })
  { v with clk := { v.clk with originGps := true } }

theorem originStep_announced {a : OriginStep} {s : State} (h : s.clk.announced = some a) (hclk : clockOn s = true)
    (hisland : islandHead s = false) : originStep s =
      if isHead (originStepped a s) && !upClocked (originStepped a s) then setGpsOrigin (originStepped a s)
      else originStepped a s := by
  simp only [originStep, h, hclk, hisland, Bool.not_true, Bool.or_self, Bool.false_eq_true, if_false]
  rfl

theorem setGpsOrigin_clk (s : State) : (setGpsOrigin s).clk.announced = s.clk.announced ∧
    (setGpsOrigin s).clk.originGps = s.clk.originGps ∧ (setGpsOrigin s).clk.tb = s.clk.tb := by
  unfold setGpsOrigin; split <;> simp

theorem originStepped_clk (a : OriginStep) (s : State) : (originStepped a s).clk.announced = none ∧
    (originStepped a s).clk.originGps = true ∧ (originStepped a s).clk.tb =
      (advanceTo (s.clk.tb.toNat + (toEpoch s a.epoch).toNat) s).clk.tb + BitVec.ofInt 64 a.d.toInt := by
  simp [originStepped, stepClay_clk, stepTb_clk]

theorem originStepped_sched (a : OriginStep) (s : State) :
    (originStepped a s).pkt.sched = clayEnters s.pkt.sched := by
  simp only [originStepped]
  rw [stepClay_sched] <;> simp [stepTb_sched, clayEnters_idem]

theorem originStepped_modes (a : OriginStep) (s : State) : (originStepped a s).modes.clay = true ∧
    (s.modes.clay = false → (originStepped a s).modes.active.getLsbD 3 = true) := by
  obtain ⟨hclay, hcause⟩ := stepClay_modes (stepTb a.d.toInt
    { advanceTo (s.clk.tb.toNat + (toEpoch s a.epoch).toNat) s with clk := {
      (advanceTo (s.clk.tb.toNat + (toEpoch s a.epoch).toNat) s).clk with announced := none } })
  exact ⟨hclay, fun h => hcause (by simpa using h)⟩

theorem originStepCompletes {a : OriginStep} {s : State} (h : s.clk.announced = some a) (hclk : clockOn s = true)
    (hisland : islandHead s = false) : Completes .originStep s fun t =>
      t.clk.announced = none ∧ t.clk.originGps = true ∧ t.modes.clay = true ∧
      (s.modes.clay = false → t.modes.active.getLsbD 3 = true) ∧
      t.clk.tb = (advanceTo (s.clk.tb.toNat + (toEpoch s a.epoch).toNat) s).clk.tb + BitVec.ofInt 64 a.d.toInt ∧
      t.pkt.sched = s.pkt.sched.filter (fun c => c.q.pkt.opcode == 0x02) ∧
      Only [.modes, .clk, .barr, .chain, .pkt, .out, .sense, .loop, .sec, .fw, .ev, .sect] s t := by
  obtain ⟨hnone, hgps, htb⟩ := originStepped_clk a s
  obtain ⟨hset, hsetGps, hsetTb⟩ := setGpsOrigin_clk (originStepped a s)
  obtain ⟨hclay, hcause⟩ := originStepped_modes a s
  have hsched := originStepped_sched a s
  have honly : Only [.modes, .clk, .barr, .chain, .pkt, .out, .sense, .loop, .sec, .fw, .ev, .sect] s
      (originStep s) := fun p hp => by cases p <;> simp_all [same]
  refine ⟨_, rfl, ?_⟩
  have hstep := originStep_announced h hclk hisland
  refine ⟨?_, ?_, ?_, ?_, ?_, ?_, honly⟩ <;> rw [hstep] <;> split
  · exact hset.trans hnone
  · exact hnone
  · exact hsetGps.trans hgps
  · exact hgps
  · simpa using hclay
  · exact hclay
  · simpa using hcause
  · exact hcause
  · exact hsetTb.trans htb
  · exact htb
  · exact (congrArg Packets.sched (setGpsOrigin_frame _).2.2.2.2.2.2.2.1).trans hsched
  · exact hsched

theorem originStep_island {s : State} (h : islandHead s = true) : exec .originStep s = .next s := by
  refine congrArg Host.Outcome.next ?_
  unfold originStep
  split <;> simp [h]

/-! ## The policy timeout (R116) -/

theorem policyTimeoutCompletes {f : Frame48} {s : State} (h : s.chain.islandTimer = some f) :
    Completes .islandPolicyTimeout s fun t => t.modes.clay = true ∧ t.modes.active.getLsbD 6 = true ∧
      t.chain = { s.chain with islandTimer := none, policyExpired := true } ∧
      Only [.modes, .clk, .barr, .chain, .pkt, .out, .sense, .loop, .fw, .ev, .sect] s t := by
  refine ⟨policyClay (advanceTo (tickAt f 0 s) s), by
    change execIslandPolicyTimeout _ = _; simp [execIslandPolicyTimeout, h], ?_, ?_, ?_,
    fun p hp => ?_⟩
  · simp [policyClay, hostClay]
  · simp [policyClay, hostClay, cause]
  · simp [policyClay]
  · cases p <;> simp_all [same]

/-! ## TIME frames (R53) -/

/-- The offset of TB against a TIME frame at its arrival, in units of 10 ps. -/
def frameOffset (i : TimeInfo) (s : State) : Int :=
  (s.clk.tb.toNat : Int) * 125 - (i.tbTx.toNat * 125 + (i.corr + s.clk.hopDly.setWidth 32).toNat : Nat)

/-- What a TIME frame that the node uses finds: a burst of echoes done, no island, and a running timebase. -/
structure Aligned (i : TimeInfo) (s : State) : Prop where
  clk : clockOn s = true
  dom : domOn s 11 = true
  up : upClocked s = true
  echoes : 64 ≤ s.clk.echoes
  mainland : i.island = false
  untimed : s.chain.islandTimer = none
  valid : s.clk.valid = true
  crc : i.hdr.crc = .good
  own : ownChain i.hdr s = true

/-- A TIME frame of the node's own chain, counted and forwarded. -/
def passedTime (i : TimeInfo) (r : Nat) (s : State) : State :=
  sendDown (timeFrameOf { i with
      corr := i.corr + s.clk.hopDly.setWidth 32 + BitVec.ofNat 32 r, hdr := { i.hdr with crc := .good } })
    { s with chain := { s.chain with errUp := countFrame .good true s.chain.errUp } }

/-- The state in which the node compares a TIME frame: with the policy taken and the offset noted. -/
def compared (i : TimeInfo) (r : Nat) (s : State) : State :=
  let u := passedTime i r s
  { u with
    clk := { u.clk with resid := satInt 32 (frameOffset i s) }
    chain := { u.chain with policy := i.policy } }

theorem compared_state (i : TimeInfo) (r : Nat) (s : State) :
    (compared i r s).clk = { s.clk with resid := satInt 32 (frameOffset i s) } ∧
    (compared i r s).pkt = s.pkt ∧ (compared i r s).modes = s.modes := by
  simp [compared, passedTime]

theorem passedTime_standing (i : TimeInfo) (r : Nat) (s : State) : standing (passedTime i r s) =
    { standing s with errUp := countFrame .good true s.chain.errUp } := by
  simp only [passedTime, standing_sendDown]
  rfl

/-- The node uses a TIME frame that its checks let through. -/
theorem timeFrame_used {i : TimeInfo} {s : State} (r : Nat) (h : Aligned i s) :
    timeFrame i r s = useTime i (i.corr + s.clk.hopDly.setWidth 32) (passedTime i r s) := by
  obtain ⟨hclk, hdom, hup, -, -, -, -, hcrc, hown⟩ := h
  have hlock : s.chain.upLock = true ∧ s.chain.upPartner ≠ .none := by
    simp only [upClocked, Bool.and_eq_true, Bool.or_eq_true, decide_eq_true_eq] at hup
    obtain ⟨hlock, hpartner | hpartner⟩ := hup <;> simp [hlock, hpartner]
  have hst := passedTime_standing i r s
  have hpassed : upClocked (passedTime i r s) = true := by
    have h1 := congrArg Chain.upLock hst
    have h2 := congrArg Chain.upPartner hst
    simp only [standing] at h1 h2
    rw [← hup, upClocked, upClocked, h1, h2]
  have hchain : ownChain i.hdr (passedTime i r s) = true := by
    have h1 := congrArg Chain.chainId hst
    simp only [standing] at h1
    rw [← hown, ownChain, ownChain, h1]
  have hgo : (!(s.chain.upLock && domOn s 11 && clockOn s)) = false := by rw [hlock.1, hdom, hclk]; rfl
  have huse : (upClocked (passedTime i r s) && i.hdr.crc = .good && ownChain i.hdr (passedTime i r s)) = true := by
    rw [hpassed, hchain, hcrc]; rfl
  simp only [timeFrame, hgo, hcrc, Bool.false_eq_true, if_false, if_neg hlock.2, passedCrc, if_true]
  exact if_pos (by simpa only [passedTime, hcrc] using huse)

theorem timeFrame_aligned {i : TimeInfo} {s : State} (r : Nat) (h : Aligned i s) :
    timeFrame i r s = takeFlags i (
      if !(compared i r s).clk.alignedLink || i.originId != (compared i r s).clk.originId || !(compared i r s).clk.valid
      then align i (frameOffset i s) (compared i r s) else slewBy (frameOffset i s) (compared i r s)) := by
  have htimer : (passedTime i r s).chain.islandTimer = none := by
    have h1 := congrArg Chain.islandTimer (passedTime_standing i r s)
    exact h1.trans h.untimed
  have hclk : (passedTime i r s).clk = s.clk := by simp [passedTime]
  have hfew : ¬ (passedTime i r s).clk.echoes < 64 := by rw [hclk]; have := h.echoes; omega
  have hoff : ((passedTime i r s).clk.tb.toNat : Int) * 125 -
      (i.tbTx.toNat * 125 + (i.corr + s.clk.hopDly.setWidth 32).toNat : Nat) = frameOffset i s := by
    rw [frameOffset, hclk]
  have hisland : duePolicy (takeIsland i (passedTime i r s)) =
      { passedTime i r s with chain := { (passedTime i r s).chain with policy := i.policy } } := by
    simp [duePolicy, takeIsland, h.mainland, htimer]
  rw [timeFrame_used r h, useTime, hisland]
  dsimp only
  rw [if_neg hfew]
  rw [hoff]
  rfl

theorem slewBy_state (off : Int) (s : State) : (slewBy off s).clk.tb = s.clk.tb ∧
    (slewBy off s).clk.resid = s.clk.resid ∧ (slewBy off s).clk.originId = s.clk.originId := by
  simp [slewBy]

theorem takeFlags_state (i : TimeInfo) (s : State) : (takeFlags i s).clk.tb = s.clk.tb ∧
    (takeFlags i s).clk.resid = s.clk.resid ∧ (takeFlags i s).clk.originId = s.clk.originId ∧
    (takeFlags i s).clk.valid = s.clk.valid ∧ (takeFlags i s).pkt = s.pkt ∧ (takeFlags i s).modes = s.modes := by
  simp only [takeFlags]
  (repeat' split) <;> simp

/-- The offset to a timebase of its own is slewed away, after a new link too. -/
theorem align_same {i : TimeInfo} {s : State} (off : Int) (hid : i.originId = s.clk.originId)
    (hvalid : s.clk.valid = true) : align i off s =
      { slewBy off s with clk := { (slewBy off s).clk with alignedLink := true } } := by
  simp [align, hid, hvalid]

theorem align_other {i : TimeInfo} {s : State} (off : Int) (hid : i.originId ≠ s.clk.originId)
    (hvalid : s.clk.valid = true) : align i off s =
      { adopt i off (stepClay s) with clk := { (adopt i off (stepClay s)).clk with alignedLink := true } } := by
  simp [align, hid, hvalid, stepClay]

theorem timeFrame_ownTimebase {i : TimeInfo} {r : Nat} {s : State} (h : Aligned i s)
    (hid : i.originId = s.clk.originId) : Completes (.timeFrame i r) s fun t =>
      t.clk.tb = s.clk.tb ∧ t.clk.resid = satInt 32 (frameOffset i s) ∧ t.clk.originId = s.clk.originId ∧
      t.pkt = s.pkt ∧ t.modes = s.modes := by
  obtain ⟨hclk, hpkt, hmodes⟩ := compared_state i r s
  obtain ⟨htb, hresid, horigin⟩ := slewBy_state (frameOffset i s) (compared i r s)
  have halign := align_same (i := i) (s := compared i r s) (frameOffset i s) (by simpa [hclk] using hid)
    (by simpa [hclk] using h.valid)
  refine ⟨_, congrArg Host.Outcome.next (timeFrame_aligned r h), ?_⟩
  split
  · obtain ⟨ftb, fresid, forigin, -, fpkt, fmodes⟩ :=
      takeFlags_state i (align i (frameOffset i s) (compared i r s))
    rw [ftb, fresid, forigin, fpkt, fmodes, halign]
    simp [htb, hresid, horigin, hclk, hpkt, hmodes]
  · obtain ⟨ftb, fresid, forigin, -, fpkt, fmodes⟩ :=
      takeFlags_state i (slewBy (frameOffset i s) (compared i r s))
    rw [ftb, fresid, forigin, fpkt, fmodes]
    simp [htb, hresid, horigin, hclk, hpkt, hmodes]

theorem timeFrame_otherTimebase {i : TimeInfo} {r : Nat} {s : State} (h : Aligned i s)
    (hid : i.originId ≠ s.clk.originId) : Completes (.timeFrame i r) s fun t =>
      t.clk.tb = s.clk.tb + BitVec.ofInt 64 (-(frameOffset i s / 125)) ∧ t.clk.originId = i.originId ∧
      t.clk.valid = true ∧ t.pkt.sched = s.pkt.sched.filter (fun c => c.q.pkt.opcode == 0x02) ∧
      t.modes.clay = true := by
  obtain ⟨hclk, hpkt, hmodes⟩ := compared_state i r s
  have hother : (i.originId != (compared i r s).clk.originId) = true := by simpa [hclk] using hid
  have halign := align_other (i := i) (s := compared i r s) (frameOffset i s) (by simpa [hclk] using hid)
    (by simpa [hclk] using h.valid)
  obtain ⟨hclay, -⟩ := stepClay_modes (compared i r s)
  refine ⟨_, congrArg Host.Outcome.next ((timeFrame_aligned r h).trans (by
    rw [hother, Bool.or_true, Bool.true_or, if_pos rfl])), ?_⟩
  obtain ⟨ftb, -, forigin, fvalid, fpkt, fmodes⟩ := takeFlags_state i (align i (frameOffset i s) (compared i r s))
  rw [ftb, forigin, fvalid, fpkt, fmodes, halign]
  refine ⟨?_, rfl, rfl, ?_, ?_⟩
  · simp [adopt, stepTb_clk, stepClay_clk, hclk]
  · have hsteps : (stepClay (compared i r s)).pkt.sched = s.pkt.sched ∨
        (stepClay (compared i r s)).pkt.sched = clayEnters s.pkt.sched := by
      unfold stepClay
      split
      · exact .inl (by rw [hpkt])
      · rw [hostClay_sched, hpkt]
        split <;> simp
    change (stepTb _ (stepClay (compared i r s))).pkt.sched = clayEnters s.pkt.sched
    rw [stepTb_sched]
    rcases hsteps with h | h <;> rw [h]
    exact clayEnters_idem _
  · simpa [adopt] using hclay

/-- Settles O25: the node is in Clay before the step acts on what it holds, and a TIME frame in order is compared with
TB. -/
theorem originStepsAndTimeFramesAlign : Obligations.OriginStepsAndTimeFramesAlign := by
  unfold Obligations.OriginStepsAndTimeFramesAlign
  refine ⟨fun s => ⟨fun a => originStepCompletes, originStep_island, fun f => policyTimeoutCompletes⟩,
    fun s i r hclk hdom hup hechoes hmain huntimed hvalid hcrc hown => ?_⟩
  have h : Aligned i s := ⟨hclk, hdom, hup, hechoes, hmain, huntimed, hvalid, hcrc, hown⟩
  exact ⟨timeFrame_ownTimebase h, timeFrame_otherTimebase h⟩

end Sys2Proof.Proofs

/-! The barrier link comes up, goes down, and rejects cells. -/

namespace Sys2Proof.Proofs

open Sys2Proof.Machine Sys2Proof.Safety Sys2Proof.Laws

/-! ## Events with room in their queue -/

theorem held_note_host (code : BitVec 16) (sev : BitVec 2) (chan : Byte) (data : List Byte) {s : State}
    (h : s.ev.host.length < 64) : Held .host code chan (note .host code sev chan data s) :=
  note_any code sev chan data s h

theorem held_note_field (code : BitVec 16) (sev : BitVec 2) (chan : Byte) (data : List Byte) {s : State}
    (h : s.ev.field.length < 64) : Held .field code chan (note .field code sev chan data s) :=
  note_anyF code sev chan data s h

/-! ## What the start of domains leaves of the barrier side -/

theorem foldl_keep_of_mem {σ α β : Type} (f : σ → β) (g : σ → α → σ) (l : List α) (s : σ)
    (h : ∀ a ∈ l, ∀ s, f (g s a) = f s) : f (l.foldl g s) = f s := by
  induction l generalizing s with
  | nil => rfl
  | cons a l ih =>
    exact (ih (g s a) fun b hb => h b (List.mem_cons_of_mem a hb)).trans (h a List.mem_cons_self s)

/-- The clock reference is no setting of a domain. -/
theorem domItems_ne {d : Fin 18} {k : Nat} (h : k ∈ domItems d) : k ≠ 0x0020 := by
  rintro rfl
  revert d
  decide

theorem startDom_barr (d : Fin 18) (v : Dom) (s : State) : (startDom d v s).barr = s.barr := by
  have hset (u : State) : (setDom d v u).barr = u.barr := by unfold setDom; split <;> rfl
  have hitem (k : Nat) (hk : k ∈ domItems d) (u : State) : (applyHostItem k u).barr = u.barr := by
    unfold applyHostItem
    extract_lets w
    have hw : w.barr = u.barr :=
      foldl_keep (fun u : State => u.barr) (fun u (x : Nat × Word) => setReg x.1 x.2 u) (fun _ _ => rfl) _ u
    have hmode (k : Nat) : (applyCanMode k w).barr = w.barr := by
      unfold applyCanMode
      extract_lets
      split <;> rfl
    split
    · exact hw
    · exact absurd rfl (domItems_ne hk)
    · exact (hmode _).trans hw
    · exact (hmode _).trans hw
    · exact hw
    · exact hw
    · exact hw
  unfold startDom
  extract_lets was s1 _ s2 _ s3
  have h2 : s2.barr = s1.barr := by unfold s2; split <;> rfl
  have h3 : s3.barr = s1.barr := (by unfold s3; split <;> rfl : s3.barr = s2.barr).trans h2
  split
  · exact hset s
  · split
    · exact (foldl_keep_of_mem (fun u : State => u.barr) _ _ s3 hitem).trans (h3.trans (hset s))
    · exact h3.trans (hset s)

theorem startWset_barr (which : Fin 18 → Bool) (s : State) : (startWset which s).barr = s.barr := by
  have hskip (m : Word) (u : State) : (skipNote m u).barr = u.barr := by
    unfold skipNote; split <;> simp
  unfold startWset
  refine (hskip _ _).trans ?_
  refine foldl_keep (fun r : State × Word => r.1.barr) _ (fun r d => ?_) _ (s, 0)
  split
  · exact startDom_barr d .on r.1
  · rfl

theorem startFieldSet_barr (s : State) : (startFieldSet s).barr = s.barr := by
  unfold startFieldSet
  split
  · exact startWset_barr _ _
  · rfl

/-! ## What sending an access leaves of the barrier side -/

/-- The barrier side without the cells and accesses under way: what sending a cell or an access leaves as it was. -/
def trunk (s : State) : Barrier :=
  { s.barr with rg6 := [], rg6Held := [], rg7 := [], txns := [], nextTag := 0 }

theorem trunk_sendCell (c : Cell) (s : State) : trunk (sendCell c s) = trunk s := by
  simp only [trunk, sendCell]
  split <;> rfl

theorem trunk_sendTxn (x : RegTxn) (s : State) : trunk (sendTxn x s) = trunk s := by
  simp only [sendTxn, drawTag]
  split
  · exact trunk_sendCell _ _
  · rfl

theorem trunk_startOp (why : TxnFor) (sched : Bool) (f : Frame48) (o : FieldOp) (s : State) :
    trunk (startOp why sched f o s) = trunk s := trunk_sendTxn _ s

/-! ## The link comes up (R65, R73, R80) -/

theorem linkUpAbandonCompletes {s : State} (h : s.barr.link = .training) : Completes .linkUpAbandon s fun t =>
    t.barr.link = .down ∧ t.barr.static = true ∧ t.barr.fieldClock = false ∧
    t.barr.failed = satInc s.barr.failed ∧ t.barr.runFails = s.barr.runFails + 1 ∧
    (s.barr.runFails = 9 → t.barr.lossCnt = satInc s.barr.lossCnt ∧ t.barr.declarer = 3 ∧ t.barr.epochRetry = true ∧
      (s.ev.host.length < 64 → Held .host 0x0203 0xFF t)) ∧
    (s.barr.runFails ≠ 9 → t.barr.lossCnt = s.barr.lossCnt ∧ t.ev = s.ev) ∧ Only [.barr, .ev] s t := by
  have hframe : Only [.barr, .ev] s (linkUpAbandon s) := fun p hp => by cases p <;> simp_all [same]
  refine ⟨linkUpAbandon s, rfl, ?_⟩
  by_cases hn : s.barr.runFails = 9
  · have hstep : linkUpAbandon s = note .host 0x0203 2 0xFF [] { s with barr := { s.barr with
        link := .down, static := true, fieldClock := false, failed := satInc s.barr.failed
        runFails := s.barr.runFails + 1, lossCnt := satInc s.barr.lossCnt, declarer := 3, epochRetry := true } } := by
      simp [linkUpAbandon, h, hn]
    refine ⟨?_, ?_, ?_, ?_, ?_, fun _ => ⟨?_, ?_, ?_, fun hroom => ?_⟩, fun hne => absurd hn hne, hframe⟩ <;>
      rw [hstep]
    iterate 8 rw [note_host_barr]
    exact held_note_host _ _ _ _ hroom
  · have hstep : linkUpAbandon s = { s with barr := { s.barr with
        link := .down, static := true, fieldClock := false, failed := satInc s.barr.failed
        runFails := s.barr.runFails + 1 } } := by
      simp [linkUpAbandon, h, hn]
    refine ⟨?_, ?_, ?_, ?_, ?_, fun he => absurd he hn, fun _ => ⟨?_, ?_⟩, hframe⟩ <;> rw [hstep]

theorem barrierLinkUp_outside {n : Fin 1024} {s : State} (h : n.val < 416 ∨ 480 < n.val) :
    exec (.barrierLinkUp n) s = .next s := by
  have hout : inRange 416 480 n.val = false := by
    rcases h with h | h <;> simp [inRange] <;> omega
  change execBarrierLinkUp _ _ = _
  simp [execBarrierLinkUp, linkUpDone, hout]

/-- What the link is as it comes up. -/
theorem completeLink_up (n : Nat) (s : State) : (completeLink n s).barr.link = .up ∧
    (completeLink n s).barr.lat = BitVec.ofNat 10 n ∧ (completeLink n s).barr.replicaLoaded = true ∧
    (completeLink n s).barr.replica = s.clk.tb ∧ (completeLink n s).barr.oneShotLatch = false := by
  cases hdecl : s.barr.fieldDeclared <;> cases hshot : s.barr.oneShotLatch <;>
    simp [completeLink, readOneShot, liftCause, hdecl, hshot]

theorem completeLink_counts (n : Nat) (s : State) :
    (completeLink n s).modes.active = s.modes.active &&& ~~~ (cause 1 ||| cause 2) ∧
    (completeLink n s).modes.latched =
      (if s.barr.oneShotLatch then s.modes.latched ||| cause 1 else s.modes.latched) ∧
    (completeLink n s).barr.hostNext = 0 ∧ (completeLink n s).barr.fieldNext = 0 ∧
    (completeLink n s).barr.hostExpect = 0 ∧ (completeLink n s).barr.fieldExpect = 0 ∧
    (completeLink n s).barr.failed = 0 ∧ Only [.modes, .barr, .pwr, .ev] s (completeLink n s) := by
  have honly : Only [.modes, .barr, .pwr, .ev] s (completeLink n s) := fun p hp => by cases p <;> simp_all [same]
  have hcauses : s.modes.active &&& ~~~cause 2 &&& ~~~cause 1 = s.modes.active &&& ~~~ (cause 1 ||| cause 2) := by
    rw [BitVec.and_assoc]; congr 1
  refine ⟨?_, ?_, ?_, ?_, ?_, ?_, ?_, honly⟩ <;> cases hdecl : s.barr.fieldDeclared <;>
    cases hshot : s.barr.oneShotLatch <;> simp [completeLink, readOneShot, liftCause, hdecl, hshot, hcauses]

theorem readDigest_startFieldSet_barr (s : State) : trunk (readDigest (startFieldSet s)) = trunk s :=
  (trunk_startOp ..).trans (by rw [trunk, startFieldSet_barr, trunk])

theorem barrierLinkUpCompletes {n : Fin 1024} {s : State} (hlow : 416 ≤ n.val) (hhigh : n.val ≤ 480)
    (hlink : s.barr.link = .training) (hclk : clockOn s = true) (hdom : domOn s 1 = true)
    (hsup : s.pwr.fsup ≠ .absent) : Completes (.barrierLinkUp n) s fun t =>
      t.barr.link = .up ∧ t.barr.lat = BitVec.ofNat 10 n.val ∧ t.barr.replicaLoaded = true ∧
      t.barr.replica = s.clk.tb ∧ t.barr.oneShotLatch = false ∧
      (s.modes.booted = false → t.modes.active = s.modes.active &&& ~~~ (cause 1 ||| cause 2) ∧
        t.modes.latched = (if s.barr.oneShotLatch then s.modes.latched ||| cause 1 else s.modes.latched) ∧
        t.barr.hostNext = 0 ∧ t.barr.fieldNext = 0 ∧ t.barr.hostExpect = 0 ∧ t.barr.fieldExpect = 0 ∧
        t.barr.failed = 0 ∧ Only [.modes, .barr, .pwr, .ev] s t) := by
  have hin : inRange 416 480 n.val = true := by simp [inRange]; omega
  have hbooted : (completeLink n.val s).modes.booted = s.modes.booted := by
    simp only [completeLink, liftCause, readOneShot]
    (repeat' split) <;> rfl
  have hstep : linkUpDone n.val s = if (completeLink n.val s).modes.booted && (completeLink n.val s).modes.mode != .sand
      then readDigest (startFieldSet (completeLink n.val s)) else completeLink n.val s := by
    simp [linkUpDone, hlink, hclk, hdom, hsup, hin]
  have htrunk : trunk (linkUpDone n.val s) = trunk (completeLink n.val s) := by
    rw [hstep]
    split
    · exact readDigest_startFieldSet_barr _
    · rfl
  obtain ⟨hup, hlat, hloaded, hreplica, hshot⟩ := completeLink_up n.val s
  refine ⟨linkUpDone n.val s, rfl, (congrArg Barrier.link htrunk).trans hup, (congrArg Barrier.lat htrunk).trans hlat,
    (congrArg Barrier.replicaLoaded htrunk).trans hloaded, (congrArg Barrier.replica htrunk).trans hreplica,
    (congrArg Barrier.oneShotLatch htrunk).trans hshot, fun hnot => ?_⟩
  have hplain : linkUpDone n.val s = completeLink n.val s := by rw [hstep, hbooted, hnot]; rfl
  rw [hplain]
  exact completeLink_counts n.val s

/-- Channels are quiet after any command that leaves the node in Clay (O4). -/
theorem quiet_of_exec {c : Instr} {s t : State} (h : exec c s = .next t) (hclay : t.modes.clay = true)
    (hs : ClayQuiet s) (n : Fin 32) : Quiet t.out.ch[n] := by
  have hcalm := exec_calm c (Q := True) (B := False) (s := s) ⟨fun _ => hs, False.elim⟩
  rw [h] at hcalm
  exact hcalm.1 trivial hclay n

theorem dropLink_down (s : State) : (dropLink s).barr.link = .down ∧ (dropLink s).barr.static = true ∧
    (dropLink s).barr.fieldClock = false ∧ (dropLink s).barr.lossCnt = s.barr.lossCnt := by
  have hreply (u : State) (c : CoefReq) : (reply c.q { status := 0x11, detail := 0x02 } u).barr = u.barr := by simp
  have hlose (u : State) (x : RegTxn) : (loseTxn x u).barr = u.barr := by
    unfold loseTxn
    (repeat' split) <;> simp
  have hbarr : (dropLink s).barr = { s.barr with
      link := .down, static := true, fieldClock := false, replicaLoaded := false, safe := [], rg6 := []
      rg6Held := [], rg7 := [], txns := [], coefs := [], batches := [], supervise := false } :=
    (foldl_keep (fun u : State => u.barr) _ hreply s.barr.coefs _).trans
      (foldl_keep (fun u : State => u.barr) _ hlose s.barr.txns _)
  rw [hbarr]
  exact ⟨rfl, rfl, rfl, rfl⟩

/-! ## The link goes down (R77, R80) -/

theorem oneShotFireCompletes {s : State} (hstop : s.barr.static = true ∨ clockOn s = false ∨ s.barr.fieldClock = false)
    (hsup : s.pwr.fsup ≠ .absent) : Completes .oneShotFire s fun t =>
      t.barr.oneShot = true ∧ t.barr.oneShotLatch = true ∧ t.barr.fieldClock = false ∧ t.barr.schedWrites = [] ∧
      t.modes.clay = true ∧ t.modes.active = s.modes.active ∧ t.clk = s.clk ∧
      (ClayQuiet s → ∀ n : Fin 32, Quiet t.out.ch[n]) := by
  have hfires : ((s.barr.static || !clockOn s || !s.barr.fieldClock) && s.pwr.fsup != .absent) = true := by
    rcases hstop with h | h | h <;> simp [h, hsup]
  have hclay : (if s.modes.clay then s else
      clayEntry { s with modes := { s.modes with clay := true } }).modes.clay = true := by
    split
    · assumption
    · simp
  have hexec : exec .oneShotFire s = _ := congrArg Host.Outcome.next (if_pos hfires)
  refine ⟨_, hexec, rfl, rfl, rfl, rfl, hclay, ?_, ?_,
    quiet_of_exec hexec hclay⟩ <;> dsimp only <;> split <;> simp

theorem oneShotRelease_clocked {s : State} (hfield : s.barr.fieldClock = true) (hclk : clockOn s = true) :
    exec .oneShotRelease s = .next { s with barr := { s.barr with oneShot := false } } :=
  congrArg Host.Outcome.next (if_pos (by rw [hfield, hclk]; rfl))

theorem barrierLossHostCompletes {s : State} (h : linkUp s = true) : Completes .barrierLossHost s fun t =>
    t.barr.link = .down ∧ t.barr.static = true ∧ t.barr.fieldClock = false ∧
    t.barr.lossCnt = satInc s.barr.lossCnt ∧ t.barr.declarer = 1 ∧ t.modes.clay = true ∧
    t.modes.active = s.modes.active ||| cause 2 ∧ t.clk = s.clk ∧
    (ClayQuiet s → ∀ n : Fin 32, Quiet t.out.ch[n]) := by
  have hexec : exec .barrierLossHost s = .next (note .host 0x0202 2 0xFF [1]
      { enterClay 2 (dropLink s) with barr := { (enterClay 2 (dropLink s)).barr with
        lossCnt := satInc (enterClay 2 (dropLink s)).barr.lossCnt, declarer := 1 } }) :=
    congrArg Host.Outcome.next (if_pos h)
  have hlanes := lanes_fields (lanes_enterClay 2 (dropLink s))
  obtain ⟨hlink, hstatic, hfield, hloss⟩ := dropLink_down s
  have hclay : (note .host 0x0202 2 0xFF [1]
      { enterClay 2 (dropLink s) with barr := { (enterClay 2 (dropLink s)).barr with
        lossCnt := satInc (enterClay 2 (dropLink s)).barr.lossCnt, declarer := 1 } }).modes.clay = true := by simp
  refine ⟨_, hexec, ?_, ?_, ?_, ?_, ?_, hclay, ?_, ?_, quiet_of_exec hexec hclay⟩
  · simp [hlanes, hlink]
  · simp [hlanes, hstatic]
  · simp [hlanes, hfield]
  · simp [hlanes, hloss]
  · simp
  · simp
  · simp

theorem barrierLossFieldCompletes {s : State} (h : linkUp s = true) (hfield : s.barr.fieldClock = true) :
    Completes .barrierLossField s fun t =>
      t.barr.fieldDeclared = true ∧ t.modes.clay = true ∧ t.modes.active = s.modes.active ||| cause 2 ∧
      t.barr.lossCnt = s.barr.lossCnt ∧ t.clk = (toFieldFrame s).clk ∧
      (ClayQuiet s → ∀ n : Fin 32, Quiet t.out.ch[n]) := by
  let v : State := { toFieldFrame s with barr := { (toFieldFrame s).barr with fieldDeclared := true } }
  have hexec : exec .barrierLossField s = .next (enterClay 2 v) :=
    congrArg Host.Outcome.next (if_pos (by rw [h, hfield]; rfl))
  refine ⟨_, hexec, ?_, by simp, by simp [v], ?_, by simp [v], quiet_of_exec hexec (by simp)⟩
  · exact congrArg Barrier.fieldDeclared (lanes_enterClay 2 v)
  · exact (congrArg Barrier.lossCnt (lanes_enterClay 2 v)).trans rfl

/-! ## Rejected cells (R69, R70) -/

theorem checkDrops_counts (s : State) : (checkDrops s).barr.fieldNext = s.barr.fieldNext ∧
    (checkDrops s).barr.rg7 = s.barr.rg7 ∧ (checkDrops s).barr.hMsg = s.barr.hMsg ∧
    (checkDrops s).barr.hCrc = s.barr.hCrc ∧ (checkDrops s).barr.hSeq = s.barr.hSeq ∧
    (checkDrops s).barr.hTyp = s.barr.hTyp ∧ (checkDrops s).barr.hostExpect = s.barr.hostExpect := by
  unfold checkDrops
  split <;> simp

/-- The next cell of the front message q reaches the host as a dropped one, from state u. -/
def DroppedUp (q : Queued) (rest : List Queued) (s u t : State) : Prop :=
  t.barr.fieldNext = u.barr.fieldNext + 1 ∧
  t.barr.rg7 = (if u.barr.upPart + 1 = cellsOf q.cell then rest else q :: rest) ∧
  t.barr.hMsg = (if !u.barr.upBad && decide (1 < cellsOf q.cell) then satInc u.barr.hMsg else u.barr.hMsg) ∧
  t.clk = (passUp true u).clk ∧ Only [.clk, .barr, .ev] s t

theorem passUp_dropped {q : Queued} {rest : List Queued} {u : State} (h : u.barr.rg7 = q :: rest) :
    (passUp true u).barr.fieldNext = u.barr.fieldNext + 1 ∧
    (passUp true u).barr.rg7 = (if u.barr.upPart + 1 = cellsOf q.cell then rest else q :: rest) ∧
    (passUp true u).barr.hMsg =
      (if !u.barr.upBad && decide (1 < cellsOf q.cell) then satInc u.barr.hMsg else u.barr.hMsg) ∧
    (passUp true u).barr.hCrc = u.barr.hCrc ∧ (passUp true u).barr.hSeq = u.barr.hSeq ∧
    (passUp true u).barr.hTyp = u.barr.hTyp ∧ (passUp true u).barr.hostExpect = u.barr.hostExpect := by
  simp [passUp, h, advanceTo, advance]

theorem only_rejectUp (why : CellDrop) (u : State) : Only [.clk, .barr, .ev] u (rejectUp why u) := fun p hp => by
  cases p <;> simp_all [same]

theorem rejectUp_dropped {q : Queued} {rest : List Queued} {s u : State} (why : CellDrop)
    (h : u.barr.rg7 = q :: rest) (honly : Only [.clk, .barr, .ev] s u) : DroppedUp q rest s u (rejectUp why u) := by
  obtain ⟨hnext, hring, hmsg, -⟩ := passUp_dropped h
  have hclk (v : State) : (checkDrops v).clk = v.clk := by simp
  refine ⟨?_, ?_, ?_, hclk _, only_trans honly (only_rejectUp why u)⟩
  · cases why <;> simp only [rejectUp, checkDrops_counts, hnext]
  · cases why <;> simp only [rejectUp, checkDrops_counts, hring]
  · cases why <;> simp only [rejectUp, checkDrops_counts, hmsg]

/-- The counts of the host after a drop, by its cause. -/
theorem rejectUp_counts {q : Queued} {rest : List Queued} {u : State} (g : BitVec 16)
    (h : u.barr.rg7 = q :: rest) :
    ((rejectUp .crc u).barr.hCrc = satInc u.barr.hCrc ∧ (rejectUp .crc u).barr.hSeq = u.barr.hSeq ∧
      (rejectUp .crc u).barr.hTyp = u.barr.hTyp ∧ (rejectUp .crc u).barr.hostExpect = u.barr.hostExpect) ∧
    ((rejectUp (.seq g) u).barr.hSeq = satInc u.barr.hSeq ∧ (rejectUp (.seq g) u).barr.hCrc = u.barr.hCrc ∧
      (rejectUp (.seq g) u).barr.hTyp = u.barr.hTyp ∧
      (rejectUp (.seq g) u).barr.hostExpect = u.barr.fieldNext + 1) ∧
    ((rejectUp (.typ g) u).barr.hTyp = satInc u.barr.hTyp ∧ (rejectUp (.typ g) u).barr.hCrc = u.barr.hCrc ∧
      (rejectUp (.typ g) u).barr.hSeq = u.barr.hSeq ∧
      (rejectUp (.typ g) u).barr.hostExpect = u.barr.fieldNext + 1) := by
  obtain ⟨-, -, -, hcrc, hseq, htyp, hexpect⟩ := passUp_dropped h
  simp only [rejectUp, checkDrops_counts, hcrc, hseq, htyp, hexpect, and_self]

/-- The state in which the host drops a cell of the front message, after its first cell where that came first. -/
def beforeDrop (m : Bool) (q : Queued) (s : State) : State :=
  if m && decide (s.barr.upPart + 1 < cellsOf q.cell) then seqUp s else s

theorem beforeDrop_state {q : Queued} {rest : List Queued} {s : State} (m : Bool) (h : s.barr.rg7 = q :: rest) :
    (beforeDrop m q s).barr.rg7 = q :: rest ∧ (beforeDrop m q s).barr.hCrc = s.barr.hCrc ∧
    (beforeDrop m q s).barr.hTyp = s.barr.hTyp ∧ Only [.clk, .barr, .ev] s (beforeDrop m q s) := by
  have hframe : Only [.clk, .barr, .ev] s (seqUp s) := fun p hp => by cases p <;> simp_all [same]
  unfold beforeDrop
  split
  · next hpart =>
    have hne : ¬ s.barr.upPart + 1 = cellsOf q.cell := by
      simp only [Bool.and_eq_true, decide_eq_true_eq] at hpart
      omega
    refine ⟨?_, ?_, ?_, hframe⟩ <;> unfold seqUp <;> dsimp only <;> split <;> simp [passUp, h, advanceTo, advance, hne]
  · exact ⟨h, rfl, rfl, fun p _ => by cases p <;> rfl⟩

theorem cellReject_host {why : CellDrop} {m : Bool} {q : Queued} {rest : List Queued} {s : State}
    (hlink : linkUp s = true) (h : s.barr.rg7 = q :: rest)
    (hfits : dropFits why (beforeDrop m q s).barr.fieldNext (beforeDrop m q s).barr.hostExpect = true) :
    exec (.cellReject .host why m) s = .next (rejectUp why (beforeDrop m q s)) := by
  have hstep : cellReject .host why m s =
      if dropFits why (beforeDrop m q s).barr.fieldNext (beforeDrop m q s).barr.hostExpect
      then rejectUp why (beforeDrop m q s) else beforeDrop m q s := by
    simp only [cellReject, h, hlink, Bool.not_true, Bool.false_eq_true, if_false]
    rfl
  exact congrArg Host.Outcome.next (hstep.trans (if_pos hfits))

/-- The front cell of RG6 reaches the field side as a dropped one. -/
def DroppedDown (s t : State) : Prop :=
  t.barr.hostNext = s.barr.hostNext + 1 ∧ t.barr.rg6 = (passDown s).barr.rg6 ∧ t.clk = (passDown s).clk ∧
  Only [.clk, .barr] s t

theorem passDown_barr {q : Queued} {rest : List Queued} {s : State} (h : s.barr.rg6 = q :: rest) :
    (passDown s).barr.hostNext = s.barr.hostNext + 1 ∧ (passDown s).barr.fCrc = s.barr.fCrc ∧
    (passDown s).barr.fSeq = s.barr.fSeq ∧ (passDown s).barr.fTyp = s.barr.fTyp ∧
    (passDown s).barr.fieldExpect = s.barr.fieldExpect := by
  simp [passDown, h, advanceTo, advance]

theorem rejectDown_dropped {q : Queued} {rest : List Queued} {s : State} (why : CellDrop)
    (h : s.barr.rg6 = q :: rest) : DroppedDown s (rejectDown why s) := by
  obtain ⟨hnext, -⟩ := passDown_barr h
  have hframe : Only [.clk, .barr] s (rejectDown why s) := fun p hp => by cases p <;> simp_all [same]
  refine ⟨?_, ?_, rfl, hframe⟩
  · cases why <;> exact hnext
  · cases why <;> rfl

theorem cellReject_field {why : CellDrop} {m : Bool} {q : Queued} {rest : List Queued} {s : State}
    (hlink : linkUp s = true) (hclk : s.barr.fieldClock = true) (h : s.barr.rg6 = q :: rest)
    (hfits : dropFits why s.barr.hostNext s.barr.fieldExpect = true) :
    exec (.cellReject .field why m) s = .next (rejectDown why s) :=
  congrArg Host.Outcome.next (if_pos (by simp [hlink, hclk, h, hfits]))

/-- Settles O26: the attempts and the losses by the branches of their commands; a dropped cell passes its lane and is
counted once. -/
theorem theBarrierLinkComesUpGoesDownAndRejectsCells :
    Obligations.TheBarrierLinkComesUpGoesDownAndRejectsCells := by
  unfold Obligations.TheBarrierLinkComesUpGoesDownAndRejectsCells
  refine ⟨fun s => ⟨fun hdown hclk hdom => ⟨fun hstatic hretry => ?_, fun hretry => ?_⟩, linkUpAbandonCompletes,
      fun n => barrierLinkUp_outside, fun n => barrierLinkUpCompletes, oneShotFireCompletes, oneShotRelease_clocked,
      barrierLossHostCompletes, barrierLossFieldCompletes⟩,
    fun s m hlink => ⟨fun q rest hring => ?_, fun q rest hring hclk => ?_⟩⟩
  · exact congrArg Host.Outcome.next (if_pos (by simp [hdown, hstatic, hclk, hdom, hretry]))
  · refine ⟨enableLanes (toEdge 8 ticksPerEpoch s),
      congrArg Host.Outcome.next (if_pos (by simp [hdown, hclk, hdom, hretry])), rfl, rfl, rfl, rfl, fun p hp => ?_⟩
    cases p <;> simp_all [same]
  · obtain ⟨hring', hcrc, htyp, honly⟩ := beforeDrop_state m hring
    obtain ⟨⟨c1, c2, c3, c4⟩, ⟨q1, q2, q3, q4⟩, ⟨y1, y2, y3, y4⟩⟩ :=
      rejectUp_counts (beforeDrop m q s).barr.fieldNext hring'
    refine ⟨⟨_, cellReject_host hlink hring rfl, ?_⟩, fun hne => ⟨_, cellReject_host hlink hring ?_, ?_⟩,
      ⟨_, cellReject_host hlink hring (BEq.rfl : ((beforeDrop m q s).barr.fieldNext == _) = true), ?_⟩⟩
    · exact ⟨by rw [c1, hcrc], c2, by rw [c3, htyp], c4, rejectUp_dropped _ hring' honly⟩
    · have hne' : (beforeDrop m q s).barr.fieldNext ≠ (beforeDrop m q s).barr.hostExpect := hne
      change dropFits (.seq (beforeDrop m q s).barr.fieldNext) _ _ = true
      simp [dropFits, hne']
    · exact ⟨q1, by rw [← hcrc]; exact q2, by rw [← htyp]; exact q3, q4, rejectUp_dropped _ hring' honly⟩
    · exact ⟨by rw [← htyp]; exact y1, by rw [← hcrc]; exact y2, y3, y4, rejectUp_dropped _ hring' honly⟩
  · obtain ⟨-, hcrc, hseq, htyp, hexpect⟩ := passDown_barr hring
    refine ⟨⟨_, cellReject_field hlink hclk hring rfl, ?_⟩, fun hne => ⟨_, cellReject_field hlink hclk hring ?_, ?_⟩,
      ⟨_, cellReject_field hlink hclk hring (by simp [dropFits]), ?_⟩⟩
    · exact ⟨congrArg satInc hcrc, hseq, htyp, hexpect, rejectDown_dropped _ hring⟩
    · simp [dropFits, hne]
    · exact ⟨congrArg satInc hseq, rfl, rejectDown_dropped _ hring⟩
    · exact ⟨congrArg satInc htyp, rfl, rejectDown_dropped _ hring⟩

end Sys2Proof.Proofs

/-! Heartbeats, SAFE_REQ and TIME_SYNC between the two sides. -/

namespace Sys2Proof.Proofs

open Sys2Proof.Machine Sys2Proof.Safety Sys2Proof.Laws

/-! ## Urgent cells -/

theorem mem_placeUrgent (x : Queued) (last : Nat) (l : List Queued) : x ∈ placeUrgent x last l := by
  induction l generalizing last with
  | nil => simp [placeUrgent]
  | cons q l ih =>
    unfold placeUrgent
    split
    · exact List.mem_cons_of_mem _ (ih _)
    · exact List.mem_cons_self

theorem sent_sendUrgent (c : Cell) (s : State) : ∃ q ∈ (sendUrgent c s).barr.rg6, q.cell = c :=
  ⟨queued c s, mem_placeUrgent .., rfl⟩

theorem sent_upUrgent (c : Cell) (s : State) : ∃ q ∈ (upUrgent c s).barr.rg7, q.cell = c :=
  ⟨queued c s, mem_placeUrgent .., rfl⟩

theorem hostHeartbeatSent {s : State} (hlink : linkUp s = true) : Completes (.heartbeatSend .host) s fun t =>
    t.barr.hostAlive = (if hcoreRuns s then s.barr.hostAlive + 1 else s.barr.hostAlive) ∧
    (∃ q ∈ t.barr.rg6, q.cell = .heartbeat (.fromHost t.barr.hostAlive s.barr.hostGot s.sec.hHalt
      (BitVec.ofNat 16 (field (reg s 0x020000) 8 0)))) ∧
    t.clk = (toEdge 6 8000 s).clk ∧ Only [.clk, .barr] s t := by
  have hframe : Only [.clk, .barr] s (heartbeatSend .host s) := fun p hp => by cases p <;> simp_all [same]
  refine ⟨heartbeatSend .host s, rfl, ?_, ?_, ?_, hframe⟩
  · simp only [heartbeatSend, hlink, Bool.not_true, Bool.false_eq_true, if_false]
    rfl
  · simp only [heartbeatSend, hlink, Bool.not_true, Bool.false_eq_true, if_false]
    exact sent_sendUrgent _ _
  · simp only [heartbeatSend, hlink, Bool.not_true, Bool.false_eq_true, if_false]
    rfl

theorem fieldHeartbeatSent {s : State} (hlink : linkUp s = true) (hdecl : s.barr.fieldDeclared = false)
    (hsup : s.pwr.fsup ≠ .absent) (hclk : s.barr.fieldClock = true) : Completes (.heartbeatSend .field) s fun t =>
    t.barr.fieldAlive = (if s.fw.fcoreRun && !s.sec.fHalt && domOn s 13 then s.barr.fieldAlive + 1
      else s.barr.fieldAlive) ∧
    (∃ q ∈ t.barr.rg7, q.cell = .heartbeat (.fromField t.barr.fieldAlive s.barr.fieldGot s.sec.fHalt s.barr.fCrc
      s.barr.fSeq s.barr.fTyp (fieldCauses s))) ∧
    t.clk = (toEdge 7 8000 s).clk ∧ Only [.clk, .barr] s t := by
  have hframe : Only [.clk, .barr] s (heartbeatSend .field s) := fun p hp => by cases p <;> simp_all [same]
  have hgo : (s.barr.fieldDeclared || s.pwr.fsup = .absent || !s.barr.fieldClock) = false := by
    simp [hdecl, hsup, hclk]
  refine ⟨heartbeatSend .field s, rfl, ?_, ?_, ?_, hframe⟩
  · simp only [heartbeatSend, hlink, hgo, Bool.not_true, Bool.false_eq_true, if_false]
    rfl
  · simp only [heartbeatSend, hlink, hgo, Bool.not_true, Bool.false_eq_true, if_false]
    exact sent_upUrgent _ _
  · simp only [heartbeatSend, hlink, hgo, Bool.not_true, Bool.false_eq_true, if_false]
    rfl

/-! ## Accepted heartbeats (R71, R76, R78) -/

theorem takenDown_barr {q : Queued} {rest : List Queued} {s : State} (h : s.barr.rg6 = q :: rest)
    (hseq : s.barr.hostNext = s.barr.fieldExpect) :
    (takenDown s).barr.fieldExpect = s.barr.hostNext + 1 ∧ (takenDown s).barr.fieldGot = s.barr.hostNext ∧
    (takenDown s).barr.hostAliveSeen = s.barr.hostAliveSeen ∧ (takenDown s).barr.ferrClear = s.barr.ferrClear ∧
    (takenDown s).barr.tserr = s.barr.tserr ∧ (takenDown s).clk = (passDown s).clk := by
  obtain ⟨-, -, -, -, hexpect⟩ := passDown_barr h
  have hok : s.barr.hostNext = (passDown s).barr.fieldExpect := hseq.trans hexpect.symm
  simp only [takenDown, seqDown, if_pos hok]
  simp [passDown, h, advanceTo, advance]

theorem hostHeartbeatTaken {alive ack : BitVec 16} {halted : Bool} {hbto : BitVec 16} {s : State}
    (h : ArrivesDown (.heartbeat (.fromHost alive ack halted hbto)) s) :
    Completes (.heartbeat (.fromHost alive ack halted hbto)) s fun t =>
      t.barr.ackFromHost = ack ∧ t.barr.hostAliveSeen = alive ∧ t.barr.hostHaltedSeen = halted ∧
      t.barr.hbto = hbto ∧ t.barr.ferrClear = false ∧
      (s.barr.ferrClear = true → t.barr.fCrc = 0 ∧ t.barr.fSeq = 0 ∧ t.barr.fTyp = 0) ∧
      t.modes = (if alive = s.barr.hostAliveSeen then s.modes
        else { s.modes with active := s.modes.active &&& ~~~ cause 7 }) ∧
      t.barr.fieldExpect = s.barr.hostNext + 1 ∧ t.barr.fieldGot = s.barr.hostNext ∧
      t.clk = (passDown s).clk ∧ Only [.modes, .clk, .barr, .ev] s t := by
  have hexec : exec (.heartbeat (.fromHost alive ack halted hbto)) s =
      .next (hostBeat alive ack halted hbto (takenDown s)) := congrArg Host.Outcome.next (onDown_arrives h _)
  obtain ⟨-, -, hseq, q, rest, hring, -⟩ := h
  obtain ⟨hexpect, hgot, hseen, hclear, -, hclk⟩ := takenDown_barr hring hseq
  have honly : Only [.modes, .clk, .barr, .ev] s (hostBeat alive ack halted hbto (takenDown s)) := fun p hp => by
    cases p <;> simp_all [same]
  refine ⟨_, hexec, ?_⟩
  by_cases halive : alive = s.barr.hostAliveSeen <;> cases hc : s.barr.ferrClear <;> rw [hc] at hclear <;>
    simp [hostBeat, liftCause, hseen, halive, hclear, hexpect, hgot, hclk] at honly ⊢ <;> exact honly

/-- A message of one cell that the host accepts. -/
theorem takenUp_cell {c : Cell} {q : Queued} {rest : List Queued} {s : State} (hcell : cellsOf c = 1)
    (hring : s.barr.rg7 = q :: rest) (hseq : s.barr.fieldNext = s.barr.hostExpect) :
    (takenUp c s).clk = (passUp false s).clk ∧ (takenUp c s).barr.hostExpect = s.barr.fieldNext + 1 ∧
    (takenUp c s).barr.hostGot = s.barr.fieldNext ∧ (takenUp c s).barr.safe = s.barr.safe ∧
    (takenUp c s).barr.supervise = s.barr.supervise := by
  have hone : takenUp c s = seqUp s := by simp [takenUp, hcell]
  rw [hone, seqUp]
  simp [hseq, passUp, hring, advanceTo, advance]

theorem checkSafe_confirmed {a : BitVec 16} {c e y : Byte} {s : State}
    (h : ∀ x ∈ s.barr.safe, reached a x = true →
      (rose x.dropsBefore.1 c || rose x.dropsBefore.2.1 e || rose x.dropsBefore.2.2 y) = false) :
    checkSafe a c e y s = { s with barr := { s.barr with safe := s.barr.safe.filter fun x => !reached a x } } := by
  have hnone : (s.barr.safe.filter fun x => reached a x &&
      (rose x.dropsBefore.1 c || rose x.dropsBefore.2.1 e || rose x.dropsBefore.2.2 y)) = [] := by
    rw [List.filter_eq_nil_iff]
    intro x hx
    cases hr : reached a x
    · simp
    · simp [h x hx hr]
  simp only [checkSafe, hnone, List.foldl_nil]

/-- Counting the drops of an epoch, and the outstanding SAFE_REQs, leaves what the last heartbeat told. -/
theorem checkDrops_mirror (s : State) : (checkDrops s).barr.ackFromField = s.barr.ackFromField ∧
    (checkDrops s).barr.fhalt = s.barr.fhalt ∧ (checkDrops s).barr.mirrorActive = s.barr.mirrorActive ∧
    (checkDrops s).barr.fieldAliveSeen = s.barr.fieldAliveSeen ∧ (checkDrops s).barr.mCrc = s.barr.mCrc ∧
    (checkDrops s).barr.mSeq = s.barr.mSeq ∧ (checkDrops s).barr.mTyp = s.barr.mTyp ∧
    (checkDrops s).barr.hostExpect = s.barr.hostExpect ∧ (checkDrops s).barr.hostGot = s.barr.hostGot ∧
    (checkDrops s).barr.safe = s.barr.safe := by
  unfold checkDrops
  split <;> simp

theorem lanes_checkSafe (a : BitVec 16) (c e y : Byte) (s : State) : lanes (checkSafe a c e y s) = lanes s :=
  foldl_keep lanes (fun u (x : SafeSent) => sendSafe x.causes u) (fun u x => lanes_sendSafe x.causes u) _
    { s with barr := { s.barr with safe := s.barr.safe.filter fun x => !reached a x } }

/-- Confirming SAFE_REQs leaves what the heartbeat told and the SEQs. -/
theorem checkSafe_mirror (a : BitVec 16) (c e y : Byte) (s : State) :
    (checkSafe a c e y s).barr.ackFromField = s.barr.ackFromField ∧ (checkSafe a c e y s).barr.fhalt = s.barr.fhalt ∧
    (checkSafe a c e y s).barr.mirrorActive = s.barr.mirrorActive ∧
    (checkSafe a c e y s).barr.fieldAliveSeen = s.barr.fieldAliveSeen ∧
    (checkSafe a c e y s).barr.hostExpect = s.barr.hostExpect ∧
    (checkSafe a c e y s).barr.hostGot = s.barr.hostGot := by
  simp only [lanes_fields (lanes_checkSafe a c e y s), and_self]

theorem fieldHeartbeatTaken {alive ack : BitVec 16} {halted : Bool} {c e y : Byte} {active : BitVec 16} {s : State}
    (h : ArrivesUp (.heartbeat (.fromField alive ack halted c e y active)) s) :
    Completes (.heartbeat (.fromField alive ack halted c e y active)) s fun t =>
      t.barr.ackFromField = ack ∧ t.barr.fhalt = halted ∧ t.barr.mirrorActive = active ∧
      t.barr.fieldAliveSeen = alive ∧ t.barr.mCrc = c ∧ t.barr.mSeq = e ∧ t.barr.mTyp = y ∧
      t.barr.hostExpect = s.barr.fieldNext + 1 ∧ t.barr.hostGot = s.barr.fieldNext ∧
      ((∀ x ∈ s.barr.safe, reached ack x = true → (rose x.dropsBefore.1 c || rose x.dropsBefore.2.1 e ||
        rose x.dropsBefore.2.2 y) = false) → t.barr.safe = s.barr.safe.filter fun x => !reached ack x) ∧
      t.clk = (passUp false s).clk ∧ Only [.clk, .barr, .ev] s t := by
  have hexec : exec (.heartbeat (.fromField alive ack halted c e y active)) s = .next (fieldBeat alive ack halted c e y
      active (takenUp (.heartbeat (.fromField alive ack halted c e y active)) s)) :=
    congrArg Host.Outcome.next (onUp_arrives h _)
  obtain ⟨-, hseq, -, -, q, rest, hring, -⟩ := h
  obtain ⟨hclk, hexpect, hgot, hsafe, -⟩ := takenUp_cell
    (c := .heartbeat (.fromField alive ack halted c e y active)) rfl hring hseq
  have honly : Only [.clk, .barr, .ev] s (fieldBeat alive ack halted c e y active
      (takenUp (.heartbeat (.fromField alive ack halted c e y active)) s)) := fun p hp => by
    cases p <;> simp_all [same]
  generalize takenUp (.heartbeat (.fromField alive ack halted c e y active)) s = u at *
  let v : State := { u with barr := { u.barr with
    ackFromField := ack, fhalt := halted, mirrorActive := active, fieldAliveSeen := alive
    supervise := u.barr.supervise || (u.fw.fcoreRun && domOn u 13) } }
  obtain ⟨m1, m2, m3, m4, m5, m6⟩ := checkSafe_mirror ack c e y v
  obtain ⟨d1, d2, d3, d4, d5, d6, d7, d8, d9, d10⟩ := checkDrops_mirror { checkSafe ack c e y v with barr := {
    (checkSafe ack c e y v).barr with mCrc := c, mSeq := e, mTyp := y } }
  refine ⟨_, hexec, d1.trans m1, d2.trans m2, d3.trans m3, d4.trans m4, d5, d6, d7, (d8.trans m5).trans hexpect,
    (d9.trans m6).trans hgot, fun hnone => ?_, ?_, honly⟩
  · refine d10.trans ?_
    rw [checkSafe_confirmed (s := v) (by simpa [v, hsafe] using hnone)]
    simp [v, hsafe]
  · have hbeat : (fieldBeat alive ack halted c e y active u).clk = u.clk := by simp
    exact hbeat.trans hclk

/-! ## SAFE_REQ and TIME_SYNC (R71, R74) -/

theorem cause_bit (c : Fin 11) : (cause c).getLsbD c.val = true := by
  revert c
  decide

/-- The field side enters Clay with cause c where a SAFE_REQ carries it. -/
def enterCarried (x : BitVec 16) (s : State) (c : Fin 11) : State := if x.getLsbD c.val then enterClay c s else s

theorem enterCarried_keeps (x : BitVec 16) (s : State) (c : Fin 11) :
    (s.modes.clay = true → (enterCarried x s c).modes.clay = true) ∧
    ∀ d : Nat, s.modes.active.getLsbD d = true → (enterCarried x s c).modes.active.getLsbD d = true := by
  unfold enterCarried
  split <;> simp +contextual

theorem enterCarried_all (x : BitVec 16) (l : List (Fin 11)) (s : State) :
    (s.modes.clay = true → (l.foldl (enterCarried x) s).modes.clay = true) ∧
    (∀ d : Nat, s.modes.active.getLsbD d = true → (l.foldl (enterCarried x) s).modes.active.getLsbD d = true) ∧
    ∀ c ∈ l, x.getLsbD c.val = true → (l.foldl (enterCarried x) s).modes.clay = true ∧
      (l.foldl (enterCarried x) s).modes.active.getLsbD c.val = true := by
  induction l generalizing s with
  | nil => simp
  | cons c l ih =>
    obtain ⟨hclay, hactive, hall⟩ := ih (enterCarried x s c)
    obtain ⟨kclay, kactive⟩ := enterCarried_keeps x s c
    refine ⟨fun h => hclay (kclay h), fun d hd => hactive d (kactive d hd), fun e he hx => ?_⟩
    rcases List.mem_cons.mp he with rfl | he
    · have hin : enterCarried x s e = enterClay e s := if_pos hx
      exact ⟨hclay (by simp [hin]), hactive _ (by simp [hin, cause_bit])⟩
    · exact hall e he hx

theorem safeReqTaken {x : BitVec 16} {s : State} (h : ArrivesDown (.safeReq x) s) :
    Completes (.safeReq x) s fun t =>
      (∀ c : Fin 11, x.getLsbD c.val = true → t.modes.clay = true ∧ t.modes.active.getLsbD c.val = true) ∧
      t.clk = (toFieldFrame (takenDown s)).clk ∧ ((∀ c : Fin 11, x.getLsbD c.val = false) → t.modes = s.modes) := by
  have hexec : exec (.safeReq x) s =
      .next ((List.finRange 11).foldl (enterCarried x) (toFieldFrame (takenDown s))) :=
    congrArg Host.Outcome.next (onDown_arrives h _)
  obtain ⟨-, -, hall⟩ := enterCarried_all x (List.finRange 11) (toFieldFrame (takenDown s))
  refine ⟨_, hexec, fun c => hall c (List.mem_finRange c), ?_, fun hnone => ?_⟩
  · refine foldl_keep (fun u : State => u.clk) _ (fun u c => ?_) _ _
    unfold enterCarried
    split <;> simp
  · have hidle (u : State) (c : Fin 11) : enterCarried x u c = u := if_neg (by simp [hnone c])
    exact (foldl_keep (fun u : State => u.modes) _ (fun u c => by rw [hidle u c]) _ _).trans (by simp)

theorem safeReqSentAgain {x : SafeSent} {rest : List SafeSent} {s : State} (hlink : linkUp s = true)
    (h : s.barr.safe = x :: rest) : Completes .safeReqResend s fun t =>
      (∃ y ∈ t.barr.safe, y.causes = x.causes) ∧ (∃ q ∈ t.barr.rg6, q.cell = .safeReq x.causes) ∧
      Only [.barr] s t := by
  have honly : Only [.barr] s (sendSafe x.causes s) := fun p hp => by cases p <;> simp_all [same]
  refine ⟨sendSafe x.causes s, by change execSafeReqResend _ = _; simp [execSafeReqResend, h], ?_, ?_, honly⟩
  · simp only [sendSafe, hlink, if_true]
    exact ⟨_, List.mem_append_right _ List.mem_cons_self, rfl⟩
  · simp only [sendSafe, hlink, if_true]
    exact sent_sendUrgent _ s

/-- An event of the field side leaves the clock, the replica and the count of bad TIME_SYNCs. -/
theorem note_field_time (code : BitVec 16) (sev : BitVec 2) (chan : Byte) (data : List Byte) (s : State) :
    (note .field code sev chan data s).clk = s.clk ∧
    (note .field code sev chan data s).barr.tserr = s.barr.tserr ∧
    (note .field code sev chan data s).barr.replica = s.barr.replica ∧
    (note .field code sev chan data s).barr.replicaLoaded = s.barr.replicaLoaded := by
  simp only [note_frame, lanes_fields (lanes_note .field code sev chan data s), and_self]

theorem syncTaken_differs {tb : BitVec 64} {s : State} (h : s.barr.replica ≠
      tb + BitVec.ofNat 64 (s.clk.tb.toNat - (findKey 4 s.clk.marks).getD s.clk.tb.toNat)) :
    (syncTaken tb s).barr.tserr = satInc s.barr.tserr ∧ (syncTaken tb s).clk = (toFieldFrame s).clk ∧
    (syncTaken tb s).barr.replica = (toFieldFrame s).barr.replica +
      (tb + BitVec.ofNat 64 (s.clk.tb.toNat - (findKey 4 s.clk.marks).getD s.clk.tb.toNat) - s.barr.replica) ∧
    (s.ev.field.length < 64 → Held .field 0x0204 0xFF (syncTaken tb s)) := by
  obtain ⟨hclk, htserr, hreplica, hloaded⟩ := note_field_time 0x0204 1 0xFF []
    { s with barr := { s.barr with tserr := satInc s.barr.tserr } }
  simp only [syncTaken, if_neg h]
  refine ⟨htserr, ?_, ?_, fun hroom => ?_⟩
  · simp only [toFieldFrame, advance, tbOf, hclk, hreplica, hloaded]
  · simp only [toFieldFrame, advance, tbOf, hclk, hreplica, hloaded]
  · exact held_note_field 0x0204 1 0xFF [] (s := { s with barr := { s.barr with tserr := satInc s.barr.tserr } }) hroom

theorem timeSyncCompared {tb : BitVec 64} {s : State} (h : ArrivesDown (.timeSync tb) s) :
    let u := takenDown s
    let right := tb + BitVec.ofNat 64 (u.clk.tb.toNat - (findKey 4 u.clk.marks).getD u.clk.tb.toNat)
    (u.barr.replica = right → exec (.timeSync tb) s = .next u) ∧
    (u.barr.replica ≠ right → Completes (.timeSync tb) s fun t =>
      t.barr.tserr = satInc s.barr.tserr ∧ t.clk = (toFieldFrame u).clk ∧
      t.barr.replica = (toFieldFrame u).barr.replica + (right - u.barr.replica) ∧
      (s.ev.field.length < 64 → Held .field 0x0204 0xFF t) ∧ Only [.clk, .barr, .ev] s t) := by
  have hexec : exec (.timeSync tb) s = .next (syncTaken tb (takenDown s)) :=
    congrArg Host.Outcome.next (onDown_arrives h _)
  have honly : Only [.clk, .barr, .ev] s (syncTaken tb (takenDown s)) := fun p hp => by
    cases p <;> simp_all [same]
  obtain ⟨-, -, hseq, q, rest, hring, -⟩ := h
  obtain ⟨-, -, -, -, htserr, -⟩ := takenDown_barr hring hseq
  refine ⟨fun heq => ?_, fun hne => ?_⟩
  · rw [hexec, syncTaken]
    exact congrArg Host.Outcome.next (if_pos heq)
  · obtain ⟨hcount, hclk, hreload, hheld⟩ := syncTaken_differs hne
    exact ⟨_, hexec, by rw [hcount, htserr], hclk, hreload, by simpa using hheld, honly⟩

/-! ## Timeouts of the cores (R78, R79) -/

theorem hostHeartbeatTimeoutCompletes {s : State} (hlink : linkUp s = true) (hclk : s.barr.fieldClock = true) :
    Completes .hostHeartbeatTimeout s fun t =>
      t.modes.clay = true ∧ t.modes.active = s.modes.active ||| cause 7 ∧ t.clk = (toFieldFrame s).clk ∧
      (ClayQuiet s → ∀ n : Fin 32, Quiet t.out.ch[n]) := by
  have hexec : exec .hostHeartbeatTimeout s = .next (enterClay 7 (toFieldFrame s)) :=
    congrArg Host.Outcome.next (if_pos (by rw [hlink, hclk]; rfl))
  exact ⟨_, hexec, by simp, by simp, by simp, quiet_of_exec hexec (by simp)⟩

theorem hostClay_clay {c : Fin 11} {s : State} (h : s.modes.clay = true) : (hostClay c s).ev = s.ev ∧
    (hostClay c s).modes.clay = true := by
  simp [hostClay, enterClay, h]

/-- A CRITICAL of the host side holds Clay with cause 4. -/
theorem raise_critical (code : BitVec 16) (chan : Byte) (data : List Byte) (s : State) :
    (raise .host code 3 chan data s).modes.clay = true ∧
    (raise .host code 3 chan data s).modes.active.getLsbD 4 = true ∧
    (s.modes.clay = true → (raise .host code 3 chan data s).ev = (note .host code 3 chan data s).ev) := by
  have hraise : raise .host code 3 chan data s =
      if (criticalInHand s && !s.ev.host.any (sameSource code chan) &&
        (hostClay 4 (note .host code 3 chan data s)).modes.mode = .loam) = true
      then enterSilt 5 (hostClay 4 (note .host code 3 chan data s)) else hostClay 4 (note .host code 3 chan data s) := rfl
  have hclay (h : s.modes.clay = true) :=
    hostClay_clay (c := 4) (s := note .host code 3 chan data s) (by simpa using h)
  rw [hraise]
  split
  · refine ⟨by simp [enterSilt, hostClay], by simp [enterSilt, hostClay, cause], fun h => ?_⟩
    obtain ⟨hev, hstill⟩ := hclay h
    exact (hostClay_clay (c := 8) (by exact hstill)).1.trans hev
  · exact ⟨by simp [hostClay], by simp [hostClay, cause], fun h => (hclay h).1⟩

theorem fcoreStallCompletes {s : State} (hlink : linkUp s = true) (hsup : s.barr.supervise = true)
    (hdom : domOn s 13 = true) (hhalt : s.barr.fhalt = false) : Completes .fcoreStall s fun t =>
      t.modes.clay = true ∧ t.modes.active.getLsbD 4 = true ∧ t.clk = s.clk ∧
      (s.modes.clay = true → s.ev.host.length < 64 → Held .host 0x0205 0xFF t) := by
  have hexec : exec .fcoreStall s = .next (raise .host 0x0205 3 0xFF [] s) :=
    congrArg Host.Outcome.next (if_pos (by rw [hlink, hsup, hdom, hhalt]; rfl))
  obtain ⟨hclay, hcause, hev⟩ := raise_critical 0x0205 0xFF [] s
  refine ⟨_, hexec, hclay, hcause, by simp, fun h hroom => ?_⟩
  change (raise .host 0x0205 3 0xFF [] s).ev.host.any _ = true
  rw [hev h]
  exact held_note_host _ _ _ _ hroom

/-- Settles O27: each heartbeat, SAFE_REQ and TIME_SYNC by what it sends, or does where it is accepted. -/
theorem heartbeatsKeepTheTwoSides : Obligations.HeartbeatsKeepTheTwoSides := by
  unfold Obligations.HeartbeatsKeepTheTwoSides
  intro s hlink
  refine ⟨hostHeartbeatSent hlink, fieldHeartbeatSent hlink, fun _ _ _ _ => hostHeartbeatTaken,
    fun _ _ _ _ _ _ _ => fieldHeartbeatTaken, fun x => safeReqTaken, fun x rest => safeReqSentAgain hlink, ?_,
    fun tb => timeSyncCompared, hostHeartbeatTimeoutCompletes hlink, fcoreStallCompletes hlink⟩
  exact congrArg Host.Outcome.next (if_pos hlink)

end Sys2Proof.Proofs

/-! Field registers over the barrier. -/

namespace Sys2Proof.Proofs

open Sys2Proof.Machine Sys2Proof.Safety Sys2Proof.Laws

/-! ## A field write leaves the field side its clock -/

theorem lanes_trip (d : Fin 32) (src : TripSrc) (s : State) : lanes (trip d src s) = lanes s := by
  have hset (m : Fin 32) (f : Chan → Chan) (u : State) : lanes (setCh m f u) = lanes u := lanes_of_barr (by simp)
  have hlatch (c : Prop) [Decidable c] (m : Fin 32) (u : State) :
      lanes (if c then noteLatch m u else u) = lanes u := by
    split
    · exact lanes_note ..
    · rfl
  exact (hlatch ..).trans (hset ..)

theorem lanes_driverStart (d : Fin 32) (s : State) : lanes (driverStart d s) = lanes s := by
  have hset (m : Fin 32) (f : Chan → Chan) (u : State) : lanes (setCh m f u) = lanes u := lanes_of_barr (by simp)
  have hblank (u : State) : lanes (openBlank d u) = lanes u := lanes_of_barr (by simp)
  unfold driverStart
  dsimp only
  split
  · exact hblank s
  · split
    · exact (lanes_trip ..).trans (hset ..)
    · exact ((hblank _).trans (hset ..)).trans (hset ..)

theorem lanes_resumed (old s : State) : lanes (resumed old s) = lanes s := by
  unfold resumed
  dsimp only
  refine (foldl_keep lanes _ (fun u d => lanes_of_barr (by simp)) _ _).trans ?_
  refine foldl_keep lanes _ (fun u d => ?_) _ s
  split
  · exact lanes_driverStart d u
  · rfl

theorem lanes_closeHeld (old s : State) : lanes (closeHeld old s) = lanes s := by
  unfold closeHeld
  refine (lanes_resumed _ _).trans (foldl_keep lanes _ (fun u d => ?_) _ s)
  split
  · exact lanes_of_barr (by simp)
  · rfl

theorem lanes_fanRewritten (j : Fin 2) (old : Word) (s : State) : lanes (fanRewritten j old s) = lanes s := by
  have hfreeze (u : State) : lanes (syncFreeze u) = lanes u := lanes_of_barr (by simp)
  unfold fanRewritten
  dsimp only
  split
  · rfl
  · exact (hfreeze _).trans ((lanes_closeHeld _ _).trans (lanes_of_barr (by simp)))

/-- The field side has its clock in both states, or in neither. -/
def SameClock (s t : State) : Prop := t.barr.fieldClock = s.barr.fieldClock

theorem SameClock.trans {s t u : State} (g : SameClock t u) (h : SameClock s t) : SameClock s u := Eq.trans g h

theorem sameClock_of_barr {s t : State} (h : t.barr = s.barr) : SameClock s t := by rw [SameClock, h]

theorem sameClock_of_lanes {s t : State} (h : lanes t = lanes s) : SameClock s t := by
  simp only [SameClock, lanes_fields h]

theorem sameClock_raise_field (code : BitVec 16) (sev : BitVec 2) (chan : Byte) (data : List Byte) (s : State) :
    SameClock s (raise .field code sev chan data s) := by
  have hnote : SameClock s (note .field code sev chan data s) := sameClock_of_lanes (lanes_note ..)
  have hclay : SameClock s (enterClay 4 (toFieldFrame (note .field code sev chan data s))) :=
    (sameClock_of_lanes (lanes_enterClay 4 (toFieldFrame (note .field code sev chan data s)))).trans hnote
  simp only [raise]
  (repeat' split)
  · exact (sameClock_of_lanes (lanes_enterSilt 5 _)).trans hclay
  · exact hclay
  · exact hnote

theorem sameClock_closeFieldRec (seq : BitVec 31) (s : State) : SameClock s (closeFieldRec seq s) := by
  unfold closeFieldRec
  dsimp only
  have hsettle (u : State) : SameClock u (settleCritical u) := sameClock_of_barr (by simp)
  refine (hsettle _).trans ?_
  split <;> rfl

theorem sameClock_openDisc (reason : BitVec 2) (s : State) : SameClock s (openDisc reason s) := by
  have hopen : SameClock s { s with out := { s.out with
      discOpen := true, softStart := false, discReason := reason, discCount := satInc s.out.discCount
      ch := vmap (fun c => { c with obsOff := false }) s.out.ch } } := rfl
  exact SameClock.trans (sameClock_raise_field 0x1503 3 0xFF [BitVec.ofNat 8 reason.toNat] _) hopen

theorem sameClock_fieldCommand (a : Nat) (v : Word) (s : State) : SameClock s (fieldCommand a v s) := by
  unfold fieldCommand
  dsimp only
  split
  · rfl
  · exact sameClock_of_barr (by simp)
  · refine sameClock_of_barr ?_
    (repeat' split) <;> simp
  · split
    · exact sameClock_closeFieldRec ..
    · split
      · exact sameClock_openDisc 2 s
      · split
        · exact sameClock_of_barr (by simp)
        · rfl

theorem sameClock_fieldPut (a : Nat) (v : Word) (s : State) : SameClock s (fieldPut a v s) := by
  unfold fieldPut
  split
  · rfl
  · dsimp only
    split
    · exact sameClock_fieldCommand a v s
    · have hset : SameClock s (setReg a v s) := rfl
      split
      · exact sameClock_of_barr (by simp)
      · split
        · exact (sameClock_of_lanes (lanes_fanRewritten ..)).trans hset
        · split
          · exact (sameClock_of_lanes (lanes_fanRewritten ..)).trans hset
          · exact hset

theorem sameClock_fieldWrite (a : Nat) (value mask : Word) (s : State) :
    SameClock s (fieldWrite a value mask s).1 := by
  unfold fieldWrite
  split
  · rfl
  · exact sameClock_fieldPut ..

/-! ## Frames of single parts -/

theorem only_barr (b : Barrier) (s : State) : Only [.barr] s { s with barr := b } := fun p hp => by
  cases p <;> simp_all [same]

theorem only_pwr (w : Power) (s : State) : Only [.pwr] s { s with pwr := w } := fun p hp => by
  cases p <;> simp_all [same]

/-! ## Register cells at the field side (R82, R83, R154) -/

/-- What the field side keeps of the barrier as a cell arrives. -/
theorem takenDown_keeps {q : Queued} {rest : List Queued} {s : State} (h : s.barr.rg6 = q :: rest) :
    (takenDown s).barr.fieldClock = s.barr.fieldClock ∧ (takenDown s).barr.tagMem = s.barr.tagMem ∧
    (takenDown s).barr.rg7 = s.barr.rg7 ∧ (takenDown s).barr.schedWrites = s.barr.schedWrites ∧
    (takenDown s).barr.edgeTags = s.barr.edgeTags ∧ (takenDown s).barr.coefTags = s.barr.coefTags := by
  simp only [takenDown, seqDown]
  split <;> simp [passDown, h, advanceTo, advance]

/-- An accepted CFG_WRITE with a fresh TAG. -/
theorem writeTaken_fresh {c : CfgWriteCell} {s : State} (h : s.barr.tagMem.find? (fun m => m.1 == c.tag) = none) :
    writeTaken c s = upCell (writeAnswer c (applyCfgWrite c s).2)
      (rememberTag c.tag (writeAnswer c (applyCfgWrite c s).2) (applyCfgWrite c s).1) := by
  simp only [writeTaken, h]

/-- What an answer changes: the memory of TAGs and RG7, whose last message it is where the field side has a clock. -/
theorem answer_kept (tag : BitVec 16) (a : Cell) (s : State) :
    (upCell a (rememberTag tag a s)).regs = s.regs ∧ (upCell a (rememberTag tag a s)).out = s.out ∧
    (upCell a (rememberTag tag a s)).clk = s.clk ∧ (upCell a (rememberTag tag a s)).pwr = s.pwr ∧
    (upCell a (rememberTag tag a s)).barr.fieldClock = s.barr.fieldClock ∧
    (upCell a (rememberTag tag a s)).barr.schedWrites = s.barr.schedWrites ∧
    (s.barr.fieldClock = true →
      (upCell a (rememberTag tag a s)).barr.rg7 = s.barr.rg7 ++ [queued a s] ∧
      (upCell a (rememberTag tag a s)).barr.rg7.getLast?.map (·.cell) = some a) ∧
    Only [.barr] s (upCell a (rememberTag tag a s)) := by
  refine ⟨rfl, rfl, rfl, rfl, rfl, rfl, fun h => ?_, only_barr _ s⟩
  simp [upCell, rememberTag, h, queued]

theorem cfgWrite_repeated {c : CfgWriteCell} {s : State} {x : BitVec 16 × Cell} (h : ArrivesDown (.cfgWrite c) s)
    (hx : s.barr.tagMem.find? (fun m => m.1 == c.tag) = some x) :
    exec (.cfgWrite c) s = .next (upCell x.2 (takenDown s)) := by
  have hstep := onDown_arrives h (writeTaken c)
  obtain ⟨-, -, -, q, rest, hring, -⟩ := h
  obtain ⟨-, htags, -⟩ := takenDown_keeps hring
  rw [← htags] at hx
  exact congrArg Host.Outcome.next (hstep.trans (by simp only [writeTaken, hx]))

theorem exec_cfgWrite_fresh {c : CfgWriteCell} {s : State} (h : ArrivesDown (.cfgWrite c) s)
    (hx : s.barr.tagMem.find? (fun m => m.1 == c.tag) = none) : exec (.cfgWrite c) s =
      .next (upCell (writeAnswer c (applyCfgWrite c (takenDown s)).2) (rememberTag c.tag
        (writeAnswer c (applyCfgWrite c (takenDown s)).2) (applyCfgWrite c (takenDown s)).1)) := by
  have hstep := onDown_arrives h (writeTaken c)
  obtain ⟨-, -, -, q, rest, hring, -⟩ := h
  obtain ⟨-, htags, -⟩ := takenDown_keeps hring
  rw [← htags] at hx
  exact congrArg Host.Outcome.next (hstep.trans (writeTaken_fresh hx))

theorem cfgWrite_register {c : CfgWriteCell} {s : State} (h : ArrivesDown (.cfgWrite c) s)
    (hx : s.barr.tagMem.find? (fun m => m.1 == c.tag) = none) (hnow : c.sched = false) (hop : c.op = none)
    (hfield : isField c.addr.toNat = true) : Completes (.cfgWrite c) s fun t =>
      let r := fieldWrite c.addr.toNat c.value c.mask (toFieldFrame (takenDown s))
      t.regs = r.1.regs ∧ t.out = r.1.out ∧ t.clk = r.1.clk ∧
      t.barr.rg7.getLast?.map (·.cell) = some (.cfgData c.tag r.2.status c.addr []) := by
  have hexec := exec_cfgWrite_fresh h hx
  obtain ⟨-, hclk, -, q, rest, hring, -⟩ := h
  obtain ⟨hkeep, -⟩ := takenDown_keeps hring
  have happly : applyCfgWrite c (takenDown s) =
      ((fieldWrite c.addr.toNat c.value c.mask (toFieldFrame (takenDown s))).1,
        { status := (fieldWrite c.addr.toNat c.value c.mask (toFieldFrame (takenDown s))).2.status }) := by
    simp only [applyCfgWrite, hnow, hop, hfield, Bool.false_eq_true, Bool.not_true, if_false]
  have hclock : (fieldWrite c.addr.toNat c.value c.mask (toFieldFrame (takenDown s))).1.barr.fieldClock = true :=
    Eq.trans (sameClock_fieldWrite c.addr.toNat c.value c.mask (toFieldFrame (takenDown s))) (Eq.trans hkeep hclk)
  rw [happly] at hexec
  have hans (st : Byte) : writeAnswer c { status := st } = .cfgData c.tag st c.addr [] := by
    simp [writeAnswer, hop]
  dsimp only at hexec
  rw [hans] at hexec
  generalize fieldWrite c.addr.toNat c.value c.mask (toFieldFrame (takenDown s)) = r at *
  obtain ⟨hregs, hout, hclk', -, -, -, hlast, -⟩ := answer_kept c.tag (.cfgData c.tag r.2.status c.addr []) r.1
  exact ⟨_, hexec, hregs, hout, hclk', (hlast hclock).2⟩

theorem cfgWrite_part {c : CfgWriteCell} {o : FieldOp} {s : State} (h : ArrivesDown (.cfgWrite c) s)
    (hx : s.barr.tagMem.find? (fun m => m.1 == c.tag) = none) (hnow : c.sched = false) (hop : c.op = some o) :
    Completes (.cfgWrite c) s fun t =>
      let r := fieldPart o (toFieldFrame (takenDown s))
      t.regs = r.1.regs ∧ t.out = r.1.out ∧ t.clk = r.1.clk ∧
      (t.barr.fieldClock = true → t.barr.rg7.getLast?.map (·.cell) = some (writeAnswer c r.2)) := by
  have hexec := exec_cfgWrite_fresh h hx
  have happly : applyCfgWrite c (takenDown s) = fieldPart o (toFieldFrame (takenDown s)) := by
    simp only [applyCfgWrite, hnow, hop, Bool.false_eq_true, if_false]
  rw [happly] at hexec
  generalize fieldPart o (toFieldFrame (takenDown s)) = r at *
  obtain ⟨hregs, hout, hclk, -, hclock, -, hlast, -⟩ := answer_kept c.tag (writeAnswer c r.2) r.1
  exact ⟨_, hexec, hregs, hout, hclk, fun h => (hlast (hclock.symm.trans h)).2⟩

theorem cfgWrite_stored {c : CfgWriteCell} {s : State} (h : ArrivesDown (.cfgWrite c) s)
    (hx : s.barr.tagMem.find? (fun m => m.1 == c.tag) = none) (hsched : c.sched = true)
    (hok : schedWriteStatus c (takenDown s) = 1) : Completes (.cfgWrite c) s fun t =>
      t.barr.schedWrites = s.barr.schedWrites ++ [c] ∧ t.clk = (takenDown s).clk ∧
      t.barr.rg7 = s.barr.rg7 ++ [queued (writeAnswer c { status := 1 }) (takenDown s)] ∧ Only [.clk, .barr] s t := by
  have hexec := exec_cfgWrite_fresh h hx
  obtain ⟨-, hclk, -, q, rest, hring, -⟩ := h
  obtain ⟨hkeep, -, hseven, hwrites, -⟩ := takenDown_keeps hring
  have honly : Only [.clk, .barr] s (takenDown s) := fun p hp => by cases p <;> simp_all [same]
  generalize takenDown s = u at *
  have happly : applyCfgWrite c u =
      ({ u with barr := { u.barr with schedWrites := u.barr.schedWrites ++ [c] } }, { status := 1 }) := by
    simp only [applyCfgWrite, hsched, hok, if_true]
  rw [happly] at hexec
  obtain ⟨-, -, hclk', -, -, hstored, hlast, hframe⟩ := answer_kept c.tag (writeAnswer c { status := 1 })
    { u with barr := { u.barr with schedWrites := u.barr.schedWrites ++ [c] } }
  refine ⟨_, hexec, hstored.trans (by rw [← hwrites]), hclk', (hlast (hkeep.trans hclk)).1.trans (by rw [← hseven]; rfl),
    only_trans honly (only_mono (only_trans (only_barr _ u) hframe) (by simp))⟩

theorem cfgReadCompletes {tag : BitVec 16} {a : BitVec 24} {n : BitVec 3} {s : State}
    (h : ArrivesDown (.cfgRead tag a n) s) (hx : s.barr.tagMem.find? (fun m => m.1 == tag) = none)
    (hok : cfgReadStatus a.toNat n.toNat (takenDown s) = 0) : Completes (.cfgRead tag a n) s fun t =>
      t.barr.rg7 = s.barr.rg7 ++ [queued (.cfgData tag 0 a
        ((List.range n.toNat).map fun i => readReg (takenDown s) (a.toNat + 4 * i))) (takenDown s)] ∧
      t.regs = s.regs ∧ t.clk = (takenDown s).clk ∧ Only [.clk, .barr, .pwr] s t := by
  have hstep := onDown_arrives h (readTaken tag a n)
  obtain ⟨-, hclk, -, q, rest, hring, -⟩ := h
  obtain ⟨hkeep, htags, hseven, -⟩ := takenDown_keeps hring
  rw [← htags] at hx
  have honly : Only [.clk, .barr] s (takenDown s) := fun p hp => by cases p <;> simp_all [same]
  generalize takenDown s = u at *
  let as := (List.range n.toNat).map fun i => a.toNat + 4 * i
  let w := as.foldl (fun u b => fieldReadAct b u) u
  have hw : { w with pwr := u.pwr } = u := by
    refine foldl_keep (fun v : State => { v with pwr := u.pwr }) _ (fun v b => ?_) as u
    unfold fieldReadAct
    split <;> rfl
  have hframe : Only [.pwr] u w := by
    rw [show w = { u with pwr := w.pwr } by rw [← hw]]
    exact only_pwr _ u
  have hvals : as.map (readReg u) = (List.range n.toNat).map fun i => readReg u (a.toNat + 4 * i) := by
    simp [as]
  have htaken : readTaken tag a n u = upCell (.cfgData tag 0 a (as.map (readReg u)))
      (rememberTag tag (.cfgData tag 0 a (as.map (readReg u))) w) := by
    simp only [readTaken, hx, hok, if_true]
    rfl
  rw [hvals] at htaken
  obtain ⟨hregs, -, hclk', -, -, -, hlast, hanswer⟩ := answer_kept tag
    (.cfgData tag 0 a ((List.range n.toNat).map fun i => readReg u (a.toNat + 4 * i))) w
  have hwbarr : w.barr = u.barr := hframe .barr (by simp)
  have hwclk : w.clk = u.clk := hframe .clk (by simp)
  refine ⟨_, congrArg Host.Outcome.next (hstep.trans htaken), ?_, ?_, hclk'.trans hwclk, ?_⟩
  · refine (hlast (by rw [hwbarr, hkeep, hclk])).1.trans ?_
    rw [hwbarr, hseven, queued, hwclk, queued]
  · exact hregs.trans ((hframe .regs (by simp)).trans (honly .regs (by simp)))
  · exact only_trans (only_mono honly (by simp)) (only_trans (only_mono hframe (by simp)) (only_mono hanswer (by simp)))

/-! ## The answer of an access at the host (R83, R84, R145) -/

/-- An access of a request that is not scheduled is the one under way, and no image of the field side is awaited. -/
structure OneAccess (x : RegTxn) (q : Request) (s : State) : Prop where
  up : linkUp s = true
  only : s.barr.txns = [x]
  why : x.why = .request q
  now : x.sched = false
  image : s.fw.fieldImage = none

theorem takenUp_txns (c : Cell) (s : State) : (takenUp c s).barr.txns = s.barr.txns := by
  have hpass (b : Bool) (u : State) : (passUp b u).barr.txns = u.barr.txns := by
    unfold passUp
    split <;> simp [advanceTo, advance]
  refine foldl_keep (fun u : State => u.barr.txns) _ (fun u _ => ?_) _ s
  unfold seqUp
  dsimp only
  split <;> exact hpass _ _

/-- A state whose field image is not awaited stays as it is. -/
theorem takeDigest_none {s : State} (h : s.fw.fieldImage = none) : takeDigest s = s := by
  simp only [takeDigest, h]

/-- The access ends with an answer. -/
theorem endTxn_request {x : RegTxn} {q : Request} {s : State} (status detail : Byte) (h : s.barr.txns.filter
      (fun y => y.tag != x.tag) = []) (hwhy : x.why = .request q) : endTxn x status detail s =
    answerTxn x q status detail { s with barr := { s.barr with txns := [] } } := by
  simp only [endTxn, h, hwhy]

theorem answers_cfgData {x : RegTxn} {q : Request} {st : Byte} {a : BitVec 24} {vals : List Word} {s : State}
    {ans : Ans} (h : OneAccess x q s) (harr : ArrivesUp (.cfgData x.tag st a vals) s)
    (htaken : ∀ u : State, u.barr.txns = [x] →
      dataTaken x.tag st a vals u = reply q ans { u with barr := { u.barr with txns := [] } }) :
    Completes (.cfgData x.tag st a vals) s fun t => t.barr.txns = [] ∧ Answered q ans t := by
  have hstep := onUp_arrives harr (dataTaken x.tag st a vals)
  have htxns : (takenUp (.cfgData x.tag st a vals) s).barr.txns = [x] := (takenUp_txns _ s).trans h.only
  have himage : (takenUp (.cfgData x.tag st a vals) s).fw.fieldImage = none := by simpa using h.image
  generalize takenUp (.cfgData x.tag st a vals) s = u at *
  rw [htaken u htxns] at hstep
  have hdone : takeDigest (cfgData x.tag st a vals s) = reply q ans { u with barr := { u.barr with txns := [] } } :=
    (congrArg takeDigest hstep).trans (takeDigest_none (by simpa using himage))
  exact ⟨_, congrArg Host.Outcome.next hdone, by simp, _, rfl⟩

theorem regReadAnswered {x : RegTxn} {q : Request} {vals : List Word} {s : State} (h : OneAccess x q s)
    (hop : x.op = none) (hread : x.isWrite = false) (hcode : q.pkt.opcode = 0x7A) (hleft : x.readLeft = vals.length)
    (harr : ArrivesUp (.cfgData x.tag 0 x.readAddr vals) s) : Completes (.cfgData x.tag 0 x.readAddr vals) s fun t =>
      t.barr.txns = [] ∧ Answered q { data := (x.got ++ vals).flatMap fun w => be 4 w.toNat } t := by
  refine answers_cfgData h harr fun u hu => ?_
  simp [dataTaken, hu, hop, hread, hleft, txnCell, endTxn_request, h.why, answerTxn, h.now, hcode]

theorem regWriteAnswered {x : RegTxn} {q : Request} {p : RegPut} {s : State} (h : OneAccess x q s)
    (hop : x.op = none) (hwrite : x.isWrite = true) (hcode : q.pkt.opcode = 0x7B) (hputs : x.puts = [p])
    (harr : ArrivesUp (.cfgData x.tag 0 p.addr []) s) : Completes (.cfgData x.tag 0 p.addr []) s fun t =>
      t.barr.txns = [] ∧ Answered q { data := [BitVec.ofNat 8 (x.done + 1)] } t := by
  refine answers_cfgData h harr fun u hu => ?_
  simp [dataTaken, hu, hop, hwrite, hputs, txnCell, endTxn_request, h.why, answerTxn, h.now, hcode]

theorem partAnswered {x : RegTxn} {q : Request} {o : FieldOp} {st : Byte} {a : BitVec 24} {vals : List Word}
    {s : State} (h : OneAccess x q s) (hop : x.op = some o) (hst : st ≠ 2) (hcode : q.pkt.opcode ≠ 0x44)
    (harr : ArrivesUp (.cfgData x.tag st a vals) s) : Completes (.cfgData x.tag st a vals) s fun t =>
      t.barr.txns = [] ∧ Answered q { status := st, detail := a.setWidth 8, data := wordData vals } t := by
  refine answers_cfgData h harr fun u hu => ?_
  have hst' : ¬ st = 2#8 := hst
  have hcode' : ¬ q.pkt.opcode = 68#8 := hcode
  simp [dataTaken, hu, hop, endTxn_request, h.why, answerTxn, h.now, opAnswer, hst', hcode']

theorem cfgResent {x : RegTxn} {q : Request} {s : State} (h : OneAccess x q s) (hsends : x.sends < 3) :
    Completes (.cfgResend x.tag) s fun t =>
      t.barr.txns = [{ x with sends := x.sends + 1 }] ∧ Only [.barr] s t := by
  have hsend (c : Cell) (u : State) : (sendCell c u).barr.txns = u.barr.txns ∧ Only [.barr] u (sendCell c u) := by
    refine ⟨?_, only_barr _ u⟩
    simp only [sendCell]
    split <;> rfl
  let v : State := { s with barr := { s.barr with txns := [{ x with sends := x.sends + 1 }] } }
  have hfew : ¬ 3 ≤ x.sends := by omega
  have hstep : cfgResend x.tag s = match txnCell x with | some c => sendCell c v | none => v := by
    simp [cfgResend, h.only, h.up, hfew, v] <;> rfl
  have hkeep : (cfgResend x.tag s).barr.txns = [{ x with sends := x.sends + 1 }] ∧ Only [.barr] s (cfgResend x.tag s) := by
    rw [hstep]
    split
    · exact ⟨(hsend _ v).1, only_trans (only_barr _ s) (hsend _ v).2⟩
    · exact ⟨rfl, only_barr _ s⟩
  have himage : (cfgResend x.tag s).fw.fieldImage = none := by
    rw [hkeep.2 .fw (by simp)]
    exact h.image
  exact ⟨_, congrArg Host.Outcome.next (takeDigest_none himage), hkeep⟩

theorem cfgUnanswered {x : RegTxn} {q : Request} {s : State} (h : OneAccess x q s) (hsends : 3 ≤ x.sends)
    (hop : x.op = none) (hcode : q.pkt.opcode = 0x7A) : Completes (.cfgResend x.tag) s fun t =>
      t.barr.txns = [] ∧ Answered q { status := 0x40, detail := 0x01 } t := by
  have hstep : cfgResend x.tag s =
      reply q { status := 0x40, detail := 0x01 } { s with barr := { s.barr with txns := [] } } := by
    simp [cfgResend, h.only, h.up, hsends, endTxn_request, h.why, answerTxn, h.now, hop, hcode]
  have hdone : takeDigest (cfgResend x.tag s) =
      reply q { status := 0x40, detail := 0x01 } { s with barr := { s.barr with txns := [] } } :=
    (congrArg takeDigest hstep).trans (takeDigest_none (by simpa using h.image))
  exact ⟨_, congrArg Host.Outcome.next hdone, by simp, _, rfl⟩

/-! ## A stored write at its frame (R141) -/

theorem schedWriteActed {c : CfgWriteCell} {s : State} (h : firstWrite s s.barr.schedWrites = some c)
    (hclk : s.barr.fieldClock = true) (hop : c.op = none) :
    let a := c.addr.toNat
    let u := advanceTo (tickAt c.applyAt 0 s) s
    let w : State := { u with barr := { u.barr with schedWrites := u.barr.schedWrites.erase c } }
    (writeDomains c w <|> fieldStateCheck w a (merged w a c.value c.mask)) = none →
    Completes .schedWriteAct s fun t =>
      t.regs = (fieldPut a (merged w a c.value c.mask) w).regs ∧
      t.out = (fieldPut a (merged w a c.value c.mask) w).out ∧
      t.clk = (fieldPut a (merged w a c.value c.mask) w).clk := by
  intro a u w hok
  have hstep : schedWriteAct s = actSchedWrite c w := by
    simp only [schedWriteAct, h, hclk, Bool.not_true, Bool.false_eq_true, if_false]
    rfl
  have hact : actSchedWrite c w =
      markSched c (fun o => { o with wrote := o.wrote + 1 }) (fieldPut a (merged w a c.value c.mask) w) := by
    simp only [actSchedWrite, hop]
    simp only [a] at hok
    simp only [hok]
    rfl
  exact ⟨_, congrArg Host.Outcome.next (hstep.trans hact), rfl, rfl, rfl⟩

/-- Settles O28: a cell acts once by its TAG, and the answer of the one access under way ends it. -/
theorem fieldRegistersOverTheBarrier : Obligations.FieldRegistersOverTheBarrier := by
  unfold Obligations.FieldRegistersOverTheBarrier
  intro s
  refine ⟨fun c harr => ⟨fun x => cfgWrite_repeated harr, fun hx => ⟨cfgWrite_register harr hx,
      fun o => cfgWrite_part harr hx, cfgWrite_stored harr hx⟩⟩,
    fun tag a n => cfgReadCompletes, fun x q hup honly hwhy hnow himage => ?_, fun c => schedWriteActed⟩
  have h : OneAccess x q s := ⟨hup, honly, hwhy, hnow, himage⟩
  exact ⟨fun vals => regReadAnswered h, fun p => regWriteAnswered h, fun o st a vals => partAnswered h, cfgResent h,
    cfgUnanswered h⟩

end Sys2Proof.Proofs

/-! Batches of coefficient cells. -/

namespace Sys2Proof.Proofs

open Sys2Proof.Machine Sys2Proof.Safety Sys2Proof.Laws

/-- A banked word for slot 1. -/
def strayCell : CoefCell := { tag := 2, slot := 1, banked := true, swap := false, first := 1, words := [1] }

/-- A banked word for slot 0. -/
def ownCell : CoefCell := { tag := 1, slot := 0, banked := true, swap := false, first := 1, words := [1] }

/-- A node with the barrier up and every domain ON, whose slot 0 holds a cell of slot 1 while `ownCell` arrives at the
field side. No step stores a cell with another slot than its own. -/
def strayingNode : State :=
  { State.reset with
    clk := { tree := .running }
    pwr := { dom := Vector.replicate 18 .on }
    barr := { link := .up, fieldClock := true, rg6 := [{ cell := .loopCoef ownCell, since := 0 }] }
    loop := { slot := Vector.ofFn fun i => if i = 0 then { cells := [strayCell] } else {} } }

theorem strayingNode_arrives : ArrivesDown (.loopCoef ownCell) strayingNode :=
  ⟨by decide, rfl, rfl, _, [], rfl, rfl⟩

/-- Refutes O29: the statement lets the slot's accepted cells be those of another slot, and asks that the slots beside
that of the arriving cell stay. The cells held at a slot take effect before the arriving one does, each on the slot it
names. -/
theorem not_cellBatchesAreStoredAndAcknowledged : ¬ Obligations.CellBatchesAreStoredAndAcknowledged := by
  unfold Obligations.CellBatchesAreStoredAndAcknowledged
  intro h
  obtain ⟨-, -, hcoef, -⟩ := h strayingNode (by decide)
  obtain ⟨t, hexec, -, -, -, hother, -⟩ := hcoef ownCell strayingNode_arrives (by decide) (by decide +kernel)
  have hstep : exec (.loopCoefCell ownCell) strayingNode = .next (coefTaken ownCell (takenDown strayingNode)) :=
    congrArg Host.Outcome.next (onDown_arrives strayingNode_arrives _)
  obtain rfl : coefTaken ownCell (takenDown strayingNode) = t := by simpa using hstep.symm.trans hexec
  have hshadow := congrArg (fun l : Slot => l.shadow[(1 : Fin 17)]) (hother 1 (by decide))
  exact absurd hshadow (by decide +kernel)

end Sys2Proof.Proofs

/-! Partners of the chain ports appear and go. -/

namespace Sys2Proof.Proofs

open Sys2Proof.Machine Sys2Proof.Safety Sys2Proof.Laws

/-! ## Lock, IDLE and the timeout (R88 to R91) -/

theorem idleSend_locked {p : ChainPort} {s : State} (hlock : portLock p s = true) (hon : chainOn s = true) :
    idleSend p s = putLine p (idleOf p) s := if_pos (by rw [hlock, hon]; rfl)

theorem symbolLock_up {s : State} (hon : chainOn s = true) (hlock : s.chain.upLock = false) :
    exec (.symbolLock .up) s = .next (outUp (idleOf .up) { freshEcho s with
      chain := { s.chain with upLock := true, upKnown := false, upPartner := .none, upMiswire := false } }) := by
  have hgo : (!chainOn s || portLock .up s) = false := by simp [hon, portLock, hlock]
  change execSymbolLock _ _ = _
  simp only [execSymbolLock, symbolLock, hgo, Bool.false_eq_true, if_false]
  exact congrArg Host.Outcome.next (idleSend_locked (p := .up) rfl hon)

theorem symbolLock_dn {s : State} (hon : chainOn s = true) (hlock : s.chain.dnLock = false) :
    exec (.symbolLock .dn) s = .next (outDown (idleOf .dn) { s with
      chain := { s.chain with dnLock := true, dnKnown := false, dnPartner := false, dnMiswire := false } }) := by
  have hgo : (!chainOn s || portLock .dn s) = false := by simp [hon, portLock, hlock]
  change execSymbolLock _ _ = _
  simp only [execSymbolLock, symbolLock, hgo, Bool.false_eq_true, if_false]
  exact congrArg Host.Outcome.next (idleSend_locked (p := .dn) rfl hon)

theorem idleSend_due {p : ChainPort} {s : State} (hon : chainOn s = true) (hlock : portLock p s = true) :
    exec (.idleSend p) s = .next (putLine p (idleOf p) (advanceTo (busyTo p s + 80000) s)) := by
  have hsend : idleSend p (advanceTo (busyTo p s + 80000) s) =
      putLine p (idleOf p) (advanceTo (busyTo p s + 80000) s) := by
    refine idleSend_locked ?_ hon
    cases p <;> simpa [portLock] using hlock
  change execIdleSend _ _ = _
  simp [execIdleSend, hlock, hon, hsend]

/-- The state in which an UP partner is known. -/
def partnered (p : Partner) (s : State) : State := { s with chain := { s.chain with upKnown := true, upPartner := p } }

theorem idle_listens {s : State} (hon : chainOn s = true) (hlock : s.chain.upLock = true)
    (hnone : s.chain.upPartner = .none) : (!portLock .up s || !chainOn s) = false ∧
    (s.chain.upKnown && s.chain.upPartner != .none) = false := by
  simp [portLock, hlock, hon, hnone]

theorem idleFrame_upPartner {i : IdleInfo} {s : State} (hon : chainOn s = true) (hlock : s.chain.upLock = true)
    (hnone : s.chain.upPartner = .none) (hq : upPartnerOf i ≠ .none) :
    idleFrame .up i s = ensureTimebase (chooseRef (partnered (upPartnerOf i) s)) := by
  obtain ⟨hgo, hnew⟩ := idle_listens hon hlock hnone
  simp only [idleFrame, hgo, hnew, Bool.false_eq_true, if_false, if_neg hq]
  rfl

theorem idleFrame_upMiswired {i : IdleInfo} {s : State} (hon : chainOn s = true) (hlock : s.chain.upLock = true)
    (hnone : s.chain.upPartner = .none) (hq : upPartnerOf i = .none) : idleFrame .up i s =
      if s.chain.upMiswire then { s with chain := { s.chain with upKnown := true, upMiswire := true } }
      else miswire .up { s with chain := { s.chain with upKnown := true, upMiswire := true } } := by
  obtain ⟨hgo, hnew⟩ := idle_listens hon hlock hnone
  simp only [idleFrame, hgo, hnew, Bool.false_eq_true, if_false, hq, if_true]

theorem upIdleDecides {i : IdleInfo} {s : State} (hon : chainOn s = true) (hlock : s.chain.upLock = true)
    (hnone : s.chain.upPartner = .none) :
    (upPartnerOf i ≠ .none → Completes (.idleFrame .up i) s fun t =>
      t.chain = { s.chain with upKnown := true, upPartner := upPartnerOf i } ∧ t.modes = s.modes ∧ t.out = s.out) ∧
    (upPartnerOf i = .none → Completes (.idleFrame .up i) s fun t =>
      t.chain = { s.chain with upKnown := true, upMiswire := true } ∧
      (s.chain.upMiswire = false → s.ev.host.length < 64 → Held .host 0x0301 0xFF t) ∧
      (s.chain.upMiswire = true → t.ev = s.ev)) := by
  refine ⟨fun hq => ⟨dropClaim (idleFrame .up i s), rfl, ?_⟩, fun hq => ⟨dropClaim (idleFrame .up i s), rfl, ?_⟩⟩
  · rw [idleFrame_upPartner hon hlock hnone hq]
    simp [partnered]
  · rw [idleFrame_upMiswired hon hlock hnone hq]
    cases hm : s.chain.upMiswire
    · simp only [Bool.false_eq_true, if_false, Held, dropClaim_frame, miswire]
      exact ⟨by simp, fun _ hroom => held_note_host _ _ _ _ hroom, nofun⟩
    · simp

theorem dnIdleDecides {i : IdleInfo} {s : State} (hon : chainOn s = true) (hlock : s.chain.dnLock = true)
    (hnone : s.chain.dnPartner = false) :
    (i.generation = 1 → i.port = 0 → Completes (.idleFrame .dn i) s fun t =>
      t.chain = { s.chain with dnKnown := true, dnPartner := true, dnGained := true
                               fullDue := s.chain.fullDue || !s.chain.dnGained } ∧ Only [.chain, .pkt, .canA] s t) ∧
    (i.generation ≠ 1 ∨ i.port ≠ 0 → Completes (.idleFrame .dn i) s fun t =>
      t.chain = { s.chain with dnKnown := true, dnMiswire := true } ∧
      (s.chain.dnMiswire = false → s.ev.host.length < 64 → Held .host 0x0301 0xFF t)) := by
  refine ⟨fun hgen hport => ⟨dropClaim (idleFrame .dn i s), rfl, ?_, fun p hp => ?_⟩,
    fun hbad => ⟨dropClaim (idleFrame .dn i s), rfl, ?_⟩⟩
  · simp [idleFrame, portLock, hlock, hon, hnone, hgen, hport]
  · have hstep : idleFrame .dn i s = { s with chain := { s.chain with
        dnKnown := true, dnPartner := true, fullDue := s.chain.fullDue || !s.chain.dnGained, dnGained := true } } := by
      simp [idleFrame, portLock, hlock, hon, hnone, hgen, hport]
    rw [hstep]
    clear hstep
    cases p <;> simp_all [same]
  · have hbad' : (i.generation != 1 || i.port != 0) = true := by simpa using hbad
    have hgo : (!portLock .dn s || !chainOn s) = false ∧ (s.chain.dnKnown && s.chain.dnPartner) = false := by
      simp [portLock, hlock, hon, hnone]
    have hstep : idleFrame .dn i s =
        if s.chain.dnMiswire then { s with chain := { s.chain with dnKnown := true, dnMiswire := true } }
        else miswire .dn { s with chain := { s.chain with dnKnown := true, dnMiswire := true } } := by
      simp only [idleFrame, hgo, hbad', Bool.false_eq_true, if_false, if_true]
    rw [hstep]
    cases hm : s.chain.dnMiswire
    · simp only [Bool.false_eq_true, if_false, Held, dropClaim_frame, miswire]
      exact ⟨by simp, fun _ hroom => held_note_host _ _ _ _ hroom⟩
    · simp

theorem partnerTimeouts (s : State) :
    (s.chain.upLock = true → s.chain.upKnown = false → Completes (.partnerTimeout .up) s fun t =>
      t.chain = { s.chain with upKnown := true } ∧ Only [.free, .clk, .chain, .pkt, .canA] s t) ∧
    (s.chain.dnLock = true → s.chain.dnKnown = false → Completes (.partnerTimeout .dn) s fun t =>
      t.chain = { s.chain with dnKnown := true } ∧ Only [.chain, .pkt, .canA] s t) := by
  refine ⟨fun hlock hunknown => ⟨dropClaim (partnerTimeout .up s), rfl, ?_, fun p hp => ?_⟩,
    fun hlock hunknown => ⟨dropClaim (partnerTimeout .dn s), rfl, ?_, fun p hp => ?_⟩⟩
  · simp [partnerTimeout, portLock, hlock, hunknown]
  · cases p <;> simp_all [same]
  · simp [partnerTimeout, portLock, hlock, hunknown]
  · have hstep : partnerTimeout .dn s = { s with chain := { s.chain with dnKnown := true } } := by
      simp [partnerTimeout, portLock, hlock, hunknown]
    rw [hstep]
    clear hstep
    cases p <;> simp_all [same]

/-! ## Lock is lost (R88, R114) -/

/-- What a break at the UP port leaves for the island it makes. -/
def broken (s : State) : Bool × Partner × Bool × BitVec 16 × Bool × Frame48 :=
  (s.chain.upLock, s.chain.upPartner, s.chain.upKnown, s.chain.upBreaks, s.chain.island, s.chain.breakFrame)

theorem broken_of_chain {s t : State} (h : t.chain = s.chain) : broken t = broken s := by rw [broken, h, broken]

theorem broken_of_standing {s t : State} (h : standing t = standing s) : broken t = broken s := by
  simp only [broken, standing_fields h]

theorem broken_dropWalk (s : State) : broken (dropWalk s) = broken s := by
  unfold dropWalk
  split
  · rfl
  · dsimp only
    split
    · exact (broken_of_standing (standing_reply _ _ _)).trans rfl
    · rfl

theorem broken_duePolicy (s : State) : broken (duePolicy s) = broken s := by
  unfold duePolicy
  split
  · split
    · exact (broken_of_chain (hostClay_frame _ _).2.2.2.2.2.1).trans rfl
    · rfl
  · rfl

theorem broken_islandFrom (s : State) : broken (islandFrom s) =
    (s.chain.upLock, s.chain.upPartner, s.chain.upKnown, s.chain.upBreaks, true, now s) := by
  have hclk : (dropWalk s).clk = s.clk := by simp
  have hwalk := broken_dropWalk s
  unfold islandFrom
  extract_lets w due c v u
  have hv : broken v = (s.chain.upLock, s.chain.upPartner, s.chain.upKnown, s.chain.upBreaks, true, now s) := by
    simp only [broken, Prod.mk.injEq] at hwalk
    obtain ⟨h1, h2, h3, h4, -⟩ := hwalk
    simp only [broken, v, c, w, h1, h2, h3, h4, now, hclk]
  have hu : broken u = broken v :=
    (broken_duePolicy _).trans (broken_of_chain (by simp))
  refine Eq.trans ?_ (hu.trans hv)
  exact (broken_of_standing (standing_insertTime _)).trans (broken_of_chain (by simp))

theorem upLockLost {s : State} (hlock : s.chain.upLock = true) : Completes (.symbolLockLoss .up) s fun t =>
    t.chain.upLock = false ∧ t.chain.upPartner = .none ∧ t.chain.upKnown = false ∧
    t.chain.upBreaks = satInc s.chain.upBreaks ∧
    (s.chain.upPartner ≠ .none → t.chain.island = true ∧ t.chain.breakFrame = now s) ∧
    (s.chain.upPartner = .none → t.chain.island = s.chain.island ∧ t.modes = s.modes ∧ t.out = s.out) := by
  let c : Chain := { s.chain with
    upLock := false, upPartner := .none, upKnown := false, upMiswire := false, upBreaks := satInc s.chain.upBreaks
    errUp := { s.chain.errUp with code := satAdd s.chain.errUp.code (Config.freeTicks s.free % 256) }, claim := none }
  let v : State := freshEcho { draw s with chain := c }
  have hstep : symbolLockLoss .up s = if s.chain.upPartner = .none then chooseRef v else islandFrom v := by
    simp only [symbolLockLoss, portLock, hlock, Bool.not_true, Bool.false_eq_true, if_false]
    rfl
  have hchain (t : State) (h : (dropClaim t).chain = t.chain) : broken (dropClaim t) = broken t := broken_of_chain h
  have hnow : now v = now s := rfl
  refine ⟨dropClaim (symbolLockLoss .up s), rfl, ?_⟩
  have hbroken := hchain (symbolLockLoss .up s) (by simp)
  by_cases hp : s.chain.upPartner = .none
  · rw [hstep, if_pos hp] at hbroken ⊢
    rw [broken_of_chain (t := chooseRef v) (s := v) (by simp)] at hbroken
    simp only [broken, Prod.mk.injEq] at hbroken
    obtain ⟨h1, h2, h3, h4, h5, -⟩ := hbroken
    exact ⟨h1, h2, h3, h4, fun hne => absurd hp hne, fun _ => ⟨h5, by simp [v, freshEcho], by simp [v, freshEcho]⟩⟩
  · rw [hstep, if_neg hp] at hbroken ⊢
    rw [broken_islandFrom, hnow] at hbroken
    simp only [broken, Prod.mk.injEq] at hbroken
    obtain ⟨h1, h2, h3, h4, h5, h6⟩ := hbroken
    exact ⟨h1, h2, h3, h4, fun _ => ⟨h5, h6⟩, fun he => absurd he hp⟩

theorem mem_insertBy {α : Type} (r : α → α → Bool) (x : α) (l : List α) : x ∈ insertBy r x l := by
  induction l with
  | nil => simp [insertBy]
  | cons a l ih =>
    unfold insertBy
    split
    · exact List.mem_cons_self
    · exact List.mem_cons_of_mem a ih

theorem mem_queueUp (f : ChainFrame) (s : State) :
    ∃ x ∈ (queueUp f s).chain.rg5 ++ (queueUp f s).chain.rg5Held, x.frame = f := by
  refine ⟨{ since := s.clk.tb.toNat, frame := f }, ?_, rfl⟩
  simp only [queueUp]
  split
  · simp
  · exact List.mem_append_right _ (mem_insertBy ..)

theorem dnLockLost {s : State} (hlock : s.chain.dnLock = true) : Completes (.symbolLockLoss .dn) s fun t =>
    t.chain.dnLock = false ∧ t.chain.dnPartner = false ∧ t.chain.dnKnown = false ∧
    t.chain.dnBreaks = satInc s.chain.dnBreaks ∧ t.chain.island = s.chain.island ∧
    (s.chain.dnPartner = true → isHead s = true → s.chain.island = false → s.ev.host.length < 64 →
      Held .host 0x0304 0xFF t) ∧
    (s.chain.dnPartner = true → isHead s = false → s.chain.island = false → hcoreRuns s = true →
      ∃ x ∈ t.chain.rg5 ++ t.chain.rg5Held, x.frame = upFrame 6 (breakPacket s) s) ∧
    Only [.free, .barr, .chain, .pkt, .canA, .ev] s t := by
  let v : State := { draw s with chain := { s.chain with
    dnLock := false, dnPartner := false, dnKnown := false, dnMiswire := false, dnBreaks := satInc s.chain.dnBreaks
    errDn := { s.chain.errDn with code := satAdd s.chain.errDn.code (Config.freeTicks s.free % 256) } } }
  have hstep : symbolLockLoss .dn s = if !s.chain.dnPartner || s.chain.island then v
      else if isHead s then chainBreak v.chain.hop.toNat v
      else if hcoreRuns s then queueUp (upFrame 6 (breakPacket s) s) v else v := by
    simp only [symbolLockLoss, portLock, hlock, Bool.not_true, Bool.false_eq_true, if_false]
    rfl
  have hfields (t : State) (h : standing t = standing v) : t.chain.dnLock = false ∧ t.chain.dnPartner = false ∧
      t.chain.dnKnown = false ∧ t.chain.dnBreaks = satInc s.chain.dnBreaks ∧ t.chain.island = s.chain.island := by
    simp [standing_fields h, v]
  have hst : standing (symbolLockLoss .dn s) = standing v := by
    rw [hstep]
    split
    · rfl
    · split
      · exact standing_of_chain (by simp)
      · split
        · exact standing_queueUp _ v
        · rfl
  have honly : Only [.free, .barr, .chain, .pkt, .canA, .ev] s (symbolLockLoss .dn s) := by
    have hv : Only [.free, .barr, .chain, .pkt, .canA, .ev] s v := fun p hp => by
      clear hstep hfields hst
      cases p <;> simp_all [same, v]
    have hbreak : Only [.free, .barr, .chain, .pkt, .canA, .ev] v (chainBreak v.chain.hop.toNat v) := fun p hp => by
      clear hv hstep hfields hst
      cases p <;> simp_all [same]
    have hqueue : Only [.free, .barr, .chain, .pkt, .canA, .ev] v (queueUp (upFrame 6 (breakPacket s) s) v) :=
      fun p hp => by
        clear hv hbreak hstep hfields hst
        cases p <;> simp_all [same]
    rw [hstep]
    split
    · exact hv
    · split
      · exact only_trans hv hbreak
      · split
        · exact only_trans hv hqueue
        · exact hv
  have hdrop : Only [.free, .barr, .chain, .pkt, .canA, .ev] (symbolLockLoss .dn s)
      (dropClaim (symbolLockLoss .dn s)) := fun p hp => by
    clear honly hst hfields hstep
    cases p <;> simp_all [same]
  have hchain : (dropClaim (symbolLockLoss .dn s)).chain = (symbolLockLoss .dn s).chain := by simp
  have hev : (dropClaim (symbolLockLoss .dn s)).ev = (symbolLockLoss .dn s).ev := by simp
  obtain ⟨h1, h2, h3, h4, h5⟩ := hfields _ hst
  refine ⟨dropClaim (symbolLockLoss .dn s), rfl, ?_⟩
  simp only [Held, hev, hchain]
  refine ⟨h1, h2, h3, h4, h5, fun hp hhead hmain hroom => ?_, fun hp hmember hmain hrun => ?_, only_trans honly hdrop⟩
  · have hbreak : symbolLockLoss .dn s = chainBreak v.chain.hop.toNat v := by simp [hstep, hp, hhead, hmain]
    rw [hbreak]
    exact held_note_host _ _ _ _ hroom
  · have hqueue : symbolLockLoss .dn s = queueUp (upFrame 6 (breakPacket s) s) v := by
      simp [hstep, hp, hmember, hmain, hrun]
    rw [hqueue]
    exact mem_queueUp _ v

/-- Settles O30: the locks, IDLEs and timeouts by the branches of their commands, and the breaks of the two ports. -/
theorem partnersAppearAndGo : Obligations.PartnersAppearAndGo := by
  unfold Obligations.PartnersAppearAndGo
  intro s hon
  exact ⟨symbolLock_up hon, symbolLock_dn hon, fun p => idleSend_due hon, fun i => upIdleDecides hon,
    fun i => dnIdleDecides hon, (partnerTimeouts s).1, (partnerTimeouts s).2, upLockLost, dnLockLost⟩

end Sys2Proof.Proofs

/-! Frames pass through the node and name it. -/

namespace Sys2Proof.Proofs

open Sys2Proof.Machine Sys2Proof.Safety Sys2Proof.Laws

/-! ## Arrival and forwarding (R93 to R96) -/

theorem standing_forwardOn (p : ChainPort) (f : ChainFrame) (s : State) : standing (forwardOn p f s) = standing s := by
  unfold forwardOn
  split
  · rfl
  · cases p with
    | up => exact standing_sendDown _ s
    | dn =>
      dsimp only
      unfold sendUp
      split <;> rfl

theorem standing_arrive (p : ChainPort) (f : ChainFrame) (s : State) :
    standing (arrive p f s) = standing (countOn p f.crc (frameOk p f) s) := standing_forwardOn ..

/-- What the arrival of a frame leaves of the chain side. -/
theorem arrive_keeps (p : ChainPort) (f : ChainFrame) (s : State) :
    (arrive p f s).chain.upLock = s.chain.upLock ∧ (arrive p f s).chain.upPartner = s.chain.upPartner ∧
    (arrive p f s).chain.dnPartner = s.chain.dnPartner ∧ (arrive p f s).chain.island = s.chain.island ∧
    (arrive p f s).chain.addr = s.chain.addr ∧ (arrive p f s).chain.addrValid = s.chain.addrValid ∧
    (arrive p f s).chain.chainId = s.chain.chainId ∧ (arrive p f s).chain.hop = s.chain.hop ∧
    (arrive p f s).chain.rg4 = s.chain.rg4 ∧ (arrive p f s).chain.marlLast = s.chain.marlLast ∧
    (arrive p f s).chain.marlCount = s.chain.marlCount ∧ (arrive p f s).chain.dnLock = s.chain.dnLock := by
  have h := standing_arrive p f s
  cases p <;> simp only [standing_fields h, countOn, and_self]

theorem only_chain (c : Chain) (s : State) : Only [.chain] s { s with chain := c } := fun p hp => by
  cases p <;> simp_all [same]

theorem only_arrive (p : ChainPort) (f : ChainFrame) (s : State) : Only [.chain] s (arrive p f s) := fun q hq => by
  cases q <;> simp_all [same]

theorem passed_crc (f : ChainFrame) : passed f = { f with crc := if f.crc = .good then .good else .stomped } := rfl

theorem arrive_up (f : ChainFrame) (s : State) :
    (arrive .up f s).chain.errUp = countFrame f.crc (frameOk .up f) s.chain.errUp ∧
    (arrive .up f s).chain.dnLine = (if f.sdl = false ∧ s.chain.upPartner ≠ .none ∧ s.chain.dnPartner = true then
      some { f with crc := if f.crc = .good then .good else .stomped } else s.chain.dnLine) := by
  refine ⟨by simp only [standing_fields (standing_arrive .up f s), countOn], ?_⟩
  unfold arrive forwardOn sendDown
  cases hs : f.sdl <;> cases hu : s.chain.upPartner <;> cases hd : s.chain.dnPartner <;>
    simp [portPartner, countOn, hs, hu, hd, outDown, passed_crc]

theorem arrive_dn (f : ChainFrame) (s : State) :
    (arrive .dn f s).chain.errDn = countFrame f.crc (frameOk .dn f) s.chain.errDn ∧
    (arrive .dn f s).chain.upLine = (if f.sdl = false ∧ s.chain.dnPartner = true ∧ s.chain.upLock = true ∧
        s.chain.upPartner ≠ .none
      then some { f with crc := if f.crc = .good then .good else .stomped } else s.chain.upLine) := by
  refine ⟨by simp only [standing_fields (standing_arrive .dn f s), countOn], ?_⟩
  unfold arrive forwardOn sendUp
  cases hs : f.sdl <;> cases hu : s.chain.upPartner <;> cases hd : s.chain.dnPartner <;>
    cases hl : s.chain.upLock <;> simp [portPartner, countOn, hs, hu, hd, hl, outUp, passed_crc]

theorem exec_frameForward {p : ChainPort} {f : ChainFrame} {s : State} (hon : chainOn s = true)
    (hlock : portLock p s = true) : exec (.frameForward p f) s = .next (arrive p f s) :=
  congrArg Host.Outcome.next (if_pos (by rw [portUp, hon, hlock]; rfl))

/-- A frame that is dropped by no rule counts nothing. -/
theorem countOn_good (p : ChainPort) (s : State) : countOn p .good true s = s := by
  cases p <;> rfl

theorem domOn_arrive (p : ChainPort) (f : ChainFrame) (d : Fin 18) (s : State) :
    domOn (arrive p f s) d = domOn s d := by simp [domOn]

theorem hcoreRuns_arrive (p : ChainPort) (f : ChainFrame) (s : State) :
    hcoreRuns (arrive p f s) = hcoreRuns s := by simp [hcoreRuns, domOn, clockOn]

/-! ## Commands (R98, R99) -/

theorem portUp_up {s : State} (hon : chainOn s = true) (hlock : s.chain.upLock = true) : portUp .up s = true := by
  simp [portUp, hon, portLock, hlock]

theorem portUp_dn {s : State} (hon : chainOn s = true) (hlock : s.chain.dnLock = true) : portUp .dn s = true := by
  simp [portUp, hon, portLock, hlock]

/-- A CMD frame at a member: it enters RG4 where the node acts on it and is named. -/
theorem cmdFrame_member {f : ChainFrame} {s : State} (hon : chainOn s = true) (hlock : s.chain.upLock = true)
    (hnode : s.chain.upPartner = .node) (htype : f.ftype = 4) : cmdFrame f s =
      if f.crc = .good ∧ frameOk .up f = true ∧ consumes f s = true
      then drainCmds (enterRing f (arrive .up f s)) else arrive .up f s := by
  obtain ⟨-, hpartner, -, -, haddr, hvalid, hid, hhop, -⟩ := arrive_keeps .up f s
  have hgo : (!portUp .up s || f.ftype != 4) = false := by simp [portUp_up hon hlock, htype]
  have hacts : actsHere .up f (arrive .up f s) = (decide (f.crc = .good) && frameOk .up f) := by
    have hne : (Partner.node != Partner.none) = true := rfl
    simp [actsHere, portPartner, hpartner, hnode, hne]
  have hmember : isHead (arrive .up f s) = false := by simp [isHead, hpartner, hnode]
  have hnames : consumes f (arrive .up f s) = consumes f s := by
    simp only [consumes, haddr, hvalid, hid, hhop]
  simp only [cmdFrame, hgo, hacts, hmember, hnames, Bool.false_eq_true, if_false, Bool.false_and]
  by_cases hcrc : f.crc = .good <;> cases hok : frameOk .up f <;> cases hc : consumes f s <;> simp [hcrc]

/-- The frame's entry of RG4. -/
def ringed (f : ChainFrame) (s : State) : RingFrame := { tb := s.clk.tb, frame := f }

theorem enterRing_room {f : ChainFrame} {s : State} (hdom : domOn s 1 = true) (hroom : s.chain.rg4.length < 256) :
    enterRing f s = { s with chain := { s.chain with rg4 := s.chain.rg4 ++ [ringed f s] } } := by
  simp only [enterRing, hdom, Bool.not_true, Bool.false_eq_true, if_false, if_neg (Nat.not_le.mpr hroom)]
  rfl

theorem drainCmds_halted {s : State} (h : hcoreRuns s = false) : drainCmds s = s := by
  have hkeep (l : List Nat) : l.foldl (fun s _ => serveEntry s) s = s := by
    induction l with
    | nil => rfl
    | cons n l ih =>
      have hserve : serveEntry s = s := by
        unfold serveEntry
        split
        · rfl
        · simp [h]
      rw [List.foldl_cons, hserve]
      exact ih
  exact hkeep _

theorem drainCmds_one {e : RingFrame} {s : State} (hring : s.chain.rg4 = [e]) (hrun : hcoreRuns s = true)
    (hmember : isHead s = false) : drainCmds s =
      takeBytes (.chain e.frame.origHop) e.frame.payload { s with chain := { s.chain with rg4 := [] } } := by
  have hempty : dropFirst (fun x => x == e) [e] = [] := by simp [dropFirst]
  have hmember' : isHead { s with chain := { s.chain with rg4 := [] } } = false := hmember
  simp [drainCmds, hring, serveEntry, nextEntry, hrun, hmember', hempty]

theorem cmdFrame_ignored {f : ChainFrame} {s : State} (hon : chainOn s = true) (hlock : s.chain.upLock = true)
    (hnode : s.chain.upPartner = .node) (htype : f.ftype = 4)
    (h : f.crc ≠ .good ∨ frameOk .up f = false ∨ consumes f s = false) :
    exec (.cmdFrame f) s = .next (arrive .up f s) := by
  refine congrArg Host.Outcome.next ((cmdFrame_member hon hlock hnode htype).trans (if_neg ?_))
  rintro ⟨hcrc, hok, hnames⟩
  rcases h with h | h | h
  · exact h hcrc
  · simp [hok] at h
  · simp [hnames] at h

theorem cmdFrame_waits {f : ChainFrame} {s : State} (hon : chainOn s = true) (hlock : s.chain.upLock = true)
    (hnode : s.chain.upPartner = .node) (htype : f.ftype = 4) (hcrc : f.crc = .good) (hok : frameOk .up f = true)
    (hnames : consumes f s = true) (hdom : domOn s 1 = true) (hhalt : hcoreRuns s = false)
    (hroom : s.chain.rg4.length < 256) : Completes (.cmdFrame f) s fun t =>
      t.chain.rg4 = s.chain.rg4 ++ [{ tb := s.clk.tb, frame := f }] ∧
      t.chain.dnLine = (arrive .up f s).chain.dnLine ∧ Only [.chain] s t := by
  obtain ⟨-, -, -, -, -, -, -, -, hring, -⟩ := arrive_keeps .up f s
  have honly := only_arrive .up f s
  have hrun := hcoreRuns_arrive .up f s
  have hstep : cmdFrame f s = drainCmds (enterRing f (arrive .up f s)) :=
    (cmdFrame_member hon hlock hnode htype).trans (if_pos ⟨hcrc, hok, hnames⟩)
  rw [enterRing_room ((domOn_arrive ..).trans hdom) (by rw [hring]; exact hroom)] at hstep
  have hclk : (arrive .up f s).clk = s.clk := honly .clk (by simp)
  generalize arrive .up f s = u at *
  have hdrained := hstep.trans (drainCmds_halted (hrun.trans hhalt))
  refine ⟨_, congrArg Host.Outcome.next hdrained, ?_, rfl, only_trans honly (only_chain _ u)⟩
  simp [hring, ringed, hclk]

theorem cmdFrame_served {f : ChainFrame} {s : State} (hon : chainOn s = true) (hlock : s.chain.upLock = true)
    (hnode : s.chain.upPartner = .node) (htype : f.ftype = 4) (hcrc : f.crc = .good) (hok : frameOk .up f = true)
    (hnames : consumes f s = true) (hdom : domOn s 1 = true) (hrun : hcoreRuns s = true) (hempty : s.chain.rg4 = []) :
    exec (.cmdFrame f) s = .next (takeBytes (.chain f.origHop) f.payload (arrive .up f s)) := by
  obtain ⟨-, hpartner, -, -, -, -, -, -, hring, -⟩ := arrive_keeps .up f s
  have hrun' := hcoreRuns_arrive .up f s
  have hmember : isHead (arrive .up f s) = false := by simp [isHead, hpartner, hnode]
  have hstep : cmdFrame f s = drainCmds (enterRing f (arrive .up f s)) :=
    (cmdFrame_member hon hlock hnode htype).trans (if_pos ⟨hcrc, hok, hnames⟩)
  rw [hempty] at hring
  rw [enterRing_room ((domOn_arrive ..).trans hdom) (by simp [hring])] at hstep
  generalize arrive .up f s = u at *
  have hdrained := drainCmds_one (e := ringed f u)
    (s := { u with chain := { u.chain with rg4 := u.chain.rg4 ++ [ringed f u] } }) (by simp [hring])
    (hrun'.trans hrun) hmember
  have hback : ({ u with chain := { u.chain with rg4 := [] } } : State) = u := by rw [← hring]
  exact congrArg Host.Outcome.next ((hstep.trans hdrained).trans (congrArg _ hback))

/-! ## Replies and events at the head (R104, R114, R132) -/

theorem rplFrame_member {f : ChainFrame} {s : State} (hon : chainOn s = true) (hlock : s.chain.dnLock = true)
    (htype : f.ftype = 5) (hmember : isHead s = false) : exec (.rplFrame f) s = .next (arrive .dn f s) := by
  refine congrArg Host.Outcome.next ?_
  simp [rplFrame, portUp_dn hon hlock, htype, hmember]

theorem rplFrame_head {f : ChainFrame} {s : State} (hon : chainOn s = true) (hlock : s.chain.dnLock = true)
    (htype : f.ftype = 5) (hhead : isHead s = true) (hpartner : s.chain.dnPartner = true) (hcrc : f.crc = .good)
    (hok : frameOk .dn f = true) (hid : f.chainId = s.chain.chainId) (hrun : hcoreRuns s = true) :
    exec (.rplFrame f) s = .next (returnReply f s) := by
  refine congrArg Host.Outcome.next ?_
  have hgo : (!portUp .dn s || f.ftype != 5) = false := by simp [portUp_dn hon hlock, htype]
  have hacts : (actsHere .dn f s && f.chainId == s.chain.chainId && hcoreRuns s) = true := by
    simp [actsHere, portPartner, hpartner, hcrc, hok, hid, hrun]
  simp only [rplFrame, hgo, hhead, hcrc, hok, countOn_good, hacts, Bool.false_eq_true, if_false, Bool.not_true,
    if_true]

theorem returnReply_known {f : ChainFrame} {p : Packet} {o : Origin} {s : State} (hp : parsePacket f.payload = some p)
    (ho : s.chain.origins.find? (fun o => o.seq == p.seq && o.src == p.dest) = some o) :
    returnReply f s = routeReply o.via p s := by
  simp only [returnReply, hp, ho]

theorem returnReply_unknown {f : ChainFrame} {p : Packet} {s : State} (hp : parsePacket f.payload = some p)
    (ho : s.chain.origins.find? (fun o => o.seq == p.seq && o.src == p.dest) = none) (hup : s.chain.upPartner = .none) :
    returnReply f s = { s with pkt := { s.pkt with
      chain := { s.pkt.chain with drop := satInc s.pkt.chain.drop } } } := by
  simp [returnReply, hp, ho, hup]

theorem evtFrame_ignored {f : ChainFrame} {s : State} (hon : chainOn s = true) (hlock : s.chain.dnLock = true)
    (htype : f.ftype = 6) (h : isHead s = false ∨ hcoreRuns s = false) :
    exec (.evtFrame f) s = .next (arrive .dn f s) := by
  refine congrArg Host.Outcome.next ?_
  have hhead : isHead (arrive .dn f s) = isHead s := by simp only [isHead, arrive_keeps]
  have hstop : (!(isHead (arrive .dn f s) && actsHere .dn f (arrive .dn f s) &&
      f.chainId == (arrive .dn f s).chain.chainId && hcoreRuns (arrive .dn f s))) = true := by
    rw [hhead, hcoreRuns_arrive]
    rcases h with h | h <;> simp [h]
  have hgo : (!portUp .dn s || f.ftype != 6) = false := by simp [portUp_dn hon hlock, htype]
  simp only [evtFrame, hgo, hstop, Bool.false_eq_true, if_false, if_true]

theorem evtFrame_break {f : ChainFrame} {p : Packet} {hop : Nat} {s : State} (hon : chainOn s = true)
    (hlock : s.chain.dnLock = true) (htype : f.ftype = 6) (hhead : isHead s = true) (hmain : islandHead s = false)
    (hrun : hcoreRuns s = true) (hpartner : s.chain.dnPartner = true) (hcrc : f.crc = .good)
    (hok : frameOk .dn f = true) (hid : f.chainId = s.chain.chainId) (hp : parsePacket f.payload = some p)
    (hbreak : breakReport p = some hop) : exec (.evtFrame f) s = .next (chainBreak hop (arrive .dn f s)) := by
  refine congrArg Host.Outcome.next ?_
  have hgo : (!portUp .dn s || f.ftype != 6) = false := by simp [portUp_dn hon hlock, htype]
  have hhead' : isHead (arrive .dn f s) = true := by simpa only [isHead, arrive_keeps] using hhead
  have hmain' : islandHead (arrive .dn f s) = false := by simpa only [islandHead, arrive_keeps] using hmain
  have hacts : actsHere .dn f (arrive .dn f s) = true := by
    simp [actsHere, portPartner, arrive_keeps, hpartner, hcrc, hok]
  have hid' : (f.chainId == (arrive .dn f s).chain.chainId) = true := by simp [arrive_keeps, hid]
  have hcode : (p.opcode == 0x49) = false := by
    unfold breakReport at hbreak
    cases hc : p.opcode == 0x49
    · rfl
    · have : p.opcode = 0x49 := by simpa using hc
      simp [this] at hbreak
  simp only [evtFrame, hgo, hhead', hacts, hid', hcoreRuns_arrive, hrun, hp, hcode, hbreak, hmain', Bool.false_eq_true,
    if_false, Bool.and_self, Bool.not_true, Option.isSome_some, if_true, Option.getD_some]

/-! ## Own frames (R97, R99) -/

/-- What an own frame that leaves UP at tick t leaves behind. -/
def Leaves (x : OwnFrame) (at' : Nat) (s t : State) : Prop :=
  t.chain.rg5 = dropFirst (fun y => y == x) s.chain.rg5 ++ s.chain.rg5Held.take 1 ∧
  t.chain.rg5Held = s.chain.rg5Held.drop 1 ∧ t.chain.upLine = some x.frame ∧
  t.clk = (advanceTo at' s).clk ∧ Only [.clk, .barr, .chain] s t

theorem insertFrame_leaves {s : State} (x : OwnFrame) (at' : Nat) (hlock : s.chain.upLock = true)
    (hpartner : s.chain.upPartner ≠ .none) : Leaves x at' s (insertFrame x (advanceTo at' s)) := by
  have hsend : insertFrame x (advanceTo at' s) = outUp x.frame { advanceTo at' s with chain := { s.chain with
      rg5 := dropFirst (fun y => y == x) s.chain.rg5 ++ s.chain.rg5Held.take 1
      rg5Held := s.chain.rg5Held.drop 1 } } := if_pos (by simpa [advanceTo, advance, hlock] using hpartner)
  have honly : Only [.clk, .barr, .chain] s (insertFrame x (advanceTo at' s)) := fun p hp => by
    clear hsend
    cases p <;> simp_all [same]
  refine ⟨?_, ?_, ?_, by simp, honly⟩ <;> rw [hsend] <;> rfl

theorem ownFrames_leave {x : OwnFrame} {s : State} (hon : chainOn s = true) (hlock : s.chain.upLock = true)
    (hpartner : s.chain.upPartner ≠ .none) :
    (firstFrame s.chain.rg5 = some x → Completes .ownFrameInsert s (Leaves x s.chain.upBusyTo s)) ∧
    (firstDue s.chain.rg5 = some x →
      Completes .insertWaitExpiry s (Leaves x (max (waitEnd x) s.chain.upBusyTo) s)) := by
  have hmay : mayInsert s = true := by simp [mayInsert, hon, hlock, hpartner]
  refine ⟨fun hx => ⟨insertFrame x (advanceTo s.chain.upBusyTo s), congrArg Host.Outcome.next ?_,
    insertFrame_leaves x _ hlock hpartner⟩, fun hx => ⟨insertFrame x (advanceTo (max (waitEnd x) s.chain.upBusyTo) s),
    congrArg Host.Outcome.next ?_, insertFrame_leaves x _ hlock hpartner⟩⟩
  · simp only [insertOwn, hmay, hx, Bool.not_true, Bool.false_eq_true, if_false]
  · simp only [insertDue, hmay, hx, Bool.not_true, Bool.false_eq_true, if_false]

/-! ## MARL frames (R119, R163) -/

/-- The count of consecutive frames of one pattern that name the node, with the frame i. -/
def marlRun (i : MarlInfo) (s : State) : Nat :=
  if !(i.valid && ownChain i.hdr s && marlNames i s && bit (reg s 0x03002C) 0) then 0
  else if s.chain.marlLast = some i then s.chain.marlCount + 1 else 1

/-- A MARL frame is forwarded and counted. -/
def marlSeen (i : MarlInfo) (s : State) : State :=
  let u := arrive .up (marlOf i) s
  { u with chain := { u.chain with
    marlCount := marlRun i s, marlLast := if i.valid && ownChain i.hdr s then some i else none } }

theorem marlCount_seen {i : MarlInfo} {s : State} (hon : chainOn s = true) (hlock : s.chain.upLock = true)
    (hpartner : s.chain.upPartner ≠ .none) : marlCount i s = (marlSeen i s, marlRun i s == 4) := by
  have hgo : (!(portUp .up s && s.chain.upPartner != .none)) = false := by simp [portUp_up hon hlock, hpartner]
  have hreg (a : Nat) : reg (arrive .up (marlOf i) s) a = reg s a := by simp [reg]
  obtain ⟨-, -, -, -, haddr, hvalid, hid, -, -, hlast, hcount, -⟩ := arrive_keeps .up (marlOf i) s
  have hown : ownChain i.hdr (arrive .up (marlOf i) s) = ownChain i.hdr s := by rw [ownChain, hid, ownChain]
  have hnames : marlNames i (arrive .up (marlOf i) s) = marlNames i s := by rw [marlNames, haddr, hvalid, marlNames]
  simp only [marlCount, hgo, Bool.false_eq_true, if_false, hown, hnames, hreg, hlast, hcount]
  rfl

theorem marlFrame_seen {i : MarlInfo} {s : State} (hon : chainOn s = true) (hlock : s.chain.upLock = true)
    (hpartner : s.chain.upPartner ≠ .none) :
    (marlRun i s ≠ 4 → exec (.marlFrame i) s = .next (marlSeen i s)) ∧
    (marlRun i s = 4 → exec (.marlFrame i) s = .next (catchUp (wake .marl i.reason (marlSeen i s)))) := by
  refine ⟨fun hn => ?_, fun hn => ?_⟩ <;>
    (change execMarlFrame _ _ = _; simp [execMarlFrame, marlCount_seen hon hlock hpartner, hn])

theorem marlSend_done {q : Request} {s : State} (hon : chainOn s = true) (h : Accepted 0x13 q s)
    (hlen : (reqBody q).length = 6) (hall : (byteAt (reqBody q) 0).toNat ≤ 1) :
    Answers (.marlSend q) q s (sendPattern (marlInfo q)) {} := by
  have hdom : domOn (taken q s) 11 = true := by
    have : domOn s 11 = true := by simpa [chainOn] using (Bool.and_eq_true _ _ ▸ hon).1
    simpa [domOn] using this
  refine answers_of opMarlSend h rfl rfl ?_ ?_
  · simp [opMarlSend, lenIs_of hlen, param, hall]
  · simp [opMarlSend, guarded, hdom, done]

/-- Settles O31: each frame by the port it arrives on, what it is and whether the node is named, and MARL frames by the
count of their run. -/
theorem framesPassAndNameTheirNodes : Obligations.FramesPassAndNameTheirNodes := by
  unfold Obligations.FramesPassAndNameTheirNodes
  refine ⟨fun s f hon => ⟨fun hlock => ?_, fun hlock => ?_, fun hlock hnode htype => ⟨cmdFrame_ignored hon hlock hnode htype,
      fun hcrc hok hnames hdom => ⟨cmdFrame_waits hon hlock hnode htype hcrc hok hnames hdom,
        cmdFrame_served hon hlock hnode htype hcrc hok hnames hdom⟩⟩,
      fun hlock htype => ⟨rplFrame_member hon hlock htype, fun p hhead hpartner hcrc hok hid hrun hp => ?_⟩,
      fun hlock htype => ⟨fun hmember => evtFrame_ignored hon hlock htype (.inl hmember),
        fun _ hhalt => evtFrame_ignored hon hlock htype (.inr hhalt),
        fun p hop hhead hmain hrun hpartner hcrc hok hid =>
          evtFrame_break hon hlock htype hhead hmain hrun hpartner hcrc hok hid⟩,
      fun x hlock hpartner => ownFrames_leave hon hlock hpartner, rfl⟩,
    fun s hon => ⟨fun i hlock hpartner => marlFrame_seen hon hlock hpartner, fun q => marlSend_done hon⟩⟩
  · obtain ⟨hcount, hline⟩ := arrive_up f s
    exact ⟨_, exec_frameForward (p := .up) hon hlock, hcount, hline, only_arrive .up f s⟩
  · obtain ⟨hcount, hline⟩ := arrive_dn f s
    exact ⟨_, exec_frameForward (p := .dn) hon hlock, hcount, hline, only_arrive .dn f s⟩
  · have hexec := rplFrame_head hon hlock htype hhead hpartner hcrc hok hid hrun
    exact ⟨fun o ho => hexec.trans (congrArg _ (returnReply_known hp ho)),
      fun ho hup => hexec.trans (congrArg _ (returnReply_unknown hp ho hup))⟩

end Sys2Proof.Proofs

/-! The enumeration walk: the head, the claims of a member, the verdicts and the end. -/

namespace Sys2Proof.Proofs

open Sys2Proof.Machine Sys2Proof.Safety Sys2Proof.Laws

/-! ## What the parts of a walk do -/

theorem takeAddr_chain (a : BitVec 16) (valid : Bool) (id : BitVec 3) (s : State) : (takeAddr a valid id s).chain =
    { s.chain with addr := if valid then a else s.chain.addr, addrValid := valid, chainId := id } := by
  unfold takeAddr
  dsimp only
  split <;> simp

/-- A node in Clay takes its address without an event. -/
theorem takeAddr_inClay {a : BitVec 16} {valid : Bool} {id : BitVec 3} {s : State} (h : s.modes.clay = true) :
    takeAddr a valid id s = { s with chain := (takeAddr a valid id s).chain } := by
  simp [takeAddr, h]

/-- A node out of Clay whose address changes is in Clay with cause 3. -/
theorem takeAddr_changed {a : BitVec 16} {id : BitVec 3} {s : State} (h : s.modes.clay = false)
    (hnew : s.chain.addrValid = false ∨ s.chain.addr ≠ a) :
    (takeAddr a true id s).modes.clay = true ∧ (takeAddr a true id s).modes.active.getLsbD 3 = true := by
  have hchanged : ((s.chain.addrValid != true || (true && s.chain.addr != a)) && !s.modes.clay) = true := by
    rcases hnew with hv | ha
    · simp [hv, h]
    · simp [ha, h]
  rw [takeAddr, if_pos hchanged]
  simp [hostClay, h, cause]

theorem checkPlanner_chain (p : Byte) (s : State) :
    (checkPlanner p s).chain = { s.chain with headPlanner := some p } := by
  unfold checkPlanner
  dsimp only
  split <;> simp

theorem checkPlanner_same (s : State) :
    checkPlanner (planner s) s = { s with chain := { s.chain with headPlanner := some (planner s) } } := by
  have h : (planner s != planner { s with chain := { s.chain with headPlanner := some (planner s) } }) = false := by
    simp [planner, itemOr]
  rw [checkPlanner]
  simp only [h, Bool.false_eq_true, if_false]

theorem endIsland_chain (s : State) : (endIsland s).chain =
    { s.chain with island := false, islandTimer := none, policyExpired := false } := rfl

theorem standing_sendUp (f : ChainFrame) (s : State) : standing (sendUp f s) = standing s := by
  unfold sendUp; split <;> rfl

theorem standing_sendStart (r : Bool) (gen next : BitVec 16) (s : State) :
    standing (sendStart r gen next s) = standing s := by
  unfold sendStart
  split
  · rfl
  · exact standing_sendUp ..

theorem only_sendUp (f : ChainFrame) (s : State) : Only [.chain] s (sendUp f s) := fun p hp => by
  cases p <;> simp_all [same]

theorem only_sendStart (r : Bool) (gen next : BitVec 16) (s : State) :
    Only [.chain] s (sendStart r gen next s) := fun p hp => by
  cases p <;> simp_all [same]

/-- A frame of this node that leaves UP where a partner listens. -/
theorem sendUp_line {f : ChainFrame} {s : State} (hlock : s.chain.upLock = true) (hup : s.chain.upPartner ≠ .none) :
    (sendUp f s).chain.upLine = some f := by
  simp [sendUp, hlock, hup, outUp]

/-- START leaves DN where a partner listens. -/
theorem sendStart_line {r : Bool} {gen next : BitVec 16} {s : State} (h : s.chain.dnPartner = true) :
    (∃ f, (sendStart r gen next s).chain.dnLine = some f ∧ f.ftype = 3 ∧ f.sdl = true ∧ f.payload.headD 0xFF = 0) ∧
    (sendStart r gen next s).chain.upLine = s.chain.upLine := by
  rw [sendStart, if_pos h]
  exact ⟨⟨_, rfl, rfl, rfl, rfl⟩, rfl⟩

/-- A chain side without the frames under way. -/
def still (c : Chain) : Chain :=
  { c with rg5 := [], rg5Held := [], origins := [], upLine := none, dnLine := none, upBusyTo := 0, dnBusyTo := 0 }

/-- A change of the chain side that leaves the frames under way alone. -/
theorem standing_update {s t : State} (f : Chain → Chain) (h : standing t = standing s)
    (hf : ∀ c, still (f c) = f (still c) := by exact fun _ => rfl) :
    standing { t with chain := f t.chain } = standing { s with chain := f s.chain } :=
  ((hf t.chain).trans (congrArg f h)).trans (hf s.chain).symm

/-! ## The end of a walk (R109, R110, R163) -/

/-- The chain side of the head that has ended the walk w. -/
def walkDone (w : Walk) (c : Chain) : Chain :=
  { c with walk := none, walked := true, enumBusy := false, gen := w.gen, headAddr := c.addr }

/-- The head at the end of the walk w, before its reply and the end of an island. -/
def walkOver (w : Walk) (hop : BitVec 16) (stalled : Bool) (s : State) : State :=
  let u := sendDown (enumFrame 4 { recheck := w.recheck, gen := w.gen, hop := hop, addr := s.chain.addr,
                                   planner := planner s } 0 s) s
  let u := if stalled then note .host 0x0303 1 0xFF (be 2 hop.toNat) u else u
  { u with chain := walkDone w u.chain }

theorem walkOver_standing (w : Walk) (hop : BitVec 16) (stalled : Bool) (s : State) :
    standing (walkOver w hop stalled s) = standing { s with chain := walkDone w s.chain } := by
  unfold walkOver
  extract_lets u v
  have hv : standing v = standing s := by
    have hu : standing u = standing s := standing_sendDown _ s
    unfold v
    split
    · exact (standing_of_chain (by simp)).trans hu
    · exact hu
  exact standing_update (walkDone w) hv

theorem walkOver_planner (w : Walk) (hop : BitVec 16) (stalled : Bool) (s : State) :
    planner (walkOver w hop stalled s) = planner s := by
  have hfw : (walkOver w hop stalled s).fw = s.fw := by
    unfold walkOver
    dsimp only
    split <;> simp
  simp [planner, itemOr, hfw]

/-- The head at the end of the walk w, before its reply. -/
def walkEnded (w : Walk) (hop : BitVec 16) (stalled : Bool) (s : State) : State :=
  endIsland (checkPlanner (planner s) (walkOver w hop stalled s))

theorem walkEnded_eq (w : Walk) (hop : BitVec 16) (stalled : Bool) (s : State) : walkEnded w hop stalled s =
    endIsland { walkOver w hop stalled s with chain := { (walkOver w hop stalled s).chain with
      headPlanner := some (planner s) } } := by
  have h := checkPlanner_same (walkOver w hop stalled s)
  rw [walkOver_planner] at h
  rw [walkEnded, h]

/-- What is sent to the request that asked for the walk w. -/
def walkReply (w : Walk) (hop : BitVec 16) (s : State) : State :=
  match w.q with
  | none => s
  | some q => reply q { data := be 2 w.gen.toNat ++ be 2 hop.toNat ++ be 4 (chDup s).toNat } s

theorem endWalk_ended {w : Walk} {hop : BitVec 16} {stalled : Bool} {s : State} (h : s.chain.walk = some w) :
    endWalk hop stalled s = walkReply w hop (walkEnded w hop stalled s) := by
  have hend : endWalk hop stalled s = walkReply w hop
      (endIsland (checkPlanner (planner (walkOver w hop stalled s)) (walkOver w hop stalled s))) := by
    rw [endWalk, h]
    rfl
  rw [hend, walkOver_planner]
  rfl

theorem walkReply_state (w : Walk) (hop : BitVec 16) (s : State) :
    standing (walkReply w hop s) = standing s ∧ (walkReply w hop s).ev = s.ev := by
  unfold walkReply
  cases w.q <;> simp

/-- What the end of the walk w leaves at the head. -/
theorem endWalk_state {w : Walk} {hop : BitVec 16} {stalled : Bool} {s : State} (h : s.chain.walk = some w) :
    (standing (endWalk hop stalled s)) = standing { s with chain := { walkDone w s.chain with
      headPlanner := some (planner s), island := false, islandTimer := none, policyExpired := false } } ∧
    (stalled = true → s.ev.host.length < 64 → Held .host 0x0303 0xFF (endWalk hop stalled s)) := by
  obtain ⟨hstand, hev⟩ := walkReply_state w hop (walkEnded w hop stalled s)
  rw [endWalk_ended h]
  refine ⟨hstand.trans ?_, fun hs hroom => ?_⟩
  · rw [walkEnded_eq]
    exact standing_update (fun c => { c with
      headPlanner := some (planner s), island := false, islandTimer := none, policyExpired := false })
      (walkOver_standing w hop stalled s)
  · have hover : Held .host 0x0303 0xFF (walkOver w hop stalled s) := by
      have := held_note_host 0x0303 1 0xFF (be 2 hop.toNat) (s := sendDown (enumFrame 4
        { recheck := w.recheck, gen := w.gen, hop := hop, addr := s.chain.addr, planner := planner s } 0 s) s)
        (by simpa using hroom)
      simpa [walkOver, hs, Held] using this
    simp only [Held, hev]
    rw [walkEnded_eq]
    exact hover

/-! ## The start of a walk (R106, R163) -/

/-- The head's own address. -/
def headAddress (s : State) : BitVec 16 := if pinned s then pinAddr s else 0

/-- The chain ID that the head's register gives its chain. -/
def headChainId (s : State) : BitVec 3 := BitVec.ofNat 3 (field (reg s 0x030000) 2 0)

/-- The head that starts a walk, before it sends START. -/
def walkBegun (recheck : Bool) (q : Option Request) (s : State) : State :=
  let u := takeAddr (headAddress s) true (headChainId s) s
  { u with chain := { u.chain with
    walk := some { recheck := recheck, gen := s.chain.walkGen + 1, q := q }, walkGen := s.chain.walkGen + 1
    enumBusy := true, hop := 0, dupCount := 0, dupHop := 0, dupReports := [] } }

theorem walkBegun_chain (r : Bool) (q : Option Request) (s : State) : (walkBegun r q s).chain = { s.chain with
    addr := headAddress s, addrValid := true, chainId := headChainId s
    walk := some { recheck := r, gen := s.chain.walkGen + 1, q := q }, walkGen := s.chain.walkGen + 1
    enumBusy := true, hop := 0, dupCount := 0, dupHop := 0, dupReports := [] } := by
  simp only [walkBegun, takeAddr_chain, if_true]

theorem walkStart_begun {r : Bool} {q : Option Request} {s : State} (hhead : isHead s = true)
    (hmain : islandHead s = false) (hon : chainOn s = true) (hnone : s.chain.walk = none) :
    walkStart r q s = if s.chain.dnPartner
      then sendStart r (s.chain.walkGen + 1) ((walkBegun r q s).chain.addr + 1) (walkBegun r q s)
      else endWalk 0 false (walkBegun r q s) := by
  have hgo : (!(isHead s && !islandHead s && chainOn s)) = false := by simp [hhead, hmain, hon]
  have hdn : (walkBegun r q s).chain.dnPartner = s.chain.dnPartner := by rw [walkBegun_chain]
  rw [← hdn]
  simp only [walkStart, hgo, hnone, Bool.false_eq_true, if_false]
  rfl

/-- What the start of a walk leaves at the head. -/
theorem walkStart_state {r : Bool} {q : Option Request} {s : State} (hhead : isHead s = true)
    (hmain : islandHead s = false) (hon : chainOn s = true) (hnone : s.chain.walk = none) :
    ((walkStart r q s).chain.walkGen = s.chain.walkGen + 1 ∧ (walkStart r q s).chain.hop = 0 ∧
      (walkStart r q s).chain.addrValid = true ∧ (walkStart r q s).chain.addr = headAddress s ∧
      (walkStart r q s).chain.dupCount = 0 ∧ (walkStart r q s).chain.dupReports = [] ∧
      (walkStart r q s).chain.fullDue = s.chain.fullDue) ∧
    (s.chain.dnPartner = true → (walkStart r q s).chain.enumBusy = true ∧
      (walkStart r q s).chain.walk = some { recheck := r, gen := s.chain.walkGen + 1, q := q } ∧
      ∃ f, (walkStart r q s).chain.dnLine = some f ∧ f.ftype = 3 ∧ f.sdl = true ∧ f.payload.headD 0xFF = 0) ∧
    (s.chain.dnPartner = false → (walkStart r q s).chain.walk = none ∧ (walkStart r q s).chain.walked = true ∧
      (walkStart r q s).chain.enumBusy = false ∧ (walkStart r q s).chain.gen = s.chain.walkGen + 1) := by
  have hchain := walkBegun_chain r q s
  rw [walkStart_begun hhead hmain hon hnone]
  generalize walkBegun r q s = u at *
  cases hdn : s.chain.dnPartner with
  | true =>
    rw [if_pos rfl]
    generalize u.chain.addr + 1 = next
    have hstand := standing_fields (standing_sendStart r (s.chain.walkGen + 1) next u)
    obtain ⟨hline, -⟩ := sendStart_line (r := r) (gen := s.chain.walkGen + 1) (next := next) (s := u)
      (by rw [hchain]; exact hdn)
    refine ⟨?_, fun _ => ⟨?_, ?_, hline⟩, nofun⟩ <;> simp only [hstand, hchain, and_self]
  | false =>
    rw [if_neg (by simp)]
    obtain ⟨hend, -⟩ := endWalk_state (hop := 0) (stalled := false) (s := u) (by rw [hchain])
    have hstand := standing_fields hend
    refine ⟨?_, nofun, fun _ => ?_⟩ <;> simp only [hstand, hchain, walkDone, and_self]

theorem autoWalk_starts {r : Bool} {s : State} (hon : chainOn s = true) (hhead : isHead s = true)
    (hmain : islandHead s = false)
    (h : r = true ∨ (s.chain.fullDue = true ∧ bit (reg s 0x030000) 3 = true)) :
    ∃ u : State, exec (.enumWalkStart r) s = .next (walkStart r none u) ∧ isHead u = true ∧ islandHead u = false ∧
      chainOn u = true ∧ headAddress u = headAddress s ∧
      u.chain = { s.chain with fullDue := if r then s.chain.fullDue else false } := by
  cases r with
  | true => exact ⟨s, rfl, hhead, hmain, hon, rfl, rfl⟩
  | false =>
    obtain ⟨hdue, hauto⟩ : s.chain.fullDue = true ∧ bit (reg s 0x030000) 3 = true := by simpa using h
    refine ⟨{ s with chain := { s.chain with fullDue := false } }, congrArg Host.Outcome.next ?_, hhead, hmain, hon,
      rfl, rfl⟩
    simp [autoWalk, hdue, hauto, hhead]

theorem autoWalk_idle {s : State} (h : s.chain.fullDue = false ∨ bit (reg s 0x030000) 3 = false) :
    exec (.enumWalkStart false) s = .next s := by
  refine congrArg Host.Outcome.next ?_
  rcases h with h | h <;> simp [autoWalk, h]

theorem enumerate_starts {q : Request} {s : State} (hon : chainOn s = true) (h : Accepted 0x10 q s)
    (hlen : (reqBody q).length = 1) (hall : (byteAt (reqBody q) 0).toNat ≤ 1) :
    exec (.enumerate q) s = .next (walkStart (byteAt (reqBody q) 0 == 1) (some q) (taken q s)) := by
  have hdom : domOn (taken q s) 11 = true := by
    have : domOn s 11 = true := by simpa [chainOn] using (Bool.and_eq_true _ _ ▸ hon).1
    simpa [domOn] using this
  refine exec_later opEnumerate h ?_ ?_
  · simp [opEnumerate, lenIs_of hlen, param, hall]
  · simp [opEnumerate, enumerateAct, guarded, hdom]

/-! ## A member's hop and claim (R107, R109) -/

/-- The claim that START makes a member send. -/
def claimAt (i : EnumInfo) (s : State) : Claim :=
  { recheck := i.recheck, gen := i.gen, hop := i.hop + 1, next := i.addr
    addr := if i.recheck && s.chain.addrValid then s.chain.addr
      else if !(i.recheck && s.chain.addrValid) && pinned s then pinAddr s else i.addr
    pinned := !(i.recheck && s.chain.addrValid) && pinned s, waiting := !(i.recheck && s.chain.addrValid) && pinned s
    sends := 1, rejected := false
    startSent := !(!(i.recheck && s.chain.addrValid) && pinned s) && s.chain.dnPartner }

/-- A member that has its hop and its claim, before it sends them. -/
def claiming (i : EnumInfo) (s : State) : State :=
  let u := arrive .up (enumOf 0 i) s
  { u with chain := { u.chain with hop := i.hop + 1, enumBusy := true, claim := some (claimAt i s) } }

theorem only_claiming (i : EnumInfo) (s : State) : Only [.chain] s (claiming i s) :=
  only_trans (only_arrive .up (enumOf 0 i) s) (only_chain _ _)

theorem arrive_claims (p : ChainPort) (f : ChainFrame) (s : State) :
    (arrive p f s).chain.claim = s.chain.claim ∧ (arrive p f s).chain.gen = s.chain.gen ∧
    (arrive p f s).chain.walk = s.chain.walk ∧ (arrive p f s).chain.dupCount = s.chain.dupCount ∧
    (arrive p f s).chain.dupReports = s.chain.dupReports := by
  have h := standing_arrive p f s
  cases p <;> simp only [standing_fields h, countOn, and_self]

theorem enumStart_claims {i : EnumInfo} {s : State} (hon : chainOn s = true) (hlock : s.chain.upLock = true)
    (hnode : s.chain.upPartner = .node) (hcrc : i.hdr.crc = .good) (hfresh : genFresh i.gen s = true) :
    exec (.enumStart i) s = .next (
      let u := sendUp (enumFrame 1 (claimInfo (claimAt i s) (claiming i s)) 0
        { arrive .up (enumOf 0 i) s with chain := { (arrive .up (enumOf 0 i) s).chain with
          hop := i.hop + 1, enumBusy := true } }) (claiming i s)
      if (claimAt i s).pinned then u else sendStart i.recheck i.gen ((claimAt i s).addr + 1) u) := by
  refine congrArg Host.Outcome.next ?_
  obtain ⟨-, hpartner, hdn, -, haddr, hvalid, -⟩ := arrive_keeps .up (enumOf 0 i) s
  obtain ⟨hclaim, hgen, -⟩ := arrive_claims .up (enumOf 0 i) s
  have honly := only_arrive .up (enumOf 0 i) s
  have hmodes : (arrive .up (enumOf 0 i) s).modes = s.modes := honly .modes (by simp)
  have hreg (a : Nat) : reg (arrive .up (enumOf 0 i) s) a = reg s a := by simp [reg]
  have hpin : pinned (arrive .up (enumOf 0 i) s) = pinned s := by simp only [pinned, hreg, hmodes]
  have hpinAddr : pinAddr (arrive .up (enumOf 0 i) s) = pinAddr s := by simp only [pinAddr, hreg]
  have hfresh' : genFresh i.gen (arrive .up (enumOf 0 i) s) = true := by
    simpa only [genFresh, hclaim, hgen] using hfresh
  have hgo : (!(decide ((arrive .up (enumOf 0 i) s).chain.upPartner = .node) && decide (i.hdr.crc = .good) &&
      genFresh i.gen (arrive .up (enumOf 0 i) s))) = false := by simp [hpartner, hnode, hcrc, hfresh']
  have hup : (!portUp .up s) = false := by simp [portUp_up hon hlock]
  unfold enumStart claiming
  rw [hup, if_neg (by simp)]
  simp only [claimAt, ← haddr, ← hvalid, ← hdn, ← hpin, ← hpinAddr]
  generalize arrive .up (enumOf 0 i) s = u at *
  rw [hgo, if_neg (by simp)]
  rfl

theorem enumStartCompletes {i : EnumInfo} {s : State} (hon : chainOn s = true) (hlock : s.chain.upLock = true)
    (hnode : s.chain.upPartner = .node) (hcrc : i.hdr.crc = .good) (hfresh : genFresh i.gen s = true) :
    Completes (.enumStart i) s fun t =>
      t.chain.hop = i.hop + 1 ∧ t.chain.enumBusy = true ∧ t.chain.addr = s.chain.addr ∧
      (t.chain.claim = some (claimAt i s) ∧
       ((claimAt i s).pinned = true ∨ s.chain.dnPartner = true →
         ∃ f, t.chain.upLine = some f ∧ f.ftype = 3 ∧ f.sdl = false ∧ f.payload.headD 0 = 1)) ∧ Only [.chain] s t := by
  obtain ⟨huplock, hpartner, hdn, -, haddr, -⟩ := arrive_keeps .up (enumOf 0 i) s
  have honly := only_claiming i s
  refine ⟨_, enumStart_claims hon hlock hnode hcrc hfresh, ?_⟩
  generalize hf : enumFrame 1 _ 0 _ = f
  have hframe : f.ftype = 3 ∧ f.sdl = false ∧ f.payload.headD 0 = 1 := by subst hf; exact ⟨rfl, rfl, rfl⟩
  have hline : (sendUp f (claiming i s)).chain.upLine = some f :=
    sendUp_line (huplock.trans hlock) (fun h => by
      have : s.chain.upPartner = .none := hpartner.symm.trans h
      simp [hnode] at this)
  have hstand := standing_sendUp f (claiming i s)
  have honly' := only_trans honly (only_sendUp f (claiming i s))
  have hkeep (t : State) (ht : standing t = standing (claiming i s)) :
      t.chain.hop = i.hop + 1 ∧ t.chain.enumBusy = true ∧ t.chain.addr = s.chain.addr ∧
      t.chain.claim = some (claimAt i s) := by
    have hfields := standing_fields ht
    simp only [hfields]
    exact ⟨rfl, rfl, haddr, rfl⟩
  dsimp only
  split
  · next hpin =>
    obtain ⟨hhop, hbusy, haddr', hclaim⟩ := hkeep _ hstand
    exact ⟨hhop, hbusy, haddr', ⟨hclaim, fun _ => ⟨f, hline, hframe⟩⟩, honly'⟩
  · next hpin =>
    obtain ⟨hhop, hbusy, haddr', hclaim⟩ := hkeep _ ((standing_sendStart ..).trans hstand)
    refine ⟨hhop, hbusy, haddr', ⟨hclaim, fun h => ⟨f, ?_, hframe⟩⟩,
      only_trans honly' (only_sendStart i.recheck i.gen _ _)⟩
    have hdn' : (sendUp f (claiming i s)).chain.dnPartner = true := by
      simp only [standing_fields hstand]
      exact hdn.trans (h.resolve_left hpin)
    exact (sendStart_line hdn').2.trans hline

theorem applyClaim_beyond {i : EnumInfo} {c : Claim} {s : State} (hclaim : s.chain.claim = some c)
    (h : i.hop.toNat < s.chain.hop.toNat) : applyClaim i s = s := by
  simp [applyClaim, hclaim, Nat.not_le.mpr h]

theorem applyClaim_taken {i : EnumInfo} {c : Claim} {s : State} (hclaim : s.chain.claim = some c) (hgen : c.gen = i.gen)
    (h : s.chain.hop.toNat ≤ i.hop.toNat) : applyClaim i s = takeAddr c.addr (!c.rejected) i.hdr.chainId s := by
  simp [applyClaim, hclaim, hgen, h]

/-- A node in Clay applies its claim without an event. -/
theorem applyClaim_inClay {i : EnumInfo} {s : State} (h : s.modes.clay = true) :
    applyClaim i s = { s with chain := (applyClaim i s).chain } := by
  unfold applyClaim
  split
  · split
    · exact takeAddr_inClay h
    · rfl
  · rfl

/-- A member that has applied its claim takes the rest of DONE. -/
def doneTaken (i : EnumInfo) (s : State) : State :=
  endIsland (checkPlanner i.planner { s with chain := { s.chain with
    gen := i.gen, headAddr := i.addr, claim := none, enumBusy := false, chainId := i.hdr.chainId } })

theorem doneTaken_chain (i : EnumInfo) (s : State) : (doneTaken i s).chain = { s.chain with
    gen := i.gen, headAddr := i.addr, claim := none, enumBusy := false, chainId := i.hdr.chainId
    headPlanner := some i.planner, island := false, islandTimer := none, policyExpired := false } := by
  simp only [doneTaken, endIsland_chain, checkPlanner_chain]

theorem doneTaken_modes (i : EnumInfo) (s : State) : (doneTaken i s).modes.clay = s.modes.clay ∧
    (doneTaken i s).modes.active.getLsbD 3 = s.modes.active.getLsbD 3 := by
  simp [doneTaken, endIsland, liftCause, cause]

theorem doneTaken_differs {i : EnumInfo} {s : State} (h : i.planner ≠ planner s) (hroom : s.ev.host.length < 64) :
    Held .host 0x0003 0xFF (doneTaken i s) := by
  have hne : (i.planner != planner s) = true := by simpa using h
  have hpl (c : Chain) : planner { s with chain := c } = planner s := rfl
  simp only [doneTaken, checkPlanner, hpl, hne, if_true]
  exact held_note_host 0x0003 1 0xFF _ (by simpa using hroom)

theorem enumDone_taken {i : EnumInfo} {s : State} (hon : chainOn s = true) (hlock : s.chain.upLock = true)
    (hnode : s.chain.upPartner = .node) (hcrc : i.hdr.crc = .good) (hfresh : genFresh i.gen s = true) :
    exec (.enumDone i) s = .next (doneTaken i (applyClaim i (enumPass .up 4 i s))) := by
  refine congrArg Host.Outcome.next ?_
  obtain ⟨-, hpartner, -⟩ := arrive_keeps .up (enumOf 4 i) s
  obtain ⟨hclaim, hgen, -⟩ := arrive_claims .up (enumOf 4 i) s
  have hfresh' : genFresh i.gen (enumPass .up 4 i s) = true := by
    simpa only [genFresh, enumPass, hclaim, hgen] using hfresh
  have hpartner' : (enumPass .up 4 i s).chain.upPartner = .node := hpartner.trans hnode
  have hgo : (!(portUp .up s && s.chain.upPartner != .none)) = false := by simp [portUp_up hon hlock, hnode]
  have hacts : (!(decide ((enumPass .up 4 i s).chain.upPartner = .node) && decide (i.hdr.crc = .good) &&
      genFresh i.gen (enumPass .up 4 i s))) = false := by simp [hpartner', hcrc, hfresh']
  simp only [enumDone, hgo, hacts, Bool.false_eq_true, if_false]
  rfl

theorem enumDoneCompletes {i : EnumInfo} {s : State} (hon : chainOn s = true) (hlock : s.chain.upLock = true)
    (hnode : s.chain.upPartner = .node) (hcrc : i.hdr.crc = .good) (hfresh : genFresh i.gen s = true) :
    Completes (.enumDone i) s fun t =>
      t.chain.gen = i.gen ∧ t.chain.headAddr = i.addr ∧ t.chain.claim = none ∧ t.chain.enumBusy = false ∧
      t.chain.island = false ∧ t.chain.islandTimer = none ∧ t.chain.chainId = i.hdr.chainId ∧
      t.chain.headPlanner = some i.planner ∧
      (s.modes.clay = true → i.planner ≠ planner s → s.ev.host.length < 64 → Held .host 0x0003 0xFF t) ∧
      (∀ c, s.chain.claim = some c → c.gen = i.gen →
        (i.hop.toNat < s.chain.hop.toNat → t.chain.addrValid = s.chain.addrValid ∧ t.chain.addr = s.chain.addr) ∧
        (s.chain.hop.toNat ≤ i.hop.toNat → t.chain.addrValid = !c.rejected ∧
          (c.rejected = false → t.chain.addr = c.addr ∧
            (s.modes.clay = false → s.chain.addrValid = false ∨ s.chain.addr ≠ c.addr →
              t.modes.clay = true ∧ t.modes.active.getLsbD 3 = true)))) := by
  refine ⟨_, enumDone_taken hon hlock hnode hcrc hfresh, ?_⟩
  obtain ⟨-, -, -, -, haddr, hvalid, -, hhop, -⟩ := arrive_keeps .up (enumOf 4 i) s
  obtain ⟨hclaim, -⟩ := arrive_claims .up (enumOf 4 i) s
  have honly : Only [.chain] s (enumPass .up 4 i s) := only_arrive .up (enumOf 4 i) s
  have hmodes : (enumPass .up 4 i s).modes = s.modes := honly .modes (by simp)
  have hev : (enumPass .up 4 i s).ev = s.ev := honly .ev (by simp)
  have hplan : planner (enumPass .up 4 i s) = planner s := by simp [planner, itemOr]
  change (enumPass .up 4 i s).chain.addr = _ at haddr
  change (enumPass .up 4 i s).chain.addrValid = _ at hvalid
  change (enumPass .up 4 i s).chain.hop = _ at hhop
  change (enumPass .up 4 i s).chain.claim = _ at hclaim
  generalize enumPass .up 4 i s = u at *
  obtain ⟨hclay, hactive⟩ := doneTaken_modes i (applyClaim i u)
  simp only [doneTaken_chain, true_and, hclay, hactive]
  refine ⟨fun hin hdiff hroom => ?_, fun c hc hgen => ⟨fun hlow => ?_, fun hhigh => ?_⟩⟩
  · have happly := applyClaim_inClay (i := i) (s := u) (by rw [hmodes]; exact hin)
    refine doneTaken_differs ?_ ?_
    · rw [happly]; exact hplan.symm ▸ hdiff
    · rw [happly]; exact hev.symm ▸ hroom
  · rw [applyClaim_beyond (hclaim.trans hc) (by rw [hhop]; exact hlow)]
    exact ⟨hvalid, haddr⟩
  · rw [applyClaim_taken (hclaim.trans hc) hgen (by rw [hhop]; exact hhigh)]
    simp only [takeAddr_chain, true_and]
    intro hrej
    simp only [hrej, Bool.not_false, if_true, true_and]
    exact fun hout hnew => takeAddr_changed (by rw [hmodes]; exact hout) (by rw [hvalid, haddr]; exact hnew)

/-! ## Claims and the end of a walk at the head (R108, R110, R111) -/

/-- A frame of the head's own walk comes in on DN: what judges it. -/
theorem walks_own {i : EnumInfo} {w : Walk} {kind : Nat} {s : State} (hwalk : s.chain.walk = some w)
    (hhead : isHead s = true) (hmain : islandHead s = false) (hcrc : i.hdr.crc = .good) (hgen : i.gen = w.gen) :
    walks i (enumPass .dn kind i s) = some w := by
  obtain ⟨-, hpartner, -, hisland, -⟩ := arrive_keeps .dn (enumOf kind i) s
  obtain ⟨-, -, hkeep, -⟩ := arrive_claims .dn (enumOf kind i) s
  have hhead' : isHead (enumPass .dn kind i s) = true := by simpa only [isHead, enumPass, hpartner] using hhead
  have hmain' : islandHead (enumPass .dn kind i s) = false := by
    simpa only [islandHead, enumPass, hpartner, hisland] using hmain
  have hwalk' : (enumPass .dn kind i s).chain.walk = some w := hkeep.trans hwalk
  simp [walks, hhead', hmain', hcrc, hwalk', hgen]

/-- What seeing the claim of the next hop leaves of the chain side. -/
theorem sawClaim_chain (i : EnumInfo) (s : State) : sawClaim i s = { s with chain := (sawClaim i s).chain } ∧
    (sawClaim i s).chain = { s.chain with claim := (sawClaim i s).chain.claim } := by
  unfold sawClaim
  split
  · split <;> exact ⟨rfl, rfl⟩
  · exact ⟨rfl, rfl⟩

theorem enumClaim_judged {i : EnumInfo} {w : Walk} {s : State} (hon : chainOn s = true) (hlock : s.chain.dnLock = true)
    (hdn : s.chain.dnPartner = true) (hwalk : s.chain.walk = some w) (hhead : isHead s = true)
    (hmain : islandHead s = false) (hcrc : i.hdr.crc = .good) (hgen : i.gen = w.gen) :
    ∃ u : State, exec (.enumClaim i) s = .next (judgeClaim i w u) ∧ u.chain.addr = s.chain.addr ∧
      u.chain.dupCount = s.chain.dupCount ∧ u.chain.dupReports = s.chain.dupReports ∧ u.ev = s.ev := by
  obtain ⟨-, -, -, -, haddr, -⟩ := arrive_keeps .dn (enumOf 1 i) s
  obtain ⟨-, -, -, hcount, hreports⟩ := arrive_claims .dn (enumOf 1 i) s
  have hwalks := walks_own (kind := 1) hwalk hhead hmain hcrc hgen
  have hev : (enumPass .dn 1 i s).ev = s.ev := (only_arrive .dn (enumOf 1 i) s) .ev (by simp)
  have hgo : (!(portUp .dn s && s.chain.dnPartner)) = false := by simp [portUp_dn hon hlock, hdn]
  change (enumPass .dn 1 i s).chain.addr = _ at haddr
  change (enumPass .dn 1 i s).chain.dupCount = _ at hcount
  change (enumPass .dn 1 i s).chain.dupReports = _ at hreports
  have hstep (hwalks' : walks i (sawClaim i (enumPass .dn 1 i s)) = some w) :
      enumClaim i s = judgeClaim i w (sawClaim i (enumPass .dn 1 i s)) := by
    rw [enumClaim, hgo, if_neg (by simp)]
    simp only [hwalks']
  generalize enumPass .dn 1 i s = u at *
  obtain ⟨hsaw, hchain⟩ := sawClaim_chain i u
  have hwalks' : walks i (sawClaim i u) = some w := by
    rw [← hwalks, hsaw, hchain]
    rfl
  refine ⟨sawClaim i u, congrArg Host.Outcome.next (hstep hwalks'), ?_, ?_, ?_, ?_⟩
  · rw [hchain]; exact haddr
  · rw [hchain]; exact hcount
  · rw [hchain]; exact hreports
  · rw [hsaw]; exact hev

/-- The head's judgment of a claim, for its list. -/
def judged (i : EnumInfo) (ok : Bool) : Judged := { hop := i.hop, addr := i.addr, serial := i.serial, accept := ok }

theorem judgeClaim_stands {i : EnumInfo} {w : Walk} {s : State}
    (hnew : w.claims.find? (fun j => j.hop == i.hop && j.serial == i.serial) = none)
    (hfree : w.claims.find? (fun j => j.accept && j.addr == i.addr) = none) (hother : i.addr ≠ s.chain.addr) :
    (judgeClaim i w s).chain.walk = some { w with claims := w.claims ++ [judged i true] } ∧
    (judgeClaim i w s).chain.dupCount = s.chain.dupCount ∧ (judgeClaim i w s).ev = s.ev := by
  have hok : (i.addr != s.chain.addr) = true := by simpa using hother
  simp only [judgeClaim, hnew, hfree, hok, Option.isNone_none, Bool.and_self, Bool.not_true, Bool.or_false, if_true]
  split
  · next h =>
    have hstand := fun f u => standing_fields (standing_sendDown f u)
    refine ⟨?_, ?_, ?_⟩
    · simp only [hstand]; rfl
    · simp only [hstand]
    · simp
  · exact ⟨rfl, rfl, rfl⟩

theorem judgeClaim_rejected {i : EnumInfo} {w : Walk} {s : State}
    (hnew : w.claims.find? (fun j => j.hop == i.hop && j.serial == i.serial) = none)
    (htaken : (w.claims.find? (fun j => j.accept && j.addr == i.addr)).isSome = true ∨ i.addr = s.chain.addr) :
    (judgeClaim i w s).chain.walk = some { w with claims := w.claims ++ [judged i false] } ∧
    (judgeClaim i w s).chain.dupCount = satInc s.chain.dupCount ∧
    (∃ r, (judgeClaim i w s).chain.dupReports = s.chain.dupReports ++ [r] ∧ r.hop2 = i.hop ∧ r.serial2 = i.serial ∧
      r.addr = i.addr) ∧
    (s.ev.host.length < 64 → Held .host 0x0302 0xFF (judgeClaim i w s)) := by
  have hok : ((w.claims.find? (fun j => j.accept && j.addr == i.addr)).isNone && i.addr != s.chain.addr) = false := by
    rcases htaken with h | h
    · simp [Option.isNone_eq_false_iff.mpr h]
    · simp [h]
  have hstep : judgeClaim i w s = reportDup (w.claims.find? (fun j => j.accept && j.addr == i.addr)) i
      (sendDown (verdict (judged i false) w { s with chain := { s.chain with
        walk := some { w with claims := w.claims ++ [judged i false] } } }) { s with chain := { s.chain with
        walk := some { w with claims := w.claims ++ [judged i false] } } }) := by
    simp only [judgeClaim, hnew, hok, Bool.not_false, Bool.or_true, if_true]
    rfl
  rw [hstep]
  generalize verdict (judged i false) w _ = f
  have hstand := standing_fields (standing_sendDown f { s with chain := { s.chain with
    walk := some { w with claims := w.claims ++ [judged i false] } } })
  simp only [reportDup, note_frame, hstand, true_and]
  exact ⟨⟨_, rfl, rfl, rfl, rfl⟩, fun hroom => held_note_host 0x0302 1 0xFF _ (by simpa using hroom)⟩

theorem enumEnd_ends {i : EnumInfo} {w : Walk} {s : State} (hon : chainOn s = true) (hlock : s.chain.dnLock = true)
    (hdn : s.chain.dnPartner = true) (hwalk : s.chain.walk = some w) (hhead : isHead s = true)
    (hmain : islandHead s = false) (hcrc : i.hdr.crc = .good) (hgen : i.gen = w.gen) :
    Completes (.enumEnd i) s fun t =>
      t.chain.walk = none ∧ t.chain.walked = true ∧ t.chain.enumBusy = false ∧ t.chain.gen = w.gen ∧
      t.chain.headAddr = s.chain.addr ∧
      (i.stalled = true → s.ev.host.length < 64 → Held .host 0x0303 0xFF t) ∧
      (∀ q, w.q = some q →
        ∃ u, t = reply q { data := be 2 w.gen.toNat ++ be 2 i.hop.toNat ++ be 4 (chDup u).toNat } u) := by
  obtain ⟨-, -, -, -, haddr, -⟩ := arrive_keeps .dn (enumOf 3 i) s
  obtain ⟨-, -, hkeep, -⟩ := arrive_claims .dn (enumOf 3 i) s
  have hgo : (!(portUp .dn s && s.chain.dnPartner)) = false := by simp [portUp_dn hon hlock, hdn]
  have hstep : enumEnd i s = endWalk i.hop i.stalled (enumPass .dn 3 i s) := by
    rw [enumEnd, hgo, if_neg (by simp)]
    simp only [walks_own (kind := 3) hwalk hhead hmain hcrc hgen]
  have hwalk' : (enumPass .dn 3 i s).chain.walk = some w := hkeep.trans hwalk
  have haddr' : (enumPass .dn 3 i s).chain.addr = s.chain.addr := haddr
  have hev : (enumPass .dn 3 i s).ev = s.ev := (only_arrive .dn (enumOf 3 i) s) .ev (by simp)
  refine ⟨_, congrArg Host.Outcome.next hstep, ?_⟩
  generalize enumPass .dn 3 i s = u at *
  obtain ⟨hend, hheld⟩ := endWalk_state (hop := i.hop) (stalled := i.stalled) hwalk'
  simp only [standing_fields hend]
  refine ⟨rfl, rfl, rfl, rfl, haddr', fun hs hroom => hheld hs (by rw [hev]; exact hroom), fun q hq => ?_⟩
  rw [endWalk_ended hwalk', walkReply, hq]
  exact ⟨_, rfl⟩

/-! ## A verdict, a stall and a claim without an answer (R107, R110, R111) -/

theorem myVerdict_passed (i : EnumInfo) (c : Claim) (p : ChainPort) (f : ChainFrame) (s : State) :
    myVerdict i c (arrive p f s) = myVerdict i c s := by
  obtain ⟨-, -, -, -, -, -, hid, hhop, -⟩ := arrive_keeps p f s
  simp [myVerdict, ownChain, hid, hhop]

theorem enumVerdictCompletes {i : EnumInfo} {c : Claim} {s : State} (hon : chainOn s = true)
    (hlock : s.chain.upLock = true) (hup : s.chain.upPartner ≠ .none) (hclaim : s.chain.claim = some c)
    (hmine : myVerdict i c s = true) :
    (c.waiting = true → Completes (.enumVerdict i) s fun t =>
      t.chain.claim = some { c with waiting := false, rejected := !i.accept, startSent := s.chain.dnPartner } ∧
      Only [.chain] s t) ∧
    (c.waiting = false → Completes (.enumVerdict i) s fun t =>
      t.chain.claim = some { c with rejected := c.rejected || !i.accept } ∧ Only [.chain] s t) := by
  obtain ⟨-, -, hdn, -⟩ := arrive_keeps .up (enumOf 2 i) s
  obtain ⟨hkeep, -⟩ := arrive_claims .up (enumOf 2 i) s
  have honly : Only [.chain] s (enumPass .up 2 i s) := only_arrive .up (enumOf 2 i) s
  have hgo : (!(portUp .up s && s.chain.upPartner != .none)) = false := by simp [portUp_up hon hlock, hup]
  have hmine' : (!myVerdict i c (enumPass .up 2 i s)) = false := by simp [enumPass, myVerdict_passed, hmine]
  have hclaim' : (enumPass .up 2 i s).chain.claim = some c := hkeep.trans hclaim
  have hdn' : (enumPass .up 2 i s).chain.dnPartner = s.chain.dnPartner := hdn
  have hstep : enumVerdict i s = if !c.waiting then { enumPass .up 2 i s with chain := { (enumPass .up 2 i s).chain with
        claim := some { c with rejected := c.rejected || !i.accept } } }
      else sendStart c.recheck c.gen (if i.accept then c.addr + 1 else c.next + 1) { enumPass .up 2 i s with
        chain := { (enumPass .up 2 i s).chain with claim := some { c with
          waiting := false, rejected := !i.accept, startSent := s.chain.dnPartner } } } := by
    rw [enumVerdict, hgo, if_neg (by simp)]
    simp only [hclaim', hmine', hdn', Bool.false_eq_true, if_false]
  generalize enumPass .up 2 i s = u at *
  refine ⟨fun hw => ?_, fun hw => ?_⟩
  · rw [if_neg (by simp [hw])] at hstep
    generalize (if i.accept then c.addr + 1 else c.next + 1) = next at hstep
    refine ⟨_, congrArg Host.Outcome.next hstep, ?_,
      only_trans (only_trans honly (only_chain _ u)) (only_sendStart c.recheck c.gen next _)⟩
    simp only [standing_fields (standing_sendStart c.recheck c.gen next _)]
  · rw [if_pos (by simp [hw])] at hstep
    exact ⟨_, congrArg Host.Outcome.next hstep, rfl, only_trans honly (only_chain _ u)⟩

theorem stallAtHead {w : Walk} {s : State} (hon : chainOn s = true) (hwalk : s.chain.walk = some w)
    (hnone : w.claims.all (fun j => j.hop != 1) = true) (hmain : islandHead s = false) :
    Completes .enumStallTimeout s fun t =>
      t.chain.walk = none ∧ t.chain.enumBusy = false ∧ (s.ev.host.length < 64 → Held .host 0x0303 0xFF t) := by
  obtain ⟨hend, hheld⟩ := endWalk_state (hop := 0) (stalled := true) hwalk
  refine ⟨endWalk 0 true s, congrArg Host.Outcome.next ?_, ?_⟩
  · simp only [enumStallTimeout, hon, hwalk, hnone, hmain, Bool.not_true, Bool.not_false, Bool.and_self,
      Bool.false_eq_true, if_false, if_true]
  · simp only [standing_fields hend]
    exact ⟨rfl, rfl, hheld rfl⟩

theorem stallAtMember {c : Claim} {s : State} (hon : chainOn s = true) (hwalk : s.chain.walk = none)
    (hclaim : s.chain.claim = some c) (hsent : c.startSent = true) :
    Completes .enumStallTimeout s fun t => t.chain.claim = some { c with startSent := false } ∧
      (s.chain.upLock = true → s.chain.upPartner ≠ .none → ∃ f, t.chain.upLine = some f ∧ f.ftype = 3 ∧
        f.payload.headD 0 = 3 ∧ (byteAt f.payload 1).getLsbD 3 = true) ∧ Only [.chain] s t := by
  let u : State := { s with chain := { s.chain with claim := some { c with startSent := false } } }
  let f := enumFrame 3 { recheck := c.recheck, stalled := true, gen := c.gen, hop := s.chain.hop, addr := 0 } 0 s
  refine ⟨sendUp f u, congrArg Host.Outcome.next ?_, ?_, fun hlock hup => ⟨f, sendUp_line hlock hup, rfl, rfl, ?_⟩,
    only_trans (only_chain _ s) (only_sendUp f u)⟩
  · rw [enumStallTimeout, if_neg (by simp [hon])]
    split
    · next hw => exact absurd (hwalk.symm.trans hw) (by simp)
    · next c' _ hc =>
      obtain rfl : c = c' := Option.some.inj (hclaim.symm.trans hc)
      exact if_pos hsent
    · next hc => exact absurd (hclaim.symm.trans hc) (by simp)
  · simp only [standing_fields (standing_sendUp f u)]
    rfl
  · cases hr : c.recheck <;> simp [f, enumFrame, enumOf, withHdr, enumBytes, byteAt, b2n, hr]

theorem claimResendCompletes {c : Claim} {s : State} (hon : chainOn s = true) (hclaim : s.chain.claim = some c)
    (hwait : c.waiting = true) :
    (c.sends < 3 → Completes .claimResend s fun t =>
      t.chain.claim = some { c with sends := c.sends + 1 } ∧ Only [.chain] s t) ∧
    (3 ≤ c.sends → Completes .claimResend s fun t =>
      t.chain.claim = some { c with waiting := false, rejected := true, startSent := s.chain.dnPartner } ∧
      (s.ev.host.length < 64 → Held .host 0x0303 0xFF t)) := by
  have hgo : (!(c.waiting && chainOn s)) = false := by simp [hwait, hon]
  refine ⟨fun hlt => ?_, fun hge => ?_⟩
  · let u : State := { s with chain := { s.chain with claim := some { c with sends := c.sends + 1 } } }
    refine ⟨sendUp (enumFrame 1 (claimInfo c s) 0 s) u, congrArg Host.Outcome.next ?_, ?_,
      only_trans (only_chain _ s) (only_sendUp _ u)⟩
    · simp only [claimResend, hclaim, hgo, hlt, Bool.false_eq_true, if_false, if_true]
      rfl
    · simp only [standing_fields (standing_sendUp _ u)]
      rfl
  · let u : State := { s with chain := { s.chain with
      claim := some { c with waiting := false, rejected := true, startSent := s.chain.dnPartner } } }
    refine ⟨note .host 0x0303 1 0xFF (be 2 s.chain.hop.toNat) (sendStart c.recheck c.gen (c.next + 1) u),
      congrArg Host.Outcome.next ?_, ?_, fun hroom => held_note_host 0x0303 1 0xFF _ (by simpa [u] using hroom)⟩
    · simp only [claimResend, hclaim, hgo, Nat.not_lt.mpr hge, Bool.false_eq_true, if_false]
      rfl
    · simp only [note_frame, standing_fields (standing_sendStart c.recheck c.gen (c.next + 1) u)]
      rfl

/-- Settles O32: the head starts, judges and ends a walk, a member claims and takes its address. -/
theorem theEnumerationWalk : Obligations.TheEnumerationWalk := by
  unfold Obligations.TheEnumerationWalk
  refine fun s hon => ⟨fun hhead hmain hnone => ⟨fun r hr => ?_, autoWalk_idle, fun q h hlen hall hdn => ?_⟩,
    fun i hlock hnode hcrc hfresh => ⟨enumStartCompletes hon hlock hnode hcrc hfresh,
      enumDoneCompletes hon hlock hnode hcrc hfresh⟩,
    fun i w hlock hdn hwalk hhead hmain hcrc hgen => ⟨fun hnew => ⟨fun hfree hother => ?_, fun htaken => ?_⟩,
      enumEnd_ends hon hlock hdn hwalk hhead hmain hcrc hgen⟩,
    fun i c hlock hup hclaim hmine => enumVerdictCompletes hon hlock hup hclaim hmine,
    fun w hwalk hnone hmain => stallAtHead hon hwalk hnone hmain,
    fun c hwalk hclaim hsent => stallAtMember hon hwalk hclaim hsent,
    fun c hclaim hwait => claimResendCompletes hon hclaim hwait⟩
  · obtain ⟨u, hexec, hhead', hmain', hon', haddr, hchain⟩ := autoWalk_starts hon hhead hmain hr
    obtain ⟨⟨hgen, hhop, hvalid, haddr', hdup, hreports, hdue⟩, hdn, hnodn⟩ := walkStart_state (r := r) (q := none)
      hhead' hmain' hon' (by rw [hchain]; exact hnone)
    rw [hchain] at hgen hdn hnodn hdue
    exact ⟨_, hexec, hgen, hhop, hvalid, haddr'.trans haddr, hdup, hreports,
      fun hr => hdue.trans (by simp [hr]), hdn, hnodn⟩
  · have hchain : (taken q s).chain = s.chain := taken_chain q s
    have hstand : standing (taken q s) = standing s := standing_taken q s
    obtain ⟨⟨hgen, -⟩, hdn', -⟩ := walkStart_state (r := byteAt (reqBody q) 0 == 1) (q := some q) (s := taken q s)
      ((isHead_of_standing hstand).trans hhead) ((islandHead_of_standing hstand).trans hmain)
      (by simpa [chainOn, domOn, clockOn] using hon) (by rw [hchain]; exact hnone)
    rw [hchain] at hgen hdn'
    obtain ⟨hbusy, hwalk, -⟩ := hdn' hdn
    exact ⟨_, enumerate_starts hon h hlen hall, hwalk, hbusy, hgen⟩
  · obtain ⟨u, hexec, haddr, hdup, -, hev⟩ := enumClaim_judged hon hlock hdn hwalk hhead hmain hcrc hgen
    obtain ⟨hwalk', hcount, hev'⟩ := judgeClaim_stands hnew hfree (haddr.symm ▸ hother)
    exact ⟨_, hexec, hwalk', hcount.trans hdup, hev'.trans hev⟩
  · obtain ⟨u, hexec, haddr, hdup, hreports, hev⟩ := enumClaim_judged hon hlock hdn hwalk hhead hmain hcrc hgen
    obtain ⟨hwalk', hcount, hreport, hheld⟩ := judgeClaim_rejected hnew (haddr.symm ▸ htaken)
    rw [hreports] at hreport
    rw [hdup] at hcount
    rw [hev] at hheld
    exact ⟨_, hexec, hwalk', hcount, hreport, hheld⟩

end Sys2Proof.Proofs

/-! The motion model, the hand-over of edges, and the latency of an actuation. -/

namespace Sys2Proof.Proofs

open Sys2Proof.Machine Sys2Proof.Safety Sys2Proof.Laws

/-! ## What the parts of an update leave of the motion model -/

/-- What the crossings, edges and lines of an update leave alone: the motion model. -/
def motion (s : State) : Motion := s.sect.motion

theorem motion_of_sect {s t : State} (h : t.sect = s.sect) : motion t = motion s := by rw [motion, h, motion]

theorem motion_note (side : Side) (code : BitVec 16) (sev : BitVec 2) (chan : Byte) (data : List Byte) (s : State) :
    motion (note side code sev chan data s) = motion s := motion_of_sect (by simp)

theorem motion_stopOrStart (n : Fin 32) (s : State) : motion (stopOrStart n s) = motion s := by
  unfold stopOrStart
  dsimp only
  repeat' split
  all_goals rfl

theorem motion_storeLine (l : SwLine) (s : State) : motion (storeLine l s) = motion s := by
  unfold storeLine
  extract_lets others
  split <;> rfl

theorem motion_ownLines (n : Fin 32) (poses : List Pose) (s : State) : motion (ownLines n poses s) = motion s := by
  unfold ownLines
  split
  · rfl
  · exact foldl_keep motion _ (fun s l => motion_storeLine l s) _ s

theorem motion_markCell (c : Int × Int) (s : State) : motion (markCell c s) = motion s := by
  unfold markCell
  split
  · rfl
  split
  · rfl
  split
  · rfl
  · exact (motion_note ..).trans rfl

theorem motion_coverage (poses : List Pose) (s : State) : motion (coverage poses s) = motion s := by
  have hmark (s : State) (n : Fin 32) : motion (match s.sect.ch[n].geom with
      | some g => if ochState s n = 1 && !s.modes.clay
        then (sweptCells g s.sect.motion).foldl (fun s c => markCell c s) s else s
      | none => s) = motion s := by
    split
    · split
      · exact foldl_keep motion _ (fun s c => motion_markCell c s) _ s
      · rfl
    · rfl
  unfold coverage
  split
  · rfl
  · dsimp only
    have hcover := foldl_keep motion _ hmark (boundChannels s) s
    split
    · refine (foldl_keep motion _ (fun s m => motion_of_sect (by simp)) _ _).trans ?_
      exact (foldl_keep motion _ (fun s n => motion_ownLines n poses s) _ _).trans hcover
    · exact hcover

theorem motion_consume (limit : Nat) (xs : List (Fin 32 × List Crossing)) (s : State) :
    motion (consume limit xs s) = motion s := by
  refine foldl_keep motion _ (fun s c => ?_) xs s
  refine (foldl_keep motion _ (fun s x => ?_) _ _).trans rfl
  split <;> rfl

theorem motion_predict (s : State) : motion (predict s) = motion s := by
  have hturn (u : State) : motion ((List.finRange 32).foldl (fun s n => turnComp n s) u) = motion u :=
    foldl_keep motion _ (fun s n => motion_of_sect (by simp)) _ u
  have hstop (u : State) : motion ((boundChannels u).foldl (fun s n => stopOrStart n s) u) = motion u :=
    foldl_keep motion _ (fun s n => motion_stopOrStart n s) _ u
  have hretire (u : State) : motion (retireLines u) = motion u := rfl
  have hpreds (l : List Pred) (u : State) : motion { u with sect := { u.sect with preds := l } } = motion u := rfl
  unfold predict
  dsimp only
  refine (hturn _).trans ((hretire _).trans ((motion_consume ..).trans ((hpreds _ _).trans ?_)))
  exact (motion_coverage ..).trans ((hstop _).trans (hpreds _ _))

theorem predict_clk (s : State) : (predict s).clk = s.clk := by
  have hturn (s : State) (n : Fin 32) : (turnComp n s).clk = s.clk := by simp
  have hstop (u : State) : ((boundChannels u).foldl (fun s n => stopOrStart n s) u).clk = u.clk :=
    foldl_keep (fun s : State => s.clk) _ (fun s n => by simp) _ u
  unfold predict
  dsimp only
  refine (foldl_keep (fun s : State => s.clk) _ hturn _ _).trans ?_
  simp only [retireLines_frame, consume_frame, coverage_frame, hstop]

theorem motion_loseMotion (s : State) : motion (loseMotion s) = { s.sect.motion with valid := false } := by
  have hoff (s : State) (n : Fin 32) : motion (setSect n (fun c => { c with stopped := true })
      (if s.sect.ch[n].target then addPred (floorEdge n false s) s else s)) = motion s := by
    split <;> rfl
  unfold loseMotion
  refine (motion_note ..).trans ?_
  exact (foldl_keep motion _ hoff _ _).trans rfl

theorem motion_settleGround (s : State) : motion (settleGround s) = motion s := by
  unfold settleGround
  extract_lets due put s'
  exact foldl_keep motion put (fun _ _ => rfl) _ s

/-- The speed at the centre point of the body. -/
def centreSpeed (s : State) : Int :=
  match s.sect.body with
  | some b => speedAt (motionModel s) b.cy
  | none => (motionModel s).speed

/-- The motion model that an update takes. -/
def updated (s : State) : Motion :=
  { motionModel s with stopped := speedBelow (centreSpeed s) s.sect.minSpeed }

theorem motion_takeMotion (s : State) : motion (takeMotion s) = updated s := by
  unfold takeMotion
  dsimp only
  exact (motion_settleGround _).trans rfl

/-- What follows the motion model in an update. -/
def afterMotion (was : Bool) (s : State) : State :=
  if s.sect.motion.valid then predict s else if was then loseMotion s else s

theorem afterMotion_state (was : Bool) (s : State) :
    motion (afterMotion was s) = motion s ∧ (afterMotion was s).clk = s.clk := by
  unfold afterMotion
  split
  · exact ⟨motion_predict s, predict_clk s⟩
  · next hv =>
    split
    · refine ⟨(motion_loseMotion s).trans ?_, by simp⟩
      have : s.sect.motion.valid = false := by simpa using hv
      rw [motion, ← this]
    · exact ⟨rfl, rfl⟩

theorem advanceTo_sect (n : Nat) (s : State) : (advanceTo n s).sect = s.sect := by simp

theorem advanceTo_held (n : Nat) (s : State) : (advanceTo n s).barr.heldEdges = s.barr.heldEdges := rfl

theorem advanceTo_clk (n : Nat) {s t : State} (h : t.clk = s.clk) : (advanceTo n t).clk = (advanceTo n s).clk := by
  simp only [advanceTo, advance, h]

theorem updated_valid (s : State) : (updated s).valid = true ↔
    ∃ f, fixFrameOf s = some f ∧ frameDiff (now s) f ≤ 100000 * s.sect.drLimit := by
  change modelValid s = true ↔ _
  unfold modelValid
  cases hf : fixFrameOf s <;> simp

theorem motionUpdateCompletes {s : State} (ready : Fin 2001) (hrun : hcoreRuns s = true)
    (hmode : s.modes.mode ≠ .sand) :
    Completes (.motionUpdate ready) s fun t =>
      t.sect.motion = updated (toEdge 9 8000000 s) ∧
      (t.sect.motion.valid = true ↔ ∃ f, fixFrameOf (toEdge 9 8000000 s) = some f ∧
        frameDiff (now (toEdge 9 8000000 s)) f ≤ 100000 * s.sect.drLimit) ∧
      t.clk = (advanceTo ((toEdge 9 8000000 s).clk.tb.toNat + ready.val * ticksPerFrame) (toEdge 9 8000000 s)).clk := by
  have hlimit : (toEdge 9 8000000 s).sect.drLimit = s.sect.drLimit := by simp
  have hstep : motionUpdate ready s = advanceTo ((toEdge 9 8000000 s).clk.tb.toNat + ready.val * ticksPerFrame)
      (afterMotion (toEdge 9 8000000 s).sect.motion.valid (takeMotion (toEdge 9 8000000 s))) :=
    if_neg (by simp [hrun, hmode])
  generalize toEdge 9 8000000 s = u at *
  obtain ⟨hmotion, hclk⟩ := afterMotion_state u.sect.motion.valid (takeMotion u)
  rw [motion_takeMotion] at hmotion
  replace hclk := hclk.trans (takeMotion_frame u).2.2.2.2.2.1
  generalize afterMotion u.sect.motion.valid (takeMotion u) = v at *
  have ht : (advanceTo (u.clk.tb.toNat + ready.val * ticksPerFrame) v).sect.motion = updated u := by
    rw [advanceTo_sect]
    exact hmotion
  refine ⟨_, congrArg Host.Outcome.next hstep, ht, ?_, advanceTo_clk _ hclk⟩
  rw [ht, ← hlimit]
  exact updated_valid u

/-! ## Loss of motion (R179) -/

theorem mem_boundChannels {s : State} {n : Fin 32} (h : s.sect.ch[n].geom.isSome = true) : n ∈ boundChannels s := by
  simp only [boundChannels, List.mem_filter, List.mem_finRange, true_and]
  exact h

/-- A channel that loses the motion model: off at the commit floor, and stopped. -/
def halted (s : State) (n : Fin 32) : State :=
  setSect n (fun c => { c with stopped := true })
    (if s.sect.ch[n].target then addPred (floorEdge n false s) s else s)

theorem halted_ch (s : State) (n m : Fin 32) : (halted s n).sect.ch[m].stopped =
    if m = n then true else s.sect.ch[m].stopped := by
  have hkeep : (if s.sect.ch[n].target then addPred (floorEdge n false s) s else s).sect.ch = s.sect.ch := by
    split <;> rfl
  unfold halted
  simp only [Fin.getElem_fin, setSect_get]
  split
  · rfl
  · exact congrArg (fun v : Vector ChSect 32 => v[m.val].stopped) hkeep

theorem halted_all (l : List (Fin 32)) (m : Fin 32) (s : State) (h : m ∈ l ∨ s.sect.ch[m].stopped = true) :
    (l.foldl halted s).sect.ch[m].stopped = true := by
  induction l generalizing s with
  | nil => simpa using h
  | cons n l ih =>
    refine ih _ ?_
    rw [halted_ch]
    by_cases hmn : m = n
    · exact .inr (if_pos hmn)
    · rw [if_neg hmn]
      exact h.imp (fun hm => (List.mem_cons.mp hm).resolve_left hmn) id

theorem loseMotion_stops {s : State} {n : Fin 32} (h : s.sect.ch[n].geom.isSome = true) :
    (loseMotion s).sect.ch[n].stopped = true := by
  have hsect : (loseMotion s).sect = ((boundChannels s).foldl halted { s with sect := { s.sect with
      motion := { s.sect.motion with valid := false }, preds := [] } }).sect := by
    unfold loseMotion
    simp only [note_frame]
    rfl
  rw [hsect]
  exact halted_all _ n _ (.inl (mem_boundChannels h))

/-- The state in which the loss of motion is noticed. -/
def lossState (s : State) : State :=
  match s.sect.motion.fixFrame with
  | some f => advanceTo (tickAt (f + BitVec.ofNat 48 (100000 * s.sect.drLimit + 1)) 0 s) s
  | none => s

theorem motionLostCompletes {s : State} (hrun : hcoreRuns s = true) (hvalid : s.sect.motion.valid = true) :
    Completes .motionLost s fun t =>
      t.sect.motion.valid = false ∧ (∀ n : Fin 32, s.sect.ch[n].geom.isSome = true → t.sect.ch[n].stopped = true) ∧
      t.out = s.out ∧ t.clk = (lossState s).clk := by
  have hkeep : (lossState s).sect = s.sect ∧ (lossState s).out = s.out := by
    unfold lossState
    split <;> simp
  obtain ⟨hsect, hout⟩ := hkeep
  have hstep : exec .motionLost s = .next (loseMotion (lossState s)) :=
    congrArg Host.Outcome.next (if_pos (by simp [hvalid, hrun]))
  generalize lossState s = u at *
  refine ⟨_, hstep, ?_, fun n hn => loseMotion_stops (by rw [hsect]; exact hn), ?_, ?_⟩
  · exact congrArg Motion.valid (motion_loseMotion u)
  · simpa using hout
  · simp

/-! ## The hand-over at the commit floor (R182 to R184) -/

/-- The time of the latest update in fine steps. -/
def updateTime (s : State) : Nat := tickAt s.sect.motion.frame 0 s * 32

/-- The state at the commit floor of the latest update. -/
def atFloor (s : State) : State := advanceTo (tickAt s.sect.motion.frame 0 s + 2000 * ticksPerFrame) s

/-- The predictions due at the commit floor, in time order. -/
def duePreds (s : State) : List Pred :=
  sortBy (fun a b => decide (a.time < b.time)) (s.sect.preds.filter fun p => p.time < updateTime s + 20000 * 25600)

theorem handEdges_nil (s : State) : handEdges [] s = s := by
  simp [handEdges, sendEdges]

theorem handEdges_pair (p : List Edge × State) :
    (match p with | (es, s) => handEdges es s) = handEdges p.1 p.2 := by
  cases p
  rfl

theorem noneHeld {s : State} (h : s.barr.heldEdges = []) :
    ({ s with barr := { s.barr with heldEdges := [] } } : State) = s := by
  rw [← h]

theorem edgeHandover_free {s : State} (hrun : hcoreRuns s = true) (hclay : s.modes.clay = false)
    (hheld : s.barr.heldEdges = []) : edgeHandover s =
      handEdges ((duePreds s).foldl (handOne (updateTime s)) ([], atFloor s)).1
        ((duePreds s).foldl (handOne (updateTime s)) ([], atFloor s)).2 := by
  have hgo : (!hcoreRuns s) = false := by simp [hrun]
  have hdiv : tickAt s.sect.motion.frame 0 s * 32 / 32 = tickAt s.sect.motion.frame 0 s := by omega
  have hclay' : (atFloor s).modes.clay = false := by simpa [atFloor] using hclay
  have hheld' : (atFloor s).barr.heldEdges = [] := (advanceTo_held _ s).trans hheld
  have hsect : (atFloor s).sect = s.sect := by simp [atFloor]
  have hnone : ({ atFloor s with barr := { (atFloor s).barr with heldEdges := [] } } : State) = atFloor s :=
    noneHeld hheld'
  have hdue : sortBy (fun a b => decide (a.time < b.time))
      ((atFloor s).sect.preds.filter fun p => p.time < updateTime s + 20000 * 25600) = duePreds s := by
    rw [hsect, duePreds]
  have hU : tickAt s.sect.motion.frame 0 s * 32 = updateTime s := rfl
  have hF : advanceTo (updateTime s / 32 + 2000 * ticksPerFrame) s = atFloor s := by rw [updateTime, hdiv, atFloor]
  unfold edgeHandover
  rw [hgo, if_neg (by simp)]
  simp only [hU, hF]
  rw [hclay', if_neg (by simp)]
  rewrite [hheld', hnone, handEdges_nil, hdue]
  exact handEdges_pair _

theorem edgeHandover_idle {s : State} (hrun : hcoreRuns s = true) (hclay : s.modes.clay = false)
    (hpreds : s.sect.preds = []) (hheld : s.barr.heldEdges = []) : exec .edgeHandover s = .next (atFloor s) := by
  have hnone : duePreds s = [] := by simp [duePreds, hpreds, sortBy]
  refine congrArg Host.Outcome.next ?_
  rw [edgeHandover_free hrun hclay hheld, hnone]
  exact handEdges_nil _

theorem edgeHandover_one {p : Pred} {s : State} (hrun : hcoreRuns s = true) (hclay : s.modes.clay = false)
    (hpreds : s.sect.preds = [p]) (hheld : s.barr.heldEdges = []) (hdue : p.time < updateTime s + 20000 * 25600) :
    exec .edgeHandover s = .next (handEdges (handOne (updateTime s) ([], atFloor s) p).1
      (handOne (updateTime s) ([], atFloor s) p).2) := by
  have hone : duePreds s = [p] := by simp [duePreds, hpreds, hdue, sortBy, insertBy]
  refine congrArg Host.Outcome.next ?_
  rw [edgeHandover_free hrun hclay hheld, hone]
  rfl

/-- The prediction leaves the list and its crossing sets the target. -/
def targeted (p : Pred) (s : State) : State :=
  takeTarget p { s with sect := { s.sect with preds := s.sect.preds.erase p } }

theorem targeted_sect {p : Pred} {s : State} (hpreds : s.sect.preds = [p]) (hseg : p.seg.isSome = true) :
    (targeted p s).sect.preds = [] ∧ (targeted p s).sect.handed = s.sect.handed ∧
    (targeted p s).sect.ch[p.ch].target = p.on ∧ (targeted p s).fw = s.fw := by
  have hsome : p.seg.isNone = false := by simpa using hseg
  have hgone : [p].erase p = [] := by simp
  simp only [targeted, takeTarget, hsome, Bool.false_eq_true, if_false, Fin.getElem_fin, setSect_get, if_true]
  exact ⟨(congrArg (·.erase p) hpreds).trans hgone, rfl, trivial, rfl⟩

theorem sendEdges_frame (es : List Edge) (s : State) : (sendEdges es s).sect = s.sect ∧ (sendEdges es s).fw = s.fw := by
  induction es, s using sendEdges.induct with
  | case1 s => exact ⟨rfl, rfl⟩
  | case2 s a => simp [sendEdges]
  | case3 s a b r ih =>
    obtain ⟨hsect, hfw⟩ := ih
    rw [sendEdges, hsect, hfw]
    simp

theorem handEdges_sect (es : List Edge) (s : State) : (handEdges es s).sect = s.sect := by
  unfold handEdges
  exact (sendEdges_frame _ _).1

theorem missed_congr {s t : State} (p : Pred) (h : t.modes = s.modes) : missed t p = missed s p := by
  simp only [missed, h]

theorem handOne_cases (u : Nat) (s : State) (p : Pred) :
    (p.skip = true ∨ missed s p = true →
      handOne u ([], s) p = ([], asApplied (deadEdge p (if p.skip then 3 else 2)) (targeted p s))) ∧
    (p.skip = false → missed s p = false → ∃ e : Edge,
      handOne u ([], s) p = ([e], setSect p.ch (fun c => { c with lastEdge := max p.time (u + 2000 * 25600) })
        { targeted p s with sect := { (targeted p s).sect with handed := (targeted p s).sect.handed ++
          [⟨e, { p with late := p.late || decide (p.time < u + 2000 * 25600) }⟩] } }) ∧
      e.ch = p.ch ∧ e.on = p.on ∧ e.frame = BitVec.ofNat 48 (max p.time (u + 2000 * 25600) / 25600)) := by
  have hmiss : missed (targeted p s) p = missed s p := missed_congr p (by simp [targeted])
  refine ⟨fun h => ?_, fun hskip hnot => ?_⟩
  · cases hs : p.skip with
    | true => exact if_pos hs
    | false =>
      have hm : missed s p = true := h.resolve_left (by simp [hs])
      exact (if_neg (by simp [hs])).trans (if_pos (hmiss.trans hm))
  · have hnot' : ¬ missed (targeted p s) p = true := by rw [hmiss, hnot]; simp
    exact ⟨_, (if_neg (by simp [hskip])).trans (if_neg hnot'), rfl, rfl, rfl⟩

theorem edgeHandover_dropped {p : Pred} {s : State} (hrun : hcoreRuns s = true) (hclay : s.modes.clay = false)
    (hpreds : s.sect.preds = [p]) (hheld : s.barr.heldEdges = []) (hseg : p.seg.isSome = true)
    (hdue : p.time < updateTime s + 20000 * 25600) (h : p.skip = true ∨ missed s p = true) :
    Completes .edgeHandover s fun t =>
      t.sect.preds = [] ∧ t.sect.handed = s.sect.handed ∧ t.sect.ch[p.ch].target = p.on ∧
      (s.fw.asBuf.length < 4096 → ∃ r, t.fw.asBuf = s.fw.asBuf ++ [r] ∧
        r.outcome = (if p.skip then 3 else 2) ∧ r.ch = p.ch) := by
  have hmiss : missed (atFloor s) p = missed s p := missed_congr p (by simp [atFloor])
  have hsect : (atFloor s).sect = s.sect := by simp [atFloor]
  have hfw : (atFloor s).fw = s.fw := by simp [atFloor]
  have hstep := edgeHandover_one hrun hclay hpreds hheld hdue
  rw [(handOne_cases (updateTime s) (atFloor s) p).1 (by rw [hmiss]; exact h), handEdges_nil] at hstep
  generalize atFloor s = u at *
  obtain ⟨hempty, hhanded, htarget, hfw'⟩ := targeted_sect (s := u) (by rw [hsect]; exact hpreds) hseg
  refine ⟨_, hstep, ?_⟩
  simp only [asApplied_frame]
  refine ⟨hempty, hhanded.trans (by rw [hsect]), htarget, fun hroom => ?_⟩
  have hroom' : (targeted p u).fw.asBuf.length < 4096 := by rw [hfw', hfw]; exact hroom
  rw [asApplied, if_pos hroom']
  exact ⟨_, congrArg (· ++ _) (by rw [hfw', hfw]), rfl, rfl⟩

theorem edgeHandover_sent {p : Pred} {s : State} (hrun : hcoreRuns s = true) (hclay : s.modes.clay = false)
    (hpreds : s.sect.preds = [p]) (hheld : s.barr.heldEdges = []) (hseg : p.seg.isSome = true)
    (hdue : p.time < updateTime s + 20000 * 25600) (hskip : p.skip = false) (hnot : missed s p = false) :
    Completes .edgeHandover s fun t =>
      t.sect.preds = [] ∧ t.sect.ch[p.ch].target = p.on ∧
      t.sect.ch[p.ch].lastEdge = max p.time (updateTime s + 2000 * 25600) ∧
      ∃ h, t.sect.handed = s.sect.handed ++ [h] ∧ h.edge.ch = p.ch ∧ h.edge.on = p.on ∧
        h.edge.frame = BitVec.ofNat 48 (max p.time (updateTime s + 2000 * 25600) / 25600) ∧
        h.pred.late = (p.late || decide (p.time < updateTime s + 2000 * 25600)) := by
  have hmiss : missed (atFloor s) p = missed s p := missed_congr p (by simp [atFloor])
  have hsect : (atFloor s).sect = s.sect := by simp [atFloor]
  have hstep := edgeHandover_one hrun hclay hpreds hheld hdue
  obtain ⟨e, hone, hch, hon, hframe⟩ := (handOne_cases (updateTime s) (atFloor s) p).2 hskip (hmiss.trans hnot)
  rw [hone] at hstep
  generalize atFloor s = u at *
  obtain ⟨hempty, hhanded, htarget, -⟩ := targeted_sect (s := u) (by rw [hsect]; exact hpreds) hseg
  refine ⟨_, hstep, ?_⟩
  generalize updateTime s + 2000 * 25600 = floor at *
  simp only [handEdges_sect, Fin.getElem_fin, setSect_get, if_true]
  exact ⟨hempty, htarget, trivial, _, congrArg (· ++ _) (hhanded.trans (by rw [hsect])), hch, hon, hframe, rfl⟩

/-! ## A latency measurement (R188 to R190) -/

/-- The latency filter of a channel for one sense. -/
def latOf (on : Bool) (c : ChSect) : Machine.Lat := if on then c.latOn else c.latOff

/-- The latency filter of a channel for one sense, set. -/
def withLat (on : Bool) (l : Machine.Lat) (c : ChSect) : ChSect :=
  if on then { c with latOn := l } else { c with latOff := l }

theorem withLat_fields (on : Bool) (l : Machine.Lat) (c : ChSect) :
    latOf on (withLat on l c) = l ∧ (withLat on l c).acc = c.acc ∧ (withLat on l c).rej = c.rej := by
  cases on <;> exact ⟨rfl, rfl, rfl⟩

/-- The state in which an actuation is measured: the end of its window, and the actuation is taken off the list. -/
def measured (n : Fin 32) (a : BitVec 64 × Bool) (g : Geom) (s : State) : State :=
  advanceTo (a.1.toNat + g.window * 4000000) (setCh n (fun c => { c with acts := c.acts.erase a }) s)

theorem measured_state (n : Fin 32) (a : BitVec 64 × Bool) (g : Geom) (s : State) :
    (measured n a g s).sect = s.sect ∧ (measured n a g s).out.ch[n].acts = s.out.ch[n].acts.erase a ∧
    (measured n a g s).out.ch[n].turns = s.out.ch[n].turns ∧
    (measured n a g s).clk = (advanceTo (a.1.toNat + g.window * 4000000) s).clk ∧
    Only [.clk, .barr, .out] s (measured n a g s) := by
  unfold measured
  generalize a.1.toNat + g.window * 4000000 = m
  refine ⟨by simp, by simp, by simp, advanceTo_clk m (by simp), fun p hp => ?_⟩
  cases p <;> simp_all [same]

/-- An accepted measurement. -/
def accepted (n : Fin 32) (on : Bool) (g : Geom) (v : Nat) (l : Machine.Lat) (s : State) : State :=
  setSect n (fun c => withLat on (learn g.shift v l) { c with acc := satInc c.acc }) s

/-- A rejected measurement. -/
def rejected (n : Fin 32) (on : Bool) (why : Byte) (l : Machine.Lat) (s : State) : State :=
  setSect n (fun c => withLat on { l with run := l.run + 1, lastRej := why } { c with rej := satInc c.rej }) s

theorem latencyMeasure_judged {n : Fin 32} {on : Bool} {xs : List Nat} {edgeMv sigMv : Nat} {g : Geom}
    {a : BitVec 64 × Bool} {s : State} (hrun : hcoreRuns s = true) (hgeom : s.sect.ch[n].geom = some g)
    (hlearn : g.learn = true) (hmode : ochMode s n.val = 0 ∨ ochMode s n.val = 1 ∨ ochMode s n.val = 3)
    (hact : s.out.ch[n].acts.find? (fun a => a.2 == on) = some a) :
    latencyMeasure n on xs edgeMv sigMv s =
      match rejection (latOf on s.sect.ch[n]) (signature g on xs) (cutShort s n a.1 ((signature g on xs).getD 0))
          (supplyMoved edgeMv sigMv) with
      | none => groundMeasured n on a.1 ((signature g on xs).getD 0)
          (accepted n on g ((signature g on xs).getD 0) (latOf on s.sect.ch[n]) (measured n a g s))
      | some why =>
        if (latOf on s.sect.ch[n]).run + 1 = 16
        then note .host 0x0B02 1 (chanByte n) [why, BitVec.ofNat 8 (b2n on)]
          (rejected n on why (latOf on s.sect.ch[n]) (measured n a g s))
        else rejected n on why (latOf on s.sect.ch[n]) (measured n a g s) := by
  obtain ⟨hsect, -, hturns, -⟩ := measured_state n a g s
  have hgo : (!g.learn || !(decide (ochMode s n.val = 0) || decide (ochMode s n.val = 1) ||
      decide (ochMode s n.val = 3)) || !hcoreRuns s) = false := by
    simp [hlearn, hrun]
    tauto
  have hcut (v : Nat) : cutShort (measured n a g s) n a.1 v = cutShort s n a.1 v := by
    simp only [cutShort, hturns]
  unfold latencyMeasure
  simp only [hgeom, hact, hgo, Bool.false_eq_true, if_false]
  rewrite [← hcut, ← hsect]
  rfl

theorem only_setSect (n : Fin 32) (f : ChSect → ChSect) (s : State) : Only [.sect] s (setSect n f s) := fun p hp => by
  cases p <;> simp_all [same]

theorem only_groundMeasured (n : Fin 32) (on : Bool) (e : BitVec 64) (m : Nat) (s : State) :
    Only [.sect] s (groundMeasured n on e m s) := fun p hp => by
  cases p <;> simp_all [same]

theorem only_note_host (code : BitVec 16) (sev : BitVec 2) (chan : Byte) (data : List Byte) (s : State) :
    Only [.ev] s (note .host code sev chan data s) := fun p hp => by
  cases p <;> simp_all [same, note_host_barr]

/-- A measurement that changes channel n of the section state alone, from the state that measures it. -/
def Learns (n : Fin 32) (f : ChSect → ChSect) (u t : State) : Prop :=
  t.sect.ch[n] = f u.sect.ch[n] ∧ (∀ m : Fin 32, m ≠ n → t.sect.ch[m] = u.sect.ch[m]) ∧ t.out = u.out ∧
  t.clk = u.clk ∧ Only [.ev, .sect] u t

theorem learns_setSect (n : Fin 32) (f : ChSect → ChSect) (u : State) : Learns n f u (setSect n f u) := by
  refine ⟨?_, fun m hm => ?_, by simp, by simp, only_mono (only_setSect n f u) (by simp)⟩
  · exact (setSect_get n n f u).trans (if_pos rfl)
  · simp [hm]

theorem Learns.trans_sect {n : Fin 32} {f : ChSect → ChSect} {u v t : State} (h : Learns n f u v)
    (hch : t.sect.ch = v.sect.ch) (hout : t.out = v.out) (hclk : t.clk = v.clk) (honly : Only [.ev, .sect] v t) :
    Learns n f u t := by
  obtain ⟨hn, hother, hout', hclk', honly'⟩ := h
  unfold Learns
  rw [hch, hout, hclk]
  exact ⟨hn, hother, hout', hclk', only_trans honly' honly⟩

theorem Learns.ground {n : Fin 32} {f : ChSect → ChSect} {u v : State} (h : Learns n f u v) (on : Bool)
    (e : BitVec 64) (m : Nat) : Learns n f u (groundMeasured n on e m v) :=
  h.trans_sect rfl (by simp) (by simp) (only_mono (only_groundMeasured n on e m v) (by simp))

theorem Learns.noted {n : Fin 32} {f : ChSect → ChSect} {u v : State} (h : Learns n f u v) (code : BitVec 16)
    (sev : BitVec 2) (chan : Byte) (data : List Byte) : Learns n f u (note .host code sev chan data v) :=
  h.trans_sect (by simp) (by simp) (by simp) (only_mono (only_note_host code sev chan data v) (by simp))

theorem latencyMeasureCompletes {n : Fin 32} {on : Bool} {xs : List Nat} {edgeMv sigMv : Nat} {g : Geom}
    {a : BitVec 64 × Bool} {s : State} (hrun : hcoreRuns s = true) (hgeom : s.sect.ch[n].geom = some g)
    (hlearn : g.learn = true) (hmode : ochMode s n.val = 0 ∨ ochMode s n.val = 1 ∨ ochMode s n.val = 3)
    (hact : s.out.ch[n].acts.find? (fun a => a.2 == on) = some a) :
    Completes (.latencyMeasure n on xs edgeMv sigMv) s fun t =>
      Learns n (fun c =>
        match rejection (latOf on s.sect.ch[n]) (signature g on xs) (cutShort s n a.1 ((signature g on xs).getD 0))
            (supplyMoved edgeMv sigMv) with
        | none => withLat on (learn g.shift ((signature g on xs).getD 0) (latOf on s.sect.ch[n]))
            { c with acc := satInc c.acc }
        | some why => withLat on { latOf on s.sect.ch[n] with run := (latOf on s.sect.ch[n]).run + 1, lastRej := why }
            { c with rej := satInc c.rej }) (measured n a g s) t := by
  have hstep := latencyMeasure_judged (xs := xs) (edgeMv := edgeMv) (sigMv := sigMv) hrun hgeom hlearn hmode hact
  refine ⟨_, congrArg Host.Outcome.next hstep, ?_⟩
  clear hstep
  generalize measured n a g s = u
  cases rejection (latOf on s.sect.ch[n]) (signature g on xs) (cutShort s n a.1 ((signature g on xs).getD 0))
      (supplyMoved edgeMv sigMv) with
  | none => exact (learns_setSect n _ u).ground on _ _
  | some why =>
    dsimp only
    split
    · exact (learns_setSect n _ u).noted ..
    · exact learns_setSect n _ u

/-- Settles O33: an update takes the motion model, the commit floor hands its predictions over, and a measurement
joins or misses the filter of its channel. -/
theorem motionHandoverAndLatency : Obligations.MotionHandoverAndLatency := by
  unfold Obligations.MotionHandoverAndLatency
  intro s hrun
  refine ⟨fun ready hmode => motionUpdateCompletes ready hrun hmode, fun hvalid => ?_,
    fun hclay hpreds hheld => ⟨_, edgeHandover_idle hrun hclay hpreds hheld, rfl⟩,
    fun p hclay hpreds hheld hseg hdue => ⟨edgeHandover_dropped hrun hclay hpreds hheld hseg hdue,
      edgeHandover_sent hrun hclay hpreds hheld hseg hdue⟩,
    fun n on xs edgeMv sigMv g a hgeom hlearn hmode hact => ?_⟩
  · obtain ⟨t, hexec, hinvalid, hstop, hout, hclk⟩ := motionLostCompletes hrun hvalid
    refine ⟨t, hexec, hinvalid, hstop, hout, hclk.trans ?_⟩
    unfold lossState
    cases s.sect.motion.fixFrame <;> rfl
  obtain ⟨hsect, hacts, -, hclk, honly⟩ := measured_state n a g s
  obtain ⟨t, hexec, hn, hother, hout, hclk', honly'⟩ :=
    latencyMeasureCompletes (xs := xs) (edgeMv := edgeMv) (sigMv := sigMv) hrun hgeom hlearn hmode hact
  refine ⟨t, hexec, ?_, by rw [hout]; exact hacts, hclk'.trans hclk, fun m hm => (hother m hm).trans (by rw [hsect]),
    only_trans (only_mono honly (by simp)) (only_mono honly' (by simp))⟩
  rw [hsect] at hn
  have hfields := withLat_fields on
  cases hrej : rejection (latOf on s.sect.ch[n]) (signature g on xs) (cutShort s n a.1 ((signature g on xs).getD 0))
      (supplyMoved edgeMv sigMv) with
  | none =>
    simp only [hrej] at hn
    unfold latOf at hrej
    rw [hrej, hn]
    exact ⟨(hfields _ _).2.1, (hfields _ _).2.2, (hfields _ _).1⟩
  | some why =>
    simp only [hrej] at hn
    unfold latOf at hrej
    rw [hrej, hn]
    exact ⟨(hfields _ _).2.2, (hfields _ _).2.1, congrArg (·.est) (hfields _ _).1,
      congrArg (·.lastRej) (hfields _ _).1⟩

end Sys2Proof.Proofs

/-! What the drive of the outputs leaves of their commands: protections, blanking, the budget and the turns of a driver
change neither what a channel is commanded nor how its generator stands. -/

namespace Sys2Proof.Proofs

open Sys2Proof.Machine Sys2Proof.Safety Sys2Proof.Laws

/-- A channel without its drive: the protections, blanking, the turns and the place in the budget. -/
def ordered (c : Chan) : Chan :=
  { c with
    tripped := false, retryFrom := none, latched := false, trips := 0, clean := 0, tripInPeriod := false
    lastSrc := .overcurrent, tripPeriods := 0, blanking := false, inrush := false, turns := [], acts := []
    grant := .granted, placed := false, warned := false }

/-- What the channels are commanded and how their generators stand. -/
def orders (s : State) : Fin 32 → Chan := fun n => ordered s.out.ch[n]

theorem orders_of_out {s t : State} (h : t.out = s.out) : orders t = orders s := by
  unfold orders
  rw [h]

theorem orders_of_ch {s t : State} (h : t.out.ch = s.out.ch) : orders t = orders s := by
  unfold orders
  rw [h]

theorem orders_fields {s t : State} (h : orders t = orders s) (n : Fin 32) :
    t.out.ch[n].gate = s.out.ch[n].gate ∧ t.out.ch[n].ovr = s.out.ch[n].ovr ∧ t.out.ch[n].gen = s.out.ch[n].gen ∧
    t.out.ch[n].perStart = s.out.ch[n].perStart ∧ t.out.ch[n].period = s.out.ch[n].period ∧
    t.out.ch[n].onAt = s.out.ch[n].onAt ∧ t.out.ch[n].offAt = s.out.ch[n].offAt ∧
    t.out.ch[n].genOut = s.out.ch[n].genOut ∧ t.out.ch[n].queue = s.out.ch[n].queue ∧
    t.out.ch[n].peakPhase = s.out.ch[n].peakPhase ∧ t.out.ch[n].holdOff = s.out.ch[n].holdOff ∧
    t.out.ch[n].peakMiss = s.out.ch[n].peakMiss ∧ t.out.ch[n].holdAt = s.out.ch[n].holdAt ∧
    t.out.ch[n].edgeAt = s.out.ch[n].edgeAt ∧ t.out.ch[n].edgeFine = s.out.ch[n].edgeFine ∧
    t.out.ch[n].shortHeld = s.out.ch[n].shortHeld ∧ t.out.ch[n].hot = s.out.ch[n].hot ∧
    t.out.ch[n].obsOn = s.out.ch[n].obsOn ∧ t.out.ch[n].obsOff = s.out.ch[n].obsOff ∧
    t.out.ch[n].forceHold = s.out.ch[n].forceHold ∧ t.out.ch[n].onset = s.out.ch[n].onset ∧
    t.out.ch[n].sample = s.out.ch[n].sample ∧ t.out.ch[n].shorts = s.out.ch[n].shorts := by
  have hn := congrFun h n
  simp only [orders, ordered, Chan.mk.injEq] at hn
  simp only [hn, and_self]

theorem orders_setCh {n : Fin 32} {f : Chan → Chan} (s : State) (hf : ∀ c, ordered (f c) = ordered c) :
    orders (setCh n f s) = orders s := by
  funext m
  simp only [orders, Fin.getElem_fin, setCh_get]
  split
  · next h => rw [h, hf]
  · rfl

theorem orders_note (side : Side) (code : BitVec 16) (sev : BitVec 2) (chan : Byte) (data : List Byte) (s : State) :
    orders (note side code sev chan data s) = orders s := orders_of_out (by simp)

theorem ordered_countTrip (k : Nat) (src : TripSrc) (c : Chan) : ordered (countTrip k src c) = ordered c := by
  unfold countTrip
  split <;> rfl

theorem ordered_closePeriod (k : Nat) (c : Chan) : ordered (closePeriod k c) = ordered c := by
  unfold closePeriod
  split
  · rfl
  · split <;> rfl

theorem orders_noteTurn (old : State) (d : Fin 32) (s : State) : orders (noteTurn old d s) = orders s := by
  unfold noteTurn
  dsimp only
  split
  · rfl
  · exact orders_setCh s fun _ => rfl

theorem orders_openBlank (d : Fin 32) (s : State) : orders (openBlank d s) = orders s := orders_setCh s fun _ => rfl

theorem orders_trip (d : Fin 32) (src : TripSrc) (s : State) : orders (trip d src s) = orders s := by
  unfold trip
  extract_lets m was at' retry u
  have hu : orders u = orders s := orders_setCh s fun c => ordered_countTrip (latchN s m.val) src c
  split
  · exact (orders_note ..).trans hu
  · exact hu

theorem orders_tripOff (d : Fin 32) (src : TripSrc) (s : State) : orders (tripOff d src s) = orders s :=
  (foldl_keep orders _ (fun t d => orders_noteTurn s d t) _ _).trans (orders_trip d src s)

theorem orders_driverStart (d : Fin 32) (s : State) : orders (driverStart d s) = orders s := by
  unfold driverStart
  split
  · exact orders_openBlank d s
  · extract_lets blanked u
    have hu : orders u = orders s := orders_setCh s fun _ => rfl
    split
    · exact (orders_trip ..).trans hu
    · refine (orders_openBlank ..).trans (Eq.trans ?_ hu)
      exact orders_setCh u fun _ => rfl

theorem orders_turns (old : State) (l : List (Fin 32)) (s : State) :
    orders (l.foldl (fun s d => noteTurn old d s) s) = orders s :=
  foldl_keep orders _ (fun s d => orders_noteTurn old d s) l s

theorem orders_edges (old s : State) : orders (edges old s) = orders s := by
  refine (orders_turns ..).trans (foldl_keep orders _ (fun s d => ?_) _ s)
  split
  · rfl
  · split
    · exact orders_driverStart d s
    · split
      · refine (orders_openBlank ..).trans ?_
        exact orders_setCh s fun _ => rfl
      · rfl

theorem orders_resumed (old s : State) : orders (resumed old s) = orders s := by
  refine (orders_turns ..).trans (foldl_keep orders _ (fun s d => ?_) _ s)
  split
  · exact orders_driverStart d s
  · rfl

theorem orders_chopEdges (old s : State) : orders (chopEdges old s) = orders s := by
  refine (orders_turns ..).trans (foldl_keep orders _ (fun s d => ?_) _ s)
  split
  · exact orders_openBlank d s
  · rfl

theorem orders_judge (d : Fin 32) (s : State) : orders (judge d s) = orders s := by
  unfold judge
  extract_lets s1 g _ s2 _ s3 s4
  have h1 : orders s1 = orders s := orders_setCh s fun _ => rfl
  have h2 : orders s2 = orders s1 := by
    clear_value g
    cases g <;> rfl
  have h3 : orders s3 = orders s2 := by
    unfold s3
    split <;> rfl
  have h4 : orders s4 = orders s3 := by
    unfold s4
    split
    · exact orders_note ..
    · rfl
  refine Eq.trans ?_ (h4.trans (h3.trans (h2.trans h1)))
  exact orders_setCh s4 fun _ => rfl

theorem orders_rebudget (n : Fin 32) (was : Bool) (s : State) : orders (rebudget n was s) = orders s := by
  refine foldl_keep orders _ (fun s d => ?_) _ s
  split
  · rfl
  · split
    · exact orders_judge d s
    · split
      · exact orders_setCh s fun _ => rfl
      · rfl

theorem orders_closePeriods (n : Fin 32) (s : State) : orders (closePeriods n s) = orders s := by
  refine foldl_keep orders _ (fun s d => ?_) _ s
  split
  · rfl
  · exact orders_setCh s fun c => ordered_closePeriod _ c

theorem orders_fanGate (n : Fin 32) (on : Bool) (s : State) : orders (fanGate n on s) = orders s := rfl

theorem orders_retryTripped (n : Fin 32) (s : State) : orders (retryTripped n s) = orders s := by
  refine foldl_keep orders _ (fun s d => ?_) _ s
  split
  · exact orders_driverStart d s
  · rfl

/-! ## A gate goes off -/

/-- The command of a channel: gate, override and edges to come. -/
def commandOf (s : State) (n : Fin 32) : Bool × Override × List Edge :=
  (s.out.ch[n].gate, s.out.ch[n].ovr, s.out.ch[n].queue)

theorem commandOf_orders {s t : State} (h : orders t = orders s) (m : Fin 32) : commandOf t m = commandOf s m := by
  simp only [commandOf, orders_fields h m]

theorem commandOf_setCh {n : Fin 32} {f : Chan → Chan} (s : State) (m : Fin 32)
    (hovr : ∀ c, (f c).ovr = c.ovr ∧ (f c).queue = c.queue) :
    commandOf (setCh n f s) m =
      if m = n then ((f s.out.ch[n]).gate, s.out.ch[n].ovr, s.out.ch[n].queue) else commandOf s m := by
  simp only [commandOf, Fin.getElem_fin, setCh_get]
  split
  · rw [(hovr _).1, (hovr _).2]
  · rfl

theorem commandOf_keep {n : Fin 32} {f : Chan → Chan} (s : State) (m : Fin 32)
    (hf : ∀ c, (f c).gate = c.gate ∧ (f c).ovr = c.ovr ∧ (f c).queue = c.queue) :
    commandOf (setCh n f s) m = commandOf s m := by
  rw [commandOf_setCh s m fun c => (hf c).2, (hf _).1]
  split
  · next h => rw [h, commandOf]
  · rfl

theorem commandOf_startPeak (n m : Fin 32) (s : State) : commandOf (startPeak n s) m = commandOf s m :=
  commandOf_keep s m fun _ => ⟨rfl, rfl, rfl⟩

theorem commandOf_startPhase (n : Fin 32) (t0 : Nat) (m : Fin 32) (s : State) :
    commandOf (startPhase n t0 s) m = commandOf s m := by
  unfold startPhase
  dsimp only
  split
  · rfl
  · exact commandOf_keep s m fun _ => ⟨rfl, rfl, rfl⟩

theorem commandOf_loadPeriod (t : BitVec 64) (fine : BitVec 5) (n m : Fin 32) (s : State) :
    commandOf (loadPeriod t fine n s) m = commandOf s m := by
  unfold loadPeriod
  extract_lets offAt onAt out was u
  have hu : commandOf u m = commandOf s m := commandOf_keep s m fun _ => ⟨rfl, rfl, rfl⟩
  split
  · refine (commandOf_startPhase ..).trans (Eq.trans ?_ hu)
    exact commandOf_keep u m fun _ => ⟨rfl, rfl, rfl⟩
  · split
    · refine Eq.trans ?_ hu
      exact commandOf_keep u m fun _ => ⟨rfl, rfl, rfl⟩
    · exact hu

/-- A change of one gate leaves the other commands, the overrides and the edges to come. -/
theorem commandOf_setGateAt (fine : BitVec 5) (n m : Fin 32) (on : Bool) (s : State) :
    commandOf (setGateAt fine n on s) m =
      if m = n then (on, s.out.ch[n].ovr, s.out.ch[n].queue) else commandOf s m := by
  unfold setGateAt
  split
  · next hsame =>
    split
    · next h => rw [h, commandOf, hsame]
    · rfl
  · extract_lets u w v
    have hu : commandOf u m = if m = n then (on, s.out.ch[n].ovr, s.out.ch[n].queue) else commandOf s m :=
      commandOf_setCh (fanGate n on s) m fun _ => ⟨rfl, rfl⟩
    have hperiods : commandOf (closePeriods n u) m = commandOf u m := commandOf_orders (orders_closePeriods n u) m
    have hv : commandOf v m = commandOf u m := by
      unfold v
      split
      · split
        · exact commandOf_keep u m fun _ => ⟨rfl, rfl, rfl⟩
        · exact (commandOf_startPeak ..).trans ((commandOf_loadPeriod ..).trans hperiods)
      · have hw : commandOf w m = commandOf u m := by
          unfold w
          split
          · exact hperiods
          · rfl
        refine Eq.trans ?_ hw
        exact commandOf_keep w m fun _ => ⟨rfl, rfl, rfl⟩
    exact (commandOf_orders ((orders_rebudget ..).trans (orders_edges ..)) m).trans (hv.trans hu)

theorem setGate_off (n m : Fin 32) (s : State) : commandOf (setGate n false s) m =
    if m = n then (false, s.out.ch[n].ovr, s.out.ch[n].queue) else commandOf s m :=
  commandOf_setGateAt 0 n m false s

/-- A gate that changes off the generator sets the instant of its edge (R205, R207). -/
theorem setGateAt_edge {fine : BitVec 5} {n : Fin 32} {on : Bool} {s : State} (hdiff : s.out.ch[n].gate ≠ on)
    (hmode : ochMode s n.val = 0) : (setGateAt fine n on s).out.ch[n].edgeFine = fine := by
  unfold setGateAt
  rw [if_neg hdiff]
  extract_lets u w v
  have hfields := orders_fields ((orders_rebudget n (wants s n) (edges s v)).trans (orders_edges s v)) n
  simp only [hfields]
  have hfine (f : Chan → Chan) (x : State) (hf : ∀ c, (f c).edgeFine = fine) : (setCh n f x).out.ch[n].edgeFine = fine := by
    simp [hf]
  have hmode' : ochMode u n.val = 0 := by simpa [u, ochMode, och, reg] using hmode
  unfold v
  cases on with
  | true =>
    rw [if_pos rfl, if_pos hmode']
    exact hfine _ _ fun _ => by simp [edgeMoment]
  | false =>
    rw [if_neg (by simp)]
    exact hfine _ _ fun _ => by simp [edgeMoment]

end Sys2Proof.Proofs

/-! The opcodes of section control, and the set-points of the Task Controller. -/

namespace Sys2Proof.Proofs

open Sys2Proof.Machine Sys2Proof.Safety Sys2Proof.Laws

/-! ## SWITCH_LINE (R17, R198) -/

theorem storeLine_new {l : SwLine} {s : State} (hnew : s.sect.lines.all (fun x => x.id != l.id) = true)
    (hroom : s.sect.lines.length < 4096) :
    (storeLine l s).sect.lines = s.sect.lines ++ [l] ∧ (storeLine l s).sect.ch = s.sect.ch := by
  have hkeep : s.sect.lines.filter (fun x => x.id != l.id) = s.sect.lines :=
    List.filter_eq_self.mpr (List.all_eq_true.mp hnew)
  have hothers : (if l.id = 0 then s.sect.lines else s.sect.lines.filter fun x => x.id != l.id) = s.sect.lines := by
    rw [hkeep, ite_self]
  unfold storeLine
  rw [hothers]
  dsimp only
  rw [if_neg (Nat.not_le.mpr hroom)]
  exact ⟨rfl, rfl⟩

theorem only_storeLine (l : SwLine) (s : State) : Only [.sect] s (storeLine l s) := fun p hp => by
  cases p <;> simp_all [same]

/-- What SWITCH_LINE looks at is not touched by taking the request in. -/
theorem lines_taken (q : Request) (s : State) : lineCheck q (taken q s) = lineCheck q s ∧
    plannerSource q (taken q s) = plannerSource q s ∧ plannerDiffers (taken q s) = plannerDiffers s ∧
    planner (taken q s) = planner s :=
  ⟨taken_keep (lineCheck q) q s, taken_keep (plannerSource q) q s, taken_keep plannerDiffers q s,
    taken_keep planner q s⟩

theorem switchLine_refused {q : Request} {rs : List LineRec} {s : State} (h : Accepted 0x30 q s)
    (hparse : parseLines (reqBody q) = .ok rs) (hcheck : lineCheck q s = none)
    (hnot : plannerSource q s = false ∨ plannerDiffers s = true) : Answers (.switchLine q) q s (fun u =>
      { u with pkt := { u.pkt with plannerRefused := satInc u.pkt.plannerRefused } })
      { status := 0x11, detail := 0x25 } := by
  obtain ⟨hc, hsource, hdiff, -⟩ := lines_taken q s
  refine answers_of opSwitchLine h rfl rfl (hc.trans hcheck) ?_ (.inl (by decide))
  have hgo : (!plannerSource q (taken q s) || plannerDiffers (taken q s) ||
      rs.any (wrongKind (planner (taken q s) == 0))) = true := by
    rw [hsource, hdiff]
    rcases hnot with hs | hd
    · simp [hs]
    · simp [hd]
  simp only [opSwitchLine, switchLineAct, hparse, hgo, if_true]
  rfl

/-- The records in the store. -/
def stored (rs : List LineRec) (s : State) : State := rs.foldl (fun s r => storeRec r s) s

/-- SWITCH_LINE with records that the planner source sends, for which the store has room. -/
theorem switchLine_stores {q : Request} {rs : List LineRec} {s : State} (h : Accepted 0x30 q s)
    (hparse : parseLines (reqBody q) = .ok rs) (hcheck : lineCheck q s = none) (hsource : plannerSource q s = true)
    (hsame : plannerDiffers s = false) (hkind : rs.any (wrongKind (planner s == 0)) = false)
    (hroom : s.sect.lines.length + newPlaces (taken q s) rs (s.sect.lines.map (·.id)) ≤ 4096) {P : State → Prop}
    (hP : P (reply q { data := be 2 rs.length ++ be 2 (4096 - (stored rs (taken q s)).sect.lines.length) }
      (stored rs (taken q s)))) : Completes (.switchLine q) s P := by
  obtain ⟨hc, hsource', hdiff, hplan⟩ := lines_taken q s
  refine completes_of opSwitchLine h (hc.trans hcheck) ?_ hP
  have hgo : (!plannerSource q (taken q s) || plannerDiffers (taken q s) ||
      rs.any (wrongKind (planner (taken q s) == 0))) = false := by
    rw [hsource', hdiff, hplan, hsource, hsame, hkind]
    rfl
  have hlines : (taken q s).sect.lines = s.sect.lines := by simp
  simp only [opSwitchLine, switchLineAct, hparse, hgo, hlines, Bool.false_eq_true, if_false,
    if_neg (Nat.not_lt.mpr hroom)]
  rfl

theorem switchLine_line {q : Request} {l : SwLine} {s : State} (h : Accepted 0x30 q s)
    (hparse : parseLines (reqBody q) = .ok [.line l]) (hcheck : lineCheck q s = none)
    (hsource : plannerSource q s = true) (hsame : plannerDiffers s = false) (hplan : planner s ≠ 0)
    (hnew : s.sect.lines.all (fun x => x.id != l.id) = true) (hroom : s.sect.lines.length < 4096) :
    Completes (.switchLine q) s fun t => t.sect.lines = s.sect.lines ++ [l] ∧ t.sect.ch = s.sect.ch ∧
      Answered q { data := be 2 1 ++ be 2 (4095 - s.sect.lines.length) } t ∧ Served [.sect] s t := by
  have hsect : (taken q s).sect = s.sect := by simp
  obtain ⟨hlines, hch⟩ := storeLine_new (l := l) (s := taken q s) (by rw [hsect]; exact hnew)
    (by rw [hsect]; exact hroom)
  rw [hsect] at hlines hch
  have hid : (s.sect.lines.map (·.id)).contains l.id = false := by
    rw [List.contains_eq_any_beq]
    simp only [List.any_map, List.any_eq_false, List.all_eq_true, bne_iff_ne, ne_eq] at hnew ⊢
    exact fun x hx => by simpa using fun hxl => hnew x hx hxl.symm
  have hplaces : newPlaces (taken q s) [.line l] (s.sect.lines.map (·.id)) = 1 := by
    simp only [newPlaces, hid, Bool.false_eq_true, if_false]
  refine switchLine_stores h hparse hcheck hsource hsame ?_ (by rw [hplaces]; omega) ?_
  · simpa [wrongKind] using hplan
  · have hleft : 4096 - (storeLine l (taken q s)).sect.lines.length = 4095 - s.sect.lines.length := by
      rw [hlines, List.length_append]
      simp only [List.length_cons, List.length_nil]
      omega
    simp only [stored, List.foldl_cons, List.foldl_nil, storeRec, hleft, reply_frame]
    exact ⟨hlines, hch, ⟨_, rfl⟩, served_answer q _ (only_storeLine l _)⟩

theorem switchLine_origin {q : Request} {a b c : Word} {s : State} (h : Accepted 0x30 q s)
    (hparse : parseLines (reqBody q) = .ok [.origin a b c]) (hcheck : lineCheck q s = none)
    (hsource : plannerSource q s = true) (hsame : plannerDiffers s = false) (hplan : planner s ≠ 0)
    (hroom : s.sect.lines.length ≤ 4096) :
    Completes (.switchLine q) s fun t => t.sect.origin = some (a, b, c) ∧ t.sect.lines = s.sect.lines ∧
      Served [.sect] s t := by
  refine switchLine_stores h hparse hcheck hsource hsame ?_ (by simpa [newPlaces] using hroom) ?_
  · simpa [wrongKind] using hplan
  · simp only [stored, List.foldl_cons, List.foldl_nil, storeRec, reply_frame]
    refine ⟨trivial, by simp, served_answer q _ fun p hp => ?_⟩
    cases p <;> simp_all [same]

/-! ## SWITCH_CLEAR (R165, R443) -/

theorem mem_maskList {mask : Word} {n : Fin 32} : n ∈ maskList mask ↔ bit mask n.val = true := by
  simp [maskList]

/-- A change of some channels' section data, one after the other. -/
theorem setSect_foldl (f : ChSect → ChSect) (hf : ∀ c, f (f c) = f c) (l : List (Fin 32)) (n : Fin 32) (s : State) :
    (l.foldl (fun s n => setSect n f s) s).sect.ch[n] = if n ∈ l then f s.sect.ch[n] else s.sect.ch[n] := by
  induction l generalizing s with
  | nil => simp
  | cons m l ih =>
    rw [List.foldl_cons, ih]
    simp only [Fin.getElem_fin, setSect_get, List.mem_cons]
    by_cases hm : n = m
    · subst hm
      by_cases hl : n ∈ l <;> simp [hl, hf]
    · simp [hm]

/-- Gates that go off one after the other. -/
theorem gatesOff (l : List (Fin 32)) (n : Fin 32) (s : State) :
    commandOf (l.foldl (fun s n => setGate n false s) s) n =
      if n ∈ l then (false, s.out.ch[n].ovr, s.out.ch[n].queue) else commandOf s n := by
  induction l generalizing s with
  | nil => simp
  | cons m l ih =>
    have hm := setGate_off m n s
    have hovr : (setGate m false s).out.ch[n].ovr = s.out.ch[n].ovr ∧
        (setGate m false s).out.ch[n].queue = s.out.ch[n].queue := by
      split at hm
      · next h => subst h; exact ⟨congrArg (·.2.1) hm, congrArg (·.2.2) hm⟩
      · exact ⟨congrArg (·.2.1) hm, congrArg (·.2.2) hm⟩
    rw [List.foldl_cons, ih, hm, hovr.1, hovr.2]
    by_cases hl : n ∈ l
    · simp [hl]
    · by_cases h : n = m
      · subst h; simp [hl]
      · simp [hl, h]

theorem dropEdges_ch (mask : Word) (n : Fin 32) (s : State) : (dropEdges mask s).out.ch[n] =
    if bit mask n.val then { s.out.ch[n] with queue := [] } else s.out.ch[n] := by
  simp only [dropEdges, cutEdges_frame, vmapIdx_get]

theorem dropEdges_sect (mask : Word) (s : State) : (dropEdges mask s).sect =
    { s.sect with handed := (dropEdges mask s).sect.handed } := by
  have hcut (es : List Edge) (u : State) :
      (cutEdges es u).sect = { u.sect with handed := (cutEdges es u).sect.handed } := by
    unfold cutEdges
    dsimp only
    rw [foldl_keep (fun s : State => s.sect) _ (fun s h => by simp)]
  exact (hcut _ _).trans rfl

/-- The target of a section goes. -/
def untarget (s : State) (n : Fin 32) : State := setSect n (fun c => { c with target := false }) s

/-- The sections of a mask without their lines, predictions and targets. -/
def untargeted (mask : Word) (s : State) : State :=
  (maskList mask).foldl untarget { s with sect := { s.sect with
    lines := (s.sect.lines.map fun l => { l with mask := l.mask &&& ~~~ mask }).filter fun l => l.mask != 0
    preds := s.sect.preds.filter fun p => !bit mask p.ch.val } }

theorem untargeted_sect (mask : Word) (s : State) :
    (untargeted mask s).sect.lines =
      (s.sect.lines.map fun l => { l with mask := l.mask &&& ~~~ mask }).filter (fun l => l.mask != 0) ∧
    (untargeted mask s).sect.preds = s.sect.preds.filter (fun p => !bit mask p.ch.val) ∧
    (untargeted mask s).out = s.out := by
  refine ⟨?_, ?_, ?_⟩
  · exact foldl_keep (fun s : State => s.sect.lines) untarget (fun _ _ => rfl) _ _
  · exact foldl_keep (fun s : State => s.sect.preds) untarget (fun _ _ => rfl) _ _
  · exact foldl_keep (fun s : State => s.out) untarget (fun _ _ => rfl) _ _

theorem untargeted_ch (mask : Word) (n : Fin 32) (s : State) : (untargeted mask s).sect.ch[n] =
    if bit mask n.val then { s.sect.ch[n] with target := false } else s.sect.ch[n] := by
  refine (setSect_foldl (fun c => { c with target := false }) (fun _ => rfl) _ n _).trans ?_
  simp only [mem_maskList]

theorem switchClear_eq (mask : Word) (s : State) : switchClear mask s =
    (maskList mask).foldl (fun s n => setGate n false s) (dropEdges mask (untargeted mask s)) := rfl

theorem switchClear_sect (mask : Word) (s : State) : (switchClear mask s).sect.lines = (untargeted mask s).sect.lines ∧
    (switchClear mask s).sect.preds = (untargeted mask s).sect.preds ∧
    (switchClear mask s).sect.ch = (untargeted mask s).sect.ch := by
  have hgates : (switchClear mask s).sect = (dropEdges mask (untargeted mask s)).sect := by
    rw [switchClear_eq]
    exact foldl_keep (fun s : State => s.sect) _ (fun s n => by simp) _ _
  rw [hgates, dropEdges_sect]
  exact ⟨rfl, rfl, rfl⟩

theorem switchClear_command {mask : Word} {n : Fin 32} (s : State) (hn : bit mask n.val = true) :
    commandOf (switchClear mask s) n = (false, s.out.ch[n].ovr, []) := by
  obtain ⟨-, -, hout⟩ := untargeted_sect mask s
  rw [switchClear_eq, gatesOff, if_pos (mem_maskList.mpr hn), dropEdges_ch, if_pos hn, hout]

theorem unmasked_lines {mask : Word} {ls : List SwLine} {l : SwLine}
    (h : l ∈ (ls.map fun l => { l with mask := l.mask &&& ~~~ mask }).filter fun l => l.mask != 0) :
    l.mask &&& mask = 0 := by
  obtain ⟨h, -⟩ := List.mem_filter.mp h
  obtain ⟨x, -, rfl⟩ := List.mem_map.mp h
  ext i
  simp

theorem switchClearCompletes {q : Request} {s : State} (h : Accepted 0x31 q s) (hlen : (reqBody q).length = 4) :
    Completes (.switchClear q) s fun t =>
      (∀ l ∈ t.sect.lines, l.mask &&& wordAt (reqBody q) 0 = 0) ∧
      (∀ p ∈ t.sect.preds, bit (wordAt (reqBody q) 0) p.ch.val = false) ∧
      (∀ n : Fin 32, bit (wordAt (reqBody q) 0) n.val = true → t.out.ch[n].queue = [] ∧ t.out.ch[n].gate = false ∧
        t.sect.ch[n].target = false ∧ t.out.ch[n].ovr = s.out.ch[n].ovr) ∧
      (∀ n : Fin 32, bit (wordAt (reqBody q) 0) n.val = false → t.sect.ch[n] = s.sect.ch[n]) ∧
      Answered q { status := if contradicted (wordAt (reqBody q) 0) s then 0x41 else 0 } t := by
  have hbad : contradicted (wordAt (reqBody q) 0) (taken q s) = contradicted (wordAt (reqBody q) 0) s :=
    taken_keep (contradicted (wordAt (reqBody q) 0)) q s
  have hsect : (taken q s).sect = s.sect := by simp
  have hout : (taken q s).out = s.out := by simp
  refine completes_of opSwitchClear h (lenIs_of hlen) rfl ?_
  have hreply (a : Ans) (u : State) : (reply q a u).sect = u.sect ∧ (reply q a u).out = u.out := by simp
  rw [(hreply _ _).1, (hreply _ _).2, hbad]
  obtain ⟨hlines, hpreds, hch⟩ := switchClear_sect (wordAt (reqBody q) 0) (taken q s)
  obtain ⟨hlines', hpreds', -⟩ := untargeted_sect (wordAt (reqBody q) 0) (taken q s)
  rw [hlines, hpreds, hlines', hpreds']
  refine ⟨fun l => unmasked_lines, fun p hp => ?_, fun n hn => ?_, fun n hn => ?_, ⟨_, rfl⟩⟩
  · simpa using (List.mem_filter.mp hp).2
  · have hcmd := switchClear_command (taken q s) hn
    refine ⟨congrArg (·.2.2) hcmd, congrArg (·.1) hcmd, ?_, (congrArg (·.2.1) hcmd).trans (by rw [hout])⟩
    rw [hch, untargeted_ch, if_pos hn]
  · rw [hch, untargeted_ch, if_neg (by simp [hn]), hsect]

/-! ## Geometry, look-ahead and latencies (R176, R189, R199) -/

theorem geometry_taken (q : Request) (s : State) (rs : List GeoRec) :
    geometryFits rs s.sect.body.isSome (taken q s) = geometryFits rs s.sect.body.isSome s :=
  taken_keep (geometryFits rs s.sect.body.isSome) q s fun _ _ _ _ _ => by
    generalize s.sect.body.isSome = b
    induction rs generalizing b with
    | nil => rfl
    | cons r rs ih => cases r <;> simp only [geometryFits, ih] <;> rfl

theorem geometryCheck_taken {q : Request} {rs : List GeoRec} {s : State} (hparse : parseGeometry (reqBody q) = .ok rs)
    (hfit : geometryFits rs s.sect.body.isSome s = true) : geometryCheck q (taken q s) = none := by
  have hbody : (taken q s).sect.body = s.sect.body := by simp
  simp only [geometryCheck, hparse, hbody, geometry_taken, hfit, param, if_true]

theorem geometrySet_answers {q : Request} {rs : List GeoRec} {s : State} (h : Accepted 0x32 q s)
    (hparse : parseGeometry (reqBody q) = .ok rs) (hfit : geometryFits rs s.sect.body.isSome s = true) :
    (s.modes.mode = .loam → s.modes.clay = false →
      Answers (.geometrySet q) q s id { status := 0x11, detail := 0x23 }) ∧
    (s.modes.clay = true → s.id.variant = .b → rs.any isPlace = true →
      Answers (.geometrySet q) q s id { status := 0x13 }) ∧
    (s.modes.clay = true → s.id.variant = .g2 →
      Answers (.geometrySet q) q s (fun u => rs.foldl (fun s r => applyGeo r s) u) {}) := by
  have hc := geometryCheck_taken hparse hfit
  have hmodes : (taken q s).modes = s.modes := by simp
  have hid : (taken q s).id = s.id := by simp
  refine ⟨fun hmode hclay => ?_, fun hclay hv hplace => ?_, fun hclay hv => ?_⟩
  · refine answers_of opGeometrySet h rfl rfl hc ?_ (.inl (by decide))
    simp [opGeometrySet, geometrySetAct, hparse, hmodes, hmode, hclay, refuse]
  · refine answers_of opGeometrySet h rfl rfl hc ?_ (.inl (by decide))
    simp [opGeometrySet, geometrySetAct, hparse, hmodes, hclay, hid, hv, hplace, refuse]
  · refine answers_of opGeometrySet h rfl rfl hc ?_
    simp [opGeometrySet, geometrySetAct, hparse, hmodes, hclay, hid, hv, done]

/-- A change of the masked channels' section data alone. -/
theorem maskedSect (f : ChSect → ChSect) (hf : ∀ c, f (f c) = f c) (mask : Word) (n : Fin 32) (s : State) :
    ((maskList mask).foldl (fun s n => setSect n f s) s).sect.ch[n] =
      if bit mask n.val then f s.sect.ch[n] else s.sect.ch[n] := by
  simp only [setSect_foldl f hf, mem_maskList]

theorem only_maskedSect (f : ChSect → ChSect) (l : List (Fin 32)) (s : State) :
    Only [.sect] s (l.foldl (fun s n => setSect n f s) s) := by
  induction l generalizing s with
  | nil => exact fun p _ => by cases p <;> rfl
  | cons n l ih => exact only_trans (only_setSect n f s) (ih _)

/-- The look-ahead of a channel, taken from a string. -/
def withLook (b : List Byte) (c : ChSect) : ChSect :=
  { c with hyd := beAt b 0 2, flight := beAt b 2 2, margin := s16At b 4 }

/-- The latencies of a channel, seeded from a string. -/
def seeded (b : List Byte) (c : ChSect) : ChSect :=
  { c with latOn := { est := 10 * beAt b 4 2, seeded := true }, latOff := { est := 10 * beAt b 6 2, seeded := true } }

theorem lookaheadSetCompletes {q : Request} {s : State} (h : Accepted 0x33 q s) (hlen : (reqBody q).length = 10)
    (hlook : lookOk ((reqBody q).drop 4) = true) : Completes (.lookaheadSet q) s fun t =>
      (∀ n : Fin 32, t.sect.ch[n] = if bit (wordAt (reqBody q) 0) n.val then
        { s.sect.ch[n] with hyd := beAt (reqBody q) 4 2, flight := beAt (reqBody q) 6 2, margin := s16At (reqBody q) 8 }
        else s.sect.ch[n]) ∧ Answered q {} t ∧ Served [.sect] s t := by
  have hsect : (taken q s).sect = s.sect := by simp
  have hbe (k w : Nat) : beAt ((reqBody q).drop 4) k w = beAt (reqBody q) (4 + k) w := by
    simp [beAt, List.drop_drop]
  refine completes_of opLookaheadSet h ?_ rfl ?_
  · simp [opLookaheadSet, lenIs_of hlen, hlook, param]
  · have hch (n : Fin 32) := maskedSect (withLook ((reqBody q).drop 4)) (fun _ => rfl) (wordAt (reqBody q) 0) n
      (taken q s)
    simp only [reply_frame]
    refine ⟨fun n => (hch n).trans ?_, ⟨_, rfl⟩,
      served_answer q _ (only_maskedSect (withLook ((reqBody q).drop 4)) (maskList (wordAt (reqBody q) 0)) _)⟩
    simp only [hsect, withLook, hbe, s16At]

theorem latencySeedCompletes {q : Request} {s : State} (h : Accepted 0x35 q s) (hlen : (reqBody q).length = 8)
    (hon : 1 ≤ beAt (reqBody q) 4 2 ∧ beAt (reqBody q) 4 2 ≤ 20000)
    (hoff : 1 ≤ beAt (reqBody q) 6 2 ∧ beAt (reqBody q) 6 2 ≤ 20000) : Completes (.latencySeed q) s fun t =>
      (∀ n : Fin 32, t.sect.ch[n] = if bit (wordAt (reqBody q) 0) n.val then
        { s.sect.ch[n] with latOn := { est := 10 * beAt (reqBody q) 4 2, seeded := true },
                            latOff := { est := 10 * beAt (reqBody q) 6 2, seeded := true } }
        else s.sect.ch[n]) ∧ Answered q {} t ∧ Served [.sect] s t := by
  have hsect : (taken q s).sect = s.sect := by simp
  refine completes_of opLatencySeed h ?_ rfl ?_
  · simp [opLatencySeed, lenIs_of hlen, hon, hoff, inRange, param]
  · have hch (n : Fin 32) := maskedSect (seeded (reqBody q)) (fun _ => rfl) (wordAt (reqBody q) 0) n (taken q s)
    simp only [reply_frame]
    refine ⟨fun n => (hch n).trans ?_, ⟨_, rfl⟩,
      served_answer q _ (only_maskedSect (seeded (reqBody q)) (maskList (wordAt (reqBody q) 0)) _)⟩
    simp only [hsect, seeded]

theorem latencyGet_answers {q : Request} {s : State} (h : Accepted 0x34 q s) (hlen : (reqBody q).length = 2)
    (hone : 1 ≤ (byteAt (reqBody q) 1).toNat) (hmost : (byteAt (reqBody q) 1).toNat ≤ 16)
    (hend : (byteAt (reqBody q) 0).toNat + (byteAt (reqBody q) 1).toNat ≤ 32) : Answers (.latencyGet q) q s id {
      data := ((List.range (byteAt (reqBody q) 1).toNat).flatMap fun i =>
        latencyBytes s (Fin.ofNat 32 ((byteAt (reqBody q) 0).toNat + i))) } := by
  have hbytes (n : Fin 32) : latencyBytes (taken q s) n = latencyBytes s n := taken_keep (latencyBytes · n) q s
  refine answers_of opLatencyGet h rfl rfl ?_ ?_
  · simp [opLatencyGet, lenIs_of hlen, inRange, hone, hmost, hend, param]
  · simp only [opLatencyGet, hbytes]
    rfl

theorem motionGet_answers {q : Request} {s : State} (h : Accepted 0x36 q s) (hlen : (reqBody q).length = 0) :
    Answers (.motionGet q) q s id { data := motionBytes s.sect.motion } := by
  refine answers_of opMotionGet h rfl rfl (lenIs_of hlen) ?_
  simp [opMotionGet, done]

/-! ## Set-points of the Task Controller (R193) -/

/-- What the Task Controller wants of a section, and what the head has commanded. -/
def wishes (s : State) : List (Fin 256 × Bool × Frame48) × List (Fin 256 × Bool) := (s.sect.tcWant, s.sect.tcCmd)

theorem wishes_storeLine (l : SwLine) (s : State) : wishes (storeLine l s) = wishes s := by
  unfold storeLine
  extract_lets others
  split <;> rfl

theorem wishes_bridge (on : Bool) (mask : Word) (anchor : Frame48) (s : State) :
    wishes (bridge on mask anchor s) = wishes s := by
  refine foldl_keep wishes _ (fun s n => ?_) _ s
  split
  · rfl
  · exact wishes_storeLine ..

theorem bridgeSection_state (k : Fin 256) (on : Bool) (rx : Frame48) (s : State) :
    wishes (bridgeSection k on rx s) = (s.sect.tcWant, putSection k on s.sect.tcCmd) := by
  have hsend (f : ChainFrame) (u : State) : wishes (sendDown f (draw u)) = wishes u := by simp [wishes]
  unfold bridgeSection
  dsimp only
  split
  · rfl
  · split
    · exact (wishes_bridge ..).trans rfl
    · exact (hsend _ _).trans rfl

theorem tcSetpoint_wanted {k : Fin 256} {on : Bool} {f : Frame48} {s : State} (hrun : hcoreRuns s = true)
    (hplan : planner s = 0) (hhead : isHead s = true) : tcSetpoint k on f s = bridgeWanted k on f
      { s with sect := { s.sect with tcWant := s.sect.tcWant.filter (fun c => c.1 != k) ++ [(k, on, f)] } } :=
  if_neg (by simp [hrun, hplan, hhead])

theorem tcSetpoint_kept {k : Fin 256} {on : Bool} {f : Frame48} {s : State} (hrun : hcoreRuns s = true)
    (hplan : planner s = 0) (hhead : isHead s = true)
    (h : s.modes.clay = true ∨ islandHead s = true ∨ commanded s k = on) : exec (.tcSetpoint k on f) s = .next
      { s with sect := { s.sect with tcWant := s.sect.tcWant.filter (fun c => c.1 != k) ++ [(k, on, f)] } } := by
  refine congrArg Host.Outcome.next ((tcSetpoint_wanted hrun hplan hhead).trans (if_pos ?_))
  change (s.modes.clay || islandHead s || commanded s k == on) = true
  rcases h with h | h | h <;> simp [h]

theorem tcSetpoint_commanded {k : Fin 256} {on : Bool} {f : Frame48} {s : State} (hrun : hcoreRuns s = true)
    (hplan : planner s = 0) (hhead : isHead s = true) (hclay : s.modes.clay = false) (hmain : islandHead s = false)
    (hdiff : commanded s k ≠ on) : Completes (.tcSetpoint k on f) s fun t =>
      t.sect.tcWant = s.sect.tcWant.filter (fun c => c.1 != k) ++ [(k, on, f)] ∧
      t.sect.tcCmd = putSection k on s.sect.tcCmd ∧ t.out = s.out ∧ t.clk = s.clk := by
  refine ⟨_, congrArg Host.Outcome.next ((tcSetpoint_wanted hrun hplan hhead).trans (if_neg ?_)), ?_⟩
  · change ¬ (s.modes.clay || islandHead s || commanded s k == on) = true
    simp [hclay, hmain, hdiff]
  · generalize hu : ({ s with sect := { s.sect with
      tcWant := s.sect.tcWant.filter (fun c => c.1 != k) ++ [(k, on, f)] } } : State) = u
    have hwish := bridgeSection_state k on f u
    have hwant : u.sect.tcWant = s.sect.tcWant.filter (fun c => c.1 != k) ++ [(k, on, f)] := by rw [← hu]
    have hcmd : u.sect.tcCmd = s.sect.tcCmd ∧ u.out = s.out ∧ u.clk = s.clk := by rw [← hu]; exact ⟨rfl, rfl, rfl⟩
    obtain ⟨hcmd, hout, hclk⟩ := hcmd
    rw [hwant, hcmd] at hwish
    simp only [bridgeSection_frame]
    exact ⟨congrArg (·.1) hwish, congrArg (·.2) hwish, hout, hclk⟩

/-- Settles O34: each opcode of section control by its check and its action, and a set-point by whether it differs from
what is commanded. -/
theorem sectionOpcodesSetAndReport : Obligations.SectionOpcodesSetAndReport := by
  unfold Obligations.SectionOpcodesSetAndReport
  refine fun q s => ⟨fun rs h hparse hcheck => ⟨switchLine_refused h hparse hcheck,
      fun l hl hsource hsame hplan _ hnew hroom => ?_, fun a b c hr hsource hsame hplan hroom => ?_⟩,
    switchClearCompletes, fun rs => geometrySet_answers, lookaheadSetCompletes, latencyGet_answers,
    fun h hlen h1 h2 h3 h4 => latencySeedCompletes h hlen ⟨h1, h2⟩ ⟨h3, h4⟩, motionGet_answers,
    fun k on f hrun hplan hhead => ⟨tcSetpoint_kept hrun hplan hhead, tcSetpoint_commanded hrun hplan hhead⟩⟩
  · subst hl
    exact switchLine_line h hparse hcheck hsource hsame hplan hnew hroom
  · subst hr
    exact switchLine_origin h hparse hcheck hsource hsame hplan hroom

end Sys2Proof.Proofs

/-! One driver's drive: what a trip, an on-phase and a turn of one driver leave of the others, and the ticks at which
channels act. -/

namespace Sys2Proof.Proofs

open Sys2Proof.Machine Sys2Proof.Safety Sys2Proof.Laws

/-- The two states differ in the drive of driver n, and else in what no driver's output depends on. -/
structure Drives (n : Fin 32) (s t : State) : Prop where
  orders : orders t = orders s
  apart : ∀ m : Fin 32, m ≠ n → t.out.ch[m] = s.out.ch[m]
  lanes : lanes t = lanes s
  closed : t.out.discOpen = s.out.discOpen ∧ t.out.softStart = s.out.softStart
  only : Only [.barr, .out, .fw, .ev, .sect] s t

variable {n d : Fin 32} {s t u : State}

theorem Drives.refl (n : Fin 32) (s : State) : Drives n s s :=
  ⟨rfl, fun _ _ => rfl, rfl, ⟨rfl, rfl⟩, fun p _ => by cases p <;> rfl⟩

theorem Drives.trans (h : Drives n s t) (g : Drives n t u) : Drives n s u :=
  ⟨g.orders.trans h.orders, fun m hm => (g.apart m hm).trans (h.apart m hm), g.lanes.trans h.lanes,
    ⟨g.closed.1.trans h.closed.1, g.closed.2.trans h.closed.2⟩, only_trans h.only g.only⟩

theorem Drives.setCh {f : Chan → Chan} (hf : ∀ c, ordered (f c) = ordered c) : Drives n s (setCh n f s) := by
  refine ⟨orders_setCh s hf, fun m hm => ?_, lanes_of_barr (by simp), by simp [Machine.setCh], fun p hp => ?_⟩
  · rw [Fin.getElem_fin, setCh_get, if_neg hm]
    rfl
  · cases p <;> simp_all [same]

theorem Drives.note (code : BitVec 16) (sev : BitVec 2) (chan : Byte) (data : List Byte) :
    Drives n s (note .field code sev chan data s) :=
  ⟨orders_note .., fun m _ => by simp, lanes_note .., by simp, fun p hp => by cases p <;> simp_all [same]⟩

theorem Drives.noteLatch : Drives n s (noteLatch n s) := .note ..

theorem Drives.openBlank : Drives n s (openBlank n s) := .setCh fun _ => rfl

theorem Drives.noteTurn {old : State} : Drives n s (noteTurn old n s) := by
  unfold Machine.noteTurn
  dsimp only
  split
  · exact .refl n s
  · exact .setCh fun _ => rfl

theorem Drives.trip {src : TripSrc} (hd : leader s d = n) : Drives n s (trip d src s) := by
  subst hd
  unfold Machine.trip
  extract_lets m was at' retry u
  have hu : Drives m s u := .setCh fun c => ordered_countTrip (latchN s m.val) src c
  split
  · exact hu.trans .noteLatch
  · exact hu

theorem Drives.driverStart (hd : leader s n = n) : Drives n s (driverStart n s) := by
  unfold Machine.driverStart
  split
  · exact .openBlank
  · extract_lets blanked u
    have hu : Drives n s u := .setCh fun _ => rfl
    split
    · exact hu.trans (.trip (by simpa [u, leader, ochPair, reg] using hd))
    · refine hu.trans (Drives.trans ?_ .openBlank)
      exact .setCh fun _ => rfl

/-! ## What a driver's place and output depend on -/

theorem Drives.place (h : Drives n s t) : leader t = leader s ∧ sourceOf t = sourceOf s ∧ inverted t = inverted s ∧
    ochMode t = ochMode s ∧ fanHeld t = fanHeld s ∧ halves t = halves s := by
  have hid : t.id = s.id := h.only .id (by simp)
  have hregs : t.regs = s.regs := h.only .regs (by simp)
  have hsense : t.sense = s.sense := h.only .sense (by simp)
  refine ⟨?_, ?_, ?_, ?_, ?_, ?_⟩ <;> funext d <;>
    simp only [leader, sourceOf, inverted, ochMode, fanHeld, halves, ochPair, och, reg, hid, hregs, hsense] <;> rfl

theorem Drives.command (h : Drives n s t) (d : Fin 32) : command t d = command s d := by
  obtain ⟨hlead, -, -, hmode, -⟩ := h.place
  simp only [Machine.command, hlead, hmode, orders_fields h.orders (leader s d)]

theorem Drives.driverCmd (h : Drives n s t) (d : Fin 32) : driverCmd t d = driverCmd s d := by
  obtain ⟨-, hsource, hinv, -⟩ := h.place
  simp only [Machine.driverCmd, hsource, hinv, h.command]

/-- A driver that shares no drive with driver n keeps its output. -/
theorem Drives.driverOn (h : Drives n s t) (hd : d ≠ n) (hlead : leader s d ≠ n) : driverOn t d = driverOn s d := by
  obtain ⟨hleader, -, -, -, hfan, -⟩ := h.place
  have hmodes : t.modes = s.modes := h.only .modes (by simp)
  have hpwr : t.pwr = s.pwr := h.only .pwr (by simp)
  have hshot : t.barr.oneShot = s.barr.oneShot := by simp only [lanes_fields h.lanes]
  have hheld : held t d = held s d := by
    simp only [held, hleader, hfan, h.apart d hd, h.apart (leader s d) hlead]
  obtain ⟨hopen, hsoft⟩ := h.closed
  simp only [Machine.driverOn, h.driverCmd, hmodes, hheld, hleader, h.apart _ hlead, hopen, hsoft, domOn, hpwr, hshot]

/-! ## Turns: the record of a driver's output changes nothing that drives it -/

/-- A channel without the turns of its driver. -/
def timeless (c : Chan) : Chan := { c with turns := [], acts := [] }

theorem chan_setCh {α : Type} (p : Chan → α) {f : Chan → Chan} (s : State) (m : Fin 32) (hf : ∀ c, p (f c) = p c) :
    p (setCh n f s).out.ch[m] = p s.out.ch[m] := by
  rw [Fin.getElem_fin, setCh_get]
  split
  · next h => subst h; exact hf _
  · rfl

theorem noteTurn_shape (old : State) (d : Fin 32) (s : State) : noteTurn old d s = s ∨
    ∃ f : Chan → Chan, noteTurn old d s = setCh d f s ∧ ∀ c, timeless (f c) = timeless c := by
  unfold noteTurn
  dsimp only
  split
  · exact .inl rfl
  · exact .inr ⟨_, rfl, fun _ => rfl⟩

theorem driverOn_timeless {s t : State} (hch : ∀ m : Fin 32, timeless t.out.ch[m] = timeless s.out.ch[m])
    (hout : { t.out with ch := s.out.ch } = s.out) (honly : Only [.out] s t) : driverOn t = driverOn s := by
  have hfields (m : Fin 32) := hch m
  simp only [timeless, Chan.mk.injEq] at hfields
  have hid : t.id = s.id := honly .id (by simp)
  have hregs : t.regs = s.regs := honly .regs (by simp)
  have hsense : t.sense = s.sense := honly .sense (by simp)
  have hmodes : t.modes = s.modes := honly .modes (by simp)
  have hpwr : t.pwr = s.pwr := honly .pwr (by simp)
  have hbarr : t.barr = s.barr := honly .barr (by simp)
  have hopen : t.out.discOpen = s.out.discOpen := by
    have h := congrArg Outputs.discOpen hout
    exact h
  have hsoft : t.out.softStart = s.out.softStart := by
    have h := congrArg Outputs.softStart hout
    exact h
  funext d
  simp only [driverOn, driverCmd, command, held, fanHeld, leader, sourceOf, inverted, ochMode, ochPair, och, reg, domOn,
    hid, hregs, hsense, hmodes, hpwr, hbarr, hopen, hsoft, hfields]
  rfl

/-- The record of turns leaves the rest of the node, and every driver's output. -/
structure Turns (s t : State) : Prop where
  ch : ∀ m : Fin 32, timeless t.out.ch[m] = timeless s.out.ch[m]
  out : { t.out with ch := s.out.ch } = s.out
  only : Only [.out] s t

theorem Turns.refl (s : State) : Turns s s := ⟨fun _ => rfl, rfl, fun p _ => by cases p <;> rfl⟩

theorem Turns.trans (h : Turns s t) (g : Turns t u) : Turns s u :=
  ⟨fun m => (g.ch m).trans (h.ch m), (congrArg (fun o : Outputs => { o with ch := s.out.ch }) g.out).trans h.out,
    only_trans h.only g.only⟩

theorem Turns.noteTurn (old : State) (d : Fin 32) (s : State) : Turns s (noteTurn old d s) := by
  rcases noteTurn_shape old d s with h | ⟨f, h, hf⟩
  · rw [h]; exact .refl s
  · rw [h]
    refine ⟨fun m => chan_setCh timeless s m hf, by simp [Machine.setCh], fun p hp => ?_⟩
    cases p <;> simp_all [same]

theorem Turns.driverOn (h : Turns s t) : driverOn t = driverOn s := driverOn_timeless h.ch h.out h.only

theorem turns_fold (old : State) (l : List (Fin 32)) (s : State) :
    Turns s (l.foldl (fun s d => noteTurn old d s) s) := by
  induction l generalizing s with
  | nil => exact .refl s
  | cons d l ih => exact (Turns.noteTurn old d s).trans (ih _)

theorem noteTurn_apart {old : State} {m : Fin 32} (h : m ≠ d ∨ driverOn s m = driverOn old m) :
    (noteTurn old d s).out.ch[m] = s.out.ch[m] := by
  unfold noteTurn
  dsimp only
  split
  · rfl
  · next hturn =>
    have hm : m ≠ d := by
      rintro rfl
      exact hturn (by simp [h.resolve_left fun hne => hne rfl])
    rw [Fin.getElem_fin, setCh_get, if_neg hm]
    rfl

/-- A driver whose output is as before keeps its record. -/
theorem turns_apart {old : State} {m : Fin 32} (l : List (Fin 32)) (h : m ∉ l ∨ driverOn s m = driverOn old m) :
    (l.foldl (fun s d => noteTurn old d s) s).out.ch[m] = s.out.ch[m] := by
  induction l generalizing s with
  | nil => rfl
  | cons d l ih =>
    refine (ih (h.imp (fun hm hl => hm (List.mem_cons_of_mem d hl)) fun hm => ?_)).trans (noteTurn_apart ?_)
    · rw [(Turns.noteTurn old d s).driverOn]; exact hm
    · exact h.imp (fun hm hmd => hm (hmd ▸ List.mem_cons_self)) id

/-! ## Drivers that start -/

/-- What a channel's judgment and its protections other than a trip stand at. -/
def holds (c : Chan) : Grant × Bool × Bool := (c.grant, c.shortHeld, c.hot)

theorem holds_countTrip (k : Nat) (src : TripSrc) (c : Chan) : holds (countTrip k src c) = holds c := by
  unfold countTrip
  split <;> rfl

theorem holds_trip (d : Fin 32) (src : TripSrc) (m : Fin 32) (s : State) :
    holds (trip d src s).out.ch[m] = holds s.out.ch[m] := by
  unfold trip
  extract_lets x was at' retry u
  have hu : holds u.out.ch[m] = holds s.out.ch[m] := chan_setCh holds s m fun c => holds_countTrip _ src c
  split
  · exact (by simp [noteLatch] : holds (noteLatch x u).out.ch[m] = holds u.out.ch[m]).trans hu
  · exact hu

theorem holds_driverStart (d m : Fin 32) (s : State) :
    holds (driverStart d s).out.ch[m] = holds s.out.ch[m] := by
  have hset (f : Chan → Chan) (u : State) (hf : ∀ c, holds (f c) = holds c) :
      holds (setCh d f u).out.ch[m] = holds u.out.ch[m] := chan_setCh holds u m hf
  have hblank (u : State) : holds (openBlank d u).out.ch[m] = holds u.out.ch[m] := hset _ u fun _ => rfl
  unfold driverStart
  split
  · exact hblank s
  · extract_lets blanked u
    have hu : holds u.out.ch[m] = holds s.out.ch[m] := hset _ s fun _ => rfl
    split
    · exact (holds_trip ..).trans hu
    · refine (hblank _).trans (Eq.trans ?_ hu)
      exact hset _ u fun _ => rfl

/-- One driver's resumption. -/
def resumeOne (old s : State) (d : Fin 32) : State :=
  if leader s d == d && driverOn s d && !driverOn old d then driverStart d s else s

theorem resumed_eq (old s : State) : resumed old s = (List.finRange 32).foldl (fun s d => noteTurn old d s)
    ((List.finRange 32).foldl (resumeOne old) s) := rfl

theorem holds_timeless {c c' : Chan} (h : timeless c = timeless c') : holds c = holds c' := by
  simp only [timeless, Chan.mk.injEq] at h
  simp only [holds, h]

theorem holds_resumed (old : State) (m : Fin 32) (s : State) :
    holds (resumed old s).out.ch[m] = holds s.out.ch[m] := by
  have hturn := (turns_fold old (List.finRange 32) ((List.finRange 32).foldl (resumeOne old) s)).ch m
  rw [resumed_eq, holds_timeless hturn]
  refine foldl_keep (fun s : State => holds s.out.ch[m]) _ (fun s d => ?_) _ s
  unfold resumeOne
  split
  · exact holds_driverStart d m s
  · rfl

/-- When one driver alone comes to be driven, the drivers that start are that one alone. -/
theorem Drives.resumes (l : List (Fin 32)) (h : Drives n s t) : Drives n s (l.foldl (Proofs.resumeOne s) t) := by
  induction l generalizing t with
  | nil => exact h
  | cons d l ih =>
    refine ih ?_
    unfold Proofs.resumeOne
    split
    · next hgo =>
      simp only [Bool.and_eq_true, beq_iff_eq, Bool.not_eq_true'] at hgo
      obtain ⟨⟨hlead, hon⟩, hoff⟩ := hgo
      have hlead' : leader s d = d := by rw [← h.place.1]; exact hlead
      have hdn : d = n := by
        by_contra hne
        have := h.driverOn hne (by rw [hlead']; exact hne)
        rw [this, hoff] at hon
        exact absurd hon (by simp)
      subst hdn
      exact h.trans (.driverStart hlead)
    · exact h

/-- A driver that does not share the drive of n keeps its channel when n alone comes to be driven. -/
theorem Drives.resumed (h : Drives n s t) {m : Fin 32} (hm : m ≠ n) (hlead : leader s m ≠ n) :
    (resumed s t).out.ch[m] = s.out.ch[m] := by
  have hstart := h.resumes (List.finRange 32)
  rw [resumed_eq]
  exact (turns_apart _ (.inr (hstart.driverOn hm hlead))).trans (hstart.apart m hm)

/-! ## The ticks of a channel (R205 to R211, R222) -/

theorem loadTables_gate (n : Fin 32) (s : State) : (loadTables s).out.ch[n].gate = s.out.ch[n].gate := by
  simp only [loadTables, vmapIdx_get]
  split <;> rfl

theorem edgeExecuteCompletes {s : State} {n : Fin 32} {e : Edge} {q : List Edge} (hq : s.out.ch[n].queue = e :: q)
    (hclay : s.modes.clay = false) : Completes (.edgeExecute n) s fun t =>
      t.out.ch[n].queue = q ∧ t.out.ch[n].gate = e.on ∧ t.clk = (advanceTo (edgeKey s e) s).clk ∧
      (s.out.ch[n].gate ≠ e.on → ochMode s n.val = 0 → t.out.ch[n].edgeFine = e.fine) ∧
      Only [.free, .clk, .barr, .chain, .out, .sense, .fw, .ev, .sect] s t := by
  let u := loadTables (advanceTo (edgeKey s e) s)
  let v := setCh n (fun c => { c with queue := q, edgeFrame := now u }) u
  have hstep : edgeExecute n s = reportEdge e (recordEdge e (setGateAt e.fine n e.on v)) := by
    unfold edgeExecute
    split
    · next h => exact absurd (hq.symm.trans h) (by simp)
    · next e' q' h =>
      obtain ⟨rfl, rfl⟩ : e = e' ∧ q = q' := by simpa using hq.symm.trans h
      exact if_neg (by simp [hclay])
  have hgate : v.out.ch[n].gate = s.out.ch[n].gate := by
    have hv : v.out.ch[n].gate = u.out.ch[n].gate := chan_setCh (·.gate) u n fun _ => rfl
    exact hv.trans ((loadTables_gate n _).trans (by simp))
  have hqueue : v.out.ch[n].queue = q := by simp [v]
  have hmode : ochMode v n.val = ochMode s n.val := by simp [v, u, ochMode, och, reg]
  have hcmd := commandOf_setGateAt e.fine n n e.on v
  rw [if_pos rfl] at hcmd
  have honly : Only [.free, .clk, .barr, .chain, .out, .sense, .fw, .ev, .sect] s (edgeExecute n s) := fun p hp => by
    clear hstep
    cases p <;> simp_all [same]
  have hout : (edgeExecute n s).out = (setGateAt e.fine n e.on v).out := by
    rw [hstep]
    simp only [reportEdge_frame, recordEdge_frame]
  have hclk : (edgeExecute n s).clk = (advanceTo (edgeKey s e) s).clk := by
    rw [hstep]
    simp [v, u]
  refine ⟨edgeExecute n s, rfl, ?_, ?_, hclk, fun hdiff hm => ?_, honly⟩
  · rw [hout]
    exact (congrArg (·.2.2) hcmd).trans hqueue
  · rw [hout]
    exact congrArg (·.1) hcmd
  · rw [hout]
    exact setGateAt_edge (by rw [hgate]; exact hdiff) (hmode.trans hm)

/-- How the output of a channel stands: generator output, gate and the moment of its edge. -/
def outputOf (c : Chan) : Bool × Bool × BitVec 5 := (c.genOut, c.gate, c.edgeFine)

theorem outputOf_startPhase (n : Fin 32) (t0 : Nat) (m : Fin 32) (s : State) :
    outputOf (startPhase n t0 s).out.ch[m] = outputOf s.out.ch[m] := by
  unfold startPhase
  dsimp only
  split
  · rfl
  · exact chan_setCh outputOf s m fun _ => rfl

theorem outputOf_startPeak (n m : Fin 32) (s : State) : outputOf (startPeak n s).out.ch[m] = outputOf s.out.ch[m] :=
  chan_setCh outputOf s m fun _ => rfl

/-- The fine step of the coming edge of a generator. -/
def genFine (c : Chan) : Nat := c.perFine.toNat + (if c.genOut then c.offFine.toNat else c.onFine.toNat)

/-- The channel at a generator edge k ticks into its period, with TB moved to the edge's tick. -/
def genTurned (n : Fin 32) (k : Nat) (s : State) : State :=
  setCh n (fun c => edgeMoment (s.out.ch[n].perStart + BitVec.ofNat 64 k) (genFine s.out.ch[n])
    { c with genOut := !c.genOut }) (advanceTo (s.out.ch[n].perStart.toNat + k + genFine s.out.ch[n] / 32) s)

theorem outputOf_genTurned (n : Fin 32) (k : Nat) (s : State) : outputOf (genTurned n k s).out.ch[n] =
    (!s.out.ch[n].genOut, s.out.ch[n].gate, BitVec.ofNat 5 (genFine s.out.ch[n])) := by
  simp [outputOf, genTurned, edgeMoment]

theorem generatorEdge_eq {k : Nat} (hgen : s.out.ch[n].gen = true)
    (hnext : nextChange s.out.ch[n] (s.clk.tb.toNat - s.out.ch[n].perStart.toNat) = some k) :
    generatorEdge n s = edges (advanceTo (s.out.ch[n].perStart.toNat + k + genFine s.out.ch[n] / 32) s)
      (startPeak n (startPhase n k (genTurned n k s))) := by
  have hgo : ¬ (!s.out.ch[n].gen) = true := by rw [hgen]; decide
  unfold generatorEdge
  dsimp only
  rw [if_neg hgo, hnext]
  rfl

theorem only_generatorEdge (n : Fin 32) (s : State) : Only [.clk, .barr, .out, .ev] s (generatorEdge n s) :=
  fun p hp => by cases p <;> simp_all [same]

theorem generatorEdgeCompletes {s : State} {n : Fin 32} {k : Nat} (hgen : s.out.ch[n].gen = true)
    (hnext : nextChange s.out.ch[n] (s.clk.tb.toNat - s.out.ch[n].perStart.toNat) = some k) :
    Completes (.generatorEdge n) s fun t =>
      t.out.ch[n].genOut = !s.out.ch[n].genOut ∧ t.out.ch[n].gate = s.out.ch[n].gate ∧
      t.out.ch[n].edgeFine = BitVec.ofNat 5 (genFine s.out.ch[n]) ∧
      t.clk = (advanceTo (s.out.ch[n].perStart.toNat + k + genFine s.out.ch[n] / 32) s).clk ∧
      Only [.clk, .barr, .out, .ev] s t := by
  have hstep := generatorEdge_eq hgen hnext
  have honly := only_generatorEdge n s
  have hclk : (genTurned n k s).clk =
      (advanceTo (s.out.ch[n].perStart.toNat + k + genFine s.out.ch[n] / 32) s).clk := by
    simp only [genTurned, setCh_frame]
  have hkeep : outputOf (startPeak n (startPhase n k (genTurned n k s))).out.ch[n] =
      (!s.out.ch[n].genOut, s.out.ch[n].gate, BitVec.ofNat 5 (genFine s.out.ch[n])) := by
    rw [outputOf_startPeak, outputOf_startPhase, outputOf_genTurned]
  generalize advanceTo (s.out.ch[n].perStart.toNat + k + genFine s.out.ch[n] / 32) s = u at *
  generalize genTurned n k s = v at *
  have hfields := orders_fields (orders_edges u (startPeak n (startPhase n k v))) n
  have hend : (generatorEdge n s).clk = v.clk := by simp [hstep]
  refine ⟨generatorEdge n s, rfl, ?_, ?_, ?_, hend.trans hclk, honly⟩ <;> rw [hstep] <;> simp only [hfields]
  · exact congrArg (·.1) hkeep
  · exact congrArg (·.2.1) hkeep
  · exact congrArg (·.2.2) hkeep

/-- The period of a channel and its gate. -/
def periodOf (c : Chan) : BitVec 64 × Word × Word × Bool := (c.perStart, c.period, c.onAt, c.gate)

theorem periodOf_startPhase (n : Fin 32) (t0 : Nat) (m : Fin 32) (s : State) :
    periodOf (startPhase n t0 s).out.ch[m] = periodOf s.out.ch[m] := by
  unfold startPhase
  dsimp only
  split
  · rfl
  · exact chan_setCh periodOf s m fun _ => rfl

theorem periodOf_loadPeriod (t : BitVec 64) (fine : BitVec 5) (n : Fin 32) (s : State) :
    periodOf (loadPeriod t fine n s).out.ch[n] = (t, och s n.val 0x04, och s n.val 0x08, s.out.ch[n].gate) := by
  unfold loadPeriod
  extract_lets offAt onAt out was u
  have hu : periodOf u.out.ch[n] = (t, och s n.val 0x04, och s n.val 0x08, s.out.ch[n].gate) := by
    simp [periodOf, u, onAt]
  split
  · refine (periodOf_startPhase ..).trans (Eq.trans ?_ hu)
    exact chan_setCh periodOf u n fun _ => rfl
  · split
    · refine Eq.trans ?_ hu
      exact chan_setCh periodOf u n fun _ => rfl
    · exact hu

theorem periodBoundaryCompletes {s : State} {n : Fin 32} (hgen : s.out.ch[n].gen = true) :
    Completes (.periodBoundary n) s fun t =>
      t.out.ch[n].perStart = s.out.ch[n].perStart + s.out.ch[n].period.setWidth 64 ∧
      t.out.ch[n].period = och s n.val 0x04 ∧ t.out.ch[n].onAt = och s n.val 0x08 ∧
      t.out.ch[n].gate = s.out.ch[n].gate ∧ Only [.clk, .barr, .out, .ev] s t := by
  let t := s.out.ch[n].perStart + s.out.ch[n].period.setWidth 64
  let u := closePeriods n (advanceTo t.toNat s)
  let v := loadPeriod t s.out.ch[n].perFine n u
  let w := if v.out.ch[n].genOut && s.out.ch[n].genOut then v else startPeak n v
  have hstep : periodBoundary n s = retryTripped n (edges u w) := if_neg (by rw [hgen]; decide)
  have honly : Only [.clk, .barr, .out, .ev] s (periodBoundary n s) := fun p hp => by
    clear hstep
    cases p <;> simp_all [same]
  have hgate : u.out.ch[n].gate = s.out.ch[n].gate := by
    simp only [u, orders_fields (orders_closePeriods n (advanceTo t.toNat s)) n, advanceTo_frame]
  have hregs : och u = och s := by
    funext k a
    simp [u, och, reg]
  have hv : periodOf v.out.ch[n] = (t, och s n.val 0x04, och s n.val 0x08, s.out.ch[n].gate) := by
    rw [← hgate, ← hregs]
    exact periodOf_loadPeriod t _ n u
  have hw : periodOf w.out.ch[n] = (t, och s n.val 0x04, och s n.val 0x08, s.out.ch[n].gate) := by
    refine Eq.trans ?_ hv
    unfold w
    split
    · rfl
    · exact chan_setCh periodOf v n fun _ => rfl
  have hfields := orders_fields ((orders_retryTripped n (edges u w)).trans (orders_edges u w)) n
  refine ⟨periodBoundary n s, rfl, ?_, ?_, ?_, ?_, honly⟩ <;> rw [hstep] <;> simp only [hfields]
  · exact congrArg (·.1) hw
  · exact congrArg (·.2.1) hw
  · exact congrArg (·.2.2.1) hw
  · exact congrArg (·.2.2.2) hw

theorem countingPeriodEndCompletes {s : State} {n : Fin 32}
    (h : s.out.ch[feeder s n].gen = false ∨ fanHeld s n = true) : Completes (.countingPeriodEnd n) s fun t =>
      t.out.ch[n] = closePeriod (leakK s n.val) s.out.ch[n] ∧
      (∀ m : Fin 32, m ≠ n → t.out.ch[m] = s.out.ch[m]) ∧
      t.clk = (toEdge (100 + n.val) 800000 s).clk ∧ Only [.clk, .barr, .out] s t := by
  have hgo : (s.out.ch[feeder s n].gen && !fanHeld s n) = false := by
    rcases h with h | h <;> rw [h]
    · rfl
    · exact Bool.and_false _
  have hstep : countingPeriodEnd n s =
      setCh n (closePeriod (leakK (toEdge (100 + n.val) 800000 s) n.val)) (toEdge (100 + n.val) 800000 s) :=
    if_neg (by rw [hgo]; decide)
  have hout : (toEdge (100 + n.val) 800000 s).out = s.out := by simp
  have hleak : leakK (toEdge (100 + n.val) 800000 s) n.val = leakK s n.val := by simp [leakK, och, reg]
  have honly : Only [.clk, .barr, .out] s (countingPeriodEnd n s) := fun p hp => by
    clear hstep
    cases p <;> simp_all [same]
  rw [hleak] at hstep
  rw [hstep] at honly
  generalize toEdge (100 + n.val) 800000 s = u at *
  refine ⟨_, congrArg Host.Outcome.next hstep, ?_, fun m hm => ?_, by simp, honly⟩
  · rw [Fin.getElem_fin, setCh_get, if_pos rfl, hout]
    rfl
  · rw [Fin.getElem_fin, setCh_get, if_neg hm, hout]
    rfl

/-! ## The energising of a driver that waited (R447) -/

/-- Driver n is granted and energised in the frame at hand. -/
def granted (n : Fin 32) (s : State) : State :=
  recordLate n (setCh n (fun c => { c with grant := .granted })
    { s with out := { s.out with recent := recentIn s (now s) ++ [now s] } })

theorem granted_drives (n : Fin 32) (s : State) : Drives n s (granted n s) := by
  have hrecent : Drives n s { s with out := { s.out with recent := recentIn s (now s) ++ [now s] } } :=
    ⟨rfl, fun _ _ => rfl, rfl, ⟨rfl, rfl⟩, fun p hp => by cases p <;> simp_all [same]⟩
  have hset := hrecent.trans (.setCh (f := fun c => { c with grant := .granted }) fun _ => rfl)
  refine hset.trans ⟨?_, fun m _ => ?_, lanes_of_barr ?_, ?_, fun p hp => ?_⟩
  · exact orders_of_out (by simp [granted])
  · simp [granted]
  · simp [granted]
  · simp [granted]
  · cases p <;> simp_all [same, granted]

theorem granted_grant (n : Fin 32) (s : State) : (granted n s).out.ch[n].grant = .granted := by
  simp [granted]

theorem rejudge_staggered {n : Fin 32} {s : State} (hgrant : s.out.ch[n].grant = .staggered)
    (hroom : (Machine.standing (dueInFrame s) s).2 < stagN s) : rejudge n s = resumed s (granted n s) := by
  unfold rejudge
  dsimp only
  rw [if_pos hgrant, if_pos hroom]
  rfl

theorem staggerEnergise_eq {s : State} {n : Fin 32} (hwait : waiting s = [n])
    (hgrant : s.out.ch[n].grant = .staggered) : staggerEnergise s = rejudge n
    (advanceTo (tickAt (roomFrame s.out.recent (stagN s) (field (reg s 0x140014) 13 0) (now s + 1)) 0 s) s) := by
  have hkeep (k : Nat) : waiting (advanceTo k s) = [n] := by
    rw [← hwait]
    simp only [waiting, advanceTo_frame]
  unfold staggerEnergise
  dsimp only
  rw [hkeep, hwait]
  simp only [List.isEmpty_cons, Bool.false_eq_true, ↓reduceIte, List.any_cons, List.any_nil, Bool.or_false, hgrant,
    decide_true, List.foldl_cons, List.foldl_nil]

theorem staggerEnergiseCompletes {s u : State} {n : Fin 32} (hwait : waiting s = [n])
    (hgrant : s.out.ch[n].grant = .staggered)
    (hu : u = advanceTo (tickAt (roomFrame s.out.recent (stagN s) (field (reg s 0x140014) 13 0) (now s + 1)) 0 s) s)
    (hroom : (Machine.standing (dueInFrame u) u).2 < stagN s) : Completes .staggerEnergise s fun t =>
      t.out.ch[n].grant = .granted ∧ t.clk = u.clk ∧
      (∀ m : Fin 32, m ≠ n → leader s m ≠ n → t.out.ch[m] = s.out.ch[m]) ∧
      Only [.clk, .barr, .out, .fw, .ev, .sect] s t := by
  have hout : u.out = s.out := by rw [hu]; simp
  have hstag : stagN u = stagN s := by rw [hu]; simp [stagN, reg]
  have hlead : leader u = leader s := by funext m; rw [hu]; simp [leader, ochPair, reg]
  have hstep : staggerEnergise s = resumed u (granted n u) := by
    rw [staggerEnergise_eq hwait hgrant, ← hu]
    exact rejudge_staggered (by rw [hout]; exact hgrant) (by rw [hstag]; exact hroom)
  have honly : Only [.clk, .barr, .out, .fw, .ev, .sect] s (staggerEnergise s) := fun p hp => by
    clear hu hroom hstep
    cases p <;> simp_all [same]
  refine ⟨_, congrArg Host.Outcome.next hstep, ?_, by simp [granted], fun m hm hl => ?_, hstep ▸ honly⟩
  · exact (congrArg (·.1) (holds_resumed u n (granted n u))).trans (granted_grant n u)
  · rw [← hout]
    exact (granted_drives n u).resumed hm (by rw [hlead]; exact hl)

/-- Settles O35: each tick moves TB to its moment and hands on one command; what the gate drive makes of it leaves
the order of the channel. -/
theorem channelsActAtTheirTicks : Obligations.ChannelsActAtTheirTicks := by
  unfold Obligations.ChannelsActAtTheirTicks
  intro s n
  refine ⟨fun e q hq hclay => edgeExecuteCompletes hq hclay, fun k hgen hnext => generatorEdgeCompletes hgen hnext,
    fun hgen => periodBoundaryCompletes hgen, fun h => countingPeriodEndCompletes h, fun hwait hgrant => ?_⟩
  intro f u hroom
  exact staggerEnergiseCompletes hwait hgrant rfl hroom

end Sys2Proof.Proofs

/-! Trips: the gate drive they take from their driver, and the ends of their timers (R218 to R221). -/

namespace Sys2Proof.Proofs

open Sys2Proof.Machine Sys2Proof.Safety Sys2Proof.Laws

variable {n d m : Fin 32} {s t u : State}

theorem leader_leader (s : State) (d : Fin 32) : leader s (leader s d) = leader s d := by
  unfold leader
  split
  · next h =>
    rw [if_neg]
    have hd := d.isLt
    have hodd : (Fin.ofNat 32 (d.val - 1)).val % 2 = 0 := by
      simp only [Bool.and_eq_true, decide_eq_true_eq] at h
      rw [Fin.val_ofNat]
      omega
    rw [hodd]
    simp
  · rfl

theorem driverOn_of_held (h : held s n = true) : driverOn s n = false := by
  simp [driverOn, h]

theorem driverOn_of_tripped (h : s.out.ch[leader s n].tripped = true) : driverOn s n = false :=
  driverOn_of_held (by simp only [held, h, Bool.true_or])

theorem driverOn_of_shortHeld (h : s.out.ch[n].shortHeld = true) : driverOn s n = false :=
  driverOn_of_held (by simp only [held, h, Bool.true_or, Bool.or_true])

theorem driverOn_of_hot (h : s.out.ch[n].hot = true) : driverOn s n = false :=
  driverOn_of_held (by simp only [held, h, Bool.or_true])

/-- What a channel is commanded to do, its records and its timers, less what a trip changes. -/
def untripped (c : Chan) : Chan :=
  { c with tripped := false, latched := false, trips := 0, clean := 0, tripInPeriod := false, tripPeriods := 0,
           lastSrc := .overcurrent, retryFrom := none, turns := [], acts := [] }

theorem untripped_countTrip (k : Nat) (src : TripSrc) (c : Chan) : untripped (countTrip k src c) = untripped c := by
  unfold countTrip
  split <;> rfl

theorem untripped_fields {c c' : Chan} (h : untripped c = untripped c') :
    c.shorts = c'.shorts ∧ c.blanking = c'.blanking := by
  simp only [untripped, Chan.mk.injEq] at h
  simp only [h, and_self]

/-! ## One trip -/

theorem trip_ch (d : Fin 32) (src : TripSrc) (s : State) : ∃ r : Option Frame48, ∀ m : Fin 32,
    (trip d src s).out.ch[m] = if m = leader s d then
      { countTrip (latchN s (leader s d).val) src s.out.ch[m] with tripped := true, retryFrom := r }
      else s.out.ch[m] := by
  unfold trip
  extract_lets x was at' retry u
  refine ⟨retry, fun m => ?_⟩
  have hu : u.out.ch[m] = if m = leader s d then
      { countTrip (latchN s (leader s d).val) src s.out.ch[m] with tripped := true, retryFrom := retry }
      else s.out.ch[m] := by
    rw [Fin.getElem_fin, setCh_get]
    split
    · next h => subst h; rfl
    · rfl
  split
  · exact (by simp [noteLatch] : (noteLatch x u).out.ch[m] = u.out.ch[m]).trans hu
  · exact hu

theorem trip_out (d : Fin 32) (src : TripSrc) (s : State) :
    { (trip d src s).out with ch := s.out.ch } = s.out := by
  unfold trip
  extract_lets x was at' retry u
  have hu : { u.out with ch := s.out.ch } = s.out := by simp [u, setCh]
  have hout : (if u.out.ch[x].latched && !was then noteLatch x u else u).out = u.out := by
    split
    · simp [noteLatch]
    · rfl
  exact (congrArg (fun o : Outputs => { o with ch := s.out.ch }) hout).trans hu

/-- What a trip leaves: the commands, the place of every driver, the other supervision and, where drive goes, that it
goes. -/
structure Trips (s t : State) : Prop where
  ch : ∀ m : Fin 32, untripped t.out.ch[m] = untripped s.out.ch[m]
  out : { t.out with ch := s.out.ch } = s.out
  off : ∀ m : Fin 32, driverOn s m = false → driverOn t m = false
  only : Only [.barr, .out, .ev] s t

theorem Trips.refl (s : State) : Trips s s := ⟨fun _ => rfl, rfl, fun _ h => h, fun p _ => by cases p <;> rfl⟩

theorem Trips.trans (h : Trips s t) (g : Trips t u) : Trips s u :=
  ⟨fun m => (g.ch m).trans (h.ch m), (congrArg (fun o : Outputs => { o with ch := s.out.ch }) g.out).trans h.out,
    fun m hm => g.off m (h.off m hm), only_trans h.only g.only⟩

theorem Trips.reg (h : Trips s t) : reg t = reg s := by
  have hid : t.id = s.id := h.only .id (by simp)
  have hregs : t.regs = s.regs := h.only .regs (by simp)
  funext a
  simp only [Machine.reg, hid, hregs]

theorem Trips.leader (h : Trips s t) : leader t = leader s := by
  funext m
  simp only [Machine.leader, ochPair, h.reg]
  rfl

/-- A trip takes the gate drive of the driver and of what follows it, and of no other. -/
theorem driverOn_trip (d : Fin 32) (src : TripSrc) (s : State) (m : Fin 32) :
    driverOn (trip d src s) m = (driverOn s m && leader s m != leader s d) := by
  have hdrive : Drives (leader s d) s (trip d src s) := .trip rfl
  by_cases hm : leader s m = leader s d
  · obtain ⟨r, hch⟩ := trip_ch d src s
    have htrip : (trip d src s).out.ch[leader (trip d src s) m].tripped = true := by
      simp only [hdrive.place.1, hch, if_pos hm]
    rw [driverOn_of_tripped htrip, hm]
    simp
  · have hne : m ≠ leader s d := fun h => hm (by rw [h, leader_leader])
    rw [hdrive.driverOn hne hm]
    simp [hm]

theorem tripOff_turns (d : Fin 32) (src : TripSrc) (s : State) : Turns (trip d src s) (tripOff d src s) :=
  turns_fold s (halves s (leader s d)) (trip d src s)

theorem driverOn_tripOff (d : Fin 32) (src : TripSrc) (s : State) (m : Fin 32) :
    driverOn (tripOff d src s) m = (driverOn s m && leader s m != leader s d) := by
  rw [(tripOff_turns d src s).driverOn, driverOn_trip]

theorem driverOn_tripOff_self (d : Fin 32) (src : TripSrc) (s : State) : driverOn (tripOff d src s) d = false := by
  rw [driverOn_tripOff]
  simp

theorem untripped_timeless {c c' : Chan} (h : timeless c = timeless c') : untripped c = untripped c' := by
  simp only [timeless, Chan.mk.injEq] at h
  simp only [untripped, h]

theorem Trips.tripOff (d : Fin 32) (src : TripSrc) (s : State) : Trips s (tripOff d src s) := by
  have hturn := tripOff_turns d src s
  obtain ⟨r, hch⟩ := trip_ch d src s
  refine ⟨fun m => (untripped_timeless (hturn.ch m)).trans ?_, ?_, fun m hm => ?_, fun p hp => ?_⟩
  · rw [hch]
    split
    · exact untripped_countTrip _ src _
    · rfl
  · exact (congrArg (fun o : Outputs => { o with ch := s.out.ch }) hturn.out).trans (trip_out d src s)
  · rw [driverOn_tripOff, hm]
    rfl
  · cases p <;> simp_all [same]

/-- A trip joins the records of the channel that leads its driver. -/
theorem tripOff_records (d : Fin 32) (src : TripSrc) (s : State) :
    (tripOff d src s).out.ch[leader s d].tripped = true ∧ (tripOff d src s).out.ch[leader s d].lastSrc = src ∧
    (tripOff d src s).out.ch[leader s d].trips = (if s.out.ch[leader s d].tripInPeriod then s.out.ch[leader s d].trips
      else satInc s.out.ch[leader s d].trips) := by
  have hturn := (tripOff_turns d src s).ch (leader s d)
  obtain ⟨r, hch⟩ := trip_ch d src s
  have hlead := hch (leader s d)
  rw [if_pos rfl] at hlead
  simp only [timeless, hlead, Chan.mk.injEq] at hturn
  simp only [hturn]
  unfold countTrip
  split <;> exact ⟨trivial, rfl, rfl⟩

theorem turnsOf_apart {old : State} {l : List (Fin 32)} (hm : m ∉ l) :
    (l.foldl (fun s d => noteTurn old d s) s).out.ch[m] = s.out.ch[m] := turns_apart l (.inl hm)

theorem tripOff_apart {src : TripSrc} (hm : m ≠ leader s d) (hlead : leader s m ≠ leader s d) :
    (tripOff d src s).out.ch[m] = s.out.ch[m] := by
  obtain ⟨r, hch⟩ := trip_ch d src s
  refine (turnsOf_apart ?_).trans ((hch m).trans (if_neg hm))
  simpa [halves] using hlead

/-! ## The trips of a driver (R218, R219) -/

theorem overcurrentTripCompletes {x : BitVec 12} (hon : driverOn s n = true)
    (hblank : s.out.ch[leader s n].blanking = false) (hx : threshold s n < x.toNat) :
    Completes (.overcurrentTrip n x) s fun t =>
      driverOn t n = false ∧ t.out.ch[leader s n].tripped = true ∧ t.out.ch[leader s n].lastSrc = .overcurrent ∧
      t.out.ch[leader s n].trips = (if s.out.ch[leader s n].tripInPeriod then s.out.ch[leader s n].trips
        else satInc s.out.ch[leader s n].trips) ∧
      (∀ m : Fin 32, m ≠ leader s n → leader s m ≠ leader s n → t.out.ch[m] = s.out.ch[m]) ∧
      Only [.barr, .out, .ev] s t := by
  obtain ⟨htrip, hsrc, hcount⟩ := tripOff_records n .overcurrent s
  refine ⟨tripOff n .overcurrent s, congrArg Host.Outcome.next (if_pos ?_), driverOn_tripOff_self .., htrip, hsrc,
    hcount, fun m hm hlead => tripOff_apart hm hlead, (Trips.tripOff ..).only⟩
  rw [hon, hblank, decide_eq_true hx]
  rfl

theorem overcurrentTrip_within {x : BitVec 12} (hx : x.toNat ≤ threshold s n) :
    exec (.overcurrentTrip n x) s = .next s :=
  congrArg Host.Outcome.next (if_neg (by simp only [decide_eq_false (Nat.not_lt.mpr hx), Bool.and_false]; decide))

theorem shortCircuitTripCompletes (hon : driverOn s n = true) : Completes (.shortCircuitTrip n) s fun t =>
    driverOn t n = false ∧ t.out.ch[n].shortHeld = true ∧
    t.out.ch[leader s n].shorts = satInc s.out.ch[leader s n].shorts ∧
    t.out.ch[leader s n].tripped = true ∧ Only [.barr, .out, .ev] s t := by
  let u := tripOff n .short s
  let v := setCh n (fun c => { c with shortHeld := true }) u
  let w := setCh (leader s n) (fun c => { c with shorts := satInc c.shorts }) v
  have hstep : shortTrip n s = w := if_neg (by rw [hon]; decide)
  have hheld : w.out.ch[n].shortHeld = true := by
    have hw : w.out.ch[n].shortHeld = v.out.ch[n].shortHeld := chan_setCh (·.shortHeld) v n fun _ => rfl
    rw [hw]
    simp [v]
  have hshorts : w.out.ch[leader s n].shorts = satInc s.out.ch[leader s n].shorts := by
    have hv : v.out.ch[leader s n].shorts = u.out.ch[leader s n].shorts := chan_setCh (·.shorts) u _ fun _ => rfl
    have hu : u.out.ch[leader s n].shorts = s.out.ch[leader s n].shorts :=
      (untripped_fields ((Trips.tripOff n .short s).ch (leader s n))).1
    rw [Fin.getElem_fin, setCh_get, if_pos rfl]
    exact congrArg satInc (hv.trans hu)
  have htrip : w.out.ch[leader s n].tripped = true := by
    have hw : w.out.ch[leader s n].tripped = v.out.ch[leader s n].tripped := chan_setCh (·.tripped) v _ fun _ => rfl
    have hv : v.out.ch[leader s n].tripped = u.out.ch[leader s n].tripped := chan_setCh (·.tripped) u _ fun _ => rfl
    exact hw.trans (hv.trans (tripOff_records n .short s).1)
  refine ⟨w, congrArg Host.Outcome.next hstep, driverOn_of_shortHeld hheld, hheld, hshorts, htrip, ?_⟩
  have honly : Only [.barr, .out, .ev] s (shortTrip n s) := fun p hp => by
    clear hstep
    cases p <;> simp_all [same]
  exact hstep ▸ honly

theorem overtempTripCompletes (s : State) (n : Fin 32) : Completes (.overtempTrip n) s fun t =>
    driverOn t n = false ∧ t.out.ch[n].hot = true ∧ Only [.barr, .out, .ev] s t := by
  have hhot : (overtempTrip n s).out.ch[n].hot = true := by simp [overtempTrip]
  refine ⟨overtempTrip n s, rfl, driverOn_of_hot hhot, hhot, fun p hp => ?_⟩
  cases p <;> simp_all [same]

/-! ## The TRIP inputs (R218) -/

/-- The trip of one driver by an active input. -/
def inputTrip (i : Fin 4) (s : State) (n : Fin 32) : State :=
  if bit (reg s (0x100B04 + 8 * i.val)) n.val && driverOn s n && !s.out.ch[leader s n].blanking
  then tripOff n (.input i) s else s

theorem Trips.inputTrip (i : Fin 4) (s : State) (n : Fin 32) : Trips s (inputTrip i s n) := by
  unfold Proofs.inputTrip
  split
  · exact .tripOff ..
  · exact .refl s

theorem Trips.inputTrips (i : Fin 4) (l : List (Fin 32)) (s : State) : Trips s (l.foldl (Proofs.inputTrip i) s) := by
  induction l generalizing s with
  | nil => exact .refl s
  | cons d l ih => exact (Trips.inputTrip i s d).trans (ih _)

/-- An input takes the gate drive of each driver that it masks, unless blanking hides it. -/
theorem inputTrips_off {i : Fin 4} {l : List (Fin 32)} (hn : n ∈ l)
    (hmask : bit (reg s (0x100B04 + 8 * i.val)) n.val = true) (hblank : s.out.ch[leader s n].blanking = false) :
    driverOn (l.foldl (inputTrip i) s) n = false := by
  induction l generalizing s with
  | nil => exact absurd hn (by simp)
  | cons d l ih =>
    have hd := Trips.inputTrip i s d
    by_cases hdn : d = n
    · subst hdn
      refine (Trips.inputTrips i l _).off d ?_
      unfold inputTrip
      split
      · exact driverOn_tripOff_self ..
      · next hgo =>
        rw [hmask, hblank] at hgo
        simpa using hgo
    · refine ih ((List.mem_cons.mp hn).resolve_left fun h => hdn h.symm) ?_ ?_
      · rw [hd.reg]
        exact hmask
      · simp only [hd.leader]
        exact (untripped_fields (hd.ch (leader s n))).2.trans hblank

/-- The record of a TRIP input that is active. -/
def inputActive (i : Fin 4) (s : State) : State :=
  { s with out := { s.out with
      tripActive := s.out.tripActive ||| BitVec.ofNat 4 (2 ^ i.val)
      tripCnt := if !s.out.tripActive.getLsbD i.val then upd s.out.tripCnt i satInc else s.out.tripCnt } }

theorem tripInput_active {i : Fin 4} (hen : bit (reg s (0x100B00 + 8 * i.val)) 0 = true) :
    tripInput i (bit (reg s (0x100B00 + 8 * i.val)) 1) s =
      (List.finRange 32).foldl (inputTrip i) (inputActive i s) := by
  unfold tripInput
  simp only [hen, beq_self_eq_true, Bool.and_self, Bool.true_and, ↓reduceIte]
  rfl

theorem bit_lsbOr (i : Fin 4) (x : BitVec 4) : (x ||| BitVec.ofNat 4 (2 ^ i.val)).getLsbD i.val = true := by
  revert x
  revert i
  decide

theorem upd_get_if (i : Fin 4) (b : Bool) (v : Vector Byte 4) :
    (if !b then upd v i satInc else v)[i] = if b then v[i] else satInc v[i] := by
  cases b <;> simp [upd]

theorem tripInputCompletes {i : Fin 4} {level : Bool} (hen : bit (reg s (0x100B00 + 8 * i.val)) 0 = true)
    (hlevel : level = bit (reg s (0x100B00 + 8 * i.val)) 1) (n : Fin 32) : Completes (.tripInput i level) s fun t =>
      t.out.tripActive.getLsbD i.val = true ∧
      t.out.tripCnt[i] = (if s.out.tripActive.getLsbD i.val then s.out.tripCnt[i] else satInc s.out.tripCnt[i]) ∧
      (bit (reg s (0x100B04 + 8 * i.val)) n.val = true → s.out.ch[leader s n].blanking = false →
        driverOn t n = false) ∧ Only [.barr, .out, .ev] s t := by
  subst hlevel
  have hstep := tripInput_active hen
  have htrips := Trips.inputTrips i (List.finRange 32) (inputActive i s)
  have hactive := congrArg Outputs.tripActive htrips.out
  have hcount := congrArg Outputs.tripCnt htrips.out
  have honly : Only [.barr, .out, .ev] s (inputActive i s) := fun p hp => by
    cases p <;> simp_all [same, inputActive]
  refine ⟨_, congrArg Host.Outcome.next hstep, ?_, ?_, fun hmask hblank => ?_, only_trans honly htrips.only⟩
  · exact (congrArg (·.getLsbD i.val) hactive).trans (bit_lsbOr i _)
  · exact (congrArg (·[i]) hcount).trans (upd_get_if i _ s.out.tripCnt)
  · exact inputTrips_off (List.mem_finRange n) hmask hblank

theorem tripInput_inactive {i : Fin 4} {level : Bool} (hlevel : level ≠ bit (reg s (0x100B00 + 8 * i.val)) 1) :
    exec (.tripInput i level) s = .next { s with out := { s.out with
      tripActive := s.out.tripActive &&& ~~~ BitVec.ofNat 4 (2 ^ i.val) } } := by
  have hact : (bit (reg s (0x100B00 + 8 * i.val)) 0 && (level == bit (reg s (0x100B00 + 8 * i.val)) 1)) = false := by
    rw [beq_false_of_ne hlevel, Bool.and_false]
  refine congrArg Host.Outcome.next ?_
  unfold tripInput
  simp only [hact, Bool.false_and, Bool.false_eq_true, ↓reduceIte]

/-! ## The ends of the timers (R219 to R221) -/

/-- In Clay no driver comes to be driven. -/
theorem resumed_clay {old : State} (hold : old.modes.clay = true) (hs : s.modes.clay = true) : resumed old s = s := by
  have hoff (u : State) (hu : u.modes.clay = true) (d : Fin 32) : driverOn u d = false := by
    simp [driverOn, hu]
  have hstart : (List.finRange 32).foldl (resumeOne old) s = s :=
    List.foldl_fixed' (fun d => if_neg (by simp [hoff s hs d])) _
  rw [resumed_eq, hstart]
  refine List.foldl_fixed' (fun d => ?_) _
  simp [noteTurn, hoff s hs d, hoff old hold d]

theorem shortOffEndCompletes (s : State) (n : Fin 32) : Completes (.shortOffEnd n) s fun t =>
    t.out.ch[n].shortHeld = false ∧
    (s.modes.clay = true → OneChannel n { s.out.ch[n] with shortHeld := false } s t) ∧ Only [.barr, .out, .ev] s t := by
  let u := setCh n (fun c => { c with shortHeld := false }) s
  have hheld := congrArg (·.2.1) (holds_resumed s n u)
  refine ⟨resumed s u, rfl, hheld.trans (by simp [holds, u]), fun hclay => ?_, fun p hp => ?_⟩
  · rw [resumed_clay hclay (by simpa [u] using hclay)]
    exact setCh_oneChannel n _ s
  · cases p <;> simp_all [same, u]

theorem overtempReleaseCompletes (s : State) (n : Fin 32) : Completes (.overtempRelease n) s fun t =>
    t.out.ch[n].hot = false ∧
    (s.modes.clay = true → OneChannel n { s.out.ch[n] with hot := false } s t) ∧ Only [.barr, .out, .ev] s t := by
  let u := setCh n (fun c => { c with hot := false }) s
  have hheld := congrArg (·.2.2) (holds_resumed s n u)
  refine ⟨resumed s u, rfl, hheld.trans (by simp [holds, u]), fun hclay => ?_, fun p hp => ?_⟩
  · rw [resumed_clay hclay (by simpa [u] using hclay)]
    exact setCh_oneChannel n _ s
  · cases p <;> simp_all [same, u]

/-- The channel leading driver n with its blanking window closed. -/
def unblanked (n : Fin 32) (s : State) : State := setCh (leader s n) (fun c => { c with blanking := false }) s

theorem unblanked_drives (n : Fin 32) (s : State) : Drives (leader s n) s (unblanked n s) := .setCh fun _ => rfl

theorem driverOn_unblanked (n d : Fin 32) (s : State) : driverOn (unblanked n s) d = driverOn s d := by
  have hdrive := unblanked_drives n s
  have hch (p : Chan → Bool) (hp : ∀ c : Chan, p { c with blanking := false } = p c) (m : Fin 32) :
      p (unblanked n s).out.ch[m] = p s.out.ch[m] := chan_setCh p s m hp
  obtain ⟨hleader, -, -, -, hfan, -⟩ := hdrive.place
  have hheld : held (unblanked n s) d = held s d := by
    simp only [held, hleader, hfan, hch (·.tripped) fun _ => rfl, hch (·.latched) fun _ => rfl,
      hch (·.shortHeld) fun _ => rfl, hch (·.hot) fun _ => rfl]
  have hgrant (m : Fin 32) : ((unblanked n s).out.ch[m].grant == .granted) = (s.out.ch[m].grant == .granted) :=
    hch (fun c => c.grant == .granted) (fun _ => rfl) m
  have hmodes : (unblanked n s).modes = s.modes := hdrive.only .modes (by simp)
  have hpwr : (unblanked n s).pwr = s.pwr := hdrive.only .pwr (by simp)
  have hshot : (unblanked n s).barr.oneShot = s.barr.oneShot := by simp only [lanes_fields hdrive.lanes]
  simp only [driverOn, hdrive.driverCmd, hmodes, hheld, hleader, hgrant, hdrive.closed, domOn, hpwr, hshot]

theorem threshold_unblanked (n : Fin 32) (s : State) : threshold (unblanked n s) n = threshold s n := by
  have hinrush : (unblanked n s).out.ch[leader s n].inrush = s.out.ch[leader s n].inrush :=
    chan_setCh (·.inrush) s _ fun _ => rfl
  have hoch : och (unblanked n s) = och s := by
    funext k a
    simp [och, reg, unblanked]
  simp only [threshold, (unblanked_drives n s).place.1, hinrush, hoch]

theorem tripInputOn_unblanked (n d : Fin 32) (s : State) : tripInputOn (unblanked n s) d = tripInputOn s d := by
  simp [tripInputOn, unblanked, halves, leader, ochPair, reg, setCh]

theorem blankingEnd_off {x : BitVec 12} (hblank : s.out.ch[leader s n].blanking = true)
    (h : driverOn s n = false ∨ (x.toNat ≤ threshold s n ∧ tripInputOn s (leader s n) = none)) :
    blankingEnd n x s = unblanked n s := by
  have hgo : ¬ (!s.out.ch[leader s n].blanking) = true := by rw [hblank]; decide
  refine (if_neg hgo).trans ?_
  change (if !driverOn (unblanked n s) n then unblanked n s else _) = _
  rw [driverOn_unblanked]
  rcases h with h | ⟨hx, hin⟩
  · rw [h]
    rfl
  · split
    · rfl
    · change (if threshold (unblanked n s) n < x.toNat then _ else match tripInputOn (unblanked n s) (leader s n) with
        | some i => tripOff n (.input i) (unblanked n s) | none => unblanked n s) = _
      rw [threshold_unblanked, tripInputOn_unblanked, if_neg (Nat.not_lt.mpr hx), hin]

theorem blankingEnd_trips {x : BitVec 12} (hblank : s.out.ch[leader s n].blanking = true)
    (hon : driverOn s n = true) (hx : threshold s n < x.toNat) :
    blankingEnd n x s = tripOff n .overcurrent (unblanked n s) := by
  have hgo : ¬ (!s.out.ch[leader s n].blanking) = true := by rw [hblank]; decide
  have hon' : ¬ (!driverOn (unblanked n s) n) = true := by rw [driverOn_unblanked, hon]; decide
  exact (if_neg hgo).trans ((if_neg hon').trans (if_pos ((threshold_unblanked n s).symm ▸ hx)))

theorem blankingEndCompletes {x : BitVec 12} (hblank : s.out.ch[leader s n].blanking = true) :
    (driverOn s n = false ∨ (x.toNat ≤ threshold s n ∧ tripInputOn s (leader s n) = none) →
      Completes (.blankingEnd n x) s fun t =>
        OneChannel (leader s n) { s.out.ch[leader s n] with blanking := false } s t) ∧
    (driverOn s n = true → threshold s n < x.toNat → Completes (.blankingEnd n x) s fun t =>
      driverOn t n = false ∧ t.out.ch[leader s n].tripped = true ∧ t.out.ch[leader s n].blanking = false ∧
      Only [.barr, .out, .ev] s t) := by
  refine ⟨fun h => ⟨_, congrArg Host.Outcome.next (blankingEnd_off hblank h), setCh_oneChannel _ _ s⟩,
    fun hon hx => ?_⟩
  have htrips := Trips.tripOff n .overcurrent (unblanked n s)
  have hrecords := (tripOff_records n .overcurrent (unblanked n s)).1
  simp only [(unblanked_drives n s).place.1] at hrecords
  have hopen : (unblanked n s).out.ch[leader s n].blanking = false := by simp [unblanked]
  refine ⟨_, congrArg Host.Outcome.next (blankingEnd_trips hblank hon hx), driverOn_tripOff_self .., hrecords,
    (untripped_fields (htrips.ch (leader s n))).2.trans hopen, only_trans (fun p hp => ?_) htrips.only⟩
  cases p <;> simp_all [same, unblanked]

/-- The channel of driver n with its trip over. -/
def untrip (n : Fin 32) (s : State) : State := setCh n (fun c => { c with tripped := false, retryFrom := none }) s

/-- The channel of driver n as its on-phase opens. -/
def opened (n : Fin 32) (s : State) : State :=
  openBlank n (setCh n (fun c => { c with inrush := bit (och s n.val 0) 5 }) (untrip n s))

/-- An on-phase that no trip and no TRIP input prevents opens its windows alone. -/
theorem driverStart_over (hhold : tripHolds s n = false) (hin : tripInputOn s n = none) :
    driverStart n s = opened n s := by
  have hinu : tripInputOn (untrip n s) n = none := by
    rw [← hin]
    simp [tripInputOn, untrip, halves, leader, ochPair, reg, setCh]
  have hoch : och (untrip n s) n.val 0 = och s n.val 0 := by simp [untrip, och, reg]
  have hgo : ¬ tripHolds s n = true := by rw [hhold]; decide
  unfold driverStart
  rw [if_neg hgo]
  change (match if s.out.ch[n].blanking || !driverOn (untrip n s) n then none else tripInputOn (untrip n s) n with
    | some i => trip n (.input i) (untrip n s)
    | none => openBlank n (setCh n (fun c => { c with inrush := bit (och (untrip n s) n.val 0) 5 }) (untrip n s))) = _
  rw [hinu, ite_self, hoch]
  rfl

theorem opened_ch (n : Fin 32) (s : State) : (opened n s).out.ch[n].tripped = false ∧
    (opened n s).out.ch[n].retryFrom = none ∧ ∀ m : Fin 32, m ≠ n → (opened n s).out.ch[m] = s.out.ch[m] := by
  refine ⟨?_, ?_, fun m hm => ?_⟩
  · simp [opened, openBlank, untrip]
  · simp [opened, openBlank, untrip]
  · simp [opened, openBlank, untrip, setCh_get, hm]

theorem only_opened (old : State) (n : Fin 32) (s : State) : Only [.out] s (noteTurn old n (opened n s)) :=
  fun p hp => by cases p <;> simp_all [same, opened, untrip]

theorem only_setCh (n : Fin 32) (f : Chan → Chan) (s : State) : Only [.out] s (setCh n f s) :=
  fun p hp => by cases p <;> simp_all [same]

/-- The retry at its boundary: a driver whose gate is still on starts its on-phase. -/
theorem tripRetry_on {f : Frame48} (hf : s.out.ch[n].retryFrom = some f) (hu : u = advanceTo (tickAt f 0 s) s)
    (hcmd : driverCmd u n = true) : tripRetry n s = noteTurn u n (driverStart n u) := by
  subst hu
  unfold tripRetry
  rw [hf]
  exact if_pos hcmd

theorem tripRetry_off {f : Frame48} (hf : s.out.ch[n].retryFrom = some f) (hu : u = advanceTo (tickAt f 0 s) s)
    (hcmd : driverCmd u n = false) : tripRetry n s = setCh n (fun c => { c with retryFrom := none }) u := by
  subst hu
  unfold tripRetry
  rw [hf]
  exact if_neg (by rw [hcmd]; decide)

theorem noteTurn_fields (old : State) (d : Fin 32) (s : State) (m : Fin 32) :
    (noteTurn old d s).out.ch[m].tripped = s.out.ch[m].tripped ∧
    (noteTurn old d s).out.ch[m].retryFrom = s.out.ch[m].retryFrom := by
  have h := (Turns.noteTurn old d s).ch m
  simp only [timeless, Chan.mk.injEq] at h
  simp only [h, and_self]

theorem tripRetryCompletes {f : Frame48} (hf : s.out.ch[n].retryFrom = some f) (hin : tripInputOn s n = none)
    (hdue : frameDiff f (now (advanceTo (tickAt f 0 s) s)) ≤ 0) : Completes (.tripRetry n) s fun t =>
      t.out.ch[n].retryFrom = none ∧ (driverCmd s n = true → t.out.ch[n].tripped = false) ∧
      (∀ m : Fin 32, m ≠ n → t.out.ch[m] = s.out.ch[m]) ∧ t.clk = (advanceTo (tickAt f 0 s) s).clk ∧
      Only [.clk, .barr, .out] s t := by
  obtain ⟨u, hu⟩ : ∃ u, u = advanceTo (tickAt f 0 s) s := ⟨_, rfl⟩
  have hout : u.out = s.out := by rw [hu]; simp
  have hcmd : driverCmd u n = driverCmd s n := by
    have hid : u.id = s.id := by rw [hu]; simp
    have hregs : u.regs = s.regs := by rw [hu]; simp
    simp only [driverCmd, command, sourceOf, inverted, leader, ochMode, och, ochPair, reg, hid, hregs, hout]
    rfl
  have honly : Only [.clk, .barr] s u := fun p hp => by
    rw [hu]
    clear hu hdue
    cases p <;> simp_all [same]
  have hinu : tripInputOn u n = none := by
    rw [← hin, hu]
    simp [tripInputOn, halves, leader, ochPair, reg]
  rw [← hu] at hdue ⊢
  cases hon : driverCmd s n with
  | true =>
    have hhold : tripHolds u n = false := by
      unfold tripHolds
      simp only [hout, hf, decide_eq_false (Int.not_lt.mpr hdue), Bool.and_false]
    have hstep := tripRetry_on hf hu (hcmd.trans hon)
    rw [driverStart_over hhold hinu] at hstep
    obtain ⟨htrip, hretry, hapart⟩ := opened_ch n u
    obtain ⟨hnote, hnote'⟩ := noteTurn_fields u n (opened n u) n
    refine ⟨_, congrArg Host.Outcome.next hstep, hnote'.trans hretry, fun _ => hnote.trans htrip, fun m hm => ?_,
      by simp [opened, untrip], only_trans (only_mono honly (by simp)) (only_mono (only_opened u n u) (by simp))⟩
    exact (noteTurn_apart (.inl hm)).trans ((hapart m hm).trans (by rw [hout]))
  | false =>
    have hstep := tripRetry_off hf hu (hcmd.trans hon)
    refine ⟨_, congrArg Host.Outcome.next hstep, by simp, fun h => absurd h (by simp), fun m hm => ?_, by simp,
      only_trans (only_mono honly (by simp)) (only_mono (only_setCh n _ u) (by simp))⟩
    rw [Fin.getElem_fin, setCh_get, if_neg hm, hout]
    rfl

/-- Settles O36: a trip takes the gate drive of the driver that leads; the timers give it back. -/
theorem tripsTakeTheGateDriveAndTheirTimersEnd : Obligations.TripsTakeTheGateDriveAndTheirTimersEnd := by
  unfold Obligations.TripsTakeTheGateDriveAndTheirTimersEnd
  refine ⟨fun s n => ⟨fun x => overcurrentTripCompletes, fun x => overcurrentTrip_within, shortCircuitTripCompletes,
    overtempTripCompletes s n, fun i level hen => ⟨fun hlevel => tripInputCompletes hen hlevel n, tripInput_inactive⟩⟩,
    fun s n => ⟨⟨_, rfl, setCh_oneChannel _ _ s⟩, shortOffEndCompletes s n, overtempReleaseCompletes s n,
    fun x hblank => blankingEndCompletes hblank,
    fun f hf _ hin hdue => tripRetryCompletes hf hin hdue⟩⟩

end Sys2Proof.Proofs

/-! Peak and hold, lamp diagnostics and the calibration (R212 to R215, R225 to R227). -/

namespace Sys2Proof.Proofs

open Sys2Proof.Machine Sys2Proof.Safety Sys2Proof.Laws

variable {n d m : Fin 32} {s t u : State}

/-! ## Current samples (R224) -/

/-- A channel with a sample taken into its record. -/
def sampleOf (x : BitVec 12) (c : Chan) : Chan :=
  { c with sample := x, epPeak := if c.epPeak.toNat < x.toNat then x else c.epPeak, sum := c.sum + x.toNat
           cnt := c.cnt + 1 }

theorem takeSample_on {x : BitVec 12} (h : domOn s 15 = true) : takeSample d x s = setCh d (sampleOf x) s := if_pos h

/-- What a sample does not join is as it was. -/
theorem chan_takeSample {α : Type} {p : Chan → α} (hp : ∀ x c, p (sampleOf x c) = p c) (d : Fin 32) (x : BitVec 12)
    (m : Fin 32) (s : State) : p (takeSample d x s).out.ch[m] = p s.out.ch[m] := by
  unfold takeSample
  split
  · exact chan_setCh p s m (hp x)
  · rfl

theorem chan_sampleDrivers {α : Type} {p : Chan → α} (hp : ∀ x c, p (sampleOf x c) = p c) (n : Fin 32)
    (x : BitVec 12) (m : Fin 32) (s : State) : p (sampleDrivers n x s).out.ch[m] = p s.out.ch[m] :=
  foldl_keep (fun s : State => p s.out.ch[m]) _ (fun s d => chan_takeSample hp d x m s) _ s

/-- Each driver sampled holds the sample. -/
theorem takeSamples_sample {x : BitVec 12} {l : List (Fin 32)} (hdom : domOn s 15 = true)
    (hd : d ∈ l ∨ s.out.ch[d].sample = x) : (l.foldl (fun s d => takeSample d x s) s).out.ch[d].sample = x := by
  induction l generalizing s with
  | nil => exact hd.resolve_left (by simp)
  | cons e l ih =>
    refine ih (by simpa [domOn] using hdom) ?_
    dsimp only
    by_cases he : d = e
    · subst he
      rw [takeSample_on hdom]
      exact .inr (by simp [sampleOf])
    · refine hd.imp (fun h => (List.mem_cons.mp h).resolve_left he) fun h => ?_
      rw [takeSample_on hdom, Fin.getElem_fin, setCh_get, if_neg he]
      exact h

theorem only_takeSample (n : Fin 32) (x : BitVec 12) (s : State) : Only [.out] s (takeSample n x s) := fun p hp => by
  cases p <;> simp_all [same]

theorem only_sampleDrivers (n : Fin 32) (x : BitVec 12) (s : State) : Only [.out] s (sampleDrivers n x s) :=
  fun p hp => by cases p <;> simp_all [same]

/-! ## The peak phase (R212) -/

/-- The channel whose peak phase ends. -/
def peaked (n : Fin 32) (x : BitVec 12) (reached : Bool) (s : State) : State :=
  let t := sampleDrivers n x s
  setCh n (fun c => { c with peakPhase := false, peakMiss := c.peakMiss || !reached, holdAt := t.clk.tb }) t

theorem peaked_ch (n : Fin 32) (x : BitVec 12) (reached : Bool) (s : State) :
    (peaked n x reached s).out.ch[n].peakPhase = false ∧
    (peaked n x reached s).out.ch[n].peakMiss = (s.out.ch[n].peakMiss || !reached) ∧
    (peaked n x reached s).out.ch[n].holdAt = s.clk.tb := by
  have hmiss : (sampleDrivers n x s).out.ch[n].peakMiss = s.out.ch[n].peakMiss :=
    chan_sampleDrivers (p := (·.peakMiss)) (fun _ _ => rfl) n x n s
  rw [← hmiss]
  refine ⟨?_, ?_, ?_⟩ <;> simp [peaked]

theorem only_peaked (n : Fin 32) (x : BitVec 12) (reached : Bool) (s : State) : Only [.out] s (peaked n x reached s) :=
  only_trans (only_sampleDrivers n x s) (only_setCh n _ _)

theorem only_advanceTo (k : Nat) (s : State) : Only [.clk, .barr] s (advanceTo k s) := fun p hp => by
  cases p <;> simp_all [same]

theorem peakEnd_reached {x : BitVec 12} (hphase : s.out.ch[n].peakPhase = true)
    (hx : 10 * field (och s n.val 0x20) 7 0 ≤ x.toNat) : peakEnd n x s = peaked n x true s := by
  unfold peakEnd
  dsimp only
  rw [hphase, decide_eq_true hx]
  simp only [Bool.not_true, Bool.false_eq_true, ↓reduceIte]
  rfl

theorem peakEnd_missed {x : BitVec 12} (hphase : s.out.ch[n].peakPhase = true)
    (hx : x.toNat < 10 * field (och s n.val 0x20) 7 0) : peakEnd n x s = noteEpoch .field 0x1006 0 (chanByte n) []
      (peaked n x false (advanceTo (s.out.ch[n].edgeAt.toNat + 800 * field (och s n.val 0x20) 23 8) s)) := by
  unfold peakEnd
  dsimp only
  rw [hphase, decide_eq_false (Nat.not_le.mpr hx)]
  simp only [Bool.not_true, Bool.false_eq_true, ↓reduceIte]
  rfl

theorem noteEpoch_out (side : Side) (code : BitVec 16) (sev : BitVec 2) (chan : Byte) (data : List Byte) (s : State) :
    (noteEpoch side code sev chan data s).out = s.out ∧ (noteEpoch side code sev chan data s).clk = s.clk := by
  simp

theorem peakPhaseEndCompletes {x : BitVec 12} (hphase : s.out.ch[n].peakPhase = true) :
    (10 * field (och s n.val 0x20) 7 0 ≤ x.toNat → Completes (.peakPhaseEnd n x) s fun t =>
      t.out.ch[n].peakPhase = false ∧ t.out.ch[n].peakMiss = s.out.ch[n].peakMiss ∧
      t.out.ch[n].holdAt = s.clk.tb ∧ (domOn s 15 = true → ∀ d ∈ driversOf s n, t.out.ch[d].sample = x) ∧
      Only [.out] s t) ∧
    (x.toNat < 10 * field (och s n.val 0x20) 7 0 → Completes (.peakPhaseEnd n x) s fun t =>
      t.out.ch[n].peakPhase = false ∧ t.out.ch[n].peakMiss = true ∧ t.out.ch[n].holdAt = t.clk.tb ∧
      t.clk = (advanceTo (s.out.ch[n].edgeAt.toNat + 800 * field (och s n.val 0x20) 23 8) s).clk ∧
      Only [.clk, .barr, .out, .ev] s t) := by
  refine ⟨fun hx => ?_, fun hx => ?_⟩
  · obtain ⟨hp, hm, hh⟩ := peaked_ch n x true s
    refine ⟨_, congrArg Host.Outcome.next (peakEnd_reached hphase hx), hp, hm.trans (Bool.or_false _), hh,
      fun hdom d hd => ?_, only_peaked n x true s⟩
    refine Eq.trans ?_ (takeSamples_sample hdom (.inl hd))
    exact chan_setCh (·.sample) _ d fun _ => rfl
  · have hstep := peakEnd_missed hphase hx
    have honly := only_advanceTo (s.out.ch[n].edgeAt.toNat + 800 * field (och s n.val 0x20) 23 8) s
    generalize advanceTo (s.out.ch[n].edgeAt.toNat + 800 * field (och s n.val 0x20) 23 8) s = u at *
    obtain ⟨hp, hm, hh⟩ := peaked_ch n x false u
    obtain ⟨hout, hclk⟩ := noteEpoch_out .field 0x1006 0 (chanByte n) [] (peaked n x false u)
    have hkeep : (peaked n x false u).clk = u.clk := only_peaked n x false u .clk (by simp)
    refine ⟨_, congrArg Host.Outcome.next hstep, ?_, ?_, ?_, hclk.trans hkeep, ?_⟩
    · rw [hout]
      exact hp
    · rw [hout, hm]
      exact Bool.or_true _
    · rw [hout, hclk, hkeep]
      exact hh
    · refine only_trans (only_mono honly (by simp)) (only_trans (only_mono (only_peaked n x false u) (by simp)) ?_)
      intro p hp
      clear hstep hm hh hout hclk hkeep
      cases p <;> simp_all [same]

/-! ## Hold chopping (R212, R220) -/

/-- What a channel is commanded: override, gate, generator output and hold chopping. -/
def cmdOf (c : Chan) : Override × Bool × Bool × Bool := (c.ovr, c.gate, c.genOut, c.holdOff)

/-- A driver's command depends on the registers and on what its channel is commanded. -/
theorem driverCmd_of (hid : t.id = s.id) (hregs : t.regs = s.regs)
    (hch : ∀ m : Fin 32, cmdOf t.out.ch[m] = cmdOf s.out.ch[m]) : driverCmd t = driverCmd s := by
  have hfields (m : Fin 32) := hch m
  simp only [cmdOf, Prod.mk.injEq] at hfields
  funext d
  simp only [driverCmd, command, sourceOf, inverted, leader, ochMode, och, ochPair, reg, hid, hregs, hfields]
  rfl

theorem cmdOf_openBlank (d m : Fin 32) (s : State) : cmdOf (openBlank d s).out.ch[m] = cmdOf s.out.ch[m] := by
  unfold openBlank
  exact chan_setCh cmdOf s m fun _ => rfl

/-- One driver's hold-chop edge. -/
def chopOne (old s : State) (d : Fin 32) : State :=
  if leader s d == d && driverCmd s d != driverCmd old d then openBlank d s else s

theorem chopEdges_eq (old s : State) : chopEdges old s = (List.finRange 32).foldl (fun s d => noteTurn old d s)
    ((List.finRange 32).foldl (chopOne old) s) := rfl

/-- What the hold-chop edges leave: all but the blanking windows and the records of turns. -/
def unchopped (c : Chan) : Chan := { c with blanking := false, turns := [], acts := [] }

theorem chan_chopEdges (old : State) (m : Fin 32) (s : State) :
    unchopped (chopEdges old s).out.ch[m] = unchopped s.out.ch[m] := by
  have hset (d : Fin 32) (f : Chan → Chan) (s : State) (hf : ∀ c, unchopped (f c) = unchopped c) :
      unchopped (setCh d f s).out.ch[m] = unchopped s.out.ch[m] := chan_setCh unchopped s m hf
  rw [chopEdges_eq]
  refine (foldl_keep (fun s : State => unchopped s.out.ch[m]) _ (fun s d => ?_) _ _).trans
    (foldl_keep (fun s : State => unchopped s.out.ch[m]) _ (fun s d => ?_) _ s)
  · rcases noteTurn_shape old d s with h | ⟨f, h, hf⟩
    · rw [h]
    · rw [h]
      refine hset d f s fun c => ?_
      have hc := hf c
      simp only [timeless, Chan.mk.injEq] at hc
      simp only [unchopped, hc]
  · unfold chopOne
    split
    · exact hset d _ s fun _ => rfl
    · rfl

theorem cmdOf_unchopped {c c' : Chan} (h : unchopped c = unchopped c') : cmdOf c = cmdOf c' := by
  simp only [unchopped, Chan.mk.injEq] at h
  simp only [cmdOf, h]

theorem only_chopEdges (old s : State) : Only [.out] s (chopEdges old s) := fun p hp => by
  cases p <;> simp_all [same]

theorem driverCmd_chopEdges (old s : State) : driverCmd (chopEdges old s) = driverCmd s :=
  driverCmd_of (only_chopEdges old s .id (by simp)) (only_chopEdges old s .regs (by simp))
    fun m => cmdOf_unchopped (chan_chopEdges old m s)

theorem only_chopOne (old s : State) (d : Fin 32) : Only [.out] s (chopOne old s d) := by
  unfold chopOne
  split
  · exact only_setCh d _ s
  · exact fun p _ => by cases p <;> rfl

theorem reg_of_only {ps : List Part} (h : Only ps s t) (hid : Part.id ∉ ps) (hregs : Part.regs ∉ ps) :
    reg t = reg s := by
  have hid : t.id = s.id := h .id hid
  have hregs : t.regs = s.regs := h .regs hregs
  funext a
  simp only [reg, hid, hregs]

theorem leader_of_reg (h : reg t = reg s) : leader t = leader s := by
  funext d
  simp only [leader, ochPair, h]
  rfl

theorem chopOne_self {old : State} (hlead : leader s d = d) (hcmd : driverCmd s d ≠ driverCmd old d) :
    (chopOne old s d).out.ch[d].blanking = (field (och s d.val 0x14) 15 8 != 0) := by
  unfold chopOne
  rw [if_pos (by simp [hlead, hcmd])]
  simp [openBlank]

theorem chopOne_apart {e : Fin 32} (old s : State) (he : d ≠ e) :
    (chopOne old s e).out.ch[d].blanking = s.out.ch[d].blanking := by
  unfold chopOne openBlank
  split
  · rw [Fin.getElem_fin, setCh_get, if_neg he]
    rfl
  · rfl

/-- Each driver whose command changed has its blanking window opened. -/
theorem chopped_blanking {old : State} {l : List (Fin 32)} (hlead : leader s d = d)
    (hcmd : driverCmd s d ≠ driverCmd old d)
    (hd : d ∈ l ∨ s.out.ch[d].blanking = (field (och s d.val 0x14) 15 8 != 0)) :
    (l.foldl (chopOne old) s).out.ch[d].blanking = (field (och s d.val 0x14) 15 8 != 0) := by
  induction l generalizing s with
  | nil => exact hd.resolve_left (by simp)
  | cons e l ih =>
    have honly := only_chopOne old s e
    have hreg : reg (chopOne old s e) = reg s := reg_of_only honly (by simp) (by simp)
    have hoch : och (chopOne old s e) = och s := by unfold och; rw [hreg]
    have hkeep : driverCmd (chopOne old s e) = driverCmd s := by
      refine driverCmd_of (honly .id (by simp)) (honly .regs (by simp)) fun m => ?_
      unfold chopOne
      split
      · exact cmdOf_openBlank e m s
      · rfl
    have hih := ih (s := chopOne old s e) (by rw [leader_of_reg hreg]; exact hlead) (by rw [hkeep]; exact hcmd)
    rw [hoch] at hih
    refine hih ?_
    by_cases he : d = e
    · subst he
      exact .inr (chopOne_self hlead hcmd)
    · refine hd.imp (fun h => (List.mem_cons.mp h).resolve_left he) fun h => ?_
      exact (chopOne_apart old s he).trans h

theorem chopEdges_blanking {old : State} (hlead : leader s d = d) (hcmd : driverCmd s d ≠ driverCmd old d) :
    (chopEdges old s).out.ch[d].blanking = (field (och s d.val 0x14) 15 8 != 0) := by
  have hturn := (turns_fold old (List.finRange 32) ((List.finRange 32).foldl (chopOne old) s)).ch d
  simp only [timeless, Chan.mk.injEq] at hturn
  rw [chopEdges_eq]
  simp only [hturn]
  exact chopped_blanking hlead hcmd (.inl (List.mem_finRange d))

/-- A change of channel n's drive in its hold phase, from a state that s reads as: the edges open the windows. -/
theorem chop_completes {f : Chan → Chan} (hid : u.id = s.id) (hregs : u.regs = s.regs)
    (hcmd : ∀ m : Fin 32, cmdOf u.out.ch[m] = cmdOf s.out.ch[m]) :
    unchopped (chopEdges u (setCh n f u)).out.ch[n] = unchopped (f u.out.ch[n]) ∧
    (chopEdges u (setCh n f u)).clk = u.clk ∧
    (∀ d : Fin 32, leader s d = d → driverCmd (chopEdges u (setCh n f u)) d ≠ driverCmd s d →
      (chopEdges u (setCh n f u)).out.ch[d].blanking = (field (och s d.val 0x14) 15 8 != 0)) ∧
    Only [.out] u (chopEdges u (setCh n f u)) := by
  have honly : Only [.out] u (setCh n f u) := only_setCh n f u
  have hsame := driverCmd_of hid hregs hcmd
  have hreg : reg (setCh n f u) = reg s := by
    rw [reg_of_only honly (by simp) (by simp)]
    funext a
    simp only [reg, hid, hregs]
  refine ⟨(chan_chopEdges u n _).trans ?_, ?_, fun d hd hne => ?_, only_trans honly (only_chopEdges u _)⟩
  · rw [Fin.getElem_fin, setCh_get, if_pos rfl]
    rfl
  · exact (only_chopEdges u _ .clk (by simp)).trans (honly .clk (by simp))
  · rw [driverCmd_chopEdges, ← hsame] at hne
    have hblank := chopEdges_blanking (old := u) (s := setCh n f u) (by rw [leader_of_reg hreg]; exact hd) hne
    rw [hblank]
    unfold och
    rw [hreg]

theorem unchopped_fields {c c' : Chan} (h : unchopped c = unchopped c') :
    c.holdOff = c'.holdOff ∧ c.holdAt = c'.holdAt := by
  simp only [unchopped, Chan.mk.injEq] at h
  simp only [h, and_self]

/-- The state a hold period's drive goes off from: sampled, or at the period's last microsecond. -/
def chopFrom (n : Fin 32) (x : BitVec 12) (s : State) : State :=
  if 10 * field (och s n.val 0x24) 7 0 ≤ x.toNat then sampleDrivers n x s
  else advanceTo (s.out.ch[n].holdAt.toNat + holdPeriod s n - 800) s

theorem chopFrom_keeps (n : Fin 32) (x : BitVec 12) (s : State) :
    Only [.clk, .barr, .out] s (chopFrom n x s) ∧
    (∀ m : Fin 32, cmdOf (chopFrom n x s).out.ch[m] = cmdOf s.out.ch[m]) ∧
    (chopFrom n x s).clk = (if 10 * field (och s n.val 0x24) 7 0 ≤ x.toNat then s
      else advanceTo (s.out.ch[n].holdAt.toNat + holdPeriod s n - 800) s).clk := by
  unfold chopFrom
  split
  · exact ⟨only_mono (only_sampleDrivers n x s) (by simp), fun m => chan_sampleDrivers (fun _ _ => rfl) n x m s,
      only_sampleDrivers n x s .clk (by simp)⟩
  · exact ⟨only_mono (only_advanceTo _ s) (by simp), fun m => by simp, rfl⟩

theorem holdChop_eq {x : BitVec 12} (hhold : holding s n = true) (hoff : s.out.ch[n].holdOff = false) :
    holdChop n x s = holdOff n (chopFrom n x s) := by
  have hgo : ¬ (!holding s n || s.out.ch[n].holdOff) = true := by rw [hhold, hoff]; decide
  unfold holdChop chopFrom
  rw [if_neg hgo]
  split <;> rfl

theorem holdChopOffCompletes {x : BitVec 12} (hhold : holding s n = true) (hoff : s.out.ch[n].holdOff = false) :
    Completes (.holdChopOff n x) s fun t =>
      t.out.ch[n].holdOff = true ∧
      t.clk = (if 10 * field (och s n.val 0x24) 7 0 ≤ x.toNat then s
        else advanceTo (s.out.ch[n].holdAt.toNat + holdPeriod s n - 800) s).clk ∧
      (∀ d : Fin 32, leader s d = d → driverCmd t d ≠ driverCmd s d →
        t.out.ch[d].blanking = (field (och s d.val 0x14) 15 8 != 0)) ∧ Only [.clk, .barr, .out] s t := by
  obtain ⟨honly, hcmd, hclk⟩ := chopFrom_keeps n x s
  obtain ⟨hch, hclk', hblank, hout⟩ := chop_completes (n := n) (f := fun c => { c with holdOff := true })
    (honly .id (by simp)) (honly .regs (by simp)) hcmd
  exact ⟨_, congrArg Host.Outcome.next (holdChop_eq hhold hoff), (unchopped_fields hch).1, hclk'.trans hclk, hblank,
    only_trans honly (only_mono hout (by simp))⟩

theorem holdStart_eq (hhold : holding s n = true) (hoff : s.out.ch[n].holdOff = true) :
    holdStart n s = chopEdges (advanceTo (s.out.ch[n].holdAt.toNat + holdPeriod s n) s)
      (setCh n (fun c => { c with
          holdOff := false, holdAt := BitVec.ofNat 64 (s.out.ch[n].holdAt.toNat + holdPeriod s n) })
        (advanceTo (s.out.ch[n].holdAt.toNat + holdPeriod s n) s)) := by
  have hgo : ¬ (!holding s n) = true := by rw [hhold]; decide
  unfold holdStart
  dsimp only
  rw [if_neg hgo, if_pos hoff]

theorem holdPeriodStartCompletes (hhold : holding s n = true) (hoff : s.out.ch[n].holdOff = true) :
    Completes (.holdPeriodStart n) s fun t =>
      t.out.ch[n].holdOff = false ∧
      t.out.ch[n].holdAt = BitVec.ofNat 64 (s.out.ch[n].holdAt.toNat + holdPeriod s n) ∧
      t.clk = (advanceTo (s.out.ch[n].holdAt.toNat + holdPeriod s n) s).clk ∧
      (∀ d : Fin 32, leader s d = d → driverCmd t d ≠ driverCmd s d →
        t.out.ch[d].blanking = (field (och s d.val 0x14) 15 8 != 0)) ∧ Only [.clk, .barr, .out] s t := by
  have hstep := holdStart_eq hhold hoff
  generalize s.out.ch[n].holdAt.toNat + holdPeriod s n = k at *
  have honly := only_advanceTo k s
  have hcmd (m : Fin 32) : cmdOf (advanceTo k s).out.ch[m] = cmdOf s.out.ch[m] := by simp
  obtain ⟨hch, hclk, hblank, hout⟩ := chop_completes (n := n)
    (f := fun c => { c with holdOff := false, holdAt := BitVec.ofNat 64 k })
    (honly .id (by simp)) (honly .regs (by simp)) hcmd
  obtain ⟨hoff', hat⟩ := unchopped_fields hch
  exact ⟨_, congrArg Host.Outcome.next hstep, hoff', hat, hclk, hblank,
    only_trans (only_mono honly (by simp)) (only_mono hout (by simp))⟩

/-! ## Lamp diagnostics (R225 to R227) -/

/-- A lamp's record after a measurement of the given kind. -/
def lamped (l : Lamp) (off : Bool) (opens shorts : Nat) (n : Fin 32) (s : State) : State :=
  setCh n (fun c => { c with
    lamp := l, diagMode := off, opens := opens, supplyShorts := shorts, measured := true }) s

theorem lampResult_ok (off : Bool) (n : Fin 32) (s : State) : lampResult n 0 off s = lamped .ok off 0 0 n s := rfl

theorem lampResult_opened {off : Bool} (h : s.out.ch[n].opens = 2) :
    lampResult n 1 off s = note .field 0x1003 1 (chanByte n) [] (lamped .opened off 3 0 n s) := by
  unfold lampResult
  dsimp only
  rw [h]
  rfl

theorem lampResult_short {off : Bool} (h : s.out.ch[n].supplyShorts = 1) :
    lampResult n 2 off s = note .field 0x1005 1 (chanByte n) [] (lamped .shortToSupply off 0 2 n s) := by
  unfold lampResult
  dsimp only
  rw [h]
  rfl

theorem lamped_ch (l : Lamp) (off : Bool) (opens shorts : Nat) (n : Fin 32) (s : State) :
    (lamped l off opens shorts n s).out.ch[n] = { s.out.ch[n] with
      lamp := l, diagMode := off, opens := opens, supplyShorts := shorts, measured := true } :=
  (setCh_oneChannel n _ s).1

theorem only_lamped (l : Lamp) (off : Bool) (opens shorts : Nat) (n : Fin 32) (s : State) :
    Only [.out] s (lamped l off opens shorts n s) := only_setCh n _ s

theorem oneChannel_trans {c c' : Chan} (h : OneChannel n c s t) (g : OneChannel n c' t u) : OneChannel n c' s u := by
  obtain ⟨-, hothers, ht⟩ := h
  obtain ⟨hn, hothers', hu⟩ := g
  refine ⟨hn, fun m hm => (hothers' m hm).trans (hothers m hm), hu.trans ?_⟩
  rw [ht]

theorem oneChannel_takeSamples (n : Fin 32) (xs : List (BitVec 12)) (s : State) :
    OneChannel n (xs.foldl (fun s x => takeSample n x s) s).out.ch[n] s (xs.foldl (fun s x => takeSample n x s) s) := by
  induction xs generalizing s with
  | nil => exact ⟨rfl, fun _ _ => rfl, rfl⟩
  | cons x xs ih =>
    have hone : OneChannel n (takeSample n x s).out.ch[n] s (takeSample n x s) := by
      unfold takeSample
      split
      · obtain ⟨hn, hothers, ht⟩ := setCh_oneChannel n (sampleOf x) s
        exact ⟨rfl, hothers, ht⟩
      · exact ⟨rfl, fun _ _ => rfl, rfl⟩
    exact oneChannel_trans hone (ih _)

theorem opens_takeSamples (n : Fin 32) (xs : List (BitVec 12)) (s : State) :
    (xs.foldl (fun s x => takeSample n x s) s).out.ch[n].opens = s.out.ch[n].opens :=
  foldl_keep (fun s : State => s.out.ch[n].opens) _
    (fun s x => chan_takeSample (p := (·.opens)) (fun _ _ => rfl) n x n s) _ s

theorem lampMeasure_eq {xs : List (BitVec 12)} (hmode : ochMode s (feeder s n).val = 4)
    (hgen : s.out.ch[feeder s n].gen = true) (hlong : 9600 ≤ onLength s.out.ch[feeder s n])
    (hon : driverOn s n = true) : lampMeasure n xs s = lampResult n
      (if xs.foldl (fun a x => a + x.toNat) 0 * 5 < field (och s n.val 0x1C) 9 4 * 10 * xs.length then 1 else 0) false
      (xs.foldl (fun s x => takeSample n x s) s) :=
  if_pos (by rw [hmode, hgen, decide_eq_true hlong, hon]; rfl)

theorem lampMeasureCompletes {xs : List (BitVec 12)} (hmode : ochMode s (feeder s n).val = 4)
    (hgen : s.out.ch[feeder s n].gen = true) (hlong : 9600 ≤ onLength s.out.ch[feeder s n])
    (hon : driverOn s n = true) :
    (field (och s n.val 0x1C) 9 4 * 10 * xs.length ≤ xs.foldl (fun a x => a + x.toNat) 0 * 5 →
      Completes (.lampMeasure n xs) s fun t =>
        t.out.ch[n].lamp = .ok ∧ t.out.ch[n].diagMode = false ∧ t.out.ch[n].opens = 0 ∧
        t.out.ch[n].supplyShorts = 0 ∧ t.out.ch[n].measured = true ∧ OneChannel n t.out.ch[n] s t) ∧
    (xs.foldl (fun a x => a + x.toNat) 0 * 5 < field (och s n.val 0x1C) 9 4 * 10 * xs.length →
      s.out.ch[n].opens = 2 → s.ev.field.length < 64 → Completes (.lampMeasure n xs) s fun t =>
        t.out.ch[n].lamp = .opened ∧ Held .field 0x1003 (chanByte n) t ∧ Only [.barr, .out, .ev] s t) := by
  have hstep := lampMeasure_eq (xs := xs) hmode hgen hlong hon
  have hone := oneChannel_takeSamples n xs s
  have hopens := opens_takeSamples n xs s
  generalize xs.foldl (fun s x => takeSample n x s) s = u at *
  have honly : Only [.out] s u := by
    rw [hone.2.2]
    exact fun p hp => by cases p <;> simp_all [same]
  refine ⟨fun hok => ?_, fun hlow h2 hlen => ?_⟩
  · rw [if_neg (Nat.not_lt.mpr hok), lampResult_ok] at hstep
    have hch := lamped_ch .ok false 0 0 n u
    have hsecond : OneChannel n (lamped .ok false 0 0 n u).out.ch[n] u (lamped .ok false 0 0 n u) := by
      obtain ⟨-, hothers, ht⟩ := setCh_oneChannel n (fun c => { c with
        lamp := .ok, diagMode := false, opens := 0, supplyShorts := 0, measured := true }) u
      exact ⟨rfl, hothers, ht⟩
    refine ⟨_, congrArg Host.Outcome.next hstep, ?_, ?_, ?_, ?_, ?_, oneChannel_trans hone hsecond⟩ <;> rw [hch]
  · rw [if_pos hlow, lampResult_opened (hopens.trans h2)] at hstep
    have hlen' : (lamped .opened false 3 0 n u).ev.field.length < 64 := by
      have hev : (lamped .opened false 3 0 n u).ev = s.ev :=
        (only_lamped .opened false 3 0 n u .ev (by simp)).trans (honly .ev (by simp))
      rw [hev]
      exact hlen
    refine ⟨_, congrArg Host.Outcome.next hstep, ?_, held_note_field _ _ _ _ hlen', ?_⟩
    · have hch := lamped_ch .opened false 3 0 n u
      simp only [note_frame, hch]
    · refine only_trans (only_mono honly (by simp)) (only_trans (only_mono (only_lamped .opened false 3 0 n u)
        (by simp)) ?_)
      exact fun p hp => by
        clear hstep hone hopens hlen'
        cases p <;> simp_all [same]

theorem lampOffMeasure_eq {mv : Nat} (hmode : ochMode s (feeder s n).val = 4)
    (hdet : bit (och s n.val 0x1C) 1 = true) (hon : driverOn s n = false)
    (hoff : s.out.ch[feeder s n].gen = false ∨ (onLength s.out.ch[feeder s n] < 9600 ∧
      onLength s.out.ch[feeder s n] + 40000 ≤ s.out.ch[feeder s n].period.toNat))
    (hclay : s.modes.clay = false) (hdom : domOn s 15 = true) :
    lampOffMeasure n mv s = lampResult n (if mv < 1500 then 0 else if mv ≤ 7000 then 1 else 2) true s := by
  have hdue : (!s.out.ch[feeder s n].gen || (decide (onLength s.out.ch[feeder s n] < 9600) &&
      decide (onLength s.out.ch[feeder s n] + 40000 ≤ s.out.ch[feeder s n].period.toNat))) = true := by
    rcases hoff with h | ⟨h, h'⟩
    · rw [h]
      rfl
    · rw [decide_eq_true h, decide_eq_true h']
      exact Bool.or_true _
  exact if_pos (by rw [hmode, hdet, hon, hdue, hclay, hdom]; rfl)

theorem lampOffMeasureCompletes {mv : Nat} (hmode : ochMode s (feeder s n).val = 4)
    (hdet : bit (och s n.val 0x1C) 1 = true) (hon : driverOn s n = false)
    (hoff : s.out.ch[feeder s n].gen = false ∨ (onLength s.out.ch[feeder s n] < 9600 ∧
      onLength s.out.ch[feeder s n] + 40000 ≤ s.out.ch[feeder s n].period.toNat))
    (hclay : s.modes.clay = false) (hdom : domOn s 15 = true) :
    (mv < 1500 → Completes (.lampOffMeasure n mv) s fun t => OneChannel n { s.out.ch[n] with
        lamp := .ok, diagMode := true, opens := 0, supplyShorts := 0, measured := true } s t) ∧
    (7000 < mv → s.out.ch[n].supplyShorts = 1 → s.ev.field.length < 64 → Completes (.lampOffMeasure n mv) s fun t =>
        t.out.ch[n].lamp = .shortToSupply ∧ Held .field 0x1005 (chanByte n) t ∧ Only [.barr, .out, .ev] s t) := by
  have hstep := lampOffMeasure_eq (mv := mv) hmode hdet hon hoff hclay hdom
  refine ⟨fun hmv => ?_, fun hmv h1 hlen => ?_⟩
  · rw [if_pos hmv, lampResult_ok] at hstep
    exact ⟨_, congrArg Host.Outcome.next hstep, setCh_oneChannel n _ s⟩
  · rw [if_neg (by omega), if_neg (by omega), lampResult_short h1] at hstep
    have hev : (lamped .shortToSupply true 0 2 n s).ev = s.ev := only_lamped .shortToSupply true 0 2 n s .ev (by simp)
    refine ⟨_, congrArg Host.Outcome.next hstep, ?_, held_note_field _ _ _ _ (by rw [hev]; exact hlen), ?_⟩
    · have hch := lamped_ch .shortToSupply true 0 2 n s
      simp only [note_frame, hch]
    · refine only_trans (only_mono (only_lamped .shortToSupply true 0 2 n s) (by simp)) ?_
      exact fun p hp => by
        clear hstep
        cases p <;> simp_all [same]

/-! ## Calibration (R213 to R215) -/

theorem toEdge_barr (k p : Nat) (s : State) : (toEdge k p s).barr.fieldClock = s.barr.fieldClock ∧
    (toEdge k p s).barr.replicaLoaded = s.barr.replicaLoaded := ⟨rfl, rfl⟩

theorem only_toEdge (k p : Nat) (s : State) : Only [.clk, .barr] s (toEdge k p s) := fun q hq => by
  cases q <;> simp_all [same]

/-- A measurement that agrees with the last one. -/
def calibrated (tap : Byte) (u : State) : State :=
  { u with out := { u.out with
      calLast := some tap, calCount := u.out.calCount + 1, calTap := tap, calFails := 0, calFail := false
      calFrame := now u } }

/-- The third measurement in a row that does not. -/
def uncalibrated (tap : Byte) (u : State) : State :=
  note .field 0x1101 1 0xFF []
    { u with out := { u.out with calLast := some tap, calFails := u.out.calFails + 1, calFail := true } }

theorem calMeasure_on (hdom : domOn s 14 = true) (hhold : bit (reg s 0x110000) 0 = false)
    (hclk : s.barr.fieldClock = true) (hrep : s.barr.replicaLoaded = true) :
    (domOn (toEdge 2 819200 s) 14 && !bit (reg (toEdge 2 819200 s) 0x110000) 0 &&
      (toEdge 2 819200 s).barr.fieldClock && (toEdge 2 819200 s).barr.replicaLoaded) = true := by
  have honly := only_toEdge 2 819200 s
  have hpwr : (toEdge 2 819200 s).pwr = s.pwr := honly .pwr (by simp)
  obtain ⟨hclk', hrep'⟩ := toEdge_barr 2 819200 s
  have hdom' : domOn (toEdge 2 819200 s) 14 = true := by
    unfold domOn
    rw [hpwr]
    exact hdom
  rw [hdom', reg_of_only honly (by simp) (by simp), hhold, hclk', hclk, hrep', hrep]
  rfl

theorem calMeasure_good {tap : Byte} (hdom : domOn s 14 = true) (hhold : bit (reg s 0x110000) 0 = false)
    (hclk : s.barr.fieldClock = true) (hrep : s.barr.replicaLoaded = true)
    (hlast : s.out.calLast = none ∨ s.out.calLast = some tap) :
    calMeasure true tap s = calibrated tap (loadTables (toEdge 2 819200 s)) := by
  have hgo := calMeasure_on hdom hhold hclk hrep
  have hout : (toEdge 2 819200 s).out = s.out := only_toEdge 2 819200 s .out (by simp)
  have hp : 1024 * ticksPerFrame = 819200 := rfl
  unfold calMeasure
  rw [hp]
  dsimp only
  generalize toEdge 2 819200 s = u at *
  rw [hgo]
  rcases hlast with h | h <;> simp [hout, h, calibrated]

theorem calMeasure_bad {tap : Byte} (hdom : domOn s 14 = true) (hhold : bit (reg s 0x110000) 0 = false)
    (hclk : s.barr.fieldClock = true) (hrep : s.barr.replicaLoaded = true) (hfails : s.out.calFails = 2) :
    calMeasure false tap s = uncalibrated tap (loadTables (toEdge 2 819200 s)) := by
  have hgo := calMeasure_on hdom hhold hclk hrep
  have hfails' : (loadTables (toEdge 2 819200 s)).out.calFails = 2 := by
    have hout : (toEdge 2 819200 s).out = s.out := only_toEdge 2 819200 s .out (by simp)
    rw [← hfails, ← hout]
    rfl
  have hp : 1024 * ticksPerFrame = 819200 := rfl
  unfold calMeasure
  rw [hp]
  dsimp only
  generalize toEdge 2 819200 s = u at *
  rw [hgo]
  simp [hfails', uncalibrated]

theorem loadTables_cal (s : State) : (loadTables s).out.calCount = s.out.calCount ∧
    (loadTables s).out.calTap = s.out.calTap := ⟨rfl, rfl⟩

theorem only_loadTables (s : State) : Only [.out] s (loadTables s) := fun p hp => by cases p <;> simp_all [same]

theorem only_calibrated (tap : Byte) (u : State) : Only [.out] u (calibrated tap u) := fun p hp => by
  cases p <;> simp_all [same, calibrated]

theorem calMeasureCompletes {tap : Byte} (hdom : domOn s 14 = true) (hhold : bit (reg s 0x110000) 0 = false)
    (hclk : s.barr.fieldClock = true) (hrep : s.barr.replicaLoaded = true) :
    (s.out.calLast = none ∨ s.out.calLast = some tap → Completes (.calMeasure true tap) s fun t =>
      t.out.calCount = s.out.calCount + 1 ∧ t.out.calTap = tap ∧ t.out.calFail = false ∧ t.out.calFrame = now t ∧
      t.clk = (toEdge 2 819200 s).clk ∧ Only [.clk, .barr, .out] s t) ∧
    (s.out.calFails = 2 → s.ev.field.length < 64 → Completes (.calMeasure false tap) s fun t =>
      t.out.calFail = true ∧ t.out.calCount = s.out.calCount ∧ t.out.calTap = s.out.calTap ∧
      Held .field 0x1101 0xFF t ∧ Only [.clk, .barr, .out, .ev] s t) := by
  have honly := only_trans (only_mono (only_toEdge 2 819200 s) (by simp) : Only [.clk, .barr, .out] s _)
    (only_mono (only_loadTables _) (by simp))
  obtain ⟨hcount, htap⟩ := loadTables_cal (toEdge 2 819200 s)
  have hout : (toEdge 2 819200 s).out = s.out := only_toEdge 2 819200 s .out (by simp)
  have hkeep : (loadTables (toEdge 2 819200 s)).clk = (toEdge 2 819200 s).clk :=
    only_loadTables _ .clk (by simp)
  have hev : (loadTables (toEdge 2 819200 s)).ev = s.ev := honly .ev (by simp)
  rw [hout] at hcount htap
  refine ⟨fun hlast => ?_, fun hfails hlen => ?_⟩
  · have hstep := calMeasure_good hdom hhold hclk hrep hlast
    generalize loadTables (toEdge 2 819200 s) = u at *
    exact ⟨_, congrArg Host.Outcome.next hstep, congrArg (· + 1) hcount, rfl, rfl, rfl, hkeep,
      only_trans honly (only_mono (only_calibrated tap u) (by simp))⟩
  · have hstep := calMeasure_bad (tap := tap) hdom hhold hclk hrep hfails
    generalize loadTables (toEdge 2 819200 s) = u at *
    refine ⟨_, congrArg Host.Outcome.next hstep, ?_, ?_, ?_, held_note_field _ _ _ _ (by rw [hev]; exact hlen),
      only_trans (only_mono honly (by simp)) fun p hp => ?_⟩
    · simp [uncalibrated]
    · simpa [uncalibrated] using hcount
    · simpa [uncalibrated] using htap
    · clear hstep honly
      cases p <;> simp_all [same, uncalibrated]

/-- Settles O37: the ends of the peak phase and of the hold periods, the lamp results, and the calibration. -/
theorem peakHoldLampsAndCalibration : Obligations.PeakHoldLampsAndCalibration := by
  unfold Obligations.PeakHoldLampsAndCalibration
  exact fun s n => ⟨fun x => peakPhaseEndCompletes, fun x => holdChopOffCompletes, holdPeriodStartCompletes,
    fun xs => lampMeasureCompletes, fun mv => lampOffMeasureCompletes, fun tap => calMeasureCompletes⟩

end Sys2Proof.Proofs

/-! Disagreement of a driver with its command, and the field disconnect (R440 to R445). -/

namespace Sys2Proof.Proofs

open Sys2Proof.Machine Sys2Proof.Safety Sys2Proof.Laws

variable {n : Fin 32} {s t u : State}

/-! ## Records that a later note leaves -/

theorem any_modFirst_of {α : Type} {p : α → Bool} {f : α → α} (q : α → Bool) (hf : ∀ x, p (f x) = p x)
    (l : List α) : (modFirst q f l).any p = l.any p := by
  induction l with
  | nil => rfl
  | cons a l ih =>
    unfold modFirst
    split
    · rw [List.any_cons, List.any_cons, hf]
    · rw [List.any_cons, List.any_cons, ih]

/-- A record with one more occurrence of its source. -/
def counted (data : List Byte) (last : BitVec 32) (x : EventRec) : EventRec :=
  { x with count := satInc x.count, last := last, data := (data ++ be 8 0).take 8 }

theorem note_field_queue (code : BitVec 16) (sev : BitVec 2) (chan : Byte) (data : List Byte)
    (hroom : s.ev.field.length < 64) :
    (∃ f : EventRec → EventRec, (∀ x c d, sameSource c d (f x) = sameSource c d x) ∧
      (note .field code sev chan data s).ev.field = modFirst (sameSource code chan) f s.ev.field) ∨
    ∃ r, (note .field code sev chan data s).ev.field = s.ev.field ++ [r] := by
  unfold note
  dsimp only
  split
  · left
    refine ⟨counted data ((tbOf .field s).setWidth 32), fun x c d => rfl, ?_⟩
    split
    · exact (sendEvent_queues _ _).2.1
    · rfl
  · right
    simp only [enqueue, hroom, if_true, Bool.true_or]
    exact ⟨_, ((sendEvent_queues _ _).2.1.trans (startHandling_queues _ _).2.1)⟩

/-- A field record stays open while another is noted with room for it. -/
theorem held_note_field_of {code' : BitVec 16} {chan' : Byte} (code : BitVec 16) (sev : BitVec 2) (chan : Byte)
    (data : List Byte) (hroom : s.ev.field.length < 64) (h : Held .field code' chan' s) :
    Held .field code' chan' (note .field code sev chan data s) := by
  change (note .field code sev chan data s).ev.field.any _ = true
  have h' : s.ev.field.any (sameSource code' chan') = true := h
  rcases note_field_queue code sev chan data hroom with ⟨f, hf, hq⟩ | ⟨r, hq⟩
  · rw [hq, any_modFirst_of _ fun x => hf x code' chan', h']
  · rw [hq, List.any_append, h', Bool.true_or]

theorem length_note_field (code : BitVec 16) (sev : BitVec 2) (chan : Byte) (data : List Byte)
    (hroom : s.ev.field.length < 64) :
    (note .field code sev chan data s).ev.field.length ≤ s.ev.field.length + 1 := by
  rcases note_field_queue code sev chan data hroom with ⟨f, -, hq⟩ | ⟨r, hq⟩
  · rw [hq, length_modFirst]
    omega
  · rw [hq, List.length_append]
    exact Nat.le_refl _

/-! ## Disagreement (R440, R441) -/

/-- The channel observed on. -/
def observedOn (n : Fin 32) (x : BitVec 12) (s : State) : State :=
  let t := takeSample n x s
  setCh n (fun c => { c with
    obsOn := true, obsOff := false, onset := now t, latched := true, lastSrc := .disagree, forceHold := true }) t

/-- The channel observed off. -/
def observedOff (n : Fin 32) (x : BitVec 12) (s : State) : State :=
  let t := takeSample n x s
  setCh n (fun c => { c with obsOff := true, onset := now t }) t

theorem only_observedOn (n : Fin 32) (x : BitVec 12) (s : State) : Only [.out] s (observedOn n x s) :=
  only_trans (only_takeSample n x s) (only_setCh n _ _)

theorem only_observedOff (n : Fin 32) (x : BitVec 12) (s : State) : Only [.out] s (observedOff n x s) :=
  only_trans (only_takeSample n x s) (only_setCh n _ _)

theorem now_takeSample (n : Fin 32) (x : BitVec 12) (s : State) : now (takeSample n x s) = now s := by simp [now]

theorem disagreeOn_eq {x : BitVec 12} (hdom : domOn s 15 = true) (hoff : driverOn s n = false)
    (hx : onThr s ≤ x.toNat) (hobs : s.out.ch[n].obsOn = false) : disagreeOn n x s =
    let v := note .field 0x1501 2 (chanByte n) (disData n 1 x (observedOn n x s)) (observedOn n x s)
    if (takeSample n x s).out.ch[n].latched then v else noteLatch n v :=
  if_pos (by rw [hdom, hoff, decide_eq_true hx, hobs]; rfl)

theorem only_note_field (code : BitVec 16) (sev : BitVec 2) (chan : Byte) (data : List Byte) (s : State) :
    Only [.barr, .ev] s (note .field code sev chan data s) := fun p hp => by cases p <;> simp_all [same]

theorem disagreeOnCompletes {x : BitVec 12} (hdom : domOn s 15 = true) (hoff : driverOn s n = false)
    (hx : onThr s ≤ x.toNat) (hobs : s.out.ch[n].obsOn = false) (hroom : s.ev.field.length < 63) :
    Completes (.disagreeOn n x) s fun t =>
      t.out.ch[n].obsOn = true ∧ t.out.ch[n].latched = true ∧ t.out.ch[n].forceHold = true ∧
      t.out.ch[n].onset = now s ∧ Held .field 0x1501 (chanByte n) t ∧ Only [.barr, .out, .ev] s t := by
  have hstep := disagreeOn_eq hdom hoff hx hobs
  have honly := only_observedOn n x s
  have hev : (observedOn n x s).ev = s.ev := honly .ev (by simp)
  have hch : (observedOn n x s).out.ch[n].obsOn = true ∧ (observedOn n x s).out.ch[n].latched = true ∧
      (observedOn n x s).out.ch[n].forceHold = true ∧ (observedOn n x s).out.ch[n].onset = now s := by
    refine ⟨?_, ?_, ?_, ?_⟩ <;> simp [observedOn, now]
  generalize disData n 1 x (observedOn n x s) = data at *
  generalize observedOn n x s = u at *
  have hroom' : u.ev.field.length < 64 := by rw [hev]; omega
  have hheld := held_note_field 0x1501 2 (chanByte n) data hroom'
  have hlen := length_note_field 0x1501 2 (chanByte n) data hroom'
  have hnote := only_note_field 0x1501 2 (chanByte n) data u
  have hout : (note .field 0x1501 2 (chanByte n) data u).out = u.out := hnote .out (by simp)
  generalize note .field 0x1501 2 (chanByte n) data u = v at *
  have hroom'' : v.ev.field.length < 64 := by rw [hev] at hlen; omega
  have hv : Only [.barr, .out, .ev] s v := only_trans (only_mono honly (by simp)) (only_mono hnote (by simp))
  have hend : ∀ w, w = v ∨ w = noteLatch n v → w.out = u.out ∧ Held .field 0x1501 (chanByte n) w ∧
      Only [.barr, .out, .ev] s w := by
    rintro w (rfl | rfl)
    · exact ⟨hout, hheld, hv⟩
    · have hlatch : Only [.barr, .ev] v (noteLatch n v) := only_note_field _ _ _ _ v
      exact ⟨(hlatch .out (by simp)).trans hout, held_note_field_of _ _ _ _ hroom'' hheld,
        only_trans hv (only_mono hlatch (by simp))⟩
  have hcases : disagreeOn n x s = v ∨ disagreeOn n x s = noteLatch n v := by
    rw [hstep]
    dsimp only
    split
    · exact .inl rfl
    · exact .inr rfl
  obtain ⟨hw, hheld', honly'⟩ := hend _ hcases
  refine ⟨disagreeOn n x s, rfl, ?_, ?_, ?_, ?_, hheld', honly'⟩ <;> rw [hw]
  · exact hch.1
  · exact hch.2.1
  · exact hch.2.2.1
  · exact hch.2.2.2

theorem disagreeOff_eq {x : BitVec 12} (hdom : domOn s 15 = true) (hon : driverOn s n = true)
    (hmode : ochMode s (leader s n).val = 0) (hx : x.toNat < offThr s) (hobs : s.out.ch[n].obsOff = false) :
    disagreeOff n x s =
      note .field 0x1502 1 (chanByte n) (disData n 0 x (observedOff n x s)) (observedOff n x s) := by
  have hopen : s.out.discOpen = false := by
    by_contra h
    rw [Bool.not_eq_false] at h
    simp [driverOn, h] at hon
  exact if_pos (by rw [hdom, hon, hmode, decide_eq_true hx, hopen, hobs]; rfl)

theorem disagreeOffCompletes {x : BitVec 12} (hdom : domOn s 15 = true) (hon : driverOn s n = true)
    (hmode : ochMode s (leader s n).val = 0) (hx : x.toNat < offThr s) (hobs : s.out.ch[n].obsOff = false)
    (hroom : s.ev.field.length < 64) : Completes (.disagreeOff n x) s fun t =>
      t.out.ch[n].obsOff = true ∧ t.out.ch[n].onset = now s ∧ t.out.ch[n].latched = s.out.ch[n].latched ∧
      Held .field 0x1502 (chanByte n) t ∧ Only [.barr, .out, .ev] s t := by
  have hstep := disagreeOff_eq hdom hon hmode hx hobs
  have honly := only_observedOff n x s
  have hev : (observedOff n x s).ev = s.ev := honly .ev (by simp)
  have hlatched : (takeSample n x s).out.ch[n].latched = s.out.ch[n].latched :=
    chan_takeSample (p := (·.latched)) (fun _ _ => rfl) n x n s
  have hch : (observedOff n x s).out.ch[n].obsOff = true ∧ (observedOff n x s).out.ch[n].onset = now s ∧
      (observedOff n x s).out.ch[n].latched = s.out.ch[n].latched := by
    rw [← hlatched]
    refine ⟨?_, ?_, ?_⟩ <;> simp [observedOff, now]
  generalize disData n 0 x (observedOff n x s) = data at *
  generalize observedOff n x s = u at *
  have hnote := only_note_field 0x1502 1 (chanByte n) data u
  have hout : (note .field 0x1502 1 (chanByte n) data u).out = u.out := hnote .out (by simp)
  refine ⟨_, congrArg Host.Outcome.next hstep, ?_, ?_, ?_, held_note_field _ _ _ _ (by rw [hev]; exact hroom),
    only_trans (only_mono honly (by simp)) (only_mono hnote (by simp))⟩ <;> rw [hout]
  · exact hch.1
  · exact hch.2.1
  · exact hch.2.2

/-! ## The field disconnect (R442 to R445) -/

/-- How the disconnect stands: open, the reason, the count and the soft start. -/
def disc (s : State) : Bool × BitVec 2 × BitVec 16 × Bool :=
  (s.out.discOpen, s.out.discReason, s.out.discCount, s.out.softStart)

theorem disc_of_out (h : t.out = s.out) : disc t = disc s := by
  unfold disc
  rw [h]

theorem disc_note (side : Side) (code : BitVec 16) (sev : BitVec 2) (chan : Byte) (data : List Byte) (s : State) :
    disc (note side code sev chan data s) = disc s := disc_of_out (by simp)

theorem disc_clayEntry (s : State) : disc (clayEntry s) = disc s := by
  have hitems (u : State) : disc (applyAtClay u) = disc u := disc_of_out (by simp)
  have hcut (u : State) : disc (cutHanded u) = disc u := disc_of_out (by simp)
  have hfreeze (u : State) : disc (syncFreeze u) = disc u := disc_of_out (by simp)
  have hsched (p : SchedCmd → Bool) (u : State) : disc (discardSched p u) = disc u := disc_of_out (by simp)
  have hswaps (u : State) : disc (warnSwaps u) = disc u := disc_of_out (by simp)
  have hdrivers (u : State) : disc (clayHardware u) = disc u := rfl
  have hsweep (v : Byte) (u : State) : disc (abortSweep v u) = disc u := by
    unfold abortSweep
    split
    · exact (disc_note ..).trans rfl
    · split <;> rfl
  simp only [clayEntry, hitems, hcut, hsweep, hfreeze, hdrivers, hswaps, hsched]

theorem disc_enterClay (c : Fin 11) (s : State) : disc (enterClay c s) = disc s := by
  unfold enterClay
  split
  · rfl
  · exact (disc_clayEntry _).trans rfl

theorem disc_enterSilt (why : BitVec 4) (s : State) : disc (enterSilt why s) = disc s := by
  have hsend (c : BitVec 16) (u : State) : disc (sendSafe c u) = disc u := disc_of_out (by simp)
  exact (hsend _ _).trans ((disc_enterClay 8 _).trans rfl)

theorem toFieldFrame_clk (hclk : t.clk = s.clk) (hloaded : t.barr.replicaLoaded = s.barr.replicaLoaded)
    (hreplica : t.barr.replica = s.barr.replica) : (toFieldFrame t).clk = (toFieldFrame s).clk := by
  simp only [toFieldFrame, advance, tbOf, hclk, hloaded, hreplica]

/-- A CRITICAL of the field side holds Clay with cause 4 from its next frame boundary, and leaves the disconnect. -/
theorem raise_field_critical (code : BitVec 16) (chan : Byte) (data : List Byte) (s : State) :
    (raise .field code 3 chan data s).modes.clay = true ∧
    (raise .field code 3 chan data s).modes.active.getLsbD 4 = true ∧
    (raise .field code 3 chan data s).clk = (toFieldFrame s).clk ∧
    disc (raise .field code 3 chan data s) = disc s := by
  have hraise : raise .field code 3 chan data s =
      let v := enterClay 4 (toFieldFrame (note .field code 3 chan data s))
      if (criticalInHand s && !s.ev.field.any (sameSource code chan) && v.modes.mode = .loam) = true
      then enterSilt 5 v else v := rfl
  obtain ⟨hclk, -, hreplica, hloaded⟩ := note_field_time code 3 chan data s
  have htime := toFieldFrame_clk hclk hloaded hreplica
  have hdisc : disc (enterClay 4 (toFieldFrame (note .field code 3 chan data s))) = disc s :=
    (disc_enterClay 4 _).trans (disc_of_out (by simp))
  rw [hraise]
  dsimp only
  generalize toFieldFrame (note .field code 3 chan data s) = u at *
  split
  · exact ⟨by simp [enterSilt, hostClay], by simp [enterSilt, hostClay, cause],
      (by simp : (enterSilt 5 (enterClay 4 u)).clk = u.clk).trans htime, (disc_enterSilt 5 _).trans hdisc⟩
  · exact ⟨by simp, by simp [cause], (by simp : (enterClay 4 u).clk = u.clk).trans htime, hdisc⟩

/-- The disconnect open for its reason, and no channel observed off. -/
def discOpened (reason : BitVec 2) (s : State) : State :=
  { s with out := { s.out with
    discOpen := true, softStart := false, discReason := reason, discCount := satInc s.out.discCount
    ch := vmap (fun c => { c with obsOff := false }) s.out.ch } }

theorem only_raise (side : Side) (code : BitVec 16) (sev : BitVec 2) (chan : Byte) (data : List Byte) (s : State) :
    Only [.modes, .clk, .barr, .pkt, .out, .sense, .loop, .fw, .ev, .sect] s (raise side code sev chan data s) :=
  fun p hp => by cases p <;> simp_all [same]

theorem openDisc_ends (reason : BitVec 2) (s : State) :
    (openDisc reason s).out.discOpen = true ∧ (openDisc reason s).out.discReason = reason ∧
    (openDisc reason s).out.discCount = satInc s.out.discCount ∧ (openDisc reason s).modes.clay = true ∧
    (openDisc reason s).modes.active.getLsbD 4 = true ∧ (openDisc reason s).clk = (toFieldFrame s).clk ∧
    Only [.modes, .clk, .barr, .pkt, .out, .sense, .loop, .fw, .ev, .sect] s (openDisc reason s) := by
  have honly : Only [.out] s (discOpened reason s) := fun p hp => by cases p <;> simp_all [same, discOpened]
  change (raise .field 0x1503 3 0xFF _ (discOpened reason s)).out.discOpen = true ∧ _
  obtain ⟨hclay, hcause, hclk, hdisc⟩ :=
    raise_field_critical 0x1503 0xFF [BitVec.ofNat 8 reason.toNat] (discOpened reason s)
  simp only [disc, Prod.mk.injEq] at hdisc
  obtain ⟨hopen, hreason, hcount, -⟩ := hdisc
  refine ⟨hopen, hreason, hcount, hclay, hcause, hclk, only_trans (only_mono honly (by simp)) ?_⟩
  exact only_raise _ _ _ _ _ _

theorem disconnectHoldExpiryCompletes {x : BitVec 12} (hobs : s.out.ch[n].obsOn = true)
    (hforce : s.out.ch[n].forceHold = true) (hx : onThr s ≤ x.toNat) :
    Completes (.disconnectHoldExpiry n x) s fun t =>
      t.out.discOpen = true ∧ t.out.discReason = 1 ∧ t.out.discCount = satInc s.out.discCount ∧
      t.modes.clay = true ∧ t.modes.active.getLsbD 4 = true ∧ t.clk = (toFieldFrame s).clk ∧
      Only [.modes, .clk, .barr, .pkt, .out, .sense, .loop, .fw, .ev, .sect] s t := by
  let u := setCh n (fun c => { c with forceHold := false }) (takeSample n x s)
  have hu : Only [.out] s u := only_trans (only_takeSample n x s) (only_setCh n _ _)
  have hcount : u.out.discCount = s.out.discCount := by
    have htake : (takeSample n x s).out.discCount = s.out.discCount := by
      unfold takeSample
      split <;> rfl
    exact htake
  have htime : (toFieldFrame u).clk = (toFieldFrame s).clk := by
    have hbarr : u.barr = s.barr := hu .barr (by simp)
    exact toFieldFrame_clk (hu .clk (by simp)) (by rw [hbarr]) (by rw [hbarr])
  obtain ⟨hopen, hreason, hcnt, hclay, hcause, hclk, honly⟩ := openDisc_ends 1 u
  exact ⟨openDisc 1 u, congrArg Host.Outcome.next (if_pos (by rw [hobs, hforce, decide_eq_true hx]; rfl)), hopen,
    hreason, hcnt.trans (congrArg satInc hcount), hclay, hcause, hclk.trans htime,
    only_trans (only_mono hu (by simp)) honly⟩

theorem fdiscCtrlClose_clay (hopen : s.out.discOpen = true) (hclay : s.modes.clay = true)
    (hobs : ∀ m : Fin 32, s.out.ch[m].obsOn = false) :
    exec .fdiscCtrlClose s = .next { s with out := { s.out with softStart := true } } := by
  have hall : s.out.ch.toList.all (fun c => !c.obsOn) = true := by
    rw [List.all_eq_true]
    intro c hc
    obtain ⟨k, hk, rfl⟩ := List.mem_iff_getElem.mp hc
    have hlt : k < 32 := by simpa using hk
    have := hobs ⟨k, hlt⟩
    simpa using this
  refine congrArg Host.Outcome.next (if_pos ?_)
  unfold mayClose
  rw [hopen, hclay, hall]
  rfl

theorem fdiscCtrlClose_out (hclay : s.modes.clay = false) : exec .fdiscCtrlClose s = .next s := by
  refine congrArg Host.Outcome.next (if_neg ?_)
  unfold mayClose
  rw [hclay]
  simp

theorem disc_setCh (m : Fin 32) (f : Chan → Chan) (s : State) : disc (setCh m f s) = disc s := rfl

theorem disc_trip (d : Fin 32) (src : TripSrc) (s : State) : disc (trip d src s) = disc s := by
  have h := trip_out d src s
  have hopen := congrArg Outputs.discOpen h
  have hreason := congrArg Outputs.discReason h
  have hcount := congrArg Outputs.discCount h
  have hsoft := congrArg Outputs.softStart h
  exact Prod.ext hopen (Prod.ext hreason (Prod.ext hcount hsoft))

theorem disc_driverStart (d : Fin 32) (s : State) : disc (driverStart d s) = disc s := by
  unfold driverStart
  split
  · rfl
  · extract_lets blanked u
    split
    · exact disc_trip d _ u
    · rfl

theorem disc_resumed (old s : State) : disc (resumed old s) = disc s := by
  rw [resumed_eq]
  refine (foldl_keep disc _ (fun s d => ?_) _ _).trans (foldl_keep disc _ (fun s d => ?_) _ s)
  · rcases noteTurn_shape old d s with h | ⟨f, h, -⟩
    · rw [h]
    · rw [h]
      rfl
  · unfold resumeOne
    split
    · exact disc_driverStart d s
    · rfl

theorem softStartEndCompletes (hsoft : s.out.softStart = true) : Completes .softStartEnd s fun t =>
    t.out.softStart = false ∧ t.out.discOpen = false ∧ t.out.discReason = 0 ∧ t.clk = (toFieldFrame s).clk ∧
    (s.modes.clay = true → ∀ m : Fin 32, t.out.ch[m] = s.out.ch[m]) ∧ Only [.clk, .barr, .out, .ev] s t := by
  have hframe : Only [.clk, .barr] s (toFieldFrame s) := only_mono (fun p hp => by
    cases p <;> simp_all [same] : Only [.clk, .barr] s (toFieldFrame s)) (by simp)
  have hstep : execSoftStartEnd s = .next (resumed (toFieldFrame s) { toFieldFrame s with
      out := { (toFieldFrame s).out with softStart := false, discOpen := false, discReason := 0 } }) :=
    congrArg Host.Outcome.next (if_pos hsoft)
  have hmodes : (toFieldFrame s).modes = s.modes := hframe .modes (by simp)
  have hout : (toFieldFrame s).out = s.out := hframe .out (by simp)
  generalize toFieldFrame s = u at *
  have hdisc := disc_resumed u { u with out := { u.out with softStart := false, discOpen := false, discReason := 0 } }
  simp only [disc, Prod.mk.injEq] at hdisc
  obtain ⟨hopen, hreason, -, hstart⟩ := hdisc
  refine ⟨_, hstep, hstart, hopen, hreason, by simp, fun hclay m => ?_,
    only_trans (only_mono hframe (by simp)) fun p hp => ?_⟩
  · rw [resumed_clay (by rw [hmodes]; exact hclay) (by exact hmodes ▸ hclay)]
    simp only [hout]
  · clear hstep hopen hreason hstart hframe
    cases p <;> simp_all [same]

/-- Settles O38: what is observed against the command is reported and latched, and the disconnect opens, recloses and
ends its soft start. -/
theorem disagreementAndDisconnect : Obligations.DisagreementAndDisconnect := by
  unfold Obligations.DisagreementAndDisconnect
  exact fun s n => ⟨fun x => disagreeOnCompletes, fun x => disagreeOffCompletes, ⟨_, rfl, setCh_oneChannel n _ s⟩,
    fun x => disconnectHoldExpiryCompletes, ⟨_, rfl, openDisc_ends 2 s⟩,
    fun hopen => ⟨fun ⟨hclay, hobs⟩ => fdiscCtrlClose_clay hopen hclay hobs, fdiscCtrlClose_out⟩,
    softStartEndCompletes⟩

end Sys2Proof.Proofs

/-! What a change of a channel's command leaves beside the channels: the barrier side but for the events it sends, the
TRIP inputs, and, while none of these is active, the latches (R205, R206, R220, R446). And how a command of flag F
crosses the barrier (R84, R154). -/

namespace Sys2Proof.Proofs

open Sys2Proof.Machine Sys2Proof.Safety Sys2Proof.Laws

variable {n d m : Fin 32} {s t u : State}

/-- The barrier side without the messages to the host. -/
def unsent (s : State) : Barrier := { s.barr with rg7 := [] }

theorem unsent_of_barr (h : t.barr = s.barr) : unsent t = unsent s := by rw [unsent, h, unsent]

theorem unsent_fields (h : unsent t = unsent s) : t.barr.heldEdges = s.barr.heldEdges ∧ SameClock s t := by
  simp only [unsent, Barrier.mk.injEq] at h
  simp only [SameClock, h, and_self]

theorem unsent_sendEvent (r : EventRec) (s : State) : unsent (sendEvent r s) = unsent s := rfl

theorem unsent_note (side : Side) (code : BitVec 16) (sev : BitVec 2) (chan : Byte) (data : List Byte) (s : State) :
    unsent (note side code sev chan data s) = unsent s := by
  cases side with
  | host => exact unsent_of_barr (note_host_barr ..)
  | field =>
    have hev (u : State) (e : Events) : unsent { u with ev := e } = unsent u := rfl
    simp only [note]
    (repeat' split) <;> simp only [unsent_sendEvent, hev]

/-- What commands of the channels leave beside them: the barrier side, the TRIP inputs, and the latches, which only an
active TRIP input can set. -/
structure Drift (s t : State) : Prop where
  barr : unsent t = unsent s
  inputs : t.out.tripActive = s.out.tripActive
  latch : s.out.tripActive = 0 → ∀ m : Fin 32, t.out.ch[m].latched = s.out.ch[m].latched ∧
    (s.out.ch[m].trips = 0 → t.out.ch[m].trips = 0)

theorem Drift.refl (s : State) : Drift s s := ⟨rfl, rfl, fun _ _ => ⟨rfl, id⟩⟩

theorem Drift.trans (h : Drift s t) (g : Drift t u) : Drift s u :=
  ⟨g.barr.trans h.barr, g.inputs.trans h.inputs, fun h0 m =>
    ⟨((g.latch (h.inputs.trans h0) m).1).trans (h.latch h0 m).1,
      fun htrips => (g.latch (h.inputs.trans h0) m).2 ((h.latch h0 m).2 htrips)⟩⟩

theorem Drift.foldl {α : Type} {f : State → α → State} (hf : ∀ s a, Drift s (f s a)) (l : List α) (s : State) :
    Drift s (l.foldl f s) := by
  induction l generalizing s with
  | nil => exact .refl s
  | cons a l ih => exact (hf s a).trans (ih _)

theorem Drift.setCh {f : Chan → Chan} (s : State)
    (hf : ∀ c, (f c).latched = c.latched ∧ (c.trips = 0 → (f c).trips = 0)) : Drift s (setCh n f s) := by
  refine ⟨rfl, rfl, fun _ m => ?_⟩
  rw [Fin.getElem_fin, setCh_get]
  split
  · next h => subst h; exact hf _
  · exact ⟨rfl, id⟩

theorem Drift.note (code : BitVec 16) (sev : BitVec 2) (chan : Byte) (data : List Byte) (s : State) :
    Drift s (note .field code sev chan data s) := by
  have hout : (Machine.note .field code sev chan data s).out = s.out := by simp
  exact ⟨unsent_note .., by rw [hout], fun _ m => by rw [hout]; exact ⟨rfl, id⟩⟩

theorem Drift.openBlank (d : Fin 32) (s : State) : Drift s (openBlank d s) := .setCh s fun _ => ⟨rfl, id⟩

theorem Drift.noteTurn (old : State) (d : Fin 32) (s : State) : Drift s (noteTurn old d s) := by
  unfold Machine.noteTurn
  dsimp only
  split
  · exact .refl s
  · exact .setCh s fun _ => ⟨rfl, id⟩

theorem Drift.turns (old : State) (l : List (Fin 32)) (s : State) :
    Drift s (l.foldl (fun s d => Machine.noteTurn old d s) s) := .foldl (fun s d => .noteTurn old d s) l s

theorem unsent_trip (d : Fin 32) (src : TripSrc) (s : State) : unsent (trip d src s) = unsent s := by
  unfold trip
  extract_lets x was at' retry u
  split
  · exact (unsent_note ..).trans rfl
  · rfl

theorem tripInputOn_idle (h : s.out.tripActive = 0) (d : Fin 32) : tripInputOn s d = none := by
  simp [tripInputOn, h]

/-- An on-phase sets no latch while no TRIP input is active. -/
theorem Drift.driverStart (d : Fin 32) (s : State) : Drift s (driverStart d s) := by
  unfold Machine.driverStart
  split
  · exact .openBlank d s
  · extract_lets blanked u
    have hu : Drift s u := .setCh s fun _ => ⟨rfl, id⟩
    split
    · next i hi =>
      refine ⟨(unsent_trip ..).trans hu.barr, ?_, fun h0 => ?_⟩
      · exact (congrArg Outputs.tripActive (trip_out d (.input i) u)).trans hu.inputs
      · rw [tripInputOn_idle (hu.inputs.trans h0), ite_self] at hi
        exact absurd hi (by simp)
    · refine hu.trans (Drift.trans ?_ (.openBlank d _))
      exact .setCh u fun _ => ⟨rfl, id⟩

theorem Drift.edges (old s : State) : Drift s (edges old s) := by
  refine Drift.trans (.foldl (fun s d => ?_) _ s) (.turns old _ _)
  split
  · exact .refl s
  · split
    · exact .driverStart d s
    · split
      · refine Drift.trans ?_ (.openBlank d _)
        exact .setCh s fun _ => ⟨rfl, id⟩
      · exact .refl s

theorem Drift.judge (d : Fin 32) (s : State) : Drift s (judge d s) := by
  unfold Machine.judge
  extract_lets s1 g _ s2 _ s3 s4
  have h1 : Drift s s1 := .setCh s fun _ => ⟨rfl, id⟩
  have h2 : Drift s1 s2 := by
    clear_value g
    cases g <;> exact ⟨rfl, rfl, fun _ _ => ⟨rfl, id⟩⟩
  have h3 : Drift s2 s3 := by
    unfold s3
    split <;> exact ⟨rfl, rfl, fun _ _ => ⟨rfl, id⟩⟩
  have h4 : Drift s3 s4 := by
    unfold s4
    split
    · exact .note ..
    · exact .refl s3
  exact h1.trans (h2.trans (h3.trans (h4.trans (.setCh s4 fun _ => ⟨rfl, id⟩))))

theorem Drift.rebudget (n : Fin 32) (was : Bool) (s : State) : Drift s (rebudget n was s) := by
  refine .foldl (fun s d => ?_) _ s
  split
  · exact .refl s
  · split
    · exact .judge d s
    · split
      · exact .setCh s fun _ => ⟨rfl, id⟩
      · exact .refl s

theorem closePeriod_latch (k : Nat) (c : Chan) : (closePeriod k c).latched = c.latched ∧
    (c.trips = 0 → (closePeriod k c).trips = 0) := by
  unfold closePeriod
  split
  · exact ⟨rfl, id⟩
  · split
    · exact ⟨rfl, fun h => if_pos h⟩
    · exact ⟨rfl, id⟩

theorem Drift.closePeriods (n : Fin 32) (s : State) : Drift s (closePeriods n s) := by
  refine .foldl (fun s d => ?_) _ s
  split
  · exact .refl s
  · exact .setCh s fun c => closePeriod_latch _ c

theorem Drift.startPhase (n : Fin 32) (t0 : Nat) (s : State) : Drift s (startPhase n t0 s) := by
  unfold Machine.startPhase
  dsimp only
  split
  · exact .refl s
  · exact .setCh s fun _ => ⟨rfl, id⟩

theorem Drift.loadPeriod (t : BitVec 64) (fine : BitVec 5) (n : Fin 32) (s : State) :
    Drift s (loadPeriod t fine n s) := by
  unfold Machine.loadPeriod
  extract_lets offAt onAt out was u
  have hu : Drift s u := .setCh s fun _ => ⟨rfl, id⟩
  split
  · refine hu.trans (Drift.trans ?_ (.startPhase ..))
    exact .setCh u fun _ => ⟨rfl, id⟩
  · split
    · refine hu.trans ?_
      exact .setCh u fun _ => ⟨rfl, id⟩
    · exact hu

theorem Drift.setGateAt (fine : BitVec 5) (n : Fin 32) (on : Bool) (s : State) : Drift s (setGateAt fine n on s) := by
  unfold Machine.setGateAt
  split
  · exact .refl s
  · extract_lets u w v
    have hu : Drift s u := Drift.trans (⟨rfl, rfl, fun _ _ => ⟨rfl, id⟩⟩ : Drift s (fanGate n on s))
      (.setCh _ fun _ => ⟨rfl, id⟩)
    have hv : Drift u v := by
      unfold v
      split
      · split
        · exact .setCh u fun _ => ⟨rfl, id⟩
        · refine (Drift.closePeriods n u).trans (Drift.trans (Drift.loadPeriod u.clk.tb fine n _) ?_)
          exact .setCh _ fun _ => ⟨rfl, id⟩
      · have hw : Drift u w := by
          unfold w
          split
          · exact .closePeriods n u
          · exact .refl u
        exact hw.trans (.setCh w fun _ => ⟨rfl, id⟩)
    exact hu.trans (hv.trans ((Drift.edges s v).trans (.rebudget ..)))

theorem Drift.setGate (n : Fin 32) (on : Bool) (s : State) : Drift s (setGate n on s) := .setGateAt 0 n on s

theorem Drift.setOverride (n : Fin 32) (o : Override) (s : State) : Drift s (setOverride n o s) := by
  unfold Machine.setOverride
  refine Drift.trans ?_ ((Drift.edges s _).trans (.rebudget ..))
  exact .setCh s fun _ => ⟨rfl, id⟩

/-- A change of one override leaves the gates, the other overrides and the edges to come. -/
theorem commandOf_setOverride (n m : Fin 32) (o : Override) (s : State) : commandOf (setOverride n o s) m =
    if m = n then (s.out.ch[n].gate, o, s.out.ch[n].queue) else commandOf s m := by
  unfold setOverride
  refine (commandOf_orders ((orders_rebudget ..).trans (orders_edges ..)) m).trans ?_
  simp only [commandOf, Fin.getElem_fin, setCh_get]
  split <;> rfl

/-! ## A command of flag F crosses the barrier -/

/-- The access that carries a command's field part. -/
def opTxn (q : Request) (o : FieldOp) (s : State) : RegTxn :=
  { tag := s.barr.nextTag, why := .request q, isWrite := true, sends := 1, op := some o }

theorem startOp_barr {q : Request} {o : FieldOp} (hheld : s.barr.rg6Held = []) (hroom : s.barr.rg6.length < 128) :
    startOp (.request q) false 0 o s = { s with barr := { s.barr with
      txns := s.barr.txns ++ [opTxn q o s], nextTag := nextTagOf s.barr.nextTag
      rg6 := s.barr.rg6 ++
        [queued (.cfgWrite { tag := s.barr.nextTag, addr := 0, value := 0, mask := 0, op := some o }) s] } } := by
  simp [startOp, sendTxn, drawTag, txnCell, sendCell, ringTakes, hheld, hroom, queued, opTxn]

theorem barrierArena_free {q : Request} (hheld : s.barr.rg6Held = []) (hroom : s.barr.rg6.length < 128) :
    barrierArena q 1 s = none := by
  have : s.barr.rg6.length + 1 ≤ 128 := hroom
  simp [barrierArena, hheld, this]

theorem crossAct_up {q : Request} (hup : linkUp s = true) (hheld : s.barr.rg6Held = [])
    (hroom : s.barr.rg6.length < 128) :
    crossAct q s = (startOp (.request q) false 0 ⟨q.pkt.opcode, reqBody q⟩ s, none) := by
  have hgo : ¬ (!linkUp s) = true := by rw [hup]; decide
  unfold crossAct
  rw [if_neg hgo, barrierArena_free hheld hroom]

theorem opcode_of_accepted {k : Nat} {q : Request} (h : Accepted k q s) : q.pkt.opcode = BitVec.ofNat 8 k := by
  obtain ⟨⟨i, -, -, hcode, -⟩, -⟩ := h
  exact hcode

/-- A command whose action is to cross is refused while the barrier is down, and else sent. -/
theorem crosses_of (o : Op) {c : Instr} {q : Request} (h : Accepted o.code q s) (hact : o.act = crossAct)
    (hc : o.check q (taken q s) = none) (hexec : exec c s = .next (serve o q s) := by rfl)
    (hl : o.life q (taken q s) = none := by rfl) (hafter : ∀ u, o.after q u = u := by exact fun _ => rfl) :
    Crosses c (BitVec.ofNat 8 o.code) q s := by
  have hlink : linkUp (taken q s) = linkUp s := taken_keep linkUp q s
  refine ⟨fun hdown => answers_of (f := id) o h hexec hl hc ?_ (.inr hafter), fun hup hheld hroom => ?_⟩
  · have hgo : (!linkUp (taken q s)) = true := by rw [hlink, hdown]; rfl
    rw [hact]
    exact if_pos hgo
  · have hbarr : (taken q s).barr = s.barr := by simp
    have hclk : (taken q s).clk = s.clk := by simp
    have hsent : o.act q (taken q s) = (startOp (.request q) false 0 ⟨q.pkt.opcode, reqBody q⟩ (taken q s), none) := by
      rw [hact]
      exact crossAct_up (hlink.trans hup) (by rw [hbarr]; exact hheld) (by rw [hbarr]; exact hroom)
    have hexec' := exec_later o h hc hsent hexec hl hafter
    rw [startOp_barr (by rw [hbarr]; exact hheld) (by rw [hbarr]; exact hroom)] at hexec'
    have hqueued (x : Cell) : queued x (taken q s) = queued x s := by simp [queued]
    rw [hqueued] at hexec'
    simp only [opTxn, hbarr, opcode_of_accepted h] at hexec'
    exact ⟨_, hexec', rfl, rfl, rfl, served_of_taken (only_served (only_barr _ _))⟩

/-! ## The field part of a command acts (R82, R83, R154) -/

/-- What the field part of a command makes of the state at the next frame boundary of the field side, and what is
answered. -/
theorem part_acts {o : FieldOp} {c : CfgWriteCell} {ps : List Part} {a : Ans} (h : PartArrives o c s)
    (hpart : fieldPart o (partState s) = (u, a)) (hclock : SameClock (partState s) u)
    (honly : Only ps (partState s) u) : Completes (.cfgWrite c) s fun t =>
      t.regs = u.regs ∧ t.out = u.out ∧ t.clk = u.clk ∧ t.barr.heldEdges = u.barr.heldEdges ∧
      Acks c a.status a.detail a.data t ∧ Only (.clk :: .barr :: ps) s t ∧ Only [.barr] u t := by
  obtain ⟨harr, hnow, hop, hfresh⟩ := h
  have hexec := exec_cfgWrite_fresh harr hfresh
  have happly : applyCfgWrite c (takenDown s) = (u, a) := by
    rw [← hpart]
    simp only [applyCfgWrite, hnow, hop, Bool.false_eq_true, if_false]
    rfl
  rw [happly] at hexec
  obtain ⟨-, hclk, -, q, rest, hring, -⟩ := harr
  obtain ⟨hkeep, -⟩ := takenDown_keeps hring
  have hfield : u.barr.fieldClock = true := Eq.trans hclock (Eq.trans hkeep hclk)
  obtain ⟨hregs, hout, hclk', -, -, -, hlast, hbarr⟩ := answer_kept c.tag (writeAnswer c a) u
  have hans : writeAnswer c a = .cfgData c.tag a.status (a.detail.setWidth 24) (dataWords a.data) := by
    simp [writeAnswer, hop]
  have hstart : Only [.clk, .barr] s (partState s) := fun p hp => by
    cases p <;> simp_all [same, partState]
  refine ⟨_, hexec, hregs, hout, hclk', rfl, ?_, only_trans (only_mono hstart (by simp))
    (only_trans (only_mono honly fun p hp => by simp [hp]) (only_mono hbarr (by simp))), hbarr⟩
  exact (hlast hfield).2.trans (congrArg some hans)

/-- The state in which a field part acts has the outputs and the registers as they were. -/
theorem only_partState (s : State) : Only [.clk, .barr] s (partState s) := fun p hp => by
  cases p <;> simp_all [same, partState]

end Sys2Proof.Proofs

/-! The output commands at the field side, and OCH_EDGES (R165 to R167, R208, R210, R443, R448, R485). -/

namespace Sys2Proof.Proofs

open Sys2Proof.Machine Sys2Proof.Safety Sys2Proof.Laws

variable {n d m : Fin 32} {s t u : State}

/-! ## OCH_SET (R165, R443, R448) -/

/-- The overrides of some channels. -/
def overrides (o : Override) (l : List (Fin 32)) (s : State) : State := l.foldl (fun s n => setOverride n o s) s

theorem commandOf_overrides (o : Override) (l : List (Fin 32)) (m : Fin 32) (s : State) :
    commandOf (overrides o l s) m = if m ∈ l then (s.out.ch[m].gate, o, s.out.ch[m].queue) else commandOf s m := by
  induction l generalizing s with
  | nil => rfl
  | cons n l ih =>
    have hone := commandOf_setOverride n m o s
    refine (ih (setOverride n o s)).trans ?_
    by_cases hm : m = n
    · subst hm
      rw [if_pos rfl] at hone
      have hgate := congrArg (·.1) hone
      have hqueue := congrArg (·.2.2) hone
      rw [if_pos List.mem_cons_self, hone]
      split
      · exact Prod.ext hgate (Prod.ext rfl hqueue)
      · rfl
    · rw [if_neg hm] at hone
      have hgate := congrArg (·.1) hone
      have hqueue := congrArg (·.2.2) hone
      by_cases hl : m ∈ l
      · rw [if_pos hl, if_pos (List.mem_cons_of_mem n hl)]
        exact Prod.ext hgate (Prod.ext rfl hqueue)
      · rw [if_neg hl, if_neg (by simp [hm, hl]), hone]

theorem setRun_state (n : Fin 32) (p : SetMasks) (s : State) : (setRun n p s).2 = setOverride n .none s := by
  unfold setRun
  dsimp only
  (repeat' split) <;> rfl

/-- OCH_SET OFF of one channel. -/
def offStep (p : SetMasks × State) (n : Fin 32) : SetMasks × State :=
  ({ p.1 with granted := p.1.granted ||| oneBit n.val }, setOverride n .off p.2)

theorem setOutputs_zero (mask : Word) (s : State) : setOutputs mask 0 s = (maskList mask).foldl offStep ({}, s) := rfl

theorem setOutputs_off (mask : Word) (s : State) : (setOutputs mask 0 s).2 = overrides .off (maskList mask) s ∧
    (setOutputs mask 0 s).1.refused = 0 ∧ (setOutputs mask 0 s).1.staggered = 0 := by
  rw [setOutputs_zero]
  exact ⟨(List.foldl_hom Prod.snd fun _ _ => rfl).symm,
    foldl_keep (fun p : SetMasks × State => p.1.refused) offStep (fun _ _ => rfl) _ _,
    foldl_keep (fun p : SetMasks × State => p.1.staggered) offStep (fun _ _ => rfl) _ _⟩

theorem setOutputs_run (mask : Word) (s : State) : (setOutputs mask 2 s).2 = overrides .none (maskList mask) s :=
  (List.foldl_hom Prod.snd fun p n => (setRun_state n p.1 p.2).symm).symm

/-- What OCH_SET ON makes of the commands: an override on, on a channel of the mask alone. -/
structure TurnedOn (mask : Word) (s t : State) : Prop where
  gate : ∀ m : Fin 32, t.out.ch[m].gate = s.out.ch[m].gate
  apart : ∀ m : Fin 32, bit mask m.val = false → t.out.ch[m].ovr = s.out.ch[m].ovr
  ovr : ∀ m : Fin 32, t.out.ch[m].ovr = .on ∨ t.out.ch[m].ovr = s.out.ch[m].ovr

theorem TurnedOn.of_ch {mask : Word} (h : t.out.ch = s.out.ch) : TurnedOn mask s t :=
  ⟨fun m => by rw [h], fun m _ => by rw [h], fun m => by rw [h]; exact .inr rfl⟩

theorem TurnedOn.trans {mask : Word} (h : TurnedOn mask s t) (g : TurnedOn mask t u) : TurnedOn mask s u :=
  ⟨fun m => (g.gate m).trans (h.gate m), fun m hm => (g.apart m hm).trans (h.apart m hm),
    fun m => (g.ovr m).elim .inl fun e => by rw [e]; exact h.ovr m⟩

theorem TurnedOn.setOverride {mask : Word} (hn : bit mask n.val = true) (s : State) :
    TurnedOn mask s (setOverride n .on s) := by
  have hcmd (m : Fin 32) := commandOf_setOverride n m .on s
  have hgate (m : Fin 32) := congrArg (·.1) (hcmd m)
  have hovr (m : Fin 32) := congrArg (·.2.1) (hcmd m)
  refine ⟨fun m => (hgate m).trans ?_, fun m hm => (hovr m).trans ?_, fun m => ?_⟩
  · split
    · next h => rw [h]
    · rfl
  · rw [if_neg fun h => by rw [h, hn] at hm; exact absurd hm (by simp)]
    rfl
  · by_cases h : m = n
    · exact .inl ((hovr m).trans (by rw [if_pos h]))
    · exact .inr ((hovr m).trans (by rw [if_neg h]; rfl))

theorem TurnedOn.setOn {mask : Word} (hn : bit mask n.val = true) (p : SetMasks) (s : State) :
    TurnedOn mask s (setOn n p s).2 := by
  unfold Machine.setOn
  dsimp only
  split
  · split
    · split
      · exact .of_ch rfl
      · exact .setOverride hn s
    · split
      · exact .of_ch rfl
      · exact .setOverride hn s
  · split
    · exact .of_ch rfl
    · split
      · exact .setOverride hn s
      · exact .setOverride hn s

theorem setOutputs_one (mask : Word) (s : State) :
    setOutputs mask 1 s = (maskList mask).foldl (fun p n => setOn n p.1 p.2) ({}, s) := by
  unfold setOutputs
  simp only [Nat.one_ne_zero, ↓reduceIte]

theorem setOutputs_on (mask : Word) (s : State) : TurnedOn mask s (setOutputs mask 1 s).2 := by
  have hfold (l : List (Fin 32)) (hl : ∀ n ∈ l, bit mask n.val = true) (p : SetMasks × State) :
      TurnedOn mask p.2 (l.foldl (fun p n => setOn n p.1 p.2) p).2 := by
    induction l generalizing p with
    | nil => exact .of_ch rfl
    | cons n l ih =>
      exact (TurnedOn.setOn (hl n List.mem_cons_self) p.1 p.2).trans
        (ih (fun m hm => hl m (List.mem_cons_of_mem n hm)) _)
  rw [setOutputs_one]
  exact hfold (maskList mask) (fun n hn => mem_maskList.mp hn) ({}, s)

theorem sameClock_setOn (n : Fin 32) (p : SetMasks) (s : State) : SameClock s (setOn n p s).2 := by
  have hset : SameClock s (setOverride n .on s) := (unsent_fields (Drift.setOverride n .on s).barr).2
  unfold setOn
  dsimp only
  split
  · split
    · split
      · rfl
      · exact hset
    · split
      · rfl
      · exact hset
  · split
    · exact hset
    · split
      · exact hset
      · exact hset

theorem sameClock_setOutputs (mask : Word) (action : Nat) (s : State) : SameClock s (setOutputs mask action s).2 := by
  refine foldl_keep (fun p : SetMasks × State => p.2.barr.fieldClock) _ (fun p n => ?_) _ ({}, s)
  dsimp only
  split
  · exact (unsent_fields (Drift.setOverride n .off p.2).barr).2
  · split
    · exact sameClock_setOn n p.1 p.2
    · rw [setRun_state]
      exact (unsent_fields (Drift.setOverride n .none p.2).barr).2

theorem ochSetField_clay (b : List Byte) (hclay : s.modes.clay = true) :
    ochSetField b s = (s, { status := 0x11, detail := 0x24 }) := by
  unfold ochSetField
  rw [hclay]
  rfl

/-- OCH_SET outside Clay, with its domains ON and no sweep on its channels. -/
theorem ochSetField_acts (b : List Byte) (hclay : s.modes.clay = false) (hsweep : sweepHolds (wordAt b 0) s = false)
    (h14 : domOn s 14 = true) (h15 : domOn s 15 = true) :
    (ochSetField b s).1 = (setOutputs (wordAt b 0) (byteAt b 4).toNat s).2 ∧
    (byteAt b 4 = 0 → ∃ d, (ochSetField b s).2 =
      { status := if contradicted (wordAt b 0) s then 0x41 else 0, data := d }) := by
  have hneed : needDoms [14, 15] s = none := if_pos (by simp [h14, h15])
  unfold ochSetField
  simp only [hclay, hsweep, hneed, orElse, Bool.false_eq_true, ↓reduceIte, Option.orElse_eq_orElse,
    Option.orElse_eq_or, Option.none_or]
  refine ⟨by (repeat' split) <;> rfl, fun h0 => ?_⟩
  have hzero : (byteAt b 4).toNat = 0 := by rw [h0]; rfl
  obtain ⟨-, href, hstag⟩ := setOutputs_off (wordAt b 0) s
  simp only [hzero, href, hstag, decide_true, Bool.true_and, bne_self_eq_false, Bool.false_eq_true, ↓reduceIte]
  split <;> exact ⟨_, rfl⟩

/-! ## OCH_TIMING (R167, R211) -/

/-- The timing registers of one channel. -/
def timed (b : List Byte) (s : State) (n : Fin 32) : State :=
  let a := 0x100000 + 0x40 * n.val
  setReg (a + 0x10) (pack [((byteAt b 12).toNat, 0), ((byteAt b 17).toNat, 8)])
    (setReg (a + 0x0C) (wordAt b 13) (setReg (a + 0x08) (wordAt b 8) (setReg (a + 0x04) (wordAt b 4) s)))

theorem ochTimingField_acts (b : List Byte) (h14 : domOn s 14 = true) :
    ochTimingField b s = ((maskList (wordAt b 0)).foldl (timed b) s, {}) := by
  have hneed : needDoms [14] s = none := if_pos (by simp [h14])
  unfold ochTimingField
  rw [hneed]
  rfl

/-- The registers of state s in their canonical form. -/
def CanonRegs (s : State) : Prop := canon (regReset s.id.variant) s.regs = true

theorem timed_canon (b : List Byte) (n : Fin 32) (h : CanonRegs s) : CanonRegs (timed b s n) :=
  setReg_canon _ _ _ (setReg_canon _ _ _ (setReg_canon _ _ _ (setReg_canon _ _ _ h)))

theorem och_timed_self (b : List Byte) (n : Fin 32) (h : CanonRegs s) :
    och (timed b s n) n.val 0x04 = wordAt b 4 ∧ och (timed b s n) n.val 0x08 = wordAt b 8 ∧
    och (timed b s n) n.val 0x0C = wordAt b 13 := by
  have h1 : CanonRegs (setReg (0x100000 + 0x40 * n.val + 0x04) (wordAt b 4) s) := setReg_canon _ _ _ h
  have h2 := setReg_canon (0x100000 + 0x40 * n.val + 0x08) (wordAt b 8) _ h1
  unfold och timed
  dsimp only
  refine ⟨?_, ?_, ?_⟩
  · rw [reg_setReg_other _ _ _ _ (by omega), reg_setReg_other _ _ _ _ (by omega),
      reg_setReg_other _ _ _ _ (by omega), reg_setReg_same _ _ _ h]
  · rw [reg_setReg_other _ _ _ _ (by omega), reg_setReg_other _ _ _ _ (by omega), reg_setReg_same _ _ _ h1]
  · rw [reg_setReg_other _ _ _ _ (by omega), reg_setReg_same _ _ _ h2]

theorem och_timed_other {k : Nat} (b : List Byte) {n m : Fin 32} (hk : k < 0x40) (hm : m ≠ n) (s : State) :
    och (timed b s n) m.val k = och s m.val k := by
  have hne : m.val ≠ n.val := fun h => hm (Fin.ext h)
  unfold och timed
  dsimp only
  rw [reg_setReg_other _ _ _ _ (by omega), reg_setReg_other _ _ _ _ (by omega),
    reg_setReg_other _ _ _ _ (by omega), reg_setReg_other _ _ _ _ (by omega)]

/-- The three timing values of a channel. -/
def timingOf (s : State) (m : Fin 32) : Word × Word × Word := (och s m.val 0x04, och s m.val 0x08, och s m.val 0x0C)

theorem timingOf_timed (b : List Byte) (n m : Fin 32) (h : CanonRegs s) : timingOf (timed b s n) m =
    if m = n then (wordAt b 4, wordAt b 8, wordAt b 13) else timingOf s m := by
  unfold timingOf
  split
  · next hm =>
    subst hm
    obtain ⟨h1, h2, h3⟩ := och_timed_self b m h
    rw [h1, h2, h3]
  · next hm =>
    rw [och_timed_other b (by omega) hm, och_timed_other b (by omega) hm, och_timed_other b (by omega) hm]

theorem timingOf_foldl (b : List Byte) (l : List (Fin 32)) (m : Fin 32) (h : CanonRegs s) :
    timingOf (l.foldl (timed b) s) m = if m ∈ l then (wordAt b 4, wordAt b 8, wordAt b 13) else timingOf s m := by
  induction l generalizing s with
  | nil => rfl
  | cons n l ih =>
    refine (ih (timed_canon b n h)).trans ?_
    rw [timingOf_timed b n m h]
    by_cases hl : m ∈ l
    · rw [if_pos hl, if_pos (List.mem_cons_of_mem n hl)]
    · rw [if_neg hl]
      by_cases hm : m = n
      · rw [if_pos hm, if_pos (hm ▸ List.mem_cons_self)]
      · rw [if_neg hm, if_neg (by simp [hm, hl])]

theorem only_timed (b : List Byte) (l : List (Fin 32)) (s : State) : Only [.regs] s (l.foldl (timed b) s) := by
  induction l generalizing s with
  | nil => exact fun p _ => by cases p <;> rfl
  | cons n l ih =>
    refine only_trans (fun p hp => ?_) (ih (timed b s n))
    cases p <;> simp_all [same, timed]

/-! ## OCH_CLEAR (R167) -/

/-- The latch and the trips of a channel, and whether its gate is on. -/
theorem clearChannel_latch (n : Fin 32) (h0 : s.out.tripActive = 0) :
    (clearChannel n s).out.tripActive = 0 ∧ unsent (clearChannel n s) = unsent s ∧
    (∀ m : Fin 32, commandOf (clearChannel n s) m =
      if m = n then (false, s.out.ch[n].ovr, s.out.ch[n].queue) else commandOf s m) ∧
    ((clearChannel n s).out.ch[n].latched = false ∧ (clearChannel n s).out.ch[n].trips = 0) ∧
    ∀ m : Fin 32, m ≠ n → (clearChannel n s).out.ch[m].latched = s.out.ch[m].latched ∧
      (s.out.ch[m].trips = 0 → (clearChannel n s).out.ch[m].trips = 0) := by
  unfold clearChannel
  extract_lets u
  let v := setCh n (fun c => { c with latched := false, trips := 0, clean := 0, tripped := false, retryFrom := none }) s
  have hu : Drift v u := .setGate n false v
  have hv0 : v.out.tripActive = 0 := h0
  have hend : Drift v (if driverCmd u n then driverStart n u else u) := by
    split
    · exact hu.trans (.driverStart n u)
    · exact hu
  have horders : orders (if driverCmd u n then driverStart n u else u) = orders u := by
    split
    · exact orders_driverStart n u
    · rfl
  obtain ⟨hbarr, hinputs, hlatch⟩ := hend
  have hself : v.out.ch[n].latched = false ∧ v.out.ch[n].trips = 0 := ⟨by simp [v], by simp [v]⟩
  have hother (m : Fin 32) (hm : m ≠ n) : v.out.ch[m] = s.out.ch[m] := by
    rw [Fin.getElem_fin, setCh_get, if_neg hm]
    rfl
  refine ⟨hinputs.trans hv0, hbarr, fun m => ?_, ?_, fun m hm => ?_⟩
  · have hcmd (k : Fin 32) : commandOf v k = commandOf s k := commandOf_keep s k fun _ => ⟨rfl, rfl, rfl⟩
    have hovr := congrArg (·.2.1) (hcmd n)
    have hqueue := congrArg (·.2.2) (hcmd n)
    refine (commandOf_orders horders m).trans ((setGate_off n m v).trans ?_)
    rw [hcmd]
    split
    · exact Prod.ext rfl (Prod.ext hovr hqueue)
    · rfl
  · obtain ⟨h1, h2⟩ := hlatch hv0 n
    exact ⟨h1.trans hself.1, h2 hself.2⟩
  · have := hlatch hv0 m
    rwa [hother m hm] at this

theorem clearChannels_latch (l : List (Fin 32)) (h0 : s.out.tripActive = 0) :
    let t := l.foldl (fun s n => clearChannel n s) s
    unsent t = unsent s ∧ ∀ m : Fin 32,
      (m ∈ l → t.out.ch[m].latched = false ∧ t.out.ch[m].trips = 0 ∧ t.out.ch[m].gate = false) ∧
      (m ∉ l → t.out.ch[m].latched = s.out.ch[m].latched ∧ t.out.ch[m].gate = s.out.ch[m].gate) ∧
      (s.out.ch[m].latched = false ∧ s.out.ch[m].trips = 0 ∧ s.out.ch[m].gate = false →
        t.out.ch[m].latched = false ∧ t.out.ch[m].trips = 0 ∧ t.out.ch[m].gate = false) := by
  induction l generalizing s with
  | nil => exact ⟨rfl, fun m => ⟨fun h => absurd h (by simp), fun _ => ⟨rfl, rfl⟩, id⟩⟩
  | cons n l ih =>
    obtain ⟨hidle, hbarr, hcmd, hself, hother⟩ := clearChannel_latch n h0
    obtain ⟨hbarr', hrest⟩ := ih hidle
    refine ⟨hbarr'.trans hbarr, fun m => ?_⟩
    obtain ⟨hin, hout, hkeep⟩ := hrest m
    have hgate := congrArg (·.1) (hcmd m)
    have hcleared (hm : m = n) : (clearChannel n s).out.ch[m].latched = false ∧
        (clearChannel n s).out.ch[m].trips = 0 ∧ (clearChannel n s).out.ch[m].gate = false := by
      subst hm
      exact ⟨hself.1, hself.2, hgate.trans (by rw [if_pos rfl])⟩
    refine ⟨fun hm => ?_, fun hm => ?_, fun ⟨hl, ht, hg⟩ => ?_⟩
    · by_cases hml : m ∈ l
      · exact hin hml
      · exact hkeep (hcleared ((List.mem_cons.mp hm).resolve_right hml))
    · rw [List.mem_cons, not_or] at hm
      obtain ⟨hlatch, hg⟩ := hout hm.2
      rw [if_neg hm.1] at hgate
      exact ⟨hlatch.trans (hother m hm.1).1, hg.trans hgate⟩
    · by_cases hm : m = n
      · exact hkeep (hcleared hm)
      · rw [if_neg hm] at hgate
        obtain ⟨hlatch, htrips⟩ := hother m hm
        exact hkeep ⟨hlatch.trans hl, htrips ht, hgate.trans hg⟩

/-! ## OCH_FLUSH (R167, R443) -/

/-- The overrides and the gates of some channels go. -/
def silenced (l : List (Fin 32)) (s : State) : State :=
  l.foldl (fun s n => setGate n false (setOverride n .none s)) s

theorem commandOf_silenceOne (n m : Fin 32) (s : State) : commandOf (setGate n false (setOverride n .none s)) m =
    if m = n then (false, .none, s.out.ch[n].queue) else commandOf s m := by
  have hset := commandOf_setOverride n n .none s
  rw [if_pos rfl] at hset
  have hovr := congrArg (·.2.1) hset
  have hqueue := congrArg (·.2.2) hset
  refine (setGate_off n m _).trans ?_
  split
  · exact Prod.ext rfl (Prod.ext hovr hqueue)
  · next hm => rw [commandOf_setOverride, if_neg hm]

theorem commandOf_silenced (l : List (Fin 32)) (m : Fin 32) (s : State) : commandOf (silenced l s) m =
    if m ∈ l then (false, .none, s.out.ch[m].queue) else commandOf s m := by
  induction l generalizing s with
  | nil => rfl
  | cons n l ih =>
    have hone := commandOf_silenceOne n m s
    refine (ih _).trans ?_
    by_cases hm : m = n
    · subst hm
      rw [if_pos rfl] at hone
      have hqueue := congrArg (·.2.2) hone
      rw [if_pos List.mem_cons_self, hone]
      split
      · exact Prod.ext rfl (Prod.ext rfl hqueue)
      · rfl
    · rw [if_neg hm] at hone
      have hqueue := congrArg (·.2.2) hone
      by_cases hl : m ∈ l
      · rw [if_pos hl, if_pos (List.mem_cons_of_mem n hl)]
        exact Prod.ext rfl (Prod.ext rfl hqueue)
      · rw [if_neg hl, if_neg (by simp [hm, hl]), hone]

theorem silenced_drift (l : List (Fin 32)) (s : State) : Drift s (silenced l s) :=
  .foldl (fun s n => (Drift.setOverride n .none s).trans (.setGate n false _)) l s

theorem flushChannels_eq (mask : Word) (s : State) : flushChannels mask s =
    silenced (maskList mask) (dropEdges mask s) := rfl

theorem dropEdges_barr (mask : Word) (s : State) :
    (dropEdges mask s).barr.heldEdges = s.barr.heldEdges.filter (fun e => !bit mask e.ch.val) ∧
    SameClock s (dropEdges mask s) := by
  have hcut (es : List Edge) (u : State) : (cutEdges es u).barr = u.barr := by simp
  unfold SameClock dropEdges
  simp only [hcut, and_self]

theorem commandOf_dropEdges (mask : Word) (m : Fin 32) (s : State) : commandOf (dropEdges mask s) m =
    (s.out.ch[m].gate, s.out.ch[m].ovr, if bit mask m.val then [] else s.out.ch[m].queue) := by
  unfold commandOf
  rw [dropEdges_ch]
  split <;> rfl

theorem flushChannels_ends (mask : Word) (s : State) :
    (∀ n : Fin 32, bit mask n.val = true → (flushChannels mask s).out.ch[n].queue = [] ∧
      (flushChannels mask s).out.ch[n].ovr = .none ∧ (flushChannels mask s).out.ch[n].gate = false) ∧
    (∀ n : Fin 32, bit mask n.val = false → (flushChannels mask s).out.ch[n].queue = s.out.ch[n].queue ∧
      (flushChannels mask s).out.ch[n].ovr = s.out.ch[n].ovr ∧
      (flushChannels mask s).out.ch[n].gate = s.out.ch[n].gate) ∧
    (flushChannels mask s).barr.heldEdges = s.barr.heldEdges.filter (fun e => !bit mask e.ch.val) ∧
    SameClock s (flushChannels mask s) := by
  rw [flushChannels_eq]
  obtain ⟨hheld, hclock⟩ := dropEdges_barr mask s
  obtain ⟨hheld', hclock'⟩ := unsent_fields (silenced_drift (maskList mask) (dropEdges mask s)).barr
  refine ⟨fun n hn => ?_, fun n hn => ?_, hheld'.trans hheld, hclock'.trans hclock⟩
  all_goals
    have hcmd := commandOf_silenced (maskList mask) n (dropEdges mask s)
    have hdrop := commandOf_dropEdges mask n s
  · rw [if_pos (mem_maskList.mpr hn)] at hcmd
    rw [if_pos hn] at hdrop
    exact ⟨(congrArg (·.2.2) hcmd).trans (congrArg (·.2.2) hdrop), congrArg (·.2.1) hcmd, congrArg (·.1) hcmd⟩
  · have hnot : n ∉ maskList mask := fun h => by
      rw [mem_maskList, hn] at h
      exact absurd h (by simp)
    rw [if_neg hnot, hdrop, hn] at hcmd
    exact ⟨congrArg (·.2.2) hcmd, congrArg (·.2.1) hcmd, congrArg (·.1) hcmd⟩

end Sys2Proof.Proofs

/-! The output commands: across the barrier, at the field side, and OCH_EDGES (R165 to R167, R208, R210, R443, R448,
R485). -/

namespace Sys2Proof.Proofs

open Sys2Proof.Machine Sys2Proof.Safety Sys2Proof.Laws

variable {s t u : State}

/-! ## Across the barrier (R84, R154) -/

theorem outputCommandsCross (q : Request) (s : State) :
    (Accepted 0x20 q s → (reqBody q).length = 5 → (byteAt (reqBody q) 4).toNat ≤ 2 → Crosses (.ochSet q) 0x20 q s) ∧
    (Accepted 0x21 q s → ochTimingCheck q s = none → Crosses (.ochTiming q) 0x21 q s) ∧
    (Accepted 0x23 q s → (reqBody q).length = 4 → Crosses (.ochClear q) 0x23 q s) ∧
    (Accepted 0x24 q s → (reqBody q).length = 0 → Crosses (.ochStatus q) 0x24 q s) ∧
    (Accepted 0x25 q s → (reqBody q).length = 4 → Crosses (.ochFlush q) 0x25 q s) := by
  refine ⟨fun h hlen hact => crosses_of opOchSet h rfl ?_, fun h hc => crosses_of opOchTiming h rfl ?_,
    fun h hlen => crosses_of opOchClear h rfl (lenIs_of hlen),
    fun h hlen => crosses_of opOchStatus h rfl (lenIs_of hlen),
    fun h hlen => crosses_of opOchFlush h rfl (lenIs_of hlen)⟩
  · change (lenIs 5 q <|> param (decide ((byteAt (reqBody q) 4).toNat ≤ 2))) = none
    rw [lenIs_of hlen, decide_eq_true hact]
    rfl
  · exact (taken_keep (ochTimingCheck q) q s).trans hc

/-! ## At the field side (R12, R82) -/

theorem fieldPart_ochSet (b : List Byte) (s : State) : fieldPart ⟨0x20, b⟩ s = ochSetField b s := rfl

theorem ochSetArrives {c : CfgWriteCell} {b : List Byte} (h14 : domOn s 14 = true) (h15 : domOn s 15 = true)
    (h : PartArrives ⟨0x20, b⟩ c s) (hsweep : sweepHolds (wordAt b 0) s = false) :
    (s.modes.clay = true → Completes (.cfgWrite c) s fun t =>
      t.out = s.out ∧ t.clk = (partState s).clk ∧ Acks c 0x11 0x24 [] t ∧ Only [.clk, .barr] s t) ∧
    (s.modes.clay = false → byteAt b 4 = 0 ∨ byteAt b 4 = 2 → Completes (.cfgWrite c) s fun t =>
      (∀ n : Fin 32, t.out.ch[n].gate = s.out.ch[n].gate ∧ t.out.ch[n].ovr =
        (if bit (wordAt b 0) n.val then (if byteAt b 4 = 0 then .off else .none) else s.out.ch[n].ovr)) ∧
      (byteAt b 4 = 0 → ∃ d, Acks c (if contradicted (wordAt b 0) s then 0x41 else 0) 0 d t) ∧
      t.clk = (partState s).clk ∧ Only [.clk, .barr, .out, .ev] s t) ∧
    (s.modes.clay = false → byteAt b 4 = 1 → Completes (.cfgWrite c) s fun t =>
      (∀ n : Fin 32, t.out.ch[n].gate = s.out.ch[n].gate ∧
        (bit (wordAt b 0) n.val = false → t.out.ch[n].ovr = s.out.ch[n].ovr) ∧
        (t.out.ch[n].ovr = .on ∨ t.out.ch[n].ovr = s.out.ch[n].ovr)) ∧ Only [.clk, .barr, .out, .ev] s t) := by
  have honly := only_partState s
  have hout : (partState s).out = s.out := honly .out (by simp)
  have hmodes : (partState s).modes = s.modes := honly .modes (by simp)
  have hpwr : (partState s).pwr = s.pwr := honly .pwr (by simp)
  have h14' : domOn (partState s) 14 = true := by simpa only [domOn, hpwr] using h14
  have h15' : domOn (partState s) 15 = true := by simpa only [domOn, hpwr] using h15
  have hsweep' : sweepHolds (wordAt b 0) (partState s) = false := by simpa only [sweepHolds, hout] using hsweep
  have hcontra : contradicted (wordAt b 0) (partState s) = contradicted (wordAt b 0) s := by
    simp only [contradicted, hout]
  have hset (action : Nat) : Only [.barr, .out, .ev] (partState s) (setOutputs (wordAt b 0) action (partState s)).2 :=
    fun p hp => by cases p <;> simp_all [same]
  refine ⟨fun hclay => ?_, fun hclay hact => ?_, fun hclay hact => ?_⟩
  · have hpart := ochSetField_clay b (s := partState s) (by rw [hmodes]; exact hclay)
    obtain ⟨t, hstep, -, hto, htc, -, hack, hon, -⟩ := part_acts (ps := []) h
      ((fieldPart_ochSet b _).trans hpart) rfl (fun p _ => by cases p <;> rfl)
    exact ⟨t, hstep, hto.trans hout, htc, hack, hon⟩
  all_goals
    obtain ⟨hstate, hans⟩ := ochSetField_acts b (s := partState s) (by rw [hmodes]; exact hclay) hsweep' h14' h15'
    have hpart : fieldPart ⟨0x20, b⟩ (partState s) = ((setOutputs (wordAt b 0) (byteAt b 4).toNat (partState s)).2,
        (ochSetField b (partState s)).2) := Prod.ext hstate rfl
    obtain ⟨t, hstep, -, hto, htc, -, hack, hon, -⟩ :=
      part_acts h hpart (sameClock_setOutputs ..) (hset (byteAt b 4).toNat)
  · have hclk : t.clk = (partState s).clk := htc.trans (hset _ .clk (by simp))
    have hcmd (n : Fin 32) : commandOf t n = if bit (wordAt b 0) n.val then
        (s.out.ch[n].gate, if byteAt b 4 = 0 then .off else .none, s.out.ch[n].queue) else commandOf s n := by
      have hst : commandOf t n = commandOf (setOutputs (wordAt b 0) (byteAt b 4).toNat (partState s)).2 n := by
        simp only [commandOf, hto]
      have hsame : commandOf (partState s) n = commandOf s n := by simp only [commandOf, hout]
      rw [hst]
      rcases hact with h0 | h2
      · have hz : (byteAt b 4).toNat = 0 := by rw [h0]; rfl
        rw [hz, (setOutputs_off _ _).1, commandOf_overrides, hout, hsame, if_pos h0]
        simp only [mem_maskList]
      · have hz : (byteAt b 4).toNat = 2 := by rw [h2]; rfl
        have hne : ¬ byteAt b 4 = 0 := by rw [h2]; decide
        rw [hz, setOutputs_run, commandOf_overrides, hout, hsame, if_neg hne]
        simp only [mem_maskList]
    refine ⟨t, hstep, fun n => ⟨(congrArg (·.1) (hcmd n)).trans ?_, (congrArg (·.2.1) (hcmd n)).trans ?_⟩,
      fun h0 => ?_, hclk, only_mono hon (by simp)⟩
    · split <;> rfl
    · split <;> rfl
    · obtain ⟨d, hd⟩ := hans h0
      rw [hd, hcontra] at hack
      exact ⟨d, hack⟩
  · have hone : (byteAt b 4).toNat = 1 := by rw [hact]; rfl
    rw [hone] at hto
    have hturned := setOutputs_on (wordAt b 0) (partState s)
    refine ⟨t, hstep, fun n => ?_, only_mono hon (by simp)⟩
    rw [hto, ← hout]
    exact ⟨hturned.gate n, hturned.apart n, hturned.ovr n⟩

theorem ochTimingArrives {c : CfgWriteCell} {b : List Byte} (h14 : domOn s 14 = true)
    (h : PartArrives ⟨0x21, b⟩ c s) (hcanon : Canonical s) : Completes (.cfgWrite c) s fun t =>
      (∀ n : Fin 32,
        och t n.val 0x04 = (if bit (wordAt b 0) n.val then wordAt b 4 else och s n.val 0x04) ∧
        och t n.val 0x08 = (if bit (wordAt b 0) n.val then wordAt b 8 else och s n.val 0x08) ∧
        och t n.val 0x0C = (if bit (wordAt b 0) n.val then wordAt b 13 else och s n.val 0x0C)) ∧
      Acks c 0 0 [] t ∧ Only [.regs, .clk, .barr] s t := by
  have honly := only_partState s
  have hpwr : (partState s).pwr = s.pwr := honly .pwr (by simp)
  have hid : (partState s).id = s.id := honly .id (by simp)
  have hregs : (partState s).regs = s.regs := honly .regs (by simp)
  have h14' : domOn (partState s) 14 = true := by simpa only [domOn, hpwr] using h14
  have hcanon' : CanonRegs (partState s) := by
    unfold CanonRegs
    rw [hid, hregs]
    exact hcanon.1
  have hreg : reg (partState s) = reg s := reg_of_only honly (by simp) (by simp)
  have htimed := only_timed b (maskList (wordAt b 0)) (partState s)
  have hpart : fieldPart ⟨0x21, b⟩ (partState s) = _ := ochTimingField_acts b h14'
  obtain ⟨t, hstep, -, -, -, -, hack, hon, hbarr⟩ :=
    part_acts h hpart (sameClock_of_barr (htimed .barr (by simp))) htimed
  have hregt : reg t = reg ((maskList (wordAt b 0)).foldl (timed b) (partState s)) :=
    reg_of_only hbarr (by simp) (by simp)
  have htiming (n : Fin 32) : timingOf t n =
      if bit (wordAt b 0) n.val then (wordAt b 4, wordAt b 8, wordAt b 13) else timingOf s n := by
    have hfold := timingOf_foldl b (maskList (wordAt b 0)) n hcanon'
    simp only [mem_maskList] at hfold
    simp only [timingOf, och, hregt, hreg] at hfold ⊢
    exact hfold
  refine ⟨t, hstep, fun n => ⟨(congrArg (·.1) (htiming n)).trans ?_, (congrArg (·.2.1) (htiming n)).trans ?_,
    (congrArg (·.2.2) (htiming n)).trans ?_⟩, hack, only_mono hon (by simp)⟩ <;> split <;> rfl

theorem ochClearArrives {c : CfgWriteCell} {b : List Byte} (h14 : domOn s 14 = true) (h15 : domOn s 15 = true)
    (h : PartArrives ⟨0x23, b⟩ c s) (hidle : s.out.tripActive = 0) : Completes (.cfgWrite c) s fun t =>
      (∀ n : Fin 32, bit (wordAt b 0) n.val = true →
        t.out.ch[n].latched = false ∧ t.out.ch[n].trips = 0 ∧ t.out.ch[n].gate = false) ∧
      (∀ n : Fin 32, bit (wordAt b 0) n.val = false → t.out.ch[n].latched = s.out.ch[n].latched ∧
        t.out.ch[n].gate = s.out.ch[n].gate) ∧
      Acks c 0 0 (be 4 (maskOf (fun n => bit (wordAt b 0) n && s.out.ch[Fin.ofNat 32 n].latched) 32).toNat) t := by
  have honly := only_partState s
  have hout : (partState s).out = s.out := honly .out (by simp)
  have hpwr : (partState s).pwr = s.pwr := honly .pwr (by simp)
  have h14' : domOn (partState s) 14 = true := by simpa only [domOn, hpwr] using h14
  have h15' : domOn (partState s) 15 = true := by simpa only [domOn, hpwr] using h15
  have hneed : needDoms [14, 15] (partState s) = none := if_pos (by simp [h14', h15'])
  have hpart : fieldPart ⟨0x23, b⟩ (partState s) =
      ((maskList (wordAt b 0)).foldl (fun s n => clearChannel n s) (partState s),
        { data := be 4 (maskOf (fun n => bit (wordAt b 0) n && s.out.ch[Fin.ofNat 32 n].latched) 32).toNat }) := by
    change ochClearField b (partState s) = _
    unfold ochClearField
    dsimp only
    rw [hneed, ← hout]
    rfl
  obtain ⟨hbarr, hends⟩ := clearChannels_latch (maskList (wordAt b 0)) (hout ▸ hidle : (partState s).out.tripActive = 0)
  have hall : Only [.modes, .clk, .barr, .pkt, .out, .sense, .ev, .regs] (partState s)
      ((maskList (wordAt b 0)).foldl (fun s n => clearChannel n s) (partState s)) := fun p hp => by
    clear hends hbarr hpart
    have hfold {α : Type} (f : State → α) (hf : ∀ n s, f (clearChannel n s) = f s) :=
      foldl_keep f (fun s n => clearChannel n s) (fun s n => hf n s) (maskList (wordAt b 0)) (partState s)
    cases p <;> simp_all [same]
  obtain ⟨t, hstep, -, hto, -, -, hack, -⟩ := part_acts h hpart (unsent_fields hbarr).2 hall
  refine ⟨t, hstep, fun n hn => ?_, fun n hn => ?_, hack⟩
  · rw [hto]
    exact (hends n).1 (mem_maskList.mpr hn)
  · rw [hto, ← hout]
    refine (hends n).2.1 fun hmem => ?_
    rw [mem_maskList, hn] at hmem
    exact absurd hmem (by simp)

theorem statusBytes_congr (hout : t.out = s.out) (hid : t.id = s.id) (hregs : t.regs = s.regs)
    (hsense : t.sense = s.sense) : statusBytes t = statusBytes s := by
  funext n
  simp only [statusBytes, ochState, fanHeld, gateCmd, leader, ochPair, reg, hout, hid, hregs, hsense]
  rfl

theorem ochStatusArrives {c : CfgWriteCell} {b : List Byte} (h15 : domOn s 15 = true)
    (h : PartArrives ⟨0x24, b⟩ c s) : Completes (.cfgWrite c) s fun t => t.out = s.out ∧
      Acks c 0 0 ((List.finRange 32).flatMap fun n =>
        [BitVec.ofNat 8 (ochState s n + 8 * grantCode s.out.ch[n].grant), s.out.ch[n].trips] ++
          be 2 s.out.ch[n].mean.toNat) t ∧ Only [.clk, .barr] s t := by
  have honly := only_partState s
  have hout : (partState s).out = s.out := honly .out (by simp)
  have hpwr : (partState s).pwr = s.pwr := honly .pwr (by simp)
  have h15' : domOn (partState s) 15 = true := by simpa only [domOn, hpwr] using h15
  have hneed : needDoms [15] (partState s) = none := if_pos (by simp [h15'])
  have hbytes := statusBytes_congr hout (honly .id (by simp)) (honly .regs (by simp)) (honly .sense (by simp))
  have hpart : fieldPart ⟨0x24, b⟩ (partState s) =
      (partState s, { data := (List.finRange 32).flatMap (statusBytes s) }) := by
    rw [← hbytes]
    have hread : fieldPart ⟨0x24, b⟩ (partState s) = orElse (needDoms [15] (partState s)) (partState s)
        fun s => (s, { data := (List.finRange 32).flatMap (statusBytes s) }) := rfl
    rw [hread, hneed]
    rfl
  obtain ⟨t, hstep, -, hto, -, -, hack, hon, -⟩ := part_acts (ps := []) h hpart rfl (fun p _ => by cases p <;> rfl)
  exact ⟨t, hstep, hto.trans hout, hack, hon⟩

theorem heldEdges_partState (s : State) : (partState s).barr.heldEdges = s.barr.heldEdges := by
  have hseq (k : BitVec 16) (u : State) : (seqDown k u).barr.heldEdges = u.barr.heldEdges := by
    unfold seqDown
    split <;> rfl
  have hpass : (passDown s).barr.heldEdges = s.barr.heldEdges := by
    unfold passDown
    split <;> rfl
  exact (hseq _ _).trans hpass

theorem ochFlushArrives {c : CfgWriteCell} {b : List Byte} (h14 : domOn s 14 = true)
    (h : PartArrives ⟨0x25, b⟩ c s) : Completes (.cfgWrite c) s fun t =>
      (∀ n : Fin 32, bit (wordAt b 0) n.val = true →
        t.out.ch[n].queue = [] ∧ t.out.ch[n].ovr = .none ∧ t.out.ch[n].gate = false) ∧
      (∀ n : Fin 32, bit (wordAt b 0) n.val = false → t.out.ch[n].queue = s.out.ch[n].queue ∧
        t.out.ch[n].ovr = s.out.ch[n].ovr ∧ t.out.ch[n].gate = s.out.ch[n].gate) ∧
      t.barr.heldEdges = s.barr.heldEdges.filter (fun e => !bit (wordAt b 0) e.ch.val) ∧
      Acks c (if contradicted (wordAt b 0) s then 0x41 else 0) 0 [] t := by
  have honly := only_partState s
  have hout : (partState s).out = s.out := honly .out (by simp)
  have hpwr : (partState s).pwr = s.pwr := honly .pwr (by simp)
  have h14' : domOn (partState s) 14 = true := by simpa only [domOn, hpwr] using h14
  have hneed : needDoms [14] (partState s) = none := if_pos (by simp [h14'])
  have hcontra : contradicted (wordAt b 0) (partState s) = contradicted (wordAt b 0) s := by
    simp only [contradicted, hout]
  have hheld := heldEdges_partState s
  have hpart : fieldPart ⟨0x25, b⟩ (partState s) = (flushChannels (wordAt b 0) (partState s),
      { status := if contradicted (wordAt b 0) s then 0x41 else 0 }) := by
    change ochFlushField b (partState s) = _
    unfold ochFlushField
    dsimp only
    rw [hneed, ← hcontra]
    rfl
  obtain ⟨hin, hnot, hkept, hclock⟩ := flushChannels_ends (wordAt b 0) (partState s)
  have hall : Only [.barr, .out, .sense, .fw, .ev, .sect] (partState s) (flushChannels (wordAt b 0) (partState s)) :=
    fun p hp => by
      clear hin hnot hkept hclock hpart
      cases p <;> simp_all [same]
  obtain ⟨t, hstep, -, hto, -, hth, hack, -⟩ := part_acts h hpart hclock hall
  refine ⟨t, hstep, fun n hn => ?_, fun n hn => ?_, hth.trans (hkept.trans (by rw [hheld])), hack⟩
  · rw [hto]
    exact hin n hn
  · rw [hto, ← hout]
    exact hnot n hn

/-! ## OCH_EDGES (R166, R208, R210) -/

/-- What OCH_EDGES is refused for, in its order. -/
theorem ochEdgesAct_near {q : Request}
    (h : ((edgeEntries q).filterMap id).any (fun e => frameDiff e.frame (now s) < 400) = true) :
    ochEdgesAct q s = (s, some { status := 0x30 }) := by
  unfold ochEdgesAct
  dsimp only
  rw [h]
  rfl

theorem ochEdgesAct_clay {q : Request}
    (h : ((edgeEntries q).filterMap id).any (fun e => frameDiff e.frame (now s) < 400) = false)
    (hup : linkUp s = true) (hclay : s.modes.clay = true) :
    ochEdgesAct q s = (s, some { status := 0x11, detail := 0x24 }) := by
  unfold ochEdgesAct
  dsimp only
  rw [h, hup, hclay]
  rfl

theorem ochEdgesAct_section {q : Request}
    (h : ((edgeEntries q).filterMap id).any (fun e => frameDiff e.frame (now s) < 400) = false)
    (hclay : s.modes.clay = false)
    (hgeom : ((edgeEntries q).filterMap id).any (fun e => s.sect.ch[e.ch].geom.isSome) = true) :
    ochEdgesAct q s = (s, some { status := 0x11, detail := 0x33 }) := by
  unfold ochEdgesAct
  dsimp only
  rw [h, hclay, Bool.and_false, hgeom]
  rfl

/-- One edge handed over in a batch of its own. -/
def handedOne (e : Edge) (s : State) : State :=
  sendBatch [e] { s with barr := { s.barr with heldEdges := s.barr.heldEdges ++ [] } }

theorem handEdges_one {e : Edge} (hroom : s.out.ch[e.ch].queue.length +
      ((crossingEdges s).filter (fun x => x.ch == e.ch)).length < 32) :
    handEdges [e] s = handedOne e s := by
  unfold handEdges
  simp only [List.foldl_cons, List.foldl_nil, List.filter_nil, List.length_nil, Nat.add_zero, hroom, ↓reduceIte]
  rfl

theorem sendBatch_barr (es : List Edge) (s : State) :
    (sendBatch es s).barr.batches = s.barr.batches ++ [{ tag := s.barr.nextTag, edges := es, sends := 1 }] ∧
    (sendBatch es s).barr.nextTag = nextTagOf s.barr.nextTag ∧
    (sendBatch es s).barr.heldEdges = s.barr.heldEdges ∧ Only [.barr] s (sendBatch es s) := by
  unfold sendBatch sendCell
  dsimp only
  split <;> exact ⟨rfl, rfl, rfl, only_barr _ s⟩

theorem handedOne_barr (e : Edge) (s : State) :
    (handedOne e s).barr.batches = s.barr.batches ++ [{ tag := s.barr.nextTag, edges := [e], sends := 1 }] ∧
    (handedOne e s).barr.nextTag = nextTagOf s.barr.nextTag ∧
    (handedOne e s).barr.heldEdges = s.barr.heldEdges ∧ Only [.barr] s (handedOne e s) := by
  obtain ⟨hbatch, htag, hheld, honly⟩ :=
    sendBatch_barr [e] { s with barr := { s.barr with heldEdges := s.barr.heldEdges ++ [] } }
  exact ⟨hbatch, htag, hheld.trans (List.append_nil _), only_trans (only_barr _ s) honly⟩

theorem ochEdgesAct_one {q : Request} {e : Edge} (hes : (edgeEntries q).filterMap id = [e])
    (h : [e].any (fun e => decide (frameDiff e.frame (now s) < 400)) = false)
    (hup : linkUp s = true) (hclay : s.modes.clay = false) (hgeom : s.sect.ch[e.ch].geom = none)
    (hsweep : ∀ m : Word, sweepHolds m s = false) (h14 : domOn s 14 = true)
    (hroomy : crowded (e :: waitingEdges s) = false)
    (hroom : s.out.ch[e.ch].queue.length + ((crossingEdges s).filter (fun x => x.ch == e.ch)).length < 32) :
    ochEdgesAct q s = (handedOne e s, some { data := [1] }) := by
  have hneed : needField [14] s = none := by
    unfold needField
    rw [hup]
    exact (if_neg (by decide)).trans (if_pos (by simp [h14]))
  unfold ochEdgesAct
  dsimp only
  rw [hes, h, hup, hclay, hsweep, hneed]
  have hcrowd : crowded ([e] ++ waitingEdges s) = false := hroomy
  rw [hcrowd]
  simp only [List.any_cons, List.any_nil, hgeom, Option.isSome_none, Bool.or_self, Bool.and_false, Bool.false_eq_true,
    ↓reduceIte]
  change (handEdges [e] s, _) = _
  rw [handEdges_one hroom]
  rfl

theorem ochEdgesCompletes {q : Request} (h : Accepted 0x22 q s) (hc : ochEdgesCheck q s = none) :
    let es := (edgeEntries q).filterMap id
    (es.any (fun e => frameDiff e.frame (now s) < 400) = true → Answers (.ochEdges q) q s id { status := 0x30 }) ∧
    (es.any (fun e => frameDiff e.frame (now s) < 400) = false → linkUp s = true →
      (s.modes.clay = true → Answers (.ochEdges q) q s id { status := 0x11, detail := 0x24 }) ∧
      (s.modes.clay = false → es.any (fun e => s.sect.ch[e.ch].geom.isSome) = true →
        Answers (.ochEdges q) q s id { status := 0x11, detail := 0x33 }) ∧
      (∀ e : Edge, es = [e] → s.modes.clay = false → s.sect.ch[e.ch].geom = none →
        (∀ m : Word, sweepHolds m s = false) → domOn s 14 = true → crowded (e :: waitingEdges s) = false →
        s.out.ch[e.ch].queue.length + ((crossingEdges s).filter (fun x => x.ch == e.ch)).length < 32 →
        Completes (.ochEdges q) s fun t =>
          t.barr.batches = s.barr.batches ++ [{ tag := s.barr.nextTag, edges := [e], sends := 1 }] ∧
          t.barr.nextTag = nextTagOf s.barr.nextTag ∧ t.barr.heldEdges = s.barr.heldEdges ∧
          Answered q { data := [1] } t ∧ Served [.barr] s t)) := by
  have hc' : opOchEdges.check q (taken q s) = none := (taken_keep (ochEdgesCheck q) q s).trans hc
  have hnow : now (taken q s) = now s := taken_keep now q s
  have hup' : linkUp (taken q s) = linkUp s := taken_keep linkUp q s
  have hmodes : (taken q s).modes = s.modes := by simp
  have hsect : (taken q s).sect = s.sect := by simp
  have hout : (taken q s).out = s.out := by simp
  have hbarr : (taken q s).barr = s.barr := by simp
  refine ⟨fun hnear => ?_, fun hfar hup => ⟨fun hclay => ?_, fun hclay hgeom => ?_,
    fun e hes hclay hgeom hsweep h14 hroomy hroom => ?_⟩⟩
  · exact answers_of opOchEdges h (f := id) (hc := hc') (hact := ochEdgesAct_near (by rw [hnow]; exact hnear))
  · exact answers_of opOchEdges h (f := id) (hc := hc') (hact := ochEdgesAct_clay (by rw [hnow]; exact hfar)
      (hup'.trans hup) (by rw [hmodes]; exact hclay))
  · exact answers_of opOchEdges h (f := id) (hc := hc') (hact := ochEdgesAct_section (by rw [hnow]; exact hfar)
      (by rw [hmodes]; exact hclay) (by simp only [hsect]; exact hgeom))
  · have hact := ochEdgesAct_one (s := taken q s) hes (by rw [hnow, ← hes]; exact hfar) (hup'.trans hup)
      (by rw [hmodes]; exact hclay) (by rw [hsect]; exact hgeom)
      (fun m => (taken_keep (sweepHolds m) q s).trans (hsweep m)) ((taken_keep (domOn · 14) q s).trans h14)
      ((taken_keep (fun s => crowded (e :: waitingEdges s)) q s).trans hroomy)
      (by rw [hout, taken_keep crossingEdges q s]; exact hroom)
    obtain ⟨hbatch, htag, hheld, honly⟩ := handedOne_barr e (taken q s)
    rw [hbarr] at hbatch htag hheld
    generalize handedOne e (taken q s) = u at *
    exact completes_of opOchEdges h hc' hact ⟨by rw [← hbatch]; simp, by rw [← htag]; simp, by rw [← hheld]; simp,
      ⟨_, rfl⟩, served_answer q _ honly⟩

/-- Settles O39: each command crosses, or is refused while the barrier is down, and its field part acts on the channels
of its mask; OCH_EDGES hands its edge over or refuses it. -/
theorem outputCommandsAndEdgesReachTheirChannels : Obligations.OutputCommandsAndEdgesReachTheirChannels := by
  unfold Obligations.OutputCommandsAndEdgesReachTheirChannels
  refine ⟨outputCommandsCross, fun s c b h14 h15 => ⟨ochSetArrives h14 h15, ochTimingArrives h14,
    ochClearArrives h14 h15, ochStatusArrives h15, ochFlushArrives h14⟩, fun q s h hc => ochEdgesCompletes h hc⟩

end Sys2Proof.Proofs

/-! Sense inputs: edges, the update of the values, switch classes, open wires and SIN_READ (R231 to R237, R249). -/

namespace Sys2Proof.Proofs

open Sys2Proof.Machine Sys2Proof.Safety Sys2Proof.Laws

variable {n m : Fin 16} {s t u : State}

theorem setIn_setIn (n : Fin 16) (f g : SinIn → SinIn) (s : State) :
    setIn n g (setIn n f s) = setIn n (fun i => g (f i)) s := by
  have hupd : upd (upd s.sense.inp n f) n g = upd s.sense.inp n fun i => g (f i) := by
    refine Vector.ext fun k hk => ?_
    have hsame (h : SinIn → SinIn) (v : Vector SinIn 16) := upd_get v n ⟨k, hk⟩ h
    simp only at hsame
    rw [hsame, hsame, hsame]
    have hn := upd_get s.sense.inp n n f
    rw [if_pos rfl] at hn
    split
    · rw [hn]
    · rfl
  simp only [setIn, hupd]

theorem only_setIn (n : Fin 16) (f : SinIn → SinIn) (s : State) : Only [.sense] s (setIn n f s) := fun p hp => by
  cases p <;> simp_all [same]

theorem sensing_of (hdom : domOn s 17 = true) (hclk : s.barr.fieldClock = true) : sensing s = true := by
  rw [sensing, hdom, hclk]
  rfl

/-! ## Edges (R232 to R234) -/

/-- An input whose edge has passed. -/
def edged (rising : Bool) (stamp : BitVec 64) (i : SinIn) : SinIn :=
  if rising then { i with
    level := true, wireOpen := false, suspect := false, cnt := i.cnt + 1
    edges := stamp :: (i.edges.take 1 ++ (i.edges.drop 1).filter (fun x => stamp.toNat - x.toNat ≤ ticks100ms))
    lastInterval := i.edges.head?.map fun e => stamp.toNat - e.toNat }
  else { i with level := false, wireOpen := false, suspect := false }

theorem edged_fields (rising : Bool) (stamp : BitVec 64) (i : SinIn) :
    (edged rising stamp i).level = rising ∧ (edged rising stamp i).wireOpen = false ∧
    (edged rising stamp i).cnt = (if rising then i.cnt + 1 else i.cnt) ∧
    (rising = true → (edged rising stamp i).edges.head? = some stamp ∧
      (edged rising stamp i).lastInterval = (i.edges.head?.map fun e => stamp.toNat - e.toNat)) ∧
    (edged rising stamp i).pos = i.pos ∧ (edged rising stamp i).qerr = i.qerr := by
  cases rising
  · exact ⟨rfl, rfl, rfl, fun h => absurd h (by simp), rfl, rfl⟩
  · exact ⟨rfl, rfl, rfl, fun _ => ⟨rfl, rfl⟩, rfl, rfl⟩

theorem rolesOf_setIn (k : Fin 16) (f : SinIn → SinIn) (s : State) (n : Fin 16) :
    rolesOf (setIn k f s) n = rolesOf s n := by
  simp [rolesOf, fanEnabled, fanTach, fanCfg, reg]

/-- An edge of an input that serves no fan role. -/
theorem sinEdge_eq {rising both : Bool} {stamp : BitVec 64} (hsense : sensing s = true)
    (hty : sinType s n = 1 ∨ sinType s n = 2) (hroles : rolesOf s n = []) :
    sinEdge n rising both stamp s = if sinType s n = 2 then quadEdge n both (setIn n (edged rising stamp) s)
      else setIn n (edged rising stamp) s := by
  have hgo : ¬ (!sensing s || !(decide (sinType s n = 1) || decide (sinType s n = 2))) = true := by
    rw [hsense]
    rcases hty with h | h <;> rw [h] <;> decide
  unfold sinEdge
  dsimp only
  rw [if_neg hgo]
  cases rising with
  | false =>
    simp only [rolesOf_setIn, hroles, List.foldl_nil]
    rfl
  | true =>
    have hseen (o : Option Nat) (ho : o = s.sense.inp[n].edges.head?.map fun e => stamp.toNat - e.toNat) :
        setIn n (fun i => { i with
          cnt := i.cnt + 1
          edges := stamp :: (s.sense.inp[n].edges.take 1 ++
            (s.sense.inp[n].edges.drop 1).filter (fun x => stamp.toNat - x.toNat ≤ ticks100ms))
          lastInterval := o })
          (setIn n (fun i => { i with level := true, wireOpen := false, suspect := false }) s) =
        setIn n (edged true stamp) s := by
      subst ho
      rw [setIn_setIn]
      unfold setIn upd
      rfl
    simp only [rolesOf_setIn, hroles, List.foldl_nil, ↓reduceIte]
    cases hedges : s.sense.inp[n].edges with
    | nil =>
      rw [hedges] at hseen
      rw [← hseen none rfl]
    | cons e rest =>
      rw [hedges] at hseen
      rw [← hseen (some (stamp.toNat - e.toNat)) rfl]

theorem freqEdgeCompletes {rising : Bool} {stamp : BitVec 64} (hsense : sensing s = true) (hty : sinType s n = 1)
    (hroles : rolesOf s n = []) : Completes (.sinEdge n rising false stamp) s fun t =>
      t.sense.inp[n].level = rising ∧ t.sense.inp[n].wireOpen = false ∧
      t.sense.inp[n].cnt = (if rising then s.sense.inp[n].cnt + 1 else s.sense.inp[n].cnt) ∧
      (rising = true → t.sense.inp[n].edges.head? = some stamp ∧
        t.sense.inp[n].lastInterval = (s.sense.inp[n].edges.head?.map fun e => stamp.toNat - e.toNat)) ∧
      (∀ m : Fin 16, m ≠ n → t.sense.inp[m] = s.sense.inp[m]) ∧ Only [.sense] s t := by
  have hstep := sinEdge_eq (rising := rising) (both := false) (stamp := stamp) hsense (.inl hty) hroles
  rw [if_neg (by rw [hty]; decide)] at hstep
  obtain ⟨hlevel, hopen, hcnt, hrise, -, -⟩ := edged_fields rising stamp s.sense.inp[n]
  have hn : (setIn n (edged rising stamp) s).sense.inp[n] = edged rising stamp s.sense.inp[n] := by simp
  refine ⟨_, congrArg Host.Outcome.next hstep, ?_, ?_, ?_, ?_, fun m hm => ?_, only_setIn n _ s⟩
  · rw [hn, hlevel]
  · rw [hn, hopen]
  · rw [hn, hcnt]
  · rw [hn]
    exact hrise
  · rw [Fin.getElem_fin, setIn_get, if_neg hm]
    rfl

/-! ## Quadrature (R234) -/

theorem pairMate_ne (n : Fin 16) : pairMate n ≠ n := by
  revert n
  decide

/-- The inputs of a pair: the even one leads, and is the mate of the other. -/
theorem pair_lead (n : Fin 16) : n = Fin.ofNat 16 (n.val / 2 * 2) ∨ n = pairMate (Fin.ofNat 16 (n.val / 2 * 2)) ∧
    pairMate n = Fin.ofNat 16 (n.val / 2 * 2) := by
  revert n
  decide

theorem pairMate_pairMate (n : Fin 16) : pairMate (pairMate n) = n := by
  revert n
  decide

theorem pairWait_setIn (k : Fin 16) (f : SinIn → SinIn) (s : State) (n : Fin 16) :
    pairWait (setIn k f s) n = pairWait s n := by
  have hreg : reg (setIn k f s) = reg s := reg_of_only (only_setIn k f s) (by simp) (by simp)
  unfold pairWait sinType
  rw [hreg]

theorem quadEdge_single {a : Fin 16} (ha : a = Fin.ofNat 16 (n.val / 2 * 2)) (hwait : pairWait s n = false) :
    quadEdge n false s = setIn a (fun i => { i with pos :=
      if (if n = a then s.sense.inp[a].level != s.sense.inp[pairMate a].level
        else s.sense.inp[a].level == s.sense.inp[pairMate a].level) then i.pos + 1 else i.pos - 1 }) s := by
  subst ha
  have hgo : ¬ pairWait s n = true := by rw [hwait]; decide
  unfold quadEdge
  rw [if_neg hgo]
  rfl

/-- The mate of an input whose edge passed in the same cycle. -/
def crossed (i : SinIn) : SinIn :=
  { i with level := !i.level, cnt := if i.level then i.cnt else i.cnt + 1, wireOpen := false, suspect := false }

theorem quadEdge_both {a : Fin 16} (ha : a = Fin.ofNat 16 (n.val / 2 * 2)) (hwait : pairWait s n = false) :
    quadEdge n true s = setIn (pairMate a) (fun i => { i with qerr := satInc i.qerr })
      (setIn a (fun i => { i with qerr := satInc i.qerr }) (setIn (pairMate n) crossed s)) := by
  subst ha
  have hgo : ¬ pairWait s n = true := by rw [hwait]; decide
  unfold quadEdge
  rw [if_neg hgo]
  rfl

theorem inp_setIn (k m : Fin 16) (f : SinIn → SinIn) (s : State) :
    (setIn k f s).sense.inp[m] = if m = k then f s.sense.inp[k] else s.sense.inp[m] := setIn_get k m f s

theorem quadEdgeCompletes {a : Fin 16} {rising : Bool} {stamp : BitVec 64} (ha : a = Fin.ofNat 16 (n.val / 2 * 2))
    (hsense : sensing s = true) (hty : sinType s n = 2) (hroles : rolesOf s n = []) (hwait : pairWait s n = false) :
    let up := if n = a then rising != s.sense.inp[pairMate a].level else s.sense.inp[a].level == rising
    Completes (.sinEdge n rising false stamp) s fun t =>
      t.sense.inp[a].pos = (if up then s.sense.inp[a].pos + 1 else s.sense.inp[a].pos - 1) ∧
      t.sense.inp[n].level = rising ∧ Only [.sense] s t := by
  have hstep := sinEdge_eq (rising := rising) (both := false) (stamp := stamp) hsense (.inr hty) hroles
  rw [if_pos hty, quadEdge_single ha ((pairWait_setIn ..).trans hwait)] at hstep
  obtain ⟨hlevel, -, -, -, hpos, -⟩ := edged_fields rising stamp s.sense.inp[n]
  have hpair := pair_lead n
  rw [← ha] at hpair
  intro up
  have hself : (setIn n (edged rising stamp) s).sense.inp[n] = edged rising stamp s.sense.inp[n] := by
    rw [inp_setIn, if_pos rfl]
  have hother (m : Fin 16) (hm : m ≠ n) : (setIn n (edged rising stamp) s).sense.inp[m] = s.sense.inp[m] := by
    rw [inp_setIn, if_neg hm]
  have hkeep : (setIn n (edged rising stamp) s).sense.inp[a].pos = s.sense.inp[a].pos := by
    by_cases han : a = n
    · subst han
      rw [hself, hpos]
    · rw [hother a han]
  have hup : (if n = a then (setIn n (edged rising stamp) s).sense.inp[a].level !=
        (setIn n (edged rising stamp) s).sense.inp[pairMate a].level
      else (setIn n (edged rising stamp) s).sense.inp[a].level ==
        (setIn n (edged rising stamp) s).sense.inp[pairMate a].level) = up := by
    unfold up
    by_cases han : n = a
    · subst han
      rw [if_pos rfl, if_pos rfl, hother (pairMate n) (pairMate_ne n), hself, hlevel]
    · obtain ⟨hn, -⟩ := hpair.resolve_left han
      rw [if_neg han, if_neg han, hother a (fun h => han h.symm)]
      simp only [← hn, hself, hlevel]
  refine ⟨_, congrArg Host.Outcome.next hstep, ?_, ?_, only_trans (only_setIn n _ s) (only_setIn _ _ _)⟩
  · rw [inp_setIn, if_pos rfl]
    dsimp only
    rw [← hup, ← hkeep]
  · rw [inp_setIn]
    split
    · next h =>
      dsimp only
      rw [← h, hself, hlevel]
    · rw [hself, hlevel]

theorem quadCrossCompletes {a : Fin 16} {rising : Bool} {stamp : BitVec 64} (ha : a = Fin.ofNat 16 (n.val / 2 * 2))
    (hsense : sensing s = true) (hty : sinType s n = 2) (hroles : rolesOf s n = []) (hwait : pairWait s n = false) :
    Completes (.sinEdge n rising true stamp) s fun t =>
      t.sense.inp[a].qerr = satInc s.sense.inp[a].qerr ∧
      t.sense.inp[pairMate a].qerr = satInc s.sense.inp[pairMate a].qerr ∧
      t.sense.inp[a].pos = s.sense.inp[a].pos ∧ t.sense.inp[n].level = rising ∧
      t.sense.inp[pairMate n].level = !s.sense.inp[pairMate n].level ∧ Only [.sense] s t := by
  have hstep := sinEdge_eq (rising := rising) (both := true) (stamp := stamp) hsense (.inr hty) hroles
  rw [if_pos hty, quadEdge_both ha ((pairWait_setIn ..).trans hwait)] at hstep
  let u := setIn (pairMate n) crossed (setIn n (edged rising stamp) s)
  let bump (i : SinIn) : SinIn := { i with qerr := satInc i.qerr }
  have hu (m : Fin 16) : u.sense.inp[m].qerr = s.sense.inp[m].qerr ∧ u.sense.inp[m].pos = s.sense.inp[m].pos := by
    have hedge : (setIn n (edged rising stamp) s).sense.inp[m].qerr = s.sense.inp[m].qerr ∧
        (setIn n (edged rising stamp) s).sense.inp[m].pos = s.sense.inp[m].pos := by
      rw [inp_setIn]
      split
      · next h =>
        obtain ⟨-, -, -, -, hpos, hqerr⟩ := edged_fields rising stamp s.sense.inp[n]
        subst h
        exact ⟨hqerr, hpos⟩
      · exact ⟨rfl, rfl⟩
    rw [inp_setIn]
    split
    · next h => subst h; exact hedge
    · exact hedge
  have hn : u.sense.inp[n].level = rising := by
    rw [inp_setIn, if_neg (fun h => pairMate_ne n h.symm), inp_setIn, if_pos rfl]
    exact (edged_fields rising stamp s.sense.inp[n]).1
  have hmate : u.sense.inp[pairMate n].level = !s.sense.inp[pairMate n].level := by
    rw [inp_setIn, if_pos rfl, inp_setIn, if_neg (pairMate_ne n)]
    rfl
  have hbump (k m : Fin 16) (v : State) : (setIn k bump v).sense.inp[m].level = v.sense.inp[m].level ∧
      (setIn k bump v).sense.inp[m].pos = v.sense.inp[m].pos ∧ (setIn k bump v).sense.inp[m].qerr =
        if m = k then satInc v.sense.inp[k].qerr else v.sense.inp[m].qerr := by
    rw [inp_setIn]
    split
    · next h => subst h; exact ⟨rfl, rfl, rfl⟩
    · exact ⟨rfl, rfl, rfl⟩
  refine ⟨setIn (pairMate a) bump (setIn a bump u), congrArg Host.Outcome.next hstep, ?_, ?_, ?_, ?_, ?_,
    only_trans (only_trans (only_trans (only_setIn n _ s) (only_setIn _ _ _)) (only_setIn a bump u))
      (only_setIn _ bump _)⟩
  · rw [(hbump _ _ _).2.2, if_neg (fun h => pairMate_ne a h.symm), (hbump _ _ _).2.2, if_pos rfl, (hu a).1]
  · rw [(hbump _ _ _).2.2, if_pos rfl, (hbump _ _ _).2.2, if_neg (pairMate_ne a), (hu _).1]
  · rw [(hbump _ _ _).2.1, (hbump _ _ _).2.1, (hu a).2]
  · rw [(hbump _ _ _).1, (hbump _ _ _).1, hn]
  · rw [(hbump _ _ _).1, (hbump _ _ _).1, hmate]

/-! ## The update of the values (R231, R233, R235) -/

theorem sinUpdate_eq (means : List Nat) (hsense : sensing s = true) :
    (sinUpdate means s).clk = (toEdge 3 800000 s).clk ∧ ∀ n : Fin 16,
      (sinUpdate means s).sense.inp[n] = updateIn (toEdge 3 800000 s) means n (toEdge 3 800000 s).sense.inp[n] := by
  have hp : 1000 * ticksPerFrame = 800000 := rfl
  have honly := only_toEdge 3 800000 s
  have hpwr : (toEdge 3 800000 s).pwr = s.pwr := honly .pwr (by simp)
  obtain ⟨hclk, -⟩ := toEdge_barr 3 800000 s
  have hsense' : sensing (toEdge 3 800000 s) = true := by
    unfold sensing domOn at *
    rw [hpwr, hclk]
    exact hsense
  unfold sinUpdate
  rw [hp]
  generalize toEdge 3 800000 s = u at *
  have hgo : ¬ (!sensing u) = true := by rw [hsense']; decide
  dsimp only
  rw [if_neg hgo]
  exact ⟨rfl, fun n => vmapIdx_get _ _ n⟩

theorem sinUpdateCompletes (means : List Nat) (hsense : sensing s = true) :
    Completes (.sinUpdate means) s fun t =>
      t.clk = (toEdge 3 800000 s).clk ∧ Only [.clk, .barr, .sense] s t ∧
      ∀ n : Fin 16,
        let mean := means.getD n.val 0
        (sinType s n = 1 → t.sense.inp[n] =
          (let f := freqAt t.clk.tb.toNat s.sense.inp[n]
           { s.sense.inp[n] with
             val := satTo 32 f, valid := true, overF := decide (20000000 < f), underF := false })) ∧
        (sinType s n = 3 → t.sense.inp[n] = { s.sense.inp[n] with
          val := BitVec.ofNat 32 (min mean 25600), valid := true, underF := decide (min mean 25600 < 3600)
          overF := decide (21000 < min mean 25600), wireOpen := decide (min mean 25600 < 3600) }) ∧
        (sinType s n = 4 → t.sense.inp[n] = { s.sense.inp[n] with
          val := BitVec.ofNat 32 (min mean 6144), valid := true, underF := false
          overF := decide (5250 < min mean 6144) }) ∧
        (sinType s n = 5 → t.sense.inp[n] = { s.sense.inp[n] with
          val := BitVec.ofNat 32 (min mean 12288), valid := true, underF := false
          overF := decide (10500 < min mean 12288) }) := by
  obtain ⟨hclk, hinp⟩ := sinUpdate_eq means hsense
  have honly : Only [.clk, .barr, .sense] s (sinUpdate means s) := fun p hp => by
    clear hclk hinp
    cases p <;> simp_all [same]
  have htype (n : Fin 16) : sinType (toEdge 3 800000 s) n = sinType s n := by
    unfold sinType
    rw [reg_of_only (only_toEdge 3 800000 s) (by simp) (by simp)]
  have hsame : (toEdge 3 800000 s).sense = s.sense := only_toEdge 3 800000 s .sense (by simp)
  refine ⟨sinUpdate means s, rfl, hclk, honly, fun n => ?_⟩
  have hn := hinp n
  rw [hclk]
  simp only [hsame] at hn
  unfold updateIn at hn
  rw [htype] at hn
  generalize toEdge 3 800000 s = u at *
  refine ⟨fun hty => ?_, fun hty => ?_, fun hty => ?_, fun hty => ?_⟩ <;> rw [hty] at hn <;> exact hn

/-! ## Switch classes and open wires (R236, R237) -/

/-- A switch input that has taken a class of resistance. -/
def classed (ohms : Nat) (i : SinIn) : SinIn :=
  if ohms < 100 then { i with shortF := true, wireOpen := false }
  else if ohms < 2000 then { i with val := 1, shortF := false, wireOpen := false, valid := true }
  else if ohms ≤ 20000 then { i with val := 0, shortF := false, wireOpen := false, valid := true }
  else { i with shortF := false, wireOpen := true }

theorem switchClassAcceptCompletes {ohms : Nat} (hsense : sensing s = true) (hty : sinType s n = 6) :
    Completes (.switchClassAccept n ohms) s fun t =>
      t.sense.inp[n] = (if ohms < 100 then { s.sense.inp[n] with shortF := true, wireOpen := false }
        else if ohms < 2000 then { s.sense.inp[n] with val := 1, shortF := false, wireOpen := false, valid := true }
        else if ohms ≤ 20000 then { s.sense.inp[n] with val := 0, shortF := false, wireOpen := false, valid := true }
        else { s.sense.inp[n] with shortF := false, wireOpen := true }) ∧
      (∀ m : Fin 16, m ≠ n → t.sense.inp[m] = s.sense.inp[m]) ∧ Only [.sense] s t := by
  have hstep : switchAccept n ohms s = setIn n (classed ohms) s := if_neg (by rw [hty, hsense]; decide)
  refine ⟨_, congrArg Host.Outcome.next hstep, ?_, fun m hm => ?_, only_setIn n _ s⟩
  · rw [inp_setIn, if_pos rfl]
    rfl
  · rw [inp_setIn, if_neg hm]

theorem wireOpenCompletes (hsense : sensing s = true) (hbias : bit (reg s (0x120000 + 0x10 * n.val)) 3 = true)
    (hty : sinType s n = 1 ∨ sinType s n = 2) (hroles : rolesOf s n = []) : Completes (.wireOpenDetect n) s fun t =>
      t.sense.inp[n] = { s.sense.inp[n] with wireOpen := true } ∧
      (∀ m : Fin 16, m ≠ n → t.sense.inp[m] = s.sense.inp[m]) ∧ Only [.sense] s t := by
  have hstep : wireOpen n s = setIn n (fun i => { i with wireOpen := true }) s := by
    have hgo : ¬ (!(bit (reg s (0x120000 + 0x10 * n.val)) 3 &&
        (decide (sinType s n = 1) || decide (sinType s n = 2)) && sensing s)) = true := by
      rw [hbias, hsense]
      rcases hty with h | h <;> rw [h] <;> decide
    unfold wireOpen
    dsimp only
    rw [if_neg hgo, rolesOf_setIn, hroles]
    rfl
  refine ⟨_, congrArg Host.Outcome.next hstep, ?_, fun m hm => ?_, only_setIn n _ s⟩
  · rw [inp_setIn, if_pos rfl]
  · rw [inp_setIn, if_neg hm]

/-! ## SIN_READ (R249) -/

theorem sinReadArrives {c : CfgWriteCell} {b : List Byte} (hdom : domOn s 17 = true)
    (h : PartArrives ⟨0x38, b⟩ c s) : Completes (.cfgWrite c) s fun t =>
      Acks c 0 0 ((List.finRange 16).flatMap fun n =>
        be 4 s.sense.inp[n].val.toNat ++ [BitVec.ofNat 8 (sinStatus (partState s) n)]) t ∧
      t.clk = (partState s).clk ∧ Only [.clk, .barr] s t := by
  have honly := only_partState s
  have hpwr : (partState s).pwr = s.pwr := honly .pwr (by simp)
  have hsense : (partState s).sense = s.sense := honly .sense (by simp)
  have hdom' : domOn (partState s) 17 = true := by simpa only [domOn, hpwr] using hdom
  have hneed : needDoms [17] (partState s) = none := if_pos (by simp [hdom'])
  have hpart : fieldPart ⟨0x38, b⟩ (partState s) = (partState s,
      { data := (List.finRange 16).flatMap fun n =>
        be 4 s.sense.inp[n].val.toNat ++ [BitVec.ofNat 8 (sinStatus (partState s) n)] }) := by
    have hread : fieldPart ⟨0x38, b⟩ (partState s) = sinReadField (partState s) := rfl
    rw [hread, ← hsense]
    unfold sinReadField
    rw [hneed]
    rfl
  obtain ⟨t, hstep, -, -, hclk, -, hack, hon, -⟩ := part_acts (ps := []) h hpart rfl (fun p _ => by cases p <;> rfl)
  exact ⟨t, hstep, hack, hclk, hon⟩

/-- Settles O40: each signal makes of its input what its type says; SIN_READ crosses and reports. -/
theorem senseInputsFollowTheirSignals : Obligations.SenseInputsFollowTheirSignals := by
  unfold Obligations.SenseInputsFollowTheirSignals
  intro s hdom hclk
  have hsense := sensing_of hdom hclk
  exact ⟨fun n rising stamp => freqEdgeCompletes hsense, fun n rising stamp => quadEdgeCompletes rfl hsense,
    fun n rising stamp => quadCrossCompletes rfl hsense, fun means => sinUpdateCompletes means hsense,
    fun n ohms => switchClassAcceptCompletes hsense, fun n => wireOpenCompletes hsense,
    fun q h hlen => crosses_of opSinRead h rfl (lenIs_of hlen), fun c b => sinReadArrives hdom⟩

end Sys2Proof.Proofs

/-! Fans: the entry to STALLED, a break of the tach wire and FAN_RESTART (R240 to R247). -/

namespace Sys2Proof.Proofs

open Sys2Proof.Machine Sys2Proof.Safety Sys2Proof.Laws

variable {j : Fin 2} {s t u : State}

theorem fan_setFan (j : Fin 2) (f : Fan → Fan) (s : State) : (setFan j f s).sense.fan[j] = f s.sense.fan[j] := by
  rw [Fin.getElem_fin, setFan_get, if_pos rfl]
  rfl

/-! ## Room in the field queue while drivers resume (R219, R432) -/

/-- A trip raises one event at most: that of its latch. -/
theorem length_trip (d : Fin 32) (src : TripSrc) (hroom : s.ev.field.length < 64) :
    (trip d src s).ev.field.length ≤ s.ev.field.length + 1 := by
  unfold trip
  extract_lets x was at' retry u
  have hu : u.ev = s.ev := rfl
  split
  · rw [← hu] at hroom ⊢
    exact length_note_field _ _ _ _ hroom
  · rw [hu]
    exact Nat.le_succ _

theorem length_driverStart (d : Fin 32) (hroom : s.ev.field.length < 64) :
    (driverStart d s).ev.field.length ≤ s.ev.field.length + 1 := by
  unfold driverStart
  split
  · exact Nat.le_succ _
  · dsimp only
    split
    · exact length_trip d _ hroom
    · exact Nat.le_succ _

theorem length_foldl {α : Type} {f : State → α → State}
    (hf : ∀ s a, s.ev.field.length < 64 → (f s a).ev.field.length ≤ s.ev.field.length + 1) (l : List α) (s : State)
    (hroom : s.ev.field.length + l.length ≤ 64) : (l.foldl f s).ev.field.length ≤ s.ev.field.length + l.length := by
  induction l generalizing s with
  | nil => exact Nat.le_refl _
  | cons a l ih =>
    rw [List.length_cons] at *
    have hone := hf s a (by omega)
    have hrest := ih (f s a) (by omega)
    exact hrest.trans (by omega)

theorem length_resumed (old : State) (hroom : s.ev.field.length ≤ 32) :
    (resumed old s).ev.field.length ≤ s.ev.field.length + 32 := by
  have hturns (u : State) (d : Fin 32) : (noteTurn old d u).ev = u.ev := by
    unfold noteTurn
    dsimp only
    split <;> rfl
  rw [resumed_eq, foldl_keep State.ev _ (fun u d => hturns u d)]
  refine (length_foldl (fun u d hu => ?_) _ s (by simp; omega)).trans (by simp)
  unfold resumeOne
  split
  · exact length_driverStart d hu
  · exact Nat.le_succ _

theorem length_closeHeld (old : State) (hroom : s.ev.field.length < 32) :
    (closeHeld old s).ev.field.length < 64 := by
  have hkeep : ((List.finRange 32).foldl (fun s d =>
      if fanHeld s d != fanHeld old d && s.out.ch[feeder s d].gen then
        setCh d (closePeriod (leakK s d.val)) s else s) s).ev = s.ev :=
    foldl_keep State.ev _ (fun u d => by split <;> rfl) _ s
  have hlen := length_resumed old (s := (List.finRange 32).foldl (fun s d =>
      if fanHeld s d != fanHeld old d && s.out.ch[feeder s d].gen then
        setCh d (closePeriod (leakK s d.val)) s else s) s) (by rw [hkeep]; omega)
  rw [hkeep] at hlen
  exact hlen.trans_lt (by omega)

/-! ## The entry to STALLED (R241, R243, R246) -/

theorem remoteSet_fan (j : Fin 2) (action : Byte) (s : State) :
    ∃ r, (remoteSet j action s).sense.fan[j] = { s.sense.fan[j] with remote := r } := by
  unfold remoteSet
  split
  · extract_lets mask p u v
    refine ⟨action == 0, ?_⟩
    have hv : v.sense.fan[j] = { s.sense.fan[j] with remote := action == 0 } := by
      rw [fan_setFan]
      simp [u, draw]
    rw [← hv]
    split
    · rfl
    · simp
  · exact ⟨_, rfl⟩

/-- A role that stalls. -/
def stalledAt (tb : BitVec 64) (deps : Word) (f : Fan) : Fan :=
  { f with
    state := .stalled, stalls := satInc f.stalls, entered := tb, window := none, good := 0
    driveHold := true, depHold := deps, freeze := true }

theorem stallFan_fan (j : Fin 2) (s : State) : ∃ r, (stallFan j s).sense.fan[j] =
    { stalledAt s.clk.tb (reg s (0x12040C + 0x20 * j.val)) s.sense.fan[j] with remote := r } := by
  unfold stallFan
  extract_lets left u v w
  obtain ⟨r, hr⟩ := remoteSet_fan j 0 w
  refine ⟨r, hr.trans ?_⟩
  have hw : w.sense.fan[j] = u.sense.fan[j] := by simp [w, v]
  rw [hw, fan_setFan]
  rfl

theorem stallFan_held (hremote : bit (fanCfg s j) 1 = false) (hroom : s.ev.field.length < 32) :
    Held .field 0x1201 (chanByte (fanDrive s j)) (stallFan j s) := by
  unfold stallFan
  extract_lets left u v w
  have hv : v.ev.field.length < 64 := by
    have hev : v.ev = (closeHeld s u).ev := (syncFreeze_frame _).2.2.2.2.2.2.2.2.2.2.2.2.2.2.2.2.2.2.1
    rw [hev]
    exact length_closeHeld s hroom
  have hcfg : fanCfg w j = fanCfg s j := by simp [w, v, u, fanCfg, reg]
  have hstay : remoteSet j 0 w = w := by
    unfold remoteSet
    rw [hcfg, hremote]
    rfl
  rw [hstay]
  exact held_note_field _ _ _ _ hv

theorem fanStallCompletes {k : Nat} (hen : fanEnabled s j = true) (hk : stallAt s j = some k) :
    Completes (.fanStall j) s fun t =>
      t.sense.fan[j].state = .stalled ∧ t.sense.fan[j].stalls = satInc s.sense.fan[j].stalls ∧
      t.sense.fan[j].driveHold = true ∧ t.sense.fan[j].depHold = reg s (0x12040C + 0x20 * j.val) ∧
      t.sense.fan[j].freeze = true ∧ t.clk = (advanceTo ((k + 799) / 800 * 800) s).clk ∧
      (bit (fanCfg s j) 1 = false → s.ev.field.length < 32 →
        Held .field 0x1201 (chanByte (fanDrive s j)) t) := by
  have hstep : fanStall j s = stallFan j (advanceTo ((k + 799) / 800 * 800) s) := by
    unfold fanStall
    rw [if_neg (by rw [hen]; decide), hk]
  have honly := only_advanceTo ((k + 799) / 800 * 800) s
  generalize advanceTo ((k + 799) / 800 * 800) s = u at *
  have hreg : reg u = reg s := reg_of_only honly (by simp) (by simp)
  have hsense : u.sense = s.sense := honly .sense (by simp)
  have hev : u.ev = s.ev := honly .ev (by simp)
  have hcfg : fanCfg u j = fanCfg s j := congrFun hreg _
  have hdrive : fanDrive u j = fanDrive s j := by unfold fanDrive; rw [hcfg]
  obtain ⟨r, hfan⟩ := stallFan_fan j u
  rw [hreg] at hfan
  refine ⟨_, congrArg Host.Outcome.next hstep, ?_, ?_, ?_, ?_, ?_, by simp, fun hremote hroom => ?_⟩
  iterate 5
    rw [hfan]
    simp [stalledAt, hsense]
  rw [← hdrive]
  exact stallFan_held (by rw [hcfg]; exact hremote) (by rw [hev]; exact hroom)

theorem openLimCompletes (hen : fanEnabled s j = true) (hopen : s.sense.fan[j].state = .tachOpen)
    (hlim : field (fanCfg s j) 31 24 ≠ 0) : Completes (.openLimExpiry j) s fun t =>
      t.sense.fan[j].state = .stalled ∧ t.sense.fan[j].stalls = satInc s.sense.fan[j].stalls ∧
      t.sense.fan[j].driveHold = true ∧ t.sense.fan[j].freeze = true ∧
      t.clk = (advanceTo (s.sense.fan[j].entered.toNat + field (fanCfg s j) 31 24 * 800000000) s).clk := by
  have hstep : openLim j s =
      stallFan j (advanceTo (s.sense.fan[j].entered.toNat + field (fanCfg s j) 31 24 * 800000000) s) := by
    unfold openLim
    dsimp only
    exact if_pos (by rw [hen, hopen]; simpa using hlim)
  have honly := only_advanceTo (s.sense.fan[j].entered.toNat + field (fanCfg s j) 31 24 * 800000000) s
  generalize advanceTo (s.sense.fan[j].entered.toNat + field (fanCfg s j) 31 24 * 800000000) s = u at *
  have hsense : u.sense = s.sense := honly .sense (by simp)
  obtain ⟨r, hfan⟩ := stallFan_fan j u
  refine ⟨_, congrArg Host.Outcome.next hstep, ?_, ?_, ?_, ?_, by simp⟩
  all_goals
    rw [hfan]
    simp [stalledAt, hsense]

/-! ## A break of the tach wire (R237, R244, R245) -/

/-- The input of a role whose wire stands open. -/
def wireless (n : Fin 16) (s : State) : State := setIn n (fun i => { i with wireOpen := true }) s

/-- A role that loses its tach wire while it runs fast. -/
def untached (tb : BitVec 64) (f : Fan) : Fan :=
  { f with state := .tachOpen, opens := satInc f.opens, entered := tb, window := none, good := 0, freeze := true }

/-- The input of a running role stands open: the role loses its tach where the tach cannot have slowed down, and is
suspect else. -/
theorem wireOpenRunning (j : Fin 2) (s : State) :
    let n := fanTach s j
    let f := mHz 1 (s.sense.inp[n].lastInterval.getD 0)
    let k := s.clk.tb.toNat - (s.sense.inp[n].edges.headD 0).toNat
    domOn s 17 = true → s.barr.fieldClock = true → bit (reg s (0x120000 + 0x10 * n.val)) 3 = true →
    sinType s n = 1 → rolesOf s n = [j] → s.sense.fan[j].state = .running →
    (field (fanThr s j) 15 0 * 100 + field (reg s (0x120408 + 0x20 * j.val)) 15 0 * 1000 * k / 800000000 ≤ f →
      ∃ data, wireOpen n s = note .field 0x1202 1 (chanByte (fanDrive s j)) data
        (syncFreeze (setFan j (untached s.clk.tb) (wireless n s)))) ∧
    (f < field (fanThr s j) 15 0 * 100 + field (reg s (0x120408 + 0x20 * j.val)) 15 0 * 1000 * k / 800000000 →
      wireOpen n s = setIn n (fun i => { i with suspect := true })
        (setFan j (fun f => { f with suspect := true }) (wireless n s))) := by
  intro n f k hdom hclk hbias hty hroles hrun
  have hgo : ¬ (!(bit (reg s (0x120000 + 0x10 * n.val)) 3 &&
      (decide (sinType s n = 1) || decide (sinType s n = 2)) && sensing s)) = true := by
    rw [hbias, sensing_of hdom hclk, hty]
    decide
  have hstep : wireOpen n s = tachBreak (wireless n s) j := by
    unfold wireOpen
    dsimp only
    rw [if_neg hgo, rolesOf_setIn, hroles]
    rfl
  have honly : Only [.sense] s (wireless n s) := only_setIn n _ s
  have hreg : reg (wireless n s) = reg s := reg_of_only honly (by simp) (by simp)
  have hcfg : fanCfg (wireless n s) j = fanCfg s j := congrFun hreg _
  have hthr : fanThr (wireless n s) j = fanThr s j := congrFun hreg _
  have htach : fanTach (wireless n s) j = n := by unfold fanTach; rw [hcfg]; rfl
  have hdrive : fanDrive (wireless n s) j = fanDrive s j := by unfold fanDrive; rw [hcfg]
  have hfan : (wireless n s).sense.fan = s.sense.fan := rfl
  have htb : (wireless n s).clk = s.clk := rfl
  have hinp : (wireless n s).sense.inp[n] = { s.sense.inp[n] with wireOpen := true } := by
    rw [wireless, inp_setIn, if_pos rfl]
  rw [hstep]
  unfold tachBreak
  simp only [hreg, hthr, htach, hdrive, hfan, htb, hinp, hrun, decide_true, Bool.true_or, Bool.not_true,
    Bool.false_eq_true, if_false, Bool.true_and]
  refine ⟨fun hfast => ?_, fun hslow => ?_⟩
  · rw [if_pos (decide_eq_true hfast)]
    exact ⟨_, rfl⟩
  · exact if_neg (by rw [decide_eq_true_iff]; exact Nat.not_le.mpr hslow)

theorem tachOpenCompletes (j : Fin 2) (s : State) :
    let n := fanTach s j
    let f := mHz 1 (s.sense.inp[n].lastInterval.getD 0)
    let k := s.clk.tb.toNat - (s.sense.inp[n].edges.headD 0).toNat
    domOn s 17 = true → s.barr.fieldClock = true → bit (reg s (0x120000 + 0x10 * n.val)) 3 = true →
    sinType s n = 1 → rolesOf s n = [j] → s.sense.fan[j].state = .running →
    (field (fanThr s j) 15 0 * 100 + field (reg s (0x120408 + 0x20 * j.val)) 15 0 * 1000 * k / 800000000 ≤ f →
      Completes (.wireOpenDetect n) s fun t =>
        t.sense.fan[j].state = .tachOpen ∧ t.sense.fan[j].opens = satInc s.sense.fan[j].opens ∧
        t.sense.fan[j].freeze = true ∧ t.sense.inp[n].wireOpen = true ∧
        (s.ev.field.length < 64 → Held .field 0x1202 (chanByte (fanDrive s j)) t)) ∧
    (f < field (fanThr s j) 15 0 * 100 + field (reg s (0x120408 + 0x20 * j.val)) 15 0 * 1000 * k / 800000000 →
      Completes (.wireOpenDetect n) s fun t =>
        t.sense.fan[j].state = .running ∧ t.sense.fan[j].suspect = true ∧ t.sense.inp[n].suspect = true) := by
  intro n f k hdom hclk hbias hty hroles hrun
  obtain ⟨hfast, hslow⟩ := wireOpenRunning j s hdom hclk hbias hty hroles hrun
  refine ⟨fun hf => ?_, fun hf => ?_⟩
  · obtain ⟨data, hstep⟩ := hfast hf
    have hsense : (wireOpen n s).sense = (setFan j (untached s.clk.tb) (wireless n s)).sense := by
      rw [hstep, (note_frame ..).2.2.2.2.2.2.2.2.2.1, (syncFreeze_frame _).2.2.2.2.2.2.2.2.2.2.1]
    have hfan : (wireOpen n s).sense.fan[j] = untached s.clk.tb s.sense.fan[j] := by
      rw [hsense, fan_setFan]
      rfl
    have hinp : (wireOpen n s).sense.inp[n].wireOpen = true := by
      rw [hsense]
      change (wireless n s).sense.inp[n].wireOpen = true
      rw [wireless, inp_setIn, if_pos rfl]
    refine ⟨_, rfl, ?_, ?_, ?_, hinp, fun hroom => ?_⟩
    · rw [hfan]; rfl
    · rw [hfan]; rfl
    · rw [hfan]; rfl
    · rw [hstep]
      exact held_note_field _ _ _ _ (by simpa [wireless] using hroom)
  · have hstep := hslow hf
    have hfan : (wireOpen n s).sense.fan[j] = { s.sense.fan[j] with suspect := true } := by
      rw [hstep]
      exact fan_setFan j _ (wireless n s)
    refine ⟨_, rfl, ?_, ?_, ?_⟩
    · rw [hfan]; exact hrun
    · rw [hfan]
    · rw [hstep, inp_setIn, if_pos rfl]

/-! ## FAN_RESTART (R247) -/

/-- A role that is started again, or put to rest where its drive is off. -/
def restarted (tb : BitVec 64) (on : Bool) (f : Fan) : Fan :=
  { f with
    state := if on then .starting else .idle, entered := tb, window := none, good := 0
    driveHold := false, freeze := false }

theorem restartFan_fan (h : s.sense.fan[j].state ≠ .idle) : (restartFan j s).sense.fan[j] =
    restarted s.clk.tb s.out.ch[fanDrive s j].gate s.sense.fan[j] := by
  unfold restartFan
  rw [if_neg h]
  dsimp only
  rw [(syncFreeze_frame _).2.2.2.2.2.2.2.2.2.2.1, (closeHeld_frame ..).2.2.2.2.2.2.2.2.1, fan_setFan]
  rfl

theorem lanes_restartFan (j : Fin 2) (s : State) : lanes (restartFan j s) = lanes s := by
  unfold restartFan
  split
  · rfl
  · have hfreeze (u : State) : lanes (syncFreeze u) = lanes u := lanes_of_barr (by simp)
    exact (hfreeze _).trans ((lanes_closeHeld _ _).trans (lanes_of_barr (by simp)))

theorem only_restartFan (j : Fin 2) (s : State) :
    Only [.barr, .out, .sense, .loop, .ev] s (restartFan j s) := fun p hp => by
  cases p <;> simp_all [same]

/-- The role whose DRIVE channel is named is found where no other enabled role shares it. -/
theorem findRole {x : Nat} (hen : fanEnabled s j = true) (hx : x = (fanDrive s j).val)
    (huniq : ∀ k : Fin 2, fanEnabled s k = true → (fanDrive s k).val = (fanDrive s j).val → k = j) :
    (List.finRange 2).find? (fun k => fanEnabled s k && (fanDrive s k).val == x) = some j := by
  subst hx
  have hsome : ((List.finRange 2).find? fun k => fanEnabled s k && (fanDrive s k).val == (fanDrive s j).val).isSome :=
    List.find?_isSome.mpr ⟨j, List.mem_finRange j, by simp [hen]⟩
  obtain ⟨k, hk⟩ := Option.isSome_iff_exists.mp hsome
  have hfound := List.find?_some hk
  simp only [Bool.and_eq_true, beq_iff_eq] at hfound
  rw [hk, huniq k hfound.1 hfound.2]

theorem fanRestartArrives {c : CfgWriteCell} {b : List Byte} (hen : fanEnabled s j = true)
    (h : PartArrives ⟨0x39, b⟩ c s) (hdom : domOn s 17 = true) (hb : (byteAt b 0).toNat = (fanDrive s j).val)
    (huniq : ∀ k : Fin 2, fanEnabled s k = true → (fanDrive s k).val = (fanDrive s j).val → k = j)
    (hidle : s.sense.fan[j].state ≠ .idle) : Completes (.cfgWrite c) s fun t =>
      t.sense.fan[j].state = (if s.out.ch[fanDrive s j].gate then .starting else .idle) ∧
      t.sense.fan[j].driveHold = false ∧ t.sense.fan[j].freeze = false ∧
      t.sense.fan[j].depHold = s.sense.fan[j].depHold ∧ t.sense.fan[j].entered = (partState s).clk.tb ∧
      t.clk = (partState s).clk ∧ Acks c 0 0 [] t ∧ Only [.clk, .barr, .out, .sense, .loop, .ev] s t := by
  have honly := only_partState s
  have hpwr : (partState s).pwr = s.pwr := honly .pwr (by simp)
  have hsense : (partState s).sense = s.sense := honly .sense (by simp)
  have hout : (partState s).out = s.out := honly .out (by simp)
  have hreg : reg (partState s) = reg s := reg_of_only honly (by simp) (by simp)
  have hcfg (k : Fin 2) : fanCfg (partState s) k = fanCfg s k := congrFun hreg _
  have hen' (k : Fin 2) : fanEnabled (partState s) k = fanEnabled s k := by unfold fanEnabled; rw [hcfg]
  have hdrive (k : Fin 2) : fanDrive (partState s) k = fanDrive s k := by unfold fanDrive; rw [hcfg]
  have hneed : needDoms [17] (partState s) = none := by
    have hdom' : domOn (partState s) 17 = true := by simpa only [domOn, hpwr] using hdom
    exact if_pos (by simp [hdom'])
  have hpart : fieldPart ⟨0x39, b⟩ (partState s) = (restartFan j (partState s), {}) := by
    have hread : fieldPart ⟨0x39, b⟩ (partState s) = fanRestartField b (partState s) := rfl
    rw [hread]
    unfold fanRestartField
    rw [hneed]
    have hfind := findRole (s := partState s) (x := (byteAt b 0).toNat) ((hen' j).trans hen) (by rw [hdrive]; exact hb)
      (by simpa only [hen', hdrive] using huniq)
    dsimp only [orElse]
    rw [hfind]
  have hfan := restartFan_fan (s := partState s) (j := j) (by rw [hsense]; exact hidle)
  have hpartOnly := only_restartFan j (partState s)
  obtain ⟨t, hstep, -, -, hclk, -, hack, hon, hkeep⟩ :=
    part_acts h hpart (sameClock_of_lanes (lanes_restartFan j _)) hpartOnly
  have hclk' : (restartFan j (partState s)).clk = (partState s).clk := hpartOnly .clk (by simp)
  have ht : t.sense.fan[j] = restarted (partState s).clk.tb s.out.ch[fanDrive s j].gate s.sense.fan[j] := by
    have hts : t.sense = (restartFan j (partState s)).sense := hkeep .sense (by simp)
    rw [hts, hfan]
    simp only [hsense, hout, hdrive]
  refine ⟨t, hstep, ?_, ?_, ?_, ?_, ?_, hclk.trans hclk', hack, only_mono hon (by simp)⟩
  all_goals
    rw [ht]
    rfl

/-- Settles O41: a role stalls or opens as its tach says, and FAN_RESTART starts it again. -/
theorem fansAreSupervised : Obligations.FansAreSupervised := by
  unfold Obligations.FansAreSupervised
  intro s j hen
  exact ⟨fun k => fanStallCompletes hen, openLimCompletes hen, tachOpenCompletes j s,
    fun q h hlen hch => crosses_of opFanRestart h rfl (by simp [opFanRestart, lenIs_of hlen, param, hch]),
    fun c b => fanRestartArrives hen⟩

end Sys2Proof.Proofs

/-! Loop commands on the way to the field side: coefficient cells, register writes and LOOP_READ (R265, R268, R269,
R273, R275, R277). -/

namespace Sys2Proof.Proofs

open Sys2Proof.Machine Sys2Proof.Safety Sys2Proof.Laws

variable {q : Request} {s t : State}

/-! ## Coefficient cells (R268, R269, R273) -/

/-- A string of at most n bytes is one piece. -/
theorem chunks_one {n f : Nat} {l : List Byte} (hne : l ≠ []) (hlen : l.length ≤ n) : chunks n (f + 1) l = [l] := by
  cases l with
  | nil => exact absurd rfl hne
  | cons b bs =>
    unfold chunks
    rw [List.take_of_length_le hlen, List.drop_eq_nil_of_le hlen]
    cases f <;> rfl

theorem sendCell_barr (c : Cell) (s : State) : (sendCell c s).barr.coefs = s.barr.coefs ∧
    (sendCell c s).barr.nextTag = s.barr.nextTag ∧ Only [.barr] s (sendCell c s) := by
  unfold sendCell
  split <;> exact ⟨rfl, rfl, only_barr _ s⟩

/-- One coefficient cell leaves with a fresh TAG. -/
theorem sendCoefs_one (q : Request) (c : CoefCell) (s : State) :
    (sendCoefs q [c] s).barr.coefs = s.barr.coefs ++
      [{ q := q, cells := [{ sends := 1, result := none, cell := { c with tag := s.barr.nextTag } }] }] ∧
    (sendCoefs q [c] s).barr.nextTag = nextTagOf s.barr.nextTag ∧ Only [.barr] s (sendCoefs q [c] s) := by
  let u : State := { s with barr := { s.barr with nextTag := nextTagOf s.barr.nextTag } }
  obtain ⟨hcoefs, htag, honly⟩ := sendCell_barr (.loopCoef { c with tag := s.barr.nextTag }) u
  refine ⟨?_, htag, only_trans (only_barr _ s) (only_trans honly (only_barr _ _))⟩
  exact congrArg (· ++ _) hcoefs

/-- A command that leaves as one coefficient cell. -/
theorem coefLeaves (o : Op) {c : Instr} {cell : CoefCell} (h : Accepted o.code q s)
    (hc : o.check q (taken q s) = none) (hact : o.act q (taken q s) = (sendCoefs q [cell] (taken q s), none))
    (hexec : exec c s = .next (serve o q s) := by rfl)
    (hl : o.life q (taken q s) = none := by rfl) (hafter : ∀ u, o.after q u = u := by exact fun _ => rfl) :
    Completes c s fun t =>
      t.barr.coefs = s.barr.coefs ++
        [{ q := q, cells := [{ sends := 1, result := none, cell := { cell with tag := s.barr.nextTag } }] }] ∧
      t.barr.nextTag = nextTagOf s.barr.nextTag ∧ Only [.barr, .pkt] s t := by
  have hbarr : (taken q s).barr = s.barr := by simp
  obtain ⟨hcoefs, htag, honly⟩ := sendCoefs_one q cell (taken q s)
  rw [hbarr] at hcoefs htag
  have htaken : Only [.pkt] s (taken q s) := fun p hp => by cases p <;> simp_all [same]
  exact ⟨_, exec_later o h hc hact hexec hl hafter, hcoefs, htag, only_trans (only_mono htaken (by simp))
    (only_mono honly (by simp))⟩

theorem barrierArena_room {n : Nat} (hheld : s.barr.rg6Held = []) (hroom : s.barr.rg6.length + n ≤ 128) :
    barrierArena q n s = none := by
  simp [barrierArena, hheld, hroom]

/-- A LOOP_COEF of at most four words as its cell, without the TAG. -/
def coefCell (q : Request) : CoefCell :=
  { tag := 0, slot := Fin.ofNat 16 (byteAt (reqBody q) 0).toNat, banked := byteAt (reqBody q) 1 == 1, swap := false
    first := byteAt (reqBody q) 2, words := (chunks 4 4 ((reqBody q).drop 4)).map fun w => BitVec.ofNat 32 (ofBe w) }

/-- A LOOP_SWAP as its cell, without the TAG. -/
def swapCell (q : Request) : CoefCell :=
  { tag := 0, slot := Fin.ofNat 16 (byteAt (reqBody q) 0).toNat, banked := false, swap := true, first := 0, words := []
    sample := wordAt (reqBody q) 1 }

theorem loopCoefCompletes (hup : linkUp s = true) (hheld : s.barr.rg6Held = []) (hroom : s.barr.rg6.length + 5 ≤ 128)
    (h : Accepted 0x40 q s) (hcheck : loopCoefCheck q s = none) (hn : (byteAt (reqBody q) 3).toNat ≤ 4) :
    Completes (.loopCoef q) s fun t =>
      t.barr.coefs = s.barr.coefs ++ [{ q := q, cells := [{ sends := 1, result := none, cell :=
        { tag := s.barr.nextTag, slot := Fin.ofNat 16 (byteAt (reqBody q) 0).toNat, banked := byteAt (reqBody q) 1 == 1
          swap := false, first := byteAt (reqBody q) 2
          words := (chunks 4 4 ((reqBody q).drop 4)).map fun w => BitVec.ofNat 32 (ofBe w) } }] }] ∧
      t.barr.nextTag = nextTagOf s.barr.nextTag ∧ Only [.barr, .pkt] s t := by
  have hup' : linkUp (taken q s) = true := (taken_keep linkUp q s).trans hup
  have hbarr : (taken q s).barr = s.barr := by simp
  have hlen : (reqBody q).length = 4 + 4 * (byteAt (reqBody q) 3).toNat ∧ 1 ≤ (byteAt (reqBody q) 3).toNat := by
    unfold loopCoefCheck param refuse at hcheck
    dsimp only at hcheck
    split at hcheck
    · next hshape =>
      split at hcheck
      · next hparam =>
        simp only [Bool.and_eq_true, decide_eq_true_eq] at hshape hparam
        exact ⟨hshape.2, hparam.1.2⟩
      · exact absurd hcheck (by simp)
    · exact absurd hcheck (by simp)
  have hpiece : chunks 16 5 ((reqBody q).drop 4) = [(reqBody q).drop 4] := by
    have hdrop : ((reqBody q).drop 4).length = 4 * (byteAt (reqBody q) 3).toNat := by
      rw [List.length_drop]
      omega
    exact chunks_one (List.ne_nil_of_length_pos (by omega)) (by omega)
  have hact : loopCoefAct q (taken q s) = (sendCoefs q [coefCell q] (taken q s), none) := by
    unfold loopCoefAct
    dsimp only
    rw [if_neg (by rw [hup']; decide), hpiece, barrierArena_room (by rw [hbarr]; exact hheld)
      (by rw [hbarr, List.length_singleton]; omega)]
    simp [coefCell]
  exact coefLeaves opLoopCoef (c := .loopCoef q) h ((taken_keep (loopCoefCheck q) q s).trans hcheck) hact

theorem loopSwapCompletes (hup : linkUp s = true) (hheld : s.barr.rg6Held = []) (hroom : s.barr.rg6.length + 5 ≤ 128)
    (h : Accepted 0x41 q s) (hlen : (reqBody q).length = 5) (hslot : (byteAt (reqBody q) 0).toNat ≤ 15) :
    Completes (.loopSwap q) s fun t =>
      t.barr.coefs = s.barr.coefs ++ [{ q := q, cells := [{ sends := 1, result := none, cell :=
        { tag := s.barr.nextTag, slot := Fin.ofNat 16 (byteAt (reqBody q) 0).toNat, banked := false, swap := true
          first := 0, words := [], sample := wordAt (reqBody q) 1 } }] }] ∧
      t.barr.nextTag = nextTagOf s.barr.nextTag ∧ Only [.barr, .pkt] s t := by
  have hup' : linkUp (taken q s) = true := (taken_keep linkUp q s).trans hup
  have hbarr : (taken q s).barr = s.barr := by simp
  have hact : loopSwapReq q (taken q s) = (sendCoefs q [swapCell q] (taken q s), none) := by
    unfold loopSwapReq
    dsimp only
    rw [if_neg (by rw [hup']; decide), barrierArena_room (by rw [hbarr]; exact hheld) (by rw [hbarr]; omega)]
    rfl
  exact coefLeaves opLoopSwap (c := .loopSwap q) h (by simp [opLoopSwap, lenIs_of hlen, param, hslot]) hact

/-! ## Register writes (R265, R275) -/

theorem loopCtrlCompletes (hup : linkUp s = true) (hheld : s.barr.rg6Held = []) (hroom : s.barr.rg6.length + 5 ≤ 128)
    (h : Accepted 0x42 q s) (hlen : (reqBody q).length = 3) (hcmd : (byteAt (reqBody q) 2).toNat ≤ 2) :
    (byteAt (reqBody q) 2 = 1 → s.modes.clay = true →
      Answers (.loopCtrl q) q s id { status := 0x11, detail := 0x24 }) ∧
    (byteAt (reqBody q) 2 ≠ 1 ∨ s.modes.clay = false →
      exec (.loopCtrl q) s = .next (startWrite (.request q) false 0 [ctrlPut q] (taken q s))) := by
  have hup' : linkUp (taken q s) = true := (taken_keep linkUp q s).trans hup
  have hbarr : (taken q s).barr = s.barr := by simp
  have hmodes : (taken q s).modes = s.modes := by simp
  have hc : opLoopCtrl.check q (taken q s) = none := by simp [opLoopCtrl, lenIs_of hlen, param, hcmd]
  refine ⟨fun hone hclay => ?_, fun hfree => ?_⟩
  · refine answers_of opLoopCtrl h (f := id) (hc := hc) (hact := ?_)
    exact if_pos (by rw [hone, hmodes, hclay]; decide)
  · refine exec_later opLoopCtrl h hc ?_
    change loopCtrlAct q (taken q s) = _
    have hgo : ¬ (byteAt (reqBody q) 2 == 1 && s.modes.clay) = true := by
      rw [Bool.and_eq_true, beq_iff_eq]
      rintro ⟨hb, hclay⟩
      exact hfree.elim (fun h => h hb) (fun h => by rw [h] at hclay; exact absurd hclay (by decide))
    unfold loopCtrlAct
    rw [hmodes, if_neg hgo, if_neg (by rw [hup']; decide),
      barrierArena_room (by rw [hbarr]; exact hheld) (by rw [hbarr]; omega)]

theorem loopTestCompletes (hup : linkUp s = true) (hheld : s.barr.rg6Held = []) (hroom : s.barr.rg6.length + 5 ≤ 128)
    (h : Accepted 0x43 q s) (hcheck : loopTestCheck q s = none) :
    (s.modes.clay = true → Answers (.loopTest q) q s id { status := 0x11, detail := 0x24 }) ∧
    (s.modes.clay = false → s.loop.slot[(Fin.ofNat 16 (byteAt (reqBody q) 0).toNat : Fin 16)].state = .running →
      (s.loop.test.running = true → Answers (.loopTest q) q s id { status := 0x40, detail := 0x26 }) ∧
      (s.loop.test.running = false →
        exec (.loopTest q) s = .next (startWrite (.request q) false 0 (testPuts q) (taken q s)))) := by
  have hup' : ¬ (!linkUp (taken q s)) = true := by rw [taken_keep linkUp q s, hup]; decide
  have hbarr : (taken q s).barr = s.barr := by simp
  have hmodes : (taken q s).modes = s.modes := by simp
  have hloop : (taken q s).loop = s.loop := by simp
  have hc : opLoopTest.check q (taken q s) = none := (taken_keep (loopTestCheck q) q s).trans hcheck
  have hact : opLoopTest.act q (taken q s) = loopTestAct q (taken q s) := rfl
  unfold loopTestAct at hact
  dsimp only at hact
  rw [if_neg hup', hmodes, hloop] at hact
  refine ⟨fun hclay => ?_, fun hclay hslot => ?_⟩
  · exact answers_of opLoopTest h (f := id) (hc := hc) (hact := hact.trans (if_pos hclay))
  · rw [if_neg (by rw [hclay]; decide), if_neg (by rw [hslot]; decide)] at hact
    refine ⟨fun hrun => ?_, fun hrun => ?_⟩
    · exact answers_of opLoopTest h (f := id) (hc := hc) (hact := hact.trans (if_pos hrun))
    · rw [if_neg (by rw [hrun]; decide), barrierArena_room (by rw [hbarr]; exact hheld) (by rw [hbarr]; omega)] at hact
      exact exec_later opLoopTest h hc hact

/-! ## LOOP_READ (R277) -/

theorem loopReadArrives {c : CfgWriteCell} {b : List Byte} (h : PartArrives ⟨0x44, b⟩ c s) (hdom : domOn s 16 = true)
    (hstat : byteAt b 1 = 0) : Completes (.cfgWrite c) s fun t =>
      Acks c 0 0 (loopStatus (partState s) (Fin.ofNat 16 (byteAt b 0).toNat)) t ∧ t.clk = (partState s).clk ∧
      Only [.clk, .barr] s t := by
  have hpwr : (partState s).pwr = s.pwr := only_partState s .pwr (by simp)
  have hdom' : domOn (partState s) 16 = true := by simpa only [domOn, hpwr] using hdom
  have hneed : needDoms [16] (partState s) = none := if_pos (by simp [hdom'])
  have hpart : fieldPart ⟨0x44, b⟩ (partState s) = (partState s,
      { data := loopStatus (partState s) (Fin.ofNat 16 (byteAt b 0).toNat) }) := by
    have hread : fieldPart ⟨0x44, b⟩ (partState s) = loopReadField b (partState s) := rfl
    rw [hread]
    unfold loopReadField
    rw [hneed]
    exact if_pos (by rw [hstat]; decide)
  obtain ⟨t, hstep, -, -, hclk, -, hack, hon, -⟩ := part_acts (ps := []) h hpart rfl (fun p _ => by cases p <;> rfl)
  exact ⟨t, hstep, hack, hclk, hon⟩

/-- Settles O42: coefficients leave as coefficient cells, commands and tests as register writes, and LOOP_READ
reports. -/
theorem loopCommandsCrossTheBarrier : Obligations.LoopCommandsCrossTheBarrier := by
  unfold Obligations.LoopCommandsCrossTheBarrier
  intro q s hup hheld hroom
  refine ⟨loopCoefCompletes hup hheld hroom, loopSwapCompletes hup hheld hroom, loopCtrlCompletes hup hheld hroom,
    loopTestCompletes hup hheld hroom, fun h hlen hslot hkind => ?_, fun c b h hdom hstat => ?_⟩
  · exact crosses_of opLoopRead h rfl (by simp [opLoopRead, lenIs_of hlen, param, hslot, hkind])
  · have hloop : (partState s).loop = s.loop := only_partState s .loop (by simp)
    have hread := loopReadArrives h hdom hstat
    unfold loopStatus at hread
    rw [hloop] at hread
    exact hread

end Sys2Proof.Proofs

/-! Loop slots: the commands of LOOP_CMD, a sample, and the test (R250, R252, R257 to R266, R275, R276). -/

namespace Sys2Proof.Proofs

open Sys2Proof.Machine Sys2Proof.Safety Sys2Proof.Laws

variable {i j : Fin 16} {s t u v : State}

/-! ## Commands of slots (R265) -/

theorem mem_slotList {m : BitVec 16} : i ∈ slotList m ↔ m.getLsbD i.val = true := by
  simp [slotList]

theorem slot_setSlot (i j : Fin 16) (f : Slot → Slot) (s : State) :
    (setSlot i f s).loop.slot[j] = if j = i then f s.loop.slot[i] else s.loop.slot[j] := setSlot_get i j f s

theorem only_setSlot (i : Fin 16) (f : Slot → Slot) (s : State) : Only [.loop] s (setSlot i f s) := fun p hp => by
  cases p <;> simp_all [same]

theorem slot_setSlots (f : Slot → Slot) {l : List (Fin 16)} (hl : l.Nodup) (j : Fin 16) (s : State) :
    (l.foldl (fun s i => setSlot i f s) s).loop.slot[j] =
      if j ∈ l then f s.loop.slot[j] else s.loop.slot[j] := by
  induction l generalizing s with
  | nil => rfl
  | cons i l ih =>
    obtain ⟨hi, hl⟩ := List.nodup_cons.mp hl
    refine (ih hl (setSlot i f s)).trans ?_
    rw [slot_setSlot]
    by_cases hj : j = i
    · subst hj
      rw [if_neg hi, if_pos rfl, if_pos List.mem_cons_self]
    · rw [if_neg hj]
      simp only [List.mem_cons, hj, false_or]

theorem only_setSlots (f : Slot → Slot) (l : List (Fin 16)) (s : State) :
    Only [.loop] s (l.foldl (fun s i => setSlot i f s) s) := by
  induction l generalizing s with
  | nil => exact fun p _ => by cases p <;> rfl
  | cons i l ih => exact only_trans (only_setSlot i f s) (ih _)

/-- A command of the slots of a mask. -/
theorem slot_command (f : Slot → Slot) (m : BitVec 16) (j : Fin 16) (s : State) :
    ((slotList m).foldl (fun s i => setSlot i f s) s).loop.slot[j] =
      if m.getLsbD j.val then f s.loop.slot[j] else s.loop.slot[j] := by
  have hnodup : (slotList m).Nodup := (List.nodup_finRange 16).filter _
  rw [slot_setSlots f hnodup j s]
  simp only [mem_slotList]

theorem settleTest_slot (s : State) : (settleTest s).loop.slot = s.loop.slot := by
  unfold settleTest
  split <;> rfl

theorem only_settleTest (s : State) : Only [.loop] s (settleTest s) := fun p hp => by
  cases p <;> simp_all [same]

theorem loopStopCompletes (hdom : domOn s 16 = true) (m : BitVec 16) : Completes (.loopStop m) s fun t =>
    (∀ i : Fin 16, t.loop.slot[i] =
      if m.getLsbD i.val then { s.loop.slot[i] with state := .stopped } else s.loop.slot[i]) ∧ Only [.loop] s t := by
  refine ⟨loopStop m s, congrArg Host.Outcome.next (if_pos hdom), fun j => ?_,
    only_trans (only_setSlots _ _ s) (only_settleTest _)⟩
  unfold loopStop
  rw [settleTest_slot, slot_command]

theorem loopRunCompletes (hdom : domOn s 16 = true) (m : BitVec 16) (hclay : s.modes.clay = false) :
    Completes (.loopRun m) s fun t =>
      (∀ i : Fin 16, t.loop.slot[i] = if m.getLsbD i.val && s.loop.slot[i].state = .stopped then
        { s.loop.slot[i] with state := if s.loop.slot[i].fzStall || s.loop.slot[i].fzTach then .frozen else .running }
        else s.loop.slot[i]) ∧ Only [.loop] s t := by
  have hstep : loopRun m s = (slotList m).foldl (fun s i => setSlot i runSlot s) s :=
    if_neg (by rw [hclay]; decide)
  refine ⟨_, congrArg Host.Outcome.next ((if_pos hdom).trans hstep), fun j => ?_, only_setSlots _ _ s⟩
  rw [slot_command]
  cases m.getLsbD j.val
  · rfl
  · by_cases hstate : s.loop.slot[j].state = .stopped
    · simp only [runSlot, hstate, if_true, decide_true, Bool.and_self]
    · simp only [runSlot, hstate, if_true, if_false, decide_false, Bool.and_false, Bool.false_eq_true]

theorem loopRun_clay (hdom : domOn s 16 = true) (m : BitVec 16) (hclay : s.modes.clay = true) :
    exec (.loopRun m) s = .next s :=
  congrArg Host.Outcome.next ((if_pos hdom).trans (if_pos hclay))

theorem loopResetCompletes (hdom : domOn s 16 = true) (m : BitVec 16) : Completes (.loopReset m) s fun t =>
    (∀ i : Fin 16, t.loop.slot[i] = if m.getLsbD i.val then
      { s.loop.slot[i] with integ := 0, deriv := 0, xPrev := 0, uPrev := 0, table := [] }
      else s.loop.slot[i]) ∧ Only [.loop] s t :=
  ⟨loopReset m s, congrArg Host.Outcome.next (if_pos hdom), fun j => slot_command resetSlot m j s,
    only_setSlots _ _ s⟩

/-! ## A sample (R250, R257 to R264) -/

/-- No cell pends, so none is applied. -/
theorem applyCells_none (h : s.loop.slot[i].cells = []) : applyCells i s = s := by
  have hsame : upd s.loop.slot i (fun l => { l with cells := [] }) = s.loop.slot := by
    refine Vector.ext fun k hk => ?_
    have hk' := upd_get s.loop.slot i ⟨k, hk⟩ fun l => { l with cells := [] }
    simp only at hk'
    rw [hk']
    split
    · next he =>
      subst he
      change { s.loop.slot[(⟨k, hk⟩ : Fin 16)] with cells := [] } = s.loop.slot[(⟨k, hk⟩ : Fin 16)]
      rw [← h]
    · rfl
  unfold applyCells
  dsimp only
  rw [h, List.foldl_nil, setSlot, hsame]

/-- The state in which a slot's trigger takes effect. -/
def triggered (i : Fin 16) (s : State) : State :=
  let u := advanceTo (nextTrigger s i) s
  { u with clk := { u.clk with marks := putKey (200 + i.val) (nextTrigger s i) u.clk.marks } }

theorem only_triggered (i : Fin 16) (s : State) : Only [.clk, .barr] s (triggered i s) := by
  have honly := only_advanceTo (nextTrigger s i) s
  unfold triggered
  generalize advanceTo (nextTrigger s i) s = u at *
  refine only_trans honly fun p hp => ?_
  cases p <;> simp_all [same]

/-- A slot whose feedback is a channel's current takes a sample of it. -/
def sampledBy (i : Fin 16) (fb : Int) (s : State) : State :=
  if field (loopCfg s i) 21 20 = 1 then
    takeSample (Fin.ofNat 32 (field (loopCfg s i) 26 22)) (BitVec.ofInt 12 (fullScale 4095 fb)) s
  else s

theorem only_sampledBy (i : Fin 16) (fb : Int) (s : State) : Only [.out] s (sampledBy i fb s) := by
  unfold sampledBy
  split
  · exact only_takeSample _ _ s
  · exact fun p _ => by cases p <;> rfl

/-- What the state of a channel is read from. -/
def shown (c : Chan) : Bool × Bool × Bool × Bool × Bool × Override :=
  (c.obsOn, c.obsOff, c.latched, c.tripped, c.gate, c.ovr)

theorem shown_sampledBy (i : Fin 16) (fb : Int) (s : State) (m : Fin 32) :
    shown (sampledBy i fb s).out.ch[m] = shown s.out.ch[m] := by
  unfold sampledBy
  split
  · exact chan_takeSample (fun _ _ => rfl) _ _ m s
  · rfl

theorem ochState_of (hreg : reg t = reg s) (hfan : t.sense.fan = s.sense.fan)
    (hch : ∀ m : Fin 32, shown t.out.ch[m] = shown s.out.ch[m]) (n : Fin 32) : ochState t n = ochState s n := by
  have hheld (m : Fin 32) : fanHeld t m = fanHeld s m := by simp only [fanHeld, hreg, hfan]
  have hn := hch n
  have hlead := hch (leader s n)
  simp only [shown, Prod.mk.injEq] at hn hlead
  simp only [ochState, gateCmd, leader_of_reg hreg, hheld, hn, hlead]

/-- What a sample computes is not moved by the conversion it takes. -/
theorem sampledBy_keeps (i : Fin 16) (fb : Int) (s : State) :
    feedback (sampledBy i fb s) i fb = feedback s i fb ∧
    (∀ k, tableIndex (sampledBy i fb s) i k = tableIndex s i k) ∧ boundOff (sampledBy i fb s) i = boundOff s i := by
  have honly := only_sampledBy i fb s
  have hch := shown_sampledBy i fb s
  generalize sampledBy i fb s = u at *
  have hreg : reg u = reg s := reg_of_only honly (by simp) (by simp)
  have hsense : u.sense = s.sense := honly .sense (by simp)
  have hclk : u.clk = s.clk := honly .clk (by simp)
  have hloop : u.loop = s.loop := honly .loop (by simp)
  refine ⟨?_, fun k => ?_, ?_⟩
  · simp only [feedback, loopCfg, sinType, hreg, hsense, hclk]
  · simp only [tableIndex, loopCfg, pairWait, sinType, hreg, hsense, hloop]
    rfl
  · have hbound : boundTo u i = boundTo s i := by
      simp only [boundTo, och, hreg, leader_of_reg hreg]
      rfl
    have hstate : ochState u = ochState s := funext (ochState_of hreg (by rw [hsense]) hch)
    simp only [boundOff, hbound, hstate]

/-- A slot that has taken its sample. -/
def settled (r : Sample) (fberr : Bool) (dly : Nat) (l : Slot) : Slot :=
  { r.slot with
    fberr := fberr, dly := BitVec.ofNat 13 dly
    maxDly := if l.maxDly.toNat < dly then BitVec.ofNat 13 dly else l.maxDly }

/-- What a sample leaves in its slot and on the channels bound to it. -/
def concluded (i : Fin 16) (r : Sample) (fberr : Bool) (dly busy : Nat) (s : State) : State :=
  writeBound i r.u (expOf r.slot.active[(0 : Fin 17)] 4) (noteSat i r.sats
    (setSlot i (settled r fberr dly) { s with loop := { s.loop with test := s.loop.test, busy := busy } }))

/-- What the law of a slot computes in a state. -/
def computed (i : Fin 16) (fb : Int) (v : State) : Sample :=
  let x := tableIndex v i (loopSamp v i)
  law v.loop.slot[i] (feedback v i fb).1 x.1 x.2.1 x.2.2 (boundOff v i) none Dy.zero

/-- The sample of a slot without pending cells or swap, up to the law. -/
theorem loopSample_idle {fb : Int} (hdom : domOn s 16 = true) (hcells : s.loop.slot[i].cells = [])
    (hswap : s.loop.slot[i].swapAt = none) :
    (s.loop.slot[i].state ≠ .running → loopSample i fb s = triggered i s) ∧
    (s.loop.slot[i].state = .running → s.loop.test.running = false →
      ∃ (dly : Nat) (busy : Nat), loopSample i fb s = concluded i (computed i fb (triggered i s))
        (feedback (triggered i s) i fb).2 dly busy (sampledBy i fb (triggered i s))) := by
  have honly := only_triggered i s
  have hloop : (triggered i s).loop = s.loop := honly .loop (by simp)
  obtain ⟨hfb, htab, hoff⟩ := sampledBy_keeps i fb (triggered i s)
  have hsampled : (sampledBy i fb (triggered i s)).loop = s.loop :=
    (only_sampledBy i fb (triggered i s) .loop (by simp)).trans hloop
  have hgo : ¬ (!domOn s 16) = true := by rw [hdom]; decide
  have hcells' : (triggered i s).loop.slot[i].cells = [] := by rw [hloop]; exact hcells
  have hno (k : Word) : (triggered i s).loop.slot[i].swapAt ≠ some k := by
    rw [hloop, hswap]
    exact Option.some_ne_none k |>.symm
  refine ⟨fun hstate => ?_, fun hstate htest => ?_⟩
  · unfold loopSample
    rw [if_neg hgo]
    extract_lets t u clk v k w
    have hw : w = triggered i s := (if_neg (hno k)).trans (applyCells_none hcells')
    rw [hw]
    exact if_pos (by rw [hloop]; simpa using hstate)
  · unfold loopSample
    rw [if_neg hgo]
    extract_lets t u clk v' k w z mine point work rest dly eng
    have hw : w = triggered i s := (if_neg (hno k)).trans (applyCells_none hcells')
    have hz : z = sampledBy i fb (triggered i s) := by rw [← hw]; rfl
    rw [if_neg (by rw [hw, hloop, hstate]; decide)]
    clear_value w
    have hmine : mine = false := by
      unfold mine
      rw [hz, hsampled, htest]
      rfl
    have hpoint : point = none := if_neg (by rw [hmine]; decide)
    clear_value point mine z
    subst hpoint hmine hz
    refine ⟨dly, max t s.loop.busy + work, ?_⟩
    have hk : loopSamp (triggered i s) i = k := rfl
    unfold computed
    rw [hfb, htab, hoff, hk]
    clear_value dly work k t
    unfold eng concluded settled
    simp only [Bool.false_eq_true, if_false, hsampled, hloop]

theorem slot_noteSat (i : Fin 16) (bits : BitVec 5) (s : State) :
    (∃ a b, (noteSat i bits s).loop.slot[i] = { s.loop.slot[i] with sat := a, satCnt := b }) ∧
    ∀ j : Fin 16, j ≠ i → (noteSat i bits s).loop.slot[j] = s.loop.slot[j] := by
  by_cases hbits : bits = 0
  · have hsame : noteSat i bits s = s := if_pos hbits
    rw [hsame]
    exact ⟨⟨_, _, rfl⟩, fun _ _ => rfl⟩
  · have hloop : (noteSat i bits s).loop =
        (setSlot i (fun l => { l with sat := l.sat ||| bits, satCnt := satInc l.satCnt }) s).loop := by
      rw [noteSat, if_neg hbits, (noteEpoch_frame ..).2.2.2.2.2.2.2.2.2.2.1]
    rw [hloop]
    refine ⟨⟨s.loop.slot[i].sat ||| bits, satInc s.loop.slot[i].satCnt, ?_⟩, fun j hj => ?_⟩
    · rw [slot_setSlot, if_pos rfl]
    · rw [slot_setSlot, if_neg hj]

/-- What a sample makes of its slot, and of no other. -/
theorem slot_concluded (i : Fin 16) (r : Sample) (fberr : Bool) (dly busy : Nat) (s : State) :
    (∃ a b c, (concluded i r fberr dly busy s).loop.slot[i] =
      { r.slot with fberr := fberr, dly := BitVec.ofNat 13 dly, sat := a, satCnt := b, maxDly := c }) ∧
    ∀ j : Fin 16, j ≠ i → (concluded i r fberr dly busy s).loop.slot[j] = s.loop.slot[j] := by
  unfold concluded
  rw [(writeBound_frame ..).2.2.2.2.2.2.2.2.2.2.1]
  obtain ⟨⟨a, b, hi⟩, hj⟩ := slot_noteSat i r.sats
    (setSlot i (settled r fberr dly) { s with loop := { s.loop with test := s.loop.test, busy := busy } })
  rw [slot_setSlot, if_pos rfl] at hi
  refine ⟨⟨a, b, _, hi⟩, fun j h => (hj j h).trans ?_⟩
  rw [slot_setSlot, if_neg h]

/-- The OFF_AT of bound channels is written from the registers alone. -/
theorem writeBound_regs (i : Fin 16) (x e : Int) (hid : t.id = s.id) (hregs : t.regs = s.regs) (hpwr : t.pwr = s.pwr) :
    (writeBound i x e t).regs = (writeBound i x e s).regs := by
  have hset (l : List (Fin 32)) : ∀ {s t : State}, t.id = s.id → t.regs = s.regs →
      (l.foldl (fun s n => setReg (0x100000 + 0x40 * n.val + 0x0C) (offAtOf x e (och s n.val 0x04)) s) t).regs =
      (l.foldl (fun s n => setReg (0x100000 + 0x40 * n.val + 0x0C) (offAtOf x e (och s n.val 0x04)) s) s).regs := by
    induction l with
    | nil => exact fun _ hregs => hregs
    | cons n l ih =>
      refine fun hid hregs => ih (by simpa using hid) ?_
      simp only [setReg, och, reg, hid, hregs]
  have hreg : reg t = reg s := funext fun a => by simp only [reg, hid, hregs]
  have hbound : boundTo t i = boundTo s i := by
    simp only [boundTo, och, hreg, leader_of_reg hreg]
    rfl
  have hdom : domOn t 14 = domOn s 14 := by simp only [domOn, hpwr]
  unfold writeBound
  rw [hdom, hbound]
  cases domOn s 14
  · exact hregs
  · exact hset _ hid hregs

theorem only_concluded (i : Fin 16) (r : Sample) (fberr : Bool) (dly busy : Nat) (s : State) :
    Only [.regs, .barr, .loop, .ev] s (concluded i r fberr dly busy s) := fun p hp => by
  cases p <;> simp_all [same, concluded]

theorem loopSampleRuns {fb : Int} (hdom : domOn s 16 = true) (hcells : s.loop.slot[i].cells = [])
    (hswap : s.loop.slot[i].swapAt = none) (hstate : s.loop.slot[i].state = .running)
    (htest : s.loop.test.running = false) {v : State} (hv : v = triggered i s) {r : Sample} (hr : r = computed i fb v) :
    Completes (.loopSample i fb) s fun t =>
      t.loop.slot[i].integ = r.slot.integ ∧ t.loop.slot[i].deriv = r.slot.deriv ∧
      t.loop.slot[i].xPrev = r.slot.xPrev ∧ t.loop.slot[i].uPrev = r.slot.uPrev ∧
      t.loop.slot[i].table = r.slot.table ∧ t.loop.slot[i].out = r.slot.out ∧
      t.loop.slot[i].fberr = (feedback v i fb).2 ∧ t.loop.slot[i].state = .running ∧
      t.clk.tb = v.clk.tb ∧ (∀ j : Fin 16, j ≠ i → t.loop.slot[j] = s.loop.slot[j]) ∧
      t.regs = (writeBound i r.u (expOf s.loop.slot[i].active[(0 : Fin 17)] 4) v).regs ∧
      Only [.regs, .clk, .barr, .out, .loop, .ev] s t := by
  obtain ⟨dly, busy, hstep⟩ := (loopSample_idle (fb := fb) hdom hcells hswap).2 hstate htest
  have hstart := only_triggered i s
  rw [← hv] at hstep hstart
  rw [← hr] at hstep
  have hsampled := only_sampledBy i fb v
  have hdone := only_concluded i r (feedback v i fb).2 dly busy (sampledBy i fb v)
  obtain ⟨⟨a, b, c, hslot⟩, hother⟩ := slot_concluded i r (feedback v i fb).2 dly busy (sampledBy i fb v)
  rw [← hstep] at hdone hslot hother
  have hloop : (sampledBy i fb v).loop = s.loop := (hsampled .loop (by simp)).trans (hstart .loop (by simp))
  have hkept : r.slot.state = s.loop.slot[i].state ∧ r.slot.active = s.loop.slot[i].active := by
    have hl : v.loop = s.loop := hstart .loop (by simp)
    rw [hr, ← hl]
    exact ⟨rfl, rfl⟩
  have hregs : (loopSample i fb s).regs = (writeBound i r.u (expOf s.loop.slot[i].active[(0 : Fin 17)] 4) v).regs := by
    rw [hstep, ← hkept.2]
    unfold concluded
    have hid : (sampledBy i fb v).id = v.id := hsampled .id (by simp)
    have hregs : (sampledBy i fb v).regs = v.regs := hsampled .regs (by simp)
    have hpwr : (sampledBy i fb v).pwr = v.pwr := hsampled .pwr (by simp)
    exact writeBound_regs i r.u _ (by simpa using hid) (by simpa using hregs) (by simpa using hpwr)
  have hclk : (loopSample i fb s).clk = v.clk := (hdone .clk (by simp)).trans (hsampled .clk (by simp))
  refine ⟨_, rfl, ?_, ?_, ?_, ?_, ?_, ?_, ?_, ?_, by rw [hclk], fun j hj => ?_, hregs,
    only_trans (only_mono hstart (by simp)) (only_trans (only_mono hsampled (by simp)) (only_mono hdone (by simp)))⟩
  iterate 7 rw [hslot]
  · rw [hslot]
    exact hkept.1.trans hstate
  · rw [hother j hj, hloop]

theorem loopSampleRests {fb : Int} (hdom : domOn s 16 = true) (hcells : s.loop.slot[i].cells = [])
    (hswap : s.loop.slot[i].swapAt = none) (hstate : s.loop.slot[i].state ≠ .running) :
    Completes (.loopSample i fb) s fun t =>
      t.loop.slot[i] = s.loop.slot[i] ∧ t.regs = s.regs ∧ t.clk.tb = (triggered i s).clk.tb := by
  have hstart := only_triggered i s
  refine ⟨triggered i s, congrArg Host.Outcome.next ((loopSample_idle hdom hcells hswap).1 hstate), ?_,
    hstart .regs (by simp), rfl⟩
  have hloop : (triggered i s).loop = s.loop := hstart .loop (by simp)
  rw [hloop]

/-! ## The test (R275, R276) -/

theorem loopTestGo_runs (hdom : domOn s 16 = true) (hclay : s.modes.clay = false)
    (hstate : s.loop.slot[(Fin.ofNat 16 (field (reg s 0x130900) 3 0) : Fin 16)].state = .running)
    (htest : s.loop.test.running = false) :
    exec .loopTestGo s = .next { s with loop := { s.loop with test :=
      { slot := Fin.ofNat 16 (field (reg s 0x130900) 3 0), running := true, len := field (reg s 0x130900) 22 8
        lfsr := BitVec.ofNat 16 (field (reg s 0x130908) 15 0), started := true } } } := by
  refine congrArg Host.Outcome.next ((if_pos hdom).trans ?_)
  unfold testGo
  dsimp only
  rw [if_neg (by rw [hclay]; decide), if_neg (by rw [hstate]; decide), if_neg (by rw [htest]; decide)]

theorem loopTestAbort_ends (hdom : domOn s 16 = true) (htest : s.loop.test.running = true) :
    exec .loopTestAbort s = .next { s with loop := { s.loop with test :=
      { s.loop.test with running := false, aborted := true } } } :=
  congrArg Host.Outcome.next ((if_pos hdom).trans (if_pos htest))

theorem captureEnd_done (htest : s.loop.test.running = true) (hlen : s.loop.test.len ≤ s.loop.test.recs.length) :
    exec .captureEnd s = .next { s with loop := { s.loop with test :=
      { s.loop.test with running := false, done := true } } } :=
  congrArg Host.Outcome.next (if_pos (by simp [htest, hlen]))

/-- Settles O43: a slot obeys its commands, samples by its law while it runs, and has at most one test. -/
theorem loopSlotsSampleAndObey : Obligations.LoopSlotsSampleAndObey := by
  unfold Obligations.LoopSlotsSampleAndObey
  intro s hdom
  refine ⟨fun m => ⟨loopStopCompletes hdom m, loopRunCompletes hdom m, loopRun_clay hdom m,
    loopResetCompletes hdom m⟩, fun i fb hcells hswap => ⟨loopSampleRests hdom hcells hswap, fun hstate htest => ?_⟩,
    loopTestGo_runs hdom, fun htest => ⟨loopTestAbort_ends hdom htest, captureEnd_done htest⟩⟩
  have hloop : (triggered i s).loop = s.loop := only_triggered i s .loop (by simp)
  refine loopSampleRuns hdom hcells hswap hstate htest (v := triggered i s) rfl ?_
  unfold computed
  rw [hloop]
  rfl

end Sys2Proof.Proofs

/-! The receiver: acquisition, tracking and measurements (R281, R284 to R287, R303). -/

namespace Sys2Proof.Proofs

open Sys2Proof.Machine Sys2Proof.Safety Sys2Proof.Laws

variable {c : Fin 96} {s t u : State}

theorem trk_onTrack (c d : Fin 96) (f : Track → Track) (s : State) :
    (onTrack c f s).gnss.trk[d] = if d = c then f s.gnss.trk[c] else s.gnss.trk[d] := upd_get _ c d f

theorem only_gnss (g : Gnss) (s : State) : Only [.gnss] s { s with gnss := g } := fun p hp => by
  cases p <;> simp_all [same]

theorem only_onTrack (c : Fin 96) (f : Track → Track) (s : State) : Only [.gnss] s (onTrack c f s) := only_gnss _ s

/-- A command that changes one tracking channel. -/
theorem trackCompletes {i : Instr} (f : Track → Track) (hstep : exec i s = .next (onTrack c f s)) :
    Completes i s fun t => t.gnss.trk[c] = f s.gnss.trk[c] ∧ Only [.gnss] s t :=
  ⟨_, hstep, by rw [trk_onTrack, if_pos rfl], only_onTrack c f s⟩

theorem acquisitionCompletes (htrack : tracking s = true) {sat : Byte} {g : Fin 4} (hon : signalOn s sat g = true)
    (hband : 48 ≤ c.val ↔ g.val = 1 ∨ g.val = 3) (hfree : s.gnss.trk[c].used = false)
    (hnew : (s.gnss.trk.toList.any fun t => t.used && t.sat == sat && t.signal = g) = false) :
    Completes (.acquisitionStart c sat g) s fun t =>
      t.gnss.trk[c] = { used := true, sat := sat, signal := g, loopSet := reg s 0x070008, corrSet := reg s 0x07000C } ∧
      (∀ d : Fin 96, d ≠ c → t.gnss.trk[d] = s.gnss.trk[d]) ∧ Only [.gnss] s t := by
  have hstep : acquire c sat g s = onTrack c (fun _ =>
      { used := true, sat := sat, signal := g, loopSet := reg s 0x070008, corrSet := reg s 0x07000C }) s := by
    have hl5 : (decide (48 ≤ c.val) == (decide (g.val = 1) || decide (g.val = 3))) = true := by
      rw [beq_iff_eq, decide_eq_decide.mpr hband, Bool.decide_or]
    unfold acquire
    dsimp only
    rw [htrack, hon, hl5, hfree, hnew]
    rfl
  refine ⟨_, congrArg Host.Outcome.next hstep, ?_, fun d hd => ?_, only_onTrack c _ s⟩
  · rw [trk_onTrack, if_pos rfl]
  · rw [trk_onTrack, if_neg hd]

theorem trackingDumpCompletes (htrack : tracking s = true) (hused : s.gnss.trk[c].used = true) (accum : List Int)
    (cp kp : Word) (w : Option (Word × Word)) :
    (Completes (.trackingDump c accum cp kp w false) s fun t =>
      t.gnss.trk[c] = { s.gnss.trk[c] with
        accum := accum, codePhase := cp, carrPhase := kp, dumps := s.gnss.trk[c].dumps + 1
        code := ((w <|> s.gnss.trk[c].pendWrite).map (·.1)).getD s.gnss.trk[c].code
        carr := ((w <|> s.gnss.trk[c].pendWrite).map (·.2)).getD s.gnss.trk[c].carr
        pendWrite := none, loopSet := reg s 0x070008, corrSet := reg s 0x07000C } ∧ Only [.gnss] s t) ∧
    (Completes (.trackingDump c accum cp kp w true) s fun t =>
      t.gnss.trk[c].pendWrite = w ∧ t.gnss.trk[c].accum = accum ∧
      t.gnss.trk[c].code = (s.gnss.trk[c].pendWrite.map (·.1)).getD s.gnss.trk[c].code ∧ Only [.gnss] s t) := by
  have hstep (same : Bool) : exec (.trackingDump c accum cp kp w same) s =
      .next (onTrack c (dump accum cp kp w same (reg s 0x070008) (reg s 0x07000C)) s) :=
    congrArg Host.Outcome.next (if_pos (by rw [htrack, hused]; rfl))
  obtain ⟨t, hexec, htrk, honly⟩ := trackCompletes _ (hstep true)
  refine ⟨trackCompletes _ (hstep false), t, hexec, ?_, ?_, ?_, honly⟩
  all_goals
    rw [htrk]
    rfl

theorem carrierLockCompletes (htrack : tracking s = true) (hused : s.gnss.trk[c].used = true) :
    Completes (.carrierLock c) s fun t =>
      t.gnss.trk[c] = { s.gnss.trk[c] with lock := true, narrowed := false } ∧ Only [.gnss] s t := by
  have hgo : (tracking s && s.gnss.trk[c].used) = true := by rw [htrack, hused]; rfl
  exact trackCompletes (c := c) (i := .carrierLock c) _ (congrArg Host.Outcome.next (if_pos hgo))

theorem carrierLockLossCompletes (htrack : tracking s = true) (hlock : s.gnss.trk[c].lock = true) :
    Completes (.carrierLockLoss c) s fun t =>
      t.gnss.trk[c] = { s.gnss.trk[c] with lock := false, slip := true, narrowed := true } ∧ Only [.gnss] s t := by
  have hgo : (tracking s && s.gnss.trk[c].lock) = true := by rw [htrack, hlock]; rfl
  exact trackCompletes (c := c) (i := .carrierLockLoss c) _ (congrArg Host.Outcome.next (if_pos hgo))

/-- The measurements of a frame, latched. -/
def latched (sigs : List MeasSig) (s : State) : State :=
  { s with gnss := { s.gnss with
    meas := (sigs.take 96).map (markSlip s), measFrame := now s
    trk := vmap (fun t => { t with slip := false }) s.gnss.trk } }

theorem gnssMeasure_eq (sigs : List MeasSig) (htrack : tracking s = true) (hclock : clockOn s = true)
    (hmode : gnssMode s = 1) : ∃ held, gnssMeasure sigs s =
      { latched sigs (toEdge 10 80000000 s) with
        gnss := { (latched sigs (toEdge 10 80000000 s)).gnss with measHeld := held } } := by
  have hp : 100000 * ticksPerFrame = 80000000 := rfl
  have hgo : ¬ (!tracking s || !clockOn s || (gnssMode s = 2 && !s.gnss.burstBias)) = true := by
    rw [htrack, hclock, hmode]
    simp
  unfold gnssMeasure
  rw [if_neg hgo, hp]
  generalize toEdge 10 80000000 s = u
  dsimp only
  split <;> exact ⟨_, rfl⟩

theorem gnssMeasureCompletes (sigs : List MeasSig) (htrack : tracking s = true) (hclock : clockOn s = true)
    (hmode : gnssMode s = 1) : Completes (.gnssMeasure sigs) s fun t =>
      t.clk = (toEdge 10 80000000 s).clk ∧ t.gnss.measFrame = now t ∧
      t.gnss.meas = (sigs.take 96).map (markSlip s) ∧
      (∀ c : Fin 96, t.gnss.trk[c] = { s.gnss.trk[c] with slip := false }) ∧ Only [.clk, .barr, .gnss] s t := by
  obtain ⟨held, hstep⟩ := gnssMeasure_eq sigs htrack hclock hmode
  have honly := only_toEdge 10 80000000 s
  generalize toEdge 10 80000000 s = u at *
  have hgnss : u.gnss = s.gnss := honly .gnss (by simp)
  have hmark : markSlip u = markSlip s := funext fun m => by simp only [markSlip, hgnss]
  refine ⟨_, congrArg Host.Outcome.next hstep, rfl, rfl, ?_, fun c => ?_,
    only_trans (only_mono honly (by simp)) (only_mono (only_gnss _ u) (by simp))⟩
  · rw [← hmark]
    rfl
  · rw [← hgnss]
    exact vmap_get _ u.gnss.trk c

/-- Settles O44: channels are taken, dumped and locked one by one, and measurements are latched at their frame. -/
theorem theReceiverTracksAndMeasures : Obligations.TheReceiverTracksAndMeasures := by
  unfold Obligations.TheReceiverTracksAndMeasures
  intro s htrack
  exact ⟨fun c sat g => acquisitionCompletes htrack,
    fun c accum cp kp w hused => trackingDumpCompletes htrack hused accum cp kp w,
    fun c => ⟨carrierLockCompletes htrack, carrierLockLossCompletes htrack⟩,
    fun sigs => gnssMeasureCompletes sigs htrack⟩

end Sys2Proof.Proofs

/-! Solutions, bursts, corrections and the antenna (R283, R287 to R290, R299, R307). -/

namespace Sys2Proof.Proofs

open Sys2Proof.Machine Sys2Proof.Safety Sys2Proof.Laws

variable {s t u : State}

/-! ## What follows a solution leaves of the receiver (R287 to R289, R300) -/

theorem only_refl (ps : List Part) (s : State) : Only ps s s := fun p _ => by cases p <;> rfl

theorem only_sendIso (m : IsoMsg) (s : State) : Only [.canA] s (sendIso m s) := fun p hp => by
  cases p <;> simp_all [same, sendIso]

theorem only_ite {ps : List Part} {p : Prop} [Decidable p] (h : Only ps s t) : Only ps s (if p then t else s) := by
  split
  · exact h
  · exact only_refl ps s

theorem only_positionOut (v : GnssSol) (s : State) : Only [.canA] s (positionOut v s) := by
  unfold positionOut
  split
  · exact only_refl _ s
  · exact only_trans (only_ite (only_sendIso _ s)) (only_trans (only_ite (only_sendIso _ _))
      (only_ite (only_sendIso _ _)))

theorem only_takeOrigin (v : GnssSol) (s : State) : Only [.sect] s (takeOrigin v s) := by
  refine only_ite fun p hp => ?_
  cases p <;> simp_all [same]

theorem only_autoStep (s : State) : Only [.clk, .chain] s (autoStep s) := fun p hp => by
  cases p <;> simp_all [same]

theorem only_steer (s : State) : Only [.free, .clk] s (steer s) := fun p hp => by
  cases p <;> simp_all [same]

theorem only_chooseRef (s : State) : Only [.clk, .barr, .ev] s (chooseRef s) := fun p hp => by
  cases p <;> simp_all [same]

/-- The receiver after a solution. -/
def solved (v : GnssSol) (s : State) : Gnss :=
  let w := limitFix s v
  { s.gnss with
    sol := some w, solTb := s.clk.tb, timeValid := w.fix != 0 && decide (w.uncertNs ≤ 100)
    toff := satInt 32 ((w.gpsTime : Int) - tbTime w.frame s) }

theorem takeSolution_gnss (v : GnssSol) (s : State) : (takeSolution v s).gnss = solved v s ∧
    Only [.free, .clk, .barr, .chain, .gnss, .canA, .ev, .sect] s (takeSolution v s) := by
  let a : State := { s with gnss := solved v s }
  have ha : Only [.gnss] s a := only_gnss _ s
  have hrest : Only [.free, .clk, .barr, .chain, .canA, .ev, .sect] a (takeSolution v s) :=
    only_trans (only_mono (only_takeOrigin (limitFix s v) a) (by simp))
      (only_trans (only_mono (only_chooseRef _) (by simp)) (only_trans (only_mono (only_steer _) (by simp))
        (only_trans (only_mono (only_autoStep _) (by simp)) (only_mono (only_positionOut (limitFix s v) _) (by simp)))))
  exact ⟨hrest .gnss (by simp), only_trans (only_mono ha (by simp)) (only_mono hrest (by simp))⟩

theorem limitFix_frame (s : State) (v : GnssSol) : (limitFix s v).frame = v.frame := by
  unfold limitFix
  split
  · rfl
  · split <;> rfl

theorem limitFix_of (hreg : reg t = reg s) (hstale : t.gnss.rtcmStale = s.gnss.rtcmStale)
    (hfresh : t.gnss.msmFresh = s.gnss.msmFresh) (hstation : t.gnss.station = s.gnss.station) (v : GnssSol) :
    limitFix t v = limitFix s v := by
  simp only [limitFix, gnssMode, hreg, hstale, hfresh, hstation]
  rfl

theorem limitFix_few (s : State) {v : GnssSol} (h : v.sats.toNat < satsNeeded v) :
    limitFix s v = { v with fix := 0 } := if_pos h

theorem gnssSolutionCompletes (v : GnssSol) (htrack : tracking s = true) (hmode : gnssMode s = 1)
    (hclock : clockOn s = true) : Completes (.gnssSolution v) s fun t =>
      let w := limitFix s { v with frame := s.gnss.measFrame }
      t.gnss = { s.gnss with
        sol := some w, solTb := s.clk.tb, timeValid := w.fix != 0 && decide (w.uncertNs ≤ 100)
        toff := satInt 32 ((w.gpsTime : Int) - tbTime s.gnss.measFrame s) } ∧
      (v.sats.toNat < satsNeeded v →
        t.gnss.sol = some { v with frame := s.gnss.measFrame, fix := 0 } ∧ t.gnss.timeValid = false) ∧
      Only [.free, .clk, .barr, .chain, .gnss, .canA, .ev, .sect] s t := by
  have hgo : (tracking s && gnssMode s = 1 && clockOn s) = true := by rw [htrack, hmode, hclock]; rfl
  obtain ⟨hgnss, honly⟩ := takeSolution_gnss { v with frame := s.gnss.measFrame } s
  refine ⟨_, congrArg Host.Outcome.next (if_pos hgo), ?_, fun hfew => ?_, honly⟩
  · rw [hgnss, solved, limitFix_frame]
  · have hlimit := limitFix_few s (v := { v with frame := s.gnss.measFrame }) hfew
    rw [hgnss, solved, hlimit]
    exact ⟨rfl, rfl⟩

/-! ## Bursts (R290, R291) -/

theorem burstStartCompletes (htrack : tracking s = true) (hmode : gnssMode s = 2) (hclock : clockOn s = true) :
    Completes .burstStart s fun t =>
      t.gnss = { s.gnss with burstBias := true } ∧ Only [.clk, .barr, .gnss] s t := by
  have hgo : ¬ (!tracking s || gnssMode s != 2 || !clockOn s) = true := by rw [htrack, hmode, hclock]; decide
  let k := s.clk.tb.toNat / ticksPerEpoch * ticksPerEpoch + 48000000
  have honly := only_advanceTo (if s.clk.tb.toNat ≤ k then k else k + ticksPerEpoch) s
  have hstep : burstStart s = (let u := advanceTo (if s.clk.tb.toNat ≤ k then k else k + ticksPerEpoch) s
      { u with gnss := { u.gnss with burstBias := true } }) := if_neg hgo
  generalize advanceTo (if s.clk.tb.toNat ≤ k then k else k + ticksPerEpoch) s = u at *
  have hgnss : u.gnss = s.gnss := honly .gnss (by simp)
  refine ⟨_, congrArg Host.Outcome.next hstep, ?_,
    only_trans (only_mono honly (by simp)) (only_mono (only_gnss _ u) (by simp))⟩
  rw [← hgnss]

theorem burstEndCompletes (v : GnssSol) (htrack : tracking s = true) (hbias : s.gnss.burstBias = true)
    (hclock : clockOn s = true) :
    let u := advanceTo (s.clk.tb.toNat / ticksPerEpoch * ticksPerEpoch + 48000000 +
      field (reg s 0x070000) 12 8 * 8000000) s
    Completes (.burstEnd v) s fun t =>
      t.gnss.burstBias = s.gnss.snapRun.isSome ∧ t.gnss.solTb = u.clk.tb ∧
      t.gnss.sol = some (limitFix s { v with frame := BitVec.ofNat 48 ((now u).toNat / 100000 * 100000) }) ∧
      Only [.free, .clk, .barr, .chain, .gnss, .canA, .ev, .sect] s t := by
  intro u
  have hgo : ¬ (!s.gnss.burstBias || !tracking s || !clockOn s) = true := by rw [htrack, hbias, hclock]; decide
  have honly : Only [.clk, .barr] s u := only_advanceTo _ s
  have hstep : burstEnd v s = takeSolution { v with frame := BitVec.ofNat 48 ((now u).toNat / 100000 * 100000) }
      { u with gnss := { u.gnss with burstBias := u.gnss.snapRun.isSome } } := if_neg hgo
  clear_value u
  have hgnss : u.gnss = s.gnss := honly .gnss (by simp)
  have hreg : reg u = reg s := reg_of_only honly (by simp) (by simp)
  let w : State := { u with gnss := { u.gnss with burstBias := u.gnss.snapRun.isSome } }
  obtain ⟨hsol, hrest⟩ := takeSolution_gnss { v with frame := BitVec.ofNat 48 ((now u).toNat / 100000 * 100000) } w
  have hw : Only [.gnss] u w := only_gnss _ u
  have hregw : reg w = reg s := (reg_of_only hw (by simp) (by simp)).trans hreg
  have hlimit (x : GnssSol) : limitFix w x = limitFix s x :=
    limitFix_of hregw (by change u.gnss.rtcmStale = _; rw [hgnss]) (by change u.gnss.msmFresh = _; rw [hgnss])
      (by change u.gnss.station = _; rw [hgnss]) x
  refine ⟨_, congrArg Host.Outcome.next hstep, ?_, ?_, ?_,
    only_trans (only_mono honly (by simp)) (only_trans (only_mono hw (by simp)) hrest)⟩
  · rw [hsol, ← hgnss]
    rfl
  · rw [hsol]
    rfl
  · rw [hsol, ← hlimit]
    rfl

/-! ## Corrections and the antenna (R283, R299, R307) -/

theorem rtcmStaleCompletes (hdom : domOn s 5 = true) : Completes .rtcmStale s fun t =>
    t.gnss.rtcmStale = true ∧ t.gnss.msmFresh = false ∧
    (∀ v, s.gnss.sol = some v → t.gnss.sol = some (if v.fix = 3 ∨ v.fix = 4 then { v with fix := sppFix v } else v)) ∧
    Only [.gnss] s t := by
  have hgo : ¬ (!domOn s 5) = true := by rw [hdom]; decide
  refine ⟨_, congrArg Host.Outcome.next (if_neg hgo), rfl, rfl, fun v hv => ?_, only_gnss _ s⟩
  rw [hv]
  simp

theorem antShortCompletes (hvar : s.id.variant = .g2) (hdom : domOn s 5 = true) (hbias : s.gnss.antBias = true) :
    Completes .antShort s fun t =>
      t.gnss = { s.gnss with antBias := false, antShort := true, antMa := 0, antOpen := true } ∧
      (s.ev.host.length < 64 → Held .host 0x0702 0xFF t) ∧ Only [.gnss, .barr, .ev] s t := by
  have hgo : (s.id.variant = .g2 && domOn s 5 && s.gnss.antBias) = true := by rw [hvar, hdom, hbias]; rfl
  refine ⟨_, congrArg Host.Outcome.next (if_pos hgo), by simp, fun hroom => held_note_host _ _ _ _ hroom,
    only_trans (only_mono (only_gnss _ s) (by simp)) (only_mono (only_note_host _ _ _ _ _) (by simp))⟩

theorem antOpenCompletes (hvar : s.id.variant = .g2) (hdom : domOn s 5 = true) (hbias : s.gnss.antBias = true) :
    Completes .antOpen s fun t =>
      t.gnss.antOpen = true ∧ t.gnss.antMa.toNat < 3 ∧ t.gnss.antBias = true ∧
      (s.ev.host.length < 64 → Held .host 0x0703 0xFF t) ∧ Only [.free, .gnss, .barr, .ev] s t := by
  have hgo : (s.id.variant = .g2 && domOn s 5 && s.gnss.antBias) = true := by rw [hvar, hdom, hbias]; rfl
  let u : State := draw { s with gnss := { s.gnss with
    antOpen := true, antMa := BitVec.ofNat 8 ((Config.freeReading s.free).toNat % 3) } }
  have hu : Only [.free, .gnss] s u := fun p hp => by cases p <;> simp_all [same, u, draw]
  have hgnss : (note .host 0x0703 1 0xFF [] u).gnss = u.gnss := by simp
  refine ⟨note .host 0x0703 1 0xFF [] u, congrArg Host.Outcome.next (if_pos hgo), ?_, ?_, ?_,
    fun hroom => held_note_host _ _ _ _ hroom,
    only_trans (only_mono hu (by simp)) (only_mono (only_note_host _ _ _ _ _) (by simp))⟩
  · rw [hgnss]
    rfl
  · rw [hgnss]
    have hlt : (Config.freeReading s.free).toNat % 3 < 3 := Nat.mod_lt _ (by decide)
    change (BitVec.ofNat 8 ((Config.freeReading s.free).toNat % 3)).toNat < 3
    rw [BitVec.toNat_ofNat, Nat.mod_eq_of_lt (by omega)]
    exact hlt
  · rw [hgnss]
    exact hbias

theorem timeDateMessage_aids (week : BitVec 16) (tow : Word) (hiso : isoRuns s = true) (hhead : isHead s = true)
    (hclaim : s.canA.claim = .claimed) (hnone : s.gnss.aidTime = none) :
    exec (.timeDateMessage week tow) s = .next { s with gnss := { s.gnss with
      aidTime := some ⟨week, tow, 1000000⟩, aidAt := s.clk.tb, aidMsg := true } } := by
  have hgo : (isoRuns s && isHead s && s.canA.claim = .claimed && (s.gnss.aidTime.isNone || s.gnss.aidMsg)) = true := by
    rw [hiso, hhead, hclaim, hnone]
    rfl
  exact congrArg Host.Outcome.next (if_pos hgo)

/-- Settles O45: a solution sets the fix and GNSS_TOFF, a burst biases the front end up to its solution, stale
corrections end RTK, and the antenna's faults are reported. -/
theorem solutionsBurstsAndTheAntenna : Obligations.SolutionsBurstsAndTheAntenna := by
  unfold Obligations.SolutionsBurstsAndTheAntenna
  intro s
  exact ⟨gnssSolutionCompletes, burstStartCompletes, burstEndCompletes, rtcmStaleCompletes,
    fun hvar hdom hbias => ⟨antShortCompletes hvar hdom hbias, antOpenCompletes hvar hdom hbias⟩,
    timeDateMessage_aids⟩

end Sys2Proof.Proofs

/-! Satellite requests: reports, aiding, corrections, snapshots and their solution (R287, R291 to R294, R298, R301,
R304, R306). -/

namespace Sys2Proof.Proofs

open Sys2Proof.Machine Sys2Proof.Safety Sys2Proof.Laws

variable {q : Request} {s t : State}

/-! ## Reports (R287, R301, R304) -/

theorem gnssGet_answers {a : Ans} (h : Accepted 0x48 q s) (hlen : (reqBody q).length = 0)
    (ha : inParts (gnssData s) = some a) : Answers (.gnssGet q) q s id a := by
  refine answers_of opGnssGet h (f := id) (hc := lenIs_of hlen) (hact := ?_)
  change (taken q s, inParts (gnssData (taken q s))) = _
  rw [taken_keep gnssData q s, ha]
  rfl

theorem baselineGet_answers {a : Ans} (h : Accepted 0x4F q s) (hlen : (reqBody q).length = 0)
    (ha : inParts (BitVec.ofNat 8 (baseList s).length :: (baseList s).flatMap baseBytes) = some a) :
    Answers (.baselineGet q) q s id a := by
  refine answers_of opBaselineGet h (f := id) (hc := lenIs_of hlen) (hact := ?_)
  change (taken q s, inParts (BitVec.ofNat 8 (baseList (taken q s)).length ::
    (baseList (taken q s)).flatMap baseBytes)) = _
  rw [taken_keep baseList q s, ha]
  rfl

theorem nmeaGet_empty (h : Accepted 0x4E q s) (hlen : (reqBody q).length = 1)
    (hsel : (byteAt (reqBody q) 0).toNat < 64) (hnone : s.gnss.sol = none ∨ byteAt (reqBody q) 0 = 0) :
    Answers (.nmeaGet q) q s id {} := by
  have hgnss : (taken q s).gnss = s.gnss := by simp
  refine answers_of opNmeaGet h (f := id) (hc := by simp [opNmeaGet, lenIs_of hlen, param, hsel]) (hact := ?_)
  change nmeaAct q (taken q s) = _
  unfold nmeaAct
  rw [hgnss]
  cases hsol : s.gnss.sol with
  | none => rfl
  | some v =>
    have hb : byteAt (reqBody q) 0 = 0 := hnone.resolve_left (by rw [hsol]; exact Option.some_ne_none v)
    have hkinds (w : GnssSol) : sentences 0 w = [] := rfl
    dsimp only
    rw [hb, hkinds]
    rfl

theorem nmeaGet_answers (h : Accepted 0x4E q s) (hlen : (reqBody q).length = 1)
    (hsel : (byteAt (reqBody q) 0).toNat < 64) {v : GnssSol} {p : List Byte} {ps : List (List Byte)}
    (hsol : s.gnss.sol = some v) :
    let w : GnssSol := if gnssMode s = 2 then { v with velE := 0x8000, velN := 0x8000, velU := 0x8000 } else v
    packParts ((sentences (byteAt (reqBody q) 0) w).map fun k => Config.nmeaText k (solFields w)) [] = p :: ps →
    Answers (.nmeaGet q) q s id { data := p, parts := ps } := by
  intro w hparts
  have hgnss : (taken q s).gnss = s.gnss := by simp
  refine answers_of opNmeaGet h (f := id) (hc := by simp [opNmeaGet, lenIs_of hlen, param, hsel]) (hact := ?_)
  change nmeaAct q (taken q s) = _
  unfold nmeaAct
  rw [hgnss, hsol, taken_keep gnssMode q s]
  dsimp only
  rw [hparts]
  cases ps <;> rfl

/-! ## Aiding (R306) -/

theorem gnssAidAct_ok {rs : List AidRec} (hrs : aidOf q = .ok rs) (hmeas : rs.any isMeas = false) :
    gnssAidAct q s = (rs.foldl (fun s r => aidAct r s)
      (if rs.any isBase then { s with gnss := { s.gnss with bases := [] } } else s), done []) := by
  unfold gnssAidAct
  rw [hrs]
  exact if_neg (by rw [hmeas]; simp)

theorem gnssAid_answers (h : Accepted 0x49 q s) (hcheck : gnssAidCheck q s = none) :
    (∀ x, aidOf q = .ok [.time x] → Answers (.gnssAid q) q s (fun u => { u with gnss := { u.gnss with
      aidTime := some x, aidAt := u.clk.tb, aidMsg := false } }) {}) ∧
    (∀ x, aidOf q = .ok [.pos x] → Answers (.gnssAid q) q s (fun u => { u with gnss := { u.gnss with
      aidPos := some x } }) {}) ∧
    (∀ x, aidOf q = .ok [.base x] → Answers (.gnssAid q) q s (fun u => { u with gnss := { u.gnss with
      bases := [x], baseTb := u.clk.tb } }) {}) ∧
    (∀ rs, aidOf q = .ok rs → rs.any isMeas = true → isHead s = false →
      Answers (.gnssAid q) q s id { status := 0x11, detail := 0x21 }) := by
  have hc : opGnssAid.check q (taken q s) = none := (taken_keep (gnssAidCheck q) q s).trans hcheck
  refine ⟨fun x hx => ?_, fun x hx => ?_, fun x hx => ?_, fun rs hrs hmeas hhead => ?_⟩
  · exact answers_of opGnssAid h (hc := hc) (hact := gnssAidAct_ok hx rfl)
  · exact answers_of opGnssAid h (hc := hc) (hact := gnssAidAct_ok hx rfl)
  · exact answers_of opGnssAid h (hc := hc) (hact := gnssAidAct_ok hx rfl)
  · refine answers_of opGnssAid h (f := id) (hc := hc) (hact := ?_)
    change gnssAidAct q (taken q s) = _
    unfold gnssAidAct
    rw [hrs]
    exact if_pos (by rw [hmeas, taken_keep isHead q s, hhead]; rfl)

/-! ## Corrections (R298, R299) -/

/-- What the receiver counts of corrections. -/
def rtcmCounts (s : State) : BitVec 16 × BitVec 16 × BitVec 16 := (s.gnss.rtcmAcc, s.gnss.rtcmIgn, s.gnss.rtcmBad)

theorem rtcmAct_keeps (m : List Byte) (s : State) :
    rtcmCounts (rtcmAct m s) = rtcmCounts s ∧ Only [.gnss] s (rtcmAct m s) := by
  unfold rtcmAct
  dsimp only
  split
  · exact ⟨rfl, only_gnss _ s⟩
  · split
    · exact ⟨rfl, only_gnss _ s⟩
    · split
      · exact ⟨rfl, only_gnss _ s⟩
      · exact ⟨rfl, only_refl _ s⟩

theorem rtcmActs_keep (l : List (List Byte)) (s : State) :
    rtcmCounts (l.foldl (fun s m => rtcmAct m s) s) = rtcmCounts s ∧
    Only [.gnss] s (l.foldl (fun s m => rtcmAct m s) s) := by
  induction l generalizing s with
  | nil => exact ⟨rfl, only_refl _ s⟩
  | cons m l ih =>
    obtain ⟨hcnt, honly⟩ := rtcmAct_keeps m s
    obtain ⟨hcnt', honly'⟩ := ih (rtcmAct m s)
    exact ⟨hcnt'.trans hcnt, only_trans honly honly'⟩

/-- A station position is kept, and one that has moved ends the fixed ambiguities. -/
theorem rtcmAct_station {m : List Byte} (hm : rtcmNumber m = 1005 ∨ rtcmNumber m = 1006) :
    (rtcmAct m s).gnss.station = some (Config.rtcmStation m) ∧
    (∀ v, s.gnss.sol = some v → v.fix = 4 → s.gnss.station.isSome = true →
      s.gnss.station ≠ some (Config.rtcmStation m) → (rtcmAct m s).gnss.sol = some { v with fix := 3 }) := by
  have hgo : (decide (rtcmNumber m = 1005) || decide (rtcmNumber m = 1006)) = true := by simpa using hm
  unfold rtcmAct
  dsimp only
  rw [if_pos hgo]
  refine ⟨rfl, fun v hv hfix hsome hne => ?_⟩
  obtain ⟨p, hp⟩ := Option.isSome_iff_exists.mp hsome
  have hmoved : s.gnss.station.any (· != Config.rtcmStation m) = true := by
    rw [hp] at hne ⊢
    simpa using hne
  dsimp only
  rw [hv, hmoved]
  simp [hfix]

/-- The corrections of a request, taken. -/
def corrected (q : Request) (s : State) : State :=
  let r := rtcmParse (reqBody q).length (reqBody q)
  let used := r.1.filter fun m => rtcmUsed (rtcmNumber m)
  let u := used.foldl (fun s m => rtcmAct m s) s
  { u with gnss := { u.gnss with
    rtcmAcc := satAdd u.gnss.rtcmAcc used.length, rtcmIgn := satAdd u.gnss.rtcmIgn (r.1.length - used.length)
    rtcmBad := satAdd u.gnss.rtcmBad r.2 } }

theorem rtcmInCompletes (h : Accepted 0x4A q s) (hdom : domOn s 5 = true) :
    let r := rtcmParse (reqBody q).length (reqBody q)
    let a := (r.1.filter fun m => rtcmUsed (rtcmNumber m)).length
    Completes (.rtcmIn q) s fun t =>
      t.gnss.rtcmAcc = satAdd s.gnss.rtcmAcc a ∧ t.gnss.rtcmIgn = satAdd s.gnss.rtcmIgn (r.1.length - a) ∧
      t.gnss.rtcmBad = satAdd s.gnss.rtcmBad r.2 ∧
      (∀ m, r.1 = [m] → rtcmNumber m = 1005 ∨ rtcmNumber m = 1006 →
        t.gnss.station = some (Config.rtcmStation m) ∧
        (∀ v, s.gnss.sol = some v → v.fix = 4 → s.gnss.station.isSome = true →
          s.gnss.station ≠ some (Config.rtcmStation m) → t.gnss.sol = some { v with fix := 3 })) ∧
      Answered q { data := be 2 a ++ be 2 (r.1.length - a) } t ∧ Served [.gnss] s t := by
  intro r a
  have hgnss : (taken q s).gnss = s.gnss := by simp
  obtain ⟨hcnt, honly⟩ := rtcmActs_keep (r.1.filter fun m => rtcmUsed (rtcmNumber m)) (taken q s)
  have hdom' : domOn ((r.1.filter fun m => rtcmUsed (rtcmNumber m)).foldl (fun s m => rtcmAct m s) (taken q s)) 5 =
      true := by
    have hpwr := honly .pwr (by simp)
    unfold domOn at *
    rw [hpwr]
    simpa using hdom
  have hact : opRtcmIn.act q (taken q s) = (corrected q (taken q s), done (be 2 a ++ be 2 (r.1.length - a))) := by
    change rtcmInAct q (taken q s) = _
    unfold rtcmInAct
    dsimp only
    rw [if_pos hdom']
    rfl
  have hreply : (reply q { data := be 2 a ++ be 2 (r.1.length - a) } (corrected q (taken q s))).gnss =
      (corrected q (taken q s)).gnss := by simp
  simp only [rtcmCounts, Prod.mk.injEq, hgnss] at hcnt
  obtain ⟨hacc, hign, hbad⟩ := hcnt
  refine completes_of opRtcmIn h rfl hact ⟨?_, ?_, ?_, fun m hm hnum => ?_, ⟨_, rfl⟩, served_answer q _ ?_⟩
  · rw [hreply, ← hacc]
    rfl
  · rw [hreply, ← hign]
    rfl
  · rw [hreply, ← hbad]
    rfl
  · have hused : r.1.filter (fun m => rtcmUsed (rtcmNumber m)) = [m] := by
      rw [hm]
      rcases hnum with hn | hn <;> simp [hn, rtcmUsed]
    have hone := rtcmAct_station (s := taken q s) hnum
    rw [hgnss] at hone
    have hfields : (corrected q (taken q s)).gnss.station = (rtcmAct m (taken q s)).gnss.station ∧
        (corrected q (taken q s)).gnss.sol = (rtcmAct m (taken q s)).gnss.sol := by
      have hu : (r.1.filter fun m => rtcmUsed (rtcmNumber m)).foldl (fun s m => rtcmAct m s) (taken q s) =
          rtcmAct m (taken q s) := by
        rw [hused]
        rfl
      rw [← hu]
      exact ⟨rfl, rfl⟩
    rw [hreply, hfields.1, hfields.2]
    exact hone
  · exact only_trans honly (only_gnss _ _)

/-! ## Snapshots (R291 to R294) -/

theorem snapCapture_answers (h : Accepted 0x4B q s) (hlen : (reqBody q).length = 2)
    (hband : inRange 1 3 (byteAt (reqBody q) 0).toNat = true)
    (hms : inRange 1 (if byteAt (reqBody q) 0 == 3 then 40 else 80) (byteAt (reqBody q) 1).toNat = true)
    (hstate : captureState s = none) (hbias : biased s = true) :
    Answers (.snapCapture q) q s (fun u => { u with gnss := { u.gnss with snapRun := some {
      bands := byteAt (reqBody q) 0, len := byteAt (reqBody q) 1
      tb := BitVec.ofNat 64 ((s.clk.tb.toNat + 799) / 800 * 800) } } }) {} := by
  have hclk : (taken q s).clk = s.clk := by simp
  have hc : opSnapCapture.check q (taken q s) = none := by
    change (lenIs 2 q <|> param _) = none
    rw [lenIs_of hlen, hband, hms]
    rfl
  refine answers_of opSnapCapture h (hc := hc) (hact := ?_)
  change snapCaptureAct q (taken q s) = _
  unfold snapCaptureAct
  rw [taken_keep captureState q s, hstate, taken_keep biased q s, hbias, ← hclk]
  simp only [Bool.not_true, Bool.and_false, Bool.false_eq_true, if_false]
  rfl

theorem advanceTo_origin (k : Nat) (s : State) : (advanceTo k s).clk.originId = s.clk.originId ∧
    (advanceTo k s).clk.originGps = s.clk.originGps := ⟨rfl, rfl⟩

theorem snapCaptureEndCompletes {r : SnapRun} (x : List Byte) (g1 g5 : BitVec 16) (hrun : s.gnss.snapRun = some r) :
    let u := advanceTo (r.tb.toNat + r.len.toNat * 800000) s
    Completes (.snapCaptureEnd x g1 g5) s fun t =>
      t.gnss = { s.gnss with snapRun := none, snap := writeBytes sramByte s.gnss.snap 0 (snapHeader r g1 g5 s ++
        x.take (12500 * r.len.toNat * (if r.bands == 3 then 2 else 1))) } ∧
      t.clk = u.clk ∧ Only [.clk, .barr, .gnss] s t := by
  intro u
  have honly : Only [.clk, .barr] s u := only_advanceTo _ s
  have horigin : u.clk.originId = s.clk.originId ∧ u.clk.originGps = s.clk.originGps := advanceTo_origin _ s
  have hstep : snapCaptureEnd x g1 g5 s = { u with gnss := { u.gnss with
      snapRun := none
      snap := writeBytes sramByte u.gnss.snap 0 (snapHeader r g1 g5 u ++
        x.take (12500 * r.len.toNat * (if r.bands == 3 then 2 else 1))) } } := by
    unfold snapCaptureEnd
    rw [hrun]
  clear_value u
  have hgnss : u.gnss = s.gnss := honly .gnss (by simp)
  have hheader : snapHeader r g1 g5 u = snapHeader r g1 g5 s := by
    unfold snapHeader
    rw [horigin.1, horigin.2]
  refine ⟨_, congrArg Host.Outcome.next hstep, ?_, rfl,
    only_trans (only_mono honly (by simp)) (only_mono (only_gnss _ u) (by simp))⟩
  rw [hheader, hgnss]

theorem snapXferAct_of (hdom : domOn s 7 = true) (hfree : byteAt (reqBody q) 0 = 0 ∨ s.gnss.snapRun = none) :
    snapXferAct q s = if byteAt (reqBody q) 0 == 1 then
      ({ s with gnss := { s.gnss with
        snap := writeBytes sramByte s.gnss.snap (beAt (reqBody q) 1 4) ((reqBody q).drop 5) } }, done [])
      else (s, done (readBytes sramByte s.gnss.snap (beAt (reqBody q) 1 4) (beAt (reqBody q) 5 2))) := by
  have hgo : ¬ ((byteAt (reqBody q) 0 == 1) && s.gnss.snapRun.isSome) = true := by
    rcases hfree with hf | hf <;> rw [hf] <;> simp
  unfold snapXferAct
  dsimp only
  rw [if_neg hgo, if_pos hdom]
  rfl

theorem snapXfer_answers (h : Accepted 0x4C q s) (hcheck : snapXferCheck q s = none) (hdom : domOn s 7 = true) :
    (byteAt (reqBody q) 0 = 0 → Answers (.snapXfer q) q s id
      { data := readBytes sramByte s.gnss.snap (beAt (reqBody q) 1 4) (beAt (reqBody q) 5 2) }) ∧
    (byteAt (reqBody q) 0 = 1 → s.gnss.snapRun = none → Answers (.snapXfer q) q s (fun u => { u with
      gnss := { u.gnss with
        snap := writeBytes sramByte u.gnss.snap (beAt (reqBody q) 1 4) ((reqBody q).drop 5) } }) {}) ∧
    (byteAt (reqBody q) 0 = 1 → s.gnss.snapRun.isSome = true → Answers (.snapXfer q) q s id { status := 0x11 }) := by
  have hc : opSnapXfer.check q (taken q s) = none := (taken_keep (snapXferCheck q) q s).trans hcheck
  have hgnss : (taken q s).gnss = s.gnss := by simp
  have hdom' : domOn (taken q s) 7 = true := (taken_keep (domOn · 7) q s).trans hdom
  refine ⟨fun hb => ?_, fun hb hrun => ?_, fun hb hrun => ?_⟩
  · refine answers_of opSnapXfer h (f := id) (hc := hc) (hact := (snapXferAct_of hdom' (.inl hb)).trans ?_)
    rw [if_neg (by rw [hb]; decide), hgnss]
    rfl
  · refine answers_of opSnapXfer h (hc := hc)
      (hact := (snapXferAct_of hdom' (.inr (by rw [hgnss]; exact hrun))).trans ?_)
    rw [if_pos (by rw [hb]; decide)]
    rfl
  · refine answers_of opSnapXfer h (f := id) (hc := hc) (hact := ?_)
    change snapXferAct q (taken q s) = _
    unfold snapXferAct
    dsimp only
    rw [hgnss, hb, hrun]
    rfl

theorem snapSolve_starts (h : Accepted 0x4D q s) (hlen : (reqBody q).length = 0) (hrun : s.gnss.snapRun = none)
    (h5 : domOn s 5 = true) (h7 : domOn s 7 = true)
    (htime : s.clk.originGps = true ∧ s.clk.valid = true ∨ s.gnss.aidTime.isSome = true) :
    (s.gnss.solve = none →
      exec (.snapSolve q) s = .next { taken q s with gnss := { s.gnss with solve := some q } }) ∧
    (s.gnss.solve.isSome = true → Answers (.snapSolve q) q s id { status := 0x40 }) := by
  have hgnss : (taken q s).gnss = s.gnss := by simp
  have hclk : (taken q s).clk = s.clk := by simp
  have h5' : domOn (taken q s) 5 = true := (taken_keep (domOn · 5) q s).trans h5
  have h7' : domOn (taken q s) 7 = true := (taken_keep (domOn · 7) q s).trans h7
  have hact : opSnapSolve.act q (taken q s) = snapSolveAct q (taken q s) := rfl
  have hgo : ¬ (!(s.clk.originGps && s.clk.valid) && s.gnss.aidTime.isNone) = true := by
    rcases htime with ⟨ho, hv⟩ | ha
    · rw [ho, hv]
      simp
    · rw [← Option.not_isSome, ha]
      simp
  unfold snapSolveAct at hact
  rw [hgnss, hclk, hrun, h5', h7', if_neg (by decide), if_neg hgo] at hact
  refine ⟨fun hnone => ?_, fun hsome => ?_⟩
  · rw [hnone] at hact
    rw [← hgnss]
    exact exec_later opSnapSolve h (lenIs_of hlen) hact
  · rw [hsome] at hact
    exact answers_of opSnapSolve h (f := id) (hc := lenIs_of hlen) (hact := hact)

theorem snapSolveDone_answers (v : SnapSol) (hsolve : s.gnss.solve = some q) :
    exec (.snapSolveDone v) s = .next (reply q { data := snapBytes v }
      { s with gnss := { s.gnss with solve := none } }) := by
  change execSnapSolveDone v s = _
  unfold execSnapSolveDone
  rw [hsolve]

/-- Settles O46: the satellite commands report, aid, correct, capture and solve. -/
theorem gnssRequestsAreServed : Obligations.GnssRequestsAreServed := by
  unfold Obligations.GnssRequestsAreServed
  intro q s
  exact ⟨fun a => gnssGet_answers,
    fun h hlen hsel => ⟨nmeaGet_empty h hlen hsel, fun v p ps => nmeaGet_answers h hlen hsel⟩,
    fun a => baselineGet_answers, gnssAid_answers, rtcmInCompletes, snapCapture_answers,
    fun r x g1 g5 => snapCaptureEndCompletes x g1 g5, snapXfer_answers, snapSolve_starts, snapSolveDone_answers⟩

end Sys2Proof.Proofs

/-! What the obligation on baselines rests on: a BASE record read back from its bytes (R306), the signals that a slip
removes from a pair (R305), and a broadcast of the head's own planner that the chain arena lets through (R450). -/

namespace Sys2Proof.Proofs

open Sys2Proof.Machine Sys2Proof.Safety Sys2Proof.Laws

variable {s t u : State}

/-! ## Bytes of a number, read back (R122) -/

theorem length_be (n x : Nat) : (be n x).length = n := by
  induction n with
  | zero => rfl
  | succ n ih => rw [be, List.length_cons, ih]

theorem foldl_be (n x a : Nat) : (be n x).foldl (fun a b => a * 256 + b.toNat) a = a * 256 ^ n + x % 256 ^ n := by
  induction n generalizing a with
  | zero => simp [be, Nat.mod_one]
  | succ n ih =>
    have hbyte : (BitVec.ofNat 8 (x >>> (8 * n))).toNat = x / 256 ^ n % 256 := by
      rw [BitVec.toNat_ofNat, Nat.shiftRight_eq_div_pow, Nat.pow_mul]
    rw [be, List.foldl_cons, ih, hbyte, Nat.mod_pow_succ, Nat.pow_succ]
    ring

theorem ofBe_be (n x : Nat) : ofBe (be n x) = x % 256 ^ n := by
  have h := foldl_be n x 0
  rwa [Nat.zero_mul, Nat.zero_add] at h

/-- A field of n whole bytes. -/
theorem ofNat_ofBe_be (n : Nat) (x : BitVec (8 * n)) : BitVec.ofNat (8 * n) (ofBe (be n x.toNat)) = x := by
  have hlt : x.toNat < 256 ^ n := by
    have h := x.isLt
    rwa [Nat.pow_mul] at h
  rw [ofBe_be, Nat.mod_eq_of_lt hlt, BitVec.ofNat_toNat, BitVec.setWidth_eq]

/-- The bytes of a BASE record of GNSS_AID. -/
def aidBase (x : BaseRec) : List Byte := 6 :: baseBytes x

theorem length_aidBase (x : BaseRec) : (aidBase x).length = 28 := by
  simp [aidBase, baseBytes, length_be]

theorem aidRec_base (src : BitVec 16) {x : BaseRec} (hstatus : x.status.toNat ≤ 2) :
    aidRec src (aidBase x) = some (.base x) := by
  have hA : BitVec.ofNat 16 (beAt (aidBase x) 2 2) = x.nodeA := ofNat_ofBe_be 2 x.nodeA
  have hB : BitVec.ofNat 16 (beAt (aidBase x) 4 2) = x.nodeB := ofNat_ofBe_be 2 x.nodeB
  have hf : BitVec.ofNat 48 (beAt (aidBase x) 6 6) = x.frame := ofNat_ofBe_be 6 x.frame
  have he : wordAt (aidBase x) 12 = x.east := ofNat_ofBe_be 4 x.east
  have hn : wordAt (aidBase x) 16 = x.north := ofNat_ofBe_be 4 x.north
  have hu : wordAt (aidBase x) 20 = x.up := ofNat_ofBe_be 4 x.up
  have hH : BitVec.ofNat 16 (beAt (aidBase x) 24 2) = x.sigmaH := ofNat_ofBe_be 2 x.sigmaH
  have hV : BitVec.ofNat 16 (beAt (aidBase x) 26 2) = x.sigmaV := ofNat_ofBe_be 2 x.sigmaV
  have hrec : aidRec src (aidBase x) = if x.status.toNat ≤ 2 then
      some (.base { status := x.status, nodeA := BitVec.ofNat 16 (beAt (aidBase x) 2 2)
                    nodeB := BitVec.ofNat 16 (beAt (aidBase x) 4 2), frame := BitVec.ofNat 48 (beAt (aidBase x) 6 6)
                    east := wordAt (aidBase x) 12, north := wordAt (aidBase x) 16, up := wordAt (aidBase x) 20
                    sigmaH := BitVec.ofNat 16 (beAt (aidBase x) 24 2)
                    sigmaV := BitVec.ofNat 16 (beAt (aidBase x) 26 2) }) else none := rfl
  rw [hrec, if_pos hstatus, hA, hB, hf, he, hn, hu, hH, hV]

/-- A BASE record at the head of a payload is read, and the rest after it. -/
theorem aidRecs_base (src : BitVec 16) (f : Nat) {x : BaseRec} (hstatus : x.status.toNat ≤ 2) {rest : List Byte}
    {rs : List AidRec} (hrest : aidRecs src f rest = .ok rs) :
    aidRecs src (f + 1) (aidBase x ++ rest) = .ok (.base x :: rs) := by
  have htake : (aidBase x ++ rest).take 28 = aidBase x := List.take_left' (length_aidBase x)
  have hdrop : (aidBase x ++ rest).drop 28 = rest := List.drop_left' (length_aidBase x)
  have hlen : ¬ ((decide ((aidBase x ++ rest).length < 28) ||
      (byteAt (aidBase x ++ rest) 0 == 5 && decide ((aidBase x ++ rest).length < 11))) = true) := by
    rw [List.length_append, length_aidBase]
    have h5 : (byteAt (aidBase x ++ rest) 0 == 5) = false := rfl
    rw [h5, Bool.false_and, Bool.or_false, decide_eq_true_iff]
    omega
  have hread : aidRecs src (f + 1) (aidBase x ++ rest) =
      if (decide ((aidBase x ++ rest).length < 28) ||
        (byteAt (aidBase x ++ rest) 0 == 5 && decide ((aidBase x ++ rest).length < 11))) = true then .error 0x22
      else match aidRec src ((aidBase x ++ rest).take 28), aidRecs src f ((aidBase x ++ rest).drop 28) with
        | none, _ => .error 0x21
        | _, .error e => .error e
        | some x, .ok xs => .ok (x :: xs) := rfl
  rw [hread, if_neg hlen, htake, hdrop, aidRec_base src hstatus, hrest]

theorem aidRecs_bases (src : BitVec 16) (f : Nat) {x y : BaseRec} (hx : x.status.toNat ≤ 2) (hy : y.status.toNat ≤ 2) :
    aidRecs src (f + 2) (aidBase x ++ aidBase y) = .ok [.base x, .base y] := by
  have hnil : aidRecs src f [] = .ok [] := by cases f <;> rfl
  have hone := aidRecs_base src f hy hnil
  rw [List.append_nil] at hone
  exact aidRecs_base src (f + 1) hx hone

/-! ## Slips (R305) -/

/-- A pair's signal is removed until a measurement frame within 10 s after f. -/
def Removed (f : Frame48) (a c : BitVec 16) (g : Byte × Nat) (l : List SlipSig) : Prop :=
  ∃ x ∈ l, slipOf a c x = true ∧ x.sat = g.1 ∧ x.signal = g.2 ∧
    0 < frameDiff x.fixFrame f ∧ frameDiff x.fixFrame f ≤ 10000000

/-- A signal of a pair that slips. -/
def slip (f : Frame48) (a c : BitVec 16) (s : State) (g : Byte × Nat) : State :=
  let fixed := f + BitVec.ofNat 48 ((1 + (Config.freeReading s.free).toNat % 100) * 100000)
  let keep := s.gnss.slips.filter fun x => !(slipOf a c x && x.sat == g.1 && x.signal = g.2)
  draw { s with gnss := { s.gnss with slips := keep ++ [⟨a, c, g.1, g.2, fixed⟩] } }

/-- The slips that last beyond frame f. -/
def lasting (f : Frame48) (l : List SlipSig) : List SlipSig := l.filter fun x => decide (0 < frameDiff x.fixFrame f)

theorem removeSlips_eq (f : Frame48) (a c : MeasRec) (s : State) : removeSlips f a c s =
    (slipped a c).foldl (slip f a.src c.src) { s with gnss := { s.gnss with slips := lasting f s.gnss.slips } } := rfl

theorem slipOf_comm (a c : BitVec 16) (x : SlipSig) : slipOf a c x = slipOf c a x := Bool.or_comm _ _

theorem Removed.symm {f : Frame48} {a c : BitVec 16} {g : Byte × Nat} {l : List SlipSig} (h : Removed f a c g l) :
    Removed f c a g l := by
  obtain ⟨x, hx, hof, hrest⟩ := h
  exact ⟨x, hx, (slipOf_comm c a x).trans hof, hrest⟩

theorem frameDiff_add (f : Frame48) {n : Nat} (hn : n ≤ 10000000) : frameDiff (f + BitVec.ofNat 48 n) f = n := by
  have hsub : f + BitVec.ofNat 48 n - f = BitVec.ofNat 48 n := by rw [BitVec.add_comm, BitVec.add_sub_cancel]
  rw [frameDiff, hsub, BitVec.toInt_eq_toNat_of_lt] <;> rw [BitVec.toNat_ofNat, Nat.mod_eq_of_lt (by omega)]
  omega

theorem slip_removed (f : Frame48) (a c : BitVec 16) (g : Byte × Nat) (s : State) :
    Removed f a c g (slip f a c s g).gnss.slips := by
  have hlt : (Config.freeReading s.free).toNat % 100 < 100 := Nat.mod_lt _ (by decide)
  refine ⟨⟨a, c, g.1, g.2, f + BitVec.ofNat 48 ((1 + (Config.freeReading s.free).toNat % 100) * 100000)⟩,
    List.mem_append_right _ List.mem_cons_self, by simp [slipOf], rfl, rfl, ?_, ?_⟩
  all_goals
    rw [frameDiff_add f (by omega)]
    omega

theorem slip_keeps {f : Frame48} {a c : BitVec 16} {g : Byte × Nat} (h : Removed f a c g s.gnss.slips)
    (g' : Byte × Nat) : Removed f a c g (slip f a c s g').gnss.slips := by
  obtain ⟨x, hx, hof, hsat, hsig, hfix⟩ := h
  by_cases hsame : g = g'
  · subst hsame
    exact slip_removed f a c g s
  · refine ⟨x, List.mem_append_left _ (List.mem_filter.mpr ⟨hx, ?_⟩), hof, hsat, hsig, hfix⟩
    have hne : ¬ (x.sat = g'.1 ∧ x.signal = g'.2) := fun h =>
      hsame (Prod.ext (hsat.symm.trans h.1) (hsig.symm.trans h.2))
    rw [hof]
    simpa using not_and_or.mp hne

theorem slips_keep {f : Frame48} {a c : BitVec 16} {g : Byte × Nat} (l : List (Byte × Nat))
    (h : Removed f a c g s.gnss.slips) : Removed f a c g (l.foldl (slip f a c) s).gnss.slips := by
  induction l generalizing s with
  | nil => exact h
  | cons g' l ih => exact ih (slip_keeps h g')

theorem slips_removed {f : Frame48} {a c : BitVec 16} {g : Byte × Nat} {l : List (Byte × Nat)} (hg : g ∈ l)
    (s : State) : Removed f a c g (l.foldl (slip f a c) s).gnss.slips := by
  induction l generalizing s with
  | nil => exact absurd hg (by simp)
  | cons g' l ih =>
    rcases List.mem_cons.mp hg with rfl | hg
    · exact slips_keep l (slip_removed f a c g s)
    · exact ih hg _

theorem removeSlips_removed {f : Frame48} {a c : MeasRec} {g : Byte × Nat} (hg : g ∈ slipped a c) (s : State) :
    Removed f a.src c.src g (removeSlips f a c s).gnss.slips := slips_removed hg _

theorem removeSlips_keeps {f : Frame48} {a c : MeasRec} {g : Byte × Nat} (h : Removed f a.src c.src g s.gnss.slips) :
    Removed f a.src c.src g (removeSlips f a c s).gnss.slips := by
  obtain ⟨x, hx, hof, hsat, hsig, hfix⟩ := h
  rw [removeSlips_eq]
  exact slips_keep _ ⟨x, List.mem_filter.mpr ⟨hx, by simpa using hfix.1⟩, hof, hsat, hsig, hfix⟩

theorem slips_gnss (f : Frame48) (a c : BitVec 16) (l : List (Byte × Nat)) (s : State) :
    (l.foldl (slip f a c) s).gnss.bases = s.gnss.bases ∧ (l.foldl (slip f a c) s).gnss.measHeld = s.gnss.measHeld ∧
    Only [.free, .gnss] s (l.foldl (slip f a c) s) := by
  induction l generalizing s with
  | nil => exact ⟨rfl, rfl, only_refl _ s⟩
  | cons g l ih =>
    obtain ⟨hbases, hheld, honly⟩ := ih (slip f a c s g)
    have hone : Only [.free, .gnss] s (slip f a c s g) := fun p hp => by cases p <;> simp_all [same, slip, draw]
    exact ⟨hbases, hheld, only_trans hone honly⟩

theorem removeSlips_gnss (f : Frame48) (a c : MeasRec) (s : State) :
    (removeSlips f a c s).gnss.bases = s.gnss.bases ∧ (removeSlips f a c s).gnss.measHeld = s.gnss.measHeld ∧
    Only [.free, .gnss] s (removeSlips f a c s) := by
  rw [removeSlips_eq]
  obtain ⟨hbases, hheld, honly⟩ := slips_gnss f a.src c.src (slipped a c)
    { s with gnss := { s.gnss with slips := lasting f s.gnss.slips } }
  exact ⟨hbases, hheld, only_trans (only_mono (only_gnss _ s) (by simp)) honly⟩

theorem removeSlips_none {f : Frame48} {a c : MeasRec} (h : slipped a c = []) (s : State) :
    (removeSlips f a c s).gnss.slips = lasting f s.gnss.slips := by
  rw [removeSlips_eq, h]
  rfl

theorem lasting_lasting (f : Frame48) (l : List SlipSig) : lasting f (lasting f l) = lasting f l := by
  simp [lasting, List.filter_filter]

/-! ## A broadcast of the head's own planner (R128, R450) -/

/-- A packet of class c that fits its share leaves at once while no link time is booked. -/
theorem chainArena_now {q : Request} (huse : s.pkt.linkUse = []) (hcls : q.pkt.cls = 1)
    (hticks : linkTicks q ≤ linkShare 1 s) (hfits : linkTicks q ≤ 800000) :
    ∃ w, chainArena q s = (.now, w) ∧ Only [.pkt] s w := by
  have hused (i : Nat) : linkUsed i s = [0, 0, 0, 0] := by simp [linkUsed, huse, findKey]
  have hfit : linkFits (s.clk.tb.toNat / 800000 + 0) 1 (linkTicks q) s = true := by
    simp [linkFits, hused, hticks, hfits]
  have hfind : (List.range 1001).find? (fun k => linkFits (s.clk.tb.toNat / 800000 + k) 1 (linkTicks q) s) =
      some 0 := by
    rw [List.range_succ_eq_map]
    exact List.find?_cons_of_pos (p := fun k => linkFits (s.clk.tb.toNat / 800000 + k) 1 (linkTicks q) s) hfit
  have hc : q.pkt.cls.toNat = 1 := by rw [hcls]; rfl
  unfold chainArena
  dsimp only
  rw [hc, if_neg (by decide), hfind]
  refine ⟨_, rfl, fun p hp => ?_⟩
  cases p <;> simp_all [same, bookLink]

end Sys2Proof.Proofs

/-! Baselines and time marks (R296, R297, R302, R303, R305). -/

namespace Sys2Proof.Proofs

open Sys2Proof.Machine Sys2Proof.Safety Sys2Proof.Laws

variable {s t u : State}

/-! ## MEAS_SEND (R302) -/

theorem length_flatMap {α : Type} {f : α → List Byte} {k : Nat} (hf : ∀ a, (f a).length = k) (l : List α) :
    (l.flatMap f).length = k * l.length := by
  induction l with
  | nil => rfl
  | cons a l ih =>
    rw [List.flatMap_cons, List.length_append, hf, ih, List.length_cons, Nat.mul_succ, Nat.add_comm]

theorem length_measBytes (m : MeasRec) : (measBytes m).length = 11 + 10 * m.sigs.length := by
  have hsig (g : MeasSig) : ([g.sat, g.flags, g.cn0] ++ be 4 g.phase.toNat ++ be 3 g.range.toNat).length = 10 := by
    simp [length_be]
  unfold measBytes
  rw [List.length_append, length_flatMap hsig]
  simp [length_be]

/-- A record that fits one packet goes to the head in one. -/
theorem measSend_one (hpart : takesPart s = true) (hrun : hcoreRuns s = true) (hhead : isHead s = false)
    (hmeas : s.gnss.meas ≠ []) (hlen : s.gnss.meas.length ≤ 22) (hage : frameDiff (now s) s.gnss.measFrame ≤ 5000) :
    ∃ p : Packet, p.opcode = 0x49 ∧ p.dest = s.chain.headAddr ∧ p.cls = 1 ∧ p.more = false ∧
      p.payload = measBytes (ownMeas s) ∧
      exec .measSend s = .next (queueUp (upFrame 6 p (draw s)) (draw s)) := by
  have hgo : ¬ (!(takesPart s && hcoreRuns s && !isHead s && !s.gnss.meas.isEmpty &&
      decide (frameDiff (now s) s.gnss.measFrame ≤ 5000))) = true := by
    simp [hpart, hrun, hhead, hmeas, hage]
  have hbytes : (measBytes (ownMeas s)).length ≤ 232 := by
    have hsigs : (ownMeas s).sigs = s.gnss.meas := rfl
    rw [length_measBytes, hsigs]
    omega
  have hpiece : chunks 232 16 (measBytes (ownMeas s)) = [measBytes (ownMeas s)] :=
    chunks_one (List.ne_nil_of_length_pos (by rw [length_measBytes]; omega)) hbytes
  have hstep : exec .measSend s = .next (measSend s) := rfl
  unfold measSend at hstep
  rw [if_neg hgo, hpiece] at hstep
  exact ⟨_, rfl, rfl, rfl, rfl, rfl, hstep⟩

/-! ## The head's baselines (R303, R305) -/

/-- The record of a pair, as the head reports it. -/
def reported (x y : MeasRec) (v : State) (b : BaseRec) : BaseRec :=
  { b with status := if b.status = 2 ∧ (unslipped x y v).length < 5 then 1 else b.status }

section Pair

variable {b : BaseRec} {a c : MeasRec} (hac : a.partner = c.src) (hca : c.partner = a.src)
  (hlt : a.src.toNat < c.src.toNat)

include hlt in
theorem src_ne : a.src ≠ c.src := fun h => Nat.lt_irrefl _ (h ▸ hlt)

include hac hlt in
theorem partner_lower : partnerRec [a, c] a = some c := by
  have hne : (a.src == c.src) = false := by simpa using src_ne hlt
  simp [partnerRec, List.find?, hac, hne]

include hca in
theorem partner_upper : partnerRec [a, c] c = some a := by
  simp [partnerRec, List.find?, hca]

include hac hca hlt in
/-- The vector of a pair is found for its lower address, and turned for the other. -/
theorem pairBase_both (hA : b.nodeA = a.src) (hB : b.nodeB = c.src) :
    pairBase [b] a c = some b ∧ pairBase [b] c a = some (mirrorBase b) := by
  have hne := src_ne hlt
  have hge : ¬ c.src.toNat < a.src.toNat := Nat.not_lt.mpr (Nat.le_of_lt hlt)
  constructor
  · simp [pairBase, hca, hlt, List.find?, hA, hB]
  · simp [pairBase, hac, hge, List.find?, hA, hB, hne.symm]

theorem baseRecord_of {x y : MeasRec} {ms : List MeasRec} {recs : List BaseRec} {r : BaseRec} (v : State)
    (hpartner : partnerRec ms x = some y) (hpair : pairBase recs x y = some r) (hframe : r.frame = b.frame) :
    baseRecord b.frame recs ms v x = if solvable x y = true then some (reported x y v r) else none := by
  unfold baseRecord
  rw [hpartner]
  dsimp only
  rw [hpair, ← hframe]
  cases solvable x y
  · rfl
  · simp [reported]

/-- The state after the slips of a pair were taken from it, both ways. -/
def unpaired (b : BaseRec) (a c : MeasRec) (s : State) : State :=
  removeSlips b.frame c a (removeSlips b.frame a c s)

/-- The records of a frame are done with. -/
def spent (f : Frame48) (s : State) : State :=
  { s with gnss := { s.gnss with measHeld := s.gnss.measHeld.filter fun m => decide (0 < frameDiff m.frame f) } }

/-- The head's broadcast of the records that stand in a payload. -/
def baseRequest (payload : List Byte) (s : State) : Request :=
  let q := plannerRequest 0x49 false 0 payload s
  { q with pkt := { q.pkt with cls := 1 }, parts := [] }

theorem unpaired_gnss (b : BaseRec) (a c : MeasRec) (s : State) : (unpaired b a c s).gnss.bases = s.gnss.bases ∧
    (unpaired b a c s).gnss.measHeld = s.gnss.measHeld ∧ Only [.free, .gnss] s (unpaired b a c s) := by
  obtain ⟨hbases, hheld, honly⟩ := removeSlips_gnss b.frame a c s
  obtain ⟨hbases', hheld', honly'⟩ := removeSlips_gnss b.frame c a (removeSlips b.frame a c s)
  exact ⟨hbases'.trans hbases, hheld'.trans hheld, only_trans honly honly'⟩

theorem unpaired_slips (b : BaseRec) (a c : MeasRec) (s : State) :
    (slipped a c = [] → slipped c a = [] → (unpaired b a c s).gnss.slips = lasting b.frame s.gnss.slips) ∧
    ∀ g ∈ slipped a c, Removed b.frame a.src c.src g (unpaired b a c s).gnss.slips := by
  refine ⟨fun hac hca => ?_, fun g hg => ?_⟩
  · unfold unpaired
    rw [removeSlips_none hca, removeSlips_none hac, lasting_lasting]
  · exact (removeSlips_keeps (removeSlips_removed hg s).symm).symm

include hac hca hlt in
theorem baselineCompute_pair (hhead : isHead s = true) (hisland : s.chain.island = false) (hrun : hcoreRuns s = true)
    (hms : participants b.frame s = [a, c]) (hA : b.nodeA = a.src) (hB : b.nodeB = c.src) :
    (solvable a c = false → solvable c a = false →
      baselineCompute [b] s = spent b.frame (unpaired b a c s)) ∧
    (solvable a c = true → solvable c a = true → baselineCompute [b] s =
      serve opGnssAid (baseRequest (aidBase (reported a c (unpaired b a c s) b) ++
        aidBase (reported c a (unpaired b a c s) (mirrorBase b))) (spent b.frame (unpaired b a c s)))
        (draw (spent b.frame (unpaired b a c s)))) := by
  have hgo : ¬ (!(isHead s && !s.chain.island && hcoreRuns s)) = true := by rw [hhead, hisland, hrun]; decide
  obtain ⟨hpac, hpca⟩ := pairBase_both hac hca hlt hA hB
  have hframe : [b].filter (fun x => x.frame == b.frame) = [b] := by simp
  have hra (v : State) := baseRecord_of (b := b) v (partner_lower hac hlt) hpac rfl
  have hrc (v : State) := baseRecord_of (b := b) v (partner_upper hca) hpca rfl
  unfold baselineCompute
  rw [if_neg hgo]
  simp -zeta only [List.head?_cons]
  extract_lets all u ms slip v good g w ps q
  have hall : all = [a, c] := hms
  have hu : u = s := if_neg (by rw [hall]; simp)
  have hpair : ms = [a, c] := by
    unfold ms
    rw [hall]
    rfl
  have hv : v = unpaired b a c s := by
    unfold v
    rw [hu, hpair, List.foldl_cons, List.foldl_cons, List.foldl_nil]
    simp only [slip, hpair, partner_lower hac hlt, partner_upper hca]
    rfl
  have hgood : good = [a, c].filterMap (baseRecord b.frame [b] [a, c] v) := by
    unfold good
    rw [hpair, hframe]
  have hw : w = spent b.frame v := rfl
  clear_value v good
  subst hv
  refine ⟨fun hna hnc => ?_, fun hya hyc => ?_⟩
  · have hnone : good.isEmpty = true := by
      rw [hgood]
      simp [hra, hrc, hna, hnc]
    exact if_pos hnone
  · have hboth : good = [reported a c (unpaired b a c s) b, reported c a (unpaired b a c s) (mirrorBase b)] := by
      rw [hgood]
      simp [hra, hrc, hya, hyc]
    have hps : ps = [aidBase (reported a c (unpaired b a c s) b) ++
        aidBase (reported c a (unpaired b a c s) (mirrorBase b))] := by
      unfold ps
      rw [hboth]
      refine (chunks_one (by simp) ?_).trans ?_
      · simp [List.flatMap, baseBytes, length_be]
      · simp [List.flatMap, aidBase]
    have hsome : ¬ good.isEmpty = true := by
      rw [hboth]
      simp
    rw [if_neg hsome]
    clear_value w ps
    subst hw hps
    rfl

end Pair

/-! ### The broadcast acts at the head that sends it (R306, R450) -/

theorem linkTicks_baseRequest (l : List Byte) (z : State) : linkTicks (baseRequest l z) = (l.length + 33) * 20 := by
  simp [linkTicks, partPackets, baseRequest, plannerRequest]

/-- The planner's broadcast is taken in where no request is remembered. -/
theorem takeIn_baseRequest {l : List Byte} {w : State} (z : State) (next : State → State) (hlen : l.length ≤ 232)
    (hdups : w.pkt.dups = []) :
    takeIn (baseRequest l z) next w = next (remember (baseRequest l z) w) := by
  have hformat : checkFormat (baseRequest l z) = none := by
    have hlong : ¬ 232 < l.length := Nat.not_lt.mpr hlen
    simp [checkFormat, baseRequest, plannerRequest, hlong]
  have hother : otherChain (baseRequest l z) w = false := by
    simp [otherChain, baseRequest, plannerRequest, fromOutside]
  have hnot : notHead (baseRequest l z) w = false := by simp [notHead, baseRequest, plannerRequest, fromOutside]
  have hfor : forOther (baseRequest l z) w = false := by simp [forOther, baseRequest, plannerRequest, fromOutside]
  simp only [takeIn, hformat, hother, hnot, hfor, hdups, List.find?_nil, Bool.false_eq_true, if_false]
  rfl

theorem vet_baseRequest {l : List Byte} {w : State} (z : State) (hloam : w.modes.mode = .loam)
    (hlife : w.sec.life ≠ .retired) (hcheck : gnssAidCheck (baseRequest l z) w = none) :
    vet opGnssAid (baseRequest l z) w = none := by
  have hmode : checkMode { b := true, m := true } w = none := by
    unfold checkMode
    rw [hloam]
  have hlive : checkLife 0x49 w = none := by simp [checkLife, hlife]
  simp only [vet, opGnssAid, opInfo, hmode, hlive, hcheck]
  rfl

/-- What serving the planner's broadcast leaves of the receiver, where its action answers DONE. -/
theorem actOn_baseRequest {l : List Byte} {f : State → Gnss} (z v : State)
    (hact : ∀ v, gnssAidAct (baseRequest l z) v = ({ v with gnss := f v }, done []))
    (howe : ∀ v d, f { v with pkt := d } = f v) : (actOn opGnssAid (baseRequest l z) v).gnss = f v := by
  have hpkt : ∃ d, owe (baseRequest l z) v = { v with pkt := d } := by
    unfold owe
    split <;> exact ⟨_, rfl⟩
  obtain ⟨d, hd⟩ := hpkt
  have hdo : actNow opGnssAid (baseRequest l z) (owe (baseRequest l z) v) =
      gnssAidAct (baseRequest l z) (owe (baseRequest l z) v) := rfl
  unfold actOn
  rw [hdo, hact, hd, howe]
  simp only [done, opGnssAid]
  simp [closeWindow]

/-- A broadcast of two BASE records acts at the head that sends it. -/
theorem serve_bases {x y : BaseRec} {w z : State} (hrun : hcoreRuns w = true) (hloam : w.modes.mode = .loam)
    (hlife : w.sec.life ≠ .retired) (hdups : w.pkt.dups = []) (huse : w.pkt.linkUse = [])
    (hshare : 1780 ≤ linkShare 1 w) (hx : x.status.toNat ≤ 2) (hy : y.status.toNat ≤ 2) :
    (serve opGnssAid (baseRequest (aidBase x ++ aidBase y) z) w).gnss =
      { w.gnss with bases := [x, y], baseTb := w.clk.tb } := by
  have hrecs : aidOf (baseRequest (aidBase x ++ aidBase y) z) = .ok [.base x, .base y] :=
    aidRecs_bases _ 4094 hx hy
  have hlen : (aidBase x ++ aidBase y).length = 56 := by
    rw [List.length_append, length_aidBase, length_aidBase]
  have hticks := linkTicks_baseRequest (aidBase x ++ aidBase y) z
  have htake (next : State → State) := takeIn_baseRequest (l := aidBase x ++ aidBase y) z next (by omega) hdups
  have hvia : (baseRequest (aidBase x ++ aidBase y) z).via = .planner := rfl
  have hop : (baseRequest (aidBase x ++ aidBase y) z).pkt.opcode = 0x49 := rfl
  have hcls : (baseRequest (aidBase x ++ aidBase y) z).pkt.cls = 1 := rfl
  have hvet (v : State) (hm : v.modes = w.modes) (hs : v.sec = w.sec) :=
    vet_baseRequest (l := aidBase x ++ aidBase y) (w := v) z (by rw [hm]; exact hloam) (by rw [hs]; exact hlife)
  have hon (v : State) := actOn_baseRequest (l := aidBase x ++ aidBase y)
    (f := fun v => { v.gnss with bases := [x, y], baseTb := v.clk.tb }) z v (fun v => gnssAidAct_ok hrecs rfl)
    (fun _ _ => rfl)
  rw [hlen] at hticks
  generalize baseRequest (aidBase x ++ aidBase y) z = q at *
  have hcheck (v : State) : gnssAidCheck q v = none := by
    unfold gnssAidCheck
    rw [hrecs, hvia]
    rfl
  obtain ⟨v, hnow, hkeep⟩ := chainArena_now (q := q) (s := remember q w) huse hcls
    (by rw [hticks]; exact hshare) (by rw [hticks]; decide)
  have hgnss : v.gnss = w.gnss := hkeep .gnss (by simp)
  have hclk : v.clk = w.clk := hkeep .clk (by simp)
  rw [serve_takeIn opGnssAid hop hrun, htake]
  unfold process
  rw [hvet (remember q w) rfl rfl (hcheck _)]
  dsimp only
  split
  · unfold throughArena
    rw [hnow]
    dsimp only
    rw [hon, hgnss, hclk]
  · exact hon _

theorem baselineNone (hhead : isHead s = true) (hisland : s.chain.island = false) (hrun : hcoreRuns s = true) :
    exec (.baselineCompute []) s = .next s := by
  have hgo : ¬ (!(isHead s && !s.chain.island && hcoreRuns s)) = true := by rw [hhead, hisland, hrun]; decide
  exact congrArg Host.Outcome.next (if_neg hgo)

theorem baselinePair {b : BaseRec} {a c : MeasRec} (hhead : isHead s = true) (hisland : s.chain.island = false)
    (hrun : hcoreRuns s = true) (hms : participants b.frame s = [a, c]) (hac : a.partner = c.src)
    (hca : c.partner = a.src) (hlt : a.src.toNat < c.src.toNat) (hA : b.nodeA = a.src) (hB : b.nodeB = c.src)
    (hstatus : b.status.toNat ≤ 2) :
    let left : List MeasRec := s.gnss.measHeld.filter fun m => decide (0 < frameDiff m.frame b.frame)
    (solvable a c = false → solvable c a = false → Completes (.baselineCompute [b]) s fun t =>
      t.gnss.bases = s.gnss.bases ∧ t.gnss.measHeld = left ∧ Only [.free, .gnss] s t) ∧
    (solvable a c = true → solvable c a = true → s.modes.mode = .loam → s.sec.life ≠ .retired → s.pkt.dups = [] →
      s.pkt.linkUse = [] → 1780 ≤ linkShare 1 s → Completes (.baselineCompute [b]) s fun t =>
        t.gnss.bases = [reported a c t b, reported c a t (mirrorBase b)] ∧ t.gnss.measHeld = left ∧
        (slipped a c = [] → slipped c a = [] →
          t.gnss.slips = s.gnss.slips.filter fun x => decide (0 < frameDiff x.fixFrame b.frame)) ∧
        ∀ g ∈ slipped a c, Removed b.frame a.src c.src g t.gnss.slips) := by
  intro left
  obtain ⟨hnone, hboth⟩ := baselineCompute_pair hac hca hlt hhead hisland hrun hms hA hB
  obtain ⟨hbases, hheld, honly⟩ := unpaired_gnss b a c s
  obtain ⟨hslips, hremoved⟩ := unpaired_slips b a c s
  have hreported (x y : MeasRec) (v : State) {r : BaseRec} (hr : r.status.toNat ≤ 2) :
      (reported x y v r).status.toNat ≤ 2 := by
    unfold reported
    dsimp only
    split
    · decide
    · exact hr
  generalize unpaired b a c s = v at *
  have hspent : Only [.gnss] v (spent b.frame v) := only_gnss _ v
  have hleft : (spent b.frame v).gnss.measHeld = left := by
    unfold left
    rw [← hheld]
    rfl
  refine ⟨fun hna hnc => ?_, fun hya hyc hloam hlife hdups huse hshare => ?_⟩
  · exact ⟨_, congrArg Host.Outcome.next (hnone hna hnc), hbases, hleft, only_trans honly (only_mono hspent (by simp))⟩
  · have hw : Only [.free, .gnss] s (draw (spent b.frame v)) := fun p hp => by
      have h := honly p hp
      clear hslips hremoved hnone hboth
      cases p <;> simp_all [same, draw, spent]
    have hclk : (draw (spent b.frame v)).clk = s.clk := hw .clk (by simp)
    have hpwr : (draw (spent b.frame v)).pwr = s.pwr := hw .pwr (by simp)
    have hmodes : (draw (spent b.frame v)).modes = s.modes := hw .modes (by simp)
    have hsec : (draw (spent b.frame v)).sec = s.sec := hw .sec (by simp)
    have hpkt : (draw (spent b.frame v)).pkt = s.pkt := hw .pkt (by simp)
    have hreg : reg (draw (spent b.frame v)) = reg s := reg_of_only hw (by simp) (by simp)
    have hruns : hcoreRuns (draw (spent b.frame v)) = hcoreRuns s := by
      simp only [hcoreRuns, clockOn, domOn, hclk, hpwr, hmodes, hsec]
    have hlink : linkShare 1 (draw (spent b.frame v)) = linkShare 1 s := by simp only [linkShare, hreg]
    have hgnss := serve_bases (w := draw (spent b.frame v)) (z := spent b.frame v) (hruns.trans hrun)
      (by rw [hmodes]; exact hloam) (by rw [hsec]; exact hlife) (by rw [hpkt]; exact hdups)
      (by rw [hpkt]; exact huse) (by rw [hlink]; exact hshare) (hreported a c v hstatus)
      (hreported c a v (r := mirrorBase b) hstatus)
    refine ⟨_, congrArg Host.Outcome.next (hboth hya hyc), ?_⟩
    generalize serve opGnssAid _ _ = t at *
    have hslip : t.gnss.slips = v.gnss.slips := by
      rw [hgnss]
      rfl
    have hback (x y : MeasRec) (r : BaseRec) : reported x y v r = reported x y t r := by
      have hsame : unslipped x y t = unslipped x y v := by simp only [unslipped, hslip]
      simp only [reported, hsame]
    rw [hslip, ← hback, ← hback]
    refine ⟨?_, ?_, hslips, hremoved⟩
    · rw [hgnss]
    · have hheld' : t.gnss.measHeld = (spent b.frame v).gnss.measHeld := by
        rw [hgnss]
        rfl
      exact hheld'.trans hleft

/-! ## The time mark of a pulse (R296, R297) -/

/-- The time mark leaves on its port where it is asked for, and is gone otherwise. -/
theorem timeMarkSend_eq {m : Word × BitVec 16 × Byte} (hmark : s.gnss.mark = some m) {p : CanPort}
    (hp : p = if bit (reg s 0x070014) 10 then .b else .a)
    (hu : u = advanceTo (s.clk.tb.toNat / ticksPerEpoch * ticksPerEpoch + 8000000) s) :
    let v : State := { u with gnss := { u.gnss with mark := none } }
    ∃ f : CanFrame, f.ide = true ∧ f.data = markBytes m ∧ timeMarkSend s =
      if bit (reg s 0x070014) 9 && portLive p s && (can p s).mode = .normal && !(p = .a && s.canA.silent) then
        onCan p (fun c => { c with segs := c.segs ++ [f] }) v
      else v := by
  intro v
  have honly : Only [.clk, .barr] s u := by
    rw [hu]
    exact only_advanceTo _ s
  have hv : Only [.clk, .barr, .gnss] s v :=
    only_trans (only_mono honly (by simp)) (only_mono (only_gnss _ u) (by simp))
  have hcan : can p v = can p s := by
    have ha : v.canA = s.canA := hv .canA (by simp)
    have hb : v.canB = s.canB := hv .canB (by simp)
    unfold can
    rw [ha, hb]
  have hlive : portLive p v = portLive p s := by
    have hpwr : v.pwr = s.pwr := hv .pwr (by simp)
    have hsec : v.sec = s.sec := hv .sec (by simp)
    simp only [portLive, domOn, hpwr, hsec]
  have hsilent : v.canA = s.canA := hv .canA (by simp)
  rw [← hcan, ← hlive, ← hsilent]
  unfold timeMarkSend
  rw [hmark]
  subst hp hu
  exact ⟨_, rfl, rfl, rfl⟩

theorem timeMarkCompletes {m : Word × BitVec 16 × Byte} (hmark : s.gnss.mark = some m) :
    let p : CanPort := if bit (reg s 0x070014) 10 then .b else .a
    let u := advanceTo (s.clk.tb.toNat / ticksPerEpoch * ticksPerEpoch + 8000000) s
    (bit (reg s 0x070014) 9 = true → portLive p s = true → (can p s).mode = .normal →
      (p = .a → s.canA.silent = false) → Completes .timeMarkSend s fun t =>
        t.gnss.mark = none ∧ t.clk = u.clk ∧
        ∃ f : CanFrame, (can p t).segs = (can p s).segs ++ [f] ∧ f.ide = true ∧ f.data = markBytes m) ∧
    (bit (reg s 0x070014) 9 = false → Completes .timeMarkSend s fun t =>
      t.gnss.mark = none ∧ t.canA = s.canA ∧ t.canB = s.canB ∧ t.clk = u.clk) := by
  intro p u
  obtain ⟨f, hide, hdata, hstep⟩ := timeMarkSend_eq hmark (p := p) (u := u) rfl rfl
  have honly : Only [.clk, .barr] s u := only_advanceTo _ s
  have ha : u.canA = s.canA := honly .canA (by simp)
  have hb : u.canB = s.canB := honly .canB (by simp)
  have hports (g : Gnss) : can p { u with gnss := g } = can p s := by
    unfold can
    rw [← ha, ← hb]
  clear_value p u
  refine ⟨fun hout hlive hmode hsilent => ?_, fun hout => ?_⟩
  · have hgo : (bit (reg s 0x070014) 9 && portLive p s && (can p s).mode = .normal &&
        !(p = .a && s.canA.silent)) = true := by
      cases p
      · simp [hout, hlive, hmode, hsilent]
      · simp [hout, hlive, hmode]
    refine ⟨_, congrArg Host.Outcome.next (hstep.trans (if_pos hgo)), ?_, ?_, f, ?_, hide, hdata⟩
    · cases p <;> rfl
    · cases p <;> rfl
    · rw [can_onCan, hports]
  · have hgo : ¬ (bit (reg s 0x070014) 9 && portLive p s && (can p s).mode = .normal &&
        !(p = .a && s.canA.silent)) = true := by simp [hout]
    exact ⟨_, congrArg Host.Outcome.next (hstep.trans (if_neg hgo)), rfl, ha, hb, rfl⟩

/-- Settles O47: measurements go to the head, which broadcasts the pair's two records, and the time mark leaves on its
port. -/
theorem baselinesAndMarksGoOut : Obligations.BaselinesAndMarksGoOut := by
  unfold Obligations.BaselinesAndMarksGoOut
  intro s
  exact ⟨measSend_one, fun hhead hisland hrun => ⟨baselineNone hhead hisland hrun,
    fun b a c => baselinePair hhead hisland hrun⟩, fun m => timeMarkCompletes⟩

end Sys2Proof.Proofs

/-! CAN frames come in: reception, error confinement, and the way out of SLEEP (R317 to R328, R334 to R336). -/

namespace Sys2Proof.Proofs

open Sys2Proof.Machine Sys2Proof.Safety Sys2Proof.Laws

variable {s t u : State} {p : CanPort}

/-! ## What the operations of a port leave of its state -/

theorem can_of_ports (ha : t.canA = s.canA) (hb : t.canB = s.canB) : can p t = can p s := by
  cases p
  · exact ha
  · exact hb

theorem can_note (side : Side) (code : BitVec 16) (sev : BitVec 2) (chan : Byte) (data : List Byte) :
    can p (note side code sev chan data s) = can p s := can_of_ports (by simp) (by simp)

theorem canReg_of_regs (h : t.regs = s.regs) (hid : t.id = s.id) (off : Nat) : canReg p t off = canReg p s off := by
  simp [canReg, reg, h, hid]

theorem canReg_onCan (f : Can → Can) (off : Nat) : canReg p (onCan p f s) off = canReg p s off :=
  canReg_of_regs (by simp [onCan]) (by simp [onCan]) off

theorem canReg_note (side : Side) (code : BitVec 16) (sev : BitVec 2) (chan : Byte) (data : List Byte) (off : Nat) :
    canReg p (note side code sev chan data s) off = canReg p s off := canReg_of_regs (by simp) (by simp) off

theorem canReg_note_ite (q : Prop) [Decidable q] (code : BitVec 16) (sev : BitVec 2) (off : Nat) :
    canReg p (if q then note .host code sev 0xFF [] s else s) off = canReg p s off := by
  split
  · exact canReg_note ..
  · rfl

/-- TEC and REC leave the port error-passive (R335). -/
def passiveOf (c : Can) : Bool := decide (128 ≤ c.tecCnt) || decide (128 ≤ c.recCnt)

/-- What a change of the counters leaves of the port's state; `off`: the port was in bus-off (R335, R336). -/
def confined (p : CanPort) (off : Bool) (s : State) : Can :=
  let c := can p s
  if (255 < c.tecCnt && !off) = true then
    { c with passive := passiveOf c, busOff := true, attempt := none, retry := none
             recovering := !bit (canReg p s 0) 2 }
  else { c with passive := passiveOf c }

theorem can_note_ite (q : Prop) [Decidable q] (code : BitVec 16) (sev : BitVec 2) :
    can p (if q then note .host code sev 0xFF [] s else s) = can p s := by
  split
  · exact can_note ..
  · rfl

theorem can_errorEvents (old : Can) : can p (errorEvents p old s) = confined p old.busOff s := by
  unfold errorEvents confined
  extract_lets c ewl rose a now' b d
  have ha : can p a = c := can_note_ite ..
  have hb : can p b = { c with passive := now' } := (can_onCan ..).trans (by rw [ha])
  have hd : can p d = { c with passive := now' } := (can_note_ite ..).trans hb
  by_cases hoff : (255 < c.tecCnt && !old.busOff) = true
  · rw [if_pos hoff, if_pos hoff, can_note, can_onCan, hd]
    have hreg : canReg p d 0 = canReg p s 0 := by
      rw [canReg_note_ite, canReg_onCan, canReg_note_ite]
    rw [hreg]
    rfl
  · rw [if_neg hoff, if_neg hoff, can_note_ite, hd]
    rfl

/-! ## Reception (R323 to R327) -/

/-- An entry for the ring of a port (R320, R324). -/
def ringStored (p : CanPort) (tb : BitVec 64) (f : CanFrame) (hit : Bool) (s : State) : Can :=
  let c := can p s
  if domOn s 1 && decide (c.ring.length < 1024) then
    { c with seq := c.seq + 1, ring := c.ring ++ [{ tb := tb, frame := f, matched := hit, seq := c.seq + 1 }] }
  else { c with seq := c.seq + 1, ovf := satInc c.ovf }

theorem can_ringStore (tb : BitVec 64) (f : CanFrame) (hit : Bool) :
    can p (ringStore p tb f hit s) = ringStored p tb f hit s := by
  unfold ringStore ringStored
  extract_lets c n a b
  have ha : can p a = { c with seq := c.seq + 1 } := can_onCan ..
  have hdom : domOn a 1 = domOn s 1 := by simp [domOn, a, onCan]
  rw [hdom]
  split
  · rw [can_onCan, ha]
  · have hb : can p b = { c with seq := c.seq + 1, ovf := satInc c.ovf } := by rw [can_onCan, ha]
    refine Eq.trans ?_ hb
    split
    · exact can_of_ports (by simp) (by simp)
    · rfl

theorem can_drainRing : can p (drainRing p s) = if hcoreRuns s then { can p s with ring := [] } else can p s := by
  unfold drainRing
  split
  · exact can_onCan ..
  · rfl

theorem can_singleFrameDrop (f : CanFrame) : can p (singleFrameDrop p f s) = can p s :=
  can_of_ports (by simp [singleFrameDrop]) (by simp [singleFrameDrop])

theorem hcoreRuns_ringStore (tb : BitVec 64) (f : CanFrame) (hit : Bool) :
    hcoreRuns (ringStore p tb f hit s) = hcoreRuns s := by
  simp [hcoreRuns, clockOn, domOn, ringStore, onCan]

theorem can_draw : can p (draw s) = can p s := can_of_ports rfl rfl

/-- A frame received without error is counted and reaches its objects (R326, R327). -/
def frameCounted (tb : BitVec 64) (f : CanFrame) (c : Can) : Can :=
  { c with rxCnt := c.rxCnt + 1, obj := vmap (objTake tb f) c.obj }

/-- The port as a frame received without error leaves it before its counters are judged. -/
def received (p : CanPort) (f : CanFrame) (s : State) : State :=
  let s' := onCan p (frameCounted (stamp10 s) f) s
  singleFrameDrop p f (drainRing p (ringStore p (stamp10 s) f ((can p s).obj.toList.any (objMatch f)) s'))

theorem receive_can (f : CanFrame) (habr : (can p s).abr = none) (hoff : (can p s).busOff = false) :
    can p (receive p f s) = if (can p s).mode = .normal then
      confined p false (onCan p (fun c => { c with recCnt := recAfter (received p f s) c.recCnt }) (received p f s))
      else can p (received p f s) := by
  unfold receive
  extract_lets old tb hit a b
  have ha : a = onCan p (frameCounted tb f) s := by simp [a, onCan, confirm, habr, frameCounted]
  have hb : b = received p f s := congrArg (fun u => singleFrameDrop p f (drainRing p (ringStore p tb f hit u))) ha
  rw [hb]
  split
  · rw [can_draw, can_errorEvents old, hoff]
  · rfl

theorem can_received (f : CanFrame) : can p (received p f s) =
    let c := ringStored p (stamp10 s) f ((can p s).obj.toList.any (objMatch f))
      (onCan p (frameCounted (stamp10 s) f) s)
    if hcoreRuns s then { c with ring := [] } else c := by
  unfold received
  extract_lets a
  rw [can_singleFrameDrop, can_drainRing, hcoreRuns_ringStore, can_ringStore]
  have hruns : hcoreRuns a = hcoreRuns s := by simp [hcoreRuns, clockOn, domOn, a, onCan]
  rw [hruns]

/-- What of a port's state the counters of error confinement leave alone. -/
def intake (c : Can) : BitVec 16 × Vector MsgObj 128 × BitVec 16 × List RingEntry × BitVec 16 :=
  (c.rxCnt, c.obj, c.seq, c.ring, c.ovf)

theorem intake_confined (off : Bool) : intake (confined p off s) = intake (can p s) := by
  unfold confined
  extract_lets c
  split <;> rfl

theorem intake_receive (f : CanFrame) (habr : (can p s).abr = none) (hoff : (can p s).busOff = false) :
    intake (can p (receive p f s)) = intake (can p (received p f s)) := by
  rw [receive_can f habr hoff]
  split
  · rw [intake_confined, can_onCan]
    rfl
  · rfl

theorem recCnt_receive (f : CanFrame) (habr : (can p s).abr = none) (hoff : (can p s).busOff = false) :
    (can p (receive p f s)).recCnt = if (can p s).mode = .normal then
      recAfter (received p f s) (can p (received p f s)).recCnt else (can p (received p f s)).recCnt := by
  rw [receive_can f habr hoff]
  split
  · unfold confined
    rw [can_onCan]
    extract_lets c
    split <;> rfl
  · rfl

theorem recCnt_received (f : CanFrame) : (can p (received p f s)).recCnt = (can p s).recCnt := by
  rw [can_received, ringStored]
  simp only [can_onCan]
  split <;> split <;> rfl

/-- The intake of the port after the frame, without the ring. -/
theorem intake_received (f : CanFrame) :
    (can p (received p f s)).rxCnt = (can p s).rxCnt + 1 ∧
    (can p (received p f s)).obj = vmap (objTake (stamp10 s) f) (can p s).obj ∧
    (can p (received p f s)).seq = (can p s).seq + 1 := by
  rw [can_received, ringStored]
  simp only [can_onCan]
  split <;> split <;> exact ⟨rfl, rfl, rfl⟩

theorem ring_received (f : CanFrame) (hhalt : hcoreRuns s = false) (hdom : domOn s 1 = true)
    (hroom : (can p s).ring.length < 1024) : (can p (received p f s)).ring = (can p s).ring ++ [{
      tb := stamp10 s, frame := f, matched := (can p s).obj.toList.any (objMatch f), seq := (can p s).seq + 1 }] := by
  have hon : domOn (onCan p (frameCounted (stamp10 s) f) s) 1 = true := by simpa [domOn, onCan] using hdom
  have hring : (frameCounted (stamp10 s) f (can p s)).ring.length < 1024 := hroom
  rw [can_received, ringStored]
  simp only [can_onCan, hhalt, hon, hring, decide_true, Bool.and_true, Bool.false_eq_true, if_true, if_false]
  rfl

theorem ovf_received (f : CanFrame) (hfull : 1024 ≤ (can p s).ring.length) :
    (can p (received p f s)).ovf = satInc (can p s).ovf := by
  have hring : ¬ (frameCounted (stamp10 s) f (can p s)).ring.length < 1024 := Nat.not_lt.mpr hfull
  rw [can_received, ringStored]
  simp only [can_onCan, hring, decide_false, Bool.and_false, Bool.false_eq_true, if_false]
  split <;> rfl

theorem receive_completes (f : CanFrame) (hlive : portLive p s = true) (hoff : (can p s).busOff = false)
    (hmode : (can p s).mode ≠ .sleep) (habr : (can p s).abr = none) :
    exec (.canFrameReceive p f) s = .next (receive p f s) := by
  change execCanFrameReceive _ _ _ = _
  simp [execCanFrameReceive, canFrameReceive, hlive, hoff, hmode, habr]

/-! ## Error confinement (R334 to R336) -/

/-- The port as an error leaves it before its counters are judged. -/
def erred (p : CanPort) (k : CanErrKind) (tx : Bool) (s : State) : State :=
  let s := onCan p (countError k) s
  if tx then onCan p (fun c => { c with retry := c.attempt, attempt := none }) s else s

theorem canBusError_eq (k : CanErrKind) (tx : Bool) (tec rec' : Nat) (hlive : portLive p s = true)
    (hoff : (can p s).busOff = false) (hmode : (can p s).mode ≠ .sleep) (habr : (can p s).abr = none) :
    canBusError p k tx tec rec' s = if (can p s).mode = .normal then
      errorEvents p (can p s) (onCan p (fun c => { c with tecCnt := tec, recCnt := rec' }) (erred p k tx s))
      else erred p k tx s := by
  simp only [canBusError, hlive, hoff, hmode, habr]
  rfl

theorem can_erred (k : CanErrKind) (tx : Bool) : can p (erred p k tx s) =
    if tx then { countError k (can p s) with retry := (countError k (can p s)).attempt, attempt := none }
    else countError k (can p s) := by
  unfold erred
  cases tx
  · exact can_onCan ..
  · simp [can_onCan]

theorem erred_fields (k : CanErrKind) (tx : Bool) : let e := can p (erred p k tx s)
    e.eBit = (if k = .bit then satInc (can p s).eBit else (can p s).eBit) ∧
      e.eStuff = (if k = .stuff then satInc (can p s).eStuff else (can p s).eStuff) ∧
      e.eCrc = (if k = .crc then satInc (can p s).eCrc else (can p s).eCrc) ∧
      e.eForm = (if k = .formAck then satInc (can p s).eForm else (can p s).eForm) ∧
      e.tecCnt = (can p s).tecCnt ∧ e.recCnt = (can p s).recCnt ∧ e.busOff = (can p s).busOff ∧
      (tx = true → e.attempt = none) := by
  rw [can_erred]
  cases k <;> cases tx <;> simp [countError]

theorem canReg_erred (k : CanErrKind) (tx : Bool) (off : Nat) : canReg p (erred p k tx s) off = canReg p s off := by
  unfold erred
  cases tx <;> simp only [canReg_onCan, Bool.false_eq_true, if_true, if_false]

/-! ## The way out of SLEEP (R322) and rate detection (R317, R318) -/

/-- What of a port's state a claim given up and a start of rate detection leave alone. -/
def wakeState (c : Can) : CanMode × Bool × Option RingEntry × BitVec 16 × BitVec 16 :=
  (c.mode, c.waking, c.wakeBuf, c.wakeGap, c.seq)

theorem can_measure (removed : List (Fin 7)) : ∃ cs, can p (Machine.measure p removed s) =
    { can p s with abr := some { candidates := cs, confirms := 0, removed := removed } } := by
  unfold Machine.measure
  extract_lets m cs u
  have hu : can p u = { can p s with abr := some { candidates := cs, confirms := 0, removed := removed } } :=
    (can_onCan ..).trans (by rw [can_draw])
  refine ⟨cs, Eq.trans ?_ hu⟩
  clear_value u cs
  cases cs with
  | nil => rfl
  | cons r _ => exact can_of_ports rfl rfl

theorem only_measure (removed : List (Fin 7)) (s : State) :
    Only [.free, .regs, if p = .a then .canA else .canB] s (Machine.measure p removed s) := by
  unfold Machine.measure
  extract_lets m cs u
  have hu : Only [.free, .regs, if p = .a then .canA else .canB] s u :=
    only_trans (fun x hx => by cases x <;> simp_all [same, draw])
      (only_mono (only_onCan p _ (draw s)) fun x hx => by simp_all)
  clear_value u cs
  cases cs with
  | nil => exact hu
  | cons r _ => exact only_trans hu fun x hx => by cases x <;> simp_all [same, setReg]

theorem wakeState_startAbr : wakeState (can p (startAbr p s)) = wakeState (can p s) := by
  unfold startAbr
  split
  · obtain ⟨cs, h⟩ := can_measure (p := p) (s := onCan p (fun c => { c with abrDone := false }) s) []
    rw [h, can_onCan]
    rfl
  · rfl

theorem wakeState_dropClaim : wakeState (can p (dropClaim s)) = wakeState (can p s) := by
  unfold dropClaim
  split
  · rfl
  · cases p <;> rfl

theorem wakeState_enterMode (m : CanMode) (opt : Bool) :
    wakeState (can p (enterMode p m opt s)) = (m, false, none, 0, (can p s).seq) := by
  unfold enterMode
  extract_lets a b
  have ha : wakeState (can p a) = (m, false, none, 0, (can p s).seq) := by
    rw [can_onCan]
    rfl
  refine wakeState_dropClaim.trans (Eq.trans ?_ ha)
  unfold b
  split
  · exact wakeState_startAbr
  · rfl

theorem wakeState_ringStore (tb : BitVec 64) (f : CanFrame) (hit : Bool) :
    wakeState (can p (drainRing p (ringStore p tb f hit s))) =
      ((can p s).mode, (can p s).waking, (can p s).wakeBuf, (can p s).wakeGap, (can p s).seq + 1) := by
  rw [can_drainRing, can_ringStore, ringStored]
  dsimp only
  split <;> split <;> rfl

theorem wakeState_canLeaveSleep (hwake : (can p s).waking = true) (hmode : (can p s).mode = .sleep)
    (hdom : domOn s (canDom p) = true) (hcore : domOn s 1 = true) :
    wakeState (can p (canLeaveSleep p s)) =
      (if bit (canReg p s 0) 4 then .listen else .normal, false, none, 0,
        (can p s).seq + (if (can p s).wakeBuf.isSome then 1 else 0) + (can p s).wakeGap) := by
  unfold canLeaveSleep
  extract_lets c m a b
  rw [if_neg (by simp [c, hwake, hmode, hdom, hcore]), can_onCan]
  have ha : wakeState (can p a) = (m, false, none, 0, c.seq) := wakeState_enterMode m false
  have hb : wakeState (can p b) = (m, false, none, 0, c.seq + if c.wakeBuf.isSome then 1 else 0) := by
    unfold b
    obtain ⟨hm, hw, hbuf, hgap, hseq⟩ := Prod.mk.inj ha |>.imp_right fun h => Prod.mk.inj h |>.imp_right fun h =>
      Prod.mk.inj h |>.imp_right Prod.mk.inj
    cases hheld : c.wakeBuf with
    | none => simpa using ha
    | some e => simp [wakeState_ringStore, hm, hw, hbuf, hgap, hseq]
  exact congrArg (fun w : CanMode × Bool × Option RingEntry × BitVec 16 × BitVec 16 =>
    (w.1, w.2.1, w.2.2.1, w.2.2.2.1, w.2.2.2.2 + c.wakeGap)) hb

theorem abrTimeout_settles (hdom : domOn s (canDom p) = true) (habr : (can p s).abr.isSome = true) :
    (∃ cs, (can p (abrTimeout p s)).abr = some { candidates := cs, confirms := 0, removed := [] }) ∧
    (s.ev.host.length < 64 → Held .host (canCode p 1) 0xFF (abrTimeout p s)) ∧
    Only [.free, .regs, .barr, .canA, .canB, .ev] s (abrTimeout p s) := by
  have heq : abrTimeout p s = Machine.measure p [] (note .host (canCode p 1) 1 0xFF [] s) := by
    simp [abrTimeout, hdom, habr]
  rw [heq]
  refine ⟨?_, fun hroom => ?_, ?_⟩
  · obtain ⟨cs, h⟩ := can_measure (p := p) (s := note .host (canCode p 1) 1 0xFF [] s) []
    exact ⟨cs, by rw [h]⟩
  · rw [Held, only_measure [] _ .ev (by cases p <;> simp)]
    exact held_note_host _ _ _ _ hroom
  · exact only_trans (only_mono (only_note_host _ _ _ _ s) (by simp))
      (only_mono (only_measure [] _) (by cases p <;> simp))

theorem recovery_settles (hdom : domOn s (canDom p) = true) (hoff : (can p s).busOff = true)
    (hrec : (can p s).recovering = true) (hreq : (can p s).reqMode = none) :
    let t := canRecoveryDone p s
    (can p t).busOff = false ∧ (can p t).recovering = false ∧ (can p t).tecCnt = 0 ∧ (can p t).recCnt = 0 ∧
      (can p t).busoffs = satInc (can p s).busoffs ∧ (s.ev.host.length < 64 → Held .host (canCode p 6) 0xFF t) := by
  extract_lets t
  have ht : t = note .host (canCode p 6) 0 0xFF [] (onCan p (fun c => { c with
      busOff := false, recovering := false, tecCnt := 0, recCnt := 0, passive := false
      busoffs := satInc c.busoffs }) s) := by
    simp only [t, canRecoveryDone, hdom, hoff, hrec]
    simp [canModeApply, can_note, can_onCan, hreq]
  have hcan : can p t = { can p s with
      busOff := false, recovering := false, tecCnt := 0, recCnt := 0, passive := false
      busoffs := satInc (can p s).busoffs } := by rw [ht, can_note, can_onCan]
  refine ⟨by rw [hcan], by rw [hcan], by rw [hcan], by rw [hcan], by rw [hcan], fun hroom => ?_⟩
  rw [ht]
  exact held_note_host _ _ _ _ (by simpa [onCan] using hroom)

/-- Settles O48, from what reception, error confinement and a change of mode leave of the port's state. -/
theorem canFramesComeIn : Obligations.CanFramesComeIn := by
  unfold Obligations.CanFramesComeIn
  refine fun s p => ⟨fun f hlive hoff hmode habr => ?_, fun k tx tec rec' hlive hoff hmode habr => ?_,
    fun hdom hoff hrec hreq => ?_, fun hwake hmode hdom hcore => ?_, fun hdom habr => ?_, fun n hdom => ?_⟩
  · have hin := intake_receive f habr hoff
    simp only [intake, Prod.mk.injEq] at hin
    obtain ⟨hrx, hobj, hseq, hring, hovf⟩ := hin
    obtain ⟨hrx', hobj', hseq'⟩ := intake_received (p := p) (s := s) f
    have hrecCnt := recCnt_receive f habr hoff
    rw [recCnt_received] at hrecCnt
    refine ⟨_, receive_completes f hlive hoff hmode habr, hrx.trans hrx', fun i => ?_, hseq.trans hseq',
      fun hhalt hdom hroom => hring.trans (ring_received f hhalt hdom hroom),
      fun _ hfull => hovf.trans (ovf_received f hfull), fun hn hle => ?_, fun hn => ?_⟩
    · rw [hobj, hobj', vmap_get]
      rfl
    · rw [hrecCnt, if_pos hn, recAfter, if_pos hle]
    · rw [hrecCnt, if_neg hn]
  · refine ⟨_, rfl, ?_⟩
    obtain ⟨hbit, hstuff, hcrc, hform, htec, hrec, hbus, hout⟩ := erred_fields (p := p) (s := s) k tx
    rw [canBusError_eq k tx tec rec' hlive hoff hmode habr]
    by_cases hn : (can p s).mode = .normal
    · have hcan := can_errorEvents (p := p) (can p s)
        (s := onCan p (fun c => { c with tecCnt := tec, recCnt := rec' }) (erred p k tx s))
      rw [confined, can_onCan, canReg_onCan, canReg_erred, hoff] at hcan
      generalize can p (erred p k tx s) = e at *
      rw [if_pos hn, hcan]
      by_cases hmax : 255 < tec
      · simp [hmax, hbit, hstuff, hcrc, hform, passiveOf, hn]
      · rw [if_neg (by simpa using hmax)]
        exact ⟨hbit, hstuff, hcrc, hform, fun _ => ⟨rfl, rfl, rfl, by simp [hbus, hoff, hmax], fun h => absurd h hmax⟩,
          fun h => absurd hn h, hout⟩
    · simp only [if_neg hn]
      exact ⟨hbit, hstuff, hcrc, hform, fun h => absurd h hn, fun _ => ⟨htec, hrec⟩, hout⟩
  · exact ⟨_, rfl, recovery_settles hdom hoff hrec hreq⟩
  · have hw := wakeState_canLeaveSleep hwake hmode hdom hcore
    simp only [wakeState, Prod.mk.injEq] at hw
    exact ⟨_, rfl, hw⟩
  · exact ⟨_, rfl, abrTimeout_settles hdom habr⟩
  · refine ⟨moRead p n s, congrArg Host.Outcome.next (if_pos hdom), ?_, fun i hi => ?_, only_onCan p _ s⟩
    · rw [moRead, can_onCan]
      simp [upd_get]
    · rw [moRead, can_onCan]
      simp [upd_get, hi]

end Sys2Proof.Proofs

/-! CAN frames go out: the offer and its end, changes of mode, and the commands of a port (R315, R329 to R333,
R168). -/

namespace Sys2Proof.Proofs

open Sys2Proof.Machine Sys2Proof.Safety Sys2Proof.Laws

variable {s t u : State} {p : CanPort}

/-! ## What a port offers (R330) -/

theorem nextOwn_idle (hsegs : (can p s).segs = []) (hown : (can p s).own = []) (hrep : s.pkt.canReplies = []) :
    nextOwn p s = s := by
  unfold nextOwn
  simp [hsegs, hown, hrep]

theorem can_loadOwn_idle (hfree : (can p s).obj[(0 : Fin 128)].kind ≠ .tx) (hsegs : (can p s).segs = [])
    (hown : (can p s).own = []) (hrep : s.pkt.canReplies = []) :
    loadOwn p s = onCan p (fun c => { c with peer := none, sending := none }) s := by
  unfold loadOwn
  rw [if_neg hfree, nextOwn_idle hsegs hown hrep]
  dsimp only [onCan]
  rw [hsegs]

theorem offered_candidate (c : Can) (h : p = .a → c.silent = false) : offered p c = candidate c := by
  unfold offered
  cases p with
  | a => rw [h rfl]; rfl
  | b => rfl

theorem candidate_peer (c : Can) (x : Option Byte) (y : Option Packet) :
    candidate { c with peer := x, sending := y } = candidate c := rfl

theorem canTxStart_offers (hlive : portLive p s = true) (hmode : (can p s).mode = .normal)
    (hoff : (can p s).busOff = false) (hatt : (can p s).attempt = none) (hreq : (can p s).reqMode = none)
    (hfree : (can p s).obj[(0 : Fin 128)].kind ≠ .tx) (hsegs : (can p s).segs = []) (hown : (can p s).own = [])
    (hrep : s.pkt.canReplies = []) (hsilent : p = .a → s.canA.silent = false) :
    can p (canTxStart p s) = { can p s with
      peer := none, sending := none, attempt := candidate (can p s), retry := none, sof := s.clk.tb } := by
  have hquiet : p = .a → (can p s).silent = false := by
    rintro rfl
    exact hsilent rfl
  have hhold : holdsForMode p s = false := by simp [holdsForMode, hreq]
  unfold canTxStart
  extract_lets c again a
  have ha : a = onCan p (fun c => { c with peer := none, sending := none }) s := can_loadOwn_idle hfree hsegs hown hrep
  have hclk : a.clk = s.clk := by simp [ha, onCan]
  have hoffer : offered p { c with peer := none, sending := none } = candidate c := offered_candidate _ hquiet
  rw [if_neg (by simp [c, hlive, hmode, hoff, hatt]), if_neg (by simp [hhold]), can_onCan, ha, can_onCan, ← ha, hclk,
    hoffer]

/-! ## The end of an attempt (R331, R332) -/

/-- What of a port's state the counters of error confinement leave alone on the way out. -/
def outgoing (c : Can) : List FifoEntry × Vector MsgObj 128 × BitVec 16 × Nat := (c.fifo, c.obj, c.txCnt, c.tecCnt)

theorem outgoing_confined (off : Bool) : outgoing (confined p off s) = outgoing (can p s) := by
  unfold confined
  extract_lets c
  split <;> rfl

theorem attempt_confined (off : Bool) (h : (can p s).attempt = none) : (confined p off s).attempt = none := by
  unfold confined
  extract_lets c
  split
  · rfl
  · exact h

/-- The port after the frame of an attempt, before its counters are judged. -/
def frameSent (x : TxCand) (c : Can) : Can :=
  { sentCand x c with attempt := none, retry := none, txCnt := c.txCnt + 1, tecCnt := c.tecCnt - 1 }

theorem canFrameSent_eq {x : TxCand} (hatt : (can p s).attempt = some x) :
    canFrameSent p s = errorEvents p (can p s) (onCan p (frameSent x) s) := by
  unfold canFrameSent
  simp only [hatt]
  rfl

theorem canFrameSent_leaves {x : TxCand} (hlive : portLive p s = true) (hatt : (can p s).attempt = some x) :
    Completes (.canFrameSent p) s fun t =>
      outgoing (can p t) = outgoing (frameSent x (can p s)) ∧ (can p t).attempt = none := by
  refine ⟨canFrameSent p s, congrArg Host.Outcome.next (if_pos hlive), ?_⟩
  simp only [canFrameSent_eq hatt, can_errorEvents]
  exact ⟨by rw [outgoing_confined, can_onCan], attempt_confined _ (by rw [can_onCan]; rfl)⟩

/-! ## Changes of mode (R315) -/

/-- What of a port's state a claim given up and a start of rate detection leave alone at a change of mode. -/
def modeState (c : Can) : CanMode × Bool × Option (CanMode × Bool) := (c.mode, c.wakeOpt, c.reqMode)

theorem modeState_startAbr : modeState (can p (startAbr p s)) = modeState (can p s) := by
  unfold startAbr
  split
  · obtain ⟨cs, h⟩ := can_measure (p := p) (s := onCan p (fun c => { c with abrDone := false }) s) []
    rw [h, can_onCan]
    rfl
  · rfl

theorem modeState_dropClaim : modeState (can p (dropClaim s)) = modeState (can p s) := by
  unfold dropClaim
  split
  · rfl
  · cases p <;> rfl

theorem modeState_enterMode (m : CanMode) (opt : Bool) :
    modeState (can p (enterMode p m opt s)) = (m, decide (m = .sleep) && opt, none) := by
  unfold enterMode
  extract_lets a b
  have ha : modeState (can p a) = (m, decide (m = .sleep) && opt, none) := by
    rw [can_onCan]
    rfl
  refine modeState_dropClaim.trans (Eq.trans ?_ ha)
  unfold b
  split
  · exact modeState_startAbr
  · rfl

theorem canModeApply_enters {m : CanMode} {o : Bool} (hreq : (can p s).reqMode = some (m, o))
    (hdom : domOn s (canDom p) = true) (hatt : (can p s).attempt = none) (hretry : (can p s).retry = none)
    (hoff : (can p s).busOff = false) (hleft : ∀ q, (can p s).afterReply = some q → replyLeft q s = true) :
    canModeApply p s = enterMode p m o s := by
  have hwait : awaitsReply p s = false := by
    unfold awaitsReply
    cases h : (can p s).afterReply with
    | none => rfl
    | some q => simp [hleft q h]
  unfold canModeApply
  simp [hreq, hdom, hatt, hretry, hoff, hwait]

/-! ## The end of a transport session (R133) -/

theorem tpTimeout_ends {x : Byte} (hpeer : s.canA.peer = some x) (hatt : s.canA.attempt ≠ some (.obj 0)) :
    Completes (.tpSessionTimeout .a x) s fun t =>
      t.canA.segs = [] ∧ t.canA.peer = none ∧ t.canA.obj[(0 : Fin 128)].kind ≠ .tx ∧ Only [.canA] s t := by
  refine ⟨_, (congrArg Host.Outcome.next (if_pos ?_)).trans rfl, rfl, rfl, ?_, ?_⟩
  · simp [hpeer, hatt]
  · dsimp only
    rw [Fin.getElem_fin, upd_get, if_pos rfl]
    split
    · simp
    · assumption
  · intro y hy
    cases y <;> simp_all [same]

/-! ## The commands of a port (Table 06-12) -/

variable {q : Request}

theorem can_taken (q : Request) (s : State) : can p (taken q s) = can p s := can_of_ports (by simp) (by simp)

theorem can_reply (q : Request) (a : Ans) (s : State) : can p (reply q a s) = can p s :=
  can_of_ports (by simp) (by simp)

theorem needPort_taken (hport : portOf q = p) (hdom : domOn s (canDom p) = true) : needPort q (taken q s) = none := by
  have hon : domOn (taken q s) (canDom p) = true := (taken_keep (domOn · (canDom p)) q s).trans hdom
  rw [needPort, hport, if_pos hon]

theorem portCheck_none {n : Nat} (hok : portOk q = true) (hlen : (reqBody q).length = n) :
    (lenIs n q <|> param (portOk q)) = none := by
  simp [lenIs_of hlen, param, hok]

theorem canGet_answers (hok : portOk q = true) (hport : portOf q = p) (hdom : domOn s (canDom p) = true)
    (h : Accepted 0x50 q s) (hlen : (reqBody q).length = 1) : Answers (.canGet q) q s id { data :=
      ([BitVec.ofNat 8 (canModeCode (can p s).mode), BitVec.ofNat 8 (canEstate p s), BitVec.ofNat 8 (canTec (can p s)),
        BitVec.ofNat 8 (min (can p s).recCnt 255)] ++ be 2 (can p s).ring.length) } := by
  refine answers_of opCanGet h (hc := portCheck_none hok hlen) (hact := ?_)
  have hest : canEstate p (taken q s) = canEstate p s := taken_keep (canEstate p) q s
  simp only [opCanGet, needPort_taken hport hdom, guarded, hport, can_taken, hest, done, id]

theorem canMode_answers (hok : portOk q = true) (hport : portOf q = p) (hdom : domOn s (canDom p) = true)
    (h : Accepted 0x51 q s) (hlen : (reqBody q).length = 3) (hmode : (byteAt (reqBody q) 1).toNat ≤ 3)
    (hopt : byteAt (reqBody q) 2 = 0 ∨ byteAt (reqBody q) 1 = 3 ∧ byteAt (reqBody q) 2 = 1) :
    Answers (.canMode q) q s (onCan p fun c => { c with
      reqMode := some (modeOf (byteAt (reqBody q) 1), byteAt (reqBody q) 2 == 1)
      afterReply := match q.via with | .can x _ => if x = p then some q else none | _ => none }) {} := by
  have hc : opCanMode.check q (taken q s) = none := by
    rcases hopt with hopt | ⟨hsleep, hopt⟩
    · simp [opCanMode, lenIs_of hlen, param, hok, hmode, hopt]
    · simp [opCanMode, lenIs_of hlen, param, hok, hsleep, hopt]
  refine answers_of opCanMode h (hc := hc) (hact := ?_)
  simp only [opCanMode, needPort_taken hport hdom, guarded, hport, done] <;> rfl

theorem canRecover_answers (hok : portOk q = true) (hport : portOf q = p) (hdom : domOn s (canDom p) = true)
    (h : Accepted 0x52 q s) (hlen : (reqBody q).length = 1) :
    ((can p s).busOff = true → Answers (.canRecover q) q s (onCan p fun c => { c with recovering := true }) {}) ∧
    ((can p s).busOff = false → Answers (.canRecover q) q s id { status := 0x11, detail := 0x35 }) := by
  refine ⟨fun hoff => ?_, fun hoff => ?_⟩
  · refine answers_of opCanRecover h (hc := portCheck_none hok hlen) (hact := ?_)
    simp only [opCanRecover, needPort_taken hport hdom, guarded, hport, can_taken, hoff, done, if_true]
  · refine answers_of opCanRecover h (f := id) (hc := portCheck_none hok hlen) (hact := ?_)
    simp only [opCanRecover, needPort_taken hport hdom, guarded, hport, can_taken, hoff, refuse, Bool.false_eq_true,
      if_false, id]

theorem handle_toNat (n : BitVec 15) : ((1#1 ++ n : BitVec 16)).toNat = 0x8000 + n.toNat := by
  rw [BitVec.toNat_append, ← Nat.shiftLeft_add_eq_or_of_lt n.isLt]
  rfl

theorem canSend_answers (hport : portOf q = p) (hdom : domOn s (canDom p) = true) (h : Accepted 0x53 q s)
    (hcheck : canSendCheck q s = none) (hmode : (can p s).mode ≠ .sleep) :
    ((byteAt (reqBody q) 1).getLsbD 3 = false → (can p s).fifo.length < 64 →
      Answers (.canSend q) q s (onCan p fun c => { c with
        handle := c.handle + 1
        fifo := c.fifo ++ [{ handle := 1#1 ++ (c.handle + 1), frame := sendFrame (reqBody q) }] })
        { data := be 2 (0x8000 + ((can p s).handle + 1).toNat) }) ∧
    ((byteAt (reqBody q) 1).getLsbD 3 = false → 64 ≤ (can p s).fifo.length →
      Answers (.canSend q) q s id { status := 0x40, detail := 0x26 }) ∧
    (∀ i : Fin 128, (byteAt (reqBody q) 1).getLsbD 3 = true → freeObj (can p s) = some i →
      Answers (.canSend q) q s (onCan p fun c => { c with
        obj := upd c.obj i (frameObj (sendFrame (reqBody q))) }) { data := be 2 i.val }) := by
  have hc : opCanSend.check q (taken q s) = none := (taken_keep (canSendCheck q) q s).trans hcheck
  have hact : opCanSend.act q (taken q s) = canSendAct q (taken q s) := rfl
  rw [canSendAct, needPort_taken hport hdom] at hact
  simp only [guarded, hport, can_taken, if_neg hmode] at hact
  refine ⟨fun hring hroom => ?_, fun hring hfull => ?_, fun i hobj hfree => ?_⟩
  · refine answers_of opCanSend h (hc := hc) (hact := hact.trans ?_)
    rw [if_neg (by rw [hring]; decide), if_neg (by omega), ← handle_toNat, done]
    simp only [onCan, can_taken]
  · refine answers_of opCanSend h (f := id) (hc := hc) (hact := hact.trans ?_)
    rw [if_neg (by rw [hring]; decide), if_pos hfull]
    rfl
  · refine answers_of opCanSend h (hc := hc) (hact := hact.trans ?_)
    rw [if_pos hobj, hfree]
    rfl

theorem stillPending_removed (c : Can) (x : TxCand) : stillPending (match x with
    | .fifo h => { c with fifo := c.fifo.filter (fun e => e.handle != h) }
    | .obj i => { c with obj := upd c.obj i fun o => { o with kind := .off, pend := false } }) x = false := by
  cases x with
  | fifo h => simp [stillPending]
  | obj i => simp [stillPending, upd_get]

theorem canCancel_answers (hok : portOk q = true) (hport : portOf q = p) (hdom : domOn s (canDom p) = true)
    (h : Accepted 0x54 q s) (hlen : (reqBody q).length = 3) :
    (handleCand (can p s) (BitVec.ofNat 16 (beAt (reqBody q) 1 2)) = none →
      Answers (.canCancel q) q s id { status := 0x21, detail := 0x0B }) ∧
    (∀ c, handleCand (can p s) (BitVec.ofNat 16 (beAt (reqBody q) 1 2)) = some c →
      ((can p s).attempt = some c → Answers (.canCancel q) q s id { status := 0x31 }) ∧
      ((can p s).attempt ≠ some c → Completes (.canCancel q) s fun t =>
        stillPending (can p t) c = false ∧ Answered q {} t)) := by
  have hc : opCanCancel.check q (taken q s) = none := portCheck_none hok hlen
  have hact : opCanCancel.act q (taken q s) = canCancelAct q (taken q s) := rfl
  rw [canCancelAct, needPort_taken hport hdom] at hact
  simp only [guarded, hport, can_taken] at hact
  refine ⟨fun hnone => ?_, fun c hsome => ⟨fun hatt => ?_, fun hatt => ?_⟩⟩
  · rw [hnone] at hact
    exact answers_of opCanCancel h (f := id) (hc := hc) (hact := hact)
  · rw [hsome] at hact
    exact answers_of opCanCancel h (f := id) (hc := hc) (hact := hact.trans (if_pos hatt))
  · rw [hsome] at hact
    refine completes_of opCanCancel (c := .canCancel q) h hc (hact.trans (if_neg hatt)) ⟨?_, _, rfl⟩
    rw [can_reply, can_onCan]
    exact stillPending_removed _ c

/-- Settles O49, from what an offer, the end of an attempt, a change of mode and each command leave of the port. -/
theorem canFramesGoOut : Obligations.CanFramesGoOut := by
  unfold Obligations.CanFramesGoOut
  refine fun s p => ⟨fun hlive hmode hoff hatt hreq hfree hsegs hown hrep hsilent => ⟨_, rfl, ?_⟩,
    ⟨_, rfl, can_onCan .., only_onCan p _ s⟩, fun h hlive hatt => ?_, fun i hlive hatt => ?_,
    fun m o hreq hdom hatt hretry hoff hleft => ⟨_, rfl, ?_⟩, fun x hpeer hatt => tpTimeout_ends hpeer hatt,
    fun q hok hport hdom => ⟨canGet_answers hok hport hdom, canMode_answers hok hport hdom,
      canRecover_answers hok hport hdom, canSend_answers hport hdom, canCancel_answers hok hport hdom⟩⟩
  · have hcan := canTxStart_offers hlive hmode hoff hatt hreq hfree hsegs hown hrep hsilent
    beta_reduce
    rw [hcan]
    exact ⟨rfl, rfl, rfl, rfl, rfl⟩
  · obtain ⟨t, hexec, hout, hnone⟩ := canFrameSent_leaves hlive hatt
    simp only [outgoing, frameSent, sentCand, Prod.mk.injEq] at hout
    obtain ⟨hfifo, -, hcnt, htec⟩ := hout
    exact ⟨t, hexec, hfifo, hnone, hcnt, htec⟩
  · obtain ⟨t, hexec, hout, hnone⟩ := canFrameSent_leaves hlive hatt
    simp only [outgoing, frameSent, sentCand, Prod.mk.injEq] at hout
    obtain ⟨-, hobj, hcnt, -⟩ := hout
    refine ⟨t, hexec, ?_, hnone, hcnt⟩
    rw [hobj, Fin.getElem_fin, upd_get, if_pos rfl]
    rfl
  · have hm := modeState_enterMode (p := p) (s := s) m o
    simp only [modeState, Prod.mk.injEq] at hm
    have happly := canModeApply_enters hreq hdom hatt hretry hoff hleft
    beta_reduce
    rw [happly]
    exact hm

end Sys2Proof.Proofs

/-! The ISO 11783 address claim (R337 to R339). -/

namespace Sys2Proof.Proofs

open Sys2Proof.Machine Sys2Proof.Safety Sys2Proof.Laws

variable {s : State}

/-- The state that has seen address sa claimed. -/
def claimSeen (sa : Byte) (s : State) : State :=
  { s with canA := { s.canA with
    seen := if s.canA.seen.contains sa then s.canA.seen else s.canA.seen ++ [sa] } }

/-- Another NAME claims the node's own address. -/
theorem addressClaimed_contest {name : BitVec 64} (hruns : isoRuns s = true)
    (hclaim : s.canA.claim = .claiming ∨ s.canA.claim = .claimed) (hne : name ≠ s.id.isoName) :
    addressClaimed name s.canA.addr s =
      if s.id.isoName.toNat < name.toNat then
        sendIso (.addressClaimed s.id.isoName s.canA.addr) (claimSeen s.canA.addr s)
      else match (nextAddr s.canA.addr (claimSeen s.canA.addr s).canA.seen).filter (fun _ => selfConfigurable s) with
        | some a => claimAddr a (claimSeen s.canA.addr s)
        | none => cannotClaim (claimSeen s.canA.addr s) := by
  have hown : (s.canA.claim = .claiming || s.canA.claim = .claimed) = true := by simpa using hclaim
  simp only [addressClaimed, hruns, hown, hne, claimSeen, beq_self_eq_true, beq_iff_eq, Bool.and_self, Bool.not_true,
    Bool.false_or, Bool.false_eq_true, if_false] <;> rfl

theorem only_claimSeen (sa : Byte) (s : State) : Only [.canA] s (claimSeen sa s) := fun p hp => by
  cases p <;> simp_all [same, claimSeen]

theorem only_claimAddr (a : Byte) (s : State) : Only [.canA] s (claimAddr a s) := fun p hp => by
  cases p <;> simp_all [same, claimAddr, sendIso]

/-- The lower NAME keeps its address (R338). -/
theorem lowerNameKeeps {name : BitVec 64} (hruns : isoRuns s = true)
    (hclaim : s.canA.claim = .claiming ∨ s.canA.claim = .claimed) (hlt : s.id.isoName.toNat < name.toNat) :
    Completes (.addressClaimed name s.canA.addr) s fun t =>
      t.canA.addr = s.canA.addr ∧ t.canA.claim = s.canA.claim ∧
      t.canA.own = s.canA.own ++ [.addressClaimed s.id.isoName s.canA.addr] ∧ Only [.canA] s t := by
  have hne : name ≠ s.id.isoName := by
    rintro rfl
    exact lt_irrefl _ hlt
  have hexec := (addressClaimed_contest hruns hclaim hne).trans (if_pos hlt)
  refine ⟨_, congrArg Host.Outcome.next hexec, rfl, rfl, rfl, ?_⟩
  exact only_trans (only_claimSeen _ s) (only_sendIso _ _)

/-- The loser takes the next address. -/
theorem loserMoves {name : BitVec 64} {a : Byte} (hruns : isoRuns s = true)
    (hclaim : s.canA.claim = .claiming ∨ s.canA.claim = .claimed) (hlt : name.toNat < s.id.isoName.toNat)
    (hnext : nextAddr s.canA.addr (claimSeen s.canA.addr s).canA.seen = some a) (hself : selfConfigurable s = true) :
    Completes (.addressClaimed name s.canA.addr) s fun t =>
      t.canA.addr = a ∧ t.canA.claim = .claiming ∧ t.canA.own = s.canA.own ++ [.addressClaimed s.id.isoName a] ∧
      Only [.canA] s t := by
  have hne : name ≠ s.id.isoName := by
    rintro rfl
    exact lt_irrefl _ hlt
  have hexec : addressClaimed name s.canA.addr s = claimAddr a (claimSeen s.canA.addr s) := by
    rw [addressClaimed_contest hruns hclaim hne, if_neg (by omega), hnext, Option.filter_some, hself, if_pos rfl]
  exact ⟨_, congrArg Host.Outcome.next hexec, rfl, rfl, rfl, only_trans (only_claimSeen _ s) (only_claimAddr _ _)⟩

/-- The loser without another address says so. -/
theorem loserGivesUp {name : BitVec 64} (hruns : isoRuns s = true)
    (hclaim : s.canA.claim = .claiming ∨ s.canA.claim = .claimed) (hlt : name.toNat < s.id.isoName.toNat)
    (hnone : nextAddr s.canA.addr (claimSeen s.canA.addr s).canA.seen = none ∨ selfConfigurable s = false) :
    Completes (.addressClaimed name s.canA.addr) s fun t =>
      t.canA.addr = 254 ∧ t.canA.claim = .cannotClaim ∧ t.canA.silent = true ∧
      t.canA.own = s.canA.own ++ [.cannotClaim s.id.isoName] ∧
      (s.ev.host.length < 64 → Held .host 0x0407 0xFF t) := by
  have hne : name ≠ s.id.isoName := by
    rintro rfl
    exact lt_irrefl _ hlt
  have hleft : (nextAddr s.canA.addr (claimSeen s.canA.addr s).canA.seen).filter (fun _ => selfConfigurable s) =
      none := by
    rcases hnone with h | h
    · rw [h, Option.filter_none]
    · simp [h]
  have hexec : addressClaimed name s.canA.addr s = cannotClaim (claimSeen s.canA.addr s) := by
    rw [addressClaimed_contest hruns hclaim hne, if_neg (by omega), hleft]
  have hcan : (cannotClaim (claimSeen s.canA.addr s)).canA = { (claimSeen s.canA.addr s).canA with
      addr := 254, claim := .cannotClaim, silent := true, own := s.canA.own ++ [.cannotClaim s.id.isoName] } :=
    can_note (p := .a) ..
  refine ⟨_, congrArg Host.Outcome.next hexec, ?_, ?_, ?_, ?_, fun hroom => held_note_host _ _ _ _ hroom⟩
  all_goals rw [hcan]

/-- Settles O50, by what each command of the claim does where ISO 11783 runs. -/
theorem theAddressIsClaimed : Obligations.TheAddressIsClaimed := by
  unfold Obligations.TheAddressIsClaimed
  refine fun s => ⟨fun hruns hqual => ⟨fun hclaim => ?_, fun a ha => ?_⟩, fun hclaim => ?_,
    fun hruns hclaim => ⟨?_, fun name => ⟨lowerNameKeeps hruns hclaim, fun hlt => ⟨fun a hnext hself =>
      loserMoves hruns hclaim hlt hnext hself, loserGivesUp hruns hclaim hlt⟩⟩⟩, fun hruns hclaim hsilent => ?_⟩
  · exact congrArg Host.Outcome.next (if_pos (by simp [hruns, hqual, hclaim]))
  · exact congrArg Host.Outcome.next (if_pos (by simp [hruns, hqual, ha]))
  · exact congrArg Host.Outcome.next (if_pos hclaim)
  · have hown : (s.canA.claim = .claiming || s.canA.claim = .claimed) = true := by simpa using hclaim
    change execRequestAddressClaimed _ = _
    simp only [execRequestAddressClaimed, hruns, hown]
    rfl
  · refine congrArg Host.Outcome.next ((if_neg (by simp [hruns])).trans ((if_neg ?_).trans (if_pos hsilent)))
    simp [hclaim]

end Sys2Proof.Proofs

/-! Transfers of the service port (R341 to R345, R349, R351, R353, R354, R356). -/

namespace Sys2Proof.Proofs

open Sys2Proof.Machine Sys2Proof.Safety Sys2Proof.Laws

variable {s t : State}

/-- CNT_WITHDRAWN once SCL has fallen (R353). -/
def withdrawn (s : State) : Byte := if s.svc.sdaLow then satInc s.svc.cntWithdrawn else s.svc.cntWithdrawn

/-- The state in which no attention request is under way. -/
def lineFree (s : State) : State := { s with svc := { s.svc with sdaLow := false, cntWithdrawn := withdrawn s } }

theorem attentionWithdraw_eq (s : State) : attentionWithdraw s = lineFree s := by
  unfold attentionWithdraw lineFree withdrawn
  cases h : s.svc.sdaLow with
  | true => rfl
  | false =>
    have hsvc : { s.svc with sdaLow := false } = s.svc := by rw [← h]
    exact congrArg (fun c => { s with svc := c }) hsvc.symm

/-- DFILT as it takes effect at a STOP (R351). -/
def dfilt (s : State) : BitVec 4 := BitVec.ofNat 4 (field (reg s 0x060000) 3 0)

theorem busStop_eq (h : t.regs = s.regs) (hid : t.id = s.id) :
    busStop t = { t with svc := { t.svc with active := false, filt := dfilt s } } := by
  simp [busStop, dfilt, reg, h, hid]

/-- A transfer for another target (R341). -/
theorem i2cWrite_other {a : BitVec 7} (bs : List Byte) (hlive : svcLive s = true) (ha : addressed a s = false) :
    i2cWrite a bs s = busStop (lineFree s) := by
  have hother : addressed a (lineFree s) = false := ha
  simp [i2cWrite, hlive, attentionWithdraw_eq, hother]

theorem i2cRead_other {a : BitVec 7} (n : Nat) (hlive : svcLive s = true) (ha : addressed a s = false) :
    i2cRead a n s = busStop (lineFree s) := by
  have hother : addressed a (lineFree s) = false := ha
  simp [i2cRead, hlive, attentionWithdraw_eq, hother]

/-- The target's state during a transfer that names it. -/
def transferring (s : State) : State := { lineFree s with svc := { (lineFree s).svc with active := true } }

theorem i2cWrite_own {a : BitVec 7} (bs : List Byte) (hlive : svcLive s = true) (ha : addressed a s = true) :
    i2cWrite a bs s = busStop (writeData bs (transferring s)) := by
  have hown : addressed a (lineFree s) = true := ha
  simp [i2cWrite, hlive, attentionWithdraw_eq, hown, transferring]

/-- A byte written at pointer 0 selects the page (R343). -/
theorem writeData_page (b : Byte) (s : State) :
    writeData [0, b] s = { s with svc := { s.svc with page := b.setWidth 6, pointer := 1 } } := by
  simp [writeData, putAt, setPointer]

theorem ne_of_mailbox {p : Byte} (k : Byte) (hk : k.toNat ≤ 3) (hp : 3 < p.toNat) : p ≠ k := by
  rintro rfl
  omega

/-- A byte of the mailbox page from pointer 4 on. -/
theorem putAt_mailbox {p : Byte} (b : Byte) (hpage : s.svc.page = 0x3F) (hp : 3 < p.toNat) :
    putAt p b s = if s.svc.busy then { s with svc := { s.svc with overrun := true } } else
      { s with svc := { s.svc with
        ready := false, attnPend := false, wroteSince := true, buf := store sramByte s.svc.buf p.toNat b } } := by
  have hlen : p.toNat ≠ 3 := by omega
  rw [putAt, if_neg (ne_of_mailbox 0 (by decide) hp), if_neg (by simp [hpage, ne_of_mailbox 2#8 (by decide) hp]),
    if_neg (ne_of_mailbox 1 (by decide) hp), mbWrite]
  dsimp only
  rw [if_neg hlen]

/-- A byte written into the buffer (R345, R349). -/
theorem writeMailbox {a : BitVec 7} {p : Byte} (b : Byte) (hlive : svcLive s = true) (ha : addressed a s = true)
    (hpage : s.svc.page = 0x3F) (hp : 3 < p.toNat) : Completes (.i2cWriteTransfer a [p, b]) s fun t =>
      Only [.svc] s t ∧ t.svc.pointer = p + 1 ∧ t.svc.cntWithdrawn = withdrawn s ∧ t.svc.filt = dfilt s ∧
      (s.svc.busy = true → t.svc.overrun = true ∧ t.svc.buf = s.svc.buf ∧ t.svc.ready = s.svc.ready) ∧
      (s.svc.busy = false → t.svc.ready = false ∧ t.svc.overrun = s.svc.overrun ∧ t.svc.mbLen = s.svc.mbLen ∧
        t.svc.buf = store sramByte s.svc.buf p.toNat b) := by
  refine ⟨_, congrArg Host.Outcome.next (i2cWrite_own [p, b] hlive ha), ?_⟩
  simp only [writeData, List.foldl_cons, List.foldl_nil]
  have hput := putAt_mailbox (s := setPointer p (transferring s)) b hpage hp
  have hbusy : (setPointer p (transferring s)).svc.busy = s.svc.busy := rfl
  have hptr : (setPointer p (transferring s)).svc.pointer = p := rfl
  rw [hptr, hput, hbusy]
  cases hb : s.svc.busy with
  | true =>
    rw [if_pos rfl, busStop_eq (s := s) (by simp [setPointer, transferring, lineFree])
      (by simp [setPointer, transferring, lineFree])]
    exact ⟨fun x hx => by cases x <;> simp_all [same, setPointer, transferring, lineFree], rfl, rfl, rfl,
      fun _ => ⟨rfl, rfl, rfl⟩, fun h => absurd h (by decide)⟩
  | false =>
    rw [if_neg (by decide), busStop_eq (s := s) (by simp [setPointer, transferring, lineFree])
      (by simp [setPointer, transferring, lineFree])]
    exact ⟨fun x hx => by cases x <;> simp_all [same, setPointer, transferring, lineFree], rfl, rfl, rfl,
      fun h => absurd h (by decide), fun _ => ⟨rfl, rfl, rfl, rfl⟩⟩

/-- The bytes of a read transfer (R343, R345). -/
def readOut (n : Nat) (s : State) : List Byte :=
  ((List.range n).map fun i => s.svc.pointer + BitVec.ofNat 8 i).map fun p => byteOf (page0 s) p s

theorem readOut_get (n i : Nat) (hi : i < n) (s : State) :
    (readOut n s)[i]? = some (byteOf (page0 s) (s.svc.pointer + BitVec.ofNat 8 i) s) := by
  simp [readOut, hi]

theorem byteOf_mailbox {snap : List Byte} {a : Byte} (hpage : s.svc.page = 0x3F) (ha : 3 < a.toNat) :
    byteOf snap a s = look sramByte s.svc.buf a.toNat := by
  rw [byteOf, if_neg (ne_of_mailbox 0 (by decide) ha), if_neg (by rw [hpage]; decide), if_neg (by simp [hpage]),
    if_neg (ne_of_mailbox 1 (by decide) ha), if_neg (ne_of_mailbox 2 (by decide) ha),
    if_neg (ne_of_mailbox 3 (by decide) ha)]

theorem byteOf_empty {snap : List Byte} {a : Byte} (hzero : s.svc.page ≠ 0) (hmail : s.svc.page ≠ 0x3F)
    (ha : a ≠ 0) : byteOf snap a s = 0 := by
  simp_all [byteOf]

theorem i2cRead_own {a : BitVec 7} (n : Nat) (hlive : svcLive s = true) (ha : addressed a s = true) :
    ∃ (x y : Bool), i2cRead a n s = busStop { transferring s with svc := { (transferring s).svc with
      lastRead := readOut n (transferring s), pointer := s.svc.pointer + BitVec.ofNat 8 n
      attnPend := x, taken := y } } := by
  have hown : addressed a (lineFree s) = true := ha
  unfold i2cRead
  rw [attentionWithdraw_eq]
  simp only [hlive, hown, Bool.not_true, Bool.false_eq_true, if_false]
  exact ⟨_, _, rfl⟩

theorem readPages {a : BitVec 7} (n : Nat) (hlive : svcLive s = true) (ha : addressed a s = true) :
    Completes (.i2cReadTransfer a n) s fun t =>
      Only [.svc] s t ∧ t.svc.pointer = s.svc.pointer + BitVec.ofNat 8 n ∧ t.svc.lastRead.length = n ∧
      t.svc.cntWithdrawn = withdrawn s ∧ t.svc.filt = dfilt s ∧ t.svc.buf = s.svc.buf ∧ t.svc.page = s.svc.page ∧
      (∀ i, i < n → s.svc.page = 0x3F → 3 < (s.svc.pointer + BitVec.ofNat 8 i).toNat →
        t.svc.lastRead[i]? = some (look sramByte s.svc.buf (s.svc.pointer + BitVec.ofNat 8 i).toNat)) ∧
      (∀ i, i < n → s.svc.page ≠ 0 → s.svc.page ≠ 0x3F → s.svc.pointer + BitVec.ofNat 8 i ≠ 0 →
        t.svc.lastRead[i]? = some 0) := by
  obtain ⟨x, y, hread⟩ := i2cRead_own n hlive ha
  refine ⟨_, congrArg Host.Outcome.next hread, fun z hz => ?_, rfl, by simp [busStop, readOut], rfl, rfl, rfl, rfl,
    fun i hi hpage hp => (readOut_get n i hi _).trans (congrArg some (byteOf_mailbox hpage hp)),
    fun i hi hzero hmail hp => (readOut_get n i hi _).trans (congrArg some (byteOf_empty hzero hmail hp))⟩
  cases z <;> simp_all [same, busStop, transferring, lineFree]

/-- Settles O51. -/
theorem serviceTransfersMoveBytes : Obligations.ServiceTransfersMoveBytes := by
  unfold Obligations.ServiceTransfersMoveBytes
  intro s hlive w df
  have hw : w = withdrawn s := rfl
  have hdf : df = dfilt s := rfl
  clear_value w df
  subst hw hdf
  refine ⟨fun a bs ha => ⟨_, congrArg Host.Outcome.next (i2cWrite_other bs hlive ha), rfl⟩,
    fun a n ha => ⟨_, congrArg Host.Outcome.next (i2cRead_other n hlive ha), rfl⟩,
    fun a b ha => ⟨_, congrArg Host.Outcome.next (i2cWrite_own [0, b] hlive ha), ?_⟩,
    fun a p b ha hpage hp => writeMailbox b hlive ha hpage hp, fun a n ha => readPages n hlive ha, ?_, ?_⟩
  · beta_reduce
    rw [writeData_page, busStop_eq (s := s) (by simp [transferring, lineFree]) (by simp [transferring, lineFree])]
    rfl
  · refine ⟨_, congrArg Host.Outcome.next (if_pos hlive), ?_⟩
    dsimp only
    rw [attentionWithdraw_eq]
    rfl
  · refine ⟨_, congrArg Host.Outcome.next (if_pos hlive), ?_⟩
    dsimp only
    rw [attentionWithdraw_eq]
    rfl

end Sys2Proof.Proofs

/-! Requests and replies of the mailbox, and the attention request (R346 to R349, R352, R353). -/

namespace Sys2Proof.Proofs

open Sys2Proof.Machine Sys2Proof.Safety Sys2Proof.Laws

variable {s : State} {p : Packet}

/-! ## GO (R346, R349) -/

theorem mbCommand_busy (b : Byte) (hlive : svcLive s = true) (hbusy : s.svc.busy = true) :
    mbCommand b s = { s with svc := { s.svc with overrun := true } } := by
  simp [mbCommand, mbCtrl, hlive, hbusy]

theorem serveEntry_halted (h : hcoreRuns s = false) : serveEntry s = s := by
  unfold serveEntry
  split
  · rfl
  · simp [h]

theorem takeGo_halted (h : hcoreRuns s = false) : takeGo s = s := by
  simp [takeGo, h]

/-- What waits for a halted H-core goes on waiting (R399). -/
theorem catchUp_halted (h : hcoreRuns s = false) : catchUp s = s := by
  unfold catchUp
  generalize List.range (s.chain.rg4.length + 1) = l
  induction l with
  | nil => rfl
  | cons x l ih => rw [List.foldl_cons, takeGo_halted h, serveEntry_halted h, ite_self, ih]

theorem takeGo_takes (hgo : s.svc.goWaits = true) (hrun : hcoreRuns s = true) (hpow : domOn s 10 = true)
    (hmin : 20 ≤ s.svc.mbLen.toNat) (hmax : s.svc.mbLen.toNat ≤ 252) : takeGo s =
      takeBytes .svc (readBytes sramByte s.svc.buf 4 s.svc.mbLen.toNat)
        { s with svc := { s.svc with goWaits := false } } := by
  have hlen : ¬ (s.svc.mbLen.toNat < 20 ∨ 252 < s.svc.mbLen.toNat) := by omega
  simp [takeGo, hgo, hrun, hpow, hlen]

theorem mbGo_waits (hlive : svcLive s = true) (hfree : s.svc.busy = false) (hpow : domOn s 1 = true)
    (hrun : hcoreRuns s = false) : exec .mbGo s = .next (goSet s) := by
  have hhalt : hcoreRuns (goSet s) = false := hrun
  rw [exec_mbGo hlive hfree, mailGo_powered hpow, catchUp_halted hhalt]

theorem mbGo_takes (hlive : svcLive s = true) (hfree : s.svc.busy = false) (hpow : domOn s 1 = true)
    (hrun : hcoreRuns s = true) (hring : s.chain.rg4 = [])
    (hmin : 20 ≤ s.svc.mbLen.toNat) (hmax : s.svc.mbLen.toNat ≤ 252) : exec .mbGo s =
      .next (takeBytes .svc (readBytes sramByte s.svc.buf 4 s.svc.mbLen.toNat)
        { goSet s with svc := { (goSet s).svc with goWaits := false } }) := by
  obtain ⟨hpow10, -⟩ : domOn s 10 = true ∧ clockOn s = true := by simpa [svcLive] using hlive
  rw [exec_mbGo hlive hfree, mailGo_powered hpow, catchUp_go (s := goSet s) hring rfl,
    takeGo_takes (s := goSet s) rfl hrun hpow10 hmin hmax]
  rfl

/-! ## NEXT and replies (R349) -/

theorem exec_mbNext (hlive : svcLive s = true) (hfree : s.svc.busy = false) : exec .mbNext s = .next (mailNext s) := by
  have hnext : mbCtrl (if s.svc.attnEn then 6 else 4) s = mailNext s := by
    cases hattn : s.svc.attnEn with
    | true =>
      have hsvc : { s.svc with attnEn := true } = s.svc := by rw [← hattn]
      rw [mbCtrl, if_neg (by simp [hfree])]
      exact congrArg (fun c => mailNext { s with svc := c }) hsvc
    | false =>
      have hsvc : { s.svc with attnEn := false } = s.svc := by rw [← hattn]
      rw [mbCtrl, if_neg (by simp [hfree])]
      exact congrArg (fun c => mailNext { s with svc := c }) hsvc
  rw [← hnext]
  exact congrArg _ (if_pos hlive)

theorem mailNext_none (h : s.svc.heldReplies = []) :
    mailNext s = { s with svc := { s.svc with ready := false, attnPend := false, mbLen := 0 } } := by
  unfold mailNext
  rw [h]

theorem mailNext_loads {ps : List Packet} (h : s.svc.heldReplies = p :: ps) : mailNext s =
    loadReply p { s with svc := { s.svc with ready := false, attnPend := false, heldReplies := ps } } := by
  unfold mailNext
  rw [h]

theorem only_loadReply (p : Packet) (s : State) : Only [.svc] s (loadReply p s) := fun x hx => by
  cases x <;> simp_all [same, loadReply]

theorem loadReply_svc (p : Packet) (s : State) : let c := (loadReply p s).svc
    c.ready = true ∧ c.mbLen = BitVec.ofNat 8 (20 + p.payload.length) ∧
      c.buf = writeBytes sramByte s.svc.buf 4 (packetBytes p) ∧ c.heldReplies = s.svc.heldReplies ∧
      c.attnPend = (s.svc.attnPend || (s.svc.attnEn && !s.svc.ready)) := by
  simp [loadReply]

theorem answersGo_free (p : Packet) (h : s.svc.busy = false) : answersGo p s = false := by
  simp [answersGo, isGo, h]

theorem mailReply_free (hdom : domOn s 10 = true) (hbusy : s.svc.busy = false) (hready : s.svc.ready = false)
    (hwrote : s.svc.wroteSince = false) : mailReply p s = loadReply p s := by
  simp [mailReply, hdom, hbusy, hready, hwrote]

theorem mailReply_unread (hdom : domOn s 10 = true) (hbusy : s.svc.busy = false) (hready : s.svc.ready = true) :
    mailReply p s = if s.svc.heldReplies.length < 15 then
      { s with svc := { s.svc with heldReplies := s.svc.heldReplies ++ [p] } }
      else { s with pkt := { s.pkt with svc := { s.pkt.svc with drop := satInc s.pkt.svc.drop } } } := by
  have hheld : s.svc.heldReplies.length + 1 < 16 ↔ s.svc.heldReplies.length < 15 := by omega
  simp [mailReply, hdom, answersGo_free p hbusy, hbusy, hready, b2n, hheld]

/-- Settles O52, by what each command does to the mailbox and to the attention request. -/
theorem mailboxRunsRequestsAndReplies : Obligations.MailboxRunsRequestsAndReplies := by
  unfold Obligations.MailboxRunsRequestsAndReplies
  refine fun s => ⟨fun hlive hbusy => ⟨⟨_, rfl, mbCommand_busy _ hlive hbusy⟩, ⟨_, rfl, mbCommand_busy _ hlive hbusy⟩⟩,
    fun hlive hfree hpow => ⟨fun hrun => ⟨_, mbGo_waits hlive hfree hpow hrun, rfl⟩, fun hrun hring hmin hmax =>
      ⟨_, mbGo_takes hlive hfree hpow hrun hring hmin hmax, rfl⟩⟩,
    fun hlive hfree => ⟨fun hnone => ?_, fun p ps hheld => ?_⟩,
    fun p hdom => ⟨fun hbusy hready hwrote => ?_, fun hbusy hready hroom => ?_, fun hbusy hready hfull => ?_⟩,
    fun hlive => ⟨_, congrArg Host.Outcome.next (if_pos hlive), rfl⟩, fun hlive hpend => ?_, fun hpend => ?_,
    fun hlow => ⟨⟨_, congrArg Host.Outcome.next (if_pos hlow), rfl⟩,
      ⟨_, congrArg Host.Outcome.next (if_pos hlow), rfl⟩⟩⟩
  · exact ⟨_, exec_mbNext hlive hfree, mailNext_none hnone⟩
  · have hsvc := loadReply_svc p { s with svc := { s.svc with ready := false, attnPend := false, heldReplies := ps } }
    simp only [Bool.false_or, Bool.not_false, Bool.and_true] at hsvc
    refine ⟨_, (exec_mbNext hlive hfree).trans (congrArg _ (mailNext_loads hheld)), ?_, hsvc⟩
    refine only_trans (fun x hx => ?_) (only_loadReply p _)
    cases x <;> simp_all [same]
  · have hsvc := loadReply_svc p s
    simp only [hready, Bool.not_false, Bool.and_true] at hsvc
    exact ⟨_, congrArg Host.Outcome.next (mailReply_free hdom hbusy hready hwrote), only_loadReply p s, hsvc⟩
  · exact ⟨_, rfl, (mailReply_unread hdom hbusy hready).trans (if_pos hroom)⟩
  · exact ⟨_, rfl, (mailReply_unread hdom hbusy hready).trans (if_neg (by omega))⟩
  · exact ⟨_, congrArg Host.Outcome.next (if_pos (by simp [hlive, hpend])), rfl⟩
  · exact ⟨_, congrArg Host.Outcome.next (if_neg (by simp [hpend])), rfl⟩

end Sys2Proof.Proofs

/-! Wakes run at once or are latched, and the causes of a wake at the field side (R370 to R375, R461). -/

namespace Sys2Proof.Proofs

open Sys2Proof.Machine Sys2Proof.Safety Sys2Proof.Laws

variable {s t : State} {w : WakeSrc} {r : Byte}

/-! ## What starting domains leaves of the clock, of the modes and of the record of a wake -/

/-- What the start of a domain leaves alone beside what `Starts` names. -/
def roused (s : State) : Clock × Modes × Bool × Byte := (s.clk, s.modes, s.pwr.whyCold, s.pwr.marlReason)

theorem roused_of (hclk : t.clk = s.clk) (hmodes : t.modes = s.modes) (hpwr : t.pwr = s.pwr) : roused t = roused s := by
  rw [roused, hclk, hmodes, hpwr, roused]

theorem roused_setDom (d : Fin 18) (v : Dom) (s : State) : roused (setDom d v s) = roused s := by
  unfold setDom
  split <;> rfl

theorem roused_applyCanMode (k : Nat) (s : State) : roused (applyCanMode k s) = roused s := by
  unfold applyCanMode
  extract_lets
  split <;> rfl

/-- The stored settings of a domain are registers, and copies of them away from the clock. -/
theorem roused_applyHostItem {d : Fin 18} {k : Nat} (hk : k ∈ domItems d) (s : State) :
    roused (applyHostItem k s) = roused s := by
  unfold applyHostItem
  extract_lets u
  have hu : roused u = roused s := foldl_keep roused (fun s (w : Nat × Word) => setReg w.1 w.2 s) (fun _ _ => rfl) _ s
  split
  · exact hu
  · exact absurd rfl (domItems_ne hk)
  · exact (roused_applyCanMode _ u).trans hu
  · exact (roused_applyCanMode _ u).trans hu
  · exact hu
  · exact hu
  · exact hu

theorem roused_startDom (d : Fin 18) (v : Dom) (s : State) : roused (startDom d v s) = roused s := by
  unfold startDom
  extract_lets was s1 _ s2 _ s3
  have h1 : roused s1 = roused s := roused_setDom d v s
  have h2 : roused s2 = roused s := by
    unfold s2
    split
    · exact h1
    · exact h1
  have h3 : roused s3 = roused s := by
    unfold s3
    split
    · exact h2
    · exact h2
  split
  · exact h1
  · split
    · exact (foldl_keep_of_mem roused _ _ s3 fun k hk u => roused_applyHostItem hk u).trans h3
    · exact h3

theorem roused_startOff (d : Fin 18) (s : State) : roused (startOff d s) = roused s := by
  unfold startOff
  split
  · rfl
  · exact roused_startDom d .on s

theorem roused_skipNote (mask : Word) (s : State) : roused (skipNote mask s) = roused s := by
  unfold skipNote
  split
  · rfl
  · exact roused_of (by simp) (by simp) (by simp)

theorem roused_startWset (which : Fin 18 → Bool) (s : State) : roused (startWset which s) = roused s := by
  unfold startWset
  refine (roused_skipNote _ _).trans ?_
  refine foldl_inv (fun x : State × Word => roused x.1 = roused s) _ (fun x d hx => ?_) _ (s, 0) rfl
  split
  · exact (roused_startDom d .on x.1).trans hx
  · exact hx

theorem roused_startFieldSet (s : State) : roused (startFieldSet s) = roused s := by
  unfold startFieldSet
  split
  · exact (roused_startWset _ _).trans rfl
  · rfl

theorem roused_wakePort (w : WakeSrc) (s : State) : roused (wakePort w s) = roused s := by
  unfold wakePort
  split <;> rfl

/-- The clock and the modes as a wake finds them: after a cold relock, where MCLK was stopped (R374). -/
def wakeClocked (s : State) : State := if s.clk.tree = .stopped then relockFresh s else s

theorem roused_runWake (w : WakeSrc) (r : Byte) (s : State) : roused (runWake w r s) =
    ((wakeClocked s).clk, (wakeClocked s).modes, decide (s.clk.tree = .stopped), if w = .marl then r else 0) := by
  unfold runWake
  extract_lets cold s1 s2 s3 _ s4 s5
  have h1 : s1 = wakeClocked s := by simp [s1, cold, wakeClocked]
  have h2 : roused s2 = roused s1 := by
    unfold s2
    split
    · exact roused_startOff _ s1
    · rfl
  have h3 : roused s3 = roused s1 :=
    (roused_wakePort w _).trans ((roused_startOff 1 _).trans ((roused_startOff 0 _).trans h2))
  have h4 : roused s4 = ((wakeClocked s).clk, (wakeClocked s).modes, cold, if w = .marl then r else 0) := by
    simp only [roused, Prod.mk.injEq] at h3
    obtain ⟨hclk, hmodes, -⟩ := h3
    rw [← h1, ← hclk, ← hmodes]
    rfl
  have h5 : roused s5 = roused s4 := roused_startWset _ s4
  split
  · split
    · exact (roused_startFieldSet s5).trans (h5.trans h4)
    · split
      · exact (roused_startWset _ s5).trans (h5.trans h4)
      · exact h5.trans h4
  · exact h4

theorem relockFresh_tree (s : State) : (relockFresh s).clk.tree = .relocking := by
  simp [relockFresh, stopLink]

/-! ## A wake source (R373 to R375, R461) -/

/-- The commands at which source w fires with a reason. -/
def Fires (c : Instr) (w : WakeSrc) (r : Byte) : Prop :=
  c = .wake w r ∨ (c = .tckWake ∧ w = .tck ∧ r = 0) ∨ (c = .canWakeEdge .a ∧ w = .canAEdge ∧ r = 0) ∨
    (c = .canWakeEdge .b ∧ w = .canBEdge ∧ r = 0) ∨ (c = .lineEnergyWake .up ∧ w = .energyUp ∧ r = 0) ∨
    (c = .lineEnergyWake .dn ∧ w = .energyDn ∧ r = 0)

theorem exec_fires {c : Instr} (h : Fires c w r) (s : State) : exec c s = .next (catchUp (wake w r s)) := by
  rcases h with rfl | ⟨rfl, rfl, rfl⟩ | ⟨rfl, rfl, rfl⟩ | ⟨rfl, rfl, rfl⟩ | ⟨rfl, rfl, rfl⟩ | ⟨rfl, rfl, rfl⟩ <;> rfl

theorem wake_off (h : wakeEnabled w s = false ∨ s.pwr.wakeLogic = false) : wake w r s = s := by
  unfold wake
  rw [if_pos (by rcases h with h | h <;> simp [h])]

theorem wake_latches (hen : wakeEnabled w s = true) (hlogic : s.pwr.wakeLogic = true)
    (hbusy : s.pwr.txn.isSome = true ∨ s.pwr.lsup = false) :
    wake w r s = { s with pwr := { s.pwr with wakeLatch := s.pwr.wakeLatch <|> some (w, r) } } := by
  unfold wake
  rw [if_neg (by simp [hen, hlogic]), if_pos (by rcases hbusy with h | h <;> simp [h])]

theorem wake_runs (hen : wakeEnabled w s = true) (hlogic : s.pwr.wakeLogic = true) (htxn : s.pwr.txn = none)
    (hlsup : s.pwr.lsup = true) : wake w r s = runWake w r s := by
  unfold wake
  rw [if_neg (by simp [hen, hlogic]), if_neg (by simp [htxn, hlsup])]

theorem runWake_completes {c : Instr} (h : Fires c w r) (hring : s.chain.rg4 = []) (hgo : s.svc.goWaits = false)
    (hrun : wake w r s = runWake w r s) : Completes c s fun t =>
      t.pwr.dom[0] = .on ∧ t.pwr.dom[1] = .on ∧ t.pwr.why = wakeCode w ∧
      t.pwr.whyCold = decide (s.clk.tree = .stopped) ∧ t.pwr.wakes = satInc s.pwr.wakes ∧
      (s.clk.tree = .stopped → t.clk.tree = .relocking) ∧
      (s.clk.tree ≠ .stopped → t.clk = s.clk ∧ t.modes = s.modes) ∧
      t.pwr.marlReason = (if w = .marl then r else 0) := by
  have hwoken := wokenBy_runWake w r s
  have hidle := catchUp_of_inbox_empty (hwoken.inbox_eq.trans (congrArg₂ Prod.mk hring hgo))
  have hroused := roused_runWake w r s
  simp only [roused, Prod.mk.injEq] at hroused
  obtain ⟨hclk, hmodes, hcold, hmarl⟩ := hroused
  refine ⟨runWake w r s, by rw [exec_fires h, hrun, hidle], of_decide_eq_true hwoken.hsram,
    of_decide_eq_true hwoken.hcore, hwoken.why, hcold, hwoken.wakes, fun hstop => ?_, fun hgoing => ?_, hmarl⟩
  · rw [hclk, wakeClocked, if_pos hstop, relockFresh_tree]
  · rw [hclk, hmodes, wakeClocked, if_neg hgoing]
    exact ⟨rfl, rfl⟩

/-! ## A pulse at the field side (R371, R372) -/

theorem wake_held (h : s.pwr.txn.isSome = true ∨ s.pwr.lsup = false) :
    ∃ x, wake w r s = { s with pwr := { s.pwr with wakeLatch := x } } := by
  by_cases hen : wakeEnabled w s = true ∧ s.pwr.wakeLogic = true
  · exact ⟨_, wake_latches hen.1 hen.2 h⟩
  · exact ⟨s.pwr.wakeLatch, wake_off (by simpa [imp_iff_not_or] using hen)⟩

/-- PWRF_STAT latches the cause of the pulse. -/
def pulsed (sin0 : Bool) (s : State) : State :=
  { s with pwr := { s.pwr with fsupWake := s.pwr.fsupWake || !sin0, sin0Wake := s.pwr.sin0Wake || sin0 } }

theorem fieldWakePulse_latched {sin0 : Bool} (hsup : s.pwr.fsup ≠ .absent)
    (hbit : sin0 = true → bit (reg s 0x140000) 0 = true) (hretry : s.barr.epochRetry = false)
    (hbusy : s.pwr.txn.isSome = true ∨ s.pwr.lsup = false) :
    ∃ x, fieldWakePulse sin0 s = { pulsed sin0 s with pwr := { (pulsed sin0 s).pwr with wakeLatch := x } } := by
  have heq : fieldWakePulse sin0 s = wake (if sin0 then .sin0 else .fsup) 0 (pulsed sin0 s) := by
    have hgo : ¬ (decide (s.pwr.fsup = .absent) || (sin0 && !bit (reg s 0x140000) 0)) = true := by
      cases sin0 with
      | false => simp [hsup]
      | true => simp [hsup, hbit rfl]
    rw [fieldWakePulse, if_neg hgo]
    simp only [hretry, Bool.and_false, Bool.false_and, Bool.false_eq_true, if_false]
    rfl
  rw [heq]
  exact wake_held (s := pulsed sin0 s) hbusy

/-- Settles O53, by what a wake is where its source is off, where it waits, and where it runs. -/
theorem wakesRunOrAreLatched : Obligations.WakesRunOrAreLatched := by
  unfold Obligations.WakesRunOrAreLatched
  refine fun s hring hgo => ⟨fun c w r hc => ⟨fun hoff => ?_, fun hen hlogic hbusy => ?_,
    fun hen hlogic htxn hlsup => runWake_completes hc hring hgo (wake_runs hen hlogic htxn hlsup)⟩,
    fun sin0 => ⟨fun hoff => ?_, fun hsup hbit hretry hbusy => ?_⟩, fun hup hread => ?_, fun hread => ?_⟩
  · exact ⟨s, by rw [exec_fires hc, wake_off hoff, catchUp_idle s hring hgo], rfl⟩
  · refine ⟨_, by rw [exec_fires hc, wake_latches hen hlogic hbusy]; exact congrArg _ (catchUp_idle _ hring hgo), rfl⟩
  · have hsame : fieldWakePulse sin0 s = s := by
      unfold fieldWakePulse
      rw [if_pos (by rcases hoff with h | ⟨h, h'⟩ <;> simp [*])]
    refine ⟨s, ?_, rfl⟩
    change Host.Outcome.next (catchUp (fieldWakePulse sin0 s)) = _
    rw [hsame, catchUp_idle s hring hgo]
  · obtain ⟨x, hpulse⟩ := fieldWakePulse_latched hsup hbit hretry hbusy
    refine ⟨fieldWakePulse sin0 s, ?_, by rw [hpulse]; rfl, by rw [hpulse]; rfl, ?_⟩
    · exact congrArg Host.Outcome.next (catchUp_idle _ (by rw [hpulse]; exact hring) (by rw [hpulse]; exact hgo))
    · rw [hpulse]
      exact only_pwr _ s
  · exact ⟨_, congrArg Host.Outcome.next (if_pos hup), by simp [fieldReadAct, hread]⟩
  · refine ⟨_, rfl, ?_⟩
    split
    · simp [fieldReadAct, hread]
    · rfl

end Sys2Proof.Proofs

/-! Domain-set transactions (R364 to R368). -/

namespace Sys2Proof.Proofs

open Sys2Proof.Machine Sys2Proof.Safety Sys2Proof.Laws

variable {s t u : State}

/-! ## The start and the stop of one domain -/

/-- The power side with domain d in state v, and the sensor supply with PD_SENSE (R467). -/
def withDom (d : Fin 18) (v : Dom) (p : Power) : Power :=
  { p with dom := p.dom.set d v, ssup := if d = 17 then decide (v = .on) else p.ssup }

/-- Domain d takes state v, and nothing comes to wait for H-core. -/
def Moves (d : Fin 18) (v : Dom) (s t : State) : Prop :=
  t.pwr = withDom d v s.pwr ∧ (inbox s = ([], false) → inbox t = ([], false))

theorem moves_setDom (d : Fin 18) (v : Dom) (s : State) : Moves d v s (setDom d v s) := by
  unfold setDom
  split
  · exact ⟨rfl, id⟩
  · exact ⟨rfl, id⟩

/-- What keeps the power side and the work for H-core goes unnoticed before and after the change. -/
def Quietly (s t : State) : Prop := t.pwr = s.pwr ∧ (inbox s = ([], false) → inbox t = ([], false))

theorem Quietly.refl (s : State) : Quietly s s := ⟨rfl, id⟩

theorem Quietly.trans (h : Quietly s t) (g : Quietly t u) : Quietly s u := ⟨g.1.trans h.1, g.2 ∘ h.2⟩

theorem Quietly.ite {c : Prop} [Decidable c] (h : Quietly s t) (g : Quietly s u) : Quietly s (if c then t else u) := by
  split <;> assumption

theorem Quietly.of_inbox (hpwr : t.pwr = s.pwr) (h : inbox t = inbox s) : Quietly s t := ⟨hpwr, h.trans⟩

theorem Moves.after {d : Fin 18} {v : Dom} (h : Moves d v t u) (g : Quietly s t) : Moves d v s u :=
  ⟨h.1.trans (congrArg _ g.1), h.2 ∘ g.2⟩

theorem Moves.before {d : Fin 18} {v : Dom} (h : Moves d v s t) (g : Quietly t u) : Moves d v s u :=
  ⟨g.1.trans h.1, g.2 ∘ h.2⟩

theorem applyHostItem_pwr (k : Nat) (s : State) : (applyHostItem k s).pwr = s.pwr := by
  unfold applyHostItem
  extract_lets u
  have hu : u.pwr = s.pwr :=
    foldl_keep (fun s : State => s.pwr) (fun s (w : Nat × Word) => setReg w.1 w.2 s) (fun _ _ => rfl) _ s
  have hmode (k : Nat) : (applyCanMode k u).pwr = u.pwr := by
    unfold applyCanMode
    extract_lets
    split <;> rfl
  split
  · exact hu
  · exact Eq.trans (by simp) hu
  · exact (hmode _).trans hu
  · exact (hmode _).trans hu
  · exact hu
  · exact hu
  · exact hu

theorem quietly_applyHostItem (k : Nat) (s : State) : Quietly s (applyHostItem k s) :=
  .of_inbox (applyHostItem_pwr k s) (starts_applyHostItem k s).inbox_eq

theorem moves_startDom (d : Fin 18) (v : Dom) (s : State) : Moves d v s (startDom d v s) := by
  unfold startDom
  extract_lets was s1 _ s2 _ s3
  have h1 : Moves d v s s1 := moves_setDom d v s
  have h2 : Quietly s1 s2 := .ite (.of_inbox rfl rfl) (.refl s1)
  have h3 : Quietly s1 s3 := h2.trans (.ite (.of_inbox rfl rfl) (.refl s2))
  have h4 : Quietly s3 ((domItems d).foldl (fun s k => applyHostItem k s) s3) :=
    foldl_inv (Quietly s3) _ (fun u k hu => hu.trans (quietly_applyHostItem k u)) _ s3 (.refl s3)
  split
  · exact h1
  · split
    · exact h1.before (h3.trans h4)
    · exact h1.before h3

theorem inbox_stopWalk (s : State) : inbox (stopWalk s) = inbox s := by
  unfold stopWalk
  split
  · exact inbox_reply _ _ _
  · rfl

theorem quietly_stopWalk (s : State) : Quietly s (stopWalk s) := by
  refine .of_inbox ?_ (inbox_stopWalk s)
  unfold stopWalk
  split
  · simp
  · rfl

theorem quietly_freshEcho (s : State) : Quietly s (freshEcho s) := .of_inbox (by simp) (by simp [inbox])

theorem quietly_portsDown (s : State) : Quietly s (portsDown s) := by
  have hports : Quietly s (freshEcho (stopWalk s)) := (quietly_stopWalk s).trans (quietly_freshEcho _)
  refine hports.trans (.of_inbox (by simp [portsDown]) ?_)
  simp [portsDown, inbox]

theorem quietly_loseDomain (d : Fin 18) (s : State) : Quietly s (loseDomain d s) := by
  have hu : Quietly s (dropRegs (regIn d) s) := .of_inbox rfl rfl
  unfold loseDomain
  dsimp only
  split
  · exact hu.trans (.of_inbox rfl rfl)
  · exact hu.trans (.of_inbox rfl rfl)
  · exact hu.trans (.of_inbox (by simp) (inbox_congr (by simp) (by simp)))
  · exact hu.trans (.of_inbox rfl rfl)
  · exact hu.trans (.of_inbox rfl rfl)
  · exact hu.trans (.of_inbox rfl rfl)
  · exact hu.trans ⟨rfl, fun h => by simp_all [inbox]⟩
  · refine hu.trans ⟨rfl, fun h => ?_⟩
    have hports := (quietly_portsDown _).2 h
    simp_all [inbox]
  · exact hu.trans (.of_inbox rfl rfl)
  · exact hu.trans (.of_inbox rfl rfl)
  · exact hu.trans (.of_inbox rfl rfl)
  · exact hu.trans (.of_inbox rfl rfl)
  · exact hu.trans (.of_inbox rfl rfl)
  · exact hu

theorem quietly_stopClock (s : State) : Quietly s (stopClock s) := by
  unfold stopClock
  extract_lets a
  have hrelock : Quietly s (relockFresh s) := .of_inbox (by simp) (inbox_relockFresh s)
  have ha : Quietly s a := hrelock.trans (.of_inbox (by simp [a]) (inbox_congr (by simp [a]) (by simp [a])))
  exact ha.trans (.of_inbox rfl rfl)

/-- The stop of a domain other than PD_HCORE. -/
theorem moves_stopDom {d : Fin 18} (hd : d ≠ 1) (v : Dom) (s : State) : Moves d v s (stopDom d v s) := by
  unfold stopDom
  extract_lets was _ a1 a2 a3 a4 a5 a6
  have h1 : a1 = s := if_neg (by simp [hd])
  have h2 : a2 = s := (if_neg (by simp [hd])).trans h1
  have h3 : Quietly s a3 := by
    unfold a3
    rw [h2]
    exact .ite (quietly_portsDown s) (.refl s)
  have h4 : Quietly s a4 := h3.trans (.ite (.of_inbox rfl rfl) (.refl a3))
  have h5 : Moves d v s a5 := (moves_setDom d v a4).after h4
  have h6 : Moves d v s a6 := by
    refine h5.before (.ite ?_ (.refl a5))
    rw [if_neg hd]
    exact quietly_loseDomain d a5
  exact h6.before (.ite (quietly_stopClock a6) (.refl a6))

end Sys2Proof.Proofs

/-! Domain-set transactions end whole or not at all (R364 to R368). -/

namespace Sys2Proof.Proofs

open Sys2Proof.Machine Sys2Proof.Safety Sys2Proof.Laws

variable {s t u : State} {x : PdTxn} {q : Request} {d : Fin 18} {v : Dom}

/-! ## One step in a walk over the domains -/

/-- A walk that meets one element at which it acts, and then idles. -/
theorem foldl_once {α β : Type} (g : β → α → β) (d : α) {r0 r1 : β} (hact : g r0 d = r1) (hidle : ∀ e, g r1 e = r1)
    (hwait : ∀ e, e ≠ d → g r0 e = r0) (l : List α) (hmem : d ∈ l) : l.foldl g r0 = r1 := by
  have hrest (l : List α) : l.foldl g r1 = r1 := foldl_inv (· = r1) g (fun r e hr => by rw [hr, hidle]) l r1 rfl
  induction l with
  | nil => exact absurd hmem List.not_mem_nil
  | cons e l ih =>
    by_cases h : e = d
    · rw [h, List.foldl_cons, hact, hrest]
    · rw [List.foldl_cons, hwait e h]
      exact ih ((List.mem_cons.mp hmem).resolve_left (Ne.symm h))

theorem foldl_idle {α β : Type} (g : β → α → β) {r : β} (hidle : ∀ e, g r e = r) (l : List α) : l.foldl g r = r :=
  foldl_inv (· = r) g (fun r' e hr => by rw [hr, hidle]) l r rfl

theorem starts_self (v : Dom) : starts v v = false := by cases v <;> rfl

theorem stops_self (v : Dom) : stops v v = false := by cases v <;> rfl

theorem starts_of_stops {was v : Dom} (h : stops was v = true) : starts was v = false := by
  revert h
  cases was <;> cases v <;> decide

/-! ## The target of one domain -/

theorem targetOf_named (htgt : x.targets = [(d, v)]) (s : State) : targetOf x s d = v := by
  simp [targetOf, htgt]

theorem targetOf_other (htgt : x.targets = [(d, v)]) {e : Fin 18} (he : e ≠ d) (s : State) :
    targetOf x s e = s.pwr.dom[e] := by
  simp [targetOf, htgt, Ne.symm he]

/-- Every domain stands where the transaction asks it to. -/
def Reached (x : PdTxn) (s : State) : Prop := ∀ e : Fin 18, targetOf x s e = s.pwr.dom[e]

theorem withDom_same (d : Fin 18) (v : Dom) (p : Power) : (withDom d v p).dom[d] = v := by
  simp [withDom]

theorem withDom_other {e : Fin 18} (h : e ≠ d) (v : Dom) (p : Power) : (withDom d v p).dom[e] = p.dom[e] := by
  have hne : d.val ≠ e.val := fun he => h (Fin.ext he.symm)
  simp [withDom, Vector.getElem_set_ne, hne]

theorem reached_of_moves (htgt : x.targets = [(d, v)]) (h : Moves d v s t) : Reached x t := fun e => by
  by_cases he : e = d
  · subst he
    rw [targetOf_named htgt, h.1, withDom_same]
  · exact targetOf_other htgt he t

theorem startOne_idle {r : TxnRun} {e : Fin 18} (h : targetOf x r.st e = r.st.pwr.dom[e]) : startOne x r e = r := by
  unfold startOne
  extract_lets was v
  have hv : v = was := h
  rw [hv, starts_self]
  rfl

theorem stopOne_idle {r : TxnRun} {e : Fin 18} (h : targetOf x r.st e = r.st.pwr.dom[e]) : stopOne x r e = r := by
  unfold stopOne
  extract_lets was v
  have hv : v = was := h
  rw [hv, stops_self]
  simp

theorem stopOne_refused {r : TxnRun} (h : r.refusal.isSome = true) (e : Fin 18) : stopOne x r e = r := by
  unfold stopOne
  simp [h]

/-! ## The end of a transaction -/

theorem endTransaction_request (hby : x.by' = .request q) (hqueued : s.pwr.queued = [])
    (hlatch : s.pwr.wakeLatch = none) : endTransaction x s = { s with pwr := { s.pwr with txn := none } } := by
  simp only [endTransaction, afterTxn, hby, hqueued, List.head?_nil, List.drop_nil, Option.any_none, Option.isNone_none,
    Bool.false_and, Bool.false_eq_true, if_true, if_false, latchedWake, hlatch]

/-- The reply to a refused transaction names the first refusing domain and the reason (R367). -/
def refusedAnswer (d : Fin 18) (why : Byte) (m : Nat) : Ans :=
  { status := 0x11, detail := 0x32, data := ([BitVec.ofNat 8 d.val, why] ++ be 4 m) }

/-- The reply to a transaction that nothing refused. -/
def movedAnswer (m : Nat) : Ans := { data := ([0xFF, 0] ++ be 4 m) }

theorem answerTxnPd_refused (hby : x.by' = .request q) (hsched : q.pkt.sched = false) (d : Fin 18) (why : Byte)
    (m : Nat) (s : State) : answerTxnPd x (some (d, why)) m s = reply q (refusedAnswer d why m) s := by
  unfold answerTxnPd
  simp [hby, hsched, refusedAnswer]

theorem answerTxnPd_moved (hby : x.by' = .request q) (hsched : q.pkt.sched = false) (m : Nat) (s : State) :
    answerTxnPd x none m s = reply q (movedAnswer m) s := by
  unfold answerTxnPd
  simp [hby, hsched, movedAnswer]

theorem mayFinish_of_reached (h : Reached x s) : mayFinish x s = true := by
  unfold mayFinish
  have hstill (e : Fin 18) : stops s.pwr.dom[e] (targetOf x s e) = false := by rw [h e, stops_self]
  simp only [hstill, Bool.and_false]
  simp

theorem finishTxn_of_reached {r : TxnRun} (m : Nat) (h : Reached x r.st) (hnone : r.refusal = none)
    (hforced : r.forced = 0) : finishTxn x m r = txnResult none m r.st := by
  unfold finishTxn
  have hidle (e : Fin 18) : stopOne x { r with st := txnResult none m r.st } e =
      { r with st := txnResult none m r.st } := stopOne_idle (h e)
  simp only [foldl_idle (stopOne x) hidle]
  simp only [hnone, hforced, if_true]

/-! ## What the statement asks of each end -/

/-- The refusal `why` of domain d ends the transaction, and the request is answered. -/
def TxnRefused (q : Request) (d : Fin 18) (m : Nat) (why : Byte) (s t : State) : Prop :=
  t.pwr = { s.pwr with txn := none, txnDom := BitVec.ofNat 8 d.val, txnReason := why,
                       txnTime := BitVec.ofNat 32 m, refused := satInc s.pwr.refused } ∧
  t.clk = s.clk ∧ t.modes = s.modes ∧ t.regs = s.regs ∧ t.out = s.out ∧
  (∃ u, t = { reply q { status := 0x11, detail := 0x32, data := ([BitVec.ofNat 8 d.val, why] ++ be 4 m) } u with
    pwr := t.pwr })

/-- Domain d has moved to v, and the request is answered. -/
def TxnMoved (q : Request) (d : Fin 18) (v : Dom) (m : Nat) (s t : State) : Prop :=
  t.pwr.dom[d] = v ∧ (∀ e : Fin 18, e ≠ d → t.pwr.dom[e] = s.pwr.dom[e]) ∧ t.pwr.txn = none ∧
  t.pwr.txnDom = 0xFF ∧ t.pwr.txnReason = 0 ∧ t.pwr.txnTime = BitVec.ofNat 32 m ∧
  (d = 17 → t.pwr.ssup = decide (v = .on)) ∧ t.pwr.refused = s.pwr.refused ∧
  ∃ u, t = { reply q { data := ([0xFF, 0] ++ be 4 m) } u with pwr := t.pwr }

/-- The transaction x of request q runs, and nothing else waits. -/
structure OneTxn (x : PdTxn) (q : Request) (s : State) : Prop where
  inbox_empty : inbox s = ([], false)
  txn : s.pwr.txn = some x
  fresh : x.undo = none
  asked : x.by' = .request q
  unscheduled : q.pkt.sched = false
  alone : s.pwr.queued = []
  unlatched : s.pwr.wakeLatch = none

theorem domainTransaction_transact (h : OneTxn x q s) (m : Nat) (htran : transact x m s = (none, t)) :
    domainTransaction m s = endTransaction x t := by
  unfold domainTransaction
  simp only [h.txn, h.fresh, htran]

theorem exec_transaction (m : Nat) (h : domainTransaction m s = t) (hidle : inbox t = ([], false)) :
    exec (.domainTransaction m) s = .next t := by
  change Host.Outcome.next (catchUp (domainTransaction m s)) = _
  rw [h, catchUp_of_inbox_empty hidle]

/-- The state after a transaction: the request is answered, and the power side holds the result record. -/
def txnEnded (q : Request) (a : Ans) (p : Power) (s : State) : State := { reply q a s with pwr := p }

theorem exec_txnEnded (h : OneTxn x q s) (m : Nat) {a : Ans} {f : Option (Fin 18 × Byte)}
    (hinbox : inbox t = ([], false)) (hqueued : t.pwr.queued = []) (hlatch : t.pwr.wakeLatch = none)
    (htran : transact x m s = (none, txnResult f m (reply q a t))) :
    exec (.domainTransaction m) s = .next (txnEnded q a { (txnResult f m t).pwr with txn := none } t) := by
  have hpwr : (txnResult f m (reply q a t)).pwr = (txnResult f m t).pwr := by simp [txnResult]
  have hend := (domainTransaction_transact h m htran).trans (endTransaction_request h.asked
    (by rw [hpwr]; exact hqueued) (by rw [hpwr]; exact hlatch))
  rw [hpwr] at hend
  exact exec_transaction m hend ((inbox_reply q a t).trans hinbox)

theorem refused_completes (h : OneTxn x q s) (m : Nat) {why : Byte}
    (htran : transact x m s = (none, txnResult (some (d, why)) m (answerTxnPd x (some (d, why)) m s))) :
    Completes (.domainTransaction m) s (TxnRefused q d m why s) := by
  rw [answerTxnPd_refused h.asked h.unscheduled] at htran
  refine ⟨_, exec_txnEnded h m h.inbox_empty h.alone h.unlatched htran, rfl, ?_, ?_, ?_, ?_, ⟨s, rfl⟩⟩
  all_goals simp [txnEnded]

theorem moved_completes (h : OneTxn x q s) (m : Nat) (hm : Moves d v s t)
    (htran : transact x m s = (none, txnResult none m (answerTxnPd x none m t))) :
    Completes (.domainTransaction m) s (TxnMoved q d v m s) := by
  rw [answerTxnPd_moved h.asked h.unscheduled] at htran
  have hpwr := hm.1
  have hfield : t.pwr.queued = s.pwr.queued ∧ t.pwr.wakeLatch = s.pwr.wakeLatch ∧ t.pwr.refused = s.pwr.refused ∧
      t.pwr.dom = s.pwr.dom.set d v ∧ t.pwr.ssup = if d = 17 then decide (v = .on) else s.pwr.ssup := by
    rw [hpwr]
    exact ⟨rfl, rfl, rfl, rfl, rfl⟩
  obtain ⟨hqueued, hlatch, hrefused, hdom, hssup⟩ := hfield
  have hexec := exec_txnEnded h m (hm.2 h.inbox_empty) (hqueued.trans h.alone) (hlatch.trans h.unlatched) htran
  refine ⟨_, hexec, ?_, fun e he => ?_, rfl, rfl, rfl, rfl, fun hs => ?_, hrefused, ⟨t, rfl⟩⟩
  · exact (congrArg (fun p : Vector Dom 18 => p[d]) hdom).trans (withDom_same d v s.pwr)
  · exact (congrArg (fun p : Vector Dom 18 => p[e]) hdom).trans (withDom_other he v s.pwr)
  · exact hssup.trans (if_pos hs)

/-! ## A transaction of one domain -/

theorem reached_of_pwr (h : Reached x s) (hpwr : t.pwr = s.pwr) : Reached x t := fun e => by
  have he := h e
  simp only [targetOf, hpwr] at he ⊢
  exact he

theorem transact_prepare {f : Fin 18 × Byte} (hprep : prepare x s = some f) (m : Nat) :
    transact x m s = (none, txnResult (some f) m (answerTxnPd x (some f) m s)) := by
  unfold transact
  rw [hprep]

/-- The walks of a transaction that nothing refuses, and what follows them. -/
theorem transact_of_walks {r r' : TxnRun} (h : OneTxn x q s) (m : Nat) (hprep : prepare x s = none)
    (hstart : (List.finRange 18).foldl (startOne x) { st := s } = r)
    (hstop : ((List.finRange 18).reverse.filter fun d => !stopsLast x d).foldl (stopOne x) r = r')
    (hnone : r'.refusal = none) (hforced : r'.forced = 0) (hreached : Reached x r'.st) :
    transact x m s = (none, txnResult none m (answerTxnPd x none m r'.st)) := by
  have hpwr : (answerTxnPd x none m r'.st).pwr = r'.st.pwr := by
    rw [answerTxnPd_moved h.asked h.unscheduled]
    simp
  have hdone := reached_of_pwr hreached hpwr
  have hfinish := finishTxn_of_reached m (r := { r' with st := answerTxnPd x none m r'.st }) hdone hnone hforced
  simp only [hnone] at hfinish
  unfold transact
  simp only [hprep, hstart, hstop, hnone, mayFinish_of_reached hdone, if_true, hfinish]

theorem transact_starts (h : OneTxn x q s) (m : Nat) (htgt : x.targets = [(d, v)]) (hprep : prepare x s = none)
    (hgo : starts s.pwr.dom[d] v = true) :
    transact x m s = (none, txnResult none m (answerTxnPd x none m (startDom d v s))) := by
  have hreached : Reached x (startDom d v s) := reached_of_moves htgt (moves_startDom d v s)
  have hact : startOne x { st := s } d = { st := startDom d v s, changed := [(d, s.pwr.dom[d])] } := by
    simp only [startOne, targetOf_named htgt, hgo, if_true]
  have hstart := foldl_once (startOne x) d hact (fun e => startOne_idle (hreached e))
    (fun e he => startOne_idle (targetOf_other htgt he s)) _ (List.mem_finRange d)
  have hstop := foldl_idle (stopOne x) (r := { st := startDom d v s, changed := [(d, s.pwr.dom[d])] })
    (fun e => stopOne_idle (hreached e)) ((List.finRange 18).reverse.filter fun d => !stopsLast x d)
  have htran := transact_of_walks h m hprep hstart hstop rfl rfl hreached
  exact htran

/-- No domain of the transaction starts where its one domain stops. -/
theorem startWalk_idle (htgt : x.targets = [(d, v)]) (hgo : stops s.pwr.dom[d] v = true) :
    (List.finRange 18).foldl (startOne x) { st := s } = { st := s } := by
  refine foldl_idle (startOne x) (fun e => ?_) _
  by_cases he : e = d
  · subst he
    simp only [startOne, targetOf_named htgt, starts_of_stops hgo, Bool.false_eq_true, if_false]
  · exact startOne_idle (targetOf_other htgt he s)

theorem mem_stopWalk (hlast : stopsLast x d = false) :
    d ∈ (List.finRange 18).reverse.filter fun d => !stopsLast x d := by
  simp [hlast]

/-- PD_HCORE stops after the reply (R368). -/
theorem ne_of_mayStop (hlast : stopsLast x d = false) : d ≠ 1 := by
  rintro rfl
  exact absurd hlast (by simp [stopsLast])

theorem transact_stops (h : OneTxn x q s) (m : Nat) (htgt : x.targets = [(d, v)]) (hlast : stopsLast x d = false)
    (hprep : prepare x s = none) (hgo : stops s.pwr.dom[d] v = true) (hmay : stopReason s d = none) :
    transact x m s = (none, txnResult none m (answerTxnPd x none m (stopDom d v s))) := by
  have hreached : Reached x (stopDom d v s) := reached_of_moves htgt (moves_stopDom (ne_of_mayStop hlast) v s)
  have hact : stopOne x { st := s } d = { st := stopDom d v s, changed := [(d, s.pwr.dom[d])] } := by
    simp only [stopOne, targetOf_named htgt, hgo, hmay, Option.isSome_none, Bool.not_true, Bool.or_self,
      Bool.false_eq_true, if_false]
  have hstop := foldl_once (stopOne x) d hact (fun e => stopOne_idle (hreached e))
    (fun e he => stopOne_idle (targetOf_other htgt he s)) _ (mem_stopWalk hlast)
  have htran := transact_of_walks h m hprep (startWalk_idle htgt hgo) hstop rfl rfl hreached
  exact htran

theorem transact_refused (m : Nat) (htgt : x.targets = [(d, v)]) (hlast : stopsLast x d = false)
    (hprep : prepare x s = none) (hgo : stops s.pwr.dom[d] v = true) {why : Byte} (hwhy : stopReason s d = some why)
    (hforce : x.force = false) :
    transact x m s = (none, txnResult (some (d, why)) m (answerTxnPd x (some (d, why)) m s)) := by
  have hact : stopOne x { st := s } d = { st := s, refusal := some (d, why) } := by
    simp only [stopOne, targetOf_named htgt, hgo, hwhy, hforce, Option.isSome_none, Bool.not_true, Bool.or_self,
      Bool.false_eq_true, if_false]
  have hwalk := foldl_once (stopOne x) d hact (fun e => stopOne_refused rfl e)
    (fun e he => stopOne_idle (targetOf_other htgt he s)) _ (mem_stopWalk hlast)
  unfold transact
  simp only [hprep, startWalk_idle htgt hgo, hwalk]
  rfl

/-! ## PD_SET (R364, R4) -/

theorem pdSet_answers {ts : List (Fin 18 × Dom)} (h : Accepted 0x78 q s) (hcheck : pdSetCheck q s = none)
    (hts : pdTargets (reqBody q) = some ts) :
    (s.pwr.txn.isSome = true ∨ s.pwr.queued ≠ [] → Answers (.pdSet q) q s id { status := 0x40 }) ∧
    (s.pwr.txn = none → s.pwr.queued = [] →
      (s.id.variant = .b → (∃ v, (6, v) ∈ ts ∧ v ≠ .off) → Answers (.pdSet q) q s id { status := 0x13 }) ∧
      (s.id.variant = .g2 → Completes (.pdSet q) s fun t =>
        t = { taken q s with pwr := { s.pwr with txn := some { by' := .request q, targets := ts } } })) := by
  have hc : opPdSet.check q (taken q s) = none := hcheck
  have hact : opPdSet.act q (taken q s) = pdSetAct q (taken q s) := rfl
  have hpwr : (taken q s).pwr = s.pwr := by simp
  have hid : (taken q s).id = s.id := by simp
  simp only [pdSetAct, hts, hpwr, hid] at hact
  refine ⟨fun hbusy => ?_, fun htxn hqueued => ⟨fun hb hgrf => ?_, fun hg => ?_⟩⟩
  · refine answers_of opPdSet h (f := id) (hc := hc) (hact := hact.trans (if_pos ?_))
    rcases hbusy with hb | hb <;> simp [hb]
  · refine answers_of opPdSet h (f := id) (hc := hc) (hact := hact.trans ((if_neg ?_).trans (if_pos ?_)))
    · simp [htxn, hqueued]
    · obtain ⟨v, hmem, hv⟩ := hgrf
      simp only [hb, decide_true, Bool.true_and, List.any_eq_true]
      exact ⟨(6, v), hmem, by simpa using hv⟩
  · have hfree : ¬ (s.pwr.txn.isSome || !s.pwr.queued.isEmpty) = true := by simp [htxn, hqueued]
    have hfits : ¬ (decide (s.id.variant = .b) && ts.any fun t => decide (t.1 = 6) && t.2 != .off) = true := by
      simp [hg]
    exact ⟨_, exec_later opPdSet h hc (hact.trans ((if_neg hfree).trans (if_neg hfits))), by simp⟩

/-- Settles O54, from what the walks of a transaction of one domain do. -/
theorem domainTransactionsEndWholeOrNotAtAll : Obligations.DomainTransactionsEndWholeOrNotAtAll := by
  unfold Obligations.DomainTransactionsEndWholeOrNotAtAll
  refine fun s => ⟨fun q ts h hcheck hts => pdSet_answers h hcheck hts, fun hring hgo m => ⟨fun hnone => ?_, ?_⟩⟩
  · refine ⟨s, exec_transaction m ?_ (congrArg₂ Prod.mk hring hgo), rfl⟩
    unfold domainTransaction
    rw [hnone]
  · intro x q d htxn hfresh hasked hsched _ _ hqueued hlatch
    have h : OneTxn x q s := ⟨congrArg₂ Prod.mk hring hgo, htxn, hfresh, hasked, hsched, hqueued, hlatch⟩
    exact ⟨fun why hprep => refused_completes h m (transact_prepare hprep m), fun v htgt hlast hprep =>
      ⟨fun hstart => moved_completes h m (moves_startDom d v s) (transact_starts h m htgt hprep hstart),
        fun hstop hmay => moved_completes h m (moves_stopDom (ne_of_mayStop hlast) v s)
          (transact_stops h m htgt hlast hprep hstop hmay),
        fun why hstop hwhy hforce => refused_completes h m (transact_refused m htgt hlast hprep hstop hwhy hforce)⟩⟩

end Sys2Proof.Proofs

/-! The key-off: its transaction, and what the shutdown commit leaves of a state (R31, R376, R423). -/

namespace Sys2Proof.Proofs

open Sys2Proof.Machine Sys2Proof.Safety Sys2Proof.Laws

variable {s t u : State} {x : PdTxn}

/-! ## The stop of any domain -/

/-- Domain d takes state v, of the other domains only field domains that lose their clock leave ON, and the power
side changes in nothing else. -/
def Lowers (d : Fin 18) (v : Dom) (s t : State) : Prop :=
  t.pwr = { s.pwr with dom := t.pwr.dom, ssup := t.pwr.ssup } ∧ t.pwr.dom[d] = v ∧
  ∀ e : Fin 18, e ≠ d → t.pwr.dom[e] = s.pwr.dom[e] ∨ (12 ≤ e.val ∧ t.pwr.dom[e] = .ret)

theorem Lowers.of_moves {d : Fin 18} {v : Dom} (h : Moves d v s t) : Lowers d v s t := by
  obtain ⟨hpwr, -⟩ := h
  refine ⟨by rw [hpwr]; rfl, by rw [hpwr, withDom_same], fun e he => .inl (by rw [hpwr, withDom_other he])⟩

/-- The field domains that were ON are in RET, and the power side changes in nothing else. -/
def Stranded (s t : State) : Prop :=
  t.pwr = { s.pwr with dom := t.pwr.dom, ssup := t.pwr.ssup } ∧
  ∀ e : Fin 18, t.pwr.dom[e] = s.pwr.dom[e] ∨ (12 ≤ e.val ∧ t.pwr.dom[e] = .ret)

theorem Stranded.of_pwr (h : t.pwr = s.pwr) : Stranded s t := ⟨by rw [h], fun e => .inl (by rw [h])⟩

theorem stranded_strandField (s : State) : Stranded s (strandField s) := by
  refine foldl_inv (Stranded s) _ (fun u d hu => ?_) _ s (.of_pwr rfl)
  split
  next hd =>
    have hd12 : 12 ≤ d.val := by
      simp only [Bool.and_eq_true, decide_eq_true_eq] at hd
      exact hd.1
    obtain ⟨hpwr, -⟩ := moves_setDom d .ret u
    refine ⟨?_, fun e => ?_⟩
    · rw [hpwr, withDom, hu.1]
    · by_cases he : e = d
      · exact .inr (by rw [he, hpwr, withDom_same]; exact ⟨hd12, rfl⟩)
      · rw [hpwr, withDom_other he]
        exact hu.2 e
  next => exact hu

theorem lowers_stopDom (d : Fin 18) (v : Dom) (s : State) : Lowers d v s (stopDom d v s) := by
  by_cases hd : d = 1
  · subst hd
    unfold stopDom
    extract_lets was _ a1 a2 a3 a4 a5 a6
    have h1 : a1.pwr = s.pwr := by
      unfold a1
      split
      · simp
      · rfl
    have h2 : Stranded s a2 := by
      unfold a2
      split
      · obtain ⟨hpwr, hdom⟩ := stranded_strandField a1
        exact ⟨by rw [← h1]; exact hpwr, fun e => by rw [← h1]; exact hdom e⟩
      · exact .of_pwr h1
    have h4 : a4 = a2 := (if_neg (by simp)).trans (if_neg (by simp))
    have h5 : a5.pwr = withDom 1 v a2.pwr := h4 ▸ (moves_setDom 1 v a4).1
    have h6 : a6.pwr = a5.pwr := by
      unfold a6
      split
      · exact (quietly_loseDomain 1 _).1
      · rfl
    have h7 (w : State) (hw : w.pwr = a5.pwr) : Lowers 1 v s w := by
      rw [h5] at hw
      refine ⟨by rw [hw, withDom, h2.1], by rw [hw, withDom_same], fun e he => ?_⟩
      rw [hw, withDom_other he]
      exact h2.2 e
    split
    · exact h7 _ ((quietly_stopClock a6).1.trans h6)
    · exact h7 _ h6
  · exact .of_moves (moves_stopDom hd v s)

/-! ## The walks of a key-off -/

/-- What a key-off finds besides the domains: no other transaction, and no wake, waits for its end. -/
structure Alone (p q : Power) : Prop where
  shutdown : p.shutdown = q.shutdown
  queued : p.queued = []
  unlatched : p.wakeLatch = none

theorem Alone.of_pwr {p p' q : Power} (h : Alone p q) {dom : Vector Dom 18} {ssup : Bool}
    (hp : p' = { p with dom := dom, ssup := ssup }) : Alone p' q := by
  subst hp
  exact ⟨h.shutdown, h.queued, h.unlatched⟩

/-- The domains that may refuse to stop at their turn (R366). -/
def MayRefuse (d : Fin 18) : Prop :=
  d.val = 4 ∨ d.val = 5 ∨ d.val = 6 ∨ d.val = 8 ∨ d.val = 9 ∨ d.val = 10

theorem mayRefuse_of_reason {d : Fin 18} {why : Byte} (h : stopReason s d = some why) : MayRefuse d := by
  unfold MayRefuse
  revert h
  unfold stopReason
  split <;> simp_all

/-- The transaction asks each domain d for the state f d. -/
def Aims (x : PdTxn) (f : Fin 18 → Dom) : Prop := ∀ (u : State) (d : Fin 18), targetOf x u d = f d

/-- No domain refuses the transaction at its turn: it is forced, or those that could do not stop. -/
def Willing (x : PdTxn) (f : Fin 18 → Dom) (p : Power) : Prop :=
  x.force = true ∨ Aims x f ∧ ∀ d, MayRefuse d → stops p.dom[d] (f d) = false

theorem Willing.lowers {f : Fin 18 → Dom} {d : Fin 18} {v : Dom} (h : Willing x f s.pwr) (ht : Lowers d v s t)
    (hv : Aims x f → v = f d) : Willing x f t.pwr := by
  refine h.imp id fun ⟨haims, hstill⟩ => ⟨haims, fun e he => ?_⟩
  obtain ⟨-, hself, hother⟩ := ht
  by_cases hed : e = d
  · rw [hed, hself, hv haims, stops_self]
  · rcases hother e hed with hsame | ⟨hfield, -⟩
    · rw [hsame]
      exact hstill e he
    · unfold MayRefuse at he
      omega

/-- A walk that nothing has refused, with the power side of p besides the domains. -/
structure Unhindered (x : PdTxn) (f : Fin 18 → Dom) (p : Power) (r : TxnRun) : Prop where
  unrefused : r.refusal = none
  alone : Alone r.st.pwr p
  willing : Willing x f r.st.pwr

theorem Unhindered.lowers {f : Fin 18 → Dom} {p : Power} {d : Fin 18} {v : Dom} {r r' : TxnRun}
    (h : Unhindered x f p r) (hnone : r'.refusal = r.refusal) (ht : Lowers d v r.st r'.st)
    (hv : v = targetOf x r.st d) : Unhindered x f p r' :=
  ⟨hnone.trans h.unrefused, h.alone.of_pwr ht.1, h.willing.lowers ht fun haims => hv.trans (haims _ _)⟩

theorem unhindered_startOne {f : Fin 18 → Dom} {p : Power} {r : TxnRun} (h : Unhindered x f p r) (d : Fin 18) :
    Unhindered x f p (startOne x r d) := by
  unfold startOne
  extract_lets was v
  split
  · exact h.lowers rfl (.of_moves (moves_startDom d v r.st)) rfl
  · exact h

/-- A domain at its turn: it stops, or it was not to stop. -/
theorem stopOne_eq {f : Fin 18 → Dom} {p : Power} {r : TxnRun} (h : Unhindered x f p r) (d : Fin 18) :
    (stops r.st.pwr.dom[d] (targetOf x r.st d) = false ∧ stopOne x r d = r) ∨
    ((stopOne x r d).st = stopDom d (targetOf x r.st d) r.st ∧ (stopOne x r d).refusal = r.refusal) := by
  unfold stopOne
  extract_lets was v
  by_cases hstop : stops was v = true
  · rw [if_neg (by simp [h.unrefused, hstop])]
    split
    next why hwhy =>
      have hforce : x.force = true := h.willing.resolve_right fun ⟨haims, hstill⟩ => by
        have hfalse : stops was v = false := by
          have hv : v = f d := haims r.st d
          rw [hv]
          exact hstill d (mayRefuse_of_reason hwhy)
        exact absurd hstop (by simp [hfalse])
      rw [if_pos hforce]
      exact .inr ⟨rfl, rfl⟩
    next => exact .inr ⟨rfl, rfl⟩
  · exact .inl ⟨Bool.eq_false_iff.mpr hstop, if_pos (by simp [hstop])⟩

theorem unhindered_stopOne {f : Fin 18 → Dom} {p : Power} {r : TxnRun} (h : Unhindered x f p r) (d : Fin 18) :
    Unhindered x f p (stopOne x r d) := by
  rcases stopOne_eq h d with ⟨-, hsame⟩ | ⟨hst, hnone⟩
  · rw [hsame]
    exact h
  · exact h.lowers hnone (hst ▸ lowers_stopDom d _ r.st) rfl

theorem unhindered_stops {f : Fin 18 → Dom} {p : Power} {r : TxnRun} (h : Unhindered x f p r) (l : List (Fin 18)) :
    Unhindered x f p (l.foldl (stopOne x) r) :=
  foldl_inv (Unhindered x f p) (stopOne x) (fun _ d h => unhindered_stopOne h d) l r h

theorem pwr_stops {f : Fin 18 → Dom} {p : Power} (l : List (Fin 18)) {r : TxnRun} (h : Unhindered x f p r) :
    ∃ (dom : Vector Dom 18) (ssup : Bool),
      (l.foldl (stopOne x) r).st.pwr = { r.st.pwr with dom := dom, ssup := ssup } := by
  induction l generalizing r with
  | nil => exact ⟨r.st.pwr.dom, r.st.pwr.ssup, rfl⟩
  | cons d l ih =>
    obtain ⟨dom, ssup, hrest⟩ := ih (unhindered_stopOne h d)
    refine ⟨dom, ssup, hrest.trans ?_⟩
    rcases stopOne_eq h d with ⟨-, hsame⟩ | ⟨hst, -⟩
    · rw [hsame]
    · rw [hst, (lowers_stopDom d _ r.st).1]

/-! ## Which domains a key-off leaves ON: none -/

theorem notOn_lowers {d e : Fin 18} {v : Dom} (h : Lowers d v s t) (hv : v ≠ .on)
    (he : e = d ∨ s.pwr.dom[e] ≠ .on) : t.pwr.dom[e] ≠ .on := by
  obtain ⟨-, hself, hother⟩ := h
  by_cases hed : e = d
  · rw [hed, hself]
    exact hv
  · rcases hother e hed with hsame | ⟨-, hret⟩
    · rw [hsame]
      exact he.resolve_left hed
    · rw [hret]
      exact Dom.noConfusion

theorem notOn_of_stops {was v : Dom} (h : stops was v = false) (hv : v ≠ .on) : was ≠ .on := by
  rintro rfl
  revert h hv
  cases v <;> decide

theorem notOn_stopOne {f : Fin 18 → Dom} {p : Power} {r : TxnRun} (h : Unhindered x f p r) (haims : Aims x f)
    (hf : ∀ d, f d ≠ .on) {d e : Fin 18} (he : e = d ∨ r.st.pwr.dom[e] ≠ .on) :
    (stopOne x r d).st.pwr.dom[e] ≠ .on := by
  rcases stopOne_eq h d with ⟨hstill, hsame⟩ | ⟨hst, -⟩
  · rw [hsame]
    rw [haims r.st d] at hstill
    rcases he with rfl | he
    · exact notOn_of_stops hstill (hf e)
    · exact he
  · rw [hst]
    rw [haims r.st d]
    exact notOn_lowers (lowers_stopDom d (f d) r.st) (hf d) he

theorem notOn_stops {f : Fin 18 → Dom} {p : Power} (haims : Aims x f) (hf : ∀ d, f d ≠ .on) {e : Fin 18}
    (l : List (Fin 18)) {r : TxnRun} (h : Unhindered x f p r) (he : e ∈ l ∨ r.st.pwr.dom[e] ≠ .on) :
    (l.foldl (stopOne x) r).st.pwr.dom[e] ≠ .on := by
  induction l generalizing r with
  | nil => exact he.resolve_left List.not_mem_nil
  | cons d l ih =>
    refine ih (unhindered_stopOne h d) ?_
    rcases he with hmem | he
    · rcases List.mem_cons.mp hmem with rfl | hmem
      · exact .inr (notOn_stopOne h haims hf (.inl rfl))
      · exact .inl hmem
    · exact .inr (notOn_stopOne h haims hf (.inr he))

/-! ## The end of a key-off (R376) -/

theorem answerTxnPd_keyOff (hby : x.by' = .keyOff) (f : Option (Fin 18 × Byte)) (m : Nat) (s : State) :
    answerTxnPd x f m s = s := by
  unfold answerTxnPd
  rw [hby]

theorem mayFinish_keyOff (hby : x.by' = .keyOff) (s : State) : mayFinish x s = true := by
  unfold mayFinish
  simp [hby]

/-- The transaction ended without a refusal. -/
structure Ended (p q : Power) : Prop extends Alone p q where
  domain : p.txnDom = 0xFF
  reason : p.txnReason = 0

theorem finishTxn_ended {f : Fin 18 → Dom} {r : TxnRun} {p : Power} (m : Nat) (h : Unhindered x f p r) :
    Ended (finishTxn x m r).pwr p ∧ (finishTxn x m r).pwr.dom =
      (((List.finRange 18).reverse.filter (stopsLast x)).foldl (stopOne x)
        { r with st := txnResult none m r.st }).st.pwr.dom := by
  have hstart : Unhindered x f p { r with st := txnResult none m r.st } :=
    ⟨h.unrefused, ⟨h.alone.shutdown, h.alone.queued, h.alone.unlatched⟩, h.willing⟩
  have hwalk : Unhindered x f p (((List.finRange 18).reverse.filter (stopsLast x)).foldl (stopOne x)
      { r with st := txnResult none m r.st }) := unhindered_stops hstart _
  obtain ⟨dom, ssup, hresult⟩ := pwr_stops (x := x) ((List.finRange 18).reverse.filter (stopsLast x)) hstart
  unfold finishTxn
  extract_lets w t
  have hw : w.refusal = none := hwalk.unrefused
  have ht : t = w.st := by
    unfold t
    rw [hw]
  have hend : (if w.forced = 0 then t else note .host 0x0801 1 0xFF (be 4 w.forced.toNat) t).pwr = w.st.pwr := by
    rw [← ht]
    split <;> simp
  rw [hend]
  refine ⟨⟨hwalk.alone, ?_, ?_⟩, rfl⟩
  · exact congrArg Power.txnDom hresult
  · exact congrArg Power.txnReason hresult

/-- The walks of a transaction up to the domains that stop last. -/
def walked (x : PdTxn) (s : State) : TxnRun :=
  ((List.finRange 18).reverse.filter fun d => !stopsLast x d).foldl (stopOne x)
    ((List.finRange 18).foldl (startOne x) { st := s })

theorem unhindered_walked {f : Fin 18 → Dom} {p : Power} (h : Unhindered x f p { st := s }) :
    Unhindered x f p (walked x s) :=
  unhindered_stops (foldl_inv (Unhindered x f p) (startOne x) (fun _ d h => unhindered_startOne h d) _ _ h) _

theorem transact_keyOff {f : Fin 18 → Dom} {p : Power} (hby : x.by' = .keyOff) (m : Nat) (hprep : prepare x s = none)
    (h : Unhindered x f p { st := s }) : transact x m s = (none, finishTxn x m (walked x s)) := by
  unfold transact
  rw [hprep]
  change (match (walked x s).refusal with
    | some f => (none, txnResult (some f) m (answerTxnPd x (some f) m (restoreAll (walked x s))))
    | none => if mayFinish x (answerTxnPd x none m (walked x s).st)
        then (none, finishTxn x m { walked x s with st := answerTxnPd x none m (walked x s).st })
        else (some { x with undo := some (walked x s).changed }, answerTxnPd x none m (walked x s).st)) = _
  simp only [(unhindered_walked h).unrefused, answerTxnPd_keyOff hby, mayFinish_keyOff hby, if_true]
  rw [← (unhindered_walked h).unrefused]

theorem notOn_finishTxn {f : Fin 18 → Dom} {p : Power} (m : Nat) (h : Unhindered x f p { st := s }) (haims : Aims x f)
    (hf : ∀ d, f d ≠ .on) (d : Fin 18) : (finishTxn x m (walked x s)).pwr.dom[d] ≠ .on := by
  have hwalk := unhindered_walked h
  have hlast : Unhindered x f p { walked x s with st := txnResult none m (walked x s).st } :=
    ⟨hwalk.unrefused, ⟨hwalk.alone.shutdown, hwalk.alone.queued, hwalk.alone.unlatched⟩, hwalk.willing⟩
  rw [(finishTxn_ended m hwalk).2]
  by_cases hd : stopsLast x d = true
  · exact notOn_stops haims hf _ hlast (.inl (by simp [hd]))
  · refine notOn_stops haims hf _ hlast (.inr ?_)
    have hstart := foldl_inv (Unhindered x f p) (startOne x) (fun _ d h => unhindered_startOne h d)
      (List.finRange 18) _ h
    exact notOn_stops haims hf _ hstart (.inl (by simpa using hd))

theorem endTransaction_keyOff {p : Power} (hby : x.by' = .keyOff) (h : Ended t.pwr p) : endTransaction x t =
    { t with pwr := { t.pwr with txn := none, shutdown := .done } } := by
  simp only [endTransaction, afterTxn, hby, h.domain, h.queued, List.head?_nil, List.drop_nil, Option.any_none,
    Option.isNone_none, Bool.false_and, Bool.false_eq_true, if_true, if_false, latchedWake, h.unlatched]

theorem domain_ne_none (d : Fin 18) : BitVec.ofNat 8 d.val ≠ 0xFF := by
  revert d
  decide

theorem endTransaction_keyOff_refused {d : Fin 18} {n : Nat} (hby : x.by' = .keyOff)
    (hdom : t.pwr.txnDom = BitVec.ofNat 8 d.val) (hretry : t.pwr.shutdown = .retry n) (hqueued : t.pwr.queued = [])
    (hlatch : t.pwr.wakeLatch = none) : endTransaction x t =
    { t with pwr := { t.pwr with txn := none, shutdown := .retry (n + 1) } } := by
  have hne : t.pwr.txnDom ≠ 0xFF := by
    rw [hdom]
    exact domain_ne_none d
  simp only [endTransaction, afterTxn, hby, hne, hretry, hqueued, List.head?_nil, List.drop_nil, Option.any_none,
    Option.isNone_none, Bool.false_and, Bool.false_eq_true, if_true, if_false, latchedWake, hlatch]

/-- The state in which a transaction of the node itself starts. -/
def startedTxn (x : PdTxn) (s : State) : State := draw { s with pwr := { s.pwr with txn := some x } }

theorem ownTxn_transact (hfree : s.pwr.txn = none) (hfresh : x.undo = none)
    (htran : transact x (freeMicros s) (startedTxn x s) = (none, t)) : ownTxn x s = endTransaction x t := by
  unfold ownTxn
  rw [if_neg (by simp [hfree])]
  change domainTransaction (freeMicros s) (startedTxn x s) = _
  unfold domainTransaction
  have htxn : (startedTxn x s).pwr.txn = some x := by simp [startedTxn]
  simp only [htxn, hfresh, htran]

theorem prepare_startedTxn (x : PdTxn) (s : State) : prepare x (startedTxn x s) = prepare x s := rfl

/-- A key-off that nothing refuses ends the shutdown. -/
theorem keyOff_done {f : Fin 18 → Dom} (hby : x.by' = .keyOff) (hfresh : x.undo = none) (hfree : s.pwr.txn = none)
    (hqueued : s.pwr.queued = []) (hlatch : s.pwr.wakeLatch = none) (hprep : prepare x s = none)
    (hwill : Willing x f s.pwr) :
    (ownTxn x s).pwr.shutdown = .done ∧ (ownTxn x s).pwr.txnDom = 0xFF ∧ (ownTxn x s).pwr.txnReason = 0 ∧
    (ownTxn x s).pwr.txn = none ∧ (Aims x f → (∀ d, f d ≠ .on) → ∀ d : Fin 18, (ownTxn x s).pwr.dom[d] ≠ .on) := by
  have hstart : Unhindered x f s.pwr { st := startedTxn x s } := ⟨rfl, ⟨rfl, hqueued, hlatch⟩, hwill⟩
  have htran := transact_keyOff hby (freeMicros s) ((prepare_startedTxn x s).trans hprep) hstart
  have hended := (finishTxn_ended (freeMicros s) (unhindered_walked hstart)).1
  rw [ownTxn_transact hfree hfresh htran, endTransaction_keyOff hby hended]
  exact ⟨rfl, hended.domain, hended.reason, rfl, notOn_finishTxn (freeMicros s) hstart⟩

/-- A key-off that its prepare step refuses leaves the power side but for the result and the count of retries. -/
theorem keyOff_refused {d : Fin 18} {why : Byte} {n : Nat} (hby : x.by' = .keyOff) (hfresh : x.undo = none)
    (hfree : s.pwr.txn = none) (hqueued : s.pwr.queued = []) (hlatch : s.pwr.wakeLatch = none)
    (hretry : s.pwr.shutdown = .retry n) (hprep : prepare x s = some (d, why)) :
    (ownTxn x s).pwr = { s.pwr with
      shutdown := .retry (n + 1), txnDom := BitVec.ofNat 8 d.val, txnReason := why
      txnTime := (ownTxn x s).pwr.txnTime, refused := satInc s.pwr.refused } := by
  have htran := transact_prepare ((prepare_startedTxn x s).trans hprep) (freeMicros s)
  rw [answerTxnPd_keyOff hby] at htran
  have hend := endTransaction_keyOff_refused (x := x) (d := d) (n := n)
    (t := txnResult (some (d, why)) (freeMicros s) (startedTxn x s)) hby rfl hretry hqueued hlatch
  rw [ownTxn_transact hfree hfresh htran, hend]
  have hfields : s.pwr = { s.pwr with txn := none } := by rw [← hfree]
  rw [hfields]
  rfl

/-! ## The target of a key-off -/

/-- The state a key-off asks of domain d (R376, R3). -/
def keyOffDom (s : State) (d : Fin 18) : Dom :=
  if bit (reg s 0x080010) d.val && (d != 6 || s.id.variant = .g2) then .ret else .off

theorem keyOffDom_ne_on (s : State) (d : Fin 18) : keyOffDom s d ≠ .on := by
  unfold keyOffDom
  split <;> exact Dom.noConfusion

theorem find?_map_pair {f : Fin 18 → Dom} {d : Fin 18} (l : List (Fin 18)) (hd : d ∈ l) :
    (l.map fun d => (d, f d)).find? (·.1 = d) = some (d, f d) := by
  induction l with
  | nil => exact absurd hd List.not_mem_nil
  | cons e l ih =>
    by_cases h : e = d
    · simp [h]
    · simpa [h] using ih ((List.mem_cons.mp hd).resolve_left (Ne.symm h))

theorem aims_keyOffTxn (s : State) : Aims (keyOffTxn s) (keyOffDom s) := fun u d => by
  have hfind := find?_map_pair (f := keyOffDom s) (List.finRange 18) (List.mem_finRange d)
  unfold targetOf
  change (((((List.finRange 18).map fun d => (d, keyOffDom s d)).find? (·.1 = d)).map (·.2)).getD u.pwr.dom[d]) = _
  rw [hfind]
  rfl

/-- The retry of a key-off: a refusal is counted and retried, and what nothing refuses ends the shutdown. -/
theorem shutdownRetry_completes {n : Nat} (hretry : s.pwr.shutdown = .retry n) (hfree : s.pwr.txn = none)
    (hqueued : s.pwr.queued = []) (hlatch : s.pwr.wakeLatch = none) :
    (∀ d why, prepare (keyOffTxn s) s = some (d, why) → Completes .shutdownRetry s fun t =>
      t.pwr = { s.pwr with shutdown := .retry (n + 1), txnDom := BitVec.ofNat 8 d.val, txnReason := why,
                           txnTime := t.pwr.txnTime, refused := satInc s.pwr.refused }) ∧
    (prepare (keyOffTxn s) s = none → (∀ d : Fin 18, MayRefuse d → s.pwr.dom[d] = .off) →
      Completes .shutdownRetry s fun t =>
        t.pwr.shutdown = .done ∧ t.pwr.txnDom = 0xFF ∧ t.pwr.txn = none ∧ ∀ d : Fin 18, t.pwr.dom[d] ≠ .on) := by
  have hexec : exec .shutdownRetry s = .next (ownTxn (keyOffTxn s) s) := by
    change Host.Outcome.next (if retrying s && s.pwr.txn.isNone then ownTxn (keyOffTxn s) s else s) = _
    rw [if_pos (by simp [retrying, hretry, hfree])]
  refine ⟨fun d why hprep => ⟨_, hexec, keyOff_refused rfl rfl hfree hqueued hlatch hretry hprep⟩,
    fun hprep hoff => ⟨_, hexec, ?_⟩⟩
  have hwill : Willing (keyOffTxn s) (keyOffDom s) s.pwr := .inr ⟨aims_keyOffTxn s, fun d hd => by
    rw [hoff d hd]
    rfl⟩
  obtain ⟨hdone, hdomain, -, htxn, hdoms⟩ := keyOff_done rfl rfl hfree hqueued hlatch hprep hwill
  exact ⟨hdone, hdomain, htxn, hdoms (aims_keyOffTxn s) (keyOffDom_ne_on s)⟩

theorem shutdownForce_completes {n : Nat} (hretry : s.pwr.shutdown = .retry n) (hfree : s.pwr.txn = none)
    (hqueued : s.pwr.queued = []) (hlatch : s.pwr.wakeLatch = none)
    (hx : x = { keyOffTxn s with
      force := true, targets := (keyOffTxn s).targets.filter fun y => !(heldDoms (keyOffTxn s) s).contains y.1 })
    (hprep : prepare x s = none) : Completes .shutdownForce s fun t =>
      t.pwr.shutdown = .done ∧ t.pwr.txnDom = 0xFF ∧ t.pwr.txnReason = 0 ∧ t.pwr.txn = none := by
  have hexec : exec .shutdownForce s = .next (ownTxn x s) := by
    change Host.Outcome.next (shutdownForce s) = _
    rw [hx, shutdownForce, if_neg (by simp [retrying, hretry, hfree])]
  refine ⟨_, hexec, ?_⟩
  have hforce : x.force = true := by rw [hx]
  obtain ⟨hdone, hdomain, hreason, htxn, -⟩ :=
    keyOff_done (f := keyOffDom s) (by rw [hx]; rfl) (by rw [hx]; rfl) hfree hqueued hlatch hprep (.inl hforce)
  exact ⟨hdone, hdomain, hreason, htxn⟩

end Sys2Proof.Proofs

/-! The supplies, the key and the cell change the posture (R11, R31, R376, R377, R400, R459, R460, R476). -/

namespace Sys2Proof.Proofs

open Sys2Proof.Machine Sys2Proof.Safety Sys2Proof.Laws

variable {s t u : State}

/-! ## A host side that loses its supply -/

/-- What the loss of LSUP settles, and no stop of a domain after it changes. -/
def supplies (s : State) : Bool × Option PdTxn × List PdTxn × Modes × Link × List (DbgPort × Fin 5) × Bool × Bool :=
  (s.pwr.lsup, s.pwr.txn, s.pwr.queued, s.modes, s.barr.link, s.sec.attach, s.sec.hHalt, s.sec.fHalt)

/-- LSUP is lost: Clay with the causes a, the link down, no transaction, no attach and no halt. -/
structure Dark (a : BitVec 16) (s : State) : Prop where
  lsup : s.pwr.lsup = false
  txn : s.pwr.txn = none
  queued : s.pwr.queued = []
  clay : s.modes.clay = true
  active : s.modes.active = a
  link : s.barr.link = .down
  attach : s.sec.attach = []
  hHalt : s.sec.hHalt = false
  fHalt : s.sec.fHalt = false

variable {a : BitVec 16}

theorem Dark.of_supplies (h : Dark a s) (ht : supplies t = supplies s) : Dark a t := by
  simp only [supplies, Prod.mk.injEq] at ht
  obtain ⟨hlsup, htxn, hqueued, hmodes, hlink, hattach, hhalt, hfhalt⟩ := ht
  exact ⟨hlsup.trans h.lsup, htxn.trans h.txn, hqueued.trans h.queued, by rw [hmodes, h.clay], by rw [hmodes, h.active],
    hlink.trans h.link, hattach.trans h.attach, hhalt.trans h.hHalt, hfhalt.trans h.fHalt⟩

theorem Dark.ite {c : Prop} [Decidable c] (h : Dark a t) (g : Dark a u) : Dark a (if c then t else u) := by
  split <;> assumption

theorem chooseRef_barr (s : State) : (chooseRef s).barr = s.barr := by
  unfold chooseRef follow enterHoldover
  (repeat' split) <;> simp

theorem supplies_stopWalk (s : State) : supplies (stopWalk s) = supplies s := by
  unfold stopWalk
  split
  · simp [supplies]
  · rfl

theorem supplies_portsDown (s : State) : supplies (portsDown s) = supplies s := by
  rw [← supplies_stopWalk s]
  unfold portsDown
  simp [supplies, chooseRef_barr]

theorem supplies_setDom (d : Fin 18) (v : Dom) (s : State) : supplies (setDom d v s) = supplies s := by
  unfold setDom
  split
  · simp [supplies]
  · rfl

theorem supplies_strandField (s : State) : supplies (strandField s) = supplies s := by
  refine foldl_keep supplies _ (fun s d => ?_) _ s
  split
  · exact supplies_setDom d .ret s
  · rfl

theorem supplies_loseDomain (d : Fin 18) (s : State) : supplies (loseDomain d s) = supplies s := by
  unfold loseDomain
  split <;> simp [supplies, dropRegs, chooseRef_barr]

theorem Dark.loseHost (h : Dark a s) : Dark a (loseHost s) :=
  ⟨h.lsup, h.txn, h.queued, h.clay, h.active, h.link, h.attach, rfl, h.fHalt⟩

theorem Dark.stopLink (h : Dark a s) (ha : a ||| cause 2 = a) : Dark a (stopLink s) := by
  exact ⟨by simp [h.lsup], by simp [h.txn], by simp [h.queued], by simp [Machine.stopLink],
    by simp [Machine.stopLink, h.active, ha], (stopLink_link s).1, by simp [h.attach], by simp [h.hHalt],
    by simp [h.fHalt]⟩

theorem Dark.setLevel (h : Dark a s) (l : Fin 5) : Dark a (setLevel l s) := by
  unfold Machine.setLevel
  extract_lets falls _ b b1 b2
  have hb : Dark a b := ⟨h.lsup, h.txn, h.queued, h.clay, h.active, h.link, h.attach, h.hHalt, h.fHalt⟩
  have hF : b1 = b := by simp [b1, resumeF, hb.fHalt]
  have hH : b2 = b := by simp [b2, hF, resumeH, hb.hHalt]
  have hfilter (w : State) (hw : Dark a w) :
      Dark a { w with sec := { w.sec with attach := w.sec.attach.filter fun x => x.2 ≤ l } } :=
    ⟨hw.lsup, hw.txn, hw.queued, hw.clay, hw.active, hw.link, by simp [hw.attach], hw.hHalt, hw.fHalt⟩
  have hnote (w : State) (hw : Dark a w) : Dark a (note .host 0x0903 0 0xFF [] w) :=
    hw.of_supplies (by simp [supplies])
  split
  · exact hb
  · exact hnote _ (hfilter b2 (hH ▸ hb))

theorem Dark.stopClock (h : Dark a s) (ha : a ||| cause 2 = a) : Dark a (stopClock s) := by
  have hfresh (u : State) (hu : Dark a u) : Dark a (relockFresh u) := by
    unfold relockFresh
    refine Dark.stopLink ?_ ha
    exact hu.of_supplies (by simp [supplies])
  exact Dark.of_supplies ((hfresh s h).setLevel (lifeLevel s)) rfl

theorem Dark.stopDom (h : Dark a s) (ha : a ||| cause 2 = a) (d : Fin 18) (v : Dom) : Dark a (stopDom d v s) := by
  unfold Machine.stopDom
  extract_lets was _ a1 a2 a3 a4 a5 a6
  have h1 : Dark a a1 := .ite (.stopLink (h.of_supplies rfl) ha) h
  have h2 : Dark a a2 := .ite (h1.of_supplies (supplies_strandField a1)) h1
  have h3 : Dark a a3 := .ite (h2.of_supplies (supplies_portsDown a2)) h2
  have h4 : Dark a a4 := .ite (h3.of_supplies rfl) h3
  have h5 : Dark a a5 := h4.of_supplies (supplies_setDom d v a4)
  have h6 : Dark a a6 := .ite (Dark.of_supplies (.ite h5.loseHost h5) (supplies_loseDomain d _)) h5
  exact .ite (h6.stopClock ha) h6

theorem Dark.stops (h : Dark a s) (ha : a ||| cause 2 = a) {α : Type} (p : State → α → Bool) (d : α → Fin 18)
    (v : State → α → Dom) (l : List α) :
    Dark a (l.foldl (fun s i => if p s i then Machine.stopDom (d i) (v s i) s else s) s) :=
  foldl_inv (Dark a) _ (fun u i hu => .ite (hu.stopDom ha (d i) (v u i)) hu) l s h

/-! ## The shutdown commit and the updates that a lost supply ends -/

theorem commitDone_kept (s : State) : (commitDone s).pwr = s.pwr ∧ (commitDone s).modes = s.modes ∧
    (commitDone s).barr = s.barr ∧ (commitDone s).sec = s.sec ∧ (commitDone s).id = s.id := by
  have hanswer (c : Commit) (u : State) : (answerCommit c u).pwr = u.pwr ∧ (answerCommit c u).modes = u.modes ∧
      (answerCommit c u).barr = u.barr ∧ (answerCommit c u).sec = u.sec ∧ (answerCommit c u).id = u.id := by
    unfold answerCommit
    (repeat' split) <;> simp [setReg]
  unfold commitDone
  split
  · exact ⟨rfl, rfl, rfl, rfl, rfl⟩
  · extract_lets _ _ _ _ _ _ _ u w
    obtain ⟨hpwr, hmodes, hbarr, hsec, hid⟩ := hanswer _ w
    rw [hpwr, hmodes, hbarr, hsec, hid]
    unfold w
    split <;> simp [u]

theorem commitDone_reg (s : State) : reg (commitDone s) 0x080010 = reg s 0x080010 := by
  have hreply (q : Request) (x : Ans) (u : State) : reg (reply q x u) 0x080010 = reg u 0x080010 := by simp [reg]
  have hanswer (c : Commit) (u : State) : reg (answerCommit c u) 0x080010 = reg u 0x080010 := by
    unfold answerCommit
    split
    · rfl
    · split
      · exact (hreply _ _ _).trans (reg_setReg_other 0x030004 0x080010 _ u (by decide))
      · exact hreply _ _ u
  unfold commitDone
  split
  · rfl
  · extract_lets _ _ _ _ _ _ _ u w
    rw [hanswer]
    have hw : w.regs = s.regs ∧ w.id = s.id := by
      unfold w
      split <;> simp [u]
    simp only [reg, hw]

theorem commitDone_commit (s : State) : (commitDone s).fw.commit = none := by
  cases h : s.fw.commit with
  | none =>
    have hsame : commitDone s = s := by
      unfold commitDone
      rw [h]
    rw [hsame, h]
  | some c => exact (commitDone_fw h).1

theorem supplies_shutdownCommit (s : State) : supplies (shutdownCommit s) = supplies s := by
  obtain ⟨hpwr, hmodes, hbarr, hsec, -⟩ := commitDone_kept s
  simp [supplies, shutdownCommit, writeJournal, commitAll, hpwr, hmodes, hbarr, hsec]

theorem supplies_spoilCommit (s : State) : supplies (spoilCommit s) = supplies s := by
  unfold spoilCommit
  split
  · rfl
  · dsimp only
    split <;> simp [supplies]

theorem supplies_dropUpdate (s : State) : supplies (dropUpdate s) = supplies s := by
  have hclose : supplies (closeUpdate s) = supplies s := by
    unfold closeUpdate
    split
    · simp only [setImg]
      split <;> rfl
    · rfl
  exact hclose

theorem Dark.cellPosture (h : Dark a s) (ha : a ||| cause 2 = a) : Dark a (cellPosture s) :=
  h.stops ha _ _ _ _

/-- Every host domain is OFF. -/
def hostOff (s : State) : State :=
  (List.finRange 12).reverse.foldl (fun s i =>
    let d : Fin 18 := Fin.ofNat 18 i.val
    if stops s.pwr.dom[d] .off then stopDom d .off s else s) s

/-- The wake logic and the host registers without their supply. -/
def wakeLogicOff (s : State) : State :=
  { dropRegs (fun a => !isField a) s with pwr := { s.pwr with wakeLatch := none, wakeLogic := false } }

theorem hostPowerLost_eq (s : State) : hostPowerLost s = wakeLogicOff (hostOff (dropUpdate (spoilCommit s))) := by
  simp only [hostPowerLost, wakeLogicOff, hostOff]

theorem Dark.hostOff (h : Dark a s) (ha : a ||| cause 2 = a) : Dark a (hostOff s) :=
  h.stops ha (fun s (i : Fin 12) => Machine.stops s.pwr.dom[Fin.ofNat 18 i.val] .off)
    (fun i => Fin.ofNat 18 i.val) (fun _ _ => .off) (List.finRange 12).reverse

theorem Dark.hostPowerLost (h : Dark a s) (ha : a ||| cause 2 = a) : Dark a (hostPowerLost s) := by
  have hcut : Dark a (dropUpdate (spoilCommit s)) :=
    (h.of_supplies (supplies_spoilCommit s)).of_supplies (supplies_dropUpdate _)
  have hoff := hcut.hostOff ha
  rw [hostPowerLost_eq]
  generalize Proofs.hostOff (dropUpdate (spoilCommit s)) = w at hoff
  exact ⟨hoff.lsup, hoff.txn, hoff.queued, hoff.clay, hoff.active, hoff.link, hoff.attach, hoff.hHalt, hoff.fHalt⟩

/-! ## LSUP is lost (R11, R377, R400, R459) -/

/-- The causes that hold after a loss of LSUP. -/
theorem causes_lsupLoss (x : BitVec 16) : x ||| cause 2 ||| cause 1 ||| cause 2 = x ||| cause 2 ||| cause 1 := by
  rw [BitVec.or_assoc (x ||| cause 2), BitVec.or_comm (cause 1), BitVec.or_assoc x, ← BitVec.or_assoc (cause 2),
    BitVec.or_self, ← BitVec.or_assoc]

theorem detachAll_sec (s : State) : (detachAll s).sec.attach = [] ∧ (detachAll s).sec.hHalt = false ∧
    (detachAll s).sec.fHalt = false ∧ (detachAll s).pwr = s.pwr := by
  unfold detachAll resumeH resumeF
  (repeat' split) <;> simp_all

/-- The state after the loss, before the posture of the cell. -/
def supplyLost (s : State) : State :=
  enterClay 1 (stopLink (detachAll { s with pwr := { s.pwr with lsup := false, txn := none, queued := [] } }))

theorem dark_supplyLost (s : State) :
    Dark ((detachAll { s with pwr := { s.pwr with lsup := false, txn := none, queued := [] } }).modes.active |||
      cause 2 ||| cause 1) (supplyLost s) := by
  obtain ⟨hattach, hhalt, hfhalt, hpwr⟩ :=
    detachAll_sec { s with pwr := { s.pwr with lsup := false, txn := none, queued := [] } }
  have hlink (u : State) : (enterClay 1 (stopLink u)).barr.link = .down := by
    rw [(lanes_fields (lanes_enterClay 1 (stopLink u))).1]
    exact (stopLink_link u).1
  refine ⟨?_, ?_, ?_, ?_, ?_, hlink _, ?_, ?_, ?_⟩
  · simp [supplyLost, hpwr]
  · simp [supplyLost, hpwr]
  · simp [supplyLost, hpwr]
  · simp [supplyLost]
  · simp [supplyLost, stopLink]
  · simp [supplyLost, hattach]
  · simp [supplyLost, hhalt]
  · simp [supplyLost, hfhalt]

theorem dark_lsupLoss (hlsup : s.pwr.lsup = true) : Dark
    ((detachAll { s with pwr := { s.pwr with lsup := false, txn := none, queued := [] } }).modes.active |||
      cause 2 ||| cause 1) (lsupLoss s) := by
  have hlost := dark_supplyLost s
  have hcauses := causes_lsupLoss
    (detachAll { s with pwr := { s.pwr with lsup := false, txn := none, queued := [] } }).modes.active
  unfold lsupLoss
  rw [if_neg (by simp [hlsup])]
  refine .ite (hlost.hostPowerLost hcauses) (.ite ?_ ?_)
  · exact Dark.cellPosture ((hlost.of_supplies (supplies_shutdownCommit _)).of_supplies (supplies_dropUpdate _)) hcauses
  · exact Dark.cellPosture ((hlost.of_supplies (supplies_spoilCommit _)).of_supplies (supplies_dropUpdate _)) hcauses

theorem lsupLoss_completes (hlsup : s.pwr.lsup = true) : Completes .lsupLoss s fun t =>
    t.pwr.lsup = false ∧ t.modes.clay = true ∧
    (s.modes.clay = true → s.sec.fHalt = false → s.sec.hHalt = false →
      t.modes.active = s.modes.active ||| cause 2 ||| cause 1) ∧
    t.barr.link = .down ∧ t.pwr.txn = none ∧ t.pwr.queued = [] ∧ t.sec.attach = [] ∧ t.sec.hHalt = false := by
  have h := dark_lsupLoss hlsup
  refine ⟨lsupLoss s, rfl, h.lsup, h.clay, fun _ hfhalt hhalt => ?_, h.link, h.txn, h.queued, h.attach, h.hHalt⟩
  rw [h.active]
  simp [detachAll, resumeF, resumeH, hfhalt, hhalt]

/-! ## The key falls (R31, R364) -/

theorem keyOffTxn_congr (hreg : reg t 0x080010 = reg s 0x080010) (hid : t.id = s.id) : keyOffTxn t = keyOffTxn s := by
  unfold keyOffTxn
  rw [hreg, hid]

theorem cause_and_or (c : Fin 11) (x : BitVec 16) : cause c &&& (x ||| cause c) = cause c := by
  ext i hi
  simp only [BitVec.getElem_and, BitVec.getElem_or]
  cases (cause c)[i] <;> simp

theorem cause_and_lift (c : Fin 11) (x : BitVec 16) : cause c &&& (x &&& ~~~ cause c) = 0 := by
  ext i hi
  simp only [BitVec.getElem_and, BitVec.getElem_not]
  cases (cause c)[i] <;> simp

/-- The shutdown of R31 in Clay, before its commit. -/
def shuttingDown (s : State) : State :=
  hostClay 9 { s with pwr := { s.pwr with keyCount := false, shutdown := .commit } }

/-- The shutdown has committed, and its key-off waits for the running transaction. -/
def keyOffQueued (s : State) : State :=
  { shutdownCommit (shuttingDown s) with
    pwr := { s.pwr with keyCount := false, shutdown := .commit, queued := s.pwr.queued ++ [keyOffTxn s] } }

theorem shutdownCommit_kept (s : State) : (shutdownCommit s).pwr = s.pwr ∧ (shutdownCommit s).modes = s.modes ∧
    (shutdownCommit s).fw.commit = none ∧ keyOffTxn (shutdownCommit s) = keyOffTxn s := by
  obtain ⟨hpwr, hmodes, -, -, hid⟩ := commitDone_kept s
  have hregs : (shutdownCommit s).regs = (commitDone s).regs := by simp [shutdownCommit, writeJournal, commitAll]
  have hid' : (shutdownCommit s).id = (commitDone s).id := by simp [shutdownCommit, writeJournal, commitAll]
  refine ⟨?_, ?_, ?_, keyOffTxn_congr ?_ (hid'.trans hid)⟩
  · simp [shutdownCommit, writeJournal, commitAll, hpwr]
  · simp [shutdownCommit, writeJournal, commitAll, hmodes]
  · simp [shutdownCommit, writeJournal, commitAll, commitRecords, writeApplied, commitDone_commit]
  · rw [← commitDone_reg s]
    simp only [reg, hregs, hid']

theorem keyInShutdown_completes (hkey : s.pwr.keyCount = true) (hrun : hcoreRuns s = true)
    (htxn : s.pwr.txn.isSome = true) : Completes .keyInShutdown s fun t =>
      t.modes.clay = true ∧ cause 9 &&& t.modes.active = cause 9 ∧ t.pwr.keyCount = false ∧
      t.pwr.shutdown = .commit ∧ t.pwr.queued = s.pwr.queued ++ [keyOffTxn s] ∧ t.pwr.dom = s.pwr.dom ∧
      t.fw.commit = none := by
  have hgoes : (!s.pwr.keyCount || s.sec.hHalt || !domOn s 1 || !clockOn s) = false := by
    simp only [hcoreRuns, Bool.and_eq_true, Bool.not_eq_true'] at hrun
    simp [hkey, hrun]
  obtain ⟨hpwr, hmodes, hcommit, hoff⟩ := shutdownCommit_kept (shuttingDown s)
  have hstart : (shuttingDown s).pwr = { s.pwr with keyCount := false, shutdown := .commit } := by simp [shuttingDown]
  have hsame : keyOffTxn (shuttingDown s) = keyOffTxn s :=
    keyOffTxn_congr (by simp [shuttingDown, reg]) (by simp [shuttingDown])
  have hexec : exec .keyInShutdown s = .next (keyOffQueued s) := by
    change Host.Outcome.next (keyInShutdown s) = _
    unfold keyInShutdown
    rw [if_neg (by simp [hgoes]), if_pos htxn]
    change Host.Outcome.next (ownTxn (keyOffTxn (shutdownCommit (shuttingDown s)))
      (shutdownCommit (shuttingDown s))) = _
    unfold ownTxn
    rw [hoff, hsame, if_pos (by rw [hpwr, hstart]; exact htxn), hpwr, hstart]
    rfl
  have hclay : (keyOffQueued s).modes = (shuttingDown s).modes := by
    simp only [keyOffQueued, hmodes]
  have hdone : (keyOffQueued s).fw.commit = none := by
    simp only [keyOffQueued, hcommit]
  refine ⟨_, hexec, ?_, ?_, rfl, rfl, rfl, rfl, hdone⟩
  · rw [hclay]
    simp [shuttingDown, hostClay]
  · rw [hclay]
    simp [shuttingDown, hostClay, cause_and_or]

/-! ## The key rises (R31, R376) -/

theorem keyInRise_awake (hring : s.chain.rg4 = []) (hgo : s.svc.goWaits = false) (hshut : s.pwr.shutdown = .none)
    (hcore : s.pwr.dom[1] = .on) (htxn : s.pwr.txn = none) : Completes .keyInRise s fun t =>
      t = { s with pwr := { s.pwr with keyIn := true, keyCount := false }
                   modes := { s.modes with active := s.modes.active &&& ~~~ cause 9 } } := by
  have hrise : keyInRise s = { s with
      pwr := { s.pwr with keyIn := true, keyCount := false }
      modes := { s.modes with active := s.modes.active &&& ~~~ cause 9 } } := by
    simp [keyInRise, hshut, htxn, domOn, hcore, liftCause]
  refine ⟨keyInRise s, congrArg Host.Outcome.next (catchUp_idle _ ?_ ?_), hrise⟩
  · rw [hrise]
    exact hring
  · rw [hrise]
    exact hgo

theorem keyInRise_retrying {n : Nat} (hring : s.chain.rg4 = []) (hgo : s.svc.goWaits = false)
    (hshut : s.pwr.shutdown = .retry n) (htxn : s.pwr.txn = none) : Completes .keyInRise s fun t =>
      t.pwr.keyIn = true ∧ t.pwr.shutdown = .none ∧ t.pwr.dom = s.pwr.dom ∧
      cause 9 &&& t.modes.active = 0 ∧ t.modes.clay = s.modes.clay ∧ Only [.pwr, .modes] s t := by
  have hrise : keyInRise s = { s with
      pwr := { s.pwr with keyIn := true, keyCount := false, shutdown := .none
                          queued := s.pwr.queued.filter fun t => !isKeyOff t }
      modes := { s.modes with active := s.modes.active &&& ~~~ cause 9 } } := by
    simp [keyInRise, hshut, htxn, liftCause]
  refine ⟨keyInRise s, congrArg Host.Outcome.next (catchUp_idle _ ?_ ?_), ?_⟩
  · rw [hrise]
    exact hring
  · rw [hrise]
    exact hgo
  · rw [hrise]
    exact ⟨rfl, rfl, rfl, cause_and_lift 9 _, rfl, fun p hp => by cases p <;> first | rfl | simp at hp⟩

/-! ## LSUP rises (R459, R461, R371) -/

theorem lsupRise_disabled (hring : s.chain.rg4 = []) (hgo : s.svc.goWaits = false) (hlsup : s.pwr.lsup = false)
    (hlogic : s.pwr.wakeLogic = true) (hlatch : s.pwr.wakeLatch = none) (hoff : wakeEnabled .lsup s = false) :
    exec .lsupRise s = .next { s with pwr := { s.pwr with lsup := true } } := by
  have hrise : lsupRise s = { s with pwr := { s.pwr with lsup := true } } := by
    simp only [lsupRise, hlsup, hlogic, hlatch, Bool.not_true, Bool.false_eq_true, if_false, Option.isSome_none]
    exact wake_off (.inl hoff)
  have hidle : catchUp (lsupRise s) = lsupRise s := by
    refine catchUp_idle _ ?_ ?_
    · rw [hrise]
      exact hring
    · rw [hrise]
      exact hgo
  exact congrArg Host.Outcome.next (hidle.trans hrise)

theorem lsupRise_wakes (hring : s.chain.rg4 = []) (hgo : s.svc.goWaits = false) (hlsup : s.pwr.lsup = false)
    (hlogic : s.pwr.wakeLogic = true) (hlatch : s.pwr.wakeLatch = none) (hon : wakeEnabled .lsup s = true)
    (htxn : s.pwr.txn = none) : Completes .lsupRise s fun t =>
      t.pwr.lsup = true ∧ t.pwr.dom[0] = .on ∧ t.pwr.dom[1] = .on ∧ t.pwr.why = 2 ∧
      t.pwr.whyCold = decide (s.clk.tree = .stopped) ∧ t.pwr.wakes = satInc s.pwr.wakes := by
  have hrise : lsupRise s = runWake .lsup 0 { s with pwr := { s.pwr with lsup := true } } := by
    unfold lsupRise
    rw [if_neg (by simp [hlsup])]
    extract_lets dead _ u
    have hu : u.pwr.wakeLatch = none := hlatch
    rw [if_neg (by simp [dead, hlogic]), if_neg (by simp [hu])]
    exact wake_runs hon hlogic htxn rfl
  have hwoken := wokenBy_runWake .lsup 0 { s with pwr := { s.pwr with lsup := true } }
  have hroused := roused_runWake .lsup 0 { s with pwr := { s.pwr with lsup := true } }
  have hidle := catchUp_of_inbox_empty (hwoken.inbox_eq.trans (congrArg₂ Prod.mk hring hgo))
  simp only [roused, Prod.mk.injEq] at hroused
  obtain ⟨-, -, hcold, -⟩ := hroused
  rw [← hrise] at hwoken hidle hcold
  exact ⟨lsupRise s, congrArg Host.Outcome.next hidle, hwoken.lsup, of_decide_eq_true hwoken.hsram,
    of_decide_eq_true hwoken.hcore, hwoken.why, hcold, hwoken.wakes⟩

theorem restart_supply (s : State) :
    (restart s).pwr.lsup = s.pwr.lsup ∧ (restart s).pwr.wakeLogic = s.pwr.wakeLogic := by
  have hpair (d : Fin 18) (v : Dom) (u w : State) (hw : w.pwr = u.pwr) :
      ((setDom d v w).pwr.lsup, (setDom d v w).pwr.wakeLogic) = (u.pwr.lsup, u.pwr.wakeLogic) := by
    rw [(moves_setDom d v w).1, ← hw]
    rfl
  have hdoms (u : State) :
      ((restartDoms u).pwr.lsup, (restartDoms u).pwr.wakeLogic) = (u.pwr.lsup, u.pwr.wakeLogic) := by
    refine foldl_keep (fun s : State => (s.pwr.lsup, s.pwr.wakeLogic)) _ (fun u i => ?_) _ u
    dsimp only
    split
    · exact hpair 2 _ u u rfl
    · exact hpair _ _ u _ (quietly_loseDomain _ u).1
  have hflush (u : State) : (flushUp u).pwr = u.pwr := by simp [flushUp]
  have hrest := hdoms (loseHost (stopLink (flushUp s)))
  have hhost : (loseHost (stopLink (flushUp s))).pwr = s.pwr := by
    change (stopLink (flushUp s)).pwr = s.pwr
    simp [hflush]
  rw [hhost] at hrest
  exact Prod.mk.inj hrest

theorem restart_resets (s : State) : (restart s).pwr.wakes = 0 ∧ (restart s).svc.busy = false ∧
    cause 10 &&& (restart s).modes.active = cause 10 ∧ inbox (restart s) = ([], false) := by
  simp [restart, inbox, cause_and_or]

theorem setDom_svc (v : Dom) (s : State) : (setDom 2 v s).svc = s.svc := by
  unfold setDom
  rw [if_neg (by simp)]

/-- A first power-up of the host side: what it leaves. -/
theorem powerUp_fresh (s : State) :
    (powerUp s).pwr.lsup = s.pwr.lsup ∧ (powerUp s).pwr.wakeLogic = true ∧ (powerUp s).modes.booted = false ∧
    (powerUp s).clk = {} ∧ (powerUp s).pwr.dom[2] = .off ∧ cause 10 &&& (powerUp s).modes.active = cause 10 ∧
    (powerUp s).pwr.wakes = 0 ∧ (powerUp s).svc.busy = false ∧ inbox (powerUp s) = ([], false) := by
  have hup : powerUp s =
      { setDom 2 .off (restart { s with pwr := { s.pwr with wakeLogic := true } }) with clk := {} } := rfl
  obtain ⟨hpwr, hinbox⟩ := moves_setDom 2 .off (restart { s with pwr := { s.pwr with wakeLogic := true } })
  have hmodes := setDom_modes 2 .off (restart { s with pwr := { s.pwr with wakeLogic := true } })
  obtain ⟨hlsup, hlogic⟩ := restart_supply { s with pwr := { s.pwr with wakeLogic := true } }
  obtain ⟨-, hbooted⟩ := restart_modes { s with pwr := { s.pwr with wakeLogic := true } }
  obtain ⟨hwakes, hbusy, hactive, hempty⟩ := restart_resets { s with pwr := { s.pwr with wakeLogic := true } }
  rw [hup]
  generalize restart { s with pwr := { s.pwr with wakeLogic := true } } = w at *
  refine ⟨?_, ?_, ?_, rfl, ?_, ?_, ?_, ?_, ?_⟩
  · exact (congrArg Power.lsup hpwr).trans hlsup
  · exact (congrArg Power.wakeLogic hpwr).trans hlogic
  · exact (congrArg Modes.booted hmodes).trans hbooted
  · exact (congrArg (fun p : Power => p.dom[2]) hpwr).trans (withDom_same 2 .off _)
  · exact (congrArg (fun m : Modes => cause 10 &&& m.active) hmodes).trans hactive
  · exact (congrArg Power.wakes hpwr).trans hwakes
  · exact (congrArg Svc.busy (setDom_svc .off _)).trans hbusy
  · exact hinbox hempty

theorem lsupRise_powersUp (hlsup : s.pwr.lsup = false) (hlogic : s.pwr.wakeLogic = false) :
    Completes .lsupRise s fun t =>
      t.pwr.lsup = true ∧ t.pwr.wakeLogic = true ∧ t.modes.booted = false ∧ t.clk = {} ∧ t.pwr.dom[2] = .off := by
  have hrise : lsupRise s = powerUp { s with pwr := { s.pwr with lsup := true } } := by
    simp only [lsupRise, hlsup, hlogic, Bool.not_false, Bool.false_eq_true, if_false, if_true]
  obtain ⟨hsup, hwake, hbooted, hclk, hdom, -, -, -, hinbox⟩ :=
    powerUp_fresh { s with pwr := { s.pwr with lsup := true } }
  rw [← hrise] at hsup hwake hbooted hclk hdom hinbox
  exact ⟨lsupRise s, congrArg Host.Outcome.next (catchUp_of_inbox_empty hinbox), hsup, hwake, hbooted, hclk, hdom⟩

end Sys2Proof.Proofs

/-! The field supply, the cell and its charger (R31, R377, R459, R460, R476). -/

namespace Sys2Proof.Proofs

open Sys2Proof.Machine Sys2Proof.Safety Sys2Proof.Laws

variable {s t u : State}

/-! ## A host side that loses all supply (R459, R476) -/

theorem holdUpExhausted_completes (hbat : s.pwr.batAbsent = true) (hlsup : s.pwr.lsup = true) :
    Completes .internalHoldUpExhausted s fun t =>
      t.modes.booted = false ∧ t.clk.tb = 0 ∧ cause 10 &&& t.modes.active = cause 10 ∧ t.pwr.wakes = 0 ∧
      t.svc.busy = false := by
  let u := hostPowerLost (enterClay 1 (stopLink (detachAll { s with pwr := { s.pwr with txn := none, queued := [] } })))
  obtain ⟨-, -, hbooted, hclk, -, hactive, hwakes, hbusy, -⟩ := powerUp_fresh u
  refine ⟨powerUp u, congrArg Host.Outcome.next (if_pos (by simp [hbat, hlsup])), hbooted, ?_, hactive, hwakes, hbusy⟩
  rw [hclk]

theorem stopDom_id (d : Fin 18) (v : Dom) (s : State) : (stopDom d v s).id = s.id := by
  have hset (d : Fin 18) (v : Dom) (u : State) : (setDom d v u).id = u.id := by
    unfold setDom
    split
    · simp
    · rfl
  have hwalk (u : State) : (stopWalk u).id = u.id := by
    unfold stopWalk
    split
    · simp
    · rfl
  have hports (u : State) : (portsDown u).id = u.id := by simp [portsDown, hwalk]
  have hlose (d : Fin 18) (u : State) : (loseDomain d u).id = u.id := by
    unfold loseDomain
    split <;> simp [dropRegs]
  have hstrand (u : State) : (strandField u).id = u.id := by
    refine foldl_keep (fun s : State => s.id) _ (fun u d => ?_) _ u
    split
    · exact hset d .ret u
    · rfl
  have hclock (u : State) : (stopClock u).id = u.id := by simp [stopClock]
  unfold stopDom
  extract_lets was _ a1 a2 a3 a4 a5 a6
  have h1 : a1.id = s.id := by
    unfold a1
    split <;> simp
  have h2 : a2.id = s.id := by
    unfold a2
    split
    · exact (hstrand a1).trans h1
    · exact h1
  have h3 : a3.id = s.id := by
    unfold a3
    split
    · exact (hports a2).trans h2
    · exact h2
  have h4 : a4.id = s.id := by
    unfold a4
    split <;> exact h3
  have h5 : a5.id = s.id := (hset d v a4).trans h4
  have h6 : a6.id = s.id := by
    unfold a6
    split
    · refine (hlose d _).trans ?_
      split <;> exact h5
    · exact h5
  split
  · exact (hclock a6).trans h6
  · exact h6

theorem hostOff_id (s : State) : (hostOff s).id = s.id := by
  refine foldl_keep (fun s : State => s.id) _ (fun u i => ?_) _ s
  dsimp only
  split
  · exact stopDom_id _ _ u
  · rfl

theorem cutShort_id (s : State) : (dropUpdate (spoilCommit s)).id = s.id := by
  have hclose (u : State) : (dropUpdate u).id = u.id := by
    unfold dropUpdate closeUpdate
    dsimp only
    split
    · simp [setImg]
    · rfl
  rw [hclose]
  unfold spoilCommit
  split
  · rfl
  · dsimp only
    split <;> simp

theorem look_filter {p : Nat → Bool} {a : Nat} (d : Nat → Word) (ha : p a = true) (m : Sparse Word) :
    look d (m.filter fun r => !p r.1) a = d a := by
  induction m with
  | nil => rfl
  | cons r m ih =>
    by_cases hr : p r.1 = true
    · simpa [hr] using ih
    · have hne : a ≠ r.1 := by
        rintro rfl
        exact hr ha
      simpa [hr, look, hne] using ih

theorem reg_dropRegs {p : Nat → Bool} {a : Nat} (ha : p a = true) (s : State) :
    reg (dropRegs p s) a = regReset s.id.variant a := look_filter _ ha s.regs

theorem hostPowerLost_forgets (s : State) :
    (hostPowerLost s).pwr.wakeLatch = none ∧ (hostPowerLost s).pwr.wakeLogic = false ∧
    reg (hostPowerLost s) 0x090004 = regReset s.id.variant 0x090004 := by
  have hid : (hostOff (dropUpdate (spoilCommit s))).id = s.id := (hostOff_id _).trans (cutShort_id s)
  rw [hostPowerLost_eq]
  generalize hostOff (dropUpdate (spoilCommit s)) = w at *
  refine ⟨rfl, rfl, ?_⟩
  rw [← hid]
  exact reg_dropRegs (p := fun a => !isField a) (by decide) w

theorem off_of_stays {was : Dom} (h : ¬ stops was .off = true) : was = .off := by
  revert h
  cases was <;> decide

theorem cellRetentionLost_completes (hlsup : s.pwr.lsup = false) :
    Completes .cellRetentionLost s fun t => t.pwr.dom[0] = .off ∧ t.pwr.dom[2] = .off := by
  have hoff {d : Fin 18} (hd : d ≠ 1) (u : State) :
      (if stops u.pwr.dom[d] .off then stopDom d .off u else u).pwr.dom[d] = .off ∧
      ∀ e : Fin 18, e ≠ d → (if stops u.pwr.dom[d] .off then stopDom d .off u else u).pwr.dom[e] = u.pwr.dom[e] := by
    split
    next =>
      have hpwr := (moves_stopDom hd .off u).1
      exact ⟨(congrArg (fun p : Power => p.dom[d]) hpwr).trans (withDom_same d .off _),
        fun e he => (congrArg (fun p : Power => p.dom[e]) hpwr).trans (withDom_other he .off _)⟩
    next h => exact ⟨off_of_stays h, fun _ _ => rfl⟩
  have h2 := (hoff (d := 2) (by decide) s).1
  have h0 := hoff (d := 0) (by decide) (if stops s.pwr.dom[(2 : Fin 18)] .off then stopDom 2 .off s else s)
  exact ⟨_, congrArg Host.Outcome.next (if_neg (by simp [hlsup])), h0.1, (h0.2 2 (by decide)).trans h2⟩

/-! ## The field supply (R460) -/

theorem fsupUndervoltage_completes (hfsup : s.pwr.fsup = .present) : Completes .fsupUndervoltage s fun t =>
    t.pwr.fsup = .low ∧ t.modes.clay = true ∧ cause 5 &&& t.modes.active = cause 5 ∧
    t.clk = (toFieldFrame s).clk ∧ (ClayQuiet s → ClayQuiet t) := by
  have hexec : exec .fsupUndervoltage s = .next (enterClay 5 (toFieldFrame (note .field 0x1401 2 0xFF []
      { s with pwr := { s.pwr with fsup := .low } }))) := congrArg Host.Outcome.next (if_pos hfsup)
  refine ⟨_, hexec, ?_, ?_, ?_, ?_, fun hquiet => ?_⟩
  · simp
  · simp
  · simp [cause_and_or]
  · rw [(enterClay_frame 5 _).2.2.2.2.1]
    have hlanes : lanes (note .field 0x1401 2 0xFF [] { s with pwr := { s.pwr with fsup := .low } }) = lanes s :=
      (lanes_note ..).trans rfl
    have hclk : (note .field 0x1401 2 0xFF [] { s with pwr := { s.pwr with fsup := .low } }).clk = s.clk := by simp
    have hloaded := congrArg Barrier.replicaLoaded hlanes
    have hreplica := congrArg Barrier.replica hlanes
    exact toFieldFrame_clk hclk hloaded hreplica
  · have hcalm := exec_calm .fsupUndervoltage (Q := True) (B := False) (s := s) ⟨fun _ => hquiet, False.elim⟩
    rw [hexec] at hcalm
    exact hcalm.1 trivial

theorem fsupRestart_low (hfsup : s.pwr.fsup = .low) : Completes .fsupRestart s fun t =>
    t = { s with pwr := { s.pwr with fsup := .present }
                 modes := { s.modes with active := s.modes.active &&& ~~~ cause 5 } } := by
  refine ⟨_, ?_, rfl⟩
  change execFsupRestart s = _
  simp [execFsupRestart, hfsup, liftCause]

theorem fsupRestart_absent (hfsup : s.pwr.fsup = .absent) : Completes .fsupRestart s fun t =>
    t.pwr.fsup = .present ∧ t.modes.clay = true ∧ cause 10 &&& t.modes.active = cause 10 ∧
    cause 5 &&& t.modes.active = 0 := by
  have hexec : exec .fsupRestart s =
      .next (enterClay 10 (liftCause 5 { s with pwr := { s.pwr with fsup := .present } })) := by
    change execFsupRestart s = _
    simp [execFsupRestart, hfsup]
  refine ⟨_, hexec, by simp, by simp, by simp [cause_and_or], ?_⟩
  have hlift := cause_and_lift 5 s.modes.active
  simp only [modes_enterClay, liftCause, BitVec.and_or_distrib_left, hlift]
  decide

/-! ## The field die without supply (R460) -/

/-- What one element of a walk establishes and every element keeps holds at its end. -/
theorem foldl_reach {α β : Type} (P : β → Prop) (g : β → α → β) (hkeep : ∀ b a, P b → P (g b a)) {a : α}
    (hat : ∀ b, P (g b a)) (l : List α) (hmem : a ∈ l) (b : β) : P (l.foldl g b) := by
  induction l generalizing b with
  | nil => exact absurd hmem List.not_mem_nil
  | cons c l ih =>
    by_cases h : a ∈ l
    · exact ih h _
    · have hc : a = c := (List.mem_cons.mp hmem).resolve_right h
      subst hc
      exact foldl_inv P g hkeep l _ (hat b)

/-- A field domain loses its supply. -/
def fieldOffOne (s : State) (d : Fin 18) : State := if 12 ≤ d.val then loseDomain d (setDom d .off s) else s

/-- The field domains lose their content one by one. -/
def fieldOff (s : State) : State := (List.finRange 18).foldl fieldOffOne s

theorem fieldOffOne_field {d : Fin 18} (hd : 12 ≤ d.val) (s : State) :
    fieldOffOne s d = loseDomain d (setDom d .off s) := if_pos hd

theorem fieldOffOne_host {d : Fin 18} (hd : ¬ 12 ≤ d.val) (s : State) : fieldOffOne s d = s := if_neg hd

theorem fieldOffOne_pwr {d : Fin 18} (hd : 12 ≤ d.val) (s : State) :
    (fieldOffOne s d).pwr = withDom d .off s.pwr := by
  rw [fieldOffOne_field hd]
  exact (quietly_loseDomain d _).1.trans (moves_setDom d .off s).1

theorem fieldOff_rest (s : State) : (fieldOff s).pwr.fsup = s.pwr.fsup ∧ (fieldOff s).modes = s.modes := by
  have hkeep : ((fieldOff s).pwr.fsup, (fieldOff s).modes) = (s.pwr.fsup, s.modes) := by
    refine foldl_keep (fun s : State => (s.pwr.fsup, s.modes)) fieldOffOne (fun u d => ?_) _ s
    by_cases hd : 12 ≤ d.val
    · have hmodes : (fieldOffOne u d).modes = u.modes := by
        rw [fieldOffOne_field hd, loseDomain_modes, setDom_modes]
      rw [fieldOffOne_pwr hd, hmodes]
      rfl
    · rw [fieldOffOne_host hd]
  exact Prod.mk.inj hkeep

theorem fieldOffOne_self {d : Fin 18} (hd : 12 ≤ d.val) (s : State) : (fieldOffOne s d).pwr.dom[d] = .off :=
  (congrArg (fun p : Power => p.dom[d]) (fieldOffOne_pwr hd s)).trans (withDom_same d .off _)

theorem fieldOffOne_other {d e : Fin 18} (he : ¬ 12 ≤ d.val ∨ e ≠ d) (s : State) :
    (fieldOffOne s d).pwr.dom[e] = s.pwr.dom[e] := by
  by_cases hd : 12 ≤ d.val
  · exact (congrArg (fun p : Power => p.dom[e]) (fieldOffOne_pwr hd s)).trans
      (withDom_other (he.resolve_left (not_not_intro hd)) .off _)
  · exact congrArg (fun u : State => u.pwr.dom[e]) (fieldOffOne_host hd s)

theorem fieldOff_dom (s : State) (e : Fin 18) :
    (12 ≤ e.val → (fieldOff s).pwr.dom[e] = .off) ∧ (e.val < 12 → (fieldOff s).pwr.dom[e] = s.pwr.dom[e]) := by
  refine ⟨fun he => ?_, fun he => ?_⟩
  · refine foldl_reach (fun u : State => u.pwr.dom[e] = .off) fieldOffOne (fun u d hu => ?_) (a := e)
      (fieldOffOne_self he) _ (List.mem_finRange e) s
    by_cases hde : e = d
    · subst hde
      exact fieldOffOne_self he u
    · exact (fieldOffOne_other (.inr hde) u).trans hu
  · refine foldl_keep (fun u : State => u.pwr.dom[e]) fieldOffOne (fun u d => fieldOffOne_other ?_ u) _ s
    by_cases hde : e = d
    · exact .inl (by omega)
    · exact .inr hde

theorem fieldOff_ssup (s : State) : (fieldOff s).pwr.ssup = false := by
  refine foldl_reach (fun u : State => u.pwr.ssup = false) fieldOffOne (fun u d hu => ?_) (a := 17) (fun u => ?_) _
    (List.mem_finRange 17) s
  · by_cases hd : 12 ≤ d.val
    · rw [fieldOffOne_pwr hd]
      simp [withDom, hu]
    · rw [fieldOffOne_host hd, hu]
  · rw [fieldOffOne_pwr (by decide)]
    simp [withDom]

theorem loseDomain_field {d : Fin 18} (hd : 12 ≤ d.val) (h : s.ev.field = []) : (loseDomain d s).ev.field = [] := by
  obtain ⟨d, hlt⟩ := d
  simp only at hd
  interval_cases d <;> simp [loseDomain, dropRegs, h]

theorem fieldOff_field (s : State) : (fieldOff s).ev.field = [] := by
  have hset {d : Fin 18} (hd : 12 ≤ d.val) (u : State) : (setDom d .off u).ev = u.ev := by
    unfold setDom
    rw [if_neg (by simp only [Bool.and_eq_true, decide_eq_true_eq]; rintro ⟨rfl, -⟩; omega)]
  refine foldl_reach (fun u : State => u.ev.field = []) fieldOffOne (fun u d hu => ?_) (a := 12) (fun u => ?_) _
    (List.mem_finRange 12) s
  · by_cases hd : 12 ≤ d.val
    · rw [fieldOffOne_field hd]
      exact loseDomain_field hd (by rw [hset hd, hu])
    · rw [fieldOffOne_host hd, hu]
  · rfl

/-- What else the field die forgets, and its registers (R460). -/
theorem loseField_walk (s : State) :
    (loseField s).pwr.fsup = (fieldOff s).pwr.fsup ∧ (loseField s).modes = (fieldOff s).modes ∧
    (loseField s).pwr.dom = (fieldOff s).pwr.dom ∧ (loseField s).pwr.ssup = (fieldOff s).pwr.ssup ∧
    (loseField s).ev.field = (fieldOff s).ev.field ∧ (loseField s).fw.fimgLoaded = false ∧
    (loseField s).out.discOpen = false ∧ (loseField s).barr.fieldClock = false := by
  simp only [loseField, fieldOff, dropRegs]
  exact ⟨rfl, rfl, rfl, rfl, rfl, trivial, trivial, trivial⟩

theorem fsupLoss_completes (hfsup : s.pwr.fsup ≠ .absent) : Completes .fsupLoss s fun t =>
    t.pwr.fsup = .absent ∧ t.modes.clay = true ∧ cause 5 &&& t.modes.active = cause 5 ∧ t.fw.fimgLoaded = false ∧
    t.out.discOpen = false ∧ t.ev.field = [] ∧ t.pwr.ssup = false ∧ t.barr.fieldClock = false ∧
    (∀ d : Fin 18, 12 ≤ d.val → t.pwr.dom[d] = .off) ∧ ∀ d : Fin 18, d.val < 12 → t.pwr.dom[d] = s.pwr.dom[d] := by
  obtain ⟨u, hu⟩ : ∃ u, u = enterClay 5 { s with pwr := { s.pwr with fsup := .absent } } := ⟨_, rfl⟩
  have hexec : exec .fsupLoss s = .next (loseField u) := by
    rw [hu]
    exact congrArg Host.Outcome.next (if_neg hfsup)
  have hpwr : u.pwr = { s.pwr with fsup := .absent } := by simp [hu]
  have hdom : u.pwr.dom = s.pwr.dom := by rw [hpwr]
  have hmodes : u.modes.clay = true ∧ cause 5 &&& u.modes.active = cause 5 := by simp [hu, cause_and_or]
  obtain ⟨hsup, hkept⟩ := fieldOff_rest u
  obtain ⟨wsup, wmodes, wdom, wssup, wfield, hloaded, hdisc, hclock⟩ := loseField_walk u
  refine ⟨_, hexec, wsup.trans (hsup.trans (congrArg Power.fsup hpwr)), ?_, ?_, hloaded, hdisc,
    wfield.trans (fieldOff_field u), wssup.trans (fieldOff_ssup u), hclock, fun d hd => ?_, fun d hd => ?_⟩
  · rw [wmodes, hkept]
    exact hmodes.1
  · rw [wmodes, hkept]
    exact hmodes.2
  · exact (congrArg (fun v : Vector Dom 18 => v[d]) wdom).trans ((fieldOff_dom u d).1 hd)
  · exact (congrArg (fun v : Vector Dom 18 => v[d]) wdom).trans (((fieldOff_dom u d).2 hd).trans
      (congrArg (fun v : Vector Dom 18 => v[d]) hdom))

/-! ## The cell and its charger (R476) -/

theorem cellDetected_completes {mv : BitVec 12} {temp : Byte} (hbat : s.pwr.batAbsent = true) (hlow : 2000 ≤ mv.toNat)
    (hhigh : mv.toNat ≤ 3650) : Completes (.cellDetected mv temp) s fun t =>
      Only [.pwr] s t ∧ t.pwr.batAbsent = false ∧ t.pwr.vcell = mv ∧ t.pwr.tcell = temp ∧
      t.pwr.chg = (if s.pwr.lsup = false then .off else if chargeable temp = false then .tempHold else
        if mv.toNat < 2500 then .precharge else if mv.toNat < 3600 then .cc else .cv) := by
  have hin : s.pwr.batAbsent && inRange 2000 3650 mv.toNat := by simp [hbat, inRange, hlow, hhigh]
  refine ⟨_, congrArg Host.Outcome.next (if_pos hin), fun p hp => ?_, rfl, rfl, rfl, ?_⟩
  · cases p <;> simp_all [same]
  · simp only [chargeShown, chargePhase, Bool.not_eq_true']

theorem charger_completes {mv : BitVec 12} {ma : Nat} {temp : Byte} (hbat : s.pwr.batAbsent = false)
    (hlsup : s.pwr.lsup = true) (htemp : chargeable temp = true) :
    Completes (.chargerPhaseChange mv ma temp true) s fun t =>
      Only [.pwr] s t ∧ t.pwr.vcell = mv ∧ t.pwr.tcell = temp ∧
      (s.pwr.phase = .precharge → t.pwr.chg = if mv.toNat < 2500 then .precharge else .cc) ∧
      (s.pwr.phase = .cc → t.pwr.chg = if mv.toNat < 3600 then .cc else .cv) ∧
      (s.pwr.phase = .cv → t.pwr.chg = if ma < 20 then .done else .cv) ∧
      (s.pwr.phase = .done → mv.toNat ≥ 3250 → t.pwr.chg = .done) := by
  have hchg : chargeShown (true && s.pwr.lsup) temp
      (if (true && s.pwr.lsup) && chargeable temp then nextPhase s.pwr.phase mv.toNat ma else s.pwr.phase) =
      nextPhase s.pwr.phase mv.toNat ma := by
    simp [chargeShown, hlsup, htemp]
  refine ⟨_, congrArg Host.Outcome.next (if_neg (by simp [hbat])), fun p hp => ?_, rfl, rfl, fun hph => ?_,
    fun hph => ?_, fun hph => ?_, fun hph hmv => ?_⟩
  · cases p <;> simp_all [same]
  all_goals
    refine hchg.trans ?_
    rw [hph]
  · rfl
  · rfl
  · rfl
  · exact if_neg (by omega)

theorem supplyKept_completes (hlsup : s.pwr.lsup = true) :
    Completes .cellRetentionLost s (fun t => t = s) ∧ Completes .wakeLogicSupplyLost s fun t => t = s :=
  ⟨⟨s, congrArg Host.Outcome.next (if_pos hlsup), rfl⟩, ⟨s, congrArg Host.Outcome.next (if_pos hlsup), rfl⟩⟩

theorem wakeLogicSupplyLost_completes (hlsup : s.pwr.lsup = false) : Completes .wakeLogicSupplyLost s fun t =>
    t.pwr.wakeLatch = none ∧ t.pwr.wakeLogic = false ∧ reg t 0x090004 = regReset s.id.variant 0x090004 :=
  ⟨_, congrArg Host.Outcome.next (if_neg (by simp [hlsup])), hostPowerLost_forgets s⟩

theorem keyInShutdown_idle (h : s.pwr.keyCount = false ∨ s.sec.hHalt = true) :
    Completes .keyInShutdown s fun t => t = s :=
  ⟨s, congrArg Host.Outcome.next (if_pos (by rcases h with h | h <;> simp [h])), rfl⟩

theorem lsupRise_idle (hring : s.chain.rg4 = []) (hgo : s.svc.goWaits = false) (hlsup : s.pwr.lsup = true) :
    Completes .lsupRise s fun t => t = s := by
  have hrise : lsupRise s = s := if_pos hlsup
  refine ⟨_, congrArg (Host.Outcome.next ∘ catchUp) hrise, catchUp_idle s hring hgo⟩

/-- Settles O55, each clause by what its command finds of the supplies, the key and the cell. -/
theorem suppliesKeyAndCellChangeThePosture : Obligations.SuppliesKeyAndCellChangeThePosture := by
  unfold Obligations.SuppliesKeyAndCellChangeThePosture
  intro s
  refine ⟨⟨_, rfl, rfl⟩, keyInShutdown_idle, keyInShutdown_completes, keyInRise_awake, fun n => keyInRise_retrying,
    fun n hretry hfree hqueued hlatch => ?_, fun hlsup => ?_, lsupLoss_completes, fun hring hgo => ?_, fun hidle => ?_,
    holdUpExhausted_completes, fsupUndervoltage_completes, fsupRestart_low, fsupRestart_absent, fsupLoss_completes,
    supplyKept_completes, fun hlsup => ⟨cellRetentionLost_completes hlsup, wakeLogicSupplyLost_completes hlsup⟩,
    ⟨_, rfl, rfl⟩, fun mv temp => cellDetected_completes, fun mv ma temp => charger_completes⟩
  · obtain ⟨hrefused, hdone⟩ := shutdownRetry_completes hretry hfree hqueued hlatch
    exact ⟨hrefused, hdone, shutdownForce_completes hretry hfree hqueued hlatch rfl⟩
  · exact ⟨s, congrArg Host.Outcome.next (if_pos (by simp [hlsup])), rfl⟩
  · exact ⟨lsupRise_idle hring hgo, fun hlsup hlogic hlatch => ⟨lsupRise_disabled hring hgo hlsup hlogic hlatch,
      lsupRise_wakes hring hgo hlsup hlogic hlatch⟩, lsupRise_powersUp⟩
  · exact ⟨s, congrArg Host.Outcome.next (if_neg (by rcases hidle with h | h <;> simp [h])), rfl⟩

end Sys2Proof.Proofs

/-! Images are written, verified and activated (R169, R383, R405, R410 to R412). -/

namespace Sys2Proof.Proofs

open Sys2Proof.Machine Sys2Proof.Safety Sys2Proof.Laws

variable {s t : State} {q : Request} {b : Bool}

theorem imgOf_setImg (b : Bool) (f : ImgSlot → ImgSlot) (s : State) : imgOf b (setImg b f s) = f (imgOf b s) := by
  cases b <;> rfl

theorem imgOf_setImg_other (b : Bool) (f : ImgSlot → ImgSlot) (s : State) :
    imgOf (!b) (setImg b f s) = imgOf (!b) s := by
  cases b <;> rfl

theorem imgOf_setImg_not (b : Bool) (f : ImgSlot → ImgSlot) (s : State) : imgOf b (setImg (!b) f s) = imgOf b s := by
  cases b <;> rfl

theorem only_setImg (b : Bool) (f : ImgSlot → ImgSlot) (s : State) : Only [.fw] s (setImg b f s) := fun p hp => by
  cases p <;> simp_all [same, setImg]

theorem imgOf_congr (h : t.fw = s.fw) (b : Bool) : imgOf b t = imgOf b s := by rw [imgOf, imgOf, h]

theorem imgOf_reply (a : Ans) (s : State) : imgOf b (reply q a s) = imgOf b s := imgOf_congr (by simp) b

theorem imgOf_taken (s : State) : imgOf b (taken q s) = imgOf b s := imgOf_congr (by simp) b

theorem flashCheck_on (hflash : domOn s 4 = true) : flashCheck (taken q s) = none := by
  have h : flashCheck (taken q s) = flashCheck s := taken_keep flashCheck q s
  rw [h, flashCheck, if_pos hflash]

theorem slotCheck_passes {n : Nat} (hlen : (reqBody q).length = n) (hslot : (byteAt (reqBody q) 0).toNat ≤ 1) :
    slotCheck n q s = none := by
  simp [slotCheck, lenIs, hlen, param, hslot]

/-! ## IMG_BEGIN -/

/-- The slot that an update opens: empty, invalid, and of the named length. -/
def emptied (q : Request) (x : ImgSlot) : ImgSlot :=
  { x with invalid := true, bundle := none, mem := [], len := beAt (reqBody q) 1 4, wptr := 0, verified := false }

/-- The update of slot b is open, and its erase runs. -/
def begun (b : Bool) (q : Request) (s : State) : State :=
  { setImg b (emptied q) (closeUpdate s) with
    fw := { (setImg b (emptied q) (closeUpdate s)).fw with openB := some b, erasing := true } }

theorem only_begun (b : Bool) (q : Request) (s : State) : Only [.fw] s (begun b q s) := fun p hp => by
  have hclose : Only [.fw] s (closeUpdate s) := by
    unfold closeUpdate
    split
    · exact only_setImg _ _ s
    · exact only_refl _ s
  have hset := only_trans hclose (only_setImg b (emptied q) (closeUpdate s)) p hp
  cases p <;> simp_all [same, begun]

theorem closeUpdate_other (hopen : s.fw.openB = some b ∨ s.fw.openB = none) :
    imgOf (!b) (closeUpdate s) = imgOf (!b) s := by
  unfold closeUpdate
  rcases hopen with h | h
  · rw [h]
    exact imgOf_setImg_other b _ s
  · rw [h]

theorem imgBegin_answers (hflash : domOn s 4 = true) (hb : namedSlot q = b) (hlen : (reqBody q).length = 5)
    (hslot : (byteAt (reqBody q) 0).toNat ≤ 1) (h : Accepted 0x68 q s) (hlow : 1 ≤ beAt (reqBody q) 1 4)
    (hhigh : beAt (reqBody q) 1 4 ≤ 8388608) :
    (s.fw.runningB = some b → Answers (.imgBegin q) q s id { status := 0x11, detail := 0x2A }) ∧
    (s.fw.runningB ≠ some b → Completes (.imgBegin q) s fun t =>
      (imgOf b t).invalid = true ∧ (imgOf b t).mem = [] ∧ (imgOf b t).len = beAt (reqBody q) 1 4 ∧
      (imgOf b t).wptr = 0 ∧ (imgOf b t).verified = false ∧ t.fw.openB = some b ∧ t.fw.erasing = true ∧
      (s.fw.openB = some b ∨ s.fw.openB = none → imgOf (!b) t = imgOf (!b) s) ∧ Answered q {} t ∧
      Served [.fw] s t) := by
  have hcheck : opImgBegin.check q (taken q s) = none := by
    change (slotCheck 5 q (taken q s) <|> param (inRange 1 8388608 (beAt (reqBody q) 1 4))) = none
    rw [slotCheck_passes hlen hslot]
    simp [param, inRange, hlow, hhigh]
  have hfw : (taken q s).fw = s.fw := by simp
  refine ⟨fun hrun => ?_, fun hrun => ?_⟩
  · refine answers_of opImgBegin h (hc := hcheck) (hact := ?_)
    change imgBeginAct q (taken q s) = _
    rw [imgBeginAct, hb, hfw, if_pos hrun]
    rfl
  · have hact : opImgBegin.act q (taken q s) = (begun b q (taken q s), some {}) := by
      change imgBeginAct q (taken q s) = _
      rw [imgBeginAct, hb, hfw, if_neg hrun, flashCheck_on hflash]
      rfl
    have hslot' : imgOf b (begun b q (taken q s)) = emptied q (imgOf b (closeUpdate (taken q s))) :=
      imgOf_setImg b _ _
    refine completes_of opImgBegin h hcheck hact ?_
    rw [imgOf_reply, imgOf_reply, hslot']
    refine ⟨rfl, rfl, rfl, rfl, rfl, by simp [begun], by simp [begun], fun hopen => ?_, ⟨_, rfl⟩,
      served_answer q _ (only_begun b q _)⟩
    have hother : imgOf (!b) (begun b q (taken q s)) = imgOf (!b) (closeUpdate (taken q s)) :=
      imgOf_setImg_other b _ _
    rw [hother, closeUpdate_other (by rwa [hfw]), imgOf_taken]

/-! ## IMG_DATA -/

/-- The bytes of a request are written at the write pointer of slot b. -/
def written (b : Bool) (q : Request) (s : State) : State :=
  setImg b (fun x => { x with
    mem := writeBytes flashByte x.mem x.wptr ((reqBody q).drop 4), wptr := x.wptr + ((reqBody q).drop 4).length
    verified := false }) s

theorem imgData_answers (hflash : domOn s 4 = true) (hlow : 5 ≤ (reqBody q).length)
    (hhigh : (reqBody q).length ≤ 3712) (h : Accepted 0x69 q s) :
    (s.fw.openB = none → Answers (.imgData q) q s id { status := 0x21, detail := 0x34 }) ∧
    (s.fw.openB = some b →
      (s.fw.erasing = true → Answers (.imgData q) q s id { status := 0x40, detail := 0x36 }) ∧
      (s.fw.erasing = false → beAt (reqBody q) 0 4 ≠ (imgOf b s).wptr →
        Answers (.imgData q) q s id { status := 0x21, detail := 0x34 }) ∧
      (s.fw.erasing = false → beAt (reqBody q) 0 4 = (imgOf b s).wptr →
        (imgOf b s).wptr + ((reqBody q).length - 4) ≤ (imgOf b s).len → Completes (.imgData q) s fun t =>
          (imgOf b t).wptr = (imgOf b s).wptr + ((reqBody q).length - 4) ∧ imgOf (!b) t = imgOf (!b) s ∧
          (imgOf b t).mem = writeBytes flashByte (imgOf b s).mem (imgOf b s).wptr ((reqBody q).drop 4) ∧
          Answered q { data := be 4 (imgOf b t).wptr } t ∧ Served [.fw] s t)) := by
  have hfw : (taken q s).fw = s.fw := by simp
  have hin : (!inRange 5 3712 (reqBody q).length) = false := by simp [inRange, hlow, hhigh]
  have hrefused {a : Ans} (hr : imgDataCheck q (taken q s) = some a) : Answers (.imgData q) q s id a :=
    congrArg Host.Outcome.next (serve_refused opImgData q s a h.1 rfl hr)
  refine ⟨fun hnone => hrefused ?_, fun hopen => ⟨fun herase => ?_, fun hidle hoff => hrefused ?_,
    fun hidle hoff hfits => ?_⟩⟩
  · simp only [imgDataCheck, hin, hfw, hnone, Bool.false_eq_true, if_false]
    rfl
  · have hpass : imgDataCheck q (taken q s) = none := by
      simp only [imgDataCheck, hin, hfw, hopen, herase, Bool.false_eq_true, if_false, if_true]
    refine answers_of opImgData h (hc := hpass) (hact := ?_)
    change imgDataAct q (taken q s) = _
    simp only [imgDataAct, hfw, hopen, herase, if_true]
    rfl
  · simp only [imgDataCheck, hin, hfw, hopen, hidle, imgOf_taken, Bool.false_eq_true, if_false]
    exact if_pos (by simpa using hoff)
  · have hpass : imgDataCheck q (taken q s) = none := by
      simp only [imgDataCheck, hin, hfw, hopen, hidle, imgOf_taken, Bool.false_eq_true, if_false]
      rw [if_neg (by simpa using hoff), param, if_pos (by simpa using hfits)]
    have hact : opImgData.act q (taken q s) =
        (written b q (taken q s), some { data := be 4 (imgOf b (written b q (taken q s))).wptr }) := by
      change imgDataAct q (taken q s) = _
      simp only [imgDataAct, hfw, hopen, hidle, Bool.false_eq_true, if_false, flashCheck_on hflash]
      rfl
    have hslot : imgOf b (written b q (taken q s)) = _ := imgOf_setImg b _ _
    refine completes_of opImgData h hpass hact ?_
    rw [imgOf_reply, imgOf_reply, hslot, imgOf_taken]
    refine ⟨by simp, (imgOf_setImg_other b _ _).trans (imgOf_taken s), rfl, ⟨_, rfl⟩,
      served_answer q _ (only_setImg b _ _)⟩

/-! ## IMG_VERIFY -/

/-- The verdict on the bundle v of slot b (R383, R405). -/
def verified (v : Bundle) (b : Bool) (s : State) : State × Option Ans :=
  if !v.sigOk then
    ({ s with sec := { s.sec with cntSig := satInc s.sec.cntSig } }, some { status := 0x12, detail := 0x2C })
  else if v.epoch.toNat < s.sec.rollback then
    ({ s with sec := { s.sec with cntRollback := satInc s.sec.cntRollback } }, some { status := 0x12, detail := 0x2D })
  else if !bundleFormed v then
    ({ s with sec := { s.sec with cntSig := satInc s.sec.cntSig } }, some { status := 0x12, detail := 0x2C })
  else (setImg b (fun x => { x with verified := true, invalid := false }) s, some { data := vectorBytes (some v) })

theorem imgVerify_answers (hflash : domOn s 4 = true) (hb : namedSlot q = b) (hlen : (reqBody q).length = 1)
    (hslot : (byteAt (reqBody q) 0).toNat ≤ 1) (h : Accepted 0x6A q s) (hrot : domOn s 3 = true) :
    ((imgOf b s).wptr < (imgOf b s).len → Answers (.imgVerify q) q s id { status := 0x11 }) ∧
    (∀ v, (imgOf b s).len ≤ (imgOf b s).wptr → slotBundle (imgOf b s) = some v →
      (v.sigOk = false → Answers (.imgVerify q) q s
        (fun u => { u with sec := { u.sec with cntSig := satInc u.sec.cntSig } }) { status := 0x12, detail := 0x2C }) ∧
      (v.sigOk = true → v.epoch.toNat < s.sec.rollback → Answers (.imgVerify q) q s
        (fun u => { u with sec := { u.sec with cntRollback := satInc u.sec.cntRollback } })
        { status := 0x12, detail := 0x2D }) ∧
      (bundleValid v s = true → Answers (.imgVerify q) q s
        (setImg b (fun x => { x with verified := true, invalid := false })) { data := vectorBytes (some v) })) := by
  have hcheck : opImgVerify.check q (taken q s) = none := slotCheck_passes (s := s) hlen hslot
  have hpow : domOn (taken q s) 3 = true := by simpa [domOn] using hrot
  have hsec : (taken q s).sec = s.sec := by simp
  refine ⟨fun hshort => ?_, fun v hwhole hv => ?_⟩
  · refine answers_of opImgVerify h (hc := hcheck) (hact := ?_)
    change imgVerifyAct q (taken q s) = _
    rw [imgVerifyAct, hb, imgOf_taken, if_pos hshort]
    rfl
  · have hopen : ((if (imgOf b s).wptr < (imgOf b s).len then refuse 0x11 0 else none) <|> flashCheck (taken q s) <|>
        (if domOn (taken q s) 3 then none else refuse 0x13 0)) = none := by
      rw [if_neg (by omega), flashCheck_on hflash, if_pos hpow]
      rfl
    have hact : opImgVerify.act q (taken q s) = verified v b (taken q s) := by
      change imgVerifyAct q (taken q s) = _
      simp only [imgVerifyAct, hb, imgOf_taken, hopen, guarded, hv]
      rfl
    refine ⟨fun hsig => ?_, fun hsig hold => ?_, fun hvalid => ?_⟩
    · refine answers_of opImgVerify h (hc := hcheck) (hact := hact.trans ?_)
      rw [verified, if_pos (by simp [hsig])]
    · refine answers_of opImgVerify h (hc := hcheck) (hact := hact.trans ?_)
      rw [verified, if_neg (by simp [hsig]), if_pos (by rw [hsec]; exact hold)]
    · simp only [bundleValid, Bool.and_eq_true, decide_eq_true_eq] at hvalid
      obtain ⟨⟨hsig, hformed⟩, hroll⟩ := hvalid
      refine answers_of opImgVerify h (hc := hcheck) (hact := hact.trans ?_)
      rw [verified, if_neg (by simp [hsig]), if_neg (by rw [hsec]; omega), if_neg (by simp [hformed])]

/-! ## IMG_ACTIVATE -/

/-- The marks of an activation: slot b is on trial, and the other is the previous one (R411, R412). -/
def marked (b : Bool) (s : State) : State :=
  setImg b (fun x => { x with mark := .trial 0 }) (setImg (!b) (fun x => { x with mark := .previous }) s)

/-- Slot b is the active one in a new boot record. -/
def activated (b : Bool) (s : State) : State :=
  { marked b s with fw := { (marked b s).fw with activeB := b, bootSeq := (marked b s).fw.bootSeq + 1 } }

theorem only_activated (b : Bool) (s : State) : Only [.fw] s (activated b s) := fun p hp => by
  have hset := only_trans (only_setImg (!b) (fun x => { x with mark := .previous }) s)
    (only_setImg b (fun x => { x with mark := .trial 0 }) _) p hp
  cases p <;> simp_all [same, activated, marked]

theorem imgActivate_answers (hflash : domOn s 4 = true) (hb : namedSlot q = b) (hlen : (reqBody q).length = 1)
    (hslot : (byteAt (reqBody q) 0).toNat ≤ 1) (h : Accepted 0x6B q s) :
    (s.fw.runningB = some b → Answers (.imgActivate q) q s id {}) ∧
    (s.fw.runningB ≠ some b → (imgOf b s).verified = false →
      Answers (.imgActivate q) q s id { status := 0x11, detail := 0x2B }) ∧
    (s.fw.runningB ≠ some b → (imgOf b s).verified = true → Completes (.imgActivate q) s fun t =>
      imgOf b t = { imgOf b s with mark := .trial 0 } ∧ imgOf (!b) t = { imgOf (!b) s with mark := .previous } ∧
      t.fw.activeB = b ∧ t.fw.bootSeq = s.fw.bootSeq + 1 ∧ Answered q {} t ∧ Served [.fw] s t) := by
  have hcheck : opImgActivate.check q (taken q s) = none := slotCheck_passes (s := s) hlen hslot
  have hfw : (taken q s).fw = s.fw := by simp
  refine ⟨fun hrun => ?_, fun hrun hno => ?_, fun hrun hyes => ?_⟩
  · refine answers_of opImgActivate h (hc := hcheck) (hact := ?_)
    change imgActivateAct q (taken q s) = _
    rw [imgActivateAct, hb, hfw, if_pos hrun]
    rfl
  · refine answers_of opImgActivate h (hc := hcheck) (hact := ?_)
    change imgActivateAct q (taken q s) = _
    rw [imgActivateAct, hb, hfw, if_neg hrun, imgOf_taken, if_pos (by simp [hno])]
    rfl
  · have hact : opImgActivate.act q (taken q s) = (activated b (taken q s), some {}) := by
      change imgActivateAct q (taken q s) = _
      rw [imgActivateAct, hb, hfw, if_neg hrun, imgOf_taken, if_neg (by simp [hyes]), flashCheck_on hflash]
      rfl
    have hself : imgOf b (activated b (taken q s)) = { imgOf b s with mark := .trial 0 } := by
      rw [← imgOf_taken (q := q) s, ← imgOf_setImg_not b (fun x => { x with mark := .previous }) (taken q s)]
      exact imgOf_setImg b (fun x => { x with mark := .trial 0 }) _
    have hother : imgOf (!b) (activated b (taken q s)) = { imgOf (!b) s with mark := .previous } := by
      rw [← imgOf_taken (q := q) s, ← imgOf_setImg (!b) (fun x => { x with mark := .previous }) (taken q s)]
      exact imgOf_setImg_other b (fun x => { x with mark := .trial 0 }) _
    have hseq : (activated b (taken q s)).fw.bootSeq = s.fw.bootSeq + 1 := by
      rw [← hfw]
      cases b <;> rfl
    refine completes_of opImgActivate h hcheck hact ?_
    rw [imgOf_reply, imgOf_reply]
    exact ⟨hself, hother, by simp [activated], by simpa using hseq, ⟨_, rfl⟩, served_answer q _ (only_activated b _)⟩

/-- Settles O56, each image command by the branches of its check and its action. -/
theorem imagesAreWrittenVerifiedAndActivated : Obligations.ImagesAreWrittenVerifiedAndActivated := by
  unfold Obligations.ImagesAreWrittenVerifiedAndActivated
  refine fun s hflash => ⟨⟨_, rfl, rfl⟩, fun q b hb => ⟨imgBegin_answers hflash hb, imgData_answers hflash,
    imgVerify_answers hflash hb, imgActivate_answers hflash hb, fun hlen h => ?_⟩⟩
  exact answers_query opImgInfo infoBytes h (lenIs_of hlen) rfl

end Sys2Proof.Proofs

/-! The field image is loaded and started (R75, R407, R408). -/

namespace Sys2Proof.Proofs

open Sys2Proof.Machine Sys2Proof.Safety Sys2Proof.Laws

variable {s t u : State}

/-! ## The cells of an F-image -/

/-- The cells of the ring and of those that wait for it, in order. -/
def downCells (s : State) : List Cell := s.barr.rg6.map (·.cell) ++ s.barr.rg6Held

/-- The ring and what waits for it hold chunks of an F-image alone: none waits while the ring takes one. -/
def ChunksOnly (s : State) : Prop :=
  s.barr.rg6.length ≤ 16 ∧ (s.barr.rg6.length < 16 → s.barr.rg6Held = []) ∧ ∀ c ∈ s.barr.rg6Held, cellRank c = 5

theorem insertBy_last {c : Cell} (hc : cellRank c = 5) (l : List Cell) (hl : ∀ x ∈ l, cellRank x = 5) :
    insertBy cellBefore c l = l ++ [c] := by
  induction l with
  | nil => rfl
  | cons a l ih =>
    obtain ⟨ha, hrest⟩ := List.forall_mem_cons.mp hl
    have hnot : cellBefore c a = false := by simp [cellBefore, hc, ha]
    simp [insertBy, hnot, ih hrest]

theorem sendChunk (off : Word) (bs : List Byte) (h : ChunksOnly s) :
    ChunksOnly (sendCell (.fimgChunk off bs) s) ∧
    downCells (sendCell (.fimgChunk off bs) s) = downCells s ++ [.fimgChunk off bs] := by
  obtain ⟨hlen, hroom, hrank⟩ := h
  by_cases hfree : s.barr.rg6.length < 16
  · have hheld := hroom hfree
    have hsend : sendCell (.fimgChunk off bs) s =
        { s with barr := { s.barr with rg6 := s.barr.rg6 ++ [queued (.fimgChunk off bs) s] } } := by
      simp [sendCell, ringTakes, hfree, hheld]
    rw [hsend]
    refine ⟨⟨by simpa using hfree, fun _ => hheld, by simp [hheld]⟩, ?_⟩
    simp [downCells, hheld, queued]
  · have hlast := insertBy_last (c := .fimgChunk off bs) rfl s.barr.rg6Held hrank
    have hsend : sendCell (.fimgChunk off bs) s =
        { s with barr := { s.barr with rg6Held := s.barr.rg6Held ++ [.fimgChunk off bs] } } := by
      simp [sendCell, ringTakes, hfree, hlast]
    rw [hsend]
    refine ⟨⟨hlen, fun h => absurd h hfree, fun c hc => ?_⟩, ?_⟩
    · rcases List.mem_append.mp hc with hc | hc
      · exact hrank c hc
      · rw [List.mem_singleton.mp hc]
        rfl
    · simp [downCells]

theorem sendChunks (l : List Cell) (hl : ∀ c ∈ l, ∃ off bs, c = .fimgChunk off bs) (h : ChunksOnly s) :
    ChunksOnly (l.foldl (fun s c => sendCell c s) s) ∧
    downCells (l.foldl (fun s c => sendCell c s) s) = downCells s ++ l := by
  induction l generalizing s with
  | nil => exact ⟨h, by simp⟩
  | cons c l ih =>
    obtain ⟨⟨off, bs, rfl⟩, hrest⟩ := List.forall_mem_cons.mp hl
    obtain ⟨hone, hcells⟩ := sendChunk off bs h
    obtain ⟨hall, hdone⟩ := ih hrest hone
    exact ⟨hall, by rw [List.foldl_cons, hdone, hcells, List.append_assoc, List.singleton_append]⟩

theorem chunkCells_chunks (bs : List Byte) : ∀ c ∈ chunkCells bs, ∃ off ds, c = .fimgChunk off ds := fun c hc => by
  obtain ⟨x, -, rfl⟩ := List.mem_map.mp hc
  exact ⟨_, _, rfl⟩

theorem fimgClear_completes (hlink : linkUp s = true) : Completes .fimgClear s fun t =>
    t.fw.fcoreRun = false ∧ t.fw.fimgLoaded = false ∧ t.fw.fimgValid = false ∧ t.fw.fimgPtr = 0 ∧
    t.fw.fimgChecking = false ∧ t.fw.pairSeen = false ∧ t.fw.pairOk = false ∧
    (s.fw.loading = false → t.barr = s.barr) ∧
    (s.fw.loading = true → (∃ b, runningBundle s = some b ∧ Config.sha256 (imageBytes s) = b.digest) →
      s.barr.rg6 = [] → s.barr.rg6Held = [] →
      t.barr.rg6.map (·.cell) ++ t.barr.rg6Held = chunkCells (imageBytes s) ∧ t.barr.rg6.length ≤ 16) ∧
    Only [.fw, .id, .barr] s t := by
  refine ⟨_, congrArg Host.Outcome.next (if_pos hlink), rfl, rfl, rfl, rfl, rfl, rfl, rfl, fun hidle => ?_,
    fun hload hbundle hring hheld => ?_, fun p hp => ?_⟩
  · simp [queueImage, hidle]
  · obtain ⟨b, hb, hdigest⟩ := hbundle
    have hqueue : queueImage s = (chunkCells (imageBytes s)).foldl (fun s c => sendCell c s) s :=
      if_pos (by simp [hload, hb, hdigest])
    have hempty : ChunksOnly s := ⟨by simp [hring], fun _ => hheld, by simp [hheld]⟩
    obtain ⟨⟨hlen, -⟩, hcells⟩ := sendChunks (chunkCells (imageBytes s)) (chunkCells_chunks _) hempty
    simp only [downCells, hring, hheld, List.map_nil, List.nil_append] at hcells
    rw [hqueue]
    exact ⟨hcells, hlen⟩
  · cases p <;> simp_all [same]

theorem fimgChunk_arrives {off : Word} {bs : List Byte} (h : ArrivesDown (.fimgChunk off bs) s) :
    (off.toNat = s.fw.fimgPtr → s.fw.fimgLoaded = false →
      exec (.fimgChunk off bs) s = .next { takenDown s with fw := { s.fw with
        fimgMem := writeBytes sramByte s.fw.fimgMem s.fw.fimgPtr (bs.take 18), fimgPtr := s.fw.fimgPtr + 18 } }) ∧
    (off.toNat ≠ s.fw.fimgPtr ∨ s.fw.fimgLoaded = true →
      exec (.fimgChunk off bs) s = .next { takenDown s with fw := { s.fw with fimgErr := satInc s.fw.fimgErr } }) := by
  have hfw : (takenDown s).fw = s.fw := by simp
  have hexec : exec (.fimgChunk off bs) s = .next (chunkTaken off bs (takenDown s)) :=
    congrArg Host.Outcome.next (onDown_arrives h (chunkTaken off bs))
  rw [hexec]
  unfold chunkTaken
  rw [hfw]
  refine ⟨fun hoff hload => ?_, fun hbad => ?_⟩
  · rw [if_pos (by simp [hoff, hload])]
  · rw [if_neg (by rcases hbad with h | h <;> simp [h])]

/-! ## The digest (R407) -/

theorem fimgDigestReady_right {b : Bundle} (hlink : linkUp s = true) (hb : runningBundle s = some b)
    (hcheck : s.fw.fimgChecking = true) : exec (.fimgDigestReady b.digest) s = .next { s with fw := { s.fw with
      fimgChecking := false, fimgValid := true, fimgDigest := b.digest, misses := 0 } } := by
  have hrun : runningBundle { s with fw := { s.fw with
      fimgChecking := false, fimgValid := true, fimgDigest := b.digest } } = some b := hb
  change Host.Outcome.next (digestReady b.digest s) = _
  simp only [digestReady, hlink, hcheck, hrun, Bool.and_self, Bool.not_true, Bool.false_eq_true, if_false,
    Option.any_some, beq_self_eq_true, if_true]

theorem fimgDigestReady_wrong {b : Bundle} {d : BitVec 256} (hlink : linkUp s = true) (hb : runningBundle s = some b)
    (hcheck : s.fw.fimgChecking = true) (hd : d ≠ b.digest) :
    exec (.fimgDigestReady d) s = .next (if 3 ≤ s.fw.misses + 1
      then siltWith 1 (note .host 0x0C01 2 0xFF [] { s with fw := { s.fw with
        fimgChecking := false, fimgValid := true, fimgDigest := d, misses := s.fw.misses + 1, loading := false } })
      else { s with fw := { s.fw with
        fimgChecking := false, fimgValid := true, fimgDigest := d, misses := s.fw.misses + 1 } }) := by
  have hrun : runningBundle { s with fw := { s.fw with
      fimgChecking := false, fimgValid := true, fimgDigest := d } } = some b := hb
  have hne : (b.digest == d) = false := by simpa using hd.symm
  change Host.Outcome.next (digestReady d s) = _
  simp only [digestReady, hlink, hcheck, hrun, hne, Bool.and_self, Bool.not_true, Bool.false_eq_true, if_false,
    Option.any_some]

theorem siltWith_silt (why : BitVec 4) (h : s.modes.mode = .silt) :
    siltWith why s = { s with modes := { s.modes with siltWhy := why } } := by
  unfold siltWith
  rw [h]

theorem fimgDigestReady_thirdWrong {b : Bundle} {d : BitVec 256} (hlink : linkUp s = true)
    (hb : runningBundle s = some b) (hcheck : s.fw.fimgChecking = true) (hd : d ≠ b.digest) (hmiss : 2 ≤ s.fw.misses)
    (hroom : s.ev.host.length < 64) (hsilt : s.modes.mode = .silt) : Completes (.fimgDigestReady d) s fun t =>
      t.modes.mode = .silt ∧ t.modes.siltWhy = 1 ∧ Held .host 0x0C01 0xFF t ∧ t.fw.loading = false := by
  let u : State := { s with fw := { s.fw with
    fimgChecking := false, fimgValid := true, fimgDigest := d, misses := s.fw.misses + 1, loading := false } }
  have hmode : (note .host 0x0C01 2 0xFF [] u).modes.mode = .silt := by simpa [u] using hsilt
  have hexec := fimgDigestReady_wrong hlink hb hcheck hd
  rw [if_pos (by omega)] at hexec
  have hheld := held_note_host (s := u) 0x0C01 2 0xFF [] hroom
  refine ⟨_, hexec, ?_⟩
  rw [siltWith_silt 1 hmode]
  exact ⟨hmode, rfl, hheld, by simp [u]⟩

/-! ## The start of F-core (R407, R408) -/

/-- What a host knows of a started F-image: it runs, it is loaded, its pair was checked, and with what result. -/
def pairing (s : State) : Bool × Bool × Bool × Bool × Ver :=
  (s.fw.fcoreRun, s.fw.fimgLoaded, s.fw.pairSeen, s.fw.pairOk, s.id.fVer)

theorem pairing_of (hfw : t.fw = s.fw) (hid : t.id = s.id) : pairing t = pairing s := by
  rw [pairing, pairing, hfw, hid]

/-- The running settings and the as-applied records may change, and nothing else of the firmware's state (R419,
R424). -/
def Records (v w : Fw) : Prop := ∃ items atClay asBuf asSeq asDropped,
  w = { v with items := items, atClay := atClay, asBuf := asBuf, asSeq := asSeq, asDropped := asDropped }

theorem Records.refl (v : Fw) : Records v v := ⟨_, _, _, _, _, rfl⟩

theorem Records.trans {v w x : Fw} (h : Records v w) (g : Records w x) : Records v x := by
  obtain ⟨i, a, b, q, d, rfl⟩ := h
  obtain ⟨i', a', b', q', d', rfl⟩ := g
  exact ⟨i', a', b', q', d', rfl⟩

theorem records_cutHanded (s : State) : Records s.fw (cutHanded s).fw := by
  refine foldl_inv (fun u : State => Records s.fw u.fw) _ (fun u h hu => hu.trans ?_) _
    { s with sect := { s.sect with handed := [] } } (.refl s.fw)
  unfold asApplied
  split
  · exact ⟨u.fw.items, u.fw.atClay, _, _, _, rfl⟩
  · exact ⟨u.fw.items, u.fw.atClay, u.fw.asBuf, u.fw.asSeq, _, rfl⟩

theorem records_applyAtClay (s : State) : Records s.fw (applyAtClay s).fw := by
  unfold applyAtClay
  extract_lets l _ u
  have hrun : (l.foldl (fun s i => runItem i.1 i.2 s) u).fw = u.fw :=
    foldl_keep (fun s : State => s.fw) (fun s (i : Nat × List Byte) => runItem i.1 i.2 s) (fun u i => by simp) l u
  rw [hrun]
  exact ⟨_, _, s.fw.asBuf, s.fw.asSeq, s.fw.asDropped, rfl⟩

theorem records_clayEntry (s : State) : Records s.fw (clayEntry s).fw := by
  unfold clayEntry
  refine Records.trans ?_ (records_applyAtClay _)
  have hfirst (u : State) (hu : u.fw = s.fw) : Records s.fw (cutHanded u).fw := hu ▸ records_cutHanded u
  exact hfirst _ (by simp)

theorem records_enterClay (c : Fin 11) (s : State) : Records s.fw (enterClay c s).fw := by
  unfold enterClay
  split
  · exact .refl s.fw
  · exact records_clayEntry { s with modes := { s.modes with
      clay := true, active := s.modes.active ||| cause c, latched := s.modes.active ||| cause c } }

theorem records_hostClay (c : Fin 11) (s : State) : Records s.fw (hostClay c s).fw := by
  have hsend : (hostClay c s).fw = (enterClay c s).fw := by simp [hostClay]
  rw [hsend]
  exact records_enterClay c s

theorem pairing_siltWith (why : BitVec 4) (s : State) : pairing (siltWith why s) = pairing s := by
  have hclay (u : State) : pairing (hostClay 8 u) = pairing u := by
    obtain ⟨_, _, _, _, _, hfw⟩ := records_hostClay 8 u
    have hid : (hostClay 8 u).id = u.id := by simp
    rw [pairing, hfw, hid]
    rfl
  unfold siltWith
  split
  · exact (hclay _).trans rfl
  · rfl
  · rfl

theorem pairing_goLoam (s : State) : pairing (goLoam s) = pairing s := by
  unfold goLoam
  extract_lets a _ b
  have ha : pairing a = pairing s := pairing_of (by simp [a]) (by simp [a])
  have hb : pairing b = pairing s := by
    unfold b
    split
    · exact (pairing_of (by simp) (by simp)).trans ha
    · exact ha
  split
  · exact Eq.trans rfl hb
  · exact hb

theorem pairing_checkPair (s : State) : pairing (checkPair s) =
    (s.fw.fcoreRun, s.fw.fimgLoaded, true, paired s, s.id.fVer) := by
  unfold checkPair
  extract_lets ok _ u
  have hu : pairing u = (s.fw.fcoreRun, s.fw.fimgLoaded, true, paired s, s.id.fVer) := rfl
  split
  · exact (pairing_siltWith 2 _).trans ((pairing_of (by simp) (by simp)).trans hu)
  · split
    · exact (pairing_goLoam u).trans hu
    · exact hu

/-- An untested pair keeps a node in Silt there, with its reason (Table 01-5). -/
theorem checkPair_untested (hpair : paired s = false) (hsilt : s.modes.mode = .silt) :
    (checkPair s).modes.mode = .silt ∧ (checkPair s).modes.siltWhy = 2 := by
  unfold checkPair
  extract_lets ok _ u
  rw [if_pos (by simp [ok, hpair]), siltWith_silt 2 (by simpa [u] using hsilt)]
  exact ⟨by simpa [u] using hsilt, rfl⟩

theorem fimgStart_starts {b : Bundle} (hlink : linkUp s = true) (hb : runningBundle s = some b)
    (hvalid : s.fw.fimgValid = true) (hdigest : s.fw.fimgDigest = b.digest) : Completes .fimgStart s fun t =>
      t.fw.fcoreRun = true ∧ t.fw.fimgLoaded = true ∧ t.id.fVer = b.f ∧ t.fw.pairSeen = true ∧
      t.fw.pairOk = b.pairs.any (fun p => p.hostStep == s.id.hostStep && p.fieldStep == s.id.fieldStep &&
        p.h == s.id.hVer && p.f == b.f) ∧
      (t.fw.pairOk = false → s.modes.mode = .silt → t.modes.mode = .silt ∧ t.modes.siltWhy = 2) := by
  let u : State := { s with
    fw := { s.fw with fimgLoaded := true, fcoreRun := true, loading := false }, id := { s.id with fVer := b.f } }
  have hexec : exec .fimgStart s = .next (checkPair u) := by
    change Host.Outcome.next (startFimg s) = _
    unfold startFimg
    rw [hb]
    exact congrArg Host.Outcome.next (if_pos (by simp [hlink, hvalid, hdigest]))
  have hrun : runningBundle u = some b := hb
  have hpaired : paired u = b.pairs.any (fun p => p.hostStep == s.id.hostStep && p.fieldStep == s.id.fieldStep &&
      p.h == s.id.hVer && p.f == b.f) := by
    unfold paired
    rw [hrun]
    rfl
  have hpairing := pairing_checkPair u
  simp only [pairing, Prod.mk.injEq] at hpairing
  obtain ⟨hcore, hloaded, hseen, hok, hver⟩ := hpairing
  refine ⟨_, hexec, hcore, hloaded, hver, hseen, hok.trans hpaired, fun hbad hsilt => ?_⟩
  exact checkPair_untested (hok ▸ hbad) hsilt

theorem fimgStart_waits {b : Bundle} (hb : runningBundle s = some b)
    (h : s.fw.fimgValid = false ∨ s.fw.fimgDigest ≠ b.digest) : Completes .fimgStart s fun t => t = s := by
  refine ⟨s, ?_, rfl⟩
  change Host.Outcome.next (startFimg s) = _
  unfold startFimg
  rw [hb]
  exact congrArg Host.Outcome.next (if_neg (by rcases h with h | h <;> simp [h]))

/-- Settles O57, from the cells a load sends and what each command of the loader finds. -/
theorem theFieldImageIsLoadedAndStarted : Obligations.TheFieldImageIsLoadedAndStarted := by
  unfold Obligations.TheFieldImageIsLoadedAndStarted
  refine fun s hlink => ⟨fimgClear_completes hlink, ⟨_, congrArg Host.Outcome.next (if_pos hlink), rfl⟩,
    fun off bs => fimgChunk_arrives, fun b d hb hcheck => ⟨?_, fun hd hmiss => ?_, fun hd hmiss hroom hsilt =>
      fimgDigestReady_thirdWrong hlink hb hcheck hd hmiss hroom hsilt⟩,
    fun b hb => ⟨fimgStart_waits hb, fimgStart_starts hlink hb⟩⟩
  · rintro rfl
    exact ⟨_, fimgDigestReady_right hlink hb hcheck, rfl⟩
  · have hexec := fimgDigestReady_wrong hlink hb hcheck hd
    rw [if_neg (by omega)] at hexec
    exact ⟨_, hexec, rfl⟩

end Sys2Proof.Proofs

/-! What a boot leaves alone while it starts domains, loads settings and finds its mode (R381, R412, Table 01-5). -/

namespace Sys2Proof.Proofs

open Sys2Proof.Machine Sys2Proof.Safety Sys2Proof.Laws

variable {s t u : State}

/-- The slots, the boot record, the running image and the work that waits for H-core. -/
def bootView (s : State) : (ImgSlot × ImgSlot × Bool × Option Bool × Word × Bool) × (Ver × Byte × Byte) ×
    List RingFrame × Bool :=
  ((s.fw.slotA, s.fw.slotB, s.fw.activeB, s.fw.runningB, s.fw.bootSeq, s.fw.sandReq),
    (s.id.hVer, s.id.ssv, s.sec.epoch),
    inbox s)

/-- Settings and domains come up: the boot's own record and the modes stay as they were. -/
def Loads (s t : State) : Prop := bootView t = bootView s ∧ t.modes = s.modes

theorem Loads.refl (s : State) : Loads s s := ⟨rfl, rfl⟩

theorem Loads.trans (h : Loads s t) (g : Loads t u) : Loads s u := ⟨g.1.trans h.1, g.2.trans h.2⟩

theorem Loads.ite {c : Prop} [Decidable c] (h : Loads s t) (g : Loads s u) : Loads s (if c then t else u) := by
  split <;> assumption

theorem Loads.foldl {α : Type} {g : State → α → State} (h : ∀ s a, Loads s (g s a)) (l : List α) (s : State) :
    Loads s (l.foldl g s) :=
  foldl_inv (Loads s) g (fun t a ht => ht.trans (h t a)) l s (.refl s)

theorem bootView_of (hfw : t.fw = s.fw) (hid : t.id = s.id) (hsec : t.sec = s.sec) (hinbox : inbox t = inbox s) :
    bootView t = bootView s := by
  rw [bootView, bootView, hfw, hid, hsec, hinbox]

theorem Loads.of (hfw : t.fw = s.fw) (hid : t.id = s.id) (hsec : t.sec = s.sec) (hinbox : inbox t = inbox s)
    (hmodes : t.modes = s.modes) : Loads s t :=
  ⟨bootView_of hfw hid hsec hinbox, hmodes⟩

theorem loads_note (code : BitVec 16) (sev : BitVec 2) (data : List Byte) (s : State) :
    Loads s (note .host code sev 0xFF data s) :=
  .of (by simp) (by simp) (by simp) (inbox_congr (by simp) (by simp)) (by simp)

theorem loads_writeLog (s : State) : Loads s (writeLog s) :=
  .of (by simp) (by simp) (by simp) (inbox_congr (by simp) (by simp)) (by simp)

theorem loads_chooseRef (s : State) : Loads s (chooseRef s) :=
  .of (by simp) (by simp) (by simp) (inbox_congr (by simp) (by simp)) (by simp)

theorem loads_ensureTimebase (s : State) : Loads s (ensureTimebase s) :=
  .of (by simp) (by simp) (by simp) (inbox_congr (by simp) (by simp)) (by simp)

theorem loads_applyCanMode (k : Nat) (s : State) : Loads s (applyCanMode k s) := by
  unfold applyCanMode
  extract_lets
  exact .ite ⟨rfl, rfl⟩ ⟨rfl, rfl⟩

theorem loads_applyHostItem (k : Nat) (s : State) : Loads s (applyHostItem k s) := by
  unfold applyHostItem
  extract_lets u
  have hu : Loads s u := .foldl (g := fun s (w : Nat × Word) => setReg w.1 w.2 s) (fun _ _ => ⟨rfl, rfl⟩) _ s
  refine hu.trans ?_
  split
  · exact ⟨rfl, rfl⟩
  · exact loads_chooseRef u
  · exact loads_applyCanMode _ u
  · exact loads_applyCanMode _ u
  · exact ⟨rfl, rfl⟩
  · exact ⟨rfl, rfl⟩
  · exact .refl u

theorem loads_runItem (k : Nat) (v : List Byte) (s : State) : Loads s (runItem k v s) :=
  .of (by simp) (by simp) (by simp) (inbox_congr (by simp) (by simp)) (by simp)

theorem loads_startDom (d : Fin 18) (s : State) : Loads s (startDom d .on s) := by
  unfold startDom
  extract_lets was s1 _ s2 _ s3
  have h1 : Loads s s1 := by
    unfold s1 setDom
    rw [if_neg (by simp)]
    exact ⟨rfl, rfl⟩
  have h2 : Loads s s2 := h1.trans (.ite ⟨rfl, rfl⟩ (.refl s1))
  have h3 : Loads s s3 := h2.trans (.ite ⟨rfl, rfl⟩ (.refl s2))
  exact .ite h1 (.ite (h3.trans (.foldl (fun s k => loads_applyHostItem k s) _ s3)) h3)

theorem loads_startWset (which : Fin 18 → Bool) (s : State) : Loads s (startWset which s) := by
  have hskip (mask : Word) (u : State) : Loads u (skipNote mask u) := .ite (.refl u) (loads_note 0x0802 0 _ u)
  unfold startWset
  refine .trans ?_ (hskip _ _)
  refine foldl_inv (fun r : State × Word => Loads s r.1) _ (fun r d hr => ?_) _ (s, 0) (.refl s)
  split
  · exact hr.trans (loads_startDom d r.1)
  · exact hr

theorem loads_startFieldSet (s : State) : Loads s (startFieldSet s) := by
  have hnoted : Loads s { s with pwr := { s.pwr with fieldStart := false } } := ⟨rfl, rfl⟩
  exact .ite (hnoted.trans (loads_startWset _ _)) (.refl s)

theorem loads_readDigest (s : State) : Loads s (readDigest s) :=
  .of (by simp [readDigest]) (by simp [readDigest]) (by simp [readDigest])
    (inbox_congr (by simp [readDigest]) (by simp [readDigest])) (by simp [readDigest])

/-! ## The settings (R416, R421, R422) -/

theorem loads_useItems (items : List (Nat × List Byte)) (gen : Word) (ssv : Byte) (valid : Bool) (s : State) :
    Loads s (useItems items gen ssv valid s) := ⟨rfl, rfl⟩

theorem loads_loadCopies (s : State) : Loads s (loadCopies s).2 := by
  unfold loadCopies
  extract_lets a b
  split
  · exact .refl s
  · exact Loads.trans ⟨rfl, rfl⟩ (loads_note 0x0C04 1 [] _)
  · exact Loads.trans ⟨rfl, rfl⟩ (loads_note 0x0C04 1 [] _)
  · exact loads_note 0x0C05 2 [] s

theorem loads_migFail (c : SetCopy) (item : Nat) (s : State) : Loads s (migFail c item s) :=
  (loads_note ..).trans (loads_writeLog _)

theorem loads_migrate (c : SetCopy) (s : State) : Loads s (migrate c s).2 := by
  unfold migrate
  extract_lets lowest u w _
  split
  · exact loads_useItems ..
  · split
    · have hu : Loads s u := (loads_note ..).trans (loads_writeLog _)
      have hw : Loads s w := hu.trans ((loads_note 0x0C07 0 [] u).trans (loads_useItems ..))
      split
      · exact hu.trans (loads_migFail ..)
      · clear_value w
        exact hw.trans ⟨rfl, rfl⟩
    · exact loads_migFail ..

theorem loads_loadJournal (s : State) : Loads s (loadJournal s) := by
  unfold loadJournal
  split
  · exact .refl s
  · extract_lets _ _ u
    have hu : Loads s u := ⟨rfl, rfl⟩
    exact .ite (hu.trans ⟨rfl, rfl⟩) hu

theorem loads_applySettings (s : State) : Loads s (applySettings s) := by
  unfold applySettings
  extract_lets u
  have hu : Loads s u := .foldl (fun s k => loads_applyHostItem k s) _ s
  exact hu.trans
    (.foldl (g := fun s (i : Nat × List Byte) => runItem i.1 i.2 s) (fun s i => loads_runItem i.1 i.2 s) _ u)

end Sys2Proof.Proofs

/-! Boot starts an image or stays in Sand (R381, R389, R412, R413, Table 01-5). -/

namespace Sys2Proof.Proofs

open Sys2Proof.Machine Sys2Proof.Safety Sys2Proof.Laws

variable {s t u : State} {b : Bool}

/-! ## Up to the choice of the slot -/

/-- Domains come ON, and no settings are loaded for them: H-core has not booted. -/
def Powers (s t : State) : Prop := ∃ p v k,
  t = { s with pwr := p, svc := { s.svc with addr := v }, sec := { s.sec with sessionKeys := k } }

theorem Powers.refl (s : State) : Powers s s := ⟨s.pwr, s.svc.addr, s.sec.sessionKeys, rfl⟩

theorem Powers.trans (h : Powers s t) (g : Powers t u) : Powers s u := by
  obtain ⟨p, v, k, rfl⟩ := h
  obtain ⟨p', v', k', rfl⟩ := g
  exact ⟨p', v', k', rfl⟩

theorem powers_startDom (d : Fin 18) (h : s.modes.booted = false) : Powers s (startDom d .on s) := by
  unfold startDom
  extract_lets was s1 _ s2 _ s3
  have h1 : Powers s s1 := by
    unfold s1 setDom
    rw [if_neg (by simp)]
    exact ⟨_, s.svc.addr, s.sec.sessionKeys, rfl⟩
  have h2 : Powers s s2 := by
    unfold s2
    split
    · exact h1.trans ⟨s1.pwr, _, s1.sec.sessionKeys, rfl⟩
    · exact h1
  have h3 : Powers s s3 := by
    unfold s3
    split
    · exact h2.trans ⟨s2.pwr, s2.svc.addr, _, rfl⟩
    · exact h2
  have hboot : s3.modes.booted = false := by
    obtain ⟨p, v, k, he⟩ := h3
    rw [he]
    exact h
  rw [if_neg (c := (s3.modes.booted && s3.modes.mode != .sand) = true) (by simp [hboot])]
  split
  · exact h1
  · exact h3

theorem powers_bootDoms (h : s.modes.booted = false) : Powers s (bootDoms s) := by
  have hkeep : Powers s (bootDoms s) ∧ (bootDoms s).modes.booted = false := by
    unfold bootDoms
    refine foldl_inv (fun t : State => Powers s t ∧ t.modes.booted = false) _ (fun t d ht => ?_) _ s ⟨.refl s, h⟩
    split
    · exact ht
    · obtain ⟨hp, hb⟩ := ht
      have hstart := powers_startDom d hb
      refine ⟨hp.trans hstart, ?_⟩
      obtain ⟨p, v, k, he⟩ := hstart
      rw [he]
      exact hb
  exact hkeep.1

/-- A kept request for Sand is taken out of the boot record (R412). -/
def unasked (s : State) : State :=
  if s.fw.sandReq then bootRecord { s with fw := { s.fw with sandReq := false } } else s

/-- The state in which boot chooses its slot. -/
def readied (s : State) : State := unasked (bootDoms s)

/-- What boot reads before it chooses: the slots, the anti-rollback counter, the lifecycle and the strap. -/
def bootPlan (s : State) : (ImgSlot × ImgSlot × Bool × Option Bool) × Nat × Lifecycle × Bool :=
  ((s.fw.slotA, s.fw.slotB, s.fw.activeB, s.fw.runningB), s.sec.rollback, s.sec.life, s.id.sandStrap)

theorem bootPlan_readied (h : s.modes.booted = false) : bootPlan (readied s) = bootPlan s := by
  obtain ⟨p, v, k, he⟩ := powers_bootDoms h
  unfold readied unasked
  rw [he]
  dsimp only
  split <;> rfl

/-- The request for Sand that boot finds is taken out of the boot record. -/
theorem readied_record (h : s.modes.booted = false) :
    (readied s).fw.sandReq = false ∧
    (readied s).fw.bootSeq = (if s.fw.sandReq then s.fw.bootSeq + 1 else s.fw.bootSeq) ∧
    inbox (readied s) = inbox s ∧ (readied s).modes = s.modes ∧ (bootDoms s).fw.sandReq = s.fw.sandReq := by
  obtain ⟨p, v, k, he⟩ := powers_bootDoms h
  unfold readied unasked
  rw [he]
  dsimp only
  split
  · exact ⟨rfl, rfl, rfl, rfl, rfl⟩
  next hno => exact ⟨by simpa using hno, rfl, rfl, rfl, rfl⟩

theorem bootPlan_fields (h : bootPlan t = bootPlan s) : (∀ b, imgOf b t = imgOf b s) ∧ t.fw.activeB = s.fw.activeB ∧
    t.fw.runningB = s.fw.runningB ∧ t.sec.rollback = s.sec.rollback ∧ t.sec.life = s.sec.life ∧
    t.id.sandStrap = s.id.sandStrap := by
  simp only [bootPlan, Prod.mk.injEq] at h
  obtain ⟨⟨hA, hB, hactive, hrunning⟩, hroll, hlife, hstrap⟩ := h
  exact ⟨fun b => by rw [imgOf, imgOf, hA, hB], hactive, hrunning, hroll, hlife, hstrap⟩

theorem bootSlot_of_plan (h : bootPlan t = bootPlan s) : bootSlot t = bootSlot s := by
  obtain ⟨himg, hactive, -, hroll, -, -⟩ := bootPlan_fields h
  have hbundle (x : Bundle) : bundleValid x t = bundleValid x s := by rw [bundleValid, bundleValid, hroll]
  have hboot (b : Bool) : bootable b t = bootable b s := by simp only [bootable, slotValid, himg, hbundle]
  simp only [bootSlot, hboot, hactive]

theorem countSignatures_plan (s : State) : bootPlan (countSignatures s) = bootPlan s ∧
    bootView (countSignatures s) = bootView s := by
  unfold countSignatures
  extract_lets bad
  split <;> exact ⟨rfl, rfl⟩

/-- The state in which boot chooses, with a failed signature counted. -/
def weighed (s : State) : State := countSignatures (readied s)

theorem weighed_view (s : State) : bootView (weighed s) = bootView (readied s) := by
  rw [weighed]
  exact (countSignatures_plan _).2

/-- A node that boots: it has a clock and H-core is not halted. -/
structure Boots (s : State) : Prop where
  idle : s.modes.booted = false
  clock : clockOn s = true
  free : s.sec.hHalt = false

theorem Boots.guard (h : Boots s) : (!clockOn s || s.modes.booted || s.sec.hHalt) = false := by
  simp [h.idle, h.clock, h.free]

theorem Boots.life (h : Boots s) : (readied s).sec.life = s.sec.life := by
  obtain ⟨-, -, -, -, hlife, -⟩ := bootPlan_fields (bootPlan_readied h.idle)
  exact hlife

theorem Boots.plan (h : Boots s) : bootPlan (weighed s) = bootPlan s :=
  (countSignatures_plan _).1.trans (bootPlan_readied h.idle)

theorem Boots.slot (h : Boots s) : bootSlot (weighed s) = bootSlot s := bootSlot_of_plan h.plan

theorem Boots.strap (h : Boots s) : (weighed s).id.sandStrap = s.id.sandStrap := by
  obtain ⟨-, -, -, -, -, hstrap⟩ := bootPlan_fields h.plan
  exact hstrap

theorem Boots.img (h : Boots s) (b : Bool) : imgOf b (weighed s) = imgOf b s := (bootPlan_fields h.plan).1 b

/-- Boot goes on with slot b; `asked` is the kept request for Sand (R381, R412). -/
def bootSlotted (b asked : Bool) (s : State) : State :=
  if s.id.sandStrap then enterSand 2 s
  else if asked then enterSand 3 s
  else match countAttempt b s with
    | (none, s) => enterSand 1 s
    | (some b, s) => startImage b s

/-- Boot with the slot it finds (R381). -/
def bootWith (x : Option Bool) (asked : Bool) (s : State) : State :=
  match x with
  | none => enterSand 1 s
  | some b => bootSlotted b asked s

theorem boot_eq (h : Boots s) : boot s = if s.sec.life = .retired then enterSand 1 (readied s)
    else bootWith (bootSlot s) s.fw.sandReq (weighed s) := by
  obtain ⟨-, -, -, -, hasked⟩ := readied_record h.idle
  unfold boot
  rw [if_neg (by simp [h.guard])]
  extract_lets u asked _ w x
  have ha : asked = s.fw.sandReq := by simp only [asked, u, hasked]
  have hready : unasked u = readied s := by simp only [readied, u]
  clear_value u
  have hw : w = readied s := hready ▸ rfl
  have hx : x = weighed s := by rw [weighed, ← hw]
  have hlife : w.sec.life = s.sec.life := hw ▸ h.life
  have hslot : bootSlot x = bootSlot s := hx ▸ h.slot
  rw [hlife, hslot, ha]
  clear_value x w
  rw [hw, hx]
  split
  · rfl
  · cases bootSlot s <;> rfl

/-! ## Sand (Table 01-5) -/

theorem bootView_hostClay (c : Fin 11) (s : State) : bootView (hostClay c s) = bootView s := by
  obtain ⟨_, _, _, _, _, hfw⟩ := records_hostClay c s
  have hid : (hostClay c s).id = s.id := by simp
  have hsec : (hostClay c s).sec = s.sec := by simp
  have hinbox : inbox (hostClay c s) = inbox s := inbox_congr (by simp) (by simp)
  rw [bootView, hfw, hid, hsec, hinbox, bootView]

theorem enterSand_lands (why : BitVec 4) (s : State) : bootView (enterSand why s) = bootView s ∧
    (enterSand why s).modes.mode = .sand ∧ (enterSand why s).modes.sandWhy = why ∧
    (enterSand why s).modes.booted = true ∧ (enterSand why s).modes.clay = true := by
  unfold enterSand
  extract_lets u
  have hu : Loads s u := loads_startWset _ s
  have hview : bootView (hostClay 8 (ensureTimebase (chooseRef { u with modes := { u.modes with
      mode := .sand, sandWhy := why, siltWhy := 0, booted := true } }))) = bootView s := by
    have href := (loads_chooseRef { u with modes := { u.modes with
      mode := .sand, sandWhy := why, siltWhy := 0, booted := true } }).trans (loads_ensureTimebase _)
    rw [bootView_hostClay, href.1, ← hu.1]
    rfl
  refine ⟨hview, ?_⟩
  simp [hostClay]

theorem inbox_of_view (h : bootView t = bootView s) : inbox t = inbox s := by
  simp only [bootView, Prod.mk.injEq] at h
  exact h.2.2

theorem catchUp_booted (h : bootView t = bootView s) (hinbox : inbox s = ([], false)) : catchUp t = t :=
  catchUp_of_inbox_empty ((inbox_of_view h).trans hinbox)

/-! ## The start of an image (R412, R416, R421) -/

theorem img_of_view (h : bootView t = bootView s) (b : Bool) : imgOf b t = imgOf b s := by
  simp only [bootView, Prod.mk.injEq] at h
  obtain ⟨⟨hA, hB, -⟩, -⟩ := h
  rw [imgOf, imgOf, hA, hB]

theorem loads_afterFail {c : SetCopy} (h : (imgOf b s).mark = .confirmed) :
    (afterFail b c s).1 = false ∧ Loads s (afterFail b c s).2 := by
  unfold afterFail
  simp only [h, Bool.false_and, Bool.false_eq_true, if_false]
  exact ⟨trivial, loads_useItems ..⟩

/-- A confirmed image keeps its mark, and no failed migration takes it back. -/
theorem settingsStep_confirmed (h : (imgOf b s).mark = .confirmed) :
    (settingsStep b s).1 = false ∧ Loads s (settingsStep b s).2 := by
  have hcopies := loads_loadCopies s
  unfold settingsStep
  generalize loadCopies s = r at hcopies
  obtain ⟨c, u⟩ := r
  have hmark {w : State} (hw : Loads s w) : (imgOf b w).mark = .confirmed := by rw [img_of_view hw.1, h]
  cases c with
  | none =>
    have hw := hcopies.trans (loads_useItems [] 0 u.id.ssv false u)
    simp only [hmark hw]
    exact ⟨trivial, hw⟩
  | some c =>
    have hmig := hcopies.trans (loads_migrate c u)
    dsimp only
    generalize migrate c u = m at hmig
    obtain ⟨failed, w⟩ := m
    cases failed with
    | true =>
      obtain ⟨hstay, hfail⟩ := loads_afterFail (c := c) (hmark hmig)
      exact ⟨hstay, hmig.trans hfail⟩
    | false =>
      simp only [hmark hmig]
      exact ⟨trivial, hmig⟩

theorem bootView_goLoam (s : State) : bootView (goLoam s) = bootView s ∧ (goLoam s).modes.mode = .loam ∧
    (goLoam s).modes.booted = s.modes.booted := by
  unfold goLoam
  extract_lets a _ c
  have ha : bootView a = bootView s := bootView_of (by simp [a]) (by simp [a]) (by simp [a])
    (inbox_congr (by simp [a]) (by simp [a]))
  have hmodes : a.modes.mode = .loam ∧ a.modes.booted = s.modes.booted := ⟨rfl, rfl⟩
  have hc : bootView c = bootView a ∧ c.modes = a.modes := by
    unfold c
    split
    · exact ⟨(loads_note 0x0902 0 [] _).1.trans rfl, (loads_note 0x0902 0 [] _).2⟩
    · exact ⟨rfl, rfl⟩
  have hdone : bootView c = bootView s ∧ c.modes.mode = .loam ∧ c.modes.booted = s.modes.booted := by
    rw [hc.2]
    exact ⟨hc.1.trans ha, hmodes⟩
  clear_value c
  split
  · exact hdone
  · exact hdone

theorem hostClay_mode (c : Fin 11) (s : State) : (hostClay c s).modes.booted = s.modes.booted ∧
    (hostClay c s).modes.mode = s.modes.mode := by
  simp [hostClay]

/-- After its boot a node is in Loam or in Silt (Table 01-5). -/
theorem bootMode_lands (s : State) : bootView (bootMode s) = bootView s ∧ (bootMode s).modes.booted = true ∧
    ((bootMode s).modes.mode = .loam ∨ (bootMode s).modes.mode = .silt) := by
  unfold bootMode
  extract_lets _ u w code why
  have hw : Loads u w := (loads_chooseRef u).trans (loads_ensureTimebase _)
  have hbooted : w.modes.booted = true ∧ w.modes.mode = .silt := by
    rw [hw.2]
    exact ⟨rfl, rfl⟩
  have hview : bootView w = bootView s := hw.1.trans rfl
  clear_value w
  split
  · obtain ⟨hloam, hmode, hboot⟩ := bootView_goLoam w
    exact ⟨hloam.trans hview, hboot.trans hbooted.1, .inl hmode⟩
  · refine ⟨(bootView_hostClay 8 _).trans hview, ?_, .inr ?_⟩
    · exact (hostClay_mode 8 _).1.trans hbooted.1
    · exact (hostClay_mode 8 _).2.trans hbooted.2

theorem startImage_lands {v : Bundle} (hmark : (imgOf b s).mark = .confirmed)
    (hbundle : slotBundle (imgOf b s) = some v) :
    bootView (startImage b s) = bootView (runImage b s) ∧ (startImage b s).modes.booted = true ∧
    ((startImage b s).modes.mode = .loam ∨ (startImage b s).modes.mode = .silt) := by
  have hrun : (imgOf b (runImage b s)).mark = .confirmed := by
    rw [← hmark]
    unfold runImage
    rw [hbundle]
    rfl
  obtain ⟨hstay, hload⟩ := settingsStep_confirmed hrun
  unfold startImage
  generalize settingsStep b (runImage b s) = r at hstay hload
  obtain ⟨again, w⟩ := r
  dsimp -zeta only at hstay hload ⊢
  rw [hstay, if_neg Bool.false_ne_true]
  extract_lets x _ y z
  have hx : Loads (runImage b s) x := hload.trans ((loads_loadJournal w).trans (loads_applySettings _))
  have hy : bootView y = bootView (runImage b s) := (loads_startWset _ _).1.trans hx.1
  obtain ⟨hview, hbooted, hmode⟩ := bootMode_lands y
  split
  · have hfield := (loads_startFieldSet z).trans (loads_readDigest _)
    rw [hfield.1, hfield.2]
    exact ⟨hview.trans hy, hbooted, hmode⟩
  · exact ⟨hview.trans hy, hbooted, hmode⟩

/-! ## The command BOOT -/

theorem exec_boot (h : bootView t = bootView s) (hinbox : inbox s = ([], false)) (hboot : boot u = t) :
    exec .boot u = .next t := by
  change Host.Outcome.next (catchUp (boot u)) = _
  rw [hboot, catchUp_booted h hinbox]

/-- A node that stays in Sand: its record is that of the state in which it chose. -/
theorem sand_completes {why : BitVec 4} (hinbox : inbox t = ([], false)) (hboot : boot s = enterSand why t) :
    Completes .boot s fun r => bootView r = bootView t ∧ r.modes.mode = .sand ∧ r.modes.sandWhy = why ∧
      r.modes.booted = true ∧ r.modes.clay = true :=
  ⟨_, exec_boot (enterSand_lands why t).1 hinbox hboot, enterSand_lands why t⟩

theorem record_of_view (h : bootView t = bootView s) : t.fw.runningB = s.fw.runningB ∧
    t.fw.sandReq = s.fw.sandReq ∧ t.fw.bootSeq = s.fw.bootSeq ∧ t.fw.activeB = s.fw.activeB ∧
    t.id.hVer = s.id.hVer ∧ t.id.ssv = s.id.ssv ∧ t.sec.epoch = s.sec.epoch := by
  simp only [bootView, Prod.mk.injEq] at h
  obtain ⟨⟨-, -, hactive, hrunning, hseq, hreq⟩, ⟨hver, hssv, hepoch⟩, -⟩ := h
  exact ⟨hrunning, hreq, hseq, hactive, hver, hssv, hepoch⟩

/-- What the state w in which boot chooses has kept of s. -/
structure Kept (s w : State) : Prop where
  plan : bootPlan w = bootPlan s
  inbox : inbox w = ([], false)
  asked : w.fw.sandReq = false
  seq : w.fw.bootSeq = (if s.fw.sandReq then s.fw.bootSeq + 1 else s.fw.bootSeq)

theorem Boots.kept (h : Boots s) (hinbox : inbox s = ([], false)) : Kept s (weighed s) := by
  obtain ⟨hreq, hseq, hin, -, -⟩ := readied_record h.idle
  have hview := weighed_view s
  have hplan := h.plan
  obtain ⟨-, hreq', hseq', -⟩ := record_of_view hview
  have hinb := inbox_of_view hview
  generalize weighed s = w at *
  exact ⟨hplan, hinb.trans (hin.trans hinbox), hreq'.trans hreq, hseq'.trans hseq⟩

theorem slotBundle_of_valid (h : slotValid b s = true) : ∃ v, slotBundle (imgOf b s) = some v := by
  simp only [slotValid, Bool.and_eq_true] at h
  obtain ⟨-, hany⟩ := h
  cases hv : slotBundle (imgOf b s) with
  | none => simp [hv] at hany
  | some v => exact ⟨v, rfl⟩

theorem bootSlot_valid (h : bootSlot s = some b) : ∃ v, slotBundle (imgOf b s) = some v := by
  have hboot : bootable b s = true := by
    unfold bootSlot at h
    split at h
    next hb => exact (Option.some.inj h) ▸ hb
    next =>
      split at h
      next hb => exact (Option.some.inj h) ▸ hb
      next => exact absurd h (by simp)
  simp only [bootable, Bool.and_eq_true] at hboot
  exact slotBundle_of_valid hboot.1

theorem boot_slotted (h : Boots s) (hlife : s.sec.life ≠ .retired) (hslot : bootSlot s = some b) :
    boot s = bootSlotted b s.fw.sandReq (weighed s) := by
  rw [boot_eq h, if_neg hlife, hslot]
  exact Eq.refl _

theorem bootSlotted_strapped {asked : Bool} (hstrap : s.id.sandStrap = true) :
    bootSlotted b asked s = enterSand 2 s := by
  rw [bootSlotted, if_pos hstrap]

theorem bootSlotted_asked (hstrap : s.id.sandStrap = false) : bootSlotted b true s = enterSand 3 s := by
  rw [bootSlotted, if_neg (by simp [hstrap]), if_pos rfl]

theorem bootSlotted_rejects (hstrap : s.id.sandStrap = false) (h : countAttempt b s = (none, u)) :
    bootSlotted b false s = enterSand 1 u := by
  unfold bootSlotted
  rw [hstrap, if_neg Bool.false_ne_true, if_neg Bool.false_ne_true, h]

theorem bootSlotted_starts {c : Bool} (hstrap : s.id.sandStrap = false) (h : countAttempt b s = (some c, u)) :
    bootSlotted b false s = startImage c u := by
  unfold bootSlotted
  rw [hstrap, if_neg Bool.false_ne_true, if_neg Bool.false_ne_true, h]

theorem countAttempt_confirmed (h : (imgOf b s).mark = .confirmed) : countAttempt b s = (some b, s) := by
  unfold countAttempt
  rw [h]

/-- The third unconfirmed attempt (R413). -/
theorem countAttempt_third {n : Nat} (h : (imgOf b s).mark = .trial n) (hn : 3 ≤ n) : countAttempt b s =
    if canRollBack b s then (some (!b), rollBack b s) else (none, rejectSlot b s) := by
  unfold countAttempt
  rw [h]
  exact if_pos hn

theorem canRollBack_of_plan (h : bootPlan t = bootPlan s) (b : Bool) : canRollBack b t = canRollBack b s := by
  obtain ⟨himg, -, -, hroll, -, -⟩ := bootPlan_fields h
  have hbundle (x : Bundle) : bundleValid x t = bundleValid x s := by rw [bundleValid, bundleValid, hroll]
  simp only [canRollBack, slotValid, himg, hbundle]

theorem rejectSlot_slots (b : Bool) (s : State) :
    imgOf b (rejectSlot b s) = { imgOf b s with mark := .rejected } ∧ imgOf (!b) (rejectSlot b s) = imgOf (!b) s ∧
    inbox (rejectSlot b s) = inbox s := by
  have hrecord (u : State) (c : Bool) : imgOf c (bootRecord u) = imgOf c u := rfl
  rw [rejectSlot, hrecord, hrecord, imgOf_setImg, imgOf_setImg_other]
  exact ⟨rfl, rfl, rfl⟩

theorem rollBack_slots (b : Bool) (s : State) :
    imgOf b (rollBack b s) = { imgOf b s with mark := .rejected } ∧
    imgOf (!b) (rollBack b s) = { imgOf (!b) s with mark := .confirmed } ∧ (rollBack b s).fw.activeB = !b ∧
    inbox (rollBack b s) = inbox s := by
  have hactive (u : State) (c x : Bool) : imgOf c { u with fw := { u.fw with activeB := x } } = imgOf c u := rfl
  obtain ⟨hself, hother, hin⟩ := rejectSlot_slots b s
  rw [rollBack]
  generalize rejectSlot b s = r at hself hother hin
  refine ⟨?_, ?_, rfl, hin⟩
  · rw [hactive, imgOf_setImg_not, hself]
  · rw [hactive, imgOf_setImg, hother]

/-- The image of slot b starts: it runs, in Loam or in Silt. -/
theorem start_completes {v : Bundle} (hboot : boot s = startImage b t) (hinbox : inbox t = ([], false))
    (hmark : (imgOf b t).mark = .confirmed) (hbundle : slotBundle (imgOf b t) = some v) :
    Completes .boot s fun r => bootView r = bootView (runImage b t) ∧ r.modes.booted = true ∧
      (r.modes.mode = .loam ∨ r.modes.mode = .silt) := by
  have hrun : inbox (runImage b t) = ([], false) := by
    unfold runImage
    rw [hbundle]
    exact hinbox
  have hlands := startImage_lands hmark hbundle
  exact ⟨_, exec_boot hlands.1 hrun hboot, hlands⟩

theorem runImage_record {v : Bundle} (hbundle : slotBundle (imgOf b s) = some v) :
    (runImage b s).fw.runningB = some b ∧ (runImage b s).id.hVer = v.h ∧ (runImage b s).id.ssv = v.ssv ∧
    (runImage b s).sec.epoch = v.epoch ∧ (∀ c, imgOf c (runImage b s) = imgOf c s) ∧
    (runImage b s).fw.activeB = s.fw.activeB := by
  unfold runImage
  rw [hbundle]
  exact ⟨rfl, rfl, rfl, rfl, fun _ => rfl, rfl⟩

/-! ## What boot's choice leads to -/

theorem boot_retired (h : Boots s) (hinbox : inbox s = ([], false)) (hlife : s.sec.life = .retired) :
    Completes .boot s fun t => t.modes.mode = .sand ∧ t.modes.sandWhy = 1 ∧ t.modes.booted = true := by
  obtain ⟨-, -, hin, -, -⟩ := readied_record h.idle
  obtain ⟨t, hexec, -, hsand, hwhy, hbooted, -⟩ :=
    sand_completes (hin.trans hinbox) ((boot_eq h).trans (if_pos hlife))
  exact ⟨t, hexec, hsand, hwhy, hbooted⟩

theorem boot_slotless (h : Boots s) (hinbox : inbox s = ([], false)) (hlife : s.sec.life ≠ .retired)
    (hslot : bootSlot s = none) : Completes .boot s fun t => t.modes.mode = .sand ∧ t.modes.sandWhy = 1 ∧
      t.modes.booted = true ∧ t.modes.clay = true ∧ t.fw.runningB = s.fw.runningB := by
  have hkept := h.kept hinbox
  have hboot : boot s = enterSand 1 (weighed s) := by
    rw [boot_eq h, if_neg hlife, hslot, bootWith]
  generalize weighed s = w at hkept hboot
  obtain ⟨-, -, hrunning, -⟩ := bootPlan_fields hkept.plan
  obtain ⟨t, hexec, hview, hsand, hwhy, hbooted, hclay⟩ := sand_completes hkept.inbox hboot
  exact ⟨t, hexec, hsand, hwhy, hbooted, hclay, (record_of_view hview).1.trans hrunning⟩

section Slotted
variable {w : State} (hkept : Kept s w)
include hkept

theorem boot_strapped (hboot : boot s = bootSlotted b s.fw.sandReq w) (hstrap : s.id.sandStrap = true) :
    Completes .boot s fun t => t.modes.mode = .sand ∧ t.modes.sandWhy = 2 ∧ t.modes.booted = true ∧
      t.fw.runningB = s.fw.runningB := by
  obtain ⟨-, -, hrunning, -, -, hst⟩ := bootPlan_fields hkept.plan
  obtain ⟨t, hexec, hview, hmode, hwhy, hbooted, -⟩ :=
    sand_completes hkept.inbox (hboot.trans (bootSlotted_strapped (hst.trans hstrap)))
  exact ⟨t, hexec, hmode, hwhy, hbooted, (record_of_view hview).1.trans hrunning⟩

theorem boot_asked (hboot : boot s = bootSlotted b true w) (hstrap : s.id.sandStrap = false)
    (hasked : s.fw.sandReq = true) : Completes .boot s fun t => t.modes.mode = .sand ∧ t.modes.sandWhy = 3 ∧
      t.fw.sandReq = false ∧ t.fw.bootSeq = s.fw.bootSeq + 1 := by
  obtain ⟨-, -, -, -, -, hst⟩ := bootPlan_fields hkept.plan
  obtain ⟨t, hexec, hview, hmode, hwhy, -, -⟩ :=
    sand_completes hkept.inbox (hboot.trans (bootSlotted_asked (hst.trans hstrap)))
  obtain ⟨-, hreq, hseq, -⟩ := record_of_view hview
  exact ⟨t, hexec, hmode, hwhy, hreq.trans hkept.asked, hseq.trans (hkept.seq.trans (if_pos hasked))⟩

section Unasked
variable (hboot : boot s = bootSlotted b false w) (hstrap : s.id.sandStrap = false)
include hboot hstrap

theorem boot_confirmed (hvalid : ∃ v, slotBundle (imgOf b s) = some v) (hmark : (imgOf b s).mark = .confirmed) :
    Completes .boot s fun t => t.fw.runningB = some b ∧ t.modes.booted = true ∧
      (t.modes.mode = .loam ∨ t.modes.mode = .silt) ∧
      ∀ v, slotBundle (imgOf b s) = some v → t.id.hVer = v.h ∧ t.id.ssv = v.ssv ∧ t.sec.epoch = v.epoch := by
  obtain ⟨himg, -, -, -, -, hst⟩ := bootPlan_fields hkept.plan
  obtain ⟨v, hv⟩ := hvalid
  rw [← himg b] at hmark hv ⊢
  have hstart := bootSlotted_starts (hst.trans hstrap) (countAttempt_confirmed hmark)
  obtain ⟨t, hexec, hview, hbooted, hmode⟩ := start_completes (hboot.trans hstart) hkept.inbox hmark hv
  obtain ⟨hrun, -, -, -, hver, hssv, hepoch⟩ := record_of_view hview
  obtain ⟨rrun, rver, rssv, repoch, -⟩ := runImage_record hv
  refine ⟨t, hexec, hrun.trans rrun, hbooted, hmode, fun x hx => ?_⟩
  obtain rfl : v = x := Option.some.inj (hv.symm.trans hx)
  exact ⟨hver.trans rver, hssv.trans rssv, hepoch.trans repoch⟩

theorem boot_rejects {n : Nat} (hmark : (imgOf b s).mark = .trial n) (hn : 3 ≤ n) (hback : canRollBack b s = false) :
    Completes .boot s fun t => t.modes.mode = .sand ∧ t.modes.sandWhy = 1 ∧ (imgOf b t).mark = .rejected := by
  obtain ⟨himg, -, -, -, -, hst⟩ := bootPlan_fields hkept.plan
  rw [← himg b] at hmark
  rw [← canRollBack_of_plan hkept.plan b] at hback
  have hnone := countAttempt_third hmark hn
  rw [if_neg (by simp [hback])] at hnone
  have hsand := bootSlotted_rejects (hst.trans hstrap) hnone
  obtain ⟨hself, -, hreject⟩ := rejectSlot_slots b w
  have hin := hreject.trans hkept.inbox
  obtain ⟨t, hexec, hview, hmode, hwhy, -, -⟩ := sand_completes hin (hboot.trans hsand)
  refine ⟨t, hexec, hmode, hwhy, ?_⟩
  rw [img_of_view hview, hself]

theorem boot_rollsBack {n : Nat} (hmark : (imgOf b s).mark = .trial n) (hn : 3 ≤ n) (hback : canRollBack b s = true) :
    Completes .boot s fun t => t.fw.runningB = some (!b) ∧ t.fw.activeB = !b ∧ (imgOf b t).mark = .rejected ∧
      (imgOf (!b) t).mark = .confirmed ∧ t.modes.booted = true := by
  obtain ⟨himg, -, -, -, -, hst⟩ := bootPlan_fields hkept.plan
  rw [← himg b] at hmark
  rw [← canRollBack_of_plan hkept.plan b] at hback
  have hsome := countAttempt_third hmark hn
  rw [if_pos hback] at hsome
  have hstart := bootSlotted_starts (hst.trans hstrap) hsome
  obtain ⟨hself, hother, hactive, hin⟩ := rollBack_slots b w
  obtain ⟨v, hv⟩ := slotBundle_of_valid (by simpa only [canRollBack, Bool.and_eq_true] using hback : _ ∧ _).2
  have hv' : slotBundle (imgOf (!b) (rollBack b w)) = some v := by
    rw [hother, ← hv]
    exact Eq.refl _
  have hmark' := congrArg ImgSlot.mark hother
  generalize rollBack b w = r at *
  obtain ⟨t, hexec, hview, hbooted, -⟩ := start_completes (hboot.trans hstart) (hin.trans hkept.inbox) hmark' hv'
  obtain ⟨hrun, -, -, hact, -⟩ := record_of_view hview
  obtain ⟨rrun, -, -, -, rimg, ract⟩ := runImage_record hv'
  refine ⟨t, hexec, hrun.trans rrun, hact.trans (ract.trans hactive), ?_, ?_, hbooted⟩
  · rw [img_of_view hview, rimg, hself]
  · rw [img_of_view hview, rimg, hother]

end Unasked
end Slotted

/-- Settles O58, from the state in which boot chooses and what its choice leads to. -/
theorem bootStartsAnImageOrStaysInSand : Obligations.BootStartsAnImageOrStaysInSand := by
  unfold Obligations.BootStartsAnImageOrStaysInSand
  intro s hring hgo
  have hinbox : inbox s = ([], false) := congrArg₂ Prod.mk hring hgo
  refine ⟨fun hstay => ?_, fun hidle hclk hhalt => ?_⟩
  · have hboot : boot s = s := if_pos (by rcases hstay with h | h <;> simp [h])
    exact ⟨s, exec_boot (s := s) rfl hinbox hboot, rfl⟩
  have h : Boots s := ⟨hidle, hclk, hhalt⟩
  refine ⟨fun hlife => ?_, fun hlife hslot => ?_, fun b hlife hslot => ?_⟩
  · exact boot_retired h hinbox hlife
  · exact boot_slotless h hinbox hlife hslot
  · have hkept := h.kept hinbox
    have hboot := boot_slotted h hlife hslot
    have hvalid := bootSlot_valid hslot
    generalize weighed s = w at hkept hboot
    refine ⟨fun hstrap => boot_strapped hkept hboot hstrap, fun hstrap hasked => ?_, fun hstrap hasked => ?_⟩
    all_goals rw [hasked] at hboot
    · exact boot_asked hkept hboot hstrap hasked
    · exact ⟨boot_confirmed hkept hboot hstrap hvalid, fun n hmark hn => boot_rejects hkept hboot hstrap hmark hn,
        fun n hmark hn => boot_rollsBack hkept hboot hstrap hmark hn⟩

end Sys2Proof.Proofs

/-! Event records and epoch edges (R14, R424, R430, R433 to R438). -/

namespace Sys2Proof.Proofs

open Sys2Proof.Machine Sys2Proof.Safety Sys2Proof.Laws

variable {s t u : State}

/-! ## Field records at the host (R433) -/

theorem seqUp_accepts {q : Queued} {rest : List Queued} (hring : s.barr.rg7 = q :: rest)
    (hseq : s.barr.fieldNext = s.barr.hostExpect) :
    (seqUp s).barr.fieldNext = (seqUp s).barr.hostExpect ∧ (seqUp s).barr.rxCnt = s.barr.rxCnt + 1 ∧
    (seqUp s).barr.upPart = (if s.barr.upPart + 1 = cellsOf q.cell then 0 else s.barr.upPart + 1) ∧
    (seqUp s).barr.rg7 = (if s.barr.upPart + 1 = cellsOf q.cell then rest else q :: rest) := by
  simp only [seqUp, if_pos hseq]
  simp [passUp, hring, hseq, advanceTo, advance]

/-- Both cells of a message of two are accepted, and it leaves the ring. -/
theorem takenUp_pair {c : Cell} (hcells : cellsOf c = 2) (h : ArrivesUp c s) :
    (takenUp c s).barr.rg7 = s.barr.rg7.drop 1 ∧ (takenUp c s).barr.rxCnt = s.barr.rxCnt + 2 := by
  obtain ⟨-, hseq, hpart, -, q, rest, hring, rfl⟩ := h
  have htwo : takenUp q.cell s = seqUp (seqUp s) := by simp [takenUp, hcells, List.range_succ]
  obtain ⟨hseq', hcnt, hpart', hring'⟩ := seqUp_accepts hring hseq
  rw [hpart, hcells, if_neg (by decide)] at hpart' hring'
  obtain ⟨-, hcnt', -, hring''⟩ := seqUp_accepts hring' hseq'
  rw [hpart', hcells, if_pos rfl] at hring''
  rw [htwo, hring'', hcnt', hcnt, hring, BitVec.add_assoc]
  exact ⟨rfl, rfl⟩

theorem exec_eventMessage {r : EventRec} (h : ArrivesUp (.event r) s) :
    exec (.eventMessage r) s = .next (eventTaken r (takenUp (.event r) s)) :=
  congrArg Host.Outcome.next (onUp_arrives h _)

/-- A record that was taken awaits no acknowledgement any longer, and the next HEARTBEAT acknowledges it. -/
theorem eventTaken_acks (r : EventRec) (s : State) : r ∉ (eventTaken r s).ev.unacked ∧
    (mirrorEvent r s).ev.unacked = s.ev.unacked ∧
    (r ∈ s.ev.unacked → (eventTaken r s).ev.heard = s.ev.heard ++ [r]) := by
  have hmirror : (mirrorEvent r s).ev.unacked = s.ev.unacked ∧ (mirrorEvent r s).ev.heard = s.ev.heard := by
    unfold mirrorEvent
    dsimp only
    (repeat' split) <;> exact ⟨rfl, rfl⟩
  obtain ⟨hunacked, hheard⟩ := hmirror
  refine ⟨by simp [eventTaken], hunacked, fun hmem => ?_⟩
  simp [eventTaken, hunacked, hheard, hmem]

theorem only_eventTaken (r : EventRec) (s : State) : Only [.ev, .barr, .clk] s (eventTaken r (takenUp (.event r) s)) ∧
    (eventTaken r s).clk = s.clk ∧ (eventTaken r s).barr = s.barr := by
  have hev (u : State) : Only [.ev] u (eventTaken r u) := by
    unfold eventTaken mirrorEvent
    dsimp only
    (repeat' split) <;> exact fun p hp => by cases p <;> simp_all [same]
  have hup : Only [.barr, .clk] s (takenUp (.event r) s) := fun p hp => by cases p <;> simp_all [same]
  exact ⟨only_trans (only_mono hup (by simp)) (only_mono (hev _) (by simp)), hev s .clk (by simp),
    hev s .barr (by simp)⟩

theorem eventTaken_new {r : EventRec} (hnew : s.ev.mirror.find? (sameId r) = none) (hroom : s.ev.mirror.length < 64) :
    (eventTaken r s).ev.mirror = s.ev.mirror ++ [r] ∧ (eventTaken r s).ev.mirrorOvf = s.ev.mirrorOvf := by
  simp [eventTaken, mirrorEvent, hnew, enqueue, hroom, Nat.not_le.mpr hroom]

theorem eventTaken_known {r : EventRec} (hold : s.ev.mirror.find? (sameId r) = some r) :
    (eventTaken r s).ev.mirror = s.ev.mirror ∧ (eventTaken r s).ev.mirrorOvf = s.ev.mirrorOvf := by
  simp [eventTaken, mirrorEvent, hold]

section Message
variable {r : EventRec} (h : ArrivesUp (.event r) s)
include h

theorem eventMessage_new (hnew : s.ev.mirror.find? (sameId r) = none) (hroom : s.ev.mirror.length < 64) :
    Completes (.eventMessage r) s fun t =>
      t.ev.mirror = s.ev.mirror ++ [r] ∧ t.ev.mirrorOvf = s.ev.mirrorOvf ∧ r ∉ t.ev.unacked ∧
      (r ∈ s.ev.unacked → t.ev.heard = s.ev.heard ++ [r]) ∧ t.barr.rg7 = s.barr.rg7.drop 1 ∧
      t.barr.rxCnt = s.barr.rxCnt + 2 ∧ t.clk = (takenUp (.event r) s).clk ∧ t.barr = (takenUp (.event r) s).barr ∧
      Only [.ev, .barr, .clk] s t := by
  obtain ⟨hring, hcnt⟩ := takenUp_pair rfl h
  have hev : (takenUp (.event r) s).ev = s.ev := by simp
  obtain ⟨hmirror, hovf⟩ :=
    eventTaken_new (r := r) (s := takenUp (.event r) s) (by rw [hev, hnew]) (by rw [hev]; exact hroom)
  obtain ⟨hgone, -, hheard⟩ := eventTaken_acks r (takenUp (.event r) s)
  obtain ⟨honly, -, -⟩ := only_eventTaken r s
  obtain ⟨-, hclk, hbarr⟩ := only_eventTaken r (takenUp (.event r) s)
  rw [hev] at hmirror hovf hheard
  exact ⟨_, exec_eventMessage h, hmirror, hovf, hgone, hheard, by rw [hbarr, hring], by rw [hbarr, hcnt], hclk,
    hbarr, honly⟩

theorem eventMessage_known (hold : s.ev.mirror.find? (sameId r) = some r) : Completes (.eventMessage r) s fun t =>
    t.ev.mirror = s.ev.mirror ∧ t.ev.mirrorOvf = s.ev.mirrorOvf ∧ r ∉ t.ev.unacked ∧
    t.clk = (takenUp (.event r) s).clk ∧ t.barr = (takenUp (.event r) s).barr ∧ Only [.ev, .barr, .clk] s t := by
  have hev : (takenUp (.event r) s).ev = s.ev := by simp
  obtain ⟨hmirror, hovf⟩ := eventTaken_known (r := r) (s := takenUp (.event r) s) (by rw [hev, hold])
  obtain ⟨hgone, -, -⟩ := eventTaken_acks r (takenUp (.event r) s)
  obtain ⟨honly, -, -⟩ := only_eventTaken r s
  obtain ⟨-, hclk, hbarr⟩ := only_eventTaken r (takenUp (.event r) s)
  rw [hev] at hmirror hovf
  exact ⟨_, exec_eventMessage h, hmirror, hovf, hgone, hclk, hbarr, honly⟩

end Message

theorem eventResend_sends {n : BitVec 31} {r : EventRec} (hlink : linkUp s = true) (hclk : s.barr.fieldClock = true)
    (hfind : (s.ev.unacked ++ s.ev.heard).find? (fun x => x.seq == n) = some r) : Completes (.eventResend n) s fun t =>
      t = { s with barr := { s.barr with rg7 := s.barr.rg7 ++ [queued (.event r) s] } } := by
  refine ⟨_, ?_, rfl⟩
  change execEventResend n s = _
  simp [execEventResend, hlink, hfind, upCell, hclk]

theorem eventResend_none {n : BitVec 31} (hfind : (s.ev.unacked ++ s.ev.heard).find? (fun x => x.seq == n) = none) :
    Completes (.eventResend n) s fun t => t = s := by
  refine ⟨s, ?_, rfl⟩
  change execEventResend n s = _
  unfold execEventResend
  rw [hfind]
  exact congrArg Host.Outcome.next (ite_self s)

theorem eventHandle_last {r : EventRec} (hhand : s.ev.handling = [r]) (hruns : handles s r.side = true)
    (hwait : s.ev.waiting = []) :
    Completes .eventHandle s fun t => t = { s with ev := { s.ev with handling := [] } } := by
  refine ⟨_, ?_, rfl⟩
  change execEventHandle s = _
  simp [execEventHandle, eventHandle, hhand, hruns, hwait, mostSevere]

/-! ## EVENT_READ, EVENT_CLOSE and FEV_CLOSE (R435, R436) -/

theorem eventRead_answers {q : Request} (h : Accepted 0x58 q s) (hlen : (reqBody q).length = 6)
    (hmode : s.modes.mode ≠ .sand) (hsel : (byteAt (reqBody q) 0).toNat ≤ 2)
    (hmin : 1 ≤ (byteAt (reqBody q) 5).toNat) (hmax : (byteAt (reqBody q) 5).toNat ≤ 7) :
    Answers (.eventRead q) q s id {
      data := be 4 (eventCount (byteAt (reqBody q) 0) s) ++ (((eventQueue (byteAt (reqBody q) 0) s).filter fun r =>
        beAt (reqBody q) 1 4 ≤ r.1).take (byteAt (reqBody q) 5).toNat).flatMap fun r => eventBytes r.2 } := by
  have hmodes : (taken q s).modes = s.modes := by simp
  refine answers_of opEventRead h (f := id)
    (hc := by simp [opEventRead, hmode, lenIs_of hlen, param, inRange, hsel, hmin, hmax]) (hact := ?_)
  change eventReadAct q (taken q s) = _
  unfold eventReadAct
  dsimp only
  rw [taken_keep (eventCount (byteAt (reqBody q) 0)) q s, taken_keep (eventQueue (byteAt (reqBody q) 0)) q s]
  rfl

theorem settleCritical_active (s : State) :
    (settleCritical s).modes.active = (if criticalOpen s then s.modes.active else s.modes.active &&& ~~~ cause 4) ∧
    (settleCritical s).modes.clay = s.modes.clay ∧ Only [.modes] s (settleCritical s) := by
  unfold settleCritical
  split <;> exact ⟨rfl, rfl, fun p hp => by cases p <;> simp_all [same]⟩

/-- The host queue with the records of sequence number n closed. -/
def shutHost (n : BitVec 31) (s : State) : List EventRec :=
  s.ev.host.map fun x => if x.seq == n then { x with opened := false } else x

theorem eventCloseAct_host {q : Request} {r : EventRec} (hsome : namedEvent (beAt (reqBody q) 0 4) s = some r)
    (hside : r.side = .host) : ∃ l, eventCloseAct q s =
      (settleCritical { s with ev := { s.ev with host := shutHost r.seq s, unlogged := l } }, done []) := by
  unfold eventCloseAct
  simp only [hsome, hside]
  exact ⟨_, rfl⟩

section Close
variable {q : Request} (h : Accepted 0x59 q s) (hlen : (reqBody q).length = 4)
include h hlen

theorem eventClose_none (hnone : namedEvent (beAt (reqBody q) 0 4) s = none) :
    Answers (.eventClose q) q s id { status := 0x21, detail := 0x0B } := by
  have hnamed : namedEvent (beAt (reqBody q) 0 4) (taken q s) = none :=
    (taken_keep (namedEvent (beAt (reqBody q) 0 4)) q s).trans hnone
  exact congrArg Host.Outcome.next (serve_refused opEventClose q s _ h.1 rfl (by
    simp [opEventClose, lenIs_of hlen, hnamed, refuse]))

theorem eventClose_host {r : EventRec} (hsome : namedEvent (beAt (reqBody q) 0 4) s = some r)
    (hside : r.side = .host) :
    Completes (.eventClose q) s fun t =>
      t.ev.host = s.ev.host.map (fun x => if x.seq == r.seq then { x with opened := false } else x) ∧
      t.modes.active = (if criticalOpen t then s.modes.active else s.modes.active &&& ~~~ cause 4) ∧
      t.modes.clay = s.modes.clay ∧ Answered q {} t ∧ Served [.ev, .modes] s t := by
  have hnamed : namedEvent (beAt (reqBody q) 0 4) (taken q s) = some r :=
    (taken_keep (namedEvent (beAt (reqBody q) 0 4)) q s).trans hsome
  obtain ⟨l, hact⟩ := eventCloseAct_host hnamed hside
  obtain ⟨hactive, hclay, honly⟩ := settleCritical_active
    { taken q s with ev := { (taken q s).ev with host := shutHost r.seq (taken q s), unlogged := l } }
  refine completes_of opEventClose h (by simp [opEventClose, lenIs_of hlen, hnamed]) hact ?_
  refine ⟨by simp [shutHost], ?_, ?_, ⟨_, rfl⟩,
    served_answer q _ (only_trans (fun p hp => ?_) (only_mono honly (by simp)))⟩
  · simpa [criticalOpen] using hactive
  · simpa using hclay
  · cases p <;> simp_all [same]

end Close

end Sys2Proof.Proofs

/-! FEV_CLOSE, ASAPPLIED_READ and the duties of an epoch edge (R14, R424, R430, R434, R436). -/

namespace Sys2Proof.Proofs

open Sys2Proof.Machine Sys2Proof.Safety Sys2Proof.Laws

variable {s t u : State}

/-! ## FEV_CLOSE (R436) -/

/-- The field queue with the records of sequence number n closed. -/
def shutField (n : BitVec 31) (s : State) : List EventRec :=
  s.ev.field.map fun r => if r.seq = n then { r with opened := false } else r

/-- The field's record closes; its message goes again, if the record is held. -/
def closeSent (n : BitVec 31) (s : State) : State :=
  match (shutField n s).find? (fun r => r.seq == n) with
  | some r => sendEvent r { s with ev := { s.ev with field := shutField n s } }
  | none => { s with ev := { s.ev with field := shutField n s } }

theorem closeFieldRec_eq (n : BitVec 31) (s : State) : closeFieldRec n s = settleCritical (closeSent n s) := by
  unfold closeFieldRec closeSent
  rfl

theorem closeSent_queues (n : BitVec 31) (s : State) : (closeSent n s).ev.field = shutField n s ∧
    (closeSent n s).ev.host = s.ev.host ∧ Only [.ev, .barr] s (closeSent n s) := by
  unfold closeSent
  split <;> exact ⟨rfl, rfl, fun p hp => by cases p <;> simp_all [same]⟩

theorem closeSent_sends {r : EventRec} (hlink : linkUp s = true) (hclk : s.barr.fieldClock = true)
    (hone : s.ev.field = [r]) :
    (closeSent r.seq s).barr.rg7 = s.barr.rg7 ++ [queued (.event { r with opened := false }) s] := by
  have hshut : shutField r.seq s = [{ r with opened := false }] := by simp [shutField, hone]
  have hlink' (e : Events) : linkUp { s with ev := e } = linkUp s := rfl
  simp [closeSent, hshut, sendEvent, hlink, hlink', hclk, queued]

theorem fevCloseCompletes (id : Word) (hdom : domOn s 13 = true) (hlink : linkUp s = true)
    (hclk : s.barr.fieldClock = true) : Completes (.fevClose id) s fun t =>
      t.ev.field = s.ev.field.map (fun r => if r.seq = id.setWidth 31 then { r with opened := false } else r) ∧
      (∀ r, s.ev.field = [r] → r.seq = id.setWidth 31 →
        t.barr.rg7 = s.barr.rg7 ++ [queued (.event { r with opened := false }) s]) ∧
      t.ev.host = s.ev.host ∧ Only [.ev, .barr, .modes] s t := by
  obtain ⟨hfield, hhost, honly⟩ := closeSent_queues (id.setWidth 31) s
  obtain ⟨-, -, hsettle⟩ := settleCritical_active (closeSent (id.setWidth 31) s)
  have hev := hsettle .ev (by simp)
  have hbarr := hsettle .barr (by simp)
  refine ⟨settleCritical (closeSent (id.setWidth 31) s), ?_, ?_, fun r hone hseq => ?_, ?_, ?_⟩
  · change execFevClose id s = _
    rw [execFevClose, if_pos hdom, closeFieldRec_eq]
  · exact (congrArg Events.field hev).trans hfield
  · rw [← hseq] at hbarr ⊢
    exact (congrArg Barrier.rg7 hbarr).trans (closeSent_sends hlink hclk hone)
  · exact (congrArg Events.host hev).trans hhost
  · exact only_trans (only_mono honly (by simp)) (only_mono hsettle (by simp))

/-! ## ASAPPLIED_READ (R424) -/

section Applied
variable {q : Request} (h : Accepted 0x5D q s) (hlen : (reqBody q).length = 5)
  (hmin : 1 ≤ (byteAt (reqBody q) 4).toNat) (hmax : (byteAt (reqBody q) 4).toNat ≤ 7)
include h hlen hmin hmax

theorem asappliedRead_none (hnone : appliedFrom (wordAt (reqBody q) 0) 1 s = []) :
    Answers (.asappliedRead q) q s id { status := 0x21, detail := 0x0B } := by
  have hnone' : appliedFrom (wordAt (reqBody q) 0) 1 (taken q s) = [] :=
    (taken_keep (appliedFrom (wordAt (reqBody q) 0) 1) q s).trans hnone
  exact congrArg Host.Outcome.next (serve_refused opAsappliedRead q s _ h.1 rfl (by
    simp [opAsappliedRead, lenIs_of hlen, param, inRange, hmin, hmax, hnone', refuse]))

theorem asappliedRead_some (hsome : appliedFrom (wordAt (reqBody q) 0) 1 s ≠ []) :
    Answers (.asappliedRead q) q s id {
      data := ((s.fw.asRing ++ s.fw.asBuf).filter fun r =>
        (r.seq - wordAt (reqBody q) 0).toNat < (byteAt (reqBody q) 4).toNat).flatMap appliedBytes } := by
  have hsome' : appliedFrom (wordAt (reqBody q) 0) 1 (taken q s) ≠ [] := by
    rw [taken_keep (appliedFrom (wordAt (reqBody q) 0) 1) q s]
    exact hsome
  refine answers_of opAsappliedRead h (f := id)
    (hc := by simp [opAsappliedRead, lenIs_of hlen, param, inRange, hmin, hmax, hsome']) (hact := ?_)
  change (taken q s, done ((appliedFrom (wordAt (reqBody q) 0) (byteAt (reqBody q) 4).toNat (taken q s)).flatMap
    appliedBytes)) = _
  rw [taken_keep (appliedFrom (wordAt (reqBody q) 0) (byteAt (reqBody q) 4).toNat) q s]
  rfl

end Applied

/-! ## The parts of an epoch edge -/

theorem host_note_field (code : BitVec 16) (sev : BitVec 2) (chan : Byte) (data : List Byte) (s : State) :
    (note .field code sev chan data s).ev.host = s.ev.host := by
  unfold note
  dsimp only
  (repeat' split) <;> simp only [sendEvent_queues, startHandling_queues]

/-- What the duties of the field side leave of what those of the host read. -/
def hostSide (s : State) : List EventRec × Byte := (s.ev.host, s.barr.failed)

theorem hostSide_of (hev : t.ev = s.ev) (hbarr : t.barr.failed = s.barr.failed) : hostSide t = hostSide s := by
  rw [hostSide, hev, hbarr, hostSide]

theorem hostSide_note_field (code : BitVec 16) (sev : BitVec 2) (chan : Byte) (data : List Byte) (s : State) :
    hostSide (note .field code sev chan data s) = hostSide s := by
  obtain ⟨-, -, -, hfailed, -⟩ := lanes_fields (lanes_note .field code sev chan data s)
  rw [hostSide, host_note_field, hfailed, hostSide]

/-! ### TB, the pulse and the field side -/

theorem epochClock_keeps (s : State) : Only [.clk] s (epochClock s) ∧ (epochClock s).clk.tb = s.clk.tb ∧
    (epochClock s).clk.pps = s.clk.originGps ∧ (epochClock s).clk.relocks = s.clk.relocks ∧
    (epochClock s).clk.tree = s.clk.tree := by
  unfold epochClock
  refine ⟨fun p hp => by cases p <;> simp_all [same], ?_⟩
  dsimp only
  split <;> exact ⟨rfl, rfl, rfl, rfl⟩

theorem only_epochMark (s : State) : Only [.free, .gnss] s (epochMark s) := by
  have hform : ∃ g, formMark s = draw { s with gnss := g } := ⟨_, rfl⟩
  obtain ⟨g, hform⟩ := hform
  unfold epochMark
  rw [hform]
  split <;> exact fun p hp => by cases p <;> simp_all [same, draw]

/-- TB at the edge, and the pulse of a new epoch. -/
def epochBegun (s : State) : State := epochMark (epochBarrier (epochClock (toEdge 11 ticksPerEpoch s)))

theorem epochBegun_keeps (s : State) : Only [.free, .clk, .barr, .gnss] s (epochBegun s) ∧
    (epochBegun s).clk.tb = (toEdge 11 ticksPerEpoch s).clk.tb ∧ (epochBegun s).clk.pps = s.clk.originGps ∧
    (epochBegun s).clk.relocks = s.clk.relocks ∧ (epochBegun s).clk.tree = s.clk.tree ∧
    hostSide (epochBegun s) = hostSide s := by
  have hedge := only_toEdge 11 ticksPerEpoch s
  have hat : (toEdge 11 ticksPerEpoch s).clk.originGps = s.clk.originGps ∧
      (toEdge 11 ticksPerEpoch s).clk.relocks = s.clk.relocks ∧ (toEdge 11 ticksPerEpoch s).clk.tree = s.clk.tree ∧
      (toEdge 11 ticksPerEpoch s).barr.failed = s.barr.failed := ⟨rfl, rfl, rfl, rfl⟩
  unfold epochBegun
  generalize toEdge 11 ticksPerEpoch s = e at hedge hat ⊢
  obtain ⟨hgps, hrelock, htree, hfail⟩ := hat
  obtain ⟨hclock, htb, hpps, hrelocks, htree'⟩ := epochClock_keeps e
  have hmark := only_epochMark (epochBarrier (epochClock e))
  have hbarr : Only [.barr] (epochClock e) (epochBarrier (epochClock e)) := only_barr _ _
  have hclk := same_trans (hbarr .clk (by simp)) (hmark .clk (by simp))
  have hfailed : (epochBarrier (epochClock e)).barr.failed = s.barr.failed := hfail ▸ rfl
  refine ⟨only_trans (only_mono hedge (by simp)) (only_trans (only_mono hclock (by simp))
    (only_trans (only_mono hbarr (by simp)) (only_mono hmark (by simp)))), ?_, ?_, ?_, ?_, hostSide_of ?_ ?_⟩
  · exact (congrArg Clock.tb hclk).trans htb
  · exact (congrArg Clock.pps hclk).trans (hpps.trans hgps)
  · exact (congrArg Clock.relocks hclk).trans (hrelocks.trans hrelock)
  · exact (congrArg Clock.tree hclk).trans (htree'.trans htree)
  · exact same_trans (same_trans (hedge .ev (by simp)) (hclock .ev (by simp)))
      (same_trans (hbarr .ev (by simp)) (hmark .ev (by simp)))
  · exact (congrArg Barrier.failed (hmark .barr (by simp))).trans hfailed

theorem epochOutputs_keeps (s : State) :
    Only [.barr, .out, .ev] s (epochOutputs s) ∧ hostSide (epochOutputs s) = hostSide s := by
  have hnote (n : Fin 32) (u : State) : Only [.barr, .out, .ev] u (note .field 0x1004 0 (chanByte n) [] u) :=
    only_mono (only_note_field _ _ _ _ u) (by simp)
  have houts (o : Outputs) : Only [.barr, .out, .ev] s { s with out := o } := fun p hp => by
    cases p <;> simp_all [same]
  unfold epochOutputs
  refine foldl_inv (fun u => Only [.barr, .out, .ev] s u ∧ hostSide u = hostSide s) _ (fun u n h => ?_) _ _
    ⟨houts _, rfl⟩
  obtain ⟨honly, hside⟩ := h
  exact ⟨only_trans honly (hnote n u), (hostSide_note_field ..).trans hside⟩

theorem epochField_keeps (samples : List (Fin 32 × BitVec 12)) (s : State) :
    Only [.barr, .out, .ev] s (epochField samples s) ∧ hostSide (epochField samples s) = hostSide s := by
  have hsamples : Only [.out] s (samples.foldl (fun s x => takeSample x.1 x.2 s) s) :=
    foldl_inv (Only [.out] s) _ (fun u x h => only_trans h (only_takeSample x.1 x.2 u)) _ s (only_refl _ s)
  unfold epochField
  split
  · exact ⟨only_refl _ s, rfl⟩
  · obtain ⟨honly, hside⟩ := epochOutputs_keeps (samples.foldl (fun s x => takeSample x.1 x.2 s) s)
    exact ⟨only_trans (only_mono hsamples (by simp)) honly,
      hside.trans (hostSide_of (hsamples .ev (by simp)) (congrArg Barrier.failed (hsamples .barr (by simp))))⟩

/-! ### The records that close, and flash (R424, R430, R434) -/

/-- A record after the epoch edge. -/
def epochShut (occ : List (Side × BitVec 16 × Byte)) (r : EventRec) : EventRec :=
  if closesNow occ r then { r with opened := false } else r

theorem closeEpoch_keeps (s : State) : (closeEpoch s).ev.host = s.ev.host.map (epochShut s.ev.epochOcc) ∧
    (closeEpoch s).ev.epochOcc = [] ∧ (closeEpoch s).barr.failed = s.barr.failed ∧
    Only [.barr, .ev] s (closeEpoch s) := by
  have hsend (l : List EventRec) (u : State) : (l.foldl (fun s r => sendEvent r s) u).ev.host = u.ev.host ∧
      (l.foldl (fun s r => sendEvent r s) u).ev.epochOcc = u.ev.epochOcc ∧
      (l.foldl (fun s r => sendEvent r s) u).barr.failed = u.barr.failed :=
    ⟨foldl_keep (fun u : State => u.ev.host) (fun s r => sendEvent r s) (fun _ _ => rfl) l u,
      foldl_keep (fun u : State => u.ev.epochOcc) (fun s r => sendEvent r s) (fun _ _ => rfl) l u,
      foldl_keep (fun u : State => u.barr.failed) (fun s r => sendEvent r s) (fun _ _ => rfl) l u⟩
  unfold closeEpoch
  obtain ⟨hhost, hocc, hfailed⟩ := hsend _ _
  refine ⟨hhost.trans rfl, hocc.trans rfl, hfailed.trans rfl, fun p hp => by cases p <;> simp_all [same]⟩

/-- A NOTE is closed at the edge, a record of ERROR or above is left (R430). -/
theorem epochShut_note {occ : List (Side × BitVec 16 × Byte)} {r : EventRec} (h : (epochShut occ r).sev.toNat = 0) :
    (epochShut occ r).opened = false := by
  unfold epochShut at h ⊢
  split
  · rfl
  next hopen =>
    rw [if_neg hopen] at h
    have hsev : r.sev = 0 := BitVec.eq_of_toNat_eq h
    simpa [closesNow, hsev] using hopen

theorem epochShut_error {occ : List (Side × BitVec 16 × Byte)} {r : EventRec} (h : 2 ≤ r.sev.toNat) :
    epochShut occ r = r := by
  have h0 : r.sev ≠ 0 := fun h0 => by simp [h0] at h
  have h1 : r.sev ≠ 1 := fun h1 => by simp [h1] at h
  have hstays : closesNow occ r = false := by
    rw [closesNow, beq_eq_false_iff_ne.mpr h0, beq_eq_false_iff_ne.mpr h1]
    simp
  rw [epochShut, hstays]
  rfl

theorem epochFlash_keeps (s : State) : (epochFlash s).ev.host = s.ev.host ∧
    (epochFlash s).ev.epochOcc = s.ev.epochOcc ∧ Only [.fw, .ev] s (epochFlash s) ∧
    (hcoreRuns s = true → domOn s 4 = true → (epochFlash s).ev.unlogged = [] ∧ (epochFlash s).fw.asBuf = [] ∧
      (epochFlash s).fw.asRing = lastN 262144 (s.fw.asRing ++ s.fw.asBuf)) := by
  unfold epochFlash
  split
  · refine ⟨?_, ?_, fun p hp => by cases p <;> simp_all [same], fun _ _ => ⟨?_, ?_, ?_⟩⟩ <;>
      simp [commitRecords, writeApplied, writeLog]
  next hno => exact ⟨rfl, rfl, only_refl _ s, fun hrun hdom => absurd (by rw [hrun, hdom]; rfl) hno⟩

/-! ### The edge -/

theorem epochHost_member (peers : List PeerLook) (hmember : isHead s = false) : epochHost peers s = s := by
  have hreport : tcReport peers s = s := by
    unfold tcReport
    rw [hmember]
    exact if_pos (by simp)
  unfold epochHost
  rw [hreport, aidBroadcast, hmember]
  exact ite_self s

theorem only_antennaEpoch (s : State) : Only [.free, .gnss] s (antennaEpoch s) := by
  unfold antennaEpoch
  split
  · exact fun p hp => by cases p <;> simp_all [same, draw]
  · exact only_refl _ s

/-- The snapshot of the counters that status commands return (log entry 64). -/
def epochSnap (s : State) : EpochSnap :=
  { relocks := s.clk.relocks, failed := s.barr.failed, upBreaks := s.chain.upBreaks, dnBreaks := s.chain.dnBreaks
    errUp := s.chain.errUp, errDn := s.chain.errDn }

/-- The snapshots of an epoch edge. -/
def snapped (s : State) : State :=
  { s with ev := { s.ev with openCounts := openRecords s, snap := epochSnap s } }

/-- The state in which an epoch edge closes records. -/
def epochMeasured (samples : List (Fin 32 × BitVec 12)) (s : State) : State := epochField samples (epochBegun s)

/-- What an epoch edge has done when H-core's own duties begin. -/
def epochServed (samples : List (Fin 32 × BitVec 12)) (s : State) : State :=
  epochFlash (closeEpoch (epochMeasured samples s))

theorem epochEdge_clocked (peers : List PeerLook) (samples : List (Fin 32 × BitVec 12)) (hclk : clockOn s = true) :
    epochEdge peers samples s = snapped (antennaEpoch (epochHost peers (epochServed samples s))) := by
  unfold epochEdge
  rw [if_neg (by simp [hclk])]
  extract_lets a b c snap
  have hc : c = antennaEpoch (epochHost peers (epochServed samples s)) := rfl
  rw [← hc]
  clear_value c
  rfl

theorem snapped_keeps (s : State) : Only [.ev] s (snapped s) ∧ (snapped s).ev.openCounts = openRecords (snapped s) ∧
    (snapped s).ev.snap = epochSnap s ∧ (snapped s).ev.host = s.ev.host ∧ (snapped s).ev.epochOcc = s.ev.epochOcc ∧
    (snapped s).ev.unlogged = s.ev.unlogged :=
  ⟨fun p hp => by cases p <;> simp_all [same, snapped], rfl, rfl, rfl, rfl, rfl⟩

theorem epochSnap_of {ps : List Part} (h : Only ps s t) (hchain : Part.chain ∉ ps)
    (hrelocks : t.clk.relocks = s.clk.relocks)
    (hfailed : t.barr.failed = s.barr.failed) : epochSnap t = epochSnap s := by
  have hc : t.chain = s.chain := h .chain hchain
  rw [epochSnap, hrelocks, hfailed, hc, epochSnap]

theorem epochMeasured_keeps (samples : List (Fin 32 × BitVec 12)) (s : State) :
    Only [.free, .clk, .barr, .gnss, .out, .ev] s (epochMeasured samples s) ∧
    (epochMeasured samples s).clk.tb = (toEdge 11 ticksPerEpoch s).clk.tb ∧
    (epochMeasured samples s).clk.pps = s.clk.originGps ∧ (epochMeasured samples s).clk.relocks = s.clk.relocks ∧
    (epochMeasured samples s).clk.tree = s.clk.tree ∧    hostSide (epochMeasured samples s) = hostSide s := by
  obtain ⟨hbegun, htb, hpps, hrelocks, htree, hside⟩ := epochBegun_keeps s
  obtain ⟨hfield, hside'⟩ := epochField_keeps samples (epochBegun s)
  have hclk := hfield .clk (by simp)
  exact ⟨only_trans (only_mono hbegun (by simp)) (only_mono hfield (by simp)), (congrArg Clock.tb hclk).trans htb,
    (congrArg Clock.pps hclk).trans hpps, (congrArg Clock.relocks hclk).trans hrelocks,
    (congrArg Clock.tree hclk).trans htree, hside'.trans hside⟩

/-- What the closing of records and the write to flash lead to. -/
structure EpochClosed (s t : State) : Prop where
  only : Only [.barr, .fw, .ev] s t
  failed : t.barr.failed = s.barr.failed
  host : t.ev.host = s.ev.host.map (epochShut s.ev.epochOcc)
  occ : t.ev.epochOcc = []
  flash : hcoreRuns s = true → domOn s 4 = true → t.ev.unlogged = [] ∧ t.fw.asBuf = [] ∧
    t.fw.asRing = lastN 262144 (s.fw.asRing ++ s.fw.asBuf)

theorem hcoreRuns_of_only {ps : List Part} (h : Only ps s t) (hc : t.clk.tree = s.clk.tree)
    (hps : Part.pwr ∉ ps ∧ Part.modes ∉ ps ∧ Part.sec ∉ ps) :
    hcoreRuns t = hcoreRuns s ∧ ∀ d, domOn t d = domOn s d := by
  obtain ⟨hpwr, hmodes, hsec⟩ := hps
  have hp : t.pwr = s.pwr := h .pwr hpwr
  have hm : t.modes = s.modes := h .modes hmodes
  have hs : t.sec = s.sec := h .sec hsec
  have hdom (d : Fin 18) : domOn t d = domOn s d := by rw [domOn, hp, domOn]
  exact ⟨by rw [hcoreRuns, clockOn, hc, hdom, hm, hs, hcoreRuns, clockOn], hdom⟩

theorem epochClosed (s : State) : EpochClosed s (epochFlash (closeEpoch s)) := by
  obtain ⟨hhost, hocc, hfailed, honly⟩ := closeEpoch_keeps s
  obtain ⟨hhost', hocc', honly', hflash⟩ := epochFlash_keeps (closeEpoch s)
  have htree := congrArg Clock.tree (honly .clk (by simp))
  obtain ⟨hrun, hdom⟩ := hcoreRuns_of_only honly htree (by simp)
  have hfw : (closeEpoch s).fw = s.fw := honly .fw (by simp)
  rw [hrun, hdom, hfw] at hflash
  exact ⟨only_trans (only_mono honly (by simp)) (only_mono honly' (by simp)),
    (congrArg Barrier.failed (honly' .barr (by simp))).trans hfailed, hhost'.trans hhost, hocc'.trans hocc, hflash⟩

theorem epochEdgeCompletes (peers : List PeerLook) (samples : List (Fin 32 × BitVec 12)) (hclk : clockOn s = true)
    (hmember : isHead s = false) : Completes (.epochEdge peers samples) s fun t =>
      t.clk.tb = (toEdge 11 ticksPerEpoch s).clk.tb ∧ t.clk.pps = s.clk.originGps ∧ t.ev.openCounts = openRecords t ∧
      t.ev.snap = { relocks := s.clk.relocks, failed := s.barr.failed, upBreaks := s.chain.upBreaks,
                    dnBreaks := s.chain.dnBreaks, errUp := s.chain.errUp, errDn := s.chain.errDn } ∧
      t.ev.epochOcc = [] ∧ (∀ r ∈ t.ev.host, r.sev.toNat = 0 → r.opened = false) ∧
      (∀ r ∈ s.ev.host, 2 ≤ r.sev.toNat → r ∈ t.ev.host) ∧
      (hcoreRuns s = true → domOn s 4 = true → t.ev.unlogged = [] ∧ t.fw.asBuf = [] ∧
        t.fw.asRing = lastN 262144 (s.fw.asRing ++ s.fw.asBuf)) ∧
      Only [.free, .clk, .barr, .out, .gnss, .fw, .ev] s t := by
  obtain ⟨hbefore, htb, hpps, hrelocks, htree, hside⟩ := epochMeasured_keeps samples s
  have hclosed := epochClosed (epochMeasured samples s)
  have hserved : epochServed samples s = epochFlash (closeEpoch (epochMeasured samples s)) := rfl
  have hhead : isHead (epochServed samples s) = false := by
    have hchain : (epochServed samples s).chain = s.chain := by
      rw [hserved]
      exact same_trans (hbefore .chain (by simp)) (hclosed.only .chain (by simp))
    rw [isHead, hchain]
    exact hmember
  have hedge := epochEdge_clocked peers samples hclk
  rw [epochHost_member peers hhead, hserved] at hedge
  generalize epochMeasured samples s = m at hbefore htb hpps hrelocks htree hside hclosed hedge
  generalize epochFlash (closeEpoch m) = v at hclosed hedge
  have hant := only_antennaEpoch v
  generalize antennaEpoch v = a at hant hedge
  obtain ⟨hsnap, hcounts, hvalues, hhost, hocc, hunlogged⟩ := snapped_keeps a
  obtain ⟨hmhost, hmfailed⟩ := Prod.mk.inj hside
  have hev : a.ev = v.ev := hant .ev (by simp)
  have hafter : Only [.free, .barr, .gnss, .fw, .ev] m a :=
    only_trans (only_mono hclosed.only (by simp)) (only_mono hant (by simp))
  have hall : Only [.free, .clk, .barr, .out, .gnss, .fw, .ev] s a :=
    only_trans (only_mono hbefore (by simp)) (only_mono hafter (by simp))
  have hclkt : (snapped a).clk = m.clk := same_trans (hafter .clk (by simp)) (hsnap .clk (by simp))
  have hfwt : (snapped a).fw = v.fw := same_trans (hant .fw (by simp)) (hsnap .fw (by simp))
  have hmfw : m.fw = s.fw := hbefore .fw (by simp)
  have hqueue : (snapped a).ev.host = s.ev.host.map (epochShut m.ev.epochOcc) := by
    rw [hhost, hev, hclosed.host, hmhost]
  obtain ⟨hrun, hdom⟩ := hcoreRuns_of_only hbefore htree (by simp)
  refine ⟨snapped a, congrArg Host.Outcome.next hedge, ?_, ?_, hcounts, ?_, ?_, fun r hr hsev => ?_,
    fun r hr hsev => ?_, fun hruns hflash => ?_, only_trans hall (only_mono hsnap (by simp))⟩
  · rw [hclkt, htb]
  · rw [hclkt, hpps]
  · have hc : a.clk = m.clk := hafter .clk (by simp)
    have hb : a.barr = v.barr := hant .barr (by simp)
    exact hvalues.trans (epochSnap_of hall (by simp) (by rw [hc, hrelocks]) (by rw [hb, hclosed.failed, hmfailed]))
  · rw [hocc, hev, hclosed.occ]
  · rw [hqueue] at hr
    obtain ⟨x, -, rfl⟩ := List.mem_map.mp hr
    exact epochShut_note hsev
  · rw [hqueue]
    exact List.mem_map.mpr ⟨r, hr, epochShut_error hsev⟩
  · obtain ⟨hlog, hbuf, hkept⟩ := hclosed.flash (hrun.trans hruns) ((hdom 4).trans hflash)
    rw [hunlogged, hev, hfwt, hlog, hbuf, hkept, hmfw]
    exact ⟨rfl, rfl, rfl⟩

theorem epochEdge_unclocked (peers : List PeerLook) (samples : List (Fin 32 × BitVec 12)) (hclk : clockOn s = false) :
    Completes (.epochEdge peers samples) s fun t => t = s :=
  ⟨s, congrArg Host.Outcome.next (if_pos (by rw [hclk]; rfl)), rfl⟩

/-- Settles O59: each record's way between the sides, what the event requests do, and the edge from the state in
which it closes records. -/
theorem eventRecordsAndEpochEdges : Obligations.EventRecordsAndEpochEdges := by
  unfold Obligations.EventRecordsAndEpochEdges
  refine ⟨fun s => ⟨fun r h => ⟨eventMessage_new h, eventMessage_known h⟩, fun n r => eventResend_sends,
    fun n => eventResend_none, fun r => eventHandle_last, fun q hlen h hmode hsel hmin hmax =>
    eventRead_answers h hlen hmode hsel hmin hmax, fun q hlen h => ⟨eventClose_none h hlen, fun r hr hside => ?_⟩,
    fun id hdom hlink hclk => fevCloseCompletes id hdom hlink hclk⟩, fun s => ⟨fun peers samples hclk =>
    epochEdge_unclocked peers samples hclk, fun peers samples hclk hmember =>
    epochEdgeCompletes peers samples hclk hmember, fun q hlen h hmin hmax =>
    ⟨asappliedRead_none h hlen hmin hmax, asappliedRead_some h hlen hmin hmax⟩⟩⟩
  exact eventClose_host h hlen hr hside

end Sys2Proof.Proofs

/-! Diagnostic sweeps (R452 to R455). -/

namespace Sys2Proof.Proofs

open Sys2Proof.Machine Sys2Proof.Safety Sys2Proof.Laws

variable {q : Request} {s t u : State} {w : Sweep}

/-! ## SWEEP_START is accepted for its frame (R452, R454) -/

/-- The cell that carries the sweep of a request to the field side. -/
def startCell (q : Request) : Cell :=
  .sweepCtrl (.start (Fin.ofNat 4 (byteAt (reqBody q) 0).toNat) (wordAt (reqBody q) 1)
    (BitVec.ofNat 16 (beAt (reqBody q) 5 2)) q.pkt.applyAt)

theorem sweepHand_eq (q : Request) (s : State) :
    sweepHand q s = if linkUp s then sendCell (startCell q) s else s := rfl

/-- A sweep that is stored is kept for its frame, or handed over at once. -/
theorem keepSched_sweep (q : Request) (s : State) : ∃ b : Bool,
    (keepSched opSweepStart q s).pkt.sched = s.pkt.sched ++ [{ q := q, handed := b }] ∧
    (keepSched opSweepStart q s).out = s.out ∧ Only [.pkt, .barr] s (keepSched opSweepStart q s) := by
  have hhand (v : State) :
      (sweepHand q v).pkt = v.pkt ∧ (sweepHand q v).out = v.out ∧ Only [.barr] v (sweepHand q v) := by
    rw [sweepHand_eq]
    split
    · exact ⟨rfl, rfl, (sendCell_barr ..).2.2⟩
    · exact ⟨rfl, rfl, only_refl _ v⟩
  have hpkt (k : Packets) : Only [.pkt] s { s with pkt := k } := fun p hp => by cases p <;> simp_all [same]
  refine ⟨decide (frameDiff q.pkt.applyAt (now s) < 1000), ?_⟩
  unfold keepSched
  extract_lets soon l _ v
  have hv : v.pkt.sched = l ∧ v.out = s.out ∧ Only [.pkt] s v := ⟨rfl, rfl, hpkt _⟩
  obtain ⟨hsched, hout, honly⟩ := hv
  clear_value v
  split
  · obtain ⟨hp, ho, hb⟩ := hhand v
    exact ⟨(congrArg Packets.sched hp).trans hsched, ho.trans hout,
      only_trans (only_mono honly (by simp)) (only_mono hb (by simp))⟩
  · exact ⟨hsched, hout, only_mono honly (by simp)⟩

section Start

variable (hrun : hcoreRuns s = true) (hop : q.pkt.opcode = 0x5A) (hformat : checkFormat q = none)
  (hme : forMe q s = true) (hother : otherChain q s = false) (hdup : s.pkt.dups.find? (isDup q) = none)
include hrun hop hformat hme hother hdup

theorem sweepStart_process : exec (.sweepStart q) s = .next (process opSweepStart q (taken q s)) := by
  have hsingle : q.pkt.bcast = false := by simp_all [forMe]
  have hplace : notHead q s = false ∧ forOther q s = false := by simp [notHead, forOther, hme, hsingle]
  refine congrArg _ ((serve_takeIn opSweepStart hop hrun).trans ?_)
  simp only [takeIn, hformat, hother, hplace, hdup, Bool.false_eq_true, if_false, taken]

variable (hparts : q.parts = []) (hmore : q.pkt.more = false) (hmode : s.modes.mode = .loam)
  (hlife : checkLife 0x5A s = none) (hlen : (reqBody q).length = 7) (hkind : (byteAt (reqBody q) 0).toNat ≤ 3)
  (hsched : q.pkt.sched = true) (hvalid : s.clk.valid = true) (hnear : 400 ≤ frameDiff q.pkt.applyAt (now s))
  (hfar : frameDiff q.pkt.applyAt (now s) ≤ 86400000000) (hroom : s.pkt.sched.length < 64)

omit hrun hop hformat hother hdup in
include hparts hmore hmode hlife hlen hkind hsched hvalid hnear hfar hroom in
theorem vet_sweepStart : vet opSweepStart q (taken q s) = none := by
  have hsingle : q.pkt.bcast = false := by simp_all [forMe]
  have hnow : now (taken q s) = now s := taken_keep now q s
  have hl : checkLife 0x5A (taken q s) = none := (taken_keep (checkLife 0x5A) q s).trans hlife
  have hplan : (taken q s).pkt.sched = s.pkt.sched := taken_keep (fun u => u.pkt.sched) q s
  have hc : opSweepStart.check q (taken q s) = none := by simp [opSweepStart, lenIs_of hlen, param, hkind]
  have hs : checkSched { silt := false, b := true, sched := true, must := true } q (taken q s) = none := by
    unfold checkSched
    rw [hsched, hnow, hplan]
    simp [hvalid, Int.not_lt.mpr hnear, Int.not_lt.mpr hfar, Nat.not_le.mpr hroom]
  have hm : checkMode { silt := false, b := true, sched := true, must := true } (taken q s) = none := by
    simp [checkMode, hmode]
  have hcode : opInfo opSweepStart.code = some { silt := false, b := true, sched := true, must := true } := rfl
  have hcl : checkLife opSweepStart.code (taken q s) = none := hl
  have hlop : opSweepStart.life q (taken q s) = none := rfl
  simp [vet, hcode, hparts, hmore, hm, hcl, hlop, hsingle, hc, hs]

omit hop hformat hother hdup hrun in
include hsched in
/-- A scheduled request that names the node alone is answered with what its acceptance says. -/
theorem actOn_sweepStart (v : State) :
    (∀ a, sweepStartState q v = some a → actOn opSweepStart q v = reply q a v) ∧
    (sweepStartState q v = none →
      actOn opSweepStart q v = reply q { status := 0x01 } (keepSched opSweepStart q (sweepAccepted q v))) := by
  have hsingle : q.pkt.bcast = false := by simp_all [forMe]
  have howe : passesOn q v = false ∧ owe q v = v := by simp [owe, passesOn, hsingle]
  have haccept : opSweepStart.accept q v = sweepStartState q v := rfl
  unfold actOn actNow
  rw [howe.1, howe.2, hsched, haccept]
  refine ⟨fun a ha => ?_, fun ha => ?_⟩ <;> rw [ha] <;> rfl

include hparts hmore hmode hlife hlen hkind hsched hvalid hnear hfar hroom in
theorem sweepStart_exec : exec (.sweepStart q) s = .next (actOn opSweepStart q (taken q s)) := by
  have hsingle : q.pkt.bcast = false := by simp_all [forMe]
  rw [sweepStart_process hrun hop hformat hme hother hdup, process,
    vet_sweepStart hme hparts hmore hmode hlife hlen hkind hsched hvalid hnear hfar hroom, hsingle]
  rfl

variable (hlink : linkUp s = true)
include hlink hparts hmore hmode hlife hlen hkind hsched hvalid hnear hfar hroom

theorem sweepStart_clay (hclay : s.modes.clay = true) :
    Answers (.sweepStart q) q s id { status := 0x11, detail := 0x24 } := by
  have hlink' : linkUp (taken q s) = true := (taken_keep linkUp q s).trans hlink
  have hstate : sweepStartState q (taken q s) = some { status := 0x11, detail := 0x24 } := by
    simp [sweepStartState, hlink', hclay, refuse]
  exact (sweepStart_exec hrun hop hformat hme hother hdup hparts hmore hmode hlife hlen hkind hsched hvalid hnear hfar
    hroom).trans (congrArg Host.Outcome.next ((actOn_sweepStart hme hsched _).1 _ hstate))

theorem sweepStart_kept (hclay : s.modes.clay = false) (hfree : s.out.mirror = none)
    (hbudget : ∀ n ∈ maskList (wordAt (reqBody q) 1), claimOf s n ≤ budget s) (h15 : domOn s 15 = true)
    (h17 : domOn s 17 = true) : Completes (.sweepStart q) s fun t =>
      t.out.mirror = some ⟨BitVec.ofNat 16 (beAt (reqBody q) 5 2), Fin.ofNat 4 (byteAt (reqBody q) 0).toNat,
        wordAt (reqBody q) 1, q.pkt.applyAt, .pending, 0, []⟩ ∧ t.out.sweep = s.out.sweep ∧
      (∃ b : Bool, t.pkt.sched = s.pkt.sched ++ [{ q := q, handed := b }]) ∧
      Answered q { status := 0x01 } t ∧ Served [.out, .barr] s t := by
  have hlink' : linkUp (taken q s) = true := (taken_keep linkUp q s).trans hlink
  have hdom (d : Fin 18) : domOn (taken q s) d = domOn s d := taken_keep (fun u => domOn u d) q s
  have hclaims :
      ((maskList (wordAt (reqBody q) 1)).any fun n => budget (taken q s) < claimOf (taken q s) n) = false := by
    rw [List.any_eq_false]
    intro n hn
    rw [taken_keep budget q s, taken_keep (fun u => claimOf u n) q s]
    simpa using hbudget n hn
  have hstate : sweepStartState q (taken q s) = none := by
    unfold sweepStartState
    dsimp only
    rw [hlink', hclaims]
    simp [sweepBusy, needField, hlink', hclay, hfree, hdom, h15, h17]
  obtain ⟨b, hkept, hout, honly⟩ := keepSched_sweep q (sweepAccepted q (taken q s))
  have hreply (v : State) : (reply q { status := 0x01 } v).out = v.out := by simp
  have haccepted : Only [.out] (taken q s) (sweepAccepted q (taken q s)) := fun p hp => by
    cases p <;> simp_all [same, sweepAccepted]
  refine ⟨_, (sweepStart_exec hrun hop hformat hme hother hdup hparts hmore hmode hlife hlen hkind hsched hvalid hnear
    hfar hroom).trans (congrArg Host.Outcome.next ((actOn_sweepStart hme hsched _).2 hstate)), ?_, ?_, ⟨b, ?_⟩,
    ⟨_, rfl⟩, served_reply q _ (served_of_taken (q := q) ?_)⟩
  · rw [hreply, hout]
    simp [sweepAccepted, hfree]
  · rw [hreply, hout]
    simp [sweepAccepted]
  · rw [(reply_plans ..).1, hkept]
    exact congrArg (· ++ _) (taken_keep (fun u => u.pkt.sched) q s)
  · exact only_mono (only_trans (ps := [.out, .barr, .pkt]) (only_mono haccepted (by simp)) (only_mono honly (by simp)))
      (by simp)

end Start

/-! ## SWEEP_CTRL at the field side (R452, R453) -/

theorem sweepCtrl_start {k : Fin 4} {mask : Word} {id : BitVec 16} {start : Frame48}
    (h : ArrivesDown (.sweepCtrl (.start k mask id start)) s) :
    exec (.sweepCtrl (.start k mask id start)) s = .next { takenDown s with
      out := { s.out with sweep := some ⟨id, k, mask, start, .pending, 0, []⟩ } } := by
  have hout : (takenDown s).out = s.out := by simp
  refine congrArg Host.Outcome.next ((onDown_arrives h _).trans ?_)
  rw [sweepTaken, hout]

theorem sweepCtrl_abort {id : BitVec 16} (hheld : s.out.sweep = some w) (hid : w.sweepId = id)
    (hlive : sweepLive w = true) (h : ArrivesDown (.sweepCtrl (.abort id)) s) :
    Completes (.sweepCtrl (.abort id)) s fun t => t.out.sweep = some (abortedSweep 5 w) ∧
      t.out.mirror = some (abortedSweep 5 w) ∧ t.out.ch = s.out.ch ∧ t.clk = (takenDown s).clk := by
  have hout : (takenDown s).out = s.out := by simp
  generalize hd : takenDown s = d at hout
  have habort : sweepAbortField id.toNat d = abortSweep 5 d := by
    simp [sweepAbortField, hout, hheld, hid]
  have hexec : exec (.sweepCtrl (.abort id)) s = .next (abortSweep 5 d) :=
    congrArg Host.Outcome.next ((onDown_arrives h _).trans (hd ▸ habort))
  refine ⟨_, hexec, ?_⟩
  have hfilter : d.out.sweep.filter sweepLive = some w := by
    rw [hout, hheld]
    simp [hlive]
  unfold abortSweep
  rw [hfilter]
  simp [hout]

/-! ## Slots (R452 to R454) -/

/-- The slot of a sweep's only channel has ended with the result r. -/
def lastSlot (w : Sweep) (r : SweepRes) (s : State) : State :=
  let v := upCell (.capture r) (advanceTo (tickAt w.start 0 s + slotFrames w.kind s * ticksPerFrame) s)
  { v with out := { v.out with sweep := some { w with state := .ended, results := [r] } } }

theorem sweepSlotEnd_last {v1 v2 : Word} {v3 : BitVec 16} {n : Fin 32} (hlink : linkUp s = true)
    (hheld : s.out.sweep = some w) (hrunning : w.state = .running) (hcur : w.cur = n.val) (hone : sweepChannels w = [n])
    (hnone : w.results = []) : sweepSlotEnd v1 v2 v3 true s =
      lastSlot w { ch := n, state := 1, v1 := v1, v2 := v2, v3 := v3 } s := by
  have hdue : startDue s = s := by
    unfold startDue
    rw [hheld]
    exact if_neg (by rw [hrunning]; decide)
  have hfin : Fin.ofNat 32 n.val = n := Fin.ext (Nat.mod_eq_of_lt n.isLt)
  have hfirst : [n].takeWhile (fun c => c != n) = [] := by simp
  have hup (k : Nat) : linkUp (advanceTo k s) = true := hlink
  have hmask : maskList w.mask = [n] := hone
  unfold sweepSlotEnd sweepChannels
  rw [hdue]
  dsimp only
  rw [hheld]
  dsimp only
  rw [hrunning, if_neg (by decide), hcur, hfin, hmask, hnone, hfirst]
  simp [hup, lastSlot, hcur]

theorem sweepSlotEndCompletes {v1 v2 : Word} {v3 : BitVec 16} {n : Fin 32} (hlink : linkUp s = true)
    (hheld : s.out.sweep = some w) (hrunning : w.state = .running) (hcur : w.cur = n.val) (hone : sweepChannels w = [n])
    (hnone : w.results = []) (hclk : s.barr.fieldClock = true) :
    let u := advanceTo (tickAt w.start 0 s + slotFrames w.kind s * ticksPerFrame) s
    let r : SweepRes := { ch := n, state := 1, v1 := v1, v2 := v2, v3 := v3 }
    Completes (.sweepSlotEnd v1 v2 v3 true) s fun t =>
      t.out.sweep = some { w with state := .ended, results := [r] } ∧
      t.barr.rg7 = s.barr.rg7 ++ [queued (.capture r) u] ∧
      t.out.ch = s.out.ch ∧ t.clk = u.clk ∧ Only [.clk, .barr, .out] s t := by
  intro u r
  refine ⟨lastSlot w r s, congrArg Host.Outcome.next (sweepSlotEnd_last hlink hheld hrunning hcur hone hnone), ?_⟩
  have hu : Only [.clk, .barr] s u := only_advanceTo _ s
  have hkept : u.barr.rg7 = s.barr.rg7 ∧ u.barr.fieldClock = s.barr.fieldClock ∧ u.out = s.out := ⟨rfl, rfl, rfl⟩
  obtain ⟨hring, hfield, hout⟩ := hkept
  have hlast : lastSlot w r s = { upCell (.capture r) u with
      out := { u.out with sweep := some { w with state := .ended, results := [r] } } } := rfl
  rw [hlast]
  clear_value u
  have hch : u.out.ch = s.out.ch := congrArg Outputs.ch hout
  refine ⟨rfl, ?_, hch, rfl, fun p hp => ?_⟩
  · simp [upCell, hfield, hclk, hring]
  · have hp' := hu p (by simp_all)
    cases p <;> simp_all [same, upCell]

theorem captureData_first {r : SweepRes} {m : Sweep} (hm : s.out.mirror = some m) (hnone : m.results = [])
    (hrunning : m.state = .running) (h : ArrivesUp (.capture r) s) :
    exec (.captureData r) s = .next { takenUp (.capture r) s with
      out := { s.out with mirror := some { m with
        results := [r], cur := r.ch.val
        state := if (sweepChannels m).getLast? = some r.ch then .ended else .running } } } := by
  have hout : (takenUp (.capture r) s).out = s.out := by simp
  refine congrArg Host.Outcome.next ((onUp_arrives h _).trans ?_)
  unfold captureTaken sweepChannels
  rw [hout, hm]
  simp only [Option.map_some, hnone, hrunning, List.filter_nil, List.nil_append]
  by_cases hl : (maskList m.mask).getLast? = some r.ch <;> simp [hl]

/-! ## SWEEP_RESULT and SWEEP_ABORT (R453, R455) -/

theorem sweepResult_none (h : Accepted 0x5B q s) (hlen : (reqBody q).length = 3)
    (hfrom : (byteAt (reqBody q) 2).toNat ≤ 31) (hnone : s.out.mirror = none) :
    Answers (.sweepResult q) q s id { status := 0x21, detail := 0x0B } := by
  exact congrArg Host.Outcome.next (serve_refused opSweepResult q s _ h.1 rfl (by
    simp [opSweepResult, lenIs_of hlen, param, hfrom, noSweep, hnone, refuse]))

theorem noSweep_held (hm : s.out.mirror = some w) (hid : w.sweepId.toNat = beAt (reqBody q) 0 2) :
    noSweep q (taken q s) = none := by
  have hout : (taken q s).out.mirror = some w := (taken_keep (fun u => u.out.mirror) q s).trans hm
  rw [noSweep, hout]
  simp [hid]

theorem sweepResult_held (h : Accepted 0x5B q s) (hlen : (reqBody q).length = 3)
    (hfrom : (byteAt (reqBody q) 2).toNat ≤ 31) (hm : s.out.mirror = some w)
    (hid : w.sweepId.toNat = beAt (reqBody q) 0 2) : Answers (.sweepResult q) q s id {
      data := (be 2 w.sweepId.toNat ++ [BitVec.ofNat 8 w.kind.val,
          BitVec.ofNat 8 (sweepCode w.state + 4 * b2n (sweepWhole w))] ++
        be 6 w.start.toNat ++ be 4 w.mask.toNat ++ (((sweepChannels w).filter fun n =>
          (byteAt (reqBody q) 2).toNat ≤ n.val).take 18).flatMap fun n => resBytes (resultOf w n)) } := by
  have hout : (taken q s).out.mirror = some w := (taken_keep (fun u => u.out.mirror) q s).trans hm
  have hfilter : (taken q s).out.mirror.filter (fun w => w.sweepId.toNat = beAt (reqBody q) 0 2) = some w := by
    rw [hout]
    simp [hid]
  refine answers_of opSweepResult h (f := id)
    (hc := by simp [opSweepResult, lenIs_of hlen, param, hfrom, noSweep_held hm hid]) (hact := ?_)
  change sweepResultAct q (taken q s) = _
  unfold sweepResultAct
  dsimp only
  rw [hfilter]
  rfl

theorem sweepAbort_sent (hlink : linkUp s = true) (hlen : (reqBody q).length = 2) (h : Accepted 0x5C q s)
    (hm : s.out.mirror = some w) (hid : w.sweepId.toNat = beAt (reqBody q) 0 2) (hfree : s.pkt.sched = [])
    (hheld : s.barr.rg6Held = []) (hroom : s.barr.rg6.length < 128) :
    Answers (.sweepAbort q) q s (sendCell (.sweepCtrl (.abort w.sweepId))) {} := by
  have hlink' : linkUp (taken q s) = true := (taken_keep linkUp q s).trans hlink
  have hbarr : (taken q s).barr = s.barr := by simp
  have harena : barrierArena q 1 (taken q s) = none :=
    barrierArena_room (by rw [hbarr]; exact hheld) (by rw [hbarr]; omega)
  have hname : BitVec.ofNat 16 (beAt (reqBody q) 0 2) = w.sweepId := by
    rw [← hid]
    exact BitVec.ofNat_toNat ..
  obtain ⟨⟨i, -, -, -, -, -, -, -, -, -, -, hsched, -⟩, -⟩ := id h
  refine answers_of opSweepAbort h (f := sendCell (.sweepCtrl (.abort w.sweepId)))
    (hc := by simp [opSweepAbort, lenIs_of hlen, noSweep_held hm hid]) (hact := ?_)
  change sweepAbortAct q (taken q s) = _
  simp [sweepAbortAct, hlink', hfree, hsched, harena, hname, done]

/-- Settles O60, request by request and cell by cell. -/
theorem sweepsAreAcceptedRunAndRead : Obligations.SweepsAreAcceptedRunAndRead := by
  unfold Obligations.SweepsAreAcceptedRunAndRead
  intro s hlink
  refine ⟨fun q hrun hop hformat hme hother hdup hparts hmore hmode hlife hlen hkind hsched hvalid hnear hfar hroom =>
    ⟨sweepStart_clay hrun hop hformat hme hother hdup hparts hmore hmode hlife hlen hkind hsched hvalid hnear hfar hroom
      hlink,
    sweepStart_kept hrun hop hformat hme hother hdup hparts hmore hmode hlife hlen hkind hsched hvalid hnear hfar hroom
      hlink⟩, fun k mask id start => sweepCtrl_start, fun id w => sweepCtrl_abort, fun v1 v2 v3 n w hheld hrunning hcur
    hone hnone hclk => sweepSlotEndCompletes hlink hheld hrunning hcur hone hnone hclk, fun r m => captureData_first,
    fun q hlen h hfrom => ⟨sweepResult_none h hlen hfrom, fun w => sweepResult_held h hlen hfrom⟩,
    fun q w hlen h hm hid hfree hheld hroom => sweepAbort_sent hlink hlen h hm hid hfree hheld hroom⟩

end Sys2Proof.Proofs
